-- ==== Sys2Proof/Word.lean ====
section
/-! DEFINITION. The word types of the G880 and the index types of its hierarchy (R4, R11). -/

namespace Sys2Proof

/-- A byte of a register, a frame, a record or a memory. -/
abbrev Byte := BitVec 8
/-- A 32-bit register word (R11). -/
abbrev W32 := BitVec 32
/-- A 64-bit quantity: time-base nanoseconds, addresses on the host's bus. -/
abbrev W64 := BitVec 64

/-- A bar (colour slot) b, 0 to 7 (R4). -/
abbrev Bar := Fin 8
/-- A head channel h, 0 to 127 (R4). -/
abbrev Head := Fin 128
/-- A serial lane, 0 to 159 (R327). -/
abbrev Lane := Fin 160
/-- A position channel P0 to P11 (R137). -/
abbrev PosCh := Fin 12
/-- A DMA channel, 0 to 63 (R160). -/
abbrev DmaCh := Fin 64
/-- A feed port, 0 to 23 (R188). -/
abbrev Port := Fin 24
/-- A camera port, 0 or 1 (R251). -/
abbrev CamPort := Fin 2
/-- A DRAM channel, 0 to 3 (R300). -/
abbrev DramCh := Fin 4
/-- A compare unit of the time base, 0 to 15 (R358). -/
abbrev CmpUnit := Fin 16
/-- An MSI-X vector, 0 to 63 (R349). -/
abbrev Vec := Fin 64
/-- A register page index, 0x000 to 0x3FF (R31). -/
abbrev Page := Fin 1024

end Sys2Proof
end

