-- ==== Sys2Proof/Config.lean ====
section
/-! DEFINITION. What the spec leaves open and one device fixes: the free values of the model. Each is an
opaque constant with no body, so that no proof can rest on a value of it (the assumption log names each). -/

namespace Sys2Proof.Config

/-- The data of line-store byte a that nothing has written since power-on number e (R310; log 6). -/
opaque lsByte : (e a : Nat) → Byte
/-- The check result of such a byte: 0 clean, 1 corrected, anything else uncorrectable (R310; log 6). -/
opaque lsClass : (e a : Nat) → Nat
/-- Data byte o of physical rank key k, never written since power-on e (R310; log 6). -/
opaque dramByte : (e k : Nat) → Byte
/-- Check symbol byte of physical burst key k, never written since power-on e (R310; log 6). -/
opaque dramCheck : (e k : Nat) → Byte
/-- What a line-store byte with three or more bits in error reads as, and its class (R308; log 7). -/
opaque lsMiscorrect : (n a : Nat) → Byte
/-- The class of such a byte: 0 clean, 1 corrected, else uncorrectable (R308; log 7). -/
opaque lsMiscorrectClass : (n a : Nat) → Nat
/-- What the queue of endpoint code e holds beyond 16,384 bytes (R161, R168 give levels but no sizes; log 11). -/
opaque queueExtra : (e : Nat) → Nat
/-- Capacity in bytes of the queue of endpoint code e: at least the 255 units of 64 bytes that DMA_PACE can name (R168; log 11). What an
encoder has not taken is in its staging buffer of 0x2_0000 bytes (R81; log 102). -/
def queueCap (e : Nat) : Nat :=
  if 0x20 ≤ e ∧ e < 0x28 then min (16384 + queueExtra e) 0x20000 else 16384 + queueExtra e
/-- Where in staging buffer n its first byte goes: encoder n, decoder n − 8 (R81 gives no layout; log 102). -/
opaque stageStart : (n : Nat) → Nat
/-- How many records a camera port's statistics queue holds (R271 gives no size; log 11). -/
opaque statCap : Nat
/-- Gain error written for a zone or column when the elimination of R281 divides by zero, which only a PIV of 0
allows; the spec states no result there (log 13). -/
opaque solveDivZero : (n b : Nat) → Int
/-- The reference slope a COLREF solve stores when its elimination divides by zero (R293; log 13). -/
opaque slopeDivZero : (n b : Nat) → Int
/-- The stretch measure g_t beyond the 32 bits of LINE_STR_MEAS (R156, R159; log 15). -/
opaque strMeas : (n : Nat) → Nat
/-- JOBLINE in the frames of the idle line with index l, which no rule states (R113, R181; log 30). -/
opaque idleJobLine : (l : Nat) → Nat
/-- Levels that stand at the MFIO balls from outside, at an oscillator time: no command brings them (R405; log 5). -/
opaque mfioLevel : (n t : Nat) → BitVec 8
/-- Whether the home unit's CAMC page is enabled, as a partner whose own is enabled takes it when it would send TRIM or CAL: no message of
R230 says so (R238; log 117). -/
opaque peerCamc : (n : Nat) → Bool
/-- Whether a cause that only a FENCE event reports, as an internal fault, is still present when the soft reset in which it arose
completes (R384; log 127). -/
opaque causeStays : (n : Nat) → Bool
/-- An unstated value the log entry n names; used where the spec gives an effect and no number. -/
opaque free : (n k : Nat) → Nat

end Sys2Proof.Config
end

