-- ==== Sys2Proof/Syntax.lean ====
section
/-! DEFINITION. The commands of the block: one constructor per row of spec/opcode_table.json, with the row's
operands. A command is a host access, a received message, an event at an input or an event the block's own
clock brings about (log 2). -/

namespace Sys2Proof

/-- The registers of the PCI Express configuration space that the spec names (R344, R345, R348, R349; log 12). -/
inductive CfgReg where
  | busMaster | powerState | msixEnable | functionMask
  | vendorId | deviceId | revisionId | classCode | headerType | subsystemVendorId | subsystemId | interruptPin
  /-- Base address register 0 to 5. -/
  | bar (k : Fin 6)
  /-- The ID of one of the four capabilities, in the order of R344. -/
  | capability (k : Fin 4)
  | maxPayloadSupported | completionTimeout | linkSpeed | linkWidth
  | msixSize | msixTable | msixPba
  deriving DecidableEq, Repr

/-- Where a host register access goes: a BAR0 offset (R31) or the configuration space (R344). -/
inductive HostTarget where
  | bar0 (off : BitVec 27)
  | cfg (r : CfgReg)
  deriving DecidableEq, Repr

/-- A memory-window access of any length and byte enables (R57, R346): a byte not enabled is none. -/
inductive Access where
  | read (len : Nat)
  | write (bytes : List (Option Byte))
  deriving DecidableEq, Repr

/-- A differential position input (R140). -/
inductive PosSig where
  | a | b | z
  deriving DecidableEq, Repr

/-- What the host bus answers to a burst's host side (R175): the bytes read (a write needs none), an
Unsupported Request or Completer Abort, or poisoned data. -/
inductive HostResp where
  | ok (bytes : List Byte)
  | refused
  | poisoned
  deriving DecidableEq, Repr

/-- What came in on a lane since the last report: `bad` invalid sync headers, and `run` valid ones after them (R110, R330; log 84). -/
structure HeaderReport where
  lane : Lane
  bad : Nat
  run : Nat
  deriving DecidableEq, Repr

/-- What the checker of a lane found since its last report: whether SYNC stands or sets, and the mismatches (R339; log 84). -/
structure PrbsReport where
  sync : Bool
  errs : Nat
  deriving DecidableEq, Repr

/-- The common head of a Crook message body (R228). -/
structure CrookHdr where
  mseq : W32
  home : Bool
  unit : BitVec 4
  deriving DecidableEq, Repr

/-- One bar's part of JOINDATA (R230), with the reference's SRC and FAILOVER, which R234 has the joiner use and for which the payload of
R230 names no bytes (log 36). -/
structure JoinBar where
  run : Bool
  src : BitVec 2
  failover : Bool
  next : W32
  pitch : W32
  g : W32
  y : W64
  nextPos : W64
  deriving DecidableEq, Repr

/-- A frame start event's source (R255). -/
inductive FrameSrc where
  | trig1 | fval
  deriving DecidableEq, Repr

/-- A solver tier (R280, R282). -/
inductive Tier where
  | zone | column | capture
  deriving DecidableEq, Repr

/-- The sampled or live strap levels (R366). -/
structure Straps where
  unitId : BitVec 4
  home : Bool
  pairEn : Bool
  deriving DecidableEq, Repr

/-- What boot step FLASH reads from the discovery parameters (R368). -/
structure FlashInfo where
  fast144 : Bool
  log2 : Nat
  addr4Instr : Bool
  addr4Mode : Bool
  erase4k : Bool
  erase64k : Bool
  deriving DecidableEq, Repr

/-- The kinds of DIMM that R300 names. -/
inductive DimmKind where
  | rdimm | lrdimm | stacked | udimm
  deriving DecidableEq, Repr

/-- What boot step DRAM reads from one channel's SPD (R300, R301): its DIMMs, ranks and rank size, and what R300 asks of the DIMMs: their
kind, the x72 width, the devices' width and density in Gb, CA parity, ALERT_n and the speed grade in MT/s. -/
structure SpdInfo where
  dimms : Nat
  ranksPerDimm : Nat
  rankLog2 : Nat
  kind : DimmKind := .rdimm
  x72 : Bool := true
  devWidth : Nat := 8
  devGb : Nat := 16
  caParity : Bool := true
  alertN : Bool := true
  grade : Nat := 3200
  deriving DecidableEq, Repr

/-- A channel without DIMMs. -/
def SpdInfo.absent : SpdInfo := { dimms := 0, ranksPerDimm := 0, rankLog2 := 0 }

/-- A PCI Express reset or link event (R348). -/
inductive PcieEvent where
  | perst | hotReset | linkDown
  deriving DecidableEq, Repr

/-- What TCK and TRST_N do at the IEEE 1149.1 TAP (R401; log 130): it is reset, an instruction comes into force, bits are shifted through the
data register, or Update-DR ends such a shift. -/
inductive TapOp where
  | reset | bypass | idcode | samplePreload | extest | clamp | highz
  | shift (tdi : List Bool)
  | update
  deriving DecidableEq, Repr

/-- The commands. -/
inductive Instr where
  | registerWrite (t : HostTarget) (v : W32) (be : BitVec 4)
  | latchingRead (t : HostTarget)
  | pgCtrlEn (p : Page) (en : Bool)
  | srst (p : Page) (en : Bool)
  | softResetStart (p : Page)
  | softResetTimeout (p : Page)
  | softResetComplete (p : Page)
  | fenceRel (p : Page) (en : Bool) (srst : Bool)
  | fence (p : Page) (reasons : List Byte) (src : BitVec 4) (addr : W64)
  | pgIrqRawW1c (p : Page) (mask : W32)
  | errClear (p : Page)
  | commit (p : Page) (gen : Byte) (immediate : Bool)
  | pgLockUnlock (p : Page)
  | pgLockLock (p : Page)
  | vclr
  | cclr
  | apertureAccess (a : BitVec 26) (acc : Access)
  | bar2Access (w : W32) (acc : Access)
  | encodeSegmentLine (b : Bar)
  | forceKey (b : Bar)
  | decodeRecord (b : Bar) (live : Bool)
  | ringRelayout (b : Bar)
  | lineBoundary (b : Bar) (holdN : Bool)
  | handOver (b : Bar)
  | pipeSwapGo (b : Bar) (when : BitVec 2) (tables : BitVec 3)
  | pipeCopy (b : Bar) (tables : BitVec 3)
  | copyEnd (b : Bar)
  | frameStart (h : Head)
  | frameEnd (h : Head)
  | fireSend (h : Head)
  | telemetryRecord (h : Head) (bytes : List Byte)
  | telemetryTimeout (h : Head)
  | countUpdate (c : PosCh) (a b : Bool)
  | index (c : PosCh)
  | lossOfSignal (c : PosCh) (sig : PosSig)
  | still (c : PosCh)
  | posStart
  | serialTransferStart (c : PosCh)
  | serialWord (c : PosCh) (w : BitVec 41)
  | serialTimeout (c : PosCh)
  | posCmpWrite (c : PosCh) (k : Fin 2) (v : W32)
  | posCmpDisarm (c : PosCh) (mask : BitVec 2)
  | posCompareFire (c : PosCh) (k : Fin 2)
  | stretchWindowClose (b : Bar)
  | lineAdjGo (b : Bar) (when : BitVec 2)
  | dmaDb (c : DmaCh)
  | dmaBurst (c : DmaCh) (host : HostResp)
  | descriptorComplete (c : DmaCh)
  | dmaCmdResume (c : DmaCh)
  | dmaCmdAbort (c : DmaCh)
  | completionTimeout (c : DmaCh)
  | jeEn (mask : Byte)
  | dmacJdb (mask : Byte)
  | jobDescriptorFetch (b : Bar)
  | feedFrameReceive (p : Port) (bytes : List Byte)
  | pauseReceive (p : Port) (quanta : BitVec 16)
  | pauseExpiry (p : Port)
  | pauseRepeat (p : Port)
  | recordDelivery (p : Port) (live : Bool)
  | gapTimeout (p : Port) (live : Bool)
  | ackTimeout (p : Port) (live : Bool)
  | profstb (sel : BitVec 3)
  | profCmdGo (slot : BitVec 3) (reload : Bool)
  | profCmdReload (slot : BitVec 3)
  | reloadEnd
  | pwmPeriod
  | underrunWarnExpiry
  | peerCeilingExpiry
  | helloSend
  | stateSend
  | timeSend
  | commandResend (mseq : W32)
  | crookDown
  | hello (hd : CrookHdr) (ver : Byte) (pairEn home : Bool) (unit : BitVec 4) (st : Byte)
  | state (hd : CrookHdr) (st level : Byte) (ack : W32) (lines : List W32) (cause : W32)
  | time (hd : CrookHdr) (reply : Bool) (t1 t2 t3 : W64)
  | digest (hd : CrookHdr) (b : Bar) (ok undr segblk : Bool) (line tbnd wsrc : W32) (digs : List W32)
  | digestTimeout (b : Bar) (line : W32)
  | breathMessage (hd : CrookHdr) (target : W32)
  | giveupMessage (hd : CrookHdr) (cause : Byte) (lines : List W32)
  | join (hd : CrookHdr) (ts : W64)
  | joinLatch
  | joinData (hd : CrookHdr) (ts : W64) (bars : List JoinBar)
  | joinRetry
  | profMessage (hd : CrookHdr) (slot : Byte) (armLine check : W32)
  | swapMessage (hd : CrookHdr) (b : Bar) (tables when : Byte) (line lineAtGo : W32)
  | adj (hd : CrookHdr) (b : Bar) (line adj : W32)
  | gain (hd : CrookHdr) (b : Bar) (line g : W32)
  | chain (hd : CrookHdr) (b : Bar) (profEn : Bool) (prof : BitVec 3) (first jobId lines : W32)
  | trim (hd : CrookHdr) (b : Bar) (line : W32) (k0 nk : BitVec 16) (arm dot : Bool) (part npart : Byte)
      (cycle : W32) (deltas : List Byte)
  | calMessage (hd : CrookHdr) (record : List Byte)
  | hold (hd : CrookHdr) (b : Bar) (held : Bool) (line : W32)
  | pairCmdGiveup
  | pairCmdResume
  | reclaim
  | holdOffExpiry
  | soloTimeout
  | cameraLine (c : CamPort) (pixels : List W64) (check : Option (BitVec 16)) (fvalFell : Bool)
  | frameStartEvent (c : CamPort) (src : FrameSrc)
  | frameClose (c : CamPort)
  | trig0Rise (c : CamPort)
  | triggerPulseEnd (c : CamPort) (k : Fin 2)
  | coverageReadComplete (c : CamPort)
  | statisticsRecord (c : CamPort)
  | flushEnd (c : CamPort)
  | solveEnd (t : Tier)
  | trimCycleBar (b : Bar)
  | calCmdGo (kind : BitVec 3)
  | calCmdAbort
  | calCmdCont
  | calRunEnd
  | flatInstall
  | calRecordIn
  | alertN (c : DramCh)
  | replay (c : DramCh) (again : Bool)
  | alertTimeout (c : DramCh)
  | dramMigCmd (c : DramCh) (lr : BitVec 2)
  | migrationCopyUnit (c : DramCh)
  | refresh (c : DramCh) (rank : Fin 4)
  | retrainPause (c : DramCh) (rank : Fin 4)
  | trackerClear
  | scrubGo (mem : Bool)
  | scrubStop
  | scrubUnit
  | spareWrite (spare : Bool)
  | laneCmdSlip (l : Lane) (n : BitVec 7)
  | laneCmdSearch (l : Lane)
  | searchEnd (l : Lane) (found : Option (Fin 66))
  | laneCmdEscan (l : Lane)
  | escanEnd (l : Lane) (counts : List Nat)
  | blockLock (l : Lane)
  | blockLockLoss (l : HeaderReport)
  | cdrLoss (l : Lane)
  | exitTimeout (l : Lane)
  | samplerStep (l : Lane)
  | pcieReset (e : PcieEvent)
  | endpointReady (width : Fin 3) (speed : Fin 4)
  | msixMessage (v : Vec)
  | coalHoldoffExpiry (v : Vec)
  | timeCmdSet
  | timeCmdStep
  | timeCmdSlew
  | slewEnd
  | timeCmdSnap
  | timeCmpArm (k : CmpUnit) (hi : W32)
  | timeCmpDisarm (k : CmpUnit)
  | compareFire (k : CmpUnit)
  | pinmuxPulseEnd (k : Fin 4)
  | coldReset
  | supplyDetect
  | resetRelease (straps : Straps)
  | strapchg (live : Straps)
  | sysWrst
  | warmResetStart
  | stepClk (locked : Bool)
  | stepFlash (info : Option FlashInfo)
  | stepBoard
  | stepProf
  | stepLanes
  | stepCrook
  | stepDram (spd : List SpdInfo)
  | stepCal
  | bootRetry (step : Fin 8)
  | bootCmdRetry
  | read
  | prog
  | erase4k
  | erase64k
  | flashOperationEnd (timeout : Bool)
  | mainPllLoss
  | thermSample (temp : BitVec 16)
  | crookMessageNotIntact
  | dimmTemperatureRead (c : DramCh) (temp : BitVec 16)
  | recentringEnd (c : DramCh) (ok : Bool)
  | channelTrained (c : DramCh) (ok : Bool)
  | prbsSync (l : Lane) (sync : PrbsReport)
  | tapControl (op : TapOp)
  deriving DecidableEq, Repr

end Sys2Proof
end

