-- ==== Sys2Proof/WellFormed.lean ====
section
/-! DEFINITION. Which commands are well formed: what the type of a command does not say about its operands. A command that is not
well formed is one that no access, message or event of the spec is; the meanings are total on it all the same. -/

namespace Sys2Proof

/-- How many bytes an access covers. -/
def Access.count : Access → Nat
  | .read n => n
  | .write l => l.length

/-- The SPD of a channel names a count of DIMMs, ranks and a rank size the spec has names for (R300). -/
def SpdInfo.wf (x : SpdInfo) : Bool := x.dimms ≤ 2 && x.ranksPerDimm ≤ 4 && x.rankLog2 < 64

/-- The codes of R41. -/
def codeKnown (c : Nat) : Bool :=
  (0x10 ≤ c && c ≤ 0x12) || (0x20 ≤ c && c ≤ 0x23) || (0x30 ≤ c && c ≤ 0x32) || (0x40 ≤ c && c ≤ 0x43) ||
  (0x50 ≤ c && c ≤ 0x53) || (0x60 ≤ c && c ≤ 0x61) || (0x70 ≤ c && c ≤ 0x72) || (0x80 ≤ c && c ≤ 0x82) ||
  (0x90 ≤ c && c ≤ 0x93) || (0xA0 ≤ c && c ≤ 0xA1) || (0xF0 ≤ c && c ≤ 0xFF)

/-- The check of a command's operands. -/
def Instr.wf (i : Instr) : Bool :=
  match i with
  | .registerWrite (.bar0 off) _ _ => off.toNat % 4 == 0
  | .latchingRead (.bar0 off) => off.toNat % 4 == 0
  | .apertureAccess a acc => 0 < acc.count && a.toNat + acc.count ≤ 2 ^ 26
  | .bar2Access w acc => 0 < acc.count && w.toNat + acc.count ≤ 2 ^ 32
  | .fence _ reasons _ _ => !reasons.isEmpty && reasons.all fun c => codeKnown c.toNat
  | .telemetryRecord _ bytes => bytes.length == 120
  | .state _ _ _ _ lines _ => lines.length == 8
  | .giveupMessage _ _ lines => lines.length == 8
  | .joinData _ _ bars => bars.length == 8
  | .digest _ _ _ _ _ _ _ _ digs => digs.length == 16
  | .trim _ _ _ _ nk _ _ part npart _ deltas => deltas.length == nk.toNat && part.toNat < npart.toNat
  | .escanEnd _ counts => counts.length == 1024 || counts.length == 1
  | .laneCmdSlip _ n => n.toNat ≤ 65
  | .blockLockLoss r => 0 < r.bad + r.run && r.bad ≤ 16 && r.bad + r.run ≤ 64
  | .prbsSync _ r => r.sync || 64 ≤ r.errs
  | .stepDram spd => spd.length == 4 && spd.all SpdInfo.wf
  | .stepFlash (some x) => x.log2 < 64
  | .dmaBurst _ (.ok bytes) => bytes.length ≤ 256
  | _ => true

end Sys2Proof
end

