-- ==== Sys2Proof/Decode.lean ====
section
/-! DEFINITION. The command that a word spells. The opcode table of this block gives no row any bits: a command is an access, a
message or an event, never a word. So no word spells one. -/

namespace Sys2Proof

/-- The command that a word of nbits bits spells by the table's bits: none for every word, since no row has bits. -/
def decodeTableWord (_nbits _w : Nat) : Option Instr := none

end Sys2Proof
end

