-- ==== Sys2Proof/Machine/RegTables.lean ====
section
/-! DEFINITION. Every register field of the register tables of the spec (R35 to R47, R50, R54 and the block tables):
its offset in the page, its lowest bit, its width, its access type (R12) and its Reset value (R14). A field whose
reset value is a strap, a ball or its page's number has its value from `State.rst` (Machine/Ops.lean). -/

namespace Sys2Proof.Machine

/-- The access types of R12; rwsp is the "RWS, profile" of R44. -/
inductive Acc where
  | ro | rw | w1c | wo | rws | rwsp | rwl
  deriving DecidableEq, Repr

/-- One field of a register: offset of its register in the page, lowest bit, width, type, reset value. -/
structure Fld where
  off : Nat
  lo : Nat
  w : Nat
  acc : Acc
  rst : Nat
  deriving DecidableEq, Repr

/-- The field's number within its page; no two fields of a page share one. -/
def Fld.id (f : Fld) : Nat := f.off * 32 + f.lo

/-- The field of the k-th register of an array whose registers stand `stride` bytes apart. -/
def Fld.nth (f : Fld) (stride k : Nat) : Fld := { f with off := f.off + stride * k }

/-- The blocks of the page index of R34. -/
inductive Blk where
  | sys | pinmux | therm | boot | prof | time | pair | pos | line | breath | hostif | dmac | dma | feedc | feed
  | enc | dec | pipe | lstore | dramc | dram | scrub | camc | cam | chant | cal | headc | head | lane
  deriving DecidableEq, Repr

namespace R

/-! The page header (R35 to R47). -/
/-- PG_ID TYPE (R35). -/
def PG_ID_TYPE : Fld := ⟨0x000, 16, 16, .ro, 0⟩
/-- PG_ID INST (R35). -/
def PG_ID_INST : Fld := ⟨0x000, 8, 8, .ro, 0⟩
/-- PG_ID VER (R35). -/
def PG_ID_VER : Fld := ⟨0x000, 0, 8, .ro, 0xB0⟩
/-- PG_CTRL [4] FENCE_REL (R36). -/
def PG_CTRL_FENCE_REL : Fld := ⟨0x004, 4, 1, .wo, 0⟩
/-- PG_CTRL [1] SRST (R36). -/
def PG_CTRL_SRST : Fld := ⟨0x004, 1, 1, .rw, 0⟩
/-- PG_CTRL [0] EN (R36); its reset value is that of R34. -/
def PG_CTRL_EN : Fld := ⟨0x004, 0, 1, .rw, 0⟩
/-- PG_STAT BLOCK (R38). -/
def PG_STAT_BLOCK : Fld := ⟨0x008, 16, 16, .ro, 0⟩
/-- PG_STAT [2] SRST_BUSY (R38). -/
def PG_STAT_SRST_BUSY : Fld := ⟨0x008, 2, 1, .ro, 0⟩
/-- PG_STAT [1] FENCED (R38). -/
def PG_STAT_FENCED : Fld := ⟨0x008, 1, 1, .ro, 0⟩
/-- PG_STAT [0] RUN (R38). -/
def PG_STAT_RUN : Fld := ⟨0x008, 0, 1, .ro, 0⟩
/-- PG_FENCE COUNT (R47). -/
def PG_FENCE_COUNT : Fld := ⟨0x00C, 16, 16, .ro, 0⟩
/-- PG_FENCE REASON (R47). -/
def PG_FENCE_REASON : Fld := ⟨0x00C, 8, 8, .ro, 0⟩
/-- PG_FENCE FENCED (R47). -/
def PG_FENCE_FENCED : Fld := ⟨0x00C, 0, 1, .ro, 0⟩
/-- PG_IRQ_RAW (R39). -/
def PG_IRQ_RAW : Fld := ⟨0x010, 0, 32, .w1c, 0⟩
/-- PG_IRQ_EN (R39). -/
def PG_IRQ_EN : Fld := ⟨0x014, 0, 32, .rw, 0⟩
/-- PG_IRQ_PEND (R39). -/
def PG_IRQ_PEND : Fld := ⟨0x018, 0, 32, .ro, 0⟩
/-- PG_ERR_CNT (R40). -/
def PG_ERR_CNT : Fld := ⟨0x01C, 0, 32, .ro, 0⟩
/-- PG_ERR_ADDR_LO (R40). -/
def PG_ERR_ADDR_LO : Fld := ⟨0x020, 0, 32, .ro, 0⟩
/-- PG_ERR_ADDR_HI (R40). -/
def PG_ERR_ADDR_HI : Fld := ⟨0x024, 0, 32, .ro, 0⟩
/-- PG_ERR_INFO SRC (R40). -/
def PG_ERR_INFO_SRC : Fld := ⟨0x028, 12, 4, .ro, 0⟩
/-- PG_ERR_INFO DIR (R40). -/
def PG_ERR_INFO_DIR : Fld := ⟨0x028, 8, 1, .ro, 0⟩
/-- PG_ERR_INFO CODE (R40). -/
def PG_ERR_INFO_CODE : Fld := ⟨0x028, 0, 8, .ro, 0⟩
/-- PG_SHADOW GEN (R42). -/
def PG_SHADOW_GEN : Fld := ⟨0x02C, 8, 8, .rw, 0⟩
/-- PG_SHADOW IMMEDIATE (R42). -/
def PG_SHADOW_IMMEDIATE : Fld := ⟨0x02C, 1, 1, .rw, 0⟩
/-- PG_SHADOW COMMIT (R42). -/
def PG_SHADOW_COMMIT : Fld := ⟨0x02C, 0, 1, .wo, 0⟩
/-- PG_GEN PENDING (R42). -/
def PG_GEN_PENDING : Fld := ⟨0x030, 16, 1, .ro, 0⟩
/-- PG_GEN PEND_GEN (R42). -/
def PG_GEN_PEND_GEN : Fld := ⟨0x030, 8, 8, .ro, 0⟩
/-- PG_GEN APPL_GEN (R42). -/
def PG_GEN_APPL_GEN : Fld := ⟨0x030, 0, 8, .ro, 0⟩
/-- PG_LOCK LOCKED (R46). -/
def PG_LOCK_LOCKED : Fld := ⟨0x034, 0, 1, .ro, 1⟩

/-- SYS_VIOL_CNT [31:0] COUNT (R50). -/
def SYS_VIOL_CNT : Fld := ⟨0x100, 0, 32, .ro, 0x0⟩
/-- SYS_VIOL_ADDR [31:0] ADDR (R50). -/
def SYS_VIOL_ADDR : Fld := ⟨0x104, 0, 32, .ro, 0x0⟩
/-- SYS_VIOL_INFO [5] BAR2 (R50). -/
def SYS_VIOL_INFO_BAR2 : Fld := ⟨0x108, 5, 1, .ro, 0x0⟩
/-- SYS_VIOL_INFO [4] WRITE (R50). -/
def SYS_VIOL_INFO_WRITE : Fld := ⟨0x108, 4, 1, .ro, 0x0⟩
/-- SYS_VIOL_INFO [3:0] KIND (R50). -/
def SYS_VIOL_INFO_KIND : Fld := ⟨0x108, 0, 4, .ro, 0x0⟩
/-- SYS_VIOL_CTRL [1] CCLR (R50). -/
def SYS_VIOL_CTRL_CCLR : Fld := ⟨0x10C, 1, 1, .wo, 0x0⟩
/-- SYS_VIOL_CTRL [0] VCLR (R50). -/
def SYS_VIOL_CTRL_VCLR : Fld := ⟨0x10C, 0, 1, .wo, 0x0⟩
/-- ENC_CTRL [15:8] KEY_INT (R82). -/
def ENC_CTRL_KEY_INT : Fld := ⟨0x040, 8, 8, .rws, 0x40⟩
/-- ENC_CTRL [0] FORCE_KEY (R82). -/
def ENC_CTRL_FORCE_KEY : Fld := ⟨0x040, 0, 1, .wo, 0x0⟩
/-- ENC_BIND [15] IN_EN (R82). -/
def ENC_BIND_IN_EN : Fld := ⟨0x044, 15, 1, .rw, 0x0⟩
/-- ENC_BIND [13:8] IN_CH (R82). -/
def ENC_BIND_IN_CH : Fld := ⟨0x044, 8, 6, .rw, 0x0⟩
/-- ENC_BIND [7] OUT_EN (R82). -/
def ENC_BIND_OUT_EN : Fld := ⟨0x044, 7, 1, .rw, 0x0⟩
/-- ENC_BIND [5:0] OUT_CH (R82). -/
def ENC_BIND_OUT_CH : Fld := ⟨0x044, 0, 6, .rw, 0x0⟩
/-- ENC_IN_LO [31:0] BYTES (R82). -/
def ENC_IN_LO : Fld := ⟨0x048, 0, 32, .ro, 0x0⟩
/-- ENC_IN_HI [31:0] BYTES (R82). -/
def ENC_IN_HI : Fld := ⟨0x04C, 0, 32, .ro, 0x0⟩
/-- ENC_OUT_LO [31:0] BYTES (R82). -/
def ENC_OUT_LO : Fld := ⟨0x050, 0, 32, .ro, 0x0⟩
/-- ENC_OUT_HI [31:0] BYTES (R82). -/
def ENC_OUT_HI : Fld := ⟨0x054, 0, 32, .ro, 0x0⟩
/-- ENC_REC_CNT [31:0] COUNT (R82). -/
def ENC_REC_CNT : Fld := ⟨0x058, 0, 32, .ro, 0x0⟩
/-- ENC_ESC_CNT [31:0] COUNT (R82). -/
def ENC_ESC_CNT : Fld := ⟨0x05C, 0, 32, .ro, 0x0⟩
/-- ENC_KEY_CNT [31:0] COUNT (R82). -/
def ENC_KEY_CNT : Fld := ⟨0x060, 0, 32, .ro, 0x0⟩
/-- ENC_CHK_CNT [31:0] COUNT (R82). -/
def ENC_CHK_CNT : Fld := ⟨0x064, 0, 32, .ro, 0x0⟩
/-- ENC_ORD_CNT [31:0] COUNT (R82). -/
def ENC_ORD_CNT : Fld := ⟨0x068, 0, 32, .ro, 0x0⟩
/-- DEC_AHEAD [15:0] AHEAD (R83). -/
def DEC_AHEAD : Fld := ⟨0x040, 0, 16, .ro, 0x0⟩
/-- DEC_LINE [31:0] LINE (R83). -/
def DEC_LINE : Fld := ⟨0x044, 0, 32, .ro, 0x0⟩
/-- DEC_REC_CNT [31:0] COUNT (R83). -/
def DEC_REC_CNT : Fld := ⟨0x048, 0, 32, .ro, 0x0⟩
/-- DEC_CHK_CNT [31:0] COUNT (R83). -/
def DEC_CHK_CNT : Fld := ⟨0x04C, 0, 32, .ro, 0x0⟩
/-- DEC_FMT_CNT [31:0] COUNT (R83). -/
def DEC_FMT_CNT : Fld := ⟨0x050, 0, 32, .ro, 0x0⟩
/-- DEC_POISON_CNT [31:0] COUNT (R83). -/
def DEC_POISON_CNT : Fld := ⟨0x054, 0, 32, .ro, 0x0⟩
/-- DEC_CTXL_CNT [31:0] COUNT (R83). -/
def DEC_CTXL_CNT : Fld := ⟨0x058, 0, 32, .ro, 0x0⟩
/-- DEC_CTX [31:16] LIVE_VALID (R83). -/
def DEC_CTX_LIVE_VALID : Fld := ⟨0x05C, 16, 16, .ro, 0x0⟩
/-- DEC_CTX [15:0] BASE_VALID (R83). -/
def DEC_CTX_BASE_VALID : Fld := ⟨0x05C, 0, 16, .ro, 0x0⟩
/-- DEC_BYTES_LO [31:0] BYTES (R83). -/
def DEC_BYTES_LO : Fld := ⟨0x060, 0, 32, .ro, 0x0⟩
/-- DEC_BYTES_HI [31:0] BYTES (R83). -/
def DEC_BYTES_HI : Fld := ⟨0x064, 0, 32, .ro, 0x0⟩
/-- PIPE_CTRL [10] HIST_EN (R109). -/
def PIPE_CTRL_HIST_EN : Fld := ⟨0x040, 10, 1, .rws, 0x1⟩
/-- PIPE_CTRL [9] FALLBACK (R109). -/
def PIPE_CTRL_FALLBACK : Fld := ⟨0x040, 9, 1, .rws, 0x1⟩
/-- PIPE_CTRL [8] SUB_EN (R109). -/
def PIPE_CTRL_SUB_EN : Fld := ⟨0x040, 8, 1, .rws, 0x0⟩
/-- PIPE_CTRL [4] HOLD (R109). -/
def PIPE_CTRL_HOLD : Fld := ⟨0x040, 4, 1, .rw, 0x0⟩
/-- PIPE_CTRL [1:0] UPS (R109). -/
def PIPE_CTRL_UPS : Fld := ⟨0x040, 0, 2, .rwsp, 0x0⟩
/-- PIPE_WAVE [9:8] LVL_CAP (R109). -/
def PIPE_WAVE_LVL_CAP : Fld := ⟨0x044, 8, 2, .rws, 0x3⟩
/-- PIPE_WAVE [1:0] BASE_V (R109). -/
def PIPE_WAVE_BASE_V : Fld := ⟨0x044, 0, 2, .rwsp, 0x0⟩
/-- PIPE_STITCH [15:8] WIDTH (R109). -/
def PIPE_STITCH_WIDTH : Fld := ⟨0x048, 8, 8, .rwsp, 0x40⟩
/-- PIPE_STITCH [6:0] START (R109). -/
def PIPE_STITCH_START : Fld := ⟨0x048, 0, 7, .rwsp, 0x20⟩
/-- PIPE_SWAP [31] GO (R109). -/
def PIPE_SWAP_GO : Fld := ⟨0x04C, 31, 1, .wo, 0x0⟩
/-- PIPE_SWAP [5:4] WHEN (R109). -/
def PIPE_SWAP_WHEN : Fld := ⟨0x04C, 4, 2, .rw, 0x0⟩
/-- PIPE_SWAP [2:0] TABLES (R109). -/
def PIPE_SWAP_TABLES : Fld := ⟨0x04C, 0, 3, .rw, 0x0⟩
/-- PIPE_SWAP_LINE [31:0] LINE (R109). -/
def PIPE_SWAP_LINE : Fld := ⟨0x050, 0, 32, .rw, 0x0⟩
/-- PIPE_COPY [2:0] TABLES (R109). -/
def PIPE_COPY : Fld := ⟨0x054, 0, 3, .wo, 0x0⟩
/-- PIPE_TSTAT [10] LATE (R109). -/
def PIPE_TSTAT_LATE : Fld := ⟨0x058, 10, 1, .ro, 0x0⟩
/-- PIPE_TSTAT [9] COPY_BUSY (R109). -/
def PIPE_TSTAT_COPY_BUSY : Fld := ⟨0x058, 9, 1, .ro, 0x0⟩
/-- PIPE_TSTAT [8] ARMED (R109). -/
def PIPE_TSTAT_ARMED : Fld := ⟨0x058, 8, 1, .ro, 0x0⟩
/-- PIPE_TSTAT [2:0] ACTIVE (R109). -/
def PIPE_TSTAT_ACTIVE : Fld := ⟨0x058, 0, 3, .ro, 0x0⟩
/-- PIPE_LINE [31:0] LINE (R109). -/
def PIPE_LINE : Fld := ⟨0x05C, 0, 32, .ro, 0x0⟩
/-- PIPE_UNDR_CNT [31:0] COUNT (R109). -/
def PIPE_UNDR_CNT : Fld := ⟨0x060, 0, 32, .ro, 0x0⟩
/-- PIPE_SEGBLK_CNT [31:0] COUNT (R109). -/
def PIPE_SEGBLK_CNT : Fld := ⟨0x064, 0, 32, .ro, 0x0⟩
/-- PIPE_HOLD_CNT [31:0] COUNT (R109). -/
def PIPE_HOLD_CNT : Fld := ⟨0x068, 0, 32, .ro, 0x0⟩
/-- PIPE_SUB_CNT [31:0] COUNT (R109). -/
def PIPE_SUB_CNT : Fld := ⟨0x06C, 0, 32, .ro, 0x0⟩
/-- PIPE_SUBLOST_CNT [31:0] COUNT (R109). -/
def PIPE_SUBLOST_CNT : Fld := ⟨0x070, 0, 32, .ro, 0x0⟩
/-- PIPE_FALLBK_CNT [31:0] COUNT (R109). -/
def PIPE_FALLBK_CNT : Fld := ⟨0x074, 0, 32, .ro, 0x0⟩
/-- HEADC_FIRE [8:0] BASE (R135). -/
def HEADC_FIRE : Fld := ⟨0x040, 0, 9, .rws, 0x0⟩
/-- HEADC_TEMP [31:16] LIMIT (R135). -/
def HEADC_TEMP_LIMIT : Fld := ⟨0x044, 16, 16, .rwl, 0x1E0⟩
/-- HEADC_TEMP [15:0] WARN (R135). -/
def HEADC_TEMP_WARN : Fld := ⟨0x044, 0, 16, .rwl, 0x1B8⟩
/-- HEADC_THYST [7:0] HYST (R135). -/
def HEADC_THYST : Fld := ⟨0x048, 0, 8, .rwl, 0x10⟩
/-- HEADC_TLM [4:0] TO_EXP (R135). -/
def HEADC_TLM : Fld := ⟨0x04C, 0, 5, .rw, 0x12⟩
/-- HEADC_CLAIM [7:0] CLAIM (R135). -/
def HEADC_CLAIM : Fld := ⟨0x050, 0, 8, .ro, 0x0⟩
/-- HEADC_CAP [31:0] CAP (R135). -/
def HEADC_CAP : Fld := ⟨0x060, 0, 32, .ro, 0x0⟩
/-- HEADC_FEN [31:0] FENCED (R135). -/
def HEADC_FEN : Fld := ⟨0x070, 0, 32, .ro, 0x0⟩
/-- HEAD_CTRL [15:8] WSET (R136). -/
def HEAD_CTRL : Fld := ⟨0x040, 8, 8, .rwsp, 0x0⟩
/-- HEAD_DLY [8:0] DLY (R136). -/
def HEAD_DLY : Fld := ⟨0x044, 0, 9, .rws, 0x0⟩
/-- HEAD_ROWB [11:8] LINES (R136). -/
def HEAD_ROWB_LINES : Fld := ⟨0x048, 8, 4, .rwsp, 0x0⟩
/-- HEAD_ROWB [7:0] FRAC (R136). -/
def HEAD_ROWB_FRAC : Fld := ⟨0x048, 0, 8, .rwsp, 0x0⟩
/-- HEAD_STAT [31:24] ACC_CLAIM (R136). -/
def HEAD_STAT_ACC_CLAIM : Fld := ⟨0x04C, 24, 8, .ro, 0x0⟩
/-- HEAD_STAT [19:16] SUPPLY (R136). -/
def HEAD_STAT_SUPPLY : Fld := ⟨0x04C, 16, 4, .ro, 0x0⟩
/-- HEAD_STAT [12:8] RFLAGS (R136). -/
def HEAD_STAT_RFLAGS : Fld := ⟨0x04C, 8, 5, .ro, 0x0⟩
/-- HEAD_STAT [2] HOT (R136). -/
def HEAD_STAT_HOT : Fld := ⟨0x04C, 2, 1, .ro, 0x0⟩
/-- HEAD_STAT [1] CAP (R136). -/
def HEAD_STAT_CAP : Fld := ⟨0x04C, 1, 1, .ro, 0x0⟩
/-- HEAD_STAT [0] TLM_OK (R136). -/
def HEAD_STAT_TLM_OK : Fld := ⟨0x04C, 0, 1, .ro, 0x0⟩
/-- HEAD_TEMP [15:0] TEMP (R136). -/
def HEAD_TEMP : Fld := ⟨0x050, 0, 16, .ro, 0x0⟩
/-- HEAD_TLM_SEQ [31:0] SEQ (R136). -/
def HEAD_TLM_SEQ : Fld := ⟨0x054, 0, 32, .ro, 0x0⟩
/-- HEAD_SENT [31:0] SEQ (R136). -/
def HEAD_SENT : Fld := ⟨0x058, 0, 32, .ro, 0x0⟩
/-- HEAD_DIGEST [31:0] DIGEST (R136). -/
def HEAD_DIGEST : Fld := ⟨0x05C, 0, 32, .ro, 0x0⟩
/-- HEAD_CAP_LINE [31:0] LINE (R136). -/
def HEAD_CAP_LINE : Fld := ⟨0x060, 0, 32, .ro, 0x0⟩
/-- HEAD_FENCE_LINE [31:0] LINE (R136). -/
def HEAD_FENCE_LINE : Fld := ⟨0x064, 0, 32, .ro, 0x0⟩
/-- HEAD_LATE_CNT [31:0] COUNT (R136). -/
def HEAD_LATE_CNT : Fld := ⟨0x068, 0, 32, .ro, 0x0⟩
/-- HEAD_TLM_CNT [31:0] COUNT (R136). -/
def HEAD_TLM_CNT : Fld := ⟨0x06C, 0, 32, .ro, 0x0⟩
/-- HEAD_TLM_BAD_CNT [31:0] COUNT (R136). -/
def HEAD_TLM_BAD_CNT : Fld := ⟨0x070, 0, 32, .ro, 0x0⟩
/-- HEAD_HCHG_CNT [31:0] COUNT (R136). -/
def HEAD_HCHG_CNT : Fld := ⟨0x074, 0, 32, .ro, 0x0⟩
/-- HEAD_HEALTH [31:0] FAILED (R136). -/
def HEAD_HEALTH : Fld := ⟨0x400, 0, 32, .ro, 0x0⟩
/-- POS_CTRL [15:8] FILT (R158). -/
def POS_CTRL_FILT : Fld := ⟨0x040, 8, 8, .rw, 0x4⟩
/-- POS_CTRL [2] IDX_EN (R158). -/
def POS_CTRL_IDX_EN : Fld := ⟨0x040, 2, 1, .rw, 0x0⟩
/-- POS_CTRL [0] INV (R158). -/
def POS_CTRL_INV : Fld := ⟨0x040, 0, 1, .rw, 0x0⟩
/-- POS_CNT [31:0] COUNT (R158). -/
def POS_CNT : Fld := ⟨0x044, 0, 32, .ro, 0x0⟩
/-- POS_HYST [7:0] HYST (R158). -/
def POS_HYST : Fld := ⟨0x048, 0, 8, .rw, 0x4⟩
/-- POS_STILL_TO [31:0] TO (R158). -/
def POS_STILL_TO : Fld := ⟨0x04C, 0, 32, .rw, 0x17D784⟩
/-- POS_SPD_CFG [2:0] AVG (R158). -/
def POS_SPD_CFG : Fld := ⟨0x050, 0, 3, .rw, 0x3⟩
/-- POS_SPEED [31:0] SPEED (R158). -/
def POS_SPEED : Fld := ⟨0x054, 0, 32, .ro, 0x0⟩
/-- POS_EDGE_T [31:0] TIME (R158). -/
def POS_EDGE_T : Fld := ⟨0x058, 0, 32, .ro, 0x0⟩
/-- POS_TURN [31:0] TURN (R158). -/
def POS_TURN : Fld := ⟨0x05C, 0, 32, .ro, 0x0⟩
/-- POS_QERR_CNT [31:0] COUNT (R158). -/
def POS_QERR_CNT : Fld := ⟨0x060, 0, 32, .ro, 0x0⟩
/-- POS_IDX_LAT [31:0] COUNT (R158). -/
def POS_IDX_LAT : Fld := ⟨0x064, 0, 32, .ro, 0x0⟩
/-- POS_IDX_PREV [31:0] COUNT (R158). -/
def POS_IDX_PREV : Fld := ⟨0x068, 0, 32, .ro, 0x0⟩
/-- POS_IDX_NOM [31:0] NOM (R158). -/
def POS_IDX_NOM : Fld := ⟨0x06C, 0, 32, .rw, 0x0⟩
/-- POS_IDX_TOL [15:0] TOL (R158). -/
def POS_IDX_TOL : Fld := ⟨0x070, 0, 16, .rw, 0x4⟩
/-- POS_IDX_STAT [2] DRIFT (R158). -/
def POS_IDX_STAT_DRIFT : Fld := ⟨0x074, 2, 1, .ro, 0x0⟩
/-- POS_IDX_STAT [1] CHECKED (R158). -/
def POS_IDX_STAT_CHECKED : Fld := ⟨0x074, 1, 1, .ro, 0x0⟩
/-- POS_IDX_STAT [0] LAST_DIR (R158). -/
def POS_IDX_STAT_LAST_DIR : Fld := ⟨0x074, 0, 1, .ro, 0x0⟩
/-- POS_DRIFT_CNT [31:0] COUNT (R158). -/
def POS_DRIFT_CNT : Fld := ⟨0x078, 0, 32, .ro, 0x0⟩
/-- POS_CMP0 [31:0] TARGET (R158). -/
def POS_CMP0 : Fld := ⟨0x080, 0, 32, .rw, 0x0⟩
/-- POS_CMP1 [31:0] TARGET (R158). -/
def POS_CMP1 : Fld := ⟨0x084, 0, 32, .rw, 0x0⟩
/-- POS_CMP_CTRL [1:0] DISARM (R158). -/
def POS_CMP_CTRL : Fld := ⟨0x088, 0, 2, .wo, 0x0⟩
/-- POS_CMP_STAT [8] ARMED1 (R158). -/
def POS_CMP_STAT_ARMED1 : Fld := ⟨0x08C, 8, 1, .ro, 0⟩
/-- POS_CMP_STAT [9] BEHIND1 (R158). -/
def POS_CMP_STAT_BEHIND1 : Fld := ⟨0x08C, 9, 1, .ro, 0⟩
/-- POS_CMP_STAT [10] FIRED1 (R158). -/
def POS_CMP_STAT_FIRED1 : Fld := ⟨0x08C, 10, 1, .ro, 0⟩
/-- POS_CMP_STAT [11] DIR1 (R158). -/
def POS_CMP_STAT_DIR1 : Fld := ⟨0x08C, 11, 1, .ro, 0⟩
/-- POS_CMP_STAT [3] DIR0 (R158). -/
def POS_CMP_STAT_DIR0 : Fld := ⟨0x08C, 3, 1, .ro, 0x0⟩
/-- POS_CMP_STAT [2] FIRED0 (R158). -/
def POS_CMP_STAT_FIRED0 : Fld := ⟨0x08C, 2, 1, .ro, 0x0⟩
/-- POS_CMP_STAT [1] BEHIND0 (R158). -/
def POS_CMP_STAT_BEHIND0 : Fld := ⟨0x08C, 1, 1, .ro, 0x0⟩
/-- POS_CMP_STAT [0] ARMED0 (R158). -/
def POS_CMP_STAT_ARMED0 : Fld := ⟨0x08C, 0, 1, .ro, 0x0⟩
/-- POS_CMP_T0 [31:0] TIME (R158). -/
def POS_CMP_T0 : Fld := ⟨0x090, 0, 32, .ro, 0x0⟩
/-- POS_CMP_T1 [31:0] TIME (R158). -/
def POS_CMP_T1 : Fld := ⟨0x094, 0, 32, .ro, 0x0⟩
/-- POS_SER_CFG [31:16] PER (R158). -/
def POS_SER_CFG_PER : Fld := ⟨0x0A0, 16, 16, .rw, 0x61B⟩
/-- POS_SER_CFG [7:0] DIV (R158). -/
def POS_SER_CFG_DIV : Fld := ⟨0x0A0, 0, 8, .rw, 0x7⟩
/-- POS_SER_LIM [3:0] FLIM (R158). -/
def POS_SER_LIM : Fld := ⟨0x0A4, 0, 4, .rw, 0x4⟩
/-- POS_SER_CRC_CNT [31:0] COUNT (R158). -/
def POS_SER_CRC_CNT : Fld := ⟨0x0A8, 0, 32, .ro, 0x0⟩
/-- POS_SER_TO_CNT [31:0] COUNT (R158). -/
def POS_SER_TO_CNT : Fld := ⟨0x0AC, 0, 32, .ro, 0x0⟩
/-- POS_SER_ERR_CNT [31:0] COUNT (R158). -/
def POS_SER_ERR_CNT : Fld := ⟨0x0B0, 0, 32, .ro, 0x0⟩
/-- LINE_CTRL [7] FAILOVER (R159). -/
def LINE_CTRL_FAILOVER : Fld := ⟨0x040, 7, 1, .rw, 0x0⟩
/-- LINE_CTRL [6] STR_EN (R159). -/
def LINE_CTRL_STR_EN : Fld := ⟨0x040, 6, 1, .rw, 0x0⟩
/-- LINE_CTRL [1:0] SRC (R159). -/
def LINE_CTRL_SRC : Fld := ⟨0x040, 0, 2, .rw, 0x0⟩
/-- LINE_PITCH [31:0] PITCH (R159). -/
def LINE_PITCH : Fld := ⟨0x044, 0, 32, .rwsp, 0x1000000⟩
/-- LINE_ORG_LO [31:0] ORG (R159). -/
def LINE_ORG_LO : Fld := ⟨0x048, 0, 32, .rw, 0x0⟩
/-- LINE_ORG_HI [31:0] ORG (R159). -/
def LINE_ORG_HI : Fld := ⟨0x04C, 0, 32, .rw, 0x0⟩
/-- LINE_SEQ0 [31:0] SEQ (R159). -/
def LINE_SEQ0 : Fld := ⟨0x050, 0, 32, .rw, 0x0⟩
/-- LINE_SEQ [31:0] SEQ (R159). -/
def LINE_SEQ : Fld := ⟨0x054, 0, 32, .ro, 0x0⟩
/-- LINE_NEXT_LO [31:0] NEXT (R159). -/
def LINE_NEXT_LO : Fld := ⟨0x058, 0, 32, .ro, 0x0⟩
/-- LINE_NEXT_HI [31:0] NEXT (R159). -/
def LINE_NEXT_HI : Fld := ⟨0x05C, 0, 32, .ro, 0x0⟩
/-- LINE_Y_LO [31:0] Y (R159). -/
def LINE_Y_LO : Fld := ⟨0x060, 0, 32, .ro, 0x0⟩
/-- LINE_Y_HI [31:0] Y (R159). -/
def LINE_Y_HI : Fld := ⟨0x064, 0, 32, .ro, 0x0⟩
/-- LINE_BACK [31:0] COUNTS (R159). -/
def LINE_BACK : Fld := ⟨0x068, 0, 32, .ro, 0x0⟩
/-- LINE_OWED [31:0] LINES (R159). -/
def LINE_OWED : Fld := ⟨0x06C, 0, 32, .ro, 0x0⟩
/-- LINE_PERIOD [31:0] TICKS (R159). -/
def LINE_PERIOD : Fld := ⟨0x070, 0, 32, .ro, 0x0⟩
/-- LINE_OVSP_CNT [31:0] COUNT (R159). -/
def LINE_OVSP_CNT : Fld := ⟨0x074, 0, 32, .ro, 0x0⟩
/-- LINE_ADJ [31:0] ADJ (R159). -/
def LINE_ADJ : Fld := ⟨0x078, 0, 32, .rw, 0x0⟩
/-- LINE_ADJ_CTRL [31] GO (R159). -/
def LINE_ADJ_CTRL_GO : Fld := ⟨0x07C, 31, 1, .wo, 0x0⟩
/-- LINE_ADJ_CTRL [5:4] WHEN (R159). -/
def LINE_ADJ_CTRL_WHEN : Fld := ⟨0x07C, 4, 2, .rw, 0x0⟩
/-- LINE_ADJ_CTRL [1] LATE (R159). -/
def LINE_ADJ_CTRL_LATE : Fld := ⟨0x07C, 1, 1, .ro, 0x0⟩
/-- LINE_ADJ_CTRL [0] ARMED (R159). -/
def LINE_ADJ_CTRL_ARMED : Fld := ⟨0x07C, 0, 1, .ro, 0x0⟩
/-- LINE_ADJ_LINE [31:0] LINE (R159). -/
def LINE_ADJ_LINE : Fld := ⟨0x080, 0, 32, .rw, 0x0⟩
/-- LINE_STR_NOM [31:0] NOM (R159). -/
def LINE_STR_NOM : Fld := ⟨0x084, 0, 32, .rw, 0x1000000⟩
/-- LINE_STR_CFG [28:24] WEXP (R159). -/
def LINE_STR_CFG_WEXP : Fld := ⟨0x088, 24, 5, .rw, 0x10⟩
/-- LINE_STR_CFG [19:16] K (R159). -/
def LINE_STR_CFG_K : Fld := ⟨0x088, 16, 4, .rw, 0x3⟩
/-- LINE_STR_LIM [19:0] LIM (R159). -/
def LINE_STR_LIM : Fld := ⟨0x08C, 0, 20, .rw, 0x20000⟩
/-- LINE_GAIN [31:0] G (R159). -/
def LINE_GAIN : Fld := ⟨0x090, 0, 32, .ro, 0x0⟩
/-- LINE_STR_MEAS [31:0] GT (R159). -/
def LINE_STR_MEAS : Fld := ⟨0x094, 0, 32, .ro, 0x0⟩
/-- LINE_STR_CLIP_CNT [31:0] COUNT (R159). -/
def LINE_STR_CLIP_CNT : Fld := ⟨0x098, 0, 32, .ro, 0x0⟩
/-- DMAC_CTRL [7:0] JE_EN (R186). -/
def DMAC_CTRL : Fld := ⟨0x040, 0, 8, .rw, 0x0⟩
/-- DMAC_JDB [7:0] DB (R186). -/
def DMAC_JDB : Fld := ⟨0x044, 0, 8, .wo, 0x0⟩
/-- DMAC_HALT0 [31:0] HALTED (R186). -/
def DMAC_HALT0 : Fld := ⟨0x048, 0, 32, .ro, 0x0⟩
/-- DMAC_HALT1 [31:0] HALTED (R186). -/
def DMAC_HALT1 : Fld := ⟨0x04C, 0, 32, .ro, 0x0⟩
/-- DMAC_JREC_BASE_LO [31:5] ADDR (R186). -/
def DMAC_JREC_BASE_LO : Fld := ⟨0x050, 5, 27, .rw, 0x0⟩
/-- DMAC_JREC_BASE_HI [5:0] ADDR (R186). -/
def DMAC_JREC_BASE_HI : Fld := ⟨0x054, 0, 6, .rw, 0x0⟩
/-- DMAC_JREC_CFG [8] EN (R186). -/
def DMAC_JREC_CFG_EN : Fld := ⟨0x058, 8, 1, .rw, 0x0⟩
/-- DMAC_JREC_CFG [4:0] LOG2 (R186). -/
def DMAC_JREC_CFG_LOG2 : Fld := ⟨0x058, 0, 5, .rw, 0x10⟩
/-- DMAC_JREC_WR [31:0] OFS (R186). -/
def DMAC_JREC_WR : Fld := ⟨0x05C, 0, 32, .ro, 0x0⟩
/-- DMAC_JREC_RD [31:0] OFS (R186). -/
def DMAC_JREC_RD : Fld := ⟨0x060, 0, 32, .rw, 0x0⟩
/-- DMAC_JREC_LOST [31:0] COUNT (R186). -/
def DMAC_JREC_LOST : Fld := ⟨0x064, 0, 32, .ro, 0x0⟩
/-- DMAC_JHEAD_LO [31:6] ADDR (R186). -/
def DMAC_JHEAD_LO : Fld := ⟨0x100, 6, 26, .rw, 0x0⟩
/-- DMAC_JHEAD_HI [5:0] ADDR (R186). -/
def DMAC_JHEAD_HI : Fld := ⟨0x104, 0, 6, .rw, 0x0⟩
/-- DMAC_JCUR_LO [31:0] ADDR (R186). -/
def DMAC_JCUR_LO : Fld := ⟨0x108, 0, 32, .ro, 0x0⟩
/-- DMAC_JCUR_HI [31:0] ADDR (R186). -/
def DMAC_JCUR_HI : Fld := ⟨0x10C, 0, 32, .ro, 0x0⟩
/-- DMAC_JSTAT [3] LATE (R186). -/
def DMAC_JSTAT_LATE : Fld := ⟨0x110, 3, 1, .ro, 0x0⟩
/-- DMAC_JSTAT [2] JERR (R186). -/
def DMAC_JSTAT_JERR : Fld := ⟨0x110, 2, 1, .ro, 0x0⟩
/-- DMAC_JSTAT [1] IDLE (R186). -/
def DMAC_JSTAT_IDLE : Fld := ⟨0x110, 1, 1, .ro, 0x0⟩
/-- DMAC_JSTAT [0] PARKED (R186). -/
def DMAC_JSTAT_PARKED : Fld := ⟨0x110, 0, 1, .ro, 0x0⟩
/-- DMAC_JID [31:0] JOB_ID (R186). -/
def DMAC_JID : Fld := ⟨0x114, 0, 32, .ro, 0x0⟩
/-- DMAC_JQ [31:0] Q (R186). -/
def DMAC_JQ : Fld := ⟨0x118, 0, 32, .ro, 0x0⟩
/-- DMAC_IDLE_CNT [31:0] COUNT (R186). -/
def DMAC_IDLE_CNT : Fld := ⟨0x11C, 0, 32, .ro, 0x0⟩
/-- DMAC_RBASE_LO [31:12] ADDR (R186). -/
def DMAC_RBASE_LO : Fld := ⟨0x120, 12, 20, .rw, 0x0⟩
/-- DMAC_RBASE_HI [5:0] ADDR (R186). -/
def DMAC_RBASE_HI : Fld := ⟨0x124, 0, 6, .rw, 0x0⟩
/-- DMAC_RCFG [5:0] LOG2 (R186). -/
def DMAC_RCFG : Fld := ⟨0x128, 0, 6, .rw, 0x18⟩
/-- DMAC_WPOS_LO [31:0] POS (R186). -/
def DMAC_WPOS_LO : Fld := ⟨0x130, 0, 32, .ro, 0x0⟩
/-- DMAC_WPOS_HI [31:0] POS (R186). -/
def DMAC_WPOS_HI : Fld := ⟨0x134, 0, 32, .ro, 0x0⟩
/-- DMAC_RPOS_LO [31:0] POS (R186). -/
def DMAC_RPOS_LO : Fld := ⟨0x138, 0, 32, .ro, 0x0⟩
/-- DMAC_RPOS_HI [31:0] POS (R186). -/
def DMAC_RPOS_HI : Fld := ⟨0x13C, 0, 32, .ro, 0x0⟩
/-- DMA_CTRL [5:4] BURST (R187). -/
def DMA_CTRL : Fld := ⟨0x040, 4, 2, .rw, 0x2⟩
/-- DMA_PACE [15:8] HI (R187). -/
def DMA_PACE_HI : Fld := ⟨0x044, 8, 8, .rw, 0x4⟩
/-- DMA_PACE [7:0] LO (R187). -/
def DMA_PACE_LO : Fld := ⟨0x044, 0, 8, .rw, 0x1⟩
/-- DMA_HEAD_LO [31:5] ADDR (R187). -/
def DMA_HEAD_LO : Fld := ⟨0x048, 5, 27, .rw, 0x0⟩
/-- DMA_HEAD_HI [5:0] ADDR (R187). -/
def DMA_HEAD_HI : Fld := ⟨0x04C, 0, 6, .rw, 0x0⟩
/-- DMA_CUR_LO [31:0] ADDR (R187). -/
def DMA_CUR_LO : Fld := ⟨0x050, 0, 32, .ro, 0x0⟩
/-- DMA_CUR_HI [31:0] ADDR (R187). -/
def DMA_CUR_HI : Fld := ⟨0x054, 0, 32, .ro, 0x0⟩
/-- DMA_DB [0] RING (R187). -/
def DMA_DB : Fld := ⟨0x058, 0, 1, .wo, 0x0⟩
/-- DMA_CMD [1] ABORT (R187). -/
def DMA_CMD_ABORT : Fld := ⟨0x05C, 1, 1, .wo, 0x0⟩
/-- DMA_CMD [0] RESUME (R187). -/
def DMA_CMD_RESUME : Fld := ⟨0x05C, 0, 1, .wo, 0x0⟩
/-- DMA_STAT [24:16] STAGE (R187). -/
def DMA_STAT_STAGE : Fld := ⟨0x060, 16, 9, .ro, 0x0⟩
/-- DMA_STAT [6] DB_PEND (R187). -/
def DMA_STAT_DB_PEND : Fld := ⟨0x060, 6, 1, .ro, 0x0⟩
/-- DMA_STAT [5] REQ (R187). -/
def DMA_STAT_REQ : Fld := ⟨0x060, 5, 1, .ro, 0x0⟩
/-- DMA_STAT [1:0] STATE (R187). -/
def DMA_STAT_STATE : Fld := ⟨0x060, 0, 2, .ro, 0x0⟩
/-- DMA_BIND [15:8] DST_EP (R187). -/
def DMA_BIND_DST_EP : Fld := ⟨0x064, 8, 8, .ro, 0x0⟩
/-- DMA_BIND [7:0] SRC_EP (R187). -/
def DMA_BIND_SRC_EP : Fld := ⟨0x064, 0, 8, .ro, 0x0⟩
/-- DMA_XFER_LO [31:0] BYTES (R187). -/
def DMA_XFER_LO : Fld := ⟨0x068, 0, 32, .ro, 0x0⟩
/-- DMA_XFER_HI [31:0] BYTES (R187). -/
def DMA_XFER_HI : Fld := ⟨0x06C, 0, 32, .ro, 0x0⟩
/-- DMA_DONE_CNT [31:0] COUNT (R187). -/
def DMA_DONE_CNT : Fld := ⟨0x070, 0, 32, .ro, 0x0⟩
/-- DMA_DB_CNT [31:0] COUNT (R187). -/
def DMA_DB_CNT : Fld := ⟨0x074, 0, 32, .ro, 0x0⟩
/-- DMA_DISC_CNT [31:0] COUNT (R187). -/
def DMA_DISC_CNT : Fld := ⟨0x078, 0, 32, .ro, 0x0⟩
/-- FEEDC_LINK [23:0] UP (R203). -/
def FEEDC_LINK : Fld := ⟨0x040, 0, 24, .ro, 0x0⟩
/-- FEEDC_CRING_BASE_LO [31:10] ADDR (R203). -/
def FEEDC_CRING_BASE_LO : Fld := ⟨0x044, 10, 22, .rw, 0x0⟩
/-- FEEDC_CRING_BASE_HI [5:0] ADDR (R203). -/
def FEEDC_CRING_BASE_HI : Fld := ⟨0x048, 0, 6, .rw, 0x0⟩
/-- FEEDC_CRING_CFG [8] EN (R203). -/
def FEEDC_CRING_CFG_EN : Fld := ⟨0x04C, 8, 1, .rw, 0x0⟩
/-- FEEDC_CRING_CFG [4:0] LOG2 (R203). -/
def FEEDC_CRING_CFG_LOG2 : Fld := ⟨0x04C, 0, 5, .rw, 0x10⟩
/-- FEEDC_CRING_WR [31:0] OFS (R203). -/
def FEEDC_CRING_WR : Fld := ⟨0x050, 0, 32, .ro, 0x0⟩
/-- FEEDC_CRING_RD [31:0] OFS (R203). -/
def FEEDC_CRING_RD : Fld := ⟨0x054, 0, 32, .rw, 0x0⟩
/-- FEEDC_CRING_LOST [31:0] COUNT (R203). -/
def FEEDC_CRING_LOST : Fld := ⟨0x058, 0, 32, .ro, 0x0⟩
/-- FEED_GRP [12:8] LEAD (R204). -/
def FEED_GRP_LEAD : Fld := ⟨0x040, 8, 5, .rw, 0x0⟩
/-- FEED_GRP [2:0] BAR (R204). -/
def FEED_GRP_BAR : Fld := ⟨0x040, 0, 3, .rw, 0x0⟩
/-- FEED_BIND [7] EN (R204). -/
def FEED_BIND_EN : Fld := ⟨0x044, 7, 1, .rw, 0x0⟩
/-- FEED_BIND [5:0] CH (R204). -/
def FEED_BIND_CH : Fld := ⟨0x044, 0, 6, .rw, 0x0⟩
/-- FEED_MAC_LO [31:0] MAC (R204). -/
def FEED_MAC_LO : Fld := ⟨0x048, 0, 32, .rw, 0x0⟩
/-- FEED_MAC_HI [15:0] MAC (R204). -/
def FEED_MAC_HI : Fld := ⟨0x04C, 0, 16, .rw, 0x0⟩
/-- FEED_MCAST_LO [31:0] MAC (R204). -/
def FEED_MCAST_LO : Fld := ⟨0x050, 0, 32, .rw, 0x0⟩
/-- FEED_MCAST_HI [16] EN (R204). -/
def FEED_MCAST_HI_EN : Fld := ⟨0x054, 16, 1, .rw, 0x0⟩
/-- FEED_MCAST_HI [15:0] MAC (R204). -/
def FEED_MCAST_HI_MAC : Fld := ⟨0x054, 0, 16, .rw, 0x0⟩
/-- FEED_PEER_LO [31:0] MAC (R204). -/
def FEED_PEER_LO : Fld := ⟨0x058, 0, 32, .rw, 0x0⟩
/-- FEED_PEER_HI [15:0] MAC (R204). -/
def FEED_PEER_HI : Fld := ⟨0x05C, 0, 16, .rw, 0x0⟩
/-- FEED_MAXLEN [13:0] LEN (R204). -/
def FEED_MAXLEN : Fld := ⟨0x060, 0, 14, .rw, 0x2400⟩
/-- FEED_FLOW [31:16] PQ (R204). -/
def FEED_FLOW_PQ : Fld := ⟨0x064, 16, 16, .rw, 0xFFFF⟩
/-- FEED_FLOW [11:8] XOFF (R204). -/
def FEED_FLOW_XOFF : Fld := ⟨0x064, 8, 4, .rw, 0xC⟩
/-- FEED_FLOW [3:0] XON (R204). -/
def FEED_FLOW_XON : Fld := ⟨0x064, 0, 4, .rw, 0x8⟩
/-- FEED_ACK [23:16] ACK_INT (R204). -/
def FEED_ACK_ACK_INT : Fld := ⟨0x068, 16, 8, .rw, 0x40⟩
/-- FEED_ACK [15:0] ACK_TO (R204). -/
def FEED_ACK_ACK_TO : Fld := ⟨0x068, 0, 16, .rw, 0x64⟩
/-- FEED_GAP [15:0] GAP_TO (R204). -/
def FEED_GAP : Fld := ⟨0x06C, 0, 16, .rw, 0xC8⟩
/-- FEED_WIN [10:0] WIN (R204). -/
def FEED_WIN : Fld := ⟨0x070, 0, 11, .rw, 0x80⟩
/-- FEED_EXP_BASE [31:0] RSEQ (R204). -/
def FEED_EXP_BASE : Fld := ⟨0x074, 0, 32, .ro, 0x0⟩
/-- FEED_EXP_LIVE [31:0] RSEQ (R204). -/
def FEED_EXP_LIVE : Fld := ⟨0x078, 0, 32, .ro, 0x0⟩
/-- FEED_RX_FRM [31:0] COUNT (R204). -/
def FEED_RX_FRM : Fld := ⟨0x07C, 0, 32, .ro, 0x0⟩
/-- FEED_RX_BYTES_LO [31:0] BYTES (R204). -/
def FEED_RX_BYTES_LO : Fld := ⟨0x080, 0, 32, .ro, 0x0⟩
/-- FEED_RX_BYTES_HI [31:0] BYTES (R204). -/
def FEED_RX_BYTES_HI : Fld := ⟨0x084, 0, 32, .ro, 0x0⟩
/-- FEED_REC_CNT [31:0] COUNT (R204). -/
def FEED_REC_CNT : Fld := ⟨0x088, 0, 32, .ro, 0x0⟩
/-- FEED_DROP_FCS [31:0] COUNT (R204). -/
def FEED_DROP_FCS : Fld := ⟨0x08C, 0, 32, .ro, 0x0⟩
/-- FEED_DROP_ADDR [31:0] COUNT (R204). -/
def FEED_DROP_ADDR : Fld := ⟨0x090, 0, 32, .ro, 0x0⟩
/-- FEED_DROP_NRDY [31:0] COUNT (R204). -/
def FEED_DROP_NRDY : Fld := ⟨0x094, 0, 32, .ro, 0x0⟩
/-- FEED_DROP_FMT [31:0] COUNT (R204). -/
def FEED_DROP_FMT : Fld := ⟨0x098, 0, 32, .ro, 0x0⟩
/-- FEED_DROP_CHK [31:0] COUNT (R204). -/
def FEED_DROP_CHK : Fld := ⟨0x09C, 0, 32, .ro, 0x0⟩
/-- FEED_DROP_DUP [31:0] COUNT (R204). -/
def FEED_DROP_DUP : Fld := ⟨0x0A0, 0, 32, .ro, 0x0⟩
/-- FEED_DROP_WIN [31:0] COUNT (R204). -/
def FEED_DROP_WIN : Fld := ⟨0x0A4, 0, 32, .ro, 0x0⟩
/-- FEED_EVICT_CNT [31:0] COUNT (R204). -/
def FEED_EVICT_CNT : Fld := ⟨0x0A8, 0, 32, .ro, 0x0⟩
/-- FEED_NAK_CNT [31:0] COUNT (R204). -/
def FEED_NAK_CNT : Fld := ⟨0x0AC, 0, 32, .ro, 0x0⟩
/-- FEED_PAUSE_TX [31:0] COUNT (R204). -/
def FEED_PAUSE_TX : Fld := ⟨0x0B0, 0, 32, .ro, 0x0⟩
/-- FEED_PAUSE_RX [31:0] COUNT (R204). -/
def FEED_PAUSE_RX : Fld := ⟨0x0B4, 0, 32, .ro, 0x0⟩
/-- PROF_CTRL [0] PIN_EN (R221). -/
def PROF_CTRL : Fld := ⟨0x040, 0, 1, .rw, 0x1⟩
/-- PROF_CMD [31] GO (R221). -/
def PROF_CMD_GO : Fld := ⟨0x044, 31, 1, .wo, 0x0⟩
/-- PROF_CMD [8] RELOAD (R221). -/
def PROF_CMD_RELOAD : Fld := ⟨0x044, 8, 1, .wo, 0x0⟩
/-- PROF_CMD [2:0] P (R221). -/
def PROF_CMD_P : Fld := ⟨0x044, 0, 3, .wo, 0x0⟩
/-- PROF_VALID [8] BUSY (R221). -/
def PROF_VALID_BUSY : Fld := ⟨0x048, 8, 1, .ro, 0x0⟩
/-- PROF_VALID [7:0] VALID (R221). -/
def PROF_VALID_VALID : Fld := ⟨0x048, 0, 8, .ro, 0x0⟩
/-- PROF_STAT [31:24] DONE (R221). -/
def PROF_STAT_DONE : Fld := ⟨0x04C, 24, 8, .ro, 0x0⟩
/-- PROF_STAT [19] NVAL (R221). -/
def PROF_STAT_NVAL : Fld := ⟨0x04C, 19, 1, .ro, 0x0⟩
/-- PROF_STAT [18:16] NP (R221). -/
def PROF_STAT_NP : Fld := ⟨0x04C, 16, 3, .ro, 0x0⟩
/-- PROF_STAT [11] CVAL (R221). -/
def PROF_STAT_CVAL : Fld := ⟨0x04C, 11, 1, .ro, 0x0⟩
/-- PROF_STAT [10:8] CP (R221). -/
def PROF_STAT_CP : Fld := ⟨0x04C, 8, 3, .ro, 0x0⟩
/-- PROF_ARM_LINE [31:0] LINE (R221). -/
def PROF_ARM_LINE : Fld := ⟨0x050, 0, 32, .ro, 0x0⟩
/-- PROF_NEXT_LINE [31:0] LINE (R221). -/
def PROF_NEXT_LINE : Fld := ⟨0x054, 0, 32, .ro, 0x0⟩
/-- PROF_BARP [31:24] SET (R221). -/
def PROF_BARP_SET : Fld := ⟨0x058, 24, 8, .ro, 0x0⟩
/-- PROF_BARP [23:0] SLOT (R221). -/
def PROF_BARP_SLOT : Fld := ⟨0x058, 0, 24, .ro, 0x0⟩
/-- PROF_SEL_CNT [31:0] COUNT (R221). -/
def PROF_SEL_CNT : Fld := ⟨0x05C, 0, 32, .ro, 0x0⟩
/-- PROF_REJ_CNT [31:0] COUNT (R221). -/
def PROF_REJ_CNT : Fld := ⟨0x060, 0, 32, .ro, 0x0⟩
/-- PROF_REPL_CNT [31:0] COUNT (R221). -/
def PROF_REPL_CNT : Fld := ⟨0x064, 0, 32, .ro, 0x0⟩
/-- BREATH_CFG [8] CMP_EN (R222). -/
def BREATH_CFG_CMP_EN : Fld := ⟨0x040, 8, 1, .rw, 0x0⟩
/-- BREATH_CFG [3:0] CMP (R222). -/
def BREATH_CFG_CMP : Fld := ⟨0x040, 0, 4, .rw, 0x0⟩
/-- BREATH_PER [23:0] PER (R222). -/
def BREATH_PER : Fld := ⟨0x044, 0, 24, .rws, 0x3D09⟩
/-- BREATH_MAX [16:0] MAX (R222). -/
def BREATH_MAX : Fld := ⟨0x048, 0, 17, .rws, 0x1D4C0⟩
/-- BREATH_MIN [16:0] MIN (R222). -/
def BREATH_MIN : Fld := ⟨0x04C, 0, 17, .rws, 0x0⟩
/-- BREATH_DEPTH [31:16] FULL (R222). -/
def BREATH_DEPTH_FULL : Fld := ⟨0x050, 16, 16, .rws, 0x4000⟩
/-- BREATH_DEPTH [15:0] EMPTY (R222). -/
def BREATH_DEPTH_EMPTY : Fld := ⟨0x050, 0, 16, .rws, 0x400⟩
/-- BREATH_RISE [16:0] RISE (R222). -/
def BREATH_RISE : Fld := ⟨0x054, 0, 17, .rws, 0x78⟩
/-- BREATH_SW [16:0] SW (R222). -/
def BREATH_SW : Fld := ⟨0x058, 0, 17, .rws, 0x1D4C0⟩
/-- BREATH_SCALE [16:0] SCALE (R222). -/
def BREATH_SCALE : Fld := ⟨0x05C, 0, 17, .rws, 0x1D4C0⟩
/-- BREATH_WARN [7:0] MS (R222). -/
def BREATH_WARN : Fld := ⟨0x060, 0, 8, .rws, 0x64⟩
/-- BREATH_CEIL [31:28] SRC (R222). -/
def BREATH_CEIL_SRC : Fld := ⟨0x064, 28, 4, .ro, 0xA⟩
/-- BREATH_CEIL [16:0] CEIL (R222). -/
def BREATH_CEIL_CEIL : Fld := ⟨0x064, 0, 17, .ro, 0x1D4C0⟩
/-- BREATH_TARGET [16:0] TARGET (R222). -/
def BREATH_TARGET : Fld := ⟨0x068, 0, 17, .ro, 0x0⟩
/-- BREATH_PWM [13:0] H (R222). -/
def BREATH_PWM : Fld := ⟨0x06C, 0, 14, .ro, 0x3D09⟩
/-- BREATH_PEER [31] VALID (R222). -/
def BREATH_PEER_VALID : Fld := ⟨0x070, 31, 1, .ro, 0x0⟩
/-- BREATH_PEER [16:0] CEIL (R222). -/
def BREATH_PEER_CEIL : Fld := ⟨0x070, 0, 17, .ro, 0x0⟩
/-- BREATH_UNDR_CNT [31:0] COUNT (R222). -/
def BREATH_UNDR_CNT : Fld := ⟨0x074, 0, 32, .ro, 0x0⟩
/-- BREATH_AHEAD [16] INCL (R222). -/
def BREATH_AHEAD_INCL : Fld := ⟨0x080, 16, 1, .ro, 0x0⟩
/-- BREATH_AHEAD [15:0] A (R222). -/
def BREATH_AHEAD_A : Fld := ⟨0x080, 0, 16, .ro, 0x0⟩
/-- PAIR_CTRL [1] SOLO (R250). -/
def PAIR_CTRL_SOLO : Fld := ⟨0x040, 1, 1, .rw, 0x0⟩
/-- PAIR_CTRL [0] AUTORET (R250). -/
def PAIR_CTRL_AUTORET : Fld := ⟨0x040, 0, 1, .rw, 0x1⟩
/-- PAIR_CMD [2] RESUME (R250). -/
def PAIR_CMD_RESUME : Fld := ⟨0x044, 2, 1, .wo, 0x0⟩
/-- PAIR_CMD [1] GIVEUP (R250). -/
def PAIR_CMD_GIVEUP : Fld := ⟨0x044, 1, 1, .wo, 0x0⟩
/-- PAIR_CMD [0] RECLAIM (R250). -/
def PAIR_CMD_RECLAIM : Fld := ⟨0x044, 0, 1, .wo, 0x0⟩
/-- PAIR_STAT [27:24] PEER_STATE (R250). -/
def PAIR_STAT_PEER_STATE : Fld := ⟨0x048, 24, 4, .ro, 0x0⟩
/-- PAIR_STAT [23:20] PEER_UNIT (R250). -/
def PAIR_STAT_PEER_UNIT : Fld := ⟨0x048, 20, 4, .ro, 0x0⟩
/-- PAIR_STAT [19:16] LEVEL (R250). -/
def PAIR_STAT_LEVEL : Fld := ⟨0x048, 16, 4, .ro, 0x0⟩
/-- PAIR_STAT [11:8] LANES (R250). -/
def PAIR_STAT_LANES : Fld := ⟨0x048, 8, 4, .ro, 0x0⟩
/-- PAIR_STAT [3:0] STATE (R250). -/
def PAIR_STAT_STATE : Fld := ⟨0x048, 0, 4, .ro, 0x0⟩
/-- PAIR_CAUSE [9:0] CAUSE (R250). -/
def PAIR_CAUSE : Fld := ⟨0x04C, 0, 10, .ro, 0x0⟩
/-- PAIR_LAST [16] UNCOV (R250). -/
def PAIR_LAST_UNCOV : Fld := ⟨0x050, 16, 1, .ro, 0x0⟩
/-- PAIR_LAST [15:8] CODE (R250). -/
def PAIR_LAST_CODE : Fld := ⟨0x050, 8, 8, .ro, 0x0⟩
/-- PAIR_LAST [7:0] CAUSE (R250). -/
def PAIR_LAST_CAUSE : Fld := ⟨0x050, 0, 8, .ro, 0x0⟩
/-- PAIR_RUN [31:0] LINES (R250). -/
def PAIR_RUN : Fld := ⟨0x054, 0, 32, .ro, 0x0⟩
/-- PAIR_RUNLEN [15:0] LINES (R250). -/
def PAIR_RUNLEN : Fld := ⟨0x058, 0, 16, .rwl, 0x1000⟩
/-- PAIR_HOLD [15:0] MS (R250). -/
def PAIR_HOLD : Fld := ⟨0x05C, 0, 16, .rwl, 0x2710⟩
/-- PAIR_HOLD_LEFT [15:0] MS (R250). -/
def PAIR_HOLD_LEFT : Fld := ⟨0x060, 0, 16, .ro, 0x0⟩
/-- PAIR_WAIT [15:0] MS (R250). -/
def PAIR_WAIT : Fld := ⟨0x064, 0, 16, .rw, 0x1388⟩
/-- PAIR_MARGIN [7:0] LINES (R250). -/
def PAIR_MARGIN : Fld := ⟨0x068, 0, 8, .rw, 0x4⟩
/-- PAIR_SKEW [15:8] N (R250). -/
def PAIR_SKEW_N : Fld := ⟨0x06C, 8, 8, .rw, 0x8⟩
/-- PAIR_SKEW [7:0] LIM (R250). -/
def PAIR_SKEW_LIM : Fld := ⟨0x06C, 0, 8, .rw, 0x3⟩
/-- PAIR_TMO [15:0] US (R250). -/
def PAIR_TMO : Fld := ⟨0x070, 0, 16, .rw, 0x32⟩
/-- PAIR_TOFS_LO [31:0] OFS (R250). -/
def PAIR_TOFS_LO : Fld := ⟨0x074, 0, 32, .ro, 0x0⟩
/-- PAIR_TOFS_HI [31:0] OFS (R250). -/
def PAIR_TOFS_HI : Fld := ⟨0x078, 0, 32, .ro, 0x0⟩
/-- PAIR_DELAY [15:0] NS (R250). -/
def PAIR_DELAY : Fld := ⟨0x07C, 0, 16, .ro, 0x0⟩
/-- PAIR_SAFE [31:0] LINE (R250). -/
def PAIR_SAFE : Fld := ⟨0x080, 0, 32, .ro, 0x0⟩
/-- PAIR_SKEW_LAST [15:0] SKEW (R250). -/
def PAIR_SKEW_LAST : Fld := ⟨0x0A0, 0, 16, .ro, 0x0⟩
/-- PAIR_MIS_LINE [31:0] LINE (R250). -/
def PAIR_MIS_LINE : Fld := ⟨0x0A4, 0, 32, .ro, 0x0⟩
/-- PAIR_MIS_INFO [31:16] TILES (R250). -/
def PAIR_MIS_INFO_TILES : Fld := ⟨0x0A8, 16, 16, .ro, 0x0⟩
/-- PAIR_MIS_INFO [10:8] BAR (R250). -/
def PAIR_MIS_INFO_BAR : Fld := ⟨0x0A8, 8, 3, .ro, 0x0⟩
/-- PAIR_MIS_INFO [2:0] VERDICT (R250). -/
def PAIR_MIS_INFO_VERDICT : Fld := ⟨0x0A8, 0, 3, .ro, 0x0⟩
/-- PAIR_GIVE_CNT [31:0] COUNT (R250). -/
def PAIR_GIVE_CNT : Fld := ⟨0x0B0, 0, 32, .ro, 0x0⟩
/-- PAIR_RET_CNT [31:0] COUNT (R250). -/
def PAIR_RET_CNT : Fld := ⟨0x0B4, 0, 32, .ro, 0x0⟩
/-- PAIR_MIS_CNT [31:0] COUNT (R250). -/
def PAIR_MIS_CNT : Fld := ⟨0x0B8, 0, 32, .ro, 0x0⟩
/-- PAIR_MISS_CNT [31:0] COUNT (R250). -/
def PAIR_MISS_CNT : Fld := ⟨0x0BC, 0, 32, .ro, 0x0⟩
/-- PAIR_LOSS_CNT [31:0] COUNT (R250). -/
def PAIR_LOSS_CNT : Fld := ⟨0x0C0, 0, 32, .ro, 0x0⟩
/-- PAIR_LATE_CNT [31:0] COUNT (R250). -/
def PAIR_LATE_CNT : Fld := ⟨0x0C4, 0, 32, .ro, 0x0⟩
/-- PAIR_RETRY_CNT [31:0] COUNT (R250). -/
def PAIR_RETRY_CNT : Fld := ⟨0x0C8, 0, 32, .ro, 0x0⟩
/-- PAIR_IGN_CNT [31:0] COUNT (R250). -/
def PAIR_IGN_CNT : Fld := ⟨0x0CC, 0, 32, .ro, 0x0⟩
/-- PAIR_BAD_CNT [31:0] COUNT (R250). -/
def PAIR_BAD_CNT : Fld := ⟨0x0D0, 0, 32, .ro, 0x0⟩
/-- PAIR_DUP_CNT [31:0] COUNT (R250). -/
def PAIR_DUP_CNT : Fld := ⟨0x0D4, 0, 32, .ro, 0x0⟩
/-- CAMC_CTRL [17:16] DEC (R274). -/
def CAMC_CTRL_DEC : Fld := ⟨0x040, 16, 2, .rw, 0x2⟩
/-- CAMC_CTRL [10:8] REFBAR (R274). -/
def CAMC_CTRL_REFBAR : Fld := ⟨0x040, 8, 3, .rw, 0x0⟩
/-- CAMC_CTRL [1] REG_EN (R274). -/
def CAMC_CTRL_REG_EN : Fld := ⟨0x040, 1, 1, .rw, 0x0⟩
/-- CAMC_CTRL [0] COV_EN (R274). -/
def CAMC_CTRL_COV_EN : Fld := ⟨0x040, 0, 1, .rw, 0x0⟩
/-- CAMC_PHASE [3:0] PHASE (R274). -/
def CAMC_PHASE : Fld := ⟨0x044, 0, 4, .rw, 0x0⟩
/-- CAMC_DIST [31:0] DIST (R274). -/
def CAMC_DIST : Fld := ⟨0x048, 0, 32, .rw, 0x0⟩
/-- CAMC_CRING_BASE_LO [31:19] ADDR (R274). -/
def CAMC_CRING_BASE_LO : Fld := ⟨0x04C, 19, 13, .rw, 0x0⟩
/-- CAMC_CRING_BASE_HI [5:0] ADDR (R274). -/
def CAMC_CRING_BASE_HI : Fld := ⟨0x050, 0, 6, .rw, 0x0⟩
/-- CAMC_CRING_CFG [3:0] LOG2 (R274). -/
def CAMC_CRING_CFG : Fld := ⟨0x054, 0, 4, .rw, 0xC⟩
/-- CAMC_REG_CNT [31:0] COUNT (R274). -/
def CAMC_REG_CNT : Fld := ⟨0x058, 0, 32, .ro, 0x0⟩
/-- CAMC_MISS_CNT [31:0] COUNT (R274). -/
def CAMC_MISS_CNT : Fld := ⟨0x05C, 0, 32, .ro, 0x0⟩
/-- CAMC_LAST_LC [31:0] LINE (R274). -/
def CAMC_LAST_LC : Fld := ⟨0x060, 0, 32, .ro, 0x0⟩
/-- CAM_BUS [6:4] NB (R275). -/
def CAM_BUS_NB : Fld := ⟨0x040, 4, 3, .rw, 0x6⟩
/-- CAM_BUS [1] CRC_EN (R275). -/
def CAM_BUS_CRC_EN : Fld := ⟨0x040, 1, 1, .rw, 0x0⟩
/-- CAM_BUS [0] EDGE (R275). -/
def CAM_BUS_EDGE : Fld := ⟨0x040, 0, 1, .rw, 0x0⟩
/-- CAM_GEOM [15:0] PIX (R275). -/
def CAM_GEOM : Fld := ⟨0x044, 0, 16, .rw, 0x5E20⟩
/-- CAM_COLS [16] REV (R275). -/
def CAM_COLS_REV : Fld := ⟨0x048, 16, 1, .rw, 0x0⟩
/-- CAM_COLS [15:0] K0 (R275). -/
def CAM_COLS_K0 : Fld := ⟨0x048, 0, 16, .rw, 0x0⟩
/-- CAM_FRAME [15:0] LINES (R275). -/
def CAM_FRAME : Fld := ⟨0x04C, 0, 16, .rws, 0x1000⟩
/-- CAM_FTRIG [31:16] WIDTH (R275). -/
def CAM_FTRIG_WIDTH : Fld := ⟨0x050, 16, 16, .rw, 0x9C⟩
/-- CAM_FTRIG [11:8] CMP (R275). -/
def CAM_FTRIG_CMP : Fld := ⟨0x050, 8, 4, .rw, 0x0⟩
/-- CAM_FTRIG [1] CMP_EN (R275). -/
def CAM_FTRIG_CMP_EN : Fld := ⟨0x050, 1, 1, .rw, 0x0⟩
/-- CAM_FTRIG [0] TRIG_EN (R275). -/
def CAM_FTRIG_TRIG_EN : Fld := ⟨0x050, 0, 1, .rw, 0x0⟩
/-- CAM_FPER [31:0] PER (R275). -/
def CAM_FPER : Fld := ⟨0x054, 0, 32, .rw, 0x0⟩
/-- CAM_LTRIG [0] EN (R275). -/
def CAM_LTRIG : Fld := ⟨0x058, 0, 1, .rw, 0x0⟩
/-- CAM_EXP [19:0] EXP (R275). -/
def CAM_EXP : Fld := ⟨0x05C, 0, 20, .rws, 0xC35⟩
/-- CAM_LDLY [19:0] DELAY (R275). -/
def CAM_LDLY : Fld := ⟨0x060, 0, 20, .rws, 0x0⟩
/-- CAM_LAT [31:16] LAT_MAX (R275). -/
def CAM_LAT_LAT_MAX : Fld := ⟨0x064, 16, 16, .rw, 0x5161⟩
/-- CAM_LAT [15:0] LAT_MIN (R275). -/
def CAM_LAT_LAT_MIN : Fld := ⟨0x064, 0, 16, .rw, 0x0⟩
/-- CAM_NR [6:4] TK (R275). -/
def CAM_NR_TK : Fld := ⟨0x068, 4, 3, .rws, 0x0⟩
/-- CAM_NR [1:0] SPAT (R275). -/
def CAM_NR_SPAT : Fld := ⟨0x068, 0, 2, .rws, 0x0⟩
/-- CAM_FSEQ [31:0] FSEQ (R275). -/
def CAM_FSEQ : Fld := ⟨0x06C, 0, 32, .ro, 0x0⟩
/-- CAM_FSTAT [31:16] LINES (R275). -/
def CAM_FSTAT_LINES : Fld := ⟨0x070, 16, 16, .ro, 0x0⟩
/-- CAM_FSTAT [2:0] LAST (R275). -/
def CAM_FSTAT_LAST : Fld := ⟨0x070, 0, 3, .ro, 0x0⟩
/-- CAM_BIND [7] EN (R275). -/
def CAM_BIND_EN : Fld := ⟨0x0A0, 7, 1, .rw, 0x0⟩
/-- CAM_BIND [5:0] CH (R275). -/
def CAM_BIND_CH : Fld := ⟨0x0A0, 0, 6, .rw, 0x0⟩
/-- CAM_FRM_CNT [31:0] COUNT (R275). -/
def CAM_FRM_CNT : Fld := ⟨0x0A4, 0, 32, .ro, 0x0⟩
/-- CAM_SHORT_CNT [31:0] COUNT (R275). -/
def CAM_SHORT_CNT : Fld := ⟨0x0A8, 0, 32, .ro, 0x0⟩
/-- CAM_LONG_CNT [31:0] COUNT (R275). -/
def CAM_LONG_CNT : Fld := ⟨0x0AC, 0, 32, .ro, 0x0⟩
/-- CAM_XLINE_CNT [31:0] COUNT (R275). -/
def CAM_XLINE_CNT : Fld := ⟨0x0B0, 0, 32, .ro, 0x0⟩
/-- CAM_LCHK_CNT [31:0] COUNT (R275). -/
def CAM_LCHK_CNT : Fld := ⟨0x0B4, 0, 32, .ro, 0x0⟩
/-- CAM_LBAD_CNT [31:0] COUNT (R275). -/
def CAM_LBAD_CNT : Fld := ⟨0x0B8, 0, 32, .ro, 0x0⟩
/-- CAM_NOSTAMP_CNT [31:0] COUNT (R275). -/
def CAM_NOSTAMP_CNT : Fld := ⟨0x0BC, 0, 32, .ro, 0x0⟩
/-- CAM_TSKIP_CNT [31:0] COUNT (R275). -/
def CAM_TSKIP_CNT : Fld := ⟨0x0C0, 0, 32, .ro, 0x0⟩
/-- CAM_SLATE_CNT [31:0] COUNT (R275). -/
def CAM_SLATE_CNT : Fld := ⟨0x0C4, 0, 32, .ro, 0x0⟩
/-- CHANT_CTRL [15:8] TRIM_EN (R298). -/
def CHANT_CTRL_TRIM_EN : Fld := ⟨0x040, 8, 8, .rw, 0x0⟩
/-- CHANT_CTRL [1] COL_EN (R298). -/
def CHANT_CTRL_COL_EN : Fld := ⟨0x040, 1, 1, .rw, 0x0⟩
/-- CHANT_CTRL [0] ZONE_EN (R298). -/
def CHANT_CTRL_ZONE_EN : Fld := ⟨0x040, 0, 1, .rw, 0x0⟩
/-- CHANT_CFG [8] CMP_EN (R298). -/
def CHANT_CFG_CMP_EN : Fld := ⟨0x044, 8, 1, .rw, 0x0⟩
/-- CHANT_CFG [3:0] CMP (R298). -/
def CHANT_CFG_CMP : Fld := ⟨0x044, 0, 4, .rw, 0x0⟩
/-- CHANT_PER [31:0] PER (R298). -/
def CHANT_PER : Fld := ⟨0x048, 0, 32, .rw, 0x989680⟩
/-- CHANT_LOOP [15:8] KP_C (R298). -/
def CHANT_LOOP_KP_C : Fld := ⟨0x04C, 8, 8, .rws, 0x40⟩
/-- CHANT_LOOP [7:0] KP_Z (R298). -/
def CHANT_LOOP_KP_Z : Fld := ⟨0x04C, 0, 8, .rws, 0x80⟩
/-- CHANT_DEAD [31:16] DEAD_C (R298). -/
def CHANT_DEAD_DEAD_C : Fld := ⟨0x050, 16, 16, .rws, 0x29⟩
/-- CHANT_DEAD [15:0] DEAD_Z (R298). -/
def CHANT_DEAD_DEAD_Z : Fld := ⟨0x050, 0, 16, .rws, 0x29⟩
/-- CHANT_STEP [6:0] STEP (R298). -/
def CHANT_STEP : Fld := ⟨0x054, 0, 7, .rws, 0x20⟩
/-- CHANT_DOT [15:0] DDEAD (R298). -/
def CHANT_DOT : Fld := ⟨0x058, 0, 16, .rws, 0xA4⟩
/-- CHANT_SOLVE [31:8] NMIN (R298). -/
def CHANT_SOLVE_NMIN : Fld := ⟨0x05C, 8, 24, .rws, 0x400⟩
/-- CHANT_SOLVE [7:0] PIV (R298). -/
def CHANT_SOLVE_PIV : Fld := ⟨0x05C, 0, 8, .rws, 0x10⟩
/-- CHANT_SENS [15:0] SENS (R298). -/
def CHANT_SENS : Fld := ⟨0x060, 0, 16, .rws, 0x800⟩
/-- CHANT_BMAP [11] V2 (R298). -/
def CHANT_BMAP_V2 : Fld := ⟨0x080, 11, 1, .rw, 0x0⟩
/-- CHANT_BMAP [10:8] BAR2 (R298). -/
def CHANT_BMAP_BAR2 : Fld := ⟨0x080, 8, 3, .rw, 0x0⟩
/-- CHANT_BMAP [7] V1 (R298). -/
def CHANT_BMAP_V1 : Fld := ⟨0x080, 7, 1, .rw, 0x0⟩
/-- CHANT_BMAP [6:4] BAR1 (R298). -/
def CHANT_BMAP_BAR1 : Fld := ⟨0x080, 4, 3, .rw, 0x0⟩
/-- CHANT_BMAP [3] V0 (R298). -/
def CHANT_BMAP_V0 : Fld := ⟨0x080, 3, 1, .rw, 0x0⟩
/-- CHANT_BMAP [2:0] BAR0 (R298). -/
def CHANT_BMAP_BAR0 : Fld := ⟨0x080, 0, 3, .rw, 0x0⟩
/-- CHANT_A0 [15:0] A0 (R298). -/
def CHANT_A0 : Fld := ⟨0x098, 0, 16, .rw, 0x9D⟩
/-- CHANT_CAMGEN [16] CHK (R298). -/
def CHANT_CAMGEN_CHK : Fld := ⟨0x09C, 16, 1, .rw, 0x0⟩
/-- CHANT_CAMGEN [15:8] GEN1 (R298). -/
def CHANT_CAMGEN_GEN1 : Fld := ⟨0x09C, 8, 8, .rw, 0x0⟩
/-- CHANT_CAMGEN [7:0] GEN0 (R298). -/
def CHANT_CAMGEN_GEN0 : Fld := ⟨0x09C, 0, 8, .rw, 0x0⟩
/-- CHANT_CBASE_LO [31:16] ADDR (R298). -/
def CHANT_CBASE_LO : Fld := ⟨0x0A0, 16, 16, .rw, 0x0⟩
/-- CHANT_CBASE_HI [5:0] ADDR (R298). -/
def CHANT_CBASE_HI : Fld := ⟨0x0A4, 0, 6, .rw, 0x0⟩
/-- CHANT_LEAD [15:0] LINES (R298). -/
def CHANT_LEAD : Fld := ⟨0x0A8, 0, 16, .rw, 0x400⟩
/-- CHANT_STAT [15:8] BUSY (R298). -/
def CHANT_STAT_BUSY : Fld := ⟨0x0AC, 8, 8, .ro, 0x0⟩
/-- CHANT_STAT [1] ZBANK (R298). -/
def CHANT_STAT_ZBANK : Fld := ⟨0x0AC, 1, 1, .ro, 0x0⟩
/-- CHANT_STAT [0] CBANK (R298). -/
def CHANT_STAT_CBANK : Fld := ⟨0x0AC, 0, 1, .ro, 0x0⟩
/-- CHANT_ZWIN [31:0] WIN (R298). -/
def CHANT_ZWIN : Fld := ⟨0x0B0, 0, 32, .ro, 0x0⟩
/-- CHANT_CWIN [31:0] WIN (R298). -/
def CHANT_CWIN : Fld := ⟨0x0B4, 0, 32, .ro, 0x0⟩
/-- CHANT_ZOPEN [31:0] LINE (R298). -/
def CHANT_ZOPEN : Fld := ⟨0x0B8, 0, 32, .ro, 0x0⟩
/-- CHANT_COPEN [31:0] LINE (R298). -/
def CHANT_COPEN : Fld := ⟨0x0BC, 0, 32, .ro, 0x0⟩
/-- CHANT_PAIR_CNT [31:0] COUNT (R298). -/
def CHANT_PAIR_CNT : Fld := ⟨0x0C0, 0, 32, .ro, 0x0⟩
/-- CHANT_SKIP_CNT [31:0] COUNT (R298). -/
def CHANT_SKIP_CNT : Fld := ⟨0x0C4, 0, 32, .ro, 0x0⟩
/-- CHANT_FOVF_CNT [31:0] COUNT (R298). -/
def CHANT_FOVF_CNT : Fld := ⟨0x0C8, 0, 32, .ro, 0x0⟩
/-- CHANT_FLUSH_CNT [31:0] COUNT (R298). -/
def CHANT_FLUSH_CNT : Fld := ⟨0x0CC, 0, 32, .ro, 0x0⟩
/-- CHANT_FRSKIP_CNT [31:0] COUNT (R298). -/
def CHANT_FRSKIP_CNT : Fld := ⟨0x0D0, 0, 32, .ro, 0x0⟩
/-- CHANT_HOLD_CNT [31:0] COUNT (R298). -/
def CHANT_HOLD_CNT : Fld := ⟨0x0D4, 0, 32, .ro, 0x0⟩
/-- CHANT_CLIP_CNT [31:0] COUNT (R298). -/
def CHANT_CLIP_CNT : Fld := ⟨0x0D8, 0, 32, .ro, 0x0⟩
/-- CHANT_DEFER_CNT [31:0] COUNT (R298). -/
def CHANT_DEFER_CNT : Fld := ⟨0x0DC, 0, 32, .ro, 0x0⟩
/-- CHANT_CYCLE [31:0] COUNT (R298). -/
def CHANT_CYCLE : Fld := ⟨0x0E0, 0, 32, .ro, 0x0⟩
/-- CHANT_CYC_LINE [31:0] LINE (R298). -/
def CHANT_CYC_LINE : Fld := ⟨0x0E4, 0, 32, .ro, 0x0⟩
/-- CHANT_BIND [7] EN (R298). -/
def CHANT_BIND_EN : Fld := ⟨0x0E8, 7, 1, .rw, 0x0⟩
/-- CHANT_BIND [5:0] CH (R298). -/
def CHANT_BIND_CH : Fld := ⟨0x0E8, 0, 6, .rw, 0x0⟩
/-- CAL_CMD [31] GO (R299). -/
def CAL_CMD_GO : Fld := ⟨0x040, 31, 1, .wo, 0x0⟩
/-- CAL_CMD [9] ABORT (R299). -/
def CAL_CMD_ABORT : Fld := ⟨0x040, 9, 1, .wo, 0x0⟩
/-- CAL_CMD [8] CONT (R299). -/
def CAL_CMD_CONT : Fld := ⟨0x040, 8, 1, .wo, 0x0⟩
/-- CAL_CMD [2:0] KIND (R299). -/
def CAL_CMD_KIND : Fld := ⟨0x040, 0, 3, .wo, 0x0⟩
/-- CAL_STAT [12] BANK (R299). -/
def CAL_STAT_BANK : Fld := ⟨0x044, 12, 1, .ro, 0x0⟩
/-- CAL_STAT [11:8] RESULT (R299). -/
def CAL_STAT_RESULT : Fld := ⟨0x044, 8, 4, .ro, 0x0⟩
/-- CAL_STAT [7:4] STEP (R299). -/
def CAL_STAT_STEP : Fld := ⟨0x044, 4, 4, .ro, 0x0⟩
/-- CAL_STAT [2:0] KIND (R299). -/
def CAL_STAT_KIND : Fld := ⟨0x044, 0, 3, .ro, 0x0⟩
/-- CAL_TOL [31:24] ABS (R299). -/
def CAL_TOL_ABS : Fld := ⟨0x048, 24, 8, .rw, 0x1⟩
/-- CAL_TOL [15:0] REL (R299). -/
def CAL_TOL_REL : Fld := ⟨0x048, 0, 16, .rw, 0x52⟩
/-- CAL_FRAC [15:0] FRAC (R299). -/
def CAL_FRAC : Fld := ⟨0x04C, 0, 16, .rw, 0x148⟩
/-- CAL_WIN [4:0] WEXP (R299). -/
def CAL_WIN : Fld := ⟨0x050, 0, 5, .rw, 0x12⟩
/-- CAL_FLAT [15:0] TARGET (R299). -/
def CAL_FLAT : Fld := ⟨0x054, 0, 16, .rw, 0xEA60⟩
/-- CAL_CNT [31:0] CALNUM (R299). -/
def CAL_CNT : Fld := ⟨0x060, 0, 32, .ro, 0x0⟩
/-- CAL_TIME_LO [31:0] TIME (R299). -/
def CAL_TIME_LO : Fld := ⟨0x078, 0, 32, .ro, 0x0⟩
/-- CAL_TIME_HI [31:0] TIME (R299). -/
def CAL_TIME_HI : Fld := ⟨0x07C, 0, 32, .ro, 0x0⟩
/-- CAL_LAST [2:0] KIND (R299). -/
def CAL_LAST : Fld := ⟨0x080, 0, 3, .ro, 0x0⟩
/-- CAL_DISAG [31:0] COUNT (R299). -/
def CAL_DISAG : Fld := ⟨0x084, 0, 32, .ro, 0x0⟩
/-- CAL_COMPARED [31:0] COUNT (R299). -/
def CAL_COMPARED : Fld := ⟨0x088, 0, 32, .ro, 0x0⟩
/-- CAL_REJ_CNT [31:0] COUNT (R299). -/
def CAL_REJ_CNT : Fld := ⟨0x08C, 0, 32, .ro, 0x0⟩
/-- CAL_BIND [15] IN_EN (R299). -/
def CAL_BIND_IN_EN : Fld := ⟨0x090, 15, 1, .rw, 0x0⟩
/-- CAL_BIND [13:8] IN_CH (R299). -/
def CAL_BIND_IN_CH : Fld := ⟨0x090, 8, 6, .rw, 0x0⟩
/-- CAL_BIND [7] OUT_EN (R299). -/
def CAL_BIND_OUT_EN : Fld := ⟨0x090, 7, 1, .rw, 0x0⟩
/-- CAL_BIND [5:0] OUT_CH (R299). -/
def CAL_BIND_OUT_CH : Fld := ⟨0x090, 0, 6, .rw, 0x0⟩
/-- DRAMC_CFG [4] SPARE (R323). -/
def DRAMC_CFG_SPARE : Fld := ⟨0x040, 4, 1, .rwl, 0x1⟩
/-- DRAMC_CFG [1:0] MODE (R323). -/
def DRAMC_CFG_MODE : Fld := ⟨0x040, 0, 2, .rw, 0x0⟩
/-- DRAMC_SIZE_LO [31:0] BYTES (R323). -/
def DRAMC_SIZE_LO : Fld := ⟨0x044, 0, 32, .ro, 0x0⟩
/-- DRAMC_SIZE_HI [5:0] BYTES (R323). -/
def DRAMC_SIZE_HI : Fld := ⟨0x048, 0, 6, .ro, 0x0⟩
/-- DRAMC_GEOM [16] DPC2 (R323). -/
def DRAMC_GEOM_DPC2 : Fld := ⟨0x04C, 16, 1, .ro, 0x0⟩
/-- DRAMC_GEOM [12:8] S (R323). -/
def DRAMC_GEOM_S : Fld := ⟨0x04C, 8, 5, .ro, 0x0⟩
/-- DRAMC_GEOM [2:0] RANKS (R323). -/
def DRAMC_GEOM_RANKS : Fld := ⟨0x04C, 0, 3, .ro, 0x0⟩
/-- DRAMC_RT [31:16] PAUSE_LINES (R323). -/
def DRAMC_RT_PAUSE_LINES : Fld := ⟨0x050, 16, 16, .rw, 0x20⟩
/-- DRAMC_RT [15:0] PANIC_LINES (R323). -/
def DRAMC_RT_PANIC_LINES : Fld := ⟨0x050, 0, 16, .rw, 0x10⟩
/-- DRAMC_RH [31:16] GAP (R323). -/
def DRAMC_RH_GAP : Fld := ⟨0x054, 16, 16, .rw, 0xFA0⟩
/-- DRAMC_RH [15:0] THR (R323). -/
def DRAMC_RH_THR : Fld := ⟨0x054, 0, 16, .rw, 0x4000⟩
/-- DRAMC_RH_LAST [20] TRR (R323). -/
def DRAMC_RH_LAST_TRR : Fld := ⟨0x058, 20, 1, .ro, 0x0⟩
/-- DRAMC_RH_LAST [19:16] BANK (R323). -/
def DRAMC_RH_LAST_BANK : Fld := ⟨0x058, 16, 4, .ro, 0x0⟩
/-- DRAMC_RH_LAST [13:12] RANK (R323). -/
def DRAMC_RH_LAST_RANK : Fld := ⟨0x058, 12, 2, .ro, 0x0⟩
/-- DRAMC_RH_LAST [9:8] CH (R323). -/
def DRAMC_RH_LAST_CH : Fld := ⟨0x058, 8, 2, .ro, 0x0⟩
/-- DRAMC_RH_LAST [7:0] REQ (R323). -/
def DRAMC_RH_LAST_REQ : Fld := ⟨0x058, 0, 8, .ro, 0x0⟩
/-- DRAMC_RH_ROW [16:0] ROW (R323). -/
def DRAMC_RH_ROW : Fld := ⟨0x05C, 0, 17, .ro, 0x0⟩
/-- DRAMC_THR_CNT [31:0] COUNT (R323). -/
def DRAMC_THR_CNT : Fld := ⟨0x060, 0, 32, .ro, 0x0⟩
/-- DRAMC_TRR_CNT [31:0] COUNT (R323). -/
def DRAMC_TRR_CNT : Fld := ⟨0x064, 0, 32, .ro, 0x0⟩
/-- DRAMC_RETRAIN [31] EN (R323). -/
def DRAMC_RETRAIN_EN : Fld := ⟨0x068, 31, 1, .rw, 0x1⟩
/-- DRAMC_RETRAIN [15:0] PER (R323). -/
def DRAMC_RETRAIN_PER : Fld := ⟨0x068, 0, 16, .rw, 0x64⟩
/-- DRAMC_FREF_CNT [31:0] COUNT (R323). -/
def DRAMC_FREF_CNT : Fld := ⟨0x06C, 0, 32, .ro, 0x0⟩
/-- DRAMC_PANIC [7:0] PORTS (R323). -/
def DRAMC_PANIC : Fld := ⟨0x070, 0, 8, .ro, 0x0⟩
/-- DRAMC_PANIC_CNT [31:0] COUNT (R323). -/
def DRAMC_PANIC_CNT : Fld := ⟨0x074, 0, 32, .ro, 0x0⟩
/-- DRAM_RMAP [10] SPV (R324). -/
def DRAM_RMAP_SPV : Fld := ⟨0x040, 10, 1, .ro, 0x0⟩
/-- DRAM_RMAP [9:8] SPR (R324). -/
def DRAM_RMAP_SPR : Fld := ⟨0x040, 8, 2, .ro, 0x0⟩
/-- DRAM_RMAP [7:0] LR (R324). -/
def DRAM_RMAP_LR : Fld := ⟨0x040, 0, 8, .ro, 0x0⟩
/-- DRAM_RSTAT [15:0] RANK (R324). -/
def DRAM_RSTAT : Fld := ⟨0x044, 0, 16, .ro, 0x0⟩
/-- DRAM_MIG_CMD [31] GO (R324). -/
def DRAM_MIG_CMD_GO : Fld := ⟨0x048, 31, 1, .wo, 0x0⟩
/-- DRAM_MIG_CMD [1:0] LR (R324). -/
def DRAM_MIG_CMD_LR : Fld := ⟨0x048, 0, 2, .wo, 0x0⟩
/-- DRAM_MIG_PTR_LO [31:0] OFS (R324). -/
def DRAM_MIG_PTR_LO : Fld := ⟨0x04C, 0, 32, .ro, 0x0⟩
/-- DRAM_MIG_PTR_HI [2:0] OFS (R324). -/
def DRAM_MIG_PTR_HI : Fld := ⟨0x050, 0, 3, .ro, 0x0⟩
/-- DRAM_MIG_POISON [31:0] COUNT (R324). -/
def DRAM_MIG_POISON : Fld := ⟨0x054, 0, 32, .ro, 0x0⟩
/-- DRAM_CORR_CNT [31:0] COUNT (R324). -/
def DRAM_CORR_CNT : Fld := ⟨0x058, 0, 32, .ro, 0x0⟩
/-- DRAM_UNC_CNT [31:0] COUNT (R324). -/
def DRAM_UNC_CNT : Fld := ⟨0x05C, 0, 32, .ro, 0x0⟩
/-- DRAM_POISON_CNT [31:0] COUNT (R324). -/
def DRAM_POISON_CNT : Fld := ⟨0x060, 0, 32, .ro, 0x0⟩
/-- DRAM_REP_CNT [31:0] COUNT (R324). -/
def DRAM_REP_CNT : Fld := ⟨0x064, 0, 32, .ro, 0x0⟩
/-- DRAM_REP_LAST [31:0] ADDR (R324). -/
def DRAM_REP_LAST : Fld := ⟨0x068, 0, 32, .ro, 0x0⟩
/-- DRAM_PAR_CFG [3:0] TRIES (R324). -/
def DRAM_PAR_CFG : Fld := ⟨0x06C, 0, 4, .rw, 0x3⟩
/-- DRAM_PAR_CNT [31:0] COUNT (R324). -/
def DRAM_PAR_CNT : Fld := ⟨0x070, 0, 32, .ro, 0x0⟩
/-- DRAM_PAR_FAIL [31:0] COUNT (R324). -/
def DRAM_PAR_FAIL : Fld := ⟨0x074, 0, 32, .ro, 0x0⟩
/-- DRAM_TRAIN_CNT [31:0] COUNT (R324). -/
def DRAM_TRAIN_CNT : Fld := ⟨0x078, 0, 32, .ro, 0x0⟩
/-- DRAM_TRAIN_FAIL [31:0] COUNT (R324). -/
def DRAM_TRAIN_FAIL : Fld := ⟨0x07C, 0, 32, .ro, 0x0⟩
/-- DRAM_REP_FLOOR [3:0] F (R324). -/
def DRAM_REP_FLOOR : Fld := ⟨0x080, 0, 4, .ro, 0x0⟩
/-- DRAM_REP_A [31:0] ADDR (R324). -/
def DRAM_REP_A : Fld := ⟨0x100, 0, 32, .ro, 0x0⟩
/-- DRAM_REP_V [31] VALID (R324). -/
def DRAM_REP_V_VALID : Fld := ⟨0x104, 31, 1, .ro, 0x0⟩
/-- DRAM_REP_V [4:0] COUNT (R324). -/
def DRAM_REP_V_COUNT : Fld := ⟨0x104, 0, 5, .ro, 0x0⟩
/-- LSTORE_CORR_CNT [31:0] COUNT (R325). -/
def LSTORE_CORR_CNT : Fld := ⟨0x040, 0, 32, .ro, 0x0⟩
/-- LSTORE_UNC_CNT [31:0] COUNT (R325). -/
def LSTORE_UNC_CNT : Fld := ⟨0x044, 0, 32, .ro, 0x0⟩
/-- LSTORE_REP_CNT [31:0] COUNT (R325). -/
def LSTORE_REP_CNT : Fld := ⟨0x048, 0, 32, .ro, 0x0⟩
/-- LSTORE_REP_LAST [25:0] ADDR (R325). -/
def LSTORE_REP_LAST : Fld := ⟨0x04C, 0, 26, .ro, 0x0⟩
/-- LSTORE_APER_UNC [31:0] COUNT (R325). -/
def LSTORE_APER_UNC : Fld := ⟨0x050, 0, 32, .ro, 0x0⟩
/-- LSTORE_REP_FLOOR [3:0] F (R325). -/
def LSTORE_REP_FLOOR : Fld := ⟨0x054, 0, 4, .ro, 0x0⟩
/-- LSTORE_REP_A [25:0] ADDR (R325). -/
def LSTORE_REP_A : Fld := ⟨0x100, 0, 26, .ro, 0x0⟩
/-- LSTORE_REP_V [31] VALID (R325). -/
def LSTORE_REP_V_VALID : Fld := ⟨0x104, 31, 1, .ro, 0x0⟩
/-- LSTORE_REP_V [4:0] COUNT (R325). -/
def LSTORE_REP_V_COUNT : Fld := ⟨0x104, 0, 5, .ro, 0x0⟩
/-- SCRUB_CTRL [31] GO (R326). -/
def SCRUB_CTRL_GO : Fld := ⟨0x040, 31, 1, .wo, 0x0⟩
/-- SCRUB_CTRL [30] STOP (R326). -/
def SCRUB_CTRL_STOP : Fld := ⟨0x040, 30, 1, .wo, 0x0⟩
/-- SCRUB_CTRL [0] MEM (R326). -/
def SCRUB_CTRL_MEM : Fld := ⟨0x040, 0, 1, .rw, 0x0⟩
/-- SCRUB_START_LO [31:6] ADDR (R326). -/
def SCRUB_START_LO : Fld := ⟨0x044, 6, 26, .rw, 0x0⟩
/-- SCRUB_START_HI [5:0] ADDR (R326). -/
def SCRUB_START_HI : Fld := ⟨0x048, 0, 6, .rw, 0x0⟩
/-- SCRUB_LEN_LO [31:6] BYTES (R326). -/
def SCRUB_LEN_LO : Fld := ⟨0x04C, 6, 26, .rw, 0x0⟩
/-- SCRUB_LEN_HI [5:0] BYTES (R326). -/
def SCRUB_LEN_HI : Fld := ⟨0x050, 0, 6, .rw, 0x0⟩
/-- SCRUB_GAP [15:0] TICKS (R326). -/
def SCRUB_GAP : Fld := ⟨0x054, 0, 16, .rw, 0x4⟩
/-- SCRUB_STAT [2:1] RESULT (R326). -/
def SCRUB_STAT_RESULT : Fld := ⟨0x058, 1, 2, .ro, 0x0⟩
/-- SCRUB_STAT [0] BUSY (R326). -/
def SCRUB_STAT_BUSY : Fld := ⟨0x058, 0, 1, .ro, 0x0⟩
/-- SCRUB_DONE_LO [31:0] BYTES (R326). -/
def SCRUB_DONE_LO : Fld := ⟨0x060, 0, 32, .ro, 0x0⟩
/-- SCRUB_DONE_HI [31:0] BYTES (R326). -/
def SCRUB_DONE_HI : Fld := ⟨0x064, 0, 32, .ro, 0x0⟩
/-- SCRUB_CORR [31:0] COUNT (R326). -/
def SCRUB_CORR : Fld := ⟨0x068, 0, 32, .ro, 0x0⟩
/-- SCRUB_UNC [31:0] COUNT (R326). -/
def SCRUB_UNC : Fld := ⟨0x06C, 0, 32, .ro, 0x0⟩
/-- SCRUB_POISON [31:0] COUNT (R326). -/
def SCRUB_POISON : Fld := ⟨0x070, 0, 32, .ro, 0x0⟩
/-- SCRUB_FIRST_LO [31:0] ADDR (R326). -/
def SCRUB_FIRST_LO : Fld := ⟨0x074, 0, 32, .ro, 0x0⟩
/-- SCRUB_FIRST_HI [31:0] ADDR (R326). -/
def SCRUB_FIRST_HI : Fld := ⟨0x078, 0, 32, .ro, 0x0⟩
/-- LANE_CTRL [5] MAINT (R343). -/
def LANE_CTRL_MAINT : Fld := ⟨0x040, 5, 1, .rw, 0x0⟩
/-- LANE_CTRL [4] EIDLE (R343). -/
def LANE_CTRL_EIDLE : Fld := ⟨0x040, 4, 1, .rw, 0x0⟩
/-- LANE_CTRL [2] RX_INV (R343). -/
def LANE_CTRL_RX_INV : Fld := ⟨0x040, 2, 1, .rw, 0x0⟩
/-- LANE_CTRL [1] TX_INV (R343). -/
def LANE_CTRL_TX_INV : Fld := ⟨0x040, 1, 1, .rw, 0x0⟩
/-- LANE_TXEQ [19:16] PRE (R343). -/
def LANE_TXEQ_PRE : Fld := ⟨0x044, 16, 4, .rws, 0x0⟩
/-- LANE_TXEQ [13:8] MAIN (R343). -/
def LANE_TXEQ_MAIN : Fld := ⟨0x044, 8, 6, .rws, 0x36⟩
/-- LANE_TXEQ [4:0] POST (R343). -/
def LANE_TXEQ_POST : Fld := ⟨0x044, 0, 5, .rws, 0x9⟩
/-- LANE_SAMP [15:8] THR (R343). -/
def LANE_SAMP_THR : Fld := ⟨0x048, 8, 8, .rws, 0x0⟩
/-- LANE_SAMP [7:0] PHASE (R343). -/
def LANE_SAMP_PHASE : Fld := ⟨0x048, 0, 8, .rws, 0x0⟩
/-- LANE_CMD [31] SEARCH (R343). -/
def LANE_CMD_SEARCH : Fld := ⟨0x050, 31, 1, .wo, 0x0⟩
/-- LANE_CMD [30] ESCAN (R343). -/
def LANE_CMD_ESCAN : Fld := ⟨0x050, 30, 1, .wo, 0x0⟩
/-- LANE_CMD [6:0] SLIP (R343). -/
def LANE_CMD_SLIP : Fld := ⟨0x050, 0, 7, .wo, 0x0⟩
/-- LANE_SYNC [31:16] GOOD (R343). -/
def LANE_SYNC_GOOD : Fld := ⟨0x054, 16, 16, .ro, 0x0⟩
/-- LANE_SYNC [7:0] TRIES (R343). -/
def LANE_SYNC_TRIES : Fld := ⟨0x054, 0, 8, .rw, 0x4⟩
/-- LANE_STAT [6:0] SLIP (R343). -/
def LANE_STAT : Fld := ⟨0x058, 0, 7, .ro, 0x0⟩
/-- LANE_EIDLE [15:0] BURST (R343). -/
def LANE_EIDLE : Fld := ⟨0x05C, 0, 16, .rw, 0x80⟩
/-- LANE_ESCAN_CFG [31:24] LIM (R343). -/
def LANE_ESCAN_CFG_LIM : Fld := ⟨0x060, 24, 8, .rw, 0x0⟩
/-- LANE_ESCAN_CFG [20:16] DWELL (R343). -/
def LANE_ESCAN_CFG_DWELL : Fld := ⟨0x060, 16, 5, .rw, 0x10⟩
/-- LANE_ESCAN_CFG [0] MODE (R343). -/
def LANE_ESCAN_CFG_MODE : Fld := ⟨0x060, 0, 1, .rw, 0x0⟩
/-- LANE_ESCAN_PT [15:8] THR (R343). -/
def LANE_ESCAN_PT_THR : Fld := ⟨0x064, 8, 8, .rw, 0x0⟩
/-- LANE_ESCAN_PT [7:0] PHASE (R343). -/
def LANE_ESCAN_PT_PHASE : Fld := ⟨0x064, 0, 8, .rw, 0x0⟩
/-- LANE_ESCAN_RES [31:24] HEIGHT (R343). -/
def LANE_ESCAN_RES_HEIGHT : Fld := ⟨0x068, 24, 8, .ro, 0x0⟩
/-- LANE_ESCAN_RES [23:16] WIDTH (R343). -/
def LANE_ESCAN_RES_WIDTH : Fld := ⟨0x068, 16, 8, .ro, 0x0⟩
/-- LANE_ESCAN_RES [15:8] THR (R343). -/
def LANE_ESCAN_RES_THR : Fld := ⟨0x068, 8, 8, .ro, 0x0⟩
/-- LANE_ESCAN_RES [7:0] PHASE (R343). -/
def LANE_ESCAN_RES_PHASE : Fld := ⟨0x068, 0, 8, .ro, 0x0⟩
/-- LANE_ESCAN_ERR [31:0] COUNT (R343). -/
def LANE_ESCAN_ERR : Fld := ⟨0x06C, 0, 32, .ro, 0x0⟩
/-- LANE_PRBS [7] GEN (R343). -/
def LANE_PRBS_GEN : Fld := ⟨0x070, 7, 1, .rw, 0x0⟩
/-- LANE_PRBS [6] CHK (R343). -/
def LANE_PRBS_CHK : Fld := ⟨0x070, 6, 1, .rw, 0x0⟩
/-- LANE_PRBS [2:0] POLY (R343). -/
def LANE_PRBS_POLY : Fld := ⟨0x070, 0, 3, .rw, 0x3⟩
/-- LANE_PRBS_STAT [0] SYNC (R343). -/
def LANE_PRBS_STAT : Fld := ⟨0x074, 0, 1, .ro, 0x0⟩
/-- LANE_PRBS_ERR [31:0] COUNT (R343). -/
def LANE_PRBS_ERR : Fld := ⟨0x078, 0, 32, .ro, 0x0⟩
/-- LANE_PRBS_BITS_LO [31:0] BITS (R343). -/
def LANE_PRBS_BITS_LO : Fld := ⟨0x07C, 0, 32, .ro, 0x0⟩
/-- LANE_PRBS_BITS_HI [31:0] BITS (R343). -/
def LANE_PRBS_BITS_HI : Fld := ⟨0x080, 0, 32, .ro, 0x0⟩
/-- LANE_BLK_ERR [31:0] COUNT (R343). -/
def LANE_BLK_ERR : Fld := ⟨0x084, 0, 32, .ro, 0x0⟩
/-- LANE_LOCK_CNT [31:0] COUNT (R343). -/
def LANE_LOCK_CNT : Fld := ⟨0x088, 0, 32, .ro, 0x0⟩
/-- LANE_EXIT_CNT [31:0] COUNT (R343). -/
def LANE_EXIT_CNT : Fld := ⟨0x08C, 0, 32, .ro, 0x0⟩
/-- HOSTIF_LINK [11] MSIX_EN (R361). -/
def HOSTIF_LINK_MSIX_EN : Fld := ⟨0x040, 11, 1, .ro, 0x0⟩
/-- HOSTIF_LINK [10] FMASK (R361). -/
def HOSTIF_LINK_FMASK : Fld := ⟨0x040, 10, 1, .ro, 0x0⟩
/-- HOSTIF_LINK [9] BME (R361). -/
def HOSTIF_LINK_BME : Fld := ⟨0x040, 9, 1, .ro, 0x0⟩
/-- HOSTIF_LINK [8] UP (R361). -/
def HOSTIF_LINK_UP : Fld := ⟨0x040, 8, 1, .ro, 0x0⟩
/-- HOSTIF_LINK [6:4] WIDTH (R361). -/
def HOSTIF_LINK_WIDTH : Fld := ⟨0x040, 4, 3, .ro, 0x0⟩
/-- HOSTIF_LINK [2:0] SPEED (R361). -/
def HOSTIF_LINK_SPEED : Fld := ⟨0x040, 0, 3, .ro, 0x0⟩
/-- HOSTIF_WIN_LO [31:20] ADDR (R361). -/
def HOSTIF_WIN_LO : Fld := ⟨0x044, 20, 12, .rw, 0x0⟩
/-- HOSTIF_WIN_HI [5:0] ADDR (R361). -/
def HOSTIF_WIN_HI : Fld := ⟨0x048, 0, 6, .rw, 0x0⟩
/-- HOSTIF_COAL [15:0] US (R361). -/
def HOSTIF_COAL : Fld := ⟨0x04C, 0, 16, .rw, 0x0⟩
/-- HOSTIF_FAULT_SRC [5:0] SRC (R361). -/
def HOSTIF_FAULT_SRC : Fld := ⟨0x050, 0, 6, .ro, 0x0⟩
/-- HOSTIF_FAULT_EN [5:0] EN (R361). -/
def HOSTIF_FAULT_EN : Fld := ⟨0x054, 0, 6, .rw, 0x3F⟩
/-- HOSTIF_WARN_SRC [4:0] SRC (R361). -/
def HOSTIF_WARN_SRC : Fld := ⟨0x058, 0, 5, .ro, 0x0⟩
/-- HOSTIF_WARN_EN [4:2] EN (R361). -/
def HOSTIF_WARN_EN_EN_2 : Fld := ⟨0x05C, 2, 3, .rw, 0x7⟩
/-- HOSTIF_WARN_EN [1:0] EN (R361). -/
def HOSTIF_WARN_EN_EN_0 : Fld := ⟨0x05C, 0, 2, .ro, 0x3⟩
/-- HOSTIF_SWPIN [1] WARN (R361). -/
def HOSTIF_SWPIN_WARN : Fld := ⟨0x060, 1, 1, .rw, 0x0⟩
/-- HOSTIF_SWPIN [0] FAULT (R361). -/
def HOSTIF_SWPIN_FAULT : Fld := ⟨0x060, 0, 1, .rw, 0x0⟩
/-- HOSTIF_CTO_CNT [31:0] COUNT (R361). -/
def HOSTIF_CTO_CNT : Fld := ⟨0x064, 0, 32, .ro, 0x0⟩
/-- HOSTIF_PEND [31:0] PAGES (R361). -/
def HOSTIF_PEND : Fld := ⟨0x100, 0, 32, .ro, 0x0⟩
/-- HOSTIF_VMAP VEC of page 4w + 0 (R361). -/
def HOSTIF_VMAP_0 : Fld := ⟨0x400, 0, 6, .rw, 0⟩
/-- HOSTIF_VMAP VEC of page 4w + 1 (R361). -/
def HOSTIF_VMAP_1 : Fld := ⟨0x400, 8, 6, .rw, 0⟩
/-- HOSTIF_VMAP VEC of page 4w + 2 (R361). -/
def HOSTIF_VMAP_2 : Fld := ⟨0x400, 16, 6, .rw, 0⟩
/-- HOSTIF_VMAP VEC of page 4w + 3 (R361). -/
def HOSTIF_VMAP_3 : Fld := ⟨0x400, 24, 6, .rw, 0⟩
/-- TIME_NOW_LO [31:0] NS (R362). -/
def TIME_NOW_LO : Fld := ⟨0x040, 0, 32, .ro, 0x0⟩
/-- TIME_NOW_HI [31:0] NS (R362). -/
def TIME_NOW_HI : Fld := ⟨0x044, 0, 32, .ro, 0x0⟩
/-- TIME_NOW_FRAC [31:0] FRAC (R362). -/
def TIME_NOW_FRAC : Fld := ⟨0x048, 0, 32, .ro, 0x0⟩
/-- TIME_INC_FRAC [31:0] FRAC (R362). -/
def TIME_INC_FRAC : Fld := ⟨0x04C, 0, 32, .rw, 0x66666666⟩
/-- TIME_INC_NS [2:0] NS (R362). -/
def TIME_INC_NS : Fld := ⟨0x050, 0, 3, .rw, 0x6⟩
/-- TIME_SET_LO [31:0] NS (R362). -/
def TIME_SET_LO : Fld := ⟨0x054, 0, 32, .rw, 0x0⟩
/-- TIME_SET_HI [31:0] NS (R362). -/
def TIME_SET_HI : Fld := ⟨0x058, 0, 32, .rw, 0x0⟩
/-- TIME_STEP_LO [31:0] NS (R362). -/
def TIME_STEP_LO : Fld := ⟨0x05C, 0, 32, .rw, 0x0⟩
/-- TIME_STEP_HI [31:0] NS (R362). -/
def TIME_STEP_HI : Fld := ⟨0x060, 0, 32, .rw, 0x0⟩
/-- TIME_SLEW [31:0] FRAC (R362). -/
def TIME_SLEW : Fld := ⟨0x064, 0, 32, .rw, 0x0⟩
/-- TIME_SLEW_N [31:0] TICKS (R362). -/
def TIME_SLEW_N : Fld := ⟨0x068, 0, 32, .rw, 0x0⟩
/-- TIME_SLEW_LEFT [31:0] TICKS (R362). -/
def TIME_SLEW_LEFT : Fld := ⟨0x06C, 0, 32, .ro, 0x0⟩
/-- TIME_CMD [3] SLEW (R362). -/
def TIME_CMD_SLEW : Fld := ⟨0x070, 3, 1, .wo, 0x0⟩
/-- TIME_CMD [2] SNAP (R362). -/
def TIME_CMD_SNAP : Fld := ⟨0x070, 2, 1, .wo, 0x0⟩
/-- TIME_CMD [1] STEP (R362). -/
def TIME_CMD_STEP : Fld := ⟨0x070, 1, 1, .wo, 0x0⟩
/-- TIME_CMD [0] SET (R362). -/
def TIME_CMD_SET : Fld := ⟨0x070, 0, 1, .wo, 0x0⟩
/-- TIME_SNAP_CFG [8] EN (R362). -/
def TIME_SNAP_CFG_EN : Fld := ⟨0x074, 8, 1, .rw, 0x0⟩
/-- TIME_SNAP_CFG [5:0] VEC (R362). -/
def TIME_SNAP_CFG_VEC : Fld := ⟨0x074, 0, 6, .rw, 0x0⟩
/-- TIME_SNAP_LO [31:0] NS (R362). -/
def TIME_SNAP_LO : Fld := ⟨0x078, 0, 32, .ro, 0x0⟩
/-- TIME_SNAP_HI [31:0] NS (R362). -/
def TIME_SNAP_HI : Fld := ⟨0x07C, 0, 32, .ro, 0x0⟩
/-- TIME_SNAP_INFO [31:16] SEQ (R362). -/
def TIME_SNAP_INFO_SEQ : Fld := ⟨0x080, 16, 16, .ro, 0x0⟩
/-- TIME_SNAP_INFO [8] SW (R362). -/
def TIME_SNAP_INFO_SW : Fld := ⟨0x080, 8, 1, .ro, 0x0⟩
/-- TIME_SNAP_INFO [5:0] VEC (R362). -/
def TIME_SNAP_INFO_VEC : Fld := ⟨0x080, 0, 6, .ro, 0x0⟩
/-- TIME_CMP_LO [31:0] TARGET (R362). -/
def TIME_CMP_LO : Fld := ⟨0x100, 0, 32, .rw, 0x0⟩
/-- TIME_CMP_HI [31:0] TARGET (R362). -/
def TIME_CMP_HI : Fld := ⟨0x104, 0, 32, .rw, 0x0⟩
/-- TIME_CMP_CTRL [31:28] OWNER (R362). -/
def TIME_CMP_CTRL_OWNER : Fld := ⟨0x108, 28, 4, .ro, 0x0⟩
/-- TIME_CMP_CTRL [8] SW_EN (R362). -/
def TIME_CMP_CTRL_SW_EN : Fld := ⟨0x108, 8, 1, .rw, 0x0⟩
/-- TIME_CMP_CTRL [3] LATE (R362). -/
def TIME_CMP_CTRL_LATE : Fld := ⟨0x108, 3, 1, .ro, 0x0⟩
/-- TIME_CMP_CTRL [2] FIRED (R362). -/
def TIME_CMP_CTRL_FIRED : Fld := ⟨0x108, 2, 1, .ro, 0x0⟩
/-- TIME_CMP_CTRL [1] ARMED (R362). -/
def TIME_CMP_CTRL_ARMED : Fld := ⟨0x108, 1, 1, .ro, 0x0⟩
/-- TIME_CMP_CTRL [0] DISARM (R362). -/
def TIME_CMP_CTRL_DISARM : Fld := ⟨0x108, 0, 1, .wo, 0x0⟩
/-- TIME_CMP_T [31:0] NS (R362). -/
def TIME_CMP_T : Fld := ⟨0x10C, 0, 32, .ro, 0x0⟩
/-- SYS_STRAP [31] DIFF (R378). -/
def SYS_STRAP_DIFF : Fld := ⟨0x040, 31, 1, .ro, 0x0⟩
/-- SYS_STRAP [21] PAIR_EN_L (R378). -/
def SYS_STRAP_PAIR_EN_L : Fld := ⟨0x040, 21, 1, .ro, 0x0⟩
/-- SYS_STRAP [20] HOME_L (R378). -/
def SYS_STRAP_HOME_L : Fld := ⟨0x040, 20, 1, .ro, 0x0⟩
/-- SYS_STRAP [19:16] UNIT_ID_L (R378). -/
def SYS_STRAP_UNIT_ID_L : Fld := ⟨0x040, 16, 4, .ro, 0x0⟩
/-- SYS_STRAP [5] PAIR_EN (R378). -/
def SYS_STRAP_PAIR_EN : Fld := ⟨0x040, 5, 1, .ro, 0x0⟩
/-- SYS_STRAP [4] HOME (R378). -/
def SYS_STRAP_HOME : Fld := ⟨0x040, 4, 1, .ro, 0x0⟩
/-- SYS_STRAP [3:0] UNIT_ID (R378). -/
def SYS_STRAP_UNIT_ID : Fld := ⟨0x040, 0, 4, .ro, 0x0⟩
/-- SYS_RCAUSE [1] WARM (R378). -/
def SYS_RCAUSE_WARM : Fld := ⟨0x044, 1, 1, .w1c, 0x0⟩
/-- SYS_RCAUSE [0] COLD (R378). -/
def SYS_RCAUSE_COLD : Fld := ⟨0x044, 0, 1, .w1c, 0x1⟩
/-- SYS_WRST [31:0] KEY (R378). -/
def SYS_WRST : Fld := ⟨0x048, 0, 32, .wo, 0x0⟩
/-- SYS_WRST_CNT [31:0] COUNT (R378). -/
def SYS_WRST_CNT : Fld := ⟨0x04C, 0, 32, .ro, 0x0⟩
/-- BOOT_STAT [3] WARM (R379). -/
def BOOT_STAT_WARM : Fld := ⟨0x040, 3, 1, .ro, 0x0⟩
/-- BOOT_STAT [2] RETRYING (R379). -/
def BOOT_STAT_RETRYING : Fld := ⟨0x040, 2, 1, .ro, 0x0⟩
/-- BOOT_STAT [1] DONE (R379). -/
def BOOT_STAT_DONE : Fld := ⟨0x040, 1, 1, .ro, 0x0⟩
/-- BOOT_STAT [0] READY (R379). -/
def BOOT_STAT_READY : Fld := ⟨0x040, 0, 1, .ro, 0x0⟩
/-- BOOT_STEP of step 0 (R379). -/
def BOOT_STEP_0 : Fld := ⟨0x044, 0, 3, .ro, 0⟩
/-- BOOT_STEP of step 1 (R379). -/
def BOOT_STEP_1 : Fld := ⟨0x044, 3, 3, .ro, 0⟩
/-- BOOT_STEP of step 2 (R379). -/
def BOOT_STEP_2 : Fld := ⟨0x044, 6, 3, .ro, 0⟩
/-- BOOT_STEP of step 3 (R379). -/
def BOOT_STEP_3 : Fld := ⟨0x044, 9, 3, .ro, 0⟩
/-- BOOT_STEP of step 4 (R379). -/
def BOOT_STEP_4 : Fld := ⟨0x044, 12, 3, .ro, 0⟩
/-- BOOT_STEP of step 5 (R379). -/
def BOOT_STEP_5 : Fld := ⟨0x044, 15, 3, .ro, 0⟩
/-- BOOT_STEP of step 6 (R379). -/
def BOOT_STEP_6 : Fld := ⟨0x044, 18, 3, .ro, 0⟩
/-- BOOT_STEP of step 7 (R379). -/
def BOOT_STEP_7 : Fld := ⟨0x044, 21, 3, .ro, 0⟩
/-- BOOT_BACKOFF [31:16] MAX (R379). -/
def BOOT_BACKOFF_MAX : Fld := ⟨0x048, 16, 16, .rw, 0x400⟩
/-- BOOT_BACKOFF [15:0] MIN (R379). -/
def BOOT_BACKOFF_MIN : Fld := ⟨0x048, 0, 16, .rw, 0x1⟩
/-- BOOT_CMD [0] RETRY (R379). -/
def BOOT_CMD : Fld := ⟨0x04C, 0, 1, .wo, 0x0⟩
/-- BOOT_TRY [31:0] COUNT (R379). -/
def BOOT_TRY : Fld := ⟨0x050, 0, 32, .ro, 0x0⟩
/-- BOOT_DONE_T [31:0] US (R379). -/
def BOOT_DONE_T : Fld := ⟨0x070, 0, 32, .ro, 0x0⟩
/-- BOOT_LFAIL [31:0] LANES (R379). -/
def BOOT_LFAIL : Fld := ⟨0x090, 0, 32, .ro, 0x0⟩
/-- BOOT_FLASH [31:24] LOG2 (R379). -/
def BOOT_FLASH_LOG2 : Fld := ⟨0x0A4, 24, 8, .ro, 0x0⟩
/-- BOOT_FLASH [2] E64K (R379). -/
def BOOT_FLASH_E64K : Fld := ⟨0x0A4, 2, 1, .ro, 0x0⟩
/-- BOOT_FLASH [1] E4K (R379). -/
def BOOT_FLASH_E4K : Fld := ⟨0x0A4, 1, 1, .ro, 0x0⟩
/-- BOOT_FLASH [0] ADDR4 (R379). -/
def BOOT_FLASH_ADDR4 : Fld := ⟨0x0A4, 0, 1, .ro, 0x0⟩
/-- BOOT_FL_ADDR [31:0] ADDR (R379). -/
def BOOT_FL_ADDR : Fld := ⟨0x0C0, 0, 32, .rw, 0x0⟩
/-- BOOT_FL_DRAM_LO [31:6] ADDR (R379). -/
def BOOT_FL_DRAM_LO : Fld := ⟨0x0C4, 6, 26, .rw, 0x0⟩
/-- BOOT_FL_DRAM_HI [5:0] ADDR (R379). -/
def BOOT_FL_DRAM_HI : Fld := ⟨0x0C8, 0, 6, .rw, 0x0⟩
/-- BOOT_FL_LEN [31:0] BYTES (R379). -/
def BOOT_FL_LEN : Fld := ⟨0x0CC, 0, 32, .rw, 0x0⟩
/-- BOOT_FL_CMD [31] GO (R379). -/
def BOOT_FL_CMD_GO : Fld := ⟨0x0D0, 31, 1, .wo, 0x0⟩
/-- BOOT_FL_CMD [1:0] OP (R379). -/
def BOOT_FL_CMD_OP : Fld := ⟨0x0D0, 0, 2, .rw, 0x0⟩
/-- BOOT_FL_STAT [3:1] RESULT (R379). -/
def BOOT_FL_STAT_RESULT : Fld := ⟨0x0D4, 1, 3, .ro, 0x0⟩
/-- BOOT_FL_STAT [0] BUSY (R379). -/
def BOOT_FL_STAT_BUSY : Fld := ⟨0x0D4, 0, 1, .ro, 0x0⟩
/-- THERM_TEMP [15:0] TEMP (R389). -/
def THERM_TEMP : Fld := ⟨0x040, 0, 16, .ro, 0x0⟩
/-- THERM_MAX [15:0] MAX (R389). -/
def THERM_MAX : Fld := ⟨0x044, 0, 16, .ro, 0x0⟩
/-- THERM_LIM [31:16] TRIP (R389). -/
def THERM_LIM_TRIP : Fld := ⟨0x048, 16, 16, .rwl, 0x398⟩
/-- THERM_LIM [15:0] WARN (R389). -/
def THERM_LIM_WARN : Fld := ⟨0x048, 0, 16, .rwl, 0x320⟩
/-- THERM_CFG [31:24] HYST (R389). -/
def THERM_CFG_HYST : Fld := ⟨0x04C, 24, 8, .rwl, 0x10⟩
/-- THERM_CFG [16:0] CEIL (R389). -/
def THERM_CFG_CEIL : Fld := ⟨0x04C, 0, 17, .rw, 0xEA60⟩
/-- THERM_STAT [2] SHUT (R389). -/
def THERM_STAT_SHUT : Fld := ⟨0x050, 2, 1, .ro, 0x0⟩
/-- THERM_STAT [1] TRIP (R389). -/
def THERM_STAT_TRIP : Fld := ⟨0x050, 1, 1, .ro, 0x0⟩
/-- THERM_STAT [0] WARN (R389). -/
def THERM_STAT_WARN : Fld := ⟨0x050, 0, 1, .ro, 0x0⟩
/-- PINMUX_FN [31] EN (R406). -/
def PINMUX_FN_EN : Fld := ⟨0x040, 31, 1, .rw, 0x0⟩
/-- PINMUX_FN [23:16] WIDTH (R406). -/
def PINMUX_FN_WIDTH : Fld := ⟨0x040, 16, 8, .rw, 0x10⟩
/-- PINMUX_FN [12] LEVEL (R406). -/
def PINMUX_FN_LEVEL : Fld := ⟨0x040, 12, 1, .rw, 0x0⟩
/-- PINMUX_FN [11:8] SEL (R406). -/
def PINMUX_FN_SEL : Fld := ⟨0x040, 8, 4, .rw, 0x0⟩
/-- PINMUX_FN [2:0] BALL (R406). -/
def PINMUX_FN_BALL : Fld := ⟨0x040, 0, 3, .rw, 0x0⟩
/-- PINMUX_IN [7:0] LEVEL (R406). -/
def PINMUX_IN : Fld := ⟨0x060, 0, 8, .ro, 0x0⟩
/-- MSI-X message address, low (R349, R361; log 16). -/
def MSIX_ADDR_LO : Fld := ⟨0x800, 0, 32, .rw, 0⟩
/-- MSI-X message address, high (R349, R361; log 16). -/
def MSIX_ADDR_HI : Fld := ⟨0x804, 0, 32, .rw, 0⟩
/-- MSI-X message data (R349, R361; log 16). -/
def MSIX_DATA : Fld := ⟨0x808, 0, 32, .rw, 0⟩
/-- MSI-X vector mask bit (R349, R361; log 16). -/
def MSIX_MASK : Fld := ⟨0x80C, 0, 1, .rw, 1⟩
/-- MSI-X pending bits (R349, R361; log 16). -/
def MSIX_PBA : Fld := ⟨0xC00, 0, 32, .ro, 0⟩
/-- SYS_CONFLICT_LO VALID (R54). -/
def SYS_CONFLICT_LO_VALID : Fld := ⟨0x110, 31, 1, .ro, 0⟩
/-- SYS_CONFLICT_LO BIT (R54). -/
def SYS_CONFLICT_LO_BIT : Fld := ⟨0x110, 20, 5, .ro, 0⟩
/-- SYS_CONFLICT_LO WORD (R54). -/
def SYS_CONFLICT_LO_WORD : Fld := ⟨0x110, 10, 10, .ro, 0⟩
/-- SYS_CONFLICT_LO PAGE (R54). -/
def SYS_CONFLICT_LO_PAGE : Fld := ⟨0x110, 0, 10, .ro, 0⟩
/-- SYS_CONFLICT_HI VALID (R54). -/
def SYS_CONFLICT_HI_VALID : Fld := ⟨0x114, 31, 1, .ro, 0⟩
/-- SYS_CONFLICT_HI BIT (R54). -/
def SYS_CONFLICT_HI_BIT : Fld := ⟨0x114, 20, 5, .ro, 0⟩
/-- SYS_CONFLICT_HI WORD (R54). -/
def SYS_CONFLICT_HI_WORD : Fld := ⟨0x114, 10, 10, .ro, 0⟩
/-- SYS_CONFLICT_HI PAGE (R54). -/
def SYS_CONFLICT_HI_PAGE : Fld := ⟨0x114, 0, 10, .ro, 0⟩

end R

open R in
/-- The header registers of every implemented page. -/
def hdrFields : List (Fld × Nat × Nat) :=
  [(PG_ID_TYPE, 1, 0), (PG_ID_INST, 1, 0), (PG_ID_VER, 1, 0), (PG_CTRL_FENCE_REL, 1, 0), (PG_CTRL_SRST, 1, 0), (PG_CTRL_EN, 1, 0), (PG_STAT_BLOCK, 1, 0), (PG_STAT_SRST_BUSY, 1, 0), (PG_STAT_FENCED, 1, 0), (PG_STAT_RUN, 1, 0), (PG_FENCE_COUNT, 1, 0), (PG_FENCE_REASON, 1, 0), (PG_FENCE_FENCED, 1, 0), (PG_IRQ_RAW, 1, 0), (PG_IRQ_EN, 1, 0), (PG_IRQ_PEND, 1, 0), (PG_ERR_CNT, 1, 0), (PG_ERR_ADDR_LO, 1, 0), (PG_ERR_ADDR_HI, 1, 0), (PG_ERR_INFO_SRC, 1, 0), (PG_ERR_INFO_DIR, 1, 0), (PG_ERR_INFO_CODE, 1, 0), (PG_SHADOW_GEN, 1, 0), (PG_SHADOW_IMMEDIATE, 1, 0), (PG_SHADOW_COMMIT, 1, 0), (PG_GEN_PENDING, 1, 0), (PG_GEN_PEND_GEN, 1, 0), (PG_GEN_APPL_GEN, 1, 0), (PG_LOCK_LOCKED, 1, 0)]

open R in
/-- The block registers of SYS pages: field, how many registers of its kind, and their distance. -/
def sysFields : List (Fld × Nat × Nat) :=
  [(SYS_VIOL_CNT, 1, 0), (SYS_VIOL_ADDR, 1, 0), (SYS_VIOL_INFO_BAR2, 1, 0), (SYS_VIOL_INFO_WRITE, 1, 0), (SYS_VIOL_INFO_KIND, 1, 0), (SYS_VIOL_CTRL_CCLR, 1, 0), (SYS_VIOL_CTRL_VCLR, 1, 0), (SYS_STRAP_DIFF, 1, 0), (SYS_STRAP_PAIR_EN_L, 1, 0), (SYS_STRAP_HOME_L, 1, 0), (SYS_STRAP_UNIT_ID_L, 1, 0), (SYS_STRAP_PAIR_EN, 1, 0), (SYS_STRAP_HOME, 1, 0), (SYS_STRAP_UNIT_ID, 1, 0), (SYS_RCAUSE_WARM, 1, 0), (SYS_RCAUSE_COLD, 1, 0), (SYS_WRST, 1, 0), (SYS_WRST_CNT, 1, 0), (SYS_CONFLICT_LO_VALID, 1, 0), (SYS_CONFLICT_LO_BIT, 1, 0), (SYS_CONFLICT_LO_WORD, 1, 0), (SYS_CONFLICT_LO_PAGE, 1, 0), (SYS_CONFLICT_HI_VALID, 1, 0), (SYS_CONFLICT_HI_BIT, 1, 0)] ++
  [(SYS_CONFLICT_HI_WORD, 1, 0), (SYS_CONFLICT_HI_PAGE, 1, 0)]

open R in
/-- The block registers of ENC pages: field, how many registers of its kind, and their distance. -/
def encFields : List (Fld × Nat × Nat) :=
  [(ENC_CTRL_KEY_INT, 1, 0), (ENC_CTRL_FORCE_KEY, 1, 0), (ENC_BIND_IN_EN, 1, 0), (ENC_BIND_IN_CH, 1, 0), (ENC_BIND_OUT_EN, 1, 0), (ENC_BIND_OUT_CH, 1, 0), (ENC_IN_LO, 1, 0), (ENC_IN_HI, 1, 0), (ENC_OUT_LO, 1, 0), (ENC_OUT_HI, 1, 0), (ENC_REC_CNT, 1, 0), (ENC_ESC_CNT, 1, 0), (ENC_KEY_CNT, 1, 0), (ENC_CHK_CNT, 1, 0), (ENC_ORD_CNT, 1, 0)]

open R in
/-- The block registers of DEC pages: field, how many registers of its kind, and their distance. -/
def decFields : List (Fld × Nat × Nat) :=
  [(DEC_AHEAD, 1, 0), (DEC_LINE, 1, 0), (DEC_REC_CNT, 1, 0), (DEC_CHK_CNT, 1, 0), (DEC_FMT_CNT, 1, 0), (DEC_POISON_CNT, 1, 0), (DEC_CTXL_CNT, 1, 0), (DEC_CTX_LIVE_VALID, 1, 0), (DEC_CTX_BASE_VALID, 1, 0), (DEC_BYTES_LO, 1, 0), (DEC_BYTES_HI, 1, 0)]

open R in
/-- The block registers of PIPE pages: field, how many registers of its kind, and their distance. -/
def pipeFields : List (Fld × Nat × Nat) :=
  [(PIPE_CTRL_HIST_EN, 1, 0), (PIPE_CTRL_FALLBACK, 1, 0), (PIPE_CTRL_SUB_EN, 1, 0), (PIPE_CTRL_HOLD, 1, 0), (PIPE_CTRL_UPS, 1, 0), (PIPE_WAVE_LVL_CAP, 1, 0), (PIPE_WAVE_BASE_V, 1, 0), (PIPE_STITCH_WIDTH, 1, 0), (PIPE_STITCH_START, 1, 0), (PIPE_SWAP_GO, 1, 0), (PIPE_SWAP_WHEN, 1, 0), (PIPE_SWAP_TABLES, 1, 0), (PIPE_SWAP_LINE, 1, 0), (PIPE_COPY, 1, 0), (PIPE_TSTAT_LATE, 1, 0), (PIPE_TSTAT_COPY_BUSY, 1, 0), (PIPE_TSTAT_ARMED, 1, 0), (PIPE_TSTAT_ACTIVE, 1, 0), (PIPE_LINE, 1, 0), (PIPE_UNDR_CNT, 1, 0), (PIPE_SEGBLK_CNT, 1, 0), (PIPE_HOLD_CNT, 1, 0), (PIPE_SUB_CNT, 1, 0), (PIPE_SUBLOST_CNT, 1, 0)] ++
  [(PIPE_FALLBK_CNT, 1, 0)]

open R in
/-- The block registers of HEADC pages: field, how many registers of its kind, and their distance. -/
def headcFields : List (Fld × Nat × Nat) :=
  [(HEADC_FIRE, 1, 0), (HEADC_TEMP_LIMIT, 1, 0), (HEADC_TEMP_WARN, 1, 0), (HEADC_THYST, 1, 0), (HEADC_TLM, 1, 0), (HEADC_CLAIM, 1, 0), (HEADC_CAP, 4, 4), (HEADC_FEN, 4, 4)]

open R in
/-- The block registers of HEAD pages: field, how many registers of its kind, and their distance. -/
def headFields : List (Fld × Nat × Nat) :=
  [(HEAD_CTRL, 1, 0), (HEAD_DLY, 1, 0), (HEAD_ROWB_LINES, 1, 0), (HEAD_ROWB_FRAC, 1, 0), (HEAD_STAT_ACC_CLAIM, 1, 0), (HEAD_STAT_SUPPLY, 1, 0), (HEAD_STAT_RFLAGS, 1, 0), (HEAD_STAT_HOT, 1, 0), (HEAD_STAT_CAP, 1, 0), (HEAD_STAT_TLM_OK, 1, 0), (HEAD_TEMP, 1, 0), (HEAD_TLM_SEQ, 1, 0), (HEAD_SENT, 1, 0), (HEAD_DIGEST, 1, 0), (HEAD_CAP_LINE, 1, 0), (HEAD_FENCE_LINE, 1, 0), (HEAD_LATE_CNT, 1, 0), (HEAD_TLM_CNT, 1, 0), (HEAD_TLM_BAD_CNT, 1, 0), (HEAD_HCHG_CNT, 1, 0), (HEAD_HEALTH, 192, 4)]

open R in
/-- The block registers of POS pages: field, how many registers of its kind, and their distance. -/
def posFields : List (Fld × Nat × Nat) :=
  [(POS_CTRL_FILT, 1, 0), (POS_CTRL_IDX_EN, 1, 0), (POS_CTRL_INV, 1, 0), (POS_CNT, 1, 0), (POS_HYST, 1, 0), (POS_STILL_TO, 1, 0), (POS_SPD_CFG, 1, 0), (POS_SPEED, 1, 0), (POS_EDGE_T, 1, 0), (POS_TURN, 1, 0), (POS_QERR_CNT, 1, 0), (POS_IDX_LAT, 1, 0), (POS_IDX_PREV, 1, 0), (POS_IDX_NOM, 1, 0), (POS_IDX_TOL, 1, 0), (POS_IDX_STAT_DRIFT, 1, 0), (POS_IDX_STAT_CHECKED, 1, 0), (POS_IDX_STAT_LAST_DIR, 1, 0), (POS_DRIFT_CNT, 1, 0), (POS_CMP0, 1, 0), (POS_CMP1, 1, 0), (POS_CMP_CTRL, 1, 0), (POS_CMP_STAT_ARMED1, 1, 0), (POS_CMP_STAT_BEHIND1, 1, 0)] ++
  [(POS_CMP_STAT_FIRED1, 1, 0), (POS_CMP_STAT_DIR1, 1, 0), (POS_CMP_STAT_DIR0, 1, 0), (POS_CMP_STAT_FIRED0, 1, 0), (POS_CMP_STAT_BEHIND0, 1, 0), (POS_CMP_STAT_ARMED0, 1, 0), (POS_CMP_T0, 1, 0), (POS_CMP_T1, 1, 0), (POS_SER_CFG_PER, 1, 0), (POS_SER_CFG_DIV, 1, 0), (POS_SER_LIM, 1, 0), (POS_SER_CRC_CNT, 1, 0), (POS_SER_TO_CNT, 1, 0), (POS_SER_ERR_CNT, 1, 0)]

open R in
/-- The block registers of LINE pages: field, how many registers of its kind, and their distance. -/
def lineFields : List (Fld × Nat × Nat) :=
  [(LINE_CTRL_FAILOVER, 1, 0), (LINE_CTRL_STR_EN, 1, 0), (LINE_CTRL_SRC, 1, 0), (LINE_PITCH, 1, 0), (LINE_ORG_LO, 1, 0), (LINE_ORG_HI, 1, 0), (LINE_SEQ0, 1, 0), (LINE_SEQ, 1, 0), (LINE_NEXT_LO, 1, 0), (LINE_NEXT_HI, 1, 0), (LINE_Y_LO, 1, 0), (LINE_Y_HI, 1, 0), (LINE_BACK, 1, 0), (LINE_OWED, 1, 0), (LINE_PERIOD, 1, 0), (LINE_OVSP_CNT, 1, 0), (LINE_ADJ, 1, 0), (LINE_ADJ_CTRL_GO, 1, 0), (LINE_ADJ_CTRL_WHEN, 1, 0), (LINE_ADJ_CTRL_LATE, 1, 0), (LINE_ADJ_CTRL_ARMED, 1, 0), (LINE_ADJ_LINE, 1, 0), (LINE_STR_NOM, 1, 0), (LINE_STR_CFG_WEXP, 1, 0)] ++
  [(LINE_STR_CFG_K, 1, 0), (LINE_STR_LIM, 1, 0), (LINE_GAIN, 1, 0), (LINE_STR_MEAS, 1, 0), (LINE_STR_CLIP_CNT, 1, 0)]

open R in
/-- The block registers of DMAC pages: field, how many registers of its kind, and their distance. -/
def dmacFields : List (Fld × Nat × Nat) :=
  [(DMAC_CTRL, 1, 0), (DMAC_JDB, 1, 0), (DMAC_HALT0, 1, 0), (DMAC_HALT1, 1, 0), (DMAC_JREC_BASE_LO, 1, 0), (DMAC_JREC_BASE_HI, 1, 0), (DMAC_JREC_CFG_EN, 1, 0), (DMAC_JREC_CFG_LOG2, 1, 0), (DMAC_JREC_WR, 1, 0), (DMAC_JREC_RD, 1, 0), (DMAC_JREC_LOST, 1, 0), (DMAC_JHEAD_LO, 8, 64), (DMAC_JHEAD_HI, 8, 64), (DMAC_JCUR_LO, 8, 64), (DMAC_JCUR_HI, 8, 64), (DMAC_JSTAT_LATE, 8, 64), (DMAC_JSTAT_JERR, 8, 64), (DMAC_JSTAT_IDLE, 8, 64), (DMAC_JSTAT_PARKED, 8, 64), (DMAC_JID, 8, 64), (DMAC_JQ, 8, 64), (DMAC_IDLE_CNT, 8, 64), (DMAC_RBASE_LO, 8, 64), (DMAC_RBASE_HI, 8, 64)] ++
  [(DMAC_RCFG, 8, 64), (DMAC_WPOS_LO, 8, 64), (DMAC_WPOS_HI, 8, 64), (DMAC_RPOS_LO, 8, 64), (DMAC_RPOS_HI, 8, 64)]

open R in
/-- The block registers of DMA pages: field, how many registers of its kind, and their distance. -/
def dmaFields : List (Fld × Nat × Nat) :=
  [(DMA_CTRL, 1, 0), (DMA_PACE_HI, 1, 0), (DMA_PACE_LO, 1, 0), (DMA_HEAD_LO, 1, 0), (DMA_HEAD_HI, 1, 0), (DMA_CUR_LO, 1, 0), (DMA_CUR_HI, 1, 0), (DMA_DB, 1, 0), (DMA_CMD_ABORT, 1, 0), (DMA_CMD_RESUME, 1, 0), (DMA_STAT_STAGE, 1, 0), (DMA_STAT_DB_PEND, 1, 0), (DMA_STAT_REQ, 1, 0), (DMA_STAT_STATE, 1, 0), (DMA_BIND_DST_EP, 1, 0), (DMA_BIND_SRC_EP, 1, 0), (DMA_XFER_LO, 1, 0), (DMA_XFER_HI, 1, 0), (DMA_DONE_CNT, 1, 0), (DMA_DB_CNT, 1, 0), (DMA_DISC_CNT, 1, 0)]

open R in
/-- The block registers of FEEDC pages: field, how many registers of its kind, and their distance. -/
def feedcFields : List (Fld × Nat × Nat) :=
  [(FEEDC_LINK, 1, 0), (FEEDC_CRING_BASE_LO, 1, 0), (FEEDC_CRING_BASE_HI, 1, 0), (FEEDC_CRING_CFG_EN, 1, 0), (FEEDC_CRING_CFG_LOG2, 1, 0), (FEEDC_CRING_WR, 1, 0), (FEEDC_CRING_RD, 1, 0), (FEEDC_CRING_LOST, 1, 0)]

open R in
/-- The block registers of FEED pages: field, how many registers of its kind, and their distance. -/
def feedFields : List (Fld × Nat × Nat) :=
  [(FEED_GRP_LEAD, 1, 0), (FEED_GRP_BAR, 1, 0), (FEED_BIND_EN, 1, 0), (FEED_BIND_CH, 1, 0), (FEED_MAC_LO, 1, 0), (FEED_MAC_HI, 1, 0), (FEED_MCAST_LO, 1, 0), (FEED_MCAST_HI_EN, 1, 0), (FEED_MCAST_HI_MAC, 1, 0), (FEED_PEER_LO, 1, 0), (FEED_PEER_HI, 1, 0), (FEED_MAXLEN, 1, 0), (FEED_FLOW_PQ, 1, 0), (FEED_FLOW_XOFF, 1, 0), (FEED_FLOW_XON, 1, 0), (FEED_ACK_ACK_INT, 1, 0), (FEED_ACK_ACK_TO, 1, 0), (FEED_GAP, 1, 0), (FEED_WIN, 1, 0), (FEED_EXP_BASE, 1, 0), (FEED_EXP_LIVE, 1, 0), (FEED_RX_FRM, 1, 0), (FEED_RX_BYTES_LO, 1, 0), (FEED_RX_BYTES_HI, 1, 0)] ++
  [(FEED_REC_CNT, 1, 0), (FEED_DROP_FCS, 1, 0), (FEED_DROP_ADDR, 1, 0), (FEED_DROP_NRDY, 1, 0), (FEED_DROP_FMT, 1, 0), (FEED_DROP_CHK, 1, 0), (FEED_DROP_DUP, 1, 0), (FEED_DROP_WIN, 1, 0), (FEED_EVICT_CNT, 1, 0), (FEED_NAK_CNT, 1, 0), (FEED_PAUSE_TX, 1, 0), (FEED_PAUSE_RX, 1, 0)]

open R in
/-- The block registers of PROF pages: field, how many registers of its kind, and their distance. -/
def profFields : List (Fld × Nat × Nat) :=
  [(PROF_CTRL, 1, 0), (PROF_CMD_GO, 1, 0), (PROF_CMD_RELOAD, 1, 0), (PROF_CMD_P, 1, 0), (PROF_VALID_BUSY, 1, 0), (PROF_VALID_VALID, 1, 0), (PROF_STAT_DONE, 1, 0), (PROF_STAT_NVAL, 1, 0), (PROF_STAT_NP, 1, 0), (PROF_STAT_CVAL, 1, 0), (PROF_STAT_CP, 1, 0), (PROF_ARM_LINE, 1, 0), (PROF_NEXT_LINE, 1, 0), (PROF_BARP_SET, 1, 0), (PROF_BARP_SLOT, 1, 0), (PROF_SEL_CNT, 1, 0), (PROF_REJ_CNT, 1, 0), (PROF_REPL_CNT, 1, 0)]

open R in
/-- The block registers of BREATH pages: field, how many registers of its kind, and their distance. -/
def breathFields : List (Fld × Nat × Nat) :=
  [(BREATH_CFG_CMP_EN, 1, 0), (BREATH_CFG_CMP, 1, 0), (BREATH_PER, 1, 0), (BREATH_MAX, 1, 0), (BREATH_MIN, 1, 0), (BREATH_DEPTH_FULL, 1, 0), (BREATH_DEPTH_EMPTY, 1, 0), (BREATH_RISE, 1, 0), (BREATH_SW, 1, 0), (BREATH_SCALE, 1, 0), (BREATH_WARN, 1, 0), (BREATH_CEIL_SRC, 1, 0), (BREATH_CEIL_CEIL, 1, 0), (BREATH_TARGET, 1, 0), (BREATH_PWM, 1, 0), (BREATH_PEER_VALID, 1, 0), (BREATH_PEER_CEIL, 1, 0), (BREATH_UNDR_CNT, 1, 0), (BREATH_AHEAD_INCL, 8, 4), (BREATH_AHEAD_A, 8, 4)]

open R in
/-- The block registers of PAIR pages: field, how many registers of its kind, and their distance. -/
def pairFields : List (Fld × Nat × Nat) :=
  [(PAIR_CTRL_SOLO, 1, 0), (PAIR_CTRL_AUTORET, 1, 0), (PAIR_CMD_RESUME, 1, 0), (PAIR_CMD_GIVEUP, 1, 0), (PAIR_CMD_RECLAIM, 1, 0), (PAIR_STAT_PEER_STATE, 1, 0), (PAIR_STAT_PEER_UNIT, 1, 0), (PAIR_STAT_LEVEL, 1, 0), (PAIR_STAT_LANES, 1, 0), (PAIR_STAT_STATE, 1, 0), (PAIR_CAUSE, 1, 0), (PAIR_LAST_UNCOV, 1, 0), (PAIR_LAST_CODE, 1, 0), (PAIR_LAST_CAUSE, 1, 0), (PAIR_RUN, 1, 0), (PAIR_RUNLEN, 1, 0), (PAIR_HOLD, 1, 0), (PAIR_HOLD_LEFT, 1, 0), (PAIR_WAIT, 1, 0), (PAIR_MARGIN, 1, 0), (PAIR_SKEW_N, 1, 0), (PAIR_SKEW_LIM, 1, 0), (PAIR_TMO, 1, 0), (PAIR_TOFS_LO, 1, 0)] ++
  [(PAIR_TOFS_HI, 1, 0), (PAIR_DELAY, 1, 0), (PAIR_SAFE, 8, 4), (PAIR_SKEW_LAST, 1, 0), (PAIR_MIS_LINE, 1, 0), (PAIR_MIS_INFO_TILES, 1, 0), (PAIR_MIS_INFO_BAR, 1, 0), (PAIR_MIS_INFO_VERDICT, 1, 0), (PAIR_GIVE_CNT, 1, 0), (PAIR_RET_CNT, 1, 0), (PAIR_MIS_CNT, 1, 0), (PAIR_MISS_CNT, 1, 0), (PAIR_LOSS_CNT, 1, 0), (PAIR_LATE_CNT, 1, 0), (PAIR_RETRY_CNT, 1, 0), (PAIR_IGN_CNT, 1, 0), (PAIR_BAD_CNT, 1, 0), (PAIR_DUP_CNT, 1, 0)]

open R in
/-- The block registers of CAMC pages: field, how many registers of its kind, and their distance. -/
def camcFields : List (Fld × Nat × Nat) :=
  [(CAMC_CTRL_DEC, 1, 0), (CAMC_CTRL_REFBAR, 1, 0), (CAMC_CTRL_REG_EN, 1, 0), (CAMC_CTRL_COV_EN, 1, 0), (CAMC_PHASE, 1, 0), (CAMC_DIST, 1, 0), (CAMC_CRING_BASE_LO, 1, 0), (CAMC_CRING_BASE_HI, 1, 0), (CAMC_CRING_CFG, 1, 0), (CAMC_REG_CNT, 1, 0), (CAMC_MISS_CNT, 1, 0), (CAMC_LAST_LC, 1, 0)]

open R in
/-- The block registers of CAM pages: field, how many registers of its kind, and their distance. -/
def camFields : List (Fld × Nat × Nat) :=
  [(CAM_BUS_NB, 1, 0), (CAM_BUS_CRC_EN, 1, 0), (CAM_BUS_EDGE, 1, 0), (CAM_GEOM, 1, 0), (CAM_COLS_REV, 1, 0), (CAM_COLS_K0, 1, 0), (CAM_FRAME, 1, 0), (CAM_FTRIG_WIDTH, 1, 0), (CAM_FTRIG_CMP, 1, 0), (CAM_FTRIG_CMP_EN, 1, 0), (CAM_FTRIG_TRIG_EN, 1, 0), (CAM_FPER, 1, 0), (CAM_LTRIG, 1, 0), (CAM_EXP, 1, 0), (CAM_LDLY, 1, 0), (CAM_LAT_LAT_MAX, 1, 0), (CAM_LAT_LAT_MIN, 1, 0), (CAM_NR_TK, 1, 0), (CAM_NR_SPAT, 1, 0), (CAM_FSEQ, 1, 0), (CAM_FSTAT_LINES, 1, 0), (CAM_FSTAT_LAST, 1, 0), (CAM_BIND_EN, 1, 0), (CAM_BIND_CH, 1, 0)] ++
  [(CAM_FRM_CNT, 1, 0), (CAM_SHORT_CNT, 1, 0), (CAM_LONG_CNT, 1, 0), (CAM_XLINE_CNT, 1, 0), (CAM_LCHK_CNT, 1, 0), (CAM_LBAD_CNT, 1, 0), (CAM_NOSTAMP_CNT, 1, 0), (CAM_TSKIP_CNT, 1, 0), (CAM_SLATE_CNT, 1, 0)]

open R in
/-- The block registers of CHANT pages: field, how many registers of its kind, and their distance. -/
def chantFields : List (Fld × Nat × Nat) :=
  [(CHANT_CTRL_TRIM_EN, 1, 0), (CHANT_CTRL_COL_EN, 1, 0), (CHANT_CTRL_ZONE_EN, 1, 0), (CHANT_CFG_CMP_EN, 1, 0), (CHANT_CFG_CMP, 1, 0), (CHANT_PER, 1, 0), (CHANT_LOOP_KP_C, 1, 0), (CHANT_LOOP_KP_Z, 1, 0), (CHANT_DEAD_DEAD_C, 1, 0), (CHANT_DEAD_DEAD_Z, 1, 0), (CHANT_STEP, 1, 0), (CHANT_DOT, 1, 0), (CHANT_SOLVE_NMIN, 1, 0), (CHANT_SOLVE_PIV, 1, 0), (CHANT_SENS, 8, 4), (CHANT_BMAP_V2, 6, 4), (CHANT_BMAP_BAR2, 6, 4), (CHANT_BMAP_V1, 6, 4), (CHANT_BMAP_BAR1, 6, 4), (CHANT_BMAP_V0, 6, 4), (CHANT_BMAP_BAR0, 6, 4), (CHANT_A0, 1, 0), (CHANT_CAMGEN_CHK, 1, 0), (CHANT_CAMGEN_GEN1, 1, 0)] ++
  [(CHANT_CAMGEN_GEN0, 1, 0), (CHANT_CBASE_LO, 1, 0), (CHANT_CBASE_HI, 1, 0), (CHANT_LEAD, 1, 0), (CHANT_STAT_BUSY, 1, 0), (CHANT_STAT_ZBANK, 1, 0), (CHANT_STAT_CBANK, 1, 0), (CHANT_ZWIN, 1, 0), (CHANT_CWIN, 1, 0), (CHANT_ZOPEN, 1, 0), (CHANT_COPEN, 1, 0), (CHANT_PAIR_CNT, 1, 0), (CHANT_SKIP_CNT, 1, 0), (CHANT_FOVF_CNT, 1, 0), (CHANT_FLUSH_CNT, 1, 0), (CHANT_FRSKIP_CNT, 1, 0), (CHANT_HOLD_CNT, 1, 0), (CHANT_CLIP_CNT, 1, 0), (CHANT_DEFER_CNT, 1, 0), (CHANT_CYCLE, 1, 0), (CHANT_CYC_LINE, 1, 0), (CHANT_BIND_EN, 1, 0), (CHANT_BIND_CH, 1, 0)]

open R in
/-- The block registers of CAL pages: field, how many registers of its kind, and their distance. -/
def calFields : List (Fld × Nat × Nat) :=
  [(CAL_CMD_GO, 1, 0), (CAL_CMD_ABORT, 1, 0), (CAL_CMD_CONT, 1, 0), (CAL_CMD_KIND, 1, 0), (CAL_STAT_BANK, 1, 0), (CAL_STAT_RESULT, 1, 0), (CAL_STAT_STEP, 1, 0), (CAL_STAT_KIND, 1, 0), (CAL_TOL_ABS, 1, 0), (CAL_TOL_REL, 1, 0), (CAL_FRAC, 1, 0), (CAL_WIN, 1, 0), (CAL_FLAT, 1, 0), (CAL_CNT, 5, 4), (CAL_TIME_LO, 1, 0), (CAL_TIME_HI, 1, 0), (CAL_LAST, 1, 0), (CAL_DISAG, 1, 0), (CAL_COMPARED, 1, 0), (CAL_REJ_CNT, 1, 0), (CAL_BIND_IN_EN, 1, 0), (CAL_BIND_IN_CH, 1, 0), (CAL_BIND_OUT_EN, 1, 0), (CAL_BIND_OUT_CH, 1, 0)]

open R in
/-- The block registers of DRAMC pages: field, how many registers of its kind, and their distance. -/
def dramcFields : List (Fld × Nat × Nat) :=
  [(DRAMC_CFG_SPARE, 1, 0), (DRAMC_CFG_MODE, 1, 0), (DRAMC_SIZE_LO, 1, 0), (DRAMC_SIZE_HI, 1, 0), (DRAMC_GEOM_DPC2, 1, 0), (DRAMC_GEOM_S, 1, 0), (DRAMC_GEOM_RANKS, 1, 0), (DRAMC_RT_PAUSE_LINES, 1, 0), (DRAMC_RT_PANIC_LINES, 1, 0), (DRAMC_RH_GAP, 1, 0), (DRAMC_RH_THR, 1, 0), (DRAMC_RH_LAST_TRR, 1, 0), (DRAMC_RH_LAST_BANK, 1, 0), (DRAMC_RH_LAST_RANK, 1, 0), (DRAMC_RH_LAST_CH, 1, 0), (DRAMC_RH_LAST_REQ, 1, 0), (DRAMC_RH_ROW, 1, 0), (DRAMC_THR_CNT, 1, 0), (DRAMC_TRR_CNT, 1, 0), (DRAMC_RETRAIN_EN, 1, 0), (DRAMC_RETRAIN_PER, 1, 0), (DRAMC_FREF_CNT, 1, 0), (DRAMC_PANIC, 1, 0), (DRAMC_PANIC_CNT, 1, 0)]

open R in
/-- The block registers of DRAM pages: field, how many registers of its kind, and their distance. -/
def dramFields : List (Fld × Nat × Nat) :=
  [(DRAM_RMAP_SPV, 1, 0), (DRAM_RMAP_SPR, 1, 0), (DRAM_RMAP_LR, 1, 0), (DRAM_RSTAT, 1, 0), (DRAM_MIG_CMD_GO, 1, 0), (DRAM_MIG_CMD_LR, 1, 0), (DRAM_MIG_PTR_LO, 1, 0), (DRAM_MIG_PTR_HI, 1, 0), (DRAM_MIG_POISON, 1, 0), (DRAM_CORR_CNT, 1, 0), (DRAM_UNC_CNT, 1, 0), (DRAM_POISON_CNT, 1, 0), (DRAM_REP_CNT, 1, 0), (DRAM_REP_LAST, 1, 0), (DRAM_PAR_CFG, 1, 0), (DRAM_PAR_CNT, 1, 0), (DRAM_PAR_FAIL, 1, 0), (DRAM_TRAIN_CNT, 1, 0), (DRAM_TRAIN_FAIL, 1, 0), (DRAM_REP_FLOOR, 1, 0), (DRAM_REP_A, 32, 8), (DRAM_REP_V_VALID, 32, 8), (DRAM_REP_V_COUNT, 32, 8)]

open R in
/-- The block registers of LSTORE pages: field, how many registers of its kind, and their distance. -/
def lstoreFields : List (Fld × Nat × Nat) :=
  [(LSTORE_CORR_CNT, 1, 0), (LSTORE_UNC_CNT, 1, 0), (LSTORE_REP_CNT, 1, 0), (LSTORE_REP_LAST, 1, 0), (LSTORE_APER_UNC, 1, 0), (LSTORE_REP_FLOOR, 1, 0), (LSTORE_REP_A, 32, 8), (LSTORE_REP_V_VALID, 32, 8), (LSTORE_REP_V_COUNT, 32, 8)]

open R in
/-- The block registers of SCRUB pages: field, how many registers of its kind, and their distance. -/
def scrubFields : List (Fld × Nat × Nat) :=
  [(SCRUB_CTRL_GO, 1, 0), (SCRUB_CTRL_STOP, 1, 0), (SCRUB_CTRL_MEM, 1, 0), (SCRUB_START_LO, 1, 0), (SCRUB_START_HI, 1, 0), (SCRUB_LEN_LO, 1, 0), (SCRUB_LEN_HI, 1, 0), (SCRUB_GAP, 1, 0), (SCRUB_STAT_RESULT, 1, 0), (SCRUB_STAT_BUSY, 1, 0), (SCRUB_DONE_LO, 1, 0), (SCRUB_DONE_HI, 1, 0), (SCRUB_CORR, 1, 0), (SCRUB_UNC, 1, 0), (SCRUB_POISON, 1, 0), (SCRUB_FIRST_LO, 1, 0), (SCRUB_FIRST_HI, 1, 0)]

open R in
/-- The block registers of LANE pages: field, how many registers of its kind, and their distance. -/
def laneFields : List (Fld × Nat × Nat) :=
  [(LANE_CTRL_MAINT, 1, 0), (LANE_CTRL_EIDLE, 1, 0), (LANE_CTRL_RX_INV, 1, 0), (LANE_CTRL_TX_INV, 1, 0), (LANE_TXEQ_PRE, 1, 0), (LANE_TXEQ_MAIN, 1, 0), (LANE_TXEQ_POST, 1, 0), (LANE_SAMP_THR, 1, 0), (LANE_SAMP_PHASE, 1, 0), (LANE_CMD_SEARCH, 1, 0), (LANE_CMD_ESCAN, 1, 0), (LANE_CMD_SLIP, 1, 0), (LANE_SYNC_GOOD, 1, 0), (LANE_SYNC_TRIES, 1, 0), (LANE_STAT, 1, 0), (LANE_EIDLE, 1, 0), (LANE_ESCAN_CFG_LIM, 1, 0), (LANE_ESCAN_CFG_DWELL, 1, 0), (LANE_ESCAN_CFG_MODE, 1, 0), (LANE_ESCAN_PT_THR, 1, 0), (LANE_ESCAN_PT_PHASE, 1, 0), (LANE_ESCAN_RES_HEIGHT, 1, 0), (LANE_ESCAN_RES_WIDTH, 1, 0), (LANE_ESCAN_RES_THR, 1, 0)] ++
  [(LANE_ESCAN_RES_PHASE, 1, 0), (LANE_ESCAN_ERR, 1, 0), (LANE_PRBS_GEN, 1, 0), (LANE_PRBS_CHK, 1, 0), (LANE_PRBS_POLY, 1, 0), (LANE_PRBS_STAT, 1, 0), (LANE_PRBS_ERR, 1, 0), (LANE_PRBS_BITS_LO, 1, 0), (LANE_PRBS_BITS_HI, 1, 0), (LANE_BLK_ERR, 1, 0), (LANE_LOCK_CNT, 1, 0), (LANE_EXIT_CNT, 1, 0)]

open R in
/-- The block registers of HOSTIF pages: field, how many registers of its kind, and their distance. -/
def hostifFields : List (Fld × Nat × Nat) :=
  [(HOSTIF_LINK_MSIX_EN, 1, 0), (HOSTIF_LINK_FMASK, 1, 0), (HOSTIF_LINK_BME, 1, 0), (HOSTIF_LINK_UP, 1, 0), (HOSTIF_LINK_WIDTH, 1, 0), (HOSTIF_LINK_SPEED, 1, 0), (HOSTIF_WIN_LO, 1, 0), (HOSTIF_WIN_HI, 1, 0), (HOSTIF_COAL, 1, 0), (HOSTIF_FAULT_SRC, 1, 0), (HOSTIF_FAULT_EN, 1, 0), (HOSTIF_WARN_SRC, 1, 0), (HOSTIF_WARN_EN_EN_2, 1, 0), (HOSTIF_WARN_EN_EN_0, 1, 0), (HOSTIF_SWPIN_WARN, 1, 0), (HOSTIF_SWPIN_FAULT, 1, 0), (HOSTIF_CTO_CNT, 1, 0), (HOSTIF_PEND, 32, 4), (HOSTIF_VMAP_0, 256, 4), (HOSTIF_VMAP_1, 256, 4), (HOSTIF_VMAP_2, 256, 4), (HOSTIF_VMAP_3, 256, 4), (MSIX_ADDR_LO, 64, 16), (MSIX_ADDR_HI, 64, 16)] ++
  [(MSIX_DATA, 64, 16), (MSIX_MASK, 64, 16), (MSIX_PBA, 2, 4)]

open R in
/-- The block registers of TIME pages: field, how many registers of its kind, and their distance. -/
def timeFields : List (Fld × Nat × Nat) :=
  [(TIME_NOW_LO, 1, 0), (TIME_NOW_HI, 1, 0), (TIME_NOW_FRAC, 1, 0), (TIME_INC_FRAC, 1, 0), (TIME_INC_NS, 1, 0), (TIME_SET_LO, 1, 0), (TIME_SET_HI, 1, 0), (TIME_STEP_LO, 1, 0), (TIME_STEP_HI, 1, 0), (TIME_SLEW, 1, 0), (TIME_SLEW_N, 1, 0), (TIME_SLEW_LEFT, 1, 0), (TIME_CMD_SLEW, 1, 0), (TIME_CMD_SNAP, 1, 0), (TIME_CMD_STEP, 1, 0), (TIME_CMD_SET, 1, 0), (TIME_SNAP_CFG_EN, 1, 0), (TIME_SNAP_CFG_VEC, 1, 0), (TIME_SNAP_LO, 1, 0), (TIME_SNAP_HI, 1, 0), (TIME_SNAP_INFO_SEQ, 1, 0), (TIME_SNAP_INFO_SW, 1, 0), (TIME_SNAP_INFO_VEC, 1, 0), (TIME_CMP_LO, 16, 16)] ++
  [(TIME_CMP_HI, 16, 16), (TIME_CMP_CTRL_OWNER, 16, 16), (TIME_CMP_CTRL_SW_EN, 16, 16), (TIME_CMP_CTRL_LATE, 16, 16), (TIME_CMP_CTRL_FIRED, 16, 16), (TIME_CMP_CTRL_ARMED, 16, 16), (TIME_CMP_CTRL_DISARM, 16, 16), (TIME_CMP_T, 16, 16)]

open R in
/-- The block registers of BOOT pages: field, how many registers of its kind, and their distance. -/
def bootFields : List (Fld × Nat × Nat) :=
  [(BOOT_STAT_WARM, 1, 0), (BOOT_STAT_RETRYING, 1, 0), (BOOT_STAT_DONE, 1, 0), (BOOT_STAT_READY, 1, 0), (BOOT_STEP_0, 1, 0), (BOOT_STEP_1, 1, 0), (BOOT_STEP_2, 1, 0), (BOOT_STEP_3, 1, 0), (BOOT_STEP_4, 1, 0), (BOOT_STEP_5, 1, 0), (BOOT_STEP_6, 1, 0), (BOOT_STEP_7, 1, 0), (BOOT_BACKOFF_MAX, 1, 0), (BOOT_BACKOFF_MIN, 1, 0), (BOOT_CMD, 1, 0), (BOOT_TRY, 8, 4), (BOOT_DONE_T, 8, 4), (BOOT_LFAIL, 5, 4), (BOOT_FLASH_LOG2, 1, 0), (BOOT_FLASH_E64K, 1, 0), (BOOT_FLASH_E4K, 1, 0), (BOOT_FLASH_ADDR4, 1, 0), (BOOT_FL_ADDR, 1, 0), (BOOT_FL_DRAM_LO, 1, 0)] ++
  [(BOOT_FL_DRAM_HI, 1, 0), (BOOT_FL_LEN, 1, 0), (BOOT_FL_CMD_GO, 1, 0), (BOOT_FL_CMD_OP, 1, 0), (BOOT_FL_STAT_RESULT, 1, 0), (BOOT_FL_STAT_BUSY, 1, 0)]

open R in
/-- The block registers of THERM pages: field, how many registers of its kind, and their distance. -/
def thermFields : List (Fld × Nat × Nat) :=
  [(THERM_TEMP, 1, 0), (THERM_MAX, 1, 0), (THERM_LIM_TRIP, 1, 0), (THERM_LIM_WARN, 1, 0), (THERM_CFG_HYST, 1, 0), (THERM_CFG_CEIL, 1, 0), (THERM_STAT_SHUT, 1, 0), (THERM_STAT_TRIP, 1, 0), (THERM_STAT_WARN, 1, 0)]

open R in
/-- The block registers of PINMUX pages: field, how many registers of its kind, and their distance. -/
def pinmuxFields : List (Fld × Nat × Nat) :=
  [(PINMUX_FN_EN, 8, 4), (PINMUX_FN_WIDTH, 8, 4), (PINMUX_FN_LEVEL, 8, 4), (PINMUX_FN_SEL, 8, 4), (PINMUX_FN_BALL, 8, 4), (PINMUX_IN, 1, 0)]

/-- The block registers of a block's pages. -/
def Blk.fields : Blk → List (Fld × Nat × Nat)
  | .sys => sysFields
  | .pinmux => pinmuxFields
  | .therm => thermFields
  | .boot => bootFields
  | .prof => profFields
  | .time => timeFields
  | .pair => pairFields
  | .pos => posFields
  | .line => lineFields
  | .breath => breathFields
  | .hostif => hostifFields
  | .dmac => dmacFields
  | .dma => dmaFields
  | .feedc => feedcFields
  | .feed => feedFields
  | .enc => encFields
  | .dec => decFields
  | .pipe => pipeFields
  | .lstore => lstoreFields
  | .dramc => dramcFields
  | .dram => dramFields
  | .scrub => scrubFields
  | .camc => camcFields
  | .cam => camFields
  | .chant => chantFields
  | .cal => calFields
  | .headc => headcFields
  | .head => headFields
  | .lane => laneFields

end Sys2Proof.Machine
end

