-- ==== Sys2Proof/Machine/State.lean ====
section
/-! DEFINITION. The state of one G880 (R1), as plain data: the registers of its pages, its memories, and the state
each block keeps behind its registers. Every "once per instance" part is a sparse map from the block's number to a
record; an entry that is not listed holds the record's default, which is its reset value (log 3). -/

namespace Sys2Proof.Machine

/-- A sparse map keyed by numbers, in rising key order. -/
abbrev NMap (α : Type) := List (Nat × α)
/-- A sparse map keyed by (page, field number): the stored register fields that differ from their Reset value. -/
abbrev RegMap := List ((Nat × Nat) × Nat)

/-- Why a step stops. The spec answers every access and event without stopping the device (R49, R384), so no
meaning raises one; the constructor stands for the machine-check a model could want. Safe: it is never raised. -/
inductive Fault where
  | machineCheck
  deriving DecidableEq, Repr

/-- Why a command has no meaning. -/
inductive Refusal where
  /-- The command has no meaning yet; raised by its arm of exec. Safe: it stops where the device goes on. -/
  | notModelled (mnemonic : String)
  deriving DecidableEq, Repr

/-- What left the device on one of its links, newest first in `State.outs` (the model's own trace, log 9). -/
inductive Out where
  /-- A tile-line frame on head lane h: its 2,328 bytes of data blocks (R112). -/
  | frame (h : Nat) (bytes : List Byte)
  /-- The START or END block of a frame on head lane h (R111, R112). -/
  | block (h : Nat) (bytes : List Byte)
  /-- A burst of so many TRAIN blocks on head lane h (R111, R334). -/
  | train (h blocks : Nat)
  /-- A FIRE block on head lane h (R117). -/
  | fire (h : Nat) (bytes : List Byte)
  /-- A Crook message of a TYPE (R228). -/
  | crook (typ : Nat) (body : List Byte)
  /-- A feed message sent from port p (R196). -/
  | feed (port : Nat) (bytes : List Byte)
  /-- A PAUSE of so many quanta from port p (R190). -/
  | pause (port : Nat) (quanta : Nat)
  /-- The MSI-X message of a vector: a write of its data to its address (R349). -/
  | msix (v addr data : Nat)
  /-- Bytes written to host memory (R167). -/
  | hostWrite (addr : Nat) (bytes : List Byte)
  /-- A configuration request answered with Configuration Request Retry Status (R347). -/
  | cfgRetry
  /-- Bits shifted out at TDO (R401). -/
  | tdo (bits : List Bool)
  deriving DecidableEq, Repr

/-- A soft reset that waits or runs (R37). -/
structure SrstSt where
  /-- It has started. -/
  running : Bool := false
  /-- Tick of the write, then of the start. -/
  since : Nat := 0
  /-- Its line boundary has come: the block is in reset and SOFT_RESET_START begins it (R37; log 21). -/
  due : Bool := false
  /-- It is the soft reset of a fence release (R48). -/
  release : Bool := false
  /-- Fence causes that arose meanwhile, judged at completion (R384). -/
  causes : List Nat := []
  deriving DecidableEq, Repr

/-- A committed set that has not applied in full (R43, R44, R34). -/
structure CommitSt where
  plain : Bool := false
  prof : Bool := false
  /-- PENDING waits for the profile fields: they differ from the applied copy (R44; log 61). -/
  hold : Bool := false
  /-- Tick of the commit: a boundary event on it comes before (R43). -/
  at_ : Nat := 0
  /-- HEADC and PAIR: bars still to pass a boundary (mask). -/
  bars : Nat := 0
  deriving DecidableEq, Repr

/-- A host write to the table window held behind a copy (R106). -/
structure HeldWrite where
  off : Nat
  value : Nat
  deriving DecidableEq, Repr

/-- An armed table swap (R104). -/
structure ArmedSwap where
  whn : Nat
  tables : Nat
  line : Nat
  /-- Armed from a trim set (R286). -/
  fromTrim : Bool := false
  /-- WHEN 0, deferred behind a copy (R106). -/
  deferred : Bool := false
  deriving DecidableEq, Repr

/-- What stage 1 fixed for the line issued at a boundary (R85): everything HAND_OVER computes from. -/
structure LineWork where
  line : Nat
  q : Nat
  idle : Bool
  blank : Bool
  held : Bool
  jobStart : Bool
  jobId : Nat
  dot : Bool
  fast : Bool
  firstLine : Bool
  lastLine : Bool
  /-- Slot of the line or of its sample line, and of the neighbour sample line of R89: place in the ring, BLANK. -/
  slot : Nat
  blankMask : Nat
  neigh : Option Nat
  neighBlank : Nat
  /-- Segments that no layer gives: drop level 0 (R179). -/
  clear : Nat
  /-- CHECK of the segment lines printed, the slots in the order of R87 (R240). -/
  checks : List (Option Nat)
  ups : Nat
  baseV : Nat
  lvlCap : Nat
  stitchStart : Nat
  stitchWidth : Nat
  fallback : Bool
  subEn : Bool
  histEn : Bool
  active : Nat
  /-- Channels that hold their temperature cap (mask over the bar's sixteen tiles). -/
  caps : Nat
  /-- HEAD_CTRL.WSET, ROWB_LINES and ROWB_FRAC of the sixteen channels. -/
  rows : List (Nat × Nat × Nat)
  /-- Time-base ns of the boundary (R230). -/
  tBnd : Nat
  deriving DecidableEq, Repr

/-- One tile-line handed to a head channel (R85). -/
structure TileLine where
  line : Nat
  q : Nat
  blank : Bool
  held : Bool
  cap : Bool
  jobStart : Bool
  /-- WSET, ROWB_LINES and ROWB_FRAC in force at the line's boundary (R85, R113). -/
  wset : Nat
  rowbLines : Nat
  rowbFrac : Nat
  /-- The line as a job record names it: JOB_ID, q, and whether it is its job's last (R184). -/
  jobId : Nat
  recQ : Nat
  last : Bool
  codes : List Nat
  deriving DecidableEq, Repr

/-- The state behind a PIPE page (R84 to R109). -/
structure PipeSt where
  armed : Option ArmedSwap := none
  /-- Tables being copied and the tick the copy (re)started (R106). -/
  copy : Option (Nat × Nat) := none
  heldWrites : List HeldWrite := []
  work : Option LineWork := none
  /-- PG_STAT.HELD and PG_STAT.UNDR. -/
  held : Bool := false
  undr : Bool := false
  /-- A table or history error: fence at the next boundary, with the address and SRC (R108). -/
  fenceNext : Option (Nat × Nat) := none
  /-- First line of the coverage block in progress, its sums, one per camera column, and its BAD flag (R267). -/
  coverAt : Option Nat := none
  cover : List Nat := []
  coverBad : Bool := false
  /-- Lines of the block that have been added. -/
  coverN : Nat := 0
  /-- An internal fault fences the page at the bar's next boundary, when the line in flight has completed (R17, R381). -/
  fenceDue : Option Nat := none
  deriving DecidableEq, Repr

/-- A frame being sent (R118). -/
structure Sending where
  tl : TileLine
  claim : Nat
  /-- D of R118 at the boundary that sends it. -/
  d : Nat
  /-- Tick of tap 0 of the period the frame is sent in. -/
  tap0 : Nat
  /-- Tick of START. -/
  start : Nat := 0
  ended : Bool := false
  /-- Its FIRE had not begun when the lane fenced: it is not sent (R341). -/
  noFire : Bool := false
  deriving DecidableEq, Repr

/-- The state behind a HEAD page (R116 to R136). -/
structure HeadSt where
  /-- Tile-lines handed over, whose period has not begun. -/
  queue : List TileLine := []
  /-- Frames whose period has begun and whose START is still to be sent, and the frame being sent. -/
  ready : List Sending := []
  cur : Option Sending := none
  /-- Tick of the tap after the previous FIRE. -/
  afterFire : Nat := 0
  /-- Post-FIRE records still to apply: (SEQ, TEMP) (R129). -/
  temps : List (Nat × Int) := []
  /-- TEMPs of unsolicited records, to apply at the next boundary. -/
  unsol : List Int := []
  /-- The last applied TEMP. -/
  applied : Option Int := none
  /-- Cause 0x51 was present at the enable: the channel fences at its next boundary (R48, R131, R133). -/
  judge : Bool := false
  /-- A TEMP applied at this boundary has reached T_limit (R131). -/
  hotNow : Bool := false
  /-- Tick the telemetry timer runs from (R124, R335). -/
  tlmSince : Nat := 0
  /-- The timer waits for the lane to enter UP (R335). -/
  tlmStop : Bool := false
  /-- PG_STAT.SENDING. -/
  sending : Bool := false
  /-- Lines are lost to a fence with this reason until a frame is sent again (R131, R184). -/
  lostCode : Option Nat := none
  /-- A fence with this reason takes the channel at the bar's next boundary, when the line in flight has completed (R17). -/
  fenceDue : Option Nat := none
  deriving DecidableEq, Repr

/-- The state behind a POS page (R138 to R149). -/
structure PosSt where
  a : Bool := false
  b : Bool := false
  z : Bool := false
  dir : Bool := false
  still : Bool := true
  valid : Bool := false
  los : Bool := false
  newDir : Bool := false
  hist : List (Nat × Nat) := []
  lastUpd : Nat := 0
  /-- A reversal was declared since the latest index latch (R142). -/
  revSince : Bool := false
  /-- How many latches were made since reset, up to 2. -/
  latches : Nat := 0
  /-- A compare crossed at the last updates and not yet fired: its time-base ns (R149). -/
  due0 : Option Nat := none
  due1 : Option Nat := none
  /-- Tick and time-base ns at which the running serial transfer started, its sample time (R143). -/
  xfer : Option (Nat × Nat) := none
  /-- When the running transfer started and when the latest start fell due, in time since reset, which a lost PLL does not stop (R144, R383). -/
  xferAt : Nat := 0
  lastStart : Option Nat := none
  fails : Nat := 0
  /-- Net steps since the joiner's latch (R234). -/
  joinSteps : Int := 0
  deriving DecidableEq, Repr

/-- The state behind a LINE page (R150 to R159); Y and NEXT are its registers. -/
structure LineSt where
  due : Bool := false
  tDue : Nat := 0
  /-- The rate limit, in twelfths of a tick (R151). -/
  early : Nat := 0
  hiY : Int := 0
  lastTick : Option Nat := none
  /-- Tap 0 of the line period in progress (R118). -/
  tap0 : Nat := 0
  /-- ACT_SRC: 0 P0, 1 P1, 2 the bar encoder. -/
  src : Nat := 0
  /-- FAILOVER as read at the enable (R150). -/
  failover : Bool := false
  failedOver : Bool := false
  /-- Armed adjustment: (ADJ, WHEN, LINE) (R154). -/
  adj : Option (Int × Nat × Nat) := none
  /-- Stretch windows (R156): count at which the last window closed, or the count at the enable or failover; steps of the bar encoder
  since; the step totals of closes not yet taken; and whether the next close updates nothing. -/
  strBase : Nat := 0
  strE : Int := 0
  strDue : List Int := []
  strSkip : Bool := true
  /-- g to take at a named line (R236). -/
  gainAt : List (Nat × Int) := []
  /-- Loss of its source fenced the page (cause 4, R243). -/
  srcLost : Bool := false
  deriving DecidableEq, Repr

/-- A channel descriptor (R162). -/
structure Desc where
  next : Nat
  dstT : Nat
  srcT : Nat
  irq : Bool
  last : Bool
  src : Nat
  dst : Nat
  len : Nat
  srcRing : Nat
  dstRing : Nat
  deriving DecidableEq, Repr

/-- The state behind a DMA page (R160 to R176). -/
structure DmaSt where
  /-- 0 IDLE, 1 RUN, 2 PARKED, 3 HALTED. -/
  st : Nat := 0
  desc : Option Desc := none
  /-- Bytes taken from the source for this descriptor. -/
  taken : Nat := 0
  /-- Bytes taken and not written to the destination (R170). -/
  staging : List Byte := []
  /-- The bytes of a DRAM unit that was written partly filled and is kept (R167). -/
  kept : List Byte := []
  /-- Bytes written to a live ring beyond WPOS, of a record that has not ended (R172). -/
  ahead : Nat := 0
  /-- Bytes of a tag that has not come whole and the source address of its first byte, and bytes still to take of the item in progress
(R165); they run on from one descriptor to the next. -/
  tag : List Byte := []
  tagAt : Nat := 0
  itemLeft : Nat := 0
  /-- A LAST mark ended the descriptor's work (R166). -/
  lastSeen : Bool := false
  /-- What is still to be read, or to be repeated by RESUME: 0 a burst, 1 the descriptor at DMA_CUR, 2 its control word. -/
  redo : Nat := 0
  dbPend : Bool := false
  /-- The requests of the source and the destination side (R168). -/
  reqS : Bool := false
  reqD : Bool := false
  /-- Tick at which the host read of the next burst was issued (R344). -/
  readAt : Option Nat := none
  deriving DecidableEq, Repr

/-- One item of a source queue: its bytes left and its LAST mark (R165, R166, R168). -/
structure QItem where
  bytes : List Byte
  last : Bool := false
  deriving DecidableEq, Repr

/-- The state behind an ENC page (R62, R71 to R73); context bytes are in the line store (R81). Masks are over
2s + LIVE. -/
structure EncSt where
  ctxValid : Nat := 0
  /-- Previous record of the segment and layer was written with CHKERR. -/
  chkPrev : Nat := 0
  forceKey : Nat := 0
  /-- Bytes ever taken from the input, the place in its staging buffer of the next one (R81; log 102). -/
  taken : Nat := 0
  /-- SLINE of the last KEY record per context. -/
  lastKey : NMap Nat := []
  /-- (SLINE, s) of the previous item per layer: base, live. -/
  ordBase : Option (Nat × Nat) := none
  ordLive : Option (Nat × Nat) := none
  busy : Bool := false
  deriving DecidableEq, Repr

/-- A job of a chain as its engine holds it (R177, R178). -/
structure Job where
  addr : Nat
  next : Nat
  last : Bool
  profEn : Bool
  prof : Nat
  start : Bool
  fast : Bool
  dot : Bool
  maskMode : Bool
  liveEn : Bool
  baseEn : Bool
  irqDone : Bool
  irqStart : Bool
  baseAddr : Nat
  repLines : Nat
  repCount : Nat
  jobId : Nat
  livePos : Nat
  maskAddr : Nat
  maskFixed : Nat
  /-- L_s, and whether the job started late (R180). -/
  first : Nat
  late : Bool := false
  /-- Whether a line of it has been issued, and the q of the last such line. -/
  begun : Bool := false
  lastQ : Nat := 0
  deriving DecidableEq, Repr

/-- An open job-record run (R184). -/
structure Run where
  jobId : Nat
  code : Nat
  tile : Nat
  contPrev : Bool
  firstQ : Nat
  lines : Nat
  firstL : Nat
  segMask : Nat
  deriving DecidableEq, Repr

/-- A job engine (R174, R180, R182, R409). -/
structure JobSt where
  running : Bool := false
  parked : Bool := false
  jerr : Bool := false
  dbPend : Bool := false
  /-- A doorbell's re-read waits for DRAM (R301). -/
  redo : Bool := false
  /-- The parked or failed descriptor to re-read at a doorbell. -/
  tail : Option Nat := none
  /-- It is a failed descriptor that was never taken (R182). -/
  failed : Bool := false
  /-- Jobs fetched and not finished printing, oldest first. -/
  jobs : List Job := []
  /-- The line after the last line of the last job the engine took (R178). -/
  chainEnd : Option Nat := none
  /-- The decoder has started the last line group of the newest job. -/
  lastGroup : Bool := false
  /-- The last line issued was idle, and the job at the line pipeline started late (DMAC_JSTAT). -/
  idleLast : Bool := false
  curLate : Bool := false
  /-- The job at the line pipeline is a true-dot job (DMAC_JID's mode). -/
  curDot : Option Bool := none
  /-- A descriptor address still to be fetched: the chain's head, or NEXT of a job that is not printed. -/
  next : Option Nat := none
  runs : List Run := []
  /-- The last line issued: ℓ, JOB_ID, q, and whether it was its job's last (an idle line has both at 0xFFFF_FFFF). -/
  prev : Option (Nat × Nat × Nat × Bool) := none
  /-- (CODE, TILE) of runs that reached the end of the job before (R184). -/
  carry : List (Nat × Nat) := []
  deriving DecidableEq, Repr

/-- One slot of a lookahead ring (R86): its place, the job sample line it holds, the name in its trailer, its job's first
line, and the last printed line that can need it (R87). -/
structure Slot where
  idx : Nat
  m : Nat
  name : Nat
  first : Nat
  lastUse : Nat
  complete : Nat := 0
  blank : Nat := 0
  /-- CHECK of the printed segment lines, none where no record gives one (R76, R240). -/
  checks : List (Option Nat) := []
  /-- Decoder segment errors of the slot: code and segments (R184). -/
  errs : List (Nat × Nat) := []
  /-- Segments that no layer gives: drop level 0 (R179). -/
  clear : Nat := 0
  /-- Its blank segment lines that PIPE_SEGBLK_CNT has counted (R88). -/
  counted : Nat := 0
  deriving DecidableEq, Repr

/-- A record that a decoder has read ahead into its staging buffer (R81; log 102). -/
structure Staged where
  live : Bool
  /-- First line of its job, its line and its stream position. -/
  first : Nat
  m : Nat
  pos : Nat
  /-- Its LEN, how many bytes of it stand in the buffer, and whether DRAM gave them good. -/
  len : Nat
  n : Nat
  ok : Bool
  deriving DecidableEq, Repr

/-- The state behind a DEC page (R62, R69, R76 to R79, R86). A decoder works line by line (log 28). -/
structure DecSt where
  /-- Valid contexts, a mask over 2s + LIVE. -/
  ctxValid : Nat := 0
  /-- Index, in the engine's list, of the job being decoded, and whether its decoding has begun. -/
  jobIdx : Nat := 0
  started : Bool := false
  /-- Job sample line being decoded, and whether it is open (its mask read, its slot taken). -/
  m : Nat := 0
  opened : Bool := false
  /-- Next base segment (16: all done), live segments still to come, and the line's whole live mask. -/
  baseSeg : Nat := 0
  liveLeft : Nat := 0
  liveAll : Nat := 0
  /-- Stream positions, and whether the rest of a layer is lost (R79). -/
  basePos : Nat := 0
  baseLost : Bool := false
  livePos : Nat := 0
  liveLost : Bool := false
  /-- Decoder errors of a line that is decoded after its boundaries (R80, R184). -/
  passErrs : List (Nat × Nat) := []
  /-- The records, one of a layer, that have been read ahead into the staging buffer (R81). -/
  staged : List Staged := []
  slots : List Slot := []
  nextSlot : Nat := 0
  /-- The ring has been laid out, and for which raster mode: true dot. -/
  laid : Bool := false
  dot : Bool := false
  panic : Bool := false
  /-- Bar line index of the newest complete line (DEC_LINE). -/
  newest : Option Nat := none
  deriving DecidableEq, Repr

/-- A raster record held by a feed group (R194, R198). -/
structure FeedRec where
  rseq : Nat
  seg : Byte
  last : Bool
  live : Bool
  sline : Nat
  check : Nat
  raw : List Byte
  deriving DecidableEq, Repr

/-- A stream of a feed group (R198 to R200). -/
structure StreamSt where
  held : List FeedRec := []
  gapSince : Option Nat := none
  unack : Nat := 0
  unackSince : Option Nat := none
  lastSline : Nat := 0
  deriving DecidableEq, Repr

/-- The state behind a FEED page (R188 to R200). -/
structure PortSt where
  /-- Configuration read at the enable (R197). -/
  lead : Nat := 0
  bar : Nat := 0
  mac : Nat := 0
  mcast : Nat := 0
  mcastEn : Bool := false
  lastSrc : Nat := 0
  pausedUntil : Option Nat := none
  /-- Acknowledgements that wait for a pause to end: (stream key, message) (R190). -/
  waiting : List (Nat × List Byte) := []
  /-- PAUSE is being sent since; tick of the latest. -/
  sending : Option Nat := none
  link : Bool := false
  /-- On a leader: the group's buffer has reached XOFF and has not fallen below XON (R200). -/
  xoff : Bool := false
  base : StreamSt := {}
  live : StreamSt := {}
  deriving DecidableEq, Repr

/-- A profile selection (R208, R210, R211). -/
structure Sel where
  slot : Nat
  line : Nat
  image : List Byte
  done : Nat
  applied : Nat
  deriving DecidableEq, Repr

/-- The state behind the PROF page (R207 to R211). -/
structure ProfSt where
  images : NMap (List Byte) := []
  loaded : Bool := false
  cur : Option Sel := none
  next : Option Sel := none
  /-- Reloads asked for, oldest first: slot, and whether it is selected at the end. -/
  reloads : List (Nat × Bool) := []
  /-- Tick the latest strobe edge was accepted (R209). -/
  stbAt : Option Nat := none
  deriving DecidableEq, Repr

/-- The state behind the BREATH page (R217 to R220). -/
structure BreathSt where
  first : Bool := true
  peerUntil : Nat := 0
  warnUntil : Option Nat := none
  pwmStart : Nat := 0
  limited : Bool := false
  deriving DecidableEq, Repr

/-- A DIGEST as PAIR holds it (R230, R240). -/
structure DigSt where
  bar : Nat
  line : Nat
  ok : Bool
  undr : Bool
  segblk : Bool
  tBnd : Nat
  wsrc : Nat
  digs : List Nat
  /-- Tick it was formed or received. -/
  at_ : Nat
  deriving DecidableEq, Repr

/-- An unacknowledged command message (R231). -/
structure PairCmd where
  mseq : Nat
  typ : Nat
  body : List Byte
  sends : Nat
  lastSent : Nat
  deriving DecidableEq, Repr

/-- The state behind the PAIR page (R223 to R250). -/
structure PairSt where
  mseq : Nat := 0
  seen : List Nat := []
  /-- Numbers received above ACK, ACK, and the tick at which the lowest number above ACK was first missed (log 22). -/
  rx : List Nat := []
  ack : Nat := 0
  gapSince : Option Nat := none
  cmds : List PairCmd := []
  lastRx : Nat := 0
  up : Bool := false
  peerLines : List Nat := []
  everClaim : Bool := false
  /-- Single unit: a line boundary has been issued since reset (R223). -/
  anyLine : Bool := false
  /-- Bars whose channels carry the unit's claim (mask) (R225). -/
  claimBars : Nat := 0
  diverged : Bool := false
  own : List DigSt := []
  peer : List DigSt := []
  runs : NMap Nat := []
  skewRuns : NMap Nat := []
  waitSince : Nat := 0
  holdUntil : Nat := 0
  /-- Hold states (R239): home's last sampled state, the state in force, and changes to come (bar mask / (line, bar, held)). -/
  holdHome : Nat := 0
  holdNow : Nat := 0
  holdAt : List (Nat × Nat × Bool) := []
  /-- TIME exchanges of a join: (TOFS, DELAY), newest first (R234). -/
  tofs : List (Int × Int) := []
  joinTs : Option Nat := none
  /-- TIME exchanges answered since the partner's STATE last read JOIN (log 23). -/
  answered : Nat := 0
  /-- T_s of the join in progress has been reached (R234). -/
  latched : Bool := false
  /-- JOIN has come from the reference: this unit is the joiner (R234). -/
  joiner : Bool := false
  joined : Nat := 0
  joinOk : NMap Nat := []
  /-- Joining failed at a tick; the next attempt follows 1.000 ms later. -/
  joinFailed : Option Nat := none
  /-- On the reference: a LINE page has been enabled since the last JOINDATA (R234 step 4). -/
  joinMore : Bool := false
  /-- Bars that run on the partner, as its DIGESTs show (mask; R236, R247; log 118). -/
  peerBars : Nat := 0
  /-- Tick of the latest TRIM or CAL of the home unit: its CAMC page is enabled then (R238; log 117). -/
  peerCam : Option Nat := none
  /-- A give-up decided and not yet applied at every boundary: bars still to pass. -/
  giving : Nat := 0
  /-- The unit has left CLAIM and not come back to it (R26). -/
  gaveUp : Bool := false
  /-- PAIR_CMD.GIVEUP has set cause 0 (R246). -/
  cause0 : Bool := false
  /-- Main PLL lost (cause 4). -/
  pllLost : Bool := false
  /-- Last boundary of each bar that was a job boundary line. -/
  jobLine : NMap Nat := []
  /-- CHAIN facts of own and partner's latest job boundary per bar: (bar, data). -/
  chainOwn : NMap (List Nat) := []
  chainPeer : NMap (List Nat) := []
  /-- Ticks at which the next HELLO, STATE and TIME fall due (R230). -/
  helloAt : Nat := 0
  stateAt : Nat := 0
  timeAt : Nat := 0
  /-- Trim parts received: (bar, cycle, mask of parts). -/
  trims : List (Nat × Nat × Nat) := []
  deriving DecidableEq, Repr

/-- A captured line that waits for its coverage (R269). -/
structure CapLine where
  lc : Nat
  /-- FSEQ of its frame, its capture slot (R273), and how many pixels it has. -/
  fseq : Nat
  slot : Nat
  pix : Nat
  nb : Nat
  /-- Its frame has closed SHORT: it gives no pairs (R256). -/
  dead : Bool := false
  deriving DecidableEq, Repr

/-- A pair of a column that both ports reach, from port 1, which waits for port 0 to give its own pixel for the block or to pass it by
(R265): block, FSEQ, column, absorbances, coverage of each bar, and what becomes of it: 0 used, or counted as 1 lost to a flush, 2 beyond
4,096 lines, 3 skipped. -/
structure OverPair where
  lc : Nat
  fseq : Nat
  col : Nat
  absb : List Nat
  cov : List Nat
  fate : Nat
  deriving DecidableEq, Repr

/-- An open camera frame (R255, R256, R270). -/
structure Frame where
  fseq : Nat
  gen : Nat
  untrig : Bool
  /-- Lines started, beyond LINES too. -/
  lines : Nat := 0
  bad : Nat := 0
  reg : Nat := 0
  tStart : Nat := 0
  lFirst : Option Nat := none
  lLast : Nat := 0
  first : Bool := true
  /-- Statistics of zone z and band j at 6z + j: N, lowest, highest, sum. -/
  stats : List (Nat × Nat × Nat × Nat) := []
  /-- First and last registered ℓ_c. -/
  lcFirst : Option Nat := none
  lcLast : Nat := 0
  /-- The frame began while a FLAT run of the port waited for one: sums of v per pixel and band, and lines summed (R292). -/
  cal : Bool := false
  vsum : List Nat := []
  vlines : Nat := 0
  deriving DecidableEq, Repr

/-- The state behind a CAM page (R251 to R275). -/
structure CamSt where
  frame : Option Frame := none
  unpaired : List (Nat × Nat × Nat) := []
  trigDue : Bool := false
  stamps : List (Nat × Nat) := []
  trig0Pend : List (Nat × Nat) := []
  trig0Until : Option Nat := none
  trig1Until : Option Nat := none
  waitRecs : List (List Byte) := []
  caps : List CapLine := []
  /-- The next capture slot, and the latest ℓ_c values that gave pairs (R265). -/
  slot : Nat := 0
  regd : List Nat := []
  /-- FSEQ of the latest frame with a registered line, and how many of its registered lines have come (R278). -/
  used : Nat × Nat := (0, 0)
  /-- Port 1: pairs that wait for port 0 (R265). -/
  shared : List OverPair := []
  /-- Address of an uncorrectable byte: the port fences at its next frame close (R273). -/
  fenceNext : Option Nat := none
  deriving DecidableEq, Repr

/-- CAMC's configuration as read at its enable (R272). -/
structure CamcSt where
  dist : Nat := 0
  phase : Nat := 0
  refbar : Nat := 0
  dec : Nat := 2
  base : Nat := 0
  log2 : Nat := 12
  deriving DecidableEq, Repr

/-- One tier of Chanter (R280 to R282). -/
structure TierSt where
  open_ : Bool := false
  bank : Nat := 0
  wOpen : Nat := 0
  wLast : Nat := 0
  win : Nat := 0
  gen : Nat := 0
  /-- The closed bank in solve: bank, W_open, W_last, window number, GEN. -/
  solving : Option (Nat × Nat × Nat × Nat × Nat) := none
  /-- Gain errors of the latest solve: 8 per zone or column (none is HELD), and whether it closed since the last cycle. -/
  e : List (Option Int) := []
  fresh : Bool := false
  /-- A close that waits for the running solve, and the banks that hold zeros (mask) (R280, R281). -/
  closeDue : Bool := false
  clean : Nat := 0
  deriving DecidableEq, Repr

/-- The flush of a port's frame (R279): GEN, SHORT, first and last ℓ_c, whether any line registered. -/
structure FlushSt where
  gen : Nat
  short : Bool
  lcFirst : Option Nat
  lcLast : Nat
  since : Nat
  deriving DecidableEq, Repr

/-- The state behind the CHANT page (R276 to R287). -/
structure ChantSt where
  zone : TierSt := {}
  col : TierSt := {}
  cap : TierSt := {}
  /-- Capture windows wanted (R293). -/
  capturing : Bool := false
  flush : NMap FlushSt := []
  /-- Frames that closed while their port's flush ran, with their ports: their flushes follow (R279). -/
  flushQ : List (Nat × FlushSt) := []
  /-- A trim cycle waits for its compare, and the bars it still has to serve (mask). -/
  cycleDue : Bool := false
  bars : Nat := 0
  /-- The gain errors that the cycle in progress works from; empty for a tier that contributes 0 (R283). -/
  cycZ : List (Option Int) := []
  cycC : List (Option Int) := []
  /-- The partial sums have been set to 0 since the enable (R297). -/
  parts : Bool := false
  /-- Ports whose columns have taken pairs since their last flush (mask). -/
  partsIn : Nat := 0
  fenceNext : Option Nat := none
  deriving DecidableEq, Repr

/-- A running calibration (R291 to R294). -/
structure CalSt where
  kind : Nat := 0
  running : Bool := false
  /-- Entries measured: dark 1, dark 2, flat 1, flat 2 (FLAT), run 1, run 2 (others). -/
  d1 : List Nat := []
  d2 : List Nat := []
  r1 : List Nat := []
  r2 : List Nat := []
  /-- The measured data of the run in progress is complete. -/
  runDone : Bool := false
  /-- FLAT: the flat phase runs. -/
  flat : Bool := false
  /-- Lanes whose scan was abandoned. -/
  abandoned : List Nat := []
  /-- The accepted record that waits for the port's EN to be 0 (R292). -/
  waitInstall : Option (List Byte) := none
  /-- GEN of each port's first frame in a capture (R293). -/
  gens : NMap Nat := []
  deriving DecidableEq, Repr

/-- A repeat table (R311): its entries oldest first, as (place in the table, unit address, count), and the floor F. -/
structure RepTab where
  ents : List (Nat × Nat × Nat) := []
  floor : Nat := 0
  deriving DecidableEq, Repr

/-- A command of the retry buffer (R314): tick, DRAM address, requester (R322), physical rank and offset, and for a write the data and
check symbols it carries. -/
structure RetryCmd where
  at_ : Nat
  addr : Nat
  req : Nat
  rank : Nat
  off : Nat
  data : Option (List Byte × List Nat) := none
  /-- It is a refresh of the rank (R318). -/
  refresh : Bool := false
  deriving DecidableEq, Repr

/-- A DRAM request that waits (R301, R315, R319, R322): its address and requester, the enabled bytes of a write, or of a BAR2 read the
length and how many bytes beyond it read 0. -/
inductive DramReq where
  | write (addr req : Nat) (data : List (Option Byte))
  | read (addr len past : Nat)
  deriving DecidableEq, Repr

/-- A row-disturbance tracker entry (R321): row, count. -/
abbrev Tracker := List (Nat × Nat)

/-- The state behind a DRAM page (R302 to R322). -/
structure DramSt where
  trained : Bool := false
  /-- Migration: logical rank, failing rank, spare rank (R317). -/
  mig : Option (Nat × Nat × Nat) := none
  /-- The first offset that migration poisoned. -/
  migFirst : Option Nat := none
  /-- Commands of the last 128 DRAM clocks, newest first (R314). -/
  retry : List RetryCmd := []
  /-- ALERT_n sampled low at a tick; replays in a row that drew it. -/
  alert : Option Nat := none
  tries : Nat := 0
  /-- A pause in progress: none, 1 recentring of a rank, 2 CA retraining; with the rank. -/
  pause : Option (Nat × Nat) := none
  trackers : NMap Tracker := []
  /-- Throttled (bank key, row, requester) (R322), with the tick of the last activate. -/
  throttled : List (Nat × Nat × Nat × Nat) := []
  rep : RepTab := {}
  /-- Refreshes postponed and the tick of the last due refresh, per rank (R318). -/
  postponed : NMap Nat := []
  lastRef : NMap Nat := []
  hot : Bool := false
  lastRetrain : NMap Nat := []
  /-- Open row per (rank, bank). -/
  openRow : NMap Nat := []
  deriving DecidableEq, Repr

/-- The scrubber (R312). -/
structure ScrubSt where
  busy : Bool := false
  mem : Bool := false
  start : Nat := 0
  len : Nat := 0
  pos : Nat := 0
  lastTick : Nat := 0
  firstSet : Bool := false
  deriving DecidableEq, Repr

/-- What a lane's transmitter sends (R328, R339): electrical idle, the blocks of its block or IDLE, all-zero raw bits, or a raw sequence
with its taps. -/
inductive LaneTx where
  | idle
  | blocks
  | zeros
  | prbs (taps : Nat × Nat)
  deriving DecidableEq, Repr

/-- A running eye scan: MODE and DWELL as they stood at its start, the point of a point scan, and the tick it started (R336). -/
structure Scan where
  mode : Nat
  dwell : Nat
  thr : Int
  phase : Int
  since : Nat
  deriving DecidableEq, Repr

/-- The state behind a LANE page (R328 to R342). -/
structure LaneSt where
  /-- 0 OFF, 1 DOWN, 2 SEARCH, 3 UP, 4 IDLE, 5 EXIT, 6 MAINT. -/
  st : Nat := 0
  cdr : Bool := false
  block : Bool := false
  rxEidle : Bool := false
  slip : Nat := 0
  /-- The run of valid headers at the present position as it last stood (R331), and while lock is held the tick it stood so. -/
  good : Nat := 0
  lockAt : Nat := 0
  /-- Invalid sync headers of the last 64: their ticks and counts (R110). -/
  bad : List (Nat × Nat) := []
  /-- Tick the fast exit started. -/
  exitAt : Nat := 0
  /-- The running search's positions still to visit, and tick of its last slip (R332). -/
  stepsLeft : Nat := 0
  stepAt : Nat := 0
  /-- The scan that runs, and a calibration's scan waits or runs. -/
  scan : Option Scan := none
  calScan : Bool := false
  calRuns : Bool := false
  /-- The data sampler's present phase and threshold offsets (R338). -/
  phase : Int := 0
  thr : Int := 0
  /-- The transmitter is in electrical idle for a lost PLL, a warm reset or a shutdown. -/
  txIdle : Bool := false
  /-- The running search is the boot sequencer's (R368). -/
  bootSearch : Bool := false
  /-- Tick the sampler last stepped, and tick the PRBS checker gained SYNC. -/
  lastStep : Nat := 0
  prbsAt : Nat := 0
  deriving DecidableEq, Repr

/-- The boot sequencer (R368 to R371, R377). -/
structure BootSt where
  /-- Next retry interval in ms and tick the retry falls due, by key: a step, 0x100 + a lane, 0x200 + a channel (R369). -/
  interval : NMap Nat := []
  dueAt : NMap Nat := []
  /-- Steps whose retry attempt runs (mask). -/
  attempt : Nat := 0
  /-- Channels of step DRAM that fail, that train, and that the attempt in progress takes up (masks). -/
  chFail : Nat := 0
  chRun : Nat := 0
  chTry : Nat := 0
  /-- READY has been set since reset. -/
  readyOnce : Bool := false
  /-- Lanes whose search is still to report, by lane number. -/
  searching : List Nat := []
  failLanes : List Nat := []
  board : List Byte := []
  boardOk : Bool := false
  warm : Bool := false
  flash : Option FlashInfo := none
  spd : List SpdInfo := []
  /-- The flash operation in progress: OP, flash address, length and DRAM address (R377). -/
  op : Option (Nat × Nat × Nat × Nat) := none
  /-- Profile reloads asked for before it and not ended. -/
  opAfter : Nat := 0
  deriving DecidableEq, Repr

/-- The state of the host interface behind HOSTIF (R344 to R352). -/
structure HostSt where
  ready : Bool := false
  d3 : Bool := false
  /-- The address words of BAR0 to BAR3 (R345), and the completion timeout of Device Control 2 (R344). -/
  bars : NMap Nat := []
  cto : Nat := 0
  /-- Vectors with a message that waits. -/
  waiting : List Nat := []
  /-- Tick of the latest message per vector. -/
  sentAt : NMap Nat := []
  deriving DecidableEq, Repr

/-- The state of the device. -/
structure State where
  /-- The commands that wait, first in first out. -/
  pending : List Instr
  /-- Ticks since C started at 0 (R19, R354). -/
  tick : Nat
  /-- Time since reset in ticks, which runs on while the tick stands still for a lost PLL (R383). -/
  osc : Nat
  /-- Tap phase φ (R19). -/
  phi : Nat
  /-- The time counter C: nanoseconds modulo 2^64 and fraction (R354). -/
  cNs : Nat
  cFrac : Nat
  /-- TIME_CMD bits that act at the next tick: SET, STEP, SNAP, SLEW (R356). -/
  timeCmd : Nat
  /-- RESET_N is low (R364). -/
  inReset : Bool
  /-- The core runs from the main PLL (R367, SYS PG_STAT.PLL). -/
  pll : Bool
  /-- Pages are held in soft reset until step CLK is first done (R367). -/
  heldReset : Bool
  /-- Writes are ignored for want of the main clock after its loss (R383). -/
  heldClock : Bool
  /-- A warm reset is held pending (R374, R387). -/
  wrstPend : Bool
  /-- Straps as sampled and as the balls show (R366). -/
  straps : Straps
  liveStraps : Straps
  /-- Armed targets of the compare units, with the tick of the arming (R358). -/
  cmpAt : NMap (Nat × Nat)
  /-- Levels at MFIO balls that no function drives (R405; log 5), and ends of the pulses in progress by function. -/
  mfioIn : BitVec 8
  pulses : NMap Nat
  /-- The instruction in force in the TAP (R401). -/
  tap : TapOp
  /-- The data register of the TAP while it is in Shift-DR, the bit at TDO first, and the boundary cells in the order of R401. -/
  tapReg : Option (List Bool)
  cells : List Bool
  /-- Register fields that differ from their Reset value: what a read returns (the shadow of an RWS field). -/
  regs : RegMap
  /-- The pending copies of RWS fields (R42). -/
  pendv : RegMap
  /-- The applied copies of RWS fields. -/
  appl : RegMap
  /-- Read latches, by page and register offset of the partner (R32). -/
  latch : RegMap
  /-- Soft resets that wait or run, by page. -/
  srsts : NMap SrstSt
  /-- Commits that have not applied in full, by page. -/
  commits : NMap CommitSt
  /-- Tick of each page's latest fence: causes of one core cycle give one fence (R384). -/
  fenceAt : NMap Nat
  /-- Causes that a page met while it was fenced: tick, codes, source, address. A release in the same core cycle comes before them (R384). -/
  lateCause : NMap (Nat × List Nat × Nat × Nat)
  /-- The data of the last host read (log 9). -/
  rdata : List Byte
  /-- What left the device, newest first (log 9). -/
  outs : List Out
  /-- The model's own counter that numbers free values (log 13). -/
  fresh : Nat
  /-- Power-on number, which numbers the contents of unwritten memory (log 6). -/
  epoch : Nat
  /-- The line store: bytes written since power-on, and bytes whose stored bits are in error (address, bits) (R57, R308). -/
  lstore : List Host.Cell
  lsErr : NMap Nat
  lsRep : RepTab
  /-- DRAM by physical place: data bytes and check-symbol bytes written since power-on (R302, R303). -/
  dramMem : List Host.Cell
  dramChk : List Host.Cell
  /-- DRAM requests that wait, oldest first. -/
  dramWait : List DramReq
  /-- Doorbells that wait for BAR2 writes: a DMA channel's number, or 64 and a job engine's (R173). -/
  bells : List Nat
  /-- Control messages whose ring entries wait in dramWait: entry address, port, CSEQ (R200). -/
  ackDue : List (Nat × Nat × Nat)
  /-- The boot flash; an unlisted byte reads 0xFF (erased; log 4). -/
  flash : List Host.Cell
  pos : NMap PosSt
  posStarted : Bool
  line : NMap LineSt
  pipe : NMap PipeSt
  head : NMap HeadSt
  dma : NMap DmaSt
  /-- Round-robin place of the DMA arbiter at each DRAM level (R169). -/
  lastDma : NMap Nat
  /-- The decoder port that DRAM served last (R29). -/
  lastDec : Nat
  /-- Source queues by endpoint code, and byte queues of sinks (R161). -/
  queues : NMap (List QItem)
  sinks : NMap (List Byte)
  enc : NMap EncSt
  job : NMap JobSt
  dec : NMap DecSt
  port : NMap PortSt
  prof : ProfSt
  breath : BreathSt
  pair : PairSt
  cam : NMap CamSt
  camc : CamcSt
  chant : ChantSt
  calst : CalSt
  dram : NMap DramSt
  scrub : ScrubSt
  /-- Tick all row-disturbance trackers last cleared (R321). -/
  trackClear : Nat
  lane : NMap LaneSt
  boot : BootSt
  host : HostSt
  deriving DecidableEq, Repr

/-- Straps tied low: a single unit with UNIT_ID 0 (log 3). -/
def Straps.low : Straps := ⟨0, false, false⟩

/-- The device right after the release of RESET_N: every register at its Reset value (an empty map), C at 0, the core on
the oscillator with the pages of R367 held, straps low and memory unwritten (R14, R364 to R367; log 3). -/
def State.reset : State where
  pending := []
  tick := 0
  osc := 0
  phi := 0
  cNs := 0
  cFrac := 0
  timeCmd := 0
  inReset := false
  pll := false
  heldReset := true
  heldClock := false
  wrstPend := false
  straps := Straps.low
  liveStraps := Straps.low
  cmpAt := []
  mfioIn := 0
  pulses := []
  tap := .idcode
  tapReg := none
  cells := []
  regs := []
  pendv := []
  appl := []
  latch := []
  srsts := []
  commits := []
  fenceAt := []
  lateCause := []
  rdata := []
  outs := []
  fresh := 0
  epoch := 0
  lstore := []
  lsErr := []
  lsRep := {}
  dramMem := []
  dramChk := []
  dramWait := []
  bells := []
  ackDue := []
  flash := []
  pos := []
  posStarted := false
  line := []
  pipe := []
  head := []
  dma := []
  lastDma := []
  lastDec := 7
  queues := []
  sinks := []
  enc := []
  job := []
  dec := []
  port := []
  prof := {}
  breath := {}
  pair := {}
  cam := []
  camc := {}
  chant := {}
  calst := {}
  dram := []
  scrub := {}
  trackClear := 0
  lane := []
  boot := {}
  host := {}

end Sys2Proof.Machine
end

