-- ==== Sys2Proof/Machine/Bits.lean ====
section
/-! DEFINITION. Bits, bytes and check values: byte order (R11), signed values, durations in ticks (R18), the CRC-32 of R74
and the other check codes of the wire formats. -/

namespace Sys2Proof.Machine

/-- Bit i of n. -/
def bit (n i : Nat) : Bool := n.testBit i
/-- Bits [lo + w - 1 : lo] of n. -/
def field (n lo w : Nat) : Nat := n / 2 ^ lo % 2 ^ w
/-- 1 for true. -/
def b2n (b : Bool) : Nat := if b then 1 else 0
/-- Bits of a that m does not have. -/
def andNot (a m : Nat) : Nat := a ^^^ (a &&& m)
/-- The signed value of the w-bit n. -/
def sgn (w n : Nat) : Int := if 2 * (n % 2 ^ w) < 2 ^ w then (n % 2 ^ w : Nat) else (n % 2 ^ w : Nat) - (2 ^ w : Nat)
/-- The w-bit pattern of i. -/
def uns (w : Nat) (i : Int) : Nat := (i % (2 ^ w : Nat)).toNat
/-- a ahead of or at b on a wrapping w-bit scale: the signed w-bit difference a - b is not negative. -/
def reached (w a b : Nat) : Bool := decide (0 ≤ sgn w (a + 2 ^ w - b % 2 ^ w))
/-- Signed 32-bit difference a - b of two line indices or counts. -/
def diff32 (a b : Nat) : Int := sgn 32 (a + 2 ^ 32 - b % 2 ^ 32)
/-- Signed 64-bit difference. -/
def diff64 (a b : Nat) : Int := sgn 64 (a + 2 ^ 64 - b % 2 ^ 64)
/-- Clamp i into [lo, hi]. -/
def clampI (lo hi i : Int) : Int := if i < lo then lo else if hi < i then hi else i
/-- How many bits of n below w are 1. -/
def popcount (w n : Nat) : Nat := ((List.range w).filter (bit n ·)).length
/-- The lowest 1 bit of n below w. -/
def lowBit (w n : Nat) : Option Nat := (List.range w).find? (bit n ·)
/-- n with bit i set to b. -/
def setBit (n i : Nat) (b : Bool) : Nat := andNot n (2 ^ i) + if b then 2 ^ i else 0

/-- The little-endian value of bytes (R11). -/
def leNat : List Byte → Nat
  | [] => 0
  | b :: r => b.toNat + 256 * leNat r
/-- The k little-endian bytes of n. -/
def leBytes (k n : Nat) : List Byte := (List.range k).map fun i => BitVec.ofNat 8 (n / 256 ^ i)
/-- The big-endian value of bytes. -/
def beNat (l : List Byte) : Nat := leNat l.reverse
/-- The k big-endian bytes of n. -/
def beBytes (k n : Nat) : List Byte := (leBytes k n).reverse
/-- Byte i of a list, 0 beyond its end. -/
def byteAt (l : List Byte) (i : Nat) : Nat := (l.getD i 0).toNat
/-- The little-endian value of the k bytes at i. -/
def leAt (l : List Byte) (i k : Nat) : Nat := leNat ((l.drop i).take k)
/-- The big-endian value of the k bytes at i. -/
def beAt (l : List Byte) (i k : Nat) : Nat := beNat ((l.drop i).take k)
/-- k zero bytes. -/
def zeros (k : Nat) : List Byte := List.replicate k 0

/-- One byte into a reflected CRC register of polynomial poly. -/
def crcByte (poly r : Nat) (b : Nat) : Nat :=
  (List.range 8).foldl (fun c _ => if c % 2 = 1 then c / 2 ^^^ poly else c / 2) (r ^^^ b)
/-- CRC-32 of R74: reflected polynomial 0xEDB8_8320, start and final exclusive-or 0xFFFF_FFFF. -/
def crc32 (l : List Byte) : Nat := (l.foldl (fun c b => crcByte 0xEDB88320 c b.toNat) 0xFFFFFFFF) ^^^ 0xFFFFFFFF
/-- One bit into a most-significant-first CRC of width w. -/
def crcBit (w poly r : Nat) (b : Bool) : Nat :=
  let r2 := 2 * r % 2 ^ w
  if bit r (w - 1) != b then r2 ^^^ poly else r2
/-- The bits of n, most significant of w first. -/
def bitsMsb (w n : Nat) : List Bool := (List.range w).map fun i => bit n (w - 1 - i)
/-- A most-significant-first CRC over bits. -/
def crcMsb (w poly init : Nat) (l : List Bool) : Nat := l.foldl (crcBit w poly) init

/-- Ticks of so many nanoseconds, rounded up (6.4 ns each; log 8). -/
def nsTicks (ns : Nat) : Nat := (ns * 5 + 31) / 32
/-- Ticks of so many microseconds, rounded up (log 8). -/
def usTicks (us : Nat) : Nat := nsTicks (1000 * us)
/-- Ticks of so many milliseconds. -/
def msTicks (ms : Nat) : Nat := usTicks (1000 * ms)

end Sys2Proof.Machine
end

