-- ==== Sys2Proof/Machine/Ops.lean ====
section
/-! DEFINITION. The named operations over the state: sparse maps, memory cells, the page index (R34), register fields
and their three copies (R12, R42), counters, page status (R37, R38, R47), and the records kept per instance. -/

namespace Sys2Proof.Machine

/-! ### Sparse maps -/

/-- The value listed for k, else d. -/
def NMap.getD {α : Type} : NMap α → Nat → α → α
  | [], _, d => d
  | (j, v) :: r, k, d => if j = k then v else NMap.getD r k d
/-- Whether k is listed. -/
def NMap.has {α : Type} (m : NMap α) (k : Nat) : Bool := m.any fun e => e.1 == k
/-- The map without k. -/
def NMap.del {α : Type} (m : NMap α) (k : Nat) : NMap α := m.filter fun e => e.1 != k
/-- Insert before the first larger key. -/
def NMap.ins {α : Type} : NMap α → Nat → α → NMap α
  | [], k, v => [(k, v)]
  | e :: r, k, v => if k < e.1 then (k, v) :: e :: r else e :: NMap.ins r k v
/-- The map with v at k. -/
def NMap.put {α : Type} (m : NMap α) (k : Nat) (v : α) : NMap α := (m.del k).ins k v

/-- The listed value of a register field. -/
def RegMap.find : RegMap → Nat × Nat → Option Nat
  | [], _ => none
  | (j, v) :: r, k => if j = k then some v else RegMap.find r k
/-- The map without a field. -/
def RegMap.del (m : RegMap) (k : Nat × Nat) : RegMap := m.filter fun e => e.1 != k
/-- Page first, then field number. -/
def keyLt (a b : Nat × Nat) : Bool := a.1 < b.1 || (a.1 == b.1 && a.2 < b.2)
/-- Insert before the first larger key. -/
def RegMap.ins : RegMap → Nat × Nat → Nat → RegMap
  | [], k, v => [(k, v)]
  | e :: r, k, v => if keyLt k e.1 then (k, v) :: e :: r else e :: RegMap.ins r k v
/-- The map with v at k; a value equal to the default d is not listed. -/
def RegMap.put (m : RegMap) (k : Nat × Nat) (v d : Nat) : RegMap := if v = d then m.del k else (m.del k).ins k v
/-- Copy the listed fields of page p whose number satisfies q from one map over another. -/
def RegMap.copyPage (src dst : RegMap) (p p' : Nat) (q : Nat → Bool) : RegMap :=
  (src.filter fun e => e.1.1 == p && q e.1.2).foldr (fun e m => (RegMap.del m (p', e.1.2)).ins (p', e.1.2) e.2)
    (dst.filter fun e => !(e.1.1 == p' && q e.1.2))
/-- The map without the fields of page p whose number does not satisfy keep. -/
def RegMap.dropPage (m : RegMap) (p : Nat) (keep : Nat → Bool) : RegMap :=
  m.filter fun e => e.1.1 != p || keep e.1.2

/-! ### Memory cells -/

/-- The byte listed at an address. -/
def Memory.get : List Host.Cell → Nat → Option Byte
  | [], _ => none
  | (j, v) :: r, a => if j = a then some v else Memory.get r a
/-- Write one byte, keeping addresses strictly rising. -/
def Memory.put : List Host.Cell → Nat → Byte → List Host.Cell
  | [], a, b => [(a, b)]
  | e :: r, a, b =>
    if a < e.1 then (a, b) :: e :: r else if a = e.1 then (a, b) :: r else e :: Memory.put r a b
/-- Take one byte out of the list: the address again reads as what an unlisted one does. -/
def Memory.del (m : List Host.Cell) (a : Nat) : List Host.Cell := m.filter fun e => e.1 != a
/-- The canonical form: addresses strictly rising. -/
def Memory.wf : List Host.Cell → Bool
  | [] => true
  | [_] => true
  | e :: f :: r => e.1 < f.1 && Memory.wf (f :: r)
/-- Write the bytes l from address a. -/
def Memory.puts (m : List Host.Cell) (a : Nat) (l : List Byte) : List Host.Cell :=
  m.filter (fun e => decide (e.1 < a)) ++ l.zipIdx.map (fun x => (a + x.2, x.1)) ++
    m.filter fun e => decide (a + l.length ≤ e.1)
/-- The n bytes listed from address a in cells that begin there or above. -/
def Memory.take : List Host.Cell → Nat → Nat → List (Option Byte)
  | _, _, 0 => []
  | [], a, n + 1 => none :: Memory.take [] (a + 1) n
  | (j, v) :: r, a, n + 1 => if j = a then some v :: Memory.take r (a + 1) n else none :: Memory.take ((j, v) :: r) (a + 1) n
/-- The n bytes listed from address a. -/
def Memory.slice (m : List Host.Cell) (a n : Nat) : List (Option Byte) :=
  Memory.take (m.dropWhile fun e => decide (e.1 < a)) a n

/-! ### The page index (R34) -/

/-- A block's first page. -/
def Blk.first : Blk → Nat
  | .sys => 0x000 | .pinmux => 0x001 | .therm => 0x002 | .boot => 0x003 | .prof => 0x004 | .time => 0x008
  | .pair => 0x00C | .pos => 0x010 | .line => 0x020 | .breath => 0x028 | .hostif => 0x030 | .dmac => 0x038
  | .dma => 0x040 | .feedc => 0x080 | .feed => 0x081 | .enc => 0x0A0 | .dec => 0x0A8 | .pipe => 0x0B0
  | .lstore => 0x0C0 | .dramc => 0x0C8 | .dram => 0x0C9 | .scrub => 0x0D0 | .camc => 0x0E0 | .cam => 0x0E1
  | .chant => 0x0E8 | .cal => 0x0EC | .headc => 0x100 | .head => 0x101 | .lane => 0x200

/-- How many instances a block has. -/
def Blk.count : Blk → Nat
  | .pos => 12 | .line => 8 | .dma => 64 | .feed => 24 | .enc => 8 | .dec => 8 | .pipe => 8 | .dram => 4
  | .cam => 2 | .head => 128 | .lane => 160 | _ => 1

/-- Every block, in page order. -/
def Blk.all : List Blk :=
  [.sys, .pinmux, .therm, .boot, .prof, .time, .pair, .pos, .line, .breath, .hostif, .dmac, .dma, .feedc, .feed,
   .enc, .dec, .pipe, .lstore, .dramc, .dram, .scrub, .camc, .cam, .chant, .cal, .headc, .head, .lane]

/-- The block and instance of a page; none is an unimplemented page (R33). -/
def blkOf (p : Nat) : Option (Blk × Nat) :=
  (Blk.all.find? fun b => b.first ≤ p && p < b.first + b.count).map fun b => (b, p - b.first)

/-- The page numbers of the single pages and of the first of each kind. -/
def pSYS : Nat := 0x000
def pPINMUX : Nat := 0x001
def pTHERM : Nat := 0x002
def pBOOT : Nat := 0x003
def pPROF : Nat := 0x004
def pTIME : Nat := 0x008
def pPAIR : Nat := 0x00C
def pPOS (n : Nat) : Nat := 0x010 + n
def pLINE (b : Nat) : Nat := 0x020 + b
def pBREATH : Nat := 0x028
def pHOSTIF : Nat := 0x030
def pDMAC : Nat := 0x038
def pDMA (c : Nat) : Nat := 0x040 + c
def pFEEDC : Nat := 0x080
def pFEED (n : Nat) : Nat := 0x081 + n
def pENC (b : Nat) : Nat := 0x0A0 + b
def pDEC (b : Nat) : Nat := 0x0A8 + b
def pPIPE (b : Nat) : Nat := 0x0B0 + b
def pLSTORE : Nat := 0x0C0
def pDRAMC : Nat := 0x0C8
def pDRAM (c : Nat) : Nat := 0x0C9 + c
def pSCRUB : Nat := 0x0D0
def pCAMC : Nat := 0x0E0
def pCAM (c : Nat) : Nat := 0x0E1 + c
def pCHANT : Nat := 0x0E8
def pCAL : Nat := 0x0EC
def pHEADC : Nat := 0x100
def pHEAD (h : Nat) : Nat := 0x101 + h
def pLANE (l : Nat) : Nat := 0x200 + l

/-- PG_CTRL.EN is RO on these pages (R34). -/
def enRo (b : Blk) (i : Nat) : Bool :=
  match b with
  | .sys | .pinmux | .therm | .boot | .prof | .hostif => true
  | .lane => 128 ≤ i && i ≤ 131
  | _ => false

/-- The value of PG_CTRL.EN after reset (R34); a page "Set by boot" starts at 0. -/
def enReset (b : Blk) (i : Nat) : Nat :=
  match b with
  | .time | .pos => 1
  | _ => b2n (enRo b i)

/-- "Set by boot" pages (R34). -/
def bootPage (b : Blk) (i : Nat) : Bool :=
  match b with
  | .lstore | .dramc | .dram => true
  | .lane => !(128 ≤ i && i ≤ 131)
  | _ => false

/-- The Reset value of a field on a page (R14): the table's, or the one its page decides (R34, R35, R204, R275, R343). -/
def rst (p : Nat) (f : Fld) : Nat :=
  match blkOf p with
  | none => f.rst
  | some (b, i) =>
    if f.off = 0 then (if f.lo = 16 then b.first + 1 else if f.lo = 8 then i else f.rst)
    else if f.off = 4 then (if f.lo = 0 then enReset b i else f.rst)
    else match b with
      | .feed => if f = R.FEED_GRP_LEAD then i else f.rst
      | .cam => if f = R.CAM_COLS_K0 ∧ i = 1 then 0x5E20 else f.rst
      | .lane =>
        if 128 ≤ i then
          (if f = R.LANE_TXEQ_PRE then 4 else if f = R.LANE_TXEQ_MAIN then 0x30
           else if f = R.LANE_TXEQ_POST then 0xB else f.rst)
        else f.rst
      | _ => f.rst

/-! ### Register fields -/

/-- What a register field holds: the stored value, or the shadow of an RWS field (R12). -/
def State.get (s : State) (p : Nat) (f : Fld) : Nat := (s.regs.find (p, f.id)).getD (rst p f)
/-- Store a field, cut to its width. -/
def State.set (s : State) (p : Nat) (f : Fld) (v : Nat) : State :=
  { s with regs := s.regs.put (p, f.id) (v % 2 ^ f.w) (rst p f) }
/-- A one-bit field as a truth value. -/
def State.flag (s : State) (p : Nat) (f : Fld) : Bool := s.get p f == 1
/-- Store a one-bit field. -/
def State.setFlag (s : State) (p : Nat) (f : Fld) (b : Bool) : State := s.set p f (b2n b)
/-- The applied copy of an RWS field: what the block uses (R42). -/
def State.ap (s : State) (p : Nat) (f : Fld) : Nat := (s.appl.find (p, f.id)).getD (rst p f)
/-- Store the applied copy. -/
def State.setAp (s : State) (p : Nat) (f : Fld) (v : Nat) : State :=
  { s with appl := s.appl.put (p, f.id) (v % 2 ^ f.w) (rst p f) }
/-- The applied copy as a truth value. -/
def State.apFlag (s : State) (p : Nat) (f : Fld) : Bool := s.ap p f == 1
/-- The applied copy of a HEADC field as bar b has it (R34). -/
def State.apBar (s : State) (b : Nat) (f : Fld) : Nat := (s.appl.find (0x400 + b, f.id)).getD f.rst

/-- Change a field by a function of its value. -/
def State.upd (s : State) (p : Nat) (f : Fld) (g : Nat → Nat) : State := s.set p f (g (s.get p f))
/-- Count k in a saturating counter. -/
def State.addSat (s : State) (p : Nat) (f : Fld) (k : Nat) : State := s.set p f (min (s.get p f + k) (2 ^ f.w - 1))
/-- Count one in a saturating counter. -/
def State.incSat (s : State) (p : Nat) (f : Fld) : State := s.addSat p f 1
/-- Count k in a wrapping counter. -/
def State.addWrap (s : State) (p : Nat) (f : Fld) (k : Nat) : State := s.set p f (s.get p f + k)
/-- Count one in a wrapping counter. -/
def State.incWrap (s : State) (p : Nat) (f : Fld) : State := s.addWrap p f 1
/-- A 64-bit value held in a LO and a HI register. -/
def State.get64 (s : State) (p : Nat) (lo hi : Fld) : Nat := s.get p lo * 2 ^ lo.lo + s.get p hi * 2 ^ (lo.lo + lo.w)
/-- Store one. -/
def State.set64 (s : State) (p : Nat) (lo hi : Fld) (v : Nat) : State :=
  (s.set p lo (v / 2 ^ lo.lo)).set p hi (v / 2 ^ (lo.lo + lo.w))
/-- Count k in a 64-bit counter that wraps. -/
def State.add64 (s : State) (p : Nat) (lo hi : Fld) (k : Nat) : State := s.set64 p lo hi (s.get64 p lo hi + k)

/-! ### Page status -/

/-- The pages served before the main clock runs (R367). -/
def servedEarly (p : Nat) : Bool :=
  p == pSYS || p == pPINMUX || p == pTHERM || p == pBOOT || p == pPROF || p == pHOSTIF || p == pTIME
/-- The die shutdown of R387 is in force. -/
def State.shut (s : State) : Bool := s.flag pTHERM R.THERM_STAT_SHUT
/-- The page is held in soft reset: until CLK is first done (R367), or in a shutdown (R387). -/
def State.held (s : State) (p : Nat) : Bool :=
  (s.heldReset && !servedEarly p) ||
  (s.shut && !(p == pSYS || p == pTHERM || p == pHOSTIF || p == pTIME))
/-- PG_STAT.SRST_BUSY: a soft reset waits or runs, or the page is held (R37, R38, R367; log 115). -/
def State.srstBusy (s : State) (p : Nat) : Bool := s.held p || s.srsts.has p
/-- The block itself is in reset: held, or a soft reset has started or is due at this boundary. -/
def State.resetting (s : State) (p : Nat) : Bool :=
  s.held p || (s.srsts.getD p {}).running || (s.srsts.getD p {}).due
/-- PG_FENCE.FENCED. -/
def State.fenced (s : State) (p : Nat) : Bool := s.flag p R.PG_FENCE_FENCED
/-- PG_CTRL.EN. -/
def State.enabled (s : State) (p : Nat) : Bool := s.flag p R.PG_CTRL_EN
/-- The block works: enabled, not fenced and not in soft reset (a soft reset that still waits lets it go on, R37; log 115). -/
def State.working (s : State) (p : Nat) : Bool := s.enabled p && !s.fenced p && !s.resetting p
/-- LINE b runs. -/
def State.lineRuns (s : State) (b : Nat) : Bool := s.working (pLINE b)
/-- The bars whose LINE page runs, as a mask. -/
def State.runningBars (s : State) : Nat :=
  (List.range 8).foldl (fun m b => if s.lineRuns b then m + 2 ^ b else m) 0

/-! ### Per-instance records -/

def State.posAt (s : State) (n : Nat) : PosSt := s.pos.getD n {}
def State.updPos (s : State) (n : Nat) (g : PosSt → PosSt) : State := { s with pos := s.pos.put n (g (s.posAt n)) }
def State.lineAt (s : State) (b : Nat) : LineSt := s.line.getD b {}
def State.updLine (s : State) (b : Nat) (g : LineSt → LineSt) : State := { s with line := s.line.put b (g (s.lineAt b)) }
def State.pipeAt (s : State) (b : Nat) : PipeSt := s.pipe.getD b {}
def State.updPipe (s : State) (b : Nat) (g : PipeSt → PipeSt) : State := { s with pipe := s.pipe.put b (g (s.pipeAt b)) }
def State.headAt (s : State) (h : Nat) : HeadSt := s.head.getD h {}
def State.updHead (s : State) (h : Nat) (g : HeadSt → HeadSt) : State := { s with head := s.head.put h (g (s.headAt h)) }
def State.dmaAt (s : State) (c : Nat) : DmaSt := s.dma.getD c {}
def State.updDma (s : State) (c : Nat) (g : DmaSt → DmaSt) : State := { s with dma := s.dma.put c (g (s.dmaAt c)) }
def State.encAt (s : State) (b : Nat) : EncSt := s.enc.getD b {}
def State.updEnc (s : State) (b : Nat) (g : EncSt → EncSt) : State := { s with enc := s.enc.put b (g (s.encAt b)) }
def State.jobAt (s : State) (b : Nat) : JobSt := s.job.getD b {}
def State.updJob (s : State) (b : Nat) (g : JobSt → JobSt) : State := { s with job := s.job.put b (g (s.jobAt b)) }
def State.decAt (s : State) (b : Nat) : DecSt := s.dec.getD b {}
def State.updDec (s : State) (b : Nat) (g : DecSt → DecSt) : State := { s with dec := s.dec.put b (g (s.decAt b)) }
def State.portAt (s : State) (n : Nat) : PortSt := s.port.getD n {}
def State.updPort (s : State) (n : Nat) (g : PortSt → PortSt) : State := { s with port := s.port.put n (g (s.portAt n)) }
def State.camAt (s : State) (c : Nat) : CamSt := s.cam.getD c {}
def State.updCam (s : State) (c : Nat) (g : CamSt → CamSt) : State := { s with cam := s.cam.put c (g (s.camAt c)) }
def State.dramAt (s : State) (c : Nat) : DramSt := s.dram.getD c {}
def State.updDram (s : State) (c : Nat) (g : DramSt → DramSt) : State := { s with dram := s.dram.put c (g (s.dramAt c)) }
def State.laneAt (s : State) (l : Nat) : LaneSt := s.lane.getD l {}
def State.updLane (s : State) (l : Nat) (g : LaneSt → LaneSt) : State := { s with lane := s.lane.put l (g (s.laneAt l)) }
def State.updPair (s : State) (g : PairSt → PairSt) : State := { s with pair := g s.pair }
def State.updBoot (s : State) (g : BootSt → BootSt) : State := { s with boot := g s.boot }
def State.updHost (s : State) (g : HostSt → HostSt) : State := { s with host := g s.host }

/-- The state t with the registers of page p as s has them. -/
def State.keepPage (s t : State) (p : Nat) : State := { t with regs := RegMap.copyPage s.regs t.regs p p fun _ => true }
/-- Work of a block that goes on while its page is fenced: the page keeps its registers (R48). -/
def State.pageWork (s : State) (p : Nat) (g : State → State) : State := if s.fenced p then s.keepPage (g s) p else g s
/-- Record what left the device (log 9). -/
def State.emit (s : State) (o : Out) : State := { s with outs := o :: s.outs }
/-- Take the next number of a free value (log 13). -/
def State.tickFresh (s : State) : State := { s with fresh := s.fresh + 1 }
/-- Apply an operation for each number of a list in turn. -/
def State.each (s : State) (l : List Nat) (g : State → Nat → State) : State := l.foldl g s
/-- Apply an operation where a condition holds. -/
def State.when (s : State) (c : Bool) (g : State → State) : State := if c then g s else s

end Sys2Proof.Machine
end

