-- ==== Sys2Proof/Machine/Flags.lean ====
section
/-! DEFINITION. The block's flags: interrupt causes and requests (R39, R349, R350), error records (R40), fences as the
header shows them (R47), violations (R49, R50), resource claims and conflicts (R51 to R54), and read latches (R32). The
block has no processor flags; these are what its status bits are computed by. -/

namespace Sys2Proof.Machine

/-! ### Interrupts -/

/-- PG_IRQ_PEND of a page (R39). -/
def State.pend (s : State) (p : Nat) : Nat := s.get p R.PG_IRQ_RAW &&& s.get p R.PG_IRQ_EN
/-- The vector a page's requests go to (R350). -/
def State.vecOf (s : State) (p : Nat) : Nat :=
  let f := match p % 4 with
    | 0 => R.HOSTIF_VMAP_0 | 1 => R.HOSTIF_VMAP_1 | 2 => R.HOSTIF_VMAP_2 | _ => R.HOSTIF_VMAP_3
  s.get pHOSTIF (f.nth 4 (p / 4))
/-- A request to a vector: its message waits, merged with one that waits already (R350). -/
def State.request (s : State) (p : Nat) : State :=
  let v := s.vecOf p
  if s.host.waiting.contains v then s else s.updHost fun h => { h with waiting := h.waiting ++ [v] }
/-- Change the page's interrupt registers, and request when PG_IRQ_PEND goes from zero to non-zero (R39). -/
def State.irqSet (s : State) (p : Nat) (f : Fld) (v : Nat) : State :=
  let t := s.set p f v
  if s.pend p = 0 ∧ t.pend p ≠ 0 then t.request p else t
/-- The registers of the page keep their values: it is fenced (R48). A fenced head channel goes on with its telemetry, a fenced
lane with its receiver (R132, R330, R341). -/
def State.frozen (s : State) (p : Nat) : Bool :=
  s.flag p R.PG_FENCE_FENCED && (match blkOf p with | some (.head, _) | some (.lane, _) => false | _ => true)
/-- Set cause bits in PG_IRQ_RAW (R39). -/
def State.raise (s : State) (p bits : Nat) : State :=
  if s.frozen p then s else s.irqSet p R.PG_IRQ_RAW (s.get p R.PG_IRQ_RAW ||| bits)
/-- Set one cause bit. -/
def State.cause (s : State) (p i : Nat) : State := s.raise p (2 ^ i)

/-! ### Errors -/

/-- Record an error if it is the first since the last clear, and count it (R40). -/
def State.errCount (s : State) (p code src lo hi dir : Nat) : State :=
  let t := if s.get p R.PG_ERR_CNT = 0 then
      ((((s.set p R.PG_ERR_ADDR_LO lo).set p R.PG_ERR_ADDR_HI hi).set p R.PG_ERR_INFO_SRC src).set p
        R.PG_ERR_INFO_DIR dir).set p R.PG_ERR_INFO_CODE code
    else s
  t.incSat p R.PG_ERR_CNT
/-- An error of a page (R40); a fenced page keeps its registers (R48). -/
def State.err (s : State) (p code src lo : Nat) (hi : Nat := 0) (dir : Nat := 0) : State :=
  if s.frozen p then s else (s.errCount p code src lo hi dir).cause p 1
/-- The same with a 64-bit address. -/
def State.err64 (s : State) (p code src addr : Nat) (dir : Nat := 0) : State :=
  s.err p code src addr (addr / 2 ^ 32) dir
/-- Writing 1 to PG_IRQ_RAW.ERR (R40). -/
def State.errClear (s : State) (p : Nat) : State :=
  (((((s.set p R.PG_ERR_CNT 0).set p R.PG_ERR_ADDR_LO 0).set p R.PG_ERR_ADDR_HI 0).set p R.PG_ERR_INFO_SRC 0).set p
    R.PG_ERR_INFO_DIR 0).set p R.PG_ERR_INFO_CODE 0

/-! ### Fences, as the header shows them -/

/-- SYS, PINMUX, THERM, BOOT, PROF, HOSTIF and TIME never fence (R47); nor do the feed ports, the DRAM and line-store
pages and SCRUB (R380), nor the PCI Express lanes (R340). -/
def neverFences (b : Blk) (i : Nat) : Bool :=
  match b with
  | .sys | .pinmux | .therm | .boot | .prof | .hostif | .time | .feed | .dramc | .dram | .lstore | .scrub => true
  | .lane => 128 ≤ i && i < 132
  | _ => false
/-- The codes for which instance i of a block fences, besides an internal fault (R380 to R382). -/
def fenceCode (b : Blk) (i c : Nat) : Bool :=
  match b with
  | .pos => c == 0x40 || (10 ≤ i && (c == 0x41 || c == 0x42))
  | .line => c == 0x20 || c == 0x40
  | .pipe | .cam | .chant | .pair => c == 0x11
  | .head => c == 0x11 || (0x20 ≤ c && c ≤ 0x23) || c == 0x51
  | .lane => c == 0x20 || c == 0x21 || (c == 0x23 && i < 128)
  | _ => false

/-- FENCED, REASON, COUNT and PG_IRQ_RAW.FENCE of a fence (R47). -/
def State.fenceFlags (s : State) (p reason : Nat) : State :=
  (((s.cause p 0).set p R.PG_FENCE_FENCED 1).set p R.PG_FENCE_REASON reason).incSat p R.PG_FENCE_COUNT

/-! ### Violations -/

/-- Count a violation of a kind at an offset of BAR0, or of BAR2 (R49, R50). -/
def State.violate (s : State) (kind addr : Nat) (write : Bool) (bar2 : Bool := false) : State :=
  ((((s.incSat pSYS R.SYS_VIOL_CNT).set pSYS R.SYS_VIOL_ADDR addr).set pSYS R.SYS_VIOL_INFO_KIND kind).set pSYS
    R.SYS_VIOL_INFO_WRITE (b2n write)).set pSYS R.SYS_VIOL_INFO_BAR2 (b2n bar2)

/-! ### Shared resources -/

/-- A resource of R51: an MFIO ball, a compare unit, a camera trigger output, a side of a DMA channel. -/
inductive Res where
  | ball (m : Nat)
  | unit (k : Nat)
  | trig (c k : Nat)
  | dmaSrc (c : Nat)
  | dmaDst (c : Nat)
  deriving DecidableEq, Repr

/-- An enable field that owns: its page, the field, and the resource its register names. -/
structure Owner where
  page : Nat
  en : Fld
  res : Res
  deriving DecidableEq, Repr

/-- The enables marked "owns", with the resource each names now (R51, R82, R204, R222, R275, R298, R299, R362, R406), in
the order of R53. -/
def State.owners (s : State) : List Owner :=
  ((List.range 8).map fun k =>
    ⟨pPINMUX, R.PINMUX_FN_EN.nth 4 k, .ball (s.get pPINMUX (R.PINMUX_FN_BALL.nth 4 k))⟩) ++
  ((List.range 16).map fun k => ⟨pTIME, R.TIME_CMP_CTRL_SW_EN.nth 16 k, .unit k⟩) ++
  [⟨pBREATH, R.BREATH_CFG_CMP_EN, .unit (s.get pBREATH R.BREATH_CFG_CMP)⟩] ++
  ((List.range 24).map fun n => ⟨pFEED n, R.FEED_BIND_EN, .dmaSrc (s.get (pFEED n) R.FEED_BIND_CH)⟩) ++
  ((List.range 8).flatMap fun b =>
    [⟨pENC b, R.ENC_BIND_OUT_EN, .dmaSrc (s.get (pENC b) R.ENC_BIND_OUT_CH)⟩,
     ⟨pENC b, R.ENC_BIND_IN_EN, .dmaDst (s.get (pENC b) R.ENC_BIND_IN_CH)⟩]) ++
  ((List.range 2).flatMap fun c =>
    [⟨pCAM c, R.CAM_FTRIG_TRIG_EN, .trig c 1⟩,
     ⟨pCAM c, R.CAM_FTRIG_CMP_EN, .unit (s.get (pCAM c) R.CAM_FTRIG_CMP)⟩,
     ⟨pCAM c, R.CAM_LTRIG, .trig c 0⟩,
     ⟨pCAM c, R.CAM_BIND_EN, .dmaSrc (s.get (pCAM c) R.CAM_BIND_CH)⟩]) ++
  [⟨pCHANT, R.CHANT_CFG_CMP_EN, .unit (s.get pCHANT R.CHANT_CFG_CMP)⟩,
   ⟨pCHANT, R.CHANT_BIND_EN, .dmaSrc (s.get pCHANT R.CHANT_BIND_CH)⟩,
   ⟨pCAL, R.CAL_BIND_OUT_EN, .dmaSrc (s.get pCAL R.CAL_BIND_OUT_CH)⟩,
   ⟨pCAL, R.CAL_BIND_IN_EN, .dmaDst (s.get pCAL R.CAL_BIND_IN_CH)⟩]

/-- The enabled owner of a resource other than the enable o itself (R52). -/
def State.ownerOf (s : State) (r : Res) (o : Owner) : Option Owner :=
  s.owners.find? fun q => q.res == r && s.flag q.page q.en && !(q.page == o.page && q.en == o.en)

/-- Record a refused enable o against its owner q (R52, R54). -/
def State.conflict (s : State) (o q : Owner) : State :=
  let rec1 := fun (t : State) (v bt wd pg : Fld) (x : Owner) =>
    (((t.set pSYS v 1).set pSYS bt x.en.lo).set pSYS wd (x.en.off / 4)).set pSYS pg x.page
  let t := rec1 s R.SYS_CONFLICT_LO_VALID R.SYS_CONFLICT_LO_BIT R.SYS_CONFLICT_LO_WORD R.SYS_CONFLICT_LO_PAGE o
  let t := rec1 t R.SYS_CONFLICT_HI_VALID R.SYS_CONFLICT_HI_BIT R.SYS_CONFLICT_HI_WORD R.SYS_CONFLICT_HI_PAGE q
  t.err pSYS 0xA0 0 (o.page * 0x1000 + o.en.off)

/-- After a write of register off of page p: refuse every enable in it whose resource another enable owns (R52, R53). -/
def State.settleClaims (s : State) (p off : Nat) : State :=
  (s.owners.filter fun o => o.page == p && o.en.off == off).foldl (fun t o =>
    if t.flag o.page o.en then
      match t.ownerOf o.res o with
      | some q => (t.set o.page o.en 0).conflict o q
      | none => t
    else t) s

/-- TIME_CMP_CTRL.OWNER of unit k (R359). -/
def State.unitOwner (s : State) (k : Nat) : Nat :=
  match s.owners.find? fun o => o.res == .unit k && s.flag o.page o.en with
  | none => 0
  | some o =>
    if o.page = pTIME then 1 else if o.page = pCAM 0 then 2 else if o.page = pCAM 1 then 3
    else if o.page = pCHANT then 4 else 5

/-- The endpoint code of an owner of a DMA side (R161). -/
def endpointCode (o : Owner) : Nat :=
  if o.page = pCHANT then 0x32 else if o.page = pCAL then 0x33
  else if o.page < 0xA0 then o.page - 0x80
  else if o.page < 0xA8 then (if o.en = R.ENC_BIND_IN_EN then 0x20 else 0x28) + (o.page - 0xA0)
  else 0x30 + (o.page - 0xE1)
/-- The source endpoint bound to a channel, 0 for none (R161). -/
def State.srcEp (s : State) (c : Nat) : Nat :=
  ((s.owners.find? fun o => o.res == .dmaSrc c && s.flag o.page o.en).map endpointCode).getD 0
/-- The sink endpoint bound to a channel, 0 for none (R161). -/
def State.dstEp (s : State) (c : Nat) : Nat :=
  ((s.owners.find? fun o => o.res == .dmaDst c && s.flag o.page o.en).map endpointCode).getD 0

/-! ### Read latches -/

/-- Hold the value of partner register off in the read latch of page p (R32). -/
def State.setLatch (s : State) (p off v : Nat) : State := { s with latch := s.latch.put (p, off) v 0 }
/-- What a read of a latched partner returns: 0 until its latching register has been read (R32). -/
def State.latched (s : State) (p off : Nat) : Nat := (s.latch.find (p, off)).getD 0

end Sys2Proof.Machine
end

