-- ==== Sys2Proof/Machine/Operands.lean ====
section
/-! DEFINITION. The operand forms: where a BAR0 offset leads (R31, R33, R55), which fields a register has, what breaks an
access rule and with which kind (R49), and the storing of a write in a register's fields (R12, R46). -/

namespace Sys2Proof.Machine

/-! ### Addresses -/

/-- Where a BAR0 offset leads (R31, R55). -/
inductive Place where
  /-- Offset off of register page p. -/
  | reg (p off : Nat)
  /-- A word of the table window: table 0 nozzle, 1 threshold, 2 WAVEMAP; active range or shadow; word number. -/
  | table (t : Nat) (active : Bool) (w : Nat)
  /-- Byte a of the line store. -/
  | aperture (a : Nat)
  | nowhere
  deriving DecidableEq, Repr

/-- The place of an offset (R31, R55). -/
def placeOf (o : Nat) : Place :=
  if o < 0x400000 then .reg (o / 0x1000) (o % 0x1000)
  else if 0x4000000 ≤ o then .aperture (o - 0x4000000)
  else if o < 0x1000000 then .nowhere
  else if o < 0x1300000 then .table 0 false ((o - 0x1000000) / 4)
  else if o < 0x1600000 then .table 0 true ((o - 0x1300000) / 4)
  else if o < 0x1800000 then .table 1 false ((o - 0x1600000) / 4)
  else if o < 0x1A00000 then .table 1 true ((o - 0x1800000) / 4)
  else if o < 0x1A00800 then .table 2 false ((o - 0x1A00000) / 4)
  else if 0x1A01000 ≤ o ∧ o < 0x1A01800 then .table 2 true ((o - 0x1A01000) / 4)
  else .nowhere

/-- A field that instance i of a block has: some position registers exist on some channels only (R158). -/
def fieldOn (b : Blk) (i : Nat) (f : Fld) : Bool :=
  match b with
  | .pos =>
    if f.off = 0x40 then (f.lo = 0 || (f.lo = 8 && i < 10) || (f.lo = 2 && 2 ≤ i && i < 10))
    else if f.off = 0x60 then i < 10
    else if 0x64 ≤ f.off && f.off < 0x80 then 2 ≤ i && i < 10
    else if 0xA0 ≤ f.off then 10 ≤ i
    else true
  | .lane =>
    if f.off < 0x40 then true
    else if 128 ≤ i && i < 132 then f.off = 0x44
    else if f.off = 0x40 then (if f.lo = 5 then 132 ≤ i else if f.lo = 4 then i < 128 else true)
    else if f.off = 0x50 then (f.lo ≠ 30 || i < 128)
    else if f.off = 0x48 || f.off = 0x5C || (0x60 ≤ f.off && f.off < 0x70) || f.off = 0x8C then i < 128
    else if 0x70 ≤ f.off && f.off ≤ 0x80 then 132 ≤ i
    else true
  | _ => true
/-- How an instance accepts a field: LANE128–131 are run by the host interface (R34, R327; log 20). -/
def fieldAs (b : Blk) (i : Nat) (f : Fld) : Fld :=
  if b = .lane && 128 ≤ i && i < 132 && f.off = 0x44 then { f with acc := .ro } else f

/-- The fields of register off of a block's page, header registers included. -/
def fieldsAt (b : Blk) (i off : Nat) : List Fld :=
  ((hdrFields ++ b.fields).flatMap fun e =>
    if e.1.off = off then [e.1]
    else if e.1.off < off ∧ e.2.2 ≠ 0 ∧ (off - e.1.off) % e.2.2 = 0 ∧ (off - e.1.off) / e.2.2 < e.2.1 then
      [e.1.nth e.2.2 ((off - e.1.off) / e.2.2)]
    else []).filter (fieldOn b i) |>.map (fieldAs b i)

/-- Register off of instance i is implemented, if only as reserved bits: a register of another class of lane is reserved (R343), one of
another kind of position channel is not there (R158), nor is any but LANE_TXEQ on LANE128 to LANE131 (R327; log 20). -/
def implemented (b : Blk) (i off : Nat) : Bool :=
  !(fieldsAt b i off).isEmpty || (b == .lane && off < 0x90 && !(fieldsAt b (if i < 128 then 132 else 0) off).isEmpty && !(128 ≤ i && i < 132))

/-- The highest interrupt cause that a block defines (R39 and the block's own page). -/
def Blk.topCause (b : Blk) : Nat :=
  match b with
  | .time => 19 | .pos => 12 | .dmac => 8 | .pair | .line | .pipe | .cam | .lane => 7
  | .feed | .dec | .dram | .head => 6
  | .boot | .prof | .hostif | .dma | .lstore | .chant | .cal => 5
  | .therm | .breath | .feedc | .enc | .dramc => 4
  | .sys | .scrub | .camc | .headc => 3
  | .pinmux => 2
/-- The bits of PG_IRQ_RAW and PG_IRQ_EN that a block defines. -/
def Blk.irqMask (b : Blk) : Nat := 2 ^ (b.topCause + 1) - 1
/-- The bits of a register that belong to a field. -/
def fieldMask (l : List Fld) : Nat := l.foldl (fun m f => m ||| ((2 ^ f.w - 1) * 2 ^ f.lo)) 0

/-- The bits of register off that are not reserved. -/
def regMask (b : Blk) (off : Nat) (l : List Fld) : Nat := if off = 0x10 || off = 0x14 then b.irqMask else fieldMask l
/-- The bits of a table-window word that belong to a field (R100, R101, R102). -/
def tableMask (t : Nat) : Nat := if t = 0 then 0xFF3FFFFF else if t = 1 then 0x3FFFFFFF else 7

/-! ### What breaks an access rule (R49) -/

/-- Writes to the page are ignored: fenced, in soft reset, or held for want of the main clock. -/
def State.blockedPage (s : State) (p : Nat) : Bool :=
  s.fenced p || s.srstBusy p || (s.heldClock && !servedEarly p)

/-- The write is a fence release: PG_CTRL with FENCE_REL set on a fenced page (R48) that is not held for want of the main clock (R383). -/
def State.isRelease (s : State) (p off v : Nat) : Bool := s.fenced p && off == 4 && bit v 4 && !(s.heldClock && !servedEarly p)

/-- A field that its block accepts only in another state (kind 9; R298, R323, R409). -/
def State.wrongState (s : State) (b : Blk) (f : Fld) : Bool :=
  match b with
  | .dramc => f == R.DRAMC_CFG_SPARE && (s.get pDRAMC R.DRAMC_CFG_MODE == 1 || s.get pDRAMC R.DRAMC_CFG_MODE == 2)
  | .dmac =>
    (List.range 8).any fun i => (s.jobAt i).running &&
      (f == R.DMAC_RBASE_LO.nth 0x40 i || f == R.DMAC_RBASE_HI.nth 0x40 i || f == R.DMAC_RCFG.nth 0x40 i)
  | .chant =>
    s.enabled pCHANT && ((0 < f.off && chantStatic f.off))
  | _ => false
where
  /-- CHANT_BMAP0–5 and CHANT_CBASE (R298). -/
  chantStatic (off : Nat) : Bool :=
    (R.CHANT_BMAP_V0.off ≤ off && off < R.CHANT_BMAP_V0.off + 24) || off == R.CHANT_CBASE_LO.off
      || off == R.CHANT_CBASE_HI.off

/-- The whole write is ignored (kinds 1, 2, 5, 6, 7). -/
def State.writeIgnored (s : State) (p off v be : Nat) : Bool :=
  match blkOf p with
  | none => true
  | some (b, i) =>
    let fs := fieldsAt b i off
    fs.isEmpty || (off != 0x34 && fs.all fun f => f.acc == .ro)
      || (s.blockedPage p && !s.isRelease p off v) || (off == 0x34 && v != 0xA5A && v != 0) || be != 15

/-- The lowest violation kind of a register write, 0 for none (R49; log 98). -/
def State.writeKind (s : State) (p off v be : Nat) : Nat :=
  match blkOf p with
  | none => 1
  | some (b, i) =>
    let fs := fieldsAt b i off
    if !implemented b i off then 1
    else if off != 0x34 && !fs.isEmpty && fs.all (fun f => f.acc == .ro) then 2
    else if off != 0x34 && !s.isRelease p off v && andNot v (regMask b off fs) != 0 then 3
    else if s.flag p R.PG_LOCK_LOCKED && fs.any (fun f => f.acc == .rwl && field v f.lo f.w != s.get p f) then 4
    else if s.blockedPage p && !s.isRelease p off v then 5
    else if off == 0x34 && v != 0xA5A && v != 0 then 6
    else if be != 15 then 7
    else if fs.any (s.wrongState b ·) then 9
    else 0

/-- Accesses to the BARs arrive: the endpoint is ready, not in D3hot, and RESET_N is high (R344, R347; log 56). -/
def State.hostServed (s : State) : Bool := s.host.ready && !s.host.d3 && !s.inReset
/-- A register write: perform it unless it is ignored as a whole, and count what it breaks, after a VCLR of the same write
(R12, R49, R50). -/
def State.writeWith (s : State) (p off v : Nat) (act : State → State) (be : Nat := 15) : State :=
  if !s.hostServed then s
  else
  let k := s.writeKind p off v be
  let t := if s.writeIgnored p off v be then s else act s
  if k = 0 then t else t.violate k (p * 0x1000 + off) true

/-! ### Storing a write (R12) -/

/-- Store one field of a written value by its access type. -/
def State.storeField (s : State) (p : Nat) (b : Blk) (v : Nat) (f : Fld) : State :=
  let x := if f.off = 0x14 then v &&& b.irqMask else field v f.lo f.w
  if s.wrongState b f then s
  else match f.acc with
    | .ro | .wo => s
    | .rw | .rws | .rwsp => s.set p f x
    | .rwl => if s.flag p R.PG_LOCK_LOCKED then s else s.set p f x
    | .w1c => s.set p f (andNot (s.get p f) x)

/-- Store every field of a register, and settle the claims its enables make (R12, R52). -/
def State.storeReg (s : State) (p off v : Nat) : State :=
  match blkOf p with
  | none => s
  | some (b, i) => ((fieldsAt b i off).foldl (fun t f => t.storeField p b v f) s).settleClaims p off

/-! ### Multi-function balls (R405) -/

/-- The pulse of function k (re)starts, to end WIDTH ticks from now. -/
def State.pulse (s : State) (k : Nat) : State :=
  { s with pulses := s.pulses.put k (s.tick + max 1 (s.get pPINMUX (R.PINMUX_FN_WIDTH.nth 4 k))) }
/-- A pulse falls due on every enabled function of ks whose SEL satisfies sel. -/
def State.pulsesFor (s : State) (ks : List Nat) (sel : Nat → Bool) : State :=
  s.each ks fun t k =>
    t.when (t.flag pPINMUX (R.PINMUX_FN_EN.nth 4 k) && sel (t.get pPINMUX (R.PINMUX_FN_SEL.nth 4 k))) (State.pulse · k)
/-- Level that ball m shows: its owner's output, or the level at the ball. -/
def State.ballLevel (s : State) (m : Nat) : Bool :=
  match (List.range 8).find? fun k =>
      s.flag pPINMUX (R.PINMUX_FN_EN.nth 4 k) && s.get pPINMUX (R.PINMUX_FN_BALL.nth 4 k) == m with
  | some k => if k < 4 then s.pulses.has k else s.flag pPINMUX (R.PINMUX_FN_LEVEL.nth 4 k)
  | none => bit s.mfioIn.toNat m

/-- The word a register's fields make, each as the function says. -/
def wordOf (l : List Fld) (v : Fld → Nat) : Nat := l.foldl (fun a f => a + v f % 2 ^ f.w * 2 ^ f.lo) 0

end Sys2Proof.Machine
end

