-- ==== Sys2Proof/Machine/Memory.lean ====
section
/-! DEFINITION. The two memories: the line store with its per-byte check (R308, R309), DRAM with its address map, its
Reed-Solomon check and its poison words (R302 to R307), repeat tracking (R311), row disturbance (R321, R322) and the
start of a rank retirement (R316, R317). -/

namespace Sys2Proof.Machine

/-! ### Repeat tracking (R311) -/

/-- The lowest place of a repeat table that no entry takes (log 18). -/
def RepTab.freePlace (t : RepTab) : Nat :=
  ((List.range 32).find? fun i => t.ents.all fun e => e.1 != i).getD 0
/-- The entry to replace: the lowest count, the oldest of equal counts. -/
def RepTab.victim (t : RepTab) : Option (Nat × Nat × Nat) :=
  t.ents.foldl (fun m e => match m with
    | none => some e
    | some x => if e.2.2 < x.2.2 then some e else m) none
/-- Free the entry of unit u. -/
def RepTab.free (t : RepTab) (u : Nat) : RepTab := { t with ents := t.ents.filter fun e => e.2.1 != u }
/-- Take a new entry for u at place i with count n; a count of 16 raises REPEAT and frees it. -/
def RepTab.enter (t : RepTab) (i u n : Nat) : RepTab × Bool :=
  if 16 ≤ n then (t, true) else ({ t with ents := t.ents ++ [(i, u, n)] }, false)
/-- One corrected read of unit u: the table after it, and whether it raises REPEAT (R311). -/
def RepTab.correct (t : RepTab) (u : Nat) : RepTab × Bool :=
  match t.ents.find? fun e => e.2.1 == u with
  | some e =>
    if 15 ≤ e.2.2 then (t.free u, true)
    else ({ t with ents := t.ents.map fun x => if x.2.1 = u then (x.1, u, x.2.2 + 1) else x }, false)
  | none =>
    if t.ents.length < 32 then t.enter t.freePlace u (t.floor + 1)
    else match t.victim with
      | none => (t, false)
      | some v =>
        let f := max t.floor v.2.2
        RepTab.enter { ents := t.ents.filter (fun e => e.1 != v.1), floor := f } v.1 u (f + 1)

/-! ### The line store -/

/-- How many bytes the line store has (R57). -/
def lsSize : Nat := 0x4000000

/-- A line-store byte as a read finds it: its data and 0 clean, 1 corrected, 2 or more uncorrectable. A byte never
written, and one with three or more wrong bits, is a free value (R308, R310; logs 6, 7). -/
def State.lsSeen (s : State) (a : Nat) (o : Option Byte) : Byte × Nat :=
  match o with
  | none => (Config.lsByte s.epoch a, Config.lsClass s.epoch a)
  | some b =>
    let e := s.lsErr.getD a 0
    if e ≤ 2 then (b, e) else (Config.lsMiscorrect s.fresh a, Config.lsMiscorrectClass s.fresh a)
/-- The byte at address a as a read finds it. -/
def State.lsLook (s : State) (a : Nat) : Byte × Nat := s.lsSeen a (Memory.get s.lstore a)

/-- One byte read for a reader of R309's SRC, found as v: none is uncorrectable. A correction is counted, recorded and
tracked; nothing is written back (R308, R309, R311). -/
def State.lsFound (s : State) (a src : Nat) (v : Byte × Nat) : State × Option Byte :=
  if v.2 = 0 then (s, some v.1)
  else if v.2 = 1 then
    let t := ((s.err pLSTORE 0x10 src a).incSat pLSTORE R.LSTORE_CORR_CNT).cause pLSTORE 3
    let r := t.lsRep.correct a
    let t := { t with lsRep := r.1 }
    (if r.2 then
      (((t.err pLSTORE 0x12 src a).incSat pLSTORE R.LSTORE_REP_CNT).set pLSTORE R.LSTORE_REP_LAST a).cause pLSTORE 5
    else t, some v.1)
  else (((s.err pLSTORE 0x11 src a).incSat pLSTORE R.LSTORE_UNC_CNT).cause pLSTORE 4, none)

/-- Read the listed bytes o from address a on. -/
def State.lsReads (s : State) (src : Nat) : Nat → List (Option Byte) → State × List (Option Byte)
  | _, [] => (s, [])
  | a, o :: l =>
    let q := s.lsFound a src (s.lsSeen a o)
    let r := q.1.lsReads src (a + 1) l
    (r.1, q.2 :: r.2)
/-- Read n bytes from a. -/
def State.lsRead (s : State) (a n src : Nat) : State × List (Option Byte) := s.lsReads src a (Memory.slice s.lstore a n)
/-- The bytes of such a read, 0x00 where uncorrectable, and whether all of them are good. -/
def State.lsBytes (s : State) (a n src : Nat) : State × List Byte × Bool :=
  let r := s.lsRead a n src
  (r.1, r.2.map (·.getD 0), r.2.all (·.isSome))

/-- Write bytes from a, each with its check: that frees the repeat entries of the bytes (R308, R311). -/
def State.lsWrite (s : State) (a : Nat) (l : List Byte) : State :=
  let off := fun (k : Nat) => decide (k < a) || decide (a + l.length ≤ k)
  { s with
    lstore := Memory.puts s.lstore a l
    lsErr := s.lsErr.filter fun e => off e.1
    lsRep := { s.lsRep with ents := s.lsRep.ents.filter fun e => off e.2.1 } }
/-- Write the bytes that are enabled. -/
def State.lsWriteOpt (s : State) (a : Nat) : List (Option Byte) → State
  | [] => s
  | some b :: r => (s.lsWrite a [b]).lsWriteOpt (a + 1) r
  | none :: r => s.lsWriteOpt (a + 1) r
/-- A little-endian word of the line store, none when a byte of it is uncorrectable. -/
def State.lsWord (s : State) (a src : Nat) : State × Option Nat :=
  let r := s.lsBytes a 4 src
  (r.1, if r.2.2 then some (leNat r.2.1) else none)

/-- Write bytes from place i of a ring of `size` bytes at a. -/
def State.lsRingWrite (s : State) (a size i : Nat) (l : List Byte) : State :=
  (s.lsWrite (a + i % size) (l.take (size - i % size))).lsWrite a (l.drop (size - i % size))
/-- Read n bytes from place i of such a ring, and whether all of them are good. -/
def State.lsRingRead (s : State) (a size i n src : Nat) : State × List Byte × Bool :=
  let x := s.lsBytes (a + i % size) (min n (size - i % size)) src
  let y := x.1.lsBytes a (n - (size - i % size)) src
  (y.1, x.2.1 ++ y.2.1, x.2.2 && y.2.2)
/-- Bytes in transit enter staging buffer n, 0 to 7 an encoder's and 8 to 15 a decoder's, from place i on (R81; log 102). -/
def State.stageIn (s : State) (n i : Nat) (l : List Byte) : State :=
  s.lsRingWrite (0x3E00000 + 0x20000 * n) 0x20000 (Config.stageStart n + i) l
/-- They are read from it. -/
def State.stageOut (s : State) (n i k : Nat) : State × List Byte × Bool :=
  s.lsRingRead (0x3E00000 + 0x20000 * n) 0x20000 (Config.stageStart n + i) k 1

/-! ### The DRAM check code (R303 to R305) -/

/-- Multiplication by α in GF(2^8) with x^8 + x^4 + x^3 + x^2 + 1. -/
def gfX (a : Nat) : Nat := if a < 128 then 2 * a else (2 * a) ^^^ 0x11D
/-- Multiplication in the field. -/
def gfMul (a b : Nat) : Nat :=
  ((List.range 8).foldl (fun (r : Nat × Nat) i => (if bit b i then r.1 ^^^ r.2 else r.1, gfX r.2)) (0, a)).1
/-- α^n. -/
def gfExp : Nat → Nat
  | 0 => 1
  | n + 1 => gfX (gfExp n)
/-- The generator (x − α^0) … (x − α^7) without its leading 1, coefficients of x^7 down to x^0 (R303). -/
def rsGen : List Nat :=
  ((List.range 8).foldl (fun (g : List Nat) j =>
    List.zipWith (fun a b => a ^^^ b) (g ++ [0]) ((0 :: g).map fun c => gfMul c (gfExp j))) [1]).drop 1
/-- The eight check symbols of 64 data symbols, coefficients of x^7 down to x^0 (R303). -/
def rsCheck (d : List Nat) : List Nat :=
  d.foldl (fun r x =>
    let f := x ^^^ r.headD 0
    List.zipWith (fun a g => a ^^^ gfMul f g) (r.drop 1 ++ [0]) rsGen) (List.replicate 8 0)
/-- The data symbols of 64 data bytes, in ascending σ (R303). -/
def rsSymbols (d : List Byte) : List Nat :=
  (List.range 4).flatMap fun p => (List.range 16).map fun q =>
    byteAt d (16 * p + q / 2) / 16 ^ (q % 2) % 16 + 16 * (byteAt d (16 * p + 8 + q / 2) / 16 ^ (q % 2) % 16)
/-- The 64 data bytes of the data symbols. -/
def rsBytes (y : List Nat) : List Byte :=
  (List.range 64).map fun k =>
    let p := k / 16
    let i := k % 8
    let h := if k % 16 < 8 then 1 else 16
    BitVec.ofNat 8 (y.getD (16 * p + 2 * i) 0 / h % 16 + 16 * (y.getD (16 * p + 2 * i + 1) 0 / h % 16))
/-- Syndrome S_j of a received word, coefficients of x^71 down to x^0 (R304). -/
def rsSyndrome (r : List Nat) (j : Nat) : Nat := r.foldl (fun a c => gfMul a (gfExp j) ^^^ c) 0

/-- What a read makes of a burst (R304, R305). -/
inductive Burst where
  | clean (d : List Byte)
  | corrected (d : List Byte)
  | bad
  | poison
  deriving DecidableEq, Repr

/-- The check symbols of a poison word: those of the data 0x01 in symbol 0 and 0x00 elsewhere (R305). -/
def poisonCheck : List Nat := rsCheck (1 :: List.replicate 63 0)

/-- Classify 64 data bytes with their check symbols (R304, R305). -/
def classify (d : List Byte) (chk : List Nat) : Burst :=
  let y := rsSymbols d
  if d.all (· == 0) && chk == poisonCheck then .poison
  else
    let sy := (List.range 8).map (rsSyndrome (y ++ chk))
    if sy.all (· == 0) then .clean d
    else if sy.headD 0 = 0 then .bad
    else match (List.range 72).find? fun v =>
        (List.range 7).all fun j => sy.getD (j + 1) 0 == gfMul (sy.getD j 0) (gfExp v) with
      | none => .bad
      | some v =>
        if v < 8 then .corrected d
        else .corrected (rsBytes (y.set (71 - v) (y.getD (71 - v) 0 ^^^ sy.headD 0)))

/-! ### The DRAM address map (R302) -/

/-- The geometry that the boot sequencer read (R300, R301). -/
def State.geo (s : State) : SpdInfo := s.boot.spd.headD SpdInfo.absent
/-- Physical ranks per channel. -/
def State.ranks (s : State) : Nat := s.geo.dimms * s.geo.ranksPerDimm
/-- SPARE in force: it acts as 0 with one rank (R302, R323). -/
def State.spareOn (s : State) : Bool := s.flag pDRAMC R.DRAMC_CFG_SPARE && 2 ≤ s.ranks
/-- Logical ranks per channel (R302). -/
def State.logRanks (s : State) : Nat := if s.spareOn then s.ranks - 1 else s.ranks
/-- The bytes of installed DRAM (R302). -/
def State.dramSize (s : State) : Nat := 4 * s.logRanks * 2 ^ s.geo.rankLog2
/-- DRAM is in service: all four channels are trained (R301). -/
def State.dramReady (s : State) : Bool := (List.range 4).all fun c => (s.dramAt c).trained
/-- Channel c serves requests: DRAM is in service, and the channel is in no replay and no pause (R301, R314, R315, R319). -/
def State.chServes (s : State) (c : Nat) : Bool := s.dramReady && (s.dramAt c).alert.isNone && (s.dramAt c).pause.isNone
/-- The channels that n bytes at a lie in (R302). -/
def chansOf (a n : Nat) : List Nat :=
  if n = 0 then [] else (List.range (min 4 ((a + n - 1) / 256 - a / 256 + 1))).map fun i => (a / 256 + i) % 4
/-- Every channel of n bytes at a serves. -/
def State.rangeServes (s : State) (a n : Nat) : Bool := s.dramReady && (chansOf a n).all s.chServes
/-- Channel, logical rank and offset in the rank of a DRAM address (R302). -/
def State.dramPlace (s : State) (a : Nat) : Nat × Nat × Nat :=
  let ca := a / 1024 * 256 + a % 256
  (a / 256 % 4, ca / 2 ^ s.geo.rankLog2, ca % 2 ^ s.geo.rankLog2)
/-- The DRAM address of a place. -/
def State.dramAddr (s : State) (c lr o : Nat) : Nat :=
  let ca := lr * 2 ^ s.geo.rankLog2 + o
  ca / 256 * 1024 + c * 256 + ca % 256
/-- DRAM_RMAP field of a logical rank. -/
def State.rmap (s : State) (c lr : Nat) : Nat := field (s.get (pDRAM c) R.DRAM_RMAP_LR) (2 * lr) 2
/-- The migration pointer PTR (R317). -/
def State.migPtr (s : State) (c : Nat) : Nat := s.get64 (pDRAM c) R.DRAM_MIG_PTR_LO R.DRAM_MIG_PTR_HI
/-- The physical rank that serves an offset of a logical rank: before PTR of a migration the spare (R302, R317). -/
def State.physRank (s : State) (c lr o : Nat) : Nat :=
  match (s.dramAt c).mig with
  | some (l, f, p) => if l = lr then (if o < s.migPtr c then p else f) else s.rmap c lr
  | none => s.rmap c lr
/-- The state of a physical rank in DRAM_RSTAT: 0 spare, 1 in use, 2 migrating, 3 retired (R324). -/
def State.rankState (s : State) (c p : Nat) : Nat := field (s.get (pDRAM c) R.DRAM_RSTAT) (4 * p) 2
/-- Set it. -/
def State.setRankState (s : State) (c p v : Nat) : State :=
  s.upd (pDRAM c) R.DRAM_RSTAT fun w => andNot w (3 * 16 ^ p) + v * 16 ^ p
/-- Set a rank's DEGRADED bit. -/
def State.degrade (s : State) (c p : Nat) : State := s.upd (pDRAM c) R.DRAM_RSTAT fun w => w ||| (4 * 16 ^ p)

/-- Record a DRAM error on DRAMC and on the channel's page, with the reader as SRC (R307, R323). -/
def State.dramErr (s : State) (c code src a : Nat) : State :=
  (s.err64 pDRAMC code src a).err64 (pDRAM c) code src a

/-! ### Retirement (R316, R317) -/

/-- A retirement of physical rank f of channel c could start: in use, an unused spare, not in RECOVERY (R316). -/
def State.canRetire (s : State) (c f : Nat) : Bool :=
  s.rankState c f == 1 && s.flag (pDRAM c) R.DRAM_RMAP_SPV && (s.dramAt c).mig.isNone
/-- Step 1 of a retirement of rank f, which serves logical rank lr, caused at address a (R317). -/
def State.retire (s : State) (c lr f a src : Nat) : State :=
  let p := s.get (pDRAM c) R.DRAM_RMAP_SPR
  let t := (s.dramErr c 0x92 src a).updDram c fun d => { d with mig := some (lr, f, p) }
  ((t.setRankState c f 2).set64 (pDRAM c) R.DRAM_MIG_PTR_LO R.DRAM_MIG_PTR_HI 0).cause (pDRAM c) 4
/-- An uncorrectable read or failed replay at a in rank f: retire it in SERVICE, or mark it degraded there (R316). -/
def State.rankFailed (s : State) (c lr f a src : Nat) : State :=
  if s.get pDRAMC R.DRAMC_CFG_MODE = 1 then
    (if s.canRetire c f then s.retire c lr f a src else s.degrade c f)
  else s

/-! ### Row disturbance (R321, R322) -/

/-- One activate in a tracker: the tracker after it and the row's count (R321). -/
def trackRow (t : Tracker) (row : Nat) : Tracker × Nat :=
  match t.find? fun e => e.1 == row with
  | some e => (t.map (fun x => if x.1 = row then (row, x.2 + 1) else x), e.2 + 1)
  | none =>
    if t.length < 16 then (t ++ [(row, 1)], 1)
    else
      let m := t.foldl (fun m e => min m e.2) (t.headD (0, 0)).2
      match t.find? fun e => e.2 == m with
      | none => (t, 1)
      | some v => ((t.filter fun e => e.1 != v.1) ++ [(row, m + 1)], m + 1)

/-- Bank of an offset in a rank: BG in bits [3:2], BA in [1:0] (R302). -/
def bankOf (o : Nat) : Nat := field o 8 2 * 4 + field o 10 2
/-- An access by requester req to a row of a bank of a rank: it activates the row unless that row is open already, and at
DRAMC_RH.THR the bank is refreshed around it or the requester throttled (R321, R322; log 19 for open rows). -/
def State.activate (s : State) (c p bank row req : Nat) : State :=
  let key := 16 * p + bank
  let d := s.dramAt c
  if d.openRow.getD key (2 ^ 40) = row then s
  else
    let r := trackRow (d.trackers.getD key []) row
    let thr := max 1 (s.get pDRAMC R.DRAMC_RH_THR)
    let s := s.updDram c fun d => { d with openRow := d.openRow.put key row, trackers := d.trackers.put key r.1 }
    let s := s.updDram c fun d => { d with throttled := d.throttled.map fun x =>
      if x.1 = key ∧ x.2.1 = row ∧ x.2.2.1 = req then (key, row, req, s.tick) else x }
    if r.2 ≠ thr then s
    else
      let dec := 0x40 ≤ req && req ≤ 0x47
      let s := ((((((s.setFlag pDRAMC R.DRAMC_RH_LAST_TRR dec).set pDRAMC R.DRAMC_RH_LAST_BANK bank).set pDRAMC
        R.DRAMC_RH_LAST_RANK p).set pDRAMC R.DRAMC_RH_LAST_CH c).set pDRAMC R.DRAMC_RH_LAST_REQ req).set pDRAMC
        R.DRAMC_RH_ROW row).cause pDRAMC 4
      if dec then
        (s.updDram c fun d => { d with trackers := d.trackers.put key ((d.trackers.getD key []).map fun e =>
          if e.1 = row then (row, 0) else e) }).incSat pDRAMC R.DRAMC_TRR_CNT
      else
        (s.updDram c fun d => { d with throttled :=
          (d.throttled.filter fun x => !(x.1 == key && x.2.1 == row && x.2.2.1 == req)) ++ [(key, row, req, s.tick)] }).incSat
          pDRAMC R.DRAMC_THR_CNT

/-- A requester's next activate of the row of offset o of physical rank p must still wait (R322). -/
def State.rowHeld (s : State) (c p o req : Nat) : Bool :=
  let key := 16 * p + bankOf o
  let d := s.dramAt c
  d.openRow.getD key (2 ^ 40) != o / 2 ^ 17 && d.throttled.any fun x =>
    x.1 == key && x.2.1 == o / 2 ^ 17 && x.2.2.1 == req && s.tick < x.2.2.2 + nsTicks (s.get pDRAMC R.DRAMC_RH_GAP)
/-- The same for the row at a DRAM address. -/
def State.throttledAt (s : State) (a req : Nat) : Bool :=
  let pl := s.dramPlace a
  s.rowHeld pl.1 (s.physRank pl.1 pl.2.1 pl.2.2) pl.2.2 req
/-- The aligned burst addresses of n bytes at a. -/
def burstsOf (a n : Nat) : List Nat :=
  if n = 0 then [] else (List.range ((a + n - 1) / 64 - a / 64 + 1)).map fun i => (a / 64 + i) * 64
/-- Some row of n bytes at a is held back from the requester. -/
def State.throttledRange (s : State) (a n req : Nat) : Bool :=
  ((List.range 4).any fun c => (s.dramAt c).throttled.any fun x => x.2.2.1 == req) &&
    (burstsOf a n).any fun x => s.throttledAt x req
/-- A request of n bytes at a can be served now. -/
def State.dramFree (s : State) (a n req : Nat) : Bool := s.rangeServes a n && !s.throttledRange a n req

/-! ### DRAM accesses -/

/-- How many ticks 128 DRAM clocks last (R18, R314). -/
def State.retryTicks (s : State) : Nat := if s.geo.dimms = 2 then 128 * 8 / 66 else 128 * 7 / 66
/-- A command of channel c: it activates its row, and stands in the retry buffer (R314, R321). -/
def State.issue (s : State) (c : Nat) (x : RetryCmd) : State :=
  (s.activate c x.rank (bankOf x.off) (x.off / 2 ^ 17) x.req).updDram c fun d =>
    { d with retry := { x with at_ := s.tick } :: d.retry.filter fun y => s.tick ≤ y.at_ + s.retryTicks }

/-- Key of data byte o of a physical rank. -/
def dramKey (c p o : Nat) : Nat := (4 * c + p) * 2 ^ 34 + o
/-- Key of check symbol j of the burst at o. -/
def chkKey (c p o j : Nat) : Nat := ((4 * c + p) * 2 ^ 28 + o / 64) * 8 + j

/-- The stored data bytes of a burst: a byte never written is a free value (R310; log 6). -/
def State.rawData (s : State) (c p o : Nat) : List Byte :=
  (Memory.slice s.dramMem (dramKey c p o) 64).zipIdx.map fun x => x.1.getD (Config.dramByte s.epoch (dramKey c p o + x.2))
/-- The stored check symbols of a burst. -/
def State.rawCheck (s : State) (c p o : Nat) : List Nat :=
  (Memory.slice s.dramChk (chkKey c p o 0) 8).zipIdx.map fun x =>
    (x.1.getD (Config.dramCheck s.epoch (chkKey c p o 0 + x.2))).toNat
/-- The burst at offset o of a physical rank as a read finds it. -/
def State.lookBurst (s : State) (c p o : Nat) : Burst := classify (s.rawData c p o) (s.rawCheck c p o)
/-- Store data bytes and check symbols at a burst. -/
def State.storeBurst (s : State) (c p o : Nat) (d : List Byte) (chk : List Nat) : State :=
  { s with dramMem := Memory.puts s.dramMem (dramKey c p o) d
           dramChk := Memory.puts s.dramChk (chkKey c p o 0) (chk.map (BitVec.ofNat 8)) }
/-- Free the repeat entry of a DRAM unit (R311). -/
def State.freeRep (s : State) (c a : Nat) : State := s.updDram c fun d => { d with rep := d.rep.free (a / 64) }

/-- Count, record and answer what a read of the burst at address a found (R304 to R307, R311, R316). Migration's own read, SRC 6, answers
an uncorrectable unit by poison (R317). -/
def State.burstFound (s : State) (c lr p a src : Nat) (b : Burst) : State × Option (List Byte) :=
  match b with
  | .clean d => (s, some d)
  | .corrected d =>
    let t := (s.dramErr c 0x10 src a).incSat (pDRAM c) R.DRAM_CORR_CNT
    let r := (t.dramAt c).rep.correct (a / 64)
    let t := t.updDram c fun d => { d with rep := r.1 }
    (if r.2 then
      (((t.dramErr c 0x12 src a).incSat (pDRAM c) R.DRAM_REP_CNT).set (pDRAM c) R.DRAM_REP_LAST (a / 64)).cause (pDRAM c) 3
    else t, some d)
  | .bad =>
    let t := (s.dramErr c 0x11 src a).incSat (pDRAM c) R.DRAM_UNC_CNT
    (if src = 6 then t else t.rankFailed c lr p a src, none)
  | .poison => ((s.dramErr c 0x11 8 a).incSat (pDRAM c) R.DRAM_POISON_CNT, none)

/-- Read the 64-byte burst at the aligned address a for a reader of R323's SRC, as requester req (R29, R304, R307). -/
def State.burstRead (s : State) (a src req : Nat) : State × Option (List Byte) :=
  let pl := s.dramPlace a
  let p := s.physRank pl.1 pl.2.1 pl.2.2
  let s := s.issue pl.1 { at_ := s.tick, addr := a, req := req, rank := p, off := pl.2.2 }
  s.burstFound pl.1 pl.2.1 p a src (s.lookBurst pl.1 p pl.2.2)

/-- Write the whole burst at the aligned address a (R306, R311). -/
def State.burstWrite (s : State) (a : Nat) (d : List Byte) (req : Nat) : State :=
  let pl := s.dramPlace a
  let p := s.physRank pl.1 pl.2.1 pl.2.2
  let k := rsCheck (rsSymbols d)
  let s := s.issue pl.1 { at_ := s.tick, addr := a, req := req, rank := p, off := pl.2.2, data := some (d, k) }
  (s.storeBurst pl.1 p pl.2.2 d k).freeRep pl.1 a

/-- Write part of a burst: a read, a merge and a write in one; after an uncorrectable read the bytes not written are
0x00 (R306). -/
def State.burstMerge (s : State) (a : Nat) (d : List (Option Byte)) (req : Nat) : State :=
  if d.all (·.isSome) then s.burstWrite a (d.map (·.getD 0)) req
  else if d.all (·.isNone) then s
  else
    let r := s.burstRead a 7 req
    let old := r.2.getD (zeros 64)
    r.1.burstWrite a ((List.range 64).map fun i => ((d.getD i none)).getD (old.getD i 0)) req

/-- Read n bytes of DRAM at a: the bytes, 0x00 in an uncorrectable burst, and whether every burst was good (R307). -/
def State.dramRead (s : State) (a n src req : Nat) : State × List Byte × Bool :=
  let r := (burstsOf a n).foldl (fun (r : State × List Byte × Bool) x =>
    let q := r.1.burstRead x src req
    (q.1, r.2.1 ++ q.2.getD (zeros 64), r.2.2 && q.2.isSome)) (s, [], true)
  (r.1, (r.2.1.drop (a % 64)).take n, r.2.2)

/-- Write enabled bytes of DRAM at a (R306). -/
def State.dramWriteOpt (s : State) (a : Nat) (d : List (Option Byte)) (req : Nat) : State :=
  let pad := List.replicate (a % 64) none ++ d
  (burstsOf a d.length).zipIdx.foldl (fun t x =>
    let q := (pad.drop (64 * x.2)).take 64
    t.burstMerge x.1 (q ++ List.replicate (64 - q.length) none) req) s
/-- Write bytes of DRAM at a (R306). -/
def State.dramWrite (s : State) (a : Nat) (d : List Byte) (req : Nat) : State := s.dramWriteOpt a (d.map some) req

end Sys2Proof.Machine
end

