-- ==== Sys2Proof/Machine/Arbiter.lean ====
section
/-! DEFINITION. Who is served by DRAM, and when (R28 to R30, R301, R315, R319, R320, R322): the reads that decoders have outstanding, the
bursts that DMA channels want, and the requests that wait. -/

namespace Sys2Proof.Machine

/-! ### What a decoder reads (R61, R86, R87, R172, R178) -/

/-- A bar register of DMAC (R186). -/
def jf (f : Fld) (b : Nat) : Fld := f.nth 0x40 b
/-- Printed lines per sample line (R178). -/
def Job.r (j : Job) : Nat := if !j.dot && !j.fast then 2 else 1
/-- Printed lines of a job (R178). -/
def Job.total (j : Job) : Nat := j.repLines * j.repCount * j.r
/-- Sample lines of a job. -/
def Job.samples (j : Job) : Nat := j.repLines * j.repCount
/-- Slots of a ring. -/
def nSlots (dot : Bool) : Nat := if dot then 128 else 64
/-- Bilinear upscaling of standard contone is in force on bar b (R87, R89). -/
def State.bilinear (s : State) (b : Nat) (j : Job) : Bool := !j.dot && !j.fast && s.ap (pPIPE b) R.PIPE_CTRL_UPS == 2
/-- The q of the last printed line that can need sample line m of a job (R87). -/
def State.lastUse (s : State) (b : Nat) (j : Job) (m : Nat) : Nat :=
  min (j.total - 1) (if s.bilinear b j then 2 * m + 2 else j.r * m + j.r - 1)
/-- Line x of bar b has been issued. -/
def State.issued (s : State) (b x : Nat) : Bool :=
  match (s.jobAt b).prev with
  | some p => decide (0 ≤ diff32 p.1 x)
  | none => false
/-- The job that a decoder works on. -/
def State.decJob (s : State) (b : Nat) : Option Job := (s.jobAt b).jobs[(s.decAt b).jobIdx]?
/-- DRAM addresses of n bytes of bar b's live ring from stream position p, in one or two pieces (R172). -/
def State.ringPieces (s : State) (b p n : Nat) : List (Nat × Nat) :=
  let l := s.get pDMAC (jf R.DMAC_RCFG b)
  let size := 2 ^ (if 12 ≤ l ∧ l ≤ 36 then l else 12)
  let base := s.get64 pDMAC (jf R.DMAC_RBASE_LO b) (jf R.DMAC_RBASE_HI b)
  let o := p % size
  if o + n ≤ size then [(base + o, n)] else [(base + o, size - o), (base, n - (size - o))]
/-- DRAM addresses of n bytes at a position of a layer's stream. -/
def State.streamPieces (s : State) (b : Nat) (j : Job) (live : Bool) (p n : Nat) : List (Nat × Nat) :=
  if live then s.ringPieces b p n else [(j.baseAddr + p, n)]
/-- Read n bytes at a position of a layer's stream. -/
def State.streamRead (s : State) (b : Nat) (j : Job) (live : Bool) (p n : Nat) : State × List Byte × Bool :=
  (s.streamPieces b j live p n).foldl (fun r q =>
    let x := r.1.dramRead q.1 q.2 0 (0x40 + b)
    (x.1, r.2.1 ++ x.2.1, r.2.2 && x.2.2)) (s, [], true)
/-- The DRAM address of a stream position. -/
def State.streamAddr (s : State) (b : Nat) (j : Job) (live : Bool) (p : Nat) : Nat :=
  if live then ((s.ringPieces b p 1).headD (0, 0)).1 else j.baseAddr + p
/-- The live record at the present position has passed WPOS whole, so it can be read (R172). -/
def State.liveReady (s : State) (b : Nat) (j : Job) : Bool :=
  let d := s.decAt b
  let w := s.get64 pDMAC (jf R.DMAC_WPOS_LO b) (jf R.DMAC_WPOS_HI b)
  d.liveLost || (d.livePos + 12 ≤ w && d.livePos + leNat (s.streamRead b j true d.livePos 2).2.1 ≤ w)
/-- The pieces of DRAM that decoder b's next record of a layer lies in; none where the layer has no record left for the line, or its rest is
lost, or the record is not in the live ring yet. -/
def State.recordPieces (s : State) (b : Nat) (j : Job) (live : Bool) : List (Nat × Nat) :=
  let d := s.decAt b
  let pos := if live then d.livePos else d.basePos
  let there := if live then d.liveLeft != 0 && !d.liveLost && s.liveReady b j else decide (d.baseSeg < 16) && !d.baseLost
  if there then s.streamPieces b j live pos (max 12 (leNat (s.streamRead b j live pos 2).2.1)) else []
/-- Every slot of the ring is taken, and line m of the job, not all of whose printed lines have been issued, needs one (R76, R86). -/
def State.ringFull (s : State) (b : Nat) (j : Job) : Bool :=
  let d := s.decAt b
  !s.issued b ((j.first + s.lastUse b j d.m) % 2 ^ 32) && decide (nSlots d.dot ≤ d.slots.length)
/-- The live mask word that decoder b reads next, to open a line of its job (R179). -/
def State.maskPieces (s : State) (b : Nat) (j : Job) : List (Nat × Nat) :=
  let d := s.decAt b
  if d.started && !d.opened && decide (d.m < j.samples) && j.liveEn && j.maskMode && !s.ringFull b j then [(j.maskAddr + 2 * d.m, 2)]
  else []

/-! ### The decoders (R29, R30, R320) -/

/-- The DRAM channels of pieces of it. -/
def chansIn (l : List (Nat × Nat)) : List Nat := l.flatMap fun q => chansOf q.1 q.2
/-- The DRAM channels that decoder b has a read outstanding on: a mask word's, or those of its records. -/
def State.decChans (s : State) (b : Nat) : List Nat :=
  if !s.working (pDEC b) || !(s.jobAt b).running then []
  else match s.decJob b with
    | none => []
    | some j => chansIn (if (s.decAt b).opened then s.recordPieces b j false ++ s.recordPieces b j true else s.maskPieces b j)
/-- The decoder has a read outstanding. -/
def State.decReading (s : State) (b : Nat) : Bool := !(s.decChans b).isEmpty
/-- A decoder of those named has a read outstanding on one of the channels. -/
def State.decFirst (s : State) (bars : List Nat) (ch : List Nat) : Bool := bars.any fun b => (s.decChans b).any ch.contains
/-- How many turns decoder b is from the one served last (R29). -/
def State.decTurn (s : State) (b : Nat) : Nat := (b + 7 - s.lastDec) % 8
/-- The decoders that are served before decoder b: one in panic before one that is not, else in their turns (R29, R30). -/
def State.decBefore (s : State) (b : Nat) : List Nat :=
  (List.range 8).filter fun o => o != b &&
    (if (s.decAt o).panic = (s.decAt b).panic then decide (s.decTurn o < s.decTurn b) else (s.decAt o).panic)
/-- DRAM serves decoder b's read of pieces now: their channels serve, and no decoder before it has a read on one of them. -/
def State.decServed (s : State) (b : Nat) (l : List (Nat × Nat)) : Bool :=
  l.all (fun x => s.rangeServes x.1 x.2) && !s.decFirst (s.decBefore b) (chansIn l)

/-! ### Levels below the decoders (R29) -/

/-- How many bytes a source queue holds. -/
def State.queueBytes (s : State) (ep : Nat) : Nat := (s.queues.getD ep []).foldl (fun n q => n + q.bytes.length) 0
/-- The channel works. -/
def State.dmaOn (s : State) (c : Nat) : Bool := s.working (pDMA c)
/-- The threshold LO, HI at most. -/
def State.paceLo (s : State) (c : Nat) : Nat := min (s.get (pDMA c) R.DMA_PACE_HI) (s.get (pDMA c) R.DMA_PACE_LO)
/-- Free bytes of a sink queue. -/
def State.sinkFree (s : State) (ep : Nat) : Nat := Config.queueCap ep - (s.sinks.getD ep []).length
/-- The source side's request after a change. -/
def State.srcReq (s : State) (c : Nat) (was : Bool) : Bool :=
  let ep := s.srcEp c
  let n := s.queueBytes ep
  if ep = 0 then false
  else if was then !(n / 64 < s.paceLo c && n == 0) else s.get (pDMA c) R.DMA_PACE_HI ≤ n / 64 || n != 0
/-- The destination side's request after a change. -/
def State.dstReq (s : State) (c : Nat) (was : Bool) : Bool :=
  let ep := s.dstEp c
  let n := s.sinkFree ep / 64
  if ep = 0 then false else if was then s.paceLo c ≤ n else s.get (pDMA c) R.DMA_PACE_HI ≤ n
/-- A side's request as it stands, none without a descriptor that names a queue there. -/
def State.reqSrc (s : State) (c : Nat) : Bool :=
  match (s.dmaAt c).desc with
  | some d => d.srcT != 2 || s.srcReq c (s.dmaAt c).reqS
  | none => false
/-- Bytes that may still be written to a bar's live ring beyond what channel c has taken: whole units of 64 bytes below RPOS + 2^n, so that
no padding passes it either (R167, R172). -/
def State.ringFree (s : State) (c b : Nat) : Nat :=
  let d := s.dmaAt c
  let l := s.get pDMAC (jf R.DMAC_RCFG b)
  let size := 2 ^ (if 12 ≤ l ∧ l ≤ 36 then l else 12)
  s.get64 pDMAC (jf R.DMAC_RPOS_LO b) (jf R.DMAC_RPOS_HI b) / 64 * 64 + size
    - (s.get64 pDMAC (jf R.DMAC_WPOS_LO b) (jf R.DMAC_WPOS_HI b) + d.ahead + d.staging.length)
/-- The destination side so: a live ring takes bytes while its engine runs and it has room (R172). -/
def State.reqDst (s : State) (c : Nat) : Bool :=
  match (s.dmaAt c).desc with
  | some d =>
    if d.dstT = 2 then s.dstReq c (s.dmaAt c).reqD
    else if d.dstT = 3 then (s.jobAt d.dst).running && s.ringFree c d.dst != 0
    else true
  | none => false
/-- DMA_STAT.REQ (R168). -/
def State.dmaReq (s : State) (c : Nat) : Bool :=
  s.dmaOn c && (s.dmaAt c).st == 1 && s.reqSrc c && s.reqDst c
/-- Address of byte i of a side that starts at a (R171). -/
def ringAddr (a ring i : Nat) : Nat := if ring = 0 then a + i else a - a % 2 ^ ring + (a + i) % 2 ^ ring
/-- The work of the descriptor is done: every byte is delivered. -/
def DmaSt.finished (d : DmaSt) : Bool :=
  match d.desc with
  | some x => d.staging.isEmpty && (d.taken == x.len || d.lastSeen)
  | none => false
/-- Burst size in bytes. -/
def State.burstSize (s : State) (c : Nat) : Nat :=
  match s.get (pDMA c) R.DMA_CTRL with | 0 => 64 | 1 => 128 | _ => 256
/-- DRAM address of stream position p of a bar's live ring (R172). -/
def State.liveAddr (s : State) (b p : Nat) : Nat := ((s.ringPieces b p 1).headD (0, 0)).1
/-- Position in the live ring, or address, of the next byte to write and of the next byte to take. -/
def State.dstAddr (s : State) (c : Nat) (d : Desc) (i : Nat) : Nat :=
  if d.dstT = 3 then
    s.liveAddr d.dst (s.get64 pDMAC (jf R.DMAC_WPOS_LO d.dst) (jf R.DMAC_WPOS_HI d.dst) + (s.dmaAt c).ahead
      + (i - ((s.dmaAt c).taken - (s.dmaAt c).staging.length)))
  else ringAddr d.dst d.dstRing i
/-- The channel delivers raster items from memory to an encoder, and checks their tags (R165). -/
def State.tagged (s : State) (c : Nat) (d : Desc) : Bool := d.dstT == 2 && d.srcT != 2 && 0x20 ≤ s.dstEp c && s.dstEp c ≤ 0x27
/-- Bytes that the channel's next burst takes (R169, R170, R172). -/
def State.burstLen (s : State) (c : Nat) (d : Desc) : Nat :=
  let x := s.dmaAt c
  let b := s.burstSize c
  let src := if d.srcT = 2 then (((s.queues.getD (s.srcEp c) []).map (·.bytes.length)).headD 0)
    else b - ringAddr d.src d.srcRing x.taken % b
  let dst := if d.dstT = 2 then 256 - x.staging.length - x.tag.length
    else if d.dstT = 3 then min (b - s.dstAddr c d x.taken % b) (s.ringFree c d.dst)
    else b - s.dstAddr c d x.taken % b
  let item := if x.itemLeft = 0 || !s.tagged c d then b else x.itemLeft
  if x.lastSeen then 0 else min (min b (d.len - x.taken)) (min item (min src dst))
/-- DRAM level of a descriptor's bursts, by where their bytes come from (R29, R169). -/
def State.dmaLevel (s : State) (c : Nat) (d : Desc) : Nat :=
  let e := s.srcEp c
  if d.srcT ≠ 2 then 4 else if 0x28 ≤ e ∧ e ≤ 0x2F then 3 else if 0x30 ≤ e then 5 else 4
/-- The DRAM addresses that the channel's next burst touches, with how many bytes: it lies in one DRAM channel on each side (R169, R302). -/
def State.dmaTouches (s : State) (c : Nat) (d : Desc) : List (Nat × Nat) :=
  let i := (s.dmaAt c).taken
  let n := max 1 (s.burstLen c d)
  (if d.srcT = 0 then [(ringAddr d.src d.srcRing i, n)] else []) ++
    (if d.dstT = 0 ∨ d.dstT = 3 then [(s.dstAddr c d i / 64 * 64, n)] else [])
/-- Requester of a waiting request, its first byte and its length. -/
def DramReq.who (r : DramReq) : Nat := match r with | .write _ q _ => q | .read .. => 0x48
def DramReq.at_ (r : DramReq) : Nat := match r with | .write a _ _ => a | .read a _ _ => a
def DramReq.len (r : DramReq) : Nat := match r with | .write _ _ l => l.length | .read _ n _ => n
/-- Its level: BAR2 6, coverage 5, the control ring and job records 4 (R29, R184, R195, R267, R346; log 74). -/
def DramReq.level (r : DramReq) : Nat := if r.who = 0x48 then 6 else if r.who = 0x49 then 5 else 4
/-- DRAM takes n bytes at a from a requester, and no decoder wants one of their channels. -/
def State.portFree (s : State) (a n req : Nat) : Bool := s.dramFree a n req && !s.decFirst (List.range 8) (chansOf a n)
/-- A waiting request of a higher level than lvl is next on one of the channels. -/
def State.waitAhead (s : State) (lvl : Nat) (ch : List Nat) : Bool :=
  s.dramWait.any fun r => decide (r.level < lvl) && s.portFree r.at_ r.len r.who && (chansOf r.at_ r.len).any ch.contains
/-- DRAM serves a DMA channel's next burst: no throttling, pause or replay stands against it, and nothing of a higher level that is no DMA
channel wants the same DRAM channel (R29, R30, R315, R319, R322). -/
def State.dmaServed (s : State) (c : Nat) (d : Desc) : Bool :=
  (s.dmaTouches c d).all fun q => s.portFree q.1 q.2 c && !s.waitAhead (s.dmaLevel c d) (chansOf q.1 q.2)
/-- The channel has a burst to do: it requests, and has bytes to take or to deliver. -/
def State.dmaWants (s : State) (c : Nat) : Bool :=
  match (s.dmaAt c).desc with
  | some d => s.dmaReq c && !(s.dmaAt c).finished && (s.burstLen c d != 0 || !(s.dmaAt c).staging.isEmpty) && s.dmaServed c d
  | none => false
/-- A DMA channel of a higher level than lvl wants one of the DRAM channels. -/
def State.dmaAhead (s : State) (lvl : Nat) (ch : List Nat) : Bool :=
  (List.range 64).any fun c => s.dmaWants c && (s.dmaAt c).desc.any fun d =>
    decide (s.dmaLevel c d < lvl) && (chansIn (s.dmaTouches c d)).any ch.contains
/-- DRAM serves n bytes at a to a requester of level lvl now: its channels take them, and nothing of a higher level wants one of them (R29,
R30, R301, R315, R319, R322). -/
def State.dramServed (s : State) (lvl a n req : Nat) : Bool :=
  s.portFree a n req && !s.waitAhead lvl (chansOf a n) && !s.dmaAhead lvl (chansOf a n)
/-- So for a read of a descriptor or a control word, of a DMA channel or a job engine, at level 4. -/
def State.chainFree (s : State) (a n req : Nat) : Bool := s.dramServed 4 a n req

/-! ### Requests that wait (R28, R301, R315, R319, R322) -/

/-- A request can be served now. -/
def State.reqFree (s : State) (r : DramReq) : Bool := s.dramServed r.level r.at_ r.len r.who
/-- Serve a request: a BAR2 read gives the host its bytes (R346). -/
def State.reqServe (s : State) (r : DramReq) : State :=
  match r with
  | .write a q l => s.dramWriteOpt a l q
  | .read a n z => let x := s.dramRead a n 2 0x48; { x.1 with rdata := x.2.1 ++ zeros z }
/-- Request r waits behind x, of the same requester: BAR2 keeps its order (R346), and others that of requests to one burst; any other passes
(R322). -/
def DramReq.behind (r x : DramReq) : Bool :=
  r.who == x.who && (r.who == 0x48 || (decide (x.at_ / 64 * 64 < r.at_ + r.len) && decide (r.at_ / 64 * 64 < x.at_ + x.len)))
/-- A request of a block that loses nothing by waiting: it is served at once, or waits (R28, R301). -/
def State.dramAsk (s : State) (r : DramReq) : State :=
  if s.reqFree r && !s.dramWait.any r.behind then s.reqServe r else { s with dramWait := s.dramWait ++ [r] }
/-- A write of whole bytes so. -/
def State.dramPut (s : State) (a : Nat) (d : List Byte) (req : Nat) : State := s.dramAsk (.write a req (d.map some))
/-- A BAR2 access waits. -/
def State.bar2Waits (s : State) : Bool := s.dramWait.any fun r => r.who == 0x48
/-- A BAR2 write waits: a doorbell takes effect only after it (R173). -/
def State.bar2Writes (s : State) : Bool := s.dramWait.any fun r => match r with | .write _ q _ => q == 0x48 | .read .. => false
/-- Requests of one level, one of each requester in turn (R29). -/
def takeTurns (l : List DramReq) : List DramReq :=
  (List.range l.length).flatMap fun k =>
    (l.zipIdx.filter fun x => ((l.take x.2).filter fun y => y.who == x.1.who).length == k).map (·.1)
/-- The waiting requests that can be served now are, by level and in turn within it. -/
def State.dramDrain (s : State) : State :=
  ([4, 5, 6].flatMap fun k => takeTurns (s.dramWait.filter fun r => r.level == k)).foldl State.dramAsk { s with dramWait := [] }

end Sys2Proof.Machine
end

