-- ==== Sys2Proof/Machine/PairOps.lean ====
section
/-! DEFINITION. The redundant pair as the other blocks see it: its state (R245), cover and causes (R243, R244), the sending of
Crook messages (R228 to R231), give-up, entry to CLAIM and the hold states of R239. -/

namespace Sys2Proof.Machine

/-! ### State, cover and causes -/

/-- PAIR_STAT.STATE: 1 with PAIR_EN low (R223, R245). -/
def State.pairState (s : State) : Nat := if s.straps.pairEn then s.get pPAIR R.PAIR_STAT_STATE else 1
/-- STATE of the partner's last STATE message. -/
def State.peerState (s : State) : Nat := s.get pPAIR R.PAIR_STAT_PEER_STATE
/-- Move to another state: PG_IRQ_RAW.STATE sets on a change (R245). -/
def State.setPairState (s : State) (v : Nat) : State :=
  if s.get pPAIR R.PAIR_STAT_STATE = v then s
  else
    let left := s.get pPAIR R.PAIR_STAT_STATE == 7
    ((s.set pPAIR R.PAIR_STAT_STATE v).updPair fun p => { p with gaveUp := v != 7 && (p.gaveUp || left) }).cause pPAIR 3
/-- The PAIR page of a pair works: it takes part in Crook. -/
def State.pairOn (s : State) : Bool := s.straps.pairEn && s.working pPAIR
/-- The Crook lanes that are UP with block lock and not fenced, as a mask (R229, R341). -/
def State.crookLanes (s : State) : Nat :=
  (List.range 4).foldl (fun m i => if (s.laneAt (132 + i)).st = 3 && (s.laneAt (132 + i)).block && !s.fenced (pLANE (132 + i)) then m + 2 ^ i else m) 0
/-- Crook is up (R229). -/
def State.crookUp (s : State) : Bool := s.pairOn && s.pair.up
/-- The unit is covered (R244). -/
def State.covered (s : State) : Bool := s.crookUp && s.peerState == 7
/-- While Crook is up the home unit sends its profile selections to the partner (R214). -/
def State.profLeads (s : State) : Bool := s.crookUp && s.straps.home
/-- While Crook is up the partner makes no selections of its own (R214). -/
def State.profFollows (s : State) : Bool := s.crookUp && !s.straps.home
/-- The home unit leads the line-indexed changes: own state 4 to 7 with Crook up (R236, R239; log 121). -/
def State.leads (s : State) : Bool := s.crookUp && s.straps.home && 4 ≤ s.pairState
/-- The partner follows the home unit (R236, R239). -/
def State.follows (s : State) : Bool := s.crookUp && !s.straps.home && 4 ≤ s.peerState && s.peerState ≤ 7

/-- A head lane without block lock, or fenced with 0x20 or 0x21, or whose channel is (R132, R243). -/
def State.laneCounts (s : State) (h : Nat) : Bool :=
  !(s.laneAt h).block || [pLANE h, pHEAD h].any fun p =>
    s.fenced p && (s.get p R.PG_FENCE_REASON == 0x20 || s.get p R.PG_FENCE_REASON == 0x21)
/-- Cause 5 of bar b (R243). -/
def State.lanesLost (s : State) (b : Nat) : Bool :=
  9 ≤ ((List.range 16).filter fun t => s.laneCounts (16 * b + t)).length
/-- Persistent cause c is present (R243). -/
def State.persists (s : State) (c : Nat) : Bool :=
  if c = 0 then s.pair.cause0
  else if c = 3 then (List.range 8).any fun b => s.fenced (pDEC b) || s.fenced (pPIPE b) || s.fenced (pLINE b)
  else if c = 4 then s.pair.pllLost || (List.range 8).any fun b => s.fenced (pLINE b) && (s.lineAt b).srcLost
  else if c = 5 then (List.range 8).any s.lanesLost
  else if c = 6 then s.flag pTHERM R.THERM_STAT_TRIP
  else false
/-- PAIR_CAUSE (R243, R250). -/
def State.causeMask (s : State) : Nat := (List.range 10).foldl (fun m c => if s.persists c then m + 2 ^ c else m) 0

/-! ### Messages (R228 to R231) -/

/-- The body of a message: MSEQ, HOME and UNIT, payload from byte 8, unused bytes 0, CRC in the last four bytes, in whole
data blocks of which there are at least two (R227, R228). -/
def crookBody (s : State) (mseq : Nat) (payload : List Byte) : List Byte :=
  let head := leBytes 4 mseq ++ [BitVec.ofNat 8 (16 * b2n s.straps.home + s.straps.unitId.toNat)] ++ zeros 3 ++ payload
  let n := max 16 ((head.length + 4 + 7) / 8 * 8)
  let b := head ++ zeros (n - 4 - head.length)
  b ++ leBytes 4 (crc32 b)
/-- The number of the next message; numbers wrap at 32 bits (R228). -/
def State.nextMseq (s : State) : Nat := (s.pair.mseq + 1) % 2 ^ 32
/-- A message of the type is carried: while a unit reads JOIN only JOIN and JOINDATA are, of the commands (R234). -/
def State.carries (s : State) (typ : Nat) : Bool := !(s.pairState == 3 || s.peerState == 3) || typ == 0x10 || typ == 0x11
/-- Send a plain message once on the lanes that hold block lock (R229, R230). -/
def State.crookSend (s : State) (typ : Nat) (payload : List Byte) : State :=
  if !s.pairOn then s
  else
    let m := s.nextMseq
    let t := s.updPair fun p => { p with mseq := m }
    if s.crookLanes = 0 then t else t.emit (.crook typ (crookBody s m payload))
/-- Send a command, kept until acknowledged (R231); JOIN and JOINDATA apart, none is carried while a unit reads JOIN (R234). -/
def State.crookCommand (s : State) (typ : Nat) (payload : List Byte) : State :=
  if !s.pairOn || !s.carries typ then s
  else
    let m := s.nextMseq
    let t := s.crookSend typ payload
    t.updPair fun p => { p with cmds := p.cmds ++ [⟨m, typ, payload, 1, s.tick⟩] }

/-! ### Causes and claims (R243 to R245) -/

/-- LINE_SEQ of each bar, four bytes each. -/
def State.lineSeqs (s : State) : List Byte := (List.range 8).flatMap fun b => leBytes 4 (s.get (pLINE b) R.LINE_SEQ)

/-- Record 0x72 and PAIR_LAST for cause c of bar b with the given code (R243, R244). -/
def State.giveRecord (s : State) (c code b : Nat) (uncov : Bool) : State :=
  (((s.err pPAIR 0x72 c (s.get (pLINE b) R.LINE_SEQ) b).setFlag pPAIR R.PAIR_LAST_UNCOV uncov).set pPAIR
    R.PAIR_LAST_CODE code).set pPAIR R.PAIR_LAST_CAUSE c

/-- A cause arises: in CLAIM a covered unit sends GIVEUP and drops its claim bar by bar, an uncovered one records it, cause 0 apart; in
MATCH and HOLD an event restarts the run and a persistent cause leads to GIVEN (R243 to R245). One give-up at a time
(R384). -/
def State.pairCause (s : State) (c code b : Nat) : State :=
  if !s.pairOn then s
  else
    let st := s.pairState
    if st = 7 then
      if s.pair.giving ≠ 0 then s
      else if s.covered || c = 0 then
        let t := (s.giveRecord c code b !s.covered).incSat pPAIR R.PAIR_GIVE_CNT
        let t := (t.cause pPAIR 4).crookSend 0x06 ([BitVec.ofNat 8 c] ++ zeros 3 ++ s.lineSeqs)
        let m := s.runningBars
        if m = 0 then t.setPairState 4 else t.updPair fun p => { p with giving := m }
      else s.giveRecord c code b true
    else if st = 5 ∨ st = 6 then
      let t := s.updPair fun p => { p with runs := [] }
      t.setPairState (if c = 0 ∨ (3 ≤ c ∧ c ≤ 6) then 4 else 5)
    else s

/-- The lowest persistent cause that is present in t and was not in s arises (R243). -/
def State.pairRise (s t : State) (code b : Nat) : State :=
  if !t.straps.pairEn then t
  else match (List.range 10).find? fun c => t.persists c && !s.persists c with
    | some c => t.pairCause c code b
    | none => t

/-- Enter CLAIM: the level rises at each bar's next boundary; entries but the first since EN was set are counted
(R245, R250). -/
def State.enterClaim (s : State) : State :=
  let t := if s.pair.everClaim then s.incSat pPAIR R.PAIR_RET_CNT else s
  (t.updPair fun p => { p with everClaim := true, giving := 0 }).setPairState 7

/-- Leave the pair states for OFF: EN 0, soft reset or a fence (R245, R249). The claim drops at the next boundaries; the
message numbers, numbers seen and the PLL's state live on. -/
def State.pairOff (s : State) : State :=
  let t := s.setPairState 0
  t.updPair fun p =>
    { mseq := p.mseq, seen := p.seen, rx := p.rx, ack := p.ack, anyLine := p.anyLine, claimBars := p.claimBars,
      pllLost := p.pllLost, cause0 := p.cause0, gaveUp := p.gaveUp, chainOwn := p.chainOwn, jobLine := p.jobLine }

/-- Crook goes down, recorded with a SRC; the joined LINE pages stay running and stay joined, and the DIGESTs held wait on for their
counterparts (R229, R231, R241, R245, R248). -/
def State.crookFall (s : State) (src : Nat := 0) : State :=
  if !s.pair.up then s
  else
    let t := ((s.err pPAIR 0x70 src 0).incSat pPAIR R.PAIR_LOSS_CNT).cause pPAIR 5
    let t := t.updPair fun p => { p with
      up := false, holdAt := [], joinTs := none, tofs := [], joinFailed := none, latched := false, answered := 0 }
    if t.pairState = 3 then (t.updPair fun p => { p with waitSince := s.tick }).setPairState 2
    else if t.pairState = 6 then (t.updPair fun p => { p with runs := [] }).setPairState 5
    else t

/-- An intact message has arrived over a lane that holds block lock: Crook is up, and unacknowledged commands are sent
again (R229, R231). -/
def State.crookRise (s : State) : State :=
  let t := s.updPair fun p => { p with lastRx := s.tick }
  if t.pair.up then t
  else
    let t := (t.updPair fun p => { p with up := true }).cause pPAIR 5
    (t.pair.cmds.filter fun c => t.carries c.typ).foldl (fun u c =>
      let u := if u.crookLanes = 0 then u else u.emit (.crook c.typ (crookBody u c.mseq c.body))
      (u.incWrap pPAIR R.PAIR_RETRY_CNT).updPair fun p => { p with cmds := p.cmds.map fun x =>
        if x.mseq = c.mseq then { x with sends := 1, lastSent := u.tick } else x }) t

/-- PAIR_MARGIN.LINES; 0 acts as 1 (R250). -/
def State.pairMargin (s : State) : Nat := max 1 (s.get pPAIR R.PAIR_MARGIN)
/-- The later of two line indices, by signed 32-bit difference. -/
def laterLine (a b : Nat) : Nat := if 0 ≤ diff32 a b then a else b
/-- The partner's LINE_SEQ of bar b from its last STATE; the own one until a STATE has come. -/
def State.peerLine (s : State) (b : Nat) : Nat := s.pair.peerLines.getD b (s.get (pLINE b) R.LINE_SEQ)
/-- The safe line of bar b (R237). -/
def State.safeLine (s : State) (b : Nat) : Nat :=
  (laterLine (s.get (pLINE b) R.LINE_SEQ) (s.peerLine b) + 1 + s.pairMargin) % 2 ^ 32

/-- A command arrived late for line ℓ of bar b (R237). -/
def State.lateCommand (s : State) (b line : Nat) : State :=
  (((s.incSat pPAIR R.PAIR_LATE_CNT).err pPAIR 0x71 5 line b).cause pPAIR 7).pairCause 8 0x71 b

/-- The claim byte of the unit, HEADC_CLAIM (R224). -/
def State.claimLevel (s : State) : Nat :=
  if s.straps.pairEn then (if s.pairState = 7 then (if s.straps.home then 12 else 8) else 0)
  else if s.pair.anyLine then 12 else 0
/-- The claim byte of the unit with its level. -/
def State.claimByte (s : State) : Nat := 16 * s.claimLevel + s.straps.unitId.toNat

/-! ### The boundary of a bar, as PAIR sees it (R223, R225, R239, R245) -/

/-- Bar b has taken the give-up in progress, at a boundary or because it stopped; the last one leads to GIVEN (R225, R245). -/
def State.giveDone (s : State) (b : Nat) : State :=
  let m := setBit s.pair.giving b false
  let t := s.updPair fun p => { p with giving := m }
  if s.pair.giving != 0 && m == 0 then t.setPairState 4 else t
/-- The claim state of bar b after its boundary: a decision made before it applies. -/
def State.pairBoundary (s : State) (b : Nat) : State :=
  let s := s.updPair fun p => { p with anyLine := true }
  if !s.straps.pairEn then s
  else
    let gave := s.pair.giving == 2 ^ b
    let s := (s.updPair fun p => { p with claimBars := setBit p.claimBars b (s.pairState == 7 && p.giving == 0) }).giveDone b
    if gave then s
    else if s.pairState = 4 ∧ s.causeMask = 0 ∧ s.pairOn then
      (s.updPair fun p => { p with runs := [] }).setPairState 5
    else s

/-- EXTEST, CLAMP or HIGHZ is in force: the boundary cells control the outputs, and no claim is sent (R401). -/
def State.tapHolds (s : State) : Bool := s.tap == .extest || s.tap == .clamp || s.tap == .highz
/-- The frames of bar b carry the unit's claim (R224, R225). -/
def State.barClaims (s : State) (b : Nat) : Bool :=
  !s.tapHolds && if s.straps.pairEn then bit s.pair.claimBars b else s.pair.anyLine

end Sys2Proof.Machine
end

