-- ==== Sys2Proof/Machine/JobOps.lean ====
section
/-! DEFINITION. The job engines (R173, R174, R177 to R182, R409) and the job records (R184, R185): fetching a job descriptor,
the mapping of a bar line to its job, and the runs of lost lines. -/

namespace Sys2Proof.Machine

/-- JOB_ID and FIRST_Q of idle lines (R184). -/
def idleId : Nat := 0xFFFFFFFF

/-! ### Job records (R184, R185) -/

/-- The ring size of DMAC_JREC_CFG (R186). -/
def State.jrecSize (s : State) : Nat := 2 ^ max 10 (min 24 (s.get pDMAC R.DMAC_JREC_CFG_LOG2))
/-- Write a record into the ring, or count it lost (R185). -/
def State.putRecord (s : State) (r : List Byte) : State :=
  let wr := s.get pDMAC R.DMAC_JREC_WR
  let nx := (wr + 32) % s.jrecSize
  if s.flag pDMAC R.DMAC_JREC_CFG_EN && nx != s.get pDMAC R.DMAC_JREC_RD then
    let base := s.get64 pDMAC R.DMAC_JREC_BASE_LO R.DMAC_JREC_BASE_HI
    ((s.dramPut (base + wr) r 0x4E).set pDMAC R.DMAC_JREC_WR nx).cause pDMAC 5
  else (s.incSat pDMAC R.DMAC_JREC_LOST).cause pDMAC 6
/-- The tile of a run of lines that were decoded after their boundaries; its record has 0xFF, as for the whole bar (R80, R184). -/
def passedTile : Nat := 0xFE
/-- The record of a closed run of bar b (R184). -/
def Run.record (r : Run) (b ns : Nat) (contNext : Bool) : List Byte :=
  leBytes 4 r.jobId ++ [BitVec.ofNat 8 r.code, BitVec.ofNat 8 b, BitVec.ofNat 8 (if r.tile = passedTile then 0xFF else r.tile),
    BitVec.ofNat 8 (2 * b2n contNext + b2n r.contPrev)] ++ leBytes 4 r.firstQ ++ leBytes 4 r.lines ++
    leBytes 4 r.firstL ++ leBytes 2 r.segMask ++ zeros 2 ++ leBytes 8 ns
/-- Close the open run of a code and tile. -/
def State.closeRun (s : State) (b code tile : Nat) (contNext : Bool) : State :=
  match (s.jobAt b).runs.find? fun r => r.code == code && r.tile == tile with
  | none => s
  | some r =>
    (s.updJob b fun j => { j with
      runs := j.runs.filter fun x => !(x.code == code && x.tile == tile)
      carry := if contNext then j.carry ++ [(code, tile)] else j.carry }).putRecord (r.record b s.cNs contNext)

/-- A line issued, as the records see it: ℓ, JOB_ID, q, and whether it is its job's last. -/
structure JobLine where
  line : Nat
  jobId : Nat
  q : Nat
  last : Bool
  deriving DecidableEq, Repr

/-- Line x of bar b is, or is not, affected by a code on a tile: open, extend or close the run (R184). The lines
between two jobs make a run of their own (log 24). -/
def State.runLine (s : State) (b code tile : Nat) (aff : Bool) (segs : Nat) (x : JobLine) : State :=
  let open1 := (s.jobAt b).runs.find? fun r => r.code == code && r.tile == tile
  let s := match open1 with
    | some r =>
      if !aff then s.closeRun b code tile false
      else if (r.firstQ == idleId) != (x.q == idleId) || r.jobId != x.jobId then s.closeRun b code tile true
      else s
    | none => s
  let s :=
    if !aff then s.updJob b fun j => { j with carry := j.carry.filter fun c => c != (code, tile) }
    else match (s.jobAt b).runs.find? fun r => r.code == code && r.tile == tile with
      | some _ => s.updJob b fun j => { j with runs := j.runs.map fun r =>
          if r.code = code ∧ r.tile = tile then { r with lines := r.lines + 1, segMask := r.segMask ||| segs } else r }
      | none => s.updJob b fun j => { j with
          runs := j.runs ++ [⟨x.jobId, code, tile, j.carry.contains (code, tile), x.q, 1, x.line, segs⟩]
          carry := j.carry.filter fun c => c != (code, tile) }
  if x.last then s.closeRun b code tile true else s

/-- Codes of segment errors that a decoder records (R184). -/
def decCodes : List Nat := [0x11, 0x30, 0x31]
/-- The whole-bar runs at the boundary that issues line x: underrun, and the decoder errors of the segments it uses. -/
def State.barRuns (s : State) (b : Nat) (undr : Bool) (errs : List (Nat × Nat)) (x : JobLine) : State :=
  let s := s.runLine b 0x32 0xFF undr 0xFFFF x
  decCodes.foldl (fun t c =>
    let m := errs.foldl (fun m e => if e.1 = c then m ||| e.2 else m) 0
    t.runLine b c 0xFF (m != 0) m x) s
/-- The codes that a head-channel fence records (R132). -/
def fenceCodes : List Nat := [0x11, 0x20, 0x21, 0x22, 0x51]
/-- The runs of tile t for the line before the present boundary: lost to a fence with a code, or sent (R131, R184). -/
def State.tileRuns (s : State) (b t : Nat) (lost : Option Nat) : State :=
  match (s.jobAt b).prev with
  | none => s
  | some p =>
    let runs := ((s.jobAt b).runs.filter fun r => r.tile == t).map (·.code)
    let ended := ((s.jobAt b).carry.filter fun e => e.2 == t).map (·.1)
    let codes := runs ++ ended.filter fun c => !runs.contains c
    (match lost with
      | some c => if codes.contains c then codes else codes ++ [c]
      | none => codes).foldl (fun u c => u.runLine b c t (lost == some c) 0xFFFF ⟨p.1, p.2.1, p.2.2.1, p.2.2.2⟩) s

/-! ### Jobs (R177, R178) -/

/-- The line after the job's last. -/
def Job.after (j : Job) : Nat := (j.first + j.total) % 2 ^ 32
/-- The place of line ℓ in the job, counted on from the last line of it that was issued: a job may be longer than the 32-bit scale
of line indices (R178). -/
def Job.place (j : Job) (line : Nat) : Int := j.lastQ + diff32 line ((j.first + j.lastQ) % 2 ^ 32)
/-- The job prints line ℓ as its line q. -/
def Job.qOf (j : Job) (line : Nat) : Option Nat :=
  let d := j.place line
  if 0 ≤ d ∧ d < (j.total : Int) then some d.toNat else none

/-- Job engine b runs: its enable is 1 and the DMAC page runs (R409). -/
def State.jobWanted (s : State) (b : Nat) : Bool := s.working pDMAC && bit (s.get pDMAC R.DMAC_CTRL) b

/-- Park with JSTAT.JERR on a descriptor that failed (R182). -/
def State.jobFail (s : State) (b addr code : Nat) (taken : Bool) : State :=
  ((s.err64 pDMAC code b addr).updJob b fun j => { j with
    parked := true, jerr := true, tail := some addr, failed := !taken, next := none }).cause pDMAC 8

/-- The engine passes over a job that is not printed (R180, R181): it follows its NEXT, or parks on it. -/
def State.jobSkip (s : State) (b addr ctrl : Nat) : State :=
  (s.err64 pDMAC 0x31 b addr).updJob b fun j =>
    if bit ctrl 0 then { j with parked := true, jerr := false, tail := some addr, failed := false, next := none }
    else { j with parked := false, jerr := false, tail := none, next := some (field ctrl 32 32 * 64) }

/-- The job of a descriptor's 64 bytes at an address, with its first line (R177, R178). -/
def jobOf (d : List Byte) (addr first : Nat) : Job :=
  let c := leAt d 0 8
  { addr := addr, next := field c 32 32 * 64, last := bit c 0, profEn := bit c 27, prof := field c 24 3, start := bit c 19,
    fast := bit c 18 && !bit c 17, dot := bit c 17, maskMode := bit c 5, liveEn := bit c 4, baseEn := bit c 3,
    irqDone := bit c 2, irqStart := bit c 1, baseAddr := leAt d 8 8, repLines := leAt d 16 4,
    repCount := max 1 (leAt d 20 4), jobId := leAt d 28 4, livePos := leAt d 32 8, maskAddr := leAt d 40 8,
    maskFixed := leAt d 48 2, first := first }

/-- A descriptor passes the checks of R164 as they apply to R177 (R182; log 25). -/
def State.jobGood (s : State) (d : List Byte) : Bool :=
  let c := leAt d 0 8
  field c 28 4 == 0 && field c 20 4 == 0 && field c 6 11 == 0 && (d.drop 50).all (· == 0) && leAt d 16 4 != 0
    && leAt d 8 8 % 64 == 0 && leAt d 32 8 % 64 == 0 && leAt d 40 8 % 2 == 0
    && (!bit c 3 || leAt d 8 8 < s.dramSize) && (!(bit c 4 && bit c 5) || leAt d 40 8 < s.dramSize)

/-- The lines of a new job that have passed already are one run of 0x32 against it, and the job is late (R180). -/
def State.jobLate (s : State) (b : Nat) (j : Job) : State :=
  match (s.jobAt b).prev with
  | none => s
  | some p =>
    if diff32 p.1 j.first < 0 then s
    else
      let n := min ((diff32 p.1 j.first).toNat + 1) j.total
      let s := s.closeRun b 0x32 0xFF false
      let s := s.updJob b fun e => { e with
        runs := e.runs ++ [⟨j.jobId, 0x32, 0xFF, e.carry.contains (0x32, 0xFF), 0, n, j.first, 0xFFFF⟩]
        jobs := e.jobs.map fun x => if x.addr = j.addr ∧ x.first = j.first then { x with late := true } else x }
      (if n = j.total then s.closeRun b 0x32 0xFF true else s).cause pDMAC 7

/-- Take the descriptor at an address (R177, R180 to R182); the read waits for DRAM (R301). -/
def State.jobTake (s : State) (b addr : Nat) : State :=
  if s.dramReady && s.dramSize ≤ addr then s.jobFail b addr 0x31 false
  else if !s.chainFree addr 64 0x4C then s.updJob b fun e => { e with next := some addr, parked := false, jerr := false }
  else
    let r := s.dramRead addr 64 3 0x4C
    let d := r.2.1
    let c := leAt d 0 8
    let e := r.1.jobAt b
    if !r.2.2 then r.1.jobFail b addr 0x11 false
    else if !s.jobGood d then r.1.jobFail b addr 0x31 false
    else match bit c 19, e.chainEnd with
      | false, none => r.1.jobSkip b addr c
      | start, prev =>
        let l0 := leAt d 24 4
        let first := if start then l0 else prev.getD l0
        if diff32 first (prev.getD first) < 0 then r.1.jobSkip b addr c
        else
          let j := jobOf d addr first
          (r.1.updJob b fun e => { e with
            jobs := e.jobs ++ [j], chainEnd := some j.after, tail := some addr, lastGroup := false, parked := false,
            jerr := false, failed := false, next := none }).jobLate b j

/-- Read a control word again at the end of the job's work or at a doorbell (R174, R182). -/
def State.jobReread (s : State) (b addr : Nat) : State :=
  let r := s.dramRead addr 8 3 0x4C
  let c := leNat r.2.1
  let t := r.1.updJob b fun e => { e with dbPend := false, redo := false }
  if !r.2.2 then t.jobFail b addr 0x11 true
  else if bit c 0 then t.updJob b fun e => { e with parked := true, jerr := false, failed := false }
  else (t.updJob b fun e => { e with parked := false, jerr := false }).jobTake b (field c 32 32 * 64)

/-- The engine's next fetch: the head, the descriptor after a job whose last line group has started (R182), or what a doorbell asks a
parked engine to read again (R174). -/
def State.jobFetch (s : State) (b : Nat) : State :=
  let e := s.jobAt b
  if !e.running then s
  else match e.next, e.tail with
    | some a, _ => (s.updJob b fun e => { e with next := none }).jobTake b a
    | none, some a =>
      if !s.chainFree a 8 0x4C then s
      else if e.parked then
        (if !e.redo then s
         else if e.failed then (s.updJob b fun e => { e with parked := false, jerr := false, redo := false }).jobTake b a
         else s.jobReread b a)
      else if e.lastGroup then s.jobReread b a
      else s
    | none, none => s

/-- A doorbell (R174, R182): a parked engine reads its tail, or the failed descriptor, again; a running one notes it. -/
def State.jobDoorbell (s : State) (b : Nat) : State :=
  let e := s.jobAt b
  if !e.running then s
  else if e.parked then (s.updJob b fun e => { e with redo := true }).jobFetch b
  else s.updJob b fun e => { e with dbPend := true }

/-- The slot of sample line m of a job. -/
def DecSt.slotOf (d : DecSt) (first m : Nat) : Option Slot := d.slots.find? fun x => x.first == first && x.m == m
/-- The decoder errors of a sample line that had no slot, since each of its lines had been issued, go to the job records (R80, R184). -/
def State.passRuns (s : State) (b : Nat) (j : Job) (m : Nat) : State :=
  let l := (s.decAt b).passErrs
  if ((s.decAt b).slotOf j.first m).isSome then s
  else (List.range j.r).foldl (fun t k =>
    let q := j.r * m + k
    decCodes.foldl (fun t c =>
      let segs := l.foldl (fun x e => if e.1 = c then x ||| e.2 else x) 0
      t.runLine b c passedTile (segs != 0) segs ⟨(j.first + q) % 2 ^ 32, j.jobId, q, q + 1 == j.total⟩) t)
    (s.updDec b fun d => { d with passErrs := [] })
/-- The line that decoder b works on goes with its job: the errors it has are recorded (R80, R184). -/
def State.passFlush (s : State) (b : Nat) : State :=
  match (if (s.decAt b).opened && !(s.decAt b).passErrs.isEmpty then s.decJob b else none) with
  | some j => s.passRuns b j (s.decAt b).m
  | none => s

/-- The decoder discards every line it has not handed over and every job it knew (R409). DEC_LINE stays (log 134). -/
def State.decDiscard (s : State) (b : Nat) : State :=
  s.updDec b fun d => { d with slots := [], passErrs := [], staged := [], started := false, opened := false, jobIdx := 0, m := 0, laid := false }

/-- Job engine b starts (R172, R409). -/
def State.jobStart (s : State) (b : Nat) : State :=
  let head := s.get64 pDMAC (jf R.DMAC_JHEAD_LO b) (jf R.DMAC_JHEAD_HI b)
  let s := (s.set64 pDMAC (jf R.DMAC_WPOS_LO b) (jf R.DMAC_WPOS_HI b) 0).set64 pDMAC (jf R.DMAC_RPOS_LO b)
    (jf R.DMAC_RPOS_HI b) 0
  (s.updJob b fun e => { e with
    running := true, parked := false, jerr := false, dbPend := false, redo := false, tail := none,
    failed := false, jobs := [], chainEnd := none, lastGroup := false, curLate := false, next := some head }).jobFetch b
/-- Job engine b stops and forgets its place (R409). -/
def State.jobStop (s : State) (b : Nat) : State :=
  ((s.passFlush b).updJob b fun e => { e with
    running := false, parked := false, jerr := false, dbPend := false, redo := false, tail := none,
    failed := false, jobs := [], chainEnd := none, lastGroup := false, next := none }).decDiscard b
/-- Start and stop the engines whose condition has changed (R409). -/
def State.jobSettle (s : State) : State :=
  s.each (List.range 8) fun t b =>
    if t.jobWanted b && !(t.jobAt b).running then t.jobStart b
    else if !t.jobWanted b && (t.jobAt b).running then t.jobStop b
    else t

/-- The job and q of line ℓ of bar b (R178, R181). -/
def State.jobOfLine (s : State) (b line : Nat) : Option (Job × Nat) :=
  (s.jobAt b).jobs.findSome? fun j => (j.qOf line).map fun q => (j, q)
/-- The job boundary line: the job's first printed line (R178, R180). -/
def isBoundary (j : Job) (q : Nat) : Bool := q == 0 || !j.begun

/-- Take the line that boundary ℓ issues into the engine: the registers of the job at the pipeline, idle lines, JSTART,
and the jobs that have ended (R178, R180, R181, R186). -/
def State.jobLine (s : State) (b line : Nat) : State :=
  let s := match s.jobOfLine b line with
    | none => (s.incSat pDMAC (jf R.DMAC_IDLE_CNT b)).updJob b fun e => { e with idleLast := true }
    | some (j, q) =>
      let s := (s.set pDMAC (jf R.DMAC_JQ b) q).updJob b fun e => { e with
        idleLast := false
        jobs := e.jobs.map fun x => if x.addr = j.addr ∧ x.first = j.first then { x with lastQ := q } else x }
      if !isBoundary j q then s
      else
        let s := ((s.set pDMAC (jf R.DMAC_JCUR_LO b) j.addr).set pDMAC (jf R.DMAC_JCUR_HI b) (j.addr / 2 ^ 32)).set pDMAC
          (jf R.DMAC_JID b) j.jobId
        let s := s.updJob b fun e => { e with
          curLate := j.late
          curDot := some j.dot
          jobs := e.jobs.map fun x => if x.addr = j.addr ∧ x.first = j.first then { x with begun := true } else x }
        if j.irqStart then s.cause pDMAC 3 else s
  s

/-- The jobs whose last line is ℓ or earlier leave the engine; JDONE after the last line (R177; log 26). The decoder errors of a line that
is decoded too late go to their job's records first (R80, R184). -/
def State.jobRetire (s : State) (b line : Nat) : State :=
  let e := s.jobAt b
  let gone := e.jobs.takeWhile fun j => decide ((j.total : Int) ≤ j.place line + 1)
  let k := gone.length
  if k = 0 then s
  else
    let s := if gone.any (·.irqDone) then s.cause pDMAC 4 else s
    let s := if (s.decAt b).jobIdx < k then s.passFlush b else s
    let s := s.updJob b fun e => { e with jobs := e.jobs.drop k, lastGroup := e.lastGroup || e.jobs.length == k }
    s.updDec b fun d => if d.jobIdx < k then { d with jobIdx := 0, started := false, opened := false } else { d with jobIdx := d.jobIdx - k }

end Sys2Proof.Machine
end

