-- ==== Sys2Proof/Machine/Fence.lean ====
section
/-! DEFINITION. Lane states (R330, R334, R339), failover of a line generator (R157), what stops when a block stops, and fences
(R47, R380, R381, R384). -/

namespace Sys2Proof.Machine

/-! ### Lane states -/

/-- The telemetry timer of head channel h stands in IDLE and EXIT, and starts afresh at the next UP (R335). -/
def State.tlmLane (s : State) (h st : Nat) : State :=
  if 128 ≤ h then s
  else if st = 4 ∨ st = 5 then s.updHead h fun x => { x with tlmStop := true }
  else if st = 3 ∧ (s.headAt h).tlmStop then s.updHead h fun x => { x with tlmStop := false, tlmSince := s.tick }
  else s
/-- A lane that a LANE calibration asked gives no result: it counts as disagreeing (R337). -/
def State.scanLost (s : State) (l : Nat) : State :=
  let o := s.laneAt l
  (if o.calScan || o.calRuns then { s with calst := { s.calst with abandoned := s.calst.abandoned ++ [l] } } else s).updLane l
    fun x => { x with scan := none, calScan := false, calRuns := false }
/-- Move lane l to a state: UP and DOWN causes, a scan that is abandoned (R330, R337). -/
def State.setLane (s : State) (l st : Nat) : State :=
  let o := s.laneAt l
  let t := (s.updLane l fun x => { x with st := st }).tlmLane l st
  if o.st = st then t
  else if st = 3 then t.cause (pLANE l) 3
  else if o.st = 3 then (t.cause (pLANE l) 4).scanLost l
  else t
/-- Block lock is lost or given up, or the position changes: the run of valid headers begins again (R331; log 14). -/
def State.dropLock (s : State) (l : Nat) : State :=
  s.updLane l fun x => { x with block := false, good := 0, bad := [] }
/-- Blocks of lane l in so many ticks: one in three at 3.4375 Gbaud, five in two at 25.78125 Gbaud (R110, R227). -/
def blocksIn (l ticks : Nat) : Nat := if l < 128 then ticks / 3 else 5 * ticks / 2

/-- Commanded electrical idle of a head lane begins or ends, with the TRAIN burst of its fast exit (R334). -/
def State.laneIdle (s : State) (l : Nat) : State :=
  let st := (s.laneAt l).st
  if 128 ≤ l || s.resetting (pLANE l) || st = 0 then s
  else
    let want := s.flag (pLANE l) R.LANE_CTRL_EIDLE && !s.enabled (pHEAD l)
    if want && st != 4 then (s.setLane l 4).dropLock l
    else if !want && st = 4 then ((s.setLane l 5).updLane l fun x => { x with exitAt := s.tick }).emit
      (.train l (max 64 (s.get (pLANE l) R.LANE_EIDLE)))
    else s
/-- Maintenance mode of a Crook or feed lane begins or ends (R339). -/
def State.laneMaint (s : State) (l : Nat) : State :=
  let st := (s.laneAt l).st
  if l < 132 || s.resetting (pLANE l) then s
  else
    let want := s.flag (pLANE l) R.LANE_CTRL_MAINT && s.enabled (pLANE l)
    if want && st != 6 then (s.setLane l 6).dropLock l
    else if !want && st = 6 then s.setLane l 1
    else s
/-- PG_CTRL.EN of a lane changes (R328, R330). -/
def State.laneEnable (s : State) (l : Nat) (en : Bool) : State :=
  if en then ((s.setLane l 1).laneIdle l).laneMaint l else (s.setLane l 0).dropLock l

/-- The lane is UP and hands its block the blocks it receives (R330, R341). -/
def State.laneUp (s : State) (l : Nat) : Bool := (s.laneAt l).st == 3 && !s.fenced (pLANE l)

/-! ### What a bar's line generator carries with it -/

/-- The pages of bar b whose soft reset waits for its line boundary (R37). -/
def barPages (b : Nat) : List Nat :=
  [pDEC b, pPIPE b] ++ (List.range 16).flatMap fun t => [pHEAD (16 * b + t), pLANE (16 * b + t)]
/-- A waiting soft reset becomes due: SOFT_RESET_START begins it (R37; log 21). -/
def State.markDue (s : State) (p : Nat) : State :=
  if s.srsts.has p then
    let r := s.srsts.getD p {}
    if r.running then s else { s with srsts := s.srsts.put p { r with due := true } }
  else s
/-- The first line of bar b that a channel fenced now does not send: the last line issued (R131, R132). -/
def State.firstUnsent (s : State) (b : Nat) : Nat :=
  match (s.jobAt b).prev with
  | some p => p.1
  | none => (s.get (pLINE b) R.LINE_SEQ + 1) % 2 ^ 32

/-! ### Fences -/

/-- A DMA channel is cut off: what staging holds is discarded and counted, the state is IDLE (R160, R167). -/
def State.dmaStop (s : State) (c : Nat) : State :=
  let d := s.dmaAt c
  (s.addSat (pDMA c) R.DMA_DISC_CNT (d.kept.length + d.staging.length + d.tag.length)).updDma c fun _ => {}

/-- HEAD h fences (R131, R132): the channel sends no frame from now on but those in flight, which complete (R17, R131), or which its
lane's own fence has cut (R341). -/
def State.headStops (s : State) (h reason : Nat) : State :=
  (s.set (pHEAD h) R.HEAD_FENCE_LINE (s.firstUnsent (h / 16))).updHead h fun x => { x with
    lostCode := some reason, judge := false, hotNow := false, fenceDue := none }
/-- The first line that head channel h does not send where its lane fences: that of a frame that has not started (R341). -/
def State.firstCut (s : State) (h : Nat) : Nat :=
  match (s.headAt h).ready with
  | x :: _ => x.tl.line
  | [] => s.firstUnsent (h / 16)
/-- Lane h fences: a frame or FIRE that has started completes, any other is not sent (R341), and the lines of such frames are lost
(R184). -/
def State.laneCut (s : State) (h reason : Nat) : State :=
  let s := (s.headAt h).ready.foldl (fun t x =>
    t.runLine (h / 16) reason (h % 16) true 0xFFFF ⟨x.tl.line, x.tl.jobId, x.tl.recQ, x.tl.last⟩) s
  s.updHead h fun x => { x with ready := [], cur := x.cur.map fun c => { c with noFire := true } }
/-- FENCED and the other flags of a fence at this tick. -/
def State.fenceMark (s : State) (p reason : Nat) : State :=
  let t := s.fenceFlags p reason
  { t with fenceAt := t.fenceAt.put p s.tick }
/-- The page fenced at this tick. -/
def State.fencedNow (s : State) (p : Nat) : Bool := s.fenced p && s.fenceAt.has p && s.fenceAt.getD p 0 == s.tick
/-- A fence that waited for the line in flight takes head channel h (R17, R132). -/
def State.headDue (s : State) (h : Nat) : State :=
  match (s.headAt h).fenceDue with
  | some r => if s.fenced (pHEAD h) then s else (s.fenceMark (pHEAD h) r).headStops h r
  | none => s
/-- A fence that waited for the line in flight takes PIPE b (R17, R381). -/
def State.pipeDue (s : State) (b : Nat) : State :=
  match (s.pipeAt b).fenceDue with
  | some r =>
    let t := s.updPipe b fun x => { x with fenceDue := none }
    if s.fenced (pPIPE b) then t else s.pairRise (t.fenceMark (pPIPE b) r) r b
  | none => s
/-- A frame of head channel h whose period has begun has not been sent with its FIRE. -/
def State.headFlight (s : State) (h : Nat) : Bool := (s.headAt h).cur.isSome || !(s.headAt h).ready.isEmpty
/-- The line of page p in flight has completed while LINE does not run: a fence that waited for it comes now. -/
def State.flightOver (s : State) (p : Nat) : State :=
  match blkOf p with
  | some (.head, h) => if s.lineRuns (h / 16) || s.headFlight h then s else s.headDue h
  | some (.pipe, b) => if s.lineRuns b || (s.pipeAt b).work.isSome then s else s.pipeDue b
  | _ => s
/-- LINE b stops running: every soft reset that waits for its boundary is due (R37), it takes a give-up that waits for its boundary
(R225, R245), TRIG0 is low where it is the reference bar (R259), and fences that wait for a boundary come when nothing is in flight. -/
def State.lineStopped (s : State) (b : Nat) : State :=
  let s := (((s.each (barPages b) fun t p => t.markDue p).giveDone b).when (s.camc.refbar == b) fun t =>
    t.each (List.range 2) fun u c => u.updCam c fun x => { x with trig0Until := none })
  s.each (barPages b) State.flightOver

/-- What a fence stops beyond the block's own work (R132, R249, R273, R297, R341, R380, R409). What it changes on the line path takes
effect at the next boundary of each bar: PIPE takes no further line, HEAD and HEADC send none (R17, R108, R132, R134; log 128). -/
def State.fenceStops (s : State) (b : Blk) (i reason : Nat) : State :=
  match b with
  | .line => s.lineStopped i
  | .head => s.headStops i reason
  | .dma => s.dmaStop i
  | .dmac => s.jobSettle
  | .dec => s.updDec i fun d => { d with panic := false }
  | .pair => s.pairOff
  | .cam => s.updCam i fun c => { c with trig0Pend := [], trig0Until := none, trig1Until := none }
  | .chant => { s with chant := { s.chant with cycleDue := false, bars := 0 } }
  | _ => s

/-- A cause that arises while the soft reset of page p waits or runs: the reset starts, and judges it at its end (R37, R384). A page that
is held in soft reset completes it when it is let go (R367). -/
def State.causeKept (s : State) (p reason : Nat) : State :=
  let r := s.srsts.getD p {}
  let run := r.running || s.held p
  { s with srsts := s.srsts.put p { r with causes := r.causes ++ [reason], running := run, due := !run } }
/-- A further cause in the core cycle of the fence of page p: it is counted, and REASON takes the lowest code (R384). -/
def State.fenceJoin (s : State) (p reason src lo hi : Nat) (count : Bool) : State :=
  let t := if count then s.errCount p reason src lo hi 0 else s
  if reason < t.get p R.PG_FENCE_REASON then t.set p R.PG_FENCE_REASON reason else t
/-- Fence a page with one reason, its error recorded with a source and an address unless the failure itself recorded it
(R40, R47, R380, R381). A page whose soft reset waits or runs judges the cause when the reset completes (R384); a page that is fenced
keeps its registers (R48), but for a cause of the same core cycle. -/
def State.fenceOne (s : State) (p reason src lo : Nat) (hi : Nat := 0) (count : Bool := true) : State :=
  match blkOf p with
  | none => s
  | some (b, i) =>
    if neverFences b i then s
    else if s.fenced p then (if s.fencedNow p then s.fenceJoin p reason src lo hi count else s)
    else if s.srsts.has p || s.held p then s.causeKept p reason
    else
      let t := ((if count then s.err p reason src lo hi else s).fenceMark p reason).fenceStops b i reason
      s.pairRise t reason (match b with | .dec | .pipe | .line => i | .head => i / 16 | .lane => i / 16 % 8 | _ => 0)

/-- The bar encoder or master that line generator b reads (R150): 0 P0, 1 P1, 2 P(2 + b). -/
def srcChannel (b src : Nat) : Nat := if src = 2 then 2 + b else if src = 1 then 1 else 0

/-- Line generator b goes over to the other master: windows start afresh on its count (R156, R157). -/
def State.failOver (s : State) (b : Nat) : State :=
  let other := if (s.lineAt b).src = 0 then 1 else 0
  (s.updLine b fun l => { l with
    src := other, failedOver := true, strSkip := true, strDue := [],
    strBase := s.get (pPOS other) R.POS_CNT }).cause (pLINE b) 7

/-- The source of line generator b is fenced (R157): it continues on the other master, or fences with the reason. -/
def State.sourceLost (s : State) (b reason : Nat) : State :=
  let src := (s.lineAt b).src
  if (s.lineAt b).failover && src != 2 && !s.fenced (pPOS (if src = 0 then 1 else 0)) then s.failOver b
  else ((s.updLine b fun l => { l with srcLost := true }).fenceOne (pLINE b) reason 0 (s.get (pLINE b) R.LINE_SEQ))

/-- Head lane l has fenced: its frames not started are cut, and its head channel fences in the same core cycle (R341). -/
def State.laneFences (s : State) (l reason : Nat) : State :=
  let first := s.firstCut l
  let t := s.laneCut l reason
  let u := t.fenceOne (pHEAD l) reason 0 first
  if u.fenced (pHEAD l) && !s.fenced (pHEAD l) then u.set (pHEAD l) R.HEAD_FENCE_LINE first else u

/-- Fence a page and what follows from it on other pages: a lane's head channel (R341) and the line generators that read
a position channel (R157). -/
def State.fence (s : State) (p reason src lo : Nat) (hi : Nat := 0) (count : Bool := true) : State :=
  let t := s.fenceOne p reason src lo hi count
  if t.fencedNow p && (!s.fenced p || s.fencedNow p) then
    match blkOf p with
    | some (.lane, l) => if l < 128 then t.laneFences l reason else t
    | some (.pos, n) =>
      if s.fenced p then t
      else t.each (List.range 8) fun u b =>
        if u.lineRuns b && srcChannel b (u.lineAt b).src == n then u.sourceLost b reason else u
    | _ => t
  else t

/-- Fence page p for causes of its own; where a line is in flight on it, at the bar's next boundary (R17). -/
def State.fenceFlight (s : State) (p reason : Nat) : State :=
  let due := fun (o : Option Nat) => some (match o with | some r => min r reason | none => reason)
  let wait := !s.fenced p && !s.srstBusy p
  match blkOf p with
  | some (.head, h) =>
    if wait && s.lineRuns (h / 16) && s.headFlight h && (reason = 0x11 || reason = 0x22 || 0xF0 ≤ reason) then
      s.updHead h fun x => { x with fenceDue := due x.fenceDue }
    else s.fence p reason 0 0 0 false
  | some (.pipe, b) =>
    if wait && s.lineRuns b && s.enabled p && (s.pipeAt b).work.isSome then s.updPipe b fun x => { x with fenceDue := due x.fenceDue }
    else s.fence p reason 0 0 0 false
  | _ => s.fence p reason 0 0 0 false
/-- What PG_ERR_ADDR holds for a code below 0xF0 of a page, by its block's own rule (R136, R158, R159, R340), else the address given. -/
def State.fenceAddr (s : State) (p code addr : Nat) : Nat :=
  if 0xF0 ≤ code then addr
  else match blkOf p with
  | some (.pos, n) => s.get (pPOS n) R.POS_CNT
  | some (.line, b) => s.get (pLINE b) R.LINE_SEQ
  | some (.head, h) => if code = 0x11 then addr else s.firstUnsent (h / 16)
  | some (.lane, l) => l
  | _ => addr

end Sys2Proof.Machine
end

