-- ==== Sys2Proof/Machine/CodecOps.lean ====
section
/-! DEFINITION. The segment-line code (R58 to R71): raw layout, Rice codes, contone and dot blocks, encoding and decoding of
one record. -/

namespace Sys2Proof.Machine

/-! ### Segments and raw layout (R58, R59, R70) -/

/-- Raw bytes of segment s. -/
def rawBytes (dot : Bool) (s : Nat) : Nat := if dot then (if s = 15 then 1536 else 1504) else (if s = 15 then 3072 else 3008)
/-- Blocks of segment s. -/
def nBlocks (dot : Bool) (s : Nat) : Nat := if dot then 24 else (if s = 15 then 48 else 47)
/-- Shortest and longest record of segment s (R70). -/
def recMin (dot : Bool) (s : Nat) : Nat := 12 + nBlocks dot s
def recMax (dot : Bool) (s : Nat) : Nat := 12 + rawBytes dot s + nBlocks dot s
/-- Offset of segment s in a bar-wide raw line. -/
def segOffset (dot : Bool) (s : Nat) : Nat := s * rawBytes dot 0
/-- The values of raw bytes: samples, or 2-bit levels of columns, the first in bits [7:6]. -/
def unpackRaw (dot : Bool) (l : List Byte) : List Nat :=
  if dot then l.flatMap fun b => [b.toNat / 64, b.toNat / 16 % 4, b.toNat / 4 % 4, b.toNat % 4] else l.map (·.toNat)
/-- Raw bytes of values. -/
def packRaw (dot : Bool) (n : Nat) (v : List Nat) : List Byte :=
  if dot then (List.range n).map fun j => BitVec.ofNat 8
    (64 * v.getD (4 * j) 0 + 16 * v.getD (4 * j + 1) 0 + 4 * v.getD (4 * j + 2) 0 + v.getD (4 * j + 3) 0)
  else v.map (BitVec.ofNat 8)
/-- Values per full block. -/
def blockLen (dot : Bool) : Nat := if dot then 256 else 64

/-! ### Bits -/

/-- A reader of bits, most significant first, with how many it has read. -/
structure Rd where
  n : Nat
  bits : List Bool
  deriving DecidableEq, Repr

/-- The bits of bytes. -/
def byteBits (l : List Byte) : List Bool := l.flatMap fun b => bitsMsb 8 b.toNat
/-- Bytes of bits, padded with 0 bits. -/
def bitsBytes : Nat → List Bool → List Byte
  | 0, _ => []
  | n + 1, l => if l.isEmpty then [] else
      BitVec.ofNat 8 ((List.range 8).foldl (fun a i => 2 * a + b2n (l.getD i false)) 0) :: bitsBytes n (l.drop 8)
/-- One bit; none past the end. -/
def Rd.bit (r : Rd) : Option (Bool × Rd) :=
  match r.bits with
  | [] => none
  | b :: t => some (b, ⟨r.n + 1, t⟩)
/-- w bits as a value. -/
def Rd.value : Nat → Nat → Rd → Option (Nat × Rd)
  | 0, a, r => some (a, r)
  | w + 1, a, r => match r.bit with
    | none => none
    | some (b, t) => Rd.value w (2 * a + b2n b) t
/-- Ones before the first zero, at most the given number; the zero is read where there is one (R67). -/
def Rd.ones : Nat → Nat → Rd → Option (Nat × Rd)
  | 0, q, r => some (q, r)
  | f + 1, q, r => match r.bit with
    | none => none
    | some (false, t) => some (q, t)
    | some (true, t) => Rd.ones f (q + 1) t
/-- A Rice code (R67, R69). -/
def Rd.rice (k w : Nat) (r : Rd) : Option (Nat × Rd) :=
  match Rd.ones 24 0 r with
  | none => none
  | some (q, t) =>
    if q = 24 then Rd.value w 0 t
    else match Rd.value k 0 t with
      | none => none
      | some (v, u) => some (q * 2 ^ k + v, u)
/-- Skip to a byte boundary. -/
def Rd.align (r : Rd) : Rd := let k := (8 - r.n % 8) % 8; ⟨r.n + k, r.bits.drop k⟩
/-- The bits of a Rice code. -/
def riceBits (k w v : Nat) : List Bool :=
  let q := v / 2 ^ k
  if q < 24 then List.replicate q true ++ [false] ++ bitsMsb k (v % 2 ^ k) else List.replicate 24 true ++ bitsMsb w v
/-- How many they are. -/
def riceLen (k w v : Nat) : Nat := if v / 2 ^ k < 24 then v / 2 ^ k + 1 + k else 24 + w

/-! ### Prediction (R65, R66) -/

/-- P of R65. -/
def predict (p w n nw : Nat) : Nat :=
  if p = 0 then w else if p = 1 then n else if p = 2 then (w + n) / 2
  else if max w n ≤ nw then min w n else if nw ≤ min w n then max w n else w + n - nw
/-- z of a residue cur − P (R66). -/
def zigzag (cur p : Nat) : Nat := let d := (cur + 256 - p) % 256; if d < 128 then 2 * d else 2 * (256 - d) - 1
/-- The sample of P and z (R66). -/
def unzig (p z : Nat) : Nat := if z % 2 = 0 then (p + z / 2) % 256 else (p + 256 - (z + 1) / 2 % 256) % 256

/-! ### Decoding (R69) -/

/-- n samples of a contone block; cur holds the samples so far, newest first, and nw the previous line's value before. -/
def contRead (zero : Bool) (p k : Nat) : Nat → List Nat → Nat → List Nat → Rd → Option (List Nat × Nat × List Nat × Rd)
  | 0, prev, nw, cur, r => some (prev, nw, cur, r)
  | n + 1, prev, nw, cur, r =>
    let a := prev.headD 0
    let w := cur.headD a
    let nw' := if cur.isEmpty then a else nw
    match (if zero then some (0, r) else Rd.rice k 8 r) with
    | none => none
    | some (z, t) => contRead zero p k n prev.tail a (unzig (predict p w a nw') z :: cur) t
/-- The tokens of a dot block over n columns of the previous line (R68): the columns, oldest first. -/
def dotRead (k : Nat) : Nat → Nat → List Nat → Rd → Option (List Nat × Rd)
  | 0, _, _, _ => none
  | f + 1, n, prev, r =>
    match Rd.rice k 9 r with
    | none => none
    | some (run, t) =>
      if n < run then none
      else if run = n then some (prev.take n, t)
      else match Rd.value 2 0 t with
        | none => none
        | some (sym, u) =>
          if sym = 0 then none
          else
            let c := prev.getD run 0 ^^^ sym
            if run + 1 = n then some (prev.take run ++ [c], u)
            else match dotRead k f (n - run - 1) (prev.drop (run + 1)) u with
              | none => none
              | some (l, v) => some (prev.take run ++ c :: l, v)
/-- All blocks of a record: f blocks at most, `left` values still to come. -/
def blocksRead (dot : Bool) : Nat → Nat → List Nat → Nat → List Nat → Rd → Option (List Nat × Rd)
  | _, 0, _, _, cur, r => some (cur.reverse, r)
  | 0, _ + 1, _, _, _, _ => none
  | f + 1, left + 1, prev, nw, cur, r =>
    let n := min (left + 1) (blockLen dot)
    match Rd.value 8 0 r with
    | none => none
    | some (h, t) =>
      let kind := h / 64
      let p := h / 16 % 4
      let k := h % 16
      if kind = 2 then none
      else if kind = 3 then
        if h % 64 ≠ 0 then none
        else match Rd.value (if dot then 2 * n else 8 * n) 0 t with
          | none => none
          | some (v, u) =>
            let w := if dot then 2 else 8
            let vals := (List.range n).map fun i => v / 2 ^ (w * (n - 1 - i)) % 2 ^ w
            blocksRead dot f (left + 1 - n) (prev.drop n) (prev.getD (n - 1) 0) (vals.reverse ++ cur) u
      else if (kind = 0 ∧ 7 < k) ∨ (kind = 1 ∧ k ≠ 0) then none
      else if dot then
        if p ≠ 0 then none
        else match (if kind = 1 then some (prev.take n, t) else dotRead k (n + 1) n (prev.take n) t) with
          | none => none
          | some (l, u) => blocksRead dot f (left + 1 - n) (prev.drop n) 0 (l.reverse ++ cur) u.align
      else match contRead (kind = 1) p k n prev nw cur t with
        | none => none
        | some (pr, nw', c, u) => blocksRead dot f (left + 1 - n) pr nw' c u.align

/-- What a record expects: bar, segment, layer, SLINE and mode. -/
structure RecKey where
  bar : Nat
  seg : Nat
  live : Bool
  sline : Nat
  dot : Bool
  deriving DecidableEq, Repr

/-- What decoding a record gives (R69). -/
inductive Decoded where
  | ok (raw : List Byte)
  | contextLost
  | format
  | check
  deriving DecidableEq, Repr

/-- The header differs from what is expected, or has a non-zero reserved bit or another version (R61, R78). -/
def headerBad (r : List Byte) (e : RecKey) : Bool :=
  byteAt r 2 != 16 * e.seg + 2 * e.bar + b2n e.dot || byteAt r 3 / 16 != 1 || bit (byteAt r 3) 3
    || bit (byteAt r 3) 1 != e.live || leAt r 4 4 != e.sline

/-- A record that is not KEY needs the context, once its header is right (R69). -/
def needsContext (r : List Byte) (e : RecKey) : Bool := !headerBad r e && !bit (byteAt r 3) 0
/-- Decode a whole record of LEN bytes against the previous line, none where the context does not hold it (R62, R69). -/
def decodeRaw (r : List Byte) (e : RecKey) (prev : Option (List Byte)) : Decoded :=
  if headerBad r e then .format
  else
    let raw := rawBytes e.dot e.seg
    let vals := if e.dot then 4 * raw else raw
    let key := bit (byteAt r 3) 0
    match (if key then some (zeros raw) else prev) with
    | none => .contextLost
    | some pl =>
      match blocksRead e.dot (nBlocks e.dot e.seg) vals (unpackRaw e.dot pl) 0 [] ⟨0, byteBits (r.drop 12)⟩ with
      | none => .format
      | some (cur, rd) =>
        if rd.bits ≠ [] then .format
        else
          let out := packRaw e.dot raw cur
          if bit (byteAt r 3) 2 || crc32 out != leAt r 8 4 then .check else .ok out

/-! ### Encoding (R70 to R72) -/

/-- The zigzag values of a contone block under a predictor. -/
def residues (p : Nat) : List Nat → List Nat → Nat → Option Nat → List Nat
  | [], _, _, _ => []
  | c :: cs, prev, nw, w =>
    let a := prev.headD 0
    zigzag c (predict p (w.getD a) a (if w.isNone then a else nw)) :: residues p cs prev.tail a (some c)
/-- The tokens of a dot block: runs and symbols (R68). -/
def dotTokens : Nat → List Nat → List (Nat × Nat)
  | r, [] => if r = 0 then [] else [(r, 0)]
  | r, d :: t => if d = 0 then dotTokens (r + 1) t else (r, d) :: dotTokens 0 t
/-- The pair with the fewest bits of a list in rising (p, k) order (R71). -/
def fewest (l : List (Nat × Nat × Nat)) : Nat × Nat × Nat :=
  l.tail.foldl (fun m x => if x.2.2 < m.2.2 then x else m) (l.headD (0, 0, 0))
/-- One block (R71): its bytes, and whether it is an escape block. -/
def blockWrite (dot : Bool) (cur prev : List Nat) (nw : Nat) (w : Option Nat) : List Byte × Bool :=
  let n := cur.length
  if dot then
    let d := List.zipWith (fun a b => a ^^^ b) cur prev
    if d.all (· == 0) then ([0x40], false)
    else
      let tk := dotTokens 0 d
      let cost := fun k => tk.foldl (fun a t => a + riceLen k 9 t.1 + if t.2 = 0 then 0 else 2) 0
      let best := fewest ((List.range 8).map fun k => (0, k, cost k))
      if (best.2.2 + 7) / 8 < n / 4 then
        (BitVec.ofNat 8 best.2.1 :: bitsBytes (n + 1) (tk.flatMap fun t =>
          riceBits best.2.1 9 t.1 ++ if t.2 = 0 then [] else bitsMsb 2 t.2), false)
      else (0xC0 :: packRaw true (n / 4) cur, true)
  else
    let zs := (List.range 4).map fun p => residues p cur prev nw w
    match (List.range 4).find? fun p => (zs.getD p []).all (· == 0) with
    | some p => ([BitVec.ofNat 8 (0x40 + 16 * p)], false)
    | none =>
      let best := fewest ((List.range 4).flatMap fun p => (List.range 8).map fun k =>
        (p, k, (zs.getD p []).foldl (fun a z => a + riceLen k 8 z) 0))
      if (best.2.2 + 7) / 8 < n then
        (BitVec.ofNat 8 (16 * best.1 + best.2.1) ::
          bitsBytes (n + 1) ((zs.getD best.1 []).flatMap fun z => riceBits best.2.1 8 z), false)
      else (0xC0 :: packRaw false n cur, true)
/-- All blocks of a segment line: their bytes and how many are escapes. -/
def blocksWrite (dot : Bool) : Nat → List Nat → List Nat → Nat → Option Nat → List Byte × Nat
  | 0, _, _, _, _ => ([], 0)
  | f + 1, cur, prev, nw, w =>
    if cur.isEmpty then ([], 0)
    else
      let n := blockLen dot
      let c := cur.take n
      let b := blockWrite dot c (prev.take n) nw w
      let r := blocksWrite dot f (cur.drop n) (prev.drop n) (prev.getD (c.length - 1) 0) (some (c.getLastD 0))
      (b.1 ++ r.1, (if b.2 then 1 else 0) + r.2)
/-- The record of a raw segment line: header and blocks, and its escape blocks (R61, R71). -/
def encodeRaw (e : RecKey) (raw prev : List Byte) (key chkerr : Bool) (check : Nat) : List Byte × Nat :=
  let b := blocksWrite e.dot (nBlocks e.dot e.seg) (unpackRaw e.dot raw) (unpackRaw e.dot prev) 0 none
  (leBytes 2 (12 + b.1.length) ++
    [BitVec.ofNat 8 (16 * e.seg + 2 * e.bar + b2n e.dot),
     BitVec.ofNat 8 (0x10 + 4 * b2n chkerr + 2 * b2n e.live + b2n key)] ++
    leBytes 4 e.sline ++ leBytes 4 check ++ b.1, b.2)

end Sys2Proof.Machine
end

