-- ==== Sys2Proof/Machine/Commit.lean ====
section
/-! DEFINITION. Shadow, pending and applied copies (R34, R42 to R44): taking a commit and applying it at a boundary event. -/

namespace Sys2Proof.Machine

/-- The numbers of the RWS fields of a block: all of them, or only its "RWS, profile" fields, or only the others. -/
def Blk.rwsIds (b : Blk) (plain prof : Bool) : List Nat :=
  (b.fields.filter fun e => (plain && e.1.acc == .rws) || (prof && e.1.acc == .rwsp)).flatMap fun e =>
    (List.range e.2.1).map fun k => (e.1.nth e.2.2 k).id
/-- The block of a page; SYS where there is none. -/
def blkAt (p : Nat) : Blk := ((blkOf p).map (·.1)).getD .sys
/-- Instance number of a page. -/
def instAt (p : Nat) : Nat := ((blkOf p).map (·.2)).getD 0

/-- Copy pending fields of page p to the applied copy (page p', which for HEADC is a bar's own). -/
def State.applyFields (s : State) (p p' : Nat) (plain prof : Bool) : State :=
  let ids := (blkAt p).rwsIds plain prof
  { s with appl := RegMap.copyPage s.pendv s.appl p p' fun i => ids.contains i }

/-- A committed set has applied in full (R43). -/
def State.genDone (s : State) (p : Nat) : State :=
  (({ s with commits := s.commits.del p }.set p R.PG_GEN_APPL_GEN (s.get p R.PG_GEN_PEND_GEN)).set p
    R.PG_GEN_PENDING 0).cause p 2

/-- A committed set of the page waits, from an earlier tick than this one (R43). -/
def State.commitDue (s : State) (p : Nat) : Bool := s.commits.has p && (s.commits.getD p {}).at_ < s.tick
/-- The page's boundary event: its pending plain fields apply. The set is done unless differing profile fields wait; fields that
do not differ go on waiting for the job boundary line without holding PENDING (R43, R44; log 61). -/
def State.applyPlain (s : State) (p : Nat) : State :=
  if !s.commitDue p || !(s.commits.getD p {}).plain then s
  else
    let c := s.commits.getD p {}
    let t := s.applyFields p p true false
    let t := if c.hold then t else t.genDone p
    if c.prof then { t with commits := t.commits.put p { c with plain := false } } else t
/-- The bar's job boundary line: the pending profile fields of the page apply (R44). -/
def State.applyProf (s : State) (p : Nat) : State :=
  if !s.commitDue p || !(s.commits.getD p {}).prof then s
  else
    let c := s.commits.getD p {}
    let t := s.applyFields p p false true
    if c.plain then { t with commits := t.commits.put p { c with prof := false, hold := false } }
    else if c.hold then t.genDone p else { t with commits := t.commits.del p }
/-- HEADC's boundary event for bar b (R34). -/
def State.applyHeadc (s : State) (b : Nat) : State :=
  if !s.commitDue pHEADC then s
  else
    let c := s.commits.getD pHEADC {}
    if !bit c.bars b then s
    else
      let t := s.applyFields pHEADC (0x400 + b) true true
      let m := setBit c.bars b false
      if m = 0 then t.genDone pHEADC else { t with commits := t.commits.put pHEADC { c with bars := m } }

/-- Commits of the block wait for its boundary event whatever IMMEDIATE holds (R43). -/
def lineCommit (b : Blk) (i : Nat) : Bool :=
  match b with
  | .line | .dec | .pipe | .head | .pair | .headc | .camc | .cam => true
  | .lane => i < 128
  | _ => false
/-- The block has a boundary event other than "immediate" (R34). -/
def waitsCommit (b : Blk) (i : Nat) : Bool :=
  lineCommit b i || match b with | .breath | .enc | .chant => true | _ => false

/-- A write of COMMIT: every RWS shadow goes to the pending copy, which applies at once or at the boundary event
(R42, R43). Profile fields that already have their pending values do not hold PENDING back (R44; log 61). A commit on a fenced page is
ignored (R43). -/
def State.commit (s : State) (p gen : Nat) (immediate : Bool) : State :=
  if s.fenced p then s
  else match blkOf p with
  | none => s
  | some (b, i) =>
    let ids := b.rwsIds true true
    let profs := b.rwsIds false true
    let s := { s with pendv := RegMap.copyPage s.regs s.pendv p p fun j => ids.contains j }
    let s := (s.set p R.PG_GEN_PEND_GEN gen).set p R.PG_GEN_PENDING 1
    let now := ids.isEmpty || !s.enabled p || !waitsCommit b i || (immediate && !lineCommit b i)
    if b = .headc then
      let m := if now then 0 else s.runningBars
      let s := s.each ((List.range 8).filter fun k => !bit m k) fun t k => t.applyFields p (0x400 + k) true true
      if m = 0 then s.genDone p else { s with commits := s.commits.put p { bars := m, at_ := s.tick } }
    else if now then (s.applyFields p p true true).genDone p
    else
      let waits := profs.any fun j => s.pendv.find (p, j) != s.appl.find (p, j)
      { s with commits := s.commits.put p { plain := true, prof := !profs.isEmpty, hold := waits, at_ := s.tick } }

end Sys2Proof.Machine
end

