-- ==== Sys2Proof/Machine/DecOps.lean ====
section
/-! DEFINITION. The decoders' shared operations: the lookahead ring and its slots (R86), the walk over jobs and lines (R61,
R76, R79, R178, R179), DEC_AHEAD (R408) and panic (R320). -/

namespace Sys2Proof.Machine

/-! ### The ring (R86, R103) -/

/-- Bytes of a slot. -/
def slotSize (dot : Bool) : Nat := if dot then 0x6000 else 0xC000
/-- Line-store address of slot i of bar b, a place of its ring. -/
def slotAddr (b : Nat) (dot : Bool) (i : Nat) : Nat := 0x300000 * b + slotSize dot * (i % nSlots dot)
/-- Address of a decoder's context of segment s and layer (R81). -/
def decCtx (b s : Nat) (live : Bool) : Nat := 0x3D00000 + 0x20000 * b + 0x1000 * (2 * s + b2n live)
/-- Address of an encoder's context. -/
def encCtx (b s : Nat) (live : Bool) : Nat := 0x3C00000 + 0x20000 * b + 0x1000 * (2 * s + b2n live)

/-- Segment-line counts of a mask of sixteen. -/
def allSegs : Nat := 0xFFFF
/-- The index of the next line that LINE b issues (R150). -/
def State.nextLine (s : State) (b : Nat) : Nat :=
  if s.lineRuns b then (s.get (pLINE b) R.LINE_SEQ + 1) % 2 ^ 32 else s.get (pLINE b) R.LINE_SEQ0

/-- Change it. -/
def State.updSlot (s : State) (b first m : Nat) (g : Slot → Slot) : State :=
  s.updDec b fun d => { d with slots := d.slots.map fun x => if x.first = first ∧ x.m = m then g x else x }
/-- Write the trailer of a slot (R86). -/
def State.writeTrailer (s : State) (b : Nat) (x : Slot) : State :=
  let dot := (s.decAt b).dot
  s.lsWrite (slotAddr b dot x.idx + slotSize dot - 64) (leBytes 4 x.name ++ leBytes 2 x.complete ++ leBytes 2 x.blank ++ zeros 56)

/-- Segment s of sample line m is complete: with its raw bytes, or blank for a reason (R78). DEC_LINE names the last printed line of the
newest complete sample line (log 104). -/
def State.segDone (s : State) (b : Nat) (j : Job) (m seg : Nat) (raw : Option (List Byte)) (check : Option Nat) : State :=
  match (s.decAt b).slotOf j.first m with
  | none => s
  | some x =>
    let y := { x with complete := x.complete ||| 2 ^ seg
                      blank := if raw.isNone then x.blank ||| 2 ^ seg else x.blank
                      checks := (if x.checks.isEmpty then List.replicate 16 none else x.checks).set seg check }
    let dot := (s.decAt b).dot
    let s := match raw with
      | some l => s.lsWrite (slotAddr b dot x.idx + segOffset dot seg) (l.take (rawBytes dot seg))
      | none => s
    let s := (s.updSlot b j.first m fun _ => y).writeTrailer b y
    if y.complete = allSegs then
      s.updDec b fun d => { d with newest := some ((j.first + min (j.total - 1) (j.r * m + j.r - 1)) % 2 ^ 32) }
    else s
/-- A segment error of a slot, for the job records (R80, R184). -/
def State.segErr (s : State) (b : Nat) (j : Job) (m seg code : Nat) : State :=
  if ((s.decAt b).slotOf j.first m).isSome then s.updSlot b j.first m fun x => { x with errs := x.errs ++ [(code, 2 ^ seg)] }
  else s.updDec b fun d => { d with passErrs := d.passErrs ++ [(code, 2 ^ seg)] }

/-- The live segment mask of sample line m (R179); a mask word that cannot be read leaves no live segment and blanks the
line for code 0x11 (log 27). -/
def State.liveMask (s : State) (b : Nat) (j : Job) (m : Nat) : State × Option Nat :=
  if !j.liveEn then (s, some 0)
  else if !j.maskMode then (s, some j.maskFixed)
  else
    let r := s.dramRead (j.maskAddr + 2 * m) 2 0 (0x40 + b)
    ({ r.1 with lastDec := b }, if r.2.2 then some (leNat r.2.1) else none)

/-- A line is decoded before its boundary again: the runs of passed lines go on as runs of the bar (R184). -/
def State.passEnd (s : State) (b : Nat) : State :=
  decCodes.foldl (fun t c =>
    if (t.jobAt b).runs.any fun r => r.code == c && r.tile == 0xFF then t.closeRun b c passedTile false
    else t.updJob b fun e => { e with runs := e.runs.map fun r =>
      if r.code = c ∧ r.tile = passedTile then { r with tile := 0xFF } else r }) s
/-- Open line m of the job: read its mask and take a slot, unless every printed line of it has been issued (R86, R180). A full ring and
DRAM that does not serve the mask word yet make it wait (R29, R76, R301). A line that is blank for its mask word has no record in error: it
counts no DEC error and raises no cause of the pair (log 27). -/
def State.openLine (s : State) (b : Nat) (j : Job) : State :=
  let d := s.decAt b
  let last := s.lastUse b j d.m
  let passed := s.issued b ((j.first + last) % 2 ^ 32)
  if s.ringFull b j || !s.decServed b (s.maskPieces b j) then s
  else
    let r := s.liveMask b j d.m
    let mask := r.2.getD 0
    let s := r.1
    let s := if d.m + 1 = j.samples then
        s.updJob b fun e => { e with lastGroup := e.lastGroup || e.jobs.length == (s.decAt b).jobIdx + 1 }
      else s
    let x : Slot := { idx := d.nextSlot, m := d.m, name := if j.dot then (j.first + d.m) % 2 ^ 32 else d.m, first := j.first,
                      lastUse := (j.first + last) % 2 ^ 32 }
    let x := { x with clear := if r.2.isNone || j.baseEn then 0 else andNot allSegs mask }
    let s := if passed then s else
      ((s.passEnd b).updDec b fun d => { d with slots := d.slots ++ [x], nextSlot := (d.nextSlot + 1) % nSlots d.dot }).writeTrailer b x
    let s := s.updDec b fun d => { d with
      opened := true, passErrs := [], liveAll := mask, liveLeft := mask, baseSeg := if j.baseEn then 0 else 16
      basePos := if d.m % j.repLines = 0 then 0 else d.basePos
      baseLost := if d.m % j.repLines = 0 then false else d.baseLost }
    let s := if r.2.isSome then s else
      (List.range 16).foldl (fun t g => t.segErr b j d.m g 0x11)
        (s.updDec b fun d => { d with ctxValid := d.ctxValid &&& 0x55555555 })
    -- segments that no record gives print drop level 0
    (List.range 16).foldl (fun t g =>
      if r.2.isNone && !j.baseEn then t.segDone b j d.m g none none
      else if !j.baseEn && !bit mask g then t.segDone b j d.m g (some (zeros (rawBytes j.dot g))) none
      else t) s

/-- Line m is done: RPOS moves to the end of its live group, and the next line is due (R172). -/
def State.closeLine (s : State) (b : Nat) (j : Job) : State :=
  let s := s.passRuns b j (s.decAt b).m
  let d := s.decAt b
  let s := if j.liveEn then s.set64 pDMAC (jf R.DMAC_RPOS_LO b) (jf R.DMAC_RPOS_HI b) d.livePos else s
  s.updDec b fun d => { d with m := d.m + 1, opened := false }

/-- Bring a decoder to its next record: go on to the next job, lay out the ring, open lines, and pass over lines that need
no record. A job of another MODE waits for RING_RELAYOUT (R86, R182). -/
def State.decSettle (s : State) (b : Nat) : Nat → State
  | 0 => s
  | f + 1 =>
    let d := s.decAt b
    if !s.working (pDEC b) || !(s.jobAt b).running || !s.dramReady then s
    else match s.decJob b with
      | none => s
      | some j =>
        if !d.started then
          if d.laid && d.dot != j.dot then s
          else
            (s.updDec b fun d => { d with
              started := true, m := 0, opened := false, baseLost := false, liveLost := false, livePos := j.livePos
              dot := j.dot, laid := true, nextSlot := if d.laid then d.nextSlot else 0 }).decSettle b f
        else if j.samples ≤ d.m then
          if d.jobIdx + 1 < (s.jobAt b).jobs.length then
            (s.updDec b fun d => { d with jobIdx := d.jobIdx + 1, started := false }).decSettle b f
          else s
        else if !d.opened then
          let t := s.openLine b j
          if (t.decAt b).opened then t.decSettle b f else t
        else if d.baseSeg = 16 ∧ d.liveLeft = 0 then (s.closeLine b j).decSettle b f
        else s

/-- The last printed line that can need a slot, with the upscaling now in force: UPS applies at a job boundary line, after slots of the
job may have been filled (R87). -/
def State.slotLast (s : State) (b : Nat) (x : Slot) : Nat :=
  match (s.jobAt b).jobs.find? fun j => j.first == x.first && decide (x.m < j.samples) with
  | some j => (j.first + s.lastUse b j x.m) % 2 ^ 32
  | none => x.lastUse
/-- Slots that no later line can need are released at the boundary of line ℓ (R87). -/
def State.releaseSlots (s : State) (b line : Nat) : State :=
  s.updDec b fun d => { d with slots := d.slots.filter fun x => decide (diff32 line (s.slotLast b x) < 0) }

/-! ### Lookahead (R408) -/

/-- The sample line of q, and the neighbour that bilinear upscaling needs (R87, R89). -/
def sampleOf (j : Job) (q : Nat) : Nat := q / j.r
def State.neighbour (s : State) (b : Nat) (j : Job) (q : Nat) : Option Nat :=
  if !s.bilinear b j then none
  else if q % 2 = 1 then (if q + 1 = j.total then none else some (q / 2 + 1))
  else (if q = 0 then none else some (q / 2 - 1))
/-- Every slot that line q needs is complete in the decoder's account. -/
def State.lineReady (s : State) (b : Nat) (j : Job) (q : Nat) : Bool :=
  let ok := fun m => match (s.decAt b).slotOf j.first m with
    | some x => x.complete == allSegs
    | none => false
  ok (sampleOf j q) && match s.neighbour b j q with | some m => ok m | none => true
/-- Count lines from x on: an idle stretch at once, a job's line if it is complete (R408). -/
def State.aheadFrom (s : State) (b : Nat) : Nat → Nat → Nat → Nat
  | 0, _, n => n
  | f + 1, x, n =>
    if 65535 ≤ n then 65535
    else match s.jobOfLine b x with
      | some (j, q) => if s.lineReady b j q then s.aheadFrom b f ((x + 1) % 2 ^ 32) (n + 1) else n
      | none =>
        match (s.jobAt b).jobs.find? fun j => decide (0 < diff32 j.first x) with
        | some j => s.aheadFrom b f j.first (n + (diff32 j.first x).toNat)
        | none => 65535
/-- DEC_AHEAD of bar b (R408, R409). -/
def State.decAhead (s : State) (b : Nat) : Nat :=
  if !s.working (pDEC b) then 0
  else if !(s.jobAt b).running then 65535
  else min 65535 (s.aheadFrom b 300 (s.nextLine b) 0)

/-! ### Panic (R320) -/

/-- Enter or leave panic (R320). -/
def State.panicUpdate (s : State) (b : Nat) : State :=
  let d := s.decAt b
  let lim := s.get pDRAMC R.DRAMC_RT_PANIC_LINES
  let a := s.decAhead b
  if d.panic then (if lim + 8 ≤ a || !s.working (pDEC b) then s.updDec b fun d => { d with panic := false } else s)
  else if s.decReading b && a < lim then ((s.updDec b fun d => { d with panic := true }).incSat pDRAMC R.DRAMC_PANIC_CNT).cause pDRAMC 3
  else s
/-- The panic of every decoder as its lead now stands. -/
def State.panicAll (s : State) : State := s.each (List.range 8) State.panicUpdate

end Sys2Proof.Machine
end

