-- ==== Sys2Proof/Machine/Codec.lean ====
section
/-! DEFINITION. The encoders and decoders: ENCODE_SEGMENT_LINE, FORCE_KEY, DECODE_RECORD, RING_RELAYOUT (chapter 3). -/

namespace Sys2Proof.Machine

/-! ### Encoding -/

/-- The raster item at the front of encoder b's input, its tag and raw bytes, once it is there whole (R165). -/
def itemAt (l : List Byte) : Option (List Byte × List Byte × Nat) :=
  let n := 16 + (leAt l 0 2 + 15) / 16 * 16
  if l.length < 16 ∨ l.length < n then none else some (l.take 16, (l.drop 16).take (leAt l 0 2), n)

/-- The item follows the previous one of its layer (R73; log 29). -/
def inOrder (prev : Option (Nat × Nat)) (live : Bool) (sline seg : Nat) : Bool :=
  match prev with
  | none => true
  | some (l, g) =>
    if live then (l < sline || (l == sline && g < seg) || (sline == 0 && l != 0))
    else (l == sline && g + 1 == seg) || (l + 1 == sline && g == 15 && seg == 0) || (sline == 0 && seg == 0)

/-- The previous line of a context if it holds SLINE − 1, and whether its bytes are good: an uncorrectable one gives none (R62, R72,
R81). -/
def State.encPrev (s : State) (b seg : Nat) (live : Bool) (dot : Bool) (sline : Nat) : State × Option (List Byte) × Bool :=
  let a := encCtx b seg live
  if sline = 0 || !bit (s.encAt b).ctxValid (2 * seg + b2n live) then (s, none, true)
  else
    let w := s.lsWord (a + 0xC00) 1
    let r := w.1.lsBytes a (rawBytes dot seg) 1
    match w.2, r.2.2 with
    | some l, true => (r.1, if (l + 1) % 2 ^ 32 = sline then some r.2.1 else none, true)
    | _, _ => (r.1, none, false)

/-- Put an item into a source queue. -/
def State.enqueue (s : State) (ep : Nat) (q : QItem) : State :=
  { s with queues := s.queues.put ep (s.queues.getD ep [] ++ [q]) }

/-- Encode the item of a tag and as many raw bytes as it says, which stand in the staging buffer from place i (R61, R70 to R74). A segment
line counts one error, 0x11 before 0x30 (R79). KEY is written from KEY_INT lines on (log 133). The bytes of an item that is discarded do
not count in ENC_IN (log 103). -/
def State.encodeItem (s : State) (b : Nat) (tag : List Byte) (i : Nat) : State :=
  let p := pENC b
  let s := s.applyPlain p
  let seg := byteAt tag 2 / 16
  let dot := bit (byteAt tag 2) 0
  let live := bit (byteAt tag 3) 1
  let last := bit (byteAt tag 3) 2
  let sline := leAt tag 4 4
  let c := 2 * seg + b2n live
  let hi := seg + 16 * b2n live
  let e := s.encAt b
  if !inOrder (if live then e.ordLive else e.ordBase) live sline seg then
    ((s.err p 0x31 0 sline hi).incSat p R.ENC_ORD_CNT).cause p 4
  else
    let g := s.stageOut b i (leAt tag 0 2)
    let raw := g.2.1
    let r := g.1.encPrev b seg live dot sline
    let s := r.1
    let int := s.ap p R.ENC_CTRL_KEY_INT
    let key := r.2.1.isNone || bit e.chkPrev c || bit e.forceKey c
      || (int != 0 && match e.lastKey.find? fun k => k.1 == c with
            | some k => decide ((int : Int) ≤ diff32 sline k.2)
            | none => false)
    let lost := !g.2.2 || !r.2.2
    let bad := !g.2.2 || crc32 raw != leAt tag 8 4
    let s := if lost then s.err p 0x11 0 sline hi
      else if bad then ((s.err p 0x30 0 sline hi).incSat p R.ENC_CHK_CNT).cause p 3
      else s
    let out := encodeRaw ⟨byteAt tag 2 / 2 % 8, seg, live, sline, dot⟩ raw (if key then zeros raw.length else r.2.1.getD []) key bad
      (leAt tag 8 4)
    let s := (s.lsWrite (encCtx b seg live) raw).lsWrite (encCtx b seg live + 0xC00) (leBytes 4 sline)
    let s := ((s.add64 p R.ENC_IN_LO R.ENC_IN_HI raw.length).add64 p R.ENC_OUT_LO R.ENC_OUT_HI out.1.length).incWrap p
      R.ENC_REC_CNT
    let s := (if out.2 = 0 then s else s.addSat p R.ENC_ESC_CNT out.2)
    let s := if key then s.incWrap p R.ENC_KEY_CNT else s
    let s := s.updEnc b fun e => { e with
      ctxValid := e.ctxValid ||| 2 ^ c
      chkPrev := setBit e.chkPrev c bad
      forceKey := setBit e.forceKey c false
      lastKey := if key then e.lastKey.put c sline else e.lastKey
      ordBase := if live then e.ordBase else if last then none else some (sline, seg)
      ordLive := if live then (if last then none else some (sline, seg)) else e.ordLive }
    s.enqueue (0x28 + b) { bytes := out.1, last := last }

/-- Room for a record of any length in encoder b's output queue (R168; log 11). -/
def State.encRoom (s : State) (b : Nat) : Bool := s.queueBytes (0x28 + b) + 3132 ≤ Config.queueCap (0x28 + b)

/-- ENCODE_SEGMENT_LINE: encoder b takes the item at the front of its input (R69 to R74). With no whole item, no room for
its record, or the encoder not working, nothing happens (log 2). -/
def execEncodeSegmentLine (b : Bar) (s : State) : Host.Outcome State Fault Refusal :=
  .next <|
    if !s.working (pENC b) || !s.encRoom b then s
    else match itemAt (s.sinks.getD (0x20 + b.val) []) with
      | none => s
      | some (tag, _, n) =>
        ((({ s with sinks := s.sinks.put (0x20 + b.val) ((s.sinks.getD (0x20 + b.val) []).drop n) }).updEnc b fun e =>
          { e with taken := e.taken + n }).encodeItem b tag ((s.encAt b).taken + 16))

/-- What a write of ENC_CTRL does (R72, R82). -/
def encCtrlAct (b v : Nat) (s : State) : State :=
  let t := s.storeReg (pENC b) 0x40 v
  if bit v 0 then t.updEnc b fun e => { e with forceKey := 0xFFFFFFFF } else t
/-- FORCE_KEY: a host write of ENC_CTRL with FORCE_KEY 1 and KEY_INT as it reads (R72, R82). -/
def execForceKey (b : Bar) (s : State) : Host.Outcome State Fault Refusal :=
  let v := 256 * s.get (pENC b) R.ENC_CTRL_KEY_INT + 1
  .next (s.writeWith (pENC b) 0x40 v (encCtrlAct b v))

/-! ### Decoding -/

/-- A decoder error: the segment line is blank, its context invalid; counted, recorded, and a cause of the pair
(R78 to R80, R243). A base record whose segment a live record prints counts too (log 105). -/
def State.decError (s : State) (b : Nat) (j : Job) (m seg : Nat) (live : Bool) (code addr : Nat) : State :=
  let p := pDEC b
  let s := s.err64 p code (b2n live) addr
  let s := if code = 0x11 then (s.incSat p R.DEC_POISON_CNT).cause p 5
    else if code = 0x31 then (s.incSat p R.DEC_FMT_CNT).cause p 4
    else (s.incSat p R.DEC_CHK_CNT).cause p 3
  let s := s.updDec b fun d => { d with ctxValid := setBit d.ctxValid (2 * seg + b2n live) false }
  (s.segErr b j m seg code).pairCause 1 code b

/-- Whether the layer's record for the segment is the one that prints (R76). -/
def DecSt.prints (d : DecSt) (live : Bool) (seg : Nat) : Bool := live || !bit d.liveAll seg

/-- Move past a segment of a layer. -/
def State.segNext (s : State) (b seg : Nat) (live : Bool) : State :=
  s.updDec b fun d => if live then { d with liveLeft := setBit d.liveLeft seg false } else { d with baseSeg := d.baseSeg + 1 }
/-- Finish a segment line: blank, or with its bytes, in the slot if it is the one that prints. -/
def State.segFinish (s : State) (b : Nat) (j : Job) (m seg : Nat) (live : Bool) (raw : Option (List Byte))
    (check : Option Nat) : State :=
  let s := if (s.decAt b).prints live seg then s.segDone b j m seg raw check else s
  s.segNext b seg live

/-- The previous line of a decoder context that holds SLINE − 1; an uncorrectable byte is told apart (R62, R81). -/
def State.decPrev (s : State) (b seg : Nat) (live dot : Bool) (sline : Nat) : State × Option (List Byte) × Bool :=
  let a := decCtx b seg live
  if sline = 0 || !bit (s.decAt b).ctxValid (2 * seg + b2n live) then (s, none, true)
  else
    let w := s.lsWord (a + 0xC00) 1
    let r := w.1.lsBytes a (rawBytes dot seg) 1
    match w.2, r.2.2 with
    | some l, true => (r.1, if (l + 1) % 2 ^ 32 = sline then some r.2.1 else none, true)
    | _, _ => (r.1, none, false)

/-- Where the record of a layer stands in a decoder's staging buffer (R81; log 102). -/
def stagePlace (live : Bool) : Nat := if live then 0x10000 else 0
/-- Position of a decoder in a layer's stream. -/
def DecSt.posOf (d : DecSt) (live : Bool) : Nat := if live then d.livePos else d.basePos
/-- LEN of a record lies within the lengths of R70. -/
def lenGood (j : Job) (seg len : Nat) : Bool := decide (recMin j.dot seg ≤ len) && decide (len ≤ recMax j.dot seg)
/-- Read the record of a segment of line m at a layer's stream position into the staging buffer (R29, R70, R79, R81). -/
def State.stageRead (s : State) (b : Nat) (j : Job) (m seg : Nat) (live : Bool) : State × Staged :=
  let pos := (s.decAt b).posOf live
  let len := leNat (s.streamRead b j live pos 2).2.1
  let r := s.streamRead b j live pos (if lenGood j seg len then len else 12)
  (({ r.1 with lastDec := b }).stageIn (8 + b) (stagePlace live) r.2.1,
   { live := live, first := j.first, m := m, pos := pos, len := len, n := r.2.1.length, ok := r.2.2 })
/-- The record of line m that decoder b takes next from a layer, where it has been read ahead. -/
def State.stagedRec (s : State) (b : Nat) (j : Job) (m : Nat) (live : Bool) : Option Staged :=
  let d := s.decAt b
  d.staged.find? fun x => x.live == live && x.first == j.first && x.m == m && x.pos == d.posOf live
/-- Keep what stands in the staging buffer for a layer. -/
def State.setStaged (s : State) (b : Nat) (live : Bool) (x : Option Staged) : State :=
  s.updDec b fun d => { d with staged := d.staged.filter (fun y => y.live != live) ++ x.toList }

/-- Decode the record of a segment of a layer at its stream position (R69, R78, R79) from the staging buffer, where it has been read ahead
or is read now (R81): a record skipped for lost context is no record decoded (R78, R83). -/
def State.decodeOne (s : State) (b : Nat) (j : Job) (m seg : Nat) (live : Bool) : State :=
  let p := pDEC b
  let d := s.decAt b
  let pos := d.posOf live
  let addr := s.streamAddr b j live pos
  let sline := if live then m else m % j.repLines
  if (if live then d.liveLost else d.baseLost) then
    (s.decError b j m seg live 0x31 addr).segFinish b j m seg live none none
  else
    let r := match s.stagedRec b j m live with
      | some x => (s, x)
      | none => s.stageRead b j m seg live
    let len := r.2.len
    let good := lenGood j seg len
    let s := (r.1.setStaged b live none).updDec b fun d =>
      if live then (if good then { d with livePos := pos + len } else { d with liveLost := true })
      else (if good then { d with basePos := pos + len } else { d with baseLost := true })
    let g := s.stageOut (8 + b) (stagePlace live) r.2.n
    let s := g.1
    let fail := fun (s : State) (code : Nat) (check : Option Nat) =>
      ((s.incWrap p R.DEC_REC_CNT).decError b j m seg live code addr).segFinish b j m seg live none check
    let e : RecKey := ⟨b, seg, live, sline, j.dot⟩
    if !r.2.ok || !g.2.2 then fail s 0x11 none
    else if !good then fail s 0x31 none
    else
      let q := if needsContext g.2.1 e then s.decPrev b seg live j.dot sline else (s, none, true)
      let s := q.1
      match decodeRaw g.2.1 e q.2.1 with
      | .format => fail s 0x31 none
      | .contextLost =>
        if q.2.2 then
          (((s.incSat p R.DEC_CTXL_CNT).cause p 6).updDec b fun d => { d with
            ctxValid := setBit d.ctxValid (2 * seg + b2n live) false }).segFinish b j m seg live none (some (leAt g.2.1 8 4))
        else fail s 0x11 none
      | .check => fail s 0x30 (some (leAt g.2.1 8 4))
      | .ok raw =>
        let s := (s.lsWrite (decCtx b seg live) raw).lsWrite (decCtx b seg live + 0xC00) (leBytes 4 sline)
        let s := ((s.updDec b fun d => { d with ctxValid := d.ctxValid ||| 2 ^ (2 * seg + b2n live) }).add64 p
          R.DEC_BYTES_LO R.DEC_BYTES_HI raw.length).incWrap p R.DEC_REC_CNT
        s.segFinish b j m seg live (some raw) (some (leAt g.2.1 8 4))

/-- The segment of the layer that decoder b takes next, if it can (R60). -/
def State.nextSeg (s : State) (b : Nat) (j : Job) (live : Bool) : Option Nat :=
  let d := s.decAt b
  if live then (if s.liveReady b j then lowBit 16 d.liveLeft else none)
  else if d.baseSeg < 16 then some d.baseSeg else none

/-- The next record of a layer stands in the staging buffer, or DRAM serves its read to decoder b now (R29, R30, R301). -/
def State.recordServed (s : State) (b : Nat) (j : Job) (live : Bool) : Bool :=
  (s.stagedRec b j (s.decAt b).m live).isSome || s.decServed b (s.recordPieces b j live)
/-- Decoder b reads its next record of a layer ahead, where DRAM serves the read at once (R81; log 102). -/
def State.stageNext (s : State) (b : Nat) (live : Bool) : State :=
  let d := s.decAt b
  match (if s.working (pDEC b) && (s.jobAt b).running && d.opened then s.decJob b else none) with
  | none => s
  | some j =>
    if (s.stagedRec b j d.m live).isSome || (if live then d.liveLost else d.baseLost) || !s.recordServed b j live then s
    else match s.nextSeg b j live with
      | none => s
      | some seg => let r := s.stageRead b j d.m seg live; r.1.setStaged b live (some r.2)
/-- DECODE_RECORD: decoder b takes the next record of a layer of the line it works on (R69, R76). With no such record, the
ring full, the engine stopped, DRAM not serving it, or the decoder not working, nothing happens (log 2). -/
def execDecodeRecord (b : Bar) (live : Bool) (s : State) : Host.Outcome State Fault Refusal :=
  let t := s.decSettle b 300
  .next <|
    if !s.working (pDEC b) || !(s.jobAt b).running || !s.dramReady then s
    else match t.decJob b with
      | none => t
      | some j =>
        if !(t.decAt b).opened || !t.recordServed b j live then t.panicUpdate b
        else match t.nextSeg b j live with
          | none => t
          | some seg => (((t.decodeOne b j (t.decAt b).m seg live).decSettle b 300).stageNext b live).panicUpdate b

/-- RING_RELAYOUT: the job to start has another MODE and every slot of the job before is released: the ring is laid out
afresh from slot 0 (R86). -/
def execRingRelayout (b : Bar) (s : State) : Host.Outcome State Fault Refusal :=
  let t := s.decSettle b 300
  let d := t.decAt b
  .next <|
    match t.decJob b with
    | none => t
    | some j =>
      if !d.started && d.laid && d.dot != j.dot && d.slots.isEmpty then
        (t.updDec b fun d => { d with laid := false }).decSettle b 300
      else t

end Sys2Proof.Machine
end

