-- ==== Sys2Proof/Machine/Pos.lean ====
section
/-! DEFINITION. Position channels and the part of the line generators that follows their counts: COUNT_UPDATE, INDEX,
LOSS_OF_SIGNAL, STILL, POS_START, the serial transfers, the position compares, STRETCH_WINDOW_CLOSE and LINE_ADJ_GO
(chapter 6). -/

namespace Sys2Proof.Machine

/-! ### The bar coordinate (R150, R151, R156) -/

/-- Y and NEXT of LINE b. -/
def State.lineY (s : State) (b : Nat) : Int := sgn 64 (s.get64 (pLINE b) R.LINE_Y_LO R.LINE_Y_HI)
def State.lineNext (s : State) (b : Nat) : Int := sgn 64 (s.get64 (pLINE b) R.LINE_NEXT_LO R.LINE_NEXT_HI)
def State.setY (s : State) (b : Nat) (y : Int) : State := s.set64 (pLINE b) R.LINE_Y_LO R.LINE_Y_HI (uns 64 y)
def State.setNext (s : State) (b : Nat) (y : Int) : State := s.set64 (pLINE b) R.LINE_NEXT_LO R.LINE_NEXT_HI (uns 64 y)
/-- A line falls due when Y reaches NEXT (R151). -/
def State.lineDue (s : State) (b : Nat) : State :=
  if !(s.lineAt b).due && s.lineNext b ≤ s.lineY b && s.lineRuns b then
    s.updLine b fun l => { l with due := true, tDue := s.tick }
  else s
/-- The gain g. -/
def State.gain (s : State) (b : Nat) : Int := sgn 32 (s.get (pLINE b) R.LINE_GAIN)
/-- LINE_STR_CFG.WEXP in its range (R156). -/
def State.window (s : State) (b : Nat) : Nat := 2 ^ max 10 (min 24 (s.get (pLINE b) R.LINE_STR_CFG_WEXP))
/-- Whether stretch tracking runs on bar b (R156). -/
def State.strRuns (s : State) (b : Nat) : Bool := s.flag (pLINE b) R.LINE_CTRL_STR_EN && (s.lineAt b).src != 2

/-- The master count at which the next window of bar b closes: the next multiple of 2^WEXP above the count at the last close (R156; log
116 for a WEXP written in mid-window). -/
def State.strNext (s : State) (b : Nat) : Nat := ((s.lineAt b).strBase / s.window b + 1) * s.window b % 2 ^ 32
/-- The master has moved d steps, to count c: a window that it closes is judged where tracking runs, and passes where STR_EN is 0
(R156; log 116). -/
def State.strStep (s : State) (b : Nat) (d : Int) (c : Nat) : State :=
  if (s.lineAt b).src != 2 && 0 < d && decide (0 ≤ diff32 c (s.strNext b)) then
    (if s.strRuns b then s.updLine b fun l => { l with strDue := l.strDue ++ [l.strE], strE := 0, strBase := c }
     else s.updLine b fun l => { l with strSkip := false, strE := 0, strBase := c })
  else s
/-- d steps of channel n, which now counts c, reach LINE b (R150, R156). -/
def State.lineStep (s : State) (b n : Nat) (d : Int) (c : Nat) : State :=
  let s := if n = 2 + b then s.updLine b fun l => { l with strE := l.strE + d } else s
  if !s.lineRuns b || srcChannel b (s.lineAt b).src != n then s
  else
    let k : Int := if (s.lineAt b).src = 2 then 2 ^ 24 else 2 ^ 24 + s.gain b
    let y := sgn 64 (uns 64 (s.lineY b + d * k))
    let s := (s.setY b y).updLine b fun l => { l with hiY := max l.hiY y }
    (s.strStep b d c).lineDue b

/-! ### Count updates (R146 to R149) -/

/-- The speed rule (R147), after the direction rule; rev tells that a reversal was declared at this update. -/
def State.speedRule (s : State) (n : Nat) (d : Int) (t c : Nat) (rev : Bool) : State :=
  let p := pPOS n
  let x := s.posAt n
  let s := s.updPos n fun x => { x with lastUpd := t }
  if rev then (s.set p R.POS_SPEED 0).updPos n fun x => { x with hist := [], valid := false, newDir := true }
  else if x.still then (s.updPos n fun x => { x with still := false, hist := [(t, c)] }).cause p 5
  else if x.newDir && (if x.dir then 0 < d else d < 0) then s.updPos n fun x => { x with hist := [] }
  else
    let keep := 2 ^ s.get p R.POS_SPD_CFG + 1
    let all := x.hist ++ [(t, c)]
    let h := all.drop (all.length - keep)
    let s := s.updPos n fun x => { x with hist := h }
    match h with
    | (t0, c0) :: _ :: _ =>
      if t0 < t then
        (s.set p R.POS_SPEED (uns 32 (Int.tdiv (diff32 c c0 * 156250000) ((t - t0 : Nat) : Int)))).updPos n fun x =>
          { x with valid := true, newDir := false }
      else s
    | _ => s

/-- An armed compare that the update crosses falls due; one that is due already has fired at an earlier update (R149). -/
def State.cmpCross (s : State) (n k old new ns : Nat) : State :=
  let p := pPOS n
  let armed := s.flag p (if k = 0 then R.POS_CMP_STAT_ARMED0 else R.POS_CMP_STAT_ARMED1)
  let cs : Int := if s.flag p (if k = 0 then R.POS_CMP_STAT_DIR0 else R.POS_CMP_STAT_DIR1) then -1 else 1
  let tgt := s.get p (if k = 0 then R.POS_CMP0 else R.POS_CMP1)
  let due := if k = 0 then (s.posAt n).due0 else (s.posAt n).due1
  if armed && due.isNone && 0 < diff32 new old * cs && 0 < diff32 tgt old * cs && diff32 tgt new * cs ≤ 0 then
    s.updPos n fun x => if k = 0 then { x with due0 := some ns } else { x with due1 := some ns }
  else s

/-- A count update of size d at tick t, time-base ns (R146 to R150, R156, R234). -/
def State.posUpdate (s : State) (n : Nat) (d : Int) (t ns : Nat) : State :=
  let p := pPOS n
  let old := s.get p R.POS_CNT
  let c := uns 32 (old + d)
  let x := s.posAt n
  let ds : Int := if x.dir then -1 else 1
  let e := s.get p R.POS_TURN
  let hyst := max 1 (s.get p R.POS_HYST)
  let s := (s.set p R.POS_CNT c).set p R.POS_EDGE_T ns
  let rev := !(0 < d * ds) && decide ((hyst : Int) ≤ diff32 e c * ds)
  let s := if 0 < d * ds then (if 0 < diff32 c e * ds then s.set p R.POS_TURN c else s)
    else if rev then
      ((s.set p R.POS_TURN c).updPos n fun x => { x with dir := !x.dir, revSince := true }).cause p 3
    else s
  let s := s.speedRule n d t c rev
  let s := (s.cmpCross n 0 old c ns).cmpCross n 1 old c ns
  if 10 ≤ n then s
  else
    let s := s.updPos n fun x => { x with joinSteps := x.joinSteps + d }
    s.each (List.range 8) fun t b => t.lineStep b n d c

/-! ### Quadrature -/

/-- The step of a transition of (A, B): none for no change, some 0 for an illegal one (R139). -/
def quadStep (a0 b0 a b : Bool) : Option Int :=
  if a0 = a ∧ b0 = b then none
  else if a0 != a && b0 != b then some 0
  else
    let pos := fun (x y : Bool) => if !x && !y then 0 else if x && !y then 1 else if x && y then 2 else 3
    some (if pos a b = (pos a0 b0 + 1) % 4 then 1 else -1)

/-- Channel n counts: started, enabled, not fenced and not in reset (R138). A page that is held only until step CLK is first done counts
on the oscillator (R367). -/
def State.posCounts (s : State) (n : Nat) : Bool :=
  s.posStarted && s.enabled (pPOS n) && !s.fenced (pPOS n) && !(s.srsts.getD (pPOS n) {}).running && !s.shut
/-- EN of channel n is written 1: STILL sets and the speed history is empty (R138, R148). -/
def State.posEnable (s : State) (n : Nat) : State :=
  (s.set (pPOS n) R.POS_SPEED 0).updPos n fun x => { x with still := true, valid := false, hist := [] }

/-- COUNT_UPDATE: inputs A and B of a quadrature channel take new accepted levels (R139, R146 to R151). A channel that does
not count only follows the levels (R138); P10 and P11 have no such inputs. -/
def execCountUpdate (c : PosCh) (a b : Bool) (s : State) : Host.Outcome State Fault Refusal :=
  let n := c.val
  .next <|
    if 10 ≤ n then s
    else
      let x := s.posAt n
      let t := s.updPos n fun x => { x with a := a, b := b }
      if !s.posCounts n then t
      else match quadStep x.a x.b a b with
        | none => t
        | some 0 =>
          ((t.incSat (pPOS n) R.POS_QERR_CNT).err (pPOS n) 0x40 1 (s.get (pPOS n) R.POS_CNT)).cause (pPOS n) 11
        | some d => t.posUpdate n (if s.flag (pPOS n) R.POS_CTRL_INV then -d else d) s.tick s.cNs

/-- INDEX: an accepted rising transition of Z on P2 to P9 (R142). -/
def execIndex (c : PosCh) (s : State) : Host.Outcome State Fault Refusal :=
  let n := c.val
  let p := pPOS n
  .next <|
    if !(2 ≤ n && n < 10) || !s.posCounts n || !s.flag p R.POS_CTRL_IDX_EN then s
    else
      let x := s.posAt n
      let cnt := s.get p R.POS_CNT
      let prev := s.get p R.POS_IDX_LAT
      let fwd := !s.flag p R.POS_IDX_STAT_LAST_DIR
      let t := (((s.set p R.POS_IDX_PREV prev).set p R.POS_IDX_LAT cnt).setFlag p R.POS_IDX_STAT_LAST_DIR x.dir).cause p 6
      let t := t.updPos n fun x => { x with z := true, revSince := false, latches := min 2 (x.latches + 1) }
      if x.latches = 0 || !fwd || x.dir || x.revSince then t.setFlag p R.POS_IDX_STAT_CHECKED false
      else
        let off := (diff32 cnt prev - sgn 32 (s.get p R.POS_IDX_NOM)).natAbs
        let t := t.setFlag p R.POS_IDX_STAT_CHECKED true
        if s.get p R.POS_IDX_TOL < off then
          (((t.setFlag p R.POS_IDX_STAT_DRIFT true).incSat p R.POS_DRIFT_CNT).err p 0x43 0 cnt).cause p 7
        else t.setFlag p R.POS_IDX_STAT_DRIFT false

/-- LOSS_OF_SIGNAL: A, B or an enabled Z has shown no signal for 1.000 µs: the channel fences (R140, R157), at the end of its soft reset
where one runs (R384). -/
def execLossOfSignal (c : PosCh) (sig : PosSig) (s : State) : Host.Outcome State Fault Refusal :=
  let n := c.val
  .next <|
    if 10 ≤ n || !s.posStarted || s.shut || !s.enabled (pPOS n) || s.fenced (pPOS n) ||
      (sig == .z && !(2 ≤ n && s.flag (pPOS n) R.POS_CTRL_IDX_EN)) then s
    else if s.srstBusy (pPOS n) then s.fence (pPOS n) 0x40 0 (s.get (pPOS n) R.POS_CNT)
    else (s.updPos n fun x => { x with los := true }).fence (pPOS n) 0x40 0 (s.get (pPOS n) R.POS_CNT)

/-- STILL: POS_STILL_TO ticks have passed without a count update (R147, R148). -/
def execStill (c : PosCh) (s : State) : Host.Outcome State Fault Refusal :=
  let n := c.val
  let x := s.posAt n
  .next <|
    if !s.posCounts n || x.still || s.tick < x.lastUpd + s.get (pPOS n) R.POS_STILL_TO then s
    else ((s.set (pPOS n) R.POS_SPEED 0).updPos n fun x => { x with still := true, valid := false, hist := [] }).cause (pPOS n) 4

/-- POS_START: 1.000 ms after reset release the channels begin to count (R138, R372). -/
def execPosStart (s : State) : Host.Outcome State Fault Refusal :=
  .next (if s.inReset || s.posStarted || s.tick < 156250 then s else { s with posStarted := true })

/-! ### Serial channels -/

/-- A transfer of serial channel n starts, or is skipped while one runs (R143, R144). -/
def State.xferStart (s : State) (n : Nat) : State :=
  s.updPos n fun x => { x with
    lastStart := some s.osc, xfer := x.xfer.or (some (s.tick, s.cNs)), xferAt := if x.xfer.isSome then x.xferAt else s.osc }
/-- SERIAL_TRANSFER_START: PER ticks after the latest start a transfer of P10 or P11 begins; one that falls due while a
transfer runs is skipped (R143, R144). Transfers go on while the main PLL is lost (R383). -/
def execSerialTransferStart (c : PosCh) (s : State) : Host.Outcome State Fault Refusal :=
  let n := c.val
  let x := s.posAt n
  .next <|
    if n < 10 || !s.posCounts n then s
    else match x.lastStart with
      | some t =>
        if s.osc < t + s.get (pPOS n) R.POS_SER_CFG_PER then s else s.xferStart n
      | none => s.xferStart n

/-- A transfer has failed with a code (R145). -/
def State.serialFail (s : State) (n code src : Nat) (cnt : Fld) : State :=
  let p := pPOS n
  let a := s.get p R.POS_CNT
  let s := ((s.incSat p cnt).err p code src a).cause p 12
  let s := s.updPos n fun x => { x with xfer := none, fails := x.fails + 1 }
  let lim := s.get p R.POS_SER_LIM
  if lim ≠ 0 ∧ lim ≤ (s.posAt n).fails then s.fence p code src a 0 false else s

/-- CRC-8 with polynomial 0x07 and initial value 0 (R117, R143). -/
def crc8 (l : List Bool) : Nat := crcMsb 8 7 0 l

/-- SERIAL_WORD: a transfer ends with its 41 bits (R143, R145). On a channel that has stopped since it began, the word is lost (R138). -/
def execSerialWord (c : PosCh) (w : BitVec 41) (s : State) : Host.Outcome State Fault Refusal :=
  let n := c.val
  let p := pPOS n
  .next <|
    if n < 10 then s
    else match (s.posAt n).xfer with
      | none => s
      | some (t, ns) =>
        if !s.posCounts n then s.updPos n fun x => { x with xfer := none }
        else
        let v := w.toNat
        if crc8 (bitsMsb 33 (v / 256)) != v % 256 then s.serialFail n 0x41 0 R.POS_SER_CRC_CNT
        else if bit v 8 then s.serialFail n 0x40 2 R.POS_SER_ERR_CNT
        else
          (s.updPos n fun x => { x with xfer := none, fails := 0 }).posUpdate n (diff32 (v / 512) (s.get p R.POS_CNT)) t ns

/-- SERIAL_TIMEOUT: no start bit within 16 rising edges of CLK (R145). -/
def execSerialTimeout (c : PosCh) (s : State) : Host.Outcome State Fault Refusal :=
  let n := c.val
  .next <|
    if n < 10 then s
    else match (s.posAt n).xfer with
      | none => s
      | some _ =>
        if s.osc < (s.posAt n).xferAt + 31 * (max 3 (s.get (pPOS n) R.POS_SER_CFG_DIV) + 1) then s
        else if !s.posCounts n then s.updPos n fun x => { x with xfer := none }
        else s.serialFail n 0x42 0 R.POS_SER_TO_CNT

/-! ### Position compares (R149) -/

/-- What a write of a compare's target does. -/
def posCmpAct (n k v : Nat) (s : State) : State :=
  let p := pPOS n
  let x := s.posAt n
  let cs : Int := if x.dir then -1 else 1
  let behind := decide (diff32 v (s.get p R.POS_CNT) * cs ≤ 0)
  let s := s.storeReg p (0x80 + 4 * k) v
  let s := if k = 0 then
      ((((s.set p R.POS_CMP_STAT_ARMED0 1).set p R.POS_CMP_STAT_FIRED0 0).setFlag p R.POS_CMP_STAT_DIR0 x.dir).setFlag p
        R.POS_CMP_STAT_BEHIND0 behind).updPos n fun x => { x with due0 := none }
    else
      ((((s.set p R.POS_CMP_STAT_ARMED1 1).set p R.POS_CMP_STAT_FIRED1 0).setFlag p R.POS_CMP_STAT_DIR1 x.dir).setFlag p
        R.POS_CMP_STAT_BEHIND1 behind).updPos n fun x => { x with due1 := none }
  if behind then s.cause p 10 else s
/-- POS_CMP_WRITE: a host write of POS_CMP0 or POS_CMP1. -/
def execPosCmpWrite (c : PosCh) (k : Fin 2) (v : W32) (s : State) : Host.Outcome State Fault Refusal :=
  .next (s.writeWith (pPOS c.val) (0x80 + 4 * k.val) v.toNat (posCmpAct c.val k.val v.toNat))

/-- What a write of POS_CMP_CTRL does. -/
def posDisarmAct (n v : Nat) (s : State) : State :=
  let p := pPOS n
  let s := if bit v 0 then (s.set p R.POS_CMP_STAT_ARMED0 0).updPos n fun x => { x with due0 := none } else s
  if bit v 1 then (s.set p R.POS_CMP_STAT_ARMED1 0).updPos n fun x => { x with due1 := none } else s
/-- POS_CMP_DISARM: a host write of POS_CMP_CTRL. -/
def execPosCmpDisarm (c : PosCh) (mask : BitVec 2) (s : State) : Host.Outcome State Fault Refusal :=
  .next (s.writeWith (pPOS c.val) 0x88 mask.toNat (posDisarmAct c.val mask.toNat))

/-- POS_COMPARE_FIRE: a compare that a count update crossed fires, once (R149). -/
def execPosCompareFire (c : PosCh) (k : Fin 2) (s : State) : Host.Outcome State Fault Refusal :=
  let n := c.val
  let p := pPOS n
  let x := s.posAt n
  .next <|
    if !s.posCounts n then s
    else if k.val = 0 then
      match x.due0 with
      | none => s
      | some ns => ((((s.set p R.POS_CMP_STAT_ARMED0 0).set p R.POS_CMP_STAT_FIRED0 1).set p R.POS_CMP_T0 ns).updPos n fun x =>
          { x with due0 := none }).cause p 8
    else
      match x.due1 with
      | none => s
      | some ns => ((((s.set p R.POS_CMP_STAT_ARMED1 0).set p R.POS_CMP_STAT_FIRED1 1).set p R.POS_CMP_T1 ns).updPos n fun x =>
          { x with due1 := none }).cause p 9

/-! ### Stretch windows (R156, R236) -/

/-- The new gain after a window whose bar-encoder total is e, and whether it was clipped (R156). -/
def gainAfter (g e : Int) (wexp nom k lim : Nat) : Int × Int × Bool :=
  let gt := Int.fdiv (e * 2 ^ (48 - wexp)) nom - 2 ^ 24
  let n := g + Int.fdiv (gt - g) (2 ^ k)
  (gt, clampI (-(lim : Int)) lim n, decide ((lim : Int) < n ∨ n < -(lim : Int)))

/-- STRETCH_WINDOW_CLOSE: a window that the master count has closed updates g (R156); on the home unit of a pair the new
g goes out as GAIN for the safe line, and the partner's own windows do not change its g (R236). -/
def execStretchWindowClose (b : Bar) (s : State) : Host.Outcome State Fault Refusal :=
  let i := b.val
  let p := pLINE i
  let l := s.lineAt i
  .next <|
    match l.strDue with
    | [] => s
    | e :: rest =>
      let t := s.updLine i fun l => { l with strDue := rest }
      if !s.lineRuns i || !s.strRuns i then t
      else if l.strSkip then t.updLine i fun l => { l with strSkip := false }
      else
        let nom := s.get p R.LINE_STR_NOM
        if nom = 0 || s.fenced (pPOS (2 + i)) then t
        else
          let wexp := max 10 (min 24 (s.get p R.LINE_STR_CFG_WEXP))
          let r := gainAfter (s.gain i) e wexp nom (s.get p R.LINE_STR_CFG_K) (s.get p R.LINE_STR_LIM)
          let meas := if -(2 ^ 31) ≤ r.1 ∧ r.1 < 2 ^ 31 then uns 32 r.1 else Config.strMeas t.fresh
          let t := (t.set p R.LINE_STR_MEAS meas).tickFresh
          let t := if r.2.2 then (t.incSat p R.LINE_STR_CLIP_CNT).cause p 6 else t
          if s.leads then
            let line := s.safeLine i
            (t.updLine i fun l => { l with gainAt := l.gainAt ++ [(line, r.2.1)] }).crookCommand 0x15
              ([BitVec.ofNat 8 i] ++ zeros 3 ++ leBytes 4 line ++ leBytes 4 (uns 32 r.2.1))
          else if s.follows then t
          else t.set p R.LINE_GAIN (uns 32 r.2.1)

/-! ### Registration adjustments (R154, R236, R237) -/

/-- Arm, replace or refuse an adjustment of bar b (R154); under the home unit's lead a line before the safe line is refused
too, and what is armed is sent to the partner (R236, R237). -/
def State.adjGo (s : State) (b whn : Nat) : State :=
  let p := pLINE b
  let line := s.get p R.LINE_ADJ_LINE
  let adj := sgn 32 (s.get p R.LINE_ADJ)
  let early := decide (diff32 line (s.get p R.LINE_SEQ) ≤ 0) || (s.leads && decide (diff32 line (s.safeLine b) < 0))
  if 2 ≤ whn || (whn = 1 && early) then (s.set p R.LINE_ADJ_CTRL_LATE 1).cause p 5
  else
    let s := ((s.set p R.LINE_ADJ_CTRL_LATE 0).set p R.LINE_ADJ_CTRL_ARMED 1).updLine b fun l =>
      { l with adj := some (adj, whn, line) }
    if s.leads && whn = 1 then
      s.crookCommand 0x14 ([BitVec.ofNat 8 b] ++ zeros 3 ++ leBytes 4 line ++ leBytes 4 (uns 32 adj))
    else s

/-- What a write of LINE_ADJ_CTRL does; a GO on the partner is ignored and counted (R236). -/
def lineAdjAct (b v : Nat) (s : State) : State :=
  let t := s.storeReg (pLINE b) 0x7C v
  if !bit v 31 then t
  else if s.follows then s.incSat pPAIR R.PAIR_IGN_CNT
  else t.adjGo b (field v 4 2)
/-- LINE_ADJ_GO: a host write of LINE_ADJ_CTRL with GO 1. -/
def execLineAdjGo (b : Bar) (whn : BitVec 2) (s : State) : Host.Outcome State Fault Refusal :=
  let v := 2 ^ 31 + 16 * whn.toNat
  .next (s.writeWith (pLINE b.val) 0x7C v (lineAdjAct b.val v))

end Sys2Proof.Machine
end

