-- ==== Sys2Proof/Machine/LineOps.lean ====
section
/-! DEFINITION. Starting and stopping a line generator (R150, R157, R234), and the comparison of digests that decides between
the units of a pair (R235, R240 to R242, R247). -/

namespace Sys2Proof.Machine

/-! ### Enable and disable of LINE (R150, R157) -/

/-- LINE_CTRL.SRC as it acts (R159). -/
def State.lineSrc (s : State) (b : Nat) : Nat :=
  if s.get (pLINE b) R.LINE_CTRL_SRC = 3 then 0 else s.get (pLINE b) R.LINE_CTRL_SRC

/-- LINE b starts on a source with or without failover, with the given next index, NEXT and g; Y is the source's count, or the value
given (R150, R234). -/
def State.lineStart (s : State) (b src0 : Nat) (fo : Bool) (next : Nat) (nextPos g : Int) (y : Option Int) : State :=
  let p := pLINE b
  let other := if src0 = 0 then 1 else 0
  let lost := s.fenced (pPOS (srcChannel b src0))
  let ovr := lost && fo && src0 != 2 && !s.fenced (pPOS other)
  let src := if ovr then other else src0
  let cnt := s.get (pPOS (srcChannel b src)) R.POS_CNT
  let y0 := y.getD (sgn 32 cnt * 2 ^ 24)
  let s := (((s.setY b y0).setNext b nextPos).set p R.LINE_SEQ (next + 2 ^ 32 - 1)).set p R.LINE_GAIN (uns 32 g)
  let s := s.updLine b fun l => { l with
    due := false, hiY := y0, src := src, failover := fo, failedOver := ovr, strBase := cnt,
    strE := 0, strDue := [], strSkip := true, gainAt := [], srcLost := lost && !ovr }
  let s := (s.updJob b fun j => { j with prev := none }).updPair fun p => { p with jobLine := p.jobLine.del b }
  let s := if ovr then s.cause p 7 else s
  if lost && !ovr then
    s.fenceOne p (s.get (pPOS (srcChannel b src0)) R.PG_FENCE_REASON) 0 (s.get p R.LINE_SEQ)
  else s.lineDue b
/-- The enable of R150. -/
def State.lineEnable (s : State) (b : Nat) : State :=
  let p := pLINE b
  s.lineStart b (s.lineSrc b) (s.flag p R.LINE_CTRL_FAILOVER) (s.get p R.LINE_SEQ0) (sgn 64 (s.get64 p R.LINE_ORG_LO R.LINE_ORG_HI)) 0 none
/-- LINE b is disabled. A tile-line that was handed over waits for the first boundary after the next enable (log 112). -/
def State.lineDisable (s : State) (b : Nat) : State :=
  (((s.set (pLINE b) R.PG_CTRL_EN 0).updLine b fun l => { l with due := false }).updPair fun p =>
    { p with joined := setBit p.joined b false, joinOk := p.joinOk.del b }).lineStopped b

/-! ### Digests (R235, R240 to R242, R247) -/

/-- The skew of a bar-line in ticks, rounded to the nearest (R235; log 31). -/
def State.skew (s : State) (own peer : DigSt) : Int :=
  let ofs := sgn 64 (s.get64 pPAIR R.PAIR_TOFS_LO R.PAIR_TOFS_HI)
  Int.fdiv (10 * sgn 32 (uns 32 ((own.tBnd : Int) - peer.tBnd + ofs)) + 32) 64
/-- Bar b runs on both units (R247; log 118). -/
def State.bothRun (s : State) (b : Nat) : Bool := s.lineRuns b && bit s.pair.peerBars b
/-- PAIR_RUN: the lowest run over the bars that run on both units, 0 where there is none (R247). -/
def State.pairRun (s : State) : Nat :=
  match (List.range 8).filter s.bothRun with
  | [] => 0
  | b :: l => l.foldl (fun m b => min m (s.pair.runs.getD b 0)) (s.pair.runs.getD b 0)
/-- A bar's run starts again (R241). -/
def State.runReset (s : State) (b : Nat) : State :=
  let t := s.updPair fun p => { p with runs := p.runs.del b }
  if t.pairState = 6 then t.setPairState 5 else t
/-- The joiner gives the join up: its joined LINE pages are disabled, and it tries again 1.000 ms later (R234). -/
def State.joinFail (s : State) : State :=
  let t := s.each ((List.range 8).filter fun b => bit s.pair.joined b) fun t b => t.lineDisable b
  t.updPair fun p => { p with joined := 0, joinOk := [], joinTs := none, tofs := [], latched := false, joinFailed := some s.tick }
/-- Cause 9 on a unit not in CLAIM: back to JOIN (R235, R245). -/
def State.skewLost (s : State) : State :=
  let t := s.each ((List.range 8).filter fun b => bit s.pair.joined b) fun t b => t.lineDisable b
  (t.updPair fun p => { p with joined := 0, joinOk := [], joinTs := none, tofs := [], latched := false, skewRuns := [], runs := [] }).setPairState 3

/-- The skew of a compared bar-line (R234 step 5, R235). -/
def State.judgeSkew (s : State) (b : Nat) (own peer : DigSt) : State :=
  let k := s.skew own peer
  let bad := decide ((s.get pPAIR R.PAIR_SKEW_LIM : Int) < k ∨ k < -(s.get pPAIR R.PAIR_SKEW_LIM : Int))
  let s := s.set pPAIR R.PAIR_SKEW_LAST (uns 16 k)
  let n := if bad then s.pair.skewRuns.getD b 0 + 1 else 0
  let s := s.updPair fun p => { p with skewRuns := p.skewRuns.put b n }
  if s.pairState = 3 then
    if !bit s.pair.joined b then s
    else if bad then s.joinFail
    else
      let s := s.updPair fun p => { p with joinOk := p.joinOk.put b (p.joinOk.getD b 0 + 1) }
      if (List.range 8).all fun i => !bit s.pair.joined i || 64 ≤ s.pair.joinOk.getD i 0 then
        (s.updPair fun p => { p with runs := [] }).setPairState (if s.causeMask = 0 then 5 else 4)
      else s
  else if max 1 (s.get pPAIR R.PAIR_SKEW_N) ≤ n then
    let s := s.updPair fun p => { p with skewRuns := p.skewRuns.put b 0 }
    if s.pairState = 7 then (if s.peerState = 7 && !s.straps.home then s.pairCause 9 0x71 b else s)
    else if 4 ≤ s.pairState && s.pairState ≤ 6 then s.skewLost
    else s
  else s

/-- The verdict on a mismatch (R242). -/
def verdict (own peer : DigSt) : Nat :=
  match own.ok, peer.ok with
  | true, false => 0
  | false, true => 1
  | true, true => if own.wsrc = peer.wsrc then 2 else 3
  | false, false => 4
/-- Both DIGESTs of a bar-line are held (R241, R242, R247). -/
def State.judgeDigest (s : State) (own peer : DigSt) : State :=
  let b := own.bar
  let tiles := (List.range 16).foldl (fun m t => if own.digs.getD t 0 = peer.digs.getD t 0 then m else m + 2 ^ t) 0
  if tiles = 0 then
    if s.pairState = 5 || s.pairState = 6 then
      let s := s.updPair fun p => { p with runs := p.runs.put b (p.runs.getD b 0 + 1) }
      if s.pairState = 5 && max 1 (s.get pPAIR R.PAIR_RUNLEN) ≤ s.pairRun then
        let s := s.updPair fun p => { p with diverged := false }
        if s.flag pPAIR R.PAIR_CTRL_AUTORET then
          (s.updPair fun p => { p with holdUntil := s.tick + msTicks (s.get pPAIR R.PAIR_HOLD) }).setPairState 6
        else s
      else s
    else s
  else
    let v := verdict own peer
    let s := (((((s.set pPAIR R.PAIR_MIS_LINE own.line).set pPAIR R.PAIR_MIS_INFO_TILES tiles).set pPAIR
      R.PAIR_MIS_INFO_BAR b).set pPAIR R.PAIR_MIS_INFO_VERDICT v).incSat pPAIR R.PAIR_MIS_CNT).cause pPAIR 6
    let s := if v = 0 then s else s.err pPAIR 0x71 v own.line b
    let s := if v = 2 || v = 3 then s.updPair fun p => { p with diverged := true } else s
    let s := s.runReset b
    if v = 1 then s.pairCause 7 0x71 b else s

/-- Compare the DIGESTs of a bar-line once both are held (R241). -/
def State.compareDigests (s : State) (b line : Nat) : State :=
  let f := fun (d : DigSt) => d.bar == b && d.line == line
  match s.pair.own.find? f, s.pair.peer.find? f with
  | some own, some peer =>
    let s := s.updPair fun p => { p with own := p.own.filter (!f ·), peer := p.peer.filter (!f ·) }
    (s.judgeSkew b own peer).judgeDigest own peer
  | _, _ => s

/-- The unit's own DIGEST of a line handed over (R240): it is sent, kept and compared; with Crook down it misses its counterpart (R241). -/
def State.ownDigest (s : State) (d : DigSt) : State :=
  if !s.pairOn then s
  else
    let s := s.crookSend 0x04 ([BitVec.ofNat 8 d.bar, BitVec.ofNat 8 (b2n d.ok + 2 * b2n d.undr + 4 * b2n d.segblk), 0, 0] ++
      leBytes 4 d.line ++ leBytes 4 d.tBnd ++ leBytes 4 d.wsrc ++ d.digs.flatMap (leBytes 4 ·))
    (s.updPair fun p => { p with own := p.own ++ [d] }).compareDigests d.bar d.line

end Sys2Proof.Machine
end

