-- ==== Sys2Proof/Machine/PipeOps.lean ====
section
/-! DEFINITION. The line pipeline's stages (R84 to R99), the placement of its tables (R103), swaps and copies (R104 to R106), the
coverage of a line (R267) and the bytes of a tile-line frame (R112 to R115). -/

namespace Sys2Proof.Machine

/-! ### Placement (R103) -/

/-- Line-store address of copy c of a bar's table: 0 nozzle words, 1 thresholds, 2 WAVEMAP. -/
def tabAddr (t c b : Nat) : Nat :=
  if t = 0 then 0x1800000 + 0x300000 * c + 0x60000 * b
  else if t = 1 then 0x1E00000 + 0x200000 * c + 0x40000 * b
  else 0x2200000 + 0x800 * c + 0x100 * b
/-- Bytes of a bar's table. -/
def tabSize (t : Nat) : Nat := if t = 0 then 0x60000 else if t = 1 then 0x40000 else 0x100
/-- History bits of bar b. -/
def histAddr (b : Nat) : Nat := 0x2210000 + 0xC000 * b
/-- Copy in force of a bar's table: bit t of ACTIVE. -/
def State.activeCopy (s : State) (b t : Nat) : Nat := b2n (bit (s.get (pPIPE b) R.PIPE_TSTAT_ACTIVE) t)
/-- The 32-bit words of bytes. -/
def wordsOf : List Byte → List Nat
  | a :: b :: c :: d :: r => leNat [a, b, c, d] :: wordsOf r
  | _ => []

/-! ### What a line is computed from -/

/-- The inputs of a line: its settings, nozzle words, the threshold row, WAVEMAP, the raw bytes of its slot and of the
neighbour slot with their BLANK masks, and the history nibbles. -/
structure LineIn where
  w : LineWork
  noz : Array Nat
  thr : Array Nat
  wm : Array Nat
  data : Array Nat
  near : Option (Array Nat)
  blank : Nat
  nearBlank : Nat
  hist : Array Nat

/-- Word of nozzle n of tile t. -/
def LineIn.word (x : LineIn) (t n : Nat) : Nat := x.noz.getD (6144 * t + n) 0
/-- OFF and NO_RECV (R100). -/
def wordOff (w : Nat) : Bool := bit w 24
def wordNoRecv (w : Nat) : Bool := bit w 25

/-! ### Upscaling (R89) -/

/-- The segment of sample i. -/
def segOfSample (i : Nat) : Nat := min 15 (2 * i / 6016)
/-- Value U of data column d, in quarter steps (R88, R89). -/
def LineIn.value (x : LineIn) (d : Nat) : Nat :=
  let i := d / 2
  let a := x.data.getD i 0
  let k := if d % 2 = 0 then (if i = 0 then none else some (i - 1)) else (if 48191 < i + 1 then none else some (i + 1))
  let b := match k with
    | some j => if bit x.blank (segOfSample j) then a else x.data.getD j 0
    | none => a
  let far := fun j => match x.near with
    | some n => if bit x.nearBlank (segOfSample j) then a else n.getD j 0
    | none => a
  let c := far i
  let e := match k with | some j => far j | none => a
  let ups := if x.w.fast && x.w.ups = 2 then 1 else x.w.ups
  if ups = 1 then 3 * a + b
  else if ups = 2 then (9 * a + 3 * b + 3 * c + e + 2) / 4
  else 4 * a

/-! ### Shift and stitching (R90 to R92) -/

/-- The share of tile t + 1 in column j of a stitch zone (R91). -/
def stitchShare (start width j : Nat) : Nat :=
  let w := min width 128
  if j < start then 0 else if start + w ≤ j then 256 else 256 * (j - start + 1) / (w + 1)
/-- The dither value of i and k (R91). -/
def ditherValue (i k : Nat) : Nat :=
  (List.range 4).foldl (fun a m => a + b2n (bit (i ^^^ k) m) * 2 ^ (7 - 2 * m) + b2n (bit k m) * 2 ^ (6 - 2 * m)) 0
/-- Tile t + 1 is chosen for column j on line ℓ. -/
def rightChosen (start width line j : Nat) : Bool := ditherValue (j % 16) (line % 16) < stitchShare start width j
/-- Whether nozzle n of tile t prints its dot column, and whether fallback gave it the column (R91, R92). -/
def LineIn.prints (x : LineIn) (t n : Nat) : Bool × Bool :=
  let zone := fun (left j : Nat) (right : Bool) =>
    let ch := rightChosen x.w.stitchStart x.w.stitchWidth x.w.line j
    let offL := wordOff (x.word left (6016 + j))
    let offR := wordOff (x.word (left + 1) j)
    let moved := x.w.fallback && (if ch then offR && !offL else offL && !offR)
    let r := ch != moved
    (r == right, moved && r == right)
  if n < 128 ∧ 1 ≤ t then zone (t - 1) n true
  else if 6016 ≤ n ∧ t ≤ 14 then zone t (n - 6016) false
  else (true, false)
/-- The data column of nozzle n of tile t, if there is one (R90). -/
def LineIn.dataColumn (x : LineIn) (t n : Nat) : Option Nat :=
  let d : Int := 6016 * t + n + sgn 6 (field (x.word t 0) 10 6)
  if 0 ≤ d ∧ d ≤ 96383 then some d.toNat else none

/-! ### Screening (R93, R94) -/

/-- The level that thresholds and offset give U (R93). -/
def screen (u thr : Nat) (o : Int) : Nat :=
  if u = 0 then 0
  else ((List.range 3).filter fun j => decide (clampI 0 1023 ((field thr (10 * j) 10 : Nat) + o) < (u : Int))).length
/-- The drop level of nozzle n of tile t for its dot column (R88, R90, R93, R94, R179). -/
def LineIn.level (x : LineIn) (t n : Nat) : Nat :=
  match x.dataColumn t n with
  | none => 0
  | some d =>
    if bit (x.blank ||| x.w.clear) (min 15 (d / 6016)) then 0
    else if x.w.dot then x.data.getD (d / 4) 0 / 4 ^ (3 - d % 4) % 4
    else screen (x.value d) (x.thr.getD ((6016 * t + n) % 256) 0) (sgn 10 (field (x.word t n) 0 10))

/-! ### A tile -/

/-- The receiver of an OFF nozzle's level by its mode (R95). -/
def receiver (line n w : Nat) : Option Nat :=
  let left := if n = 0 then none else some (n - 1)
  let right := if n = 6143 then none else some (n + 1)
  match field w 20 2 with
  | 1 => left
  | 2 => right
  | 3 => if line % 2 = 0 then left else right
  | _ => none
/-- Nozzle r of tile t takes substituted levels. -/
def LineIn.takes (x : LineIn) (t : Nat) (r : Option Nat) : Bool :=
  match r with
  | some n => !wordOff (x.word t n) && !wordNoRecv (x.word t n)
  | none => false

/-- What one tile makes of a line: the levels after screening, the codes, and the counts of R92 and R95. -/
structure TileOut where
  levels : List Nat
  codes : List Nat
  fallbk : Nat
  sub : Nat
  lost : Nat
  deriving DecidableEq, Repr

/-- The level of nozzle n after substitution, of the levels lv (R95). -/
def LineIn.substituted (x : LineIn) (t : Nat) (lv : Array Nat) (n : Nat) : Nat :=
  if wordOff (x.word t n) then 0
  else
    let from1 := fun f => if x.w.subEn && wordOff (x.word t f) && !wordNoRecv (x.word t n)
        && receiver x.w.line f (x.word t f) == some n then lv.getD f 0 else 0
    min 3 (lv.getD n 0 + (if n = 0 then 0 else from1 (n - 1)) + (if n = 6143 then 0 else from1 (n + 1)))
/-- The waveform code of nozzle n of tile t for a level (R96 to R99). -/
def LineIn.code (x : LineIn) (t n l : Nat) : Nat :=
  let l := min (min l (if bit x.w.caps t then 2 else 3)) x.w.lvlCap
  if l = 0 ∨ x.w.held then 0
  else
    let v := (clampI 0 3 (x.w.baseV + sgn 4 (field (x.word t n) 16 4))).toNat
    let h := if x.w.histEn then popcount 3 (x.hist.getD (6144 * t + n) 0) else 0
    x.wm.getD (16 * v + 4 * l + h) 0 % 8
/-- Stages 2 to 7 for tile t. -/
def LineIn.tile (x : LineIn) (t : Nat) : TileOut :=
  let pr := (List.range 6144).map fun n => (x.prints t n)
  let levels := pr.zipIdx.map fun e => if e.1.1 then x.level t e.2 else 0
  let lv := levels.toArray
  let moves := if !x.w.subEn then [] else (List.range 6144).filter fun n =>
    wordOff (x.word t n) && lv.getD n 0 != 0 && field (x.word t n) 20 2 != 0
  let sub := (moves.filter fun n => x.takes t (receiver x.w.line n (x.word t n))).length
  { levels := levels
    codes := (List.range 6144).map fun n => x.code t n (x.substituted t lv n)
    fallbk := (pr.filter (·.2)).length
    sub := sub
    lost := moves.length - sub }

/-- The nibbles of history bytes. -/
def nibbles (l : List Byte) : List Nat := l.flatMap fun b => [b.toNat % 16, b.toNat / 16]
/-- The history nibble after a code (R98, R103). -/
def histShift (h code : Nat) : Nat := h % 4 * 2 + (if code = 0 then 0 else 1)
/-- The history bytes after the line's codes. -/
def histAfter : List Byte → List Nat → List Byte
  | b :: r, c0 :: c1 :: cs => BitVec.ofNat 8 (histShift (b.toNat % 16) c0 + 16 * histShift (b.toNat / 16) c1) :: histAfter r cs
  | _, _ => []

/-! ### Frames (R112 to R115) -/

/-- The codes of one row, three bits each, the first lowest (R114). -/
def packRow : List Nat → List Byte
  | a :: b :: c :: d :: e :: f :: g :: h :: r =>
    leBytes 3 (a + 8 * (b + 8 * (c + 8 * (d + 8 * (e + 8 * (f + 8 * (g + 8 * h))))))) ++ packRow r
  | _ => []
/-- The elements at even places. -/
def evens : List Nat → List Nat
  | a :: _ :: r => a :: evens r
  | [a] => [a]
  | [] => []
/-- Frame bytes 1 to 2,319 of tile t of bar b (R113, R114). -/
def TileLine.body (x : TileLine) (b t : Nat) : List Byte :=
  [0x10] ++ leBytes 4 x.line ++ [BitVec.ofNat 8 t, BitVec.ofNat 8 b, BitVec.ofNat 8 x.wset,
    BitVec.ofNat 8 (8 * b2n x.blank + 4 * b2n x.cap + 2 * b2n x.held + b2n x.jobStart), BitVec.ofNat 8 (x.rowbLines % 16),
    BitVec.ofNat 8 x.rowbFrac] ++ leBytes 4 x.q ++ packRow (evens x.codes) ++ packRow (evens (x.codes.drop 1))
/-- The digest of a tile-line (R115). -/
def TileLine.digest (x : TileLine) (b t : Nat) : Nat := crc32 (x.body b t)
/-- The 2,328 bytes of the data blocks of a frame (R112, R115). -/
def TileLine.frame (x : TileLine) (b t claim : Nat) : List Byte :=
  let l := BitVec.ofNat 8 claim :: x.body b t
  l ++ leBytes 4 (crc32 l) ++ zeros 4

/-! ### Swaps and copies (R104 to R106, R286) -/

/-- Start a copy of the named tables of bar b, over the union with those being copied (R106). -/
def State.copyStart (s : State) (b tables : Nat) : State :=
  let c := match (s.pipeAt b).copy with
    | some (t, _) => t ||| tables
    | none => tables
  if c = 0 then s
  else (s.set (pPIPE b) R.PIPE_TSTAT_COPY_BUSY 1).updPipe b fun x => { x with copy := some (c, s.tick) }
/-- A window write to a shadow entry: offset a in the bar's table t, in the role's present copy (R56). -/
def State.shadowWrite (s : State) (b t a v : Nat) : State :=
  s.lsWrite (tabAddr t (1 - s.activeCopy b t) b + a) (leBytes 4 v)
/-- Table and offset of a held write are one number: table × 2^20 + offset. -/
def State.heldWrites (s : State) (b : Nat) : State :=
  (s.pipeAt b).heldWrites.foldl (fun t w => t.shadowWrite b (w.off / 2 ^ 20) (w.off % 2 ^ 20) w.value)
    (s.updPipe b fun x => { x with heldWrites := [] })
/-- The armed swap of bar b at boundary ℓ (R104, R106, R286): a fenced page takes none. -/
def State.pipeSwap (s : State) (b line : Nat) (jobB : Bool) : State :=
  let p := pPIPE b
  match (s.pipeAt b).armed with
  | none => s
  | some a =>
    let x := s.pipeAt b
    if s.fenced p || s.resetting p then s
    else if a.whn = 0 && x.copy.isSome then s.updPipe b fun x => { x with armed := some { a with deferred := true } }
    else if !(a.whn = 0 || (a.whn = 1 && a.line == line) || (a.whn = 2 && jobB)) then s
    else
      let t := (((s.upd p R.PIPE_TSTAT_ACTIVE (· ^^^ a.tables)).set p R.PIPE_TSTAT_ARMED 0).updPipe b fun x =>
        { x with armed := none }).cause p 4
      let t := if x.copy.isSome then t.copyStart b 0 else t
      if bit a.tables 0 && (a.fromTrim || bit (s.get pCHANT R.CHANT_CTRL_TRIM_EN) b) then t.copyStart b 1 else t
/-- Arm a swap (R104). -/
def State.armSwap (s : State) (b : Nat) (a : ArmedSwap) : State :=
  (s.set (pPIPE b) R.PIPE_TSTAT_ARMED 1).updPipe b fun x => { x with armed := some a }
/-- A GO of PIPE_SWAP (R104, R105, R236, R237). A GO that arms nothing sets LATE; one that disarms does not
(log 135). -/
def State.swapGo (s : State) (b whn tables : Nat) : State :=
  let p := pPIPE b
  let line := s.get p R.PIPE_SWAP_LINE
  let early := decide (diff32 line (s.get (pLINE b) R.LINE_SEQ) ≤ 0) || (s.leads && decide (diff32 line (s.safeLine b) < 0))
  let send := fun (t : State) =>
    if s.leads && (whn = 1 || whn = 2) then
      t.crookCommand 0x13 ([BitVec.ofNat 8 b, BitVec.ofNat 8 tables, BitVec.ofNat 8 whn, 0] ++ leBytes 4 line ++
        leBytes 4 (s.get (pLINE b) R.LINE_SEQ))
    else t
  if whn = 3 || (tables != 0 && whn = 1 && early) then (s.set p R.PIPE_TSTAT_LATE 1).cause p 5
  else
    let s := s.set p R.PIPE_TSTAT_LATE 0
    if tables = 0 then send ((s.set p R.PIPE_TSTAT_ARMED 0).updPipe b fun x => { x with armed := none })
    else send (s.armSwap b { whn := whn, tables := tables, line := line })

/-! ### Registration's coverage (R266 to R268) -/

/-- CPH (R266). -/
def State.cph (s : State) : Nat := (s.camc.phase + 16 - s.camc.dist % 16) % 16
/-- The first line of the coverage block of line ℓ, and whether the block is registered (R266). -/
def State.blockOf (s : State) (line : Nat) : Nat × Bool :=
  let d := (line + 2 ^ 32 - s.cph) % 2 ^ 32
  ((line + 2 ^ 32 - d % 16) % 2 ^ 32, d / 16 % 2 ^ s.camc.dec = 0)
/-- DRAM address of bar b's slice for the block that begins at ℓ_c (R268). -/
def State.sliceAddr (s : State) (lc b : Nat) : Nat :=
  let e := (lc + 2 ^ 32 - s.cph) % 2 ^ 32 / 2 ^ (4 + s.camc.dec) % 2 ^ s.camc.log2
  s.camc.base + e * 0x80000 + 48256 * b
/-- Coverage of camera columns from the screened levels of the sixteen tiles (R267). -/
def coverLine (lv : Array (Array Nat)) : List Nat :=
  let at1 := fun x =>
    let t := min (x / 6016) 15
    let n := x - 6016 * t
    (lv.getD t #[]).getD n 0 + (if n < 128 ∧ 1 ≤ t then (lv.getD (t - 1) #[]).getD (n + 6016) 0 else 0)
  (List.range 48192).map fun k => at1 (2 * k) + at1 (2 * k + 1)
/-- Add a line to bar b's coverage, and write the slice at the block's last line (R267), where all sixteen lines of the block have been added,
each once and in order (log 94). -/
def State.coverAdd (s : State) (b line : Nat) (c : List Nat) (bad : Bool) : State :=
  let k := s.blockOf line
  if !s.working pCAMC || !s.flag pCAMC R.CAMC_CTRL_COV_EN || !k.2 then s
  else
    let first := k.1 == line
    let x := s.pipeAt b
    let on := !first && x.coverAt == some k.1 && (k.1 + x.coverN) % 2 ^ 32 == line
    let sum := if on then List.zipWith (· + ·) x.cover c else c
    let n := if on then x.coverN + 1 else 1
    let bad := bad || (on && x.coverBad)
    let last := (k.1 + 15) % 2 ^ 32 == line
    let open_ := (first || on) && !last
    let s := s.updPipe b fun x => { x with
      coverAt := if open_ then some k.1 else none
      cover := if open_ then sum else [], coverBad := bad && open_, coverN := if open_ then n else 0 }
    if last && on && n = 16 then
      s.dramPut (s.sliceAddr k.1 b) (sum.map (BitVec.ofNat 8) ++ leBytes 4 k.1 ++ [BitVec.ofNat 8 (b2n bad)] ++ zeros 59) 0x49
    else s

/-! ### Reading the line store for a line (R108) -/

/-- Read n line-store bytes for PIPE b: each uncorrectable one is recorded with SRC, and is a cause of the pair except in a
copy. The bytes, and the addresses of the bad ones. -/
def State.pipeRead (s : State) (b a n src : Nat) : State × List Byte × List Nat :=
  let r := s.lsRead a n 0
  let bad := (r.2.zipIdx.filter fun x => x.1.isNone).map fun x => a + x.2
  let t := bad.foldl (fun t x => t.err (pPIPE b) 0x11 src x) r.1
  (if bad.isEmpty || src = 3 then t else t.pairCause 2 0x11 b, r.2.map (·.getD 0), bad)
/-- The PIPE page fences at the next boundary for the first bad address of a read (R108). -/
def State.pipeDoom (s : State) (b src : Nat) (bad : List Nat) : State :=
  match bad with
  | [] => s
  | a :: _ => s.updPipe b fun x => { x with fenceNext := x.fenceNext.or (some (src, a)) }
/-- Read the data of a ring slot: its bytes, and the mask of segments that hold a bad byte. -/
def State.slotRead (s : State) (b : Nat) (dot : Bool) (idx : Nat) : State × List Byte × Nat :=
  let a := slotAddr b dot idx
  let r := s.pipeRead b a (if dot then 24096 else 48192) 0
  (r.1, r.2.1, r.2.2.foldl (fun m x => m ||| 2 ^ min 15 ((x - a) / segOffset dot 1)) 0)
/-- Count the blank segment lines of the slot at a place of the ring once each (R88). -/
def State.countBlank (s : State) (b idx blank : Nat) : State :=
  let old := (((s.decAt b).slots.find? fun x => x.idx == idx).map (·.counted)).getD 0
  let new := andNot blank old
  if new = 0 then s
  else (s.addSat (pPIPE b) R.PIPE_SEGBLK_CNT (popcount 16 new)).updDec b fun d =>
    { d with slots := d.slots.map fun x => if x.idx = idx then { x with counted := old ||| new } else x }
/-- The CHECK values to take over slot bytes: those of the segments that a record gave (R240). -/
def takeChecks (dot : Bool) (checks : List (Option Nat)) (l : List Byte) : List Nat :=
  (checks.zipIdx.filter fun e => e.1.isSome).map fun e => crc32 ((l.drop (segOffset dot e.2)).take (rawBytes dot e.2))
/-- The CRC-32 over check values (R240). -/
def checkSum (l : List Nat) : Nat := crc32 (l.flatMap (leBytes 4 ·))

end Sys2Proof.Machine
end

