-- ==== Sys2Proof/Machine/Pipe.lean ====
section
/-! DEFINITION. The line pipelines: HAND_OVER, PIPE_SWAP_GO, PIPE_COPY, COPY_END (chapter 4, R240, R267). -/

namespace Sys2Proof.Machine

/-! ### HAND_OVER -/

/-- What the slots of a line gave: the bytes of the slot and the neighbour slot, their BLANK masks, and the CRC-32 values
taken over the bytes read. -/
structure SlotData where
  data : List Byte := []
  blank : Nat := 0
  near : Option (List Byte) := none
  nearBlank : Nat := 0
  take : List Nat := []
  deriving DecidableEq, Repr

/-- Read the slots of a line (R87, R88, R108, R240). -/
def State.readSlots (s : State) (b : Nat) (w : LineWork) : State × SlotData :=
  let r := s.slotRead b w.dot w.slot
  let blank := w.blankMask ||| r.2.2
  let s := r.1.countBlank b w.slot blank
  let take := takeChecks w.dot (w.checks.take 16) r.2.1
  match w.neigh with
  | none => (s, { data := r.2.1, blank := blank, take := take })
  | some i =>
    let q := s.slotRead b w.dot i
    let nb := w.neighBlank ||| q.2.2
    (q.1.countBlank b i nb,
      { data := r.2.1, blank := blank, near := some q.2.1, nearBlank := nb,
        take := take ++ takeChecks w.dot (w.checks.drop 16) q.2.1 })

/-- Read the active tables for a line: nozzle words, the line's threshold row in contone, WAVEMAP; and the bad addresses
(R93, R94, R99, R108; log 137). -/
def State.readTables (s : State) (b : Nat) (w : LineWork) : State × List Byte × List Byte × List Byte × List Nat :=
  let copy := fun t => b2n (bit w.active t)
  let n := s.pipeRead b (tabAddr 0 (copy 0) b) (tabSize 0) 1
  let t := if w.dot then (n.1, [], []) else n.1.pipeRead b (tabAddr 1 (copy 1) b + 1024 * (w.line % 256)) 1024 1
  let m := t.1.pipeRead b (tabAddr 2 (copy 2) b) (tabSize 2) 1
  (m.1, n.2.1, t.2.1, m.2.1, n.2.2 ++ t.2.2 ++ m.2.2)

/-- The bytes as an array of numbers. -/
def byteArray (l : List Byte) : Array Nat := (l.map (·.toNat)).toArray

/-- The channels of bar b that are fenced or do not claim (R224, R267), as a mask. -/
def State.badChannels (s : State) (b : Nat) : Nat :=
  (List.range 16).foldl (fun m t =>
    let h := 16 * b + t
    if s.working (pHEAD h) && s.working pHEADC && s.barClaims b && s.claimLevel != 0 && s.lineRuns b && s.working (pPIPE b)
    then m else m + 2 ^ t) 0

/-- The line pipeline hands over the line it computes (R84 to R99, R108, R240, R267); its ring slots are released then
(R87; log 32). Nothing happens where no line is being computed; a page that does not work hands nothing over (R108). A history byte
that reads as uncorrectable counts as 0 and is stored so, with fresh check bits (log 106). A line with code 0 on every nozzle counts no
moves (log 138). -/
def State.handOver (s : State) (b : Nat) : State :=
  match (s.pipeAt b).work with
  | none => s
  | some w =>
    if !s.working (pPIPE b) then s.updPipe b fun x => { x with work := none }
    else
    let p := pPIPE b
    let s := s.updPipe b fun x => { x with work := none }
    let h := s.pipeRead b (histAddr b) 0xC000 2
    let s := h.1.pipeDoom b 2 h.2.2
    let quiet := w.idle || w.blank
    let sd := if quiet then (s, {}) else s.readSlots b w
    let tb := if quiet then (sd.1, [], [], [], []) else sd.1.readTables b w
    let s := tb.1.pipeDoom b 1 tb.2.2.2.2
    let x : LineIn :=
      { w := w, noz := (wordsOf tb.2.1).toArray, thr := (wordsOf tb.2.2.1).toArray, wm := (wordsOf tb.2.2.2.1).toArray,
        data := byteArray sd.2.data, near := sd.2.near.map byteArray, blank := sd.2.blank, nearBlank := sd.2.nearBlank,
        hist := (nibbles h.2.1).toArray }
    let dead := quiet || !tb.2.2.2.2.isEmpty || !h.2.2.isEmpty
    let none1 : TileOut := { levels := List.replicate 6144 0, codes := List.replicate 6144 0, fallbk := 0, sub := 0, lost := 0 }
    let tiles := (List.range 16).map fun t => if dead then none1 else x.tile t
    let s := ((s.addWrap p R.PIPE_SUB_CNT (tiles.foldl (fun n o => n + o.sub) 0)).addSat p R.PIPE_SUBLOST_CNT
      (tiles.foldl (fun n o => n + o.lost) 0)).addWrap p R.PIPE_FALLBK_CNT (tiles.foldl (fun n o => n + o.fallbk) 0)
    let s := s.lsWrite (histAddr b) (histAfter h.2.1 (tiles.flatMap (·.codes)))
    let tl := tiles.zipIdx.map fun o =>
      let r := w.rows.getD o.2 (0, 0, 0)
      ({ line := w.line, q := w.q, blank := w.blank, held := w.held, cap := bit w.caps o.2
         jobStart := w.jobStart, wset := r.1, rowbLines := r.2.1, rowbFrac := r.2.2, jobId := w.jobId, recQ := if w.idle then idleId else w.q,
         last := w.lastLine, codes := o.1.codes } : TileLine)
    let s := tl.zipIdx.foldl (fun t e => t.updHead (16 * b + e.2) fun x => { x with queue := x.queue ++ [e.1] }) s
    let src := w.checks.filterMap id
    let segBlank := !quiet && (sd.2.blank != 0 || sd.2.nearBlank != 0)
    let s := s.coverAdd b w.line (coverLine ((tiles.map fun o => o.levels.toArray).toArray))
      (!w.idle && (w.blank || w.held || w.caps != 0 || segBlank || s.badChannels b != 0))
    let s := s.ownDigest
      { bar := b, line := w.line, undr := w.blank, segblk := segBlank
        ok := !w.blank && !segBlank && (w.idle || checkSum src == checkSum sd.2.take)
        tBnd := w.tBnd % 2 ^ 32, wsrc := if w.idle then 0 else checkSum src
        digs := tl.zipIdx.map (fun e => e.1.digest b e.2), at_ := s.tick }
    ((s.releaseSlots b w.line).decSettle b 300).panicUpdate b
/-- HAND_OVER: the sixteen tile-lines of the line in computation go to the head channels (R85). -/
def execHandOver (b : Bar) (s : State) : Host.Outcome State Fault Refusal := .next ((s.handOver b.val).flightOver (pPIPE b.val))

/-! ### Swaps and copies -/

/-- What a write of PIPE_SWAP does (R104); a GO on the partner is ignored and counted (R236). -/
def pipeSwapAct (b v : Nat) (s : State) : State :=
  let t := s.storeReg (pPIPE b) 0x4C v
  if !bit v 31 then t
  else if s.follows then s.incSat pPAIR R.PAIR_IGN_CNT
  else t.swapGo b (field v 4 2) (field v 0 3)
/-- PIPE_SWAP_GO: a host write of PIPE_SWAP with GO 1. -/
def execPipeSwapGo (b : Bar) (whn : BitVec 2) (tables : BitVec 3) (s : State) : Host.Outcome State Fault Refusal :=
  let v := 2 ^ 31 + 16 * whn.toNat + tables.toNat
  .next (s.writeWith (pPIPE b.val) 0x4C v (pipeSwapAct b.val v))

/-- What a write of PIPE_COPY does (R106). -/
def pipeCopyAct (b v : Nat) (s : State) : State := if field v 0 3 = 0 then s else s.copyStart b (field v 0 3)
/-- PIPE_COPY: a host write of PIPE_COPY. -/
def execPipeCopy (b : Bar) (tables : BitVec 3) (s : State) : Host.Outcome State Fault Refusal :=
  .next (s.writeWith (pPIPE b.val) 0x54 tables.toNat (pipeCopyAct b.val tables.toNat))

/-- The copy of bar b ends: every byte of the tables, 0x00 for an uncorrectable one; then the held writes (R106). Until then nothing of it
is in the shadow (log 107). A fence of the page lets it end (log 136). -/
def State.copyEnd (s : State) (b : Nat) : State :=
  match (s.pipeAt b).copy with
  | none => s
  | some (tables, _) =>
    let s := ((List.range 3).filter (bit tables ·)).foldl (fun t k =>
      let c := t.activeCopy b k
      let r := t.pipeRead b (tabAddr k c b) (tabSize k) 3
      r.1.lsWrite (tabAddr k (1 - c) b) r.2.1) s
    let s := (s.set (pPIPE b) R.PIPE_TSTAT_COPY_BUSY 0).updPipe b fun x => { x with copy := none }
    (s.heldWrites b).cause (pPIPE b) 6
/-- COPY_END: the copy of bar b ends (R106). Nothing happens where none runs. -/
def execCopyEnd (b : Bar) (s : State) : Host.Outcome State Fault Refusal := .next (s.copyEnd b.val)

end Sys2Proof.Machine
end

