-- ==== Sys2Proof/Machine/ProfOps.lean ====
section
/-! DEFINITION. Applying profiles (R205, R206, R208 to R213) and the underrun account of Breath (R220). -/

namespace Sys2Proof.Machine

/-! ### Images (R206, R207) -/

/-- Flash address of slot p (R207). -/
def slotFlash (p : Nat) : Nat := 0x100000 + 0x1000 * p
/-- A boot-flash byte; an erased one reads 0xFF (log 4). -/
def State.flashByte (s : State) (a : Nat) : Byte := (Memory.get s.flash a).getD 0xFF
/-- n bytes of the boot flash. -/
def State.flashBytes (s : State) (a n : Nat) : List Byte := (List.range n).map fun i => s.flashByte (a + i)
/-- The bytes of the image that must be 0 in each bar block (R206). -/
def barReserved (l : List Byte) : Bool :=
  byteAt l 4 / 16 == 0 && byteAt l 6 / 128 == 0 && ((l.drop 7).take 9).all (· == 0) &&
    (List.range 16).all fun t => byteAt l (17 + 4 * t) / 16 == 0 && byteAt l (19 + 4 * t) == 0
/-- An image of slot p is valid (R207). -/
def imageValid (l : List Byte) (p : Nat) : Bool :=
  leAt l 656 4 == crc32 (l.take 656) && byteAt l 0 == 0x10 && byteAt l 1 == p && ((l.drop 3).take 13).all (· == 0) &&
    (List.range 8).all fun b => barReserved ((l.drop (16 + 80 * b)).take 80)
/-- Slot p holds a valid image and no reload of it runs (R208). -/
def State.slotUsable (s : State) (p : Nat) : Bool := bit (s.get pPROF R.PROF_VALID_VALID) p

/-! ### Applying (R205, R213) -/

/-- Write a profile field: its applied copy and its shadow (R213). -/
def State.setProf (s : State) (p : Nat) (f : Fld) (v : Nat) : State := (s.set p f v).setAp p f v
/-- Apply an image to bar b, if it names the bar (R205, R206). -/
def State.applyImage (s : State) (l : List Byte) (b : Nat) : State :=
  if !bit (byteAt l 2) b then s
  else
    let o := 16 + 80 * b
    let s := s.setProf (pLINE b) R.LINE_PITCH (leAt l o 4)
    let s := (s.setProf (pPIPE b) R.PIPE_CTRL_UPS (byteAt l (o + 4) % 4)).setProf (pPIPE b) R.PIPE_WAVE_BASE_V
      (byteAt l (o + 4) / 4 % 4)
    let s := (s.setProf (pPIPE b) R.PIPE_STITCH_WIDTH (byteAt l (o + 5))).setProf (pPIPE b) R.PIPE_STITCH_START
      (byteAt l (o + 6) % 128)
    (List.range 16).foldl (fun t i =>
      let p := pHEAD (16 * b + i)
      ((t.setProf p R.HEAD_CTRL (byteAt l (o + 16 + 4 * i))).setProf p R.HEAD_ROWB_LINES (byteAt l (o + 17 + 4 * i) % 16)).setProf
        p R.HEAD_ROWB_FRAC (byteAt l (o + 18 + 4 * i))) s

/-! ### CUR and NEXT (R210, R211) -/

/-- PROF_STAT, PROF_ARM_LINE and PROF_NEXT_LINE show the selections held (R221). -/
def State.profShow (s : State) : State :=
  let s := match s.prof.cur with
    | some c => (((s.set pPROF R.PROF_STAT_CVAL 1).set pPROF R.PROF_STAT_CP c.slot).set pPROF R.PROF_STAT_DONE c.done).set pPROF
        R.PROF_ARM_LINE c.line
    | none => s.set pPROF R.PROF_STAT_CVAL 0
  match s.prof.next with
  | some c => ((s.set pPROF R.PROF_STAT_NVAL 1).set pPROF R.PROF_STAT_NP c.slot).set pPROF R.PROF_NEXT_LINE c.line
  | none => s.set pPROF R.PROF_STAT_NVAL 0
/-- A switch whose eight DONE bits are set is complete: PROF_BARP, DONE, and NEXT becomes CUR (R210, R211). -/
def State.profFinish (s : State) : Nat → State
  | 0 => s
  | f + 1 =>
    match s.prof.cur with
    | none => s
    | some c =>
      if c.done ≠ 0xFF then s
      else
        let slots := (List.range 8).foldl (fun v b =>
          if bit c.applied b then andNot v (7 * 8 ^ b) + c.slot * 8 ^ b else v) (s.get pPROF R.PROF_BARP_SLOT)
        let s := ((s.upd pPROF R.PROF_BARP_SET (· ||| c.applied)).set pPROF R.PROF_BARP_SLOT slots).set pPROF R.PROF_STAT_DONE c.done
        let s := ({ s with prof := { s.prof with cur := s.prof.next, next := none } }).cause pPROF 4
        s.profFinish f
/-- Settle and show the selections. -/
def State.profSettle (s : State) : State := (s.profFinish 3).profShow
/-- A selection applies on bar b at its job boundary line ℓ where due (R210). -/
def State.selApply (s : State) (b line : Nat) (c : Option Sel) : State × Option Sel :=
  match c with
  | none => (s, none)
  | some x =>
    if bit x.done b || decide (diff32 line x.line < 0) then (s, some x)
    else (s.applyImage x.image b, some { x with done := setBit x.done b true, applied := setBit x.applied b true })
/-- CUR, then NEXT, where due at the job boundary line ℓ of bar b (R212 step 2). -/
def State.profBoundary (s : State) (b line : Nat) : State :=
  let c := s.selApply b line s.prof.cur
  let n := c.1.selApply b line s.prof.next
  ({ n.1 with prof := { n.1.prof with cur := c.2, next := n.2 } }).profSettle
/-- The profile a job descriptor names, at its job boundary line (R208, R212 step 1). -/
def State.jobProfile (s : State) (b : Nat) (j : Job) : State :=
  if !j.profEn then s
  else if s.slotUsable j.prof then s.applyImage (s.prof.images.getD j.prof []) b
  else s.err64 pPROF 0xA1 2 j.addr

/-! ### Underrun (R220) -/

/-- A line of bar b is blank for underrun: BREATH_UNDR_CNT, code 0x32, UNDR, and WARN_N. A fenced BREATH page keeps its
registers (R48). -/
def State.underrun (s : State) (b line : Nat) : State :=
  let t := { s with breath := { s.breath with warnUntil := some (s.tick + msTicks (s.ap pBREATH R.BREATH_WARN)) } }
  if s.fenced pBREATH || s.resetting pBREATH then t
  else ((t.incSat pBREATH R.BREATH_UNDR_CNT).err pBREATH 0x32 b line).cause pBREATH 4

end Sys2Proof.Machine
end

