-- ==== Sys2Proof/Machine/Line.lean ====
section
/-! DEFINITION. LINE_BOUNDARY: bar b issues a line, and everything due at its boundary applies (R17, R34, R43, R44, R85 to R88,
R97, R104, R129 to R134, R151, R154, R184, R210 to R212, R223 to R225, R236 to R239, R259, R320). -/

namespace Sys2Proof.Machine

/-! ### Head channels at a boundary (R116, R118, R129 to R134) -/

/-- Signed thresholds of HEADC_TEMP (R135). -/
def State.tLimit (s : State) : Int := sgn 16 (s.get pHEADC R.HEADC_TEMP_LIMIT)
def State.tWarn (s : State) : Int := sgn 16 (s.get pHEADC R.HEADC_TEMP_WARN)
/-- Some channel holds its cap (WARN_OUT). -/
def State.anyCap (s : State) : Bool := (List.range 128).any fun h => s.flag (pHEAD h) R.HEAD_STAT_CAP
/-- A channel's cap is set or released at the boundary of line ℓ (R130). -/
def State.setCap (s : State) (h line : Nat) (on : Bool) : State :=
  let p := pHEAD h
  if s.flag p R.HEAD_STAT_CAP = on then s
  else
    let t := (s.setFlag p R.HEAD_STAT_CAP on).cause p 3
    let t := if on then (t.set p R.HEAD_CAP_LINE line).err p 0x50 0 line else t
    if t.anyCap = s.anyCap then t else t.cause pHEADC 3
/-- Apply a TEMP at the boundary of line ℓ (R129 to R131); at T_limit the channel is to be judged. HOT stays as this TEMP gives it when
HEADC_TEMP.LIMIT is written later (log 111). -/
def State.applyTemp (s : State) (h line : Nat) (temp : Int) : State :=
  let p := pHEAD h
  let hot := decide (s.tLimit ≤ temp)
  let s := (s.setFlag p R.HEAD_STAT_HOT hot).updHead h fun x => { x with applied := some temp, hotNow := x.hotNow || hot }
  if s.tWarn ≤ temp then s.setCap h line true
  else if temp < s.tWarn - (s.get pHEADC R.HEADC_THYST : Nat) then s.setCap h line false
  else s
/-- The records of channel h that apply at the boundary of line ℓ, post-FIRE ones before unsolicited ones (R129; log 109). -/
def State.headTemps (s : State) (h line : Nat) : State :=
  let x := s.headAt h
  if !s.enabled (pHEAD h) || s.resetting (pHEAD h) then s
  else
    let due := fun (e : Nat × Int) => decide (0 ≤ diff32 line (e.1 + 3))
    let l := (x.temps.filter due).map (·.2) ++ x.unsol
    let s := s.updHead h fun x => { x with temps := x.temps.filter (!due ·), unsol := [] }
    l.foldl (fun t v => t.applyTemp h line v) s

/-- A head channel sends: it and HEADC work, and its lane is UP (R116, R134, R384). -/
def State.headSends (s : State) (h : Nat) : Bool := s.working (pHEAD h) && s.working pHEADC && s.laneUp h
/-- The claim byte that channel h's frames carry (R116, R224). -/
def State.frameClaim (s : State) (h : Nat) : Nat :=
  if s.barClaims (h / 16) && s.lineRuns (h / 16) && s.working (pPIPE (h / 16)) then s.claimByte else s.straps.unitId.toNat
/-- At a boundary, channel h takes the tile-line handed over in the period just ended: it is to be sent in the period that
begins, or it is discarded (R116, R118, R132, R134); its job-record runs follow (R131, R184). -/
def State.headBoundary (s : State) (h tap0 : Nat) : State :=
  let b := h / 16
  let q := (s.headAt h).queue
  let claim := s.frameClaim h
  let d := s.apBar b R.HEADC_FIRE + s.ap (pHEAD h) R.HEAD_DLY
  let sent := s.headSends h && !q.isEmpty
  let s := s.tileRuns b (h % 16) (if sent then none else (s.headAt h).lostCode)
  s.updHead h fun x => { x with
    queue := []
    ready := if sent then x.ready ++ q.map fun tl => { tl := tl, claim := claim, d := d, tap0 := tap0 } else x.ready
    sending := sent && 16 ≤ claim
    lostCode := if sent then none else x.lostCode }
/-- A cause judged at the boundary of line ℓ: a lane that is fenced (R341), a TEMP applied now at T_limit (R131), or a head that was hot at
the enable (R48, R131, R133). -/
def State.headJudge (s : State) (h line : Nat) : State :=
  let x := s.headAt h
  if !s.working (pHEAD h) then s.updHead h fun x => { x with hotNow := false }
  else if s.fenced (pLANE h) then s.fence (pHEAD h) (s.get (pLANE h) R.PG_FENCE_REASON) 0 line
  else if x.hotNow || x.judge then s.fence (pHEAD h) 0x51 0 line
  else s

/-! ### Commits and profiles at a boundary (R34, R43, R44, R212) -/

/-- A page whose committed set may apply: enabled, since a disabled block has no boundary events (R43), and neither fenced nor in
reset. -/
def State.applyAt (s : State) (p : Nat) (g : State → Nat → State) : State :=
  if s.working p then g s p else s
/-- The pages that take plain values at bar b's boundary (R34). -/
def linePages (b : Nat) : List Nat :=
  [pLINE b, pDEC b, pPIPE b] ++ (List.range 16).flatMap fun t => [pHEAD (16 * b + t), pLANE (16 * b + t)]
/-- The pages with "RWS, profile" fields (R205). -/
def profPages (b : Nat) : List Nat := [pLINE b, pPIPE b] ++ (List.range 16).map fun t => pHEAD (16 * b + t)
/-- Committed values, profiles and swaps at the boundary of line ℓ, in the order of R212. -/
def State.boundaryApply (s : State) (b line : Nat) (j : Option Job) : State :=
  let s := s.each (linePages b) fun t p => t.applyAt p State.applyPlain
  let s := s.applyAt pHEADC fun t _ => t.applyHeadc b
  let s := match j with
    | some j =>
      ((s.jobProfile b j).profBoundary b line).each (profPages b) fun t p => t.applyAt p State.applyProf
    | none => s
  s.pipeSwap b line j.isSome

/-! ### Hold (R97, R239) -/

/-- The hold state of line ℓ of bar b: the pin and PIPE_CTRL.HOLD; in a pair under the home unit's lead, its state from the
safe line on. -/
def State.holdLine (s : State) (b line : Nat) (holdN : Bool) : State × Bool :=
  let own := !holdN || s.flag (pPIPE b) R.PIPE_CTRL_HOLD
  let take := fun (s : State) =>
    let due := fun (e : Nat × Nat × Bool) => e.2.1 == b && decide (0 ≤ diff32 line e.1)
    let now := (s.pair.holdAt.filter due).foldl (fun m e => setBit m b e.2.2) s.pair.holdNow
    s.updPair fun p => { p with holdNow := now, holdAt := p.holdAt.filter (!due ·) }
  if s.leads then
    let s := if bit s.pair.holdHome b = own then s
      else
        let l := s.safeLine b
        (s.updPair fun p => { p with holdHome := setBit p.holdHome b own, holdAt := p.holdAt ++ [(l, b, own)] }).crookCommand 0x19
          ([BitVec.ofNat 8 b, BitVec.ofNat 8 (b2n own), 0, 0] ++ leBytes 4 l)
    let s := take s
    (s, bit s.pair.holdNow b)
  else if s.follows then
    let s := take s
    (s, bit s.pair.holdNow b)
  else (s.updPair fun p => { p with holdHome := setBit p.holdHome b own, holdNow := setBit p.holdNow b own }, own)

/-! ### Taking a line (R86, R87) -/

/-- The trailer of a slot: COMPLETE and BLANK, none where a byte of it is uncorrectable (R86, R108). -/
def State.trailer (s : State) (b : Nat) (dot : Bool) (x : Slot) : State × Option (Nat × Nat) :=
  let r := s.pipeRead b (slotAddr b dot x.idx + slotSize dot - 64) 8 0
  (r.1, if r.2.2.isEmpty then some (leAt r.2.1 4 2, leAt r.2.1 6 2) else none)
/-- A needed slot, if it is complete, with its BLANK mask (R87). A fenced decoder delivers none (R80). -/
def State.needSlot (s : State) (b : Nat) (j : Job) (m : Nat) : State × Option (Slot × Nat) :=
  match (if s.fenced (pDEC b) then none else (s.decAt b).slotOf j.first m) with
  | none => (s, none)
  | some x =>
    let r := s.trailer b j.dot x
    (r.1, match r.2 with
      | some (c, k) => if c = allSegs then some (x, k) else none
      | none => none)
/-- What the pipeline holds of the line it takes: nothing for an idle line, the slots, or underrun. -/
inductive Taken where
  | idle
  | underrun
  | slots (x : Slot) (blank : Nat) (near : Option (Slot × Nat))
  deriving DecidableEq, Repr
/-- Gather the slots of the line (R87). -/
def State.gather (s : State) (b : Nat) (jq : Option (Job × Nat)) : State × Taken :=
  match jq with
  | none => (s, .idle)
  | some (j, q) =>
    let c := s.needSlot b j (sampleOf j q)
    let n := match s.neighbour b j q with
      | some m => let r := c.1.needSlot b j m; (r.1, r.2.isSome, r.2)
      | none => (c.1, true, none)
    (n.1, match c.2, n.2.1 with
      | some x, true => .slots x.1 x.2 n.2.2
      | _, _ => .underrun)
/-- The decoder errors of the segment lines that a line uses, whether they are complete at its boundary or not (R80, R184). -/
def State.lineErrs (s : State) (b : Nat) (jq : Option (Job × Nat)) : List (Nat × Nat) :=
  match jq with
  | none => []
  | some (j, q) =>
    let of := fun m => (((s.decAt b).slotOf j.first m).map (·.errs)).getD []
    of (sampleOf j q) ++ ((s.neighbour b j q).map of).getD []
/-- The sixteen CHECK values of a slot. -/
def slotChecks (x : Slot) : List (Option Nat) := if x.checks.isEmpty then List.replicate 16 none else x.checks
/-- Stage 1 of line ℓ: PIPE b takes it, with the settings of the boundary (R84, R85, R87, R97). The line's decoder errors are
answered for the job records. -/
def State.pipeTake (s : State) (b line : Nat) (jq : Option (Job × Nat)) (jobB held : Bool) :
    State × Bool × List (Nat × Nat) :=
  let p := pPIPE b
  let s := s.set p R.PIPE_LINE line
  let s := if held then s.incSat p R.PIPE_HOLD_CNT else s
  let s := if (s.pipeAt b).held = held then s else s.cause p 7
  let errs := s.lineErrs b jq
  let g := s.gather b jq
  let undr := g.2 == .underrun
  let s := if undr then (((g.1.incSat p R.PIPE_UNDR_CNT).err p 0x32 0 line).cause p 3).underrun b line else g.1
  let x := match g.2 with | .slots x k n => some (x, k, n) | _ => none
  let near := x.bind (·.2.2)
  let w : LineWork :=
    { line := line
      q := match jq with | some (_, q) => q | none => Config.idleJobLine line % 2 ^ 32
      idle := jq.isNone, blank := undr, held := held, jobStart := jobB
      jobId := match jq with | some (j, _) => j.jobId | none => idleId
      dot := match jq with | some (j, _) => j.dot | none => true
      fast := match jq with | some (j, _) => j.fast | none => false
      firstLine := match jq with | some (_, q) => q == 0 | none => false
      lastLine := match jq with | some (j, q) => q + 1 == j.total | none => false
      slot := (x.map (·.1.idx)).getD 0, blankMask := (x.map (·.2.1)).getD 0, clear := (x.map (·.1.clear)).getD 0
      neigh := near.map (·.1.idx), neighBlank := (near.map (·.2)).getD 0
      rows := (List.range 16).map fun t =>
        let h := pHEAD (16 * b + t)
        (s.ap h R.HEAD_CTRL, s.ap h R.HEAD_ROWB_LINES, s.ap h R.HEAD_ROWB_FRAC)
      checks := (x.map fun e => slotChecks e.1).getD [] ++ (near.map fun e => slotChecks e.1).getD []
      ups := s.ap p R.PIPE_CTRL_UPS, baseV := s.ap p R.PIPE_WAVE_BASE_V, lvlCap := s.ap p R.PIPE_WAVE_LVL_CAP
      stitchStart := s.ap p R.PIPE_STITCH_START, stitchWidth := s.ap p R.PIPE_STITCH_WIDTH
      fallback := s.apFlag p R.PIPE_CTRL_FALLBACK, subEn := s.apFlag p R.PIPE_CTRL_SUB_EN
      histEn := s.apFlag p R.PIPE_CTRL_HIST_EN, active := s.get p R.PIPE_TSTAT_ACTIVE
      caps := (List.range 16).foldl (fun m t => if s.flag (pHEAD (16 * b + t)) R.HEAD_STAT_CAP then m + 2 ^ t else m) 0
      tBnd := s.cNs }
  (s.updPipe b fun y => { y with work := some w, held := held, undr := undr }, undr, errs)

/-! ### The pair and the cameras at a boundary -/

/-- Gains that the pair named for line ℓ or earlier (R236). -/
def State.gainTake (s : State) (b line : Nat) : State :=
  let due := fun (e : Nat × Int) => decide (0 ≤ diff32 line e.1)
  let l := (s.lineAt b).gainAt
  let s := (l.filter due).foldl (fun t e => t.set (pLINE b) R.LINE_GAIN (uns 32 e.2)) s
  s.updLine b fun x => { x with gainAt := x.gainAt.filter (!due ·) }
/-- A CHAIN difference (R238): code 0x71 with SRC 6, and the bar's run starts again. -/
def State.chainCompare (s : State) (b : Nat) : State :=
  match s.pair.chainOwn.find? fun e => e.1 == b, s.pair.chainPeer.find? fun e => e.1 == b with
  | some o, some q =>
    let t := s.updPair fun p => { p with chainOwn := p.chainOwn.del b, chainPeer := p.chainPeer.del b }
    if o.2 = q.2 then t else (t.err pPAIR 0x71 6 (o.2.getD 1 0) b).runReset b
  | _, _ => s
/-- A job boundary line has been issued: CHAIN is sent and compared (R230, R238). -/
def State.chainSend (s : State) (b line : Nat) (j : Job) : State :=
  let s := s.updPair fun p => { p with jobLine := p.jobLine.put b line }
  if !s.pairOn then s
  else
    let f := b2n j.profEn + 2 * j.prof
    let s := s.crookSend 0x16 ([BitVec.ofNat 8 b, BitVec.ofNat 8 f, 0, 0] ++ leBytes 4 j.first ++ leBytes 4 j.jobId ++
      leBytes 4 j.total)
    if !s.crookUp then s
    else (s.updPair fun p => { p with chainOwn := p.chainOwn.put b [f, j.first, j.jobId, j.total] }).chainCompare b
/-- A line trigger falls due on each port whose reference bar this is (R259). -/
def State.camTriggers (s : State) (b line : Nat) : State :=
  if s.camc.refbar != b || line % 16 != s.camc.phase then s
  else s.each (List.range 2) fun t c =>
    if t.working (pCAM c) && t.flag (pCAM c) R.CAM_LTRIG then
      t.updCam c fun x => { x with trig0Pend := x.trig0Pend ++ [(line, s.tick)] }
    else t

/-! ### The boundary (R151) -/

/-- The first tap boundary at or after now (R19, R118). -/
def State.tapNow (s : State) : Nat := s.tick + (s.phi + 3 - s.tick % 3) % 3
/-- LINE b is to issue a line: it runs, a line is due, and the rate limit allows it (R151). -/
def State.lineReadyToIssue (s : State) (b : Nat) : Bool :=
  s.lineRuns b && (s.lineAt b).due && (s.lineAt b).early ≤ 12 * s.tick
/-- NEXT and the rate limit after the boundary of line ℓ (R151, R153, R154). -/
def State.lineAfter (s : State) (b line : Nat) : State :=
  let p := pLINE b
  let l := s.lineAt b
  let pitch := max (2 ^ 24) (s.ap p R.LINE_PITCH)
  let adj := match l.adj with
    | some (a, w, x) => if w = 0 ∨ x = line then some a else none
    | none => none
  let s := s.setNext b (sgn 64 (uns 64 (s.lineNext b + pitch + (adj.getD 0) * 2 ^ 8)))
  let s := if adj.isNone then s else ((s.set p R.LINE_ADJ_CTRL_ARMED 0).updLine b fun l => { l with adj := none }).cause p 4
  let s := if l.tDue < s.tick then (s.incSat p R.LINE_OVSP_CNT).cause p 3 else s
  s.updLine b fun l => { l with
    early := max l.early (12 * s.tick - 11) + 15625, due := decide (s.lineNext b ≤ s.lineY b), tDue := s.tick }

/-- Bar b issues line ℓ (R17, R151). PIPE_LINE, HELD, UNDR and PIPE_HOLD_CNT stand while PIPE does not work (log 108). The steps are in the
order in which R17, R85, R131, R212 and R225 make them depend on one another (log 34). -/
def State.issueLine (s : State) (b : Nat) (holdN : Bool) : State :=
  let p := pLINE b
  let s := s.handOver b
  let line := (s.get p R.LINE_SEQ + 1) % 2 ^ 32
  let s := (s.set p R.LINE_SEQ line).set p R.LINE_PERIOD
    (match (s.lineAt b).lastTick with | some t => min (2 ^ 32 - 1) (s.tick - t) | none => s.get p R.LINE_PERIOD)
  let tap0 := s.tapNow
  let s := (s.updLine b fun l => { l with lastTick := some s.tick, tap0 := tap0 }).gainTake b line
  -- the job of the line, its boundary, and what applies with it
  let jq := s.jobOfLine b line
  let jobB := match jq with | some (j, q) => isBoundary j q | none => false
  let s := s.jobLine b line
  let heads := (List.range 16).map fun t => 16 * b + t
  let s := (s.pipeDue b).each heads State.headDue
  let s := s.each heads fun t h => t.headTemps h line
  let s := match (s.pipeAt b).fenceNext with
    | some (src, a) => (s.updPipe b fun x => { x with fenceNext := none }).fence (pPIPE b) 0x11 src a 0 false
    | none => s
  let s := s.boundaryApply b line (if jobB then jq.map (·.1) else none)
  let s := match jq with | some (j, _) => if jobB then s.chainSend b line j else s | none => s
  let s := s.pairBoundary b
  -- the line before: its frames go out, its runs close
  let s := s.each heads fun t h => t.headBoundary h tap0
  let s := s.each (barPages b) fun t q => t.markDue q
  -- the line itself
  let hold := s.holdLine b line holdN
  let s := hold.1
  let run := s.working (pPIPE b)
  let tk := if run then s.pipeTake b line jq jobB hold.2 else (s, false, s.lineErrs b jq)
  let x : JobLine := match jq with
    | some (j, q) => ⟨line, j.jobId, q, q + 1 == j.total⟩
    | none => ⟨line, idleId, idleId, false⟩
  let s := tk.1.barRuns b tk.2.1 tk.2.2 x
  let s := s.updJob b fun e => { e with prev := some (line, x.jobId, x.q, x.last) }
  let s := s.each heads fun t h => t.headJudge h line
  let s := if run then s else s.releaseSlots b line
  let s := ((s.jobRetire b line).decSettle b 300).panicUpdate b
  ((s.camTriggers b line).pulsesFor [2, 3] fun k => k % 8 == b).lineAfter b line
/-- LINE_BOUNDARY: bar b issues its next line, with HOLD_N at the level given (R151). Where no line is to issue, nothing
happens (log 2). -/
def execLineBoundary (b : Bar) (holdN : Bool) (s : State) : Host.Outcome State Fault Refusal :=
  .next (if s.lineReadyToIssue b then s.issueLine b holdN else s)

end Sys2Proof.Machine
end

