-- ==== Sys2Proof/Machine/Head.lean ====
section
/-! DEFINITION. The head channels between boundaries: FRAME_START, FRAME_END, FIRE_SEND, TELEMETRY_RECORD,
TELEMETRY_TIMEOUT (chapter 5). -/

namespace Sys2Proof.Machine

/-! ### Frames and FIRE (R112 to R118) -/

/-- The first tap boundary at or after a tick (R19). -/
def State.tapAfter (s : State) (t : Nat) : Nat := t + (s.phi + 3 - t % 3) % 3
/-- The tick after which a fast exit of the lane has sent its burst, whose blocks go out on the tap grid (R19, R334). -/
def State.burstEnd (s : State) (h : Nat) : Nat :=
  s.tapAfter (s.laneAt h).exitAt + 3 * max 64 (s.get (pLANE h) R.LANE_EIDLE)
/-- The tick of the START of a frame that is ready (R118, R334). -/
def State.startTick (s : State) (h : Nat) (x : Sending) : Nat :=
  let t := max x.tap0 (s.headAt h).afterFire
  s.tapAfter (if (s.laneAt h).exitAt = 0 then t else max t (s.burstEnd h))
/-- The lane's transmitter runs: the page is enabled, and no electrical idle stands (R328, R334). -/
def State.laneSends (s : State) (l : Nat) : Bool :=
  s.enabled (pLANE l) && !s.resetting (pLANE l) && (s.laneAt l).st != 0 && (s.laneAt l).st != 4 && !(s.laneAt l).txIdle
/-- A control block (R111). -/
def ctlBlock (typ : Nat) (l : List Byte) : List Byte := BitVec.ofNat 8 typ :: (l ++ zeros (7 - l.length))
/-- The claim that a frame or FIRE goes out with: level 0 while the boundary cells control the outputs (R401). -/
def State.claimSent (s : State) (claim : Nat) : Nat := if s.tapHolds then s.straps.unitId.toNat else claim
/-- FRAME_START: START of the frame that is ready goes out at its tap (R111, R118); on a lane in electrical idle the frame is lost (R328).
With none ready, or before its tap, or while a frame is being sent, nothing happens (log 2). -/
def execFrameStart (h : Head) (s : State) : Host.Outcome State Fault Refusal :=
  let x := s.headAt h
  .next <|
    match x.cur, x.ready with
    | none, r :: rest =>
      let t := s.startTick h r
      if s.tick < t then s
      else if !s.laneSends h then (s.updHead h fun x => { x with ready := rest }).flightOver (pHEAD h)
      else (s.updHead h fun x => { x with ready := rest, cur := some { r with start := t, claim := s.claimSent r.claim } }).emit
        (.block h (ctlBlock 0x33 (0x01 :: leBytes 2 291)))
    | _, _ => s

/-- FRAME_END: END goes out 292 taps after START; HEAD_SENT and HEAD_DIGEST take the frame (R111, R112, R115, R118). A frame that the lane's
electrical idle cuts is lost (R328). -/
def execFrameEnd (h : Head) (s : State) : Host.Outcome State Fault Refusal :=
  .next <|
    match (s.headAt h).cur with
    | none => s
    | some c =>
      if c.ended || s.tick < c.start + 876 then s
      else if !s.laneSends h then (s.updHead h fun x => { x with cur := none }).flightOver (pHEAD h)
      else
        let s := (s.set (pHEAD h) R.HEAD_SENT c.tl.line).set (pHEAD h) R.HEAD_DIGEST (c.tl.digest (h / 16) (h % 16))
        ((s.updHead h fun x => { x with cur := some { c with ended := true } }).emit
          (.frame h (c.tl.frame (h / 16) (h % 16) c.claim))).emit (.block h (ctlBlock 0x87 []))

/-- The FIRE block of line ℓ on channel h (R117). -/
def fireBlock (h claim line : Nat) : List Byte :=
  let l : List Byte := [0x4B, BitVec.ofNat 8 claim] ++ leBytes 4 line ++ [BitVec.ofNat 8 (h / 16 * 16 + h % 16)]
  l ++ [BitVec.ofNat 8 (crc8 (byteBits l))]
/-- The tick of tap F of the period in which a frame is sent (R118). -/
def Sending.fireTick (c : Sending) : Nat := c.tap0 + 3 * (293 + c.d)
/-- The tick of the tap after END. -/
def Sending.endTick (c : Sending) : Nat := c.start + 879
/-- FIRE_SEND: FIRE goes out at tap F, or late at the tap after END (R117, R118); a FIRE that a lane fence cut is not
sent (R341). -/
def execFireSend (h : Head) (s : State) : Host.Outcome State Fault Refusal :=
  .next <|
    match (s.headAt h).cur with
    | none => s
    | some c =>
      let t := max c.fireTick c.endTick
      if !c.ended then s
      else if c.noFire || !s.laneSends h then (s.updHead h fun x => { x with cur := none }).flightOver (pHEAD h)
      else if s.tick < t then s
      else
        let late := decide (c.fireTick < c.endTick)
        let s := if late then (s.incSat (pHEAD h) R.HEAD_LATE_CNT).cause (pHEAD h) 6 else s
        ((s.updHead h fun x => { x with cur := none, afterFire := t + 3 }).emit
          (.fire h (fireBlock h (s.claimSent c.claim) c.tl.line))).flightOver (pHEAD h)

/-! ### Telemetry (R121 to R124) -/

/-- A record is intact for channel h (R123). -/
def tlmIntact (h : Nat) (l : List Byte) : Bool :=
  l.length == 120 && leAt l 112 4 == crc32 (l.take 112) && (byteAt l 12 == h % 16 || byteAt l 12 == 0xFF)
    && (byteAt l 13 == h / 16 || byteAt l 13 == 0xFF)
/-- The 24 health words of a record go into HEAD_HEALTH; every bit that changes is counted (R123). -/
def State.tlmHealth (s : State) (h : Nat) (l : List Byte) : State :=
  let p := pHEAD h
  let base := 24 * (byteAt l 7 % 8)
  (List.range 24).foldl (fun t i =>
    let f := R.HEAD_HEALTH.nth 4 (base + i)
    let new := leAt l (16 + 4 * i) 4
    let diff := popcount 32 (t.get p f ^^^ new)
    if diff = 0 then t else ((t.set p f new).addWrap p R.HEAD_HCHG_CNT diff).cause p 4) s
/-- The channel receives telemetry: enabled, not in reset, its lane UP; a fence of the channel does not stop it
(R132, R134, R330). -/
def State.tlmHears (s : State) (h : Nat) : Bool := s.enabled (pHEAD h) && !s.resetting (pHEAD h) && s.laneUp h
/-- TELEMETRY_RECORD: 120 bytes of a record have arrived (R121, R123). -/
def execTelemetryRecord (h : Head) (bytes : List Byte) (s : State) : Host.Outcome State Fault Refusal :=
  let p := pHEAD h
  let seq := leAt bytes 0 4
  .next <|
    if !s.tlmHears h then s
    else if !tlmIntact h bytes then ((s.incSat p R.HEAD_TLM_BAD_CNT).err p 0x22 0 seq).cause p 5
    else
      let temp := leAt bytes 8 2
      let flags := byteAt bytes 5 % 32
      let s := ((((((s.incWrap p R.HEAD_TLM_CNT).set p R.HEAD_TEMP temp).set p R.HEAD_TLM_SEQ seq).set p
        R.HEAD_STAT_ACC_CLAIM (byteAt bytes 4)).set p R.HEAD_STAT_RFLAGS flags).set p R.HEAD_STAT_SUPPLY
        (byteAt bytes 6 % 16)).set p R.HEAD_STAT_TLM_OK 1
      let s := s.tlmHealth h bytes
      s.updHead h fun x => { x with
        tlmSince := s.tick
        unsol := if bit flags 1 then x.unsol ++ [sgn 16 temp] else x.unsol
        temps := if bit flags 1 then x.temps else (x.temps.filter fun e => e.1 != seq) ++ [(seq, sgn 16 temp)] }

/-- Ticks of the telemetry timeout (R124, R135). -/
def State.tlmTimeout (s : State) : Nat := 3 * 2 ^ max 12 (min 24 (s.get pHEADC R.HEADC_TLM))
/-- TELEMETRY_TIMEOUT: no intact record for 2^TO_EXP taps: the channel fences with 0x22 (R124, R335), at the next boundary where a line is
in flight (R17). On a page whose EN is 0 TLM_OK stays as it stood (log 129). -/
def execTelemetryTimeout (h : Head) (s : State) : Host.Outcome State Fault Refusal :=
  let x := s.headAt h
  .next <|
    if !s.enabled (pHEAD h) || s.resetting (pHEAD h) || x.tlmStop || s.tick < x.tlmSince + s.tlmTimeout then s
    else
      let t := s.set (pHEAD h) R.HEAD_STAT_TLM_OK 0
      if s.fenced (pHEAD h) || x.fenceDue.isSome then t
      else if s.srsts.has (pHEAD h) then t.causeKept (pHEAD h) 0x22
      else (t.err (pHEAD h) 0x22 0 (s.firstUnsent (h / 16))).fenceFlight (pHEAD h) 0x22

end Sys2Proof.Machine
end

