-- ==== Sys2Proof/Machine/Jobs.lean ====
section
/-! DEFINITION. The commands of the job engines: JE_EN, DMAC_JDB, JOB_DESCRIPTOR_FETCH (R173, R174, R182, R186, R409). -/

namespace Sys2Proof.Machine

/-- The decoder of bar b goes on with what its engine now holds. -/
def State.decGo (s : State) (b : Nat) : State := (s.decSettle b 300).panicUpdate b
/-- What a write of DMAC_CTRL does: engines start and stop (R409). -/
def jeAct (v : Nat) (s : State) : State :=
  ((s.storeReg pDMAC 0x40 v).jobSettle).each (List.range 8) State.decGo
/-- JE_EN: a host write of DMAC_CTRL. -/
def execJeEn (mask : Byte) (s : State) : Host.Outcome State Fault Refusal :=
  .next (s.writeWith pDMAC 0x40 mask.toNat (jeAct mask.toNat))

/-- What a write of DMAC_JDB does: the doorbell of each bit named (R174); it waits for the BAR2 writes before it (R173). -/
def jdbAct (v : Nat) (s : State) : State :=
  s.each ((List.range 8).filter (bit v ·)) fun t b =>
    if s.bar2Writes then { t with bells := t.bells ++ [64 + b] } else (t.jobDoorbell b).decGo b
/-- DMAC_JDB: a host write of DMAC_JDB. -/
def execDmacJdb (mask : Byte) (s : State) : Host.Outcome State Fault Refusal :=
  .next (s.writeWith pDMAC 0x44 mask.toNat (jdbAct mask.toNat))

/-- JOB_DESCRIPTOR_FETCH: the engine reads the descriptor that is due, or re-reads the control word of the job whose last
line group the decoder has started (R174, R182). With nothing due, nothing happens (log 2). -/
def execJobDescriptorFetch (b : Bar) (s : State) : Host.Outcome State Fault Refusal :=
  .next ((s.jobFetch b).decGo b)

end Sys2Proof.Machine
end

