-- ==== Sys2Proof/Machine/Feed.lean ====
section
/-! DEFINITION. The feed ports: FEED_FRAME_RECEIVE, PAUSE_RECEIVE, PAUSE_EXPIRY, PAUSE_REPEAT, RECORD_DELIVERY, GAP_TIMEOUT,
ACK_TIMEOUT (chapter 8). -/

namespace Sys2Proof.Machine

/-! ### Groups and readiness (R191, R197) -/

/-- The lane of port n. -/
def feedLane (n : Nat) : Nat := 136 + n
/-- The port works as its page goes: enabled and not in soft reset. FEED pages never fence. -/
def State.feedPageOn (s : State) (n : Nat) : Bool := n < 24 && s.enabled (pFEED n) && !s.resetting (pFEED n)
/-- The group leader that port n names, as read at its enable. -/
def State.feedLead (s : State) (n : Nat) : Nat := (s.portAt n).lead
/-- Port n leads a group. -/
def State.isLeader (s : State) (n : Nat) : Bool := s.feedPageOn n && s.feedLead n == n
/-- Port n is ready (R191). -/
def State.feedReady (s : State) (n : Nat) : Bool :=
  s.laneUp (feedLane n) && s.enabled pFEEDC && s.feedPageOn n && s.feedPageOn (s.feedLead n)
/-- The ports of leader n's group. -/
def State.feedGroup (s : State) (n : Nat) : List Nat :=
  (List.range 24).filter fun q => s.feedPageOn q && s.feedLead q == n

/-! ### The group buffer (R197, R199, R200) -/

/-- Bytes of a record as it came: its LEN (R194). -/
def FeedRec.len (r : FeedRec) : Nat := 20 + (r.raw.length + 3) / 4 * 4
/-- Size of the buffer of leader n. -/
def State.feedSize (s : State) (n : Nat) : Nat := 262144 * (s.feedGroup n).length
/-- Fill of the buffer: records held and items in the queue. -/
def State.feedFill (s : State) (n : Nat) : Nat :=
  let x := s.portAt n
  ((x.base.held ++ x.live.held).foldl (fun a r => a + r.len) 0) + s.queueBytes (n + 1)
/-- A stream of leader n, and its EXP register. -/
def PortSt.stream (x : PortSt) (live : Bool) : StreamSt := if live then x.live else x.base
def State.updStream (s : State) (n : Nat) (live : Bool) (g : StreamSt → StreamSt) : State :=
  s.updPort n fun x => if live then { x with live := g x.live } else { x with base := g x.base }
def feedExp (live : Bool) : Fld := if live then R.FEED_EXP_LIVE else R.FEED_EXP_BASE
def State.expOf (s : State) (n : Nat) (live : Bool) : Nat := s.get (pFEED n) (feedExp live)
/-- The record that EXP names is held. -/
def State.nextHeld (s : State) (n : Nat) (live : Bool) : Option FeedRec :=
  ((s.portAt n).stream live).held.find? fun r => r.rseq == s.expOf n live
/-- A gap is open (R199). -/
def State.gapOpen (s : State) (n : Nat) (live : Bool) : Bool :=
  !((s.portAt n).stream live).held.isEmpty && (s.nextHeld n live).isNone
/-- Open or close the gap timer. -/
def State.gapSettle (s : State) (n : Nat) (live : Bool) : State :=
  s.updStream n live fun x => { x with
    gapSince := if s.gapOpen n live then some (x.gapSince.getD s.tick) else none }

/-! ### Sending (R190, R196) -/

/-- The quanta of a PAUSE in ticks: 3.2 each, rounded up (log 8). -/
def quantaTicks (q : Nat) : Nat := (16 * q + 4) / 5
/-- A frame of the feed protocol from port n with one message (R188, R192, R196). -/
def State.feedFrame (s : State) (n : Nat) (msg : List Byte) : List Byte :=
  let peer := s.get (pFEED n) R.FEED_PEER_LO + s.get (pFEED n) R.FEED_PEER_HI * 2 ^ 32
  let dst := if peer = 0 then (s.portAt n).lastSrc else peer
  let f := beBytes 6 dst ++ beBytes 6 (s.portAt n).mac ++ [0x88, 0xB5, 0x10, 1, 0, 0] ++ msg
  let f := f ++ zeros (60 - f.length)
  f ++ leBytes 4 (crc32 f)
/-- The transmitter of port n's lane sends: the lane is neither OFF nor in MAINT, and not fenced (R328, R330, R339). -/
def State.feedTx (s : State) (n : Nat) : Bool :=
  let st := (s.laneAt (feedLane n)).st
  st != 0 && st != 6 && !s.fenced (pLANE (feedLane n))
/-- Send a message from port n, or hold it while a received PAUSE is in force: of the acknowledgements of one stream only the
newest waits. Key 0 is a message that replaces none. -/
def State.feedSend (s : State) (n key : Nat) (msg : List Byte) : State :=
  match (s.portAt n).pausedUntil with
  | none => if s.feedTx n then s.emit (.feed n (s.feedFrame n msg)) else s
  | some _ => s.updPort n fun x => { x with waiting := x.waiting.filter (fun e => key == 0 || e.1 != key) ++ [(key, msg)] }
/-- The message of R196. -/
def State.ackMsg (s : State) (lead : Nat) (nak ctrl live : Bool) (bar reason seq sline : Nat) : List Byte :=
  let free := min 0xFFFF ((s.feedSize lead - s.feedFill lead) / 1024)
  [if nak then 0x82 else 0x81, 0, 16, 0, BitVec.ofNat 8 (16 * b2n ctrl + 8 * b2n live + bar), BitVec.ofNat 8 reason] ++
    leBytes 2 free ++ leBytes 4 seq ++ leBytes 4 sline
/-- An acknowledgement of a stream of leader n, on every ready port of the group (R197, R200). -/
def State.feedAck (s : State) (n : Nat) (live : Bool) : State :=
  let x := (s.portAt n).stream live
  let m := s.ackMsg n false false live (s.portAt n).bar 0 (s.expOf n live) x.lastSline
  let t := s.each ((s.feedGroup n).filter s.feedReady) fun t q => t.feedSend q (1 + b2n live) m
  t.updStream n live fun x => { x with unack := 0, unackSince := none }
/-- A negative acknowledgement for a stream of leader n, on every ready port of the group, counted on each. -/
def State.feedNak (s : State) (n : Nat) (live : Bool) (reason seq sline : Nat) : State :=
  let m := s.ackMsg n true false live (s.portAt n).bar reason seq sline
  s.each ((s.feedGroup n).filter s.feedReady) fun t q => (t.incSat (pFEED q) R.FEED_NAK_CNT).feedSend q 0 m

/-- Send a PAUSE (R190). -/
def State.pauseSend (s : State) (n quanta : Nat) : State := (s.incWrap (pFEED n) R.FEED_PAUSE_TX).emit (.pause n quanta)
/-- The buffer of leader n crosses XOFF or XON (R200, R204). -/
def State.xoffSettle (s : State) (n : Nat) : State :=
  let p := pFEED n
  let hi := s.get p R.FEED_FLOW_XOFF
  let lo := min hi (s.get p R.FEED_FLOW_XON)
  let f := 16 * s.feedFill n
  let z := s.feedSize n
  s.updPort n fun x => { x with xoff := s.isLeader n && (if x.xoff then lo * z ≤ f else hi * z ≤ f) }
/-- The condition for PAUSE on port n holds: its lane is up, and the port is not ready or the group's buffer is past XOFF (R190, R191). -/
def State.pauseWants (s : State) (n : Nat) : Bool :=
  s.laneUp (feedLane n) && (!s.feedReady n || (s.portAt (s.feedLead n)).xoff)
/-- PAUSE and LINK of port n follow what has changed (R190, R191, R203). -/
def State.portSettle (s : State) (n : Nat) : State :=
  let up := s.laneUp (feedLane n)
  let link := (s.laneAt (feedLane n)).block
  let s := if (s.portAt n).link = link then s else (s.updPort n fun x => { x with link := link }).cause (pFEED n) 6
  let want := s.pauseWants n
  match (s.portAt n).sending with
  | none => if want then (s.updPort n fun x => { x with sending := some s.tick }).pauseSend n (s.get (pFEED n) R.FEED_FLOW_PQ) else s
  | some _ =>
    if want then s
    else
      let t := s.updPort n fun x => { x with sending := none }
      if up then t.pauseSend n 0 else t

/-- Drop held records from the highest RSEQ downwards until 9,216 bytes are free (R199). -/
def State.feedEvict (s : State) (n : Nat) (live : Bool) : Nat → State
  | 0 => s
  | f + 1 =>
    let h := ((s.portAt n).stream live).held
    if s.gapOpen n live && s.feedSize n < s.feedFill n + 9216 then
      let exp := s.expOf n live
      let top := h.foldl (fun m r => max m (diff32 r.rseq exp)) (-1)
      ((s.updStream n live fun x => { x with held := x.held.filter fun r => diff32 r.rseq exp != top }).incSat (pFEED n)
        R.FEED_EVICT_CNT).feedEvict n live f
    else s
/-- While a gap is open in a stream of leader n, 9,216 bytes of the buffer are free (R199). -/
def State.feedMakeRoom (s : State) (n : Nat) : State :=
  let s := (s.feedEvict n false 512).feedEvict n true 512
  (s.gapSettle n false).gapSettle n true
/-- Every port follows, a buffer that has become smaller too (R199). -/
def State.feedSettle (s : State) : State :=
  let s := s.each ((List.range 24).filter fun n => s.gapOpen n false || s.gapOpen n true) State.feedMakeRoom
  (s.each (List.range 24) State.xoffSettle).each (List.range 24) State.portSettle

/-! ### Enable and soft reset (R197, R203) -/

/-- The configuration is read when EN of FEED n changes to 1. -/
def State.feedEnable (s : State) (n : Nat) : State :=
  let p := pFEED n
  s.updPort n fun x => { x with
    lead := s.get p R.FEED_GRP_LEAD
    bar := s.get p R.FEED_GRP_BAR
    mac := s.get p R.FEED_MAC_LO + s.get p R.FEED_MAC_HI * 2 ^ 32
    mcast := s.get p R.FEED_MCAST_LO + s.get p R.FEED_MCAST_HI_MAC * 2 ^ 32
    mcastEn := s.flag p R.FEED_MCAST_HI_EN }
/-- A soft reset of FEED n discards the buffer of a leader; the link and what the reset does not name stay. -/
def State.feedReset (s : State) (n : Nat) : State :=
  ({ s with queues := s.queues.del (n + 1) }.updPort n fun x =>
    { link := x.link, pausedUntil := x.pausedUntil, sending := x.sending })

/-! ### Receiving (R189, R192 to R198) -/

/-- The messages of a payload: COUNT of them, none where they do not fit (R192, R193). -/
def feedMessages : Nat → List Byte → Option (List (List Byte))
  | 0, _ => some []
  | n + 1, l =>
    let len := leAt l 2 2
    if l.length < 4 ∨ len < 8 ∨ len % 4 ≠ 0 ∨ l.length < len then none
    else (feedMessages n (l.drop len)).map fun r => l.take len :: r
/-- The feed header is valid. -/
def feedHeader (l : List Byte) : Bool :=
  4 ≤ l.length && byteAt l 0 == 0x10 && byteAt l 1 != 0 && byteAt l 2 == 0 && byteAt l 3 == 0

/-- A raster record that failed step 1 or 2 of R198 on port q of leader n. -/
def State.feedBad (s : State) (q n : Nat) (r : FeedRec) (code : Nat) : State :=
  let p := pFEED q
  let s := (s.incSat p (if code = 0x31 then R.FEED_DROP_FMT else R.FEED_DROP_CHK)).err p code 0 r.rseq
    (r.seg.toNat / 2 % 8 + 8 * b2n r.live)
  (s.cause p (if code = 0x31 then 4 else 3)).feedNak n r.live (if code = 0x31 then 4 else 1) r.rseq r.sline

/-- RASTER_RECORD (R198): a record of an accepted frame on port q is checked, held or discarded. The record that EXP names always enters;
another that finds the buffer full with no gap open is discarded (R199; log 122). -/
def State.feedRaster (s : State) (q : Nat) (m : List Byte) : State :=
  let n := s.feedLead q
  if !s.isLeader n then s.incSat (pFEED q) R.FEED_DROP_NRDY
  else
    let tag := byteAt m 4
    let fl := byteAt m 5
    let rawlen := leAt m 6 2
    let r : FeedRec := { rseq := leAt m 8 4, seg := BitVec.ofNat 8 tag, last := bit fl 1, live := bit fl 0, sline := leAt m 12 4,
                         check := leAt m 16 4, raw := (m.drop 20).take rawlen }
    let p := pFEED n
    let first := bit fl 2
    if byteAt m 1 != 0 || 8 ≤ fl || tag / 2 % 8 != (s.portAt n).bar || rawlen != rawBytes (bit tag 0) (tag / 16)
        || m.length != 20 + (rawlen + 3) / 4 * 4 || (first && r.rseq != 0) then s.feedBad q n r 0x31
    else if crc32 r.raw != r.check then s.feedBad q n r 0x30
    else
      let s := if first then
          (((s.addSat p R.FEED_EVICT_CNT ((s.portAt n).stream r.live).held.length).set p (feedExp r.live) 0).updStream n r.live
            fun x => { x with held := [], gapSince := none })
        else s
      let d := diff32 r.rseq (s.expOf n r.live)
      if d < 0 || ((s.portAt n).stream r.live).held.any (·.rseq == r.rseq) then
        (s.incSat p R.FEED_DROP_DUP).feedAck n r.live
      else if (max 1 (min 1024 (s.get p R.FEED_WIN)) : Nat) ≤ d.toNat then
        (s.incSat p R.FEED_DROP_WIN).feedNak n r.live 3 r.rseq r.sline
      else
        let s := s.feedMakeRoom n
        if d ≠ 0 && s.feedSize n < s.feedFill n + r.len then s.incSat p R.FEED_EVICT_CNT
        else (s.updStream n r.live fun x => { x with held := x.held ++ [r] }).feedMakeRoom n

/-- The control messages whose ring entries are written are acknowledged (R200). -/
def State.ctlAcks (s : State) : State :=
  let waits := fun (e : Nat × Nat × Nat) => s.dramWait.any fun r => r.who == 0x4D && r.at_ == e.1
  (s.ackDue.filter (!waits ·)).foldl (fun t e => t.feedSend e.2.1 3 (t.ackMsg (t.feedLead e.2.1) false true false 0 0 e.2.2 0))
    { s with ackDue := s.ackDue.filter waits }
/-- JOB_CONTROL (R195): a message of an accepted frame on port q goes into the control ring, which acknowledges it, or is lost. -/
def State.feedControl (s : State) (q : Nat) (m : List Byte) : State :=
  if 1008 < m.length then s.incSat (pFEED q) R.FEED_DROP_FMT
  else
    let size := 2 ^ max 10 (min 24 (s.get pFEEDC R.FEEDC_CRING_CFG_LOG2))
    let wr := s.get pFEEDC R.FEEDC_CRING_WR
    let nx := (wr + 1024) % size
    if s.flag pFEEDC R.FEEDC_CRING_CFG_EN && nx != s.get pFEEDC R.FEEDC_CRING_RD then
      let e := leBytes 8 s.cNs ++ [BitVec.ofNat 8 q, 0] ++ leBytes 2 m.length ++ zeros 4 ++ m
      let s := s.dramPut (s.get64 pFEEDC R.FEEDC_CRING_BASE_LO R.FEEDC_CRING_BASE_HI + wr) (e ++ zeros (1024 - e.length)) 0x4D
      let s := { s with ackDue := s.ackDue ++
        [(s.get64 pFEEDC R.FEEDC_CRING_BASE_LO R.FEEDC_CRING_BASE_HI + wr, q, leAt m 4 4)] }
      ((s.set pFEEDC R.FEEDC_CRING_WR nx).cause pFEEDC 3).ctlAcks
    else (s.incSat pFEEDC R.FEEDC_CRING_LOST).cause pFEEDC 4

/-- One message of a valid frame (R193). -/
def State.feedMessage (s : State) (q : Nat) (m : List Byte) : State :=
  if byteAt m 0 = 1 then s.feedRaster q m
  else if byteAt m 0 = 2 then s.feedControl q m
  else s.incSat (pFEED q) R.FEED_DROP_FMT

/-- An accepted frame is counted (R189). -/
def State.feedCount (s : State) (n len : Nat) : State :=
  (s.incWrap (pFEED n) R.FEED_RX_FRM).add64 (pFEED n) R.FEED_RX_BYTES_LO R.FEED_RX_BYTES_HI len
/-- A received pause ends: what waited is sent (R190). -/
def State.pauseEnd (s : State) (n : Nat) : State :=
  (if s.feedTx n then (s.portAt n).waiting else []).foldl (fun u e => u.emit (.feed n (s.feedFrame n e.2)))
    (s.updPort n fun x => { x with pausedUntil := none, waiting := [] })
/-- A received PAUSE of so many quanta takes force (R190). -/
def State.pauseTake (s : State) (n q : Nat) : State :=
  let t := s.incWrap (pFEED n) R.FEED_PAUSE_RX
  if q = 0 then t.pauseEnd n
  else t.updPort n fun x => { x with pausedUntil := some (s.tick + quantaTicks q) }

/-- The address of PAUSE frames. -/
def pauseMac : Nat := 0x0180C2000001
/-- A received frame, from its destination address to its FCS (R189). -/
def State.feedFrameIn (s : State) (n : Nat) (l : List Byte) : State :=
  let p := pFEED n
  let maxlen := max 1518 (min 9216 (s.get p R.FEED_MAXLEN))
  let dst := beAt l 0 6
  let typ := beAt l 12 2
  let x := s.portAt n
  let body := (l.drop 14).take (l.length - 18)
  if l.length < 64 || maxlen < l.length || crc32 (l.take (l.length - 4)) != leAt l (l.length - 4) 4 then
    s.incSat p R.FEED_DROP_FCS
  else if !(dst == x.mac || (x.mcastEn && dst == x.mcast) || (dst == pauseMac && typ == 0x8808)) then
    s.incSat p R.FEED_DROP_ADDR
  else if typ != 0x88B5 && typ != 0x8808 then s.incSat p R.FEED_DROP_ADDR
  else if typ = 0x8808 then
    let t := s.feedCount n l.length
    if beAt body 0 2 = 1 then t.pauseTake n (beAt body 2 2) else t
  else if !s.feedReady n then s.incSat p R.FEED_DROP_NRDY
  else if !feedHeader body then s.incSat p R.FEED_DROP_FMT
  else match feedMessages (byteAt body 1) (body.drop 4) with
    | none => s.incSat p R.FEED_DROP_FMT
    | some ms =>
      let t := (s.feedCount n l.length).updPort n fun x => { x with lastSrc := beAt l 6 6 }
      ms.foldl (fun u m => u.feedMessage n m) t

/-- FEED_FRAME_RECEIVE: port n receives a frame (R189). A port whose lane is not up receives none. -/
def execFeedFrameReceive (p : Port) (bytes : List Byte) (s : State) : Host.Outcome State Fault Refusal :=
  .next (if s.laneUp (feedLane p) then (s.feedFrameIn p bytes).feedSettle else s)

/-- PAUSE_RECEIVE: port n receives a 64-byte PAUSE frame (R189, R190). -/
def execPauseReceive (p : Port) (quanta : BitVec 16) (s : State) : Host.Outcome State Fault Refusal :=
  .next (if s.laneUp (feedLane p) then (s.feedCount p 64).pauseTake p quanta.toNat else s)

/-- PAUSE_EXPIRY: the pause that port n received ends (R190). -/
def execPauseExpiry (p : Port) (s : State) : Host.Outcome State Fault Refusal :=
  let n := p.val
  .next <|
    match (s.portAt n).pausedUntil with
    | none => s
    | some t =>
      if s.tick < t then s else s.pauseEnd n

/-- PAUSE_REPEAT: while its condition lasts a PAUSE is sent again every PQ/2 quanta, of 3.2 ticks each (R190). -/
def execPauseRepeat (p : Port) (s : State) : Host.Outcome State Fault Refusal :=
  let n := p.val
  let pq := s.get (pFEED n) R.FEED_FLOW_PQ
  .next <|
    match (s.portAt n).sending with
    | none => s
    | some t =>
      if !s.pauseWants n || 5 * s.tick < 5 * t + 8 * pq then s
      else (s.updPort n fun x => { x with sending := some s.tick }).pauseSend n pq

/-- The raster item of a record (R165). -/
def FeedRec.item (r : FeedRec) : List Byte :=
  let n := r.raw.length
  leBytes 2 n ++ [r.seg, BitVec.ofNat 8 (4 * b2n r.last + 2 * b2n r.live)] ++ leBytes 4 r.sline ++ leBytes 4 r.check ++ zeros 4 ++
    r.raw ++ zeros ((n + 15) / 16 * 16 - n)
/-- RECORD_DELIVERY: leader n delivers the record that EXP names to its queue (R198, R200). With it not held, nothing happens
(log 2). -/
def execRecordDelivery (p : Port) (live : Bool) (s : State) : Host.Outcome State Fault Refusal :=
  let n := p.val
  let q := pFEED n
  .next <|
    if !s.isLeader n then s
    else match s.nextHeld n live with
      | none => s
      | some r =>
        let s := (s.enqueue (n + 1) { bytes := r.item, last := r.last }).incWrap q R.FEED_REC_CNT
        let s := s.updStream n live fun x => { x with
          held := x.held.filter fun e => e.rseq != r.rseq
          unack := x.unack + 1
          unackSince := some (x.unackSince.getD s.tick)
          lastSline := r.sline }
        let s := (s.incWrap q (feedExp live)).feedMakeRoom n
        let s := if max 1 (s.get q R.FEED_ACK_ACK_INT) ≤ ((s.portAt n).stream live).unack then s.feedAck n live else s
        s.feedSettle

/-- GAP_TIMEOUT: a gap has been open for GAP_TO µs: NAK reason 2 goes out, and again every GAP_TO (R199). The tick at which the timer
expires is over: a record of that tick that closes the gap comes first. -/
def execGapTimeout (p : Port) (live : Bool) (s : State) : Host.Outcome State Fault Refusal :=
  let n := p.val
  .next <|
    match ((s.portAt n).stream live).gapSince with
    | none => s
    | some t =>
      if !s.isLeader n || !s.gapOpen n live || s.tick ≤ t + usTicks (max 1 (s.get (pFEED n) R.FEED_GAP)) then s
      else
        ((s.updStream n live fun x => { x with gapSince := some (s.tick - 1) }).feedNak n live 2 (s.expOf n live) 0).cause (pFEED n) 5

/-- ACK_TIMEOUT: ACK_TO µs have passed since the first delivery not yet acknowledged (R200). -/
def execAckTimeout (p : Port) (live : Bool) (s : State) : Host.Outcome State Fault Refusal :=
  let n := p.val
  .next <|
    match ((s.portAt n).stream live).unackSince with
    | none => s
    | some t =>
      if !s.isLeader n || s.tick < t + usTicks (max 1 (s.get (pFEED n) R.FEED_ACK_ACK_TO)) then s
      else s.feedAck n live

end Sys2Proof.Machine
end

