-- ==== Sys2Proof/Machine/Dma.lean ====
section
/-! DEFINITION. The DMA channels: DMA_DB, DMA_BURST, DESCRIPTOR_COMPLETE, DMA_CMD_RESUME, DMA_CMD_ABORT, COMPLETION_TIMEOUT
(R160 to R176, R187). A host read is answered with its burst; one that is never answered is COMPLETION_TIMEOUT (log 10). -/

namespace Sys2Proof.Machine

/-! ### Descriptors (R162 to R164) -/

/-- DMA_CUR. -/
def State.dmaCur (s : State) (c : Nat) : Nat := s.get64 (pDMA c) R.DMA_CUR_LO R.DMA_CUR_HI
/-- The descriptor of 32 bytes. -/
def descOf (d : List Byte) : Desc :=
  let c := leAt d 0 8
  { next := field c 31 33 * 32, dstT := field c 20 4, srcT := field c 16 4, irq := bit c 1, last := bit c 0,
    src := leAt d 8 8, dst := leAt d 16 8, len := leAt d 24 4, srcRing := byteAt d 28, dstRing := byteAt d 29 }
/-- A type pair of R163. -/
def pairGood (src dst : Nat) : Bool :=
  [(0, 0), (1, 0), (0, 1), (1, 2), (0, 2), (2, 0), (2, 1), (2, 2), (2, 3)].contains (src, dst)
/-- A ring field is 0 or 12 to 36. -/
def ringGood (n : Nat) : Bool := n == 0 || (12 ≤ n && n ≤ 36)
/-- A DRAM side lies in the installed DRAM and is aligned to its ring. -/
def State.sideGood (s : State) (a ring : Nat) : Bool := a < s.dramSize && (ring == 0 || a % 2 ^ ring == 0)
/-- The checks of R164 on the 32 bytes of a descriptor. -/
def State.descGood (s : State) (l : List Byte) : Bool :=
  let c := leAt l 0 8
  let d := descOf l
  pairGood d.srcT d.dstT && field c 24 7 == 0 && field c 2 14 == 0 && byteAt l 30 == 0 && byteAt l 31 == 0
    && d.len != 0 && ringGood d.srcRing && ringGood d.dstRing
    && (if d.srcT = 2 then d.src == 0 else true)
    && (if d.dstT = 2 then d.dst == 0 else if d.dstT = 3 then d.dst < 8 else true)
    && (d.srcT != 0 || s.sideGood d.src d.srcRing)
    && (d.dstT != 0 || (s.sideGood d.dst d.dstRing && d.dst % 64 == 0 && d.len % 64 == 0))

/-- Bytes may be exchanged with the host (R344, R348). -/
def State.hostOk (s : State) : Bool := s.host.ready && !s.host.d3 && s.flag pHOSTIF R.HOSTIF_LINK_BME
/-- A burst, a descriptor or a control word fails: the channel halts (R175). -/
def State.dmaHalt (s : State) (c code src addr dir redo : Nat) : State :=
  ((s.err64 (pDMA c) code src addr dir).updDma c fun d => { d with st := 3, redo := redo }).cause (pDMA c) 5
/-- DESCRIPTOR_FETCH (R164): the channel takes the descriptor at an address, once DRAM serves the read (R301, R322). -/
def State.dmaFetch (s : State) (c a : Nat) : State :=
  let s := (s.set64 (pDMA c) R.DMA_CUR_LO R.DMA_CUR_HI a).updDma c fun d => { d with
    st := 1, redo := 1, desc := none, taken := 0, lastSeen := false, reqS := false, reqD := false }
  if !s.dramReady then s
  else if s.dramSize ≤ a then s.dmaHalt c 0x60 4 a 0 1
  else if !s.chainFree a 32 c then s
  else
    let r := s.dramRead a 32 1 c
    if !r.2.2 then r.1.dmaHalt c 0x60 2 a 0 1
    else if !r.1.descGood r.2.1 then r.1.dmaHalt c 0x60 3 a 0 1
    else r.1.updDma c fun d => { d with redo := 0, desc := some (descOf r.2.1) }
/-- The control word at DMA_CUR is read again: the channel follows NEXT or parks, which sets PARK unless it was parked
before (R174). -/
def State.dmaReread (s : State) (c : Nat) (parked : Bool := false) : State :=
  let a := s.dmaCur c
  let s := s.updDma c fun d => { d with redo := if parked then 3 else 2, dbPend := false, desc := none }
  let r := s.dramRead a 8 1 c
  let w := leNat r.2.1
  if !s.chainFree a 8 c then s
  else if !r.2.2 then r.1.dmaHalt c 0x60 2 a 0 2
  else if bit w 0 then
    let t := r.1.updDma c fun d => { d with st := 2, redo := 0 }
    if parked then t else t.cause (pDMA c) 4
  else r.1.dmaFetch c (field w 31 33 * 32)
/-- Channel c's next burst reads the host, and bus mastering lets it (R175, R344). -/
def State.readsHost (s : State) (c : Nat) : Bool :=
  s.hostOk && s.dmaReq c && !(s.dmaAt c).finished && (s.dmaAt c).desc.any fun d => d.srcT == 1 && s.burstLen c d != 0
/-- The tick at which the host read of channel c's next burst was issued stands until the burst is done, or can be none (R344). -/
def State.readNote (s : State) (c : Nat) : State :=
  if s.readsHost c then (if (s.dmaAt c).readAt.isSome then s else s.updDma c fun d => { d with readAt := some s.tick })
  else if (s.dmaAt c).readAt.isSome then s.updDma c fun d => { d with readAt := none }
  else s
/-- A read that waited for DRAM, or that RESUME repeats (R176, R301). -/
def State.dmaRedo (s : State) (c : Nat) : State :=
  let d := s.dmaAt c
  if !s.dmaOn c || !s.dramReady then s
  else if d.st = 1 && d.redo = 1 then s.dmaFetch c (s.dmaCur c)
  else if d.st = 1 && d.redo = 2 then s.dmaReread c
  else if d.st = 2 && d.redo = 3 then s.dmaReread c true
  else s
/-- Channel c goes on as far as it can. -/
def State.dmaGo (s : State) (c : Nat) : State := (s.dmaRedo c).readNote c
/-- EN of channel c changes to 1 (R160). -/
def State.dmaEnable (s : State) (c : Nat) : State :=
  if s.dmaOn c && (s.dmaAt c).st = 0 then s.dmaFetch c (s.get64 (pDMA c) R.DMA_HEAD_LO R.DMA_HEAD_HI) else s

/-! ### Requests (R161, R168, R172) -/

/-- Keep the requests as they stand now. -/
def State.dmaEval (s : State) (c : Nat) : State :=
  let a := s.reqSrc c
  let b := s.reqDst c
  s.updDma c fun d => { d with reqS := a, reqD := b }

/-! ### Bursts (R165 to R172, R175) -/

/-- The channels with a burst to do at a level, in the order of their turns after the last one served there (R169). -/
def State.dmaTurns (s : State) (l : Nat) : List Nat :=
  ((List.range 64).map fun i => (s.lastDma.getD l 63 + 1 + i) % 64).filter fun c =>
    s.dmaWants c && ((s.dmaAt c).desc.map (s.dmaLevel c)) == some l
/-- The channel that is served next: the highest level first, round robin within it (R169). -/
def State.dmaGrant (s : State) : Option Nat := ([3, 4, 5].flatMap s.dmaTurns).head?

/-- Write bytes at the destination's DRAM address, in whole units: what fills no unit stays in staging unless it is to be
flushed, and then is kept for the unit's next write (R167). -/
def State.dramDeliver (s : State) (c a : Nat) (flush : Bool) : State × Nat :=
  let d := s.dmaAt c
  let f := a % 64
  let front : List (Option Byte) := if d.kept.length = f then d.kept.map some else List.replicate f none
  let all := front ++ d.staging.map some
  let n := d.staging.length
  let whole := all.length / 64 * 64
  let put := if flush then all ++ List.replicate ((all.length + 63) / 64 * 64 - all.length) (some 0) else all.take whole
  let done := if flush then n else whole - f
  let s := if put.isEmpty then s else s.dramWriteOpt (a - f) put c
  (s.updDma c fun d => { d with
    staging := if flush then [] else d.staging.drop done
    kept := if flush then (all.drop whole).filterMap id else if whole = 0 then d.kept else [] }, done)
/-- Bytes in staging go to a sink queue as far as it has room, an encoder's through its staging buffer (R81, R170; log 102). -/
def State.queueDeliver (s : State) (c : Nat) : State × Nat :=
  let ep := s.dstEp c
  let l := (s.dmaAt c).staging
  let n := min l.length (s.sinkFree ep)
  let b := ep - 0x20
  let s := if 0x20 ≤ ep && ep ≤ 0x27 then s.stageIn b ((s.encAt b).taken + (s.sinks.getD ep []).length) (l.take n) else s
  if ep = 0 then (s, 0)
  else (({ s with sinks := s.sinks.put ep (s.sinks.getD ep [] ++ l.take n) }).updDma c fun d => { d with staging := d.staging.drop n }, n)
/-- WPOS of a live ring moves on (R172). -/
def State.wposAdd (s : State) (b n : Nat) : State :=
  s.set64 pDMAC (jf R.DMAC_WPOS_LO b) (jf R.DMAC_WPOS_HI b) (s.get64 pDMAC (jf R.DMAC_WPOS_LO b) (jf R.DMAC_WPOS_HI b) + n)
/-- Count bytes written to the destination. -/
def State.xferAdd (s : State) (c n : Nat) : State := s.add64 (pDMA c) R.DMA_XFER_LO R.DMA_XFER_HI n
/-- What staging holds goes to the destination; fin tells that an item or the descriptor ends here, pad that a LAST mark
does (R166, R167, R172). -/
def State.deliver (s : State) (c : Nat) (d : Desc) (itemEnd fin pad : Bool) : State :=
  let i := (s.dmaAt c).taken - (s.dmaAt c).staging.length
  if d.dstT = 2 then let r := s.queueDeliver c; r.1.xferAdd c r.2
  else
    let a := s.dstAddr c d i
    let z := if pad then (64 - s.dstAddr c d (s.dmaAt c).taken % 64) % 64 else 0
    let s := s.updDma c fun x => { x with staging := x.staging ++ zeros z }
    if d.dstT = 1 then
      let l := (s.dmaAt c).staging
      ((s.updDma c fun x => { x with staging := [] }).emit (.hostWrite a l)).xferAdd c l.length
    else
      let r := s.dramDeliver c a (fin || itemEnd)
      let s := r.1.xferAdd c r.2
      if d.dstT = 3 then
        let n := (s.dmaAt c).ahead + r.2
        if itemEnd then (s.wposAdd d.dst n).updDma c fun x => { x with ahead := 0 } else s.updDma c fun x => { x with ahead := n }
      else s

/-- The tag of a raster item for encoder b is as R165 has it. -/
def tagGood (b : Nat) (t : List Byte) : Bool :=
  let k := byteAt t 2
  leAt t 0 2 == rawBytes (bit k 0) (k / 16) && k / 2 % 8 == b && byteAt t 3 &&& 0xF9 == 0 && leAt t 12 4 == 0
/-- The bytes of an item with this tag. -/
def itemLen (t : List Byte) : Nat := 16 + (leAt t 0 2 + 15) / 16 * 16

/-- The bytes of a burst of n from the source, or the SRC of its failure (R175). -/
def State.burstSource (s : State) (c : Nat) (d : Desc) (n : Nat) (host : HostResp) : State × Except Nat (List Byte) :=
  let a := ringAddr d.src d.srcRing (s.dmaAt c).taken
  if d.srcT = 2 then (s, .ok (((s.queues.getD (s.srcEp c) []).head?.map fun q => q.bytes.take n).getD []))
  else if d.srcT = 1 then
    (s, if !s.hostOk then .error 0 else match host with
      | .ok l => .ok ((l ++ zeros n).take n)
      | .refused => .error 0
      | .poisoned => .error 1)
  else if s.dramSize ≤ a then (s, .error 4)
  else let r := s.dramRead a n 1 c; (r.1, if r.2.2 then .ok r.2.1 else .error 2)
/-- Take n bytes off the front item of a source queue: whether the item ends, and with a LAST mark. -/
def State.queueTake (s : State) (ep n : Nat) : State × Bool × Bool :=
  match s.queues.getD ep [] with
  | [] => (s, false, false)
  | q :: r =>
    if q.bytes.length ≤ n then ({ s with queues := s.queues.put ep r }, true, q.last)
    else ({ s with queues := s.queues.put ep ({ q with bytes := q.bytes.drop n } :: r) }, false, false)

/-- The channel after it has taken bytes l: a tag of a raster item for an encoder is held until it has come whole, in one descriptor or two,
and then goes to staging with what follows; none where it fails (R165; log 113). -/
def State.tagCheck (s : State) (c : Nat) (d : Desc) (l : List Byte) : Option DmaSt :=
  let x := s.dmaAt c
  let y := { x with taken := x.taken + l.length }
  if !s.tagged c d then some { y with staging := x.staging ++ l }
  else if x.itemLeft ≠ 0 then some { y with staging := x.staging ++ l, itemLeft := x.itemLeft - l.length }
  else
    let t := x.tag ++ l
    let a := if x.tag.isEmpty then ringAddr d.src d.srcRing x.taken else x.tagAt
    if t.length < 16 then some { y with tag := t, tagAt := a }
    else if tagGood (s.dstEp c - 0x20) (t.take 16) then
      some { y with staging := x.staging ++ t, tag := [], itemLeft := itemLen t - t.length }
    else none

/-- One burst of channel c (R165 to R172, R175). -/
def State.dmaBurst (s : State) (c : Nat) (d : Desc) (host : HostResp) : State :=
  let s := if d.dstT = 2 then s.deliver c d false false false else s
  let n := s.burstLen c d
  if n = 0 then s
  else
    let r := s.burstSource c d n host
    let s := r.1
    let x := s.dmaAt c
    let dst := s.dstAddr c d x.taken
    match r.2 with
    | .error e => s.dmaHalt c 0x60 e (ringAddr d.src d.srcRing x.taken) 0 0
    | .ok l =>
      if d.dstT = 1 ∧ !s.hostOk then s.dmaHalt c 0x61 0 dst 1 0
      else if (d.dstT = 0 ∨ d.dstT = 3) ∧ s.dramSize ≤ dst then s.dmaHalt c 0x61 4 dst 1 0
      else match s.tagCheck c d l with
        | none =>
          -- RESUME reads the tag again: what this descriptor gave of it is given back (R176)
          let k := min x.tag.length x.taken
          (s.dmaHalt c 0x31 5 (if x.tag.isEmpty then ringAddr d.src d.srcRing x.taken else x.tagAt) 0 0).updDma c fun x => { x with
            taken := x.taken - k, tag := x.tag.take (x.tag.length - k) }
        | some y =>
          let q := if d.srcT = 2 then s.queueTake (s.srcEp c) n else (s, false, false)
          let s := q.1.updDma c fun _ => { y with lastSeen := q.2.2 }
          s.deliver c d q.2.1 ((s.dmaAt c).taken == d.len || q.2.2) q.2.2

/-- DMA_BURST: the channel that is served next does one burst (R169). Another channel's, or one that waits, does nothing
(log 2). -/
def execDmaBurst (c : DmaCh) (host : HostResp) (s : State) : Host.Outcome State Fault Refusal :=
  let n := c.val
  let t := s.dmaGo n
  .next <|
    match (t.dmaAt n).desc with
    | none => t
    | some d =>
      if t.dmaGrant = some n then
        let u := ((({ t with lastDma := t.lastDma.put (t.dmaLevel n d) n }).dmaEval n).dmaBurst n d host).dmaEval n
        let u := (u.updDma n fun x => { x with readAt := none }).readNote n
        let u := if d.dstT = 3 then u.panicUpdate d.dst else u
        if d.srcT = 2 ∧ t.srcEp n ≤ 24 then u.feedSettle else u
      else t

/-- DESCRIPTOR_COMPLETE: the descriptor's last byte is delivered: DONE, and the control word is read again (R166, R174). -/
def execDescriptorComplete (c : DmaCh) (s : State) : Host.Outcome State Fault Refusal :=
  let n := c.val
  let x := s.dmaAt n
  .next <|
    if !s.dmaOn n || x.st != 1 || !x.finished then s
    else match x.desc with
      | none => s
      | some d =>
        let s := s.incWrap (pDMA n) R.DMA_DONE_CNT
        (if d.irq then s.cause (pDMA n) 3 else s).dmaReread n

/-- A doorbell of channel c takes effect (R160, R174). -/
def State.dmaBell (s : State) (c : Nat) : State :=
  let d := s.dmaAt c
  if !s.dmaOn c then s
  else if d.st = 0 then s.dmaEnable c
  else if d.st = 1 then (s.updDma c fun d => { d with dbPend := true }).incWrap (pDMA c) R.DMA_DB_CNT
  else if d.st = 2 then s.dmaReread c true
  else s
/-- What a write of DMA_DB does: it waits for the BAR2 writes before it (R173). -/
def dmaDbAct (c v : Nat) (s : State) : State :=
  if !bit v 0 then s else if s.bar2Writes then { s with bells := s.bells ++ [c] } else s.dmaBell c
/-- DMA_DB: a host write of DMA_DB with RING 1. -/
def execDmaDb (c : DmaCh) (s : State) : Host.Outcome State Fault Refusal :=
  .next (s.writeWith (pDMA c.val) 0x58 1 (dmaDbAct c.val 1))

/-- What a write of DMA_CMD does in HALTED (R176). With both bits set the channel resumes, and aborts if it is halted again. -/
def dmaCmdAct (c v : Nat) (s : State) : State :=
  let s := if bit v 0 && (s.dmaAt c).st == 3 then (s.updDma c fun d => { d with st := 1 }).dmaRedo c else s
  if bit v 1 && (s.dmaAt c).st == 3 then s.dmaStop c else s
/-- DMA_CMD_RESUME: a host write of DMA_CMD.RESUME. -/
def execDmaCmdResume (c : DmaCh) (s : State) : Host.Outcome State Fault Refusal :=
  .next (s.writeWith (pDMA c.val) 0x5C 1 (dmaCmdAct c.val 1))
/-- DMA_CMD_ABORT: a host write of DMA_CMD.ABORT. -/
def execDmaCmdAbort (c : DmaCh) (s : State) : Host.Outcome State Fault Refusal :=
  .next (s.writeWith (pDMA c.val) 0x5C 2 (dmaCmdAct c.val 2))

/-- The completion timeout in µs, at least and at most, by the value in Device Control 2: ranges A and B, and 50 ms where it is disabled or at
default (R344; log 131). -/
def ctoRange (v : Nat) : Nat × Nat :=
  match v with
  | 1 => (50, 100)
  | 2 => (1000, 10000)
  | 5 => (16000, 55000)
  | 6 => (65000, 210000)
  | _ => (50000, 50000)
/-- The completion timeout in ticks; its place in a range is a free value (log 131). -/
def State.ctoTicks (s : State) : Nat :=
  let r := ctoRange s.host.cto
  usTicks (if r.1 = r.2 then r.1 else r.1 + Config.free (131 * 2 ^ 32) s.host.cto % (r.2 - r.1 + 1))
/-- COMPLETION_TIMEOUT: the host read of the channel's burst has not completed in time (R175, R344, R361). -/
def execCompletionTimeout (c : DmaCh) (s : State) : Host.Outcome State Fault Refusal :=
  let n := c.val
  .next <|
    match (s.dmaAt n).desc, (s.dmaAt n).readAt with
    | some d, some t =>
      if !s.readsHost n || s.tick < t + s.ctoTicks then s
      else (((s.incSat pHOSTIF R.HOSTIF_CTO_CNT).cause pHOSTIF 5).dmaHalt n 0x60 0 (ringAddr d.src d.srcRing (s.dmaAt n).taken) 0
        0).updDma n fun x => { x with readAt := none }
    | _, _ => s

end Sys2Proof.Machine
end

