-- ==== Sys2Proof/Machine/Prof.lean ====
section
/-! DEFINITION. Selecting and reloading profiles: PROFSTB, PROF_CMD_GO, PROF_CMD_RELOAD, RELOAD_END (R207 to R211, R214, R236). -/

namespace Sys2Proof.Machine

/-! ### Selections (R208, R210, R211) -/

/-- ℓ_arm of a selection made now (R210); under the home unit's lead the LINE_SEQ values are those of both units, of every bar
that runs on one of them, and the line is raised by the margin (R236; log 118). -/
def State.armLine (s : State) : Nat :=
  let run := (List.range 8).filter fun b => s.lineRuns b || (s.leads && bit s.pair.peerBars b)
  let seq := fun b =>
    if !s.leads then s.get (pLINE b) R.LINE_SEQ
    else if s.lineRuns b then laterLine (s.get (pLINE b) R.LINE_SEQ) (s.peerLine b)
    else s.peerLine b
  let base := match run with
    | b :: r => (r.foldl (fun m c => laterLine (seq c) m) (seq b)) + 1
    | [] => (List.range 8).foldl (fun m b => min m (s.get (pLINE b) R.LINE_SEQ0)) (2 ^ 32)
  (base + if s.leads then s.pairMargin else 0) % 2 ^ 32
/-- A selection is refused (R208). -/
def State.profRefuse (s : State) : State := ((s.incSat pPROF R.PROF_REJ_CNT).err pPROF 0xA1 1 0).cause pPROF 5
/-- A selection of a usable slot with its ℓ_arm (R210, R211; log 33: a bar marked done at the selection is done). -/
def State.profTake (s : State) (p arm : Nat) : State :=
  let img := s.prof.images.getD p []
  let done := (List.range 8).foldl (fun m b => if bit (byteAt img 2) b && s.lineRuns b then m else m + 2 ^ b) 0
  let x : Sel := { slot := p, line := arm, image := img, done := done, applied := 0 }
  let s := (s.incWrap pPROF R.PROF_SEL_CNT).cause pPROF 3
  let s := match s.prof.cur, s.prof.next with
    | none, _ => { s with prof := { s.prof with cur := some x } }
    | some c, none =>
      if c.done = 0 then ({ s with prof := { s.prof with cur := some x } }).incSat pPROF R.PROF_REPL_CNT
      else { s with prof := { s.prof with next := some x } }
    | some _, some _ => ({ s with prof := { s.prof with next := some x } }).incSat pPROF R.PROF_REPL_CNT
  s.profSettle
/-- A selection of slot p (R208); the home unit of a pair sends it on (R214, R236). -/
def State.profSelect (s : State) (p : Nat) : State :=
  if !s.prof.loaded || !s.slotUsable p then s.profRefuse
  else
    let arm := s.armLine
    let s := if s.profLeads then
        s.crookCommand 0x12 ([BitVec.ofNat 8 p] ++ zeros 3 ++ leBytes 4 arm ++ ((s.prof.images.getD p []).drop 656).take 4)
      else s
    s.profTake p arm
/-- A selection that the partner makes for itself is ignored and counted, on PAIR too while the home unit leads (R214, R236). -/
def State.profIgnore (s : State) : State :=
  let t := s.incSat pPROF R.PROF_REJ_CNT
  if s.follows then t.incSat pPAIR R.PAIR_IGN_CNT else t
/-- The 1.000 µs filter of PROFSTB can accept an edge now: since the one before, it has been low for 1.000 µs and high for 1.000 µs
(R209; log 123). -/
def State.stbFree (s : State) : Bool := match s.prof.stbAt with | some t => decide (t + usTicks 2 ≤ s.tick) | none => true
/-- PROFSTB: a strobe edge is accepted with PROFSEL at a slot (R208, R209). -/
def execProfstb (sel : BitVec 3) (s : State) : Host.Outcome State Fault Refusal :=
  .next <|
    if s.inReset || !s.stbFree then s
    else
    let s := { s with prof := { s.prof with stbAt := some s.tick } }
    if s.resetting pPROF || !s.flag pPROF R.PROF_CTRL then s
    else if s.profFollows then s.profIgnore
    else s.profSelect sel.toNat

/-! ### Reloads (R207) -/

/-- No flash operation asked for earlier holds the flash (R377). -/
def State.flashFree (s : State) : Bool := s.boot.op.isNone || s.boot.opAfter != 0
/-- The reload at the front starts when the flash is free: BUSY, and VALID of its slot 0. While none runs BUSY is 0 (R207). -/
def State.reloadStart (s : State) : State :=
  match s.prof.reloads with
  | (p, _) :: _ =>
    if s.flashFree then (s.set pPROF R.PROF_VALID_BUSY 1).upd pPROF R.PROF_VALID_VALID fun v => setBit v p false
    else s.set pPROF R.PROF_VALID_BUSY 0
  | [] => s.set pPROF R.PROF_VALID_BUSY 0
/-- Ask for a reload of slot p, to be selected at its end or not (R207, R208, R377). -/
def State.reloadAsk (s : State) (p : Nat) (select : Bool) : State :=
  ({ s with prof := { s.prof with reloads := s.prof.reloads ++ [(p, select)] } }).reloadStart
/-- Copy slot p from the flash and check it (R207). -/
def State.slotCopy (s : State) (p : Nat) : State :=
  let img := s.flashBytes (slotFlash p) 660
  if imageValid img p then
    ({ s with prof := { s.prof with images := s.prof.images.put p img } }).upd pPROF R.PROF_VALID_VALID fun v => setBit v p true
  else
    (({ s with prof := { s.prof with images := s.prof.images.del p } }).upd pPROF R.PROF_VALID_VALID fun v =>
      setBit v p false).err pPROF 0xA1 0 (slotFlash p)
/-- RELOAD_END: the running reload ends (R207, R208). With none running, nothing happens (log 2). -/
def execReloadEnd (s : State) : Host.Outcome State Fault Refusal :=
  .next <|
    match s.prof.reloads with
    | [] => s
    | (p, sel) :: rest =>
      if !s.flashFree then s
      else
        let s := ({ s with prof := { s.prof with reloads := rest } }).updBoot fun b => { b with opAfter := b.opAfter - 1 }
        let s := (s.slotCopy p).reloadStart
        if sel then s.profSelect p else s

/-- What a write of PROF_CMD does (R208, R214). -/
def profCmdAct (v : Nat) (s : State) : State :=
  let p := field v 0 3
  let ign := bit v 31 && s.profFollows
  let s := if ign then s.profIgnore else s
  if bit v 8 then s.reloadAsk p (bit v 31 && !ign)
  else if bit v 31 && !ign then s.profSelect p
  else s
/-- PROF_CMD_GO: a host write of PROF_CMD with GO 1. -/
def execProfCmdGo (slot : BitVec 3) (reload : Bool) (s : State) : Host.Outcome State Fault Refusal :=
  let v := 2 ^ 31 + 256 * b2n reload + slot.toNat
  .next (s.writeWith pPROF 0x44 v (profCmdAct v))
/-- PROF_CMD_RELOAD: a host write of PROF_CMD with RELOAD 1 and GO 0. -/
def execProfCmdReload (slot : BitVec 3) (s : State) : Host.Outcome State Fault Refusal :=
  let v := 256 + slot.toNat
  .next (s.writeWith pPROF 0x44 v (profCmdAct v))
/-- A soft reset of PROF: CUR and NEXT are discarded and all eight slots are reloaded (R376). -/
def State.profReset (s : State) : State :=
  let s := ({ s with prof := { s.prof with cur := none, next := none, reloads := [] } }).set pPROF R.PROF_VALID_VALID 0
  let s := s.updBoot fun b => { b with opAfter := 0 }
  (s.each (List.range 8) fun t p => t.reloadAsk p false).set pPROF R.PROF_VALID_VALID 0

end Sys2Proof.Machine
end

