-- ==== Sys2Proof/Machine/Breath.lean ====
section
/-! DEFINITION. Breath: the lookahead A_b, the update of the ceiling, SPD_CEIL, and PWM_PERIOD, UNDERRUN_WARN_EXPIRY and
PEER_CEILING_EXPIRY (R216 to R220, R222, R386). -/

namespace Sys2Proof.Machine

/-! ### Lookahead (R216) -/

/-- A line-rate field: above 120,000 it acts as 120,000 (R222). -/
def rate (v : Nat) : Nat := min v 120000
/-- The LEN of the live record at a stream position, read without effect; none where it cannot be read. -/
def State.livePeek (s : State) (b p : Nat) : Option Nat :=
  let l := (List.range 2).map fun i =>
    let a := ((s.ringPieces b (p + i) 1).headD (0, 0)).1
    let pl := s.dramPlace (a - a % 64)
    match s.lookBurst pl.1 (s.physRank pl.1 pl.2.1 pl.2.2) pl.2.2 with
    | .clean d => some (d.getD (a % 64) 0)
    | .corrected d => some (d.getD (a % 64) 0)
    | _ => none
  if l.all (·.isSome) then some (leNat (l.map (·.getD 0))) else none
/-- The stream position after n live records from p, if they all lie below WPOS. -/
def State.liveSpan (s : State) (b w : Nat) : Nat → Nat → Option Nat
  | 0, p => some p
  | n + 1, p =>
    if w < p + 12 then none
    else match s.livePeek b p with
      | none => none
      | some k => if k < 12 ∨ w < p + k then none else State.liveSpan s b w n (p + k)
/-- How many live records sample line m of a job has (R179), read without effect. -/
def State.liveCount (s : State) (j : Job) (m : Nat) : Nat :=
  if !j.liveEn then 0
  else if !j.maskMode then popcount 16 j.maskFixed
  else
    let a := j.maskAddr + 2 * m
    let pl := s.dramPlace (a - a % 64)
    match s.lookBurst pl.1 (s.physRank pl.1 pl.2.1 pl.2.2) pl.2.2 with
    | .clean d => popcount 16 (leAt d (a % 64) 2)
    | .corrected d => popcount 16 (leAt d (a % 64) 2)
    | _ => 0
/-- Sample lines of a job whose live records are all present, from line m at stream position p, the first with n records
still to come. -/
def State.liveLines (s : State) (b w : Nat) (j : Job) : Nat → Nat → Nat → Nat → Nat
  | 0, m, _, _ => m
  | f + 1, m, p, n =>
    if j.samples ≤ m then m
    else match s.liveSpan b w n p with
      | none => m
      | some q => State.liveLines s b w j f (m + 1) q (s.liveCount j (m + 1))
/-- The first printed line of job i of the engine's list that is not present, as its q. -/
def State.presentTo (s : State) (b i : Nat) (j : Job) : Nat :=
  if !j.liveEn then j.total
  else
    let w := s.get64 pDMAC (jf R.DMAC_WPOS_LO b) (jf R.DMAC_WPOS_HI b)
    let d := s.decAt b
    let m := if i < d.jobIdx then j.samples
      else if i = d.jobIdx ∧ d.started = true then
        s.liveLines b w j 65536 d.m d.livePos (if d.opened then popcount 16 d.liveLeft else s.liveCount j d.m)
      else s.liveLines b w j 65536 0 j.livePos (s.liveCount j 0)
    if j.samples ≤ m then j.total else j.r * m
/-- Count the lines present from x on over the jobs that follow (R216): idle lines are, and so is every line after a parked
chain. -/
def State.presentFrom (s : State) (b : Nat) : List (Job × Nat) → Nat → Nat → Nat
  | [], _, n => if (s.jobAt b).parked then 65535 else n
  | (j, i) :: r, x, n =>
    let gap := diff32 j.first x
    if diff32 j.after x ≤ 0 then State.presentFrom s b r x n
    else
      let q0 := if 0 < gap then 0 else (-gap).toNat
      let q1 := s.presentTo b i j
      let n := n + (if 0 < gap then gap.toNat else 0) + (q1 - q0)
      if q1 < j.total then n else State.presentFrom s b r j.after n
/-- A_b (R216). -/
def State.lookahead (s : State) (b : Nat) : Nat :=
  if !(s.jobAt b).running then 65535
  else min 65535 (max (s.decAhead b) (s.presentFrom b (s.jobAt b).jobs.zipIdx (s.nextLine b) 0))
/-- Bar b is included in Breath (R216). -/
def State.breathIncl (s : State) (b : Nat) : Bool :=
  s.enabled (pDEC b) && s.enabled (pLINE b) && bit (s.get pDMAC R.DMAC_CTRL) b

/-! ### The update (R217, R386) -/

/-- The bar prints, or has started decoding, a contone job with FAST = 1 (R22). -/
def State.fastJob (s : State) (b : Nat) : Bool :=
  let d := s.decAt b
  (s.jobAt b).jobs.zipIdx.any fun e => e.1.fast && (e.1.begun || e.2 < d.jobIdx || (e.2 == d.jobIdx && d.started))
/-- The ceiling that bar b sets. -/
def State.barCeil (s : State) (b mx mn : Nat) : Nat :=
  let a := s.lookahead b
  let empty := s.ap pBREATH R.BREATH_DEPTH_EMPTY
  let full := max (empty + 1) (s.ap pBREATH R.BREATH_DEPTH_FULL)
  let c : Int := if full ≤ a then mx else if a ≤ empty then mn
    else mn + Int.fdiv (((mx : Int) - mn) * (a - empty : Nat)) ((full - empty : Nat) : Int)
  let c := if s.fastJob b then min c 60000 else c
  c.toNat
/-- A lower limit takes over, with the SRC that names it. -/
def lower (t : Nat × Nat) (c src : Nat) : Nat × Nat := if c < t.1 then (c, src) else t
/-- A Breath update (R217); where limits are equal SRC names the one that comes first in R217. -/
def State.breathUpdate (s : State) : State :=
  if !s.working pBREATH then s
  else
    let p := pBREATH
    let s := s.applyPlain p
    let mx := rate (s.ap p R.BREATH_MAX)
    let mn := rate (s.ap p R.BREATH_MIN)
    let t := lower (mx, 0xA) (rate (s.ap p R.BREATH_SW)) 8
    let t := ((List.range 8).filter s.breathIncl).foldl (fun t b => lower t (s.barCeil b mx mn) b) t
    let t := if s.flag pTHERM R.THERM_STAT_TRIP && (!s.straps.pairEn || s.pairState = 7) then
        lower t (rate (s.get pTHERM R.THERM_CFG_CEIL)) 0xC else t
    let s := if s.straps.pairEn then s.crookSend 0x05 (leBytes 4 t.1) else s
    let t := if s.crookUp && s.flag p R.BREATH_PEER_VALID then lower t (rate (s.get p R.BREATH_PEER_CEIL)) 9 else t
    let ceil := s.get p R.BREATH_CEIL_CEIL
    let rise := ceil + rate (s.ap p R.BREATH_RISE)
    let r := if s.breath.first || t.1 < ceil then t else lower t rise 0xB
    let s := ((s.set p R.BREATH_TARGET t.1).set p R.BREATH_CEIL_CEIL r.1).set p R.BREATH_CEIL_SRC r.2
    let lim := decide (r.1 < mx)
    let s := if s.breath.limited = lim then s else s.cause p 3
    { s with breath := { s.breath with first := false, limited := lim } }

/-! ### SPD_CEIL (R218) -/

/-- H for the ceiling in force. -/
def State.pwmH (s : State) : Nat :=
  let sc := rate (s.ap pBREATH R.BREATH_SCALE)
  let sc := if sc = 0 then 120000 else sc
  (2 * 15625 * min (s.get pBREATH R.BREATH_CEIL_CEIL) sc + sc) / (2 * sc)
/-- A PWM period starts. -/
def State.pwmStart (s : State) : State :=
  { (s.set pBREATH R.BREATH_PWM s.pwmH) with breath := { s.breath with pwmStart := s.tick } }
/-- BREATH is enabled, or disabled: SPD_CEIL is then released. -/
def State.breathEnable (s : State) (en : Bool) : State :=
  if en then ({ s with breath := { s.breath with first := true } }).pwmStart else s.set pBREATH R.BREATH_PWM 15625
/-- PWM_PERIOD: a period of 15,625 ticks has ended (R218). -/
def execPwmPeriod (s : State) : Host.Outcome State Fault Refusal :=
  .next (if !s.working pBREATH || s.tick < s.breath.pwmStart + 15625 then s else s.pwmStart)

/-- SPD_CEIL is released, at a tick of its period: for the first H ticks of it, and throughout while BREATH is disabled or the device is
in reset (R218). -/
def State.spdCeil (s : State) : Bool :=
  s.inReset || !s.enabled pBREATH || s.resetting pBREATH ||
    decide ((s.tick - s.breath.pwmStart) % 15625 < s.get pBREATH R.BREATH_PWM)

/-- UNDERRUN_WARN_EXPIRY: BREATH_WARN.MS ms have passed since the last underrun line (R220). -/
def execUnderrunWarnExpiry (s : State) : Host.Outcome State Fault Refusal :=
  .next <|
    match s.breath.warnUntil with
    | none => s
    | some t => if s.tick < t then s else { s with breath := { s.breath with warnUntil := none } }
/-- PEER_CEILING_EXPIRY: four update periods have passed since the partner's last target (R219). -/
def execPeerCeilingExpiry (s : State) : Host.Outcome State Fault Refusal :=
  .next (if s.flag pBREATH R.BREATH_PEER_VALID && s.breath.peerUntil ≤ s.tick then s.set pBREATH R.BREATH_PEER_VALID 0 else s)

end Sys2Proof.Machine
end

