-- ==== Sys2Proof/Machine/Pair.lean ====
section
/-! DEFINITION. The redundant pair's own commands: sending on Crook, receiving each message, joining, and the timers of the pair
state machine (R223 to R250). The message bodies of TRIM and CAL are in Machine/Chant.lean and Machine/Cal.lean. -/

namespace Sys2Proof.Machine

/-! ### Enable (R223, R245) -/

/-- PG_CTRL.EN of PAIR changes on a unit of a pair. -/
def State.pairEnable (s : State) (en : Bool) : State :=
  if !s.straps.pairEn then s
  else if en then
    let t := s.updPair fun p => { p with
      everClaim := false, waitSince := s.tick, helloAt := s.tick, stateAt := s.tick, timeAt := s.tick }
    t.setPairState 2
  else s.pairOff

/-! ### Periodic messages (R229 to R231, R233) -/

/-- PAIR_TMO in ticks. -/
def State.pairTmo (s : State) : Nat := usTicks (max 20 (s.get pPAIR R.PAIR_TMO))
/-- The last number of the unbroken run of numbers received that follows a (R228, R230). -/
def runTop (l : List Nat) (a : Nat) : Nat :=
  l.foldl (fun a _ => if l.contains ((a + 1) % 2 ^ 32) then (a + 1) % 2 ^ 32 else a) a
/-- A message number that never came is passed over 320 µs after the first number beyond it (log 22). -/
def State.ackGap (s : State) : State :=
  match s.pair.gapSince with
  | none => s
  | some t =>
    if s.tick < t + usTicks 320 then s
    else
      let low := s.pair.rx.foldl (fun m n => if 0 < diff32 m n then n else m) (s.pair.rx.headD s.pair.ack)
      let top := runTop s.pair.rx low
      let rest := s.pair.rx.filter fun n => decide (0 < diff32 n top)
      s.updPair fun p => { p with ack := top, rx := rest, gapSince := if rest.isEmpty then none else some s.tick }
/-- HELLO_SEND: every 100.0 µs (R230). -/
def execHelloSend (s : State) : Host.Outcome State Fault Refusal :=
  .next <|
    if !s.pairOn || s.tick < s.pair.helloAt then s
    else
      (s.updPair fun p => { p with helloAt := s.tick + usTicks 100 }).crookSend 0x01
        [1, BitVec.ofNat 8 (1 + 2 * b2n s.straps.home + 16 * s.straps.unitId.toNat), BitVec.ofNat 8 s.pairState]
/-- STATE_SEND: every 10.00 µs (R229, R230). -/
def execStateSend (s : State) : Host.Outcome State Fault Refusal :=
  .next <|
    if !s.pairOn || s.tick < s.pair.stateAt then s
    else
      let s := (s.updPair fun p => { p with stateAt := s.tick + usTicks 10 }).ackGap
      s.crookSend 0x02 ([BitVec.ofNat 8 s.pairState, BitVec.ofNat 8 s.claimLevel, 0, 0] ++ leBytes 4 s.pair.ack ++ s.lineSeqs ++
        leBytes 4 s.causeMask)
/-- TIME_SEND: every 1.000 ms (R230, R233). -/
def execTimeSend (s : State) : Host.Outcome State Fault Refusal :=
  .next <|
    if !s.pairOn || s.tick < s.pair.timeAt then s
    else (s.updPair fun p => { p with timeAt := s.tick + msTicks 1 }).crookSend 0x03 (zeros 8 ++ leBytes 8 s.cNs ++ zeros 16)

/-- COMMAND_RESEND: an unacknowledged command goes out again after 20.00 µs; after 16 sends Crook is declared down (R231). -/
def execCommandResend (mseq : W32) (s : State) : Host.Outcome State Fault Refusal :=
  .next <|
    match s.pair.cmds.find? fun c => c.mseq == mseq.toNat with
    | none => s
    | some c =>
      if !s.crookUp || !s.carries c.typ || s.tick < c.lastSent + usTicks 20 then s
      else if 16 ≤ c.sends then s.crookFall 1
      else
        let t := s.updPair fun p => { p with cmds := p.cmds.map fun x =>
          if x.mseq = c.mseq then { x with sends := x.sends + 1, lastSent := s.tick } else x }
        (if t.crookLanes = 0 then t else t.emit (.crook c.typ (crookBody t c.mseq c.body))).incWrap pPAIR R.PAIR_RETRY_CNT

/-- CROOK_DOWN: no lane holds block lock, or no intact message has come within PAIR_TMO (R229, R248). -/
def execCrookDown (s : State) : Host.Outcome State Fault Refusal :=
  .next (if s.crookUp && (s.crookLanes == 0 || s.pair.lastRx + s.pairTmo ≤ s.tick) then s.crookFall else s)

/-! ### Receiving (R228, R229) -/

/-- The numbers received and ACK after MSEQ m; numbers compare by signed 32-bit difference. A series that begins far on counts from
4,096 before its first number (R228, R230, R231; log 22). -/
def State.ackTake (s : State) (m : Nat) : State :=
  let s := if s.pair.seen.length ≤ 1 && decide (diff32 m s.pair.ack ≤ 0) then
      s.updPair fun p => { p with ack := (m + 2 ^ 32 - 4096) % 2 ^ 32 }
    else s
  if diff32 m s.pair.ack ≤ 0 then s
  else
    let l := s.pair.rx ++ [m]
    let a := runTop l s.pair.ack
    let rest := l.filter fun n => decide (0 < diff32 n a)
    s.updPair fun p => { p with
      ack := a, rx := rest, gapSince := if rest.isEmpty then none else if a = p.ack then some (p.gapSince.getD s.tick) else some s.tick }
/-- Message m is noted as received (R228, R229). -/
def State.msgNote (s : State) (m : Nat) : State :=
  (s.updPair fun p => { p with seen := (m :: p.seen).take 4096 }).ackTake m
/-- An intact message arrives: duplicate copies are discarded, and the first one is acted on (R229). -/
def State.crookMsg (s : State) (hd : CrookHdr) (g : State → State) : State :=
  if !s.pairOn || s.crookLanes = 0 then s
  else
    let s := s.crookRise
    let m := hd.mseq.toNat
    if s.pair.seen.contains m then s.incWrap pPAIR R.PAIR_DUP_CNT
    else g (s.msgNote m)
/-- A command message: none is carried while either unit reads JOIN (R234). -/
def State.crookCmd (s : State) (hd : CrookHdr) (g : State → State) : State :=
  s.crookMsg hd fun t => if t.pairState = 3 ∨ t.peerState = 3 then t else g t
/-- A command that only the partner performs, for it follows the home unit (R236). -/
def State.crookFollow (s : State) (hd : CrookHdr) (g : State → State) : State :=
  s.crookCmd hd fun t => if t.straps.home then t else g t

/-- CROOK_MESSAGE_NOT_INTACT: a message that fails R228, or of an unknown TYPE, is discarded and counted (R228, R230). -/
def execCrookMessageNotIntact (s : State) : Host.Outcome State Fault Refusal :=
  .next (if s.pairOn && s.crookLanes != 0 then s.incSat pPAIR R.PAIR_BAD_CNT else s)

/-- HELLO (R234, R245). -/
def execHello (hd : CrookHdr) (ver : Byte) (pairEn home : Bool) (unit : BitVec 4) (st : Byte) (s : State) :
    Host.Outcome State Fault Refusal :=
  .next <| s.crookMsg hd fun s =>
    let s := s.set pPAIR R.PAIR_STAT_PEER_UNIT unit.toNat
    let ok := pairEn && home != s.straps.home && unit != s.straps.unitId && ver == 1
    if s.pairState ≠ 2 then s
    else if !ok then s.err pPAIR 0x70 2 0
    else if s.straps.home && st != 7 then s.enterClaim
    else s.setPairState 3

/-- The reference sends JOIN with T_s 50.00 µs ahead (R234; log 23). -/
def State.joinSend (s : State) : State :=
  let ts := (s.cNs + 50000) % 2 ^ 64
  (s.crookCommand 0x10 (leBytes 8 ts)).updPair fun p => { p with joinTs := some ts, joiner := false, latched := false, answered := 0 }
/-- A LINE page enabled later on the reference is joined in the same way; while the partner still joins, it waits for the end of that
join, and with Crook down for Crook (R234 step 4). -/
def State.joinLater (s : State) : State :=
  if s.crookUp && s.pairState == 7 && s.pair.joinMore && 4 ≤ s.peerState && s.peerState ≤ 7 && s.pair.joinTs.isNone then s.joinSend
  else s
/-- A LINE page has been enabled here: on the reference it is to be joined. Of two units in CLAIM the one that was joined is not it (R234
step 4). -/
def State.joinNote (s : State) : State :=
  if s.pairOn && s.pairState == 7 && !(s.peerState == 7 && s.pair.joiner) then
    (s.updPair fun p => { p with joinMore := true }).joinLater
  else s
/-- STATE (R230, R231, R234, R244). -/
def execState (hd : CrookHdr) (st _level : Byte) (ack : W32) (lines : List W32) (_cause : W32) (s : State) :
    Host.Outcome State Fault Refusal :=
  .next <| s.crookMsg hd fun s =>
    let s := s.updPair fun p => { p with
      peerLines := lines.map (·.toNat)
      cmds := p.cmds.filter fun c => decide (0 < diff32 c.mseq ack.toNat)
      answered := if st == 3 && s.peerState == 3 then p.answered else 0
      peerBars := if st.toNat < 3 || (st == 3 && s.peerState != 3) then 0 else p.peerBars }
    let s := s.set pPAIR R.PAIR_STAT_PEER_STATE st.toNat
    if s.straps.home && 4 ≤ s.pairState && s.pairState ≤ 6 && st != 7 then s.enterClaim else s.joinLater

/-! ### Joining (R233 to R235) -/

/-- TIME: a request is answered; a reply gives PAIR_TOFS and PAIR_DELAY (R233). -/
def execTime (hd : CrookHdr) (reply : Bool) (t1 t2 t3 : W64) (s : State) : Host.Outcome State Fault Refusal :=
  .next <| s.crookMsg hd fun s =>
    if !reply then
      let s := s.crookSend 0x03 ([1] ++ zeros 7 ++ leBytes 8 t1.toNat ++ leBytes 8 s.cNs ++ leBytes 8 s.cNs)
      if s.pairState = 7 ∧ s.peerState = 3 ∧ s.pair.joinTs.isNone = true then
        let s := s.updPair fun p => { p with answered := p.answered + 1 }
        if s.pair.answered < 8 then s else s.joinSend
      else s
    else
      let ofs := Int.fdiv (diff64 t2.toNat t1.toNat + diff64 t3.toNat s.cNs) 2
      let dly := Int.fdiv (diff64 s.cNs t1.toNat - diff64 t3.toNat t2.toNat) 2
      let s := (s.set64 pPAIR R.PAIR_TOFS_LO R.PAIR_TOFS_HI (uns 64 ofs)).set pPAIR R.PAIR_DELAY (uns 16 dly)
      if s.pairState = 3 then s.updPair fun p => { p with tofs := ((ofs, dly) :: p.tofs).take 8 } else s
/-- Eight consecutive exchanges whose delays agree within 2 ticks, 12 whole ns (R234 step 1). -/
def State.tofsAgreed (s : State) : Bool :=
  let d := s.pair.tofs.map (·.2)
  d.length == 8 && d.all fun x => d.all fun y => x - y ≤ 12
/-- The tap grid goes over to the reference's, whose own phase no message carries: a free value (R19, R234 step 2; log 35). -/
def State.rephase (s : State) : State :=
  let ofs := sgn 64 (s.get64 pPAIR R.PAIR_TOFS_LO R.PAIR_TOFS_HI)
  let k := Int.fdiv (10 * ofs + 32) 64
  ({ s with phi := (((Config.free 35 s.fresh % 3 : Nat) : Int) - k).emod 3 |>.toNat }).tickFresh
/-- JOIN: the joiner takes T_s, in JOIN once its exchanges agree, later for LINE pages enabled since (R234). -/
def execJoin (hd : CrookHdr) (ts : W64) (s : State) : Host.Outcome State Fault Refusal :=
  .next <| s.crookMsg hd fun s =>
    if s.pairState = 3 then
      if s.pair.joinTs.isSome || s.pair.joined != 0 || s.pair.joinFailed.isSome then s
      else if !s.tofsAgreed then s.joinFail
      else s.rephase.updPair fun p => { p with joinTs := some ts.toNat, joiner := true, latched := false }
    else if 4 ≤ s.pairState ∧ (s.pair.joinTs.isNone = true ∨ s.pair.joiner = true) then
      s.updPair fun p => { p with joinTs := some ts.toNat, joiner := true, latched := false }
    else s

/-- One bar's part of JOINDATA as the reference latches it (R230, R234). -/
def State.joinBar (s : State) (b : Nat) : List Byte :=
  leBytes 4 (b2n (s.lineRuns b)) ++ leBytes 4 (s.get (pLINE b) R.LINE_SEQ + 1) ++ leBytes 4 (s.ap (pLINE b) R.LINE_PITCH) ++
    leBytes 4 (s.get (pLINE b) R.LINE_GAIN) ++ leBytes 8 (uns 64 (s.lineY b)) ++ leBytes 8 (uns 64 (s.lineNext b))
/-- JOIN_LATCH: T_s has come on the reference's time scale: the reference latches and sends JOINDATA, the joiner begins to
count steps (R234 step 3). -/
def execJoinLatch (s : State) : Host.Outcome State Fault Refusal :=
  .next <|
    match s.pair.joinTs with
    | none => s
    | some ts =>
      if !s.crookUp || s.pair.latched then s
      else if !s.pair.joiner then
        if diff64 s.cNs ts < 0 then s
        else (s.crookCommand 0x11 (leBytes 8 ts ++ (List.range 8).flatMap s.joinBar)).updPair fun p =>
          { p with joinTs := none, joinMore := false }
      else if sgn 64 (uns 64 ((s.cNs : Int) + sgn 64 (s.get64 pPAIR R.PAIR_TOFS_LO R.PAIR_TOFS_HI) - ts)) < 0 then s
      else
        (s.updPair fun p => { p with latched := true }).each (List.range 12) fun t n =>
          t.updPos n fun x => { x with joinSteps := 0 }

/-- The joiner enables LINE b with the reference's SRC and FAILOVER and the JOINDATA values, Y advanced by the steps counted since T_s. A
bar that still runs from an earlier join is joined as it stands: its next 64 lines decide (R234 steps 4 and 5; log 36). -/
def State.joinEnable (s : State) (b : Nat) (x : JoinBar) : State :=
  let p := pLINE b
  if !x.run || s.fenced p || s.resetting p then s
  else if s.lineRuns b then s.updPair fun q => { q with joined := setBit q.joined b true, joinOk := q.joinOk.del b }
  else
    let src := if x.src = 3 then 0 else x.src.toNat
    let g := x.g.toInt
    let k : Int := if src = 2 then 2 ^ 24 else 2 ^ 24 + g
    let y := sgn 64 (uns 64 (x.y.toInt + (s.posAt (srcChannel b src)).joinSteps * k))
    let s := (s.set p R.PG_CTRL_EN 1).updPair fun q => { q with joined := setBit q.joined b true, joinOk := q.joinOk.del b }
    s.lineStart b src x.failover x.next.toNat x.nextPos.toInt g (some y)
/-- The bars that the reference runs, as a mask. -/
def runMask (bars : List JoinBar) : Nat := (bars.zipIdx.map fun e => if e.1.run then 2 ^ e.2 else 0).sum
/-- JOINDATA (R234 steps 3 to 5). With no bar joined the join is complete at once. -/
def execJoinData (hd : CrookHdr) (ts : W64) (bars : List JoinBar) (s : State) : Host.Outcome State Fault Refusal :=
  .next <| s.crookMsg hd fun s =>
    if s.pair.joinTs ≠ some ts.toNat ∨ s.pair.joiner = false ∨ s.pair.latched = false ∨ s.pairState < 3 then s
    else
      let s := s.updPair fun p => { p with joinTs := none, latched := false, peerBars := runMask bars }
      let s := bars.zipIdx.foldl (fun t x => t.joinEnable x.2 x.1) s
      if s.pairState = 3 ∧ s.pair.joined = 0 then
        (s.updPair fun p => { p with runs := [] }).setPairState (if s.causeMask = 0 then 5 else 4)
      else s
/-- JOIN_RETRY: 1.000 ms after a join that failed, the joiner begins again (R234 step 5). -/
def execJoinRetry (s : State) : Host.Outcome State Fault Refusal :=
  .next <|
    match s.pair.joinFailed with
    | none => s
    | some t => if s.tick < t + msTicks 1 then s else s.updPair fun p => { p with joinFailed := none, tofs := [] }

/-! ### Digests and give-up (R240 to R244) -/

/-- DIGEST (R230, R241). -/
def execDigest (hd : CrookHdr) (b : Bar) (ok undr segblk : Bool) (line tbnd wsrc : W32) (digs : List W32) (s : State) :
    Host.Outcome State Fault Refusal :=
  .next <| s.crookMsg hd fun s =>
    (s.updPair fun p => { p with peerBars := setBit p.peerBars b true, peer := p.peer ++ [{
      bar := b, line := line.toNat, ok := ok, undr := undr, segblk := segblk, tBnd := tbnd.toNat, wsrc := wsrc.toNat,
      digs := digs.map (·.toNat), at_ := s.tick }] }).compareDigests b line.toNat
/-- Bar b does not run on the partner any more: its STATE shows no line of the bar as late as one that this unit handed over a PAIR_TMO ago
(R230, R241; log 118). -/
def State.peerStops (s : State) (b line : Nat) : State :=
  if s.crookUp && decide (diff32 (s.peerLine b) line < 0) then s.updPair fun p => { p with peerBars := setBit p.peerBars b false } else s
/-- DIGEST_TIMEOUT: the counterpart of a DIGEST has not come within PAIR_TMO (R241). A received one whose own never came is
dropped. -/
def execDigestTimeout (b : Bar) (line : W32) (s : State) : Host.Outcome State Fault Refusal :=
  let f := fun (d : DigSt) => d.bar == b.val && d.line == line.toNat && d.at_ + s.pairTmo ≤ s.tick
  let t := s.updPair fun p => { p with own := p.own.filter (!f ·), peer := p.peer.filter (!f ·) }
  .next <|
    if s.pair.own.any f then
      (((t.peerStops b line.toNat).incSat pPAIR R.PAIR_MISS_CNT).err pPAIR 0x71 7 line.toNat b).runReset b
    else t
/-- BREATH: the partner's target (R219). -/
def execBreathMessage (hd : CrookHdr) (target : W32) (s : State) : Host.Outcome State Fault Refusal :=
  .next <| s.crookMsg hd fun s =>
    if s.fenced pBREATH || s.resetting pBREATH then s
    else
      let t := (s.set pBREATH R.BREATH_PEER_CEIL (min 120000 target.toNat)).set pBREATH R.BREATH_PEER_VALID 1
      { t with breath := { t.breath with peerUntil := s.tick + 4 * max 1563 (s.ap pBREATH R.BREATH_PER) } }
/-- GIVEUP: the home unit takes over, or cancels its own give-up that has not applied (R244). -/
def execGiveupMessage (hd : CrookHdr) (_cause : Byte) (_lines : List W32) (s : State) : Host.Outcome State Fault Refusal :=
  .next <| s.crookMsg hd fun s =>
    if !s.straps.home then s
    else if s.pairState = 7 then s.updPair fun p => { p with giving := 0 }
    else if 4 ≤ s.pairState ∧ s.pairState ≤ 6 then s.enterClaim
    else s

/-! ### Commands of the home unit (R236 to R239) -/

/-- A line is not ahead of the receiver's line of bar b (R237). -/
def State.lineLate (s : State) (b line : Nat) : Bool := decide (diff32 line (s.get (pLINE b) R.LINE_SEQ) ≤ 0)
/-- PROF: the home unit's selection (R214, R236). A slot whose CHECK differs from the home unit's is refused (log 37). -/
def execProfMessage (hd : CrookHdr) (slot : Byte) (armLine check : W32) (s : State) : Host.Outcome State Fault Refusal :=
  .next <| s.crookFollow hd fun s =>
    let p := slot.toNat
    match (List.range 8).find? fun b => s.lineRuns b && s.lineLate b armLine.toNat with
    | some b => s.lateCommand b armLine.toNat
    | none =>
      if 8 ≤ p || !s.prof.loaded || !s.slotUsable p || leAt (s.prof.images.getD p []) 656 4 != check.toNat then s.profRefuse
      else s.profTake p armLine.toNat
/-- SWAP: performed as if written to PIPE_SWAP here (R236, R237). -/
def execSwapMessage (hd : CrookHdr) (b : Bar) (tables whn : Byte) (line lineAtGo : W32) (s : State) :
    Host.Outcome State Fault Refusal :=
  let i := b.val
  let l := line.toNat
  .next <| s.crookFollow hd fun s =>
    let late := if whn.toNat = 2 then (match s.pair.jobLine.find? fun e => e.1 == i with
        | some e => decide (0 < diff32 e.2 lineAtGo.toNat)
        | none => false) else s.lineLate i l
    if late then s.lateCommand i l
    else if s.blockedPage (pPIPE i) then s
    else
      let s := (((s.set (pPIPE i) R.PIPE_SWAP_LINE l).set (pPIPE i) R.PIPE_SWAP_WHEN whn.toNat).set (pPIPE i) R.PIPE_SWAP_TABLES
        tables.toNat).set (pPIPE i) R.PIPE_TSTAT_LATE 0
      if tables.toNat % 8 = 0 then (s.set (pPIPE i) R.PIPE_TSTAT_ARMED 0).updPipe i fun x => { x with armed := none }
      else s.armSwap i { whn := whn.toNat, tables := tables.toNat % 8, line := l }
/-- ADJ: performed as if written to LINE_ADJ_CTRL here (R236, R237). -/
def execAdj (hd : CrookHdr) (b : Bar) (line adj : W32) (s : State) : Host.Outcome State Fault Refusal :=
  let p := pLINE b
  .next <| s.crookFollow hd fun s =>
    if s.lineLate b line.toNat then s.lateCommand b line.toNat
    else if s.blockedPage p then s
    else
      (((((s.set p R.LINE_ADJ adj.toNat).set p R.LINE_ADJ_LINE line.toNat).set p R.LINE_ADJ_CTRL_WHEN 1).set p R.LINE_ADJ_CTRL_LATE 0).set p
        R.LINE_ADJ_CTRL_ARMED 1).updLine b fun l => { l with adj := some (adj.toInt, 1, line.toNat) }
/-- GAIN (R236, R237). -/
def execGain (hd : CrookHdr) (b : Bar) (line g : W32) (s : State) : Host.Outcome State Fault Refusal :=
  .next <| s.crookFollow hd fun s =>
    if s.lineLate b line.toNat then s.lateCommand b line.toNat
    else s.updLine b fun l => { l with gainAt := l.gainAt ++ [(line.toNat, g.toInt)] }
/-- CHAIN (R238). -/
def execChain (hd : CrookHdr) (b : Bar) (profEn : Bool) (prof : BitVec 3) (first jobId lines : W32) (s : State) :
    Host.Outcome State Fault Refusal :=
  .next <| s.crookMsg hd fun s =>
    let f := [b2n profEn + 2 * prof.toNat, first.toNat, jobId.toNat, lines.toNat]
    (s.updPair fun p => { p with chainPeer := p.chainPeer.put b f }).chainCompare b
/-- HOLD: the home unit's hold state from a line on; a late one applies from the next boundary (R239). -/
def execHold (hd : CrookHdr) (b : Bar) (held : Bool) (line : W32) (s : State) : Host.Outcome State Fault Refusal :=
  .next <| s.crookFollow hd fun s =>
    let late := s.lineLate b line.toNat
    let l := if late then (s.get (pLINE b) R.LINE_SEQ + 1) % 2 ^ 32 else line.toNat
    let s := s.updPair fun p => { p with holdAt := p.holdAt ++ [(l, b.val, held)] }
    if late then s.lateCommand b line.toNat else s

/-! ### PAIR_CMD and the timers (R245 to R247) -/

/-- What a write of PAIR_CMD does (R246), bit by bit from the lowest. -/
def pairCmdAct (v : Nat) (s : State) : State :=
  if !s.pairOn then s
  else
    let s := if bit v 0 && (s.pairState = 2 || (4 ≤ s.pairState && s.pairState ≤ 6)) then s.enterClaim else s
    let s := if bit v 1 then (s.updPair fun p => { p with cause0 := true }).pairCause 0 0 0 else s
    if bit v 2 then s.updPair fun p => { p with cause0 := false } else s
/-- PAIR_CMD_GIVEUP: a host write of PAIR_CMD.GIVEUP. -/
def execPairCmdGiveup (s : State) : Host.Outcome State Fault Refusal := .next (s.writeWith pPAIR 0x44 2 (pairCmdAct 2))
/-- PAIR_CMD_RESUME: a host write of PAIR_CMD.RESUME. -/
def execPairCmdResume (s : State) : Host.Outcome State Fault Refusal := .next (s.writeWith pPAIR 0x44 4 (pairCmdAct 4))
/-- RECLAIM: a host write of PAIR_CMD.RECLAIM. -/
def execReclaim (s : State) : Host.Outcome State Fault Refusal := .next (s.writeWith pPAIR 0x44 1 (pairCmdAct 1))
/-- HOLD_OFF_EXPIRY: the hold-off has passed with an unbroken run: the unit claims again (R245, R247). -/
def execHoldOffExpiry (s : State) : Host.Outcome State Fault Refusal :=
  .next (if s.pairOn && s.pairState == 6 && s.pair.holdUntil ≤ s.tick then s.enterClaim else s)
/-- SOLO_TIMEOUT: PAIR_WAIT has passed in WAIT with SOLO = 1 (R245). -/
def execSoloTimeout (s : State) : Host.Outcome State Fault Refusal :=
  .next <|
    if s.pairOn && s.pairState == 2 && s.flag pPAIR R.PAIR_CTRL_SOLO
        && s.pair.waitSince + msTicks (s.get pPAIR R.PAIR_WAIT) ≤ s.tick then s.enterClaim
    else s

end Sys2Proof.Machine
end

