-- ==== Sys2Proof/Machine/ChantOps.lean ====
section
/-! DEFINITION. Chanter behind its commands: binary64 arithmetic (R281), the band model (R276, R277), the partial, zone and column
sums (R278, R279, R297), windows (R280), the solve (R281, R293) and the start of a trim cycle (R285). -/

namespace Sys2Proof.Machine

/-! ### Binary64 with round to nearest even (R281; log 38: the exponent range is not bounded) -/

/-- A number of IEEE 754: m × 2^e, an infinity with its sign, or no number. No −0 arises in R281, so one zero serves. -/
inductive Fl where
  | fin (m e : Int)
  | inf (neg : Bool)
  | nan
  deriving DecidableEq, Repr

/-- Round m × 2^e to 53 significant bits, ties to even. -/
def flRound (m e : Int) : Fl :=
  let n := m.natAbs
  if n < 2 ^ 53 then .fin m e
  else
    let k := Nat.log2 n - 52
    let q := n / 2 ^ k
    let r := n % 2 ^ k
    let up := 2 ^ k < 2 * r || (2 * r == 2 ^ k && q % 2 == 1)
    let v : Int := if up then (q : Int) + 1 else q
    .fin (if m < 0 then -v else v) (e + k)
/-- An integer as a binary64 number. -/
def flOf (i : Int) : Fl := flRound i 0
/-- Two whole numbers at the lower of two exponents. -/
def flAlign (m e n f : Int) : Int × Int × Int :=
  let g := min e f
  (m * 2 ^ (e - g).toNat, n * 2 ^ (f - g).toNat, g)
/-- The number with its sign turned. -/
def flNeg : Fl → Fl
  | .fin m e => .fin (-m) e
  | .inf s => .inf (!s)
  | .nan => .nan
def flAdd : Fl → Fl → Fl
  | .fin m e, .fin n f => let x := flAlign m e n f; flRound (x.1 + x.2.1) x.2.2
  | .nan, _ => .nan
  | _, .nan => .nan
  | .inf s, .inf t => if s = t then .inf s else .nan
  | .inf s, .fin _ _ => .inf s
  | .fin _ _, .inf t => .inf t
def flSub (a b : Fl) : Fl := flAdd a (flNeg b)
/-- The sign of a number. -/
def Fl.neg : Fl → Bool
  | .fin m _ => m < 0
  | .inf s => s
  | .nan => false
def flMul : Fl → Fl → Fl
  | .fin m e, .fin n f => flRound (m * n) (e + f)
  | .nan, _ => .nan
  | _, .nan => .nan
  | .fin m e, .inf t => if m = 0 then .nan else .inf ((Fl.fin m e).neg != t)
  | .inf s, .fin n f => if n = 0 then .nan else .inf (s != (Fl.fin n f).neg)
  | .inf s, .inf t => .inf (s != t)
/-- Less than, of two numbers. -/
def flLt : Fl → Fl → Bool
  | .fin m e, .fin n f => let x := flAlign m e n f; decide (x.1 < x.2.1)
  | .inf s, .inf t => s && !t
  | .inf s, .fin _ _ => s
  | .fin _ _, .inf t => !t
  | _, _ => false
/-- The quotient: enough bits, and one that stands for a remainder; by 0 an infinity, or no number. -/
def flDiv : Fl → Fl → Fl
  | .fin m e, .fin n f =>
    if n = 0 then (if m = 0 then .nan else .inf (m < 0))
    else
      let k := Nat.log2 n.natAbs + 60
      let d := m.natAbs * 2 ^ k
      let q : Int := 2 * (d / n.natAbs : Nat) + (if d % n.natAbs = 0 then 0 else 1)
      flRound (if (m < 0) != (n < 0) then -q else q) (e - f - k - 1)
  | .inf s, .fin n f => .inf (s != (Fl.fin n f).neg)
  | .fin _ _, .inf _ => .fin 0 0
  | _, _ => .nan
/-- Clamp to lo and hi the nearest integer, halves away from zero; none for no number. -/
def flClamp (lo hi : Int) : Fl → Option Int
  | .fin m e =>
    if 0 ≤ e then some (clampI lo hi (m * 2 ^ e.toNat))
    else
      let d := 2 ^ (-e).toNat
      let v : Int := ((2 * m.natAbs + d) / (2 * d) : Nat)
      some (clampI lo hi (if m < 0 then -v else v))
  | .inf s => some (if s then lo else hi)
  | .nan => none

/-! ### Elimination (R281) -/

/-- An 8 × 8 matrix by rows, and a vector of eight. -/
abbrev Mat := Array Fl
def Mat.at (a : Mat) (i j : Nat) : Fl := a.getD (8 * i + j) (.fin 0 0)
def Mat.put (a : Mat) (i j : Nat) (v : Fl) : Mat := a.setIfInBounds (8 * i + j) v

/-- Eliminate column b from the rows of act after it, unless the pivot is too small. -/
def elimOne (piv : Nat) (g : Mat) (act : List Nat) (a : Mat) (r : Mat) (b : Nat) : Option (Mat × Mat) :=
  if flLt (a.at b b) (flMul (.fin piv (-8)) (g.at b b)) then none
  else some <| (act.filter (b < ·)).foldl (fun (x : Mat × Mat) c =>
    let m := flDiv (x.1.at c b) (x.1.at b b)
    ((act.filter (b ≤ ·)).foldl (fun (a : Mat) d => a.put c d (flSub (a.at c d) (flMul m (a.at b d)))) x.1,
      x.2.put 0 c (flSub (x.2.at 0 c) (flMul m (x.2.at 0 b))))) (a, r)
/-- Eliminate the colours of act in ascending order: the colour to hold, or the triangle. -/
def elimAll (piv : Nat) (g : Mat) (act : List Nat) : List Nat → Mat → Mat → Nat ⊕ (Mat × Mat)
  | [], a, r => .inr (a, r)
  | b :: l, a, r => match elimOne piv g act a r b with
    | none => .inl b
    | some (a, r) => elimAll piv g act l a r
/-- The colours that can be estimated, and their gains. A held colour stands at the gain 1 where `hold` says so (R281). -/
def solveSystem (piv : Nat) (hold : Bool) (m : List Nat) (g : Mat) (h : Mat) : Nat → List Nat → List Nat × List (Nat × Fl)
  | 0, act => (act, [])
  | f + 1, act =>
    let r := if !hold then h else (m.filter (!act.contains ·)).foldl (fun r b => act.foldl (fun (r : Mat) c =>
      r.put 0 c (flSub (r.at 0 c) (g.at c b))) r) h
    match elimAll piv g act act g r with
    | .inl b => solveSystem piv hold m g h f (act.filter (· != b))
    | .inr (a, r) =>
      (act, act.reverse.foldl (fun (x : List (Nat × Fl)) b =>
        let sum := x.foldl (fun t e => flAdd t (flMul (a.at b e.1) e.2)) (.fin 0 0)
        (b, flDiv (flSub (r.at 0 b) sum) (a.at b b)) :: x) [])
/-- The gain of number b. -/
def gainOf (g : List (Nat × Fl)) (b : Nat) : Fl := ((g.find? fun e => e.1 == b).map (·.2)).getD (.fin 0 0)

/-! ### The band model (R276, R277) -/

/-- Slot i of band j: its valid bit and its bar. -/
def State.bmapSlot (s : State) (j i : Nat) : Bool × Nat :=
  let v := match i with | 0 => R.CHANT_BMAP_V0 | 1 => R.CHANT_BMAP_V1 | _ => R.CHANT_BMAP_V2
  let b := match i with | 0 => R.CHANT_BMAP_BAR0 | 1 => R.CHANT_BMAP_BAR1 | _ => R.CHANT_BMAP_BAR2
  (s.flag pCHANT (v.nth 4 j), s.get pCHANT (b.nth 4 j))
/-- The valid slots of band j, as (slot, bar): one that names a bar that a lower slot names is not valid. -/
def State.bandSlots (s : State) (j : Nat) : List (Nat × Nat) :=
  ((List.range 3).filter fun i =>
    (s.bmapSlot j i).1 && (List.range i).all fun k => (s.bmapSlot j k).2 != (s.bmapSlot j i).2).map fun i => (i, (s.bmapSlot j i).2)
/-- The model set M, as a list of bars. -/
def State.modelSet (s : State) : List Nat :=
  (List.range 8).filter fun b => (List.range 6).any fun j => (s.bandSlots j).any fun e => e.2 == b
/-- Place of P_j[i][i'] among the nine words of a band, i ≤ i'. -/
def pWord (i i' : Nat) : Nat := if i = 0 then i' else if i = 1 then 2 + i' else 5
/-- Word number of band j's word x. -/
def bandWord (j x : Nat) : Nat := 1 + 9 * j + x

/-- Read line-store bytes for Chanter; an uncorrectable one makes CHANT fence at its next flush (R297). -/
def State.chantRead (s : State) (a n : Nat) : State × List Byte :=
  let r := s.lsRead a n 3
  let bad := r.2.zipIdx.find? fun x => x.1.isNone
  let t := match bad with
    | some x => { r.1 with chant := { r.1.chant with fenceNext := r.1.chant.fenceNext.or (some (a + x.2)) } }
    | none => r.1
  (t, r.2.map (·.getD 0))
/-- Words of k bytes. -/
def wordsK (k : Nat) (l : List Byte) (n : Nat) : List Nat := (List.range n).map fun i => leAt l (k * i) k

/-! ### Placement (R297) -/

def partAddr (k : Nat) : Nat := 0x2330000 + 220 * k
def zoneAddr (bank z : Nat) : Nat := 0x3700000 + 0x144000 * bank + 440 * z
def slopeAddr (k j i : Nat) : Nat := 0x3A00000 + 2 * (18 * k + 3 * j + i)
def State.colAddr (s : State) (bank k : Nat) : Nat :=
  s.get64 pCHANT R.CHANT_CBASE_LO R.CHANT_CBASE_HI + 0x1600000 * bank + 440 * k

/-! ### Partial sums (R277, R278) -/

/-- The partial sums start at 0: Chanter writes them before it reads them (R297). -/
def State.partsReady (s : State) : State :=
  if s.chant.parts then s
  else { s.lsWrite (partAddr 0) (zeros (220 * 48192)) with chant := { s.chant with parts := true } }
/-- u of slot i of band j for column k at coverage c (R277). -/
def State.slotU (s : State) (k j i c : Nat) : State × Nat :=
  if s.chant.capturing then (s, 8 * c)
  else
    let r := s.chantRead (slopeAddr k j i) 2
    (r.1, (leNat r.2 * c + 4096) / 8192)
/-- Add one used pair of column k: its absorbances and the coverage of each bar (R277, R278). -/
def State.pairAdd (s : State) (k : Nat) (absb : List Nat) (cov : Nat → Nat) : State :=
  let a0 : Int := s.get pCHANT R.CHANT_A0
  let r := s.chantRead (partAddr k) 220
  let w := (wordsK 4 r.2 55).toArray
  let x := (List.range absb.length).foldl (fun (x : State × Array Nat) j =>
    let sl := x.1.bandSlots j
    let y := ((absb.getD j 0 : Int) - a0 + 16) >>> 5
    let us := sl.foldl (fun (z : State × List (Nat × Nat)) e =>
      let q := z.1.slotU k j e.1 (cov e.2)
      (q.1, z.2 ++ [(e.1, q.2)])) (x.1, [])
    let add := fun (w : Array Nat) (i : Nat) (v : Int) =>
      w.setIfInBounds (bandWord j i) (uns 32 ((w.getD (bandWord j i) 0 : Int) + v))
    let w := us.2.foldl (fun w e => us.2.foldl (fun w f =>
      if e.1 ≤ f.1 then add w (pWord e.1 f.1) (e.2 * f.2 : Nat) else w) (add w (6 + e.1) (e.2 * y))) x.2
    (us.1, w)) (r.1, w)
  let w := x.2.setIfInBounds 0 ((x.2.getD 0 0 + 1) % 2 ^ 32)
  x.1.lsWrite (partAddr k) (w.toList.flatMap (leBytes 4 ·))

/-! ### Sums (R279) -/

/-- A partial sum as the 64-bit sums take it: P unsigned, N and Q signed. -/
def extendSum (i v : Nat) : Nat := if i = 0 ∨ 6 ≤ (i - 1) % 9 then uns 64 (sgn 32 v) else v
/-- Add 55 partial sums into the 440 bytes of 64-bit sums. -/
def addSums (old : List Byte) (w : List Nat) : List Byte :=
  (w.zipIdx.map fun x => (leAt old (8 * x.2) 8 + extendSum x.2 x.1) % 2 ^ 64).flatMap (leBytes 8 ·)

/-- The state of a tier, and its change. -/
def State.tier (s : State) : Tier → TierSt
  | .zone => s.chant.zone
  | .column => s.chant.col
  | .capture => s.chant.cap
def State.updTier (s : State) (t : Tier) (g : TierSt → TierSt) : State :=
  match t with
  | .zone => { s with chant := { s.chant with zone := g s.chant.zone } }
  | .column => { s with chant := { s.chant with col := g s.chant.col } }
  | .capture => { s with chant := { s.chant with cap := g s.chant.cap } }
/-- The tier takes sums: enabled, and not while a capture runs; the capture tier while it still wants a window (R280, R293). -/
def State.tierOn (s : State) : Tier → Bool
  | .zone => s.flag pCHANT R.CHANT_CTRL_ZONE_EN && !s.chant.capturing
  | .column => s.flag pCHANT R.CHANT_CTRL_COL_EN && !s.chant.capturing
  | .capture => s.chant.capturing && s.chant.cap.win < 2
/-- Chanter's flushes and solves go on: it is enabled and not in reset. A fence stops its trim cycles alone (R297, R380). -/
def State.chantRuns (s : State) : Bool := s.enabled pCHANT && !s.resetting pCHANT
/-- What such work does; a fenced page keeps its registers (R48). -/
def State.chantWork (s : State) (g : State → State) : State := s.pageWork pCHANT g
/-- DRAM serves the column sums of a bank, at level 5 (R29, R280, R301, R322). -/
def State.colsFree (s : State) (bank : Nat) : Bool := s.dramServed 5 (s.colAddr bank 0) (440 * 48192) 0x4B
/-- Λ of a tier's window in lines (R280). -/
def State.tierLen (s : State) : Tier → Nat
  | .zone => 2 ^ 20
  | .column => 2 ^ 24
  | .capture => 2 ^ (4 + max 14 (min 20 (s.get pCAL R.CAL_WIN)))
/-- Clear a bank of a tier's sums. -/
def State.bankClear (s : State) (t : Tier) (bank : Nat) : State :=
  let s := match t with
    | .zone => s.lsWrite (zoneAddr bank 0) (zeros (440 * 3012))
    | _ => s.dramWrite (s.colAddr bank 0) (zeros (440 * 48192)) 0x4B
  s.updTier t fun x => { x with clean := x.clean ||| 2 ^ bank }
/-- A window opens at ℓ_c (R280); the page's committed values apply when a zone window does (R34). -/
def State.tierOpen (s : State) (t : Tier) (lc : Nat) : State :=
  let s := match t with
    | .zone => (s.applyAt pCHANT State.applyPlain).set pCHANT R.CHANT_ZOPEN lc
    | .column => s.set pCHANT R.CHANT_COPEN lc
    | .capture => s
  let x := s.tier t
  let s := if bit x.clean x.bank then s else s.bankClear t x.bank
  s.updTier t fun x => { x with open_ := true, wOpen := lc, gen := s.get pCHANT R.PG_GEN_APPL_GEN, closeDue := false }
/-- The window closes: the tier goes over to its other bank and its solve starts (R280). -/
def State.tierClose (s : State) (t : Tier) : State :=
  let x := s.tier t
  let s := s.updTier t fun y => { y with
    open_ := false, closeDue := false, bank := 1 - x.bank, win := x.win + 1
    solving := some (x.bank, x.wOpen, x.wLast, x.win + 1, x.gen) }
  match t with
  | .zone => s.incWrap pCHANT R.CHANT_ZWIN
  | .column => s.incWrap pCHANT R.CHANT_CWIN
  | .capture => s
/-- Close the window if it is long enough, or when a close has waited for a solve (R280). -/
def State.tierJudge (s : State) (t : Tier) (last : Option Nat) : State :=
  let x := s.tier t
  let long := match last with
    | some l => decide ((s.tierLen t : Int) ≤ diff32 (l + 16) x.wOpen)
    | none => false
  if !x.open_ || !(long || x.closeDue) then s
  else if x.solving.isSome then s.updTier t fun x => { x with closeDue := true }
  else s.tierClose t

/-! ### Camera columns (R265, R278) -/

/-- Camera column of pixel i of port c, if there is one. -/
def State.camColumn (s : State) (c i : Nat) : Option Nat :=
  let k0 := s.get (pCAM c) R.CAM_COLS_K0
  let k : Int := if s.flag (pCAM c) R.CAM_COLS_REV then (k0 : Int) - i else k0 + i
  if 0 ≤ k ∧ k ≤ 48191 then some k.toNat else none
/-- Pixels per line of port c (R275). -/
def State.camPix (s : State) (c : Nat) : Nat := max 1 (min 24096 (s.get (pCAM c) R.CAM_GEOM))
/-- Bands of port c (R275). -/
def State.camBands (s : State) (c : Nat) : Nat :=
  let n := s.get (pCAM c) R.CAM_BUS_NB
  if n = 0 ∨ 7 ≤ n then 6 else n
/-- The pixels of port c reach column k. -/
def State.camReaches (s : State) (c k : Nat) : Bool :=
  let k0 := s.get (pCAM c) R.CAM_COLS_K0
  if s.flag (pCAM c) R.CAM_COLS_REV then k ≤ k0 && k0 < k + s.camPix c else k0 ≤ k && k < k0 + s.camPix c
/-- Column k belongs to port c. -/
def State.colOf (s : State) (c k : Nat) : Bool := if c = 0 then s.camReaches 0 k else !s.camReaches 0 k

/-! ### The flush (R279, R280) -/

/-- Take the partial sums of column k and set them to 0; sums of 0 are left as they stand. -/
def State.takePart (s : State) (k : Nat) : State × List Nat :=
  let r := s.chantRead (partAddr k) 220
  if r.2.all (· == 0) then (r.1, List.replicate 55 0)
  else (r.1.lsWrite (partAddr k) (zeros 220), wordsK 4 r.2 55)
/-- Add 55 partial sums to the zone's, or the column's, sums of a tier. -/
def State.tierAdd (s : State) (t : Tier) (k : Nat) (w : List Nat) : State :=
  let bank := (s.tier t).bank
  match t with
  | .zone =>
    let a := zoneAddr bank (k / 16)
    let r := s.chantRead a 440
    r.1.lsWrite a (addSums r.2 w)
  | _ =>
    let a := s.colAddr bank k
    let r := s.dramRead a 440 4 0x4B
    let t := if r.2.2 then r.1 else { r.1 with chant := { r.1.chant with fenceNext := r.1.chant.fenceNext.or (some a) } }
    t.dramWrite a (addSums r.2.1 w) 0x4B
/-- Flush the columns of port c: into the sums of the tiers that are open, or away. -/
def State.flushColumns (s : State) (c : Nat) (tiers : List Tier) : State :=
  let s := (s.each ((List.range 48192).filter (s.colOf c)) fun t k =>
    let r := t.takePart k
    if r.2.all (· == 0) then r.1 else tiers.foldl (fun u x => u.tierAdd x k r.2) r.1)
  let s := { s with chant := { s.chant with partsIn := setBit s.chant.partsIn c false } }
  tiers.foldl (fun u x => u.updTier x fun y => { y with clean := setBit y.clean y.bank false }) s
/-- The expected generation of port c. -/
def chantGen (c : Nat) : Fld := if c = 0 then R.CHANT_CAMGEN_GEN0 else R.CHANT_CAMGEN_GEN1
/-- Pairs of port c's columns have come since their last flush. -/
def State.flushHas (s : State) (c : Nat) : Bool := bit s.chant.partsIn c
/-- W_open of a window that a frame without a registered line opens, which R280 does not state: a free value (log 124). -/
def State.openLc (s : State) (f : FlushSt) : Nat := f.lcFirst.getD (Config.free 124 s.fresh)
/-- The flush of a good frame of port c: its sums go into the windows, which open and close (R279, R280). -/
def State.flushGood (s : State) (c : Nat) (f : FlushSt) : State :=
  let tiers := [Tier.zone, .column, .capture].filter s.tierOn
  let s := if f.lcFirst.isNone && !s.flushHas c then s
    else (tiers.foldl (fun t x => if (t.tier x).open_ then t else t.tierOpen x (s.openLc f)) s).tickFresh
  let s := s.flushColumns c tiers
  let s := if f.lcFirst.isNone then s else tiers.foldl (fun t x => t.updTier x fun y => { y with wLast := f.lcLast }) s
  tiers.foldl (fun t x => t.tierJudge x (f.lcFirst.map fun _ => f.lcLast)) s
/-- Port c's next flush runs, if one waits. -/
def State.flushNext (s : State) (c : Nat) : State :=
  { s with chant := { s.chant with
      flush := match s.chant.flushQ.find? (·.1 == c) with | some e => s.chant.flush.put c e.2 | none => s.chant.flush.del c
      flushQ := s.chant.flushQ.eraseP (·.1 == c) } }
/-- The sums of a frame of port c move, or go away (R279, R280). -/
def State.flushSums (s : State) (c : Nat) (f : FlushSt) : State :=
  let s := s.partsReady
  if f.short || (s.flag pCHANT R.CHANT_CAMGEN_CHK && f.gen != s.get pCHANT (chantGen c)) then
    let s := (s.flushColumns c []).incSat pCHANT R.CHANT_FRSKIP_CNT
    [Tier.zone, .column, .capture].foldl (fun t x => t.tierJudge x none) s
  else
    let s := if s.chant.capturing && !s.calst.gens.has c then
        { s with calst := { s.calst with gens := s.calst.gens.put c f.gen } }
      else s
    s.flushGood c f
/-- The flush of a frame of port c ends; an uncorrectable byte that Chanter has met fences CHANT with it (R279, R280, R297). -/
def State.flushDo (s : State) (c : Nat) (f : FlushSt) : State :=
  let t := (s.flushNext c).flushSums c f
  match (if s.fenced pCHANT then none else t.chant.fenceNext) with
  | some a => { t with chant := { t.chant with fenceNext := none } }.fence pCHANT 0x11 0 a (a / 2 ^ 32)
  | none => t
/-- A frame of port c closes: Chanter's flush starts, or waits for the one that still runs (R279). -/
def State.flushStart (s : State) (c : Nat) (f : FlushSt) : State :=
  if !s.chantRuns then s
  else if s.chant.flush.has c then { s with chant := { s.chant with flushQ := s.chant.flushQ ++ [(c, f)] } }
  else { s with chant := { s.chant with flush := s.chant.flush.put c f } }

/-! ### The solve (R281, R282, R293) -/

/-- The 64-bit sums of entry n of a tier's bank. -/
def State.sumsOf (s : State) (t : Tier) (bank n : Nat) : State × List Nat :=
  match t with
  | .zone => let r := s.chantRead (zoneAddr bank n) 440; (r.1, wordsK 8 r.2 55)
  | _ =>
    let a := s.colAddr bank n
    let r := s.dramRead a 440 4 0x4B
    let u := if r.2.2 then r.1 else { r.1 with chant := { r.1.chant with fenceNext := r.1.chant.fenceNext.or (some a) } }
    (u, wordsK 8 r.2.1 55)
/-- Word x of band j as a binary64 number: P unsigned, Q signed. -/
def flWord (w : List Nat) (j x : Nat) : Fl :=
  let v := w.getD (bandWord j x) 0
  if x < 6 then flOf v else flOf (sgn 64 v)
/-- The normal system of R281. -/
def State.normalSystem (s : State) (w : List Nat) : Mat × Mat :=
  let z : Mat := Array.replicate 64 (.fin 0 0)
  (List.range 6).foldl (fun (x : Mat × Mat) j =>
    let sl := s.bandSlots j
    (sl.foldl (fun g e => sl.foldl (fun (g : Mat) f =>
      g.put e.2 f.2 (flAdd (g.at e.2 f.2) (flWord w j (pWord (min e.1 f.1) (max e.1 f.1))))) g) x.1,
     sl.foldl (fun (h : Mat) e => h.put 0 e.2 (flAdd (h.at 0 e.2) (flWord w j (6 + e.1)))) x.2)) (z, z)
/-- N of sums. -/
def sumsN (w : List Nat) : Int := sgn 64 (w.getD 0 0)
/-- The gain errors of one zone or column: eight, none where the colour is held or outside M (R281). A gain that is no number has a
free value as its error (log 13). -/
def State.gainErrors (s : State) (w : List Nat) (n : Nat) : List (Option Int) :=
  let m := s.modelSet
  let sys := s.normalSystem w
  let enough := decide ((s.ap pCHANT R.CHANT_SOLVE_NMIN : Int) ≤ sumsN w)
  let act := if enough then m.filter fun b => flLt (.fin 0 0) (sys.1.at b b) else []
  let r := solveSystem (s.ap pCHANT R.CHANT_SOLVE_PIV) true m sys.1 sys.2 9 act
  (List.range 8).map fun b =>
    if !r.1.contains b then none
    else some <| (flClamp (-32767) 32767 (flMul (.fin 4096 0) (flSub (gainOf r.2 b) (.fin 1 0)))).getD
      (clampI (-32767) 32767 (Config.solveDivZero (s.fresh * 65536 + n) b))
/-- The slopes of band j of a column: three, 0 for a held one, a free value for one that is no number (R293; logs 13, 39). -/
def State.bandSlopes (s : State) (w : List Nat) (n j : Nat) : List Nat :=
  let sl := (s.bandSlots j).map (·.1)
  let z : Mat := Array.replicate 64 (.fin 0 0)
  let g := sl.foldl (fun g i => sl.foldl (fun (g : Mat) k => g.put i k (flWord w j (pWord (min i k) (max i k)))) g) z
  let h := sl.foldl (fun (h : Mat) i => h.put 0 i (flWord w j (6 + i))) z
  let enough := decide ((s.ap pCHANT R.CHANT_SOLVE_NMIN : Int) ≤ sumsN w)
  let act := if enough then sl.filter fun i => flLt (.fin 0 0) (g.at i i) else []
  let r := solveSystem (s.ap pCHANT R.CHANT_SOLVE_PIV) false sl g h 4 act
  (List.range 3).map fun i =>
    if !r.1.contains i then 0
    else
      let v := (flClamp 0 65536 (flMul (.fin 65536 0) (gainOf r.2 i))).getD (Config.slopeDivZero (s.fresh * 65536 + n) (3 * j + i))
      if 1 ≤ v ∧ v ≤ 65535 then v.toNat else 0

/-! ### Trim cycles (R285) -/

/-- TRIM and CAL go out from this unit: its CAMC page is enabled, and of two such units it is the home unit (R238; log 117). -/
def State.camSends (s : State) : Bool :=
  s.straps.pairEn && s.enabled pCAMC && (s.straps.home || !(s.pair.peerCam == some s.tick || Config.peerCamc s.fresh))
/-- TRIM or CAL has come from the home unit, whose CAMC page is enabled at this tick (log 117). -/
def State.peerCamSeen (s : State) : State := s.updPair fun p => { p with peerCam := if s.straps.home then none else some s.tick }
/-- The colour loop holds: the camera unit of a pair has given up its claim and not come back to CLAIM (R26). -/
def State.loopHolds (s : State) : Bool := s.straps.pairEn && s.pair.gaveUp

/-- A trim cycle starts: it serves the bars of TRIM_EN, from the tiers that closed since the previous one (R283, R285). -/
def State.cycleStart (s : State) : State :=
  let s := (s.incWrap pCHANT R.CHANT_CYCLE).cause pCHANT 4
  { s with chant := { s.chant with
      cycleDue := false
      bars := s.get pCHANT R.CHANT_CTRL_TRIM_EN
      cycZ := if s.chant.zone.fresh then s.chant.zone.e else []
      cycC := if s.chant.col.fresh then s.chant.col.e else []
      zone := { s.chant.zone with fresh := false }
      col := { s.chant.col with fresh := false } } }
/-- A compare unit paces the cycles. -/
def State.cyclePaced (s : State) : Bool := s.flag pCHANT R.CHANT_CFG_CMP_EN
/-- A cycle that is due starts now when no unit paces it and none is in progress. -/
def State.cycleSettle (s : State) : State :=
  if s.chant.cycleDue && !s.cyclePaced && s.chant.bars == 0 && s.working pCHANT && !s.loopHolds then s.cycleStart else s
/-- The compare unit of CHANT fires (R285). -/
def State.cycleFire (s : State) : State :=
  if s.chant.cycleDue && s.chant.bars == 0 && s.working pCHANT && !s.loopHolds then s.cycleStart else s
/-- Both tiers and the capture tier start afresh (R293, R295). -/
def State.tiersClear (s : State) : State :=
  let f := fun (x : TierSt) => ({ bank := x.bank, win := x.win } : TierSt)
  { s with chant := { s.chant with zone := f s.chant.zone, col := f s.chant.col, cap := f s.chant.cap } }

end Sys2Proof.Machine
end

