-- ==== Sys2Proof/Machine/CalOps.lean ====
section
/-! DEFINITION. Calibration behind its commands: records and their flash banks (R288 to R290), agreement and acceptance (R291 to
R294) and installation (R295, R296). -/

namespace Sys2Proof.Machine

/-! ### Records (R288 to R290) -/

/-- Bytes of the body of a kind (R288); 0 for no kind. -/
def calBody (kind : Nat) : Nat :=
  match kind with
  | 1 | 2 => 578308
  | 3 => 1734944
  | 4 => 512
  | 5 => 260
  | _ => 0
/-- Bytes of a whole record. -/
def calLen (kind : Nat) : Nat := 36 + calBody kind
/-- A record is valid for a kind with the given RUN (R290). -/
def calValid (r : List Byte) (kind run : Nat) : Bool :=
  1 ≤ kind && kind ≤ 5 && byteAt r 1 == kind && byteAt r 0 / 16 == 1 && byteAt r 2 % 4 == run && leAt r 4 4 == calLen kind
    && r.length == calLen kind && leAt r (calLen kind - 4) 4 == crc32 (r.take (calLen kind - 4))
/-- A record of a kind with its body (R289). -/
def calRecord (s : State) (kind num time : Nat) (body : List Byte) : List Byte :=
  let l := [0x10, BitVec.ofNat 8 kind, 0, 0] ++ leBytes 4 (calLen kind) ++ leBytes 4 num ++ zeros 4 ++ leBytes 8 time ++
    [BitVec.ofNat 8 s.straps.unitId.toNat] ++ zeros 7 ++ body
  l ++ leBytes 4 (crc32 l)
/-- CALNUM of a record. -/
def calNum (r : List Byte) : Nat := leAt r 8 4
/-- The body of a record. -/
def calBytes (r : List Byte) : List Byte := (r.drop 32).take (r.length - 36)

/-- Flash address of a bank of a kind (R290). -/
def calBank (kind bank : Nat) : Nat :=
  match kind with
  | 1 => 0x200000 + 0x100000 * bank
  | 2 => 0x400000 + 0x100000 * bank
  | 3 => 0x600000 + 0x200000 * bank
  | 4 => 0xA00000 + 0x10000 * bank
  | _ => 0xA20000 + 0x10000 * bank
/-- The record in force of a kind, with its bank (R290). -/
def State.calInForce (s : State) (kind : Nat) : Option (Nat × List Byte) :=
  let a := s.flashBytes (calBank kind 0) (calLen kind)
  let b := s.flashBytes (calBank kind 1) (calLen kind)
  if calValid a kind 0 then
    (if calValid b kind 0 && decide (0 < diff32 (calNum b) (calNum a)) then some (1, b) else some (0, a))
  else if calValid b kind 0 then some (1, b) else none
/-- CAL_CNT of a kind. -/
def calCnt (kind : Nat) : Fld := R.CAL_CNT.nth 4 (kind - 1)

/-- Put a record into endpoint 0x33 for the host's flash write (R290). -/
def State.calOutput (s : State) (kind : Nat) (r : List Byte) : State :=
  let bank := match s.calInForce kind with | some (0, _) => 1 | _ => 0
  s.pageWork pCAL fun s => ((s.enqueue 0x33 { bytes := r, last := true }).set pCAL R.CAL_STAT_BANK bank).cause pCAL 5

/-! ### Installation (R295, R296) -/

/-- Install a valid record, and keep its CALNUM (R295). On a fenced page no register changes and no commit is taken (R43, R48). -/
def State.calInstall (s : State) (r : List Byte) : State :=
  let kind := byteAt r 1
  let d := calBytes r
  let s := s.pageWork pCAL fun s => s.set pCAL (calCnt kind) (calNum r)
  match kind with
  | 1 => (s.lsWrite 0x3000000 (d.drop 4)).chantWork fun s => s.set pCHANT R.CHANT_A0 (leAt d 0 2)
  | 2 => (s.lsWrite 0x3400000 (d.drop 4)).chantWork fun s => s.set pCHANT R.CHANT_A0 (leAt d 0 2)
  | 3 => s.chantWork fun s =>
    let s := s.lsWrite (slopeAddr 0 0 0) (d.drop 32)
    let s := (List.range 6).foldl (fun t j =>
      let w := leAt d (4 * j) 4
      [R.CHANT_BMAP_V0, R.CHANT_BMAP_BAR0, R.CHANT_BMAP_V1, R.CHANT_BMAP_BAR1, R.CHANT_BMAP_V2, R.CHANT_BMAP_BAR2].foldl
        (fun t f => t.set pCHANT (f.nth 4 j) (field w f.lo f.w)) t) s
    ((s.set pCHANT R.CHANT_CAMGEN_GEN0 (byteAt d 24)).set pCHANT R.CHANT_CAMGEN_GEN1 (byteAt d 25)).tiersClear
  | 4 =>
    s.each (List.range 128) fun t h =>
      let p := pLANE h
      let ph := byteAt d (4 * h)
      let th := byteAt d (4 * h + 1)
      if t.fenced p then t else (((t.set p R.LANE_SAMP_PHASE ph).setAp p R.LANE_SAMP_PHASE ph).set p R.LANE_SAMP_THR th).setAp p R.LANE_SAMP_THR th
  | _ =>
    let put := fun (t : State) (p : Nat) (f : Fld) (v : Nat) =>
      if t.fenced p || t.resetting p then t else let u := t.set p f v; u.commit p (u.get p R.PG_SHADOW_GEN) false
    (put s pHEADC R.HEADC_FIRE (leAt d 0 2)).each (List.range 128) fun t h => put t (pHEAD h) R.HEAD_DLY (leAt d (4 + 2 * h) 2)
/-- The camera unit of a pair sends a FIRE record on (R296). -/
def State.calSend (s : State) (r : List Byte) : State :=
  if byteAt r 1 = 5 ∧ s.camSends = true then s.crookCommand 0x18 r else s

/-! ### The end of a calibration (R291) -/

/-- The calibration ends with a RESULT: STEP 0, DONE. A COLREF gives the colour loop back to its tiers (R293). -/
def State.calEnd (s : State) (result : Nat) : State :=
  let s := if s.chant.capturing then ({ s with chant := { s.chant with capturing := false } }).tiersClear else s
  let s := s.each ((List.range 128).filter fun l => (s.laneAt l).calScan || (s.laneAt l).calRuns) fun t l =>
    t.updLane l fun x => { x with calScan := false, calRuns := false, scan := if x.calRuns then none else x.scan }
  let s := { s with calst := { kind := s.calst.kind } }
  ((s.set pCAL R.CAL_STAT_STEP 0).set pCAL R.CAL_STAT_RESULT result).cause pCAL 4
/-- A refusal or rejection is counted; a fenced page keeps its registers (R48). -/
def State.calReject (s : State) (result : Nat) : State :=
  s.pageWork pCAL fun s => (s.incSat pCAL R.CAL_REJ_CNT).set pCAL R.CAL_STAT_RESULT result

/-- Counts of a comparison (R291). -/
def State.calCounts (s : State) (disag n : Nat) : State := (s.set pCAL R.CAL_DISAG disag).set pCAL R.CAL_COMPARED n

/-- |a − b| ≤ REL × max(a, b) / 4,096. -/
def relAgree (rel a b : Nat) : Bool := 4096 * (max a b - min a b) ≤ rel * max a b
/-- |a − b| ≤ ABS. -/
def absAgree (lim a b : Nat) : Bool := max a b - min a b ≤ lim

/-- A calibration is accepted with a body: recorded, output and installed; a FLAT waits for its port (R291, R292, R295, R296). -/
def State.calAccept (s : State) (kind : Nat) (body : List Byte) : State :=
  let num := (s.get pCAL (calCnt kind) + 1) % 2 ^ 32
  let r := calRecord s kind num s.cNs body
  let s := ((s.set64 pCAL R.CAL_TIME_LO R.CAL_TIME_HI s.cNs).set pCAL R.CAL_LAST kind).calOutput kind r
  let s := s.set pCAL R.CAL_STAT_RESULT 1
  if kind ≤ 2 ∧ s.enabled (pCAM (kind - 1)) = true then
    ({ s with calst := { s.calst with waitInstall := some r } }).set pCAL R.CAL_STAT_STEP 4
  else ((s.calInstall r).calSend r).calEnd 1

/-- The absorbance of a reflectance: round(4,096 × log10(65,536 / max(r, 1))), by exact comparison of whole numbers (R264). -/
def absorbance (r : Nat) : Nat :=
  let x := (max r 1) ^ 8192
  let y := 65536 ^ 8192
  (List.range 15).foldl (fun a i =>
    let c := a + 2 ^ (14 - i)
    if 10 ^ (2 * c - 1) * x ≤ y then c else a) 0

/-- An entry of a FLAT that no run measured: a free table word (log 40). -/
def freeEntry (s : State) (i : Nat) : Nat :=
  Config.free (40 * 2 ^ 32 + i) s.fresh % 65536 * 65536 + Config.free (41 * 2 ^ 32 + i) s.fresh % 1024
/-- The comparison of a FLAT: dark levels d1 and d2, and gains g1 and g2 (none where m − D < 1), entry 6i + j (R291, R292). -/
def State.flatCompare (s : State) (kind : Nat) : State :=
  let c := s.calst
  let lim := s.get pCAL R.CAL_TOL_ABS
  let rel := s.get pCAL R.CAL_TOL_REL
  -- entries: 0 not measured; a dark level + 1; 1 for m − D < 1, or a gain + 2
  let e := List.zip (List.zip c.d1 c.d2) (List.zip c.r1 c.r2)
  let meas := e.filter fun x => x.1.1 != 0 && x.1.2 != 0 && x.2.1 != 0 && x.2.2 != 0
  let agree := fun (x : (Nat × Nat) × Nat × Nat) =>
    absAgree lim x.1.1 x.1.2 && x.2.1 != 1 && x.2.2 != 1 && relAgree rel (x.2.1 - 2) (x.2.2 - 2)
  let disag := (meas.filter (!agree ·)).length
  let s := s.calCounts disag meas.length
  if s.get pCAL R.CAL_FRAC * meas.length < 65536 * disag then (s.incSat pCAL R.CAL_REJ_CNT).calEnd 2
  else
    let words := (List.range 144576).map fun i =>
      match e[i]? with
      | some x =>
        if x.1.1 = 0 ∨ x.1.2 = 0 ∨ x.2.1 = 0 ∨ x.2.2 = 0 then freeEntry s i
        else if agree x then (x.2.1 - 2 + (x.2.2 - 2) + 1) / 2 * 65536 + (x.1.1 - 1 + (x.1.2 - 1) + 1) / 2
        else (x.2.2 - 2) * 65536 + (x.1.2 - 1)
      | none => freeEntry s i
    let target := s.get pCAL R.CAL_FLAT
    s.tickFresh.calAccept kind (leBytes 2 (absorbance target) ++ leBytes 2 target ++ words.flatMap (leBytes 4 ·))
/-- The comparison of a COLREF: slopes of run 1 and run 2 in the order of the body; only valid slots are entries (R291). -/
def State.colCompare (s : State) : State :=
  let rel := s.get pCAL R.CAL_TOL_REL
  let valid := (List.range 18).map fun x => (s.bandSlots (x / 3)).any fun e => e.1 == x % 3
  let e := (List.zip s.calst.r1 s.calst.r2).zipIdx
  let ok := fun (x : (Nat × Nat) × Nat) =>
    (x.1.1 == 0 && x.1.2 == 0) || (x.1.1 != 0 && x.1.2 != 0 && relAgree rel x.1.1 x.1.2)
  let meas := e.filter fun x => valid.getD (x.2 % 18) false
  let disag := (meas.filter (!ok ·)).length
  let s := s.calCounts disag meas.length
  if s.get pCAL R.CAL_FRAC * meas.length < 65536 * disag then (s.incSat pCAL R.CAL_REJ_CNT).calEnd 2
  else
    let rho := e.map fun x => if ok x && x.1.1 != 0 then (x.1.1 + x.1.2 + 1) / 2 else 0
    let map := (List.range 6).map fun j => wordOf [R.CHANT_BMAP_V0, R.CHANT_BMAP_BAR0, R.CHANT_BMAP_V1, R.CHANT_BMAP_BAR1,
      R.CHANT_BMAP_V2, R.CHANT_BMAP_BAR2] fun f => s.get pCHANT (f.nth 4 j)
    let gen := fun c => s.calst.gens.getD c (Config.free (42 * 2 ^ 32 + c) s.fresh % 256)
    s.tickFresh.calAccept 3 (map.flatMap (leBytes 4 ·) ++ leBytes 1 (gen 0) ++ leBytes 1 (gen 1) ++ zeros 6 ++
      rho.flatMap (leBytes 2 ·))
/-- The comparison of a LANE: per lane 0 for a lane not asked, else 1 + phase + 256 × threshold (R291, R337). A lane that was not
asked has a free entry (log 40). -/
def State.laneCompare (s : State) : State :=
  let lim := s.get pCAL R.CAL_TOL_ABS
  let e := List.zip s.calst.r1 s.calst.r2
  let near := fun (a b : Nat) => decide ((sgn 8 a - sgn 8 b).natAbs ≤ lim)
  let ok := fun (x : (Nat × Nat) × Nat) =>
    !s.calst.abandoned.contains x.2 && x.1.1 != 0 && x.1.2 != 0 && near (x.1.1 - 1) (x.1.2 - 1)
      && near ((x.1.1 - 1) / 256) ((x.1.2 - 1) / 256)
  let meas := e.zipIdx.filter fun x => x.1.1 != 0 || x.1.2 != 0 || s.calst.abandoned.contains x.2
  let disag := (meas.filter (!ok ·)).length
  let s := s.calCounts disag meas.length
  if disag ≠ 0 then (s.incSat pCAL R.CAL_REJ_CNT).calEnd 2
  else
    let body := (List.range 128).flatMap fun h =>
      let v := s.calst.r2.getD h 0
      leBytes 4 (if v = 0 then Config.free (43 * 2 ^ 32 + h) s.fresh % 65536 else v - 1)
    s.tickFresh.calAccept 4 body
/-- The comparison of a FIRE: BASE, then 128 delays (R291). -/
def State.fireCompare (s : State) : State :=
  let lim := s.get pCAL R.CAL_TOL_ABS
  let e := (List.zip s.calst.r1 s.calst.r2).zipIdx
  let disag := (e.filter fun x => !(if x.2 = 0 then x.1.1 == x.1.2 else absAgree lim x.1.1 x.1.2)).length
  let s := s.calCounts disag e.length
  if disag ≠ 0 then (s.incSat pCAL R.CAL_REJ_CNT).calEnd 2
  else
    let r := s.calst.r2
    s.calAccept 5 (leBytes 2 (r.getD 0 0) ++ zeros 2 ++ (r.drop 1).flatMap (leBytes 2 ·))
/-- Both runs are made: compare (R291). -/
def State.calCompare (s : State) : State :=
  match s.calst.kind with
  | 1 => s.flatCompare 1
  | 2 => s.flatCompare 2
  | 3 => s.colCompare
  | 4 => s.laneCompare
  | _ => s.fireCompare

/-! ### Runs (R292 to R294) -/

/-- An eye scan of a MODE that starts now on lane l, by its LANE_ESCAN_CFG and LANE_ESCAN_PT (R336): DWELL below 10 acts as 10, above 24
as 24. -/
def State.scanNew (s : State) (l mode : Nat) : Scan :=
  { mode := mode, dwell := max 10 (min 24 (s.get (pLANE l) R.LANE_ESCAN_CFG_DWELL))
    thr := sgn 8 (s.get (pLANE l) R.LANE_ESCAN_PT_THR), phase := sgn 8 (s.get (pLANE l) R.LANE_ESCAN_PT_PHASE), since := s.tick }
/-- A LANE run asks each enabled head lane for a scan; one that is not UP has it abandoned at once (R294, R337; log 41). -/
def State.lanesAsk (s : State) : State :=
  let ask := (List.range 128).filter fun l => s.enabled (pLANE l)
  s.each ask fun t l =>
    if (t.laneAt l).st = 3 then t.updLane l fun x =>
      if x.scan.isSome then { x with calScan := true } else { x with scan := some (t.scanNew l 0), calRuns := true }
    else { t with calst := { t.calst with abandoned := t.calst.abandoned ++ [l] } }
/-- Every lane asked has been scanned or abandoned. -/
def State.lanesDone (s : State) : Bool := (List.range 128).all fun l => !(s.laneAt l).calScan && !(s.laneAt l).calRuns
/-- A run of the calibration begins (R291 to R294). -/
def State.runBegin (s : State) (step : Nat) : State :=
  let s := ({ s with calst := { s.calst with runDone := false } }).set pCAL R.CAL_STAT_STEP step
  if s.calst.kind = 4 then
    s.lanesAsk
  else s
/-- The run in progress has its data (a LANE run has it when its lanes are done). -/
def State.runReady (s : State) : Bool := s.calst.runDone || (s.calst.kind == 4 && s.lanesDone)
/-- A FLAT run of port c waits for a frame (R292). -/
def State.flatWants (s : State) (c : Nat) : Bool :=
  s.calst.running && s.calst.kind == c + 1 && !s.calst.runDone && s.calst.waitInstall.isNone
    && s.get pCAL R.CAL_STAT_STEP != 3
/-- A good or LONG frame of a FLAT run closes: v sums and lines give D, or with D the gains, as flatCompare takes them (R292). -/
def State.flatFrame (s : State) (c : Nat) (sum : List Nat) (n : Nat) : State :=
  if !s.flatWants c || n = 0 then s
  else
    let two := s.get pCAL R.CAL_STAT_STEP == 2
    let t := s.get pCAL R.CAL_FLAT
    let dark := sum.map fun v => if v = 0 then 0 else (2 * (v - 1) + n) / (2 * n) + 1
    let gain := fun (d : List Nat) => (List.zip sum d).map fun x =>
      if x.1 = 0 ∨ x.2 = 0 then 0
      else
        let v := x.1 - 1
        let dn := (x.2 - 1) * n
        if v < dn + n then 1 else 2 + min 65535 ((2 * t * 256 * n + (v - dn)) / (2 * (v - dn)))
    { s with calst :=
        if !s.calst.flat then
          (if two then { s.calst with d2 := dark, runDone := true } else { s.calst with d1 := dark, runDone := true })
        else
          (if two then { s.calst with r2 := gain s.calst.d2, runDone := true }
           else { s.calst with r1 := gain s.calst.d1, runDone := true }) }
/-- A scan of lane l for a LANE calibration ends with a phase and a threshold (R294). -/
def State.laneScanned (s : State) (l phase thr : Nat) : State :=
  let v := 1 + phase + 256 * thr
  let c := s.calst
  { s with calst :=
      if s.get pCAL R.CAL_STAT_STEP = 2 then { c with r2 := c.r2.set l v } else { c with r1 := c.r1.set l v } }

end Sys2Proof.Machine
end

