-- ==== Sys2Proof/Machine/Cam.lean ====
section
/-! DEFINITION. The camera ports: FRAME_START_EVENT, CAMERA_LINE, FRAME_CLOSE, TRIG0_RISE, TRIGGER_PULSE_END,
COVERAGE_READ_COMPLETE, STATISTICS_RECORD (chapter 11). -/

namespace Sys2Proof.Machine

/-! ### The image pipeline (R261 to R264, R273) -/

/-- Where port c's region of the line store begins. -/
def camBase (c : Nat) : Nat := 0x3000000 + 0x400000 * c
/-- Read line-store bytes for port c; an uncorrectable one makes the port fence at its next frame close (R273). -/
def State.camRead (s : State) (c a n : Nat) : State × List Byte :=
  let r := s.lsRead a n 2
  let bad := r.2.zipIdx.find? fun x => x.1.isNone
  let t := match bad with
    | some x => r.1.updCam c fun y => { y with fenceNext := y.fenceNext.or (some (a + x.2)) }
    | none => r.1
  (t, r.2.map (·.getD 0))
/-- The median of three. -/
def median (a b c : Nat) : Nat := max (min a b) (min (max a b) c)
/-- Spatial noise reduction of one band of a line (R261). -/
def spatial (mode : Nat) (x : Array Nat) (i : Nat) : Nat :=
  let v := x.getD i 0
  let l := if i = 0 then v else x.getD (i - 1) v
  let r := x.getD (i + 1) v
  if mode = 1 then (l + 2 * v + r + 2) / 4 else if mode = 2 then median l v r else v
/-- The next temporal state of y from the state w (R262). -/
def temporal (first : Bool) (tk y w : Nat) : Nat :=
  if first then 64 * y else ((w : Int) + (64 * (y : Int) - w) >>> min 4 tk).toNat
/-- Reflectance of the temporal output v by a table word (R263). -/
def reflectance (v word : Nat) : Nat :=
  min 65535 ((v - field word 0 10) * field word 16 16 / 256)
/-- One good, counted line through the pipeline: the temporal outputs v and the absorbances, per pixel and band. -/
def State.pipeline (s : State) (c : Nat) (first : Bool) (pixels : List Nat) : State × List (List Nat) × List (List Nat) :=
  let nb := s.camBands c
  let mode := s.ap (pCAM c) R.CAM_NR_SPAT
  let tk := s.ap (pCAM c) R.CAM_NR_TK
  let bands := (List.range nb).map fun j => (pixels.map fun p => field p (10 * j) 10).toArray
  let r := (List.range pixels.length).foldl (fun (r : State × List (List Nat) × List (List Nat)) i =>
    let ta := camBase c + 0x100000 + 12 * i
    let tab := r.1.camRead c (camBase c + 24 * i) (4 * nb)
    let old := if first then (tab.1, zeros (2 * nb)) else tab.1.camRead c ta (2 * nb)
    let st := (List.range nb).map fun j => temporal first tk (spatial mode (bands.getD j #[]) i) (leAt old.2 (2 * j) 2)
    let v := st.map fun w => (w + 32) / 64
    let a := v.zipIdx.map fun e => absorbance (reflectance e.1 (leAt tab.2 (4 * e.2) 4))
    (old.1.lsWrite ta (st.flatMap (leBytes 2 ·)), v :: r.2.1, a :: r.2.2)) (s, [], [])
  (r.1, r.2.1.reverse, r.2.2.reverse)

/-! ### Statistics (R270) -/

/-- Add the absorbances of a line to the statistics of every zone and band. -/
def State.statAdd (s : State) (c : Nat) (absb : List (List Nat)) (old : List (Nat × Nat × Nat × Nat)) :
    List (Nat × Nat × Nat × Nat) :=
  let old := if old.isEmpty then List.replicate 18072 (0, 0, 0, 0) else old
  let add := fun (a : Array (Nat × Nat × Nat × Nat)) (n v : Nat) =>
    let e := a.getD n (0, 0, 0, 0)
    a.setIfInBounds n (e.1 + 1, if e.1 = 0 then v else min e.2.1 v, max e.2.2.1 v, e.2.2.2 + v)
  (absb.zipIdx.foldl (fun a x => match s.camColumn c x.2 with
    | none => a
    | some k => x.1.zipIdx.foldl (fun a y => add a (6 * (k / 16) + y.2) y.1) a) old.toArray).toList
/-- First zone and number of zones that the port's pixels reach (R270). -/
def State.zones (s : State) (c : Nat) : Nat × Nat :=
  let z := (List.range 3012).filter fun z => (List.range 16).any fun i => s.camReaches c (16 * z + i)
  (z.headD 0, z.length)
/-- An unstated 32-bit value of a statistics record (log 42). -/
def State.statFree (s : State) (i : Nat) : Nat := Config.free (44 * 2 ^ 32 + i) s.fresh
/-- The statistics record of a frame (R270). -/
def State.statRecord (s : State) (c : Nat) (f : Frame) (short long : Bool) : List Byte :=
  let nb := s.camBands c
  let z := s.zones c
  let lines := min f.lines (max 1 (s.ap (pCAM c) R.CAM_FRAME))
  let head := leBytes 4 f.fseq ++ [BitVec.ofNat 8 f.gen,
      BitVec.ofNat 8 (8 * c + 4 * b2n f.untrig + 2 * b2n long + b2n short), BitVec.ofNat 8 nb, 0] ++ leBytes 4 lines ++
    leBytes 4 f.bad ++ leBytes 2 z.1 ++ leBytes 2 (if short then 0 else z.2) ++ leBytes 4 f.reg ++ leBytes 8 f.tStart ++
    leBytes 8 s.cNs ++ leBytes 4 (f.lFirst.getD (s.statFree 0)) ++
    leBytes 4 (if f.lFirst.isSome then f.lLast else s.statFree 1) ++ zeros 16
  if short then head
  else head ++ (List.range z.2).flatMap fun i => (List.range nb).flatMap fun j =>
    let n := 6 * (z.1 + i) + j
    let e := f.stats.getD n (0, 0, 0, 0)
    leBytes 4 e.1 ++ leBytes 2 (if e.1 = 0 then s.statFree (2 + 2 * n) else e.2.1) ++
      leBytes 2 (if e.1 = 0 then s.statFree (3 + 2 * n) else e.2.2.1) ++ leBytes 8 e.2.2.2
/-- The statistics queue of port c has room (R271; log 11). -/
def State.statRoom (s : State) (c : Nat) : Bool := (s.queues.getD (0x30 + c) []).length < max 1 Config.statCap
/-- A record enters the queue, waits, or is discarded (R271). -/
def State.statPut (s : State) (c : Nat) (r : List Byte) : State :=
  let w := (s.camAt c).waitRecs
  if w.isEmpty && s.statRoom c then s.enqueue (0x30 + c) { bytes := r, last := true }
  else
    let t := s.incSat (pCAM c) R.CAM_SLATE_CNT
    if w.length < 2 then t.updCam c fun x => { x with waitRecs := x.waitRecs ++ [r] } else t

/-! ### Pairs that both ports may give (R265) -/

/-- Port 0 may still give its own pixels for the block ℓ_c: a stamp not yet too old or a trigger to come names the block, or its line waits
(R259, R260). -/
def State.port0May (s : State) (lc : Nat) : Bool :=
  let of := fun (l : Nat) => (l + 2 ^ 32 - s.camc.dist) % 2 ^ 32 == lc
  let x := s.camAt 0
  x.caps.any (fun y => y.lc == lc && !y.dead) ||
    (s.working (pCAM 0) && (x.stamps.any (fun e => of e.1 && decide (s.tick < e.2 + s.get (pCAM 0) R.CAM_LAT_LAT_MAX)) || x.trig0Pend.any fun e => of e.1))
/-- A pair reaches Chanter, or is counted as its fate has it (R277 to R279). -/
def State.pairFate (s : State) (x : OverPair) : State :=
  if x.fate = 0 then
    let s := { s with chant := { s.chant with partsIn := s.chant.partsIn ||| if s.colOf 0 x.col then 1 else 2 } }
    (s.partsReady.addWrap pCHANT R.CHANT_PAIR_CNT 1).pairAdd x.col x.absb fun b => x.cov.getD b 0
  else if x.fate = 1 then s.addSat pCHANT R.CHANT_FLUSH_CNT 1
  else if x.fate = 2 then s.addSat pCHANT R.CHANT_FOVF_CNT 1
  else s.addWrap pCHANT R.CHANT_SKIP_CNT 1
/-- Port 1's pairs that waited are decided: port 0 has given the block's pixels, or can give none any more, and port 1's frame has closed
other than SHORT (R256, R257, R265). -/
def State.overSettle (s : State) : State :=
  let l := (s.camAt 1).shared
  if l.isEmpty then s
  else
    let given := fun (x : OverPair) => (s.camAt 0).regd.contains x.lc
    let wait := fun (x : OverPair) => !given x && (s.port0May x.lc || (s.camAt 1).frame.any (·.fseq == x.fseq))
    let s := s.updCam 1 fun y => { y with shared := l.filter wait }
    if !s.chantRuns then s
    else s.chantWork fun t => (l.filter fun x => !given x && !wait x).foldl State.pairFate t

/-! ### Frames (R255 to R257) -/

/-- A frame closes, SHORT where it is cut or has fewer lines than LINES (R256). -/
def State.camClose (s : State) (c : Nat) (cut : Bool) : State :=
  let p := pCAM c
  match (s.camAt c).frame with
  | none => s
  | some f =>
    let n := max 1 (s.ap p R.CAM_FRAME)
    let short := cut || f.lines < n
    let long := !short && n < f.lines
    let s := s.updCam c fun x => { x with
      frame := none, shared := if short then x.shared.filter (·.fseq != f.fseq) else x.shared
      caps := x.caps.map fun l => if short && l.fseq == f.fseq then { l with dead := true } else l }
    let s := ((s.set p R.CAM_FSTAT_LINES 0).set p R.CAM_FSTAT_LAST (4 * b2n f.untrig + 2 * b2n long + b2n short)).incWrap p
      R.CAM_FRM_CNT
    let s := s.cause p 4
    let s := if short then ((s.incSat p R.CAM_SHORT_CNT).err p 0x80 0 f.fseq).cause p 5
      else if long then ((s.incSat p R.CAM_LONG_CNT).err p 0x81 0 f.fseq).cause p 6 else s
    let s := if s.flag p R.CAM_BIND_EN then (s.statPut c (s.statRecord c f short long)).tickFresh else s
    let s := if f.cal && !short then s.flatFrame c f.vsum f.vlines else s
    s.overSettle.flushStart c { gen := f.gen, short := short, lcFirst := f.lcFirst, lcLast := f.lcLast, since := s.tick }
/-- FRAME_CLOSE: FVAL falls (R256). A fenced port has captured nothing since: its frame is SHORT (log 43), and its registers keep their
values (R48). With no frame open, nothing happens. -/
def execFrameClose (c : CamPort) (s : State) : Host.Outcome State Fault Refusal :=
  let p := pCAM c
  .next <|
    if !s.enabled p || s.resetting p || (s.camAt c).frame.isNone then s
    else if s.fenced p then s.keepPage (s.camClose c true) p
    else
      let t := s.camClose c false
      match (t.camAt c).fenceNext with
      | some a => (t.updCam c fun x => { x with fenceNext := none }).fence p 0x11 0 a
      | none => t

/-- A frame begins at the rise of FVAL. -/
def State.frameOpen (s : State) (c : Nat) (fseq gen t : Nat) (untrig : Bool) : State :=
  let f : Frame := { fseq := fseq, gen := gen, untrig := untrig, tStart := t, cal := s.flatWants c }
  s.updCam c fun x => { x with frame := some f }
/-- A frame start event: FSEQ counts and the port's committed settings apply (R255, R272). -/
def State.frameEvent (s : State) (c : Nat) : State :=
  let p := pCAM c
  ((s.incWrap p R.CAM_FSEQ).applyPlain p).cause p 3
/-- The compare unit of port c's trigger fires: TRIG1 rises and a frame start event is due, or the frame that is open skips it
(R255, R258). -/
def State.trig1Fire (s : State) (c : Nat) : State :=
  let p := pCAM c
  if !s.working p || !s.flag p R.CAM_FTRIG_TRIG_EN then s
  else if (s.camAt c).frame.isSome then s.incSat p R.CAM_TSKIP_CNT
  else s.updCam c fun x => { x with trigDue := true, trig1Until := some (s.tick + s.get p R.CAM_FTRIG_WIDTH) }
/-- FRAME_START_EVENT: the compare unit of TRIG1 has fired, or FVAL rises (R255, R258). -/
def execFrameStartEvent (c : CamPort) (src : FrameSrc) (s : State) : Host.Outcome State Fault Refusal :=
  let p := pCAM c
  let x := s.camAt c
  .next <|
    if !s.working p then s
    else match src with
      | .trig1 =>
        if !x.trigDue then s
        else
          let s := (s.updCam c fun x => { x with trigDue := false }).frameEvent c
          s.updCam c fun x => { x with unpaired := x.unpaired ++ [(s.get p R.CAM_FSEQ, s.get p R.PG_GEN_APPL_GEN, s.cNs)] }
      | .fval =>
        if x.frame.isSome then s
        else if !s.flag p R.CAM_FTRIG_TRIG_EN then
          let s := s.frameEvent c
          s.frameOpen c (s.get p R.CAM_FSEQ) (s.get p R.PG_GEN_APPL_GEN) s.cNs false
        else match x.unpaired.getLast? with
          | some e => (s.updCam c fun x => { x with unpaired := x.unpaired.dropLast }).frameOpen c e.1 e.2.1 e.2.2 false
          | none =>
            let s := s.incWrap p R.CAM_FSEQ
            s.frameOpen c (s.get p R.CAM_FSEQ) (s.get p R.PG_GEN_APPL_GEN) s.cNs true

/-! ### Triggers and stamps (R259, R260) -/

/-- TRIG0 is high: a pulse is in progress, the port drives it and the reference bar runs (R259, R273). -/
def State.trig0High (s : State) (c : Nat) : Bool :=
  (match (s.camAt c).trig0Until with | some u => s.tick < u | none => false) &&
    s.working (pCAM c) && s.flag (pCAM c) R.CAM_LTRIG && s.lineRuns s.camc.refbar
/-- TRIG0_RISE: DELAY after a boundary of the reference bar TRIG0 rises and a stamp is queued, or the pulse is not driven
(R259, R260). -/
def execTrig0Rise (c : CamPort) (s : State) : Host.Outcome State Fault Refusal :=
  let p := pCAM c
  .next <|
    match (s.camAt c).trig0Pend with
    | [] => s
    | (l, t) :: r =>
      if s.tick < t + s.ap p R.CAM_LDLY then s
      else
        let high := s.trig0High c
        let s := s.updCam c fun x => { x with trig0Pend := r }
        if !s.working p || !s.flag p R.CAM_LTRIG || !s.lineRuns s.camc.refbar then s
        else if high then s.incSat p R.CAM_TSKIP_CNT
        else s.updCam c fun x => { x with
          trig0Until := some (s.tick + s.ap p R.CAM_EXP)
          stamps := (x.stamps ++ [(l, s.tick)]).drop (x.stamps.length - 7) }
/-- TRIGGER_PULSE_END: TRIG0 or TRIG1 falls after its width (R258, R259). -/
def execTriggerPulseEnd (c : CamPort) (k : Fin 2) (s : State) : Host.Outcome State Fault Refusal :=
  let done := fun (o : Option Nat) => match o with | some u => if u ≤ s.tick then none else some u | none => none
  .next (s.updCam c fun x =>
    if k = 0 then { x with trig0Until := done x.trig0Until } else { x with trig1Until := done x.trig1Until })
/-- The stamp of a line that starts now: the oldest inside the window; the stamps at or beyond LAT_MAX are discarded (R260). -/
def State.takeStamp (s : State) (c : Nat) : State × Option Nat :=
  let p := pCAM c
  let st := (s.camAt c).stamps
  let hi := s.get p R.CAM_LAT_LAT_MAX
  let left := st.filter fun e => s.tick < e.2 + hi
  match left.find? fun e => e.2 + s.get p R.CAM_LAT_LAT_MIN ≤ s.tick with
  | some e => (s.updCam c fun x => { x with stamps := left.filter fun y => y != e }, some e.1)
  | none => ((s.updCam c fun x => { x with stamps := left }).incSat p R.CAM_NOSTAMP_CNT, none)

/-! ### Lines (R252 to R256, R265 to R269) -/

/-- The CRC-16 of a line's pixel words (R253). -/
def lineCrc (pixels : List Nat) : Nat :=
  crcMsb 16 0x1021 0xFFFF (pixels.flatMap fun p => (leBytes 8 p).flatMap fun b => bitsMsb 8 b.toNat)
/-- A stamped line of a registered block goes to a capture slot and waits for its coverage; a slot still in use loses its line
(R266, R269, R273). -/
def State.capture (s : State) (c fseq lr : Nat) (absb : List (List Nat)) : State :=
  let lc := (lr + 2 ^ 32 - s.camc.dist) % 2 ^ 32
  let k := s.blockOf lc
  if !s.working pCAMC || !s.flag pCAMC R.CAMC_CTRL_REG_EN || !k.2 then s
  else
    let slot := (s.camAt c).slot
    let lost := (s.camAt c).caps.any fun x => x.slot == slot
    let s := if lost then (s.incSat pCAMC R.CAMC_MISS_CNT).cause pCAMC 3 else s
    let s := s.lsWrite (camBase c + 0x180000 + 289152 * slot) (absb.flatMap fun a =>
      a.flatMap (leBytes 2 ·) ++ zeros (12 - 2 * a.length))
    s.updCam c fun x => { x with
      slot := (slot + 1) % 4
      caps := x.caps.filter (fun y => y.slot != slot) ++
        [{ lc := k.1, fseq := fseq, slot := slot, pix := absb.length, nb := (absb.headD []).length }] }
/-- A counted line of the open frame f, number n: bad (R254), or good and through the pipeline. -/
def State.countLine (s : State) (c : Nat) (f : Frame) (lr : Option Nat) (px : List Nat) (check : Option Nat) (fell : Bool) : State :=
  let p := pCAM c
  let crcBad := s.flag p R.CAM_BUS_CRC_EN && check != some (lineCrc px)
  let lenBad := px.length != s.camPix c || fell
  let keep := fun (t : State) (g : Frame → Frame) => t.updCam c fun x => { x with frame := x.frame.map g }
  if crcBad || lenBad then
    let s := s.err p 0x82 (if crcBad then 0 else 1) f.lines f.fseq
    let s := if crcBad then (s.incSat p R.CAM_LCHK_CNT).cause p 7 else s.incSat p R.CAM_LBAD_CNT
    keep s fun g => { g with bad := g.bad + 1 }
  else
    let r := s.pipeline c f.first px
    let s := keep r.1 fun g => { g with
      first := false, stats := s.statAdd c r.2.2 g.stats
      vlines := if g.cal then g.vlines + 1 else g.vlines
      vsum := if !g.cal then g.vsum
        else
          let v := r.2.1.flatMap fun l => l.map (· + 1) ++ List.replicate (6 - l.length) 0
          if g.vsum.isEmpty then v else List.zipWith (fun a b => if a = 0 ∨ b = 0 then 0 else a + b - 1) g.vsum v }
    match lr with
    | some l => s.capture c f.fseq l r.2.2
    | none => s
/-- CAMERA_LINE: a line of the open frame, with its pixels, its check word if one came, and whether FVAL fell inside it. It
stands at the tick its start reached the core clock (R251 to R256, R260; log 44). -/
def execCameraLine (c : CamPort) (pixels : List W64) (check : Option (BitVec 16)) (fvalFell : Bool) (s : State) :
    Host.Outcome State Fault Refusal :=
  let p := pCAM c
  .next <|
    if !s.working p then s
    else match (s.camAt c).frame with
      | none => s
      | some f =>
        let r := s.takeStamp c
        let n := max 1 (s.ap p R.CAM_FRAME)
        let s := r.1.updCam c fun x => { x with frame := x.frame.map fun g => { g with
          lines := g.lines + 1
          lFirst := if f.lines < n then g.lFirst.or r.2 else g.lFirst
          lLast := if f.lines < n then r.2.getD g.lLast else g.lLast } }
        let s := s.overSettle
        if n ≤ f.lines then s.incSat p R.CAM_XLINE_CNT
        else (s.set p R.CAM_FSTAT_LINES (f.lines + 1)).countLine c f r.2 (pixels.map (·.toNat)) (check.map (·.toNat)) fvalFell

/-! ### Pairs (R265, R269, R277, R278) -/

/-- Registered lines of the line's frame that came before it (R278). -/
def State.usedLines (s : State) (c fseq : Nat) : Nat := if (s.camAt c).used.1 = fseq then (s.camAt c).used.2 else 0
/-- What becomes of the pairs of a line: 1 lost to a flush, 2 beyond 4,096 lines, 3 skipped, 0 used (R277 to R279). -/
def State.lineFate (s : State) (c used : Nat) (cov : List (Option (List Byte))) : Nat :=
  if s.chant.flush.has c then 1
  else if 4096 ≤ used then 2
  else if !(s.modelSet.all fun b => match cov.getD b none with | some d => !bit (byteAt d 48196) 0 | none => false) then 3
  else 0
/-- The pairs of a registered line of port c reach Chanter; where port 0 reaches a column of port 1's, they wait until port 0 has given
its own pixel or can give none, and their frame has closed (R257, R265, R277 to R279). -/
def State.pairsIn (s : State) (c : Nat) (x : CapLine) (absb : List (List Nat)) (cov : List (Option (List Byte))) : State :=
  if !s.chantRuns || x.dead then s
  else
    let used := s.usedLines c x.fseq
    let s := s.updCam c fun y => { y with used := (x.fseq, used + 1) }
    let fate := s.lineFate c used cov
    let all := (List.range x.pix).filterMap fun i => (s.camColumn c i).map fun k =>
      ({ lc := x.lc, fseq := x.fseq, col := k, absb := absb.getD i [],
         cov := (List.range 8).map fun b => byteAt ((cov.getD b none).getD []) k, fate := fate } : OverPair)
    let both := fun (e : OverPair) => c == 1 && s.camReaches 0 e.col
    let s := s.chantWork fun t => (all.filter (!both ·)).foldl State.pairFate t
    (s.updCam 1 fun y => { y with shared := y.shared ++ all.filter both }).overSettle
/-- COVERAGE_READ_COMPLETE: the eight slices of the oldest line that waits have been read, at level 5 (R29, R269, R307). -/
def execCoverageReadComplete (c : CamPort) (s : State) : Host.Outcome State Fault Refusal :=
  .next <|
    match (s.camAt c).caps with
    | [] => s
    | x :: rest =>
      if !s.working pCAMC || (List.range 8).any (fun b => !s.dramServed 5 (s.sliceAddr x.lc b) 48256 0x4A) then s
      else
        let s := s.updCam c fun y => { y with caps := rest }
        let r := (List.range 8).foldl (fun (r : State × List (Option (List Byte))) b =>
          let a := r.1.sliceAddr x.lc b
          let q := r.1.dramRead a 48256 4 0x4A
          let t := if q.2.2 then q.1 else q.1.err pCAMC 0x11 0 a (a / 2 ^ 32)
          (t, r.2 ++ [if q.2.2 && leAt q.2.1 48192 4 == x.lc then some q.2.1 else none])) (s, [])
        let s := r.1
        if r.2.all (·.isNone) then ((s.incSat pCAMC R.CAMC_MISS_CNT).cause pCAMC 3).overSettle
        else
          let s := (s.incWrap pCAMC R.CAMC_REG_CNT).set pCAMC R.CAMC_LAST_LC x.lc
          let q := s.camRead c (camBase c + 0x180000 + 289152 * x.slot) (12 * x.pix)
          let absb := (List.range x.pix).map fun i => (List.range x.nb).map fun j => leAt q.2 (12 * i + 2 * j) 2
          let s := q.1.updCam c fun y => { y with
            regd := (x.lc :: y.regd).take 64
            frame := y.frame.map fun f =>
              if f.fseq = x.fseq then { f with reg := f.reg + 1, lcFirst := f.lcFirst.or (some x.lc), lcLast := x.lc } else f }
          s.pairsIn c x absb r.2
/-- STATISTICS_RECORD: a record that waits enters the port's queue once there is room (R271). -/
def execStatisticsRecord (c : CamPort) (s : State) : Host.Outcome State Fault Refusal :=
  .next <|
    match (s.camAt c).waitRecs with
    | [] => s
    | r :: rest =>
      if s.statRoom c then (s.updCam c fun x => { x with waitRecs := rest }).enqueue (0x30 + c) { bytes := r, last := true } else s

/-! ### Enable and soft reset (R256, R272, R376) -/

/-- EN of port c is written 0: an open frame closes SHORT, and the triggers are held low. -/
def State.camDisable (s : State) (c : Nat) : State :=
  ((s.camClose c true).updCam c fun x => { x with
    trig0Pend := [], trig0Until := none, trig1Until := none, trigDue := false, stamps := [], unpaired := [], caps := [],
    shared := [] }).overSettle
/-- CAMC reads its configuration when EN changes to 1 (R272). -/
def State.camcEnable (s : State) : State :=
  { s with camc :=
    { dist := s.get pCAMC R.CAMC_DIST
      phase := s.get pCAMC R.CAMC_PHASE
      refbar := s.get pCAMC R.CAMC_CTRL_REFBAR
      dec := s.get pCAMC R.CAMC_CTRL_DEC
      base := s.get64 pCAMC R.CAMC_CRING_BASE_LO R.CAMC_CRING_BASE_HI
      log2 := max 8 (s.get pCAMC R.CAMC_CRING_CFG) } }

end Sys2Proof.Machine
end

