-- ==== Sys2Proof/Machine/Chant.lean ====
section
/-! DEFINITION. Chanter's commands: FLUSH_END, SOLVE_END, TRIM_CYCLE_BAR, and TRIM of the partner (R279 to R287). -/

namespace Sys2Proof.Machine

/-- DRAM serves the sums that a flush adds to (R280, R301). -/
def State.flushFree (s : State) : Bool :=
  (!s.tierOn .column || s.colsFree s.chant.col.bank) && (!s.tierOn .capture || s.colsFree s.chant.cap.bank)
/-- FLUSH_END: the flush of port c's frame ends; windows may close and their solves start (R279, R280). -/
def execFlushEnd (c : CamPort) (s : State) : Host.Outcome State Fault Refusal :=
  .next <|
    if !s.chantRuns || !s.chant.flush.has c || !s.flushFree then s
    else s.chantWork fun t => t.flushDo c (t.chant.flush.getD c ⟨0, true, none, 0, 0⟩)

/-! ### SOLVE_END (R281, R282, R293) -/

/-- A record of a zone or column solve (R282). -/
def solveRecord (tier : Nat) (x : Nat × Nat × Nat × Nat × Nat) (e : List (List (Option Int))) (holds : Nat) : List Byte :=
  [BitVec.ofNat 8 tier, BitVec.ofNat 8 x.2.2.2.2, 0, 0] ++ leBytes 4 x.2.2.2.1 ++ leBytes 4 x.2.1 ++ leBytes 4 x.2.2.1 ++
    leBytes 4 e.length ++ leBytes 4 holds ++ zeros 8 ++
    e.flatMap fun l => l.flatMap fun v => leBytes 2 (match v with | some i => uns 16 i | none => 0x8000)
/-- The solve of a tier's closed bank, of n zones or columns. -/
def State.solveTier (s : State) (t : Tier) (tier n : Nat) (x : Nat × Nat × Nat × Nat × Nat) : State :=
  let r := (List.range n).foldl (fun (r : State × List (List (Option Int))) i =>
    let q := r.1.sumsOf t x.1 i
    (q.1, r.1.gainErrors q.2 i :: r.2)) (s, [])
  let e := r.2.reverse
  let m := s.modelSet
  let holds := e.foldl (fun a l => a + (m.filter fun b => (l.getD b none).isNone).length) 0
  let s := (r.1.tickFresh.addSat pCHANT R.CHANT_HOLD_CNT holds).bankClear t x.1
  let s := s.updTier t fun y => { y with solving := none, e := e.flatten, fresh := true }
  let s := if s.flag pCHANT R.CHANT_BIND_EN then s.enqueue 0x32 { bytes := solveRecord tier x e holds, last := true } else s
  ({ s.cause pCHANT 3 with chant := { s.chant with cycleDue := true } }).cycleSettle
/-- Slot i of every band of the columns of a capture window's bank (R293). -/
def State.captureSums (s : State) (bank : Nat) (cols : List Nat) : State × List (List Nat) :=
  cols.foldl (fun (r : State × List (List Nat)) k =>
    let q := r.1.sumsOf .capture bank k
    (q.1, ((List.range 6).flatMap fun j => r.1.bandSlopes q.2 k j) :: r.2)) (s, [])
/-- The slopes of the run in progress are complete (R291, R293). -/
def State.captureDone (s : State) (rho : List Nat) : State :=
  let c := if s.get pCAL R.CAL_STAT_STEP = 2 then { s.calst with r2 := rho, runDone := true }
    else { s.calst with r1 := rho, runDone := true }
  ({ s with calst := c }).cause pCHANT 3
/-- The solve of a capture window: the slopes of a COLREF run (R293). -/
def State.solveCapture (s : State) (x : Nat × Nat × Nat × Nat × Nat) : State :=
  let r := s.captureSums x.1 (List.range 48192)
  ((r.1.tickFresh.bankClear .capture x.1).updTier .capture fun y => { y with solving := none }).captureDone
    r.2.reverse.flatten
/-- SOLVE_END: a tier's solve ends: errors, record, bank cleared, and a trim cycle falls due (R281, R282, R285). -/
def execSolveEnd (t : Tier) (s : State) : Host.Outcome State Fault Refusal :=
  .next <|
    match (s.tier t).solving with
    | none => s
    | some x =>
      if !s.chantRuns then s
      else match t with
        | .zone => s.chantWork fun s => s.solveTier .zone 0 3012 x
        | .column => if s.colsFree x.1 then s.chantWork fun s => s.solveTier .column 1 48192 x else s
        | .capture => if s.calst.runDone || !s.colsFree x.1 then s else s.chantWork fun s => s.solveCapture x

/-! ### Trims (R283, R284) -/

/-- e of a tier for entry n and bar b: 0 where the tier contributes nothing or the colour is held. -/
def gainAt (e : List (Option Int)) (n b : Nat) : Int := ((e[8 * n + b]?).join).getD 0
/-- The mean of e over the columns of zone z that are not held for bar b, truncated toward zero (R283). -/
def zoneMean (e : List (Option Int)) (z b : Nat) : Int :=
  let l := (List.range 16).filterMap fun i => (e[8 * (16 * z + i) + b]?).join
  if l.isEmpty then 0 else Int.tdiv (l.foldl (· + ·) 0) l.length
/-- e′ of column k. -/
def columnErr (e : Array (Option Int)) (mean : Array Int) (k b : Nat) : Int :=
  match (e[8 * k + b]?).join with
  | some v => v - mean.getD (k / 16) 0
  | none => 0
/-- Δ of one tier in contone (R283). -/
def contoneDelta (e : Int) (sens dead kp : Nat) : Int :=
  if e.natAbs < dead then 0 else Int.tdiv (Int.tdiv (e * sens) 4096 * kp) 256
/-- The trims of bar b, one per camera column, and how many were clamped (R283); a bar outside M receives none (R276). -/
def State.trims (s : State) (b : Nat) (dot : Bool) : List Int × Nat :=
  if !s.modelSet.contains b then (List.replicate 48192 0, 0)
  else
  let f := fun (x : Fld) => s.ap pCHANT x
  let ce := s.chant.cycC.toArray
  let ze := s.chant.cycZ
  let mean := ((List.range 3012).map fun z => zoneMean s.chant.cycC z b).toArray
  let zone := ((List.range 3012).map fun z => gainAt ze z b).toArray
  if dot then
    ((List.range 48192).map fun k =>
      let e := zone.getD (k / 16) 0 + columnErr ce mean k b
      let d : Int := f R.CHANT_DOT
      if d ≤ e then 1 else if e ≤ -d then -1 else 0, 0)
  else
    let sens := f (R.CHANT_SENS.nth 4 b)
    let step : Int := f R.CHANT_STEP
    let l := (List.range 48192).map fun k =>
      contoneDelta (zone.getD (k / 16) 0) sens (f R.CHANT_DEAD_DEAD_Z) (f R.CHANT_LOOP_KP_Z) +
        contoneDelta (columnErr ce mean k b) sens (f R.CHANT_DEAD_DEAD_C) (f R.CHANT_LOOP_KP_C)
    (l.map (clampI (-step) step), (l.filter fun v => decide (step < v ∨ v < -step)).length)
/-- A nozzle word with its trim moved by d, and whether the field was clamped (R284). -/
def trimWord (dot : Bool) (w : Nat) (d : Int) : Nat × Bool :=
  let lo := if dot then 16 else 0
  let n := if dot then 4 else 10
  let m : Int := 2 ^ (n - 1)
  let v := sgn n (field w lo n) + d
  let c := clampI (-m) (m - 1) v
  (andNot w ((2 ^ n - 1) * 2 ^ lo) + uns n c * 2 ^ lo, c != v)
/-- Move the trims of the nozzles of bar b that reach camera columns k0 and on (R284). A word with an uncorrectable byte is left
as it is (log 45); a fenced CHANT page counts no clamp (R48). -/
def State.trimWrite (s : State) (b k0 : Nat) (dot : Bool) (deltas : List Int) : State :=
  let d := deltas.toArray
  let base := tabAddr 0 (1 - s.activeCopy b 0) b
  s.chantWork fun s => s.each ((List.range 16).flatMap fun t => (List.range 6144).filterMap fun n =>
      let k := (6016 * t + n) / 2
      if k0 ≤ k ∧ k < k0 + d.size then some (6144 * t + n) else none) fun s i =>
    let k := (6016 * (i / 6144) + i % 6144) / 2
    let r := s.lsWord (base + 4 * i) 3
    match r.2 with
    | none => r.1
    | some w =>
      let x := trimWord dot w (d.getD (k - k0) 0)
      let s := r.1.lsWrite (base + 4 * i) (leBytes 4 x.1)
      if x.2 then s.incSat pCHANT R.CHANT_CLIP_CNT else s

/-! ### TRIM_CYCLE_BAR (R285, R287) -/

/-- The TRIM messages of a bar's trim set (R238, R287). -/
def State.trimSend (s : State) (b line : Nat) (arm dot : Bool) (deltas : List Int) : State :=
  if !s.camSends then s
  else s.each (List.range 6) fun t part =>
    t.crookCommand 0x17 ([BitVec.ofNat 8 b, 0, 0, 0] ++ leBytes 4 line ++ leBytes 2 (8032 * part) ++ leBytes 2 8032 ++
      [BitVec.ofNat 8 (2 * b2n arm + b2n dot), BitVec.ofNat 8 part, 6, 0] ++ leBytes 4 (s.get pCHANT R.CHANT_CYCLE) ++
      ((deltas.drop (8032 * part)).take 8032).map fun d => BitVec.ofInt 8 d)
/-- A PIPE page that is fenced or in soft reset takes no arming (R48, R376; log 126). -/
def State.pipeShut (s : State) (b : Nat) : Bool := s.fenced (pPIPE b) || s.resetting (pPIPE b)
/-- Arm a swap of the nozzle table of bar b at a line from a trim set (R285, R287): false where the line is not ahead. -/
def State.trimArm (s : State) (b line : Nat) : State × Bool :=
  let p := pPIPE b
  if s.pipeShut b then (s, false)
  else if diff32 line (s.get (pLINE b) R.LINE_SEQ) ≤ 0 then ((s.set p R.PIPE_TSTAT_LATE 1).cause p 5, false)
  else ((s.set p R.PIPE_TSTAT_LATE 0).armSwap b { whn := 1, tables := 1, line := line, fromTrim := true }, true)
/-- A deferred bar cycle is counted (R285). -/
def State.deferCount (s : State) : State := (s.incSat pCHANT R.CHANT_DEFER_CNT).cause pCHANT 5
/-- The mode of the job at bar b's line pipeline: a free value where there was never one (log 46). -/
def State.cycleMode (s : State) (b : Nat) : Bool :=
  match (s.jobAt b).curDot with
  | some d => d
  | none => Config.free (46 * 2 ^ 32 + b) s.fresh % 2 == 1
/-- The line that a cycle names for bar b (R285, R287). -/
def State.cycleLine (s : State) (b : Nat) : Nat :=
  ((if s.straps.pairEn then s.safeLine b else s.get (pLINE b) R.LINE_SEQ + 1) + s.get pCHANT R.CHANT_LEAD) % 2 ^ 32
/-- The trims of a bar go into the shadow table, and to the partner. -/
def State.cycleWrite (s : State) (b line : Nat) (arm dot : Bool) (x : List Int × Nat) : State :=
  (((s.set pCHANT R.CHANT_CYC_LINE line).addSat pCHANT R.CHANT_CLIP_CNT x.2).trimWrite b 0 dot x.1).trimSend b line arm dot x.1
/-- The swap is armed, or the bar's cycle is deferred (R285). -/
def State.cycleArm (s : State) (b line : Nat) (armed : Bool) : State :=
  if armed then s.deferCount
  else
    let r := s.trimArm b line
    if r.2 then r.1 else r.1.deferCount
/-- The cycle has served bar b. -/
def State.cycleServed (s : State) (b : Nat) : State :=
  ({ s.tickFresh with chant := { s.chant with bars := setBit s.chant.bars b false } }).cycleSettle
/-- Steps 2 to 4 for bar b (R285, R287). -/
def State.cycleBar (s : State) (b : Nat) : State :=
  let dot := s.cycleMode b
  let line := s.cycleLine b
  let armed := (s.pipeAt b).armed.isSome || s.pipeShut b
  ((s.cycleWrite b line (!armed) dot (s.trims b dot)).cycleArm b line armed).cycleServed b
/-- TRIM_CYCLE_BAR: the cycle serves bar b, the lowest it still has to serve, unless a copy of its tables runs (R285). -/
def execTrimCycleBar (b : Bar) (s : State) : Host.Outcome State Fault Refusal :=
  .next (if s.working pCHANT && lowBit 8 s.chant.bars == some b.val && (s.pipeAt b).copy.isNone && !s.loopHolds then s.cycleBar b
    else s)

/-! ### TRIM (R237, R287) -/

/-- TRIM: a part of the camera unit's trim set is written into the shadow table, and the sixth arms the swap (R237, R287). A late
part is written, and its cycle arms nothing. -/
def execTrim (hd : CrookHdr) (b : Bar) (line : W32) (k0 nk : BitVec 16) (arm dot : Bool) (part npart : Byte) (cycle : W32)
    (deltas : List Byte) (s : State) : Host.Outcome State Fault Refusal :=
  let i := b.val
  let l := line.toNat
  .next <| s.crookCmd hd fun s =>
    let s := s.peerCamSeen
    let late := s.lineLate i l
    let s := if late then s.lateCommand i l else s
    let s := s.trimWrite i k0.toNat dot ((deltas.take nk.toNat).map (·.toInt))
    let old := match s.pair.trims.find? fun e => e.1 == i && e.2.1 == cycle.toNat with | some e => e.2.2 | none => 0
    let bits := old ||| 2 ^ (part.toNat % 16) ||| (if late then 2 ^ 16 else 0)
    let full := bits % 2 ^ 16 == 2 ^ (npart.toNat % 16) - 1
    let s := s.updPair fun p => { p with trims := (p.trims.filter fun e => e.1 != i) ++
      (if full then [] else [(i, cycle.toNat, bits)]) }
    if full && arm && !bit bits 16 then (s.trimArm i l).1 else s

end Sys2Proof.Machine
end

