-- ==== Sys2Proof/Machine/Cal.lean ====
section
/-! DEFINITION. The commands of calibration: CAL_CMD_GO, CAL_CMD_ABORT, CAL_CMD_CONT, CAL_RUN_END, FLAT_INSTALL, CAL_RECORD_IN, and
CAL of the partner (R288 to R296). -/

namespace Sys2Proof.Machine

/-- The blocks that a kind needs are enabled (R291, R293; log 47 for LANE). -/
def State.calNeeds (s : State) (kind : Nat) : Bool :=
  match kind with
  | 1 => s.enabled pCAMC && s.enabled (pCAM 0)
  | 2 => s.enabled pCAMC && s.enabled (pCAM 1)
  | 3 => s.enabled pCAMC && s.enabled pCHANT
  | 4 => (List.range 128).any fun l => s.enabled (pLANE l)
  | 5 => true
  | _ => false
/-- A calibration starts, or its start is refused (R291). -/
def State.calGo (s : State) (kind : Nat) : State :=
  if s.calst.running || !s.enabled pCAL || !s.calNeeds kind then s.calReject 5
  else
    let z := if kind = 4 then List.replicate 128 0 else []
    let s := { s with calst := { kind := kind, running := true, r1 := z, r2 := z } }
    let s := (s.set pCAL R.CAL_STAT_KIND kind).set pCAL R.CAL_STAT_RESULT 0
    let s := if kind = 3 then
        let t := ({ s with chant := { s.chant with capturing := true, cycleDue := false, bars := 0 } }).tiersClear
        { t with chant := { t.chant with cap := {} } }
      else s
    s.runBegin 1
/-- What a write of CAL_CMD does, bit by bit from the lowest (R291, R292, R299). -/
def calCmdAct (v : Nat) (s : State) : State :=
  let s := if bit v 8 && s.calst.running && s.get pCAL R.CAL_STAT_STEP == 3 then
      ({ s with calst := { s.calst with flat := true } }).runBegin 1
    else s
  let s := if bit v 9 && s.calst.running then s.calEnd 3 else s
  if bit v 31 then s.calGo (field v 0 3) else s
/-- CAL_CMD_GO: a host write of CAL_CMD.GO with KIND. -/
def execCalCmdGo (kind : BitVec 3) (s : State) : Host.Outcome State Fault Refusal :=
  let v := 2 ^ 31 + kind.toNat
  .next (s.writeWith pCAL 0x40 v (calCmdAct v))
/-- CAL_CMD_ABORT: a host write of CAL_CMD.ABORT. -/
def execCalCmdAbort (s : State) : Host.Outcome State Fault Refusal := .next (s.writeWith pCAL 0x40 0x200 (calCmdAct 0x200))
/-- CAL_CMD_CONT: a host write of CAL_CMD.CONT. -/
def execCalCmdCont (s : State) : Host.Outcome State Fault Refusal := .next (s.writeWith pCAL 0x40 0x100 (calCmdAct 0x100))

/-- CAL_RUN_END: the run in progress has its data: run 2 follows, or the pause of a FLAT, or the comparison (R291, R292). -/
def execCalRunEnd (s : State) : Host.Outcome State Fault Refusal :=
  .next <|
    if !s.working pCAL || !s.calst.running || s.calst.waitInstall.isSome || !s.runReady then s
    else
      let step := s.get pCAL R.CAL_STAT_STEP
      if step = 1 then s.runBegin 2
      else if step = 2 then
        (if s.calst.kind ≤ 2 ∧ s.calst.flat = false then (s.runBegin 3).cause pCAL 3 else s.calCompare)
      else s

/-- FLAT_INSTALL: the FLAT that waits in STEP 4 is installed once its port's EN is 0 (R292). -/
def execFlatInstall (s : State) : Host.Outcome State Fault Refusal :=
  .next <|
    match s.calst.waitInstall with
    | none => s
    | some r => if !s.working pCAL || s.enabled (pCAM (s.calst.kind - 1)) then s else (s.calInstall r).calEnd 1

/-- A whole record taken through endpoint 0x33 (R294). -/
def State.calTake (s : State) (r : List Byte) : State :=
  let kind := byteAt r 1
  let step := s.get pCAL R.CAL_STAT_STEP
  let v := leAt r 32 2 :: (List.range 128).map fun h => leAt r (36 + 2 * h) 2
  if calValid r kind 0 then (s.calInstall r).calSend r
  else if s.calst.running && s.calst.kind == 5 && (step == 1 || step == 2) && calValid r 5 step then
    { s with calst :=
        if step = 1 then { s.calst with r1 := v, runDone := true } else { s.calst with r2 := v, runDone := true } }
  else s.calReject 4
/-- CAL_RECORD_IN: the record at the front of the sink is used as a FIRE run, installed or refused (R294). LEN tells where it
ends; with a LEN that fits no kind, everything the sink holds is refused as one record (log 48). -/
def execCalRecordIn (s : State) : Host.Outcome State Fault Refusal :=
  let l := s.sinks.getD 0x33 []
  let n := leAt l 4 4
  let fits := [calLen 1, calLen 3, calLen 4, calLen 5].contains n
  .next <|
    if !s.working pCAL || s.calst.runDone || l.length < 8 then s
    else if !fits then ({ s with sinks := s.sinks.del 0x33 }).calReject 4
    else if l.length < n then s
    else ({ s with sinks := s.sinks.put 0x33 (l.drop n) }).calTake (l.take n)

/-- CAL: a FIRE record of the camera unit is checked, installed and output; any other kind is counted (R296; log 48). -/
def execCalMessage (hd : CrookHdr) (record : List Byte) (s : State) : Host.Outcome State Fault Refusal :=
  .next <| s.crookCmd hd fun s =>
    let s := s.peerCamSeen
    if byteAt record 1 ≠ 5 then s.incSat pPAIR R.PAIR_BAD_CNT
    else if !s.working pCAL || !calValid record 5 0 then s.calReject 4
    else (s.calInstall record).calOutput 5 record

/-- A soft reset of CAL, or its EN written 0, ends a run; RESULT reads 0 (R376). -/
def State.calReset (s : State) : State :=
  if s.calst.running then s.calEnd 0 else s

end Sys2Proof.Machine
end

