-- ==== Sys2Proof/Machine/Dram.lean ====
section
/-! DEFINITION. DRAM in service: ALERT_N, REPLAY, ALERT_TIMEOUT, DRAM_MIG_CMD, MIGRATION_COPY_UNIT, REFRESH, RETRAIN_PAUSE,
RECENTRING_END, TRACKER_CLEAR, SPARE_WRITE, DIMM_TEMPERATURE_READ, and the scrubber: SCRUB_GO, SCRUB_STOP, SCRUB_UNIT (chapter 13). -/

namespace Sys2Proof.Machine

/-! ### Rank maps (R302, R323, R324, R375) -/

/-- Build the rank maps of every channel: all ranks but the spare in use (R302, R375). -/
def State.buildMaps (s : State) : State :=
  let r := s.ranks
  let n := s.logRanks
  let spare := s.spareOn
  let s := s.each (List.range 4) fun t c =>
    let p := pDRAM c
    let lr := (List.range n).foldl (fun a i => a + i * 4 ^ i) 0
    let st := (List.range r).foldl (fun a i => a + (if i < n then 16 ^ i else 0)) 0
    (((t.set p R.DRAM_RMAP_LR lr).set p R.DRAM_RMAP_SPR (if spare then r - 1 else 0)).setFlag p R.DRAM_RMAP_SPV spare).set p
      R.DRAM_RSTAT st
  s
/-- DRAMC_SIZE and DRAMC_GEOM follow the geometry (R302, R323). -/
def State.showGeometry (s : State) : State :=
  let s := (s.set pDRAMC R.DRAMC_SIZE_LO s.dramSize).set pDRAMC R.DRAMC_SIZE_HI (s.dramSize / 2 ^ 32)
  ((s.setFlag pDRAMC R.DRAMC_GEOM_DPC2 (s.geo.dimms == 2)).set pDRAMC R.DRAMC_GEOM_S s.geo.rankLog2).set pDRAMC
    R.DRAMC_GEOM_RANKS s.ranks
/-- What a write of DRAMC_CFG does: a change of SPARE in START rebuilds the maps (R323, R375). -/
def dramcCfgAct (v : Nat) (s : State) : State :=
  let t := s.storeReg pDRAMC 0x40 v
  if t.get pDRAMC R.DRAMC_CFG_SPARE = s.get pDRAMC R.DRAMC_CFG_SPARE then t else t.buildMaps.showGeometry
/-- SPARE_WRITE: a host write of DRAMC_CFG that leaves MODE as it stands and writes SPARE. -/
def execSpareWrite (spare : Bool) (s : State) : Host.Outcome State Fault Refusal :=
  let v := 16 * b2n spare + s.get pDRAMC R.DRAMC_CFG_MODE
  .next (s.writeWith pDRAMC 0x40 v (dramcCfgAct v))

/-! ### Requests that waited -/

/-- The doorbells that waited take effect once no BAR2 write waits (R173). -/
def State.bellsRing (s : State) : State :=
  if s.bar2Writes then s
  else s.bells.foldl (fun t b => if b < 64 then t.dmaBell b else (t.jobDoorbell (b - 64)).decGo (b - 64)) { s with bells := [] }
/-- What waited for DRAM goes on as far as it can be served: writes and BAR2 accesses, with the doorbells and acknowledgements that wait for
them, descriptor reads of channels and job engines, and the decoders (R173, R200, R301, R315, R319, R322). -/
def State.dramWake (s : State) : State :=
  let s := s.dramDrain.bellsRing.ctlAcks
  let t := (s.each (s.dma.map (·.1)) State.dmaGo).each (s.job.map (·.1)) State.jobFetch
  t.each (t.dec.map (·.1)) State.decGo

/-! ### CA parity and replay (R313 to R315) -/

/-- DRAM address of the oldest command of channel c's retry buffer; with none there, or a refresh, which has no address, one the spec does not
state (log 49). -/
def State.oldestCmd (s : State) (c : Nat) : Nat :=
  match (s.dramAt c).retry.getLast? with
  | some x => if x.refresh then Config.free (49 * 2 ^ 32 + 1) s.fresh % 2 ^ 38 else x.addr
  | none => Config.free (49 * 2 ^ 32) s.fresh % 2 ^ 38
/-- ALERT_N: ALERT_n is sampled low: the channel issues no new command (R314). The buffer keeps the last 128 DRAM clocks. -/
def execAlertN (c : DramCh) (s : State) : Host.Outcome State Fault Refusal :=
  let n := c.val
  .next <|
    if !(s.dramAt n).trained || (s.dramAt n).alert.isSome then s
    else s.updDram n fun d => { d with
      alert := some s.tick, tries := 0, retry := d.retry.filter fun x => s.tick ≤ x.at_ + s.retryTicks }
/-- The unit at an offset of logical rank lr, whose copy has failed, becomes poison on the spare (R317). -/
def State.migPoison (s : State) (c lr o : Nat) : State :=
  let p := match (s.dramAt c).mig with | some (_, _, p) => p | none => s.rmap c lr
  ((s.storeBurst c p o (zeros 64) poisonCheck).incSat (pDRAM c) R.DRAM_MIG_POISON).updDram c fun d =>
    { d with migFirst := d.migFirst.or (some o) }
/-- The logical rank that a physical rank serves; none for a spare or retired one (R302). -/
def State.rankServes (s : State) (c p : Nat) : Option Nat := (List.range s.logRanks).find? fun lr => s.rmap c lr == p
/-- What a failed replay of the oldest command means for its rank (R313, R316, R317): migration's own command poisons the unit, and
degrades a rank other than the failing one; any other retires or degrades its rank as R316 has it, a refresh the rank it names. -/
def State.replayRank (s : State) (c a rank : Nat) (x : Option RetryCmd) : State :=
  let pl := s.dramPlace a
  match x with
  | some x =>
    if x.refresh then
      match s.rankServes c x.rank with
      | some lr => s.rankFailed c lr x.rank (s.dramAddr c lr 0) 0
      | none => if s.get pDRAMC R.DRAMC_CFG_MODE = 1 then s.degrade c x.rank else s
    else if x.req = 0x50 then
      let t := s.migPoison c pl.2.1 x.off
      if (s.dramAt c).mig.any fun m => m.2.1 == x.rank then t else t.degrade c x.rank
    else s.rankFailed c pl.2.1 rank a 0
  | none => s.rankFailed c pl.2.1 rank a 0
/-- A replay has failed (R313, R315, R316): the channel retrains, and in SERVICE the rank is retired. -/
def State.replayFailed (s : State) (c : Nat) : State :=
  let a := s.oldestCmd c
  let x := (s.dramAt c).retry.getLast?
  let rank := match x with
    | some x => x.rank
    | none => let pl := s.dramPlace a; s.physRank c pl.2.1 pl.2.2
  let s := (s.dramErr c 0x91 0 a).incSat (pDRAM c) R.DRAM_PAR_FAIL
  let s := s.updDram c fun d => { d with alert := none, tries := 0, pause := some (2, rank) }
  s.tickFresh.replayRank c a rank x
/-- An attempt drew ALERT_n again, or timed out: another begins, or the replay has failed (R314, R324). -/
def State.replayAgain (s : State) (c : Nat) : State :=
  let n := (s.dramAt c).tries + 1
  if max 1 (s.get (pDRAM c) R.DRAM_PAR_CFG) ≤ n then s.replayFailed c
  else s.updDram c fun d => { d with alert := some s.tick, tries := n }
/-- A command stands in the retry buffer of channel c, newest first, for 128 DRAM clocks (R314). -/
def State.keepCmd (s : State) (c : Nat) (x : RetryCmd) : State :=
  s.updDram c fun d => { d with retry := { x with at_ := s.tick } :: d.retry.filter fun y => s.tick ≤ y.at_ + s.retryTicks }
/-- Precharge-all, and every command of the buffer once more in its order, writes with the data they carried (R314). -/
def State.reissue (s : State) (c : Nat) : State :=
  (s.dramAt c).retry.reverse.foldl (fun t x =>
    if x.refresh then t.keepCmd c x
    else
      let t := t.issue c x
      match x.data with
      | some (d, k) => t.storeBurst c x.rank x.off d k
      | none => t) (s.updDram c fun d => { d with openRow := [], retry := [] })
/-- REPLAY: ALERT_n has returned high and the retry buffer is issued again; `again` tells that this draws ALERT_n once more
(R314). When the replay is done, what waited goes on (R315). -/
def execReplay (c : DramCh) (again : Bool) (s : State) : Host.Outcome State Fault Refusal :=
  let n := c.val
  .next <|
    if (s.dramAt n).alert.isNone then s
    else
      let s := (((s.dramErr n 0x90 0 (s.oldestCmd n)).incSat (pDRAM n) R.DRAM_PAR_CNT).cause (pDRAM n) 6).tickFresh
      let s := s.reissue n
      if again then s.replayAgain n else (s.updDram n fun d => { d with alert := none, tries := 0 }).dramWake
/-- ALERT_TIMEOUT: ALERT_n is still low 2.000 µs later: the attempt fails (R314; log 50). -/
def execAlertTimeout (c : DramCh) (s : State) : Host.Outcome State Fault Refusal :=
  let n := c.val
  .next <|
    match (s.dramAt n).alert with
    | some t => if s.tick < t + usTicks 2 then s else s.replayAgain n
    | none => s
/-- RECENTRING_END: a pause ends; a failed one is recorded and keeps the previous settings. After the retraining of a failed replay the
channel resumes from the oldest command of its retry buffer; what waited goes on (R315, R319). -/
def execRecentringEnd (c : DramCh) (ok : Bool) (s : State) : Host.Outcome State Fault Refusal :=
  let n := c.val
  .next <|
    match (s.dramAt n).pause with
    | none => s
    | some (k, _) =>
      let s := s.updDram n fun d => { d with pause := none }
      let s := if ok then s
        else
          let s := s.dramErr n 0x93 0 0
          if k = 1 then s.incSat (pDRAM n) R.DRAM_TRAIN_FAIL else s
      (if k = 2 then s.reissue n else s).dramWake

/-! ### Retirement (R316, R317) -/

/-- What a write of DRAM_MIG_CMD of channel c does (R316): the address recorded is the rank's first (log 51). -/
def dramMigAct (c v : Nat) (s : State) : State :=
  let lr := field v 0 2
  let mode := s.get pDRAMC R.DRAMC_CFG_MODE
  if bit v 31 && (mode == 1 || mode == 2) && lr < s.logRanks && s.canRetire c (s.rmap c lr) then
    s.retire c lr (s.rmap c lr) (s.dramAddr c lr 0) 0
  else s
/-- DRAM_MIG_CMD: a host write of DRAM_MIG_CMD with GO = 1. -/
def execDramMigCmd (c : DramCh) (lr : BitVec 2) (s : State) : Host.Outcome State Fault Refusal :=
  let v := 2 ^ 31 + lr.toNat
  .next (s.writeWith (pDRAM c) 0x48 v (dramMigAct c v))

/-- Step 3 of a retirement (R317). -/
def State.migSwitch (s : State) (c lr f p : Nat) : State :=
  let s := s.upd (pDRAM c) R.DRAM_RMAP_LR fun w => andNot w (3 * 4 ^ lr) + p * 4 ^ lr
  let s := ((s.setRankState c f 3).setRankState c p 1).set (pDRAM c) R.DRAM_RMAP_SPV 0
  (s.updDram c fun d => { d with mig := none }).cause (pDRAM c) 5
/-- MIGRATION_COPY_UNIT: one unit of the failing rank is copied to the spare, or poisoned there; at the end the map switches
(R305, R317). The copy waits for its own channel, at level 4 (R29, R315, R319, R322). -/
def execMigrationCopyUnit (c : DramCh) (s : State) : Host.Outcome State Fault Refusal :=
  let n := c.val
  .next <|
    match (s.dramAt n).mig with
    | none => s
    | some (lr, f, p) =>
      let o := s.migPtr n
      if !s.chServes n || s.rowHeld n f o 0x50 || s.rowHeld n p o 0x50 || s.decFirst (List.range 8) [n] || s.waitAhead 4 [n]
          || s.dmaAhead 4 [n] then s
      else
        let a := s.dramAddr n lr o
        let s := s.issue n { at_ := s.tick, addr := a, req := 0x50, rank := f, off := o }
        let r := s.burstFound n lr f a 6 (s.lookBurst n f o)
        let k := match r.2 with
          | some d => (d, rsCheck (rsSymbols d))
          | none => (zeros 64, poisonCheck)
        let s := (r.1.issue n { at_ := s.tick, addr := a, req := 0x50, rank := p, off := o, data := some k }).freeRep n a
        let s := if r.2.isSome then s.storeBurst n p o k.1 k.2 else s.migPoison n lr o
        let s := s.set64 (pDRAM n) R.DRAM_MIG_PTR_LO R.DRAM_MIG_PTR_HI (o + 64)
        if 2 ^ s.geo.rankLog2 ≤ o + 64 then s.migSwitch n lr f p else s

/-! ### Refresh, retraining and row disturbance (R318 to R321) -/

/-- Some decoder port is in panic (R320). -/
def State.anyPanic (s : State) : Bool := (List.range 8).any fun b => (s.decAt b).panic
/-- The refreshes of a rank are issued: the one that is due, and n that were postponed (R314, R318). -/
def State.refreshIssue (s : State) (c rank n : Nat) : State :=
  (List.replicate (n + 1) ()).foldl (fun t _ => t.keepCmd c { at_ := s.tick, addr := 0, req := 0, rank := rank, off := 0, refresh := true }) s
/-- REFRESH: a refresh of a rank falls due: it is issued, postponed under panic, or forced as the ninth (R318); during an alert or a pause
the channel issues none, and it stays due (R314, R315, R319). -/
def execRefresh (c : DramCh) (rank : Fin 4) (s : State) : Host.Outcome State Fault Refusal :=
  let n := c.val
  let r := rank.val
  let d := s.dramAt n
  let due := d.lastRef.getD r 0 + (if d.hot then nsTicks 3900 else nsTicks 7800)
  .next <|
    if !s.chServes n || s.ranks ≤ r || s.rankState n r == 3 || s.tick < due then s
    else
      let s := s.updDram n fun d => { d with lastRef := d.lastRef.put r s.tick }
      let k := d.postponed.getD r 0
      if !s.anyPanic then (s.updDram n fun d => { d with postponed := d.postponed.put r 0 }).refreshIssue n r k
      else if k < 8 then s.updDram n fun d => { d with postponed := d.postponed.put r (k + 1) }
      else (s.incSat pDRAMC R.DRAMC_FREF_CNT).refreshIssue n r 0
/-- DIMM_TEMPERATURE_READ: the hottest DIMM of the channel reports a temperature in 1/16 °C (R318; log 52). -/
def execDimmTemperatureRead (c : DramCh) (temp : BitVec 16) (s : State) : Host.Outcome State Fault Refusal :=
  .next (if (s.dramAt c).trained then s.updDram c fun d => { d with hot := decide (85 * 16 < temp.toInt) } else s)
/-- RETRAIN_PAUSE: a due recentring of a rank starts, once no port is in panic and lookahead suffices (R319). -/
def execRetrainPause (c : DramCh) (rank : Fin 4) (s : State) : Host.Outcome State Fault Refusal :=
  let n := c.val
  let r := rank.val
  let d := s.dramAt n
  let due := d.lastRetrain.getD r 0 + msTicks (max 1 (s.get pDRAMC R.DRAMC_RETRAIN_PER))
  let ahead := (List.range 8).all fun b => !s.breathIncl b || s.get pDRAMC R.DRAMC_RT_PAUSE_LINES ≤ s.decAhead b
  .next <|
    if !d.trained || !s.flag pDRAMC R.DRAMC_RETRAIN_EN || s.ranks ≤ r || s.rankState n r == 3 || d.alert.isSome
        || d.pause.isSome || s.tick < due || s.anyPanic || !ahead then s
    else (s.updDram n fun d => { d with
      pause := some (1, r), lastRetrain := d.lastRetrain.put r s.tick }).incWrap (pDRAM n) R.DRAM_TRAIN_CNT
/-- TRACKER_CLEAR: every 64.00 ms all trackers clear, and with them the throttles (R321, R322). -/
def execTrackerClear (s : State) : Host.Outcome State Fault Refusal :=
  .next <|
    if s.tick < s.trackClear + msTicks 64 then s
    else ({ s with trackClear := s.trackClear + msTicks 64 }).each (List.range 4) fun t c =>
      t.updDram c fun d => { d with trackers := [], throttled := [] }

/-! ### The scrubber (R312) -/

/-- The pass ends with a RESULT. -/
def State.scrubEnd (s : State) (result : Nat) : State :=
  (((({ s with scrub := { s.scrub with busy := false } }).set pSCRUB R.SCRUB_STAT_BUSY 0).set pSCRUB R.SCRUB_STAT_RESULT
    result)).cause pSCRUB 3
/-- The last unit is done: RESULT 1, and F of a memory that was covered whole clears (R311). -/
def State.scrubDone (s : State) : State :=
  let x := s.scrub
  let s := if !x.mem && x.start == 0 && x.len == lsSize then { s with lsRep := { s.lsRep with floor := 0 } }
    else if x.mem && x.start == 0 && x.len == s.dramSize then
      s.each (List.range 4) fun t c => t.updDram c fun d => { d with rep := { d.rep with floor := 0 } }
    else s
  s.scrubEnd 1
/-- A pass starts over START and LEN of the memory MEM, or is refused (R312). -/
def State.scrubStart (s : State) : State :=
  let mem := s.flag pSCRUB R.SCRUB_CTRL_MEM
  let a := s.get64 pSCRUB R.SCRUB_START_LO R.SCRUB_START_HI
  let n := s.get64 pSCRUB R.SCRUB_LEN_LO R.SCRUB_LEN_HI
  let s := [R.SCRUB_DONE_LO, R.SCRUB_DONE_HI, R.SCRUB_CORR, R.SCRUB_UNC, R.SCRUB_POISON, R.SCRUB_FIRST_LO, R.SCRUB_FIRST_HI].foldl
    (fun t f => t.set pSCRUB f 0) s
  if (if mem then s.dramSize else lsSize) < a + n then s.set pSCRUB R.SCRUB_STAT_RESULT 2
  else
    let s := ({ s with scrub := { busy := true, mem := mem, start := a, len := n, pos := 0, lastTick := s.tick } }).set pSCRUB
      R.SCRUB_STAT_BUSY 1
    let s := s.set pSCRUB R.SCRUB_STAT_RESULT 0
    if n = 0 then s.scrubDone else s
/-- What a write of SCRUB_CTRL does (R312): STOP before GO. -/
def scrubCtrlAct (v : Nat) (s : State) : State :=
  let s := s.storeReg pSCRUB 0x40 v
  let s := if bit v 30 && s.scrub.busy then s.scrubEnd 3 else s
  if bit v 31 && !s.scrub.busy && s.enabled pSCRUB then s.scrubStart else s
/-- SCRUB_GO: a host write of SCRUB_CTRL with GO = 1 and a MEM. -/
def execScrubGo (mem : Bool) (s : State) : Host.Outcome State Fault Refusal :=
  let v := 2 ^ 31 + b2n mem
  .next (s.writeWith pSCRUB 0x40 v (scrubCtrlAct v))
/-- SCRUB_STOP: a host write of SCRUB_CTRL with STOP = 1 that leaves MEM as it stands. -/
def execScrubStop (s : State) : Host.Outcome State Fault Refusal :=
  let v := 2 ^ 30 + s.get pSCRUB R.SCRUB_CTRL_MEM
  .next (s.writeWith pSCRUB 0x40 v (scrubCtrlAct v))

/-- An uncorrectable unit is counted, and the first one latched. -/
def State.scrubUnc (s : State) (a : Nat) : State :=
  let s := s.incSat pSCRUB R.SCRUB_UNC
  if s.scrub.firstSet then s
  else ({ s with scrub := { s.scrub with firstSet := true } }).set64 pSCRUB R.SCRUB_FIRST_LO R.SCRUB_FIRST_HI a
/-- A unit of the line store. -/
def State.scrubLs (s : State) (a : Nat) : State :=
  let cls := (List.range 64).map fun i => (s.lsLook (a + i)).2
  let r := s.lsRead a 64 5
  if cls.any (2 ≤ ·) then r.1.scrubUnc a
  else if cls.any (· == 1) then (r.1.lsWrite a (r.2.map (·.getD 0))).incSat pSCRUB R.SCRUB_CORR
  else r.1
/-- A unit of DRAM. -/
def State.scrubDram (s : State) (a : Nat) : State :=
  let pl := s.dramPlace a
  let b := s.lookBurst pl.1 (s.physRank pl.1 pl.2.1 pl.2.2) pl.2.2
  let r := s.burstRead a 5 0x4F
  match b with
  | .clean _ => r.1
  | .corrected d => (r.1.burstWrite a d 0x4F).incSat pSCRUB R.SCRUB_CORR
  | .bad => r.1.scrubUnc a
  | .poison => r.1.incSat pSCRUB R.SCRUB_POISON
/-- SCRUB_UNIT: SCRUB_GAP ticks after the previous one the pass reads its next unit (R312). -/
def execScrubUnit (s : State) : Host.Outcome State Fault Refusal :=
  let x := s.scrub
  .next <|
    if !x.busy || !s.enabled pSCRUB || s.tick < x.lastTick + max 1 (s.get pSCRUB R.SCRUB_GAP) || (x.mem &&
        !s.dramServed 5 (x.start + x.pos) 64 0x4F) then s
    else
      let a := x.start + x.pos
      let s := if x.mem then s.scrubDram a else s.scrubLs a
      let s := ({ s with scrub := { s.scrub with pos := x.pos + 64, lastTick := s.tick } }).set64 pSCRUB R.SCRUB_DONE_LO
        R.SCRUB_DONE_HI (x.pos + 64)
      if x.len ≤ x.pos + 64 then s.scrubDone else s

end Sys2Proof.Machine
end

