-- ==== Sys2Proof/Machine/BootOps.lean ====
section
/-! DEFINITION. The boot sequencer behind its commands: step states, retries, the board record, and the lanes and channels that work
for it in the background (R368 to R371, R379). -/

namespace Sys2Proof.Machine

/-! ### Steps (R368, R369, R379) -/

/-- The field of step i in BOOT_STEP. -/
def bootFld (i : Nat) : Fld := { R.BOOT_STEP_0 with lo := 3 * i }
/-- State of a step in BOOT_STEP: 0 PEND, 1 RUN, 2 DONE, 3 RETRY, 4 WAIT, 5 SKIP. -/
def State.bootStep (s : State) (i : Nat) : Nat := s.get pBOOT (bootFld i)
/-- BOOT_STAT follows BOOT_STEP; READY is raised when it first sets (R371). -/
def State.bootStat (s : State) : State :=
  let ok := fun i => s.bootStep i == 2 || s.bootStep i == 5
  let ready := (List.range 8).all fun i => i == 5 || ok i
  let t := ((s.setFlag pBOOT R.BOOT_STAT_READY ready).setFlag pBOOT R.BOOT_STAT_DONE ((List.range 8).all ok)).setFlag pBOOT
    R.BOOT_STAT_RETRYING ((List.range 8).any fun i => s.bootStep i == 3)
  if ready && !s.boot.readyOnce then (t.updBoot fun b => { b with readyOnce := true }).cause pBOOT 4 else t
/-- A step changes state: STEP sets, and DONE notes its time in µs from reset release. -/
def State.setStep (s : State) (i v : Nat) : State :=
  if s.bootStep i = v then s
  else
    let t := (s.set pBOOT (bootFld i) v).cause pBOOT 3
    let t := if v = 2 then t.set pBOOT (R.BOOT_DONE_T.nth 4 i) (s.osc * 64 / 10000) else t
    t.bootStat
/-- One attempt of a step is counted (log 53). -/
def State.tryStep (s : State) (i : Nat) : State := s.incSat pBOOT (R.BOOT_TRY.nth 4 i)
/-- The steps a step needs are done (R368). -/
def State.stepNeeds (s : State) (i : Nat) : Bool :=
  let d := fun j => s.bootStep j == 2
  match i with
  | 0 => true
  | 1 => d 0
  | 2 => d 1
  | 3 => d 1
  | 4 => d 0 && d 2
  | 5 => d 4
  | 6 => d 0
  | _ => d 1
/-- The sequencer takes step i up: its first attempt in the order 0 to 7, or the retry attempt that has begun (R369). -/
def State.stepTaken (s : State) (i : Nat) : Bool :=
  !s.inReset && s.stepNeeds i && (bit s.boot.attempt i ||
    (s.bootStep i == 0 && (List.range i).all fun j => s.bootStep j != 0 || !s.stepNeeds j))

/-- BOOT_BACKOFF.MIN and MAX as they act. -/
def State.backMin (s : State) : Nat := max 1 (s.get pBOOT R.BOOT_BACKOFF_MIN)
def State.backMax (s : State) : Nat := max s.backMin (s.get pBOOT R.BOOT_BACKOFF_MAX)
/-- An attempt failed: the next falls due after the interval, which doubles (R369). -/
def State.backOff (s : State) (key : Nat) : State :=
  let i := s.boot.interval.getD key s.backMin
  s.updBoot fun b => { b with
    dueAt := b.dueAt.put key (s.osc + msTicks i), interval := b.interval.put key (min s.backMax (2 * i)) }
/-- An attempt succeeded. -/
def State.backOk (s : State) (key : Nat) : State :=
  s.updBoot fun b => { b with dueAt := b.dueAt.del key, interval := b.interval.del key }
/-- The retry of a key is due. -/
def State.retryDue (s : State) (key : Nat) : Bool := s.boot.dueAt.has key && s.boot.dueAt.getD key 0 ≤ s.osc
/-- An error on BOOT: SRC is the step. -/
def State.bootErr (s : State) (code step addr : Nat) : State := s.err pBOOT code step addr

/-! ### The board record (R370) -/

/-- The record is valid. -/
def boardValid (l : List Byte) : Bool :=
  leAt l 64 4 == crc32 (l.take 64) && byteAt l 0 == 0x10 && leAt l 1 3 == 0 && byteAt l 23 / 16 == 0
    && leAt l 40 4 % 16 == 0 && leAt l 60 4 % 16 == 0
/-- Lane l is named to be brought up. -/
def State.laneNamed (s : State) (l : Nat) : Bool :=
  if !s.boot.boardOk then l < 128 || (132 ≤ l && l < 160)
  else
    let b := s.boot.board
    if l < 128 then bit (byteAt b (4 + l / 8)) (l % 8)
    else if l < 132 then false
    else if l < 136 then bit (byteAt b 23) (l - 132)
    else bit (byteAt b (20 + (l - 136) / 8)) ((l - 136) % 8)
/-- Polarity of lane l, received or transmitted. -/
def State.laneInv (s : State) (tx : Bool) (l : Nat) : Bool :=
  s.boot.boardOk && bit (byteAt s.boot.board ((if tx then 44 else 24) + l / 8)) (l % 8)

/-! ### Lanes for the sequencer (R332, R368, R369) -/

/-- A search starts on lane l, for the sequencer or for software, of 66 positions a sweep (R332). -/
def State.searchStart (s : State) (l : Nat) (boot : Bool) : State :=
  let t := ((s.setLane l 2).dropLock l).updLane l fun x => { x with
    bootSearch := boot, stepsLeft := 66 * max 1 (s.get (pLANE l) R.LANE_SYNC_TRIES), stepAt := s.tick }
  if boot then t.updBoot fun b => { b with searching := b.searching.filter (· != l) ++ [l] } else t
/-- Lane l is enabled as the board record says; a head or Crook lane is searched. -/
def State.laneBringUp (s : State) (l : Nat) : State :=
  let p := pLANE l
  let s := ((s.setFlag p R.LANE_CTRL_RX_INV (s.laneInv false l)).setFlag p R.LANE_CTRL_TX_INV (s.laneInv true l)).set p
    R.PG_CTRL_EN 1
  let s := s.laneEnable l true
  if l < 136 && (s.laneAt l).st = 1 then s.searchStart l true else s
/-- The step a lane belongs to. -/
def laneStep (l : Nat) : Nat := if l < 128 then 4 else 5
/-- The lanes that a step waits for: the head or Crook lanes that the board record names (R368). -/
def State.stepLanes (s : State) (i : Nat) : List Nat := (List.range 136).filter fun l => laneStep l == i && s.laneNamed l
/-- Steps LANES and CROOK take up their lanes' reports: DONE once every named lane is UP (R368). -/
def State.lanesJudge (s : State) (i : Nat) : State :=
  let mine := fun l => laneStep l == i
  let up := fun l => (s.laneAt l).st == 3
  let run := s.boot.searching.any mine
  let fail := s.boot.failLanes.filter mine
  if s.bootStep i = 0 || s.bootStep i = 5 then s
  else if i = 4 && !fail.isEmpty then s.setStep 4 3
  else if run then s
  else if fail.isEmpty then (if (s.stepLanes i).all up then s.setStep i 2 else s)
  else if (s.stepLanes i).any up then
    (if s.bootStep 5 = 3 then s else (fail.foldl (fun t l => t.bootErr 0x23 5 l) s).setStep 5 3)
  else s.setStep 5 4
/-- A search of the sequencer on lane l has ended (R368, R369). -/
def State.bootSearchEnd (s : State) (l : Nat) (ok : Bool) : State :=
  let i := laneStep l
  let s := s.updBoot fun b => { b with
    searching := b.searching.filter (· != l)
    failLanes := b.failLanes.filter (· != l) ++ if ok then [] else [l] }
  let s := if ok then s.backOk (0x100 + l)
    else
      let t := s.backOff (0x100 + l)
      if i = 4 || s.bootStep 5 = 3 then t.bootErr 0x23 i l else t
  s.lanesJudge i
/-- The retry of a failing lane: a lane that is UP has succeeded; one that cannot be searched fails again. -/
def State.laneRetry (s : State) (l : Nat) : State :=
  let s := s.tryStep (laneStep l)
  if (s.laneAt l).st = 3 then s.bootSearchEnd l true
  else if (s.laneAt l).st = 1 && s.working (pLANE l) then s.searchStart l true
  else s.bootSearchEnd l false

/-! ### DRAM for the sequencer (R300, R301, R368) -/

/-- Channels are populated alike (R301): the same number of DIMMs, ranks per DIMM and rank size. -/
def spdAlike (x y : SpdInfo) : Bool := x.dimms == y.dimms && x.ranksPerDimm == y.ranksPerDimm && x.rankLog2 == y.rankLog2
/-- A channel's DIMMs are supported (R300). -/
def spdSupported (x : SpdInfo) : Bool :=
  x.kind == .rdimm && x.x72 && (x.devWidth == 4 || x.devWidth == 8) && (x.devGb == 4 || x.devGb == 8 || x.devGb == 16) &&
  x.caParity && x.alertN && (if x.dimms = 2 then 2666 else 3200) ≤ x.grade && ((x.dimms == 1 && (x.ranksPerDimm == 1 || x.ranksPerDimm == 2 || x.ranksPerDimm == 4)) ||
    (x.dimms == 2 && (x.ranksPerDimm == 1 || x.ranksPerDimm == 2))) && 32 ≤ x.rankLog2 && x.rankLog2 ≤ 34
/-- Step DRAM judges its channels: RETRY while one fails, RUN while one trains, and at the end the maps, SIZE and the ENs
(R301, R368, R375). -/
def State.dramJudge (s : State) : State :=
  if s.boot.chFail ≠ 0 then s.setStep 6 3
  else if s.boot.chRun ≠ 0 || !s.dramReady then s
  else
    let kept := s.boot.warm && (List.range 4).any fun c => s.get (pDRAM c) R.DRAM_RSTAT != 0
    let s := (if kept then s else s.buildMaps).showGeometry
    let s := (s.set pDRAMC R.PG_CTRL_EN 1).each (List.range 4) fun t c => t.set (pDRAM c) R.PG_CTRL_EN 1
    let s := s.setStep 6 2
    s.dramWake.each (List.range 8) State.decGo
/-- Channel c fails: a mismatch, or its training (R301, R369). -/
def State.channelFail (s : State) (c : Nat) : State :=
  let s := ((s.dramErr c 0x93 0 0).bootErr 0x93 6 c).backOff (0x200 + c)
  s.updBoot fun b => { b with chFail := setBit b.chFail c true, chRun := setBit b.chRun c false }

/-! ### The boot flash (R377; log 4) -/

/-- Program or erase one byte: an erased byte is not listed. -/
def State.flashSet (s : State) (a : Nat) (b : Byte) : State :=
  { s with flash := if b = 0xFF then Memory.del s.flash a else Memory.put s.flash a b }
/-- Set bytes from an address. -/
def State.flashSets (s : State) (a : Nat) : List Byte → State
  | [] => s
  | b :: r => (s.flashSet a b).flashSets (a + 1) r

end Sys2Proof.Machine
end

