-- ==== Sys2Proof/Machine/Lane.lean ====
section
/-! DEFINITION. The serial lanes: LANE_CMD_SLIP, LANE_CMD_SEARCH, SEARCH_END, LANE_CMD_ESCAN, ESCAN_END, BLOCK_LOCK,
BLOCK_LOCK_LOSS, CDR_LOSS, EXIT_TIMEOUT, SAMPLER_STEP, PRBS_SYNC (chapter 14). -/

namespace Sys2Proof.Machine

/-- Head and Crook lanes slip and search (R331, R332). -/
def laneSlips (l : Nat) : Bool := l < 128 || (132 ≤ l && l < 136)
/-- The bar whose cause 5 a lane can bear on. -/
def laneBar (l : Nat) : Nat := if l < 128 then l / 16 else 0
/-- The transmitter and receiver work: not in electrical idle for a lost PLL or a shutdown (R383). -/
def State.laneLive (s : State) (l : Nat) : Bool :=
  s.enabled (pLANE l) && !s.resetting (pLANE l) && !(s.laneAt l).txIdle && !(128 ≤ l && l < 132)
/-- What follows from a lane's change: feed ports and PAIR (R191, R243). -/
def State.laneAfter (s t : State) (l code : Nat) : State :=
  let t := if 136 ≤ l then t.feedSettle else t
  s.pairRise t code (laneBar l)
/-- Lane l gains block lock and enters UP (R330). -/
def State.laneLock (s : State) (l : Nat) : State :=
  let s := s.updLane l fun x => { x with cdr := true, block := true, rxEidle := false, lockAt := s.tick, good := 64, bad := [] }
  s.setLane l 3

/-! ### LANE_CMD (R331, R332, R336) -/

/-- LANE_CMD.SLIP of n bits. -/
def State.laneSlip (s : State) (l n : Nat) : State :=
  let st := (s.laneAt l).st
  if !laneSlips l || n = 0 || 65 < n || !(st == 1 || st == 3 || st == 4) then s
  else
    let t := s.updLane l fun x => { x with slip := (x.slip + n) % 66 }
    let t := t.dropLock l
    if st = 3 then t.setLane l 1 else t
/-- What a write of LANE_CMD of lane l does, bit by bit from the lowest; SLIP and SEARCH are ignored on a feed lane (R333). -/
def laneCmdAct (l v : Nat) (s : State) : State :=
  if !laneSlips l then s else
  let t := s.laneSlip l (field v 0 7)
  let t := if bit v 30 && l < 128 && (t.laneAt l).st == 3 && (t.laneAt l).scan.isNone then
      t.updLane l fun x => { x with scan := some (s.scanNew l (s.get (pLANE l) R.LANE_ESCAN_CFG_MODE)) }
    else t
  let t := if bit v 31 && laneSlips l && ((t.laneAt l).st == 1 || (t.laneAt l).st == 3) then t.searchStart l false else t
  s.laneAfter t l 0
/-- LANE_CMD_SLIP: a host write of LANE_CMD.SLIP. -/
def execLaneCmdSlip (l : Lane) (n : BitVec 7) (s : State) : Host.Outcome State Fault Refusal :=
  .next (s.writeWith (pLANE l) 0x50 n.toNat (laneCmdAct l n.toNat))
/-- LANE_CMD_SEARCH: a host write of LANE_CMD.SEARCH. -/
def execLaneCmdSearch (l : Lane) (s : State) : Host.Outcome State Fault Refusal :=
  .next (s.writeWith (pLANE l) 0x50 (2 ^ 31) (laneCmdAct l (2 ^ 31)))
/-- LANE_CMD_ESCAN: a host write of LANE_CMD.ESCAN. -/
def execLaneCmdEscan (l : Lane) (s : State) : Host.Outcome State Fault Refusal :=
  .next (s.writeWith (pLANE l) 0x50 (2 ^ 30) (laneCmdAct l (2 ^ 30)))

/-- The search of lane n has slipped so many positions since its last reported slip (R332). -/
def State.searchSlip (s : State) (n steps : Nat) : State :=
  s.updLane n fun x => { x with slip := (x.slip + steps) % 66, stepsLeft := x.stepsLeft - steps, stepAt := s.tick, good := 0 }
/-- The search of lane n ends, locked at its present position or failed (R332, R368). -/
def State.searchOver (s : State) (n : Nat) (ok : Bool) : State :=
  let boot := (s.laneAt n).bootSearch
  let t := s.updLane n fun x => { x with bootSearch := false, stepsLeft := 0 }
  let t := if ok then t.laneLock n else ((t.setLane n 1).err (pLANE n) 0x23 0 n).cause (pLANE n) 6
  let t := if boot then t.bootSearchEnd n ok else t.lanesJudge (laneStep n)
  s.laneAfter t n 0x23
/-- The search leaves its present position at an invalid header; after the last position of the last sweep it has failed. A header
before the two blocks of settling have passed is not tested (R332). -/
def State.searchLeave (s : State) (n : Nat) : State :=
  let x := s.laneAt n
  if blocksIn n (s.tick - x.stepAt) < 3 then s
  else
    let t := s.searchSlip n 1
    if x.stepsLeft ≤ 1 then t.searchOver n false else t
/-- SEARCH_END: the search ends locked at a slip position, or has failed every sweep (R332, R368). Each position takes at least 3 blocks
and at most 66, and the last 66: an end that comes sooner is none, and a search that has run its whole time has failed. A failed search has
slipped through whole rounds, so SLIP stands where it began. -/
def execSearchEnd (l : Lane) (found : Option (Fin 66)) (s : State) : Host.Outcome State Fault Refusal :=
  let n := l.val
  let x := s.laneAt n
  let k := blocksIn n (s.tick - x.stepAt)
  let failed := (s.searchSlip n x.stepsLeft).searchOver n false
  .next <|
    if x.st ≠ 2 || !s.laneLive n then s
    else
      match found with
      | some p =>
        let d := (p.val + 66 - x.slip) % 66
        if 66 * x.stepsLeft < k then failed
        else if d < x.stepsLeft && 3 * d + 66 ≤ k then (s.searchSlip n d).searchOver n true
        else s
      | none => if 3 * x.stepsLeft ≤ k then failed else s

/-! ### Eye scans (R336, R337) -/

/-- First index and length of the longest run of true, the lowest of equals. -/
def longestRun (l : List Bool) : Nat × Nat :=
  let r := l.zipIdx.foldl (fun (r : (Nat × Nat) × Nat) e =>
    if e.1 then
      let n := r.2 + 1
      (if r.1.2 < n then (e.2 + 1 - n, n) else r.1, n)
    else (r.1, 0)) ((0, 0), 0)
  r.1
/-- The place of 32, first + i × step, nearest v; the lower on a tie. -/
def nearest (first : Int) (step : Nat) (v : Int) : Nat :=
  let d := fun (i : Nat) => (first + i * step - v).natAbs
  (List.range 32).foldl (fun b i => if d i < d b then i else b) 0
/-- The result of a full scan, its counts in the order of rows of columns: HEIGHT, WIDTH, THR, PHASE (R336; log 54 for the column
at PHASE). -/
def scanResult (counts : List Nat) (lim : Nat) (thr phase : Int) : Nat × Nat × Int × Int :=
  let a := counts.toArray
  let at1 := fun (i j : Nat) => a.getD (32 * j + i) (lim + 1) ≤ lim
  let j := nearest (-128) 8 thr
  let row := longestRun ((List.range 32).map fun i => at1 i j)
  if row.2 = 0 then (0, 0, thr, phase)
  else
    let p := fun (i : Nat) => (-64 + 4 * i : Int)
    let ph := Int.fdiv (p row.1 + p (row.1 + row.2 - 1)) 2
    let i := nearest (-64) 4 ph
    let col := longestRun ((List.range 32).map fun j => at1 i j)
    let t := fun (j : Nat) => (-128 + 8 * j : Int)
    (col.2, row.2, Int.fdiv (t col.1 + t (col.1 + col.2 - 1)) 2, ph)
/-- Points of a scan: the grid of a full scan, or one (R336). -/
def Scan.points (x : Scan) : Nat := if x.mode = 1 then 1 else 1024
/-- A scan has counted over 2^DWELL bits at each point, 22 bits a tick at 3.4375 Gbaud (R336). -/
def Scan.over (x : Scan) (now : Nat) : Bool := x.points * 2 ^ x.dwell ≤ 22 * (now - x.since)
/-- ESCAN_END: the running scan ends with its counts, none above the 2^DWELL bits of a point (R336, R337, R294). A scan that a calibration
waits for runs next. -/
def execEscanEnd (l : Lane) (counts : List Nat) (s : State) : Host.Outcome State Fault Refusal :=
  let n := l.val
  let p := pLANE n
  .next <|
    match (s.laneAt n).scan with
    | none => s
    | some x =>
      if !x.over s.tick then s
      else
      let cal := (s.laneAt n).calRuns
      let counts := counts.map (min (2 ^ x.dwell))
      let s := if x.mode = 1 then s.set p R.LANE_ESCAN_ERR (counts.headD 0)
        else
          let r := scanResult counts (s.get p R.LANE_ESCAN_CFG_LIM) (sgn 8 (s.ap p R.LANE_SAMP_THR)) (sgn 8 (s.ap p R.LANE_SAMP_PHASE))
          let t := (((s.set p R.LANE_ESCAN_RES_HEIGHT r.1).set p R.LANE_ESCAN_RES_WIDTH r.2.1).set p R.LANE_ESCAN_RES_THR
            (uns 8 r.2.2.1)).set p R.LANE_ESCAN_RES_PHASE (uns 8 r.2.2.2)
          if cal then t.laneScanned n (uns 8 r.2.2.2) (uns 8 r.2.2.1) else t
      let s := s.cause p 5
      s.updLane n fun x =>
        if x.calScan then { x with scan := some (s.scanNew n 0), calScan := false, calRuns := true }
        else { x with scan := none, calRuns := false }

/-! ### Lock (R330, R334, R340) -/

/-- Tick by which a fast exit must have locked: 4 × BURST blocks after its start (R334). -/
def State.exitLimit (s : State) (n : Nat) : Nat := (s.laneAt n).exitAt + 12 * max 64 (s.get (pLANE n) R.LANE_EIDLE)
/-- The fast exit of lane n has not locked in time (R334, R340). -/
def State.exitFail (s : State) (n : Nat) : State := s.laneAfter ((s.setLane n 1).fence (pLANE n) 0x23 0 n) n 0x23
/-- BLOCK_LOCK: 64 consecutive valid sync headers at the present position (R110, R330, R334). A search ends by SEARCH_END; a lane in
IDLE or MAINT holds no lock; a lock later than 4 × BURST blocks ends a fast exit too late. The boot sequencer sees a lane that is UP (R368).
-/
def execBlockLock (l : Lane) (s : State) : Host.Outcome State Fault Refusal :=
  let n := l.val
  let p := pLANE n
  let st := (s.laneAt n).st
  .next <|
    if !s.laneLive n || !(st == 1 || st == 5) then s
    else if st = 5 && s.exitLimit n < s.tick then s.exitFail n
    else
      let t := s.laneLock n
      let t := if st = 5 then (t.incWrap p R.LANE_EXIT_CNT).cause p 7 else t
      s.laneAfter (if n < 136 then t.lanesJudge (laneStep n) else t) n 0
/-- Invalid sync headers of lane n among its last 64 blocks (R110). -/
def State.badRecent (s : State) (n : Nat) : List (Nat × Nat) :=
  (s.laneAt n).bad.filter fun e => blocksIn n (s.tick - e.1) < 64
/-- Block lock of lane n is lost under R110 (R330, R340). -/
def State.lockLost (s : State) (n : Nat) : State :=
  let t := (s.incSat (pLANE n) R.LANE_LOCK_CNT).dropLock n
  let t := if (s.laneAt n).st = 3 then (t.setLane n 1).fence (pLANE n) 0x21 0 n else t
  s.laneAfter t n 0x21
/-- BLOCK_LOCK_LOSS: `bad` invalid sync headers come in and `run` valid ones after them. Each invalid one counts while UP and ends the run of
valid headers (R330, R331); where 16 of 64 are invalid, lock is lost (R110, R340). A search leaves its position (R332). Without an invalid
one the run of an unlocked lane goes on; its 64th valid header is BLOCK_LOCK. -/
def execBlockLockLoss (l : HeaderReport) (s : State) : Host.Outcome State Fault Refusal :=
  let n := l.lane.val
  let bad := l.bad
  let run := l.run
  let x := s.laneAt n
  let old := s.badRecent n
  .next <|
    if !s.laneLive n then s
    else if x.st = 2 && bad ≠ 0 then s.searchLeave n
    else if !(x.st == 1 || x.st == 2 || x.st == 3 || x.st == 5) then s
    else if !x.block then s.updLane n fun y => { y with good := min 63 (if bad = 0 then y.good + run else run) }
    else if bad = 0 then s
    else
      let t := if x.st = 3 then s.addSat (pLANE n) R.LANE_BLK_ERR bad else s
      if 16 ≤ (old.map (·.2)).sum + bad then t.lockLost n
      else t.updLane n fun y => { y with good := run, lockAt := s.tick, bad := (s.tick, bad) :: old }
/-- CDR_LOSS: the CDR is out of lock, or there is no input signal, for 1.000 µs (R340; log 55 for RX_EIDLE). In the core cycle in which the
lane fenced it is one more cause of that fence (R384). -/
def execCdrLoss (l : Lane) (s : State) : Host.Outcome State Fault Refusal :=
  let n := l.val
  let p := pLANE n
  let x := s.laneAt n
  .next <|
    if !s.laneLive n then s
    else
      let t := (if x.block then s.incSat p R.LANE_LOCK_CNT else s).dropLock n
      let t := t.updLane n fun y => { y with cdr := false, rxEidle := Config.free (55 * 2 ^ 32) s.fresh % 2 == 1 }
      let t := t.tickFresh
      let t := if x.st = 3 || x.st = 5 || s.fencedNow p then (t.setLane n 1).fence p 0x20 0 n else t
      s.laneAfter t n 0x20
/-- EXIT_TIMEOUT: no block lock within 4 × BURST blocks of the start of a fast exit (R334, R340). -/
def execExitTimeout (l : Lane) (s : State) : Host.Outcome State Fault Refusal :=
  let n := l.val
  .next (if (s.laneAt n).st ≠ 5 || s.tick < s.exitLimit n then s else s.exitFail n)
/-- SAMPLER_STEP: 64 blocks after the previous step the data sampler moves one unit towards LANE_SAMP, its phase first
(R338). -/
def execSamplerStep (l : Lane) (s : State) : Host.Outcome State Fault Refusal :=
  let n := l.val
  let p := pLANE n
  let toward := fun (v w : Int) => if v < w then v + 1 else if w < v then v - 1 else v
  .next <|
    if 128 ≤ n || s.tick < (s.laneAt n).lastStep + 192 then s
    else s.updLane n fun x =>
      let ph := sgn 8 (s.ap p R.LANE_SAMP_PHASE)
      let th := sgn 8 (s.ap p R.LANE_SAMP_THR)
      if x.phase ≠ ph then { x with phase := toward x.phase ph, lastStep := s.tick }
      else if x.thr ≠ th then { x with thr := toward x.thr th, lastStep := s.tick }
      else x

/-! ### PRBS (R339) -/

/-- The bits checked since SYNC are counted: 165 in a tick at 25.78125 Gbaud. -/
def State.prbsCount (s : State) (l : Nat) : State :=
  let p := pLANE l
  if s.flag p R.LANE_PRBS_STAT then
    (s.add64 p R.LANE_PRBS_BITS_LO R.LANE_PRBS_BITS_HI (165 * (s.tick - (s.laneAt l).prbsAt))).updLane l fun x =>
      { x with prbsAt := s.tick }
  else s
/-- The checker stops: SYNC clears. -/
def State.prbsStop (s : State) (l : Nat) : State := (s.prbsCount l).set (pLANE l) R.LANE_PRBS_STAT 0
/-- The taps of a sequence: the bit entering its register is the exclusive or of two bits of it, those of x^m and x^k (R339). POLY 4 to 7
act as 3. -/
def prbsTaps (poly : Nat) : Nat × Nat :=
  match poly with
  | 0 => (7, 6)
  | 1 => (9, 5)
  | 2 => (23, 18)
  | _ => (31, 28)
/-- The next bit of a sequence and its register after it, bit 0 the newest (R339). -/
def prbsNext (poly reg : Nat) : Bool × Nat :=
  let m := (prbsTaps poly).1
  let b := bit reg (m - 1) != bit reg ((prbsTaps poly).2 - 1)
  (b, (2 * reg + b2n b) % 2 ^ m)
/-- What the transmitter of lane l sends (R328, R339): nothing, blocks, or in MAINT the raw sequence of a POLY or zeros. -/
def State.laneTx (s : State) (l : Nat) : LaneTx :=
  let st := (s.laneAt l).st
  if s.inReset || !s.enabled (pLANE l) || (s.laneAt l).txIdle || st = 4 then .idle
  else if st = 6 then (if s.flag (pLANE l) R.LANE_PRBS_GEN then .prbs (prbsTaps (s.get (pLANE l) R.LANE_PRBS_POLY)) else .zeros)
  else .blocks
/-- PRBS_SYNC: the checker's report since the one before. While SYNC is clear it sets after 64 matching bits; while it is set each of the
`errs` mismatches counts, and 64 of them within 1,024 bits clear it (R339). -/
def execPrbsSync (l : Lane) (sync : PrbsReport) (s : State) : Host.Outcome State Fault Refusal :=
  let n := l.val
  let errs := sync.errs
  let p := pLANE n
  .next <|
    if (s.laneAt n).st ≠ 6 || !s.flag p R.LANE_PRBS_CHK then s
    else if s.flag p R.LANE_PRBS_STAT then
      (if sync.sync || errs < 64 then s.prbsCount n else s.prbsStop n).addSat p R.LANE_PRBS_ERR errs
    else if sync.sync then (s.updLane n fun x => { x with prbsAt := s.tick }).set p R.LANE_PRBS_STAT 1
    else s
/-- What a write of LANE_PRBS does: CHK from 0 to 1 clears both counters. -/
def lanePrbsAct (l v : Nat) (s : State) : State :=
  let p := pLANE l
  let t := s.prbsCount l
  let t := t.storeReg p 0x70 v
  if !bit v 6 then t.set p R.LANE_PRBS_STAT 0
  else if s.flag p R.LANE_PRBS_CHK then t
  else (t.set64 p R.LANE_PRBS_BITS_LO R.LANE_PRBS_BITS_HI 0).set p R.LANE_PRBS_ERR 0
/-- What a write of LANE_CTRL does: commanded idle and maintenance begin or end (R334, R339). -/
def laneCtrlAct (l v : Nat) (s : State) : State :=
  let t := ((s.storeReg (pLANE l) 0x40 v).laneIdle l).laneMaint l
  let t := if (s.laneAt l).st = 6 && (t.laneAt l).st != 6 then t.prbsStop l else t
  s.laneAfter t l 0

end Sys2Proof.Machine
end

