-- ==== Sys2Proof/Machine/Boot.lean ====
section
/-! DEFINITION. The boot sequencer's commands: STEP_CLK, STEP_FLASH, STEP_BOARD, STEP_PROF, STEP_LANES, STEP_CROOK, STEP_DRAM,
CHANNEL_TRAINED, STEP_CAL, BOOT_RETRY, BOOT_CMD_RETRY, and the boot flash: READ, PROG, ERASE4K, ERASE64K, FLASH_OPERATION_END
(R368 to R371, R377, R379, R383). -/

namespace Sys2Proof.Machine

/-- The attempt of step i has begun and is counted. -/
def State.stepBegin (s : State) (i : Nat) : State :=
  (s.tryStep i).updBoot fun b => { b with attempt := setBit b.attempt i false }
/-- Step i fails with a code: RETRY, and its next attempt falls due after the interval (R369). -/
def State.stepFail (s : State) (i code addr : Nat) : State := ((s.bootErr code i addr).setStep i 3).backOff i
/-- Step i is done. -/
def State.stepDone (s : State) (i : Nat) : State := (s.backOk i).setStep i 2

/-! ### Step CLK (R367, R368, R383) -/

/-- The main PLL has locked again after a loss: the lanes come up as in steps LANES and CROOK, and a unit of a pair joins afresh
(R383; log 57). -/
def State.relock (s : State) : State :=
  let s := s.each (List.range 160) fun t l => t.updLane l fun x => { x with txIdle := false }
  let s := s.each (List.range 128 ++ (List.range 4).map (132 + ·)) fun t l =>
    if (t.laneAt l).st = 1 && t.working (pLANE l) then t.searchStart l true else t
  let s := s.updPair fun p => { p with pllLost := false }
  if s.pairOn then (s.updPair fun p => { p with waitSince := s.tick }).setPairState 2 else s
/-- STEP_CLK: step CLK ends with the main PLL locked for 100 µs, or without lock (R368). -/
def execStepClk (locked : Bool) (s : State) : Host.Outcome State Fault Refusal :=
  .next <|
    if !s.stepTaken 0 || s.shut then s
    else
      let lost := s.heldClock
      let s := s.stepBegin 0
      if !locked then s.stepFail 0 0x20 0
      else
        let s := ({ s with pll := true, heldReset := false, heldClock := false }).set pLSTORE R.PG_CTRL_EN 1
        let s := if lost then s.relock else s
        s.stepDone 0

/-! ### The foreground steps from the flash (R207, R368, R370, R371) -/

/-- STEP_FLASH: the discovery parameters are read; none is no answer, no signature or no valid table (R368). -/
def execStepFlash (info : Option FlashInfo) (s : State) : Host.Outcome State Fault Refusal :=
  .next <|
    if !s.stepTaken 1 || s.shut then s
    else
      let s := s.stepBegin 1
      match info with
      | none => s.stepFail 1 0x23 0
      | some x =>
        if !x.fast144 then s.stepFail 1 0x23 0
        else
          let a4 := decide (24 < x.log2) && (x.addr4Instr || x.addr4Mode)
          let s := (s.setFlag pBOOT R.BOOT_FLASH_ADDR4 a4).set pBOOT R.BOOT_FLASH_LOG2 (if a4 then x.log2 else min 24 x.log2)
          let s := (s.setFlag pBOOT R.BOOT_FLASH_E4K x.erase4k).setFlag pBOOT R.BOOT_FLASH_E64K x.erase64k
          (s.updBoot fun b => { b with flash := some x }).stepDone 1
/-- STEP_BOARD: the board record, or the defaults; a second read finds the same bytes (R370, R371; log 125). -/
def execStepBoard (s : State) : Host.Outcome State Fault Refusal :=
  .next <|
    if !s.stepTaken 2 || s.shut then s
    else
      let s := s.stepBegin 2
      let l := s.flashBytes 0 68
      let s := if boardValid l then s.updBoot fun b => { b with board := l, boardOk := true }
        else (s.bootErr 0xA1 2 0).updBoot fun b => { b with board := [], boardOk := false }
      s.stepDone 2
/-- STEP_PROF: the eight slots are copied, and LOADED sets (R207). -/
def execStepProf (s : State) : Host.Outcome State Fault Refusal :=
  .next <|
    if !s.stepTaken 3 || s.shut then s
    else
      let s := (s.stepBegin 3).each (List.range 8) State.slotCopy
      ({ s with prof := { s.prof with loaded := true } }).stepDone 3
/-- STEP_CAL: the record in force of each kind is installed (R290, R295, R368). -/
def execStepCal (s : State) : Host.Outcome State Fault Refusal :=
  .next <|
    if !s.stepTaken 7 || s.shut then s
    else
      let s := (s.stepBegin 7).each [1, 2, 3, 4, 5] fun t k =>
        match t.calInForce k with
        | some x => t.calInstall x.2
        | none => t.bootErr 0xA1 7 (calBank k 0)
      s.stepDone 7

/-! ### The background steps (R332, R333, R368) -/

/-- Bring up the lanes of a list that the board record names. -/
def State.bringUp (s : State) (ls : List Nat) : State := s.each (ls.filter s.laneNamed) State.laneBringUp
/-- STEP_LANES: the named head and feed lanes are enabled, and the head lanes searched. -/
def execStepLanes (s : State) : Host.Outcome State Fault Refusal :=
  .next <|
    if !s.stepTaken 4 || s.shut then s
    else
      let s := ((s.stepBegin 4).setStep 4 1).bringUp (List.range 128 ++ (List.range 24).map (136 + ·))
      s.feedSettle.lanesJudge 4
/-- STEP_CROOK: with PAIR_EN low nothing, else the named Crook lanes are enabled and searched (R25). -/
def execStepCrook (s : State) : Host.Outcome State Fault Refusal :=
  .next <|
    if !s.stepTaken 5 || s.shut then s
    else if !s.straps.pairEn then (s.stepBegin 5).setStep 5 5
    else (((s.stepBegin 5).setStep 5 1).bringUp ((List.range 4).map (132 + ·))).lanesJudge 5
/-- An attempt at step DRAM begins: the first counts one, and a retry one for each channel it takes up (R369; log 53). -/
def State.dramBegin (s : State) (take : Nat) : State :=
  if s.bootStep 6 = 0 then (s.stepBegin 6).setStep 6 1
  else s.each (((List.range 4).filter (bit take ·)).drop 1) (fun t _ => t.tryStep 6) |>.stepBegin 6
/-- STEP_DRAM: the SPD of the channels is read and checked against channel 0, and the channels that match train (R300, R301). A
retry takes up the channels that failed and are due. -/
def execStepDram (spd : List SpdInfo) (s : State) : Host.Outcome State Fault Refusal :=
  .next <|
    if !s.stepTaken 6 || s.shut then s
    else
      let take := if s.bootStep 6 = 0 then 15 else s.boot.chTry
      let s := (s.dramBegin take).updBoot fun b => { b with spd := spd, chTry := 0 }
      let c0 := spd.getD 0 SpdInfo.absent
      let s := s.each ((List.range 4).filter fun c => bit take c) fun t c =>
        let x := spd.getD c SpdInfo.absent
        if spdSupported x && spdAlike x c0 then
          t.updBoot fun b => { b with chRun := setBit b.chRun c true, chFail := setBit b.chFail c false }
        else t.channelFail c
      s.dramJudge
/-- CHANNEL_TRAINED: the training of channel c ends (R301, R369). With none in progress, nothing happens (log 2). -/
def execChannelTrained (c : DramCh) (ok : Bool) (s : State) : Host.Outcome State Fault Refusal :=
  let n := c.val
  .next <|
    if !bit s.boot.chRun n then s
    else if !ok then (s.channelFail n).dramJudge
    else
      let now := (List.range s.ranks).map fun r => (r, s.tick)
      let s := s.updDram n fun d => { d with trained := true, lastRef := now, lastRetrain := now }
      let s := s.updBoot fun b => { b with chRun := setBit b.chRun n false, chFail := setBit b.chFail n false }
      (s.backOk (0x200 + n)).dramJudge

/-! ### Retries (R369) -/

/-- The retry of a key begins: it is no longer due. -/
def State.retryBegin (s : State) (key : Nat) : State := s.updBoot fun b => { b with dueAt := b.dueAt.del key }
/-- BOOT_RETRY: the interval of a failing step, or of its lanes or channels, has elapsed. For steps 0, 1 and 6 the attempt is then
the step's own command; the lanes are searched at once. -/
def execBootRetry (step : Fin 8) (s : State) : Host.Outcome State Fault Refusal :=
  let i := step.val
  .next <|
    if s.inReset || s.shut then s
    else if i ≤ 1 then
      if s.bootStep i = 3 && s.retryDue i then
        (s.retryBegin i).updBoot fun b => { b with attempt := setBit b.attempt i true }
      else s
    else if i = 4 ∨ i = 5 then
      s.each (s.boot.failLanes.filter fun l => laneStep l == i && s.retryDue (0x100 + l)) fun t l =>
        (t.retryBegin (0x100 + l)).laneRetry l
    else if i = 6 then
      let m := (List.range 4).filter fun c => bit s.boot.chFail c && s.retryDue (0x200 + c)
      if m.isEmpty then s
      else (s.each m fun t c => t.retryBegin (0x200 + c)).updBoot fun b =>
        { b with attempt := setBit b.attempt 6 true, chTry := m.foldl (fun a c => setBit a c true) b.chTry }
    else s
/-- What a write of BOOT_CMD does: every step in RETRY is due at once, its interval MIN (R369). A CROOK step that waits is none. -/
def bootCmdAct (v : Nat) (s : State) : State :=
  if !bit v 0 then s
  else
    let mine := fun (k : Nat) => s.bootStep (if k < 0x100 then k else if k < 0x200 then laneStep (k - 0x100) else 6) == 3
    s.updBoot fun b => { b with
      dueAt := b.dueAt.map fun e => if mine e.1 then (e.1, s.osc) else e
      interval := b.interval.filter fun e => !mine e.1 }
/-- BOOT_CMD_RETRY: a host write of BOOT_CMD.RETRY. -/
def execBootCmdRetry (s : State) : Host.Outcome State Fault Refusal := .next (s.writeWith pBOOT 0x4C 1 (bootCmdAct 1))

/-! ### Access to the boot flash (R377) -/

/-- Bytes that an operation covers. -/
def State.flashLen (s : State) (op : Nat) : Nat :=
  if op = 2 then 0x1000 else if op = 3 then 0x10000 else s.get pBOOT R.BOOT_FL_LEN
/-- The operation is refused for a reason other than the lock. -/
def State.flashRefused (s : State) (op : Nat) : Bool :=
  let a := s.get pBOOT R.BOOT_FL_ADDR
  let n := s.flashLen op
  s.bootStep 1 != 2 || (op ≤ 1 && !s.dramReady)
    || (if op = 0 then n % 64 != 0 else if op = 1 then a % 256 != 0 || n % 256 != 0 else a % n != 0)
    || decide (2 ^ s.get pBOOT R.BOOT_FLASH_LOG2 < a + n)
    || (op == 2 && !s.flag pBOOT R.BOOT_FLASH_E4K) || (op == 3 && !s.flag pBOOT R.BOOT_FLASH_E64K)
/-- What a write of BOOT_FL_CMD does: OP is stored, and GO starts it, is ignored while BUSY is set, or is refused (log 58). -/
def bootFlAct (v : Nat) (s : State) : State :=
  let s := s.storeReg pBOOT 0xD0 v
  let op := field v 0 2
  if !bit v 31 || s.flag pBOOT R.BOOT_FL_STAT_BUSY then s
  else if s.flashRefused op then s.set pBOOT R.BOOT_FL_STAT_RESULT 2
  else if op ≠ 0 && s.flag pBOOT R.PG_LOCK_LOCKED then s.set pBOOT R.BOOT_FL_STAT_RESULT 3
  else
    let s := (s.set pBOOT R.BOOT_FL_STAT_RESULT 0).set pBOOT R.BOOT_FL_STAT_BUSY 1
    s.updBoot fun b => { b with
      op := some (op, s.get pBOOT R.BOOT_FL_ADDR, s.flashLen op, s.get64 pBOOT R.BOOT_FL_DRAM_LO R.BOOT_FL_DRAM_HI)
      opAfter := s.prof.reloads.length }
/-- A host write of BOOT_FL_CMD with GO and an OP. -/
def State.flashGo (s : State) (op : Nat) : State := s.writeWith pBOOT 0xD0 (2 ^ 31 + op) (bootFlAct (2 ^ 31 + op))
/-- READ: BOOT_FL_CMD GO with OP 0. -/
def execRead (s : State) : Host.Outcome State Fault Refusal := .next (s.flashGo 0)
/-- PROG: BOOT_FL_CMD GO with OP 1. -/
def execProg (s : State) : Host.Outcome State Fault Refusal := .next (s.flashGo 1)
/-- ERASE4K: BOOT_FL_CMD GO with OP 2. -/
def execErase4k (s : State) : Host.Outcome State Fault Refusal := .next (s.flashGo 2)
/-- ERASE64K: BOOT_FL_CMD GO with OP 3. -/
def execErase64k (s : State) : Host.Outcome State Fault Refusal := .next (s.flashGo 3)

/-- The sequencer's DRAM requests carry a requester number that no rule gives (log 59). -/
def State.bootReq (s : State) : Nat := Config.free (59 * 2 ^ 32) s.fresh
/-- The data of an operation that ends, with its RESULT (R377). After a flash timeout, what the operation leaves is unstated
(log 60). -/
def State.flashEnd (s : State) (op a n d : Nat) (timeout : Bool) : State × Nat :=
  let junk := (List.range n).map fun i => BitVec.ofNat 8 (Config.free (60 * 2 ^ 32 + i) s.fresh)
  if op = 0 then
    (s.dramWrite d (if timeout then junk else s.flashBytes a n) s.bootReq, if timeout then 5 else 1)
  else if op = 1 then
    let r := s.dramRead d n s.bootReq s.bootReq
    let new := (r.2.1.zip (s.flashBytes a n)).map fun e => e.1 &&& e.2
    (r.1.flashSets a (if timeout then junk else new), if timeout then 5 else if new = r.2.1 then 1 else 4)
  else (s.flashSets a (if timeout then junk else List.replicate n 0xFF), if timeout then 5 else 1)
/-- FLASH_OPERATION_END: the running flash operation ends (R377). The reloads asked for before it come first, and its DRAM access
stands at level 5 (R29, R301, R377). -/
def execFlashOperationEnd (timeout : Bool) (s : State) : Host.Outcome State Fault Refusal :=
  .next <|
    match s.boot.op with
    | none => s
    | some (op, a, n, d) =>
      if s.boot.opAfter ≠ 0 || s.shut || (decide (op ≤ 1) && !s.dramServed 5 d n s.bootReq) then s
      else
        let r := s.flashEnd op a n d timeout
        let t := (r.1.tickFresh.updBoot fun b => { b with op := none }).set pBOOT R.BOOT_FL_STAT_BUSY 0
        ((t.set pBOOT R.BOOT_FL_STAT_RESULT r.2).cause pBOOT 5).reloadStart

end Sys2Proof.Machine
end

