-- ==== Sys2Proof/Machine/Time.lean ====
section
/-! DEFINITION. The time base and the balls it drives: TIME_CMD_SET, TIME_CMD_STEP, TIME_CMD_SLEW, TIME_CMD_SNAP, SLEW_END,
TIME_CMP_ARM, TIME_CMP_DISARM, COMPARE_FIRE, PINMUX_PULSE_END, and the tick (R18, R19, R354 to R362, R405). -/

namespace Sys2Proof.Machine

/-! ### The counter (R354 to R357) -/

/-- INC in units of 2^-32 ns (R354, R362). -/
def State.timeInc (s : State) : Nat := max 5 (s.get pTIME R.TIME_INC_NS) * 2 ^ 32 + s.get pTIME R.TIME_INC_FRAC
/-- C as one number of units of 2^-32 ns. -/
def State.timeC (s : State) : Nat := s.cNs * 2 ^ 32 + s.cFrac
/-- Load C, modulo 2^96. -/
def State.setC (s : State) (v : Int) : State :=
  let n := uns 96 v
  { s with cNs := n / 2 ^ 32, cFrac := n % 2 ^ 32 }
/-- Latch C into TIME_SNAP (R357); VEC of a snapshot that software asked for is unstated (log 62). -/
def State.snapshot (s : State) (sw : Bool) (vec : Nat) : State :=
  let p := pTIME
  let s := ((s.set p R.TIME_SNAP_LO s.cNs).set p R.TIME_SNAP_HI (s.cNs / 2 ^ 32)).incWrap p R.TIME_SNAP_INFO_SEQ
  let s := (s.setFlag p R.TIME_SNAP_INFO_SW sw).set p R.TIME_SNAP_INFO_VEC
    (if sw then Config.free (62 * 2 ^ 32) s.fresh else vec)
  (s.tickFresh).cause p 19
/-- The tick does not stand still: the main PLL has not been lost, and RESET_N is high (R19, R383). -/
def State.ticks (s : State) : Bool := !s.inReset && !s.heldClock
/-- One tick: C advances, and the commands of TIME_CMD act (R354, R356). -/
def State.tickC (s : State) : State :=
  let p := pTIME
  let c := s.timeCmd
  let step := if bit c 1 then sgn 64 (s.get64 p R.TIME_STEP_LO R.TIME_STEP_HI) * 2 ^ 32 else 0
  let left := if bit c 3 then s.get p R.TIME_SLEW_N else s.get p R.TIME_SLEW_LEFT
  let adv := if !s.enabled p then 0
    else (s.timeInc : Int) + if left = 0 then 0 else sgn 32 (s.get p R.TIME_SLEW)
  let s := if bit c 0 then s.setC (s.get64 p R.TIME_SET_LO R.TIME_SET_HI * 2 ^ 32) else s.setC (s.timeC + adv + step)
  let s := s.set p R.TIME_SLEW_LEFT (if s.enabled p then left - 1 else left)
  let s := { s with tick := s.tick + 1, timeCmd := 0 }
  if bit c 2 then s.snapshot true 0 else s
/-- What happens on an empty queue: one period of 6.4 ns passes, the balls take the levels that come to them, and DRAM serves what waited
(logs 1, 5). -/
def State.clockTick (s : State) : State :=
  if s.inReset then s
  else
    let s := { s with osc := s.osc + 1, mfioIn := Config.mfioLevel s.fresh s.osc }
    if s.ticks then s.tickC.dramWake else s

/-- What a write of TIME_CMD does: its commands act at the next tick (R356). -/
def timeCmdAct (v : Nat) (s : State) : State := { s with timeCmd := s.timeCmd ||| field v 0 4 }
/-- TIME_CMD_SET: a host write of TIME_CMD.SET. -/
def execTimeCmdSet (s : State) : Host.Outcome State Fault Refusal := .next (s.writeWith pTIME 0x70 1 (timeCmdAct 1))
/-- TIME_CMD_STEP: a host write of TIME_CMD.STEP. -/
def execTimeCmdStep (s : State) : Host.Outcome State Fault Refusal := .next (s.writeWith pTIME 0x70 2 (timeCmdAct 2))
/-- TIME_CMD_SNAP: a host write of TIME_CMD.SNAP. -/
def execTimeCmdSnap (s : State) : Host.Outcome State Fault Refusal := .next (s.writeWith pTIME 0x70 4 (timeCmdAct 4))
/-- TIME_CMD_SLEW: a host write of TIME_CMD.SLEW. -/
def execTimeCmdSlew (s : State) : Host.Outcome State Fault Refusal := .next (s.writeWith pTIME 0x70 8 (timeCmdAct 8))
/-- SLEW_END: the tick at which the slew's count runs out, and S is 0 from then on (R356; log 63). -/
def execSlewEnd (s : State) : Host.Outcome State Fault Refusal :=
  .next (if s.ticks && s.enabled pTIME && s.get pTIME R.TIME_SLEW_LEFT == 1 then s.clockTick else s)

/-! ### Compare units (R358 to R360) -/

/-- Arm unit k with a target at this tick. -/
def State.cmpSet (s : State) (k target : Nat) : State :=
  ({ s with cmpAt := s.cmpAt.put k (target, s.tick) }).set pTIME (R.TIME_CMP_CTRL_ARMED.nth 16 k) 1
/-- Disarm unit k. -/
def State.cmpClear (s : State) (k : Nat) : State :=
  ({ s with cmpAt := s.cmpAt.del k }).set pTIME (R.TIME_CMP_CTRL_ARMED.nth 16 k) 0
/-- Unit k is armed, and C has reached its target at a tick after the arming (R354, R358). -/
def State.cmpDue (s : State) (k : Nat) : Bool :=
  let a := s.cmpAt.getD k (0, 0)
  s.ticks && s.enabled pTIME && s.cmpAt.has k && decide (a.2 < s.tick) && decide (0 ≤ diff64 s.cNs a.1)
/-- The reload period of an owner (R222, R359). -/
def State.cmpReload (s : State) (owner : Nat) : Nat :=
  match owner with
  | 2 => s.get (pCAM 0) R.CAM_FPER
  | 3 => s.get (pCAM 1) R.CAM_FPER
  | 4 => s.get pCHANT R.CHANT_PER
  | 5 => max 1563 (s.ap pBREATH R.BREATH_PER)
  | _ => 0
/-- The owner of a unit receives its event (R359). -/
def State.cmpEvent (s : State) (owner : Nat) : State :=
  match owner with
  | 2 => s.trig1Fire 0
  | 3 => s.trig1Fire 1
  | 4 => s.cycleFire
  | 5 => s.breathUpdate
  | _ => s
/-- Unit k fires if it is due (R358, R359). -/
def State.cmpFire (s : State) (n : Nat) : State :=
  if !s.cmpDue n then s
  else
    let owner := s.unitOwner n
    let per := s.cmpReload owner
    let t := ((s.cmpClear n).set pTIME (R.TIME_CMP_CTRL_FIRED.nth 16 n) 1).set pTIME (R.TIME_CMP_T.nth 16 n) s.cNs
    let t := t.cause pTIME (3 + n)
    let t := if per = 0 then t
      else
        let a := (s.cNs + 32 * per / 5) % 2 ^ 64
        (t.set64 pTIME (R.TIME_CMP_LO.nth 16 n) (R.TIME_CMP_HI.nth 16 n) a).cmpSet n a
    (t.cmpEvent owner).pulsesFor [0, 1] fun sel => sel == n
/-- COMPARE_FIRE: unit k fires (R358, R359). Where it is not due, nothing happens (log 2). -/
def execCompareFire (k : CmpUnit) (s : State) : Host.Outcome State Fault Refusal := .next (s.cmpFire k.val)

/-- What a write of TIME_CMP_LO of unit k does: it is the first half of an arming write, which comes after a firing that is due at the same
tick (R32, R360). -/
def timeLoAct (k v : Nat) (s : State) : State := (s.cmpFire k).storeReg pTIME (0x100 + 16 * k) v
/-- What a write of TIME_CMP_HI of unit k does: it arms, after a firing that is due at the same tick (R358, R360). -/
def timeArmAct (k v : Nat) (s : State) : State :=
  let s := (s.cmpFire k).storeReg pTIME (0x104 + 16 * k) v
  let target := s.get64 pTIME (R.TIME_CMP_LO.nth 16 k) (R.TIME_CMP_HI.nth 16 k)
  let s := (s.set pTIME (R.TIME_CMP_CTRL_FIRED.nth 16 k) 0).setFlag pTIME (R.TIME_CMP_CTRL_LATE.nth 16 k)
    (decide (diff64 target s.cNs < 0))
  s.cmpSet k target
/-- TIME_CMP_ARM: a host write of TIME_CMP_HI. -/
def execTimeCmpArm (k : CmpUnit) (hi : W32) (s : State) : Host.Outcome State Fault Refusal :=
  .next (s.writeWith pTIME (0x104 + 16 * k.val) hi.toNat (timeArmAct k hi.toNat))
/-- What a write of TIME_CMP_CTRL of unit k does: SW_EN, then DISARM (R358, R359). -/
def timeCtrlAct (k v : Nat) (s : State) : State :=
  let s := s.storeReg pTIME (0x108 + 16 * k) v
  if bit v 0 then s.cmpClear k else s
/-- TIME_CMP_DISARM: a host write of TIME_CMP_CTRL with DISARM 1 that leaves SW_EN as it stands. -/
def execTimeCmpDisarm (k : CmpUnit) (s : State) : Host.Outcome State Fault Refusal :=
  let v := 1 + 256 * s.get pTIME (R.TIME_CMP_CTRL_SW_EN.nth 16 k)
  .next (s.writeWith pTIME (0x108 + 16 * k.val) v (timeCtrlAct k v))

/-- A soft reset of TIME: every unit is disarmed; C goes on (R362). -/
def State.timeReset (s : State) : State := { s with cmpAt := [], timeCmd := 0 }

/-- PINMUX_PULSE_END: the pulse of function k ends WIDTH ticks after its latest event (R405). -/
def execPinmuxPulseEnd (k : Fin 4) (s : State) : Host.Outcome State Fault Refusal :=
  .next (if s.pulses.has k && s.pulses.getD k 0 ≤ s.tick then { s with pulses := s.pulses.del k } else s)

end Sys2Proof.Machine
end

