-- ==== Sys2Proof/Machine/Hostif.lean ====
section
/-! DEFINITION. The PCI Express endpoint and the interrupt vectors: PCIE_RESET, ENDPOINT_READY, MSIX_MESSAGE,
COAL_HOLDOFF_EXPIRY, and writes of the configuration space (R344, R347 to R352). -/

namespace Sys2Proof.Machine

/-- A vector may send: MSI-X is enabled, and neither the function nor the vector is masked (R349). -/
def State.msixOpen (s : State) (v : Nat) : Bool :=
  s.host.ready && s.flag pHOSTIF R.HOSTIF_LINK_MSIX_EN && !s.flag pHOSTIF R.HOSTIF_LINK_FMASK
    && !s.flag pHOSTIF (R.MSIX_MASK.nth 16 v)
/-- The holdoff of vector v runs (R351). -/
def State.msixHeld (s : State) (v : Nat) : Bool :=
  s.get pHOSTIF R.HOSTIF_COAL != 0 && s.host.sentAt.has v
    && decide (s.tick < s.host.sentAt.getD v 0 + usTicks (s.get pHOSTIF R.HOSTIF_COAL))
/-- The waiting message of vector v goes out, with a snapshot where it is configured (R349, R350, R357). -/
def State.msixSend (s : State) (v : Nat) : State :=
  let s := (s.updHost fun h => { h with waiting := h.waiting.filter (· != v), sentAt := h.sentAt.put v s.tick }).emit
    (.msix v (s.get64 pHOSTIF (R.MSIX_ADDR_LO.nth 16 v) (R.MSIX_ADDR_HI.nth 16 v)) (s.get pHOSTIF (R.MSIX_DATA.nth 16 v)))
  if s.flag pTIME R.TIME_SNAP_CFG_EN && s.get pTIME R.TIME_SNAP_CFG_VEC == v then s.snapshot false v else s
/-- MSIX_MESSAGE: vector v sends the message that waits (R349, R350). -/
def execMsixMessage (v : Vec) (s : State) : Host.Outcome State Fault Refusal :=
  .next (if s.host.waiting.contains v.val && s.msixOpen v && !s.msixHeld v then s.msixSend v else s)
/-- COAL_HOLDOFF_EXPIRY: the holdoff of vector v has ended, and the message that waits for it is sent (R351). -/
def execCoalHoldoffExpiry (v : Vec) (s : State) : Host.Outcome State Fault Refusal :=
  .next (if s.get pHOSTIF R.HOSTIF_COAL != 0 && s.host.sentAt.has v.val && s.host.waiting.contains v.val && s.msixOpen v
    && !s.msixHeld v then s.msixSend v else s)

/-- HOSTIF_LINK.UP changes. -/
def State.setLink (s : State) (up : Bool) : State :=
  if s.flag pHOSTIF R.HOSTIF_LINK_UP = up then s else (s.setFlag pHOSTIF R.HOSTIF_LINK_UP up).cause pHOSTIF 3
/-- ENDPOINT_READY: the link has trained to 1, 2 or 4 lanes at a speed, and the endpoint serves (R344, R347). -/
def execEndpointReady (width : Fin 3) (speed : Fin 4) (s : State) : Host.Outcome State Fault Refusal :=
  .next <|
    if s.inReset then s
    else
      let s := s.updHost fun h => { h with ready := true }
      ((s.set pHOSTIF R.HOSTIF_LINK_WIDTH (2 ^ width.val)).set pHOSTIF R.HOSTIF_LINK_SPEED (speed.val + 1)).setLink true

/-- Fields that a PCI Express reset leaves: the header, HOSTIF_FAULT_EN, HOSTIF_WARN_EN and HOSTIF_SWPIN (R348). -/
def pcieKeeps (id : Nat) : Bool :=
  let off := id / 32
  off < 0x40 || off == 0x54 || off == 0x5C || off == 0x60
/-- PCIE_RESET: PERST_N, a hot reset or link down (R348). -/
def execPcieReset (_e : PcieEvent) (s : State) : Host.Outcome State Fault Refusal :=
  .next <|
    if s.inReset then s
    else
      let up := s.flag pHOSTIF R.HOSTIF_LINK_UP
      let bme := s.flag pHOSTIF R.HOSTIF_LINK_BME
      let t := { s with
        host := {}
        regs := (List.range 4).foldl (fun m i => m.dropPage (pLANE (128 + i)) fun _ => false) (s.regs.dropPage pHOSTIF pcieKeeps) }
      let t := if up then t.cause pHOSTIF 3 else t
      if bme then t.cause pHOSTIF 4 else t

/-- The address bits of BAR word k that can be written: 128 MiB for BAR0, 4 GiB for BAR2 (R345). -/
def barMask (k : Nat) : Nat :=
  match k with
  | 0 => 2 ^ 32 - 2 ^ 27
  | 1 | 3 => 2 ^ 32 - 1
  | _ => 0
/-- The type bits of BAR word k: a 64-bit memory BAR, prefetchable for BAR2 (R345; log 12). -/
def barType (k : Nat) : Nat :=
  match k with
  | 0 => 4
  | 2 => 12
  | _ => 0
/-- What a configuration read of a register returns (R344, R345, R349; log 12). -/
def State.cfgWord (s : State) (r : CfgReg) : Nat :=
  match r with
  | .busMaster => s.get pHOSTIF R.HOSTIF_LINK_BME
  | .powerState => if s.host.d3 then 3 else 0
  | .msixEnable => s.get pHOSTIF R.HOSTIF_LINK_MSIX_EN
  | .functionMask => s.get pHOSTIF R.HOSTIF_LINK_FMASK
  | .vendorId | .subsystemVendorId => 0x1D8C
  | .deviceId | .subsystemId => 0x0880
  | .revisionId => 0xB0
  | .classCode => 0x118000
  | .headerType | .interruptPin => 0
  | .bar k => s.host.bars.getD k 0 + barType k
  | .capability k => [0x10, 0x01, 0x11, 0x0001].getD k 0
  | .maxPayloadSupported => 512
  | .completionTimeout => s.host.cto
  | .linkSpeed => s.get pHOSTIF R.HOSTIF_LINK_SPEED
  | .linkWidth => s.get pHOSTIF R.HOSTIF_LINK_WIDTH
  | .msixSize => 64
  | .msixTable => 0x30800
  | .msixPba => 0x30C00
/-- A configuration read: Configuration Request Retry Status until the endpoint is ready (R347). -/
def State.cfgRead (s : State) (r : CfgReg) : State :=
  if s.inReset then s
  else if !s.host.ready then s.emit .cfgRetry
  else { s with rdata := leBytes 4 (s.cfgWord r) }
/-- A configuration write, performed once the endpoint is ready and answered with Configuration Request Retry Status before; each field
lies in the byte that holds its bit 0 of the value (R344, R347; log 12). A register that cannot be written keeps its value. -/
def State.cfgWrite (s : State) (r : CfgReg) (v be : Nat) : State :=
  if s.inReset then s
  else if !s.host.ready then s.emit .cfgRetry
  else if let .bar k := r then
    let old := s.host.bars.getD k 0
    let new := leNat ((List.range 4).map fun i => if bit be i then BitVec.ofNat 8 (v / 256 ^ i) else BitVec.ofNat 8 (old / 256 ^ i))
    s.updHost fun h => { h with bars := h.bars.put k (new &&& barMask k) }
  else if !bit be 0 then s
  else
    match r with
    | .completionTimeout => s.updHost fun h => { h with cto := field v 0 5 }
    | .busMaster =>
      let t := s.setFlag pHOSTIF R.HOSTIF_LINK_BME (bit v 0)
      if s.flag pHOSTIF R.HOSTIF_LINK_BME && !bit v 0 then t.cause pHOSTIF 4 else t
    | .powerState =>
      if field v 0 2 = 3 then s.updHost fun h => { h with d3 := true }
      else if field v 0 2 = 0 then s.updHost fun h => { h with d3 := false } else s
    | .msixEnable => s.setFlag pHOSTIF R.HOSTIF_LINK_MSIX_EN (bit v 0)
    | .functionMask => s.setFlag pHOSTIF R.HOSTIF_LINK_FMASK (bit v 0)
    | _ => s

end Sys2Proof.Machine
end

