-- ==== Sys2Proof/Machine/Reset.lean ====
section
/-! DEFINITION. Soft resets by page (R37, R48, R376), what PG_CTRL.EN of each block starts and stops (R36), and the fence row's
shared operation. -/

namespace Sys2Proof.Machine

/-! ### Which registers a soft reset returns to Reset (R37, R376) -/

/-- The bar whose boundary a page's soft reset waits for: DEC, PIPE, HEAD and LANE0–127 pages (R37). -/
def waitBar (p : Nat) : Option Nat :=
  match blkOf p with
  | some (.dec, i) | some (.pipe, i) => some i
  | some (.head, i) => some (i / 16)
  | some (.lane, i) => if i < 128 then some (i / 16) else none
  | _ => none
/-- A soft reset of the page clears its counters and error registers only (R376). -/
def countersOnly (b : Blk) : Bool :=
  match b with
  | .boot | .lstore | .dramc | .dram | .scrub => true
  | _ => false
/-- The counters of such a page. -/
def counterFields (b : Blk) : List Fld :=
  match b with
  | .boot => (List.range 8).map (R.BOOT_TRY.nth 4 ·)
  | .lstore => [R.LSTORE_CORR_CNT, R.LSTORE_UNC_CNT, R.LSTORE_REP_CNT, R.LSTORE_APER_UNC]
  | .dramc => [R.DRAMC_THR_CNT, R.DRAMC_TRR_CNT, R.DRAMC_FREF_CNT, R.DRAMC_PANIC_CNT]
  | .dram => [R.DRAM_MIG_POISON, R.DRAM_CORR_CNT, R.DRAM_UNC_CNT, R.DRAM_POISON_CNT, R.DRAM_REP_CNT, R.DRAM_PAR_CNT,
      R.DRAM_PAR_FAIL, R.DRAM_TRAIN_CNT, R.DRAM_TRAIN_FAIL]
  | .scrub => [R.SCRUB_CORR, R.SCRUB_UNC, R.SCRUB_POISON, R.SCRUB_FIRST_LO, R.SCRUB_FIRST_HI]
  | _ => []
/-- A soft reset of page p keeps the field (R37, R361, R376; log 65 for HOSTIF_LINK). -/
def State.softKeeps (s : State) (b : Blk) (id : Nat) : Bool :=
  let off := id / 32
  id == R.PG_FENCE_COUNT.id ||
  if countersOnly b then
    !((0x1C ≤ off && off ≤ 0x28) || off == 0x34 || (counterFields b).any fun f => f.id == id)
  else match b with
    | .sys => off == 0x44 || off == 0x4C || 0x100 ≤ off
    | .hostif => off == 0x40 || off == 0x44 || off == 0x48 || 0x800 ≤ off
    | .therm => off == 0x50 && s.shut && id != R.THERM_STAT_WARN.id
    | .head => off == R.HEAD_TEMP.off || id == R.HEAD_STAT_CAP.id || id == R.HEAD_STAT_HOT.id
    | _ => false
/-- PG_CTRL.EN as the boot sequencer set it (R34, R48, R342). -/
def State.bootEn (s : State) (b : Blk) (i : Nat) : Nat :=
  b2n (match b with
    | .lstore => !s.heldReset
    | .dramc | .dram => s.bootStep 6 == 2
    | .lane => s.laneNamed i && (let k := s.bootStep (laneStep (if i < 136 then i else 0)); k != 0 && k != 5)
    | _ => false)
/-- The Reset value of PAIR_CTRL.SOLO is the HOME strap (R250). -/
def State.soloReset (s : State) : State := s.setFlag pPAIR R.PAIR_CTRL_SOLO s.straps.home
/-- The registers of page p after its soft reset. -/
def State.softRegs (s : State) (p : Nat) (b : Blk) (i : Nat) : State :=
  let t := { s with
    regs := s.regs.dropPage p (s.softKeeps b)
    latch := s.latch.dropPage p fun _ => false }
  if countersOnly b then t.upd p R.PG_IRQ_RAW fun v => andNot v 2
  else
    let t := { t with
      pendv := t.pendv.dropPage p fun _ => false
      appl := (if b = .headc then List.range 8 else []).foldl (fun m k => m.dropPage (0x400 + k) fun _ => false)
        (t.appl.dropPage p fun _ => false)
      commits := t.commits.del p }
    if bootPage b i then t.set p R.PG_CTRL_EN (t.bootEn b i) else if b = .pair then t.soloReset else t

/-! ### What a soft reset does to the block's internal state (R376) -/

/-- Tile-lines handed over and not yet sent are discarded on the channels of the page, when the reset starts other than at
a boundary (R37; log 64). -/
def State.discardLines (s : State) (b : Blk) (i : Nat) : State :=
  let hs := match b with
    | .dec | .pipe => (List.range 16).map fun t => 16 * i + t
    | .head => [i]
    | .lane => if i < 128 then [i] else []
    | _ => []
  s.each hs fun t h => t.updHead h fun x => { x with queue := [], ready := [] }
/-- A lane's soft reset (R342). -/
def State.laneReset (s : State) (l : Nat) (release : Bool) : State :=
  if 128 ≤ l && l < 132 then s
  else
    let boot := (s.laneAt l).bootSearch
    let st := if s.bootEn .lane l = 1 then 1 else 0
    let clear := fun (x : LaneSt) => { x with
      st := st, slip := (if release then x.slip else 0), bootSearch := false, exitAt := 0, phase := 0, thr := 0 }
    let s := (((s.scanLost l).updLane l clear).tlmLane l st).dropLock l
    if boot then s.bootSearchEnd l false else s
/-- The internal state of a block at the start of its soft reset, before its registers return to Reset. -/
def State.softBlock (s : State) (b : Blk) (i : Nat) (release : Bool) : State :=
  match b with
  | .pinmux => { s with pulses := [] }
  | .time => s.timeReset
  | .pair => s.pairOff
  | .pos => s.updPos i fun x => { a := x.a, b := x.b, z := x.z, lastStart := x.lastStart }
  | .line => (s.lineDisable i).updLine i fun l => { early := l.early }
  | .breath => { s with breath := { warnUntil := s.breath.warnUntil } }
  | .dmac => (s.each (List.range 8) fun t k => if (t.jobAt k).running then t.jobStop k else t).each (List.range 8) fun t k =>
      t.updJob k fun e => { e with runs := [], carry := [], curLate := false, idleLast := false }
  | .dma => s.dmaStop i
  | .feed => s.feedReset i
  | .enc => s.updEnc i fun e => { taken := e.taken }
  | .dec => s.updDec i fun d => { d with ctxValid := 0, panic := false }
  | .pipe => (s.heldWrites i).updPipe i fun _ => {}
  | .cam => s.camDisable i
  | .camc => s.each (List.range 2) fun t c => t.updCam c fun x => { x with caps := [], trig0Pend := [] }
  | .chant => { s with chant := {} }
  | .cal => { s.calReset with calst := {} }
  | .head => s.updHead i fun x =>
      { applied := x.applied, lostCode := x.lostCode, ready := x.ready, cur := x.cur, afterFire := x.afterFire
        tlmSince := s.tick, tlmStop := x.tlmStop }
  | .lane => s.laneReset i release
  | _ => s
/-- What follows once the registers are at Reset. -/
def State.softAfter (s : State) (b : Blk) (i : Nat) : State :=
  match b with
  | .prof => s.profReset
  | .feedc | .feed => s.feedSettle
  | .lane => if 136 ≤ i then s.feedSettle else s
  | .head => s.laneIdle i
  | .dmac => s.each (List.range 8) State.decGo
  | .dramc => s.panicAll
  | _ => s
/-- The page returns to its soft-reset state at once. -/
def State.softClear (s : State) (p : Nat) (release : Bool) : State :=
  match blkOf p with
  | none => s
  | some (b, i) => ((s.softBlock b i release).softRegs p b i).softAfter b i

/-! ### Soft resets in time (R37, R48) -/

/-- The soft reset of page p starts, at a line boundary or not (R37). -/
def State.softStart (s : State) (p : Nat) (boundary : Bool) : State :=
  let r := s.srsts.getD p {}
  let t := { s with srsts := s.srsts.put p { r with running := true, since := s.tick, due := false } }
  let t := match blkOf p with
    | some (b, i) => if boundary then t else t.discardLines b i
    | none => t
  s.pairRise (t.softClear p r.release) 0 (match blkOf p with
    | some (.lane, l) => laneBar l
    | _ => 0)
/-- PG_CTRL.SRST is written 1: the soft reset starts, or waits for the boundary of the page's bar (R37). -/
def State.softRequest (s : State) (p : Nat) (release : Bool := false) : State :=
  let t := { s with srsts := s.srsts.put p { since := s.tick, release := release } }
  match waitBar p with
  | some b => if !release && s.enabled p && !s.fenced p && s.lineRuns b then t else t.softStart p false
  | none => t.softStart p false
/-- The last applied TEMP of head channel h is at or above T_limit (R131, R133, R135). -/
def State.headHot (s : State) (h : Nat) : Bool :=
  (s.headAt h).applied.any fun v => decide (sgn 16 (s.get pHEADC R.HEADC_TEMP_LIMIT) ≤ v)
/-- A fence cause that arose during the soft reset of instance i of a block is still present at its end (R384): a lane is then in DOWN,
where it meets none (R340, R342); a head channel's lane is fenced (R341), or its head hot (R133), and its telemetry timer has started
afresh; a LINE page's clock or source is lost (R157, R383). A cause that only the event reports is free (log 127). -/
def State.stillPresent (s : State) (b : Blk) (i c : Nat) : Bool :=
  if 0xF0 ≤ c then Config.causeStays s.fresh
  else match b with
    | .lane => false
    | .head =>
      if c = 0x20 ∨ c = 0x21 ∨ c = 0x23 then s.fenced (pLANE i) else if c = 0x51 then s.headHot i
      else if c = 0x22 then false else Config.causeStays s.fresh
    | .line => if c = 0x20 then !s.pll else s.fenced (pPOS (srcChannel i (s.get (pLINE i) R.LINE_CTRL_SRC)))
    | _ => Config.causeStays s.fresh
/-- The soft reset of page p completes; fence causes that arose meanwhile are judged, and those still present fence the page (R37, R384). -/
def State.softDone (s : State) (p : Nat) : State :=
  let t := { s with srsts := s.srsts.del p }
  match blkOf p, (s.srsts.getD p {}).causes with
  | some (b, i), c :: l =>
    match (c :: l).filter (s.stillPresent b i ·) with
    | [] => t.tickFresh
    | d :: m => t.tickFresh.fence p (m.foldl min d) 0 0 0 false
  | _, _ => t

/-! ### PG_CTRL.EN (R36) -/

/-- Chanter starts afresh when its EN changes to 1 (R297). -/
def State.chantEnable (s : State) : State :=
  let f := fun (x : TierSt) => ({ bank := x.bank } : TierSt)
  { s with chant := { zone := f s.chant.zone, col := f s.chant.col, cap := f s.chant.cap, capturing := s.chant.capturing } }
/-- A lane's search that ends without a result was the sequencer's: it has failed (R369). -/
def State.searchCut (s : State) (l : Nat) : State :=
  if (s.laneAt l).bootSearch && (s.laneAt l).st != 2 then
    (s.updLane l fun x => { x with bootSearch := false }).bootSearchEnd l false
  else s
/-- What a block does when its EN has changed to the value given. An enable of a head channel starts its telemetry timer afresh (log 110)
and judges cause 0x51 (R48, R131). HEADC's EN acts at each bar's next boundary (R17, R134; log 128). -/
def State.enEffect (s : State) (b : Blk) (i : Nat) (en : Bool) : State :=
  match b with
  | .pos => if en then s.posEnable i else s
  | .time => if en then { s with cmpAt := s.cmpAt.map fun e => (e.1, e.2.1, s.tick) } else s
  | .pair => s.pairEnable en
  | .line => if en then (s.lineEnable i).joinNote else s.lineDisable i
  | .breath => s.breathEnable en
  | .dmac => s.jobSettle.each (List.range 8) State.decGo
  | .dma => if en then s.dmaEnable i else s.dmaStop i
  | .feedc => s.feedSettle
  | .feed => (if en then s.feedEnable i else s).feedSettle
  | .dec => s.decGo i
  | .pipe => if en then s else s.updPipe i fun x => { x with work := none }
  | .head =>
    let t := s.updHead i fun x => if en then { x with judge := s.headHot i, tlmSince := s.tick }
      else { x with queue := [], ready := [], cur := none }
    t.laneIdle i
  | .lane =>
    let t := (s.laneEnable i en).searchCut i
    let t := if (s.laneAt i).st = 6 && (t.laneAt i).st != 6 then t.prbsStop i else t
    s.laneAfter t i 0
  | .camc => if en then s.camcEnable else s
  | .cam => if en then s else s.camDisable i
  | .chant => if en then s.chantEnable else s
  | .cal => if en then s else s.calReset
  | _ => s
/-- EN of the page ignores writes, uncounted (R34, R36, R245, chapter 13). With PAIR_EN low the Crook lanes stay disabled, in electrical
idle (R25, R368; log 119). -/
def State.enFixed (s : State) (b : Blk) (i : Nat) : Bool :=
  enRo b i || b == .dramc || b == .dram || b == .lstore ||
    ((b == .pair || (b == .lane && 132 ≤ i && i < 136)) && !s.straps.pairEn)
/-- EN is written. -/
def State.enWrite (s : State) (p : Nat) (en : Bool) : State :=
  match blkOf p with
  | none => s
  | some (b, i) => if s.enFixed b i || s.enabled p == en then s else (s.setFlag p R.PG_CTRL_EN en).enEffect b i en
/-- FENCE_REL on a fenced page: FENCED clears and the soft reset starts (R48). Causes of the same core cycle come after it (R384). -/
def State.fenceRelease (s : State) (p : Nat) : State :=
  let t := (s.set p R.PG_FENCE_FENCED 0).softRequest p true
  let e := s.lateCause.getD p (0, [], 0, 0)
  if s.lateCause.has p && e.1 == s.tick then
    e.2.1.foldl (fun u c => (u.err64 p c e.2.2.1 e.2.2.2).causeKept p c) { t with lateCause := t.lateCause.del p }
  else t
/-- What a write of PG_CTRL does: a release of a fenced page, else EN, then SRST (R36, R37, R48); a write of both acts in this order
(log 114). -/
def pgCtrlAct (p v : Nat) (s : State) : State :=
  if s.fenced p then (if bit v 4 then s.fenceRelease p else s)
  else
    let t := s.enWrite p (bit v 0)
    if bit v 1 then t.softRequest p else t

/-! ### Internal faults and fences named from outside (R47, R381, R384) -/

/-- What the lock of lane n has met when it fences for its own codes (R330, R340). -/
def State.laneFault (s : State) (n : Nat) (reasons : List Nat) : State :=
  let cdr := reasons.contains 0x20
  let t := if (s.laneAt n).block && (cdr || reasons.contains 0x21) then s.incSat (pLANE n) R.LANE_LOCK_CNT else s
  let t := if cdr then (t.updLane n fun y => { y with cdr := false, rxEidle := Config.free (55 * 2 ^ 32) s.fresh % 2 == 1 }).tickFresh else t
  if reasons.any (· < 0xF0) then (t.dropLock n).setLane n 1 else t
/-- Every code is counted on the page, and on the head channel that fences with its lane; one fence takes the lowest (R341, R384). -/
def State.faultsNow (s : State) (p : Nat) (r : Nat) (rest : List Nat) (src addr : Nat) : State :=
  let t := (r :: rest).foldl (fun t c => t.err64 p c src (s.fenceAddr p c addr)) s
  let low := rest.foldl min r
  match blkOf p with
  | some (.lane, l) =>
    let t := (t.laneFault l (r :: rest)).fence p low src l 0 false
    let t := if t.fencedNow (pHEAD l) && l < 128 then
        ((r :: rest).erase low).foldl (fun u c => u.err (pHEAD l) c 0 (s.firstCut l)) t
      else t
    s.pairRise (if 136 ≤ l then t.feedSettle else t) low (if l < 128 then l / 16 else 0)
  | _ => t.fenceFlight p low
/-- Several reasons in one core cycle (R384): a page that never fences only counts them (R381); a fenced page keeps its registers (R48),
but for causes of the core cycle of its fence, or of its release; a held page judges them when it is let go (R367, R384). -/
def State.faults (s : State) (p : Nat) (reasons : List Nat) (src addr : Nat) : State :=
  match blkOf p, reasons with
  | some (b, i), r :: rest =>
    if neverFences b i then (if s.held p then s else (r :: rest).foldl (fun t c => t.err64 p c src addr) s)
    else if s.fenced p then
      if s.fencedNow p then (r :: rest).foldl (fun t c => t.fence p c src (s.fenceAddr p c addr) (s.fenceAddr p c addr / 2 ^ 32)) s
      else { s with lateCause := s.lateCause.put p (s.tick, r :: rest, src, addr) }
    else if s.held p then (r :: rest).foldl (fun t c => t.causeKept p c) s
    else if s.srsts.has p then (r :: rest).foldl (fun t c => (t.err64 p c src (s.fenceAddr p c addr)).causeKept p c) s
    else s.faultsNow p r rest src addr
  | _, _ => s
/-- A fence cause that page p can meet now: an internal fault, or of an enabled block a code of R382 that it fences for; a lane meets 0x20 in UP and
EXIT, 0x21 in UP and 0x23 in EXIT (R334, R340, R381). -/
def State.meets (s : State) (p c : Nat) : Bool :=
  match blkOf p with
  | none => false
  | some (b, i) =>
    (0xF0 ≤ c && c ≤ 0xFF) || (fenceCode b i c && s.enabled p && !neverFences b i && (b != .lane ||
      (let st := (s.laneAt i).st
       if c = 0x20 then st == 3 || st == 5 else if c = 0x21 then st == 3 else st == 5)))

end Sys2Proof.Machine
end

