-- ==== Sys2Proof/Machine/Pages.lean ====
section
/-! DEFINITION. The commands of every page's header: PG_CTRL_EN, SRST, SOFT_RESET_START, SOFT_RESET_TIMEOUT, SOFT_RESET_COMPLETE,
FENCE_REL, FENCE, PG_IRQ_RAW_W1C, ERR_CLEAR, COMMIT, PG_LOCK_UNLOCK, PG_LOCK_LOCK, and VCLR and CCLR of SYS (R35 to R54). -/

namespace Sys2Proof.Machine

/-! ### PG_CTRL (R36, R37, R48) -/

/-- PG_CTRL_EN: a host write of PG_CTRL with EN and SRST 0. -/
def execPgCtrlEn (p : Page) (en : Bool) (s : State) : Host.Outcome State Fault Refusal :=
  .next (s.writeWith p 4 (b2n en) (pgCtrlAct p (b2n en)))
/-- SRST: a host write of PG_CTRL with SRST 1. -/
def execSrst (p : Page) (en : Bool) (s : State) : Host.Outcome State Fault Refusal :=
  let v := 2 + b2n en
  .next (s.writeWith p 4 v (pgCtrlAct p v))
/-- FENCE_REL: a host write of PG_CTRL with FENCE_REL 1. -/
def execFenceRel (p : Page) (en srst : Bool) (s : State) : Host.Outcome State Fault Refusal :=
  let v := 16 + 2 * b2n srst + b2n en
  .next (s.writeWith p 4 v (pgCtrlAct p v))

/-- A soft reset of the page waits. -/
def State.softWaits (s : State) (p : Nat) : Bool := s.srsts.has p && !(s.srsts.getD p {}).running
/-- SOFT_RESET_START: a waiting soft reset starts: its boundary has come, the LINE page has stopped, or a fence cause has arisen
(R37; log 21). -/
def execSoftResetStart (p : Page) (s : State) : Host.Outcome State Fault Refusal :=
  let r := s.srsts.getD p {}
  let run := match waitBar p with | some b => s.lineRuns b | none => false
  .next (if s.softWaits p && (r.due || !run) then s.softStart p (r.due && run && r.causes.isEmpty) else s)
/-- SOFT_RESET_TIMEOUT: 16.67 µs have passed without a boundary (R37). -/
def execSoftResetTimeout (p : Page) (s : State) : Host.Outcome State Fault Refusal :=
  .next (if s.softWaits p && (s.srsts.getD p {}).since + nsTicks 16670 ≤ s.tick then s.softStart p false else s)
/-- SOFT_RESET_COMPLETE: the running soft reset completes (R37); that of a held page only once the page is let go (R367). -/
def execSoftResetComplete (p : Page) (s : State) : Host.Outcome State Fault Refusal :=
  .next (if s.srsts.has p && (s.srsts.getD p {}).running && !s.held p then s.softDone p else s)

/-- FENCE: a block meets fence causes, an internal fault among them (R47, R380, R381, R384). A cause that the block does not have is
none (R382; log 2). -/
def execFence (p : Page) (reasons : List Byte) (src : BitVec 4) (addr : W64) (s : State) : Host.Outcome State Fault Refusal :=
  .next (if s.inReset then s else s.faults p ((reasons.map (·.toNat)).filter (s.meets p ·)) src.toNat addr.toNat)

/-! ### Interrupt and error registers (R39, R40) -/

/-- What a write of PG_IRQ_RAW does: causes clear, and ERR clears the error registers too (R39, R40). -/
def irqRawAct (p v : Nat) (s : State) : State :=
  let t := if bit v 1 then s.errClear p else s
  t.upd p R.PG_IRQ_RAW fun w => andNot w v
/-- PG_IRQ_RAW_W1C: a host write of PG_IRQ_RAW. -/
def execPgIrqRawW1c (p : Page) (mask : W32) (s : State) : Host.Outcome State Fault Refusal :=
  .next (s.writeWith p 0x10 mask.toNat (irqRawAct p mask.toNat))
/-- ERR_CLEAR: a host write of PG_IRQ_RAW with ERR 1. -/
def execErrClear (p : Page) (s : State) : Host.Outcome State Fault Refusal := .next (s.writeWith p 0x10 2 (irqRawAct p 2))
/-- What a write of PG_IRQ_EN does: enabling a raised cause may request (R39). -/
def irqEnAct (p v : Nat) (s : State) : State :=
  match blkOf p with
  | none => s
  | some (b, _) => s.irqSet p R.PG_IRQ_EN (v &&& b.irqMask)

/-! ### Commits and the lock word (R42, R43, R46) -/

/-- What a write of PG_SHADOW does: GEN and IMMEDIATE are stored, and COMMIT commits with them (R42, R43). -/
def shadowAct (p v : Nat) (s : State) : State :=
  let t := s.storeReg p 0x2C v
  if bit v 0 then t.commit p (field v 8 8) (bit v 1) else t
/-- COMMIT: a host write of PG_SHADOW with COMMIT 1. -/
def execCommit (p : Page) (gen : Byte) (immediate : Bool) (s : State) : Host.Outcome State Fault Refusal :=
  let v := 256 * gen.toNat + 2 * b2n immediate + 1
  .next (s.writeWith p 0x2C v (shadowAct p v))
/-- What a write of PG_LOCK does (R46). -/
def lockAct (p v : Nat) (s : State) : State :=
  if v = 0xA5A then s.set p R.PG_LOCK_LOCKED 0 else if v = 0 then s.set p R.PG_LOCK_LOCKED 1 else s
/-- PG_LOCK_UNLOCK: a host write of 0x0000_0A5A to PG_LOCK. -/
def execPgLockUnlock (p : Page) (s : State) : Host.Outcome State Fault Refusal := .next (s.writeWith p 0x34 0xA5A (lockAct p 0xA5A))
/-- PG_LOCK_LOCK: a host write of 0 to PG_LOCK. -/
def execPgLockLock (p : Page) (s : State) : Host.Outcome State Fault Refusal := .next (s.writeWith p 0x34 0 (lockAct p 0))

/-! ### SYS_VIOL_CTRL (R50, R54) -/

/-- The violation registers return to 0. -/
def State.violClear (s : State) : State :=
  { s with regs := s.regs.dropPage pSYS fun id => id / 32 != 0x100 && id / 32 != 0x104 && id / 32 != 0x108 }
/-- The conflict registers return to 0. -/
def State.conflictClear (s : State) : State :=
  { s with regs := s.regs.dropPage pSYS fun id => id / 32 != 0x110 && id / 32 != 0x114 }
/-- What a write of SYS_VIOL_CTRL does. -/
def violCtrlAct (v : Nat) (s : State) : State :=
  let t := if bit v 0 then s.violClear else s
  if bit v 1 then t.conflictClear else t
/-- VCLR: a host write of SYS_VIOL_CTRL.VCLR. -/
def execVclr (s : State) : Host.Outcome State Fault Refusal := .next (s.writeWith pSYS 0x10C 1 (violCtrlAct 1))
/-- CCLR: a host write of SYS_VIOL_CTRL.CCLR. -/
def execCclr (s : State) : Host.Outcome State Fault Refusal := .next (s.writeWith pSYS 0x10C 2 (violCtrlAct 2))

end Sys2Proof.Machine
end

