-- ==== Sys2Proof/Machine/System.lean ====
section
/-! DEFINITION. The device as a whole: COLD_RESET, SUPPLY_DETECT, RESET_RELEASE, STRAPCHG, SYS_WRST, WARM_RESET_START,
MAIN_PLL_LOSS, THERM_SAMPLE (R364 to R367, R374, R375, R383, R385 to R387). -/

namespace Sys2Proof.Machine

/-! ### Cold reset and its release (R364 to R366) -/

/-- Every register and every activity at reset, DRAM and line-store contents lost; the boot flash, the levels at the balls, the TAP
and the model's own trace stay (R364, R401; log 6, 67). -/
def State.cold (s : State) : State :=
  { State.reset with
    pending := s.pending
    inReset := true
    straps := s.straps
    liveStraps := s.liveStraps
    mfioIn := s.mfioIn
    tap := s.tap
    tapReg := s.tapReg
    cells := s.cells
    rdata := s.rdata
    outs := s.outs
    fresh := s.fresh + 1
    epoch := s.epoch + 1
    flash := s.flash }
/-- COLD_RESET: RESET_N has been low for 10.00 µs (R364). -/
def execColdReset (s : State) : Host.Outcome State Fault Refusal := .next s.cold
/-- SUPPLY_DETECT: VDD_CORE or VDD_SRAM is found low while RESET_N is high (R364); the reset ends at a rising edge of RESET_N
(log 67). -/
def execSupplyDetect (s : State) : Host.Outcome State Fault Refusal := .next (if s.inReset then s else s.cold)
/-- RESET_RELEASE: the rising edge of RESET_N samples the straps; C starts at 0 (R354, R366). -/
def execResetRelease (straps : Straps) (s : State) : Host.Outcome State Fault Refusal :=
  .next (if s.inReset then ({ s with inReset := false, straps := straps, liveStraps := straps }).soloReset else s)
/-- STRAPCHG: the live strap levels change (R366). -/
def execStrapchg (live : Straps) (s : State) : Host.Outcome State Fault Refusal :=
  let t := { s with liveStraps := live }
  .next (if s.inReset || live == s.straps then t else t.cause pSYS 3)

/-! ### Warm reset (R374, R375) -/

/-- Fields that a warm reset keeps (R375). -/
def warmKeeps (p id : Nat) : Bool :=
  let off := id / 32
  (p == pSYS && (off == 0x44 || off == 0x4C)) || (p == pHOSTIF && (off == 0x40 || 0x800 ≤ off))
    || (p == pDRAMC && id == R.DRAMC_CFG_SPARE.id)
    || (pDRAM 0 ≤ p && p ≤ pDRAM 3 && (off == R.DRAM_RMAP_LR.off || off == R.DRAM_RSTAT.off))
/-- The warm reset (R374, R375). -/
def State.warm (s : State) : State :=
  let t := { State.reset with
    pending := s.pending
    straps := s.straps
    liveStraps := s.liveStraps
    mfioIn := s.mfioIn
    tap := s.tap
    tapReg := s.tapReg
    cells := s.cells
    rdata := s.rdata
    outs := s.outs
    fresh := s.fresh + 1
    epoch := s.epoch
    lstore := s.lstore
    lsErr := s.lsErr
    dramMem := s.dramMem
    dramChk := s.dramChk
    flash := s.flash
    regs := s.regs.filter fun e => warmKeeps e.1.1 e.1.2
    boot := { warm := true }
    host := { s.host with sentAt := [] } }
  (((t.set pSYS R.SYS_RCAUSE_WARM 1).incSat pSYS R.SYS_WRST_CNT).set pBOOT R.BOOT_STAT_WARM 1).soloReset
/-- A warm reset may start: no channel is in RECOVERY (R374), and the die is below TRIP (R387). -/
def State.warmOk (s : State) : Bool :=
  (List.range 4).all (fun c => (s.dramAt c).mig.isNone) &&
    decide (sgn 16 (s.get pTHERM R.THERM_TEMP) < sgn 16 (s.get pTHERM R.THERM_LIM_TRIP))
/-- What a write of SYS_WRST does: the key starts a warm reset, or holds it (R374, R387). -/
def wrstAct (v : Nat) (s : State) : State :=
  if v ≠ 0x5A5A then s else if s.warmOk then s.warm else { s with wrstPend := true }
/-- SYS_WRST: a host write of 0x0000_5A5A to SYS_WRST. -/
def execSysWrst (s : State) : Host.Outcome State Fault Refusal := .next (s.writeWith pSYS 0x48 0x5A5A (wrstAct 0x5A5A))
/-- WARM_RESET_START: a held warm reset starts (R374, R387). -/
def execWarmResetStart (s : State) : Host.Outcome State Fault Refusal :=
  .next (if s.wrstPend && s.warmOk && !s.inReset then s.warm else s)

/-! ### Loss of the main PLL (R383) -/

/-- The lanes that carry the device's own links. -/
def ownLanes : List Nat := List.range 128 ++ (List.range 28).map (132 + ·)
/-- A lane whose clocks are gone: idle, and without any lock; no loss of lock is counted and nothing fences. The telemetry timer of
a head lane stands until its next UP (R335). -/
def State.laneDark (s : State) (l : Nat) : State :=
  let st := (s.laneAt l).st
  let s := (s.updLane l fun x => { x with txIdle := true }).when (l < 128) fun t => t.updHead l fun x => { x with tlmStop := true }
  if st = 2 ∨ st = 3 ∨ st = 5 then ((s.setLane l 1).dropLock l).updLane l fun x => { x with cdr := false } else s
/-- Frames and FIREs not yet sent are not sent. -/
def State.framesCut (s : State) : State :=
  s.each (List.range 128) fun t h => t.updHead h fun x => { x with queue := [], ready := [], cur := none }
/-- MAIN_PLL_LOSS: the main PLL has been out of lock for 1.000 µs, or REFCLK has stopped (R383). -/
def execMainPllLoss (s : State) : Host.Outcome State Fault Refusal :=
  .next <|
    if !s.pll || s.inReset then s
    else
      let t := ({ s with pll := false, heldClock := true }).updPair fun p => { p with pllLost := true }
      let t := (t.each ownLanes State.laneDark).framesCut.feedSettle
      let t := t.err pSYS 0x20 1 0
      let t := (t.setStep 0 3).backOff 0
      let u := t.each (List.range 8) fun u b => u.fence (pLINE b) 0x20 0 (u.get (pLINE b) R.LINE_SEQ)
      if u.persists 3 && !s.persists 3 then u else s.pairRise u 0x20 0

/-! ### Die temperature (R385 to R387) -/

/-- The pages that a shutdown holds in soft reset (R387). -/
def shutPages : List Nat :=
  Blk.all.flatMap fun b =>
    match b with
    | .sys | .therm | .hostif | .time => []
    | _ => (List.range b.count).map fun i => b.first + i
/-- Step 1 and 2 of R374 for a shutdown: the links go dark and no frame goes out any more. -/
def State.shutLinks (s : State) : State := (s.each ownLanes State.laneDark).framesCut
/-- Every page of the list is held in soft reset. -/
def State.shutHold (s : State) (ps : List Nat) : State := s.each ps fun t p => t.softClear p false
/-- What DRAM training and the profiles were is lost. -/
def State.shutForget (s : State) : State :=
  let s := s.each (List.range 4) fun t c => t.updDram c fun _ => {}
  { s with prof := {}, regs := s.regs.dropPage pPROF fun id => id == R.PG_FENCE_COUNT.id }
/-- The shutdown of R387: steps 1 and 2 of R374, and every page but SYS, THERM, HOSTIF and TIME held in soft reset. -/
def State.shutDown (s : State) : State :=
  (((({ s with pll := false, srsts := [] }).set pTHERM R.THERM_STAT_SHUT 1).shutLinks).shutHold shutPages).shutForget
/-- A threshold with hysteresis: in force from `at_` on, until below `at_` less HYST. -/
def thermState (was : Bool) (temp at_ hyst : Int) : Bool := if was then decide (at_ - hyst ≤ temp) else decide (at_ ≤ temp)
/-- THERM_SAMPLE: the sensors' highest reading, in 0.125 °C steps (R385 to R387). -/
def execThermSample (temp : BitVec 16) (s : State) : Host.Outcome State Fault Refusal :=
  let p := pTHERM
  .next <|
    if s.inReset || s.resetting p then s
    else
      let c := temp.toInt
      let t := s.set p R.THERM_TEMP temp.toNat
      let t := if sgn 16 (s.get p R.THERM_MAX) < c then t.set p R.THERM_MAX temp.toNat else t
      let tripAt := sgn 16 (s.get p R.THERM_LIM_TRIP)
      let warnAt := min (sgn 16 (s.get p R.THERM_LIM_WARN)) (tripAt - 1)
      let hyst : Int := s.get p R.THERM_CFG_HYST
      let was := s.flag p R.THERM_STAT_WARN
      let warn := thermState was c warnAt hyst
      let t := if warn = was then t else (t.setFlag p R.THERM_STAT_WARN warn).cause p 3
      let t := if warn && !was then t.err p 0x52 0 temp.toNat else t
      let was := s.flag p R.THERM_STAT_TRIP
      let trip := (was && s.shut) || thermState was c tripAt hyst
      let t := if trip = was then t else (t.setFlag p R.THERM_STAT_TRIP trip).cause p 4
      let t := if trip && !was then t.err p 0x53 0 temp.toNat else t
      let t := s.pairRise t 0x53 0
      if 1000 ≤ c && !s.shut then t.shutDown else t

end Sys2Proof.Machine
end

