-- ==== Sys2Proof/Machine/View.lean ====
section
/-! DEFINITION. What a read of a register returns (R12, R32, R33): the stored fields, and the fields that show a block's state:
PG_STAT.BLOCK of every block (R38 and the block pages), and the status registers that hold nothing of their own. -/

namespace Sys2Proof.Machine

/-- The number whose bit i, below n, is f i. -/
def maskOf (n : Nat) (f : Nat → Bool) : Nat := (List.range n).foldl (fun m i => if f i then m + 2 ^ i else m) 0

/-! ### The pins FAULT_N and WARN_N (R353) -/

/-- HOSTIF_FAULT_SRC: FENCE, DTRIP, BOOT, GIVEN, CROOK, SW. -/
def State.faultSrc (s : State) : Nat :=
  b2n (s.regs.any fun e => e.1.2 == R.PG_FENCE_FENCED.id && e.2 == 1) +
  2 * b2n (s.flag pTHERM R.THERM_STAT_TRIP) +
  4 * b2n (s.flag pBOOT R.BOOT_STAT_RETRYING) +
  8 * b2n (s.pairState == 4) +
  16 * b2n (s.pairState != 0 && s.pairState != 1 && !s.crookUp) +
  32 * b2n (s.flag pHOSTIF R.HOSTIF_SWPIN_FAULT)
/-- A DRAM channel is in RECOVERY, or a rank is DEGRADED (R316, R317). -/
def State.dramWarns (s : State) : Bool :=
  (List.range 4).any fun c => (s.dramAt c).mig.isSome ||
    (List.range 4).any fun p => bit (s.get (pDRAM c) R.DRAM_RSTAT) (4 * p + 2)
/-- HOSTIF_WARN_SRC: HCAP, UNDR, DWARN, DRAM, SW. -/
def State.warnSrc (s : State) : Nat :=
  b2n s.anyCap + 2 * b2n s.breath.warnUntil.isSome + 4 * b2n (s.flag pTHERM R.THERM_STAT_WARN) + 8 * b2n s.dramWarns +
  16 * b2n (s.flag pHOSTIF R.HOSTIF_SWPIN_WARN)
/-- FAULT_N is driven low. -/
def State.faultPin (s : State) : Bool := !s.inReset && (s.faultSrc &&& s.get pHOSTIF R.HOSTIF_FAULT_EN) != 0
/-- WARN_N is driven low; its sources 0 and 1 cannot be masked. -/
def State.warnPin (s : State) : Bool :=
  !s.inReset && (s.warnSrc &&& (4 * s.get pHOSTIF R.HOSTIF_WARN_EN_EN_2 + 3)) != 0

/-! ### Parts of the views -/

/-- LINE_OWED: lines due and not yet issued; a disabled generator owes none (R151; log 120). -/
def State.owed (s : State) (b : Nat) : Nat :=
  let d := s.lineY b - s.lineNext b
  if s.enabled (pLINE b) && decide (0 ≤ d) then 1 + d.toNat / max (2 ^ 24) (s.ap (pLINE b) R.LINE_PITCH) else 0
/-- LINE_BACK: whole counts below the highest Y since the enable; saturates (R151). -/
def State.back (s : State) (b : Nat) : Nat := min 0xFFFFFFFF (((s.lineAt b).hiY - s.lineY b).toNat / 2 ^ 24)
/-- Valid contexts of one layer, bit s for segment s (R81). -/
def ctxMask (m l : Nat) : Nat := maskOf 16 fun s => bit m (2 * s + l)
/-- LANE_SYNC.GOOD: the run as it last stood, and while lock is held one header more per block since (R331; log 14). -/
def State.goodRun (s : State) (l : Nat) : Nat :=
  let x := s.laneAt l
  min 0xFFFF (x.good + if x.block then blocksIn l (s.tick - x.lockAt) else 0)
/-- LANE_PRBS_BITS, counted to this tick (R339). -/
def State.prbsBits (s : State) (l : Nat) : Nat :=
  s.get64 (pLANE l) R.LANE_PRBS_BITS_LO R.LANE_PRBS_BITS_HI +
    if s.flag (pLANE l) R.LANE_PRBS_STAT then 165 * (s.tick - (s.laneAt l).prbsAt) else 0
/-- STATE of a lane; LANE128 to LANE131 read UP while the PCI Express link is up (R327, R330). -/
def State.laneState (s : State) (l : Nat) : Nat :=
  if 128 ≤ l && l < 132 then (if s.flag pHOSTIF R.HOSTIF_LINK_UP then 3 else 0) else (s.laneAt l).st
/-- A repeat table's place i: its unit, or 0; and VALID with its count (R311). -/
def RepTab.unit (t : RepTab) (i : Nat) : Nat := ((t.ents.find? fun e => e.1 == i).map (·.2.1)).getD 0
def RepTab.count (t : RepTab) (i : Nat) : Nat := ((t.ents.find? fun e => e.1 == i).map (·.2.2)).getD 0
def RepTab.valid (t : RepTab) (i : Nat) : Bool := t.ents.any fun e => e.1 == i
/-- Port n follows another port: its leader fields read 0 (R204). -/
def State.isMember (s : State) (n : Nat) : Bool :=
  if s.feedPageOn n then s.feedLead n != n else s.get (pFEED n) R.FEED_GRP_LEAD != n
/-- The fields marked "leader" (R204). -/
def leaderField (f : Fld) : Bool :=
  f == R.FEED_FLOW_XOFF || f == R.FEED_FLOW_XON || f == R.FEED_ACK_ACK_INT || f == R.FEED_GAP || f == R.FEED_WIN
    || f == R.FEED_EXP_BASE || f == R.FEED_EXP_LIVE || f == R.FEED_REC_CNT || f == R.FEED_DROP_DUP || f == R.FEED_DROP_WIN
    || f == R.FEED_EVICT_CNT
/-- Milliseconds of hold-off that remain, a started one counted (R247). -/
def State.holdLeft (s : State) : Nat := if s.pairState = 6 then (s.pair.holdUntil - s.tick + 156249) / 156250 else 0
/-- A strap level as a number in its field's place. -/
def strapWord (x : Straps) : Nat := x.unitId.toNat + 16 * b2n x.home + 32 * b2n x.pairEn

/-! ### PG_STAT.BLOCK -/

/-- Bits [31:16] of PG_STAT as block b, instance i, lays them out. -/
def State.statBlock (s : State) (b : Blk) (i : Nat) : Nat :=
  match b with
  | .sys => b2n s.pll + 2 * b2n s.wrstPend
  | .therm => b2n (s.flag pTHERM R.THERM_STAT_WARN) + 2 * b2n (s.flag pTHERM R.THERM_STAT_TRIP) + 4 * b2n s.shut
  | .boot => s.get pBOOT R.BOOT_STAT_READY + 2 * s.get pBOOT R.BOOT_STAT_RETRYING + 4 * s.get pBOOT R.BOOT_FL_STAT_BUSY
  | .prof => b2n s.prof.loaded
  | .time => maskOf 16 fun k => s.flag pTIME (R.TIME_CMP_CTRL_ARMED.nth 16 k)
  | .pair => b2n s.crookUp + 2 * b2n (s.claimLevel != 0) + 4 * b2n s.covered + 8 * b2n s.pair.diverged
  | .pos => b2n (s.posAt i).dir + 2 * b2n (s.posAt i).still + 4 * b2n (s.posAt i).valid + 8 * b2n (s.posAt i).los
  | .line =>
    b2n (s.enabled (pLINE i) && decide (s.lineNext i ≤ s.lineY i)) + 2 * b2n (s.back i != 0) + 4 * (s.lineAt i).src +
      16 * b2n (s.lineAt i).failedOver
  | .breath =>
    b2n (s.get pBREATH R.BREATH_CEIL_CEIL < rate (s.ap pBREATH R.BREATH_MAX)) +
      2 * b2n (s.get pBREATH R.BREATH_CEIL_CEIL == rate (s.ap pBREATH R.BREATH_MIN))
  | .dmac => maskOf 8 fun k => (s.jobAt k).parked
  | .dma => b2n ((s.dmaAt i).st == 2) + 2 * b2n ((s.dmaAt i).st == 3) + 4 * b2n (s.dmaReq i)
  | .feed =>
    b2n (s.laneAt (feedLane i)).block + 2 * b2n (s.portAt i).sending.isSome + 4 * b2n (s.portAt i).pausedUntil.isSome +
      8 * b2n (s.gapOpen i false || s.gapOpen i true) + 16 * b2n (s.isLeader i)
  | .enc =>
    let stall := s.working (pENC i) && !s.encRoom i && (itemAt (s.sinks.getD (0x20 + i) [])).isSome
    b2n stall + 2 * b2n stall
  | .dec =>
    b2n (s.decReading i) + 2 * b2n (s.decAt i).panic + 4 * b2n (nSlots (s.decAt i).dot ≤ (s.decAt i).slots.length)
  | .pipe => b2n (s.pipeAt i).held + 2 * b2n (s.pipeAt i).undr + 4 * b2n (s.pipeAt i).copy.isSome
  | .dramc => maskOf 4 fun c => (s.dramAt c).mig.isSome
  | .dram =>
    let d := s.dramAt i
    b2n d.trained + 2 * b2n d.mig.isSome + 4 * b2n d.alert.isSome + 8 * b2n d.pause.isSome
  | .scrub => b2n s.scrub.busy
  | .cam => b2n (s.camAt i).frame.isSome + 2 * b2n (s.camAt i).trig1Until.isSome
  | .chant =>
    b2n ([Tier.zone, Tier.column, Tier.capture].any fun t => (s.tier t).solving.isSome) + 2 * b2n s.chant.capturing
  | .cal => b2n s.calst.running
  | .headc => b2n s.anyCap
  | .head => b2n (s.headAt i).sending + 2 * s.get (pHEAD i) R.HEAD_STAT_CAP + 4 * s.get (pHEAD i) R.HEAD_STAT_TLM_OK
  | .lane =>
    let x := s.laneAt i
    s.laneState i + 8 * b2n x.cdr + 16 * b2n x.block + 32 * b2n x.rxEidle + 64 * b2n (x.scan.isSome || x.calRuns)
  | .pinmux | .hostif | .feedc | .lstore | .camc => 0

/-! ### Fields that show a block's state -/

/-- The block fields that are not stored as such, by offset; none for a stored field. -/
def State.shown (s : State) (b : Blk) (i : Nat) (f : Fld) : Option Nat :=
  match b with
  | .sys => if f.off = 0x40 then
        some (if f = R.SYS_STRAP_DIFF then b2n (s.liveStraps != s.straps)
          else field (strapWord s.straps + 2 ^ 16 * strapWord s.liveStraps) f.lo f.w)
      else none
  | .pinmux => if f = R.PINMUX_IN then some (maskOf 8 s.ballLevel) else none
  | .boot =>
    if 0x90 ≤ f.off && f.off < 0xA4 then some (maskOf 32 fun k => s.boot.failLanes.contains (32 * ((f.off - 0x90) / 4) + k))
    else none
  | .time =>
    if f = R.TIME_NOW_LO then some s.cNs
    else if f = R.TIME_NOW_HI then some (s.cNs / 2 ^ 32)
    else if f = R.TIME_NOW_FRAC then some s.cFrac
    else if 0x100 ≤ f.off && f.off % 16 = 8 && f.lo = R.TIME_CMP_CTRL_OWNER.lo then some (s.unitOwner ((f.off - 0x108) / 16))
    else none
  | .pair =>
    if f = R.PAIR_STAT_LEVEL then some (if s.straps.home || !s.straps.pairEn then 12 else 8)
    else if f = R.PAIR_STAT_LANES then some s.crookLanes
    else if f = R.PAIR_STAT_STATE then some s.pairState
    else if f = R.PAIR_CAUSE then some s.causeMask
    else if f = R.PAIR_RUN then some s.pairRun
    else if f = R.PAIR_HOLD_LEFT then some s.holdLeft
    else if 0x80 ≤ f.off && f.off < 0xA0 then some (s.safeLine ((f.off - 0x80) / 4))
    else none
  | .line =>
    if f = R.LINE_BACK then some (s.back i) else if f = R.LINE_OWED then some (s.owed i) else none
  | .breath =>
    if 0x80 ≤ f.off then
      let k := (f.off - 0x80) / 4
      some (if f.lo = 16 then b2n (s.breathIncl k) else s.lookahead k)
    else none
  | .hostif =>
    if f = R.HOSTIF_FAULT_SRC then some s.faultSrc
    else if f = R.HOSTIF_WARN_SRC then some s.warnSrc
    else if 0x100 ≤ f.off && f.off < 0x180 then
      some (maskOf 32 fun k => let p := 32 * ((f.off - 0x100) / 4) + k; (blkOf p).isSome && s.pend p != 0)
    else if 0xC00 ≤ f.off then
      some (maskOf 32 fun k => let v := 32 * ((f.off - 0xC00) / 4) + k; s.host.waiting.contains v && !s.msixOpen v)
    else none
  | .dmac =>
    if f = R.DMAC_HALT0 then some (maskOf 32 fun k => (s.dmaAt k).st == 3)
    else if f = R.DMAC_HALT1 then some (maskOf 32 fun k => (s.dmaAt (32 + k)).st == 3)
    else if 0x110 ≤ f.off && (f.off - 0x110) % 0x40 = 0 then
      let e := s.jobAt ((f.off - 0x110) / 0x40)
      some (b2n (if f.lo = 3 then e.curLate else if f.lo = 2 then e.jerr else if f.lo = 1 then e.idleLast else e.parked))
    else none
  | .dma =>
    let d := s.dmaAt i
    if f = R.DMA_STAT_STAGE then some (d.kept.length + d.staging.length + d.tag.length)
    else if f = R.DMA_STAT_DB_PEND then some (b2n d.dbPend)
    else if f = R.DMA_STAT_REQ then some (b2n (s.dmaReq i))
    else if f = R.DMA_STAT_STATE then some d.st
    else if f = R.DMA_BIND_DST_EP then some (s.dstEp i)
    else if f = R.DMA_BIND_SRC_EP then some (s.srcEp i)
    else none
  | .feedc => if f = R.FEEDC_LINK then some (maskOf 24 fun n => (s.laneAt (feedLane n)).block) else none
  | .feed => if leaderField f && s.isMember i then some 0 else none
  | .dec =>
    let d := s.decAt i
    if f = R.DEC_AHEAD then some (s.decAhead i)
    else if f = R.DEC_LINE then some (d.newest.getD 0)
    else if f = R.DEC_CTX_LIVE_VALID then some (ctxMask d.ctxValid 1)
    else if f = R.DEC_CTX_BASE_VALID then some (ctxMask d.ctxValid 0)
    else none
  | .lstore =>
    if f = R.LSTORE_REP_FLOOR then some s.lsRep.floor
    else if 0x100 ≤ f.off then
      let k := (f.off - 0x100) / 8
      some (if f.off % 8 = 0 then s.lsRep.unit k else if f.lo = 31 then b2n (s.lsRep.valid k) else s.lsRep.count k)
    else none
  | .dramc => if f = R.DRAMC_PANIC then some (maskOf 8 fun k => (s.decAt k).panic) else none
  | .dram =>
    let t := (s.dramAt i).rep
    if f = R.DRAM_REP_FLOOR then some t.floor
    else if 0x100 ≤ f.off then
      let k := (f.off - 0x100) / 8
      some (if f.off % 8 = 0 then t.unit k else if f.lo = 31 then b2n (t.valid k) else t.count k)
    else none
  | .chant =>
    if f = R.CHANT_STAT_BUSY then some (((lowBit 8 s.chant.bars).map (2 ^ ·)).getD 0)
    else if f = R.CHANT_STAT_ZBANK then some s.chant.zone.bank
    else if f = R.CHANT_STAT_CBANK then some (if s.chant.capturing then s.chant.cap.bank else s.chant.col.bank)
    else none
  | .headc =>
    if f = R.HEADC_CLAIM then some s.claimByte
    else if 0x60 ≤ f.off && f.off < 0x70 then
      some (maskOf 32 fun k => s.flag (pHEAD (32 * ((f.off - 0x60) / 4) + k)) R.HEAD_STAT_CAP)
    else if 0x70 ≤ f.off && f.off < 0x80 then some (maskOf 32 fun k => s.fenced (pHEAD (32 * ((f.off - 0x70) / 4) + k)))
    else none
  | .lane =>
    if f = R.LANE_STAT then some (if laneSlips i then (s.laneAt i).slip else 0)
    else if f = R.LANE_SYNC_GOOD then some (s.goodRun i)
    else if f = R.LANE_PRBS_BITS_LO then some (s.prbsBits i)
    else if f = R.LANE_PRBS_BITS_HI then some (s.prbsBits i / 2 ^ 32)
    else none
  | _ => none

/-- What a read of a field returns. The block fields of a page held for want of step CLK read their Reset values (R367), which of PINMUX_IN
is the level at the balls (R406). -/
def State.viewField (s : State) (p : Nat) (b : Blk) (i : Nat) (f : Fld) : Nat :=
  if f.acc == .wo then 0
  else if b == .pos && s.held p && f != R.PG_STAT_BLOCK && f != R.PG_STAT_SRST_BUSY then rst p f
  else if f = R.PG_CTRL_SRST then b2n (s.srsts.has p)
  else if f = R.PG_STAT_BLOCK then (if b == .pos && s.held p then 2
    else if s.held p && !(b == .lane && 128 ≤ i && i < 132) then 0 else s.statBlock b i)
  else if f = R.PG_STAT_SRST_BUSY then b2n (s.srstBusy p)
  else if f = R.PG_STAT_FENCED then b2n (s.fenced p)
  else if f = R.PG_STAT_RUN then b2n (s.working p)
  else if f = R.PG_IRQ_PEND then s.pend p
  else if f.off < 0x40 || (s.held p && !(f = R.PAIR_STAT_LEVEL || f = R.PAIR_STAT_STATE || f = R.PINMUX_IN || b == .headc)) then s.get p f
  else (s.shown b i f).getD (s.get p f)
/-- The word that register off of page p shows, 0 where none is implemented (R12, R33). -/
def State.regWord (s : State) (p off : Nat) : Nat :=
  match blkOf p with
  | none => 0
  | some (b, i) => wordOf (fieldsAt b i off) (s.viewField p b i)

end Sys2Proof.Machine
end

