-- ==== Sys2Proof/Machine/Access.lean ====
section
/-! DEFINITION. Host accesses that have no row of their own: REGISTER_WRITE (R12, R31, R49, R55), LATCHING_READ (R32),
APERTURE_ACCESS (R57, R309) and BAR2_ACCESS (R346). Accesses arrive as `State.hostServed` says (log 56). -/

namespace Sys2Proof.Machine

/-! ### Register writes -/

/-- What a write of CAM_LTRIG does: TRIG0 is held low while EN is 0 (R259). -/
def camTrigAct (c v : Nat) (s : State) : State :=
  let t := s.storeReg (pCAM c) 0x58 v
  if t.flag (pCAM c) R.CAM_LTRIG then t else t.updCam c fun x => { x with trig0Pend := [], trig0Until := none }
/-- What a write of CHANT_CTRL does: a tier that is switched on starts with no window and no cleared bank (R280, R298). -/
def chantCtrlAct (v : Nat) (s : State) : State :=
  let t := s.storeReg pCHANT 0x40 v
  let start := fun (f : Fld) (k : Tier) (t : State) =>
    if t.flag pCHANT f && !s.flag pCHANT f then
      t.updTier k fun x => { x with open_ := false, wOpen := 0, wLast := 0, win := 0, gen := 0, closeDue := false, clean := 0 }
    else t
  start R.CHANT_CTRL_ZONE_EN .zone (start R.CHANT_CTRL_COL_EN .column t)
/-- What a write of PIPE_CTRL does: while the partner follows, a changed HOLD is kept without effect and counted (R239). -/
def pipeCtrlAct (b v : Nat) (s : State) : State :=
  let t := s.storeReg (pPIPE b) 0x40 v
  if s.follows && t.get (pPIPE b) R.PIPE_CTRL_HOLD != s.get (pPIPE b) R.PIPE_CTRL_HOLD then t.incSat pPAIR R.PAIR_IGN_CNT else t

/-- What a write of a block register does: the store of R12, and what the register commands. -/
def blockAct (b : Blk) (i off v : Nat) (s : State) : State :=
  let p := b.first + i
  match b, off with
  | .sys, 0x48 => wrstAct v s
  | .sys, 0x10C => violCtrlAct v s
  | .boot, 0x4C => bootCmdAct v s
  | .boot, 0xD0 => bootFlAct v s
  | .prof, 0x44 => profCmdAct v s
  | .time, _ =>
    if off = 0x70 then timeCmdAct v s
    else if 0x100 ≤ off && off % 16 = 0 then timeLoAct ((off - 0x100) / 16) v s
    else if 0x100 ≤ off && off % 16 = 4 then timeArmAct ((off - 0x104) / 16) v s
    else if 0x100 ≤ off && off % 16 = 8 then timeCtrlAct ((off - 0x108) / 16) v s
    else s.storeReg p off v
  | .pair, 0x44 => pairCmdAct v s
  | .pos, _ =>
    if off = 0x80 then posCmpAct i 0 v s else if off = 0x84 then posCmpAct i 1 v s else if off = 0x88 then posDisarmAct i v s
    else s.storeReg p off v
  | .line, 0x7C => lineAdjAct i v s
  | .dmac, 0x40 => jeAct v s
  | .dmac, 0x44 => jdbAct v s
  | .dmac, 0x60 => s.storeReg p off (v / 32 * 32)
  | .dma, 0x58 => dmaDbAct i v s
  | .dma, 0x5C => dmaCmdAct i v s
  | .feedc, 0x54 => s.storeReg p off (v / 1024 * 1024)
  | .feed, 0x64 => (s.storeReg p off v).feedSettle
  | .enc, 0x40 => encCtrlAct i v s
  | .pipe, 0x40 => pipeCtrlAct i v s
  | .pipe, 0x4C => pipeSwapAct i v s
  | .pipe, 0x54 => pipeCopyAct i v s
  | .cam, 0x58 => camTrigAct i v s
  | .chant, 0x40 => chantCtrlAct v s
  | .cal, 0x40 => calCmdAct v s
  | .dramc, 0x40 => dramcCfgAct v s
  | .dramc, 0x50 => (s.storeReg p off v).panicAll
  | .dram, 0x48 => dramMigAct i v s
  | .scrub, 0x40 => scrubCtrlAct v s
  | .lane, 0x40 => laneCtrlAct i v s
  | .lane, 0x50 => laneCmdAct i v s
  | .lane, 0x70 => lanePrbsAct i v s
  | _, _ => s.storeReg p off v
/-- What a write of register off of page p does (R12, R36 to R46, and the block's own rules). -/
def regAct (p off v : Nat) (s : State) : State :=
  if off = 4 then pgCtrlAct p v s
  else if off = 0x10 then irqRawAct p v s
  else if off = 0x14 then irqEnAct p v s
  else if off = 0x2C then shadowAct p v s
  else if off = 0x34 then lockAct p v s
  else match blkOf p with
    | none => s
    | some (b, i) => blockAct b i off v s

/-- A write of word w of a shadow table: held while a copy of that table runs (R55, R56, R106). -/
def State.tableStore (s : State) (t w v : Nat) : State :=
  let b := 4 * w / tabSize t
  let a := 4 * w % tabSize t
  let v := v &&& tableMask t
  match (s.pipeAt b).copy with
  | some (ts, _) =>
    if bit ts t then s.updPipe b fun x => { x with heldWrites := x.heldWrites ++ [⟨2 ^ 20 * t + a, v⟩] } else s.shadowWrite b t a v
  | none => s.shadowWrite b t a v
/-- A write through the table window at an offset: an active range takes none (kind 2), nor does a partial write (kind 7); reserved
bits are left (kind 3) (R13, R32, R49, R55). -/
def State.tableWrite (s : State) (off t : Nat) (active : Bool) (w v be : Nat) : State :=
  let k := if active then 2 else if andNot v (tableMask t) != 0 then 3 else if be != 15 then 7 else 0
  let s := if active || be != 15 then s else s.tableStore t w v
  if k = 0 then s else s.violate k off true

/-- A host write of four bytes at an offset of BAR0. -/
def State.bar0Write (s : State) (off v be : Nat) : State :=
  if !s.hostServed then s
  else match placeOf off with
    | .reg p o => s.writeWith p o v (regAct p o v) be
    | .table t active w => s.tableWrite off t active w v be
    | .aperture a => s.lsWriteOpt a ((List.range 4).map fun i => if bit be i then some (BitVec.ofNat 8 (v / 256 ^ i)) else none)
    | .nowhere => s.violate 1 off true

/-- REGISTER_WRITE: a host write to a register, a table entry or the configuration space that has no row of its own. -/
def execRegisterWrite (t : HostTarget) (v : W32) (be : BitVec 4) (s : State) : Host.Outcome State Fault Refusal :=
  .next (match t with
    | .bar0 off => s.bar0Write (off.toNat / 4 * 4) v.toNat be.toNat
    | .cfg r => s.cfgWrite r v.toNat be.toNat)

/-! ### Reads that latch (R32) -/

/-- The partners that a read of register off of block b latches. -/
def partners (b : Blk) (off : Nat) : List Nat :=
  let pair := fun (l : List Nat) => if l.contains off then [off + 4] else []
  match b with
  | .time => if off = 0x40 then [0x44, 0x48] else if off = 0x78 then [0x7C, 0x80] else []
  | .enc => pair [0x48, 0x50]
  | .dec => pair [0x60]
  | .line => pair [0x48, 0x58, 0x60]
  | .dmac =>
    if off = 0x50 then [0x54]
    else if 0x100 ≤ off && [0x00, 0x08, 0x20, 0x30, 0x38].contains (off % 0x40) then [off + 4] else []
  | .dma => pair [0x68]
  | .feed => pair [0x80]
  | .pair => pair [0x74]
  | .cal => pair [0x78]
  | .scrub => pair [0x44, 0x4C, 0x60, 0x74]
  | .lane => pair [0x7C]
  | _ => []
/-- Register off is a partner: a read of it returns the latch. -/
def isPartner (b : Blk) (off : Nat) : Bool :=
  (4 ≤ off && (partners b (off - 4)).contains off) || (8 ≤ off && (partners b (off - 8)).contains off)
/-- A read of a register: the word it returns, with the latches it fills; an unimplemented one is a violation (R32, R33, R49). -/
def State.readReg (s : State) (p off : Nat) : State × Nat :=
  match blkOf p with
  | none => (s.violate 1 (p * 0x1000 + off) false, 0)
  | some (b, i) =>
    if !implemented b i off then (s.violate 1 (p * 0x1000 + off) false, 0)
    else if isPartner b off then (s, s.latched p off)
    else ((partners b off).foldl (fun t o => t.setLatch p o (s.regWord p o)) s, s.regWord p off)
/-- A read of n bytes of the line store by the host: 0x00 for each uncorrectable byte, counted in LSTORE_APER_UNC (R309). -/
def State.apertureRead (s : State) (a n : Nat) : State × List Byte :=
  let r := s.lsRead a n 4
  (r.1.addSat pLSTORE R.LSTORE_APER_UNC (r.2.filter (·.isNone)).length, r.2.map (·.getD 0))
/-- A host read of four bytes at an offset of BAR0. -/
def State.bar0Read (s : State) (off : Nat) : State × List Byte :=
  match placeOf off with
  | .reg p o => let r := s.readReg p o; (r.1, leBytes 4 r.2)
  | .table t active w =>
    let b := 4 * w / tabSize t
    let c := if active then s.activeCopy b t else 1 - s.activeCopy b t
    let r := s.apertureRead (tabAddr t c b + 4 * w % tabSize t) 4
    (r.1, leBytes 4 (leNat r.2 &&& tableMask t))
  | .aperture a => s.apertureRead a 4
  | .nowhere => (s.violate 1 off false, zeros 4)
/-- LATCHING_READ: a host read of a latching register; a read of any other register returns its word and latches nothing, as does one of
the configuration space (R344). -/
def execLatchingRead (t : HostTarget) (s : State) : Host.Outcome State Fault Refusal :=
  .next <|
    match t with
    | .cfg r => s.cfgRead r
    | .bar0 off =>
      if !s.hostServed then s
      else
        let r := s.bar0Read (off.toNat / 4 * 4)
        { r.1 with rdata := r.2 }

/-! ### Memory windows -/

/-- How many bytes an access covers. -/
def accessLen : Access → Nat
  | .read n => n
  | .write l => l.length
/-- APERTURE_ACCESS: a read or write of the line store at byte a, of any length and byte enables, within the aperture (R57). -/
def execApertureAccess (a : BitVec 26) (acc : Access) (s : State) : Host.Outcome State Fault Refusal :=
  .next <|
    if !s.hostServed then s
    else match acc with
      | .read n =>
        let r := s.apertureRead a.toNat (min n (lsSize - a.toNat))
        { r.1 with rdata := r.2 }
      | .write l => s.lsWriteOpt a.toNat (l.take (lsSize - a.toNat))

/-- HOSTIF_WIN. -/
def State.hostWin (s : State) : Nat := s.get64 pHOSTIF R.HOSTIF_WIN_LO R.HOSTIF_WIN_HI
/-- How many of n bytes at a DRAM address lie in installed DRAM that is in service. -/
def State.dramGood (s : State) (a n : Nat) : Nat := if s.dramReady then min n (s.dramSize - a) else 0
/-- BAR2_ACCESS: a read or write of DRAM at HOSTIF_WIN + w; a part beyond the installed DRAM, or with DRAM not in service, is a
violation of kind 8: it reads 0 and writes nothing (R49, R346). The access is served at once where nothing of a higher level wants its
DRAM channels and they serve; else it waits, and a read is answered then (R29, R301; log 74). -/
def execBar2Access (w : W32) (acc : Access) (s : State) : Host.Outcome State Fault Refusal :=
  let a := s.hostWin + w.toNat
  let n := min (accessLen acc) (2 ^ 32 - w.toNat)
  let g := s.dramGood a n
  .next <|
    if !s.hostServed then s
    else match acc with
      | .read _ =>
        let t := if g < n then s.violate 8 w.toNat false true else s
        if g = 0 then { t with rdata := zeros n } else t.dramAsk (.read a g (n - g))
      | .write l =>
        let t := if g < n then s.violate 8 w.toNat true true else s
        if g = 0 then t else t.dramAsk (.write a 0x48 (l.take g))

end Sys2Proof.Machine
end

