-- ==== Sys2Proof/Machine/Balls.lean ====
section
/-! DEFINITION. The balls: what each ball of the array is (R391 to R396), the state that the device gives its output balls (R353, R365,
R399, R405), and the TAP with its boundary-scan register: TAP_CONTROL (R401). -/

namespace Sys2Proof.Machine

/-! ### The ball map (R391 to R396) -/

/-- The supplies (R402). -/
inductive Supply where
  | vddCore | vddSram | vddLane | vddaLane | vddqDdr | vddio18 | vddio33 | vss
  deriving DecidableEq, Repr

/-- What a ball carries. -/
inductive Ball where
  | supply (x : Supply)
  /-- A lane's transmit or receive pair, its P or N side (R393). -/
  | lane (l : Nat) (tx neg : Bool)
  /-- Signal k of camera port c: D0 to D63, PCLK, FVAL, LVAL, DVAL, TRIG0, TRIG1 (R392). -/
  | cam (c k : Nat)
  /-- Signal k of position channel n: A_P, A_N, B_P, B_N, Z_P, Z_N; of P10 and P11 CLK_P, CLK_N, DAT_P, DAT_N (R392). -/
  | pos (n k : Nat)
  /-- Signal k of DRAM channel c in the order of R396. -/
  | ddr (c k : Nat)
  /-- A ball of the system block by name (R394). -/
  | sys (name : String)
  | rsvd
  deriving DecidableEq, Repr

/-- The letters of the rows, in order (R391). -/
def rowLetters : List String :=
  ["A", "B", "C", "D", "E", "F", "G", "H", "J", "K", "L", "M", "N", "P", "T", "U", "V", "W", "Y", "AA", "AB", "AC", "AD", "AE", "AF", "AG"] ++
  ["AH", "AJ", "AK", "AL", "AM", "AN", "AP", "AT", "AU", "AV", "AW", "AY", "BA", "BB", "BC", "BD", "BE", "BF", "BG", "BH", "BJ", "BK", "BL"] ++
  ["BM", "BN", "BP"]
/-- The rows of the system block, AT to BE; an empty name is VSS (R394). -/
def sysRows : List (List String) :=
  [["REFCLK_P", "REFCLK_N", "", "PCIE_REFCLK_P", "PCIE_REFCLK_N", "", "TDIODE_P", "TDIODE_N"],
   ["RESET_N", "PERST_N", "FAULT_N", "WARN_N", "HOLD_N", "SPD_CEIL", "VDDIO_33", ""],
   ["PROFSEL0", "PROFSEL1", "PROFSEL2", "PROFSTB", "UNIT_ID0", "UNIT_ID1", "UNIT_ID2", "UNIT_ID3"],
   ["HOME", "PAIR_EN", "", "SMB_SCL", "SMB_SDA", "", "VDDIO_33", ""],
   ["FL_SCLK", "FL_CS_N", "FL_IO0", "FL_IO1", "FL_IO2", "FL_IO3", "VDDIO_18", ""],
   ["TCK", "TMS", "TDI", "TDO", "TRST_N", "", "VDDIO_18", ""]] ++
  [["MFIO0", "MFIO1", "MFIO2", "MFIO3", "MFIO4", "MFIO5", "MFIO6", "MFIO7"],
   ["RSVD", "RSVD", "RSVD", "RSVD", "RSVD", "RSVD", "RSVD", "RSVD"],
   ["RSVD", "", "VDDIO_33", "", "VDDIO_18", "", "VDDIO_33", ""],
   ["", "", "", "", "", "", "", ""]]
/-- A ball of the system block from its name. -/
def sysBall (n : String) : Ball :=
  if n = "" then .supply .vss else if n = "RSVD" then .rsvd else if n = "VDDIO_33" then .supply .vddio33
  else if n = "VDDIO_18" then .supply .vddio18 else .sys n
/-- The ball of a lane of tier i at row k of the tier and column c: transmit, receive, VSS (R393). -/
def laneTier (l k c : Nat) : Ball := if k = 2 then .supply .vss else .lane l (k == 0) (c % 2 == 0)
/-- The north band at row r of 0 to 8; `base` is its first lane (R393). -/
def northBall (base r c : Nat) : Ball :=
  let h := 26 * (r / 3) + (c - 1) / 2
  if h < 64 then laneTier (base + h) (r % 3) c
  else if r = 6 then .supply .vddLane
  else if r = 7 then .supply (if c ≤ 44 then .vddLane else .vddaLane)
  else .supply (if c ≤ 40 then .vddaLane else .vss)
/-- Position ball j of 72 (R392). -/
def posBall (j : Nat) : Ball :=
  if j < 8 then .pos (j / 4) (j % 4)
  else if j < 56 then .pos (2 + (j - 8) / 6) ((j - 8) % 6)
  else if j < 64 then .pos (10 + (j - 56) / 4) ((j - 56) % 4)
  else .supply (if j < 68 then .vddio33 else .vss)
/-- The core field at row r of 18 to 42 and column c of 9 to 32 (R395). -/
def coreBall (r c : Nat) : Ball :=
  let inner := 11 ≤ c && c ≤ 30
  let j := if r < 33 then 20 * (r - 18) + (c - 11) else if r < 42 then 300 + 24 * (r - 33) + (c - 9) else 516 + (c - 22)
  if r < 33 && !inner then .supply .vddSram
  else if r = 42 && c ≤ 21 then .supply .vddio18
  else .supply (if j < 520 && j % 2 == 1 then .vddCore else .vss)
/-- Position j of 170 of DRAM channel c: a VDDQ_DDR ball follows each eighth signal, and five VSS end it (R396). -/
def ddrBall (c j : Nat) : Ball :=
  if 165 ≤ j then .supply .vss else if j % 9 = 8 then .supply .vddqDdr else .ddr c (8 * (j / 9) + j % 9)
/-- The ball at row index r of 0 to 51 and column c of 1 to 52 (R392). -/
def ballAt (r c : Nat) : Ball :=
  if r < 9 then northBall 0 r c
  else if 43 ≤ r then northBall 64 (51 - r) c
  else if c ≤ 8 then
    (if r < 33 then laneTier (128 + 4 * ((r - 9) / 3) + (c - 1) / 2) ((r - 9) % 3) c
     else sysBall ((sysRows.getD (r - 33) []).getD (c - 1) ""))
  else if 33 ≤ c then ddrBall ((c - 33) / 5) (5 * (r - 9) + (c - 33) % 5)
  else if r < 15 then
    let k := 12 * (r - 9) + (c - 9) % 12
    (if k < 70 then .cam ((c - 9) / 12) k else .supply .vddio18)
  else if r < 18 then posBall (24 * (r - 15) + (c - 9))
  else coreBall r c
/-- A ball's name: its row letters and its column (R391). -/
def ballName (r c : Nat) : String := rowLetters.getD r "" ++ toString c
/-- The name of DRAM signal k of a channel, less its prefix (R396). -/
def ddrName (k : Nat) : String :=
  if k < 108 then
    let q := k / 6
    (if k % 6 < 4 then "DQ" ++ toString (4 * q + k % 6) else if k % 6 = 4 then "DQS_T" ++ toString q else "DQS_C" ++ toString q)
  else if k < 126 then "A" ++ toString (k - 108)
  else (["BA0", "BA1", "BG0", "BG1", "ACT_N", "PAR", "ALERT_N", "CK0_T", "CK0_C", "CK1_T", "CK1_C", "CS0_N", "CS1_N", "CS2_N",
    "CS3_N", "CKE0", "CKE1", "ODT0", "ODT1", "RESET_N", "ZQ"]).getD (k - 126) ""

/-! ### Boundary scan (R401) -/

/-- The IDCODE of the TAP: version 0x1, part 0x0880. -/
def tapIdcode : BitVec 32 := 0x108809D3
/-- A ball has a cell in the boundary-scan register: every signal ball except the lane, reference-clock, TDIODE, ZQ and RSVD balls. -/
def Ball.scanned : Ball → Bool
  | .supply _ | .rsvd | .lane _ _ _ => false
  | .ddr _ k => k != 146
  | .sys n => !(["REFCLK_P", "REFCLK_N", "PCIE_REFCLK_P", "PCIE_REFCLK_N", "TDIODE_P", "TDIODE_N"].contains n)
  | _ => true
/-- The balls with cells, rows first and then columns. -/
def scanCells : List (Nat × Nat) :=
  ((List.range 52).flatMap fun r => (List.range 52).map fun c => (r, c + 1)).filter fun e => (ballAt e.1 e.2).scanned

/-! ### Output balls (R365, R399) -/

/-- The output balls of R399. -/
inductive OutBall where
  | lane (l : Nat)
  | ddrReset (c : Nat)
  | ddrCke (c : Nat)
  | ddrCk (c : Nat)
  | ddrOther (c : Nat)
  | camTrig (c k : Nat)
  | posClk (n : Nat)
  | flCs | flSclk
  | faultN | warnN | spdCeil
  | smb
  | mfio (m : Nat)
  | tdo
  deriving DecidableEq, Repr

/-- What an output ball does: nothing, a level, an open drain released, an idle pair, or the signals that its block's protocol gives it. -/
inductive BallState where
  | hiZ | low | high | released | idle | active
  deriving DecidableEq, Repr

/-- The level of a ball that is driven. -/
def levelOf (b : Bool) : BallState := if b then .high else .low
/-- An open-drain ball. -/
def drain (low : Bool) : BallState := if low then .low else .released
/-- TRIG0 or TRIG1 of a camera port is high (R258, R259, R273). -/
def State.trigHigh (s : State) (c k : Nat) : Bool :=
  if k = 0 then s.trig0High c
  else s.working (pCAM c) && (match (s.camAt c).trig1Until with | some u => decide (s.tick < u) | none => false)
/-- A function of PINMUX drives MFIO ball m (R405). -/
def State.mfioOwned (s : State) (m : Nat) : Bool :=
  (List.range 8).any fun k => s.flag pPINMUX (R.PINMUX_FN_EN.nth 4 k) && s.get pPINMUX (R.PINMUX_FN_BALL.nth 4 k) == m
/-- The state of an output ball without power (R399). -/
def OutBall.unpowered : OutBall → BallState
  | .lane _ => .idle
  | .faultN | .warnN | .spdCeil | .smb => .released
  | _ => .hiZ
/-- The state of an output ball in cold reset, from a warm reset on until its block is brought up again, and in service (R353, R365, R372,
R399, R405). The warm reset itself is one step (R374), and the SMBus is driven only within one, in SPD and sensor reads. TDO shows the bit
at the end of the data register in Shift-DR. -/
def State.ballState (s : State) : OutBall → BallState
  | .lane l =>
    if s.inReset then .idle
    else if 128 ≤ l && l < 132 then .active
    else match s.laneTx l with | .idle => .idle | _ => .active
  | .ddrReset c => if s.inReset then .low else if (s.dramAt c).trained || s.boot.warm then .high else .low
  | .ddrCke c => if (s.dramAt c).trained && !s.shut then .active else .low
  | .ddrCk c => if (s.dramAt c).trained && !s.shut then .active else if s.boot.warm && !s.inReset then .low else .hiZ
  | .ddrOther c => if (s.dramAt c).trained && !s.shut then .active else .hiZ
  | .camTrig c k => levelOf (s.trigHigh c k)
  | .posClk n => if s.inReset || (s.posAt n).xfer.isNone then .high else .active
  | .flCs => if s.inReset || s.boot.op.isNone then .high else .low
  | .flSclk => if s.inReset || s.boot.op.isNone then .low else .active
  | .faultN => drain s.faultPin
  | .warnN => drain s.warnPin
  | .spdCeil => drain (!s.spdCeil)
  | .smb => .released
  | .mfio m => if s.inReset || !s.mfioOwned m then .hiZ else levelOf (s.ballLevel m)
  | .tdo => match s.tapReg with | some (b :: _) => levelOf b | _ => .hiZ

/-! ### The balls by place, and the TAP (R401; log 130) -/

/-- The output that a ball carries, of R399. -/
def Ball.out : Ball → Option OutBall
  | .lane l tx _ => if tx then some (.lane l) else none
  | .cam c k => if k = 68 then some (.camTrig c 0) else if k = 69 then some (.camTrig c 1) else none
  | .pos n k => if 10 ≤ n && k < 2 then some (.posClk n) else none
  | .ddr c k =>
    if k = 145 then some (.ddrReset c) else if k = 141 || k = 142 then some (.ddrCke c)
    else if 133 ≤ k && k < 137 then some (.ddrCk c) else if k = 132 || k = 146 then none else some (.ddrOther c)
  | .sys n =>
    if n = "FAULT_N" then some .faultN else if n = "WARN_N" then some .warnN else if n = "SPD_CEIL" then some .spdCeil
    else if n = "SMB_SCL" || n = "SMB_SDA" then some .smb else if n = "FL_CS_N" then some .flCs else if n = "FL_SCLK" then some .flSclk
    else if n = "TDO" then some .tdo
    else ((List.range 8).find? fun m => n == "MFIO" ++ toString m).map .mfio
  | _ => none
/-- The level that the boundary cell of a place holds; one that was never loaded is a free value. -/
def State.cellLevel (s : State) (r c : Nat) : Bool :=
  let i := scanCells.idxOf (r, c)
  s.cells.getD i (Config.free (130 * 2 ^ 32 + i) 0 % 2 == 1)
/-- What the device does at the ball of a place: its cell controls an output under EXTEST and CLAMP, and under HIGHZ it floats; the N side
of a clock pair is the inverse of its P side. An input, a supply and a ball without a signal are not driven. -/
def State.pinState (s : State) (r c : Nat) : BallState :=
  let b := ballAt r c
  match b.out with
  | none => .hiZ
  | some o =>
    if o == .tdo || !b.scanned || !s.tapHolds then
      match b, s.ballState o with
      | .pos _ 1, .high => .low
      | .pos _ 1, .low => .high
      | _, x => x
    else if s.tap == .highz then .hiZ
    else levelOf (s.cellLevel r c)
/-- The level at an input ball, where State holds it. -/
def State.inputLevel (s : State) : Ball → Option Bool
  | .sys n =>
    if n = "RESET_N" then some (!s.inReset) else if n = "HOME" then some s.liveStraps.home
    else if n = "PAIR_EN" then some s.liveStraps.pairEn
    else match (List.range 4).find? fun k => n == "UNIT_ID" ++ toString k with
      | some k => some (bit s.liveStraps.unitId.toNat k)
      | none => ((List.range 8).find? fun m => n == "MFIO" ++ toString m).map fun m => bit s.mfioIn.toNat m
  | _ => none
/-- What the cell of a place captures: the level that the device drives there, or that stands there; a level that State does not hold is a
free value. -/
def State.cellCapture (s : State) (x : (Nat × Nat) × Nat) : Bool :=
  let b := ballAt x.1.1 x.1.2
  match s.pinState x.1.1 x.1.2 with
  | .high => true
  | .low => false
  | _ => (s.inputLevel b).getD (Config.free (130 * 2 ^ 32 + 2 ^ 31 + x.2) s.fresh % 2 == 1)
/-- What Capture-DR loads into the data register of the instruction in force, the bit that leaves first at the front (IEEE 1149.1). -/
def State.tapCapture (s : State) : List Bool :=
  match s.tap with
  | .idcode => (List.range 32).map fun i => tapIdcode.getLsbD i
  | .samplePreload | .extest => scanCells.zipIdx.map s.cellCapture
  | _ => [false]
/-- TAP_CONTROL: the TAP is reset, which puts IDCODE in force, an instruction comes into force, bits are shifted through the data register,
or Update-DR ends a shift and loads the boundary cells (R401; logs 68, 130). -/
def execTapControl (op : TapOp) (s : State) : Host.Outcome State Fault Refusal :=
  .next <|
    match op with
    | .reset => { s with tap := .idcode, tapReg := none }
    | .shift tdi =>
      let l := s.tapReg.getD s.tapCapture ++ tdi
      ({ s with tapReg := some (l.drop tdi.length) }.emit (.tdo (l.take tdi.length))).tickFresh
    | .update =>
      let cells := if s.tap = .samplePreload ∨ s.tap = .extest then s.tapReg.getD s.cells else s.cells
      { s with tapReg := none, cells := cells }
    | x => { s with tap := x, tapReg := none }

end Sys2Proof.Machine
end

