-- ==== Sys2Proof/Machine/Dispatch.lean ====
section
/-! DEFINITION. The meaning of every command: one arm per constructor of Instr. -/

namespace Sys2Proof.Machine

/-- The effect of a command on the block. -/
def exec (i : Instr) (s : State) : Host.Outcome State Fault Refusal :=
  match i with
  | .registerWrite t v be => Sys2Proof.Machine.execRegisterWrite t v be s
  | .latchingRead t => Sys2Proof.Machine.execLatchingRead t s
  | .pgCtrlEn p en => Sys2Proof.Machine.execPgCtrlEn p en s
  | .srst p en => Sys2Proof.Machine.execSrst p en s
  | .softResetStart p => Sys2Proof.Machine.execSoftResetStart p s
  | .softResetTimeout p => Sys2Proof.Machine.execSoftResetTimeout p s
  | .softResetComplete p => Sys2Proof.Machine.execSoftResetComplete p s
  | .fenceRel p en srst => Sys2Proof.Machine.execFenceRel p en srst s
  | .fence p reasons src addr => Sys2Proof.Machine.execFence p reasons src addr s
  | .pgIrqRawW1c p mask => Sys2Proof.Machine.execPgIrqRawW1c p mask s
  | .errClear p => Sys2Proof.Machine.execErrClear p s
  | .commit p gen immediate => Sys2Proof.Machine.execCommit p gen immediate s
  | .pgLockUnlock p => Sys2Proof.Machine.execPgLockUnlock p s
  | .pgLockLock p => Sys2Proof.Machine.execPgLockLock p s
  | .vclr => Sys2Proof.Machine.execVclr s
  | .cclr => Sys2Proof.Machine.execCclr s
  | .apertureAccess a acc => Sys2Proof.Machine.execApertureAccess a acc s
  | .bar2Access w acc => Sys2Proof.Machine.execBar2Access w acc s
  | .encodeSegmentLine b => Sys2Proof.Machine.execEncodeSegmentLine b s
  | .forceKey b => Sys2Proof.Machine.execForceKey b s
  | .decodeRecord b live => Sys2Proof.Machine.execDecodeRecord b live s
  | .ringRelayout b => Sys2Proof.Machine.execRingRelayout b s
  | .lineBoundary b holdN => Sys2Proof.Machine.execLineBoundary b holdN s
  | .handOver b => Sys2Proof.Machine.execHandOver b s
  | .pipeSwapGo b whn tables => Sys2Proof.Machine.execPipeSwapGo b whn tables s
  | .pipeCopy b tables => Sys2Proof.Machine.execPipeCopy b tables s
  | .copyEnd b => Sys2Proof.Machine.execCopyEnd b s
  | .frameStart h => Sys2Proof.Machine.execFrameStart h s
  | .frameEnd h => Sys2Proof.Machine.execFrameEnd h s
  | .fireSend h => Sys2Proof.Machine.execFireSend h s
  | .telemetryRecord h bytes => Sys2Proof.Machine.execTelemetryRecord h bytes s
  | .telemetryTimeout h => Sys2Proof.Machine.execTelemetryTimeout h s
  | .countUpdate c a b => Sys2Proof.Machine.execCountUpdate c a b s
  | .index c => Sys2Proof.Machine.execIndex c s
  | .lossOfSignal c sig => Sys2Proof.Machine.execLossOfSignal c sig s
  | .still c => Sys2Proof.Machine.execStill c s
  | .posStart => Sys2Proof.Machine.execPosStart s
  | .serialTransferStart c => Sys2Proof.Machine.execSerialTransferStart c s
  | .serialWord c w => Sys2Proof.Machine.execSerialWord c w s
  | .serialTimeout c => Sys2Proof.Machine.execSerialTimeout c s
  | .posCmpWrite c k v => Sys2Proof.Machine.execPosCmpWrite c k v s
  | .posCmpDisarm c mask => Sys2Proof.Machine.execPosCmpDisarm c mask s
  | .posCompareFire c k => Sys2Proof.Machine.execPosCompareFire c k s
  | .stretchWindowClose b => Sys2Proof.Machine.execStretchWindowClose b s
  | .lineAdjGo b whn => Sys2Proof.Machine.execLineAdjGo b whn s
  | .dmaDb c => Sys2Proof.Machine.execDmaDb c s
  | .dmaBurst c host => Sys2Proof.Machine.execDmaBurst c host s
  | .descriptorComplete c => Sys2Proof.Machine.execDescriptorComplete c s
  | .dmaCmdResume c => Sys2Proof.Machine.execDmaCmdResume c s
  | .dmaCmdAbort c => Sys2Proof.Machine.execDmaCmdAbort c s
  | .completionTimeout c => Sys2Proof.Machine.execCompletionTimeout c s
  | .jeEn mask => Sys2Proof.Machine.execJeEn mask s
  | .dmacJdb mask => Sys2Proof.Machine.execDmacJdb mask s
  | .jobDescriptorFetch b => Sys2Proof.Machine.execJobDescriptorFetch b s
  | .feedFrameReceive p bytes => Sys2Proof.Machine.execFeedFrameReceive p bytes s
  | .pauseReceive p quanta => Sys2Proof.Machine.execPauseReceive p quanta s
  | .pauseExpiry p => Sys2Proof.Machine.execPauseExpiry p s
  | .pauseRepeat p => Sys2Proof.Machine.execPauseRepeat p s
  | .recordDelivery p live => Sys2Proof.Machine.execRecordDelivery p live s
  | .gapTimeout p live => Sys2Proof.Machine.execGapTimeout p live s
  | .ackTimeout p live => Sys2Proof.Machine.execAckTimeout p live s
  | .profstb sel => Sys2Proof.Machine.execProfstb sel s
  | .profCmdGo slot reload => Sys2Proof.Machine.execProfCmdGo slot reload s
  | .profCmdReload slot => Sys2Proof.Machine.execProfCmdReload slot s
  | .reloadEnd => Sys2Proof.Machine.execReloadEnd s
  | .pwmPeriod => Sys2Proof.Machine.execPwmPeriod s
  | .underrunWarnExpiry => Sys2Proof.Machine.execUnderrunWarnExpiry s
  | .peerCeilingExpiry => Sys2Proof.Machine.execPeerCeilingExpiry s
  | .helloSend => Sys2Proof.Machine.execHelloSend s
  | .stateSend => Sys2Proof.Machine.execStateSend s
  | .timeSend => Sys2Proof.Machine.execTimeSend s
  | .commandResend mseq => Sys2Proof.Machine.execCommandResend mseq s
  | .crookDown => Sys2Proof.Machine.execCrookDown s
  | .hello hd ver pairEn home unit st => Sys2Proof.Machine.execHello hd ver pairEn home unit st s
  | .state hd st level ack lines cause => Sys2Proof.Machine.execState hd st level ack lines cause s
  | .time hd reply t1 t2 t3 => Sys2Proof.Machine.execTime hd reply t1 t2 t3 s
  | .digest hd b ok undr segblk line tbnd wsrc digs => Sys2Proof.Machine.execDigest hd b ok undr segblk line tbnd wsrc digs s
  | .digestTimeout b line => Sys2Proof.Machine.execDigestTimeout b line s
  | .breathMessage hd target => Sys2Proof.Machine.execBreathMessage hd target s
  | .giveupMessage hd cause lines => Sys2Proof.Machine.execGiveupMessage hd cause lines s
  | .join hd ts => Sys2Proof.Machine.execJoin hd ts s
  | .joinLatch => Sys2Proof.Machine.execJoinLatch s
  | .joinData hd ts bars => Sys2Proof.Machine.execJoinData hd ts bars s
  | .joinRetry => Sys2Proof.Machine.execJoinRetry s
  | .profMessage hd slot armLine check => Sys2Proof.Machine.execProfMessage hd slot armLine check s
  | .swapMessage hd b tables whn line lineAtGo => Sys2Proof.Machine.execSwapMessage hd b tables whn line lineAtGo s
  | .adj hd b line adj => Sys2Proof.Machine.execAdj hd b line adj s
  | .gain hd b line g => Sys2Proof.Machine.execGain hd b line g s
  | .chain hd b profEn prof first jobId lines => Sys2Proof.Machine.execChain hd b profEn prof first jobId lines s
  | .trim hd b line k0 nk arm dot part npart cycle deltas => Sys2Proof.Machine.execTrim hd b line k0 nk arm dot part npart cycle deltas s
  | .calMessage hd record => Sys2Proof.Machine.execCalMessage hd record s
  | .hold hd b held line => Sys2Proof.Machine.execHold hd b held line s
  | .pairCmdGiveup => Sys2Proof.Machine.execPairCmdGiveup s
  | .pairCmdResume => Sys2Proof.Machine.execPairCmdResume s
  | .reclaim => Sys2Proof.Machine.execReclaim s
  | .holdOffExpiry => Sys2Proof.Machine.execHoldOffExpiry s
  | .soloTimeout => Sys2Proof.Machine.execSoloTimeout s
  | .cameraLine c pixels check fvalFell => Sys2Proof.Machine.execCameraLine c pixels check fvalFell s
  | .frameStartEvent c src => Sys2Proof.Machine.execFrameStartEvent c src s
  | .frameClose c => Sys2Proof.Machine.execFrameClose c s
  | .trig0Rise c => Sys2Proof.Machine.execTrig0Rise c s
  | .triggerPulseEnd c k => Sys2Proof.Machine.execTriggerPulseEnd c k s
  | .coverageReadComplete c => Sys2Proof.Machine.execCoverageReadComplete c s
  | .statisticsRecord c => Sys2Proof.Machine.execStatisticsRecord c s
  | .flushEnd c => Sys2Proof.Machine.execFlushEnd c s
  | .solveEnd t => Sys2Proof.Machine.execSolveEnd t s
  | .trimCycleBar b => Sys2Proof.Machine.execTrimCycleBar b s
  | .calCmdGo kind => Sys2Proof.Machine.execCalCmdGo kind s
  | .calCmdAbort => Sys2Proof.Machine.execCalCmdAbort s
  | .calCmdCont => Sys2Proof.Machine.execCalCmdCont s
  | .calRunEnd => Sys2Proof.Machine.execCalRunEnd s
  | .flatInstall => Sys2Proof.Machine.execFlatInstall s
  | .calRecordIn => Sys2Proof.Machine.execCalRecordIn s
  | .alertN c => Sys2Proof.Machine.execAlertN c s
  | .replay c again => Sys2Proof.Machine.execReplay c again s
  | .alertTimeout c => Sys2Proof.Machine.execAlertTimeout c s
  | .dramMigCmd c lr => Sys2Proof.Machine.execDramMigCmd c lr s
  | .migrationCopyUnit c => Sys2Proof.Machine.execMigrationCopyUnit c s
  | .refresh c rank => Sys2Proof.Machine.execRefresh c rank s
  | .retrainPause c rank => Sys2Proof.Machine.execRetrainPause c rank s
  | .trackerClear => Sys2Proof.Machine.execTrackerClear s
  | .scrubGo mem => Sys2Proof.Machine.execScrubGo mem s
  | .scrubStop => Sys2Proof.Machine.execScrubStop s
  | .scrubUnit => Sys2Proof.Machine.execScrubUnit s
  | .spareWrite spare => Sys2Proof.Machine.execSpareWrite spare s
  | .laneCmdSlip l n => Sys2Proof.Machine.execLaneCmdSlip l n s
  | .laneCmdSearch l => Sys2Proof.Machine.execLaneCmdSearch l s
  | .searchEnd l found => Sys2Proof.Machine.execSearchEnd l found s
  | .laneCmdEscan l => Sys2Proof.Machine.execLaneCmdEscan l s
  | .escanEnd l counts => Sys2Proof.Machine.execEscanEnd l counts s
  | .blockLock l => Sys2Proof.Machine.execBlockLock l s
  | .blockLockLoss l => Sys2Proof.Machine.execBlockLockLoss l s
  | .cdrLoss l => Sys2Proof.Machine.execCdrLoss l s
  | .exitTimeout l => Sys2Proof.Machine.execExitTimeout l s
  | .samplerStep l => Sys2Proof.Machine.execSamplerStep l s
  | .pcieReset e => Sys2Proof.Machine.execPcieReset e s
  | .endpointReady width speed => Sys2Proof.Machine.execEndpointReady width speed s
  | .msixMessage v => Sys2Proof.Machine.execMsixMessage v s
  | .coalHoldoffExpiry v => Sys2Proof.Machine.execCoalHoldoffExpiry v s
  | .timeCmdSet => Sys2Proof.Machine.execTimeCmdSet s
  | .timeCmdStep => Sys2Proof.Machine.execTimeCmdStep s
  | .timeCmdSlew => Sys2Proof.Machine.execTimeCmdSlew s
  | .slewEnd => Sys2Proof.Machine.execSlewEnd s
  | .timeCmdSnap => Sys2Proof.Machine.execTimeCmdSnap s
  | .timeCmpArm k hi => Sys2Proof.Machine.execTimeCmpArm k hi s
  | .timeCmpDisarm k => Sys2Proof.Machine.execTimeCmpDisarm k s
  | .compareFire k => Sys2Proof.Machine.execCompareFire k s
  | .pinmuxPulseEnd k => Sys2Proof.Machine.execPinmuxPulseEnd k s
  | .coldReset => Sys2Proof.Machine.execColdReset s
  | .supplyDetect => Sys2Proof.Machine.execSupplyDetect s
  | .resetRelease straps => Sys2Proof.Machine.execResetRelease straps s
  | .strapchg live => Sys2Proof.Machine.execStrapchg live s
  | .sysWrst => Sys2Proof.Machine.execSysWrst s
  | .warmResetStart => Sys2Proof.Machine.execWarmResetStart s
  | .stepClk locked => Sys2Proof.Machine.execStepClk locked s
  | .stepFlash info => Sys2Proof.Machine.execStepFlash info s
  | .stepBoard => Sys2Proof.Machine.execStepBoard s
  | .stepProf => Sys2Proof.Machine.execStepProf s
  | .stepLanes => Sys2Proof.Machine.execStepLanes s
  | .stepCrook => Sys2Proof.Machine.execStepCrook s
  | .stepDram spd => Sys2Proof.Machine.execStepDram spd s
  | .stepCal => Sys2Proof.Machine.execStepCal s
  | .bootRetry step => Sys2Proof.Machine.execBootRetry step s
  | .bootCmdRetry => Sys2Proof.Machine.execBootCmdRetry s
  | .read => Sys2Proof.Machine.execRead s
  | .prog => Sys2Proof.Machine.execProg s
  | .erase4k => Sys2Proof.Machine.execErase4k s
  | .erase64k => Sys2Proof.Machine.execErase64k s
  | .flashOperationEnd timeout => Sys2Proof.Machine.execFlashOperationEnd timeout s
  | .mainPllLoss => Sys2Proof.Machine.execMainPllLoss s
  | .thermSample temp => Sys2Proof.Machine.execThermSample temp s
  | .crookMessageNotIntact => Sys2Proof.Machine.execCrookMessageNotIntact s
  | .dimmTemperatureRead c temp => Sys2Proof.Machine.execDimmTemperatureRead c temp s
  | .recentringEnd c ok => Sys2Proof.Machine.execRecentringEnd c ok s
  | .channelTrained c ok => Sys2Proof.Machine.execChannelTrained c ok s
  | .prbsSync l sync => Sys2Proof.Machine.execPrbsSync l sync s
  | .tapControl op => Sys2Proof.Machine.execTapControl op s

end Sys2Proof.Machine
end

