-- ==== Sys2Proof/Safety.lean ====
section
/-! DEFINITION. What the statements call a sound state and a safe step. -/

namespace Sys2Proof.Machine

/-- The four memories are in canonical form: addresses strictly rising, and no flash byte listed that reads as an erased one
does (logs 4, 6). -/
def State.memSound (s : State) : Prop :=
  Memory.wf s.lstore = true ∧ Memory.wf s.dramMem = true ∧ Memory.wf s.dramChk = true ∧ Memory.wf s.flash = true ∧
    ∀ e ∈ s.flash, e.2 ≠ 0xFF

/-- No page is fenced whose block never fences (R47, R340, R380). -/
def State.fenceSound (s : State) : Prop :=
  ∀ p b i, blkOf p = some (b, i) → neverFences b i = true → s.fenced p = false

/-- The step goes on: it answers a next state. -/
def State.goesOn (s : State) : Prop := ∃ t, step s = .next t

/-- A state equal to another in everything but registers, interrupt requests and latches: what a plain host write may change. -/
def State.sameBlocks (s t : State) : Prop :=
  ({ t with
    regs := s.regs
    latch := s.latch
    host := s.host } : State) = s

/-- A host write of v to register off of page p is served and breaks no access rule (R12, R49). -/
def State.accepts (s : State) (p off v : Nat) : Prop := s.hostServed = true ∧ s.writeKind p off v 15 = 0

/-- A state equal to another in everything but registers and the interrupt requests that wait. -/
def State.sameBehind (s t : State) : Prop :=
  ({ t with
    regs := s.regs
    host := { t.host with waiting := s.host.waiting } } : State) = s

/-- Every register field but those listed, by page and field, reads in t as in s. -/
def State.regsBut (s t : State) (l : List (Nat × Fld)) : Prop :=
  ∀ q g, (∀ e ∈ l, q ≠ e.1 ∨ g.id ≠ e.2.id) → t.get q g = s.get q g

/-- The queue and every byte of the four memories stand. -/
def State.sameMemory (s t : State) : Prop :=
  t.pending = s.pending ∧ t.lstore = s.lstore ∧ t.dramMem = s.dramMem ∧ t.dramChk = s.dramChk ∧ t.flash = s.flash

/-- Every line-store byte outside the regions listed, each by its first address and its length, stands (R57). -/
def State.lsWithin (s t : State) (r : List (Nat × Nat)) : Prop :=
  ∀ a, (∀ e ∈ r, a < e.1 ∨ e.1 + e.2 ≤ a) → Memory.get t.lstore a = Memory.get s.lstore a
/-- The queue, DRAM and the flash stand, and so does every line-store byte outside the regions listed. -/
def State.lsOnly (s t : State) (r : List (Nat × Nat)) : Prop :=
  t.pending = s.pending ∧ t.dramMem = s.dramMem ∧ t.dramChk = s.dramChk ∧ t.flash = s.flash ∧ s.lsWithin t r

/-- The key of the first byte that a burst at a DRAM address is kept under, in the rank that serves it (R302, R317). -/
def State.burstKey (s : State) (a : Nat) : Nat :=
  dramKey (s.dramPlace a).1 (s.physRank (s.dramPlace a).1 (s.dramPlace a).2.1 (s.dramPlace a).2.2) (s.dramPlace a).2.2
/-- The key of its first check symbol. -/
def State.burstChk (s : State) (a : Nat) : Nat :=
  chkKey (s.dramPlace a).1 (s.physRank (s.dramPlace a).1 (s.dramPlace a).2.1 (s.dramPlace a).2.2) (s.dramPlace a).2.2 0
/-- Every DRAM byte and check symbol outside the bursts at the addresses listed stands. -/
def State.dramOnly (s t : State) (l : List Nat) : Prop :=
  (∀ k, (∀ x ∈ l, k < s.burstKey x ∨ s.burstKey x + 64 ≤ k) → Memory.get t.dramMem k = Memory.get s.dramMem k) ∧
  ∀ k, (∀ x ∈ l, k < s.burstChk x ∨ s.burstChk x + 8 ≤ k) → Memory.get t.dramChk k = Memory.get s.dramChk k
/-- The queue and the flash stand, and so does DRAM outside the job-record ring and the bursts listed, where the ring's write position is
the place of a record (R185). -/
def State.recordsOnly (s t : State) (l : List Nat) : Prop :=
  t.pending = s.pending ∧ t.flash = s.flash ∧
    (s.get pDMAC R.DMAC_JREC_WR % 32 = 0 → s.get pDMAC R.DMAC_JREC_WR < s.jrecSize →
      s.dramOnly t (burstsOf (s.get64 pDMAC R.DMAC_JREC_BASE_LO R.DMAC_JREC_BASE_HI) s.jrecSize ++ l))
/-- The bursts at the addresses listed, every other byte of the memories and the queue stand. -/
def State.dramStores (s t : State) (l : List Nat) : Prop :=
  t.pending = s.pending ∧ t.lstore = s.lstore ∧ t.flash = s.flash ∧ s.dramOnly t l

/-- A Crook message with a head is heard and not yet taken: the page works, a lane hears it and its number is new (R229). -/
def State.hears (s : State) (hd : CrookHdr) : Prop :=
  s.pairOn = true ∧ s.crookLanes ≠ 0 ∧ s.pair.seen.contains hd.mseq.toNat = false
/-- The state in which a message heard is acted on: Crook is up, and the message's number is known (R229). -/
def State.noted (s : State) (hd : CrookHdr) : State := s.crookRise.msgNote hd.mseq.toNat
/-- The command message is acted on: neither unit reads JOIN (R234). -/
def State.hearsCmd (s : State) (hd : CrookHdr) : Prop := s.hears hd ∧ s.pairState ≠ 3 ∧ s.peerState ≠ 3

/-- The fields of the error and cause registers that an error of page p may change (R40). -/
def errFields (p : Nat) : List (Nat × Fld) :=
  [(p, R.PG_ERR_CNT), (p, R.PG_ERR_ADDR_LO), (p, R.PG_ERR_ADDR_HI), (p, R.PG_ERR_INFO_SRC), (p, R.PG_ERR_INFO_DIR),
   (p, R.PG_ERR_INFO_CODE), (p, R.PG_IRQ_RAW)]

/-- The register write that a command is: its page, the register's offset and the value written; none for a command that is not a
write of one register (R12, and the row's own rule). -/
def State.hostWrite (s : State) : Instr → Option (Nat × Nat × Nat)
  | .pgCtrlEn p en => some (p, 4, b2n en)
  | .srst p en => some (p, 4, 2 + b2n en)
  | .fenceRel p en srst => some (p, 4, 16 + 2 * b2n srst + b2n en)
  | .pgIrqRawW1c p mask => some (p, 0x10, mask.toNat)
  | .errClear p => some (p, 0x10, 2)
  | .commit p gen imm => some (p, 0x2C, 256 * gen.toNat + 2 * b2n imm + 1)
  | .pgLockUnlock p => some (p, 0x34, 0xA5A)
  | .pgLockLock p => some (p, 0x34, 0)
  | .vclr => some (pSYS, 0x10C, 1)
  | .cclr => some (pSYS, 0x10C, 2)
  | .forceKey b => some (pENC b, 0x40, 256 * s.get (pENC b) R.ENC_CTRL_KEY_INT + 1)
  | .pipeSwapGo b whn tables => some (pPIPE b, 0x4C, 2 ^ 31 + 16 * whn.toNat + tables.toNat)
  | .pipeCopy b tables => some (pPIPE b, 0x54, tables.toNat)
  | .posCmpWrite c k v => some (pPOS c, 0x80 + 4 * k, v.toNat)
  | .posCmpDisarm c mask => some (pPOS c, 0x88, mask.toNat)
  | .lineAdjGo b whn => some (pLINE b, 0x7C, 2 ^ 31 + 16 * whn.toNat)
  | .dmaDb c => some (pDMA c, 0x58, 1)
  | .dmaCmdResume c => some (pDMA c, 0x5C, 1)
  | .dmaCmdAbort c => some (pDMA c, 0x5C, 2)
  | .jeEn mask => some (pDMAC, 0x40, mask.toNat)
  | .dmacJdb mask => some (pDMAC, 0x44, mask.toNat)
  | .profCmdGo slot reload => some (pPROF, 0x44, 2 ^ 31 + 256 * b2n reload + slot.toNat)
  | .profCmdReload slot => some (pPROF, 0x44, 256 + slot.toNat)
  | .reclaim => some (pPAIR, 0x44, 1)
  | .pairCmdGiveup => some (pPAIR, 0x44, 2)
  | .pairCmdResume => some (pPAIR, 0x44, 4)
  | .calCmdGo kind => some (pCAL, 0x40, 2 ^ 31 + kind.toNat)
  | .calCmdAbort => some (pCAL, 0x40, 0x200)
  | .calCmdCont => some (pCAL, 0x40, 0x100)
  | .dramMigCmd c lr => some (pDRAM c, 0x48, 2 ^ 31 + lr.toNat)
  | .scrubGo mem => some (pSCRUB, 0x40, 2 ^ 31 + b2n mem)
  | .scrubStop => some (pSCRUB, 0x40, 2 ^ 30 + s.get pSCRUB R.SCRUB_CTRL_MEM)
  | .spareWrite spare => some (pDRAMC, 0x40, 16 * b2n spare + s.get pDRAMC R.DRAMC_CFG_MODE)
  | .laneCmdSlip l n => some (pLANE l, 0x50, n.toNat)
  | .laneCmdSearch l => some (pLANE l, 0x50, 2 ^ 31)
  | .laneCmdEscan l => some (pLANE l, 0x50, 2 ^ 30)
  | .timeCmdSet => some (pTIME, 0x70, 1)
  | .timeCmdStep => some (pTIME, 0x70, 2)
  | .timeCmdSnap => some (pTIME, 0x70, 4)
  | .timeCmdSlew => some (pTIME, 0x70, 8)
  | .timeCmpArm k hi => some (pTIME, 0x104 + 16 * k, hi.toNat)
  | .timeCmpDisarm k => some (pTIME, 0x108 + 16 * k, 1 + 256 * s.get pTIME (R.TIME_CMP_CTRL_SW_EN.nth 16 k))
  | .sysWrst => some (pSYS, 0x48, 0x5A5A)
  | .bootCmdRetry => some (pBOOT, 0x4C, 1)
  | .read => some (pBOOT, 0xD0, 2 ^ 31)
  | .prog => some (pBOOT, 0xD0, 2 ^ 31 + 1)
  | .erase4k => some (pBOOT, 0xD0, 2 ^ 31 + 2)
  | .erase64k => some (pBOOT, 0xD0, 2 ^ 31 + 3)
  | _ => none

end Sys2Proof.Machine

namespace Sys2Proof

/-- The head of the Crook message that a command delivers; none for a command that delivers none (R230). -/
def Instr.crookHead : Instr → Option CrookHdr
  | .hello hd _ _ _ _ _ | .state hd _ _ _ _ _ | .time hd _ _ _ _ | .digest hd _ _ _ _ _ _ _ _ | .breathMessage hd _
  | .giveupMessage hd _ _ | .join hd _ | .joinData hd _ _ | .profMessage hd _ _ _ | .swapMessage hd _ _ _ _ _ | .adj hd _ _ _
  | .gain hd _ _ _ | .chain hd _ _ _ _ _ _ | .trim hd _ _ _ _ _ _ _ _ _ _ | .calMessage hd _ | .hold hd _ _ _ => some hd
  | _ => none

/-- The commands whose effect may store into a memory: all others leave every byte of the line store, DRAM and the flash as it is. -/
def Instr.mayStore : Instr → Bool
  | .alertTimeout _ | .apertureAccess _ _ | .bar2Access _ _ | .registerWrite _ _ _ | .blockLock _ | .blockLockLoss _ | .calRecordIn | .calRunEnd
  | .cameraLine _ _ _ _ | .cdrLoss _ | .channelTrained _ _ | .coldReset | .copyEnd _ | .coverageReadComplete _
  | .decodeRecord _ _ | .dmaBurst _ _ | .dmacJdb _ | .encodeSegmentLine _ | .exitTimeout _ | .feedFrameReceive _ _
  | .fence _ _ _ _ | .fenceRel _ _ _ | .flashOperationEnd _ | .flatInstall | .flushEnd _ | .frameClose _ | .handOver _ | .jeEn _
  | .jobDescriptorFetch _ | .lineBoundary _ _ | .migrationCopyUnit _ | .pgCtrlEn _ _ | .recentringEnd _ _ | .replay _ _ | .ringRelayout _ | .scrubUnit | .slewEnd
  | .softResetStart _ | .softResetTimeout _ | .solveEnd _ | .srst _ _ | .stepCal | .stepDram _ | .supplyDetect | .telemetryTimeout _ | .thermSample _
  | .trim _ _ _ _ _ _ _ _ _ _ _ | .trimCycleBar _ => true
  | _ => false

end Sys2Proof
end

