-- ==== Sys2Proof/Certificates/Slice0/Obligations.lean ====
section
/-! DEFINITION. The statements about the G880's commands, family by family; each docstring names the rules it formalises. -/

open Sys2Proof Sys2Proof.Machine

/-! ### The machine as a whole -/

/-- A step with command c at the front of the queue is exec of c on the state with the rest of the queue (log 1).
The model's own choices in it: log 1. -/
def Obligations.StepTakesFront : Prop :=
  ∀ (c : Instr) (r : List Instr) (s : State), s.pending = c :: r → step s = exec c { s with pending := r }

/-- On an empty queue one tick of 6.4 ns passes: with the clock running and TIME_CMD clear, the tick count rises by one, C advances by
INC and, while a slew runs, by its extra, modulo 2^96, or stands where TIME is disabled, the MFIO balls take the levels that come to
them, and no other register, block or memory changes; then DRAM serves what waits, which does nothing where no request, doorbell,
acknowledgement, DMA channel, job engine or decoder is known to wait. Without the main clock only the oscillator counts and the balls
take their levels, and in reset nothing does (R18, R354, R356, R383, R405). That an idle step is a tick is the model's choice, log 1;
that a slew's extra is TIME_SLEW as it stands at each tick is the model's choice, log 63; the free level of a ball is log 5's.
The model's own choices in it: logs 1, 5, 63. -/
def Obligations.IdleStepIsATick : Prop :=
  ∀ s : State, s.pending = [] →
    (s.inReset = true → step s = .next s) ∧
    (s.inReset = false → s.heldClock = true →
      step s = .next { s with osc := s.osc + 1, mfioIn := Config.mfioLevel s.fresh s.osc }) ∧
    (s.ticks = true → s.timeCmd = 0 → ∃ t : State, step s = .next t.dramWake ∧
      (s.dramWait = [] → s.bells = [] → s.ackDue = [] → s.dma = [] → s.job = [] → s.dec = [] → t.dramWake = t) ∧
      t.tick = s.tick + 1 ∧ t.osc = s.osc + 1 ∧ t.mfioIn = Config.mfioLevel s.fresh s.osc ∧
      (s.enabled pTIME = false → t.timeC = s.timeC % 2 ^ 96) ∧
      (s.enabled pTIME = true → s.get pTIME R.TIME_SLEW_LEFT = 0 → t.timeC = (s.timeC + s.timeInc) % 2 ^ 96) ∧
      (s.enabled pTIME = true → s.get pTIME R.TIME_SLEW_LEFT ≠ 0 →
        (t.timeC : Int) = (s.timeC + s.timeInc + sgn 32 (s.get pTIME R.TIME_SLEW)) % 2 ^ 96) ∧
      (s.enabled pTIME = true →
        t.get pTIME R.TIME_SLEW_LEFT = (s.get pTIME R.TIME_SLEW_LEFT - 1) % 2 ^ R.TIME_SLEW_LEFT.w) ∧
      s.regsBut t [(pTIME, R.TIME_SLEW_LEFT)] ∧
      ({ t with tick := s.tick, osc := s.osc, cNs := s.cNs, cFrac := s.cFrac, regs := s.regs, mfioIn := s.mfioIn } : State) = s)

/-- What reset leaves: PG_CTRL.EN of every implemented page as R34 gives it, INC at 6.4 ns, every lock set, no page fenced, no cause
raised, no error counted, and memories in canonical form (R34, R40, R46, R47, R354, R364).
The model's own choices in it: log 3. -/
def Obligations.ResetRegisters : Prop :=
  State.reset.memSound ∧ State.reset.fenceSound ∧ State.reset.pending = [] ∧
  ∀ p b i, blkOf p = some (b, i) →
    State.reset.get p R.PG_CTRL_EN = enReset b i ∧ State.reset.get p R.PG_LOCK_LOCKED = 1 ∧
    State.reset.fenced p = false ∧ State.reset.get p R.PG_FENCE_COUNT = 0 ∧ State.reset.get p R.PG_IRQ_RAW = 0 ∧
    State.reset.get p R.PG_IRQ_EN = 0 ∧ State.reset.get p R.PG_ERR_CNT = 0 ∧ State.reset.get p R.PG_ID_VER = 0xB0

/-- Every step from a state whose memories are in canonical form goes on and keeps them so: addresses strictly rising in the line
store, in DRAM and its check symbols and in the flash, and no flash byte listed that reads as erased. No step fences a page whose block
never fences.
The model's own choices in it: logs 1, 4, 6. -/
def Obligations.StepKeepsMemorySound : Prop :=
  ∀ s : State, (s.memSound → ∃ t, step s = .next t ∧ t.memSound) ∧ (s.fenceSound → ∃ t, step s = .next t ∧ t.fenceSound)

/-- No command stops the device, none takes or adds a waiting command, and only the commands that may store change a byte of a memory:
exec answers a next state with the same queue (R49, R384).
The model's own choices in it: log 2. -/
def Obligations.EveryCommandGoesOn : Prop :=
  ∀ (c : Instr) (s : State), ∃ t, exec c s = .next t ∧ t.pending = s.pending ∧ (c.mayStore = false → s.sameMemory t)

/-! ### Host writes (R12, R49, R50) -/

/-- A command that is a write of one register does what REGISTER_WRITE of the same word at the same BAR0 offset does (R12, R31). A write
that is ignored as a whole changes no block: the violation is counted and recorded under the lowest kind of the access rules it
breaks, and every other register reads as before; while no access can arrive, nothing happens at all (R13, R49, R50).
The model's own choices in it: logs 12, 56, 98. -/
def Obligations.RegisterRowsAreRegisterWrites : Prop :=
  ∀ (s : State) (c : Instr) (p off v : Nat), s.hostWrite c = some (p, off, v) →
    (v < 2 ^ 32 →
      exec c s = exec (.registerWrite (.bar0 (BitVec.ofNat 27 (0x1000 * p + off))) (BitVec.ofNat 32 v) 15) s) ∧
    (s.hostServed = false → exec c s = .next s) ∧
    (s.hostServed = true → s.writeIgnored p off v 15 = true → s.writeKind p off v 15 ≠ 0 → ∃ t, exec c s = .next t ∧
      t.get pSYS R.SYS_VIOL_CNT = min (s.get pSYS R.SYS_VIOL_CNT + 1) (2 ^ 32 - 1) ∧
      t.get pSYS R.SYS_VIOL_ADDR = (0x1000 * p + off) % 2 ^ 32 ∧
      t.get pSYS R.SYS_VIOL_INFO_KIND = s.writeKind p off v 15 ∧ s.writeKind p off v 15 ∈ [1, 2, 3, 4, 5, 6] ∧
      t.get pSYS R.SYS_VIOL_INFO_WRITE = 1 ∧ t.get pSYS R.SYS_VIOL_INFO_BAR2 = 0 ∧
      s.regsBut t [(pSYS, R.SYS_VIOL_CNT), (pSYS, R.SYS_VIOL_ADDR), (pSYS, R.SYS_VIOL_INFO_KIND), (pSYS, R.SYS_VIOL_INFO_WRITE),
        (pSYS, R.SYS_VIOL_INFO_BAR2)] ∧ s.sameBlocks t)

/-! ### The page header (R36 to R48) -/

/-- A write of PG_CTRL.EN on a page that is not fenced: no change where EN stands or is fixed; else EN takes the value and the block
starts or stops. On an encoder or SCRUB page nothing else changes; a TIME page that is enabled keeps its armed targets, as of this tick;
a position channel that is enabled starts in standstill, its speed and its history gone; a disabled PIPE drops the line in
computation. An enabled LINE page of a single unit whose source is not fenced loads Y with the count of its source, NEXT with LINE_ORG,
LINE_SEQ with LINE_SEQ0 − 1 and g with 0, reads SRC and FAILOVER, and leaves its rate limit. An enabled head channel starts its
telemetry timer and notes whether its head is hot; a disabled one drops its frames. A disabled DMA channel discards what it has staged and counts
it; BREATH releases SPD_CEIL throughout; CAMC reads its configuration when it is enabled (R36, R84, R116, R131, R138, R150, R151, R160, R218,
R272, R354). What the other blocks do at an enable is named, not spelled out.
The model's own choices in it: logs 110, 112, 114, 119. -/
def Obligations.EnableWriteTakesEffect : Prop :=
  ∀ (s : State) (p : Page) (en : Bool) (b : Blk) (i : Nat), blkOf p = some (b, i) → s.accepts p 4 (b2n en) → s.fenced p = false →
    (s.enFixed b i = true ∨ s.enabled p = en → exec (.pgCtrlEn p en) s = .next s) ∧
    (s.enFixed b i = false → s.enabled p = !en →
      exec (.pgCtrlEn p en) s = .next ((s.setFlag p R.PG_CTRL_EN en).enEffect b i en) ∧
      (b ∈ [.enc, .scrub] → ∃ t, exec (.pgCtrlEn p en) s = .next t ∧ t.enabled p = en ∧
        s.regsBut t [(p, R.PG_CTRL_EN)] ∧ ({ t with regs := s.regs } : State) = s) ∧
      (b = .time → ∃ t, exec (.pgCtrlEn p en) s = .next t ∧ t.enabled p = en ∧ s.regsBut t [(p, R.PG_CTRL_EN)] ∧
        t.cmpAt = (if en then s.cmpAt.map (fun e => (e.1, e.2.1, s.tick)) else s.cmpAt) ∧
        ({ t with regs := s.regs, cmpAt := s.cmpAt } : State) = s) ∧
      (b = .pos → ∃ t, exec (.pgCtrlEn p en) s = .next t ∧ t.enabled p = en ∧
        s.regsBut t [(p, R.PG_CTRL_EN), (p, R.POS_SPEED)] ∧
        (en = true → t.get p R.POS_SPEED = 0 ∧ t.posAt i = { s.posAt i with still := true, valid := false, hist := [] }) ∧
        (en = false → t.get p R.POS_SPEED = s.get p R.POS_SPEED ∧ t.posAt i = s.posAt i) ∧ (∀ m, m ≠ i → t.posAt m = s.posAt m) ∧
        ({ t with regs := s.regs, pos := s.pos } : State) = s) ∧
      (b = .pipe → ∃ t, exec (.pgCtrlEn p en) s = .next t ∧ t.enabled p = en ∧ s.regsBut t [(p, R.PG_CTRL_EN)] ∧
        t.pipeAt i = (if en then s.pipeAt i else { s.pipeAt i with work := none }) ∧ (∀ m, m ≠ i → t.pipeAt m = s.pipeAt m) ∧
        ({ t with regs := s.regs, pipe := s.pipe } : State) = s) ∧
      (b = .line → en = true → s.straps.pairEn = false → s.fenced (pPOS (srcChannel i (s.lineSrc i))) = false →
        ∃ t, exec (.pgCtrlEn p en) s = .next t ∧ t.enabled p = true ∧
        t.lineY i = sgn 32 (s.get (pPOS (srcChannel i (s.lineSrc i))) R.POS_CNT) * 2 ^ 24 ∧
        t.lineNext i = sgn 64 (s.get64 p R.LINE_ORG_LO R.LINE_ORG_HI) ∧
        t.get p R.LINE_SEQ = (s.get p R.LINE_SEQ0 + 2 ^ 32 - 1) % 2 ^ 32 ∧ t.get p R.LINE_GAIN = 0 ∧
        (t.lineAt i).src = s.lineSrc i ∧ (t.lineAt i).failover = s.flag p R.LINE_CTRL_FAILOVER ∧ (t.lineAt i).failedOver = false ∧
        (t.lineAt i).early = (s.lineAt i).early ∧ (∀ m, m ≠ i → t.lineAt m = s.lineAt m) ∧
        s.regsBut t [(p, R.PG_CTRL_EN), (p, R.LINE_Y_LO), (p, R.LINE_Y_HI), (p, R.LINE_NEXT_LO), (p, R.LINE_NEXT_HI), (p, R.LINE_SEQ),
          (p, R.LINE_GAIN)] ∧
        ({ t with regs := s.regs, line := s.line, job := s.job, pair := s.pair } : State) = s) ∧
      (b = .head → s.flag (pLANE i) R.LANE_CTRL_EIDLE = false → (s.laneAt i).st ≠ 4 →
        ∃ t, exec (.pgCtrlEn p en) s = .next t ∧ t.enabled p = en ∧ s.regsBut t [(p, R.PG_CTRL_EN)] ∧
        t.headAt i = (if en then { s.headAt i with judge := s.headHot i, tlmSince := s.tick }
          else { s.headAt i with queue := [], ready := [], cur := none }) ∧ (∀ m, m ≠ i → t.headAt m = s.headAt m) ∧
        ({ t with regs := s.regs, head := s.head } : State) = s) ∧
      (b = .dma → en = false → ∃ t, exec (.pgCtrlEn p en) s = .next t ∧ t.enabled p = false ∧ t.dmaAt i = {} ∧
        t.get p R.DMA_DISC_CNT = min (s.get p R.DMA_DISC_CNT + ((s.dmaAt i).kept.length + (s.dmaAt i).staging.length +
          (s.dmaAt i).tag.length)) (2 ^ 32 - 1) ∧
        s.regsBut t [(p, R.PG_CTRL_EN), (p, R.DMA_DISC_CNT)] ∧ (∀ m, m ≠ i → t.dmaAt m = s.dmaAt m) ∧
        ({ t with regs := s.regs, dma := s.dma } : State) = s) ∧
      (b = .breath → en = false → ∃ t, exec (.pgCtrlEn p en) s = .next t ∧ t.enabled p = false ∧ t.get p R.BREATH_PWM = 15625 ∧
        s.regsBut t [(p, R.PG_CTRL_EN), (p, R.BREATH_PWM)] ∧ ({ t with regs := s.regs } : State) = s) ∧
      (b = .camc → ∃ t, exec (.pgCtrlEn p en) s = .next t ∧ t.enabled p = en ∧ s.regsBut t [(p, R.PG_CTRL_EN)] ∧
        (en = false → t.camc = s.camc) ∧
        (en = true → t.camc.dist = s.get p R.CAMC_DIST ∧ t.camc.phase = s.get p R.CAMC_PHASE ∧
          t.camc.refbar = s.get p R.CAMC_CTRL_REFBAR ∧ t.camc.dec = s.get p R.CAMC_CTRL_DEC ∧
          t.camc.base = s.get64 p R.CAMC_CRING_BASE_LO R.CAMC_CRING_BASE_HI ∧ t.camc.log2 = max 8 (s.get p R.CAMC_CRING_CFG)) ∧
        ({ t with regs := s.regs, camc := s.camc } : State) = s))

/-- No fence cause has come to the fenced page p at this tick (R384). -/
def noLate (s : State) (p : Nat) : Prop := s.lateCause.has p = false ∨ (s.lateCause.getD p (0, [], 0, 0)).1 ≠ s.tick

/-- A soft reset, asked for by SRST or by a fence release: it waits on an enabled page of a bar whose LINE page runs, reading SRST 1
and changing nothing else, and starts at the write everywhere else; a release clears FENCED first, and a fence cause of its own core
cycle comes after it: the soft reset that it starts judges it. On an encoder page of a single
unit every register returns to Reset but PG_FENCE.COUNT, and no other page changes (R37, R48, R384).
The model's own choices in it: logs 64, 65, 114, 115. -/
def Obligations.SoftResetAtTheWrite : Prop :=
  (∀ (s : State) (p : Page) (en : Bool) (b : Nat), s.accepts p 4 (2 + b2n en) → s.fenced p = false → s.enabled p = true → en = true →
    waitBar p = some b → s.lineRuns b = true →
    ∃ t, exec (.srst p en) s = .next t ∧ t.softWaits p = true ∧ t.srstBusy p = true ∧ s.regsBut t [] ∧
      ({ t with srsts := s.srsts } : State) = s) ∧
  (∀ (s : State) (p : Page) (en : Bool), s.accepts p 4 (2 + b2n en) → s.fenced p = false →
    (waitBar p = none ∨ (s.enWrite p en).enabled p = false ∨ ∃ b, waitBar p = some b ∧ (s.enWrite p en).lineRuns b = false) →
    exec (.srst p en) s = .next (({ s.enWrite p en with
      srsts := (s.enWrite p en).srsts.put p { since := (s.enWrite p en).tick } } : State).softStart p false)) ∧
  (∀ (s : State) (p : Page) (en srst : Bool), s.accepts p 4 (16 + 2 * b2n srst + b2n en) → s.fenced p = true →
    (noLate s p → exec (.fenceRel p en srst) s = .next ((s.set p R.PG_FENCE_FENCED 0).softRequest p true)) ∧
    (∀ e, s.lateCause.has p = true → s.lateCause.getD p (0, [], 0, 0) = e → e.1 = s.tick →
      ∃ t, exec (.fenceRel p en srst) s = .next t ∧ (t.srsts.getD p {}).causes = e.2.1 ∧ (t.srsts.getD p {}).running = true)) ∧
  (∀ (s : State) (b : Bar) (en srst : Bool), s.straps.pairEn = false →
    (s.accepts (pENC b) 4 (2 + b2n en) → s.fenced (pENC b) = false →
      ∃ t, exec (.srst ⟨pENC b, by unfold pENC; omega⟩ en) s = .next t ∧ t.encAt b = { taken := (s.encAt b).taken } ∧ (t.srsts.getD (pENC b) {}).running = true ∧
        (∀ f : Fld, f.id ≠ R.PG_FENCE_COUNT.id → t.get (pENC b) f = rst (pENC b) f) ∧
        t.get (pENC b) R.PG_FENCE_COUNT = s.get (pENC b) R.PG_FENCE_COUNT ∧
        (∀ q f, q ≠ pENC b → t.get q f = s.get q f) ∧ s.sameMemory t) ∧
    (s.accepts (pENC b) 4 (16 + 2 * b2n srst + b2n en) → s.fenced (pENC b) = true → noLate s (pENC b) →
      ∃ t, exec (.fenceRel ⟨pENC b, by unfold pENC; omega⟩ en srst) s = .next t ∧ t.encAt b = { taken := (s.encAt b).taken } ∧ t.fenced (pENC b) = false ∧
        (t.srsts.getD (pENC b) {}).running = true ∧
        (∀ f : Fld, f.id ≠ R.PG_FENCE_COUNT.id → t.get (pENC b) f = rst (pENC b) f) ∧
        t.get (pENC b) R.PG_FENCE_COUNT = s.get (pENC b) R.PG_FENCE_COUNT ∧
        (∀ q f, q ≠ pENC b → t.get q f = s.get q f) ∧ s.sameMemory t))

/-- A waiting soft reset starts at its boundary, when the bar's LINE page has stopped, or 16.67 µs after the write, and not before; a
running one completes, and SRST and SRST_BUSY read 0 again; of the fence causes that have arisen meanwhile those still present are judged
then: without one nothing more happens, else the page fences for the lowest. Where none waits, or none runs, or the page is held, these
events change nothing (R37, R384).
The model's own choices in it: logs 2, 8, 21; which causes are still present: log 127. -/
def Obligations.SoftResetStartsAndCompletes : Prop :=
  (∀ (s : State) (p : Page) (b : Nat), s.softWaits p = true → waitBar p = some b →
    ((s.srsts.getD p {}).due = true →
      exec (.softResetStart p) s = .next (s.softStart p (s.lineRuns b && (s.srsts.getD p {}).causes.isEmpty))) ∧
    (s.lineRuns b = false → exec (.softResetStart p) s = .next (s.softStart p false)) ∧
    ((s.srsts.getD p {}).due = false → s.lineRuns b = true → exec (.softResetStart p) s = .next s) ∧
    ((s.srsts.getD p {}).since + nsTicks 16670 ≤ s.tick → exec (.softResetTimeout p) s = .next (s.softStart p false)) ∧
    (s.tick < (s.srsts.getD p {}).since + nsTicks 16670 → exec (.softResetTimeout p) s = .next s)) ∧
  (∀ (s : State) (p : Page), s.softWaits p = false →
    exec (.softResetStart p) s = .next s ∧ exec (.softResetTimeout p) s = .next s) ∧
  (∀ (s : State) (p : Page), s.srsts.has p = true → (s.srsts.getD p {}).running = true → s.held p = false →
    (s.srsts.getD p {}).causes = [] →
    ∃ t, exec (.softResetComplete p) s = .next t ∧ t.srsts.has p = false ∧ t.srstBusy p = false ∧ s.regsBut t [] ∧
      (∀ q, q ≠ p.val → t.srsts.getD q {} = s.srsts.getD q {}) ∧ ({ t with srsts := s.srsts } : State) = s) ∧
  (∀ (s : State) (p : Page) (b : Blk) (i : Nat) (l : List Nat), blkOf p = some (b, i) → s.srsts.has p = true →
    (s.srsts.getD p {}).running = true → s.held p = false → (s.srsts.getD p {}).causes ≠ [] →
    l = (s.srsts.getD p {}).causes.filter (s.stillPresent b i ·) →
    (l = [] → ∃ t, exec (.softResetComplete p) s = .next t ∧ t.srstBusy p = false ∧ s.regsBut t [] ∧
      ({ t with srsts := s.srsts, fresh := s.fresh } : State) = s) ∧
    (∀ d m, l = d :: m → neverFences b i = false → s.fenced p = false → ∃ t, exec (.softResetComplete p) s = .next t ∧
      t.srstBusy p = false ∧ t.fenced p = true ∧ t.get p R.PG_FENCE_REASON = m.foldl min d % 2 ^ R.PG_FENCE_REASON.w ∧
      t.get p R.PG_FENCE_COUNT = min (s.get p R.PG_FENCE_COUNT + 1) 0xFFFF ∧ bit (t.get p R.PG_IRQ_RAW) 0 = true ∧
      t.get p R.PG_ERR_CNT = s.get p R.PG_ERR_CNT)) ∧
  (∀ (s : State) (p : Page), s.srsts.has p = false ∨ (s.srsts.getD p {}).running = false ∨ s.held p = true →
    exec (.softResetComplete p) s = .next s)

/-- A line is in flight on a HEAD or PIPE page whose bar runs, and a fence of its own, with this lowest reason, waits for the bar's next
boundary (R17, R132; log 128). -/
def fenceWaits (s : State) (p : Nat) (b : Blk) (i low : Nat) : Prop :=
  (b = .head ∧ s.lineRuns (i / 16) = true ∧ s.headFlight i = true ∧ (low = 0x11 ∨ low = 0x22 ∨ 0xF0 ≤ low)) ∨
    (b = .pipe ∧ s.lineRuns i = true ∧ s.enabled p = true ∧ (s.pipeAt i).work.isSome = true)
/-- n errors have been counted on page p, the first of them recorded if none was since the last clear (R40). -/
def errorsCounted (s t : State) (p n code src addr : Nat) : Prop :=
  t.get p R.PG_ERR_CNT = min (s.get p R.PG_ERR_CNT + n) (2 ^ 32 - 1) ∧ bit (t.get p R.PG_IRQ_RAW) 1 = true ∧
    (s.get p R.PG_ERR_CNT = 0 → t.get p R.PG_ERR_INFO_CODE = code ∧ t.get p R.PG_ERR_INFO_SRC = src ∧
      t.get p R.PG_ERR_ADDR_LO = addr % 2 ^ 32 ∧ t.get p R.PG_ERR_ADDR_HI = addr / 2 ^ 32 % 2 ^ 32)

/-- FENCE with the causes that the page can meet now: an internal fault on every page, and a code of its own on an enabled one. Each is
counted as an error with ERR and the first since the last clear is recorded; FENCED sets, REASON is the lowest code, COUNT rises by one
and cause FENCE is raised, of a disabled page for an internal fault as well. Where a line is in flight on the page the fence waits for
the bar's next boundary, with the lowest code. A block that never fences only counts the errors; a page whose soft reset waits or runs
counts them, keeps the causes for its completion and starts a reset that waits; a held page keeps them only; a page that is fenced
keeps its registers and the causes of this core cycle for a release, but of a fence of the same core cycle it counts the further
causes and REASON takes the lowest. In reset and where no cause is met nothing changes. On the pages of which a fence stops nothing
outside their block, in a single unit, no other register and no other block changes (R17, R40, R47, R48, R367, R380 to R382, R384).
The model's own choices in it: logs 2, 93, 128. -/
def Obligations.FenceShowsInTheHeader : Prop :=
  ∀ (s : State) (p : Page) (l : List Byte) (src : BitVec 4) (addr : W64) (b : Blk) (i : Nat) (met : List Nat),
    blkOf p = some (b, i) → met = (l.map (·.toNat)).filter (s.meets p ·) →
    (s.inReset = true ∨ met = [] → exec (.fence p l src addr) s = .next s) ∧
    (∀ r rs, s.inReset = false → met = r :: rs → neverFences b i = true → s.fenced p = false →
      (s.held p = true → exec (.fence p l src addr) s = .next s) ∧
      (s.held p = false → ∃ t, exec (.fence p l src addr) s = .next t ∧ t.fenced p = false ∧
        errorsCounted s t p (rs.length + 1) r src.toNat addr.toNat ∧ s.regsBut t (errFields p) ∧ s.sameBehind t)) ∧
    (∀ r rs, s.inReset = false → met = r :: rs → neverFences b i = false → s.fenced p = true →
      (s.fencedNow p = false →
        exec (.fence p l src addr) s = .next { s with lateCause := s.lateCause.put p (s.tick, met, src.toNat, addr.toNat) }) ∧
      (s.fencedNow p = true → b ≠ .lane → ∃ t, exec (.fence p l src addr) s = .next t ∧ t.fenced p = true ∧
        t.get p R.PG_ERR_CNT = min (s.get p R.PG_ERR_CNT + (rs.length + 1)) (2 ^ 32 - 1) ∧
        t.get p R.PG_FENCE_REASON = met.foldl min (s.get p R.PG_FENCE_REASON) ∧
        s.regsBut t (errFields p ++ [(p.val, R.PG_FENCE_REASON)]) ∧ s.sameBehind t)) ∧
    (∀ r rs, s.inReset = false → met = r :: rs → neverFences b i = false → s.fenced p = false → s.held p = true →
      ∃ t, exec (.fence p l src addr) s = .next t ∧ (t.srsts.getD p {}).causes = (s.srsts.getD p {}).causes ++ met ∧
        (t.srsts.getD p {}).running = true ∧ ({ t with srsts := s.srsts } : State) = s) ∧
    (∀ r rs, s.inReset = false → met = r :: rs → neverFences b i = false → s.fenced p = false → s.held p = false →
      s.srsts.has p = true → ∃ t, exec (.fence p l src addr) s = .next t ∧ t.fenced p = false ∧
        errorsCounted s t p (rs.length + 1) r src.toNat (s.fenceAddr p r addr.toNat) ∧
        t.srsts.getD p {} = { s.srsts.getD p {} with
          causes := (s.srsts.getD p {}).causes ++ met, due := !(s.srsts.getD p {}).running } ∧
        s.regsBut t (errFields p) ∧ ({ t with regs := s.regs, host := s.host, srsts := s.srsts } : State) = s) ∧
    (∀ r rs, s.inReset = false → met = r :: rs → neverFences b i = false → s.fenced p = false → s.held p = false →
      s.srsts.has p = false → ∃ t, exec (.fence p l src addr) s = .next t ∧
        errorsCounted s t p (rs.length + 1) r src.toNat (s.fenceAddr p r addr.toNat) ∧
        (¬ fenceWaits s p b i (rs.foldl min r) → t.fenced p = true ∧ t.get p R.PG_FENCE_REASON = rs.foldl min r ∧
          t.get p R.PG_FENCE_COUNT = min (s.get p R.PG_FENCE_COUNT + 1) 0xFFFF ∧ bit (t.get p R.PG_IRQ_RAW) 0 = true) ∧
        (fenceWaits s p b i (rs.foldl min r) → t.fenced p = false ∧ s.regsBut t (errFields p) ∧
          (b = .head → t.headAt i = { s.headAt i with fenceDue := some ((s.headAt i).fenceDue.elim (rs.foldl min r) (min · (rs.foldl min r))) } ∧
            (∀ m, m ≠ i → t.headAt m = s.headAt m) ∧ t.pipe = s.pipe) ∧
          (b = .pipe → t.pipeAt i = { s.pipeAt i with fenceDue := some ((s.pipeAt i).fenceDue.elim (rs.foldl min r) (min · (rs.foldl min r))) } ∧
            (∀ m, m ≠ i → t.pipeAt m = s.pipeAt m) ∧ t.head = s.head) ∧
          ({ t with regs := s.regs, host := s.host, head := s.head, pipe := s.pipe } : State) = s) ∧
        (b ∈ [.enc, .feedc, .camc, .cal, .breath, .pipe] → s.straps.pairEn = false → ¬ fenceWaits s p b i (rs.foldl min r) →
          s.regsBut t (errFields p ++ [(p.val, R.PG_FENCE_FENCED), (p.val, R.PG_FENCE_REASON), (p.val, R.PG_FENCE_COUNT)]) ∧
          ({ t with regs := s.regs, host := s.host, fenceAt := s.fenceAt } : State) = s))

/-- A write of PG_IRQ_RAW clears the causes written 1 and no other; with ERR written 1 the error count, address and information
registers read 0 as well. A write of 0x0000_0A5A to PG_LOCK clears LOCKED, a write of 0 sets it. VCLR returns SYS_VIOL_CNT,
SYS_VIOL_ADDR and SYS_VIOL_INFO to 0, CCLR returns SYS_CONFLICT_LO and SYS_CONFLICT_HI to 0. None changes anything else (R39, R40,
R46, R50, R54). -/
def Obligations.ClearingAndLockingWrites : Prop :=
  (∀ (s : State) (p : Page) (m : W32),
     (s.accepts p 0x10 m.toNat → ∃ t, exec (.pgIrqRawW1c p m) s = .next t ∧
       t.get p R.PG_IRQ_RAW = andNot (s.get p R.PG_IRQ_RAW) m.toNat % 2 ^ 32 ∧
       (bit m.toNat 1 = true → ∀ f ∈ (errFields p).map (·.2), f ≠ R.PG_IRQ_RAW → t.get p f = 0) ∧
       s.regsBut t (if bit m.toNat 1 then errFields p else [(p, R.PG_IRQ_RAW)]) ∧ ({ t with regs := s.regs } : State) = s) ∧
     (s.accepts p 0x10 2 → ∃ t, exec (.errClear p) s = .next t ∧
       t.get p R.PG_IRQ_RAW = andNot (s.get p R.PG_IRQ_RAW) 2 % 2 ^ 32 ∧
       t.get p R.PG_ERR_CNT = 0 ∧ t.get p R.PG_ERR_ADDR_LO = 0 ∧ t.get p R.PG_ERR_ADDR_HI = 0 ∧ t.get p R.PG_ERR_INFO_CODE = 0 ∧
       t.get p R.PG_ERR_INFO_SRC = 0 ∧ t.get p R.PG_ERR_INFO_DIR = 0 ∧
       s.regsBut t (errFields p) ∧ ({ t with regs := s.regs } : State) = s)) ∧
  (∀ (s : State) (p : Page),
     (s.accepts p 0x34 0xA5A → ∃ t, exec (.pgLockUnlock p) s = .next t ∧ t.get p R.PG_LOCK_LOCKED = 0 ∧
       s.regsBut t [(p, R.PG_LOCK_LOCKED)] ∧ ({ t with regs := s.regs } : State) = s) ∧
     (s.accepts p 0x34 0 → ∃ t, exec (.pgLockLock p) s = .next t ∧ t.get p R.PG_LOCK_LOCKED = 1 ∧
       s.regsBut t [(p, R.PG_LOCK_LOCKED)] ∧ ({ t with regs := s.regs } : State) = s)) ∧
  (∀ s : State,
     (s.accepts pSYS 0x10C 1 → ∃ t, exec .vclr s = .next t ∧ t.get pSYS R.SYS_VIOL_CNT = 0 ∧ t.get pSYS R.SYS_VIOL_ADDR = 0 ∧
       t.get pSYS R.SYS_VIOL_INFO_KIND = 0 ∧ t.get pSYS R.SYS_VIOL_INFO_WRITE = 0 ∧ t.get pSYS R.SYS_VIOL_INFO_BAR2 = 0 ∧
       (∀ q f, q ≠ pSYS ∨ (f.id / 32 ≠ 0x100 ∧ f.id / 32 ≠ 0x104 ∧ f.id / 32 ≠ 0x108) → t.get q f = s.get q f) ∧
       ({ t with regs := s.regs } : State) = s) ∧
     (s.accepts pSYS 0x10C 2 → ∃ t, exec .cclr s = .next t ∧ t.get pSYS R.SYS_CONFLICT_LO_VALID = 0 ∧
       t.get pSYS R.SYS_CONFLICT_LO_PAGE = 0 ∧ t.get pSYS R.SYS_CONFLICT_LO_WORD = 0 ∧ t.get pSYS R.SYS_CONFLICT_LO_BIT = 0 ∧
       t.get pSYS R.SYS_CONFLICT_HI_VALID = 0 ∧ t.get pSYS R.SYS_CONFLICT_HI_PAGE = 0 ∧ t.get pSYS R.SYS_CONFLICT_HI_WORD = 0 ∧
       t.get pSYS R.SYS_CONFLICT_HI_BIT = 0 ∧
       (∀ q f, q ≠ pSYS ∨ (f.id / 32 ≠ 0x110 ∧ f.id / 32 ≠ 0x114) → t.get q f = s.get q f) ∧
       ({ t with regs := s.regs } : State) = s))

/-- A commit loads PEND_GEN and copies every RWS field of the page to its pending copy; where the page is disabled, has no RWS field,
or takes IMMEDIATE commits, the set applies at the write: APPL_GEN takes the generation, PENDING reads 0, cause GEN rises, and
the applied copy of every RWS field is its shadow. Else PENDING reads 1 and the applied copies stand. On HEADC the set applies at once
for every bar that does not run, and is done when no bar waits (R34, R42, R43).
The model's own choices in it: log 61. -/
def Obligations.CommitTakesEffect : Prop :=
  (∀ (s : State) (p : Page) (gen : Byte) (imm : Bool) (b : Blk) (i : Nat), blkOf p = some (b, i) → b ≠ .headc →
     s.accepts p 0x2C (256 * gen.toNat + 2 * b2n imm + 1) →
     ∃ t, exec (.commit p gen imm) s = .next t ∧ t.get p R.PG_GEN_PEND_GEN = gen.toNat ∧ t.get p R.PG_SHADOW_GEN = gen.toNat ∧
       (∀ j ∈ b.rwsIds true true, t.pendv.find (p, j) = s.regs.find (p, j)) ∧
       ((b.rwsIds true true = [] ∨ s.enabled p = false ∨ waitsCommit b i = false ∨ (imm = true ∧ lineCommit b i = false)) →
         t.get p R.PG_GEN_APPL_GEN = gen.toNat ∧ t.get p R.PG_GEN_PENDING = 0 ∧ bit (t.get p R.PG_IRQ_RAW) 2 = true ∧
         t.commits.has p = false ∧ ∀ j ∈ b.rwsIds true true, t.appl.find (p, j) = s.regs.find (p, j)) ∧
       (b.rwsIds true true ≠ [] → s.enabled p = true → waitsCommit b i = true → (imm = false ∨ lineCommit b i = true) →
         t.get p R.PG_GEN_APPL_GEN = s.get p R.PG_GEN_APPL_GEN ∧ t.get p R.PG_GEN_PENDING = 1 ∧ t.commits.has p = true ∧
         t.appl = s.appl) ∧
       s.regsBut t [(p, R.PG_SHADOW_GEN), (p, R.PG_SHADOW_IMMEDIATE), (p, R.PG_GEN_PEND_GEN), (p, R.PG_GEN_APPL_GEN),
         (p, R.PG_GEN_PENDING), (p, R.PG_IRQ_RAW)] ∧
       ({ t with regs := s.regs, pendv := s.pendv, appl := s.appl, commits := s.commits, host := s.host } : State) = s) ∧
  (∀ (s : State) (p : Page) (gen : Byte) (imm : Bool), p.val = pHEADC → s.accepts p 0x2C (256 * gen.toNat + 2 * b2n imm + 1) →
     ∃ t, exec (.commit p gen imm) s = .next t ∧ t.get p R.PG_GEN_PEND_GEN = gen.toNat ∧ t.get p R.PG_SHADOW_GEN = gen.toNat ∧
       (∀ j ∈ Blk.headc.rwsIds true true, t.pendv.find (p, j) = s.regs.find (p, j)) ∧
       (∀ k < 8, (s.enabled p = false ∨ s.lineRuns k = false) →
         ∀ j ∈ Blk.headc.rwsIds true true, t.appl.find (0x400 + k, j) = s.regs.find (p, j)) ∧
       ((s.enabled p = false ∨ ∀ k < 8, s.lineRuns k = false) → t.get p R.PG_GEN_APPL_GEN = gen.toNat ∧
         t.get p R.PG_GEN_PENDING = 0 ∧ bit (t.get p R.PG_IRQ_RAW) 2 = true ∧ t.commits.has p = false) ∧
       (∀ k < 8, s.enabled p = true → s.lineRuns k = true → t.get p R.PG_GEN_APPL_GEN = s.get p R.PG_GEN_APPL_GEN ∧
         t.get p R.PG_GEN_PENDING = 1 ∧ t.commits.has p = true ∧
         ∀ j ∈ Blk.headc.rwsIds true true, t.appl.find (0x400 + k, j) = s.appl.find (0x400 + k, j)) ∧
       s.regsBut t [(p, R.PG_SHADOW_GEN), (p, R.PG_SHADOW_IMMEDIATE), (p, R.PG_GEN_PEND_GEN), (p, R.PG_GEN_APPL_GEN),
         (p, R.PG_GEN_PENDING), (p, R.PG_IRQ_RAW)] ∧
       ({ t with regs := s.regs, pendv := s.pendv, appl := s.appl, commits := s.commits, host := s.host } : State) = s)

/-! ### Reads, plain writes and the memory windows (R12, R32, R33, R49, R55 to R57, R309, R344 to R347) -/

/-- The fields a violation changes (R50). -/
def violFields : List (Nat × Fld) :=
  [(pSYS, R.SYS_VIOL_CNT), (pSYS, R.SYS_VIOL_ADDR), (pSYS, R.SYS_VIOL_INFO_KIND), (pSYS, R.SYS_VIOL_INFO_WRITE),
   (pSYS, R.SYS_VIOL_INFO_BAR2)]
/-- One violation of a kind has been counted and recorded (R49, R50). -/
def violated (s t : State) (kind addr : Nat) (write bar2 : Bool) : Prop :=
  t.get pSYS R.SYS_VIOL_CNT = min (s.get pSYS R.SYS_VIOL_CNT + 1) (2 ^ 32 - 1) ∧ t.get pSYS R.SYS_VIOL_ADDR = addr % 2 ^ 32 ∧
    t.get pSYS R.SYS_VIOL_INFO_KIND = kind ∧ t.get pSYS R.SYS_VIOL_INFO_WRITE = b2n write ∧
    t.get pSYS R.SYS_VIOL_INFO_BAR2 = b2n bar2

/-- REGISTER_WRITE completes at every target. In BAR0 (an offset of four bytes): nothing while no access can arrive; at no register, one
violation of kind 1; a write of a register that is ignored as a whole only counts what it breaks, and one that is not acts and counts
what it breaks; in a register outside the header that commands nothing and owns nothing, each field takes its bits by its access
type, and nothing else changes; in the shadow range of a table the whole word is stored with its reserved bits clear,
or held while a copy of that table runs, and part of a word is not written; in the active range one violation of kind 2; in the aperture the enabled bytes are stored. In the configuration space:
Configuration Request Retry Status before the endpoint is ready; then BME, the power state, MSI-X Enable, Function Mask, the timeout
and the address bits of a BAR are stored, BME falling with cause 4, and no other register changes (R12, R33, R49, R55, R57,
R106, R344, R345, R347, R348). That nothing happens while no access can arrive is log 56's choice; that no page's state stops an access
to a table or the aperture log 69's; that the retry status is put out log 9's; and the configuration registers' bits log 12's.
The model's own choices in it: logs 9, 12, 56, 69. -/
def Obligations.RegisterWriteStores : Prop :=
  (∀ (s : State) (off : BitVec 27) (v : W32) (be : BitVec 4), off.toNat % 4 = 0 →
    (s.hostServed = false → exec (.registerWrite (.bar0 off) v be) s = .next s) ∧
    (s.hostServed = true →
      (placeOf off.toNat = .nowhere → ∃ t, exec (.registerWrite (.bar0 off) v be) s = .next t ∧
        violated s t 1 off.toNat true false ∧ s.regsBut t violFields ∧ ({ t with regs := s.regs } : State) = s) ∧
      (∀ p o k, placeOf off.toNat = .reg p o → k = s.writeKind p o v.toNat be.toNat →
        (s.writeIgnored p o v.toNat be.toNat = true → k = 0 → exec (.registerWrite (.bar0 off) v be) s = .next s) ∧
        (s.writeIgnored p o v.toNat be.toNat = true → k ≠ 0 → ∃ t, exec (.registerWrite (.bar0 off) v be) s = .next t ∧
          violated s t k off.toNat true false ∧ s.regsBut t violFields ∧ ({ t with regs := s.regs } : State) = s) ∧
        (s.writeIgnored p o v.toNat be.toNat = false → k = 0 →
          exec (.registerWrite (.bar0 off) v be) s = .next (regAct p o v.toNat s)) ∧
        (s.writeIgnored p o v.toNat be.toNat = false → k ≠ 0 →
          exec (.registerWrite (.bar0 off) v be) s = .next ((regAct p o v.toNat s).violate k (p * 0x1000 + o) true))) ∧
      (∀ k w, placeOf off.toNat = .table k true w → ∃ t, exec (.registerWrite (.bar0 off) v be) s = .next t ∧
        violated s t 2 off.toNat true false ∧ s.regsBut t violFields ∧ ({ t with regs := s.regs } : State) = s) ∧
      (∀ k w, placeOf off.toNat = .table k false w → be ≠ 15 → ∃ t, exec (.registerWrite (.bar0 off) v be) s = .next t ∧
        violated s t (if andNot v.toNat (tableMask k) ≠ 0 then 3 else 7) off.toNat true false ∧ s.regsBut t violFields ∧
        ({ t with regs := s.regs } : State) = s) ∧
      (∀ k w ts x, placeOf off.toNat = .table k false w → be = 15 → (s.pipeAt (4 * w / tabSize k)).copy = some (ts, x) →
        bit ts k = true → ∃ t, exec (.registerWrite (.bar0 off) v be) s = .next t ∧
          (t.pipeAt (4 * w / tabSize k)).heldWrites = (s.pipeAt (4 * w / tabSize k)).heldWrites ++
            [⟨2 ^ 20 * k + 4 * w % tabSize k, v.toNat &&& tableMask k⟩] ∧ s.regsBut t violFields ∧
          ({ t with regs := s.regs, pipe := s.pipe } : State) = s) ∧
      (∀ k w, placeOf off.toNat = .table k false w → be = 15 →
        (∀ e, (s.pipeAt (4 * w / tabSize k)).copy = some e → bit e.1 k = false) →
        ∃ t a, exec (.registerWrite (.bar0 off) v be) s = .next t ∧
          a = tabAddr k (1 - s.activeCopy (4 * w / tabSize k) k) (4 * w / tabSize k) + 4 * w % tabSize k ∧
          (∀ i < 4, t.lsLook (a + i) = (BitVec.ofNat 8 ((v.toNat &&& tableMask k) / 256 ^ i), 0)) ∧
          (∀ x, (x < a ∨ a + 4 ≤ x) → Memory.get t.lstore x = Memory.get s.lstore x ∧ t.lsLook x = s.lsLook x) ∧
          (andNot v.toNat (tableMask k) = 0 → t.regs = s.regs) ∧
          (andNot v.toNat (tableMask k) ≠ 0 → violated s t 3 off.toNat true false ∧ s.regsBut t violFields) ∧
          ({ t with regs := s.regs, lstore := s.lstore, lsErr := s.lsErr, lsRep := s.lsRep } : State) = s) ∧
      (∀ a, placeOf off.toNat = .aperture a → ∃ t, exec (.registerWrite (.bar0 off) v be) s = .next t ∧
        (∀ i < 4, bit be.toNat i = true → t.lsLook (a + i) = (BitVec.ofNat 8 (v.toNat / 256 ^ i), 0)) ∧
        (∀ x, (∀ i < 4, bit be.toNat i = true → x ≠ a + i) →
          Memory.get t.lstore x = Memory.get s.lstore x ∧ t.lsLook x = s.lsLook x) ∧
        ({ t with lstore := s.lstore, lsErr := s.lsErr, lsRep := s.lsRep } : State) = s))) ∧
  (∀ (s : State) (p : Page) (off : Nat) (v : W32) (b : Blk) (i : Nat), blkOf p = some (b, i) → 0x38 ≤ off → off < 0x1000 →
    off % 4 = 0 → fieldsAt b i off ≠ [] → blockAct b i off v.toNat s = s.storeReg p off v.toNat →
    (∀ o ∈ s.owners, o.page = p.val → o.en.off ≠ off) → s.accepts p off v.toNat →
    ∃ t, exec (.registerWrite (.bar0 (BitVec.ofNat 27 (0x1000 * p + off))) v 15) s = .next t ∧
      (∀ f ∈ fieldsAt b i off,
        (f.acc = .rw ∨ f.acc = .rws ∨ f.acc = .rwsp ∨ (f.acc = .rwl ∧ s.flag p R.PG_LOCK_LOCKED = false) →
          t.get p f = field v.toNat f.lo f.w) ∧
        (f.acc = .w1c → t.get p f = andNot (s.get p f) (field v.toNat f.lo f.w) % 2 ^ f.w) ∧
        (f.acc = .ro ∨ f.acc = .wo ∨ (f.acc = .rwl ∧ s.flag p R.PG_LOCK_LOCKED = true) → t.get p f = s.get p f)) ∧
      s.regsBut t ((fieldsAt b i off).map fun f => (p.val, f)) ∧ ({ t with regs := s.regs } : State) = s) ∧
  (∀ (s : State) (r : CfgReg) (v : W32) (be : BitVec 4),
    (s.inReset = true → exec (.registerWrite (.cfg r) v be) s = .next s) ∧
    (s.inReset = false → s.host.ready = false →
      exec (.registerWrite (.cfg r) v be) s = .next { s with outs := .cfgRetry :: s.outs }) ∧
    (s.inReset = false → s.host.ready = true → bit be.toNat 0 = true → ∃ t, exec (.registerWrite (.cfg r) v be) s = .next t ∧
      (r = .busMaster → t.get pHOSTIF R.HOSTIF_LINK_BME = b2n (bit v.toNat 0) ∧
        (s.flag pHOSTIF R.HOSTIF_LINK_BME = true → bit v.toNat 0 = false → bit (t.get pHOSTIF R.PG_IRQ_RAW) 4 = true)) ∧
      (r = .powerState → t.host.d3 = (if field v.toNat 0 2 = 3 then true else if field v.toNat 0 2 = 0 then false else s.host.d3)) ∧
      (r = .msixEnable → t.get pHOSTIF R.HOSTIF_LINK_MSIX_EN = b2n (bit v.toNat 0)) ∧
      (r = .functionMask → t.get pHOSTIF R.HOSTIF_LINK_FMASK = b2n (bit v.toNat 0)) ∧
      (r = .completionTimeout → t.host.cto = field v.toNat 0 5) ∧
      (∀ k, r = .bar k → be = 15 → t.host.bars.getD k 0 = v.toNat &&& barMask k) ∧
      (r ∉ [.busMaster, .powerState, .msixEnable, .functionMask, .completionTimeout] → (∀ k, r ≠ .bar k) → t = s) ∧
      s.regsBut t [(pHOSTIF, R.HOSTIF_LINK_BME), (pHOSTIF, R.HOSTIF_LINK_MSIX_EN), (pHOSTIF, R.HOSTIF_LINK_FMASK),
        (pHOSTIF, R.PG_IRQ_RAW)] ∧ ({ t with regs := s.regs, host := s.host } : State) = s))

/-- LATCHING_READ completes at every target. A read of a register returns its word; a register that latches fills its partners' latches
with their words at that moment, a partner returns what its latch holds, an unimplemented address returns 0 and counts a violation of
kind 1; a read through the aperture or the table window returns the bytes, 0 for each uncorrectable one, and changes no memory; a read of the configuration space returns
its word, or Configuration Request Retry Status before the endpoint is ready; nothing else changes (R32, R33, R49, R57, R309, R344,
R347). That nothing happens while no access can arrive is log 56's choice, that no page's state stops a read of a table or the
aperture log 69's, that the retry status is put out log 9's, the configuration words log 12's, which _LO registers latch log 70's, and what
a computed field reads on a held page log 71's.
The model's own choices in it: logs 9, 12, 56, 69, 70, 71. -/
def Obligations.LatchingReadReturns : Prop :=
  (∀ (s : State) (off : BitVec 27), s.hostServed = false → exec (.latchingRead (.bar0 off)) s = .next s) ∧
  (∀ (s : State) (off : BitVec 27), s.hostServed = true → off.toNat % 4 = 0 →
    (∀ p o b i, placeOf off.toNat = .reg p o → blkOf p = some (b, i) → implemented b i o = true →
      (isPartner b o = false → ∃ t, exec (.latchingRead (.bar0 off)) s = .next t ∧ t.rdata = leBytes 4 (s.regWord p o) ∧
        (∀ q ∈ partners b o, t.latched p q = s.regWord p q) ∧
        (∀ a q, a ≠ p ∨ q ∉ partners b o → t.latched a q = s.latched a q) ∧
        ({ t with rdata := s.rdata, latch := s.latch } : State) = s) ∧
      (isPartner b o = true → exec (.latchingRead (.bar0 off)) s = .next { s with rdata := leBytes 4 (s.latched p o) })) ∧
    (placeOf off.toNat = .nowhere ∨ (∃ p o, placeOf off.toNat = .reg p o ∧
        (blkOf p = none ∨ ∃ b i, blkOf p = some (b, i) ∧ implemented b i o = false)) →
      ∃ t, exec (.latchingRead (.bar0 off)) s = .next t ∧ t.rdata = [0, 0, 0, 0] ∧ violated s t 1 off.toNat false false ∧
        s.regsBut t violFields ∧ ({ t with regs := s.regs, rdata := s.rdata } : State) = s) ∧
    (∀ a, placeOf off.toNat = .aperture a → Memory.wf s.lstore = true → ∃ t, exec (.latchingRead (.bar0 off)) s = .next t ∧
      t.rdata = (List.range 4).map (fun i => if (s.lsLook (a + i)).2 ≤ 1 then (s.lsLook (a + i)).1 else 0) ∧ s.sameMemory t) ∧
    (∀ k active w a b, placeOf off.toNat = .table k active w → Memory.wf s.lstore = true → b = 4 * w / tabSize k →
      a = tabAddr k (if active then s.activeCopy b k else 1 - s.activeCopy b k) b + 4 * w % tabSize k →
      ∃ t, exec (.latchingRead (.bar0 off)) s = .next t ∧ s.sameMemory t ∧
        t.rdata = leBytes 4 (leNat ((List.range 4).map fun i => if (s.lsLook (a + i)).2 ≤ 1 then (s.lsLook (a + i)).1 else 0) &&&
          tableMask k))) ∧
  (∀ (s : State) (r : CfgReg), (s.inReset = true → exec (.latchingRead (.cfg r)) s = .next s) ∧
    (s.inReset = false → s.host.ready = false → exec (.latchingRead (.cfg r)) s = .next { s with outs := .cfgRetry :: s.outs }) ∧
    (s.inReset = false → s.host.ready = true → exec (.latchingRead (.cfg r)) s = .next { s with rdata := leBytes 4 (s.cfgWord r) }))

/-- A read of TIME_NOW_LO returns the low half of C's nanoseconds and latches the high half and the fraction of the same tick; the reads
of TIME_NOW_HI and TIME_NOW_FRAC return these, at whatever later tick they come, as long as the latch stands (R355). -/
def Obligations.TimeNowReadsAgree : Prop :=
  ∀ (s : State) (o1 o2 o3 : BitVec 27), s.hostServed = true → o1.toNat = 0x1000 * pTIME + 0x40 → o2.toNat = 0x1000 * pTIME + 0x44 →
    o3.toNat = 0x1000 * pTIME + 0x48 → s.cNs < 2 ^ 64 → s.cFrac < 2 ^ 32 →
    ∃ t, exec (.latchingRead (.bar0 o1)) s = .next t ∧ t.rdata = leBytes 4 (s.cNs % 2 ^ 32) ∧
      ({ t with rdata := s.rdata, latch := s.latch } : State) = s ∧
      ∀ u : State, u.hostServed = true → u.latch = t.latch →
        exec (.latchingRead (.bar0 o2)) u = .next { u with rdata := leBytes 4 (s.cNs / 2 ^ 32) } ∧
        exec (.latchingRead (.bar0 o3)) u = .next { u with rdata := leBytes 4 s.cFrac }

/-- The line-store aperture: an enabled byte of a write is stored at its address and reads clean from then on, every other byte of
the line store keeps its data and reads as before, and nothing but the line store changes; a read returns each byte, 0 for an uncorrectable one, and
changes no memory, and where every byte is clean it changes nothing else; while no access can arrive nothing happens (R57, R308, R309).
The model's own choices in it: logs 56, 69. -/
def Obligations.ApertureStoresAndReads : Prop :=
  (∀ (s : State) (a : BitVec 26) (acc : Access), s.hostServed = false → exec (.apertureAccess a acc) s = .next s) ∧
  (∀ (s : State) (a : BitVec 26) (l : List (Option Byte)), s.hostServed = true → a.toNat + l.length ≤ lsSize →
    ∃ t, exec (.apertureAccess a (.write l)) s = .next t ∧
      (∀ i b, l[i]? = some (some b) → t.lsLook (a.toNat + i) = (b, 0)) ∧
      (∀ k, (k < a.toNat ∨ l[k - a.toNat]? = none ∨ l[k - a.toNat]? = some none) →
        Memory.get t.lstore k = Memory.get s.lstore k ∧ t.lsLook k = s.lsLook k) ∧
      ({ t with lstore := s.lstore, lsErr := s.lsErr, lsRep := s.lsRep } : State) = s) ∧
  (∀ (s : State) (a : BitVec 26) (n : Nat), s.hostServed = true → a.toNat + n ≤ lsSize → s.memSound →
    ∃ t, exec (.apertureAccess a (.read n)) s = .next t ∧ s.sameMemory t ∧
      t.rdata = (List.range n).map (fun i => if (s.lsLook (a.toNat + i)).2 ≤ 1 then (s.lsLook (a.toNat + i)).1 else 0) ∧
      ((∀ i < n, (s.lsLook (a.toNat + i)).2 = 0) → s.regsBut t [(pLSTORE, R.LSTORE_APER_UNC)] ∧
        ({ t with regs := s.regs, rdata := s.rdata } : State) = s))

/-- The BAR2 window, of n bytes of which g lie in installed DRAM that is in service: where g is less, one violation of kind 8 with BAR2
set is counted and the bytes beyond read 0 or are not written; where DRAM serves the g bytes at once, its channels taking them and
no decoder, DMA channel or waiting request of a higher level wanting one of them, and no BAR2 access waits, a read returns them and a
write stores them; else the access waits, in its order. No access touches the line store or the flash, and while none can arrive
nothing happens (R29, R49, R301, R315, R319, R322, R346).
The model's own choices in it: logs 56, 74. -/
def Obligations.Bar2Window : Prop :=
  (∀ (s : State) (w : W32) (acc : Access), s.hostServed = false → exec (.bar2Access w acc) s = .next s) ∧
  (∀ (s u : State) (w : W32) (n a g : Nat), s.hostServed = true → w.toNat + n ≤ 2 ^ 32 → a = s.hostWin + w.toNat → g = s.dramGood a n →
    u = (if g < n then s.violate 8 w.toNat false true else s) →
    (g = 0 → exec (.bar2Access w (.read n)) s = .next { u with rdata := zeros n }) ∧
    (0 < g → s.dramServed 6 a g 0x48 = true → s.bar2Waits = false →
      ∃ t, exec (.bar2Access w (.read n)) s = .next t ∧ t.rdata = (u.dramRead a g 2 0x48).2.1 ++ zeros (n - g) ∧
        t.dramWait = s.dramWait ∧ s.sameMemory t) ∧
    (0 < g → s.dramServed 6 a g 0x48 = false ∨ s.bar2Waits = true →
      exec (.bar2Access w (.read n)) s = .next { u with dramWait := s.dramWait ++ [.read a g (n - g)] }) ∧
    (g < n → violated s u 8 w.toNat false true ∧ s.regsBut u violFields ∧ ({ u with regs := s.regs } : State) = s)) ∧
  (∀ (s u : State) (w : W32) (l : List (Option Byte)) (a g : Nat), s.hostServed = true → w.toNat + l.length ≤ 2 ^ 32 →
    a = s.hostWin + w.toNat → g = s.dramGood a l.length → u = (if g < l.length then s.violate 8 w.toNat true true else s) →
    (g = 0 → exec (.bar2Access w (.write l)) s = .next u) ∧
    (0 < g → s.dramServed 6 a g 0x48 = true → s.bar2Waits = false →
      ∃ t, exec (.bar2Access w (.write l)) s = .next t ∧ t = u.dramWriteOpt a (l.take g) 0x48 ∧ t.dramWait = s.dramWait ∧
        t.rdata = s.rdata ∧ s.dramStores t (burstsOf a g)) ∧
    (0 < g → s.dramServed 6 a g 0x48 = false ∨ s.bar2Waits = true →
      exec (.bar2Access w (.write l)) s = .next { u with dramWait := s.dramWait ++ [.write a 0x48 (l.take g)] }) ∧
    (g < l.length → violated s u 8 w.toNat true true ∧ s.regsBut u violFields ∧ ({ u with regs := s.regs } : State) = s))

/-! ### Time base, balls and the host interface (R344 to R362, R405) -/

/-- A write of TIME_CMD sets its command for the next tick and changes nothing else. At the next tick SET loads C with TIME_SET and a
zero fraction, STEP adds the signed TIME_STEP, SLEW loads its count, and SNAP latches C and counts a snapshot; the end of a slew is
the tick that brings its count to 0, and no event at any other tick (R356, R357; the tick itself: log 1, log 63; what DRAM serves at
it, and the level of a ball: IdleStepIsATick).
The model's own choices in it: logs 1, 5, 63. -/
def Obligations.TimeCommands : Prop :=
  (∀ s : State,
     (s.accepts pTIME 0x70 1 → exec .timeCmdSet s = .next { s with timeCmd := s.timeCmd ||| 1 }) ∧
     (s.accepts pTIME 0x70 2 → exec .timeCmdStep s = .next { s with timeCmd := s.timeCmd ||| 2 }) ∧
     (s.accepts pTIME 0x70 4 → exec .timeCmdSnap s = .next { s with timeCmd := s.timeCmd ||| 4 }) ∧
     (s.accepts pTIME 0x70 8 → exec .timeCmdSlew s = .next { s with timeCmd := s.timeCmd ||| 8 })) ∧
  (∀ s : State, s.pending = [] → s.ticks = true →
     (s.timeCmd = 1 → ∃ t : State, step s = .next t.dramWake ∧ t.timeCmd = 0 ∧ t.cFrac = 0 ∧
       t.cNs = s.get64 pTIME R.TIME_SET_LO R.TIME_SET_HI % 2 ^ 64) ∧
     (s.timeCmd = 2 → s.enabled pTIME = true → s.get pTIME R.TIME_SLEW_LEFT = 0 → ∃ t : State, step s = .next t.dramWake ∧ t.timeCmd = 0 ∧
       (t.timeC : Int) = (s.timeC + s.timeInc + sgn 64 (s.get64 pTIME R.TIME_STEP_LO R.TIME_STEP_HI) * 2 ^ 32) % 2 ^ 96) ∧
     (s.timeCmd = 2 → s.enabled pTIME = false → ∃ t : State, step s = .next t.dramWake ∧ t.timeCmd = 0 ∧
       (t.timeC : Int) = (s.timeC + sgn 64 (s.get64 pTIME R.TIME_STEP_LO R.TIME_STEP_HI) * 2 ^ 32) % 2 ^ 96) ∧
     (s.timeCmd = 8 → s.enabled pTIME = true → s.get pTIME R.TIME_SLEW_N ≠ 0 → ∃ t : State, step s = .next t.dramWake ∧ t.timeCmd = 0 ∧
       (t.timeC : Int) = (s.timeC + s.timeInc + sgn 32 (s.get pTIME R.TIME_SLEW)) % 2 ^ 96 ∧
       t.get pTIME R.TIME_SLEW_LEFT = (s.get pTIME R.TIME_SLEW_N - 1) % 2 ^ R.TIME_SLEW_LEFT.w) ∧
     (s.timeCmd = 4 → s.fenceSound → ∃ t : State, step s = .next t.dramWake ∧ t.timeCmd = 0 ∧ t.get pTIME R.TIME_SNAP_LO = t.cNs % 2 ^ 32 ∧
       t.get pTIME R.TIME_SNAP_HI = t.cNs / 2 ^ 32 % 2 ^ 32 ∧
       t.get pTIME R.TIME_SNAP_INFO_SEQ = (s.get pTIME R.TIME_SNAP_INFO_SEQ + 1) % 2 ^ R.TIME_SNAP_INFO_SEQ.w ∧
       t.get pTIME R.TIME_SNAP_INFO_SW = 1 ∧ bit (t.get pTIME R.PG_IRQ_RAW) 19 = true)) ∧
  (∀ s : State,
     (s.ticks = true → s.enabled pTIME = true → s.get pTIME R.TIME_SLEW_LEFT = 1 → s.timeCmd = 0 →
       ∃ t : State, exec .slewEnd s = .next t.dramWake ∧ t.get pTIME R.TIME_SLEW_LEFT = 0 ∧ t.tick = s.tick + 1 ∧
         (t.timeC : Int) = (s.timeC + s.timeInc + sgn 32 (s.get pTIME R.TIME_SLEW)) % 2 ^ 96 ∧
         s.regsBut t [(pTIME, R.TIME_SLEW_LEFT)] ∧
         ({ t with tick := s.tick, osc := s.osc, cNs := s.cNs, cFrac := s.cFrac, regs := s.regs, mfioIn := s.mfioIn } : State) = s) ∧
     (s.ticks = false ∨ s.enabled pTIME = false ∨ s.get pTIME R.TIME_SLEW_LEFT ≠ 1 → exec .slewEnd s = .next s))

/-- The ceiling that an included bar with a lines ahead sets (R217). -/
def breathBar (mx mn empty full a : Nat) (fast : Bool) : Nat :=
  let c := if full ≤ a then mx else if a ≤ empty then mn
    else (mn + ((mx : Int) - mn) * (a - empty : Nat) / ((full - empty : Nat) : Int)).toNat
  if fast then min c 60000 else c

/-- A write of TIME_CMP_HI arms its unit, after a firing that is due at this tick, with the target HI and LO hold, clears FIRED, and sets
LATE where the target lies in the past; DISARM disarms and leaves the owner; neither changes another unit. A unit fires when C has
reached its target: FIRED sets, TIME_CMP_T holds C, its cause rises, the unit disarms or, for an owner with a period, is armed one
period on, and the owner receives its event; where it is not due nothing happens. On a single unit without a die trip or a commit that waits
the firing of BREATH's unit is its update: TARGET is the lowest of SW, MAX and what the included bars set, a fall of CEIL applies at
once and a rise by at most RISE, and SRC names the limit. The pulse of an output function ends WIDTH ticks after its event, and not
before (R216, R217, R358 to R360, R405).
The model's own choices in it: logs 2, 68. -/
def Obligations.CompareUnits : Prop :=
  (∀ (s u : State) (k : CmpUnit) (hi : W32), s.accepts pTIME (0x104 + 16 * k) hi.toNat → u = s.cmpFire k →
     (s.cmpDue k = false → u = s) ∧
     ∃ t, exec (.timeCmpArm k hi) s = .next t ∧
       t.cmpAt.getD k (0, 0) = (hi.toNat * 2 ^ 32 + u.get pTIME (R.TIME_CMP_LO.nth 16 k), u.tick) ∧ t.cmpAt.has k = true ∧
       t.get pTIME (R.TIME_CMP_HI.nth 16 k) = hi.toNat ∧ t.get pTIME (R.TIME_CMP_CTRL_ARMED.nth 16 k) = 1 ∧
       t.get pTIME (R.TIME_CMP_CTRL_FIRED.nth 16 k) = 0 ∧
       t.get pTIME (R.TIME_CMP_CTRL_LATE.nth 16 k) =
         b2n (decide (diff64 (hi.toNat * 2 ^ 32 + u.get pTIME (R.TIME_CMP_LO.nth 16 k)) u.cNs < 0)) ∧
       u.regsBut t [(pTIME, R.TIME_CMP_HI.nth 16 k), (pTIME, R.TIME_CMP_CTRL_ARMED.nth 16 k), (pTIME, R.TIME_CMP_CTRL_FIRED.nth 16 k),
         (pTIME, R.TIME_CMP_CTRL_LATE.nth 16 k)] ∧
       (∀ j, j ≠ k.val → t.cmpAt.getD j (0, 0) = u.cmpAt.getD j (0, 0)) ∧ ({ t with regs := u.regs, cmpAt := u.cmpAt } : State) = u) ∧
  (∀ (s : State) (k : CmpUnit), s.accepts pTIME (0x108 + 16 * k) (1 + 256 * s.get pTIME (R.TIME_CMP_CTRL_SW_EN.nth 16 k)) →
     ∃ t, exec (.timeCmpDisarm k) s = .next t ∧ t.cmpAt.has k = false ∧ t.get pTIME (R.TIME_CMP_CTRL_ARMED.nth 16 k) = 0 ∧
       (∀ j, j ≠ k.val → t.cmpAt.getD j (0, 0) = s.cmpAt.getD j (0, 0)) ∧
       ({ t with regs := s.regs, cmpAt := s.cmpAt, host := s.host } : State) = s ∧
       (s.get pTIME (R.TIME_CMP_CTRL_SW_EN.nth 16 k) = 0 → s.regsBut t [(pTIME, R.TIME_CMP_CTRL_ARMED.nth 16 k)])) ∧
  (∀ (s : State) (k : CmpUnit), (s.cmpDue k = false → exec (.compareFire k) s = .next s) ∧
     (s.cmpDue k = true → s.fenceSound → ∃ u : State,
       exec (.compareFire k) s = .next ((u.cmpEvent (s.unitOwner k)).pulsesFor [0, 1] (· == k.val)) ∧
       (s.unitOwner k ≤ 1 → u.cmpEvent (s.unitOwner k) = u) ∧
       u.get pTIME (R.TIME_CMP_CTRL_FIRED.nth 16 k) = 1 ∧ u.get pTIME (R.TIME_CMP_T.nth 16 k) = s.cNs % 2 ^ R.TIME_CMP_T.w ∧
       bit (u.get pTIME R.PG_IRQ_RAW) (3 + k) = true ∧
       (s.cmpReload (s.unitOwner k) = 0 → u.cmpAt.has k = false ∧ u.get pTIME (R.TIME_CMP_CTRL_ARMED.nth 16 k) = 0) ∧
       (s.cmpReload (s.unitOwner k) ≠ 0 →
         u.cmpAt.getD k (0, 0) = ((s.cNs + 32 * s.cmpReload (s.unitOwner k) / 5) % 2 ^ 64, s.tick) ∧ u.cmpAt.has k = true ∧
         u.get pTIME (R.TIME_CMP_CTRL_ARMED.nth 16 k) = 1) ∧
       s.regsBut u ([(pTIME, R.TIME_CMP_CTRL_FIRED.nth 16 k), (pTIME, R.TIME_CMP_CTRL_ARMED.nth 16 k), (pTIME, R.TIME_CMP_T.nth 16 k),
         (pTIME, R.PG_IRQ_RAW)] ++ (if s.cmpReload (s.unitOwner k) = 0 then [] else
           [(pTIME, R.TIME_CMP_LO.nth 16 k), (pTIME, R.TIME_CMP_HI.nth 16 k)])) ∧
       (∀ j, j ≠ k.val → u.cmpAt.getD j (0, 0) = s.cmpAt.getD j (0, 0)) ∧
       ({ u with regs := s.regs, cmpAt := s.cmpAt, host := s.host } : State) = s)) ∧
  (∀ (s : State) (k : CmpUnit) (sw mx mn rise tg r : Nat), s.cmpDue k = true → s.fenceSound → s.unitOwner k = 5 →
     s.working pBREATH = true → s.straps.pairEn = false → s.commits.has pBREATH = false → s.flag pTHERM R.THERM_STAT_TRIP = false →
     sw = min (s.ap pBREATH R.BREATH_SW) 120000 → mx = min (s.ap pBREATH R.BREATH_MAX) 120000 →
     mn = min (s.ap pBREATH R.BREATH_MIN) 120000 → rise = min (s.ap pBREATH R.BREATH_RISE) 120000 →
     tg = ((List.range 8).filter s.breathIncl).foldl (fun m b => min m (breathBar mx mn (s.ap pBREATH R.BREATH_DEPTH_EMPTY)
       (max (s.ap pBREATH R.BREATH_DEPTH_EMPTY + 1) (s.ap pBREATH R.BREATH_DEPTH_FULL)) (s.lookahead b) (s.fastJob b))) (min sw mx) →
     r = (if s.breath.first = true ∨ tg < s.get pBREATH R.BREATH_CEIL_CEIL then tg
       else min tg (s.get pBREATH R.BREATH_CEIL_CEIL + rise)) →
     ∃ t, exec (.compareFire k) s = .next t ∧ t.get pBREATH R.BREATH_TARGET = tg ∧ t.get pBREATH R.BREATH_CEIL_CEIL = r ∧
       t.breath.first = false ∧
       (r ≠ tg → t.get pBREATH R.BREATH_CEIL_SRC = 0xB) ∧
       ((∀ b < 8, s.breathIncl b = false) → r = tg → t.get pBREATH R.BREATH_CEIL_SRC = if sw < mx then 8 else 0xA) ∧
       s.regsBut t [(pTIME, R.TIME_CMP_CTRL_FIRED.nth 16 k), (pTIME, R.TIME_CMP_CTRL_ARMED.nth 16 k), (pTIME, R.TIME_CMP_T.nth 16 k),
         (pTIME, R.PG_IRQ_RAW), (pTIME, R.TIME_CMP_LO.nth 16 k), (pTIME, R.TIME_CMP_HI.nth 16 k), (pBREATH, R.BREATH_TARGET),
         (pBREATH, R.BREATH_CEIL_CEIL), (pBREATH, R.BREATH_CEIL_SRC), (pBREATH, R.PG_IRQ_RAW)]) ∧
  (∀ (s : State) (k : Fin 4),
     (s.pulses.has k = true → s.pulses.getD k 0 ≤ s.tick → ∃ t, exec (.pinmuxPulseEnd k) s = .next t ∧ t.pulses.has k = false ∧
       (∀ j, j ≠ k.val → t.pulses.getD j 0 = s.pulses.getD j 0) ∧ ({ t with pulses := s.pulses } : State) = s) ∧
     (s.pulses.has k = false ∨ s.tick < s.pulses.getD k 0 → exec (.pinmuxPulseEnd k) s = .next s))

/-- A vector whose message waits sends it while MSI-X is enabled and neither the function nor the vector is masked and no holdoff runs:
one message of the vector's address and data, the request no longer waits, and the holdoff starts; else the message keeps waiting.
The end of a holdoff sends the message that waits for it. A message of TIME_SNAP_CFG's vector latches C and counts the snapshot with
cause 19 (R349 to R351, R357).
The model's own choices in it: logs 2, 8, 9, 16. -/
def Obligations.MsixMessages : Prop :=
  ∀ (s : State) (v : Vec) (c : Instr), c = .msixMessage v ∨ c = .coalHoldoffExpiry v →
    (s.host.waiting.contains v.val = true → s.msixOpen v = true → s.msixHeld v = false →
      (c = .coalHoldoffExpiry v → s.get pHOSTIF R.HOSTIF_COAL ≠ 0 ∧ s.host.sentAt.has v = true) →
      ∃ t, exec c s = .next t ∧ t.host.sentAt.getD v 0 = s.tick ∧
        t.outs = .msix v (s.get64 pHOSTIF (R.MSIX_ADDR_LO.nth 16 v) (R.MSIX_ADDR_HI.nth 16 v))
          (s.get pHOSTIF (R.MSIX_DATA.nth 16 v)) :: s.outs ∧ s.sameMemory t ∧
        ((s.flag pTIME R.TIME_SNAP_CFG_EN = false ∨ s.get pTIME R.TIME_SNAP_CFG_VEC ≠ v) →
          t.host.waiting = s.host.waiting.filter (· != v.val) ∧
          ({ t with host := { t.host with waiting := s.host.waiting, sentAt := s.host.sentAt }, outs := s.outs } : State) = s) ∧
        (s.flag pTIME R.TIME_SNAP_CFG_EN = true → s.get pTIME R.TIME_SNAP_CFG_VEC = v → s.fenceSound →
          t.get pTIME R.TIME_SNAP_LO = s.cNs % 2 ^ 32 ∧ t.get pTIME R.TIME_SNAP_HI = s.cNs / 2 ^ 32 % 2 ^ 32 ∧
          t.get pTIME R.TIME_SNAP_INFO_SEQ = (s.get pTIME R.TIME_SNAP_INFO_SEQ + 1) % 2 ^ R.TIME_SNAP_INFO_SEQ.w ∧
          t.get pTIME R.TIME_SNAP_INFO_VEC = v ∧ t.get pTIME R.TIME_SNAP_INFO_SW = 0 ∧ bit (t.get pTIME R.PG_IRQ_RAW) 19 = true ∧
          s.regsBut t [(pTIME, R.TIME_SNAP_LO), (pTIME, R.TIME_SNAP_HI), (pTIME, R.TIME_SNAP_INFO_SEQ), (pTIME, R.TIME_SNAP_INFO_VEC),
            (pTIME, R.TIME_SNAP_INFO_SW), (pTIME, R.PG_IRQ_RAW)] ∧
          ({ t with regs := s.regs, host := s.host, outs := s.outs, fresh := s.fresh } : State) = s)) ∧
    (s.host.waiting.contains v.val = false ∨ s.msixOpen v = false ∨ s.msixHeld v = true ∨
      (c = .coalHoldoffExpiry v ∧ (s.get pHOSTIF R.HOSTIF_COAL = 0 ∨ s.host.sentAt.has v = false)) → exec c s = .next s)

/-- A trained link makes the endpoint serve and reads UP, WIDTH and SPEED, with cause 3 where UP changed; a PCI Express reset takes the
endpoint down, forgets the waiting messages, the BARs and the timeout and returns the configuration fields of HOSTIF to Reset, with
causes 3 and 4 where UP and BME fell, keeping the header, HOSTIF_FAULT_EN, HOSTIF_WARN_EN, HOSTIF_SWPIN and every memory, and returns
the pages of the PCI Express lanes to Reset. While RESET_N is low neither does anything (R344, R347, R348).
That the address bits of the BARs, the completion timeout and the power state return to 0, and the reset values of the MSI-X enables, are
the model's choice, logs 12 and 16: R348 says that the configuration space returns to its reset state and gives no numbers.
The model's own choices in it: logs 12, 16, 65. -/
def Obligations.EndpointComesAndGoes : Prop :=
  (∀ (s : State) (w : Fin 3) (v : Fin 4) (e : PcieEvent), s.inReset = true →
    exec (.endpointReady w v) s = .next s ∧ exec (.pcieReset e) s = .next s) ∧
  (∀ (s : State) (w : Fin 3) (v : Fin 4), s.inReset = false → s.fenceSound → ∃ t, exec (.endpointReady w v) s = .next t ∧
    t.host.ready = true ∧
    t.get pHOSTIF R.HOSTIF_LINK_WIDTH = 2 ^ w.val ∧ t.get pHOSTIF R.HOSTIF_LINK_SPEED = v.val + 1 ∧
    t.flag pHOSTIF R.HOSTIF_LINK_UP = true ∧ (s.flag pHOSTIF R.HOSTIF_LINK_UP = false → bit (t.get pHOSTIF R.PG_IRQ_RAW) 3 = true) ∧
    (s.flag pHOSTIF R.HOSTIF_LINK_UP = true → t.get pHOSTIF R.PG_IRQ_RAW = s.get pHOSTIF R.PG_IRQ_RAW) ∧
    s.regsBut t [(pHOSTIF, R.HOSTIF_LINK_WIDTH), (pHOSTIF, R.HOSTIF_LINK_SPEED), (pHOSTIF, R.HOSTIF_LINK_UP), (pHOSTIF, R.PG_IRQ_RAW)] ∧
    ({ t with regs := s.regs, host := { t.host with ready := s.host.ready, waiting := s.host.waiting } } : State) = s) ∧
  (∀ (s : State) (e : PcieEvent), s.inReset = false → s.fenceSound → ∃ t, exec (.pcieReset e) s = .next t ∧ t.host.ready = false ∧
    t.host.d3 = false ∧ t.host.bars = [] ∧ t.host.cto = 0 ∧ t.host.sentAt = [] ∧ t.host.waiting.length ≤ 1 ∧
    (∀ f : Fld, pcieKeeps f.id = false → t.get pHOSTIF f = rst pHOSTIF f) ∧
    (∀ f : Fld, pcieKeeps f.id = true → f.id ≠ R.PG_IRQ_RAW.id → t.get pHOSTIF f = s.get pHOSTIF f) ∧
    (s.flag pHOSTIF R.HOSTIF_LINK_UP = true → bit (t.get pHOSTIF R.PG_IRQ_RAW) 3 = true) ∧
    (s.flag pHOSTIF R.HOSTIF_LINK_BME = true → bit (t.get pHOSTIF R.PG_IRQ_RAW) 4 = true) ∧
    (∀ i < 4, ∀ f : Fld, t.get (pLANE (128 + i)) f = rst (pLANE (128 + i)) f) ∧
    (∀ q f, q ≠ pHOSTIF → (∀ i < 4, q ≠ pLANE (128 + i)) → t.get q f = s.get q f) ∧
    ({ t with regs := s.regs, host := s.host } : State) = s)

/-! ### Position channels and line generators' counts (R138 to R156) -/

/-- COUNT_UPDATE. A legal transition of A and B on a counting quadrature channel moves the count by one step, signed by CTRL.INV, modulo
2^32, stamps POS_EDGE_T, moves the turning point or, by HYST steps back from it, turns the direction with cause 3, and moves the bar
coordinate Y of every running line generator that reads the channel by that step times its factor, of no other; POS_SPEED is the net
rate over the newest 2^AVG + 1 updates, rounded toward zero, from the second update of a run in one direction on; an illegal one counts
in POS_QERR_CNT and raises cause 11 with the count unchanged; no change of level, or a channel that does not count, only follows the
levels; P10 and P11 have no such inputs (R138, R139, R146, R147, R150).
The model's own choices in it: log 2. -/
def Obligations.CountUpdates : Prop :=
  (∀ (s : State) (c : PosCh) (a b : Bool), 10 ≤ c.val → exec (.countUpdate c a b) s = .next s) ∧
  (∀ (s : State) (c : PosCh) (a b : Bool), c.val < 10 →
    (s.posCounts c = true → ∀ d0 d new ds : Int, quadStep (s.posAt c).a (s.posAt c).b a b = some d0 → d0 ≠ 0 →
      d = (if s.flag (pPOS c) R.POS_CTRL_INV then -d0 else d0) → new = uns 32 (s.get (pPOS c) R.POS_CNT + d) →
      ds = (if (s.posAt c).dir then -1 else 1) →
      ∃ t, exec (.countUpdate c a b) s = .next t ∧ (t.get (pPOS c) R.POS_CNT : Int) = new ∧
        t.get (pPOS c) R.POS_EDGE_T = s.cNs % 2 ^ R.POS_EDGE_T.w ∧ (t.posAt c).a = a ∧ (t.posAt c).b = b ∧
        (0 < d * ds → (t.posAt c).dir = (s.posAt c).dir) ∧
        (0 < d * ds → 0 < diff32 new.toNat (s.get (pPOS c) R.POS_TURN) * ds → (t.get (pPOS c) R.POS_TURN : Int) = new) ∧
        (d * ds ≤ 0 → (max 1 (s.get (pPOS c) R.POS_HYST) : Int) ≤ diff32 (s.get (pPOS c) R.POS_TURN) new.toNat * ds →
          (t.posAt c).dir = !(s.posAt c).dir ∧ (t.get (pPOS c) R.POS_TURN : Int) = new ∧ t.get (pPOS c) R.POS_SPEED = 0 ∧
          (t.posAt c).hist = [] ∧ (t.posAt c).valid = false ∧ (t.posAt c).newDir = true ∧
          bit (t.get (pPOS c) R.PG_IRQ_RAW) 3 = true) ∧
        (0 < d * ds ∨ diff32 (s.get (pPOS c) R.POS_TURN) new.toNat * ds < (max 1 (s.get (pPOS c) R.POS_HYST) : Int) →
          ((s.posAt c).still = true → (t.posAt c).still = false ∧ (t.posAt c).hist = [(s.tick, new.toNat)] ∧
            t.get (pPOS c) R.POS_SPEED = s.get (pPOS c) R.POS_SPEED ∧ bit (t.get (pPOS c) R.PG_IRQ_RAW) 5 = true) ∧
          ((s.posAt c).still = false → (s.posAt c).newDir = true → d * ds ≤ 0 →
            (t.posAt c).hist = [] ∧ t.get (pPOS c) R.POS_SPEED = s.get (pPOS c) R.POS_SPEED) ∧
          ((s.posAt c).still = false → (s.posAt c).newDir = false ∨ 0 < d * ds → ∀ h : List (Nat × Nat),
            h = ((s.posAt c).hist ++ [(s.tick, new.toNat)]).drop
              ((s.posAt c).hist.length + 1 - (2 ^ s.get (pPOS c) R.POS_SPD_CFG + 1)) →
            (t.posAt c).hist = h ∧
            (∀ t0 c0 e r, h = (t0, c0) :: e :: r → t0 < s.tick →
              (t.get (pPOS c) R.POS_SPEED : Int) = uns 32 (Int.tdiv (diff32 new.toNat c0 * 156250000) ((s.tick - t0 : Nat) : Int)) ∧
              (t.posAt c).valid = true ∧ (t.posAt c).newDir = false) ∧
            ((∀ t0 c0 e r, h = (t0, c0) :: e :: r → s.tick ≤ t0) → t.get (pPOS c) R.POS_SPEED = s.get (pPOS c) R.POS_SPEED ∧
              (t.posAt c).valid = (s.posAt c).valid ∧ (t.posAt c).newDir = (s.posAt c).newDir))) ∧
        (d * ds ≤ 0 → diff32 (s.get (pPOS c) R.POS_TURN) new.toNat * ds < (max 1 (s.get (pPOS c) R.POS_HYST) : Int) →
          (t.posAt c).dir = (s.posAt c).dir ∧ t.get (pPOS c) R.POS_TURN = s.get (pPOS c) R.POS_TURN) ∧
        (∀ i < 8, t.lineY i = if s.lineRuns i && srcChannel i (s.lineAt i).src == c.val then
            sgn 64 (uns 64 (s.lineY i + d * (if (s.lineAt i).src = 2 then 2 ^ 24 else 2 ^ 24 + s.gain i)))
          else s.lineY i) ∧
        (∀ m, m ≠ c.val → t.posAt m = s.posAt m) ∧
        s.regsBut t ([(pPOS c, R.POS_CNT), (pPOS c, R.POS_EDGE_T), (pPOS c, R.POS_TURN), (pPOS c, R.POS_SPEED),
          (pPOS c, R.PG_IRQ_RAW)] ++ (List.range 8).flatMap fun i => [(pLINE i, R.LINE_Y_LO), (pLINE i, R.LINE_Y_HI)]) ∧
        ({ t with regs := s.regs, pos := s.pos, line := s.line, host := s.host } : State) = s) ∧
    (s.posCounts c = true → quadStep (s.posAt c).a (s.posAt c).b a b = some 0 →
      ∃ t, exec (.countUpdate c a b) s = .next t ∧
        t.get (pPOS c) R.POS_QERR_CNT = min (s.get (pPOS c) R.POS_QERR_CNT + 1) (2 ^ R.POS_QERR_CNT.w - 1) ∧
        bit (t.get (pPOS c) R.PG_IRQ_RAW) 11 = true ∧ bit (t.get (pPOS c) R.PG_IRQ_RAW) 1 = true ∧
        s.regsBut t ((pPOS c, R.POS_QERR_CNT) :: errFields (pPOS c)) ∧ t.posAt c = { s.posAt c with a := a, b := b } ∧
        (∀ m, m ≠ c.val → t.posAt m = s.posAt m) ∧ ({ t with regs := s.regs, pos := s.pos, host := s.host } : State) = s) ∧
    ((s.posCounts c = false ∨ quadStep (s.posAt c).a (s.posAt c).b a b = none) →
      exec (.countUpdate c a b) s = .next (s.updPos c fun x => { x with a := a, b := b })))

/-- INDEX, LOSS_OF_SIGNAL, STILL and POS_START. An index on a counting channel of P2 to P9 with IDX_EN moves the latch to the previous
latch, latches the count and the direction and raises cause 6; after an earlier index, both forwards and with no reversal between, the
revolution is checked: within the tolerance DRIFT clears, beyond it DRIFT sets, is counted and recorded with code 0x43 and cause 7; else
it is not checked. On another channel it changes nothing. Loss of signal fences a counting channel with code 0x40; each running line
generator that reads it goes over to the other master where FAILOVER stands and that master is not fenced, or fences with the reason.
Standstill clears the speed and raises cause 4 when POS_STILL_TO ticks have passed without an update; the channels begin to count
1.000 ms after reset release. Each changes nothing where its condition does not hold (R138, R140, R142, R147, R148, R157).
A loss that a channel in soft reset meets waits for the end of the reset, as one that its page meets before step CLK does (R384).
The model's own choices in it: logs 2, 8. -/
def Obligations.IndexAndSignalEvents : Prop :=
  (∀ (s : State) (c : PosCh),
     (c.val < 2 ∨ 10 ≤ c.val ∨ s.posCounts c = false ∨ s.flag (pPOS c) R.POS_CTRL_IDX_EN = false → exec (.index c) s = .next s) ∧
     (2 ≤ c.val → c.val < 10 → s.posCounts c = true → s.flag (pPOS c) R.POS_CTRL_IDX_EN = true →
      ∃ t, exec (.index c) s = .next t ∧
        t.get (pPOS c) R.POS_IDX_PREV = s.get (pPOS c) R.POS_IDX_LAT % 2 ^ 32 ∧
        t.get (pPOS c) R.POS_IDX_LAT = s.get (pPOS c) R.POS_CNT % 2 ^ 32 ∧
        t.get (pPOS c) R.POS_IDX_STAT_LAST_DIR = b2n (s.posAt c).dir ∧ bit (t.get (pPOS c) R.PG_IRQ_RAW) 6 = true ∧
        t.posAt c = { s.posAt c with z := true, revSince := false, latches := min 2 ((s.posAt c).latches + 1) } ∧
        ((s.posAt c).latches = 0 ∨ s.flag (pPOS c) R.POS_IDX_STAT_LAST_DIR = true ∨ (s.posAt c).dir = true ∨ (s.posAt c).revSince = true →
          t.get (pPOS c) R.POS_IDX_STAT_CHECKED = 0 ∧ s.regsBut t [(pPOS c, R.POS_IDX_PREV), (pPOS c, R.POS_IDX_LAT),
            (pPOS c, R.POS_IDX_STAT_LAST_DIR), (pPOS c, R.POS_IDX_STAT_CHECKED), (pPOS c, R.PG_IRQ_RAW)]) ∧
        ((s.posAt c).latches ≠ 0 → s.flag (pPOS c) R.POS_IDX_STAT_LAST_DIR = false → (s.posAt c).dir = false →
          (s.posAt c).revSince = false → ∀ off : Nat, off =
            (diff32 (s.get (pPOS c) R.POS_CNT) (s.get (pPOS c) R.POS_IDX_LAT) - sgn 32 (s.get (pPOS c) R.POS_IDX_NOM)).natAbs →
          t.get (pPOS c) R.POS_IDX_STAT_CHECKED = 1 ∧
          (off ≤ s.get (pPOS c) R.POS_IDX_TOL → t.get (pPOS c) R.POS_IDX_STAT_DRIFT = 0 ∧
            s.regsBut t [(pPOS c, R.POS_IDX_PREV), (pPOS c, R.POS_IDX_LAT), (pPOS c, R.POS_IDX_STAT_LAST_DIR),
              (pPOS c, R.POS_IDX_STAT_CHECKED), (pPOS c, R.POS_IDX_STAT_DRIFT), (pPOS c, R.PG_IRQ_RAW)]) ∧
          (s.get (pPOS c) R.POS_IDX_TOL < off → t.get (pPOS c) R.POS_IDX_STAT_DRIFT = 1 ∧
            t.get (pPOS c) R.POS_DRIFT_CNT = min (s.get (pPOS c) R.POS_DRIFT_CNT + 1) (2 ^ R.POS_DRIFT_CNT.w - 1) ∧
            bit (t.get (pPOS c) R.PG_IRQ_RAW) 7 = true ∧
            (s.get (pPOS c) R.PG_ERR_CNT = 0 → t.get (pPOS c) R.PG_ERR_INFO_CODE = 0x43) ∧
            s.regsBut t ([(pPOS c, R.POS_IDX_PREV), (pPOS c, R.POS_IDX_LAT), (pPOS c, R.POS_IDX_STAT_LAST_DIR),
              (pPOS c, R.POS_IDX_STAT_CHECKED), (pPOS c, R.POS_IDX_STAT_DRIFT), (pPOS c, R.POS_DRIFT_CNT)] ++ errFields (pPOS c)))) ∧
        (∀ m, m ≠ c.val → t.posAt m = s.posAt m) ∧ ({ t with regs := s.regs, pos := s.pos, host := s.host } : State) = s)) ∧
  (∀ (s : State) (c : PosCh) (sig : PosSig),
     (10 ≤ c.val ∨ s.posStarted = false ∨ s.shut = true ∨ s.enabled (pPOS c) = false ∨ s.fenced (pPOS c) = true ∨
       (sig = .z ∧ (c.val < 2 ∨ s.flag (pPOS c) R.POS_CTRL_IDX_EN = false)) → exec (.lossOfSignal c sig) s = .next s) ∧
     (c.val < 10 → s.posStarted = true → s.shut = false → s.enabled (pPOS c) = true → s.fenced (pPOS c) = false →
       (sig = .z → 2 ≤ c.val ∧ s.flag (pPOS c) R.POS_CTRL_IDX_EN = true) → s.srstBusy (pPOS c) = true →
       ∃ t, exec (.lossOfSignal c sig) s = .next t ∧
         (t.srsts.getD (pPOS c) {}).causes = (s.srsts.getD (pPOS c) {}).causes ++ [0x40] ∧ ({ t with srsts := s.srsts } : State) = s) ∧
     (c.val < 10 → s.held (pPOS c) = false → s.posCounts c = true →
       (sig = .z → 2 ≤ c.val ∧ s.flag (pPOS c) R.POS_CTRL_IDX_EN = true) → s.srsts.has (pPOS c) = false →
       ∃ t, exec (.lossOfSignal c sig) s = .next t ∧ t.fenced (pPOS c) = true ∧ t.get (pPOS c) R.PG_FENCE_REASON = 0x40 ∧
         t.get (pPOS c) R.PG_FENCE_COUNT = min (s.get (pPOS c) R.PG_FENCE_COUNT + 1) 0xFFFF ∧
         t.get (pPOS c) R.POS_CNT = s.get (pPOS c) R.POS_CNT ∧ t.posAt c = { s.posAt c with los := true } ∧
         (∀ m, m ≠ c.val → t.posAt m = s.posAt m) ∧
         (∀ i < 8, s.lineRuns i = true → srcChannel i (s.lineAt i).src = c.val → ∀ other : Nat,
           other = (if (s.lineAt i).src = 0 then 1 else 0) →
           ((s.lineAt i).failover = true → (s.lineAt i).src ≠ 2 → s.fenced (pPOS other) = false →
             (t.lineAt i).src = other ∧ (t.lineAt i).failedOver = true ∧ t.fenced (pLINE i) = false) ∧
           ((s.lineAt i).failover = false ∨ (s.lineAt i).src = 2 ∨ s.fenced (pPOS other) = true → s.srsts.has (pLINE i) = false →
             t.fenced (pLINE i) = true ∧ t.get (pLINE i) R.PG_FENCE_REASON = 0x40)) ∧
         (s.straps.pairEn = false → (∀ i < 8, s.lineRuns i = true → srcChannel i (s.lineAt i).src ≠ c.val) →
           s.regsBut t (errFields (pPOS c) ++ [(pPOS c, R.PG_FENCE_FENCED), (pPOS c, R.PG_FENCE_REASON), (pPOS c, R.PG_FENCE_COUNT)]) ∧
           ({ t with regs := s.regs, pos := s.pos, host := s.host, fenceAt := s.fenceAt } : State) = s))) ∧
  (∀ (s : State) (c : PosCh),
     (s.posCounts c = true → (s.posAt c).still = false → (s.posAt c).lastUpd + s.get (pPOS c) R.POS_STILL_TO ≤ s.tick →
       ∃ t, exec (.still c) s = .next t ∧ t.get (pPOS c) R.POS_SPEED = 0 ∧
         t.posAt c = { s.posAt c with still := true, valid := false, hist := [] } ∧ (∀ m, m ≠ c.val → t.posAt m = s.posAt m) ∧
         bit (t.get (pPOS c) R.PG_IRQ_RAW) 4 = true ∧ s.regsBut t [(pPOS c, R.POS_SPEED), (pPOS c, R.PG_IRQ_RAW)] ∧
         ({ t with regs := s.regs, pos := s.pos, host := s.host } : State) = s) ∧
     (s.posCounts c = false ∨ (s.posAt c).still = true ∨ s.tick < (s.posAt c).lastUpd + s.get (pPOS c) R.POS_STILL_TO →
       exec (.still c) s = .next s)) ∧
  (∀ s : State, (s.inReset = false → 156250 ≤ s.tick → exec .posStart s = .next { s with posStarted := true }) ∧
     (s.inReset = true ∨ s.tick < 156250 → exec .posStart s = .next s))

/-- A serial transfer has failed: it is counted in its register with cause 12 and one more failure in a row, and the count stands; where
POS_SER_LIM failures in a row are reached the channel fences with the code, else nothing but the error record follows (R145). -/
def serialFailed (s t : State) (c : PosCh) (code : Nat) (cnt : Fld) : Prop :=
  t.get (pPOS c) cnt = min (s.get (pPOS c) cnt + 1) (2 ^ cnt.w - 1) ∧ bit (t.get (pPOS c) R.PG_IRQ_RAW) 12 = true ∧
    t.posAt c = { s.posAt c with xfer := none, fails := (s.posAt c).fails + 1 } ∧ (∀ m, m ≠ c.val → t.posAt m = s.posAt m) ∧
    t.get (pPOS c) R.POS_CNT = s.get (pPOS c) R.POS_CNT ∧
    (s.get (pPOS c) R.POS_SER_LIM = 0 ∨ (s.posAt c).fails + 1 < s.get (pPOS c) R.POS_SER_LIM →
      s.regsBut t ((pPOS c, cnt) :: errFields (pPOS c)) ∧ ({ t with regs := s.regs, pos := s.pos, host := s.host } : State) = s) ∧
    (s.get (pPOS c) R.POS_SER_LIM ≠ 0 → s.get (pPOS c) R.POS_SER_LIM ≤ (s.posAt c).fails + 1 → s.held (pPOS c) = false →
      s.srsts.has (pPOS c) = false → t.fenced (pPOS c) = true ∧ t.get (pPOS c) R.PG_FENCE_REASON = code)

/-- The serial commands of P10 and P11. A transfer starts where none has started within PER, and is skipped while one runs; an intact
word without its error bit sets the count to the word's position, stamps POS_EDGE_T with the transfer's start and ends the run of
failures; a word that fails its check fails with 0x41, one with the error bit with 0x40, and a transfer without a start bit within 16
rising edges with 0x42. On a channel that does not count the transfer is dropped; on another channel, without a transfer, and before
their time these events change nothing. The times are in oscillator time, which a lost main PLL does not stop (R138, R143 to R145,
R383). That an event that comes late takes effect, and one that comes before its time changes nothing, is the model's choice, log 2.
The model's own choices in it: logs 2, 8. -/
def Obligations.SerialTransfers : Prop :=
  ∀ (s : State) (c : PosCh),
    (c.val < 10 → exec (.serialTransferStart c) s = .next s ∧ (∀ w, exec (.serialWord c w) s = .next s) ∧
      exec (.serialTimeout c) s = .next s) ∧
    (10 ≤ c.val → s.posCounts c = true →
      (∀ t, (s.posAt c).lastStart = some t → t + s.get (pPOS c) R.POS_SER_CFG_PER ≤ s.osc) →
      ∃ t, exec (.serialTransferStart c) s = .next t ∧
        ((s.posAt c).xfer = none → t.posAt c = { s.posAt c with lastStart := some s.osc, xfer := some (s.tick, s.cNs), xferAt := s.osc }) ∧
        ((s.posAt c).xfer ≠ none → t.posAt c = { s.posAt c with lastStart := some s.osc }) ∧
        (∀ m, m ≠ c.val → t.posAt m = s.posAt m) ∧ ({ t with pos := s.pos } : State) = s) ∧
    (10 ≤ c.val → (s.posCounts c = false ∨
        ∃ t, (s.posAt c).lastStart = some t ∧ s.osc < t + s.get (pPOS c) R.POS_SER_CFG_PER) →
      exec (.serialTransferStart c) s = .next s) ∧
    (10 ≤ c.val → (s.posAt c).xfer = none → (∀ w, exec (.serialWord c w) s = .next s) ∧ exec (.serialTimeout c) s = .next s) ∧
    (∀ x : Nat × Nat, 10 ≤ c.val → (s.posAt c).xfer = some x → s.posCounts c = false →
      (∀ w, exec (.serialWord c w) s = .next (s.updPos c fun y => { y with xfer := none })) ∧
      ((s.posAt c).xferAt + 31 * (max 3 (s.get (pPOS c) R.POS_SER_CFG_DIV) + 1) ≤ s.osc →
        exec (.serialTimeout c) s = .next (s.updPos c fun y => { y with xfer := none }))) ∧
    (∀ (w : BitVec 41) (x : Nat × Nat), 10 ≤ c.val → (s.posAt c).xfer = some x → s.posCounts c = true →
      crc8 (bitsMsb 33 (w.toNat / 256)) = w.toNat % 256 → bit w.toNat 8 = false →
      ∃ t, exec (.serialWord c w) s = .next t ∧ t.get (pPOS c) R.POS_CNT = w.toNat / 512 ∧
        t.get (pPOS c) R.POS_EDGE_T = x.2 % 2 ^ R.POS_EDGE_T.w ∧ (t.posAt c).xfer = none ∧ (t.posAt c).fails = 0 ∧
        (∀ m, m ≠ c.val → t.posAt m = s.posAt m) ∧
        s.regsBut t [(pPOS c, R.POS_CNT), (pPOS c, R.POS_EDGE_T), (pPOS c, R.POS_TURN), (pPOS c, R.POS_SPEED),
          (pPOS c, R.PG_IRQ_RAW)] ∧ ({ t with regs := s.regs, pos := s.pos, host := s.host } : State) = s) ∧
    (∀ (w : BitVec 41) (x : Nat × Nat), 10 ≤ c.val → (s.posAt c).xfer = some x → s.posCounts c = true →
      (crc8 (bitsMsb 33 (w.toNat / 256)) ≠ w.toNat % 256 →
        ∃ t, exec (.serialWord c w) s = .next t ∧ serialFailed s t c 0x41 R.POS_SER_CRC_CNT) ∧
      (crc8 (bitsMsb 33 (w.toNat / 256)) = w.toNat % 256 → bit w.toNat 8 = true →
        ∃ t, exec (.serialWord c w) s = .next t ∧ serialFailed s t c 0x40 R.POS_SER_ERR_CNT)) ∧
    (∀ x : Nat × Nat, 10 ≤ c.val → (s.posAt c).xfer = some x →
      (s.posCounts c = true → (s.posAt c).xferAt + 31 * (max 3 (s.get (pPOS c) R.POS_SER_CFG_DIV) + 1) ≤ s.osc →
        ∃ t, exec (.serialTimeout c) s = .next t ∧ serialFailed s t c 0x42 R.POS_SER_TO_CNT) ∧
      (s.osc < (s.posAt c).xferAt + 31 * (max 3 (s.get (pPOS c) R.POS_SER_CFG_DIV) + 1) → exec (.serialTimeout c) s = .next s))

/-- A count update from one count to another crosses an armed compare in its direction, whose target was still ahead and is now reached
or passed (R149). -/
def crosses (s : State) (c old new : Nat) (armed dir cmp : Fld) : Prop :=
  s.flag (pPOS c) armed = true ∧ 0 < diff32 new old * (if s.flag (pPOS c) dir then -1 else 1) ∧
    0 < diff32 (s.get (pPOS c) cmp) old * (if s.flag (pPOS c) dir then -1 else 1) ∧
    diff32 (s.get (pPOS c) cmp) new * (if s.flag (pPOS c) dir then -1 else 1) ≤ 0
/-- After a count update each compare is due at its time where this update is the first to cross it, and due as before where it did not
cross it or one before it had. -/
def compareDue (s t : State) (c : PosCh) (new ns : Nat) : Prop :=
  ((s.posAt c).due0 = none → crosses s c (s.get (pPOS c) R.POS_CNT) new R.POS_CMP_STAT_ARMED0 R.POS_CMP_STAT_DIR0 R.POS_CMP0 →
    (t.posAt c).due0 = some ns) ∧
  ((s.posAt c).due0 ≠ none ∨ ¬ crosses s c (s.get (pPOS c) R.POS_CNT) new R.POS_CMP_STAT_ARMED0 R.POS_CMP_STAT_DIR0 R.POS_CMP0 →
    (t.posAt c).due0 = (s.posAt c).due0) ∧
  ((s.posAt c).due1 = none → crosses s c (s.get (pPOS c) R.POS_CNT) new R.POS_CMP_STAT_ARMED1 R.POS_CMP_STAT_DIR1 R.POS_CMP1 →
    (t.posAt c).due1 = some ns) ∧
  ((s.posAt c).due1 ≠ none ∨ ¬ crosses s c (s.get (pPOS c) R.POS_CNT) new R.POS_CMP_STAT_ARMED1 R.POS_CMP_STAT_DIR1 R.POS_CMP1 →
    (t.posAt c).due1 = (s.posAt c).due1)

/-- POS_CMP_WRITE, POS_CMP_DISARM and POS_COMPARE_FIRE. A write of a position compare arms it with the channel's direction, and sets BEHIND and cause 10 where its target does not lie ahead;
a write of POS_CMP_CTRL disarms those it names; the first count update that crosses an armed target in the compare's direction makes it
due at its own time, and no other does; a compare that is due fires once: ARMED clears, FIRED sets, the time is held and its cause rises; one that is not does nothing (R149).
The model's own choices in it: log 97. -/
def Obligations.PositionCompares : Prop :=
  ∀ (s : State) (c : PosCh),
    (∀ v : W32, s.accepts (pPOS c) 0x80 v.toNat → ∃ t, exec (.posCmpWrite c 0 v) s = .next t ∧
      t.get (pPOS c) R.POS_CMP0 = v.toNat ∧ t.get (pPOS c) R.POS_CMP_STAT_ARMED0 = 1 ∧ t.get (pPOS c) R.POS_CMP_STAT_FIRED0 = 0 ∧
      t.get (pPOS c) R.POS_CMP_STAT_DIR0 = b2n (s.posAt c).dir ∧
      t.get (pPOS c) R.POS_CMP_STAT_BEHIND0 =
        b2n (decide (diff32 v.toNat (s.get (pPOS c) R.POS_CNT) * (if (s.posAt c).dir then -1 else 1) ≤ 0)) ∧
      (t.get (pPOS c) R.POS_CMP_STAT_BEHIND0 = 1 → bit (t.get (pPOS c) R.PG_IRQ_RAW) 10 = true) ∧
      (t.get (pPOS c) R.POS_CMP_STAT_BEHIND0 = 0 → t.get (pPOS c) R.PG_IRQ_RAW = s.get (pPOS c) R.PG_IRQ_RAW) ∧
      (t.posAt c).due0 = none ∧
      s.regsBut t [(pPOS c, R.POS_CMP0), (pPOS c, R.POS_CMP_STAT_ARMED0), (pPOS c, R.POS_CMP_STAT_FIRED0),
        (pPOS c, R.POS_CMP_STAT_DIR0), (pPOS c, R.POS_CMP_STAT_BEHIND0), (pPOS c, R.PG_IRQ_RAW)] ∧
      ({ t with regs := s.regs, pos := s.pos, host := s.host } : State) = s) ∧
    (∀ v : W32, s.accepts (pPOS c) 0x84 v.toNat → ∃ t, exec (.posCmpWrite c 1 v) s = .next t ∧
      t.get (pPOS c) R.POS_CMP1 = v.toNat ∧ t.get (pPOS c) R.POS_CMP_STAT_ARMED1 = 1 ∧ t.get (pPOS c) R.POS_CMP_STAT_FIRED1 = 0 ∧
      t.get (pPOS c) R.POS_CMP_STAT_DIR1 = b2n (s.posAt c).dir ∧
      t.get (pPOS c) R.POS_CMP_STAT_BEHIND1 =
        b2n (decide (diff32 v.toNat (s.get (pPOS c) R.POS_CNT) * (if (s.posAt c).dir then -1 else 1) ≤ 0)) ∧
      (t.get (pPOS c) R.POS_CMP_STAT_BEHIND1 = 1 → bit (t.get (pPOS c) R.PG_IRQ_RAW) 10 = true) ∧
      (t.get (pPOS c) R.POS_CMP_STAT_BEHIND1 = 0 → t.get (pPOS c) R.PG_IRQ_RAW = s.get (pPOS c) R.PG_IRQ_RAW) ∧
      (t.posAt c).due1 = none ∧
      s.regsBut t [(pPOS c, R.POS_CMP1), (pPOS c, R.POS_CMP_STAT_ARMED1), (pPOS c, R.POS_CMP_STAT_FIRED1),
        (pPOS c, R.POS_CMP_STAT_DIR1), (pPOS c, R.POS_CMP_STAT_BEHIND1), (pPOS c, R.PG_IRQ_RAW)] ∧
      ({ t with regs := s.regs, pos := s.pos, host := s.host } : State) = s) ∧
    (∀ m : BitVec 2, s.accepts (pPOS c) 0x88 m.toNat → ∃ t, exec (.posCmpDisarm c m) s = .next t ∧
      (bit m.toNat 0 = true → t.get (pPOS c) R.POS_CMP_STAT_ARMED0 = 0 ∧ (t.posAt c).due0 = none) ∧
      (bit m.toNat 1 = true → t.get (pPOS c) R.POS_CMP_STAT_ARMED1 = 0 ∧ (t.posAt c).due1 = none) ∧
      (bit m.toNat 0 = false → t.get (pPOS c) R.POS_CMP_STAT_ARMED0 = s.get (pPOS c) R.POS_CMP_STAT_ARMED0) ∧
      (bit m.toNat 1 = false → t.get (pPOS c) R.POS_CMP_STAT_ARMED1 = s.get (pPOS c) R.POS_CMP_STAT_ARMED1) ∧
      s.regsBut t [(pPOS c, R.POS_CMP_STAT_ARMED0), (pPOS c, R.POS_CMP_STAT_ARMED1)] ∧
      ({ t with regs := s.regs, pos := s.pos } : State) = s) ∧
    (∀ ns, s.posCounts c = true → (s.posAt c).due0 = some ns → ∃ t, exec (.posCompareFire c 0) s = .next t ∧
      t.get (pPOS c) R.POS_CMP_STAT_ARMED0 = 0 ∧ t.get (pPOS c) R.POS_CMP_STAT_FIRED0 = 1 ∧
      t.get (pPOS c) R.POS_CMP_T0 = ns % 2 ^ R.POS_CMP_T0.w ∧ bit (t.get (pPOS c) R.PG_IRQ_RAW) 8 = true ∧ (t.posAt c).due0 = none ∧
      s.regsBut t [(pPOS c, R.POS_CMP_STAT_ARMED0), (pPOS c, R.POS_CMP_STAT_FIRED0), (pPOS c, R.POS_CMP_T0), (pPOS c, R.PG_IRQ_RAW)] ∧
      ({ t with regs := s.regs, pos := s.pos, host := s.host } : State) = s) ∧
    (∀ ns, s.posCounts c = true → (s.posAt c).due1 = some ns → ∃ t, exec (.posCompareFire c 1) s = .next t ∧
      t.get (pPOS c) R.POS_CMP_STAT_ARMED1 = 0 ∧ t.get (pPOS c) R.POS_CMP_STAT_FIRED1 = 1 ∧
      t.get (pPOS c) R.POS_CMP_T1 = ns % 2 ^ R.POS_CMP_T1.w ∧ bit (t.get (pPOS c) R.PG_IRQ_RAW) 9 = true ∧ (t.posAt c).due1 = none ∧
      s.regsBut t [(pPOS c, R.POS_CMP_STAT_ARMED1), (pPOS c, R.POS_CMP_STAT_FIRED1), (pPOS c, R.POS_CMP_T1), (pPOS c, R.PG_IRQ_RAW)] ∧
      ({ t with regs := s.regs, pos := s.pos, host := s.host } : State) = s) ∧
    (∀ k : Fin 2, s.posCounts c = false ∨ (if k = 0 then (s.posAt c).due0 else (s.posAt c).due1) = none →
      exec (.posCompareFire c k) s = .next s) ∧
    (∀ a b d, c.val < 10 → s.posCounts c = true → quadStep (s.posAt c).a (s.posAt c).b a b = some d → d ≠ 0 →
      ∃ t, exec (.countUpdate c a b) s = .next t ∧
        compareDue s t c (uns 32 (s.get (pPOS c) R.POS_CNT + if s.flag (pPOS c) R.POS_CTRL_INV then -d else d)) s.cNs) ∧
    (∀ (w : BitVec 41) (x : Nat × Nat), 10 ≤ c.val → s.posCounts c = true → (s.posAt c).xfer = some x →
      crc8 (bitsMsb 33 (w.toNat / 256)) = w.toNat % 256 → bit w.toNat 8 = false →
      ∃ t, exec (.serialWord c w) s = .next t ∧ compareDue s t c (w.toNat / 512) x.2)

/-- STRETCH_WINDOW_CLOSE and LINE_ADJ_GO. The close of a stretch window takes the window's total off the queue. On a running, tracking
bar whose bar encoder is not fenced and whose nominal is not 0, the first window after a start passes, and a later one gives the measure
and, by the rule of R156, the new gain, clipped ones counted with cause 6: a unit that neither leads nor follows takes it at once, the
home unit of a pair keeps it for the safe line, the partner takes none. A LINE_ADJ GO arms the adjustment for its line, or, for a line
that is not ahead or a reserved WHEN, refuses it with LATE and cause 5; a partner that follows ignores it and counts it (R154, R156, R236).
The model's own choices in it: logs 15, 116. -/
def Obligations.GainAndAdjustment : Prop :=
  (∀ (s : State) (b : Bar),
    ((s.lineAt b).strDue = [] → exec (.stretchWindowClose b) s = .next s) ∧
    (∀ e r, (s.lineAt b).strDue = e :: r →
      (s.lineRuns b = false ∨ s.strRuns b = false ∨ ((s.lineAt b).strSkip = false ∧
          (s.get (pLINE b) R.LINE_STR_NOM = 0 ∨ s.fenced (pPOS (2 + b)) = true)) →
        exec (.stretchWindowClose b) s = .next (s.updLine b fun l => { l with strDue := r })) ∧
      (s.lineRuns b = true → s.strRuns b = true → (s.lineAt b).strSkip = true →
        ∃ t, exec (.stretchWindowClose b) s = .next t ∧ t.lineAt b = { s.lineAt b with strDue := r, strSkip := false } ∧
          (∀ m, m ≠ b.val → t.lineAt m = s.lineAt m) ∧ ({ t with line := s.line } : State) = s) ∧
      (∀ g : Int × Int × Bool, s.lineRuns b = true → s.strRuns b = true → (s.lineAt b).strSkip = false →
        s.get (pLINE b) R.LINE_STR_NOM ≠ 0 → s.fenced (pPOS (2 + b)) = false →
        g = gainAfter (s.gain b) e (max 10 (min 24 (s.get (pLINE b) R.LINE_STR_CFG_WEXP)))
          (s.get (pLINE b) R.LINE_STR_NOM) (s.get (pLINE b) R.LINE_STR_CFG_K) (s.get (pLINE b) R.LINE_STR_LIM) →
        ∃ t, exec (.stretchWindowClose b) s = .next t ∧ (t.lineAt b).strDue = r ∧
          (-(2 ^ 31) ≤ g.1 → g.1 < 2 ^ 31 → t.get (pLINE b) R.LINE_STR_MEAS = uns 32 g.1) ∧
          (g.2.2 = true → bit (t.get (pLINE b) R.PG_IRQ_RAW) 6 = true ∧
            t.get (pLINE b) R.LINE_STR_CLIP_CNT = min (s.get (pLINE b) R.LINE_STR_CLIP_CNT + 1) (2 ^ R.LINE_STR_CLIP_CNT.w - 1)) ∧
          (g.2.2 = false → t.get (pLINE b) R.LINE_STR_CLIP_CNT = s.get (pLINE b) R.LINE_STR_CLIP_CNT) ∧
          (s.leads = false → s.follows = false → t.get (pLINE b) R.LINE_GAIN = uns 32 g.2.1 ∧
            (t.lineAt b).gainAt = (s.lineAt b).gainAt ∧ t.pair = s.pair ∧ t.outs = s.outs) ∧
          (s.leads = true → t.get (pLINE b) R.LINE_GAIN = s.get (pLINE b) R.LINE_GAIN ∧
            (t.lineAt b).gainAt = (s.lineAt b).gainAt ++ [(s.safeLine b, g.2.1)]) ∧
          (s.follows = true → t.get (pLINE b) R.LINE_GAIN = s.get (pLINE b) R.LINE_GAIN ∧
            (t.lineAt b).gainAt = (s.lineAt b).gainAt ∧ t.pair = s.pair ∧ t.outs = s.outs) ∧
          (∀ m, m ≠ b.val → t.lineAt m = s.lineAt m) ∧
          s.regsBut t [(pLINE b, R.LINE_GAIN), (pLINE b, R.LINE_STR_MEAS), (pLINE b, R.LINE_STR_CLIP_CNT), (pLINE b, R.PG_IRQ_RAW)] ∧
          ({ t with regs := s.regs, line := s.line, host := s.host, fresh := s.fresh, pair := s.pair, outs := s.outs } : State) = s))) ∧
  (∀ (s : State) (b : Bar) (whn : BitVec 2) (line : Nat), s.accepts (pLINE b) 0x7C (2 ^ 31 + 16 * whn.toNat) →
    line = s.get (pLINE b) R.LINE_ADJ_LINE →
    (s.follows = true → ∃ t, exec (.lineAdjGo b whn) s = .next t ∧
      t.get pPAIR R.PAIR_IGN_CNT = min (s.get pPAIR R.PAIR_IGN_CNT + 1) (2 ^ R.PAIR_IGN_CNT.w - 1) ∧
      s.regsBut t [(pPAIR, R.PAIR_IGN_CNT)] ∧ ({ t with regs := s.regs } : State) = s) ∧
    (s.follows = false → whn.toNat = 0 ∨ (whn.toNat = 1 ∧ 0 < diff32 line (s.get (pLINE b) R.LINE_SEQ) ∧
        (s.leads = true → 0 ≤ diff32 line (s.safeLine b))) →
      ∃ t, exec (.lineAdjGo b whn) s = .next t ∧ t.get (pLINE b) R.LINE_ADJ_CTRL_ARMED = 1 ∧ t.get (pLINE b) R.LINE_ADJ_CTRL_LATE = 0 ∧
        t.lineAt b = { s.lineAt b with adj := some (sgn 32 (s.get (pLINE b) R.LINE_ADJ), whn.toNat, line) } ∧
        (∀ m, m ≠ b.val → t.lineAt m = s.lineAt m) ∧ (s.leads = false ∨ whn.toNat = 0 → t.pair = s.pair ∧ t.outs = s.outs) ∧
        s.regsBut t [(pLINE b, R.LINE_ADJ_CTRL_WHEN), (pLINE b, R.LINE_ADJ_CTRL_ARMED), (pLINE b, R.LINE_ADJ_CTRL_LATE)] ∧
        ({ t with regs := s.regs, line := s.line, pair := s.pair, outs := s.outs } : State) = s) ∧
    (s.follows = false → 2 ≤ whn.toNat ∨ (whn.toNat = 1 ∧ (diff32 line (s.get (pLINE b) R.LINE_SEQ) ≤ 0 ∨
        (s.leads = true ∧ diff32 line (s.safeLine b) < 0))) →
      ∃ t, exec (.lineAdjGo b whn) s = .next t ∧ t.get (pLINE b) R.LINE_ADJ_CTRL_LATE = 1 ∧
        bit (t.get (pLINE b) R.PG_IRQ_RAW) 5 = true ∧
        s.regsBut t [(pLINE b, R.LINE_ADJ_CTRL_WHEN), (pLINE b, R.LINE_ADJ_CTRL_LATE), (pLINE b, R.PG_IRQ_RAW)] ∧
        ({ t with regs := s.regs, host := s.host } : State) = s))

/-! ### The codec (R58 to R81) -/

/-- The line-store bytes from address a are those of l, and read clean (R308). -/
def lsHolds (s : State) (a : Nat) (l : List Byte) : Prop :=
  ∀ i < l.length, Memory.get s.lstore (a + i) = l[i]? ∧ s.lsErr.getD (a + i) 0 = 0
/-- The address of place i of staging buffer n, 0 to 7 an encoder's (R81). -/
def stageAddr (n i : Nat) : Nat := 0x3E00000 + 0x20000 * n + (Config.stageStart n + i) % 0x20000
/-- An encoder makes the segment line at SLINE of context c a KEY record though the context holds the line before: after a CHECK failure, by
FORCE_KEY, or KEY_INT lines after the last KEY record (R72). -/
def keyForced (s : State) (b c sline : Nat) : Bool :=
  bit (s.encAt b).chkPrev c || bit (s.encAt b).forceKey c ||
    ((s.applyPlain (pENC b)).ap (pENC b) R.ENC_CTRL_KEY_INT != 0 &&
      match (s.encAt b).lastKey.find? fun k => k.1 == c with
      | some k => decide (((s.applyPlain (pENC b)).ap (pENC b) R.ENC_CTRL_KEY_INT : Int) ≤ diff32 sline k.2)
      | none => false)
/-- What the encoder predicts from: no line, which makes a KEY record, where SLINE is 0 or the context holds nothing; else the line that the
context holds clean, a KEY record where that is not SLINE − 1 or one is forced (R62, R72). -/
def encContext (s : State) (b seg : Nat) (live dot : Bool) (sline : Nat) (key : Bool) (prev : List Byte) : Prop :=
  ((sline = 0 ∨ bit (s.encAt b).ctxValid (2 * seg + b2n live) = false) ∧ key = true) ∨
  ∃ l : Nat, l < 2 ^ 32 ∧ sline ≠ 0 ∧ bit (s.encAt b).ctxValid (2 * seg + b2n live) = true ∧ prev.length = rawBytes dot seg ∧
    lsHolds s (encCtx b seg live + 0xC00) (leBytes 4 l) ∧ lsHolds s (encCtx b seg live) prev ∧
    key = ((l + 1) % 2 ^ 32 != sline || keyForced s b (2 * seg + b2n live) sline)

/-- ENCODE_SEGMENT_LINE. Where the encoder does not work, has no room for a record or no whole item waits, nothing changes. Else it takes the
item at the front of its input: one out of order is counted with cause 4 and gives nothing; one in order gives one record on the output
and leaves its line in the context: of the staged bytes where they read clean, a KEY record or one against the context's line, with
CHKERR, code 0x30 and cause 3 where CHECK does not match; with CHKERR and code 0x11 where a staged byte is uncorrectable. No byte of
memory but the context's changes where the staged bytes and the context read clean (R61, R62, R70 to R74, R79, R81).
The model's own choices in it: logs 11, 29, 102, 103. -/
def Obligations.EncoderTakesAnItem : Prop :=
  ∀ (s : State) (b : Bar),
    (s.working (pENC b) = false ∨ s.encRoom b = false ∨ itemAt (s.sinks.getD (0x20 + b.val) []) = none →
      exec (.encodeSegmentLine b) s = .next s) ∧
    ∀ (tag item : List Byte) (n seg sline : Nat) (live dot : Bool), s.working (pENC b) = true → s.encRoom b = true →
      itemAt (s.sinks.getD (0x20 + b.val) []) = some (tag, item, n) → seg = byteAt tag 2 / 16 → dot = bit (byteAt tag 2) 0 →
      live = bit (byteAt tag 3) 1 → sline = leAt tag 4 4 →
      (inOrder (if live then (s.encAt b).ordLive else (s.encAt b).ordBase) live sline seg = false →
        ∃ t, exec (.encodeSegmentLine b) s = .next t ∧ t.sinks.getD (0x20 + b.val) [] = (s.sinks.getD (0x20 + b.val) []).drop n ∧
          t.get (pENC b) R.ENC_ORD_CNT = min (s.get (pENC b) R.ENC_ORD_CNT + 1) (2 ^ R.ENC_ORD_CNT.w - 1) ∧
          (s.get (pENC b) R.PG_ERR_CNT = 0 → t.get (pENC b) R.PG_ERR_INFO_CODE = 0x31) ∧
          bit (t.get (pENC b) R.PG_IRQ_RAW) 4 = true ∧ t.encAt b = { s.encAt b with taken := (s.encAt b).taken + n } ∧
          (∀ m, m ≠ b.val → t.encAt m = s.encAt m) ∧
          s.regsBut t ([(pENC b, R.ENC_ORD_CNT), (pENC b, R.PG_GEN_APPL_GEN), (pENC b, R.PG_GEN_PENDING)] ++ errFields (pENC b)) ∧
          (∀ q f, q ≠ pENC b → t.ap q f = s.ap q f) ∧
          ({ t with regs := s.regs, sinks := s.sinks, enc := s.enc, appl := s.appl, commits := s.commits, host := s.host } : State) = s) ∧
      (inOrder (if live then (s.encAt b).ordLive else (s.encAt b).ordBase) live sline seg = true → Memory.wf s.lstore = true →
        (∀ (raw prev : List Byte) (key bad : Bool) (out : List Byte × Nat), raw.length = leAt tag 0 2 →
          (∀ i < raw.length, Memory.get s.lstore (stageAddr b ((s.encAt b).taken + 16 + i)) = raw[i]? ∧
            s.lsErr.getD (stageAddr b ((s.encAt b).taken + 16 + i)) 0 = 0) →
          encContext s b seg live dot sline key prev → bad = (crc32 raw != leAt tag 8 4) →
          out = encodeRaw ⟨byteAt tag 2 / 2 % 8, seg, live, sline, dot⟩ raw (if key then zeros raw.length else prev) key bad (leAt tag 8 4) →
          ∃ t, exec (.encodeSegmentLine b) s = .next t ∧ t.sinks.getD (0x20 + b.val) [] = (s.sinks.getD (0x20 + b.val) []).drop n ∧
            t.queues.getD (0x28 + b.val) [] = s.queues.getD (0x28 + b.val) [] ++ [{ bytes := out.1, last := bit (byteAt tag 3) 2 }] ∧
            t.get (pENC b) R.ENC_REC_CNT = (s.get (pENC b) R.ENC_REC_CNT + 1) % 2 ^ 32 ∧
            t.get (pENC b) R.ENC_KEY_CNT = (if key then (s.get (pENC b) R.ENC_KEY_CNT + 1) % 2 ^ 32 else s.get (pENC b) R.ENC_KEY_CNT) ∧
            t.get (pENC b) R.ENC_ESC_CNT = (if out.2 = 0 then s.get (pENC b) R.ENC_ESC_CNT
              else min (s.get (pENC b) R.ENC_ESC_CNT + out.2) (2 ^ R.ENC_ESC_CNT.w - 1)) ∧
            t.get64 (pENC b) R.ENC_IN_LO R.ENC_IN_HI = (s.get64 (pENC b) R.ENC_IN_LO R.ENC_IN_HI + raw.length) % 2 ^ 64 ∧
            t.get64 (pENC b) R.ENC_OUT_LO R.ENC_OUT_HI = (s.get64 (pENC b) R.ENC_OUT_LO R.ENC_OUT_HI + out.1.length) % 2 ^ 64 ∧
            (bad = true → bit (t.get (pENC b) R.PG_IRQ_RAW) 3 = true ∧
              (s.get (pENC b) R.PG_ERR_CNT = 0 → t.get (pENC b) R.PG_ERR_INFO_CODE = 0x30) ∧
              t.get (pENC b) R.ENC_CHK_CNT = min (s.get (pENC b) R.ENC_CHK_CNT + 1) (2 ^ R.ENC_CHK_CNT.w - 1)) ∧
            (bad = false → t.get (pENC b) R.ENC_CHK_CNT = s.get (pENC b) R.ENC_CHK_CNT ∧
              t.get (pENC b) R.PG_ERR_CNT = s.get (pENC b) R.PG_ERR_CNT) ∧
            lsHolds t (encCtx b seg live) (raw.take 0xC00) ∧ lsHolds t (encCtx b seg live + 0xC00) (leBytes 4 sline) ∧
            bit (t.encAt b).ctxValid (2 * seg + b2n live) = true ∧ bit (t.encAt b).chkPrev (2 * seg + b2n live) = bad ∧
            bit (t.encAt b).forceKey (2 * seg + b2n live) = false ∧
            (if live then (t.encAt b).ordLive else (t.encAt b).ordBase) = (if bit (byteAt tag 3) 2 then none else some (sline, seg)) ∧
            (∀ m, m ≠ b.val → t.encAt m = s.encAt m) ∧
            s.regsBut t ([(pENC b, R.ENC_IN_LO), (pENC b, R.ENC_IN_HI), (pENC b, R.ENC_OUT_LO), (pENC b, R.ENC_OUT_HI),
              (pENC b, R.ENC_REC_CNT), (pENC b, R.ENC_ESC_CNT), (pENC b, R.ENC_KEY_CNT), (pENC b, R.ENC_CHK_CNT),
              (pENC b, R.PG_GEN_APPL_GEN), (pENC b, R.PG_GEN_PENDING)] ++ errFields (pENC b)) ∧
            s.lsOnly t [(encCtx b seg live, raw.length), (encCtx b seg live + 0xC00, 4)]) ∧
        (∀ i < leAt tag 0 2, (Memory.get s.lstore (stageAddr b ((s.encAt b).taken + 16 + i))).isSome = true →
          s.lsErr.getD (stageAddr b ((s.encAt b).taken + 16 + i)) 0 = 2 →
          ∃ t q, exec (.encodeSegmentLine b) s = .next t ∧ t.sinks.getD (0x20 + b.val) [] = (s.sinks.getD (0x20 + b.val) []).drop n ∧
            t.queues.getD (0x28 + b.val) [] = s.queues.getD (0x28 + b.val) [] ++ [q] ∧ bit (byteAt q.bytes 3) 2 = true ∧
            (s.get (pENC b) R.PG_ERR_CNT = 0 → t.get (pENC b) R.PG_ERR_INFO_CODE = 0x11) ∧
            t.get (pENC b) R.ENC_CHK_CNT = s.get (pENC b) R.ENC_CHK_CNT ∧
            t.get (pENC b) R.ENC_REC_CNT = (s.get (pENC b) R.ENC_REC_CNT + 1) % 2 ^ 32 ∧
            bit (t.encAt b).chkPrev (2 * seg + b2n live) = true))

/-- The code loses nothing: a record that an encoder writes of a segment line, whichever line it predicts from, decodes to the line's
bytes against that line, and its length is within the bounds of its segment. The last clause is R66 itself: the residue, its zigzag
value and the decoder's inverse. The round trip and the bounds of the lengths are derived from R58 to R71. -/
def Obligations.DecodingUndoesEncoding : Prop :=
  (∀ (e : RecKey) (raw prev : List Byte) (key : Bool), e.bar < 8 → e.seg < 16 → e.sline < 2 ^ 32 →
    raw.length = rawBytes e.dot e.seg → prev.length = rawBytes e.dot e.seg →
    decodeRaw (encodeRaw e raw (if key then zeros raw.length else prev) key false (crc32 raw)).1 e (some prev) = .ok raw ∧
    recMin e.dot e.seg ≤ (encodeRaw e raw (if key then zeros raw.length else prev) key false (crc32 raw)).1.length ∧
    (encodeRaw e raw (if key then zeros raw.length else prev) key false (crc32 raw)).1.length ≤ recMax e.dot e.seg ∧
    leAt (encodeRaw e raw (if key then zeros raw.length else prev) key false (crc32 raw)).1 0 2 =
      (encodeRaw e raw (if key then zeros raw.length else prev) key false (crc32 raw)).1.length) ∧
  (∀ cur p : Nat, cur < 256 → p < 256 → ∃ e : Int, -128 ≤ e ∧ e ≤ 127 ∧ (e - ((cur : Int) - p)) % 256 = 0 ∧
    (zigzag cur p : Int) = (if 0 ≤ e then 2 * e else -2 * e - 1) ∧ zigzag cur p ≤ 255 ∧ (unzig p (zigzag cur p) : Int) = (p + e) % 256 ∧
    unzig p (zigzag cur p) = cur)

/-- The line-store regions that decoder b may write: its bar's ring, its contexts and its staging buffer (R81, R86). -/
def decRegions (b : Nat) : List (Nat × Nat) :=
  [(0x300000 * b, 0x300000), (decCtx b 0 false, 0x20000), (0x3E00000 + 0x20000 * (8 + b), 0x20000)]

/-- The LEN and the bytes, read whole or not, of the record that decoder b takes next from a layer for a segment: read from DRAM now, or
standing in the staging buffer, where it was read ahead (R70, R79, R81; log 102). -/
def recordRead (t : State) (b : Nat) (j : Job) (seg : Nat) (live : Bool) (len : Nat) (bytes : List Byte) (ok : Bool) : Prop :=
  (t.stagedRec b j (t.decAt b).m live = none ∧ len = leNat (t.streamRead b j live ((t.decAt b).posOf live) 2).2.1 ∧
    (t.streamRead b j live ((t.decAt b).posOf live) (if lenGood j seg len then len else 12)).2 = (bytes, ok)) ∨
  ∃ x, t.stagedRec b j (t.decAt b).m live = some x ∧ len = x.len ∧ bytes.length = x.n ∧ x.n ≤ 0x20000 ∧ ok = x.ok ∧
    ∀ i < bytes.length, Memory.get t.lstore (stageAddr (8 + b) (stagePlace live + i)) = bytes[i]? ∧
      t.lsErr.getD (stageAddr (8 + b) (stagePlace live + i)) 0 = 0
/-- What a record of line m is expected to name (R61, R78). -/
def recordKey (t : State) (b : Nat) (j : Job) (seg : Nat) (live : Bool) : RecKey :=
  ⟨b, seg, live, if live then (t.decAt b).m else (t.decAt b).m % j.repLines, j.dot⟩
/-- The decoder's context of a segment and layer holds the line before, and reads clean (R62, R81). -/
def decContext (t : State) (b : Nat) (j : Job) (seg : Nat) (live : Bool) (prev : List Byte) : Prop :=
  bit (t.decAt b).ctxValid (2 * seg + b2n live) = true ∧ prev.length = rawBytes j.dot seg ∧ (recordKey t b j seg live).sline ≠ 0 ∧
    ∃ l : Nat, l < 2 ^ 32 ∧ (l + 1) % 2 ^ 32 = (recordKey t b j seg live).sline ∧
      lsHolds t (decCtx b seg live + 0xC00) (leBytes 4 l) ∧ lsHolds t (decCtx b seg live) prev
/-- The segment line is complete in its slot, blank or not, where the layer is the one that prints (R76, R78). -/
def segPrinted (t u : State) (b : Nat) (j : Job) (seg : Nat) (live blank : Bool) : Prop :=
  ∀ x, (t.decAt b).slotOf j.first (t.decAt b).m = some x → (t.decAt b).prints live seg = true →
    ∃ y, (u.decAt b).slotOf j.first (t.decAt b).m = some y ∧ bit y.complete seg = true ∧ bit y.blank seg = (blank || bit x.blank seg)
/-- By how much the counters of DEC b rise: records, format errors, CHECK failures, poisoned and skipped records (R83). -/
def decCounts (s u : State) (b rec fmt chk poison lost : Nat) : Prop :=
  u.get (pDEC b) R.DEC_REC_CNT = (s.get (pDEC b) R.DEC_REC_CNT + rec) % 2 ^ 32 ∧
    u.get (pDEC b) R.DEC_FMT_CNT = min (s.get (pDEC b) R.DEC_FMT_CNT + fmt) (2 ^ R.DEC_FMT_CNT.w - 1) ∧
    u.get (pDEC b) R.DEC_CHK_CNT = min (s.get (pDEC b) R.DEC_CHK_CNT + chk) (2 ^ R.DEC_CHK_CNT.w - 1) ∧
    u.get (pDEC b) R.DEC_POISON_CNT = min (s.get (pDEC b) R.DEC_POISON_CNT + poison) (2 ^ R.DEC_POISON_CNT.w - 1) ∧
    u.get (pDEC b) R.DEC_CTXL_CNT = min (s.get (pDEC b) R.DEC_CTXL_CNT + lost) (2 ^ R.DEC_CTXL_CNT.w - 1)
/-- The line store is in canonical form and the counters of DEC b lie within their widths, as every write leaves them. -/
def decSound (s : State) (b : Nat) : Prop :=
  Memory.wf s.lstore = true ∧ ∀ f ∈ [R.DEC_REC_CNT, R.DEC_FMT_CNT, R.DEC_CHK_CNT, R.DEC_POISON_CNT, R.DEC_CTXL_CNT], s.get (pDEC b) f < 2 ^ f.w
/-- An error of a segment line: its code is recorded if it is the first, its cause rises, its context is invalid and the segment line is
blank (R78, R79, R80). -/
def segFails (s t u : State) (b : Nat) (j : Job) (seg : Nat) (live : Bool) (code cause : Nat) : Prop :=
  (s.get (pDEC b) R.PG_ERR_CNT = 0 → u.get (pDEC b) R.PG_ERR_INFO_CODE = code ∧ u.get (pDEC b) R.PG_ERR_INFO_SRC = b2n live) ∧
    bit (u.get (pDEC b) R.PG_IRQ_RAW) cause = true ∧ bit (u.decAt b).ctxValid (2 * seg + b2n live) = false ∧
    segPrinted t u b j seg live true

/-- DECODE_RECORD and RING_RELAYOUT. Where the page does not work, the engine does not run or DRAM is not in service, DECODE_RECORD changes
nothing; without a job, an open line or a record that is served it decodes none. Else it takes the next record of the layer, from DRAM or
from the staging buffer: where the layer has lost its place, the segment line counts as a format error with cause 4 and no record is
counted; a record that cannot be read, in DRAM or in staging, is poison, 0x11 with cause 5; one whose LEN is out of bounds, or whose
header or blocks are wrong, a format error, 0x31 with cause 4, and with a wrong LEN the layer loses its place; one whose CHECK fails
0x30 with cause 3; each of these is blank and its context invalid. A record that is not KEY and finds no line before it in the context
is skipped, counted with cause 6 and blank. A KEY record that decodes, or another against the context's line, is counted and its line
stands in the segment's context and completes the segment line.
Nothing is stored but in the decoder's ring, contexts and staging buffer and among the job records. RING_RELAYOUT lays out the ring for a job of the other mode
once no slot is held, else it changes nothing more than the decoder's own way on (R62, R69, R76, R78 to R81, R83, R86).
The model's own choices in it: logs 2, 28, 102, 104, 105. -/
def Obligations.DecoderTakesARecord : Prop :=
  (∀ (s : State) (b : Bar) (live : Bool),
    (s.working (pDEC b) = false ∨ (s.jobAt b).running = false ∨ s.dramReady = false → exec (.decodeRecord b live) s = .next s) ∧
    ∀ t : State, s.working (pDEC b) = true → (s.jobAt b).running = true → s.dramReady = true → t = s.decSettle b 300 →
      (t.decJob b = none → exec (.decodeRecord b live) s = .next t) ∧
      (∀ j, t.decJob b = some j → (t.decAt b).opened = false ∨ t.recordServed b j live = false →
        exec (.decodeRecord b live) s = .next (t.panicUpdate b)) ∧
      (∀ j, t.decJob b = some j → (t.decAt b).opened = true → t.recordServed b j live = true → t.nextSeg b j live = none →
        exec (.decodeRecord b live) s = .next t) ∧
      ∀ (j : Job) (seg : Nat), t.decJob b = some j → (t.decAt b).opened = true → t.recordServed b j live = true →
        t.nextSeg b j live = some seg →
        ∃ u, exec (.decodeRecord b live) s = .next u ∧ s.lsWithin u (decRegions b) ∧ s.recordsOnly u [] ∧
          (decSound s b → (if live then (t.decAt b).liveLost else (t.decAt b).baseLost) = true →
            decCounts s u b 0 1 0 0 0 ∧ segFails s t u b j seg live 0x31 4) ∧
          (decSound s b → (if live then (t.decAt b).liveLost else (t.decAt b).baseLost) = false →
            ∀ (len : Nat) (bytes : List Byte) (ok : Bool), recordRead t b j seg live len bytes ok →
            (ok = false → decCounts s u b 1 0 0 1 0 ∧ segFails s t u b j seg live 0x11 5) ∧
            (ok = true → lenGood j seg len = false → decCounts s u b 1 1 0 0 0 ∧ segFails s t u b j seg live 0x31 4) ∧
            (∀ prev : Option (List Byte), ok = true → lenGood j seg len = true →
              (bit (byteAt bytes 3) 0 = true ∧ prev = none) ∨
                (∃ l, prev = some l ∧ decContext t b j seg live l) ∨
                (prev = none ∧ (bit (t.decAt b).ctxValid (2 * seg + b2n live) = false ∨ (recordKey t b j seg live).sline = 0)) →
              (decodeRaw bytes (recordKey t b j seg live) prev = .format →
                decCounts s u b 1 1 0 0 0 ∧ segFails s t u b j seg live 0x31 4) ∧
              (decodeRaw bytes (recordKey t b j seg live) prev = .check →
                decCounts s u b 1 0 1 0 0 ∧ segFails s t u b j seg live 0x30 3) ∧
              (decodeRaw bytes (recordKey t b j seg live) prev = .contextLost →
                decCounts s u b 0 0 0 0 1 ∧ bit (u.get (pDEC b) R.PG_IRQ_RAW) 6 = true ∧
                u.get (pDEC b) R.PG_ERR_CNT = s.get (pDEC b) R.PG_ERR_CNT ∧
                bit (u.decAt b).ctxValid (2 * seg + b2n live) = false ∧ segPrinted t u b j seg live true) ∧
              (∀ raw, decodeRaw bytes (recordKey t b j seg live) prev = .ok raw →
                decCounts s u b 1 0 0 0 0 ∧ lsHolds u (decCtx b seg live) raw ∧
                lsHolds u (decCtx b seg live + 0xC00) (leBytes 4 (recordKey t b j seg live).sline) ∧
                (live = false → bit (u.decAt b).ctxValid (2 * seg + b2n live) = true) ∧ segPrinted t u b j seg live false ∧
                u.get64 (pDEC b) R.DEC_BYTES_LO R.DEC_BYTES_HI =
                  (s.get64 (pDEC b) R.DEC_BYTES_LO R.DEC_BYTES_HI + raw.length) % 2 ^ 64))) ∧
          (decSound s b → (if live then (t.decAt b).liveLost else (t.decAt b).baseLost) = false →
            ∀ x i, t.stagedRec b j (t.decAt b).m live = some x → x.n ≤ 0x20000 → i < x.n →
            (Memory.get t.lstore (stageAddr (8 + b) (stagePlace live + i))).isSome = true →
            t.lsErr.getD (stageAddr (8 + b) (stagePlace live + i)) 0 = 2 →
            decCounts s u b 1 0 0 1 0 ∧ segFails s t u b j seg live 0x11 5)) ∧
  (∀ (s t : State) (b : Bar), t = s.decSettle b 300 →
    (t.decJob b = none → exec (.ringRelayout b) s = .next t) ∧
    (∀ j, t.decJob b = some j → ((t.decAt b).started = true ∨ (t.decAt b).laid = false ∨ (t.decAt b).dot = j.dot ∨ (t.decAt b).slots ≠ []) →
      exec (.ringRelayout b) s = .next t) ∧
    (∀ j, t.decJob b = some j → (t.decAt b).started = false → (t.decAt b).laid = true → (t.decAt b).dot ≠ j.dot → (t.decAt b).slots = [] →
      ∃ u, exec (.ringRelayout b) s = .next u ∧ s.lsWithin u [(0x300000 * b.val, 0x300000)] ∧ s.recordsOnly u [] ∧
        (s.working (pDEC b) = true → (s.jobAt b).running = true → s.dramReady = true → (u.decAt b).laid = true ∧ (u.decAt b).dot = j.dot)))

/-! ### Line pipelines (R84 to R109) -/

/-- FORCE_KEY marks every context of the encoder and leaves KEY_INT as it reads. PIPE_SWAP_GO arms a swap for its boundary or, with no
table, disarms; a late or reserved one is refused with LATE and cause 5; a follower ignores it and counts it. PIPE_COPY
starts a copy over the union of the tables asked for; one that names no table changes nothing. COPY_END ends it, where one runs:
COPY_BUSY is 0, cause 6 rises, each byte that reads clean stands in the shadow copy, an uncorrectable one as 0x00, the held writes
follow, and no other byte of memory changes (R72, R82, R104 to R106, R236).
The model's own choices in it: log 107. -/
def Obligations.PipeCommandsTakeEffect : Prop :=
  (∀ (s : State) (b : Bar), s.accepts (pENC b) 0x40 (256 * s.get (pENC b) R.ENC_CTRL_KEY_INT + 1) →
    s.get (pENC b) R.ENC_CTRL_KEY_INT < 256 →
    ∃ t, exec (.forceKey b) s = .next t ∧ t.encAt b = { s.encAt b with forceKey := 0xFFFFFFFF } ∧
      (∀ m, m ≠ b.val → t.encAt m = s.encAt m) ∧ s.regsBut t [] ∧ ({ t with regs := s.regs, enc := s.enc } : State) = s) ∧
  (∀ (s : State) (b : Bar) (whn : BitVec 2) (tables : BitVec 3), s.accepts (pPIPE b) 0x4C (2 ^ 31 + 16 * whn.toNat + tables.toNat) →
    (s.follows = true → ∃ t, exec (.pipeSwapGo b whn tables) s = .next t ∧
      t.get pPAIR R.PAIR_IGN_CNT = min (s.get pPAIR R.PAIR_IGN_CNT + 1) (2 ^ R.PAIR_IGN_CNT.w - 1) ∧
      s.regsBut t [(pPAIR, R.PAIR_IGN_CNT)] ∧
      ({ t with regs := s.regs } : State) = s) ∧
    (s.follows = false → ∃ t, exec (.pipeSwapGo b whn tables) s = .next t ∧
      t.get (pPIPE b) R.PIPE_SWAP_WHEN = whn.toNat ∧ t.get (pPIPE b) R.PIPE_SWAP_TABLES = tables.toNat ∧
      (if whn.toNat = 3 ∨ (tables.toNat ≠ 0 ∧ whn.toNat = 1 ∧
          (diff32 (s.get (pPIPE b) R.PIPE_SWAP_LINE) (s.get (pLINE b) R.LINE_SEQ) ≤ 0 ∨
            (s.leads = true ∧ diff32 (s.get (pPIPE b) R.PIPE_SWAP_LINE) (s.safeLine b) < 0))) then
        t.get (pPIPE b) R.PIPE_TSTAT_LATE = 1 ∧ bit (t.get (pPIPE b) R.PG_IRQ_RAW) 5 = true ∧ t.pipe = s.pipe ∧
          t.get (pPIPE b) R.PIPE_TSTAT_ARMED = s.get (pPIPE b) R.PIPE_TSTAT_ARMED
      else if tables.toNat = 0 then
        t.get (pPIPE b) R.PIPE_TSTAT_LATE = 0 ∧ t.get (pPIPE b) R.PIPE_TSTAT_ARMED = 0 ∧
          t.pipeAt b = { s.pipeAt b with armed := none }
      else
        t.get (pPIPE b) R.PIPE_TSTAT_LATE = 0 ∧ t.get (pPIPE b) R.PIPE_TSTAT_ARMED = 1 ∧ t.pipeAt b = { s.pipeAt b with
          armed := some { whn := whn.toNat, tables := tables.toNat, line := s.get (pPIPE b) R.PIPE_SWAP_LINE } }) ∧
      (∀ m, m ≠ b.val → t.pipeAt m = s.pipeAt m) ∧
      (s.leads = false → s.regsBut t [(pPIPE b, R.PIPE_SWAP_WHEN), (pPIPE b, R.PIPE_SWAP_TABLES), (pPIPE b, R.PIPE_TSTAT_LATE),
          (pPIPE b, R.PIPE_TSTAT_ARMED), (pPIPE b, R.PG_IRQ_RAW)] ∧
        ({ t with regs := s.regs, pipe := s.pipe, host := s.host } : State) = s))) ∧
  (∀ (s : State) (b : Bar) (tables : BitVec 3), s.accepts (pPIPE b) 0x54 tables.toNat →
    (tables.toNat = 0 → exec (.pipeCopy b tables) s = .next s) ∧
    (tables.toNat ≠ 0 → ∃ t, exec (.pipeCopy b tables) s = .next t ∧ t.get (pPIPE b) R.PIPE_TSTAT_COPY_BUSY = 1 ∧
      t.pipeAt b = { s.pipeAt b with copy := some ((((s.pipeAt b).copy.map (·.1)).getD 0) ||| tables.toNat, s.tick) } ∧
      (∀ m, m ≠ b.val → t.pipeAt m = s.pipeAt m) ∧ s.regsBut t [(pPIPE b, R.PIPE_TSTAT_COPY_BUSY)] ∧
      ({ t with regs := s.regs, pipe := s.pipe } : State) = s)) ∧
  (∀ (s : State) (b : Bar), (s.pipeAt b).copy = none → exec (.copyEnd b) s = .next s) ∧
  (∀ (s : State) (b : Bar) (tables at_ : Nat), (s.pipeAt b).copy = some (tables, at_) →
    ∃ t, exec (.copyEnd b) s = .next t ∧ t.get (pPIPE b) R.PIPE_TSTAT_COPY_BUSY = 0 ∧
      t.pipeAt b = { s.pipeAt b with copy := none, heldWrites := [] } ∧ (∀ m, m ≠ b.val → t.pipeAt m = s.pipeAt m) ∧
      (s.fenced (pPIPE b) = false → bit (t.get (pPIPE b) R.PG_IRQ_RAW) 6 = true) ∧
      ((s.pipeAt b).heldWrites = [] → Memory.wf s.lstore = true → ∀ k < 3, bit tables k = true → ∀ i < tabSize k, ∀ v,
        Memory.get s.lstore (tabAddr k (s.activeCopy b k) b + i) = some v →
        (s.lsErr.getD (tabAddr k (s.activeCopy b k) b + i) 0 = 0 →
          Memory.get t.lstore (tabAddr k (1 - s.activeCopy b k) b + i) = some v) ∧
        (s.lsErr.getD (tabAddr k (s.activeCopy b k) b + i) 0 = 2 →
          Memory.get t.lstore (tabAddr k (1 - s.activeCopy b k) b + i) = some 0)) ∧
      (∀ l w, (s.pipeAt b).heldWrites = l ++ [w] → lsHolds t
        (tabAddr (w.off / 2 ^ 20) (1 - s.activeCopy b (w.off / 2 ^ 20)) b + w.off % 2 ^ 20) (leBytes 4 w.value)) ∧
      (∀ q f, q ≠ pPIPE b → q ≠ pLSTORE → t.get q f = s.get q f) ∧
      s.lsOnly t ((((List.range 3).filter (bit tables ·)).map fun k => (tabAddr k (1 - s.activeCopy b k) b, tabSize k)) ++
        (s.pipeAt b).heldWrites.map fun w =>
          (tabAddr (w.off / 2 ^ 20) (1 - s.activeCopy b (w.off / 2 ^ 20)) b + w.off % 2 ^ 20, 4)))

/-- The bytes that a line is computed from: nozzle words, the threshold row, WAVEMAP, history, and the raw lines of its slot and of the
neighbour slot. -/
structure LineBytes where
  noz : List Byte
  thr : List Byte
  wm : List Byte
  hist : List Byte
  data : List Byte
  near : List Byte
/-- The line store holds these bytes clean, in the copies that the line's boundary put in force (R86, R87, R103). -/
def lineBytes (s : State) (b : Nat) (w : LineWork) (l : LineBytes) : Prop :=
  l.noz.length = 0x60000 ∧ lsHolds s (tabAddr 0 (b2n (bit w.active 0)) b) l.noz ∧
    (w.dot = false → l.thr.length = 1024 ∧ lsHolds s (tabAddr 1 (b2n (bit w.active 1)) b + 1024 * (w.line % 256)) l.thr) ∧
    l.wm.length = 0x100 ∧ lsHolds s (tabAddr 2 (b2n (bit w.active 2)) b) l.wm ∧
    l.hist.length = 0xC000 ∧ lsHolds s (histAddr b) l.hist ∧
    l.data.length = (if w.dot then 24096 else 48192) ∧ lsHolds s (slotAddr b w.dot w.slot) l.data ∧
    ∀ i, w.neigh = some i → l.near.length = l.data.length ∧ lsHolds s (slotAddr b w.dot i) l.near
/-- The word of nozzle n of tile t, and its OFF and NO_RECV bits (R100). -/
def LineBytes.word (l : LineBytes) (t n : Nat) : Nat := leAt l.noz (4 * (6144 * t + n)) 4
def LineBytes.off (l : LineBytes) (t n : Nat) : Bool := bit (l.word t n) 24
def LineBytes.noRecv (l : LineBytes) (t n : Nat) : Bool := bit (l.word t n) 25
/-- A sample of a raw contone line, or a where there is none or its segment line is blank (R88, R89). -/
def sampleOr (l : List Byte) (blank a : Nat) (i : Int) : Nat :=
  if i < 0 ∨ 48191 < i then a else if bit blank (min 15 (i.toNat / 3008)) then a else byteAt l i.toNat
/-- U of data column d, from A, B, C and D (R89). -/
def upscaled (w : LineWork) (l : LineBytes) (d : Nat) : Nat :=
  let i : Int := (d / 2 : Nat)
  let k := if d % 2 = 0 then i - 1 else i + 1
  let a := byteAt l.data (d / 2)
  let other := fun x => if w.neigh.isSome then sampleOr l.near w.neighBlank a x else a
  let b := sampleOr l.data w.blankMask a k
  if w.ups = 1 ∨ (w.ups = 2 ∧ w.fast = true) then 3 * a + b
  else if w.ups = 2 then (9 * a + 3 * b + 3 * other i + other k + 2) / 4
  else 4 * a
/-- The drop level of the dot column of nozzle n of tile t (R88, R90, R93, R94, R179). -/
def dropLevel (w : LineWork) (l : LineBytes) (t n : Nat) : Nat :=
  let d : Int := 6016 * t + n + sgn 6 (field (l.word t 0) 10 6)
  if d < 0 ∨ 96383 < d then 0
  else if bit w.blankMask (min 15 (d.toNat / 6016)) ∨ bit w.clear (min 15 (d.toNat / 6016)) then 0
  else if w.dot then byteAt l.data (d.toNat / 4) / 4 ^ (3 - d.toNat % 4) % 4
  else
    let u := upscaled w l d.toNat
    let above := fun j => decide (min (max ((field (leAt l.thr (4 * ((6016 * t + n) % 256)) 4) (10 * j) 10 : Nat) +
      sgn 10 (field (l.word t n) 0 10)) 0) 1023 < (u : Int))
    if u = 0 then 0 else b2n (above 0) + b2n (above 1) + b2n (above 2)
/-- Tile t + 1, not tile t, prints column j of the zone between them: the ramp, the dither of i and k, and the fallback (R91, R92). -/
def rightPrints (w : LineWork) (l : LineBytes) (t j : Nat) : Bool :=
  let width := min w.stitchWidth 128
  let share := if j < w.stitchStart then 0 else if w.stitchStart + width ≤ j then 256 else 256 * (j - w.stitchStart + 1) / (width + 1)
  let v := w.line % 16
  let u := (j % 16) ^^^ v
  let dither := 128 * b2n (bit u 0) + 64 * b2n (bit v 0) + 32 * b2n (bit u 1) + 16 * b2n (bit v 1) + 8 * b2n (bit u 2) +
    4 * b2n (bit v 2) + 2 * b2n (bit u 3) + b2n (bit v 3)
  if dither < share then !(w.fallback && l.off (t + 1) j && !l.off t (6016 + j))
  else w.fallback && l.off t (6016 + j) && !l.off (t + 1) j
/-- The level of nozzle n of tile t after screening and stitching: 0 where the other tile prints its column. -/
def printedLevel (w : LineWork) (l : LineBytes) (t n : Nat) : Nat :=
  if n < 128 ∧ 1 ≤ t ∧ rightPrints w l (t - 1) n = false then 0
  else if 6016 ≤ n ∧ t ≤ 14 ∧ rightPrints w l t (n - 6016) = true then 0
  else dropLevel w l t n
/-- The level that the OFF nozzle f moves to nozzle n of its tile, in mode 1 or 2 or on lines of a parity in mode 3 (R95). -/
def movedLevel (w : LineWork) (l : LineBytes) (t f n mode parity : Nat) : Nat :=
  if w.subEn = true ∧ l.off t f = true ∧ l.noRecv t n = false ∧ (field (l.word t f) 20 2 = mode ∨
    (field (l.word t f) 20 2 = 3 ∧ w.line % 2 = parity)) then printedLevel w l t f else 0
/-- The code of nozzle n of tile t on a line that is neither idle, blank nor held (R95, R96, R98, R99). -/
def lineCode (w : LineWork) (l : LineBytes) (t n : Nat) : Nat :=
  let own := if l.off t n then 0 else min 3 (printedLevel w l t n + (if n = 0 then 0 else movedLevel w l t (n - 1) n 2 1) +
    (if n = 6143 then 0 else movedLevel w l t (n + 1) n 1 0))
  let lev := min (min own (if bit w.caps t then 2 else 3)) w.lvlCap
  let v := (min (max ((w.baseV : Int) + sgn 4 (field (l.word t n) 16 4)) 0) 3).toNat
  let nib := if (6144 * t + n) % 2 = 0 then byteAt l.hist ((6144 * t + n) / 2) % 16 else byteAt l.hist ((6144 * t + n) / 2) / 16
  let h := if w.histEn then b2n (bit nib 0) + b2n (bit nib 1) + b2n (bit nib 2) else 0
  if lev = 0 then 0 else leAt l.wm (0x40 * v + 0x10 * lev + 4 * h) 4 % 8

/-- HAND_OVER. With no line in computation nothing changes; a pipeline that does not work drops its line; a fence that waited for the
line and finds LINE stopped comes then. Else each
of the sixteen channels of the bar gets one tile-line with the settings of the line's own boundary: CAP as in force then, every code 0
where the line is idle, blank or held, and on any other line, where every byte that it is computed from reads clean, the code of the
rules of upscaling, shift, stitching, screening, substitution, caps, history and WAVEMAP; the history takes each nozzle's code as one
more bit where it reads clean; and memory changes only in the bar's history, its ring, its slice of coverage and the job records (R17,
R85, R88 to R99, R103, R108, R113, R267).
The model's own choices in it: logs 32, 94, 106, 128. -/
def Obligations.LinesAreHandedOver : Prop :=
  ∀ (s : State) (b : Bar),
    ((s.pipeAt b).work = none → (s.pipeAt b).fenceDue = none ∨ s.lineRuns b = true → exec (.handOver b) s = .next s) ∧
    (∀ r, (s.pipeAt b).fenceDue = some r → s.lineRuns b = false → s.fenced (pPIPE b) = false →
      ∃ t, exec (.handOver b) s = .next t ∧ t.fenced (pPIPE b) = true ∧ (t.pipeAt b).work = none ∧ (t.pipeAt b).fenceDue = none) ∧
    ∀ w : LineWork, (s.pipeAt b).work = some w →
      (s.working (pPIPE b) = false → (s.pipeAt b).fenceDue = none ∨ s.lineRuns b = true →
        exec (.handOver b) s = .next (s.updPipe b fun x => { x with work := none })) ∧
      (s.working (pPIPE b) = true → ∃ t, exec (.handOver b) s = .next t ∧ (t.pipeAt b).work = none ∧
        (∀ k < 16, ∃ x, (t.headAt (16 * b.val + k)).queue = (s.headAt (16 * b.val + k)).queue ++ [x] ∧ x.line = w.line ∧ x.q = w.q ∧
          x.blank = w.blank ∧ x.held = w.held ∧ x.cap = bit w.caps k ∧ x.jobStart = w.jobStart ∧
          (x.wset, x.rowbLines, x.rowbFrac) = w.rows.getD k (0, 0, 0) ∧ x.codes.length = 6144 ∧
          (w.idle = true ∨ w.blank = true ∨ w.held = true → x.codes = List.replicate 6144 0) ∧
          (w.idle = false → w.blank = false → w.held = false → Memory.wf s.lstore = true → ∀ l, lineBytes s b w l →
            ∀ n < 6144, x.codes[n]? = some (lineCode w l k n))) ∧
        (∀ l : List Byte, l.length = 0xC000 → Memory.wf s.lstore = true → lsHolds s (histAddr b) l →
          lsHolds t (histAddr b) (histAfter l ((List.range 16).flatMap fun k =>
            (((t.headAt (16 * b.val + k)).queue.getLast?).map (·.codes)).getD []))) ∧
        s.recordsOnly t (burstsOf (s.sliceAddr (s.blockOf w.line).1 b) 48256) ∧
        s.lsWithin t [(histAddr b, 0xC000), (0x300000 * b.val, 0x300000)])

/-- Bar b prints from an image of a profile: its pitch, the pipeline's fields and the settings of its sixteen channels are the image's, in
the applied copies and in the shadows (R205, R206, R213). -/
def profileInForce (t : State) (b : Nat) (l : List Byte) : Prop :=
  (∀ p f v, (p, f, v) ∈ [(pLINE b, R.LINE_PITCH, leAt l (16 + 80 * b) 4), (pPIPE b, R.PIPE_CTRL_UPS, byteAt l (20 + 80 * b) % 4),
      (pPIPE b, R.PIPE_WAVE_BASE_V, byteAt l (20 + 80 * b) / 4 % 4), (pPIPE b, R.PIPE_STITCH_WIDTH, byteAt l (21 + 80 * b)),
      (pPIPE b, R.PIPE_STITCH_START, byteAt l (22 + 80 * b) % 128)] → t.ap p f = v % 2 ^ f.w ∧ t.get p f = v % 2 ^ f.w) ∧
  ∀ k < 16, ∀ f v, (f, v) ∈ [(R.HEAD_CTRL, byteAt l (32 + 80 * b + 4 * k)), (R.HEAD_ROWB_LINES, byteAt l (33 + 80 * b + 4 * k) % 16),
      (R.HEAD_ROWB_FRAC, byteAt l (34 + 80 * b + 4 * k))] →
    t.ap (pHEAD (16 * b + k)) f = v % 2 ^ f.w ∧ t.get (pHEAD (16 * b + k)) f = v % 2 ^ f.w
/-- The TEMPs that channel h applies at the boundary of line ℓ, in order (R129; log 109). -/
def tempsDue (s : State) (h line : Nat) : List Int :=
  (((s.headAt h).temps.filter fun e => decide (0 ≤ diff32 line (e.1 + 3))).map (·.2)) ++ (s.headAt h).unsol

/-- LINE_BOUNDARY. A line that is not to issue changes nothing. One that is to issue: LINE_SEQ counts it, LINE_PERIOD takes the ticks since
the line before, NEXT moves on by the pitch in force and by an adjustment that is due, which disarms with cause 4; a line issued after
the tick at which it fell due counts in LINE_OVSP_CNT with cause 3; what was handed over leaves the channels' queues, and a line that the
pipeline takes is this one. On each page of the bar that works, a generation committed at an earlier tick applies; an armed swap whose
boundary it is exchanges the tables with cause 4; at a job boundary line the descriptor's profile applies, and CUR's after it; each
channel applies the TEMPs that are due, which set HOT and the cap, and a working channel with one at T_limit fences with 0x51 from this
line on. Memory changes only in the bar's history, its ring, its slice of coverage and the job-record ring (R43, R85,
R104, R118, R129 to R131, R150, R151, R153, R154, R185, R208, R210, R212).
The model's own choices in it: logs 2, 26, 34, 108, 109. -/
def Obligations.LineBoundariesIssueLines : Prop :=
  ∀ (s : State) (b : Bar) (holdN : Bool),
    (s.lineReadyToIssue b = false → exec (.lineBoundary b holdN) s = .next s) ∧
    (s.lineReadyToIssue b = true →
      ∃ t, exec (.lineBoundary b holdN) s = .next t ∧
        t.get (pLINE b) R.LINE_SEQ = (s.get (pLINE b) R.LINE_SEQ + 1) % 2 ^ 32 ∧
        (∀ x, (s.lineAt b).lastTick = some x → t.get (pLINE b) R.LINE_PERIOD = min (2 ^ 32 - 1) (s.tick - x)) ∧
        (t.lineAt b).lastTick = some s.tick ∧
        t.lineNext b = sgn 64 (uns 64 (s.lineNext b + max (2 ^ 24) (t.ap (pLINE b) R.LINE_PITCH) +
          (match (s.lineAt b).adj with
            | some (a, w, x) => if w = 0 ∨ x = (s.get (pLINE b) R.LINE_SEQ + 1) % 2 ^ 32 then a * 2 ^ 8 else 0
            | none => 0))) ∧
        (∀ a w x, (s.lineAt b).adj = some (a, w, x) → w = 0 ∨ x = (s.get (pLINE b) R.LINE_SEQ + 1) % 2 ^ 32 →
          (t.lineAt b).adj = none ∧ t.get (pLINE b) R.LINE_ADJ_CTRL_ARMED = 0 ∧ bit (t.get (pLINE b) R.PG_IRQ_RAW) 4 = true) ∧
        ((s.lineAt b).tDue < s.tick → bit (t.get (pLINE b) R.PG_IRQ_RAW) 3 = true ∧
          t.get (pLINE b) R.LINE_OVSP_CNT = min (s.get (pLINE b) R.LINE_OVSP_CNT + 1) (2 ^ R.LINE_OVSP_CNT.w - 1)) ∧
        (∀ k < 16, (t.headAt (16 * b.val + k)).queue = []) ∧
        (∀ w, (t.pipeAt b).work = some w → w.line = (s.get (pLINE b) R.LINE_SEQ + 1) % 2 ^ 32) ∧
        (∀ p ∈ linePages b, s.working p = true → t.fenced p = false → s.commits.has p = true → (s.commits.getD p {}).plain = true →
          (s.commits.getD p {}).at_ < s.tick →
          (∀ id ∈ (blkAt p).rwsIds true false, t.appl.find (p, id) = s.pendv.find (p, id)) ∧
          ((s.commits.getD p {}).hold = false → t.get p R.PG_GEN_APPL_GEN = s.get p R.PG_GEN_PEND_GEN % 2 ^ R.PG_GEN_APPL_GEN.w ∧
            t.get p R.PG_GEN_PENDING = 0 ∧ bit (t.get p R.PG_IRQ_RAW) 2 = true)) ∧
        (∀ a, (s.pipeAt b).armed = some a → s.resetting (pPIPE b) = false → t.fenced (pPIPE b) = false → (s.pipeAt b).copy = none →
          ((a.whn = 0 ∨ (a.whn = 1 ∧ a.line = (s.get (pLINE b) R.LINE_SEQ + 1) % 2 ^ 32) ∨ (a.whn = 2 ∧
              ∃ j q, s.jobOfLine b ((s.get (pLINE b) R.LINE_SEQ + 1) % 2 ^ 32) = some (j, q) ∧ isBoundary j q = true)) →
            t.get (pPIPE b) R.PIPE_TSTAT_ACTIVE = (s.get (pPIPE b) R.PIPE_TSTAT_ACTIVE ^^^ a.tables) % 2 ^ R.PIPE_TSTAT_ACTIVE.w ∧
            t.get (pPIPE b) R.PIPE_TSTAT_ARMED = 0 ∧ (t.pipeAt b).armed = none ∧ bit (t.get (pPIPE b) R.PG_IRQ_RAW) 4 = true) ∧
          (a.whn = 1 → a.line ≠ (s.get (pLINE b) R.LINE_SEQ + 1) % 2 ^ 32 →
            t.get (pPIPE b) R.PIPE_TSTAT_ACTIVE = s.get (pPIPE b) R.PIPE_TSTAT_ACTIVE ∧ (t.pipeAt b).armed = some a)) ∧
        (∀ j q, s.jobOfLine b ((s.get (pLINE b) R.LINE_SEQ + 1) % 2 ^ 32) = some (j, q) → isBoundary j q = true →
          (∀ p ∈ profPages b, s.commits.has p = false) → s.prof.next = none →
          (j.profEn = true → s.slotUsable j.prof = true → bit (byteAt (s.prof.images.getD j.prof []) 2) b = true →
            s.prof.cur = none → profileInForce t b (s.prof.images.getD j.prof [])) ∧
          (∀ c, s.prof.cur = some c → bit c.done b = false → 0 ≤ diff32 ((s.get (pLINE b) R.LINE_SEQ + 1) % 2 ^ 32) c.line →
            bit (byteAt c.image 2) b = true → profileInForce t b c.image)) ∧
        (∀ k < 16, ∀ l v, s.enabled (pHEAD (16 * b + k)) = true → s.resetting (pHEAD (16 * b + k)) = false →
          tempsDue s (16 * b + k) ((s.get (pLINE b) R.LINE_SEQ + 1) % 2 ^ 32) = l ++ [v] →
          (t.headAt (16 * b + k)).applied = some v ∧
          t.flag (pHEAD (16 * b + k)) R.HEAD_STAT_HOT = decide (sgn 16 (s.get pHEADC R.HEADC_TEMP_LIMIT) ≤ v) ∧
          (sgn 16 (s.get pHEADC R.HEADC_TEMP_WARN) ≤ v → t.flag (pHEAD (16 * b + k)) R.HEAD_STAT_CAP = true) ∧
          (v < sgn 16 (s.get pHEADC R.HEADC_TEMP_WARN) - (s.get pHEADC R.HEADC_THYST : Nat) →
            v < sgn 16 (s.get pHEADC R.HEADC_TEMP_WARN) → t.flag (pHEAD (16 * b + k)) R.HEAD_STAT_CAP = false) ∧
          ((∃ u ∈ l ++ [v], sgn 16 (s.get pHEADC R.HEADC_TEMP_LIMIT) ≤ u) → s.fenced (pHEAD (16 * b + k)) = false →
            s.srstBusy (pHEAD (16 * b + k)) = false → (s.headAt (16 * b + k)).fenceDue = none → s.fenced (pLANE (16 * b + k)) = false →
            t.fenced (pHEAD (16 * b + k)) = true ∧ t.get (pHEAD (16 * b + k)) R.PG_FENCE_REASON = 0x51 ∧
            t.get (pHEAD (16 * b + k)) R.HEAD_FENCE_LINE = (s.get (pLINE b) R.LINE_SEQ + 1) % 2 ^ 32)) ∧
        s.recordsOnly t (((s.pipeAt b).work.map fun w => burstsOf (s.sliceAddr (s.blockOf w.line).1 b) 48256).getD []) ∧
        s.lsWithin t [(histAddr b, 0xC000), (0x300000 * b.val, 0x300000)])

/-! ### Head channels (R112 to R124) -/

/-- No fence of channel h waits for its line in flight, or LINE runs, at whose next boundary the fence comes (R17; log 128). -/
def landed (s : State) (h : Nat) : Prop := (s.headAt h).fenceDue = none ∨ s.lineRuns (h / 16) = true
/-- The last frame in flight of channel h is done while LINE does not run: the fence that waited for it comes (R17; log 128). -/
def landsFenced (s t : State) (h : Nat) : Prop :=
  ∀ r, (s.headAt h).fenceDue = some r → s.lineRuns (h / 16) = false → s.fenced (pHEAD h) = false →
    (t.headAt h).ready = [] → (t.headAt h).cur = none →
    t.fenced (pHEAD h) = true ∧ t.get (pHEAD h) R.PG_FENCE_REASON = r % 2 ^ R.PG_FENCE_REASON.w ∧ (t.headAt h).fenceDue = none

/-- FRAME_START, FRAME_END and FIRE_SEND. START of the frame that is ready goes out at its tap, END and the frame 292 taps later, and then
its FIRE at its tap, or late at the tap after END, counted in HEAD_LATE_CNT with cause 6. HEAD_SENT and HEAD_DIGEST take the frame at
END. The frame and the FIRE carry the claim, or level 0 while the boundary cells control the outputs. On a lane whose transmitter does
not run the frame and the FIRE are lost; a FIRE that a lane's fence cut is not sent; before its tap, and with nothing to send, each
changes nothing. A fence that waited for the line in flight comes when it is done (R17, R111 to R118, R328, R341, R401).
The model's own choices in it: logs 2, 8, 9, 128. -/
def Obligations.FramesAndFire : Prop :=
  (∀ (s : State) (h : Head),
    ((s.headAt h).cur ≠ none ∨ (s.headAt h).ready = [] → exec (.frameStart h) s = .next s) ∧
    ∀ (r : Sending) (rest : List Sending), (s.headAt h).cur = none → (s.headAt h).ready = r :: rest →
      (s.tick < s.startTick h r → exec (.frameStart h) s = .next s) ∧
      (s.startTick h r ≤ s.tick → s.laneSends h = false →
        (landed s h ∨ rest ≠ [] → exec (.frameStart h) s = .next (s.updHead h fun x => { x with ready := rest })) ∧
        ∃ t, exec (.frameStart h) s = .next t ∧ (t.headAt h).ready = rest ∧ (t.headAt h).cur = none ∧ landsFenced s t h) ∧
      (s.startTick h r ≤ s.tick → s.laneSends h = true → ∃ t, exec (.frameStart h) s = .next t ∧
        t.headAt h = { s.headAt h with ready := rest, cur := some { r with
          start := s.startTick h r, claim := if s.tapHolds then s.straps.unitId.toNat else r.claim } } ∧
        (∀ m, m ≠ h.val → t.headAt m = s.headAt m) ∧ t.outs = .block h [0x33, 0x01, 0x23, 0x01, 0, 0, 0, 0] :: s.outs ∧
        ({ t with head := s.head, outs := s.outs } : State) = s)) ∧
  (∀ (s : State) (h : Head),
    ((s.headAt h).cur = none → exec (.frameEnd h) s = .next s) ∧
    ∀ c : Sending, (s.headAt h).cur = some c →
      (c.ended = true ∨ s.tick < c.start + 876 → exec (.frameEnd h) s = .next s) ∧
      (c.ended = false → c.start + 876 ≤ s.tick → s.laneSends h = false →
        (landed s h ∨ (s.headAt h).ready ≠ [] → exec (.frameEnd h) s = .next (s.updHead h fun x => { x with cur := none })) ∧
        ∃ t, exec (.frameEnd h) s = .next t ∧ (t.headAt h).cur = none ∧ (t.headAt h).ready = (s.headAt h).ready ∧ landsFenced s t h) ∧
      (c.ended = false → c.start + 876 ≤ s.tick → s.laneSends h = true →
        ∃ t, exec (.frameEnd h) s = .next t ∧ t.get (pHEAD h) R.HEAD_SENT = c.tl.line % 2 ^ 32 ∧
          t.get (pHEAD h) R.HEAD_DIGEST = c.tl.digest (h / 16) (h % 16) % 2 ^ 32 ∧
          t.headAt h = { s.headAt h with cur := some { c with ended := true } } ∧ (∀ m, m ≠ h.val → t.headAt m = s.headAt m) ∧
          t.outs = .block h [0x87, 0, 0, 0, 0, 0, 0, 0] :: .frame h (c.tl.frame (h / 16) (h % 16) c.claim) :: s.outs ∧
          (c.tl.codes.length = 6144 → (c.tl.frame (h / 16) (h % 16) c.claim).length = 2328) ∧
          s.regsBut t [(pHEAD h, R.HEAD_SENT), (pHEAD h, R.HEAD_DIGEST)] ∧
          ({ t with regs := s.regs, head := s.head, outs := s.outs } : State) = s)) ∧
  (∀ (s : State) (h : Head),
    ((s.headAt h).cur = none → exec (.fireSend h) s = .next s) ∧
    ∀ c : Sending, (s.headAt h).cur = some c →
      (c.ended = false → exec (.fireSend h) s = .next s) ∧
      (c.ended = true → c.noFire = true ∨ s.laneSends h = false →
        (landed s h ∨ (s.headAt h).ready ≠ [] → exec (.fireSend h) s = .next (s.updHead h fun x => { x with cur := none })) ∧
        ∃ t, exec (.fireSend h) s = .next t ∧ (t.headAt h).cur = none ∧ (t.headAt h).ready = (s.headAt h).ready ∧
          t.outs = s.outs ∧ landsFenced s t h) ∧
      (c.ended = true → c.noFire = false → s.laneSends h = true → s.tick < max c.fireTick c.endTick → exec (.fireSend h) s = .next s) ∧
      (c.ended = true → c.noFire = false → s.laneSends h = true → max c.fireTick c.endTick ≤ s.tick →
        ∃ t, exec (.fireSend h) s = .next t ∧ landsFenced s t h ∧
          t.outs = .fire h (fireBlock h (if s.tapHolds then s.straps.unitId.toNat else c.claim) c.tl.line) :: s.outs ∧
          (t.headAt h).cur = none ∧ (t.headAt h).ready = (s.headAt h).ready ∧
          (t.headAt h).afterFire = max c.fireTick c.endTick + 3 ∧ (∀ m, m ≠ h.val → t.headAt m = s.headAt m) ∧
          (c.fireTick < c.endTick → bit (t.get (pHEAD h) R.PG_IRQ_RAW) 6 = true ∧
            t.get (pHEAD h) R.HEAD_LATE_CNT = min (s.get (pHEAD h) R.HEAD_LATE_CNT + 1) (2 ^ R.HEAD_LATE_CNT.w - 1)) ∧
          (landed s h ∨ (s.headAt h).ready ≠ [] →
            t.headAt h = { s.headAt h with cur := none, afterFire := max c.fireTick c.endTick + 3 } ∧
            (c.endTick ≤ c.fireTick → s.regsBut t []) ∧
            s.regsBut t [(pHEAD h, R.HEAD_LATE_CNT), (pHEAD h, R.PG_IRQ_RAW)] ∧
            ({ t with regs := s.regs, head := s.head, outs := s.outs, host := s.host } : State) = s)))

/-- TELEMETRY_RECORD and TELEMETRY_TIMEOUT. An intact record that the channel hears is counted, its fields and health words go into the
channel's registers, and its TEMP waits for its boundary; a damaged one is counted with code 0x22 and cause 5 and changes nothing else;
where the channel hears nothing, neither does anything. After 2^TO_EXP taps without one TLM_OK reads 0 and a working channel fences with
0x22, while a line is in flight at its bar's next boundary; the frames in flight stay. A channel whose soft reset waits judges the cause
at its end. Before that, and while the timer stands, the timeout changes nothing (R17, R121, R123, R124, R129, R132, R335, R384).
The model's own choices in it: logs 2, 111, 128, 129. -/
def Obligations.TelemetryIsTaken : Prop :=
  (∀ (s : State) (h : Head) (l : List Byte), s.tlmHears h = false → exec (.telemetryRecord h l) s = .next s) ∧
  (∀ (s : State) (h : Head) (l : List Byte), s.tlmHears h = true → tlmIntact h l = true →
    ∃ t, exec (.telemetryRecord h l) s = .next t ∧ t.get (pHEAD h) R.HEAD_TLM_CNT = (s.get (pHEAD h) R.HEAD_TLM_CNT + 1) % 2 ^ 32 ∧
      t.get (pHEAD h) R.HEAD_TEMP = leAt l 8 2 ∧ t.get (pHEAD h) R.HEAD_TLM_SEQ = leAt l 0 4 ∧
      t.get (pHEAD h) R.HEAD_STAT_ACC_CLAIM = byteAt l 4 ∧ t.get (pHEAD h) R.HEAD_STAT_RFLAGS = byteAt l 5 % 32 ∧
      t.get (pHEAD h) R.HEAD_STAT_SUPPLY = byteAt l 6 % 16 ∧ t.get (pHEAD h) R.HEAD_STAT_TLM_OK = 1 ∧
      (∀ i < 24, t.get (pHEAD h) (R.HEAD_HEALTH.nth 4 (24 * (byteAt l 7 % 8) + i)) = leAt l (16 + 4 * i) 4) ∧
      t.headAt h = { s.headAt h with
        tlmSince := s.tick
        unsol := if bit (byteAt l 5) 1 then (s.headAt h).unsol ++ [sgn 16 (leAt l 8 2)] else (s.headAt h).unsol
        temps := if bit (byteAt l 5) 1 then (s.headAt h).temps
          else ((s.headAt h).temps.filter fun e => e.1 != leAt l 0 4) ++ [(leAt l 0 4, sgn 16 (leAt l 8 2))] } ∧
      (∀ m, m ≠ h.val → t.headAt m = s.headAt m) ∧
      s.regsBut t ([(pHEAD h, R.HEAD_TLM_CNT), (pHEAD h, R.HEAD_TEMP), (pHEAD h, R.HEAD_TLM_SEQ), (pHEAD h, R.HEAD_STAT_ACC_CLAIM),
        (pHEAD h, R.HEAD_STAT_RFLAGS), (pHEAD h, R.HEAD_STAT_SUPPLY), (pHEAD h, R.HEAD_STAT_TLM_OK), (pHEAD h, R.HEAD_HCHG_CNT),
        (pHEAD h, R.PG_IRQ_RAW)] ++ (List.range 24).map fun i => (pHEAD h, R.HEAD_HEALTH.nth 4 (24 * (byteAt l 7 % 8) + i))) ∧
      ({ t with regs := s.regs, head := s.head, host := s.host } : State) = s) ∧
  (∀ (s : State) (h : Head) (l : List Byte), s.tlmHears h = true → tlmIntact h l = false →
    ∃ t, exec (.telemetryRecord h l) s = .next t ∧
      t.get (pHEAD h) R.HEAD_TLM_BAD_CNT = min (s.get (pHEAD h) R.HEAD_TLM_BAD_CNT + 1) (2 ^ R.HEAD_TLM_BAD_CNT.w - 1) ∧
      (s.get (pHEAD h) R.PG_ERR_CNT = 0 → t.get (pHEAD h) R.PG_ERR_INFO_CODE = 0x22) ∧
      bit (t.get (pHEAD h) R.PG_IRQ_RAW) 5 = true ∧ s.regsBut t ((pHEAD h, R.HEAD_TLM_BAD_CNT) :: errFields (pHEAD h)) ∧
      ({ t with regs := s.regs, host := s.host } : State) = s) ∧
  (∀ (s : State) (h : Head),
    (s.enabled (pHEAD h) = false ∨ s.resetting (pHEAD h) = true ∨ (s.headAt h).tlmStop = true ∨ s.tick < (s.headAt h).tlmSince + s.tlmTimeout →
      exec (.telemetryTimeout h) s = .next s) ∧
    (s.enabled (pHEAD h) = true → s.resetting (pHEAD h) = false → (s.headAt h).tlmStop = false →
      (s.headAt h).tlmSince + s.tlmTimeout ≤ s.tick →
      (s.fenced (pHEAD h) = true ∨ (s.headAt h).fenceDue ≠ none →
        exec (.telemetryTimeout h) s = .next (s.set (pHEAD h) R.HEAD_STAT_TLM_OK 0)) ∧
      (s.fenced (pHEAD h) = false → (s.headAt h).fenceDue = none → s.srsts.has (pHEAD h) = true →
        ∃ t, exec (.telemetryTimeout h) s = .next t ∧ t.get (pHEAD h) R.HEAD_STAT_TLM_OK = 0 ∧ t.fenced (pHEAD h) = false ∧
          (t.srsts.getD (pHEAD h) {}).causes = (s.srsts.getD (pHEAD h) {}).causes ++ [0x22]) ∧
      (s.fenced (pHEAD h) = false → (s.headAt h).fenceDue = none → s.srsts.has (pHEAD h) = false →
        ∃ t, exec (.telemetryTimeout h) s = .next t ∧ t.get (pHEAD h) R.HEAD_STAT_TLM_OK = 0 ∧
          (t.headAt h).cur = (s.headAt h).cur ∧ (t.headAt h).ready = (s.headAt h).ready ∧
          (∀ m, m ≠ h.val → t.headAt m = s.headAt m) ∧
          (s.lineRuns (h / 16) = true → s.headFlight h = true →
            t.fenced (pHEAD h) = false ∧ t.headAt h = { s.headAt h with fenceDue := some 0x22 } ∧
            s.regsBut t ((pHEAD h, R.HEAD_STAT_TLM_OK) :: errFields (pHEAD h)) ∧
            ({ t with regs := s.regs, head := s.head, host := s.host } : State) = s) ∧
          (s.lineRuns (h / 16) = false ∨ s.headFlight h = false →
            t.fenced (pHEAD h) = true ∧ t.get (pHEAD h) R.PG_FENCE_REASON = 0x22 ∧ (t.headAt h).lostCode = some 0x22 ∧
            t.get (pHEAD h) R.HEAD_FENCE_LINE = s.firstUnsent (h / 16) % 2 ^ 32 ∧
            (s.straps.pairEn = false →
              s.regsBut t (errFields (pHEAD h) ++ [(pHEAD h, R.HEAD_STAT_TLM_OK), (pHEAD h, R.HEAD_FENCE_LINE),
                (pHEAD h, R.PG_FENCE_FENCED), (pHEAD h, R.PG_FENCE_REASON), (pHEAD h, R.PG_FENCE_COUNT)]) ∧
              ({ t with regs := s.regs, head := s.head, host := s.host, fenceAt := s.fenceAt } : State) = s)))))

/-! ### DMA channels (R160 to R176) -/

/-- The channel fetches the descriptor at a: it waits while DRAM does not serve the read, halts with cause 5 on an address beyond DRAM, an
unreadable descriptor and one that fails its checks, and else works on it from its first byte (R164, R175, R301). -/
def fetches (s t : State) (c : DmaCh) (a : Nat) : Prop :=
  t.dmaCur c = a % 2 ^ 64 ∧ (t.dmaAt c).taken = 0 ∧
    (s.dramReady = true → s.dramSize ≤ a → (t.dmaAt c).st = 3 ∧ bit (t.get (pDMA c) R.PG_IRQ_RAW) 5 = true) ∧
    (s.dramReady = false ∨ (a < s.dramSize ∧ s.chainFree a 32 c = false) →
      (t.dmaAt c).st = 1 ∧ (t.dmaAt c).redo = 1 ∧ (t.dmaAt c).desc = none) ∧
    (s.dramReady = true → a < s.dramSize → s.chainFree a 32 c = true → ∀ l ok, (s.dramRead a 32 1 c).2 = (l, ok) →
      (ok = true → s.descGood l = true → (t.dmaAt c).st = 1 ∧ (t.dmaAt c).desc = some (descOf l)) ∧
      (ok = false ∨ s.descGood l = false → (t.dmaAt c).st = 3 ∧ (t.dmaAt c).desc = none ∧
        bit (t.get (pDMA c) R.PG_IRQ_RAW) 5 = true))

/-- DMA_DB, DESCRIPTOR_COMPLETE, DMA_CMD_RESUME, DMA_CMD_ABORT and COMPLETION_TIMEOUT. A doorbell waits for the BAR2 writes before it. It fetches the descriptor at HEAD on an IDLE
channel, is counted and noted on a running one, reads a PARKED one's control word again, and does nothing in HALTED or where the channel
does not work. A finished descriptor is counted, with cause 3 where it asks for it, and its control word read again: the channel parks
with cause 4 while LAST stands, else it goes to NEXT. A HALTED channel resumes with what it holds, a failed descriptor read again, or is
aborted to IDLE with what it held counted as discarded; in another state neither does anything. A host read that has not been answered
when the completion timeout has run, from 50 µs on, halts its channel and is counted with HOSTIF's cause 5; before that, and with no read
under way, nothing happens (R160, R164, R166, R173 to R176, R187, R344, R361).
The model's own choices in it: logs 2, 74, 88, 131. -/
def Obligations.ChannelCommands : Prop :=
  (∀ (s : State) (c : DmaCh), s.accepts (pDMA c) 0x58 1 → s.bar2Writes = true →
     exec (.dmaDb c) s = .next { s with bells := s.bells ++ [c.val] }) ∧
  (∀ (s : State) (c : DmaCh), s.accepts (pDMA c) 0x58 1 → s.bar2Writes = false →
     (s.dmaOn c = false ∨ (s.dmaAt c).st = 3 → exec (.dmaDb c) s = .next s) ∧
     (s.dmaOn c = true → (s.dmaAt c).st = 0 → ∃ t, exec (.dmaDb c) s = .next t ∧
       fetches s t c (s.get64 (pDMA c) R.DMA_HEAD_LO R.DMA_HEAD_HI) ∧ (∀ m, m ≠ c.val → t.dmaAt m = s.dmaAt m) ∧ s.sameMemory t) ∧
     (s.dmaOn c = true → (s.dmaAt c).st = 1 → ∃ t, exec (.dmaDb c) s = .next t ∧ t.dmaAt c = { s.dmaAt c with dbPend := true } ∧
       t.get (pDMA c) R.DMA_DB_CNT = (s.get (pDMA c) R.DMA_DB_CNT + 1) % 2 ^ 32 ∧ s.regsBut t [(pDMA c, R.DMA_DB_CNT)] ∧
       (∀ m, m ≠ c.val → t.dmaAt m = s.dmaAt m) ∧ ({ t with regs := s.regs, dma := s.dma } : State) = s) ∧
     (s.dmaOn c = true → (s.dmaAt c).st = 2 → ∃ t, exec (.dmaDb c) s = .next t ∧ (∀ m, m ≠ c.val → t.dmaAt m = s.dmaAt m) ∧
       s.sameMemory t ∧
       (s.chainFree (s.dmaCur c) 8 c = false → (t.dmaAt c).st = 2 ∧ (t.dmaAt c).redo = 3) ∧
       ∀ l, s.chainFree (s.dmaCur c) 8 c = true → (s.dramRead (s.dmaCur c) 8 1 c).2 = (l, true) →
         (bit (leNat l) 0 = true → (t.dmaAt c).st = 2 ∧ (t.dmaAt c).redo = 0 ∧ ∀ f, t.get (pDMA c) f = s.get (pDMA c) f) ∧
         (bit (leNat l) 0 = false → t.dmaCur c = field (leNat l) 31 33 * 32 ∧ (t.dmaAt c).taken = 0))) ∧
  (∀ (s : State) (c : DmaCh),
     (s.dmaOn c = false ∨ (s.dmaAt c).st ≠ 1 ∨ (s.dmaAt c).finished = false → exec (.descriptorComplete c) s = .next s) ∧
     (∀ d, s.dmaOn c = true → (s.dmaAt c).st = 1 → (s.dmaAt c).finished = true → (s.dmaAt c).desc = some d →
       ∃ t, exec (.descriptorComplete c) s = .next t ∧
         t.get (pDMA c) R.DMA_DONE_CNT = (s.get (pDMA c) R.DMA_DONE_CNT + 1) % 2 ^ 32 ∧
         (d.irq = true → bit (t.get (pDMA c) R.PG_IRQ_RAW) 3 = true) ∧ (∀ m, m ≠ c.val → t.dmaAt m = s.dmaAt m) ∧ s.sameMemory t ∧
         (s.chainFree (s.dmaCur c) 8 c = false → (t.dmaAt c).st = 1 ∧ (t.dmaAt c).redo = 2 ∧ (t.dmaAt c).desc = none) ∧
         ∀ l, s.chainFree (s.dmaCur c) 8 c = true → (s.dramRead (s.dmaCur c) 8 1 c).2 = (l, true) →
           (bit (leNat l) 0 = true → (t.dmaAt c).st = 2 ∧ t.dmaCur c = s.dmaCur c ∧ bit (t.get (pDMA c) R.PG_IRQ_RAW) 4 = true) ∧
           (bit (leNat l) 0 = false → t.dmaCur c = field (leNat l) 31 33 * 32 ∧ (t.dmaAt c).taken = 0))) ∧
  (∀ (s : State) (c : DmaCh), s.accepts (pDMA c) 0x5C 1 →
     ((s.dmaAt c).st ≠ 3 → exec (.dmaCmdResume c) s = .next s) ∧
     ((s.dmaAt c).st = 3 → ((s.dmaAt c).redo ≠ 1 ∧ (s.dmaAt c).redo ≠ 2) ∨ s.dmaOn c = false ∨ s.dramReady = false →
       exec (.dmaCmdResume c) s = .next (s.updDma c fun d => { d with st := 1 })) ∧
     ((s.dmaAt c).st = 3 → (s.dmaAt c).redo = 1 → s.dmaOn c = true → s.dramReady = true →
       ∃ t, exec (.dmaCmdResume c) s = .next t ∧ fetches s t c (s.dmaCur c) ∧ (∀ m, m ≠ c.val → t.dmaAt m = s.dmaAt m) ∧
         s.sameMemory t)) ∧
  (∀ (s : State) (c : DmaCh), s.accepts (pDMA c) 0x5C 2 →
     ((s.dmaAt c).st ≠ 3 → exec (.dmaCmdAbort c) s = .next s) ∧
     ((s.dmaAt c).st = 3 → ∃ t, exec (.dmaCmdAbort c) s = .next t ∧ t.dmaAt c = {} ∧
       t.get (pDMA c) R.DMA_DISC_CNT = min (s.get (pDMA c) R.DMA_DISC_CNT +
         ((s.dmaAt c).kept.length + (s.dmaAt c).staging.length + (s.dmaAt c).tag.length)) (2 ^ 32 - 1) ∧
       s.regsBut t [(pDMA c, R.DMA_DISC_CNT)] ∧ (∀ m, m ≠ c.val → t.dmaAt m = s.dmaAt m) ∧
       ({ t with regs := s.regs, dma := s.dma } : State) = s)) ∧
  (∀ (s : State) (c : DmaCh),
     ((s.dmaAt c).readAt = none ∨ s.hostOk = false ∨ s.dmaReq c = false ∨
         (∀ d, (s.dmaAt c).desc = some d → d.srcT ≠ 1 ∨ s.burstLen c d = 0) ∨
         (∀ x, (s.dmaAt c).readAt = some x → s.tick < x + s.ctoTicks) →
       exec (.completionTimeout c) s = .next s) ∧
     usTicks 50 ≤ s.ctoTicks ∧
     (∀ d x, (s.dmaAt c).desc = some d → d.srcT = 1 → s.hostOk = true → s.dmaReq c = true → (s.dmaAt c).finished = false →
       s.burstLen c d ≠ 0 → (s.dmaAt c).readAt = some x → x + s.ctoTicks ≤ s.tick →
       ∃ t, exec (.completionTimeout c) s = .next t ∧ t.dmaAt c = { s.dmaAt c with st := 3, redo := 0, readAt := none } ∧
         (∀ m, m ≠ c.val → t.dmaAt m = s.dmaAt m) ∧
         t.get pHOSTIF R.HOSTIF_CTO_CNT = min (s.get pHOSTIF R.HOSTIF_CTO_CNT + 1) (2 ^ 32 - 1) ∧
         (s.fenceSound → bit (t.get pHOSTIF R.PG_IRQ_RAW) 5 = true) ∧ bit (t.get (pDMA c) R.PG_IRQ_RAW) 5 = true ∧
         (s.get (pDMA c) R.PG_ERR_CNT = 0 → t.get (pDMA c) R.PG_ERR_INFO_CODE = 0x60 ∧ t.get (pDMA c) R.PG_ERR_INFO_SRC = 0) ∧
         s.regsBut t ((pHOSTIF, R.HOSTIF_CTO_CNT) :: (pHOSTIF, R.PG_IRQ_RAW) :: errFields (pDMA c)) ∧
         ({ t with regs := s.regs, dma := s.dma, host := s.host } : State) = s))

/-- The encoders' staging buffers (R81). -/
def encStages : List (Nat × Nat) := [(0x3E00000, 0x100000)]

/-- DMA_BURST. A channel without a descriptor, or that is not the one served next, moves nothing. The one that is takes its turn at its
level and moves one burst. Bytes that its source gives and that pass the checks advance the count taken: they leave for host memory with
what staging held, whole, or go to staging and on to the sink's queue, none lost, or are stored in DRAM, where only the bursts of the
bytes still to deliver and of their padding change, whole units of a memory destination byte by byte. A source that fails halts the channel with code
0x60, a destination that cannot be written with 0x61, a bad tag with 0x31, each with cause 5 and storing nothing more (R165 to R172, R175).
The model's own choices in it: logs 10, 88, 89, 102, 113. -/
def Obligations.BurstsMoveBytes : Prop :=
  ∀ (s t : State) (c : DmaCh) (host : HostResp), t = s.dmaGo c →
    ((t.dmaAt c).desc = none ∨ t.dmaGrant ≠ some c.val → exec (.dmaBurst c host) s = .next t) ∧
    ∀ (u0 u v : State) (d : Desc) (n : Nat), (t.dmaAt c).desc = some d → t.dmaGrant = some c.val →
      u0 = ({ t with lastDma := t.lastDma.put (t.dmaLevel c d) c.val } : State).dmaEval c →
      u = (if d.dstT = 2 then u0.deliver c d false false false else u0) → n = u.burstLen c d →
      (n = 0 → ∃ w, exec (.dmaBurst c host) s = .next w ∧ (w.dmaAt c).taken = (u.dmaAt c).taken ∧ (w.dmaAt c).staging = (u.dmaAt c).staging ∧
        w.lastDma = u0.lastDma ∧ s.lsOnly w (if d.dstT = 2 then encStages else [])) ∧
      (n ≠ 0 → ∀ (l : List Byte) (y : DmaSt), u.burstSource c d n host = (v, .ok l) → (d.dstT = 1 → v.hostOk = true) →
        (d.dstT = 0 ∨ d.dstT = 3 → v.dstAddr c d (u.dmaAt c).taken < v.dramSize) → v.tagCheck c d l = some y →
        ∃ w, exec (.dmaBurst c host) s = .next w ∧ (w.dmaAt c).taken = (u.dmaAt c).taken + n ∧ (w.dmaAt c).desc = some d ∧
          (w.dmaAt c).st = (u.dmaAt c).st ∧ w.lastDma = u0.lastDma ∧
          (d.dstT = 1 → s.sameMemory w ∧ (w.dmaAt c).staging = [] ∧
            ∃ o, w.outs = o ++ .hostWrite (v.dstAddr c d ((u.dmaAt c).taken - (u.dmaAt c).staging.length))
              ((u.dmaAt c).staging ++ l ++ zeros (if (w.dmaAt c).lastSeen then (64 - v.dstAddr c d ((u.dmaAt c).taken + n) % 64) % 64 else 0))
                :: s.outs ∧ (d.srcT ≠ 2 → o = [])) ∧
          (d.dstT = 2 → s.lsOnly w encStages ∧
            ((u.dmaAt c).tag = [] ∨ (u.tagged c d = true ∧ (u.dmaAt c).itemLeft = 0) →
              w.sinks.getD (s.dstEp c) [] ++ (w.dmaAt c).staging ++ (w.dmaAt c).tag =
                u.sinks.getD (s.dstEp c) [] ++ (u.dmaAt c).staging ++ (u.dmaAt c).tag ++ l)) ∧
          (d.dstT = 0 ∨ d.dstT = 3 → s.dramStores w (burstsOf
            (v.dstAddr c d ((u.dmaAt c).taken - (u.dmaAt c).staging.length)) ((u.dmaAt c).staging.length + n + 127))) ∧
          (d.dstT = 0 → (u.dmaAt c).staging = [] → ∀ a, a = v.dstAddr c d (u.dmaAt c).taken → a % 64 = 0 → n % 64 = 0 →
            ∀ k < n, Memory.get w.dramMem (v.burstKey (a + 64 * (k / 64)) + k % 64) = l[k]?)) ∧
      (n ≠ 0 → ∀ e, u.burstSource c d n host = (v, .error e) →
        ∃ w, exec (.dmaBurst c host) s = .next w ∧ (w.dmaAt c).st = 3 ∧ (w.dmaAt c).taken = (u.dmaAt c).taken ∧
          (w.dmaAt c).staging = (u.dmaAt c).staging ∧ bit (w.get (pDMA c) R.PG_IRQ_RAW) 5 = true ∧
          (v.get (pDMA c) R.PG_ERR_CNT = 0 → w.get (pDMA c) R.PG_ERR_INFO_CODE = 0x60 ∧ w.get (pDMA c) R.PG_ERR_INFO_SRC = e % 16) ∧
          s.lsOnly w (if d.dstT = 2 then encStages else [])) ∧
      (n ≠ 0 → ∀ l, u.burstSource c d n host = (v, .ok l) →
        (d.dstT = 1 ∧ v.hostOk = false) ∨ ((d.dstT = 0 ∨ d.dstT = 3) ∧ v.dramSize ≤ v.dstAddr c d (u.dmaAt c).taken) →
        ∃ w, exec (.dmaBurst c host) s = .next w ∧ (w.dmaAt c).st = 3 ∧ (w.dmaAt c).taken = (u.dmaAt c).taken ∧
          (w.dmaAt c).staging = (u.dmaAt c).staging ∧ bit (w.get (pDMA c) R.PG_IRQ_RAW) 5 = true ∧
          (v.get (pDMA c) R.PG_ERR_CNT = 0 → w.get (pDMA c) R.PG_ERR_INFO_CODE = 0x61) ∧ s.sameMemory w) ∧
      (n ≠ 0 → ∀ l, u.burstSource c d n host = (v, .ok l) → v.tagCheck c d l = none →
        ∃ w, exec (.dmaBurst c host) s = .next w ∧ (w.dmaAt c).st = 3 ∧ (w.dmaAt c).staging = (u.dmaAt c).staging ∧
          bit (w.get (pDMA c) R.PG_IRQ_RAW) 5 = true ∧ (v.get (pDMA c) R.PG_ERR_CNT = 0 → w.get (pDMA c) R.PG_ERR_INFO_CODE = 0x31) ∧
          s.lsOnly w encStages)

/-! ### Job engines (R172 to R185, R409) -/

/-- JE_EN, DMAC_JDB and JOB_DESCRIPTOR_FETCH. A write of DMAC_CTRL starts and stops the engines by its bits where DMAC works. A doorbell is
noted by each running engine it names; a parked one reads its control word again and stays parked while LAST stands; no other engine and no other decoder is
touched. An engine takes the descriptor that is due once DRAM serves it: it joins the engine's jobs, is passed over where it says
neither its first line nor follows a job, or parks the engine with JERR and cause 8 where it fails its checks; after the last line group
has started it parks while LAST stands; with nothing due only the decoder goes on. They store to the rings of the decoders that go on and
to the job-record ring alone. A doorbell waits for the BAR2 writes before it (R164, R173, R174, R177, R178, R181, R182, R301, R409).
The model's own choices in it: logs 2, 25, 26, 74. -/
def Obligations.JobEngines : Prop :=
  (∀ (s : State) (mask : Byte), s.accepts pDMAC 0x40 mask.toNat → ∃ t, exec (.jeEn mask) s = .next t ∧
    t.get pDMAC R.DMAC_CTRL = mask.toNat ∧ (∀ b < 8, (t.jobAt b).running = (s.working pDMAC && bit mask.toNat b)) ∧
    s.recordsOnly t [] ∧ s.lsWithin t [(0, 0x1800000)]) ∧
  (∀ (s : State) (mask : Byte), s.accepts pDMAC 0x44 mask.toNat → s.bar2Writes = true →
    exec (.dmacJdb mask) s = .next { s with bells := s.bells ++ ((List.range 8).filter (bit mask.toNat ·)).map (64 + ·) }) ∧
  (∀ (s : State) (mask : Byte), s.accepts pDMAC 0x44 mask.toNat → s.bar2Writes = false → ∃ t, exec (.dmacJdb mask) s = .next t ∧
    (∀ b < 8, bit mask.toNat b = true → (s.jobAt b).running = true → (s.jobAt b).parked = false → (t.jobAt b).dbPend = true) ∧
    (∀ b < 8, (s.jobAt b).running = false → t.jobAt b = s.jobAt b) ∧
    (∀ b < 8, bit mask.toNat b = false → t.jobAt b = s.jobAt b ∧ t.decAt b = s.decAt b) ∧
    (∀ (b : Bar) a l, mask.toNat = 2 ^ b.val → (s.jobAt b).running = true → (s.jobAt b).parked = true → (s.jobAt b).next = none →
      (s.jobAt b).tail = some a → (s.jobAt b).failed = false → s.chainFree a 8 0x4C = true → (s.dramRead a 8 3 0x4C).2 = (l, true) →
      bit (leNat l) 0 = true → (t.jobAt b).parked = true ∧ (t.jobAt b).jerr = false ∧ (t.jobAt b).jobs = (s.jobAt b).jobs) ∧
    s.recordsOnly t [] ∧ s.lsWithin t (((List.range 8).filter (bit mask.toNat ·)).map fun b => (0x300000 * b, 0x300000))) ∧
  (∀ (s : State) (b : Bar),
    ((s.jobAt b).running = false ∨ ((s.jobAt b).next = none ∧ ((s.jobAt b).tail = none ∨ ((s.jobAt b).parked = true ∧ (s.jobAt b).redo = false) ∨
        ((s.jobAt b).parked = false ∧ (s.jobAt b).lastGroup = false))) →
      exec (.jobDescriptorFetch b) s = .next ((s.decSettle b 300).panicUpdate b)) ∧
    ((s.jobAt b).running = true → ∃ t, exec (.jobDescriptorFetch b) s = .next t ∧ s.recordsOnly t [] ∧
      s.lsWithin t [(0x300000 * b.val, 0x300000)] ∧
      (∀ a l, (s.jobAt b).next = none → (s.jobAt b).tail = some a → (s.jobAt b).parked = false → (s.jobAt b).lastGroup = true →
        s.chainFree a 8 0x4C = true → (s.dramRead a 8 3 0x4C).2 = (l, true) → bit (leNat l) 0 = true →
        (t.jobAt b).parked = true ∧ (t.jobAt b).jerr = false ∧ (t.jobAt b).jobs = (s.jobAt b).jobs) ∧
      (∀ a, (s.jobAt b).next = some a → s.dramReady = true → s.dramSize ≤ a → (t.jobAt b).parked = true ∧ (t.jobAt b).jerr = true ∧
        (s.fenced pDMAC = false → bit (t.get pDMAC R.PG_IRQ_RAW) 8 = true)) ∧
      (∀ a, (s.jobAt b).next = some a → s.dramReady = false ∨ (a < s.dramSize ∧ s.chainFree a 64 0x4C = false) →
        (t.jobAt b).next = some a ∧ (t.jobAt b).jobs = (s.jobAt b).jobs) ∧
      (∀ (a : Nat) (d : List Byte), (s.jobAt b).next = some a → a < s.dramSize → s.chainFree a 64 0x4C = true →
        (s.dramRead a 64 3 0x4C).2 = (d, true) →
        (s.jobGood d = false → (t.jobAt b).parked = true ∧ (t.jobAt b).jerr = true ∧ (t.jobAt b).tail = some a ∧
          (t.jobAt b).jobs = (s.jobAt b).jobs ∧ (s.fenced pDMAC = false → bit (t.get pDMAC R.PG_IRQ_RAW) 8 = true)) ∧
        (s.jobGood d = true → bit (leAt d 0 8) 19 = false → (s.jobAt b).chainEnd = none →
          (t.jobAt b).jobs = (s.jobAt b).jobs ∧ (t.jobAt b).parked = bit (leAt d 0 8) 0) ∧
        (∀ first, s.jobGood d = true →
          (bit (leAt d 0 8) 19 = true ∧ first = leAt d 24 4 ∧ 0 ≤ diff32 first ((s.jobAt b).chainEnd.getD first)) ∨
            (bit (leAt d 0 8) 19 = false ∧ (s.jobAt b).chainEnd = some first) →
          (t.jobAt b).jobs.length = (s.jobAt b).jobs.length + 1 ∧
          (t.jobAt b).chainEnd = some (jobOf d a first).after ∧ (t.jobAt b).tail = some a ∧ (t.jobAt b).parked = false ∧
          ∃ x, (t.jobAt b).jobs.getLast? = some x ∧ x.addr = a ∧ x.first = first ∧ x.jobId = leAt d 28 4))))

/-! ### Feed ports (R188 to R204) -/

/-- The fields of the counters that a frame may change on a port page. -/
def feedCounters (n : Nat) : List (Nat × Fld) :=
  [(pFEED n, R.FEED_RX_FRM), (pFEED n, R.FEED_RX_BYTES_LO), (pFEED n, R.FEED_RX_BYTES_HI), (pFEED n, R.FEED_PAUSE_RX)]
/-- A drop counter of a feed page has counted one. -/
def dropped (s t : State) (n : Nat) (f : Fld) : Prop := t.get (pFEED n) f = min (s.get (pFEED n) f + 1) (2 ^ f.w - 1)
/-- The message bytes of a frame. -/
def feedBody (l : List Byte) : List Byte := (l.drop 14).take (l.length - 18)
/-- A frame has a length that the port takes and an FCS that matches (R189). -/
def frameGood (s : State) (p : Port) (l : List Byte) : Prop :=
  64 ≤ l.length ∧ l.length ≤ max 1518 (min 9216 (s.get (pFEED p) R.FEED_MAXLEN)) ∧
    crc32 (l.take (l.length - 4)) = leAt l (l.length - 4) 4
/-- A raster record of a message is well formed: its kind and flags, its bar, its lengths and RSEQ of a first one (R194, R198). -/
def rasterGood (s : State) (p : Port) (m : List Byte) : Prop :=
  byteAt m 1 = 0 ∧ byteAt m 5 < 8 ∧ byteAt m 4 / 2 % 8 = (s.portAt (s.feedLead p)).bar ∧
    leAt m 6 2 = rawBytes (bit (byteAt m 4) 0) (byteAt m 4 / 16) ∧ m.length = 20 + (leAt m 6 2 + 3) / 4 * 4 ∧
    (bit (byteAt m 5) 2 = true → leAt m 8 4 = 0)
/-- What RASTER_RECORD does on a leader's group (R194, R197 to R199): a malformed record and one whose check fails are counted on the port
with causes 4 and 3; a well formed one is held where its RSEQ is the expected one, or is in the window and the buffer has room; one
already delivered or held, and one beyond the window, are counted on the leader. -/
def rasterTaken (s t : State) (p : Port) (m : List Byte) : Prop :=
  (¬ rasterGood s p m → dropped s t p R.FEED_DROP_FMT ∧ (s.fenceSound → bit (t.get (pFEED p) R.PG_IRQ_RAW) 4 = true)) ∧
  (rasterGood s p m → crc32 ((m.drop 20).take (leAt m 6 2)) ≠ leAt m 16 4 →
    dropped s t p R.FEED_DROP_CHK ∧ (s.fenceSound → bit (t.get (pFEED p) R.PG_IRQ_RAW) 3 = true)) ∧
  ∀ (n exp : Nat) (live held : Bool), rasterGood s p m → crc32 ((m.drop 20).take (leAt m 6 2)) = leAt m 16 4 →
    n = s.feedLead p → live = bit (byteAt m 5) 0 → exp = (if bit (byteAt m 5) 2 then 0 else s.expOf n live) →
    held = (!bit (byteAt m 5) 2 && ((s.portAt n).stream live).held.any (·.rseq == leAt m 8 4)) →
    (held = false → (diff32 (leAt m 8 4) exp = 0 ∨ (0 < diff32 (leAt m 8 4) exp ∧
        diff32 (leAt m 8 4) exp < max 1 (min 1024 (s.get (pFEED n) R.FEED_WIN)) ∧
        s.feedFill n + m.length + 9216 ≤ s.feedSize n)) →
      ∃ r ∈ ((t.portAt n).stream live).held, r.rseq = leAt m 8 4 ∧ r.sline = leAt m 12 4 ∧ r.live = live ∧
        r.seg.toNat = byteAt m 4 ∧ r.last = bit (byteAt m 5) 1 ∧ r.raw = (m.drop 20).take (leAt m 6 2)) ∧
    (diff32 (leAt m 8 4) exp < 0 ∨ held = true → dropped s t n R.FEED_DROP_DUP ∧ t.expOf n live = s.expOf n live) ∧
    (held = false → (max 1 (min 1024 (s.get (pFEED n) R.FEED_WIN)) : Int) ≤ diff32 (leAt m 8 4) exp →
      dropped s t n R.FEED_DROP_WIN)
/-- The message of R196 that acknowledges a stream's or the control messages' number seq, or reports a failure with a reason. -/
def ackBytes (nak ctrl live : Bool) (bar reason seq sline free : Nat) : List Byte :=
  [if nak then 0x82 else 0x81, 0, 16, 0, BitVec.ofNat 8 ((if ctrl then 16 else 0) + (if live then 8 else 0) + bar), BitVec.ofNat 8 reason] ++
    leBytes 2 free ++ leBytes 4 seq ++ leBytes 4 sline
/-- What JOB_CONTROL does (R195, R200): a message that fits goes with its time into the next place of the control ring, with cause 3 on
FEEDC, and is acknowledged: at once where DRAM serves the write now, else when it is written; without a place it is lost with cause 4; a
longer one is malformed. -/
def controlTaken (s t : State) (p : Port) (m : List Byte) : Prop :=
  ∀ (a size : Nat), size = 2 ^ max 10 (min 24 (s.get pFEEDC R.FEEDC_CRING_CFG_LOG2)) →
    a = s.get64 pFEEDC R.FEEDC_CRING_BASE_LO R.FEEDC_CRING_BASE_HI + s.get pFEEDC R.FEEDC_CRING_WR →
    (1008 < m.length → dropped s t p R.FEED_DROP_FMT ∧ s.sameMemory t) ∧
    (m.length ≤ 1008 → s.flag pFEEDC R.FEEDC_CRING_CFG_EN = true →
      (s.get pFEEDC R.FEEDC_CRING_WR + 1024) % size ≠ s.get pFEEDC R.FEEDC_CRING_RD →
      t.get pFEEDC R.FEEDC_CRING_WR = (s.get pFEEDC R.FEEDC_CRING_WR + 1024) % size ∧
      (s.fenced pFEEDC = false → bit (t.get pFEEDC R.PG_IRQ_RAW) 3 = true) ∧ s.dramStores t (burstsOf a 1024) ∧
      (s.ackDue = [] → s.dramServed 4 a 1024 0x4D = false → t.ackDue = [(a, p.val, leAt m 4 4)] ∧
        ∃ l, l.length = 1024 ∧ t.dramWait = s.dramWait ++ [.write a 0x4D l]) ∧
      (s.ackDue = [] → s.dramServed 4 a 1024 0x4D = true → (∀ r ∈ s.dramWait, r.who ≠ 0x4D) → (s.portAt p).pausedUntil = none →
        t.ackDue = [] ∧ ∃ free o, t.outs = o ++ s.outs ∧ .feed p (t.feedFrame p (ackBytes false true false 0 0 (leAt m 4 4) 0 free)) ∈ o)) ∧
    (m.length ≤ 1008 → s.flag pFEEDC R.FEEDC_CRING_CFG_EN = false ∨
        (s.get pFEEDC R.FEEDC_CRING_WR + 1024) % size = s.get pFEEDC R.FEEDC_CRING_RD →
      t.get pFEEDC R.FEEDC_CRING_LOST = min (s.get pFEEDC R.FEEDC_CRING_LOST + 1) (2 ^ 32 - 1) ∧
      (s.fenced pFEEDC = false → bit (t.get pFEEDC R.PG_IRQ_RAW) 4 = true) ∧ s.sameMemory t)

/-- FEED_FRAME_RECEIVE, PAUSE_RECEIVE, PAUSE_EXPIRY and PAUSE_REPEAT. A port whose lane is not up receives nothing. A frame that fails its
length or FCS, one for another address or of another type, one for a port that is not ready, and one whose header or messages do not fit
are each counted in the drop counter of the reason. A frame of one message is counted, and the message taken: control, raster record, or
counted as malformed; a frame stores to nothing but the control ring. A received PAUSE is counted and holds the port's sending for its
quanta, quanta 0 end it; at its end what waited is sent if the transmitter runs, and not before; while a port's own condition lasts it
sends its PAUSE again every PQ/2 quanta (R189 to R199, R204).
The model's own choices in it: logs 2, 8, 87, 95, 122. -/
def Obligations.FeedFramesAndPauses : Prop :=
  (∀ (s : State) (p : Port) (l : List Byte),
     (s.laneUp (feedLane p) = false → exec (.feedFrameReceive p l) s = .next s) ∧
     (s.laneUp (feedLane p) = true →
       (¬ frameGood s p l → ∃ t, exec (.feedFrameReceive p l) s = .next t ∧ dropped s t p R.FEED_DROP_FCS ∧ s.sameMemory t) ∧
       (frameGood s p l →
         (((beAt l 0 6 ≠ (s.portAt p).mac ∧ ((s.portAt p).mcastEn = false ∨ beAt l 0 6 ≠ (s.portAt p).mcast) ∧
             ¬ (beAt l 0 6 = pauseMac ∧ beAt l 12 2 = 0x8808)) ∨ (beAt l 12 2 ≠ 0x88B5 ∧ beAt l 12 2 ≠ 0x8808)) →
           ∃ t, exec (.feedFrameReceive p l) s = .next t ∧ dropped s t p R.FEED_DROP_ADDR ∧ s.sameMemory t) ∧
         (beAt l 0 6 = pauseMac → beAt l 12 2 = 0x8808 → beAt (feedBody l) 0 2 = 1 →
           ∃ t, exec (.feedFrameReceive p l) s = .next t ∧ t.get (pFEED p) R.FEED_PAUSE_RX = (s.get (pFEED p) R.FEED_PAUSE_RX + 1) % 2 ^ 32 ∧
             (t.portAt p).pausedUntil = (if beAt (feedBody l) 2 2 = 0 then none
               else some (s.tick + quantaTicks (beAt (feedBody l) 2 2))) ∧ s.sameMemory t) ∧
         (beAt l 0 6 = (s.portAt p).mac ∨ ((s.portAt p).mcastEn = true ∧ beAt l 0 6 = (s.portAt p).mcast) → beAt l 12 2 = 0x88B5 →
           (s.feedReady p = false → ∃ t, exec (.feedFrameReceive p l) s = .next t ∧ dropped s t p R.FEED_DROP_NRDY ∧ s.sameMemory t) ∧
           (s.feedReady p = true → feedHeader (feedBody l) = false ∨ feedMessages (byteAt (feedBody l) 1) ((feedBody l).drop 4) = none →
             ∃ t, exec (.feedFrameReceive p l) s = .next t ∧ dropped s t p R.FEED_DROP_FMT ∧ s.sameMemory t) ∧
           (∀ m, s.feedReady p = true → feedHeader (feedBody l) = true →
             feedMessages (byteAt (feedBody l) 1) ((feedBody l).drop 4) = some [m] →
             ∃ t, exec (.feedFrameReceive p l) s = .next t ∧ t.get (pFEED p) R.FEED_RX_FRM = (s.get (pFEED p) R.FEED_RX_FRM + 1) % 2 ^ 32 ∧
               (t.portAt p).lastSrc = beAt l 6 6 ∧ (byteAt m 0 = 2 → controlTaken s t p m) ∧
               (byteAt m 0 ≠ 2 → s.sameMemory t) ∧
               (byteAt m 0 = 1 → s.isLeader (s.feedLead p) = true → rasterTaken s t p m) ∧
               (byteAt m 0 = 1 → s.isLeader (s.feedLead p) = false → dropped s t p R.FEED_DROP_NRDY) ∧
               (byteAt m 0 ≠ 1 → byteAt m 0 ≠ 2 → dropped s t p R.FEED_DROP_FMT)))))) ∧
  (∀ (s : State) (p : Port) (q : BitVec 16),
     (s.laneUp (feedLane p) = false → exec (.pauseReceive p q) s = .next s) ∧
     (s.laneUp (feedLane p) = true → ∃ t, exec (.pauseReceive p q) s = .next t ∧
       t.get (pFEED p) R.FEED_PAUSE_RX = (s.get (pFEED p) R.FEED_PAUSE_RX + 1) % 2 ^ 32 ∧
       t.get (pFEED p) R.FEED_RX_FRM = (s.get (pFEED p) R.FEED_RX_FRM + 1) % 2 ^ 32 ∧
       t.get64 (pFEED p) R.FEED_RX_BYTES_LO R.FEED_RX_BYTES_HI = (s.get64 (pFEED p) R.FEED_RX_BYTES_LO R.FEED_RX_BYTES_HI + 64) % 2 ^ 64 ∧
       t.portAt p = (if q = 0 then { s.portAt p with pausedUntil := none, waiting := [] }
         else { s.portAt p with pausedUntil := some (s.tick + quantaTicks q.toNat) }) ∧
       (∃ o, t.outs = o ++ s.outs ∧ o.length = if q = 0 then (s.portAt p).waiting.length else 0) ∧
       s.regsBut t (feedCounters p) ∧ (∀ m, m ≠ p.val → t.portAt m = s.portAt m) ∧
       ({ t with regs := s.regs, port := s.port, outs := s.outs } : State) = s)) ∧
  (∀ (s : State) (p : Port),
     ((s.portAt p).pausedUntil = none → exec (.pauseExpiry p) s = .next s) ∧
     (∀ u, (s.portAt p).pausedUntil = some u →
       (s.tick < u → exec (.pauseExpiry p) s = .next s) ∧
       (u ≤ s.tick → ∃ t, exec (.pauseExpiry p) s = .next t ∧ t.portAt p = { s.portAt p with pausedUntil := none, waiting := [] } ∧
         (∃ o, t.outs = o ++ s.outs ∧ o.length = if s.feedTx p then (s.portAt p).waiting.length else 0) ∧
         (∀ m, m ≠ p.val → t.portAt m = s.portAt m) ∧ ({ t with port := s.port, outs := s.outs } : State) = s))) ∧
  (∀ (s : State) (p : Port),
     ((s.portAt p).sending = none → exec (.pauseRepeat p) s = .next s) ∧
     (∀ u, (s.portAt p).sending = some u →
       (s.pauseWants p = false ∨ 5 * s.tick < 5 * u + 8 * s.get (pFEED p) R.FEED_FLOW_PQ → exec (.pauseRepeat p) s = .next s) ∧
       (s.pauseWants p = true → 5 * u + 8 * s.get (pFEED p) R.FEED_FLOW_PQ ≤ 5 * s.tick →
         ∃ t, exec (.pauseRepeat p) s = .next t ∧ t.portAt p = { s.portAt p with sending := some s.tick } ∧
           t.get (pFEED p) R.FEED_PAUSE_TX = (s.get (pFEED p) R.FEED_PAUSE_TX + 1) % 2 ^ 32 ∧
           t.outs = .pause p (s.get (pFEED p) R.FEED_FLOW_PQ) :: s.outs ∧ s.regsBut t [(pFEED p, R.FEED_PAUSE_TX)] ∧
           (∀ m, m ≠ p.val → t.portAt m = s.portAt m) ∧
           ({ t with regs := s.regs, port := s.port, outs := s.outs } : State) = s)))

/-- Port q is one of the ready ports of leader p's group, on which its acknowledgements and reports go out (R197, R200). -/
def answers (s : State) (p : Port) (q : Nat) : Prop := q ∈ s.feedGroup p ∧ s.feedReady q = true
/-- A message goes out, once each, on the ready ports of leader p's group that no received pause stops; on the others of them it waits
behind what else waits, in the place of one of its stream (key 0: of none); every port but those and p stands, and nothing else goes out
(R190, R196, R200). -/
def groupSends (s t : State) (p : Port) (key : Nat) (m : List Byte) : Prop :=
  (∃ o, t.outs = o ++ s.outs ∧ (∀ q, answers s p q → (s.portAt q).pausedUntil = none → .feed q (s.feedFrame q m) ∈ o) ∧
    ∀ e ∈ o, ∃ q, answers s p q ∧ (s.portAt q).pausedUntil = none ∧ e = .feed q (s.feedFrame q m)) ∧
  (∀ q, answers s p q → (s.portAt q).pausedUntil ≠ none →
    (t.portAt q).waiting = ((s.portAt q).waiting.filter fun e => key == 0 || e.1 != key) ++ [(key, m)]) ∧
  (∀ q, q ≠ p.val → answers s p q → (s.portAt q).pausedUntil ≠ none →
    t.portAt q = { s.portAt q with waiting := (t.portAt q).waiting }) ∧
  ∀ q, q ≠ p.val → ¬ (answers s p q ∧ (s.portAt q).pausedUntil ≠ none) → t.portAt q = s.portAt q
/-- KiB free in the buffer of leader p, as the messages give it (R196). -/
def freeShown (s : State) (p : Port) : Nat := min 0xFFFF ((s.feedSize p - s.feedFill p) / 1024)

/-- RECORD_DELIVERY, GAP_TIMEOUT and ACK_TIMEOUT. A leader delivers the record that EXP names as one raster item and EXP counts it; a record
that another stream or a later place holds stays, or is dropped only for want of room; without it, and on a port that leads no group,
nothing changes. The delivery that makes up ACK_INT of them sends the acknowledgement of R196 on every ready port of the group. An open
gap past its time is reported on every ready port of the group by a NAK of reason 2 with the record wanted, counted, with cause 5, and
timed afresh; an acknowledgement that is due is sent on each and its count starts again; both wait where a received pause is in force.
Until their time has passed, and with nothing due, neither changes anything. None of them changes a byte of memory (R165, R190, R196 to
R200). The model's own choices in it: logs 2, 8, 87. -/
def Obligations.RecordsAreDelivered : Prop :=
  ∀ (s : State) (p : Port) (live : Bool),
    (s.isLeader p = false ∨ s.nextHeld p live = none → exec (.recordDelivery p live) s = .next s) ∧
    (∀ r, s.isLeader p = true → s.nextHeld p live = some r → ∃ t, exec (.recordDelivery p live) s = .next t ∧
      t.queues.getD (p + 1) [] = s.queues.getD (p + 1) [] ++ [{ bytes := r.item, last := r.last }] ∧
      t.expOf p live = (s.expOf p live + 1) % 2 ^ 32 ∧ t.expOf p (!live) = s.expOf p (!live) ∧
      t.get (pFEED p) R.FEED_REC_CNT = (s.get (pFEED p) R.FEED_REC_CNT + 1) % 2 ^ 32 ∧
      (∀ k, ∀ e ∈ ((t.portAt p).stream k).held, e ∈ ((s.portAt p).stream k).held) ∧
      (∀ e ∈ ((t.portAt p).stream live).held, e.rseq ≠ r.rseq) ∧ ((t.portAt p).stream live).lastSline = r.sline ∧
      (s.feedFill p + 9216 + 16 ≤ s.feedSize p →
        ((t.portAt p).stream !live).held = ((s.portAt p).stream !live).held ∧
        ((t.portAt p).stream live).held = ((s.portAt p).stream live).held.filter fun e => e.rseq != r.rseq) ∧
      ((t.portAt p).stream live).unack = (if max 1 (s.get (pFEED p) R.FEED_ACK_ACK_INT) ≤ ((s.portAt p).stream live).unack + 1 then 0
        else ((s.portAt p).stream live).unack + 1) ∧
      (max 1 (s.get (pFEED p) R.FEED_ACK_ACK_INT) ≤ ((s.portAt p).stream live).unack + 1 →
        ((t.portAt p).stream live).unackSince = none ∧
        ∃ free o, t.outs = o ++ s.outs ∧ ∀ q, answers s p q → ∀ m,
          m = ackBytes false false live (s.portAt p).bar 0 ((s.expOf p live + 1) % 2 ^ 32) r.sline free →
          ((s.portAt q).pausedUntil = none → .feed q (s.feedFrame q m) ∈ o) ∧
          ((s.portAt q).pausedUntil ≠ none → (1 + b2n live, m) ∈ (t.portAt q).waiting)) ∧
      (∀ q, q ≠ p.val → (t.portAt q).lead = (s.portAt q).lead ∧ (t.portAt q).bar = (s.portAt q).bar ∧
        (t.portAt q).mac = (s.portAt q).mac ∧ (t.portAt q).pausedUntil = (s.portAt q).pausedUntil ∧
        (s.feedFill q + 9216 ≤ s.feedSize q → ∀ k, ((t.portAt q).stream k).held = ((s.portAt q).stream k).held) ∧
        (¬ answers s p q → (t.portAt q).waiting = (s.portAt q).waiting)) ∧
      ({ t with regs := s.regs, port := s.port, queues := s.queues, outs := s.outs, host := s.host } : State) = s) ∧
    (s.isLeader p = false ∨ s.gapOpen p live = false ∨ ((s.portAt p).stream live).gapSince = none ∨
        (∃ u, ((s.portAt p).stream live).gapSince = some u ∧ s.tick ≤ u + usTicks (max 1 (s.get (pFEED p) R.FEED_GAP))) →
      exec (.gapTimeout p live) s = .next s) ∧
    (∀ u, s.isLeader p = true → ((s.portAt p).stream live).gapSince = some u → s.gapOpen p live = true →
      u + usTicks (max 1 (s.get (pFEED p) R.FEED_GAP)) < s.tick → ∃ t, exec (.gapTimeout p live) s = .next t ∧
        groupSends s t p 0 (ackBytes true false live (s.portAt p).bar 2 (s.expOf p live) 0 (freeShown s p)) ∧
        (t.portAt p).stream live = { (s.portAt p).stream live with gapSince := some (s.tick - 1) } ∧
        (t.portAt p).stream (!live) = (s.portAt p).stream (!live) ∧
        (s.fenceSound → bit (t.get (pFEED p) R.PG_IRQ_RAW) 5 = true) ∧
        (∀ q < 24, q ∈ s.feedGroup p → s.feedReady q = true →
          t.get (pFEED q) R.FEED_NAK_CNT = min (s.get (pFEED q) R.FEED_NAK_CNT + 1) (2 ^ R.FEED_NAK_CNT.w - 1)) ∧
        s.regsBut t ((pFEED p, R.PG_IRQ_RAW) :: ((s.feedGroup p).filter s.feedReady).map fun q => (pFEED q, R.FEED_NAK_CNT)) ∧
        ({ t with regs := s.regs, port := s.port, outs := s.outs, host := s.host } : State) = s) ∧
    (s.isLeader p = false ∨ ((s.portAt p).stream live).unackSince = none ∨
        (∃ u, ((s.portAt p).stream live).unackSince = some u ∧ s.tick < u + usTicks (max 1 (s.get (pFEED p) R.FEED_ACK_ACK_TO))) →
      exec (.ackTimeout p live) s = .next s) ∧
    (∀ u, s.isLeader p = true → ((s.portAt p).stream live).unackSince = some u →
      u + usTicks (max 1 (s.get (pFEED p) R.FEED_ACK_ACK_TO)) ≤ s.tick → ∃ t, exec (.ackTimeout p live) s = .next t ∧
        groupSends s t p (1 + b2n live) (ackBytes false false live (s.portAt p).bar 0 (s.expOf p live)
          ((s.portAt p).stream live).lastSline (freeShown s p)) ∧
        (t.portAt p).stream live = { (s.portAt p).stream live with unack := 0, unackSince := none } ∧
        (t.portAt p).stream (!live) = (s.portAt p).stream (!live) ∧ s.regsBut t [] ∧
        ({ t with port := s.port, outs := s.outs } : State) = s)

/-! ### Profiles and pace (R205 to R222) -/

/-- A selection of slot p (R208, R210, R211): refused with code 0xA1 and cause 5 where the store is not loaded or the slot is not usable;
else counted with cause 3 and, where some bar that the image names runs, shown as CUR with its line where none is held or none of CUR's
bars is done, which it replaces, and as NEXT behind a CUR some of whose bars are done; the home unit of a pair sends it on (R214, R236). -/
def selected (s t : State) (p : Nat) : Prop :=
  (s.prof.loaded = false ∨ s.slotUsable p = false →
    t.get pPROF R.PROF_REJ_CNT = min (s.get pPROF R.PROF_REJ_CNT + 1) (2 ^ 32 - 1) ∧
    (s.fenceSound → bit (t.get pPROF R.PG_IRQ_RAW) 5 = true ∧
      (s.get pPROF R.PG_ERR_CNT = 0 → t.get pPROF R.PG_ERR_INFO_CODE = 0xA1)) ∧
    s.regsBut t ((pPROF, R.PROF_REJ_CNT) :: errFields pPROF) ∧ ({ t with regs := s.regs, host := s.host } : State) = s) ∧
  (s.prof.loaded = true → s.slotUsable p = true →
    t.get pPROF R.PROF_SEL_CNT = (s.get pPROF R.PROF_SEL_CNT + 1) % 2 ^ 32 ∧
    (s.fenceSound → bit (t.get pPROF R.PG_IRQ_RAW) 3 = true) ∧
    ((∃ b < 8, bit (byteAt (s.prof.images.getD p []) 2) b = true ∧ s.lineRuns b = true) →
      (s.prof.cur = none → s.prof.next = none →
        t.get pPROF R.PROF_STAT_CVAL = 1 ∧ t.get pPROF R.PROF_STAT_CP = p % 8 ∧ t.get pPROF R.PROF_ARM_LINE = s.armLine) ∧
      (∀ c, s.prof.cur = some c → c.done = 0 → s.prof.next = none →
        t.get pPROF R.PROF_STAT_CVAL = 1 ∧ t.get pPROF R.PROF_STAT_CP = p % 8 ∧ t.get pPROF R.PROF_ARM_LINE = s.armLine ∧
        t.get pPROF R.PROF_REPL_CNT = min (s.get pPROF R.PROF_REPL_CNT + 1) (2 ^ 32 - 1)) ∧
      (∀ c, s.prof.cur = some c → c.done ≠ 0 → c.done ≠ 0xFF →
        t.get pPROF R.PROF_STAT_NVAL = 1 ∧ t.get pPROF R.PROF_STAT_NP = p % 8 ∧ t.get pPROF R.PROF_NEXT_LINE = s.armLine ∧
        t.prof.cur = some c)) ∧
    (s.profLeads = true → s.carries 0x12 = true → t.pair.cmds = s.pair.cmds ++ [⟨s.nextMseq, 0x12,
      [BitVec.ofNat 8 p] ++ zeros 3 ++ leBytes 4 s.armLine ++ ((s.prof.images.getD p []).drop 656).take 4, 1, s.tick⟩]) ∧
    (s.profLeads = false → s.regsBut t [(pPROF, R.PROF_SEL_CNT), (pPROF, R.PROF_REPL_CNT), (pPROF, R.PROF_STAT_CVAL), (pPROF, R.PROF_STAT_CP),
        (pPROF, R.PROF_STAT_DONE), (pPROF, R.PROF_ARM_LINE), (pPROF, R.PROF_STAT_NVAL), (pPROF, R.PROF_STAT_NP),
        (pPROF, R.PROF_NEXT_LINE), (pPROF, R.PROF_BARP_SET), (pPROF, R.PROF_BARP_SLOT), (pPROF, R.PG_IRQ_RAW)] ∧
      ({ t with regs := s.regs, prof := s.prof, host := s.host } : State) = s))

/-- A selection that a unit makes for itself while Crook is up and it is not the home unit is counted and ignored, on PAIR too while the
home unit leads (R214, R236; log 121). -/
def ignored (s t : State) : Prop :=
  t.get pPROF R.PROF_REJ_CNT = min (s.get pPROF R.PROF_REJ_CNT + 1) (2 ^ 32 - 1) ∧
    t.get pPAIR R.PAIR_IGN_CNT = (if s.follows then min (s.get pPAIR R.PAIR_IGN_CNT + 1) (2 ^ R.PAIR_IGN_CNT.w - 1)
      else s.get pPAIR R.PAIR_IGN_CNT)

/-- PROFSTB, PROF_CMD_GO, PROF_CMD_RELOAD and RELOAD_END. A strobe edge that the filter takes, with EN and outside a reset, and GO of
PROF_CMD, each select their slot; while Crook is up the partner's own is only counted; a strobe in reset or closer than the filter allows changes nothing, and
without EN it is only timed. A reload waits its turn, clearing VALID of its slot when it starts, and BUSY shows that one runs; at its end the slot holds its image if
it is valid, else code 0xA1 is recorded, and a slot asked for with GO is selected; with none running, or none that has the flash, nothing
changes (R207 to R211, R214, R377).
The model's own choices in it: logs 2, 33, 91, 121, 123. -/
def Obligations.ProfileSelections : Prop :=
  (∀ (s u : State) (p : BitVec 3), u = { s with prof := { s.prof with stbAt := some s.tick } } →
    (s.inReset = true ∨ s.stbFree = false → exec (.profstb p) s = .next s) ∧
    (s.inReset = false → s.stbFree = true →
      (s.resetting pPROF = true ∨ s.flag pPROF R.PROF_CTRL = false → exec (.profstb p) s = .next u) ∧
      (s.resetting pPROF = false → s.flag pPROF R.PROF_CTRL = true → s.profFollows = true →
        ∃ t, exec (.profstb p) s = .next t ∧ ignored s t ∧
          s.regsBut t [(pPROF, R.PROF_REJ_CNT), (pPAIR, R.PAIR_IGN_CNT)] ∧ ({ t with regs := s.regs } : State) = u) ∧
      (s.resetting pPROF = false → s.flag pPROF R.PROF_CTRL = true → s.profFollows = false →
        ∃ t, exec (.profstb p) s = .next t ∧ selected u t p.toNat))) ∧
  (∀ (s : State) (p : BitVec 3), s.accepts pPROF 0x44 (2 ^ 31 + p.toNat) →
    (s.profFollows = true → ∃ t, exec (.profCmdGo p false) s = .next t ∧ ignored s t ∧
      s.regsBut t [(pPROF, R.PROF_REJ_CNT), (pPAIR, R.PAIR_IGN_CNT)] ∧ ({ t with regs := s.regs } : State) = s) ∧
    (s.profFollows = false → ∃ t, exec (.profCmdGo p false) s = .next t ∧ selected s t p.toNat)) ∧
  (∀ (s : State) (p : BitVec 3) (go : Bool), s.accepts pPROF 0x44 ((if go then 2 ^ 31 else 0) + 256 + p.toNat) →
    ∃ t, exec (if go then .profCmdGo p true else .profCmdReload p) s = .next t ∧
      t.prof = { s.prof with reloads := s.prof.reloads ++ [(p.toNat, go && !s.profFollows)] } ∧ t.get pPROF R.PROF_VALID_BUSY = b2n s.flashFree ∧
      (s.prof.reloads = [] → s.flashFree = true → t.slotUsable p.toNat = false) ∧
      (go = true → s.profFollows = true → ignored s t) ∧
      s.regsBut t ([(pPROF, R.PROF_VALID_BUSY), (pPROF, R.PROF_VALID_VALID)] ++
        if go && s.profFollows then [(pPROF, R.PROF_REJ_CNT), (pPAIR, R.PAIR_IGN_CNT)] else []) ∧
      ({ t with regs := s.regs, prof := s.prof } : State) = s) ∧
  (∀ s : State, s.prof.reloads = [] ∨ s.flashFree = false → exec .reloadEnd s = .next s) ∧
  (∀ (s : State) (p : Nat) (sel : Bool) (rest : List (Nat × Bool)), p < 8 → s.prof.reloads = (p, sel) :: rest → s.flashFree = true →
    ∃ u t, exec .reloadEnd s = .next t ∧ (sel = false → t = u) ∧ (sel = true → selected u t p) ∧ u.prof.reloads = rest ∧
      ((∀ e ∈ rest, e.1 ≠ p) → u.slotUsable p = imageValid (s.flashBytes (slotFlash p) 660) p) ∧
      (imageValid (s.flashBytes (slotFlash p) 660) p = true → u.prof.images.getD p [] = s.flashBytes (slotFlash p) 660) ∧
      (imageValid (s.flashBytes (slotFlash p) 660) p = false → s.fenceSound → bit (u.get pPROF R.PG_IRQ_RAW) 1 = true ∧
        (s.get pPROF R.PG_ERR_CNT = 0 → u.get pPROF R.PG_ERR_INFO_CODE = 0xA1)) ∧
      u.get pPROF R.PROF_VALID_BUSY = b2n (!rest.isEmpty && u.flashFree) ∧ u.boot = { s.boot with opAfter := s.boot.opAfter - 1 } ∧
      s.regsBut u ([(pPROF, R.PROF_VALID_BUSY), (pPROF, R.PROF_VALID_VALID)] ++ errFields pPROF) ∧
      ({ u with regs := s.regs, prof := s.prof, boot := s.boot, host := s.host } : State) = s)

/-- PWM_PERIOD, UNDERRUN_WARN_EXPIRY and PEER_CEILING_EXPIRY. A PWM period that ends starts the next with the duty of the ceiling in force,
SPD_CEIL released from its start where that is not 0; the underrun warning and the partner's ceiling end when their time has passed;
before their time, with nothing to end, and where the page does not work, these events change nothing (R218 to R220).
The model's own choices in it: logs 2, 8, 90. -/
def Obligations.BreathTimers : Prop :=
  ∀ s : State,
    (s.working pBREATH = true → s.breath.pwmStart + 15625 ≤ s.tick → ∃ t, exec .pwmPeriod s = .next t ∧
      t.get pBREATH R.BREATH_PWM = s.pwmH % 2 ^ 14 ∧ t.breath = { s.breath with pwmStart := s.tick } ∧
      (s.inReset = false → t.spdCeil = decide (s.pwmH % 2 ^ 14 ≠ 0)) ∧ s.regsBut t [(pBREATH, R.BREATH_PWM)] ∧
      ({ t with regs := s.regs, breath := s.breath } : State) = s) ∧
    (s.working pBREATH = false ∨ s.tick < s.breath.pwmStart + 15625 → exec .pwmPeriod s = .next s) ∧
    (s.breath.warnUntil = none → exec .underrunWarnExpiry s = .next s) ∧
    (∀ u, s.breath.warnUntil = some u →
      (u ≤ s.tick → exec .underrunWarnExpiry s = .next { s with breath := { s.breath with warnUntil := none } }) ∧
      (s.tick < u → exec .underrunWarnExpiry s = .next s)) ∧
    (s.flag pBREATH R.BREATH_PEER_VALID = true → s.breath.peerUntil ≤ s.tick → ∃ t, exec .peerCeilingExpiry s = .next t ∧
      t.get pBREATH R.BREATH_PEER_VALID = 0 ∧ s.regsBut t [(pBREATH, R.BREATH_PEER_VALID)] ∧ ({ t with regs := s.regs } : State) = s) ∧
    (s.flag pBREATH R.BREATH_PEER_VALID = false ∨ s.tick < s.breath.peerUntil → exec .peerCeilingExpiry s = .next s)

/-! ### The redundant pair (R223 to R250) -/

/-- What a loss of Crook leaves, recorded with a SRC (R229, R231, R245, R248). -/
def crookLost (s t : State) (src : Nat) : Prop :=
  t.crookUp = false ∧ t.get pPAIR R.PAIR_LOSS_CNT = min (s.get pPAIR R.PAIR_LOSS_CNT + 1) (2 ^ R.PAIR_LOSS_CNT.w - 1) ∧
    bit (t.get pPAIR R.PG_IRQ_RAW) 5 = true ∧
    (s.get pPAIR R.PG_ERR_CNT = 0 → t.get pPAIR R.PG_ERR_INFO_CODE = 0x70 ∧ t.get pPAIR R.PG_ERR_INFO_SRC = src) ∧
    t.pairState = (if s.pairState = 3 then 2 else if s.pairState = 6 then 5 else s.pairState) ∧
    t.pair.cmds = s.pair.cmds ∧ t.pair.joined = s.pair.joined ∧ t.pair.own = s.pair.own ∧ t.pair.peer = s.pair.peer ∧
    s.regsBut t ([(pPAIR, R.PAIR_LOSS_CNT), (pPAIR, R.PAIR_STAT_STATE)] ++ errFields pPAIR) ∧
    ({ t with regs := s.regs, pair := s.pair, host := s.host } : State) = s
/-- What entering CLAIM leaves (R245, R250). -/
def claims (s t : State) : Prop :=
  t.pairState = 7 ∧ t.pair.everClaim = true ∧ t.pair.giving = 0 ∧
    (s.pairState ≠ 7 → bit (t.get pPAIR R.PG_IRQ_RAW) 3 = true) ∧
    t.get pPAIR R.PAIR_RET_CNT = (if s.pair.everClaim then min (s.get pPAIR R.PAIR_RET_CNT + 1) (2 ^ R.PAIR_RET_CNT.w - 1)
      else s.get pPAIR R.PAIR_RET_CNT) ∧
    s.regsBut t [(pPAIR, R.PAIR_STAT_STATE), (pPAIR, R.PAIR_RET_CNT), (pPAIR, R.PG_IRQ_RAW)] ∧
    ({ t with regs := s.regs, pair := s.pair, host := s.host } : State) = s
/-- What a give-up decided in CLAIM leaves, with its cause (R243 to R245). -/
def givesUp (s t : State) (c : Nat) : Prop :=
  t.get pPAIR R.PAIR_GIVE_CNT = min (s.get pPAIR R.PAIR_GIVE_CNT + 1) (2 ^ R.PAIR_GIVE_CNT.w - 1) ∧
    t.get pPAIR R.PAIR_LAST_CAUSE = c ∧ bit (t.get pPAIR R.PG_IRQ_RAW) 4 = true ∧
    (s.runningBars = 0 → t.pairState = 4) ∧ (s.runningBars ≠ 0 → t.pairState = 7 ∧ t.pair.giving = s.runningBars)
/-- What a command of the home unit that comes too late leaves: it is counted, with code 0x71 and cause 7, and is cause 8 of a give-up;
LINE, PIPE and the profiles stand (R237, R243). -/
def lateTaken (s t : State) : Prop :=
  t.get pPAIR R.PAIR_LATE_CNT = min (s.get pPAIR R.PAIR_LATE_CNT + 1) (2 ^ R.PAIR_LATE_CNT.w - 1) ∧
    bit (t.get pPAIR R.PG_IRQ_RAW) 7 = true ∧
    (s.get pPAIR R.PG_ERR_CNT = 0 → t.get pPAIR R.PG_ERR_INFO_CODE = 0x71 ∧ t.get pPAIR R.PG_ERR_INFO_SRC = 5) ∧
    (s.pairState = 7 → s.pair.giving = 0 → s.covered = true → givesUp s t 8) ∧
    (s.pairState = 5 ∨ s.pairState = 6 → t.pairState = 5 ∧ t.pair.runs = []) ∧
    (∀ q f, q ≠ pPAIR → t.get q f = s.get q f) ∧
    ({ t with regs := s.regs, pair := s.pair, host := s.host, outs := s.outs } : State) = s

/-- HELLO_SEND, STATE_SEND, TIME_SEND, COMMAND_RESEND and CROOK_DOWN. HELLO, STATE and TIME go out when due on the lanes that hold block
lock, with the next message number, and fall due again 100 µs, 10 µs and 1 ms later; before, and on a unit that takes no part in Crook,
nothing changes. A command not acknowledged for 20 µs goes out again and is counted; after 16 sends Crook is declared down, with SRC 1,
as it is with SRC 0 when no lane or no message is left: the loss is counted with cause 5, JOIN goes back to WAIT and HOLD to MATCH, and
the commands and the joined bars are kept. In every other case neither changes anything (R228 to R231, R248).
The model's own choices in it: logs 2, 8, 9, 22, 92. -/
def Obligations.CrookTimersSend : Prop :=
  ∀ s : State,
    (s.pairOn = false → exec .helloSend s = .next s ∧ exec .stateSend s = .next s ∧ exec .timeSend s = .next s) ∧
    (s.tick < s.pair.helloAt → exec .helloSend s = .next s) ∧ (s.tick < s.pair.stateAt → exec .stateSend s = .next s) ∧
    (s.tick < s.pair.timeAt → exec .timeSend s = .next s) ∧
    (s.pairOn = true → s.pair.helloAt ≤ s.tick → ∃ t, exec .helloSend s = .next t ∧
      t.pair = { s.pair with helloAt := s.tick + usTicks 100, mseq := (s.pair.mseq + 1) % 2 ^ 32 } ∧
      t.outs = (if s.crookLanes = 0 then s.outs else .crook 0x01 (crookBody s ((s.pair.mseq + 1) % 2 ^ 32)
        [1, BitVec.ofNat 8 (1 + 2 * b2n s.straps.home + 16 * s.straps.unitId.toNat), BitVec.ofNat 8 s.pairState]) :: s.outs) ∧
      ({ t with pair := s.pair, outs := s.outs } : State) = s) ∧
    (s.pairOn = true → s.pair.stateAt ≤ s.tick → ∃ t, exec .stateSend s = .next t ∧
      t.pair = { s.ackGap.pair with stateAt := s.tick + usTicks 10, mseq := (s.pair.mseq + 1) % 2 ^ 32 } ∧
      (s.pair.gapSince = none → t.pair.ack = s.pair.ack) ∧
      t.outs = (if s.crookLanes = 0 then s.outs else .crook 0x02 (crookBody s ((s.pair.mseq + 1) % 2 ^ 32)
        ([BitVec.ofNat 8 s.pairState, BitVec.ofNat 8 s.claimLevel, 0, 0] ++ leBytes 4 t.pair.ack ++ s.lineSeqs ++
          leBytes 4 s.causeMask)) :: s.outs) ∧
      ({ t with pair := s.pair, outs := s.outs } : State) = s) ∧
    (s.pairOn = true → s.pair.timeAt ≤ s.tick → ∃ t, exec .timeSend s = .next t ∧
      t.pair = { s.pair with timeAt := s.tick + msTicks 1, mseq := (s.pair.mseq + 1) % 2 ^ 32 } ∧
      t.outs = (if s.crookLanes = 0 then s.outs else .crook 0x03 (crookBody s ((s.pair.mseq + 1) % 2 ^ 32)
        (zeros 8 ++ leBytes 8 s.cNs ++ zeros 16)) :: s.outs) ∧
      ({ t with pair := s.pair, outs := s.outs } : State) = s) ∧
    (∀ m : W32, s.crookUp = false ∨ s.pair.cmds.find? (fun c => c.mseq == m.toNat) = none →
      exec (.commandResend m) s = .next s) ∧
    (∀ (m : W32) (c : PairCmd), s.pair.cmds.find? (fun c => c.mseq == m.toNat) = some c →
      (s.carries c.typ = false ∨ s.tick < c.lastSent + usTicks 20 → exec (.commandResend m) s = .next s) ∧
      (s.crookUp = true → s.carries c.typ = true → c.lastSent + usTicks 20 ≤ s.tick →
        (c.sends < 16 → ∃ t, exec (.commandResend m) s = .next t ∧
          t.get pPAIR R.PAIR_RETRY_CNT = (s.get pPAIR R.PAIR_RETRY_CNT + 1) % 2 ^ R.PAIR_RETRY_CNT.w ∧
          t.pair = { s.pair with cmds := s.pair.cmds.map fun x =>
            if x.mseq = c.mseq then { x with sends := x.sends + 1, lastSent := s.tick } else x } ∧
          t.outs = (if s.crookLanes = 0 then s.outs else .crook c.typ (crookBody s c.mseq c.body) :: s.outs) ∧
          s.regsBut t [(pPAIR, R.PAIR_RETRY_CNT)] ∧
          ({ t with regs := s.regs, pair := s.pair, outs := s.outs } : State) = s) ∧
        (16 ≤ c.sends → ∃ t, exec (.commandResend m) s = .next t ∧ crookLost s t 1))) ∧
    (s.crookUp = false ∨ (s.crookLanes ≠ 0 ∧ s.tick < s.pair.lastRx + s.pairTmo) → exec .crookDown s = .next s) ∧
    (s.crookUp = true → (s.crookLanes = 0 ∨ s.pair.lastRx + s.pairTmo ≤ s.tick) →
      ∃ t, exec .crookDown s = .next t ∧ crookLost s t 0)

/-- CROOK_MESSAGE_NOT_INTACT, and the receipt of every Crook message (HELLO, STATE, TIME, DIGEST, BREATH, GIVEUP, JOIN, JOINDATA, PROF, SWAP,
ADJ, GAIN, CHAIN, TRIM, CAL, HOLD): one that no working PAIR page hears changes nothing, and a copy of one already taken is counted and
dropped. Receipt notes the number and the time; where Crook was down it is up, with cause 5, and every command that is carried and not
yet acknowledged goes out again and is counted; a number that follows ACK with none outstanding moves ACK. A message that is not intact is
counted where a lane hears it (R228 to R231).
The model's own choices in it: log 2. -/
def Obligations.CrookMessagesAreTakenOnce : Prop :=
  (∀ (s : State) (i : Instr) (hd : CrookHdr), i.crookHead = some hd →
    (s.pairOn = false ∨ s.crookLanes = 0 → exec i s = .next s) ∧
    (s.pairOn = true → s.crookLanes ≠ 0 → s.pair.seen.contains hd.mseq.toNat = true →
      ∃ t, exec i s = .next t ∧ t.get pPAIR R.PAIR_DUP_CNT = (s.get pPAIR R.PAIR_DUP_CNT + 1) % 2 ^ R.PAIR_DUP_CNT.w ∧
        t.pair.lastRx = s.tick ∧ t.pair.up = true ∧ t.pair.seen = s.pair.seen ∧ s.sameMemory t ∧
        (s.pair.up = true → s.regsBut t [(pPAIR, R.PAIR_DUP_CNT)] ∧
          ({ t with regs := s.regs, pair := s.pair } : State) = s))) ∧
  (∀ (s : State) (hd : CrookHdr) (u : State) (n : Nat), s.hears hd → u = s.noted hd →
    n = (if s.pair.up then 0 else (s.pair.cmds.filter fun c => s.carries c.typ).length) →
    u.pair.up = true ∧ u.pair.lastRx = s.tick ∧ u.pair.seen = (hd.mseq.toNat :: s.pair.seen).take 4096 ∧
      u.pair.cmds.map (·.mseq) = s.pair.cmds.map (·.mseq) ∧
      (s.pair.rx = [] → hd.mseq.toNat = (s.pair.ack + 1) % 2 ^ 32 → u.pair.ack = hd.mseq.toNat ∧ u.pair.gapSince = none) ∧
      (s.pair.up = true → ({ u with pair := s.pair } : State) = s) ∧
      (s.pair.up = false → bit (u.get pPAIR R.PG_IRQ_RAW) 5 = true) ∧
      (∃ o, u.outs = o ++ s.outs ∧ o.length = n) ∧
      (0 < n → u.get pPAIR R.PAIR_RETRY_CNT = (s.get pPAIR R.PAIR_RETRY_CNT + n) % 2 ^ R.PAIR_RETRY_CNT.w) ∧
      s.regsBut u [(pPAIR, R.PAIR_RETRY_CNT), (pPAIR, R.PG_IRQ_RAW)] ∧
      ({ u with regs := s.regs, pair := s.pair, outs := s.outs, host := s.host } : State) = s) ∧
  (∀ s : State, (s.pairOn = false ∨ s.crookLanes = 0 → exec .crookMessageNotIntact s = .next s) ∧
    (s.pairOn = true → s.crookLanes ≠ 0 → ∃ t, exec .crookMessageNotIntact s = .next t ∧
      t.get pPAIR R.PAIR_BAD_CNT = min (s.get pPAIR R.PAIR_BAD_CNT + 1) (2 ^ R.PAIR_BAD_CNT.w - 1) ∧
      s.regsBut t [(pPAIR, R.PAIR_BAD_CNT)] ∧ ({ t with regs := s.regs } : State) = s))

/-- HELLO, STATE, GIVEUP, BREATH and TIME, once heard. HELLO in WAIT takes the home unit to CLAIM, unless the partner claims, and the other to
JOIN; one that does not fit is recorded with code 0x70 and SRC 2; in other states only PEER_UNIT changes. STATE keeps the partner's
state and lines and clears the commands that it acknowledges, and forgets the partner's bars where it does not join or begins to; it takes the home unit of a partner that does not claim to CLAIM, and lets a
reference that waits with bars to join send JOIN. GIVEUP takes the home unit to CLAIM or cancels its own give-up, and leaves the other as it
is. BREATH gives the partner's ceiling, on a BREATH page that takes it. A TIME request is answered; the eighth answer to a partner in
JOIN sends JOIN with T_s 50 µs ahead. A reply gives TOFS and DELAY, and in JOIN is kept as one of the last eight exchanges (R219, R230,
R233, R234, R244, R245).
The model's own choices in it: logs 23, 86, 118. -/
def Obligations.PairMessages : Prop :=
  ∀ (s : State) (hd : CrookHdr) (u : State), s.hears hd → u = s.noted hd →
    (∀ ver pairEn home unit st, ∀ ok : Bool, ok = (pairEn && home != s.straps.home && unit != s.straps.unitId && ver == 1) →
      ∃ t, exec (.hello hd ver pairEn home unit st) s = .next t ∧ t.get pPAIR R.PAIR_STAT_PEER_UNIT = unit.toNat ∧
      (s.pairState ≠ 2 → u.regsBut t [(pPAIR, R.PAIR_STAT_PEER_UNIT)] ∧ ({ t with regs := u.regs } : State) = u) ∧
      (s.pairState = 2 → ok = true → (if s.straps.home = true ∧ st ≠ 7 then t.pairState = 7 ∧ t.pair.everClaim = true
          else t.pairState = 3) ∧ bit (t.get pPAIR R.PG_IRQ_RAW) 3 = true) ∧
      (s.pairState = 2 → ok = false → t.pairState = 2 ∧
        t.get pPAIR R.PG_ERR_CNT = min (s.get pPAIR R.PG_ERR_CNT + 1) (2 ^ R.PG_ERR_CNT.w - 1) ∧
        (s.get pPAIR R.PG_ERR_CNT = 0 → t.get pPAIR R.PG_ERR_INFO_CODE = 0x70 ∧ t.get pPAIR R.PG_ERR_INFO_SRC = 2)) ∧
      u.regsBut t ([(pPAIR, R.PAIR_STAT_PEER_UNIT), (pPAIR, R.PAIR_STAT_STATE), (pPAIR, R.PAIR_RET_CNT)] ++ errFields pPAIR) ∧
      ({ t with regs := u.regs, pair := u.pair, host := u.host } : State) = u) ∧
    (∀ st level ack lines cause, ∃ t, exec (.state hd st level ack lines cause) s = .next t ∧
      t.peerState = st.toNat % 2 ^ R.PAIR_STAT_PEER_STATE.w ∧ t.pair.peerLines = lines.map (·.toNat) ∧
      (∃ l, t.pair.cmds = (u.pair.cmds.filter fun c => decide (0 < diff32 c.mseq ack.toNat)) ++ l) ∧
      (s.straps.home = true ∧ 4 ≤ s.pairState ∧ s.pairState ≤ 6 ∧ st ≠ 7 → t.pairState = 7 ∧ t.pair.everClaim = true ∧
        u.regsBut t [(pPAIR, R.PAIR_STAT_PEER_STATE), (pPAIR, R.PAIR_STAT_STATE), (pPAIR, R.PAIR_RET_CNT), (pPAIR, R.PG_IRQ_RAW)] ∧
        ({ t with regs := u.regs, pair := u.pair, host := u.host } : State) = u) ∧
      (¬ (s.straps.home = true ∧ 4 ≤ s.pairState ∧ s.pairState ≤ 6 ∧ st ≠ 7) →
        u.regsBut t [(pPAIR, R.PAIR_STAT_PEER_STATE)] ∧
        (s.pairState = 7 ∧ s.pair.joinMore = true ∧ 4 ≤ t.peerState ∧ t.peerState ≤ 7 ∧ s.pair.joinTs = none →
          t.pair.joinTs = some ((s.cNs + 50000) % 2 ^ 64) ∧ t.pair.joiner = false ∧ t.pair.latched = false ∧
          t.outs = .crook 0x10 (crookBody u u.nextMseq (leBytes 8 ((s.cNs + 50000) % 2 ^ 64))) :: u.outs ∧
          ({ t with regs := u.regs, pair := u.pair, outs := u.outs } : State) = u) ∧
        (¬ (s.pairState = 7 ∧ s.pair.joinMore = true ∧ 4 ≤ t.peerState ∧ t.peerState ≤ 7 ∧ s.pair.joinTs = none) →
          t.pair = { u.pair with
            peerLines := lines.map (·.toNat)
            cmds := u.pair.cmds.filter fun c => decide (0 < diff32 c.mseq ack.toNat)
            answered := if st = 3 ∧ s.peerState = 3 then s.pair.answered else 0
            peerBars := if st.toNat < 3 ∨ (st = 3 ∧ s.peerState ≠ 3) then 0 else s.pair.peerBars } ∧
          ({ t with regs := u.regs, pair := u.pair } : State) = u))) ∧
    (∀ cause lines,
      (s.straps.home = false ∨ ¬ (4 ≤ s.pairState ∧ s.pairState ≤ 7) → exec (.giveupMessage hd cause lines) s = .next u) ∧
      (s.straps.home = true → s.pairState = 7 → ∃ t, exec (.giveupMessage hd cause lines) s = .next t ∧
        t.pair = { u.pair with giving := 0 } ∧ ({ t with pair := u.pair } : State) = u) ∧
      (s.straps.home = true → 4 ≤ s.pairState → s.pairState ≤ 6 →
        ∃ t, exec (.giveupMessage hd cause lines) s = .next t ∧ claims u t)) ∧
    (∀ target, (s.fenced pBREATH = true ∨ s.resetting pBREATH = true → exec (.breathMessage hd target) s = .next u) ∧
      (s.fenced pBREATH = false → s.resetting pBREATH = false → ∃ t, exec (.breathMessage hd target) s = .next t ∧
        t.get pBREATH R.BREATH_PEER_CEIL = min 120000 target.toNat ∧ t.get pBREATH R.BREATH_PEER_VALID = 1 ∧
        t.breath = { s.breath with peerUntil := s.tick + 4 * max 1563 (s.ap pBREATH R.BREATH_PER) } ∧
        u.regsBut t [(pBREATH, R.BREATH_PEER_CEIL), (pBREATH, R.BREATH_PEER_VALID)] ∧
        ({ t with regs := u.regs, breath := u.breath } : State) = u)) ∧
    (∀ (t1 t2 t3 : W64), ∀ body : List Byte,
      body = crookBody u u.nextMseq ([1] ++ zeros 7 ++ leBytes 8 t1.toNat ++ leBytes 8 s.cNs ++ leBytes 8 s.cNs) →
      ∃ t, exec (.time hd false t1 t2 t3) s = .next t ∧
        (¬ (s.pairState = 7 ∧ s.peerState = 3 ∧ s.pair.joinTs = none ∧ 7 ≤ s.pair.answered) → t.outs = .crook 0x03 body :: u.outs ∧
          t.pair = { u.pair with
            mseq := u.nextMseq
            answered := if s.pairState = 7 ∧ s.peerState = 3 ∧ s.pair.joinTs = none then s.pair.answered + 1 else s.pair.answered }) ∧
        (s.pairState = 7 ∧ s.peerState = 3 ∧ s.pair.joinTs = none ∧ 7 ≤ s.pair.answered →
          t.outs = .crook 0x10 (crookBody u ((u.nextMseq + 1) % 2 ^ 32) (leBytes 8 ((s.cNs + 50000) % 2 ^ 64))) ::
            .crook 0x03 body :: u.outs ∧
          t.pair.joinTs = some ((s.cNs + 50000) % 2 ^ 64) ∧ t.pair.latched = false ∧ t.pair.joiner = false ∧ t.pair.answered = 0 ∧
          t.pair.cmds.map (·.typ) = u.pair.cmds.map (·.typ) ++ [0x10]) ∧
        ({ t with pair := u.pair, outs := u.outs } : State) = u) ∧
    (∀ (t1 t2 t3 : W64) (ofs dly : Int), ofs = Int.fdiv (diff64 t2.toNat t1.toNat + diff64 t3.toNat s.cNs) 2 →
      dly = Int.fdiv (diff64 s.cNs t1.toNat - diff64 t3.toNat t2.toNat) 2 →
      ∃ t, exec (.time hd true t1 t2 t3) s = .next t ∧ t.get64 pPAIR R.PAIR_TOFS_LO R.PAIR_TOFS_HI = uns 64 ofs ∧
        t.get pPAIR R.PAIR_DELAY = uns 16 dly ∧
        t.pair = { u.pair with tofs := if s.pairState = 3 then ((ofs, dly) :: s.pair.tofs).take 8 else s.pair.tofs } ∧
        u.regsBut t [(pPAIR, R.PAIR_TOFS_LO), (pPAIR, R.PAIR_TOFS_HI), (pPAIR, R.PAIR_DELAY)] ∧
        ({ t with regs := u.regs, pair := u.pair } : State) = u)

/-- JOIN, JOIN_LATCH, JOINDATA and JOIN_RETRY. JOIN in the JOIN state, with no join in progress, gives a joiner whose eight exchanges agree T_s
and the reference's tap grid, and fails the join of one whose exchanges do not; in GIVEN, MATCH, HOLD and CLAIM it gives T_s for bars enabled
since, but not to a unit that has itself sent JOIN; else it changes nothing more. At T_s the reference sends JOINDATA with its bars and forgets T_s, and the joiner counts the steps
of every channel from 0; before it, again, or with no T_s nothing happens. JOINDATA of that T_s, with every POS page unfenced, enables each
bar that the reference runs on a LINE page that can take it, at the reference's next line, NEXT, g and FAILOVER, and marks it joined;
a bar that runs already keeps its place. With no bar joined the join is complete: MATCH, or GIVEN while a cause stands. Any other JOINDATA
changes nothing more. A failed join begins again after 1 ms, and not before (R234, R236, R245).
The model's own choices in it: logs 2, 8, 23, 35, 36, 92. -/
def Obligations.JoiningTheReference : Prop :=
  (∀ (s : State) (hd : CrookHdr) (ts : W64) (u : State), s.hears hd → u = s.noted hd →
    (s.pairState = 3 → s.pair.joinTs ≠ none ∨ s.pair.joined ≠ 0 ∨ s.pair.joinFailed ≠ none → exec (.join hd ts) s = .next u) ∧
    (s.pairState = 3 → s.pair.joinTs = none → s.pair.joined = 0 → s.pair.joinFailed = none →
      (s.tofsAgreed = true → ∃ t, exec (.join hd ts) s = .next t ∧ t.pair = { u.pair with
          joinTs := some ts.toNat, joiner := true, latched := false } ∧ t.phi < 3 ∧ ({ t with pair := u.pair, phi := u.phi, fresh := u.fresh } : State) = u) ∧
      (s.tofsAgreed = false → ∃ t, exec (.join hd ts) s = .next t ∧ t.pair = { u.pair with
          joined := 0, joinOk := [], joinTs := none, tofs := [], latched := false, joinFailed := some s.tick } ∧
        ({ t with pair := u.pair } : State) = u)) ∧
    (4 ≤ s.pairState → s.pair.joinTs = none ∨ s.pair.joiner = true → ∃ t, exec (.join hd ts) s = .next t ∧
      t.pair = { u.pair with joinTs := some ts.toNat, joiner := true, latched := false } ∧ ({ t with pair := u.pair } : State) = u) ∧
    (s.pairState < 3 ∨ (4 ≤ s.pairState ∧ s.pair.joinTs ≠ none ∧ s.pair.joiner = false) → exec (.join hd ts) s = .next u)) ∧
  (∀ s : State, (s.pair.joinTs = none ∨ s.crookUp = false ∨ s.pair.latched = true → exec .joinLatch s = .next s) ∧
    (∀ ts, s.pair.joinTs = some ts → s.crookUp = true → s.pair.latched = false →
      (s.pair.joiner = false → diff64 s.cNs ts < 0 → exec .joinLatch s = .next s) ∧
      (s.pair.joiner = false → 0 ≤ diff64 s.cNs ts → ∃ t l, exec .joinLatch s = .next t ∧
        l = leBytes 8 ts ++ (List.range 8).flatMap s.joinBar ∧
        t.pair = { s.pair with
          mseq := s.nextMseq, cmds := s.pair.cmds ++ [⟨s.nextMseq, 0x11, l, 1, s.tick⟩], joinTs := none, joinMore := false } ∧
        t.outs = (if s.crookLanes = 0 then s.outs else .crook 0x11 (crookBody s s.nextMseq l) :: s.outs) ∧
        ({ t with pair := s.pair, outs := s.outs } : State) = s) ∧
      (s.pair.joiner = true → sgn 64 (uns 64 ((s.cNs : Int) + sgn 64 (s.get64 pPAIR R.PAIR_TOFS_LO R.PAIR_TOFS_HI) - ts)) < 0 →
        exec .joinLatch s = .next s) ∧
      (s.pair.joiner = true → 0 ≤ sgn 64 (uns 64 ((s.cNs : Int) + sgn 64 (s.get64 pPAIR R.PAIR_TOFS_LO R.PAIR_TOFS_HI) - ts)) →
        ∃ t, exec .joinLatch s = .next t ∧ t.pair = { s.pair with latched := true } ∧
          (∀ n < 12, t.posAt n = { s.posAt n with joinSteps := 0 }) ∧ (∀ n, 12 ≤ n → t.posAt n = s.posAt n) ∧
          ({ t with pair := s.pair, pos := s.pos } : State) = s))) ∧
  (∀ (s : State) (hd : CrookHdr) (ts : W64) (bars : List JoinBar) (u : State), s.hears hd → u = s.noted hd →
    (s.pair.joinTs ≠ some ts.toNat ∨ s.pair.joiner = false ∨ s.pair.latched = false ∨ s.pairState < 3 →
      exec (.joinData hd ts bars) s = .next u) ∧
    (s.pair.joinTs = some ts.toNat → s.pair.joiner = true → s.pair.latched = true → 3 ≤ s.pairState → bars.length = 8 →
      (∀ n < 12, s.fenced (pPOS n) = false) →
      ∃ t, exec (.joinData hd ts bars) s = .next t ∧ t.pair.joinTs = none ∧ t.pair.latched = false ∧
        (∀ b x, bars[b]? = some x → bit t.pair.peerBars b = x.run ∧
          (x.run = true → s.fenced (pLINE b) = false → s.resetting (pLINE b) = false → bit t.pair.joined b = true ∧
            (s.lineRuns b = false → t.get (pLINE b) R.PG_CTRL_EN = 1 ∧
              t.get (pLINE b) R.LINE_SEQ = (x.next.toNat + 2 ^ 32 - 1) % 2 ^ 32 ∧ t.lineNext b = x.nextPos.toInt ∧
              t.get (pLINE b) R.LINE_GAIN = x.g.toNat ∧ (t.lineAt b).failover = x.failover)) ∧
          (x.run = false ∨ s.fenced (pLINE b) = true ∨ s.resetting (pLINE b) = true ∨ s.lineRuns b = true →
            t.lineAt b = s.lineAt b ∧ ∀ f, t.get (pLINE b) f = s.get (pLINE b) f)) ∧
        t.pairState = (if s.pairState = 3 ∧ t.pair.joined = 0 then (if s.causeMask = 0 then 5 else 4) else s.pairState) ∧
        s.sameMemory t)) ∧
  (∀ s : State, (s.pair.joinFailed = none → exec .joinRetry s = .next s) ∧
    (∀ n, s.pair.joinFailed = some n →
      (s.tick < n + msTicks 1 → exec .joinRetry s = .next s) ∧
      (n + msTicks 1 ≤ s.tick → ∃ t, exec .joinRetry s = .next t ∧ t.pair = { s.pair with joinFailed := none, tofs := [] } ∧
        ({ t with pair := s.pair } : State) = s)))

/-- DIGEST and DIGEST_TIMEOUT. The partner's digest is held until the unit's own of the same bar and line comes. When both are held the skew
shows in PAIR_SKEW_LAST. Outside JOIN, with the skew in order: sixteen equal tiles extend the bar's run in MATCH and HOLD, and a run
long enough takes MATCH to HOLD where AUTORET is set; a tile that differs is counted with its bar, line, tiles and verdict and cause 6,
the run begins again, HOLD goes back to MATCH, and verdict 1 makes a covered claiming unit give up with cause 7. A skew beyond the limit on N
lines in a row takes a unit in GIVEN, MATCH or HOLD back to JOIN, its joined bars disabled. In JOIN a skew in order counts for the joined
bar, 64 of each joined bar complete the join, and one beyond the limit fails it. A digest whose counterpart has not come in time is
counted, with code 0x71 and SRC 7, and the run begins again, whether Crook is up or not; the bar counts no longer as one that runs on the
partner where its STATE shows that it stopped; one of the partner's alone is dropped (R234, R235, R240 to R243, R247).
The model's own choices in it: logs 2, 8, 31, 118, in the clauses of a skew, of the partner's bars and of a timeout that comes late. -/
def Obligations.DigestsAreCompared : Prop :=
  (∀ (s : State) (hd : CrookHdr) (b : Bar) (ok undr segblk : Bool) (line tbnd wsrc : W32) (digs : List W32) (u : State) (q : DigSt),
    s.hears hd → u = s.noted hd →
    q = ⟨b, line.toNat, ok, undr, segblk, tbnd.toNat, wsrc.toNat, digs.map (·.toNat), s.tick⟩ →
    (s.pair.own.find? (fun e => e.bar == b.val && e.line == line.toNat) = none →
      ∃ t, exec (.digest hd b ok undr segblk line tbnd wsrc digs) s = .next t ∧
        t.pair = { u.pair with peer := s.pair.peer ++ [q], peerBars := setBit s.pair.peerBars b true } ∧
        ({ t with pair := u.pair } : State) = u) ∧
    (∀ (d : DigSt) (bad last eq : Prop), s.pair.own.find? (fun e => e.bar == b.val && e.line == line.toNat) = some d →
      (∀ e ∈ s.pair.peer, e.bar ≠ b.val ∨ e.line ≠ line.toNat) →
      (bad ↔ (s.get pPAIR R.PAIR_SKEW_LIM : Int) < s.skew d q ∨ s.skew d q < -(s.get pPAIR R.PAIR_SKEW_LIM : Int)) →
      (last ↔ bad ∧ max 1 (s.get pPAIR R.PAIR_SKEW_N) ≤ s.pair.skewRuns.getD b 0 + 1) →
      (eq ↔ ∀ i < 16, d.digs.getD i 0 = q.digs.getD i 0) →
      ∃ t, exec (.digest hd b ok undr segblk line tbnd wsrc digs) s = .next t ∧
        t.get pPAIR R.PAIR_SKEW_LAST = uns 16 (s.skew d q) ∧ s.sameMemory t ∧
        (∀ e ∈ t.pair.own ++ t.pair.peer, e.bar ≠ b.val ∨ e.line ≠ line.toNat) ∧
        (s.pairState ≠ 3 → ¬ last → eq →
          t.pair.runs.getD b 0 = s.pair.runs.getD b 0 + (if s.pairState = 5 ∨ s.pairState = 6 then 1 else 0) ∧
          t.pairState = (if s.pairState = 5 ∧ max 1 (s.get pPAIR R.PAIR_RUNLEN) ≤ t.pairRun ∧
            s.flag pPAIR R.PAIR_CTRL_AUTORET = true then 6 else s.pairState) ∧
          u.regsBut t [(pPAIR, R.PAIR_SKEW_LAST), (pPAIR, R.PAIR_STAT_STATE), (pPAIR, R.PG_IRQ_RAW)]) ∧
        (s.pairState ≠ 3 → ¬ last → ¬ eq → ∀ v, v = (if d.ok = true ∧ ok = false then 0 else if d.ok = false ∧ ok = true then 1
            else if d.ok = true then (if d.wsrc = wsrc.toNat then 2 else 3) else 4) →
          t.get pPAIR R.PAIR_MIS_CNT = min (s.get pPAIR R.PAIR_MIS_CNT + 1) (2 ^ R.PAIR_MIS_CNT.w - 1) ∧
          t.get pPAIR R.PAIR_MIS_LINE = line.toNat ∧ t.get pPAIR R.PAIR_MIS_INFO_BAR = b ∧ t.get pPAIR R.PAIR_MIS_INFO_VERDICT = v ∧
          (∀ i < 16, bit (t.get pPAIR R.PAIR_MIS_INFO_TILES) i = true ↔ d.digs.getD i 0 ≠ q.digs.getD i 0) ∧
          bit (t.get pPAIR R.PG_IRQ_RAW) 6 = true ∧ t.pair.runs.getD b 0 = 0 ∧
          (v ≠ 1 → t.pairState = if s.pairState = 6 then 5 else s.pairState) ∧
          (v = 1 → s.pairState = 7 → s.pair.giving = 0 → s.peerState = 7 → givesUp u t 7)) ∧
        (4 ≤ s.pairState → s.pairState ≤ 6 → last → eq → t.pairState = 3 ∧ t.pair.joined = 0 ∧
          ∀ i < 8, bit s.pair.joined i = true → t.get (pLINE i) R.PG_CTRL_EN = 0) ∧
        (s.pairState = 3 → bit s.pair.joined b = true → ¬ bad → eq → ∀ full : Prop,
          (full ↔ ∀ i < 8, bit s.pair.joined i = true → 64 ≤ s.pair.joinOk.getD i 0 + (if i = b.val then 1 else 0)) →
          t.pair.joinOk.getD b 0 = s.pair.joinOk.getD b 0 + 1 ∧ (¬ full → t.pairState = 3) ∧
          (full → s.causeMask ≠ 0 → t.pairState = 4) ∧ (full → s.causeMask = 0 → t.pairState = 5 ∨ t.pairState = 6)) ∧
        (s.pairState = 3 → bit s.pair.joined b = true → bad → t.pair.joined = 0 ∧ t.pair.joinFailed = some s.tick))) ∧
  (∀ (s : State) (b : Bar) (line : W32) (f : DigSt → Bool),
    f = (fun d => d.bar == b.val && d.line == line.toNat && decide (d.at_ + s.pairTmo ≤ s.tick)) →
    (s.pair.own.any f = false → ∃ t, exec (.digestTimeout b line) s = .next t ∧
      t.pair = { s.pair with own := s.pair.own.filter (!f ·), peer := s.pair.peer.filter (!f ·) } ∧
      ({ t with pair := s.pair } : State) = s) ∧
    (s.pair.own.any f = true → ∃ t, exec (.digestTimeout b line) s = .next t ∧ t.pair.own = s.pair.own.filter (!f ·) ∧
      t.get pPAIR R.PAIR_MISS_CNT = min (s.get pPAIR R.PAIR_MISS_CNT + 1) (2 ^ R.PAIR_MISS_CNT.w - 1) ∧
      (s.fenced pPAIR = false → s.get pPAIR R.PG_ERR_CNT = 0 →
        t.get pPAIR R.PG_ERR_INFO_CODE = 0x71 ∧ t.get pPAIR R.PG_ERR_INFO_SRC = 7) ∧
      t.pair.runs.getD b 0 = 0 ∧ t.pairState = (if s.pairState = 6 then 5 else s.pairState) ∧
      t.pair.peerBars = (if s.crookUp = true ∧ diff32 (s.peerLine b) line.toNat < 0 then setBit s.pair.peerBars b false else s.pair.peerBars) ∧
      s.regsBut t ([(pPAIR, R.PAIR_MISS_CNT), (pPAIR, R.PAIR_STAT_STATE)] ++ errFields pPAIR) ∧
      ({ t with regs := s.regs, pair := s.pair, host := s.host } : State) = s))

/-- PROF, SWAP, ADJ, GAIN, HOLD and CHAIN, once heard. While either unit reads JOIN the first five, TRIM and CAL do nothing more; the home unit
does nothing more for the first five. On the partner, in time and on a page that takes it: a selection is taken, or refused where the slot is
not usable or its CHECK differs; a swap is armed, or disarmed where it names no table; an adjustment is armed with WHEN 1; a gain and a hold
state are kept for their line. One that is late is counted with code 0x71 and cause 7, is cause 8 of a give-up and takes no effect, but a
late hold state holds from the next line; a swap of WHEN 2 is late where the partner has issued a job boundary line after the line at GO. CHAIN
facts are kept until the unit has its own; then equal ones are dropped, and different ones recorded with SRC 6, the run beginning
again (R214, R234, R236 to R239).
The model's own choices in it: logs 33, 37, 117, 121, 126. -/
def Obligations.HomeUnitCommands : Prop :=
  (∀ (s : State) (hd : CrookHdr) (b : Bar) (line g a : W32) (held : Bool) (tables whn slot : Byte) (go check : W32) (u : State),
    s.hears hd → u = s.noted hd →
    (s.pairState = 3 ∨ s.peerState = 3 ∨ s.straps.home = true → exec (.gain hd b line g) s = .next u ∧
      exec (.adj hd b line a) s = .next u ∧ exec (.hold hd b held line) s = .next u ∧
      exec (.swapMessage hd b tables whn line go) s = .next u ∧ exec (.profMessage hd slot line check) s = .next u) ∧
    (s.pairState = 3 ∨ s.peerState = 3 → ∀ k0 nk arm dot part npart cycle deltas record,
      exec (.trim hd b line k0 nk arm dot part npart cycle deltas) s = .next u ∧ exec (.calMessage hd record) s = .next u)) ∧
  (∀ (s : State) (hd : CrookHdr) (b : Bar) (line : W32) (u : State), s.hearsCmd hd → u = s.noted hd → s.straps.home = false →
    (∀ g a : W32, s.lineLate b line.toNat = true → ∃ t, exec (.gain hd b line g) s = .next t ∧ exec (.adj hd b line a) s = .next t ∧
      lateTaken u t) ∧
    (∀ g : W32, s.lineLate b line.toNat = false → ∃ t, exec (.gain hd b line g) s = .next t ∧
      t.lineAt b = { s.lineAt b with gainAt := (s.lineAt b).gainAt ++ [(line.toNat, g.toInt)] } ∧
      (∀ c, c ≠ b.val → t.lineAt c = s.lineAt c) ∧ ({ t with line := u.line } : State) = u) ∧
    (∀ a : W32, s.lineLate b line.toNat = false →
      (s.blockedPage (pLINE b) = true → exec (.adj hd b line a) s = .next u) ∧
      (s.blockedPage (pLINE b) = false → ∃ t, exec (.adj hd b line a) s = .next t ∧
        t.lineAt b = { s.lineAt b with adj := some (a.toInt, 1, line.toNat) } ∧ t.get (pLINE b) R.LINE_ADJ = a.toNat ∧
        t.get (pLINE b) R.LINE_ADJ_LINE = line.toNat ∧ t.get (pLINE b) R.LINE_ADJ_CTRL_WHEN = 1 ∧
        t.get (pLINE b) R.LINE_ADJ_CTRL_ARMED = 1 ∧ t.get (pLINE b) R.LINE_ADJ_CTRL_LATE = 0 ∧
        u.regsBut t [(pLINE b, R.LINE_ADJ), (pLINE b, R.LINE_ADJ_LINE), (pLINE b, R.LINE_ADJ_CTRL_WHEN),
          (pLINE b, R.LINE_ADJ_CTRL_ARMED), (pLINE b, R.LINE_ADJ_CTRL_LATE)] ∧
        (∀ c, c ≠ b.val → t.lineAt c = s.lineAt c) ∧ ({ t with regs := u.regs, line := u.line } : State) = u)) ∧
    (∀ held, ∃ t, exec (.hold hd b held line) s = .next t ∧
      (s.lineLate b line.toNat = false → t.pair = { u.pair with holdAt := s.pair.holdAt ++ [(line.toNat, b.val, held)] } ∧
        ({ t with pair := u.pair } : State) = u) ∧
      (s.lineLate b line.toNat = true →
        t.pair.holdAt = s.pair.holdAt ++ [((s.get (pLINE b) R.LINE_SEQ + 1) % 2 ^ 32, b.val, held)] ∧ lateTaken u t)) ∧
    (∀ (tables whn : Byte) (go : W32) (late : Prop), (late ↔ if whn.toNat = 2 then
        ∃ e, s.pair.jobLine.find? (fun e => e.1 == b.val) = some e ∧ 0 < diff32 e.2 go.toNat else s.lineLate b line.toNat = true) →
      ∃ t, exec (.swapMessage hd b tables whn line go) s = .next t ∧ (late → lateTaken u t) ∧
        (¬ late → s.blockedPage (pPIPE b) = true → t = u) ∧
        (¬ late → s.blockedPage (pPIPE b) = false → t.get (pPIPE b) R.PIPE_SWAP_LINE = line.toNat ∧
          t.get (pPIPE b) R.PIPE_SWAP_WHEN = whn.toNat % 2 ^ R.PIPE_SWAP_WHEN.w ∧
          t.get (pPIPE b) R.PIPE_SWAP_TABLES = tables.toNat % 2 ^ R.PIPE_SWAP_TABLES.w ∧ t.get (pPIPE b) R.PIPE_TSTAT_LATE = 0 ∧
          t.pipeAt b = { s.pipeAt b with armed := (if tables.toNat % 8 = 0 then none
            else some { whn := whn.toNat, tables := tables.toNat % 8, line := line.toNat }) } ∧
          t.get (pPIPE b) R.PIPE_TSTAT_ARMED = (if tables.toNat % 8 = 0 then 0 else 1) ∧
          u.regsBut t [(pPIPE b, R.PIPE_SWAP_LINE), (pPIPE b, R.PIPE_SWAP_WHEN), (pPIPE b, R.PIPE_SWAP_TABLES),
            (pPIPE b, R.PIPE_TSTAT_LATE), (pPIPE b, R.PIPE_TSTAT_ARMED)] ∧
          (∀ c, c ≠ b.val → t.pipeAt c = s.pipeAt c) ∧ ({ t with regs := u.regs, pipe := u.pipe } : State) = u))) ∧
  (∀ (s : State) (hd : CrookHdr) (slot : Byte) (line check : W32) (u : State), s.hearsCmd hd → u = s.noted hd →
    s.straps.home = false → ∃ t, exec (.profMessage hd slot line check) s = .next t ∧
      ((∃ b < 8, s.lineRuns b = true ∧ s.lineLate b line.toNat = true) → lateTaken u t) ∧
      ((∀ b < 8, s.lineRuns b = true → s.lineLate b line.toNat = false) →
        (if slot.toNat < 8 ∧ s.prof.loaded = true ∧ s.slotUsable slot.toNat = true ∧
            leAt (s.prof.images.getD slot.toNat []) 656 4 = check.toNat then
          t.get pPROF R.PROF_SEL_CNT = (s.get pPROF R.PROF_SEL_CNT + 1) % 2 ^ 32 ∧
            (s.fenced pPROF = false → bit (t.get pPROF R.PG_IRQ_RAW) 3 = true)
        else t.get pPROF R.PROF_REJ_CNT = min (s.get pPROF R.PROF_REJ_CNT + 1) (2 ^ 32 - 1) ∧ t.prof = s.prof ∧
            (s.fenced pPROF = false → bit (t.get pPROF R.PG_IRQ_RAW) 5 = true)) ∧
        (∀ q f, q ≠ pPROF → t.get q f = u.get q f) ∧ s.sameMemory t)) ∧
  (∀ (s : State) (hd : CrookHdr) (b : Bar) (profEn : Bool) (prof : BitVec 3) (first jobId lines : W32) (u : State) (l : List Nat),
    s.hears hd → u = s.noted hd → l = [b2n profEn + 2 * prof.toNat, first.toNat, jobId.toNat, lines.toNat] →
    ∃ t, exec (.chain hd b profEn prof first jobId lines) s = .next t ∧ s.sameMemory t ∧
      (s.pair.chainOwn.find? (fun e => e.1 == b.val) = none → t.pair.chainPeer.getD b [] = l ∧ t.pair.chainOwn = s.pair.chainOwn ∧
        ({ t with pair := u.pair } : State) = u) ∧
      (∀ e, s.pair.chainOwn.find? (fun e => e.1 == b.val) = some e → t.pair.chainOwn = s.pair.chainOwn.del b ∧
        (e.2 = l → ({ t with pair := u.pair } : State) = u) ∧
        (e.2 ≠ l → t.pair.runs.getD b 0 = 0 ∧ (s.get pPAIR R.PG_ERR_CNT = 0 →
            t.get pPAIR R.PG_ERR_INFO_CODE = 0x71 ∧ t.get pPAIR R.PG_ERR_INFO_SRC = 6) ∧
          u.regsBut t ((pPAIR, R.PAIR_STAT_STATE) :: errFields pPAIR))))

/-- RECLAIM, PAIR_CMD_GIVEUP, PAIR_CMD_RESUME, HOLD_OFF_EXPIRY and SOLO_TIMEOUT. RECLAIM in WAIT, GIVEN, MATCH or HOLD, the hold-off's end in HOLD, and
PAIR_WAIT past in WAIT with SOLO enter CLAIM; in other states, before their time and on a unit that takes no part, they change
nothing. GIVEUP sets cause 0: in CLAIM, with no give-up under way, it is sent, recorded and counted as a give-up, at once where no bar
runs; MATCH and HOLD go to GIVEN and their runs begin again; in other states nothing else changes. RESUME clears cause 0 (R243 to
R247, R250).
The model's own choices in it: log 2 (before its time an event changes nothing, and a late one takes effect), logs 8, 92. -/
def Obligations.PairCommandsAndTimers : Prop :=
  ∀ s : State,
    (s.pairOn = false → (s.accepts pPAIR 0x44 1 → exec .reclaim s = .next s) ∧ (s.accepts pPAIR 0x44 2 → exec .pairCmdGiveup s = .next s) ∧
      (s.accepts pPAIR 0x44 4 → exec .pairCmdResume s = .next s) ∧ exec .holdOffExpiry s = .next s ∧ exec .soloTimeout s = .next s) ∧
    (s.pairOn = true → s.accepts pPAIR 0x44 1 →
      (s.pairState = 2 ∨ (4 ≤ s.pairState ∧ s.pairState ≤ 6) → ∃ t, exec .reclaim s = .next t ∧ claims s t) ∧
      (¬ (s.pairState = 2 ∨ (4 ≤ s.pairState ∧ s.pairState ≤ 6)) → exec .reclaim s = .next s)) ∧
    (s.pairOn = true → s.accepts pPAIR 0x44 2 →
      (s.pairState = 7 → s.pair.giving = 0 → ∃ t, exec .pairCmdGiveup s = .next t ∧ t.pair.cause0 = true ∧ givesUp s t 0 ∧
        t.get pPAIR R.PAIR_LAST_UNCOV = b2n (!s.covered) ∧
        t.outs = (if s.crookLanes = 0 then s.outs else .crook 0x06 (crookBody s s.nextMseq (zeros 4 ++ s.lineSeqs)) :: s.outs) ∧
        s.regsBut t ([(pPAIR, R.PAIR_GIVE_CNT), (pPAIR, R.PAIR_LAST_UNCOV), (pPAIR, R.PAIR_LAST_CODE), (pPAIR, R.PAIR_LAST_CAUSE),
          (pPAIR, R.PAIR_STAT_STATE)] ++ errFields pPAIR) ∧
        ({ t with regs := s.regs, pair := s.pair, host := s.host, outs := s.outs } : State) = s) ∧
      (s.pairState = 5 ∨ s.pairState = 6 → ∃ t, exec .pairCmdGiveup s = .next t ∧ t.pair.cause0 = true ∧ t.pairState = 4 ∧
        t.pair.runs = [] ∧ bit (t.get pPAIR R.PG_IRQ_RAW) 3 = true ∧ s.regsBut t [(pPAIR, R.PAIR_STAT_STATE), (pPAIR, R.PG_IRQ_RAW)] ∧
        ({ t with regs := s.regs, pair := s.pair, host := s.host } : State) = s) ∧
      ((s.pairState = 7 ∧ s.pair.giving ≠ 0) ∨ (s.pairState ≠ 7 ∧ s.pairState ≠ 5 ∧ s.pairState ≠ 6) →
        ∃ t, exec .pairCmdGiveup s = .next t ∧ t.pair = { s.pair with cause0 := true } ∧ ({ t with pair := s.pair } : State) = s)) ∧
    (s.pairOn = true → s.accepts pPAIR 0x44 4 → ∃ t, exec .pairCmdResume s = .next t ∧ t.pair = { s.pair with cause0 := false } ∧
      ({ t with pair := s.pair } : State) = s) ∧
    (s.pairState ≠ 6 ∨ s.tick < s.pair.holdUntil → exec .holdOffExpiry s = .next s) ∧
    (s.pairOn = true → s.pairState = 6 → s.pair.holdUntil ≤ s.tick → ∃ t, exec .holdOffExpiry s = .next t ∧ claims s t) ∧
    (s.pairState ≠ 2 ∨ s.flag pPAIR R.PAIR_CTRL_SOLO = false ∨ s.tick < s.pair.waitSince + msTicks (s.get pPAIR R.PAIR_WAIT) →
      exec .soloTimeout s = .next s) ∧
    (s.pairOn = true → s.pairState = 2 → s.flag pPAIR R.PAIR_CTRL_SOLO = true →
      s.pair.waitSince + msTicks (s.get pPAIR R.PAIR_WAIT) ≤ s.tick → ∃ t, exec .soloTimeout s = .next t ∧ claims s t)

/-! ### Camera ports (R251 to R275) -/

/-- The bytes that Chanter's sums of a flush may change: partial sums, the zone bank in use, and the bursts of the column and capture
banks in use (R279, R297). -/
def sumsOnly (s t : State) : Prop :=
  t.pending = s.pending ∧ t.flash = s.flash ∧
    s.dramOnly t (burstsOf (s.colAddr s.chant.col.bank 0) (440 * 48192) ++ burstsOf (s.colAddr s.chant.cap.bank 0) (440 * 48192)) ∧
    s.lsWithin t [(partAddr 0, 220 * 48192), (zoneAddr s.chant.zone.bank 0, 440 * 3012)]
/-- A pulse of TRIG0 or TRIG1 at a tick. -/
def pulseAt (o : Option Nat) (now : Nat) : Option Nat := match o with | some u => if u ≤ now then none else some u | none => none

/-- FRAME_START_EVENT, FRAME_CLOSE, TRIG0_RISE and TRIGGER_PULSE_END. On a working port a trigger that is due counts FSEQ, with cause 3, and waits
for its frame; FVAL opens a frame with no line: the latest trigger's, an untriggered one, or without TRIG_EN one that counts FSEQ itself. A
frame closes with its fate in FSTAT, counted with cause 4, SHORT or LONG by its lines; on a fenced port it closes with no register
changed. TRIG0 rises after its delay with a stamp, unless it is high already, and each pulse falls after its width. With nothing due,
nothing to open or close, and on a port that does not work, nothing changes (R48, R254 to R260, R273).
The model's own choices in it: logs 2, 43, 75, 80. -/
def Obligations.CameraFramesAndTriggers : Prop :=
  ∀ (s : State) (c : CamPort),
    (s.working (pCAM c) = false → ∀ src, exec (.frameStartEvent c src) s = .next s) ∧
    ((s.camAt c).trigDue = false → exec (.frameStartEvent c .trig1) s = .next s) ∧
    ((s.camAt c).frame ≠ none → exec (.frameStartEvent c .fval) s = .next s) ∧
    (s.working (pCAM c) = true → (s.camAt c).frame = none → s.flag (pCAM c) R.CAM_FTRIG_TRIG_EN = false →
      ∃ t f, exec (.frameStartEvent c .fval) s = .next t ∧ t.get (pCAM c) R.CAM_FSEQ = (s.get (pCAM c) R.CAM_FSEQ + 1) % 2 ^ 32 ∧
        bit (t.get (pCAM c) R.PG_IRQ_RAW) 3 = true ∧ t.camAt c = { s.camAt c with frame := some f } ∧
        f = { fseq := t.get (pCAM c) R.CAM_FSEQ, gen := t.get (pCAM c) R.PG_GEN_APPL_GEN, untrig := false, tStart := s.cNs,
              cal := s.flatWants c } ∧
        s.regsBut t [(pCAM c, R.CAM_FSEQ), (pCAM c, R.PG_GEN_APPL_GEN), (pCAM c, R.PG_GEN_PENDING), (pCAM c, R.PG_IRQ_RAW)] ∧
        s.sameMemory t) ∧
    (s.working (pCAM c) = true → (s.camAt c).frame = none → s.flag (pCAM c) R.CAM_FTRIG_TRIG_EN = true →
      (∀ e, (s.camAt c).unpaired.getLast? = some e → ∃ t f, exec (.frameStartEvent c .fval) s = .next t ∧
        t.camAt c = { s.camAt c with frame := some f, unpaired := (s.camAt c).unpaired.dropLast } ∧
        f = { fseq := e.1, gen := e.2.1, untrig := false, tStart := e.2.2, cal := s.flatWants c } ∧
        (∀ n, n ≠ c.val → t.camAt n = s.camAt n) ∧ ({ t with cam := s.cam } : State) = s) ∧
      ((s.camAt c).unpaired = [] → ∃ t f, exec (.frameStartEvent c .fval) s = .next t ∧ t.camAt c = { s.camAt c with frame := some f } ∧
        f = { fseq := t.get (pCAM c) R.CAM_FSEQ, gen := s.get (pCAM c) R.PG_GEN_APPL_GEN, untrig := true, tStart := s.cNs,
              cal := s.flatWants c } ∧
        t.get (pCAM c) R.CAM_FSEQ = (s.get (pCAM c) R.CAM_FSEQ + 1) % 2 ^ 32 ∧ s.regsBut t [(pCAM c, R.CAM_FSEQ)] ∧
        (∀ n, n ≠ c.val → t.camAt n = s.camAt n) ∧ ({ t with regs := s.regs, cam := s.cam } : State) = s)) ∧
    (s.working (pCAM c) = true → (s.camAt c).trigDue = true → ∃ t, exec (.frameStartEvent c .trig1) s = .next t ∧
      t.get (pCAM c) R.CAM_FSEQ = (s.get (pCAM c) R.CAM_FSEQ + 1) % 2 ^ 32 ∧ bit (t.get (pCAM c) R.PG_IRQ_RAW) 3 = true ∧
      t.camAt c = { s.camAt c with
        trigDue := false
        unpaired := (s.camAt c).unpaired ++ [(t.get (pCAM c) R.CAM_FSEQ, t.get (pCAM c) R.PG_GEN_APPL_GEN, s.cNs)] } ∧
      s.regsBut t [(pCAM c, R.CAM_FSEQ), (pCAM c, R.PG_GEN_APPL_GEN), (pCAM c, R.PG_GEN_PENDING), (pCAM c, R.PG_IRQ_RAW)] ∧
      s.sameMemory t) ∧
    (s.enabled (pCAM c) = false ∨ s.resetting (pCAM c) = true ∨ (s.camAt c).frame = none → exec (.frameClose c) s = .next s) ∧
    (∀ f, s.enabled (pCAM c) = true → s.resetting (pCAM c) = false → (s.camAt c).frame = some f →
      ∃ t, exec (.frameClose c) s = .next t ∧ (t.camAt c).frame = none ∧
        (s.fenced (pCAM c) = true → ∀ g, t.get (pCAM c) g = s.get (pCAM c) g) ∧
        (s.fenced (pCAM c) = false → ∀ short long : Bool, short = decide (f.lines < max 1 (s.ap (pCAM c) R.CAM_FRAME)) →
          long = decide (max 1 (s.ap (pCAM c) R.CAM_FRAME) < f.lines) →
          t.get (pCAM c) R.CAM_FRM_CNT = (s.get (pCAM c) R.CAM_FRM_CNT + 1) % 2 ^ R.CAM_FRM_CNT.w ∧
          t.get (pCAM c) R.CAM_FSTAT_LINES = 0 ∧
          t.get (pCAM c) R.CAM_FSTAT_LAST = 4 * b2n f.untrig + 2 * b2n long + b2n short ∧
          bit (t.get (pCAM c) R.PG_IRQ_RAW) 4 = true ∧
          (short = true → bit (t.get (pCAM c) R.PG_IRQ_RAW) 5 = true ∧
            t.get (pCAM c) R.CAM_SHORT_CNT = min (s.get (pCAM c) R.CAM_SHORT_CNT + 1) (2 ^ R.CAM_SHORT_CNT.w - 1) ∧
            (s.get (pCAM c) R.PG_ERR_CNT = 0 → t.get (pCAM c) R.PG_ERR_INFO_CODE = 0x80)) ∧
          (long = true → bit (t.get (pCAM c) R.PG_IRQ_RAW) 6 = true ∧
            t.get (pCAM c) R.CAM_LONG_CNT = min (s.get (pCAM c) R.CAM_LONG_CNT + 1) (2 ^ R.CAM_LONG_CNT.w - 1) ∧
            (s.get (pCAM c) R.PG_ERR_CNT = 0 → t.get (pCAM c) R.PG_ERR_INFO_CODE = 0x81))) ∧
        (∀ short : Bool, short = (s.fenced (pCAM c) || decide (f.lines < max 1 (s.ap (pCAM c) R.CAM_FRAME))) →
          (short = true → (∀ x ∈ (t.camAt c).caps, x.fseq = f.fseq → x.dead = true) ∧
            ∀ e ∈ (t.camAt 1).shared, c = 1 → e.fseq ≠ f.fseq) ∧
          (s.chantRuns = true → ∃ g : FlushSt, g.gen = f.gen ∧ g.short = short ∧ g.lcFirst = f.lcFirst ∧ g.lcLast = f.lcLast ∧
            (s.chant.flush.has c = false → t.chant.flush = s.chant.flush.put c g ∧ t.chant.flushQ = s.chant.flushQ) ∧
            (s.chant.flush.has c = true → t.chant.flush = s.chant.flush ∧ t.chant.flushQ = s.chant.flushQ ++ [(c.val, g)]))) ∧
        (s.chantRuns = false → s.sameMemory t) ∧ s.lsOnly t [(partAddr 0, 220 * 48192)]) ∧
    ((s.camAt c).trig0Pend = [] → exec (.trig0Rise c) s = .next s) ∧
    (∀ l x r, (s.camAt c).trig0Pend = (l, x) :: r →
      (s.tick < x + s.ap (pCAM c) R.CAM_LDLY → exec (.trig0Rise c) s = .next s) ∧
      (x + s.ap (pCAM c) R.CAM_LDLY ≤ s.tick → ∀ drives : Bool,
        drives = (s.working (pCAM c) && s.flag (pCAM c) R.CAM_LTRIG && s.lineRuns s.camc.refbar) →
        ∃ t, exec (.trig0Rise c) s = .next t ∧ (∀ n, n ≠ c.val → t.camAt n = s.camAt n) ∧
        (drives = false → t.camAt c = { s.camAt c with trig0Pend := r } ∧ ({ t with cam := s.cam } : State) = s) ∧
        (drives = true → (∀ u, (s.camAt c).trig0Until = some u → u ≤ s.tick) →
          t.camAt c = { s.camAt c with
            trig0Pend := r
            trig0Until := some (s.tick + s.ap (pCAM c) R.CAM_EXP)
            stamps := ((s.camAt c).stamps ++ [(l, s.tick)]).drop ((s.camAt c).stamps.length - 7) } ∧
          ({ t with cam := s.cam } : State) = s) ∧
        (∀ u, drives = true → (s.camAt c).trig0Until = some u → s.tick < u →
          t.camAt c = { s.camAt c with trig0Pend := r } ∧
          t.get (pCAM c) R.CAM_TSKIP_CNT = min (s.get (pCAM c) R.CAM_TSKIP_CNT + 1) (2 ^ R.CAM_TSKIP_CNT.w - 1) ∧
          s.regsBut t [(pCAM c, R.CAM_TSKIP_CNT)] ∧ ({ t with regs := s.regs, cam := s.cam } : State) = s))) ∧
    (∃ t, exec (.triggerPulseEnd c 0) s = .next t ∧ t.camAt c = { s.camAt c with trig0Until := pulseAt (s.camAt c).trig0Until s.tick } ∧
      (∀ n, n ≠ c.val → t.camAt n = s.camAt n) ∧ ({ t with cam := s.cam } : State) = s) ∧
    (∃ t, exec (.triggerPulseEnd c 1) s = .next t ∧ t.camAt c = { s.camAt c with trig1Until := pulseAt (s.camAt c).trig1Until s.tick } ∧
      (∀ n, n ≠ c.val → t.camAt n = s.camAt n) ∧ ({ t with cam := s.cam } : State) = s)

/-- The slice of bar b for the block of line ℓ_c reads whole and is that block's (R269). -/
def sliceGood (s : State) (lc b : Nat) : Prop :=
  (s.dramRead (s.sliceAddr lc b) 48256 4 0x4A).2.2 = true ∧ leAt (s.dramRead (s.sliceAddr lc b) 48256 4 0x4A).2.1 48192 4 = lc

/-- CAMERA_LINE, STATISTICS_RECORD and COVERAGE_READ_COMPLETE. On a working port with a frame open, a line beyond LINES and a bad one are counted
apart, the bad one with code 0x82, and store nothing of their own; a good one stores the temporal state of its pixels and its capture slot.
On another port nothing changes. A statistics record that waits enters its queue when there is room, and not before. A line whose coverage
can be read is taken from the waiting ones: it is registered, with its frame, or missed with cause 3 where no slice is its block's; a
registered line of a port whose pixels the other port does not share gives its pairs to Chanter, counted as used, lost to a flush,
beyond 4,096 lines or skipped; one of a frame that closed SHORT gives none. Only the partial sums are stored (R252 to R256, R262,
R265, R269 to R273, R277 to R279).
The model's own choices in it: logs 44, 78, 81, 94. -/
def Obligations.CameraLinesAndCoverage : Prop :=
  (∀ (s : State) (c : CamPort) (px : List W64) (check : Option (BitVec 16)) (fell : Bool),
    (s.working (pCAM c) = false ∨ (s.camAt c).frame = none → exec (.cameraLine c px check fell) s = .next s) ∧
    (∀ f, s.working (pCAM c) = true → (s.camAt c).frame = some f →
      (max 1 (s.ap (pCAM c) R.CAM_FRAME) ≤ f.lines → ∃ t, exec (.cameraLine c px check fell) s = .next t ∧
        t.get (pCAM c) R.CAM_XLINE_CNT = min (s.get (pCAM c) R.CAM_XLINE_CNT + 1) (2 ^ R.CAM_XLINE_CNT.w - 1) ∧
        (t.camAt c).frame = some { f with lines := f.lines + 1 } ∧ s.lsOnly t [(partAddr 0, 220 * 48192)] ∧
        ((s.camAt 1).shared = [] → s.regsBut t [(pCAM c, R.CAM_XLINE_CNT), (pCAM c, R.CAM_NOSTAMP_CNT)] ∧ s.sameMemory t)) ∧
      (f.lines < max 1 (s.ap (pCAM c) R.CAM_FRAME) → ∀ crc : Bool,
        crc = (s.flag (pCAM c) R.CAM_BUS_CRC_EN && check.map (·.toNat) != some (lineCrc (px.map (·.toNat)))) →
        (crc = true ∨ px.length ≠ s.camPix c ∨ fell = true → ∃ t, exec (.cameraLine c px check fell) s = .next t ∧
          (crc = true → bit (t.get (pCAM c) R.PG_IRQ_RAW) 7 = true ∧
            t.get (pCAM c) R.CAM_LCHK_CNT = min (s.get (pCAM c) R.CAM_LCHK_CNT + 1) (2 ^ R.CAM_LCHK_CNT.w - 1)) ∧
          (crc = false → t.get (pCAM c) R.CAM_LBAD_CNT = min (s.get (pCAM c) R.CAM_LBAD_CNT + 1) (2 ^ R.CAM_LBAD_CNT.w - 1)) ∧
          (s.get (pCAM c) R.PG_ERR_CNT = 0 → t.get (pCAM c) R.PG_ERR_INFO_CODE = 0x82 ∧
            t.get (pCAM c) R.PG_ERR_INFO_SRC = b2n (!crc)) ∧
          t.get (pCAM c) R.CAM_FSTAT_LINES = (f.lines + 1) % 2 ^ R.CAM_FSTAT_LINES.w ∧
          ((t.camAt c).frame.map fun g => (g.lines, g.bad)) = some (f.lines + 1, f.bad + 1) ∧ s.lsOnly t [(partAddr 0, 220 * 48192)] ∧
          ((s.camAt 1).shared = [] → s.regsBut t ([(pCAM c, R.CAM_LBAD_CNT), (pCAM c, R.CAM_LCHK_CNT), (pCAM c, R.CAM_FSTAT_LINES),
            (pCAM c, R.CAM_NOSTAMP_CNT)] ++ errFields (pCAM c)) ∧ s.sameMemory t)) ∧
        (crc = false → px.length = s.camPix c → fell = false → ∃ t, exec (.cameraLine c px check fell) s = .next t ∧
          t.get (pCAM c) R.CAM_FSTAT_LINES = (f.lines + 1) % 2 ^ R.CAM_FSTAT_LINES.w ∧
          ((t.camAt c).frame.map fun g => (g.lines, g.bad, g.first)) = some (f.lines + 1, f.bad, false) ∧
          s.lsOnly t [(camBase c + 0x100000, 12 * px.length), (camBase c + 0x180000 + 289152 * (s.camAt c).slot, 12 * px.length),
            (partAddr 0, 220 * 48192)])))) ∧
  (∀ (s : State) (c : CamPort),
    ((s.camAt c).waitRecs = [] ∨ s.statRoom c = false → exec (.statisticsRecord c) s = .next s) ∧
    (∀ r rest, (s.camAt c).waitRecs = r :: rest → s.statRoom c = true →
      ∃ t, exec (.statisticsRecord c) s = .next t ∧ t.camAt c = { s.camAt c with waitRecs := rest } ∧
        t.queues.getD (0x30 + c.val) [] = s.queues.getD (0x30 + c.val) [] ++ [{ bytes := r, last := true }] ∧
        (∀ n, n ≠ c.val → t.camAt n = s.camAt n) ∧ (∀ n, n ≠ 0x30 + c.val → t.queues.getD n [] = s.queues.getD n []) ∧
        ({ t with cam := s.cam, queues := s.queues } : State) = s)) ∧
  (∀ (s : State) (c : CamPort),
    ((s.camAt c).caps = [] → exec (.coverageReadComplete c) s = .next s) ∧
    (∀ x rest, (s.camAt c).caps = x :: rest →
      (s.working pCAMC = false ∨ (∃ b < 8, s.dramServed 5 (s.sliceAddr x.lc b) 48256 0x4A = false) →
        exec (.coverageReadComplete c) s = .next s) ∧
      (s.working pCAMC = true → (∀ b < 8, s.dramServed 5 (s.sliceAddr x.lc b) 48256 0x4A = true) →
        ∃ t, exec (.coverageReadComplete c) s = .next t ∧ (t.camAt c).caps = rest ∧ s.lsOnly t [(partAddr 0, 220 * 48192)] ∧
        ((∀ b < 8, ¬ sliceGood s x.lc b) →
          t.get pCAMC R.CAMC_MISS_CNT = min (s.get pCAMC R.CAMC_MISS_CNT + 1) (2 ^ R.CAMC_MISS_CNT.w - 1) ∧
          bit (t.get pCAMC R.PG_IRQ_RAW) 3 = true ∧
          ((s.camAt 1).shared = [] → (∀ f, t.get pCHANT f = s.get pCHANT f) ∧ s.sameMemory t)) ∧
        ((∃ b < 8, sliceGood s x.lc b) →
          t.get pCAMC R.CAMC_REG_CNT = (s.get pCAMC R.CAMC_REG_CNT + 1) % 2 ^ R.CAMC_REG_CNT.w ∧
          t.get pCAMC R.CAMC_LAST_LC = x.lc % 2 ^ 32 ∧
          (∀ f, (s.camAt c).frame = some f → (t.camAt c).frame = some (if f.fseq = x.fseq then
            { f with reg := f.reg + 1, lcFirst := f.lcFirst.or (some x.lc), lcLast := x.lc } else f)) ∧
          (s.chantRuns = false ∨ x.dead = true → (s.camAt 1).shared = [] → (∀ f, t.get pCHANT f = s.get pCHANT f) ∧ s.sameMemory t) ∧
          (∀ (n : Nat) (ok : Prop), s.chantRuns = true → s.fenced pCHANT = false → x.dead = false → (s.camAt 1).shared = [] →
            (c.val = 0 ∨ ∀ k, s.camReaches 0 k = false) → n = ((List.range x.pix).filterMap (s.camColumn c)).length → 0 < n →
            (ok ↔ ∀ b ∈ s.modelSet, sliceGood s x.lc b ∧
              bit (byteAt (s.dramRead (s.sliceAddr x.lc b) 48256 4 0x4A).2.1 48196) 0 = false) →
            (s.chant.flush.has c = true →
              t.get pCHANT R.CHANT_FLUSH_CNT = min (s.get pCHANT R.CHANT_FLUSH_CNT + n) (2 ^ 32 - 1) ∧ s.sameMemory t) ∧
            (s.chant.flush.has c = false → 4096 ≤ s.usedLines c x.fseq →
              t.get pCHANT R.CHANT_FOVF_CNT = min (s.get pCHANT R.CHANT_FOVF_CNT + n) (2 ^ 32 - 1) ∧ s.sameMemory t) ∧
            (s.chant.flush.has c = false → s.usedLines c x.fseq < 4096 →
              (ok → t.get pCHANT R.CHANT_PAIR_CNT = (s.get pCHANT R.CHANT_PAIR_CNT + n) % 2 ^ 32) ∧
              (¬ ok → t.get pCHANT R.CHANT_SKIP_CNT = (s.get pCHANT R.CHANT_SKIP_CNT + n) % 2 ^ 32 ∧ s.sameMemory t)))))))

/-! ### Chanter and calibration (R276 to R299) -/

/-- FLUSH_END, SOLVE_END, TRIM_CYCLE_BAR and TRIM. A flush that can end is gone, and the port's next one that waits runs: an uncorrectable word
fences CHANT with code 0x11 after it; a frame that cannot be used is counted; a good one with a registered line gives every tier that is on its window, which opens at its first
and reaches its last block, and closes when it is long enough, or waits for the solve in progress. A tier's solve ends with cause 3, its
window no longer in solve, and for a loop tier a cycle is due, or starts where no unit paces it. A trim cycle serves its lowest bar: it
shows the line it names, and arms a swap of the nozzle table, or the cycle is counted as deferred, with LATE where the line is not ahead. A
TRIM message of the camera unit is written into the shadow table; the last part of a set that is in time and armed arms the swap; a late one
is counted. Each stores to the sums, the bank, or the shadow table it works on, and to nothing else. What is not running, not there, or
not free changes nothing (R237, R279 to R287, R293, R297).
The model's own choices in it: logs 45, 46, 76, 83, 117, 124, 126. -/
def Obligations.ChanterWorks : Prop :=
  (∀ (s : State) (c : CamPort),
    (s.chantRuns = false ∨ s.chant.flush.has c = false ∨ s.flushFree = false → exec (.flushEnd c) s = .next s) ∧
    (∀ f, s.chantRuns = true → s.chant.flush.has c = true → s.flushFree = true → f = s.chant.flush.getD c ⟨0, true, none, 0, 0⟩ →
      ∃ t, exec (.flushEnd c) s = .next t ∧ t.chant.flush.has c = s.chant.flushQ.any (·.1 == c.val) ∧
      (∀ e, s.chant.flushQ.find? (·.1 == c.val) = some e → t.chant.flush.getD c ⟨0, true, none, 0, 0⟩ = e.2 ∧
        t.chant.flushQ.length + 1 = s.chant.flushQ.length) ∧ sumsOnly s t ∧
      (s.fenced pCHANT = true → ∀ g, t.get pCHANT g = s.get pCHANT g) ∧
      (∀ a, s.fenced pCHANT = false → s.held pCHANT = false → s.srsts.has pCHANT = false → s.chant.fenceNext = some a →
        t.fenced pCHANT = true ∧ t.get pCHANT R.PG_FENCE_REASON = 0x11 ∧ t.chant.fenceNext = none) ∧
      (s.fenced pCHANT = false → ∀ good : Bool,
        good = (!f.short && (!s.flag pCHANT R.CHANT_CAMGEN_CHK || f.gen == s.get pCHANT (chantGen c))) →
        (good = false →
          t.get pCHANT R.CHANT_FRSKIP_CNT = min (s.get pCHANT R.CHANT_FRSKIP_CNT + 1) (2 ^ R.CHANT_FRSKIP_CNT.w - 1)) ∧
        (∀ (l : Nat) (k : Tier) (w : Nat) (full : Prop), good = true → f.lcFirst = some l → s.tierOn k = true →
          w = (if (s.tier k).open_ then (s.tier k).wOpen else l) →
          (full ↔ (s.tierLen k : Int) ≤ diff32 (f.lcLast + 16) w ∨ ((s.tier k).open_ = true ∧ (s.tier k).closeDue = true)) →
          (t.tier k).wOpen = w ∧ (t.tier k).wLast = f.lcLast ∧
          (full → (s.tier k).solving = none → (t.tier k).open_ = false ∧ (t.tier k).bank = 1 - (s.tier k).bank ∧
            ∃ g, (t.tier k).solving = some ((s.tier k).bank, w, f.lcLast, (s.tier k).win + 1, g)) ∧
          (full → (s.tier k).solving ≠ none → (t.tier k).open_ = true ∧ (t.tier k).closeDue = true) ∧
          (¬ full → (t.tier k).open_ = true ∧ (t.tier k).bank = (s.tier k).bank ∧ (t.tier k).solving = (s.tier k).solving))))) ∧
  (∀ (s : State) (k : Tier),
    ((s.tier k).solving = none ∨ s.chantRuns = false ∨ (k = .capture ∧ s.calst.runDone = true) → exec (.solveEnd k) s = .next s) ∧
    (∀ x, (s.tier k).solving = some x →
      (k ≠ .zone → s.colsFree x.1 = false → exec (.solveEnd k) s = .next s) ∧
      (s.chantRuns = true → (k = .capture → s.calst.runDone = false) → (k ≠ .zone → s.colsFree x.1 = true) →
        ∃ t, exec (.solveEnd k) s = .next t ∧ (t.tier k).solving = none ∧
        (s.fenced pCHANT = false → bit (t.get pCHANT R.PG_IRQ_RAW) 3 = true) ∧
        (s.fenced pCHANT = true → ∀ g, t.get pCHANT g = s.get pCHANT g) ∧
        (k = .capture → t.calst.runDone = true) ∧
        (k ≠ .capture → (s.cyclePaced = true ∨ s.chant.bars ≠ 0 ∨ s.working pCHANT = false ∨ s.loopHolds = true →
            t.chant.cycleDue = true ∧ (t.tier k).fresh = true ∧ t.chant.bars = s.chant.bars) ∧
          (s.cyclePaced = false → s.chant.bars = 0 → s.working pCHANT = true → s.loopHolds = false →
            t.chant.cycleDue = false ∧ t.chant.bars = s.get pCHANT R.CHANT_CTRL_TRIM_EN ∧
            t.get pCHANT R.CHANT_CYCLE = (s.get pCHANT R.CHANT_CYCLE + 1) % 2 ^ 32 ∧ bit (t.get pCHANT R.PG_IRQ_RAW) 4 = true)) ∧
        (k = .zone → s.lsOnly t [(zoneAddr x.1 0, 440 * 3012)]) ∧
        (k ≠ .zone → s.dramStores t (burstsOf (s.colAddr x.1 0) (440 * 48192)))))) ∧
  (∀ (s : State) (b : Bar),
    (s.working pCHANT = false ∨ lowBit 8 s.chant.bars ≠ some b.val ∨ (s.pipeAt b).copy ≠ none ∨ s.loopHolds = true →
      exec (.trimCycleBar b) s = .next s) ∧
    (s.working pCHANT = true → lowBit 8 s.chant.bars = some b.val → (s.pipeAt b).copy = none → s.loopHolds = false →
      ∀ (late free : Prop), (late ↔ diff32 (s.cycleLine b) (s.get (pLINE b) R.LINE_SEQ) ≤ 0) →
      (free ↔ (s.pipeAt b).armed = none ∧ s.pipeShut b = false) →
      ∃ t, exec (.trimCycleBar b) s = .next t ∧ t.get pCHANT R.CHANT_CYC_LINE = s.cycleLine b ∧
      (setBit s.chant.bars b false ≠ 0 → t.chant.bars = setBit s.chant.bars b false) ∧
      (free → ¬ late → t.pipeAt b = { s.pipeAt b with armed := some { whn := 1, tables := 1, line := s.cycleLine b, fromTrim := true } } ∧
        t.get (pPIPE b) R.PIPE_TSTAT_ARMED = 1 ∧ t.get (pPIPE b) R.PIPE_TSTAT_LATE = 0 ∧
        t.get pCHANT R.CHANT_DEFER_CNT = s.get pCHANT R.CHANT_DEFER_CNT) ∧
      (¬ free ∨ late → t.pipeAt b = s.pipeAt b ∧ bit (t.get pCHANT R.PG_IRQ_RAW) 5 = true ∧
        t.get pCHANT R.CHANT_DEFER_CNT = min (s.get pCHANT R.CHANT_DEFER_CNT + 1) (2 ^ R.CHANT_DEFER_CNT.w - 1) ∧
        (free → t.get (pPIPE b) R.PIPE_TSTAT_LATE = 1)) ∧
      (∀ i, i ≠ b.val → t.pipeAt i = s.pipeAt i) ∧ s.lsOnly t [(tabAddr 0 (1 - s.activeCopy b 0) b, tabSize 0)])) ∧
  (∀ (s : State) (hd : CrookHdr) (b : Bar) (line cycle : W32) (k0 nk : BitVec 16) (arm dot : Bool) (part npart : Byte)
    (deltas : List Byte) (u : State) (old : Nat) (last : Prop), s.hearsCmd hd → u = s.noted hd →
    old = ((s.pair.trims.find? fun e => e.1 == b.val && e.2.1 == cycle.toNat).map (·.2.2)).getD 0 →
    (last ↔ (old ||| 2 ^ (part.toNat % 16)) % 2 ^ 16 = 2 ^ (npart.toNat % 16) - 1 ∧ arm = true ∧ bit old 16 = false) →
    ∃ t, exec (.trim hd b line k0 nk arm dot part npart cycle deltas) s = .next t ∧ t.pair.peerCam = (if s.straps.home then none else some s.tick) ∧
      (s.lineLate b line.toNat = true →
        t.get pPAIR R.PAIR_LATE_CNT = min (s.get pPAIR R.PAIR_LATE_CNT + 1) (2 ^ R.PAIR_LATE_CNT.w - 1) ∧
        bit (t.get pPAIR R.PG_IRQ_RAW) 7 = true ∧ t.pipe = s.pipe) ∧
      (s.lineLate b line.toNat = false → last → s.pipeShut b = false →
        t.pipeAt b = { s.pipeAt b with armed := some { whn := 1, tables := 1, line := line.toNat, fromTrim := true } } ∧
        t.get (pPIPE b) R.PIPE_TSTAT_ARMED = 1) ∧
      (¬ last ∨ s.pipeShut b = true → t.pipe = s.pipe) ∧
      u.lsOnly t [(tabAddr 0 (1 - s.activeCopy b 0) b, tabSize 0)])

/-- CAL_CMD_GO, CAL_CMD_ABORT, CAL_CMD_CONT and CAL_RUN_END. A calibration starts with STEP 1, its COLREF with both loop tiers stopped and its LANE
with a scan asked of each enabled head lane that is UP, or is refused with RESULT 5 while one runs or a block it needs is not enabled; ABORT
ends it with RESULT 3; CONT takes a FLAT from its pause to its second phase; with nothing to end or to go on with they change nothing. A
run that is done is followed by run 2, by the pause of a FLAT with cause 3, or by the comparison: with more entries apart than FRAC allows,
or any for LANE and FIRE, it is rejected with RESULT 2 and counted, else accepted with RESULT 1. Two FIRE runs agree where BASE is equal and
every delay within ABS; the second's values are installed. A run that is not done changes nothing (R291 to R294).
The model's own choices in it: logs 41, 47. -/
def Obligations.CalibrationRuns : Prop :=
  ∀ s : State,
    (∀ kind : BitVec 3, s.accepts pCAL 0x40 (2 ^ 31 + kind.toNat) →
      (s.calst.running = false → s.enabled pCAL = true → s.calNeeds kind.toNat = true → ∃ t, exec (.calCmdGo kind) s = .next t ∧
        t.calst.running = true ∧ t.calst.kind = kind.toNat ∧ t.calst.runDone = false ∧ t.get pCAL R.CAL_STAT_STEP = 1 ∧
        t.get pCAL R.CAL_STAT_RESULT = 0 ∧ t.get pCAL R.CAL_STAT_KIND = kind.toNat ∧
        (kind = 3 → t.chant.capturing = true ∧ t.chant.zone.open_ = false ∧ t.chant.col.open_ = false ∧ t.chant.bars = 0) ∧
        (kind = 4 → ∀ l < 128, s.enabled (pLANE l) = true → if (s.laneAt l).st = 3
          then (t.laneAt l).calScan = true ∨ (t.laneAt l).calRuns = true else l ∈ t.calst.abandoned) ∧
        s.regsBut t [(pCAL, R.CAL_STAT_STEP), (pCAL, R.CAL_STAT_RESULT), (pCAL, R.CAL_STAT_KIND)] ∧
        ({ t with regs := s.regs, calst := s.calst, chant := s.chant, lane := s.lane } : State) = s) ∧
      (s.calst.running = true ∨ s.enabled pCAL = false ∨ s.calNeeds kind.toNat = false → ∃ t, exec (.calCmdGo kind) s = .next t ∧
        t.get pCAL R.CAL_REJ_CNT = min (s.get pCAL R.CAL_REJ_CNT + 1) (2 ^ R.CAL_REJ_CNT.w - 1) ∧ t.get pCAL R.CAL_STAT_RESULT = 5 ∧
        s.regsBut t [(pCAL, R.CAL_REJ_CNT), (pCAL, R.CAL_STAT_RESULT)] ∧ ({ t with regs := s.regs } : State) = s)) ∧
    (s.accepts pCAL 0x40 0x200 → (s.calst.running = false → exec .calCmdAbort s = .next s) ∧
      (s.calst.running = true → ∃ t, exec .calCmdAbort s = .next t ∧ t.calst.running = false ∧ t.get pCAL R.CAL_STAT_STEP = 0 ∧
        t.get pCAL R.CAL_STAT_RESULT = 3 ∧ bit (t.get pCAL R.PG_IRQ_RAW) 4 = true ∧ t.chant.capturing = false ∧
        s.regsBut t [(pCAL, R.CAL_STAT_STEP), (pCAL, R.CAL_STAT_RESULT), (pCAL, R.PG_IRQ_RAW)] ∧
        ({ t with regs := s.regs, calst := s.calst, chant := s.chant, lane := s.lane, host := s.host } : State) = s)) ∧
    (s.accepts pCAL 0x40 0x100 → (s.calst.running = false ∨ s.get pCAL R.CAL_STAT_STEP ≠ 3 → exec .calCmdCont s = .next s) ∧
      (s.calst.running = true → s.get pCAL R.CAL_STAT_STEP = 3 → ∃ t, exec .calCmdCont s = .next t ∧ t.calst.flat = true ∧
        t.calst.runDone = false ∧ t.get pCAL R.CAL_STAT_STEP = 1 ∧ s.regsBut t [(pCAL, R.CAL_STAT_STEP)] ∧
        ({ t with regs := s.regs, calst := s.calst, lane := s.lane } : State) = s)) ∧
    (s.working pCAL = false ∨ s.calst.running = false ∨ s.calst.waitInstall ≠ none ∨ s.runReady = false ∨
        (s.get pCAL R.CAL_STAT_STEP ≠ 1 ∧ s.get pCAL R.CAL_STAT_STEP ≠ 2) → exec .calRunEnd s = .next s) ∧
    (s.working pCAL = true → s.calst.running = true → s.calst.waitInstall = none → s.runReady = true →
      (s.get pCAL R.CAL_STAT_STEP = 1 → ∃ t, exec .calRunEnd s = .next t ∧ t.get pCAL R.CAL_STAT_STEP = 2 ∧ t.calst.runDone = false ∧
        s.regsBut t [(pCAL, R.CAL_STAT_STEP)] ∧ ({ t with regs := s.regs, calst := s.calst, lane := s.lane } : State) = s) ∧
      (s.get pCAL R.CAL_STAT_STEP = 2 → s.calst.kind ≤ 2 → s.calst.flat = false → ∃ t, exec .calRunEnd s = .next t ∧
        t.get pCAL R.CAL_STAT_STEP = 3 ∧ bit (t.get pCAL R.PG_IRQ_RAW) 3 = true ∧ t.calst = { s.calst with runDone := false } ∧
        s.regsBut t [(pCAL, R.CAL_STAT_STEP), (pCAL, R.PG_IRQ_RAW)] ∧ s.sameMemory t) ∧
      (s.get pCAL R.CAL_STAT_STEP = 2 → (s.calst.kind ≤ 2 → s.calst.flat = true) → s.calst.r1.length ≤ 2 ^ 20 →
        ∃ t, exec .calRunEnd s = .next t ∧ ∀ far : Prop, (far ↔ if 1 ≤ s.calst.kind ∧ s.calst.kind ≤ 3
            then s.get pCAL R.CAL_FRAC * t.get pCAL R.CAL_COMPARED < 65536 * t.get pCAL R.CAL_DISAG
            else t.get pCAL R.CAL_DISAG ≠ 0) →
          (far → t.calst.running = false ∧ t.get pCAL R.CAL_STAT_RESULT = 2 ∧ t.get pCAL R.CAL_STAT_STEP = 0 ∧
            t.get pCAL R.CAL_REJ_CNT = min (s.get pCAL R.CAL_REJ_CNT + 1) (2 ^ R.CAL_REJ_CNT.w - 1) ∧
            bit (t.get pCAL R.PG_IRQ_RAW) 4 = true ∧ (∀ q f, q ≠ pCAL → t.get q f = s.get q f) ∧ s.sameMemory t) ∧
          (¬ far → t.get pCAL R.CAL_STAT_RESULT = 1 ∧ bit (t.get pCAL R.PG_IRQ_RAW) 5 = true ∧
            ((t.calst.running = false ∧ bit (t.get pCAL R.PG_IRQ_RAW) 4 = true) ∨
              (t.calst.waitInstall ≠ none ∧ t.get pCAL R.CAL_STAT_STEP = 4)))) ∧
      (s.get pCAL R.CAL_STAT_STEP = 2 → s.calst.kind = 5 → s.calst.r1.length = 129 → s.calst.r2.length = 129 → ∀ same : Prop,
        (same ↔ s.calst.r1.getD 0 0 = s.calst.r2.getD 0 0 ∧ ∀ i < 129, 1 ≤ i →
          absAgree (s.get pCAL R.CAL_TOL_ABS) (s.calst.r1.getD i 0) (s.calst.r2.getD i 0) = true) →
        ∃ t, exec .calRunEnd s = .next t ∧ t.calst.running = false ∧ t.get pCAL R.CAL_COMPARED = 129 ∧ s.sameMemory t ∧
          (same → t.get pCAL R.CAL_STAT_RESULT = 1 ∧ t.get pCAL R.CAL_DISAG = 0 ∧ t.get pCAL R.CAL_LAST = 5 ∧
            t.get pCAL (calCnt 5) = (s.get pCAL (calCnt 5) + 1) % 2 ^ 32 ∧
            (s.fenced pHEADC = false → s.resetting pHEADC = false →
              t.get pHEADC R.HEADC_FIRE = s.calst.r2.getD 0 0 % 2 ^ R.HEADC_FIRE.w)) ∧
          (¬ same → t.get pCAL R.CAL_STAT_RESULT = 2)))

/-- The region of the line store that a record of a kind is installed in (R57, R295). -/
def calRegion (kind n : Nat) : Nat × Nat :=
  match kind with | 1 => (0x3000000, n) | 2 => (0x3400000, n) | 3 => (0x3A00000, n) | _ => (0, 0)

/-- FLAT_INSTALL, CAL_RECORD_IN and CAL. A FLAT that waits is installed once its port is disabled, with RESULT 1, its table in the port's region;
before, and with none waiting, nothing changes. Of the sink a whole valid record is installed and its CALNUM kept, one of the FIRE run in
progress is that run's data, and any other is refused with RESULT 4, as is a sink whose LEN fits no kind; with less than a record, or a
run's data waiting, nothing changes. A CAL message is installed and output where it is a valid FIRE record and CAL works, refused with RESULT
4 where it is an invalid one, and counted where it is of another kind; a fenced page keeps its registers. Only the region of the kind is
stored to (R48, R238, R289, R290, R292, R294 to R296).
The model's own choices in it: logs 48, 117. -/
def Obligations.CalibrationRecords : Prop :=
  (∀ s : State, (s.calst.waitInstall = none ∨ s.working pCAL = false ∨ s.enabled (pCAM (s.calst.kind - 1)) = true →
      exec .flatInstall s = .next s) ∧
    (∀ r, s.calst.waitInstall = some r → s.working pCAL = true → s.enabled (pCAM (s.calst.kind - 1)) = false →
      (byteAt r 1 = 1 ∨ byteAt r 1 = 2) → ∃ t, exec .flatInstall s = .next t ∧ t.calst.waitInstall = none ∧ t.calst.running = false ∧
        t.get pCAL R.CAL_STAT_STEP = 0 ∧ t.get pCAL R.CAL_STAT_RESULT = 1 ∧ t.get pCAL (calCnt (byteAt r 1)) = calNum r ∧
        (s.fenced pCHANT = false → t.get pCHANT R.CHANT_A0 = leAt (calBytes r) 0 2) ∧
        (s.fenced pCHANT = true → ∀ g, t.get pCHANT g = s.get pCHANT g) ∧
        (∀ i, i + 4 < (calBytes r).length →
          Memory.get t.lstore ((calRegion (byteAt r 1) 0).1 + i) = some ((calBytes r).getD (i + 4) 0)) ∧
        s.lsOnly t [calRegion (byteAt r 1) r.length])) ∧
  (∀ (s : State) (n : Nat) (l : List Byte), l = s.sinks.getD 0x33 [] → n = leAt l 4 4 →
    (s.working pCAL = false ∨ s.calst.runDone = true ∨ l.length < 8 ∨
        (n ∈ [calLen 1, calLen 3, calLen 4, calLen 5] ∧ l.length < n) → exec .calRecordIn s = .next s) ∧
    (s.working pCAL = true → s.calst.runDone = false → 8 ≤ l.length →
      (n ∉ [calLen 1, calLen 3, calLen 4, calLen 5] → ∃ t, exec .calRecordIn s = .next t ∧ t.sinks.getD 0x33 [] = [] ∧
        t.get pCAL R.CAL_REJ_CNT = min (s.get pCAL R.CAL_REJ_CNT + 1) (2 ^ R.CAL_REJ_CNT.w - 1) ∧ t.get pCAL R.CAL_STAT_RESULT = 4 ∧
        s.regsBut t [(pCAL, R.CAL_REJ_CNT), (pCAL, R.CAL_STAT_RESULT)] ∧ s.sameMemory t) ∧
      (n ∈ [calLen 1, calLen 3, calLen 4, calLen 5] → n ≤ l.length → ∀ (valid run : Bool) (v : List Nat),
        valid = calValid (l.take n) (byteAt l 1) 0 →
        run = (s.calst.running && s.calst.kind == 5 && (s.get pCAL R.CAL_STAT_STEP == 1 || s.get pCAL R.CAL_STAT_STEP == 2) &&
          calValid (l.take n) 5 (s.get pCAL R.CAL_STAT_STEP)) →
        v = leAt l 32 2 :: (List.range 128).map (fun h => leAt l (36 + 2 * h) 2) →
        ∃ t, exec .calRecordIn s = .next t ∧ t.sinks.getD 0x33 [] = l.drop n ∧
          (valid = true → t.get pCAL (calCnt (byteAt l 1)) = calNum l ∧ s.lsOnly t [calRegion (byteAt l 1) n] ∧
            (byteAt l 1 = 5 → s.fenced pHEADC = false → s.resetting pHEADC = false →
              t.get pHEADC R.HEADC_FIRE = leAt l 32 2 % 2 ^ R.HEADC_FIRE.w)) ∧
          (valid = false → run = true → t.calst.runDone = true ∧
            (s.get pCAL R.CAL_STAT_STEP = 1 → t.calst.r1 = v ∧ t.calst.r2 = s.calst.r2) ∧
            (s.get pCAL R.CAL_STAT_STEP = 2 → t.calst.r2 = v ∧ t.calst.r1 = s.calst.r1) ∧
            ({ t with calst := s.calst, sinks := s.sinks } : State) = s) ∧
          (valid = false → run = false →
            t.get pCAL R.CAL_REJ_CNT = min (s.get pCAL R.CAL_REJ_CNT + 1) (2 ^ R.CAL_REJ_CNT.w - 1) ∧ t.get pCAL R.CAL_STAT_RESULT = 4 ∧
            s.regsBut t [(pCAL, R.CAL_REJ_CNT), (pCAL, R.CAL_STAT_RESULT)] ∧ ({ t with regs := s.regs, sinks := s.sinks } : State) = s)))) ∧
  (∀ (s : State) (hd : CrookHdr) (r : List Byte) (u : State), s.hearsCmd hd → u = s.noted hd →
    ∃ t, exec (.calMessage hd r) s = .next t ∧ t.pair.peerCam = (if s.straps.home then none else some s.tick) ∧ s.sameMemory t ∧
    (byteAt r 1 ≠ 5 → t.get pPAIR R.PAIR_BAD_CNT = min (s.get pPAIR R.PAIR_BAD_CNT + 1) (2 ^ R.PAIR_BAD_CNT.w - 1) ∧
      u.regsBut t [(pPAIR, R.PAIR_BAD_CNT)]) ∧
    (byteAt r 1 = 5 → s.working pCAL = true → calValid r 5 0 = true → t.get pCAL (calCnt 5) = calNum r ∧
      (s.fenced pHEADC = false → s.resetting pHEADC = false →
        t.get pHEADC R.HEADC_FIRE = leAt (calBytes r) 0 2 % 2 ^ R.HEADC_FIRE.w) ∧ bit (t.get pCAL R.PG_IRQ_RAW) 5 = true ∧
      t.queues.getD 0x33 [] = s.queues.getD 0x33 [] ++ [{ bytes := r, last := true }]) ∧
    (byteAt r 1 = 5 → (s.working pCAL = false ∨ calValid r 5 0 = false) →
      (s.fenced pCAL = true → ∀ q g, t.get q g = u.get q g) ∧
      (s.fenced pCAL = false → t.get pCAL R.CAL_REJ_CNT = min (s.get pCAL R.CAL_REJ_CNT + 1) (2 ^ R.CAL_REJ_CNT.w - 1) ∧
        t.get pCAL R.CAL_STAT_RESULT = 4 ∧ u.regsBut t [(pCAL, R.CAL_REJ_CNT), (pCAL, R.CAL_STAT_RESULT)])))


/-! ### DRAM in service and the scrubber (R300 to R327) -/

/-- Nothing waits for DRAM: no request, doorbell, acknowledgement, channel, job engine or decoder. -/
def nothingWaits (s : State) : Prop :=
  s.dramWait = [] ∧ s.bells = [] ∧ s.ackDue = [] ∧ s.dma = [] ∧ s.job = [] ∧ s.dec = []
/-- The fields that an activate may change (R321, R322). -/
def rowFields : List (Nat × Fld) :=
  [(pDRAMC, R.DRAMC_RH_LAST_TRR), (pDRAMC, R.DRAMC_RH_LAST_BANK), (pDRAMC, R.DRAMC_RH_LAST_RANK), (pDRAMC, R.DRAMC_RH_LAST_CH),
   (pDRAMC, R.DRAMC_RH_LAST_REQ), (pDRAMC, R.DRAMC_RH_ROW), (pDRAMC, R.DRAMC_TRR_CNT), (pDRAMC, R.DRAMC_THR_CNT), (pDRAMC, R.PG_IRQ_RAW)]
/-- What the commands of channel c's retry buffer do when they are issued again: each write stores the burst it carried, and no other byte or
check symbol changes (R314). -/
def retryStores (s t : State) (c : Nat) : Prop :=
  t.pending = s.pending ∧ t.lstore = s.lstore ∧ t.flash = s.flash ∧
    (∀ k, (∀ x ∈ (s.dramAt c).retry, ∀ e, x.data = some e → k < dramKey c x.rank x.off ∨ dramKey c x.rank x.off + e.1.length ≤ k) →
      Memory.get t.dramMem k = Memory.get s.dramMem k) ∧
    (∀ k, (∀ x ∈ (s.dramAt c).retry, ∀ e, x.data = some e → k < chkKey c x.rank x.off 0 ∨ chkKey c x.rank x.off 0 + e.2.length ≤ k) →
      Memory.get t.dramChk k = Memory.get s.dramChk k) ∧
    (∀ x d e, (s.dramAt c).retry = [x] → x.refresh = false → x.data = some (d, e) →
      (∀ i < d.length, Memory.get t.dramMem (dramKey c x.rank x.off + i) = d[i]?) ∧
      ∀ i < e.length, Memory.get t.dramChk (chkKey c x.rank x.off 0 + i) = (e.map (BitVec.ofNat 8))[i]?)
/-- A failed replay: the channel retrains, recorded with code 0x91 and counted (R313, R315). -/
def channelFails (s t : State) (c : Nat) : Prop :=
  (t.dramAt c).alert = none ∧ (t.dramAt c).tries = 0 ∧ (t.dramAt c).pause.map (·.1) = some 2 ∧
    t.get (pDRAM c) R.DRAM_PAR_FAIL = min (s.get (pDRAM c) R.DRAM_PAR_FAIL + 1) (2 ^ R.DRAM_PAR_FAIL.w - 1) ∧
    (s.fenceSound → bit (t.get (pDRAM c) R.PG_IRQ_RAW) 1 = true)

/-- So many refreshes of a rank are issued: they stand in the retry buffer, newest first, before what the buffer still holds (R314, R318). -/
def refreshes (s t : State) (c rank n : Nat) : Prop :=
  (n = 0 → (t.dramAt c).retry = (s.dramAt c).retry) ∧
  (n ≠ 0 → (t.dramAt c).retry =
    List.replicate n ({ at_ := s.tick, addr := 0, req := 0, rank := rank, off := 0, refresh := true } : RetryCmd) ++
      (s.dramAt c).retry.filter fun x => decide (s.tick ≤ x.at_ + s.retryTicks))

/-- ALERT_N, REPLAY, ALERT_TIMEOUT, RECENTRING_END, REFRESH, RETRAIN_PAUSE, DIMM_TEMPERATURE_READ and TRACKER_CLEAR. ALERT_n stops a trained channel
and keeps the commands of the last 128 DRAM clocks. A replay counts and records it with code 0x90 and ends it; drawn again, or with ALERT_n low
too long, another is tried until the attempts are spent, when the channel pauses for retraining and, in SERVICE, the rank is retired, or
the unit that migration was writing becomes poison. A replay stores the writes it repeats and no more. A pause ends, that of a failed
replay with the commands of the buffer issued again; a failed one is recorded. A due refresh of a channel in service is issued with those
postponed, postponed under panic, or forced as the ninth, and the commands issued stand in the retry buffer; a due recentring pauses its
channel; the hottest DIMM sets the refresh rate; all trackers clear every 64 ms. A request that waited is served when the channel goes on.
In every other case nothing changes (R313 to R316, R318 to R322).
The model's own choices in it: logs 2, 8, 49, 50, 52. -/
def Obligations.DramChannelEvents : Prop :=
  ∀ (s : State) (c : DramCh),
    ((s.dramAt c).trained = false ∨ (s.dramAt c).alert ≠ none → exec (.alertN c) s = .next s) ∧
    ((s.dramAt c).trained = true → (s.dramAt c).alert = none → ∃ t, exec (.alertN c) s = .next t ∧
      t.dramAt c = { s.dramAt c with
        alert := some s.tick, tries := 0, retry := (s.dramAt c).retry.filter fun x => decide (s.tick ≤ x.at_ + s.retryTicks) } ∧
      (∀ n, n ≠ c.val → t.dramAt n = s.dramAt n) ∧ ({ t with dram := s.dram } : State) = s) ∧
    ((s.dramAt c).alert = none → ∀ again, exec (.replay c again) s = .next s ∧ exec (.alertTimeout c) s = .next s) ∧
    (∀ u again, (s.dramAt c).alert = some u → ∃ t, exec (.replay c again) s = .next t ∧
      t.get (pDRAM c) R.DRAM_PAR_CNT = min (s.get (pDRAM c) R.DRAM_PAR_CNT + 1) (2 ^ R.DRAM_PAR_CNT.w - 1) ∧
      (s.fenceSound → bit (t.get (pDRAM c) R.PG_IRQ_RAW) 6 = true ∧ bit (t.get (pDRAM c) R.PG_IRQ_RAW) 1 = true ∧
        (s.get (pDRAM c) R.PG_ERR_CNT = 0 → t.get (pDRAM c) R.PG_ERR_INFO_CODE = 0x90)) ∧
      (again = false → (t.dramAt c).alert = none ∧ (t.dramAt c).tries = 0) ∧
      (again = true → (s.dramAt c).tries + 1 < max 1 (s.get (pDRAM c) R.DRAM_PAR_CFG) →
        (t.dramAt c).alert = some s.tick ∧ (t.dramAt c).tries = (s.dramAt c).tries + 1) ∧
      (again = true → max 1 (s.get (pDRAM c) R.DRAM_PAR_CFG) ≤ (s.dramAt c).tries + 1 → channelFails s t c) ∧
      ((again = true → (s.dramAt c).tries + 1 < max 1 (s.get (pDRAM c) R.DRAM_PAR_CFG)) → (again = false → nothingWaits s) →
        s.regsBut t ((pDRAM c, R.DRAM_PAR_CNT) :: (rowFields ++ errFields pDRAMC ++ errFields (pDRAM c))) ∧
        retryStores s t c)) ∧
    (∀ u, (s.dramAt c).alert = some u →
      (s.tick < u + usTicks 2 → exec (.alertTimeout c) s = .next s) ∧
      (u + usTicks 2 ≤ s.tick →
        ((s.dramAt c).tries + 1 < max 1 (s.get (pDRAM c) R.DRAM_PAR_CFG) → ∃ t, exec (.alertTimeout c) s = .next t ∧
          t.dramAt c = { s.dramAt c with alert := some s.tick, tries := (s.dramAt c).tries + 1 } ∧
          (∀ n, n ≠ c.val → t.dramAt n = s.dramAt n) ∧ ({ t with dram := s.dram } : State) = s) ∧
        (max 1 (s.get (pDRAM c) R.DRAM_PAR_CFG) ≤ (s.dramAt c).tries + 1 → ∃ t, exec (.alertTimeout c) s = .next t ∧
          channelFails s t c ∧ (s.fenceSound → s.get (pDRAM c) R.PG_ERR_CNT = 0 → t.get (pDRAM c) R.PG_ERR_INFO_CODE = 0x91) ∧
          (∀ x, (s.dramAt c).retry.getLast? = some x → x.refresh = true ∨ x.req ≠ 0x50 → s.sameMemory t ∧
            (x.refresh = false → s.get pDRAMC R.DRAMC_CFG_MODE = 1 → s.canRetire c x.rank = true →
              (t.dramAt c).mig = some ((s.dramPlace x.addr).2.1, x.rank, s.get (pDRAM c) R.DRAM_RMAP_SPR) ∧ t.migPtr c = 0) ∧
            (∀ lr, x.refresh = true → s.rankServes c x.rank = some lr → s.get pDRAMC R.DRAMC_CFG_MODE = 1 → s.canRetire c x.rank = true →
              (t.dramAt c).mig = some (lr, x.rank, s.get (pDRAM c) R.DRAM_RMAP_SPR) ∧ t.migPtr c = 0) ∧
            (s.get pDRAMC R.DRAMC_CFG_MODE ≠ 1 → (t.dramAt c).mig = (s.dramAt c).mig)) ∧
          (∀ x lr f p, (s.dramAt c).retry.getLast? = some x → x.refresh = false → x.req = 0x50 → (s.dramAt c).mig = some (lr, f, p) →
            (t.dramAt c).mig = some (lr, f, p) ∧
            t.get (pDRAM c) R.DRAM_MIG_POISON = min (s.get (pDRAM c) R.DRAM_MIG_POISON + 1) (2 ^ R.DRAM_MIG_POISON.w - 1) ∧
            ∀ i < 64, Memory.get t.dramMem (dramKey c p x.off + i) = some 0)))) ∧
    (∀ ok, ((s.dramAt c).pause = none → exec (.recentringEnd c ok) s = .next s) ∧
      (∀ k r, (s.dramAt c).pause = some (k, r) → ∃ t, exec (.recentringEnd c ok) s = .next t ∧ (t.dramAt c).pause = none ∧
        (ok = false → (s.fenceSound → bit (t.get (pDRAM c) R.PG_IRQ_RAW) 1 = true ∧
            (s.get (pDRAM c) R.PG_ERR_CNT = 0 → t.get (pDRAM c) R.PG_ERR_INFO_CODE = 0x93)) ∧
          (k = 1 → t.get (pDRAM c) R.DRAM_TRAIN_FAIL = min (s.get (pDRAM c) R.DRAM_TRAIN_FAIL + 1) (2 ^ R.DRAM_TRAIN_FAIL.w - 1))) ∧
        (nothingWaits s → (∀ n, n ≠ c.val → t.dramAt n = s.dramAt n) ∧
          (k ≠ 2 → t.dramAt c = { s.dramAt c with pause := none } ∧ (ok = true → s.regsBut t []) ∧
            s.regsBut t ((pDRAM c, R.DRAM_TRAIN_FAIL) :: (errFields pDRAMC ++ errFields (pDRAM c))) ∧
            ({ t with regs := s.regs, dram := s.dram, host := s.host } : State) = s) ∧
          (k = 2 → retryStores s t c ∧ s.regsBut t (rowFields ++ errFields pDRAMC ++ errFields (pDRAM c)) ∧
            (t.dramAt c).retry = (s.dramAt c).retry.map fun x => { x with at_ := s.tick })) ∧
        (∀ a q l, s.dramWait = [.write a q l] → s.bells = [] → s.ackDue = [] → s.dma = [] → s.job = [] → s.dec = [] → ok = true → k ≠ 2 →
          (s.updDram c fun d => { d with pause := none }).dramFree a l.length q = true →
          t.dramWait = [] ∧ s.dramStores t (burstsOf a l.length)))) ∧
    (∀ (r : Fin 4) (due : Nat), due = (s.dramAt c).lastRef.getD r 0 + (if (s.dramAt c).hot then nsTicks 3900 else nsTicks 7800) →
      (s.chServes c = false ∨ s.ranks ≤ r.val ∨ s.rankState c r = 3 ∨ s.tick < due → exec (.refresh c r) s = .next s) ∧
      (s.chServes c = true → r.val < s.ranks → s.rankState c r ≠ 3 → due ≤ s.tick →
        ∃ t, exec (.refresh c r) s = .next t ∧ (t.dramAt c).lastRef.getD r 0 = s.tick ∧
        (∀ i, i ≠ r.val → (t.dramAt c).lastRef.getD i 0 = (s.dramAt c).lastRef.getD i 0 ∧
          (t.dramAt c).postponed.getD i 0 = (s.dramAt c).postponed.getD i 0) ∧ (∀ n, n ≠ c.val → t.dramAt n = s.dramAt n) ∧
        ({ t.dramAt c with lastRef := (s.dramAt c).lastRef, postponed := (s.dramAt c).postponed, retry := (s.dramAt c).retry } : DramSt) =
          s.dramAt c ∧
        (s.anyPanic = false → (t.dramAt c).postponed.getD r 0 = 0 ∧ refreshes s t c r ((s.dramAt c).postponed.getD r 0 + 1) ∧
          ({ t with dram := s.dram } : State) = s) ∧
        (s.anyPanic = true → (s.dramAt c).postponed.getD r 0 < 8 → refreshes s t c r 0 ∧
          (t.dramAt c).postponed.getD r 0 = (s.dramAt c).postponed.getD r 0 + 1 ∧ ({ t with dram := s.dram } : State) = s) ∧
        (s.anyPanic = true → 8 ≤ (s.dramAt c).postponed.getD r 0 → refreshes s t c r 1 ∧
          (t.dramAt c).postponed.getD r 0 = (s.dramAt c).postponed.getD r 0 ∧
          t.get pDRAMC R.DRAMC_FREF_CNT = min (s.get pDRAMC R.DRAMC_FREF_CNT + 1) (2 ^ R.DRAMC_FREF_CNT.w - 1) ∧
          s.regsBut t [(pDRAMC, R.DRAMC_FREF_CNT)] ∧ ({ t with regs := s.regs, dram := s.dram } : State) = s))) ∧
    (∀ (r : Fin 4) (can : Prop), (can ↔ (s.dramAt c).trained = true ∧ s.flag pDRAMC R.DRAMC_RETRAIN_EN = true ∧ r.val < s.ranks ∧
        s.rankState c r ≠ 3 ∧ (s.dramAt c).alert = none ∧ (s.dramAt c).pause = none ∧
        (s.dramAt c).lastRetrain.getD r 0 + msTicks (max 1 (s.get pDRAMC R.DRAMC_RETRAIN_PER)) ≤ s.tick ∧ s.anyPanic = false ∧
        ∀ b < 8, s.breathIncl b = true → s.get pDRAMC R.DRAMC_RT_PAUSE_LINES ≤ s.decAhead b) →
      (¬ can → exec (.retrainPause c r) s = .next s) ∧
      (can → ∃ t, exec (.retrainPause c r) s = .next t ∧ (t.dramAt c).pause = some (1, r.val) ∧
        (t.dramAt c).lastRetrain.getD r 0 = s.tick ∧ (∀ n, n ≠ c.val → t.dramAt n = s.dramAt n) ∧
        t.get (pDRAM c) R.DRAM_TRAIN_CNT = (s.get (pDRAM c) R.DRAM_TRAIN_CNT + 1) % 2 ^ R.DRAM_TRAIN_CNT.w ∧
        s.regsBut t [(pDRAM c, R.DRAM_TRAIN_CNT)] ∧ ({ t with regs := s.regs, dram := s.dram } : State) = s)) ∧
    (∀ x : BitVec 16, ((s.dramAt c).trained = true → ∃ t, exec (.dimmTemperatureRead c x) s = .next t ∧
        t.dramAt c = { s.dramAt c with hot := decide (1360 < x.toInt) } ∧ (∀ n, n ≠ c.val → t.dramAt n = s.dramAt n) ∧
        ({ t with dram := s.dram } : State) = s) ∧
      ((s.dramAt c).trained = false → exec (.dimmTemperatureRead c x) s = .next s)) ∧
    (s.tick < s.trackClear + msTicks 64 → exec .trackerClear s = .next s) ∧
    (s.trackClear + msTicks 64 ≤ s.tick → ∃ t, exec .trackerClear s = .next t ∧ t.trackClear = s.trackClear + msTicks 64 ∧
      t.dramAt c = { s.dramAt c with trackers := [], throttled := [] } ∧
      ({ t with trackClear := s.trackClear, dram := s.dram } : State) = s)

/-- DRAM_MIG_CMD, MIGRATION_COPY_UNIT, SPARE_WRITE, SCRUB_GO, SCRUB_STOP and SCRUB_UNIT. A rank named by DRAM_MIG_CMD migrates to the spare where it
may, and nothing happens where it may not. A unit of the copy waits for its channel; it stores one burst of the spare, the data read or
poison, and the last one switches the map. SPARE decides the logical ranks and, where it changes, the maps. A scrub pass starts with its
counters at 0, or is refused, or does nothing while one runs or EN is 0; one of no length is done at once; STOP ends it. A due unit is read,
counted by what it holds and, only where a byte was corrected, written back; the last one ends the pass with RESULT 1. A unit that is not
due or not served changes nothing (R302, R305, R311, R312, R316, R317, R322, R323).
The model's own choices in it: logs 2, 51, 74, 85. -/
def Obligations.MigrationAndScrubbing : Prop :=
  ∀ (s : State) (c : DramCh),
    (∀ (lr : BitVec 2) (can : Prop), s.accepts (pDRAM c) 0x48 (2 ^ 31 + lr.toNat) →
      (can ↔ (s.get pDRAMC R.DRAMC_CFG_MODE = 1 ∨ s.get pDRAMC R.DRAMC_CFG_MODE = 2) ∧ lr.toNat < s.logRanks ∧
        s.canRetire c (s.rmap c lr.toNat) = true) →
      (¬ can → exec (.dramMigCmd c lr) s = .next s) ∧
      (can → ∃ t, exec (.dramMigCmd c lr) s = .next t ∧
        t.dramAt c = { s.dramAt c with mig := some (lr.toNat, s.rmap c lr.toNat, s.get (pDRAM c) R.DRAM_RMAP_SPR) } ∧ t.migPtr c = 0 ∧
        t.rankState c (s.rmap c lr.toNat) = 2 ∧ bit (t.get (pDRAM c) R.PG_IRQ_RAW) 4 = true ∧
        (s.get (pDRAM c) R.PG_ERR_CNT = 0 → t.get (pDRAM c) R.PG_ERR_INFO_CODE = 0x92) ∧
        s.regsBut t ([(pDRAM c, R.DRAM_RSTAT), (pDRAM c, R.DRAM_MIG_PTR_LO), (pDRAM c, R.DRAM_MIG_PTR_HI)] ++ errFields pDRAMC ++
          errFields (pDRAM c)) ∧ (∀ n, n ≠ c.val → t.dramAt n = s.dramAt n) ∧
        ({ t with regs := s.regs, dram := s.dram, host := s.host } : State) = s)) ∧
    ((s.dramAt c).mig = none → exec (.migrationCopyUnit c) s = .next s) ∧
    (∀ lr f p o, (s.dramAt c).mig = some (lr, f, p) → o = s.migPtr c →
      (s.chServes c = false ∨ s.rowHeld c f o 0x50 = true ∨ s.rowHeld c p o 0x50 = true ∨ s.decFirst (List.range 8) [c.val] = true ∨
        s.waitAhead 4 [c.val] = true ∨ s.dmaAhead 4 [c.val] = true → exec (.migrationCopyUnit c) s = .next s) ∧
      (s.chServes c = true → s.rowHeld c f o 0x50 = false → s.rowHeld c p o 0x50 = false → s.decFirst (List.range 8) [c.val] = false →
        s.waitAhead 4 [c.val] = false → s.dmaAhead 4 [c.val] = false → ∃ t, exec (.migrationCopyUnit c) s = .next t ∧
        (∀ d, s.lookBurst c f o = .clean d ∨ s.lookBurst c f o = .corrected d →
          ∀ i < 64, Memory.get t.dramMem (dramKey c p o + i) = d[i]?) ∧
        (s.lookBurst c f o = .bad ∨ s.lookBurst c f o = .poison → (∀ i < 64, Memory.get t.dramMem (dramKey c p o + i) = some 0) ∧
          t.get (pDRAM c) R.DRAM_MIG_POISON = min (s.get (pDRAM c) R.DRAM_MIG_POISON + 1) (2 ^ R.DRAM_MIG_POISON.w - 1)) ∧
        t.migPtr c = (o + 64) % 2 ^ 35 ∧
        (o + 64 < 2 ^ s.geo.rankLog2 → (t.dramAt c).mig = some (lr, f, p)) ∧
        (2 ^ s.geo.rankLog2 ≤ o + 64 → (t.dramAt c).mig = none ∧ (s.fenceSound → bit (t.get (pDRAM c) R.PG_IRQ_RAW) 5 = true) ∧
          t.get (pDRAM c) R.DRAM_RMAP_SPV = 0 ∧ (lr < 4 → p < 4 → t.rmap c lr = p)) ∧
        t.pending = s.pending ∧ t.lstore = s.lstore ∧ t.flash = s.flash ∧
        (∀ k, (k < dramKey c p o ∨ dramKey c p o + 64 ≤ k) → Memory.get t.dramMem k = Memory.get s.dramMem k) ∧
        (∀ k, (k < chkKey c p o 0 ∨ chkKey c p o 8 ≤ k) → Memory.get t.dramChk k = Memory.get s.dramChk k))) ∧
    (∀ spare : Bool, s.get pDRAMC R.DRAMC_CFG_MODE < 4 → s.accepts pDRAMC 0x40 (16 * b2n spare + s.get pDRAMC R.DRAMC_CFG_MODE) →
      ∃ t, exec (.spareWrite spare) s = .next t ∧ t.get pDRAMC R.DRAMC_CFG_SPARE = b2n spare ∧
        t.get pDRAMC R.DRAMC_CFG_MODE = s.get pDRAMC R.DRAMC_CFG_MODE ∧
        t.logRanks = (if spare && decide (2 ≤ s.ranks) then s.ranks - 1 else s.ranks) ∧
        (s.get pDRAMC R.DRAMC_CFG_SPARE = b2n spare → s.regsBut t []) ∧
        (s.get pDRAMC R.DRAMC_CFG_SPARE ≠ b2n spare → t.get (pDRAM c) R.DRAM_RMAP_SPV = b2n (spare && decide (2 ≤ s.ranks)) ∧
          (∀ lr < 4, lr < t.logRanks → t.rmap c lr = lr) ∧
          t.get pDRAMC R.DRAMC_SIZE_LO = 4 * t.logRanks * 2 ^ s.geo.rankLog2 % 2 ^ 32) ∧ ({ t with regs := s.regs } : State) = s) ∧
    (∀ mem : Bool, s.accepts pSCRUB 0x40 (2 ^ 31 + b2n mem) →
      (s.scrub.busy = true ∨ s.enabled pSCRUB = false → ∃ t, exec (.scrubGo mem) s = .next t ∧ t.get pSCRUB R.SCRUB_CTRL_MEM = b2n mem ∧
        s.regsBut t [(pSCRUB, R.SCRUB_CTRL_MEM)] ∧ ({ t with regs := s.regs } : State) = s) ∧
      (s.enabled pSCRUB = true → s.scrub.busy = false → ∀ a n size, a = s.get64 pSCRUB R.SCRUB_START_LO R.SCRUB_START_HI →
        n = s.get64 pSCRUB R.SCRUB_LEN_LO R.SCRUB_LEN_HI → size = (if mem then s.dramSize else lsSize) →
        ∃ t, exec (.scrubGo mem) s = .next t ∧ t.get pSCRUB R.SCRUB_DONE_LO = 0 ∧ t.get pSCRUB R.SCRUB_CORR = 0 ∧
        t.get pSCRUB R.SCRUB_UNC = 0 ∧ t.get pSCRUB R.SCRUB_POISON = 0 ∧ t.get pSCRUB R.SCRUB_CTRL_MEM = b2n mem ∧ s.sameMemory t ∧
        (size < a + n → t.get pSCRUB R.SCRUB_STAT_RESULT = 2 ∧ t.scrub = s.scrub ∧
          t.get pSCRUB R.SCRUB_STAT_BUSY = s.get pSCRUB R.SCRUB_STAT_BUSY) ∧
        (a + n ≤ size → n ≠ 0 → t.scrub = { busy := true, mem := mem, start := a, len := n, pos := 0, lastTick := s.tick } ∧
          t.get pSCRUB R.SCRUB_STAT_BUSY = 1 ∧ t.get pSCRUB R.SCRUB_STAT_RESULT = 0) ∧
        (a + n ≤ size → n = 0 → t.scrub.busy = false ∧ t.get pSCRUB R.SCRUB_STAT_BUSY = 0 ∧ t.get pSCRUB R.SCRUB_STAT_RESULT = 1 ∧
          bit (t.get pSCRUB R.PG_IRQ_RAW) 3 = true))) ∧
    (s.accepts pSCRUB 0x40 (2 ^ 30 + s.get pSCRUB R.SCRUB_CTRL_MEM) → s.get pSCRUB R.SCRUB_CTRL_MEM < 2 →
      (s.scrub.busy = true → ∃ t, exec .scrubStop s = .next t ∧ t.scrub = { s.scrub with busy := false } ∧
        t.get pSCRUB R.SCRUB_STAT_BUSY = 0 ∧ t.get pSCRUB R.SCRUB_STAT_RESULT = 3 ∧ bit (t.get pSCRUB R.PG_IRQ_RAW) 3 = true ∧
        s.regsBut t [(pSCRUB, R.SCRUB_STAT_BUSY), (pSCRUB, R.SCRUB_STAT_RESULT), (pSCRUB, R.PG_IRQ_RAW)] ∧
        ({ t with regs := s.regs, scrub := s.scrub, host := s.host } : State) = s) ∧
      (s.scrub.busy = false → ∃ t, exec .scrubStop s = .next t ∧ s.regsBut t [] ∧ ({ t with regs := s.regs } : State) = s)) ∧
    (∀ (a : Nat) (due : Prop), a = s.scrub.start + s.scrub.pos →
      (due ↔ s.scrub.busy = true ∧ s.enabled pSCRUB = true ∧ s.scrub.lastTick + max 1 (s.get pSCRUB R.SCRUB_GAP) ≤ s.tick ∧
        (s.scrub.mem = true → s.dramServed 5 a 64 0x4F = true)) →
      (¬ due → exec .scrubUnit s = .next s) ∧
      (due → ∃ t, exec .scrubUnit s = .next t ∧ t.get pSCRUB R.SCRUB_DONE_LO = (s.scrub.pos + 64) % 2 ^ 32 ∧
        t.scrub.pos = s.scrub.pos + 64 ∧ t.scrub.lastTick = s.tick ∧
        (s.scrub.len ≤ s.scrub.pos + 64 → t.scrub.busy = false ∧ t.get pSCRUB R.SCRUB_STAT_RESULT = 1 ∧
          (s.fenceSound → bit (t.get pSCRUB R.PG_IRQ_RAW) 3 = true)) ∧
        (s.scrub.pos + 64 < s.scrub.len → t.scrub.busy = true) ∧
        (s.scrub.mem = false →
          ((∃ i < 64, 2 ≤ (s.lsLook (a + i)).2) →
            t.get pSCRUB R.SCRUB_UNC = min (s.get pSCRUB R.SCRUB_UNC + 1) (2 ^ 32 - 1) ∧ t.lstore = s.lstore) ∧
          ((∀ i < 64, (s.lsLook (a + i)).2 < 2) → (∃ i < 64, (s.lsLook (a + i)).2 = 1) →
            t.get pSCRUB R.SCRUB_CORR = min (s.get pSCRUB R.SCRUB_CORR + 1) (2 ^ 32 - 1)) ∧
          ((∀ i < 64, (s.lsLook (a + i)).2 = 0) → t.lstore = s.lstore) ∧ s.lsOnly t [(a, 64)]) ∧
        (s.scrub.mem = true → ∀ q, q = s.lookBurst (s.dramPlace a).1
            (s.physRank (s.dramPlace a).1 (s.dramPlace a).2.1 (s.dramPlace a).2.2) (s.dramPlace a).2.2 →
          (∀ d, q = .corrected d → t.get pSCRUB R.SCRUB_CORR = min (s.get pSCRUB R.SCRUB_CORR + 1) (2 ^ 32 - 1)) ∧
          (q = .bad → t.get pSCRUB R.SCRUB_UNC = min (s.get pSCRUB R.SCRUB_UNC + 1) (2 ^ 32 - 1)) ∧
          (q = .poison → t.get pSCRUB R.SCRUB_POISON = min (s.get pSCRUB R.SCRUB_POISON + 1) (2 ^ 32 - 1)) ∧
          ((∀ d, q ≠ .corrected d) → s.sameMemory t) ∧ s.dramStores t [a])))

/-! ### Serial lanes (R328 to R343) -/

/-- The queue, the line store and the flash stand, and so does DRAM but for the job records of the affected lines that a head lane's
channel had ready (R185, R341). -/
def laneMemory (s t : State) (l : Nat) : Prop :=
  t.lstore = s.lstore ∧ s.recordsOnly t [] ∧
    ((128 ≤ l ∨ (s.headAt l).ready = []) → t.dramMem = s.dramMem ∧ t.dramChk = s.dramChk)
/-- A page may fence now: it is not fenced, not held, and in no soft reset (R47, R384). -/
def mayFence (s : State) (p : Nat) : Prop := s.fenced p = false ∧ s.held p = false ∧ s.srsts.has p = false
/-- A lane fences with a reason, and a head lane's channel with it; a head lane sends no frame or FIRE that has not started (R340, R341). -/
def laneFences (s t : State) (l reason : Nat) : Prop :=
  (t.laneAt l).st = 1 ∧ laneMemory s t l ∧ (l < 128 ∨ 132 ≤ l → mayFence s (pLANE l) →
    t.fenced (pLANE l) = true ∧ t.get (pLANE l) R.PG_FENCE_REASON = reason ∧
    (l < 128 → (t.headAt l).ready = [] ∧ (t.headAt l).cur = (s.headAt l).cur.map fun f => { f with noFire := true }) ∧
    (l < 128 → mayFence s (pHEAD l) → t.fenced (pHEAD l) = true ∧ t.get (pHEAD l) R.PG_FENCE_REASON = reason))
/-- A search has failed: DOWN, after whole rounds of positions, with code 0x23 and cause 6 (R332). -/
def searchFails (s t : State) (l : Nat) : Prop :=
  (t.laneAt l).st = 1 ∧ (t.laneAt l).slip = ((s.laneAt l).slip + (s.laneAt l).stepsLeft) % 66 ∧
    bit (t.get (pLANE l) R.PG_IRQ_RAW) 6 = true ∧ bit (t.get (pLANE l) R.PG_IRQ_RAW) 1 = true ∧
    t.get (pLANE l) R.PG_ERR_CNT = min (s.get (pLANE l) R.PG_ERR_CNT + 1) (2 ^ R.PG_ERR_CNT.w - 1) ∧
    (s.get (pLANE l) R.PG_ERR_CNT = 0 → t.get (pLANE l) R.PG_ERR_INFO_CODE = 0x23) ∧ s.sameMemory t

/-- LANE_CMD_SLIP, LANE_CMD_SEARCH, SEARCH_END, BLOCK_LOCK, BLOCK_LOCK_LOSS, CDR_LOSS and EXIT_TIMEOUT. SLIP and SEARCH on a head or Crook lane that may slip
move the position or start the search, and on a feed lane change nothing. A search ends UP at its position, once the positions before it and the 66 blocks there can have
passed, or DOWN with code 0x23, once every position can have been tried; an invalid header moves it on. A lock makes a lane that waits for
it UP, in EXIT only within 4 × BURST blocks. Without lock a run of valid headers goes on, 63 at most. Invalid headers are counted while UP
and begin the run anew; 16 of 64 lose the lock. A lane that loses its lock, its clock or its exit leaves UP and fences its page and its
channel, each with its own code; a loss of clock in the core cycle of such a fence joins it. What fits no such case, on a lane that does
not work, changes nothing (R110, R330 to R334, R340, R341, R384).
The model's own choices in it: logs 2, 14, 55, 84. -/
def Obligations.LaneLock : Prop :=
  ∀ (s : State) (l : Lane) (x : LaneSt), x = s.laneAt l →
    (∀ n : BitVec 7, s.accepts (pLANE l) 0x50 n.toNat →
      (laneSlips l = true → 1 ≤ n.toNat → n.toNat ≤ 65 → x.st ∈ [1, 3, 4] → ∃ t, exec (.laneCmdSlip l n) s = .next t ∧
        (t.laneAt l).slip = (x.slip + n.toNat) % 66 ∧ (t.laneAt l).block = false ∧ (t.laneAt l).good = 0 ∧
        (t.laneAt l).st = (if x.st = 3 then 1 else x.st) ∧ (x.st = 3 → bit (t.get (pLANE l) R.PG_IRQ_RAW) 4 = true) ∧
        (s.straps.pairEn = false → s.regsBut t [(pLANE l, R.PG_IRQ_RAW)] ∧
          ({ t with regs := s.regs, lane := s.lane, head := s.head, calst := s.calst, host := s.host } : State) = s) ∧ s.sameMemory t) ∧
      ((n = 0 ∨ 65 < n.toNat ∨ x.st ∉ [1, 3, 4] ∨ laneSlips l = false) → exec (.laneCmdSlip l n) s = .next s)) ∧
    (s.accepts (pLANE l) 0x50 (2 ^ 31) →
      (laneSlips l = true → (x.st = 1 ∨ x.st = 3) → ∃ t, exec (.laneCmdSearch l) s = .next t ∧ (t.laneAt l).st = 2 ∧
        (t.laneAt l).block = false ∧ (t.laneAt l).bootSearch = false ∧ (t.laneAt l).slip = x.slip ∧ (t.laneAt l).stepAt = s.tick ∧
        (t.laneAt l).stepsLeft = 66 * max 1 (s.get (pLANE l) R.LANE_SYNC_TRIES) ∧ s.sameMemory t) ∧
      (laneSlips l = false ∨ (x.st ≠ 1 ∧ x.st ≠ 3) → exec (.laneCmdSearch l) s = .next s)) ∧
    (∀ k, k = blocksIn l (s.tick - x.stepAt) →
      (s.laneLive l = false ∨ x.st ≠ 2 → ∀ found, exec (.searchEnd l found) s = .next s) ∧
      (s.laneLive l = true → x.st = 2 →
        (∀ (p : Fin 66) (d : Nat), d = (p.val + 66 - x.slip) % 66 →
          (66 * x.stepsLeft < k → ∃ t, exec (.searchEnd l (some p)) s = .next t ∧ searchFails s t l) ∧
          (k ≤ 66 * x.stepsLeft → d < x.stepsLeft → 3 * d + 66 ≤ k → ∃ t, exec (.searchEnd l (some p)) s = .next t ∧ (t.laneAt l).st = 3 ∧
            (x.slip < 66 → (t.laneAt l).slip = p.val) ∧ (t.laneAt l).block = true ∧ (t.laneAt l).cdr = true ∧
            (t.laneAt l).lockAt = s.tick ∧ bit (t.get (pLANE l) R.PG_IRQ_RAW) 3 = true ∧ s.sameMemory t) ∧
          (k ≤ 66 * x.stepsLeft → x.stepsLeft ≤ d ∨ k < 3 * d + 66 → exec (.searchEnd l (some p)) s = .next s)) ∧
        (3 * x.stepsLeft ≤ k → ∃ t, exec (.searchEnd l none) s = .next t ∧ searchFails s t l) ∧
        (k < 3 * x.stepsLeft → exec (.searchEnd l none) s = .next s))) ∧
    (s.laneLive l = false ∨ (x.st ≠ 1 ∧ x.st ≠ 5) → exec (.blockLock l) s = .next s) ∧
    (s.laneLive l = true → x.st = 5 → s.exitLimit l < s.tick → ∃ t, exec (.blockLock l) s = .next t ∧ laneFences s t l 0x23) ∧
    (s.laneLive l = true → (x.st = 1 ∨ (x.st = 5 ∧ s.tick ≤ s.exitLimit l)) → ∃ t, exec (.blockLock l) s = .next t ∧
      (t.laneAt l).st = 3 ∧ (t.laneAt l).block = true ∧ (t.laneAt l).cdr = true ∧ (t.laneAt l).lockAt = s.tick ∧
      (t.laneAt l).good = 64 ∧ bit (t.get (pLANE l) R.PG_IRQ_RAW) 3 = true ∧
      (x.st = 5 → bit (t.get (pLANE l) R.PG_IRQ_RAW) 7 = true ∧
        t.get (pLANE l) R.LANE_EXIT_CNT = (s.get (pLANE l) R.LANE_EXIT_CNT + 1) % 2 ^ R.LANE_EXIT_CNT.w) ∧ s.sameMemory t) ∧
    (∀ bad run : Nat, (s.laneLive l = false ∨ x.st ∉ [1, 2, 3, 5] ∨ (bad = 0 ∧ x.block = true) →
        exec (.blockLockLoss ⟨l, bad, run⟩) s = .next s) ∧
      (s.laneLive l = true → x.st ∈ [1, 2, 3, 5] → x.block = false → bad = 0 → ∃ t, exec (.blockLockLoss ⟨l, 0, run⟩) s = .next t ∧
        t.laneAt l = { x with good := min 63 (x.good + run) } ∧ (∀ n, n ≠ l.val → t.laneAt n = s.laneAt n) ∧
        ({ t with lane := s.lane } : State) = s) ∧
      (0 < bad → s.laneLive l = true →
        (x.st = 2 → (blocksIn l (s.tick - x.stepAt) < 3 → exec (.blockLockLoss ⟨l, bad, run⟩) s = .next s) ∧
          (3 ≤ blocksIn l (s.tick - x.stepAt) → ∃ t, exec (.blockLockLoss ⟨l, bad, run⟩) s = .next t ∧ (t.laneAt l).slip = (x.slip + 1) % 66 ∧
            s.sameMemory t ∧ (1 < x.stepsLeft → (t.laneAt l).st = 2 ∧ (t.laneAt l).stepsLeft = x.stepsLeft - 1 ∧
              (t.laneAt l).stepAt = s.tick ∧ ({ t with lane := s.lane } : State) = s) ∧
            (x.stepsLeft ≤ 1 → (t.laneAt l).st = 1 ∧ bit (t.get (pLANE l) R.PG_IRQ_RAW) 6 = true))) ∧
        (x.st ∈ [1, 3, 5] → x.block = false → ∃ t, exec (.blockLockLoss ⟨l, bad, run⟩) s = .next t ∧
          t.laneAt l = { x with good := min 63 run } ∧ ({ t with lane := s.lane } : State) = s) ∧
        (x.st ∈ [1, 3, 5] → x.block = true → ∃ t, exec (.blockLockLoss ⟨l, bad, run⟩) s = .next t ∧
          t.get (pLANE l) R.LANE_BLK_ERR = (if x.st = 3 then min (s.get (pLANE l) R.LANE_BLK_ERR + bad) (2 ^ R.LANE_BLK_ERR.w - 1)
            else s.get (pLANE l) R.LANE_BLK_ERR) ∧
          (16 ≤ ((s.badRecent l).map (·.2)).sum + bad → (t.laneAt l).block = false ∧
            t.get (pLANE l) R.LANE_LOCK_CNT = min (s.get (pLANE l) R.LANE_LOCK_CNT + 1) (2 ^ R.LANE_LOCK_CNT.w - 1) ∧
            (x.st = 3 → laneFences s t l 0x21) ∧
            (x.st ≠ 3 → (t.laneAt l).st = x.st ∧ t.fenced (pLANE l) = s.fenced (pLANE l) ∧ s.sameMemory t)) ∧
          (((s.badRecent l).map (·.2)).sum + bad < 16 →
            t.laneAt l = { x with good := run, lockAt := s.tick, bad := (s.tick, bad) :: s.badRecent l } ∧
            s.regsBut t [(pLANE l, R.LANE_BLK_ERR)] ∧ ({ t with regs := s.regs, lane := s.lane } : State) = s)))) ∧
    (s.laneLive l = false → exec (.cdrLoss l) s = .next s) ∧
    (s.laneLive l = true → ∃ t, exec (.cdrLoss l) s = .next t ∧ (t.laneAt l).cdr = false ∧ (t.laneAt l).block = false ∧
      t.get (pLANE l) R.LANE_LOCK_CNT = (if x.block then min (s.get (pLANE l) R.LANE_LOCK_CNT + 1) (2 ^ R.LANE_LOCK_CNT.w - 1)
        else s.get (pLANE l) R.LANE_LOCK_CNT) ∧
      (x.st = 3 ∨ x.st = 5 → laneFences s t l 0x20) ∧
      (x.st ≠ 3 → x.st ≠ 5 → s.fencedNow (pLANE l) = true → (t.laneAt l).st = 1 ∧ t.fenced (pLANE l) = true ∧
        t.get (pLANE l) R.PG_FENCE_REASON = min 0x20 (s.get (pLANE l) R.PG_FENCE_REASON)) ∧
      (x.st ≠ 3 → x.st ≠ 5 → s.fencedNow (pLANE l) = false →
        (t.laneAt l).st = x.st ∧ t.fenced (pLANE l) = s.fenced (pLANE l) ∧ s.sameMemory t)) ∧
    (x.st ≠ 5 ∨ s.tick < s.exitLimit l → exec (.exitTimeout l) s = .next s) ∧
    (x.st = 5 → s.exitLimit l ≤ s.tick → ∃ t, exec (.exitTimeout l) s = .next t ∧ laneFences s t l 0x23)

/-- LANE_CMD_ESCAN, ESCAN_END, SAMPLER_STEP and PRBS_SYNC. An eye scan starts on a head lane that is UP with none running, with the MODE, DWELL and point
its registers hold, and elsewhere the bit is reserved; it ends, once its bits can have been counted, with its count or its opening and cause 5, each count at most 2^DWELL, and a
calibration takes the opening of its own scan; one that waits runs next. The data sampler moves one unit towards LANE_SAMP, its phase
first, every 64 blocks. In MAINT with CHK the PRBS checker gains SYNC; then its bits and mismatches count, and 64 of them in a report lose
SYNC. In every other case nothing changes (R294, R336 to R339, R343).
The model's own choices in it: logs 2, 20, 54, 84. -/
def Obligations.LaneMeasurements : Prop :=
  ∀ (s : State) (l : Lane) (x : LaneSt), x = s.laneAt l →
    (128 ≤ l.val → ¬ s.accepts (pLANE l) 0x50 (2 ^ 30)) ∧
    (s.accepts (pLANE l) 0x50 (2 ^ 30) →
      (x.st = 3 → x.scan = none → ∃ t, exec (.laneCmdEscan l) s = .next t ∧
        t.laneAt l = { x with scan := (some
          { mode := s.get (pLANE l) R.LANE_ESCAN_CFG_MODE, dwell := max 10 (min 24 (s.get (pLANE l) R.LANE_ESCAN_CFG_DWELL)),
            thr := sgn 8 (s.get (pLANE l) R.LANE_ESCAN_PT_THR), phase := sgn 8 (s.get (pLANE l) R.LANE_ESCAN_PT_PHASE), since := s.tick }) } ∧
        (∀ n, n ≠ l.val → t.laneAt n = s.laneAt n) ∧ ({ t with lane := s.lane } : State) = s) ∧
      (x.st ≠ 3 ∨ x.scan ≠ none → exec (.laneCmdEscan l) s = .next s)) ∧
    (x.scan = none → ∀ counts, exec (.escanEnd l counts) s = .next s) ∧
    (∀ m counts, x.scan = some m →
      (22 * (s.tick - m.since) < (if m.mode = 1 then 1 else 1024) * 2 ^ m.dwell → exec (.escanEnd l counts) s = .next s) ∧
      ((if m.mode = 1 then 1 else 1024) * 2 ^ m.dwell ≤ 22 * (s.tick - m.since) → ∃ t, exec (.escanEnd l counts) s = .next t ∧
        t.laneAt l = (if x.calScan then { x with scan := some (s.scanNew l 0), calScan := false, calRuns := true }
          else { x with scan := none, calRuns := false }) ∧
        bit (t.get (pLANE l) R.PG_IRQ_RAW) 5 = true ∧ (∀ n, n ≠ l.val → t.laneAt n = s.laneAt n) ∧
        ({ t with regs := s.regs, lane := s.lane, calst := s.calst, host := s.host } : State) = s ∧
        (m.mode = 1 → t.get (pLANE l) R.LANE_ESCAN_ERR = min (2 ^ m.dwell) (counts.headD 0) % 2 ^ 32 ∧ t.calst = s.calst ∧
          s.regsBut t [(pLANE l, R.LANE_ESCAN_ERR), (pLANE l, R.PG_IRQ_RAW)]) ∧
        (m.mode ≠ 1 → ∀ r, r = scanResult (counts.map (min (2 ^ m.dwell))) (s.get (pLANE l) R.LANE_ESCAN_CFG_LIM)
            (sgn 8 (s.ap (pLANE l) R.LANE_SAMP_THR)) (sgn 8 (s.ap (pLANE l) R.LANE_SAMP_PHASE)) →
          t.get (pLANE l) R.LANE_ESCAN_RES_HEIGHT = r.1 % 256 ∧ t.get (pLANE l) R.LANE_ESCAN_RES_WIDTH = r.2.1 % 256 ∧
          t.get (pLANE l) R.LANE_ESCAN_RES_THR = uns 8 r.2.2.1 ∧ t.get (pLANE l) R.LANE_ESCAN_RES_PHASE = uns 8 r.2.2.2 ∧
          (x.calRuns = false → t.calst = s.calst) ∧
          (x.calRuns = true → s.get pCAL R.CAL_STAT_STEP = 2 →
            t.calst = { s.calst with r2 := s.calst.r2.set l (1 + uns 8 r.2.2.2 + 256 * uns 8 r.2.2.1) }) ∧
          (x.calRuns = true → s.get pCAL R.CAL_STAT_STEP ≠ 2 →
            t.calst = { s.calst with r1 := s.calst.r1.set l (1 + uns 8 r.2.2.2 + 256 * uns 8 r.2.2.1) }) ∧
          s.regsBut t [(pLANE l, R.LANE_ESCAN_RES_HEIGHT), (pLANE l, R.LANE_ESCAN_RES_WIDTH), (pLANE l, R.LANE_ESCAN_RES_THR),
            (pLANE l, R.LANE_ESCAN_RES_PHASE), (pLANE l, R.PG_IRQ_RAW)]))) ∧
    ((128 ≤ l.val ∨ s.tick < x.lastStep + 192) → exec (.samplerStep l) s = .next s) ∧
    (∀ ph th, ph = sgn 8 (s.ap (pLANE l) R.LANE_SAMP_PHASE) → th = sgn 8 (s.ap (pLANE l) R.LANE_SAMP_THR) →
      l.val < 128 → x.lastStep + 192 ≤ s.tick → ∃ t, exec (.samplerStep l) s = .next t ∧
      (∀ n, n ≠ l.val → t.laneAt n = s.laneAt n) ∧ ({ t with lane := s.lane } : State) = s ∧
      (x.phase < ph → t.laneAt l = { x with phase := x.phase + 1, lastStep := s.tick }) ∧
      (ph < x.phase → t.laneAt l = { x with phase := x.phase - 1, lastStep := s.tick }) ∧
      (x.phase = ph → x.thr < th → t.laneAt l = { x with thr := x.thr + 1, lastStep := s.tick }) ∧
      (x.phase = ph → th < x.thr → t.laneAt l = { x with thr := x.thr - 1, lastStep := s.tick }) ∧
      (x.phase = ph → x.thr = th → t.laneAt l = x)) ∧
    (∀ (sync : Bool) (errs : Nat),
      (x.st ≠ 6 ∨ s.flag (pLANE l) R.LANE_PRBS_CHK = false ∨ (s.flag (pLANE l) R.LANE_PRBS_STAT = false ∧ sync = false) →
        exec (.prbsSync l ⟨sync, errs⟩) s = .next s) ∧
      (x.st = 6 → s.flag (pLANE l) R.LANE_PRBS_CHK = true →
        (s.flag (pLANE l) R.LANE_PRBS_STAT = false → sync = true → ∃ t, exec (.prbsSync l ⟨sync, errs⟩) s = .next t ∧
          t.get (pLANE l) R.LANE_PRBS_STAT = 1 ∧ t.laneAt l = { x with prbsAt := s.tick } ∧ s.regsBut t [(pLANE l, R.LANE_PRBS_STAT)] ∧
          ({ t with regs := s.regs, lane := s.lane } : State) = s) ∧
        (s.flag (pLANE l) R.LANE_PRBS_STAT = true → ∃ t, exec (.prbsSync l ⟨sync, errs⟩) s = .next t ∧
          (sync = false → 64 ≤ errs → t.get (pLANE l) R.LANE_PRBS_STAT = 0) ∧
          (sync = true ∨ errs < 64 → t.get (pLANE l) R.LANE_PRBS_STAT = s.get (pLANE l) R.LANE_PRBS_STAT) ∧
          t.get64 (pLANE l) R.LANE_PRBS_BITS_LO R.LANE_PRBS_BITS_HI =
            (s.get64 (pLANE l) R.LANE_PRBS_BITS_LO R.LANE_PRBS_BITS_HI + 165 * (s.tick - x.prbsAt)) % 2 ^ 64 ∧
          t.get (pLANE l) R.LANE_PRBS_ERR = min (s.get (pLANE l) R.LANE_PRBS_ERR + errs) (2 ^ R.LANE_PRBS_ERR.w - 1) ∧
          t.laneAt l = { x with prbsAt := s.tick } ∧
          s.regsBut t [(pLANE l, R.LANE_PRBS_STAT), (pLANE l, R.LANE_PRBS_BITS_LO), (pLANE l, R.LANE_PRBS_BITS_HI),
            (pLANE l, R.LANE_PRBS_ERR)] ∧ ({ t with regs := s.regs, lane := s.lane } : State) = s)))


/-! ### The device as a whole (R354, R364 to R367, R374, R375, R383 to R387, R401) -/

/-- COLD_RESET, SUPPLY_DETECT, RESET_RELEASE, STRAPCHG, SYS_WRST, WARM_RESET_START, MAIN_PLL_LOSS, THERM_SAMPLE and TAP_CONTROL. A cold reset
is State.reset with the boot flash, the balls, the TAP and the model's own trace kept; a supply fault outside reset is one; the release
samples the straps. A warm reset starts at its key, or waits until no channel migrates and the die is below TRIP: it is State.reset with every
memory, the straps and the fields of R375 kept, and counts itself. A lost PLL makes the lanes dark, cuts the frames not yet sent, fences the
LINE pages with 0x20 and sends step CLK to RETRY. A sample of the die sets TEMP, MAX and the two thresholds by their hysteresis,
raises their causes and errors, and shuts the device down at 125 °C. The TAP holds its instruction, IDCODE after a reset of it; a shift
takes bits through the data register that the instruction selects, IDCODE's 0x1088_09D3, the boundary cells or one bit, and an update
ends it, loading the cells. In every other case nothing changes (R354, R364, R366, R367, R374, R375, R383, R385 to R387, R401).
The model's own choices in it: logs 2, 67, 68, 130. -/
def Obligations.DeviceEvents : Prop :=
  ∀ s : State,
    (∃ t, exec .coldReset s = .next t ∧ t.inReset = true ∧ (∀ p f, t.get p f = State.reset.get p f) ∧ t.flash = s.flash ∧
      t.pending = s.pending ∧ t.tap = s.tap ∧ t.tapReg = s.tapReg ∧ t.cells = s.cells ∧ t.straps = s.straps ∧
      t.liveStraps = s.liveStraps ∧ t.mfioIn = s.mfioIn ∧
      ({ t with pending := [], straps := State.reset.straps, liveStraps := State.reset.liveStraps, mfioIn := State.reset.mfioIn,
                tap := State.reset.tap, tapReg := State.reset.tapReg, cells := State.reset.cells, rdata := [], outs := [],
                fresh := State.reset.fresh, epoch := State.reset.epoch, flash := [], inReset := State.reset.inReset } : State) =
        { State.reset with pending := [], rdata := [], outs := [], flash := [] }) ∧
    (s.inReset = false → exec .supplyDetect s = exec .coldReset s) ∧ (s.inReset = true → exec .supplyDetect s = .next s) ∧
    (∀ x, s.inReset = true → ∃ t, exec (.resetRelease x) s = .next t ∧ t.inReset = false ∧ t.straps = x ∧ t.liveStraps = x ∧
      t.get pPAIR R.PAIR_CTRL_SOLO = b2n x.home ∧ s.regsBut t [(pPAIR, R.PAIR_CTRL_SOLO)] ∧
      ({ t with regs := s.regs, inReset := true, straps := s.straps, liveStraps := s.liveStraps } : State) = s) ∧
    (∀ x, s.inReset = false → exec (.resetRelease x) s = .next s) ∧
    (∀ x, (s.inReset = true ∨ x = s.straps → exec (.strapchg x) s = .next { s with liveStraps := x }) ∧
      (s.inReset = false → x ≠ s.straps → s.fenced pSYS = false → ∃ t, exec (.strapchg x) s = .next t ∧ t.liveStraps = x ∧
        bit (t.get pSYS R.PG_IRQ_RAW) 3 = true ∧ s.regsBut t [(pSYS, R.PG_IRQ_RAW)] ∧
        ({ t with regs := s.regs, host := s.host, liveStraps := s.liveStraps } : State) = s)) ∧
    (s.accepts pSYS 0x48 0x5A5A → s.warmOk = false → exec .sysWrst s = .next { s with wrstPend := true }) ∧
    (∀ c, (c = .sysWrst ∧ s.accepts pSYS 0x48 0x5A5A) ∨ (c = .warmResetStart ∧ s.wrstPend = true ∧ s.inReset = false) → s.warmOk = true →
      ∃ t, exec c s = .next t ∧ s.sameMemory t ∧ t.get pSYS R.SYS_RCAUSE_WARM = 1 ∧ t.get pBOOT R.BOOT_STAT_WARM = 1 ∧
        t.get pSYS R.SYS_WRST_CNT = min (s.get pSYS R.SYS_WRST_CNT + 1) (2 ^ 32 - 1) ∧
        t.straps = s.straps ∧ t.liveStraps = s.liveStraps ∧ t.boot = { warm := true } ∧ t.host = { s.host with sentAt := [] } ∧
        (∀ p f, warmKeeps p f.id = true → (p ≠ pSYS ∨ (f.id ≠ R.SYS_RCAUSE_WARM.id ∧ f.id ≠ R.SYS_WRST_CNT.id)) → t.get p f = s.get p f) ∧
        (∀ p f, warmKeeps p f.id = false → (p ≠ pBOOT ∨ f.id ≠ R.BOOT_STAT_WARM.id) → (p ≠ pPAIR ∨ f.id ≠ R.PAIR_CTRL_SOLO.id) →
          t.get p f = rst p f) ∧ t.get pPAIR R.PAIR_CTRL_SOLO = b2n s.straps.home ∧
        ({ t with pending := State.reset.pending, straps := State.reset.straps, liveStraps := State.reset.liveStraps,
                  mfioIn := State.reset.mfioIn, tap := State.reset.tap, tapReg := State.reset.tapReg, cells := State.reset.cells,
                  rdata := State.reset.rdata, outs := State.reset.outs,
                  fresh := State.reset.fresh, epoch := State.reset.epoch, lstore := State.reset.lstore, lsErr := State.reset.lsErr,
                  dramMem := State.reset.dramMem, dramChk := State.reset.dramChk, flash := State.reset.flash, regs := State.reset.regs,
                  boot := State.reset.boot, host := State.reset.host } : State) = State.reset) ∧
    ((s.wrstPend = false ∨ s.warmOk = false ∨ s.inReset = true) → exec .warmResetStart s = .next s) ∧
    (s.pll = true → s.inReset = false → ∃ t, exec .mainPllLoss s = .next t ∧ t.pll = false ∧ t.heldClock = true ∧ t.bootStep 0 = 3 ∧
      t.boot.dueAt.getD 0 0 = s.osc + msTicks (s.boot.interval.getD 0 s.backMin) ∧
      (s.fenced pSYS = false → bit (t.get pSYS R.PG_IRQ_RAW) 1 = true ∧
        t.get pSYS R.PG_ERR_CNT = min (s.get pSYS R.PG_ERR_CNT + 1) (2 ^ 32 - 1)) ∧ t.pair.pllLost = true ∧
      (∀ l < 160, (l < 128 ∨ 132 ≤ l) → (t.laneAt l).txIdle = true ∧
        (t.laneAt l).st = if (s.laneAt l).st ∈ [2, 3, 5] then 1 else (s.laneAt l).st) ∧
      (∀ h < 128, (t.headAt h).queue = [] ∧ (t.headAt h).ready = [] ∧ (t.headAt h).cur = none ∧ (t.headAt h).tlmStop = true) ∧
      (∀ b < 8, s.fenced (pLINE b) = false → s.held (pLINE b) = false → s.srsts.has (pLINE b) = false →
        t.fenced (pLINE b) = true ∧ t.get (pLINE b) R.PG_FENCE_REASON = 0x20) ∧ s.sameMemory t) ∧
    (s.pll = false ∨ s.inReset = true → exec .mainPllLoss s = .next s) ∧
    (∀ x : BitVec 16, s.inReset = true ∨ s.resetting pTHERM = true → exec (.thermSample x) s = .next s) ∧
    (∀ x : BitVec 16, s.inReset = false → s.resetting pTHERM = false → ∃ t, exec (.thermSample x) s = .next t ∧
      t.get pTHERM R.THERM_TEMP = x.toNat ∧
      t.get pTHERM R.THERM_MAX = (if sgn 16 (s.get pTHERM R.THERM_MAX) < x.toInt then x.toNat else s.get pTHERM R.THERM_MAX) ∧
      t.flag pTHERM R.THERM_STAT_WARN = thermState (s.flag pTHERM R.THERM_STAT_WARN) x.toInt
        (min (sgn 16 (s.get pTHERM R.THERM_LIM_WARN)) (sgn 16 (s.get pTHERM R.THERM_LIM_TRIP) - 1)) (s.get pTHERM R.THERM_CFG_HYST) ∧
      t.flag pTHERM R.THERM_STAT_TRIP = ((s.flag pTHERM R.THERM_STAT_TRIP && s.shut) || thermState (s.flag pTHERM R.THERM_STAT_TRIP)
        x.toInt (sgn 16 (s.get pTHERM R.THERM_LIM_TRIP)) (s.get pTHERM R.THERM_CFG_HYST)) ∧
      (s.fenced pTHERM = false →
        (t.flag pTHERM R.THERM_STAT_WARN ≠ s.flag pTHERM R.THERM_STAT_WARN → bit (t.get pTHERM R.PG_IRQ_RAW) 3 = true) ∧
        (t.flag pTHERM R.THERM_STAT_TRIP ≠ s.flag pTHERM R.THERM_STAT_TRIP → bit (t.get pTHERM R.PG_IRQ_RAW) 4 = true) ∧
        (s.flag pTHERM R.THERM_STAT_WARN = false → t.flag pTHERM R.THERM_STAT_WARN = true → bit (t.get pTHERM R.PG_IRQ_RAW) 1 = true ∧
          (s.get pTHERM R.PG_ERR_CNT = 0 → t.get pTHERM R.PG_ERR_INFO_CODE = 0x52 ∧ t.get pTHERM R.PG_ERR_ADDR_LO = x.toNat)) ∧
        (s.flag pTHERM R.THERM_STAT_TRIP = false → t.flag pTHERM R.THERM_STAT_TRIP = true → bit (t.get pTHERM R.PG_IRQ_RAW) 1 = true ∧
          (s.get pTHERM R.PG_ERR_CNT = 0 → s.flag pTHERM R.THERM_STAT_WARN = true →
            t.get pTHERM R.PG_ERR_INFO_CODE = 0x53 ∧ t.get pTHERM R.PG_ERR_ADDR_LO = x.toNat))) ∧
      t.flash = s.flash ∧
      (s.shut = false → 1000 ≤ x.toInt → t.shut = true ∧ t.pll = false ∧ t.dramReady = false ∧ t.prof = {} ∧ t.srsts = [] ∧
        ∀ h < 128, (t.headAt h).queue = [] ∧ (t.headAt h).ready = [] ∧ (t.headAt h).cur = none) ∧
      (x.toInt < 1000 ∨ s.shut = true → ({ t with regs := s.regs, host := s.host, pair := s.pair, outs := s.outs } : State) = s ∧
        (∀ q g, q ≠ pPAIR → (∀ e ∈ [(pTHERM, R.THERM_TEMP), (pTHERM, R.THERM_MAX), (pTHERM, R.THERM_STAT_WARN),
          (pTHERM, R.THERM_STAT_TRIP)] ++ errFields pTHERM, q ≠ e.1 ∨ g.id ≠ e.2.id) → t.get q g = s.get q g) ∧
        (s.straps.pairEn = false → (∀ g, t.get pPAIR g = s.get pPAIR g) ∧ t.pair = s.pair ∧ t.outs = s.outs))) ∧
    exec (.tapControl .reset) s = .next { s with tap := .idcode, tapReg := none } ∧
    (∀ x ∈ [TapOp.bypass, .idcode, .samplePreload, .extest, .clamp, .highz],
      exec (.tapControl x) s = .next { s with tap := x, tapReg := none }) ∧
    (∀ tdi l, ((∃ r, s.tapReg = some r ∧ l = r ++ tdi) ∨
        (s.tapReg = none ∧ s.tap ∈ [TapOp.bypass, .clamp, .highz] ∧ l = false :: tdi) ∨
        (s.tapReg = none ∧ s.tap = .idcode ∧ l = (List.range 32).map (fun i => (0x108809D3 : BitVec 32).getLsbD i) ++ tdi) ∨
        (s.tapReg = none ∧ (s.tap = .samplePreload ∨ s.tap = .extest) ∧ l = scanCells.zipIdx.map s.cellCapture ++ tdi)) →
      exec (.tapControl (.shift tdi)) s = .next { s with
        tapReg := some (l.drop tdi.length), outs := .tdo (l.take tdi.length) :: s.outs, fresh := s.fresh + 1 }) ∧
    exec (.tapControl .update) s = .next { s with
      tapReg := none, cells := if s.tap = .samplePreload ∨ s.tap = .extest then s.tapReg.getD s.cells else s.cells }

/-! ### The boot sequencer and the flash (R207, R368 to R371, R377) -/

/-- The registers that step i of the boot sequencer writes whatever it reads. -/
def stepFields (i : Nat) : List (Nat × Fld) :=
  [(pBOOT, R.BOOT_TRY.nth 4 i), (pBOOT, bootFld i), (pBOOT, R.BOOT_DONE_T.nth 4 i), (pBOOT, R.BOOT_STAT_READY), (pBOOT, R.BOOT_STAT_DONE),
   (pBOOT, R.BOOT_STAT_RETRYING)] ++ errFields pBOOT
/-- A step fails: RETRY, an error with cause 1, and its next attempt due after the interval, which doubles up to MAX (R369). -/
def stepFails (s t : State) (i : Nat) : Prop :=
  t.bootStep i = 3 ∧ t.boot.dueAt.getD i 0 = s.osc + msTicks (s.boot.interval.getD i s.backMin) ∧
    t.boot.interval.getD i 0 = min s.backMax (2 * s.boot.interval.getD i s.backMin) ∧
    (s.fenced pBOOT = false → bit (t.get pBOOT R.PG_IRQ_RAW) 1 = true) ∧ s.regsBut t (stepFields i) ∧
    ({ t with regs := s.regs, boot := s.boot, host := s.host } : State) = s
/-- A memory access of the sequencer that has to wait: its operation reads or writes DRAM, which does not serve level 5 now (R29, R301). -/
def flashWaits (s : State) (op d n : Nat) : Prop := op ≤ 1 ∧ s.dramServed 5 d n s.bootReq = false
/-- No two bursts of n bytes at d lie in one place of DRAM: the rank maps and the size of DRAM keep them apart (R302). -/
def burstsApart (s : State) (d n : Nat) : Prop := ∀ x ∈ burstsOf d n, ∀ y ∈ burstsOf d n, s.burstKey x = s.burstKey y → x = y
/-- The retry key of a step, a lane (0x100 + l) or a channel (0x200 + c) belongs to this step. -/
def keyStep (k : Nat) : Nat := if k < 0x100 then k else if k < 0x200 then laneStep (k - 0x100) else 6

/-- STEP_CLK, STEP_FLASH, STEP_BOARD, STEP_PROF, STEP_LANES, STEP_CROOK, STEP_DRAM, STEP_CAL, CHANNEL_TRAINED, BOOT_RETRY, BOOT_CMD_RETRY. A step
not taken up changes nothing; one that is counts an attempt, a retry of DRAM one for each channel, and ends DONE, or fails to RETRY with
its error and a due time; LANES and CROOK are DONE only with every named lane UP; FLASH, BOARD, PROF, LANES, CROOK, DRAM and CAL take what
they read, and a channel's training ends trained or failed; a retry that is due begins, and RETRY of BOOT_CMD makes every one due (R48,
R207, R290, R300, R301, R367 to R371).
The model's own choices in it: logs 2, 53, 125. -/
def Obligations.BootSteps : Prop :=
  (∀ (s : State) (c : Instr) (i : Nat) (k : Bool) (fi : Option FlashInfo) (sp : List SpdInfo),
    (c, i) ∈ [(.stepClk k, 0), (.stepFlash fi, 1), (.stepBoard, 2), (.stepProf, 3), (.stepLanes, 4), (.stepCrook, 5), (.stepDram sp, 6),
      (.stepCal, 7)] →
    (s.stepTaken i = false ∨ s.shut = true → exec c s = .next s) ∧
    (s.stepTaken i = true → s.shut = false → ∃ t, exec c s = .next t ∧ t.flash = s.flash ∧ t.pending = s.pending ∧
      (i ≠ 6 ∨ s.bootStep 6 = 0 → t.get pBOOT (R.BOOT_TRY.nth 4 i) = min (s.get pBOOT (R.BOOT_TRY.nth 4 i) + 1) (2 ^ 32 - 1)) ∧
      (i = 6 → s.bootStep 6 ≠ 0 → ∀ n, n = ((List.range 4).filter fun j => bit s.boot.chTry j).length →
        t.get pBOOT (R.BOOT_TRY.nth 4 6) = min (s.get pBOOT (R.BOOT_TRY.nth 4 6) + max 1 n) (2 ^ 32 - 1)) ∧
      bit t.boot.attempt i = false ∧ (i < 6 → s.sameMemory t) ∧
      (i = 0 → (k = true → t.bootStep 0 = 2 ∧ t.pll = true ∧ t.heldReset = false ∧ t.heldClock = false ∧ t.enabled pLSTORE = true ∧
          t.boot.dueAt.has 0 = false ∧ t.boot.interval.has 0 = false ∧
          (s.heldClock = false → s.regsBut t ((pLSTORE, R.PG_CTRL_EN) :: stepFields 0) ∧
            ({ t with regs := s.regs, boot := s.boot, host := s.host, pll := s.pll, heldReset := s.heldReset } : State) = s) ∧
          (s.heldClock = true → t.pair.pllLost = false ∧ (∀ l < 160, (t.laneAt l).txIdle = false) ∧
            (∀ l, (l < 128 ∨ (132 ≤ l ∧ l < 136)) → (s.laneAt l).st = 1 → t.working (pLANE l) = true → (t.laneAt l).st = 2) ∧
            (t.pairOn = true → t.pairState = 2))) ∧
        (k = false → t.pll = s.pll ∧ stepFails s t 0)) ∧
      (i = 1 → (∀ x, fi = some x → x.fast144 = true → t.bootStep 1 = 2 ∧ t.boot.flash = some x ∧
          t.get pBOOT R.BOOT_FLASH_E4K = b2n x.erase4k ∧ t.get pBOOT R.BOOT_FLASH_E64K = b2n x.erase64k ∧
          (24 < x.log2 → x.addr4Instr = true ∨ x.addr4Mode = true → t.get pBOOT R.BOOT_FLASH_ADDR4 = 1) ∧
          (x.log2 ≤ 24 ∨ (x.addr4Instr = false ∧ x.addr4Mode = false) → t.get pBOOT R.BOOT_FLASH_ADDR4 = 0 ∧
            t.get pBOOT R.BOOT_FLASH_LOG2 = min 24 x.log2) ∧
          ({ t with regs := s.regs, boot := s.boot, host := s.host } : State) = s) ∧
        (fi = none ∨ (∃ x, fi = some x ∧ x.fast144 = false) → t.boot.flash = s.boot.flash ∧ stepFails s t 1)) ∧
      (i = 2 → t.bootStep 2 = 2 ∧ t.boot.boardOk = boardValid (s.flashBytes 0 68) ∧ s.regsBut t (stepFields 2) ∧
        (boardValid (s.flashBytes 0 68) = true → t.boot.board = s.flashBytes 0 68) ∧
        (boardValid (s.flashBytes 0 68) = false → t.boot.board = [] ∧ (s.fenced pBOOT = false → bit (t.get pBOOT R.PG_IRQ_RAW) 1 = true)) ∧
        ({ t with regs := s.regs, boot := s.boot, host := s.host } : State) = s) ∧
      (i = 3 → t.bootStep 3 = 2 ∧ t.prof.loaded = true ∧
        (∀ p < 8, t.slotUsable p = imageValid (s.flashBytes (slotFlash p) 660) p ∧
          (imageValid (s.flashBytes (slotFlash p) 660) p = true → t.prof.images.getD p [] = s.flashBytes (slotFlash p) 660) ∧
          (imageValid (s.flashBytes (slotFlash p) 660) p = false → s.fenced pPROF = false → bit (t.get pPROF R.PG_IRQ_RAW) 1 = true)) ∧
        s.regsBut t ((pPROF, R.PROF_VALID_VALID) :: errFields pPROF ++ stepFields 3) ∧
        ({ t with regs := s.regs, boot := s.boot, host := s.host, prof := s.prof } : State) = s) ∧
      (i = 4 → t.bootStep 4 ∈ [1, 2, 3] ∧ (t.bootStep 4 = 2 → ∀ l < 128, s.laneNamed l = true → (t.laneAt l).st = 3) ∧ ∀ l < 160, (l < 128 ∨ 136 ≤ l) →
        (s.laneNamed l = false → t.laneAt l = s.laneAt l ∧ t.enabled (pLANE l) = s.enabled (pLANE l)) ∧
        (s.laneNamed l = true → t.enabled (pLANE l) = true ∧
          t.flag (pLANE l) R.LANE_CTRL_RX_INV = s.laneInv false l ∧ t.flag (pLANE l) R.LANE_CTRL_TX_INV = s.laneInv true l ∧
          (l < 128 → s.flag (pLANE l) R.LANE_CTRL_EIDLE = false → (t.laneAt l).st = 2 ∧ (t.laneAt l).bootSearch = true) ∧
          (136 ≤ l → s.flag (pLANE l) R.LANE_CTRL_MAINT = false → (t.laneAt l).st = 1))) ∧
      (i = 5 → (s.straps.pairEn = false → t.bootStep 5 = 5 ∧ s.regsBut t (stepFields 5) ∧
          ({ t with regs := s.regs, boot := s.boot, host := s.host } : State) = s) ∧
        (s.straps.pairEn = true → t.bootStep 5 ∈ [1, 2, 3, 4] ∧
          (t.bootStep 5 = 2 → ∀ l, 132 ≤ l → l < 136 → s.laneNamed l = true → (t.laneAt l).st = 3) ∧ ∀ l, 132 ≤ l → l < 136 → s.laneNamed l = true →
          t.enabled (pLANE l) = true ∧ t.flag (pLANE l) R.LANE_CTRL_RX_INV = s.laneInv false l ∧
          t.flag (pLANE l) R.LANE_CTRL_TX_INV = s.laneInv true l ∧
          (s.flag (pLANE l) R.LANE_CTRL_MAINT = false → (t.laneAt l).st = 2 ∧ (t.laneAt l).bootSearch = true))) ∧
      (i = 6 → t.boot.spd = sp ∧ (s.bootStep 6 = 0 → t.bootStep 6 ∈ [1, 3]) ∧
        ∀ j < 4, (s.bootStep 6 ≠ 0 → bit s.boot.chTry j = false → bit t.boot.chRun j = bit s.boot.chRun j ∧
          bit t.boot.chFail j = bit s.boot.chFail j) ∧
        ((s.bootStep 6 = 0 ∨ bit s.boot.chTry j = true) → ∀ x y, x = sp.getD j SpdInfo.absent → y = sp.getD 0 SpdInfo.absent →
          (spdSupported x = true → spdAlike x y = true → bit t.boot.chRun j = true ∧ bit t.boot.chFail j = false) ∧
          (spdSupported x = false ∨ spdAlike x y = false → bit t.boot.chRun j = false ∧ bit t.boot.chFail j = true ∧ t.bootStep 6 = 3 ∧
            t.boot.dueAt.has (0x200 + j) = true ∧
            (s.fenced (pDRAM j) = false → bit (t.get (pDRAM j) R.PG_IRQ_RAW) 1 = true)))) ∧
      (i = 7 → t.bootStep 7 = 2 ∧ ∀ k ∈ [1, 2, 3, 4, 5],
        (∀ x, s.calInForce k = some x → (s.fenced pCAL = false → s.resetting pCAL = false → t.get pCAL (calCnt k) = calNum x.2) ∧
          (s.fenced pCAL = true → t.get pCAL (calCnt k) = s.get pCAL (calCnt k))) ∧
        (s.calInForce k = none → t.get pCAL (calCnt k) = s.get pCAL (calCnt k) ∧
          (s.fenced pBOOT = false → bit (t.get pBOOT R.PG_IRQ_RAW) 1 = true))))) ∧
  (∀ (s : State) (c : DramCh), (bit s.boot.chRun c = false → ∀ ok, exec (.channelTrained c ok) s = .next s) ∧
    (bit s.boot.chRun c = true →
      (∃ t, exec (.channelTrained c true) s = .next t ∧ (t.dramAt c).trained = true ∧ bit t.boot.chRun c = false ∧
        bit t.boot.chFail c = false ∧ t.boot.dueAt.has (0x200 + c.val) = false ∧ t.flash = s.flash ∧ t.pending = s.pending ∧
        (setBit s.boot.chFail c false ≠ 0 → t.bootStep 6 = 3 ∧ s.sameMemory t) ∧
        (setBit s.boot.chFail c false = 0 → (setBit s.boot.chRun c false ≠ 0 ∨ ∃ j < 4, j ≠ c.val ∧ (s.dramAt j).trained = false) →
          t.bootStep 6 = s.bootStep 6 ∧ s.sameMemory t) ∧
        (setBit s.boot.chFail c false = 0 → setBit s.boot.chRun c false = 0 → (∀ j < 4, j ≠ c.val → (s.dramAt j).trained = true) →
          t.bootStep 6 = 2 ∧ t.enabled pDRAMC = true ∧ ∀ j < 4, t.enabled (pDRAM j) = true)) ∧
      ∃ t, exec (.channelTrained c false) s = .next t ∧ bit t.boot.chRun c = false ∧ bit t.boot.chFail c = true ∧ t.bootStep 6 = 3 ∧
        t.boot.dueAt.getD (0x200 + c.val) 0 = s.osc + msTicks (s.boot.interval.getD (0x200 + c.val) s.backMin) ∧
        (s.fenced (pDRAM c) = false → bit (t.get (pDRAM c) R.PG_IRQ_RAW) 1 = true) ∧
        ({ t with regs := s.regs, boot := s.boot, host := s.host } : State) = s)) ∧
  (∀ (s : State) (i : Fin 8), (s.inReset = true ∨ s.shut = true → exec (.bootRetry i) s = .next s) ∧
    (i.val ∈ [2, 3, 7] → exec (.bootRetry i) s = .next s) ∧
    (s.inReset = false → s.shut = false →
      (i.val ≤ 1 → s.bootStep i = 3 → s.retryDue i = true → ∃ t, exec (.bootRetry i) s = .next t ∧ bit t.boot.attempt i = true ∧
        t.boot.dueAt.has i = false ∧ ({ t with boot := { s.boot with dueAt := t.boot.dueAt, attempt := t.boot.attempt } } : State) = t ∧
        ({ t with boot := s.boot } : State) = s) ∧
      (i.val ≤ 1 → (s.bootStep i ≠ 3 ∨ s.retryDue i = false) → exec (.bootRetry i) s = .next s) ∧
      (i.val = 4 ∨ i.val = 5 → ∀ ls, ls = (s.boot.failLanes.filter fun l => laneStep l == i.val && s.retryDue (0x100 + l)) →
        (ls = [] → exec (.bootRetry i) s = .next s) ∧
        (ls ≠ [] → ∃ t, exec (.bootRetry i) s = .next t ∧ s.sameMemory t ∧
          t.get pBOOT (R.BOOT_TRY.nth 4 i) = min (s.get pBOOT (R.BOOT_TRY.nth 4 i) + ls.length) (2 ^ 32 - 1) ∧
          (∀ l ∈ ls, ((s.laneAt l).st = 1 → s.working (pLANE l) = true → (t.laneAt l).st = 2 ∧ (t.laneAt l).bootSearch = true) ∧
            ((s.laneAt l).st = 3 → l ∉ t.boot.failLanes)) ∧
          ∀ l, l ∉ ls → t.laneAt l = s.laneAt l)) ∧
      (i.val = 6 → (∀ c < 4, bit s.boot.chFail c = true → s.retryDue (0x200 + c) = true → ∃ t, exec (.bootRetry i) s = .next t ∧
          bit t.boot.attempt 6 = true ∧ bit t.boot.chTry c = true ∧ t.boot.dueAt.has (0x200 + c) = false ∧
          ({ t with boot := s.boot } : State) = s) ∧
        ((∀ c < 4, bit s.boot.chFail c = false ∨ s.retryDue (0x200 + c) = false) → exec (.bootRetry i) s = .next s)))) ∧
  (∀ s : State, s.accepts pBOOT 0x4C 1 → ∃ t, exec .bootCmdRetry s = .next t ∧ ({ t with boot := s.boot } : State) = s ∧
    ({ t.boot with dueAt := s.boot.dueAt, interval := s.boot.interval } : BootSt) = s.boot ∧
    ∀ k, (s.bootStep (keyStep k) = 3 → t.boot.interval.has k = false ∧ (s.boot.dueAt.has k = true → t.boot.dueAt.getD k 0 = s.osc)) ∧
      (s.bootStep (keyStep k) ≠ 3 → t.boot.interval.has k = s.boot.interval.has k ∧ t.boot.interval.getD k 0 = s.boot.interval.getD k 0 ∧
        t.boot.dueAt.has k = s.boot.dueAt.has k ∧ t.boot.dueAt.getD k 0 = s.boot.dueAt.getD k 0))

/-- READ, PROG, ERASE4K, ERASE64K and FLASH_OPERATION_END. A flash operation starts, or is refused with RESULT 2, or 3 for a lock, changing no
memory; while BUSY is set the GO is ignored and OP is stored. At its end, which waits for DRAM, a read has stored the flash bytes read to
DRAM, and no other, a program has ANDed its bytes into the flash, and an erase has set its bytes to 0xFF, with the result and cause 5 (R29, R301, R377).
The model's own choices in it: logs 2, 58, 59, 74. -/
def Obligations.FlashOperations : Prop :=
  (∀ (s : State) (c : Instr) (op : Nat), (c, op) ∈ [(.read, 0), (.prog, 1), (.erase4k, 2), (.erase64k, 3)] →
    s.accepts pBOOT 0xD0 (2 ^ 31 + op) → ∃ t, exec c s = .next t ∧ s.sameMemory t ∧ t.get pBOOT R.BOOT_FL_CMD_OP = op ∧
      s.regsBut t [(pBOOT, R.BOOT_FL_CMD_OP), (pBOOT, R.BOOT_FL_STAT_RESULT), (pBOOT, R.BOOT_FL_STAT_BUSY)] ∧
      ({ t with regs := s.regs, boot := s.boot } : State) = s ∧
      (s.flag pBOOT R.BOOT_FL_STAT_BUSY = true → t.boot = s.boot ∧ s.regsBut t [(pBOOT, R.BOOT_FL_CMD_OP)]) ∧
      (s.flag pBOOT R.BOOT_FL_STAT_BUSY = false → s.flashRefused op = true →
        t.get pBOOT R.BOOT_FL_STAT_RESULT = 2 ∧ t.boot = s.boot ∧ t.flag pBOOT R.BOOT_FL_STAT_BUSY = false) ∧
      (s.flag pBOOT R.BOOT_FL_STAT_BUSY = false → s.flashRefused op = false → op ≠ 0 → s.flag pBOOT R.PG_LOCK_LOCKED = true →
        t.get pBOOT R.BOOT_FL_STAT_RESULT = 3 ∧ t.boot = s.boot ∧ t.flag pBOOT R.BOOT_FL_STAT_BUSY = false) ∧
      (s.flag pBOOT R.BOOT_FL_STAT_BUSY = false → s.flashRefused op = false → (op = 0 ∨ s.flag pBOOT R.PG_LOCK_LOCKED = false) →
        t.get pBOOT R.BOOT_FL_STAT_RESULT = 0 ∧ t.get pBOOT R.BOOT_FL_STAT_BUSY = 1 ∧
        t.boot = { s.boot with
          op := some (op, s.get pBOOT R.BOOT_FL_ADDR, s.flashLen op, s.get64 pBOOT R.BOOT_FL_DRAM_LO R.BOOT_FL_DRAM_HI)
          opAfter := s.prof.reloads.length })) ∧
  (∀ (s : State) (timeout : Bool), (s.boot.op = none ∨ s.boot.opAfter ≠ 0 ∨ s.shut = true ∨
    (∃ op a n d, s.boot.op = some (op, a, n, d) ∧ flashWaits s op d n) → exec (.flashOperationEnd timeout) s = .next s)) ∧
  (∀ (s : State) (timeout : Bool) (op a n d : Nat), s.boot.op = some (op, a, n, d) → s.boot.opAfter = 0 → s.shut = false →
    ¬ flashWaits s op d n →
    ∃ t, exec (.flashOperationEnd timeout) s = .next t ∧ t.boot = { s.boot with op := none } ∧ t.get pBOOT R.BOOT_FL_STAT_BUSY = 0 ∧
      (s.fenced pBOOT = false → bit (t.get pBOOT R.PG_IRQ_RAW) 5 = true) ∧
      (timeout = true → t.get pBOOT R.BOOT_FL_STAT_RESULT = 5) ∧
      (op = 0 → timeout = false → t.get pBOOT R.BOOT_FL_STAT_RESULT = 1) ∧ (op = 0 → s.memSound → s.dramStores t (burstsOf d n)) ∧
      (op = 0 → timeout = false → d % 64 = 0 → n % 64 = 0 → burstsApart s d n →
        ∀ i < n, Memory.get t.dramMem (s.burstKey (d + 64 * (i / 64)) + i % 64) = (s.flashBytes a n)[i]?) ∧
      (op ≠ 0 → t.pending = s.pending ∧ t.lstore = s.lstore ∧ t.dramMem = s.dramMem ∧ t.dramChk = s.dramChk ∧
        (s.memSound → ∀ k, (k < a ∨ a + n ≤ k) → t.flashByte k = s.flashByte k)) ∧
      (op = 1 → timeout = false → s.memSound → ∀ l, l = (s.dramRead d n s.bootReq s.bootReq).2.1 →
        t.flashBytes a n = (l.zip (s.flashBytes a n)).map (fun e => e.1 &&& e.2) ∧
        t.get pBOOT R.BOOT_FL_STAT_RESULT = (if t.flashBytes a n = l then 1 else 4)) ∧
      (2 ≤ op → timeout = false → t.get pBOOT R.BOOT_FL_STAT_RESULT = 1 ∧ (s.memSound → t.flashBytes a n = List.replicate n 0xFF)) ∧
      (2 ≤ op → s.regsBut t [(pBOOT, R.BOOT_FL_STAT_BUSY), (pBOOT, R.BOOT_FL_STAT_RESULT), (pBOOT, R.PG_IRQ_RAW),
        (pPROF, R.PROF_VALID_BUSY), (pPROF, R.PROF_VALID_VALID)]))
end

