-- ==== Sys2Proof/Laws/Maps.lean ====
section
/-! SUPPORT. The laws of the sparse maps and of the memory cells: a read after a write to the same place gives the value
written, a write leaves every other place alone, and every operation keeps the canonical form. -/

namespace Sys2Proof.Machine

/-! ### NMap -/

theorem NMap.getD_del_self {α : Type} (m : NMap α) (k : Nat) (d : α) : (NMap.del m k).getD k d = d := by
  induction m with
  | nil => rfl
  | cons e r ih =>
    obtain ⟨j, v⟩ := e
    by_cases h : j = k <;> simp_all [NMap.del, NMap.getD]

theorem NMap.getD_del_other {α : Type} (m : NMap α) {k j : Nat} (d : α) (h : j ≠ k) :
    (NMap.del m k).getD j d = m.getD j d := by
  induction m with
  | nil => rfl
  | cons e r ih =>
    obtain ⟨i, v⟩ := e
    by_cases h1 : i = k
    · subst h1
      have : (NMap.del ((i, v) :: r) i) = NMap.del r i := by simp [NMap.del]
      rw [this, ih, NMap.getD, if_neg (fun e => h e.symm)]
    · have : (NMap.del ((i, v) :: r) k) = (i, v) :: NMap.del r k := by simp [NMap.del, h1]
      rw [this, NMap.getD, NMap.getD, ih]

theorem NMap.getD_ins_self {α : Type} (m : NMap α) (k : Nat) (v d : α) (h : ∀ e ∈ m, e.1 ≠ k) :
    (NMap.ins m k v).getD k d = v := by
  induction m with
  | nil => simp [NMap.ins, NMap.getD]
  | cons e r ih =>
    obtain ⟨i, w⟩ := e
    have h1 : i ≠ k := h (i, w) (by simp)
    by_cases h2 : k < i
    · simp [NMap.ins, h2, NMap.getD]
    · simp only [NMap.ins, h2, if_false, NMap.getD, h1]
      exact ih fun e he => h e (by simp [he])

theorem NMap.getD_ins_other {α : Type} (m : NMap α) {k j : Nat} (v d : α) (h : j ≠ k) :
    (NMap.ins m k v).getD j d = m.getD j d := by
  have h' : k ≠ j := fun e => h e.symm
  induction m with
  | nil => simp [NMap.ins, NMap.getD, h']
  | cons e r ih =>
    obtain ⟨i, w⟩ := e
    by_cases h2 : k < i
    · simp [NMap.ins, h2, NMap.getD, h']
    · simp only [NMap.ins, h2, if_false, NMap.getD, ih]

/-- A read after a write to the same place gives the value written. -/
@[simp] theorem NMap.getD_put_self {α : Type} (m : NMap α) (k : Nat) (v d : α) : (m.put k v).getD k d = v := by
  unfold NMap.put
  exact NMap.getD_ins_self _ k v d fun e he => by simpa [NMap.del] using (List.mem_filter.1 he).2

/-- A write leaves every other place alone. -/
theorem NMap.getD_put_other {α : Type} (m : NMap α) {k j : Nat} (v d : α) (h : j ≠ k) : (m.put k v).getD j d = m.getD j d := by
  unfold NMap.put
  rw [NMap.getD_ins_other _ _ _ h, NMap.getD_del_other _ _ h]

@[simp] theorem NMap.has_del_self {α : Type} (m : NMap α) (k : Nat) : NMap.has (NMap.del m k) k = false := by
  simp [NMap.has, NMap.del]

theorem NMap.has_ins_self {α : Type} (m : NMap α) (k : Nat) (v : α) : NMap.has (NMap.ins m k v) k = true := by
  induction m with
  | nil => simp [NMap.ins, NMap.has]
  | cons e r ih =>
    by_cases h : k < e.1
    · simp [NMap.ins, h, NMap.has]
    · simp only [NMap.ins, h, if_false, NMap.has, List.any_cons, Bool.or_eq_true]
      exact Or.inr ih

@[simp] theorem NMap.has_put_self {α : Type} (m : NMap α) (k : Nat) (v : α) : NMap.has (m.put k v) k = true :=
  NMap.has_ins_self _ k v

/-! ### RegMap -/

theorem RegMap.find_del_self (m : RegMap) (k : Nat × Nat) : RegMap.find (RegMap.del m k) k = none := by
  induction m with
  | nil => rfl
  | cons e r ih =>
    obtain ⟨j, v⟩ := e
    by_cases h : j = k
    · have : RegMap.del ((j, v) :: r) k = RegMap.del r k := by simp [RegMap.del, h]
      rw [this, ih]
    · have : RegMap.del ((j, v) :: r) k = (j, v) :: RegMap.del r k := by simp [RegMap.del, h]
      rw [this, RegMap.find, if_neg h, ih]

theorem RegMap.find_filter (m : RegMap) (q : (Nat × Nat) × Nat → Bool) (k : Nat × Nat) (h : ∀ v, q (k, v) = true) :
    RegMap.find (m.filter q) k = RegMap.find m k := by
  induction m with
  | nil => rfl
  | cons e r ih =>
    obtain ⟨j, v⟩ := e
    by_cases hj : j = k
    · subst hj; simp [h, RegMap.find]
    · by_cases hq : q (j, v) = true
      · simp [hq, RegMap.find, hj, ih]
      · simp [hq, RegMap.find, hj, ih]

theorem RegMap.find_del_other (m : RegMap) {k j : Nat × Nat} (h : j ≠ k) :
    RegMap.find (RegMap.del m k) j = RegMap.find m j :=
  RegMap.find_filter m _ j fun v => by simp [h]

theorem RegMap.find_ins_self (m : RegMap) (k : Nat × Nat) (v : Nat) (h : ∀ e ∈ m, e.1 ≠ k) :
    RegMap.find (RegMap.ins m k v) k = some v := by
  induction m with
  | nil => simp [RegMap.ins, RegMap.find]
  | cons e r ih =>
    obtain ⟨i, w⟩ := e
    have h1 : i ≠ k := h (i, w) (by simp)
    by_cases h2 : keyLt k i = true
    · simp [RegMap.ins, h2, RegMap.find]
    · simp only [RegMap.ins, if_neg h2]
      rw [RegMap.find, if_neg h1]
      exact ih fun e he => h e (by simp [he])

theorem RegMap.find_ins_other (m : RegMap) {k j : Nat × Nat} (v : Nat) (h : j ≠ k) :
    RegMap.find (RegMap.ins m k v) j = RegMap.find m j := by
  have h' : k ≠ j := fun e => h e.symm
  induction m with
  | nil => simp [RegMap.ins, RegMap.find, h']
  | cons e r ih =>
    obtain ⟨i, w⟩ := e
    by_cases h2 : keyLt k i = true
    · simp [RegMap.ins, h2, RegMap.find, h']
    · simp only [RegMap.ins, if_neg h2]
      rw [RegMap.find, ih, ← RegMap.find]

/-- A register field reads, after a write, as the value written; a value equal to the default need not be listed. -/
@[simp] theorem RegMap.find_put_self (m : RegMap) (k : Nat × Nat) (v d : Nat) :
    (RegMap.find (RegMap.put m k v d) k).getD d = v := by
  unfold RegMap.put
  split
  · rename_i h; rw [RegMap.find_del_self, h]; rfl
  · rw [RegMap.find_ins_self]
    · rfl
    · intro e he; simpa [RegMap.del] using (List.mem_filter.1 he).2

/-- A write leaves every other field alone. -/
theorem RegMap.find_put_other (m : RegMap) {k j : Nat × Nat} (v d : Nat) (h : j ≠ k) :
    RegMap.find (RegMap.put m k v d) j = RegMap.find m j := by
  unfold RegMap.put
  split
  · exact RegMap.find_del_other m h
  · rw [RegMap.find_ins_other _ _ h, RegMap.find_del_other m h]

/-! ### Memory cells -/

/-- Every address of the cells is a or above. -/
def Memory.from (a : Nat) (m : List Host.Cell) : Prop := ∀ e ∈ m, a ≤ e.1

theorem Memory.wf_iff (m : List Host.Cell) : Memory.wf m = true ↔ m.Pairwise fun x y => x.1 < y.1 := by
  induction m with
  | nil => simp [Memory.wf]
  | cons e r ih =>
    cases r with
    | nil => simp [Memory.wf]
    | cons f t =>
      simp only [Memory.wf, Bool.and_eq_true, decide_eq_true_eq, ih]
      constructor
      · rintro ⟨h1, h2⟩
        refine List.Pairwise.cons ?_ h2
        intro x hx
        cases List.mem_cons.1 hx with
        | inl h => exact h ▸ h1
        | inr h => exact Nat.lt_trans h1 ((List.pairwise_cons.1 h2).1 x h)
      · intro h
        have := List.pairwise_cons.1 h
        exact ⟨this.1 f (by simp), this.2⟩

/-- Taking a byte out of the list keeps the canonical form. -/
theorem Memory.wf_del (m : List Host.Cell) (a : Nat) (h : Memory.wf m = true) : Memory.wf (Memory.del m a) = true := by
  rw [Memory.wf_iff] at *
  exact h.filter _

theorem Memory.mem_put (m : List Host.Cell) (a : Nat) (b : Byte) (e : Host.Cell) (h : e ∈ Memory.put m a b) :
    e = (a, b) ∨ e ∈ m := by
  induction m with
  | nil => simpa [Memory.put] using h
  | cons f r ih =>
    by_cases h1 : a < f.1
    · simpa [Memory.put, h1] using h
    · by_cases h2 : a = f.1
      · simp only [Memory.put, if_neg h1, if_pos h2] at h
        rcases List.mem_cons.1 h with h | h
        · exact Or.inl (h2 ▸ h)
        · exact Or.inr (by simp [h])
      · simp only [Memory.put, h1, h2, if_false] at h
        rcases List.mem_cons.1 h with h | h
        · exact Or.inr (by simp [h])
        · rcases ih h with h | h
          · exact Or.inl h
          · exact Or.inr (by simp [h])

/-- Writing a byte keeps the canonical form. -/
theorem Memory.wf_put (m : List Host.Cell) (a : Nat) (b : Byte) (h : Memory.wf m = true) :
    Memory.wf (Memory.put m a b) = true := by
  rw [Memory.wf_iff] at *
  induction m with
  | nil => simp [Memory.put]
  | cons f r ih =>
    have hp := List.pairwise_cons.1 h
    by_cases h1 : a < f.1
    · simp only [Memory.put, h1, if_true]
      refine List.Pairwise.cons ?_ h
      intro x hx
      rcases List.mem_cons.1 hx with hx | hx
      · exact hx ▸ h1
      · exact Nat.lt_trans h1 (hp.1 x hx)
    · by_cases h2 : a = f.1
      · simp only [Memory.put, h1, if_false, if_pos h2]
        exact List.Pairwise.cons (fun x hx => h2 ▸ hp.1 x hx) hp.2
      · simp only [Memory.put, h1, h2, if_false]
        refine List.Pairwise.cons ?_ (ih hp.2)
        intro x hx
        rcases Memory.mem_put _ _ _ _ hx with hx | hx
        · rw [hx]; exact Nat.lt_of_le_of_ne (Nat.le_of_not_lt h1) (fun e => h2 e.symm)
        · exact hp.1 x hx

theorem Memory.mem_zipIdx_range {l : List Byte} {n : Nat} {x : Byte × Nat} (h : x ∈ l.zipIdx n) :
    n ≤ x.2 ∧ x.2 < n + l.length := by
  obtain ⟨i, hi, he⟩ := List.getElem_of_mem h
  simp at he hi
  subst he
  simp only
  omega

theorem Memory.pairwise_zipIdx (l : List Byte) (a n : Nat) :
    ((l.zipIdx n).map fun x => ((a + x.2, x.1) : Host.Cell)).Pairwise fun x y => x.1 < y.1 := by
  induction l generalizing n with
  | nil => simp
  | cons b r ih =>
    simp only [List.zipIdx_cons, List.map_cons]
    refine List.Pairwise.cons ?_ (ih (n + 1))
    intro x hx
    obtain ⟨y, hy, rfl⟩ := List.mem_map.1 hx
    have := (Memory.mem_zipIdx_range hy).1
    simp only
    omega

/-- Writing bytes keeps the canonical form. -/
theorem Memory.wf_puts (m : List Host.Cell) (a : Nat) (l : List Byte) (h : Memory.wf m = true) :
    Memory.wf (Memory.puts m a l) = true := by
  rw [Memory.wf_iff] at *
  unfold Memory.puts
  rw [List.pairwise_append, List.pairwise_append]
  refine ⟨⟨h.filter _, Memory.pairwise_zipIdx l a 0, ?_⟩, h.filter _, ?_⟩
  · intro x hx y hy
    obtain ⟨z, hz, rfl⟩ := List.mem_map.1 hy
    have := (List.mem_filter.1 hx).2
    simp only [decide_eq_true_eq] at this
    simp only
    omega
  · intro x hx y hy
    have hy := (List.mem_filter.1 hy).2
    simp only [decide_eq_true_eq] at hy
    rcases List.mem_append.1 hx with hx | hx
    · have hx := (List.mem_filter.1 hx).2
      simp only [decide_eq_true_eq] at hx
      omega
    · obtain ⟨z, hz, rfl⟩ := List.mem_map.1 hx
      have := (Memory.mem_zipIdx_range hz).2
      simp only
      omega

/-! Reads after writes. -/

theorem Memory.get_append (m n : List Host.Cell) (a : Nat) :
    Memory.get (m ++ n) a = (Memory.get m a).or (Memory.get n a) := by
  induction m with
  | nil => rfl
  | cons e r ih =>
    obtain ⟨j, v⟩ := e
    by_cases h : j = a <;> simp [Memory.get, h, ih]

theorem Memory.get_filter_keep (m : List Host.Cell) (q : Host.Cell → Bool) (a : Nat) (h : ∀ v, q (a, v) = true) :
    Memory.get (m.filter q) a = Memory.get m a := by
  induction m with
  | nil => rfl
  | cons e r ih =>
    obtain ⟨j, v⟩ := e
    by_cases hj : j = a
    · subst hj; simp [h, Memory.get]
    · by_cases hq : q (j, v) = true <;> simp [hq, Memory.get, hj, ih]

theorem Memory.get_filter_drop (m : List Host.Cell) (q : Host.Cell → Bool) (a : Nat) (h : ∀ v, q (a, v) = false) :
    Memory.get (m.filter q) a = none := by
  induction m with
  | nil => rfl
  | cons e r ih =>
    obtain ⟨j, v⟩ := e
    by_cases hq : q (j, v) = true
    · have hj : j ≠ a := fun e => by subst e; simp [h] at hq
      simp [hq, Memory.get, hj, ih]
    · simp [hq, ih]

theorem Memory.get_zipIdx (l : List Byte) (a n k : Nat) :
    Memory.get ((l.zipIdx n).map fun x => ((a + x.2, x.1) : Host.Cell)) k =
      if a + n ≤ k then l[k - (a + n)]? else none := by
  induction l generalizing n with
  | nil => simp [Memory.get]
  | cons b r ih =>
    simp only [List.zipIdx_cons, List.map_cons, Memory.get, ih]
    by_cases h : a + n = k
    · subst h; simp
    · simp only [h, if_false]
      by_cases h2 : a + n ≤ k
      · have h3 : a + (n + 1) ≤ k := by omega
        have h4 : k - (a + n) = (k - (a + (n + 1))) + 1 := by omega
        simp [h2, h3, h4]
      · have h3 : ¬ a + (n + 1) ≤ k := by omega
        simp [h2, h3]

/-- What a byte reads as after bytes are written: the one written, or what it held before. -/
theorem Memory.get_puts (m : List Host.Cell) (a : Nat) (l : List Byte) (k : Nat) :
    Memory.get (Memory.puts m a l) k = if a ≤ k ∧ k < a + l.length then l[k - a]? else Memory.get m k := by
  unfold Memory.puts
  rw [Memory.get_append, Memory.get_append, Memory.get_zipIdx l a 0 k]
  by_cases h1 : k < a
  · have h2 : ¬ a + 0 ≤ k := by omega
    have h3 : ¬ (a ≤ k ∧ k < a + l.length) := by omega
    rw [Memory.get_filter_keep _ _ k (fun v => by simp [h1]),
      Memory.get_filter_drop m (fun e => decide (a + l.length ≤ e.1)) k (fun v => by simp; omega), if_neg h2, if_neg h3]
    simp
  · rw [Memory.get_filter_drop _ _ k (fun v => by simp; omega)]
    have h2 : a + 0 ≤ k := by omega
    rw [if_pos h2]
    by_cases h3 : k < a + l.length
    · have h4 : a ≤ k ∧ k < a + l.length := by omega
      have h5 : k - (a + 0) < l.length := by omega
      rw [Memory.get_filter_drop _ _ k (fun v => by simp; omega), if_pos h4]
      simp
    · have h4 : ¬ (a ≤ k ∧ k < a + l.length) := by omega
      rw [Memory.get_filter_keep _ _ k (fun v => by simp; omega), if_neg h4]
      have h5 : l[k - (a + 0)]? = none := by simp; omega
      rw [h5]
      simp

theorem Memory.get_put_self (m : List Host.Cell) (a : Nat) (b : Byte) (h : Memory.wf m = true) :
    Memory.get (Memory.put m a b) a = some b := by
  rw [Memory.wf_iff] at h
  induction m with
  | nil => simp [Memory.put, Memory.get]
  | cons f r ih =>
    have hp := List.pairwise_cons.1 h
    by_cases h1 : a < f.1
    · simp [Memory.put, h1, Memory.get]
    · by_cases h2 : a = f.1
      · simp only [Memory.put, h1, if_false, if_pos h2]; simp [Memory.get]
      · simp only [Memory.put, h1, h2, if_false]
        rw [Memory.get, if_neg (fun e => h2 e.symm), ih hp.2]

theorem Memory.get_put_other (m : List Host.Cell) {a k : Nat} (b : Byte) (h : k ≠ a) :
    Memory.get (Memory.put m a b) k = Memory.get m k := by
  have h' : a ≠ k := fun e => h e.symm
  induction m with
  | nil => simp [Memory.put, Memory.get, h']
  | cons f r ih =>
    obtain ⟨j, v⟩ := f
    by_cases h1 : a < j
    · simp [Memory.put, h1, Memory.get, h']
    · by_cases h2 : a = j
      · subst h2; simp [Memory.put, Memory.get, h']
      · simp only [Memory.put, h1, h2, if_false, Memory.get, ih]

theorem Memory.get_of_lt (m : List Host.Cell) (a : Nat) (h : ∀ e ∈ m, a < e.1) : Memory.get m a = none := by
  induction m with
  | nil => rfl
  | cons e r ih =>
    obtain ⟨j, v⟩ := e
    have : j ≠ a := by have := h (j, v) (by simp); simp only at this; omega
    rw [Memory.get, if_neg this, ih fun e he => h e (by simp [he])]

theorem Memory.take_eq (m : List Host.Cell) (a n : Nat) (h : m.Pairwise fun x y => x.1 < y.1) (hf : Memory.from a m) :
    Memory.take m a n = (List.range n).map fun i => Memory.get m (a + i) := by
  induction n generalizing m a with
  | zero => cases m <;> rfl
  | succ n ih =>
    rw [List.range_succ_eq_map]
    cases m with
    | nil =>
      simp only [Memory.take, List.map_cons, List.map_map, Memory.get]
      rw [ih [] (a + 1) (by simp) (by intro e he; simp at he)]
      simp [Memory.get, Function.comp_def]
    | cons e r =>
      obtain ⟨j, v⟩ := e
      have hp := List.pairwise_cons.1 h
      have hj : a ≤ j := hf (j, v) (by simp)
      by_cases h1 : j = a
      · subst h1
        simp only [Memory.take, if_true, List.map_cons, List.map_map, Memory.get, Nat.add_zero]
        rw [ih r (j + 1) hp.2 (fun e he => hp.1 e he)]
        congr 1
        apply List.map_congr_left
        intro i _
        have : j ≠ j + (i + 1) := by omega
        simp only [Function.comp, Nat.succ_eq_add_one, if_neg this]
        congr 1
        omega
      · simp only [Memory.take, if_neg h1, List.map_cons, List.map_map, Nat.add_zero]
        have hlt : a + 1 ≤ j := by omega
        rw [ih ((j, v) :: r) (a + 1) h (fun e he => by
          rcases List.mem_cons.1 he with he | he
          · subst he; exact hlt
          · exact Nat.le_of_lt (Nat.lt_of_le_of_lt hlt (hp.1 e he)))]
        congr 1
        · rw [Memory.get, if_neg h1, Memory.get_of_lt r a fun e he => Nat.lt_of_le_of_lt hj (hp.1 e he)]
        · apply List.map_congr_left
          intro i _
          simp only [Function.comp, Nat.succ_eq_add_one]
          congr 1
          omega

theorem Memory.dropWhile_get (m : List Host.Cell) (a k : Nat) (hk : a ≤ k) :
    Memory.get (m.dropWhile fun e => decide (e.1 < a)) k = Memory.get m k := by
  induction m with
  | nil => rfl
  | cons e r ih =>
    obtain ⟨j, v⟩ := e
    by_cases h : j < a
    · have : j ≠ k := by omega
      simp [h, Memory.get, this, ih]
    · simp [h]

/-- In the canonical form, a slice is the bytes listed at its addresses, one by one. -/
theorem Memory.slice_eq (m : List Host.Cell) (a n : Nat) (h : Memory.wf m = true) :
    Memory.slice m a n = (List.range n).map fun i => Memory.get m (a + i) := by
  rw [Memory.wf_iff] at h
  unfold Memory.slice
  have hs := List.Pairwise.sublist (List.dropWhile_sublist fun e : Host.Cell => decide (e.1 < a)) h
  rw [Memory.take_eq _ a n hs]
  · apply List.map_congr_left
    intro i _
    exact Memory.dropWhile_get m a (a + i) (by omega)
  · intro e he
    generalize hm : m.dropWhile (fun e => decide (e.1 < a)) = d at he hs
    cases d with
    | nil => simp at he
    | cons f r =>
      have hf : a ≤ f.1 := by
        have := List.head_dropWhile_not (p := fun e : Host.Cell => decide (e.1 < a)) (l := m) (by rw [hm]; simp)
        simp only [hm, List.head_cons, decide_eq_false_iff_not] at this
        omega
      rcases List.mem_cons.1 he with he | he
      · exact he ▸ hf
      · exact Nat.le_of_lt (Nat.lt_of_le_of_lt hf ((List.pairwise_cons.1 hs).1 e he))

/-- A field of a page that a copy takes reads in the target as it did in the source, and every other field as before. -/
theorem RegMap.find_copyPage (src dst : RegMap) (p p' : Nat) (q : Nat → Bool) (j : Nat) (h : q j = true) :
    RegMap.find (RegMap.copyPage src dst p p' q) (p', j) = RegMap.find src (p, j) := by
  unfold RegMap.copyPage
  induction src with
  | nil =>
    simp only [List.filter_nil, List.foldr_nil, RegMap.find]
    induction dst with
    | nil => rfl
    | cons e r ih =>
      rw [List.filter_cons]
      split
      · rename_i he
        obtain ⟨k, v⟩ := e
        simp only [RegMap.find]
        rw [if_neg, ih]
        rintro rfl
        simp [h] at he
      · exact ih
  | cons e r ih =>
    obtain ⟨⟨a, i⟩, v⟩ := e
    rw [List.filter_cons]
    simp only [RegMap.find]
    split
    · rename_i he
      rw [List.foldr_cons]
      simp only [Bool.and_eq_true, beq_iff_eq] at he
      by_cases hij : i = j
      · subst hij
        rw [if_pos (by rw [he.1]), RegMap.find_ins_self]
        intro e he'
        simpa using (List.mem_filter.1 he').2
      · rw [if_neg (by simp [hij]), RegMap.find_ins_other _ _ (by simp [Ne.symm hij]),
          RegMap.find_del_other _ (by simp [Ne.symm hij]), ih]
    · rename_i he
      rw [ih, if_neg]
      rintro hh
      simp only [Prod.mk.injEq] at hh
      exact he (by simp [hh.1, hh.2, h])
/-- A field that a page drops is not listed. -/
theorem RegMap.find_dropPage_gone (m : RegMap) (p : Nat) (keep : Nat → Bool) (j : Nat) (h : keep j = false) :
    RegMap.find (m.dropPage p keep) (p, j) = none := by
  unfold RegMap.dropPage
  induction m with
  | nil => rfl
  | cons e r ih =>
    obtain ⟨k, v⟩ := e
    rw [List.filter_cons]
    split
    · rename_i hk
      simp only [RegMap.find]
      rw [if_neg, ih]
      rintro rfl
      simp [h] at hk
    · exact ih
/-- A field that a page keeps, or that is another page's, is listed as before. -/
theorem RegMap.find_dropPage_kept (m : RegMap) (p : Nat) (keep : Nat → Bool) (q j : Nat) (h : q ≠ p ∨ keep j = true) :
    RegMap.find (m.dropPage p keep) (q, j) = RegMap.find m (q, j) := by
  unfold RegMap.dropPage
  refine RegMap.find_filter _ _ _ fun v => ?_
  simp only [Bool.or_eq_true, bne_iff_ne]
  exact h

end Sys2Proof.Machine
end

