-- ==== Sys2Proof/Laws/State.lean ====
section
/-! SUPPORT. What each basic update of State leaves as it was, one lemma per field per update, and what it changes. -/

namespace Sys2Proof.Machine

/-! `set` -/
@[simp] theorem State.set_pending (s : State) (p : Nat) (f : Fld) (v : Nat) : (s.set p f v).pending = s.pending := rfl
@[simp] theorem State.set_tick (s : State) (p : Nat) (f : Fld) (v : Nat) : (s.set p f v).tick = s.tick := rfl
@[simp] theorem State.set_osc (s : State) (p : Nat) (f : Fld) (v : Nat) : (s.set p f v).osc = s.osc := rfl
@[simp] theorem State.set_phi (s : State) (p : Nat) (f : Fld) (v : Nat) : (s.set p f v).phi = s.phi := rfl
@[simp] theorem State.set_cNs (s : State) (p : Nat) (f : Fld) (v : Nat) : (s.set p f v).cNs = s.cNs := rfl
@[simp] theorem State.set_cFrac (s : State) (p : Nat) (f : Fld) (v : Nat) : (s.set p f v).cFrac = s.cFrac := rfl
@[simp] theorem State.set_timeCmd (s : State) (p : Nat) (f : Fld) (v : Nat) : (s.set p f v).timeCmd = s.timeCmd := rfl
@[simp] theorem State.set_inReset (s : State) (p : Nat) (f : Fld) (v : Nat) : (s.set p f v).inReset = s.inReset := rfl
@[simp] theorem State.set_pll (s : State) (p : Nat) (f : Fld) (v : Nat) : (s.set p f v).pll = s.pll := rfl
@[simp] theorem State.set_heldReset (s : State) (p : Nat) (f : Fld) (v : Nat) : (s.set p f v).heldReset = s.heldReset := rfl
@[simp] theorem State.set_heldClock (s : State) (p : Nat) (f : Fld) (v : Nat) : (s.set p f v).heldClock = s.heldClock := rfl
@[simp] theorem State.set_wrstPend (s : State) (p : Nat) (f : Fld) (v : Nat) : (s.set p f v).wrstPend = s.wrstPend := rfl
@[simp] theorem State.set_straps (s : State) (p : Nat) (f : Fld) (v : Nat) : (s.set p f v).straps = s.straps := rfl
@[simp] theorem State.set_liveStraps (s : State) (p : Nat) (f : Fld) (v : Nat) : (s.set p f v).liveStraps = s.liveStraps := rfl
@[simp] theorem State.set_cmpAt (s : State) (p : Nat) (f : Fld) (v : Nat) : (s.set p f v).cmpAt = s.cmpAt := rfl
@[simp] theorem State.set_mfioIn (s : State) (p : Nat) (f : Fld) (v : Nat) : (s.set p f v).mfioIn = s.mfioIn := rfl
@[simp] theorem State.set_pulses (s : State) (p : Nat) (f : Fld) (v : Nat) : (s.set p f v).pulses = s.pulses := rfl
@[simp] theorem State.set_tap (s : State) (p : Nat) (f : Fld) (v : Nat) : (s.set p f v).tap = s.tap := rfl
@[simp] theorem State.set_tapReg (s : State) (p : Nat) (f : Fld) (v : Nat) : (s.set p f v).tapReg = s.tapReg := rfl
@[simp] theorem State.set_cells (s : State) (p : Nat) (f : Fld) (v : Nat) : (s.set p f v).cells = s.cells := rfl
@[simp] theorem State.set_pendv (s : State) (p : Nat) (f : Fld) (v : Nat) : (s.set p f v).pendv = s.pendv := rfl
@[simp] theorem State.set_appl (s : State) (p : Nat) (f : Fld) (v : Nat) : (s.set p f v).appl = s.appl := rfl
@[simp] theorem State.set_latch (s : State) (p : Nat) (f : Fld) (v : Nat) : (s.set p f v).latch = s.latch := rfl
@[simp] theorem State.set_srsts (s : State) (p : Nat) (f : Fld) (v : Nat) : (s.set p f v).srsts = s.srsts := rfl
@[simp] theorem State.set_commits (s : State) (p : Nat) (f : Fld) (v : Nat) : (s.set p f v).commits = s.commits := rfl
@[simp] theorem State.set_fenceAt (s : State) (p : Nat) (f : Fld) (v : Nat) : (s.set p f v).fenceAt = s.fenceAt := rfl
@[simp] theorem State.set_lateCause (s : State) (p : Nat) (f : Fld) (v : Nat) : (s.set p f v).lateCause = s.lateCause := rfl
@[simp] theorem State.set_rdata (s : State) (p : Nat) (f : Fld) (v : Nat) : (s.set p f v).rdata = s.rdata := rfl
@[simp] theorem State.set_outs (s : State) (p : Nat) (f : Fld) (v : Nat) : (s.set p f v).outs = s.outs := rfl
@[simp] theorem State.set_fresh (s : State) (p : Nat) (f : Fld) (v : Nat) : (s.set p f v).fresh = s.fresh := rfl
@[simp] theorem State.set_epoch (s : State) (p : Nat) (f : Fld) (v : Nat) : (s.set p f v).epoch = s.epoch := rfl
@[simp] theorem State.set_lstore (s : State) (p : Nat) (f : Fld) (v : Nat) : (s.set p f v).lstore = s.lstore := rfl
@[simp] theorem State.set_lsErr (s : State) (p : Nat) (f : Fld) (v : Nat) : (s.set p f v).lsErr = s.lsErr := rfl
@[simp] theorem State.set_lsRep (s : State) (p : Nat) (f : Fld) (v : Nat) : (s.set p f v).lsRep = s.lsRep := rfl
@[simp] theorem State.set_dramMem (s : State) (p : Nat) (f : Fld) (v : Nat) : (s.set p f v).dramMem = s.dramMem := rfl
@[simp] theorem State.set_dramChk (s : State) (p : Nat) (f : Fld) (v : Nat) : (s.set p f v).dramChk = s.dramChk := rfl
@[simp] theorem State.set_dramWait (s : State) (p : Nat) (f : Fld) (v : Nat) : (s.set p f v).dramWait = s.dramWait := rfl
@[simp] theorem State.set_bells (s : State) (p : Nat) (f : Fld) (v : Nat) : (s.set p f v).bells = s.bells := rfl
@[simp] theorem State.set_ackDue (s : State) (p : Nat) (f : Fld) (v : Nat) : (s.set p f v).ackDue = s.ackDue := rfl
@[simp] theorem State.set_flash (s : State) (p : Nat) (f : Fld) (v : Nat) : (s.set p f v).flash = s.flash := rfl
@[simp] theorem State.set_pos (s : State) (p : Nat) (f : Fld) (v : Nat) : (s.set p f v).pos = s.pos := rfl
@[simp] theorem State.set_posStarted (s : State) (p : Nat) (f : Fld) (v : Nat) : (s.set p f v).posStarted = s.posStarted := rfl
@[simp] theorem State.set_line (s : State) (p : Nat) (f : Fld) (v : Nat) : (s.set p f v).line = s.line := rfl
@[simp] theorem State.set_pipe (s : State) (p : Nat) (f : Fld) (v : Nat) : (s.set p f v).pipe = s.pipe := rfl
@[simp] theorem State.set_head (s : State) (p : Nat) (f : Fld) (v : Nat) : (s.set p f v).head = s.head := rfl
@[simp] theorem State.set_dma (s : State) (p : Nat) (f : Fld) (v : Nat) : (s.set p f v).dma = s.dma := rfl
@[simp] theorem State.set_lastDma (s : State) (p : Nat) (f : Fld) (v : Nat) : (s.set p f v).lastDma = s.lastDma := rfl
@[simp] theorem State.set_lastDec (s : State) (p : Nat) (f : Fld) (v : Nat) : (s.set p f v).lastDec = s.lastDec := rfl
@[simp] theorem State.set_queues (s : State) (p : Nat) (f : Fld) (v : Nat) : (s.set p f v).queues = s.queues := rfl
@[simp] theorem State.set_sinks (s : State) (p : Nat) (f : Fld) (v : Nat) : (s.set p f v).sinks = s.sinks := rfl
@[simp] theorem State.set_enc (s : State) (p : Nat) (f : Fld) (v : Nat) : (s.set p f v).enc = s.enc := rfl
@[simp] theorem State.set_job (s : State) (p : Nat) (f : Fld) (v : Nat) : (s.set p f v).job = s.job := rfl
@[simp] theorem State.set_dec (s : State) (p : Nat) (f : Fld) (v : Nat) : (s.set p f v).dec = s.dec := rfl
@[simp] theorem State.set_port (s : State) (p : Nat) (f : Fld) (v : Nat) : (s.set p f v).port = s.port := rfl
@[simp] theorem State.set_prof (s : State) (p : Nat) (f : Fld) (v : Nat) : (s.set p f v).prof = s.prof := rfl
@[simp] theorem State.set_breath (s : State) (p : Nat) (f : Fld) (v : Nat) : (s.set p f v).breath = s.breath := rfl
@[simp] theorem State.set_pair (s : State) (p : Nat) (f : Fld) (v : Nat) : (s.set p f v).pair = s.pair := rfl
@[simp] theorem State.set_cam (s : State) (p : Nat) (f : Fld) (v : Nat) : (s.set p f v).cam = s.cam := rfl
@[simp] theorem State.set_camc (s : State) (p : Nat) (f : Fld) (v : Nat) : (s.set p f v).camc = s.camc := rfl
@[simp] theorem State.set_chant (s : State) (p : Nat) (f : Fld) (v : Nat) : (s.set p f v).chant = s.chant := rfl
@[simp] theorem State.set_calst (s : State) (p : Nat) (f : Fld) (v : Nat) : (s.set p f v).calst = s.calst := rfl
@[simp] theorem State.set_dram (s : State) (p : Nat) (f : Fld) (v : Nat) : (s.set p f v).dram = s.dram := rfl
@[simp] theorem State.set_scrub (s : State) (p : Nat) (f : Fld) (v : Nat) : (s.set p f v).scrub = s.scrub := rfl
@[simp] theorem State.set_trackClear (s : State) (p : Nat) (f : Fld) (v : Nat) : (s.set p f v).trackClear = s.trackClear := rfl
@[simp] theorem State.set_lane (s : State) (p : Nat) (f : Fld) (v : Nat) : (s.set p f v).lane = s.lane := rfl
@[simp] theorem State.set_boot (s : State) (p : Nat) (f : Fld) (v : Nat) : (s.set p f v).boot = s.boot := rfl
@[simp] theorem State.set_host (s : State) (p : Nat) (f : Fld) (v : Nat) : (s.set p f v).host = s.host := rfl

/-! `setFlag` -/
@[simp] theorem State.setFlag_pending (s : State) (p : Nat) (f : Fld) (b : Bool) : (s.setFlag p f b).pending = s.pending := rfl
@[simp] theorem State.setFlag_tick (s : State) (p : Nat) (f : Fld) (b : Bool) : (s.setFlag p f b).tick = s.tick := rfl
@[simp] theorem State.setFlag_osc (s : State) (p : Nat) (f : Fld) (b : Bool) : (s.setFlag p f b).osc = s.osc := rfl
@[simp] theorem State.setFlag_phi (s : State) (p : Nat) (f : Fld) (b : Bool) : (s.setFlag p f b).phi = s.phi := rfl
@[simp] theorem State.setFlag_cNs (s : State) (p : Nat) (f : Fld) (b : Bool) : (s.setFlag p f b).cNs = s.cNs := rfl
@[simp] theorem State.setFlag_cFrac (s : State) (p : Nat) (f : Fld) (b : Bool) : (s.setFlag p f b).cFrac = s.cFrac := rfl
@[simp] theorem State.setFlag_timeCmd (s : State) (p : Nat) (f : Fld) (b : Bool) : (s.setFlag p f b).timeCmd = s.timeCmd := rfl
@[simp] theorem State.setFlag_inReset (s : State) (p : Nat) (f : Fld) (b : Bool) : (s.setFlag p f b).inReset = s.inReset := rfl
@[simp] theorem State.setFlag_pll (s : State) (p : Nat) (f : Fld) (b : Bool) : (s.setFlag p f b).pll = s.pll := rfl
@[simp] theorem State.setFlag_heldReset (s : State) (p : Nat) (f : Fld) (b : Bool) : (s.setFlag p f b).heldReset = s.heldReset := rfl
@[simp] theorem State.setFlag_heldClock (s : State) (p : Nat) (f : Fld) (b : Bool) : (s.setFlag p f b).heldClock = s.heldClock := rfl
@[simp] theorem State.setFlag_wrstPend (s : State) (p : Nat) (f : Fld) (b : Bool) : (s.setFlag p f b).wrstPend = s.wrstPend := rfl
@[simp] theorem State.setFlag_straps (s : State) (p : Nat) (f : Fld) (b : Bool) : (s.setFlag p f b).straps = s.straps := rfl
@[simp] theorem State.setFlag_liveStraps (s : State) (p : Nat) (f : Fld) (b : Bool) : (s.setFlag p f b).liveStraps =
    s.liveStraps := rfl
@[simp] theorem State.setFlag_cmpAt (s : State) (p : Nat) (f : Fld) (b : Bool) : (s.setFlag p f b).cmpAt = s.cmpAt := rfl
@[simp] theorem State.setFlag_mfioIn (s : State) (p : Nat) (f : Fld) (b : Bool) : (s.setFlag p f b).mfioIn = s.mfioIn := rfl
@[simp] theorem State.setFlag_pulses (s : State) (p : Nat) (f : Fld) (b : Bool) : (s.setFlag p f b).pulses = s.pulses := rfl
@[simp] theorem State.setFlag_tap (s : State) (p : Nat) (f : Fld) (b : Bool) : (s.setFlag p f b).tap = s.tap := rfl
@[simp] theorem State.setFlag_tapReg (s : State) (p : Nat) (f : Fld) (b : Bool) : (s.setFlag p f b).tapReg = s.tapReg := rfl
@[simp] theorem State.setFlag_cells (s : State) (p : Nat) (f : Fld) (b : Bool) : (s.setFlag p f b).cells = s.cells := rfl
@[simp] theorem State.setFlag_pendv (s : State) (p : Nat) (f : Fld) (b : Bool) : (s.setFlag p f b).pendv = s.pendv := rfl
@[simp] theorem State.setFlag_appl (s : State) (p : Nat) (f : Fld) (b : Bool) : (s.setFlag p f b).appl = s.appl := rfl
@[simp] theorem State.setFlag_latch (s : State) (p : Nat) (f : Fld) (b : Bool) : (s.setFlag p f b).latch = s.latch := rfl
@[simp] theorem State.setFlag_srsts (s : State) (p : Nat) (f : Fld) (b : Bool) : (s.setFlag p f b).srsts = s.srsts := rfl
@[simp] theorem State.setFlag_commits (s : State) (p : Nat) (f : Fld) (b : Bool) : (s.setFlag p f b).commits = s.commits := rfl
@[simp] theorem State.setFlag_fenceAt (s : State) (p : Nat) (f : Fld) (b : Bool) : (s.setFlag p f b).fenceAt = s.fenceAt := rfl
@[simp] theorem State.setFlag_lateCause (s : State) (p : Nat) (f : Fld) (b : Bool) : (s.setFlag p f b).lateCause = s.lateCause
    := rfl
@[simp] theorem State.setFlag_rdata (s : State) (p : Nat) (f : Fld) (b : Bool) : (s.setFlag p f b).rdata = s.rdata := rfl
@[simp] theorem State.setFlag_outs (s : State) (p : Nat) (f : Fld) (b : Bool) : (s.setFlag p f b).outs = s.outs := rfl
@[simp] theorem State.setFlag_fresh (s : State) (p : Nat) (f : Fld) (b : Bool) : (s.setFlag p f b).fresh = s.fresh := rfl
@[simp] theorem State.setFlag_epoch (s : State) (p : Nat) (f : Fld) (b : Bool) : (s.setFlag p f b).epoch = s.epoch := rfl
@[simp] theorem State.setFlag_lstore (s : State) (p : Nat) (f : Fld) (b : Bool) : (s.setFlag p f b).lstore = s.lstore := rfl
@[simp] theorem State.setFlag_lsErr (s : State) (p : Nat) (f : Fld) (b : Bool) : (s.setFlag p f b).lsErr = s.lsErr := rfl
@[simp] theorem State.setFlag_lsRep (s : State) (p : Nat) (f : Fld) (b : Bool) : (s.setFlag p f b).lsRep = s.lsRep := rfl
@[simp] theorem State.setFlag_dramMem (s : State) (p : Nat) (f : Fld) (b : Bool) : (s.setFlag p f b).dramMem = s.dramMem := rfl
@[simp] theorem State.setFlag_dramChk (s : State) (p : Nat) (f : Fld) (b : Bool) : (s.setFlag p f b).dramChk = s.dramChk := rfl
@[simp] theorem State.setFlag_dramWait (s : State) (p : Nat) (f : Fld) (b : Bool) : (s.setFlag p f b).dramWait = s.dramWait := rfl
@[simp] theorem State.setFlag_bells (s : State) (p : Nat) (f : Fld) (b : Bool) : (s.setFlag p f b).bells = s.bells := rfl
@[simp] theorem State.setFlag_ackDue (s : State) (p : Nat) (f : Fld) (b : Bool) : (s.setFlag p f b).ackDue = s.ackDue := rfl
@[simp] theorem State.setFlag_flash (s : State) (p : Nat) (f : Fld) (b : Bool) : (s.setFlag p f b).flash = s.flash := rfl
@[simp] theorem State.setFlag_pos (s : State) (p : Nat) (f : Fld) (b : Bool) : (s.setFlag p f b).pos = s.pos := rfl
@[simp] theorem State.setFlag_posStarted (s : State) (p : Nat) (f : Fld) (b : Bool) : (s.setFlag p f b).posStarted =
    s.posStarted := rfl
@[simp] theorem State.setFlag_line (s : State) (p : Nat) (f : Fld) (b : Bool) : (s.setFlag p f b).line = s.line := rfl
@[simp] theorem State.setFlag_pipe (s : State) (p : Nat) (f : Fld) (b : Bool) : (s.setFlag p f b).pipe = s.pipe := rfl
@[simp] theorem State.setFlag_head (s : State) (p : Nat) (f : Fld) (b : Bool) : (s.setFlag p f b).head = s.head := rfl
@[simp] theorem State.setFlag_dma (s : State) (p : Nat) (f : Fld) (b : Bool) : (s.setFlag p f b).dma = s.dma := rfl
@[simp] theorem State.setFlag_lastDma (s : State) (p : Nat) (f : Fld) (b : Bool) : (s.setFlag p f b).lastDma = s.lastDma := rfl
@[simp] theorem State.setFlag_lastDec (s : State) (p : Nat) (f : Fld) (b : Bool) : (s.setFlag p f b).lastDec = s.lastDec := rfl
@[simp] theorem State.setFlag_queues (s : State) (p : Nat) (f : Fld) (b : Bool) : (s.setFlag p f b).queues = s.queues := rfl
@[simp] theorem State.setFlag_sinks (s : State) (p : Nat) (f : Fld) (b : Bool) : (s.setFlag p f b).sinks = s.sinks := rfl
@[simp] theorem State.setFlag_enc (s : State) (p : Nat) (f : Fld) (b : Bool) : (s.setFlag p f b).enc = s.enc := rfl
@[simp] theorem State.setFlag_job (s : State) (p : Nat) (f : Fld) (b : Bool) : (s.setFlag p f b).job = s.job := rfl
@[simp] theorem State.setFlag_dec (s : State) (p : Nat) (f : Fld) (b : Bool) : (s.setFlag p f b).dec = s.dec := rfl
@[simp] theorem State.setFlag_port (s : State) (p : Nat) (f : Fld) (b : Bool) : (s.setFlag p f b).port = s.port := rfl
@[simp] theorem State.setFlag_prof (s : State) (p : Nat) (f : Fld) (b : Bool) : (s.setFlag p f b).prof = s.prof := rfl
@[simp] theorem State.setFlag_breath (s : State) (p : Nat) (f : Fld) (b : Bool) : (s.setFlag p f b).breath = s.breath := rfl
@[simp] theorem State.setFlag_pair (s : State) (p : Nat) (f : Fld) (b : Bool) : (s.setFlag p f b).pair = s.pair := rfl
@[simp] theorem State.setFlag_cam (s : State) (p : Nat) (f : Fld) (b : Bool) : (s.setFlag p f b).cam = s.cam := rfl
@[simp] theorem State.setFlag_camc (s : State) (p : Nat) (f : Fld) (b : Bool) : (s.setFlag p f b).camc = s.camc := rfl
@[simp] theorem State.setFlag_chant (s : State) (p : Nat) (f : Fld) (b : Bool) : (s.setFlag p f b).chant = s.chant := rfl
@[simp] theorem State.setFlag_calst (s : State) (p : Nat) (f : Fld) (b : Bool) : (s.setFlag p f b).calst = s.calst := rfl
@[simp] theorem State.setFlag_dram (s : State) (p : Nat) (f : Fld) (b : Bool) : (s.setFlag p f b).dram = s.dram := rfl
@[simp] theorem State.setFlag_scrub (s : State) (p : Nat) (f : Fld) (b : Bool) : (s.setFlag p f b).scrub = s.scrub := rfl
@[simp] theorem State.setFlag_trackClear (s : State) (p : Nat) (f : Fld) (b : Bool) : (s.setFlag p f b).trackClear =
    s.trackClear := rfl
@[simp] theorem State.setFlag_lane (s : State) (p : Nat) (f : Fld) (b : Bool) : (s.setFlag p f b).lane = s.lane := rfl
@[simp] theorem State.setFlag_boot (s : State) (p : Nat) (f : Fld) (b : Bool) : (s.setFlag p f b).boot = s.boot := rfl
@[simp] theorem State.setFlag_host (s : State) (p : Nat) (f : Fld) (b : Bool) : (s.setFlag p f b).host = s.host := rfl

/-! `setAp` -/
@[simp] theorem State.setAp_pending (s : State) (p : Nat) (f : Fld) (v : Nat) : (s.setAp p f v).pending = s.pending := rfl
@[simp] theorem State.setAp_tick (s : State) (p : Nat) (f : Fld) (v : Nat) : (s.setAp p f v).tick = s.tick := rfl
@[simp] theorem State.setAp_osc (s : State) (p : Nat) (f : Fld) (v : Nat) : (s.setAp p f v).osc = s.osc := rfl
@[simp] theorem State.setAp_phi (s : State) (p : Nat) (f : Fld) (v : Nat) : (s.setAp p f v).phi = s.phi := rfl
@[simp] theorem State.setAp_cNs (s : State) (p : Nat) (f : Fld) (v : Nat) : (s.setAp p f v).cNs = s.cNs := rfl
@[simp] theorem State.setAp_cFrac (s : State) (p : Nat) (f : Fld) (v : Nat) : (s.setAp p f v).cFrac = s.cFrac := rfl
@[simp] theorem State.setAp_timeCmd (s : State) (p : Nat) (f : Fld) (v : Nat) : (s.setAp p f v).timeCmd = s.timeCmd := rfl
@[simp] theorem State.setAp_inReset (s : State) (p : Nat) (f : Fld) (v : Nat) : (s.setAp p f v).inReset = s.inReset := rfl
@[simp] theorem State.setAp_pll (s : State) (p : Nat) (f : Fld) (v : Nat) : (s.setAp p f v).pll = s.pll := rfl
@[simp] theorem State.setAp_heldReset (s : State) (p : Nat) (f : Fld) (v : Nat) : (s.setAp p f v).heldReset = s.heldReset := rfl
@[simp] theorem State.setAp_heldClock (s : State) (p : Nat) (f : Fld) (v : Nat) : (s.setAp p f v).heldClock = s.heldClock := rfl
@[simp] theorem State.setAp_wrstPend (s : State) (p : Nat) (f : Fld) (v : Nat) : (s.setAp p f v).wrstPend = s.wrstPend := rfl
@[simp] theorem State.setAp_straps (s : State) (p : Nat) (f : Fld) (v : Nat) : (s.setAp p f v).straps = s.straps := rfl
@[simp] theorem State.setAp_liveStraps (s : State) (p : Nat) (f : Fld) (v : Nat) : (s.setAp p f v).liveStraps = s.liveStraps := rfl
@[simp] theorem State.setAp_cmpAt (s : State) (p : Nat) (f : Fld) (v : Nat) : (s.setAp p f v).cmpAt = s.cmpAt := rfl
@[simp] theorem State.setAp_mfioIn (s : State) (p : Nat) (f : Fld) (v : Nat) : (s.setAp p f v).mfioIn = s.mfioIn := rfl
@[simp] theorem State.setAp_pulses (s : State) (p : Nat) (f : Fld) (v : Nat) : (s.setAp p f v).pulses = s.pulses := rfl
@[simp] theorem State.setAp_tap (s : State) (p : Nat) (f : Fld) (v : Nat) : (s.setAp p f v).tap = s.tap := rfl
@[simp] theorem State.setAp_tapReg (s : State) (p : Nat) (f : Fld) (v : Nat) : (s.setAp p f v).tapReg = s.tapReg := rfl
@[simp] theorem State.setAp_cells (s : State) (p : Nat) (f : Fld) (v : Nat) : (s.setAp p f v).cells = s.cells := rfl
@[simp] theorem State.setAp_regs (s : State) (p : Nat) (f : Fld) (v : Nat) : (s.setAp p f v).regs = s.regs := rfl
@[simp] theorem State.setAp_pendv (s : State) (p : Nat) (f : Fld) (v : Nat) : (s.setAp p f v).pendv = s.pendv := rfl
@[simp] theorem State.setAp_latch (s : State) (p : Nat) (f : Fld) (v : Nat) : (s.setAp p f v).latch = s.latch := rfl
@[simp] theorem State.setAp_srsts (s : State) (p : Nat) (f : Fld) (v : Nat) : (s.setAp p f v).srsts = s.srsts := rfl
@[simp] theorem State.setAp_commits (s : State) (p : Nat) (f : Fld) (v : Nat) : (s.setAp p f v).commits = s.commits := rfl
@[simp] theorem State.setAp_fenceAt (s : State) (p : Nat) (f : Fld) (v : Nat) : (s.setAp p f v).fenceAt = s.fenceAt := rfl
@[simp] theorem State.setAp_lateCause (s : State) (p : Nat) (f : Fld) (v : Nat) : (s.setAp p f v).lateCause = s.lateCause := rfl
@[simp] theorem State.setAp_rdata (s : State) (p : Nat) (f : Fld) (v : Nat) : (s.setAp p f v).rdata = s.rdata := rfl
@[simp] theorem State.setAp_outs (s : State) (p : Nat) (f : Fld) (v : Nat) : (s.setAp p f v).outs = s.outs := rfl
@[simp] theorem State.setAp_fresh (s : State) (p : Nat) (f : Fld) (v : Nat) : (s.setAp p f v).fresh = s.fresh := rfl
@[simp] theorem State.setAp_epoch (s : State) (p : Nat) (f : Fld) (v : Nat) : (s.setAp p f v).epoch = s.epoch := rfl
@[simp] theorem State.setAp_lstore (s : State) (p : Nat) (f : Fld) (v : Nat) : (s.setAp p f v).lstore = s.lstore := rfl
@[simp] theorem State.setAp_lsErr (s : State) (p : Nat) (f : Fld) (v : Nat) : (s.setAp p f v).lsErr = s.lsErr := rfl
@[simp] theorem State.setAp_lsRep (s : State) (p : Nat) (f : Fld) (v : Nat) : (s.setAp p f v).lsRep = s.lsRep := rfl
@[simp] theorem State.setAp_dramMem (s : State) (p : Nat) (f : Fld) (v : Nat) : (s.setAp p f v).dramMem = s.dramMem := rfl
@[simp] theorem State.setAp_dramChk (s : State) (p : Nat) (f : Fld) (v : Nat) : (s.setAp p f v).dramChk = s.dramChk := rfl
@[simp] theorem State.setAp_dramWait (s : State) (p : Nat) (f : Fld) (v : Nat) : (s.setAp p f v).dramWait = s.dramWait := rfl
@[simp] theorem State.setAp_bells (s : State) (p : Nat) (f : Fld) (v : Nat) : (s.setAp p f v).bells = s.bells := rfl
@[simp] theorem State.setAp_ackDue (s : State) (p : Nat) (f : Fld) (v : Nat) : (s.setAp p f v).ackDue = s.ackDue := rfl
@[simp] theorem State.setAp_flash (s : State) (p : Nat) (f : Fld) (v : Nat) : (s.setAp p f v).flash = s.flash := rfl
@[simp] theorem State.setAp_pos (s : State) (p : Nat) (f : Fld) (v : Nat) : (s.setAp p f v).pos = s.pos := rfl
@[simp] theorem State.setAp_posStarted (s : State) (p : Nat) (f : Fld) (v : Nat) : (s.setAp p f v).posStarted = s.posStarted := rfl
@[simp] theorem State.setAp_line (s : State) (p : Nat) (f : Fld) (v : Nat) : (s.setAp p f v).line = s.line := rfl
@[simp] theorem State.setAp_pipe (s : State) (p : Nat) (f : Fld) (v : Nat) : (s.setAp p f v).pipe = s.pipe := rfl
@[simp] theorem State.setAp_head (s : State) (p : Nat) (f : Fld) (v : Nat) : (s.setAp p f v).head = s.head := rfl
@[simp] theorem State.setAp_dma (s : State) (p : Nat) (f : Fld) (v : Nat) : (s.setAp p f v).dma = s.dma := rfl
@[simp] theorem State.setAp_lastDma (s : State) (p : Nat) (f : Fld) (v : Nat) : (s.setAp p f v).lastDma = s.lastDma := rfl
@[simp] theorem State.setAp_lastDec (s : State) (p : Nat) (f : Fld) (v : Nat) : (s.setAp p f v).lastDec = s.lastDec := rfl
@[simp] theorem State.setAp_queues (s : State) (p : Nat) (f : Fld) (v : Nat) : (s.setAp p f v).queues = s.queues := rfl
@[simp] theorem State.setAp_sinks (s : State) (p : Nat) (f : Fld) (v : Nat) : (s.setAp p f v).sinks = s.sinks := rfl
@[simp] theorem State.setAp_enc (s : State) (p : Nat) (f : Fld) (v : Nat) : (s.setAp p f v).enc = s.enc := rfl
@[simp] theorem State.setAp_job (s : State) (p : Nat) (f : Fld) (v : Nat) : (s.setAp p f v).job = s.job := rfl
@[simp] theorem State.setAp_dec (s : State) (p : Nat) (f : Fld) (v : Nat) : (s.setAp p f v).dec = s.dec := rfl
@[simp] theorem State.setAp_port (s : State) (p : Nat) (f : Fld) (v : Nat) : (s.setAp p f v).port = s.port := rfl
@[simp] theorem State.setAp_prof (s : State) (p : Nat) (f : Fld) (v : Nat) : (s.setAp p f v).prof = s.prof := rfl
@[simp] theorem State.setAp_breath (s : State) (p : Nat) (f : Fld) (v : Nat) : (s.setAp p f v).breath = s.breath := rfl
@[simp] theorem State.setAp_pair (s : State) (p : Nat) (f : Fld) (v : Nat) : (s.setAp p f v).pair = s.pair := rfl
@[simp] theorem State.setAp_cam (s : State) (p : Nat) (f : Fld) (v : Nat) : (s.setAp p f v).cam = s.cam := rfl
@[simp] theorem State.setAp_camc (s : State) (p : Nat) (f : Fld) (v : Nat) : (s.setAp p f v).camc = s.camc := rfl
@[simp] theorem State.setAp_chant (s : State) (p : Nat) (f : Fld) (v : Nat) : (s.setAp p f v).chant = s.chant := rfl
@[simp] theorem State.setAp_calst (s : State) (p : Nat) (f : Fld) (v : Nat) : (s.setAp p f v).calst = s.calst := rfl
@[simp] theorem State.setAp_dram (s : State) (p : Nat) (f : Fld) (v : Nat) : (s.setAp p f v).dram = s.dram := rfl
@[simp] theorem State.setAp_scrub (s : State) (p : Nat) (f : Fld) (v : Nat) : (s.setAp p f v).scrub = s.scrub := rfl
@[simp] theorem State.setAp_trackClear (s : State) (p : Nat) (f : Fld) (v : Nat) : (s.setAp p f v).trackClear = s.trackClear := rfl
@[simp] theorem State.setAp_lane (s : State) (p : Nat) (f : Fld) (v : Nat) : (s.setAp p f v).lane = s.lane := rfl
@[simp] theorem State.setAp_boot (s : State) (p : Nat) (f : Fld) (v : Nat) : (s.setAp p f v).boot = s.boot := rfl
@[simp] theorem State.setAp_host (s : State) (p : Nat) (f : Fld) (v : Nat) : (s.setAp p f v).host = s.host := rfl

/-! `setLatch` -/
@[simp] theorem State.setLatch_pending (s : State) (p off v : Nat) : (s.setLatch p off v).pending = s.pending := rfl
@[simp] theorem State.setLatch_tick (s : State) (p off v : Nat) : (s.setLatch p off v).tick = s.tick := rfl
@[simp] theorem State.setLatch_osc (s : State) (p off v : Nat) : (s.setLatch p off v).osc = s.osc := rfl
@[simp] theorem State.setLatch_phi (s : State) (p off v : Nat) : (s.setLatch p off v).phi = s.phi := rfl
@[simp] theorem State.setLatch_cNs (s : State) (p off v : Nat) : (s.setLatch p off v).cNs = s.cNs := rfl
@[simp] theorem State.setLatch_cFrac (s : State) (p off v : Nat) : (s.setLatch p off v).cFrac = s.cFrac := rfl
@[simp] theorem State.setLatch_timeCmd (s : State) (p off v : Nat) : (s.setLatch p off v).timeCmd = s.timeCmd := rfl
@[simp] theorem State.setLatch_inReset (s : State) (p off v : Nat) : (s.setLatch p off v).inReset = s.inReset := rfl
@[simp] theorem State.setLatch_pll (s : State) (p off v : Nat) : (s.setLatch p off v).pll = s.pll := rfl
@[simp] theorem State.setLatch_heldReset (s : State) (p off v : Nat) : (s.setLatch p off v).heldReset = s.heldReset := rfl
@[simp] theorem State.setLatch_heldClock (s : State) (p off v : Nat) : (s.setLatch p off v).heldClock = s.heldClock := rfl
@[simp] theorem State.setLatch_wrstPend (s : State) (p off v : Nat) : (s.setLatch p off v).wrstPend = s.wrstPend := rfl
@[simp] theorem State.setLatch_straps (s : State) (p off v : Nat) : (s.setLatch p off v).straps = s.straps := rfl
@[simp] theorem State.setLatch_liveStraps (s : State) (p off v : Nat) : (s.setLatch p off v).liveStraps = s.liveStraps := rfl
@[simp] theorem State.setLatch_cmpAt (s : State) (p off v : Nat) : (s.setLatch p off v).cmpAt = s.cmpAt := rfl
@[simp] theorem State.setLatch_mfioIn (s : State) (p off v : Nat) : (s.setLatch p off v).mfioIn = s.mfioIn := rfl
@[simp] theorem State.setLatch_pulses (s : State) (p off v : Nat) : (s.setLatch p off v).pulses = s.pulses := rfl
@[simp] theorem State.setLatch_tap (s : State) (p off v : Nat) : (s.setLatch p off v).tap = s.tap := rfl
@[simp] theorem State.setLatch_tapReg (s : State) (p off v : Nat) : (s.setLatch p off v).tapReg = s.tapReg := rfl
@[simp] theorem State.setLatch_cells (s : State) (p off v : Nat) : (s.setLatch p off v).cells = s.cells := rfl
@[simp] theorem State.setLatch_regs (s : State) (p off v : Nat) : (s.setLatch p off v).regs = s.regs := rfl
@[simp] theorem State.setLatch_pendv (s : State) (p off v : Nat) : (s.setLatch p off v).pendv = s.pendv := rfl
@[simp] theorem State.setLatch_appl (s : State) (p off v : Nat) : (s.setLatch p off v).appl = s.appl := rfl
@[simp] theorem State.setLatch_srsts (s : State) (p off v : Nat) : (s.setLatch p off v).srsts = s.srsts := rfl
@[simp] theorem State.setLatch_commits (s : State) (p off v : Nat) : (s.setLatch p off v).commits = s.commits := rfl
@[simp] theorem State.setLatch_fenceAt (s : State) (p off v : Nat) : (s.setLatch p off v).fenceAt = s.fenceAt := rfl
@[simp] theorem State.setLatch_lateCause (s : State) (p off v : Nat) : (s.setLatch p off v).lateCause = s.lateCause := rfl
@[simp] theorem State.setLatch_rdata (s : State) (p off v : Nat) : (s.setLatch p off v).rdata = s.rdata := rfl
@[simp] theorem State.setLatch_outs (s : State) (p off v : Nat) : (s.setLatch p off v).outs = s.outs := rfl
@[simp] theorem State.setLatch_fresh (s : State) (p off v : Nat) : (s.setLatch p off v).fresh = s.fresh := rfl
@[simp] theorem State.setLatch_epoch (s : State) (p off v : Nat) : (s.setLatch p off v).epoch = s.epoch := rfl
@[simp] theorem State.setLatch_lstore (s : State) (p off v : Nat) : (s.setLatch p off v).lstore = s.lstore := rfl
@[simp] theorem State.setLatch_lsErr (s : State) (p off v : Nat) : (s.setLatch p off v).lsErr = s.lsErr := rfl
@[simp] theorem State.setLatch_lsRep (s : State) (p off v : Nat) : (s.setLatch p off v).lsRep = s.lsRep := rfl
@[simp] theorem State.setLatch_dramMem (s : State) (p off v : Nat) : (s.setLatch p off v).dramMem = s.dramMem := rfl
@[simp] theorem State.setLatch_dramChk (s : State) (p off v : Nat) : (s.setLatch p off v).dramChk = s.dramChk := rfl
@[simp] theorem State.setLatch_dramWait (s : State) (p off v : Nat) : (s.setLatch p off v).dramWait = s.dramWait := rfl
@[simp] theorem State.setLatch_bells (s : State) (p off v : Nat) : (s.setLatch p off v).bells = s.bells := rfl
@[simp] theorem State.setLatch_ackDue (s : State) (p off v : Nat) : (s.setLatch p off v).ackDue = s.ackDue := rfl
@[simp] theorem State.setLatch_flash (s : State) (p off v : Nat) : (s.setLatch p off v).flash = s.flash := rfl
@[simp] theorem State.setLatch_pos (s : State) (p off v : Nat) : (s.setLatch p off v).pos = s.pos := rfl
@[simp] theorem State.setLatch_posStarted (s : State) (p off v : Nat) : (s.setLatch p off v).posStarted = s.posStarted := rfl
@[simp] theorem State.setLatch_line (s : State) (p off v : Nat) : (s.setLatch p off v).line = s.line := rfl
@[simp] theorem State.setLatch_pipe (s : State) (p off v : Nat) : (s.setLatch p off v).pipe = s.pipe := rfl
@[simp] theorem State.setLatch_head (s : State) (p off v : Nat) : (s.setLatch p off v).head = s.head := rfl
@[simp] theorem State.setLatch_dma (s : State) (p off v : Nat) : (s.setLatch p off v).dma = s.dma := rfl
@[simp] theorem State.setLatch_lastDma (s : State) (p off v : Nat) : (s.setLatch p off v).lastDma = s.lastDma := rfl
@[simp] theorem State.setLatch_lastDec (s : State) (p off v : Nat) : (s.setLatch p off v).lastDec = s.lastDec := rfl
@[simp] theorem State.setLatch_queues (s : State) (p off v : Nat) : (s.setLatch p off v).queues = s.queues := rfl
@[simp] theorem State.setLatch_sinks (s : State) (p off v : Nat) : (s.setLatch p off v).sinks = s.sinks := rfl
@[simp] theorem State.setLatch_enc (s : State) (p off v : Nat) : (s.setLatch p off v).enc = s.enc := rfl
@[simp] theorem State.setLatch_job (s : State) (p off v : Nat) : (s.setLatch p off v).job = s.job := rfl
@[simp] theorem State.setLatch_dec (s : State) (p off v : Nat) : (s.setLatch p off v).dec = s.dec := rfl
@[simp] theorem State.setLatch_port (s : State) (p off v : Nat) : (s.setLatch p off v).port = s.port := rfl
@[simp] theorem State.setLatch_prof (s : State) (p off v : Nat) : (s.setLatch p off v).prof = s.prof := rfl
@[simp] theorem State.setLatch_breath (s : State) (p off v : Nat) : (s.setLatch p off v).breath = s.breath := rfl
@[simp] theorem State.setLatch_pair (s : State) (p off v : Nat) : (s.setLatch p off v).pair = s.pair := rfl
@[simp] theorem State.setLatch_cam (s : State) (p off v : Nat) : (s.setLatch p off v).cam = s.cam := rfl
@[simp] theorem State.setLatch_camc (s : State) (p off v : Nat) : (s.setLatch p off v).camc = s.camc := rfl
@[simp] theorem State.setLatch_chant (s : State) (p off v : Nat) : (s.setLatch p off v).chant = s.chant := rfl
@[simp] theorem State.setLatch_calst (s : State) (p off v : Nat) : (s.setLatch p off v).calst = s.calst := rfl
@[simp] theorem State.setLatch_dram (s : State) (p off v : Nat) : (s.setLatch p off v).dram = s.dram := rfl
@[simp] theorem State.setLatch_scrub (s : State) (p off v : Nat) : (s.setLatch p off v).scrub = s.scrub := rfl
@[simp] theorem State.setLatch_trackClear (s : State) (p off v : Nat) : (s.setLatch p off v).trackClear = s.trackClear := rfl
@[simp] theorem State.setLatch_lane (s : State) (p off v : Nat) : (s.setLatch p off v).lane = s.lane := rfl
@[simp] theorem State.setLatch_boot (s : State) (p off v : Nat) : (s.setLatch p off v).boot = s.boot := rfl
@[simp] theorem State.setLatch_host (s : State) (p off v : Nat) : (s.setLatch p off v).host = s.host := rfl

/-! `emit` -/
@[simp] theorem State.emit_pending (s : State) (o : Out) : (s.emit o).pending = s.pending := rfl
@[simp] theorem State.emit_tick (s : State) (o : Out) : (s.emit o).tick = s.tick := rfl
@[simp] theorem State.emit_osc (s : State) (o : Out) : (s.emit o).osc = s.osc := rfl
@[simp] theorem State.emit_phi (s : State) (o : Out) : (s.emit o).phi = s.phi := rfl
@[simp] theorem State.emit_cNs (s : State) (o : Out) : (s.emit o).cNs = s.cNs := rfl
@[simp] theorem State.emit_cFrac (s : State) (o : Out) : (s.emit o).cFrac = s.cFrac := rfl
@[simp] theorem State.emit_timeCmd (s : State) (o : Out) : (s.emit o).timeCmd = s.timeCmd := rfl
@[simp] theorem State.emit_inReset (s : State) (o : Out) : (s.emit o).inReset = s.inReset := rfl
@[simp] theorem State.emit_pll (s : State) (o : Out) : (s.emit o).pll = s.pll := rfl
@[simp] theorem State.emit_heldReset (s : State) (o : Out) : (s.emit o).heldReset = s.heldReset := rfl
@[simp] theorem State.emit_heldClock (s : State) (o : Out) : (s.emit o).heldClock = s.heldClock := rfl
@[simp] theorem State.emit_wrstPend (s : State) (o : Out) : (s.emit o).wrstPend = s.wrstPend := rfl
@[simp] theorem State.emit_straps (s : State) (o : Out) : (s.emit o).straps = s.straps := rfl
@[simp] theorem State.emit_liveStraps (s : State) (o : Out) : (s.emit o).liveStraps = s.liveStraps := rfl
@[simp] theorem State.emit_cmpAt (s : State) (o : Out) : (s.emit o).cmpAt = s.cmpAt := rfl
@[simp] theorem State.emit_mfioIn (s : State) (o : Out) : (s.emit o).mfioIn = s.mfioIn := rfl
@[simp] theorem State.emit_pulses (s : State) (o : Out) : (s.emit o).pulses = s.pulses := rfl
@[simp] theorem State.emit_tap (s : State) (o : Out) : (s.emit o).tap = s.tap := rfl
@[simp] theorem State.emit_tapReg (s : State) (o : Out) : (s.emit o).tapReg = s.tapReg := rfl
@[simp] theorem State.emit_cells (s : State) (o : Out) : (s.emit o).cells = s.cells := rfl
@[simp] theorem State.emit_regs (s : State) (o : Out) : (s.emit o).regs = s.regs := rfl
@[simp] theorem State.emit_pendv (s : State) (o : Out) : (s.emit o).pendv = s.pendv := rfl
@[simp] theorem State.emit_appl (s : State) (o : Out) : (s.emit o).appl = s.appl := rfl
@[simp] theorem State.emit_latch (s : State) (o : Out) : (s.emit o).latch = s.latch := rfl
@[simp] theorem State.emit_srsts (s : State) (o : Out) : (s.emit o).srsts = s.srsts := rfl
@[simp] theorem State.emit_commits (s : State) (o : Out) : (s.emit o).commits = s.commits := rfl
@[simp] theorem State.emit_fenceAt (s : State) (o : Out) : (s.emit o).fenceAt = s.fenceAt := rfl
@[simp] theorem State.emit_lateCause (s : State) (o : Out) : (s.emit o).lateCause = s.lateCause := rfl
@[simp] theorem State.emit_rdata (s : State) (o : Out) : (s.emit o).rdata = s.rdata := rfl
@[simp] theorem State.emit_fresh (s : State) (o : Out) : (s.emit o).fresh = s.fresh := rfl
@[simp] theorem State.emit_epoch (s : State) (o : Out) : (s.emit o).epoch = s.epoch := rfl
@[simp] theorem State.emit_lstore (s : State) (o : Out) : (s.emit o).lstore = s.lstore := rfl
@[simp] theorem State.emit_lsErr (s : State) (o : Out) : (s.emit o).lsErr = s.lsErr := rfl
@[simp] theorem State.emit_lsRep (s : State) (o : Out) : (s.emit o).lsRep = s.lsRep := rfl
@[simp] theorem State.emit_dramMem (s : State) (o : Out) : (s.emit o).dramMem = s.dramMem := rfl
@[simp] theorem State.emit_dramChk (s : State) (o : Out) : (s.emit o).dramChk = s.dramChk := rfl
@[simp] theorem State.emit_dramWait (s : State) (o : Out) : (s.emit o).dramWait = s.dramWait := rfl
@[simp] theorem State.emit_bells (s : State) (o : Out) : (s.emit o).bells = s.bells := rfl
@[simp] theorem State.emit_ackDue (s : State) (o : Out) : (s.emit o).ackDue = s.ackDue := rfl
@[simp] theorem State.emit_flash (s : State) (o : Out) : (s.emit o).flash = s.flash := rfl
@[simp] theorem State.emit_pos (s : State) (o : Out) : (s.emit o).pos = s.pos := rfl
@[simp] theorem State.emit_posStarted (s : State) (o : Out) : (s.emit o).posStarted = s.posStarted := rfl
@[simp] theorem State.emit_line (s : State) (o : Out) : (s.emit o).line = s.line := rfl
@[simp] theorem State.emit_pipe (s : State) (o : Out) : (s.emit o).pipe = s.pipe := rfl
@[simp] theorem State.emit_head (s : State) (o : Out) : (s.emit o).head = s.head := rfl
@[simp] theorem State.emit_dma (s : State) (o : Out) : (s.emit o).dma = s.dma := rfl
@[simp] theorem State.emit_lastDma (s : State) (o : Out) : (s.emit o).lastDma = s.lastDma := rfl
@[simp] theorem State.emit_lastDec (s : State) (o : Out) : (s.emit o).lastDec = s.lastDec := rfl
@[simp] theorem State.emit_queues (s : State) (o : Out) : (s.emit o).queues = s.queues := rfl
@[simp] theorem State.emit_sinks (s : State) (o : Out) : (s.emit o).sinks = s.sinks := rfl
@[simp] theorem State.emit_enc (s : State) (o : Out) : (s.emit o).enc = s.enc := rfl
@[simp] theorem State.emit_job (s : State) (o : Out) : (s.emit o).job = s.job := rfl
@[simp] theorem State.emit_dec (s : State) (o : Out) : (s.emit o).dec = s.dec := rfl
@[simp] theorem State.emit_port (s : State) (o : Out) : (s.emit o).port = s.port := rfl
@[simp] theorem State.emit_prof (s : State) (o : Out) : (s.emit o).prof = s.prof := rfl
@[simp] theorem State.emit_breath (s : State) (o : Out) : (s.emit o).breath = s.breath := rfl
@[simp] theorem State.emit_pair (s : State) (o : Out) : (s.emit o).pair = s.pair := rfl
@[simp] theorem State.emit_cam (s : State) (o : Out) : (s.emit o).cam = s.cam := rfl
@[simp] theorem State.emit_camc (s : State) (o : Out) : (s.emit o).camc = s.camc := rfl
@[simp] theorem State.emit_chant (s : State) (o : Out) : (s.emit o).chant = s.chant := rfl
@[simp] theorem State.emit_calst (s : State) (o : Out) : (s.emit o).calst = s.calst := rfl
@[simp] theorem State.emit_dram (s : State) (o : Out) : (s.emit o).dram = s.dram := rfl
@[simp] theorem State.emit_scrub (s : State) (o : Out) : (s.emit o).scrub = s.scrub := rfl
@[simp] theorem State.emit_trackClear (s : State) (o : Out) : (s.emit o).trackClear = s.trackClear := rfl
@[simp] theorem State.emit_lane (s : State) (o : Out) : (s.emit o).lane = s.lane := rfl
@[simp] theorem State.emit_boot (s : State) (o : Out) : (s.emit o).boot = s.boot := rfl
@[simp] theorem State.emit_host (s : State) (o : Out) : (s.emit o).host = s.host := rfl

/-! `tickFresh` -/
@[simp] theorem State.tickFresh_pending (s : State) : (s.tickFresh).pending = s.pending := rfl
@[simp] theorem State.tickFresh_tick (s : State) : (s.tickFresh).tick = s.tick := rfl
@[simp] theorem State.tickFresh_osc (s : State) : (s.tickFresh).osc = s.osc := rfl
@[simp] theorem State.tickFresh_phi (s : State) : (s.tickFresh).phi = s.phi := rfl
@[simp] theorem State.tickFresh_cNs (s : State) : (s.tickFresh).cNs = s.cNs := rfl
@[simp] theorem State.tickFresh_cFrac (s : State) : (s.tickFresh).cFrac = s.cFrac := rfl
@[simp] theorem State.tickFresh_timeCmd (s : State) : (s.tickFresh).timeCmd = s.timeCmd := rfl
@[simp] theorem State.tickFresh_inReset (s : State) : (s.tickFresh).inReset = s.inReset := rfl
@[simp] theorem State.tickFresh_pll (s : State) : (s.tickFresh).pll = s.pll := rfl
@[simp] theorem State.tickFresh_heldReset (s : State) : (s.tickFresh).heldReset = s.heldReset := rfl
@[simp] theorem State.tickFresh_heldClock (s : State) : (s.tickFresh).heldClock = s.heldClock := rfl
@[simp] theorem State.tickFresh_wrstPend (s : State) : (s.tickFresh).wrstPend = s.wrstPend := rfl
@[simp] theorem State.tickFresh_straps (s : State) : (s.tickFresh).straps = s.straps := rfl
@[simp] theorem State.tickFresh_liveStraps (s : State) : (s.tickFresh).liveStraps = s.liveStraps := rfl
@[simp] theorem State.tickFresh_cmpAt (s : State) : (s.tickFresh).cmpAt = s.cmpAt := rfl
@[simp] theorem State.tickFresh_mfioIn (s : State) : (s.tickFresh).mfioIn = s.mfioIn := rfl
@[simp] theorem State.tickFresh_pulses (s : State) : (s.tickFresh).pulses = s.pulses := rfl
@[simp] theorem State.tickFresh_tap (s : State) : (s.tickFresh).tap = s.tap := rfl
@[simp] theorem State.tickFresh_tapReg (s : State) : (s.tickFresh).tapReg = s.tapReg := rfl
@[simp] theorem State.tickFresh_cells (s : State) : (s.tickFresh).cells = s.cells := rfl
@[simp] theorem State.tickFresh_regs (s : State) : (s.tickFresh).regs = s.regs := rfl
@[simp] theorem State.tickFresh_pendv (s : State) : (s.tickFresh).pendv = s.pendv := rfl
@[simp] theorem State.tickFresh_appl (s : State) : (s.tickFresh).appl = s.appl := rfl
@[simp] theorem State.tickFresh_latch (s : State) : (s.tickFresh).latch = s.latch := rfl
@[simp] theorem State.tickFresh_srsts (s : State) : (s.tickFresh).srsts = s.srsts := rfl
@[simp] theorem State.tickFresh_commits (s : State) : (s.tickFresh).commits = s.commits := rfl
@[simp] theorem State.tickFresh_fenceAt (s : State) : (s.tickFresh).fenceAt = s.fenceAt := rfl
@[simp] theorem State.tickFresh_lateCause (s : State) : (s.tickFresh).lateCause = s.lateCause := rfl
@[simp] theorem State.tickFresh_rdata (s : State) : (s.tickFresh).rdata = s.rdata := rfl
@[simp] theorem State.tickFresh_outs (s : State) : (s.tickFresh).outs = s.outs := rfl
@[simp] theorem State.tickFresh_epoch (s : State) : (s.tickFresh).epoch = s.epoch := rfl
@[simp] theorem State.tickFresh_lstore (s : State) : (s.tickFresh).lstore = s.lstore := rfl
@[simp] theorem State.tickFresh_lsErr (s : State) : (s.tickFresh).lsErr = s.lsErr := rfl
@[simp] theorem State.tickFresh_lsRep (s : State) : (s.tickFresh).lsRep = s.lsRep := rfl
@[simp] theorem State.tickFresh_dramMem (s : State) : (s.tickFresh).dramMem = s.dramMem := rfl
@[simp] theorem State.tickFresh_dramChk (s : State) : (s.tickFresh).dramChk = s.dramChk := rfl
@[simp] theorem State.tickFresh_dramWait (s : State) : (s.tickFresh).dramWait = s.dramWait := rfl
@[simp] theorem State.tickFresh_bells (s : State) : (s.tickFresh).bells = s.bells := rfl
@[simp] theorem State.tickFresh_ackDue (s : State) : (s.tickFresh).ackDue = s.ackDue := rfl
@[simp] theorem State.tickFresh_flash (s : State) : (s.tickFresh).flash = s.flash := rfl
@[simp] theorem State.tickFresh_pos (s : State) : (s.tickFresh).pos = s.pos := rfl
@[simp] theorem State.tickFresh_posStarted (s : State) : (s.tickFresh).posStarted = s.posStarted := rfl
@[simp] theorem State.tickFresh_line (s : State) : (s.tickFresh).line = s.line := rfl
@[simp] theorem State.tickFresh_pipe (s : State) : (s.tickFresh).pipe = s.pipe := rfl
@[simp] theorem State.tickFresh_head (s : State) : (s.tickFresh).head = s.head := rfl
@[simp] theorem State.tickFresh_dma (s : State) : (s.tickFresh).dma = s.dma := rfl
@[simp] theorem State.tickFresh_lastDma (s : State) : (s.tickFresh).lastDma = s.lastDma := rfl
@[simp] theorem State.tickFresh_lastDec (s : State) : (s.tickFresh).lastDec = s.lastDec := rfl
@[simp] theorem State.tickFresh_queues (s : State) : (s.tickFresh).queues = s.queues := rfl
@[simp] theorem State.tickFresh_sinks (s : State) : (s.tickFresh).sinks = s.sinks := rfl
@[simp] theorem State.tickFresh_enc (s : State) : (s.tickFresh).enc = s.enc := rfl
@[simp] theorem State.tickFresh_job (s : State) : (s.tickFresh).job = s.job := rfl
@[simp] theorem State.tickFresh_dec (s : State) : (s.tickFresh).dec = s.dec := rfl
@[simp] theorem State.tickFresh_port (s : State) : (s.tickFresh).port = s.port := rfl
@[simp] theorem State.tickFresh_prof (s : State) : (s.tickFresh).prof = s.prof := rfl
@[simp] theorem State.tickFresh_breath (s : State) : (s.tickFresh).breath = s.breath := rfl
@[simp] theorem State.tickFresh_pair (s : State) : (s.tickFresh).pair = s.pair := rfl
@[simp] theorem State.tickFresh_cam (s : State) : (s.tickFresh).cam = s.cam := rfl
@[simp] theorem State.tickFresh_camc (s : State) : (s.tickFresh).camc = s.camc := rfl
@[simp] theorem State.tickFresh_chant (s : State) : (s.tickFresh).chant = s.chant := rfl
@[simp] theorem State.tickFresh_calst (s : State) : (s.tickFresh).calst = s.calst := rfl
@[simp] theorem State.tickFresh_dram (s : State) : (s.tickFresh).dram = s.dram := rfl
@[simp] theorem State.tickFresh_scrub (s : State) : (s.tickFresh).scrub = s.scrub := rfl
@[simp] theorem State.tickFresh_trackClear (s : State) : (s.tickFresh).trackClear = s.trackClear := rfl
@[simp] theorem State.tickFresh_lane (s : State) : (s.tickFresh).lane = s.lane := rfl
@[simp] theorem State.tickFresh_boot (s : State) : (s.tickFresh).boot = s.boot := rfl
@[simp] theorem State.tickFresh_host (s : State) : (s.tickFresh).host = s.host := rfl

/-! `updPos` -/
@[simp] theorem State.updPos_pending (s : State) (n : Nat) (g : PosSt → PosSt) : (s.updPos n g).pending = s.pending := rfl
@[simp] theorem State.updPos_tick (s : State) (n : Nat) (g : PosSt → PosSt) : (s.updPos n g).tick = s.tick := rfl
@[simp] theorem State.updPos_osc (s : State) (n : Nat) (g : PosSt → PosSt) : (s.updPos n g).osc = s.osc := rfl
@[simp] theorem State.updPos_phi (s : State) (n : Nat) (g : PosSt → PosSt) : (s.updPos n g).phi = s.phi := rfl
@[simp] theorem State.updPos_cNs (s : State) (n : Nat) (g : PosSt → PosSt) : (s.updPos n g).cNs = s.cNs := rfl
@[simp] theorem State.updPos_cFrac (s : State) (n : Nat) (g : PosSt → PosSt) : (s.updPos n g).cFrac = s.cFrac := rfl
@[simp] theorem State.updPos_timeCmd (s : State) (n : Nat) (g : PosSt → PosSt) : (s.updPos n g).timeCmd = s.timeCmd := rfl
@[simp] theorem State.updPos_inReset (s : State) (n : Nat) (g : PosSt → PosSt) : (s.updPos n g).inReset = s.inReset := rfl
@[simp] theorem State.updPos_pll (s : State) (n : Nat) (g : PosSt → PosSt) : (s.updPos n g).pll = s.pll := rfl
@[simp] theorem State.updPos_heldReset (s : State) (n : Nat) (g : PosSt → PosSt) : (s.updPos n g).heldReset = s.heldReset := rfl
@[simp] theorem State.updPos_heldClock (s : State) (n : Nat) (g : PosSt → PosSt) : (s.updPos n g).heldClock = s.heldClock := rfl
@[simp] theorem State.updPos_wrstPend (s : State) (n : Nat) (g : PosSt → PosSt) : (s.updPos n g).wrstPend = s.wrstPend := rfl
@[simp] theorem State.updPos_straps (s : State) (n : Nat) (g : PosSt → PosSt) : (s.updPos n g).straps = s.straps := rfl
@[simp] theorem State.updPos_liveStraps (s : State) (n : Nat) (g : PosSt → PosSt) : (s.updPos n g).liveStraps = s.liveStraps := rfl
@[simp] theorem State.updPos_cmpAt (s : State) (n : Nat) (g : PosSt → PosSt) : (s.updPos n g).cmpAt = s.cmpAt := rfl
@[simp] theorem State.updPos_mfioIn (s : State) (n : Nat) (g : PosSt → PosSt) : (s.updPos n g).mfioIn = s.mfioIn := rfl
@[simp] theorem State.updPos_pulses (s : State) (n : Nat) (g : PosSt → PosSt) : (s.updPos n g).pulses = s.pulses := rfl
@[simp] theorem State.updPos_tap (s : State) (n : Nat) (g : PosSt → PosSt) : (s.updPos n g).tap = s.tap := rfl
@[simp] theorem State.updPos_tapReg (s : State) (n : Nat) (g : PosSt → PosSt) : (s.updPos n g).tapReg = s.tapReg := rfl
@[simp] theorem State.updPos_cells (s : State) (n : Nat) (g : PosSt → PosSt) : (s.updPos n g).cells = s.cells := rfl
@[simp] theorem State.updPos_regs (s : State) (n : Nat) (g : PosSt → PosSt) : (s.updPos n g).regs = s.regs := rfl
@[simp] theorem State.updPos_pendv (s : State) (n : Nat) (g : PosSt → PosSt) : (s.updPos n g).pendv = s.pendv := rfl
@[simp] theorem State.updPos_appl (s : State) (n : Nat) (g : PosSt → PosSt) : (s.updPos n g).appl = s.appl := rfl
@[simp] theorem State.updPos_latch (s : State) (n : Nat) (g : PosSt → PosSt) : (s.updPos n g).latch = s.latch := rfl
@[simp] theorem State.updPos_srsts (s : State) (n : Nat) (g : PosSt → PosSt) : (s.updPos n g).srsts = s.srsts := rfl
@[simp] theorem State.updPos_commits (s : State) (n : Nat) (g : PosSt → PosSt) : (s.updPos n g).commits = s.commits := rfl
@[simp] theorem State.updPos_fenceAt (s : State) (n : Nat) (g : PosSt → PosSt) : (s.updPos n g).fenceAt = s.fenceAt := rfl
@[simp] theorem State.updPos_lateCause (s : State) (n : Nat) (g : PosSt → PosSt) : (s.updPos n g).lateCause = s.lateCause := rfl
@[simp] theorem State.updPos_rdata (s : State) (n : Nat) (g : PosSt → PosSt) : (s.updPos n g).rdata = s.rdata := rfl
@[simp] theorem State.updPos_outs (s : State) (n : Nat) (g : PosSt → PosSt) : (s.updPos n g).outs = s.outs := rfl
@[simp] theorem State.updPos_fresh (s : State) (n : Nat) (g : PosSt → PosSt) : (s.updPos n g).fresh = s.fresh := rfl
@[simp] theorem State.updPos_epoch (s : State) (n : Nat) (g : PosSt → PosSt) : (s.updPos n g).epoch = s.epoch := rfl
@[simp] theorem State.updPos_lstore (s : State) (n : Nat) (g : PosSt → PosSt) : (s.updPos n g).lstore = s.lstore := rfl
@[simp] theorem State.updPos_lsErr (s : State) (n : Nat) (g : PosSt → PosSt) : (s.updPos n g).lsErr = s.lsErr := rfl
@[simp] theorem State.updPos_lsRep (s : State) (n : Nat) (g : PosSt → PosSt) : (s.updPos n g).lsRep = s.lsRep := rfl
@[simp] theorem State.updPos_dramMem (s : State) (n : Nat) (g : PosSt → PosSt) : (s.updPos n g).dramMem = s.dramMem := rfl
@[simp] theorem State.updPos_dramChk (s : State) (n : Nat) (g : PosSt → PosSt) : (s.updPos n g).dramChk = s.dramChk := rfl
@[simp] theorem State.updPos_dramWait (s : State) (n : Nat) (g : PosSt → PosSt) : (s.updPos n g).dramWait = s.dramWait := rfl
@[simp] theorem State.updPos_bells (s : State) (n : Nat) (g : PosSt → PosSt) : (s.updPos n g).bells = s.bells := rfl
@[simp] theorem State.updPos_ackDue (s : State) (n : Nat) (g : PosSt → PosSt) : (s.updPos n g).ackDue = s.ackDue := rfl
@[simp] theorem State.updPos_flash (s : State) (n : Nat) (g : PosSt → PosSt) : (s.updPos n g).flash = s.flash := rfl
@[simp] theorem State.updPos_posStarted (s : State) (n : Nat) (g : PosSt → PosSt) : (s.updPos n g).posStarted = s.posStarted := rfl
@[simp] theorem State.updPos_line (s : State) (n : Nat) (g : PosSt → PosSt) : (s.updPos n g).line = s.line := rfl
@[simp] theorem State.updPos_pipe (s : State) (n : Nat) (g : PosSt → PosSt) : (s.updPos n g).pipe = s.pipe := rfl
@[simp] theorem State.updPos_head (s : State) (n : Nat) (g : PosSt → PosSt) : (s.updPos n g).head = s.head := rfl
@[simp] theorem State.updPos_dma (s : State) (n : Nat) (g : PosSt → PosSt) : (s.updPos n g).dma = s.dma := rfl
@[simp] theorem State.updPos_lastDma (s : State) (n : Nat) (g : PosSt → PosSt) : (s.updPos n g).lastDma = s.lastDma := rfl
@[simp] theorem State.updPos_lastDec (s : State) (n : Nat) (g : PosSt → PosSt) : (s.updPos n g).lastDec = s.lastDec := rfl
@[simp] theorem State.updPos_queues (s : State) (n : Nat) (g : PosSt → PosSt) : (s.updPos n g).queues = s.queues := rfl
@[simp] theorem State.updPos_sinks (s : State) (n : Nat) (g : PosSt → PosSt) : (s.updPos n g).sinks = s.sinks := rfl
@[simp] theorem State.updPos_enc (s : State) (n : Nat) (g : PosSt → PosSt) : (s.updPos n g).enc = s.enc := rfl
@[simp] theorem State.updPos_job (s : State) (n : Nat) (g : PosSt → PosSt) : (s.updPos n g).job = s.job := rfl
@[simp] theorem State.updPos_dec (s : State) (n : Nat) (g : PosSt → PosSt) : (s.updPos n g).dec = s.dec := rfl
@[simp] theorem State.updPos_port (s : State) (n : Nat) (g : PosSt → PosSt) : (s.updPos n g).port = s.port := rfl
@[simp] theorem State.updPos_prof (s : State) (n : Nat) (g : PosSt → PosSt) : (s.updPos n g).prof = s.prof := rfl
@[simp] theorem State.updPos_breath (s : State) (n : Nat) (g : PosSt → PosSt) : (s.updPos n g).breath = s.breath := rfl
@[simp] theorem State.updPos_pair (s : State) (n : Nat) (g : PosSt → PosSt) : (s.updPos n g).pair = s.pair := rfl
@[simp] theorem State.updPos_cam (s : State) (n : Nat) (g : PosSt → PosSt) : (s.updPos n g).cam = s.cam := rfl
@[simp] theorem State.updPos_camc (s : State) (n : Nat) (g : PosSt → PosSt) : (s.updPos n g).camc = s.camc := rfl
@[simp] theorem State.updPos_chant (s : State) (n : Nat) (g : PosSt → PosSt) : (s.updPos n g).chant = s.chant := rfl
@[simp] theorem State.updPos_calst (s : State) (n : Nat) (g : PosSt → PosSt) : (s.updPos n g).calst = s.calst := rfl
@[simp] theorem State.updPos_dram (s : State) (n : Nat) (g : PosSt → PosSt) : (s.updPos n g).dram = s.dram := rfl
@[simp] theorem State.updPos_scrub (s : State) (n : Nat) (g : PosSt → PosSt) : (s.updPos n g).scrub = s.scrub := rfl
@[simp] theorem State.updPos_trackClear (s : State) (n : Nat) (g : PosSt → PosSt) : (s.updPos n g).trackClear = s.trackClear := rfl
@[simp] theorem State.updPos_lane (s : State) (n : Nat) (g : PosSt → PosSt) : (s.updPos n g).lane = s.lane := rfl
@[simp] theorem State.updPos_boot (s : State) (n : Nat) (g : PosSt → PosSt) : (s.updPos n g).boot = s.boot := rfl
@[simp] theorem State.updPos_host (s : State) (n : Nat) (g : PosSt → PosSt) : (s.updPos n g).host = s.host := rfl

/-! `updLine` -/
@[simp] theorem State.updLine_pending (s : State) (n : Nat) (g : LineSt → LineSt) : (s.updLine n g).pending = s.pending := rfl
@[simp] theorem State.updLine_tick (s : State) (n : Nat) (g : LineSt → LineSt) : (s.updLine n g).tick = s.tick := rfl
@[simp] theorem State.updLine_osc (s : State) (n : Nat) (g : LineSt → LineSt) : (s.updLine n g).osc = s.osc := rfl
@[simp] theorem State.updLine_phi (s : State) (n : Nat) (g : LineSt → LineSt) : (s.updLine n g).phi = s.phi := rfl
@[simp] theorem State.updLine_cNs (s : State) (n : Nat) (g : LineSt → LineSt) : (s.updLine n g).cNs = s.cNs := rfl
@[simp] theorem State.updLine_cFrac (s : State) (n : Nat) (g : LineSt → LineSt) : (s.updLine n g).cFrac = s.cFrac := rfl
@[simp] theorem State.updLine_timeCmd (s : State) (n : Nat) (g : LineSt → LineSt) : (s.updLine n g).timeCmd = s.timeCmd := rfl
@[simp] theorem State.updLine_inReset (s : State) (n : Nat) (g : LineSt → LineSt) : (s.updLine n g).inReset = s.inReset := rfl
@[simp] theorem State.updLine_pll (s : State) (n : Nat) (g : LineSt → LineSt) : (s.updLine n g).pll = s.pll := rfl
@[simp] theorem State.updLine_heldReset (s : State) (n : Nat) (g : LineSt → LineSt) : (s.updLine n g).heldReset = s.heldReset := rfl
@[simp] theorem State.updLine_heldClock (s : State) (n : Nat) (g : LineSt → LineSt) : (s.updLine n g).heldClock = s.heldClock := rfl
@[simp] theorem State.updLine_wrstPend (s : State) (n : Nat) (g : LineSt → LineSt) : (s.updLine n g).wrstPend = s.wrstPend := rfl
@[simp] theorem State.updLine_straps (s : State) (n : Nat) (g : LineSt → LineSt) : (s.updLine n g).straps = s.straps := rfl
@[simp] theorem State.updLine_liveStraps (s : State) (n : Nat) (g : LineSt → LineSt) : (s.updLine n g).liveStraps =
    s.liveStraps := rfl
@[simp] theorem State.updLine_cmpAt (s : State) (n : Nat) (g : LineSt → LineSt) : (s.updLine n g).cmpAt = s.cmpAt := rfl
@[simp] theorem State.updLine_mfioIn (s : State) (n : Nat) (g : LineSt → LineSt) : (s.updLine n g).mfioIn = s.mfioIn := rfl
@[simp] theorem State.updLine_pulses (s : State) (n : Nat) (g : LineSt → LineSt) : (s.updLine n g).pulses = s.pulses := rfl
@[simp] theorem State.updLine_tap (s : State) (n : Nat) (g : LineSt → LineSt) : (s.updLine n g).tap = s.tap := rfl
@[simp] theorem State.updLine_tapReg (s : State) (n : Nat) (g : LineSt → LineSt) : (s.updLine n g).tapReg = s.tapReg := rfl
@[simp] theorem State.updLine_cells (s : State) (n : Nat) (g : LineSt → LineSt) : (s.updLine n g).cells = s.cells := rfl
@[simp] theorem State.updLine_regs (s : State) (n : Nat) (g : LineSt → LineSt) : (s.updLine n g).regs = s.regs := rfl
@[simp] theorem State.updLine_pendv (s : State) (n : Nat) (g : LineSt → LineSt) : (s.updLine n g).pendv = s.pendv := rfl
@[simp] theorem State.updLine_appl (s : State) (n : Nat) (g : LineSt → LineSt) : (s.updLine n g).appl = s.appl := rfl
@[simp] theorem State.updLine_latch (s : State) (n : Nat) (g : LineSt → LineSt) : (s.updLine n g).latch = s.latch := rfl
@[simp] theorem State.updLine_srsts (s : State) (n : Nat) (g : LineSt → LineSt) : (s.updLine n g).srsts = s.srsts := rfl
@[simp] theorem State.updLine_commits (s : State) (n : Nat) (g : LineSt → LineSt) : (s.updLine n g).commits = s.commits := rfl
@[simp] theorem State.updLine_fenceAt (s : State) (n : Nat) (g : LineSt → LineSt) : (s.updLine n g).fenceAt = s.fenceAt := rfl
@[simp] theorem State.updLine_lateCause (s : State) (n : Nat) (g : LineSt → LineSt) : (s.updLine n g).lateCause = s.lateCause :=
    rfl
@[simp] theorem State.updLine_rdata (s : State) (n : Nat) (g : LineSt → LineSt) : (s.updLine n g).rdata = s.rdata := rfl
@[simp] theorem State.updLine_outs (s : State) (n : Nat) (g : LineSt → LineSt) : (s.updLine n g).outs = s.outs := rfl
@[simp] theorem State.updLine_fresh (s : State) (n : Nat) (g : LineSt → LineSt) : (s.updLine n g).fresh = s.fresh := rfl
@[simp] theorem State.updLine_epoch (s : State) (n : Nat) (g : LineSt → LineSt) : (s.updLine n g).epoch = s.epoch := rfl
@[simp] theorem State.updLine_lstore (s : State) (n : Nat) (g : LineSt → LineSt) : (s.updLine n g).lstore = s.lstore := rfl
@[simp] theorem State.updLine_lsErr (s : State) (n : Nat) (g : LineSt → LineSt) : (s.updLine n g).lsErr = s.lsErr := rfl
@[simp] theorem State.updLine_lsRep (s : State) (n : Nat) (g : LineSt → LineSt) : (s.updLine n g).lsRep = s.lsRep := rfl
@[simp] theorem State.updLine_dramMem (s : State) (n : Nat) (g : LineSt → LineSt) : (s.updLine n g).dramMem = s.dramMem := rfl
@[simp] theorem State.updLine_dramChk (s : State) (n : Nat) (g : LineSt → LineSt) : (s.updLine n g).dramChk = s.dramChk := rfl
@[simp] theorem State.updLine_dramWait (s : State) (n : Nat) (g : LineSt → LineSt) : (s.updLine n g).dramWait = s.dramWait := rfl
@[simp] theorem State.updLine_bells (s : State) (n : Nat) (g : LineSt → LineSt) : (s.updLine n g).bells = s.bells := rfl
@[simp] theorem State.updLine_ackDue (s : State) (n : Nat) (g : LineSt → LineSt) : (s.updLine n g).ackDue = s.ackDue := rfl
@[simp] theorem State.updLine_flash (s : State) (n : Nat) (g : LineSt → LineSt) : (s.updLine n g).flash = s.flash := rfl
@[simp] theorem State.updLine_pos (s : State) (n : Nat) (g : LineSt → LineSt) : (s.updLine n g).pos = s.pos := rfl
@[simp] theorem State.updLine_posStarted (s : State) (n : Nat) (g : LineSt → LineSt) : (s.updLine n g).posStarted =
    s.posStarted := rfl
@[simp] theorem State.updLine_pipe (s : State) (n : Nat) (g : LineSt → LineSt) : (s.updLine n g).pipe = s.pipe := rfl
@[simp] theorem State.updLine_head (s : State) (n : Nat) (g : LineSt → LineSt) : (s.updLine n g).head = s.head := rfl
@[simp] theorem State.updLine_dma (s : State) (n : Nat) (g : LineSt → LineSt) : (s.updLine n g).dma = s.dma := rfl
@[simp] theorem State.updLine_lastDma (s : State) (n : Nat) (g : LineSt → LineSt) : (s.updLine n g).lastDma = s.lastDma := rfl
@[simp] theorem State.updLine_lastDec (s : State) (n : Nat) (g : LineSt → LineSt) : (s.updLine n g).lastDec = s.lastDec := rfl
@[simp] theorem State.updLine_queues (s : State) (n : Nat) (g : LineSt → LineSt) : (s.updLine n g).queues = s.queues := rfl
@[simp] theorem State.updLine_sinks (s : State) (n : Nat) (g : LineSt → LineSt) : (s.updLine n g).sinks = s.sinks := rfl
@[simp] theorem State.updLine_enc (s : State) (n : Nat) (g : LineSt → LineSt) : (s.updLine n g).enc = s.enc := rfl
@[simp] theorem State.updLine_job (s : State) (n : Nat) (g : LineSt → LineSt) : (s.updLine n g).job = s.job := rfl
@[simp] theorem State.updLine_dec (s : State) (n : Nat) (g : LineSt → LineSt) : (s.updLine n g).dec = s.dec := rfl
@[simp] theorem State.updLine_port (s : State) (n : Nat) (g : LineSt → LineSt) : (s.updLine n g).port = s.port := rfl
@[simp] theorem State.updLine_prof (s : State) (n : Nat) (g : LineSt → LineSt) : (s.updLine n g).prof = s.prof := rfl
@[simp] theorem State.updLine_breath (s : State) (n : Nat) (g : LineSt → LineSt) : (s.updLine n g).breath = s.breath := rfl
@[simp] theorem State.updLine_pair (s : State) (n : Nat) (g : LineSt → LineSt) : (s.updLine n g).pair = s.pair := rfl
@[simp] theorem State.updLine_cam (s : State) (n : Nat) (g : LineSt → LineSt) : (s.updLine n g).cam = s.cam := rfl
@[simp] theorem State.updLine_camc (s : State) (n : Nat) (g : LineSt → LineSt) : (s.updLine n g).camc = s.camc := rfl
@[simp] theorem State.updLine_chant (s : State) (n : Nat) (g : LineSt → LineSt) : (s.updLine n g).chant = s.chant := rfl
@[simp] theorem State.updLine_calst (s : State) (n : Nat) (g : LineSt → LineSt) : (s.updLine n g).calst = s.calst := rfl
@[simp] theorem State.updLine_dram (s : State) (n : Nat) (g : LineSt → LineSt) : (s.updLine n g).dram = s.dram := rfl
@[simp] theorem State.updLine_scrub (s : State) (n : Nat) (g : LineSt → LineSt) : (s.updLine n g).scrub = s.scrub := rfl
@[simp] theorem State.updLine_trackClear (s : State) (n : Nat) (g : LineSt → LineSt) : (s.updLine n g).trackClear =
    s.trackClear := rfl
@[simp] theorem State.updLine_lane (s : State) (n : Nat) (g : LineSt → LineSt) : (s.updLine n g).lane = s.lane := rfl
@[simp] theorem State.updLine_boot (s : State) (n : Nat) (g : LineSt → LineSt) : (s.updLine n g).boot = s.boot := rfl
@[simp] theorem State.updLine_host (s : State) (n : Nat) (g : LineSt → LineSt) : (s.updLine n g).host = s.host := rfl

/-! `updPipe` -/
@[simp] theorem State.updPipe_pending (s : State) (n : Nat) (g : PipeSt → PipeSt) : (s.updPipe n g).pending = s.pending := rfl
@[simp] theorem State.updPipe_tick (s : State) (n : Nat) (g : PipeSt → PipeSt) : (s.updPipe n g).tick = s.tick := rfl
@[simp] theorem State.updPipe_osc (s : State) (n : Nat) (g : PipeSt → PipeSt) : (s.updPipe n g).osc = s.osc := rfl
@[simp] theorem State.updPipe_phi (s : State) (n : Nat) (g : PipeSt → PipeSt) : (s.updPipe n g).phi = s.phi := rfl
@[simp] theorem State.updPipe_cNs (s : State) (n : Nat) (g : PipeSt → PipeSt) : (s.updPipe n g).cNs = s.cNs := rfl
@[simp] theorem State.updPipe_cFrac (s : State) (n : Nat) (g : PipeSt → PipeSt) : (s.updPipe n g).cFrac = s.cFrac := rfl
@[simp] theorem State.updPipe_timeCmd (s : State) (n : Nat) (g : PipeSt → PipeSt) : (s.updPipe n g).timeCmd = s.timeCmd := rfl
@[simp] theorem State.updPipe_inReset (s : State) (n : Nat) (g : PipeSt → PipeSt) : (s.updPipe n g).inReset = s.inReset := rfl
@[simp] theorem State.updPipe_pll (s : State) (n : Nat) (g : PipeSt → PipeSt) : (s.updPipe n g).pll = s.pll := rfl
@[simp] theorem State.updPipe_heldReset (s : State) (n : Nat) (g : PipeSt → PipeSt) : (s.updPipe n g).heldReset = s.heldReset := rfl
@[simp] theorem State.updPipe_heldClock (s : State) (n : Nat) (g : PipeSt → PipeSt) : (s.updPipe n g).heldClock = s.heldClock := rfl
@[simp] theorem State.updPipe_wrstPend (s : State) (n : Nat) (g : PipeSt → PipeSt) : (s.updPipe n g).wrstPend = s.wrstPend := rfl
@[simp] theorem State.updPipe_straps (s : State) (n : Nat) (g : PipeSt → PipeSt) : (s.updPipe n g).straps = s.straps := rfl
@[simp] theorem State.updPipe_liveStraps (s : State) (n : Nat) (g : PipeSt → PipeSt) : (s.updPipe n g).liveStraps =
    s.liveStraps := rfl
@[simp] theorem State.updPipe_cmpAt (s : State) (n : Nat) (g : PipeSt → PipeSt) : (s.updPipe n g).cmpAt = s.cmpAt := rfl
@[simp] theorem State.updPipe_mfioIn (s : State) (n : Nat) (g : PipeSt → PipeSt) : (s.updPipe n g).mfioIn = s.mfioIn := rfl
@[simp] theorem State.updPipe_pulses (s : State) (n : Nat) (g : PipeSt → PipeSt) : (s.updPipe n g).pulses = s.pulses := rfl
@[simp] theorem State.updPipe_tap (s : State) (n : Nat) (g : PipeSt → PipeSt) : (s.updPipe n g).tap = s.tap := rfl
@[simp] theorem State.updPipe_tapReg (s : State) (n : Nat) (g : PipeSt → PipeSt) : (s.updPipe n g).tapReg = s.tapReg := rfl
@[simp] theorem State.updPipe_cells (s : State) (n : Nat) (g : PipeSt → PipeSt) : (s.updPipe n g).cells = s.cells := rfl
@[simp] theorem State.updPipe_regs (s : State) (n : Nat) (g : PipeSt → PipeSt) : (s.updPipe n g).regs = s.regs := rfl
@[simp] theorem State.updPipe_pendv (s : State) (n : Nat) (g : PipeSt → PipeSt) : (s.updPipe n g).pendv = s.pendv := rfl
@[simp] theorem State.updPipe_appl (s : State) (n : Nat) (g : PipeSt → PipeSt) : (s.updPipe n g).appl = s.appl := rfl
@[simp] theorem State.updPipe_latch (s : State) (n : Nat) (g : PipeSt → PipeSt) : (s.updPipe n g).latch = s.latch := rfl
@[simp] theorem State.updPipe_srsts (s : State) (n : Nat) (g : PipeSt → PipeSt) : (s.updPipe n g).srsts = s.srsts := rfl
@[simp] theorem State.updPipe_commits (s : State) (n : Nat) (g : PipeSt → PipeSt) : (s.updPipe n g).commits = s.commits := rfl
@[simp] theorem State.updPipe_fenceAt (s : State) (n : Nat) (g : PipeSt → PipeSt) : (s.updPipe n g).fenceAt = s.fenceAt := rfl
@[simp] theorem State.updPipe_lateCause (s : State) (n : Nat) (g : PipeSt → PipeSt) : (s.updPipe n g).lateCause = s.lateCause :=
    rfl
@[simp] theorem State.updPipe_rdata (s : State) (n : Nat) (g : PipeSt → PipeSt) : (s.updPipe n g).rdata = s.rdata := rfl
@[simp] theorem State.updPipe_outs (s : State) (n : Nat) (g : PipeSt → PipeSt) : (s.updPipe n g).outs = s.outs := rfl
@[simp] theorem State.updPipe_fresh (s : State) (n : Nat) (g : PipeSt → PipeSt) : (s.updPipe n g).fresh = s.fresh := rfl
@[simp] theorem State.updPipe_epoch (s : State) (n : Nat) (g : PipeSt → PipeSt) : (s.updPipe n g).epoch = s.epoch := rfl
@[simp] theorem State.updPipe_lstore (s : State) (n : Nat) (g : PipeSt → PipeSt) : (s.updPipe n g).lstore = s.lstore := rfl
@[simp] theorem State.updPipe_lsErr (s : State) (n : Nat) (g : PipeSt → PipeSt) : (s.updPipe n g).lsErr = s.lsErr := rfl
@[simp] theorem State.updPipe_lsRep (s : State) (n : Nat) (g : PipeSt → PipeSt) : (s.updPipe n g).lsRep = s.lsRep := rfl
@[simp] theorem State.updPipe_dramMem (s : State) (n : Nat) (g : PipeSt → PipeSt) : (s.updPipe n g).dramMem = s.dramMem := rfl
@[simp] theorem State.updPipe_dramChk (s : State) (n : Nat) (g : PipeSt → PipeSt) : (s.updPipe n g).dramChk = s.dramChk := rfl
@[simp] theorem State.updPipe_dramWait (s : State) (n : Nat) (g : PipeSt → PipeSt) : (s.updPipe n g).dramWait = s.dramWait := rfl
@[simp] theorem State.updPipe_bells (s : State) (n : Nat) (g : PipeSt → PipeSt) : (s.updPipe n g).bells = s.bells := rfl
@[simp] theorem State.updPipe_ackDue (s : State) (n : Nat) (g : PipeSt → PipeSt) : (s.updPipe n g).ackDue = s.ackDue := rfl
@[simp] theorem State.updPipe_flash (s : State) (n : Nat) (g : PipeSt → PipeSt) : (s.updPipe n g).flash = s.flash := rfl
@[simp] theorem State.updPipe_pos (s : State) (n : Nat) (g : PipeSt → PipeSt) : (s.updPipe n g).pos = s.pos := rfl
@[simp] theorem State.updPipe_posStarted (s : State) (n : Nat) (g : PipeSt → PipeSt) : (s.updPipe n g).posStarted =
    s.posStarted := rfl
@[simp] theorem State.updPipe_line (s : State) (n : Nat) (g : PipeSt → PipeSt) : (s.updPipe n g).line = s.line := rfl
@[simp] theorem State.updPipe_head (s : State) (n : Nat) (g : PipeSt → PipeSt) : (s.updPipe n g).head = s.head := rfl
@[simp] theorem State.updPipe_dma (s : State) (n : Nat) (g : PipeSt → PipeSt) : (s.updPipe n g).dma = s.dma := rfl
@[simp] theorem State.updPipe_lastDma (s : State) (n : Nat) (g : PipeSt → PipeSt) : (s.updPipe n g).lastDma = s.lastDma := rfl
@[simp] theorem State.updPipe_lastDec (s : State) (n : Nat) (g : PipeSt → PipeSt) : (s.updPipe n g).lastDec = s.lastDec := rfl
@[simp] theorem State.updPipe_queues (s : State) (n : Nat) (g : PipeSt → PipeSt) : (s.updPipe n g).queues = s.queues := rfl
@[simp] theorem State.updPipe_sinks (s : State) (n : Nat) (g : PipeSt → PipeSt) : (s.updPipe n g).sinks = s.sinks := rfl
@[simp] theorem State.updPipe_enc (s : State) (n : Nat) (g : PipeSt → PipeSt) : (s.updPipe n g).enc = s.enc := rfl
@[simp] theorem State.updPipe_job (s : State) (n : Nat) (g : PipeSt → PipeSt) : (s.updPipe n g).job = s.job := rfl
@[simp] theorem State.updPipe_dec (s : State) (n : Nat) (g : PipeSt → PipeSt) : (s.updPipe n g).dec = s.dec := rfl
@[simp] theorem State.updPipe_port (s : State) (n : Nat) (g : PipeSt → PipeSt) : (s.updPipe n g).port = s.port := rfl
@[simp] theorem State.updPipe_prof (s : State) (n : Nat) (g : PipeSt → PipeSt) : (s.updPipe n g).prof = s.prof := rfl
@[simp] theorem State.updPipe_breath (s : State) (n : Nat) (g : PipeSt → PipeSt) : (s.updPipe n g).breath = s.breath := rfl
@[simp] theorem State.updPipe_pair (s : State) (n : Nat) (g : PipeSt → PipeSt) : (s.updPipe n g).pair = s.pair := rfl
@[simp] theorem State.updPipe_cam (s : State) (n : Nat) (g : PipeSt → PipeSt) : (s.updPipe n g).cam = s.cam := rfl
@[simp] theorem State.updPipe_camc (s : State) (n : Nat) (g : PipeSt → PipeSt) : (s.updPipe n g).camc = s.camc := rfl
@[simp] theorem State.updPipe_chant (s : State) (n : Nat) (g : PipeSt → PipeSt) : (s.updPipe n g).chant = s.chant := rfl
@[simp] theorem State.updPipe_calst (s : State) (n : Nat) (g : PipeSt → PipeSt) : (s.updPipe n g).calst = s.calst := rfl
@[simp] theorem State.updPipe_dram (s : State) (n : Nat) (g : PipeSt → PipeSt) : (s.updPipe n g).dram = s.dram := rfl
@[simp] theorem State.updPipe_scrub (s : State) (n : Nat) (g : PipeSt → PipeSt) : (s.updPipe n g).scrub = s.scrub := rfl
@[simp] theorem State.updPipe_trackClear (s : State) (n : Nat) (g : PipeSt → PipeSt) : (s.updPipe n g).trackClear =
    s.trackClear := rfl
@[simp] theorem State.updPipe_lane (s : State) (n : Nat) (g : PipeSt → PipeSt) : (s.updPipe n g).lane = s.lane := rfl
@[simp] theorem State.updPipe_boot (s : State) (n : Nat) (g : PipeSt → PipeSt) : (s.updPipe n g).boot = s.boot := rfl
@[simp] theorem State.updPipe_host (s : State) (n : Nat) (g : PipeSt → PipeSt) : (s.updPipe n g).host = s.host := rfl

/-! `updHead` -/
@[simp] theorem State.updHead_pending (s : State) (n : Nat) (g : HeadSt → HeadSt) : (s.updHead n g).pending = s.pending := rfl
@[simp] theorem State.updHead_tick (s : State) (n : Nat) (g : HeadSt → HeadSt) : (s.updHead n g).tick = s.tick := rfl
@[simp] theorem State.updHead_osc (s : State) (n : Nat) (g : HeadSt → HeadSt) : (s.updHead n g).osc = s.osc := rfl
@[simp] theorem State.updHead_phi (s : State) (n : Nat) (g : HeadSt → HeadSt) : (s.updHead n g).phi = s.phi := rfl
@[simp] theorem State.updHead_cNs (s : State) (n : Nat) (g : HeadSt → HeadSt) : (s.updHead n g).cNs = s.cNs := rfl
@[simp] theorem State.updHead_cFrac (s : State) (n : Nat) (g : HeadSt → HeadSt) : (s.updHead n g).cFrac = s.cFrac := rfl
@[simp] theorem State.updHead_timeCmd (s : State) (n : Nat) (g : HeadSt → HeadSt) : (s.updHead n g).timeCmd = s.timeCmd := rfl
@[simp] theorem State.updHead_inReset (s : State) (n : Nat) (g : HeadSt → HeadSt) : (s.updHead n g).inReset = s.inReset := rfl
@[simp] theorem State.updHead_pll (s : State) (n : Nat) (g : HeadSt → HeadSt) : (s.updHead n g).pll = s.pll := rfl
@[simp] theorem State.updHead_heldReset (s : State) (n : Nat) (g : HeadSt → HeadSt) : (s.updHead n g).heldReset = s.heldReset := rfl
@[simp] theorem State.updHead_heldClock (s : State) (n : Nat) (g : HeadSt → HeadSt) : (s.updHead n g).heldClock = s.heldClock := rfl
@[simp] theorem State.updHead_wrstPend (s : State) (n : Nat) (g : HeadSt → HeadSt) : (s.updHead n g).wrstPend = s.wrstPend := rfl
@[simp] theorem State.updHead_straps (s : State) (n : Nat) (g : HeadSt → HeadSt) : (s.updHead n g).straps = s.straps := rfl
@[simp] theorem State.updHead_liveStraps (s : State) (n : Nat) (g : HeadSt → HeadSt) : (s.updHead n g).liveStraps =
    s.liveStraps := rfl
@[simp] theorem State.updHead_cmpAt (s : State) (n : Nat) (g : HeadSt → HeadSt) : (s.updHead n g).cmpAt = s.cmpAt := rfl
@[simp] theorem State.updHead_mfioIn (s : State) (n : Nat) (g : HeadSt → HeadSt) : (s.updHead n g).mfioIn = s.mfioIn := rfl
@[simp] theorem State.updHead_pulses (s : State) (n : Nat) (g : HeadSt → HeadSt) : (s.updHead n g).pulses = s.pulses := rfl
@[simp] theorem State.updHead_tap (s : State) (n : Nat) (g : HeadSt → HeadSt) : (s.updHead n g).tap = s.tap := rfl
@[simp] theorem State.updHead_tapReg (s : State) (n : Nat) (g : HeadSt → HeadSt) : (s.updHead n g).tapReg = s.tapReg := rfl
@[simp] theorem State.updHead_cells (s : State) (n : Nat) (g : HeadSt → HeadSt) : (s.updHead n g).cells = s.cells := rfl
@[simp] theorem State.updHead_regs (s : State) (n : Nat) (g : HeadSt → HeadSt) : (s.updHead n g).regs = s.regs := rfl
@[simp] theorem State.updHead_pendv (s : State) (n : Nat) (g : HeadSt → HeadSt) : (s.updHead n g).pendv = s.pendv := rfl
@[simp] theorem State.updHead_appl (s : State) (n : Nat) (g : HeadSt → HeadSt) : (s.updHead n g).appl = s.appl := rfl
@[simp] theorem State.updHead_latch (s : State) (n : Nat) (g : HeadSt → HeadSt) : (s.updHead n g).latch = s.latch := rfl
@[simp] theorem State.updHead_srsts (s : State) (n : Nat) (g : HeadSt → HeadSt) : (s.updHead n g).srsts = s.srsts := rfl
@[simp] theorem State.updHead_commits (s : State) (n : Nat) (g : HeadSt → HeadSt) : (s.updHead n g).commits = s.commits := rfl
@[simp] theorem State.updHead_fenceAt (s : State) (n : Nat) (g : HeadSt → HeadSt) : (s.updHead n g).fenceAt = s.fenceAt := rfl
@[simp] theorem State.updHead_lateCause (s : State) (n : Nat) (g : HeadSt → HeadSt) : (s.updHead n g).lateCause = s.lateCause :=
    rfl
@[simp] theorem State.updHead_rdata (s : State) (n : Nat) (g : HeadSt → HeadSt) : (s.updHead n g).rdata = s.rdata := rfl
@[simp] theorem State.updHead_outs (s : State) (n : Nat) (g : HeadSt → HeadSt) : (s.updHead n g).outs = s.outs := rfl
@[simp] theorem State.updHead_fresh (s : State) (n : Nat) (g : HeadSt → HeadSt) : (s.updHead n g).fresh = s.fresh := rfl
@[simp] theorem State.updHead_epoch (s : State) (n : Nat) (g : HeadSt → HeadSt) : (s.updHead n g).epoch = s.epoch := rfl
@[simp] theorem State.updHead_lstore (s : State) (n : Nat) (g : HeadSt → HeadSt) : (s.updHead n g).lstore = s.lstore := rfl
@[simp] theorem State.updHead_lsErr (s : State) (n : Nat) (g : HeadSt → HeadSt) : (s.updHead n g).lsErr = s.lsErr := rfl
@[simp] theorem State.updHead_lsRep (s : State) (n : Nat) (g : HeadSt → HeadSt) : (s.updHead n g).lsRep = s.lsRep := rfl
@[simp] theorem State.updHead_dramMem (s : State) (n : Nat) (g : HeadSt → HeadSt) : (s.updHead n g).dramMem = s.dramMem := rfl
@[simp] theorem State.updHead_dramChk (s : State) (n : Nat) (g : HeadSt → HeadSt) : (s.updHead n g).dramChk = s.dramChk := rfl
@[simp] theorem State.updHead_dramWait (s : State) (n : Nat) (g : HeadSt → HeadSt) : (s.updHead n g).dramWait = s.dramWait := rfl
@[simp] theorem State.updHead_bells (s : State) (n : Nat) (g : HeadSt → HeadSt) : (s.updHead n g).bells = s.bells := rfl
@[simp] theorem State.updHead_ackDue (s : State) (n : Nat) (g : HeadSt → HeadSt) : (s.updHead n g).ackDue = s.ackDue := rfl
@[simp] theorem State.updHead_flash (s : State) (n : Nat) (g : HeadSt → HeadSt) : (s.updHead n g).flash = s.flash := rfl
@[simp] theorem State.updHead_pos (s : State) (n : Nat) (g : HeadSt → HeadSt) : (s.updHead n g).pos = s.pos := rfl
@[simp] theorem State.updHead_posStarted (s : State) (n : Nat) (g : HeadSt → HeadSt) : (s.updHead n g).posStarted =
    s.posStarted := rfl
@[simp] theorem State.updHead_line (s : State) (n : Nat) (g : HeadSt → HeadSt) : (s.updHead n g).line = s.line := rfl
@[simp] theorem State.updHead_pipe (s : State) (n : Nat) (g : HeadSt → HeadSt) : (s.updHead n g).pipe = s.pipe := rfl
@[simp] theorem State.updHead_dma (s : State) (n : Nat) (g : HeadSt → HeadSt) : (s.updHead n g).dma = s.dma := rfl
@[simp] theorem State.updHead_lastDma (s : State) (n : Nat) (g : HeadSt → HeadSt) : (s.updHead n g).lastDma = s.lastDma := rfl
@[simp] theorem State.updHead_lastDec (s : State) (n : Nat) (g : HeadSt → HeadSt) : (s.updHead n g).lastDec = s.lastDec := rfl
@[simp] theorem State.updHead_queues (s : State) (n : Nat) (g : HeadSt → HeadSt) : (s.updHead n g).queues = s.queues := rfl
@[simp] theorem State.updHead_sinks (s : State) (n : Nat) (g : HeadSt → HeadSt) : (s.updHead n g).sinks = s.sinks := rfl
@[simp] theorem State.updHead_enc (s : State) (n : Nat) (g : HeadSt → HeadSt) : (s.updHead n g).enc = s.enc := rfl
@[simp] theorem State.updHead_job (s : State) (n : Nat) (g : HeadSt → HeadSt) : (s.updHead n g).job = s.job := rfl
@[simp] theorem State.updHead_dec (s : State) (n : Nat) (g : HeadSt → HeadSt) : (s.updHead n g).dec = s.dec := rfl
@[simp] theorem State.updHead_port (s : State) (n : Nat) (g : HeadSt → HeadSt) : (s.updHead n g).port = s.port := rfl
@[simp] theorem State.updHead_prof (s : State) (n : Nat) (g : HeadSt → HeadSt) : (s.updHead n g).prof = s.prof := rfl
@[simp] theorem State.updHead_breath (s : State) (n : Nat) (g : HeadSt → HeadSt) : (s.updHead n g).breath = s.breath := rfl
@[simp] theorem State.updHead_pair (s : State) (n : Nat) (g : HeadSt → HeadSt) : (s.updHead n g).pair = s.pair := rfl
@[simp] theorem State.updHead_cam (s : State) (n : Nat) (g : HeadSt → HeadSt) : (s.updHead n g).cam = s.cam := rfl
@[simp] theorem State.updHead_camc (s : State) (n : Nat) (g : HeadSt → HeadSt) : (s.updHead n g).camc = s.camc := rfl
@[simp] theorem State.updHead_chant (s : State) (n : Nat) (g : HeadSt → HeadSt) : (s.updHead n g).chant = s.chant := rfl
@[simp] theorem State.updHead_calst (s : State) (n : Nat) (g : HeadSt → HeadSt) : (s.updHead n g).calst = s.calst := rfl
@[simp] theorem State.updHead_dram (s : State) (n : Nat) (g : HeadSt → HeadSt) : (s.updHead n g).dram = s.dram := rfl
@[simp] theorem State.updHead_scrub (s : State) (n : Nat) (g : HeadSt → HeadSt) : (s.updHead n g).scrub = s.scrub := rfl
@[simp] theorem State.updHead_trackClear (s : State) (n : Nat) (g : HeadSt → HeadSt) : (s.updHead n g).trackClear =
    s.trackClear := rfl
@[simp] theorem State.updHead_lane (s : State) (n : Nat) (g : HeadSt → HeadSt) : (s.updHead n g).lane = s.lane := rfl
@[simp] theorem State.updHead_boot (s : State) (n : Nat) (g : HeadSt → HeadSt) : (s.updHead n g).boot = s.boot := rfl
@[simp] theorem State.updHead_host (s : State) (n : Nat) (g : HeadSt → HeadSt) : (s.updHead n g).host = s.host := rfl

/-! `updDma` -/
@[simp] theorem State.updDma_pending (s : State) (n : Nat) (g : DmaSt → DmaSt) : (s.updDma n g).pending = s.pending := rfl
@[simp] theorem State.updDma_tick (s : State) (n : Nat) (g : DmaSt → DmaSt) : (s.updDma n g).tick = s.tick := rfl
@[simp] theorem State.updDma_osc (s : State) (n : Nat) (g : DmaSt → DmaSt) : (s.updDma n g).osc = s.osc := rfl
@[simp] theorem State.updDma_phi (s : State) (n : Nat) (g : DmaSt → DmaSt) : (s.updDma n g).phi = s.phi := rfl
@[simp] theorem State.updDma_cNs (s : State) (n : Nat) (g : DmaSt → DmaSt) : (s.updDma n g).cNs = s.cNs := rfl
@[simp] theorem State.updDma_cFrac (s : State) (n : Nat) (g : DmaSt → DmaSt) : (s.updDma n g).cFrac = s.cFrac := rfl
@[simp] theorem State.updDma_timeCmd (s : State) (n : Nat) (g : DmaSt → DmaSt) : (s.updDma n g).timeCmd = s.timeCmd := rfl
@[simp] theorem State.updDma_inReset (s : State) (n : Nat) (g : DmaSt → DmaSt) : (s.updDma n g).inReset = s.inReset := rfl
@[simp] theorem State.updDma_pll (s : State) (n : Nat) (g : DmaSt → DmaSt) : (s.updDma n g).pll = s.pll := rfl
@[simp] theorem State.updDma_heldReset (s : State) (n : Nat) (g : DmaSt → DmaSt) : (s.updDma n g).heldReset = s.heldReset := rfl
@[simp] theorem State.updDma_heldClock (s : State) (n : Nat) (g : DmaSt → DmaSt) : (s.updDma n g).heldClock = s.heldClock := rfl
@[simp] theorem State.updDma_wrstPend (s : State) (n : Nat) (g : DmaSt → DmaSt) : (s.updDma n g).wrstPend = s.wrstPend := rfl
@[simp] theorem State.updDma_straps (s : State) (n : Nat) (g : DmaSt → DmaSt) : (s.updDma n g).straps = s.straps := rfl
@[simp] theorem State.updDma_liveStraps (s : State) (n : Nat) (g : DmaSt → DmaSt) : (s.updDma n g).liveStraps = s.liveStraps := rfl
@[simp] theorem State.updDma_cmpAt (s : State) (n : Nat) (g : DmaSt → DmaSt) : (s.updDma n g).cmpAt = s.cmpAt := rfl
@[simp] theorem State.updDma_mfioIn (s : State) (n : Nat) (g : DmaSt → DmaSt) : (s.updDma n g).mfioIn = s.mfioIn := rfl
@[simp] theorem State.updDma_pulses (s : State) (n : Nat) (g : DmaSt → DmaSt) : (s.updDma n g).pulses = s.pulses := rfl
@[simp] theorem State.updDma_tap (s : State) (n : Nat) (g : DmaSt → DmaSt) : (s.updDma n g).tap = s.tap := rfl
@[simp] theorem State.updDma_tapReg (s : State) (n : Nat) (g : DmaSt → DmaSt) : (s.updDma n g).tapReg = s.tapReg := rfl
@[simp] theorem State.updDma_cells (s : State) (n : Nat) (g : DmaSt → DmaSt) : (s.updDma n g).cells = s.cells := rfl
@[simp] theorem State.updDma_regs (s : State) (n : Nat) (g : DmaSt → DmaSt) : (s.updDma n g).regs = s.regs := rfl
@[simp] theorem State.updDma_pendv (s : State) (n : Nat) (g : DmaSt → DmaSt) : (s.updDma n g).pendv = s.pendv := rfl
@[simp] theorem State.updDma_appl (s : State) (n : Nat) (g : DmaSt → DmaSt) : (s.updDma n g).appl = s.appl := rfl
@[simp] theorem State.updDma_latch (s : State) (n : Nat) (g : DmaSt → DmaSt) : (s.updDma n g).latch = s.latch := rfl
@[simp] theorem State.updDma_srsts (s : State) (n : Nat) (g : DmaSt → DmaSt) : (s.updDma n g).srsts = s.srsts := rfl
@[simp] theorem State.updDma_commits (s : State) (n : Nat) (g : DmaSt → DmaSt) : (s.updDma n g).commits = s.commits := rfl
@[simp] theorem State.updDma_fenceAt (s : State) (n : Nat) (g : DmaSt → DmaSt) : (s.updDma n g).fenceAt = s.fenceAt := rfl
@[simp] theorem State.updDma_lateCause (s : State) (n : Nat) (g : DmaSt → DmaSt) : (s.updDma n g).lateCause = s.lateCause := rfl
@[simp] theorem State.updDma_rdata (s : State) (n : Nat) (g : DmaSt → DmaSt) : (s.updDma n g).rdata = s.rdata := rfl
@[simp] theorem State.updDma_outs (s : State) (n : Nat) (g : DmaSt → DmaSt) : (s.updDma n g).outs = s.outs := rfl
@[simp] theorem State.updDma_fresh (s : State) (n : Nat) (g : DmaSt → DmaSt) : (s.updDma n g).fresh = s.fresh := rfl
@[simp] theorem State.updDma_epoch (s : State) (n : Nat) (g : DmaSt → DmaSt) : (s.updDma n g).epoch = s.epoch := rfl
@[simp] theorem State.updDma_lstore (s : State) (n : Nat) (g : DmaSt → DmaSt) : (s.updDma n g).lstore = s.lstore := rfl
@[simp] theorem State.updDma_lsErr (s : State) (n : Nat) (g : DmaSt → DmaSt) : (s.updDma n g).lsErr = s.lsErr := rfl
@[simp] theorem State.updDma_lsRep (s : State) (n : Nat) (g : DmaSt → DmaSt) : (s.updDma n g).lsRep = s.lsRep := rfl
@[simp] theorem State.updDma_dramMem (s : State) (n : Nat) (g : DmaSt → DmaSt) : (s.updDma n g).dramMem = s.dramMem := rfl
@[simp] theorem State.updDma_dramChk (s : State) (n : Nat) (g : DmaSt → DmaSt) : (s.updDma n g).dramChk = s.dramChk := rfl
@[simp] theorem State.updDma_dramWait (s : State) (n : Nat) (g : DmaSt → DmaSt) : (s.updDma n g).dramWait = s.dramWait := rfl
@[simp] theorem State.updDma_bells (s : State) (n : Nat) (g : DmaSt → DmaSt) : (s.updDma n g).bells = s.bells := rfl
@[simp] theorem State.updDma_ackDue (s : State) (n : Nat) (g : DmaSt → DmaSt) : (s.updDma n g).ackDue = s.ackDue := rfl
@[simp] theorem State.updDma_flash (s : State) (n : Nat) (g : DmaSt → DmaSt) : (s.updDma n g).flash = s.flash := rfl
@[simp] theorem State.updDma_pos (s : State) (n : Nat) (g : DmaSt → DmaSt) : (s.updDma n g).pos = s.pos := rfl
@[simp] theorem State.updDma_posStarted (s : State) (n : Nat) (g : DmaSt → DmaSt) : (s.updDma n g).posStarted = s.posStarted := rfl
@[simp] theorem State.updDma_line (s : State) (n : Nat) (g : DmaSt → DmaSt) : (s.updDma n g).line = s.line := rfl
@[simp] theorem State.updDma_pipe (s : State) (n : Nat) (g : DmaSt → DmaSt) : (s.updDma n g).pipe = s.pipe := rfl
@[simp] theorem State.updDma_head (s : State) (n : Nat) (g : DmaSt → DmaSt) : (s.updDma n g).head = s.head := rfl
@[simp] theorem State.updDma_lastDma (s : State) (n : Nat) (g : DmaSt → DmaSt) : (s.updDma n g).lastDma = s.lastDma := rfl
@[simp] theorem State.updDma_lastDec (s : State) (n : Nat) (g : DmaSt → DmaSt) : (s.updDma n g).lastDec = s.lastDec := rfl
@[simp] theorem State.updDma_queues (s : State) (n : Nat) (g : DmaSt → DmaSt) : (s.updDma n g).queues = s.queues := rfl
@[simp] theorem State.updDma_sinks (s : State) (n : Nat) (g : DmaSt → DmaSt) : (s.updDma n g).sinks = s.sinks := rfl
@[simp] theorem State.updDma_enc (s : State) (n : Nat) (g : DmaSt → DmaSt) : (s.updDma n g).enc = s.enc := rfl
@[simp] theorem State.updDma_job (s : State) (n : Nat) (g : DmaSt → DmaSt) : (s.updDma n g).job = s.job := rfl
@[simp] theorem State.updDma_dec (s : State) (n : Nat) (g : DmaSt → DmaSt) : (s.updDma n g).dec = s.dec := rfl
@[simp] theorem State.updDma_port (s : State) (n : Nat) (g : DmaSt → DmaSt) : (s.updDma n g).port = s.port := rfl
@[simp] theorem State.updDma_prof (s : State) (n : Nat) (g : DmaSt → DmaSt) : (s.updDma n g).prof = s.prof := rfl
@[simp] theorem State.updDma_breath (s : State) (n : Nat) (g : DmaSt → DmaSt) : (s.updDma n g).breath = s.breath := rfl
@[simp] theorem State.updDma_pair (s : State) (n : Nat) (g : DmaSt → DmaSt) : (s.updDma n g).pair = s.pair := rfl
@[simp] theorem State.updDma_cam (s : State) (n : Nat) (g : DmaSt → DmaSt) : (s.updDma n g).cam = s.cam := rfl
@[simp] theorem State.updDma_camc (s : State) (n : Nat) (g : DmaSt → DmaSt) : (s.updDma n g).camc = s.camc := rfl
@[simp] theorem State.updDma_chant (s : State) (n : Nat) (g : DmaSt → DmaSt) : (s.updDma n g).chant = s.chant := rfl
@[simp] theorem State.updDma_calst (s : State) (n : Nat) (g : DmaSt → DmaSt) : (s.updDma n g).calst = s.calst := rfl
@[simp] theorem State.updDma_dram (s : State) (n : Nat) (g : DmaSt → DmaSt) : (s.updDma n g).dram = s.dram := rfl
@[simp] theorem State.updDma_scrub (s : State) (n : Nat) (g : DmaSt → DmaSt) : (s.updDma n g).scrub = s.scrub := rfl
@[simp] theorem State.updDma_trackClear (s : State) (n : Nat) (g : DmaSt → DmaSt) : (s.updDma n g).trackClear = s.trackClear := rfl
@[simp] theorem State.updDma_lane (s : State) (n : Nat) (g : DmaSt → DmaSt) : (s.updDma n g).lane = s.lane := rfl
@[simp] theorem State.updDma_boot (s : State) (n : Nat) (g : DmaSt → DmaSt) : (s.updDma n g).boot = s.boot := rfl
@[simp] theorem State.updDma_host (s : State) (n : Nat) (g : DmaSt → DmaSt) : (s.updDma n g).host = s.host := rfl

/-! `updEnc` -/
@[simp] theorem State.updEnc_pending (s : State) (n : Nat) (g : EncSt → EncSt) : (s.updEnc n g).pending = s.pending := rfl
@[simp] theorem State.updEnc_tick (s : State) (n : Nat) (g : EncSt → EncSt) : (s.updEnc n g).tick = s.tick := rfl
@[simp] theorem State.updEnc_osc (s : State) (n : Nat) (g : EncSt → EncSt) : (s.updEnc n g).osc = s.osc := rfl
@[simp] theorem State.updEnc_phi (s : State) (n : Nat) (g : EncSt → EncSt) : (s.updEnc n g).phi = s.phi := rfl
@[simp] theorem State.updEnc_cNs (s : State) (n : Nat) (g : EncSt → EncSt) : (s.updEnc n g).cNs = s.cNs := rfl
@[simp] theorem State.updEnc_cFrac (s : State) (n : Nat) (g : EncSt → EncSt) : (s.updEnc n g).cFrac = s.cFrac := rfl
@[simp] theorem State.updEnc_timeCmd (s : State) (n : Nat) (g : EncSt → EncSt) : (s.updEnc n g).timeCmd = s.timeCmd := rfl
@[simp] theorem State.updEnc_inReset (s : State) (n : Nat) (g : EncSt → EncSt) : (s.updEnc n g).inReset = s.inReset := rfl
@[simp] theorem State.updEnc_pll (s : State) (n : Nat) (g : EncSt → EncSt) : (s.updEnc n g).pll = s.pll := rfl
@[simp] theorem State.updEnc_heldReset (s : State) (n : Nat) (g : EncSt → EncSt) : (s.updEnc n g).heldReset = s.heldReset := rfl
@[simp] theorem State.updEnc_heldClock (s : State) (n : Nat) (g : EncSt → EncSt) : (s.updEnc n g).heldClock = s.heldClock := rfl
@[simp] theorem State.updEnc_wrstPend (s : State) (n : Nat) (g : EncSt → EncSt) : (s.updEnc n g).wrstPend = s.wrstPend := rfl
@[simp] theorem State.updEnc_straps (s : State) (n : Nat) (g : EncSt → EncSt) : (s.updEnc n g).straps = s.straps := rfl
@[simp] theorem State.updEnc_liveStraps (s : State) (n : Nat) (g : EncSt → EncSt) : (s.updEnc n g).liveStraps = s.liveStraps := rfl
@[simp] theorem State.updEnc_cmpAt (s : State) (n : Nat) (g : EncSt → EncSt) : (s.updEnc n g).cmpAt = s.cmpAt := rfl
@[simp] theorem State.updEnc_mfioIn (s : State) (n : Nat) (g : EncSt → EncSt) : (s.updEnc n g).mfioIn = s.mfioIn := rfl
@[simp] theorem State.updEnc_pulses (s : State) (n : Nat) (g : EncSt → EncSt) : (s.updEnc n g).pulses = s.pulses := rfl
@[simp] theorem State.updEnc_tap (s : State) (n : Nat) (g : EncSt → EncSt) : (s.updEnc n g).tap = s.tap := rfl
@[simp] theorem State.updEnc_tapReg (s : State) (n : Nat) (g : EncSt → EncSt) : (s.updEnc n g).tapReg = s.tapReg := rfl
@[simp] theorem State.updEnc_cells (s : State) (n : Nat) (g : EncSt → EncSt) : (s.updEnc n g).cells = s.cells := rfl
@[simp] theorem State.updEnc_regs (s : State) (n : Nat) (g : EncSt → EncSt) : (s.updEnc n g).regs = s.regs := rfl
@[simp] theorem State.updEnc_pendv (s : State) (n : Nat) (g : EncSt → EncSt) : (s.updEnc n g).pendv = s.pendv := rfl
@[simp] theorem State.updEnc_appl (s : State) (n : Nat) (g : EncSt → EncSt) : (s.updEnc n g).appl = s.appl := rfl
@[simp] theorem State.updEnc_latch (s : State) (n : Nat) (g : EncSt → EncSt) : (s.updEnc n g).latch = s.latch := rfl
@[simp] theorem State.updEnc_srsts (s : State) (n : Nat) (g : EncSt → EncSt) : (s.updEnc n g).srsts = s.srsts := rfl
@[simp] theorem State.updEnc_commits (s : State) (n : Nat) (g : EncSt → EncSt) : (s.updEnc n g).commits = s.commits := rfl
@[simp] theorem State.updEnc_fenceAt (s : State) (n : Nat) (g : EncSt → EncSt) : (s.updEnc n g).fenceAt = s.fenceAt := rfl
@[simp] theorem State.updEnc_lateCause (s : State) (n : Nat) (g : EncSt → EncSt) : (s.updEnc n g).lateCause = s.lateCause := rfl
@[simp] theorem State.updEnc_rdata (s : State) (n : Nat) (g : EncSt → EncSt) : (s.updEnc n g).rdata = s.rdata := rfl
@[simp] theorem State.updEnc_outs (s : State) (n : Nat) (g : EncSt → EncSt) : (s.updEnc n g).outs = s.outs := rfl
@[simp] theorem State.updEnc_fresh (s : State) (n : Nat) (g : EncSt → EncSt) : (s.updEnc n g).fresh = s.fresh := rfl
@[simp] theorem State.updEnc_epoch (s : State) (n : Nat) (g : EncSt → EncSt) : (s.updEnc n g).epoch = s.epoch := rfl
@[simp] theorem State.updEnc_lstore (s : State) (n : Nat) (g : EncSt → EncSt) : (s.updEnc n g).lstore = s.lstore := rfl
@[simp] theorem State.updEnc_lsErr (s : State) (n : Nat) (g : EncSt → EncSt) : (s.updEnc n g).lsErr = s.lsErr := rfl
@[simp] theorem State.updEnc_lsRep (s : State) (n : Nat) (g : EncSt → EncSt) : (s.updEnc n g).lsRep = s.lsRep := rfl
@[simp] theorem State.updEnc_dramMem (s : State) (n : Nat) (g : EncSt → EncSt) : (s.updEnc n g).dramMem = s.dramMem := rfl
@[simp] theorem State.updEnc_dramChk (s : State) (n : Nat) (g : EncSt → EncSt) : (s.updEnc n g).dramChk = s.dramChk := rfl
@[simp] theorem State.updEnc_dramWait (s : State) (n : Nat) (g : EncSt → EncSt) : (s.updEnc n g).dramWait = s.dramWait := rfl
@[simp] theorem State.updEnc_bells (s : State) (n : Nat) (g : EncSt → EncSt) : (s.updEnc n g).bells = s.bells := rfl
@[simp] theorem State.updEnc_ackDue (s : State) (n : Nat) (g : EncSt → EncSt) : (s.updEnc n g).ackDue = s.ackDue := rfl
@[simp] theorem State.updEnc_flash (s : State) (n : Nat) (g : EncSt → EncSt) : (s.updEnc n g).flash = s.flash := rfl
@[simp] theorem State.updEnc_pos (s : State) (n : Nat) (g : EncSt → EncSt) : (s.updEnc n g).pos = s.pos := rfl
@[simp] theorem State.updEnc_posStarted (s : State) (n : Nat) (g : EncSt → EncSt) : (s.updEnc n g).posStarted = s.posStarted := rfl
@[simp] theorem State.updEnc_line (s : State) (n : Nat) (g : EncSt → EncSt) : (s.updEnc n g).line = s.line := rfl
@[simp] theorem State.updEnc_pipe (s : State) (n : Nat) (g : EncSt → EncSt) : (s.updEnc n g).pipe = s.pipe := rfl
@[simp] theorem State.updEnc_head (s : State) (n : Nat) (g : EncSt → EncSt) : (s.updEnc n g).head = s.head := rfl
@[simp] theorem State.updEnc_dma (s : State) (n : Nat) (g : EncSt → EncSt) : (s.updEnc n g).dma = s.dma := rfl
@[simp] theorem State.updEnc_lastDma (s : State) (n : Nat) (g : EncSt → EncSt) : (s.updEnc n g).lastDma = s.lastDma := rfl
@[simp] theorem State.updEnc_lastDec (s : State) (n : Nat) (g : EncSt → EncSt) : (s.updEnc n g).lastDec = s.lastDec := rfl
@[simp] theorem State.updEnc_queues (s : State) (n : Nat) (g : EncSt → EncSt) : (s.updEnc n g).queues = s.queues := rfl
@[simp] theorem State.updEnc_sinks (s : State) (n : Nat) (g : EncSt → EncSt) : (s.updEnc n g).sinks = s.sinks := rfl
@[simp] theorem State.updEnc_job (s : State) (n : Nat) (g : EncSt → EncSt) : (s.updEnc n g).job = s.job := rfl
@[simp] theorem State.updEnc_dec (s : State) (n : Nat) (g : EncSt → EncSt) : (s.updEnc n g).dec = s.dec := rfl
@[simp] theorem State.updEnc_port (s : State) (n : Nat) (g : EncSt → EncSt) : (s.updEnc n g).port = s.port := rfl
@[simp] theorem State.updEnc_prof (s : State) (n : Nat) (g : EncSt → EncSt) : (s.updEnc n g).prof = s.prof := rfl
@[simp] theorem State.updEnc_breath (s : State) (n : Nat) (g : EncSt → EncSt) : (s.updEnc n g).breath = s.breath := rfl
@[simp] theorem State.updEnc_pair (s : State) (n : Nat) (g : EncSt → EncSt) : (s.updEnc n g).pair = s.pair := rfl
@[simp] theorem State.updEnc_cam (s : State) (n : Nat) (g : EncSt → EncSt) : (s.updEnc n g).cam = s.cam := rfl
@[simp] theorem State.updEnc_camc (s : State) (n : Nat) (g : EncSt → EncSt) : (s.updEnc n g).camc = s.camc := rfl
@[simp] theorem State.updEnc_chant (s : State) (n : Nat) (g : EncSt → EncSt) : (s.updEnc n g).chant = s.chant := rfl
@[simp] theorem State.updEnc_calst (s : State) (n : Nat) (g : EncSt → EncSt) : (s.updEnc n g).calst = s.calst := rfl
@[simp] theorem State.updEnc_dram (s : State) (n : Nat) (g : EncSt → EncSt) : (s.updEnc n g).dram = s.dram := rfl
@[simp] theorem State.updEnc_scrub (s : State) (n : Nat) (g : EncSt → EncSt) : (s.updEnc n g).scrub = s.scrub := rfl
@[simp] theorem State.updEnc_trackClear (s : State) (n : Nat) (g : EncSt → EncSt) : (s.updEnc n g).trackClear = s.trackClear := rfl
@[simp] theorem State.updEnc_lane (s : State) (n : Nat) (g : EncSt → EncSt) : (s.updEnc n g).lane = s.lane := rfl
@[simp] theorem State.updEnc_boot (s : State) (n : Nat) (g : EncSt → EncSt) : (s.updEnc n g).boot = s.boot := rfl
@[simp] theorem State.updEnc_host (s : State) (n : Nat) (g : EncSt → EncSt) : (s.updEnc n g).host = s.host := rfl

/-! `updJob` -/
@[simp] theorem State.updJob_pending (s : State) (n : Nat) (g : JobSt → JobSt) : (s.updJob n g).pending = s.pending := rfl
@[simp] theorem State.updJob_tick (s : State) (n : Nat) (g : JobSt → JobSt) : (s.updJob n g).tick = s.tick := rfl
@[simp] theorem State.updJob_osc (s : State) (n : Nat) (g : JobSt → JobSt) : (s.updJob n g).osc = s.osc := rfl
@[simp] theorem State.updJob_phi (s : State) (n : Nat) (g : JobSt → JobSt) : (s.updJob n g).phi = s.phi := rfl
@[simp] theorem State.updJob_cNs (s : State) (n : Nat) (g : JobSt → JobSt) : (s.updJob n g).cNs = s.cNs := rfl
@[simp] theorem State.updJob_cFrac (s : State) (n : Nat) (g : JobSt → JobSt) : (s.updJob n g).cFrac = s.cFrac := rfl
@[simp] theorem State.updJob_timeCmd (s : State) (n : Nat) (g : JobSt → JobSt) : (s.updJob n g).timeCmd = s.timeCmd := rfl
@[simp] theorem State.updJob_inReset (s : State) (n : Nat) (g : JobSt → JobSt) : (s.updJob n g).inReset = s.inReset := rfl
@[simp] theorem State.updJob_pll (s : State) (n : Nat) (g : JobSt → JobSt) : (s.updJob n g).pll = s.pll := rfl
@[simp] theorem State.updJob_heldReset (s : State) (n : Nat) (g : JobSt → JobSt) : (s.updJob n g).heldReset = s.heldReset := rfl
@[simp] theorem State.updJob_heldClock (s : State) (n : Nat) (g : JobSt → JobSt) : (s.updJob n g).heldClock = s.heldClock := rfl
@[simp] theorem State.updJob_wrstPend (s : State) (n : Nat) (g : JobSt → JobSt) : (s.updJob n g).wrstPend = s.wrstPend := rfl
@[simp] theorem State.updJob_straps (s : State) (n : Nat) (g : JobSt → JobSt) : (s.updJob n g).straps = s.straps := rfl
@[simp] theorem State.updJob_liveStraps (s : State) (n : Nat) (g : JobSt → JobSt) : (s.updJob n g).liveStraps = s.liveStraps := rfl
@[simp] theorem State.updJob_cmpAt (s : State) (n : Nat) (g : JobSt → JobSt) : (s.updJob n g).cmpAt = s.cmpAt := rfl
@[simp] theorem State.updJob_mfioIn (s : State) (n : Nat) (g : JobSt → JobSt) : (s.updJob n g).mfioIn = s.mfioIn := rfl
@[simp] theorem State.updJob_pulses (s : State) (n : Nat) (g : JobSt → JobSt) : (s.updJob n g).pulses = s.pulses := rfl
@[simp] theorem State.updJob_tap (s : State) (n : Nat) (g : JobSt → JobSt) : (s.updJob n g).tap = s.tap := rfl
@[simp] theorem State.updJob_tapReg (s : State) (n : Nat) (g : JobSt → JobSt) : (s.updJob n g).tapReg = s.tapReg := rfl
@[simp] theorem State.updJob_cells (s : State) (n : Nat) (g : JobSt → JobSt) : (s.updJob n g).cells = s.cells := rfl
@[simp] theorem State.updJob_regs (s : State) (n : Nat) (g : JobSt → JobSt) : (s.updJob n g).regs = s.regs := rfl
@[simp] theorem State.updJob_pendv (s : State) (n : Nat) (g : JobSt → JobSt) : (s.updJob n g).pendv = s.pendv := rfl
@[simp] theorem State.updJob_appl (s : State) (n : Nat) (g : JobSt → JobSt) : (s.updJob n g).appl = s.appl := rfl
@[simp] theorem State.updJob_latch (s : State) (n : Nat) (g : JobSt → JobSt) : (s.updJob n g).latch = s.latch := rfl
@[simp] theorem State.updJob_srsts (s : State) (n : Nat) (g : JobSt → JobSt) : (s.updJob n g).srsts = s.srsts := rfl
@[simp] theorem State.updJob_commits (s : State) (n : Nat) (g : JobSt → JobSt) : (s.updJob n g).commits = s.commits := rfl
@[simp] theorem State.updJob_fenceAt (s : State) (n : Nat) (g : JobSt → JobSt) : (s.updJob n g).fenceAt = s.fenceAt := rfl
@[simp] theorem State.updJob_lateCause (s : State) (n : Nat) (g : JobSt → JobSt) : (s.updJob n g).lateCause = s.lateCause := rfl
@[simp] theorem State.updJob_rdata (s : State) (n : Nat) (g : JobSt → JobSt) : (s.updJob n g).rdata = s.rdata := rfl
@[simp] theorem State.updJob_outs (s : State) (n : Nat) (g : JobSt → JobSt) : (s.updJob n g).outs = s.outs := rfl
@[simp] theorem State.updJob_fresh (s : State) (n : Nat) (g : JobSt → JobSt) : (s.updJob n g).fresh = s.fresh := rfl
@[simp] theorem State.updJob_epoch (s : State) (n : Nat) (g : JobSt → JobSt) : (s.updJob n g).epoch = s.epoch := rfl
@[simp] theorem State.updJob_lstore (s : State) (n : Nat) (g : JobSt → JobSt) : (s.updJob n g).lstore = s.lstore := rfl
@[simp] theorem State.updJob_lsErr (s : State) (n : Nat) (g : JobSt → JobSt) : (s.updJob n g).lsErr = s.lsErr := rfl
@[simp] theorem State.updJob_lsRep (s : State) (n : Nat) (g : JobSt → JobSt) : (s.updJob n g).lsRep = s.lsRep := rfl
@[simp] theorem State.updJob_dramMem (s : State) (n : Nat) (g : JobSt → JobSt) : (s.updJob n g).dramMem = s.dramMem := rfl
@[simp] theorem State.updJob_dramChk (s : State) (n : Nat) (g : JobSt → JobSt) : (s.updJob n g).dramChk = s.dramChk := rfl
@[simp] theorem State.updJob_dramWait (s : State) (n : Nat) (g : JobSt → JobSt) : (s.updJob n g).dramWait = s.dramWait := rfl
@[simp] theorem State.updJob_bells (s : State) (n : Nat) (g : JobSt → JobSt) : (s.updJob n g).bells = s.bells := rfl
@[simp] theorem State.updJob_ackDue (s : State) (n : Nat) (g : JobSt → JobSt) : (s.updJob n g).ackDue = s.ackDue := rfl
@[simp] theorem State.updJob_flash (s : State) (n : Nat) (g : JobSt → JobSt) : (s.updJob n g).flash = s.flash := rfl
@[simp] theorem State.updJob_pos (s : State) (n : Nat) (g : JobSt → JobSt) : (s.updJob n g).pos = s.pos := rfl
@[simp] theorem State.updJob_posStarted (s : State) (n : Nat) (g : JobSt → JobSt) : (s.updJob n g).posStarted = s.posStarted := rfl
@[simp] theorem State.updJob_line (s : State) (n : Nat) (g : JobSt → JobSt) : (s.updJob n g).line = s.line := rfl
@[simp] theorem State.updJob_pipe (s : State) (n : Nat) (g : JobSt → JobSt) : (s.updJob n g).pipe = s.pipe := rfl
@[simp] theorem State.updJob_head (s : State) (n : Nat) (g : JobSt → JobSt) : (s.updJob n g).head = s.head := rfl
@[simp] theorem State.updJob_dma (s : State) (n : Nat) (g : JobSt → JobSt) : (s.updJob n g).dma = s.dma := rfl
@[simp] theorem State.updJob_lastDma (s : State) (n : Nat) (g : JobSt → JobSt) : (s.updJob n g).lastDma = s.lastDma := rfl
@[simp] theorem State.updJob_lastDec (s : State) (n : Nat) (g : JobSt → JobSt) : (s.updJob n g).lastDec = s.lastDec := rfl
@[simp] theorem State.updJob_queues (s : State) (n : Nat) (g : JobSt → JobSt) : (s.updJob n g).queues = s.queues := rfl
@[simp] theorem State.updJob_sinks (s : State) (n : Nat) (g : JobSt → JobSt) : (s.updJob n g).sinks = s.sinks := rfl
@[simp] theorem State.updJob_enc (s : State) (n : Nat) (g : JobSt → JobSt) : (s.updJob n g).enc = s.enc := rfl
@[simp] theorem State.updJob_dec (s : State) (n : Nat) (g : JobSt → JobSt) : (s.updJob n g).dec = s.dec := rfl
@[simp] theorem State.updJob_port (s : State) (n : Nat) (g : JobSt → JobSt) : (s.updJob n g).port = s.port := rfl
@[simp] theorem State.updJob_prof (s : State) (n : Nat) (g : JobSt → JobSt) : (s.updJob n g).prof = s.prof := rfl
@[simp] theorem State.updJob_breath (s : State) (n : Nat) (g : JobSt → JobSt) : (s.updJob n g).breath = s.breath := rfl
@[simp] theorem State.updJob_pair (s : State) (n : Nat) (g : JobSt → JobSt) : (s.updJob n g).pair = s.pair := rfl
@[simp] theorem State.updJob_cam (s : State) (n : Nat) (g : JobSt → JobSt) : (s.updJob n g).cam = s.cam := rfl
@[simp] theorem State.updJob_camc (s : State) (n : Nat) (g : JobSt → JobSt) : (s.updJob n g).camc = s.camc := rfl
@[simp] theorem State.updJob_chant (s : State) (n : Nat) (g : JobSt → JobSt) : (s.updJob n g).chant = s.chant := rfl
@[simp] theorem State.updJob_calst (s : State) (n : Nat) (g : JobSt → JobSt) : (s.updJob n g).calst = s.calst := rfl
@[simp] theorem State.updJob_dram (s : State) (n : Nat) (g : JobSt → JobSt) : (s.updJob n g).dram = s.dram := rfl
@[simp] theorem State.updJob_scrub (s : State) (n : Nat) (g : JobSt → JobSt) : (s.updJob n g).scrub = s.scrub := rfl
@[simp] theorem State.updJob_trackClear (s : State) (n : Nat) (g : JobSt → JobSt) : (s.updJob n g).trackClear = s.trackClear := rfl
@[simp] theorem State.updJob_lane (s : State) (n : Nat) (g : JobSt → JobSt) : (s.updJob n g).lane = s.lane := rfl
@[simp] theorem State.updJob_boot (s : State) (n : Nat) (g : JobSt → JobSt) : (s.updJob n g).boot = s.boot := rfl
@[simp] theorem State.updJob_host (s : State) (n : Nat) (g : JobSt → JobSt) : (s.updJob n g).host = s.host := rfl

/-! `updDec` -/
@[simp] theorem State.updDec_pending (s : State) (n : Nat) (g : DecSt → DecSt) : (s.updDec n g).pending = s.pending := rfl
@[simp] theorem State.updDec_tick (s : State) (n : Nat) (g : DecSt → DecSt) : (s.updDec n g).tick = s.tick := rfl
@[simp] theorem State.updDec_osc (s : State) (n : Nat) (g : DecSt → DecSt) : (s.updDec n g).osc = s.osc := rfl
@[simp] theorem State.updDec_phi (s : State) (n : Nat) (g : DecSt → DecSt) : (s.updDec n g).phi = s.phi := rfl
@[simp] theorem State.updDec_cNs (s : State) (n : Nat) (g : DecSt → DecSt) : (s.updDec n g).cNs = s.cNs := rfl
@[simp] theorem State.updDec_cFrac (s : State) (n : Nat) (g : DecSt → DecSt) : (s.updDec n g).cFrac = s.cFrac := rfl
@[simp] theorem State.updDec_timeCmd (s : State) (n : Nat) (g : DecSt → DecSt) : (s.updDec n g).timeCmd = s.timeCmd := rfl
@[simp] theorem State.updDec_inReset (s : State) (n : Nat) (g : DecSt → DecSt) : (s.updDec n g).inReset = s.inReset := rfl
@[simp] theorem State.updDec_pll (s : State) (n : Nat) (g : DecSt → DecSt) : (s.updDec n g).pll = s.pll := rfl
@[simp] theorem State.updDec_heldReset (s : State) (n : Nat) (g : DecSt → DecSt) : (s.updDec n g).heldReset = s.heldReset := rfl
@[simp] theorem State.updDec_heldClock (s : State) (n : Nat) (g : DecSt → DecSt) : (s.updDec n g).heldClock = s.heldClock := rfl
@[simp] theorem State.updDec_wrstPend (s : State) (n : Nat) (g : DecSt → DecSt) : (s.updDec n g).wrstPend = s.wrstPend := rfl
@[simp] theorem State.updDec_straps (s : State) (n : Nat) (g : DecSt → DecSt) : (s.updDec n g).straps = s.straps := rfl
@[simp] theorem State.updDec_liveStraps (s : State) (n : Nat) (g : DecSt → DecSt) : (s.updDec n g).liveStraps = s.liveStraps := rfl
@[simp] theorem State.updDec_cmpAt (s : State) (n : Nat) (g : DecSt → DecSt) : (s.updDec n g).cmpAt = s.cmpAt := rfl
@[simp] theorem State.updDec_mfioIn (s : State) (n : Nat) (g : DecSt → DecSt) : (s.updDec n g).mfioIn = s.mfioIn := rfl
@[simp] theorem State.updDec_pulses (s : State) (n : Nat) (g : DecSt → DecSt) : (s.updDec n g).pulses = s.pulses := rfl
@[simp] theorem State.updDec_tap (s : State) (n : Nat) (g : DecSt → DecSt) : (s.updDec n g).tap = s.tap := rfl
@[simp] theorem State.updDec_tapReg (s : State) (n : Nat) (g : DecSt → DecSt) : (s.updDec n g).tapReg = s.tapReg := rfl
@[simp] theorem State.updDec_cells (s : State) (n : Nat) (g : DecSt → DecSt) : (s.updDec n g).cells = s.cells := rfl
@[simp] theorem State.updDec_regs (s : State) (n : Nat) (g : DecSt → DecSt) : (s.updDec n g).regs = s.regs := rfl
@[simp] theorem State.updDec_pendv (s : State) (n : Nat) (g : DecSt → DecSt) : (s.updDec n g).pendv = s.pendv := rfl
@[simp] theorem State.updDec_appl (s : State) (n : Nat) (g : DecSt → DecSt) : (s.updDec n g).appl = s.appl := rfl
@[simp] theorem State.updDec_latch (s : State) (n : Nat) (g : DecSt → DecSt) : (s.updDec n g).latch = s.latch := rfl
@[simp] theorem State.updDec_srsts (s : State) (n : Nat) (g : DecSt → DecSt) : (s.updDec n g).srsts = s.srsts := rfl
@[simp] theorem State.updDec_commits (s : State) (n : Nat) (g : DecSt → DecSt) : (s.updDec n g).commits = s.commits := rfl
@[simp] theorem State.updDec_fenceAt (s : State) (n : Nat) (g : DecSt → DecSt) : (s.updDec n g).fenceAt = s.fenceAt := rfl
@[simp] theorem State.updDec_lateCause (s : State) (n : Nat) (g : DecSt → DecSt) : (s.updDec n g).lateCause = s.lateCause := rfl
@[simp] theorem State.updDec_rdata (s : State) (n : Nat) (g : DecSt → DecSt) : (s.updDec n g).rdata = s.rdata := rfl
@[simp] theorem State.updDec_outs (s : State) (n : Nat) (g : DecSt → DecSt) : (s.updDec n g).outs = s.outs := rfl
@[simp] theorem State.updDec_fresh (s : State) (n : Nat) (g : DecSt → DecSt) : (s.updDec n g).fresh = s.fresh := rfl
@[simp] theorem State.updDec_epoch (s : State) (n : Nat) (g : DecSt → DecSt) : (s.updDec n g).epoch = s.epoch := rfl
@[simp] theorem State.updDec_lstore (s : State) (n : Nat) (g : DecSt → DecSt) : (s.updDec n g).lstore = s.lstore := rfl
@[simp] theorem State.updDec_lsErr (s : State) (n : Nat) (g : DecSt → DecSt) : (s.updDec n g).lsErr = s.lsErr := rfl
@[simp] theorem State.updDec_lsRep (s : State) (n : Nat) (g : DecSt → DecSt) : (s.updDec n g).lsRep = s.lsRep := rfl
@[simp] theorem State.updDec_dramMem (s : State) (n : Nat) (g : DecSt → DecSt) : (s.updDec n g).dramMem = s.dramMem := rfl
@[simp] theorem State.updDec_dramChk (s : State) (n : Nat) (g : DecSt → DecSt) : (s.updDec n g).dramChk = s.dramChk := rfl
@[simp] theorem State.updDec_dramWait (s : State) (n : Nat) (g : DecSt → DecSt) : (s.updDec n g).dramWait = s.dramWait := rfl
@[simp] theorem State.updDec_bells (s : State) (n : Nat) (g : DecSt → DecSt) : (s.updDec n g).bells = s.bells := rfl
@[simp] theorem State.updDec_ackDue (s : State) (n : Nat) (g : DecSt → DecSt) : (s.updDec n g).ackDue = s.ackDue := rfl
@[simp] theorem State.updDec_flash (s : State) (n : Nat) (g : DecSt → DecSt) : (s.updDec n g).flash = s.flash := rfl
@[simp] theorem State.updDec_pos (s : State) (n : Nat) (g : DecSt → DecSt) : (s.updDec n g).pos = s.pos := rfl
@[simp] theorem State.updDec_posStarted (s : State) (n : Nat) (g : DecSt → DecSt) : (s.updDec n g).posStarted = s.posStarted := rfl
@[simp] theorem State.updDec_line (s : State) (n : Nat) (g : DecSt → DecSt) : (s.updDec n g).line = s.line := rfl
@[simp] theorem State.updDec_pipe (s : State) (n : Nat) (g : DecSt → DecSt) : (s.updDec n g).pipe = s.pipe := rfl
@[simp] theorem State.updDec_head (s : State) (n : Nat) (g : DecSt → DecSt) : (s.updDec n g).head = s.head := rfl
@[simp] theorem State.updDec_dma (s : State) (n : Nat) (g : DecSt → DecSt) : (s.updDec n g).dma = s.dma := rfl
@[simp] theorem State.updDec_lastDma (s : State) (n : Nat) (g : DecSt → DecSt) : (s.updDec n g).lastDma = s.lastDma := rfl
@[simp] theorem State.updDec_lastDec (s : State) (n : Nat) (g : DecSt → DecSt) : (s.updDec n g).lastDec = s.lastDec := rfl
@[simp] theorem State.updDec_queues (s : State) (n : Nat) (g : DecSt → DecSt) : (s.updDec n g).queues = s.queues := rfl
@[simp] theorem State.updDec_sinks (s : State) (n : Nat) (g : DecSt → DecSt) : (s.updDec n g).sinks = s.sinks := rfl
@[simp] theorem State.updDec_enc (s : State) (n : Nat) (g : DecSt → DecSt) : (s.updDec n g).enc = s.enc := rfl
@[simp] theorem State.updDec_job (s : State) (n : Nat) (g : DecSt → DecSt) : (s.updDec n g).job = s.job := rfl
@[simp] theorem State.updDec_port (s : State) (n : Nat) (g : DecSt → DecSt) : (s.updDec n g).port = s.port := rfl
@[simp] theorem State.updDec_prof (s : State) (n : Nat) (g : DecSt → DecSt) : (s.updDec n g).prof = s.prof := rfl
@[simp] theorem State.updDec_breath (s : State) (n : Nat) (g : DecSt → DecSt) : (s.updDec n g).breath = s.breath := rfl
@[simp] theorem State.updDec_pair (s : State) (n : Nat) (g : DecSt → DecSt) : (s.updDec n g).pair = s.pair := rfl
@[simp] theorem State.updDec_cam (s : State) (n : Nat) (g : DecSt → DecSt) : (s.updDec n g).cam = s.cam := rfl
@[simp] theorem State.updDec_camc (s : State) (n : Nat) (g : DecSt → DecSt) : (s.updDec n g).camc = s.camc := rfl
@[simp] theorem State.updDec_chant (s : State) (n : Nat) (g : DecSt → DecSt) : (s.updDec n g).chant = s.chant := rfl
@[simp] theorem State.updDec_calst (s : State) (n : Nat) (g : DecSt → DecSt) : (s.updDec n g).calst = s.calst := rfl
@[simp] theorem State.updDec_dram (s : State) (n : Nat) (g : DecSt → DecSt) : (s.updDec n g).dram = s.dram := rfl
@[simp] theorem State.updDec_scrub (s : State) (n : Nat) (g : DecSt → DecSt) : (s.updDec n g).scrub = s.scrub := rfl
@[simp] theorem State.updDec_trackClear (s : State) (n : Nat) (g : DecSt → DecSt) : (s.updDec n g).trackClear = s.trackClear := rfl
@[simp] theorem State.updDec_lane (s : State) (n : Nat) (g : DecSt → DecSt) : (s.updDec n g).lane = s.lane := rfl
@[simp] theorem State.updDec_boot (s : State) (n : Nat) (g : DecSt → DecSt) : (s.updDec n g).boot = s.boot := rfl
@[simp] theorem State.updDec_host (s : State) (n : Nat) (g : DecSt → DecSt) : (s.updDec n g).host = s.host := rfl

/-! `updPort` -/
@[simp] theorem State.updPort_pending (s : State) (n : Nat) (g : PortSt → PortSt) : (s.updPort n g).pending = s.pending := rfl
@[simp] theorem State.updPort_tick (s : State) (n : Nat) (g : PortSt → PortSt) : (s.updPort n g).tick = s.tick := rfl
@[simp] theorem State.updPort_osc (s : State) (n : Nat) (g : PortSt → PortSt) : (s.updPort n g).osc = s.osc := rfl
@[simp] theorem State.updPort_phi (s : State) (n : Nat) (g : PortSt → PortSt) : (s.updPort n g).phi = s.phi := rfl
@[simp] theorem State.updPort_cNs (s : State) (n : Nat) (g : PortSt → PortSt) : (s.updPort n g).cNs = s.cNs := rfl
@[simp] theorem State.updPort_cFrac (s : State) (n : Nat) (g : PortSt → PortSt) : (s.updPort n g).cFrac = s.cFrac := rfl
@[simp] theorem State.updPort_timeCmd (s : State) (n : Nat) (g : PortSt → PortSt) : (s.updPort n g).timeCmd = s.timeCmd := rfl
@[simp] theorem State.updPort_inReset (s : State) (n : Nat) (g : PortSt → PortSt) : (s.updPort n g).inReset = s.inReset := rfl
@[simp] theorem State.updPort_pll (s : State) (n : Nat) (g : PortSt → PortSt) : (s.updPort n g).pll = s.pll := rfl
@[simp] theorem State.updPort_heldReset (s : State) (n : Nat) (g : PortSt → PortSt) : (s.updPort n g).heldReset = s.heldReset := rfl
@[simp] theorem State.updPort_heldClock (s : State) (n : Nat) (g : PortSt → PortSt) : (s.updPort n g).heldClock = s.heldClock := rfl
@[simp] theorem State.updPort_wrstPend (s : State) (n : Nat) (g : PortSt → PortSt) : (s.updPort n g).wrstPend = s.wrstPend := rfl
@[simp] theorem State.updPort_straps (s : State) (n : Nat) (g : PortSt → PortSt) : (s.updPort n g).straps = s.straps := rfl
@[simp] theorem State.updPort_liveStraps (s : State) (n : Nat) (g : PortSt → PortSt) : (s.updPort n g).liveStraps =
    s.liveStraps := rfl
@[simp] theorem State.updPort_cmpAt (s : State) (n : Nat) (g : PortSt → PortSt) : (s.updPort n g).cmpAt = s.cmpAt := rfl
@[simp] theorem State.updPort_mfioIn (s : State) (n : Nat) (g : PortSt → PortSt) : (s.updPort n g).mfioIn = s.mfioIn := rfl
@[simp] theorem State.updPort_pulses (s : State) (n : Nat) (g : PortSt → PortSt) : (s.updPort n g).pulses = s.pulses := rfl
@[simp] theorem State.updPort_tap (s : State) (n : Nat) (g : PortSt → PortSt) : (s.updPort n g).tap = s.tap := rfl
@[simp] theorem State.updPort_tapReg (s : State) (n : Nat) (g : PortSt → PortSt) : (s.updPort n g).tapReg = s.tapReg := rfl
@[simp] theorem State.updPort_cells (s : State) (n : Nat) (g : PortSt → PortSt) : (s.updPort n g).cells = s.cells := rfl
@[simp] theorem State.updPort_regs (s : State) (n : Nat) (g : PortSt → PortSt) : (s.updPort n g).regs = s.regs := rfl
@[simp] theorem State.updPort_pendv (s : State) (n : Nat) (g : PortSt → PortSt) : (s.updPort n g).pendv = s.pendv := rfl
@[simp] theorem State.updPort_appl (s : State) (n : Nat) (g : PortSt → PortSt) : (s.updPort n g).appl = s.appl := rfl
@[simp] theorem State.updPort_latch (s : State) (n : Nat) (g : PortSt → PortSt) : (s.updPort n g).latch = s.latch := rfl
@[simp] theorem State.updPort_srsts (s : State) (n : Nat) (g : PortSt → PortSt) : (s.updPort n g).srsts = s.srsts := rfl
@[simp] theorem State.updPort_commits (s : State) (n : Nat) (g : PortSt → PortSt) : (s.updPort n g).commits = s.commits := rfl
@[simp] theorem State.updPort_fenceAt (s : State) (n : Nat) (g : PortSt → PortSt) : (s.updPort n g).fenceAt = s.fenceAt := rfl
@[simp] theorem State.updPort_lateCause (s : State) (n : Nat) (g : PortSt → PortSt) : (s.updPort n g).lateCause = s.lateCause :=
    rfl
@[simp] theorem State.updPort_rdata (s : State) (n : Nat) (g : PortSt → PortSt) : (s.updPort n g).rdata = s.rdata := rfl
@[simp] theorem State.updPort_outs (s : State) (n : Nat) (g : PortSt → PortSt) : (s.updPort n g).outs = s.outs := rfl
@[simp] theorem State.updPort_fresh (s : State) (n : Nat) (g : PortSt → PortSt) : (s.updPort n g).fresh = s.fresh := rfl
@[simp] theorem State.updPort_epoch (s : State) (n : Nat) (g : PortSt → PortSt) : (s.updPort n g).epoch = s.epoch := rfl
@[simp] theorem State.updPort_lstore (s : State) (n : Nat) (g : PortSt → PortSt) : (s.updPort n g).lstore = s.lstore := rfl
@[simp] theorem State.updPort_lsErr (s : State) (n : Nat) (g : PortSt → PortSt) : (s.updPort n g).lsErr = s.lsErr := rfl
@[simp] theorem State.updPort_lsRep (s : State) (n : Nat) (g : PortSt → PortSt) : (s.updPort n g).lsRep = s.lsRep := rfl
@[simp] theorem State.updPort_dramMem (s : State) (n : Nat) (g : PortSt → PortSt) : (s.updPort n g).dramMem = s.dramMem := rfl
@[simp] theorem State.updPort_dramChk (s : State) (n : Nat) (g : PortSt → PortSt) : (s.updPort n g).dramChk = s.dramChk := rfl
@[simp] theorem State.updPort_dramWait (s : State) (n : Nat) (g : PortSt → PortSt) : (s.updPort n g).dramWait = s.dramWait := rfl
@[simp] theorem State.updPort_bells (s : State) (n : Nat) (g : PortSt → PortSt) : (s.updPort n g).bells = s.bells := rfl
@[simp] theorem State.updPort_ackDue (s : State) (n : Nat) (g : PortSt → PortSt) : (s.updPort n g).ackDue = s.ackDue := rfl
@[simp] theorem State.updPort_flash (s : State) (n : Nat) (g : PortSt → PortSt) : (s.updPort n g).flash = s.flash := rfl
@[simp] theorem State.updPort_pos (s : State) (n : Nat) (g : PortSt → PortSt) : (s.updPort n g).pos = s.pos := rfl
@[simp] theorem State.updPort_posStarted (s : State) (n : Nat) (g : PortSt → PortSt) : (s.updPort n g).posStarted =
    s.posStarted := rfl
@[simp] theorem State.updPort_line (s : State) (n : Nat) (g : PortSt → PortSt) : (s.updPort n g).line = s.line := rfl
@[simp] theorem State.updPort_pipe (s : State) (n : Nat) (g : PortSt → PortSt) : (s.updPort n g).pipe = s.pipe := rfl
@[simp] theorem State.updPort_head (s : State) (n : Nat) (g : PortSt → PortSt) : (s.updPort n g).head = s.head := rfl
@[simp] theorem State.updPort_dma (s : State) (n : Nat) (g : PortSt → PortSt) : (s.updPort n g).dma = s.dma := rfl
@[simp] theorem State.updPort_lastDma (s : State) (n : Nat) (g : PortSt → PortSt) : (s.updPort n g).lastDma = s.lastDma := rfl
@[simp] theorem State.updPort_lastDec (s : State) (n : Nat) (g : PortSt → PortSt) : (s.updPort n g).lastDec = s.lastDec := rfl
@[simp] theorem State.updPort_queues (s : State) (n : Nat) (g : PortSt → PortSt) : (s.updPort n g).queues = s.queues := rfl
@[simp] theorem State.updPort_sinks (s : State) (n : Nat) (g : PortSt → PortSt) : (s.updPort n g).sinks = s.sinks := rfl
@[simp] theorem State.updPort_enc (s : State) (n : Nat) (g : PortSt → PortSt) : (s.updPort n g).enc = s.enc := rfl
@[simp] theorem State.updPort_job (s : State) (n : Nat) (g : PortSt → PortSt) : (s.updPort n g).job = s.job := rfl
@[simp] theorem State.updPort_dec (s : State) (n : Nat) (g : PortSt → PortSt) : (s.updPort n g).dec = s.dec := rfl
@[simp] theorem State.updPort_prof (s : State) (n : Nat) (g : PortSt → PortSt) : (s.updPort n g).prof = s.prof := rfl
@[simp] theorem State.updPort_breath (s : State) (n : Nat) (g : PortSt → PortSt) : (s.updPort n g).breath = s.breath := rfl
@[simp] theorem State.updPort_pair (s : State) (n : Nat) (g : PortSt → PortSt) : (s.updPort n g).pair = s.pair := rfl
@[simp] theorem State.updPort_cam (s : State) (n : Nat) (g : PortSt → PortSt) : (s.updPort n g).cam = s.cam := rfl
@[simp] theorem State.updPort_camc (s : State) (n : Nat) (g : PortSt → PortSt) : (s.updPort n g).camc = s.camc := rfl
@[simp] theorem State.updPort_chant (s : State) (n : Nat) (g : PortSt → PortSt) : (s.updPort n g).chant = s.chant := rfl
@[simp] theorem State.updPort_calst (s : State) (n : Nat) (g : PortSt → PortSt) : (s.updPort n g).calst = s.calst := rfl
@[simp] theorem State.updPort_dram (s : State) (n : Nat) (g : PortSt → PortSt) : (s.updPort n g).dram = s.dram := rfl
@[simp] theorem State.updPort_scrub (s : State) (n : Nat) (g : PortSt → PortSt) : (s.updPort n g).scrub = s.scrub := rfl
@[simp] theorem State.updPort_trackClear (s : State) (n : Nat) (g : PortSt → PortSt) : (s.updPort n g).trackClear =
    s.trackClear := rfl
@[simp] theorem State.updPort_lane (s : State) (n : Nat) (g : PortSt → PortSt) : (s.updPort n g).lane = s.lane := rfl
@[simp] theorem State.updPort_boot (s : State) (n : Nat) (g : PortSt → PortSt) : (s.updPort n g).boot = s.boot := rfl
@[simp] theorem State.updPort_host (s : State) (n : Nat) (g : PortSt → PortSt) : (s.updPort n g).host = s.host := rfl

/-! `updCam` -/
@[simp] theorem State.updCam_pending (s : State) (n : Nat) (g : CamSt → CamSt) : (s.updCam n g).pending = s.pending := rfl
@[simp] theorem State.updCam_tick (s : State) (n : Nat) (g : CamSt → CamSt) : (s.updCam n g).tick = s.tick := rfl
@[simp] theorem State.updCam_osc (s : State) (n : Nat) (g : CamSt → CamSt) : (s.updCam n g).osc = s.osc := rfl
@[simp] theorem State.updCam_phi (s : State) (n : Nat) (g : CamSt → CamSt) : (s.updCam n g).phi = s.phi := rfl
@[simp] theorem State.updCam_cNs (s : State) (n : Nat) (g : CamSt → CamSt) : (s.updCam n g).cNs = s.cNs := rfl
@[simp] theorem State.updCam_cFrac (s : State) (n : Nat) (g : CamSt → CamSt) : (s.updCam n g).cFrac = s.cFrac := rfl
@[simp] theorem State.updCam_timeCmd (s : State) (n : Nat) (g : CamSt → CamSt) : (s.updCam n g).timeCmd = s.timeCmd := rfl
@[simp] theorem State.updCam_inReset (s : State) (n : Nat) (g : CamSt → CamSt) : (s.updCam n g).inReset = s.inReset := rfl
@[simp] theorem State.updCam_pll (s : State) (n : Nat) (g : CamSt → CamSt) : (s.updCam n g).pll = s.pll := rfl
@[simp] theorem State.updCam_heldReset (s : State) (n : Nat) (g : CamSt → CamSt) : (s.updCam n g).heldReset = s.heldReset := rfl
@[simp] theorem State.updCam_heldClock (s : State) (n : Nat) (g : CamSt → CamSt) : (s.updCam n g).heldClock = s.heldClock := rfl
@[simp] theorem State.updCam_wrstPend (s : State) (n : Nat) (g : CamSt → CamSt) : (s.updCam n g).wrstPend = s.wrstPend := rfl
@[simp] theorem State.updCam_straps (s : State) (n : Nat) (g : CamSt → CamSt) : (s.updCam n g).straps = s.straps := rfl
@[simp] theorem State.updCam_liveStraps (s : State) (n : Nat) (g : CamSt → CamSt) : (s.updCam n g).liveStraps = s.liveStraps := rfl
@[simp] theorem State.updCam_cmpAt (s : State) (n : Nat) (g : CamSt → CamSt) : (s.updCam n g).cmpAt = s.cmpAt := rfl
@[simp] theorem State.updCam_mfioIn (s : State) (n : Nat) (g : CamSt → CamSt) : (s.updCam n g).mfioIn = s.mfioIn := rfl
@[simp] theorem State.updCam_pulses (s : State) (n : Nat) (g : CamSt → CamSt) : (s.updCam n g).pulses = s.pulses := rfl
@[simp] theorem State.updCam_tap (s : State) (n : Nat) (g : CamSt → CamSt) : (s.updCam n g).tap = s.tap := rfl
@[simp] theorem State.updCam_tapReg (s : State) (n : Nat) (g : CamSt → CamSt) : (s.updCam n g).tapReg = s.tapReg := rfl
@[simp] theorem State.updCam_cells (s : State) (n : Nat) (g : CamSt → CamSt) : (s.updCam n g).cells = s.cells := rfl
@[simp] theorem State.updCam_regs (s : State) (n : Nat) (g : CamSt → CamSt) : (s.updCam n g).regs = s.regs := rfl
@[simp] theorem State.updCam_pendv (s : State) (n : Nat) (g : CamSt → CamSt) : (s.updCam n g).pendv = s.pendv := rfl
@[simp] theorem State.updCam_appl (s : State) (n : Nat) (g : CamSt → CamSt) : (s.updCam n g).appl = s.appl := rfl
@[simp] theorem State.updCam_latch (s : State) (n : Nat) (g : CamSt → CamSt) : (s.updCam n g).latch = s.latch := rfl
@[simp] theorem State.updCam_srsts (s : State) (n : Nat) (g : CamSt → CamSt) : (s.updCam n g).srsts = s.srsts := rfl
@[simp] theorem State.updCam_commits (s : State) (n : Nat) (g : CamSt → CamSt) : (s.updCam n g).commits = s.commits := rfl
@[simp] theorem State.updCam_fenceAt (s : State) (n : Nat) (g : CamSt → CamSt) : (s.updCam n g).fenceAt = s.fenceAt := rfl
@[simp] theorem State.updCam_lateCause (s : State) (n : Nat) (g : CamSt → CamSt) : (s.updCam n g).lateCause = s.lateCause := rfl
@[simp] theorem State.updCam_rdata (s : State) (n : Nat) (g : CamSt → CamSt) : (s.updCam n g).rdata = s.rdata := rfl
@[simp] theorem State.updCam_outs (s : State) (n : Nat) (g : CamSt → CamSt) : (s.updCam n g).outs = s.outs := rfl
@[simp] theorem State.updCam_fresh (s : State) (n : Nat) (g : CamSt → CamSt) : (s.updCam n g).fresh = s.fresh := rfl
@[simp] theorem State.updCam_epoch (s : State) (n : Nat) (g : CamSt → CamSt) : (s.updCam n g).epoch = s.epoch := rfl
@[simp] theorem State.updCam_lstore (s : State) (n : Nat) (g : CamSt → CamSt) : (s.updCam n g).lstore = s.lstore := rfl
@[simp] theorem State.updCam_lsErr (s : State) (n : Nat) (g : CamSt → CamSt) : (s.updCam n g).lsErr = s.lsErr := rfl
@[simp] theorem State.updCam_lsRep (s : State) (n : Nat) (g : CamSt → CamSt) : (s.updCam n g).lsRep = s.lsRep := rfl
@[simp] theorem State.updCam_dramMem (s : State) (n : Nat) (g : CamSt → CamSt) : (s.updCam n g).dramMem = s.dramMem := rfl
@[simp] theorem State.updCam_dramChk (s : State) (n : Nat) (g : CamSt → CamSt) : (s.updCam n g).dramChk = s.dramChk := rfl
@[simp] theorem State.updCam_dramWait (s : State) (n : Nat) (g : CamSt → CamSt) : (s.updCam n g).dramWait = s.dramWait := rfl
@[simp] theorem State.updCam_bells (s : State) (n : Nat) (g : CamSt → CamSt) : (s.updCam n g).bells = s.bells := rfl
@[simp] theorem State.updCam_ackDue (s : State) (n : Nat) (g : CamSt → CamSt) : (s.updCam n g).ackDue = s.ackDue := rfl
@[simp] theorem State.updCam_flash (s : State) (n : Nat) (g : CamSt → CamSt) : (s.updCam n g).flash = s.flash := rfl
@[simp] theorem State.updCam_pos (s : State) (n : Nat) (g : CamSt → CamSt) : (s.updCam n g).pos = s.pos := rfl
@[simp] theorem State.updCam_posStarted (s : State) (n : Nat) (g : CamSt → CamSt) : (s.updCam n g).posStarted = s.posStarted := rfl
@[simp] theorem State.updCam_line (s : State) (n : Nat) (g : CamSt → CamSt) : (s.updCam n g).line = s.line := rfl
@[simp] theorem State.updCam_pipe (s : State) (n : Nat) (g : CamSt → CamSt) : (s.updCam n g).pipe = s.pipe := rfl
@[simp] theorem State.updCam_head (s : State) (n : Nat) (g : CamSt → CamSt) : (s.updCam n g).head = s.head := rfl
@[simp] theorem State.updCam_dma (s : State) (n : Nat) (g : CamSt → CamSt) : (s.updCam n g).dma = s.dma := rfl
@[simp] theorem State.updCam_lastDma (s : State) (n : Nat) (g : CamSt → CamSt) : (s.updCam n g).lastDma = s.lastDma := rfl
@[simp] theorem State.updCam_lastDec (s : State) (n : Nat) (g : CamSt → CamSt) : (s.updCam n g).lastDec = s.lastDec := rfl
@[simp] theorem State.updCam_queues (s : State) (n : Nat) (g : CamSt → CamSt) : (s.updCam n g).queues = s.queues := rfl
@[simp] theorem State.updCam_sinks (s : State) (n : Nat) (g : CamSt → CamSt) : (s.updCam n g).sinks = s.sinks := rfl
@[simp] theorem State.updCam_enc (s : State) (n : Nat) (g : CamSt → CamSt) : (s.updCam n g).enc = s.enc := rfl
@[simp] theorem State.updCam_job (s : State) (n : Nat) (g : CamSt → CamSt) : (s.updCam n g).job = s.job := rfl
@[simp] theorem State.updCam_dec (s : State) (n : Nat) (g : CamSt → CamSt) : (s.updCam n g).dec = s.dec := rfl
@[simp] theorem State.updCam_port (s : State) (n : Nat) (g : CamSt → CamSt) : (s.updCam n g).port = s.port := rfl
@[simp] theorem State.updCam_prof (s : State) (n : Nat) (g : CamSt → CamSt) : (s.updCam n g).prof = s.prof := rfl
@[simp] theorem State.updCam_breath (s : State) (n : Nat) (g : CamSt → CamSt) : (s.updCam n g).breath = s.breath := rfl
@[simp] theorem State.updCam_pair (s : State) (n : Nat) (g : CamSt → CamSt) : (s.updCam n g).pair = s.pair := rfl
@[simp] theorem State.updCam_camc (s : State) (n : Nat) (g : CamSt → CamSt) : (s.updCam n g).camc = s.camc := rfl
@[simp] theorem State.updCam_chant (s : State) (n : Nat) (g : CamSt → CamSt) : (s.updCam n g).chant = s.chant := rfl
@[simp] theorem State.updCam_calst (s : State) (n : Nat) (g : CamSt → CamSt) : (s.updCam n g).calst = s.calst := rfl
@[simp] theorem State.updCam_dram (s : State) (n : Nat) (g : CamSt → CamSt) : (s.updCam n g).dram = s.dram := rfl
@[simp] theorem State.updCam_scrub (s : State) (n : Nat) (g : CamSt → CamSt) : (s.updCam n g).scrub = s.scrub := rfl
@[simp] theorem State.updCam_trackClear (s : State) (n : Nat) (g : CamSt → CamSt) : (s.updCam n g).trackClear = s.trackClear := rfl
@[simp] theorem State.updCam_lane (s : State) (n : Nat) (g : CamSt → CamSt) : (s.updCam n g).lane = s.lane := rfl
@[simp] theorem State.updCam_boot (s : State) (n : Nat) (g : CamSt → CamSt) : (s.updCam n g).boot = s.boot := rfl
@[simp] theorem State.updCam_host (s : State) (n : Nat) (g : CamSt → CamSt) : (s.updCam n g).host = s.host := rfl

/-! `updDram` -/
@[simp] theorem State.updDram_pending (s : State) (n : Nat) (g : DramSt → DramSt) : (s.updDram n g).pending = s.pending := rfl
@[simp] theorem State.updDram_tick (s : State) (n : Nat) (g : DramSt → DramSt) : (s.updDram n g).tick = s.tick := rfl
@[simp] theorem State.updDram_osc (s : State) (n : Nat) (g : DramSt → DramSt) : (s.updDram n g).osc = s.osc := rfl
@[simp] theorem State.updDram_phi (s : State) (n : Nat) (g : DramSt → DramSt) : (s.updDram n g).phi = s.phi := rfl
@[simp] theorem State.updDram_cNs (s : State) (n : Nat) (g : DramSt → DramSt) : (s.updDram n g).cNs = s.cNs := rfl
@[simp] theorem State.updDram_cFrac (s : State) (n : Nat) (g : DramSt → DramSt) : (s.updDram n g).cFrac = s.cFrac := rfl
@[simp] theorem State.updDram_timeCmd (s : State) (n : Nat) (g : DramSt → DramSt) : (s.updDram n g).timeCmd = s.timeCmd := rfl
@[simp] theorem State.updDram_inReset (s : State) (n : Nat) (g : DramSt → DramSt) : (s.updDram n g).inReset = s.inReset := rfl
@[simp] theorem State.updDram_pll (s : State) (n : Nat) (g : DramSt → DramSt) : (s.updDram n g).pll = s.pll := rfl
@[simp] theorem State.updDram_heldReset (s : State) (n : Nat) (g : DramSt → DramSt) : (s.updDram n g).heldReset = s.heldReset := rfl
@[simp] theorem State.updDram_heldClock (s : State) (n : Nat) (g : DramSt → DramSt) : (s.updDram n g).heldClock = s.heldClock := rfl
@[simp] theorem State.updDram_wrstPend (s : State) (n : Nat) (g : DramSt → DramSt) : (s.updDram n g).wrstPend = s.wrstPend := rfl
@[simp] theorem State.updDram_straps (s : State) (n : Nat) (g : DramSt → DramSt) : (s.updDram n g).straps = s.straps := rfl
@[simp] theorem State.updDram_liveStraps (s : State) (n : Nat) (g : DramSt → DramSt) : (s.updDram n g).liveStraps =
    s.liveStraps := rfl
@[simp] theorem State.updDram_cmpAt (s : State) (n : Nat) (g : DramSt → DramSt) : (s.updDram n g).cmpAt = s.cmpAt := rfl
@[simp] theorem State.updDram_mfioIn (s : State) (n : Nat) (g : DramSt → DramSt) : (s.updDram n g).mfioIn = s.mfioIn := rfl
@[simp] theorem State.updDram_pulses (s : State) (n : Nat) (g : DramSt → DramSt) : (s.updDram n g).pulses = s.pulses := rfl
@[simp] theorem State.updDram_tap (s : State) (n : Nat) (g : DramSt → DramSt) : (s.updDram n g).tap = s.tap := rfl
@[simp] theorem State.updDram_tapReg (s : State) (n : Nat) (g : DramSt → DramSt) : (s.updDram n g).tapReg = s.tapReg := rfl
@[simp] theorem State.updDram_cells (s : State) (n : Nat) (g : DramSt → DramSt) : (s.updDram n g).cells = s.cells := rfl
@[simp] theorem State.updDram_regs (s : State) (n : Nat) (g : DramSt → DramSt) : (s.updDram n g).regs = s.regs := rfl
@[simp] theorem State.updDram_pendv (s : State) (n : Nat) (g : DramSt → DramSt) : (s.updDram n g).pendv = s.pendv := rfl
@[simp] theorem State.updDram_appl (s : State) (n : Nat) (g : DramSt → DramSt) : (s.updDram n g).appl = s.appl := rfl
@[simp] theorem State.updDram_latch (s : State) (n : Nat) (g : DramSt → DramSt) : (s.updDram n g).latch = s.latch := rfl
@[simp] theorem State.updDram_srsts (s : State) (n : Nat) (g : DramSt → DramSt) : (s.updDram n g).srsts = s.srsts := rfl
@[simp] theorem State.updDram_commits (s : State) (n : Nat) (g : DramSt → DramSt) : (s.updDram n g).commits = s.commits := rfl
@[simp] theorem State.updDram_fenceAt (s : State) (n : Nat) (g : DramSt → DramSt) : (s.updDram n g).fenceAt = s.fenceAt := rfl
@[simp] theorem State.updDram_lateCause (s : State) (n : Nat) (g : DramSt → DramSt) : (s.updDram n g).lateCause = s.lateCause :=
    rfl
@[simp] theorem State.updDram_rdata (s : State) (n : Nat) (g : DramSt → DramSt) : (s.updDram n g).rdata = s.rdata := rfl
@[simp] theorem State.updDram_outs (s : State) (n : Nat) (g : DramSt → DramSt) : (s.updDram n g).outs = s.outs := rfl
@[simp] theorem State.updDram_fresh (s : State) (n : Nat) (g : DramSt → DramSt) : (s.updDram n g).fresh = s.fresh := rfl
@[simp] theorem State.updDram_epoch (s : State) (n : Nat) (g : DramSt → DramSt) : (s.updDram n g).epoch = s.epoch := rfl
@[simp] theorem State.updDram_lstore (s : State) (n : Nat) (g : DramSt → DramSt) : (s.updDram n g).lstore = s.lstore := rfl
@[simp] theorem State.updDram_lsErr (s : State) (n : Nat) (g : DramSt → DramSt) : (s.updDram n g).lsErr = s.lsErr := rfl
@[simp] theorem State.updDram_lsRep (s : State) (n : Nat) (g : DramSt → DramSt) : (s.updDram n g).lsRep = s.lsRep := rfl
@[simp] theorem State.updDram_dramMem (s : State) (n : Nat) (g : DramSt → DramSt) : (s.updDram n g).dramMem = s.dramMem := rfl
@[simp] theorem State.updDram_dramChk (s : State) (n : Nat) (g : DramSt → DramSt) : (s.updDram n g).dramChk = s.dramChk := rfl
@[simp] theorem State.updDram_dramWait (s : State) (n : Nat) (g : DramSt → DramSt) : (s.updDram n g).dramWait = s.dramWait := rfl
@[simp] theorem State.updDram_bells (s : State) (n : Nat) (g : DramSt → DramSt) : (s.updDram n g).bells = s.bells := rfl
@[simp] theorem State.updDram_ackDue (s : State) (n : Nat) (g : DramSt → DramSt) : (s.updDram n g).ackDue = s.ackDue := rfl
@[simp] theorem State.updDram_flash (s : State) (n : Nat) (g : DramSt → DramSt) : (s.updDram n g).flash = s.flash := rfl
@[simp] theorem State.updDram_pos (s : State) (n : Nat) (g : DramSt → DramSt) : (s.updDram n g).pos = s.pos := rfl
@[simp] theorem State.updDram_posStarted (s : State) (n : Nat) (g : DramSt → DramSt) : (s.updDram n g).posStarted =
    s.posStarted := rfl
@[simp] theorem State.updDram_line (s : State) (n : Nat) (g : DramSt → DramSt) : (s.updDram n g).line = s.line := rfl
@[simp] theorem State.updDram_pipe (s : State) (n : Nat) (g : DramSt → DramSt) : (s.updDram n g).pipe = s.pipe := rfl
@[simp] theorem State.updDram_head (s : State) (n : Nat) (g : DramSt → DramSt) : (s.updDram n g).head = s.head := rfl
@[simp] theorem State.updDram_dma (s : State) (n : Nat) (g : DramSt → DramSt) : (s.updDram n g).dma = s.dma := rfl
@[simp] theorem State.updDram_lastDma (s : State) (n : Nat) (g : DramSt → DramSt) : (s.updDram n g).lastDma = s.lastDma := rfl
@[simp] theorem State.updDram_lastDec (s : State) (n : Nat) (g : DramSt → DramSt) : (s.updDram n g).lastDec = s.lastDec := rfl
@[simp] theorem State.updDram_queues (s : State) (n : Nat) (g : DramSt → DramSt) : (s.updDram n g).queues = s.queues := rfl
@[simp] theorem State.updDram_sinks (s : State) (n : Nat) (g : DramSt → DramSt) : (s.updDram n g).sinks = s.sinks := rfl
@[simp] theorem State.updDram_enc (s : State) (n : Nat) (g : DramSt → DramSt) : (s.updDram n g).enc = s.enc := rfl
@[simp] theorem State.updDram_job (s : State) (n : Nat) (g : DramSt → DramSt) : (s.updDram n g).job = s.job := rfl
@[simp] theorem State.updDram_dec (s : State) (n : Nat) (g : DramSt → DramSt) : (s.updDram n g).dec = s.dec := rfl
@[simp] theorem State.updDram_port (s : State) (n : Nat) (g : DramSt → DramSt) : (s.updDram n g).port = s.port := rfl
@[simp] theorem State.updDram_prof (s : State) (n : Nat) (g : DramSt → DramSt) : (s.updDram n g).prof = s.prof := rfl
@[simp] theorem State.updDram_breath (s : State) (n : Nat) (g : DramSt → DramSt) : (s.updDram n g).breath = s.breath := rfl
@[simp] theorem State.updDram_pair (s : State) (n : Nat) (g : DramSt → DramSt) : (s.updDram n g).pair = s.pair := rfl
@[simp] theorem State.updDram_cam (s : State) (n : Nat) (g : DramSt → DramSt) : (s.updDram n g).cam = s.cam := rfl
@[simp] theorem State.updDram_camc (s : State) (n : Nat) (g : DramSt → DramSt) : (s.updDram n g).camc = s.camc := rfl
@[simp] theorem State.updDram_chant (s : State) (n : Nat) (g : DramSt → DramSt) : (s.updDram n g).chant = s.chant := rfl
@[simp] theorem State.updDram_calst (s : State) (n : Nat) (g : DramSt → DramSt) : (s.updDram n g).calst = s.calst := rfl
@[simp] theorem State.updDram_scrub (s : State) (n : Nat) (g : DramSt → DramSt) : (s.updDram n g).scrub = s.scrub := rfl
@[simp] theorem State.updDram_trackClear (s : State) (n : Nat) (g : DramSt → DramSt) : (s.updDram n g).trackClear =
    s.trackClear := rfl
@[simp] theorem State.updDram_lane (s : State) (n : Nat) (g : DramSt → DramSt) : (s.updDram n g).lane = s.lane := rfl
@[simp] theorem State.updDram_boot (s : State) (n : Nat) (g : DramSt → DramSt) : (s.updDram n g).boot = s.boot := rfl
@[simp] theorem State.updDram_host (s : State) (n : Nat) (g : DramSt → DramSt) : (s.updDram n g).host = s.host := rfl

/-! `updLane` -/
@[simp] theorem State.updLane_pending (s : State) (n : Nat) (g : LaneSt → LaneSt) : (s.updLane n g).pending = s.pending := rfl
@[simp] theorem State.updLane_tick (s : State) (n : Nat) (g : LaneSt → LaneSt) : (s.updLane n g).tick = s.tick := rfl
@[simp] theorem State.updLane_osc (s : State) (n : Nat) (g : LaneSt → LaneSt) : (s.updLane n g).osc = s.osc := rfl
@[simp] theorem State.updLane_phi (s : State) (n : Nat) (g : LaneSt → LaneSt) : (s.updLane n g).phi = s.phi := rfl
@[simp] theorem State.updLane_cNs (s : State) (n : Nat) (g : LaneSt → LaneSt) : (s.updLane n g).cNs = s.cNs := rfl
@[simp] theorem State.updLane_cFrac (s : State) (n : Nat) (g : LaneSt → LaneSt) : (s.updLane n g).cFrac = s.cFrac := rfl
@[simp] theorem State.updLane_timeCmd (s : State) (n : Nat) (g : LaneSt → LaneSt) : (s.updLane n g).timeCmd = s.timeCmd := rfl
@[simp] theorem State.updLane_inReset (s : State) (n : Nat) (g : LaneSt → LaneSt) : (s.updLane n g).inReset = s.inReset := rfl
@[simp] theorem State.updLane_pll (s : State) (n : Nat) (g : LaneSt → LaneSt) : (s.updLane n g).pll = s.pll := rfl
@[simp] theorem State.updLane_heldReset (s : State) (n : Nat) (g : LaneSt → LaneSt) : (s.updLane n g).heldReset = s.heldReset := rfl
@[simp] theorem State.updLane_heldClock (s : State) (n : Nat) (g : LaneSt → LaneSt) : (s.updLane n g).heldClock = s.heldClock := rfl
@[simp] theorem State.updLane_wrstPend (s : State) (n : Nat) (g : LaneSt → LaneSt) : (s.updLane n g).wrstPend = s.wrstPend := rfl
@[simp] theorem State.updLane_straps (s : State) (n : Nat) (g : LaneSt → LaneSt) : (s.updLane n g).straps = s.straps := rfl
@[simp] theorem State.updLane_liveStraps (s : State) (n : Nat) (g : LaneSt → LaneSt) : (s.updLane n g).liveStraps =
    s.liveStraps := rfl
@[simp] theorem State.updLane_cmpAt (s : State) (n : Nat) (g : LaneSt → LaneSt) : (s.updLane n g).cmpAt = s.cmpAt := rfl
@[simp] theorem State.updLane_mfioIn (s : State) (n : Nat) (g : LaneSt → LaneSt) : (s.updLane n g).mfioIn = s.mfioIn := rfl
@[simp] theorem State.updLane_pulses (s : State) (n : Nat) (g : LaneSt → LaneSt) : (s.updLane n g).pulses = s.pulses := rfl
@[simp] theorem State.updLane_tap (s : State) (n : Nat) (g : LaneSt → LaneSt) : (s.updLane n g).tap = s.tap := rfl
@[simp] theorem State.updLane_tapReg (s : State) (n : Nat) (g : LaneSt → LaneSt) : (s.updLane n g).tapReg = s.tapReg := rfl
@[simp] theorem State.updLane_cells (s : State) (n : Nat) (g : LaneSt → LaneSt) : (s.updLane n g).cells = s.cells := rfl
@[simp] theorem State.updLane_regs (s : State) (n : Nat) (g : LaneSt → LaneSt) : (s.updLane n g).regs = s.regs := rfl
@[simp] theorem State.updLane_pendv (s : State) (n : Nat) (g : LaneSt → LaneSt) : (s.updLane n g).pendv = s.pendv := rfl
@[simp] theorem State.updLane_appl (s : State) (n : Nat) (g : LaneSt → LaneSt) : (s.updLane n g).appl = s.appl := rfl
@[simp] theorem State.updLane_latch (s : State) (n : Nat) (g : LaneSt → LaneSt) : (s.updLane n g).latch = s.latch := rfl
@[simp] theorem State.updLane_srsts (s : State) (n : Nat) (g : LaneSt → LaneSt) : (s.updLane n g).srsts = s.srsts := rfl
@[simp] theorem State.updLane_commits (s : State) (n : Nat) (g : LaneSt → LaneSt) : (s.updLane n g).commits = s.commits := rfl
@[simp] theorem State.updLane_fenceAt (s : State) (n : Nat) (g : LaneSt → LaneSt) : (s.updLane n g).fenceAt = s.fenceAt := rfl
@[simp] theorem State.updLane_lateCause (s : State) (n : Nat) (g : LaneSt → LaneSt) : (s.updLane n g).lateCause = s.lateCause :=
    rfl
@[simp] theorem State.updLane_rdata (s : State) (n : Nat) (g : LaneSt → LaneSt) : (s.updLane n g).rdata = s.rdata := rfl
@[simp] theorem State.updLane_outs (s : State) (n : Nat) (g : LaneSt → LaneSt) : (s.updLane n g).outs = s.outs := rfl
@[simp] theorem State.updLane_fresh (s : State) (n : Nat) (g : LaneSt → LaneSt) : (s.updLane n g).fresh = s.fresh := rfl
@[simp] theorem State.updLane_epoch (s : State) (n : Nat) (g : LaneSt → LaneSt) : (s.updLane n g).epoch = s.epoch := rfl
@[simp] theorem State.updLane_lstore (s : State) (n : Nat) (g : LaneSt → LaneSt) : (s.updLane n g).lstore = s.lstore := rfl
@[simp] theorem State.updLane_lsErr (s : State) (n : Nat) (g : LaneSt → LaneSt) : (s.updLane n g).lsErr = s.lsErr := rfl
@[simp] theorem State.updLane_lsRep (s : State) (n : Nat) (g : LaneSt → LaneSt) : (s.updLane n g).lsRep = s.lsRep := rfl
@[simp] theorem State.updLane_dramMem (s : State) (n : Nat) (g : LaneSt → LaneSt) : (s.updLane n g).dramMem = s.dramMem := rfl
@[simp] theorem State.updLane_dramChk (s : State) (n : Nat) (g : LaneSt → LaneSt) : (s.updLane n g).dramChk = s.dramChk := rfl
@[simp] theorem State.updLane_dramWait (s : State) (n : Nat) (g : LaneSt → LaneSt) : (s.updLane n g).dramWait = s.dramWait := rfl
@[simp] theorem State.updLane_bells (s : State) (n : Nat) (g : LaneSt → LaneSt) : (s.updLane n g).bells = s.bells := rfl
@[simp] theorem State.updLane_ackDue (s : State) (n : Nat) (g : LaneSt → LaneSt) : (s.updLane n g).ackDue = s.ackDue := rfl
@[simp] theorem State.updLane_flash (s : State) (n : Nat) (g : LaneSt → LaneSt) : (s.updLane n g).flash = s.flash := rfl
@[simp] theorem State.updLane_pos (s : State) (n : Nat) (g : LaneSt → LaneSt) : (s.updLane n g).pos = s.pos := rfl
@[simp] theorem State.updLane_posStarted (s : State) (n : Nat) (g : LaneSt → LaneSt) : (s.updLane n g).posStarted =
    s.posStarted := rfl
@[simp] theorem State.updLane_line (s : State) (n : Nat) (g : LaneSt → LaneSt) : (s.updLane n g).line = s.line := rfl
@[simp] theorem State.updLane_pipe (s : State) (n : Nat) (g : LaneSt → LaneSt) : (s.updLane n g).pipe = s.pipe := rfl
@[simp] theorem State.updLane_head (s : State) (n : Nat) (g : LaneSt → LaneSt) : (s.updLane n g).head = s.head := rfl
@[simp] theorem State.updLane_dma (s : State) (n : Nat) (g : LaneSt → LaneSt) : (s.updLane n g).dma = s.dma := rfl
@[simp] theorem State.updLane_lastDma (s : State) (n : Nat) (g : LaneSt → LaneSt) : (s.updLane n g).lastDma = s.lastDma := rfl
@[simp] theorem State.updLane_lastDec (s : State) (n : Nat) (g : LaneSt → LaneSt) : (s.updLane n g).lastDec = s.lastDec := rfl
@[simp] theorem State.updLane_queues (s : State) (n : Nat) (g : LaneSt → LaneSt) : (s.updLane n g).queues = s.queues := rfl
@[simp] theorem State.updLane_sinks (s : State) (n : Nat) (g : LaneSt → LaneSt) : (s.updLane n g).sinks = s.sinks := rfl
@[simp] theorem State.updLane_enc (s : State) (n : Nat) (g : LaneSt → LaneSt) : (s.updLane n g).enc = s.enc := rfl
@[simp] theorem State.updLane_job (s : State) (n : Nat) (g : LaneSt → LaneSt) : (s.updLane n g).job = s.job := rfl
@[simp] theorem State.updLane_dec (s : State) (n : Nat) (g : LaneSt → LaneSt) : (s.updLane n g).dec = s.dec := rfl
@[simp] theorem State.updLane_port (s : State) (n : Nat) (g : LaneSt → LaneSt) : (s.updLane n g).port = s.port := rfl
@[simp] theorem State.updLane_prof (s : State) (n : Nat) (g : LaneSt → LaneSt) : (s.updLane n g).prof = s.prof := rfl
@[simp] theorem State.updLane_breath (s : State) (n : Nat) (g : LaneSt → LaneSt) : (s.updLane n g).breath = s.breath := rfl
@[simp] theorem State.updLane_pair (s : State) (n : Nat) (g : LaneSt → LaneSt) : (s.updLane n g).pair = s.pair := rfl
@[simp] theorem State.updLane_cam (s : State) (n : Nat) (g : LaneSt → LaneSt) : (s.updLane n g).cam = s.cam := rfl
@[simp] theorem State.updLane_camc (s : State) (n : Nat) (g : LaneSt → LaneSt) : (s.updLane n g).camc = s.camc := rfl
@[simp] theorem State.updLane_chant (s : State) (n : Nat) (g : LaneSt → LaneSt) : (s.updLane n g).chant = s.chant := rfl
@[simp] theorem State.updLane_calst (s : State) (n : Nat) (g : LaneSt → LaneSt) : (s.updLane n g).calst = s.calst := rfl
@[simp] theorem State.updLane_dram (s : State) (n : Nat) (g : LaneSt → LaneSt) : (s.updLane n g).dram = s.dram := rfl
@[simp] theorem State.updLane_scrub (s : State) (n : Nat) (g : LaneSt → LaneSt) : (s.updLane n g).scrub = s.scrub := rfl
@[simp] theorem State.updLane_trackClear (s : State) (n : Nat) (g : LaneSt → LaneSt) : (s.updLane n g).trackClear =
    s.trackClear := rfl
@[simp] theorem State.updLane_boot (s : State) (n : Nat) (g : LaneSt → LaneSt) : (s.updLane n g).boot = s.boot := rfl
@[simp] theorem State.updLane_host (s : State) (n : Nat) (g : LaneSt → LaneSt) : (s.updLane n g).host = s.host := rfl

/-! `updPair` -/
@[simp] theorem State.updPair_pending (s : State) (g : PairSt → PairSt) : (s.updPair g).pending = s.pending := rfl
@[simp] theorem State.updPair_tick (s : State) (g : PairSt → PairSt) : (s.updPair g).tick = s.tick := rfl
@[simp] theorem State.updPair_osc (s : State) (g : PairSt → PairSt) : (s.updPair g).osc = s.osc := rfl
@[simp] theorem State.updPair_phi (s : State) (g : PairSt → PairSt) : (s.updPair g).phi = s.phi := rfl
@[simp] theorem State.updPair_cNs (s : State) (g : PairSt → PairSt) : (s.updPair g).cNs = s.cNs := rfl
@[simp] theorem State.updPair_cFrac (s : State) (g : PairSt → PairSt) : (s.updPair g).cFrac = s.cFrac := rfl
@[simp] theorem State.updPair_timeCmd (s : State) (g : PairSt → PairSt) : (s.updPair g).timeCmd = s.timeCmd := rfl
@[simp] theorem State.updPair_inReset (s : State) (g : PairSt → PairSt) : (s.updPair g).inReset = s.inReset := rfl
@[simp] theorem State.updPair_pll (s : State) (g : PairSt → PairSt) : (s.updPair g).pll = s.pll := rfl
@[simp] theorem State.updPair_heldReset (s : State) (g : PairSt → PairSt) : (s.updPair g).heldReset = s.heldReset := rfl
@[simp] theorem State.updPair_heldClock (s : State) (g : PairSt → PairSt) : (s.updPair g).heldClock = s.heldClock := rfl
@[simp] theorem State.updPair_wrstPend (s : State) (g : PairSt → PairSt) : (s.updPair g).wrstPend = s.wrstPend := rfl
@[simp] theorem State.updPair_straps (s : State) (g : PairSt → PairSt) : (s.updPair g).straps = s.straps := rfl
@[simp] theorem State.updPair_liveStraps (s : State) (g : PairSt → PairSt) : (s.updPair g).liveStraps = s.liveStraps := rfl
@[simp] theorem State.updPair_cmpAt (s : State) (g : PairSt → PairSt) : (s.updPair g).cmpAt = s.cmpAt := rfl
@[simp] theorem State.updPair_mfioIn (s : State) (g : PairSt → PairSt) : (s.updPair g).mfioIn = s.mfioIn := rfl
@[simp] theorem State.updPair_pulses (s : State) (g : PairSt → PairSt) : (s.updPair g).pulses = s.pulses := rfl
@[simp] theorem State.updPair_tap (s : State) (g : PairSt → PairSt) : (s.updPair g).tap = s.tap := rfl
@[simp] theorem State.updPair_tapReg (s : State) (g : PairSt → PairSt) : (s.updPair g).tapReg = s.tapReg := rfl
@[simp] theorem State.updPair_cells (s : State) (g : PairSt → PairSt) : (s.updPair g).cells = s.cells := rfl
@[simp] theorem State.updPair_regs (s : State) (g : PairSt → PairSt) : (s.updPair g).regs = s.regs := rfl
@[simp] theorem State.updPair_pendv (s : State) (g : PairSt → PairSt) : (s.updPair g).pendv = s.pendv := rfl
@[simp] theorem State.updPair_appl (s : State) (g : PairSt → PairSt) : (s.updPair g).appl = s.appl := rfl
@[simp] theorem State.updPair_latch (s : State) (g : PairSt → PairSt) : (s.updPair g).latch = s.latch := rfl
@[simp] theorem State.updPair_srsts (s : State) (g : PairSt → PairSt) : (s.updPair g).srsts = s.srsts := rfl
@[simp] theorem State.updPair_commits (s : State) (g : PairSt → PairSt) : (s.updPair g).commits = s.commits := rfl
@[simp] theorem State.updPair_fenceAt (s : State) (g : PairSt → PairSt) : (s.updPair g).fenceAt = s.fenceAt := rfl
@[simp] theorem State.updPair_lateCause (s : State) (g : PairSt → PairSt) : (s.updPair g).lateCause = s.lateCause := rfl
@[simp] theorem State.updPair_rdata (s : State) (g : PairSt → PairSt) : (s.updPair g).rdata = s.rdata := rfl
@[simp] theorem State.updPair_outs (s : State) (g : PairSt → PairSt) : (s.updPair g).outs = s.outs := rfl
@[simp] theorem State.updPair_fresh (s : State) (g : PairSt → PairSt) : (s.updPair g).fresh = s.fresh := rfl
@[simp] theorem State.updPair_epoch (s : State) (g : PairSt → PairSt) : (s.updPair g).epoch = s.epoch := rfl
@[simp] theorem State.updPair_lstore (s : State) (g : PairSt → PairSt) : (s.updPair g).lstore = s.lstore := rfl
@[simp] theorem State.updPair_lsErr (s : State) (g : PairSt → PairSt) : (s.updPair g).lsErr = s.lsErr := rfl
@[simp] theorem State.updPair_lsRep (s : State) (g : PairSt → PairSt) : (s.updPair g).lsRep = s.lsRep := rfl
@[simp] theorem State.updPair_dramMem (s : State) (g : PairSt → PairSt) : (s.updPair g).dramMem = s.dramMem := rfl
@[simp] theorem State.updPair_dramChk (s : State) (g : PairSt → PairSt) : (s.updPair g).dramChk = s.dramChk := rfl
@[simp] theorem State.updPair_dramWait (s : State) (g : PairSt → PairSt) : (s.updPair g).dramWait = s.dramWait := rfl
@[simp] theorem State.updPair_bells (s : State) (g : PairSt → PairSt) : (s.updPair g).bells = s.bells := rfl
@[simp] theorem State.updPair_ackDue (s : State) (g : PairSt → PairSt) : (s.updPair g).ackDue = s.ackDue := rfl
@[simp] theorem State.updPair_flash (s : State) (g : PairSt → PairSt) : (s.updPair g).flash = s.flash := rfl
@[simp] theorem State.updPair_pos (s : State) (g : PairSt → PairSt) : (s.updPair g).pos = s.pos := rfl
@[simp] theorem State.updPair_posStarted (s : State) (g : PairSt → PairSt) : (s.updPair g).posStarted = s.posStarted := rfl
@[simp] theorem State.updPair_line (s : State) (g : PairSt → PairSt) : (s.updPair g).line = s.line := rfl
@[simp] theorem State.updPair_pipe (s : State) (g : PairSt → PairSt) : (s.updPair g).pipe = s.pipe := rfl
@[simp] theorem State.updPair_head (s : State) (g : PairSt → PairSt) : (s.updPair g).head = s.head := rfl
@[simp] theorem State.updPair_dma (s : State) (g : PairSt → PairSt) : (s.updPair g).dma = s.dma := rfl
@[simp] theorem State.updPair_lastDma (s : State) (g : PairSt → PairSt) : (s.updPair g).lastDma = s.lastDma := rfl
@[simp] theorem State.updPair_lastDec (s : State) (g : PairSt → PairSt) : (s.updPair g).lastDec = s.lastDec := rfl
@[simp] theorem State.updPair_queues (s : State) (g : PairSt → PairSt) : (s.updPair g).queues = s.queues := rfl
@[simp] theorem State.updPair_sinks (s : State) (g : PairSt → PairSt) : (s.updPair g).sinks = s.sinks := rfl
@[simp] theorem State.updPair_enc (s : State) (g : PairSt → PairSt) : (s.updPair g).enc = s.enc := rfl
@[simp] theorem State.updPair_job (s : State) (g : PairSt → PairSt) : (s.updPair g).job = s.job := rfl
@[simp] theorem State.updPair_dec (s : State) (g : PairSt → PairSt) : (s.updPair g).dec = s.dec := rfl
@[simp] theorem State.updPair_port (s : State) (g : PairSt → PairSt) : (s.updPair g).port = s.port := rfl
@[simp] theorem State.updPair_prof (s : State) (g : PairSt → PairSt) : (s.updPair g).prof = s.prof := rfl
@[simp] theorem State.updPair_breath (s : State) (g : PairSt → PairSt) : (s.updPair g).breath = s.breath := rfl
@[simp] theorem State.updPair_cam (s : State) (g : PairSt → PairSt) : (s.updPair g).cam = s.cam := rfl
@[simp] theorem State.updPair_camc (s : State) (g : PairSt → PairSt) : (s.updPair g).camc = s.camc := rfl
@[simp] theorem State.updPair_chant (s : State) (g : PairSt → PairSt) : (s.updPair g).chant = s.chant := rfl
@[simp] theorem State.updPair_calst (s : State) (g : PairSt → PairSt) : (s.updPair g).calst = s.calst := rfl
@[simp] theorem State.updPair_dram (s : State) (g : PairSt → PairSt) : (s.updPair g).dram = s.dram := rfl
@[simp] theorem State.updPair_scrub (s : State) (g : PairSt → PairSt) : (s.updPair g).scrub = s.scrub := rfl
@[simp] theorem State.updPair_trackClear (s : State) (g : PairSt → PairSt) : (s.updPair g).trackClear = s.trackClear := rfl
@[simp] theorem State.updPair_lane (s : State) (g : PairSt → PairSt) : (s.updPair g).lane = s.lane := rfl
@[simp] theorem State.updPair_boot (s : State) (g : PairSt → PairSt) : (s.updPair g).boot = s.boot := rfl
@[simp] theorem State.updPair_host (s : State) (g : PairSt → PairSt) : (s.updPair g).host = s.host := rfl

/-! `updBoot` -/
@[simp] theorem State.updBoot_pending (s : State) (g : BootSt → BootSt) : (s.updBoot g).pending = s.pending := rfl
@[simp] theorem State.updBoot_tick (s : State) (g : BootSt → BootSt) : (s.updBoot g).tick = s.tick := rfl
@[simp] theorem State.updBoot_osc (s : State) (g : BootSt → BootSt) : (s.updBoot g).osc = s.osc := rfl
@[simp] theorem State.updBoot_phi (s : State) (g : BootSt → BootSt) : (s.updBoot g).phi = s.phi := rfl
@[simp] theorem State.updBoot_cNs (s : State) (g : BootSt → BootSt) : (s.updBoot g).cNs = s.cNs := rfl
@[simp] theorem State.updBoot_cFrac (s : State) (g : BootSt → BootSt) : (s.updBoot g).cFrac = s.cFrac := rfl
@[simp] theorem State.updBoot_timeCmd (s : State) (g : BootSt → BootSt) : (s.updBoot g).timeCmd = s.timeCmd := rfl
@[simp] theorem State.updBoot_inReset (s : State) (g : BootSt → BootSt) : (s.updBoot g).inReset = s.inReset := rfl
@[simp] theorem State.updBoot_pll (s : State) (g : BootSt → BootSt) : (s.updBoot g).pll = s.pll := rfl
@[simp] theorem State.updBoot_heldReset (s : State) (g : BootSt → BootSt) : (s.updBoot g).heldReset = s.heldReset := rfl
@[simp] theorem State.updBoot_heldClock (s : State) (g : BootSt → BootSt) : (s.updBoot g).heldClock = s.heldClock := rfl
@[simp] theorem State.updBoot_wrstPend (s : State) (g : BootSt → BootSt) : (s.updBoot g).wrstPend = s.wrstPend := rfl
@[simp] theorem State.updBoot_straps (s : State) (g : BootSt → BootSt) : (s.updBoot g).straps = s.straps := rfl
@[simp] theorem State.updBoot_liveStraps (s : State) (g : BootSt → BootSt) : (s.updBoot g).liveStraps = s.liveStraps := rfl
@[simp] theorem State.updBoot_cmpAt (s : State) (g : BootSt → BootSt) : (s.updBoot g).cmpAt = s.cmpAt := rfl
@[simp] theorem State.updBoot_mfioIn (s : State) (g : BootSt → BootSt) : (s.updBoot g).mfioIn = s.mfioIn := rfl
@[simp] theorem State.updBoot_pulses (s : State) (g : BootSt → BootSt) : (s.updBoot g).pulses = s.pulses := rfl
@[simp] theorem State.updBoot_tap (s : State) (g : BootSt → BootSt) : (s.updBoot g).tap = s.tap := rfl
@[simp] theorem State.updBoot_tapReg (s : State) (g : BootSt → BootSt) : (s.updBoot g).tapReg = s.tapReg := rfl
@[simp] theorem State.updBoot_cells (s : State) (g : BootSt → BootSt) : (s.updBoot g).cells = s.cells := rfl
@[simp] theorem State.updBoot_regs (s : State) (g : BootSt → BootSt) : (s.updBoot g).regs = s.regs := rfl
@[simp] theorem State.updBoot_pendv (s : State) (g : BootSt → BootSt) : (s.updBoot g).pendv = s.pendv := rfl
@[simp] theorem State.updBoot_appl (s : State) (g : BootSt → BootSt) : (s.updBoot g).appl = s.appl := rfl
@[simp] theorem State.updBoot_latch (s : State) (g : BootSt → BootSt) : (s.updBoot g).latch = s.latch := rfl
@[simp] theorem State.updBoot_srsts (s : State) (g : BootSt → BootSt) : (s.updBoot g).srsts = s.srsts := rfl
@[simp] theorem State.updBoot_commits (s : State) (g : BootSt → BootSt) : (s.updBoot g).commits = s.commits := rfl
@[simp] theorem State.updBoot_fenceAt (s : State) (g : BootSt → BootSt) : (s.updBoot g).fenceAt = s.fenceAt := rfl
@[simp] theorem State.updBoot_lateCause (s : State) (g : BootSt → BootSt) : (s.updBoot g).lateCause = s.lateCause := rfl
@[simp] theorem State.updBoot_rdata (s : State) (g : BootSt → BootSt) : (s.updBoot g).rdata = s.rdata := rfl
@[simp] theorem State.updBoot_outs (s : State) (g : BootSt → BootSt) : (s.updBoot g).outs = s.outs := rfl
@[simp] theorem State.updBoot_fresh (s : State) (g : BootSt → BootSt) : (s.updBoot g).fresh = s.fresh := rfl
@[simp] theorem State.updBoot_epoch (s : State) (g : BootSt → BootSt) : (s.updBoot g).epoch = s.epoch := rfl
@[simp] theorem State.updBoot_lstore (s : State) (g : BootSt → BootSt) : (s.updBoot g).lstore = s.lstore := rfl
@[simp] theorem State.updBoot_lsErr (s : State) (g : BootSt → BootSt) : (s.updBoot g).lsErr = s.lsErr := rfl
@[simp] theorem State.updBoot_lsRep (s : State) (g : BootSt → BootSt) : (s.updBoot g).lsRep = s.lsRep := rfl
@[simp] theorem State.updBoot_dramMem (s : State) (g : BootSt → BootSt) : (s.updBoot g).dramMem = s.dramMem := rfl
@[simp] theorem State.updBoot_dramChk (s : State) (g : BootSt → BootSt) : (s.updBoot g).dramChk = s.dramChk := rfl
@[simp] theorem State.updBoot_dramWait (s : State) (g : BootSt → BootSt) : (s.updBoot g).dramWait = s.dramWait := rfl
@[simp] theorem State.updBoot_bells (s : State) (g : BootSt → BootSt) : (s.updBoot g).bells = s.bells := rfl
@[simp] theorem State.updBoot_ackDue (s : State) (g : BootSt → BootSt) : (s.updBoot g).ackDue = s.ackDue := rfl
@[simp] theorem State.updBoot_flash (s : State) (g : BootSt → BootSt) : (s.updBoot g).flash = s.flash := rfl
@[simp] theorem State.updBoot_pos (s : State) (g : BootSt → BootSt) : (s.updBoot g).pos = s.pos := rfl
@[simp] theorem State.updBoot_posStarted (s : State) (g : BootSt → BootSt) : (s.updBoot g).posStarted = s.posStarted := rfl
@[simp] theorem State.updBoot_line (s : State) (g : BootSt → BootSt) : (s.updBoot g).line = s.line := rfl
@[simp] theorem State.updBoot_pipe (s : State) (g : BootSt → BootSt) : (s.updBoot g).pipe = s.pipe := rfl
@[simp] theorem State.updBoot_head (s : State) (g : BootSt → BootSt) : (s.updBoot g).head = s.head := rfl
@[simp] theorem State.updBoot_dma (s : State) (g : BootSt → BootSt) : (s.updBoot g).dma = s.dma := rfl
@[simp] theorem State.updBoot_lastDma (s : State) (g : BootSt → BootSt) : (s.updBoot g).lastDma = s.lastDma := rfl
@[simp] theorem State.updBoot_lastDec (s : State) (g : BootSt → BootSt) : (s.updBoot g).lastDec = s.lastDec := rfl
@[simp] theorem State.updBoot_queues (s : State) (g : BootSt → BootSt) : (s.updBoot g).queues = s.queues := rfl
@[simp] theorem State.updBoot_sinks (s : State) (g : BootSt → BootSt) : (s.updBoot g).sinks = s.sinks := rfl
@[simp] theorem State.updBoot_enc (s : State) (g : BootSt → BootSt) : (s.updBoot g).enc = s.enc := rfl
@[simp] theorem State.updBoot_job (s : State) (g : BootSt → BootSt) : (s.updBoot g).job = s.job := rfl
@[simp] theorem State.updBoot_dec (s : State) (g : BootSt → BootSt) : (s.updBoot g).dec = s.dec := rfl
@[simp] theorem State.updBoot_port (s : State) (g : BootSt → BootSt) : (s.updBoot g).port = s.port := rfl
@[simp] theorem State.updBoot_prof (s : State) (g : BootSt → BootSt) : (s.updBoot g).prof = s.prof := rfl
@[simp] theorem State.updBoot_breath (s : State) (g : BootSt → BootSt) : (s.updBoot g).breath = s.breath := rfl
@[simp] theorem State.updBoot_pair (s : State) (g : BootSt → BootSt) : (s.updBoot g).pair = s.pair := rfl
@[simp] theorem State.updBoot_cam (s : State) (g : BootSt → BootSt) : (s.updBoot g).cam = s.cam := rfl
@[simp] theorem State.updBoot_camc (s : State) (g : BootSt → BootSt) : (s.updBoot g).camc = s.camc := rfl
@[simp] theorem State.updBoot_chant (s : State) (g : BootSt → BootSt) : (s.updBoot g).chant = s.chant := rfl
@[simp] theorem State.updBoot_calst (s : State) (g : BootSt → BootSt) : (s.updBoot g).calst = s.calst := rfl
@[simp] theorem State.updBoot_dram (s : State) (g : BootSt → BootSt) : (s.updBoot g).dram = s.dram := rfl
@[simp] theorem State.updBoot_scrub (s : State) (g : BootSt → BootSt) : (s.updBoot g).scrub = s.scrub := rfl
@[simp] theorem State.updBoot_trackClear (s : State) (g : BootSt → BootSt) : (s.updBoot g).trackClear = s.trackClear := rfl
@[simp] theorem State.updBoot_lane (s : State) (g : BootSt → BootSt) : (s.updBoot g).lane = s.lane := rfl
@[simp] theorem State.updBoot_host (s : State) (g : BootSt → BootSt) : (s.updBoot g).host = s.host := rfl

/-! `updHost` -/
@[simp] theorem State.updHost_pending (s : State) (g : HostSt → HostSt) : (s.updHost g).pending = s.pending := rfl
@[simp] theorem State.updHost_tick (s : State) (g : HostSt → HostSt) : (s.updHost g).tick = s.tick := rfl
@[simp] theorem State.updHost_osc (s : State) (g : HostSt → HostSt) : (s.updHost g).osc = s.osc := rfl
@[simp] theorem State.updHost_phi (s : State) (g : HostSt → HostSt) : (s.updHost g).phi = s.phi := rfl
@[simp] theorem State.updHost_cNs (s : State) (g : HostSt → HostSt) : (s.updHost g).cNs = s.cNs := rfl
@[simp] theorem State.updHost_cFrac (s : State) (g : HostSt → HostSt) : (s.updHost g).cFrac = s.cFrac := rfl
@[simp] theorem State.updHost_timeCmd (s : State) (g : HostSt → HostSt) : (s.updHost g).timeCmd = s.timeCmd := rfl
@[simp] theorem State.updHost_inReset (s : State) (g : HostSt → HostSt) : (s.updHost g).inReset = s.inReset := rfl
@[simp] theorem State.updHost_pll (s : State) (g : HostSt → HostSt) : (s.updHost g).pll = s.pll := rfl
@[simp] theorem State.updHost_heldReset (s : State) (g : HostSt → HostSt) : (s.updHost g).heldReset = s.heldReset := rfl
@[simp] theorem State.updHost_heldClock (s : State) (g : HostSt → HostSt) : (s.updHost g).heldClock = s.heldClock := rfl
@[simp] theorem State.updHost_wrstPend (s : State) (g : HostSt → HostSt) : (s.updHost g).wrstPend = s.wrstPend := rfl
@[simp] theorem State.updHost_straps (s : State) (g : HostSt → HostSt) : (s.updHost g).straps = s.straps := rfl
@[simp] theorem State.updHost_liveStraps (s : State) (g : HostSt → HostSt) : (s.updHost g).liveStraps = s.liveStraps := rfl
@[simp] theorem State.updHost_cmpAt (s : State) (g : HostSt → HostSt) : (s.updHost g).cmpAt = s.cmpAt := rfl
@[simp] theorem State.updHost_mfioIn (s : State) (g : HostSt → HostSt) : (s.updHost g).mfioIn = s.mfioIn := rfl
@[simp] theorem State.updHost_pulses (s : State) (g : HostSt → HostSt) : (s.updHost g).pulses = s.pulses := rfl
@[simp] theorem State.updHost_tap (s : State) (g : HostSt → HostSt) : (s.updHost g).tap = s.tap := rfl
@[simp] theorem State.updHost_tapReg (s : State) (g : HostSt → HostSt) : (s.updHost g).tapReg = s.tapReg := rfl
@[simp] theorem State.updHost_cells (s : State) (g : HostSt → HostSt) : (s.updHost g).cells = s.cells := rfl
@[simp] theorem State.updHost_regs (s : State) (g : HostSt → HostSt) : (s.updHost g).regs = s.regs := rfl
@[simp] theorem State.updHost_pendv (s : State) (g : HostSt → HostSt) : (s.updHost g).pendv = s.pendv := rfl
@[simp] theorem State.updHost_appl (s : State) (g : HostSt → HostSt) : (s.updHost g).appl = s.appl := rfl
@[simp] theorem State.updHost_latch (s : State) (g : HostSt → HostSt) : (s.updHost g).latch = s.latch := rfl
@[simp] theorem State.updHost_srsts (s : State) (g : HostSt → HostSt) : (s.updHost g).srsts = s.srsts := rfl
@[simp] theorem State.updHost_commits (s : State) (g : HostSt → HostSt) : (s.updHost g).commits = s.commits := rfl
@[simp] theorem State.updHost_fenceAt (s : State) (g : HostSt → HostSt) : (s.updHost g).fenceAt = s.fenceAt := rfl
@[simp] theorem State.updHost_lateCause (s : State) (g : HostSt → HostSt) : (s.updHost g).lateCause = s.lateCause := rfl
@[simp] theorem State.updHost_rdata (s : State) (g : HostSt → HostSt) : (s.updHost g).rdata = s.rdata := rfl
@[simp] theorem State.updHost_outs (s : State) (g : HostSt → HostSt) : (s.updHost g).outs = s.outs := rfl
@[simp] theorem State.updHost_fresh (s : State) (g : HostSt → HostSt) : (s.updHost g).fresh = s.fresh := rfl
@[simp] theorem State.updHost_epoch (s : State) (g : HostSt → HostSt) : (s.updHost g).epoch = s.epoch := rfl
@[simp] theorem State.updHost_lstore (s : State) (g : HostSt → HostSt) : (s.updHost g).lstore = s.lstore := rfl
@[simp] theorem State.updHost_lsErr (s : State) (g : HostSt → HostSt) : (s.updHost g).lsErr = s.lsErr := rfl
@[simp] theorem State.updHost_lsRep (s : State) (g : HostSt → HostSt) : (s.updHost g).lsRep = s.lsRep := rfl
@[simp] theorem State.updHost_dramMem (s : State) (g : HostSt → HostSt) : (s.updHost g).dramMem = s.dramMem := rfl
@[simp] theorem State.updHost_dramChk (s : State) (g : HostSt → HostSt) : (s.updHost g).dramChk = s.dramChk := rfl
@[simp] theorem State.updHost_dramWait (s : State) (g : HostSt → HostSt) : (s.updHost g).dramWait = s.dramWait := rfl
@[simp] theorem State.updHost_bells (s : State) (g : HostSt → HostSt) : (s.updHost g).bells = s.bells := rfl
@[simp] theorem State.updHost_ackDue (s : State) (g : HostSt → HostSt) : (s.updHost g).ackDue = s.ackDue := rfl
@[simp] theorem State.updHost_flash (s : State) (g : HostSt → HostSt) : (s.updHost g).flash = s.flash := rfl
@[simp] theorem State.updHost_pos (s : State) (g : HostSt → HostSt) : (s.updHost g).pos = s.pos := rfl
@[simp] theorem State.updHost_posStarted (s : State) (g : HostSt → HostSt) : (s.updHost g).posStarted = s.posStarted := rfl
@[simp] theorem State.updHost_line (s : State) (g : HostSt → HostSt) : (s.updHost g).line = s.line := rfl
@[simp] theorem State.updHost_pipe (s : State) (g : HostSt → HostSt) : (s.updHost g).pipe = s.pipe := rfl
@[simp] theorem State.updHost_head (s : State) (g : HostSt → HostSt) : (s.updHost g).head = s.head := rfl
@[simp] theorem State.updHost_dma (s : State) (g : HostSt → HostSt) : (s.updHost g).dma = s.dma := rfl
@[simp] theorem State.updHost_lastDma (s : State) (g : HostSt → HostSt) : (s.updHost g).lastDma = s.lastDma := rfl
@[simp] theorem State.updHost_lastDec (s : State) (g : HostSt → HostSt) : (s.updHost g).lastDec = s.lastDec := rfl
@[simp] theorem State.updHost_queues (s : State) (g : HostSt → HostSt) : (s.updHost g).queues = s.queues := rfl
@[simp] theorem State.updHost_sinks (s : State) (g : HostSt → HostSt) : (s.updHost g).sinks = s.sinks := rfl
@[simp] theorem State.updHost_enc (s : State) (g : HostSt → HostSt) : (s.updHost g).enc = s.enc := rfl
@[simp] theorem State.updHost_job (s : State) (g : HostSt → HostSt) : (s.updHost g).job = s.job := rfl
@[simp] theorem State.updHost_dec (s : State) (g : HostSt → HostSt) : (s.updHost g).dec = s.dec := rfl
@[simp] theorem State.updHost_port (s : State) (g : HostSt → HostSt) : (s.updHost g).port = s.port := rfl
@[simp] theorem State.updHost_prof (s : State) (g : HostSt → HostSt) : (s.updHost g).prof = s.prof := rfl
@[simp] theorem State.updHost_breath (s : State) (g : HostSt → HostSt) : (s.updHost g).breath = s.breath := rfl
@[simp] theorem State.updHost_pair (s : State) (g : HostSt → HostSt) : (s.updHost g).pair = s.pair := rfl
@[simp] theorem State.updHost_cam (s : State) (g : HostSt → HostSt) : (s.updHost g).cam = s.cam := rfl
@[simp] theorem State.updHost_camc (s : State) (g : HostSt → HostSt) : (s.updHost g).camc = s.camc := rfl
@[simp] theorem State.updHost_chant (s : State) (g : HostSt → HostSt) : (s.updHost g).chant = s.chant := rfl
@[simp] theorem State.updHost_calst (s : State) (g : HostSt → HostSt) : (s.updHost g).calst = s.calst := rfl
@[simp] theorem State.updHost_dram (s : State) (g : HostSt → HostSt) : (s.updHost g).dram = s.dram := rfl
@[simp] theorem State.updHost_scrub (s : State) (g : HostSt → HostSt) : (s.updHost g).scrub = s.scrub := rfl
@[simp] theorem State.updHost_trackClear (s : State) (g : HostSt → HostSt) : (s.updHost g).trackClear = s.trackClear := rfl
@[simp] theorem State.updHost_lane (s : State) (g : HostSt → HostSt) : (s.updHost g).lane = s.lane := rfl
@[simp] theorem State.updHost_boot (s : State) (g : HostSt → HostSt) : (s.updHost g).boot = s.boot := rfl

end Sys2Proof.Machine
end

