-- ==== Sys2Proof/Laws/Reg.lean ====
section
/-! SUPPORT. What the operations over registers do, said once each: reads after writes, and `sameBlocks`, which says that an
operation changes registers, read latches and interrupt requests and nothing else. -/

namespace Sys2Proof.Machine

/-! ### Reads after writes -/

/-- A field reads as the value written, cut to its width. -/
@[simp] theorem State.get_set_self (s : State) (p : Nat) (f : Fld) (v : Nat) : (s.set p f v).get p f = v % 2 ^ f.w := by
  simp [State.get, State.set]
/-- A write of a field leaves every other field alone. -/
theorem State.get_set_other (s : State) {p q : Nat} {f g : Fld} (v : Nat) (h : (q, g.id) ≠ (p, f.id)) :
    (s.set p f v).get q g = s.get q g := by
  simp only [State.get, State.set]
  rw [RegMap.find_put_other _ _ _ h]
theorem State.get_set_page (s : State) {p q : Nat} (f g : Fld) (v : Nat) (h : q ≠ p) : (s.set p f v).get q g = s.get q g :=
  s.get_set_other v fun e => h (congrArg Prod.fst e)
theorem State.get_set_field (s : State) (p : Nat) {f g : Fld} (v : Nat) (h : g.id ≠ f.id) : (s.set p f v).get p g = s.get p g :=
  s.get_set_other v fun e => h (congrArg Prod.snd e)
@[simp] theorem State.ap_setAp_self (s : State) (p : Nat) (f : Fld) (v : Nat) : (s.setAp p f v).ap p f = v % 2 ^ f.w := by
  simp [State.ap, State.setAp]
theorem State.ap_setAp_other (s : State) {p q : Nat} {f g : Fld} (v : Nat) (h : (q, g.id) ≠ (p, f.id)) :
    (s.setAp p f v).ap q g = s.ap q g := by
  simp only [State.ap, State.setAp]
  rw [RegMap.find_put_other _ _ _ h]
@[simp] theorem State.latched_setLatch_self (s : State) (p off v : Nat) : (s.setLatch p off v).latched p off = v := by
  simp [State.latched, State.setLatch]

/-! ### `sameBlocks` -/

theorem State.sameBlocks_refl (s : State) : s.sameBlocks s := rfl
theorem State.sameBlocks_trans {s t u : State} (h : s.sameBlocks t) (k : t.sameBlocks u) : s.sameBlocks u := by
  unfold State.sameBlocks at *
  rw [← h, ← k]
/-- Every field but the registers, the latches and the host interface stands. -/
theorem State.sameBlocks_frame {s t : State} (h : s.sameBlocks t) {α : Type} (g : State → α)
    (hg : ∀ (u : State) r l x, g { u with
      regs := r
      latch := l
      host := x } = g u) : g t = g s := by
  have := congrArg g h
  rw [hg] at this
  exact this
theorem State.sameBlocks_ite {s t u : State} (c : Prop) [Decidable c] (h : s.sameBlocks t) (k : s.sameBlocks u) :
    s.sameBlocks (if c then t else u) := by
  split <;> assumption
theorem State.sameBlocks_foldl {α : Type} (l : List α) (g : State → α → State) (h : ∀ (s : State) x, s.sameBlocks (g s x)) (s : State) :
    s.sameBlocks (l.foldl g s) := by
  induction l generalizing s with
  | nil => rfl
  | cons x r ih => exact State.sameBlocks_trans (h s x) (ih _)
theorem State.sameBlocks_each (s : State) (l : List Nat) (g : State → Nat → State) (h : ∀ (s : State) x, s.sameBlocks (g s x)) :
    s.sameBlocks (s.each l g) := State.sameBlocks_foldl l g h s

theorem State.sameBlocks_set (s : State) (p : Nat) (f : Fld) (v : Nat) : s.sameBlocks (s.set p f v) := rfl
theorem State.sameBlocks_setFlag (s : State) (p : Nat) (f : Fld) (b : Bool) : s.sameBlocks (s.setFlag p f b) := rfl
theorem State.sameBlocks_upd (s : State) (p : Nat) (f : Fld) (g : Nat → Nat) : s.sameBlocks (s.upd p f g) := rfl
theorem State.sameBlocks_addSat (s : State) (p : Nat) (f : Fld) (k : Nat) : s.sameBlocks (s.addSat p f k) := rfl
theorem State.sameBlocks_incSat (s : State) (p : Nat) (f : Fld) : s.sameBlocks (s.incSat p f) := rfl
theorem State.sameBlocks_addWrap (s : State) (p : Nat) (f : Fld) (k : Nat) : s.sameBlocks (s.addWrap p f k) := rfl
theorem State.sameBlocks_incWrap (s : State) (p : Nat) (f : Fld) : s.sameBlocks (s.incWrap p f) := rfl
theorem State.sameBlocks_setLatch (s : State) (p off v : Nat) : s.sameBlocks (s.setLatch p off v) := rfl
theorem State.sameBlocks_updHost (s : State) (g : HostSt → HostSt) : s.sameBlocks (s.updHost g) := rfl
/-- One more field written. -/
theorem State.sameBlocks_then_set {s t : State} (h : s.sameBlocks t) (p : Nat) (f : Fld) (v : Nat) :
    s.sameBlocks (t.set p f v) := State.sameBlocks_trans h (t.sameBlocks_set p f v)
theorem State.sameBlocks_set64 (s : State) (p : Nat) (lo hi : Fld) (v : Nat) : s.sameBlocks (s.set64 p lo hi v) :=
  State.sameBlocks_then_set (s.sameBlocks_set _ _ _) _ _ _
theorem State.sameBlocks_add64 (s : State) (p : Nat) (lo hi : Fld) (k : Nat) : s.sameBlocks (s.add64 p lo hi k) :=
  s.sameBlocks_set64 _ _ _ _
theorem State.sameBlocks_request (s : State) (p : Nat) : s.sameBlocks (s.request p) := by
  unfold State.request
  exact State.sameBlocks_ite _ rfl rfl
theorem State.sameBlocks_irqSet (s : State) (p : Nat) (f : Fld) (v : Nat) : s.sameBlocks (s.irqSet p f v) := by
  unfold State.irqSet
  exact State.sameBlocks_ite _ (State.sameBlocks_trans (s.sameBlocks_set p f v) (State.sameBlocks_request _ p)) rfl
theorem State.sameBlocks_raise (s : State) (p bits : Nat) : s.sameBlocks (s.raise p bits) := by
  unfold State.raise
  exact State.sameBlocks_ite _ rfl (s.sameBlocks_irqSet _ _ _)
theorem State.sameBlocks_cause (s : State) (p i : Nat) : s.sameBlocks (s.cause p i) := s.sameBlocks_raise _ _
theorem State.sameBlocks_err (s : State) (p code src lo hi dir : Nat) : s.sameBlocks (s.err p code src lo hi dir) := by
  unfold State.err
  refine State.sameBlocks_ite _ rfl ?_
  refine State.sameBlocks_trans ?_ (State.sameBlocks_trans (State.sameBlocks_incSat _ _ _) (State.sameBlocks_cause _ _ _))
  refine State.sameBlocks_ite _ ?_ rfl
  repeat' (first | with_reducible apply State.sameBlocks_then_set | exact State.sameBlocks_refl _)
theorem State.sameBlocks_err64 (s : State) (p code src a dir : Nat) : s.sameBlocks (s.err64 p code src a dir) :=
  s.sameBlocks_err _ _ _ _ _ _
theorem State.sameBlocks_errClear (s : State) (p : Nat) : s.sameBlocks (s.errClear p) := by
  unfold State.errClear
  repeat' (first | with_reducible apply State.sameBlocks_then_set | exact State.sameBlocks_refl _)
theorem State.sameBlocks_fenceFlags (s : State) (p r : Nat) : s.sameBlocks (s.fenceFlags p r) := by
  unfold State.fenceFlags
  refine State.sameBlocks_trans ?_ (State.sameBlocks_incSat _ _ _)
  repeat' (first | with_reducible apply State.sameBlocks_then_set | exact State.sameBlocks_cause _ _ _)
theorem State.sameBlocks_violate (s : State) (k a : Nat) (w b : Bool) : s.sameBlocks (s.violate k a w b) := by
  unfold State.violate
  repeat' (first | with_reducible apply State.sameBlocks_then_set | exact State.sameBlocks_incSat _ _ _)
theorem State.sameBlocks_conflict (s : State) (o q : Owner) : s.sameBlocks (s.conflict o q) := by
  unfold State.conflict
  refine State.sameBlocks_trans ?_ (State.sameBlocks_err _ _ _ _ _ _ _)
  repeat' (first | with_reducible apply State.sameBlocks_then_set | exact State.sameBlocks_refl _)
/-- Settling the claims of a register (R52) changes registers and interrupt requests only. -/
theorem State.sameBlocks_settleClaims (s : State) (p off : Nat) : s.sameBlocks (s.settleClaims p off) := by
  unfold State.settleClaims
  apply State.sameBlocks_foldl
  intro t o
  split
  · split
    · exact State.sameBlocks_trans (State.sameBlocks_set _ _ _ _) (State.sameBlocks_conflict _ _ _)
    · exact State.sameBlocks_refl _
  · exact State.sameBlocks_refl _
theorem State.sameBlocks_storeField (s : State) (p : Nat) (b : Blk) (v : Nat) (f : Fld) : s.sameBlocks (s.storeField p b v f) := by
  unfold State.storeField
  dsimp only
  split
  · rfl
  · split <;> first | rfl | (split <;> rfl)
/-- A store of a register (R12) changes registers and interrupt requests only. -/
theorem State.sameBlocks_storeReg (s : State) (p off v : Nat) : s.sameBlocks (s.storeReg p off v) := by
  unfold State.storeReg
  split
  · rfl
  · exact State.sameBlocks_trans (State.sameBlocks_foldl _ _ (fun s f => s.sameBlocks_storeField _ _ _ f) s)
      (State.sameBlocks_settleClaims _ _ _)

/-! ### Register writes by the host -/

/-- A host write of a register that breaks no access rule does what the register's write does, and no more (R12, R49). -/
theorem State.writeWith_accepted (s : State) (p off v : Nat) (act : State → State) (h : s.hostServed = true)
    (hf : ∀ b i, blkOf p = some (b, i) → fieldsAt b i off ≠ []) (k : s.writeKind p off v 15 = 0) :
    s.writeWith p off v act = act s := by
  have hi : s.writeIgnored p off v 15 = false := by
    unfold State.writeKind at k
    unfold State.writeIgnored
    cases hb : blkOf p with
    | none => simp [hb] at k
    | some x =>
      obtain ⟨b, i⟩ := x
      simp only [hb] at k ⊢
      split_ifs at k with h1 h2 h3 h4 h5 h6 h7 h8
      have := hf b i hb
      simp_all
  simp [State.writeWith, h, k, hi]

/-- A host write that no access can deliver changes nothing. -/
theorem State.writeWith_unserved (s : State) (p off v : Nat) (act : State → State) (be : Nat) (h : s.hostServed = false) :
    s.writeWith p off v act be = s := by
  simp [State.writeWith, h]

end Sys2Proof.Machine
end

