-- ==== Sys2Proof/Laws/Hold.lean ====
section
/-! SUPPORT. The queue of waiting commands and the four memories, which most operations leave as they are: one lemma for each such
operation, so that a proof about a command does not unfold what it calls. -/

namespace Sys2Proof.Machine

/-- The queue and the four memories. -/
def State.hold (s : State) : List Instr × List Host.Cell × List Host.Cell × List Host.Cell × List Host.Cell :=
  (s.pending, s.lstore, s.dramMem, s.dramChk, s.flash)
@[simp] theorem State.hold_mk (a0 : List Instr) (a1 : Nat) (a2 : Nat) (a3 : Nat) (a4 : Nat) (a5 : Nat) (a6 : Nat) (a7
    : Bool) (a8 : Bool) (a9 : Bool) (a10 : Bool) (a11 : Bool) (a12 : Straps) (a13 : Straps) (a14 : NMap (Nat × Nat)) (a15
    : BitVec 8) (a16 : NMap Nat) (a17 : TapOp) (a18 : Option (List Bool)) (a19 : List Bool) (a20 : RegMap) (a21 : RegMap)
    (a22 : RegMap) (a23 : RegMap) (a24 : NMap SrstSt) (a25 : NMap CommitSt) (a26 : NMap Nat) (a27 : NMap (Nat × List Nat ×
    Nat × Nat)) (a28 : List Byte) (a29 : List Out) (a30 : Nat) (a31 : Nat) (a32 : List Host.Cell) (a33 : NMap Nat) (a34 :
    RepTab) (a35 : List Host.Cell) (a36 : List Host.Cell) (a37 : List DramReq) (a38 : List Nat) (a39 : List (Nat × Nat ×
    Nat)) (a40 : List Host.Cell) (a41 : NMap PosSt) (a42 : Bool) (a43 : NMap LineSt) (a44 : NMap PipeSt) (a45 : NMap
    HeadSt) (a46 : NMap DmaSt) (a47 : NMap Nat) (a48 : Nat) (a49 : NMap (List QItem)) (a50 : NMap (List Byte)) (a51 : NMap
    EncSt) (a52 : NMap JobSt) (a53 : NMap DecSt) (a54 : NMap PortSt) (a55 : ProfSt) (a56 : BreathSt) (a57 : PairSt) (a58 :
    NMap CamSt) (a59 : CamcSt) (a60 : ChantSt) (a61 : CalSt) (a62 : NMap DramSt) (a63 : ScrubSt) (a64 : Nat) (a65 : NMap
    LaneSt) (a66 : BootSt) (a67 : HostSt) : State.hold (State.mk a0 a1 a2 a3 a4 a5 a6 a7 a8 a9 a10 a11 a12 a13 a14 a15 a16
    a17 a18 a19 a20 a21 a22 a23 a24 a25 a26 a27 a28 a29 a30 a31 a32 a33 a34 a35 a36 a37 a38 a39 a40 a41 a42 a43 a44 a45
    a46 a47 a48 a49 a50 a51 a52 a53 a54 a55 a56 a57 a58 a59 a60 a61 a62 a63 a64 a65 a66 a67) = (a0, a32, a35, a36, a40) :=
    rfl
@[simp] theorem State.hold_fold (s : State) : (s.pending, s.lstore, s.dramMem, s.dramChk, s.flash) = s.hold := rfl
@[simp] theorem State.hold_foldl {α : Type} (l : List α) (g : State → α → State) (s : State) (h : ∀ s x, (g s x).hold = s.hold) :
    (l.foldl g s).hold = s.hold := by
  induction l generalizing s with
  | nil => rfl
  | cons x r ih => rw [List.foldl_cons, ih, h]
@[simp] theorem State.hold_foldl1 {α β : Type} (l : List α) (g : State × β → α → State × β) (r : State × β) (h : ∀ r x, (g r
    x).1.hold = r.1.hold) : (l.foldl g r).1.hold = r.1.hold := by
  induction l generalizing r with
  | nil => rfl
  | cons x t ih => rw [List.foldl_cons, ih, h]
@[simp] theorem State.each_hold (s : State) (l : List Nat) (g : State → Nat → State) (h : ∀ s x, (g s x).hold = s.hold) : (s.each l
    g).hold = s.hold := State.hold_foldl l g s h
@[simp] theorem State.when_hold (s : State) (c : Bool) (g : State → State) (h : ∀ s, (g s).hold = s.hold) : (s.when c g).hold =
    s.hold := by
  unfold State.when; split; exact h s; rfl
@[simp] theorem State.applyAt_hold (s : State) (p : Nat) (g : State → Nat → State) (h : ∀ s x, (g s x).hold = s.hold) : (s.applyAt p
    g).hold = s.hold := by
  unfold State.applyAt; split; exact h s p; rfl
theorem State.hold_phi (s : State) (x : Nat) : State.hold { s with phi := x } = s.hold := rfl
theorem State.hold_calst (s : State) (x : CalSt) : State.hold { s with calst := x } = s.hold := rfl
theorem State.hold_chant (s : State) (x : ChantSt) : State.hold { s with chant := x } = s.hold := rfl
@[simp] theorem State.hold_ite (c : Prop) [Decidable c] (s t : State) : (if c then s else t).hold = if c then s.hold else
    t.hold := by split <;> rfl
@[simp] theorem State.hold_ite1 {α : Type} (c : Prop) [Decidable c] (s t : State × α) : (if c then s else t).1.hold = if c
    then s.1.hold else t.1.hold := by split <;> rfl

@[simp] theorem State.set_hold (s : State) (p : Nat) (f : Fld) (v : Nat) : (State.set s p f v).hold = s.hold := by
  simp [State.set]
@[simp] theorem State.setFlag_hold (s : State) (p : Nat) (f : Fld) (b : Bool) : (State.setFlag s p f b).hold = s.hold := by
  simp [State.setFlag]
@[simp] theorem State.setAp_hold (s : State) (p : Nat) (f : Fld) (v : Nat) : (State.setAp s p f v).hold = s.hold := by
  simp [State.setAp]
@[simp] theorem State.upd_hold (s : State) (p : Nat) (f : Fld) (g : Nat → Nat) : (State.upd s p f g).hold = s.hold := by
  simp [State.upd]
@[simp] theorem State.addSat_hold (s : State) (p : Nat) (f : Fld) (k : Nat) : (State.addSat s p f k).hold = s.hold := by
  simp [State.addSat]
@[simp] theorem State.incSat_hold (s : State) (p : Nat) (f : Fld) : (State.incSat s p f).hold = s.hold := by
  simp [State.incSat]
@[simp] theorem State.addWrap_hold (s : State) (p : Nat) (f : Fld) (k : Nat) : (State.addWrap s p f k).hold = s.hold := by
  simp [State.addWrap]
@[simp] theorem State.incWrap_hold (s : State) (p : Nat) (f : Fld) : (State.incWrap s p f).hold = s.hold := by
  simp [State.incWrap]
@[simp] theorem State.set64_hold (s : State) (p : Nat) (lo hi : Fld) (v : Nat) : (State.set64 s p lo hi v).hold = s.hold :=
    by
  simp [State.set64]
@[simp] theorem State.add64_hold (s : State) (p : Nat) (lo hi : Fld) (k : Nat) : (State.add64 s p lo hi k).hold = s.hold :=
    by
  simp [State.add64]
@[simp] theorem State.updPos_hold (s : State) (n : Nat) (g : PosSt → PosSt) : (State.updPos s n g).hold = s.hold := by
  simp [State.updPos]
@[simp] theorem State.updLine_hold (s : State) (b : Nat) (g : LineSt → LineSt) : (State.updLine s b g).hold = s.hold := by
  simp [State.updLine]
@[simp] theorem State.updPipe_hold (s : State) (b : Nat) (g : PipeSt → PipeSt) : (State.updPipe s b g).hold = s.hold := by
  simp [State.updPipe]
@[simp] theorem State.updHead_hold (s : State) (h : Nat) (g : HeadSt → HeadSt) : (State.updHead s h g).hold = s.hold := by
  simp [State.updHead]
@[simp] theorem State.updDma_hold (s : State) (c : Nat) (g : DmaSt → DmaSt) : (State.updDma s c g).hold = s.hold := by
  simp [State.updDma]
@[simp] theorem State.updEnc_hold (s : State) (b : Nat) (g : EncSt → EncSt) : (State.updEnc s b g).hold = s.hold := by
  simp [State.updEnc]
@[simp] theorem State.updJob_hold (s : State) (b : Nat) (g : JobSt → JobSt) : (State.updJob s b g).hold = s.hold := by
  simp [State.updJob]
@[simp] theorem State.updDec_hold (s : State) (b : Nat) (g : DecSt → DecSt) : (State.updDec s b g).hold = s.hold := by
  simp [State.updDec]
@[simp] theorem State.updPort_hold (s : State) (n : Nat) (g : PortSt → PortSt) : (State.updPort s n g).hold = s.hold := by
  simp [State.updPort]
@[simp] theorem State.updCam_hold (s : State) (c : Nat) (g : CamSt → CamSt) : (State.updCam s c g).hold = s.hold := by
  simp [State.updCam]
@[simp] theorem State.updDram_hold (s : State) (c : Nat) (g : DramSt → DramSt) : (State.updDram s c g).hold = s.hold := by
  simp [State.updDram]
@[simp] theorem State.updLane_hold (s : State) (l : Nat) (g : LaneSt → LaneSt) : (State.updLane s l g).hold = s.hold := by
  simp [State.updLane]
@[simp] theorem State.updPair_hold (s : State) (g : PairSt → PairSt) : (State.updPair s g).hold = s.hold := by
  simp [State.updPair]
@[simp] theorem State.updBoot_hold (s : State) (g : BootSt → BootSt) : (State.updBoot s g).hold = s.hold := by
  simp [State.updBoot]
@[simp] theorem State.updHost_hold (s : State) (g : HostSt → HostSt) : (State.updHost s g).hold = s.hold := by
  simp [State.updHost]
@[simp] theorem State.keepPage_hold (s t : State) (p : Nat) : (s.keepPage t p).hold = t.hold := rfl
@[simp] theorem State.pageWork_hold (s : State) (p : Nat) (g : State → State) (h : (g s).hold = s.hold) : (s.pageWork p g).hold =
    s.hold := by
  unfold State.pageWork
  split
  · exact h
  · exact h
@[simp] theorem State.emit_hold (s : State) (o : Out) : (State.emit s o).hold = s.hold := by
  simp [State.emit]
@[simp] theorem State.tickFresh_hold (s : State) : (State.tickFresh s).hold = s.hold := by
  simp [State.tickFresh]
@[simp] theorem State.request_hold (s : State) (p : Nat) : (State.request s p).hold = s.hold := by
  simp [State.request]
@[simp] theorem State.irqSet_hold (s : State) (p : Nat) (f : Fld) (v : Nat) : (State.irqSet s p f v).hold = s.hold := by
  simp [State.irqSet]
@[simp] theorem State.raise_hold (s : State) (p bits : Nat) : (State.raise s p bits).hold = s.hold := by
  simp [State.raise]
@[simp] theorem State.cause_hold (s : State) (p i : Nat) : (State.cause s p i).hold = s.hold := by
  simp [State.cause]
@[simp] theorem State.errCount_hold (s : State) (p code src lo hi dir : Nat) : (State.errCount s p code src lo hi dir).hold = s.hold := by
  simp [State.errCount]
@[simp] theorem State.err_hold (s : State) (p code src lo : Nat) (hi : Nat) (dir : Nat) : (State.err s p code src lo hi
    dir).hold = s.hold := by
  simp [State.err]
@[simp] theorem State.err64_hold (s : State) (p code src addr : Nat) (dir : Nat) : (State.err64 s p code src addr dir).hold
    = s.hold := by
  simp [State.err64]
@[simp] theorem State.errClear_hold (s : State) (p : Nat) : (State.errClear s p).hold = s.hold := by
  simp [State.errClear]
@[simp] theorem State.fenceFlags_hold (s : State) (p reason : Nat) : (State.fenceFlags s p reason).hold = s.hold := by
  simp [State.fenceFlags]
@[simp] theorem State.violate_hold (s : State) (kind addr : Nat) (write : Bool) (bar2 : Bool) : (State.violate s kind addr
    write bar2).hold = s.hold := by
  simp [State.violate]
@[simp] theorem State.conflict_hold (s : State) (o q : Owner) : (State.conflict s o q).hold = s.hold := by
  simp [State.conflict]
@[simp] theorem State.settleClaims_hold (s : State) (p off : Nat) : (State.settleClaims s p off).hold = s.hold := by
  unfold State.settleClaims
  apply State.hold_foldl
  intro t o
  split
  · split <;> simp
  · rfl
@[simp] theorem State.setLatch_hold (s : State) (p off v : Nat) : (State.setLatch s p off v).hold = s.hold := by
  simp [State.setLatch]
@[simp] theorem State.storeField_hold (s : State) (p : Nat) (b : Blk) (v : Nat) (f : Fld) : (State.storeField s p b v
    f).hold = s.hold := by
  unfold State.storeField
  (repeat' split) <;> simp
@[simp] theorem State.storeReg_hold (s : State) (p off v : Nat) : (State.storeReg s p off v).hold = s.hold := by
  unfold State.storeReg
  (repeat' split) <;> simp
@[simp] theorem State.pulse_hold (s : State) (k : Nat) : (State.pulse s k).hold = s.hold := by
  simp [State.pulse]
@[simp] theorem State.pulsesFor_hold (s : State) (ks : List Nat) (sel : Nat → Bool) : (State.pulsesFor s ks sel).hold =
    s.hold := by
  simp [State.pulsesFor]
@[simp] theorem State.writeWith_hold (s : State) (p off v : Nat) (act : State → State) (be : Nat)
    (h : ∀ s, (act s).hold = s.hold) : (s.writeWith p off v act be).hold = s.hold := by
  unfold State.writeWith
  split
  · rfl
  · dsimp only
    split <;> split <;> first | rw [State.violate_hold, h] | rw [State.violate_hold] | exact h _ | rfl
@[simp] theorem State.lsFound_hold (s : State) (a src : Nat) (v : Byte × Nat) : (State.lsFound s a src v).1.hold = s.hold :=
    by
  simp [State.lsFound]
@[simp] theorem State.lsReads_hold (s : State) (src : Nat) (a0 : Nat) (a1 : List (Option Byte)) : (State.lsReads s src a0
    a1).1.hold = s.hold := by
  induction a1 generalizing s a0 with
  | nil => rfl
  | cons o l ih => simp [State.lsReads, ih]
@[simp] theorem State.lsRead_hold (s : State) (a n src : Nat) : (State.lsRead s a n src).1.hold = s.hold := by
  simp [State.lsRead]
@[simp] theorem State.lsBytes_hold (s : State) (a n src : Nat) : (State.lsBytes s a n src).1.hold = s.hold := by
  simp [State.lsBytes]
@[simp] theorem State.lsWord_hold (s : State) (a src : Nat) : (State.lsWord s a src).1.hold = s.hold := by
  simp [State.lsWord]
@[simp] theorem State.lsRingRead_hold (s : State) (a size i n src : Nat) : (State.lsRingRead s a size i n src).1.hold =
    s.hold := by
  simp [State.lsRingRead]
@[simp] theorem State.stageOut_hold (s : State) (n i k : Nat) : (State.stageOut s n i k).1.hold = s.hold := by
  simp [State.stageOut]
@[simp] theorem State.setRankState_hold (s : State) (c p v : Nat) : (State.setRankState s c p v).hold = s.hold := by
  simp [State.setRankState]
@[simp] theorem State.degrade_hold (s : State) (c p : Nat) : (State.degrade s c p).hold = s.hold := by
  simp [State.degrade]
@[simp] theorem State.dramErr_hold (s : State) (c code src a : Nat) : (State.dramErr s c code src a).hold = s.hold := by
  simp [State.dramErr]
@[simp] theorem State.retire_hold (s : State) (c lr f a src : Nat) : (State.retire s c lr f a src).hold = s.hold := by
  simp [State.retire]
@[simp] theorem State.rankFailed_hold (s : State) (c lr f a src : Nat) : (State.rankFailed s c lr f a src).hold = s.hold :=
    by
  simp [State.rankFailed]
@[simp] theorem State.activate_hold (s : State) (c p bank row req : Nat) : (State.activate s c p bank row req).hold = s.hold
    := by
  simp [State.activate]
@[simp] theorem State.issue_hold (s : State) (c : Nat) (x : RetryCmd) : (State.issue s c x).hold = s.hold := by
  simp [State.issue]
@[simp] theorem State.freeRep_hold (s : State) (c a : Nat) : (State.freeRep s c a).hold = s.hold := by
  simp [State.freeRep]
@[simp] theorem State.burstFound_hold (s : State) (c lr p a src : Nat) (b : Burst) : (State.burstFound s c lr p a src
    b).1.hold = s.hold := by
  unfold State.burstFound
  (repeat' split) <;> simp
@[simp] theorem State.burstRead_hold (s : State) (a src req : Nat) : (State.burstRead s a src req).1.hold = s.hold := by
  simp [State.burstRead]
@[simp] theorem State.dramRead_hold (s : State) (a n src req : Nat) : (State.dramRead s a n src req).1.hold = s.hold := by
  simp [State.dramRead]
@[simp] theorem State.setPairState_hold (s : State) (v : Nat) : (State.setPairState s v).hold = s.hold := by
  simp [State.setPairState]
@[simp] theorem State.crookSend_hold (s : State) (typ : Nat) (payload : List Byte) : (State.crookSend s typ payload).hold =
    s.hold := by
  simp [State.crookSend]
@[simp] theorem State.crookCommand_hold (s : State) (typ : Nat) (payload : List Byte) : (State.crookCommand s typ
    payload).hold = s.hold := by
  simp [State.crookCommand]
@[simp] theorem State.giveRecord_hold (s : State) (c code b : Nat) (uncov : Bool) : (State.giveRecord s c code b uncov).hold
    = s.hold := by
  simp [State.giveRecord]
@[simp] theorem State.pairCause_hold (s : State) (c code b : Nat) : (State.pairCause s c code b).hold = s.hold := by
  simp [State.pairCause]
@[simp] theorem State.pairRise_hold (s t : State) (code b : Nat) : (State.pairRise s t code b).hold = t.hold := by
  unfold State.pairRise
  (repeat' split) <;> simp
@[simp] theorem State.enterClaim_hold (s : State) : (State.enterClaim s).hold = s.hold := by
  simp [State.enterClaim]
@[simp] theorem State.pairOff_hold (s : State) : (State.pairOff s).hold = s.hold := by
  simp [State.pairOff]
@[simp] theorem State.crookFall_hold (s : State) (src : Nat) : (State.crookFall s src).hold = s.hold := by
  simp [State.crookFall]
@[simp] theorem State.crookRise_hold (s : State) : (State.crookRise s).hold = s.hold := by
  simp [State.crookRise]
@[simp] theorem State.lateCommand_hold (s : State) (b line : Nat) : (State.lateCommand s b line).hold = s.hold := by
  simp [State.lateCommand]
@[simp] theorem State.giveDone_hold (s : State) (b : Nat) : (State.giveDone s b).hold = s.hold := by
  simp [State.giveDone]
@[simp] theorem State.pairBoundary_hold (s : State) (b : Nat) : (State.pairBoundary s b).hold = s.hold := by
  simp [State.pairBoundary]
@[simp] theorem State.jobFail_hold (s : State) (b addr code : Nat) (taken : Bool) : (State.jobFail s b addr code taken).hold
    = s.hold := by
  simp [State.jobFail]
@[simp] theorem State.jobSkip_hold (s : State) (b addr ctrl : Nat) : (State.jobSkip s b addr ctrl).hold = s.hold := by
  simp [State.jobSkip]
@[simp] theorem State.decDiscard_hold (s : State) (b : Nat) : (State.decDiscard s b).hold = s.hold := by
  simp [State.decDiscard]
@[simp] theorem State.jobLine_hold (s : State) (b line : Nat) : (State.jobLine s b line).hold = s.hold := by
  unfold State.jobLine
  (repeat' split) <;> simp
@[simp] theorem State.tlmLane_hold (s : State) (h st : Nat) : (State.tlmLane s h st).hold = s.hold := by
  simp [State.tlmLane]
@[simp] theorem State.scanLost_hold (s : State) (l : Nat) : (State.scanLost s l).hold = s.hold := by
  simp [State.scanLost]
@[simp] theorem State.setLane_hold (s : State) (l st : Nat) : (State.setLane s l st).hold = s.hold := by
  simp [State.setLane]
@[simp] theorem State.dropLock_hold (s : State) (l : Nat) : (State.dropLock s l).hold = s.hold := by
  simp [State.dropLock]
@[simp] theorem State.laneIdle_hold (s : State) (l : Nat) : (State.laneIdle s l).hold = s.hold := by
  simp [State.laneIdle]
@[simp] theorem State.laneMaint_hold (s : State) (l : Nat) : (State.laneMaint s l).hold = s.hold := by
  simp [State.laneMaint]
@[simp] theorem State.laneEnable_hold (s : State) (l : Nat) (en : Bool) : (State.laneEnable s l en).hold = s.hold := by
  simp [State.laneEnable]
@[simp] theorem State.markDue_hold (s : State) (p : Nat) : (State.markDue s p).hold = s.hold := by
  simp [State.markDue]
@[simp] theorem State.fenceMark_hold (s : State) (p reason : Nat) : (State.fenceMark s p reason).hold = s.hold := by
  simp [State.fenceMark]
@[simp] theorem State.headStops_hold (s : State) (h reason : Nat) : (State.headStops s h reason).hold = s.hold := by
  simp [State.headStops]
@[simp] theorem State.headDue_hold (s : State) (h : Nat) : (State.headDue s h).hold = s.hold := by
  unfold State.headDue
  (repeat' split) <;> simp
@[simp] theorem State.pipeDue_hold (s : State) (b : Nat) : (State.pipeDue s b).hold = s.hold := by
  unfold State.pipeDue
  dsimp only
  (repeat' split) <;> simp
@[simp] theorem State.flightOver_hold (s : State) (p : Nat) : (State.flightOver s p).hold = s.hold := by
  unfold State.flightOver
  (repeat' split) <;> simp
@[simp] theorem State.lineStopped_hold (s : State) (b : Nat) : (State.lineStopped s b).hold = s.hold := by
  simp [State.lineStopped]
@[simp] theorem State.dmaStop_hold (s : State) (c : Nat) : (State.dmaStop s c).hold = s.hold := by
  simp [State.dmaStop]
@[simp] theorem State.failOver_hold (s : State) (b : Nat) : (State.failOver s b).hold = s.hold := by
  simp [State.failOver]
@[simp] theorem State.applyFields_hold (s : State) (p p' : Nat) (plain prof : Bool) : (State.applyFields s p p' plain
    prof).hold = s.hold := by
  simp [State.applyFields]
@[simp] theorem State.genDone_hold (s : State) (p : Nat) : (State.genDone s p).hold = s.hold := by
  simp [State.genDone]
@[simp] theorem State.applyPlain_hold (s : State) (p : Nat) : (State.applyPlain s p).hold = s.hold := by
  simp [State.applyPlain]
@[simp] theorem State.applyProf_hold (s : State) (p : Nat) : (State.applyProf s p).hold = s.hold := by
  simp [State.applyProf]
@[simp] theorem State.applyHeadc_hold (s : State) (b : Nat) : (State.applyHeadc s b).hold = s.hold := by
  simp [State.applyHeadc]
@[simp] theorem State.commit_hold (s : State) (p gen : Nat) (immediate : Bool) : (State.commit s p gen immediate).hold =
    s.hold := by
  unfold State.commit
  (repeat' split) <;> simp
@[simp] theorem State.updSlot_hold (s : State) (b first m : Nat) (g : Slot → Slot) : (State.updSlot s b first m g).hold =
    s.hold := by
  simp [State.updSlot]
@[simp] theorem State.segErr_hold (s : State) (b : Nat) (j : Job) (m seg code : Nat) : (State.segErr s b j m seg code).hold
    = s.hold := by
  simp [State.segErr]
@[simp] theorem State.liveMask_hold (s : State) (b : Nat) (j : Job) (m : Nat) : (State.liveMask s b j m).1.hold = s.hold :=
    by
  simp [State.liveMask]
@[simp] theorem State.releaseSlots_hold (s : State) (b line : Nat) : (State.releaseSlots s b line).hold = s.hold := by
  simp [State.releaseSlots]
@[simp] theorem State.streamRead_hold (s : State) (b : Nat) (j : Job) (live : Bool) (p n : Nat) : (State.streamRead s b j
    live p n).1.hold = s.hold := by
  simp [State.streamRead]
@[simp] theorem State.panicUpdate_hold (s : State) (b : Nat) : (State.panicUpdate s b).hold = s.hold := by
  simp [State.panicUpdate]
@[simp] theorem State.panicAll_hold (s : State) : (State.panicAll s).hold = s.hold := by
  simp [State.panicAll]
@[simp] theorem State.encPrev_hold (s : State) (b seg : Nat) (live : Bool) (dot : Bool) (sline : Nat) : (State.encPrev s b
    seg live dot sline).1.hold = s.hold := by
  unfold State.encPrev
  dsimp only
  (repeat' split) <;> simp
@[simp] theorem State.enqueue_hold (s : State) (ep : Nat) (q : QItem) : (State.enqueue s ep q).hold = s.hold := by
  simp [State.enqueue]
@[simp] theorem encCtrlAct_hold (b v : Nat) (s : State) : (encCtrlAct b v s).hold = s.hold := by
  simp [encCtrlAct]
@[simp] theorem State.decError_hold (s : State) (b : Nat) (j : Job) (m seg : Nat) (live : Bool) (code addr : Nat) :
    (State.decError s b j m seg live code addr).hold = s.hold := by
  simp [State.decError]
@[simp] theorem State.segNext_hold (s : State) (b seg : Nat) (live : Bool) : (State.segNext s b seg live).hold = s.hold := by
  simp [State.segNext]
@[simp] theorem State.decPrev_hold (s : State) (b seg : Nat) (live dot : Bool) (sline : Nat) : (State.decPrev s b seg live
    dot sline).1.hold = s.hold := by
  unfold State.decPrev
  dsimp only
  (repeat' split) <;> simp
@[simp] theorem State.setY_hold (s : State) (b : Nat) (y : Int) : (State.setY s b y).hold = s.hold := by
  simp [State.setY]
@[simp] theorem State.setNext_hold (s : State) (b : Nat) (y : Int) : (State.setNext s b y).hold = s.hold := by
  simp [State.setNext]
@[simp] theorem State.lineDue_hold (s : State) (b : Nat) : (State.lineDue s b).hold = s.hold := by
  simp [State.lineDue]
@[simp] theorem State.strStep_hold (s : State) (b : Nat) (d : Int) (c : Nat) : (State.strStep s b d c).hold = s.hold := by
  simp [State.strStep]
@[simp] theorem State.lineStep_hold (s : State) (b n : Nat) (d : Int) (c : Nat) : (State.lineStep s b n d c).hold = s.hold
    := by
  simp [State.lineStep]
@[simp] theorem State.speedRule_hold (s : State) (n : Nat) (d : Int) (t c : Nat) (rev : Bool) : (State.speedRule s n d t c
    rev).hold = s.hold := by
  unfold State.speedRule
  dsimp only
  (repeat' split) <;> simp
@[simp] theorem State.cmpCross_hold (s : State) (n k old new ns : Nat) : (State.cmpCross s n k old new ns).hold = s.hold :=
    by
  simp [State.cmpCross]
@[simp] theorem State.posUpdate_hold (s : State) (n : Nat) (d : Int) (t ns : Nat) : (State.posUpdate s n d t ns).hold =
    s.hold := by
  simp [State.posUpdate]
@[simp] theorem State.posEnable_hold (s : State) (n : Nat) : (State.posEnable s n).hold = s.hold := by
  simp [State.posEnable]
@[simp] theorem posCmpAct_hold (n k v : Nat) (s : State) : (posCmpAct n k v s).hold = s.hold := by
  simp [posCmpAct]
@[simp] theorem posDisarmAct_hold (n v : Nat) (s : State) : (posDisarmAct n v s).hold = s.hold := by
  simp [posDisarmAct]
@[simp] theorem State.adjGo_hold (s : State) (b whn : Nat) : (State.adjGo s b whn).hold = s.hold := by
  simp [State.adjGo]
@[simp] theorem lineAdjAct_hold (b v : Nat) (s : State) : (lineAdjAct b v s).hold = s.hold := by
  simp [lineAdjAct]
@[simp] theorem State.lineDisable_hold (s : State) (b : Nat) : (State.lineDisable s b).hold = s.hold := by
  simp [State.lineDisable]
@[simp] theorem State.runReset_hold (s : State) (b : Nat) : (State.runReset s b).hold = s.hold := by
  simp [State.runReset]
@[simp] theorem State.joinFail_hold (s : State) : (State.joinFail s).hold = s.hold := by
  simp [State.joinFail]
@[simp] theorem State.skewLost_hold (s : State) : (State.skewLost s).hold = s.hold := by
  simp [State.skewLost]
@[simp] theorem State.judgeSkew_hold (s : State) (b : Nat) (own peer : DigSt) : (State.judgeSkew s b own peer).hold = s.hold
    := by
  simp [State.judgeSkew]
@[simp] theorem State.judgeDigest_hold (s : State) (own peer : DigSt) : (State.judgeDigest s own peer).hold = s.hold := by
  simp [State.judgeDigest]
@[simp] theorem State.compareDigests_hold (s : State) (b line : Nat) : (State.compareDigests s b line).hold = s.hold := by
  unfold State.compareDigests
  dsimp only
  (repeat' split) <;> simp
@[simp] theorem State.ownDigest_hold (s : State) (d : DigSt) : (State.ownDigest s d).hold = s.hold := by
  simp [State.ownDigest]
@[simp] theorem State.copyStart_hold (s : State) (b tables : Nat) : (State.copyStart s b tables).hold = s.hold := by
  simp [State.copyStart]
@[simp] theorem State.pipeSwap_hold (s : State) (b line : Nat) (jobB : Bool) : (State.pipeSwap s b line jobB).hold = s.hold
    := by
  unfold State.pipeSwap
  (repeat' split) <;> simp
@[simp] theorem State.armSwap_hold (s : State) (b : Nat) (a : ArmedSwap) : (State.armSwap s b a).hold = s.hold := by
  simp [State.armSwap]
@[simp] theorem State.swapGo_hold (s : State) (b whn tables : Nat) : (State.swapGo s b whn tables).hold = s.hold := by
  simp [State.swapGo]
@[simp] theorem State.pipeRead_hold (s : State) (b a n src : Nat) : (State.pipeRead s b a n src).1.hold = s.hold := by
  simp [State.pipeRead]
@[simp] theorem State.pipeDoom_hold (s : State) (b src : Nat) (bad : List Nat) : (State.pipeDoom s b src bad).hold = s.hold
    := by
  unfold State.pipeDoom
  (repeat' split) <;> simp
@[simp] theorem State.slotRead_hold (s : State) (b : Nat) (dot : Bool) (idx : Nat) : (State.slotRead s b dot idx).1.hold =
    s.hold := by
  simp [State.slotRead]
@[simp] theorem State.countBlank_hold (s : State) (b idx blank : Nat) : (State.countBlank s b idx blank).hold = s.hold := by
  simp [State.countBlank]
@[simp] theorem State.readSlots_hold (s : State) (b : Nat) (w : LineWork) : (State.readSlots s b w).1.hold = s.hold := by
  unfold State.readSlots
  (repeat' split) <;> simp
@[simp] theorem State.readTables_hold (s : State) (b : Nat) (w : LineWork) : (State.readTables s b w).1.hold = s.hold := by
  simp [State.readTables]
@[simp] theorem pipeSwapAct_hold (b v : Nat) (s : State) : (pipeSwapAct b v s).hold = s.hold := by
  simp [pipeSwapAct]
@[simp] theorem pipeCopyAct_hold (b v : Nat) (s : State) : (pipeCopyAct b v s).hold = s.hold := by
  simp [pipeCopyAct]
@[simp] theorem State.setProf_hold (s : State) (p : Nat) (f : Fld) (v : Nat) : (State.setProf s p f v).hold = s.hold := by
  simp [State.setProf]
@[simp] theorem State.applyImage_hold (s : State) (l : List Byte) (b : Nat) : (State.applyImage s l b).hold = s.hold := by
  simp [State.applyImage]
@[simp] theorem State.profShow_hold (s : State) : (State.profShow s).hold = s.hold := by
  unfold State.profShow
  dsimp only
  (repeat' split) <;> simp
@[simp] theorem State.profFinish_hold (s : State) (a0 : Nat) : (State.profFinish s a0).hold = s.hold := by
  induction a0 generalizing s with
  | zero => rfl
  | succ f ih =>
    unfold State.profFinish
    split
    · rfl
    · split
      · rfl
      · rw [ih]; simp
@[simp] theorem State.profSettle_hold (s : State) : (State.profSettle s).hold = s.hold := by
  simp [State.profSettle]
@[simp] theorem State.selApply_hold (s : State) (b line : Nat) (c : Option Sel) : (State.selApply s b line c).1.hold =
    s.hold := by
  unfold State.selApply
  (repeat' split) <;> simp
@[simp] theorem State.profBoundary_hold (s : State) (b line : Nat) : (State.profBoundary s b line).hold = s.hold := by
  simp [State.profBoundary]
@[simp] theorem State.jobProfile_hold (s : State) (b : Nat) (j : Job) : (State.jobProfile s b j).hold = s.hold := by
  simp [State.jobProfile]
@[simp] theorem State.underrun_hold (s : State) (b line : Nat) : (State.underrun s b line).hold = s.hold := by
  simp [State.underrun]
@[simp] theorem State.setCap_hold (s : State) (h line : Nat) (on : Bool) : (State.setCap s h line on).hold = s.hold := by
  simp [State.setCap]
@[simp] theorem State.applyTemp_hold (s : State) (h line : Nat) (temp : Int) : (State.applyTemp s h line temp).hold = s.hold
    := by
  simp [State.applyTemp]
@[simp] theorem State.headTemps_hold (s : State) (h line : Nat) : (State.headTemps s h line).hold = s.hold := by
  unfold State.headTemps
  dsimp only
  split
  · rfl
  · rw [State.hold_foldl _ _ _ (fun t x => State.applyTemp_hold t h line x), State.updHead_hold]
@[simp] theorem State.boundaryApply_hold (s : State) (b line : Nat) (j : Option Job) : (State.boundaryApply s b line j).hold
    = s.hold := by
  unfold State.boundaryApply
  (repeat' split) <;> simp
@[simp] theorem State.holdLine_hold (s : State) (b line : Nat) (holdN : Bool) : (State.holdLine s b line holdN).1.hold =
    s.hold := by
  simp [State.holdLine]
@[simp] theorem State.trailer_hold (s : State) (b : Nat) (dot : Bool) (x : Slot) : (State.trailer s b dot x).1.hold = s.hold
    := by
  simp [State.trailer]
@[simp] theorem State.needSlot_hold (s : State) (b : Nat) (j : Job) (m : Nat) : (State.needSlot s b j m).1.hold = s.hold :=
    by
  unfold State.needSlot
  (repeat' split) <;> simp
@[simp] theorem State.gather_hold (s : State) (b : Nat) (jq : Option (Job × Nat)) : (State.gather s b jq).1.hold = s.hold :=
    by
  unfold State.gather
  (repeat' split) <;> simp
@[simp] theorem State.pipeTake_hold (s : State) (b line : Nat) (jq : Option (Job × Nat)) (jobB held : Bool) :
    (State.pipeTake s b line jq jobB held).1.hold = s.hold := by
  simp [State.pipeTake]
@[simp] theorem State.gainTake_hold (s : State) (b line : Nat) : (State.gainTake s b line).hold = s.hold := by
  simp [State.gainTake]
@[simp] theorem State.chainCompare_hold (s : State) (b : Nat) : (State.chainCompare s b).hold = s.hold := by
  unfold State.chainCompare
  (repeat' split) <;> simp
@[simp] theorem State.chainSend_hold (s : State) (b line : Nat) (j : Job) : (State.chainSend s b line j).hold = s.hold := by
  simp [State.chainSend]
@[simp] theorem State.camTriggers_hold (s : State) (b line : Nat) : (State.camTriggers s b line).hold = s.hold := by
  simp [State.camTriggers]
@[simp] theorem State.lineAfter_hold (s : State) (b line : Nat) : (State.lineAfter s b line).hold = s.hold := by
  simp [State.lineAfter]
@[simp] theorem State.tlmHealth_hold (s : State) (h : Nat) (l : List Byte) : (State.tlmHealth s h l).hold = s.hold := by
  simp [State.tlmHealth]
@[simp] theorem State.updStream_hold (s : State) (n : Nat) (live : Bool) (g : StreamSt → StreamSt) : (State.updStream s n
    live g).hold = s.hold := by
  simp [State.updStream]
@[simp] theorem State.gapSettle_hold (s : State) (n : Nat) (live : Bool) : (State.gapSettle s n live).hold = s.hold := by
  simp [State.gapSettle]
@[simp] theorem State.feedSend_hold (s : State) (n key : Nat) (msg : List Byte) : (State.feedSend s n key msg).hold = s.hold
    := by
  unfold State.feedSend
  (repeat' split) <;> simp
@[simp] theorem State.feedAck_hold (s : State) (n : Nat) (live : Bool) : (State.feedAck s n live).hold = s.hold := by
  simp [State.feedAck]
@[simp] theorem State.feedNak_hold (s : State) (n : Nat) (live : Bool) (reason seq sline : Nat) : (State.feedNak s n live
    reason seq sline).hold = s.hold := by
  simp [State.feedNak]
@[simp] theorem State.pauseSend_hold (s : State) (n quanta : Nat) : (State.pauseSend s n quanta).hold = s.hold := by
  simp [State.pauseSend]
@[simp] theorem State.xoffSettle_hold (s : State) (n : Nat) : (State.xoffSettle s n).hold = s.hold := by
  simp [State.xoffSettle]
@[simp] theorem State.portSettle_hold (s : State) (n : Nat) : (State.portSettle s n).hold = s.hold := by
  unfold State.portSettle
  dsimp only
  (repeat' split) <;> simp
@[simp] theorem State.feedEvict_hold (s : State) (n : Nat) (live : Bool) (a0 : Nat) : (State.feedEvict s n live a0).hold =
    s.hold := by
  induction a0 generalizing s with
  | zero => rfl
  | succ f ih =>
    unfold State.feedEvict
    dsimp only
    split
    · rw [ih, State.incSat_hold, State.updStream_hold]
    · rfl
@[simp] theorem State.feedMakeRoom_hold (s : State) (n : Nat) : (State.feedMakeRoom s n).hold = s.hold := by
  simp [State.feedMakeRoom]
@[simp] theorem State.feedSettle_hold (s : State) : (State.feedSettle s).hold = s.hold := by
  simp [State.feedSettle]
@[simp] theorem State.feedEnable_hold (s : State) (n : Nat) : (State.feedEnable s n).hold = s.hold := by
  simp [State.feedEnable]
@[simp] theorem State.feedReset_hold (s : State) (n : Nat) : (State.feedReset s n).hold = s.hold := by
  simp [State.feedReset]
@[simp] theorem State.feedBad_hold (s : State) (q n : Nat) (r : FeedRec) (code : Nat) : (State.feedBad s q n r code).hold =
    s.hold := by
  simp [State.feedBad]
@[simp] theorem State.feedRaster_hold (s : State) (q : Nat) (m : List Byte) : (State.feedRaster s q m).hold = s.hold := by
  simp [State.feedRaster]
@[simp] theorem State.feedCount_hold (s : State) (n len : Nat) : (State.feedCount s n len).hold = s.hold := by
  simp [State.feedCount]
@[simp] theorem State.pauseEnd_hold (s : State) (n : Nat) : (State.pauseEnd s n).hold = s.hold := by
  simp [State.pauseEnd]
@[simp] theorem State.pauseTake_hold (s : State) (n q : Nat) : (State.pauseTake s n q).hold = s.hold := by
  simp [State.pauseTake]
@[simp] theorem State.dmaHalt_hold (s : State) (c code src addr dir redo : Nat) : (State.dmaHalt s c code src addr dir
    redo).hold = s.hold := by
  simp [State.dmaHalt]
@[simp] theorem State.dmaFetch_hold (s : State) (c a : Nat) : (State.dmaFetch s c a).hold = s.hold := by
  simp [State.dmaFetch]
@[simp] theorem State.dmaReread_hold (s : State) (c : Nat) (parked : Bool) : (State.dmaReread s c parked).hold = s.hold := by
  simp [State.dmaReread]
@[simp] theorem State.dmaRedo_hold (s : State) (c : Nat) : (State.dmaRedo s c).hold = s.hold := by
  simp [State.dmaRedo]
@[simp] theorem State.dmaEnable_hold (s : State) (c : Nat) : (State.dmaEnable s c).hold = s.hold := by
  simp [State.dmaEnable]
@[simp] theorem State.dmaEval_hold (s : State) (c : Nat) : (State.dmaEval s c).hold = s.hold := by
  simp [State.dmaEval]
@[simp] theorem State.wposAdd_hold (s : State) (b n : Nat) : (State.wposAdd s b n).hold = s.hold := by
  simp [State.wposAdd]
@[simp] theorem State.xferAdd_hold (s : State) (c n : Nat) : (State.xferAdd s c n).hold = s.hold := by
  simp [State.xferAdd]
@[simp] theorem State.burstSource_hold (s : State) (c : Nat) (d : Desc) (n : Nat) (host : HostResp) : (State.burstSource s c
    d n host).1.hold = s.hold := by
  simp [State.burstSource]
@[simp] theorem State.queueTake_hold (s : State) (ep n : Nat) : (State.queueTake s ep n).1.hold = s.hold := by
  unfold State.queueTake
  (repeat' split) <;> simp
@[simp] theorem State.dmaBell_hold (s : State) (c : Nat) : (State.dmaBell s c).hold = s.hold := by
  simp [State.dmaBell]
@[simp] theorem dmaDbAct_hold (c v : Nat) (s : State) : (dmaDbAct c v s).hold = s.hold := by
  unfold dmaDbAct
  (repeat' split) <;> simp
@[simp] theorem dmaCmdAct_hold (c v : Nat) (s : State) : (dmaCmdAct c v s).hold = s.hold := by
  simp [dmaCmdAct]
@[simp] theorem State.profRefuse_hold (s : State) : (State.profRefuse s).hold = s.hold := by
  simp [State.profRefuse]
@[simp] theorem State.profTake_hold (s : State) (p arm : Nat) : (State.profTake s p arm).hold = s.hold := by
  unfold State.profTake
  dsimp only
  (repeat' split) <;> simp
@[simp] theorem State.profSelect_hold (s : State) (p : Nat) : (State.profSelect s p).hold = s.hold := by
  simp [State.profSelect]
@[simp] theorem State.profIgnore_hold (s : State) : (State.profIgnore s).hold = s.hold := by
  simp [State.profIgnore]
@[simp] theorem State.reloadStart_hold (s : State) : (State.reloadStart s).hold = s.hold := by
  unfold State.reloadStart
  (repeat' split) <;> simp
@[simp] theorem State.reloadAsk_hold (s : State) (p : Nat) (select : Bool) : (State.reloadAsk s p select).hold = s.hold := by
  simp [State.reloadAsk]
@[simp] theorem State.slotCopy_hold (s : State) (p : Nat) : (State.slotCopy s p).hold = s.hold := by
  simp [State.slotCopy]
@[simp] theorem profCmdAct_hold (v : Nat) (s : State) : (profCmdAct v s).hold = s.hold := by
  simp [profCmdAct]
@[simp] theorem State.profReset_hold (s : State) : (State.profReset s).hold = s.hold := by
  simp [State.profReset]
@[simp] theorem State.breathUpdate_hold (s : State) : (State.breathUpdate s).hold = s.hold := by
  simp [State.breathUpdate]
@[simp] theorem State.pwmStart_hold (s : State) : (State.pwmStart s).hold = s.hold := by
  simp [State.pwmStart]
@[simp] theorem State.breathEnable_hold (s : State) (en : Bool) : (State.breathEnable s en).hold = s.hold := by
  simp [State.breathEnable]
@[simp] theorem State.pairEnable_hold (s : State) (en : Bool) : (State.pairEnable s en).hold = s.hold := by
  simp [State.pairEnable]
@[simp] theorem State.ackGap_hold (s : State) : (State.ackGap s).hold = s.hold := by
  unfold State.ackGap
  (repeat' split) <;> simp
@[simp] theorem State.ackTake_hold (s : State) (m : Nat) : (State.ackTake s m).hold = s.hold := by
  simp [State.ackTake]
@[simp] theorem State.msgNote_hold (s : State) (m : Nat) : (State.msgNote s m).hold = s.hold := by
  simp [State.msgNote]
@[simp] theorem State.joinSend_hold (s : State) : (State.joinSend s).hold = s.hold := by
  simp [State.joinSend]
@[simp] theorem State.joinLater_hold (s : State) : (State.joinLater s).hold = s.hold := by
  simp [State.joinLater]
@[simp] theorem State.joinNote_hold (s : State) : (State.joinNote s).hold = s.hold := by
  simp [State.joinNote]
@[simp] theorem State.rephase_hold (s : State) : (State.rephase s).hold = s.hold := by
  unfold State.rephase
  rw [State.tickFresh_hold]
  exact State.hold_phi _ _
@[simp] theorem pairCmdAct_hold (v : Nat) (s : State) : (pairCmdAct v s).hold = s.hold := by
  simp [pairCmdAct]
@[simp] theorem State.chantRead_hold (s : State) (a n : Nat) : (State.chantRead s a n).1.hold = s.hold := by
  unfold State.chantRead
  dsimp only
  (repeat' split) <;> simp
@[simp] theorem State.slotU_hold (s : State) (k j i c : Nat) : (State.slotU s k j i c).1.hold = s.hold := by
  simp [State.slotU]
@[simp] theorem State.updTier_hold (s : State) (t : Tier) (g : TierSt → TierSt) : (State.updTier s t g).hold = s.hold := by
  unfold State.updTier
  (repeat' split) <;> simp
@[simp] theorem State.chantWork_hold (s : State) (g : State → State) (h : (g s).hold = s.hold) : (s.chantWork g).hold =
    s.hold := State.pageWork_hold s pCHANT g h
@[simp] theorem State.sumsOf_hold (s : State) (t : Tier) (bank n : Nat) : (State.sumsOf s t bank n).1.hold = s.hold := by
  cases t <;> dsimp only [State.sumsOf]
  · rw [State.chantRead_hold]
  all_goals
    split
    · rw [State.dramRead_hold]
    · rw [State.hold_chant, State.dramRead_hold]
@[simp] theorem State.peerCamSeen_hold (s : State) : (State.peerCamSeen s).hold = s.hold := by
  simp [State.peerCamSeen]
@[simp] theorem State.cycleStart_hold (s : State) : (State.cycleStart s).hold = s.hold := by
  simp [State.cycleStart]
@[simp] theorem State.cycleSettle_hold (s : State) : (State.cycleSettle s).hold = s.hold := by
  simp [State.cycleSettle]
@[simp] theorem State.cycleFire_hold (s : State) : (State.cycleFire s).hold = s.hold := by
  simp [State.cycleFire]
@[simp] theorem State.tiersClear_hold (s : State) : (State.tiersClear s).hold = s.hold := by
  simp [State.tiersClear]
@[simp] theorem State.calOutput_hold (s : State) (kind : Nat) (r : List Byte) : (State.calOutput s kind r).hold = s.hold :=
    by
  unfold State.calOutput
  dsimp only
  rw [State.pageWork_hold]
  simp
@[simp] theorem State.calSend_hold (s : State) (r : List Byte) : (State.calSend s r).hold = s.hold := by
  simp [State.calSend]
@[simp] theorem State.calEnd_hold (s : State) (result : Nat) : (State.calEnd s result).hold = s.hold := by
  simp [State.calEnd]
@[simp] theorem State.calReject_hold (s : State) (result : Nat) : (State.calReject s result).hold = s.hold := by
  unfold State.calReject
  rw [State.pageWork_hold]
  simp
@[simp] theorem State.calCounts_hold (s : State) (disag n : Nat) : (State.calCounts s disag n).hold = s.hold := by
  simp [State.calCounts]
@[simp] theorem State.lanesAsk_hold (s : State) : (State.lanesAsk s).hold = s.hold := by
  simp [State.lanesAsk]
@[simp] theorem State.runBegin_hold (s : State) (step : Nat) : (State.runBegin s step).hold = s.hold := by
  unfold State.runBegin
  dsimp only
  (repeat' split) <;> simp
@[simp] theorem State.flatFrame_hold (s : State) (c : Nat) (sum : List Nat) (n : Nat) : (State.flatFrame s c sum n).hold =
    s.hold := by
  simp [State.flatFrame]
@[simp] theorem State.laneScanned_hold (s : State) (l phase thr : Nat) : (State.laneScanned s l phase thr).hold = s.hold :=
    by
  simp [State.laneScanned]
@[simp] theorem State.camRead_hold (s : State) (c a n : Nat) : (State.camRead s c a n).1.hold = s.hold := by
  unfold State.camRead
  dsimp only
  (repeat' split) <;> simp
@[simp] theorem State.statPut_hold (s : State) (c : Nat) (r : List Byte) : (State.statPut s c r).hold = s.hold := by
  simp [State.statPut]
@[simp] theorem State.frameOpen_hold (s : State) (c : Nat) (fseq gen t : Nat) (untrig : Bool) : (State.frameOpen s c fseq
    gen t untrig).hold = s.hold := by
  simp [State.frameOpen]
@[simp] theorem State.frameEvent_hold (s : State) (c : Nat) : (State.frameEvent s c).hold = s.hold := by
  simp [State.frameEvent]
@[simp] theorem State.trig1Fire_hold (s : State) (c : Nat) : (State.trig1Fire s c).hold = s.hold := by
  simp [State.trig1Fire]
@[simp] theorem State.takeStamp_hold (s : State) (c : Nat) : (State.takeStamp s c).1.hold = s.hold := by
  unfold State.takeStamp
  dsimp only
  (repeat' split) <;> simp
@[simp] theorem State.camcEnable_hold (s : State) : (State.camcEnable s).hold = s.hold := by
  simp [State.camcEnable]
@[simp] theorem State.captureDone_hold (s : State) (rho : List Nat) : (State.captureDone s rho).hold = s.hold := by
  unfold State.captureDone
  exact (State.cause_hold _ _ _).trans (State.hold_calst _ _)
@[simp] theorem State.trimSend_hold (s : State) (b line : Nat) (arm dot : Bool) (deltas : List Int) : (State.trimSend s b
    line arm dot deltas).hold = s.hold := by
  simp [State.trimSend]
@[simp] theorem State.trimArm_hold (s : State) (b line : Nat) : (State.trimArm s b line).1.hold = s.hold := by
  simp [State.trimArm]
@[simp] theorem State.deferCount_hold (s : State) : (State.deferCount s).hold = s.hold := by
  simp [State.deferCount]
@[simp] theorem State.cycleArm_hold (s : State) (b line : Nat) (armed : Bool) : (State.cycleArm s b line armed).hold =
    s.hold := by
  simp [State.cycleArm]
@[simp] theorem State.cycleServed_hold (s : State) (b : Nat) : (State.cycleServed s b).hold = s.hold := by
  unfold State.cycleServed
  exact (State.cycleSettle_hold _).trans ((State.hold_chant _ _).trans (State.tickFresh_hold _))
@[simp] theorem State.calGo_hold (s : State) (kind : Nat) : (State.calGo s kind).hold = s.hold := by
  simp [State.calGo]
@[simp] theorem calCmdAct_hold (v : Nat) (s : State) : (calCmdAct v s).hold = s.hold := by
  simp [calCmdAct]
@[simp] theorem State.calReset_hold (s : State) : (State.calReset s).hold = s.hold := by
  simp [State.calReset]
@[simp] theorem State.buildMaps_hold (s : State) : (State.buildMaps s).hold = s.hold := by
  simp [State.buildMaps]
@[simp] theorem State.showGeometry_hold (s : State) : (State.showGeometry s).hold = s.hold := by
  simp [State.showGeometry]
@[simp] theorem dramcCfgAct_hold (v : Nat) (s : State) : (dramcCfgAct v s).hold = s.hold := by
  simp [dramcCfgAct]
@[simp] theorem dramMigAct_hold (c v : Nat) (s : State) : (dramMigAct c v s).hold = s.hold := by
  simp [dramMigAct]
@[simp] theorem State.migSwitch_hold (s : State) (c lr f p : Nat) : (State.migSwitch s c lr f p).hold = s.hold := by
  simp [State.migSwitch]
@[simp] theorem State.scrubEnd_hold (s : State) (result : Nat) : (State.scrubEnd s result).hold = s.hold := by
  simp [State.scrubEnd]
@[simp] theorem State.scrubDone_hold (s : State) : (State.scrubDone s).hold = s.hold := by
  simp [State.scrubDone]
@[simp] theorem State.scrubStart_hold (s : State) : (State.scrubStart s).hold = s.hold := by
  unfold State.scrubStart
  dsimp only
  (repeat' split) <;> simp
@[simp] theorem scrubCtrlAct_hold (v : Nat) (s : State) : (scrubCtrlAct v s).hold = s.hold := by
  simp [scrubCtrlAct]
@[simp] theorem State.scrubUnc_hold (s : State) (a : Nat) : (State.scrubUnc s a).hold = s.hold := by
  simp [State.scrubUnc]
@[simp] theorem State.bootStat_hold (s : State) : (State.bootStat s).hold = s.hold := by
  simp [State.bootStat]
@[simp] theorem State.setStep_hold (s : State) (i v : Nat) : (State.setStep s i v).hold = s.hold := by
  simp [State.setStep]
@[simp] theorem State.tryStep_hold (s : State) (i : Nat) : (State.tryStep s i).hold = s.hold := by
  simp [State.tryStep]
@[simp] theorem State.backOff_hold (s : State) (key : Nat) : (State.backOff s key).hold = s.hold := by
  simp [State.backOff]
@[simp] theorem State.backOk_hold (s : State) (key : Nat) : (State.backOk s key).hold = s.hold := by
  simp [State.backOk]
@[simp] theorem State.bootErr_hold (s : State) (code step addr : Nat) : (State.bootErr s code step addr).hold = s.hold := by
  simp [State.bootErr]
@[simp] theorem State.searchStart_hold (s : State) (l : Nat) (boot : Bool) : (State.searchStart s l boot).hold = s.hold := by
  simp [State.searchStart]
@[simp] theorem State.laneBringUp_hold (s : State) (l : Nat) : (State.laneBringUp s l).hold = s.hold := by
  simp [State.laneBringUp]
@[simp] theorem State.lanesJudge_hold (s : State) (i : Nat) : (State.lanesJudge s i).hold = s.hold := by
  simp [State.lanesJudge]
@[simp] theorem State.bootSearchEnd_hold (s : State) (l : Nat) (ok : Bool) : (State.bootSearchEnd s l ok).hold = s.hold := by
  simp [State.bootSearchEnd]
@[simp] theorem State.laneRetry_hold (s : State) (l : Nat) : (State.laneRetry s l).hold = s.hold := by
  simp [State.laneRetry]
@[simp] theorem State.channelFail_hold (s : State) (c : Nat) : (State.channelFail s c).hold = s.hold := by
  simp [State.channelFail]
@[simp] theorem State.laneAfter_hold (s t : State) (l code : Nat) : (State.laneAfter s t l code).hold = t.hold := by
  simp [State.laneAfter]
@[simp] theorem State.laneLock_hold (s : State) (l : Nat) : (State.laneLock s l).hold = s.hold := by
  simp [State.laneLock]
@[simp] theorem State.laneSlip_hold (s : State) (l n : Nat) : (State.laneSlip s l n).hold = s.hold := by
  simp [State.laneSlip]
@[simp] theorem laneCmdAct_hold (l v : Nat) (s : State) : (laneCmdAct l v s).hold = s.hold := by
  simp [laneCmdAct]
@[simp] theorem State.searchSlip_hold (s : State) (n steps : Nat) : (State.searchSlip s n steps).hold = s.hold := by
  simp [State.searchSlip]
@[simp] theorem State.searchOver_hold (s : State) (n : Nat) (ok : Bool) : (State.searchOver s n ok).hold = s.hold := by
  simp [State.searchOver]
@[simp] theorem State.searchLeave_hold (s : State) (n : Nat) : (State.searchLeave s n).hold = s.hold := by
  simp [State.searchLeave]
@[simp] theorem State.prbsCount_hold (s : State) (l : Nat) : (State.prbsCount s l).hold = s.hold := by
  simp [State.prbsCount]
@[simp] theorem State.prbsStop_hold (s : State) (l : Nat) : (State.prbsStop s l).hold = s.hold := by
  simp [State.prbsStop]
@[simp] theorem lanePrbsAct_hold (l v : Nat) (s : State) : (lanePrbsAct l v s).hold = s.hold := by
  simp [lanePrbsAct]
@[simp] theorem laneCtrlAct_hold (l v : Nat) (s : State) : (laneCtrlAct l v s).hold = s.hold := by
  simp [laneCtrlAct]
@[simp] theorem State.stepBegin_hold (s : State) (i : Nat) : (State.stepBegin s i).hold = s.hold := by
  simp [State.stepBegin]
@[simp] theorem State.stepFail_hold (s : State) (i code addr : Nat) : (State.stepFail s i code addr).hold = s.hold := by
  simp [State.stepFail]
@[simp] theorem State.stepDone_hold (s : State) (i : Nat) : (State.stepDone s i).hold = s.hold := by
  simp [State.stepDone]
@[simp] theorem State.relock_hold (s : State) : (State.relock s).hold = s.hold := by
  simp [State.relock]
@[simp] theorem State.bringUp_hold (s : State) (ls : List Nat) : (State.bringUp s ls).hold = s.hold := by
  simp [State.bringUp]
@[simp] theorem State.retryBegin_hold (s : State) (key : Nat) : (State.retryBegin s key).hold = s.hold := by
  simp [State.retryBegin]
@[simp] theorem bootCmdAct_hold (v : Nat) (s : State) : (bootCmdAct v s).hold = s.hold := by
  simp [bootCmdAct]
@[simp] theorem bootFlAct_hold (v : Nat) (s : State) : (bootFlAct v s).hold = s.hold := by
  simp [bootFlAct]
@[simp] theorem State.flashGo_hold (s : State) (op : Nat) : (State.flashGo s op).hold = s.hold := by
  simp [State.flashGo]
@[simp] theorem State.setC_hold (s : State) (v : Int) : (State.setC s v).hold = s.hold := by
  simp [State.setC]
@[simp] theorem State.snapshot_hold (s : State) (sw : Bool) (vec : Nat) : (State.snapshot s sw vec).hold = s.hold := by
  simp [State.snapshot]
@[simp] theorem State.tickC_hold (s : State) : (State.tickC s).hold = s.hold := by
  simp [State.tickC]
@[simp] theorem timeCmdAct_hold (v : Nat) (s : State) : (timeCmdAct v s).hold = s.hold := by
  simp [timeCmdAct]
@[simp] theorem State.cmpSet_hold (s : State) (k target : Nat) : (State.cmpSet s k target).hold = s.hold := by
  simp [State.cmpSet]
@[simp] theorem State.cmpClear_hold (s : State) (k : Nat) : (State.cmpClear s k).hold = s.hold := by
  simp [State.cmpClear]
@[simp] theorem State.cmpEvent_hold (s : State) (owner : Nat) : (State.cmpEvent s owner).hold = s.hold := by
  unfold State.cmpEvent
  (repeat' split) <;> simp
@[simp] theorem State.cmpFire_hold (s : State) (n : Nat) : (State.cmpFire s n).hold = s.hold := by
  simp [State.cmpFire]
@[simp] theorem timeArmAct_hold (k v : Nat) (s : State) : (timeArmAct k v s).hold = s.hold := by
  simp [timeArmAct]
@[simp] theorem timeCtrlAct_hold (k v : Nat) (s : State) : (timeCtrlAct k v s).hold = s.hold := by
  simp [timeCtrlAct]
@[simp] theorem State.timeReset_hold (s : State) : (State.timeReset s).hold = s.hold := by
  simp [State.timeReset]
@[simp] theorem State.msixSend_hold (s : State) (v : Nat) : (State.msixSend s v).hold = s.hold := by
  simp [State.msixSend]
@[simp] theorem State.setLink_hold (s : State) (up : Bool) : (State.setLink s up).hold = s.hold := by
  simp [State.setLink]
@[simp] theorem State.cfgRead_hold (s : State) (r : CfgReg) : (State.cfgRead s r).hold = s.hold := by
  simp [State.cfgRead]
@[simp] theorem State.cfgWrite_hold (s : State) (r : CfgReg) (v be : Nat) : (State.cfgWrite s r v be).hold = s.hold := by
  unfold State.cfgWrite
  (repeat' split) <;> simp
@[simp] theorem State.soloReset_hold (s : State) : (State.soloReset s).hold = s.hold := by
  simp [State.soloReset]
@[simp] theorem State.softRegs_hold (s : State) (p : Nat) (b : Blk) (i : Nat) : (State.softRegs s p b i).hold = s.hold := by
  simp [State.softRegs]
@[simp] theorem State.discardLines_hold (s : State) (b : Blk) (i : Nat) : (State.discardLines s b i).hold = s.hold := by
  simp [State.discardLines]
@[simp] theorem State.laneReset_hold (s : State) (l : Nat) (release : Bool) : (State.laneReset s l release).hold = s.hold :=
    by
  simp [State.laneReset]
@[simp] theorem State.chantEnable_hold (s : State) : (State.chantEnable s).hold = s.hold := by
  simp [State.chantEnable]
@[simp] theorem State.searchCut_hold (s : State) (l : Nat) : (State.searchCut s l).hold = s.hold := by
  simp [State.searchCut]
@[simp] theorem irqRawAct_hold (p v : Nat) (s : State) : (irqRawAct p v s).hold = s.hold := by
  simp [irqRawAct]
@[simp] theorem irqEnAct_hold (p v : Nat) (s : State) : (irqEnAct p v s).hold = s.hold := by
  unfold irqEnAct
  (repeat' split) <;> simp
@[simp] theorem shadowAct_hold (p v : Nat) (s : State) : (shadowAct p v s).hold = s.hold := by
  simp [shadowAct]
@[simp] theorem lockAct_hold (p v : Nat) (s : State) : (lockAct p v s).hold = s.hold := by
  simp [lockAct]
@[simp] theorem State.violClear_hold (s : State) : (State.violClear s).hold = s.hold := by
  simp [State.violClear]
@[simp] theorem State.conflictClear_hold (s : State) : (State.conflictClear s).hold = s.hold := by
  simp [State.conflictClear]
@[simp] theorem violCtrlAct_hold (v : Nat) (s : State) : (violCtrlAct v s).hold = s.hold := by
  simp [violCtrlAct]
@[simp] theorem State.laneDark_hold (s : State) (l : Nat) : (State.laneDark s l).hold = s.hold := by
  simp [State.laneDark]
@[simp] theorem State.framesCut_hold (s : State) : (State.framesCut s).hold = s.hold := by
  simp [State.framesCut]
@[simp] theorem State.shutLinks_hold (s : State) : (State.shutLinks s).hold = s.hold := by
  unfold State.shutLinks
  rw [State.framesCut_hold]
  generalize ownLanes = ls
  exact State.each_hold _ _ _ fun t l => State.laneDark_hold t l
@[simp] theorem State.shutForget_hold (s : State) : (State.shutForget s).hold = s.hold := by
  unfold State.shutForget
  exact State.each_hold s _ _ fun t c => State.updDram_hold _ _ _
@[simp] theorem camTrigAct_hold (c v : Nat) (s : State) : (camTrigAct c v s).hold = s.hold := by
  simp [camTrigAct]
@[simp] theorem chantCtrlAct_hold (v : Nat) (s : State) : (chantCtrlAct v s).hold = s.hold := by
  simp [chantCtrlAct]
@[simp] theorem pipeCtrlAct_hold (b v : Nat) (s : State) : (pipeCtrlAct b v s).hold = s.hold := by
  simp [pipeCtrlAct]
@[simp] theorem State.readReg_hold (s : State) (p off : Nat) : (State.readReg s p off).1.hold = s.hold := by
  unfold State.readReg
  (repeat' split) <;> simp
@[simp] theorem State.apertureRead_hold (s : State) (a n : Nat) : (State.apertureRead s a n).1.hold = s.hold := by
  simp [State.apertureRead]
@[simp] theorem State.bar0Read_hold (s : State) (off : Nat) : (State.bar0Read s off).1.hold = s.hold := by
  unfold State.bar0Read
  (repeat' split) <;> simp
@[simp] theorem State.causeKept_hold (s : State) (p reason : Nat) : (State.causeKept s p reason).hold = s.hold := by
  unfold State.causeKept
  try dsimp only
  simp
@[simp] theorem State.fenceJoin_hold (s : State) (p reason src lo hi : Nat) (count : Bool) : (State.fenceJoin s p reason src
    lo hi count).hold = s.hold := by
  unfold State.fenceJoin
  try dsimp only
  (repeat' split) <;> simp
@[simp] theorem State.setStaged_hold (s : State) (b : Nat) (live : Bool) (x : Option Staged) : (State.setStaged s b live
    x).hold = s.hold := by
  unfold State.setStaged
  try dsimp only
  simp
@[simp] theorem State.xferStart_hold (s : State) (n : Nat) : (State.xferStart s n).hold = s.hold := by
  unfold State.xferStart
  try dsimp only
  simp
@[simp] theorem State.ctlAcks_hold (s : State) : (State.ctlAcks s).hold = s.hold := by
  unfold State.ctlAcks
  try dsimp only
  simp
@[simp] theorem State.readNote_hold (s : State) (c : Nat) : (State.readNote s c).hold = s.hold := by
  unfold State.readNote
  try dsimp only
  (repeat' split) <;> simp
@[simp] theorem State.dmaGo_hold (s : State) (c : Nat) : (State.dmaGo s c).hold = s.hold := by
  unfold State.dmaGo
  try dsimp only
  simp
@[simp] theorem State.peerStops_hold (s : State) (b line : Nat) : (State.peerStops s b line).hold = s.hold := by
  unfold State.peerStops
  try dsimp only
  (repeat' split) <;> simp
@[simp] theorem State.flushNext_hold (s : State) (c : Nat) : (State.flushNext s c).hold = s.hold := by
  unfold State.flushNext
  try dsimp only
  (repeat' split) <;> simp
@[simp] theorem State.keepCmd_hold (s : State) (c : Nat) (x : RetryCmd) : (State.keepCmd s c x).hold = s.hold := by
  unfold State.keepCmd
  try dsimp only
  simp
@[simp] theorem State.refreshIssue_hold (s : State) (c rank n : Nat) : (State.refreshIssue s c rank n).hold = s.hold := by
  unfold State.refreshIssue
  try dsimp only
  simp
@[simp] theorem State.dramBegin_hold (s : State) (take : Nat) : (State.dramBegin s take).hold = s.hold := by
  unfold State.dramBegin
  try dsimp only
  (repeat' split) <;> simp
@[simp] theorem timeLoAct_hold (k v : Nat) (s : State) : (timeLoAct k v s).hold = s.hold := by
  unfold timeLoAct
  try dsimp only
  simp
@[simp] theorem State.laneFault_hold (s : State) (n : Nat) (reasons : List Nat) : (State.laneFault s n reasons).hold =
    s.hold := by
  unfold State.laneFault
  try dsimp only
  (repeat' split) <;> simp

end Sys2Proof.Machine
end

