-- ==== Sys2Proof/Laws/Keeps.lean ====
section
/-! SUPPORT. The operations that write a memory: each leaves the queue as it is and keeps the four memories canonical. -/

namespace Sys2Proof.Machine

set_option linter.unusedTactic false
set_option linter.unreachableTactic false
set_option linter.unusedVariables false

/-- The cells of the four memories are canonical. -/
def holdOk (h : List Instr × List Host.Cell × List Host.Cell × List Host.Cell × List Host.Cell) : Prop :=
  Memory.wf h.2.1 = true ∧ Memory.wf h.2.2.1 = true ∧ Memory.wf h.2.2.2.1 = true ∧ Memory.wf h.2.2.2.2 = true ∧
    ∀ e ∈ h.2.2.2.2, e.2 ≠ 0xFF
/-- The queue stands, and canonical memories stay canonical. -/
def keeps (a b : List Instr × List Host.Cell × List Host.Cell × List Host.Cell × List Host.Cell) : Prop :=
  b.1 = a.1 ∧ (holdOk a → holdOk b)
theorem State.memSound_iff (s : State) : s.memSound ↔ holdOk s.hold := Iff.rfl
theorem keeps_refl (a) : keeps a a := ⟨rfl, id⟩
theorem keeps_trans {a b c} (h : keeps a b) (k : keeps b c) : keeps a c := ⟨k.1.trans h.1, k.2 ∘ h.2⟩
theorem keeps_of_eq {a b} (h : b = a) : keeps a b := h ▸ keeps_refl a
theorem keeps_ite {a} (c : Prop) [Decidable c] {x y} (h : keeps a x) (k : keeps a y) : keeps a (if c then x else y) := by
  split <;> assumption
theorem keeps_foldl {α : Type} (l : List α) (g : State → α → State) (s : State) (h : ∀ s x, keeps s.hold (g s x).hold) :
    keeps s.hold (l.foldl g s).hold := by
  induction l generalizing s with
  | nil => exact keeps_refl _
  | cons x r ih => exact keeps_trans (h s x) (ih _)
theorem keeps_foldl1 {α β : Type} (l : List α) (g : State × β → α → State × β) (r : State × β)
    (h : ∀ r x, keeps r.1.hold (g r x).1.hold) : keeps r.1.hold (l.foldl g r).1.hold := by
  induction l generalizing r with
  | nil => exact keeps_refl _
  | cons x t ih => exact keeps_trans (h r x) (ih _)
theorem keeps_each (s : State) (l : List Nat) (g : State → Nat → State) (h : ∀ s x, keeps s.hold (g s x).hold) :
    keeps s.hold (s.each l g).hold := keeps_foldl l g s h
theorem keeps_then_foldl {α : Type} {a} (l : List α) (g : State → α → State) (s : State)
    (h : ∀ s x, keeps s.hold (g s x).hold) (k : keeps a s.hold) : keeps a (l.foldl g s).hold :=
  keeps_trans k (keeps_foldl l g s h)
theorem keeps_then_foldl1 {α β : Type} {a} (l : List α) (g : State × β → α → State × β) (r : State × β)
    (h : ∀ r x, keeps r.1.hold (g r x).1.hold) (k : keeps a r.1.hold) : keeps a (l.foldl g r).1.hold :=
  keeps_trans k (keeps_foldl1 l g r h)
theorem keeps_then_each {a} (s : State) (l : List Nat) (g : State → Nat → State) (h : ∀ s x, keeps s.hold (g s x).hold)
    (k : keeps a s.hold) : keeps a (s.each l g).hold := keeps_trans k (keeps_each s l g h)
theorem keeps_then_applyAt {a} (s : State) (p : Nat) (g : State → Nat → State) (h : ∀ s x, keeps s.hold (g s x).hold)
    (k : keeps a s.hold) : keeps a (s.applyAt p g).hold := by
  unfold State.applyAt
  split
  · exact keeps_trans k (h s p)
  · exact k
theorem keeps_applyAt (s : State) (p : Nat) (g : State → Nat → State) (h : ∀ s x, keeps s.hold (g s x).hold) :
    keeps s.hold (s.applyAt p g).hold := by
  unfold State.applyAt
  split
  · exact h s p
  · exact keeps_refl _
/-- Work of a block that goes on while its page is fenced keeps what it is made of keeps. -/
theorem keeps_pageWork {a} (s : State) (p : Nat) (g : State → State) (h : keeps s.hold (g s).hold) (k : keeps a s.hold) :
    keeps a (s.pageWork p g).hold := by
  unfold State.pageWork
  split
  · exact keeps_trans k h
  · exact keeps_trans k h
/-- Chanter's work keeps what it is made of keeps. -/
theorem keeps_chantWork {a} (s : State) (g : State → State) (h : keeps s.hold (g s).hold) (k : keeps a s.hold) :
    keeps a (s.chantWork g).hold := keeps_pageWork s pCHANT g h k
theorem keeps_writeWith (s : State) (p off v : Nat) (act : State → State) (be : Nat) (h : ∀ s, keeps s.hold (act s).hold) :
    keeps s.hold (s.writeWith p off v act be).hold := by
  unfold State.writeWith
  split
  · exact keeps_refl _
  · dsimp only
    split <;> split <;> (try rw [State.violate_hold]) <;> first | with_reducible exact keeps_refl _ | exact h s

/-! ### The operations themselves -/

theorem keeps_crookMsg (s : State) (hd : CrookHdr) (g : State → State) (h : ∀ s, keeps s.hold (g s).hold) :
    keeps s.hold (s.crookMsg hd g).hold := by
  unfold State.crookMsg
  split
  · exact keeps_refl _
  · dsimp only
    split
    · exact keeps_of_eq (by simp)
    · exact keeps_trans (keeps_of_eq (by simp)) (h _)


theorem State.lsWrite_keeps (s : State) (a : Nat) (l : List Byte) : keeps s.hold (s.lsWrite a l).hold :=
  ⟨rfl, fun h => ⟨Memory.wf_puts _ _ _ h.1, h.2⟩⟩
theorem State.lsWriteOpt_keeps (s : State) (a : Nat) (l : List (Option Byte)) : keeps s.hold (s.lsWriteOpt a l).hold := by
  induction l generalizing s a with
  | nil => exact keeps_refl _
  | cons o r ih =>
    cases o with
    | none => exact ih s (a + 1)
    | some b => exact keeps_trans (s.lsWrite_keeps a [b]) (ih _ (a + 1))
theorem State.lsRingWrite_keeps (s : State) (a size i : Nat) (l : List Byte) : keeps s.hold (State.lsRingWrite s a size i
    l).hold := by
  unfold State.lsRingWrite
  try dsimp only
  repeat' split
  all_goals repeat' first
    | with_reducible exact keeps_refl _
    | with_reducible apply fun h => keeps_trans h (State.lsWrite_keeps _ _ _)
    | with_reducible apply keeps_ite
    | intro _ _
    | simp
    | split
theorem State.stageIn_keeps (s : State) (n i : Nat) (l : List Byte) : keeps s.hold (State.stageIn s n i l).hold := by
  unfold State.stageIn
  try dsimp only
  repeat' split
  all_goals repeat' first
    | with_reducible exact keeps_refl _
    | with_reducible apply fun h => keeps_trans h (State.lsRingWrite_keeps _ _ _ _ _)
    | with_reducible apply keeps_ite
    | intro _ _
    | simp
    | split
theorem State.storeBurst_keeps (s : State) (c p o : Nat) (d : List Byte) (chk : List Nat) :
    keeps s.hold (s.storeBurst c p o d chk).hold :=
  ⟨rfl, fun h => ⟨h.1, Memory.wf_puts _ _ _ h.2.1, Memory.wf_puts _ _ _ h.2.2.1, h.2.2.2⟩⟩
theorem State.burstWrite_keeps (s : State) (a : Nat) (d : List Byte) (req : Nat) : keeps s.hold (State.burstWrite s a d
    req).hold := by
  unfold State.burstWrite
  try dsimp only
  repeat' split
  all_goals repeat' first
    | with_reducible exact keeps_refl _
    | with_reducible apply fun h => keeps_trans h (State.storeBurst_keeps _ _ _ _ _ _)
    | with_reducible apply keeps_ite
    | intro _ _
    | simp
    | split
theorem State.burstMerge_keeps (s : State) (a : Nat) (d : List (Option Byte)) (req : Nat) : keeps s.hold (State.burstMerge s
    a d req).hold := by
  unfold State.burstMerge
  try dsimp only
  repeat' split
  all_goals repeat' first
    | with_reducible exact keeps_refl _
    | with_reducible apply fun h => keeps_trans h (State.burstWrite_keeps _ _ _ _)
    | with_reducible apply keeps_ite
    | intro _ _
    | simp
    | split
theorem State.dramWriteOpt_keeps (s : State) (a : Nat) (d : List (Option Byte)) (req : Nat) : keeps s.hold
    (State.dramWriteOpt s a d req).hold := by
  unfold State.dramWriteOpt
  try dsimp only
  repeat' split
  all_goals repeat' first
    | with_reducible exact keeps_refl _
    | with_reducible apply fun h => keeps_trans h (State.burstMerge_keeps _ _ _ _)
    | with_reducible apply keeps_ite
    | with_reducible apply keeps_then_each
    | with_reducible apply keeps_then_foldl
    | with_reducible apply keeps_then_foldl1
    | with_reducible apply keeps_then_applyAt
    | intro _ _
    | simp
    | split
theorem State.dramWrite_keeps (s : State) (a : Nat) (d : List Byte) (req : Nat) : keeps s.hold (State.dramWrite s a d
    req).hold := by
  unfold State.dramWrite
  try dsimp only
  repeat' split
  all_goals repeat' first
    | with_reducible exact keeps_refl _
    | with_reducible apply fun h => keeps_trans h (State.dramWriteOpt_keeps _ _ _ _)
    | with_reducible apply keeps_ite
    | intro _ _
    | simp
    | split
theorem State.reqServe_keeps (s : State) (r : DramReq) : keeps s.hold (State.reqServe s r).hold := by
  unfold State.reqServe
  try dsimp only
  repeat' split
  all_goals repeat' first
    | with_reducible exact keeps_refl _
    | with_reducible apply fun h => keeps_trans h (State.dramWriteOpt_keeps _ _ _ _)
    | with_reducible apply keeps_ite
    | intro _ _
    | simp
    | split
theorem State.dramAsk_keeps (s : State) (r : DramReq) : keeps s.hold (State.dramAsk s r).hold := by
  unfold State.dramAsk
  try dsimp only
  repeat' split
  all_goals repeat' first
    | with_reducible exact keeps_refl _
    | with_reducible apply fun h => keeps_trans h (State.reqServe_keeps _ _)
    | with_reducible apply keeps_ite
    | intro _ _
    | simp
    | split
theorem State.dramPut_keeps (s : State) (a : Nat) (d : List Byte) (req : Nat) : keeps s.hold (State.dramPut s a d req).hold
    := by
  unfold State.dramPut
  try dsimp only
  repeat' split
  all_goals repeat' first
    | with_reducible exact keeps_refl _
    | with_reducible apply fun h => keeps_trans h (State.dramAsk_keeps _ _)
    | with_reducible apply keeps_ite
    | intro _ _
    | simp
    | split
theorem State.dramDrain_keeps (s : State) : keeps s.hold (State.dramDrain s).hold := by
  unfold State.dramDrain
  try dsimp only
  repeat' split
  all_goals repeat' first
    | with_reducible exact keeps_refl _
    | with_reducible apply fun h => keeps_trans h (State.dramAsk_keeps _ _)
    | with_reducible apply keeps_ite
    | with_reducible apply keeps_then_each
    | with_reducible apply keeps_then_foldl
    | with_reducible apply keeps_then_foldl1
    | with_reducible apply keeps_then_applyAt
    | intro _ _
    | simp
    | split
theorem State.putRecord_keeps (s : State) (r : List Byte) : keeps s.hold (State.putRecord s r).hold := by
  unfold State.putRecord
  try dsimp only
  repeat' split
  all_goals repeat' first
    | with_reducible exact keeps_refl _
    | with_reducible apply fun h => keeps_trans h (State.dramPut_keeps _ _ _ _)
    | with_reducible apply keeps_ite
    | intro _ _
    | simp
    | split
theorem State.closeRun_keeps (s : State) (b code tile : Nat) (contNext : Bool) : keeps s.hold (State.closeRun s b code tile
    contNext).hold := by
  unfold State.closeRun
  try dsimp only
  repeat' split
  all_goals repeat' first
    | with_reducible exact keeps_refl _
    | with_reducible apply fun h => keeps_trans h (State.putRecord_keeps _ _)
    | with_reducible apply keeps_ite
    | intro _ _
    | simp
    | split
theorem State.runLine_keeps (s : State) (b code tile : Nat) (aff : Bool) (segs : Nat) (x : JobLine) : keeps s.hold
    (State.runLine s b code tile aff segs x).hold := by
  unfold State.runLine
  try dsimp only
  repeat' split
  all_goals repeat' first
    | with_reducible exact keeps_refl _
    | with_reducible apply fun h => keeps_trans h (State.closeRun_keeps _ _ _ _ _)
    | with_reducible apply keeps_ite
    | intro _ _
    | simp
    | split
theorem State.barRuns_keeps (s : State) (b : Nat) (undr : Bool) (errs : List (Nat × Nat)) (x : JobLine) : keeps s.hold
    (State.barRuns s b undr errs x).hold := by
  unfold State.barRuns
  try dsimp only
  repeat' split
  all_goals repeat' first
    | with_reducible exact keeps_refl _
    | with_reducible apply fun h => keeps_trans h (State.runLine_keeps _ _ _ _ _ _ _)
    | with_reducible apply keeps_ite
    | with_reducible apply keeps_then_each
    | with_reducible apply keeps_then_foldl
    | with_reducible apply keeps_then_foldl1
    | with_reducible apply keeps_then_applyAt
    | intro _ _
    | simp
    | split
theorem State.tileRuns_keeps (s : State) (b t : Nat) (lost : Option Nat) : keeps s.hold (State.tileRuns s b t lost).hold :=
    by
  unfold State.tileRuns
  try dsimp only
  repeat' split
  all_goals repeat' first
    | with_reducible exact keeps_refl _
    | with_reducible apply fun h => keeps_trans h (State.runLine_keeps _ _ _ _ _ _ _)
    | with_reducible apply keeps_ite
    | with_reducible apply keeps_then_each
    | with_reducible apply keeps_then_foldl
    | with_reducible apply keeps_then_foldl1
    | with_reducible apply keeps_then_applyAt
    | intro _ _
    | simp
    | split
theorem State.jobLate_keeps (s : State) (b : Nat) (j : Job) : keeps s.hold (State.jobLate s b j).hold := by
  unfold State.jobLate
  try dsimp only
  repeat' split
  all_goals repeat' first
    | with_reducible exact keeps_refl _
    | with_reducible apply fun h => keeps_trans h (State.closeRun_keeps _ _ _ _ _)
    | with_reducible apply keeps_ite
    | intro _ _
    | simp
    | split
theorem State.jobTake_keeps (s : State) (b addr : Nat) : keeps s.hold (State.jobTake s b addr).hold := by
  unfold State.jobTake
  try dsimp only
  repeat' split
  all_goals repeat' first
    | with_reducible exact keeps_refl _
    | with_reducible apply fun h => keeps_trans h (State.jobLate_keeps _ _ _)
    | with_reducible apply keeps_ite
    | intro _ _
    | simp
    | split
theorem State.jobReread_keeps (s : State) (b addr : Nat) : keeps s.hold (State.jobReread s b addr).hold := by
  unfold State.jobReread
  try dsimp only
  repeat' split
  all_goals repeat' first
    | with_reducible exact keeps_refl _
    | with_reducible apply fun h => keeps_trans h (State.jobTake_keeps _ _ _)
    | with_reducible apply keeps_ite
    | intro _ _
    | simp
    | split
theorem State.jobFetch_keeps (s : State) (b : Nat) : keeps s.hold (State.jobFetch s b).hold := by
  unfold State.jobFetch
  try dsimp only
  repeat' split
  all_goals repeat' first
    | with_reducible exact keeps_refl _
    | with_reducible apply fun h => keeps_trans h (State.jobTake_keeps _ _ _)
    | with_reducible apply fun h => keeps_trans h (State.jobReread_keeps _ _ _)
    | with_reducible apply keeps_ite
    | intro _ _
    | simp
    | split
theorem State.jobDoorbell_keeps (s : State) (b : Nat) : keeps s.hold (State.jobDoorbell s b).hold := by
  unfold State.jobDoorbell
  try dsimp only
  repeat' split
  all_goals repeat' first
    | with_reducible exact keeps_refl _
    | with_reducible apply fun h => keeps_trans h (State.jobFetch_keeps _ _)
    | with_reducible apply keeps_ite
    | intro _ _
    | simp
    | split
theorem State.passRuns_keeps (s : State) (b : Nat) (j : Job) (m : Nat) : keeps s.hold (State.passRuns s b j m).hold := by
  unfold State.passRuns
  try dsimp only
  repeat' split
  all_goals repeat' first
    | with_reducible exact keeps_refl _
    | with_reducible apply fun h => keeps_trans h (State.runLine_keeps _ _ _ _ _ _ _)
    | with_reducible apply keeps_ite
    | with_reducible apply keeps_then_each
    | with_reducible apply keeps_then_foldl
    | with_reducible apply keeps_then_foldl1
    | with_reducible apply keeps_then_applyAt
    | intro _ _
    | simp
    | split
theorem State.passFlush_keeps (s : State) (b : Nat) : keeps s.hold (State.passFlush s b).hold := by
  unfold State.passFlush
  try dsimp only
  repeat' split
  all_goals repeat' first
    | with_reducible exact keeps_refl _
    | with_reducible apply fun h => keeps_trans h (State.passRuns_keeps _ _ _ _)
    | with_reducible apply keeps_ite
    | intro _ _
    | simp
    | split
theorem State.jobStart_keeps (s : State) (b : Nat) : keeps s.hold (State.jobStart s b).hold := by
  unfold State.jobStart
  try dsimp only
  repeat' split
  all_goals repeat' first
    | with_reducible exact keeps_refl _
    | with_reducible apply fun h => keeps_trans h (State.jobFetch_keeps _ _)
    | with_reducible apply keeps_ite
    | intro _ _
    | simp
    | split
theorem State.jobStop_keeps (s : State) (b : Nat) : keeps s.hold (State.jobStop s b).hold := by
  unfold State.jobStop
  try dsimp only
  repeat' split
  all_goals repeat' first
    | with_reducible exact keeps_refl _
    | with_reducible apply fun h => keeps_trans h (State.passFlush_keeps _ _)
    | with_reducible apply keeps_ite
    | intro _ _
    | simp
    | split
theorem State.jobSettle_keeps (s : State) : keeps s.hold (State.jobSettle s).hold := by
  unfold State.jobSettle
  try dsimp only
  repeat' split
  all_goals repeat' first
    | with_reducible exact keeps_refl _
    | with_reducible apply fun h => keeps_trans h (State.jobStart_keeps _ _)
    | with_reducible apply fun h => keeps_trans h (State.jobStop_keeps _ _)
    | with_reducible apply keeps_ite
    | with_reducible apply keeps_then_each
    | with_reducible apply keeps_then_foldl
    | with_reducible apply keeps_then_foldl1
    | with_reducible apply keeps_then_applyAt
    | intro _ _
    | simp
    | split
theorem State.jobRetire_keeps (s : State) (b line : Nat) : keeps s.hold (State.jobRetire s b line).hold := by
  unfold State.jobRetire
  try dsimp only
  repeat' split
  all_goals repeat' first
    | with_reducible exact keeps_refl _
    | with_reducible apply fun h => keeps_trans h (State.passFlush_keeps _ _)
    | with_reducible apply keeps_ite
    | intro _ _
    | simp
    | split
theorem State.laneCut_keeps (s : State) (h reason : Nat) : keeps s.hold (State.laneCut s h reason).hold := by
  unfold State.laneCut
  try dsimp only
  repeat' split
  all_goals repeat' first
    | with_reducible exact keeps_refl _
    | with_reducible apply fun h => keeps_trans h (State.runLine_keeps _ _ _ _ _ _ _)
    | with_reducible apply keeps_ite
    | with_reducible apply keeps_then_each
    | with_reducible apply keeps_then_foldl
    | with_reducible apply keeps_then_foldl1
    | with_reducible apply keeps_then_applyAt
    | intro _ _
    | simp
    | split
theorem State.fenceStops_keeps (s : State) (b : Blk) (i reason : Nat) : keeps s.hold (State.fenceStops s b i reason).hold :=
    by
  unfold State.fenceStops
  try dsimp only
  repeat' split
  all_goals repeat' first
    | with_reducible exact keeps_refl _
    | with_reducible apply fun h => keeps_trans h (State.jobSettle_keeps _)
    | with_reducible apply fun h => keeps_trans h (State.headStops_keeps _ _ _)
    | with_reducible apply keeps_ite
    | intro _ _
    | simp
    | split
theorem State.fenceOne_keeps (s : State) (p reason src lo : Nat) (hi : Nat) (count : Bool) : keeps s.hold (State.fenceOne s
    p reason src lo hi count).hold := by
  unfold State.fenceOne
  try dsimp only
  repeat' split
  all_goals repeat' first
    | with_reducible exact keeps_refl _
    | with_reducible apply fun h => keeps_trans h (State.fenceStops_keeps _ _ _ _)
    | with_reducible apply keeps_ite
    | intro _ _
    | simp
    | split
theorem State.sourceLost_keeps (s : State) (b reason : Nat) : keeps s.hold (State.sourceLost s b reason).hold := by
  unfold State.sourceLost
  try dsimp only
  repeat' split
  all_goals repeat' first
    | with_reducible exact keeps_refl _
    | with_reducible apply fun h => keeps_trans h (State.fenceOne_keeps _ _ _ _ _ _ _)
    | with_reducible apply keeps_ite
    | intro _ _
    | simp
    | split
theorem State.laneFences_keeps (s : State) (l reason : Nat) : keeps s.hold (State.laneFences s l reason).hold := by
  unfold State.laneFences
  try dsimp only
  repeat' split
  all_goals repeat' first
    | with_reducible exact keeps_refl _
    | with_reducible apply fun h => keeps_trans h (State.laneCut_keeps _ _ _)
    | with_reducible apply fun h => keeps_trans h (State.fenceOne_keeps _ _ _ _ _ _ _)
    | with_reducible apply keeps_ite
    | intro _ _
    | simp
    | split
theorem State.fence_keeps (s : State) (p reason src lo : Nat) (hi : Nat) (count : Bool) : keeps s.hold (State.fence s p
    reason src lo hi count).hold := by
  unfold State.fence
  try dsimp only
  repeat' split
  all_goals repeat' first
    | with_reducible exact keeps_refl _
    | with_reducible apply fun h => keeps_trans h (State.fenceOne_keeps _ _ _ _ _ _ _)
    | with_reducible apply fun h => keeps_trans h (State.sourceLost_keeps _ _ _)
    | with_reducible apply fun h => keeps_trans h (State.laneFences_keeps _ _ _)
    | with_reducible apply keeps_ite
    | with_reducible apply keeps_then_each
    | with_reducible apply keeps_then_foldl
    | with_reducible apply keeps_then_foldl1
    | with_reducible apply keeps_then_applyAt
    | intro _ _
    | simp
    | split
theorem State.fenceFlight_keeps (s : State) (p reason : Nat) : keeps s.hold (State.fenceFlight s p reason).hold := by
  unfold State.fenceFlight
  try dsimp only
  repeat' split
  all_goals repeat' first
    | with_reducible exact keeps_refl _
    | with_reducible apply fun h => keeps_trans h (State.fence_keeps _ _ _ _ _ _ _)
    | with_reducible apply keeps_ite
    | intro _ _
    | simp
    | split
theorem State.writeTrailer_keeps (s : State) (b : Nat) (x : Slot) : keeps s.hold (State.writeTrailer s b x).hold := by
  unfold State.writeTrailer
  try dsimp only
  repeat' split
  all_goals repeat' first
    | with_reducible exact keeps_refl _
    | with_reducible apply fun h => keeps_trans h (State.lsWrite_keeps _ _ _)
    | with_reducible apply keeps_ite
    | intro _ _
    | simp
    | split
theorem State.segDone_keeps (s : State) (b : Nat) (j : Job) (m seg : Nat) (raw : Option (List Byte)) (check : Option Nat) :
    keeps s.hold (State.segDone s b j m seg raw check).hold := by
  unfold State.segDone
  try dsimp only
  repeat' split
  all_goals repeat' first
    | with_reducible exact keeps_refl _
    | with_reducible apply fun h => keeps_trans h (State.lsWrite_keeps _ _ _)
    | with_reducible apply fun h => keeps_trans h (State.writeTrailer_keeps _ _ _)
    | with_reducible apply keeps_ite
    | intro _ _
    | simp
    | split
theorem State.passEnd_keeps (s : State) (b : Nat) : keeps s.hold (State.passEnd s b).hold := by
  unfold State.passEnd
  try dsimp only
  repeat' split
  all_goals repeat' first
    | with_reducible exact keeps_refl _
    | with_reducible apply fun h => keeps_trans h (State.closeRun_keeps _ _ _ _ _)
    | with_reducible apply keeps_ite
    | with_reducible apply keeps_then_each
    | with_reducible apply keeps_then_foldl
    | with_reducible apply keeps_then_foldl1
    | with_reducible apply keeps_then_applyAt
    | intro _ _
    | simp
    | split
theorem State.openLine_keeps (s : State) (b : Nat) (j : Job) : keeps s.hold (State.openLine s b j).hold := by
  unfold State.openLine
  try dsimp only
  repeat' split
  all_goals repeat' first
    | with_reducible exact keeps_refl _
    | with_reducible apply fun h => keeps_trans h (State.writeTrailer_keeps _ _ _)
    | with_reducible apply fun h => keeps_trans h (State.segDone_keeps _ _ _ _ _ _ _)
    | with_reducible apply fun h => keeps_trans h (State.passEnd_keeps _ _)
    | with_reducible apply keeps_ite
    | with_reducible apply keeps_then_each
    | with_reducible apply keeps_then_foldl
    | with_reducible apply keeps_then_foldl1
    | with_reducible apply keeps_then_applyAt
    | intro _ _
    | simp
    | split
theorem State.closeLine_keeps (s : State) (b : Nat) (j : Job) : keeps s.hold (State.closeLine s b j).hold := by
  unfold State.closeLine
  try dsimp only
  repeat' split
  all_goals repeat' first
    | with_reducible exact keeps_refl _
    | with_reducible apply fun h => keeps_trans h (State.passRuns_keeps _ _ _ _)
    | with_reducible apply keeps_ite
    | intro _ _
    | simp
    | split
theorem State.decSettle_keeps (s : State) (b : Nat) (a0 : Nat) : keeps s.hold (State.decSettle s b a0).hold := by
  induction a0 generalizing s with
  | zero => exact keeps_refl _
  | succ f ih =>
    unfold State.decSettle
    dsimp only
    repeat' split
    all_goals repeat' first
      | with_reducible exact keeps_refl _
      | with_reducible apply fun h => keeps_trans h (ih _)
      | with_reducible apply fun h => keeps_trans h (State.openLine_keeps _ _ _)
      | rw [State.updDec_hold]
      | with_reducible apply fun h => keeps_trans h (State.closeLine_keeps _ _ _)
theorem State.encodeItem_keeps (s : State) (b : Nat) (tag : List Byte) (i : Nat) : keeps s.hold (State.encodeItem s b tag
    i).hold := by
  unfold State.encodeItem
  try dsimp only
  repeat' split
  all_goals repeat' first
    | with_reducible exact keeps_refl _
    | with_reducible apply fun h => keeps_trans h (State.lsWrite_keeps _ _ _)
    | with_reducible apply keeps_ite
    | intro _ _
    | simp
    | split
theorem State.segFinish_keeps (s : State) (b : Nat) (j : Job) (m seg : Nat) (live : Bool) (raw : Option (List Byte)) (check
    : Option Nat) : keeps s.hold (State.segFinish s b j m seg live raw check).hold := by
  unfold State.segFinish
  try dsimp only
  repeat' split
  all_goals repeat' first
    | with_reducible exact keeps_refl _
    | with_reducible apply fun h => keeps_trans h (State.segDone_keeps _ _ _ _ _ _ _)
    | with_reducible apply keeps_ite
    | intro _ _
    | simp
    | split
theorem State.stageRead_keeps (s : State) (b : Nat) (j : Job) (m seg : Nat) (live : Bool) : keeps s.hold (State.stageRead s
    b j m seg live).1.hold := by
  unfold State.stageRead
  try dsimp only
  repeat' split
  all_goals repeat' first
    | with_reducible exact keeps_refl _
    | with_reducible apply fun h => keeps_trans h (State.stageIn_keeps _ _ _ _)
    | with_reducible apply keeps_ite
    | intro _ _
    | simp
    | split
theorem State.decodeOne_keeps (s : State) (b : Nat) (j : Job) (m seg : Nat) (live : Bool) : keeps s.hold (State.decodeOne s
    b j m seg live).hold := by
  unfold State.decodeOne
  try dsimp only
  repeat' split
  all_goals repeat' first
    | with_reducible exact keeps_refl _
    | with_reducible apply fun h => keeps_trans h (State.lsWrite_keeps _ _ _)
    | with_reducible apply fun h => keeps_trans h (State.segFinish_keeps _ _ _ _ _ _ _ _)
    | with_reducible apply fun h => keeps_trans h (State.stageRead_keeps _ _ _ _ _ _)
    | with_reducible apply keeps_ite
    | intro _ _
    | simp
    | split
theorem State.stageNext_keeps (s : State) (b : Nat) (live : Bool) : keeps s.hold (State.stageNext s b live).hold := by
  unfold State.stageNext
  try dsimp only
  repeat' split
  all_goals repeat' first
    | with_reducible exact keeps_refl _
    | with_reducible apply fun h => keeps_trans h (State.stageRead_keeps _ _ _ _ _ _)
    | with_reducible apply keeps_ite
    | intro _ _
    | simp
    | split
theorem State.serialFail_keeps (s : State) (n code src : Nat) (cnt : Fld) : keeps s.hold (State.serialFail s n code src
    cnt).hold := by
  unfold State.serialFail
  try dsimp only
  repeat' split
  all_goals repeat' first
    | with_reducible exact keeps_refl _
    | with_reducible apply fun h => keeps_trans h (State.fence_keeps _ _ _ _ _ _ _)
    | with_reducible apply keeps_ite
    | intro _ _
    | simp
    | split
theorem State.lineStart_keeps (s : State) (b src0 : Nat) (fo : Bool) (next : Nat) (nextPos g : Int) (y : Option Int) : keeps
    s.hold (State.lineStart s b src0 fo next nextPos g y).hold := by
  unfold State.lineStart
  extract_lets p other lost ovr src cnt y0 s1 s2 s3 s4
  have h : s4.hold = s.hold := by
    show (if ovr then s3.cause p 7 else s3).hold = s.hold
    rw [State.hold_ite, State.cause_hold, ite_self]
    show ((s2.updJob b _).updPair _).hold = s.hold
    rw [State.updPair_hold, State.updJob_hold]
    show (s1.updLine b _).hold = s.hold
    rw [State.updLine_hold]
    show ((((s.setY b y0).setNext b nextPos).set p R.LINE_SEQ _).set p R.LINE_GAIN _).hold = s.hold
    rw [State.set_hold, State.set_hold, State.setNext_hold, State.setY_hold]
  split
  · with_reducible apply fun h => keeps_trans h (State.fenceOne_keeps _ _ _ _ _ _ _)
    exact keeps_of_eq h
  · rw [State.lineDue_hold]
    exact keeps_of_eq h
theorem State.lineEnable_keeps (s : State) (b : Nat) : keeps s.hold (State.lineEnable s b).hold := by
  unfold State.lineEnable
  try dsimp only
  repeat' split
  all_goals repeat' first
    | with_reducible exact keeps_refl _
    | with_reducible apply fun h => keeps_trans h (State.lineStart_keeps _ _ _ _ _ _ _ _)
    | with_reducible apply keeps_ite
    | intro _ _
    | simp
    | split
theorem State.shadowWrite_keeps (s : State) (b t a v : Nat) : keeps s.hold (State.shadowWrite s b t a v).hold := by
  unfold State.shadowWrite
  try dsimp only
  repeat' split
  all_goals repeat' first
    | with_reducible exact keeps_refl _
    | with_reducible apply fun h => keeps_trans h (State.lsWrite_keeps _ _ _)
    | with_reducible apply keeps_ite
    | intro _ _
    | simp
    | split
theorem State.heldWrites_keeps (s : State) (b : Nat) : keeps s.hold (State.heldWrites s b).hold := by
  unfold State.heldWrites
  try dsimp only
  repeat' split
  all_goals repeat' first
    | with_reducible exact keeps_refl _
    | with_reducible apply fun h => keeps_trans h (State.shadowWrite_keeps _ _ _ _ _)
    | with_reducible apply keeps_ite
    | with_reducible apply keeps_then_each
    | with_reducible apply keeps_then_foldl
    | with_reducible apply keeps_then_foldl1
    | with_reducible apply keeps_then_applyAt
    | intro _ _
    | simp
    | split
theorem State.coverAdd_keeps (s : State) (b line : Nat) (c : List Nat) (bad : Bool) : keeps s.hold (State.coverAdd s b line
    c bad).hold := by
  unfold State.coverAdd
  try dsimp only
  repeat' split
  all_goals repeat' first
    | with_reducible exact keeps_refl _
    | with_reducible apply fun h => keeps_trans h (State.dramPut_keeps _ _ _ _)
    | with_reducible apply keeps_ite
    | intro _ _
    | simp
    | split
theorem State.handOver_keeps (s : State) (b : Nat) : keeps s.hold (State.handOver s b).hold := by
  unfold State.handOver
  split
  · exact keeps_refl _
  · split
    · exact keeps_of_eq (State.updPipe_hold _ _ _)
    extract_lets p s1 h s2 quiet sd tb s3 x dead none1 tiles s4 s5 tl s6 src segBlank s7 s8
    have e1 : s1.hold = s.hold := State.updPipe_hold _ _ _
    have eh : h.1.hold = s.hold := (State.pipeRead_hold _ _ _ _ _).trans e1
    have e2 : s2.hold = s.hold := (State.pipeDoom_hold _ _ _ _).trans eh
    have ed : sd.1.hold = s.hold := by
      show (if quiet then (s2, ({} : SlotData)) else s2.readSlots b _).1.hold = s.hold
      split
      · exact e2
      · exact (State.readSlots_hold _ _ _).trans e2
    have et : tb.1.hold = s.hold := by
      show (if quiet then (sd.1, [], [], [], []) else sd.1.readTables b _).1.hold = s.hold
      split
      · exact ed
      · exact (State.readTables_hold _ _ _).trans ed
    have e3 : s3.hold = s.hold := (State.pipeDoom_hold _ _ _ _).trans et
    have e4 : s4.hold = s.hold := by
      show (((s3.addWrap p R.PIPE_SUB_CNT _).addSat p R.PIPE_SUBLOST_CNT _).addWrap p R.PIPE_FALLBK_CNT _).hold = s.hold
      rw [State.addWrap_hold, State.addSat_hold, State.addWrap_hold, e3]
    have k5 : keeps s.hold s5.hold := keeps_trans (keeps_of_eq e4) (State.lsWrite_keeps _ _ _)
    have e6 : s6.hold = s5.hold := State.hold_foldl _ _ _ fun t e => State.updHead_hold _ _ _
    have k7 : keeps s.hold s7.hold := keeps_trans k5 (keeps_trans (keeps_of_eq e6) (State.coverAdd_keeps _ _ _ _ _))
    have k8 : keeps s.hold s8.hold := keeps_trans k7 (keeps_of_eq (State.ownDigest_hold _ _))
    rw [State.panicUpdate_hold]
    with_reducible apply fun h => keeps_trans h (State.decSettle_keeps _ _ _)
    rw [State.releaseSlots_hold]
    exact k8
theorem State.copyEnd_keeps (s : State) (b : Nat) : keeps s.hold (State.copyEnd s b).hold := by
  unfold State.copyEnd
  try dsimp only
  repeat' split
  all_goals repeat' first
    | with_reducible exact keeps_refl _
    | with_reducible apply fun h => keeps_trans h (State.lsWrite_keeps _ _ _)
    | with_reducible apply fun h => keeps_trans h (State.heldWrites_keeps _ _)
    | with_reducible apply keeps_ite
    | with_reducible apply keeps_then_each
    | with_reducible apply keeps_then_foldl
    | with_reducible apply keeps_then_foldl1
    | with_reducible apply keeps_then_applyAt
    | intro _ _
    | simp
    | split
theorem State.headBoundary_keeps (s : State) (h tap0 : Nat) : keeps s.hold (State.headBoundary s h tap0).hold := by
  unfold State.headBoundary
  try dsimp only
  repeat' split
  all_goals repeat' first
    | with_reducible exact keeps_refl _
    | with_reducible apply fun h => keeps_trans h (State.tileRuns_keeps _ _ _ _)
    | with_reducible apply keeps_ite
    | intro _ _
    | simp
    | split
theorem State.headJudge_keeps (s : State) (h line : Nat) : keeps s.hold (State.headJudge s h line).hold := by
  unfold State.headJudge
  try dsimp only
  repeat' split
  all_goals repeat' first
    | with_reducible exact keeps_refl _
    | with_reducible apply fun h => keeps_trans h (State.fence_keeps _ _ _ _ _ _ _)
    | with_reducible apply keeps_ite
    | intro _ _
    | simp
    | split
theorem State.issueLine_keeps (s : State) (b : Nat) (holdN : Bool) : keeps s.hold (State.issueLine s b holdN).hold := by
  unfold State.issueLine
  extract_lets p s1 line s2 tap0 s3 jq jobB s4 heads s5 s6 s7 s8 s9 s10 s11 s12 hold s13 run tk x s14 s15 s16 s17 s18
  clear_value jq jobB x
  have k1 : keeps s.hold s1.hold := State.handOver_keeps _ _
  have e2 : s2.hold = s1.hold := (State.set_hold _ _ _ _).trans (State.set_hold _ _ _ _)
  have e3 : s3.hold = s2.hold := (State.gainTake_hold _ _ _).trans (State.updLine_hold _ _ _)
  have e4 : s4.hold = s3.hold := State.jobLine_hold _ _ _
  have e5 : s5.hold = s4.hold := (State.each_hold _ _ _ fun t h => State.headDue_hold _ _).trans (State.pipeDue_hold _ _)
  have e6 : s6.hold = s5.hold := State.each_hold _ _ _ fun t h => State.headTemps_hold _ _ _
  have k7 : keeps s6.hold s7.hold := by
    dsimp only [s7]
    split
    · refine keeps_trans ?_ (State.fence_keeps _ _ _ _ _ _ _)
      exact keeps_of_eq (State.updPipe_hold _ _ _)
    · exact keeps_refl _
  have e8 : s8.hold = s7.hold := State.boundaryApply_hold _ _ _ _
  have e9 : s9.hold = s8.hold := by
    dsimp only [s9]
    split
    · split
      · exact State.chainSend_hold _ _ _ _
      · rfl
    · rfl
  have e10 : s10.hold = s9.hold := State.pairBoundary_hold _ _
  have k11 : keeps s10.hold s11.hold := keeps_each _ _ _ fun t h => State.headBoundary_keeps _ _ _
  have e12 : s12.hold = s11.hold := State.each_hold _ _ _ fun t q => State.markDue_hold _ _
  have e13 : s13.hold = s12.hold := State.holdLine_hold _ _ _ _
  clear_value s13 hold run
  have et : tk.1.hold = s13.hold := by
    dsimp only [tk]
    split
    · rw [State.pipeTake_hold]
    · rfl
  have k14 : keeps tk.1.hold s14.hold := State.barRuns_keeps _ _ _ _ _
  have e15 : s15.hold = s14.hold := State.updJob_hold _ _ _
  have k16 : keeps s15.hold s16.hold := keeps_each _ _ _ fun t h => State.headJudge_keeps _ _ _
  have e17 : s17.hold = s16.hold := by
    show State.hold (if run then s16 else s16.releaseSlots b line) = _
    split
    · rfl
    · exact State.releaseSlots_hold _ _ _
  have k18 : keeps s17.hold s18.hold := by
    show keeps s17.hold (((s17.jobRetire b line).decSettle b 300).panicUpdate b).hold
    rw [State.panicUpdate_hold]
    exact keeps_trans (State.jobRetire_keeps _ _ _) (State.decSettle_keeps _ _ _)
  rw [State.lineAfter_hold, State.pulsesFor_hold, State.camTriggers_hold]
  refine keeps_trans k1 (keeps_trans (keeps_of_eq (e6.trans (e5.trans (e4.trans (e3.trans e2))))) (keeps_trans k7 ?_))
  refine keeps_trans (keeps_of_eq (e10.trans (e9.trans e8))) (keeps_trans k11 ?_)
  refine keeps_trans (keeps_of_eq (et.trans (e13.trans e12))) (keeps_trans k14 ?_)
  exact keeps_trans (keeps_of_eq e15) (keeps_trans k16 (keeps_trans (keeps_of_eq e17) k18))
theorem State.decGo_keeps (s : State) (b : Nat) : keeps s.hold (State.decGo s b).hold := by
  unfold State.decGo
  try dsimp only
  repeat' split
  all_goals repeat' first
    | with_reducible exact keeps_refl _
    | with_reducible apply fun h => keeps_trans h (State.decSettle_keeps _ _ _)
    | with_reducible apply keeps_ite
    | intro _ _
    | simp
    | split
theorem jeAct_keeps (v : Nat) (s : State) : keeps s.hold (jeAct v s).hold := by
  unfold jeAct
  try dsimp only
  repeat' split
  all_goals repeat' first
    | with_reducible exact keeps_refl _
    | with_reducible apply fun h => keeps_trans h (State.jobSettle_keeps _)
    | with_reducible apply fun h => keeps_trans h (State.decGo_keeps _ _)
    | with_reducible apply keeps_ite
    | with_reducible apply keeps_then_each
    | with_reducible apply keeps_then_foldl
    | with_reducible apply keeps_then_foldl1
    | with_reducible apply keeps_then_applyAt
    | intro _ _
    | simp
    | split
theorem jdbAct_keeps (v : Nat) (s : State) : keeps s.hold (jdbAct v s).hold := by
  unfold jdbAct
  try dsimp only
  repeat' split
  all_goals repeat' first
    | with_reducible exact keeps_refl _
    | with_reducible apply fun h => keeps_trans h (State.jobDoorbell_keeps _ _)
    | with_reducible apply fun h => keeps_trans h (State.decGo_keeps _ _)
    | with_reducible apply keeps_ite
    | with_reducible apply keeps_then_each
    | with_reducible apply keeps_then_foldl
    | with_reducible apply keeps_then_foldl1
    | with_reducible apply keeps_then_applyAt
    | intro _ _
    | simp
    | split
theorem State.feedControl_keeps (s : State) (q : Nat) (m : List Byte) : keeps s.hold (State.feedControl s q m).hold := by
  unfold State.feedControl
  try dsimp only
  repeat' split
  all_goals repeat' first
    | with_reducible exact keeps_refl _
    | with_reducible apply fun h => keeps_trans h (State.dramPut_keeps _ _ _ _)
    | with_reducible apply keeps_ite
    | intro _ _
    | simp
    | split
theorem State.feedMessage_keeps (s : State) (q : Nat) (m : List Byte) : keeps s.hold (State.feedMessage s q m).hold := by
  unfold State.feedMessage
  try dsimp only
  repeat' split
  all_goals repeat' first
    | with_reducible exact keeps_refl _
    | with_reducible apply fun h => keeps_trans h (State.feedControl_keeps _ _ _)
    | with_reducible apply keeps_ite
    | intro _ _
    | simp
    | split
theorem State.feedFrameIn_keeps (s : State) (n : Nat) (l : List Byte) : keeps s.hold (State.feedFrameIn s n l).hold := by
  unfold State.feedFrameIn
  try dsimp only
  repeat' split
  all_goals repeat' first
    | with_reducible exact keeps_refl _
    | with_reducible apply fun h => keeps_trans h (State.feedMessage_keeps _ _ _)
    | with_reducible apply keeps_ite
    | with_reducible apply keeps_then_each
    | with_reducible apply keeps_then_foldl
    | with_reducible apply keeps_then_foldl1
    | with_reducible apply keeps_then_applyAt
    | intro _ _
    | simp
    | split
theorem State.dramDeliver_keeps (s : State) (c a : Nat) (flush : Bool) : keeps s.hold (State.dramDeliver s c a flush).1.hold
    := by
  unfold State.dramDeliver
  try dsimp only
  repeat' split
  all_goals repeat' first
    | with_reducible exact keeps_refl _
    | with_reducible apply fun h => keeps_trans h (State.dramWriteOpt_keeps _ _ _ _)
    | with_reducible apply keeps_ite
    | intro _ _
    | simp
    | split
theorem State.queueDeliver_keeps (s : State) (c : Nat) : keeps s.hold (State.queueDeliver s c).1.hold := by
  unfold State.queueDeliver
  try dsimp only
  repeat' split
  all_goals repeat' first
    | with_reducible exact keeps_refl _
    | with_reducible apply fun h => keeps_trans h (State.stageIn_keeps _ _ _ _)
    | with_reducible apply keeps_ite
    | intro _ _
    | simp
    | split
theorem State.deliver_keeps (s : State) (c : Nat) (d : Desc) (itemEnd fin pad : Bool) : keeps s.hold (State.deliver s c d
    itemEnd fin pad).hold := by
  unfold State.deliver
  try dsimp only
  repeat' split
  all_goals repeat' first
    | with_reducible exact keeps_refl _
    | with_reducible apply fun h => keeps_trans h (State.dramDeliver_keeps _ _ _ _)
    | with_reducible apply fun h => keeps_trans h (State.queueDeliver_keeps _ _)
    | with_reducible apply keeps_ite
    | intro _ _
    | simp
    | split
theorem State.dmaBurst_keeps (s : State) (c : Nat) (d : Desc) (host : HostResp) : keeps s.hold (State.dmaBurst s c d
    host).hold := by
  unfold State.dmaBurst
  try dsimp only
  repeat' split
  all_goals repeat' first
    | with_reducible exact keeps_refl _
    | with_reducible apply fun h => keeps_trans h (State.deliver_keeps _ _ _ _ _ _)
    | with_reducible apply keeps_ite
    | intro _ _
    | simp
    | split
theorem State.crookMsg_hold (s : State) (hd : CrookHdr) (g : State → State) (h : ∀ s, (g s).hold = s.hold) :
    (s.crookMsg hd g).hold = s.hold := by
  unfold State.crookMsg
  split
  · rfl
  · dsimp only
    split
    · simp
    · rw [h]; simp
theorem State.crookCmd_hold (s : State) (hd : CrookHdr) (g : State → State) (h : ∀ s, (g s).hold = s.hold) :
    (s.crookCmd hd g).hold = s.hold := by
  refine State.crookMsg_hold _ _ _ fun t => ?_
  split
  · rfl
  · exact h t
theorem State.crookFollow_hold (s : State) (hd : CrookHdr) (g : State → State) (h : ∀ s, (g s).hold = s.hold) :
    (s.crookFollow hd g).hold = s.hold := by
  refine State.crookCmd_hold _ _ _ fun t => ?_
  split
  · rfl
  · exact h t
theorem State.joinEnable_keeps (s : State) (b : Nat) (x : JoinBar) : keeps s.hold (State.joinEnable s b x).hold := by
  unfold State.joinEnable
  try dsimp only
  repeat' split
  all_goals repeat' first
    | with_reducible exact keeps_refl _
    | with_reducible apply fun h => keeps_trans h (State.lineStart_keeps _ _ _ _ _ _ _ _)
    | with_reducible apply keeps_ite
    | intro _ _
    | simp
    | split
theorem State.partsReady_keeps (s : State) : keeps s.hold (State.partsReady s).hold := by
  unfold State.partsReady
  try dsimp only
  repeat' split
  all_goals repeat' first
    | with_reducible exact keeps_refl _
    | with_reducible apply fun h => keeps_trans h (State.lsWrite_keeps _ _ _)
    | with_reducible apply keeps_ite
    | intro _ _
    | simp
    | split
theorem State.pairAdd_keeps (s : State) (k : Nat) (absb : List Nat) (cov : Nat → Nat) : keeps s.hold (State.pairAdd s k absb
    cov).hold := by
  unfold State.pairAdd
  try dsimp only
  repeat' split
  all_goals repeat' first
    | with_reducible exact keeps_refl _
    | with_reducible apply fun h => keeps_trans h (State.lsWrite_keeps _ _ _)
    | with_reducible apply keeps_ite
    | with_reducible apply keeps_then_each
    | with_reducible apply keeps_then_foldl
    | with_reducible apply keeps_then_foldl1
    | with_reducible apply keeps_then_applyAt
    | intro _ _
    | simp
    | split
theorem State.bankClear_keeps (s : State) (t : Tier) (bank : Nat) : keeps s.hold (State.bankClear s t bank).hold := by
  unfold State.bankClear
  try dsimp only
  repeat' split
  all_goals repeat' first
    | with_reducible exact keeps_refl _
    | with_reducible apply fun h => keeps_trans h (State.lsWrite_keeps _ _ _)
    | with_reducible apply fun h => keeps_trans h (State.dramWrite_keeps _ _ _ _)
    | with_reducible apply keeps_ite
    | intro _ _
    | simp
    | split
theorem State.tierOpen_keeps (s : State) (t : Tier) (lc : Nat) : keeps s.hold (State.tierOpen s t lc).hold := by
  unfold State.tierOpen
  try dsimp only
  repeat' split
  all_goals repeat' first
    | with_reducible exact keeps_refl _
    | with_reducible apply fun h => keeps_trans h (State.bankClear_keeps _ _ _)
    | with_reducible apply keeps_ite
    | with_reducible apply keeps_then_each
    | with_reducible apply keeps_then_foldl
    | with_reducible apply keeps_then_foldl1
    | with_reducible apply keeps_then_applyAt
    | intro _ _
    | simp
    | split
theorem State.tierClose_keeps (s : State) (t : Tier) : keeps s.hold (State.tierClose s t).hold := by
  unfold State.tierClose
  try dsimp only
  repeat' split
  all_goals repeat' first
    | with_reducible exact keeps_refl _
    | with_reducible apply keeps_ite
    | intro _ _
    | simp
    | split
theorem State.tierJudge_keeps (s : State) (t : Tier) (last : Option Nat) : keeps s.hold (State.tierJudge s t last).hold :=
    by
  unfold State.tierJudge
  try dsimp only
  repeat' split
  all_goals repeat' first
    | with_reducible exact keeps_refl _
    | with_reducible apply fun h => keeps_trans h (State.tierClose_keeps _ _)
    | with_reducible apply keeps_ite
    | intro _ _
    | simp
    | split
theorem State.takePart_keeps (s : State) (k : Nat) : keeps s.hold (State.takePart s k).1.hold := by
  unfold State.takePart
  try dsimp only
  repeat' split
  all_goals repeat' first
    | with_reducible exact keeps_refl _
    | with_reducible apply fun h => keeps_trans h (State.lsWrite_keeps _ _ _)
    | with_reducible apply keeps_ite
    | intro _ _
    | simp
    | split
theorem State.tierAdd_keeps (s : State) (t : Tier) (k : Nat) (w : List Nat) : keeps s.hold (State.tierAdd s t k w).hold :=
    by
  cases t <;> dsimp only [State.tierAdd]
  · with_reducible apply fun h => keeps_trans h (State.lsWrite_keeps _ _ _)
    exact keeps_of_eq (State.chantRead_hold _ _ _)
  all_goals
    with_reducible apply fun h => keeps_trans h (State.dramWrite_keeps _ _ _ _)
    apply keeps_of_eq
    split
    · exact State.dramRead_hold _ _ _ _ _
    · exact (State.hold_chant _ _).trans (State.dramRead_hold _ _ _ _ _)
theorem State.flushColumns_keeps (s : State) (c : Nat) (tiers : List Tier) : keeps s.hold (State.flushColumns s c
    tiers).hold := by
  unfold State.flushColumns
  try dsimp only
  repeat' split
  all_goals repeat' first
    | with_reducible exact keeps_refl _
    | with_reducible apply fun h => keeps_trans h (State.takePart_keeps _ _)
    | with_reducible apply fun h => keeps_trans h (State.tierAdd_keeps _ _ _ _)
    | with_reducible apply keeps_ite
    | with_reducible apply keeps_then_each
    | with_reducible apply keeps_then_foldl
    | with_reducible apply keeps_then_foldl1
    | with_reducible apply keeps_then_applyAt
    | intro _ _
    | simp
    | split
theorem State.flushGood_keeps (s : State) (c : Nat) (f : FlushSt) : keeps s.hold (State.flushGood s c f).hold := by
  unfold State.flushGood
  try dsimp only
  repeat' split
  all_goals repeat' first
    | with_reducible exact keeps_refl _
    | with_reducible apply fun h => keeps_trans h (State.tierOpen_keeps _ _ _)
    | with_reducible apply fun h => keeps_trans h (State.tierJudge_keeps _ _ _)
    | with_reducible apply fun h => keeps_trans h (State.flushColumns_keeps _ _ _)
    | with_reducible apply keeps_ite
    | with_reducible apply keeps_then_each
    | with_reducible apply keeps_then_foldl
    | with_reducible apply keeps_then_foldl1
    | with_reducible apply keeps_then_applyAt
    | intro _ _
    | simp
    | split
theorem State.flushSums_keeps (s : State) (c : Nat) (f : FlushSt) : keeps s.hold (State.flushSums s c f).hold := by
  unfold State.flushSums
  try dsimp only
  repeat' split
  all_goals repeat' first
    | with_reducible exact keeps_refl _
    | with_reducible apply fun h => keeps_trans h (State.partsReady_keeps _)
    | with_reducible apply fun h => keeps_trans h (State.tierJudge_keeps _ _ _)
    | with_reducible apply fun h => keeps_trans h (State.flushColumns_keeps _ _ _)
    | with_reducible apply fun h => keeps_trans h (State.flushGood_keeps _ _ _)
    | with_reducible apply keeps_ite
    | with_reducible apply keeps_then_each
    | with_reducible apply keeps_then_foldl
    | with_reducible apply keeps_then_foldl1
    | with_reducible apply keeps_then_applyAt
    | intro _ _
    | simp
    | split
theorem State.flushDo_keeps (s : State) (c : Nat) (f : FlushSt) : keeps s.hold (State.flushDo s c f).hold := by
  unfold State.flushDo
  try dsimp only
  repeat' split
  all_goals repeat' first
    | with_reducible exact keeps_refl _
    | with_reducible apply fun h => keeps_trans h (State.fence_keeps _ _ _ _ _ _ _)
    | with_reducible apply fun h => keeps_trans h (State.flushSums_keeps _ _ _)
    | with_reducible apply keeps_ite
    | intro _ _
    | simp
    | split
theorem State.flushStart_keeps (s : State) (c : Nat) (f : FlushSt) : keeps s.hold (State.flushStart s c f).hold := by
  unfold State.flushStart
  try dsimp only
  repeat' split
  all_goals repeat' first
    | with_reducible exact keeps_refl _
    | with_reducible apply keeps_ite
    | intro _ _
    | simp
    | split
theorem State.calInstall_keeps (s : State) (r : List Byte) : keeps s.hold (State.calInstall s r).hold := by
  unfold State.calInstall
  try dsimp only
  repeat' split
  all_goals repeat' first
    | with_reducible exact keeps_refl _
    | with_reducible apply fun h => keeps_trans h (State.lsWrite_keeps _ _ _)
    | with_reducible apply keeps_ite
    | with_reducible apply keeps_then_each
    | with_reducible apply keeps_then_foldl
    | with_reducible apply keeps_then_foldl1
    | with_reducible apply keeps_then_applyAt
    | with_reducible apply keeps_chantWork
    | with_reducible apply keeps_pageWork
    | intro _ _
    | simp
    | split
theorem State.calAccept_keeps (s : State) (kind : Nat) (body : List Byte) : keeps s.hold (State.calAccept s kind body).hold
    := by
  unfold State.calAccept
  try dsimp only
  repeat' split
  all_goals repeat' first
    | with_reducible exact keeps_refl _
    | with_reducible apply fun h => keeps_trans h (State.calInstall_keeps _ _)
    | with_reducible apply keeps_ite
    | intro _ _
    | simp
    | split
theorem State.flatCompare_keeps (s : State) (kind : Nat) : keeps s.hold (State.flatCompare s kind).hold := by
  unfold State.flatCompare
  try dsimp only
  repeat' split
  all_goals repeat' first
    | with_reducible exact keeps_refl _
    | with_reducible apply fun h => keeps_trans h (State.calAccept_keeps _ _ _)
    | with_reducible apply keeps_ite
    | intro _ _
    | simp
    | split
theorem State.colCompare_keeps (s : State) : keeps s.hold (State.colCompare s).hold := by
  unfold State.colCompare
  try dsimp only
  repeat' split
  all_goals repeat' first
    | with_reducible exact keeps_refl _
    | with_reducible apply fun h => keeps_trans h (State.calAccept_keeps _ _ _)
    | with_reducible apply keeps_ite
    | intro _ _
    | simp
    | split
theorem State.laneCompare_keeps (s : State) : keeps s.hold (State.laneCompare s).hold := by
  unfold State.laneCompare
  try dsimp only
  repeat' split
  all_goals repeat' first
    | with_reducible exact keeps_refl _
    | with_reducible apply fun h => keeps_trans h (State.calAccept_keeps _ _ _)
    | with_reducible apply keeps_ite
    | intro _ _
    | simp
    | split
theorem State.fireCompare_keeps (s : State) : keeps s.hold (State.fireCompare s).hold := by
  unfold State.fireCompare
  try dsimp only
  repeat' split
  all_goals repeat' first
    | with_reducible exact keeps_refl _
    | with_reducible apply fun h => keeps_trans h (State.calAccept_keeps _ _ _)
    | with_reducible apply keeps_ite
    | intro _ _
    | simp
    | split
theorem State.calCompare_keeps (s : State) : keeps s.hold (State.calCompare s).hold := by
  unfold State.calCompare
  try dsimp only
  repeat' split
  all_goals repeat' first
    | with_reducible exact keeps_refl _
    | with_reducible apply fun h => keeps_trans h (State.flatCompare_keeps _ _)
    | with_reducible apply fun h => keeps_trans h (State.colCompare_keeps _)
    | with_reducible apply fun h => keeps_trans h (State.laneCompare_keeps _)
    | with_reducible apply fun h => keeps_trans h (State.fireCompare_keeps _)
    | with_reducible apply keeps_ite
    | intro _ _
    | simp
    | split
theorem State.pipeline_keeps (s : State) (c : Nat) (first : Bool) (pixels : List Nat) : keeps s.hold (State.pipeline s c
    first pixels).1.hold := by
  unfold State.pipeline
  try dsimp only
  repeat' split
  all_goals repeat' first
    | with_reducible exact keeps_refl _
    | with_reducible apply fun h => keeps_trans h (State.lsWrite_keeps _ _ _)
    | with_reducible apply keeps_ite
    | with_reducible apply keeps_then_each
    | with_reducible apply keeps_then_foldl
    | with_reducible apply keeps_then_foldl1
    | with_reducible apply keeps_then_applyAt
    | intro _ _
    | simp
    | split
theorem State.pairFate_keeps (s : State) (x : OverPair) : keeps s.hold (State.pairFate s x).hold := by
  unfold State.pairFate
  try dsimp only
  repeat' split
  all_goals repeat' first
    | with_reducible exact keeps_refl _
    | with_reducible apply fun h => keeps_trans h (State.partsReady_keeps _)
    | with_reducible apply fun h => keeps_trans h (State.pairAdd_keeps _ _ _ _)
    | with_reducible apply keeps_ite
    | intro _ _
    | simp
    | split
theorem State.overSettle_keeps (s : State) : keeps s.hold (State.overSettle s).hold := by
  unfold State.overSettle
  try dsimp only
  repeat' split
  all_goals repeat' first
    | with_reducible exact keeps_refl _
    | with_reducible apply fun h => keeps_trans h (State.pairFate_keeps _ _)
    | with_reducible apply keeps_ite
    | with_reducible apply keeps_then_each
    | with_reducible apply keeps_then_foldl
    | with_reducible apply keeps_then_foldl1
    | with_reducible apply keeps_then_applyAt
    | with_reducible apply keeps_chantWork
    | intro _ _
    | simp
    | split
theorem State.camClose_keeps (s : State) (c : Nat) (cut : Bool) : keeps s.hold (State.camClose s c cut).hold := by
  unfold State.camClose
  try dsimp only
  repeat' split
  all_goals repeat' first
    | with_reducible exact keeps_refl _
    | with_reducible apply fun h => keeps_trans h (State.flushStart_keeps _ _ _)
    | with_reducible apply fun h => keeps_trans h (State.overSettle_keeps _)
    | with_reducible apply keeps_ite
    | intro _ _
    | simp
    | split
theorem State.capture_keeps (s : State) (c fseq lr : Nat) (absb : List (List Nat)) : keeps s.hold (State.capture s c fseq lr
    absb).hold := by
  unfold State.capture
  try dsimp only
  repeat' split
  all_goals repeat' first
    | with_reducible exact keeps_refl _
    | with_reducible apply fun h => keeps_trans h (State.lsWrite_keeps _ _ _)
    | with_reducible apply keeps_ite
    | intro _ _
    | simp
    | split
theorem State.countLine_keeps (s : State) (c : Nat) (f : Frame) (lr : Option Nat) (px : List Nat) (check : Option Nat) (fell
    : Bool) : keeps s.hold (State.countLine s c f lr px check fell).hold := by
  unfold State.countLine
  try dsimp only
  repeat' split
  all_goals repeat' first
    | with_reducible exact keeps_refl _
    | with_reducible apply fun h => keeps_trans h (State.pipeline_keeps _ _ _ _)
    | with_reducible apply fun h => keeps_trans h (State.capture_keeps _ _ _ _ _)
    | with_reducible apply keeps_ite
    | intro _ _
    | simp
    | split
theorem State.pairsIn_keeps (s : State) (c : Nat) (x : CapLine) (absb : List (List Nat)) (cov : List (Option (List Byte))) :
    keeps s.hold (State.pairsIn s c x absb cov).hold := by
  unfold State.pairsIn
  try dsimp only
  repeat' split
  all_goals repeat' first
    | with_reducible exact keeps_refl _
    | with_reducible apply fun h => keeps_trans h (State.pairFate_keeps _ _)
    | with_reducible apply fun h => keeps_trans h (State.overSettle_keeps _)
    | with_reducible apply keeps_ite
    | with_reducible apply keeps_then_each
    | with_reducible apply keeps_then_foldl
    | with_reducible apply keeps_then_foldl1
    | with_reducible apply keeps_then_applyAt
    | with_reducible apply keeps_chantWork
    | intro _ _
    | simp
    | split
theorem State.camDisable_keeps (s : State) (c : Nat) : keeps s.hold (State.camDisable s c).hold := by
  unfold State.camDisable
  try dsimp only
  repeat' split
  all_goals repeat' first
    | with_reducible exact keeps_refl _
    | with_reducible apply fun h => keeps_trans h (State.overSettle_keeps _)
    | with_reducible apply fun h => keeps_trans h (State.camClose_keeps _ _ _)
    | with_reducible apply keeps_ite
    | intro _ _
    | simp
    | split
theorem State.solveTier_keeps (s : State) (t : Tier) (tier n : Nat) (x : Nat × Nat × Nat × Nat × Nat) : keeps s.hold
    (State.solveTier s t tier n x).hold := by
  unfold State.solveTier
  extract_lets r e m holds s1 s2 s3
  have er : r.1.hold = s.hold := State.hold_foldl1 _ _ _ fun q i => State.sumsOf_hold _ _ _ _
  have k1 : keeps s.hold s1.hold := by
    refine keeps_trans (keeps_of_eq ?_) (State.bankClear_keeps _ _ _)
    rw [State.addSat_hold, State.tickFresh_hold, er]
  have e2 : s2.hold = s1.hold := State.updTier_hold _ _ _
  have e3 : s3.hold = s2.hold := by
    dsimp only [s3]
    split
    · exact State.enqueue_hold _ _ _
    · rfl
  refine keeps_trans k1 (keeps_of_eq ?_)
  refine (State.cycleSettle_hold _).trans ((State.hold_chant _ _).trans ((State.cause_hold _ _ _).trans (e3.trans e2)))
theorem State.captureSums_hold (s : State) (bank : Nat) (cols : List Nat) : (s.captureSums bank cols).1.hold = s.hold :=
  State.hold_foldl1 _ _ _ fun _ _ => State.sumsOf_hold _ _ _ _

theorem State.captureSums_keeps (s : State) (bank : Nat) (cols : List Nat) : keeps s.hold (State.captureSums s bank
    cols).1.hold := by
  unfold State.captureSums
  try dsimp only
  repeat' split
  all_goals repeat' first
    | with_reducible exact keeps_refl _
    | with_reducible apply fun h => keeps_trans h (State.capture_keeps _ _ _ _ _)
    | with_reducible apply keeps_ite
    | with_reducible apply keeps_then_each
    | with_reducible apply keeps_then_foldl
    | with_reducible apply keeps_then_foldl1
    | with_reducible apply keeps_then_applyAt
    | intro _ _
    | simp
    | split
theorem State.solveCapture_keeps (s : State) (x : Nat × Nat × Nat × Nat × Nat) : keeps s.hold (State.solveCapture s x).hold
    := by
  unfold State.solveCapture
  generalize List.range 48192 = cols
  dsimp only
  rw [State.captureDone_hold, State.updTier_hold]
  refine keeps_trans ?_ (State.bankClear_keeps _ _ _)
  rw [State.tickFresh_hold, State.captureSums_hold]
  exact keeps_refl _
theorem State.trimWrite_keeps (s : State) (b k0 : Nat) (dot : Bool) (deltas : List Int) : keeps s.hold (State.trimWrite s b
    k0 dot deltas).hold := by
  unfold State.trimWrite
  extract_lets d base
  generalize ((List.range 16).flatMap _) = l
  refine keeps_chantWork _ _ (keeps_each _ _ _ fun t i => ?_) (keeps_refl _)
  extract_lets k r
  have er : r.1.hold = t.hold := State.lsWord_hold _ _ _
  split
  · exact keeps_of_eq er
  · extract_lets x u
    have ku : keeps t.hold u.hold := keeps_trans (keeps_of_eq er) (State.lsWrite_keeps _ _ _)
    split
    · exact keeps_trans ku (keeps_of_eq (State.incSat_hold _ _ _))
    · exact ku
theorem State.cycleWrite_keeps (s : State) (b line : Nat) (arm dot : Bool) (x : List Int × Nat) : keeps s.hold
    (State.cycleWrite s b line arm dot x).hold := by
  unfold State.cycleWrite
  try dsimp only
  repeat' split
  all_goals repeat' first
    | with_reducible exact keeps_refl _
    | with_reducible apply fun h => keeps_trans h (State.trimWrite_keeps _ _ _ _ _)
    | with_reducible apply keeps_ite
    | intro _ _
    | simp
    | split
theorem State.cycleBar_keeps (s : State) (b : Nat) : keeps s.hold (State.cycleBar s b).hold := by
  unfold State.cycleBar
  dsimp only
  rw [State.cycleServed_hold, State.cycleArm_hold]
  exact State.cycleWrite_keeps _ _ _ _ _ _
theorem State.calTake_keeps (s : State) (r : List Byte) : keeps s.hold (State.calTake s r).hold := by
  unfold State.calTake
  try dsimp only
  repeat' split
  all_goals repeat' first
    | with_reducible exact keeps_refl _
    | with_reducible apply fun h => keeps_trans h (State.calInstall_keeps _ _)
    | with_reducible apply keeps_ite
    | intro _ _
    | simp
    | split
theorem State.bellsRing_keeps (s : State) : keeps s.hold (State.bellsRing s).hold := by
  unfold State.bellsRing
  try dsimp only
  repeat' split
  all_goals repeat' first
    | with_reducible exact keeps_refl _
    | with_reducible apply fun h => keeps_trans h (State.jobDoorbell_keeps _ _)
    | with_reducible apply fun h => keeps_trans h (State.decGo_keeps _ _)
    | with_reducible apply keeps_ite
    | with_reducible apply keeps_then_each
    | with_reducible apply keeps_then_foldl
    | with_reducible apply keeps_then_foldl1
    | with_reducible apply keeps_then_applyAt
    | intro _ _
    | simp
    | split
theorem State.dramWake_keeps (s : State) : keeps s.hold (State.dramWake s).hold := by
  unfold State.dramWake
  try dsimp only
  repeat' split
  all_goals repeat' first
    | with_reducible exact keeps_refl _
    | with_reducible apply fun h => keeps_trans h (State.dramDrain_keeps _)
    | with_reducible apply fun h => keeps_trans h (State.jobFetch_keeps _ _)
    | with_reducible apply fun h => keeps_trans h (State.decGo_keeps _ _)
    | with_reducible apply fun h => keeps_trans h (State.bellsRing_keeps _)
    | with_reducible apply keeps_ite
    | with_reducible apply keeps_then_each
    | with_reducible apply keeps_then_foldl
    | with_reducible apply keeps_then_foldl1
    | with_reducible apply keeps_then_applyAt
    | intro _ _
    | simp
    | split
theorem State.migPoison_keeps (s : State) (c lr o : Nat) : keeps s.hold (State.migPoison s c lr o).hold := by
  unfold State.migPoison
  try dsimp only
  repeat' split
  all_goals repeat' first
    | with_reducible exact keeps_refl _
    | with_reducible apply fun h => keeps_trans h (State.storeBurst_keeps _ _ _ _ _ _)
    | with_reducible apply keeps_ite
    | intro _ _
    | simp
    | split
theorem State.replayRank_keeps (s : State) (c a rank : Nat) (x : Option RetryCmd) : keeps s.hold (State.replayRank s c a
    rank x).hold := by
  unfold State.replayRank
  try dsimp only
  repeat' split
  all_goals repeat' first
    | with_reducible exact keeps_refl _
    | with_reducible apply fun h => keeps_trans h (State.migPoison_keeps _ _ _ _)
    | with_reducible apply keeps_ite
    | intro _ _
    | simp
    | split
theorem State.replayFailed_keeps (s : State) (c : Nat) : keeps s.hold (State.replayFailed s c).hold := by
  unfold State.replayFailed
  try dsimp only
  repeat' split
  all_goals repeat' first
    | with_reducible exact keeps_refl _
    | with_reducible apply fun h => keeps_trans h (State.replayRank_keeps _ _ _ _ _)
    | with_reducible apply keeps_ite
    | intro _ _
    | simp
    | split
theorem State.replayAgain_keeps (s : State) (c : Nat) : keeps s.hold (State.replayAgain s c).hold := by
  unfold State.replayAgain
  try dsimp only
  repeat' split
  all_goals repeat' first
    | with_reducible exact keeps_refl _
    | with_reducible apply fun h => keeps_trans h (State.replayFailed_keeps _ _)
    | with_reducible apply keeps_ite
    | intro _ _
    | simp
    | split
theorem State.reissue_keeps (s : State) (c : Nat) : keeps s.hold (State.reissue s c).hold := by
  unfold State.reissue
  try dsimp only
  repeat' split
  all_goals repeat' first
    | with_reducible exact keeps_refl _
    | with_reducible apply fun h => keeps_trans h (State.storeBurst_keeps _ _ _ _ _ _)
    | with_reducible apply keeps_ite
    | with_reducible apply keeps_then_each
    | with_reducible apply keeps_then_foldl
    | with_reducible apply keeps_then_foldl1
    | with_reducible apply keeps_then_applyAt
    | intro _ _
    | simp
    | split
theorem State.scrubLs_keeps (s : State) (a : Nat) : keeps s.hold (State.scrubLs s a).hold := by
  unfold State.scrubLs
  try dsimp only
  repeat' split
  all_goals repeat' first
    | with_reducible exact keeps_refl _
    | with_reducible apply fun h => keeps_trans h (State.lsWrite_keeps _ _ _)
    | with_reducible apply keeps_ite
    | intro _ _
    | simp
    | split
theorem State.scrubDram_keeps (s : State) (a : Nat) : keeps s.hold (State.scrubDram s a).hold := by
  unfold State.scrubDram
  try dsimp only
  repeat' split
  all_goals repeat' first
    | with_reducible exact keeps_refl _
    | with_reducible apply fun h => keeps_trans h (State.burstWrite_keeps _ _ _ _)
    | with_reducible apply keeps_ite
    | intro _ _
    | simp
    | split
theorem State.dramJudge_keeps (s : State) : keeps s.hold (State.dramJudge s).hold := by
  unfold State.dramJudge
  try dsimp only
  repeat' split
  all_goals repeat' first
    | with_reducible exact keeps_refl _
    | with_reducible apply fun h => keeps_trans h (State.decGo_keeps _ _)
    | with_reducible apply fun h => keeps_trans h (State.dramWake_keeps _)
    | with_reducible apply keeps_ite
    | with_reducible apply keeps_then_each
    | with_reducible apply keeps_then_foldl
    | with_reducible apply keeps_then_foldl1
    | with_reducible apply keeps_then_applyAt
    | intro _ _
    | simp
    | split
theorem State.flashSet_keeps (s : State) (a : Nat) (b : Byte) : keeps s.hold (s.flashSet a b).hold := by
  refine ⟨rfl, fun h => ⟨h.1, h.2.1, h.2.2.1, ?_⟩⟩
  unfold State.flashSet State.hold
  dsimp only
  split
  · exact ⟨Memory.wf_del _ _ h.2.2.2.1, fun e he => h.2.2.2.2 e (List.mem_filter.1 he).1⟩
  · rename_i hb
    refine ⟨Memory.wf_put _ _ _ h.2.2.2.1, fun e he => ?_⟩
    rcases Memory.mem_put _ _ _ _ he with rfl | he
    · exact hb
    · exact h.2.2.2.2 e he
theorem State.flashSets_keeps (s : State) (a : Nat) (l : List Byte) : keeps s.hold (s.flashSets a l).hold := by
  induction l generalizing s a with
  | nil => exact keeps_refl _
  | cons b r ih => exact keeps_trans (s.flashSet_keeps a b) (ih _ (a + 1))
theorem State.exitFail_keeps (s : State) (n : Nat) : keeps s.hold (State.exitFail s n).hold := by
  unfold State.exitFail
  try dsimp only
  repeat' split
  all_goals repeat' first
    | with_reducible exact keeps_refl _
    | with_reducible apply fun h => keeps_trans h (State.fence_keeps _ _ _ _ _ _ _)
    | with_reducible apply keeps_ite
    | intro _ _
    | simp
    | split
theorem State.lockLost_keeps (s : State) (n : Nat) : keeps s.hold (State.lockLost s n).hold := by
  unfold State.lockLost
  try dsimp only
  repeat' split
  all_goals repeat' first
    | with_reducible exact keeps_refl _
    | with_reducible apply fun h => keeps_trans h (State.fence_keeps _ _ _ _ _ _ _)
    | with_reducible apply keeps_ite
    | intro _ _
    | simp
    | split
theorem State.flashEnd_keeps (s : State) (op a n d : Nat) (timeout : Bool) : keeps s.hold (State.flashEnd s op a n d
    timeout).1.hold := by
  unfold State.flashEnd
  try dsimp only
  repeat' split
  all_goals repeat' first
    | with_reducible exact keeps_refl _
    | with_reducible apply fun h => keeps_trans h (State.dramWrite_keeps _ _ _ _)
    | with_reducible apply fun h => keeps_trans h (State.flashSets_keeps _ _ _)
    | with_reducible apply keeps_ite
    | intro _ _
    | simp
    | split
theorem State.clockTick_keeps (s : State) : keeps s.hold (State.clockTick s).hold := by
  unfold State.clockTick
  try dsimp only
  repeat' split
  all_goals repeat' first
    | with_reducible exact keeps_refl _
    | with_reducible apply fun h => keeps_trans h (State.dramWake_keeps _)
    | with_reducible apply keeps_ite
    | intro _ _
    | simp
    | split
theorem State.softBlock_keeps (s : State) (b : Blk) (i : Nat) (release : Bool) : keeps s.hold (State.softBlock s b i
    release).hold := by
  unfold State.softBlock
  try dsimp only
  repeat' split
  all_goals repeat' first
    | with_reducible exact keeps_refl _
    | with_reducible apply fun h => keeps_trans h (State.jobStop_keeps _ _)
    | with_reducible apply fun h => keeps_trans h (State.heldWrites_keeps _ _)
    | with_reducible apply fun h => keeps_trans h (State.camDisable_keeps _ _)
    | with_reducible apply keeps_ite
    | with_reducible apply keeps_then_each
    | with_reducible apply keeps_then_foldl
    | with_reducible apply keeps_then_foldl1
    | with_reducible apply keeps_then_applyAt
    | intro _ _
    | simp
    | split
theorem State.softAfter_keeps (s : State) (b : Blk) (i : Nat) : keeps s.hold (State.softAfter s b i).hold := by
  unfold State.softAfter
  try dsimp only
  repeat' split
  all_goals repeat' first
    | with_reducible exact keeps_refl _
    | with_reducible apply fun h => keeps_trans h (State.decGo_keeps _ _)
    | with_reducible apply keeps_ite
    | with_reducible apply keeps_then_each
    | with_reducible apply keeps_then_foldl
    | with_reducible apply keeps_then_foldl1
    | with_reducible apply keeps_then_applyAt
    | intro _ _
    | simp
    | split
theorem State.softClear_keeps (s : State) (p : Nat) (release : Bool) : keeps s.hold (State.softClear s p release).hold := by
  unfold State.softClear
  try dsimp only
  repeat' split
  all_goals repeat' first
    | with_reducible exact keeps_refl _
    | with_reducible apply fun h => keeps_trans h (State.softBlock_keeps _ _ _ _)
    | with_reducible apply fun h => keeps_trans h (State.softAfter_keeps _ _ _)
    | with_reducible apply keeps_ite
    | intro _ _
    | simp
    | split
theorem State.softStart_keeps (s : State) (p : Nat) (boundary : Bool) : keeps s.hold (State.softStart s p boundary).hold :=
    by
  unfold State.softStart
  try dsimp only
  repeat' split
  all_goals repeat' first
    | with_reducible exact keeps_refl _
    | with_reducible apply fun h => keeps_trans h (State.softClear_keeps _ _ _)
    | with_reducible apply keeps_ite
    | intro _ _
    | simp
    | split
theorem State.softRequest_keeps (s : State) (p : Nat) (release : Bool) : keeps s.hold (State.softRequest s p release).hold
    := by
  unfold State.softRequest
  try dsimp only
  repeat' split
  all_goals repeat' first
    | with_reducible exact keeps_refl _
    | with_reducible apply fun h => keeps_trans h (State.softStart_keeps _ _ _)
    | with_reducible apply keeps_ite
    | intro _ _
    | simp
    | split
theorem State.softDone_keeps (s : State) (p : Nat) : keeps s.hold (State.softDone s p).hold := by
  unfold State.softDone
  try dsimp only
  repeat' split
  all_goals repeat' first
    | with_reducible exact keeps_refl _
    | with_reducible apply fun h => keeps_trans h (State.fence_keeps _ _ _ _ _ _ _)
    | with_reducible apply keeps_ite
    | with_reducible apply keeps_then_each
    | with_reducible apply keeps_then_foldl
    | with_reducible apply keeps_then_foldl1
    | with_reducible apply keeps_then_applyAt
    | intro _ _
    | simp
    | split
theorem State.enEffect_keeps (s : State) (b : Blk) (i : Nat) (en : Bool) : keeps s.hold (State.enEffect s b i en).hold := by
  unfold State.enEffect
  try dsimp only
  repeat' split
  all_goals repeat' first
    | with_reducible exact keeps_refl _
    | with_reducible apply fun h => keeps_trans h (State.jobSettle_keeps _)
    | with_reducible apply fun h => keeps_trans h (State.lineEnable_keeps _ _)
    | with_reducible apply fun h => keeps_trans h (State.decGo_keeps _ _)
    | with_reducible apply fun h => keeps_trans h (State.camDisable_keeps _ _)
    | with_reducible apply keeps_ite
    | with_reducible apply keeps_then_each
    | with_reducible apply keeps_then_foldl
    | with_reducible apply keeps_then_foldl1
    | with_reducible apply keeps_then_applyAt
    | intro _ _
    | simp
    | split
theorem State.enWrite_keeps (s : State) (p : Nat) (en : Bool) : keeps s.hold (State.enWrite s p en).hold := by
  unfold State.enWrite
  try dsimp only
  repeat' split
  all_goals repeat' first
    | with_reducible exact keeps_refl _
    | with_reducible apply fun h => keeps_trans h (State.enEffect_keeps _ _ _ _)
    | with_reducible apply keeps_ite
    | intro _ _
    | simp
    | split
theorem State.fenceRelease_keeps (s : State) (p : Nat) : keeps s.hold (State.fenceRelease s p).hold := by
  unfold State.fenceRelease
  try dsimp only
  repeat' split
  all_goals repeat' first
    | with_reducible exact keeps_refl _
    | with_reducible apply fun h => keeps_trans h (State.softRequest_keeps _ _ _)
    | with_reducible apply keeps_ite
    | with_reducible apply keeps_then_each
    | with_reducible apply keeps_then_foldl
    | with_reducible apply keeps_then_foldl1
    | with_reducible apply keeps_then_applyAt
    | intro _ _
    | simp
    | split
theorem pgCtrlAct_keeps (p v : Nat) (s : State) : keeps s.hold (pgCtrlAct p v s).hold := by
  unfold pgCtrlAct
  try dsimp only
  repeat' split
  all_goals repeat' first
    | with_reducible exact keeps_refl _
    | with_reducible apply fun h => keeps_trans h (State.softRequest_keeps _ _ _)
    | with_reducible apply fun h => keeps_trans h (State.enWrite_keeps _ _ _)
    | with_reducible apply fun h => keeps_trans h (State.fenceRelease_keeps _ _)
    | with_reducible apply keeps_ite
    | intro _ _
    | simp
    | split
theorem State.faultsNow_keeps (s : State) (p : Nat) (r : Nat) (rest : List Nat) (src addr : Nat) : keeps s.hold
    (State.faultsNow s p r rest src addr).hold := by
  unfold State.faultsNow
  try dsimp only
  repeat' split
  all_goals repeat' first
    | with_reducible exact keeps_refl _
    | with_reducible apply fun h => keeps_trans h (State.fence_keeps _ _ _ _ _ _ _)
    | with_reducible apply fun h => keeps_trans h (State.fenceFlight_keeps _ _ _)
    | with_reducible apply keeps_ite
    | with_reducible apply keeps_then_each
    | with_reducible apply keeps_then_foldl
    | with_reducible apply keeps_then_foldl1
    | with_reducible apply keeps_then_applyAt
    | intro _ _
    | simp
    | split
theorem State.faults_keeps (s : State) (p : Nat) (reasons : List Nat) (src addr : Nat) : keeps s.hold (State.faults s p
    reasons src addr).hold := by
  unfold State.faults
  try dsimp only
  repeat' split
  all_goals repeat' first
    | with_reducible exact keeps_refl _
    | with_reducible apply fun h => keeps_trans h (State.fence_keeps _ _ _ _ _ _ _)
    | with_reducible apply fun h => keeps_trans h (State.faultsNow_keeps _ _ _ _ _ _)
    | with_reducible apply keeps_ite
    | with_reducible apply keeps_then_each
    | with_reducible apply keeps_then_foldl
    | with_reducible apply keeps_then_foldl1
    | with_reducible apply keeps_then_applyAt
    | intro _ _
    | simp
    | split
/-- A cold reset keeps the queue and the flash, and empties the other memories. -/
theorem State.cold_keeps (s : State) : keeps s.hold s.cold.hold := ⟨rfl, fun h => ⟨rfl, rfl, rfl, h.2.2.2⟩⟩
/-- A warm reset leaves the queue and the memories as they are. -/
theorem State.warm_hold (s : State) : s.warm.hold = s.hold := by
  unfold State.warm
  rw [State.soloReset_hold, State.set_hold, State.incSat_hold, State.set_hold]
  rfl
theorem wrstAct_keeps (v : Nat) (s : State) : keeps s.hold (wrstAct v s).hold := by
  unfold wrstAct
  split
  · exact keeps_refl _
  · split
    · exact keeps_of_eq (State.warm_hold s)
    · exact keeps_refl _
theorem State.shutHold_keeps (s : State) (ps : List Nat) : keeps s.hold (State.shutHold s ps).hold := by
  unfold State.shutHold
  try dsimp only
  repeat' split
  all_goals repeat' first
    | with_reducible exact keeps_refl _
    | with_reducible apply fun h => keeps_trans h (State.softClear_keeps _ _ _)
    | with_reducible apply keeps_ite
    | with_reducible apply keeps_then_each
    | with_reducible apply keeps_then_foldl
    | with_reducible apply keeps_then_foldl1
    | with_reducible apply keeps_then_applyAt
    | intro _ _
    | simp
    | split
theorem State.shutDown_keeps (s : State) : keeps s.hold (State.shutDown s).hold := by
  unfold State.shutDown
  rw [State.shutForget_hold]
  refine keeps_trans ?_ (State.shutHold_keeps _ _)
  rw [State.shutLinks_hold, State.set_hold]
  exact keeps_refl _
theorem blockAct_keeps (b : Blk) (i off v : Nat) (s : State) : keeps s.hold (blockAct b i off v s).hold := by
  unfold blockAct
  try dsimp only
  repeat' split
  all_goals repeat' first
    | with_reducible exact keeps_refl _
    | with_reducible apply fun h => keeps_trans h (jeAct_keeps _ _)
    | with_reducible apply fun h => keeps_trans h (jdbAct_keeps _ _)
    | with_reducible apply fun h => keeps_trans h (wrstAct_keeps _ _)
    | with_reducible apply keeps_ite
    | intro _ _
    | simp
    | split
theorem regAct_keeps (p off v : Nat) (s : State) : keeps s.hold (regAct p off v s).hold := by
  unfold regAct
  try dsimp only
  repeat' split
  all_goals repeat' first
    | with_reducible exact keeps_refl _
    | with_reducible apply fun h => keeps_trans h (pgCtrlAct_keeps _ _ _)
    | with_reducible apply fun h => keeps_trans h (blockAct_keeps _ _ _ _ _)
    | with_reducible apply keeps_ite
    | intro _ _
    | simp
    | split
theorem State.tableStore_keeps (s : State) (t w v : Nat) : keeps s.hold (State.tableStore s t w v).hold := by
  unfold State.tableStore
  try dsimp only
  repeat' split
  all_goals repeat' first
    | with_reducible exact keeps_refl _
    | with_reducible apply fun h => keeps_trans h (State.shadowWrite_keeps _ _ _ _ _)
    | with_reducible apply fun h => keeps_trans h (State.heldWrites_keeps _ _)
    | with_reducible apply keeps_ite
    | intro _ _
    | simp
    | split
theorem State.tableWrite_keeps (s : State) (off t : Nat) (active : Bool) (w v be : Nat) : keeps s.hold (State.tableWrite s
    off t active w v be).hold := by
  unfold State.tableWrite
  try dsimp only
  repeat' split
  all_goals repeat' first
    | with_reducible exact keeps_refl _
    | with_reducible apply fun h => keeps_trans h (State.tableStore_keeps _ _ _ _)
    | with_reducible apply keeps_ite
    | intro _ _
    | simp
    | split
theorem State.bar0Write_keeps (s : State) (off v be : Nat) : keeps s.hold (State.bar0Write s off v be).hold := by
  unfold State.bar0Write
  split
  · exact keeps_refl _
  · split
    · exact keeps_writeWith _ _ _ _ _ _ fun t => regAct_keeps _ _ _ t
    · exact State.tableWrite_keeps _ _ _ _ _ _ _
    · exact State.lsWriteOpt_keeps _ _ _
    · exact keeps_of_eq (State.violate_hold _ _ _ _ _)

end Sys2Proof.Machine
end

