-- ==== Sys2Proof/Laws/Read.lean ====
section
/-! SUPPORT. Reads of registers and of the per-instance records after each operation: what the operation wrote, and that the rest reads
as before. -/

namespace Sys2Proof.Machine

/-! ### Reads that an update of something else leaves -/

@[simp] theorem State.get_setAp (s : State) (p : Nat) (f : Fld) (v : Nat) (q : Nat) (x : Fld) : (s.setAp p f v).get q x =
    s.get q x := rfl
@[simp] theorem State.get_setLatch (s : State) (p off v : Nat) (q : Nat) (x : Fld) : (s.setLatch p off v).get q x = s.get q
    x := rfl
@[simp] theorem State.get_emit (s : State) (o : Out) (q : Nat) (x : Fld) : (s.emit o).get q x = s.get q x := rfl
@[simp] theorem State.get_tickFresh (s : State) (q : Nat) (x : Fld) : (s.tickFresh).get q x = s.get q x := rfl
@[simp] theorem State.get_updPos (s : State) (n : Nat) (g : PosSt → PosSt) (q : Nat) (x : Fld) : (s.updPos n g).get q x =
    s.get q x := rfl
@[simp] theorem State.get_updLine (s : State) (n : Nat) (g : LineSt → LineSt) (q : Nat) (x : Fld) : (s.updLine n g).get q x
    = s.get q x := rfl
@[simp] theorem State.get_updPipe (s : State) (n : Nat) (g : PipeSt → PipeSt) (q : Nat) (x : Fld) : (s.updPipe n g).get q x
    = s.get q x := rfl
@[simp] theorem State.get_updHead (s : State) (n : Nat) (g : HeadSt → HeadSt) (q : Nat) (x : Fld) : (s.updHead n g).get q x
    = s.get q x := rfl
@[simp] theorem State.get_updDma (s : State) (n : Nat) (g : DmaSt → DmaSt) (q : Nat) (x : Fld) : (s.updDma n g).get q x =
    s.get q x := rfl
@[simp] theorem State.get_updEnc (s : State) (n : Nat) (g : EncSt → EncSt) (q : Nat) (x : Fld) : (s.updEnc n g).get q x =
    s.get q x := rfl
@[simp] theorem State.get_updJob (s : State) (n : Nat) (g : JobSt → JobSt) (q : Nat) (x : Fld) : (s.updJob n g).get q x =
    s.get q x := rfl
@[simp] theorem State.get_updDec (s : State) (n : Nat) (g : DecSt → DecSt) (q : Nat) (x : Fld) : (s.updDec n g).get q x =
    s.get q x := rfl
@[simp] theorem State.get_updPort (s : State) (n : Nat) (g : PortSt → PortSt) (q : Nat) (x : Fld) : (s.updPort n g).get q x
    = s.get q x := rfl
@[simp] theorem State.get_updCam (s : State) (n : Nat) (g : CamSt → CamSt) (q : Nat) (x : Fld) : (s.updCam n g).get q x =
    s.get q x := rfl
@[simp] theorem State.get_updDram (s : State) (n : Nat) (g : DramSt → DramSt) (q : Nat) (x : Fld) : (s.updDram n g).get q x
    = s.get q x := rfl
@[simp] theorem State.get_updLane (s : State) (n : Nat) (g : LaneSt → LaneSt) (q : Nat) (x : Fld) : (s.updLane n g).get q x
    = s.get q x := rfl
@[simp] theorem State.get_updPair (s : State) (g : PairSt → PairSt) (q : Nat) (x : Fld) : (s.updPair g).get q x = s.get q x
    := rfl
@[simp] theorem State.get_updBoot (s : State) (g : BootSt → BootSt) (q : Nat) (x : Fld) : (s.updBoot g).get q x = s.get q x
    := rfl
@[simp] theorem State.get_updHost (s : State) (g : HostSt → HostSt) (q : Nat) (x : Fld) : (s.updHost g).get q x = s.get q x
    := rfl
@[simp] theorem State.posAt_upd_self (s : State) (n : Nat) (g : PosSt → PosSt) : (s.updPos n g).posAt n = g (s.posAt n) := by
  simp [State.posAt, State.updPos]
theorem State.posAt_upd_other (s : State) {n m : Nat} (g : PosSt → PosSt) (h : m ≠ n) : (s.updPos n g).posAt m = s.posAt m := by
  simp only [State.posAt, State.updPos]
  exact NMap.getD_put_other _ _ _ h
@[simp] theorem State.lineAt_upd_self (s : State) (n : Nat) (g : LineSt → LineSt) : (s.updLine n g).lineAt n = g (s.lineAt
    n) := by
  simp [State.lineAt, State.updLine]
theorem State.lineAt_upd_other (s : State) {n m : Nat} (g : LineSt → LineSt) (h : m ≠ n) : (s.updLine n g).lineAt m =
    s.lineAt m := by
  simp only [State.lineAt, State.updLine]
  exact NMap.getD_put_other _ _ _ h
@[simp] theorem State.pipeAt_upd_self (s : State) (n : Nat) (g : PipeSt → PipeSt) : (s.updPipe n g).pipeAt n = g (s.pipeAt
    n) := by
  simp [State.pipeAt, State.updPipe]
theorem State.pipeAt_upd_other (s : State) {n m : Nat} (g : PipeSt → PipeSt) (h : m ≠ n) : (s.updPipe n g).pipeAt m =
    s.pipeAt m := by
  simp only [State.pipeAt, State.updPipe]
  exact NMap.getD_put_other _ _ _ h
@[simp] theorem State.headAt_upd_self (s : State) (n : Nat) (g : HeadSt → HeadSt) : (s.updHead n g).headAt n = g (s.headAt
    n) := by
  simp [State.headAt, State.updHead]
theorem State.headAt_upd_other (s : State) {n m : Nat} (g : HeadSt → HeadSt) (h : m ≠ n) : (s.updHead n g).headAt m =
    s.headAt m := by
  simp only [State.headAt, State.updHead]
  exact NMap.getD_put_other _ _ _ h
@[simp] theorem State.dmaAt_upd_self (s : State) (n : Nat) (g : DmaSt → DmaSt) : (s.updDma n g).dmaAt n = g (s.dmaAt n) := by
  simp [State.dmaAt, State.updDma]
theorem State.dmaAt_upd_other (s : State) {n m : Nat} (g : DmaSt → DmaSt) (h : m ≠ n) : (s.updDma n g).dmaAt m = s.dmaAt m := by
  simp only [State.dmaAt, State.updDma]
  exact NMap.getD_put_other _ _ _ h
@[simp] theorem State.encAt_upd_self (s : State) (n : Nat) (g : EncSt → EncSt) : (s.updEnc n g).encAt n = g (s.encAt n) := by
  simp [State.encAt, State.updEnc]
theorem State.encAt_upd_other (s : State) {n m : Nat} (g : EncSt → EncSt) (h : m ≠ n) : (s.updEnc n g).encAt m = s.encAt m := by
  simp only [State.encAt, State.updEnc]
  exact NMap.getD_put_other _ _ _ h
@[simp] theorem State.jobAt_upd_self (s : State) (n : Nat) (g : JobSt → JobSt) : (s.updJob n g).jobAt n = g (s.jobAt n) := by
  simp [State.jobAt, State.updJob]
theorem State.jobAt_upd_other (s : State) {n m : Nat} (g : JobSt → JobSt) (h : m ≠ n) : (s.updJob n g).jobAt m = s.jobAt m := by
  simp only [State.jobAt, State.updJob]
  exact NMap.getD_put_other _ _ _ h
@[simp] theorem State.decAt_upd_self (s : State) (n : Nat) (g : DecSt → DecSt) : (s.updDec n g).decAt n = g (s.decAt n) := by
  simp [State.decAt, State.updDec]
theorem State.decAt_upd_other (s : State) {n m : Nat} (g : DecSt → DecSt) (h : m ≠ n) : (s.updDec n g).decAt m = s.decAt m := by
  simp only [State.decAt, State.updDec]
  exact NMap.getD_put_other _ _ _ h
@[simp] theorem State.portAt_upd_self (s : State) (n : Nat) (g : PortSt → PortSt) : (s.updPort n g).portAt n = g (s.portAt
    n) := by
  simp [State.portAt, State.updPort]
theorem State.portAt_upd_other (s : State) {n m : Nat} (g : PortSt → PortSt) (h : m ≠ n) : (s.updPort n g).portAt m =
    s.portAt m := by
  simp only [State.portAt, State.updPort]
  exact NMap.getD_put_other _ _ _ h
@[simp] theorem State.camAt_upd_self (s : State) (n : Nat) (g : CamSt → CamSt) : (s.updCam n g).camAt n = g (s.camAt n) := by
  simp [State.camAt, State.updCam]
theorem State.camAt_upd_other (s : State) {n m : Nat} (g : CamSt → CamSt) (h : m ≠ n) : (s.updCam n g).camAt m = s.camAt m := by
  simp only [State.camAt, State.updCam]
  exact NMap.getD_put_other _ _ _ h
@[simp] theorem State.dramAt_upd_self (s : State) (n : Nat) (g : DramSt → DramSt) : (s.updDram n g).dramAt n = g (s.dramAt
    n) := by
  simp [State.dramAt, State.updDram]
theorem State.dramAt_upd_other (s : State) {n m : Nat} (g : DramSt → DramSt) (h : m ≠ n) : (s.updDram n g).dramAt m =
    s.dramAt m := by
  simp only [State.dramAt, State.updDram]
  exact NMap.getD_put_other _ _ _ h
@[simp] theorem State.laneAt_upd_self (s : State) (n : Nat) (g : LaneSt → LaneSt) : (s.updLane n g).laneAt n = g (s.laneAt
    n) := by
  simp [State.laneAt, State.updLane]
theorem State.laneAt_upd_other (s : State) {n m : Nat} (g : LaneSt → LaneSt) (h : m ≠ n) : (s.updLane n g).laneAt m =
    s.laneAt m := by
  simp only [State.laneAt, State.updLane]
  exact NMap.getD_put_other _ _ _ h
/-! ### Reads after operations over registers -/

/-- States with the same stored registers read the same. -/
theorem State.get_congr {s t : State} (h : t.regs = s.regs) (q : Nat) (g : Fld) : t.get q g = s.get q g := by
  simp only [State.get, h]
/-- A field of another page or at another place is another field. -/
theorem key_ne {p q : Nat} {f g : Fld} (h : q ≠ p ∨ g.id ≠ f.id) : (q, g.id) ≠ (p, f.id) := by
  rintro e
  rcases h with h | h
  · exact h (congrArg Prod.fst e)
  · exact h (congrArg Prod.snd e)
/-- A field that is not the one written reads as before. -/
theorem State.get_set_ne (s : State) {p q : Nat} {f g : Fld} (v : Nat) (h : q ≠ p ∨ g.id ≠ f.id) :
    (s.set p f v).get q g = s.get q g := s.get_set_other v (key_ne h)
theorem State.get_addSat_self (s : State) (p : Nat) (f : Fld) (k : Nat) :
    (s.addSat p f k).get p f = min (s.get p f + k) (2 ^ f.w - 1) := by
  rw [State.addSat, State.get_set_self]
  exact Nat.mod_eq_of_lt (Nat.lt_of_le_of_lt (Nat.min_le_right _ _) (Nat.sub_lt (Nat.two_pow_pos _) Nat.one_pos))
theorem State.get_addSat_ne (s : State) {p q : Nat} {f g : Fld} (k : Nat) (h : q ≠ p ∨ g.id ≠ f.id) :
    (s.addSat p f k).get q g = s.get q g := s.get_set_ne _ h
theorem State.get_incSat_self (s : State) (p : Nat) (f : Fld) : (s.incSat p f).get p f = min (s.get p f + 1) (2 ^ f.w - 1) :=
  s.get_addSat_self p f 1
theorem State.get_incSat_ne (s : State) {p q : Nat} {f g : Fld} (h : q ≠ p ∨ g.id ≠ f.id) :
    (s.incSat p f).get q g = s.get q g := s.get_set_ne _ h
theorem State.get_addWrap_self (s : State) (p : Nat) (f : Fld) (k : Nat) :
    (s.addWrap p f k).get p f = (s.get p f + k) % 2 ^ f.w := s.get_set_self _ _ _
theorem State.get_addWrap_ne (s : State) {p q : Nat} {f g : Fld} (k : Nat) (h : q ≠ p ∨ g.id ≠ f.id) :
    (s.addWrap p f k).get q g = s.get q g := s.get_set_ne _ h
theorem State.get_incWrap_self (s : State) (p : Nat) (f : Fld) : (s.incWrap p f).get p f = (s.get p f + 1) % 2 ^ f.w :=
  s.get_set_self _ _ _
theorem State.get_incWrap_ne (s : State) {p q : Nat} {f g : Fld} (h : q ≠ p ∨ g.id ≠ f.id) :
    (s.incWrap p f).get q g = s.get q g := s.get_set_ne _ h
theorem State.get_upd_self (s : State) (p : Nat) (f : Fld) (k : Nat → Nat) : (s.upd p f k).get p f = k (s.get p f) % 2 ^ f.w :=
  s.get_set_self _ _ _
theorem State.get_upd_ne (s : State) {p q : Nat} {f g : Fld} (k : Nat → Nat) (h : q ≠ p ∨ g.id ≠ f.id) :
    (s.upd p f k).get q g = s.get q g := s.get_set_ne _ h
theorem State.get_setFlag_self (s : State) (p : Nat) (f : Fld) (b : Bool) : (s.setFlag p f b).get p f = b2n b % 2 ^ f.w :=
  s.get_set_self _ _ _
theorem State.get_setFlag_ne (s : State) {p q : Nat} {f g : Fld} (b : Bool) (h : q ≠ p ∨ g.id ≠ f.id) :
    (s.setFlag p f b).get q g = s.get q g := s.get_set_ne _ h
@[simp] theorem State.get_request (s : State) (p q : Nat) (g : Fld) : (s.request p).get q g = s.get q g := by
  unfold State.request
  dsimp only
  split <;> rfl
theorem State.get_irqSet (s : State) (p : Nat) (f : Fld) (v : Nat) (q : Nat) (g : Fld) :
    (s.irqSet p f v).get q g = (s.set p f v).get q g := by
  unfold State.irqSet
  dsimp only
  split
  · exact State.get_request _ _ _ _
  · rfl
theorem State.get_raise_self (s : State) (p bits : Nat) (h : s.frozen p = false) :
    (s.raise p bits).get p R.PG_IRQ_RAW = (s.get p R.PG_IRQ_RAW ||| bits) % 2 ^ 32 := by
  rw [State.raise, if_neg (by simp [h]), State.get_irqSet, State.get_set_self]
  rfl
/-- A fenced page takes no cause and no error (R48). -/
theorem State.raise_frozen (s : State) (p bits : Nat) (h : s.frozen p = true) : s.raise p bits = s := if_pos h
theorem State.err_frozen (s : State) (p code src lo hi dir : Nat) (h : s.frozen p = true) : s.err p code src lo hi dir = s := if_pos h
theorem State.get_raise_ne (s : State) {p q : Nat} {g : Fld} (bits : Nat) (h : q ≠ p ∨ g.id ≠ R.PG_IRQ_RAW.id) :
    (s.raise p bits).get q g = s.get q g := by
  unfold State.raise
  split
  · rfl
  · rw [State.get_irqSet, State.get_set_ne _ _ h]
theorem State.get_cause_self (s : State) (p i : Nat) (h : s.frozen p = false) :
    (s.cause p i).get p R.PG_IRQ_RAW = (s.get p R.PG_IRQ_RAW ||| 2 ^ i) % 2 ^ 32 := s.get_raise_self _ _ h
theorem State.get_cause_ne (s : State) {p q : Nat} {g : Fld} (i : Nat) (h : q ≠ p ∨ g.id ≠ R.PG_IRQ_RAW.id) :
    (s.cause p i).get q g = s.get q g := s.get_raise_ne _ h
/-- An error changes the page's error registers and PG_IRQ_RAW only (R40). -/
theorem State.get_err_ne (s : State) (p code src lo hi dir : Nat) {q : Nat} {g : Fld}
    (h : q ≠ p ∨ (g.id ≠ R.PG_ERR_CNT.id ∧ g.id ≠ R.PG_ERR_ADDR_LO.id ∧ g.id ≠ R.PG_ERR_ADDR_HI.id ∧ g.id ≠ R.PG_ERR_INFO_SRC.id ∧
      g.id ≠ R.PG_ERR_INFO_DIR.id ∧ g.id ≠ R.PG_ERR_INFO_CODE.id ∧ g.id ≠ R.PG_IRQ_RAW.id)) :
    (s.err p code src lo hi dir).get q g = s.get q g := by
  unfold State.err
  split
  · rfl
  rw [State.get_cause_ne _ _ (h.imp_right fun k => k.2.2.2.2.2.2)]
  unfold State.errCount
  rw [State.get_incSat_ne _ (h.imp_right fun k => k.1)]
  split
  · rw [State.get_set_ne _ _ (h.imp_right fun k => k.2.2.2.2.2.1), State.get_set_ne _ _ (h.imp_right fun k => k.2.2.2.2.1),
      State.get_set_ne _ _ (h.imp_right fun k => k.2.2.2.1), State.get_set_ne _ _ (h.imp_right fun k => k.2.2.1),
      State.get_set_ne _ _ (h.imp_right fun k => k.2.1)]
  · rfl
/-- A fence's header changes FENCED, REASON, COUNT and PG_IRQ_RAW only (R47). -/
theorem State.get_fenceFlags_ne (s : State) (p reason : Nat) {q : Nat} {g : Fld}
    (h : q ≠ p ∨ (g.id ≠ R.PG_FENCE_FENCED.id ∧ g.id ≠ R.PG_FENCE_REASON.id ∧ g.id ≠ R.PG_FENCE_COUNT.id ∧
      g.id ≠ R.PG_IRQ_RAW.id)) : (s.fenceFlags p reason).get q g = s.get q g := by
  unfold State.fenceFlags
  rw [State.get_incSat_ne _ (h.imp_right fun k => k.2.2.1), State.get_set_ne _ _ (h.imp_right fun k => k.2.1),
    State.get_set_ne _ _ (h.imp_right fun k => k.1), State.get_cause_ne _ _ (h.imp_right fun k => k.2.2.2)]

end Sys2Proof.Machine
end

