-- ==== Sys2Proof/Laws/Pages.lean ====
section
/-! SUPPORT. The page index (R34): the block and instance of each page, and that pages of different blocks differ. -/

namespace Sys2Proof.Machine

theorem blkOf_pos : ∀ n < 12, blkOf (pPOS n) = some (.pos, n) := by decide
theorem blkOf_line : ∀ b < 8, blkOf (pLINE b) = some (.line, b) := by decide
theorem blkOf_dma : ∀ c < 64, blkOf (pDMA c) = some (.dma, c) := by decide
theorem blkOf_feed : ∀ n < 24, blkOf (pFEED n) = some (.feed, n) := by decide
theorem blkOf_enc : ∀ b < 8, blkOf (pENC b) = some (.enc, b) := by decide
theorem blkOf_dec : ∀ b < 8, blkOf (pDEC b) = some (.dec, b) := by decide
theorem blkOf_pipe : ∀ b < 8, blkOf (pPIPE b) = some (.pipe, b) := by decide
theorem blkOf_dram : ∀ c < 4, blkOf (pDRAM c) = some (.dram, c) := by decide
theorem blkOf_cam : ∀ c < 2, blkOf (pCAM c) = some (.cam, c) := by decide
set_option maxRecDepth 4000 in
theorem blkOf_head : ∀ h < 128, blkOf (pHEAD h) = some (.head, h) := by decide
set_option maxRecDepth 4000 in
theorem blkOf_lane : ∀ l < 160, blkOf (pLANE l) = some (.lane, l) := by decide
@[simp] theorem blkOf_sys : blkOf pSYS = some (.sys, 0) := by decide
@[simp] theorem blkOf_pinmux : blkOf pPINMUX = some (.pinmux, 0) := by decide
@[simp] theorem blkOf_therm : blkOf pTHERM = some (.therm, 0) := by decide
@[simp] theorem blkOf_boot : blkOf pBOOT = some (.boot, 0) := by decide
@[simp] theorem blkOf_prof : blkOf pPROF = some (.prof, 0) := by decide
@[simp] theorem blkOf_time : blkOf pTIME = some (.time, 0) := by decide
@[simp] theorem blkOf_pair : blkOf pPAIR = some (.pair, 0) := by decide
@[simp] theorem blkOf_breath : blkOf pBREATH = some (.breath, 0) := by decide
@[simp] theorem blkOf_hostif : blkOf pHOSTIF = some (.hostif, 0) := by decide
@[simp] theorem blkOf_dmac : blkOf pDMAC = some (.dmac, 0) := by decide
@[simp] theorem blkOf_feedc : blkOf pFEEDC = some (.feedc, 0) := by decide
@[simp] theorem blkOf_lstore : blkOf pLSTORE = some (.lstore, 0) := by decide
@[simp] theorem blkOf_dramc : blkOf pDRAMC = some (.dramc, 0) := by decide
@[simp] theorem blkOf_scrub : blkOf pSCRUB = some (.scrub, 0) := by decide
@[simp] theorem blkOf_camc : blkOf pCAMC = some (.camc, 0) := by decide
@[simp] theorem blkOf_chant : blkOf pCHANT = some (.chant, 0) := by decide
@[simp] theorem blkOf_cal : blkOf pCAL = some (.cal, 0) := by decide
@[simp] theorem blkOf_headc : blkOf pHEADC = some (.headc, 0) := by decide

/-- The block that a page belongs to, as numbers of the page. -/
theorem blkOf_some {p : Nat} {b : Blk} {i : Nat} (h : blkOf p = some (b, i)) : p = b.first + i ∧ i < b.count := by
  unfold blkOf at h
  cases hf : Blk.all.find? (fun b => b.first ≤ p && p < b.first + b.count) with
  | none => simp [hf] at h
  | some c =>
    have hc := List.find?_some hf
    simp only [hf, Option.map_some, Option.some.injEq, Prod.mk.injEq] at h
    obtain ⟨rfl, rfl⟩ := h
    simp at hc
    omega

/-- A write of a register of a block that the header's registers do not take does what the block says (R12). -/
theorem regAct_block {p off v : Nat} {b : Blk} {i : Nat} (h : blkOf p = some (b, i)) (ho : 0x38 ≤ off) :
    regAct p off v = blockAct b i off v := by
  funext s
  unfold regAct
  rw [if_neg (by omega), if_neg (by omega), if_neg (by omega), if_neg (by omega), if_neg (by omega), h]

theorem regAct_ctrl (p v : Nat) : regAct p 4 v = pgCtrlAct p v := rfl
theorem regAct_irqRaw (p v : Nat) : regAct p 0x10 v = irqRawAct p v := rfl
theorem regAct_irqEn (p v : Nat) : regAct p 0x14 v = irqEnAct p v := rfl
theorem regAct_shadow (p v : Nat) : regAct p 0x2C v = shadowAct p v := rfl
theorem regAct_lock (p v : Nat) : regAct p 0x34 v = lockAct p v := rfl

/-! ### The registers that command something -/

theorem blockAct_wrst (v : Nat) : blockAct .sys 0 0x48 v = wrstAct v := rfl
theorem blockAct_viol (v : Nat) : blockAct .sys 0 0x10C v = violCtrlAct v := rfl
theorem blockAct_bootCmd (v : Nat) : blockAct .boot 0 0x4C v = bootCmdAct v := rfl
theorem blockAct_bootFl (v : Nat) : blockAct .boot 0 0xD0 v = bootFlAct v := rfl
theorem blockAct_profCmd (v : Nat) : blockAct .prof 0 0x44 v = profCmdAct v := rfl
theorem blockAct_timeCmd (v : Nat) : blockAct .time 0 0x70 v = timeCmdAct v := rfl
theorem blockAct_timeArm (k v : Nat) : blockAct .time 0 (0x104 + 16 * k) v = timeArmAct k v := by
  have h1 : 0x104 + 16 * k ≠ 0x70 := by omega
  have h2 : (0x104 + 16 * k) % 16 = 4 := by omega
  have h3 : 0x100 ≤ 0x104 + 16 * k := by omega
  funext s
  simp [blockAct, h1, h2, h3]
theorem blockAct_timeCtrl (k v : Nat) : blockAct .time 0 (0x108 + 16 * k) v = timeCtrlAct k v := by
  have h1 : 0x108 + 16 * k ≠ 0x70 := by omega
  have h2 : (0x108 + 16 * k) % 16 = 8 := by omega
  have h3 : 0x100 ≤ 0x108 + 16 * k := by omega
  funext s
  simp [blockAct, h1, h2, h3]
theorem blockAct_pairCmd (v : Nat) : blockAct .pair 0 0x44 v = pairCmdAct v := rfl
theorem blockAct_posCmp0 (n v : Nat) : blockAct .pos n 0x80 v = posCmpAct n 0 v := by
  funext s
  rw [blockAct.eq_def]
  simp only [reduceIte, Nat.reduceEqDiff]
theorem blockAct_posCmp1 (n v : Nat) : blockAct .pos n 0x84 v = posCmpAct n 1 v := by
  funext s
  rw [blockAct.eq_def]
  simp only [reduceIte, Nat.reduceEqDiff]
theorem blockAct_posDisarm (n v : Nat) : blockAct .pos n 0x88 v = posDisarmAct n v := rfl
theorem blockAct_lineAdj (b v : Nat) : blockAct .line b 0x7C v = lineAdjAct b v := rfl
theorem blockAct_je (v : Nat) : blockAct .dmac 0 0x40 v = jeAct v := rfl
theorem blockAct_jdb (v : Nat) : blockAct .dmac 0 0x44 v = jdbAct v := rfl
theorem blockAct_dmaDb (c v : Nat) : blockAct .dma c 0x58 v = dmaDbAct c v := rfl
theorem blockAct_dmaCmd (c v : Nat) : blockAct .dma c 0x5C v = dmaCmdAct c v := rfl
theorem blockAct_encCtrl (b v : Nat) : blockAct .enc b 0x40 v = encCtrlAct b v := rfl
theorem blockAct_pipeSwap (b v : Nat) : blockAct .pipe b 0x4C v = pipeSwapAct b v := rfl
theorem blockAct_pipeCopy (b v : Nat) : blockAct .pipe b 0x54 v = pipeCopyAct b v := rfl
theorem blockAct_calCmd (v : Nat) : blockAct .cal 0 0x40 v = calCmdAct v := rfl
theorem blockAct_dramcCfg (v : Nat) : blockAct .dramc 0 0x40 v = dramcCfgAct v := rfl
theorem blockAct_dramMig (c v : Nat) : blockAct .dram c 0x48 v = dramMigAct c v := rfl
theorem blockAct_scrubCtrl (v : Nat) : blockAct .scrub 0 0x40 v = scrubCtrlAct v := rfl
theorem blockAct_laneCmd (l v : Nat) : blockAct .lane l 0x50 v = laneCmdAct l v := rfl

end Sys2Proof.Machine
end

