-- ==== Sys2Proof/Laws/Memory.lean ====
section
/-! SUPPORT. What the line store's reads and writes do, said once each. -/

namespace Sys2Proof.Machine

/-- A write of enabled bytes: each is stored and reads clean, every other byte and everything else stands (R57, R308). -/
theorem State.lsWriteOpt_spec (l : List (Option Byte)) (s : State) (a : Nat) :
      (∀ i b, l[i]? = some (some b) → Memory.get (s.lsWriteOpt a l).lstore (a + i) = some b ∧ (s.lsWriteOpt a l).lsErr.getD (a + i) 0 = 0) ∧
      (∀ k, (k < a ∨ l[k - a]? = none ∨ l[k - a]? = some none) → Memory.get (s.lsWriteOpt a l).lstore k = Memory.get s.lstore k ∧ (s.lsWriteOpt a l).lsErr.getD k 0 = s.lsErr.getD k 0) ∧
      ({ s.lsWriteOpt a l with lstore := s.lstore, lsErr := s.lsErr, lsRep := s.lsRep } : State) = s := by
  induction l generalizing s a with
  | nil => exact ⟨fun i b h => by simp at h, fun k _ => ⟨rfl, rfl⟩, rfl⟩
  | cons o r ih =>
    have hf : ∀ (m : NMap Nat) (k : Nat), NMap.getD (m.filter fun e => decide (e.1 < a) || decide (a + 1 ≤ e.1)) k 0 = if k = a then 0 else m.getD k 0 := by
      intro m k
      induction m with
      | nil => simp [NMap.getD]
      | cons e t iht =>
        obtain ⟨j, v⟩ := e
        rw [List.filter_cons]
        split
        · rename_i h
          simp only [NMap.getD, iht]
          by_cases hj : j = k
          · subst hj; simp at h; rw [if_pos rfl, if_neg (by omega), if_pos rfl]
          · rw [if_neg hj, if_neg hj]
        · rename_i h
          rw [iht]
          simp at h
          by_cases hk : k = a
          · rw [if_pos hk, if_pos hk]
          · rw [if_neg hk, if_neg hk]; simp only [NMap.getD]; rw [if_neg (by omega)]
    cases o with
    | none =>
      have := ih s (a + 1)
      refine ⟨fun i b h => ?_, fun k h => ?_, this.2.2⟩
      · cases i with
        | zero => simp at h
        | succ i => rw [show a + (i + 1) = a + 1 + i by omega]; exact this.1 i b (by simpa using h)
      · refine this.2.1 k ?_
        rcases Nat.lt_or_ge k (a + 1) with hk | hk
        · exact Or.inl hk
        · right
          rw [show k - a = (k - (a + 1)) + 1 by omega] at h
          simp only [List.getElem?_cons_succ] at h
          rcases h with h | h
          · omega
          · exact h
    | some c =>
      have := ih (s.lsWrite a [c]) (a + 1)
      have hg : ∀ k, Memory.get (s.lsWrite a [c]).lstore k = if k = a then some c else Memory.get s.lstore k := by
        intro k
        show Memory.get (Memory.puts s.lstore a [c]) k = _
        rw [Memory.get_puts]
        by_cases hk : k = a
        · subst hk; simp
        · rw [if_neg (by simp; omega), if_neg hk]
      have he : ∀ k, (s.lsWrite a [c]).lsErr.getD k 0 = if k = a then 0 else s.lsErr.getD k 0 := fun k => hf s.lsErr k
      refine ⟨fun i b h => ?_, fun k h => ?_, ?_⟩
      · cases i with
        | zero =>
          simp at h; subst h
          have h2 := this.2.1 a (Or.inl (by omega))
          exact ⟨h2.1.trans (by rw [hg]; simp), h2.2.trans (by rw [he]; simp)⟩
        | succ i => rw [show a + (i + 1) = a + 1 + i by omega]; exact this.1 i b (by simpa using h)
      · have hk : k ≠ a := by rintro rfl; simp at h
        have h2 := this.2.1 k (by
          rcases Nat.lt_or_ge k (a + 1) with hk | hk
          · exact Or.inl hk
          · right
            rw [show k - a = (k - (a + 1)) + 1 by omega] at h
            simp only [List.getElem?_cons_succ] at h
            rcases h with h | h
            · omega
            · exact h)
        exact ⟨h2.1.trans (by rw [hg, if_neg hk]), h2.2.trans (by rw [he, if_neg hk])⟩
      · have := congrArg (fun u : State => ({ u with lstore := s.lstore, lsErr := s.lsErr, lsRep := s.lsRep } : State)) this.2.2
        exact this

/-- A read answers as many bytes as asked. -/
theorem State.lsReads_length (l : List (Option Byte)) (s : State) (src a : Nat) : (s.lsReads src a l).2.length = l.length := by
  induction l generalizing s a with
  | nil => rfl
  | cons o r ih => simp [State.lsReads, ih]
theorem Memory.take_length (m : List Host.Cell) (a n : Nat) : (Memory.take m a n).length = n := by
  induction n generalizing m a with
  | zero => simp [Memory.take]
  | succ n ih => 
    cases m with
    | nil => simp [Memory.take, ih]
    | cons e r => simp only [Memory.take]; split <;> simp [ih]
/-- A read of written, error-free bytes answers them and changes nothing (R308). -/
theorem State.lsReads_clean (l : List (Option Byte)) (s : State) (src a : Nat) (h : ∀ i, i < l.length → ∃ b, l[i]? = some
    (some b) ∧ s.lsErr.getD (a + i) 0 = 0) :
    s.lsReads src a l = (s, l) := by
  induction l generalizing a with
  | nil => rfl
  | cons o r ih =>
    obtain ⟨b, hb, he⟩ := h 0 (by simp)
    simp at hb; subst hb
    have : s.lsFound a src (s.lsSeen a (some b)) = (s, some b) := by
      unfold State.lsFound State.lsSeen
      simp at he; simp [he]
    simp only [State.lsReads, this]
    rw [ih (a + 1)]
    intro i hi
    obtain ⟨c, hc, hd⟩ := h (i + 1) (by simpa using hi)
    exact ⟨c, by simpa using hc, by rw [show a + 1 + i = a + (i + 1) by omega]; exact hd⟩


end Sys2Proof.Machine
end

