-- ==== Sys2Proof/Tests/Slice0.lean ====
section
/-! SUPPORT. The model's own tests: the checks of WellFormed, a few of the manual's worked examples, and for each statement with
hypotheses a state and operands that meet them, so that no statement is empty. -/

open Sys2Proof Sys2Proof.Machine

namespace Sys2Proof.Tests

/- Each test is checked before the next is read: a test by decide would otherwise hold a thread while it waits for those before it. -/
set_option Elab.async false

/-- A single unit past step CLK whose endpoint serves, some time after reset. -/
def on : State :=
  { State.reset with
    heldReset := false
    pll := true
    tick := 10000000
    osc := 10000000
    host := { ready := true } }
/-- A state with register fields set. -/
def sets (s : State) (l : List (Nat × Fld × Nat)) : State := l.foldl (fun t e => t.set e.1 e.2.1 e.2.2) s
/-- A state with pages enabled. -/
def enab (s : State) (l : List Nat) : State := l.foldl (fun t p => t.set p R.PG_CTRL_EN 1) s
/-- What a command leaves. -/
def run (i : Instr) (s : State) : State := match exec i s with | .next t => t | _ => s

/-! ### WellFormed refuses -/

theorem test_wf_register_offset : Instr.wf (.registerWrite (.bar0 2) 0 15) = false ∧ Instr.wf (.registerWrite (.bar0 4) 0 15) = true := by decide
theorem test_wf_latching_offset : Instr.wf (.latchingRead (.bar0 1)) = false ∧ Instr.wf (.latchingRead (.bar0 8)) = true := by decide
theorem test_wf_aperture : Instr.wf (.apertureAccess 0x3FFFFFF (.read 2)) = false ∧ Instr.wf (.apertureAccess 0 (.write [])) = false ∧
    Instr.wf (.apertureAccess 0x3FFFFFF (.read 1)) = true := by decide
theorem test_wf_bar2 : Instr.wf (.bar2Access 0xFFFFFFFF (.read 2)) = false ∧ Instr.wf (.bar2Access 0 (.read 0)) = false ∧
    Instr.wf (.bar2Access 0xFFFFFFFF (.read 1)) = true := by decide
theorem test_wf_fence : Instr.wf (.fence 0x100 [] 0 0) = false ∧ Instr.wf (.fence 0x100 [0x13] 0 0) = false ∧
    Instr.wf (.fence 0x100 [0x21] 0 0) = true := by decide
theorem test_wf_telemetry : Instr.wf (.telemetryRecord 0 [0]) = false := by decide
theorem test_wf_state : Instr.wf (.state ⟨1, false, 0⟩ 0 0 0 [0] 0) = false := by decide
theorem test_wf_giveup : Instr.wf (.giveupMessage ⟨1, false, 0⟩ 0 []) = false := by decide
theorem test_wf_joindata : Instr.wf (.joinData ⟨1, false, 0⟩ 0 []) = false := by decide
theorem test_wf_digest : Instr.wf (.digest ⟨1, false, 0⟩ 0 true false false 0 0 0 [1]) = false := by decide
theorem test_wf_trim : Instr.wf (.trim ⟨1, false, 0⟩ 0 0 0 2 true false 0 6 0 [1]) = false ∧
    Instr.wf (.trim ⟨1, false, 0⟩ 0 0 0 1 true false 6 6 0 [1]) = false ∧
    Instr.wf (.trim ⟨1, false, 0⟩ 0 0 0 1 true false 5 6 0 [1]) = true := by decide
theorem test_wf_escan : Instr.wf (.escanEnd 0 [1, 2]) = false ∧ Instr.wf (.escanEnd 0 [1]) = true := by decide
theorem test_wf_slip : Instr.wf (.laneCmdSlip 0 66) = false ∧ Instr.wf (.laneCmdSlip 0 65) = true := by decide
theorem test_wf_block_lock_loss : Instr.wf (.blockLockLoss ⟨0, 0, 0⟩) = false ∧ Instr.wf (.blockLockLoss ⟨0, 17, 0⟩) = false ∧
    Instr.wf (.blockLockLoss ⟨0, 16, 49⟩) = false ∧ Instr.wf (.blockLockLoss ⟨0, 0, 1⟩) = true ∧ Instr.wf (.blockLockLoss ⟨0, 16, 48⟩) = true := by decide
theorem test_wf_prbs : Instr.wf (.prbsSync 0 ⟨false, 63⟩) = false ∧ Instr.wf (.prbsSync 0 ⟨false, 64⟩) = true := by decide
/-- What the SPD of a supported channel says, but for its DIMMs, ranks and rank size. -/
def spdOf (d r z : Nat) : SpdInfo := { dimms := d, ranksPerDimm := r, rankLog2 := z }
theorem test_wf_step_dram : Instr.wf (.stepDram []) = false ∧ Instr.wf (.stepDram [spdOf 3 1 34, spdOf 1 1 34, spdOf 1 1 34, spdOf 1 1 34]) = false ∧
    Instr.wf (.stepDram [spdOf 1 5 34, spdOf 1 1 34, spdOf 1 1 34, spdOf 1 1 34]) = false ∧
    Instr.wf (.stepDram [spdOf 1 1 64, spdOf 1 1 34, spdOf 1 1 34, spdOf 1 1 34]) = false := by decide
theorem test_wf_step_flash : Instr.wf (.stepFlash (some ⟨true, 64, true, true, true, true⟩)) = false := by decide
theorem test_wf_dma_burst : Instr.wf (.dmaBurst 0 (.ok (zeros 257))) = false ∧ Instr.wf (.dmaBurst 0 (.ok (zeros 256))) = true := by decide +kernel

/-! ### The manual's worked examples -/

/-- R74: the CRC-32 of "123456789" is 0xCBF43926. -/
theorem test_crc32_check : crc32 [0x31, 0x32, 0x33, 0x34, 0x35, 0x36, 0x37, 0x38, 0x39] = 0xCBF43926 := by decide +kernel
/-- R253: the CRC-16 of "123456789" is 0x29B1; it is taken over 8 bytes a pixel, so that the check here is of its polynomial. -/
theorem test_line_crc : crcMsb 16 0x1021 0xFFFF (([0x31, 0x32, 0x33, 0x34, 0x35, 0x36, 0x37, 0x38, 0x39] : List Nat).flatMap (bitsMsb 8 ·)) = 0x29B1 := by decide +kernel
/-- R35: PG_ID of HEAD57 reads 0x0102_39B0. -/
theorem test_pg_id : on.regWord 0x13A 0 = 0x010239B0 := by decide +kernel
/-- R55: the shadow nozzle word of bar 3, tile 9, nozzle 4,001 is at BAR0 offset 0x0115_9E84, word 354,209 of the nozzle table. -/
theorem test_table_window : placeOf 0x01159E84 = .table 0 false (354209) := by decide +kernel
/-- Chapter 5, FIRE of channel 57, line 1,029, claim 0xC5: the block with its CHK 0xC4. -/
theorem test_fire_block : fireBlock 57 0xC5 1029 = [0x4B, 0xC5, 0x05, 0x04, 0x00, 0x00, 0x39, 0xC4] := by decide +kernel
/-- Chapter 3, the raw line of the worked example: 16 everywhere but sample 32, which is 20. -/
def rawLine : List Byte := List.replicate 32 0x10 ++ [0x14] ++ List.replicate 2975 0x10
/-- Chapter 3, the record of bar 2, segment 4, KEY, SLINE 0: 73 bytes. -/
theorem test_record : ((encodeRaw ⟨2, 4, false, 0, false⟩ rawLine (zeros 3008) true false 0).1.take 27 =
      [0x49, 0x00, 0x44, 0x11, 0, 0, 0, 0, 0, 0, 0, 0, 0x00, 0xFF, 0xFF, 0xFF, 0x20, 0, 0, 0, 0x01, 0xFE, 0xFE, 0, 0, 0, 0]) ∧
    (encodeRaw ⟨2, 4, false, 0, false⟩ rawLine (zeros 3008) true false 0).1.drop 27 = List.replicate 46 0x40 := by decide +kernel

/-! ### Witnesses: the machine, the header, accesses -/

theorem test_witness_StepTakesFront : ({ on with pending := [.vclr] } : State).pending = .vclr :: [] := by decide +kernel
theorem test_witness_IdleStepIsATick : on.pending = [] ∧ on.ticks = true ∧ on.timeCmd = 0 ∧ on.enabled pTIME = true ∧
    on.get pTIME R.TIME_SLEW_LEFT = 0 ∧ (on.set pTIME R.TIME_SLEW_LEFT 1).get pTIME R.TIME_SLEW_LEFT ≠ 0 ∧
    (on.set pTIME R.PG_CTRL_EN 0).enabled pTIME = false ∧ on.dramWait = [] ∧ on.bells = [] ∧ on.ackDue = [] ∧ on.dma = [] ∧ on.job = [] ∧ on.dec = [] ∧
    ({ on with heldClock := true } : State).inReset = false ∧ ({ on with inReset := true } : State).pending = [] := by decide +kernel
theorem test_witness_ResetRegisters : blkOf 0 = some (.sys, 0) ∧ blkOf 0x29F = some (.lane, 159) := by decide +kernel
theorem test_witness_StepKeepsMemorySound : on.memSound ∧ on.fenceSound := by
  refine ⟨by unfold State.memSound; decide +kernel, fun p b i h _ => ?_⟩
  cases b <;> simp [State.fenced, State.flag, State.get, on, State.reset, RegMap.find, rst, h, R.PG_FENCE_FENCED, R.FEED_GRP_LEAD,
    R.CAM_COLS_K0, R.LANE_TXEQ_PRE, R.LANE_TXEQ_MAIN, R.LANE_TXEQ_POST]
theorem test_witness_EveryCommandGoesOn : Instr.mayStore .vclr = false := by decide
theorem test_witness_RegisterRowsAreRegisterWrites : on.hostWrite .timeCmdSet = some (pTIME, 0x70, 1) ∧ 1 < 2 ^ 32 ∧
    on.hostWrite (.calCmdGo 7) = some (pCAL, 0x40, 0x80000007) ∧ 0x80000007 < 2 ^ 32 := by decide +kernel
/-- Kind 1 needs an address of no register, which no such command has; a fenced page and one held for want of step CLK refuse. -/
theorem test_witness_RegisterRowsAreRegisterWrites_refused : State.reset.hostWrite (.pipeCopy 0 1) = some (pPIPE 0, 0x54, 1) ∧
    State.reset.hostServed = false ∧ on.hostWrite (.pipeCopy 0 1) = some (pPIPE 0, 0x54, 1) ∧
    (let s := on.set (pPIPE 0) R.PG_FENCE_FENCED 1
     s.hostServed = true ∧ s.writeIgnored (pPIPE 0) 0x54 1 15 = true ∧ s.writeKind (pPIPE 0) 0x54 1 15 = 5) ∧
    ({ on with heldReset := true } : State).writeIgnored (pPIPE 0) 0x54 1 15 = true ∧
    (sets on [(pPIPE 0, R.PG_FENCE_FENCED, 1)]).hostWrite (.pipeCopy 0 0) = some (pPIPE 0, 0x54, 0) := by decide +kernel
theorem test_witness_EnableWriteTakesEffect : blkOf (pENC 0) = some (.enc, 0) ∧ on.accepts (pENC 0) 4 1 ∧ on.fenced (pENC 0) = false ∧
    on.enFixed .enc 0 = false ∧ on.enabled (pENC 0) = false ∧ on.enFixed .sys 0 = true ∧ blkOf 0 = some (.sys, 0) ∧ on.accepts 0 4 1 ∧
    (blkOf pTIME = some (.time, 0) ∧ on.accepts pTIME 4 0 ∧ on.fenced pTIME = false ∧ on.enFixed .time 0 = false ∧ on.enabled pTIME = true) ∧
    (let s := on.set (pPOS 11) R.PG_CTRL_EN 0
     blkOf (pPOS 11) = some (.pos, 11) ∧ s.accepts (pPOS 11) 4 1 ∧ s.enFixed .pos 11 = false ∧ s.enabled (pPOS 11) = false) ∧
    (let s := enab on [pPIPE 7, pPOS 0]
     blkOf (pPIPE 7) = some (.pipe, 7) ∧ s.accepts (pPIPE 7) 4 0 ∧ s.enFixed .pipe 7 = false ∧ s.enabled (pPIPE 7) = true ∧
     s.accepts (pPOS 0) 4 0 ∧ s.enabled (pPOS 0) = true) := by
  unfold State.accepts; decide +kernel
/-- A LINE page whose source is not fenced, a HEAD page of a lane that is not idle, and DMA, BREATH and CAMC pages. -/
theorem test_witness_EnableWriteTakesEffect_blocks :
    (blkOf (pLINE 7) = some (.line, 7) ∧ on.accepts (pLINE 7) 4 1 ∧ on.enFixed .line 7 = false ∧ on.enabled (pLINE 7) = false ∧
      on.straps.pairEn = false ∧ on.fenced (pPOS (srcChannel 7 (on.lineSrc 7))) = false) ∧
    (blkOf (pHEAD 127) = some (.head, 127) ∧ on.accepts (pHEAD 127) 4 1 ∧ on.enFixed .head 127 = false ∧ on.enabled (pHEAD 127) = false ∧
      on.flag (pLANE 127) R.LANE_CTRL_EIDLE = false ∧ (on.laneAt 127).st ≠ 4) ∧
    (let s := enab on [pHEAD 0, pDMA 63, pBREATH, pCAMC]
     s.accepts (pHEAD 0) 4 0 ∧ s.enabled (pHEAD 0) = true ∧
     blkOf (pDMA 63) = some (.dma, 63) ∧ s.accepts (pDMA 63) 4 0 ∧ s.enFixed .dma 63 = false ∧ s.enabled (pDMA 63) = true ∧
     blkOf pBREATH = some (.breath, 0) ∧ s.accepts pBREATH 4 0 ∧ s.enFixed .breath 0 = false ∧ s.enabled pBREATH = true ∧
     blkOf pCAMC = some (.camc, 0) ∧ s.accepts pCAMC 4 0 ∧ s.enFixed .camc 0 = false ∧ s.enabled pCAMC = true ∧
     on.accepts pCAMC 4 1 ∧ on.enabled pCAMC = false) := by
  unfold State.accepts; decide +kernel
/-- Bar 0 with its LINE and PIPE pages running. -/
def lineOn : State := enab on [pLINE 0, pPIPE 0]
theorem test_witness_SoftResetAtTheWrite :
    (lineOn.accepts (pPIPE 0) 4 3 ∧ lineOn.fenced (pPIPE 0) = false ∧ lineOn.enabled (pPIPE 0) = true ∧ waitBar (pPIPE 0) = some 0 ∧
      lineOn.lineRuns 0 = true) ∧
    (on.accepts (pENC 7) 4 2 ∧ on.fenced (pENC 7) = false ∧ waitBar (pENC 7) = none ∧ on.straps.pairEn = false) ∧
    ((on.set (pENC 7) R.PG_FENCE_FENCED 1).accepts (pENC 7) 4 16 ∧ (on.set (pENC 7) R.PG_FENCE_FENCED 1).fenced (pENC 7) = true) ∧
    ((on.set (pENC 0) R.PG_FENCE_FENCED 1).accepts (pENC 0) 4 19 ∧ on.accepts (pENC 0) 4 3) ∧
    (noLate (on.set (pENC 7) R.PG_FENCE_FENCED 1) (pENC 7) ∧
      (let s := ({ on with lateCause := [(pENC 7, (10000000, [0xF1], 2, 3))] } : State).set (pENC 7) R.PG_FENCE_FENCED 1
       s.accepts (pENC 7) 4 16 ∧ s.fenced (pENC 7) = true ∧ s.lateCause.has (pENC 7) = true ∧
         (s.lateCause.getD (pENC 7) (0, [], 0, 0)).1 = s.tick)) := by
  unfold State.accepts noLate; decide +kernel
/-- A soft reset that waits on PIPE0, asked for at the given tick. -/
def waits (s : State) (since : Nat) (due : Bool) : State := { s with srsts := [(pPIPE 0, { since := since, due := due })] }
theorem test_witness_SoftResetStartsAndCompletes :
    (waits lineOn 9999999 true).softWaits (pPIPE 0) = true ∧ waitBar (pPIPE 0) = some 0 ∧
    ((waits lineOn 9999999 true).srsts.getD (pPIPE 0) {}).due = true ∧ (waits on 9999999 false).lineRuns 0 = false ∧
    ((waits lineOn 9999999 false).srsts.getD (pPIPE 0) {}).due = false ∧ (waits lineOn 9999999 false).lineRuns 0 = true ∧
    ((waits lineOn (10000000 - 2605) false).srsts.getD (pPIPE 0) {}).since + nsTicks 16670 ≤ lineOn.tick ∧
    lineOn.tick < ((waits lineOn (10000000 - 2604) false).srsts.getD (pPIPE 0) {}).since + nsTicks 16670 ∧
    ({ on with srsts := [(pPIPE 0, { running := true })] } : State).srsts.has (pPIPE 0) = true ∧
    (({ on with srsts := [(pPIPE 0, { running := true })] } : State).srsts.getD (pPIPE 0) {}).running = true ∧
    on.held (pPIPE 0) = false ∧ on.softWaits (pPIPE 0) = false ∧ on.srsts.has (pPIPE 0) = false := by decide +kernel
/-- Fence causes of a HEAD page in soft reset: its lane is not fenced, and then it is; a page held for want of step CLK. -/
theorem test_witness_SoftResetStartsAndCompletes_causes :
    (let s : State := { on with srsts := [(pHEAD 0, { running := true, causes := [0x20, 0x21] })] }
     blkOf (pHEAD 0) = some (.head, 0) ∧ s.srsts.has (pHEAD 0) = true ∧ (s.srsts.getD (pHEAD 0) {}).running = true ∧
       s.held (pHEAD 0) = false ∧ (s.srsts.getD (pHEAD 0) {}).causes ≠ [] ∧
       (s.srsts.getD (pHEAD 0) {}).causes.filter (s.stillPresent .head 0 ·) = []) ∧
    (let s : State := ({ on with srsts := [(pHEAD 0, { running := true, causes := [0x22, 0x21, 0x20] })] } : State).set (pLANE 0) R.PG_FENCE_FENCED 1
     s.held (pHEAD 0) = false ∧ neverFences .head 0 = false ∧ s.fenced (pHEAD 0) = false ∧
       (s.srsts.getD (pHEAD 0) {}).causes.filter (s.stillPresent .head 0 ·) = [0x21, 0x20]) ∧
    ({ on with heldReset := true, srsts := [(pPIPE 0, { running := true })] } : State).held (pPIPE 0) = true := by decide +kernel
theorem test_witness_FenceShowsInTheHeader : blkOf (pENC 0) = some (.enc, 0) ∧ on.inReset = false ∧ on.held (pENC 0) = false ∧
    neverFences .time 0 = true ∧ blkOf pTIME = some (.time, 0) ∧ on.held pTIME = false ∧ on.straps.pairEn = false ∧
    ([0xF1, 0x21, 0xF0].map (BitVec.toNat (w := 8))).filter (on.meets (pENC 0) ·) = [0xF1, 0xF0] ∧
    ([0xFF].map (BitVec.toNat (w := 8))).filter (on.meets pTIME ·) = [0xFF] ∧ on.meets (pENC 0) 0x21 = false ∧
    (let s := enab on [pENC 0, pPIPE 0]
     s.enabled (pENC 0) = true ∧ s.fenced (pENC 0) = false ∧ s.srsts.has (pENC 0) = false ∧ s.get (pENC 0) R.PG_ERR_CNT = 0 ∧
     s.meets (pPIPE 0) 0x11 = true ∧ s.enabled (pPIPE 0) = true) ∧ on.enabled (pENC 0) = false ∧
    (let s := { enab on [pENC 0] with srsts := [(pENC 0, {})] }
     s.held (pENC 0) = false ∧ s.srsts.has (pENC 0) = true ∧ s.enabled (pENC 0) = true ∧ s.meets (pENC 0) 0xF0 = true) ∧
    (let s := { enab on [pLANE 0] with lane := [(0, { st := 3 })] }
     s.meets (pLANE 0) 0x20 = true ∧ s.meets (pLANE 0) 0x21 = true ∧ s.meets (pLANE 0) 0x23 = false) ∧ on.meets (pLANE 128) 0xF0 = true := by
  decide +kernel
/-- A page that is held, or fenced, at this core cycle or before it, or in a soft reset that runs; and a HEAD and a PIPE page with a line in
flight. -/
theorem test_witness_FenceShowsInTheHeader_kinds :
    (let s : State := { on with heldReset := true }
     s.inReset = false ∧ s.held (pENC 0) = true ∧ s.fenced (pENC 0) = false ∧ s.meets (pENC 0) 0xF0 = true ∧
       s.held (pLANE 128) = true ∧ neverFences .lane 128 = true ∧ s.meets (pLANE 128) 0xF0 = true) ∧
    (let s := on.set (pENC 0) R.PG_FENCE_FENCED 1
     s.fenced (pENC 0) = true ∧ s.fencedNow (pENC 0) = false ∧ s.meets (pENC 0) 0xF0 = true) ∧
    (let s := ({ on with fenceAt := [(pENC 0, 10000000)] } : State).set (pENC 0) R.PG_FENCE_FENCED 1
     s.fenced (pENC 0) = true ∧ s.fencedNow (pENC 0) = true ∧ s.meets (pENC 0) 0xF0 = true) ∧
    (let s : State := { on with srsts := [(pENC 0, { running := true })] }
     s.held (pENC 0) = false ∧ s.srsts.has (pENC 0) = true ∧ (s.srsts.getD (pENC 0) {}).running = true ∧ s.fenced (pENC 0) = false) := by
  decide +kernel
theorem test_witness_ClearingAndLockingWrites : on.accepts (pENC 0) 0x10 0x1F ∧ on.accepts (pENC 0) 0x10 2 ∧
    on.accepts (pENC 0) 0x34 0xA5A ∧ on.accepts (pENC 0) 0x34 0 ∧ on.accepts pSYS 0x10C 1 ∧ on.accepts pSYS 0x10C 2 := by
  unfold State.accepts; decide +kernel
theorem test_witness_CommitTakesEffect : blkOf (pLINE 0) = some (.line, 0) ∧ on.accepts (pLINE 0) 0x2C 0xFF03 ∧
    on.accepts (pLINE 0) 0x2C 1 ∧ on.enabled (pLINE 0) = false ∧ Blk.line.rwsIds true true ≠ [] ∧
    lineOn.accepts (pLINE 0) 0x2C 0xFF03 ∧ lineOn.enabled (pLINE 0) = true ∧ waitsCommit .line 0 = true ∧ lineCommit .line 0 = true ∧
    on.accepts pHEADC 0x2C 0xFF01 ∧ on.enabled pHEADC = false ∧
    (enab lineOn [pHEADC]).accepts pHEADC 0x2C 0xFF01 ∧ (enab lineOn [pHEADC]).enabled pHEADC = true ∧
    (enab lineOn [pHEADC]).lineRuns 0 = true ∧ (enab lineOn [pHEADC]).lineRuns 7 = false := by
  unfold State.accepts; decide +kernel

/-! ### Witnesses: reads and windows, time base, host interface, positions -/

theorem test_witness_RegisterWriteStores : on.hostServed = true ∧ placeOf 0x3FFFF8 = .reg 0x3FF 0xFF8 ∧ blkOf 0x3FF = none ∧
    placeOf 0x400000 = .nowhere ∧ blkOf pSCRUB = some (.scrub, 0) ∧ fieldsAt .scrub 0 0xFFC = [] ∧
    blkOf pBREATH = some (.breath, 0) ∧ on.writeIgnored 0x3FF 0xFF8 1 15 = true ∧ on.writeKind 0x3FF 0xFF8 1 15 = 1 ∧
    (on.writeIgnored (pLANE 136) 0x60 0 15 = true ∧ on.writeKind (pLANE 136) 0x60 0 15 = 0) ∧
    (on.writeIgnored (pLINE 0) 0x40 0xFFFFFFFF 15 = false ∧ on.writeKind (pLINE 0) 0x40 0xFFFFFFFF 15 = 3) ∧
    on.writeIgnored pSCRUB 0x54 1 15 = false ∧ on.writeKind pSCRUB 0x54 1 15 = 0 ∧
    placeOf 0x01159E84 = .table 0 false 354209 ∧ placeOf 0x01459E84 = .table 0 true 354209 ∧ placeOf 0x07FFFFFC = .aperture 0x3FFFFFC ∧
    (({ on with pipe := [(2, { copy := some (1, 0) })] } : State).pipeAt (4 * 354209 / tabSize 0)).copy = (if 4 * 354209 / tabSize 0 = 2 then some (1, 0) else none) ∧
    State.reset.inReset = false ∧ State.reset.host.ready = false ∧ on.host.ready = true ∧ on.inReset = false := by decide +kernel
/-- A register of one RW field that commands nothing and owns nothing: the compare target of SCRUB's pacing. -/
theorem test_witness_RegisterWriteStores_field : ∃ off f, 0x38 ≤ off ∧ off < 0x1000 ∧ off % 4 = 0 ∧ fieldsAt .scrub 0 off = [f] ∧ f.acc = .rw ∧
    on.accepts pSCRUB off 1 := ⟨0x54, R.SCRUB_GAP, by unfold State.accepts; decide +kernel⟩
theorem test_witness_LatchingReadReturns : on.hostServed = true ∧ placeOf (0x1000 * pTIME + 0x40) = .reg pTIME 0x40 ∧
    blkOf pTIME = some (.time, 0) ∧ implemented .time 0 0x40 = true ∧ isPartner .time 0x40 = false ∧ isPartner .time 0x44 = true ∧ blkOf 0x3FF = none ∧
    placeOf 0x3FF000 = .reg 0x3FF 0 ∧ placeOf 0x07FFFFFC = .aperture 0x3FFFFFC ∧ placeOf 0x01159E84 = .table 0 false 354209 ∧
    placeOf 0x01459E84 = .table 0 true 354209 ∧ Memory.wf [((0 : Nat), (5 : Byte)), (1, 6)] = true ∧
    State.reset.inReset = false ∧ State.reset.host.ready = false ∧ State.reset.hostServed = false ∧ on.inReset = false ∧ on.host.ready = true ∧
    ({ on with inReset := true } : State).inReset = true := by decide +kernel
theorem test_witness_TimeNowReadsAgree : on.hostServed = true ∧ (0x1000 * pTIME + 0x48) < 2 ^ 27 ∧ on.cNs < 2 ^ 64 ∧ on.cFrac < 2 ^ 32 ∧
    ({ on with tick := 20000000 } : State).hostServed = true := by decide +kernel
theorem test_witness_ApertureStoresAndReads : on.hostServed = true ∧ (0x3FFFFFF : BitVec 26).toNat + 1 ≤ lsSize ∧
    (0 : BitVec 26).toNat + 2 ≤ lsSize ∧
    ({ on with lstore := [(0, 5), (1, 6)] } : State).lsErr.getD 1 0 = 0 ∧ Memory.get [((0 : Nat), (5 : Byte)), (1, 6)] 1 = some 6 ∧
    Memory.wf [((0 : Nat), (5 : Byte)), (1, 6)] = true := by decide +kernel
/-- Four channels of one DIMM and one rank of 2^34 bytes each, trained, none written. -/
def mem : State :=
  { on with
    boot := { spd := List.replicate 4 (spdOf 1 1 34) }
    dram := [(0, { trained := true }), (1, { trained := true }), (2, { trained := true }), (3, { trained := true })] }
theorem test_witness_Bar2Window : mem.hostServed = true ∧ (0 : W32).toNat + 64 ≤ 2 ^ 32 ∧ mem.dramGood (mem.hostWin + 0) 64 = 64 ∧
    mem.dramServed 6 0 64 0x48 = true ∧ mem.bar2Waits = false ∧
    on.dramGood (on.hostWin + 0) 64 = 0 ∧ (0xFFFFFFFF : W32).toNat + 1 ≤ 2 ^ 32 ∧
    (mem.set pHOSTIF R.HOSTIF_WIN_HI 31).dramGood ((mem.set pHOSTIF R.HOSTIF_WIN_HI 31).hostWin + 0) 1 = 0 ∧
    (mem.set pHOSTIF R.HOSTIF_WIN_HI 31).hostServed = true ∧
    (let s := { mem with dramWait := [.read 0 64 0] }
     s.hostServed = true ∧ s.bar2Waits = true ∧ s.dramGood 0 64 = 64) ∧
    (let s := { mem with dram := (0, { trained := true, alert := some 5 }) :: mem.dram.tail }
     s.dramServed 6 0 64 0x48 = false ∧ s.dramGood 0 64 = 64) ∧
    ({ mem with host := {} } : State).hostServed = false := by decide +kernel
theorem test_witness_TimeCommands : on.accepts pTIME 0x70 1 ∧ on.accepts pTIME 0x70 2 ∧ on.accepts pTIME 0x70 4 ∧ on.accepts pTIME 0x70 8 ∧
    on.pending = [] ∧ on.ticks = true ∧ on.enabled pTIME = true ∧ ({ on with timeCmd := 1 } : State).timeCmd = 1 ∧
    on.fenced pTIME = false ∧ (on.set pTIME R.PG_CTRL_EN 0).enabled pTIME = false ∧ ({ on with timeCmd := 8 } : State).timeCmd = 8 ∧
    on.get pTIME R.TIME_SLEW_LEFT = 0 ∧ (on.set pTIME R.TIME_SLEW_N 3).get pTIME R.TIME_SLEW_N ≠ 0 ∧
    (on.set pTIME R.TIME_SLEW_LEFT 1).get pTIME R.TIME_SLEW_LEFT = 1 := by unfold State.accepts; decide +kernel
/-- Unit 0 armed for a moment in the past. -/
def armed0 : State := { on with cmpAt := [(0, (0, 5))] }
theorem test_witness_CompareUnits : on.accepts pTIME 0x104 0xFFFFFFFF ∧ on.accepts pTIME (0x104 + 16 * 15) 0 ∧ on.accepts pTIME 0x108 1 ∧
    on.get pTIME (R.TIME_CMP_CTRL_SW_EN.nth 16 0) = 0 ∧ on.cmpDue 0 = false ∧ armed0.cmpDue 0 = true ∧ armed0.unitOwner 0 ≤ 1 ∧
    armed0.accepts pTIME 0x104 7 ∧ armed0.cmpReload (armed0.unitOwner 0) = 0 ∧
    (sets (enab armed0 [pBREATH]) [(pBREATH, R.BREATH_CFG_CMP_EN, 1), (pBREATH, R.BREATH_CFG_CMP, 0)]).cmpReload
      ((sets (enab armed0 [pBREATH]) [(pBREATH, R.BREATH_CFG_CMP_EN, 1), (pBREATH, R.BREATH_CFG_CMP, 0)]).unitOwner 0) ≠ 0 ∧
    ({ on with pulses := [(1, 10000000)] } : State).pulses.has 1 = true ∧
    ({ on with pulses := [(1, 10000000)] } : State).pulses.getD 1 0 ≤ on.tick := by unfold State.accepts; decide +kernel
/-- BREATH's unit is due, before the first update and after it, with no bar included. -/
theorem test_witness_CompareUnits_breath :
    (let s := sets (enab armed0 [pBREATH]) [(pBREATH, R.BREATH_CFG_CMP_EN, 1), (pBREATH, R.BREATH_CFG_CMP, 0)]
     s.cmpDue 0 = true ∧ s.unitOwner 0 = 5 ∧ s.working pBREATH = true ∧ s.straps.pairEn = false ∧ s.commits.has pBREATH = false ∧
       s.flag pTHERM R.THERM_STAT_TRIP = false ∧ s.breath.first = true ∧ ∀ b < 8, s.breathIncl b = false) ∧
    (let s := sets (enab { armed0 with breath := { first := false } } [pBREATH])
       [(pBREATH, R.BREATH_CFG_CMP_EN, 1), (pBREATH, R.BREATH_CFG_CMP, 0), (pBREATH, R.BREATH_CEIL_CEIL, 1000)]
     s.cmpDue 0 = true ∧ s.unitOwner 0 = 5 ∧ s.working pBREATH = true ∧ s.breath.first = false ∧
       0 < min (min (s.ap pBREATH R.BREATH_SW) 120000) (min (s.ap pBREATH R.BREATH_MAX) 120000) ∧
       s.get pBREATH R.BREATH_CEIL_CEIL + min (s.ap pBREATH R.BREATH_RISE) 120000 <
         min (min (s.ap pBREATH R.BREATH_SW) 120000) (min (s.ap pBREATH R.BREATH_MAX) 120000)) := by decide +kernel
theorem test_witness_CompareUnits_sound : armed0.fenceSound := by
  intro p b i h _
  cases b <;> simp [State.fenced, State.flag, State.get, armed0, on, State.reset, RegMap.find, rst, h, R.PG_FENCE_FENCED, R.FEED_GRP_LEAD,
    R.CAM_COLS_K0, R.LANE_TXEQ_PRE, R.LANE_TXEQ_MAIN, R.LANE_TXEQ_POST]
/-- Vector 3 waits, unmasked, MSI-X enabled. -/
def vec3 : State :=
  sets { on with host := { ready := true, waiting := [3] } } [(pHOSTIF, R.HOSTIF_LINK_MSIX_EN, 1), (pHOSTIF, R.MSIX_MASK.nth 16 3, 0)]
theorem test_witness_MsixMessages : vec3.host.waiting.contains 3 = true ∧ vec3.msixOpen 3 = true ∧ vec3.msixHeld 3 = false ∧
    vec3.flag pTIME R.TIME_SNAP_CFG_EN = false ∧
    (let s := sets vec3 [(pTIME, R.TIME_SNAP_CFG_EN, 1), (pTIME, R.TIME_SNAP_CFG_VEC, 3)]
     s.host.waiting.contains 3 = true ∧ s.msixOpen 3 = true ∧ s.msixHeld 3 = false ∧ s.flag pTIME R.TIME_SNAP_CFG_EN = true ∧
       s.get pTIME R.TIME_SNAP_CFG_VEC = 3) ∧
    (sets { vec3 with host := { vec3.host with sentAt := [(3, 9000000)] } } [(pHOSTIF, R.HOSTIF_COAL, 100)]).get pHOSTIF R.HOSTIF_COAL ≠ 0 ∧
    (sets { vec3 with host := { vec3.host with sentAt := [(3, 9000000)] } } [(pHOSTIF, R.HOSTIF_COAL, 100)]).msixHeld 3 = false ∧
    (sets { vec3 with host := { vec3.host with sentAt := [(3, 9999999)] } } [(pHOSTIF, R.HOSTIF_COAL, 100)]).msixHeld 3 = true ∧
    on.host.waiting.contains 3 = false ∧ on.msixOpen 3 = false ∧ vec3.get pTIME R.TIME_SNAP_CFG_VEC = 0 ∧
    ({ vec3 with host := { vec3.host with sentAt := [(3, 9000000)] } } : State).host.sentAt.has 3 = true := by decide +kernel
theorem test_witness_EndpointComesAndGoes : on.inReset = false ∧ on.flag pHOSTIF R.HOSTIF_LINK_UP = false ∧
    (sets on [(pHOSTIF, R.HOSTIF_LINK_UP, 1), (pHOSTIF, R.HOSTIF_LINK_BME, 1)]).flag pHOSTIF R.HOSTIF_LINK_UP = true ∧
    (sets on [(pHOSTIF, R.HOSTIF_LINK_UP, 1), (pHOSTIF, R.HOSTIF_LINK_BME, 1)]).flag pHOSTIF R.HOSTIF_LINK_BME = true ∧
    pcieKeeps R.HOSTIF_FAULT_EN.id = true ∧ pcieKeeps R.HOSTIF_LINK_BME.id = false ∧ ({ on with inReset := true } : State).inReset = true := by
  decide +kernel
/-- The position channels count. -/
def posOn : State := { on with posStarted := true }
theorem test_witness_CountUpdates : posOn.posCounts 0 = true ∧ posOn.posCounts 9 = true ∧ quadStep false false true false = some 1 ∧
    quadStep false false false true = some (-1) ∧ quadStep false false true true = some 0 ∧ quadStep false false false false = none ∧
    on.posCounts 0 = false ∧ (max 1 ((sets posOn [(pPOS 0, R.POS_HYST, 1)]).get (pPOS 0) R.POS_HYST) : Int) ≤ diff32 1 0 * 1 ∧
    (sets posOn [(pPOS 0, R.POS_HYST, 2)]).posCounts 0 = true ∧
    (let s := enab posOn [pLINE 0]
     s.lineRuns 0 = true ∧ srcChannel 0 (s.lineAt 0).src = 0) := by decide +kernel
/-- Speeds: out of standstill, after a turn, and the second update of a run, at a later tick and at the same one. -/
theorem test_witness_CountUpdates_speed : (posOn.posAt 0).still = true ∧ (posOn.posAt 0).dir = false ∧
    (let s : State := { posOn with pos := [(0, { still := false, newDir := true })] }
     s.posCounts 0 = true ∧ (s.posAt 0).still = false ∧ (s.posAt 0).newDir = true ∧
       diff32 (s.get (pPOS 0) R.POS_TURN) (uns 32 (-1)) < max 1 ((s.set (pPOS 0) R.POS_HYST 9).get (pPOS 0) R.POS_HYST)) ∧
    (let s : State := { posOn with pos := [(0, { still := false, hist := [(9999000, 0)] })] }
     s.posCounts 0 = true ∧ (s.posAt 0).still = false ∧ (s.posAt 0).newDir = false ∧
       ((s.posAt 0).hist ++ [(s.tick, 1)]).drop ((s.posAt 0).hist.length + 1 - (2 ^ s.get (pPOS 0) R.POS_SPD_CFG + 1)) =
         (9999000, 0) :: (10000000, 1) :: [] ∧ 9999000 < s.tick ∧ ¬ s.tick < 10000000) := by decide +kernel
theorem test_witness_IndexAndSignalEvents : posOn.posCounts 2 = true ∧
    (posOn.set (pPOS 2) R.POS_CTRL_IDX_EN 1).flag (pPOS 2) R.POS_CTRL_IDX_EN = true ∧ (posOn.posAt 2).latches = 0 ∧
    (let s := sets { posOn with pos := [(9, { latches := 1, still := false })] } [(pPOS 9, R.POS_CTRL_IDX_EN, 1), (pPOS 9, R.POS_CNT, 100000)]
     s.posCounts 9 = true ∧ (s.posAt 9).latches ≠ 0 ∧ s.flag (pPOS 9) R.POS_IDX_STAT_LAST_DIR = false ∧ (s.posAt 9).dir = false ∧
      (s.posAt 9).revSince = false ∧ s.get (pPOS 9) R.POS_IDX_TOL <
        (diff32 (s.get (pPOS 9) R.POS_CNT) (s.get (pPOS 9) R.POS_IDX_LAT) - sgn 32 (s.get (pPOS 9) R.POS_IDX_NOM)).natAbs ∧
      (s.posAt 9).still = false ∧ (s.posAt 9).lastUpd + s.get (pPOS 9) R.POS_STILL_TO ≤ s.tick) ∧
    posOn.held (pPOS 0) = false ∧ posOn.srsts.has (pPOS 0) = false ∧ posOn.straps.pairEn = false ∧ posOn.lineRuns 0 = false ∧
    (let s : State := { posOn with srsts := [(pPOS 0, { running := true })] }
     s.posStarted = true ∧ s.shut = false ∧ s.enabled (pPOS 0) = true ∧ s.fenced (pPOS 0) = false ∧ s.srstBusy (pPOS 0) = true) ∧
    (let s := { enab posOn [pLINE 0] with line := [(0, { failover := true })] }
     s.posCounts 0 = true ∧ s.lineRuns 0 = true ∧ srcChannel 0 (s.lineAt 0).src = 0 ∧ (s.lineAt 0).failover = true ∧
       (s.lineAt 0).src ≠ 2 ∧ s.fenced (pPOS 1) = false ∧ s.srsts.has (pLINE 0) = false) ∧
    ((enab posOn [pLINE 0]).lineAt 0).failover = false ∧
    on.inReset = false ∧ 156250 ≤ on.tick ∧ State.reset.tick < 156250 := by decide +kernel
/-- P10 with a transfer running since tick 9,999,000. -/
def serial : State := { posOn with pos := [(10, { xfer := some (9999000, 7), xferAt := 9999000, lastStart := some 9990000 })] }
theorem test_witness_SerialTransfers : serial.posCounts 10 = true ∧ (serial.posAt 10).xferAt = 9999000 ∧
    9990000 + (sets serial [(pPOS 10, R.POS_SER_CFG_PER, 1563)]).get (pPOS 10) R.POS_SER_CFG_PER ≤ serial.osc ∧
    (serial.posAt 10).xfer = some (9999000, 7) ∧ crc8 (bitsMsb 33 ((0 : BitVec 41).toNat / 256)) = (0 : BitVec 41).toNat % 256 ∧
    crc8 (bitsMsb 33 ((1 : BitVec 41).toNat / 256)) ≠ (1 : BitVec 41).toNat % 256 ∧
    (serial.set (pPOS 10) R.POS_SER_LIM 0).get (pPOS 10) R.POS_SER_LIM = 0 ∧
    (let s := sets serial [(pPOS 10, R.POS_SER_LIM, 1)]
     s.get (pPOS 10) R.POS_SER_LIM ≤ (s.posAt 10).fails + 1 ∧ s.held (pPOS 10) = false ∧ s.srsts.has (pPOS 10) = false) ∧
    (serial.set (pPOS 10) R.POS_SER_CFG_PER 20000).osc < 9990000 + (serial.set (pPOS 10) R.POS_SER_CFG_PER 20000).get (pPOS 10) R.POS_SER_CFG_PER ∧
    ({ serial with posStarted := false } : State).posCounts 10 = false ∧ (posOn.posAt 10).xfer = none ∧ (posOn.posAt 10).lastStart = none ∧
    ({ serial with osc := 9999001 } : State).osc < 9999000 + 31 * (max 3 (serial.get (pPOS 10) R.POS_SER_CFG_DIV) + 1) ∧
    9999000 + 31 * (max 3 (serial.get (pPOS 10) R.POS_SER_CFG_DIV) + 1) ≤ serial.osc := by decide +kernel
theorem test_witness_SerialTransfers_error : ∃ w : BitVec 41, crc8 (bitsMsb 33 (w.toNat / 256)) = w.toNat % 256 ∧ bit w.toNat 8 = true :=
  ⟨BitVec.ofNat 41 (256 + crc8 (bitsMsb 33 1)), by decide +kernel⟩
theorem test_witness_PositionCompares : on.accepts (pPOS 0) 0x80 0xFFFFFFFF ∧ on.accepts (pPOS 11) 0x84 0 ∧ on.accepts (pPOS 0) 0x88 3 ∧
    posOn.posCounts 0 = true ∧ (({ posOn with pos := [(0, { due0 := some 5, due1 := some 6 })] } : State).posAt 0).due0 = some 5 ∧
    (({ posOn with pos := [(0, { due0 := some 5, due1 := some 6 })] } : State).posAt 0).due1 = some 6 ∧
    quadStep false false true false = some 1 ∧ serial.posCounts 10 = true ∧ (serial.posAt 10).xfer = some (9999000, 7) ∧
    (posOn.posAt 0).due0 = none ∧ (posOn.posAt 0).due1 = none ∧ (serial.posAt 10).due0 = none := by
  unfold State.accepts; decide +kernel
theorem test_witness_PositionCompares_crossing :
    crosses (sets posOn [(pPOS 0, R.POS_CMP_STAT_ARMED0, 1), (pPOS 0, R.POS_CMP0, 1)]) 0 0 1 R.POS_CMP_STAT_ARMED0 R.POS_CMP_STAT_DIR0 R.POS_CMP0 ∧
    ¬ crosses (sets posOn [(pPOS 0, R.POS_CMP_STAT_ARMED0, 1), (pPOS 0, R.POS_CMP0, 2)]) 0 0 1 R.POS_CMP_STAT_ARMED0 R.POS_CMP_STAT_DIR0 R.POS_CMP0 := by
  unfold crosses; decide +kernel
theorem test_witness_GainAndAdjustment :
    (let s := sets { lineOn with line := [(0, { strDue := [5], src := 0, strSkip := false })] } [(pLINE 0, R.LINE_CTRL_STR_EN, 1), (pLINE 0, R.LINE_STR_NOM, 100)]
     (s.lineAt 0).strDue = 5 :: [] ∧ s.crookUp = false ∧ s.leads = false ∧ s.follows = false ∧ s.lineRuns 0 = true ∧ s.strRuns 0 = true ∧
      (s.lineAt 0).strSkip = false ∧ s.get (pLINE 0) R.LINE_STR_NOM ≠ 0 ∧ s.fenced (pPOS 2) = false) ∧
    (let s := sets { lineOn with line := [(0, { strDue := [5], strSkip := true })] } [(pLINE 0, R.LINE_CTRL_STR_EN, 1), (pLINE 0, R.LINE_STR_NOM, 0)]
     (s.lineAt 0).strSkip = true ∧ s.lineRuns 0 = true ∧ s.strRuns 0 = true ∧ s.get (pLINE 0) R.LINE_STR_NOM = 0) ∧
    (on.lineAt 0).strDue = [] ∧ on.lineRuns 0 = false ∧
    on.accepts (pLINE 0) 0x7C (2 ^ 31) ∧ on.accepts (pLINE 0) 0x7C (2 ^ 31 + 16) ∧ on.accepts (pLINE 0) 0x7C (2 ^ 31 + 48) ∧
    0 < diff32 ((on.set (pLINE 0) R.LINE_ADJ_LINE 5).get (pLINE 0) R.LINE_ADJ_LINE) (on.get (pLINE 0) R.LINE_SEQ) ∧
    (let s := on.set (pLINE 0) R.LINE_SEQ 7
     diff32 (s.get (pLINE 0) R.LINE_ADJ_LINE) (s.get (pLINE 0) R.LINE_SEQ) ≤ 0) := by unfold State.accepts; decide +kernel
/-! ### Witnesses: codec, pipelines, lines, heads, DMA, jobs -/

/-- An item of bar 0, segment 0, line 0 with 16 bytes, all zeros, and a check word that is wrong. -/
def item0 : List Byte := leBytes 2 16 ++ [0x01, 0] ++ zeros 12 ++ zeros 16
/-- Encoder 0 works, with the item at its input. -/
def encIn : State :=
  { enab on [pENC 0] with
    sinks := [(0x20, item0)]
    lstore := (List.range 16).map fun i => (stageAddr 0 (16 + i), 0) }
/-- The same with the first staged byte uncorrectable. -/
def encBad : State := { encIn with lsErr := [(stageAddr 0 16, 2)] }
/-- A memory whose listed bytes are all 0 reads 0 at each of them. -/
theorem get_zeros (l : List Nat) (a : Nat) (h : a ∈ l) : Memory.get (l.map fun x => (x, 0)) a = some 0 := by
  induction l with
  | nil => cases h
  | cons x r ih =>
    simp only [List.map_cons, Memory.get]
    split
    · rfl
    · rename_i hx; exact ih ((List.mem_cons.mp h).resolve_left fun e => hx e.symm)
theorem encIn_staged (i : Nat) (h : i < 16) : Memory.get encIn.lstore (stageAddr 0 (16 + i)) = some 0 := by
  have := get_zeros ((List.range 16).map fun i => stageAddr 0 (16 + i)) (stageAddr 0 (16 + i)) (List.mem_map_of_mem (List.mem_range.mpr h))
  rwa [List.map_map] at this
theorem encIn_room : encIn.encRoom 0 = true := by
  have h : encIn.queueBytes (0x28 + 0) = 0 := by decide +kernel
  simp only [State.encRoom, h, Config.queueCap, decide_eq_true_eq]
  rw [if_neg (by omega)]; omega
theorem test_witness_EncoderTakesAnItem : encIn.working (pENC 0) = true ∧ encIn.encRoom 0 = true ∧
    (∃ tag raw n, itemAt (encIn.sinks.getD (0x20 + (0 : Bar).val) []) = some (tag, raw, n) ∧
      inOrder (if bit (byteAt tag 3) 1 then (encIn.encAt 0).ordLive else (encIn.encAt 0).ordBase)
        (bit (byteAt tag 3) 1) (leAt tag 4 4) (byteAt tag 2 / 16) = true ∧ raw.length = leAt tag 0 2 ∧
      (∀ i < raw.length, Memory.get encIn.lstore (stageAddr 0 ((encIn.encAt 0).taken + 16 + i)) = raw[i]? ∧
        encIn.lsErr.getD (stageAddr 0 ((encIn.encAt 0).taken + 16 + i)) 0 = 0) ∧
      encContext encIn 0 (byteAt tag 2 / 16) (bit (byteAt tag 3) 1) (bit (byteAt tag 2) 0) (leAt tag 4 4) true [] ∧
      crc32 raw ≠ leAt tag 8 4) := by
  refine ⟨by decide +kernel, encIn_room, item0.take 16, (item0.drop 16).take 16, 32, by decide +kernel, by decide +kernel,
    by decide +kernel, fun i hi => ?_, Or.inl ⟨Or.inl (by decide +kernel), rfl⟩, by decide +kernel⟩
  have hi : i < 16 := hi
  have ht : (encIn.encAt 0).taken = 0 := by decide +kernel
  have hz : (item0.drop 16).take 16 = List.replicate 16 0 := by decide +kernel
  rw [ht, Nat.zero_add, hz]
  exact ⟨(encIn_staged i hi).trans (by rw [List.getElem?_replicate, if_pos hi]), rfl⟩
theorem test_witness_EncoderTakesAnItem_error : (encBad.encAt 0).taken = 0 ∧
    (Memory.get encBad.lstore (stageAddr 0 (0 + 16 + 0))).isSome = true ∧ encBad.lsErr.getD (stageAddr 0 (0 + 16 + 0)) 0 = 2 ∧
    (encBad.sinks = encIn.sinks ∧ encBad.regs = encIn.regs) ∧ on.working (pENC 0) = false ∧ itemAt ([] : List Byte) = none := by
  refine ⟨by decide +kernel, ?_, ?_, ⟨rfl, rfl⟩, by decide +kernel, by decide⟩
  · have := encIn_staged 0 (by decide)
    show (Memory.get encIn.lstore (stageAddr 0 (16 + 0))).isSome = true
    rw [this]; rfl
  · show (if stageAddr 0 16 = stageAddr 0 16 then 2 else 0) = 2
    rw [if_pos rfl]
/-- A context that holds line 4, and the item's SLINE 5 or 7 against it. -/
theorem test_witness_EncoderTakesAnItem_context :
    (let s : State := { on with
      enc := [(0, { ctxValid := 1 })]
      lstore := ((zeros 3008 ++ zeros 64 ++ leBytes 4 4).zipIdx.map fun x => (encCtx 0 0 false + x.2, x.1)) }
     bit (s.encAt 0).ctxValid (2 * 0 + b2n false) = true ∧ (zeros 3008).length = rawBytes false 0 ∧
       Memory.get s.lstore (encCtx 0 0 false + 0xC00) = some 4 ∧ Memory.get s.lstore (encCtx 0 0 false + 3007) = some 0 ∧
       keyForced s 0 (2 * 0 + b2n false) 5 = false ∧ ((4 + 1) % 2 ^ 32 != 5) = false ∧ ((4 + 1) % 2 ^ 32 != 7) = true) := by
  decide +kernel
theorem test_witness_EncoderTakesAnItem_order : inOrder (some (5, 3)) false 7 4 = false ∧ inOrder (some (5, 3)) false 5 4 = true := by decide
theorem test_witness_DecodingUndoesEncoding : (3 : Nat) < 8 ∧ (15 : Nat) < 16 ∧ 2 ^ 32 - 1 < 2 ^ 32 ∧
    (zeros (rawBytes true 15)).length = rawBytes true 15 ∧ (zeros (rawBytes false 15)).length = rawBytes false 15 ∧ 5 < 256 ∧ 250 < 256 := by
  decide +kernel
/-- A base job of eight lines at DRAM address 0. -/
def job0 : Job :=
  { addr := 0x1000, next := 0, last := true, profEn := false, prof := 0, start := true, fast := false, dot := false, maskMode := false
    liveEn := false, baseEn := true, irqDone := true, irqStart := false, baseAddr := 0, repLines := 8, repCount := 1, jobId := 7, livePos := 0
    maskAddr := 0, maskFixed := 0, first := 0 }
/-- A KEY record of segment 0 of line 0: 47 zero blocks, padded to whole bursts. -/
def rec0 : List Byte := [59, 0, 0x00, 0x11] ++ zeros 4 ++ [200, 231, 89, 212] ++ List.replicate 47 0x40 ++ zeros 69
/-- Decoder 0 has line 0 of the job open, its first record in DRAM. -/
def decOn : State :=
  { enab (mem.dramWrite 0 rec0 0) [pDEC 0] with
    job := [(0, { running := true, jobs := [job0] })]
    dec := [(0, { started := true, opened := true, laid := true })] }
theorem test_witness_DecoderTakesARecord : decOn.working (pDEC 0) = true ∧ (decOn.jobAt 0).running = true ∧ decOn.dramReady = true ∧
    (decOn.decSettle 0 300).decJob 0 = some job0 ∧ ((decOn.decSettle 0 300).decAt 0).opened = true ∧
    (decOn.decSettle 0 300).recordServed 0 job0 false = true ∧
    (decOn.decSettle 0 300).nextSeg 0 job0 false = some 0 ∧ ((decOn.decSettle 0 300).decAt 0).baseLost = false := by decide +kernel
set_option maxRecDepth 1000000 in
theorem test_witness_DecoderTakesARecord_bytes :
    (let t := decOn.decSettle 0 300
     let len := leNat (t.streamRead 0 job0 false 0 2).2.1
     (t.decAt 0).basePos = 0 ∧ recMin false 0 ≤ len ∧ len ≤ recMax false 0 ∧ (t.streamRead 0 job0 false 0 len).2.2 = true ∧
      bit (byteAt (t.streamRead 0 job0 false 0 len).2.1 3) 0 = true ∧
      (match decodeRaw (t.streamRead 0 job0 false 0 len).2.1 ⟨0, 0, false, (t.decAt 0).m % job0.repLines, false⟩ none with
        | .ok raw => raw.length == 3008
        | _ => false) = true) := by decide +kernel
/-- The bad line group: its record's LEN is out of bounds, or the layer's place is lost already, or nothing is laid or started. -/
theorem test_witness_DecoderTakesARecord_else :
    (let s : State := { enab (mem.dramWrite 0 (leBytes 2 9 ++ zeros 126) 0) [pDEC 0] with job := decOn.job, dec := decOn.dec }
     let t := s.decSettle 0 300
     leNat (t.streamRead 0 job0 false 0 2).2.1 < recMin false 0 ∧ (t.streamRead 0 job0 false 0 12).2.2 = true) ∧
    (let s := { decOn with dec := [(0, { started := true, opened := true, laid := true, baseLost := true })] }
     ((s.decSettle 0 300).decAt 0).baseLost = true ∧ (s.decSettle 0 300).nextSeg 0 job0 false = some 0) ∧
    on.working (pDEC 0) = false ∧
    (let s := { decOn with job := [(0, { running := true })] }
     (s.decSettle 0 300).decJob 0 = none ∧ s.working (pDEC 0) = true) := by decide +kernel
/-- A memory that lists n zeros from address k on. -/
def zeroCells (k n : Nat) : List Host.Cell := ((zeros n).zipIdx k).map fun x => (x.2, x.1)
theorem zeroCells_succ (k n : Nat) : zeroCells k (n + 1) = (k, 0) :: zeroCells (k + 1) n := by
  rw [zeroCells, show zeros (n + 1) = 0 :: zeros n from rfl, List.zipIdx_cons]; rfl
theorem zeroCells_get (n k a : Nat) (h1 : k ≤ a) (h2 : a < k + n) : Memory.get (zeroCells k n) a = some 0 := by
  induction n generalizing k with
  | zero => omega
  | succ n ih =>
    rw [zeroCells_succ, Memory.get]
    split
    · rfl
    · exact ih (k + 1) (by omega) (by omega)
theorem zeroCells_wf (n k : Nat) : Memory.wf (zeroCells k n) = true := by
  induction n generalizing k with
  | zero => rfl
  | succ n ih =>
    cases n with
    | zero => rfl
    | succ n =>
      have h := ih (k + 1)
      rw [zeroCells_succ] at h
      rw [zeroCells_succ, zeroCells_succ, Memory.wf, h, Bool.and_true, decide_eq_true_eq]
      exact Nat.lt_succ_self k
/-- Decoder 0 with line 0 open in a slot and these record bytes in DRAM. -/
def decWith (l : List Byte) (x : List Staged) : State :=
  { enab (mem.dramWrite 0 l 0) [pDEC 0] with
    job := decOn.job
    dec := [(0, { started := true, opened := true, laid := true, staged := x, slots := [{ idx := 0, m := 0, name := 0, first := 0, lastUse := 7 }] })] }
theorem test_witness_DecoderTakesARecord_sound : decSound (decWith rec0 []) 0 ∧
    (let t := (decWith rec0 []).decSettle 0 300
     t.stagedRec 0 job0 0 false = none ∧ t.decJob 0 = some job0 ∧ t.recordServed 0 job0 false = true ∧ t.nextSeg 0 job0 false = some 0 ∧
       ((t.decAt 0).slotOf job0.first 0).isSome = true ∧ (t.decAt 0).prints false 0 = true ∧ lenGood job0 0 59 = true) := by
  unfold decSound; decide +kernel
/-- A record read ahead into staging, of which byte 4 does not read clean. -/
def decStaged : State :=
  { decWith rec0 [⟨false, 0, 0, 0, 59, 59, true⟩] with lstore := zeroCells 0 lsSize, lsErr := [(stageAddr 8 4, 2)] }
set_option maxRecDepth 1000000 in
theorem test_witness_DecoderTakesARecord_staged :
    (decStaged.decSettle 0 300).stagedRec 0 job0 0 false = some ⟨false, 0, 0, 0, 59, 59, true⟩ ∧ Memory.wf decStaged.lstore = true ∧
      (decStaged.decSettle 0 300).lsErr.getD (stageAddr (8 + 0) (stagePlace false + 4)) 0 = 2 ∧
      (Memory.get (decStaged.decSettle 0 300).lstore (stageAddr (8 + 0) (stagePlace false + 4))).isSome = true := by
  refine ⟨by decide +kernel, zeroCells_wf lsSize 0, ?_, ?_⟩
  · rw [show (decStaged.decSettle 0 300).lsErr = [(stageAddr 8 4, 2)] by rfl]
    show (if stageAddr 8 4 = stageAddr 8 4 then 2 else 0) = 2
    rw [if_pos rfl]
  · rw [show (decStaged.decSettle 0 300).lstore = zeroCells 0 lsSize by rfl, zeroCells_get lsSize 0 _ (Nat.zero_le _) (by
      have : (Config.stageStart (8 + 0) + (stagePlace false + 4)) % 0x20000 < 0x20000 := Nat.mod_lt _ (by decide)
      simp only [stageAddr, lsSize]; omega)]
    rfl
set_option maxRecDepth 1000000 in
/-- The record names another segment, its CHECK is wrong, or it is not KEY and finds no context. -/
theorem test_witness_DecoderTakesARecord_bad :
    decodeRaw ([59, 0, 0x10, 0x11] ++ (rec0.drop 4).take 55) ⟨0, 0, false, 0, false⟩ none = .format ∧
    decodeRaw (rec0.take 8 ++ [0] ++ (rec0.drop 9).take 50) ⟨0, 0, false, 0, false⟩ none = .check ∧
    decodeRaw ([59, 0, 0x00, 0x10] ++ (rec0.drop 4).take 55) ⟨0, 0, false, 0, false⟩ none = .contextLost := by decide +kernel
/-- The ring of decoder 0 is laid out for dot mode, and its next job is contone. -/
def relay : State :=
  { enab mem [pDEC 0] with
    job := [(0, { running := true, jobs := [job0] })]
    dec := [(0, { laid := true, dot := true })] }
theorem test_witness_DecoderTakesARecord_relayout : relay.working (pDEC 0) = true ∧ (relay.jobAt 0).running = true ∧
    relay.dramReady = true ∧ (relay.decSettle 0 300).decJob 0 = some job0 ∧ ((relay.decSettle 0 300).decAt 0).started = false ∧
    ((relay.decSettle 0 300).decAt 0).laid = true ∧ ((relay.decSettle 0 300).decAt 0).dot ≠ job0.dot ∧
    ((relay.decSettle 0 300).decAt 0).slots = [] := by decide +kernel
/-- One unit of a pair with Crook up on LANE132: its strap HOME, its state and its partner's. -/
def paired (home : Bool) (st peer : Nat) : State :=
  sets (enab { on with
    straps := ⟨5, home, true⟩
    lane := [(132, { st := 3, cdr := true, block := true })]
    pair := { up := true, lastRx := 9999990 } } [pPAIR]) [(pPAIR, R.PAIR_STAT_STATE, st), (pPAIR, R.PAIR_STAT_PEER_STATE, peer)]
theorem test_witness_PipeCommandsTakeEffect : on.accepts (pENC 0) 0x40 (256 * on.get (pENC 0) R.ENC_CTRL_KEY_INT + 1) ∧
    on.get (pENC 0) R.ENC_CTRL_KEY_INT < 256 ∧ on.accepts (pPIPE 0) 0x4C (2 ^ 31) ∧ on.accepts (pPIPE 7) 0x4C (2 ^ 31 + 48 + 7) ∧
    (paired false 5 7).accepts (pPIPE 0) 0x4C (2 ^ 31 + 32 + 1) ∧ (paired false 5 7).follows = true ∧ on.crookUp = false ∧
    on.accepts (pPIPE 0) 0x54 7 ∧ on.accepts (pPIPE 0) 0x54 1 := by unfold State.accepts; decide +kernel
theorem test_witness_PipeCommandsTakeEffect_copy :
    (({ on with pipe := [(0, { copy := some (7, 0) })], lstore := [(tabAddr 0 0 0, 5)] } : State).pipeAt 0).copy = some (7, 0) ∧
    (({ on with pipe := [(0, { copy := some (7, 0) })], lstore := [(tabAddr 0 0 0, 5)] } : State).pipeAt 0).heldWrites = [] ∧
    bit 7 0 = true ∧ 0 < tabSize 0 ∧ on.activeCopy 0 0 = 0 ∧ (on.pipeAt 0).copy = none ∧ on.fenced (pPIPE 0) = false ∧
    (({ on with pipe := [(0, { copy := some (7, 0), heldWrites := [⟨0x100004, 5⟩] })] } : State).pipeAt 0).heldWrites = [] ++ [⟨0x100004, 5⟩] ∧
    Memory.get [(tabAddr 0 0 0, (5 : Byte))] (tabAddr 0 0 0 + 0) = some 5 := by
  decide +kernel
/-- An idle line in computation. -/
def idleWork : LineWork :=
  { line := 9, q := 0, idle := true, blank := false, held := false, jobStart := false, jobId := 0, dot := false, fast := false
    firstLine := false, lastLine := false, slot := 0, blankMask := 0, neigh := none, neighBlank := 0, clear := 0
    checks := [], ups := 0, baseV := 0, lvlCap := 3, stitchStart := 0, stitchWidth := 0, fallback := false, subEn := false
    histEn := false, active := 0, caps := 0, rows := List.replicate 16 (0, 0, 0), tBnd := 0 }
theorem test_witness_LinesAreHandedOver :
    (let s := enab { on with pipe := [(7, { work := some idleWork })] } [pPIPE 7]
     (s.pipeAt 7).work = some idleWork ∧ s.working (pPIPE 7) = true) ∧
    (({ on with pipe := [(7, { work := some idleWork })] } : State).pipeAt 7).work = some idleWork ∧ on.working (pPIPE 7) = false ∧
    (on.pipeAt 7).work = none ∧ (zeros 0xC000).length = 0xC000 := by decide +kernel
/-- Bar 7's pipeline computes a contone line, and every byte of the line store is 0 and reads clean. -/
def zeroed (w : LineWork) : State :=
  { enab { on with pipe := [(7, { work := some w })] } [pPIPE 7] with lstore := zeroCells 0 lsSize }
theorem zeroed_holds (w : LineWork) (a n : Nat) (h : a + n ≤ lsSize) : lsHolds (zeroed w) a (zeros n) := by
  intro i hi
  have hi : i < n := by rwa [zeros, List.length_replicate] at hi
  exact ⟨(zeroCells_get lsSize 0 (a + i) (by omega) (by omega)).trans (by rw [zeros, List.getElem?_replicate, if_pos hi]), rfl⟩
theorem test_witness_LinesAreHandedOver_history : Memory.wf (zeroed idleWork).lstore = true ∧ (zeros 0xC000).length = 0xC000 ∧
    lsHolds (zeroed idleWork) (histAddr 7) (zeros 0xC000) :=
  ⟨zeroCells_wf lsSize 0, List.length_replicate .., zeroed_holds _ _ _ (by decide +kernel)⟩
/-- A line that is neither idle, blank nor held. -/
def realWork : LineWork := { idleWork with idle := false }
theorem test_witness_LinesAreHandedOver_bytes : ((zeroed realWork).pipeAt 7).work = some realWork ∧ (zeroed realWork).working (pPIPE 7) = true ∧
    (realWork.idle = false ∧ realWork.blank = false ∧ realWork.held = false) ∧ ∃ l, lineBytes (zeroed realWork) 7 realWork l :=
  ⟨rfl, by decide +kernel, ⟨rfl, rfl, rfl⟩, ⟨zeros 0x60000, zeros 1024, zeros 0x100, zeros 0xC000, zeros 48192, []⟩,
    List.length_replicate .., zeroed_holds _ _ _ (by decide +kernel),
    fun _ => ⟨List.length_replicate .., zeroed_holds _ _ _ (by decide +kernel)⟩,
    List.length_replicate .., zeroed_holds _ _ _ (by decide +kernel), List.length_replicate .., zeroed_holds _ _ _ (by decide +kernel),
    List.length_replicate .., zeroed_holds _ _ _ (by decide +kernel), fun _ h => nomatch h⟩
/-- A fence that waited for the line finds LINE stopped. -/
theorem test_witness_LinesAreHandedOver_fence :
    (let s : State := { on with pipe := [(7, { fenceDue := some 0x11 })] }
     (s.pipeAt 7).fenceDue = some 0x11 ∧ s.lineRuns 7 = false ∧ s.fenced (pPIPE 7) = false ∧ (s.pipeAt 7).work = none) ∧
    (on.pipeAt 7).fenceDue = none := by decide +kernel
/-- Bar 7's line generator runs, with a line due. -/
def lineDue : State := { enab on [pLINE 7] with line := [(7, { due := true, early := 12 * 10000000 })] }
theorem test_witness_LineBoundariesIssueLines : lineDue.lineReadyToIssue 7 = true ∧ on.lineReadyToIssue 7 = false ∧
    ({ lineDue with line := [(7, { due := true, early := 12 * 10000000 + 1 })] } : State).lineReadyToIssue 7 = false ∧
    (lineDue.lineAt 7).tDue < lineDue.tick ∧
    (let s : State := { lineDue with line := [(7, { due := true, early := 12 * 10000000, lastTick := some 9999000, adj := some (16, 0, 0) })] }
     s.lineReadyToIssue 7 = true ∧ (s.lineAt 7).adj = some (16, 0, 0) ∧ (s.lineAt 7).lastTick = some 9999000) ∧
    (let s : State := { lineDue with line := [(7, { due := true, early := 12 * 10000000, adj := some (16, 1, 1) })] }
     s.lineReadyToIssue 7 = true ∧ (s.get (pLINE 7) R.LINE_SEQ + 1) % 2 ^ 32 = 1) := by decide +kernel
/-- Line 1 of bar 7 is to issue, with a commit on PIPE7, an armed swap and two TEMPs of channel 112 that wait, one at T_limit. -/
theorem test_witness_LineBoundariesIssueLines_applies :
    (let s : State := { lineDue with commits := [(pPIPE 7, { plain := true, at_ := 9999999 })] }
     let t := enab s [pPIPE 7]
     t.lineReadyToIssue 7 = true ∧ pPIPE 7 ∈ linePages 7 ∧ t.working (pPIPE 7) = true ∧ t.commits.has (pPIPE 7) = true ∧
       (t.commits.getD (pPIPE 7) {}).plain = true ∧ (t.commits.getD (pPIPE 7) {}).at_ < t.tick ∧
       (t.commits.getD (pPIPE 7) {}).hold = false) ∧
    (∀ a ∈ [(⟨0, 7, 0, false, false⟩ : ArmedSwap), ⟨1, 7, 1, false, false⟩, ⟨1, 7, 2, false, false⟩],
      let s : State := { lineDue with pipe := [(7, { armed := some a })] }
      s.lineReadyToIssue 7 = true ∧ (s.pipeAt 7).armed = some a ∧ s.resetting (pPIPE 7) = false ∧ (s.pipeAt 7).copy = none) ∧
    (let s := sets (enab { lineDue with head := [(112, { temps := [(0xFFFFFFFE, 100)], unsol := [30000] })] } [pHEAD 112])
       [(pHEADC, R.HEADC_TEMP_LIMIT, 1000)]
     s.enabled (pHEAD (16 * 7 + 0)) = true ∧ s.resetting (pHEAD 112) = false ∧
       tempsDue s 112 ((s.get (pLINE 7) R.LINE_SEQ + 1) % 2 ^ 32) = [100] ++ [30000] ∧ sgn 16 (s.get pHEADC R.HEADC_TEMP_LIMIT) ≤ 30000 ∧
       s.fenced (pHEAD 112) = false ∧ s.srstBusy (pHEAD 112) = false ∧ (s.headAt 112).fenceDue = none ∧ s.fenced (pLANE 112) = false) := by
  decide +kernel
/-- The next line is a job boundary line, of a job with a profile, and with CUR's profile due. -/
theorem test_witness_LineBoundariesIssueLines_profile :
    let s := sets { lineDue with
      job := [(7, { running := true, jobs := [{ job0 with profEn := true, prof := 7 }] })]
      prof := { loaded := true, images := [(7, [0x10, 7, 0x80])] } } [(pLINE 7, R.LINE_SEQ, 2 ^ 32 - 1), (pPROF, R.PROF_VALID_VALID, 0x80)]
    s.lineReadyToIssue 7 = true ∧
      (match s.jobOfLine 7 ((s.get (pLINE 7) R.LINE_SEQ + 1) % 2 ^ 32) with
        | some (j, q) => isBoundary j q && j.profEn && s.slotUsable j.prof && bit (byteAt (s.prof.images.getD j.prof []) 2) 7
        | none => false) = true ∧
      (∀ p ∈ profPages 7, s.commits.has p = false) ∧ s.prof.next = none ∧ s.prof.cur = none ∧
      (∀ c : Sel, c.line = 0 → 0 ≤ diff32 ((s.get (pLINE 7) R.LINE_SEQ + 1) % 2 ^ 32) c.line) := by
  refine ⟨by decide +kernel, by decide +kernel, by decide +kernel, rfl, rfl, fun c h => ?_⟩
  rw [h]; decide +kernel
/-- A blank tile-line and the frame that sends it. -/
def blankTile : TileLine :=
  { line := 9, q := 0, blank := true, held := false, cap := false, jobStart := false, wset := 0, rowbLines := 0, rowbFrac := 0
    jobId := 0, recQ := 0, last := false, codes := List.replicate 6144 0 }
def sending : Sending := { tl := blankTile, claim := 0xC5, d := 60, tap0 := 9999000 }
/-- Lane 127 enabled and UP. -/
def laneOn : State := { enab on [pLANE 127] with lane := [(127, { st := 3, cdr := true, block := true })] }
/-- Head channel 127 with a frame ready, or being sent, on that lane. -/
def headReady : State := { laneOn with head := [(127, { ready := [sending] })] }
def headCur (c : Sending) : State := { laneOn with head := [(127, { cur := some c })] }
theorem test_witness_FramesAndFire : headReady.laneSends 127 = true ∧ (headCur sending).laneSends 127 = true ∧ on.laneSends 127 = false ∧
    (headReady.headAt 127).cur = none ∧ (headReady.headAt 127).ready.length = 1 ∧
    headReady.startTick 127 sending ≤ headReady.tick ∧ headReady.tick < headReady.startTick 127 { sending with tap0 := 10000001 } ∧
    ((headCur { sending with start := 9999124 }).headAt 127).cur.map (·.ended) = some false ∧
    ({ sending with start := 9999124 } : Sending).start + 876 ≤ on.tick ∧ sending.tl.codes.length = 6144 ∧
    ((headCur { sending with ended := true }).headAt 127).cur.map (·.ended) = some true ∧ sending.noFire = false ∧
    (let c : Sending := { sending with ended := true, tap0 := 9990000, start := 9990000 }
     max c.fireTick c.endTick ≤ on.tick ∧ c.endTick ≤ c.fireTick) ∧
    (let c : Sending := { sending with ended := true, tap0 := 9990000, start := 9998000 }
     max c.fireTick c.endTick ≤ on.tick ∧ c.fireTick < c.endTick) := by decide +kernel
/-- A fence that waits for the last frame in flight, with LINE stopped. -/
theorem test_witness_FramesAndFire_fence :
    (let s : State := { on with head := [(127, { ready := [sending], fenceDue := some 0x22 })] }
     s.laneSends 127 = false ∧ (s.headAt 127).ready.length = 1 ∧ s.startTick 127 sending ≤ s.tick ∧ (s.headAt 127).fenceDue = some 0x22 ∧
       s.lineRuns (127 / 16) = false ∧ s.fenced (pHEAD 127) = false) ∧
    (let s : State := { on with head := [(127, { cur := some { sending with start := 9999124 }, fenceDue := some 0x22 })] }
     s.laneSends 127 = false ∧ (s.headAt 127).ready = []) ∧
    landed headReady 127 ∧ landed (enab { headReady with head := [(127, { fenceDue := some 0x22 })] } [pLINE 7]) 127 := by
  unfold landed; decide +kernel
/-- Head channel 0 enabled on an UP lane. -/
def tlmOn : State := { enab on [pHEAD 0] with lane := [(0, { st := 3, cdr := true, block := true })] }
/-- A telemetry record for every tile, with its check word. -/
def tlmRec : List Byte := let l := zeros 12 ++ [0xFF, 0xFF] ++ zeros 98; l ++ leBytes 4 (crc32 l) ++ zeros 4
theorem test_witness_TelemetryIsTaken : tlmOn.tlmHears 0 = true ∧ tlmIntact 0 tlmRec = true ∧ tlmIntact 0 (zeros 120) = false ∧
    tlmOn.working (pHEAD 0) = true ∧ tlmOn.srsts.has (pHEAD 0) = false ∧ (tlmOn.headAt 0).tlmStop = false ∧
    (tlmOn.headAt 0).tlmSince + tlmOn.tlmTimeout ≤ tlmOn.tick ∧ tlmOn.straps.pairEn = false ∧
    tlmOn.enabled (pHEAD 0) = true ∧ tlmOn.resetting (pHEAD 0) = false ∧ tlmOn.fenced (pHEAD 0) = false ∧
    (tlmOn.headAt 0).fenceDue = none ∧ tlmOn.lineRuns 0 = false ∧ tlmOn.headFlight 0 = false ∧
    (let s : State := enab { tlmOn with head := [(0, { ready := [sending] })] } [pLINE 0]
     s.lineRuns 0 = true ∧ s.headFlight 0 = true ∧ (s.headAt 0).fenceDue = none) ∧
    (let s : State := { tlmOn with srsts := [(pHEAD 0, {})] }
     s.srsts.has (pHEAD 0) = true ∧ s.resetting (pHEAD 0) = false ∧ (s.headAt 0).tlmStop = false) ∧
    ({ tlmOn with head := [(0, { fenceDue := some 0x11 })] } : State).srsts.has (pHEAD 0) = false ∧ on.tlmHears 0 = false := by decide +kernel

/-- A descriptor in DRAM at 0x1000: 64 bytes from host address 0x8000 to DRAM 0x2000, LAST. -/
def descBytes : List Byte := leBytes 8 0x10001 ++ leBytes 8 0x8000 ++ leBytes 8 0x2000 ++ leBytes 4 64 ++ zeros 36
def theDesc : Desc := { next := 0, dstT := 0, srcT := 1, irq := false, last := true, src := 0x8000, dst := 0x2000, len := 64, srcRing := 0, dstRing := 0 }
/-- Channel 63 with its chain's head at the descriptor, in the state given. -/
def dmaIn (x : DmaSt) : State :=
  sets { enab (mem.dramWrite 0x1000 descBytes 0) [pDMA 63] with dma := [(63, x)] }
    [(pDMA 63, R.DMA_HEAD_LO, 0x80), (pDMA 63, R.DMA_CUR_LO, 0x1000), (pHOSTIF, R.HOSTIF_LINK_BME, 1)]
theorem test_witness_ChannelCommands : (dmaIn {}).dmaOn 63 = true ∧ (dmaIn {}).accepts (pDMA 63) 0x58 1 ∧ ((dmaIn {}).dmaAt 63).st = 0 ∧
    (dmaIn {}).dramReady = true ∧ (dmaIn {}).get64 (pDMA 63) R.DMA_HEAD_LO R.DMA_HEAD_HI = 0x1000 ∧ 0x1000 < (dmaIn {}).dramSize ∧
    (dmaIn {}).chainFree 0x1000 32 63 = true ∧
    ((dmaIn {}).dramRead 0x1000 32 1 63).2.2 = true ∧ (dmaIn {}).descGood ((dmaIn {}).dramRead 0x1000 32 1 63).2.1 = true ∧
    (dmaIn {}).descGood (zeros 32) = false ∧ ((dmaIn { st := 1 }).dmaAt 63).st = 1 ∧ ((dmaIn { st := 3 }).dmaAt 63).st = 3 ∧
    ((dmaIn { st := 2 }).dmaAt 63).st = 2 ∧ (dmaIn { st := 2 }).dmaOn 63 = true ∧
    (dmaIn { st := 2 }).chainFree ((dmaIn { st := 2 }).dmaCur 63) 8 63 = true ∧
    ((dmaIn { st := 2 }).dramRead ((dmaIn { st := 2 }).dmaCur 63) 8 1 63).2 = (leBytes 8 0x10001, true) ∧
    bit (leNat (leBytes 8 0x10001)) 0 = true ∧ on.dramReady = false ∧ on.dmaOn 63 = false ∧
    (dmaIn {}).bar2Writes = false ∧ (dmaIn { st := 1 }).bar2Writes = false := by
  unfold State.accepts; decide +kernel
/-- A write through BAR2 that waits, and a host read issued 50 ms ago and not answered, or just now. -/
theorem test_witness_ChannelCommands_wait :
    (let s : State := { dmaIn {} with dramWait := [.write 0 0x48 (List.replicate 64 (some 1))] }
     s.bar2Writes = true ∧ s.accepts (pDMA 63) 0x58 1) ∧
    (let s := dmaIn { st := 1, desc := some theDesc, readAt := some 2000000 }
     (s.dmaAt 63).desc = some theDesc ∧ theDesc.srcT = 1 ∧ s.hostOk = true ∧ s.dmaReq 63 = true ∧ (s.dmaAt 63).finished = false ∧
       s.burstLen 63 theDesc ≠ 0 ∧ (s.dmaAt 63).readAt = some 2000000 ∧ 2000000 + s.ctoTicks ≤ s.tick ∧ s.tick < 9999999 + s.ctoTicks) ∧
    ((dmaIn {}).dmaAt 63).readAt = none := by unfold State.accepts; decide +kernel
theorem test_witness_ChannelCommands_end :
    (let s := dmaIn { st := 1, desc := some theDesc, taken := 64 }
     (s.dmaAt 63).finished = true ∧ s.chainFree (s.dmaCur 63) 8 63 = true ∧ s.dmaOn 63 = true ∧ (s.dmaAt 63).desc = some theDesc ∧
       (s.dramRead (s.dmaCur 63) 8 1 63).2 = (leBytes 8 0x10001, true)) ∧
    (dmaIn { st := 3 }).accepts (pDMA 63) 0x5C 1 ∧ (dmaIn { st := 3 }).accepts (pDMA 63) 0x5C 2 ∧ ((dmaIn { st := 3 }).dmaAt 63).redo = 0 ∧
    ((dmaIn { st := 3, redo := 1 }).dmaAt 63).redo = 1 ∧ (dmaIn { st := 3, redo := 1 }).dmaOn 63 = true ∧
    theDesc.srcT = 1 ∧ (dmaIn { st := 1, desc := some theDesc }).dmaWants 63 = true ∧
    (dmaIn { st := 1, desc := some theDesc }).burstLen 63 theDesc ≠ 0 ∧ ((dmaIn {}).dmaAt 63).desc = none := by unfold State.accepts; decide +kernel
/-- The hypotheses of BurstsMoveBytes for a burst that succeeds, and for one that the host refuses. -/
theorem test_witness_BurstsMoveBytes :
    let s := dmaIn { st := 1, desc := some theDesc }
    let t := s.dmaGo 63
    let u := ({ t with lastDma := t.lastDma.put (t.dmaLevel 63 theDesc) 63 } : State).dmaEval 63
    (t.dmaAt 63).desc = some theDesc ∧ t.dmaGrant = some 63 ∧ theDesc.dstT ≠ 2 ∧ u.burstLen 63 theDesc = 64 ∧
      (match (u.burstSource 63 theDesc 64 (.ok (zeros 64))).2 with | .ok l => l.length == 64 | .error _ => false) = true ∧
      (u.burstSource 63 theDesc 64 (.ok (zeros 64))).1.dstAddr 63 theDesc 0 < (u.burstSource 63 theDesc 64 (.ok (zeros 64))).1.dramSize ∧
      ((u.burstSource 63 theDesc 64 (.ok (zeros 64))).1.tagCheck 63 theDesc (zeros 64)).isSome = true ∧
      (match (u.burstSource 63 theDesc 64 .refused).2 with | .ok _ => false | .error e => e == 0) = true := by decide +kernel
/-- A descriptor to host memory, to encoder 0 in four parts of 64 bytes, and one beyond DRAM. -/
theorem test_witness_BurstsMoveBytes_kinds :
    (let d := { theDesc with dstT := 1 }
     let s := dmaIn { st := 1, desc := some d }
     (s.dmaGo 63).dmaGrant = some 63 ∧ s.hostOk = true ∧ ({ s with host := {} } : State).hostOk = false) ∧
    (let d := { theDesc with dst := 0xFFFFFFFFFFF }
     (dmaIn { st := 1, desc := some d }).dramSize ≤ (dmaIn { st := 1, desc := some d }).dstAddr 63 d 0) ∧
    (let d := { theDesc with dstT := 2 }
     let s := sets (dmaIn { st := 1, desc := some d }) [(pENC 0, R.ENC_BIND_IN_EN, 1), (pENC 0, R.ENC_BIND_IN_CH, 63)]
     s.tagged 63 d = true ∧ (s.tagCheck 63 d (zeros 64)).isNone = true ∧
       (s.tagCheck 63 d ([0xE0, 5, 0x01, 0] ++ zeros 60)).isSome = true) ∧
    (dmaIn {}).dmaGrant = none := by decide +kernel
/-- A job descriptor at DRAM 0x1000: START, eight lines, job 7. -/
def jobBytes : List Byte := leBytes 8 0x80008 ++ zeros 8 ++ leBytes 4 8 ++ leBytes 4 1 ++ zeros 4 ++ leBytes 4 7 ++ zeros 32
def jobIn : State :=
  { enab (mem.dramWrite 0x1000 jobBytes 0) [pDMAC] with job := [(7, { running := true, next := some 0x1000 })] }
theorem test_witness_JobEngines :
    on.accepts pDMAC 0x40 0xFF ∧ on.accepts pDMAC 0x44 0xFF ∧ (jobIn.jobAt 7).running = true ∧ (jobIn.jobAt 7).parked = false ∧
    (jobIn.jobAt 7).next = some 0x1000 ∧ jobIn.dramReady = true ∧ 0x1000 < jobIn.dramSize ∧ jobIn.chainFree 0x1000 64 0x4C = true ∧
    (jobIn.dramRead 0x1000 64 3 0x4C).2 = (jobBytes, true) ∧ jobIn.jobGood jobBytes = true ∧ jobIn.jobGood (zeros 64) = false ∧
    bit (leAt jobBytes 0 8) 19 = true ∧ diff32 (leAt jobBytes 24 4) ((jobIn.jobAt 7).chainEnd.getD (leAt jobBytes 24 4)) ≥ 0 ∧
    on.dramReady = false ∧ (on.jobAt 7).running = false ∧ jobIn.fenced pDMAC = false ∧ jobIn.bar2Writes = false ∧
    (let s : State := { jobIn with dramWait := [.write 0 0x48 (List.replicate 64 (some 1))] }
     s.bar2Writes = true ∧ s.accepts pDMAC 0x44 0xFF) := by
  unfold State.accepts; decide +kernel
/-- The engine at the end of a job whose control word says LAST: parked, or with its last line group started. -/
theorem test_witness_JobEngines_tail :
    let s : State := { enab (mem.dramWrite 0x1000 ([1] ++ zeros 63) 0) [pDMAC] with
      job := [(7, { running := true, parked := true, tail := some 0x1000 }), (6, { running := true, lastGroup := true, tail := some 0x1000 })] }
    s.accepts pDMAC 0x44 0x80 ∧ (s.jobAt 7).running = true ∧ (s.jobAt 7).parked = true ∧ (s.jobAt 7).next = none ∧
      (s.jobAt 7).tail = some 0x1000 ∧ (s.jobAt 7).failed = false ∧ s.chainFree 0x1000 8 0x4C = true ∧
      (s.dramRead 0x1000 8 3 0x4C).2 = ([1] ++ zeros 7, true) ∧ bit (leNat ([1] ++ zeros 7 : List Byte)) 0 = true ∧
      (s.jobAt 6).lastGroup = true ∧ (s.jobAt 6).parked = false ∧ (s.jobAt 6).next = none := by unfold State.accepts; decide +kernel
/-! ### Witnesses: feeds, profiles, pace -/

/-- A frame with its check sequence. -/
def framed (l : List Byte) : List Byte := l ++ leBytes 4 (crc32 l)
/-- Destination and source address, EtherType 0x88B5, one message. -/
def feedMsg (m : List Byte) : List Byte :=
  framed ([2, 0, 0, 0, 0, 5, 2, 0, 0, 0, 0, 9, 0x88, 0xB5, 0x10, 1, 0, 0] ++ m ++ zeros (46 - m.length))
/-- Port 0 leads its own group, for bar 0, on an UP lane, with the control ring in DRAM. -/
def feedOn : State :=
  sets { enab mem [pFEEDC, pFEED 0] with
    lane := [(136, { st := 3, cdr := true, block := true })]
    port := [(0, { mac := 0x020000000005 })] } [(pFEEDC, R.FEEDC_CRING_CFG_EN, 1), (pFEEDC, R.FEEDC_CRING_CFG_LOG2, 12)]
/-- A control message of 16 bytes. -/
def ctlMsg : List Byte := [2, 0, 16, 0] ++ zeros 12
theorem test_witness_FeedFramesAndPauses : on.laneUp (feedLane 23) = false ∧ feedOn.laneUp (feedLane 0) = true ∧ (zeros 63).length < 64 ∧
    (feedMsg ctlMsg).length = 68 ∧ (feedMsg ctlMsg).length ≤ max 1518 (min 9216 (feedOn.get (pFEED 0) R.FEED_MAXLEN)) ∧
    crc32 ((feedMsg ctlMsg).take 64) = leAt (feedMsg ctlMsg) 64 4 ∧ beAt (feedMsg ctlMsg) 0 6 = (feedOn.portAt 0).mac ∧
    beAt (feedMsg ctlMsg) 12 2 = 0x88B5 ∧ feedOn.feedReady 0 = true ∧ on.feedReady 0 = false ∧ feedHeader (((feedMsg ctlMsg).drop 14).take 50) = true ∧
    feedMessages (byteAt (((feedMsg ctlMsg).drop 14).take 50) 1) ((((feedMsg ctlMsg).drop 14).take 50).drop 4) = some [ctlMsg] ∧
    byteAt ctlMsg 0 = 2 ∧ ctlMsg.length ≤ 1008 ∧ feedOn.flag pFEEDC R.FEEDC_CRING_CFG_EN = true ∧
    (feedOn.get pFEEDC R.FEEDC_CRING_WR + 1024) % 2 ^ max 10 (min 24 (feedOn.get pFEEDC R.FEEDC_CRING_CFG_LOG2)) ≠
      feedOn.get pFEEDC R.FEEDC_CRING_RD ∧
    on.flag pFEEDC R.FEEDC_CRING_CFG_EN = false ∧ feedOn.fenced pFEEDC = false ∧ feedOn.ackDue = [] ∧
    feedOn.dramServed 4 (feedOn.get64 pFEEDC R.FEEDC_CRING_BASE_LO R.FEEDC_CRING_BASE_HI + feedOn.get pFEEDC R.FEEDC_CRING_WR) 1024 0x4D = true ∧
    feedOn.dramWait = [] ∧ (feedOn.portAt 0).pausedUntil = none ∧
    (let s : State := { feedOn with dram := (0, { trained := true, alert := some 5 }) :: feedOn.dram.tail }
     s.flag pFEEDC R.FEEDC_CRING_CFG_EN = true ∧ s.ackDue = [] ∧
       s.dramServed 4 (s.get64 pFEEDC R.FEEDC_CRING_BASE_LO R.FEEDC_CRING_BASE_HI + s.get pFEEDC R.FEEDC_CRING_WR) 1024 0x4D = false) := by decide +kernel
/-- A frame for another address, an own PAUSE, and a port that is paused, or sends PAUSE. -/
theorem test_witness_FeedFramesAndPauses_pause : beAt (feedMsg ctlMsg) 0 6 ≠ (on.portAt 0).mac ∧ (on.portAt 0).mcastEn = false ∧
    beAt (feedMsg ctlMsg) 0 6 ≠ pauseMac ∧
    (let l : List Byte := framed ([0x01, 0x80, 0xC2, 0, 0, 1, 2, 0, 0, 0, 0, 9, 0x88, 0x08, 0, 1, 0, 9] ++ zeros 42)
     frameGood on 0 l ∧ beAt l 0 6 = pauseMac ∧ beAt l 12 2 = 0x8808 ∧ beAt (feedBody l) 0 2 = 1 ∧ beAt (feedBody l) 2 2 = 9) ∧
    (({ on with port := [(23, { pausedUntil := some 10000000 })] } : State).portAt 23).pausedUntil = some 10000000 ∧ 10000000 ≤ on.tick ∧
    (let s : State := { on with
      lane := [(159, { st := 3, cdr := true, block := true })]
      port := [(23, { sending := some 9000000 })] }
     (s.portAt 23).sending = some 9000000 ∧ s.pauseWants 23 = true ∧ 5 * 9000000 + 8 * s.get (pFEED 23) R.FEED_FLOW_PQ ≤ 5 * s.tick) ∧
    on.pauseWants 23 = false := by unfold frameGood; decide +kernel
/-- A raster record of bar 0, segment 0, dot mode, base, all zeros, RSEQ 0. -/
def rasterMsg : List Byte :=
  [1, 0] ++ leBytes 2 1524 ++ [1, 0] ++ leBytes 2 1504 ++ zeros 8 ++ leBytes 4 (crc32 (zeros 1504)) ++ zeros 1504
set_option maxRecDepth 1000000 in
theorem test_witness_FeedFramesAndPauses_raster : byteAt rasterMsg 0 = 1 ∧ feedOn.feedLead 0 = 0 ∧ feedOn.isLeader 0 = true ∧
    rasterGood feedOn 0 rasterMsg ∧ crc32 ((rasterMsg.drop 20).take (leAt rasterMsg 6 2)) = leAt rasterMsg 16 4 ∧
    diff32 (leAt rasterMsg 8 4) (feedOn.expOf 0 false) = 0 ∧
    ¬ rasterGood feedOn 0 ctlMsg ∧ on.isLeader 0 = false := by unfold rasterGood; decide +kernel
/-- A later record, in the window with room, one before it, and one beyond it. -/
theorem test_witness_FeedFramesAndPauses_later : 0 < diff32 5 (feedOn.expOf 0 false) ∧
    diff32 5 (feedOn.expOf 0 false) < max 1 (min 1024 (feedOn.get (pFEED 0) R.FEED_WIN)) ∧
    feedOn.feedFill 0 + 1524 + 9216 ≤ feedOn.feedSize 0 ∧ diff32 0xFFFFFFFF (feedOn.expOf 0 false) < 0 ∧
    (max 1 (min 1024 (feedOn.get (pFEED 0) R.FEED_WIN)) : Int) ≤ diff32 1024 (feedOn.expOf 0 false)  := by decide +kernel
/-- A held record of leader 0, and a gap before record 5. -/
def held0 (rseq : Nat) : State :=
  { feedOn with port := [(0, { base := { held := [{ rseq := rseq, seg := 0, last := false, live := false, sline := 0, check := 0, raw := [] }]
                                         gapSince := some 9000000, unack := 1, unackSince := some 9000000 } })] }
theorem test_witness_RecordsAreDelivered : (held0 0).isLeader 0 = true ∧ ((held0 0).nextHeld 0 false).isSome = true ∧
    (held0 0).feedFill 0 + 9216 + 16 ≤ (held0 0).feedSize 0 ∧
    (((held0 5).portAt 0).stream false).gapSince = some 9000000 ∧ (held0 5).gapOpen 0 false = true ∧
    9000000 + usTicks (max 1 (on.get (pFEED 0) R.FEED_GAP)) ≤ on.tick ∧
    (((held0 5).portAt 0).stream false).unackSince = some 9000000 ∧
    9000000 + usTicks (max 1 (on.get (pFEED 0) R.FEED_ACK_ACK_TO)) ≤ on.tick ∧
    on.isLeader 0 = false ∧ (held0 5).nextHeld 0 false = none ∧ feedOn.gapOpen 0 false = false ∧
    ((feedOn.portAt 0).stream false).unackSince = none ∧
    10000000 < 9999999 + usTicks (max 1 (on.get (pFEED 0) R.FEED_GAP)) := by decide +kernel
/-- The delivery that makes up ACK_INT, on a ready port that is paused or not. -/
theorem test_witness_RecordsAreDelivered_answers :
    (let s := (held0 0).set (pFEED 0) R.FEED_ACK_ACK_INT 2
     max 1 (s.get (pFEED 0) R.FEED_ACK_ACK_INT) ≤ ((s.portAt 0).stream false).unack + 1 ∧ answers s 0 0 ∧ (s.portAt 0).pausedUntil = none ∧
       ¬ answers s 0 1) ∧
    (let s : State := { feedOn with port := [(0, { pausedUntil := some 20000000, base := { unackSince := some 9000000 } })] }
     answers s 0 0 ∧ (s.portAt 0).pausedUntil ≠ none ∧ s.isLeader 0 = true ∧ ((s.portAt 0).stream false).unackSince = some 9000000 ∧
       9000000 + usTicks (max 1 (s.get (pFEED 0) R.FEED_ACK_ACK_TO)) ≤ s.tick) := by unfold answers; decide +kernel
/-- Profiles loaded, slot 7 usable, strobes enabled. -/
def profOn : State :=
  sets { on with prof := { loaded := true, images := [(7, [0x10, 7, 0x80])] } } [(pPROF, R.PROF_CTRL, 1), (pPROF, R.PROF_VALID_VALID, 0x80)]
theorem test_witness_ProfileSelections : profOn.inReset = false ∧ profOn.stbFree = true ∧ profOn.resetting pPROF = false ∧
    profOn.flag pPROF R.PROF_CTRL = true ∧ profOn.follows = false ∧
    ({ profOn with prof := { profOn.prof with stbAt := some 9999999 } } : State).stbFree = false ∧
    profOn.prof.loaded = true ∧ profOn.slotUsable 7 = true ∧ profOn.slotUsable 0 = false ∧
    profOn.prof.cur = none ∧ profOn.prof.next = none ∧ bit (byteAt (profOn.prof.images.getD 7 []) 2) 7 = true ∧
    (enab profOn [pLINE 7]).lineRuns 7 = true ∧ (profOn.set pPROF R.PROF_CTRL 0).flag pPROF R.PROF_CTRL = false ∧
    profOn.accepts pPROF 0x44 (2 ^ 31 + 7) ∧ profOn.accepts pPROF 0x44 (2 ^ 31 + 256 + 7) ∧ profOn.accepts pPROF 0x44 256 ∧
    profOn.prof.reloads = [] ∧ profOn.flashFree = true ∧
    ({ profOn with prof := { profOn.prof with reloads := [(7, false)] } } : State).prof.reloads = (7, false) :: [] ∧
    ((paired false 5 7).set pPROF R.PROF_CTRL 1).flag pPROF R.PROF_CTRL = true ∧ ((paired false 5 7).set pPROF R.PROF_CTRL 1).follows = true ∧
    (paired false 5 7).inReset = false ∧ (paired false 5 7).stbFree = true ∧ (paired false 5 7).resetting pPROF = false ∧
    (paired false 5 7).accepts pPROF 0x44 (2 ^ 31 + 7) ∧ profOn.profFollows = false ∧ profOn.profLeads = false ∧
    (paired false 5 7).profFollows = true ∧ (paired false 5 2).profFollows = true ∧ (paired false 5 2).follows = false ∧
    (let s := sets { paired true 7 5 with prof := profOn.prof } [(pPROF, R.PROF_CTRL, 1), (pPROF, R.PROF_VALID_VALID, 0x80)]
     s.profLeads = true ∧ s.carries 0x12 = true ∧ s.profFollows = false ∧ s.slotUsable 7 = true) ∧
    (let s : State := { profOn with prof := { profOn.prof with reloads := [(7, true), (6, false)] } }
     s.prof.reloads = (7, true) :: [(6, false)] ∧ s.flashFree = true) := by
  unfold State.accepts; decide +kernel
theorem test_witness_BreathTimers : (enab on [pBREATH]).working pBREATH = true ∧ on.breath.pwmStart + 15625 ≤ on.tick ∧
    (enab on [pBREATH]).inReset = false ∧ on.working pBREATH = false ∧ on.breath.warnUntil = none ∧
    on.tick < ({ on with breath := { pwmStart := 10000000 - 15624 } } : State).breath.pwmStart + 15625 ∧
    ({ on with breath := { warnUntil := some 10000000 } } : State).breath.warnUntil = some 10000000 ∧ 10000000 ≤ on.tick ∧
    (on.set pBREATH R.BREATH_PEER_VALID 1).flag pBREATH R.BREATH_PEER_VALID = true ∧ on.breath.peerUntil ≤ on.tick ∧
    on.flag pBREATH R.BREATH_PEER_VALID = false := by decide +kernel
/-! ### Witnesses: the redundant pair -/

/-- A head of a message not taken yet. -/
def hd7 : CrookHdr := ⟨7, true, 4⟩
/-- A paired unit with other facts of its PAIR page. -/
def pairWith (home : Bool) (st peer : Nat) (x : PairSt) : State := { paired home st peer with pair := x }
theorem test_witness_CrookTimersSend : (paired true 7 5).pairOn = true ∧ (paired true 7 5).crookUp = true ∧
    (paired true 7 5).pair.helloAt ≤ on.tick ∧ (paired true 7 5).pair.stateAt ≤ on.tick ∧ (paired true 7 5).pair.timeAt ≤ on.tick ∧
    (let c : PairCmd := { mseq := 3, typ := 0x20, body := [], sends := 15, lastSent := 9000000 }
     ((pairWith true 7 5 { up := true, cmds := [c] }).pair.cmds.find? fun c => c.mseq == (3 : W32).toNat) = some c ∧ c.sends < 16 ∧
       c.lastSent + usTicks 20 ≤ on.tick) ∧
    (let c : PairCmd := { mseq := 3, typ := 0x20, body := [], sends := 16, lastSent := 9000000 }
     ((pairWith true 7 5 { up := true, cmds := [c] }).pair.cmds.find? fun c => c.mseq == (3 : W32).toNat) = some c ∧ 16 ≤ c.sends) ∧
    (pairWith true 7 5 { up := true, lastRx := 9000000 }).crookUp = true ∧
    (pairWith true 7 5 { up := true, lastRx := 9000000 }).pair.lastRx + (paired true 7 5).pairTmo ≤ on.tick ∧
    ({ paired true 7 5 with lane := [] } : State).crookLanes = 0 ∧ on.pairOn = false ∧ on.crookUp = false ∧ (paired true 7 5).crookLanes ≠ 0 ∧
    (paired true 7 5).carries 0x20 = true ∧ (paired true 7 3).carries 0x20 = false := by decide +kernel
theorem test_witness_CrookMessagesAreTakenOnce : on.pairOn = false ∧ (paired true 7 5).crookLanes ≠ 0 ∧ (paired true 7 5).pair.up = true ∧
    (pairWith true 7 5 { up := true, seen := [7] }).pairOn = true ∧ (pairWith true 7 5 { up := true, seen := [7] }).crookLanes ≠ 0 ∧
    (pairWith true 7 5 { up := true, seen := [7] }).pair.seen.contains hd7.mseq.toNat = true ∧ (paired true 7 5).hears hd7 ∧
    (let c : PairCmd := { mseq := 3, typ := 0x20, body := [], sends := 3, lastSent := 9000000 }
     let s := pairWith true 7 5 { cmds := [c], ack := 6 }
     s.hears hd7 ∧ s.pair.up = false ∧ s.pair.rx = [] ∧ hd7.mseq.toNat = (s.pair.ack + 1) % 2 ^ 32 ∧
       0 < (s.pair.cmds.filter fun c => s.carries c.typ).length) := by
  unfold State.hears; decide +kernel
theorem test_witness_PairMessages : (paired true 2 5).hears hd7 ∧ (paired true 2 5).pairState = 2 ∧
    (true && false != (paired true 2 5).straps.home && (4 : BitVec 4) != (paired true 2 5).straps.unitId && (1 : Byte) == 1) = true ∧
    (paired true 5 7).hears hd7 ∧ (paired true 5 7).pairState ≠ 2 ∧ (paired true 5 7).fenced pBREATH = false ∧
    (paired true 5 7).resetting pBREATH = false ∧ ¬ ((paired true 5 7).pairState = 7 ∧ (paired true 5 7).peerState = 3) ∧
    (paired true 7 7).straps.home = true ∧ (paired true 7 7).pairState = 7 ∧ (paired true 7 7).hears hd7 ∧
    (paired false 5 7).hears hd7 ∧ (paired false 5 7).straps.home = false ∧
    ((paired false 5 7).set pBREATH R.PG_FENCE_FENCED 1).fenced pBREATH = true ∧
    (let s := pairWith true 7 5 { up := true, joinMore := true }
     s.hears hd7 ∧ s.pairState = 7 ∧ s.pair.joinMore = true ∧ s.pair.joinTs = none) ∧
    (let s := pairWith true 7 3 { up := true, answered := 7 }
     s.hears hd7 ∧ s.pairState = 7 ∧ s.peerState = 3 ∧ s.pair.joinTs = none ∧ 7 ≤ s.pair.answered) := by
  unfold State.hears; decide +kernel
theorem test_witness_JoiningTheReference :
    (let s := pairWith false 3 7 { up := true, tofs := List.replicate 8 (0, 100) }
     s.hears hd7 ∧ s.pairState = 3 ∧ s.pair.joinTs = none ∧ s.pair.joined = 0 ∧ s.pair.joinFailed = none ∧ s.tofsAgreed = true) ∧
    (let s := pairWith false 3 7 { up := true }
     s.hears hd7 ∧ s.pairState = 3 ∧ s.pair.joinTs = none ∧ s.pair.joined = 0 ∧ s.pair.joinFailed = none ∧ s.tofsAgreed = false) ∧
    ((pairWith false 3 7 { up := true, joined := 1 }).pair.joined ≠ 0 ∧ (pairWith false 3 7 { up := true, joined := 1 }).hears hd7) ∧
    ((paired true 7 3).hears hd7 ∧ 6 < (paired true 7 3).pairState ∧ on.pair.joinFailed = none ∧ on.pair.joinTs = none) ∧
    ((paired true 4 3).hears hd7 ∧ 4 ≤ (paired true 4 3).pairState ∧ (paired true 4 3).pair.joinTs = none ∧
      (pairWith true 6 7 { up := true, joinTs := some 5, joiner := true }).pair.joiner = true ∧ (paired true 2 3).pairState < 3 ∧
      (pairWith true 6 7 { up := true, joinTs := some 5 }).pair.joiner = false) ∧
    (let s := pairWith true 7 3 { up := true, joinTs := some 0 }
     s.crookUp = true ∧ s.pair.joinTs = some 0 ∧ s.pair.latched = false ∧ s.pair.joiner = false ∧ 0 ≤ diff64 s.cNs 0 ∧ diff64 s.cNs 1 < 0 ∧
       s.crookLanes ≠ 0) ∧
    (let s := pairWith false 3 7 { up := true, joinTs := some 0, joiner := true }
     s.crookUp = true ∧ s.pair.joiner = true ∧ s.pair.latched = false ∧ sgn 64 (uns 64 ((s.cNs : Int) + sgn 64 (s.get64 pPAIR R.PAIR_TOFS_LO R.PAIR_TOFS_HI) - 1)) < 0 ∧
       0 ≤ sgn 64 (uns 64 ((s.cNs : Int) + sgn 64 (s.get64 pPAIR R.PAIR_TOFS_LO R.PAIR_TOFS_HI) - 0))) := by
  unfold State.hears; decide +kernel
theorem test_witness_JoiningTheReference_data :
    (let s := pairWith false 3 7 { up := true, joinTs := some 0, joiner := true, latched := true }
     s.hears hd7 ∧ s.pair.joinTs = some (0 : W64).toNat ∧ s.pair.joiner = true ∧ s.pair.latched = true ∧ 3 ≤ s.pairState ∧
       (List.replicate 8 (⟨false, 0, false, 0, 0, 0, 0, 0⟩ : JoinBar)).length = 8 ∧ s.pair.joined = 0 ∧
       (∀ n < 12, s.fenced (pPOS n) = false) ∧ s.causeMask ≠ 0 ∧ ({ s with lane := (List.range 128).map fun h => (h, { block := true }) } : State).causeMask = 0 ∧ s.lineRuns 0 = false ∧ s.fenced (pLINE 0) = false ∧
       s.resetting (pLINE 0) = false ∧ ∀ x ∈ List.replicate 8 (⟨false, 0, false, 0, 0, 0, 0, 0⟩ : JoinBar), x.run = false) ∧
    (10000000 - msTicks 1 + msTicks 1 ≤ on.tick ∧ on.tick < 10000000 - msTicks 1 + 1 + msTicks 1 ∧
      (pairWith false 3 7 { joinFailed := some 5 }).pair.joinFailed = some 5) := by
  unfold State.hears; decide +kernel
/-- A DIGEST of bar 0, line 9. -/
def dig9 : DigSt := ⟨0, 9, true, false, false, 0, 0, List.replicate 16 3, 9000000⟩
theorem test_witness_DigestsAreCompared : (paired true 6 7).hears hd7 ∧ (∀ d ∈ (paired true 6 7).pair.own, d.bar ≠ 0 ∨ d.line ≠ 9) ∧
    (let s := pairWith true 6 7 { up := true, own := [dig9] }
     s.hears hd7 ∧ s.pair.own = [dig9] ∧ s.pair.peer = [] ∧ dig9.bar = 0 ∧ dig9.line = (9 : W32).toNat ∧
       dig9.digs = (List.replicate 16 (3 : W32)).map (·.toNat) ∧ s.pairState = 6 ∧
       -(s.get pPAIR R.PAIR_SKEW_LIM : Int) ≤ s.skew dig9 { dig9 with tBnd := (0 : W32).toNat } ∧
       s.skew dig9 { dig9 with tBnd := (0 : W32).toNat } ≤ (s.get pPAIR R.PAIR_SKEW_LIM : Int) ∧ dig9 ∈ s.pair.own ∧
       dig9.at_ + s.pairTmo ≤ s.tick ∧ s.fenced pPAIR = false ∧ s.crookUp = true ∧
       diff32 (({ s with pair := { s.pair with peerLines := [8] } } : State).peerLine 0) 9 < 0 ∧
       (pairWith true 6 7 { own := [dig9] }).crookUp = false) ∧
    (let s := sets (pairWith true 6 7 { up := true, own := [dig9], joined := 1 }) [(pPAIR, R.PAIR_SKEW_N, 1), (pPAIR, R.PAIR_SKEW_LIM, 0)]
     s.hears hd7 ∧ 4 ≤ s.pairState ∧ s.pairState ≤ 6 ∧ bit s.pair.joined 0 = true ∧ max 1 (s.get pPAIR R.PAIR_SKEW_N) ≤ s.pair.skewRuns.getD 0 0 + 1 ∧
       ((s.get pPAIR R.PAIR_SKEW_LIM : Int) < s.skew dig9 { dig9 with tBnd := 5 } ∨
         s.skew dig9 { dig9 with tBnd := 5 } < -(s.get pPAIR R.PAIR_SKEW_LIM : Int))) ∧
    (let s := pairWith false 3 7 { up := true, own := [dig9], joined := 1, joinOk := [(0, 63)] }
     s.hears hd7 ∧ s.pairState = 3 ∧ bit s.pair.joined 0 = true ∧ s.causeMask ≠ 0 ∧ ({ s with lane := (List.range 128).map fun h => (h, { block := true }) } : State).causeMask = 0 ∧
       ∀ i < 8, bit s.pair.joined i = true → 64 ≤ s.pair.joinOk.getD i 0 + (if i = 0 then 1 else 0)) ∧
    (let s := pairWith true 7 7 { up := true, own := [{ dig9 with ok := false }] }
     s.hears hd7 ∧ s.pairState = 7 ∧ s.pair.giving = 0 ∧ s.peerState = 7) := by
  unfold State.hears; decide +kernel
theorem test_witness_HomeUnitCommands : (paired false 5 7).hearsCmd hd7 ∧ (paired false 5 7).straps.home = false ∧
    (paired false 5 7).lineLate 0 (1 : W32).toNat = false ∧ (paired false 5 7).lineLate 0 (0 : W32).toNat = true ∧
    (paired false 5 7).blockedPage (pLINE 0) = false ∧ (paired false 5 7).blockedPage (pPIPE 0) = false ∧ (1 : BitVec 2).toNat ≠ 2 ∧
    (enab (paired false 5 7) [pLINE 0]).lineRuns 0 = true ∧ (enab (paired false 5 7) [pLINE 0]).hearsCmd hd7 ∧
    (paired true 7 5).hearsCmd hd7 ∧ (paired true 7 5).straps.home = true ∧ (paired true 7 5).hears hd7 ∧
    (∀ e ∈ (paired true 7 5).pair.chainOwn, e.1 ≠ 0) ∧
    (let s := sets { paired false 5 7 with prof := { loaded := true, images := [(0, zeros 660)] } } [(pPROF, R.PROF_VALID_VALID, 1)]
     s.hearsCmd hd7 ∧ s.prof.loaded = true ∧ s.slotUsable 0 = true ∧ leAt (s.prof.images.getD 0 []) 656 4 = (0 : W32).toNat ∧
       ∀ b < 8, s.lineRuns b = true → s.lineLate b (1 : W32).toNat = false) := by
  unfold State.hearsCmd State.hears; decide +kernel
theorem test_witness_HomeUnitCommands_else :
    ((paired true 7 3).hears hd7 ∧ (paired true 7 3).peerState = 3) ∧
    (let s := pairWith false 5 7 { up := true, jobLine := [(0, 9)] }
     s.hearsCmd hd7 ∧ s.pair.jobLine.find? (fun e => e.1 == (0 : Bar).val) = some (0, 9) ∧ 0 < diff32 9 (8 : W32).toNat ∧
       ¬ 0 < diff32 9 (9 : W32).toNat) ∧
    (let s := pairWith true 7 5 { up := true, chainOwn := [(0, [1, 2, 3, 4])] }
     s.hears hd7 ∧ s.pair.chainOwn.find? (fun e => e.1 == (0 : Bar).val) = some (0, [1, 2, 3, 4])) ∧
    (let s := (paired false 5 7).set (pLINE 0) R.PG_FENCE_FENCED 1
     s.hearsCmd hd7 ∧ s.blockedPage (pLINE 0) = true) := by
  unfold State.hearsCmd State.hears; decide +kernel
theorem test_witness_PairCommandsAndTimers : (paired true 2 5).pairOn = true ∧ (paired true 2 5).accepts pPAIR 0x44 1 ∧
    (paired true 2 5).pairState = 2 ∧ (paired true 6 7).accepts pPAIR 0x44 1 ∧ (paired true 6 7).pairState = 6 ∧
    (paired true 7 5).pairState = 7 ∧ (paired true 3 7).pairState = 3 ∧ (paired true 7 5).accepts pPAIR 0x44 2 ∧
    (paired true 7 5).pair.cause0 = false ∧ (paired true 7 5).pair.giving = 0 ∧ (paired true 7 5).runningBars = 0 ∧
    (enab (paired true 7 5) [pLINE 7]).runningBars ≠ 0 ∧ (paired true 5 7).accepts pPAIR 0x44 2 ∧ (paired true 5 7).pairState = 5 ∧
    (paired true 7 5).accepts pPAIR 0x44 4 ∧ (paired true 6 7).pair.holdUntil ≤ on.tick ∧
    (let s := sets (paired true 2 0) [(pPAIR, R.PAIR_CTRL_SOLO, 1), (pPAIR, R.PAIR_WAIT, 1)]
     s.pairState = 2 ∧ s.pairOn = true ∧ s.flag pPAIR R.PAIR_CTRL_SOLO = true ∧
       s.pair.waitSince + msTicks (s.get pPAIR R.PAIR_WAIT) ≤ s.tick) ∧
    (pairWith true 7 5 { up := true, giving := 1 }).accepts pPAIR 0x44 2 ∧ (pairWith true 7 5 { up := true, giving := 1 }).pair.giving ≠ 0 ∧
    on.pairOn = false ∧ on.accepts pPAIR 0x44 1 ∧ on.accepts pPAIR 0x44 2 ∧ on.accepts pPAIR 0x44 4 := by
  unfold State.accepts; decide +kernel

/-! ### Witnesses: camera ports -/

/-- Camera port 0 working beside CAMC, CHANT, CAL and bar 0, with other facts of its own. -/
def camWith (x : CamSt) : State :=
  { enab mem [pCAM 0, pCAMC, pCHANT, pCAL, pLINE 0, pPIPE 0] with cam := [(0, x)] }
/-- A frame with as many lines as given. -/
def frameOf (n : Nat) : Frame := { fseq := 1, gen := 0, untrig := false, lines := n }
theorem test_witness_CameraFramesAndTriggers : (camWith {}).working (pCAM (0 : CamPort)) = true ∧ ((camWith {}).camAt 0).frame = none ∧
    (camWith {}).flag (pCAM 0) R.CAM_FTRIG_TRIG_EN = false ∧
    (let s := sets (camWith { unpaired := [(4, 0, 9)] }) [(pCAM 0, R.CAM_FTRIG_TRIG_EN, 1)]
     s.working (pCAM 0) = true ∧ (s.camAt 0).frame = none ∧ s.flag (pCAM 0) R.CAM_FTRIG_TRIG_EN = true ∧
       (s.camAt 0).unpaired.getLast? = some (4, 0, 9)) ∧
    ((sets (camWith {}) [(pCAM 0, R.CAM_FTRIG_TRIG_EN, 1)]).camAt 0).unpaired = [] ∧
    ((camWith { trigDue := true }).camAt 0).trigDue = true ∧ (camWith { trigDue := true }).working (pCAM 0) = true ∧
    (let s := camWith { frame := some (frameOf 0) }
     s.working (pCAM 0) = true ∧ (s.camAt 0).frame = some (frameOf 0) ∧ s.chant.flush.has 0 = false ∧
       (frameOf 0).lines < max 1 (s.ap (pCAM 0) R.CAM_FRAME) ∧ max 1 (s.ap (pCAM 0) R.CAM_FRAME) < (frameOf 100000).lines ∧ s.chantRuns = true ∧
       ({ s with chant := { flush := [(0, ⟨0, true, none, 0, 0⟩)] } } : State).chant.flush.has 0 = true ∧ on.chantRuns = false) ∧
    (let s := sets (camWith { trig0Pend := [(3, 0)] }) [(pCAM 0, R.CAM_LTRIG, 1)]
     s.working (pCAM 0) = true ∧ (s.camAt 0).trig0Pend = [(3, 0)] ∧ 0 + s.ap (pCAM 0) R.CAM_LDLY ≤ s.tick ∧
       s.flag (pCAM 0) R.CAM_LTRIG = true ∧ s.lineRuns s.camc.refbar = true ∧ (s.camAt 0).trig0Until = none) ∧
    (let s := sets (camWith { trig0Pend := [(3, 0)], trig0Until := some 20000000 }) [(pCAM 0, R.CAM_LTRIG, 1)]
     (s.camAt 0).trig0Pend = [(3, 0)] ∧ s.working (pCAM 0) = true ∧ s.flag (pCAM 0) R.CAM_LTRIG = true ∧
       s.lineRuns s.camc.refbar = true ∧ (s.camAt 0).trig0Until = some 20000000 ∧ s.tick < 20000000) ∧
    (let s := (camWith { frame := some (frameOf 0) }).set (pCAM 0) R.PG_FENCE_FENCED 1
     s.enabled (pCAM 0) = true ∧ s.resetting (pCAM 0) = false ∧ s.fenced (pCAM 0) = true) ∧
    on.enabled (pCAM 0) = false ∧ on.working (pCAM 0) = false ∧ ((camWith {}).camAt 0).trig0Pend = [] ∧
    ((camWith {}).camAt 0).trigDue = false ∧ ({ camWith {} with tick := 0 } : State).tick < 0 + 1 ∧
    ((camWith { trig0Until := some 7 }).camAt 0).trig0Until = some 7 ∧ ((camWith { trig1Until := some 7 }).camAt 0).trig1Until = some 7 := by
  decide +kernel
/-- Line 100 of a frame that waits for its coverage. -/
def cap100 : CapLine := { lc := 100, fseq := 1, slot := 0, pix := 1, nb := 6 }
theorem test_witness_CameraLinesAndCoverage :
    (let s := sets (camWith { frame := some (frameOf 0) }) [(pCAM 0, R.CAM_GEOM, 1)]
     s.working (pCAM 0) = true ∧ (s.camAt 0).frame = some (frameOf 0) ∧ (frameOf 0).lines < max 1 (s.ap (pCAM 0) R.CAM_FRAME) ∧
       max 1 (s.ap (pCAM 0) R.CAM_FRAME) ≤ (frameOf 100000).lines ∧ s.flag (pCAM 0) R.CAM_BUS_CRC_EN = false ∧
       [(0 : W64)].length = s.camPix 0 ∧ ([] : List W64).length ≠ s.camPix 0) ∧
    ((camWith { waitRecs := [[1]] }).camAt 0).waitRecs = [[1]] ∧ (camWith { caps := [cap100] }).working pCAMC = true ∧
    ((camWith { caps := [cap100] }).camAt 0).caps = [cap100] ∧
    (∀ b < 8, (camWith { caps := [cap100] }).dramServed 5 ((camWith { caps := [cap100] }).sliceAddr 100 b) 48256 0x4A = true) ∧
    ((camWith {}).camAt 0).caps = [] ∧ ((camWith {}).camAt 0).waitRecs = [] ∧ on.working pCAMC = false ∧
    on.dramServed 5 (on.sliceAddr 100 0) 48256 0x4A = false ∧ ((camWith {}).camAt 1).shared = [] ∧ cap100.dead = false ∧ (camWith {}).chantRuns = true ∧
    (camWith {}).fenced pCHANT = false ∧ (camWith {}).chant.flush.has 0 = false ∧ (camWith {}).usedLines 0 1 < 4096 ∧
    on.chantRuns = false := by
  decide +kernel
/-- The slice of the block of line 96 at bar 0 reads whole and is that block's; no slice of line 100000's is. -/
theorem test_witness_CameraLinesAndCoverage_slice :
    (let s := camWith { caps := [cap100] }
     (s.sliceAddr 100 0) % 64 = 0 ∧ s.dramGood (s.sliceAddr 100 0) 48256 = 48256 ∧ 0 < ((List.range cap100.pix).filterMap (s.camColumn 0)).length) := by
  decide +kernel
theorem test_witness_CameraLinesAndCoverage_room : (camWith { waitRecs := [[1]] }).statRoom 0 = true := by
  have h : (camWith { waitRecs := [[1]] }).queues.getD (0x30 + 0) [] = [] := by decide +kernel
  simp only [State.statRoom, h, List.length_nil, decide_eq_true_eq]; omega

/-! ### Witnesses: Chanter and calibration -/

theorem test_witness_ChanterWorks_flush :
    (let s := sets { camWith {} with chant := { flush := [(0, ⟨0, false, some 0, 2 ^ 20, 0⟩)] } } [(pCHANT, R.CHANT_CTRL_ZONE_EN, 1)]
     s.chantRuns = true ∧ s.chant.flush.has 0 = true ∧ s.flushFree = true ∧ s.fenced pCHANT = false ∧ s.chant.fenceNext = none ∧
       s.flag pCHANT R.CHANT_CAMGEN_CHK = false ∧ s.tierOn .zone = true ∧ (s.tier .zone).solving = none ∧
       (s.tierLen .zone : Int) ≤ diff32 (2 ^ 20 + 16) 0 ∧ ¬ (s.tierLen .zone : Int) ≤ diff32 (16 + 16) 0) ∧
    (let s := { camWith {} with chant := { flush := [(0, ⟨0, true, none, 0, 0⟩)], fenceNext := some 64 } }
     s.fenced pCHANT = false ∧ s.held pCHANT = false ∧ s.srsts.has pCHANT = false ∧ s.chant.fenceNext = some 64 ∧ s.flushFree = true) ∧
    (let s : State := { camWith {} with chant := { flush := [(0, ⟨0, true, none, 0, 0⟩)], flushQ := [(0, ⟨1, false, some 9, 25, 0⟩)] } }
     s.chantRuns = true ∧ s.chant.flush.has 0 = true ∧ s.flushFree = true ∧
       s.chant.flushQ.find? (·.1 == 0) = some (0, ⟨1, false, some 9, 25, 0⟩)) ∧
    ((camWith {}).set pCHANT R.PG_FENCE_FENCED 1).fenced pCHANT = true ∧ (camWith {}).chant.flush.has 0 = false ∧ on.chantRuns = false := by
  decide +kernel
theorem test_witness_ChanterWorks : (camWith {}).working pCHANT = true ∧
    (let s := { camWith {} with chant := { flush := [(0, ⟨0, true, none, 0, 0⟩)] } }
     s.working pCHANT = true ∧ s.chant.flush.has 0 = true ∧ s.chant.fenceNext = none ∧
       (s.chant.flush.getD 0 ⟨0, true, none, 0, 0⟩).short = true) ∧
    (let s := { camWith {} with chant := { zone := { solving := some (0, 0, 16, 1, 0) }, cap := { solving := some (1, 0, 16, 1, 0) } } }
     (s.tier .zone).solving = some (0, 0, 16, 1, 0) ∧ (s.tier .capture).solving = some (1, 0, 16, 1, 0) ∧ s.working pCHANT = true ∧
       s.calst.runDone = false ∧ s.chantRuns = true ∧ s.colsFree 1 = true ∧ s.cyclePaced = false ∧ s.chant.bars = 0 ∧ s.loopHolds = false) ∧
    (let s := { camWith {} with chant := { bars := 1 } }
     s.working pCHANT = true ∧ lowBit 8 s.chant.bars = some (0 : Bar).val ∧ (s.pipeAt 0).copy = none ∧ (s.pipeAt 0).armed = none ∧
       s.pipeShut 0 = false ∧ s.loopHolds = false ∧ 0 < diff32 (s.cycleLine 0) (s.get (pLINE 0) R.LINE_SEQ)) := by
  decide +kernel
theorem test_witness_ChanterWorks_trim :
    (paired false 5 7).hearsCmd hd7 ∧ (paired false 5 7).lineLate 0 (0 : W32).toNat = true ∧
    (enab (paired false 5 7) [pPIPE 0]).lineLate 0 (9 : W32).toNat = false ∧
    (enab (paired false 5 7) [pPIPE 0]).pipeShut 0 = false ∧ (0 ||| 2 ^ ((0 : Byte).toNat % 16)) % 2 ^ 16 = 2 ^ ((1 : Byte).toNat % 16) - 1 := by
  unfold State.hearsCmd State.hears; decide +kernel
theorem test_witness_ChanterWorks_deferred :
    let s := { camWith {} with chant := { bars := 1 }, pipe := [(0, { armed := some { whn := 0, tables := 1, line := 0, fromTrim := false } })] }
    s.working pCHANT = true ∧ lowBit 8 s.chant.bars = some (0 : Bar).val ∧ (s.pipeAt 0).copy = none ∧ (s.pipeAt 0).armed.isSome = true := by
  decide +kernel
/-- A calibration run of a kind at a step. -/
def calWith (step : Nat) (x : CalSt) : State := sets { camWith {} with calst := x } [(pCAL, R.CAL_STAT_STEP, step)]
theorem test_witness_CalibrationRuns : (calWith 0 {}).accepts pCAL 0x40 (2 ^ 31 + (5 : BitVec 3).toNat) ∧
    (calWith 0 {}).calst.running = false ∧ (calWith 0 {}).enabled pCAL = true ∧ on.enabled pCAL = false ∧ (calWith 0 {}).calNeeds (1 : BitVec 3).toNat = true ∧
    (calWith 0 {}).calNeeds (2 : BitVec 3).toNat = false ∧ (calWith 0 {}).accepts pCAL 0x40 (2 ^ 31 + (2 : BitVec 3).toNat) ∧
    (calWith 1 { kind := 1, running := true }).accepts pCAL 0x40 0x200 ∧ (calWith 0 {}).accepts pCAL 0x40 0x200 ∧
    (calWith 3 { kind := 1, running := true }).accepts pCAL 0x40 0x100 ∧
    (calWith 3 { kind := 1, running := true }).get pCAL R.CAL_STAT_STEP = 3 ∧
    (let s := calWith 1 { kind := 1, running := true, runDone := true }
     s.working pCAL = true ∧ s.calst.running = true ∧ s.calst.waitInstall = none ∧ s.runReady = true ∧ s.get pCAL R.CAL_STAT_STEP = 1) ∧
    (let s := calWith 2 { kind := 2, running := true, runDone := true }
     s.working pCAL = true ∧ s.runReady = true ∧ s.get pCAL R.CAL_STAT_STEP = 2 ∧ s.calst.kind ≤ 2 ∧ s.calst.flat = false) ∧
    (let s := calWith 2 { kind := 5, running := true, runDone := true, r1 := List.replicate 129 4, r2 := List.replicate 129 4 }
     s.working pCAL = true ∧ s.runReady = true ∧ s.get pCAL R.CAL_STAT_STEP = 2 ∧ s.calst.kind = 5 ∧ s.calst.r1.length = 129 ∧
       s.calst.r1 = s.calst.r2 ∧ s.calst.r1.length ≤ 2 ^ 20 ∧ (∀ i < 129, 1 ≤ i →
         absAgree (s.get pCAL R.CAL_TOL_ABS) (s.calst.r1.getD i 0) (s.calst.r2.getD i 0) = true) ∧ s.fenced pHEADC = false ∧ s.resetting pHEADC = false) ∧
    (calWith 2 { kind := 1, running := true, runDone := true, flat := true }).calst.flat = true ∧
    (let s := calWith 2 { kind := 5, running := true, runDone := true, r1 := List.replicate 129 4, r2 := List.replicate 129 5 }
     s.working pCAL = true ∧ s.runReady = true ∧ s.calst.r2.length = 129 ∧ s.calst.r1.getD 0 0 ≠ s.calst.r2.getD 0 0) := by
  unfold State.accepts; decide +kernel
/-- A function applied to a number that is computed first. -/
def force (g : Nat → Nat) : Nat → Nat
  | 0 => g 0
  | n + 1 => g (n + 1)
/-- A left fold whose register is computed at every byte. -/
def runFold (f : Nat → Byte → Nat) : List Byte → Nat → Nat
  | [], c => c
  | b :: l, c => force (runFold f l) (f c b)
theorem runFold_eq (f : Nat → Byte → Nat) (l : List Byte) (c : Nat) : l.foldl f c = runFold f l c := by
  induction l generalizing c with
  | nil => rfl
  | cons b l ih => rw [List.foldl_cons, ih, runFold]; cases f c b <;> rfl
/-- A whole FIRE record of CALNUM 3. -/
def fire3 : List Byte := [0x10, 5, 0, 0] ++ leBytes 4 (calLen 5) ++ leBytes 4 3 ++ zeros 280 ++ leBytes 4 2677703974
theorem fire3_crc : crc32 (fire3.take (calLen 5 - 4)) = 2677703974 := by
  rw [crc32, runFold_eq]; decide +kernel
theorem calValid_crc (r : List Byte) (k n : Nat) (h : crc32 (r.take (calLen k - 4)) = n) : calValid r k 0 =
    (1 ≤ k && k ≤ 5 && byteAt r 1 == k && byteAt r 0 / 16 == 1 && byteAt r 2 % 4 == 0 && leAt r 4 4 == calLen k &&
      r.length == calLen k && leAt r (calLen k - 4) 4 == n) := by
  rw [calValid, h]
theorem fire3_valid : calValid fire3 5 0 = true := by
  rw [calValid_crc _ _ _ fire3_crc]; decide +kernel
theorem test_witness_CalibrationRecords :
    (let s := { enab on [pCAL, pCAMC, pCHANT] with calst := { kind := 1, running := true, waitInstall := some [0x10, 1] } }
     s.calst.waitInstall = some [0x10, 1] ∧ s.working pCAL = true ∧ s.enabled (pCAM (s.calst.kind - 1)) = false ∧ byteAt [0x10, 1] 1 = 1 ∧
       s.fenced pCHANT = false ∧ (s.set pCHANT R.PG_FENCE_FENCED 1).fenced pCHANT = true) ∧
    (let s := { camWith {} with sinks := [(0x33, fire3)] }
     s.working pCAL = true ∧ s.calst.runDone = false ∧ s.sinks.getD 0x33 [] = fire3 ∧ leAt fire3 4 4 = calLen 5 ∧ calLen 5 ≤ fire3.length ∧
       fire3.take (calLen 5) = fire3 ∧ calValid ((0x20 :: fire3.drop 1).take (calLen 5)) (byteAt fire3 1) 0 = false ∧
       s.calst.running = false) ∧
    (paired false 5 7).hearsCmd hd7 ∧ (enab (paired false 5 7) [pCAL]).hearsCmd hd7 ∧ (enab (paired false 5 7) [pCAL]).working pCAL = true ∧
    byteAt fire3 1 = 5 ∧ (paired false 5 7).working pCAL = false ∧ (paired false 5 7).fenced pCAL = false ∧
    (let s := (enab (paired false 5 7) [pCAL]).set pCAL R.PG_FENCE_FENCED 1
     s.hearsCmd hd7 ∧ s.fenced pCAL = true ∧ s.working pCAL = false) := by
  unfold State.hearsCmd State.hears; decide +kernel

/-! ### Witnesses: DRAM in service and the scrubber -/

/-- Channel 0 in another state, with modes set. -/
def chWith (x : DramSt) (l : List (Nat × Fld × Nat)) : State := sets { mem with dram := (0, x) :: mem.dram.tail } l
theorem test_witness_DramChannelEvents : (mem.dramAt 0).trained = true ∧ (mem.dramAt 0).alert = none ∧
    ((chWith { trained := true, alert := some 5, tries := 0 } []).dramAt 0).alert = some 5 ∧ 5 + usTicks 2 ≤ mem.tick ∧
    0 + 1 < max 1 ((chWith {} [(pDRAM 0, R.DRAM_PAR_CFG, 3)]).get (pDRAM 0) R.DRAM_PAR_CFG) ∧
    max 1 ((chWith {} [(pDRAM 0, R.DRAM_PAR_CFG, 1)]).get (pDRAM 0) R.DRAM_PAR_CFG) ≤ 0 + 1 ∧
    ((chWith { trained := true, pause := some (1, 0) } []).dramAt 0).pause = some (1, 0) ∧
    (0 : Fin 4).val < mem.ranks ∧ mem.rankState 0 0 ≠ 3 ∧
    (mem.dramAt 0).lastRef.getD 0 0 + (if (mem.dramAt 0).hot then nsTicks 3900 else nsTicks 7800) ≤ mem.tick ∧ mem.anyPanic = false ∧
    ({ mem with dec := [(0, { panic := true })] } : State).anyPanic = true ∧
    (let s := sets { mem with tick := 400000000000 } [(pDRAMC, R.DRAMC_RETRAIN_EN, 1)]
     s.flag pDRAMC R.DRAMC_RETRAIN_EN = true ∧ (0 : Fin 4).val < s.ranks ∧ s.rankState 0 0 ≠ 3 ∧ (s.dramAt 0).pause = none ∧
       (s.dramAt 0).lastRetrain.getD 0 0 + msTicks (max 1 (s.get pDRAMC R.DRAMC_RETRAIN_PER)) ≤ s.tick ∧ s.anyPanic = false ∧
       ∀ b < 8, s.breathIncl b = true → s.get pDRAMC R.DRAMC_RT_PAUSE_LINES ≤ s.decAhead b) ∧
    (on.dramAt 0).trained = false ∧ mem.trackClear + msTicks 64 ≤ mem.tick := by decide +kernel
/-- Channel 0 serves, with eight refreshes of rank 0 postponed under a panic; a pause after a failed replay, with one write, and with one
refresh, in the retry buffer. -/
theorem test_witness_DramChannelEvents_refresh :
    (mem.chServes 0 = true ∧ on.chServes 0 = false) ∧
    (let s := { chWith { trained := true, postponed := [(0, 8)] } [] with dec := [(0, { panic := true })] }
     s.chServes 0 = true ∧ s.anyPanic = true ∧ 8 ≤ (s.dramAt 0).postponed.getD 0 0 ∧ (s.dramAt 0).postponed.getD 1 0 < 8) ∧
    (let s := chWith { trained := true, pause := some (2, 0), retry := [⟨4, 0, 0x48, 0, 0, some ([1, 2], [3]), false⟩] } []
     nothingWaits s ∧ (s.dramAt 0).pause = some (2, 0) ∧ (s.dramAt 0).retry = [⟨4, 0, 0x48, 0, 0, some ([1, 2], [3]), false⟩]) ∧
    (let s := sets { mem with boot := { spd := List.replicate 4 (spdOf 1 2 34) }
                              dram := (0, { trained := true, alert := some 5, tries := 200, retry := [⟨4, 0, 0, 0, 0, none, true⟩] }) :: mem.dram.tail }
       [(pDRAMC, R.DRAMC_CFG_MODE, 1), (pDRAMC, R.DRAMC_CFG_SPARE, 1), (pDRAM 0, R.DRAM_RMAP_SPV, 1), (pDRAM 0, R.DRAM_RMAP_SPR, 1), (pDRAM 0, R.DRAM_RSTAT, 5)]
     (s.dramAt 0).alert = some 5 ∧ (s.dramAt 0).retry.getLast? = some ⟨4, 0, 0, 0, 0, none, true⟩ ∧ s.rankServes 0 0 = some 0 ∧
       s.get pDRAMC R.DRAMC_CFG_MODE = 1 ∧ s.canRetire 0 0 = true ∧ max 1 (s.get (pDRAM 0) R.DRAM_PAR_CFG) ≤ (s.dramAt 0).tries + 1) := by
  unfold nothingWaits; decide +kernel
theorem test_witness_DramChannelEvents_waits : nothingWaits mem ∧
    (let s := { chWith { trained := true, pause := some (1, 0) } [] with dramWait := [.write 0 0x48 (List.replicate 64 (some 1))] }
     s.dma = [] ∧ s.job = [] ∧ s.dec = [] ∧ (s.updDram 0 fun d => { d with pause := none }).dramFree 0 64 0x48 = true) := by
  unfold nothingWaits; decide +kernel
/-- Four channels of two ranks, the second the spare. -/
def spared : State :=
  sets { mem with boot := { spd := List.replicate 4 (spdOf 1 2 34) } }
    [(pDRAMC, R.DRAMC_CFG_MODE, 1), (pDRAMC, R.DRAMC_CFG_SPARE, 1), (pDRAM 0, R.DRAM_RMAP_SPV, 1), (pDRAM 0, R.DRAM_RMAP_SPR, 1),
      (pDRAM 0, R.DRAM_RSTAT, 5)]
/-- The last attempt of channel 0 fails: in SERVICE the rank can go to the spare, and in RECOVERY the unit copied is lost. -/
theorem test_witness_DramChannelEvents_failed :
    (let s := { spared with dram :=
       (0, { trained := true, alert := some 5, tries := 200, retry := [⟨4, 0, 0x48, 0, 0, none, false⟩] }) :: spared.dram.tail }
     (s.dramAt 0).alert = some 5 ∧ 5 + usTicks 2 ≤ s.tick ∧ (s.dramAt 0).retry.getLast? = some ⟨4, 0, 0x48, 0, 0, none, false⟩ ∧
       s.get pDRAMC R.DRAMC_CFG_MODE = 1 ∧ s.canRetire 0 0 = true ∧
       max 1 (s.get (pDRAM 0) R.DRAM_PAR_CFG) ≤ (s.dramAt 0).tries + 1) ∧
    (let s := { spared with dram :=
       (0, { trained := true, alert := some 5, tries := 200, mig := some (0, 0, 1), retry := [⟨4, 0, 0x50, 1, 0, none, false⟩] }) :: spared.dram.tail }
     (s.dramAt 0).alert = some 5 ∧ (s.dramAt 0).mig = some (0, 0, 1) ∧
       (s.dramAt 0).retry.getLast? = some ⟨4, 0, 0x50, 1, 0, none, false⟩) := by decide +kernel
theorem test_witness_MigrationAndScrubbing : spared.accepts (pDRAM 0) 0x48 (2 ^ 31 + (0 : BitVec 2).toNat) ∧
    spared.get pDRAMC R.DRAMC_CFG_MODE = 1 ∧ (0 : BitVec 2).toNat < spared.logRanks ∧
    spared.canRetire 0 (spared.rmap 0 (0 : BitVec 2).toNat) = true ∧ spared.logRanks ≤ (1 : BitVec 2).toNat ∧
    spared.accepts (pDRAM 0) 0x48 (2 ^ 31 + (1 : BitVec 2).toNat) ∧
    (let s := { spared with dram := (0, { trained := true, mig := some (0, 0, 1) }) :: spared.dram.tail }
     (s.dramAt 0).mig = some (0, 0, 1) ∧ s.chServes 0 = true ∧ s.rowHeld 0 0 0 0x50 = false ∧ s.rowHeld 0 1 0 0x50 = false ∧
       s.decFirst (List.range 8) [0] = false ∧ s.waitAhead 4 [0] = false ∧ s.dmaAhead 4 [0] = false ∧ s.migPtr 0 = 0 ∧ s.migPtr 0 + 64 < 2 ^ s.geo.rankLog2) ∧
    (let s := sets spared [(pDRAM 0, R.DRAM_MIG_PTR_LO, 2 ^ 32 - 64), (pDRAM 0, R.DRAM_MIG_PTR_HI, 3)]
     2 ^ s.geo.rankLog2 ≤ s.migPtr 0 + 64) ∧
    (let s := sets spared [(pDRAMC, R.PG_LOCK_LOCKED, 0), (pDRAMC, R.DRAMC_CFG_MODE, 0)]
     s.accepts pDRAMC 0x40 (16 * b2n false + s.get pDRAMC R.DRAMC_CFG_MODE) ∧ s.get pDRAMC R.DRAMC_CFG_MODE < 4 ∧
       s.get pDRAMC R.DRAMC_CFG_SPARE ≠ b2n false) ∧
    (let s := sets (enab mem [pSCRUB]) [(pSCRUB, R.SCRUB_LEN_LO, 1)]
     s.accepts pSCRUB 0x40 (2 ^ 31 + b2n true) ∧ s.accepts pSCRUB 0x40 (2 ^ 31 + b2n false) ∧ s.enabled pSCRUB = true ∧
       s.scrub.busy = false ∧ s.get64 pSCRUB R.SCRUB_LEN_LO R.SCRUB_LEN_HI ≠ 0 ∧
       s.get64 pSCRUB R.SCRUB_START_LO R.SCRUB_START_HI + s.get64 pSCRUB R.SCRUB_LEN_LO R.SCRUB_LEN_HI ≤ lsSize) ∧
    (let s := { enab mem [pSCRUB] with scrub := { busy := true, len := 128 } }
     s.accepts pSCRUB 0x40 (2 ^ 30 + s.get pSCRUB R.SCRUB_CTRL_MEM) ∧ s.get pSCRUB R.SCRUB_CTRL_MEM < 2 ∧ s.scrub.busy = true ∧
       s.enabled pSCRUB = true ∧ s.scrub.lastTick + max 1 (s.get pSCRUB R.SCRUB_GAP) ≤ s.tick ∧ s.scrub.pos + 64 < s.scrub.len) ∧
    (let s := { enab mem [pSCRUB] with scrub := { busy := true, mem := true, pos := 64, len := 128 } }
     s.scrub.mem = true ∧ s.dramServed 5 64 64 0x4F = true ∧ s.scrub.len ≤ s.scrub.pos + 64) ∧
    on.chServes 0 = false ∧ (on.dramAt 0).mig = none := by
  unfold State.accepts; decide +kernel

/-! ### Witnesses: serial lanes -/

/-- Head lane 0 enabled, in other states. -/
def laneWith (x : LaneSt) : State := { enab on [pLANE 0] with lane := [(0, x)] }
theorem test_witness_LaneLock : (laneWith { st := 3 }).accepts (pLANE 0) 0x50 (65 : BitVec 7).toNat ∧ laneSlips (0 : Lane) = true ∧
    laneSlips 135 = true ∧ laneSlips 136 = false ∧ on.accepts (pLANE 136) 0x50 65 ∧ on.accepts (pLANE 159) 0x50 (2 ^ 31) ∧ ((laneWith { st := 3 }).laneAt 0).st ∈ [1, 3, 4] ∧
    (laneWith { st := 3 }).accepts (pLANE 0) 0x50 (66 : BitVec 7).toNat ∧ (laneWith { st := 3 }).straps.pairEn = false ∧
    (laneWith { st := 1 }).accepts (pLANE 0) 0x50 (2 ^ 31) ∧ ((laneWith { st := 1 }).laneAt 0).st = 1 ∧
    (let s := laneWith { st := 2, stepsLeft := 66, stepAt := 9999000 }
     s.laneLive 0 = true ∧ (s.laneAt 0).st = 2 ∧ blocksIn 0 (s.tick - 9999000) ≤ 66 * 66 ∧ 65 < 66 ∧
       3 * 65 + 66 ≤ blocksIn 0 (s.tick - 9999000) ∧ 3 * 66 ≤ blocksIn 0 (s.tick - 9999000) ∧
       66 * 5 < blocksIn 0 (s.tick - 9999000) ∧ blocksIn 0 (s.tick - 9999000) < 3 * 112) ∧
    (laneWith { st := 5, exitAt := 9999900 }).laneLive 0 = true ∧ ((laneWith { st := 5, exitAt := 9999900 }).laneAt 0).st = 5 ∧
    (laneWith { st := 5, exitAt := 9999900 }).tick ≤ (laneWith { st := 5, exitAt := 9999900 }).exitLimit 0 ∧
    (laneWith { st := 5 }).exitLimit 0 < on.tick ∧
    (let s := laneWith { st := 3, cdr := true, block := true, bad := [(9999999, 15)] }
     s.laneLive 0 = true ∧ (s.laneAt 0).block = true ∧ mayFence s (pLANE 0) ∧ (s.headAt 0).ready = [] ∧
       16 ≤ ((s.badRecent 0).map (·.2)).sum + 1) ∧
    (let s := laneWith { st := 3, cdr := true, block := true, bad := [(9000000, 15)] }
     ((s.badRecent 0).map (·.2)).sum + 15 < 16) ∧
    mayFence (enab (laneWith { st := 3 }) [pHEAD 0]) (pHEAD 0) ∧ ((laneWith { st := 3 }).laneAt 0).block = false ∧
    ((laneWith { st := 5, block := true }).laneAt 0).block = true ∧ on.laneLive 0 = false ∧
    (let s := laneWith { st := 1, good := 40 }
     s.laneLive 0 = true ∧ (s.laneAt 0).st ∈ [1, 2, 3, 5] ∧ (s.laneAt 0).block = false) ∧
    (let s := ({ laneWith { st := 1 } with fenceAt := [(pLANE 0, 10000000)] } : State).set (pLANE 0) R.PG_FENCE_FENCED 1
     s.laneLive 0 = true ∧ (s.laneAt 0).st ≠ 3 ∧ (s.laneAt 0).st ≠ 5 ∧ s.fencedNow (pLANE 0) = true) ∧
    (laneWith { st := 1 }).fencedNow (pLANE 0) = false := by
  unfold State.accepts mayFence; decide +kernel
/-- Lane 0 with a scan that runs since a tick. -/
def scanning (since : Nat) : LaneSt := { st := 3, scan := some { mode := 1, dwell := 10, thr := 0, phase := 0, since := since } }
theorem test_witness_LaneMeasurements : (laneWith { st := 3 }).accepts (pLANE 0) 0x50 (2 ^ 30) ∧ (0 : Lane).val < 128 ∧
    ((laneWith { st := 3 }).laneAt 0).scan = none ∧ ((laneWith (scanning 0)).laneAt 0).scan = (scanning 0).scan ∧
    (if 1 = 1 then 1 else 1024) * 2 ^ 10 ≤ 22 * (on.tick - 0) ∧ 22 * (on.tick - 9999999) < (if 1 = 1 then 1 else 1024) * 2 ^ 10 ∧
    (let s := sets (laneWith { st := 3, scan := some { mode := 0, dwell := 10, thr := 0, phase := 0, since := 0 }, calRuns := true })
       [(pCAL, R.CAL_STAT_STEP, 2)]
     (s.laneAt 0).calRuns = true ∧ s.get pCAL R.CAL_STAT_STEP = 2 ∧ 1024 * 2 ^ 10 ≤ 22 * (s.tick - 0)) ∧
    ((laneWith { st := 3 }).laneAt 0).lastStep + 192 ≤ on.tick ∧ on.tick < 10000000 - 191 + 192 ∧
    ((laneWith { phase := -1 }).laneAt 0).phase < sgn 8 ((laneWith { phase := -1 }).ap (pLANE 0) R.LANE_SAMP_PHASE) ∧
    sgn 8 ((laneWith { phase := 1 }).ap (pLANE 0) R.LANE_SAMP_PHASE) < ((laneWith { phase := 1 }).laneAt 0).phase ∧
    ((laneWith { thr := 1 }).laneAt 0).phase = sgn 8 ((laneWith { thr := 1 }).ap (pLANE 0) R.LANE_SAMP_PHASE) ∧
    (let s := sets (laneWith { st := 6 }) [(pLANE 0, R.LANE_PRBS_CHK, 1)]
     (s.laneAt 0).st = 6 ∧ s.flag (pLANE 0) R.LANE_PRBS_CHK = true ∧ s.flag (pLANE 0) R.LANE_PRBS_STAT = false) ∧
    (sets (laneWith { st := 6 }) [(pLANE 0, R.LANE_PRBS_STAT, 1)]).flag (pLANE 0) R.LANE_PRBS_STAT = true := by
  unfold State.accepts; decide +kernel

/-! ### Witnesses: the device, the boot sequencer and the flash -/

theorem test_witness_DeviceEvents : on.inReset = false ∧ ({ on with inReset := true } : State).inReset = true ∧
    (⟨1, false, true⟩ : Straps) ≠ on.straps ∧ on.accepts pSYS 0x48 0x5A5A ∧ on.warmOk = true ∧
    (let s := { on with dram := [(0, { mig := some (0, 0, 1) })] }
     s.accepts pSYS 0x48 0x5A5A ∧ s.warmOk = false) ∧
    ({ on with wrstPend := true } : State).wrstPend = true ∧ ({ on with wrstPend := true } : State).warmOk = true ∧
    on.pll = true ∧ on.fenced pSYS = false ∧ on.fenced pTHERM = false ∧ lineOn.lineRuns 0 = true ∧ lineOn.held (pLINE 0) = false ∧ lineOn.srsts.has (pLINE 0) = false ∧
    on.resetting pTHERM = false ∧ on.tapReg = none ∧ on.tap = .idcode ∧ ({ on with tap := .bypass } : State).tap ∈ [TapOp.bypass, .clamp, .highz] ∧
    ({ on with tap := .extest } : State).tap = .extest ∧ ({ on with tapReg := some [true] } : State).tapReg = some [true] ∧ on.shut = false ∧ (1000 : BitVec 16).toInt = 1000 ∧ (999 : BitVec 16).toInt < 1000 := by
  unfold State.accepts; decide +kernel
/-- Every step before the last done, each attempted again. -/
def attempts : State :=
  sets { on with boot := { attempt := 0xFF } } ((List.range 8).map fun i => (pBOOT, bootFld i, 2))
theorem test_witness_BootSteps : (∀ i < 8, attempts.stepTaken i = true) ∧ attempts.shut = false ∧ on.stepTaken 7 = false ∧
    on.bootStep 6 = 0 ∧ ({ on with boot := { attempt := 0x40 } } : State).bootStep 6 = 0 ∧
    bit ({ on with boot := { chRun := 1 } } : State).boot.chRun (0 : DramCh) = true ∧ bit on.boot.chRun (0 : DramCh) = false ∧
    (let s := { mem with boot := { mem.boot with chRun := 1 } }
     setBit s.boot.chFail 0 false = 0 ∧ setBit s.boot.chRun 0 false = 0 ∧ ∀ j < 4, j ≠ 0 → (s.dramAt j).trained = true) ∧
    setBit 8 0 false ≠ 0 ∧ on.heldClock = false ∧ ({ on with heldClock := true } : State).heldClock = true ∧
    spdSupported (spdOf 1 1 34) = true ∧ spdAlike (spdOf 1 1 34) (spdOf 1 1 34) = true ∧ spdSupported SpdInfo.absent = false ∧
    boardValid (on.flashBytes 0 68) = false ∧ on.fenced pBOOT = false ∧ on.fenced pPROF = false ∧ on.fenced (pDRAM 0) = false ∧
    on.calInForce 5 = none ∧ on.laneNamed 0 = true ∧
    (let s := sets { on with boot := { dueAt := [(1, 5)] } } [(pBOOT, bootFld 1, 3)]
     s.inReset = false ∧ s.shut = false ∧ s.bootStep 1 = 3 ∧ s.retryDue 1 = true) ∧ on.retryDue 0 = false ∧
    (let s := { enab on [pLANE 0] with lane := [(0, { st := 1 })], boot := { failLanes := [0], dueAt := [(0x100, 5)] } }
     laneStep 0 = 4 ∧ (s.boot.failLanes.filter fun l => laneStep l == 4 && s.retryDue (0x100 + l)) = [0] ∧ (s.laneAt 0).st = 1 ∧ s.working (pLANE 0) = true) ∧
    (let s := { on with boot := { chFail := 8, dueAt := [(0x203, 5)] } }
     bit s.boot.chFail 3 = true ∧ s.retryDue (0x200 + 3) = true) ∧ on.accepts pBOOT 0x4C 1 ∧ keyStep 0 = 0 ∧ keyStep 0x203 = 6 ∧
    (sets on [(pBOOT, bootFld 0, 3)]).bootStep 0 = 3 ∧ on.bootStep 0 ≠ 3 ∧
    (let s := sets { attempts with boot := { attempt := 0xFF, chTry := 5, chFail := 5 } } []
     s.stepTaken 6 = true ∧ s.bootStep 6 ≠ 0 ∧ ((List.range 4).filter fun j => bit s.boot.chTry j).length = 2) ∧
    (attempts.set pCAL R.PG_FENCE_FENCED 1).fenced pCAL = true ∧ attempts.fenced pCAL = false ∧ attempts.resetting pCAL = false := by
  unfold State.accepts; decide +kernel
/-- A flash of 2^24 bytes known, and DRAM in service. -/
def flashOn : State := sets mem [(pBOOT, bootFld 1, 2), (pBOOT, R.BOOT_FLASH_LOG2, 24), (pBOOT, R.BOOT_FLASH_E4K, 1),
  (pBOOT, R.BOOT_FLASH_E64K, 1), (pBOOT, R.BOOT_FL_LEN, 256), (pBOOT, R.BOOT_FL_ADDR, 0x800000), (pBOOT, R.PG_LOCK_LOCKED, 0)]
theorem test_witness_FlashOperations : flashOn.accepts pBOOT 0xD0 (2 ^ 31 + 0) ∧ flashOn.accepts pBOOT 0xD0 (2 ^ 31 + 3) ∧
    flashOn.flag pBOOT R.BOOT_FL_STAT_BUSY = false ∧ (∀ op < 4, flashOn.flashRefused op = false) ∧ mem.flashRefused 2 = true ∧
    flashOn.flag pBOOT R.PG_LOCK_LOCKED = false ∧ (sets flashOn [(pBOOT, R.PG_LOCK_LOCKED, 1)]).flag pBOOT R.PG_LOCK_LOCKED = true ∧
    ({ flashOn with boot := { op := some (2, 0x800000, 4096, 0) } } : State).boot.op = some (2, 0x800000, 4096, 0) ∧
    ({ flashOn with boot := { op := some (2, 0x800000, 4096, 0) } } : State).shut = false ∧
    flashOn.boot.op = none ∧ (sets flashOn [(pBOOT, R.BOOT_FL_STAT_BUSY, 1)]).flag pBOOT R.BOOT_FL_STAT_BUSY = true ∧
    flashOn.boot.opAfter = 0 ∧ flashOn.fenced pBOOT = false ∧ ¬ flashWaits flashOn 1 0 256 ∧ ¬ flashWaits flashOn 2 0 4096 ∧
    flashWaits on 0 0 256 ∧ 0 % 64 = 0 ∧ 256 % 64 = 0 ∧ burstsApart flashOn 0 256 := by
  unfold State.accepts flashWaits burstsApart; decide +kernel
theorem test_witness_FlashOperations_memory : ({ flashOn with boot := { op := some (2, 0x800000, 4096, 0) } } : State).memSound := by
  unfold State.memSound; decide +kernel

end Sys2Proof.Tests
end

/-! ### O28, the bits of a block: what a writer of bits wrote, a reader of bits reads (R64, R67) -/

namespace Sys2Proof.Machine

/-- A reader takes exactly the bits l from the front, whatever follows them, and answers v. -/
def Rd.Reads {α : Type} (f : Rd → Option (α × Rd)) (l : List Bool) (v : α) : Prop :=
  ∀ n t, f ⟨n, l ++ t⟩ = some (v, ⟨n + l.length, t⟩)

@[simp] theorem bitsMsb_zero (v : Nat) : bitsMsb 0 v = [] := rfl
@[simp] theorem bitsMsb_length (w v : Nat) : (bitsMsb w v).length = w := by simp [bitsMsb]

theorem bitsMsb_succ (w v : Nat) : bitsMsb (w + 1) v = v.testBit w :: bitsMsb w v := by
  simp [bitsMsb, bit, List.range_succ_eq_map, Nat.sub_sub, Nat.add_comm]

theorem bitsMsb_append {v : Nat} {j : Nat} (i u : Nat) (hv : v < 2 ^ j) :
    bitsMsb (i + j) (2 ^ j * u + v) = bitsMsb i u ++ bitsMsb j v := by
  unfold bitsMsb bit
  rw [List.range_add, List.map_append, List.map_map]
  congr 1
  · refine List.map_congr_left fun x hx => ?_
    have hx : x < i := List.mem_range.mp hx
    rw [Nat.testBit_two_pow_mul_add _ hv, if_neg (by omega)]
    congr 1; omega
  · refine List.map_congr_left fun x hx => ?_
    have hx : x < j := List.mem_range.mp hx
    rw [Function.comp_apply, Nat.testBit_two_pow_mul_add _ hv, if_pos (by omega)]
    congr 1; omega

/-! #### Fixed-width values -/

theorem b2n_eq_toNat (b : Bool) : b2n b = b.toNat := by cases b <;> rfl

theorem Rd.value_bitsMsb (w v a : Nat) : Rd.Reads (Rd.value w a) (bitsMsb w v) (2 ^ w * a + v % 2 ^ w) := by
  induction w generalizing a with
  | zero => intro n t; simp [Rd.value, Nat.mod_one]
  | succ w ih =>
    intro n t
    rw [bitsMsb_succ]
    simp only [Rd.value, Rd.bit, List.cons_append, ih _ _ _, List.length_cons, bitsMsb_length, Nat.mod_pow_succ,
      b2n_eq_toNat, Nat.toNat_testBit]
    congr 2
    · ring
    · congr 1; omega

theorem Rd.value_of_lt {w v : Nat} (hv : v < 2 ^ w) : Rd.Reads (Rd.value w 0) (bitsMsb w v) v := by
  simpa [Nat.mod_eq_of_lt hv] using Rd.value_bitsMsb w v 0

theorem Rd.value_add (u v a : Nat) (r : Rd) :
    Rd.value (u + v) a r = (Rd.value u a r).bind fun x => Rd.value v x.1 x.2 := by
  induction u generalizing a r with
  | zero => simp [Rd.value]
  | succ u ih =>
    rw [Nat.succ_add]
    simp only [Rd.value]
    cases r.bit with
    | none => rfl
    | some x => exact ih _ _

/-- The number that values make, written after a one after another in w bits each, the first the most significant. -/
def fieldsVal (w a : Nat) (c : List Nat) : Nat := c.foldl (fun m x => 2 ^ w * m + x) a

/-- Values written one after another in w bits each are read as one number, as an escape block's decoder does. -/
theorem Rd.value_fields (w : Nat) (c : List Nat) (a : Nat) (hc : ∀ x ∈ c, x < 2 ^ w) :
    Rd.Reads (Rd.value (w * c.length) a) (c.flatMap (bitsMsb w)) (fieldsVal w a c) := by
  induction c generalizing a with
  | nil => intro n t; simp [Rd.value, fieldsVal]
  | cons x xs ih =>
    intro n t
    have hx : x % 2 ^ w = x := Nat.mod_eq_of_lt (hc x (by simp))
    have hr := ih (2 ^ w * a + x) fun y hy => hc y (by simp [hy])
    rw [List.length_cons, Nat.mul_succ, Nat.add_comm, Rd.value_add, List.flatMap_cons, List.append_assoc,
      Rd.value_bitsMsb w x a n, hx, Option.bind_some, hr]
    simp [fieldsVal, Nat.add_assoc]

/-- Cutting that number into fields gives the values back. -/
theorem fields_of_fieldsVal (w : Nat) (c : List Nat) (hc : ∀ x ∈ c, x < 2 ^ w) :
    (List.range c.length).map (fun i => fieldsVal w 0 c / 2 ^ (w * (c.length - 1 - i)) % 2 ^ w) = c := by
  induction c using List.reverseRecOn with
  | nil => rfl
  | append_singleton xs x ih =>
    have hx : x < 2 ^ w := hc x (by simp)
    have hr := ih fun y hy => hc y (by simp [hy])
    have happ : fieldsVal w 0 (xs ++ [x]) = 2 ^ w * fieldsVal w 0 xs + x := by simp [fieldsVal]
    rw [List.length_append, List.length_singleton, List.range_succ, List.map_append, happ]
    congr 1
    · rw [List.map_congr_left (g := _) fun i hi => ?_]
      · exact hr
      · have hi : i < xs.length := List.mem_range.mp hi
        rw [show xs.length + 1 - 1 - i = xs.length - 1 - i + 1 by omega, Nat.mul_succ, Nat.add_comm (w * _), Nat.pow_add,
          ← Nat.div_div_eq_div_mul, Nat.mul_add_div (Nat.two_pow_pos w), Nat.div_eq_of_lt hx, Nat.add_zero]
    · simp [Nat.mod_eq_of_lt hx]

/-! #### Rice codes -/

theorem Rd.ones_replicate_zero (j f q : Nat) (hj : j < f) :
    Rd.Reads (Rd.ones f q) (List.replicate j true ++ [false]) (q + j) := by
  induction j generalizing f q with
  | zero =>
    intro n t
    obtain ⟨f, rfl⟩ : ∃ g, f = g + 1 := ⟨f - 1, by omega⟩
    simp [Rd.ones, Rd.bit]
  | succ j ih =>
    intro n t
    obtain ⟨f, rfl⟩ : ∃ g, f = g + 1 := ⟨f - 1, by omega⟩
    simp only [List.replicate_succ, List.cons_append, Rd.ones, Rd.bit, ih f (q + 1) (by omega) _ _]
    simp; omega

theorem Rd.ones_replicate (f q : Nat) : Rd.Reads (Rd.ones f q) (List.replicate f true) (q + f) := by
  induction f generalizing q with
  | zero => intro n t; simp [Rd.ones]
  | succ f ih =>
    intro n t
    simp only [List.replicate_succ, List.cons_append, Rd.ones, Rd.bit, ih (q + 1) _ _]
    simp; omega

@[simp] theorem riceBits_length (k w v : Nat) : (riceBits k w v).length = riceLen k w v := by
  unfold riceBits riceLen
  by_cases h : v / 2 ^ k < 24
  · simp [h]; omega
  · simp only [if_neg h, List.length_append, List.length_replicate, bitsMsb_length]

/-- A Rice code of a value of w bits reads as the value (R67, R69). -/
theorem Rd.rice_riceBits {w v : Nat} (k : Nat) (hv : v < 2 ^ w) : Rd.Reads (Rd.rice k w) (riceBits k w v) v := by
  intro n t
  unfold Rd.rice
  rw [riceBits_length]
  by_cases h : v / 2 ^ k < 24
  · simp only [riceBits, riceLen, if_pos h, List.append_assoc]
    rw [← List.append_assoc, Rd.ones_replicate_zero _ 24 0 h n]
    simp only [Nat.zero_add, if_neg (Nat.ne_of_lt h), Rd.value_bitsMsb k _ 0 _ _]
    simp [Nat.div_add_mod', Nat.add_assoc]
  · simp only [riceBits, riceLen, if_neg h, List.append_assoc, Rd.ones_replicate 24 0 n _]
    simp [Rd.value_of_lt hv _ _, Nat.add_assoc]

/-! #### Bytes -/

@[simp] theorem byteBits_nil : byteBits [] = [] := rfl
@[simp] theorem byteBits_cons (b : Byte) (l : List Byte) : byteBits (b :: l) = bitsMsb 8 b.toNat ++ byteBits l := rfl
@[simp] theorem byteBits_append (l m : List Byte) : byteBits (l ++ m) = byteBits l ++ byteBits m := by simp [byteBits]
@[simp] theorem byteBits_length (l : List Byte) : (byteBits l).length = 8 * l.length := by
  induction l with
  | nil => rfl
  | cons b l ih => simp [ih]; omega

/-- The number that bits make, most significant first. -/
def bitsVal (l : List Bool) : Nat := l.foldl (fun a b => 2 * a + b2n b) 0

theorem bitsVal_append_singleton (l : List Bool) (b : Bool) : bitsVal (l ++ [b]) = 2 * bitsVal l + b2n b := by simp [bitsVal]

theorem b2n_lt_two (b : Bool) : b2n b < 2 := by cases b <;> decide

theorem bitsMsb_bitsVal (l : List Bool) : bitsMsb l.length (bitsVal l) = l := by
  induction l using List.reverseRecOn with
  | nil => rfl
  | append_singleton l b ih =>
    have happ := bitsMsb_append (j := 1) l.length (bitsVal l) (b2n_lt_two b)
    rw [pow_one] at happ
    rw [bitsVal_append_singleton, List.length_append, List.length_singleton, happ, ih]
    cases b <;> rfl

theorem bitsVal_lt (l : List Bool) : bitsVal l < 2 ^ l.length := by
  induction l using List.reverseRecOn with
  | nil => decide
  | append_singleton l b ih =>
    have hb := b2n_lt_two b
    rw [bitsVal_append_singleton, List.length_append, List.length_singleton, pow_succ]
    omega

theorem bitsMsb_byte {l : List Bool} (h : l.length = 8) : bitsMsb 8 (BitVec.ofNat 8 (bitsVal l)).toNat = l := by
  have hlt := bitsVal_lt l
  have hl := bitsMsb_bitsVal l
  rw [h] at hlt hl
  rw [BitVec.toNat_ofNat, Nat.mod_eq_of_lt hlt, hl]

theorem map_getD_range (l : List Bool) (n : Nat) :
    (List.range n).map (fun i => l.getD i false) = l.take n ++ List.replicate (n - l.length) false := by
  induction n generalizing l with
  | zero => simp
  | succ n ih =>
    cases l with
    | nil => simp
    | cons b l => simpa [List.range_succ_eq_map, Function.comp_def] using ih l

/-- How many 0 bits pad so many bits to whole bytes. -/
def padLen (n : Nat) : Nat := (8 - n % 8) % 8

/-- Bits written as bytes are followed by their padding only (R64). -/
theorem byteBits_bitsBytes (m : Nat) (l : List Bool) (h : l.length ≤ 8 * m) :
    byteBits (bitsBytes m l) = l ++ List.replicate (padLen l.length) false := by
  induction m generalizing l with
  | zero =>
    obtain rfl : l = [] := List.eq_nil_of_length_eq_zero (by omega)
    rfl
  | succ m ih =>
    cases hl : l with
    | nil => rfl
    | cons b t =>
      rw [← hl]
      have hne : l.isEmpty = false := by simp [hl]
      have hbyte : (List.range 8).foldl (fun a i => 2 * a + b2n (l.getD i false)) 0 =
          bitsVal (l.take 8 ++ List.replicate (8 - l.length) false) := by
        rw [bitsVal, ← map_getD_range, List.foldl_map]
      simp only [bitsBytes, hne, Bool.false_eq_true, if_false, byteBits_cons]
      rw [hbyte, bitsMsb_byte (by simp; omega), ih _ (by simp; omega), List.append_assoc]
      rcases Nat.lt_or_ge l.length 8 with h8 | h8
      · have : 0 < l.length := by simp [hl]
        rw [List.take_of_length_le (by omega), List.drop_of_length_le (by omega)]
        simp [padLen]; omega
      · rw [show 8 - l.length = 0 by omega, List.replicate_zero, List.nil_append, ← List.append_assoc, List.take_append_drop]
        congr 2
        simp [padLen]; omega

theorem bitsBytes_length (m : Nat) (l : List Bool) (h : l.length ≤ 8 * m) : (bitsBytes m l).length = (l.length + 7) / 8 := by
  have := congrArg List.length (byteBits_bitsBytes m l h)
  simp [padLen] at this
  omega

/-- After bits that began at a byte boundary, the reader skips their padding and stands behind their bytes (R64). -/
theorem Rd.align_bitsBytes {n : Nat} (m : Nat) (l t : List Bool) (hn : n % 8 = 0) (h : l.length ≤ 8 * m) :
    Rd.align ⟨n + l.length, List.replicate (padLen l.length) false ++ t⟩ = ⟨n + 8 * (bitsBytes m l).length, t⟩ := by
  have hpad : (8 - (n + l.length) % 8) % 8 = padLen l.length := by unfold padLen; omega
  have hlen : l.length + padLen l.length = 8 * (bitsBytes m l).length := by
    rw [bitsBytes_length m l h]; unfold padLen; omega
  simp [Rd.align, hpad, ← hlen, Nat.add_assoc]

theorem Rd.align_aligned {n : Nat} (t : List Bool) (hn : n % 8 = 0) : Rd.align ⟨n, t⟩ = ⟨n, t⟩ := by simp [Rd.align, hn]

end Sys2Proof.Machine

/-! ### O28, the residues of a contone line (R65, R66) and the blocks that code them -/

namespace Sys2Proof.Machine

theorem predict_lt {p w n nw : Nat} (hw : w < 256) (hn : n < 256) : predict p w n nw < 256 := by
  unfold predict
  split_ifs <;> omega

theorem zigzag_lt (cur p : Nat) : zigzag cur p < 256 := by
  simp only [zigzag]
  split_ifs <;> omega

/-- The decoder's inverse of the zigzag rule gives the sample back (R66). -/
@[simp] theorem unzig_zigzag {cur p : Nat} (hc : cur < 256) (hp : p < 256) : unzig p (zigzag cur p) = cur := by
  simp only [zigzag]
  by_cases h : (cur + 256 - p) % 256 < 128
  · rw [if_pos h, unzig, if_pos (by omega)]; omega
  · rw [if_neg h, unzig, if_neg (by omega)]; omega

/-- R66: the residue in −128 to 127, its zigzag value and the sample the decoder takes. -/
theorem zigzag_spec {cur p : Nat} (hc : cur < 256) (hp : p < 256) :
    ∃ e : Int, -128 ≤ e ∧ e ≤ 127 ∧ (e - ((cur : Int) - p)) % 256 = 0 ∧
      (zigzag cur p : Int) = (if 0 ≤ e then 2 * e else -2 * e - 1) ∧ zigzag cur p ≤ 255 ∧
      (unzig p (zigzag cur p) : Int) = (p + e) % 256 ∧ unzig p (zigzag cur p) = cur := by
  have hle : zigzag cur p ≤ 255 := Nat.le_of_lt_succ (zigzag_lt cur p)
  rw [unzig_zigzag hc hp]
  by_cases h : (cur + 256 - p) % 256 < 128
  · refine ⟨((cur + 256 - p) % 256 : Nat), by omega, by omega, by omega, ?_, hle, by omega, rfl⟩
    simp only [zigzag, if_pos h, if_pos (Int.natCast_nonneg _), Nat.cast_mul, Nat.cast_ofNat]
  · refine ⟨((cur + 256 - p) % 256 : Nat) - 256, by omega, by omega, by omega, ?_, hle, by omega, rfl⟩
    simp only [zigzag, if_neg h, if_neg (show ¬ (0 : Int) ≤ ((cur + 256 - p) % 256 : Nat) - 256 by omega)]
    omega

/-! #### Reading the samples of a block -/

theorem residues_lt (p : Nat) (c q : List Nat) (nw : Nat) (w : Option Nat) : ∀ z ∈ residues p c q nw w, z < 256 := by
  induction c generalizing q nw w with
  | nil => simp [residues]
  | cons x xs ih =>
    intro z hz
    rcases List.mem_cons.mp hz with rfl | hz
    · exact zigzag_lt _ _
    · exact ih _ _ _ z hz

/-- One step of reading samples: the residue that the encoder took against the same neighbours gives the sample back. -/
theorem contRead_zigzag {zero : Bool} {p k m x a nw : Nat} {s acc : List Nat} {r u : Rd} (hx : x < 256) (ha : a < 256)
    (hacc : ∀ y ∈ acc, y < 256)
    (hz : (if zero then some (0, r) else Rd.rice k 8 r) =
      some (zigzag x (predict p (acc.head?.getD a) a (if acc.head?.isNone then a else nw)), u)) :
    contRead zero p k (m + 1) (a :: s) nw acc r = contRead zero p k m s a (x :: acc) u := by
  have hw : acc.head?.getD a < 256 := by
    cases acc with
    | nil => exact ha
    | cons y ys => exact hacc y (by simp)
  have hu : unzig (predict p (acc.head?.getD a) a (if acc.head?.isNone then a else nw))
      (zigzag x (predict p (acc.head?.getD a) a (if acc.head?.isNone then a else nw))) = x := unzig_zigzag hx (predict_lt hw ha)
  cases acc <;> simp_all [contRead]

theorem getLastD_head?_reverse (c acc : List Nat) (h : c ≠ []) : (c.reverse ++ acc).head? = some (c.getLastD 0) := by
  obtain ⟨l, x, rfl⟩ := List.eq_nil_or_concat c |>.resolve_left h
  simp

/-- The bits of a coded contone block: its residues' Rice codes (R67). -/
def sampleBits (p k : Nat) (c q : List Nat) (nw : Nat) (w : Option Nat) : List Bool := (residues p c q nw w).flatMap (riceBits k 8)

/-- A coded block's bits read as the samples they were written of, against the same line before (R64 to R67). -/
theorem contRead_coded (p k : Nat) (c q s acc : List Nat) (nw n : Nat) (t : List Bool) (hq : q.length = c.length)
    (hc : ∀ x ∈ c, x < 256) (hp : ∀ x ∈ q, x < 256) (ha : ∀ x ∈ acc, x < 256) :
    contRead false p k c.length (q ++ s) nw acc ⟨n, sampleBits p k c q nw acc.head? ++ t⟩ =
      some (s, q.getLastD nw, c.reverse ++ acc,
        ⟨n + (sampleBits p k c q nw acc.head?).length, t⟩) := by
  induction c generalizing q nw acc n with
  | nil => obtain rfl := List.eq_nil_of_length_eq_zero hq; rfl
  | cons x xs ih =>
    obtain ⟨a, q, rfl⟩ : ∃ a b, q = a :: b := List.exists_cons_of_length_eq_add_one hq
    rw [List.forall_mem_cons] at hc hp
    rw [sampleBits, residues, List.flatMap_cons, List.append_assoc, List.length_cons, List.cons_append, List.headD_cons, List.tail_cons,
      contRead_zigzag hc.1 hp.1 ha ((if_neg Bool.false_ne_true).trans (Rd.rice_riceBits (w := 8) k (zigzag_lt _ _) n _))]
    have := ih q (x :: acc) a (n + riceLen k 8 (zigzag x (predict p (acc.head?.getD a) a (if acc.head?.isNone then a else nw))))
      (by simpa using hq) hc.2 hp.2 (by simpa using ⟨hc.1, ha⟩)
    rw [List.head?_cons, sampleBits] at this
    rw [riceBits_length, this, List.getLastD_cons]
    simp [Nat.add_assoc]

/-- A zero block has no bits, and gives the samples of zero residues (R63). -/
theorem contRead_zero (p : Nat) (c q s acc : List Nat) (nw : Nat) (r : Rd) (hq : q.length = c.length)
    (hc : ∀ x ∈ c, x < 256) (hp : ∀ x ∈ q, x < 256) (ha : ∀ x ∈ acc, x < 256)
    (hz : ∀ z ∈ residues p c q nw acc.head?, z = 0) :
    contRead true p 0 c.length (q ++ s) nw acc r = some (s, q.getLastD nw, c.reverse ++ acc, r) := by
  induction c generalizing q nw acc with
  | nil => obtain rfl := List.eq_nil_of_length_eq_zero hq; rfl
  | cons x xs ih =>
    obtain ⟨a, q, rfl⟩ : ∃ a b, q = a :: b := List.exists_cons_of_length_eq_add_one hq
    rw [List.forall_mem_cons] at hc hp
    rw [residues, List.forall_mem_cons, List.headD_cons, List.tail_cons] at hz
    rw [List.length_cons, List.cons_append, contRead_zigzag hc.1 hp.1 ha (by rw [hz.1]; rfl),
      ih q (x :: acc) a (by simpa using hq) hc.2 hp.2 (by simpa using ⟨hc.1, ha⟩) hz.2, List.getLastD_cons]
    simp

/-! #### The choice of a pair (p, k) -/

theorem fewest_mem {l : List (Nat × Nat × Nat)} (h : l ≠ []) : fewest l ∈ l := by
  obtain ⟨a, l, rfl⟩ := List.exists_cons_of_ne_nil h
  unfold fewest
  rw [List.headD_cons, List.tail_cons]
  clear h
  induction l generalizing a with
  | nil => exact List.mem_singleton_self a
  | cons x xs ih =>
    rw [List.foldl_cons]
    by_cases hx : x.2.2 < a.2.2
    · rw [if_pos hx]
      exact List.mem_cons_of_mem a (ih x)
    · rw [if_neg hx]
      rcases List.mem_cons.mp (ih a) with hm | hm
      · rw [hm]; exact List.mem_cons_self
      · exact List.mem_cons_of_mem a (List.mem_cons_of_mem x hm)

/-- A sum of code lengths is the length of the codes. -/
theorem foldl_add_length {α : Type} {g : α → Nat} {f : α → List Bool} (h : ∀ x, (f x).length = g x) (l : List α) (a : Nat) :
    l.foldl (fun a x => a + g x) a = a + (l.flatMap f).length := by
  induction l generalizing a with
  | nil => rfl
  | cons x xs ih => rw [List.foldl_cons, ih, List.flatMap_cons, List.length_append, h, Nat.add_assoc]

/-- What a contone block can be (R71). -/
inductive ContBlock (c q : List Nat) (nw : Nat) (w : Option Nat) : List Byte → Prop
  | zero (p : Nat) (hp : p < 4) (hz : ∀ z ∈ residues p c q nw w, z = 0) : ContBlock c q nw w [BitVec.ofNat 8 (0x40 + 16 * p)]
  | coded (p k : Nat) (hp : p < 4) (hk : k < 8)
      (hlen : ((sampleBits p k c q nw w).length + 7) / 8 < c.length) :
      ContBlock c q nw w (BitVec.ofNat 8 (16 * p + k) :: bitsBytes (c.length + 1) (sampleBits p k c q nw w))
  | escape : ContBlock c q nw w (0xC0 :: packRaw false c.length c)

theorem blockWrite_cont (c q : List Nat) (nw : Nat) (w : Option Nat) : ContBlock c q nw w (blockWrite false c q nw w).1 := by
  have hget : ∀ p, p < 4 → ((List.range 4).map fun p => residues p c q nw w).getD p [] = residues p c q nw w := by
    intro p hp
    simp [List.getD_eq_getElem?_getD, List.getElem?_range hp]
  simp only [blockWrite, Bool.false_eq_true, if_false]
  split
  · rename_i p hfind
    have hp : p < 4 := List.mem_range.mp (List.mem_of_find?_eq_some hfind)
    have hz := List.find?_some hfind
    rw [hget p hp] at hz
    exact .zero p hp (by simpa using hz)
  · generalize hl : (List.flatMap _ (List.range 4)) = l
    have hbest : fewest l ∈ l := fewest_mem (by rw [← hl]; simpa using ⟨0, by decide⟩)
    generalize fewest l = best at hbest
    rw [← hl, List.mem_flatMap] at hbest
    obtain ⟨p, hp, hbest⟩ := hbest
    obtain ⟨k, hk, rfl⟩ := List.mem_map.mp hbest
    rw [List.mem_range] at hp hk
    simp only [hget p hp, foldl_add_length (riceBits_length k 8), Nat.zero_add]
    split
    · next hlen => exact .coded p k hp hk hlen
    · exact .escape

end Sys2Proof.Machine

/-! ### O28, the tokens of a dot block (R68) and the blocks that code them -/

namespace Sys2Proof.Machine

/-- The bits of a token: its run, and its symbol where it has one (R68). -/
def tokenBits (k : Nat) (t : Nat × Nat) : List Bool := riceBits k 9 t.1 ++ if t.2 = 0 then [] else bitsMsb 2 t.2

theorem tokenBits_length (k : Nat) (t : Nat × Nat) : (tokenBits k t).length = riceLen k 9 t.1 + if t.2 = 0 then 0 else 2 := by
  unfold tokenBits
  split <;> simp [*]

/-- The differences d of R68 against the columns of the line before. -/
def colDiff (c q : List Nat) : List Nat := List.zipWith (fun a b => a ^^^ b) c q

/-- A run to the end of the block ends it (R68). -/
theorem dotRead_run_end (k f n m : Nat) (q : List Nat) (t : List Bool) (hn : n < 512) :
    dotRead k (f + 1) n q ⟨m, tokenBits k (n, 0) ++ t⟩ = some (q.take n, ⟨m + (tokenBits k (n, 0)).length, t⟩) := by
  have hr := Rd.rice_riceBits (w := 9) k hn m t
  simp [dotRead, tokenBits, hr]

/-- A run and a symbol give the columns skipped, the column changed, and the rest of the block where there is one (R68). -/
theorem dotRead_symbol (k f m d a : Nat) (z q : List Nat) (n : Nat) (t : List Bool) (hz : z.length + 1 + n < 512) (hd : d < 4) (h0 : d ≠ 0) :
    dotRead k (f + 1) (z.length + 1 + n) (z ++ a :: q) ⟨m, tokenBits k (z.length, d) ++ t⟩ =
      if n = 0 then some (z ++ [a ^^^ d], ⟨m + (tokenBits k (z.length, d)).length, t⟩)
      else (dotRead k f n q ⟨m + (tokenBits k (z.length, d)).length, t⟩).map fun x => (z ++ (a ^^^ d) :: x.1, x.2) := by
  have hr := Rd.rice_riceBits (w := 9) (v := z.length) k (by omega) m (bitsMsb 2 d ++ t)
  have hv := Rd.value_of_lt (w := 2) hd (m + (riceBits k 9 z.length).length) t
  have hbits : tokenBits k (z.length, d) ++ t = riceBits k 9 z.length ++ (bitsMsb 2 d ++ t) := by simp [tokenBits, h0]
  have hlen : (tokenBits k (z.length, d)).length = (riceBits k 9 z.length).length + (bitsMsb 2 d).length := by simp [tokenBits, h0]
  rw [hbits, hlen, dotRead, hr]
  simp only [hv, if_neg (show ¬ z.length + 1 + n < z.length by omega), if_neg (show z.length ≠ z.length + 1 + n by omega), if_neg h0]
  have htake : (z ++ a :: q).take z.length = z := by simp
  have hget : (z ++ a :: q).getD z.length 0 = a := by simp
  have hdrop : (z ++ a :: q).drop (z.length + 1) = q := by simp [List.drop_append]
  rw [htake, hget, hdrop, show z.length + 1 + n - z.length - 1 = n by omega, Nat.add_assoc m]
  by_cases hn : n = 0
  · rw [if_pos (by omega), if_pos hn]
  · rw [if_neg (by omega), if_neg hn]
    generalize dotRead k f n q _ = o
    cases o <;> rfl

/-- A coded block's tokens read as the columns they were written of. The columns z in front are those that the run so far has skipped. -/
theorem dotRead_dotTokens (k : Nat) (c q z : List Nat) (f m : Nat) (t : List Bool) (hq : q.length = c.length) (hf : c.length < f)
    (hz : 0 < z.length + c.length) (hn : z.length + c.length < 512) (hc : ∀ x ∈ c, x < 4) (hp : ∀ x ∈ q, x < 4) :
    dotRead k f (z.length + c.length) (z ++ q) ⟨m, (dotTokens z.length (colDiff c q)).flatMap (tokenBits k) ++ t⟩ =
      some (z ++ c, ⟨m + ((dotTokens z.length (colDiff c q)).flatMap (tokenBits k)).length, t⟩) := by
  induction c generalizing q z f m with
  | nil =>
    obtain rfl := List.eq_nil_of_length_eq_zero hq
    obtain ⟨f, rfl⟩ : ∃ g, f = g + 1 := ⟨f - 1, by simp at hf; omega⟩
    have hz : z ≠ [] := List.length_pos_iff.mp hz
    simpa [colDiff, dotTokens, hz] using dotRead_run_end k f z.length m z t (by simpa using hn)
  | cons x xs ih =>
    obtain ⟨a, q, rfl⟩ : ∃ a b, q = a :: b := List.exists_cons_of_length_eq_add_one hq
    obtain ⟨f, rfl⟩ : ∃ g, f = g + 1 := ⟨f - 1, by simp at hf; omega⟩
    rw [List.forall_mem_cons] at hc hp
    simp only [List.length_cons] at hf hn hq ⊢
    have hdiff : colDiff (x :: xs) (a :: q) = (x ^^^ a) :: colDiff xs q := rfl
    rw [hdiff, dotTokens]
    by_cases h0 : x ^^^ a = 0
    · obtain rfl : x = a := by simpa using h0
      have := ih q (z ++ [x]) (f + 1) m (by omega) (by omega) (by simp) (by simp; omega) hc.2 hp.2
      simpa [h0, Nat.add_comm, Nat.add_left_comm] using this
    · have hd : x ^^^ a < 4 := Nat.xor_lt_two_pow (n := 2) hc.1 hp.1
      have hx : a ^^^ (x ^^^ a) = x := by rw [Nat.xor_comm x a, ← Nat.xor_assoc, Nat.xor_self, Nat.zero_xor]
      rw [if_neg h0, List.flatMap_cons, List.append_assoc, show z.length + (xs.length + 1) = z.length + 1 + xs.length by omega,
        dotRead_symbol k f m _ a z q _ _ (by omega) hd h0, hx]
      by_cases hxs : xs.length = 0
      · obtain rfl := List.eq_nil_of_length_eq_zero hxs
        simp [colDiff, dotTokens]
      · have := ih q [] f (m + (tokenBits k (z.length, x ^^^ a)).length) (by omega) (by omega) (by simp; omega)
          (by simp; omega) hc.2 hp.2
        simp only [List.length_nil, Nat.zero_add, List.nil_append] at this
        simp [hxs, this, Nat.add_assoc]

/-- The bits of a coded dot block (R68). -/
def columnBits (k : Nat) (c q : List Nat) : List Bool := (dotTokens 0 (colDiff c q)).flatMap (tokenBits k)

theorem dotRead_columnBits (k : Nat) {c q : List Nat} (m : Nat) (t : List Bool) (hq : q.length = c.length) (h0 : 0 < c.length)
    (hn : c.length < 512) (hc : ∀ x ∈ c, x < 4) (hp : ∀ x ∈ q, x < 4) :
    dotRead k (c.length + 1) c.length q ⟨m, columnBits k c q ++ t⟩ = some (c, ⟨m + (columnBits k c q).length, t⟩) := by
  simpa [columnBits] using dotRead_dotTokens k c q [] (c.length + 1) m t hq (by omega) (by simpa using h0) (by simpa using hn) hc hp

/-- What a dot block can be (R71). -/
inductive DotBlock (c q : List Nat) : List Byte → Prop
  | zero (hz : ∀ d ∈ colDiff c q, d = 0) : DotBlock c q [0x40]
  | coded (k : Nat) (hk : k < 8) (hlen : ((columnBits k c q).length + 7) / 8 < c.length / 4) :
      DotBlock c q (BitVec.ofNat 8 k :: bitsBytes (c.length + 1) (columnBits k c q))
  | escape : DotBlock c q (0xC0 :: packRaw true (c.length / 4) c)

theorem dotCost_eq (k : Nat) (l : List (Nat × Nat)) :
    l.foldl (fun a t => a + riceLen k 9 t.1 + if t.2 = 0 then 0 else 2) 0 = (l.flatMap (tokenBits k)).length := by
  simpa only [Nat.add_assoc, Nat.zero_add] using foldl_add_length (tokenBits_length k) l 0

theorem blockWrite_dot (c q : List Nat) (nw : Nat) (w : Option Nat) : DotBlock c q (blockWrite true c q nw w).1 := by
  simp only [blockWrite, if_true]
  split
  · next hz => exact .zero (by simpa [colDiff] using hz)
  · generalize hl : (List.map _ (List.range 8)) = l
    have hbest : fewest l ∈ l := fewest_mem (by rw [← hl]; simp)
    generalize fewest l = best at hbest
    rw [← hl] at hbest
    obtain ⟨k, hk, rfl⟩ := List.mem_map.mp hbest
    rw [List.mem_range] at hk
    simp only [dotCost_eq]
    split
    · next hlen => exact .coded k hk hlen
    · exact .escape

theorem eq_of_colDiff_zero (c q : List Nat) (hq : q.length = c.length) (hz : ∀ d ∈ colDiff c q, d = 0) : c = q := by
  induction c generalizing q with
  | nil => exact (List.eq_nil_of_length_eq_zero hq).symm
  | cons x xs ih =>
    obtain ⟨a, q, rfl⟩ : ∃ a b, q = a :: b := List.exists_cons_of_length_eq_add_one hq
    have hdiff : colDiff (x :: xs) (a :: q) = (x ^^^ a) :: colDiff xs q := rfl
    rw [hdiff, List.forall_mem_cons] at hz
    rw [Nat.xor_eq_zero_iff.mp hz.1, ih q (by simpa using hq) hz.2]

end Sys2Proof.Machine

/-! ### O28, the raw layout of R59: values, their bytes and the bits of those -/

namespace Sys2Proof.Machine

/-- Bits of one value of a raw line: a level, or a sample (R59). -/
def valBits (dot : Bool) : Nat := if dot then 2 else 8
/-- Values of one raw byte. -/
def perByte (dot : Bool) : Nat := if dot then 4 else 1

@[simp] theorem valBits_true : valBits true = 2 := rfl
@[simp] theorem valBits_false : valBits false = 8 := rfl
@[simp] theorem perByte_true : perByte true = 4 := rfl
@[simp] theorem perByte_false : perByte false = 1 := rfl

@[simp] theorem unpackRaw_true_cons (b : Byte) (l : List Byte) : unpackRaw true (b :: l) =
    b.toNat / 64 :: b.toNat / 16 % 4 :: b.toNat / 4 % 4 :: b.toNat % 4 :: unpackRaw true l := rfl
@[simp] theorem unpackRaw_false (l : List Byte) : unpackRaw false l = l.map (·.toNat) := rfl
@[simp] theorem unpackRaw_nil (dot : Bool) : unpackRaw dot [] = [] := by cases dot <;> rfl

@[simp] theorem packRaw_false (m : Nat) (c : List Nat) : packRaw false m c = c.map (BitVec.ofNat 8) := rfl
@[simp] theorem packRaw_true_zero (c : List Nat) : packRaw true 0 c = [] := rfl
@[simp] theorem packRaw_true_succ (m a b c d : Nat) (l : List Nat) :
    packRaw true (m + 1) (a :: b :: c :: d :: l) = BitVec.ofNat 8 (64 * a + 16 * b + 4 * c + d) :: packRaw true m l := by
  simp only [packRaw, if_true, List.range_succ_eq_map, List.map_cons, List.map_map]
  congr 1

@[simp] theorem unpackRaw_length (dot : Bool) (l : List Byte) : (unpackRaw dot l).length = perByte dot * l.length := by
  cases dot with
  | false => simp
  | true =>
    induction l with
    | nil => rfl
    | cons b l ih => simp [ih]; omega

theorem unpackRaw_lt (dot : Bool) (l : List Byte) : ∀ x ∈ unpackRaw dot l, x < 2 ^ valBits dot := by
  cases dot with
  | false => simpa using fun b _ => b.isLt
  | true =>
    induction l with
    | nil => simp
    | cons b l ih =>
      have := b.isLt
      simp only [unpackRaw_true_cons, List.forall_mem_cons, valBits_true]
      exact ⟨by omega, by omega, by omega, by omega, ih⟩

/-- Packing the values of a raw line gives its bytes back. -/
theorem packRaw_unpackRaw (dot : Bool) (l : List Byte) : packRaw dot l.length (unpackRaw dot l) = l := by
  induction l with
  | nil => cases dot <;> rfl
  | cons b l ih =>
    cases dot with
    | false => simpa using ih
    | true =>
      have := b.isLt
      rw [List.length_cons, unpackRaw_true_cons, packRaw_true_succ, ih,
        show 64 * (b.toNat / 64) + 16 * (b.toNat / 16 % 4) + 4 * (b.toNat / 4 % 4) + b.toNat % 4 = b.toNat by omega,
        BitVec.ofNat_toNat, BitVec.setWidth_eq]

@[simp] theorem packRaw_length {dot : Bool} {m : Nat} {c : List Nat} (h : c.length = perByte dot * m) : (packRaw dot m c).length = m := by
  cases dot with
  | false => simpa using h
  | true => simp [packRaw]

theorem bitsMsb_levels {a b c d : Nat} (ha : a < 4) (hb : b < 4) (hc : c < 4) (hd : d < 4) :
    bitsMsb 8 (BitVec.ofNat 8 (64 * a + 16 * b + 4 * c + d)).toNat = bitsMsb 2 a ++ (bitsMsb 2 b ++ (bitsMsb 2 c ++ bitsMsb 2 d)) := by
  rw [← bitsMsb_append (j := 2) 2 c hd, ← bitsMsb_append (j := 4) 2 b (by omega), ← bitsMsb_append (j := 6) 2 a (by omega),
    BitVec.toNat_ofNat, Nat.mod_eq_of_lt (by omega)]
  congr 1; omega

/-- The bits of packed values are the values' own bits, one after another (R59). -/
theorem byteBits_packRaw (dot : Bool) (m : Nat) (c : List Nat) (h : c.length = perByte dot * m) (hc : ∀ x ∈ c, x < 2 ^ valBits dot) :
    byteBits (packRaw dot m c) = c.flatMap (bitsMsb (valBits dot)) := by
  cases dot with
  | false =>
    clear h
    induction c with
    | nil => rfl
    | cons x xs ih =>
      rw [List.forall_mem_cons] at hc
      have hx : x % 2 ^ 8 = x := Nat.mod_eq_of_lt hc.1
      have := ih hc.2
      simp only [packRaw_false, valBits_false] at this ⊢
      rw [List.map_cons, byteBits_cons, this, BitVec.toNat_ofNat, hx, List.flatMap_cons]
  | true =>
    induction m generalizing c with
    | zero => obtain rfl := List.eq_nil_of_length_eq_zero h; rfl
    | succ m ih =>
      match c, h with
      | x :: y :: z :: u :: l, h =>
        simp only [List.forall_mem_cons] at hc
        obtain ⟨hx, hy, hz, hu, hl⟩ := hc
        rw [packRaw_true_succ, byteBits_cons, ih l (by simp at h ⊢; omega) hl, bitsMsb_levels hx hy hz hu]
        simp

end Sys2Proof.Machine

/-! ### O28, one block: the decoder reads what the encoder wrote (R63, R69) -/

namespace Sys2Proof.Machine

theorem Rd.value_byte (b : Byte) (l : List Byte) (m : Nat) (t : List Bool) :
    Rd.value 8 0 ⟨m, byteBits (b :: l) ++ t⟩ = some (b.toNat, ⟨m + 8, byteBits l ++ t⟩) := by
  simpa using Rd.value_of_lt (w := 8) b.isLt m (byteBits l ++ t)

/-- A block's header: its kind, predictor and Rice parameter (R63). -/
def blockHead (kind p k : Nat) : Byte := BitVec.ofNat 8 (64 * kind + 16 * p + k)

theorem blockHead_toNat {kind p k : Nat} (hkind : kind < 4) (hp : p < 4) (hk : k < 16) :
    (blockHead kind p k).toNat = 64 * kind + 16 * p + k := by
  rw [blockHead, BitVec.toNat_ofNat, Nat.mod_eq_of_lt (by omega)]

/-- Values c still to be coded, the line before's values q there, and the samples so far, newest first: whole bytes, of the mode's width. -/
structure LineOf (dot : Bool) (c q acc : List Nat) : Prop where
  prevLen : q.length = c.length
  whole : perByte dot ∣ c.length
  curLt : ∀ x ∈ c, x < 2 ^ valBits dot
  prevLt : ∀ x ∈ q, x < 2 ^ valBits dot
  accLt : ∀ x ∈ acc, x < 2 ^ valBits dot

/-- The values of the next block where `left` values are to come. -/
structure BlockOf (dot : Bool) (left : Nat) (c q acc : List Nat) : Prop extends LineOf dot c q acc where
  pos : 0 < left
  len : c.length = min left (blockLen dot)

/-- The decoder at an escape block takes its values as they stand. -/
theorem blocksRead_escape {dot : Bool} {left : Nat} {c q acc : List Nat} (hb : BlockOf dot left c q acc) (f m nw : Nat) (s : List Nat)
    (t : List Bool) :
    blocksRead dot (f + 1) left (q ++ s) nw acc ⟨m, byteBits (0xC0 :: packRaw dot (c.length / perByte dot) c) ++ t⟩ =
      blocksRead dot f (left - c.length) s ((q ++ s).getD (c.length - 1) 0) (c.reverse ++ acc)
        ⟨m + 8 * (1 + c.length / perByte dot), t⟩ := by
  obtain ⟨left, rfl⟩ : ∃ g, left = g + 1 := ⟨left - 1, by have := hb.pos; omega⟩
  obtain ⟨j, hj⟩ := hb.whole
  have hdiv : c.length / perByte dot = j := by rw [hj]; cases dot <;> simp
  have hw : (if dot then 2 * c.length else 8 * c.length) = valBits dot * c.length := by cases dot <;> rfl
  have hw' : (if dot then 2 else 8) = valBits dot := by cases dot <;> rfl
  have hbits : (c.flatMap (bitsMsb (valBits dot))).length = 8 * j := by
    rw [← byteBits_packRaw dot j c hj hb.curLt, byteBits_length, packRaw_length hj]
  have hdrop : (q ++ s).drop c.length = s := by rw [← hb.prevLen]; simp
  rw [hdiv]
  simp only [blocksRead, Rd.value_byte, byteBits_packRaw dot j c hj hb.curLt, ← hb.len, hw, hw',
    Rd.value_fields (valBits dot) c 0 hb.curLt _ _, hbits, hdrop, fields_of_fieldsVal (valBits dot) c hb.curLt]
  simp [Nat.mul_add, Nat.add_assoc]

/-- The decoder at a coded or zero contone block goes on from where reading its samples ends. -/
theorem blocksRead_cont (f left kind p k m nw nw' : Nat) (prev prev' acc acc' : List Nat) (t : List Bool) (l : List Byte) (u : Rd)
    (h0 : 0 < left) (hkind : kind < 2) (hp : p < 4) (hk : k < 8) (hz : kind = 1 → k = 0)
    (hread : contRead (kind = 1) p k (min left 64) prev nw acc ⟨m + 8, byteBits l ++ t⟩ = some (prev', nw', acc', u)) :
    blocksRead false (f + 1) left prev nw acc ⟨m, byteBits (blockHead kind p k :: l) ++ t⟩ =
      blocksRead false f (left - min left 64) prev' nw' acc' u.align := by
  obtain ⟨left, rfl⟩ : ∃ g, left = g + 1 := ⟨left - 1, by omega⟩
  have h1 : (64 * kind + 16 * p + k) / 64 = kind := by omega
  have h2 : (64 * kind + 16 * p + k) / 16 % 4 = p := by omega
  have h3 : (64 * kind + 16 * p + k) % 16 = k := by omega
  have h4 : ¬ ((kind = 0 ∧ 7 < k) ∨ (kind = 1 ∧ k ≠ 0)) := by omega
  simp only [blocksRead, Rd.value_byte, blockHead_toNat (show kind < 4 by omega) hp (show k < 16 by omega), h1, h2, h3,
    if_neg (show kind ≠ 2 by omega), if_neg (show kind ≠ 3 by omega), if_neg h4, Bool.false_eq_true, if_false]
  rw [show blockLen false = 64 from rfl, hread]

/-- The decoder at a coded or zero dot block goes on from where reading its tokens ends. -/
theorem blocksRead_dot (f left kind k m nw : Nat) (prev acc l' : List Nat) (t : List Bool) (l : List Byte) (u : Rd)
    (h0 : 0 < left) (hkind : kind < 2) (hk : k < 8) (hz : kind = 1 → k = 0)
    (hread : (if kind = 1 then some (prev.take (min left 256), (⟨m + 8, byteBits l ++ t⟩ : Rd))
      else dotRead k (min left 256 + 1) (min left 256) (prev.take (min left 256)) ⟨m + 8, byteBits l ++ t⟩) = some (l', u)) :
    blocksRead true (f + 1) left prev nw acc ⟨m, byteBits (blockHead kind 0 k :: l) ++ t⟩ =
      blocksRead true f (left - min left 256) (prev.drop (min left 256)) 0 (l'.reverse ++ acc) u.align := by
  obtain ⟨left, rfl⟩ : ∃ g, left = g + 1 := ⟨left - 1, by omega⟩
  have h1 : (64 * kind + 16 * 0 + k) / 64 = kind := by omega
  have h2 : (64 * kind + 16 * 0 + k) / 16 % 4 = 0 := by omega
  have h3 : (64 * kind + 16 * 0 + k) % 16 = k := by omega
  have h4 : ¬ ((kind = 0 ∧ 7 < k) ∨ (kind = 1 ∧ k ≠ 0)) := by omega
  simp only [blocksRead, Rd.value_byte, blockHead_toNat (show kind < 4 by omega) (show 0 < 4 by omega) (show k < 16 by omega), h1, h2, h3,
    if_neg (show kind ≠ 2 by omega), if_neg (show kind ≠ 3 by omega), if_neg h4, ne_eq, not_true, if_false, if_true]
  rw [show blockLen true = 256 from rfl, hread]

/-- The last value of the line before in a block, as the next block's predictor takes it (R64). -/
theorem getLastD_eq_getD {q : List Nat} (s : List Nat) (nw : Nat) (h : 0 < q.length) : q.getLastD nw = (q ++ s).getD (q.length - 1) 0 := by
  obtain ⟨l, x, rfl⟩ := (List.eq_nil_or_concat q).resolve_left (List.length_pos_iff.mp h)
  simp

/-- The decoder reads a contone block as the samples that the encoder wrote it of. -/
theorem blocksRead_contBlock {left : Nat} {c q acc : List Nat} (hb : BlockOf false left c q acc) (f m nw : Nat) (s : List Nat)
    (t : List Bool) (hm : m % 8 = 0) {b : List Byte} (h : ContBlock c q nw acc.head? b) :
    blocksRead false (f + 1) left (q ++ s) nw acc ⟨m, byteBits b ++ t⟩ =
      blocksRead false f (left - c.length) s ((q ++ s).getD (c.length - 1) 0) (c.reverse ++ acc) ⟨m + 8 * b.length, t⟩ := by
  have hlast : q.getLastD nw = (q ++ s).getD (c.length - 1) 0 := by
    rw [getLastD_eq_getD s nw, hb.prevLen]
    have := hb.pos
    rw [hb.prevLen, hb.len, blockLen]; simpa using this
  rw [← hlast]
  have hlen : c.length = min left 64 := hb.len
  cases h with
  | zero p hp hz =>
    have hread := contRead_zero p c q s acc nw ⟨m + 8, t⟩ hb.prevLen hb.curLt hb.prevLt hb.accLt hz
    rw [hlen] at hread ⊢
    have := blocksRead_cont f left 1 p 0 m nw _ _ _ acc _ t [] _ hb.pos (by omega) hp (by omega) (fun _ => rfl) hread
    simpa [blockHead, Rd.align_aligned t (show (m + 8) % 8 = 0 by omega)] using this
  | coded p k hp hk hcost =>
    have hfit : (sampleBits p k c q nw acc.head?).length ≤ 8 * (c.length + 1) := by omega
    have hread := contRead_coded p k c q s acc nw (m + 8)
      (List.replicate (padLen (sampleBits p k c q nw acc.head?).length) false ++ t)
      hb.prevLen hb.curLt hb.prevLt hb.accLt
    rw [← List.append_assoc, ← byteBits_bitsBytes _ _ hfit] at hread
    have := blocksRead_cont f left 0 p k m nw _ _ _ acc _ t _ _ hb.pos (by omega) hp hk (by omega) (hlen ▸ hread)
    rw [Rd.align_bitsBytes (c.length + 1) _ t (show (m + 8) % 8 = 0 by omega) hfit, ← hlen] at this
    simpa [blockHead, Nat.mul_add, Nat.add_assoc, Nat.add_comm, Nat.add_left_comm] using this
  | escape =>
    rw [hlast]
    simpa [Nat.add_comm] using blocksRead_escape hb f m nw s t

/-- The decoder reads a dot block as the columns that the encoder wrote it of. -/
theorem blocksRead_dotBlock {left : Nat} {c q acc : List Nat} (hb : BlockOf true left c q acc) (f m nw : Nat) (s : List Nat)
    (t : List Bool) (hm : m % 8 = 0) {b : List Byte} (h : DotBlock c q b) :
    ∃ nw', blocksRead true (f + 1) left (q ++ s) nw acc ⟨m, byteBits b ++ t⟩ =
      blocksRead true f (left - c.length) s nw' (c.reverse ++ acc) ⟨m + 8 * b.length, t⟩ := by
  have hlen : c.length = min left 256 := hb.len
  have hpos : 0 < c.length := by have := hb.pos; omega
  have htake : (q ++ s).take c.length = q := by rw [← hb.prevLen]; simp
  have hdrop : (q ++ s).drop c.length = s := by rw [← hb.prevLen]; simp
  cases h with
  | zero hz =>
    obtain rfl := eq_of_colDiff_zero c q hb.prevLen hz
    have := blocksRead_dot f left 1 0 m nw (c ++ s) acc c t [] ⟨m + 8, t⟩ hb.pos (by omega) (by omega) (fun _ => rfl)
      (by simp [← hlen])
    rw [← hlen, hdrop, Rd.align_aligned t (show (m + 8) % 8 = 0 by omega)] at this
    exact ⟨0, by simpa [blockHead] using this⟩
  | coded k hk hcost =>
    have hfit : (columnBits k c q).length ≤ 8 * (c.length + 1) := by omega
    have hread := dotRead_columnBits k (m + 8) (List.replicate (padLen (columnBits k c q).length) false ++ t)
      hb.prevLen hpos (by omega) hb.curLt hb.prevLt
    rw [← List.append_assoc, ← byteBits_bitsBytes _ _ hfit] at hread
    have := blocksRead_dot f left 0 k m nw (q ++ s) acc c t _ _ hb.pos (by omega) hk (by omega)
      (by rw [← hlen, htake]; exact hread)
    rw [Rd.align_bitsBytes (c.length + 1) _ t (show (m + 8) % 8 = 0 by omega) hfit, ← hlen, hdrop] at this
    exact ⟨0, by simpa [blockHead, Nat.mul_add, Nat.add_assoc, Nat.add_comm, Nat.add_left_comm] using this⟩
  | escape =>
    have hwhole : (packRaw true (c.length / 4) c).length = c.length / 4 :=
      packRaw_length (Nat.mul_div_cancel' hb.whole).symm
    exact ⟨_, by simpa [hwhole, Nat.add_comm] using blocksRead_escape hb f m nw s t⟩

end Sys2Proof.Machine

/-! ### O28, all blocks of a segment line: their round trip and their length (R69, R70) -/

namespace Sys2Proof.Machine

/-- The decoder reads a block as the values that the encoder wrote it of, and stands at the next block with the encoder's neighbours. -/
theorem blocksRead_blockWrite {dot : Bool} {left : Nat} {c q acc : List Nat} (hb : BlockOf dot left c q acc) (f m nw nwe : Nat)
    (s : List Nat) (t : List Bool) (hm : m % 8 = 0) (hnw : dot = false → nw = nwe) :
    ∃ nw', (dot = false → nw' = (q ++ s).getD (c.length - 1) 0) ∧
      blocksRead dot (f + 1) left (q ++ s) nw acc ⟨m, byteBits (blockWrite dot c q nwe acc.head?).1 ++ t⟩ =
        blocksRead dot f (left - c.length) s nw' (c.reverse ++ acc) ⟨m + 8 * (blockWrite dot c q nwe acc.head?).1.length, t⟩ := by
  cases dot with
  | false =>
    obtain rfl := hnw rfl
    exact ⟨_, fun _ => rfl, blocksRead_contBlock hb f m nw s t hm (blockWrite_cont c q nw acc.head?)⟩
  | true =>
    obtain ⟨nw', h⟩ := blocksRead_dotBlock hb f m nw s t hm (blockWrite_dot c q nwe acc.head?)
    exact ⟨nw', Bool.noConfusion, h⟩

theorem perByte_dvd_blockLen (dot : Bool) : perByte dot ∣ blockLen dot := by cases dot <;> decide
theorem blockLen_pos (dot : Bool) : 0 < blockLen dot := by cases dot <;> decide

/-- The first block of a line is a block. -/
theorem LineOf.block {dot : Bool} {c q acc : List Nat} (h : LineOf dot c q acc) (hc : 0 < c.length) :
    BlockOf dot c.length (c.take (blockLen dot)) (q.take (blockLen dot)) acc where
  prevLen := by simp [h.prevLen]
  whole := by
    rw [List.length_take]
    rcases min_choice (blockLen dot) c.length with e | e <;> rw [e]
    · exact perByte_dvd_blockLen dot
    · exact h.whole
  curLt := fun x hx => h.curLt x (List.mem_of_mem_take hx)
  prevLt := fun x hx => h.prevLt x (List.mem_of_mem_take hx)
  accLt := h.accLt
  pos := hc
  len := by simp [min_comm]

/-- What follows the first block of a line is a line, with the block's values in front of it. -/
theorem LineOf.rest {dot : Bool} {c q acc : List Nat} (h : LineOf dot c q acc) :
    LineOf dot (c.drop (blockLen dot)) (q.drop (blockLen dot)) ((c.take (blockLen dot)).reverse ++ acc) where
  prevLen := by simp [h.prevLen]
  whole := by
    rw [List.length_drop]
    exact Nat.dvd_sub h.whole (perByte_dvd_blockLen dot)
  curLt := fun x hx => h.curLt x (List.mem_of_mem_drop hx)
  prevLt := fun x hx => h.prevLt x (List.mem_of_mem_drop hx)
  accLt := fun x hx => by
    rcases List.mem_append.mp hx with hx | hx
    · exact h.curLt x (List.mem_of_mem_take (List.mem_reverse.mp hx))
    · exact h.accLt x hx

@[simp] theorem blocksRead_none_left (dot : Bool) (f : Nat) (prev : List Nat) (nw : Nat) (acc : List Nat) (r : Rd) :
    blocksRead dot f 0 prev nw acc r = some (acc.reverse, r) := by
  cases f <;> rfl

@[simp] theorem blocksWrite_nil (dot : Bool) (f : Nat) (q : List Nat) (nw : Nat) (w : Option Nat) : blocksWrite dot f [] q nw w = ([], 0) := by
  cases f <;> rfl

/-- The blocks of a line are its first block and the blocks of what follows it. -/
theorem blocksWrite_bytes (dot : Bool) (f : Nat) {c : List Nat} (q : List Nat) (nw : Nat) (w : Option Nat) (hc : 0 < c.length) :
    (blocksWrite dot (f + 1) c q nw w).1 = (blockWrite dot (c.take (blockLen dot)) (q.take (blockLen dot)) nw w).1 ++
      (blocksWrite dot f (c.drop (blockLen dot)) (q.drop (blockLen dot)) (q.getD ((c.take (blockLen dot)).length - 1) 0)
        (some ((c.take (blockLen dot)).getLastD 0))).1 := by
  rw [blocksWrite, if_neg (by simpa using List.length_pos_iff.mp hc)]

/-- The decoder reads the blocks of a line as the line, whatever follows them. The decoder's and the encoder's last value of the line before
need agree in contone mode only. -/
theorem blocksRead_blocksWrite (dot : Bool) (f m nw nwe : Nat) (c q acc : List Nat) (t : List Bool) (h : LineOf dot c q acc)
    (hf : c.length ≤ f * blockLen dot) (hm : m % 8 = 0) (hnw : dot = false → nw = nwe) :
    blocksRead dot f c.length q nw acc ⟨m, byteBits (blocksWrite dot f c q nwe acc.head?).1 ++ t⟩ =
      some (acc.reverse ++ c, ⟨m + 8 * (blocksWrite dot f c q nwe acc.head?).1.length, t⟩) := by
  induction f generalizing m nw nwe c q acc with
  | zero =>
    obtain rfl := List.eq_nil_of_length_eq_zero (Nat.le_zero.mp (by simpa using hf))
    simp
  | succ f ih =>
    rcases Nat.eq_zero_or_pos c.length with hc | hc
    · obtain rfl := List.eq_nil_of_length_eq_zero hc
      simp
    · have hne : c.take (blockLen dot) ≠ [] := List.length_pos_iff.mp (by have := blockLen_pos dot; simp; omega)
      obtain ⟨nw', hnw', hblock⟩ := blocksRead_blockWrite (h.block hc) f m nw nwe (q.drop (blockLen dot))
        (byteBits (blocksWrite dot f (c.drop (blockLen dot)) (q.drop (blockLen dot))
          (q.getD ((c.take (blockLen dot)).length - 1) 0) (some ((c.take (blockLen dot)).getLastD 0))).1 ++ t) hm hnw
      have hleft : c.length - (c.take (blockLen dot)).length = (c.drop (blockLen dot)).length := by simp; omega
      have hrest := ih (m + 8 * (blockWrite dot (c.take (blockLen dot)) (q.take (blockLen dot)) nwe acc.head?).1.length) nw'
        (q.getD ((c.take (blockLen dot)).length - 1) 0) _ _ _ h.rest
        (by rw [List.length_drop, Nat.sub_le_iff_le_add, ← Nat.succ_mul]; exact hf) (by omega)
        (by simpa only [List.take_append_drop] using hnw')
      rw [getLastD_head?_reverse _ acc hne] at hrest
      rw [List.take_append_drop, hleft, hrest] at hblock
      rw [blocksWrite_bytes dot f q nwe acc.head? hc, byteBits_append, List.append_assoc, hblock]
      simp [Nat.mul_add, Nat.add_assoc]

/-! #### Lengths -/

theorem ContBlock.length_bounds {c q : List Nat} {nw : Nat} {w : Option Nat} {b : List Byte} (h : ContBlock c q nw w b) :
    1 ≤ b.length ∧ b.length ≤ 1 + c.length := by
  cases h with
  | zero => simp
  | coded p k _ _ hlen => rw [List.length_cons, bitsBytes_length _ _ (by omega)]; omega
  | escape => simp [Nat.add_comm]

theorem DotBlock.length_bounds {c q : List Nat} {b : List Byte} (h : DotBlock c q b) : 1 ≤ b.length ∧ b.length ≤ 1 + c.length / 4 := by
  cases h with
  | zero => simp
  | coded k _ hlen => rw [List.length_cons, bitsBytes_length _ _ (by omega)]; omega
  | escape => simp [packRaw, Nat.add_comm]

/-- A block has its header, and at most its raw bytes beside it (R70). -/
theorem blockWrite_length_bounds (dot : Bool) (c q : List Nat) (nw : Nat) (w : Option Nat) :
    1 ≤ (blockWrite dot c q nw w).1.length ∧ (blockWrite dot c q nw w).1.length ≤ 1 + c.length / perByte dot := by
  cases dot with
  | false => simpa using (blockWrite_cont c q nw w).length_bounds
  | true => exact (blockWrite_dot c q nw w).length_bounds

/-- The blocks of a line have their headers, and at most the raw bytes beside them (R70). -/
theorem blocksWrite_length_bounds (dot : Bool) (f : Nat) (c q : List Nat) (nw : Nat) (w : Option Nat) (hf : c.length ≤ f * blockLen dot) :
    (c.length + blockLen dot - 1) / blockLen dot ≤ (blocksWrite dot f c q nw w).1.length ∧
      (blocksWrite dot f c q nw w).1.length ≤ c.length / perByte dot + (c.length + blockLen dot - 1) / blockLen dot := by
  induction f generalizing c q nw w with
  | zero =>
    obtain rfl := List.eq_nil_of_length_eq_zero (Nat.le_zero.mp (by simpa using hf))
    cases dot <;> simp [blockLen]
  | succ f ih =>
    rcases Nat.eq_zero_or_pos c.length with hc | hc
    · obtain rfl := List.eq_nil_of_length_eq_zero hc
      cases dot <;> simp [blockLen]
    · rw [blocksWrite_bytes dot f q nw w hc, List.length_append]
      have hblock := blockWrite_length_bounds dot (c.take (blockLen dot)) (q.take (blockLen dot)) nw w
      have hrest := ih (c.drop (blockLen dot)) (q.drop (blockLen dot)) (q.getD ((c.take (blockLen dot)).length - 1) 0)
        (some ((c.take (blockLen dot)).getLastD 0)) (by rw [List.length_drop, Nat.sub_le_iff_le_add, ← Nat.succ_mul]; exact hf)
      rw [List.length_take] at hblock
      rw [List.length_drop] at hrest
      cases dot <;> simp only [blockLen, perByte, Bool.false_eq_true, if_false, if_true] at hblock hrest ⊢ <;> omega

end Sys2Proof.Machine

/-! ### O28, the record: its header (R61), its check value (R74) and the round trip -/

namespace Sys2Proof.Machine

@[simp] theorem leBytes_length (k n : Nat) : (leBytes k n).length = k := by simp [leBytes]
@[simp] theorem zeros_length (k : Nat) : (zeros k).length = k := List.length_replicate

theorem leBytes_succ (k n : Nat) : leBytes (k + 1) n = BitVec.ofNat 8 n :: leBytes k (n / 256) := by
  simp [leBytes, List.range_succ_eq_map, Nat.pow_succ', Nat.div_div_eq_div_mul]

theorem leNat_leBytes (k n : Nat) : leNat (leBytes k n) = n % 256 ^ k := by
  induction k generalizing n with
  | zero => simp [leBytes, leNat, Nat.mod_one]
  | succ k ih =>
    rw [leBytes_succ, leNat, ih, BitVec.toNat_ofNat, pow_succ' 256 k, Nat.mod_mul]

/-- Bytes put down as a little-endian value read back as it, wherever they stand. -/
theorem leAt_leBytes {l m : List Byte} {i k n : Nat} (hl : l.length = i) (hn : n < 256 ^ k) : leAt (l ++ (leBytes k n ++ m)) i k = n := by
  unfold leAt
  rw [← hl, List.drop_left, List.take_left' (leBytes_length k n), leNat_leBytes, Nat.mod_eq_of_lt hn]

theorem crcByte_lt {poly r b : Nat} (hp : poly < 2 ^ 32) (hr : r < 2 ^ 32) (hb : b < 2 ^ 32) : crcByte poly r b < 2 ^ 32 := by
  unfold crcByte
  refine List.foldlRecOn (motive := (· < 2 ^ 32)) _ _ (Nat.xor_lt_two_pow hr hb) fun c hc _ _ => ?_
  split
  · exact Nat.xor_lt_two_pow (by omega) hp
  · omega

theorem crc32_lt (l : List Byte) : crc32 l < 2 ^ 32 := by
  refine Nat.xor_lt_two_pow ?_ (by decide)
  exact List.foldlRecOn (motive := (· < 2 ^ 32)) _ _ (by decide) fun c hc b _ =>
    crcByte_lt (by decide) hc (Nat.lt_trans b.isLt (by decide))

/-! #### The header -/

/-- The blocks of a record (R60). -/
def recordBlocks (e : RecKey) (raw prev : List Byte) : List Byte :=
  (blocksWrite e.dot (nBlocks e.dot e.seg) (unpackRaw e.dot raw) (unpackRaw e.dot prev) 0 none).1

theorem encodeRaw_bytes (e : RecKey) (raw prev : List Byte) (key : Bool) (check : Nat) :
    (encodeRaw e raw prev key false check).1 = leBytes 2 (12 + (recordBlocks e raw prev).length) ++
      [BitVec.ofNat 8 (16 * e.seg + 2 * e.bar + b2n e.dot), BitVec.ofNat 8 (0x10 + 2 * b2n e.live + b2n key)] ++
      leBytes 4 e.sline ++ leBytes 4 check ++ recordBlocks e raw prev := rfl

theorem encodeRaw_length (e : RecKey) (raw prev : List Byte) (key : Bool) (check : Nat) :
    (encodeRaw e raw prev key false check).1.length = 12 + (recordBlocks e raw prev).length := by
  rw [encodeRaw_bytes]; simp; omega

theorem encodeRaw_drop (e : RecKey) (raw prev : List Byte) (key : Bool) (check : Nat) :
    (encodeRaw e raw prev key false check).1.drop 12 = recordBlocks e raw prev := by
  rw [encodeRaw_bytes]
  exact List.drop_left' (by simp)

/-- LEN is the record's length (R61). -/
theorem encodeRaw_len {e : RecKey} {raw prev : List Byte} (key : Bool) (check : Nat) (h : (recordBlocks e raw prev).length < 65000) :
    leAt (encodeRaw e raw prev key false check).1 0 2 = 12 + (recordBlocks e raw prev).length := by
  rw [encodeRaw_bytes]
  simpa using leAt_leBytes (l := []) (i := 0) (k := 2) rfl (by omega)

theorem encodeRaw_check (e : RecKey) (raw prev : List Byte) (key : Bool) {check : Nat} (h : check < 2 ^ 32) :
    leAt (encodeRaw e raw prev key false check).1 8 4 = check := by
  rw [encodeRaw_bytes, List.append_assoc]
  exact leAt_leBytes (by simp) (by omega)

/-- Byte 3 of a header without CHKERR: VER 1, the reserved bit 0, LIVE and KEY (R61). -/
def headFlags (live key : Bool) : Nat := 0x10 + 2 * b2n live + b2n key

theorem headFlags_fields (live key : Bool) : headFlags live key / 16 = 1 ∧ bit (headFlags live key) 3 = false ∧
    bit (headFlags live key) 2 = false ∧ bit (headFlags live key) 1 = live ∧ bit (headFlags live key) 0 = key := by
  revert live key
  decide

theorem encodeRaw_byte3 (e : RecKey) (raw prev : List Byte) (key : Bool) (check : Nat) :
    byteAt (encodeRaw e raw prev key false check).1 3 = headFlags e.live key := by
  have hb : byteAt (encodeRaw e raw prev key false check).1 3 = (BitVec.ofNat 8 (headFlags e.live key)).toNat := rfl
  rw [hb, BitVec.toNat_ofNat]
  cases e.live <;> cases key <;> rfl

/-- The header that the encoder writes is the one expected of the record (R61). -/
theorem encodeRaw_header {e : RecKey} {raw prev : List Byte} (key : Bool) (check : Nat) (hbar : e.bar < 8) (hseg : e.seg < 16)
    (hsline : e.sline < 2 ^ 32) : headerBad (encodeRaw e raw prev key false check).1 e = false := by
  have h2 : byteAt (encodeRaw e raw prev key false check).1 2 = 16 * e.seg + 2 * e.bar + b2n e.dot := by
    have hb : byteAt (encodeRaw e raw prev key false check).1 2 = (BitVec.ofNat 8 (16 * e.seg + 2 * e.bar + b2n e.dot)).toNat := rfl
    have hd : b2n e.dot ≤ 1 := by cases e.dot <;> decide
    rw [hb, BitVec.toNat_ofNat, Nat.mod_eq_of_lt (by omega)]
  have h4 : leAt (encodeRaw e raw prev key false check).1 4 4 = e.sline := by
    rw [encodeRaw_bytes, List.append_assoc, List.append_assoc]
    exact leAt_leBytes (by simp) (by omega)
  obtain ⟨hver, hres, -, hlive, -⟩ := headFlags_fields e.live key
  simp [headerBad, h2, h4, encodeRaw_byte3, hver, hres, hlive]

/-! #### The round trip -/

theorem rawBytes_blocks (dot : Bool) (seg : Nat) :
    perByte dot * rawBytes dot seg ≤ nBlocks dot seg * blockLen dot ∧
      (perByte dot * rawBytes dot seg + blockLen dot - 1) / blockLen dot = nBlocks dot seg := by
  unfold rawBytes nBlocks
  cases dot <;> by_cases h : seg = 15 <;> simp [h, blockLen]

theorem perByte_pos (dot : Bool) : 0 < perByte dot := by cases dot <;> decide

/-- The values of two raw lines of the same length, before any of them is coded. -/
theorem lineOf_unpackRaw {dot : Bool} {raw prev : List Byte} (h : prev.length = raw.length) :
    LineOf dot (unpackRaw dot raw) (unpackRaw dot prev) [] where
  prevLen := by simp [h]
  whole := by simp
  curLt := unpackRaw_lt dot raw
  prevLt := unpackRaw_lt dot prev
  accLt := by simp

/-- The blocks of a record read as its line, to their last bit (R69). -/
theorem blocksRead_recordBlocks {e : RecKey} {raw prev : List Byte} (hraw : raw.length = rawBytes e.dot e.seg)
    (hprev : prev.length = rawBytes e.dot e.seg) :
    ∃ n, blocksRead e.dot (nBlocks e.dot e.seg) (perByte e.dot * rawBytes e.dot e.seg) (unpackRaw e.dot prev) 0 []
      ⟨0, byteBits (recordBlocks e raw prev)⟩ = some (unpackRaw e.dot raw, ⟨n, []⟩) := by
  have := blocksRead_blocksWrite e.dot (nBlocks e.dot e.seg) 0 0 0 (unpackRaw e.dot raw) (unpackRaw e.dot prev) [] []
    (lineOf_unpackRaw (hprev.trans hraw.symm)) (by rw [unpackRaw_length, hraw]; exact (rawBytes_blocks _ _).1) rfl fun _ => rfl
  rw [unpackRaw_length, hraw, List.append_nil] at this
  exact ⟨_, this⟩

/-- The blocks of a record are within the bounds of R70. -/
theorem recordBlocks_length_bounds {e : RecKey} {raw : List Byte} (prev : List Byte) (hraw : raw.length = rawBytes e.dot e.seg) :
    nBlocks e.dot e.seg ≤ (recordBlocks e raw prev).length ∧
      (recordBlocks e raw prev).length ≤ rawBytes e.dot e.seg + nBlocks e.dot e.seg := by
  have hblocks := rawBytes_blocks e.dot e.seg
  have := blocksWrite_length_bounds e.dot (nBlocks e.dot e.seg) (unpackRaw e.dot raw) (unpackRaw e.dot prev) 0 none
    (by rw [unpackRaw_length, hraw]; exact hblocks.1)
  rwa [unpackRaw_length, hraw, hblocks.2, Nat.mul_div_cancel_left _ (perByte_pos _)] at this

/-- A record decodes to its line against the line that it was predicted from: zeros for a KEY record (R62, R69). -/
theorem decodeRaw_encodeRaw {e : RecKey} {raw prev : List Byte} (key : Bool) (hbar : e.bar < 8) (hseg : e.seg < 16)
    (hsline : e.sline < 2 ^ 32) (hraw : raw.length = rawBytes e.dot e.seg) (hprev : prev.length = rawBytes e.dot e.seg) :
    decodeRaw (encodeRaw e raw (if key then zeros raw.length else prev) key false (crc32 raw)).1 e (some prev) = .ok raw := by
  obtain ⟨-, -, hchkerr, -, hkey⟩ := headFlags_fields e.live key
  have hvals : (if e.dot then 4 * rawBytes e.dot e.seg else rawBytes e.dot e.seg) = perByte e.dot * rawBytes e.dot e.seg := by
    cases e.dot <;> simp
  have hctx : (if key then some (zeros (rawBytes e.dot e.seg)) else some prev) = some (if key then zeros raw.length else prev) := by
    rw [hraw]; cases key <;> rfl
  obtain ⟨n, hread⟩ := blocksRead_recordBlocks (prev := if key then zeros raw.length else prev) hraw
    (by cases key <;> simp [hprev, hraw])
  have hpack : packRaw e.dot (rawBytes e.dot e.seg) (unpackRaw e.dot raw) = raw := hraw ▸ packRaw_unpackRaw e.dot raw
  simp only [decodeRaw, encodeRaw_header key _ hbar hseg hsline, encodeRaw_byte3, encodeRaw_drop, encodeRaw_check _ _ _ _ (crc32_lt raw),
    hkey, hchkerr, hvals, hctx, hread, hpack, Bool.false_eq_true, if_false, ne_eq, not_true, bne_self_eq_false, Bool.or_self]

/-- Settles O28: block by block the decoder stands where the encoder stood, with the same neighbours, so that each residue or difference
gives its value back; a block that is not coded shorter is an escape, which bounds the length. -/
theorem decodingUndoesEncoding : Obligations.DecodingUndoesEncoding := by
  unfold Obligations.DecodingUndoesEncoding
  refine ⟨fun e raw prev key hbar hseg hsline hraw hprev => ?_, fun cur p hcur hp => zigzag_spec hcur hp⟩
  obtain ⟨hmin, hmax⟩ := recordBlocks_length_bounds (if key then zeros raw.length else prev) hraw
  have hfit : rawBytes e.dot e.seg + nBlocks e.dot e.seg < 65000 := by
    unfold rawBytes nBlocks
    split_ifs <;> decide
  rw [encodeRaw_length, encodeRaw_len key _ (by omega), recMin, recMax]
  exact ⟨decodeRaw_encodeRaw key hbar hseg hsline hraw hprev, by omega, by omega, rfl⟩

end Sys2Proof.Machine

/-! ### O15, a host read of a register: its word, its latches and its partners (R32, R33) -/

namespace Sys2Proof.Machine

/-- A read latch keeps its value while others are filled (R32). -/
theorem State.latched_setLatch_other (s : State) {p q off o : Nat} (v : Nat) (h : (q, o) ≠ (p, off)) :
    (s.setLatch p off v).latched q o = s.latched q o := by
  simp only [State.latched, State.setLatch]
  rw [RegMap.find_put_other _ _ _ h]

/-- The read latches alone decide what a partner returns. -/
theorem State.latched_congr {s t : State} (h : s.latch = t.latch) (p off : Nat) : s.latched p off = t.latched p off := by
  rw [State.latched, h, State.latched]

/-- A read of a partner returns its latch and fills none (R32). -/
theorem State.readReg_partner (s : State) {p off i : Nat} {b : Blk} (hblk : blkOf p = some (b, i)) (himpl : implemented b i off = true)
    (hpartner : isPartner b off = true) : s.readReg p off = (s, s.latched p off) := by
  simp [State.readReg, hblk, himpl, hpartner]

/-- A read of any other register returns its word and fills the latches of its partners (R32). -/
theorem State.readReg_latching (s : State) {p off i : Nat} {b : Blk} (hblk : blkOf p = some (b, i)) (himpl : implemented b i off = true)
    (hpartner : isPartner b off = false) :
    s.readReg p off = ((partners b off).foldl (fun t o => t.setLatch p o (s.regWord p o)) s, s.regWord p off) := by
  simp [State.readReg, hblk, himpl, hpartner]

/-- A host read of four bytes at a register of BAR0 puts the register's word into the read data (R31). -/
theorem exec_latchingRead_reg (s : State) {off : BitVec 27} {p o : Nat} (hserved : s.hostServed = true) (halign : off.toNat % 4 = 0)
    (hplace : placeOf off.toNat = .reg p o) :
    exec (.latchingRead (.bar0 off)) s = .next { (s.readReg p o).1 with rdata := leBytes 4 (s.readReg p o).2 } := by
  have hoff : off.toNat / 4 * 4 = off.toNat := by omega
  show execLatchingRead (.bar0 off) s = _
  simp [execLatchingRead, hserved, hoff, State.bar0Read, hplace]

/-- The register pages fill the first 4 MB of BAR0, 4 KB each (R31). -/
theorem placeOf_reg {p o : Nat} (hp : p < 0x400) (ho : o < 0x1000) : placeOf (0x1000 * p + o) = .reg p o := by
  rw [placeOf, if_pos (by omega), Nat.mul_add_div (by decide), Nat.mul_add_mod, Nat.div_eq_of_lt ho, Nat.mod_eq_of_lt ho, Nat.add_zero]

/-- A block field that shows the block's state reads it, on a page that is not held (R367). -/
theorem State.viewField_shown (s : State) {p i v : Nat} {b : Blk} {f : Fld} (hacc : f.acc ≠ .wo) (hoff : 0x40 ≤ f.off)
    (hheld : s.held p = false) (hshown : s.shown b i f = some v) : s.viewField p b i f = v := by
  have hblock (g : Fld) (hg : g.off < 0x40) : f ≠ g := fun e => by subst e; omega
  simp [State.viewField, hacc, hheld, hshown, Nat.not_lt.mpr hoff, hblock R.PG_CTRL_SRST (by decide), hblock R.PG_STAT_BLOCK (by decide),
    hblock R.PG_STAT_SRST_BUSY (by decide), hblock R.PG_STAT_FENCED (by decide), hblock R.PG_STAT_RUN (by decide),
    hblock R.PG_IRQ_PEND (by decide)]

/-- The word of a register that is one field (R12). -/
theorem State.regWord_single (s : State) {p off i : Nat} {b : Blk} {f : Fld} (hblk : blkOf p = some (b, i))
    (hfields : fieldsAt b i off = [f]) : s.regWord p off = s.viewField p b i f % 2 ^ f.w * 2 ^ f.lo := by
  simp [State.regWord, hblk, hfields, wordOf]

/-! ### O15, TIME_NOW (R354, R355) -/

/-- TIME is served before step CLK and in a shutdown (R367, R387). -/
@[simp] theorem State.held_pTIME (s : State) : s.held pTIME = false := by
  simp [State.held, servedEarly]

theorem blkOf_pTIME : blkOf pTIME = some (.time, 0) := by decide

/-- The word of a register of TIME that is one field of 32 bits and shows C (R354, R362). -/
theorem State.regWord_pTIME_shown (s : State) {off v : Nat} {f : Fld} (hfields : fieldsAt .time 0 off = [f]) (hacc : f.acc ≠ .wo)
    (hoff : 0x40 ≤ f.off) (hw : f.w = 32) (hlo : f.lo = 0) (hshown : s.shown .time 0 f = some v) :
    s.regWord pTIME off = v % 2 ^ 32 := by
  rw [s.regWord_single blkOf_pTIME hfields, s.viewField_shown hacc hoff s.held_pTIME hshown, hw, hlo, pow_zero, Nat.mul_one]

theorem State.regWord_timeNowLo (s : State) : s.regWord pTIME 0x40 = s.cNs % 2 ^ 32 :=
  s.regWord_pTIME_shown (f := R.TIME_NOW_LO) (by decide) (by decide) (by decide) rfl rfl rfl

theorem State.regWord_timeNowHi (s : State) : s.regWord pTIME 0x44 = s.cNs / 2 ^ 32 % 2 ^ 32 :=
  s.regWord_pTIME_shown (f := R.TIME_NOW_HI) (by decide) (by decide) (by decide) rfl rfl rfl

theorem State.regWord_timeNowFrac (s : State) : s.regWord pTIME 0x48 = s.cFrac % 2 ^ 32 :=
  s.regWord_pTIME_shown (f := R.TIME_NOW_FRAC) (by decide) (by decide) (by decide) rfl rfl rfl

/-- The state with the high half and the fraction of C held in the read latches of TIME (R355). -/
def State.latchTime (s : State) : State :=
  (s.setLatch pTIME 0x44 (s.cNs / 2 ^ 32 % 2 ^ 32)).setLatch pTIME 0x48 (s.cFrac % 2 ^ 32)

@[simp] theorem State.latched_latchTime_hi (s : State) : s.latchTime.latched pTIME 0x44 = s.cNs / 2 ^ 32 % 2 ^ 32 := by
  rw [State.latchTime, State.latched_setLatch_other _ _ (by decide), State.latched_setLatch_self]

@[simp] theorem State.latched_latchTime_frac (s : State) : s.latchTime.latched pTIME 0x48 = s.cFrac % 2 ^ 32 :=
  State.latched_setLatch_self ..

/-- A read of TIME_NOW_LO latches its two partners (R355). -/
theorem State.readReg_timeNowLo (s : State) : s.readReg pTIME 0x40 = (s.latchTime, s.cNs % 2 ^ 32) := by
  have hpartners : partners .time 0x40 = [0x44, 0x48] := rfl
  rw [s.readReg_latching blkOf_pTIME (by decide) (by decide), hpartners, List.foldl_cons, List.foldl_cons, List.foldl_nil,
    s.regWord_timeNowLo, s.regWord_timeNowHi, s.regWord_timeNowFrac, State.latchTime]

/-- A host read of a partner of TIME_NOW_LO returns its latch, whatever C is by then (R355). -/
theorem exec_latchingRead_timeNow_partner (u : State) {off : BitVec 27} {o : Nat} (hserved : u.hostServed = true)
    (hoff : off.toNat = 0x1000 * pTIME + o) (ho : o ∈ partners .time 0x40) :
    exec (.latchingRead (.bar0 off)) u = .next { u with rdata := leBytes 4 (u.latched pTIME o) } := by
  have hcases : o = 0x44 ∨ o = 0x48 := by simpa [partners] using ho
  obtain ⟨himpl, hpartner, halign, hlt⟩ :
      implemented .time 0 o = true ∧ isPartner .time o = true ∧ o % 4 = 0 ∧ o < 0x1000 := by
    rcases hcases with rfl | rfl <;> decide
  rw [exec_latchingRead_reg u hserved (by omega) (hoff ▸ placeOf_reg (by decide) hlt), u.readReg_partner blkOf_pTIME himpl hpartner]

/-- Settles O15: the read of TIME_NOW_LO fills both partners' latches from its own tick, and a partner's read looks at its latch alone. -/
theorem timeNowReadsAgree : Obligations.TimeNowReadsAgree := by
  unfold Obligations.TimeNowReadsAgree
  intro s o1 o2 o3 hserved ho1 ho2 ho3 hns hfrac
  have hlo : exec (.latchingRead (.bar0 o1)) s = .next { s.latchTime with rdata := leBytes 4 (s.cNs % 2 ^ 32) } := by
    rw [exec_latchingRead_reg s hserved (by omega) (ho1 ▸ placeOf_reg (by decide) (by decide)), s.readReg_timeNowLo]
  refine ⟨_, hlo, rfl, rfl, fun u hu hlatch => ?_⟩
  have hhi : u.latched pTIME 0x44 = s.cNs / 2 ^ 32 := by
    rw [State.latched_congr (t := s.latchTime) hlatch, s.latched_latchTime_hi]
    omega
  have hfr : u.latched pTIME 0x48 = s.cFrac := by
    rw [State.latched_congr (t := s.latchTime) hlatch, s.latched_latchTime_frac, Nat.mod_eq_of_lt hfrac]
  rw [exec_latchingRead_timeNow_partner u hu ho2 (by decide), exec_latchingRead_timeNow_partner u hu ho3 (by decide), hhi, hfr]
  exact ⟨rfl, rfl⟩

end Sys2Proof.Machine

section
/-! The proofs below are elaborated one after another: side by side their working memory and thread stacks add up. -/
set_option Elab.async false

section
/-! PROOFS. Tools for the statements about registers: which fields an operation may change, what a violation records, and the
statements about the machine as a whole and about host writes. -/

open Sys2Proof Sys2Proof.Machine
namespace Sys2Proof.Machine

/-! ### `regsBut`: every field but those listed reads as before -/

theorem State.regsBut_refl (s : State) (l : List (Nat × Fld)) : s.regsBut s l := fun _ _ _ => rfl
theorem State.regsBut_trans {s t u : State} {l : List (Nat × Fld)} (h : s.regsBut t l) (k : t.regsBut u l) : s.regsBut u l :=
  fun q g hq => (k q g hq).trans (h q g hq)
theorem State.regsBut_mono {s t : State} {l m : List (Nat × Fld)} (h : s.regsBut t l) (k : l ⊆ m) : s.regsBut t m :=
  fun q g hq => h q g fun e he => hq e (k he)
/-- A state with the registers of another reads as it does. -/
theorem State.regsBut_of_regs {s t u : State} {l : List (Nat × Fld)} (h : s.regsBut t l) (k : u.regs = t.regs) : s.regsBut u l :=
  fun q g hq => (State.get_congr k q g).trans (h q g hq)
theorem State.regsBut_set {s t : State} {l : List (Nat × Fld)} (h : s.regsBut t l) {p : Nat} {f : Fld} (v : Nat)
    (m : (p, f) ∈ l) : s.regsBut (t.set p f v) l :=
  fun q g hq => (t.get_set_ne v (hq (p, f) m)).trans (h q g hq)
theorem State.regsBut_setFlag {s t : State} {l : List (Nat × Fld)} (h : s.regsBut t l) {p : Nat} {f : Fld} (b : Bool)
    (m : (p, f) ∈ l) : s.regsBut (t.setFlag p f b) l := State.regsBut_set h _ m
theorem State.regsBut_incSat {s t : State} {l : List (Nat × Fld)} (h : s.regsBut t l) {p : Nat} {f : Fld}
    (m : (p, f) ∈ l) : s.regsBut (t.incSat p f) l := State.regsBut_set h _ m
theorem State.regsBut_addSat {s t : State} {l : List (Nat × Fld)} (h : s.regsBut t l) {p : Nat} {f : Fld} (k : Nat)
    (m : (p, f) ∈ l) : s.regsBut (t.addSat p f k) l := State.regsBut_set h _ m
theorem State.regsBut_incWrap {s t : State} {l : List (Nat × Fld)} (h : s.regsBut t l) {p : Nat} {f : Fld}
    (m : (p, f) ∈ l) : s.regsBut (t.incWrap p f) l := State.regsBut_set h _ m
theorem State.regsBut_cause {s t : State} {l : List (Nat × Fld)} (h : s.regsBut t l) {p : Nat} (i : Nat)
    (m : (p, R.PG_IRQ_RAW) ∈ l) : s.regsBut (t.cause p i) l :=
  fun q g hq => (t.get_cause_ne i (hq _ m)).trans (h q g hq)
theorem State.regsBut_err {s t : State} {l : List (Nat × Fld)} (h : s.regsBut t l) (p code src lo hi dir : Nat)
    (m : errFields p ⊆ l) : s.regsBut (t.err p code src lo hi dir) l := by
  intro q g hq
  refine (t.get_err_ne p code src lo hi dir ?_).trans (h q g hq)
  have hne : ∀ f, (p, f) ∈ errFields p → q ≠ p ∨ g.id ≠ f.id := fun f hf => hq (p, f) (m hf)
  by_cases hqp : q = p
  · refine Or.inr ⟨?_, ?_, ?_, ?_, ?_, ?_, ?_⟩ <;>
      exact (hne _ (by simp [errFields])).resolve_left (not_not_intro hqp)
  · exact Or.inl hqp

/-! ### Reads of a field of the page written, by its number: the side condition is decided for closed fields -/

theorem State.get_addSat_field (s : State) (p : Nat) {f g : Fld} (k : Nat) (h : g.id ≠ f.id) :
    (s.addSat p f k).get p g = s.get p g := s.get_addSat_ne k (Or.inr h)
theorem State.get_incSat_field (s : State) (p : Nat) {f g : Fld} (h : g.id ≠ f.id) : (s.incSat p f).get p g = s.get p g :=
  s.get_incSat_ne (Or.inr h)
theorem State.get_incWrap_field (s : State) (p : Nat) {f g : Fld} (h : g.id ≠ f.id) : (s.incWrap p f).get p g = s.get p g :=
  s.get_incWrap_ne (Or.inr h)
theorem State.get_setFlag_field (s : State) (p : Nat) {f g : Fld} (b : Bool) (h : g.id ≠ f.id) :
    (s.setFlag p f b).get p g = s.get p g := s.get_setFlag_ne b (Or.inr h)
theorem State.get_cause_field (s : State) (p i : Nat) {g : Fld} (h : g.id ≠ R.PG_IRQ_RAW.id) : (s.cause p i).get p g = s.get p g :=
  s.get_cause_ne i (Or.inr h)

/-! ### Violations (R49, R50) -/

theorem State.regsBut_violate (s : State) (k a : Nat) (w b : Bool) : s.regsBut (s.violate k a w b) violFields := by
  unfold State.violate violFields
  repeat' first
    | with_reducible exact State.regsBut_refl _ _
    | with_reducible refine State.regsBut_set ?_ _ (by simp)
    | with_reducible refine State.regsBut_incSat ?_ (by simp)
/-- A violation is counted and recorded with its kind, its address and its direction. -/
theorem State.violated_violate (s : State) {k : Nat} (a : Nat) (w b : Bool) (hk : k < 16) : violated s (s.violate k a w b) k a w b := by
  have hb : ∀ c : Bool, b2n c % 2 ^ 1 = b2n c := by decide
  have hkind : k % 2 ^ 4 = k := Nat.mod_eq_of_lt hk
  unfold violated State.violate
  refine ⟨?_, ?_, ?_, ?_, ?_⟩ <;>
    simp (disch := decide) only [State.get_set_self, State.get_incSat_self, State.get_set_field]
  · rfl
  · rfl
  · exact hkind
  · exact hb w
  · exact hb b
theorem State.violate_regsOnly (s : State) (k a : Nat) (w b : Bool) : ({ s.violate k a w b with regs := s.regs } : State) = s := by
  simp [State.violate, State.incSat, State.addSat]

/-! ### The machine as a whole -/

/-- Settles O1: `step` is `exec` of the front of the queue by its own definition. -/
theorem stepTakesFront : Obligations.StepTakesFront := by
  unfold Obligations.StepTakesFront
  intro c r s h
  simp only [step, h]

/-- The Reset value of a header register behind PG_CTRL is its table's: no page decides it. -/
theorem rst_of_header {f : Fld} (h : 4 < f.off) (k : f.off < 0x38) (p : Nat) : rst p f = f.rst := by
  have hne : ∀ g : Fld, 0x38 ≤ g.off → f ≠ g := by
    rintro g hg rfl
    omega
  unfold rst
  split
  · rfl
  · rw [if_neg (by omega), if_neg (by omega)]
    split <;> simp [hne R.FEED_GRP_LEAD (by decide), hne R.CAM_COLS_K0 (by decide), hne R.LANE_TXEQ_PRE (by decide),
      hne R.LANE_TXEQ_MAIN (by decide), hne R.LANE_TXEQ_POST (by decide)]
/-- After reset a field reads its Reset value. -/
theorem State.get_reset (p : Nat) (f : Fld) : State.reset.get p f = rst p f := rfl

/-- Settles O3: after reset every field holds its Reset column's value and the memories are empty. -/
theorem resetRegisters : Obligations.ResetRegisters := by
  unfold Obligations.ResetRegisters
  have hfence : ∀ p, State.reset.fenced p = false := fun p => by
    rw [State.fenced, State.flag, State.get_reset, rst_of_header (by decide) (by decide)]
    rfl
  refine ⟨⟨rfl, rfl, rfl, rfl, by simp [State.reset]⟩, fun p _ _ _ _ => hfence p, rfl, fun p b i hb => ?_⟩
  simp only [State.get_reset]
  refine ⟨by simp [rst, hb, R.PG_CTRL_EN], rst_of_header (by decide) (by decide) p, hfence p, ?_, ?_, ?_, ?_,
    by simp [rst, hb, R.PG_ID_VER]⟩ <;>
    exact rst_of_header (by decide) (by decide) p

/-! ### A command that is not declared to store and stores (O5) -/

/-- A one-line job. -/
def oneLineJob : Job :=
  { addr := 0, next := 0, last := true, profEn := false, prof := 0, start := true, fast := true, dot := false, maskMode := false,
    liveEn := false, baseEn := false, irqDone := false, irqStart := false, baseAddr := 0, repLines := 1, repCount := 1, jobId := 0,
    livePos := 0, maskAddr := 0, maskFixed := 0, first := 0 }
/-- A joiner that waits for JOINDATA: P0 is fenced, DMAC is disabled with an engine still marked as running, whose decoder holds an
error of a line of its job, and job records are written to DRAM. -/
def joinerBeforeData : State :=
  (((({ State.reset with
    heldReset := false
    pll := true
    straps := ⟨0, false, true⟩
    lane := [(132, { st := 3, block := true })]
    pair := { up := true, joinTs := some 0, joiner := true, latched := true }
    boot := { spd := List.replicate 4 { dimms := 1, ranksPerDimm := 1, rankLog2 := 34 } }
    dram := [(0, { trained := true }), (1, { trained := true }), (2, { trained := true }), (3, { trained := true })]
    job := [(0, { running := true, jobs := [oneLineJob] })]
    dec := [(0, { opened := true, passErrs := [(0x11, 1)] })]
    dramMem := (List.range 64).map fun a => (a, 0)
    dramChk := (List.range 8).map fun a => (a, 0) } : State).set pPAIR R.PG_CTRL_EN 1).set pPAIR
      R.PAIR_STAT_STATE 3).set (pPOS 0) R.PG_FENCE_FENCED 1).set pDMAC R.DMAC_JREC_CFG_EN 1
/-- A JOINDATA of 25 bars, of which only the last runs: the page of "bar" 24 is DMAC's, whose record ring its NEXT places at 0. -/
def joinDataOf25 : Instr :=
  .joinData ⟨0, true, 0⟩ 0 (List.replicate 24 ⟨false, 0, false, 0, 0, 0, 0, 0⟩ ++ [⟨true, 0, false, 1, 0, 0, 64, 0⟩])
/-- The byte of DRAM data at a key after a command. -/
def dramByteAfter (c : Instr) (s : State) (k : Nat) : Option Byte :=
  match exec c s with
  | .next t => Memory.get t.dramMem k
  | _ => none
/-- The record names code 0x11 in its byte 4 (R184). -/
theorem dramByteAfter_joinDataOf25 : dramByteAfter joinDataOf25 joinerBeforeData 4 = some 0x11 := by decide +kernel
theorem joinerBeforeData_byte : Memory.get joinerBeforeData.dramMem 4 = some 0 := by decide

/-- Refutes O5: JOINDATA is no command that may store, but one of 25 bars fences page 0x20 + 24, DMAC, whose job engine then stops
and writes the record of its line's error to DRAM. -/
theorem not_everyCommandGoesOn : ¬ Obligations.EveryCommandGoesOn := by
  unfold Obligations.EveryCommandGoesOn
  intro h
  obtain ⟨t, ht, -, hmem⟩ := h joinDataOf25 joinerBeforeData
  obtain ⟨-, -, hdram, -, -⟩ := hmem rfl
  have hstore := dramByteAfter_joinDataOf25
  simp only [dramByteAfter, ht, hdram, joinerBeforeData_byte] at hstore
  exact absurd hstore (by decide)

/-! ### Register writes by the host (O6) -/

/-- A write of a block's register is that write with what the block says. -/
theorem writeWith_block (s : State) {p off v i : Nat} {b : Blk} {act : State → State} (hb : blkOf p = some (b, i))
    (ho : 0x38 ≤ off) (ha : blockAct b i off v = act) : s.writeWith p off v act = s.writeWith p off v (regAct p off v) := by
  rw [regAct_block hb ho, ha]
/-- A command that is a write of one register is that write, with what the register's write does (R12). -/
theorem exec_hostWrite {s : State} {c : Instr} {p off v : Nat} (h : s.hostWrite c = some (p, off, v)) :
    exec c s = .next (s.writeWith p off v (regAct p off v)) := by
  cases c
  all_goals cases h
  case pgCtrlEn | srst | fenceRel | pgIrqRawW1c | errClear | commit | pgLockUnlock | pgLockLock => rfl
  case vclr | cclr => exact congrArg Host.Outcome.next (writeWith_block s (by simp) (by omega) (blockAct_viol _))
  case profCmdGo | profCmdReload => exact congrArg Host.Outcome.next (writeWith_block s (by simp) (by omega) (blockAct_profCmd _))
  case reclaim | pairCmdGiveup | pairCmdResume => exact congrArg Host.Outcome.next (writeWith_block s (by simp) (by omega) (blockAct_pairCmd _))
  case jeEn => exact congrArg Host.Outcome.next (writeWith_block s (by simp) (by omega) (blockAct_je _))
  case dmacJdb => exact congrArg Host.Outcome.next (writeWith_block s (by simp) (by omega) (blockAct_jdb _))
  case calCmdGo | calCmdAbort | calCmdCont => exact congrArg Host.Outcome.next (writeWith_block s (by simp) (by omega) (blockAct_calCmd _))
  case scrubGo | scrubStop => exact congrArg Host.Outcome.next (writeWith_block s (by simp) (by omega) (blockAct_scrubCtrl _))
  case spareWrite => exact congrArg Host.Outcome.next (writeWith_block s (by simp) (by omega) (blockAct_dramcCfg _))
  case timeCmdSet | timeCmdStep | timeCmdSnap | timeCmdSlew => exact congrArg Host.Outcome.next (writeWith_block s (by simp) (by omega) (blockAct_timeCmd _))
  case sysWrst => exact congrArg Host.Outcome.next (writeWith_block s (by simp) (by omega) (blockAct_wrst _))
  case bootCmdRetry => exact congrArg Host.Outcome.next (writeWith_block s (by simp) (by omega) (blockAct_bootCmd _))
  case read | prog | erase4k | erase64k => exact congrArg Host.Outcome.next (writeWith_block s (by simp) (by omega) (blockAct_bootFl _))
  case forceKey b => exact congrArg Host.Outcome.next (writeWith_block s (blkOf_enc b b.2) (by omega) (blockAct_encCtrl _ _))
  case pipeSwapGo b _ _ => exact congrArg Host.Outcome.next (writeWith_block s (blkOf_pipe b b.2) (by omega) (blockAct_pipeSwap _ _))
  case pipeCopy b _ => exact congrArg Host.Outcome.next (writeWith_block s (blkOf_pipe b b.2) (by omega) (blockAct_pipeCopy _ _))
  case posCmpDisarm b _ => exact congrArg Host.Outcome.next (writeWith_block s (blkOf_pos b b.2) (by omega) (blockAct_posDisarm _ _))
  case lineAdjGo b _ => exact congrArg Host.Outcome.next (writeWith_block s (blkOf_line b b.2) (by omega) (blockAct_lineAdj _ _))
  case dmaDb b => exact congrArg Host.Outcome.next (writeWith_block s (blkOf_dma b b.2) (by omega) (blockAct_dmaDb _ _))
  case dmaCmdResume b => exact congrArg Host.Outcome.next (writeWith_block s (blkOf_dma b b.2) (by omega) (blockAct_dmaCmd _ _))
  case dmaCmdAbort b => exact congrArg Host.Outcome.next (writeWith_block s (blkOf_dma b b.2) (by omega) (blockAct_dmaCmd _ _))
  case dramMigCmd b _ => exact congrArg Host.Outcome.next (writeWith_block s (blkOf_dram b b.2) (by omega) (blockAct_dramMig _ _))
  case laneCmdSlip b _ => exact congrArg Host.Outcome.next (writeWith_block s (blkOf_lane b b.2) (by omega) (blockAct_laneCmd _ _))
  case laneCmdSearch b => exact congrArg Host.Outcome.next (writeWith_block s (blkOf_lane b b.2) (by omega) (blockAct_laneCmd _ _))
  case laneCmdEscan b => exact congrArg Host.Outcome.next (writeWith_block s (blkOf_lane b b.2) (by omega) (blockAct_laneCmd _ _))
  case posCmpWrite b k v =>
    match k with
    | 0 => exact congrArg Host.Outcome.next (writeWith_block s (blkOf_pos b b.2) (by omega) (blockAct_posCmp0 _ _))
    | 1 => exact congrArg Host.Outcome.next (writeWith_block s (blkOf_pos b b.2) (by omega) (blockAct_posCmp1 _ _))
  case timeCmpArm k v => exact congrArg Host.Outcome.next (writeWith_block s (by simp) (by omega) (blockAct_timeArm _ _))
  case timeCmpDisarm k => exact congrArg Host.Outcome.next (writeWith_block s (by simp) (by omega) (blockAct_timeCtrl _ _))
/-- The register of such a command lies in the register pages. -/
theorem hostWrite_place {s : State} {c : Instr} {p off v : Nat} (h : s.hostWrite c = some (p, off, v)) :
    p < 0x400 ∧ off < 0x1000 ∧ off % 4 = 0 := by
  cases c
  all_goals cases h
  all_goals
    refine ⟨?_, ?_, ?_⟩ <;> (try simp only [pENC, pPIPE, pPOS, pLINE, pDMA, pDMAC, pPROF, pPAIR, pCAL, pDRAM, pSCRUB, pDRAMC, pLANE, pTIME, pSYS, pBOOT]) <;> first | exact Fin.isLt _ | omega

/-- A REGISTER_WRITE of a word that lies in the register pages is a write of that register. -/
theorem exec_registerWrite_reg (s : State) {p off v : Nat} (hp : p < 0x400) (ho : off < 0x1000) (h4 : off % 4 = 0) (hv : v < 2 ^ 32) :
    exec (.registerWrite (.bar0 (BitVec.ofNat 27 (0x1000 * p + off))) (BitVec.ofNat 32 v) 15) s =
      .next (s.writeWith p off v (regAct p off v)) := by
  have hoff : (BitVec.ofNat 27 (0x1000 * p + off)).toNat / 4 * 4 = 0x1000 * p + off := by
    rw [BitVec.toNat_ofNat, Nat.mod_eq_of_lt (by omega)]
    omega
  have hval : (BitVec.ofNat 32 v).toNat = v := by rw [BitVec.toNat_ofNat, Nat.mod_eq_of_lt hv]
  show Host.Outcome.next (s.bar0Write _ _ 15) = _
  rw [hoff, hval, State.bar0Write, placeOf_reg hp ho]
  split
  · rename_i h
    rw [State.writeWith_unserved _ _ _ _ _ _ (by simpa using h)]
  · rfl

/-- A full write that is ignored as a whole and breaks a rule breaks one of the kinds 1 to 6 (R49). -/
theorem State.writeKind_of_ignored (s : State) {p off v : Nat} (hi : s.writeIgnored p off v 15 = true)
    (hk : s.writeKind p off v 15 ≠ 0) : s.writeKind p off v 15 ∈ [1, 2, 3, 4, 5, 6] := by
  unfold State.writeIgnored at hi
  unfold State.writeKind at hk ⊢
  cases hb : blkOf p with
  | none => simp
  | some x =>
    obtain ⟨b, i⟩ := x
    simp only [hb] at hi hk ⊢
    split_ifs at hk ⊢ <;> simp_all
    next _ hro _ _ _ _ hwrong =>
      obtain ⟨f, hf, -⟩ := hwrong
      obtain hnil | ⟨hlock, hall⟩ := hi
      · simp [hnil] at hf
      · obtain ⟨g, hg, hacc⟩ := hro hlock (List.ne_nil_of_mem hf)
        exact hacc (hall g hg)

theorem State.writeWith_ignored (s : State) {p off v be : Nat} (act : State → State) (h : s.hostServed = true)
    (hi : s.writeIgnored p off v be = true) (hk : s.writeKind p off v be ≠ 0) :
    s.writeWith p off v act be = s.violate (s.writeKind p off v be) (p * 0x1000 + off) true := by
  simp [State.writeWith, h, hi, hk]

/-- Settles O6: each row is `writeWith` of its register, as REGISTER_WRITE is; an ignored write is the violation alone. -/
theorem registerRowsAreRegisterWrites : Obligations.RegisterRowsAreRegisterWrites := by
  unfold Obligations.RegisterRowsAreRegisterWrites
  intro s c p off v h
  obtain ⟨hp, ho, h4⟩ := hostWrite_place h
  refine ⟨fun hv => ?_, fun hs => ?_, fun hs hi hk => ?_⟩
  · rw [exec_hostWrite h, exec_registerWrite_reg s hp ho h4 hv]
  · rw [exec_hostWrite h, State.writeWith_unserved _ _ _ _ _ _ hs]
  · have hkind := s.writeKind_of_ignored hi hk
    obtain ⟨hcnt, haddr, hkd, hwr, hbar⟩ := s.violated_violate (p * 0x1000 + off) true false
      (k := s.writeKind p off v 15) (by simp at hkind; omega)
    refine ⟨_, by rw [exec_hostWrite h, s.writeWith_ignored _ hs hi hk], hcnt, ?_, hkd, hkind, hwr, hbar,
      s.regsBut_violate _ _ _ _, s.sameBlocks_violate _ _ _ _⟩
    rw [haddr, Nat.mul_comm]

end Sys2Proof.Machine
end

section
/-! PROOFS. Accepted host writes (R12, R49) and what they clear and lock (R39, R40, R46, R50, R54). -/

open Sys2Proof Sys2Proof.Machine
namespace Sys2Proof.Machine

/-! ### Accepted host writes -/

/-- An accepted write is at an implemented register of a page that exists (R33, R49). -/
theorem State.accepts_implemented {s : State} {p off v : Nat} (h : s.accepts p off v) :
    ∃ b i, blkOf p = some (b, i) ∧ implemented b i off = true := by
  obtain ⟨-, hk⟩ := h
  unfold State.writeKind at hk
  cases hb : blkOf p with
  | none => simp [hb] at hk
  | some x =>
    obtain ⟨b, i⟩ := x
    refine ⟨b, i, rfl, ?_⟩
    by_contra hi
    rw [Bool.not_eq_true] at hi
    simp [hb, hi] at hk
/-- A header register has fields on every page. -/
theorem fieldsAt_header (b : Blk) (i off : Nat) (h : off ∈ [4, 0x10, 0x14, 0x2C, 0x34]) : fieldsAt b i off ≠ [] := by
  have hmem : ∀ f : Fld, (f, 1, 0) ∈ hdrFields → f.off = off → fieldOn b i f = true → fieldsAt b i off ≠ [] := by
    intro f hf ho hon
    refine List.ne_nil_of_mem (a := fieldAs b i f) ?_
    unfold fieldsAt
    refine List.mem_map_of_mem (List.mem_filter.2 ⟨List.mem_flatMap.2 ⟨(f, 1, 0), List.mem_append_left _ hf, ?_⟩, hon⟩)
    simp [ho]
  simp only [List.mem_cons, List.not_mem_nil, or_false] at h
  obtain rfl | rfl | rfl | rfl | rfl := h
  · exact hmem R.PG_CTRL_EN (by simp [hdrFields]) rfl (by cases b <;> rfl)
  · exact hmem R.PG_IRQ_RAW (by simp [hdrFields]) rfl (by cases b <;> rfl)
  · exact hmem R.PG_IRQ_EN (by simp [hdrFields]) rfl (by cases b <;> rfl)
  · exact hmem R.PG_SHADOW_GEN (by simp [hdrFields]) rfl (by cases b <;> rfl)
  · exact hmem R.PG_LOCK_LOCKED (by simp [hdrFields]) rfl (by cases b <;> rfl)
/-- Off the lanes a register is implemented where it has fields (R33). -/
theorem fieldsAt_of_implemented {b : Blk} {i off : Nat} (h : implemented b i off = true) (hb : b ≠ .lane) : fieldsAt b i off ≠ [] := by
  unfold implemented at h
  intro h0
  simp [h0, hb] at h
/-- What an accepted write of a register does, on a page that is no lane's or in its header (R12). -/
theorem State.writeWith_accepts {s : State} {p off v : Nat} (act : State → State) (h : s.accepts p off v)
    (hb : (∀ i, blkOf p ≠ some (.lane, i)) ∨ off ∈ [4, 0x10, 0x14, 0x2C, 0x34]) : s.writeWith p off v act = act s := by
  obtain ⟨b, i, hblk, himp⟩ := State.accepts_implemented h
  refine s.writeWith_accepted p off v act h.1 (fun c j hc => ?_) h.2
  obtain ⟨rfl, rfl⟩ : b = c ∧ i = j := by simpa [hblk] using hc
  rcases hb with hb | hb
  · exact fieldsAt_of_implemented himp fun e => hb i (e ▸ hblk)
  · exact fieldsAt_header b i off hb
/-- A command that is an accepted write of one register does what the register's write does (R12). -/
theorem exec_accepts {s : State} {c : Instr} {p off v : Nat} (hc : s.hostWrite c = some (p, off, v)) (h : s.accepts p off v)
    (hb : (∀ i, blkOf p ≠ some (.lane, i)) ∨ off ∈ [4, 0x10, 0x14, 0x2C, 0x34]) : exec c s = .next (regAct p off v s) := by
  rw [exec_hostWrite hc, State.writeWith_accepts _ h hb]

/-! ### Writes that clear and lock (O11) -/

theorem State.regsBut_errClear (s : State) (p : Nat) : s.regsBut (s.errClear p) (errFields p) := by
  unfold State.errClear errFields
  repeat' first
    | with_reducible exact State.regsBut_refl _ _
    | with_reducible refine State.regsBut_set ?_ _ (by simp)
/-- Each error register reads 0 after ERR has been written 1 (R40). -/
theorem State.get_errClear (s : State) (p : Nat) : ∀ f ∈ (errFields p).map (·.2), f ≠ R.PG_IRQ_RAW → (s.errClear p).get p f = 0 := by
  simp only [errFields, List.map_cons, List.map_nil, List.forall_mem_cons, List.not_mem_nil, false_imp_iff, implies_true, and_true]
  unfold State.errClear
  refine ⟨?_, ?_, ?_, ?_, ?_, ?_, fun h => absurd rfl h⟩ <;> intro _ <;>
    simp (disch := decide) only [State.get_set_self, State.get_set_field, Nat.zero_mod]
theorem State.get_errClear_raw (s : State) (p : Nat) : (s.errClear p).get p R.PG_IRQ_RAW = s.get p R.PG_IRQ_RAW := by
  unfold State.errClear
  simp (disch := decide) only [State.get_set_field]
theorem State.errClear_regsOnly (s : State) (p : Nat) : ({ s.errClear p with regs := s.regs } : State) = s := by
  simp [State.errClear]

theorem get_irqRawAct_raw (p v : Nat) (s : State) :
    (irqRawAct p v s).get p R.PG_IRQ_RAW = andNot (s.get p R.PG_IRQ_RAW) v % 2 ^ 32 := by
  unfold irqRawAct
  dsimp only
  split <;> rw [State.get_upd_self]
  · rw [State.get_errClear_raw]
    rfl
  · rfl
theorem get_irqRawAct_err {p v : Nat} (s : State) (h : bit v 1 = true) :
    ∀ f ∈ (errFields p).map (·.2), f ≠ R.PG_IRQ_RAW → (irqRawAct p v s).get p f = 0 := by
  intro f hf hne
  have hid : f.id ≠ R.PG_IRQ_RAW.id := by
    revert f
    simp only [errFields, List.map_cons, List.map_nil, List.forall_mem_cons, List.not_mem_nil, false_imp_iff, implies_true, and_true]
    decide
  simp only [irqRawAct, h, if_true]
  rw [State.get_upd_ne _ _ (Or.inr hid), s.get_errClear p f hf hne]
theorem regsBut_irqRawAct (p v : Nat) (s : State) :
    s.regsBut (irqRawAct p v s) (if bit v 1 then errFields p else [(p, R.PG_IRQ_RAW)]) := by
  unfold irqRawAct
  dsimp only
  split
  · exact State.regsBut_set (s.regsBut_errClear p) _ (by simp [errFields])
  · exact State.regsBut_set (State.regsBut_refl _ _) _ (by simp)
theorem irqRawAct_regsOnly (p v : Nat) (s : State) : ({ irqRawAct p v s with regs := s.regs } : State) = s := by
  unfold irqRawAct
  dsimp only
  split <;> simp [State.upd, State.errClear]

/-- A field whose value no map lists reads its Reset value. -/
theorem State.get_of_find_none {s : State} {p : Nat} {f : Fld} (h : s.regs.find (p, f.id) = none) : s.get p f = rst p f := by
  simp [State.get, h]
/-- A field of a page that returns to Reset reads its Reset value. -/
theorem State.get_dropPage_gone (s : State) (p : Nat) (keep : Nat → Bool) {f : Fld} (h : keep f.id = false) :
    ({ s with regs := s.regs.dropPage p keep } : State).get p f = rst p f :=
  State.get_of_find_none (RegMap.find_dropPage_gone _ _ _ _ h)
theorem State.get_dropPage_kept (s : State) (p : Nat) (keep : Nat → Bool) {q : Nat} {f : Fld} (h : q ≠ p ∨ keep f.id = true) :
    ({ s with regs := s.regs.dropPage p keep } : State).get q f = s.get q f := by
  simp only [State.get]
  rw [RegMap.find_dropPage_kept _ _ _ _ _ h]

/-- Settles O11: each write is `irqRawAct`, `lockAct` or `violCtrlAct` once it is accepted, and these set only what they name. -/
theorem clearingAndLockingWrites : Obligations.ClearingAndLockingWrites := by
  unfold Obligations.ClearingAndLockingWrites
  refine ⟨fun s p m => ⟨fun h => ?_, fun h => ?_⟩, fun s p => ⟨fun h => ?_, fun h => ?_⟩, fun s => ⟨fun h => ?_, fun h => ?_⟩⟩
  · exact ⟨_, exec_accepts rfl h (Or.inr (by simp)), get_irqRawAct_raw _ _ _, fun hb => get_irqRawAct_err _ hb, regsBut_irqRawAct _ _ _,
      irqRawAct_regsOnly _ _ _⟩
  · have herr := get_irqRawAct_err (p := p) (v := 2) s rfl
    simp only [errFields, List.map_cons, List.map_nil, List.forall_mem_cons] at herr
    obtain ⟨hcnt, hlo, hhi, hsrc, hdir, hcode, -⟩ := herr
    exact ⟨_, exec_accepts rfl h (Or.inr (by simp)), get_irqRawAct_raw _ _ _, hcnt (by decide), hlo (by decide), hhi (by decide),
      hcode (by decide), hsrc (by decide), hdir (by decide), regsBut_irqRawAct p 2 s, irqRawAct_regsOnly _ _ _⟩
  · exact ⟨_, exec_accepts rfl h (Or.inr (by simp)), s.get_set_self _ _ _, State.regsBut_set (State.regsBut_refl _ _) _ (by simp), by
      simp [regAct_lock, lockAct]⟩
  · exact ⟨_, exec_accepts rfl h (Or.inr (by simp)), s.get_set_self _ _ _, State.regsBut_set (State.regsBut_refl _ _) _ (by simp), by
      simp [regAct_lock, lockAct]⟩
  · have hgone : ∀ f : Fld, f.id / 32 ∈ [0x100, 0x104, 0x108] → s.violClear.get pSYS f = rst pSYS f := fun f hf =>
      s.get_dropPage_gone pSYS _ (by simp at hf ⊢; omega)
    refine ⟨_, exec_accepts rfl h (Or.inl (by simp)), hgone _ (by decide), hgone _ (by decide), hgone _ (by decide), hgone _ (by decide),
      hgone _ (by decide), fun q f hq => ?_, rfl⟩
    exact s.get_dropPage_kept pSYS _ (by simpa [and_assoc] using hq)
  · have hgone : ∀ f : Fld, f.id / 32 ∈ [0x110, 0x114] → s.conflictClear.get pSYS f = rst pSYS f := fun f hf =>
      s.get_dropPage_gone pSYS _ (by simp at hf ⊢; omega)
    refine ⟨_, exec_accepts rfl h (Or.inl (by simp)), hgone _ (by decide), hgone _ (by decide), hgone _ (by decide), hgone _ (by decide),
      hgone _ (by decide), hgone _ (by decide), hgone _ (by decide), hgone _ (by decide), fun q f hq => ?_, rfl⟩
    exact s.get_dropPage_kept pSYS _ (by simpa [and_assoc] using hq)

end Sys2Proof.Machine
end

section
/-! PROOFS. The tick of the time base, its commands and its slew (R354, R356, R357). -/

open Sys2Proof Sys2Proof.Machine
namespace Sys2Proof.Machine


theorem State.timeC_setC (s : State) (v : Int) : (s.setC v).timeC = uns 96 v := by
  simp only [State.timeC, State.setC]
  omega
theorem uns_cast (w : Nat) (v : Int) : (uns w v : Int) = v % 2 ^ w := by
  unfold uns
  rw [Int.toNat_of_nonneg (Int.emod_nonneg _ (by positivity))]
  push_cast
  rfl
/-- What a tick adds to C: nothing where TIME is disabled, else its increment and, while a slew of so many ticks runs, its extra (R356). -/
def State.tickAdv (s : State) (left : Nat) : Int :=
  if !s.enabled pTIME then 0 else (s.timeInc : Int) + if left = 0 then 0 else sgn 32 (s.get pTIME R.TIME_SLEW)
/-- What C becomes at a tick with the waiting commands c (R356). -/
def State.tickTo (s : State) (c : Nat) : Int :=
  if bit c 0 then s.get64 pTIME R.TIME_SET_LO R.TIME_SET_HI * 2 ^ 32
  else s.timeC + s.tickAdv (if bit c 3 then s.get pTIME R.TIME_SLEW_N else s.get pTIME R.TIME_SLEW_LEFT) +
    if bit c 1 then sgn 64 (s.get64 pTIME R.TIME_STEP_LO R.TIME_STEP_HI) * 2 ^ 32 else 0
/-- What TIME_SLEW_LEFT becomes at a tick with the waiting commands c. -/
def State.tickLeft (s : State) (c : Nat) : Nat :=
  let left := if bit c 3 then s.get pTIME R.TIME_SLEW_N else s.get pTIME R.TIME_SLEW_LEFT
  if s.enabled pTIME then left - 1 else left
/-- The tick without a snapshot: C moves, the slew counts, the commands are done. -/
def State.tickBase (s : State) : State :=
  { (s.setC (s.tickTo s.timeCmd)).set pTIME R.TIME_SLEW_LEFT (s.tickLeft s.timeCmd) with
    tick := s.tick + 1
    timeCmd := 0 }
/-- A tick as it begins: the oscillator has counted and the balls have taken their levels. -/
def State.tickStart (s : State) : State := { s with osc := s.osc + 1, mfioIn := Config.mfioLevel s.fresh s.osc }
@[simp] theorem State.get_tickStart (s : State) : s.tickStart.get = s.get := rfl
@[simp] theorem State.enabled_tickStart (s : State) : s.tickStart.enabled = s.enabled := rfl
@[simp] theorem State.timeC_tickStart (s : State) : s.tickStart.timeC = s.timeC := rfl
@[simp] theorem State.timeCmd_tickStart (s : State) : s.tickStart.timeCmd = s.timeCmd := rfl
@[simp] theorem State.timeInc_tickStart (s : State) : s.tickStart.timeInc = s.timeInc := rfl
@[simp] theorem State.get64_tickStart (s : State) : s.tickStart.get64 = s.get64 := rfl
@[simp] theorem State.tickAdv_tickStart (s : State) (n : Nat) : s.tickStart.tickAdv n = s.tickAdv n := by simp [State.tickAdv]
@[simp] theorem State.tickTo_tickStart (s : State) (c : Nat) : s.tickStart.tickTo c = s.tickTo c := by
  unfold State.tickTo
  rw [State.get64_tickStart, State.timeC_tickStart, State.tickAdv_tickStart, State.get_tickStart]
@[simp] theorem State.tickLeft_tickStart (s : State) (c : Nat) : s.tickStart.tickLeft c = s.tickLeft c := rfl
@[simp] theorem State.enabled_setC (s : State) (v : Int) : (s.setC v).enabled = s.enabled := rfl
@[simp] theorem State.tick_setC (s : State) (v : Int) : (s.setC v).tick = s.tick := rfl
theorem State.tickC_eq (s : State) : s.tickC = if bit s.timeCmd 2 then s.tickBase.snapshot true 0 else s.tickBase := by
  unfold State.tickC State.tickBase State.tickTo State.tickAdv State.tickLeft
  dsimp only
  rw [← apply_ite s.setC, State.enabled_setC]
  simp only [State.set_tick, State.tick_setC]
theorem State.tickBase_timeC (s : State) : (s.tickBase.timeC : Int) = s.tickTo s.timeCmd % 2 ^ 96 := by
  rw [show s.tickBase.timeC = (s.setC (s.tickTo s.timeCmd)).timeC from rfl, State.timeC_setC, uns_cast]
theorem State.tickBase_left (s : State) : s.tickBase.get pTIME R.TIME_SLEW_LEFT = s.tickLeft s.timeCmd % 2 ^ R.TIME_SLEW_LEFT.w :=
  (s.setC _).get_set_self _ _ _
theorem State.regsBut_tickBase (s : State) : s.regsBut s.tickBase [(pTIME, R.TIME_SLEW_LEFT)] :=
  fun q g hq => (s.setC _).get_set_ne _ (hq (pTIME, R.TIME_SLEW_LEFT) (by simp))
/-- The tick before what DRAM serves at it: the oscillator counts, the balls take their levels, C moves. -/
def State.tickNext (s : State) : State := s.tickStart.tickC
theorem State.clockTick_ticks {s : State} (h : s.ticks = true) : s.clockTick = s.tickNext.dramWake := by
  have hr : s.inReset = false := by
    cases hi : s.inReset <;> simp_all [State.ticks]
  unfold State.clockTick
  rw [if_neg (by simp [hr])]
  exact if_pos h
theorem step_idle {s : State} (h : s.pending = []) : step s = .next s.clockTick := by simp only [step, h]
theorem State.tickNext_eq {s : State} (h : bit s.timeCmd 2 = false) :
    s.tickNext = s.tickStart.tickBase := by
  rw [State.tickNext, State.tickC_eq, if_neg (by simpa using h)]

theorem takeTurns_nil : takeTurns [] = [] := rfl
/-- DRAM serves nothing where no request is known to wait. -/
theorem State.dramWake_idle {s : State} (hw : s.dramWait = []) (hb : s.bells = []) (ha : s.ackDue = []) (hd : s.dma = [])
    (hj : s.job = []) (hc : s.dec = []) : s.dramWake = s := by
  have h1 : s.dramDrain = s := by
    cases s
    cases hw
    rfl
  have h2 : s.bellsRing = s := by
    have : s.bar2Writes = false := by simp [State.bar2Writes, hw]
    unfold State.bellsRing
    rw [if_neg (by simp [this]), hb]
    cases s
    cases hb
    rfl
  have h3 : s.ctlAcks = s := by
    cases s
    cases ha
    rfl
  simp only [State.dramWake, h1, h2, h3, hd, hj, hc, List.map_nil, State.each, List.foldl_nil]

/-- Settles O2: `clockTick` is `tickBase` at an idle tick, and its other cases are its own definition's. -/
theorem idleStepIsATick : Obligations.IdleStepIsATick := by
  unfold Obligations.IdleStepIsATick
  intro s hp
  rw [step_idle hp]
  refine ⟨fun hr => ?_, fun hr hc => ?_, fun ht hc => ?_⟩
  · rw [State.clockTick, if_pos hr]
  · rw [State.clockTick, if_neg (by simp [hr])]
    simp [State.ticks, hc]
  · have hbit : ∀ i, bit s.timeCmd i = false := fun i => by simp [hc, bit]
    have htime := s.tickStart.tickBase_timeC
    have hto : s.tickTo s.timeCmd =
        s.timeC + s.tickAdv (s.get pTIME R.TIME_SLEW_LEFT) := by
      simp only [State.tickTo, hbit, Bool.false_eq_true, if_false, Int.add_zero]
    have hleft : s.tickLeft s.timeCmd =
        if s.enabled pTIME then s.get pTIME R.TIME_SLEW_LEFT - 1 else s.get pTIME R.TIME_SLEW_LEFT := by
      simp only [State.tickLeft, hbit, Bool.false_eq_true, if_false]
    rw [State.clockTick_ticks ht, State.tickNext_eq (hbit 2)]
    rw [State.tickTo_tickStart, State.timeCmd_tickStart, hto] at htime
    refine ⟨_, rfl, fun hw hb ha hd hj hdec => State.dramWake_idle hw hb ha hd hj hdec, rfl, rfl, rfl, fun he => ?_, fun he h0 => ?_,
      fun he h0 => ?_, fun he => ?_, State.regsBut_tickBase _, ?_⟩
    · simp only [State.tickAdv, he, Bool.not_false, if_true, Int.add_zero] at htime
      exact_mod_cast htime
    · simp only [State.tickAdv, he, Bool.not_true, Bool.false_eq_true, if_false, h0, if_true, Int.add_zero] at htime
      exact_mod_cast htime
    · simp only [State.tickAdv, he, Bool.not_true, Bool.false_eq_true, if_false, h0] at htime
      rw [htime, Int.add_assoc]
    · rw [State.tickBase_left, State.tickLeft_tickStart, State.timeCmd_tickStart, hleft, if_pos he]
    · cases s
      cases hc
      rfl

theorem uns96_shifted (x : Nat) : uns 96 ((x : Int) * 2 ^ 32) = x % 2 ^ 64 * 2 ^ 32 := by
  have h := uns_cast 96 ((x : Int) * 2 ^ 32)
  omega
theorem State.get_snapshot_of_free (s : State) (sw : Bool) (vec : Nat) {f : Fld} (h : f.id ≠ R.PG_IRQ_RAW.id ∧
    f.id ≠ R.TIME_SNAP_INFO_VEC.id) : (s.snapshot sw vec).get pTIME f = (((((s.set pTIME R.TIME_SNAP_LO s.cNs).set pTIME R.TIME_SNAP_HI
      (s.cNs / 2 ^ 32)).incWrap pTIME R.TIME_SNAP_INFO_SEQ).setFlag pTIME R.TIME_SNAP_INFO_SW sw).get pTIME f) := by
  unfold State.snapshot
  dsimp only
  rw [State.get_cause_field _ _ _ h.1, State.get_tickFresh, State.get_set_field _ _ _ h.2]
/-- A snapshot latches C and counts itself (R357). -/
theorem State.get_snapshot (s : State) (sw : Bool) (vec : Nat) :
    (s.snapshot sw vec).get pTIME R.TIME_SNAP_LO = s.cNs % 2 ^ 32 ∧
    (s.snapshot sw vec).get pTIME R.TIME_SNAP_HI = s.cNs / 2 ^ 32 % 2 ^ 32 ∧
    (s.snapshot sw vec).get pTIME R.TIME_SNAP_INFO_SEQ = (s.get pTIME R.TIME_SNAP_INFO_SEQ + 1) % 2 ^ R.TIME_SNAP_INFO_SEQ.w ∧
    (s.snapshot sw vec).get pTIME R.TIME_SNAP_INFO_SW = b2n sw := by
  have hb : b2n sw % 2 ^ 1 = b2n sw := by cases sw <;> rfl
  refine ⟨?_, ?_, ?_, ?_⟩ <;> rw [State.get_snapshot_of_free _ _ _ (by decide)] <;>
    simp (disch := decide) only [State.get_setFlag_field, State.get_incWrap_field, State.get_set_field, State.get_set_self,
      State.get_setFlag_self, State.get_incWrap_self]
  · rfl
  · rfl
  · exact hb
/-- A cause that is raised on a page that is not frozen reads 1. -/
theorem State.bit_cause (s : State) {p i : Nat} (hi : i < 32) (h : s.frozen p = false) : bit ((s.cause p i).get p R.PG_IRQ_RAW) i = true := by
  rw [State.get_cause_self _ _ _ h]
  rw [bit, Nat.testBit_mod_two_pow]
  simp [hi]
/-- A page that is not fenced takes causes and errors (R48). -/
theorem State.frozen_of_unfenced {s : State} {p : Nat} (h : s.fenced p = false) : s.frozen p = false := by
  simp only [State.fenced] at h
  simp [State.frozen, h]
theorem State.snapshot_cause (s : State) (sw : Bool) (vec : Nat) (h : s.fenced pTIME = false) :
    bit ((s.snapshot sw vec).get pTIME R.PG_IRQ_RAW) 19 = true := by
  unfold State.snapshot
  dsimp only
  refine State.bit_cause _ (by decide) (State.frozen_of_unfenced ?_)
  unfold State.fenced State.flag at h ⊢
  rw [State.get_tickFresh]
  simp (disch := decide) only [State.get_setFlag_field, State.get_incWrap_field, State.get_set_field]
  exact h


theorem State.tickTo_set (s : State) : s.tickTo 1 = s.get64 pTIME R.TIME_SET_LO R.TIME_SET_HI * 2 ^ 32 := by
  rw [State.tickTo, if_pos (by rfl)]
theorem State.tickTo_step (s : State) : s.tickTo 2 = s.timeC + s.tickAdv (s.get pTIME R.TIME_SLEW_LEFT) +
    sgn 64 (s.get64 pTIME R.TIME_STEP_LO R.TIME_STEP_HI) * 2 ^ 32 := by
  rw [State.tickTo, if_neg (by decide), if_neg (by decide), if_pos (by rfl)]
theorem State.tickTo_slew (s : State) : s.tickTo 8 = s.timeC + s.tickAdv (s.get pTIME R.TIME_SLEW_N) := by
  rw [State.tickTo, if_neg (by decide), if_pos (by rfl), if_neg (by decide), Int.add_zero]
theorem State.tickTo_none (s : State) : s.tickTo 0 = s.timeC + s.tickAdv (s.get pTIME R.TIME_SLEW_LEFT) := by
  rw [State.tickTo, if_neg (by decide), if_neg (by decide), if_neg (by decide), Int.add_zero]
theorem State.tickAdv_off {s : State} (h : s.enabled pTIME = false) (n : Nat) : s.tickAdv n = 0 := by
  rw [State.tickAdv, h]
  rfl
theorem State.tickAdv_plain {s : State} (h : s.enabled pTIME = true) : s.tickAdv 0 = s.timeInc := by
  rw [State.tickAdv, h]
  exact Int.add_zero _
theorem State.tickAdv_slew {s : State} (h : s.enabled pTIME = true) {n : Nat} (hn : n ≠ 0) :
    s.tickAdv n = s.timeInc + sgn 32 (s.get pTIME R.TIME_SLEW) := by
  rw [State.tickAdv, h, if_neg hn]
  rfl
theorem State.tickLeft_slew {s : State} (h : s.enabled pTIME = true) : s.tickLeft 8 = s.get pTIME R.TIME_SLEW_N - 1 := by
  rw [State.tickLeft, if_pos h, if_pos (by rfl)]
theorem State.tickLeft_none {s : State} (h : s.enabled pTIME = true) : s.tickLeft 0 = s.get pTIME R.TIME_SLEW_LEFT - 1 := by
  rw [State.tickLeft, if_pos h, if_neg (by decide)]
/-- What a tick without a snapshot leaves in C, in the slew's count and of the waiting commands. -/
theorem State.tickNext_moves {s : State} {c : Nat} (h : s.timeCmd = c) (hc : bit c 2 = false) :
    (s.tickNext.timeC : Int) = s.tickTo c % 2 ^ 96 ∧ s.tickNext.get pTIME R.TIME_SLEW_LEFT = s.tickLeft c % 2 ^ R.TIME_SLEW_LEFT.w ∧
    s.tickNext.timeCmd = 0 ∧ s.tickNext.tick = s.tick + 1 := by
  rw [State.tickNext_eq (by rw [h, hc])]
  refine ⟨?_, ?_, rfl, rfl⟩
  · rw [State.tickBase_timeC, State.tickTo_tickStart, State.timeCmd_tickStart, h]
  · rw [State.tickBase_left, State.tickLeft_tickStart, State.timeCmd_tickStart, h]
theorem State.setC_cNs (s : State) (v : Int) : (s.setC v).cNs = uns 96 v / 2 ^ 32 := rfl
theorem State.setC_cFrac (s : State) (v : Int) : (s.setC v).cFrac = uns 96 v % 2 ^ 32 := rfl
theorem State.tickBase_cNs (s : State) : s.tickBase.cNs = (s.setC (s.tickTo s.timeCmd)).cNs := rfl
theorem State.tickBase_cFrac (s : State) : s.tickBase.cFrac = (s.setC (s.tickTo s.timeCmd)).cFrac := rfl
/-- SET loads C with TIME_SET and a zero fraction. -/
theorem State.tickNext_set {s : State} (h : s.timeCmd = 1) :
    s.tickNext.cFrac = 0 ∧ s.tickNext.cNs = s.get64 pTIME R.TIME_SET_LO R.TIME_SET_HI % 2 ^ 64 := by
  rw [State.tickNext_eq (by rw [h]; rfl), State.tickBase_cFrac, State.tickBase_cNs, State.setC_cFrac, State.setC_cNs,
    State.tickTo_tickStart, State.timeCmd_tickStart, h, State.tickTo_set, uns96_shifted]
  exact ⟨Nat.mul_mod_left _ _, Nat.mul_div_cancel _ (by decide)⟩
theorem State.snapshot_cNs (s : State) (sw : Bool) (vec : Nat) : (s.snapshot sw vec).cNs = s.cNs := by
  unfold State.snapshot
  dsimp only
  refine (State.sameBlocks_frame (State.sameBlocks_cause _ _ _) State.cNs fun _ _ _ _ => rfl).trans ?_
  simp [State.incWrap, State.addWrap]
theorem State.snapshot_timeCmd (s : State) (sw : Bool) (vec : Nat) : (s.snapshot sw vec).timeCmd = s.timeCmd := by
  unfold State.snapshot
  dsimp only
  refine (State.sameBlocks_frame (State.sameBlocks_cause _ _ _) State.timeCmd fun _ _ _ _ => rfl).trans ?_
  simp [State.incWrap, State.addWrap]
/-- A tick reads every register as before, but the slew's count. -/
theorem State.get_tickBase_ne (s : State) {q : Nat} {g : Fld} (h : q ≠ pTIME ∨ g.id ≠ R.TIME_SLEW_LEFT.id) :
    s.tickStart.tickBase.get q g = s.get q g :=
  (s.tickStart.setC _).get_set_ne _ h
/-- SNAP latches C and counts the snapshot (R357). -/
theorem State.tickNext_snap {s : State} (h : s.timeCmd = 4) (hf : s.fenceSound) :
    s.tickNext.timeCmd = 0 ∧ s.tickNext.get pTIME R.TIME_SNAP_LO = s.tickNext.cNs % 2 ^ 32 ∧
    s.tickNext.get pTIME R.TIME_SNAP_HI = s.tickNext.cNs / 2 ^ 32 % 2 ^ 32 ∧
    s.tickNext.get pTIME R.TIME_SNAP_INFO_SEQ = (s.get pTIME R.TIME_SNAP_INFO_SEQ + 1) % 2 ^ R.TIME_SNAP_INFO_SEQ.w ∧
    s.tickNext.get pTIME R.TIME_SNAP_INFO_SW = 1 ∧ bit (s.tickNext.get pTIME R.PG_IRQ_RAW) 19 = true := by
  rw [State.tickNext, State.tickC_eq, State.timeCmd_tickStart, h, if_pos (by rfl)]
  obtain ⟨hlo, hhi, hseq, hsw⟩ := s.tickStart.tickBase.get_snapshot true 0
  have hfenced : s.tickStart.tickBase.fenced pTIME = false := by
    have hg : s.tickStart.tickBase.get pTIME R.PG_FENCE_FENCED = s.get pTIME R.PG_FENCE_FENCED :=
      State.get_tickBase_ne s (Or.inr (by decide))
    rw [State.fenced, State.flag, hg]
    exact hf pTIME .time 0 (by decide) rfl
  rw [State.snapshot_cNs, State.snapshot_timeCmd]
  refine ⟨rfl, hlo, hhi, hseq.trans ?_, hsw, State.snapshot_cause _ _ _ hfenced⟩
  rw [State.get_tickBase_ne s (Or.inr (by decide))]
/-- The tick that ends a slew moves C and the slew's count, and no other register or block. -/
theorem State.tickNext_frame {s : State} (h : s.timeCmd = 0) : s.regsBut s.tickNext [(pTIME, R.TIME_SLEW_LEFT)] ∧
    ({ s.tickNext with tick := s.tick, osc := s.osc, cNs := s.cNs, cFrac := s.cFrac, regs := s.regs, mfioIn := s.mfioIn } : State) = s := by
  rw [State.tickNext_eq (by rw [h]; rfl)]
  refine ⟨State.regsBut_tickBase _, ?_⟩
  cases s
  cases h
  rfl
theorem exec_slewEnd (s : State) : exec .slewEnd s = .next
    (if s.ticks = true ∧ s.enabled pTIME = true ∧ s.get pTIME R.TIME_SLEW_LEFT = 1 then s.clockTick else s) := by
  refine (show exec .slewEnd s = execSlewEnd s from rfl).trans ?_
  rw [execSlewEnd]
  simp only [Bool.and_eq_true, beq_iff_eq, and_assoc]

/-- Settles O18: a tick moves C to `tickTo` of the waiting command, with the snapshot of SNAP. -/
theorem timeCommands : Obligations.TimeCommands := by
  unfold Obligations.TimeCommands
  refine ⟨fun s => ⟨fun h => ?_, fun h => ?_, fun h => ?_, fun h => ?_⟩, fun s hp ht => ?_,
    fun s => ⟨fun ht he hl hc => ?_, fun h => ?_⟩⟩
  case refine_1 | refine_2 | refine_3 | refine_4 => exact exec_accepts rfl h (Or.inl (by simp))
  case refine_5 =>
    rw [step_idle hp, State.clockTick_ticks ht]
    refine ⟨fun hc => ?_, fun hc he h0 => ?_, fun hc he => ?_, fun hc he h0 => ?_, fun hc hf => ?_⟩
    · obtain ⟨-, -, hcmd, -⟩ := State.tickNext_moves hc rfl
      exact ⟨_, rfl, hcmd, State.tickNext_set hc⟩
    · obtain ⟨htime, -, hcmd, -⟩ := State.tickNext_moves hc rfl
      rw [State.tickTo_step, h0, State.tickAdv_plain he] at htime
      exact ⟨_, rfl, hcmd, htime⟩
    · obtain ⟨htime, -, hcmd, -⟩ := State.tickNext_moves hc rfl
      rw [State.tickTo_step, State.tickAdv_off he, Int.add_zero] at htime
      exact ⟨_, rfl, hcmd, htime⟩
    · obtain ⟨htime, hleft, hcmd, -⟩ := State.tickNext_moves hc rfl
      rw [State.tickTo_slew, State.tickAdv_slew he h0, ← Int.add_assoc] at htime
      rw [State.tickLeft_slew he] at hleft
      exact ⟨_, rfl, hcmd, htime, hleft⟩
    · exact ⟨_, rfl, State.tickNext_snap hc hf⟩
  case refine_6 =>
    obtain ⟨htime, hleft, -, htick⟩ := State.tickNext_moves hc rfl
    rw [State.tickTo_none, State.tickAdv_slew he (by omega), ← Int.add_assoc] at htime
    rw [State.tickLeft_none he, hl] at hleft
    rw [exec_slewEnd, if_pos ⟨ht, he, hl⟩, State.clockTick_ticks ht]
    exact ⟨_, rfl, hleft, htick, htime, State.tickNext_frame hc⟩
  case refine_7 =>
    rw [exec_slewEnd, if_neg]
    rcases h with h | h | h <;> simp [h]

end Sys2Proof.Machine
end

section
/-! PROOFS. What reading the line store leaves (R308, R309, R311), the aperture (R57) and the reads of LATCHING_READ (R32, R33, R347). -/

open Sys2Proof Sys2Proof.Machine
namespace Sys2Proof.Machine

/-! ### What only reports -/

/-- t differs from s at most in register fields and in the messages that wait. -/
def State.reports (s t : State) : Prop := ∃ r w, t = { s with regs := r, host := { s.host with waiting := w } }
theorem State.reports_refl (s : State) : s.reports s := ⟨s.regs, s.host.waiting, rfl⟩
theorem State.reports.trans {s t u : State} (h : s.reports t) (k : t.reports u) : s.reports u := by
  obtain ⟨r, w, rfl⟩ := h
  obtain ⟨r', w', rfl⟩ := k
  exact ⟨r', w', rfl⟩
theorem State.reports_set (s : State) (p : Nat) (f : Fld) (v : Nat) : s.reports (s.set p f v) := ⟨_, _, rfl⟩
theorem State.reports_setFlag (s : State) (p : Nat) (f : Fld) (b : Bool) : s.reports (s.setFlag p f b) := ⟨_, _, rfl⟩
theorem State.reports_addSat (s : State) (p : Nat) (f : Fld) (k : Nat) : s.reports (s.addSat p f k) := ⟨_, _, rfl⟩
theorem State.reports_incSat (s : State) (p : Nat) (f : Fld) : s.reports (s.incSat p f) := ⟨_, _, rfl⟩
theorem State.reports_request (s : State) (p : Nat) : s.reports (s.request p) := by
  unfold State.request
  dsimp only
  split
  · exact s.reports_refl
  · exact ⟨_, _, rfl⟩
theorem State.reports_irqSet (s : State) (p : Nat) (f : Fld) (v : Nat) : s.reports (s.irqSet p f v) := by
  unfold State.irqSet
  dsimp only
  split
  · exact State.reports.trans (s.reports_set p f v) (State.reports_request _ p)
  · exact s.reports_set p f v
theorem State.reports_raise (s : State) (p bits : Nat) : s.reports (s.raise p bits) := by
  unfold State.raise
  split
  · exact s.reports_refl
  · exact s.reports_irqSet _ _ _
theorem State.reports_cause (s : State) (p i : Nat) : s.reports (s.cause p i) := s.reports_raise p _
theorem State.reports_errCount (s : State) (p code src lo hi dir : Nat) : s.reports (s.errCount p code src lo hi dir) := by
  unfold State.errCount
  dsimp only
  split
  · exact ((((((s.reports_set p _ lo).trans (State.reports_set _ p _ hi)).trans (State.reports_set _ p _ src)).trans
      (State.reports_set _ p _ dir)).trans (State.reports_set _ p _ code)).trans (State.reports_incSat _ p _))
  · exact s.reports_incSat p _
theorem State.reports_err (s : State) (p code src lo hi dir : Nat) : s.reports (s.err p code src lo hi dir) := by
  unfold State.err
  split
  · exact s.reports_refl
  · exact State.reports.trans (s.reports_errCount p code src lo hi dir) (State.reports_cause _ p 1)

/-! ### Reading the line store -/

/-- A read of the line store changes nothing behind the registers and the waiting messages but the repeat table. -/
def State.lsReports (s t : State) : Prop := ∃ r w e, t = { s with regs := r, host := { s.host with waiting := w }, lsRep := e }
theorem State.lsReports_refl (s : State) : s.lsReports s := ⟨s.regs, s.host.waiting, s.lsRep, rfl⟩
theorem State.lsReports.trans {s t u : State} (h : s.lsReports t) (k : t.lsReports u) : s.lsReports u := by
  obtain ⟨r, w, e, rfl⟩ := h
  obtain ⟨r', w', e', rfl⟩ := k
  exact ⟨r', w', e', rfl⟩
theorem State.reports.ls {s t : State} (h : s.reports t) : s.lsReports t := by
  obtain ⟨r, w, rfl⟩ := h
  exact ⟨r, w, s.lsRep, rfl⟩
theorem State.lsReports_seen {s t : State} (h : s.lsReports t) : t.lsSeen = s.lsSeen := by
  obtain ⟨r, w, e, rfl⟩ := h
  rfl
theorem State.lsReports.memory {s t : State} (h : s.lsReports t) : s.sameMemory t := by
  obtain ⟨r, w, e, rfl⟩ := h
  exact ⟨rfl, rfl, rfl, rfl, rfl⟩
theorem State.reports_counted (s : State) (p code src a cause : Nat) (f : Fld) :
    s.reports (((s.err p code src a).incSat p f).cause p cause) :=
  ((s.reports_err p code src a 0 0).trans (State.reports_incSat _ p f)).trans (State.reports_cause _ p cause)
/-- A byte as it is answered: none where it is uncorrectable. -/
def lsAnswer (v : Byte × Nat) : Option Byte := if v.2 ≤ 1 then some v.1 else none
/-- A byte that is read is answered as it is found, and reports at most. -/
theorem State.lsFound_spec (s : State) (a src : Nat) (v : Byte × Nat) :
    s.lsReports (s.lsFound a src v).1 ∧ (s.lsFound a src v).2 = lsAnswer v := by
  unfold State.lsFound lsAnswer
  rcases Nat.lt_trichotomy v.2 1 with h | h | h
  · rw [if_pos (by omega), if_pos (by omega)]
    exact ⟨s.lsReports_refl, rfl⟩
  · rw [if_neg (by omega), if_pos h, if_pos (by omega)]
    refine ⟨?_, rfl⟩
    have hcount := (s.reports_counted pLSTORE 0x10 src a 3 R.LSTORE_CORR_CNT).ls
    have hrep : ∀ (t : State) e, t.lsReports { t with lsRep := e } := fun t e => ⟨t.regs, t.host.waiting, e, rfl⟩
    dsimp only
    split
    · exact (hcount.trans (hrep _ _)).trans ((((State.reports_err _ pLSTORE 0x12 src a 0 0).trans
        (State.reports_incSat _ pLSTORE R.LSTORE_REP_CNT)).trans (State.reports_set _ pLSTORE R.LSTORE_REP_LAST a)).trans
        (State.reports_cause _ pLSTORE 5)).ls
    · exact hcount.trans (hrep _ _)
  · rw [if_neg (by omega), if_neg (by omega), if_neg (by omega)]
    exact ⟨(s.reports_counted pLSTORE 0x11 src a 4 R.LSTORE_UNC_CNT).ls, rfl⟩
/-- Bytes that are read are answered one by one as the state at the start finds them. -/
theorem State.lsReads_spec (l : List (Option Byte)) (s : State) (src a : Nat) :
    s.lsReports (s.lsReads src a l).1 ∧
    (s.lsReads src a l).2 = (List.range l.length).map fun i => lsAnswer (s.lsSeen (a + i) (l[i]?.getD none)) := by
  induction l generalizing s a with
  | nil => exact ⟨s.lsReports_refl, rfl⟩
  | cons o r ih =>
    obtain ⟨hrep, hans⟩ := s.lsFound_spec a src (s.lsSeen a o)
    obtain ⟨hrep', hans'⟩ := ih (s.lsFound a src (s.lsSeen a o)).1 (a + 1)
    refine ⟨hrep.trans hrep', ?_⟩
    show (s.lsFound a src (s.lsSeen a o)).2 :: ((s.lsFound a src (s.lsSeen a o)).1.lsReads src (a + 1) r).2 = _
    rw [hans, hans', State.lsReports_seen hrep, List.length_cons, List.range_succ_eq_map, List.map_cons, List.map_map]
    refine congrArg₂ _ rfl (List.map_congr_left fun i _ => ?_)
    simp only [Function.comp, List.getElem?_cons_succ, Nat.add_assoc, Nat.add_comm 1 i, Nat.succ_eq_add_one]
/-- A read of n bytes from a answers each byte as it is found (R308, R309). -/
theorem State.lsRead_spec (s : State) (a n src : Nat) (h : Memory.wf s.lstore = true) :
    s.lsReports (s.lsRead a n src).1 ∧ (s.lsRead a n src).2 = (List.range n).map fun i => lsAnswer (s.lsLook (a + i)) := by
  obtain ⟨hrep, hans⟩ := s.lsReads_spec (Memory.slice s.lstore a n) src a
  refine ⟨hrep, hans.trans ?_⟩
  rw [Memory.slice_eq _ _ _ h, List.length_map, List.length_range]
  refine List.map_congr_left fun i hi => ?_
  rw [List.mem_range] at hi
  simp [hi, State.lsLook]
theorem State.lsReads_untouched (l : List (Option Byte)) (s : State) (src a : Nat)
    (h : ∀ i o, l[i]? = some o → (s.lsSeen (a + i) o).2 = 0) : (s.lsReads src a l).1 = s := by
  induction l generalizing a with
  | nil => rfl
  | cons o r ih =>
    have h0 : (s.lsFound a src (s.lsSeen a o)).1 = s := by
      unfold State.lsFound
      rw [if_pos (by simpa using h 0 o rfl)]
    show ((s.lsFound a src (s.lsSeen a o)).1.lsReads src (a + 1) r).1 = s
    rw [h0]
    refine ih (a + 1) fun i o hi => ?_
    rw [Nat.add_assoc, Nat.add_comm 1 i]
    exact h (i + 1) o (by simpa using hi)
/-- A read of bytes that are all clean changes nothing (R308). -/
theorem State.lsRead_clean (s : State) (a n src : Nat) (hwf : Memory.wf s.lstore = true) (h : ∀ i < n, (s.lsLook (a + i)).2 = 0) :
    (s.lsRead a n src).1 = s := by
  refine State.lsReads_untouched _ _ _ _ fun i o hi => ?_
  rw [Memory.slice_eq _ _ _ hwf] at hi
  obtain ⟨hj, rfl⟩ := List.getElem?_eq_some_iff.mp hi
  simp only [List.length_map, List.length_range] at hj
  simpa [State.lsLook] using h i hj
theorem lsAnswer_getD (v : Byte × Nat) : (lsAnswer v).getD 0 = if v.2 ≤ 1 then v.1 else 0 := by
  unfold lsAnswer
  split <;> rfl
/-- A read through the aperture returns each byte, 0 for an uncorrectable one, and changes no memory (R57, R309). -/
theorem State.apertureRead_spec (s : State) (a n : Nat) (h : Memory.wf s.lstore = true) :
    s.sameMemory (s.apertureRead a n).1 ∧
    (s.apertureRead a n).2 = (List.range n).map fun i => if (s.lsLook (a + i)).2 ≤ 1 then (s.lsLook (a + i)).1 else 0 := by
  obtain ⟨hrep, hans⟩ := s.lsRead_spec a n 4 h
  refine ⟨(hrep.trans (State.reports_addSat _ pLSTORE R.LSTORE_APER_UNC _).ls).memory, ?_⟩
  show (s.lsRead a n 4).2.map (fun o => o.getD 0) = _
  rw [hans, List.map_map]
  exact List.map_congr_left fun i _ => lsAnswer_getD _

/-- Settles O16: the write by `lsWriteOpt_spec`, the read by `apertureRead_spec`. -/
theorem apertureStoresAndReads : Obligations.ApertureStoresAndReads := by
  unfold Obligations.ApertureStoresAndReads
  refine ⟨fun s a acc h => ?_, fun s a l h hl => ?_, fun s a n h hn hwf => ?_⟩
  · show Host.Outcome.next (if !s.hostServed then s else _) = _
    rw [if_pos (by simp [h])]
  · obtain ⟨hin, hout, hframe⟩ := s.lsWriteOpt_spec l a.toNat
    have hlook : ∀ k, (s.lsWriteOpt a.toNat l).lsErr.getD k 0 = s.lsErr.getD k 0 →
        Memory.get (s.lsWriteOpt a.toNat l).lstore k = Memory.get s.lstore k → (s.lsWriteOpt a.toNat l).lsLook k = s.lsLook k := by
      intro k herr hget
      have hep : (s.lsWriteOpt a.toNat l).epoch = s.epoch := (congrArg State.epoch hframe :)
      have hfr : (s.lsWriteOpt a.toNat l).fresh = s.fresh := (congrArg State.fresh hframe :)
      simp only [State.lsLook, State.lsSeen, hget, herr, hep, hfr]
    refine ⟨s.lsWriteOpt a.toNat l, ?_, fun i b hi => ?_, fun k hk => ?_, hframe⟩
    · show Host.Outcome.next (if !s.hostServed then s else s.lsWriteOpt a.toNat (l.take (lsSize - a.toNat))) = _
      rw [if_neg (by simp [h]), List.take_of_length_le (by omega)]
    · obtain ⟨hget, herr⟩ := hin i b hi
      simp [State.lsLook, State.lsSeen, hget, herr]
    · obtain ⟨hget, herr⟩ := hout k hk
      exact ⟨hget, hlook k herr hget⟩
  · obtain ⟨hmem, hdata⟩ := s.apertureRead_spec a.toNat n hwf.1
    refine ⟨{ (s.apertureRead a.toNat n).1 with rdata := (s.apertureRead a.toNat n).2 }, ?_, hmem, hdata, fun hclean => ?_⟩
    · show Host.Outcome.next (if !s.hostServed then s else _) = _
      rw [if_neg (by simp [h])]
      dsimp only
      rw [Nat.min_eq_left (by omega)]
    · have hst : (s.apertureRead a.toNat n).1 = s.addSat pLSTORE R.LSTORE_APER_UNC ((s.lsRead a.toNat n 4).2.filter (·.isNone)).length :=
        congrArg (fun t : State => t.addSat pLSTORE R.LSTORE_APER_UNC _) (s.lsRead_clean a.toNat n 4 hwf.1 hclean)
      rw [hst]
      exact ⟨State.regsBut_addSat (s.regsBut_refl _) _ (by simp), rfl⟩

/-! ### Host reads -/

/-- Filling the latches of a page's listed registers from the words w. -/
theorem State.setLatches_spec (l : List Nat) (w : Nat → Nat) (p : Nat) (t : State) :
    (∀ q ∈ l, (l.foldl (fun t o => t.setLatch p o (w o)) t).latched p q = w q) ∧
    (∀ a q, a ≠ p ∨ q ∉ l → (l.foldl (fun t o => t.setLatch p o (w o)) t).latched a q = t.latched a q) ∧
    ∃ m, l.foldl (fun t o => t.setLatch p o (w o)) t = { t with latch := m } := by
  induction l generalizing t with
  | nil => exact ⟨fun q h => absurd h (by simp), fun _ _ _ => rfl, _, rfl⟩
  | cons o r ih =>
    obtain ⟨hin, hout, m, hm⟩ := ih (t.setLatch p o (w o))
    refine ⟨fun q hq => ?_, fun a q hq => ?_, m, hm⟩
    · by_cases hr : q ∈ r
      · exact hin q hr
      · obtain rfl : q = o := by simpa [hr] using hq
        exact (hout p q (Or.inr hr)).trans (t.latched_setLatch_self p q _)
    · refine (hout a q (hq.imp id fun h => ?_)).trans (t.latched_setLatch_other _ ?_)
      · exact fun hr => h (List.mem_cons_of_mem _ hr)
      · rintro ⟨⟩
        rcases hq with h | h
        · exact h rfl
        · exact h List.mem_cons_self
/-- A read at an implemented register that latches or is alone returns its word and fills its partners' latches (R32). -/
theorem exec_latchingRead_word {s : State} {off : BitVec 27} {p o i : Nat} {b : Blk} (hs : s.hostServed = true) (ha : off.toNat % 4 = 0)
    (hplace : placeOf off.toNat = .reg p o) (hblk : blkOf p = some (b, i)) (himpl : implemented b i o = true)
    (hpartner : isPartner b o = false) :
    ∃ t, exec (.latchingRead (.bar0 off)) s = .next t ∧ t.rdata = leBytes 4 (s.regWord p o) ∧
      (∀ q ∈ partners b o, t.latched p q = s.regWord p q) ∧
      (∀ a q, a ≠ p ∨ q ∉ partners b o → t.latched a q = s.latched a q) ∧
      ({ t with rdata := s.rdata, latch := s.latch } : State) = s := by
  obtain ⟨hin, hout, m, hm⟩ := State.setLatches_spec (partners b o) (s.regWord p) p s
  refine ⟨_, exec_latchingRead_reg s hs ha hplace, ?_⟩
  rw [s.readReg_latching hblk himpl hpartner]
  refine ⟨rfl, hin, hout, ?_⟩
  dsimp only
  rw [hm]
/-- What a host read through BAR0 does where it can arrive. -/
theorem exec_latchingRead_bar0 {s : State} {off : BitVec 27} (hs : s.hostServed = true) (ha : off.toNat % 4 = 0) :
    exec (.latchingRead (.bar0 off)) s = .next { (s.bar0Read off.toNat).1 with rdata := (s.bar0Read off.toNat).2 } := by
  have hoff : off.toNat / 4 * 4 = off.toNat := by omega
  show execLatchingRead (.bar0 off) s = _
  simp [execLatchingRead, hs, hoff]
theorem placeOf_ne_reg {n : Nat} (h : ¬ n < 0x400000) (p o : Nat) : placeOf n ≠ .reg p o := by
  rw [placeOf, if_neg h]
  intro h
  split_ifs at h
theorem placeOf_eq_reg {n p o : Nat} (h : placeOf n = .reg p o) : p * 0x1000 + o = n := by
  have hn : n < 0x400000 := not_not.mp fun hn => placeOf_ne_reg hn p o h
  rw [placeOf, if_pos hn] at h
  injection h with hp ho
  omega
theorem State.readReg_nowhere {s : State} {p o : Nat} (h : blkOf p = none ∨ ∃ b i, blkOf p = some (b, i) ∧ implemented b i o = false) :
    s.readReg p o = (s.violate 1 (p * 0x1000 + o) false, 0) := by
  rcases h with hb | ⟨b, i, hb, hi⟩
  · simp only [State.readReg, hb]
  · simp only [State.readReg, hb, hi, Bool.not_false, if_true]
/-- A read where no register is reads 0, under one violation of kind 1 (R33). -/
theorem State.bar0Read_nowhere {s : State} {n : Nat} (h : placeOf n = .nowhere ∨ ∃ p o, placeOf n = .reg p o ∧
    (blkOf p = none ∨ ∃ b i, blkOf p = some (b, i) ∧ implemented b i o = false)) :
    s.bar0Read n = (s.violate 1 n false, zeros 4) := by
  have hzero : leBytes 4 0 = zeros 4 := by decide
  rcases h with h | ⟨p, o, h, hb⟩
  · simp only [State.bar0Read, h]
  · simp only [State.bar0Read, h, State.readReg_nowhere hb, placeOf_eq_reg h, hzero]
theorem exec_cfgRead (s : State) (r : CfgReg) : exec (.latchingRead (.cfg r)) s = .next (s.cfgRead r) := rfl

/-- Settles O14: by the place that the address names. -/
theorem latchingReadReturns : Obligations.LatchingReadReturns := by
  unfold Obligations.LatchingReadReturns
  refine ⟨fun s off h => ?_, fun s off hs ha => ⟨fun p o b i hp hb hi => ⟨fun hpart => ?_, fun hpart => ?_⟩, fun h => ?_,
    fun a hp hwf => ?_, fun k active w a b hp hwf hb hadr => ?_⟩, fun s r => ⟨fun hr => ?_, fun hr hn => ?_, fun hr hn => ?_⟩⟩
  case refine_1 =>
    show execLatchingRead (.bar0 off) s = _
    simp [execLatchingRead, h]
  case refine_2 => exact exec_latchingRead_word hs ha hp hb hi hpart
  case refine_3 => rw [exec_latchingRead_reg s hs ha hp, s.readReg_partner hb hi hpart]
  case refine_4 =>
    rw [exec_latchingRead_bar0 hs ha, State.bar0Read_nowhere h]
    obtain ⟨hcnt, hadr, hkind, hwr, hbar⟩ := s.violated_violate off.toNat false false (k := 1) (by decide)
    exact ⟨_, rfl, rfl, ⟨hcnt, hadr, hkind, hwr, hbar⟩, s.regsBut_violate 1 off.toNat false false,
      congrArg (fun u : State => { u with rdata := s.rdata }) (s.violate_regsOnly 1 off.toNat false false)⟩
  case refine_5 =>
    obtain ⟨hmem, hdata⟩ := s.apertureRead_spec a 4 hwf
    have hread : s.bar0Read off.toNat = s.apertureRead a 4 := by simp only [State.bar0Read, hp]
    rw [exec_latchingRead_bar0 hs ha, hread]
    exact ⟨_, rfl, hdata, hmem⟩
  case refine_6 =>
    obtain ⟨hmem, hdata⟩ := s.apertureRead_spec a 4 hwf
    have hread : s.bar0Read off.toNat = ((s.apertureRead a 4).1, leBytes 4 (leNat (s.apertureRead a 4).2 &&& tableMask k)) := by
      simp only [State.bar0Read, hp, hadr, hb]
    rw [exec_latchingRead_bar0 hs ha, hread, hdata]
    exact ⟨_, rfl, hmem, rfl⟩
  case refine_7 => rw [exec_cfgRead, State.cfgRead, if_pos hr]
  case refine_8 => rw [exec_cfgRead, State.cfgRead, if_neg (by simp [hr]), if_pos (by simp [hn]), State.emit]
  case refine_9 => rw [exec_cfgRead, State.cfgRead, if_neg (by simp [hr]), if_neg (by simp [hn])]

end Sys2Proof.Machine
end

section
/-! PROOFS. What a commit copies and when it applies (R34, R42 to R44). -/

open Sys2Proof Sys2Proof.Machine
namespace Sys2Proof.Machine

/-! ### The header's fields (R31, R33) -/

/-- The fields of a block lie beyond the header. -/
theorem blkFields_off (b : Blk) : ∀ e ∈ b.fields, 0x40 ≤ e.1.off := by
  cases b <;> decide
/-- The fields of a header register, which are the same on every page. -/
def headerFields (off : Nat) : List Fld := (hdrFields.map (·.1)).filter fun f => f.off == off
theorem fieldOn_header (b : Blk) (i : Nat) {f : Fld} (h : f.off < 0x40) : fieldOn b i f = true := by
  cases b <;> simp only [fieldOn, if_pos h]
  have : ¬ 0xA0 ≤ f.off := by omega
  simp [show f.off ≠ 0x40 by omega, show f.off ≠ 0x60 by omega, show ¬ 0x64 ≤ f.off by omega, this]
theorem fieldAs_header (b : Blk) (i : Nat) {f : Fld} (h : f.off ≠ 0x44) : fieldAs b i f = f := by
  simp [fieldAs, h]
theorem flatMap_off (l : List (Fld × Nat × Nat)) (off : Nat) :
    (l.flatMap fun e => if e.1.off = off then [e.1] else []) = (l.map (·.1)).filter fun f => f.off == off := by
  induction l with
  | nil => rfl
  | cons e r ih =>
    rw [List.flatMap_cons, ih]
    by_cases h : e.1.off = off <;> simp [h]
theorem fieldsAt_lt (b : Blk) (i : Nat) {off : Nat} (h : off < 0x40) : fieldsAt b i off = headerFields off := by
  have hblk : (b.fields.flatMap fun e => if e.1.off = off then [e.1]
      else if e.1.off < off ∧ e.2.2 ≠ 0 ∧ (off - e.1.off) % e.2.2 = 0 ∧ (off - e.1.off) / e.2.2 < e.2.1 then
        [e.1.nth e.2.2 ((off - e.1.off) / e.2.2)] else []) = [] := by
    rw [List.flatMap_eq_nil_iff]
    intro e he
    have := blkFields_off b e he
    rw [if_neg (by omega), if_neg (by omega)]
  have hhdr : (hdrFields.flatMap fun e => if e.1.off = off then [e.1]
      else if e.1.off < off ∧ e.2.2 ≠ 0 ∧ (off - e.1.off) % e.2.2 = 0 ∧ (off - e.1.off) / e.2.2 < e.2.1 then
        [e.1.nth e.2.2 ((off - e.1.off) / e.2.2)] else []) = headerFields off := by
    have hstep : ∀ e ∈ hdrFields, e.2.2 = 0 := by decide
    rw [headerFields, ← flatMap_off]
    exact List.flatMap_congr fun e he => by simp [hstep e he]
  unfold fieldsAt
  rw [List.flatMap_append, hblk, hhdr, List.append_nil]
  have hoff : ∀ f ∈ headerFields off, f.off = off := fun f hf => by simpa using (List.mem_filter.1 hf).2
  rw [List.filter_eq_self.2 fun f hf => fieldOn_header b i (by rw [hoff f hf]; exact h)]
  exact (List.map_congr_left fun f hf => fieldAs_header b i (by rw [hoff f hf]; omega)).trans (List.map_id _)
theorem headerFields_shadow : headerFields 0x2C = [R.PG_SHADOW_GEN, R.PG_SHADOW_IMMEDIATE, R.PG_SHADOW_COMMIT] := by decide
theorem State.owners_off (s : State) : ∀ o ∈ s.owners, 0x40 ≤ o.en.off := by
  simp only [State.owners, List.mem_append, List.mem_map, List.mem_flatMap, List.mem_cons, List.not_mem_nil, or_false]
  rintro o ((((((⟨k, -, rfl⟩ | ⟨k, -, rfl⟩) | rfl) | ⟨k, -, rfl⟩) | ⟨k, -, rfl | rfl⟩) | ⟨k, -, rfl | rfl | rfl | rfl⟩) |
    rfl | rfl | rfl | rfl)
  all_goals simp [Fld.nth, R.PINMUX_FN_EN, R.TIME_CMP_CTRL_SW_EN, R.BREATH_CFG_CMP_EN, R.FEED_BIND_EN, R.ENC_BIND_OUT_EN,
    R.ENC_BIND_IN_EN, R.CAM_FTRIG_TRIG_EN, R.CAM_FTRIG_CMP_EN, R.CAM_LTRIG, R.CAM_BIND_EN, R.CHANT_CFG_CMP_EN, R.CHANT_BIND_EN,
    R.CAL_BIND_OUT_EN, R.CAL_BIND_IN_EN]
  all_goals omega
/-- A header register owns nothing (R51). -/
theorem State.settleClaims_header (s : State) (p : Nat) {off : Nat} (h : off < 0x40) : s.settleClaims p off = s := by
  unfold State.settleClaims
  rw [List.filter_eq_nil_iff.2, List.foldl_nil]
  intro o ho
  have := s.owners_off o ho
  simp only [Bool.and_eq_true, beq_iff_eq, not_and]
  omega

/-! ### Copies of a page's fields -/

/-- A copy into one page leaves every other page (R42). -/
theorem RegMap.find_copyPage_ne (src dst : RegMap) (p p' : Nat) (q : Nat → Bool) {a : Nat} (j : Nat) (h : a ≠ p') :
    RegMap.find (RegMap.copyPage src dst p p' q) (a, j) = RegMap.find dst (a, j) := by
  have hdst : RegMap.find (dst.filter fun e => !(e.1.1 == p' && q e.1.2)) (a, j) = RegMap.find dst (a, j) :=
    RegMap.find_filter _ _ _ fun v => by simp [h]
  unfold RegMap.copyPage
  rw [← hdst]
  induction src.filter fun e => e.1.1 == p && q e.1.2 with
  | nil => rfl
  | cons e r ih =>
    have hne : (a, j) ≠ (p', e.1.2) := fun e => h (congrArg Prod.fst e)
    rw [List.foldr_cons, RegMap.find_ins_other _ _ hne, RegMap.find_del_other _ hne, ih]
/-- The applied copy after HEADC's fields have applied for the bars of l (R34). -/
theorem State.applyEach_spec (l : List Nat) (p : Nat) (s : State) :
    ∃ ap, s.each l (fun t k => t.applyFields p (0x400 + k) true true) = { s with appl := ap } ∧
      ∀ k, ∀ j ∈ (blkAt p).rwsIds true true, RegMap.find ap (0x400 + k, j) =
        if k ∈ l then s.pendv.find (p, j) else s.appl.find (0x400 + k, j) := by
  induction l generalizing s with
  | nil => exact ⟨s.appl, rfl, fun k j _ => by simp⟩
  | cons o r ih =>
    obtain ⟨ap, he, hf⟩ := ih (s.applyFields p (0x400 + o) true true)
    refine ⟨ap, he, fun k j hj => (hf k j hj).trans ?_⟩
    by_cases hr : k ∈ r
    · rw [if_pos hr, if_pos (List.mem_cons_of_mem _ hr)]
      rfl
    · rw [if_neg hr]
      by_cases hk : k = o
      · subst hk
        rw [if_pos List.mem_cons_self]
        exact RegMap.find_copyPage _ _ _ _ _ _ (by simpa using hj)
      · rw [if_neg (by simp [hk, hr])]
        exact RegMap.find_copyPage_ne _ _ _ _ _ _ (by omega)

/-! ### A mask of bars -/

/-- The mask of the numbers below n that f takes. -/
theorem maskFold_spec (f : Nat → Bool) (n : Nat) :
    (List.range n).foldl (fun m b => if f b then m + 2 ^ b else m) 0 < 2 ^ n ∧
    ∀ k, ((List.range n).foldl (fun m b => if f b then m + 2 ^ b else m) 0).testBit k = (decide (k < n) && f k) := by
  induction n with
  | zero => exact ⟨by simp, fun k => by simp⟩
  | succ n ih =>
    obtain ⟨hlt, hbit⟩ := ih
    rw [List.range_succ, List.foldl_append, List.foldl_cons, List.foldl_nil]
    generalize (List.range n).foldl (fun m b => if f b then m + 2 ^ b else m) 0 = m at hlt hbit
    cases hf : f n with
    | false =>
      simp only [Bool.false_eq_true, if_false]
      refine ⟨by omega, fun k => ?_⟩
      rw [hbit k]
      by_cases hk : k = n
      · simp [hk, hf]
      · simp [show k < n + 1 ↔ k < n by omega]
    | true =>
      simp only [if_true]
      refine ⟨by omega, fun k => ?_⟩
      rcases Nat.lt_trichotomy k n with hk | rfl | hk
      · rw [Nat.add_comm, Nat.testBit_two_pow_add_gt hk, hbit k]
        simp [hk, Nat.lt_succ_of_lt hk]
      · rw [Nat.add_comm, Nat.testBit_two_pow_add_eq, hbit k]
        simp [hf]
      · rw [Nat.testBit_lt_two_pow (Nat.lt_of_lt_of_le (show m + 2 ^ n < 2 ^ (n + 1) by omega) (Nat.pow_le_pow_right (by decide) hk))]
        simp [show ¬ k < n + 1 by omega]
theorem State.bit_runningBars (s : State) {k : Nat} (h : k < 8) : bit s.runningBars k = s.lineRuns k := by
  refine ((maskFold_spec s.lineRuns 8).2 k).trans ?_
  simp [h]
theorem State.runningBars_eq_zero (s : State) : s.runningBars = 0 ↔ ∀ k < 8, s.lineRuns k = false := by
  refine ⟨fun h k hk => ?_, fun h => Nat.eq_of_testBit_eq fun k => ?_⟩
  · rw [← s.bit_runningBars hk, h]
    exact Nat.zero_testBit k
  · refine ((maskFold_spec s.lineRuns 8).2 k).trans ?_
    by_cases hk : k < 8 <;> simp [hk, h]

/-! ### Pages that run -/

/-- A field write that touches neither EN, FENCED nor SHUT leaves what runs. -/
theorem State.working_set (s : State) (p : Nat) {f : Fld} (v : Nat)
    (h : f.id ≠ R.PG_CTRL_EN.id ∧ f.id ≠ R.PG_FENCE_FENCED.id ∧ f.id ≠ R.THERM_STAT_SHUT.id) : (s.set p f v).working = s.working := by
  obtain ⟨hen, hfen, hshut⟩ := h
  funext q
  simp only [State.working, State.enabled, State.fenced, State.resetting, State.held, State.shut, State.flag,
    State.get_set_ne s v (Or.inr hen.symm), State.get_set_ne s v (Or.inr hfen.symm), State.get_set_ne s v (Or.inr hshut.symm),
    State.set_heldReset, State.set_srsts]
theorem State.lineRuns_congr {s t : State} (h : t.working = s.working) : t.lineRuns = s.lineRuns := by
  funext b
  rw [State.lineRuns, h, State.lineRuns]
theorem State.runningBars_congr {s t : State} (h : t.working = s.working) : t.runningBars = s.runningBars := by
  rw [State.runningBars, State.runningBars, State.lineRuns_congr h]

/-! ### A commit -/

/-- The state with the fields of PG_SHADOW stored, the pending copies taken, and PEND_GEN and PENDING set: a commit before it applies. -/
def State.committed (s : State) (p : Nat) (ids : List Nat) (gen imm : Nat) : State :=
  let s := (s.set p R.PG_SHADOW_GEN gen).set p R.PG_SHADOW_IMMEDIATE imm
  let s := { s with pendv := RegMap.copyPage s.regs s.pendv p p fun j => ids.contains j }
  (s.set p R.PG_GEN_PEND_GEN gen).set p R.PG_GEN_PENDING 1
/-- A header field has no wrong state (R49). -/
theorem State.wrongState_header (s : State) (b : Blk) {f : Fld} (h : f.off < 0x40) : s.wrongState b f = false := by
  have hne : ∀ g : Fld, 0x40 ≤ g.off → (f == g) = false := fun g hg => by
    rw [beq_eq_false_iff_ne]
    rintro rfl
    omega
  have hnth : ∀ (g : Fld) (d k : Nat), 0x40 ≤ g.off → 0x40 ≤ (g.nth d k).off := fun g d k hg => Nat.le_add_right_of_le hg
  cases b <;> try rfl
  case dmac =>
    simp only [State.wrongState]
    rw [List.any_eq_false]
    intro k _
    rw [hne _ (hnth _ _ _ (by decide)), hne _ (hnth _ _ _ (by decide)), hne _ (hnth _ _ _ (by decide))]
    simp
  case dramc =>
    simp only [State.wrongState]
    rw [hne _ (by decide), Bool.false_and]
  case chant =>
    have hmap : R.CHANT_BMAP_V0.off = 0x80 := rfl
    have hlo : R.CHANT_CBASE_LO.off = 0xA0 := rfl
    have hhi : R.CHANT_CBASE_HI.off = 0xA4 := rfl
    simp only [State.wrongState, State.wrongState.chantStatic, hmap, hlo, hhi]
    simp [show ¬ 0x80 ≤ f.off by omega, show f.off ≠ 0xA0 by omega, show f.off ≠ 0xA4 by omega]
theorem State.storeReg_shadow (s : State) {p i : Nat} {b : Blk} (v : Nat) (h : blkOf p = some (b, i)) :
    s.storeReg p 0x2C v = (s.set p R.PG_SHADOW_GEN (field v 8 8)).set p R.PG_SHADOW_IMMEDIATE (field v 1 1) := by
  have hstore : ∀ t : State, ∀ f ∈ headerFields 0x2C, t.storeField p b v f =
      match f.acc with | .wo => t | _ => t.set p f (field v f.lo f.w) := by
    intro t f hf
    have hoff : f.off < 0x40 := by
      have : f.off = 0x2C := by simpa using (List.mem_filter.1 hf).2
      omega
    rw [State.storeField, t.wrongState_header b hoff]
    rw [headerFields_shadow] at hf
    simp only [List.mem_cons, List.not_mem_nil, or_false] at hf
    rcases hf with rfl | rfl | rfl <;> rfl
  simp only [State.storeReg, h, fieldsAt_lt b i (show 0x2C < 0x40 by decide)]
  rw [State.settleClaims_header _ _ (by decide)]
  rw [headerFields_shadow] at hstore ⊢
  simp only [List.foldl_cons, List.foldl_nil]
  rw [hstore _ _ (by simp), hstore _ _ (by simp), hstore _ _ (by simp)]
  rfl

theorem State.accepts_unblocked {s : State} {p off v : Nat} (h : s.accepts p off v) (ho : off ≠ 4) : s.blockedPage p = false := by
  obtain ⟨b, i, hb, -⟩ := State.accepts_implemented h
  obtain ⟨-, hk⟩ := h
  by_contra hblocked
  rw [Bool.not_eq_false] at hblocked
  simp only [State.writeKind, hb, hblocked, State.isRelease, show (off == 4) = false by simp [ho]] at hk
  revert hk
  split_ifs <;> simp_all
theorem State.fenced_of_unblocked {s : State} {p : Nat} (h : s.blockedPage p = false) : s.fenced p = false := by
  simp only [State.blockedPage, Bool.or_eq_false_iff] at h
  exact h.1.1
/-- Whether a commit applies at the write (R43). -/
def State.commitsNow (s : State) (p : Nat) (b : Blk) (i : Nat) (imm : Bool) : Bool :=
  (b.rwsIds true true).isEmpty || !s.enabled p || !waitsCommit b i || (imm && !lineCommit b i)
/-- The word that PG_SHADOW takes. -/
def shadowWord (gen : Byte) (imm : Bool) : Nat := 256 * gen.toNat + 2 * b2n imm + 1
theorem shadowWord_fields (gen : Byte) (imm : Bool) : field (shadowWord gen imm) 8 8 = gen.toNat ∧
    field (shadowWord gen imm) 1 1 = b2n imm ∧ bit (shadowWord gen imm) 0 = true ∧ bit (shadowWord gen imm) 1 = imm := by
  have hlt := gen.isLt
  have hb : b2n imm ≤ 1 := by cases imm <;> decide
  unfold field bit shadowWord
  refine ⟨by omega, by omega, ?_, ?_⟩
  · rw [Nat.testBit_zero]
    simp only [decide_eq_true_eq]
    omega
  · rw [Nat.testBit_succ, Nat.testBit_zero]
    cases imm <;> simp [b2n] <;> omega
theorem State.enabled_set (s : State) (p : Nat) {f : Fld} (v : Nat) (h : f.id ≠ R.PG_CTRL_EN.id) :
    (s.set p f v).enabled = s.enabled := by
  funext q
  simp only [State.enabled, State.flag, State.get_set_ne s v (Or.inr h.symm)]
theorem State.fenced_set (s : State) (p : Nat) {f : Fld} (v : Nat) (h : f.id ≠ R.PG_FENCE_FENCED.id) :
    (s.set p f v).fenced = s.fenced := by
  funext q
  simp only [State.fenced, State.flag, State.get_set_ne s v (Or.inr h.symm)]
section
variable (s : State) (p : Nat) (ids : List Nat) (gen imm : Nat)
theorem State.committed_enabled : (s.committed p ids gen imm).enabled = s.enabled := by
  unfold State.committed
  rw [State.enabled_set _ _ _ (by decide), State.enabled_set _ _ _ (by decide)]
  exact (State.enabled_set _ _ _ (by decide)).trans (State.enabled_set _ _ _ (by decide))
theorem State.committed_fenced : (s.committed p ids gen imm).fenced = s.fenced := by
  unfold State.committed
  rw [State.fenced_set _ _ _ (by decide), State.fenced_set _ _ _ (by decide)]
  exact (State.fenced_set _ _ _ (by decide)).trans (State.fenced_set _ _ _ (by decide))
theorem State.committed_working : (s.committed p ids gen imm).working = s.working := by
  unfold State.committed
  rw [State.working_set _ _ _ (by decide), State.working_set _ _ _ (by decide)]
  exact (State.working_set _ _ _ (by decide)).trans (State.working_set _ _ _ (by decide))
theorem State.get_committed {f : Fld} (h : f.id ≠ R.PG_SHADOW_GEN.id ∧ f.id ≠ R.PG_SHADOW_IMMEDIATE.id ∧ f.id ≠ R.PG_GEN_PEND_GEN.id ∧
    f.id ≠ R.PG_GEN_PENDING.id) : (s.committed p ids gen imm).get p f = s.get p f := by
  obtain ⟨hgen, himm, hpg, hpend⟩ := h
  unfold State.committed
  rw [State.get_set_field _ _ _ hpend, State.get_set_field _ _ _ hpg]
  exact (State.get_set_field _ _ _ himm).trans (State.get_set_field _ _ _ hgen)
theorem State.committed_gen (h : gen < 256) : (s.committed p ids gen imm).get p R.PG_GEN_PEND_GEN = gen ∧
    (s.committed p ids gen imm).get p R.PG_SHADOW_GEN = gen ∧ (s.committed p ids gen imm).get p R.PG_GEN_PENDING = 1 := by
  unfold State.committed
  refine ⟨?_, ?_, State.get_set_self _ _ _ _⟩
  · rw [State.get_set_field _ _ _ (by decide), State.get_set_self]
    exact Nat.mod_eq_of_lt h
  · rw [State.get_set_field _ _ _ (by decide), State.get_set_field _ _ _ (by decide)]
    refine (State.get_set_field _ _ _ (by decide)).trans ((State.get_set_self _ _ _ _).trans ?_)
    exact Nat.mod_eq_of_lt h
theorem State.committed_pendv (hids : ∀ j ∈ ids, 0x40 * 32 ≤ j) {j : Nat} (h : j ∈ ids) :
    (s.committed p ids gen imm).pendv.find (p, j) = s.regs.find (p, j) := by
  have hj := hids j h
  have hne : ∀ f : Fld, f.id < 0x40 * 32 → (p, j) ≠ (p, f.id) := fun f hf e => by
    have := congrArg Prod.snd e
    dsimp only at this
    omega
  refine (RegMap.find_copyPage _ _ p p _ j (by simpa using h)).trans ?_
  refine (RegMap.find_put_other _ _ _ (hne _ (by decide))).trans ?_
  exact RegMap.find_put_other _ _ _ (hne _ (by decide))
theorem State.regsBut_committed : s.regsBut (s.committed p ids gen imm) [(p, R.PG_SHADOW_GEN), (p, R.PG_SHADOW_IMMEDIATE),
    (p, R.PG_GEN_PEND_GEN), (p, R.PG_GEN_APPL_GEN), (p, R.PG_GEN_PENDING), (p, R.PG_IRQ_RAW)] := by
  have hstored := State.regsBut_set (State.regsBut_set (s.regsBut_refl [(p, R.PG_SHADOW_GEN), (p, R.PG_SHADOW_IMMEDIATE),
    (p, R.PG_GEN_PEND_GEN), (p, R.PG_GEN_APPL_GEN), (p, R.PG_GEN_PENDING), (p, R.PG_IRQ_RAW)]) (p := p) (f := R.PG_SHADOW_GEN) gen
    (by simp)) (p := p) (f := R.PG_SHADOW_IMMEDIATE) imm (by simp)
  unfold State.committed
  refine State.regsBut_set (State.regsBut_set ?_ _ (by simp)) _ (by simp)
  exact hstored
theorem State.committed_frame : ∃ r pv, s.committed p ids gen imm = { s with regs := r, pendv := pv } := by
  simp only [State.committed, State.set]
  exact ⟨_, _, rfl⟩
end
theorem rwsIds_off (b : Blk) : ∀ j ∈ b.rwsIds true true, 0x40 * 32 ≤ j := by
  intro j hj
  simp only [Blk.rwsIds, List.mem_flatMap, List.mem_map, List.mem_filter] at hj
  obtain ⟨e, ⟨he, -⟩, k, -, rfl⟩ := hj
  have := blkFields_off b e he
  simp only [Fld.id, Fld.nth]
  omega
/-- What a set that has applied in full shows (R43). -/
theorem State.genDone_spec (s : State) (p : Nat) {gen : Nat} (hf : s.fenced p = false) (hg : s.get p R.PG_GEN_PEND_GEN = gen) (hlt : gen < 256) :
    (s.genDone p).get p R.PG_GEN_APPL_GEN = gen ∧ (s.genDone p).get p R.PG_GEN_PENDING = 0 ∧
    bit ((s.genDone p).get p R.PG_IRQ_RAW) 2 = true ∧ (s.genDone p).commits.has p = false := by
  have hfree : ({ s with commits := s.commits.del p } : State).fenced p = false := hf
  unfold State.genDone
  refine ⟨?_, ?_, State.bit_cause _ (by decide) (State.frozen_of_unfenced ?_), ?_⟩
  · rw [State.get_cause_field _ _ _ (by decide), State.get_set_field _ _ _ (by decide), State.get_set_self, hg]
    exact Nat.mod_eq_of_lt hlt
  · rw [State.get_cause_field _ _ _ (by decide), State.get_set_self]
    rfl
  · rw [State.fenced_set _ _ _ (by decide), State.fenced_set _ _ _ (by decide)]
    exact hf
  · rw [State.sameBlocks_frame (State.sameBlocks_cause _ _ _) State.commits fun _ _ _ _ => rfl]
    exact NMap.has_del_self _ _
theorem State.genDone_kept (s : State) (p : Nat) {f : Fld} (h : f.id ≠ R.PG_GEN_APPL_GEN.id ∧ f.id ≠ R.PG_GEN_PENDING.id ∧
    f.id ≠ R.PG_IRQ_RAW.id) : (s.genDone p).get p f = s.get p f := by
  obtain ⟨happl, hpend, hirq⟩ := h
  unfold State.genDone
  rw [State.get_cause_field _ _ _ hirq, State.get_set_field _ _ _ hpend, State.get_set_field _ _ _ happl]
  rfl
theorem State.genDone_frame (s : State) (p : Nat) : ∃ r w, s.genDone p =
    { s with regs := r, commits := s.commits.del p, host := { s.host with waiting := w } } := by
  obtain ⟨r, w, h⟩ := (((({ s with commits := s.commits.del p } : State).reports_set p R.PG_GEN_APPL_GEN
    (s.get p R.PG_GEN_PEND_GEN)).trans (State.reports_set _ p R.PG_GEN_PENDING 0)).trans (State.reports_cause _ p 2))
  exact ⟨r, w, h⟩
theorem State.regsBut_genDone {s t : State} {p : Nat} {l : List (Nat × Fld)} (h : s.regsBut t l)
    (hl : [(p, R.PG_GEN_APPL_GEN), (p, R.PG_GEN_PENDING), (p, R.PG_IRQ_RAW)] ⊆ l) : s.regsBut (t.genDone p) l := by
  have hm : ∀ f ∈ [R.PG_GEN_APPL_GEN, R.PG_GEN_PENDING, R.PG_IRQ_RAW], (p, f) ∈ l := fun f hf => hl (by simpa using hf)
  have hdel : s.regsBut { t with commits := t.commits.del p } l := h
  exact State.regsBut_cause (State.regsBut_set (State.regsBut_set hdel _ (hm _ (by simp))) _ (hm _ (by simp))) _ (hm _ (by simp))

section
variable {s : State} {p i : Nat} {b : Blk} {gen : Byte} {imm : Bool} (hb : blkOf p = some (b, i)) (hf : s.fenced p = false)
include hb hf
/-- What COMMIT does with the set that it has taken (R43). -/
theorem shadowAct_commit : shadowAct p (shadowWord gen imm) s =
    (let t := s.committed p (b.rwsIds true true) gen.toNat (b2n imm)
     let now := s.commitsNow p b i imm
     if b = .headc then
       let m := if now then 0 else t.runningBars
       let u := t.each ((List.range 8).filter fun k => !bit m k) fun t k => t.applyFields p (0x400 + k) true true
       if m = 0 then u.genDone p else { u with commits := u.commits.put p { bars := m, at_ := u.tick } }
     else if now then (t.applyFields p p true true).genDone p
     else
       let profs := b.rwsIds false true
       let waits := profs.any fun j => t.pendv.find (p, j) != t.appl.find (p, j)
       { t with commits := t.commits.put p { plain := true, prof := !profs.isEmpty, hold := waits, at_ := t.tick } }) := by
  obtain ⟨hgen, himm, hcommit, hbit⟩ := shadowWord_fields gen imm
  have hnow : s.commitsNow p b i imm = ((b.rwsIds true true).isEmpty ||
      !(s.committed p (b.rwsIds true true) gen.toNat (b2n imm)).enabled p || !waitsCommit b i || (imm && !lineCommit b i)) := by
    rw [State.committed_enabled, State.commitsNow]
  have hfree : ((s.set p R.PG_SHADOW_GEN gen.toNat).set p R.PG_SHADOW_IMMEDIATE (b2n imm)).fenced p = false := by
    rw [State.fenced_set _ _ _ (by decide), State.fenced_set _ _ _ (by decide)]
    exact hf
  unfold shadowAct
  rw [State.storeReg_shadow s _ hb, hgen, himm, hbit]
  dsimp only
  rw [if_pos hcommit, State.commit, if_neg (by simp [hfree]), hb, hnow]
  rfl
theorem shadowAct_now (hne : b ≠ .headc) (hnow : s.commitsNow p b i imm = true) : shadowAct p (shadowWord gen imm) s =
    ((s.committed p (b.rwsIds true true) gen.toNat (b2n imm)).applyFields p p true true).genDone p := by
  rw [shadowAct_commit hb hf]
  dsimp only
  rw [if_neg hne, if_pos hnow]
theorem shadowAct_waits (hne : b ≠ .headc) (hnow : s.commitsNow p b i imm = false) : ∃ c, shadowAct p (shadowWord gen imm) s =
    { s.committed p (b.rwsIds true true) gen.toNat (b2n imm) with
      commits := (s.committed p (b.rwsIds true true) gen.toNat (b2n imm)).commits.put p c } := by
  rw [shadowAct_commit hb hf]
  dsimp only
  rw [if_neg hne, if_neg (by simp [hnow])]
  exact ⟨_, rfl⟩
/-- On HEADC the set applies for the bars out of m and waits while one is in it (R34). -/
theorem shadowAct_headc (he : b = .headc) : ∃ m ap, m = (if s.commitsNow p b i imm then 0 else s.runningBars) ∧
    (∀ k, ∀ j ∈ b.rwsIds true true, RegMap.find ap (0x400 + k, j) =
      if k < 8 ∧ bit m k = false then (s.committed p (b.rwsIds true true) gen.toNat (b2n imm)).pendv.find (p, j)
      else s.appl.find (0x400 + k, j)) ∧
    (m = 0 → shadowAct p (shadowWord gen imm) s =
      ({ s.committed p (b.rwsIds true true) gen.toNat (b2n imm) with appl := ap } : State).genDone p) ∧
    (m ≠ 0 → ∃ c, shadowAct p (shadowWord gen imm) s =
      { s.committed p (b.rwsIds true true) gen.toNat (b2n imm) with
        appl := ap, commits := (s.committed p (b.rwsIds true true) gen.toNat (b2n imm)).commits.put p c }) := by
  have hact := shadowAct_commit (gen := gen) (imm := imm) hb hf
  dsimp only at hact
  rw [if_pos he, State.runningBars_congr (State.committed_working s p _ _ _)] at hact
  generalize (if s.commitsNow p b i imm = true then 0 else s.runningBars) = m at hact
  obtain ⟨ap, heq, happl⟩ := State.applyEach_spec ((List.range 8).filter fun k => !bit m k) p
    (s.committed p (b.rwsIds true true) gen.toNat (b2n imm))
  have hblk : blkAt p = b := by rw [blkAt, hb]; rfl
  rw [hblk] at happl
  rw [heq] at hact
  refine ⟨m, ap, rfl, fun k j hj => (happl k j hj).trans ?_, fun hm => ?_, fun hm => ?_⟩
  · obtain ⟨r, pv, hframe⟩ := State.committed_frame s p (b.rwsIds true true) gen.toNat (b2n imm)
    have happl' : (s.committed p (b.rwsIds true true) gen.toNat (b2n imm)).appl = s.appl := by rw [hframe]
    simp only [List.mem_filter, List.mem_range, Bool.not_eq_true', happl']
  · rw [hact, if_pos hm]
  · exact ⟨_, hact.trans (if_neg hm)⟩
end
/-- The registers that a commit may change. -/
def commitFields (p : Nat) : List (Nat × Fld) := [(p, R.PG_SHADOW_GEN), (p, R.PG_SHADOW_IMMEDIATE), (p, R.PG_GEN_PEND_GEN),
  (p, R.PG_GEN_APPL_GEN), (p, R.PG_GEN_PENDING), (p, R.PG_IRQ_RAW)]
/-- What a commit that has applied in full shows, its applied copies being ap (R43). -/
theorem committed_done {s : State} {p : Nat} (ids : List Nat) {gen : Nat} (imm : Nat) (ap : RegMap) (hf : s.fenced p = false)
    (hgen : gen < 256) (hids : ∀ j ∈ ids, 0x40 * 32 ≤ j) :
    let t := ({ s.committed p ids gen imm with appl := ap } : State).genDone p
    t.get p R.PG_GEN_PEND_GEN = gen ∧ t.get p R.PG_SHADOW_GEN = gen ∧ (∀ j ∈ ids, t.pendv.find (p, j) = s.regs.find (p, j)) ∧
      t.appl = ap ∧ t.get p R.PG_GEN_APPL_GEN = gen ∧ t.get p R.PG_GEN_PENDING = 0 ∧ bit (t.get p R.PG_IRQ_RAW) 2 = true ∧
      t.commits.has p = false ∧ s.regsBut t (commitFields p) ∧
      ({ t with regs := s.regs, pendv := s.pendv, appl := s.appl, commits := s.commits, host := s.host } : State) = s := by
  intro t
  obtain ⟨hpg, hsg, -⟩ := State.committed_gen s p ids gen imm hgen
  have hfree : ({ s.committed p ids gen imm with appl := ap } : State).fenced p = false := by
    rw [← hf, ← State.committed_fenced s p ids gen imm]
    rfl
  obtain ⟨hag, hpend, hirq, hcom⟩ := State.genDone_spec ({ s.committed p ids gen imm with appl := ap } : State) p hfree hpg hgen
  obtain ⟨r, w, hdone⟩ := State.genDone_frame ({ s.committed p ids gen imm with appl := ap } : State) p
  obtain ⟨r', pv, hframe⟩ := State.committed_frame s p ids gen imm
  refine ⟨(State.genDone_kept _ _ (by decide)).trans hpg, (State.genDone_kept _ _ (by decide)).trans hsg, fun j hj => ?_, ?_, hag,
    hpend, hirq, hcom, State.regsBut_genDone (s.regsBut_committed p ids gen imm) (by simp [commitFields]), ?_⟩
  · exact (congrArg (fun u : State => u.pendv.find (p, j)) hdone).trans (State.committed_pendv s p ids gen imm hids hj)
  · exact congrArg State.appl hdone
  · show ({ t with regs := s.regs, pendv := s.pendv, appl := s.appl, commits := s.commits, host := s.host } : State) = s
    rw [show t = _ from hdone, hframe]
/-- What a commit that waits shows, its applied copies being ap (R43). -/
theorem committed_waits {s : State} {p : Nat} (ids : List Nat) {gen : Nat} (imm : Nat) (ap : RegMap) (c : CommitSt)
    (hgen : gen < 256) (hids : ∀ j ∈ ids, 0x40 * 32 ≤ j) :
    let t := ({ s.committed p ids gen imm with appl := ap, commits := (s.committed p ids gen imm).commits.put p c } : State)
    t.get p R.PG_GEN_PEND_GEN = gen ∧ t.get p R.PG_SHADOW_GEN = gen ∧ (∀ j ∈ ids, t.pendv.find (p, j) = s.regs.find (p, j)) ∧
      t.appl = ap ∧ t.get p R.PG_GEN_APPL_GEN = s.get p R.PG_GEN_APPL_GEN ∧ t.get p R.PG_GEN_PENDING = 1 ∧
      t.commits.has p = true ∧ s.regsBut t (commitFields p) ∧
      ({ t with regs := s.regs, pendv := s.pendv, appl := s.appl, commits := s.commits, host := s.host } : State) = s := by
  intro t
  obtain ⟨hpg, hsg, hpend⟩ := State.committed_gen s p ids gen imm hgen
  obtain ⟨r', pv, hframe⟩ := State.committed_frame s p ids gen imm
  refine ⟨hpg, hsg, fun j hj => State.committed_pendv s p ids gen imm hids hj, rfl,
    State.get_committed s p ids gen imm (by decide), hpend, NMap.has_put_self _ _ _, s.regsBut_committed p ids gen imm, ?_⟩
  show ({ t with regs := s.regs, pendv := s.pendv, appl := s.appl, commits := s.commits, host := s.host } : State) = s
  simp only [t, hframe]
/-- Settles O12: the set is taken by `committed`; off HEADC it applies at once or waits, on HEADC bar by bar. -/
theorem commitTakesEffect : Obligations.CommitTakesEffect := by
  unfold Obligations.CommitTakesEffect
  refine ⟨fun s p gen imm b i hb hne hacc => ?_, fun s p gen imm hp hacc => ?_⟩
  · have hf := State.fenced_of_unblocked (State.accepts_unblocked hacc (by decide))
    have hexec : exec (.commit p gen imm) s = .next (shadowAct p (shadowWord gen imm) s) := exec_accepts rfl hacc (Or.inr (by simp))
    have hnow : s.commitsNow p b i imm = true ↔
        (b.rwsIds true true = [] ∨ s.enabled p = false ∨ waitsCommit b i = false ∨ (imm = true ∧ lineCommit b i = false)) := by
      simp [State.commitsNow, or_assoc]
    cases hc : s.commitsNow p b i imm with
    | true =>
      rw [hexec, shadowAct_now hb hf hne hc]
      obtain ⟨hpg, hsg, hpv, happl, hag, hpend, hirq, hcom, hregs, hframe⟩ := committed_done (b.rwsIds true true) (b2n imm)
        (RegMap.copyPage (s.committed p (b.rwsIds true true) gen.toNat (b2n imm)).pendv
          (s.committed p (b.rwsIds true true) gen.toNat (b2n imm)).appl p p fun i => ((blkAt p).rwsIds true true).contains i)
        hf gen.isLt (rwsIds_off b)
      refine ⟨_, rfl, hpg, hsg, hpv, fun _ => ⟨hag, hpend, hirq, hcom, fun j hj => ?_⟩, fun h1 h2 h3 h4 => ?_, hregs, hframe⟩
      · have hblk : blkAt p = b := by rw [blkAt, hb]; rfl
        refine (congrArg (fun m : RegMap => m.find (p.val, j)) happl).trans ?_
        exact (RegMap.find_copyPage _ _ _ _ _ _ (by simpa [hblk] using hj)).trans
          (State.committed_pendv s p _ _ _ (rwsIds_off b) hj)
      · rcases hnow.1 hc with h | h | h | ⟨h, h'⟩ <;> simp_all
    | false =>
      obtain ⟨c, hact⟩ := shadowAct_waits (gen := gen) hb hf hne hc
      rw [hexec, hact]
      obtain ⟨hpg, hsg, hpv, happl, hag, hpend, hcom, hregs, hframe⟩ := committed_waits (b.rwsIds true true) (b2n imm)
        (s.committed p (b.rwsIds true true) gen.toNat (b2n imm)).appl c gen.isLt (rwsIds_off b)
      refine ⟨_, rfl, hpg, hsg, hpv, fun h => absurd (hnow.2 h) (by simp [hc]), fun _ _ _ _ => ⟨hag, hpend, hcom, ?_⟩, hregs, hframe⟩
      obtain ⟨r, pv, hfr⟩ := State.committed_frame s p (b.rwsIds true true) gen.toNat (b2n imm)
      rw [hfr]
  · have hf := State.fenced_of_unblocked (State.accepts_unblocked hacc (by decide))
    have hexec : exec (.commit p gen imm) s = .next (shadowAct p (shadowWord gen imm) s) := exec_accepts rfl hacc (Or.inr (by simp))
    have hb : blkOf p = some (.headc, 0) := by rw [hp]; decide
    obtain ⟨m, ap, hm, hap, hdone, hwait⟩ := shadowAct_headc (gen := gen) (imm := imm) hb hf rfl
    have hnow : s.commitsNow p .headc 0 imm = !s.enabled p := by
      have hids : Blk.headc.rwsIds true true ≠ [] := by decide
      simp [State.commitsNow, hids, waitsCommit, lineCommit]
    rw [hnow] at hm
    have hmask : ∀ k < 8, s.enabled p = false ∨ s.lineRuns k = false → bit m k = false := by
      intro k hk h
      rw [hm]
      rcases h with h | h
      · simp [h, bit]
      · split
        · simp [bit]
        · rw [s.bit_runningBars hk, h]
    have hrun : ∀ k < 8, s.enabled p = true → s.lineRuns k = true → bit m k = true := by
      intro k hk h1 h2
      rw [hm, if_neg (by simp [h1]), s.bit_runningBars hk, h2]
    have happl : ∀ k < 8, (s.enabled p = false ∨ s.lineRuns k = false) → ∀ j ∈ Blk.headc.rwsIds true true,
        RegMap.find ap (0x400 + k, j) = s.regs.find (p.val, j) := by
      intro k hk h j hj
      rw [hap k j hj, if_pos ⟨hk, hmask k hk h⟩]
      exact State.committed_pendv s p _ _ _ (rwsIds_off .headc) hj
    by_cases hzero : m = 0
    · rw [hexec, hdone hzero]
      obtain ⟨hpg, hsg, hpv, hta, hag, hpend, hirq, hcom, hregs, hframe⟩ := committed_done (Blk.headc.rwsIds true true) (b2n imm) ap
        hf gen.isLt (rwsIds_off .headc)
      refine ⟨_, rfl, hpg, hsg, hpv, fun k hk h j hj => ?_, fun _ => ⟨hag, hpend, hirq, hcom⟩, fun k hk h1 h2 => ?_, hregs, hframe⟩
      · exact (congrArg (fun m : RegMap => m.find (0x400 + k, j)) hta).trans (happl k hk h j hj)
      · have := hrun k hk h1 h2
        simp [hzero, bit] at this
    · obtain ⟨c, hact⟩ := hwait hzero
      rw [hexec, hact]
      obtain ⟨hpg, hsg, hpv, hta, hag, hpend, hcom, hregs, hframe⟩ := committed_waits (Blk.headc.rwsIds true true) (b2n imm) ap c
        gen.isLt (rwsIds_off .headc)
      refine ⟨_, rfl, hpg, hsg, hpv, happl, fun h => ?_, fun k hk h1 h2 => ⟨hag, hpend, hcom, fun j hj => ?_⟩, hregs, hframe⟩
      · refine absurd (hm.trans ?_) hzero
        rcases h with h | h
        · simp [h]
        · rw [s.runningBars_eq_zero.2 h, ite_self]
      · refine (hap k j hj).trans (if_neg ?_)
        simp [hrun k hk h1 h2]

end Sys2Proof.Machine
end

section
/-! PROOFS. Plain register writes (O13): the case that fails. -/

open Sys2Proof Sys2Proof.Machine
namespace Sys2Proof.Machine

/-- A device out of reset whose HOSTIF page reads FENCED and BME: PG_FENCE_FENCED of HOSTIF is state that no fence writes. -/
def fencedHostif : State :=
  ((({ State.reset with inReset := false, host := { ready := true } } : State).set pHOSTIF R.PG_FENCE_FENCED 1).set
    pHOSTIF R.HOSTIF_LINK_BME 1)
/-- Refutes O13: the clause of BME asks for cause 4 in every state, and a HOSTIF page that reads FENCED takes no cause (R48). -/
theorem not_registerWriteStores : ¬ Obligations.RegisterWriteStores := by
  unfold Obligations.RegisterWriteStores
  rintro ⟨-, -, hcfg⟩
  obtain ⟨-, -, h⟩ := hcfg fencedHostif .busMaster 0 1
  obtain ⟨t, hexec, hbme, -⟩ := h (by decide +kernel) (by decide +kernel) (by decide)
  obtain ⟨-, hcause⟩ := hbme rfl
  have hbit := hcause (by decide +kernel) (by decide)
  have hrun : exec (.registerWrite (.cfg .busMaster) 0 1) fencedHostif = .next (fencedHostif.cfgWrite .busMaster 0 1) := rfl
  rw [hrun] at hexec
  injection hexec with ht
  rw [← ht] at hbit
  exact absurd hbit (by decide +kernel)

end Sys2Proof.Machine
end

section
/-! PROOFS. What a write of PG_CTRL.EN does (R36, R84, R116, R131, R138, R150, R160, R218, R272, R354). -/

open Sys2Proof Sys2Proof.Machine
namespace Sys2Proof.Machine

/-! ### EN is written -/

theorem bit_b2n_zero (en : Bool) : bit (b2n en) 0 = en ∧ bit (b2n en) 1 = false := by cases en <;> decide
theorem exec_pgCtrlEn {s : State} {p : Page} {en : Bool} {b : Blk} {i : Nat} (hb : blkOf p = some (b, i)) (h : s.accepts p 4 (b2n en))
    (hf : s.fenced p = false) : exec (.pgCtrlEn p en) s = .next
      (if s.enFixed b i = true ∨ s.enabled p = en then s else (s.setFlag p R.PG_CTRL_EN en).enEffect b i en) := by
  obtain ⟨h0, h1⟩ := bit_b2n_zero en
  have hact : regAct p 4 (b2n en) s = pgCtrlAct p (b2n en) s := rfl
  rw [exec_accepts (c := .pgCtrlEn p en) rfl h (Or.inr (by simp)), hact, pgCtrlAct, if_neg (by simp [hf])]
  dsimp only
  rw [if_neg (by simp [h1]), h0, State.enWrite, hb]
  simp only [Bool.or_eq_true, beq_iff_eq]
theorem exec_pgCtrlEn_changes {s : State} {p : Page} {en : Bool} {b : Blk} {i : Nat} (hb : blkOf p = some (b, i))
    (h : s.accepts p 4 (b2n en)) (hf : s.fenced p = false) (hx : s.enFixed b i = false) (he : s.enabled p = !en) :
    exec (.pgCtrlEn p en) s = .next ((s.setFlag p R.PG_CTRL_EN en).enEffect b i en) := by
  rw [exec_pgCtrlEn hb h hf, if_neg (by simp [hx, he])]
/-- The state with EN of page p written. -/
def State.enSet (s : State) (p : Nat) (en : Bool) : State := s.setFlag p R.PG_CTRL_EN en
theorem State.get_enSet (s : State) (p : Nat) (en : Bool) {q : Nat} {f : Fld} (h : f.id ≠ R.PG_CTRL_EN.id) :
    (s.enSet p en).get q f = s.get q f := s.get_setFlag_ne en (Or.inr h)
theorem State.enabled_enSet (s : State) (p : Nat) (en : Bool) : (s.enSet p en).enabled p = en := by
  have hself : (s.enSet p en).get p R.PG_CTRL_EN = b2n en % 2 ^ R.PG_CTRL_EN.w := s.get_set_self p R.PG_CTRL_EN (b2n en)
  rw [State.enabled, State.flag, hself]
  cases en <;> rfl
theorem State.enabled_of_get {s t : State} {p : Nat} (h : t.get p R.PG_CTRL_EN = s.get p R.PG_CTRL_EN) : t.enabled p = s.enabled p := by
  rw [State.enabled, State.enabled, State.flag, State.flag, h]
theorem State.regsBut_enSet (s : State) (p : Nat) (en : Bool) {l : List (Nat × Fld)} (h : (p, R.PG_CTRL_EN) ∈ l) :
    s.regsBut (s.enSet p en) l := State.regsBut_setFlag (s.regsBut_refl l) en h

/-! ### Position channels, the pipeline, heads and DMA channels -/

section
variable (s : State) (p i : Nat) (en : Bool)
theorem State.enSet_pos : let t := (s.enSet (pPOS i) en).enEffect .pos i en
    t.enabled (pPOS i) = en ∧ s.regsBut t [(pPOS i, R.PG_CTRL_EN), (pPOS i, R.POS_SPEED)] ∧
      (en = true → t.get (pPOS i) R.POS_SPEED = 0 ∧ t.posAt i = { s.posAt i with still := true, valid := false, hist := [] }) ∧
      (en = false → t.get (pPOS i) R.POS_SPEED = s.get (pPOS i) R.POS_SPEED ∧ t.posAt i = s.posAt i) ∧
      (∀ m, m ≠ i → t.posAt m = s.posAt m) ∧ ({ t with regs := s.regs, pos := s.pos } : State) = s := by
  cases en with
  | false =>
    exact ⟨s.enabled_enSet _ _, s.regsBut_enSet _ _ (by simp), nofun, fun _ => ⟨s.get_enSet _ _ (by decide), rfl⟩, fun _ _ => rfl, rfl⟩
  | true =>
    have ht : (s.enSet (pPOS i) true).enEffect .pos i true =
        ((s.enSet (pPOS i) true).set (pPOS i) R.POS_SPEED 0).updPos i fun x => { x with still := true, valid := false, hist := [] } := rfl
    rw [ht]
    refine ⟨?_, State.regsBut_set (s.regsBut_enSet (pPOS i) true (by simp)) 0 (by simp), fun _ => ⟨?_, ?_⟩, nofun, fun m hm => ?_, ?_⟩
    · exact (State.enabled_of_get (State.get_set_field _ _ _ (by decide))).trans (s.enabled_enSet _ _)
    · exact (State.get_set_self _ _ _ _).trans (Nat.zero_mod _)
    · exact State.posAt_upd_self _ _ _
    · exact State.posAt_upd_other _ _ hm
    · simp [State.enSet]
theorem State.enSet_pipe : let t := (s.enSet p en).enEffect .pipe i en
    t.enabled p = en ∧ s.regsBut t [(p, R.PG_CTRL_EN)] ∧
      t.pipeAt i = (if en then s.pipeAt i else { s.pipeAt i with work := none }) ∧ (∀ m, m ≠ i → t.pipeAt m = s.pipeAt m) ∧
      ({ t with regs := s.regs, pipe := s.pipe } : State) = s := by
  cases en with
  | true => exact ⟨s.enabled_enSet _ _, s.regsBut_enSet _ _ (by simp), rfl, fun _ _ => rfl, rfl⟩
  | false =>
    have ht : (s.enSet p false).enEffect .pipe i false = (s.enSet p false).updPipe i fun x => { x with work := none } := rfl
    rw [ht]
    exact ⟨s.enabled_enSet _ _, s.regsBut_enSet _ _ (by simp), State.pipeAt_upd_self _ _ _, fun m hm => State.pipeAt_upd_other _ _ hm,
      by simp [State.enSet]⟩
/-- Where nothing asks for electrical idle, and the lane is not in it, the lane stays as it is (R334). -/
theorem State.laneIdle_stays (s : State) (l : Nat) (he : s.flag (pLANE l) R.LANE_CTRL_EIDLE = false) (hs : (s.laneAt l).st ≠ 4) :
    s.laneIdle l = s := by
  unfold State.laneIdle
  dsimp only
  split
  · rfl
  · rw [he]
    simp [hs]
theorem State.enSet_head (he : s.flag (pLANE i) R.LANE_CTRL_EIDLE = false) (hs : (s.laneAt i).st ≠ 4) :
    let t := (s.enSet p en).enEffect .head i en
    t.enabled p = en ∧ s.regsBut t [(p, R.PG_CTRL_EN)] ∧
      t.headAt i = (if en then { s.headAt i with judge := s.headHot i, tlmSince := s.tick }
        else { s.headAt i with queue := [], ready := [], cur := none }) ∧ (∀ m, m ≠ i → t.headAt m = s.headAt m) ∧
      ({ t with regs := s.regs, head := s.head } : State) = s := by
  have hhot : (s.enSet p en).headHot i = s.headHot i := by
    unfold State.headHot
    rw [s.get_enSet p en (by decide)]
    rfl
  have hidle : ∀ g, ((s.enSet p en).updHead i g).laneIdle i = (s.enSet p en).updHead i g := fun g =>
    State.laneIdle_stays _ _ ((congrArg (· == 1) (s.get_enSet p en (by decide))).trans he) hs
  intro t
  have ht : t = (s.enSet p en).updHead i fun x => if en then { x with judge := s.headHot i, tlmSince := s.tick }
      else { x with queue := [], ready := [], cur := none } := by
    show ((s.enSet p en).updHead i fun x => if en then { x with judge := (s.enSet p en).headHot i, tlmSince := s.tick }
      else { x with queue := [], ready := [], cur := none }).laneIdle i = _
    rw [hidle, hhot]
  rw [ht]
  exact ⟨s.enabled_enSet _ _, s.regsBut_enSet _ _ (by simp), State.headAt_upd_self _ _ _, fun m hm => State.headAt_upd_other _ _ hm,
    by simp [State.enSet]⟩
theorem State.enSet_dmaOff : let t := (s.enSet (pDMA i) false).enEffect .dma i false
    t.enabled (pDMA i) = false ∧ t.dmaAt i = {} ∧
      t.get (pDMA i) R.DMA_DISC_CNT = min (s.get (pDMA i) R.DMA_DISC_CNT + ((s.dmaAt i).kept.length + (s.dmaAt i).staging.length +
        (s.dmaAt i).tag.length)) (2 ^ 32 - 1) ∧
      s.regsBut t [(pDMA i, R.PG_CTRL_EN), (pDMA i, R.DMA_DISC_CNT)] ∧ (∀ m, m ≠ i → t.dmaAt m = s.dmaAt m) ∧
      ({ t with regs := s.regs, dma := s.dma } : State) = s := by
  have ht : (s.enSet (pDMA i) false).enEffect .dma i false = ((s.enSet (pDMA i) false).addSat (pDMA i) R.DMA_DISC_CNT
      ((s.dmaAt i).kept.length + (s.dmaAt i).staging.length + (s.dmaAt i).tag.length)).updDma i fun _ => {} := rfl
  rw [ht]
  refine ⟨?_, State.dmaAt_upd_self _ _ _, ?_, ?_, fun m hm => State.dmaAt_upd_other _ _ hm, by simp [State.enSet, State.addSat]⟩
  · show ((s.enSet (pDMA i) false).addSat (pDMA i) R.DMA_DISC_CNT _).enabled (pDMA i) = false
    exact (State.enabled_of_get (State.get_addSat_field _ _ _ (by decide))).trans (s.enabled_enSet _ _)
  · have hw : R.DMA_DISC_CNT.w = 32 := rfl
    show ((s.enSet (pDMA i) false).addSat (pDMA i) R.DMA_DISC_CNT _).get (pDMA i) R.DMA_DISC_CNT = _
    rw [State.get_addSat_self, s.get_enSet (pDMA i) false (by decide), hw]
  · exact State.regsBut_addSat (s.regsBut_enSet (pDMA i) false (by simp)) _ (by simp)
theorem State.enSet_breathOff : let t := (s.enSet pBREATH false).enEffect .breath i false
    t.enabled pBREATH = false ∧ t.get pBREATH R.BREATH_PWM = 15625 ∧
      s.regsBut t [(pBREATH, R.PG_CTRL_EN), (pBREATH, R.BREATH_PWM)] ∧ ({ t with regs := s.regs } : State) = s := by
  have ht : (s.enSet pBREATH false).enEffect .breath i false = (s.enSet pBREATH false).set pBREATH R.BREATH_PWM 15625 := rfl
  rw [ht]
  refine ⟨?_, ?_, State.regsBut_set (s.regsBut_enSet pBREATH false (by simp)) _ (by simp), by simp [State.enSet]⟩
  · exact (State.enabled_of_get (State.get_set_field _ _ _ (by decide))).trans (s.enabled_enSet _ _)
  · rw [State.get_set_self]
    rfl
theorem State.enSet_camc : let t := (s.enSet p en).enEffect .camc i en
    t.enabled p = en ∧ s.regsBut t [(p, R.PG_CTRL_EN)] ∧ (en = false → t.camc = s.camc) ∧
      (en = true → t.camc.dist = s.get pCAMC R.CAMC_DIST ∧ t.camc.phase = s.get pCAMC R.CAMC_PHASE ∧
        t.camc.refbar = s.get pCAMC R.CAMC_CTRL_REFBAR ∧ t.camc.dec = s.get pCAMC R.CAMC_CTRL_DEC ∧
        t.camc.base = s.get64 pCAMC R.CAMC_CRING_BASE_LO R.CAMC_CRING_BASE_HI ∧ t.camc.log2 = max 8 (s.get pCAMC R.CAMC_CRING_CFG)) ∧
      ({ t with regs := s.regs, camc := s.camc } : State) = s := by
  cases en with
  | false => exact ⟨s.enabled_enSet _ _, s.regsBut_enSet _ _ (by simp), fun _ => rfl, nofun, rfl⟩
  | true =>
    refine ⟨s.enabled_enSet _ _, s.regsBut_enSet _ _ (by simp), nofun, fun _ => ⟨?_, ?_, ?_, ?_, ?_, ?_⟩, rfl⟩
    · exact s.get_enSet _ _ (by decide)
    · exact s.get_enSet _ _ (by decide)
    · exact s.get_enSet _ _ (by decide)
    · exact s.get_enSet _ _ (by decide)
    · exact congrArg₂ (fun a b => a * _ + b * _) (s.get_enSet _ _ (by decide)) (s.get_enSet _ _ (by decide))
    · exact congrArg (max 8) (s.get_enSet _ _ (by decide))
theorem State.enSet_time : let t := (s.enSet p en).enEffect .time i en
    t.enabled p = en ∧ s.regsBut t [(p, R.PG_CTRL_EN)] ∧
      t.cmpAt = (if en then s.cmpAt.map (fun e => (e.1, e.2.1, s.tick)) else s.cmpAt) ∧
      ({ t with regs := s.regs, cmpAt := s.cmpAt } : State) = s := by
  cases en <;> exact ⟨s.enabled_enSet _ _, s.regsBut_enSet _ _ (by simp), rfl, rfl⟩
end

/-! ### A line generator -/

theorem sgn_uns64 (v : Int) : sgn 64 (uns 64 v) = sgn 64 (uns 64 v % 2 ^ 64) := by
  unfold sgn
  rw [Nat.mod_mod]
theorem sgn_uns_small {v : Int} (h : -2 ^ 63 ≤ v) (h' : v < 2 ^ 63) : sgn 64 (uns 64 v) = v := by
  have hu := uns_cast 64 v
  unfold sgn
  split <;> omega
theorem sgn32_bounds (n : Nat) : -2 ^ 31 ≤ sgn 32 n ∧ sgn 32 n < 2 ^ 31 := by
  unfold sgn
  split <;> omega
theorem sgn64_bounds (n : Nat) : -2 ^ 63 ≤ sgn 64 n ∧ sgn 64 n < 2 ^ 63 := by
  unfold sgn
  split <;> omega
/-- A register pair of two whole words reads the 64 bits written to it. -/
theorem State.get64_set64 (s : State) (p : Nat) {lo hi : Fld} (v : Nat) (h : lo.id ≠ hi.id) (hlo : lo.lo = 0) (hw : lo.w = 32)
    (hhi : hi.w = 32) : (s.set64 p lo hi v).get64 p lo hi = v % 2 ^ 64 := by
  unfold State.set64 State.get64
  rw [State.get_set_self, State.get_set_field _ _ _ h, State.get_set_self, hlo, hw, hhi]
  omega
theorem State.get_set64_ne (s : State) (p : Nat) {lo hi : Fld} (v : Nat) {q : Nat} {g : Fld} (h : g.id ≠ lo.id ∧ g.id ≠ hi.id) :
    (s.set64 p lo hi v).get q g = s.get q g :=
  ((s.set p lo _).get_set_ne _ (Or.inr h.2)).trans (s.get_set_ne _ (Or.inr h.1))
theorem State.lineY_setY (s : State) (b : Nat) {y : Int} (h : -2 ^ 63 ≤ y) (h' : y < 2 ^ 63) : (s.setY b y).lineY b = y := by
  rw [State.lineY, State.setY, State.get64_set64 _ _ _ (by decide) rfl rfl rfl, ← sgn_uns64, sgn_uns_small h h']
theorem State.lineNext_setNext (s : State) (b : Nat) {y : Int} (h : -2 ^ 63 ≤ y) (h' : y < 2 ^ 63) : (s.setNext b y).lineNext b = y := by
  rw [State.lineNext, State.setNext, State.get64_set64 _ _ _ (by decide) rfl rfl rfl, ← sgn_uns64, sgn_uns_small h h']
/-- The registers of a line generator that starts at a count, a NEXT, a line and a g of 0. -/
def State.lineRegs (s : State) (b : Nat) (y next : Int) (seq : Nat) : State :=
  (((s.setY b y).setNext b next).set (pLINE b) R.LINE_SEQ seq).set (pLINE b) R.LINE_GAIN 0
section
variable (s : State) (b : Nat) (y n : Int) (q : Nat)
theorem State.get_lineRegs {p : Nat} {f : Fld} (h : ∀ g ∈ [R.LINE_Y_LO, R.LINE_Y_HI, R.LINE_NEXT_LO, R.LINE_NEXT_HI, R.LINE_SEQ, R.LINE_GAIN],
    f.id ≠ g.id) : (s.lineRegs b y n q).get p f = s.get p f := by
  unfold State.lineRegs State.setNext State.setY
  rw [State.get_set_ne _ _ (Or.inr (h _ (by simp))), State.get_set_ne _ _ (Or.inr (h _ (by simp))),
    State.get_set64_ne _ _ _ ⟨h _ (by simp), h _ (by simp)⟩, State.get_set64_ne _ _ _ ⟨h _ (by simp), h _ (by simp)⟩]
theorem State.lineRegs_loaded (hy : -2 ^ 63 ≤ y ∧ y < 2 ^ 63) (hn : -2 ^ 63 ≤ n ∧ n < 2 ^ 63) :
    (s.lineRegs b y n q).lineY b = y ∧ (s.lineRegs b y n q).lineNext b = n ∧
    (s.lineRegs b y n q).get (pLINE b) R.LINE_SEQ = q % 2 ^ 32 ∧ (s.lineRegs b y n q).get (pLINE b) R.LINE_GAIN = 0 := by
  have hset : ∀ (u : State) (v : Nat) (f : Fld) (lo hi : Fld), lo.id ≠ f.id → hi.id ≠ f.id →
      (u.set (pLINE b) f v).get64 (pLINE b) lo hi = u.get64 (pLINE b) lo hi := fun u v f lo hi h h' =>
    congrArg₂ (fun a b => a * _ + b * _) (u.get_set_field _ _ h) (u.get_set_field _ _ h')
  have hnext : ∀ (u : State), (u.setNext b n).lineY b = u.lineY b := fun u =>
    congrArg (sgn 64) (congrArg₂ (fun a b => a * _ + b * _) (u.get_set64_ne _ _ (by decide)) (u.get_set64_ne _ _ (by decide)))
  unfold State.lineRegs
  refine ⟨?_, ?_, ?_, ?_⟩
  · rw [State.lineY, hset _ _ _ _ _ (by decide) (by decide), hset _ _ _ _ _ (by decide) (by decide)]
    exact (hnext _).trans (s.lineY_setY b hy.1 hy.2)
  · rw [State.lineNext, hset _ _ _ _ _ (by decide) (by decide), hset _ _ _ _ _ (by decide) (by decide)]
    exact State.lineNext_setNext _ b hn.1 hn.2
  · rw [State.get_set_field _ _ _ (by decide), State.get_set_self]
    rfl
  · rw [State.get_set_self]
    exact Nat.zero_mod _
theorem State.regsBut_lineRegs {l : List (Nat × Fld)} {t : State} (h : s.regsBut t l)
    (hl : [(pLINE b, R.LINE_Y_LO), (pLINE b, R.LINE_Y_HI), (pLINE b, R.LINE_NEXT_LO), (pLINE b, R.LINE_NEXT_HI), (pLINE b, R.LINE_SEQ),
      (pLINE b, R.LINE_GAIN)] ⊆ l) : s.regsBut (t.lineRegs b y n q) l := by
  have hm : ∀ f ∈ [R.LINE_Y_LO, R.LINE_Y_HI, R.LINE_NEXT_LO, R.LINE_NEXT_HI, R.LINE_SEQ, R.LINE_GAIN], (pLINE b, f) ∈ l :=
    fun f hf => hl (by simpa using hf)
  unfold State.lineRegs State.setNext State.setY State.set64
  refine State.regsBut_set (State.regsBut_set (State.regsBut_set (State.regsBut_set (State.regsBut_set (State.regsBut_set h
    _ ?_) _ ?_) _ ?_) _ ?_) _ ?_) _ ?_ <;> exact hm _ (by simp)
theorem State.lineRegs_frame : ∃ r, s.lineRegs b y n q = { s with regs := r } := by
  simp only [State.lineRegs, State.setNext, State.setY, State.set64, State.set]
  exact ⟨_, rfl⟩
end
/-- What becomes due at once leaves all but the moment it falls due (R151). -/
theorem State.lineDue_cases (s : State) (b : Nat) :
    s.lineDue b = s ∨ s.lineDue b = s.updLine b fun l => { l with due := true, tDue := s.tick } := by
  unfold State.lineDue
  split
  · exact Or.inr rfl
  · exact Or.inl rfl
/-- The line generator of bar b as it starts from the count cnt of its source. -/
def lineStarted (src : Nat) (fo : Bool) (cnt : Nat) (l : LineSt) : LineSt :=
  { l with
    due := false, hiY := sgn 32 cnt * 2 ^ 24, src := src, failover := fo, failedOver := false, strBase := cnt,
    strE := 0, strDue := [], strSkip := true, gainAt := [], srcLost := false }
/-- An enable whose source is not fenced loads the count, NEXT, the line and a g of 0, and what is due at once falls due (R150, R151). -/
theorem State.lineEnable_eq {s : State} {b : Nat} (hf : s.fenced (pPOS (srcChannel b (s.lineSrc b))) = false) : s.lineEnable b =
    ((((s.lineRegs b (sgn 32 (s.get (pPOS (srcChannel b (s.lineSrc b))) R.POS_CNT) * 2 ^ 24)
      (sgn 64 (s.get64 (pLINE b) R.LINE_ORG_LO R.LINE_ORG_HI)) (s.get (pLINE b) R.LINE_SEQ0 + 2 ^ 32 - 1)).updLine b
      (lineStarted (s.lineSrc b) (s.flag (pLINE b) R.LINE_CTRL_FAILOVER)
        (s.get (pPOS (srcChannel b (s.lineSrc b))) R.POS_CNT))).updJob b fun j => { j with prev := none }).updPair
      fun p => { p with jobLine := p.jobLine.del b }).lineDue b := by
  unfold State.lineEnable State.lineStart
  simp only [hf, Bool.false_and, Bool.false_eq_true, if_false]
  rfl
/-- The generators after bar b has started from src: its own reads SRC and FAILOVER and leaves its rate limit, the others stand. -/
def startedLines (src : Nat) (fo : Bool) (old new : NMap LineSt) (b : Nat) : Prop :=
  (new.getD b {}).src = src ∧ (new.getD b {}).failover = fo ∧ (new.getD b {}).failedOver = false ∧
    (new.getD b {}).early = (old.getD b {}).early ∧ ∀ m, m ≠ b → new.getD m {} = old.getD m {}
theorem State.lineDue_started (x : State) (b : Nat) (src : Nat) (fo : Bool) (cnt : Nat) (jg : JobSt → JobSt) (pg : PairSt → PairSt) :
    ∃ ln jb pr, startedLines src fo x.line ln b ∧
      (((x.updLine b (lineStarted src fo cnt)).updJob b jg).updPair pg).lineDue b = { x with line := ln, job := jb, pair := pr } := by
  have hself : NMap.getD (x.line.put b (lineStarted src fo cnt (x.lineAt b))) b {} = lineStarted src fo cnt (x.lineAt b) :=
    NMap.getD_put_self _ _ _ _
  have hother : ∀ v m, m ≠ b → NMap.getD (x.line.put b v) m {} = x.line.getD m {} := fun v m hm => NMap.getD_put_other _ _ _ hm
  rcases State.lineDue_cases (((x.updLine b (lineStarted src fo cnt)).updJob b jg).updPair pg) b with h | h
  · refine ⟨x.line.put b (lineStarted src fo cnt (x.lineAt b)), _, _, ?_, h⟩
    exact ⟨by rw [hself]; rfl, by rw [hself]; rfl, by rw [hself]; rfl, by rw [hself]; rfl, hother _⟩
  · refine ⟨_, _, _, ?_, h⟩
    have hline : ∀ u : LineSt, NMap.getD ((x.line.put b (lineStarted src fo cnt (x.lineAt b))).put b u) b {} = u := fun u =>
      NMap.getD_put_self _ _ _ _
    refine ⟨?_, ?_, ?_, ?_, fun m hm => (NMap.getD_put_other _ _ _ hm).trans (hother _ m hm)⟩
    · exact (congrArg LineSt.src (hline _)).trans (congrArg LineSt.src hself)
    · exact (congrArg LineSt.failover (hline _)).trans (congrArg LineSt.failover hself)
    · exact (congrArg LineSt.failedOver (hline _)).trans (congrArg LineSt.failedOver hself)
    · have hearly : (NMap.getD (x.line.put b (lineStarted src fo cnt (x.lineAt b))) b {}).early = (x.lineAt b).early := by rw [hself]; rfl
      exact (congrArg LineSt.early (hline _)).trans hearly
theorem State.withLines_reads (x : State) (ln : NMap LineSt) (jb : NMap JobSt) (pr : PairSt) :
    let u := ({ x with line := ln, job := jb, pair := pr } : State)
    u.get = x.get ∧ u.lineY = x.lineY ∧ u.lineNext = x.lineNext ∧ u.enabled = x.enabled ∧ (∀ m, u.lineAt m = ln.getD m {}) ∧
      ∀ (s : State) l, s.regsBut x l → s.regsBut u l := ⟨rfl, rfl, rfl, rfl, fun _ => rfl, fun _ _ h => h⟩
theorem State.joinNote_single {s : State} (h : s.straps.pairEn = false) : s.joinNote = s := by
  rw [State.joinNote, State.pairOn, h]
  rfl
theorem State.enSet_line {s : State} {b : Nat} (hpair : s.straps.pairEn = false)
    (hf : s.fenced (pPOS (srcChannel b (s.lineSrc b))) = false) :
    let t := (s.enSet (pLINE b) true).enEffect .line b true
    t.enabled (pLINE b) = true ∧
      t.lineY b = sgn 32 (s.get (pPOS (srcChannel b (s.lineSrc b))) R.POS_CNT) * 2 ^ 24 ∧
      t.lineNext b = sgn 64 (s.get64 (pLINE b) R.LINE_ORG_LO R.LINE_ORG_HI) ∧
      t.get (pLINE b) R.LINE_SEQ = (s.get (pLINE b) R.LINE_SEQ0 + 2 ^ 32 - 1) % 2 ^ 32 ∧ t.get (pLINE b) R.LINE_GAIN = 0 ∧
      (t.lineAt b).src = s.lineSrc b ∧ (t.lineAt b).failover = s.flag (pLINE b) R.LINE_CTRL_FAILOVER ∧ (t.lineAt b).failedOver = false ∧
      (t.lineAt b).early = (s.lineAt b).early ∧ (∀ m, m ≠ b → t.lineAt m = s.lineAt m) ∧
      s.regsBut t [(pLINE b, R.PG_CTRL_EN), (pLINE b, R.LINE_Y_LO), (pLINE b, R.LINE_Y_HI), (pLINE b, R.LINE_NEXT_LO),
        (pLINE b, R.LINE_NEXT_HI), (pLINE b, R.LINE_SEQ), (pLINE b, R.LINE_GAIN)] ∧
      ({ t with regs := s.regs, line := s.line, job := s.job, pair := s.pair } : State) = s := by
  intro t
  have hget : ∀ (q : Nat) (f : Fld), f.id ≠ R.PG_CTRL_EN.id → (s.enSet (pLINE b) true).get q f = s.get q f := fun q f hf =>
    s.get_enSet _ _ hf
  have hsrc : (s.enSet (pLINE b) true).lineSrc b = s.lineSrc b := by
    simp only [State.lineSrc, hget _ _ (show R.LINE_CTRL_SRC.id ≠ R.PG_CTRL_EN.id by decide)]
  have horg : (s.enSet (pLINE b) true).get64 (pLINE b) R.LINE_ORG_LO R.LINE_ORG_HI = s.get64 (pLINE b) R.LINE_ORG_LO R.LINE_ORG_HI :=
    congrArg₂ (fun a b => a * _ + b * _) (hget _ _ (by decide)) (hget _ _ (by decide))
  have hfo : (s.enSet (pLINE b) true).flag (pLINE b) R.LINE_CTRL_FAILOVER = s.flag (pLINE b) R.LINE_CTRL_FAILOVER :=
    congrArg (· == 1) (hget _ _ (by decide))
  have hfree : (s.enSet (pLINE b) true).fenced (pPOS (srcChannel b ((s.enSet (pLINE b) true).lineSrc b))) = false := by
    rw [hsrc, ← hf]
    exact congrArg (· == 1) (hget _ _ (by decide))
  have heq := State.lineEnable_eq hfree
  rw [hsrc, horg, hfo, hget _ _ (by decide), hget _ R.LINE_SEQ0 (by decide)] at heq
  have hy := sgn32_bounds (s.get (pPOS (srcChannel b (s.lineSrc b))) R.POS_CNT)
  have hn := sgn64_bounds (s.get64 (pLINE b) R.LINE_ORG_LO R.LINE_ORG_HI)
  generalize s.get (pLINE b) R.LINE_SEQ0 + 2 ^ 32 - 1 = q at heq ⊢
  generalize sgn 64 (s.get64 (pLINE b) R.LINE_ORG_LO R.LINE_ORG_HI) = n at heq hn ⊢
  generalize s.get (pPOS (srcChannel b (s.lineSrc b))) R.POS_CNT = cnt at heq hy ⊢
  obtain ⟨ln, jb, pr, ⟨hls, hlf, hld, hle, hlo⟩, hdue⟩ := State.lineDue_started
    ((s.enSet (pLINE b) true).lineRegs b (sgn 32 cnt * 2 ^ 24) n q) b (s.lineSrc b) (s.flag (pLINE b) R.LINE_CTRL_FAILOVER) cnt
    (fun j => { j with prev := none }) fun p => { p with jobLine := p.jobLine.del b }
  obtain ⟨hly, hln, hseq, hgain⟩ := (s.enSet (pLINE b) true).lineRegs_loaded b (sgn 32 cnt * 2 ^ 24) n q (by omega) hn
  have hen := (s.enSet (pLINE b) true).get_lineRegs b (sgn 32 cnt * 2 ^ 24) n q (p := pLINE b) (f := R.PG_CTRL_EN) (by decide)
  have hregs := State.regsBut_lineRegs s b (sgn 32 cnt * 2 ^ 24) n q (s.regsBut_enSet (pLINE b) true
    (l := [(pLINE b, R.PG_CTRL_EN), (pLINE b, R.LINE_Y_LO), (pLINE b, R.LINE_Y_HI), (pLINE b, R.LINE_NEXT_LO),
        (pLINE b, R.LINE_NEXT_HI), (pLINE b, R.LINE_SEQ), (pLINE b, R.LINE_GAIN)]) (by simp)) (by simp)
  obtain ⟨r, hframe⟩ := (s.enSet (pLINE b) true).lineRegs_frame b (sgn 32 cnt * 2 ^ 24) n q
  have hline : ((s.enSet (pLINE b) true).lineRegs b (sgn 32 cnt * 2 ^ 24) n q).line = s.line := by rw [hframe]; rfl
  rw [hline] at hle hlo
  have ht : t = { (s.enSet (pLINE b) true).lineRegs b (sgn 32 cnt * 2 ^ 24) n q with line := ln, job := jb, pair := pr } := by
    have hle : (s.enSet (pLINE b) true).lineEnable b = _ := heq.trans hdue
    show ((s.enSet (pLINE b) true).lineEnable b).joinNote = _
    rw [hle]
    refine State.joinNote_single ?_
    rw [hframe]
    exact hpair
  obtain ⟨hg, hwy, hwn, hwe, hwl, hwr⟩ := State.withLines_reads ((s.enSet (pLINE b) true).lineRegs b (sgn 32 cnt * 2 ^ 24) n q) ln jb pr
  rw [ht, hg, hwy, hwn, hwe, hwl]
  refine ⟨(State.enabled_of_get hen).trans (s.enabled_enSet _ _), hly, hln, hseq, hgain, hls, hlf, hld, hle, fun m hm => ?_, hwr s _ hregs, ?_⟩
  · rw [hwl]
    exact hlo m hm
  · rw [hframe]
    rfl
/-- Settles O7: an accepted write of EN is `enEffect` of the block where EN changes, and nothing where it does not. -/
theorem enableWriteTakesEffect : Obligations.EnableWriteTakesEffect := by
  unfold Obligations.EnableWriteTakesEffect
  intro s p en b i hb hacc hf
  obtain ⟨hp, -⟩ := blkOf_some hb
  refine ⟨fun h => by rw [exec_pgCtrlEn hb hacc hf, if_pos h], fun hx he => ?_⟩
  rw [exec_pgCtrlEn_changes hb hacc hf hx he]
  refine ⟨rfl, fun h => ?_, fun h => ?_, fun h => ?_, fun h => ?_, fun h hen hpair hsrc => ?_, fun h hidle hst => ?_, fun h hen => ?_,
    fun h hen => ?_, fun h => ?_⟩
  · refine ⟨_, rfl, ?_⟩
    have hstays : (s.enSet p en).enEffect b i en = s.enSet p en := by
      simp only [List.mem_cons, List.not_mem_nil, or_false] at h
      rcases h with rfl | rfl <;> rfl
    show ((s.enSet p en).enEffect b i en).enabled p = en ∧ _
    rw [show (s.setFlag p.val R.PG_CTRL_EN en) = s.enSet p en from rfl, hstays]
    exact ⟨s.enabled_enSet _ _, s.regsBut_enSet _ _ (by simp), rfl⟩
  · subst h
    exact ⟨_, rfl, s.enSet_time p i en⟩
  · subst h
    have hpos : p.val = pPOS i := hp
    rw [hpos]
    exact ⟨_, rfl, s.enSet_pos i en⟩
  · subst h
    exact ⟨_, rfl, s.enSet_pipe p i en⟩
  · subst h hen
    have hline : p.val = pLINE i := hp
    rw [hline]
    exact ⟨_, rfl, State.enSet_line hpair hsrc⟩
  · subst h
    exact ⟨_, rfl, s.enSet_head p i en hidle hst⟩
  · subst h hen
    have hdma : p.val = pDMA i := hp
    rw [hdma]
    exact ⟨_, rfl, s.enSet_dmaOff i⟩
  · subst h hen
    have hi : i = 0 := by
      have := (blkOf_some hb).2
      simpa [Blk.count] using this
    subst hi
    have hbr : p.val = pBREATH := hp
    rw [hbr]
    exact ⟨_, rfl, s.enSet_breathOff 0⟩
  · subst h
    have hi : i = 0 := by
      have := (blkOf_some hb).2
      simpa [Blk.count] using this
    subst hi
    have hcamc : p.val = pCAMC := hp
    rw [hcamc]
    exact ⟨_, rfl, s.enSet_camc pCAMC 0 en⟩

end Sys2Proof.Machine
end

section
/-! PROOFS. Loss of a position channel's signal (O23): the case that fails. -/

open Sys2Proof Sys2Proof.Machine
namespace Sys2Proof.Machine

/-- A device whose P0 counts and whose LINE 0 runs with ACT_SRC 3, which reads P0 and goes over to P0. -/
def oddSource : State :=
  (({ State.reset with
      inReset := false, heldReset := false, heldClock := false, pll := true, posStarted := true, tick := 200000
      line := [(0, { src := 3, failover := true })] } : State).set (pPOS 0) R.PG_CTRL_EN 1).set (pLINE 0) R.PG_CTRL_EN 1
/-- Whether ACT_SRC of LINE 0 has gone over to the other master after a command. -/
def failedOverAfter (c : Instr) (s : State) : Bool :=
  match exec c s with
  | .next t => (t.lineAt 0).failedOver
  | _ => false
theorem oddSource_stays : failedOverAfter (.lossOfSignal 0 .a) oddSource = false := by decide +kernel

/-- Refutes O23: a generator that reads P0 by an ACT_SRC of 3 has P0 for its other master too, which the loss itself has fenced: it
does not go over, though P0 was not fenced before. -/
theorem not_indexAndSignalEvents : ¬ Obligations.IndexAndSignalEvents := by
  unfold Obligations.IndexAndSignalEvents
  rintro ⟨-, hloss, -⟩
  obtain ⟨-, -, h⟩ := hloss oddSource 0 .a
  obtain ⟨t, ht, -, -, -, -, -, -, hlines, -⟩ := h (by decide) (by decide +kernel) (by decide +kernel) nofun (by decide +kernel)
  obtain ⟨hover, -⟩ := hlines 0 (by decide) (by decide +kernel) (by decide +kernel) 0 (by decide +kernel)
  obtain ⟨-, hfailed, -⟩ := hover (by decide +kernel) (by decide +kernel) (by decide +kernel)
  have hstays := oddSource_stays
  simp only [failedOverAfter, ht, hfailed] at hstays
  exact absurd hstays (by decide)

end Sys2Proof.Machine
end

section
/-! ### Messages and the endpoint (R344 to R351, R357) -/
open Sys2Proof Sys2Proof.Machine
namespace Sys2Proof.Machine

theorem State.fenceSound.unfenced {s : State} (h : s.fenceSound) {p i : Nat} {b : Blk} (hp : blkOf p = some (b, i))
    (hb : neverFences b i = true) : s.frozen p = false :=
  State.frozen_of_unfenced (h p b i hp hb)

/-! #### An MSI-X message -/

/-- The registers that a snapshot writes. -/
def snapFields : List (Nat × Fld) :=
  [(pTIME, R.TIME_SNAP_LO), (pTIME, R.TIME_SNAP_HI), (pTIME, R.TIME_SNAP_INFO_SEQ), (pTIME, R.TIME_SNAP_INFO_VEC),
    (pTIME, R.TIME_SNAP_INFO_SW), (pTIME, R.PG_IRQ_RAW)]
/-- The registers of a snapshot, before its cause. -/
def State.snapLatched (s : State) (sw : Bool) (vec : Nat) : State :=
  ((((s.set pTIME R.TIME_SNAP_LO s.cNs).set pTIME R.TIME_SNAP_HI (s.cNs / 2 ^ 32)).incWrap pTIME R.TIME_SNAP_INFO_SEQ).setFlag pTIME
    R.TIME_SNAP_INFO_SW sw).set pTIME R.TIME_SNAP_INFO_VEC vec
theorem State.regs_tickFresh (s : State) : s.tickFresh.regs = s.regs := rfl
theorem State.snapshot_message (s : State) (vec : Nat) :
    s.snapshot false vec = ((s.snapLatched false vec).tickFresh).cause pTIME 19 := by
  unfold State.snapshot State.snapLatched
  dsimp only
  rw [if_neg Bool.false_ne_true]
theorem State.regsBut_snapLatched (s : State) (sw : Bool) (vec : Nat) : s.regsBut (s.snapLatched sw vec) snapFields := by
  unfold State.snapLatched
  exact State.regsBut_set (State.regsBut_setFlag (State.regsBut_incWrap (State.regsBut_set (State.regsBut_set
    (s.regsBut_refl _) _ (by simp [snapFields])) _ (by simp [snapFields])) (by simp [snapFields])) _ (by simp [snapFields])) _
    (by simp [snapFields])
theorem State.regsBut_snapshot (s : State) (vec : Nat) : s.regsBut (s.snapshot false vec) snapFields := by
  rw [State.snapshot_message]
  exact State.regsBut_cause (State.regsBut_of_regs (s.regsBut_snapLatched false vec) (State.regs_tickFresh _)) 19 (by simp [snapFields])
theorem State.get_snapshot_vec (s : State) (vec : Nat) :
    (s.snapshot false vec).get pTIME R.TIME_SNAP_INFO_VEC = vec % 2 ^ R.TIME_SNAP_INFO_VEC.w := by
  rw [State.snapshot_message, State.get_cause_field _ _ _ (by decide), State.get_tickFresh, State.snapLatched, State.get_set_self]
theorem State.reports_snapLatched (s : State) (sw : Bool) (vec : Nat) : s.reports (s.snapLatched sw vec) := by
  unfold State.snapLatched
  generalize s.cNs / 2 ^ 32 = hi
  exact ((((s.reports_set _ _ _).trans (State.reports_set _ _ _ _)).trans (State.reports_set _ _ _ _)).trans
    (State.reports_setFlag _ _ _ _)).trans (State.reports_set _ _ _ _)
/-- A snapshot changes registers and the message that waits, and takes the value that the model leaves free. -/
theorem State.snapshot_shape (s : State) (vec : Nat) : ∃ r w n,
    s.snapshot false vec = { s with regs := r, host := { s.host with waiting := w }, fresh := n } := by
  rw [State.snapshot_message]
  obtain ⟨r, w, h⟩ := s.reports_snapLatched false vec
  obtain ⟨r', w', h'⟩ := (s.snapLatched false vec).tickFresh.reports_cause pTIME 19
  rw [h', h]
  exact ⟨r', w', _, rfl⟩
/-- The message of a vector: it no longer waits, its holdoff starts, and it goes out. -/
def State.msixSent (s : State) (v : Nat) : State :=
  (s.updHost fun h => { h with waiting := h.waiting.filter (· != v), sentAt := h.sentAt.put v s.tick }).emit
    (.msix v (s.get64 pHOSTIF (R.MSIX_ADDR_LO.nth 16 v) (R.MSIX_ADDR_HI.nth 16 v)) (s.get pHOSTIF (R.MSIX_DATA.nth 16 v)))
theorem State.msixSend_eq (s : State) (v : Nat) : s.msixSend v =
    if s.flag pTIME R.TIME_SNAP_CFG_EN = true ∧ s.get pTIME R.TIME_SNAP_CFG_VEC = v then (s.msixSent v).snapshot false v
    else s.msixSent v := by
  rw [State.msixSend]
  simp only [Bool.and_eq_true, beq_iff_eq]
  rfl
theorem exec_msix {c : Instr} {s : State} {v : Vec} (hc : c = .msixMessage v ∨ c = .coalHoldoffExpiry v)
    (hw : s.host.waiting.contains v.val = true) (ho : s.msixOpen v = true) (hh : s.msixHeld v = false)
    (he : c = .coalHoldoffExpiry v → s.get pHOSTIF R.HOSTIF_COAL ≠ 0 ∧ s.host.sentAt.has v = true) :
    exec c s = .next (s.msixSend v) := by
  rcases hc with rfl | rfl
  · exact (show exec (.msixMessage v) s = execMsixMessage v s from rfl).trans (by simp [execMsixMessage, ho, hh, List.contains_iff_mem.mp hw])
  · obtain ⟨h0, h1⟩ := he rfl
    exact (show exec (.coalHoldoffExpiry v) s = execCoalHoldoffExpiry v s from rfl).trans
      (by simp [execCoalHoldoffExpiry, ho, hh, List.contains_iff_mem.mp hw, h0, h1])
theorem exec_msix_waits {c : Instr} {s : State} {v : Vec} (hc : c = .msixMessage v ∨ c = .coalHoldoffExpiry v)
    (h : s.host.waiting.contains v.val = false ∨ s.msixOpen v = false ∨ s.msixHeld v = true ∨
      (c = .coalHoldoffExpiry v ∧ (s.get pHOSTIF R.HOSTIF_COAL = 0 ∨ s.host.sentAt.has v = false))) : exec c s = .next s := by
  rcases hc with rfl | rfl
  · refine (show exec (.msixMessage v) s = execMsixMessage v s from rfl).trans ?_
    rw [execMsixMessage, if_neg]
    rcases h with h | h | h | ⟨h, -⟩
    · rw [h]; simp
    · simp [h]
    · simp [h]
    · cases h
  · refine (show exec (.coalHoldoffExpiry v) s = execCoalHoldoffExpiry v s from rfl).trans ?_
    rw [execCoalHoldoffExpiry, if_neg]
    rcases h with h | h | h | ⟨-, h | h⟩
    · rw [h]; simp
    · simp [h]
    · simp [h]
    · simp [h]
    · rw [h]; simp

/-- Settles O20: a message that may go out is `msixSent`, with a snapshot where TIME_SNAP_CFG names its vector. -/
theorem msixMessages : Obligations.MsixMessages := by
  unfold Obligations.MsixMessages
  intro s v c hc
  refine ⟨fun hw ho hh he => ?_, exec_msix_waits hc⟩
  have hput : (s.msixSent v).host.sentAt.getD v 0 = s.tick := NMap.getD_put_self _ _ _ _
  rw [exec_msix hc hw ho hh he, State.msixSend_eq]
  by_cases hs : s.flag pTIME R.TIME_SNAP_CFG_EN = true ∧ s.get pTIME R.TIME_SNAP_CFG_VEC = v
  · rw [if_pos hs]
    obtain ⟨r, w, n, hshape⟩ := (s.msixSent v).snapshot_shape v
    refine ⟨_, rfl, ?_, ?_, ?_, ?_, ?_⟩
    · rw [hshape]
      exact hput
    · rw [hshape]
      rfl
    · rw [hshape]
      exact ⟨rfl, rfl, rfl, rfl, rfl⟩
    · intro h
      rcases h with h | h
      · rw [h] at hs
        cases hs.1
      · exact absurd hs.2 h
    · intro _ _ hf
      obtain ⟨hlo, hhi, hseq, hsw⟩ := (s.msixSent v).get_snapshot false v
      refine ⟨hlo, hhi, hseq, ?_, hsw, ?_, ?_, ?_⟩
      · rw [State.get_snapshot_vec]
        exact Nat.mod_eq_of_lt v.isLt
      · exact State.snapshot_cause _ _ _ (hf pTIME .time 0 (by decide) rfl)
      · exact fun q g hq => (s.msixSent v).regsBut_snapshot v q g hq
      · rw [hshape]
        rfl
  · rw [if_neg hs]
    refine ⟨_, rfl, hput, rfl, ⟨rfl, rfl, rfl, rfl, rfl⟩, fun _ => ⟨rfl, rfl⟩, fun h1 h2 => absurd ⟨h1, h2⟩ hs⟩

/-! #### The endpoint -/

theorem exec_endpoint_inReset {s : State} (w : Fin 3) (v : Fin 4) (e : PcieEvent) (h : s.inReset = true) :
    exec (.endpointReady w v) s = .next s ∧ exec (.pcieReset e) s = .next s := by
  refine ⟨(show exec (.endpointReady w v) s = execEndpointReady w v s from rfl).trans ?_,
    (show exec (.pcieReset e) s = execPcieReset e s from rfl).trans ?_⟩
  · rw [execEndpointReady, if_pos h]
  · rw [execPcieReset, if_pos h]
/-- The endpoint serves at the width and the speed of the link. -/
def State.served (s : State) (w v : Nat) : State :=
  ((s.updHost fun h => { h with ready := true }).set pHOSTIF R.HOSTIF_LINK_WIDTH (2 ^ w)).set pHOSTIF R.HOSTIF_LINK_SPEED (v + 1)
theorem exec_endpointReady {s : State} (w : Fin 3) (v : Fin 4) (h : s.inReset = false) :
    exec (.endpointReady w v) s = .next ((s.served w v).setLink true) := by
  refine (show exec (.endpointReady w v) s = execEndpointReady w v s from rfl).trans ?_
  rw [execEndpointReady, if_neg (by rw [h]; decide)]
  rfl
/-- What the endpoint's registers read once the link is trained. -/
theorem State.get_served (s : State) (w : Fin 3) (v : Fin 4) :
    (s.served w v).get pHOSTIF R.HOSTIF_LINK_WIDTH = 2 ^ w.val ∧ (s.served w v).get pHOSTIF R.HOSTIF_LINK_SPEED = v.val + 1 ∧
    s.regsBut (s.served w v) [(pHOSTIF, R.HOSTIF_LINK_WIDTH), (pHOSTIF, R.HOSTIF_LINK_SPEED)] := by
  unfold State.served
  refine ⟨?_, ?_, fun q g h => ?_⟩
  · rw [State.get_set_field _ _ _ (by decide), State.get_set_self]
    revert w
    decide
  · rw [State.get_set_self]
    revert v
    decide
  · rw [State.get_set_ne _ _ (h (pHOSTIF, R.HOSTIF_LINK_SPEED) (by simp)), State.get_set_ne _ _ (h (pHOSTIF, R.HOSTIF_LINK_WIDTH) (by simp))]
    rfl
theorem State.reports_setLink (s : State) (up : Bool) : s.reports (s.setLink up) := by
  unfold State.setLink
  split
  · exact s.reports_refl
  · exact (s.reports_setFlag _ _ _).trans (State.reports_cause _ _ _)
theorem State.get_setLink_ne (s : State) (up : Bool) {q : Nat} {g : Fld}
    (h : q ≠ pHOSTIF ∨ (g.id ≠ R.HOSTIF_LINK_UP.id ∧ g.id ≠ R.PG_IRQ_RAW.id)) : (s.setLink up).get q g = s.get q g := by
  unfold State.setLink
  split
  · rfl
  · have hu : q ≠ pHOSTIF ∨ g.id ≠ R.HOSTIF_LINK_UP.id := h.imp id And.left
    have hr : q ≠ pHOSTIF ∨ g.id ≠ R.PG_IRQ_RAW.id := h.imp id And.right
    rw [State.get_cause_ne _ _ hr, State.get_setFlag_ne _ _ hu]
/-- A link that comes up reads UP and raises cause 3; one that is up already changes no cause. -/
theorem State.setLink_up (s : State) (hf : s.frozen pHOSTIF = false) :
    (s.setLink true).flag pHOSTIF R.HOSTIF_LINK_UP = true ∧
    (s.flag pHOSTIF R.HOSTIF_LINK_UP = false → bit ((s.setLink true).get pHOSTIF R.PG_IRQ_RAW) 3 = true) ∧
    (s.flag pHOSTIF R.HOSTIF_LINK_UP = true → s.setLink true = s) := by
  unfold State.setLink
  split
  next h => exact ⟨h, fun h' => absurd (h.symm.trans h') (by decide), fun _ => rfl⟩
  next h =>
    refine ⟨?_, fun _ => State.bit_cause _ (by decide) ?_, fun h' => absurd h' h⟩
    · rw [State.flag, State.get_cause_field _ _ _ (by decide), State.get_setFlag_self]
      rfl
    · rw [← hf]
      unfold State.frozen State.flag
      rw [State.get_setFlag_field _ _ _ (by decide)]

/-- The pages that a PCI Express reset returns to Reset. -/
def State.pcieDropped (s : State) : State :=
  { s with
    host := {}
    regs := (List.range 4).foldl (fun m i => m.dropPage (pLANE (128 + i)) fun _ => false) (s.regs.dropPage pHOSTIF pcieKeeps) }
/-- The causes of the link and of BME that fall with a PCI Express reset. -/
def State.linkFell (s : State) (up bme : Bool) : State :=
  if bme then (if up then s.cause pHOSTIF 3 else s).cause pHOSTIF 4 else if up then s.cause pHOSTIF 3 else s
theorem exec_pcieReset {s : State} (e : PcieEvent) (h : s.inReset = false) : exec (.pcieReset e) s =
    .next (s.pcieDropped.linkFell (s.flag pHOSTIF R.HOSTIF_LINK_UP) (s.flag pHOSTIF R.HOSTIF_LINK_BME)) := by
  refine (show exec (.pcieReset e) s = execPcieReset e s from rfl).trans ?_
  rw [execPcieReset, if_neg (by rw [h]; decide)]
  cases s.flag pHOSTIF R.HOSTIF_LINK_UP <;> cases s.flag pHOSTIF R.HOSTIF_LINK_BME <;> rfl
theorem RegMap.find_dropPages (m : RegMap) (l : List Nat) (q j : Nat) :
    RegMap.find (l.foldl (fun m p => m.dropPage p fun _ => false) m) (q, j) = if q ∈ l then none else RegMap.find m (q, j) := by
  induction l generalizing m with
  | nil => simp
  | cons p l ih =>
    rw [List.foldl_cons, ih]
    by_cases hq : q ∈ l
    · simp [hq]
    · by_cases hp : q = p
      · subst hp
        rw [if_neg hq, if_pos (by simp), RegMap.find_dropPage_gone _ _ _ _ rfl]
      · rw [if_neg hq, if_neg (by simp [hp, hq]), RegMap.find_dropPage_kept _ _ _ _ _ (Or.inl hp)]
/-- What a register reads once the endpoint and its lanes are back at Reset. -/
theorem State.get_pcieDropped (s : State) (q : Nat) (f : Fld) : s.pcieDropped.get q f =
    if q ∈ (List.range 4).map (fun i => pLANE (128 + i)) ∨ (q = pHOSTIF ∧ pcieKeeps f.id = false) then rst q f else s.get q f := by
  have hfind : RegMap.find s.pcieDropped.regs (q, f.id) = if q ∈ (List.range 4).map (fun i => pLANE (128 + i)) then none
      else RegMap.find (s.regs.dropPage pHOSTIF pcieKeeps) (q, f.id) := by
    rw [← RegMap.find_dropPages, List.foldl_map]
    rfl
  by_cases hq : q ∈ (List.range 4).map (fun i => pLANE (128 + i))
  · rw [if_pos hq] at hfind
    rw [if_pos (Or.inl hq)]
    exact State.get_of_find_none hfind
  · rw [if_neg hq] at hfind
    by_cases hk : q = pHOSTIF ∧ pcieKeeps f.id = false
    · obtain ⟨rfl, hk⟩ := hk
      rw [if_pos (Or.inr ⟨rfl, hk⟩)]
      exact State.get_of_find_none (hfind.trans (RegMap.find_dropPage_gone _ _ _ _ hk))
    · rw [if_neg (by rintro (h | h); exacts [hq h, hk h])]
      rw [RegMap.find_dropPage_kept _ _ _ _ _ (by
        by_cases h : q = pHOSTIF
        · exact Or.inr (by simpa [h] using hk)
        · exact Or.inl h)] at hfind
      unfold State.get
      rw [hfind]
theorem pcieGone_neg {i : Nat} (h : pcieKeeps i = true) :
    ¬(pHOSTIF ∈ (List.range 4).map (fun i => pLANE (128 + i)) ∨ (pHOSTIF = pHOSTIF ∧ pcieKeeps i = false)) := by
  rw [h]
  decide
theorem State.reports_linkFell (s : State) (up bme : Bool) : s.reports (s.linkFell up bme) := by
  cases up <;> cases bme
  · exact s.reports_refl
  · exact s.reports_cause _ _
  · exact s.reports_cause _ _
  · exact (s.reports_cause _ _).trans (State.reports_cause _ _ _)
theorem State.get_linkFell_ne (s : State) (up bme : Bool) {q : Nat} {g : Fld} (h : q ≠ pHOSTIF ∨ g.id ≠ R.PG_IRQ_RAW.id) :
    (s.linkFell up bme).get q g = s.get q g := by
  cases up <;> cases bme <;> simp only [State.linkFell, if_true, Bool.false_eq_true, if_false, State.get_cause_ne _ _ h]
theorem State.frozen_cause (s : State) (p i q : Nat) : (s.cause p i).frozen q = s.frozen q := by
  unfold State.frozen State.flag
  rw [State.get_cause_ne _ _ (Or.inr (by decide))]
/-- A cause keeps those that are raised. -/
theorem State.bit_cause_keeps (s : State) {p i j : Nat} (hi : i < 32) (h : bit (s.get p R.PG_IRQ_RAW) i = true) :
    bit ((s.cause p j).get p R.PG_IRQ_RAW) i = true := by
  by_cases hf : s.frozen p = true
  · rw [State.cause, State.raise, if_pos hf]
    exact h
  · rw [State.get_cause_self _ _ _ (by simpa using hf)]
    unfold bit at h ⊢
    rw [Nat.testBit_mod_two_pow, Nat.testBit_or, h]
    simp [hi]
theorem State.linkFell_causes (s : State) (up bme : Bool) (hf : s.frozen pHOSTIF = false) :
    (up = true → bit ((s.linkFell up bme).get pHOSTIF R.PG_IRQ_RAW) 3 = true) ∧
    (bme = true → bit ((s.linkFell up bme).get pHOSTIF R.PG_IRQ_RAW) 4 = true) := by
  have h3 := s.bit_cause (i := 3) (by decide) hf
  have h4 := fun u : State => u.bit_cause (p := pHOSTIF) (i := 4) (by decide)
  cases up <;> cases bme
  · exact ⟨nofun, nofun⟩
  · exact ⟨nofun, fun _ => h4 s hf⟩
  · exact ⟨fun _ => h3, nofun⟩
  · exact ⟨fun _ => State.bit_cause_keeps _ (by decide) h3, fun _ => h4 _ ((s.frozen_cause _ _ _).trans hf)⟩
/-- A cause of the endpoint's page asks for its one message, once. -/
theorem State.linkWaits_cause {s : State} (i : Nat) (h : s.host.waiting = [] ∨ s.host.waiting = [s.vecOf pHOSTIF]) :
    (s.cause pHOSTIF i).host.waiting = [] ∨ (s.cause pHOSTIF i).host.waiting = [(s.cause pHOSTIF i).vecOf pHOSTIF] := by
  have hset : ∀ v, (s.set pHOSTIF R.PG_IRQ_RAW v).vecOf pHOSTIF = s.vecOf pHOSTIF := fun v =>
    State.get_set_field _ _ _ (by decide)
  have hvec : (s.cause pHOSTIF i).vecOf pHOSTIF = s.vecOf pHOSTIF := State.get_cause_field _ _ _ (by decide)
  rw [hvec]
  unfold State.cause State.raise
  split
  · exact h
  · unfold State.irqSet
    dsimp only
    split
    · unfold State.request
      dsimp only
      rw [hset]
      split
      · exact h
      · rcases h with h | h
        · exact Or.inr (congrArg (· ++ [s.vecOf pHOSTIF]) h)
        next hc => exact absurd (show ([s.vecOf pHOSTIF] : List Nat).contains (s.vecOf pHOSTIF) = true by simp) (h ▸ hc)
    · exact h
theorem State.linkFell_waiting (s : State) (up bme : Bool) (h : s.host.waiting = []) : (s.linkFell up bme).host.waiting.length ≤ 1 := by
  have h0 : s.host.waiting = [] ∨ s.host.waiting = [s.vecOf pHOSTIF] := Or.inl h
  have hlen : ∀ u : State, u.host.waiting = [] ∨ u.host.waiting = [u.vecOf pHOSTIF] → u.host.waiting.length ≤ 1 := by
    rintro u (hu | hu) <;> simp [hu]
  cases up <;> cases bme
  · exact hlen _ h0
  · exact hlen _ (State.linkWaits_cause 4 h0)
  · exact hlen _ (State.linkWaits_cause 3 h0)
  · exact hlen _ (State.linkWaits_cause 4 (State.linkWaits_cause 3 h0))
theorem pcieKeeps_irqRaw : pcieKeeps R.PG_IRQ_RAW.id = true := by decide

/-- Settles O21: a trained link is `served` with UP, a PCI Express reset `pcieDropped` with the causes that fell. -/
theorem endpointComesAndGoes : Obligations.EndpointComesAndGoes := by
  unfold Obligations.EndpointComesAndGoes
  refine ⟨fun s w v e h => exec_endpoint_inReset w v e h, fun s w v h hs => ?_, fun s e h hs => ?_⟩
  · have hf : (s.served w v).frozen pHOSTIF = false := by
      refine State.frozen_of_unfenced ?_
      rw [State.fenced, State.flag, (s.get_served w v).2.2 _ _ (by decide)]
      exact hs pHOSTIF .hostif 0 (by decide) rfl
    obtain ⟨hw, hv, hbut⟩ := s.get_served w v
    obtain ⟨hup, hrise, hstay⟩ := (s.served w v).setLink_up hf
    have hflag : (s.served w v).flag pHOSTIF R.HOSTIF_LINK_UP = s.flag pHOSTIF R.HOSTIF_LINK_UP := by
      rw [State.flag, State.flag, hbut _ _ (by decide)]
    rw [hflag] at hrise hstay
    rw [exec_endpointReady w v h]
    obtain ⟨r, q, hshape⟩ := (s.served w v).reports_setLink true
    refine ⟨_, rfl, ?_, ?_, ?_, hup, hrise, fun hu => ?_, ?_, ?_⟩
    · rw [hshape]
      rfl
    · rw [State.get_setLink_ne _ _ (Or.inr (by decide)), hw]
    · rw [State.get_setLink_ne _ _ (Or.inr (by decide)), hv]
    · rw [hstay hu]
      exact hbut _ _ (by decide)
    · intro q g hq
      simp only [List.mem_cons, List.not_mem_nil, or_false, forall_eq_or_imp, forall_eq] at hq
      obtain ⟨hq1, hq2, hq3, hq4⟩ := hq
      rw [State.get_setLink_ne _ _ (by by_cases h : q = pHOSTIF <;> simp_all)]
      exact hbut _ _ (by simp [hq1, hq2])
    · rw [hshape]
      rfl
  · have hf : s.pcieDropped.frozen pHOSTIF = false := by
      have hg : ∀ f : Fld, pcieKeeps f.id = true → s.pcieDropped.get pHOSTIF f = s.get pHOSTIF f := fun f hk => by
        rw [State.get_pcieDropped, if_neg (pcieGone_neg hk)]
      refine State.frozen_of_unfenced ?_
      rw [State.fenced, State.flag, hg _ (by decide)]
      exact hs pHOSTIF .hostif 0 (by decide) rfl
    obtain ⟨h3, h4⟩ := State.linkFell_causes _ (s.flag pHOSTIF R.HOSTIF_LINK_UP) (s.flag pHOSTIF R.HOSTIF_LINK_BME) hf
    have hwait := State.linkFell_waiting s.pcieDropped (s.flag pHOSTIF R.HOSTIF_LINK_UP) (s.flag pHOSTIF R.HOSTIF_LINK_BME) rfl
    rw [exec_pcieReset e h]
    obtain ⟨r, q, hshape⟩ := s.pcieDropped.reports_linkFell (s.flag pHOSTIF R.HOSTIF_LINK_UP) (s.flag pHOSTIF R.HOSTIF_LINK_BME)
    refine ⟨_, rfl, ?_, ?_, ?_, ?_, ?_, hwait, fun f hk => ?_, fun f hk hne => ?_, h3, h4, fun i hi f => ?_, fun q f hq hl => ?_, ?_⟩
    · rw [hshape]; rfl
    · rw [hshape]; rfl
    · rw [hshape]; rfl
    · rw [hshape]; rfl
    · rw [hshape]; rfl
    · rw [State.get_linkFell_ne _ _ _ (Or.inr fun he => by rw [he, pcieKeeps_irqRaw] at hk; cases hk), State.get_pcieDropped,
        if_pos (Or.inr ⟨rfl, hk⟩)]
    · rw [State.get_linkFell_ne _ _ _ (Or.inr hne), State.get_pcieDropped, if_neg (pcieGone_neg hk)]
    · rw [State.get_linkFell_ne _ _ _ (Or.inl (by simp [pLANE, pHOSTIF]; omega)), State.get_pcieDropped,
        if_pos (Or.inl (by simp [pLANE]; omega))]
    · rw [State.get_linkFell_ne _ _ _ (Or.inl hq), State.get_pcieDropped, if_neg]
      rintro (h | h)
      · obtain ⟨i, hi, rfl⟩ := List.mem_map.mp h
        exact hl i (List.mem_range.mp hi) rfl
      · exact hq h.1
    · rw [hshape]
      rfl

end Sys2Proof.Machine
end

section
/-! ### Head telemetry (O34): the case that fails -/
open Sys2Proof Sys2Proof.Machine
namespace Sys2Proof.Machine

/-- A device whose head 0 hears telemetry and whose first health word has a bit beyond its 32. -/
def wideHealth : State :=
  let s := ({ State.reset with inReset := false, heldReset := false, heldClock := false, pll := true, lane := [(0, { st := 3 })] } :
    State).set (pHEAD 0) R.PG_CTRL_EN 1
  { s with regs := s.regs.put (pHEAD 0, R.HEAD_HEALTH.id) (2 ^ 32) 0 }
/-- An intact telemetry record with health words of 0. -/
def zeroRecord : List Byte := zeros 112 ++ [0xBD, 0xAD, 0xBE, 0x1B] ++ zeros 4
/-- The first health word of head 0 after a telemetry record. -/
def firstHealthAfter (s : State) : Nat :=
  match exec (.telemetryRecord 0 zeroRecord) s with
  | .next t => t.get (pHEAD 0) R.HEAD_HEALTH
  | _ => 0
theorem zeroRecord_intact : tlmIntact 0 zeroRecord = true := by decide +kernel
theorem wideHealth_stays : firstHealthAfter wideHealth = 2 ^ 32 := by decide +kernel

/-- Refutes O34: a health word that differs from the record's only beyond bit 31 counts as unchanged and is not written, so it
does not read the record's word. -/
theorem not_telemetryIsTaken : ¬ Obligations.TelemetryIsTaken := by
  unfold Obligations.TelemetryIsTaken
  rintro ⟨-, hintact, -⟩
  obtain ⟨t, ht, -, -, -, -, -, -, -, hhealth, -⟩ := hintact wideHealth 0 zeroRecord (by decide +kernel) zeroRecord_intact
  have hword : t.get (pHEAD 0) R.HEAD_HEALTH = 0 := (hhealth 0 (by decide)).trans (by decide +kernel)
  have hstays := wideHealth_stays
  simp only [firstHealthAfter, ht, hword] at hstays
  exact absurd hstays (by decide)

end Sys2Proof.Machine
end

section
/-! ### Eye scans, the data sampler and PRBS (O57) -/
open Sys2Proof Sys2Proof.Machine
namespace Sys2Proof.Machine

/-- `t` is `s` but for registers. -/
def State.wrote (s t : State) : Prop := ∃ r, t = { s with regs := r }
theorem State.wrote_refl (s : State) : s.wrote s := ⟨s.regs, rfl⟩
theorem State.wrote.trans {s t u : State} (h : s.wrote t) (k : t.wrote u) : s.wrote u := by
  obtain ⟨r, rfl⟩ := h
  obtain ⟨r', rfl⟩ := k
  exact ⟨r', rfl⟩
theorem State.wrote_set (s : State) (p : Nat) (f : Fld) (v : Nat) : s.wrote (s.set p f v) := ⟨_, rfl⟩
theorem State.wrote_set64 (s : State) (p : Nat) (lo hi : Fld) (v : Nat) : s.wrote (s.set64 p lo hi v) :=
  (s.wrote_set _ _ _).trans (State.wrote_set _ _ _ _)
theorem State.wrote_addSat (s : State) (p : Nat) (f : Fld) (k : Nat) : s.wrote (s.addSat p f k) := ⟨_, rfl⟩

/-- No give-up cause has risen: PAIR takes no notice (R243). -/
theorem State.pairRise_same {s t : State} (code b : Nat) (h : ∀ c, t.persists c = s.persists c) : s.pairRise t code b = t := by
  have hnone : ((List.range 10).find? fun c => t.persists c && !s.persists c) = none := by
    simp [h]
  unfold State.pairRise
  rw [hnone]
  exact ite_self t
/-- The give-up causes see of a lane only whether it has block lock. -/
theorem State.persists_updLane (s : State) (n : Nat) {g : LaneSt → LaneSt} (h : ∀ x, (g x).block = x.block) (c : Nat) :
    (s.updLane n g).persists c = s.persists c := by
  have hblock : ∀ m, ((s.updLane n g).laneAt m).block = (s.laneAt m).block := fun m => by
    by_cases hm : m = n
    · rw [hm, State.laneAt_upd_self, h]
    · rw [State.laneAt_upd_other _ _ hm]
  have hcounts : ∀ m, (s.updLane n g).laneCounts m = s.laneCounts m := fun m => by
    unfold State.laneCounts
    rw [hblock]
    rfl
  have hlost : (s.updLane n g).lanesLost = s.lanesLost := funext fun b => by
    unfold State.lanesLost
    simp only [hcounts]
  unfold State.persists
  rw [hlost]
  rfl

/-- A lane that keeps its block lock keeps a fence out: what is done to it is all that a LANE_CMD does (R333). -/
theorem State.laneAfter_updLane (s : State) {l : Nat} (hl : l < 128) {g : LaneSt → LaneSt} (h : ∀ x, (g x).block = x.block) :
    s.laneAfter (s.updLane l g) l 0 = s.updLane l g := by
  unfold State.laneAfter
  rw [if_neg (by omega), State.pairRise_same _ _ (s.persists_updLane l h)]
theorem State.laneAfter_self (s : State) {l : Nat} (hl : l < 128) : s.laneAfter s l 0 = s := by
  unfold State.laneAfter
  rw [if_neg (by omega), State.pairRise_same _ _ fun _ => rfl]

theorem scanBit_reserved : ∀ l < 160, 128 ≤ l → andNot (2 ^ 30) (regMask .lane 0x50 (fieldsAt .lane l 0x50)) ≠ 0 ∧
    (fieldsAt .lane l 0x50).all (fun f => f.acc == .ro) = (fieldsAt .lane l 0x50).isEmpty := by decide +kernel
theorem laneCmd_implemented : ∀ l < 128, fieldsAt .lane l 0x50 ≠ [] := by decide +kernel
theorem State.isRelease_other (s : State) (p v : Nat) {off : Nat} (h : off ≠ 4) : s.isRelease p off v = false := by
  unfold State.isRelease
  simp [h]
/-- ESCAN of LANE_CMD is reserved on a lane that is no head lane (R336). -/
theorem State.not_accepts_escan (s : State) (l : Lane) (h : 128 ≤ l.val) : ¬ s.accepts (pLANE l) 0x50 (2 ^ 30) := by
  rintro ⟨-, hkind⟩
  obtain ⟨hmask, hro⟩ := scanBit_reserved l l.isLt h
  unfold State.writeKind at hkind
  rw [blkOf_lane l l.isLt] at hkind
  simp only [s.isRelease_other _ _ (show (0x50 : Nat) ≠ 4 by decide), hro] at hkind
  split_ifs at hkind <;> simp_all
theorem head_of_accepts_escan {s : State} {l : Lane} (h : s.accepts (pLANE l) 0x50 (2 ^ 30)) : l.val < 128 :=
  Nat.lt_of_not_le fun hl => s.not_accepts_escan l hl h

/-- The scan that ESCAN starts. -/
def State.scanStarted (s : State) (l : Nat) : State :=
  s.updLane l fun x => { x with scan := some (s.scanNew l (s.get (pLANE l) R.LANE_ESCAN_CFG_MODE)) }
theorem exec_laneCmdEscan {s : State} {l : Lane} (h : s.accepts (pLANE l) 0x50 (2 ^ 30)) :
    exec (.laneCmdEscan l) s =
      .next (if (s.laneAt l).st == 3 && (s.laneAt l).scan.isNone then s.scanStarted l else s) := by
  have hl := head_of_accepts_escan h
  have hw : s.writeWith (pLANE l) 0x50 (2 ^ 30) (laneCmdAct l (2 ^ 30)) = laneCmdAct l (2 ^ 30) s :=
    s.writeWith_accepted _ _ _ _ h.1 (fun b i hb => by
      obtain ⟨rfl, rfl⟩ : Blk.lane = b ∧ l.val = i := by simpa [blkOf_lane l l.isLt] using hb
      exact laneCmd_implemented l hl) h.2
  have hslips : laneSlips l = true := by simp [laneSlips, hl]
  have hslip : s.laneSlip l (field (2 ^ 30) 0 7) = s := by
    rw [show field (2 ^ 30) 0 7 = 0 by decide]
    unfold State.laneSlip
    exact if_pos (by simp)
  have hb30 : bit (2 ^ 30) 30 = true := by decide
  have hb31 : bit (2 ^ 30) 31 = false := by decide
  change Host.Outcome.next (s.writeWith (pLANE l) 0x50 (2 ^ 30) (laneCmdAct l (2 ^ 30))) = _
  rw [hw]
  unfold laneCmdAct
  simp only [hslips, Bool.not_true, Bool.false_eq_true, if_false, hslip, hb30, hb31, Bool.true_and, Bool.false_and, decide_eq_true hl]
  split
  · exact congrArg _ (s.laneAfter_updLane hl fun _ => rfl)
  · exact congrArg _ (s.laneAfter_self hl)

/-- An opening stands in the lane's result registers (R336). -/
def State.openingSet (s : State) (n : Nat) (r : Nat × Nat × Int × Int) : State :=
  (((s.set (pLANE n) R.LANE_ESCAN_RES_HEIGHT r.1).set (pLANE n) R.LANE_ESCAN_RES_WIDTH r.2.1).set (pLANE n) R.LANE_ESCAN_RES_THR
    (uns 8 r.2.2.1)).set (pLANE n) R.LANE_ESCAN_RES_PHASE (uns 8 r.2.2.2)
/-- What the end of a scan reports: its count, or its opening, which a calibration takes of its own scan (R336, R337, R294). -/
def State.scanReported (s : State) (n : Nat) (x : Scan) (counts : List Nat) : State :=
  if x.mode = 1 then s.set (pLANE n) R.LANE_ESCAN_ERR (counts.headD 0)
  else
    let r := scanResult counts (s.get (pLANE n) R.LANE_ESCAN_CFG_LIM) (sgn 8 (s.ap (pLANE n) R.LANE_SAMP_THR))
      (sgn 8 (s.ap (pLANE n) R.LANE_SAMP_PHASE))
    if (s.laneAt n).calRuns then (s.openingSet n r).laneScanned n (uns 8 r.2.2.2) (uns 8 r.2.2.1) else s.openingSet n r
/-- The lane's scan when one has ended: the one that a calibration waits for, or none. -/
def State.scanNext (s : State) (n : Nat) (x : LaneSt) : LaneSt :=
  if x.calScan then { x with scan := some (s.scanNew n 0), calScan := false, calRuns := true }
  else { x with scan := none, calRuns := false }
theorem exec_escanEnd_none {s : State} {l : Lane} (h : (s.laneAt l).scan = none) (counts : List Nat) :
    exec (.escanEnd l counts) s = .next s := by
  change execEscanEnd l counts s = _
  unfold execEscanEnd
  simp only [h]
theorem exec_escanEnd {s : State} {l : Lane} {x : Scan} (h : (s.laneAt l).scan = some x) (counts : List Nat) :
    exec (.escanEnd l counts) s = .next (if x.over s.tick then
      let t := (s.scanReported l x (counts.map (min (2 ^ x.dwell)))).cause (pLANE l) 5
      t.updLane l (t.scanNext l) else s) := by
  change execEscanEnd l counts s = _
  unfold execEscanEnd
  simp only [h]
  cases x.over s.tick <;> rfl
theorem Scan.over_iff (x : Scan) (now : Nat) :
    x.over now = true ↔ (if x.mode = 1 then 1 else 1024) * 2 ^ x.dwell ≤ 22 * (now - x.since) := by
  simp [Scan.over, Scan.points]
theorem State.frozen_lane (s : State) (l : Lane) : s.frozen (pLANE l) = false := by
  unfold State.frozen
  rw [blkOf_lane l l.isLt, Bool.and_false]

section
variable (s : State) (n : Nat) (r : Nat × Nat × Int × Int)
theorem uns8_mod (v : Int) : uns 8 v % 2 ^ 8 = uns 8 v := by
  have h := uns_cast 8 v
  omega
theorem State.get_openingSet : (s.openingSet n r).get (pLANE n) R.LANE_ESCAN_RES_HEIGHT = r.1 % 256 ∧
    (s.openingSet n r).get (pLANE n) R.LANE_ESCAN_RES_WIDTH = r.2.1 % 256 ∧
    (s.openingSet n r).get (pLANE n) R.LANE_ESCAN_RES_THR = uns 8 r.2.2.1 ∧
    (s.openingSet n r).get (pLANE n) R.LANE_ESCAN_RES_PHASE = uns 8 r.2.2.2 := by
  unfold State.openingSet
  refine ⟨?_, ?_, ?_, ?_⟩
  · rw [State.get_set_field _ _ _ (by decide), State.get_set_field _ _ _ (by decide), State.get_set_field _ _ _ (by decide),
      State.get_set_self]
    rfl
  · rw [State.get_set_field _ _ _ (by decide), State.get_set_field _ _ _ (by decide), State.get_set_self]
    rfl
  · rw [State.get_set_field _ _ _ (by decide), State.get_set_self]
    exact uns8_mod _
  · rw [State.get_set_self]
    exact uns8_mod _
theorem State.wrote_openingSet : s.wrote (s.openingSet n r) :=
  (((s.wrote_set _ _ _).trans (State.wrote_set _ _ _ _)).trans (State.wrote_set _ _ _ _)).trans (State.wrote_set _ _ _ _)
theorem State.regsBut_openingSet : s.regsBut (s.openingSet n r) [(pLANE n, R.LANE_ESCAN_RES_HEIGHT), (pLANE n, R.LANE_ESCAN_RES_WIDTH),
    (pLANE n, R.LANE_ESCAN_RES_THR), (pLANE n, R.LANE_ESCAN_RES_PHASE)] := by
  unfold State.openingSet
  repeat' first
    | with_reducible exact State.regsBut_refl _ _
    | with_reducible refine State.regsBut_set ?_ _ (by simp)
end
/-- The registers that the end of a scan writes. -/
def scanFields (p mode : Nat) : List (Nat × Fld) :=
  if mode = 1 then [(p, R.LANE_ESCAN_ERR)]
  else [(p, R.LANE_ESCAN_RES_HEIGHT), (p, R.LANE_ESCAN_RES_WIDTH), (p, R.LANE_ESCAN_RES_THR), (p, R.LANE_ESCAN_RES_PHASE)]
theorem scanFields_settings (p mode : Nat) {f : Fld}
    (h : f ∈ [R.LANE_ESCAN_CFG_DWELL, R.LANE_ESCAN_PT_THR, R.LANE_ESCAN_PT_PHASE]) : ∀ e ∈ scanFields p mode, f.id ≠ e.2.id := by
  have hid : ∀ f ∈ [R.LANE_ESCAN_CFG_DWELL, R.LANE_ESCAN_PT_THR, R.LANE_ESCAN_PT_PHASE], ∀ g ∈ [R.LANE_ESCAN_ERR,
      R.LANE_ESCAN_RES_HEIGHT, R.LANE_ESCAN_RES_WIDTH, R.LANE_ESCAN_RES_THR, R.LANE_ESCAN_RES_PHASE], f.id ≠ g.id := by decide
  intro e he
  refine hid f h e.2 ?_
  unfold scanFields at he
  split at he <;> simp only [List.mem_cons, List.not_mem_nil, or_false] at he
  · rw [he]
    simp
  · rcases he with rfl | rfl | rfl | rfl <;> simp
theorem State.scanReported_shape (s : State) (n : Nat) (x : Scan) (counts : List Nat) :
    ∃ r c, s.scanReported n x counts = { s with regs := r, calst := c } := by
  unfold State.scanReported
  generalize scanResult counts _ _ _ = r
  obtain ⟨g, hg⟩ := s.wrote_openingSet n r
  split_ifs
  · exact ⟨_, s.calst, rfl⟩
  · change ∃ r' c, (s.openingSet n r).laneScanned n _ _ = _
    rw [hg]
    exact ⟨g, _, rfl⟩
  · exact ⟨g, s.calst, hg⟩
theorem State.regsBut_scanReported (s : State) (n : Nat) (x : Scan) (counts : List Nat) :
    s.regsBut (s.scanReported n x counts) (scanFields (pLANE n) x.mode) := by
  unfold State.scanReported scanFields
  generalize scanResult counts _ _ _ = r
  split_ifs
  · exact State.regsBut_set (State.regsBut_refl _ _) _ (by simp)
  · exact s.regsBut_openingSet n r
  · exact s.regsBut_openingSet n r
theorem State.scanReported_count (s : State) (n : Nat) {x : Scan} (counts : List Nat) (h : x.mode = 1) :
    (s.scanReported n x counts).get (pLANE n) R.LANE_ESCAN_ERR = counts.headD 0 % 2 ^ 32 ∧
      (s.scanReported n x counts).calst = s.calst := by
  unfold State.scanReported
  rw [if_pos h]
  exact ⟨s.get_set_self _ _ _, rfl⟩
theorem State.scanReported_opening (s : State) (n : Nat) {x : Scan} (counts : List Nat) (h : x.mode ≠ 1) :
    ∀ r, r = scanResult counts (s.get (pLANE n) R.LANE_ESCAN_CFG_LIM) (sgn 8 (s.ap (pLANE n) R.LANE_SAMP_THR))
      (sgn 8 (s.ap (pLANE n) R.LANE_SAMP_PHASE)) →
    (∀ f, (s.scanReported n x counts).get (pLANE n) f = (s.openingSet n r).get (pLANE n) f) ∧
    ((s.laneAt n).calRuns = false → (s.scanReported n x counts).calst = s.calst) ∧
    ((s.laneAt n).calRuns = true → s.get pCAL R.CAL_STAT_STEP = 2 → (s.scanReported n x counts).calst =
      { s.calst with r2 := s.calst.r2.set n (1 + uns 8 r.2.2.2 + 256 * uns 8 r.2.2.1) }) ∧
    ((s.laneAt n).calRuns = true → s.get pCAL R.CAL_STAT_STEP ≠ 2 → (s.scanReported n x counts).calst =
      { s.calst with r1 := s.calst.r1.set n (1 + uns 8 r.2.2.2 + 256 * uns 8 r.2.2.1) }) := by
  rintro r rfl
  unfold State.scanReported
  rw [if_neg h]
  generalize scanResult counts _ _ _ = r
  change (∀ f, State.get (if (s.laneAt n).calRuns then (s.openingSet n r).laneScanned n (uns 8 r.2.2.2) (uns 8 r.2.2.1) else
    s.openingSet n r) (pLANE n) f = _) ∧ (_ → State.calst (if (s.laneAt n).calRuns then (s.openingSet n r).laneScanned n
    (uns 8 r.2.2.2) (uns 8 r.2.2.1) else s.openingSet n r) = _) ∧ (_ → _ → State.calst (if (s.laneAt n).calRuns then
    (s.openingSet n r).laneScanned n (uns 8 r.2.2.2) (uns 8 r.2.2.1) else s.openingSet n r) = _) ∧ (_ → _ → State.calst
    (if (s.laneAt n).calRuns then (s.openingSet n r).laneScanned n (uns 8 r.2.2.2) (uns 8 r.2.2.1) else s.openingSet n r) = _)
  have hstep : (s.openingSet n r).get pCAL R.CAL_STAT_STEP = s.get pCAL R.CAL_STAT_STEP :=
    s.regsBut_openingSet n r _ _ (by
      simp only [List.forall_mem_cons]
      exact ⟨.inr (by decide), .inr (by decide), .inr (by decide), .inr (by decide), by simp⟩)
  obtain ⟨g, hg⟩ := s.wrote_openingSet n r
  have hcal : (s.openingSet n r).calst = s.calst := by rw [hg]
  generalize s.openingSet n r = t at hstep hcal ⊢
  cases (s.laneAt n).calRuns with
  | false => exact ⟨fun _ => rfl, fun _ => hcal, fun h => Bool.noConfusion h, fun h => Bool.noConfusion h⟩
  | true =>
    refine ⟨fun _ => rfl, fun h => Bool.noConfusion h, fun _ h2 => ?_, fun _ h2 => ?_⟩
    · simp only [State.laneScanned, hstep, h2, hcal, if_true]
    · simp only [State.laneScanned, hstep, h2, hcal, if_true, if_false]

/-- The end of a scan, of either kind: its cause, the lane's next scan and what it leaves. -/
theorem State.scanEnded_spec (s : State) (l : Lane) (x : Scan) (counts : List Nat) :
    ∃ t u, t = s.scanReported l x counts ∧ u = (t.cause (pLANE l) 5).updLane l ((t.cause (pLANE l) 5).scanNext l) ∧
      u.laneAt l = s.scanNext l (s.laneAt l) ∧ bit (u.get (pLANE l) R.PG_IRQ_RAW) 5 = true ∧
      (∀ n, n ≠ l.val → u.laneAt n = s.laneAt n) ∧ u.calst = t.calst ∧
      ({ u with regs := s.regs, lane := s.lane, calst := s.calst, host := s.host } : State) = s ∧
      (∀ f : Fld, f.id ≠ R.PG_IRQ_RAW.id → u.get (pLANE l) f = t.get (pLANE l) f) ∧
      s.regsBut u (scanFields (pLANE l) x.mode ++ [(pLANE l, R.PG_IRQ_RAW)]) := by
  obtain ⟨r, c, hshape⟩ := s.scanReported_shape l x counts
  have hbut := s.regsBut_scanReported l x counts
  generalize s.scanReported l x counts = t at hshape hbut
  obtain ⟨r', w, hcause⟩ := t.reports_cause (pLANE l) 5
  have hget : ∀ f : Fld, f.id ≠ R.PG_IRQ_RAW.id → (t.cause (pLANE l) 5).get (pLANE l) f = t.get (pLANE l) f := fun f hf =>
    t.get_cause_field (pLANE l) 5 hf
  have hkept : ∀ f : Fld, (∀ e ∈ scanFields (pLANE l) x.mode, f.id ≠ e.2.id) → f.id ≠ R.PG_IRQ_RAW.id →
      (t.cause (pLANE l) 5).get (pLANE l) f = s.get (pLANE l) f := fun f hf hraw =>
    (hget f hraw).trans (hbut _ _ fun e he => Or.inr (hf e he))
  have hat : ∀ n, (t.cause (pLANE l) 5).laneAt n = s.laneAt n := fun n => by
    rw [hcause, hshape]
    rfl
  have hnew : (t.cause (pLANE l) 5).scanNew l 0 = s.scanNew l 0 := by
    have htick : (t.cause (pLANE l) 5).tick = s.tick := by
      rw [hcause, hshape]
    unfold State.scanNew
    rw [htick, hkept _ (scanFields_settings _ _ (by simp)) (by decide), hkept _ (scanFields_settings _ _ (by simp)) (by decide),
      hkept _ (scanFields_settings _ _ (by simp)) (by decide)]
  refine ⟨t, _, rfl, rfl, ?_, ?_, fun n hn => ?_, ?_, ?_, fun f hf => hget f hf, ?_⟩
  · rw [State.laneAt_upd_self, hat]
    unfold State.scanNext
    rw [hnew]
  · exact t.bit_cause (by decide) (t.frozen_lane l)
  · rw [State.laneAt_upd_other _ _ hn, hat]
  · rw [hcause]
    rfl
  · rw [hcause, hshape]
    rfl
  · exact State.regsBut_cause (State.regsBut_mono hbut fun _ h => List.mem_append_left _ h) _ (by simp)

/-- One step of a sampler's setting towards its register (R338). -/
def sampToward (v w : Int) : Int := if v < w then v + 1 else if w < v then v - 1 else v
theorem exec_samplerStep (s : State) (l : Lane) :
    exec (.samplerStep l) s = .next (if 128 ≤ l.val || s.tick < (s.laneAt l).lastStep + 192 then s else s.updLane l fun x =>
      if x.phase ≠ sgn 8 (s.ap (pLANE l) R.LANE_SAMP_PHASE) then
        { x with phase := sampToward x.phase (sgn 8 (s.ap (pLANE l) R.LANE_SAMP_PHASE)), lastStep := s.tick }
      else if x.thr ≠ sgn 8 (s.ap (pLANE l) R.LANE_SAMP_THR) then
        { x with thr := sampToward x.thr (sgn 8 (s.ap (pLANE l) R.LANE_SAMP_THR)), lastStep := s.tick }
      else x) := rfl

theorem exec_prbsSync (s : State) (l : Lane) (sync : Bool) (errs : Nat) :
    exec (.prbsSync l ⟨sync, errs⟩) s = .next (
      if (s.laneAt l).st ≠ 6 || !s.flag (pLANE l) R.LANE_PRBS_CHK then s
      else if s.flag (pLANE l) R.LANE_PRBS_STAT then
        (if sync || errs < 64 then s.prbsCount l else s.prbsStop l).addSat (pLANE l) R.LANE_PRBS_ERR errs
      else if sync then (s.updLane l fun x => { x with prbsAt := s.tick }).set (pLANE l) R.LANE_PRBS_STAT 1
      else s) := rfl
/-- The PRBS bits counted up to now. -/
theorem State.prbsCount_spec (s : State) (l : Nat) (h : s.flag (pLANE l) R.LANE_PRBS_STAT = true) :
    (s.prbsCount l).get64 (pLANE l) R.LANE_PRBS_BITS_LO R.LANE_PRBS_BITS_HI =
      (s.get64 (pLANE l) R.LANE_PRBS_BITS_LO R.LANE_PRBS_BITS_HI + 165 * (s.tick - (s.laneAt l).prbsAt)) % 2 ^ 64 ∧
    (s.prbsCount l).laneAt l = { s.laneAt l with prbsAt := s.tick } ∧
    ({ s.prbsCount l with regs := s.regs, lane := s.lane } : State) = s ∧
    (∀ p (f : Fld), f.id ≠ R.LANE_PRBS_BITS_LO.id ∧ f.id ≠ R.LANE_PRBS_BITS_HI.id → (s.prbsCount l).get p f = s.get p f) ∧
    s.regsBut (s.prbsCount l) [(pLANE l, R.LANE_PRBS_BITS_LO), (pLANE l, R.LANE_PRBS_BITS_HI)] := by
  have hcount : s.prbsCount l = (s.set64 (pLANE l) R.LANE_PRBS_BITS_LO R.LANE_PRBS_BITS_HI
      (s.get64 (pLANE l) R.LANE_PRBS_BITS_LO R.LANE_PRBS_BITS_HI + 165 * (s.tick - (s.laneAt l).prbsAt))).updLane l
        (fun x => { x with prbsAt := s.tick }) := if_pos h
  rw [hcount]
  generalize s.get64 (pLANE l) R.LANE_PRBS_BITS_LO R.LANE_PRBS_BITS_HI + 165 * (s.tick - (s.laneAt l).prbsAt) = v
  have hget64 := s.get64_set64 (pLANE l) v (show R.LANE_PRBS_BITS_LO.id ≠ R.LANE_PRBS_BITS_HI.id by decide) rfl rfl rfl
  have hbut : s.regsBut (s.set64 (pLANE l) R.LANE_PRBS_BITS_LO R.LANE_PRBS_BITS_HI v)
      [(pLANE l, R.LANE_PRBS_BITS_LO), (pLANE l, R.LANE_PRBS_BITS_HI)] :=
    State.regsBut_set (State.regsBut_set (State.regsBut_refl _ _) _ (by simp)) _ (by simp)
  have hother := fun p (f : Fld) (hf : f.id ≠ R.LANE_PRBS_BITS_LO.id ∧ f.id ≠ R.LANE_PRBS_BITS_HI.id) =>
    s.get_set64_ne (pLANE l) v (q := p) hf
  obtain ⟨g, hg⟩ := s.wrote_set64 (pLANE l) R.LANE_PRBS_BITS_LO R.LANE_PRBS_BITS_HI v
  rw [hg] at hget64 hbut hother ⊢
  exact ⟨hget64, State.laneAt_upd_self _ _ _, rfl, hother, hbut⟩

/-- Settles O57: a scan by `scanEnded_spec` and its two kinds of report, the sampler by its step, PRBS by `prbsCount_spec`. -/
theorem laneMeasurements : Obligations.LaneMeasurements := by
  unfold Obligations.LaneMeasurements
  rintro s l x rfl
  refine ⟨s.not_accepts_escan l, fun h => ⟨fun hst hscan => ?_, fun hno => ?_⟩, fun h counts => exec_escanEnd_none h counts,
    fun m counts hm => ⟨fun hlt => ?_, fun hle => ?_⟩, fun h => ?_, ?_, fun sync errs => ⟨fun h => ?_, fun hst hchk => ⟨fun hstat hs => ?_, fun hstat => ?_⟩⟩⟩
  · rw [exec_laneCmdEscan h, if_pos (by simp [hst, hscan])]
    exact ⟨_, rfl, s.laneAt_upd_self _ _, fun n hn => s.laneAt_upd_other _ hn, rfl⟩
  · have hstay : ((s.laneAt l).st == 3 && (s.laneAt l).scan.isNone) = false := by
      rcases hno with hno | hno
      · simp [hno]
      · simp [Option.isNone_eq_false_iff, Option.isSome_iff_ne_none, hno]
    rw [exec_laneCmdEscan h, hstay]
    rfl
  · have hrun : m.over s.tick = false := by
      rw [Bool.eq_false_iff, Ne, m.over_iff]
      exact Nat.not_le.mpr hlt
    rw [exec_escanEnd hm, hrun]
    rfl
  · rw [exec_escanEnd hm, (m.over_iff _).mpr hle]
    obtain ⟨t, u, ht, hu, hlane, hraw, hothers, hcal, hframe, hget, hbut⟩ :=
      s.scanEnded_spec l m (counts.map (min (2 ^ m.dwell)))
    refine ⟨u, by rw [hu, ht]; rfl, hlane, hraw, hothers, hframe, fun hmode => ?_, fun hmode r hr => ?_⟩
    · obtain ⟨hcount, hc⟩ := s.scanReported_count l (counts.map (min (2 ^ m.dwell))) hmode
      refine ⟨?_, by rw [hcal, ht, hc], by simpa [scanFields, hmode] using hbut⟩
      rw [hget _ (by decide), ht, hcount]
      cases counts <;> simp
    · obtain ⟨ho, hc⟩ := s.scanReported_opening l (counts.map (min (2 ^ m.dwell))) hmode r hr
      obtain ⟨h1, h2, h3, h4⟩ := s.get_openingSet l r
      rw [hcal, hget _ (by decide), hget _ (by decide), hget _ (by decide), hget _ (by decide), ht, ho, ho, ho, ho]
      exact ⟨h1, h2, h3, h4, hc.1, hc.2.1, hc.2.2, by simpa [scanFields, hmode] using hbut⟩
  · rw [exec_samplerStep, if_pos (by simpa using h)]
  · rintro ph th rfl rfl hl hlast
    rw [exec_samplerStep, if_neg (by simp; omega)]
    refine ⟨_, rfl, fun n hn => s.laneAt_upd_other _ hn, rfl, ?_, ?_, ?_, ?_, ?_⟩
    · intro hp
      rw [State.laneAt_upd_self, if_pos (by omega), sampToward, if_pos hp]
    · intro hp
      rw [State.laneAt_upd_self, if_pos (by omega), sampToward, if_neg (by omega), if_pos hp]
    · intro hp ht
      rw [State.laneAt_upd_self, if_neg (by omega), if_pos (by omega), sampToward, if_pos ht]
    · intro hp ht
      rw [State.laneAt_upd_self, if_neg (by omega), if_pos (by omega), sampToward, if_neg (by omega), if_pos ht]
    · intro hp ht
      rw [State.laneAt_upd_self, if_neg (by omega), if_neg (by omega)]
  · rw [exec_prbsSync]
    rcases h with h | h | ⟨h, hs⟩
    · simp [h]
    · simp [h]
    · simp [h, hs]
  · rw [exec_prbsSync, if_neg (by simp [hst, hchk]), if_neg (by simp [hstat]), if_pos hs]
    exact ⟨_, rfl, State.get_set_self _ _ _ _, s.laneAt_upd_self l fun x => { x with prbsAt := s.tick },
      State.regsBut_set (State.regsBut_of_regs (State.regsBut_refl s _) rfl) _ (by simp), rfl⟩
  · obtain ⟨hbits, hlane, hframe, hget, hbut⟩ := s.prbsCount_spec l hstat
    have hkeep : ∀ t : State, t = s.prbsCount l ∨ t = s.prbsStop l →
        t.get64 (pLANE l) R.LANE_PRBS_BITS_LO R.LANE_PRBS_BITS_HI = (s.prbsCount l).get64 (pLANE l) R.LANE_PRBS_BITS_LO R.LANE_PRBS_BITS_HI ∧
        t.get (pLANE l) R.LANE_PRBS_ERR = s.get (pLANE l) R.LANE_PRBS_ERR ∧ t.laneAt l = (s.prbsCount l).laneAt l ∧
        s.regsBut t [(pLANE l, R.LANE_PRBS_STAT), (pLANE l, R.LANE_PRBS_BITS_LO), (pLANE l, R.LANE_PRBS_BITS_HI),
            (pLANE l, R.LANE_PRBS_ERR)] ∧ ({ t with regs := s.regs, lane := s.lane } : State) = s := by
      have hbut' := State.regsBut_mono hbut (m := [(pLANE l, R.LANE_PRBS_STAT), (pLANE l, R.LANE_PRBS_BITS_LO),
        (pLANE l, R.LANE_PRBS_BITS_HI), (pLANE l, R.LANE_PRBS_ERR)]) (by simp)
      rintro t (rfl | rfl)
      · exact ⟨rfl, hget _ _ (by decide), rfl, hbut', hframe⟩
      · unfold State.prbsStop
        refine ⟨?_, ?_, rfl, State.regsBut_set hbut' _ (by simp), ?_⟩
        · unfold State.get64
          rw [State.get_set_field _ _ _ (by decide), State.get_set_field _ _ _ (by decide)]
        · rw [State.get_set_field _ _ _ (by decide), hget _ _ (by decide)]
        · obtain ⟨g, hg⟩ := State.wrote_set (s.prbsCount l) (pLANE l) R.LANE_PRBS_STAT 0
          rw [hg]
          exact hframe
    rw [exec_prbsSync, if_neg (by simp [hst, hchk]), if_pos hstat]
    generalize hchoice : (if (sync || decide (errs < 64)) = true then s.prbsCount l else s.prbsStop l) = t
    obtain ⟨h64, herr, hl, hb, hf⟩ := hkeep t (by rw [← hchoice]; split <;> simp)
    refine ⟨_, rfl, fun hs he => ?_, fun hs => ?_, ?_, ?_, ?_, State.regsBut_addSat hb _ (by simp), hf⟩
    · rw [State.get_addSat_field _ _ _ (by decide), ← hchoice, if_neg (by simp [hs]; omega)]
      exact State.get_set_self _ _ _ _
    · rw [State.get_addSat_field _ _ _ (by decide), ← hchoice, if_pos (by simpa using hs)]
      exact hget _ _ (by decide)
    · rw [← hbits, ← h64]
      unfold State.get64
      rw [State.get_addSat_field _ _ _ (by decide), State.get_addSat_field _ _ _ (by decide)]
    · rw [← herr]
      exact State.get_addSat_self _ _ _ _
    · exact hl.trans hlane

end Sys2Proof.Machine
end

section
/-! ### The timers of the pace controller (O41) and of the pair (O42, O48) -/
open Sys2Proof Sys2Proof.Machine
namespace Sys2Proof.Machine

/-- The PWM period that starts now: SPD_CEIL is released from its start where its duty is not 0 (R218). -/
theorem State.spdCeil_pwmStart (s : State) (h : s.working pBREATH = true) (hr : s.inReset = false) :
    s.pwmStart.spdCeil = decide (s.pwmH % 2 ^ 14 ≠ 0) := by
  simp only [State.working, Bool.and_eq_true, Bool.not_eq_true'] at h
  obtain ⟨⟨hen, -⟩, hres⟩ := h
  have hpwm : s.pwmStart.get pBREATH R.BREATH_PWM = s.pwmH % 2 ^ 14 := s.get_set_self _ _ _
  have hen' : s.pwmStart.enabled pBREATH = true :=
    (congrFun (s.enabled_set pBREATH (f := R.BREATH_PWM) s.pwmH (by decide)) pBREATH).trans hen
  have hres' : s.pwmStart.resetting pBREATH = s.resetting pBREATH := by
    change ((s.set pBREATH R.BREATH_PWM s.pwmH).held pBREATH || _ || _) = _
    unfold State.resetting State.held State.shut State.flag
    rw [State.get_set_ne _ _ (Or.inl (by decide))]
    rfl
  unfold State.spdCeil
  rw [hpwm, hen', hres', hres, show s.pwmStart.inReset = false from hr]
  simp [State.pwmStart, Nat.pos_iff_ne_zero]

/-- Settles O41, an event at a time. -/
theorem breathTimers : Obligations.BreathTimers := by
  unfold Obligations.BreathTimers
  intro s
  have hperiod : exec .pwmPeriod s = .next (if !s.working pBREATH || s.tick < s.breath.pwmStart + 15625 then s else s.pwmStart) := rfl
  have hwarn : ∀ w, s.breath.warnUntil = w → exec .underrunWarnExpiry s =
      .next (match w with | none => s | some t => if s.tick < t then s else { s with breath := { s.breath with warnUntil := none } }) := by
    rintro w rfl
    rfl
  have hpeer : exec .peerCeilingExpiry s = .next (if s.flag pBREATH R.BREATH_PEER_VALID && s.breath.peerUntil ≤ s.tick then
      s.set pBREATH R.BREATH_PEER_VALID 0 else s) := rfl
  refine ⟨fun hw ht => ?_, fun h => ?_, fun h => hwarn none h, fun u hu => ⟨fun ht => ?_, fun ht => ?_⟩, fun hv ht => ?_, fun h => ?_⟩
  · rw [hperiod, if_neg (by simp [hw]; omega)]
    exact ⟨_, rfl, s.get_set_self _ _ _, rfl, s.spdCeil_pwmStart hw,
      State.regsBut_of_regs (State.regsBut_set (State.regsBut_refl s _) s.pwmH (by simp)) rfl, rfl⟩
  · rw [hperiod, if_pos (by simpa using h)]
  · rw [hwarn _ hu]
    simp only [if_neg (Nat.not_lt.mpr ht)]
  · rw [hwarn _ hu]
    simp only [if_pos ht]
  · rw [hpeer, if_pos (by simp [hv, ht])]
    exact ⟨_, rfl, s.get_set_self _ _ _, State.regsBut_set (State.regsBut_refl _ _) _ (by simp), rfl⟩
  · rw [hpeer, if_neg (by rcases h with h | h <;> simp [h])]

/-! ### What PAIR changes of itself -/

/-- `t` is `s` but for registers, PAIR's own state and the messages that wait. -/
def State.pairMoves (s t : State) : Prop := ∃ r p w, t = { s with regs := r, pair := p, host := { s.host with waiting := w } }
theorem State.pairMoves_refl (s : State) : s.pairMoves s := ⟨_, _, _, rfl⟩
theorem State.pairMoves.trans {s t u : State} (h : s.pairMoves t) (k : t.pairMoves u) : s.pairMoves u := by
  obtain ⟨r, p, w, rfl⟩ := h
  obtain ⟨r', p', w', rfl⟩ := k
  exact ⟨r', p', w', rfl⟩
theorem State.reports.pairMoves {s t : State} (h : s.reports t) : s.pairMoves t := by
  obtain ⟨r, w, rfl⟩ := h
  exact ⟨r, s.pair, w, rfl⟩
theorem State.wrote.pairMoves {s t : State} (h : s.wrote t) : s.pairMoves t := by
  obtain ⟨r, rfl⟩ := h
  exact ⟨r, s.pair, s.host.waiting, rfl⟩
theorem State.pairMoves_updPair (s : State) (g : PairSt → PairSt) : s.pairMoves (s.updPair g) := ⟨_, _, _, rfl⟩
theorem State.pairMoves.frame {s t : State} (h : s.pairMoves t) :
    ({ t with regs := s.regs, pair := s.pair, host := s.host } : State) = s := by
  obtain ⟨r, p, w, rfl⟩ := h
  rfl

/-- A change of registers that are neither EN, FENCED nor SHUT leaves what runs. -/
theorem State.working_congr {s t : State} (hs : t.srsts = s.srsts) (hh : t.heldReset = s.heldReset)
    (h : ∀ f ∈ [R.PG_CTRL_EN, R.PG_FENCE_FENCED, R.THERM_STAT_SHUT], ∀ p, t.get p f = s.get p f) : t.working = s.working := by
  simp only [List.forall_mem_cons, List.not_mem_nil, false_imp_iff, implies_true, and_true] at h
  obtain ⟨hen, hfen, hshut⟩ := h
  funext q
  simp only [State.working, State.enabled, State.fenced, State.resetting, State.held, State.shut, State.flag, hen, hfen, hshut, hs, hh]

section
variable {s : State} (h : s.pairOn = true)
include h
theorem State.pairEn_of_pairOn : s.straps.pairEn = true := by
  simp only [State.pairOn, Bool.and_eq_true] at h
  exact h.1
theorem State.working_of_pairOn : s.working pPAIR = true := by
  simp only [State.pairOn, Bool.and_eq_true] at h
  exact h.2
theorem State.frozen_of_pairOn : s.frozen pPAIR = false := by
  have hw := State.working_of_pairOn h
  simp only [State.working, Bool.and_eq_true, Bool.not_eq_true'] at hw
  exact State.frozen_of_unfenced hw.1.2
theorem State.pairState_of_pairOn : s.pairState = s.get pPAIR R.PAIR_STAT_STATE := if_pos (State.pairEn_of_pairOn h)
/-- PAIR sends to the lanes that hold block lock, with the next message number (R228). -/
theorem State.crookSend_eq (typ : Nat) (payload : List Byte) : s.crookSend typ payload = { s with
    pair := { s.pair with mseq := s.nextMseq }
    outs := if s.crookLanes = 0 then s.outs else .crook typ (crookBody s s.nextMseq payload) :: s.outs } := by
  unfold State.crookSend
  rw [h]
  change (if s.crookLanes = 0 then s.updPair _ else (s.updPair _).emit _) = _
  split <;> rfl
end
theorem State.crookSend_off {s : State} (h : s.pairOn = false) (typ : Nat) (payload : List Byte) : s.crookSend typ payload = s := by
  unfold State.crookSend
  rw [h]
  rfl

/-- The error of a page that is not fenced: counted, and the first since the last clear recorded (R40). -/
theorem State.err_recorded (s : State) {p : Nat} (h : s.frozen p = false) (code src lo hi dir : Nat) :
    (s.err p code src lo hi dir).get p R.PG_ERR_CNT = min (s.get p R.PG_ERR_CNT + 1) (2 ^ R.PG_ERR_CNT.w - 1) ∧
    (s.get p R.PG_ERR_CNT = 0 → (s.err p code src lo hi dir).get p R.PG_ERR_INFO_CODE = code % 2 ^ R.PG_ERR_INFO_CODE.w ∧
      (s.err p code src lo hi dir).get p R.PG_ERR_INFO_SRC = src % 2 ^ R.PG_ERR_INFO_SRC.w) := by
  rw [State.err, if_neg (by simp [h])]
  unfold State.errCount
  refine ⟨?_, fun h0 => ⟨?_, ?_⟩⟩
  · rw [State.get_cause_field _ _ _ (by decide), State.get_incSat_self]
    split
    · rw [State.get_set_field _ _ _ (by decide), State.get_set_field _ _ _ (by decide), State.get_set_field _ _ _ (by decide),
        State.get_set_field _ _ _ (by decide), State.get_set_field _ _ _ (by decide)]
    · rfl
  · rw [State.get_cause_field _ _ _ (by decide), State.get_incSat_field _ _ (by decide), if_pos h0, State.get_set_self]
  · rw [State.get_cause_field _ _ _ (by decide), State.get_incSat_field _ _ (by decide), if_pos h0,
      State.get_set_field _ _ _ (by decide), State.get_set_field _ _ _ (by decide), State.get_set_self]

/-! ### The pair state -/

/-- A change of the pair state: STATE and cause 3, and what PAIR remembers of CLAIM left. -/
theorem State.setPairState_spec (s : State) {v : Nat} (hv : v < 8) (hp : s.straps.pairEn = true) (hf : s.frozen pPAIR = false) :
    (s.setPairState v).pairState = v ∧ (s.pairState ≠ v → bit ((s.setPairState v).get pPAIR R.PG_IRQ_RAW) 3 = true) ∧
    s.regsBut (s.setPairState v) [(pPAIR, R.PAIR_STAT_STATE), (pPAIR, R.PG_IRQ_RAW)] ∧
    ∃ r g w, s.setPairState v = { s with regs := r, pair := { s.pair with gaveUp := g }, host := { s.host with waiting := w } } := by
  have hst : s.pairState = s.get pPAIR R.PAIR_STAT_STATE := if_pos hp
  unfold State.setPairState
  by_cases h : s.get pPAIR R.PAIR_STAT_STATE = v
  · rw [if_pos h]
    exact ⟨hst.trans h, fun hn => absurd (hst.trans h) hn, State.regsBut_refl _ _, s.regs, s.pair.gaveUp, s.host.waiting, rfl⟩
  rw [if_neg h]
  dsimp only
  generalize hu : State.updPair (s.set pPAIR R.PAIR_STAT_STATE v)
    (fun p => { p with gaveUp := v != 7 && (p.gaveUp || s.get pPAIR R.PAIR_STAT_STATE == 7) }) = u
  have hregs : s.regsBut u [(pPAIR, R.PAIR_STAT_STATE), (pPAIR, R.PG_IRQ_RAW)] := by
    rw [← hu]
    exact State.regsBut_of_regs (State.regsBut_set (State.regsBut_refl s _) v (by simp)) rfl
  have hget : u.get pPAIR R.PAIR_STAT_STATE = v % 2 ^ R.PAIR_STAT_STATE.w := by
    rw [← hu]
    exact s.get_set_self pPAIR R.PAIR_STAT_STATE v
  have hshape : ∃ r g, u = { s with regs := r, pair := { s.pair with gaveUp := g } } := by
    rw [← hu]
    exact ⟨(s.set pPAIR R.PAIR_STAT_STATE v).regs, _, rfl⟩
  clear hu
  have hstraps : u.straps = s.straps := by
    obtain ⟨r, g, rfl⟩ := hshape
    rfl
  have hfu : u.frozen pPAIR = false := by
    unfold State.frozen State.flag at hf ⊢
    rwa [hregs _ _ (by simp only [List.forall_mem_cons]; exact ⟨.inr (by decide), .inr (by decide), by simp⟩)]
  obtain ⟨r, w, hrep⟩ := u.reports_cause pPAIR 3
  refine ⟨?_, fun _ => u.bit_cause (by decide) hfu, State.regsBut_cause hregs _ (by simp), ?_⟩
  · rw [State.pairState, if_pos (by rw [hrep]; exact hstraps ▸ hp), State.get_cause_field _ _ _ (by decide), hget, Nat.mod_eq_of_lt (Nat.lt_of_lt_of_le hv (by decide))]
  · obtain ⟨r', g, rfl⟩ := hshape
    exact ⟨r, g, w, hrep⟩
/-- Entering CLAIM (R243 to R245): STATE reads CLAIM, and a return to it is counted. -/
theorem State.claims_enterClaim (s : State) (hp : s.straps.pairEn = true) (hf : s.frozen pPAIR = false) : claims s s.enterClaim := by
  unfold State.enterClaim
  generalize hu : (if s.pair.everClaim then s.incSat pPAIR R.PAIR_RET_CNT else s) = u
  have hcount : u.get pPAIR R.PAIR_RET_CNT = (if s.pair.everClaim then min (s.get pPAIR R.PAIR_RET_CNT + 1) (2 ^ R.PAIR_RET_CNT.w - 1)
      else s.get pPAIR R.PAIR_RET_CNT) := by
    rw [← hu]
    split
    · exact s.get_incSat_self _ _
    · rfl
  have hbut : s.regsBut u [(pPAIR, R.PAIR_STAT_STATE), (pPAIR, R.PAIR_RET_CNT), (pPAIR, R.PG_IRQ_RAW)] := by
    rw [← hu]
    split
    · exact State.regsBut_incSat (State.regsBut_refl _ _) (by simp)
    · exact State.regsBut_refl _ _
  have hwrote : s.wrote u := by
    rw [← hu]
    split
    · exact s.wrote_addSat _ _ _
    · exact s.wrote_refl
  obtain ⟨g, rfl⟩ := hwrote
  have hkeep : ∀ f : Fld, f.id ≠ R.PAIR_STAT_STATE.id → f.id ≠ R.PAIR_RET_CNT.id → f.id ≠ R.PG_IRQ_RAW.id →
      ({ s with regs := g } : State).get pPAIR f = s.get pPAIR f := fun f h1 h2 h3 => hbut _ _ (by
    simp only [List.forall_mem_cons]
    exact ⟨.inr h1, .inr h2, .inr h3, by simp⟩)
  have hstate : ({ s with regs := g } : State).get pPAIR R.PAIR_STAT_STATE = s.get pPAIR R.PAIR_STAT_STATE := by
    rw [← hu]
    split
    · exact s.get_incSat_field _ (by decide)
    · rfl
  have hfu : ({ s with regs := g } : State).frozen pPAIR = false := by
    unfold State.frozen State.flag at hf ⊢
    rwa [hkeep _ (by decide) (by decide) (by decide)]
  obtain ⟨h7, hirq, hregs, r, q, w, hshape⟩ := State.setPairState_spec
    (State.updPair { s with regs := g } fun p => { p with everClaim := true, giving := 0 }) (v := 7) (by decide) hp hfu
  refine ⟨h7, by rw [hshape]; rfl, by rw [hshape]; rfl, fun hn => hirq ?_, ?_, ?_, by rw [hshape]; rfl⟩
  · rw [State.pairState, if_pos hp] at hn
    exact fun he => hn (hstate.symm.trans ((if_pos hp).symm.trans he))
  · rw [hregs _ _ (by simp only [List.forall_mem_cons]; exact ⟨.inr (by decide), .inr (by decide), by simp⟩)]
    exact hcount
  · exact State.regsBut_trans (State.regsBut_of_regs hbut rfl) (State.regsBut_mono hregs (by simp))

end Sys2Proof.Machine
end

section
/-! ### PAIR_CMD and the pair's timers (O48) -/
open Sys2Proof Sys2Proof.Machine
namespace Sys2Proof.Machine

theorem State.pairState_congr {s t : State} (hs : t.straps = s.straps) (hg : t.get pPAIR R.PAIR_STAT_STATE = s.get pPAIR R.PAIR_STAT_STATE) :
    t.pairState = s.pairState := by
  rw [State.pairState, State.pairState, hs, hg]
/-- The registers of a give-up that is recorded (R246). -/
def giveFields : List (Nat × Fld) :=
  [(pPAIR, R.PAIR_GIVE_CNT), (pPAIR, R.PAIR_LAST_UNCOV), (pPAIR, R.PAIR_LAST_CODE), (pPAIR, R.PAIR_LAST_CAUSE)] ++ errFields pPAIR
/-- A give-up as it is recorded and counted, with its cause. -/
def State.giveNoted (s : State) (c code b : Nat) : State :=
  ((s.giveRecord c code b !s.covered).incSat pPAIR R.PAIR_GIVE_CNT).cause pPAIR 4
theorem State.frozen_congr {s t : State} {p : Nat} (h : t.get p R.PG_FENCE_FENCED = s.get p R.PG_FENCE_FENCED) : t.frozen p = s.frozen p := by
  unfold State.frozen State.flag
  rw [h]
/-- Fields of PAIR other than the error registers stand through an error. -/
theorem State.get_err_field (s : State) (p code src lo hi dir : Nat) {g : Fld}
    (h : g.id ∉ [R.PG_ERR_CNT.id, R.PG_ERR_ADDR_LO.id, R.PG_ERR_ADDR_HI.id, R.PG_ERR_INFO_SRC.id, R.PG_ERR_INFO_DIR.id,
      R.PG_ERR_INFO_CODE.id, R.PG_IRQ_RAW.id]) : (s.err p code src lo hi dir).get p g = s.get p g := by
  simp only [List.mem_cons, List.not_mem_nil, or_false, not_or] at h
  exact s.get_err_ne p code src lo hi dir (Or.inr h)
theorem State.giveNoted_spec (s : State) {c code b : Nat} (hc : c < 256) (h : s.frozen pPAIR = false) :
    (s.giveNoted c code b).get pPAIR R.PAIR_GIVE_CNT = min (s.get pPAIR R.PAIR_GIVE_CNT + 1) (2 ^ R.PAIR_GIVE_CNT.w - 1) ∧
    (s.giveNoted c code b).get pPAIR R.PAIR_LAST_CAUSE = c ∧
    (s.giveNoted c code b).get pPAIR R.PAIR_LAST_UNCOV = b2n (!s.covered) ∧
    bit ((s.giveNoted c code b).get pPAIR R.PG_IRQ_RAW) 4 = true ∧ s.reports (s.giveNoted c code b) ∧
    s.regsBut (s.giveNoted c code b) giveFields := by
  unfold State.giveNoted State.giveRecord
  generalize hv : s.get (pLINE b) R.LINE_SEQ = v
  generalize he : s.err pPAIR 0x72 c v b = e
  have hfe : e.frozen pPAIR = s.frozen pPAIR := State.frozen_congr (by
    rw [← he]
    exact s.get_err_field _ _ _ _ _ _ (by decide))
  have hcnt : e.get pPAIR R.PAIR_GIVE_CNT = s.get pPAIR R.PAIR_GIVE_CNT := by
    rw [← he]
    exact s.get_err_field _ _ _ _ _ _ (by decide)
  have hrep : s.reports e := he ▸ s.reports_err _ _ _ _ _ _
  have hbut : s.regsBut e giveFields := by
    rw [← he]
    exact State.regsBut_err (State.regsBut_refl _ _) _ _ _ _ _ _ (List.subset_append_right _ _)
  refine ⟨?_, ?_, ?_, ?_, ?_, ?_⟩
  · rw [State.get_cause_field _ _ _ (by decide), State.get_incSat_self, State.get_set_field _ _ _ (by decide),
      State.get_set_field _ _ _ (by decide), State.get_setFlag_field _ _ _ (by decide), hcnt]
  · rw [State.get_cause_field _ _ _ (by decide), State.get_incSat_field _ _ (by decide), State.get_set_self]
    exact Nat.mod_eq_of_lt hc
  · rw [State.get_cause_field _ _ _ (by decide), State.get_incSat_field _ _ (by decide), State.get_set_field _ _ _ (by decide),
      State.get_set_field _ _ _ (by decide), State.get_setFlag_self]
    cases s.covered <;> rfl
  · refine State.bit_cause _ (by decide) ?_
    rw [← h, ← hfe]
    refine State.frozen_congr ?_
    rw [State.get_incSat_field _ _ (by decide), State.get_set_field _ _ _ (by decide), State.get_set_field _ _ _ (by decide),
      State.get_setFlag_field _ _ _ (by decide)]
  · exact ((((hrep.trans (State.reports_setFlag _ _ _ _)).trans (State.reports_set _ _ _ _)).trans (State.reports_set _ _ _ _)).trans
      (State.reports_incSat _ _ _)).trans (State.reports_cause _ _ _)
  · exact State.regsBut_cause (State.regsBut_incSat (State.regsBut_set (State.regsBut_set (State.regsBut_setFlag hbut _
      (by simp [giveFields])) _ (by simp [giveFields])) _ (by simp [giveFields])) (by simp [giveFields])) _ (by simp [giveFields, errFields])

/-- Fields that no give-up writes. -/
theorem giveFields_ne {f : Fld} (h : f.id ∉ giveFields.map (·.2.id)) (q : Nat) : ∀ e ∈ giveFields, q ≠ e.1 ∨ f.id ≠ e.2.id :=
  fun e he => Or.inr fun hf => h (hf ▸ List.mem_map_of_mem (f := (·.2.id)) he)

/-- A change of the pair state clears no cause. -/
theorem State.bit_setPairState (s : State) {v i : Nat} (hi : i < 32) (h : bit (s.get pPAIR R.PG_IRQ_RAW) i = true) :
    bit ((s.setPairState v).get pPAIR R.PG_IRQ_RAW) i = true := by
  unfold State.setPairState
  split
  · exact h
  · refine State.bit_cause_keeps _ hi ?_
    change bit ((s.set pPAIR R.PAIR_STAT_STATE v).get pPAIR R.PG_IRQ_RAW) i = true
    rwa [State.get_set_field _ _ _ (by decide)]

section
variable {s : State} {c code b : Nat} (h : s.pairOn = true) (hst : s.pairState = 7) (hgive : s.pair.giving = 0)
  (hcov : s.covered = true ∨ c = 0) (hc : c < 256)
include h hst hgive hcov hc
/-- A unit in CLAIM gives up: the give-up is recorded, counted and sent, and takes place at once where no bar runs (R244, R246). -/
theorem State.pairCause_claim : ∃ t, s.pairCause c code b = t ∧ givesUp s t c ∧
    t.get pPAIR R.PAIR_LAST_UNCOV = b2n (!s.covered) ∧
    t.outs = (if s.crookLanes = 0 then s.outs else
      .crook 0x06 (crookBody s s.nextMseq ([BitVec.ofNat 8 c] ++ zeros 3 ++ s.lineSeqs)) :: s.outs) ∧
    s.regsBut t (giveFields ++ [(pPAIR, R.PAIR_STAT_STATE)]) ∧
    (∃ r g v w, t = { s with
      regs := r
      pair := { s.pair with mseq := s.nextMseq, giving := g, gaveUp := v }
      host := { s.host with waiting := w }
      outs := t.outs }) := by
  have hfr := State.frozen_of_pairOn h
  obtain ⟨hcnt, hcause, huncov, hirq, ⟨r, w, hrep⟩, hbut⟩ := s.giveNoted_spec (code := code) (b := b) hc hfr
  generalize hn : s.giveNoted c code b = n at hcnt hcause huncov hirq hrep hbut
  have hkeep : ∀ {f : Fld}, f.id ∉ giveFields.map (·.2.id) → ∀ q, n.get q f = s.get q f := fun hf q => hbut _ _ (giveFields_ne hf q)
  have hwork : n.working = s.working := State.working_congr (by rw [hrep]) (by rw [hrep]) (by
    simp only [List.forall_mem_cons, List.not_mem_nil, false_imp_iff, implies_true, and_true]
    exact ⟨hkeep (by decide), hkeep (by decide), hkeep (by decide)⟩)
  have hon : n.pairOn = true := by
    rw [State.pairOn, hwork, hrep]
    exact h
  have hfn : n.frozen pPAIR = false := State.frozen_of_pairOn hon
  have hpn : n.pairState = 7 := (State.pairState_congr (by rw [hrep]) (hkeep (by decide) _)).trans hst
  have hlanes : n.crookLanes = s.crookLanes := by
    unfold State.crookLanes State.fenced State.flag
    simp only [hkeep (f := R.PG_FENCE_FENCED) (by decide)]
    rw [hrep]
    rfl
  have hsend := State.crookSend_eq hon 0x06 ([BitVec.ofNat 8 c] ++ zeros 3 ++ s.lineSeqs)
  have hmseq : n.nextMseq = s.nextMseq := by rw [hrep]; rfl
  have hbody : crookBody n s.nextMseq ([BitVec.ofNat 8 c] ++ zeros 3 ++ s.lineSeqs) =
      crookBody s s.nextMseq ([BitVec.ofNat 8 c] ++ zeros 3 ++ s.lineSeqs) := by
    unfold crookBody
    rw [hrep]
  rw [hlanes, hmseq, hbody] at hsend
  have houts : n.outs = s.outs := by rw [hrep]
  have hpair : n.pair = s.pair := by rw [hrep]
  rw [houts, hpair] at hsend
  generalize (if s.crookLanes = 0 then s.outs else
      .crook 0x06 (crookBody s s.nextMseq ([BitVec.ofNat 8 c] ++ zeros 3 ++ s.lineSeqs)) :: s.outs) = outs at hsend ⊢
  have hact : s.pairCause c code b = (let t := n.crookSend 0x06 ([BitVec.ofNat 8 c] ++ zeros 3 ++ s.lineSeqs)
      if s.runningBars = 0 then t.setPairState 4 else t.updPair fun p => { p with giving := s.runningBars }) := by
    unfold State.pairCause
    rw [h, hst, hgive, ← hn]
    have hor : (s.covered || decide (c = 0)) = true := by simpa using hcov
    simp only [Bool.not_true, Bool.false_eq_true, if_false, if_true, ne_eq, not_true_eq_false, hor]
    rfl
  rw [hact, hsend]
  dsimp only
  by_cases hbars : s.runningBars = 0
  · rw [if_pos hbars]
    obtain ⟨h4, -, hregs, r', g, w', hset⟩ := State.setPairState_spec
      { n with pair := { s.pair with mseq := s.nextMseq }, outs := outs } (v := 4) (by decide)
      (State.pairEn_of_pairOn hon) hfn
    have hsame : ∀ {f : Fld}, f.id ≠ R.PAIR_STAT_STATE.id → f.id ≠ R.PG_IRQ_RAW.id →
        (State.setPairState { n with pair := { s.pair with mseq := s.nextMseq }, outs := outs } 4).get pPAIR f = n.get pPAIR f :=
      fun h1 h2 => hregs _ _ (by simp only [List.forall_mem_cons]; exact ⟨.inr h1, .inr h2, by simp⟩)
    refine ⟨_, rfl, ⟨?_, ?_, ?_, fun _ => h4, fun hn => absurd hbars hn⟩, ?_, by rw [hset], ?_, ?_⟩
    · rw [hsame (by decide) (by decide), hcnt]
    · rw [hsame (by decide) (by decide), hcause]
    · exact State.bit_setPairState _ (by decide) hirq
    · rw [hsame (by decide) (by decide), huncov]
    · exact State.regsBut_trans (State.regsBut_mono (State.regsBut_of_regs hbut rfl) (by simp))
        (State.regsBut_mono hregs (by simp [giveFields, errFields]))
    · rw [hset, hrep]
      exact ⟨r', s.pair.giving, g, w', rfl⟩
  · rw [if_neg hbars]
    refine ⟨_, rfl, ⟨hcnt, hcause, hirq, fun hn => absurd hn hbars, fun _ => ⟨hpn, rfl⟩⟩, huncov, rfl,
      State.regsBut_mono (State.regsBut_of_regs hbut rfl) (by simp), ?_⟩
    rw [hrep]
    exact ⟨r, s.runningBars, s.pair.gaveUp, w, rfl⟩
end

section
variable {s : State} {c code b : Nat} (h : s.pairOn = true)
include h
/-- A give-up cause in MATCH or HOLD: the runs begin again, and a cause that GIVEUP or a fault gives leads to GIVEN (R244, R246). -/
theorem State.pairCause_ready (hst : s.pairState = 5 ∨ s.pairState = 6) : s.pairCause c code b =
    (s.updPair fun p => { p with runs := [] }).setPairState (if c = 0 ∨ (3 ≤ c ∧ c ≤ 6) then 4 else 5) := by
  unfold State.pairCause
  have h7 : ¬ s.pairState = 7 := by omega
  simp only [h, Bool.not_true, Bool.false_eq_true, if_false, if_neg h7, if_pos hst]
theorem State.pairCause_claim_giving (hst : s.pairState = 7) (hg : s.pair.giving ≠ 0) : s.pairCause c code b = s := by
  unfold State.pairCause
  simp only [h, Bool.not_true, Bool.false_eq_true, if_false, if_pos hst, if_pos hg]
theorem State.pairCause_other (h7 : s.pairState ≠ 7) (h56 : ¬ (s.pairState = 5 ∨ s.pairState = 6)) : s.pairCause c code b = s := by
  unfold State.pairCause
  simp only [h, Bool.not_true, Bool.false_eq_true, if_false, if_neg h7, if_neg h56]
end

/-- PAIR_CMD, written with one of its three bits (R250). -/
theorem pairCmdAct_off {s : State} (h : s.pairOn = false) (v : Nat) : pairCmdAct v s = s := by
  unfold pairCmdAct
  rw [h]
  rfl
theorem pairCmdAct_reclaim {s : State} (h : s.pairOn = true) :
    pairCmdAct 1 s = if s.pairState = 2 ∨ (4 ≤ s.pairState ∧ s.pairState ≤ 6) then s.enterClaim else s := by
  have hb : bit 1 0 = true ∧ bit 1 1 = false ∧ bit 1 2 = false := by decide
  unfold pairCmdAct
  simp [h, hb]
theorem pairCmdAct_giveup {s : State} (h : s.pairOn = true) :
    pairCmdAct 2 s = (s.updPair fun p => { p with cause0 := true }).pairCause 0 0 0 := by
  have hb : bit 2 0 = false ∧ bit 2 1 = true ∧ bit 2 2 = false := by decide
  unfold pairCmdAct
  simp [h, hb]
theorem pairCmdAct_resume {s : State} (h : s.pairOn = true) : pairCmdAct 4 s = s.updPair fun p => { p with cause0 := false } := by
  have hb : bit 4 0 = false ∧ bit 4 1 = false ∧ bit 4 2 = true := by decide
  unfold pairCmdAct
  simp [h, hb]
theorem exec_pairCmd {s : State} {c : Instr} {v : Nat} (hc : s.hostWrite c = some (pPAIR, 0x44, v)) (h : s.accepts pPAIR 0x44 v) :
    exec c s = .next (pairCmdAct v s) :=
  (exec_accepts hc h (Or.inl (by simp))).trans rfl
theorem exec_holdOffExpiry (s : State) : exec .holdOffExpiry s =
    .next (if s.pairOn && s.pairState == 6 && s.pair.holdUntil ≤ s.tick then s.enterClaim else s) := rfl
theorem exec_soloTimeout (s : State) : exec .soloTimeout s =
    .next (if s.pairOn && s.pairState == 2 && s.flag pPAIR R.PAIR_CTRL_SOLO
      && s.pair.waitSince + msTicks (s.get pPAIR R.PAIR_WAIT) ≤ s.tick then s.enterClaim else s) := rfl
theorem State.claims_of_pairOn {s : State} (h : s.pairOn = true) : claims s s.enterClaim :=
  s.claims_enterClaim (State.pairEn_of_pairOn h) (State.frozen_of_pairOn h)

/-- Settles O48: RECLAIM, HOLD and SOLO by `claims_enterClaim`, GIVEUP by the pair state that it meets. -/
theorem pairCommandsAndTimers : Obligations.PairCommandsAndTimers := by
  unfold Obligations.PairCommandsAndTimers
  refine fun s => ⟨fun h => ⟨fun hacc => ?_, fun hacc => ?_, fun hacc => ?_, ?_, ?_⟩, fun h hacc => ⟨fun hst => ?_, fun hst => ?_⟩,
    fun h hacc => ⟨fun hst hg => ?_, fun hst => ?_, fun hst => ?_⟩, fun h hacc => ?_, fun hno => ?_, fun h hst ht => ?_, fun hno => ?_,
    fun h hst hsolo ht => ?_⟩
  · rw [exec_pairCmd rfl hacc, pairCmdAct_off h]
  · rw [exec_pairCmd rfl hacc, pairCmdAct_off h]
  · rw [exec_pairCmd rfl hacc, pairCmdAct_off h]
  · rw [exec_holdOffExpiry, if_neg (by simp [h])]
  · rw [exec_soloTimeout, if_neg (by simp [h])]
  · rw [exec_pairCmd rfl hacc, pairCmdAct_reclaim h, if_pos hst]
    exact ⟨_, rfl, State.claims_of_pairOn h⟩
  · rw [exec_pairCmd rfl hacc, pairCmdAct_reclaim h, if_neg hst]
  · rw [exec_pairCmd rfl hacc, pairCmdAct_giveup h]
    obtain ⟨t, ht, hgives, huncov, houts, hbut, r, g, v, w, hshape⟩ := State.pairCause_claim (code := 0) (b := 0)
      (s := s.updPair fun p => { p with cause0 := true }) h hst hg (Or.inr rfl) (by decide)
    refine ⟨t, congrArg _ ht, by rw [hshape]; rfl, hgives, huncov, houts, State.regsBut_mono hbut ?_, by rw [hshape]; rfl⟩
    intro e he
    simp only [giveFields, List.mem_append, List.mem_cons, List.not_mem_nil, or_false] at he ⊢
    tauto
  · rw [exec_pairCmd rfl hacc, pairCmdAct_giveup h, State.pairCause_ready (s := s.updPair fun p => { p with cause0 := true }) h hst]
    obtain ⟨h4, hirq, hbut, r, g, w, hshape⟩ := State.setPairState_spec
      ((s.updPair fun p => { p with cause0 := true }).updPair fun p => { p with runs := [] }) (v := 4) (by decide)
      (State.pairEn_of_pairOn h) (State.frozen_of_pairOn h)
    rw [if_pos (Or.inl rfl)]
    refine ⟨_, rfl, by rw [hshape]; rfl, h4, by rw [hshape]; rfl, hirq ?_, hbut, by rw [hshape]; rfl⟩
    change s.pairState ≠ 4
    omega
  · rw [exec_pairCmd rfl hacc, pairCmdAct_giveup h]
    have hstay : (s.updPair fun p => { p with cause0 := true }).pairCause 0 0 0 = s.updPair fun p => { p with cause0 := true } := by
      rcases hst with ⟨h7, hg⟩ | ⟨h7, h5, h6⟩
      · exact State.pairCause_claim_giving (s := s.updPair fun p => { p with cause0 := true }) h h7 hg
      · exact State.pairCause_other (s := s.updPair fun p => { p with cause0 := true }) h h7 (not_or.mpr ⟨h5, h6⟩)
    rw [hstay]
    exact ⟨_, rfl, rfl, rfl⟩
  · rw [exec_pairCmd rfl hacc, pairCmdAct_resume h]
    exact ⟨_, rfl, rfl, rfl⟩
  · rw [exec_holdOffExpiry, if_neg (by rcases hno with h | h <;> simp [h])]
  · rw [exec_holdOffExpiry, if_pos (by simp [h, hst, ht])]
    exact ⟨_, rfl, State.claims_of_pairOn h⟩
  · rw [exec_soloTimeout, if_neg (by rcases hno with h | h | h <;> simp [h])]
  · rw [exec_soloTimeout, if_pos (by simp [h, hst, hsolo, ht])]
    exact ⟨_, rfl, State.claims_of_pairOn h⟩

end Sys2Proof.Machine
end

section
/-! ### The periodic and repeated messages of Crook, and its loss (O42) -/
open Sys2Proof Sys2Proof.Machine
namespace Sys2Proof.Machine

/-- ACK passing a gap that has lasted moves ACK, what is noted above it and the gap's tick only (log 22). -/
theorem State.ackGap_shape (s : State) : ∃ a r g, s.ackGap = { s with pair := { s.pair with ack := a, rx := r, gapSince := g } } := by
  unfold State.ackGap
  split
  · exact ⟨_, _, _, rfl⟩
  · split
    · exact ⟨_, _, _, rfl⟩
    · exact ⟨_, _, _, rfl⟩
theorem State.ackGap_none {s : State} (h : s.pair.gapSince = none) : s.ackGap = s := by
  unfold State.ackGap
  rw [h]
theorem State.ackGap_stateAt (s : State) (n : Nat) :
    (s.updPair fun p => { p with stateAt := n }).ackGap = s.ackGap.updPair fun p => { p with stateAt := n } := by
  unfold State.ackGap
  change (match s.pair.gapSince with | none => _ | some t => if s.tick < t + usTicks 320 then _ else _) = _
  cases s.pair.gapSince with
  | none => rfl
  | some t =>
    dsimp only
    split <;> rfl

theorem exec_helloSend (s : State) : exec .helloSend s = .next (if !s.pairOn || s.tick < s.pair.helloAt then s
    else (s.updPair fun p => { p with helloAt := s.tick + usTicks 100 }).crookSend 0x01
        [1, BitVec.ofNat 8 (1 + 2 * b2n s.straps.home + 16 * s.straps.unitId.toNat), BitVec.ofNat 8 s.pairState]) := rfl
theorem exec_stateSend (s : State) : exec .stateSend s = .next (if !s.pairOn || s.tick < s.pair.stateAt then s
    else
      let t := (s.updPair fun p => { p with stateAt := s.tick + usTicks 10 }).ackGap
      t.crookSend 0x02 ([BitVec.ofNat 8 t.pairState, BitVec.ofNat 8 t.claimLevel, 0, 0] ++ leBytes 4 t.pair.ack ++ t.lineSeqs ++
        leBytes 4 t.causeMask)) := rfl
theorem exec_timeSend (s : State) : exec .timeSend s = .next (if !s.pairOn || s.tick < s.pair.timeAt then s
    else (s.updPair fun p => { p with timeAt := s.tick + msTicks 1 }).crookSend 0x03 (zeros 8 ++ leBytes 8 s.cNs ++ zeros 16)) := rfl
/-- What the resending of a command leaves (R231). -/
def State.resent (s : State) (c : PairCmd) : State :=
  let t := s.updPair fun p => { p with cmds := p.cmds.map fun x =>
    if x.mseq = c.mseq then { x with sends := x.sends + 1, lastSent := s.tick } else x }
  (if t.crookLanes = 0 then t else t.emit (.crook c.typ (crookBody t c.mseq c.body))).incWrap pPAIR R.PAIR_RETRY_CNT
theorem exec_commandResend (s : State) (m : W32) : exec (.commandResend m) s =
    .next (match s.pair.cmds.find? fun c => c.mseq == m.toNat with
      | none => s
      | some c => if !s.crookUp || !s.carries c.typ || s.tick < c.lastSent + usTicks 20 then s
        else if 16 ≤ c.sends then s.crookFall 1 else s.resent c) := rfl
theorem exec_crookDown (s : State) : exec .crookDown s =
    .next (if s.crookUp && (s.crookLanes == 0 || s.pair.lastRx + s.pairTmo ≤ s.tick) then s.crookFall else s) := rfl
theorem State.resent_spec (s : State) (c : PairCmd) :
    (s.resent c).get pPAIR R.PAIR_RETRY_CNT = (s.get pPAIR R.PAIR_RETRY_CNT + 1) % 2 ^ R.PAIR_RETRY_CNT.w ∧
    (s.resent c).pair = { s.pair with cmds := s.pair.cmds.map fun x =>
      if x.mseq = c.mseq then { x with sends := x.sends + 1, lastSent := s.tick } else x } ∧
    (s.resent c).outs = (if s.crookLanes = 0 then s.outs else .crook c.typ (crookBody s c.mseq c.body) :: s.outs) ∧
    s.regsBut (s.resent c) [(pPAIR, R.PAIR_RETRY_CNT)] ∧
    ({ s.resent c with regs := s.regs, pair := s.pair, outs := s.outs } : State) = s := by
  unfold State.resent
  dsimp only
  generalize hu : (if State.crookLanes _ = 0 then _ else _) = u
  have hshape : u = { s with
      pair := { s.pair with cmds := s.pair.cmds.map fun x =>
        if x.mseq = c.mseq then { x with sends := x.sends + 1, lastSent := s.tick } else x }
      outs := if s.crookLanes = 0 then s.outs else .crook c.typ (crookBody s c.mseq c.body) :: s.outs } := by
    rw [← hu]
    change (if s.crookLanes = 0 then _ else _) = _
    split <;> rfl
  have hregs : u.regs = s.regs := by rw [hshape]
  refine ⟨?_, (congrArg State.pair hshape), ?_, ?_, ?_⟩
  · rw [State.get_incWrap_self, State.get_congr hregs]
  · change u.outs = _
    rw [hshape]
  · exact State.regsBut_incWrap (State.regsBut_of_regs (State.regsBut_refl s _) hregs) (by simp)
  · rw [hshape]
    rfl

/-- The loss of Crook as it is recorded and counted (R248). -/
def State.lossNoted (s : State) (src : Nat) : State := ((s.err pPAIR 0x70 src 0).incSat pPAIR R.PAIR_LOSS_CNT).cause pPAIR 5
/-- PAIR's own state once Crook is down: the commands and the joined bars stay. -/
def PairSt.fallen (p : PairSt) : PairSt :=
  { p with up := false, holdAt := [], joinTs := none, tofs := [], joinFailed := none, latched := false, answered := 0 }
theorem State.lossNoted_spec (s : State) {src : Nat} (hsrc : src < 2 ^ R.PG_ERR_INFO_SRC.w) (h : s.frozen pPAIR = false) :
    (s.lossNoted src).get pPAIR R.PAIR_LOSS_CNT = min (s.get pPAIR R.PAIR_LOSS_CNT + 1) (2 ^ R.PAIR_LOSS_CNT.w - 1) ∧
    bit ((s.lossNoted src).get pPAIR R.PG_IRQ_RAW) 5 = true ∧
    (s.get pPAIR R.PG_ERR_CNT = 0 → (s.lossNoted src).get pPAIR R.PG_ERR_INFO_CODE = 0x70 ∧
      (s.lossNoted src).get pPAIR R.PG_ERR_INFO_SRC = src) ∧
    (s.lossNoted src).get pPAIR R.PAIR_STAT_STATE = s.get pPAIR R.PAIR_STAT_STATE ∧ (s.lossNoted src).frozen pPAIR = false ∧
    s.reports (s.lossNoted src) ∧ s.regsBut (s.lossNoted src) ([(pPAIR, R.PAIR_LOSS_CNT), (pPAIR, R.PAIR_STAT_STATE)] ++ errFields pPAIR) := by
  obtain ⟨-, hrec⟩ := s.err_recorded h 0x70 src 0 0 0
  have hbut := State.regsBut_err (State.regsBut_refl s ([(pPAIR, R.PAIR_LOSS_CNT), (pPAIR, R.PAIR_STAT_STATE)] ++ errFields pPAIR))
    pPAIR 0x70 src 0 0 0 (List.subset_append_right _ _)
  have hother : ∀ {f : Fld}, f.id ≠ R.PG_IRQ_RAW.id → f.id ≠ R.PAIR_LOSS_CNT.id →
      (s.lossNoted src).get pPAIR f = (s.err pPAIR 0x70 src 0).get pPAIR f := fun h1 h2 =>
    (State.get_cause_field _ _ _ h1).trans (State.get_incSat_field _ _ h2)
  have hfr : ((s.err pPAIR 0x70 src 0).incSat pPAIR R.PAIR_LOSS_CNT).frozen pPAIR = false := by
    rw [← h]
    refine State.frozen_congr ?_
    rw [State.get_incSat_field _ _ (by decide), State.get_err_field _ _ _ _ _ _ _ (by decide)]
  refine ⟨?_, State.bit_cause _ (by decide) hfr, fun h0 => ⟨?_, ?_⟩, ?_, ?_, ?_, ?_⟩
  · rw [State.lossNoted, State.get_cause_field _ _ _ (by decide), State.get_incSat_self, State.get_err_field _ _ _ _ _ _ _ (by decide)]
  · rw [hother (by decide) (by decide), (hrec h0).1]
    rfl
  · rw [hother (by decide) (by decide), (hrec h0).2]
    exact Nat.mod_eq_of_lt hsrc
  · rw [hother (by decide) (by decide), State.get_err_field _ _ _ _ _ _ _ (by decide)]
  · rw [← hfr]
    exact State.frozen_congr (State.get_cause_field _ _ _ (by decide))
  · exact ((s.reports_err _ _ _ _ _ _).trans (State.reports_incSat _ _ _)).trans (State.reports_cause _ _ _)
  · exact State.regsBut_cause (State.regsBut_incSat hbut (by simp)) _ (by simp [errFields])
theorem State.crookFall_eq {s : State} (h : s.pair.up = true) (src : Nat) : s.crookFall src =
    (let t := (s.lossNoted src).updPair PairSt.fallen
    if t.pairState = 3 then (t.updPair fun p => { p with waitSince := s.tick }).setPairState 2
    else if t.pairState = 6 then (t.updPair fun p => { p with runs := [] }).setPairState 5 else t) := by
  unfold State.crookFall
  rw [h]
  have htick : (s.lossNoted src).tick = s.tick := by
    obtain ⟨r, w, hr⟩ := ((s.reports_err pPAIR 0x70 src 0 0 0).trans (State.reports_incSat _ pPAIR R.PAIR_LOSS_CNT)).trans
      (State.reports_cause _ pPAIR 5)
    rw [show s.lossNoted src = _ from hr]
  rw [← htick]
  rfl

section
variable {s : State} {src : Nat} (hsrc : src < 2 ^ R.PG_ERR_INFO_SRC.w) (h : s.crookUp = true)
include hsrc h
/-- Crook is lost by any state that the recorded loss leads to with PAIR fallen and its STATE as it is to be. -/
theorem State.crookLost_of {n : State} (hn : s.lossNoted src = n) {p : PairSt} {t : State} (hp : p.up = false ∧ p.cmds = s.pair.cmds ∧ p.joined = s.pair.joined ∧
      p.own = s.pair.own ∧ p.peer = s.pair.peer)
    (ht : ∃ r g w, t = { n with
      regs := r, pair := { p with gaveUp := g }, host := { n.host with waiting := w } })
    (hirq : bit (t.get pPAIR R.PG_IRQ_RAW) 5 = true)
    (hregs : n.regsBut t [(pPAIR, R.PAIR_STAT_STATE), (pPAIR, R.PG_IRQ_RAW)])
    (hst : t.pairState = (if s.pairState = 3 then 2 else if s.pairState = 6 then 5 else s.pairState)) : crookLost s t src := by
  simp only [State.crookUp, Bool.and_eq_true] at h
  obtain ⟨hloss, -, hrec, -, -, ⟨r', w', hrep⟩, hbut⟩ := s.lossNoted_spec hsrc (State.frozen_of_pairOn h.1)
  rw [hn] at hloss hrec hrep hbut
  have hsame : ∀ {f : Fld}, f.id ≠ R.PAIR_STAT_STATE.id → f.id ≠ R.PG_IRQ_RAW.id → t.get pPAIR f = n.get pPAIR f :=
    fun h1 h2 => hregs _ _ (by simp only [List.forall_mem_cons]; exact ⟨.inr h1, .inr h2, by simp⟩)
  obtain ⟨hup, hcmds, hj, ho, hpe⟩ := hp
  obtain ⟨r, g, w, hshape⟩ := ht
  refine ⟨?_, (hsame (by decide) (by decide)).trans hloss, hirq, fun h0 => ⟨?_, ?_⟩, hst, ?_, ?_, ?_, ?_,
    State.regsBut_trans hbut (State.regsBut_mono hregs (by simp [errFields])), ?_⟩
  · rw [State.crookUp, hshape]
    exact (congrArg (_ && ·) hup).trans (Bool.and_false _)
  · exact (hsame (by decide) (by decide)).trans (hrec h0).1
  · exact (hsame (by decide) (by decide)).trans (hrec h0).2
  · rw [hshape]; exact hcmds
  · rw [hshape]; exact hj
  · rw [hshape]; exact ho
  · rw [hshape]; exact hpe
  · rw [hshape, hrep]
/-- Crook falls: JOIN goes back to WAIT, HOLD to MATCH (R231, R248). -/
theorem State.crookLost_crookFall : crookLost s (s.crookFall src) src := by
  have hon : s.pairOn = true ∧ s.pair.up = true := by simpa [State.crookUp] using h
  have hpe := State.pairEn_of_pairOn hon.1
  obtain ⟨-, hirq, -, hstate, hfr, ⟨r, w, hrep⟩, -⟩ := s.lossNoted_spec hsrc (State.frozen_of_pairOn hon.1)
  rw [State.crookFall_eq hon.2]
  dsimp only
  generalize hn : s.lossNoted src = n at hirq hstate hfr hrep ⊢
  have hstraps : n.straps = s.straps := by rw [hrep]
  have hpair : n.pair = s.pair := by rw [hrep]
  have hst : n.pairState = s.pairState := State.pairState_congr hstraps hstate
  rw [show (n.updPair PairSt.fallen).pairState = s.pairState from hst]
  have hpe' : n.straps.pairEn = true := hstraps ▸ hpe
  by_cases h3 : s.pairState = 3
  · obtain ⟨h2, -, hregs, r', g, w', hset⟩ := State.setPairState_spec ((n.updPair PairSt.fallen).updPair
      fun p => { p with waitSince := s.tick }) (v := 2) (by decide) hpe' hfr
    rw [if_pos h3]
    exact State.crookLost_of hsrc h hn (p := { n.pair.fallen with waitSince := s.tick }) (by rw [hpair]; exact ⟨rfl, rfl, rfl, rfl, rfl⟩)
      ⟨r', g, w', hset⟩ (State.bit_setPairState _ (by decide) hirq) hregs (by rw [h2, if_pos h3])
  by_cases h6 : s.pairState = 6
  · obtain ⟨h5, -, hregs, r', g, w', hset⟩ := State.setPairState_spec ((n.updPair PairSt.fallen).updPair
      fun p => { p with runs := [] }) (v := 5) (by decide) hpe' hfr
    rw [if_neg h3, if_pos h6]
    exact State.crookLost_of hsrc h hn (p := { n.pair.fallen with runs := [] }) (by rw [hpair]; exact ⟨rfl, rfl, rfl, rfl, rfl⟩)
      ⟨r', g, w', hset⟩ (State.bit_setPairState _ (by decide) hirq) hregs (by rw [h5, if_neg h3, if_pos h6])
  · rw [if_neg h3, if_neg h6]
    exact State.crookLost_of hsrc h hn (p := n.pair.fallen) (by rw [hpair]; exact ⟨rfl, rfl, rfl, rfl, rfl⟩)
      ⟨_, n.pair.gaveUp, n.host.waiting, rfl⟩ hirq (State.regsBut_of_regs (State.regsBut_refl _ _) rfl)
      (by rw [if_neg h3, if_neg h6]; exact hst)
end

/-- Settles O42: a message by `crookSend_eq`, a command that goes out again by `resent_spec`, the loss of Crook by
`crookLost_crookFall`. -/
theorem crookTimersSend : Obligations.CrookTimersSend := by
  unfold Obligations.CrookTimersSend
  refine fun s => ⟨fun h => ⟨?_, ?_, ?_⟩, fun h => ?_, fun h => ?_, fun h => ?_, fun h ht => ?_, fun h ht => ?_, fun h ht => ?_,
    fun m h => ?_, fun m c hc => ⟨fun h => ?_, fun hup hcar ht => ⟨fun hs => ?_, fun hs => ?_⟩⟩, fun h => ?_, fun hup h => ?_⟩
  · rw [exec_helloSend, if_pos (by simp [h])]
  · rw [exec_stateSend, if_pos (by simp [h])]
  · rw [exec_timeSend, if_pos (by simp [h])]
  · rw [exec_helloSend, if_pos (by simp [h])]
  · rw [exec_stateSend, if_pos (by simp [h])]
  · rw [exec_timeSend, if_pos (by simp [h])]
  · rw [exec_helloSend, if_neg (by simp [h, ht]), State.crookSend_eq (s := s.updPair fun p => { p with helloAt := s.tick + usTicks 100 }) h]
    exact ⟨_, rfl, rfl, rfl, rfl⟩
  · rw [exec_stateSend, if_neg (by simp [h, ht]), State.ackGap_stateAt]
    obtain ⟨a, r, g, hgap⟩ := s.ackGap_shape
    have hnone : s.pair.gapSince = none → a = s.pair.ack := fun hn => by
      rw [State.ackGap_none hn] at hgap
      exact (congrArg (·.pair.ack) hgap).symm
    rw [hgap]
    dsimp only
    rw [State.crookSend_eq (s := State.updPair { s with pair := { s.pair with ack := a, rx := r, gapSince := g } } fun p =>
      { p with stateAt := s.tick + usTicks 10 }) h]
    exact ⟨_, rfl, rfl, hnone, rfl, rfl⟩
  · rw [exec_timeSend, if_neg (by simp [h, ht]), State.crookSend_eq (s := s.updPair fun p => { p with timeAt := s.tick + msTicks 1 }) h]
    exact ⟨_, rfl, rfl, rfl, rfl⟩
  · rw [exec_commandResend]
    rcases h with h | h
    · cases s.pair.cmds.find? fun c => c.mseq == m.toNat with
      | none => rfl
      | some c => simp [h]
    · rw [h]
  · rw [exec_commandResend, hc]
    dsimp only
    rw [if_pos (by rcases h with h | h <;> simp [h])]
  · rw [exec_commandResend, hc]
    dsimp only
    rw [if_neg (by simp [hup, hcar, ht]), if_neg (by omega)]
    exact ⟨_, rfl, s.resent_spec c⟩
  · rw [exec_commandResend, hc]
    dsimp only
    rw [if_neg (by simp [hup, hcar, ht]), if_pos hs]
    exact ⟨_, rfl, State.crookLost_crookFall (by decide) hup⟩
  · rw [exec_crookDown, if_neg]
    rcases h with h | ⟨h, h'⟩
    · simp [h]
    · simp [h, h']
  · rw [exec_crookDown, if_pos (by simpa [hup] using h)]
    exact ⟨_, rfl, State.crookLost_crookFall (by decide) hup⟩

end Sys2Proof.Machine
end

section
/-! ### A Crook message is taken once (O43) -/
open Sys2Proof Sys2Proof.Machine
namespace Sys2Proof.Machine

/-- The exec of a Crook message is its receipt and what it does once it is heard. -/
theorem crookFollow_heard {s : State} {hd : CrookHdr} {o : Host.Outcome State Fault Refusal}
    (h : ∃ g : State → State, o = .next (s.crookFollow hd g)) : ∃ g : State → State, o = .next (s.crookMsg hd g) := by
  obtain ⟨g, rfl⟩ := h
  exact ⟨fun t => if t.pairState = 3 ∨ t.peerState = 3 then t else if t.straps.home then t else g t, rfl⟩
theorem exec_crookHead {i : Instr} {hd : CrookHdr} (h : i.crookHead = some hd) (s : State) :
    ∃ g : State → State, exec i s = .next (s.crookMsg hd g) := by
  cases i <;> simp only [Instr.crookHead, Option.some.injEq, reduceCtorEq] at h
  case profMessage | swapMessage | adj | gain | hold => exact h ▸ crookFollow_heard ⟨_, rfl⟩
  all_goals exact h ▸ ⟨_, rfl⟩

/-! ### Crook rises -/

/-- A command that is carried goes out again when Crook rises (R231). -/
def State.riseSend (u : State) (c : PairCmd) : State :=
  let u := if u.crookLanes = 0 then u else u.emit (.crook c.typ (crookBody u c.mseq c.body))
  (u.incWrap pPAIR R.PAIR_RETRY_CNT).updPair fun p => { p with cmds := p.cmds.map fun x =>
    if x.mseq = c.mseq then { x with sends := 1, lastSent := u.tick } else x }
/-- The shape of a state that has sent commands again: registers, the commands and the messages. -/
def State.resends (s t : State) : Prop := ∃ r c o, t = { s with regs := r, pair := { s.pair with cmds := c }, outs := o }
theorem State.riseSend_shape (u : State) (c : PairCmd) : u.resends (u.riseSend c) := by
  unfold State.riseSend
  by_cases h : u.crookLanes = 0
  · rw [if_pos h]
    exact ⟨_, _, u.outs, rfl⟩
  · rw [if_neg h]
    exact ⟨_, _, _, rfl⟩
theorem State.riseSend_spec (u : State) (c : PairCmd) (h : u.crookLanes ≠ 0) :
    (u.riseSend c).get pPAIR R.PAIR_RETRY_CNT = (u.get pPAIR R.PAIR_RETRY_CNT + 1) % 2 ^ R.PAIR_RETRY_CNT.w ∧
    (∃ o, (u.riseSend c).outs = o :: u.outs) ∧ (u.riseSend c).pair.cmds.map (·.mseq) = u.pair.cmds.map (·.mseq) ∧
    u.regsBut (u.riseSend c) [(pPAIR, R.PAIR_RETRY_CNT)] := by
  unfold State.riseSend
  rw [if_neg h]
  dsimp only
  generalize crookBody u c.mseq c.body = b
  refine ⟨(u.emit (.crook c.typ b)).get_incWrap_self _ _, ⟨_, rfl⟩, ?_,
    State.regsBut_of_regs (State.regsBut_incWrap (t := u.emit (.crook c.typ b)) (State.regsBut_of_regs (State.regsBut_refl u _) rfl)
      (by simp)) rfl⟩
  change (u.pair.cmds.map _).map _ = _
  rw [List.map_map]
  refine List.map_congr_left fun x _ => ?_
  change (if x.mseq = c.mseq then _ else x : PairCmd).mseq = x.mseq
  split <;> rfl
theorem State.crookLanes_congr {s t : State} (hl : t.lane = s.lane) (hf : ∀ p, t.get p R.PG_FENCE_FENCED = s.get p R.PG_FENCE_FENCED) :
    t.crookLanes = s.crookLanes := by
  unfold State.crookLanes State.laneAt State.fenced State.flag
  simp only [hl, hf]
/-- Fields that are not among those listed by number. -/
theorem State.regsBut.field {s t : State} {l : List (Nat × Fld)} (h : s.regsBut t l) {f : Fld} (hf : ∀ e ∈ l, f.id ≠ e.2.id) (p : Nat) :
    t.get p f = s.get p f := h p f fun e he => Or.inr (hf e he)
theorem State.riseSends_spec (l : List PairCmd) (u : State) (h : u.crookLanes ≠ 0) :
    u.resends (l.foldl State.riseSend u) ∧ (∃ o, (l.foldl State.riseSend u).outs = o ++ u.outs ∧ o.length = l.length) ∧
    (l.foldl State.riseSend u).pair.cmds.map (·.mseq) = u.pair.cmds.map (·.mseq) ∧
    (l.foldl State.riseSend u).get pPAIR R.PAIR_RETRY_CNT = (if l.length = 0 then u.get pPAIR R.PAIR_RETRY_CNT
      else (u.get pPAIR R.PAIR_RETRY_CNT + l.length) % 2 ^ R.PAIR_RETRY_CNT.w) ∧
    u.regsBut (l.foldl State.riseSend u) [(pPAIR, R.PAIR_RETRY_CNT)] := by
  induction l generalizing u with
  | nil => exact ⟨⟨u.regs, u.pair.cmds, u.outs, rfl⟩, ⟨[], rfl, rfl⟩, rfl, rfl, State.regsBut_refl _ _⟩
  | cons c cs ih =>
    obtain ⟨hcnt, ⟨o, ho⟩, hseq, hbut⟩ := u.riseSend_spec c h
    obtain ⟨r, cm, os, hshape⟩ := u.riseSend_shape c
    have hlanes : (u.riseSend c).crookLanes ≠ 0 := by
      rw [State.crookLanes_congr (s := u) (by rw [hshape]) (hbut.field (by simp only [List.forall_mem_cons]; exact ⟨by decide, by simp⟩))]
      exact h
    obtain ⟨⟨r', cm', os', hs'⟩, ⟨o', ho', hlen⟩, hseq', hcnt', hbut'⟩ := ih (u.riseSend c) hlanes
    rw [List.foldl_cons]
    generalize cs.foldl State.riseSend (u.riseSend c) = v at hs' ho' hseq' hcnt' hbut' ⊢
    refine ⟨?_, ⟨o' ++ [o], by rw [ho', ho]; simp, by simp [hlen]⟩, hseq'.trans hseq, ?_, State.regsBut_trans hbut hbut'⟩
    · rw [hshape] at hs'
      exact ⟨r', cm', os', hs'⟩
    · rw [hcnt', hcnt, List.length_cons, if_neg (Nat.succ_ne_zero _)]
      generalize 2 ^ R.PAIR_RETRY_CNT.w = m
      split
      case isTrue h0 => rw [h0]
      case isFalse h0 =>
        rw [Nat.mod_add_mod]
        congr 1
        omega
/-- Crook up as its first message notes it (R231). -/
def State.upNow (s : State) : State := s.updPair fun p => { p with lastRx := s.tick, up := true }
def State.risen (s : State) : State := s.upNow.cause pPAIR 5
theorem State.risen_spec (s : State) : (∃ r w, s.risen = { s with
      regs := r
      pair := { s.pair with lastRx := s.tick, up := true }
      host := { s.host with waiting := w } }) ∧
    s.regsBut s.risen [(pPAIR, R.PG_IRQ_RAW)] ∧ s.risen.carries = s.carries ∧ s.risen.crookLanes = s.crookLanes ∧
    (s.frozen pPAIR = false → bit (s.risen.get pPAIR R.PG_IRQ_RAW) 5 = true) := by
  have hbut : s.regsBut s.risen [(pPAIR, R.PG_IRQ_RAW)] :=
    State.regsBut_cause (t := s.upNow) (State.regsBut_of_regs (State.regsBut_refl s _) rfl) 5 (by simp)
  have hfield : ∀ {f : Fld}, f.id ≠ R.PG_IRQ_RAW.id → ∀ p, s.risen.get p f = s.get p f := fun hf => hbut.field (by simpa using hf)
  obtain ⟨r, w, hshape⟩ := s.upNow.reports_cause pPAIR 5
  change s.risen = _ at hshape
  have hstraps : s.risen.straps = s.straps := by rw [hshape]; rfl
  have hlane : s.risen.lane = s.lane := by rw [hshape]; rfl
  refine ⟨⟨r, w, hshape⟩, hbut, funext fun typ => ?_, ?_, fun hf => State.bit_cause _ (by decide) hf⟩
  · rw [State.carries, State.carries, State.pairState_congr (s := s) (t := s.risen) hstraps (hfield (by decide) _), State.peerState,
      State.peerState, hfield (by decide)]
  · exact State.crookLanes_congr hlane (hfield (by decide))
theorem State.crookRise_eq (s : State) : s.crookRise = if s.pair.up then s.updPair fun p => { p with lastRx := s.tick }
    else (s.pair.cmds.filter fun c => s.carries c.typ).foldl State.riseSend s.risen := by
  unfold State.crookRise
  change (if s.pair.up then _ else _) = _
  split
  · rfl
  · obtain ⟨⟨r, w, hshape⟩, -, hcar, -, -⟩ := s.risen_spec
    change (s.risen.pair.cmds.filter fun c => s.risen.carries c.typ).foldl State.riseSend s.risen = _
    rw [hcar, show s.risen.pair.cmds = s.pair.cmds by rw [hshape]]

/-- What a Crook message that is heard moves before it is looked at (R228 to R231). -/
theorem State.crookRise_spec {s : State} {n : Nat} (hon : s.pairOn = true) (hl : s.crookLanes ≠ 0)
    (hn : n = (if s.pair.up then 0 else (s.pair.cmds.filter fun c => s.carries c.typ).length)) :
    (∃ r c w o, s.crookRise = { s with
      regs := r
      pair := { s.pair with lastRx := s.tick, up := true, cmds := c }
      host := { s.host with waiting := w }
      outs := o ++ s.outs } ∧ o.length = n ∧ c.map (·.mseq) = s.pair.cmds.map (·.mseq)) ∧
    (s.pair.up = true → s.crookRise = s.updPair fun p => { p with lastRx := s.tick }) ∧
    (s.pair.up = false → bit (s.crookRise.get pPAIR R.PG_IRQ_RAW) 5 = true) ∧
    (0 < n → s.crookRise.get pPAIR R.PAIR_RETRY_CNT = (s.get pPAIR R.PAIR_RETRY_CNT + n) % 2 ^ R.PAIR_RETRY_CNT.w) ∧
    s.regsBut s.crookRise [(pPAIR, R.PAIR_RETRY_CNT), (pPAIR, R.PG_IRQ_RAW)] := by
  rw [State.crookRise_eq]
  cases hup : s.pair.up with
  | true =>
    rw [if_pos rfl]
    rw [hup, if_pos rfl] at hn
    subst hn
    refine ⟨⟨s.regs, s.pair.cmds, s.host.waiting, [], ?_, rfl, rfl⟩, fun _ => rfl, fun h => Bool.noConfusion h,
      fun h => absurd h (Nat.lt_irrefl _), State.regsBut_of_regs (State.regsBut_refl s _) rfl⟩
    rw [← hup]
    rfl
  | false =>
    rw [if_neg Bool.false_ne_true]
    rw [hup, if_neg Bool.false_ne_true] at hn
    obtain ⟨⟨r, w, hshape⟩, hbut, -, hlanes, hirq⟩ := s.risen_spec
    obtain ⟨⟨r', c, o', hs⟩, ⟨o, ho, hlen⟩, hseq, hcnt, hbut'⟩ :=
      State.riseSends_spec (s.pair.cmds.filter fun c => s.carries c.typ) s.risen (hlanes ▸ hl)
    rw [← hn] at hlen hcnt
    generalize List.foldl State.riseSend s.risen _ = v at hs ho hseq hcnt hbut' ⊢
    refine ⟨⟨r', c, w, o, ?_, hlen, ?_⟩, fun h => Bool.noConfusion h, fun _ => ?_, fun h0 => ?_, ?_⟩
    · rw [hs] at ho ⊢
      rw [show o' = o ++ s.risen.outs from ho, hshape]
    · rw [hs, hshape] at hseq
      exact hseq
    · rw [hbut'.field (by simp only [List.forall_mem_cons]; exact ⟨by decide, by simp⟩)]
      exact hirq (State.frozen_of_pairOn hon)
    · rw [hcnt, if_neg (by omega), hbut.field (by simp only [List.forall_mem_cons]; exact ⟨by decide, by simp⟩)]
    · exact State.regsBut_trans (State.regsBut_mono hbut (by simp)) (State.regsBut_mono hbut' (by simp))

/-! ### The number of a message -/

/-- ACK once more numbers than the history could hold have been missed (log 22). -/
def State.ackStart (s : State) (m : Nat) : State :=
  if s.pair.seen.length ≤ 1 && decide (diff32 m s.pair.ack ≤ 0) then s.updPair fun p => { p with ack := (m + 2 ^ 32 - 4096) % 2 ^ 32 }
  else s
/-- A number later than ACK comes: ACK moves over the run that follows it. -/
def State.ackLater (s : State) (m : Nat) : State :=
  let l := s.pair.rx ++ [m]
  let a := runTop l s.pair.ack
  let rest := l.filter fun n => decide (0 < diff32 n a)
  s.updPair fun p => { p with
    ack := a, rx := rest, gapSince := if rest.isEmpty then none else if a = p.ack then some (p.gapSince.getD s.tick) else some s.tick }
def State.ackTaken (t : State) (m : Nat) : State := if diff32 m t.pair.ack ≤ 0 then t else t.ackLater m
theorem State.ackTake_eq (s : State) (m : Nat) : s.ackTake m = (s.ackStart m).ackTaken m := rfl
theorem State.ackTaken_later {t : State} {m : Nat} (h : ¬ diff32 m t.pair.ack ≤ 0) :
    t.ackTaken m = t.ackLater m := if_neg h
theorem State.ackStart_shape (s : State) (m : Nat) : ∃ a, s.ackStart m = { s with pair := { s.pair with ack := a } } := by
  unfold State.ackStart
  split
  · exact ⟨_, rfl⟩
  · exact ⟨s.pair.ack, rfl⟩
theorem State.ackTake_shape (s : State) (m : Nat) :
    ∃ a r g, s.ackTake m = { s with pair := { s.pair with ack := a, rx := r, gapSince := g } } := by
  obtain ⟨a, ha⟩ := s.ackStart_shape m
  rw [State.ackTake_eq, ha]
  unfold State.ackTaken
  split
  · exact ⟨a, s.pair.rx, s.pair.gapSince, rfl⟩
  · exact ⟨_, _, _, rfl⟩
theorem State.msgNote_shape (s : State) (m : Nat) : ∃ a r g, s.msgNote m = { s with
    pair := { s.pair with seen := (m :: s.pair.seen).take 4096, ack := a, rx := r, gapSince := g } } :=
  State.ackTake_shape _ m
theorem diff32_self (m : Nat) : diff32 m m = 0 := by
  unfold diff32 sgn
  omega
theorem diff32_succ (a : Nat) : diff32 ((a + 1) % 2 ^ 32) a = 1 := by
  have hmod : ((a + 1) % 2 ^ 32 + 2 ^ 32 - a % 2 ^ 32) % 2 ^ 32 = 1 := by
    rw [show (2 : Nat) ^ 32 = 4294967296 by norm_num]
    omega
  rw [diff32, sgn, hmod]
  decide
/-- The number that follows ACK with none outstanding becomes ACK (R228). -/
theorem State.ackTake_next {s : State} {m : Nat} (hrx : s.pair.rx = []) (hm : m = (s.pair.ack + 1) % 2 ^ 32) :
    (s.ackTake m).pair.ack = m ∧ (s.ackTake m).pair.gapSince = none := by
  have hd : diff32 m s.pair.ack = 1 := hm ▸ diff32_succ _
  have htop : runTop [m] s.pair.ack = m := by
    simp only [runTop, List.foldl_cons, List.foldl_nil]
    rw [← hm, List.contains_eq_mem, if_pos (by simp)]
  have hrest : [m].filter (fun n => decide (0 < diff32 n m)) = [] := by
    simp [diff32_self]
  have hstart : s.ackStart m = s := by
    unfold State.ackStart
    rw [hd, if_neg (by simp)]
  rw [State.ackTake_eq, hstart, State.ackTaken_later (by rw [hd]; decide)]
  simp only [State.updPair, State.ackLater, hrx, List.nil_append, htop, hrest, List.isEmpty_nil, if_true, and_self]
theorem State.noted_spec {s : State} {hd : CrookHdr} {n : Nat} (hon : s.pairOn = true) (hl : s.crookLanes ≠ 0)
    (hn : n = (if s.pair.up then 0 else (s.pair.cmds.filter fun c => s.carries c.typ).length)) :
    (∃ r c w o a x g, s.noted hd = { s with
      regs := r
      pair := { s.pair with
        lastRx := s.tick, up := true, cmds := c, seen := (hd.mseq.toNat :: s.pair.seen).take 4096, ack := a, rx := x, gapSince := g }
      host := { s.host with waiting := w }
      outs := o ++ s.outs } ∧ o.length = n ∧ c.map (·.mseq) = s.pair.cmds.map (·.mseq)) ∧
    (s.pair.rx = [] → hd.mseq.toNat = (s.pair.ack + 1) % 2 ^ 32 →
      (s.noted hd).pair.ack = hd.mseq.toNat ∧ (s.noted hd).pair.gapSince = none) ∧
    (s.pair.up = true → ({ s.noted hd with pair := s.pair } : State) = s) ∧
    (s.pair.up = false → bit ((s.noted hd).get pPAIR R.PG_IRQ_RAW) 5 = true) ∧
    (0 < n → (s.noted hd).get pPAIR R.PAIR_RETRY_CNT = (s.get pPAIR R.PAIR_RETRY_CNT + n) % 2 ^ R.PAIR_RETRY_CNT.w) ∧
    s.regsBut (s.noted hd) [(pPAIR, R.PAIR_RETRY_CNT), (pPAIR, R.PG_IRQ_RAW)] := by
  obtain ⟨⟨r, c, w, o, hrise, hlen, hseq⟩, hup, hirq, hcnt, hbut⟩ := State.crookRise_spec hon hl hn
  obtain ⟨a, x, g, hnote⟩ := s.crookRise.msgNote_shape hd.mseq.toNat
  change s.noted hd = _ at hnote
  have hregs : (s.noted hd).regs = s.crookRise.regs := by rw [hnote]
  refine ⟨⟨r, c, w, o, a, x, g, ?_, hlen, hseq⟩, fun hrx hm => ?_, fun h => ?_, fun h => ?_, fun h => ?_, State.regsBut_of_regs hbut hregs⟩
  · rw [hnote, hrise]
  · refine State.ackTake_next (s := s.crookRise.updPair fun p => { p with seen := (hd.mseq.toNat :: p.seen).take 4096 }) ?_ ?_
    · rw [hrise]
      exact hrx
    · rw [hrise]
      exact hm
  · rw [hnote, hup h]
    rfl
  · rw [State.get_congr hregs]
    exact hirq h
  · rw [State.get_congr hregs]
    exact hcnt h

/-! ### Receipt -/

theorem State.crookMsg_deaf {s : State} (h : s.pairOn = false ∨ s.crookLanes = 0) (hd : CrookHdr) (g : State → State) :
    s.crookMsg hd g = s := if_pos (by rcases h with h | h <;> simp [h])
theorem State.crookRise_seen {s : State} (hon : s.pairOn = true) (hl : s.crookLanes ≠ 0) : s.crookRise.pair.seen = s.pair.seen := by
  obtain ⟨⟨r, c, w, o, hrise, -, -⟩, -⟩ := State.crookRise_spec hon hl rfl
  rw [hrise]
theorem State.crookMsg_again {s : State} {hd : CrookHdr} (hon : s.pairOn = true) (hl : s.crookLanes ≠ 0)
    (hseen : s.pair.seen.contains hd.mseq.toNat = true) (g : State → State) :
    s.crookMsg hd g = s.crookRise.incWrap pPAIR R.PAIR_DUP_CNT := by
  unfold State.crookMsg
  rw [if_neg (by simp [hon, hl])]
  dsimp only
  rw [if_pos (by rw [State.crookRise_seen hon hl]; exact hseen)]
/-- A message that is heard does what it says once it is noted. -/
theorem State.crookMsg_heard {s : State} {hd : CrookHdr} (h : s.hears hd) (g : State → State) : s.crookMsg hd g = g (s.noted hd) := by
  obtain ⟨hon, hl, hseen⟩ := h
  unfold State.crookMsg
  rw [if_neg (by simp [hon, hl])]
  dsimp only
  rw [if_neg (by rw [State.crookRise_seen hon hl, hseen]; exact Bool.false_ne_true)]
  rfl
theorem exec_crookMessageNotIntact (s : State) : exec .crookMessageNotIntact s =
    .next (if s.pairOn && s.crookLanes != 0 then s.incSat pPAIR R.PAIR_BAD_CNT else s) := rfl

/-- Settles O43: a message that no page hears and a copy by the receipt's first two cases, one that is taken by `noted_spec`. -/
theorem crookMessagesAreTakenOnce : Obligations.CrookMessagesAreTakenOnce := by
  unfold Obligations.CrookMessagesAreTakenOnce
  refine ⟨fun s i hd hi => ⟨fun h => ?_, fun hon hl hseen => ?_⟩, ?_, fun s => ⟨fun h => ?_, fun hon hl => ?_⟩⟩
  · obtain ⟨g, hg⟩ := exec_crookHead hi s
    rw [hg, State.crookMsg_deaf h]
  · obtain ⟨g, hg⟩ := exec_crookHead hi s
    rw [hg, State.crookMsg_again hon hl hseen]
    obtain ⟨⟨r, c, w, o, hrise, -, -⟩, hup, -, -, hbut⟩ := State.crookRise_spec hon hl rfl
    have hdup : s.crookRise.get pPAIR R.PAIR_DUP_CNT = s.get pPAIR R.PAIR_DUP_CNT :=
      hbut.field (by simp only [List.forall_mem_cons]; exact ⟨by decide, by decide, by simp⟩) _
    refine ⟨_, rfl, by rw [State.get_incWrap_self, hdup], ?_, ?_, ?_, ?_, fun h => ⟨?_, ?_⟩⟩
    · change s.crookRise.pair.lastRx = s.tick
      rw [hrise]
    · change s.crookRise.pair.up = true
      rw [hrise]
    · exact State.crookRise_seen hon hl
    · rw [hrise]
      exact ⟨rfl, rfl, rfl, rfl, rfl⟩
    · rw [hup h]
      exact State.regsBut_incWrap (State.regsBut_of_regs (State.regsBut_refl s _) rfl) (by simp)
    · rw [hup h]
      rfl
  · rintro s hd u n ⟨hon, hl, -⟩ rfl hn
    obtain ⟨⟨r, c, w, o, a, x, g, hshape, hlen, hseq⟩, hack, hup, hirq, hcnt, hbut⟩ := State.noted_spec (hd := hd) hon hl hn
    refine ⟨?_, ?_, ?_, ?_, hack, hup, hirq, ⟨o, ?_, hlen⟩, hcnt, hbut, ?_⟩
    · rw [hshape]
    · rw [hshape]
    · rw [hshape]
    · rw [hshape]
      exact hseq
    · rw [hshape]
    · rw [hshape]
  · rw [exec_crookMessageNotIntact, if_neg (by rcases h with h | h <;> simp [h])]
  · rw [exec_crookMessageNotIntact, if_pos (by simp [hon, hl])]
    exact ⟨_, rfl, s.get_incSat_self _ _, State.regsBut_incSat (State.regsBut_refl _ _) (by simp), rfl⟩

end Sys2Proof.Machine
end

section
/-! ### The messages that move a unit between its pair states (O44) -/
open Sys2Proof Sys2Proof.Machine
namespace Sys2Proof.Machine

/-- What a heard message leaves of everything else: the rest of the state, and every register but PAIR's resend counter and causes. -/
structure State.heardBy (s u : State) : Prop where
  shape : ∃ r c w o a x g n, u = { s with
      regs := r
      pair := { s.pair with lastRx := s.tick, up := true, cmds := c, seen := n, ack := a, rx := x, gapSince := g }
      host := { s.host with waiting := w }
      outs := o ++ s.outs }
  get : ∀ {f : Fld}, f.id ≠ R.PAIR_RETRY_CNT.id → f.id ≠ R.PG_IRQ_RAW.id → ∀ p, u.get p f = s.get p f
  page : ∀ {p : Nat}, p ≠ pPAIR → ∀ f, u.get p f = s.get p f
  on : u.pairOn = true
  lanes : u.crookLanes ≠ 0
theorem State.hears.heardBy {s : State} {hd : CrookHdr} (h : s.hears hd) : s.heardBy (s.noted hd) := by
  obtain ⟨hon, hl, -⟩ := h
  obtain ⟨⟨r, c, w, o, a, x, g, hshape, -, -⟩, -, -, -, -, hbut⟩ := State.noted_spec (hd := hd) hon hl rfl
  have hget : ∀ {f : Fld}, f.id ≠ R.PAIR_RETRY_CNT.id → f.id ≠ R.PG_IRQ_RAW.id → ∀ p, (s.noted hd).get p f = s.get p f := fun h1 h2 p =>
    hbut.field (by simp only [List.forall_mem_cons]; exact ⟨h1, h2, by simp⟩) p
  refine ⟨⟨r, c, w, o, a, x, g, _, hshape⟩, hget, fun hp f => hbut _ _ (by simp [hp]), ?_, ?_⟩
  · have hwork : (s.noted hd).working = s.working := State.working_congr (by rw [hshape]) (by rw [hshape]) (by
      simp only [List.forall_mem_cons, List.not_mem_nil, false_imp_iff, implies_true, and_true]
      exact ⟨hget (by decide) (by decide), hget (by decide) (by decide), hget (by decide) (by decide)⟩)
    rw [State.pairOn, hwork, hshape]
    exact hon
  · rw [State.crookLanes_congr (s := s) (by rw [hshape]) (hget (by decide) (by decide))]
    exact hl
section
variable {s u : State} (h : s.heardBy u)
include h
theorem State.heardBy.straps : u.straps = s.straps := by
  obtain ⟨r, c, w, o, a, x, g, n, hu⟩ := h.shape
  rw [hu]
theorem State.heardBy.pairState : u.pairState = s.pairState := State.pairState_congr h.straps (h.get (by decide) (by decide) _)
theorem State.heardBy.peerState : u.peerState = s.peerState := h.get (by decide) (by decide) _
theorem State.heardBy.frozen : u.frozen pPAIR = false := State.frozen_of_pairOn h.on
theorem State.heardBy.pairEn : u.straps.pairEn = true := State.pairEn_of_pairOn h.on
/-- What PAIR remembers besides the receipt stands. -/
theorem State.heardBy.pair : u.pair.joinTs = s.pair.joinTs ∧ u.pair.joinMore = s.pair.joinMore ∧ u.pair.answered = s.pair.answered ∧
    u.pair.tofs = s.pair.tofs ∧ u.pair.peerBars = s.pair.peerBars ∧ u.pair.up = true := by
  obtain ⟨r, c, w, o, a, x, g, n, hu⟩ := h.shape
  rw [hu]
  exact ⟨rfl, rfl, rfl, rfl, rfl, rfl⟩
theorem State.heardBy.kept : u.tick = s.tick ∧ u.cNs = s.cNs ∧ u.appl = s.appl ∧ u.breath = s.breath := by
  obtain ⟨r, c, w, o, a, x, g, n, hu⟩ := h.shape
  rw [hu]
  exact ⟨rfl, rfl, rfl, rfl⟩
theorem State.heardBy.fenced (p : Nat) : u.fenced p = s.fenced p := by
  rw [State.fenced, State.flag, h.get (by decide) (by decide)]
  rfl
theorem State.heardBy.resetting (p : Nat) : u.resetting p = s.resetting p := by
  obtain ⟨r, c, w, o, a, x, g, n, hu⟩ := h.shape
  have hshut : u.shut = s.shut := by
    rw [State.shut, State.flag, h.get (by decide) (by decide)]
    rfl
  unfold State.resetting State.held
  rw [hshut, hu]
end

theorem State.setPairState_pair (s : State) (v : Nat) : ∃ g, (s.setPairState v).pair = { s.pair with gaveUp := g } := by
  unfold State.setPairState
  split
  · exact ⟨s.pair.gaveUp, rfl⟩
  · dsimp only
    obtain ⟨r, w, hrep⟩ := State.reports_cause ((s.set pPAIR R.PAIR_STAT_STATE v).updPair fun p =>
      { p with gaveUp := v != 7 && (p.gaveUp || s.get pPAIR R.PAIR_STAT_STATE == 7) }) pPAIR 3
    rw [hrep]
    exact ⟨_, rfl⟩
theorem State.enterClaim_keeps (s : State) : ∃ g, s.enterClaim.pair = { s.pair with everClaim := true, giving := 0, gaveUp := g } := by
  unfold State.enterClaim
  dsimp only
  generalize hu : (if s.pair.everClaim then s.incSat pPAIR R.PAIR_RET_CNT else s) = u
  have hpair : u.pair = s.pair := by
    rw [← hu]
    split <;> rfl
  obtain ⟨g, hg⟩ := (u.updPair fun p => { p with everClaim := true, giving := 0 }).setPairState_pair 7
  rw [hg, ← hpair]
  exact ⟨g, rfl⟩

/-! ### HELLO -/

/-- What HELLO does once it is heard (R233). -/
def State.helloTaken (s : State) (ver : Byte) (pairEn home : Bool) (unit : BitVec 4) (st : Byte) : State :=
  let s := s.set pPAIR R.PAIR_STAT_PEER_UNIT unit.toNat
  let ok := pairEn && home != s.straps.home && unit != s.straps.unitId && ver == 1
  if s.pairState ≠ 2 then s
  else if !ok then s.err pPAIR 0x70 2 0
  else if s.straps.home && st != 7 then s.enterClaim
  else s.setPairState 3
theorem exec_hello {s : State} {hd : CrookHdr} (h : s.hears hd) (ver : Byte) (pairEn home : Bool) (unit : BitVec 4) (st : Byte) :
    exec (.hello hd ver pairEn home unit st) s = .next ((s.noted hd).helloTaken ver pairEn home unit st) :=
  congrArg _ (State.crookMsg_heard h fun s => s.helloTaken ver pairEn home unit st)
section
variable (u : State) (ver : Byte) (pairEn home : Bool) (unit : BitVec 4) (st : Byte)
theorem State.pairState_setUnit : (u.set pPAIR R.PAIR_STAT_PEER_UNIT unit.toNat).pairState = u.pairState :=
  State.pairState_congr rfl (u.get_set_field _ _ (by decide))
/-- A HELLO in another state than WAIT shows the partner's number only. -/
theorem State.helloTaken_other (h : u.pairState ≠ 2) :
    u.helloTaken ver pairEn home unit st = u.set pPAIR R.PAIR_STAT_PEER_UNIT unit.toNat := by
  unfold State.helloTaken
  simp only [u.pairState_setUnit, if_pos h]
theorem State.helloTaken_wait (h : u.pairState = 2) {ok : Bool}
    (hok : ok = (pairEn && home != u.straps.home && unit != u.straps.unitId && ver == 1)) : u.helloTaken ver pairEn home unit st =
    (let t := u.set pPAIR R.PAIR_STAT_PEER_UNIT unit.toNat
    if ok then (if u.straps.home = true ∧ st ≠ 7 then t.enterClaim else t.setPairState 3) else t.err pPAIR 0x70 2 0) := by
  unfold State.helloTaken
  have hstraps : (u.set pPAIR R.PAIR_STAT_PEER_UNIT unit.toNat).straps = u.straps := rfl
  simp only [u.pairState_setUnit, h, hstraps, ne_eq, not_true_eq_false, if_false, ← hok]
  cases ok <;> simp [bne_iff_ne]
end
/-- The registers that a HELLO may change. -/
def helloFields : List (Nat × Fld) :=
  [(pPAIR, R.PAIR_STAT_PEER_UNIT), (pPAIR, R.PAIR_STAT_STATE), (pPAIR, R.PAIR_RET_CNT)] ++ errFields pPAIR
theorem State.helloTaken_spec {u : State} (hp : u.straps.pairEn = true) (hf : u.frozen pPAIR = false) (ver : Byte)
    (pairEn home : Bool) (unit : BitVec 4) (st : Byte) {ok : Bool}
    (hok : ok = (pairEn && home != u.straps.home && unit != u.straps.unitId && ver == 1)) {t : State}
    (ht : u.helloTaken ver pairEn home unit st = t) :
    t.get pPAIR R.PAIR_STAT_PEER_UNIT = unit.toNat ∧
    (u.pairState = 2 → ok = true → (if u.straps.home = true ∧ st ≠ 7 then t.pairState = 7 ∧
        t.pair.everClaim = true else t.pairState = 3) ∧
      bit (t.get pPAIR R.PG_IRQ_RAW) 3 = true) ∧
    (u.pairState = 2 → ok = false → t.pairState = 2 ∧
      t.get pPAIR R.PG_ERR_CNT = min (u.get pPAIR R.PG_ERR_CNT + 1) (2 ^ R.PG_ERR_CNT.w - 1) ∧
      (u.get pPAIR R.PG_ERR_CNT = 0 → t.get pPAIR R.PG_ERR_INFO_CODE = 0x70 ∧
        t.get pPAIR R.PG_ERR_INFO_SRC = 2)) ∧
    u.regsBut t helloFields ∧
    ({ t with regs := u.regs, pair := u.pair, host := u.host } : State) = u := by
  have hunit : (u.set pPAIR R.PAIR_STAT_PEER_UNIT unit.toNat).get pPAIR R.PAIR_STAT_PEER_UNIT = unit.toNat :=
    (u.get_set_self _ _ _).trans (Nat.mod_eq_of_lt unit.isLt)
  have hst : (u.set pPAIR R.PAIR_STAT_PEER_UNIT unit.toNat).pairState = u.pairState :=
    State.pairState_congr rfl (u.get_set_field _ _ (by decide))
  have hft : (u.set pPAIR R.PAIR_STAT_PEER_UNIT unit.toNat).frozen pPAIR = false := by
    rw [← hf]
    exact State.frozen_congr (u.get_set_field _ _ (by decide))
  have hcnt : (u.set pPAIR R.PAIR_STAT_PEER_UNIT unit.toNat).get pPAIR R.PG_ERR_CNT = u.get pPAIR R.PG_ERR_CNT :=
    u.get_set_field _ _ (by decide)
  have hbut : u.regsBut (u.set pPAIR R.PAIR_STAT_PEER_UNIT unit.toNat) helloFields :=
    State.regsBut_set (State.regsBut_refl _ _) _ (by simp [helloFields])
  have hwait := fun h => u.helloTaken_wait ver pairEn home unit st h hok
  have hother := u.helloTaken_other ver pairEn home unit st
  rw [ht] at hwait hother
  generalize hv : u.set pPAIR R.PAIR_STAT_PEER_UNIT unit.toNat = v at *
  have hframe : u.wrote v := hv ▸ u.wrote_set _ _ _
  clear hv
  obtain ⟨r, rfl⟩ := hframe
  by_cases h2 : u.pairState = 2
  swap
  · rw [hother h2]
    exact ⟨hunit, fun h => absurd h h2, fun h => absurd h h2, hbut, rfl⟩
  rw [hwait h2]
  cases ok with
  | false =>
    obtain ⟨herr, hrec⟩ := State.err_recorded _ hft 0x70 2 0 0 0
    simp only [Bool.false_eq_true, if_false]
    obtain ⟨r', w, hrep⟩ := State.reports_err { u with regs := r } pPAIR 0x70 2 0 0 0
    refine ⟨(State.get_err_field _ _ _ _ _ _ _ (by decide)).trans hunit, fun _ h => h.elim, fun _ _ => ⟨?_, ?_, fun h0 => ?_⟩,
      State.regsBut_err hbut _ _ _ _ _ _ (List.subset_append_right _ _), by rw [hrep]⟩
    · exact (State.pairState_congr (s := { u with regs := r }) (by rw [hrep]) (State.get_err_field _ _ _ _ _ _ _ (by decide))).trans
        (hst.trans h2)
    · rw [herr, hcnt]
    · exact hrec (hcnt.trans h0)
  | true =>
    simp only [if_true]
    by_cases hc : u.straps.home = true ∧ st ≠ 7
    · obtain ⟨h7, hever, -, hirq, -, hregs, hfr⟩ := State.claims_enterClaim { u with regs := r } hp hft
      simp only [if_pos hc]
      refine ⟨(hregs.field (by simp only [List.forall_mem_cons]; exact ⟨by decide, by decide, by decide, by simp⟩) _).trans hunit,
        fun _ _ => ⟨⟨h7, hever⟩, hirq (by rw [hst, h2]; decide)⟩, fun _ h => Bool.noConfusion h,
        State.regsBut_trans hbut (State.regsBut_mono hregs (by simp [helloFields, errFields])), ?_⟩
      exact congrArg (fun t : State => { t with regs := u.regs }) hfr
    · obtain ⟨h3, hirq, hregs, r', g, w, hset⟩ := State.setPairState_spec { u with regs := r } (v := 3) (by decide) hp hft
      simp only [if_neg hc]
      refine ⟨(hregs.field (by simp only [List.forall_mem_cons]; exact ⟨by decide, by decide, by simp⟩) _).trans hunit,
        fun _ _ => ⟨h3, hirq (by rw [hst, h2]; decide)⟩, fun _ h => Bool.noConfusion h,
        State.regsBut_trans hbut (State.regsBut_mono hregs (by simp [helloFields, errFields])), by rw [hset]⟩

/-! ### JOIN as it is sent -/

/-- A command of the pair's protocol goes out and is kept until it is acknowledged (R231). -/
theorem State.crookCommand_eq {s : State} (h : s.pairOn = true) {typ : Nat} (hc : s.carries typ = true) (payload : List Byte) :
    s.crookCommand typ payload = { s with
      pair := { s.pair with mseq := s.nextMseq, cmds := s.pair.cmds ++ [⟨s.nextMseq, typ, payload, 1, s.tick⟩] }
      outs := if s.crookLanes = 0 then s.outs else .crook typ (crookBody s s.nextMseq payload) :: s.outs } := by
  unfold State.crookCommand
  rw [if_neg (by simp [h, hc]), State.crookSend_eq h]
  rfl
theorem State.carries_join (s : State) : s.carries 0x10 = true ∧ s.carries 0x11 = true := by
  unfold State.carries
  simp
/-- The reference sends JOIN with T_s 50 µs ahead (R234). -/
theorem State.joinSend_eq {s : State} (h : s.pairOn = true) : s.joinSend = { s with
    pair := { s.pair with
      mseq := s.nextMseq
      cmds := s.pair.cmds ++ [⟨s.nextMseq, 0x10, leBytes 8 ((s.cNs + 50000) % 2 ^ 64), 1, s.tick⟩]
      joinTs := some ((s.cNs + 50000) % 2 ^ 64)
      joiner := false
      latched := false
      answered := 0 }
    outs := if s.crookLanes = 0 then s.outs else
      .crook 0x10 (crookBody s s.nextMseq (leBytes 8 ((s.cNs + 50000) % 2 ^ 64))) :: s.outs } := by
  unfold State.joinSend
  dsimp only
  generalize (s.cNs + 50000) % 2 ^ 64 = ts
  rw [State.crookCommand_eq h s.carries_join.1]
  rfl

/-! ### STATE, GIVEUP, BREATH and TIME -/

/-- The partner's state and lines as its STATE gives them, before anything follows from them (R230). -/
def State.stateTaken (s : State) (st : Byte) (ack : W32) (lines : List W32) : State :=
  let s := s.updPair fun p => { p with
    peerLines := lines.map (·.toNat)
    cmds := p.cmds.filter fun c => decide (0 < diff32 c.mseq ack.toNat)
    answered := if st == 3 && s.peerState == 3 then p.answered else 0
    peerBars := if st.toNat < 3 || (st == 3 && s.peerState != 3) then 0 else p.peerBars }
  s.set pPAIR R.PAIR_STAT_PEER_STATE st.toNat
theorem exec_state {s : State} {hd : CrookHdr} (h : s.hears hd) (st level : Byte) (ack : W32) (lines : List W32) (cause : W32) :
    exec (.state hd st level ack lines cause) s = .next (
      let t := (s.noted hd).stateTaken st ack lines
      if t.straps.home && 4 ≤ t.pairState && t.pairState ≤ 6 && st != 7 then t.enterClaim else t.joinLater) :=
  congrArg _ (State.crookMsg_heard h fun s =>
    let t := s.stateTaken st ack lines
    if t.straps.home && 4 ≤ t.pairState && t.pairState ≤ 6 && st != 7 then t.enterClaim else t.joinLater)
theorem State.stateTaken_spec (u : State) (st : Byte) (ack : W32) (lines : List W32) :
    (∃ r, u.stateTaken st ack lines = { u with
      regs := r
      pair := { u.pair with
        peerLines := lines.map (·.toNat)
        cmds := u.pair.cmds.filter fun c => decide (0 < diff32 c.mseq ack.toNat)
        answered := if st = 3 ∧ u.peerState = 3 then u.pair.answered else 0
        peerBars := if st.toNat < 3 ∨ (st = 3 ∧ u.peerState ≠ 3) then 0 else u.pair.peerBars } }) ∧
    u.regsBut (u.stateTaken st ack lines) [(pPAIR, R.PAIR_STAT_PEER_STATE)] ∧
    (u.stateTaken st ack lines).peerState = st.toNat % 2 ^ R.PAIR_STAT_PEER_STATE.w := by
  refine ⟨⟨(u.stateTaken st ack lines).regs, ?_⟩, ?_, State.get_set_self _ _ _ _⟩
  · unfold State.stateTaken
    simp only [Bool.and_eq_true, Bool.or_eq_true, beq_iff_eq, bne_iff_ne, decide_eq_true_eq]
    rfl
  · exact State.regsBut_set (State.regsBut_of_regs (State.regsBut_refl u _) rfl) _ (by simp)
/-- When a joiner waits for a JOIN that the reference can send (R234 step 4). -/
theorem State.joinLater_eq {s : State} (hon : s.pairOn = true) (hup : s.pair.up = true) : s.joinLater =
    if s.pairState = 7 ∧ s.pair.joinMore = true ∧ 4 ≤ s.peerState ∧ s.peerState ≤ 7 ∧ s.pair.joinTs = none then s.joinSend else s := by
  unfold State.joinLater
  have hcu : s.crookUp = true := by rw [State.crookUp, hon, hup]; rfl
  refine if_congr ?_ rfl rfl
  simp only [hcu, Bool.true_and, Bool.and_eq_true, beq_iff_eq, decide_eq_true_eq, Option.isNone_iff_eq_none]
  tauto
theorem exec_giveupMessage {s : State} {hd : CrookHdr} (h : s.hears hd) (cause : Byte) (lines : List W32) :
    exec (.giveupMessage hd cause lines) s = .next (
      let u := s.noted hd
      if !u.straps.home then u
      else if u.pairState = 7 then u.updPair fun p => { p with giving := 0 }
      else if 4 ≤ u.pairState ∧ u.pairState ≤ 6 then u.enterClaim
      else u) :=
  congrArg _ (State.crookMsg_heard h fun u =>
    if !u.straps.home then u
    else if u.pairState = 7 then u.updPair fun p => { p with giving := 0 }
    else if 4 ≤ u.pairState ∧ u.pairState ≤ 6 then u.enterClaim
    else u)
/-- What BREATH does on a page that takes it (R219). -/
def State.breathTaken (s : State) (target : W32) : State :=
  let t := (s.set pBREATH R.BREATH_PEER_CEIL (min 120000 target.toNat)).set pBREATH R.BREATH_PEER_VALID 1
  { t with breath := { t.breath with peerUntil := s.tick + 4 * max 1563 (s.ap pBREATH R.BREATH_PER) } }
theorem exec_breathMessage {s : State} {hd : CrookHdr} (h : s.hears hd) (target : W32) :
    exec (.breathMessage hd target) s = .next (
      let u := s.noted hd
      if u.fenced pBREATH || u.resetting pBREATH then u else u.breathTaken target) :=
  congrArg _ (State.crookMsg_heard h fun u => if u.fenced pBREATH || u.resetting pBREATH then u else u.breathTaken target)
/-- What a TIME request does: its answer, and the JOIN after the eighth one (R234). -/
def State.timeAsked (s : State) (t1 : W64) : State :=
  let s := s.crookSend 0x03 ([1] ++ zeros 7 ++ leBytes 8 t1.toNat ++ leBytes 8 s.cNs ++ leBytes 8 s.cNs)
  if s.pairState = 7 ∧ s.peerState = 3 ∧ s.pair.joinTs.isNone = true then
    let s := s.updPair fun p => { p with answered := p.answered + 1 }
    if s.pair.answered < 8 then s else s.joinSend
  else s
/-- What the answer to a TIME request gives (R230, R234). -/
def State.timeAnswered (s : State) (t1 t2 t3 : W64) : State :=
  let ofs := Int.fdiv (diff64 t2.toNat t1.toNat + diff64 t3.toNat s.cNs) 2
  let dly := Int.fdiv (diff64 s.cNs t1.toNat - diff64 t3.toNat t2.toNat) 2
  let s := (s.set64 pPAIR R.PAIR_TOFS_LO R.PAIR_TOFS_HI (uns 64 ofs)).set pPAIR R.PAIR_DELAY (uns 16 dly)
  if s.pairState = 3 then s.updPair fun p => { p with tofs := ((ofs, dly) :: p.tofs).take 8 } else s
theorem exec_time_request {s : State} {hd : CrookHdr} (h : s.hears hd) (t1 t2 t3 : W64) :
    exec (.time hd false t1 t2 t3) s = .next ((s.noted hd).timeAsked t1) :=
  congrArg _ ((State.crookMsg_heard h fun u => if !false then u.timeAsked t1 else u.timeAnswered t1 t2 t3).trans (if_pos rfl))
theorem exec_time_reply {s : State} {hd : CrookHdr} (h : s.hears hd) (t1 t2 t3 : W64) :
    exec (.time hd true t1 t2 t3) s = .next ((s.noted hd).timeAnswered t1 t2 t3) :=
  congrArg _ ((State.crookMsg_heard h fun u => if !true then u.timeAsked t1 else u.timeAnswered t1 t2 t3).trans
    (if_neg Bool.false_ne_true))

section
variable {s u : State} (H : s.heardBy u)
include H
/-- What stands of what a STATE changes (R230). -/
theorem State.stateTaken_kept (st : Byte) (ack : W32) (lines : List W32) {v : State} (hv : u.stateTaken st ack lines = v) :
    v.pairState = s.pairState ∧ v.pairOn = true ∧ v.crookLanes ≠ 0 ∧
    (∀ b, crookBody v v.nextMseq b = crookBody u u.nextMseq b) ∧
    v.straps = s.straps ∧ v.cNs = s.cNs ∧ v.pair.joinMore = s.pair.joinMore ∧ v.pair.joinTs = s.pair.joinTs ∧
    v.pair.up = true ∧ v.outs = u.outs := by
  obtain ⟨hjts, hmore, -, -, -, hup⟩ := H.pair
  obtain ⟨-, hcns, -, -⟩ := H.kept
  obtain ⟨⟨r, hshape⟩, hbut, -⟩ := u.stateTaken_spec st ack lines
  have hget : ∀ {f : Fld}, f.id ≠ R.PAIR_STAT_PEER_STATE.id → ∀ p, (u.stateTaken st ack lines).get p f = u.get p f :=
    fun hf => hbut.field (by simpa using hf)
  rw [hv] at hshape hget
  clear hbut hv
  have hwork : v.working = u.working := State.working_congr (by rw [hshape]) (by rw [hshape]) (by
    simp only [List.forall_mem_cons, List.not_mem_nil, false_imp_iff, implies_true, and_true]
    exact ⟨hget (by decide), hget (by decide), hget (by decide)⟩)
  refine ⟨(State.pairState_congr (by rw [hshape]) (hget (by decide) _)).trans H.pairState, ?_, ?_, fun b => ?_, ?_⟩
  · rw [State.pairOn, hwork, hshape]
    exact H.on
  · rw [State.crookLanes_congr (s := u) (by rw [hshape]) (hget (by decide))]
    exact H.lanes
  · rw [hshape]
    rfl
  · rw [hshape]
    exact ⟨H.straps, hcns, hmore, hjts, hup, rfl⟩
/-- A STATE that takes the home unit to CLAIM. -/
theorem State.stateTaken_claims (st : Byte) (ack : W32) (lines : List W32) :
    ∃ t, (u.stateTaken st ack lines).enterClaim = t ∧ t.peerState = st.toNat % 2 ^ R.PAIR_STAT_PEER_STATE.w ∧
      t.pair.peerLines = lines.map (·.toNat) ∧ t.pair.cmds = (u.pair.cmds.filter fun c => decide (0 < diff32 c.mseq ack.toNat)) ∧
      t.pairState = 7 ∧ t.pair.everClaim = true ∧
      u.regsBut t [(pPAIR, R.PAIR_STAT_PEER_STATE), (pPAIR, R.PAIR_STAT_STATE), (pPAIR, R.PAIR_RET_CNT), (pPAIR, R.PG_IRQ_RAW)] ∧
      ({ t with regs := u.regs, pair := u.pair, host := u.host } : State) = u := by
  obtain ⟨⟨r, hshape⟩, hbut, hpeer⟩ := u.stateTaken_spec st ack lines
  obtain ⟨-, hon, -⟩ := State.stateTaken_kept H st ack lines rfl
  generalize u.stateTaken st ack lines = v at hshape hbut hpeer hon
  obtain ⟨h7, hever, -, -, -, hregs, hfr⟩ := State.claims_of_pairOn hon
  obtain ⟨g, hpair⟩ := v.enterClaim_keeps
  generalize v.enterClaim = w at h7 hever hregs hfr hpair
  have hpl : v.pair.peerLines = lines.map (·.toNat) ∧ v.pair.cmds = (u.pair.cmds.filter fun c => decide (0 < diff32 c.mseq ack.toNat)) := by
    rw [hshape]
    exact ⟨rfl, rfl⟩
  refine ⟨_, rfl, ?_, ?_, ?_, h7, hever, State.regsBut_trans (State.regsBut_mono hbut (by simp)) (State.regsBut_mono hregs (by simp)), ?_⟩
  · exact (hregs.field (by simp only [List.forall_mem_cons]; exact ⟨by decide, by decide, by decide, by simp⟩) _).trans hpeer
  · rw [hpair]
    exact hpl.1
  · rw [hpair]
    exact hpl.2
  · have hv : ({ v with regs := u.regs, pair := u.pair, host := u.host } : State) = u := by rw [hshape]
    have hw : ({ w with regs := u.regs, pair := u.pair, host := u.host } : State) = { v with regs := u.regs, pair := u.pair, host := u.host } :=
      congrArg (fun t : State => { t with regs := u.regs, pair := u.pair, host := u.host }) hfr
    exact hw.trans hv
/-- A JOIN that was waiting for the partner's STATE is sent (R234). -/
theorem State.stateTaken_joins (st : Byte) (ack : W32) (lines : List W32) {v : State} (hv : u.stateTaken st ack lines = v) :
    v.joinLater = if s.pairState = 7 ∧ s.pair.joinMore = true ∧ 4 ≤ v.peerState ∧ v.peerState ≤ 7 ∧ s.pair.joinTs = none then { v with
        pair := { v.pair with
          mseq := v.nextMseq
          cmds := v.pair.cmds ++ [⟨v.nextMseq, 0x10, leBytes 8 ((v.cNs + 50000) % 2 ^ 64), 1, v.tick⟩]
          joinTs := some ((v.cNs + 50000) % 2 ^ 64)
          joiner := false
          latched := false
          answered := 0 }
        outs := .crook 0x10 (crookBody u u.nextMseq (leBytes 8 ((v.cNs + 50000) % 2 ^ 64))) :: u.outs }
      else v := by
  obtain ⟨hst, hon, hlanes, hbody, -, hvc, hvm, hvj, hvu, hvo⟩ := State.stateTaken_kept H st ack lines hv
  rw [State.joinLater_eq hon hvu, hst, hvm, hvj, State.joinSend_eq hon, if_neg hlanes, hbody, hvo]
theorem state_taken (st : Byte) (ack : W32) (lines : List W32) {v : State} (hv : u.stateTaken st ack lines = v) {t : State}
    (ht : t = if v.straps.home && 4 ≤ v.pairState && v.pairState ≤ 6 && st != 7 then v.enterClaim else v.joinLater) :
    t.peerState = st.toNat % 2 ^ R.PAIR_STAT_PEER_STATE.w ∧ t.pair.peerLines = lines.map (·.toNat) ∧
      (∃ l, t.pair.cmds = (u.pair.cmds.filter fun c => decide (0 < diff32 c.mseq ack.toNat)) ++ l) ∧
      (s.straps.home = true ∧ 4 ≤ s.pairState ∧ s.pairState ≤ 6 ∧ st ≠ 7 → t.pairState = 7 ∧ t.pair.everClaim = true ∧
        u.regsBut t [(pPAIR, R.PAIR_STAT_PEER_STATE), (pPAIR, R.PAIR_STAT_STATE), (pPAIR, R.PAIR_RET_CNT), (pPAIR, R.PG_IRQ_RAW)] ∧
        ({ t with regs := u.regs, pair := u.pair, host := u.host } : State) = u) ∧
      (¬ (s.straps.home = true ∧ 4 ≤ s.pairState ∧ s.pairState ≤ 6 ∧ st ≠ 7) →
        u.regsBut t [(pPAIR, R.PAIR_STAT_PEER_STATE)] ∧
        (s.pairState = 7 ∧ s.pair.joinMore = true ∧ 4 ≤ t.peerState ∧ t.peerState ≤ 7 ∧ s.pair.joinTs = none →
          t.pair.joinTs = some ((s.cNs + 50000) % 2 ^ 64) ∧ t.pair.joiner = false ∧ t.pair.latched = false ∧
          t.outs = .crook 0x10 (crookBody u u.nextMseq (leBytes 8 ((s.cNs + 50000) % 2 ^ 64))) :: u.outs ∧
          ({ t with regs := u.regs, pair := u.pair, outs := u.outs } : State) = u) ∧
        (¬ (s.pairState = 7 ∧ s.pair.joinMore = true ∧ 4 ≤ t.peerState ∧ t.peerState ≤ 7 ∧ s.pair.joinTs = none) →
          t.pair = { u.pair with
            peerLines := lines.map (·.toNat)
            cmds := u.pair.cmds.filter fun c => decide (0 < diff32 c.mseq ack.toNat)
            answered := if st = 3 ∧ s.peerState = 3 then s.pair.answered else 0
            peerBars := if st.toNat < 3 ∨ (st = 3 ∧ s.peerState ≠ 3) then 0 else s.pair.peerBars } ∧
          ({ t with regs := u.regs, pair := u.pair } : State) = u)) := by
  obtain ⟨⟨r, hshape⟩, hbut, hpeer⟩ := u.stateTaken_spec st ack lines
  obtain ⟨hst, -, -, -, hvs, hvc, -⟩ := State.stateTaken_kept H st ack lines hv
  obtain ⟨-, -, hans, -, hbars, -⟩ := H.pair
  have hcond : (v.straps.home && decide (4 ≤ v.pairState) && decide (v.pairState ≤ 6) && st != 7) = true ↔
      s.straps.home = true ∧ 4 ≤ s.pairState ∧ s.pairState ≤ 6 ∧ st ≠ 7 := by
    rw [hvs, hst]
    simp [and_assoc]
  by_cases hc : s.straps.home = true ∧ 4 ≤ s.pairState ∧ s.pairState ≤ 6 ∧ st ≠ 7
  · obtain ⟨w, hw, hwpeer, hlines, hcmds, h7, hever, hregs, hframe⟩ := State.stateTaken_claims H st ack lines
    rw [if_pos (hcond.mpr hc), ← hv, hw] at ht
    subst ht
    exact ⟨hwpeer, hlines, ⟨[], by rw [hcmds, List.append_nil]⟩, fun _ => ⟨h7, hever, hregs, hframe⟩, fun h => absurd hc h⟩
  · rw [if_neg (fun h => hc (hcond.mp h)), State.stateTaken_joins H st ack lines hv, hvc] at ht
    rw [hv] at hshape hbut hpeer
    generalize (s.cNs + 50000) % 2 ^ 64 = ts at ht ⊢
    by_cases hj : s.pairState = 7 ∧ s.pair.joinMore = true ∧ 4 ≤ v.peerState ∧ v.peerState ≤ 7 ∧ s.pair.joinTs = none
    · rw [if_pos hj] at ht
      subst ht
      refine ⟨hpeer, by rw [hshape], by rw [hshape]; exact ⟨_, rfl⟩, fun h => absurd h hc,
        fun _ => ⟨State.regsBut_of_regs hbut rfl, fun _ => ⟨rfl, rfl, rfl, rfl, by rw [← hvc, hshape]⟩, fun h => absurd hj h⟩⟩
    · rw [if_neg hj] at ht
      subst ht
      refine ⟨hpeer, by rw [hshape], ⟨[], by rw [hshape, List.append_nil]⟩, fun h => absurd h hc,
        fun _ => ⟨hbut, fun h => absurd h hj, fun _ => ⟨?_, by rw [hshape]⟩⟩⟩
      rw [hshape, H.peerState, hans, hbars]
theorem State.timeAsked_spec (t1 : W64) {body : List Byte} {t : State} (ht : u.timeAsked t1 = t)
    (hbody : body = crookBody u u.nextMseq ([1] ++ zeros 7 ++ leBytes 8 t1.toNat ++ leBytes 8 s.cNs ++ leBytes 8 s.cNs)) :
    (¬ (s.pairState = 7 ∧ s.peerState = 3 ∧ s.pair.joinTs = none ∧ 7 ≤ s.pair.answered) → t.outs = .crook 0x03 body :: u.outs ∧
      t.pair = { u.pair with
        mseq := u.nextMseq
        answered := if s.pairState = 7 ∧ s.peerState = 3 ∧ s.pair.joinTs = none then s.pair.answered + 1 else s.pair.answered }) ∧
    (s.pairState = 7 ∧ s.peerState = 3 ∧ s.pair.joinTs = none ∧ 7 ≤ s.pair.answered →
      t.outs = .crook 0x10 (crookBody u ((u.nextMseq + 1) % 2 ^ 32) (leBytes 8 ((s.cNs + 50000) % 2 ^ 64))) ::
        .crook 0x03 body :: u.outs ∧
      t.pair.joinTs = some ((s.cNs + 50000) % 2 ^ 64) ∧ t.pair.latched = false ∧ t.pair.joiner = false ∧ t.pair.answered = 0 ∧
      t.pair.cmds.map (·.typ) = u.pair.cmds.map (·.typ) ++ [0x10]) ∧
    ({ t with pair := u.pair, outs := u.outs } : State) = u := by
  obtain ⟨hjts, -, hans, -, -, -⟩ := H.pair
  obtain ⟨-, hcns, -, -⟩ := H.kept
  have hsend := State.crookSend_eq H.on 0x03 ([1] ++ zeros 7 ++ leBytes 8 t1.toNat ++ leBytes 8 u.cNs ++ leBytes 8 u.cNs)
  rw [← hcns] at hbody
  rw [if_neg H.lanes, ← hbody] at hsend
  unfold State.timeAsked at ht
  rw [hsend] at ht
  dsimp only at ht
  have hst : State.pairState { u with pair := { u.pair with mseq := u.nextMseq }, outs := .crook 0x03 body :: u.outs } = s.pairState :=
    H.pairState
  have hpe : State.peerState { u with pair := { u.pair with mseq := u.nextMseq }, outs := .crook 0x03 body :: u.outs } = s.peerState :=
    H.peerState
  rw [hst, hpe] at ht
  have hcond : s.pairState = 7 ∧ s.peerState = 3 ∧ u.pair.joinTs.isNone = true ↔ s.pairState = 7 ∧ s.peerState = 3 ∧ s.pair.joinTs = none := by
    rw [Option.isNone_iff_eq_none, hjts]
  by_cases hj : s.pairState = 7 ∧ s.peerState = 3 ∧ s.pair.joinTs = none
  swap
  · rw [if_neg fun h => hj (hcond.mp h)] at ht
    subst ht
    refine ⟨fun _ => ⟨rfl, ?_⟩, fun h => absurd ⟨h.1, h.2.1, h.2.2.1⟩ hj, rfl⟩
    rw [if_neg hj, ← hans]
  rw [if_pos (hcond.mpr hj)] at ht
  rw [if_pos hj]
  obtain ⟨h7, h3, hn⟩ := hj
  have hasked : (State.updPair { u with pair := { u.pair with mseq := u.nextMseq }, outs := .crook 0x03 body :: u.outs } fun p =>
      { p with answered := p.answered + 1 }) = { u with
        pair := { u.pair with mseq := u.nextMseq, answered := s.pair.answered + 1 }
        outs := .crook 0x03 body :: u.outs } := by
    rw [← hans]
    rfl
  rw [hasked] at ht
  dsimp only at ht
  by_cases h8 : s.pair.answered + 1 < 8
  · rw [if_pos h8] at ht
    subst ht
    exact ⟨fun _ => ⟨rfl, rfl⟩, fun h => absurd h.2.2.2 (by omega), rfl⟩
  · have hon : State.pairOn { u with
        pair := { u.pair with mseq := u.nextMseq, answered := s.pair.answered + 1 }
        outs := .crook 0x03 body :: u.outs } = true := H.on
    rw [if_neg h8, State.joinSend_eq hon] at ht
    have hlanes : ¬ State.crookLanes { u with
        pair := { u.pair with mseq := u.nextMseq, answered := s.pair.answered + 1 }
        outs := .crook 0x03 body :: u.outs } = 0 := H.lanes
    rw [if_neg hlanes] at ht
    dsimp only at ht
    rw [← hcns]
    generalize (u.cNs + 50000) % 2 ^ 64 = ts at ht ⊢
    subst ht
    exact ⟨fun h => absurd ⟨h7, h3, hn, by omega⟩ h, fun _ => ⟨rfl, rfl, rfl, rfl, rfl, List.map_append⟩, rfl⟩
theorem State.timeAnswered_spec (t1 t2 t3 : W64) {ofs dly : Int} {t : State} (ht : u.timeAnswered t1 t2 t3 = t)
    (hofs : ofs = Int.fdiv (diff64 t2.toNat t1.toNat + diff64 t3.toNat s.cNs) 2)
    (hdly : dly = Int.fdiv (diff64 s.cNs t1.toNat - diff64 t3.toNat t2.toNat) 2) :
    t.get64 pPAIR R.PAIR_TOFS_LO R.PAIR_TOFS_HI = uns 64 ofs ∧ t.get pPAIR R.PAIR_DELAY = uns 16 dly ∧
    t.pair = { u.pair with tofs := if s.pairState = 3 then ((ofs, dly) :: s.pair.tofs).take 8 else s.pair.tofs } ∧
    u.regsBut t [(pPAIR, R.PAIR_TOFS_LO), (pPAIR, R.PAIR_TOFS_HI), (pPAIR, R.PAIR_DELAY)] ∧
    ({ t with regs := u.regs, pair := u.pair } : State) = u := by
  obtain ⟨-, -, -, htofs, -, -⟩ := H.pair
  obtain ⟨-, hcns, -, -⟩ := H.kept
  unfold State.timeAnswered at ht
  rw [hcns, ← hofs, ← hdly] at ht
  dsimp only at ht
  have hu64 : uns 64 ofs % 2 ^ 64 = uns 64 ofs := by
    have h := uns_cast 64 ofs
    omega
  have hu16 : uns 16 dly % 2 ^ 16 = uns 16 dly := by
    have h := uns_cast 16 dly
    omega
  have h64 := (u.get64_set64 pPAIR (uns 64 ofs) (show R.PAIR_TOFS_LO.id ≠ R.PAIR_TOFS_HI.id by decide) rfl rfl rfl).trans hu64
  have hdl : ((u.set64 pPAIR R.PAIR_TOFS_LO R.PAIR_TOFS_HI (uns 64 ofs)).set pPAIR R.PAIR_DELAY (uns 16 dly)).get pPAIR R.PAIR_DELAY =
      uns 16 dly := (State.get_set_self _ _ _ _).trans hu16
  have hother : ∀ {f : Fld}, f.id ≠ R.PAIR_DELAY.id → ((u.set64 pPAIR R.PAIR_TOFS_LO R.PAIR_TOFS_HI (uns 64 ofs)).set pPAIR R.PAIR_DELAY
      (uns 16 dly)).get pPAIR f = (u.set64 pPAIR R.PAIR_TOFS_LO R.PAIR_TOFS_HI (uns 64 ofs)).get pPAIR f := fun hf =>
    State.get_set_field _ _ _ hf
  have hbut : u.regsBut ((u.set64 pPAIR R.PAIR_TOFS_LO R.PAIR_TOFS_HI (uns 64 ofs)).set pPAIR R.PAIR_DELAY (uns 16 dly))
      [(pPAIR, R.PAIR_TOFS_LO), (pPAIR, R.PAIR_TOFS_HI), (pPAIR, R.PAIR_DELAY)] :=
    State.regsBut_set (State.regsBut_set (State.regsBut_set (State.regsBut_refl _ _) _ (by simp)) _ (by simp)) _ (by simp)
  have hwrote : u.wrote ((u.set64 pPAIR R.PAIR_TOFS_LO R.PAIR_TOFS_HI (uns 64 ofs)).set pPAIR R.PAIR_DELAY (uns 16 dly)) :=
    (u.wrote_set64 _ _ _ _).trans (State.wrote_set _ _ _ _)
  have hread : ((u.set64 pPAIR R.PAIR_TOFS_LO R.PAIR_TOFS_HI (uns 64 ofs)).set pPAIR R.PAIR_DELAY (uns 16 dly)).get64 pPAIR
      R.PAIR_TOFS_LO R.PAIR_TOFS_HI = uns 64 ofs := by
    rw [State.get64, hother (by decide), hother (by decide)]
    exact h64
  have hstate : ((u.set64 pPAIR R.PAIR_TOFS_LO R.PAIR_TOFS_HI (uns 64 ofs)).set pPAIR R.PAIR_DELAY (uns 16 dly)).get pPAIR
      R.PAIR_STAT_STATE = u.get pPAIR R.PAIR_STAT_STATE := by
    rw [hother (by decide), State.get_set64_ne _ _ _ (by decide)]
  generalize (u.set64 pPAIR R.PAIR_TOFS_LO R.PAIR_TOFS_HI (uns 64 ofs)).set pPAIR R.PAIR_DELAY (uns 16 dly) = v at *
  obtain ⟨r, rfl⟩ := hwrote
  have hst : State.pairState { u with regs := r } = s.pairState := (State.pairState_congr (s := u) (t := { u with regs := r }) rfl hstate).trans H.pairState
  rw [hst] at ht
  by_cases h3 : s.pairState = 3
  · rw [if_pos h3] at ht ⊢
    subst ht
    refine ⟨hread, hdl, ?_, hbut, rfl⟩
    rw [← htofs]
    rfl
  · rw [if_neg h3] at ht ⊢
    subst ht
    refine ⟨hread, hdl, ?_, hbut, rfl⟩
    rw [← htofs]
theorem State.breathTaken_spec (target : W32) :
    (u.breathTaken target).get pBREATH R.BREATH_PEER_CEIL = min 120000 target.toNat ∧
    (u.breathTaken target).get pBREATH R.BREATH_PEER_VALID = 1 ∧
    (u.breathTaken target).breath = { s.breath with peerUntil := s.tick + 4 * max 1563 (s.ap pBREATH R.BREATH_PER) } ∧
    u.regsBut (u.breathTaken target) [(pBREATH, R.BREATH_PEER_CEIL), (pBREATH, R.BREATH_PEER_VALID)] ∧
    ({ u.breathTaken target with regs := u.regs, breath := u.breath } : State) = u := by
  obtain ⟨htick, -, happl, hbreath⟩ := H.kept
  have hap : u.ap pBREATH R.BREATH_PER = s.ap pBREATH R.BREATH_PER := by
    rw [State.ap, State.ap, happl]
  have hceil : ((u.set pBREATH R.BREATH_PEER_CEIL (min 120000 target.toNat)).set pBREATH R.BREATH_PEER_VALID 1).get pBREATH
      R.BREATH_PEER_CEIL = min 120000 target.toNat := by
    rw [State.get_set_field _ _ _ (by decide), State.get_set_self]
    exact Nat.mod_eq_of_lt (Nat.lt_of_le_of_lt (Nat.min_le_left _ _) (by decide))
  have hvalid : ((u.set pBREATH R.BREATH_PEER_CEIL (min 120000 target.toNat)).set pBREATH R.BREATH_PEER_VALID 1).get pBREATH
      R.BREATH_PEER_VALID = 1 := State.get_set_self _ _ _ _
  have hbut : u.regsBut ((u.set pBREATH R.BREATH_PEER_CEIL (min 120000 target.toNat)).set pBREATH R.BREATH_PEER_VALID 1)
      [(pBREATH, R.BREATH_PEER_CEIL), (pBREATH, R.BREATH_PEER_VALID)] :=
    State.regsBut_set (State.regsBut_set (State.regsBut_refl _ _) _ (by simp)) _ (by simp)
  have hwrote : u.wrote ((u.set pBREATH R.BREATH_PEER_CEIL (min 120000 target.toNat)).set pBREATH R.BREATH_PEER_VALID 1) :=
    (u.wrote_set _ _ _).trans (State.wrote_set _ _ _ _)
  unfold State.breathTaken
  generalize (u.set pBREATH R.BREATH_PEER_CEIL (min 120000 target.toNat)).set pBREATH R.BREATH_PEER_VALID 1 = v at *
  obtain ⟨r, rfl⟩ := hwrote
  refine ⟨hceil, hvalid, ?_, hbut, rfl⟩
  rw [← hbreath, ← htick, ← hap]
end

/-- Settles O44, message by message: HELLO by `helloTaken_spec`, STATE by `stateTaken_spec` and `joinLater_eq`, TIME by `joinSend_eq`. -/
theorem pairMessages : Obligations.PairMessages := by
  unfold Obligations.PairMessages
  rintro s hd u hh hu
  have H : s.heardBy u := hu ▸ hh.heardBy
  refine ⟨fun ver pairEn home unit st ok hok => ?_, fun st level ack lines cause => ?_,
    fun cause lines => ⟨fun h => ?_, fun h1 h2 => ?_, fun h1 h2 h3 => ?_⟩,
    fun target => ⟨fun h => ?_, fun h1 h2 => ?_⟩, fun t1 t2 t3 body hbody => ?_, ?_⟩
  · rw [exec_hello hh, ← hu]
    clear hu
    obtain ⟨hunit, hok', hno, hbut, hframe⟩ := State.helloTaken_spec H.pairEn H.frozen ver pairEn home unit st (ok := ok)
      (by rw [H.straps]; exact hok) rfl
    rw [H.pairState, H.straps] at hok'
    rw [H.pairState, H.get (f := R.PG_ERR_CNT) (by decide) (by decide)] at hno
    refine ⟨_, rfl, hunit, fun h => ?_, hok', hno, hbut, hframe⟩
    rw [u.helloTaken_other ver pairEn home unit st (H.pairState ▸ h)]
    exact ⟨State.regsBut_set (State.regsBut_refl _ _) _ (by simp), rfl⟩
  · rw [exec_state hh, ← hu]
    exact ⟨_, rfl, state_taken H st ack lines rfl rfl⟩
  · rw [exec_giveupMessage hh, ← hu]
    dsimp only
    rw [H.straps, H.pairState]
    rcases h with h | h
    · rw [if_pos (by simp [h])]
    · rw [if_neg (show ¬ s.pairState = 7 by omega), if_neg (show ¬ (4 ≤ s.pairState ∧ s.pairState ≤ 6) by omega), ite_self]
  · rw [exec_giveupMessage hh, ← hu]
    dsimp only
    rw [H.straps, H.pairState, if_neg (by simp [h1]), if_pos h2]
    exact ⟨_, rfl, rfl, rfl⟩
  · rw [exec_giveupMessage hh, ← hu]
    dsimp only
    rw [H.straps, H.pairState, if_neg (by simp [h1]), if_neg (by omega), if_pos ⟨h2, h3⟩]
    exact ⟨_, rfl, State.claims_of_pairOn H.on⟩
  · rw [exec_breathMessage hh, ← hu]
    dsimp only
    rw [H.fenced, H.resetting, if_pos (by simpa using h)]
  · rw [exec_breathMessage hh, ← hu]
    dsimp only
    rw [H.fenced, H.resetting, if_neg (by simp [h1, h2])]
    exact ⟨_, rfl, State.breathTaken_spec H target⟩
  · rw [exec_time_request hh, ← hu]
    exact ⟨_, rfl, State.timeAsked_spec H t1 rfl hbody⟩
  · rintro t1 t2 t3 ofs dly hofs hdly
    rw [exec_time_reply hh, ← hu]
    exact ⟨_, rfl, State.timeAnswered_spec H t1 t2 t3 rfl hofs hdly⟩

end Sys2Proof.Machine
end

section
/-! ### The home unit's commands on its partner (O47) -/
open Sys2Proof Sys2Proof.Machine
namespace Sys2Proof.Machine

/-! ### What a give-up cause keeps -/

/-- No cause falls, a first error stands, and only PAIR, its record of give-ups and messages move. -/
structure State.causeKeeps (s t : State) : Prop where
  bits : ∀ i < 32, bit (s.get pPAIR R.PG_IRQ_RAW) i = true → bit (t.get pPAIR R.PG_IRQ_RAW) i = true
  first : s.get pPAIR R.PG_ERR_CNT ≠ 0 → t.get pPAIR R.PG_ERR_CNT ≠ 0 ∧ t.get pPAIR R.PG_ERR_INFO_CODE = s.get pPAIR R.PG_ERR_INFO_CODE ∧
    t.get pPAIR R.PG_ERR_INFO_SRC = s.get pPAIR R.PG_ERR_INFO_SRC
  regs : s.regsBut t (giveFields ++ [(pPAIR, R.PAIR_STAT_STATE)])
  frame : ∃ r p w o, t = { s with regs := r, pair := p, host := { s.host with waiting := w }, outs := o }
theorem State.causeKeeps_refl (s : State) : s.causeKeeps s :=
  ⟨fun _ _ h => h, fun h => ⟨h, rfl, rfl⟩, State.regsBut_refl _ _, s.regs, s.pair, s.host.waiting, s.outs, rfl⟩
theorem State.causeKeeps.trans {s t u : State} (h : s.causeKeeps t) (k : t.causeKeeps u) : s.causeKeeps u := by
  refine ⟨fun i hi hb => k.bits i hi (h.bits i hi hb), fun h0 => ?_, State.regsBut_trans h.regs k.regs, ?_⟩
  · obtain ⟨h1, h2, h3⟩ := h.first h0
    obtain ⟨k1, k2, k3⟩ := k.first h1
    exact ⟨k1, k2.trans h2, k3.trans h3⟩
  · obtain ⟨r, p, w, o, rfl⟩ := h.frame
    obtain ⟨r', p', w', o', rfl⟩ := k.frame
    exact ⟨r', p', w', o', rfl⟩
theorem State.causeKeeps_of_regs {s t : State} (hr : t.regs = s.regs)
    (h : ∃ r p w o, t = { s with regs := r, pair := p, host := { s.host with waiting := w }, outs := o }) : s.causeKeeps t := by
  refine ⟨fun i _ hb => ?_, fun h0 => ⟨?_, ?_, ?_⟩, State.regsBut_of_regs (State.regsBut_refl _ _) hr, h⟩
  · rwa [State.get_congr hr]
  · rwa [State.get_congr hr]
  · rw [State.get_congr hr]
  · rw [State.get_congr hr]
theorem State.causeKeeps_updPair (s : State) (g : PairSt → PairSt) : s.causeKeeps (s.updPair g) :=
  State.causeKeeps_of_regs rfl ⟨s.regs, _, s.host.waiting, s.outs, rfl⟩
theorem State.causeKeeps_crookSend (s : State) (typ : Nat) (payload : List Byte) : s.causeKeeps (s.crookSend typ payload) := by
  cases h : s.pairOn with
  | false =>
    rw [State.crookSend_off h]
    exact s.causeKeeps_refl
  | true =>
    rw [State.crookSend_eq h]
    exact State.causeKeeps_of_regs rfl ⟨s.regs, _, s.host.waiting, _, rfl⟩
/-- A write of a field of PAIR that is neither an error's nor the causes'. -/
theorem State.causeKeeps_wrote {s t : State} {l : List (Nat × Fld)} (hw : s.wrote t) (hb : s.regsBut t l)
    (hl : l ⊆ giveFields ++ [(pPAIR, R.PAIR_STAT_STATE)])
    (hn : ∀ e ∈ l, e.2.id ∉ [R.PG_IRQ_RAW.id, R.PG_ERR_CNT.id, R.PG_ERR_INFO_CODE.id, R.PG_ERR_INFO_SRC.id]) : s.causeKeeps t := by
  have hsame : ∀ {f : Fld}, f.id ∈ [R.PG_IRQ_RAW.id, R.PG_ERR_CNT.id, R.PG_ERR_INFO_CODE.id, R.PG_ERR_INFO_SRC.id] →
      t.get pPAIR f = s.get pPAIR f := fun hf => hb.field (fun e he h => hn e he (h ▸ hf)) _
  obtain ⟨r, hr⟩ := hw
  refine ⟨fun i _ h => ?_, fun h0 => ⟨?_, ?_, ?_⟩, State.regsBut_mono hb hl, r, s.pair, s.host.waiting, s.outs, hr⟩
  · rwa [hsame (by simp)]
  · rwa [hsame (by simp)]
  · exact hsame (by simp)
  · exact hsame (by simp)
theorem State.causeKeeps_cause (s : State) (i : Nat) : s.causeKeeps (s.cause pPAIR i) := by
  obtain ⟨r, w, hrep⟩ := s.reports_cause pPAIR i
  refine ⟨fun j hj hb => s.bit_cause_keeps hj hb, fun h0 => ⟨?_, ?_, ?_⟩,
    State.regsBut_cause (State.regsBut_refl _ _) _ (by simp [giveFields, errFields]), r, s.pair, w, s.outs, hrep⟩
  · rwa [State.get_cause_field _ _ _ (by decide)]
  · exact State.get_cause_field _ _ _ (by decide)
  · exact State.get_cause_field _ _ _ (by decide)
theorem State.causeKeeps_err (s : State) (code src lo hi dir : Nat) : s.causeKeeps (s.err pPAIR code src lo hi dir) := by
  by_cases hf : s.frozen pPAIR = true
  · rw [State.err_frozen _ _ _ _ _ _ _ hf]
    exact s.causeKeeps_refl
  obtain ⟨r, w, hrep⟩ := s.reports_err pPAIR code src lo hi dir
  have herr : s.get pPAIR R.PG_ERR_CNT ≠ 0 → s.err pPAIR code src lo hi dir = (s.incSat pPAIR R.PG_ERR_CNT).cause pPAIR 1 := fun h0 => by
    rw [State.err, if_neg hf, State.errCount, if_neg h0]
  refine ⟨fun i hi hb => ?_, fun h0 => ?_, State.regsBut_err (State.regsBut_refl _ _) _ _ _ _ _ _ (by
    intro e he
    simp only [giveFields, List.mem_append]
    exact Or.inl (Or.inr he)), r, s.pair, w, s.outs, hrep⟩
  · rw [State.err, if_neg hf]
    refine State.bit_cause_keeps _ hi ?_
    unfold State.errCount
    rw [State.get_incSat_field _ _ (by decide)]
    split
    · rw [State.get_set_field _ _ _ (by decide), State.get_set_field _ _ _ (by decide), State.get_set_field _ _ _ (by decide),
        State.get_set_field _ _ _ (by decide), State.get_set_field _ _ _ (by decide)]
      exact hb
    · exact hb
  · rw [herr h0]
    refine ⟨?_, ?_, ?_⟩
    · rw [State.get_cause_field _ _ _ (by decide), State.get_incSat_self]
      have hw : 1 ≤ 2 ^ R.PG_ERR_CNT.w - 1 := by decide
      omega
    · rw [State.get_cause_field _ _ _ (by decide), State.get_incSat_field _ _ (by decide)]
    · rw [State.get_cause_field _ _ _ (by decide), State.get_incSat_field _ _ (by decide)]
theorem State.causeKeeps_giveRecord (s : State) (c code b : Nat) (uncov : Bool) : s.causeKeeps (s.giveRecord c code b uncov) := by
  unfold State.giveRecord
  refine (s.causeKeeps_err 0x72 c (s.get (pLINE b) R.LINE_SEQ) b 0).trans ?_
  exact State.causeKeeps_wrote (l := [(pPAIR, R.PAIR_LAST_UNCOV), (pPAIR, R.PAIR_LAST_CODE), (pPAIR, R.PAIR_LAST_CAUSE)])
    (((State.wrote_set _ _ _ _).trans (State.wrote_set _ _ _ _)).trans (State.wrote_set _ _ _ _))
    (State.regsBut_set (State.regsBut_set (State.regsBut_setFlag (State.regsBut_refl _ _) _ (by simp)) _ (by simp)) _ (by simp))
    (by simp [giveFields]) (by simp only [List.forall_mem_cons]; exact ⟨by decide, by decide, by decide, by simp⟩)
theorem State.causeKeeps_setPairState (s : State) (v : Nat) : s.causeKeeps (s.setPairState v) := by
  unfold State.setPairState
  split
  · exact s.causeKeeps_refl
  · refine State.causeKeeps.trans (t := s.set pPAIR R.PAIR_STAT_STATE v) ?_ ((State.causeKeeps_updPair _ _).trans (State.causeKeeps_cause _ _))
    exact State.causeKeeps_wrote (l := [(pPAIR, R.PAIR_STAT_STATE)]) (s.wrote_set _ _ _)
      (State.regsBut_set (State.regsBut_refl _ _) _ (by simp)) (by simp) (by simp only [List.forall_mem_cons]; exact ⟨by decide, by simp⟩)
theorem State.causeKeeps_pairCause (s : State) (c code b : Nat) : s.causeKeeps (s.pairCause c code b) := by
  unfold State.pairCause
  have hinc : ∀ t : State, t.causeKeeps (t.incSat pPAIR R.PAIR_GIVE_CNT) := fun t =>
    State.causeKeeps_wrote (l := [(pPAIR, R.PAIR_GIVE_CNT)]) (t.wrote_addSat _ _ _) (State.regsBut_incSat (State.regsBut_refl _ _) (by simp))
      (by simp [giveFields]) (by simp only [List.forall_mem_cons]; exact ⟨by decide, by simp⟩)
  dsimp only
  split_ifs
  · exact s.causeKeeps_refl
  · exact s.causeKeeps_refl
  · exact ((((s.causeKeeps_giveRecord _ _ _ _).trans (hinc _)).trans (State.causeKeeps_cause _ _)).trans
      (State.causeKeeps_crookSend _ _ _)).trans (State.causeKeeps_setPairState _ _)
  · exact ((((s.causeKeeps_giveRecord _ _ _ _).trans (hinc _)).trans (State.causeKeeps_cause _ _)).trans
      (State.causeKeeps_crookSend _ _ _)).trans (State.causeKeeps_updPair _ _)
  · exact s.causeKeeps_giveRecord _ _ _ _
  · exact (s.causeKeeps_updPair _).trans (State.causeKeeps_setPairState _ _)
  · exact (s.causeKeeps_updPair _).trans (State.causeKeeps_setPairState _ _)
  · exact s.causeKeeps_refl

/-! ### A command that comes late (R236) -/

/-- A late command as it is counted and recorded. -/
def State.lateNoted (s : State) (b line : Nat) : State := ((s.incSat pPAIR R.PAIR_LATE_CNT).err pPAIR 0x71 5 line b).cause pPAIR 7
theorem State.lateCommand_eq (s : State) (b line : Nat) : s.lateCommand b line = (s.lateNoted b line).pairCause 8 0x71 b := rfl
/-- The registers of a late command. -/
def lateFields : List (Nat × Fld) := (pPAIR, R.PAIR_LATE_CNT) :: errFields pPAIR
theorem State.lateNoted_spec (s : State) (b line : Nat) (h : s.pairOn = true) :
    (s.lateNoted b line).get pPAIR R.PAIR_LATE_CNT = min (s.get pPAIR R.PAIR_LATE_CNT + 1) (2 ^ R.PAIR_LATE_CNT.w - 1) ∧
    bit ((s.lateNoted b line).get pPAIR R.PG_IRQ_RAW) 7 = true ∧
    (s.get pPAIR R.PG_ERR_CNT = 0 → (s.lateNoted b line).get pPAIR R.PG_ERR_CNT ≠ 0 ∧
      (s.lateNoted b line).get pPAIR R.PG_ERR_INFO_CODE = 0x71 ∧ (s.lateNoted b line).get pPAIR R.PG_ERR_INFO_SRC = 5) ∧
    s.regsBut (s.lateNoted b line) lateFields ∧ s.reports (s.lateNoted b line) ∧ (s.lateNoted b line).pairOn = true ∧
    (s.lateNoted b line).pairState = s.pairState ∧ (s.lateNoted b line).covered = s.covered ∧
    (s.lateNoted b line).runningBars = s.runningBars := by
  have hfr : (s.incSat pPAIR R.PAIR_LATE_CNT).frozen pPAIR = false := by
    rw [← State.frozen_of_pairOn h]
    exact State.frozen_congr (State.get_incSat_field _ _ (by decide))
  obtain ⟨hcnt, hrec⟩ := (s.incSat pPAIR R.PAIR_LATE_CNT).err_recorded hfr 0x71 5 line b 0
  rw [State.get_incSat_field _ _ (by decide)] at hcnt hrec
  have hbut : s.regsBut (s.lateNoted b line) lateFields :=
    State.regsBut_cause (State.regsBut_err (State.regsBut_incSat (State.regsBut_refl _ _) (by simp [lateFields])) _ _ _ _ _ _
      (by simp [lateFields])) _ (by simp [lateFields, errFields])
  have hrep : s.reports (s.lateNoted b line) :=
    ((s.reports_incSat _ _).trans (State.reports_err _ _ _ _ _ _ _)).trans (State.reports_cause _ _ _)
  have hnoted : ∀ {f : Fld}, f.id ≠ R.PG_IRQ_RAW.id → (s.lateNoted b line).get pPAIR f =
      ((s.incSat pPAIR R.PAIR_LATE_CNT).err pPAIR 0x71 5 line b).get pPAIR f := fun hf => State.get_cause_field _ _ _ hf
  have hkeep : ∀ {f : Fld}, f.id ∉ lateFields.map (·.2.id) → ∀ p, (s.lateNoted b line).get p f = s.get p f := fun hf =>
    hbut.field fun e he h => hf (h ▸ List.mem_map_of_mem (f := (·.2.id)) he)
  have hlate : (s.lateNoted b line).get pPAIR R.PAIR_LATE_CNT = min (s.get pPAIR R.PAIR_LATE_CNT + 1) (2 ^ R.PAIR_LATE_CNT.w - 1) := by
    rw [hnoted (by decide), State.get_err_field _ _ _ _ _ _ _ (by decide), State.get_incSat_self]
  have hirq : bit ((s.lateNoted b line).get pPAIR R.PG_IRQ_RAW) 7 = true := by
    refine State.bit_cause _ (by decide) ?_
    rw [← hfr]
    exact State.frozen_congr (State.get_err_field _ _ _ _ _ _ _ (by decide))
  have hfirst : s.get pPAIR R.PG_ERR_CNT = 0 → (s.lateNoted b line).get pPAIR R.PG_ERR_CNT ≠ 0 ∧
      (s.lateNoted b line).get pPAIR R.PG_ERR_INFO_CODE = 0x71 ∧ (s.lateNoted b line).get pPAIR R.PG_ERR_INFO_SRC = 5 := fun h0 => by
    rw [hnoted (by decide), hnoted (by decide), hnoted (by decide), hcnt, (hrec h0).1, (hrec h0).2, h0]
    decide
  generalize s.lateNoted b line = n at *
  obtain ⟨r, w, hshape⟩ := hrep
  have hwork : n.working = s.working := State.working_congr (by rw [hshape]) (by rw [hshape]) (by
    simp only [List.forall_mem_cons, List.not_mem_nil, false_imp_iff, implies_true, and_true]
    exact ⟨hkeep (by decide), hkeep (by decide), hkeep (by decide)⟩)
  have hon : n.pairOn = s.pairOn := by rw [State.pairOn, hwork, State.pairOn, hshape]
  refine ⟨hlate, hirq, hfirst, hbut, ⟨r, w, hshape⟩, hon.trans h,
    State.pairState_congr (by rw [hshape]) (hkeep (by decide) _), ?_, State.runningBars_congr hwork⟩
  rw [State.covered, State.covered, State.crookUp, State.crookUp, hon, State.peerState, State.peerState, hkeep (by decide), hshape]
theorem lateTaken_lateCommand {s : State} (h : s.pairOn = true) (b line : Nat) : lateTaken s (s.lateCommand b line) := by
  obtain ⟨hlate, hirq, hfirst, hbut, ⟨r, w, hshape⟩, hon, hst, hcov, hrun⟩ := s.lateNoted_spec b line h
  rw [State.lateCommand_eq]
  have hgive : (s.lateNoted b line).get pPAIR R.PAIR_GIVE_CNT = s.get pPAIR R.PAIR_GIVE_CNT :=
    hbut.field (fun e he h => absurd h (by revert e; decide)) _
  generalize s.lateNoted b line = n at *
  have hkeeps := n.causeKeeps_pairCause 8 0x71 b
  obtain ⟨r', p', w', o', hframe⟩ := hkeeps.frame
  refine ⟨?_, hkeeps.bits 7 (by decide) hirq, fun h0 => ?_, fun h7 hg hc => ?_, fun h56 => ?_, fun q f hq => ?_, ?_⟩
  · rw [← hlate]
    exact hkeeps.regs.field (fun e he h => absurd h (by revert e; decide)) _
  · obtain ⟨h1, h2, h3⟩ := hfirst h0
    obtain ⟨-, k2, k3⟩ := hkeeps.first h1
    exact ⟨k2.trans h2, k3.trans h3⟩
  · obtain ⟨t, ht, ⟨g1, g2, g3, g4, g5⟩, -⟩ := State.pairCause_claim (c := 8) (code := 0x71) (b := b) hon (hst.trans h7)
      (by rw [hshape]; exact hg) (Or.inl (hcov.trans hc)) (by decide)
    rw [ht]
    rw [hrun] at g4 g5
    rw [hgive] at g1
    exact ⟨g1, g2, g3, g4, g5⟩
  · rw [State.pairCause_ready hon (hst ▸ h56), if_neg (by decide)]
    obtain ⟨h5, -, -, r'', g, w'', hset⟩ := State.setPairState_spec (n.updPair fun p => { p with runs := [] }) (v := 5) (by decide)
      (State.pairEn_of_pairOn hon) (State.frozen_of_pairOn hon)
    exact ⟨h5, by rw [hset]; rfl⟩
  · rw [hkeeps.regs q f (fun e he => Or.inl ?_), hbut q f (fun e he => Or.inl ?_)]
    · have hpage : ∀ e ∈ lateFields, e.1 = pPAIR := by decide
      exact hpage e he ▸ hq
    · have hpage : ∀ e ∈ giveFields ++ [(pPAIR, R.PAIR_STAT_STATE)], e.1 = pPAIR := by decide
      exact hpage e he ▸ hq
  · rw [hframe, hshape]

/-! ### Commands on the partner -/

section
variable {s u : State} {hd : CrookHdr}
theorem State.crookCmd_joining (h : s.hears hd) (hu : u = s.noted hd) (hj : s.pairState = 3 ∨ s.peerState = 3) (g : State → State) :
    s.crookCmd hd g = u := by
  have H : s.heardBy u := hu ▸ h.heardBy
  refine (State.crookMsg_heard h fun t => if t.pairState = 3 ∨ t.peerState = 3 then t else g t).trans ?_
  rw [← hu, H.pairState, H.peerState, if_pos hj]
theorem State.crookFollow_home (h : s.hears hd) (hu : u = s.noted hd) (hj : s.pairState = 3 ∨ s.peerState = 3 ∨ s.straps.home = true)
    (g : State → State) : s.crookFollow hd g = u := by
  have H : s.heardBy u := hu ▸ h.heardBy
  refine (State.crookMsg_heard h fun t => if t.pairState = 3 ∨ t.peerState = 3 then t else if t.straps.home then t else g t).trans ?_
  rw [← hu, H.pairState, H.peerState, H.straps]
  rcases hj with hj | hj | hj
  · rw [if_pos (Or.inl hj)]
  · rw [if_pos (Or.inr hj)]
  · rw [hj, if_pos rfl, ite_self]
theorem State.crookFollow_partner (h : s.hearsCmd hd) (hu : u = s.noted hd) (hhome : s.straps.home = false) (g : State → State) :
    s.crookFollow hd g = g u := by
  obtain ⟨hh, h3, h3'⟩ := h
  have H : s.heardBy u := hu ▸ hh.heardBy
  refine (State.crookMsg_heard hh fun t => if t.pairState = 3 ∨ t.peerState = 3 then t else if t.straps.home then t else g t).trans ?_
  rw [← hu, H.pairState, H.peerState, H.straps, if_neg (not_or.mpr ⟨h3, h3'⟩), hhome, if_neg Bool.false_ne_true]
end
/-- What ADJ does in time, on a page that takes it (R154). -/
def State.adjTaken (s : State) (b : Nat) (line adj : W32) : State :=
  (((((s.set (pLINE b) R.LINE_ADJ adj.toNat).set (pLINE b) R.LINE_ADJ_LINE line.toNat).set (pLINE b) R.LINE_ADJ_CTRL_WHEN 1).set (pLINE b)
    R.LINE_ADJ_CTRL_LATE 0).set (pLINE b) R.LINE_ADJ_CTRL_ARMED 1).updLine b fun l => { l with adj := some (adj.toInt, 1, line.toNat) }
/-- What SWAP does in time, on a page that takes it (R104). -/
def State.swapTaken (s : State) (i : Nat) (tables whn : Byte) (l : Nat) : State :=
  let s := (((s.set (pPIPE i) R.PIPE_SWAP_LINE l).set (pPIPE i) R.PIPE_SWAP_WHEN whn.toNat).set (pPIPE i) R.PIPE_SWAP_TABLES
    tables.toNat).set (pPIPE i) R.PIPE_TSTAT_LATE 0
  if tables.toNat % 8 = 0 then (s.set (pPIPE i) R.PIPE_TSTAT_ARMED 0).updPipe i fun x => { x with armed := none }
  else s.armSwap i { whn := whn.toNat, tables := tables.toNat % 8, line := l }
/-- A swap of WHEN 2 is late where a job boundary line has been issued after the line at GO (R236). -/
def State.swapLate (s : State) (i : Nat) (whn : Byte) (l : Nat) (go : W32) : Bool :=
  if whn.toNat = 2 then (match s.pair.jobLine.find? fun e => e.1 == i with
    | some e => decide (0 < diff32 e.2 go.toNat)
    | none => false) else s.lineLate i l
/-- A hold state is kept for its line, a late one for the next (R239). -/
def State.holdTaken (s : State) (b : Nat) (held : Bool) (line : Nat) : State :=
  let late := s.lineLate b line
  let l := if late then (s.get (pLINE b) R.LINE_SEQ + 1) % 2 ^ 32 else line
  let s := s.updPair fun p => { p with holdAt := p.holdAt ++ [(l, b, held)] }
  if late then s.lateCommand b line else s
/-- A selection that the home unit sends (R214). -/
def State.profHeard (s : State) (slot : Byte) (armLine check : W32) : State :=
  let p := slot.toNat
  match (List.range 8).find? fun b => s.lineRuns b && s.lineLate b armLine.toNat with
  | some b => s.lateCommand b armLine.toNat
  | none =>
    if 8 ≤ p || !s.prof.loaded || !s.slotUsable p || leAt (s.prof.images.getD p []) 656 4 != check.toNat then s.profRefuse
    else s.profTake p armLine.toNat
section
variable {s u : State} {hd : CrookHdr} (h : s.hearsCmd hd) (hu : u = s.noted hd) (hhome : s.straps.home = false)
include h hu hhome
theorem exec_adj (b : Bar) (line adj : W32) : exec (.adj hd b line adj) s = .next (
    if u.lineLate b line.toNat then u.lateCommand b line.toNat
    else if u.blockedPage (pLINE b) then u else u.adjTaken b line adj) :=
  congrArg _ (State.crookFollow_partner h hu hhome fun s => if s.lineLate b line.toNat then s.lateCommand b line.toNat
    else if s.blockedPage (pLINE b) then s else s.adjTaken b line adj)
theorem exec_gain (b : Bar) (line g : W32) : exec (.gain hd b line g) s = .next (
    if u.lineLate b line.toNat then u.lateCommand b line.toNat
    else u.updLine b fun l => { l with gainAt := l.gainAt ++ [(line.toNat, g.toInt)] }) :=
  congrArg _ (State.crookFollow_partner h hu hhome fun s => if s.lineLate b line.toNat then s.lateCommand b line.toNat
    else s.updLine b fun l => { l with gainAt := l.gainAt ++ [(line.toNat, g.toInt)] })
theorem exec_hold (b : Bar) (held : Bool) (line : W32) : exec (.hold hd b held line) s = .next (u.holdTaken b held line.toNat) :=
  congrArg _ (State.crookFollow_partner h hu hhome fun s => s.holdTaken b held line.toNat)
theorem exec_swapMessage (b : Bar) (tables whn : Byte) (line go : W32) : exec (.swapMessage hd b tables whn line go) s = .next (
    if u.swapLate b whn line.toNat go then u.lateCommand b line.toNat
    else if u.blockedPage (pPIPE b) then u else u.swapTaken b tables whn line.toNat) :=
  congrArg _ (State.crookFollow_partner h hu hhome fun s => if s.swapLate b whn line.toNat go then s.lateCommand b line.toNat
    else if s.blockedPage (pPIPE b) then s else s.swapTaken b tables whn line.toNat)
theorem exec_profMessage (slot : Byte) (line check : W32) :
    exec (.profMessage hd slot line check) s = .next (u.profHeard slot line check) :=
  congrArg _ (State.crookFollow_partner h hu hhome fun s => s.profHeard slot line check)
end

section
variable {s u : State} (H : s.heardBy u)
include H
theorem State.heardBy.lineLate (b line : Nat) : u.lineLate b line = s.lineLate b line := by
  rw [State.lineLate, State.lineLate, H.get (by decide) (by decide)]
theorem State.heardBy.srstBusy (p : Nat) : u.srstBusy p = s.srstBusy p := by
  obtain ⟨r, c, w, o, a, x, g, n, hu⟩ := H.shape
  have hshut : u.shut = s.shut := by
    rw [State.shut, State.flag, H.get (by decide) (by decide)]
    rfl
  unfold State.srstBusy State.held
  rw [hshut, hu]
theorem State.heardBy.blockedPage (p : Nat) : u.blockedPage p = s.blockedPage p := by
  obtain ⟨r, c, w, o, a, x, g, n, hu⟩ := H.shape
  rw [State.blockedPage, State.blockedPage, H.fenced, H.srstBusy, hu]
theorem State.heardBy.working : u.working = s.working := by
  obtain ⟨r, c, w, o, a, x, g, n, hu⟩ := H.shape
  refine State.working_congr (by rw [hu]) (by rw [hu]) ?_
  simp only [List.forall_mem_cons, List.not_mem_nil, false_imp_iff, implies_true, and_true]
  exact ⟨H.get (by decide) (by decide), H.get (by decide) (by decide), H.get (by decide) (by decide)⟩
theorem State.heardBy.rest : u.line = s.line ∧ u.pipe = s.pipe ∧ u.prof = s.prof ∧ s.sameMemory u ∧
    u.pair.jobLine = s.pair.jobLine ∧ u.pair.holdAt = s.pair.holdAt ∧ u.pair.chainOwn = s.pair.chainOwn ∧
    u.pair.chainPeer = s.pair.chainPeer := by
  obtain ⟨r, c, w, o, a, x, g, n, hu⟩ := H.shape
  rw [hu]
  exact ⟨rfl, rfl, rfl, ⟨rfl, rfl, rfl, rfl, rfl⟩, rfl, rfl, rfl, rfl⟩
theorem State.heardBy.lineAt (b : Nat) : u.lineAt b = s.lineAt b := by
  rw [State.lineAt, State.lineAt, H.rest.1]
theorem State.heardBy.pipeAt (b : Nat) : u.pipeAt b = s.pipeAt b := by
  rw [State.pipeAt, State.pipeAt, H.rest.2.1]
end

theorem State.adjTaken_spec (u : State) (b : Nat) (line a : W32) :
    (u.adjTaken b line a).lineAt b = { u.lineAt b with adj := some (a.toInt, 1, line.toNat) } ∧
    (u.adjTaken b line a).get (pLINE b) R.LINE_ADJ = a.toNat ∧ (u.adjTaken b line a).get (pLINE b) R.LINE_ADJ_LINE = line.toNat ∧
    (u.adjTaken b line a).get (pLINE b) R.LINE_ADJ_CTRL_WHEN = 1 ∧ (u.adjTaken b line a).get (pLINE b) R.LINE_ADJ_CTRL_ARMED = 1 ∧
    (u.adjTaken b line a).get (pLINE b) R.LINE_ADJ_CTRL_LATE = 0 ∧
    u.regsBut (u.adjTaken b line a) [(pLINE b, R.LINE_ADJ), (pLINE b, R.LINE_ADJ_LINE), (pLINE b, R.LINE_ADJ_CTRL_WHEN),
      (pLINE b, R.LINE_ADJ_CTRL_ARMED), (pLINE b, R.LINE_ADJ_CTRL_LATE)] ∧
    (∀ c, c ≠ b → (u.adjTaken b line a).lineAt c = u.lineAt c) ∧
    ({ u.adjTaken b line a with regs := u.regs, line := u.line } : State) = u := by
  unfold State.adjTaken
  have hset : ∀ v : State, v = ((((u.set (pLINE b) R.LINE_ADJ a.toNat).set (pLINE b) R.LINE_ADJ_LINE line.toNat).set (pLINE b)
      R.LINE_ADJ_CTRL_WHEN 1).set (pLINE b) R.LINE_ADJ_CTRL_LATE 0).set (pLINE b) R.LINE_ADJ_CTRL_ARMED 1 → u.wrote v ∧
      v.get (pLINE b) R.LINE_ADJ = a.toNat ∧ v.get (pLINE b) R.LINE_ADJ_LINE = line.toNat ∧ v.get (pLINE b) R.LINE_ADJ_CTRL_WHEN = 1 ∧
      v.get (pLINE b) R.LINE_ADJ_CTRL_ARMED = 1 ∧ v.get (pLINE b) R.LINE_ADJ_CTRL_LATE = 0 ∧
      u.regsBut v [(pLINE b, R.LINE_ADJ), (pLINE b, R.LINE_ADJ_LINE), (pLINE b, R.LINE_ADJ_CTRL_WHEN),
      (pLINE b, R.LINE_ADJ_CTRL_ARMED), (pLINE b, R.LINE_ADJ_CTRL_LATE)] := by
    rintro v rfl
    refine ⟨((((u.wrote_set _ _ _).trans (State.wrote_set _ _ _ _)).trans (State.wrote_set _ _ _ _)).trans (State.wrote_set _ _ _ _)).trans
      (State.wrote_set _ _ _ _), ?_, ?_, ?_, State.get_set_self _ _ _ _, ?_, ?_⟩
    · rw [State.get_set_field _ _ _ (by decide), State.get_set_field _ _ _ (by decide), State.get_set_field _ _ _ (by decide),
        State.get_set_field _ _ _ (by decide), State.get_set_self]
      exact Nat.mod_eq_of_lt a.isLt
    · rw [State.get_set_field _ _ _ (by decide), State.get_set_field _ _ _ (by decide), State.get_set_field _ _ _ (by decide),
        State.get_set_self]
      exact Nat.mod_eq_of_lt line.isLt
    · rw [State.get_set_field _ _ _ (by decide), State.get_set_field _ _ _ (by decide), State.get_set_self]
      rfl
    · rw [State.get_set_field _ _ _ (by decide), State.get_set_self]
      rfl
    · exact State.regsBut_set (State.regsBut_set (State.regsBut_set (State.regsBut_set (State.regsBut_set (State.regsBut_refl _ _) _
        (by simp)) _ (by simp)) _ (by simp)) _ (by simp)) _ (by simp)
  obtain ⟨hw, h1, h2, h3, h4, h5, hb⟩ := hset _ rfl
  generalize ((((u.set (pLINE b) R.LINE_ADJ a.toNat).set (pLINE b) R.LINE_ADJ_LINE line.toNat).set (pLINE b)
      R.LINE_ADJ_CTRL_WHEN 1).set (pLINE b) R.LINE_ADJ_CTRL_LATE 0).set (pLINE b) R.LINE_ADJ_CTRL_ARMED 1 = v at *
  obtain ⟨r, rfl⟩ := hw
  exact ⟨State.lineAt_upd_self _ _ _, h1, h2, h3, h4, h5, State.regsBut_of_regs hb rfl, fun c hc => State.lineAt_upd_other _ _ hc, rfl⟩
/-- What a swap is armed with: nothing where it names no table (R104). -/
def swapArmed (tables whn : Byte) (l : Nat) : Option ArmedSwap :=
  if tables.toNat % 8 = 0 then none else some { whn := whn.toNat, tables := tables.toNat % 8, line := l }
theorem State.swapTaken_spec (u : State) (b : Nat) (tables whn : Byte) (line : W32) {t : State} (ht : u.swapTaken b tables whn line.toNat = t) :
    t.get (pPIPE b) R.PIPE_SWAP_LINE = line.toNat ∧ t.get (pPIPE b) R.PIPE_SWAP_WHEN = whn.toNat % 2 ^ R.PIPE_SWAP_WHEN.w ∧
    t.get (pPIPE b) R.PIPE_SWAP_TABLES = tables.toNat % 2 ^ R.PIPE_SWAP_TABLES.w ∧ t.get (pPIPE b) R.PIPE_TSTAT_LATE = 0 ∧
    t.pipeAt b = { u.pipeAt b with armed := swapArmed tables whn line.toNat } ∧
    t.get (pPIPE b) R.PIPE_TSTAT_ARMED = (if tables.toNat % 8 = 0 then 0 else 1) ∧
    u.regsBut t [(pPIPE b, R.PIPE_SWAP_LINE), (pPIPE b, R.PIPE_SWAP_WHEN), (pPIPE b, R.PIPE_SWAP_TABLES),
      (pPIPE b, R.PIPE_TSTAT_LATE), (pPIPE b, R.PIPE_TSTAT_ARMED)] ∧
    (∀ c, c ≠ b → t.pipeAt c = u.pipeAt c) ∧ ({ t with regs := u.regs, pipe := u.pipe } : State) = u := by
  have hset : ∀ v : State, v = ((((u.set (pPIPE b) R.PIPE_SWAP_LINE line.toNat).set (pPIPE b) R.PIPE_SWAP_WHEN whn.toNat).set (pPIPE b)
      R.PIPE_SWAP_TABLES tables.toNat).set (pPIPE b) R.PIPE_TSTAT_LATE 0).set (pPIPE b) R.PIPE_TSTAT_ARMED
        (if tables.toNat % 8 = 0 then 0 else 1) → u.wrote v ∧
      v.get (pPIPE b) R.PIPE_SWAP_LINE = line.toNat ∧ v.get (pPIPE b) R.PIPE_SWAP_WHEN = whn.toNat % 2 ^ R.PIPE_SWAP_WHEN.w ∧
      v.get (pPIPE b) R.PIPE_SWAP_TABLES = tables.toNat % 2 ^ R.PIPE_SWAP_TABLES.w ∧ v.get (pPIPE b) R.PIPE_TSTAT_LATE = 0 ∧
      v.get (pPIPE b) R.PIPE_TSTAT_ARMED = (if tables.toNat % 8 = 0 then 0 else 1) ∧
      u.regsBut v [(pPIPE b, R.PIPE_SWAP_LINE), (pPIPE b, R.PIPE_SWAP_WHEN), (pPIPE b, R.PIPE_SWAP_TABLES),
        (pPIPE b, R.PIPE_TSTAT_LATE), (pPIPE b, R.PIPE_TSTAT_ARMED)] := by
    rintro v rfl
    refine ⟨((((u.wrote_set _ _ _).trans (State.wrote_set _ _ _ _)).trans (State.wrote_set _ _ _ _)).trans (State.wrote_set _ _ _ _)).trans
      (State.wrote_set _ _ _ _), ?_, ?_, ?_, ?_, ?_, ?_⟩
    · rw [State.get_set_field _ _ _ (by decide), State.get_set_field _ _ _ (by decide), State.get_set_field _ _ _ (by decide),
        State.get_set_field _ _ _ (by decide), State.get_set_self]
      exact Nat.mod_eq_of_lt line.isLt
    · rw [State.get_set_field _ _ _ (by decide), State.get_set_field _ _ _ (by decide), State.get_set_field _ _ _ (by decide),
        State.get_set_self]
    · rw [State.get_set_field _ _ _ (by decide), State.get_set_field _ _ _ (by decide), State.get_set_self]
    · rw [State.get_set_field _ _ _ (by decide), State.get_set_self]
      rfl
    · rw [State.get_set_self]
      split <;> rfl
    · exact State.regsBut_set (State.regsBut_set (State.regsBut_set (State.regsBut_set (State.regsBut_set (State.regsBut_refl _ _) _
        (by simp)) _ (by simp)) _ (by simp)) _ (by simp)) _ (by simp)
  have hshape : u.swapTaken b tables whn line.toNat = State.updPipe (((((u.set (pPIPE b) R.PIPE_SWAP_LINE line.toNat).set (pPIPE b)
      R.PIPE_SWAP_WHEN whn.toNat).set (pPIPE b) R.PIPE_SWAP_TABLES tables.toNat).set (pPIPE b) R.PIPE_TSTAT_LATE 0).set (pPIPE b)
      R.PIPE_TSTAT_ARMED (if tables.toNat % 8 = 0 then 0 else 1)) b (fun x => { x with armed := swapArmed tables whn line.toNat }) := by
    unfold State.swapTaken State.armSwap swapArmed
    dsimp only
    by_cases h0 : tables.toNat % 8 = 0
    · simp only [if_pos h0]
    · simp only [if_neg h0]
  rw [ht] at hshape
  obtain ⟨hw, h1, h2, h3, h4, h5, hb⟩ := hset _ rfl
  generalize ((((u.set (pPIPE b) R.PIPE_SWAP_LINE line.toNat).set (pPIPE b) R.PIPE_SWAP_WHEN whn.toNat).set (pPIPE b)
      R.PIPE_SWAP_TABLES tables.toNat).set (pPIPE b) R.PIPE_TSTAT_LATE 0).set (pPIPE b) R.PIPE_TSTAT_ARMED
        (if tables.toNat % 8 = 0 then 0 else 1) = v at *
  obtain ⟨r, rfl⟩ := hw
  subst hshape
  exact ⟨h1, h2, h3, h4, State.pipeAt_upd_self _ _ _, h5, State.regsBut_of_regs hb rfl, fun c hc => State.pipeAt_upd_other _ _ hc, rfl⟩

/-- A late command after a change of what PAIR holds for it. -/
theorem lateTaken_updPair {s t : State} {g : PairSt → PairSt} (hg : (g s.pair).giving = s.pair.giving ∧ (g s.pair).up = s.pair.up)
    (h : lateTaken (s.updPair g) t) : lateTaken s t := by
  obtain ⟨h1, h2, h3, h4, h5, h6, h7⟩ := h
  refine ⟨h1, h2, h3, fun a b c => h4 a (hg.1.trans b) ?_, h5, h6, ?_⟩
  · rw [← c]
    have hcu : (s.updPair g).crookUp = s.crookUp := congrArg (s.pairOn && ·) hg.2
    exact congrArg (· && (s.peerState == 7)) hcu
  · exact congrArg (fun x : State => { x with pair := s.pair }) h7
theorem State.pairCause_holdAt (s : State) (c code b : Nat) : (s.pairCause c code b).pair.holdAt = s.pair.holdAt := by
  have hrep : ∀ {u t : State}, u.reports t → t.pair.holdAt = u.pair.holdAt := by
    rintro u t ⟨r, w, rfl⟩
    rfl
  have hset : ∀ (t : State) v, (t.setPairState v).pair.holdAt = t.pair.holdAt := fun t v => by
    obtain ⟨g, hg⟩ := t.setPairState_pair v
    rw [hg]
  have hsend : ∀ (t : State) typ p, (t.crookSend typ p).pair.holdAt = t.pair.holdAt := fun t typ p => by
    cases h : t.pairOn with
    | false => rw [State.crookSend_off h]
    | true => rw [State.crookSend_eq h]
  have hrec : ∀ unc, s.reports (s.giveRecord c code b unc) := fun unc => (((s.reports_err _ _ _ _ _ _).trans
    (State.reports_setFlag _ _ _ _)).trans (State.reports_set _ _ _ _)).trans (State.reports_set _ _ _ _)
  have hnote : ∀ unc, s.reports (((s.giveRecord c code b unc).incSat pPAIR R.PAIR_GIVE_CNT).cause pPAIR 4) := fun unc =>
    ((hrec unc).trans (State.reports_incSat _ _ _)).trans (State.reports_cause _ _ _)
  unfold State.pairCause
  dsimp only
  split_ifs
  · rfl
  · rfl
  · rw [hset, hsend, hrep (hnote _)]
  · exact (hsend _ _ _).trans (hrep (hnote _))
  · exact hrep (hrec _)
  · exact hset _ _
  · exact hset _ _
  · rfl
theorem State.lateCommand_holdAt (s : State) (b line : Nat) : (s.lateCommand b line).pair.holdAt = s.pair.holdAt := by
  rw [State.lateCommand_eq, State.pairCause_holdAt]
  obtain ⟨r, w, hrep⟩ : s.reports (s.lateNoted b line) :=
    ((s.reports_incSat _ _).trans (State.reports_err _ _ _ _ _ _ _)).trans (State.reports_cause _ _ _)
  rw [hrep]

/-! ### Selections (R208 to R211) -/

/-- The registers that a selection or its completion may change. -/
def selFields : List (Nat × Fld) :=
  [(pPROF, R.PROF_SEL_CNT), (pPROF, R.PROF_REPL_CNT), (pPROF, R.PROF_STAT_CVAL), (pPROF, R.PROF_STAT_CP),
    (pPROF, R.PROF_STAT_DONE), (pPROF, R.PROF_ARM_LINE), (pPROF, R.PROF_STAT_NVAL), (pPROF, R.PROF_STAT_NP),
    (pPROF, R.PROF_NEXT_LINE), (pPROF, R.PROF_BARP_SET), (pPROF, R.PROF_BARP_SLOT), (pPROF, R.PG_IRQ_RAW)]
/-- What settling the selections keeps: the counters and every cause raised. -/
structure State.profKeeps (s t : State) : Prop where
  regs : s.regsBut t selFields
  counts : t.get pPROF R.PROF_SEL_CNT = s.get pPROF R.PROF_SEL_CNT ∧ t.get pPROF R.PROF_REPL_CNT = s.get pPROF R.PROF_REPL_CNT
  bits : ∀ i < 32, bit (s.get pPROF R.PG_IRQ_RAW) i = true → bit (t.get pPROF R.PG_IRQ_RAW) i = true
  shape : ∃ r c n w, t = { s with regs := r, prof := { s.prof with cur := c, next := n }, host := { s.host with waiting := w } }
theorem State.profKeeps_refl (s : State) : s.profKeeps s :=
  ⟨State.regsBut_refl _ _, ⟨rfl, rfl⟩, fun _ _ h => h, s.regs, s.prof.cur, s.prof.next, s.host.waiting, rfl⟩
theorem State.profKeeps.trans {s t u : State} (h : s.profKeeps t) (k : t.profKeeps u) : s.profKeeps u := by
  refine ⟨State.regsBut_trans h.regs k.regs, ⟨k.counts.1.trans h.counts.1, k.counts.2.trans h.counts.2⟩,
    fun i hi hb => k.bits i hi (h.bits i hi hb), ?_⟩
  obtain ⟨r, c, n, w, rfl⟩ := h.shape
  obtain ⟨r', c', n', w', rfl⟩ := k.shape
  exact ⟨r', c', n', w', rfl⟩
theorem State.profKeeps_set (s : State) {f : Fld} (v : Nat) (hf : (pPROF, f) ∈ selFields)
    (hn : f.id ∉ [R.PROF_SEL_CNT.id, R.PROF_REPL_CNT.id, R.PG_IRQ_RAW.id]) : s.profKeeps (s.set pPROF f v) := by
  simp only [List.mem_cons, List.not_mem_nil, or_false, not_or] at hn
  obtain ⟨h1, h2, h3⟩ := hn
  refine ⟨State.regsBut_set (State.regsBut_refl _ _) _ hf, ⟨s.get_set_field _ _ (Ne.symm h1), s.get_set_field _ _ (Ne.symm h2)⟩,
    fun i _ hb => ?_, (s.set pPROF f v).regs, s.prof.cur, s.prof.next, s.host.waiting, rfl⟩
  rwa [s.get_set_field _ _ (Ne.symm h3)]
theorem State.profKeeps_held (s : State) (c n : Option Sel) : s.profKeeps { s with prof := { s.prof with cur := c, next := n } } :=
  ⟨State.regsBut_of_regs (State.regsBut_refl s _) rfl, ⟨rfl, rfl⟩, fun _ _ h => h, s.regs, c, n, s.host.waiting, rfl⟩
theorem State.profKeeps_cause (s : State) (i : Nat) : s.profKeeps (s.cause pPROF i) := by
  obtain ⟨r, w, hrep⟩ := s.reports_cause pPROF i
  exact ⟨State.regsBut_cause (State.regsBut_refl _ _) _ (by simp [selFields]),
    ⟨State.get_cause_field _ _ _ (by decide), State.get_cause_field _ _ _ (by decide)⟩, fun j hj hb => s.bit_cause_keeps hj hb,
    r, s.prof.cur, s.prof.next, w, hrep⟩
/-- The registers of CUR and of NEXT (R221). -/
def State.showCur (s : State) : State :=
  match s.prof.cur with
  | some c => (((s.set pPROF R.PROF_STAT_CVAL 1).set pPROF R.PROF_STAT_CP c.slot).set pPROF R.PROF_STAT_DONE c.done).set pPROF
      R.PROF_ARM_LINE c.line
  | none => s.set pPROF R.PROF_STAT_CVAL 0
def State.showNext (s : State) : State :=
  match s.prof.next with
  | some c => ((s.set pPROF R.PROF_STAT_NVAL 1).set pPROF R.PROF_STAT_NP c.slot).set pPROF R.PROF_NEXT_LINE c.line
  | none => s.set pPROF R.PROF_STAT_NVAL 0
theorem State.profShow_eq (s : State) : s.profShow = s.showCur.showNext := rfl
theorem State.profKeeps_showCur (s : State) : s.profKeeps s.showCur := by
  unfold State.showCur
  cases s.prof.cur with
  | none => exact s.profKeeps_set (f := R.PROF_STAT_CVAL) 0 (by simp [selFields]) (by decide)
  | some c =>
    exact (((s.profKeeps_set (f := R.PROF_STAT_CVAL) 1 (by simp [selFields]) (by decide)).trans
      (State.profKeeps_set (f := R.PROF_STAT_CP) _ c.slot (by simp [selFields]) (by decide))).trans
      (State.profKeeps_set (f := R.PROF_STAT_DONE) _ c.done (by simp [selFields]) (by decide))).trans
      (State.profKeeps_set (f := R.PROF_ARM_LINE) _ c.line (by simp [selFields]) (by decide))
theorem State.profKeeps_showNext (s : State) : s.profKeeps s.showNext := by
  unfold State.showNext
  cases s.prof.next with
  | none => exact s.profKeeps_set (f := R.PROF_STAT_NVAL) 0 (by simp [selFields]) (by decide)
  | some c =>
    exact ((s.profKeeps_set (f := R.PROF_STAT_NVAL) 1 (by simp [selFields]) (by decide)).trans
      (State.profKeeps_set (f := R.PROF_STAT_NP) _ c.slot (by simp [selFields]) (by decide))).trans
      (State.profKeeps_set (f := R.PROF_NEXT_LINE) _ c.line (by simp [selFields]) (by decide))
theorem State.profKeeps_profShow (s : State) : s.profKeeps s.profShow := s.profKeeps_showCur.trans (State.profKeeps_showNext _)
theorem State.profKeeps_profFinish (f : Nat) (s : State) : s.profKeeps (s.profFinish f) := by
  induction f generalizing s with
  | zero => exact s.profKeeps_refl
  | succ f ih =>
    unfold State.profFinish
    cases s.prof.cur with
    | none => exact s.profKeeps_refl
    | some c =>
      dsimp only
      split
      · exact s.profKeeps_refl
      · refine State.profKeeps.trans ?_ (ih _)
        refine State.profKeeps.trans ?_ (State.profKeeps_cause _ _)
        refine State.profKeeps.trans ?_ (State.profKeeps_held _ _ _)
        exact ((s.profKeeps_set _ (by simp [selFields]) (by decide)).trans (State.profKeeps_set _ _ (by simp [selFields]) (by decide))).trans
          (State.profKeeps_set _ _ (by simp [selFields]) (by decide))
theorem State.profKeeps_profSettle (s : State) : s.profKeeps s.profSettle :=
  (s.profKeeps_profFinish 3).trans (State.profKeeps_profShow _)
/-- CUR and NEXT as a selection leaves them before they settle (R210, R211). -/
def State.selHeld (s : State) (x : Sel) : State :=
  match s.prof.cur, s.prof.next with
  | none, _ => { s with prof := { s.prof with cur := some x } }
  | some c, none =>
    if c.done = 0 then ({ s with prof := { s.prof with cur := some x } }).incSat pPROF R.PROF_REPL_CNT
    else { s with prof := { s.prof with next := some x } }
  | some _, some _ => ({ s with prof := { s.prof with next := some x } }).incSat pPROF R.PROF_REPL_CNT
/-- The bars that a selection need not wait for: those not named by its image and those that do not run (log 33). -/
def State.selDone (s : State) (img : List Byte) : Nat :=
  (List.range 8).foldl (fun m b => if bit (byteAt img 2) b && s.lineRuns b then m else m + 2 ^ b) 0
def State.newSel (s : State) (p arm : Nat) : Sel :=
  { slot := p, line := arm, image := s.prof.images.getD p [], done := s.selDone (s.prof.images.getD p []), applied := 0 }
/-- A selection as it is counted. -/
def State.selCounted (s : State) : State := (s.incWrap pPROF R.PROF_SEL_CNT).cause pPROF 3
theorem State.profTake_eq (s : State) (p arm : Nat) : s.profTake p arm = (s.selCounted.selHeld (s.newSel p arm)).profSettle := rfl
theorem State.selCounted_spec (s : State) : s.selCounted.get pPROF R.PROF_SEL_CNT = (s.get pPROF R.PROF_SEL_CNT + 1) % 2 ^ 32 ∧
    s.selCounted.get pPROF R.PROF_REPL_CNT = s.get pPROF R.PROF_REPL_CNT ∧
    (s.frozen pPROF = false → bit (s.selCounted.get pPROF R.PG_IRQ_RAW) 3 = true) ∧ s.regsBut s.selCounted selFields ∧
    s.reports s.selCounted := by
  refine ⟨?_, ?_, fun hf => State.bit_cause _ (by decide) ?_, ?_, (State.reports_set _ _ _ _).trans (State.reports_cause _ _ _)⟩
  · rw [State.selCounted, State.get_cause_field _ _ _ (by decide), State.get_incWrap_self]
    rfl
  · rw [State.selCounted, State.get_cause_field _ _ _ (by decide), State.get_incWrap_field _ _ (by decide)]
  · rw [← hf]
    exact State.frozen_congr (State.get_incWrap_field _ _ (by decide))
  · exact State.regsBut_cause (State.regsBut_incWrap (State.regsBut_refl _ _) (by simp [selFields])) _ (by simp [selFields])
theorem State.selHeld_spec (s : State) (x : Sel) : s.regsBut (s.selHeld x) selFields ∧
    (s.selHeld x).get pPROF R.PROF_SEL_CNT = s.get pPROF R.PROF_SEL_CNT ∧
    (s.selHeld x).get pPROF R.PG_IRQ_RAW = s.get pPROF R.PG_IRQ_RAW ∧
    ∃ r c n, s.selHeld x = { s with regs := r, prof := { s.prof with cur := c, next := n } } := by
  have hrepl : ∀ t : State, t.regs = s.regs → s.regsBut (t.incSat pPROF R.PROF_REPL_CNT) selFields ∧
      (t.incSat pPROF R.PROF_REPL_CNT).get pPROF R.PROF_SEL_CNT = s.get pPROF R.PROF_SEL_CNT ∧
      (t.incSat pPROF R.PROF_REPL_CNT).get pPROF R.PG_IRQ_RAW = s.get pPROF R.PG_IRQ_RAW := fun t ht =>
    ⟨State.regsBut_incSat (State.regsBut_of_regs (State.regsBut_refl s _) ht) (by simp [selFields]),
      (State.get_incSat_field _ _ (by decide)).trans (State.get_congr ht _ _),
      (State.get_incSat_field _ _ (by decide)).trans (State.get_congr ht _ _)⟩
  have hsame : ∀ t : State, t.regs = s.regs → s.regsBut t selFields ∧ t.get pPROF R.PROF_SEL_CNT = s.get pPROF R.PROF_SEL_CNT ∧
      t.get pPROF R.PG_IRQ_RAW = s.get pPROF R.PG_IRQ_RAW := fun t ht =>
    ⟨State.regsBut_of_regs (State.regsBut_refl s _) ht, State.get_congr ht _ _, State.get_congr ht _ _⟩
  unfold State.selHeld
  split
  · obtain ⟨h1, h2, h3⟩ := hsame { s with prof := { s.prof with cur := some x } } rfl
    exact ⟨h1, h2, h3, s.regs, some x, s.prof.next, rfl⟩
  · split
    · obtain ⟨h1, h2, h3⟩ := hrepl { s with prof := { s.prof with cur := some x } } rfl
      exact ⟨h1, h2, h3, _, some x, s.prof.next, rfl⟩
    · obtain ⟨h1, h2, h3⟩ := hsame { s with prof := { s.prof with next := some x } } rfl
      exact ⟨h1, h2, h3, s.regs, s.prof.cur, some x, rfl⟩
  · obtain ⟨h1, h2, h3⟩ := hrepl { s with prof := { s.prof with next := some x } } rfl
    exact ⟨h1, h2, h3, _, s.prof.cur, some x, rfl⟩
/-- A selection that is taken (R208, R211). -/
theorem State.profTake_spec (s : State) (p arm : Nat) :
    (s.profTake p arm).get pPROF R.PROF_SEL_CNT = (s.get pPROF R.PROF_SEL_CNT + 1) % 2 ^ 32 ∧
    (s.frozen pPROF = false → bit ((s.profTake p arm).get pPROF R.PG_IRQ_RAW) 3 = true) ∧ s.regsBut (s.profTake p arm) selFields ∧
    ∃ r c n w, s.profTake p arm = { s with regs := r, prof := { s.prof with cur := c, next := n }, host := { s.host with waiting := w } } := by
  obtain ⟨hcnt, -, hirq, hbut, r, w, hrep⟩ := s.selCounted_spec
  obtain ⟨hbut2, hcnt2, hraw2, r2, c2, n2, hheld⟩ := s.selCounted.selHeld_spec (s.newSel p arm)
  obtain ⟨hbut3, ⟨hcnt3, -⟩, hbits3, r3, c3, n3, w3, hset⟩ := State.profKeeps_profSettle (s.selCounted.selHeld (s.newSel p arm))
  rw [State.profTake_eq]
  refine ⟨hcnt3.trans (hcnt2.trans hcnt), fun hf => hbits3 3 (by decide) (hraw2 ▸ hirq hf),
    State.regsBut_trans hbut (State.regsBut_trans hbut2 hbut3), r3, c3, n3, w3, ?_⟩
  rw [hset, hheld, hrep]
/-- A selection that is refused (R208). -/
theorem State.profRefuse_spec (s : State) :
    s.profRefuse.get pPROF R.PROF_REJ_CNT = min (s.get pPROF R.PROF_REJ_CNT + 1) (2 ^ 32 - 1) ∧
    (s.frozen pPROF = false → bit (s.profRefuse.get pPROF R.PG_IRQ_RAW) 5 = true ∧
      (s.get pPROF R.PG_ERR_CNT = 0 → s.profRefuse.get pPROF R.PG_ERR_INFO_CODE = 0xA1)) ∧
    s.regsBut s.profRefuse ((pPROF, R.PROF_REJ_CNT) :: errFields pPROF) ∧ s.reports s.profRefuse := by
  have hfr : (s.incSat pPROF R.PROF_REJ_CNT).frozen pPROF = s.frozen pPROF := State.frozen_congr (State.get_incSat_field _ _ (by decide))
  have hother : ∀ {f : Fld}, f.id ≠ R.PG_IRQ_RAW.id → s.profRefuse.get pPROF f =
      ((s.incSat pPROF R.PROF_REJ_CNT).err pPROF 0xA1 1 0).get pPROF f := fun hf => State.get_cause_field _ _ _ hf
  refine ⟨?_, fun hf => ⟨State.bit_cause _ (by decide) ?_, fun h0 => ?_⟩, ?_,
    ((s.reports_incSat _ _).trans (State.reports_err _ _ _ _ _ _ _)).trans (State.reports_cause _ _ _)⟩
  · rw [hother (by decide), State.get_err_field _ _ _ _ _ _ _ (by decide), State.get_incSat_self]
    rfl
  · rw [← hf, ← hfr]
    exact State.frozen_congr (State.get_err_field _ _ _ _ _ _ _ (by decide))
  · obtain ⟨-, hrec⟩ := (s.incSat pPROF R.PROF_REJ_CNT).err_recorded (hfr.trans hf) 0xA1 1 0 0 0
    rw [hother (by decide), (hrec (by rw [State.get_incSat_field _ _ (by decide)]; exact h0)).1]
    rfl
  · exact State.regsBut_cause (State.regsBut_err (State.regsBut_incSat (State.regsBut_refl _ _) (by simp)) _ _ _ _ _ _ (by simp)) _
      (by simp [errFields])

/-! ### CHAIN (R237) -/

theorem NMap.find_ins {α : Type} (m : NMap α) (k : Nat) (v : α) (h : ∀ e ∈ m, e.1 ≠ k) :
    (NMap.ins m k v).find? (fun e => e.1 == k) = some (k, v) := by
  induction m with
  | nil => simp [NMap.ins]
  | cons e r ih =>
    have he : (e.1 == k) = false := by simpa using h e (by simp)
    unfold NMap.ins
    split
    · simp
    · rw [List.find?_cons_of_neg (by simp [he])]
      exact ih fun x hx => h x (by simp [hx])
theorem NMap.find_put {α : Type} (m : NMap α) (k : Nat) (v : α) : (m.put k v).find? (fun e => e.1 == k) = some (k, v) :=
  NMap.find_ins _ _ _ fun e he => by simpa [NMap.del] using (List.mem_filter.mp he).2
/-- What CHAIN does once it is heard. -/
def State.chainTaken (s : State) (b : Nat) (f : List Nat) : State :=
  (s.updPair fun p => { p with chainPeer := p.chainPeer.put b f }).chainCompare b
theorem exec_chain {s : State} {hd : CrookHdr} (h : s.hears hd) (b : Bar) (profEn : Bool) (prof : BitVec 3) (first jobId lines : W32) :
    exec (.chain hd b profEn prof first jobId lines) s = .next ((s.noted hd).chainTaken b
      [b2n profEn + 2 * prof.toNat, first.toNat, jobId.toNat, lines.toNat]) :=
  congrArg _ (State.crookMsg_heard h fun s => s.chainTaken b [b2n profEn + 2 * prof.toNat, first.toNat, jobId.toNat, lines.toNat])
theorem State.chainTaken_none {u : State} {b : Nat} (h : u.pair.chainOwn.find? (fun e => e.1 == b) = none) (l : List Nat) :
    u.chainTaken b l = u.updPair fun p => { p with chainPeer := p.chainPeer.put b l } := by
  unfold State.chainTaken State.chainCompare
  rw [show (u.updPair fun p => { p with chainPeer := p.chainPeer.put b l }).pair.chainOwn = u.pair.chainOwn from rfl, h]
theorem State.chainTaken_some {u : State} {b : Nat} {e : Nat × List Nat} (h : u.pair.chainOwn.find? (fun e => e.1 == b) = some e)
    (l : List Nat) : ∃ c, u.chainTaken b l =
      (let t := u.updPair fun p => { p with chainOwn := p.chainOwn.del b, chainPeer := c }
      if e.2 = l then t else (t.err pPAIR 0x71 6 (e.2.getD 1 0) b).runReset b) := by
  refine ⟨(u.pair.chainPeer.put b l).del b, ?_⟩
  unfold State.chainTaken State.chainCompare
  rw [show (u.updPair fun p => { p with chainPeer := p.chainPeer.put b l }).pair.chainOwn = u.pair.chainOwn from rfl, h,
    show (u.updPair fun p => { p with chainPeer := p.chainPeer.put b l }).pair.chainPeer = u.pair.chainPeer.put b l from rfl,
    NMap.find_put]
  rfl
/-- A bar's run begins again; HOLD goes back to MATCH (R243, R244). -/
theorem State.runReset_spec {s : State} (b : Nat) (hp : s.straps.pairEn = true) (hf : s.frozen pPAIR = false) :
    (s.runReset b).pair.runs.getD b 0 = 0 ∧ (s.runReset b).pairState = (if s.pairState = 6 then 5 else s.pairState) ∧
    s.regsBut (s.runReset b) [(pPAIR, R.PAIR_STAT_STATE), (pPAIR, R.PG_IRQ_RAW)] ∧
    ∃ r g w, s.runReset b = { s with
      regs := r
      pair := { s.pair with runs := s.pair.runs.del b, gaveUp := g }
      host := { s.host with waiting := w } } := by
  unfold State.runReset
  dsimp only
  rw [show (s.updPair fun p => { p with runs := p.runs.del b }).pairState = s.pairState from rfl]
  by_cases h6 : s.pairState = 6
  · rw [if_pos h6, if_pos h6]
    obtain ⟨h5, -, hregs, r, g, w, hset⟩ := State.setPairState_spec (s.updPair fun p => { p with runs := p.runs.del b }) (v := 5)
      (by decide) hp hf
    exact ⟨by rw [hset]; exact NMap.getD_del_self _ _ _, h5, hregs, r, g, w, hset⟩
  · rw [if_neg h6, if_neg h6]
    exact ⟨NMap.getD_del_self _ _ _, rfl, State.regsBut_of_regs (State.regsBut_refl s _) rfl, s.regs, s.pair.gaveUp, s.host.waiting, rfl⟩
theorem chain_differs {s : State} {b : Nat} (hp : s.straps.pairEn = true) (hf : s.frozen pPAIR = false) (lo : Nat) {t : State}
    (ht : (s.err pPAIR 0x71 6 lo b).runReset b = t) :
    t.pair.runs.getD b 0 = 0 ∧ (s.get pPAIR R.PG_ERR_CNT = 0 → t.get pPAIR R.PG_ERR_INFO_CODE = 0x71 ∧
      t.get pPAIR R.PG_ERR_INFO_SRC = 6) ∧ s.regsBut t ((pPAIR, R.PAIR_STAT_STATE) :: errFields pPAIR) ∧
    t.pair.chainOwn = s.pair.chainOwn ∧ s.sameMemory t := by
  obtain ⟨-, hrec⟩ := s.err_recorded hf 0x71 6 lo b 0
  have hbut := State.regsBut_err (State.regsBut_refl s ((pPAIR, R.PAIR_STAT_STATE) :: errFields pPAIR)) pPAIR 0x71 6 lo b 0 (by simp)
  have hfe : (s.err pPAIR 0x71 6 lo b).frozen pPAIR = false := by
    rw [← hf]
    exact State.frozen_congr (State.get_err_field _ _ _ _ _ _ _ (by decide))
  obtain ⟨r, w, hrep⟩ := s.reports_err pPAIR 0x71 6 lo b 0
  generalize s.err pPAIR 0x71 6 lo b = e at *
  obtain ⟨h0, -, hregs, r', g, w', hshape⟩ := State.runReset_spec (s := e) b (by rw [hrep]; exact hp) hfe
  rw [ht] at h0 hregs hshape
  refine ⟨h0, fun hz => ⟨?_, ?_⟩, State.regsBut_trans hbut (State.regsBut_mono hregs (by simp [errFields])), by rw [hshape, hrep], ?_⟩
  · exact (hregs.field (by simp only [List.forall_mem_cons]; exact ⟨by decide, by decide, by simp⟩) _).trans (hrec hz).1
  · exact (hregs.field (by simp only [List.forall_mem_cons]; exact ⟨by decide, by decide, by simp⟩) _).trans (hrec hz).2
  · rw [hshape, hrep]
    exact ⟨rfl, rfl, rfl, rfl, rfl⟩

/-! ### The obligation -/

section
variable {s u : State} (H : s.heardBy u)
include H
theorem hold_taken (b : Bar) (held : Bool) (line : Nat) {t : State} (ht : u.holdTaken b held line = t) :
    (s.lineLate b line = false → t.pair = { u.pair with holdAt := s.pair.holdAt ++ [(line, b.val, held)] } ∧
      ({ t with pair := u.pair } : State) = u) ∧
    (s.lineLate b line = true → t.pair.holdAt = s.pair.holdAt ++ [((s.get (pLINE b) R.LINE_SEQ + 1) % 2 ^ 32, b.val, held)] ∧
      lateTaken u t) := by
  obtain ⟨-, -, -, -, -, hhold, -, -⟩ := H.rest
  unfold State.holdTaken at ht
  rw [H.lineLate, H.get (f := R.LINE_SEQ) (by decide) (by decide)] at ht
  cases hl : s.lineLate b line with
  | false =>
    simp only [hl, Bool.false_eq_true, if_false] at ht
    subst ht
    refine ⟨fun _ => ⟨?_, rfl⟩, fun h => absurd h Bool.false_ne_true⟩
    rw [← hhold]
    rfl
  | true =>
    simp only [hl, if_true] at ht
    generalize (s.get (pLINE b) R.LINE_SEQ + 1) % 2 ^ 32 = n at ht ⊢
    have hlate := lateTaken_lateCommand (s := u.updPair fun p => { p with holdAt := p.holdAt ++ [(n, b.val, held)] }) H.on b line
    have hkeep := State.lateCommand_holdAt (u.updPair fun p => { p with holdAt := p.holdAt ++ [(n, b.val, held)] }) b line
    rw [ht] at hlate hkeep
    refine ⟨fun h => absurd h.symm Bool.false_ne_true, fun _ => ⟨?_, lateTaken_updPair (g := fun p =>
      { p with holdAt := p.holdAt ++ [(n, b.val, held)] }) ⟨rfl, rfl⟩ hlate⟩⟩
    rw [hkeep, ← hhold]
    rfl
theorem swapLate_iff (b : Nat) (whn : Byte) (line : Nat) (go : W32) : u.swapLate b whn line go = true ↔
    if whn.toNat = 2 then ∃ e, s.pair.jobLine.find? (fun e => e.1 == b) = some e ∧ 0 < diff32 e.2 go.toNat
    else s.lineLate b line = true := by
  obtain ⟨-, -, -, -, hjob, -⟩ := H.rest
  unfold State.swapLate
  rw [H.lineLate, hjob]
  split
  · cases s.pair.jobLine.find? (fun e => e.1 == b) with
    | none => simp
    | some e => simp
  · rfl
theorem prof_heard (slot : Byte) (line check : W32) {t : State} (ht : u.profHeard slot line check = t) :
    ((∃ b < 8, s.lineRuns b = true ∧ s.lineLate b line.toNat = true) → lateTaken u t) ∧
    ((∀ b < 8, s.lineRuns b = true → s.lineLate b line.toNat = false) →
      (if slot.toNat < 8 ∧ s.prof.loaded = true ∧ s.slotUsable slot.toNat = true ∧
          leAt (s.prof.images.getD slot.toNat []) 656 4 = check.toNat then
        t.get pPROF R.PROF_SEL_CNT = (s.get pPROF R.PROF_SEL_CNT + 1) % 2 ^ 32 ∧
          (s.fenced pPROF = false → bit (t.get pPROF R.PG_IRQ_RAW) 3 = true)
      else t.get pPROF R.PROF_REJ_CNT = min (s.get pPROF R.PROF_REJ_CNT + 1) (2 ^ 32 - 1) ∧ t.prof = s.prof ∧
          (s.fenced pPROF = false → bit (t.get pPROF R.PG_IRQ_RAW) 5 = true)) ∧
      (∀ q f, q ≠ pPROF → t.get q f = u.get q f) ∧ s.sameMemory t) := by
  obtain ⟨-, -, hprof, hmem, -⟩ := H.rest
  have hruns : u.lineRuns = s.lineRuns := State.lineRuns_congr H.working
  have huse : u.slotUsable slot.toNat = s.slotUsable slot.toNat := by
    rw [State.slotUsable, State.slotUsable, H.get (by decide) (by decide)]
  have hfr : s.fenced pPROF = false → u.frozen pPROF = false := fun h => State.frozen_of_unfenced ((H.fenced _).trans h)
  have hcond : (List.range 8).find? (fun b => u.lineRuns b && u.lineLate b line.toNat) =
      (List.range 8).find? fun b => s.lineRuns b && s.lineLate b line.toNat := by
    rw [hruns]
    simp only [H.lineLate]
  unfold State.profHeard at ht
  rw [hcond] at ht
  cases hfind : (List.range 8).find? fun b => s.lineRuns b && s.lineLate b line.toNat with
  | some b =>
    rw [hfind] at ht
    dsimp only at ht
    have hb := List.find?_some hfind
    have hb8 := List.mem_range.mp (List.mem_of_find?_eq_some hfind)
    simp only [Bool.and_eq_true] at hb
    refine ⟨fun _ => ht ▸ lateTaken_lateCommand H.on b line.toNat, fun h => ?_⟩
    rw [h b hb8 hb.1] at hb
    exact absurd hb.2 Bool.false_ne_true
  | none =>
    rw [hfind] at ht
    dsimp only at ht
    have hnone : ∀ b < 8, ¬ (s.lineRuns b = true ∧ s.lineLate b line.toNat = true) := fun b hb h => by
      have := List.find?_eq_none.mp hfind b (List.mem_range.mpr hb)
      simp [h.1, h.2] at this
    refine ⟨fun ⟨b, hb, h⟩ => absurd h (hnone b hb), fun _ => ?_⟩
    rw [huse, hprof] at ht
    by_cases hc : slot.toNat < 8 ∧ s.prof.loaded = true ∧ s.slotUsable slot.toNat = true ∧
        leAt (s.prof.images.getD slot.toNat []) 656 4 = check.toNat
    · rw [if_neg (by simp [hc])] at ht
      rw [if_pos hc]
      obtain ⟨hcnt, hirq, hbut, r, c, n, w, hshape⟩ := u.profTake_spec slot.toNat line.toNat
      rw [ht] at hcnt hirq hbut hshape
      refine ⟨⟨by rw [hcnt, H.page (by decide)], fun h => hirq (hfr h)⟩, fun q f hq => hbut q f fun e he => Or.inl ?_, ?_⟩
      · have hpage : ∀ e ∈ selFields, e.1 = pPROF := by decide
        exact hpage e he ▸ hq
      · rw [hshape]
        exact hmem
    · rw [if_pos (by
        simp only [not_and_or, Nat.not_lt] at hc
        simp only [Bool.or_eq_true, decide_eq_true_eq, Bool.not_eq_true', bne_iff_ne]
        rcases hc with h | h | h | h
        · exact Or.inl (Or.inl (Or.inl h))
        · exact Or.inl (Or.inl (Or.inr (by simpa using h)))
        · exact Or.inl (Or.inr (by simpa using h))
        · exact Or.inr h)] at ht
      rw [if_neg hc]
      obtain ⟨hcnt, hirq, hbut, r, w, hshape⟩ := u.profRefuse_spec
      rw [ht] at hcnt hirq hbut hshape
      refine ⟨⟨by rw [hcnt, H.page (by decide)], by rw [hshape]; exact hprof, fun h => (hirq (hfr h)).1⟩,
        fun q f hq => hbut q f fun e he => Or.inl ?_, ?_⟩
      · have hpage : ∀ e ∈ (pPROF, R.PROF_REJ_CNT) :: errFields pPROF, e.1 = pPROF := by decide
        exact hpage e he ▸ hq
      · rw [hshape]
        exact hmem
end

/-- Settles O47: a late command by `lateTaken_lateCommand`, one in time by what it stores. -/
theorem homeUnitCommands : Obligations.HomeUnitCommands := by
  unfold Obligations.HomeUnitCommands
  refine ⟨?_, ?_, ?_, ?_⟩
  · intro s hd b line g a held tables whn slot go check u hh hu
    refine ⟨fun hj => ⟨?_, ?_, ?_, ?_, ?_⟩, fun hj k0 nk arm dot part npart cycle deltas record => ⟨?_, ?_⟩⟩
    · exact congrArg _ (State.crookFollow_home hh hu hj _)
    · exact congrArg _ (State.crookFollow_home hh hu hj _)
    · exact congrArg _ (State.crookFollow_home hh hu hj _)
    · exact congrArg _ (State.crookFollow_home hh hu hj _)
    · exact congrArg _ (State.crookFollow_home hh hu hj _)
    · exact congrArg _ (State.crookCmd_joining hh hu hj _)
    · exact congrArg _ (State.crookCmd_joining hh hu hj _)
  · intro s hd b line u hc hu hhome
    have H : s.heardBy u := hu ▸ hc.1.heardBy
    refine ⟨fun g a hl => ⟨u.lateCommand b line.toNat, ?_, ?_, lateTaken_lateCommand H.on _ _⟩, fun g hl => ?_, fun a hl => ⟨fun hb => ?_, fun hb => ?_⟩,
      fun held => ?_, fun tables whn go late hlate => ?_⟩
    · rw [exec_gain hc hu hhome, H.lineLate, hl, if_pos rfl]
    · rw [exec_adj hc hu hhome, H.lineLate, hl, if_pos rfl]
    · rw [exec_gain hc hu hhome, H.lineLate, hl, if_neg Bool.false_ne_true]
      refine ⟨_, rfl, ?_, fun c hc => ?_, rfl⟩
      · rw [State.lineAt_upd_self, H.lineAt]
      · rw [State.lineAt_upd_other _ _ hc, H.lineAt]
    · rw [exec_adj hc hu hhome, H.lineLate, hl, if_neg Bool.false_ne_true, H.blockedPage, hb, if_pos rfl]
    · rw [exec_adj hc hu hhome, H.lineLate, hl, if_neg Bool.false_ne_true, H.blockedPage, hb, if_neg Bool.false_ne_true]
      obtain ⟨h1, h2, h3, h4, h5, h6, h7, h8, h9⟩ := u.adjTaken_spec b line a
      exact ⟨_, rfl, by rw [h1, H.lineAt], h2, h3, h4, h5, h6, h7, fun c hc => by rw [h8 c hc, H.lineAt], h9⟩
    · rw [exec_hold hc hu hhome]
      exact ⟨_, rfl, hold_taken H b held line.toNat rfl⟩
    · have hl : u.swapLate b whn line.toNat go = true ↔ late := (swapLate_iff H b whn line.toNat go).trans hlate.symm
      rw [exec_swapMessage hc hu hhome, H.blockedPage]
      by_cases h : late
      · rw [if_pos (hl.mpr h)]
        exact ⟨_, rfl, fun _ => lateTaken_lateCommand H.on _ _, fun hn => absurd h hn, fun hn => absurd h hn⟩
      · rw [if_neg fun hn => h (hl.mp hn)]
        cases hb : s.blockedPage (pPIPE b) with
        | true => exact ⟨_, rfl, fun hn => absurd hn h, fun _ _ => rfl, fun _ hn => absurd hn.symm Bool.false_ne_true⟩
        | false =>
          obtain ⟨h1, h2, h3, h4, h5, h6, h7, h8, h9⟩ := u.swapTaken_spec b tables whn line rfl
          refine ⟨_, rfl, fun hn => absurd hn h, fun _ hn => absurd hn Bool.false_ne_true,
            fun _ _ => ⟨h1, h2, h3, h4, ?_, h6, h7, fun c hc => by rw [if_neg Bool.false_ne_true, h8 c hc, H.pipeAt], h9⟩⟩
          rw [if_neg Bool.false_ne_true, h5, H.pipeAt]
          rfl
  · intro s hd slot line check u hc hu hhome
    rw [exec_profMessage hc hu hhome]
    exact ⟨_, rfl, prof_heard (hu ▸ hc.1.heardBy) slot line check rfl⟩
  · rintro s hd b profEn prof first jobId lines u l hh hu rfl
    have H : s.heardBy u := hu ▸ hh.heardBy
    obtain ⟨-, -, -, hmem, -, -, hown, hpeer⟩ := H.rest
    rw [exec_chain hh, ← hu]
    generalize [b2n profEn + 2 * prof.toNat, first.toNat, jobId.toNat, lines.toNat] = l
    cases hf : s.pair.chainOwn.find? (fun e => e.1 == b.val) with
    | none =>
      rw [State.chainTaken_none (by rw [hown]; exact hf)]
      exact ⟨_, rfl, hmem, fun _ => ⟨NMap.getD_put_self _ _ _ _, hown, rfl⟩, fun e he => nomatch he⟩
    | some e =>
      obtain ⟨c, hc⟩ := State.chainTaken_some (by rw [hown]; exact hf) l
      rw [hc]
      dsimp only
      refine ⟨_, rfl, ?_⟩
      by_cases he : e.2 = l
      · rw [if_pos he]
        refine ⟨hmem, fun hn => absurd hn (Option.some_ne_none e), fun e' he' => ?_⟩
        obtain rfl := Option.some.inj he'
        refine ⟨?_, fun _ => rfl, fun hn => absurd he hn⟩
        rw [← hown]
        rfl
      · rw [if_neg he]
        obtain ⟨h0, hrec, hregs, hco, hm⟩ := chain_differs (s := u.updPair fun p => { p with chainOwn := p.chainOwn.del b, chainPeer := c })
          (b := b) H.pairEn H.frozen (e.2.getD 1 0) rfl
        refine ⟨?_, fun hn => absurd hn (Option.some_ne_none e), fun e' he' => ?_⟩
        · obtain ⟨m1, m2, m3, m4, m5⟩ := hmem
          obtain ⟨k1, k2, k3, k4, k5⟩ := hm
          exact ⟨k1.trans m1, k2.trans m2, k3.trans m3, k4.trans m4, k5.trans m5⟩
        obtain rfl := Option.some.inj he'
        refine ⟨hco.trans (by rw [← hown]; rfl), fun hn => absurd hn he, fun _ => ⟨h0, fun hz => hrec ?_, hregs⟩⟩
        exact (H.get (f := R.PG_ERR_CNT) (by decide) (by decide) pPAIR).trans hz

end Sys2Proof.Machine
end

section
/-! ### Profile selections and reloads (O40) -/
open Sys2Proof Sys2Proof.Machine
namespace Sys2Proof.Machine

/-! ### A selection -/

/-- What a command of the home unit moves: the messages alone. -/
theorem State.crookCommand_shape (s : State) (typ : Nat) (payload : List Byte) :
    ∃ p o, s.crookCommand typ payload = { s with pair := p, outs := o } := by
  unfold State.crookCommand
  split
  · exact ⟨s.pair, s.outs, rfl⟩
  · next h =>
    simp only [Bool.or_eq_true, not_or] at h
    rw [State.crookSend_eq (by simpa using h.1)]
    exact ⟨_, _, rfl⟩
/-- A bar that its image names and that runs keeps a selection from being done (log 33). -/
theorem State.selDone_ne (s : State) (img : List Byte)
    (h : ∃ b < 8, bit (byteAt img 2) b = true ∧ s.lineRuns b = true) : s.selDone img ≠ 0xFF := by
  obtain ⟨b, hb, hbit, hrun⟩ := h
  have hfold : s.selDone img = (List.range 8).foldl
      (fun m b => if !(bit (byteAt img 2) b && s.lineRuns b) then m + 2 ^ b else m) 0 := by
    unfold State.selDone
    congr 1
    funext m b
    cases bit (byteAt img 2) b && s.lineRuns b <;> rfl
  intro hff
  have htest := (maskFold_spec (fun b => !(bit (byteAt img 2) b && s.lineRuns b)) 8).2 b
  rw [← hfold, hff] at htest
  simp only [hbit, hrun, hb, Bool.and_self, Bool.not_true, Bool.and_false] at htest
  have hall : ∀ b < 8, Nat.testBit 0xFF b = true := by decide
  rw [hall b hb] at htest
  exact absurd htest (by decide)
theorem State.showCur_spec {s : State} {c : Sel} (h : s.prof.cur = some c) :
    s.showCur.get pPROF R.PROF_STAT_CVAL = 1 ∧ s.showCur.get pPROF R.PROF_STAT_CP = c.slot % 8 ∧
    s.showCur.get pPROF R.PROF_ARM_LINE = c.line % 2 ^ 32 := by
  unfold State.showCur
  rw [h]
  dsimp only
  refine ⟨?_, ?_, State.get_set_self _ _ _ _⟩
  · rw [State.get_set_field _ _ _ (by decide), State.get_set_field _ _ _ (by decide), State.get_set_field _ _ _ (by decide), State.get_set_self]
    rfl
  · rw [State.get_set_field _ _ _ (by decide), State.get_set_field _ _ _ (by decide), State.get_set_self]
    rfl
theorem State.showNext_spec {s : State} {c : Sel} (h : s.prof.next = some c) :
    s.showNext.get pPROF R.PROF_STAT_NVAL = 1 ∧ s.showNext.get pPROF R.PROF_STAT_NP = c.slot % 8 ∧
    s.showNext.get pPROF R.PROF_NEXT_LINE = c.line % 2 ^ 32 := by
  unfold State.showNext
  rw [h]
  dsimp only
  refine ⟨?_, ?_, State.get_set_self _ _ _ _⟩
  · rw [State.get_set_field _ _ _ (by decide), State.get_set_field _ _ _ (by decide), State.get_set_self]
    rfl
  · rw [State.get_set_field _ _ _ (by decide), State.get_set_self]
    rfl
theorem State.prof_showCur (s : State) : s.showCur.prof = s.prof := by
  unfold State.showCur
  split <;> rfl
theorem State.prof_showNext (s : State) : s.showNext.prof = s.prof := by
  unfold State.showNext
  split <;> rfl
theorem State.get_showNext_field (s : State) {f : Fld}
    (hf : f.id ∉ [R.PROF_STAT_NVAL.id, R.PROF_STAT_NP.id, R.PROF_NEXT_LINE.id]) : s.showNext.get pPROF f = s.get pPROF f := by
  simp only [List.mem_cons, List.not_mem_nil, or_false, not_or] at hf
  obtain ⟨h1, h2, h3⟩ := hf
  unfold State.showNext
  split
  · rw [State.get_set_field _ _ _ h3, State.get_set_field _ _ _ h2, State.get_set_field _ _ _ h1]
  · exact State.get_set_field _ _ _ h1
/-- A selection that is not done settles by being shown (R210). -/
theorem State.profSettle_waits {s : State} {c : Sel} (h : s.prof.cur = some c) (hd : c.done ≠ 0xFF) : s.profSettle = s.showCur.showNext := by
  have hstop : s.profFinish 3 = s := by
    unfold State.profFinish
    rw [h]
    exact if_pos hd
  rw [State.profSettle, hstop, State.profShow_eq]
/-- CUR as it shows once it has settled. -/
theorem State.profSettle_cur {s : State} {c : Sel} (h : s.prof.cur = some c) (hd : c.done ≠ 0xFF) :
    s.profSettle.get pPROF R.PROF_STAT_CVAL = 1 ∧ s.profSettle.get pPROF R.PROF_STAT_CP = c.slot % 8 ∧
    s.profSettle.get pPROF R.PROF_ARM_LINE = c.line % 2 ^ 32 := by
  obtain ⟨h1, h2, h3⟩ := State.showCur_spec h
  rw [State.profSettle_waits h hd]
  exact ⟨(State.get_showNext_field _ (by decide)).trans h1, (State.get_showNext_field _ (by decide)).trans h2,
    (State.get_showNext_field _ (by decide)).trans h3⟩
/-- NEXT as it shows once CUR has settled. -/
theorem State.profSettle_next {s : State} {c x : Sel} (h : s.prof.cur = some c) (hd : c.done ≠ 0xFF) (hn : s.prof.next = some x) :
    s.profSettle.get pPROF R.PROF_STAT_NVAL = 1 ∧ s.profSettle.get pPROF R.PROF_STAT_NP = x.slot % 8 ∧
    s.profSettle.get pPROF R.PROF_NEXT_LINE = x.line % 2 ^ 32 ∧ s.profSettle.prof.cur = some c := by
  obtain ⟨h1, h2, h3⟩ := State.showNext_spec (s := s.showCur) (by rw [State.prof_showCur]; exact hn)
  rw [State.profSettle_waits h hd]
  exact ⟨h1, h2, h3, by rw [State.prof_showNext, State.prof_showCur]; exact h⟩
theorem State.prof_incSat (s : State) (p : Nat) (f : Fld) : (s.incSat p f).prof = s.prof := rfl
/-- CUR and NEXT after a selection for a bar that runs (R210, R211). -/
theorem State.profTake_shown {s : State} (p arm : Nat) (harm : arm < 2 ^ 32)
    (hrun : ∃ b < 8, bit (byteAt (s.prof.images.getD p []) 2) b = true ∧ s.lineRuns b = true) :
    (s.prof.cur = none → s.prof.next = none →
      (s.profTake p arm).get pPROF R.PROF_STAT_CVAL = 1 ∧ (s.profTake p arm).get pPROF R.PROF_STAT_CP = p % 8 ∧
      (s.profTake p arm).get pPROF R.PROF_ARM_LINE = arm) ∧
    (∀ c, s.prof.cur = some c → c.done = 0 → s.prof.next = none →
      (s.profTake p arm).get pPROF R.PROF_STAT_CVAL = 1 ∧ (s.profTake p arm).get pPROF R.PROF_STAT_CP = p % 8 ∧
      (s.profTake p arm).get pPROF R.PROF_ARM_LINE = arm ∧
      (s.profTake p arm).get pPROF R.PROF_REPL_CNT = min (s.get pPROF R.PROF_REPL_CNT + 1) (2 ^ 32 - 1)) ∧
    (∀ c, s.prof.cur = some c → c.done ≠ 0 → c.done ≠ 0xFF →
      (s.profTake p arm).get pPROF R.PROF_STAT_NVAL = 1 ∧ (s.profTake p arm).get pPROF R.PROF_STAT_NP = p % 8 ∧
      (s.profTake p arm).get pPROF R.PROF_NEXT_LINE = arm ∧ (s.profTake p arm).prof.cur = some c) := by
  have hd : (s.newSel p arm).done ≠ 0xFF := s.selDone_ne _ hrun
  have hline : (s.newSel p arm).line % 2 ^ 32 = arm := Nat.mod_eq_of_lt harm
  obtain ⟨-, hrepl, -, -, r, w, hrep⟩ := s.selCounted_spec
  have hprof : s.selCounted.prof = s.prof := by rw [hrep]
  have hcur : s.selCounted.prof.cur = s.prof.cur := by rw [hprof]
  have hnext : s.selCounted.prof.next = s.prof.next := by rw [hprof]
  rw [State.profTake_eq]
  have hslot : (s.newSel p arm).slot = p := rfl
  generalize s.newSel p arm = x at hd hline hslot
  subst hslot
  unfold State.selHeld
  refine ⟨fun hc hn => ?_, fun c hc h0 hn => ?_, fun c hc h0 hff => ?_⟩
  · rw [hcur, hc, ← hline]
    exact State.profSettle_cur rfl hd
  · rw [hcur, hc, hnext, hn, ← hline]
    dsimp only
    rw [if_pos h0]
    obtain ⟨h1, h2, h3⟩ := State.profSettle_cur (s := ({ s.selCounted with prof := { s.selCounted.prof with cur := some x } }).incSat pPROF
      R.PROF_REPL_CNT) (c := x) rfl hd
    refine ⟨h1, h2, h3, (State.profKeeps_profSettle _).counts.2.trans ?_⟩
    rw [State.get_incSat_self, ← hrepl]
    rfl
  · rw [hcur, hc, ← hline]
    cases hn : s.prof.next with
    | none =>
      rw [hnext, hn]
      dsimp only
      rw [if_neg h0]
      exact State.profSettle_next (s := { s.selCounted with prof := { s.selCounted.prof with next := some x } }) (hcur.trans hc) hff rfl
    | some y =>
      rw [hnext, hn]
      dsimp only
      refine State.profSettle_next ?_ hff ?_ <;> rw [State.prof_incSat]
      exact hcur.trans hc
theorem State.armLine_lt (s : State) : s.armLine < 2 ^ 32 := Nat.mod_lt _ (Nat.two_pow_pos 32)
/-- What the home unit sends of a selection (R214). -/
def State.selPayload (s : State) (p : Nat) : List Byte :=
  [BitVec.ofNat 8 p] ++ zeros 3 ++ leBytes 4 s.armLine ++ ((s.prof.images.getD p []).drop 656).take 4
def State.selSent (s : State) (p : Nat) : State := if s.profLeads then s.crookCommand 0x12 (s.selPayload p) else s
theorem State.profSelect_eq (s : State) (p : Nat) : s.profSelect p =
    if !s.prof.loaded || !s.slotUsable p then s.profRefuse else (s.selSent p).profTake p s.armLine := rfl
theorem State.selSent_shape (s : State) (p : Nat) : ∃ q o, s.selSent p = { s with pair := q, outs := o } := by
  unfold State.selSent
  split
  · exact s.crookCommand_shape _ _
  · exact ⟨s.pair, s.outs, rfl⟩
/-- A selection of slot p, by a strobe or a command (R208 to R211, R214). -/
theorem State.selected_profSelect (s : State) (p : Nat) : selected s (s.profSelect p) p := by
  have hsound : s.fenceSound → s.frozen pPROF = false := fun h => h.unfenced (p := pPROF) rfl rfl
  refine ⟨fun hno => ?_, fun hload huse => ?_⟩
  · rw [State.profSelect_eq, if_pos (by rcases hno with h | h <;> simp [h])]
    obtain ⟨hrej, hcause, hbut, r, w, hrep⟩ := s.profRefuse_spec
    exact ⟨hrej, fun h => hcause (hsound h), hbut, by rw [hrep]⟩
  · rw [State.profSelect_eq, if_neg (by simp [hload, huse])]
    have harm := s.armLine_lt
    have hsent : s.profLeads = true → s.carries 0x12 = true →
        (s.selSent p).pair.cmds = s.pair.cmds ++ [⟨s.nextMseq, 0x12, s.selPayload p, 1, s.tick⟩] := fun hlead hcar => by
      have hon : s.pairOn = true := by
        simp only [State.profLeads, State.crookUp, Bool.and_eq_true] at hlead
        exact hlead.1.1
      rw [State.selSent, if_pos hlead, State.crookCommand_eq hon hcar]
    have hstay : s.profLeads = false → s.selSent p = s := fun hlead => if_neg (by simp [hlead])
    change _ ∧ _ ∧ _ ∧ (s.profLeads = true → s.carries 0x12 = true →
      ((s.selSent p).profTake p s.armLine).pair.cmds = s.pair.cmds ++ [⟨s.nextMseq, 0x12, s.selPayload p, 1, s.tick⟩]) ∧ _
    generalize s.armLine = arm at harm ⊢
    generalize s.selPayload p = l at hsent ⊢
    obtain ⟨q, o, hv⟩ := s.selSent_shape p
    generalize s.selSent p = v at hsent hstay hv ⊢
    obtain ⟨hcnt, hirq, hbut, r, c, n, w, hshape⟩ := v.profTake_spec p arm
    have hshown := State.profTake_shown (s := v) p arm harm
    subst hv
    refine ⟨hcnt, fun h => hirq (hsound h), hshown, fun h1 h2 => ?_, fun hlead => ?_⟩
    · rw [hshape]
      exact hsent h1 h2
    · have hs := hstay hlead
      rw [hs] at hbut hshape ⊢
      refine ⟨hbut, ?_⟩
      rw [hshape]

/-! ### Selections that the partner makes, and reloads (R207, R214) -/

theorem State.profIgnore_spec (s : State) : ignored s s.profIgnore ∧
    s.regsBut s.profIgnore [(pPROF, R.PROF_REJ_CNT), (pPAIR, R.PAIR_IGN_CNT)] ∧
    s.profIgnore.get pPROF R.PROF_VALID_BUSY = s.get pPROF R.PROF_VALID_BUSY ∧
    s.profIgnore.get pPROF R.PROF_VALID_VALID = s.get pPROF R.PROF_VALID_VALID ∧
    ∃ r, s.profIgnore = { s with regs := r } := by
  have hrej : (s.incSat pPROF R.PROF_REJ_CNT).get pPROF R.PROF_REJ_CNT = min (s.get pPROF R.PROF_REJ_CNT + 1) (2 ^ 32 - 1) :=
    State.get_incSat_self _ _ _
  have hign : (s.incSat pPROF R.PROF_REJ_CNT).get pPAIR R.PAIR_IGN_CNT = s.get pPAIR R.PAIR_IGN_CNT :=
    s.get_incSat_ne (Or.inl (by decide))
  have hbut : s.regsBut (s.incSat pPROF R.PROF_REJ_CNT) [(pPROF, R.PROF_REJ_CNT), (pPAIR, R.PAIR_IGN_CNT)] :=
    State.regsBut_incSat (State.regsBut_refl _ _) (by simp)
  have hb : (s.incSat pPROF R.PROF_REJ_CNT).get pPROF R.PROF_VALID_BUSY = s.get pPROF R.PROF_VALID_BUSY :=
    State.get_incSat_field _ _ (by decide)
  have hvalid : (s.incSat pPROF R.PROF_REJ_CNT).get pPROF R.PROF_VALID_VALID = s.get pPROF R.PROF_VALID_VALID :=
    State.get_incSat_field _ _ (by decide)
  have hsh : ∃ r, s.incSat pPROF R.PROF_REJ_CNT = { s with regs := r } := ⟨_, rfl⟩
  unfold State.profIgnore ignored
  dsimp only
  generalize s.incSat pPROF R.PROF_REJ_CNT = v at hrej hign hbut hb hvalid hsh ⊢
  obtain ⟨r, hr⟩ := hsh
  split
  · refine ⟨⟨(v.get_incSat_ne (Or.inl (by decide))).trans hrej, ?_⟩, State.regsBut_incSat hbut (by simp),
      (v.get_incSat_ne (Or.inl (by decide))).trans hb, (v.get_incSat_ne (Or.inl (by decide))).trans hvalid,
      (v.incSat pPAIR R.PAIR_IGN_CNT).regs, ?_⟩
    · rw [State.get_incSat_self, hign]
    · rw [hr]
      rfl
  · exact ⟨⟨hrej, hign⟩, hbut, hb, hvalid, r, hr⟩

/-- Adding a power of 2 to a number without that bit sets the bit and no other. -/
theorem testBit_add_two_pow {a i : Nat} (h : a.testBit i = false) (j : Nat) : (a + 2 ^ i).testBit j = (j == i || a.testBit j) := by
  induction i generalizing a j with
  | zero =>
    have h0 : a % 2 = 0 := by
      rw [Nat.testBit_zero] at h
      simpa using h
    cases j with
    | zero => simp [Nat.testBit_zero, Nat.add_mod, h0]
    | succ j =>
      rw [Nat.testBit_succ, Nat.testBit_succ, show (a + 2 ^ 0) / 2 = a / 2 by omega]
      simp
  | succ i ih =>
    rw [Nat.testBit_succ] at h
    have hhalf : (a + 2 ^ (i + 1)) / 2 = a / 2 + 2 ^ i := by omega
    cases j with
    | zero =>
      have hpar : (a + 2 ^ (i + 1)) % 2 = a % 2 := by omega
      simp [Nat.testBit_zero, hpar]
    | succ j =>
      rw [Nat.testBit_succ, Nat.testBit_succ, hhalf, ih h]
      simp
theorem bit_setBit (n i : Nat) (b : Bool) (j : Nat) : bit (setBit n i b) j = if j = i then b else bit n j := by
  have hoff : ∀ k, (andNot n (2 ^ i)).testBit k = (n.testBit k && k != i) := fun k => by
    rw [andNot, Nat.testBit_xor, Nat.testBit_and, Nat.testBit_two_pow]
    by_cases hk : i = k
    · subst hk
      cases n.testBit i <;> simp
    · simp [hk, Ne.symm hk]
  unfold bit setBit
  cases b with
  | false =>
    simp only [Bool.false_eq_true, if_false, Nat.add_zero, hoff]
    by_cases hj : j = i <;> simp [hj]
  | true =>
    rw [if_pos rfl, testBit_add_two_pow (by simp [hoff]), hoff]
    by_cases hj : j = i
    · simp [hj]
    · rw [if_neg hj, bne_iff_ne.mpr hj, beq_eq_false_iff_ne.mpr hj, Bool.false_or, Bool.and_true]
def reloadFields : List (Nat × Fld) := [(pPROF, R.PROF_VALID_BUSY), (pPROF, R.PROF_VALID_VALID)]
theorem State.slotUsable_setBit (s : State) (p : Nat) (b : Bool) {q : Nat} (hq : q < 8) :
    (s.upd pPROF R.PROF_VALID_VALID fun v => setBit v p b).slotUsable q = if q = p then b else s.slotUsable q := by
  rw [State.slotUsable, State.upd, State.get_set_self, bit, Nat.testBit_mod_two_pow]
  have hbit := bit_setBit (s.get pPROF R.PROF_VALID_VALID) p b q
  rw [bit] at hbit
  rw [hbit]
  change (decide (q < 8) && _) = _
  simp [hq, State.slotUsable]
/-- A reload that may start shows BUSY and takes its slot out of use (R207). -/
theorem State.reloadStart_spec (s : State) :
    s.reloadStart.get pPROF R.PROF_VALID_BUSY = b2n (!s.prof.reloads.isEmpty && s.flashFree) ∧
    (∀ e rest, s.prof.reloads = e :: rest → s.flashFree = true → ∀ q < 8, s.reloadStart.slotUsable q =
      if q = e.1 then false else s.slotUsable q) ∧
    (s.prof.reloads = [] ∨ s.flashFree = false → ∀ q, s.reloadStart.slotUsable q = s.slotUsable q) ∧
    s.regsBut s.reloadStart reloadFields ∧ (∃ r, s.reloadStart = { s with regs := r }) ∧
    ∀ f : Fld, f.id ≠ R.PROF_VALID_BUSY.id → f.id ≠ R.PROF_VALID_VALID.id → s.reloadStart.get pPROF f = s.get pPROF f := by
  have hidle : (s.set pPROF R.PROF_VALID_BUSY 0).get pPROF R.PROF_VALID_BUSY = 0 ∧
      (∀ q, (s.set pPROF R.PROF_VALID_BUSY 0).slotUsable q = s.slotUsable q) ∧
      s.regsBut (s.set pPROF R.PROF_VALID_BUSY 0) reloadFields ∧ ∃ r, s.set pPROF R.PROF_VALID_BUSY 0 = { s with regs := r } :=
    ⟨s.get_set_self _ _ _, fun q => congrArg (bit · q) (s.get_set_field _ _ (by decide)),
      State.regsBut_set (State.regsBut_refl _ _) _ (by simp [reloadFields]), _, rfl⟩
  obtain ⟨h1, h2, h3, h4⟩ := hidle
  unfold State.reloadStart
  cases hr : s.prof.reloads with
  | nil =>
    exact ⟨h1, fun e rest he => absurd he (List.cons_ne_nil _ _).symm, fun _ => h2, h3, h4, fun f hf _ => s.get_set_field _ _ hf⟩
  | cons e rest =>
    obtain ⟨p, sel⟩ := e
    dsimp only
    cases hf : s.flashFree with
    | false =>
      exact ⟨h1, fun e rest he hn => absurd hn Bool.false_ne_true, fun _ => h2, h3, h4, fun f hf _ => s.get_set_field _ _ hf⟩
    | true =>
      rw [if_pos rfl]
      refine ⟨(State.get_set_field _ _ _ (by decide)).trans (s.get_set_self _ _ _), fun e' r' he _ q hq => ?_, fun h => ?_,
        State.regsBut_set (State.regsBut_set (State.regsBut_refl _ _) _ (by simp [reloadFields])) _ (by simp [reloadFields]), ⟨_, rfl⟩,
        fun f hf hv => (State.get_set_field _ _ _ hv).trans (s.get_set_field _ _ hf)⟩
      · obtain rfl := (List.cons.inj he).1
        rw [State.slotUsable_setBit _ _ _ hq]
        have hsame : (s.set pPROF R.PROF_VALID_BUSY 1).slotUsable q = s.slotUsable q :=
          congrArg (bit · q) (s.get_set_field _ _ (by decide))
        rw [hsame]
      · rcases h with h | h <;> cases h
/-- The error of a page that is not fenced raises ERR (R40). -/
theorem State.bit_err (s : State) {p : Nat} (h : s.frozen p = false) (code src lo hi dir : Nat) :
    bit ((s.err p code src lo hi dir).get p R.PG_IRQ_RAW) 1 = true := by
  rw [State.err, if_neg (by simp [h])]
  refine State.bit_cause _ (by decide) ((State.frozen_congr ?_).trans h)
  unfold State.errCount
  rw [State.get_incSat_field _ _ (by decide)]
  split
  · iterate 5 rw [State.get_set_field _ _ _ (by decide)]
  · rfl
/-- The end of a reload gives its slot the image of the flash where that is valid, and records an error where it is not (R207). -/
theorem State.slotCopy_spec (s : State) (p : Nat) (hp : p < 8) :
    (s.slotCopy p).slotUsable p = imageValid (s.flashBytes (slotFlash p) 660) p ∧
    (imageValid (s.flashBytes (slotFlash p) 660) p = true →
      (s.slotCopy p).prof.images.getD p [] = s.flashBytes (slotFlash p) 660) ∧
    (imageValid (s.flashBytes (slotFlash p) 660) p = false → s.frozen pPROF = false →
      bit ((s.slotCopy p).get pPROF R.PG_IRQ_RAW) 1 = true ∧
      (s.get pPROF R.PG_ERR_CNT = 0 → (s.slotCopy p).get pPROF R.PG_ERR_INFO_CODE = 0xA1)) ∧
    s.regsBut (s.slotCopy p) (reloadFields ++ errFields pPROF) ∧
    ∃ r m w, s.slotCopy p = { s with regs := r, prof := { s.prof with images := m }, host := { s.host with waiting := w } } := by
  unfold State.slotCopy
  generalize s.flashBytes (slotFlash p) 660 = img
  dsimp only
  have hbut : ∀ (m : NMap (List Byte)) (b : Bool), s.regsBut (({ s with prof := { s.prof with images := m } }).upd pPROF
      R.PROF_VALID_VALID fun v => setBit v p b) (reloadFields ++ errFields pPROF) := fun m b =>
    State.regsBut_set (State.regsBut_of_regs (State.regsBut_refl s _) rfl) _ (by simp [reloadFields])
  have huse : ∀ (m : NMap (List Byte)) (b : Bool), (({ s with prof := { s.prof with images := m } }).upd pPROF
      R.PROF_VALID_VALID fun v => setBit v p b).slotUsable p = b := fun m b =>
    (State.slotUsable_setBit _ _ _ hp).trans (if_pos rfl)
  cases himg : imageValid img p with
  | true =>
    rw [if_pos rfl]
    exact ⟨huse _ _, fun _ => NMap.getD_put_self _ _ _ _, fun h => absurd h.symm Bool.false_ne_true, hbut _ _, _, s.prof.images.put p img, s.host.waiting, rfl⟩
  | false =>
    rw [if_neg (by decide)]
    have hget : ∀ f : Fld, f.id ≠ R.PROF_VALID_VALID.id → (({ s with prof := { s.prof with images := s.prof.images.del p } }).upd pPROF
        R.PROF_VALID_VALID fun v => setBit v p false).get pPROF f = s.get pPROF f := fun f hf => State.get_set_field _ _ _ hf
    have hb := hbut (s.prof.images.del p) false
    have hu := huse (s.prof.images.del p) false
    have hsh : ∃ r, (({ s with prof := { s.prof with images := s.prof.images.del p } }).upd pPROF
        R.PROF_VALID_VALID fun v => setBit v p false) = { s with prof := { s.prof with images := s.prof.images.del p }, regs := r } := ⟨_, rfl⟩
    generalize (({ s with prof := { s.prof with images := s.prof.images.del p } }).upd pPROF
        R.PROF_VALID_VALID fun v => setBit v p false) = v at hget hb hu hsh ⊢
    obtain ⟨r0, hv⟩ := hsh
    obtain ⟨r, w, hrep⟩ := v.reports_err pPROF 0xA1 0 (slotFlash p) 0 0
    refine ⟨(congrArg (bit · p) (State.get_err_field _ _ _ _ _ _ _ (by decide))).trans hu, fun h => absurd h Bool.false_ne_true, fun _ hf => ?_,
      State.regsBut_err hb _ _ _ _ _ _ (by simp), r, s.prof.images.del p, w, ?_⟩
    · obtain ⟨-, hrec⟩ := v.err_recorded ((State.frozen_congr (hget _ (by decide))).trans hf) 0xA1 0 (slotFlash p) 0 0
      exact ⟨v.bit_err ((State.frozen_congr (hget _ (by decide))).trans hf) _ _ _ _ _, fun h0 => (hrec ((hget _ (by decide)).trans h0)).1⟩
    · rw [hrep, hv]
/-- RELOAD of PROF_CMD for slot p (R207). -/
theorem State.reloadAsk_spec (s : State) {p : Nat} (hp : p < 8) (sel : Bool) :
    (s.reloadAsk p sel).get pPROF R.PROF_VALID_BUSY = b2n s.flashFree ∧
    (s.prof.reloads = [] → s.flashFree = true → (s.reloadAsk p sel).slotUsable p = false) ∧
    s.regsBut (s.reloadAsk p sel) reloadFields ∧
    (∃ r, s.reloadAsk p sel = { s with regs := r, prof := { s.prof with reloads := s.prof.reloads ++ [(p, sel)] } }) ∧
    ∀ f : Fld, f.id ≠ R.PROF_VALID_BUSY.id → f.id ≠ R.PROF_VALID_VALID.id → (s.reloadAsk p sel).get pPROF f = s.get pPROF f := by
  obtain ⟨hb, hu, -, hbut, ⟨r, hr⟩, hf⟩ := State.reloadStart_spec { s with prof := { s.prof with reloads := s.prof.reloads ++ [(p, sel)] } }
  refine ⟨hb.trans (congrArg b2n ?_), fun h0 hfree => ?_, hbut, ⟨r, hr⟩, hf⟩
  · have hne : (s.prof.reloads ++ [(p, sel)]).isEmpty = false := by simp
    change (!(s.prof.reloads ++ [(p, sel)]).isEmpty && s.flashFree) = s.flashFree
    rw [hne]
    rfl
  · exact (hu (p, sel) [] (by rw [h0]; rfl) hfree p hp).trans (if_pos rfl)
theorem exec_profstb (s : State) (p : BitVec 3) : exec (.profstb p) s = .next (
    if s.inReset || !s.stbFree then s
    else
    let s := { s with prof := { s.prof with stbAt := some s.tick } }
    if s.resetting pPROF || !s.flag pPROF R.PROF_CTRL then s
    else if s.profFollows then s.profIgnore
    else s.profSelect p.toNat) := rfl
def State.reloadDone (s : State) (p : Nat) (rest : List (Nat × Bool)) : State :=
  ((({ s with prof := { s.prof with reloads := rest } }).updBoot fun b => { b with opAfter := b.opAfter - 1 }).slotCopy p).reloadStart
theorem exec_reloadEnd {s : State} {p : Nat} {sel : Bool} {rest : List (Nat × Bool)} (h : s.prof.reloads = (p, sel) :: rest)
    (hf : s.flashFree = true) : exec .reloadEnd s = .next (if sel then (s.reloadDone p rest).profSelect p else s.reloadDone p rest) := by
  change Host.Outcome.next _ = _
  rw [h]
  dsimp only
  rw [hf]
  rfl
theorem exec_reloadEnd_idle {s : State} (h : s.prof.reloads = [] ∨ s.flashFree = false) : exec .reloadEnd s = .next s := by
  change Host.Outcome.next _ = _
  cases hr : s.prof.reloads with
  | nil => rfl
  | cons e rest =>
    have hf : s.flashFree = false := h.resolve_left (by simp [hr])
    dsimp only
    rw [hf]
    rfl
/-- A write of PROF_CMD by the bits that it sets (R208). -/
theorem profCmdAct_eq {s : State} {v : Nat} {p : BitVec 3} {go reload : Bool} (hv : v = (if go then 2 ^ 31 else 0) + 256 * b2n reload + p.toNat) :
    profCmdAct v s =
      (let u := if go && s.profFollows then s.profIgnore else s
      if reload then u.reloadAsk p.toNat (go && !s.profFollows) else if go && !s.profFollows then u.profSelect p.toNat else u) := by
  have hp : p.toNat < 8 := p.isLt
  have hfield : field v 0 3 = p.toNat := by
    subst hv
    unfold field
    cases go <;> cases reload <;> simp only [b2n, if_true, Bool.false_eq_true, if_false] <;> omega
  have hgo : bit v 31 = go := by
    subst hv
    unfold bit
    rw [Nat.testBit_eq_decide_div_mod_eq]
    cases go <;> cases reload <;> simp only [b2n, if_true, Bool.false_eq_true, if_false, decide_eq_true_eq, decide_eq_false_iff_not] <;> omega
  have hrel : bit v 8 = reload := by
    subst hv
    unfold bit
    rw [Nat.testBit_eq_decide_div_mod_eq]
    cases go <;> cases reload <;> simp only [b2n, if_true, Bool.false_eq_true, if_false, decide_eq_true_eq, decide_eq_false_iff_not] <;> omega
  unfold profCmdAct
  rw [hfield, hgo, hrel]
  cases go <;> cases s.profFollows <;> rfl
theorem exec_profCmd {s : State} {c : Instr} {v : Nat} (hc : s.hostWrite c = some (pPROF, 0x44, v)) (h : s.accepts pPROF 0x44 v) :
    exec c s = .next (profCmdAct v s) :=
  (exec_accepts hc h (Or.inl (by simp))).trans rfl

/-- Settles O40: strobe and GO by `selected_profSelect` and `profIgnore_spec`, RELOAD by `reloadAsk_spec`, its end by `slotCopy_spec`. -/
theorem profileSelections : Obligations.ProfileSelections := by
  unfold Obligations.ProfileSelections
  refine ⟨?_, ?_, ?_, ?_, ?_⟩
  · rintro s u p hu
    refine ⟨fun h => ?_, fun hr hs => ⟨fun h => ?_, fun h1 h2 h3 => ?_, fun h1 h2 h3 => ?_⟩⟩ <;> rw [exec_profstb]
    · rw [if_pos (by rcases h with h | h <;> simp [h])]
    all_goals
      rw [if_neg (by simp [hr, hs])]
      dsimp only
      rw [← hu]
    · rw [if_pos]
      subst hu
      rcases h with h | h
      · exact Bool.or_eq_true_iff.mpr (Or.inl h)
      · exact Bool.or_eq_true_iff.mpr (Or.inr (by rw [Bool.not_eq_true']; exact h))
    all_goals
      have hon : ¬ (u.resetting pPROF || !u.flag pPROF R.PROF_CTRL) = true := by
        have e1 : u.resetting pPROF = s.resetting pPROF := by rw [hu]; rfl
        have e2 : u.flag pPROF R.PROF_CTRL = s.flag pPROF R.PROF_CTRL := by rw [hu]; rfl
        rw [e1, e2, h1, h2]
        decide
      have hfol : u.profFollows = s.profFollows := by rw [hu]; rfl
      rw [if_neg hon]
    · rw [if_pos (hfol.trans h3)]
      obtain ⟨hig, hbut, -, -, r, hr⟩ := u.profIgnore_spec
      have hreg : u.regs = s.regs := by rw [hu]
      refine ⟨_, rfl, ?_, ?_, ?_⟩
      · subst hu
        exact hig
      · subst hu
        exact hbut
      · rw [hr, ← hreg]
    · rw [if_neg (by rw [hfol, h3]; decide)]
      exact ⟨_, rfl, u.selected_profSelect _⟩
  · rintro s p h
    have hw : s.hostWrite (.profCmdGo p false) = some (pPROF, 0x44, 2 ^ 31 + p.toNat) := rfl
    rw [exec_profCmd hw h, profCmdAct_eq (p := p) (go := true) (reload := false)
      (by simp only [b2n, if_true, Bool.false_eq_true, if_false, Nat.mul_zero, Nat.add_zero])]
    refine ⟨fun hf => ?_, fun hf => ?_⟩ <;> rw [hf]
    · obtain ⟨hig, hbut, -, -, r, hr⟩ := s.profIgnore_spec
      exact ⟨_, rfl, hig, hbut, by simp only [Bool.and_self, if_true, Bool.false_eq_true, if_false, Bool.not_true, Bool.and_false, hr]⟩
    · exact ⟨_, rfl, s.selected_profSelect _⟩
  · rintro s p go h
    have hexec : exec (if go then .profCmdGo p true else .profCmdReload p) s =
        .next (profCmdAct ((if go then 2 ^ 31 else 0) + 256 + p.toNat) s) := by
      refine exec_profCmd ?_ h
      cases go
      · exact congrArg (fun n => some (pPROF, 0x44, n)) (by simp)
      · rfl
    rw [hexec, profCmdAct_eq (p := p) (go := go) (reload := true) (by simp only [b2n, if_true, Nat.mul_one])]
    obtain ⟨hig, hibut, hib, hiv, r, hr⟩ := s.profIgnore_spec
    dsimp only
    rw [if_pos rfl]
    refine ⟨_, rfl, ?_⟩
    cases hgf : go && s.profFollows with
    | false =>
      rw [if_neg (by decide)]
      obtain ⟨hb, hu, hbut, ⟨r', hr'⟩, -⟩ := s.reloadAsk_spec p.isLt (go && !s.profFollows)
      refine ⟨by rw [hr'], hb, hu, fun h1 h2 => absurd hgf (by simp [h1, h2]), ?_, by rw [hr']⟩
      simpa [reloadFields] using hbut
    | true =>
      obtain ⟨hgo, hfol⟩ := Bool.and_eq_true_iff.mp hgf
      rw [if_pos rfl]
      have hsame : s.profIgnore.flashFree = s.flashFree ∧ s.profIgnore.prof = s.prof := by rw [hr]; exact ⟨rfl, rfl⟩
      obtain ⟨hb, hu, hbut, ⟨r', hr'⟩, hf⟩ := s.profIgnore.reloadAsk_spec p.isLt (go && !s.profFollows)
      rw [hsame.1, hsame.2] at hu
      rw [hsame.1] at hb
      rw [hsame.2] at hr'
      refine ⟨by rw [hr'], hb, hu, fun _ _ => ⟨(hf _ (by decide) (by decide)).trans hig.1, ?_⟩, ?_, by rw [hr', hr]⟩
      · exact (hbut pPAIR R.PAIR_IGN_CNT (by simp only [reloadFields, List.forall_mem_cons]; exact ⟨Or.inl (by decide), Or.inl (by decide), by simp⟩)).trans hig.2
      · exact State.regsBut_trans (State.regsBut_mono hibut (by simp)) (State.regsBut_mono hbut (by simp [reloadFields]))
  · exact fun s h => exec_reloadEnd_idle h
  · rintro s p sel rest hp hrel hfree
    rw [exec_reloadEnd hrel hfree]
    refine ⟨s.reloadDone p rest, _, rfl, fun h => by simp [h], fun h => ?_, ?_⟩
    · rw [if_pos h]
      exact (s.reloadDone p rest).selected_profSelect p
    unfold State.reloadDone
    have hbase : ∃ w : State, w = ({ s with prof := { s.prof with reloads := rest } }).updBoot fun b => { b with opAfter := b.opAfter - 1 } :=
      ⟨_, rfl⟩
    obtain ⟨w, hw⟩ := hbase
    rw [← hw]
    have hbytes : w.flashBytes (slotFlash p) 660 = s.flashBytes (slotFlash p) 660 := by
      subst hw
      rfl
    have hreg : w.regs = s.regs := by rw [hw]; rfl
    obtain ⟨huse, himg, herr, hbut, r, m, wt, hcopy⟩ := w.slotCopy_spec p hp
    rw [hbytes] at huse himg herr
    generalize w.slotCopy p = c at huse himg herr hbut hcopy ⊢
    obtain ⟨hb, hu1, hu2, hbut2, ⟨r2, hr2⟩, hf⟩ := c.reloadStart_spec
    have hrest : c.prof.reloads = rest := by rw [hcopy, hw]; rfl
    have hff : c.reloadStart.flashFree = c.flashFree := by rw [hr2]; rfl
    rw [hrest] at hb hu1 hu2
    refine ⟨by rw [hr2]; exact hrest, fun hne => ?_, fun hv => by rw [hr2]; exact himg hv, fun hv hs => ?_, by rw [hff]; exact hb,
      by rw [hr2, hcopy, hw]; rfl, ?_, by rw [hr2, hcopy, hw]; rfl⟩
    · rw [← huse]
      cases hr : rest with
      | nil => exact hu2 (Or.inl hr) p
      | cons e l =>
        cases hfl : c.flashFree with
        | false => exact hu2 (Or.inr hfl) p
        | true => exact (hu1 e l hr hfl p hp).trans (if_neg fun h => hne e (by rw [hr]; simp) h.symm)
    · have hfro : s.frozen pPROF = false := hs.unfenced (p := pPROF) rfl rfl
      obtain ⟨h1, h2⟩ := herr hv ((State.frozen_congr (State.get_congr hreg _ _)).trans hfro)
      exact ⟨by rw [hf _ (by decide) (by decide)]; exact h1,
        fun h0 => (hf _ (by decide) (by decide)).trans (h2 ((State.get_congr hreg _ _).trans h0))⟩
    · exact State.regsBut_trans (State.regsBut_of_regs (State.regsBut_refl s _) hreg)
        (State.regsBut_trans hbut (State.regsBut_mono hbut2 (by simp [reloadFields])))
end Sys2Proof.Machine
end

section
/-! ### Joining the reference unit (O45) -/
open Sys2Proof Sys2Proof.Machine
namespace Sys2Proof.Machine

/-! ### A bar that joins -/

/-- What the enable of a joined bar leaves alone: the registers of every other page, the other generators, the bars joined before. -/
structure State.joinKeeps (s t : State) (b : Nat) : Prop where
  page : ∀ q, q ≠ pLINE b → ∀ f, t.get q f = s.get q f
  line : ∀ m, m ≠ b → t.lineAt m = s.lineAt m
  joined : ∀ i, bit s.pair.joined i = true → bit t.pair.joined i = true
  shape : ∃ r ln jb j o jl, t = { s with
    regs := r, line := ln, job := jb, pair := { s.pair with joined := j, joinOk := o, jobLine := jl } }
theorem State.joinKeeps.trans {s t u : State} {b : Nat} (h : s.joinKeeps t b) (k : t.joinKeeps u b) : s.joinKeeps u b := by
  refine ⟨fun q hq f => (k.page q hq f).trans (h.page q hq f), fun m hm => (k.line m hm).trans (h.line m hm),
    fun i hi => k.joined i (h.joined i hi), ?_⟩
  obtain ⟨r, ln, jb, j, o, jl, rfl⟩ := h.shape
  obtain ⟨r', ln', jb', j', o', jl', rfl⟩ := k.shape
  exact ⟨r', ln', jb', j', o', jl', rfl⟩
theorem State.joinKeeps_refl (s : State) (b : Nat) : s.joinKeeps s b :=
  ⟨fun _ _ _ => rfl, fun _ _ => rfl, fun _ h => h, s.regs, s.line, s.job, s.pair.joined, s.pair.joinOk, s.pair.jobLine, rfl⟩
theorem State.joinKeeps_set (s : State) (b : Nat) (f : Fld) (v : Nat) : s.joinKeeps (s.set (pLINE b) f v) b :=
  ⟨fun _ hq _ => s.get_set_ne v (Or.inl hq), fun _ _ => rfl, fun _ h => h, _, s.line, s.job, s.pair.joined, s.pair.joinOk,
    s.pair.jobLine, rfl⟩
theorem State.joinKeeps_updLine (s : State) (b : Nat) (g : LineSt → LineSt) : s.joinKeeps (s.updLine b g) b :=
  ⟨fun _ _ _ => rfl, fun _ hm => NMap.getD_put_other _ _ _ hm, fun _ h => h, s.regs, _, s.job, s.pair.joined, s.pair.joinOk,
    s.pair.jobLine, rfl⟩
theorem State.joinKeeps_updJob (s : State) (b : Nat) (g : JobSt → JobSt) : s.joinKeeps (s.updJob b g) b :=
  ⟨fun _ _ _ => rfl, fun _ _ => rfl, fun _ h => h, s.regs, s.line, _, s.pair.joined, s.pair.joinOk, s.pair.jobLine, rfl⟩
theorem State.joinKeeps_jobLine (s : State) (b : Nat) :
    s.joinKeeps (s.updPair fun p => { p with jobLine := p.jobLine.del b }) b :=
  ⟨fun _ _ _ => rfl, fun _ _ => rfl, fun _ h => h, s.regs, s.line, s.job, s.pair.joined, s.pair.joinOk, _, rfl⟩
theorem State.joinKeeps_lineDue (s : State) (b : Nat) : s.joinKeeps (s.lineDue b) b := by
  rcases s.lineDue_cases b with h | h <;> rw [h]
  · exact s.joinKeeps_refl b
  · exact s.joinKeeps_updLine b _
/-- The bit of a joined bar, with its comparisons begun anew. -/
def State.joinMark (s : State) (b : Nat) : State :=
  s.updPair fun q => { q with joined := setBit q.joined b true, joinOk := q.joinOk.del b }
theorem State.joinKeeps_joinMark (s : State) (b : Nat) : s.joinKeeps (s.joinMark b) b := by
  refine ⟨fun _ _ _ => rfl, fun _ _ => rfl, fun i h => ?_, s.regs, s.line, s.job, _, _, s.pair.jobLine, rfl⟩
  change bit (setBit s.pair.joined b true) i = true
  rw [bit_setBit]
  split
  · rfl
  · exact h
theorem State.joinMark_bit (s : State) (b : Nat) : bit (s.joinMark b).pair.joined b = true :=
  (bit_setBit _ _ _ _).trans (if_pos rfl)
/-- The registers of a line generator that starts at y, NEXT, a line and a gain. -/
def State.lineLoaded (s : State) (b : Nat) (y next : Int) (seq : Nat) (g : Int) : State :=
  (((s.setY b y).setNext b next).set (pLINE b) R.LINE_SEQ seq).set (pLINE b) R.LINE_GAIN (uns 32 g)
theorem State.joinKeeps_lineLoaded (s : State) (b : Nat) (y next : Int) (seq : Nat) (g : Int) :
    s.joinKeeps (s.lineLoaded b y next seq g) b :=
  (((((s.joinKeeps_set b _ _).trans (State.joinKeeps_set _ b _ _)).trans (State.joinKeeps_set _ b _ _)).trans
    (State.joinKeeps_set _ b _ _)).trans (State.joinKeeps_set _ b _ _)).trans (State.joinKeeps_set _ b _ _)
theorem State.lineLoaded_spec (s : State) (b : Nat) (y : Int) {next : Int} (seq : Nat) (g : Int) (hn : -2 ^ 63 ≤ next ∧ next < 2 ^ 63) :
    (s.lineLoaded b y next seq g).lineNext b = next ∧ (s.lineLoaded b y next seq g).get (pLINE b) R.LINE_SEQ = seq % 2 ^ 32 ∧
    (s.lineLoaded b y next seq g).get (pLINE b) R.LINE_GAIN = uns 32 g % 2 ^ 32 ∧
    (s.lineLoaded b y next seq g).get (pLINE b) R.PG_CTRL_EN = s.get (pLINE b) R.PG_CTRL_EN := by
  unfold State.lineLoaded
  refine ⟨?_, (State.get_set_field _ _ _ (by decide)).trans (State.get_set_self _ _ _ _), State.get_set_self _ _ _ _, ?_⟩
  · have hset : ∀ (u : State) (v : Nat) (f : Fld), R.LINE_NEXT_LO.id ≠ f.id → R.LINE_NEXT_HI.id ≠ f.id →
        (u.set (pLINE b) f v).lineNext b = u.lineNext b := fun u v f h h' =>
      congrArg (sgn 64) (congrArg₂ (fun a b => a * _ + b * _) (u.get_set_field _ _ h) (u.get_set_field _ _ h'))
    rw [hset _ _ _ (by decide) (by decide), hset _ _ _ (by decide) (by decide)]
    exact State.lineNext_setNext _ b hn.1 hn.2
  · rw [State.get_set_field _ _ _ (by decide), State.get_set_field _ _ _ (by decide)]
    exact (State.get_set64_ne _ _ _ (by decide)).trans (State.get_set64_ne _ _ _ (by decide))
theorem State.pair_set (s : State) (p : Nat) (f : Fld) (v : Nat) : (s.set p f v).pair = s.pair := rfl
theorem State.pair_lineLoaded (s : State) (b : Nat) (y next : Int) (seq : Nat) (g : Int) : (s.lineLoaded b y next seq g).pair = s.pair := by
  unfold State.lineLoaded State.setNext State.setY State.set64
  iterate 6 rw [State.pair_set]
/-- The generator of bar b as it starts from a source that is not fenced. -/
def lineBegun (src : Nat) (fo : Bool) (cnt : Nat) (y0 : Int) (l : LineSt) : LineSt :=
  { l with
    due := false, hiY := y0, src := src, failover := fo, failedOver := false, strBase := cnt,
    strE := 0, strDue := [], strSkip := true, gainAt := [], srcLost := false }
theorem State.lineStart_eq {s : State} {b src : Nat} (hf : s.fenced (pPOS (srcChannel b src)) = false) (fo : Bool) (next : Nat)
    (nextPos g y : Int) : s.lineStart b src fo next nextPos g (some y) =
    ((((s.lineLoaded b y nextPos (next + 2 ^ 32 - 1) g).updLine b
      (lineBegun src fo (s.get (pPOS (srcChannel b src)) R.POS_CNT) y)).updJob b fun j => { j with prev := none }).updPair
      fun p => { p with jobLine := p.jobLine.del b }).lineDue b := by
  unfold State.lineStart
  generalize next + 2 ^ 32 - 1 = seq
  simp only [hf, Bool.false_and, Bool.false_eq_true, if_false, Option.getD_some]
  rfl
theorem State.lineStart_spec {s : State} {b src : Nat} (hf : s.fenced (pPOS (srcChannel b src)) = false) (fo : Bool) (next : Nat)
    {nextPos : Int} (g y : Int) {seq : Nat} (hseq : next + 2 ^ 32 - 1 = seq) (hn : -2 ^ 63 ≤ nextPos ∧ nextPos < 2 ^ 63) {t : State}
    (ht : s.lineStart b src fo next nextPos g (some y) = t) :
    s.joinKeeps t b ∧ t.pair.joined = s.pair.joined ∧ t.lineNext b = nextPos ∧
    t.get (pLINE b) R.LINE_SEQ = seq % 2 ^ 32 ∧ t.get (pLINE b) R.LINE_GAIN = uns 32 g % 2 ^ 32 ∧
    t.get (pLINE b) R.PG_CTRL_EN = s.get (pLINE b) R.PG_CTRL_EN ∧ (t.lineAt b).failover = fo := by
  rw [State.lineStart_eq hf, hseq] at ht
  clear hseq
  obtain ⟨h1, h2, h3, h4⟩ := s.lineLoaded_spec b y seq g hn
  have hk := s.joinKeeps_lineLoaded b y nextPos seq g
  have hj := s.pair_lineLoaded b y nextPos seq g
  generalize s.lineLoaded b y nextPos seq g = v at h1 h2 h3 h4 hk hj ht
  generalize s.get (pPOS (srcChannel b src)) R.POS_CNT = cnt at ht
  have hfo : ((v.updLine b (lineBegun src fo cnt y)).lineAt b).failover = fo :=
    congrArg LineSt.failover (NMap.getD_put_self _ _ _ _)
  have hkeep := ((hk.trans (v.joinKeeps_updLine b (lineBegun src fo cnt y))).trans
    (State.joinKeeps_updJob _ b fun j => { j with prev := none })).trans (State.joinKeeps_jobLine _ b)
  have hw : ∀ f, (((v.updLine b (lineBegun src fo cnt y)).updJob b fun j => { j with prev := none }).updPair
      fun p => { p with jobLine := p.jobLine.del b }).get (pLINE b) f = v.get (pLINE b) f := fun f => rfl
  have hwj : (((v.updLine b (lineBegun src fo cnt y)).updJob b fun j => { j with prev := none }).updPair
      fun p => { p with jobLine := p.jobLine.del b }).pair.joined = v.pair.joined := rfl
  have hwl : (((v.updLine b (lineBegun src fo cnt y)).updJob b fun j => { j with prev := none }).updPair
      fun p => { p with jobLine := p.jobLine.del b }).lineAt b = (v.updLine b (lineBegun src fo cnt y)).lineAt b := rfl
  generalize (((v.updLine b (lineBegun src fo cnt y)).updJob b fun j => { j with prev := none }).updPair
      fun p => { p with jobLine := p.jobLine.del b }) = w at ht hkeep hw hwj hwl
  rw [← hwl] at hfo
  have hnext : w.lineNext b = v.lineNext b :=
    congrArg (sgn 64) (congrArg₂ (fun a b => a * _ + b * _) (hw _) (hw _))
  subst ht
  refine ⟨hkeep.trans (w.joinKeeps_lineDue b), ?_⟩
  rcases w.lineDue_cases b with h | h <;> rw [h]
  · exact ⟨hwj.trans (by rw [hj]), hnext.trans h1, (hw _).trans h2, (hw _).trans h3, (hw _).trans h4, hfo⟩
  · refine ⟨hwj.trans (by rw [hj]), hnext.trans h1, (hw _).trans h2, (hw _).trans h3, (hw _).trans h4, ?_⟩
    exact (congrArg LineSt.failover (NMap.getD_put_self w.line b _ _)).trans hfo
/-- What JOINDATA does with one bar (R234). -/
def barJoined (s t : State) (b : Nat) (x : JoinBar) : Prop :=
  (x.run = true → s.fenced (pLINE b) = false → s.resetting (pLINE b) = false → bit t.pair.joined b = true ∧
    (s.lineRuns b = false → t.get (pLINE b) R.PG_CTRL_EN = 1 ∧
      t.get (pLINE b) R.LINE_SEQ = (x.next.toNat + 2 ^ 32 - 1) % 2 ^ 32 ∧ t.lineNext b = x.nextPos.toInt ∧
      t.get (pLINE b) R.LINE_GAIN = x.g.toNat ∧ (t.lineAt b).failover = x.failover)) ∧
  (x.run = false ∨ s.fenced (pLINE b) = true ∨ s.resetting (pLINE b) = true ∨ s.lineRuns b = true →
    t.lineAt b = s.lineAt b ∧ ∀ f, t.get (pLINE b) f = s.get (pLINE b) f)
theorem joined_ne_zero {m i : Nat} (h : bit m i = true) : m ≠ 0 := fun h0 => by
  subst h0
  rw [bit, Nat.zero_testBit] at h
  exact absurd h Bool.false_ne_true
theorem uns_toInt32 (g : W32) : uns 32 g.toInt % 2 ^ 32 = g.toNat := by
  have hu := uns_cast 32 g.toInt
  have hlt := g.isLt
  rw [BitVec.toInt_eq_toNat_bmod] at hu
  have hb : ((g.toNat : Int).bmod (2 ^ 32)) % (2 ^ 32 : Nat) = g.toNat % (2 ^ 32 : Nat) := Int.bmod_emod
  rw [BitVec.toInt_eq_toNat_bmod]
  push_cast at hb hu ⊢
  rw [hb] at hu
  generalize uns 32 ((g.toNat : Int).bmod (2 ^ 32)) = n at hu ⊢
  omega
/-- The bar of a JOINDATA as its generator starts (R234). -/
def State.joinBegun (s : State) (b : Nat) (x : JoinBar) : State :=
  let src := if x.src = 3 then 0 else x.src.toNat
  let g := x.g.toInt
  let k : Int := if src = 2 then 2 ^ 24 else 2 ^ 24 + g
  let y := sgn 64 (uns 64 (x.y.toInt + (s.posAt (srcChannel b src)).joinSteps * k))
  ((s.set (pLINE b) R.PG_CTRL_EN 1).joinMark b).lineStart b src x.failover x.next.toNat x.nextPos.toInt g (some y)
theorem State.joinEnable_eq (s : State) (b : Nat) (x : JoinBar) : s.joinEnable b x =
    if !x.run || s.fenced (pLINE b) || s.resetting (pLINE b) then s
    else if s.lineRuns b then s.joinMark b else s.joinBegun b x := rfl
theorem State.joinEnable_spec {s : State} {b : Nat} (hb : b < 8) (x : JoinBar) (hpos : ∀ n < 12, s.fenced (pPOS n) = false) :
    s.joinKeeps (s.joinEnable b x) b ∧ barJoined s (s.joinEnable b x) b x ∧
    (s.joinEnable b x = s ∨ (s.joinEnable b x).pair.joined ≠ 0) := by
  have hsrc : ∀ n, s.fenced (pPOS (srcChannel b n)) = false := fun n => hpos _ (by unfold srcChannel; split_ifs <;> omega)
  rw [State.joinEnable_eq]
  by_cases hskip : (!x.run || s.fenced (pLINE b) || s.resetting (pLINE b)) = true
  · rw [if_pos hskip]
    refine ⟨s.joinKeeps_refl b, ⟨fun h1 h2 h3 => ?_, fun _ => ⟨rfl, fun _ => rfl⟩⟩, Or.inl rfl⟩
    simp [h1, h2, h3] at hskip
  rw [if_neg hskip]
  simp only [Bool.or_eq_true, Bool.not_eq_true', not_or, Bool.not_eq_false, Bool.not_eq_true] at hskip
  obtain ⟨⟨hrun, hfen⟩, hres⟩ := hskip
  cases hon : s.lineRuns b with
  | true =>
    rw [if_pos rfl]
    have hbit := s.joinMark_bit b
    exact ⟨s.joinKeeps_joinMark b, ⟨fun _ _ _ => ⟨hbit, fun h => absurd (hon.symm.trans h) (by decide)⟩,
      fun _ => ⟨rfl, fun _ => rfl⟩⟩, Or.inr (joined_ne_zero hbit)⟩
  | false =>
    rw [if_neg (by decide)]
    unfold State.joinBegun
    dsimp only
    generalize (if x.src = 3 then 0 else x.src.toNat) = src
    generalize sgn 64 (uns 64 _) = y
    have hen : ((s.set (pLINE b) R.PG_CTRL_EN 1).joinMark b).get (pLINE b) R.PG_CTRL_EN = 1 := s.get_set_self _ _ _
    have hfw : ((s.set (pLINE b) R.PG_CTRL_EN 1).joinMark b).fenced = s.fenced := s.fenced_set _ _ (by decide)
    have hbit := (s.set (pLINE b) R.PG_CTRL_EN 1).joinMark_bit b
    have hkeep := (s.joinKeeps_set b R.PG_CTRL_EN 1).trans (State.joinKeeps_joinMark _ b)
    generalize (s.set (pLINE b) R.PG_CTRL_EN 1).joinMark b = w at hen hfw hbit hkeep ⊢
    have hnp : -2 ^ 63 ≤ x.nextPos.toInt ∧ x.nextPos.toInt < 2 ^ 63 := ⟨BitVec.le_toInt x.nextPos, BitVec.toInt_lt⟩
    obtain ⟨hk, hj, hnext, hseq, hg, hce, hfo⟩ := State.lineStart_spec (s := w) (by rw [hfw]; exact hsrc src) x.failover x.next.toNat
      x.g.toInt y rfl hnp rfl
    rw [← hj] at hbit
    refine ⟨hkeep.trans hk, ⟨fun _ _ _ => ⟨hbit, fun _ => ⟨hce.trans hen, hseq, hnext, hg.trans (uns_toInt32 _), hfo⟩⟩, fun h => ?_⟩,
      Or.inr (joined_ne_zero hbit)⟩
    rcases h with h | h | h | h
    · exact absurd (hrun.symm.trans h) (by decide)
    · exact absurd (hfen.symm.trans h) (by decide)
    · exact absurd (hres.symm.trans h) (by decide)
    · exact absurd (hon.symm.trans h) (by decide)

/-! ### The bars of a JOINDATA -/

/-- What the enables of the bars from k on leave alone. -/
structure State.joinsFrom (s t : State) (k : Nat) : Prop where
  page : ∀ q, (∀ m, k ≤ m → m < 8 → q ≠ pLINE m) → ∀ f, t.get q f = s.get q f
  line : ∀ m < k, t.lineAt m = s.lineAt m
  joined : ∀ i, bit s.pair.joined i = true → bit t.pair.joined i = true
  shape : ∃ r ln jb j o jl, t = { s with
    regs := r, line := ln, job := jb, pair := { s.pair with joined := j, joinOk := o, jobLine := jl } }
theorem pLINE_inj {a b : Nat} (h : pLINE a = pLINE b) : a = b := by
  unfold pLINE at h
  omega
theorem State.joinsFrom.pageLine {s t : State} {k : Nat} (h : s.joinsFrom t k) {m : Nat} (hm : m < k) (f : Fld) :
    t.get (pLINE m) f = s.get (pLINE m) f :=
  h.page _ (fun n hn _ he => by have := pLINE_inj he; omega) f
theorem State.joinKeeps.joinsFrom {s t : State} {b : Nat} (hb : b < 8) (h : s.joinKeeps t b) : s.joinsFrom t b :=
  ⟨fun q hq f => h.page q (hq b (Nat.le_refl b) hb) f, fun m hm => h.line m (by omega), h.joined, h.shape⟩
theorem State.joinsFrom.trans {s t u : State} {k : Nat} (h : s.joinsFrom t k) (g : t.joinsFrom u (k + 1)) : s.joinsFrom u k := by
  refine ⟨fun q hq f => (g.page q (fun m hm => hq m (by omega)) f).trans (h.page q hq f),
    fun m hm => (g.line m (by omega)).trans (h.line m hm), fun i hi => g.joined i (h.joined i hi), ?_⟩
  obtain ⟨r, ln, jb, j, o, jl, rfl⟩ := h.shape
  obtain ⟨r', ln', jb', j', o', jl', rfl⟩ := g.shape
  exact ⟨r', ln', jb', j', o', jl', rfl⟩
/-- A bar that has joined stays as it is while the bars after it join. -/
theorem barJoined.after {s t u : State} {b : Nat} {x : JoinBar} (h : barJoined s t b x) (g : t.joinsFrom u (b + 1)) :
    barJoined s u b x := by
  have hget := fun f => g.pageLine (Nat.lt_succ_self b) f
  have hline := g.line b (Nat.lt_succ_self b)
  refine ⟨fun h1 h2 h3 => ⟨g.joined b (h.1 h1 h2 h3).1, fun h4 => ?_⟩, fun h1 => ?_⟩
  · obtain ⟨k1, k2, k3, k4, k5⟩ := (h.1 h1 h2 h3).2 h4
    refine ⟨(hget _).trans k1, (hget _).trans k2, ?_, (hget _).trans k4, by rw [hline]; exact k5⟩
    rw [← k3]
    exact congrArg (sgn 64) (congrArg₂ (fun a b => a * _ + b * _) (hget _) (hget _))
  · obtain ⟨k1, k2⟩ := h.2 h1
    exact ⟨hline.trans k1, fun f => (hget f).trans (k2 f)⟩
/-- What joins is judged by the bar's own page, which the bars before it leave alone. -/
theorem barJoined.before {s t u : State} {k b : Nat} {x : JoinBar} (h : s.joinKeeps t k) (hb : k < b) (hlt : b < 8)
    (g : barJoined t u b x) : barJoined s u b x := by
  have hne : pLINE b ≠ pLINE k := fun he => by have := pLINE_inj he; omega
  have hget := h.page (pLINE b) hne
  have hline := h.line b (by omega)
  have hfen : t.fenced (pLINE b) = s.fenced (pLINE b) := by simp only [State.fenced, State.flag, hget]
  have htherm : t.get pTHERM R.THERM_STAT_SHUT = s.get pTHERM R.THERM_STAT_SHUT :=
    h.page pTHERM (fun he => by simp only [pTHERM, pLINE] at he; omega) _
  have hres : t.resetting (pLINE b) = s.resetting (pLINE b) := by
    obtain ⟨r, ln, jb, j, o, jl, ht⟩ := h.shape
    simp only [State.resetting, State.held, State.shut, State.flag, htherm]
    rw [ht]
  have hrun : t.lineRuns b = s.lineRuns b := by
    simp only [State.lineRuns, State.working, State.enabled, hfen, hres, State.flag, hget]
  unfold barJoined at g ⊢
  rw [hfen, hres, hrun, hline] at g
  simpa only [hget] using g
theorem State.joinAll_spec (l : List JoinBar) (k : Nat) (s : State) (hk : k + l.length ≤ 8) (hpos : ∀ n < 12, s.fenced (pPOS n) = false)
    {t : State} (ht : (l.zipIdx k).foldl (fun t x => t.joinEnable x.2 x.1) s = t) :
    s.joinsFrom t k ∧ (∀ b x, l[b]? = some x → barJoined s t (k + b) x) ∧ (t = s ∨ t.pair.joined ≠ 0) := by
  induction l generalizing k s with
  | nil =>
    subst ht
    exact ⟨⟨fun _ _ _ => rfl, fun _ _ => rfl, fun _ h => h, (s.joinKeeps_refl 0).shape⟩, fun b x h => by simp at h, Or.inl rfl⟩
  | cons y l ih =>
    rw [List.zipIdx_cons, List.foldl_cons] at ht
    rw [List.length_cons] at hk
    obtain ⟨hkeep, hbar, hone⟩ := State.joinEnable_spec (b := k) (by omega) y hpos
    have hpos' : ∀ n < 12, (s.joinEnable k y).fenced (pPOS n) = false := fun n hn => by
      rw [← hpos n hn]
      simp only [State.fenced, State.flag, hkeep.page (pPOS n) (fun he => by simp only [pPOS, pLINE] at he; omega)]
    obtain ⟨hfrom, hbars, hjoin⟩ := ih (k + 1) (s.joinEnable k y) (by omega) hpos' ht
    refine ⟨(hkeep.joinsFrom (by omega)).trans hfrom, fun b x hx => ?_, ?_⟩
    · cases b with
      | zero =>
        obtain rfl : y = x := by simpa using hx
        exact hbar.after hfrom
      | succ b =>
        have hx' : l[b]? = some x := by simpa using hx
        have hlt := (List.getElem?_eq_some_iff.mp hx').1
        have := hbars b x hx'
        rw [show k + 1 + b = k + (b + 1) by omega] at this
        exact barJoined.before hkeep (by omega) (by omega) this
    · rcases hjoin with h | h
      · rw [h]
        exact hone
      · exact Or.inr h

theorem runMask_bits (l : List JoinBar) (k : Nat) : ∃ m, ((l.zipIdx k).map fun e => if e.1.run then 2 ^ e.2 else 0).sum = 2 ^ k * m ∧
    ∀ b x, l[b]? = some x → m.testBit b = x.run := by
  induction l generalizing k with
  | nil => exact ⟨0, by simp, fun b x h => by simp at h⟩
  | cons y l ih =>
    obtain ⟨m, hsum, hbits⟩ := ih (k + 1)
    refine ⟨b2n y.run + 2 * m, ?_, fun b x hx => ?_⟩
    · rw [List.zipIdx_cons, List.map_cons, List.sum_cons, hsum, pow_succ]
      cases y.run <;> simp [b2n] <;> ring
    · cases b with
      | zero =>
        obtain rfl : y = x := by simpa using hx
        rw [Nat.testBit_zero]
        cases y.run <;> simp [b2n]
      | succ b =>
        rw [Nat.testBit_succ, show (b2n y.run + 2 * m) / 2 = m by
          cases y.run <;> simp only [b2n, if_true, if_false, Bool.false_eq_true] <;> omega]
        exact hbits b x (by simpa using hx)
theorem runMask_bit {l : List JoinBar} {b : Nat} {x : JoinBar} (h : l[b]? = some x) : bit (runMask l) b = x.run := by
  obtain ⟨m, hsum, hbits⟩ := runMask_bits l 0
  rw [runMask, hsum, pow_zero, Nat.one_mul]
  exact hbits b x h

/-! ### JOIN, JOIN_LATCH, JOINDATA and JOIN_RETRY -/

/-- What JOIN does once it is heard (R234). -/
def State.joinHeard (s : State) (ts : W64) : State :=
  if s.pairState = 3 then
    if s.pair.joinTs.isSome || s.pair.joined != 0 || s.pair.joinFailed.isSome then s
    else if !s.tofsAgreed then s.joinFail
    else s.rephase.updPair fun p => { p with joinTs := some ts.toNat, joiner := true, latched := false }
  else if 4 ≤ s.pairState ∧ (s.pair.joinTs.isNone = true ∨ s.pair.joiner = true) then
    s.updPair fun p => { p with joinTs := some ts.toNat, joiner := true, latched := false }
  else s
theorem exec_join {s : State} {hd : CrookHdr} (h : s.hears hd) (ts : W64) : exec (.join hd ts) s = .next ((s.noted hd).joinHeard ts) :=
  congrArg _ (State.crookMsg_heard h fun s => s.joinHeard ts)
/-- What JOINDATA does once it is heard (R234). -/
def State.joinAll (s : State) (bars : List JoinBar) : State :=
  let s := s.updPair fun p => { p with joinTs := none, latched := false, peerBars := runMask bars }
  bars.zipIdx.foldl (fun t x => t.joinEnable x.2 x.1) s
def State.joinSettled (s : State) : State :=
  if s.pairState = 3 ∧ s.pair.joined = 0 then (s.updPair fun p => { p with runs := [] }).setPairState (if s.causeMask = 0 then 5 else 4)
  else s
def State.joinDataHeard (s : State) (ts : W64) (bars : List JoinBar) : State :=
  if s.pair.joinTs ≠ some ts.toNat ∨ s.pair.joiner = false ∨ s.pair.latched = false ∨ s.pairState < 3 then s
  else (s.joinAll bars).joinSettled
theorem exec_joinData {s : State} {hd : CrookHdr} (h : s.hears hd) (ts : W64) (bars : List JoinBar) :
    exec (.joinData hd ts bars) s = .next ((s.noted hd).joinDataHeard ts bars) :=
  congrArg _ (State.crookMsg_heard h fun s => s.joinDataHeard ts bars)
theorem exec_joinLatch (s : State) : exec .joinLatch s = .next (
    match s.pair.joinTs with
    | none => s
    | some ts =>
      if !s.crookUp || s.pair.latched then s
      else if !s.pair.joiner then
        if diff64 s.cNs ts < 0 then s
        else (s.crookCommand 0x11 (leBytes 8 ts ++ (List.range 8).flatMap s.joinBar)).updPair fun p =>
          { p with joinTs := none, joinMore := false }
      else if sgn 64 (uns 64 ((s.cNs : Int) + sgn 64 (s.get64 pPAIR R.PAIR_TOFS_LO R.PAIR_TOFS_HI) - ts)) < 0 then s
      else
        (s.updPair fun p => { p with latched := true }).each (List.range 12) fun t n =>
          t.updPos n fun x => { x with joinSteps := 0 }) := rfl
theorem exec_joinRetry (s : State) : exec .joinRetry s = .next (
    match s.pair.joinFailed with
    | none => s
    | some t => if s.tick < t + msTicks 1 then s else s.updPair fun p => { p with joinFailed := none, tofs := [] }) := rfl
section
variable {s u : State} (H : s.heardBy u)
include H
theorem State.heardBy.joins : u.pair.joined = s.pair.joined ∧ u.pair.joinFailed = s.pair.joinFailed ∧ u.pair.joiner = s.pair.joiner ∧
    u.pair.latched = s.pair.latched ∧ u.pair.joinOk = s.pair.joinOk := by
  obtain ⟨r, c, w, o, a, x, g, n, hu⟩ := H.shape
  rw [hu]
  exact ⟨rfl, rfl, rfl, rfl, rfl⟩
theorem State.heardBy.tofsAgreed : u.tofsAgreed = s.tofsAgreed := by
  unfold State.tofsAgreed
  rw [H.pair.2.2.2.1]
end
theorem State.persists_congr {s t : State}
    (hget : ∀ f ∈ [R.PG_FENCE_FENCED, R.PG_FENCE_REASON, R.THERM_STAT_TRIP], ∀ p, t.get p f = s.get p f)
    (hline : t.line = s.line) (hlane : t.lane = s.lane) (hpair : t.pair.cause0 = s.pair.cause0 ∧ t.pair.pllLost = s.pair.pllLost) (c : Nat) :
    t.persists c = s.persists c := by
  have hfen : ∀ p, t.fenced p = s.fenced p := fun p => by
    rw [State.fenced, State.flag, hget _ (by simp) p]
    rfl
  have hreason : ∀ p, t.get p R.PG_FENCE_REASON = s.get p R.PG_FENCE_REASON := hget _ (by simp)
  have htrip : t.get pTHERM R.THERM_STAT_TRIP = s.get pTHERM R.THERM_STAT_TRIP := hget _ (by simp) _
  obtain ⟨h0, h1⟩ := hpair
  have hlost : t.lanesLost = s.lanesLost := by
    have hcount : t.laneCounts = s.laneCounts := by
      funext h
      unfold State.laneCounts
      rw [State.laneAt, hlane]
      simp only [hfen, hreason, State.laneAt]
    funext b
    rw [State.lanesLost, hcount, State.lanesLost]
  simp only [State.persists, hfen, State.lineAt, hline, hlost, h0, h1,
    State.flag, htrip]
theorem State.joinSettled_spec {s : State} (hp : s.straps.pairEn = true) (hf : s.frozen pPAIR = false) :
    (∃ r m g w, s.joinSettled = { s with
      regs := r, pair := { s.pair with runs := m, gaveUp := g }, host := { s.host with waiting := w } }) ∧
    (∀ q, q ≠ pPAIR → ∀ f, s.joinSettled.get q f = s.get q f) ∧
    s.joinSettled.pairState = (if s.pairState = 3 ∧ s.pair.joined = 0 then (if s.causeMask = 0 then 5 else 4) else s.pairState) := by
  unfold State.joinSettled
  by_cases h : s.pairState = 3 ∧ s.pair.joined = 0
  · rw [if_pos h, if_pos h]
    have hv : (if s.causeMask = 0 then 5 else 4) < 8 := by split <;> decide
    obtain ⟨h5, -, hregs, r, g, w, hset⟩ := State.setPairState_spec (s.updPair fun p => { p with runs := [] }) hv hp hf
    exact ⟨⟨r, [], g, w, hset⟩, fun q hq f => hregs q f (by simp [hq]), h5⟩
  · rw [if_neg h, if_neg h]
    exact ⟨⟨s.regs, s.pair.runs, s.pair.gaveUp, s.host.waiting, rfl⟩, fun _ _ _ => rfl, rfl⟩
theorem barJoined.heard {s u t v w : State} {b : Nat} (hb : b < 8) {x : JoinBar} (H : s.heardBy u) (hreg : v.regs = u.regs)
    (hlinev : v.line = u.line) (hrunv : v.lineRuns = u.lineRuns) (hresv : v.resetting = u.resetting) (h : barJoined v t b x)
    (hpage : ∀ q, q ≠ pPAIR → ∀ f, w.get q f = t.get q f) (hl : w.lineAt = t.lineAt) (hj : w.pair.joined = t.pair.joined) :
    barJoined s w b x := by
  have hne : pLINE b ≠ pPAIR := fun he => by simp only [pLINE, pPAIR] at he; omega
  have hfen : v.fenced (pLINE b) = s.fenced (pLINE b) := by
    rw [← H.fenced, State.fenced, State.flag, State.get_congr hreg]
    rfl
  have hres : v.resetting (pLINE b) = s.resetting (pLINE b) := by rw [hresv, H.resetting]
  have hrun : v.lineRuns b = s.lineRuns b := by rw [hrunv, State.lineRuns, H.working]; rfl
  have hline : v.lineAt b = s.lineAt b := by rw [← H.lineAt, State.lineAt, hlinev]; rfl
  have hget : ∀ f, v.get (pLINE b) f = s.get (pLINE b) f := fun f => (State.get_congr hreg _ _).trans (H.page hne f)
  have hw := hpage (pLINE b) hne
  have hnext : w.lineNext b = t.lineNext b := congrArg (sgn 64) (congrArg₂ (fun a b => a * _ + b * _) (hw _) (hw _))
  unfold barJoined at h ⊢
  rw [hfen, hres, hrun, hline] at h
  rw [hl, hj, hnext]
  simpa only [hget, hw] using h
theorem State.posAt_reset (s : State) (l : List Nat) :
    (∀ n ∈ l, (s.each l fun t n => t.updPos n fun x => { x with joinSteps := 0 }).posAt n = { s.posAt n with joinSteps := 0 }) ∧
    (∀ n, n ∉ l → (s.each l fun t n => t.updPos n fun x => { x with joinSteps := 0 }).posAt n = s.posAt n) ∧
    ∃ m, (s.each l fun t n => t.updPos n fun x => { x with joinSteps := 0 }) = { s with pos := m } := by
  unfold State.each
  induction l generalizing s with
  | nil => exact ⟨fun n h => by simp at h, fun _ _ => rfl, s.pos, rfl⟩
  | cons k l ih =>
    rw [List.foldl_cons]
    obtain ⟨h1, h2, m, h3⟩ := ih (s.updPos k fun x => { x with joinSteps := 0 })
    have hself : (s.updPos k fun x => { x with joinSteps := 0 }).posAt k = { s.posAt k with joinSteps := 0 } :=
      NMap.getD_put_self _ _ _ _
    have hother : ∀ n, n ≠ k → (s.updPos k fun x => { x with joinSteps := 0 }).posAt n = s.posAt n := fun n hn =>
      NMap.getD_put_other _ _ _ hn
    refine ⟨fun n hn => ?_, fun n hn => ?_, m, by rw [h3]; rfl⟩
    · by_cases hnl : n ∈ l
      · rw [h1 n hnl]
        by_cases hk : n = k
        · rw [hk, hself]
        · rw [hother n hk]
      · obtain rfl : n = k := by simpa [hnl] using hn
        exact (h2 n hnl).trans hself
    · rw [List.mem_cons, not_or] at hn
      exact (h2 n hn.2).trans (hother n hn.1)

theorem State.rephase_shape (s : State) : ∃ k < 3, s.rephase = { s with phi := k, fresh := s.fresh + 1 } := by
  unfold State.rephase
  dsimp only
  generalize (_ - _ : Int) = z
  refine ⟨_, ?_, rfl⟩
  have hlt := Int.emod_lt_of_pos z (show (0 : Int) < 3 by decide)
  have hnn := Int.emod_nonneg z (show (3 : Int) ≠ 0 by decide)
  change (z % 3).toNat < 3
  omega
theorem State.joinFail_none {s : State} (h : s.pair.joined = 0) : s.joinFail = s.updPair fun p => { p with
    joined := 0, joinOk := [], joinTs := none, tofs := [], latched := false, joinFailed := some s.tick } := by
  have hnone : ((List.range 8).filter fun b => bit s.pair.joined b) = [] := by
    rw [h]
    decide
  unfold State.joinFail
  rw [hnone]
  rfl
/-- Settles O45: JOINDATA by `joinAll_spec`, JOIN_LATCH by `crookCommand_eq` and `posAt_reset`. -/
theorem joiningTheReference : Obligations.JoiningTheReference := by
  unfold Obligations.JoiningTheReference
  refine ⟨?_, ?_, ?_, ?_⟩
  · rintro s hd ts u hh hu
    have H : s.heardBy u := hu ▸ hh.heardBy
    obtain ⟨hts, -, -, htofs, -, -⟩ := H.pair
    obtain ⟨hjd, hjf, hjr, -, -⟩ := H.joins
    rw [exec_join hh, ← hu]
    have hst := H.pairState
    have hag := H.tofsAgreed
    clear hu
    unfold State.joinHeard
    rw [hst, hts, hjd, hjf, hjr, hag]
    refine ⟨fun h3 h => ?_, fun h3 h1 h2 hf => ⟨fun ha => ?_, fun ha => ?_⟩, fun h4 h => ?_, fun h => ?_⟩
    · rw [if_pos h3, if_pos]
      rcases h with h | h | h
      · simp [Option.isSome_iff_ne_none.mpr h]
      · simp [h]
      · simp [Option.isSome_iff_ne_none.mpr h]
    · rw [if_pos h3, if_neg (by simp [h1, h2, hf]), if_neg (by simp [ha])]
      obtain ⟨k, hk, hre⟩ := u.rephase_shape
      rw [hre]
      exact ⟨_, rfl, rfl, hk, rfl⟩
    · rw [if_pos h3, if_neg (by simp [h1, h2, hf]), if_pos (by simp [ha])]
      rw [State.joinFail_none (hjd.trans h2), H.kept.1]
      exact ⟨_, rfl, rfl, rfl⟩
    · rw [if_neg (by omega), if_pos ⟨h4, h.imp_left Option.isNone_iff_eq_none.mpr⟩]
      exact ⟨_, rfl, rfl, rfl⟩
    · rw [if_neg (by omega), if_neg]
      rintro ⟨h4, h5⟩
      obtain ⟨-, hn, hr⟩ := h.resolve_left (by omega)
      rcases h5 with h5 | h5
      · exact hn (Option.isNone_iff_eq_none.mp h5)
      · exact absurd (hr.symm.trans h5) (by decide)
  · intro s
    rw [exec_joinLatch]
    refine ⟨fun h => ?_, fun ts hts hup hl => ?_⟩
    · cases hts : s.pair.joinTs with
      | none => rfl
      | some ts =>
        rcases h with h | h | h
        · exact absurd (hts.symm.trans h) (Option.some_ne_none ts)
        · dsimp only
          rw [if_pos (by simp [h])]
        · dsimp only
          rw [if_pos (by simp [h])]
    · rw [hts]
      dsimp only
      rw [if_neg (by simp [hup, hl])]
      have hon : s.pairOn = true := by
        simp only [State.crookUp, Bool.and_eq_true] at hup
        exact hup.1
      refine ⟨fun hj hd => ?_, fun hj hd => ?_, fun hj hd => ?_, fun hj hd => ?_⟩
      · rw [if_pos (by simp [hj]), if_pos hd]
      · rw [if_pos (by simp [hj]), if_neg (by omega), State.crookCommand_eq hon s.carries_join.2]
        exact ⟨_, _, rfl, rfl, rfl, rfl, rfl⟩
      · rw [if_neg (by simp [hj]), if_pos hd]
      · rw [if_neg (by simp [hj]), if_neg (by omega)]
        obtain ⟨h1, h2, m, h3⟩ := (s.updPair fun p => { p with latched := true }).posAt_reset (List.range 12)
        refine ⟨_, rfl, by rw [h3]; rfl, fun n hn => h1 n (List.mem_range.mpr hn), fun n hn => h2 n (by simp [hn]), by rw [h3]; rfl⟩
  · rintro s hd ts bars u hh hu
    have H : s.heardBy u := hu ▸ hh.heardBy
    rw [exec_joinData hh, ← hu]
    obtain ⟨hts, -⟩ := H.pair
    obtain ⟨hjd, -, hjr, hla, -⟩ := H.joins
    have hst := H.pairState
    have hm := H.rest.2.2.2.1
    clear hu
    unfold State.joinDataHeard
    rw [hts, hjr, hla, hst]
    refine ⟨fun h => by rw [if_pos h], fun h1 h2 h3 h4 hlen hpos => ?_⟩
    rw [if_neg (by simp [h1, h2, h3, h4])]
    obtain ⟨v, hv⟩ : ∃ v, v = u.updPair fun p => { p with joinTs := none, latched := false, peerBars := runMask bars } := ⟨_, rfl⟩
    have hall : u.joinAll bars = bars.zipIdx.foldl (fun t x => t.joinEnable x.2 x.1) v := by
      rw [hv]
      rfl
    have hvpos : ∀ n < 12, v.fenced (pPOS n) = false := fun n hn => by
      rw [← hpos n hn, ← H.fenced, hv]
      rfl
    have hvst : v.pairState = s.pairState := by rw [← hst, hv]; rfl
    have hvmask : v.causeMask = s.causeMask := by
      unfold State.causeMask
      have : v.persists = s.persists := by
        funext c
        obtain ⟨r, c', w, o, a, x, g, n, hsh⟩ := H.shape
        refine State.persists_congr ?_ (by rw [hv, hsh]; rfl) (by rw [hv, hsh]; rfl) (by rw [hv, hsh]; exact ⟨rfl, rfl⟩) c
        have hreg : v.regs = u.regs := by
          rw [hv]
          rfl
        simp only [List.forall_mem_cons, State.get_congr hreg]
        exact ⟨H.get (by decide) (by decide), H.get (by decide) (by decide), H.get (by decide) (by decide), by simp⟩
      rw [this]
    obtain ⟨hfrom, hbars, hone⟩ := State.joinAll_spec bars 0 v (by omega) hvpos hall.symm
    obtain ⟨r, ln, jb, j, o, jl, hshape⟩ := hfrom.shape
    have hnp : ∀ m, 0 ≤ m → m < 8 → pPAIR ≠ pLINE m := fun m _ hm he => by simp only [pLINE, pPAIR] at he; omega
    have hwp : (u.joinAll bars).straps.pairEn = true := by rw [hshape, hv]; exact H.pairEn
    have hwf : (u.joinAll bars).frozen pPAIR = false := by
      rw [← H.frozen]
      exact State.frozen_congr ((hfrom.page _ hnp _).trans (by rw [hv]; rfl))
    have hwst : (u.joinAll bars).pairState = s.pairState :=
      (State.pairState_congr (by rw [hshape]) (hfrom.page _ hnp _)).trans hvst
    have hwm : v.sameMemory (u.joinAll bars) := by rw [hshape]; exact ⟨rfl, rfl, rfl, rfl, rfl⟩
    have hwj : (u.joinAll bars).pair.joinTs = none ∧ (u.joinAll bars).pair.latched = false ∧
        (u.joinAll bars).pair.peerBars = runMask bars := by rw [hshape, hv]; exact ⟨rfl, rfl, rfl⟩
    generalize u.joinAll bars = W at hfrom hbars hone hshape hwp hwf hwst hwm hwj ⊢
    obtain ⟨⟨r', m', g', w', hset⟩, hpage, hps⟩ := State.joinSettled_spec hwp hwf
    have hTj : W.joinSettled.pair.joined = W.pair.joined := by rw [hset]
    refine ⟨_, rfl, by rw [hset]; exact hwj.1, by rw [hset]; exact hwj.2.1, fun b x hx => ?_, ?_, ?_⟩
    · have hb : b < 8 := hlen ▸ (List.getElem?_eq_some_iff.mp hx).1
      have hbar := hbars b x hx
      rw [Nat.zero_add] at hbar
      refine ⟨?_, barJoined.heard hb H (by rw [hv]; rfl) (by rw [hv]; rfl) (by rw [hv]; rfl) (by rw [hv]; rfl) hbar hpage
        (by rw [hset]; rfl) hTj⟩
      rw [hset, ← runMask_bit hx, ← hwj.2.2]
    · rw [hps, hTj, hwst]
      by_cases hz : s.pairState = 3 ∧ W.pair.joined = 0
      · rw [if_pos hz, if_pos hz, hone.resolve_right (by simp [hz.2]), hvmask]
      · rw [if_neg hz, if_neg hz]
    · obtain ⟨a1, a2, a3, a4, a5⟩ := hm
      obtain ⟨b1, b2, b3, b4, b5⟩ := hwm
      rw [hset]
      have hvm : v.pending = u.pending ∧ v.lstore = u.lstore ∧ v.dramMem = u.dramMem ∧ v.dramChk = u.dramChk ∧ v.flash = u.flash := by
        rw [hv]
        exact ⟨rfl, rfl, rfl, rfl, rfl⟩
      obtain ⟨c1, c2, c3, c4, c5⟩ := hvm
      exact ⟨b1.trans (c1.trans a1), b2.trans (c2.trans a2), b3.trans (c3.trans a3), b4.trans (c4.trans a4), b5.trans (c5.trans a5)⟩
  · intro s
    rw [exec_joinRetry]
    refine ⟨fun h => by rw [h], fun n h => ?_⟩
    rw [h]
    dsimp only
    refine ⟨fun hn => by rw [if_pos hn], fun hn => ?_⟩
    rw [if_neg (by omega)]
    exact ⟨_, rfl, rfl, rfl⟩
end Sys2Proof.Machine
end

section
/-! ### Digests are compared (O46) -/
open Sys2Proof Sys2Proof.Machine
namespace Sys2Proof.Machine

/-! ### What a verdict on a digest keeps -/

/-- The digests held, the skew shown, the straps and the tick stand, and no page is enabled. -/
structure State.judgeKeeps (s t : State) : Prop where
  held : t.pair.own = s.pair.own ∧ t.pair.peer = s.pair.peer
  skew : t.get pPAIR R.PAIR_SKEW_LAST = s.get pPAIR R.PAIR_SKEW_LAST
  off : ∀ q, s.get q R.PG_CTRL_EN = 0 → t.get q R.PG_CTRL_EN = 0
  straps : t.straps = s.straps
  tick : t.tick = s.tick
theorem State.judgeKeeps_refl (s : State) : s.judgeKeeps s := ⟨⟨rfl, rfl⟩, rfl, fun _ h => h, rfl, rfl⟩
theorem State.judgeKeeps.trans {s t u : State} (h : s.judgeKeeps t) (k : t.judgeKeeps u) : s.judgeKeeps u :=
  ⟨⟨k.held.1.trans h.held.1, k.held.2.trans h.held.2⟩, k.skew.trans h.skew, fun q hq => k.off q (h.off q hq), k.straps.trans h.straps,
    k.tick.trans h.tick⟩
theorem State.judgeKeeps_of_regs {s t : State} (hr : t.regs = s.regs) (hp : t.pair.own = s.pair.own ∧ t.pair.peer = s.pair.peer)
    (hs : t.straps = s.straps) (ht : t.tick = s.tick) : s.judgeKeeps t :=
  ⟨hp, State.get_congr hr _ _, fun q hq => (State.get_congr hr _ _).trans hq, hs, ht⟩
theorem State.judgeKeeps_reports {s t : State} {l : List (Nat × Fld)} (h : s.reports t) (hb : s.regsBut t l)
    (hl : ∀ e ∈ l, e.2.id ≠ R.PAIR_SKEW_LAST.id ∧ e.2.id ≠ R.PG_CTRL_EN.id) : s.judgeKeeps t := by
  have hget : ∀ q, t.get q R.PAIR_SKEW_LAST = s.get q R.PAIR_SKEW_LAST ∧ t.get q R.PG_CTRL_EN = s.get q R.PG_CTRL_EN := fun q =>
    ⟨hb.field (fun e he => (hl e he).1.symm) q, hb.field (fun e he => (hl e he).2.symm) q⟩
  obtain ⟨r, w, ht⟩ := h
  refine ⟨by rw [ht]; exact ⟨rfl, rfl⟩, (hget _).1, fun q hq => (hget q).2.trans hq, by rw [ht], by rw [ht]⟩
theorem State.judgeKeeps_cause (s : State) (p i : Nat) : s.judgeKeeps (s.cause p i) :=
  State.judgeKeeps_reports (l := [(p, R.PG_IRQ_RAW)]) (s.reports_cause p i) (State.regsBut_cause (State.regsBut_refl _ _) _ (by simp))
    (by simp only [List.forall_mem_cons]; exact ⟨by decide, by simp⟩)
theorem State.judgeKeeps_err (s : State) (p code src lo hi dir : Nat) : s.judgeKeeps (s.err p code src lo hi dir) :=
  State.judgeKeeps_reports (l := errFields p) (s.reports_err p code src lo hi dir)
    (State.regsBut_err (State.regsBut_refl _ _) _ _ _ _ _ _ (fun e he => he))
    (by simp only [errFields, List.forall_mem_cons]; exact ⟨by decide, by decide, by decide, by decide, by decide, by decide, by decide, by simp⟩)
theorem State.judgeKeeps_set (s : State) (p : Nat) {f : Fld} (v : Nat)
    (hf : f.id ≠ R.PAIR_SKEW_LAST.id ∧ f.id ≠ R.PG_CTRL_EN.id) : s.judgeKeeps (s.set p f v) :=
  State.judgeKeeps_reports (l := [(p, f)]) (s.reports_set p f v) (State.regsBut_set (State.regsBut_refl _ _) _ (by simp))
    (by simpa using hf)
theorem State.judgeKeeps_off (s : State) (p : Nat) : s.judgeKeeps (s.set p R.PG_CTRL_EN 0) := by
  refine ⟨⟨rfl, rfl⟩, s.get_set_ne 0 (Or.inr (by decide)), fun q hq => ?_, rfl, rfl⟩
  by_cases hp : q = p
  · rw [hp]
    exact s.get_set_self _ _ _
  · exact (s.get_set_ne 0 (Or.inl hp)).trans hq
theorem State.judgeKeeps_updPair (s : State) {g : PairSt → PairSt} (h : ∀ p, (g p).own = p.own ∧ (g p).peer = p.peer) :
    s.judgeKeeps (s.updPair g) := State.judgeKeeps_of_regs rfl (h s.pair) rfl rfl
theorem State.judgeKeeps.thenPair {s t : State} (k : s.judgeKeeps t) {g : PairSt → PairSt}
    (h : ∀ p, (g p).own = p.own ∧ (g p).peer = p.peer) : s.judgeKeeps (t.updPair g) := k.trans (t.judgeKeeps_updPair h)
theorem State.judgeKeeps_updHead (s : State) (h : Nat) (g : HeadSt → HeadSt) : s.judgeKeeps (s.updHead h g) :=
  State.judgeKeeps_of_regs rfl ⟨rfl, rfl⟩ rfl rfl
theorem State.judgeKeeps_updCam (s : State) (c : Nat) (g : CamSt → CamSt) : s.judgeKeeps (s.updCam c g) :=
  State.judgeKeeps_of_regs rfl ⟨rfl, rfl⟩ rfl rfl
theorem State.judgeKeeps_updLine (s : State) (b : Nat) (g : LineSt → LineSt) : s.judgeKeeps (s.updLine b g) :=
  State.judgeKeeps_of_regs rfl ⟨rfl, rfl⟩ rfl rfl
theorem State.judgeKeeps_fenceAt (s : State) (m : NMap Nat) : s.judgeKeeps { s with fenceAt := m } :=
  State.judgeKeeps_of_regs rfl ⟨rfl, rfl⟩ rfl rfl
theorem State.judgeKeeps_setPairState (s : State) (v : Nat) : s.judgeKeeps (s.setPairState v) := by
  unfold State.setPairState
  split
  · exact s.judgeKeeps_refl
  · refine State.judgeKeeps.trans ?_ (State.judgeKeeps_cause _ _ _)
    exact State.judgeKeeps.thenPair (s.judgeKeeps_set _ _ ⟨by decide, by decide⟩) (by exact fun _ => ⟨rfl, rfl⟩)
theorem State.judgeKeeps_crookSend (s : State) (typ : Nat) (l : List Byte) : s.judgeKeeps (s.crookSend typ l) := by
  cases h : s.pairOn with
  | false =>
    rw [State.crookSend_off h]
    exact s.judgeKeeps_refl
  | true =>
    rw [State.crookSend_eq h]
    exact State.judgeKeeps_of_regs rfl ⟨rfl, rfl⟩ rfl rfl
theorem State.judgeKeeps_giveRecord (s : State) (c code b : Nat) (uncov : Bool) : s.judgeKeeps (s.giveRecord c code b uncov) := by
  unfold State.giveRecord
  exact (((s.judgeKeeps_err _ _ _ _ _ _).trans (State.judgeKeeps_set _ _ _ ⟨by decide, by decide⟩)).trans
    (State.judgeKeeps_set _ _ _ ⟨by decide, by decide⟩)).trans (State.judgeKeeps_set _ _ _ ⟨by decide, by decide⟩)
theorem State.judgeKeeps_pairCause (s : State) (c code b : Nat) : s.judgeKeeps (s.pairCause c code b) := by
  unfold State.pairCause
  have hinc : ∀ t : State, t.judgeKeeps (t.incSat pPAIR R.PAIR_GIVE_CNT) := fun t => t.judgeKeeps_set _ _ ⟨by decide, by decide⟩
  have hnote : ∀ unc l, s.judgeKeeps ((((s.giveRecord c code b unc).incSat pPAIR R.PAIR_GIVE_CNT).cause pPAIR 4).crookSend 0x06 l) :=
    fun unc l => (((s.judgeKeeps_giveRecord _ _ _ _).trans (hinc _)).trans (State.judgeKeeps_cause _ _ _)).trans
      (State.judgeKeeps_crookSend _ _ _)
  dsimp only
  split_ifs
  · exact s.judgeKeeps_refl
  · exact s.judgeKeeps_refl
  · exact (hnote _ _).trans (State.judgeKeeps_setPairState _ _)
  · exact State.judgeKeeps.thenPair (hnote _ _) (by exact fun _ => ⟨rfl, rfl⟩)
  · exact s.judgeKeeps_giveRecord _ _ _ _
  · refine State.judgeKeeps.trans ?_ (State.judgeKeeps_setPairState _ _)
    exact s.judgeKeeps_updPair (by exact fun _ => ⟨rfl, rfl⟩)
  · refine State.judgeKeeps.trans ?_ (State.judgeKeeps_setPairState _ _)
    exact s.judgeKeeps_updPair (by exact fun _ => ⟨rfl, rfl⟩)
  · exact s.judgeKeeps_refl
theorem State.judgeKeeps_pairRise {s t : State} (h : s.judgeKeeps t) (u : State) (code b : Nat) : s.judgeKeeps (u.pairRise t code b) := by
  unfold State.pairRise
  split
  · exact h
  · split
    · exact h.trans (t.judgeKeeps_pairCause _ _ _)
    · exact h
theorem State.judgeKeeps_fenceMark (s : State) (p reason : Nat) : s.judgeKeeps (s.fenceMark p reason) := by
  unfold State.fenceMark State.fenceFlags
  exact ((((s.judgeKeeps_cause _ _).trans (State.judgeKeeps_set _ _ _ ⟨by decide, by decide⟩)).trans
    (State.judgeKeeps_set _ _ _ ⟨by decide, by decide⟩)).trans (State.judgeKeeps_set _ _ _ ⟨by decide, by decide⟩)).trans (State.judgeKeeps_fenceAt _ _)
theorem State.judgeKeeps_headDue (s : State) (h : Nat) : s.judgeKeeps (s.headDue h) := by
  unfold State.headDue State.headStops
  split
  · split
    · exact s.judgeKeeps_refl
    · exact ((s.judgeKeeps_fenceMark _ _).trans (State.judgeKeeps_set _ _ _ ⟨by decide, by decide⟩)).trans
        (State.judgeKeeps_updHead _ _ _)
  · exact s.judgeKeeps_refl
theorem State.judgeKeeps_pipeDue (s : State) (b : Nat) : s.judgeKeeps (s.pipeDue b) := by
  unfold State.pipeDue
  have hupd : s.judgeKeeps (s.updPipe b fun x => { x with fenceDue := none }) := State.judgeKeeps_of_regs rfl ⟨rfl, rfl⟩ rfl rfl
  split
  · dsimp only
    split
    · exact hupd
    · exact State.judgeKeeps_pairRise (hupd.trans (State.judgeKeeps_fenceMark _ _ _)) _ _ _
  · exact s.judgeKeeps_refl
theorem State.judgeKeeps_flightOver (s : State) (p : Nat) : s.judgeKeeps (s.flightOver p) := by
  unfold State.flightOver
  split
  · split
    · exact s.judgeKeeps_refl
    · exact s.judgeKeeps_headDue _
  · split
    · exact s.judgeKeeps_refl
    · exact s.judgeKeeps_pipeDue _
  · exact s.judgeKeeps_refl
theorem State.judgeKeeps_each (l : List Nat) (g : State → Nat → State) (h : ∀ (t : State) n, t.judgeKeeps (g t n)) (s : State) :
    s.judgeKeeps (s.each l g) := by
  unfold State.each
  induction l generalizing s with
  | nil => exact s.judgeKeeps_refl
  | cons n l ih => exact (h s n).trans (ih _)
theorem State.judgeKeeps_markDue (s : State) (p : Nat) : s.judgeKeeps (s.markDue p) := by
  unfold State.markDue
  dsimp only
  split_ifs
  · exact s.judgeKeeps_refl
  · exact State.judgeKeeps_of_regs rfl ⟨rfl, rfl⟩ rfl rfl
  · exact s.judgeKeeps_refl
theorem State.judgeKeeps_giveDone (s : State) (b : Nat) : s.judgeKeeps (s.giveDone b) := by
  unfold State.giveDone
  dsimp only
  split
  · refine State.judgeKeeps.trans ?_ (State.judgeKeeps_setPairState _ _)
    exact s.judgeKeeps_updPair (by exact fun _ => ⟨rfl, rfl⟩)
  · exact s.judgeKeeps_updPair (by exact fun _ => ⟨rfl, rfl⟩)
theorem State.judgeKeeps_lineStopped (s : State) (b : Nat) : s.judgeKeeps (s.lineStopped b) := by
  have hcam : ∀ t : State, State.judgeKeeps t (t.each (List.range 2) fun u c => u.updCam c fun x => { x with trig0Until := none }) :=
    State.judgeKeeps_each _ _ fun t n => State.judgeKeeps_updCam t n _
  have hwhen : ∀ (t : State) c, State.judgeKeeps t (t.when c fun (t : State) =>
      t.each (List.range 2) fun u c => u.updCam c fun x => { x with trig0Until := none }) := fun t c => by
    unfold State.when
    split
    · exact hcam t
    · exact t.judgeKeeps_refl
  exact (((State.judgeKeeps_each _ _ State.judgeKeeps_markDue s).trans (State.judgeKeeps_giveDone _ _)).trans (hwhen _ _)).trans
    (State.judgeKeeps_each _ _ State.judgeKeeps_flightOver _)
theorem State.judgeKeeps_lineDisable (s : State) (b : Nat) :
    s.judgeKeeps (s.lineDisable b) ∧ (s.lineDisable b).get (pLINE b) R.PG_CTRL_EN = 0 := by
  have hrest : (s.set (pLINE b) R.PG_CTRL_EN 0).judgeKeeps (s.lineDisable b) :=
    State.judgeKeeps.trans (State.judgeKeeps.thenPair (State.judgeKeeps_updLine _ b _) (by exact fun _ => ⟨rfl, rfl⟩))
      (State.judgeKeeps_lineStopped _ b)
  exact ⟨(s.judgeKeeps_off _).trans hrest, hrest.off _ (s.get_set_self _ _ _)⟩
/-- Every bar of a list is disabled in turn. -/
theorem State.judgeKeeps_linesDisable (s : State) (l : List Nat) :
    s.judgeKeeps (s.each l fun t b => t.lineDisable b) ∧
    ∀ b ∈ l, (s.each l fun t b => t.lineDisable b).get (pLINE b) R.PG_CTRL_EN = 0 := by
  unfold State.each
  induction l generalizing s with
  | nil => exact ⟨s.judgeKeeps_refl, fun b h => by simp at h⟩
  | cons c l ih =>
    obtain ⟨h1, h2⟩ := ih (s.lineDisable c)
    obtain ⟨h3, h4⟩ := s.judgeKeeps_lineDisable c
    refine ⟨h3.trans h1, fun b hb => ?_⟩
    rcases List.mem_cons.mp hb with rfl | hb
    · exact h1.off _ h4
    · exact h2 b hb

/-! ### The skew -/

/-- The skew as it is shown and its run on the bar (R235). -/
def State.skewNoted (s : State) (b : Nat) (k : Int) (n : Nat) : State :=
  (s.set pPAIR R.PAIR_SKEW_LAST (uns 16 k)).updPair fun p => { p with skewRuns := p.skewRuns.put b n }
/-- A line of the bar in step, while the unit joins (R234). -/
def State.joinCounted (s : State) (b : Nat) : State :=
  let s := s.updPair fun p => { p with joinOk := p.joinOk.put b (p.joinOk.getD b 0 + 1) }
  if (List.range 8).all fun i => !bit s.pair.joined i || 64 ≤ s.pair.joinOk.getD i 0 then
    (s.updPair fun p => { p with runs := [] }).setPairState (if s.causeMask = 0 then 5 else 4)
  else s
theorem State.skewNoted_shape (s : State) (b : Nat) (k : Int) (n : Nat) :
    ∃ r m, s.skewNoted b k n = { s with regs := r, pair := { s.pair with skewRuns := m } } := ⟨_, _, rfl⟩
/-- What follows from a skew once it shows (R234, R235, R242). -/
def State.skewJudged (s : State) (b : Nat) (bad : Bool) (n : Nat) : State :=
  if s.pairState = 3 then
    if !bit s.pair.joined b then s
    else if bad then s.joinFail
    else s.joinCounted b
  else if max 1 (s.get pPAIR R.PAIR_SKEW_N) ≤ n then
    let s := s.updPair fun p => { p with skewRuns := p.skewRuns.put b 0 }
    if s.pairState = 7 then (if s.peerState = 7 && !s.straps.home then s.pairCause 9 0x71 b else s)
    else if 4 ≤ s.pairState && s.pairState ≤ 6 then s.skewLost
    else s
  else s
def State.skewBad (s : State) (k : Int) : Bool :=
  decide ((s.get pPAIR R.PAIR_SKEW_LIM : Int) < k ∨ k < -(s.get pPAIR R.PAIR_SKEW_LIM : Int))
def State.skewRun (s : State) (b : Nat) (bad : Bool) : Nat := if bad then s.pair.skewRuns.getD b 0 + 1 else 0
theorem State.judgeSkew_eq (s : State) (b : Nat) (own peer : DigSt) : s.judgeSkew b own peer =
    (let k := s.skew own peer
    let n := s.skewRun b (s.skewBad k)
    (s.skewNoted b k n).skewJudged b (s.skewBad k) n) := rfl
theorem State.judgeKeeps_joinFail (s : State) : s.judgeKeeps s.joinFail ∧ s.joinFail.pair.joined = 0 ∧
    s.joinFail.pair.joinFailed = some s.tick := by
  unfold State.joinFail
  obtain ⟨h, -⟩ := s.judgeKeeps_linesDisable ((List.range 8).filter fun b => bit s.pair.joined b)
  dsimp only
  generalize s.each _ _ = t at h ⊢
  refine ⟨State.judgeKeeps.thenPair h (by exact fun _ => ⟨rfl, rfl⟩), rfl, ?_⟩
  rw [← h.tick]
  rfl
theorem State.pairState_setPairState {s : State} (hp : s.straps.pairEn = true) {v : Nat} (hv : v < 8) :
    (s.setPairState v).pairState = v ∧ ∃ r g w, s.setPairState v = { s with
      regs := r, pair := { s.pair with gaveUp := g }, host := { s.host with waiting := w } } := by
  have hst : s.pairState = s.get pPAIR R.PAIR_STAT_STATE := if_pos hp
  unfold State.setPairState
  split
  · next h => exact ⟨hst.trans h, s.regs, s.pair.gaveUp, s.host.waiting, rfl⟩
  · dsimp only
    have hself : ((s.set pPAIR R.PAIR_STAT_STATE v).updPair fun p => { p with
        gaveUp := v != 7 && (p.gaveUp || s.get pPAIR R.PAIR_STAT_STATE == 7) }).get pPAIR R.PAIR_STAT_STATE = v :=
      (s.get_set_self _ _ _).trans (Nat.mod_eq_of_lt (lt_of_lt_of_le hv (by decide)))
    have hsh : ∃ r g, ((s.set pPAIR R.PAIR_STAT_STATE v).updPair fun p => { p with
        gaveUp := v != 7 && (p.gaveUp || s.get pPAIR R.PAIR_STAT_STATE == 7) }) = { s with regs := r, pair := { s.pair with gaveUp := g } } :=
      ⟨_, _, rfl⟩
    generalize ((s.set pPAIR R.PAIR_STAT_STATE v).updPair fun p => { p with
        gaveUp := v != 7 && (p.gaveUp || s.get pPAIR R.PAIR_STAT_STATE == 7) }) = u at hself hsh ⊢
    obtain ⟨r, g, hu⟩ := hsh
    obtain ⟨r', w, hrep⟩ := u.reports_cause pPAIR 3
    have hget : (u.cause pPAIR 3).get pPAIR R.PAIR_STAT_STATE = v := (State.get_cause_field _ _ _ (by decide)).trans hself
    refine ⟨?_, r', g, w, by rw [hrep, hu]⟩
    rw [State.pairState, if_pos (by rw [hrep, hu]; exact hp), hget]
theorem State.judgeKeeps_skewLost {s : State} (hp : s.straps.pairEn = true) : s.judgeKeeps s.skewLost ∧ s.skewLost.pairState = 3 ∧
    s.skewLost.pair.joined = 0 ∧ ∀ b < 8, bit s.pair.joined b = true → s.skewLost.get (pLINE b) R.PG_CTRL_EN = 0 := by
  unfold State.skewLost
  obtain ⟨h, hoff⟩ := s.judgeKeeps_linesDisable ((List.range 8).filter fun b => bit s.pair.joined b)
  dsimp only
  generalize s.each _ _ = t at h hoff ⊢
  have hupd : s.judgeKeeps (t.updPair fun p => { p with
      joined := 0, joinOk := [], joinTs := none, tofs := [], latched := false, skewRuns := [], runs := [] }) :=
    State.judgeKeeps.thenPair h (by exact fun _ => ⟨rfl, rfl⟩)
  have hen : ∀ q, (t.updPair fun p => { p with
      joined := 0, joinOk := [], joinTs := none, tofs := [], latched := false, skewRuns := [], runs := [] }).get q R.PG_CTRL_EN =
      t.get q R.PG_CTRL_EN := fun q => rfl
  have hj : (t.updPair fun p => { p with
      joined := 0, joinOk := [], joinTs := none, tofs := [], latched := false, skewRuns := [], runs := [] }).pair.joined = 0 := rfl
  generalize (t.updPair fun p => { p with
      joined := 0, joinOk := [], joinTs := none, tofs := [], latched := false, skewRuns := [], runs := [] }) = v at hupd hen hj ⊢
  have hset := v.judgeKeeps_setPairState 3
  obtain ⟨hst, r, g, w, hshape⟩ := State.pairState_setPairState (s := v) (by rw [hupd.straps]; exact hp) (v := 3) (by decide)
  refine ⟨hupd.trans hset, hst, by rw [hshape]; exact hj, fun b hb hbit => hset.off _ ((hen _).trans (hoff b ?_))⟩
  exact List.mem_filter.mpr ⟨List.mem_range.mpr hb, hbit⟩
theorem State.judgeKeeps_joinCounted (s : State) (b : Nat) : s.judgeKeeps (s.joinCounted b) := by
  unfold State.joinCounted
  have hupd : s.judgeKeeps (s.updPair fun p => { p with joinOk := p.joinOk.put b (p.joinOk.getD b 0 + 1) }) :=
    s.judgeKeeps_updPair (by exact fun _ => ⟨rfl, rfl⟩)
  dsimp only
  split
  · refine State.judgeKeeps.trans ?_ (State.judgeKeeps_setPairState _ _)
    exact State.judgeKeeps.thenPair hupd (by exact fun _ => ⟨rfl, rfl⟩)
  · exact hupd
theorem State.judgeKeeps_skewJudged {s : State} (hp : s.straps.pairEn = true) (b : Nat) (bad : Bool) (n : Nat) :
    s.judgeKeeps (s.skewJudged b bad n) := by
  unfold State.skewJudged
  have hupd : s.judgeKeeps (s.updPair fun p => { p with skewRuns := p.skewRuns.put b 0 }) :=
    s.judgeKeeps_updPair (by exact fun _ => ⟨rfl, rfl⟩)
  have hlost := State.judgeKeeps_skewLost (s := s.updPair fun p => { p with skewRuns := p.skewRuns.put b 0 }) hp
  dsimp only
  split_ifs
  · exact s.judgeKeeps_refl
  · exact s.judgeKeeps_joinFail.1
  · exact s.judgeKeeps_joinCounted b
  · exact hupd.trans (State.judgeKeeps_pairCause _ _ _ _)
  · exact hupd
  · exact hupd.trans hlost.1
  · exact hupd
  · exact s.judgeKeeps_refl

/-! ### Equal digests, and a tile that differs -/

/-- The mask of the places where a list differs from another. -/
theorem diffMask_spec (f g : Nat → Nat) (n : Nat) :
    (List.range n).foldl (fun m t => if f t = g t then m else m + 2 ^ t) 0 < 2 ^ n ∧
    ∀ k, bit ((List.range n).foldl (fun m t => if f t = g t then m else m + 2 ^ t) 0) k = (decide (k < n) && decide (f k ≠ g k)) := by
  have hfold : (fun (m t : Nat) => if f t = g t then m else m + 2 ^ t) = fun m t => if decide (f t ≠ g t) then m + 2 ^ t else m := by
    funext m t
    by_cases h : f t = g t <;> simp [h]
  rw [hfold]
  exact maskFold_spec (fun t => decide (f t ≠ g t)) n
/-- The tiles that differ (R240). -/
def tilesApart (own peer : DigSt) : Nat :=
  (List.range 16).foldl (fun m t => if own.digs.getD t 0 = peer.digs.getD t 0 then m else m + 2 ^ t) 0
theorem tilesApart_spec (own peer : DigSt) : tilesApart own peer < 2 ^ 16 ∧
    (∀ i < 16, bit (tilesApart own peer) i = true ↔ own.digs.getD i 0 ≠ peer.digs.getD i 0) ∧
    (tilesApart own peer = 0 ↔ ∀ i < 16, own.digs.getD i 0 = peer.digs.getD i 0) := by
  obtain ⟨hlt, hbit⟩ := diffMask_spec (fun t => own.digs.getD t 0) (fun t => peer.digs.getD t 0) 16
  have hbits : ∀ i < 16, bit (tilesApart own peer) i = true ↔ own.digs.getD i 0 ≠ peer.digs.getD i 0 := fun i hi => by
    rw [tilesApart, hbit i]
    simp [hi]
  refine ⟨hlt, hbits, fun h0 i hi => ?_, fun h => ?_⟩
  · by_contra hne
    have := (hbits i hi).mpr hne
    rw [h0, bit, Nat.zero_testBit] at this
    exact absurd this (by decide)
  · refine Nat.eq_of_testBit_eq fun i => ?_
    rw [Nat.zero_testBit]
    by_cases hi : i < 16
    · by_contra hne
      exact (hbits i hi).mp (by simpa [bit] using hne) (h i hi)
    · have := hbit i
      rw [bit] at this
      rw [tilesApart, this]
      simp [hi]
/-- A line on which every tile is equal (R242). -/
def State.digestEqual (s : State) (b : Nat) : State :=
  if s.pairState = 5 || s.pairState = 6 then
    let s := s.updPair fun p => { p with runs := p.runs.put b (p.runs.getD b 0 + 1) }
    if s.pairState = 5 && max 1 (s.get pPAIR R.PAIR_RUNLEN) ≤ s.pairRun then
      let s := s.updPair fun p => { p with diverged := false }
      if s.flag pPAIR R.PAIR_CTRL_AUTORET then
        (s.updPair fun p => { p with holdUntil := s.tick + msTicks (s.get pPAIR R.PAIR_HOLD) }).setPairState 6
      else s
    else s
  else s
/-- A line on which a tile differs, as it is recorded (R240, R241). -/
def State.digestShown (s : State) (line tiles b v : Nat) : State :=
  (((((s.set pPAIR R.PAIR_MIS_LINE line).set pPAIR R.PAIR_MIS_INFO_TILES tiles).set pPAIR
    R.PAIR_MIS_INFO_BAR b).set pPAIR R.PAIR_MIS_INFO_VERDICT v).incSat pPAIR R.PAIR_MIS_CNT).cause pPAIR 6
def State.digestNoted (s : State) (line tiles b v : Nat) : State :=
  let s := s.digestShown line tiles b v
  let s := if v = 0 then s else s.err pPAIR 0x71 v line b
  if v = 2 || v = 3 then s.updPair fun p => { p with diverged := true } else s
def State.digestApart (s : State) (line tiles b v : Nat) : State :=
  let s := (s.digestNoted line tiles b v).runReset b
  if v = 1 then s.pairCause 7 0x71 b else s
theorem State.judgeDigest_eq (s : State) (own peer : DigSt) : s.judgeDigest own peer =
    if tilesApart own peer = 0 then s.digestEqual own.bar
    else s.digestApart own.line (tilesApart own peer) own.bar (verdict own peer) := rfl
/-- The registers that a mismatch shows. -/
def misFields : List (Nat × Fld) :=
  [(pPAIR, R.PAIR_MIS_LINE), (pPAIR, R.PAIR_MIS_INFO_TILES), (pPAIR, R.PAIR_MIS_INFO_BAR), (pPAIR, R.PAIR_MIS_INFO_VERDICT),
    (pPAIR, R.PAIR_MIS_CNT)] ++ errFields pPAIR
theorem State.digestShown_spec (s : State) (hf : s.frozen pPAIR = false) (line tiles b v : Nat) {t : State}
    (ht : s.digestShown line tiles b v = t) :
    t.get pPAIR R.PAIR_MIS_CNT = min (s.get pPAIR R.PAIR_MIS_CNT + 1) (2 ^ R.PAIR_MIS_CNT.w - 1) ∧
    t.get pPAIR R.PAIR_MIS_LINE = line % 2 ^ 32 ∧ t.get pPAIR R.PAIR_MIS_INFO_TILES = tiles % 2 ^ 16 ∧
    t.get pPAIR R.PAIR_MIS_INFO_BAR = b % 8 ∧ t.get pPAIR R.PAIR_MIS_INFO_VERDICT = v % 8 ∧
    bit (t.get pPAIR R.PG_IRQ_RAW) 6 = true ∧ s.regsBut t misFields ∧ s.reports t := by
  subst ht
  unfold State.digestShown
  refine ⟨?_, ?_, ?_, ?_, ?_, State.bit_cause _ (by decide) ?_, ?_, ((((((s.reports_set _ _ _).trans (State.reports_set _ _ _ _)).trans
    (State.reports_set _ _ _ _)).trans (State.reports_set _ _ _ _)).trans (State.reports_incSat _ _ _)).trans (State.reports_cause _ _ _))⟩
  · rw [State.get_cause_field _ _ _ (by decide), State.get_incSat_self]
    iterate 4 rw [State.get_set_field _ _ _ (by decide)]
  · rw [State.get_cause_field _ _ _ (by decide), State.get_incSat_field _ _ (by decide)]
    iterate 3 rw [State.get_set_field _ _ _ (by decide)]
    exact s.get_set_self _ _ _
  · rw [State.get_cause_field _ _ _ (by decide), State.get_incSat_field _ _ (by decide)]
    iterate 2 rw [State.get_set_field _ _ _ (by decide)]
    exact State.get_set_self _ _ _ _
  · rw [State.get_cause_field _ _ _ (by decide), State.get_incSat_field _ _ (by decide), State.get_set_field _ _ _ (by decide)]
    exact State.get_set_self _ _ _ _
  · rw [State.get_cause_field _ _ _ (by decide), State.get_incSat_field _ _ (by decide)]
    exact State.get_set_self _ _ _ _
  · rw [← hf]
    refine State.frozen_congr ?_
    rw [State.get_incSat_field _ _ (by decide)]
    iterate 4 rw [State.get_set_field _ _ _ (by decide)]
  · exact State.regsBut_cause (State.regsBut_incSat (State.regsBut_set (State.regsBut_set (State.regsBut_set (State.regsBut_set
      (State.regsBut_refl _ _) _ (by simp [misFields])) _ (by simp [misFields])) _ (by simp [misFields])) _ (by simp [misFields]))
      (by simp [misFields])) _ (by simp [misFields, errFields])
theorem State.digestNoted_spec (s : State) (hf : s.frozen pPAIR = false) (line tiles b v : Nat) {t : State}
    (ht : s.digestNoted line tiles b v = t) :
    t.get pPAIR R.PAIR_MIS_CNT = min (s.get pPAIR R.PAIR_MIS_CNT + 1) (2 ^ R.PAIR_MIS_CNT.w - 1) ∧
    t.get pPAIR R.PAIR_MIS_LINE = line % 2 ^ 32 ∧ t.get pPAIR R.PAIR_MIS_INFO_TILES = tiles % 2 ^ 16 ∧
    t.get pPAIR R.PAIR_MIS_INFO_BAR = b % 8 ∧ t.get pPAIR R.PAIR_MIS_INFO_VERDICT = v % 8 ∧
    bit (t.get pPAIR R.PG_IRQ_RAW) 6 = true ∧ s.regsBut t misFields ∧
    ∃ r d w, t = { s with regs := r, pair := { s.pair with diverged := d }, host := { s.host with waiting := w } } := by
  unfold State.digestNoted at ht
  obtain ⟨h1, h2, h3, h4, h5, h6, h7, r, w, h8⟩ := s.digestShown_spec hf line tiles b v rfl
  dsimp only at ht
  generalize s.digestShown line tiles b v = x at h1 h2 h3 h4 h5 h6 h7 h8 ht
  have hnote : ∃ y, y = (if v = 0 then x else x.err pPAIR 0x71 v line b) := ⟨_, rfl⟩
  obtain ⟨y, hy⟩ := hnote
  rw [← hy] at ht
  have hget : ∀ {f : Fld}, f.id ∉ [R.PG_ERR_CNT.id, R.PG_ERR_ADDR_LO.id, R.PG_ERR_ADDR_HI.id, R.PG_ERR_INFO_SRC.id, R.PG_ERR_INFO_DIR.id,
      R.PG_ERR_INFO_CODE.id, R.PG_IRQ_RAW.id] → y.get pPAIR f = x.get pPAIR f := fun hid => by
    rw [hy]
    split
    · rfl
    · exact State.get_err_field _ _ _ _ _ _ _ hid
  have hbut : x.regsBut y misFields := by
    rw [hy]
    split
    · exact State.regsBut_refl _ _
    · exact State.regsBut_err (State.regsBut_refl _ _) _ _ _ _ _ _ (fun e he => List.mem_append_right _ he)
  have hbits : bit (y.get pPAIR R.PG_IRQ_RAW) 6 = true := by
    rw [hy]
    split
    · exact h6
    · exact (x.causeKeeps_err _ _ _ _ _).bits 6 (by decide) h6
  have hrep : x.reports y := by
    rw [hy]
    split
    · exact x.reports_refl
    · exact x.reports_err _ _ _ _ _ _
  clear hy
  have hreg : t.regs = y.regs := by
    rw [← ht]
    split <;> rfl
  have hfield := fun f => State.get_congr hreg pPAIR f
  obtain ⟨r', w', hrep⟩ := hrep
  refine ⟨((hfield _).trans (hget (by decide))).trans h1, ((hfield _).trans (hget (by decide))).trans h2,
    ((hfield _).trans (hget (by decide))).trans h3, ((hfield _).trans (hget (by decide))).trans h4,
    ((hfield _).trans (hget (by decide))).trans h5, by rw [hfield]; exact hbits,
    State.regsBut_trans (State.regsBut_trans h7 hbut) (State.regsBut_of_regs (State.regsBut_refl _ _) hreg), ?_⟩
  rw [← ht, hrep, h8]
  split
  · exact ⟨r', true, w', rfl⟩
  · exact ⟨r', s.pair.diverged, w', rfl⟩
theorem State.regsBut_setPairState (s : State) (v : Nat) :
    s.regsBut (s.setPairState v) [(pPAIR, R.PAIR_STAT_STATE), (pPAIR, R.PG_IRQ_RAW)] := by
  have hset : s.regsBut (s.set pPAIR R.PAIR_STAT_STATE v) [(pPAIR, R.PAIR_STAT_STATE), (pPAIR, R.PG_IRQ_RAW)] :=
    State.regsBut_set (State.regsBut_refl _ _) _ (by simp)
  unfold State.setPairState
  split
  · exact State.regsBut_refl _ _
  · dsimp only
    refine State.regsBut_cause ?_ _ (by simp)
    exact fun q g hq => hset q g hq
/-- The run of a bar begins again, and HOLD goes back to MATCH (R242), whatever the page's state. -/
theorem State.runReset_any (s : State) (b : Nat) :
    (s.runReset b).pair.runs.getD b 0 = 0 ∧ (s.runReset b).pairState = (if s.pairState = 6 then 5 else s.pairState) ∧
    s.regsBut (s.runReset b) [(pPAIR, R.PAIR_STAT_STATE), (pPAIR, R.PG_IRQ_RAW)] ∧
    (∀ i < 32, bit (s.get pPAIR R.PG_IRQ_RAW) i = true → bit ((s.runReset b).get pPAIR R.PG_IRQ_RAW) i = true) ∧
    ∃ r g w, s.runReset b = { s with
      regs := r
      pair := { s.pair with runs := s.pair.runs.del b, gaveUp := g }
      host := { s.host with waiting := w } } := by
  unfold State.runReset
  dsimp only
  have hst : (s.updPair fun p => { p with runs := p.runs.del b }).pairState = s.pairState := rfl
  rw [hst]
  by_cases h6 : s.pairState = 6
  · rw [if_pos h6, if_pos h6]
    have hp : s.straps.pairEn = true := by
      by_contra hn
      rw [State.pairState, if_neg hn] at h6
      exact absurd h6 (by decide)
    obtain ⟨h5, r, g, w, hset⟩ := State.pairState_setPairState (s := s.updPair fun p => { p with runs := p.runs.del b }) hp (v := 5)
      (by decide)
    refine ⟨by rw [hset]; exact NMap.getD_del_self _ _ _, h5, ?_, fun i hi hb => State.bit_setPairState _ hi hb, r, g, w, hset⟩
    exact State.regsBut_trans (State.regsBut_of_regs (State.regsBut_refl s _) rfl) (State.regsBut_setPairState _ 5)
  · rw [if_neg h6, if_neg h6]
    exact ⟨NMap.getD_del_self _ _ _, rfl, State.regsBut_of_regs (State.regsBut_refl s _) rfl, fun i _ hb => hb, s.regs, s.pair.gaveUp,
      s.host.waiting, rfl⟩
/-- Of PAIR's own state a give-up cause moves the message number, the give-up and the runs. -/
theorem State.pairCause_pair (s : State) (c code b : Nat) : ∃ m g h r, (r = s.pair.runs ∨ r = []) ∧ (s.pairCause c code b).pair =
    { s.pair with mseq := m, giving := g, gaveUp := h, runs := r } := by
  have hrep : ∀ {u t : State}, u.reports t → t.pair = u.pair := by
    rintro u t ⟨r, w, rfl⟩
    rfl
  have hsend : ∀ (t : State) typ p, ∃ m, (t.crookSend typ p).pair = { t.pair with mseq := m } := fun t typ p => by
    cases h : t.pairOn with
    | false =>
      rw [State.crookSend_off h]
      exact ⟨t.pair.mseq, rfl⟩
    | true =>
      rw [State.crookSend_eq h]
      exact ⟨_, rfl⟩
  have hrec : ∀ unc, s.reports (s.giveRecord c code b unc) := fun unc => (((s.reports_err _ _ _ _ _ _).trans
    (State.reports_setFlag _ _ _ _)).trans (State.reports_set _ _ _ _)).trans (State.reports_set _ _ _ _)
  have hnote : ∀ unc l, ∃ m, ((((s.giveRecord c code b unc).incSat pPAIR R.PAIR_GIVE_CNT).cause pPAIR 4).crookSend 0x06 l).pair =
      { s.pair with mseq := m } := fun unc l => by
    obtain ⟨m, hm⟩ := hsend (((s.giveRecord c code b unc).incSat pPAIR R.PAIR_GIVE_CNT).cause pPAIR 4) 0x06 l
    rw [hrep (((hrec unc).trans (State.reports_incSat _ _ _)).trans (State.reports_cause _ _ _))] at hm
    exact ⟨m, hm⟩
  unfold State.pairCause
  dsimp only
  split_ifs
  · exact ⟨s.pair.mseq, s.pair.giving, s.pair.gaveUp, s.pair.runs, Or.inl rfl, rfl⟩
  · exact ⟨s.pair.mseq, s.pair.giving, s.pair.gaveUp, s.pair.runs, Or.inl rfl, rfl⟩
  · obtain ⟨m, hm⟩ := hnote (!s.covered) ([BitVec.ofNat 8 c] ++ zeros 3 ++ s.lineSeqs)
    obtain ⟨g, hg⟩ := State.setPairState_pair ((((s.giveRecord c code b !s.covered).incSat pPAIR R.PAIR_GIVE_CNT).cause pPAIR 4).crookSend
      0x06 ([BitVec.ofNat 8 c] ++ zeros 3 ++ s.lineSeqs)) 4
    rw [hm] at hg
    exact ⟨m, s.pair.giving, g, s.pair.runs, Or.inl rfl, hg⟩
  · obtain ⟨m, hm⟩ := hnote (!s.covered) ([BitVec.ofNat 8 c] ++ zeros 3 ++ s.lineSeqs)
    refine ⟨m, s.runningBars, s.pair.gaveUp, s.pair.runs, Or.inl rfl, ?_⟩
    rw [State.updPair, hm]
  · exact ⟨s.pair.mseq, s.pair.giving, s.pair.gaveUp, s.pair.runs, Or.inl rfl, hrep (hrec _)⟩
  · obtain ⟨g, hg⟩ := State.setPairState_pair (s.updPair fun p => { p with runs := [] }) 4
    exact ⟨s.pair.mseq, s.pair.giving, g, [], Or.inr rfl, hg⟩
  · obtain ⟨g, hg⟩ := State.setPairState_pair (s.updPair fun p => { p with runs := [] }) 5
    exact ⟨s.pair.mseq, s.pair.giving, g, [], Or.inr rfl, hg⟩
  · exact ⟨s.pair.mseq, s.pair.giving, s.pair.gaveUp, s.pair.runs, Or.inl rfl, rfl⟩
/-- What a mismatch leaves on a unit that takes part in Crook (R240, R241, R246). -/
theorem State.digestApart_spec {s : State} (h : s.pairOn = true) (hup : s.pair.up = true) (line tiles b v : Nat) {t : State}
    (ht : s.digestApart line tiles b v = t) :
    t.get pPAIR R.PAIR_MIS_CNT = min (s.get pPAIR R.PAIR_MIS_CNT + 1) (2 ^ R.PAIR_MIS_CNT.w - 1) ∧
    t.get pPAIR R.PAIR_MIS_LINE = line % 2 ^ 32 ∧ t.get pPAIR R.PAIR_MIS_INFO_TILES = tiles % 2 ^ 16 ∧
    t.get pPAIR R.PAIR_MIS_INFO_BAR = b % 8 ∧ t.get pPAIR R.PAIR_MIS_INFO_VERDICT = v % 8 ∧
    bit (t.get pPAIR R.PG_IRQ_RAW) 6 = true ∧ t.pair.runs.getD b 0 = 0 ∧
    (v ≠ 1 → t.pairState = if s.pairState = 6 then 5 else s.pairState) ∧
    (v = 1 → s.pairState = 7 → s.pair.giving = 0 → s.peerState = 7 → givesUp s t 7) := by
  unfold State.digestApart at ht
  have hf := State.frozen_of_pairOn h
  have hp := State.pairEn_of_pairOn h
  obtain ⟨h1, h2, h3, h4, h5, h6, hbut, r, d, w, hshape⟩ := s.digestNoted_spec hf line tiles b v rfl
  dsimp only at ht
  generalize s.digestNoted line tiles b v = x at h1 h2 h3 h4 h5 h6 hbut hshape ht
  have hkeep : ∀ {f : Fld}, (∀ e ∈ misFields, f.id ≠ e.2.id) → ∀ p, x.get p f = s.get p f := fun hf p => hbut.field hf p
  have hxst : x.pairState = s.pairState := State.pairState_congr (by rw [hshape]) (hkeep (by decide) _)
  obtain ⟨hruns, hst, hbut2, hbits, r2, g2, w2, hshape2⟩ := x.runReset_any b
  have hkeep2 : ∀ {f : Fld}, f.id ≠ R.PAIR_STAT_STATE.id → f.id ≠ R.PG_IRQ_RAW.id → ∀ p, (x.runReset b).get p f = x.get p f :=
    fun h1 h2 p => hbut2.field (by simp only [List.forall_mem_cons]; exact ⟨h1, h2, by simp⟩) p
  rw [hxst] at hst
  replace h6 := hbits 6 (by decide) h6
  rw [← hkeep2 (by decide) (by decide)] at h1 h2 h3 h4 h5
  have hgive : (x.runReset b).get pPAIR R.PAIR_GIVE_CNT = s.get pPAIR R.PAIR_GIVE_CNT :=
    (hkeep2 (by decide) (by decide) _).trans (hkeep (by decide) _)
  have hwork : (x.runReset b).working = s.working := State.working_congr (by rw [hshape2, hshape]) (by rw [hshape2, hshape]) (by
    simp only [List.forall_mem_cons, List.not_mem_nil, false_imp_iff, implies_true, and_true]
    exact ⟨fun p => (hkeep2 (by decide) (by decide) p).trans (hkeep (by decide) p),
      fun p => (hkeep2 (by decide) (by decide) p).trans (hkeep (by decide) p),
      fun p => (hkeep2 (by decide) (by decide) p).trans (hkeep (by decide) p)⟩)
  have hon : (x.runReset b).pairOn = true := by
    rw [State.pairOn, hwork, hshape2, hshape]
    exact h
  have hpeer : (x.runReset b).peerState = s.peerState := (hkeep2 (by decide) (by decide) _).trans (hkeep (by decide) _)
  have hupy : (x.runReset b).pair.up = true ∧ (x.runReset b).pair.giving = s.pair.giving := by
    rw [hshape2, hshape]
    exact ⟨hup, rfl⟩
  generalize x.runReset b = y at hruns hst h6 h1 h2 h3 h4 h5 hgive hwork hon hpeer hupy ht
  by_cases hv : v = 1
  · rw [if_pos hv] at ht
    have hc := y.causeKeeps_pairCause 7 0x71 b
    have hfield : ∀ {f : Fld}, (∀ e ∈ giveFields ++ [(pPAIR, R.PAIR_STAT_STATE)], f.id ≠ e.2.id) →
        (y.pairCause 7 0x71 b).get pPAIR f = y.get pPAIR f := fun hf => hc.regs.field hf _
    obtain ⟨m, g, gu, rn, hrn, hpair⟩ := y.pairCause_pair 7 0x71 b
    subst ht
    refine ⟨(hfield (by decide)).trans h1, (hfield (by decide)).trans h2, (hfield (by decide)).trans h3, (hfield (by decide)).trans h4,
      (hfield (by decide)).trans h5, hc.bits 6 (by decide) h6, ?_, fun hn => absurd hv hn, fun _ h7 hg hp7 => ?_⟩
    · rw [hpair]
      rcases hrn with rfl | rfl
      · exact hruns
      · rfl
    · have hy7 : y.pairState = 7 := by rw [hst, h7]; rfl
      have hcov : y.covered = true := by
        rw [State.covered, State.crookUp, hon, hupy.1, hpeer, hp7]
        rfl
      obtain ⟨t, htt, ⟨k1, k2, k3, k4, k5⟩, -⟩ := State.pairCause_claim (c := 7) (code := 0x71) (b := b) hon hy7 (hupy.2.trans hg)
        (Or.inl hcov) (by decide)
      rw [htt]
      have hrb : y.runningBars = s.runningBars := State.runningBars_congr hwork
      rw [hrb] at k4 k5
      rw [hgive] at k1
      exact ⟨k1, k2, k3, k4, k5⟩
  · rw [if_neg hv] at ht
    subst ht
    exact ⟨h1, h2, h3, h4, h5, h6, hruns, fun _ => hst, fun hv' => absurd hv' hv⟩
theorem State.judgeKeeps_runReset (s : State) (b : Nat) : s.judgeKeeps (s.runReset b) := by
  unfold State.runReset
  have hupd : s.judgeKeeps (s.updPair fun p => { p with runs := p.runs.del b }) := s.judgeKeeps_updPair (by exact fun _ => ⟨rfl, rfl⟩)
  dsimp only
  split
  · exact hupd.trans (State.judgeKeeps_setPairState _ _)
  · exact hupd
/-- Of PAIR's own state the end of a comparison leaves the join as it is. -/
def PairSt.joinOf (p : PairSt) : Nat × Option Nat × NMap Nat := (p.joined, p.joinFailed, p.joinOk)
theorem State.judgeKeeps_digestApart (s : State) (line tiles b v : Nat) :
    s.judgeKeeps (s.digestApart line tiles b v) ∧ (s.digestApart line tiles b v).pair.joinOf = s.pair.joinOf := by
  have hshown : s.judgeKeeps (s.digestShown line tiles b v) := by
    unfold State.digestShown
    exact (((((s.judgeKeeps_set _ _ ⟨by decide, by decide⟩).trans (State.judgeKeeps_set _ _ _ ⟨by decide, by decide⟩)).trans
      (State.judgeKeeps_set _ _ _ ⟨by decide, by decide⟩)).trans (State.judgeKeeps_set _ _ _ ⟨by decide, by decide⟩)).trans
      (State.judgeKeeps_set _ _ _ ⟨by decide, by decide⟩)).trans (State.judgeKeeps_cause _ _ _)
  have hshownP : (s.digestShown line tiles b v).pair = s.pair := by
    obtain ⟨r, w, hrep⟩ : s.reports (s.digestShown line tiles b v) := (((((s.reports_set _ _ _).trans (State.reports_set _ _ _ _)).trans
      (State.reports_set _ _ _ _)).trans (State.reports_set _ _ _ _)).trans (State.reports_incSat _ _ _)).trans (State.reports_cause _ _ _)
    rw [hrep]
  unfold State.digestApart State.digestNoted
  dsimp only
  generalize s.digestShown line tiles b v = x at hshown hshownP ⊢
  have herr : s.judgeKeeps (if v = 0 then x else x.err pPAIR 0x71 v line b) ∧
      (if v = 0 then x else x.err pPAIR 0x71 v line b).pair = s.pair := by
    split
    · exact ⟨hshown, hshownP⟩
    · obtain ⟨r, w, hrep⟩ := x.reports_err pPAIR 0x71 v line b 0
      exact ⟨hshown.trans (x.judgeKeeps_err _ _ _ _ _ _), by rw [hrep]; exact hshownP⟩
  generalize (if v = 0 then x else x.err pPAIR 0x71 v line b) = y at herr ⊢
  have hdiv : s.judgeKeeps (if v = 2 || v = 3 then y.updPair fun p => { p with diverged := true } else y) ∧
      (if v = 2 || v = 3 then y.updPair fun p => { p with diverged := true } else y).pair.joinOf = s.pair.joinOf := by
    split
    · refine ⟨State.judgeKeeps.thenPair herr.1 (by exact fun _ => ⟨rfl, rfl⟩), ?_⟩
      rw [← herr.2]
      rfl
    · exact ⟨herr.1, by rw [herr.2]⟩
  generalize (if v = 2 || v = 3 then y.updPair fun p => { p with diverged := true } else y) = z at hdiv ⊢
  obtain ⟨-, -, -, -, r, g, w, hreset⟩ := z.runReset_any b
  have hz : (z.runReset b).pair.joinOf = s.pair.joinOf := by
    rw [hreset, ← hdiv.2]
    rfl
  split
  · obtain ⟨m, g', gu, rn, -, hpair⟩ := (z.runReset b).pairCause_pair 7 0x71 b
    refine ⟨(hdiv.1.trans (z.judgeKeeps_runReset b)).trans (State.judgeKeeps_pairCause _ _ _ _), ?_⟩
    rw [hpair, ← hz]
    rfl
  · exact ⟨hdiv.1.trans (z.judgeKeeps_runReset b), hz⟩
theorem State.pairRun_congr {s t : State} (hw : t.working = s.working) (hr : t.pair.runs = s.pair.runs)
    (hp : t.pair.peerBars = s.pair.peerBars) : t.pairRun = s.pairRun := by
  have hboth : t.bothRun = s.bothRun := by
    funext b
    rw [State.bothRun, State.lineRuns, hw, hp]
    rfl
  rw [State.pairRun, State.pairRun, hboth, hr]
theorem State.working_setPairState (s : State) (v : Nat) (hp : s.straps.pairEn = true) (hv : v < 8) :
    (s.setPairState v).working = s.working := by
  obtain ⟨-, r, g, w, hset⟩ := State.pairState_setPairState hp hv
  have hget := fun {f : Fld} h1 h2 p => (s.regsBut_setPairState v).field (f := f)
    (by simp only [List.forall_mem_cons]; exact ⟨h1, h2, by simp⟩) p
  refine State.working_congr (by rw [hset]) (by rw [hset]) ?_
  simp only [List.forall_mem_cons, List.not_mem_nil, false_imp_iff, implies_true, and_true]
  exact ⟨hget (by decide) (by decide), hget (by decide) (by decide), hget (by decide) (by decide)⟩
/-- What a line of equal digests leaves (R242). -/
theorem State.digestEqual_spec {s : State} (hp : s.straps.pairEn = true) (b : Nat) {t : State} (ht : s.digestEqual b = t) :
    t.pair.runs.getD b 0 = s.pair.runs.getD b 0 + (if s.pairState = 5 ∨ s.pairState = 6 then 1 else 0) ∧
    t.pairState = (if s.pairState = 5 ∧ max 1 (s.get pPAIR R.PAIR_RUNLEN) ≤ t.pairRun ∧ s.flag pPAIR R.PAIR_CTRL_AUTORET = true then 6
      else s.pairState) ∧
    s.regsBut t [(pPAIR, R.PAIR_STAT_STATE), (pPAIR, R.PG_IRQ_RAW)] ∧ s.judgeKeeps t ∧ t.pair.joinOf = s.pair.joinOf := by
  have hstay : ∀ y : State, y.regs = s.regs → y.straps = s.straps → y.pairState = s.pairState := fun y hr hs =>
    State.pairState_congr hs (State.get_congr hr _ _)
  unfold State.digestEqual at ht
  by_cases h56 : s.pairState = 5 ∨ s.pairState = 6
  · rw [if_pos (by simpa using h56)] at ht
    rw [if_pos h56]
    have hruns : (s.updPair fun p => { p with runs := p.runs.put b (p.runs.getD b 0 + 1) }).pair.runs.getD b 0 =
        s.pair.runs.getD b 0 + 1 := NMap.getD_put_self _ _ _ _
    have hkeep : s.judgeKeeps (s.updPair fun p => { p with runs := p.runs.put b (p.runs.getD b 0 + 1) }) :=
      s.judgeKeeps_updPair (by exact fun _ => ⟨rfl, rfl⟩)
    have hx : ∃ m, (s.updPair fun p => { p with runs := p.runs.put b (p.runs.getD b 0 + 1) }) =
        { s with pair := { s.pair with runs := m } } := ⟨_, rfl⟩
    dsimp only at ht
    generalize (s.updPair fun p => { p with runs := p.runs.put b (p.runs.getD b 0 + 1) }) = x at hruns hkeep hx ht
    obtain ⟨m, hx⟩ := hx
    have hxst : x.pairState = s.pairState := hstay x (by rw [hx]) (by rw [hx])
    have hxr : x.regs = s.regs := by rw [hx]
    have hxj : x.pair.joinOf = s.pair.joinOf := by rw [hx]; rfl
    rw [hxst, State.get_congr hxr] at ht
    have hauto : (x.updPair fun p => { p with diverged := false }).flag pPAIR R.PAIR_CTRL_AUTORET = s.flag pPAIR R.PAIR_CTRL_AUTORET :=
      congrArg (· == 1) (State.get_congr hxr _ _)
    rw [hauto] at ht
    have hxbut : s.regsBut x [(pPAIR, R.PAIR_STAT_STATE), (pPAIR, R.PG_IRQ_RAW)] := State.regsBut_of_regs (State.regsBut_refl _ _) hxr
    by_cases hlong : s.pairState = 5 ∧ max 1 (s.get pPAIR R.PAIR_RUNLEN) ≤ x.pairRun
    · rw [if_pos (by simpa using hlong)] at ht
      have hy : s.judgeKeeps (x.updPair fun p => { p with diverged := false }) := hkeep.thenPair (by exact fun _ => ⟨rfl, rfl⟩)
      by_cases ha : s.flag pPAIR R.PAIR_CTRL_AUTORET = true
      · rw [if_pos ha] at ht
        generalize State.tick _ + msTicks _ = until_ at ht
        obtain ⟨z, hz⟩ : ∃ z, z = (x.updPair fun p => { p with diverged := false }).updPair fun p => { p with holdUntil := until_ } := ⟨_, rfl⟩
        rw [← hz] at ht
        have hzk : s.judgeKeeps z := by
          rw [hz]
          exact hy.thenPair (by exact fun _ => ⟨rfl, rfl⟩)
        have hzr : z.regs = s.regs := by rw [hz, ← hxr]; rfl
        have hzp : z.straps.pairEn = true := by rw [hzk.straps]; exact hp
        have hzf : z.pair.runs = x.pair.runs ∧ z.pair.peerBars = x.pair.peerBars ∧ z.working = x.working ∧
            z.pair.joinOf = x.pair.joinOf := by rw [hz]; exact ⟨rfl, rfl, rfl, rfl⟩
        clear hz
        obtain ⟨hst, r, g, w, hset⟩ := State.pairState_setPairState hzp (v := 6) (by decide)
        have hrun : (z.setPairState 6).pairRun = x.pairRun := State.pairRun_congr
          ((z.working_setPairState 6 hzp (by decide)).trans hzf.2.2.1) (by rw [hset]; exact hzf.1) (by rw [hset]; exact hzf.2.1)
        have hbut := State.regsBut_trans (State.regsBut_of_regs (State.regsBut_refl s
          [(pPAIR, R.PAIR_STAT_STATE), (pPAIR, R.PG_IRQ_RAW)]) hzr) (z.regsBut_setPairState 6)
        have hk := hzk.trans (z.judgeKeeps_setPairState 6)
        subst ht
        refine ⟨by rw [hset]; exact (congrArg (·.getD b 0) hzf.1).trans hruns, ?_, hbut, hk, ?_⟩
        · rw [hst, hrun, if_pos ⟨hlong.1, hlong.2, ha⟩]
        · rw [hset, ← hxj, ← hzf.2.2.2]
          rfl
      · rw [if_neg ha] at ht
        subst ht
        refine ⟨hruns, ?_, hxbut, hy, hxj⟩
        rw [if_neg (fun h => ha h.2.2)]
        exact hxst
    · rw [if_neg (by simpa using hlong)] at ht
      subst ht
      refine ⟨hruns, ?_, hxbut, hkeep, hxj⟩
      rw [hxst, if_neg (fun h => hlong ⟨h.1, h.2.1⟩)]
  · rw [if_neg (by simpa using h56)] at ht
    rw [if_neg h56]
    subst ht
    exact ⟨rfl, by rw [if_neg (fun h => h56 (Or.inl h.1))], State.regsBut_refl _ _, s.judgeKeeps_refl, rfl⟩
/-- A line in step counts for a bar that joins, and the last of 64 on each completes the join (R234). -/
theorem State.joinCounted_spec {s : State} (hp : s.straps.pairEn = true) (h3 : s.pairState = 3) (b : Nat) {t : State}
    (ht : s.joinCounted b = t) {full : Prop}
    (hfull : full ↔ ∀ i < 8, bit s.pair.joined i = true → 64 ≤ s.pair.joinOk.getD i 0 + (if i = b then 1 else 0)) :
    t.pair.joinOk.getD b 0 = s.pair.joinOk.getD b 0 + 1 ∧ t.straps.pairEn = true ∧ (¬ full → t.pairState = 3) ∧
    (full → t.pairState = if s.causeMask = 0 then 5 else 4) := by
  unfold State.joinCounted at ht
  have hok : ∀ i, (s.pair.joinOk.put b (s.pair.joinOk.getD b 0 + 1)).getD i 0 = s.pair.joinOk.getD i 0 + (if i = b then 1 else 0) := fun i => by
    by_cases hi : i = b
    · rw [hi, NMap.getD_put_self, if_pos rfl]
    · rw [NMap.getD_put_other _ _ _ hi, if_neg hi, Nat.add_zero]
  have hall : ((List.range 8).all fun i => !bit s.pair.joined i ||
      64 ≤ (s.pair.joinOk.put b (s.pair.joinOk.getD b 0 + 1)).getD i 0) = true ↔ full := by
    rw [hfull, List.all_eq_true]
    simp only [hok, List.mem_range, Bool.or_eq_true, Bool.not_eq_true', decide_eq_true_eq]
    refine forall₂_congr fun i _ => ?_
    cases bit s.pair.joined i <;> simp
  dsimp only at ht
  change (if ((List.range 8).all fun i => !bit s.pair.joined i ||
      64 ≤ (s.pair.joinOk.put b (s.pair.joinOk.getD b 0 + 1)).getD i 0) = true then _ else _) = t at ht
  by_cases hf : full
  · rw [if_pos (hall.mpr hf)] at ht
    have hmask : (s.updPair fun p => { p with joinOk := p.joinOk.put b (p.joinOk.getD b 0 + 1) }).causeMask = s.causeMask := rfl
    rw [hmask] at ht
    have hv : (if s.causeMask = 0 then 5 else 4) < 8 := by split <;> decide
    generalize (if s.causeMask = 0 then 5 else 4) = v at hv ht ⊢
    obtain ⟨hst, r, g, w, hset⟩ := State.pairState_setPairState (s := (s.updPair fun p => { p with
      joinOk := p.joinOk.put b (p.joinOk.getD b 0 + 1) }).updPair fun p => { p with runs := [] }) hp hv
    subst ht
    exact ⟨by rw [hset]; exact (hok b).trans (by rw [if_pos rfl]), by rw [hset]; exact hp, fun hn => absurd hf hn, fun _ => hst⟩
  · rw [if_neg (fun h => hf (hall.mp h))] at ht
    subst ht
    exact ⟨(hok b).trans (by rw [if_pos rfl]), hp, fun _ => h3, fun h => absurd h hf⟩
theorem State.judgeKeeps_judgeDigest {s : State} (hp : s.straps.pairEn = true) (own peer : DigSt) :
    s.judgeKeeps (s.judgeDigest own peer) ∧ (s.judgeDigest own peer).pair.joinOf = s.pair.joinOf := by
  rw [State.judgeDigest_eq]
  split
  · obtain ⟨-, -, -, h1, h2⟩ := State.digestEqual_spec hp own.bar rfl
    exact ⟨h1, h2⟩
  · exact s.judgeKeeps_digestApart _ _ _ _

/-! ### DIGEST and DIGEST_TIMEOUT -/

/-- What DIGEST does once it is heard (R240). -/
def State.digestHeard (s : State) (b : Bar) (ok undr segblk : Bool) (line tbnd wsrc : W32) (digs : List W32) : State :=
  (s.updPair fun p => { p with peerBars := setBit p.peerBars b true, peer := p.peer ++ [{
    bar := b, line := line.toNat, ok := ok, undr := undr, segblk := segblk, tBnd := tbnd.toNat, wsrc := wsrc.toNat,
    digs := digs.map (·.toNat), at_ := s.tick }] }).compareDigests b line.toNat
theorem exec_digest {s : State} {hd : CrookHdr} (h : s.hears hd) (b : Bar) (ok undr segblk : Bool) (line tbnd wsrc : W32) (digs : List W32) :
    exec (.digest hd b ok undr segblk line tbnd wsrc digs) s = .next ((s.noted hd).digestHeard b ok undr segblk line tbnd wsrc digs) :=
  congrArg _ (State.crookMsg_heard h fun s => s.digestHeard b ok undr segblk line tbnd wsrc digs)
/-- The digests held once the pair of a bar and line has been taken. -/
def State.digestsTaken (s : State) (b line : Nat) : State :=
  let f := fun (d : DigSt) => d.bar == b && d.line == line
  s.updPair fun p => { p with own := p.own.filter (!f ·), peer := p.peer.filter (!f ·) }
theorem State.compareDigests_none {s : State} {b line : Nat} (h : s.pair.own.find? (fun d => d.bar == b && d.line == line) = none) :
    s.compareDigests b line = s := by
  unfold State.compareDigests
  dsimp only
  rw [h]
theorem State.compareDigests_both {s : State} {b line : Nat} {d q : DigSt}
    (hd : s.pair.own.find? (fun d => d.bar == b && d.line == line) = some d)
    (hq : s.pair.peer.find? (fun d => d.bar == b && d.line == line) = some q) :
    s.compareDigests b line = ((s.digestsTaken b line).judgeSkew b d q).judgeDigest d q := by
  unfold State.compareDigests
  dsimp only
  rw [hd, hq]
  rfl
/-- The digests held once those of a bar and line whose counterpart has not come in time are gone (R240). -/
def State.digestsExpired (s : State) (b line : Nat) : State :=
  let f := fun (d : DigSt) => d.bar == b && d.line == line && d.at_ + s.pairTmo ≤ s.tick
  s.updPair fun p => { p with own := p.own.filter (!f ·), peer := p.peer.filter (!f ·) }
theorem exec_digestTimeout (s : State) (b : Bar) (line : W32) : exec (.digestTimeout b line) s = .next (
    if s.pair.own.any (fun d => d.bar == b.val && d.line == line.toNat && decide (d.at_ + s.pairTmo ≤ s.tick)) then
      ((((s.digestsExpired b line.toNat).peerStops b line.toNat).incSat pPAIR R.PAIR_MISS_CNT).err pPAIR 0x71 7 line.toNat b).runReset b
    else s.digestsExpired b line.toNat) := rfl
theorem State.peerStops_expired (s : State) (b line : Nat) : (s.digestsExpired b line).peerStops b line = { s with
    pair := { s.pair with
      own := s.pair.own.filter (!(fun (d : DigSt) => d.bar == b && d.line == line && decide (d.at_ + s.pairTmo ≤ s.tick)) ·)
      peer := s.pair.peer.filter (!(fun (d : DigSt) => d.bar == b && d.line == line && decide (d.at_ + s.pairTmo ≤ s.tick)) ·)
      peerBars := if s.crookUp = true ∧ diff32 (s.peerLine b) line < 0 then setBit s.pair.peerBars b false else s.pair.peerBars } } := by
  have hup : (s.digestsExpired b line).crookUp = s.crookUp := rfl
  have hline : (s.digestsExpired b line).peerLine b = s.peerLine b := rfl
  unfold State.peerStops
  rw [hup, hline]
  by_cases h : s.crookUp = true ∧ diff32 (s.peerLine b) line < 0
  · rw [if_pos (by simp [h]), if_pos h]
    rfl
  · rw [if_neg (by simpa using h), if_neg h]
    rfl
theorem State.heardBy.digests {s u : State} (H : s.heardBy u) : u.pair.own = s.pair.own ∧ u.pair.peer = s.pair.peer ∧
    u.pair.runs = s.pair.runs ∧ u.pair.skewRuns = s.pair.skewRuns ∧ u.pair.giving = s.pair.giving := by
  obtain ⟨r, c, w, o, a, x, g, n, hu⟩ := H.shape
  rw [hu]
  exact ⟨rfl, rfl, rfl, rfl, rfl⟩
theorem State.heardBy.causeMask {s u v : State} (H : s.heardBy u) (hr : ∀ {f : Fld}, f.id ≠ R.PAIR_SKEW_LAST.id → ∀ p, v.get p f = u.get p f)
    (hl : v.line = u.line) (hn : v.lane = u.lane) (hp : v.pair.cause0 = u.pair.cause0 ∧ v.pair.pllLost = u.pair.pllLost) :
    v.causeMask = s.causeMask := by
  have hper : v.persists = s.persists := by
    funext c
    obtain ⟨r, c', w, o, a, x, g, n, hu⟩ := H.shape
    refine State.persists_congr ?_ (by rw [hl, hu]) (by rw [hn, hu]) (by rw [hp.1, hp.2, hu]; exact ⟨rfl, rfl⟩) c
    simp only [List.forall_mem_cons]
    exact ⟨fun p => (hr (by decide) p).trans (H.get (by decide) (by decide) p),
      fun p => (hr (by decide) p).trans (H.get (by decide) (by decide) p),
      fun p => (hr (by decide) p).trans (H.get (by decide) (by decide) p), by simp⟩
  rw [State.causeMask, hper]
  rfl
theorem uns_lt (w : Nat) (v : Int) : uns w v < 2 ^ w := by
  have h := uns_cast w v
  have hpos : (0 : Int) < 2 ^ w := by positivity
  have hlt := Int.emod_lt_of_pos v hpos
  rw [← h] at hlt
  exact_mod_cast hlt
theorem sameMemory_of_hold {s t : State} (h : t.hold = s.hold) : s.sameMemory t := by
  simp only [State.hold, Prod.mk.injEq] at h
  obtain ⟨h1, h2, h3, h4, h5⟩ := h
  exact ⟨h1, h2, h3, h4, h5⟩
/-- The digests of a bar and line, as both units hold them, before they are judged: the state x that the skew is noted in. -/
theorem State.digestHeard_both {s u : State} (H : s.heardBy u) {b : Bar} {ok undr segblk : Bool} {line tbnd wsrc : W32} {digs : List W32}
    {d q : DigSt} (hq : q = ⟨b, line.toNat, ok, undr, segblk, tbnd.toNat, wsrc.toNat, digs.map (·.toNat), s.tick⟩)
    (hd : s.pair.own.find? (fun e => e.bar == b.val && e.line == line.toNat) = some d)
    (hnew : ∀ e ∈ s.pair.peer, e.bar ≠ b.val ∨ e.line ≠ line.toNat) :
    ∃ x : State, u.digestHeard b ok undr segblk line tbnd wsrc digs =
      (x.skewJudged b (s.skewBad (s.skew d q)) (s.skewRun b (s.skewBad (s.skew d q)))).judgeDigest d q ∧
      x.get pPAIR R.PAIR_SKEW_LAST = uns 16 (s.skew d q) ∧
      u.regsBut x [(pPAIR, R.PAIR_SKEW_LAST)] ∧
      (∀ e ∈ x.pair.own ++ x.pair.peer, e.bar ≠ b.val ∨ e.line ≠ line.toNat) ∧
      ∃ r o p k m, x = { u with regs := r, pair := { u.pair with own := o, peer := p, peerBars := k, skewRuns := m } } := by
  obtain ⟨hown, hpeer, -, hskew, -⟩ := H.digests
  have hv : ∃ v, v = u.updPair fun p => { p with peerBars := setBit p.peerBars b true, peer := p.peer ++ [q] } := ⟨_, rfl⟩
  obtain ⟨v, hv⟩ := hv
  have hheard : u.digestHeard b ok undr segblk line tbnd wsrc digs = v.compareDigests b line.toNat := by
    rw [hv, hq, ← H.kept.1]
    rfl
  have hvo : v.pair.own = s.pair.own := by rw [hv]; exact hown
  have hvp : v.pair.peer = s.pair.peer ++ [q] := by rw [hv, ← hpeer]; rfl
  have hfind : v.pair.peer.find? (fun e => e.bar == b.val && e.line == line.toNat) = some q := by
    rw [hvp, List.find?_append, List.find?_eq_none.mpr fun e he => by
      have := hnew e he
      simpa [← not_and_or] using this]
    rw [hq]
    simp
  rw [hheard, State.compareDigests_both (hvo ▸ hd) hfind, State.judgeSkew_eq]
  have hw : ∃ w, w = v.digestsTaken b line.toNat := ⟨_, rfl⟩
  obtain ⟨w, hw⟩ := hw
  rw [← hw]
  have hvsh : ∃ p k, v = { u with pair := { u.pair with peer := p, peerBars := k } } := ⟨_, _, hv⟩
  obtain ⟨p, k, hvsh⟩ := hvsh
  have hwsh : ∃ o p, w = { v with pair := { v.pair with own := o, peer := p } } := ⟨_, _, hw⟩
  obtain ⟨o', p', hwsh⟩ := hwsh
  rw [hvsh] at hwsh
  have hreg : w.regs = u.regs := by rw [hwsh]
  have hk : w.skew d q = s.skew d q := by
    unfold State.skew State.get64
    rw [State.get_congr hreg, State.get_congr hreg, H.get (by decide) (by decide), H.get (by decide) (by decide)]
  have hbad : w.skewBad (s.skew d q) = s.skewBad (s.skew d q) := by
    unfold State.skewBad
    rw [State.get_congr hreg, H.get (by decide) (by decide)]
  have hrun : ∀ bad, w.skewRun b bad = s.skewRun b bad := fun bad => by
    rw [State.skewRun, State.skewRun, ← hskew, hwsh]
  dsimp only
  rw [hk, hbad, hrun]
  generalize s.skew d q = k
  generalize s.skewRun b (s.skewBad k) = n
  refine ⟨w.skewNoted b k n, rfl, ?_, ?_, fun e he => ?_, ?_⟩
  · exact (w.get_set_self _ _ _).trans (Nat.mod_eq_of_lt (uns_lt 16 k))
  · have hset : w.regsBut (w.skewNoted b k n) [(pPAIR, R.PAIR_SKEW_LAST)] := fun q' g hq' => 
      w.get_set_ne _ (hq' (pPAIR, R.PAIR_SKEW_LAST) (by simp))
    exact State.regsBut_trans (State.regsBut_of_regs (State.regsBut_refl _ _) hreg) hset
  · have hpair : (w.skewNoted b k n).pair.own = w.pair.own ∧ (w.skewNoted b k n).pair.peer = w.pair.peer := ⟨rfl, rfl⟩
    rw [hpair.1, hpair.2, hw] at he
    have : e ∈ v.pair.own.filter (fun d => !(d.bar == b.val && d.line == line.toNat)) ++
        v.pair.peer.filter (fun d => !(d.bar == b.val && d.line == line.toNat)) := he
    rw [← List.filter_append, List.mem_filter] at this
    simpa [← not_and_or] using this.2
  · obtain ⟨r, m, hsh⟩ := w.skewNoted_shape b k n
    rw [hsh, hwsh]
    exact ⟨r, _, _, _, m, rfl⟩
theorem State.skewJudged_stays {s : State} {b n : Nat} {bad : Bool} (h3 : s.pairState ≠ 3)
    (hn : ¬ max 1 (s.get pPAIR R.PAIR_SKEW_N) ≤ n) : s.skewJudged b bad n = s := by
  unfold State.skewJudged
  rw [if_neg h3, if_neg hn]

/-- Settles O46: DIGEST by `digestHeard_both`, then the skew and the tiles in turn; the timeout by `runReset_any`. -/
theorem digestsAreCompared : Obligations.DigestsAreCompared := by
  unfold Obligations.DigestsAreCompared
  refine ⟨?_, ?_⟩
  · rintro s hd b ok undr segblk line tbnd wsrc digs u q hh hu hq
    have H : s.heardBy u := hu ▸ hh.heardBy
    obtain ⟨hown, hpeer, hruns, hskew, hgiving⟩ := H.digests
    obtain ⟨hjoined, hjfail, -, -, hjok⟩ := H.joins
    rw [exec_digest hh, ← hu]
    clear hu
    refine ⟨fun hnone => ?_, fun d bad last eq hd hnew hbad hlast heq => ?_⟩
    · unfold State.digestHeard
      rw [State.compareDigests_none (by exact (congrArg (List.find? _) hown).trans hnone)]
      refine ⟨_, rfl, ?_, rfl⟩
      rw [hq, ← hpeer, ← H.kept.1, ← H.pair.2.2.2.2.1]
      rfl
    · obtain ⟨x, hx, hlastx, hxbut, hrest, r, o, p, k, m, hshape⟩ := State.digestHeard_both H hq hd hnew
      have hhold : (u.digestHeard b ok undr segblk line tbnd wsrc digs).hold = u.hold := by
        rw [State.digestHeard, State.compareDigests_hold, State.updPair_hold]
      rw [hx]
      have hbar : d.bar = b.val ∧ d.line = line.toNat := by simpa using List.find?_some hd
      have hB : s.skewBad (s.skew d q) = true ↔ bad := by rw [hbad, State.skewBad, decide_eq_true_iff]
      have hget : ∀ {f : Fld}, f.id ≠ R.PAIR_SKEW_LAST.id → ∀ p, x.get p f = u.get p f := fun hf p =>
        hxbut.field (by simpa using hf) p
      have hxreg : ∀ {f : Fld}, f.id ≠ R.PAIR_SKEW_LAST.id → f.id ≠ R.PAIR_RETRY_CNT.id → f.id ≠ R.PG_IRQ_RAW.id → ∀ p,
          x.get p f = s.get p f := fun h1 h2 h3 p => (hget h1 p).trans (H.get h2 h3 p)
      have hxs : x.straps = s.straps := by rw [hshape]; exact H.straps
      have hxp : x.straps.pairEn = true := by rw [hshape]; exact H.pairEn
      have hxst : x.pairState = s.pairState := State.pairState_congr hxs (hxreg (by decide) (by decide) (by decide) _)
      have hxwork : x.working = u.working := State.working_congr (by rw [hshape]) (by rw [hshape]) (by
        simp only [List.forall_mem_cons, List.not_mem_nil, false_imp_iff, implies_true, and_true]
        exact ⟨hget (by decide), hget (by decide), hget (by decide)⟩)
      have hxon : x.pairOn = true := by
        rw [State.pairOn, hxwork, hshape]
        exact H.on
      have hxup : x.pair.up = true := by rw [hshape]; exact H.pair.2.2.2.2.2
      have hxruns : x.pair.runs = s.pair.runs := by rw [hshape, ← hruns]
      have hxgiving : x.pair.giving = s.pair.giving := by rw [hshape, ← hgiving]
      have hxjoined : x.pair.joined = s.pair.joined := by rw [hshape, ← hjoined]
      have hxok : x.pair.joinOk = s.pair.joinOk := by rw [hshape, ← hjok]
      have hxtick : x.tick = s.tick := by rw [hshape]; exact H.kept.1
      have hxmask : x.causeMask = s.causeMask := H.causeMask hget (by rw [hshape]) (by rw [hshape]) (by rw [hshape]; exact ⟨rfl, rfl⟩)
      have hum : u.hold = s.hold := by
        obtain ⟨m1, m2, m3, m4, m5⟩ := H.rest.2.2.2.1
        simp only [State.hold, m1, m2, m3, m4, m5]
      have hstay : s.pairState ≠ 3 → ¬ last → x.skewJudged b (s.skewBad (s.skew d q)) (s.skewRun b (s.skewBad (s.skew d q))) = x :=
        fun h3 hl => by
          refine State.skewJudged_stays (by rw [hxst]; exact h3) fun hn => ?_
          rw [hxreg (by decide) (by decide) (by decide), State.skewRun] at hn
          by_cases hb : s.skewBad (s.skew d q) = true
          · rw [if_pos hb] at hn
            exact hl (hlast.mpr ⟨hB.mp hb, hn⟩)
          · rw [if_neg hb] at hn
            omega
      have hapart := tilesApart_spec d q
      have heq0 : tilesApart d q = 0 ↔ eq := hapart.2.2.trans heq.symm
      have hjk := State.judgeKeeps_skewJudged hxp b (s.skewBad (s.skew d q)) (s.skewRun b (s.skewBad (s.skew d q)))
      rw [hx] at hhold
      generalize hJ : x.skewJudged b (s.skewBad (s.skew d q)) (s.skewRun b (s.skewBad (s.skew d q))) = J at hstay hjk hhold ⊢
      have hJp : J.straps.pairEn = true := by rw [hjk.straps]; exact hxp
      obtain ⟨hdk, hdj⟩ := State.judgeKeeps_judgeDigest hJp d q
      have hk := hjk.trans hdk
      refine ⟨_, rfl, hk.skew.trans hlastx, sameMemory_of_hold (hhold.trans hum), by rw [hk.held.1, hk.held.2]; exact hrest,
        fun h3 hl he => ?_, fun h3 hl he v hv => ?_, fun h4 h6 hl he => ?_, fun h3 hj hb he full hfull => ?_, fun h3 hj hb => ?_⟩
      · rw [hstay h3 hl, State.judgeDigest_eq, if_pos (heq0.mpr he), hbar.1]
        obtain ⟨k1, k2, k3, -, -⟩ := State.digestEqual_spec hxp b.val rfl
        rw [hxruns, hxst] at k1
        rw [hxst, hxreg (by decide) (by decide) (by decide), State.flag, hxreg (by decide) (by decide) (by decide)] at k2
        refine ⟨k1, k2, State.regsBut_trans (State.regsBut_mono hxbut (by simp)) (State.regsBut_mono k3 (by simp))⟩
      · rw [hstay h3 hl, State.judgeDigest_eq, if_neg (fun h => he (heq0.mp h)), hbar.1, hbar.2]
        obtain ⟨k1, k2, k3, k4, k5, k6, k7, k8, k9⟩ := State.digestApart_spec hxon hxup line.toNat (tilesApart d q) b.val
          (verdict d q) rfl
        have hvd : verdict d q = v := by
          rw [hv, hq]
          unfold verdict
          cases d.ok <;> cases ok <;> simp
        have hvlt : v < 8 := by
          rw [hv]
          split_ifs <;> decide
        rw [hvd] at k1 k2 k3 k4 k5 k6 k7 k8 k9 ⊢
        rw [hxreg (by decide) (by decide) (by decide)] at k1
        rw [hxst] at k8
        refine ⟨k1, k2.trans (Nat.mod_eq_of_lt line.isLt), k4.trans (Nat.mod_eq_of_lt b.isLt), k5.trans (Nat.mod_eq_of_lt hvlt),
          fun i hi => ?_, k6, k7, k8, fun h1 h7 hg hp7 => ?_⟩
        · rw [k3, Nat.mod_eq_of_lt hapart.1]
          exact hapart.2.1 i hi
        · obtain ⟨g1, g2, g3, g4, g5⟩ := k9 h1 (hxst.trans h7) (hxgiving.trans hg)
            ((hxreg (by decide) (by decide) (by decide) _).trans hp7)
          rw [hget (by decide)] at g1
          rw [State.runningBars_congr hxwork] at g4 g5
          exact ⟨g1, g2, g3, g4, g5⟩
      · have h3 : ¬ x.pairState = 3 := by rw [hxst]; omega
        obtain ⟨hb, hN⟩ := hlast.mp hl
        have hlost : J = (x.updPair fun p => { p with skewRuns := p.skewRuns.put b 0 }).skewLost := by
          rw [← hJ, State.skewJudged, if_neg h3, if_pos]
          · dsimp only
            have hst' : (x.updPair fun p => { p with skewRuns := p.skewRuns.put b 0 }).pairState = s.pairState := hxst
            rw [hst', if_neg (by omega), if_pos (by simp [h4, h6])]
          · rw [hxreg (by decide) (by decide) (by decide), State.skewRun, if_pos (hB.mpr hb)]
            exact hN
        obtain ⟨-, hl3, hl0, hloff⟩ := State.judgeKeeps_skewLost (s := x.updPair fun p => { p with skewRuns := p.skewRuns.put b 0 }) hxp
        rw [← hlost] at hl3 hl0 hloff
        rw [State.judgeDigest_eq, if_pos (heq0.mpr he)]
        obtain ⟨-, k2, -, k4, k5⟩ := State.digestEqual_spec hJp d.bar rfl
        rw [hl3, if_neg (fun h => absurd h.1 (by decide))] at k2
        refine ⟨k2, (congrArg (·.1) k5).trans hl0, fun i hi hbit => k4.off _ (hloff i hi ?_)⟩
        rw [← hxjoined] at hbit
        exact hbit
      · have hxj : bit x.pair.joined b = true := by rw [hxjoined]; exact hj
        have hcount : J = x.joinCounted b := by
          rw [← hJ, State.skewJudged, if_pos (hxst.trans h3), if_neg (by simp [hxj]), if_neg (fun h => hb (hB.mp h))]
        obtain ⟨c1, -, c3, c4⟩ := State.joinCounted_spec hxp (hxst.trans h3) b.val rfl (full := full) (by rw [hfull, hxjoined, hxok])
        rw [← hcount, hxok] at c1
        rw [← hcount] at c3 c4
        rw [hxmask] at c4
        rw [State.judgeDigest_eq, if_pos (heq0.mpr he)]
        obtain ⟨-, k2, -, -, k5⟩ := State.digestEqual_spec hJp d.bar rfl
        refine ⟨(congrArg (·.2.2.getD b.val 0) k5).trans c1, fun hn => ?_, fun hf hm => ?_, fun hf hm => ?_⟩
        · rw [k2, c3 hn, if_neg (fun h => absurd h.1 (by decide))]
        · rw [k2, c4 hf, if_neg hm, if_neg (fun h => absurd h.1 (by decide))]
        · rw [k2, c4 hf, if_pos hm]
          split
          · exact Or.inr rfl
          · exact Or.inl rfl
      · have hxj : bit x.pair.joined b = true := by rw [hxjoined]; exact hj
        have hfail : J = x.joinFail := by
          rw [← hJ, State.skewJudged, if_pos (hxst.trans h3), if_neg (by simp [hxj]), if_pos (hB.mpr hb)]
        obtain ⟨-, f1, f2⟩ := x.judgeKeeps_joinFail
        rw [← hfail] at f1 f2
        rw [hxtick] at f2
        exact ⟨(congrArg (·.1) hdj).trans f1, (congrArg (·.2.1) hdj).trans f2⟩
  · rintro s b line f rfl
    rw [exec_digestTimeout]
    refine ⟨fun h => ?_, fun h => ?_⟩
    · rw [if_neg (by rw [h]; decide)]
      exact ⟨_, rfl, rfl, rfl⟩
    · rw [if_pos h]
      obtain ⟨y, hy⟩ : ∃ y, y = (s.digestsExpired b line.toNat).peerStops b line.toNat := ⟨_, rfl⟩
      have hshape := s.peerStops_expired b line.toNat
      rw [← hy] at hshape ⊢
      obtain ⟨o, ho⟩ : ∃ o, o = s.pair.own.filter (!(fun (d : DigSt) => d.bar == b.val && d.line == line.toNat &&
        decide (d.at_ + s.pairTmo ≤ s.tick)) ·) := ⟨_, rfl⟩
      have hyo : y.pair.own = o := by rw [hshape, ho]
      have hyb : y.pair.peerBars = if s.crookUp = true ∧ diff32 (s.peerLine b) line.toNat < 0 then setBit s.pair.peerBars b false
          else s.pair.peerBars := by rw [hshape]
      have hyr : y.regs = s.regs := by rw [hshape]
      have hsh : ∃ q, y = { s with pair := q } := ⟨_, hshape⟩
      rw [← ho]
      clear hy hshape ho
      obtain ⟨q, hsh⟩ := hsh
      obtain ⟨r, w, hrep⟩ := (y.reports_incSat pPAIR R.PAIR_MISS_CNT).trans (State.reports_err _ pPAIR 0x71 7 line.toNat b 0)
      have hcnt : ((y.incSat pPAIR R.PAIR_MISS_CNT).err pPAIR 0x71 7 line.toNat b).get pPAIR R.PAIR_MISS_CNT =
          min (s.get pPAIR R.PAIR_MISS_CNT + 1) (2 ^ R.PAIR_MISS_CNT.w - 1) := by
        rw [State.get_err_field _ _ _ _ _ _ _ (by decide), State.get_incSat_self, State.get_congr hyr]
      have hst : ((y.incSat pPAIR R.PAIR_MISS_CNT).err pPAIR 0x71 7 line.toNat b).pairState = s.pairState := by
        refine State.pairState_congr (by rw [hrep, hsh]) ?_
        rw [State.get_err_field _ _ _ _ _ _ _ (by decide), State.get_incSat_field _ _ (by decide), State.get_congr hyr]
      have hrec : s.fenced pPAIR = false → s.get pPAIR R.PG_ERR_CNT = 0 →
          ((y.incSat pPAIR R.PAIR_MISS_CNT).err pPAIR 0x71 7 line.toNat b).get pPAIR R.PG_ERR_INFO_CODE = 0x71 ∧
          ((y.incSat pPAIR R.PAIR_MISS_CNT).err pPAIR 0x71 7 line.toNat b).get pPAIR R.PG_ERR_INFO_SRC = 7 := fun hf h0 => by
        have hfy : (y.incSat pPAIR R.PAIR_MISS_CNT).frozen pPAIR = false := by
          rw [← State.frozen_of_unfenced hf]
          exact State.frozen_congr ((State.get_incSat_field _ _ (by decide)).trans (State.get_congr hyr _ _))
        exact (State.err_recorded _ hfy 0x71 7 line.toNat b 0).2 (by
          rw [State.get_incSat_field _ _ (by decide), State.get_congr hyr]
          exact h0)
      have hbut : s.regsBut ((y.incSat pPAIR R.PAIR_MISS_CNT).err pPAIR 0x71 7 line.toNat b)
          ([(pPAIR, R.PAIR_MISS_CNT), (pPAIR, R.PAIR_STAT_STATE)] ++ errFields pPAIR) :=
        State.regsBut_err (State.regsBut_incSat (State.regsBut_of_regs (State.regsBut_refl _ _) hyr) (by simp)) _ _ _ _ _ _
          (fun e he => List.mem_append_right _ he)
      generalize (y.incSat pPAIR R.PAIR_MISS_CNT).err pPAIR 0x71 7 line.toNat b = E at hrep hcnt hst hrec hbut ⊢
      obtain ⟨h1, h2, h3, -, r2, g2, w2, hreset⟩ := E.runReset_any b
      have hkeep : ∀ {f : Fld}, f.id ≠ R.PAIR_STAT_STATE.id → f.id ≠ R.PG_IRQ_RAW.id → (E.runReset b).get pPAIR f = E.get pPAIR f :=
        fun h1 h2 => h3.field (by simp only [List.forall_mem_cons]; exact ⟨h1, h2, by simp⟩) _
      refine ⟨_, rfl, by rw [hreset, hrep]; exact hyo, (hkeep (by decide) (by decide)).trans hcnt, fun hf h0 => ?_, h1, by rw [h2, hst],
        by rw [hreset, hrep]; exact hyb, ?_, by rw [hreset, hrep, hsh]⟩
      · rw [hkeep (by decide) (by decide), hkeep (by decide) (by decide)]
        exact hrec hf h0
      · exact State.regsBut_trans hbut (State.regsBut_mono h3 (by simp [errFields]))
end Sys2Proof.Machine
end

section
/-! ### Count updates, serial transfers and position compares (O22) -/
open Sys2Proof Sys2Proof.Machine
namespace Sys2Proof.Machine

/-! ### What an update of a channel may move -/

/-- The registers of a channel that a count update may change. -/
def countFields (p : Nat) : List (Nat × Fld) :=
  [(p, R.POS_CNT), (p, R.POS_EDGE_T), (p, R.POS_TURN), (p, R.POS_SPEED), (p, R.PG_IRQ_RAW)]
/-- Only channel n moves: its count registers, its causes, which do not fall, and its own state. -/
structure State.posMoves (s t : State) (n : Nat) : Prop where
  regs : s.regsBut t (countFields (pPOS n))
  other : ∀ m, m ≠ n → t.posAt m = s.posAt m
  bits : ∀ i < 32, bit (s.get (pPOS n) R.PG_IRQ_RAW) i = true → bit (t.get (pPOS n) R.PG_IRQ_RAW) i = true
  shape : ∃ r ps w, t = { s with regs := r, pos := ps, host := { s.host with waiting := w } }
theorem State.posMoves_refl (s : State) (n : Nat) : s.posMoves s n :=
  ⟨State.regsBut_refl _ _, fun _ _ => rfl, fun _ _ h => h, s.regs, s.pos, s.host.waiting, rfl⟩
theorem State.posMoves.trans {s t u : State} {n : Nat} (h : s.posMoves t n) (k : t.posMoves u n) : s.posMoves u n := by
  refine ⟨State.regsBut_trans h.regs k.regs, fun m hm => (k.other m hm).trans (h.other m hm), fun i hi hb => k.bits i hi (h.bits i hi hb), ?_⟩
  obtain ⟨r, ps, w, rfl⟩ := h.shape
  obtain ⟨r', ps', w', rfl⟩ := k.shape
  exact ⟨r', ps', w', rfl⟩
theorem State.posMoves_set (s : State) (n : Nat) {f : Fld} (v : Nat) (hf : (pPOS n, f) ∈ countFields (pPOS n))
    (hi : R.PG_IRQ_RAW.id ≠ f.id) : s.posMoves (s.set (pPOS n) f v) n :=
  ⟨State.regsBut_set (State.regsBut_refl _ _) _ hf, fun _ _ => rfl, fun i _ hb => by rwa [s.get_set_field _ _ hi], _, s.pos, s.host.waiting,
    rfl⟩
theorem State.posMoves_updPos (s : State) (n : Nat) (g : PosSt → PosSt) : s.posMoves (s.updPos n g) n :=
  ⟨State.regsBut_of_regs (State.regsBut_refl _ _) rfl, fun _ hm => NMap.getD_put_other _ _ _ hm, fun _ _ hb => hb, s.regs, _,
    s.host.waiting, rfl⟩
theorem State.posMoves_cause (s : State) (n i : Nat) : s.posMoves (s.cause (pPOS n) i) n := by
  obtain ⟨r, w, hrep⟩ := s.reports_cause (pPOS n) i
  refine ⟨State.regsBut_cause (State.regsBut_refl _ _) _ (by simp [countFields]), fun _ _ => ?_, fun j hj hb => s.bit_cause_keeps hj hb,
    r, s.pos, w, hrep⟩
  rw [hrep]
  rfl
theorem State.posAt_updPos (s : State) (n : Nat) (g : PosSt → PosSt) : (s.updPos n g).posAt n = g (s.posAt n) :=
  NMap.getD_put_self _ _ _ _
theorem State.posAt_cause (s : State) (p i : Nat) : (s.cause p i).posAt = s.posAt := by
  obtain ⟨r, w, hrep⟩ := s.reports_cause p i
  rw [hrep]
  rfl
section
variable {s t : State} {n : Nat} (h : s.posMoves t n)
include h
theorem State.posMoves.get {f : Fld} (hf : ∀ e ∈ countFields 0, f.id ≠ e.2.id) (q : Nat) : t.get q f = s.get q f :=
  h.regs.field (fun e he => by
    simp only [countFields, List.mem_cons, List.not_mem_nil, or_false] at he
    rcases he with rfl | rfl | rfl | rfl | rfl <;> exact hf (0, _) (by simp [countFields])) q
theorem State.posMoves.frozen : t.frozen (pPOS n) = s.frozen (pPOS n) := State.frozen_congr (h.get (by decide) _)
theorem State.posMoves.page {q : Nat} (hq : q ≠ pPOS n) (f : Fld) : t.get q f = s.get q f :=
  h.regs q f fun e he => Or.inl (by
    simp only [countFields, List.mem_cons, List.not_mem_nil, or_false] at he
    rcases he with rfl | rfl | rfl | rfl | rfl <;> exact hq)
end

/-! ### Count, turning point and direction (R139, R146) -/

/-- The sign of a direction. -/
def dirSign (x : PosSt) : Int := if x.dir then -1 else 1
/-- A step back by HYST from the turning point turns the direction (R146). -/
def State.turns (s : State) (n : Nat) (d : Int) (c : Nat) : Bool :=
  !(0 < d * dirSign (s.posAt n)) && decide ((max 1 (s.get (pPOS n) R.POS_HYST) : Nat) ≤
    diff32 (s.get (pPOS n) R.POS_TURN) c * dirSign (s.posAt n))
def State.turnStep (s : State) (n : Nat) (d : Int) (c ns : Nat) (rev : Bool) : State :=
  let e := s.get (pPOS n) R.POS_TURN
  let ds := dirSign (s.posAt n)
  let s := (s.set (pPOS n) R.POS_CNT c).set (pPOS n) R.POS_EDGE_T ns
  if 0 < d * ds then (if 0 < diff32 c e * ds then s.set (pPOS n) R.POS_TURN c else s)
  else if rev then
    ((s.set (pPOS n) R.POS_TURN c).updPos n fun x => { x with dir := !x.dir, revSince := true }).cause (pPOS n) 3
  else s
def State.crossings (s : State) (n old c ns : Nat) : State := (s.cmpCross n 0 old c ns).cmpCross n 1 old c ns
def State.lineSteps (s : State) (n : Nat) (d : Int) (c : Nat) : State :=
  let s := s.updPos n fun x => { x with joinSteps := x.joinSteps + d }
  s.each (List.range 8) fun t b => t.lineStep b n d c
theorem State.posUpdate_eq (s : State) (n : Nat) (d : Int) (t ns : Nat) : s.posUpdate n d t ns =
    (let old := s.get (pPOS n) R.POS_CNT
    let c := uns 32 (old + d)
    let rev := s.turns n d c
    let u := ((s.turnStep n d c ns rev).speedRule n d t c rev).crossings n old c ns
    if 10 ≤ n then u else u.lineSteps n d c) := rfl
/-- What the count and its turning point read after an update, and what turns (R139, R146). -/
theorem State.turnStep_spec {s : State} {n : Nat} (hf : s.frozen (pPOS n) = false) (d : Int) (c ns : Nat) (rev : Bool) {t : State}
    (ht : s.turnStep n d c ns rev = t) : s.posMoves t n ∧ t.get (pPOS n) R.POS_CNT = c % 2 ^ 32 ∧
    t.get (pPOS n) R.POS_EDGE_T = ns % 2 ^ 32 ∧ t.get (pPOS n) R.POS_SPEED = s.get (pPOS n) R.POS_SPEED ∧
    (0 < d * dirSign (s.posAt n) → t.posAt n = s.posAt n ∧ t.get (pPOS n) R.POS_TURN =
      if 0 < diff32 c (s.get (pPOS n) R.POS_TURN) * dirSign (s.posAt n) then c % 2 ^ 32 else s.get (pPOS n) R.POS_TURN) ∧
    (¬ 0 < d * dirSign (s.posAt n) → rev = true → t.posAt n = { s.posAt n with dir := !(s.posAt n).dir, revSince := true } ∧
      t.get (pPOS n) R.POS_TURN = c % 2 ^ 32 ∧ bit (t.get (pPOS n) R.PG_IRQ_RAW) 3 = true) ∧
    (¬ 0 < d * dirSign (s.posAt n) → rev = false → t.posAt n = s.posAt n ∧
      t.get (pPOS n) R.POS_TURN = s.get (pPOS n) R.POS_TURN) := by
  unfold State.turnStep at ht
  dsimp only at ht
  have hmove : s.posMoves ((s.set (pPOS n) R.POS_CNT c).set (pPOS n) R.POS_EDGE_T ns) n :=
    (s.posMoves_set n c (by simp [countFields]) (by decide)).trans (State.posMoves_set _ n ns (by simp [countFields]) (by decide))
  have hcnt : ((s.set (pPOS n) R.POS_CNT c).set (pPOS n) R.POS_EDGE_T ns).get (pPOS n) R.POS_CNT = c % 2 ^ 32 :=
    (State.get_set_field _ _ _ (by decide)).trans (s.get_set_self _ _ _)
  have hedge : ((s.set (pPOS n) R.POS_CNT c).set (pPOS n) R.POS_EDGE_T ns).get (pPOS n) R.POS_EDGE_T = ns % 2 ^ 32 :=
    State.get_set_self _ _ _ _
  have hspeed : ((s.set (pPOS n) R.POS_CNT c).set (pPOS n) R.POS_EDGE_T ns).get (pPOS n) R.POS_SPEED = s.get (pPOS n) R.POS_SPEED :=
    (State.get_set_field _ _ _ (by decide)).trans (s.get_set_field _ _ (by decide))
  have hturn : ((s.set (pPOS n) R.POS_CNT c).set (pPOS n) R.POS_EDGE_T ns).get (pPOS n) R.POS_TURN = s.get (pPOS n) R.POS_TURN :=
    (State.get_set_field _ _ _ (by decide)).trans (s.get_set_field _ _ (by decide))
  have hpos : ((s.set (pPOS n) R.POS_CNT c).set (pPOS n) R.POS_EDGE_T ns).posAt n = s.posAt n := rfl
  generalize (s.set (pPOS n) R.POS_CNT c).set (pPOS n) R.POS_EDGE_T ns = v at hmove hcnt hedge hspeed hturn hpos ht
  have hset : ∀ {f : Fld}, f.id ≠ R.POS_TURN.id → (v.set (pPOS n) R.POS_TURN c).get (pPOS n) f = v.get (pPOS n) f := fun hf =>
    v.get_set_field _ _ hf
  have hsetT : (v.set (pPOS n) R.POS_TURN c).get (pPOS n) R.POS_TURN = c % 2 ^ 32 := v.get_set_self _ _ _
  have hsetM : s.posMoves (v.set (pPOS n) R.POS_TURN c) n := hmove.trans (v.posMoves_set n c (by simp [countFields]) (by decide))
  by_cases hd : 0 < d * dirSign (s.posAt n)
  · rw [if_pos hd] at ht
    by_cases he : 0 < diff32 c (s.get (pPOS n) R.POS_TURN) * dirSign (s.posAt n)
    · rw [if_pos he] at ht
      rw [if_pos he]
      subst ht
      exact ⟨hsetM, (hset (by decide)).trans hcnt, (hset (by decide)).trans hedge, (hset (by decide)).trans hspeed,
        fun _ => ⟨hpos, hsetT⟩, fun h => absurd hd h, fun h => absurd hd h⟩
    · rw [if_neg he] at ht
      rw [if_neg he]
      subst ht
      exact ⟨hmove, hcnt, hedge, hspeed, fun _ => ⟨hpos, hturn⟩, fun h => absurd hd h, fun h => absurd hd h⟩
  · rw [if_neg hd] at ht
    cases rev with
    | false =>
      rw [if_neg (by decide)] at ht
      subst ht
      exact ⟨hmove, hcnt, hedge, hspeed, fun h => absurd h hd, fun _ h => absurd h (by decide), fun _ _ => ⟨hpos, hturn⟩⟩
    | true =>
      rw [if_pos rfl] at ht
      have hupd : ∀ f, ((v.set (pPOS n) R.POS_TURN c).updPos n fun x => { x with dir := !x.dir, revSince := true }).get (pPOS n) f =
          (v.set (pPOS n) R.POS_TURN c).get (pPOS n) f := fun f => rfl
      have hupdM := hsetM.trans (State.posMoves_updPos _ n fun x => { x with dir := !x.dir, revSince := true })
      have hupdP := State.posAt_updPos (v.set (pPOS n) R.POS_TURN c) n fun x => { x with dir := !x.dir, revSince := true }
      have hsame : (v.set (pPOS n) R.POS_TURN c).posAt n = s.posAt n := hpos
      rw [hsame] at hupdP
      generalize (v.set (pPOS n) R.POS_TURN c).updPos n (fun x => { x with dir := !x.dir, revSince := true }) = y at hupd hupdM hupdP ht
      have hcause : ∀ {f : Fld}, f.id ≠ R.PG_IRQ_RAW.id → (y.cause (pPOS n) 3).get (pPOS n) f = (v.set (pPOS n) R.POS_TURN c).get (pPOS n) f :=
        fun hf => (State.get_cause_field _ _ _ hf).trans (hupd _)
      subst ht
      refine ⟨hupdM.trans (y.posMoves_cause n 3), ((hcause (by decide)).trans (hset (by decide))).trans hcnt,
        ((hcause (by decide)).trans (hset (by decide))).trans hedge, ((hcause (by decide)).trans (hset (by decide))).trans hspeed,
        fun h => absurd h hd, fun _ _ => ⟨by rw [State.posAt_cause]; exact hupdP, (hcause (by decide)).trans hsetT,
          State.bit_cause _ (by decide) (hupdM.frozen.trans hf)⟩, fun _ h => absurd h (by decide)⟩

/-! ### Speed and standstill (R147, R148) -/

/-- What the speed rule leaves of the channel's state: all but the history, the speed's validity and standstill. -/
def PosSt.apart (x : PosSt) : Bool × Bool × Bool × Option Nat × Option Nat × Option (Nat × Nat) × Nat :=
  (x.a, x.b, x.dir, x.due0, x.due1, x.xfer, x.fails)
/-- What the compares leave of the channel's state. -/
def PosSt.speedPart (x : PosSt) : Bool × Bool × Bool × Bool × Bool × Bool × List (Nat × Nat) × Option (Nat × Nat) × Nat :=
  (x.a, x.b, x.dir, x.still, x.valid, x.newDir, x.hist, x.xfer, x.fails)
/-- The history of a channel after an update: the newest 2^AVG + 1 (R147). -/
def State.newHist (s : State) (n t c : Nat) : List (Nat × Nat) :=
  ((s.posAt n).hist ++ [(t, c)]).drop ((s.posAt n).hist.length + 1 - (2 ^ s.get (pPOS n) R.POS_SPD_CFG + 1))
/-- The net rate between two updates, rounded toward zero (R147). -/
def rateOf (t c t0 c0 : Nat) : Nat := uns 32 (Int.tdiv (diff32 c c0 * 156250000) ((t - t0 : Nat) : Int))
theorem rateOf_lt (t c t0 c0 : Nat) : rateOf t c t0 c0 < 2 ^ 32 := uns_lt 32 _
def State.speedShown (s : State) (n z : Nat) : State :=
  (s.set (pPOS n) R.POS_SPEED z).updPos n fun x => { x with valid := true, newDir := false }
theorem State.speedShown_spec (s : State) (n : Nat) {z : Nat} (hz : z < 2 ^ R.POS_SPEED.w) :
    s.posMoves (s.speedShown n z) n ∧ (s.speedShown n z).posAt n = { s.posAt n with valid := true, newDir := false } ∧
    (s.speedShown n z).get (pPOS n) R.POS_SPEED = z ∧
    ∀ {f : Fld}, f.id ≠ R.POS_SPEED.id → (s.speedShown n z).get (pPOS n) f = s.get (pPOS n) f :=
  ⟨(s.posMoves_set n z (by simp [countFields]) (by decide)).trans (State.posMoves_updPos _ n _),
    State.posAt_updPos _ n _, (s.get_set_self _ _ _).trans (Nat.mod_eq_of_lt hz), fun hf => s.get_set_field _ _ hf⟩
/-- An update in the run's direction as it enters the history and gives the net rate over it (R147). -/
def State.speedTaken (s : State) (n t c : Nat) (h : List (Nat × Nat)) : State :=
  let s := s.updPos n fun x => { x with hist := h }
  match h with
  | (t0, c0) :: _ :: _ =>
    if t0 < t then
      s.speedShown n (rateOf t c t0 c0)
    else s
  | _ => s
theorem State.speedTaken_spec (s : State) (n t c : Nat) (h : List (Nat × Nat)) {u : State} (hu : s.speedTaken n t c h = u) :
    s.posMoves u n ∧ (u.posAt n).apart = (s.posAt n).apart ∧
    (∀ {f : Fld}, f.id ≠ R.POS_SPEED.id → u.get (pPOS n) f = s.get (pPOS n) f) ∧ (u.posAt n).hist = h ∧
    (u.posAt n).still = (s.posAt n).still ∧
    (∀ t0 c0 e r, h = (t0, c0) :: e :: r → t0 < t →
      u.get (pPOS n) R.POS_SPEED = rateOf t c t0 c0 ∧
      (u.posAt n).valid = true ∧ (u.posAt n).newDir = false) ∧
    ((∀ t0 c0 e r, h = (t0, c0) :: e :: r → t ≤ t0) → u.get (pPOS n) R.POS_SPEED = s.get (pPOS n) R.POS_SPEED ∧
      (u.posAt n).valid = (s.posAt n).valid ∧ (u.posAt n).newDir = (s.posAt n).newDir) := by
  unfold State.speedTaken at hu
  have hm := s.posMoves_updPos n fun x => { x with hist := h }
  have hp := s.posAt_updPos n fun x => { x with hist := h }
  have hg : ∀ f, (s.updPos n fun x => { x with hist := h }).get (pPOS n) f = s.get (pPOS n) f := fun f => rfl
  dsimp only at hu
  generalize s.updPos n (fun x => { x with hist := h }) = v at hm hp hg hu
  have hidle : (∀ t0 c0 e r, h = (t0, c0) :: e :: r → t ≤ t0) → v = u →
      s.posMoves u n ∧ (u.posAt n).apart = (s.posAt n).apart ∧
      (∀ {f : Fld}, f.id ≠ R.POS_SPEED.id → u.get (pPOS n) f = s.get (pPOS n) f) ∧ (u.posAt n).hist = h ∧
      (u.posAt n).still = (s.posAt n).still ∧
      (∀ t0 c0 e r, h = (t0, c0) :: e :: r → t0 < t →
        u.get (pPOS n) R.POS_SPEED = rateOf t c t0 c0 ∧
        (u.posAt n).valid = true ∧ (u.posAt n).newDir = false) ∧
      ((∀ t0 c0 e r, h = (t0, c0) :: e :: r → t ≤ t0) → u.get (pPOS n) R.POS_SPEED = s.get (pPOS n) R.POS_SPEED ∧
        (u.posAt n).valid = (s.posAt n).valid ∧ (u.posAt n).newDir = (s.posAt n).newDir) := fun hno he => by
    subst he
    rw [hp]
    exact ⟨hm, rfl, fun _ => hg _, rfl, rfl, fun t0 c0 e r hh hlt => absurd (hno t0 c0 e r hh) (by omega), fun _ => ⟨hg _, rfl, rfl⟩⟩
  split at hu
  · next t0 c0 e r =>
    by_cases hlt : t0 < t
    · rw [if_pos hlt] at hu
      generalize hz : rateOf t c t0 c0 = z at hu ⊢
      have hz32 : z < 2 ^ R.POS_SPEED.w := by
        rw [← hz]
        exact rateOf_lt _ _ _ _
      obtain ⟨hm2, hp2, hsp, hget⟩ := v.speedShown_spec n hz32
      subst hu
      rw [hp2, hp]
      refine ⟨hm.trans hm2, rfl, fun hf => (hget hf).trans (hg _), rfl, rfl, fun t0' c0' e' r' hh _ => ?_, fun hno => ?_⟩
      · obtain ⟨h1, -⟩ := List.cons.inj hh
        obtain ⟨rfl, rfl⟩ := Prod.mk.inj h1
        exact ⟨hsp.trans hz.symm, rfl, rfl⟩
      · exact absurd (hno t0 c0 e r rfl) (by omega)
    · rw [if_neg hlt] at hu
      refine hidle (fun t0' c0' e' r' hh => ?_) hu
      obtain ⟨h1, -⟩ := List.cons.inj hh
      obtain ⟨rfl, rfl⟩ := Prod.mk.inj h1
      omega
  · next hno => exact hidle (fun t0 c0 e r hh => absurd hh (hno t0 c0 e r)) hu
/-- An update against the direction (R146). -/
def stepsBack (x : PosSt) (d : Int) : Bool := if x.dir then 0 < d else d < 0
theorem State.speedRule_eq (s : State) (n : Nat) (d : Int) (t c : Nat) (rev : Bool) : s.speedRule n d t c rev =
    (let u := s.updPos n fun x => { x with lastUpd := t }
    if rev then (u.set (pPOS n) R.POS_SPEED 0).updPos n fun x => { x with hist := [], valid := false, newDir := true }
    else if (s.posAt n).still then (u.updPos n fun x => { x with still := false, hist := [(t, c)] }).cause (pPOS n) 5
    else if (s.posAt n).newDir && stepsBack (s.posAt n) d then u.updPos n fun x => { x with hist := [] }
    else u.speedTaken n t c (u.newHist n t c)) := by
  have hlen : ((s.posAt n).hist ++ [(t, c)]).length = (s.posAt n).hist.length + 1 := by simp
  have hu := s.posAt_updPos n fun x => { x with lastUpd := t }
  unfold State.speedRule State.newHist
  dsimp only
  rw [hlen, hu]
  rfl
/-- What an update leaves of the speed (R147, R148). -/
theorem State.speedRule_spec {s : State} {n : Nat} (hf : s.frozen (pPOS n) = false) (d : Int) (t c : Nat) (rev : Bool) {u : State}
    (hu : s.speedRule n d t c rev = u) :
    s.posMoves u n ∧ (u.posAt n).apart = (s.posAt n).apart ∧
    (∀ {f : Fld}, f.id ≠ R.POS_SPEED.id → f.id ≠ R.PG_IRQ_RAW.id → u.get (pPOS n) f = s.get (pPOS n) f) ∧
    (rev = true → u.get (pPOS n) R.POS_SPEED = 0 ∧ (u.posAt n).hist = [] ∧ (u.posAt n).valid = false ∧ (u.posAt n).newDir = true) ∧
    (rev = false → (s.posAt n).still = true → (u.posAt n).still = false ∧ (u.posAt n).hist = [(t, c)] ∧
      u.get (pPOS n) R.POS_SPEED = s.get (pPOS n) R.POS_SPEED ∧ bit (u.get (pPOS n) R.PG_IRQ_RAW) 5 = true) ∧
    (rev = false → (s.posAt n).still = false → ((s.posAt n).newDir && stepsBack (s.posAt n) d) = true → (u.posAt n).hist = [] ∧
      u.get (pPOS n) R.POS_SPEED = s.get (pPOS n) R.POS_SPEED) ∧
    (rev = false → (s.posAt n).still = false → ((s.posAt n).newDir && stepsBack (s.posAt n) d) = false →
      (u.posAt n).hist = s.newHist n t c ∧
      (∀ t0 c0 e r, s.newHist n t c = (t0, c0) :: e :: r → t0 < t →
        u.get (pPOS n) R.POS_SPEED = rateOf t c t0 c0 ∧ (u.posAt n).valid = true ∧ (u.posAt n).newDir = false) ∧
      ((∀ t0 c0 e r, s.newHist n t c = (t0, c0) :: e :: r → t ≤ t0) → u.get (pPOS n) R.POS_SPEED = s.get (pPOS n) R.POS_SPEED ∧
        (u.posAt n).valid = (s.posAt n).valid ∧ (u.posAt n).newDir = (s.posAt n).newDir)) := by
  rw [State.speedRule_eq] at hu
  have hm := s.posMoves_updPos n fun x => { x with lastUpd := t }
  have hp := s.posAt_updPos n fun x => { x with lastUpd := t }
  have hg : ∀ f, (s.updPos n fun x => { x with lastUpd := t }).get (pPOS n) f = s.get (pPOS n) f := fun f => rfl
  have hh : (s.updPos n fun x => { x with lastUpd := t }).newHist n t c = s.newHist n t c := by
    unfold State.newHist
    rw [hp]
    rfl
  dsimp only at hu
  generalize s.updPos n (fun x => { x with lastUpd := t }) = v at hm hp hg hh hu
  cases rev with
  | true =>
    rw [if_pos rfl] at hu
    have hm2 := v.posMoves_set n (f := R.POS_SPEED) 0 (by simp [countFields]) (by decide)
    have hz : (v.set (pPOS n) R.POS_SPEED 0).get (pPOS n) R.POS_SPEED = 0 := v.get_set_self _ _ _
    have ho : ∀ {f : Fld}, f.id ≠ R.POS_SPEED.id → (v.set (pPOS n) R.POS_SPEED 0).get (pPOS n) f = s.get (pPOS n) f := fun hf =>
      (v.get_set_field _ _ hf).trans (hg _)
    have hsame : (v.set (pPOS n) R.POS_SPEED 0).posAt n = v.posAt n := rfl
    generalize v.set (pPOS n) R.POS_SPEED 0 = y at hm2 hz ho hsame hu
    have hp2 := y.posAt_updPos n fun x => { x with hist := [], valid := false, newDir := true }
    subst hu
    rw [hp2, hsame, hp]
    exact ⟨(hm.trans hm2).trans (y.posMoves_updPos n _), rfl, fun hf _ => ho hf, fun _ => ⟨hz, rfl, rfl, rfl⟩,
      fun h => absurd h (by decide), fun h => absurd h (by decide), fun h => absurd h (by decide)⟩
  | false =>
    rw [if_neg (by decide)] at hu
    by_cases hst : (s.posAt n).still = true
    · rw [if_pos hst] at hu
      have hp2 := v.posAt_updPos n fun x => { x with still := false, hist := [(t, c)] }
      have hm2 := v.posMoves_updPos n fun x => { x with still := false, hist := [(t, c)] }
      have hg2 : ∀ f, (v.updPos n fun x => { x with still := false, hist := [(t, c)] }).get (pPOS n) f = v.get (pPOS n) f := fun f => rfl
      generalize v.updPos n (fun x => { x with still := false, hist := [(t, c)] }) = y at hp2 hm2 hg2 hu
      have hm3 := hm.trans hm2
      have hc : ∀ {f : Fld}, f.id ≠ R.PG_IRQ_RAW.id → (y.cause (pPOS n) 5).get (pPOS n) f = s.get (pPOS n) f := fun hf =>
        ((State.get_cause_field _ _ _ hf).trans (hg2 _)).trans (hg _)
      subst hu
      rw [State.posAt_cause, hp2, hp]
      exact ⟨hm3.trans (y.posMoves_cause n 5), rfl, fun _ hf => hc hf, fun h => absurd h (by decide),
        fun _ _ => ⟨rfl, rfl, hc (by decide), State.bit_cause _ (by decide) (hm3.frozen.trans hf)⟩,
        fun _ h => absurd (hst.symm.trans h) (by decide), fun _ h => absurd (hst.symm.trans h) (by decide)⟩
    · rw [if_neg hst] at hu
      cases hb : (s.posAt n).newDir && stepsBack (s.posAt n) d with
      | true =>
        rw [hb, if_pos rfl] at hu
        have hp2 := v.posAt_updPos n fun x => { x with hist := [] }
        subst hu
        rw [hp2, hp]
        exact ⟨hm.trans (v.posMoves_updPos n _), rfl, fun _ _ => hg _, fun h => absurd h (by decide), fun _ h => absurd h hst,
          fun _ _ _ => ⟨rfl, hg _⟩, fun _ _ h => absurd h (by decide)⟩
      | false =>
        rw [hb, if_neg (by decide), hh] at hu
        obtain ⟨k1, k2, k3, k4, -, k6, k7⟩ := v.speedTaken_spec n t c (s.newHist n t c) hu
        rw [hp] at k2
        rw [hg, hp] at k7
        exact ⟨hm.trans k1, k2, fun hf _ => (k3 hf).trans (hg _), fun h => absurd h (by decide), fun _ h => absurd h hst,
          fun _ _ h => absurd h (by decide), fun _ _ _ => ⟨k4, k6, k7⟩⟩

/-! ### Compares that a step crosses (R149) -/

theorem State.cmpCross_zero (s : State) (c : PosCh) (old new ns : Nat) :
    ((s.posAt c).due0 = none ∧ crosses s c old new R.POS_CMP_STAT_ARMED0 R.POS_CMP_STAT_DIR0 R.POS_CMP0 ∧
      s.cmpCross c 0 old new ns = s.updPos c fun x => { x with due0 := some ns }) ∨
    (¬ ((s.posAt c).due0 = none ∧ crosses s c old new R.POS_CMP_STAT_ARMED0 R.POS_CMP_STAT_DIR0 R.POS_CMP0) ∧
      s.cmpCross c 0 old new ns = s) := by
  by_cases h : (s.posAt c).due0 = none ∧ crosses s c old new R.POS_CMP_STAT_ARMED0 R.POS_CMP_STAT_DIR0 R.POS_CMP0
  · refine Or.inl ⟨h.1, h.2, ?_⟩
    obtain ⟨h2, h1, h3, h4, h5⟩ := h
    exact if_pos (by simp only [if_true, h1, h2, h3, h4, h5, Option.isNone_none, decide_true, Bool.and_self])
  · refine Or.inr ⟨h, if_neg fun hc => h ?_⟩
    simp only [if_true, Bool.and_eq_true, decide_eq_true_eq, Option.isNone_iff_eq_none] at hc
    obtain ⟨⟨⟨⟨h1, h2⟩, h3⟩, h4⟩, h5⟩ := hc
    exact ⟨h2, h1, h3, h4, h5⟩
theorem State.cmpCross_one (s : State) (c : PosCh) (old new ns : Nat) :
    ((s.posAt c).due1 = none ∧ crosses s c old new R.POS_CMP_STAT_ARMED1 R.POS_CMP_STAT_DIR1 R.POS_CMP1 ∧
      s.cmpCross c 1 old new ns = s.updPos c fun x => { x with due1 := some ns }) ∨
    (¬ ((s.posAt c).due1 = none ∧ crosses s c old new R.POS_CMP_STAT_ARMED1 R.POS_CMP_STAT_DIR1 R.POS_CMP1) ∧
      s.cmpCross c 1 old new ns = s) := by
  by_cases h : (s.posAt c).due1 = none ∧ crosses s c old new R.POS_CMP_STAT_ARMED1 R.POS_CMP_STAT_DIR1 R.POS_CMP1
  · refine Or.inl ⟨h.1, h.2, ?_⟩
    obtain ⟨h2, h1, h3, h4, h5⟩ := h
    exact if_pos (by simp only [if_neg (show ¬ (1 = 0) by decide), h1, h2, h3, h4, h5, Option.isNone_none, decide_true, Bool.and_self])
  · refine Or.inr ⟨h, if_neg fun hc => h ?_⟩
    simp only [if_neg (show ¬ (1 = 0) by decide), Bool.and_eq_true, decide_eq_true_eq, Option.isNone_iff_eq_none] at hc
    obtain ⟨⟨⟨⟨h1, h2⟩, h3⟩, h4⟩, h5⟩ := hc
    exact ⟨h2, h1, h3, h4, h5⟩
theorem crosses_congr {s t : State} {c : PosCh} {old new : Nat} {armed dir cmp : Fld}
    (h : ∀ f ∈ [armed, dir, cmp], t.get (pPOS c) f = s.get (pPOS c) f) : crosses t c old new armed dir cmp ↔ crosses s c old new armed dir cmp := by
  unfold crosses State.flag
  rw [h armed (by simp), h dir (by simp), h cmp (by simp)]
/-- The compares that a step from old to new makes due, and what it leaves (R149). -/
theorem State.crossings_spec (s : State) (c : PosCh) (old new ns : Nat) {u : State} (hu : s.crossings c old new ns = u) :
    s.posMoves u c ∧ u.regs = s.regs ∧ (u.posAt c).speedPart = (s.posAt c).speedPart ∧
    ((s.posAt c).due0 = none → crosses s c old new R.POS_CMP_STAT_ARMED0 R.POS_CMP_STAT_DIR0 R.POS_CMP0 → (u.posAt c).due0 = some ns) ∧
    ((s.posAt c).due0 ≠ none ∨ ¬ crosses s c old new R.POS_CMP_STAT_ARMED0 R.POS_CMP_STAT_DIR0 R.POS_CMP0 →
      (u.posAt c).due0 = (s.posAt c).due0) ∧
    ((s.posAt c).due1 = none → crosses s c old new R.POS_CMP_STAT_ARMED1 R.POS_CMP_STAT_DIR1 R.POS_CMP1 → (u.posAt c).due1 = some ns) ∧
    ((s.posAt c).due1 ≠ none ∨ ¬ crosses s c old new R.POS_CMP_STAT_ARMED1 R.POS_CMP_STAT_DIR1 R.POS_CMP1 →
      (u.posAt c).due1 = (s.posAt c).due1) := by
  unfold State.crossings at hu
  have h0 : s.posMoves (s.cmpCross c 0 old new ns) c ∧ (s.cmpCross c 0 old new ns).regs = s.regs ∧
      ((s.cmpCross c 0 old new ns).posAt c).speedPart = (s.posAt c).speedPart ∧
      ((s.cmpCross c 0 old new ns).posAt c).due1 = (s.posAt c).due1 ∧
      ((s.posAt c).due0 = none → crosses s c old new R.POS_CMP_STAT_ARMED0 R.POS_CMP_STAT_DIR0 R.POS_CMP0 →
        ((s.cmpCross c 0 old new ns).posAt c).due0 = some ns) ∧
      ((s.posAt c).due0 ≠ none ∨ ¬ crosses s c old new R.POS_CMP_STAT_ARMED0 R.POS_CMP_STAT_DIR0 R.POS_CMP0 →
        ((s.cmpCross c 0 old new ns).posAt c).due0 = (s.posAt c).due0) := by
    rcases s.cmpCross_zero c old new ns with ⟨h1, h2, h⟩ | ⟨hn, h⟩ <;> rw [h]
    · rw [State.posAt_updPos]
      exact ⟨s.posMoves_updPos c _, rfl, rfl, rfl, fun _ _ => rfl, fun hno => hno.elim (fun k => absurd h1 k) (fun k => absurd h2 k)⟩
    · exact ⟨s.posMoves_refl c, rfl, rfl, rfl, fun k1 k2 => absurd ⟨k1, k2⟩ hn, fun _ => rfl⟩
  obtain ⟨m0, r0, p0, d1, k0, n0⟩ := h0
  generalize s.cmpCross c 0 old new ns = v at m0 r0 p0 d1 k0 n0 hu
  have hcr : crosses v c old new R.POS_CMP_STAT_ARMED1 R.POS_CMP_STAT_DIR1 R.POS_CMP1 ↔
      crosses s c old new R.POS_CMP_STAT_ARMED1 R.POS_CMP_STAT_DIR1 R.POS_CMP1 := crosses_congr fun f _ => State.get_congr r0 _ _
  rcases v.cmpCross_one c old new ns with ⟨h1, h2, h⟩ | ⟨hn, h⟩ <;> rw [h] at hu
  · have hp := v.posAt_updPos c fun x => { x with due1 := some ns }
    have hm := v.posMoves_updPos c fun x => { x with due1 := some ns }
    have hr : (v.updPos c fun x => { x with due1 := some ns }).regs = v.regs := rfl
    rw [hu] at hp hm hr
    rw [hp]
    rw [d1] at h1
    rw [hcr] at h2
    exact ⟨m0.trans hm, hr.trans r0, p0, k0, n0, fun _ _ => rfl, fun hno => hno.elim (fun k => absurd h1 k) (fun k => absurd h2 k)⟩
  · rw [d1, hcr] at hn
    subst hu
    exact ⟨m0, r0, p0, k0, n0, fun k1 k2 => absurd ⟨k1, k2⟩ hn, fun _ => d1⟩

/-! ### The bar coordinate (R150) -/

/-- What a step of channel n leaves alone on the line generators: every register but Y of the running generators. -/
structure State.stepsLine (s t : State) (b : Nat) : Prop where
  regs : s.regsBut t [(pLINE b, R.LINE_Y_LO), (pLINE b, R.LINE_Y_HI)]
  other : ∀ m, m ≠ b → t.lineAt m = s.lineAt m
  src : (t.lineAt b).src = (s.lineAt b).src
  shape : ∃ r l, t = { s with regs := r, line := l }
theorem State.stepsLine.trans {s t u : State} {b : Nat} (h : s.stepsLine t b) (k : t.stepsLine u b) : s.stepsLine u b := by
  refine ⟨State.regsBut_trans h.regs k.regs, fun m hm => (k.other m hm).trans (h.other m hm), k.src.trans h.src, ?_⟩
  obtain ⟨r, l, rfl⟩ := h.shape
  obtain ⟨r', l', rfl⟩ := k.shape
  exact ⟨r', l', rfl⟩
theorem State.stepsLine_refl (s : State) (b : Nat) : s.stepsLine s b := ⟨State.regsBut_refl _ _, fun _ _ => rfl, rfl, s.regs, s.line, rfl⟩
theorem State.stepsLine_updLine (s : State) (b : Nat) {g : LineSt → LineSt} (hg : ∀ x, (g x).src = x.src) : s.stepsLine (s.updLine b g) b :=
  ⟨State.regsBut_of_regs (State.regsBut_refl _ _) rfl, fun _ hm => NMap.getD_put_other _ _ _ hm,
    (congrArg LineSt.src (NMap.getD_put_self s.line b _ {})).trans (hg _), s.regs, _, rfl⟩
theorem State.stepsLine_setY (s : State) (b : Nat) (y : Int) : s.stepsLine (s.setY b y) b := by
  unfold State.setY State.set64
  exact ⟨State.regsBut_set (State.regsBut_set (State.regsBut_refl _ _) _ (by simp)) _ (by simp), fun _ _ => rfl, rfl, _, s.line, rfl⟩
theorem State.stepsLine_strStep (s : State) (b : Nat) (d : Int) (c : Nat) : s.stepsLine (s.strStep b d c) b ∧ (s.strStep b d c).regs = s.regs := by
  unfold State.strStep
  split_ifs
  · exact ⟨s.stepsLine_updLine b (fun _ => rfl), rfl⟩
  · exact ⟨s.stepsLine_updLine b (fun _ => rfl), rfl⟩
  · exact ⟨s.stepsLine_refl b, rfl⟩
theorem State.stepsLine_lineDue (s : State) (b : Nat) : s.stepsLine (s.lineDue b) b ∧ (s.lineDue b).regs = s.regs := by
  rcases s.lineDue_cases b with h | h <;> rw [h]
  · exact ⟨s.stepsLine_refl b, rfl⟩
  · exact ⟨s.stepsLine_updLine b (fun _ => rfl), rfl⟩
/-- Y of a bar after a step of channel n (R150). -/
def State.steppedY (s : State) (b n : Nat) (d : Int) : Int :=
  if s.lineRuns b && srcChannel b (s.lineAt b).src == n then
    sgn 64 (uns 64 (s.lineY b + d * (if (s.lineAt b).src = 2 then 2 ^ 24 else 2 ^ 24 + s.gain b)))
  else s.lineY b
section
variable {s t : State} {b : Nat} (h : s.stepsLine t b)
include h
theorem State.stepsLine.field {f : Fld} (h1 : f.id ≠ R.LINE_Y_LO.id) (h2 : f.id ≠ R.LINE_Y_HI.id) (q : Nat) : t.get q f = s.get q f :=
  h.regs.field (by simp only [List.forall_mem_cons]; exact ⟨h1, h2, by simp⟩) q
theorem State.stepsLine.working : t.working = s.working := by
  obtain ⟨r, l, ht⟩ := h.shape
  refine State.working_congr (by rw [ht]) (by rw [ht]) ?_
  simp only [List.forall_mem_cons, List.not_mem_nil, false_imp_iff, implies_true, and_true]
  exact ⟨h.field (by decide) (by decide), h.field (by decide) (by decide), h.field (by decide) (by decide)⟩
theorem State.stepsLine.gain (i : Nat) : t.gain i = s.gain i := congrArg (sgn 32) (h.field (by decide) (by decide) _)
theorem State.stepsLine.lineY {i : Nat} (hi : i ≠ b) : t.lineY i = s.lineY i := by
  have hp : ∀ f, t.get (pLINE i) f = s.get (pLINE i) f := fun f => h.regs _ f fun e he => Or.inl (by
    simp only [List.mem_cons, List.not_mem_nil, or_false] at he
    rcases he with rfl | rfl <;> exact fun hh => hi (pLINE_inj hh))
  exact congrArg (sgn 64) (congrArg₂ (fun a b => a * _ + b * _) (hp _) (hp _))
theorem State.stepsLine.steppedY {i : Nat} (hi : i ≠ b) (n : Nat) (d : Int) : t.steppedY i n d = s.steppedY i n d := by
  unfold State.steppedY State.lineRuns
  rw [h.working, h.other i hi, h.lineY hi, h.gain]
end
/-- A step of channel n on one line generator (R150, R156). -/
theorem State.lineStep_spec (s : State) (b n : Nat) (d : Int) (c : Nat) :
    s.stepsLine (s.lineStep b n d c) b ∧ (s.lineStep b n d c).lineY b = s.steppedY b n d := by
  unfold State.lineStep
  have h0 : s.stepsLine (if n = 2 + b then s.updLine b fun l => { l with strE := l.strE + d } else s) b ∧
      (if n = 2 + b then s.updLine b fun l => { l with strE := l.strE + d } else s).regs = s.regs := by
    split
    · exact ⟨s.stepsLine_updLine b (fun _ => rfl), rfl⟩
    · exact ⟨s.stepsLine_refl b, rfl⟩
  dsimp only
  generalize (if n = 2 + b then s.updLine b fun l => { l with strE := l.strE + d } else s) = v at h0 ⊢
  obtain ⟨hv, hr⟩ := h0
  have hY : v.lineY b = s.lineY b :=
    congrArg (sgn 64) (congrArg₂ (fun a b => a * _ + b * _) (State.get_congr hr _ _) (State.get_congr hr _ _))
  have hrun : v.lineRuns b = s.lineRuns b := by rw [State.lineRuns, hv.working]; rfl
  unfold State.steppedY
  rw [hrun, hv.src]
  by_cases hon : s.lineRuns b = true ∧ srcChannel b (s.lineAt b).src = n
  · have hc : (s.lineRuns b && srcChannel b (s.lineAt b).src == n) = true := by simp [hon]
    rw [if_neg (by simp [hon]), if_pos hc, hv.gain, hY]
    generalize (if (s.lineAt b).src = 2 then 2 ^ 24 else 2 ^ 24 + s.gain b) = k
    generalize hy : sgn 64 (uns 64 (s.lineY b + d * k)) = y
    obtain ⟨hlo, hhi⟩ : -2 ^ 63 ≤ y ∧ y < 2 ^ 63 := hy ▸ sgn64_bounds _
    have hset := v.stepsLine_setY b y
    have hsetY := v.lineY_setY b hlo hhi
    generalize v.setY b y = w at hset hsetY ⊢
    have hw := w.stepsLine_updLine b (g := fun l => { l with hiY := max l.hiY y }) (fun _ => rfl)
    have hwr : (w.updLine b fun l => { l with hiY := max l.hiY y }).regs = w.regs := rfl
    generalize (w.updLine b fun l => { l with hiY := max l.hiY y }) = x at hw hwr ⊢
    obtain ⟨hx, hxr⟩ := x.stepsLine_strStep b d c
    obtain ⟨hz, hzr⟩ := (x.strStep b d c).stepsLine_lineDue b
    refine ⟨(((hv.trans hset).trans hw).trans hx).trans hz, ?_⟩
    have hregs := (hzr.trans hxr).trans hwr
    rw [← hsetY]
    exact congrArg (sgn 64) (congrArg₂ (fun a b => a * _ + b * _) (State.get_congr hregs _ _) (State.get_congr hregs _ _))
  · have hc : (s.lineRuns b && srcChannel b (s.lineAt b).src == n) = false := by
      rw [Bool.eq_false_iff]
      intro hc
      exact hon (by simpa using hc)
    have hc' : (!s.lineRuns b || srcChannel b (s.lineAt b).src != n) = true := by
      rw [bne, ← Bool.not_and, hc]
      rfl
    rw [if_pos hc', if_neg (by rw [hc]; decide)]
    exact ⟨hv, hY⟩
/-- A step of channel n on the line generators of a list of bars. -/
theorem State.linesStep_spec (l : List Nat) (hl : l.Nodup) (n : Nat) (d : Int) (c : Nat) (s : State) :
    (∀ i ∈ l, (s.each l fun t b => t.lineStep b n d c).lineY i = s.steppedY i n d) ∧
    s.regsBut (s.each l fun t b => t.lineStep b n d c) (l.flatMap fun i => [(pLINE i, R.LINE_Y_LO), (pLINE i, R.LINE_Y_HI)]) ∧
    (∀ i, i ∉ l → (s.each l fun t b => t.lineStep b n d c).lineY i = s.lineY i) ∧
    ∃ r ln, (s.each l fun t b => t.lineStep b n d c) = { s with regs := r, line := ln } := by
  unfold State.each
  induction l generalizing s with
  | nil => exact ⟨fun i h => by simp at h, State.regsBut_refl _ _, fun _ _ => rfl, s.regs, s.line, rfl⟩
  | cons b l ih =>
    obtain ⟨hb, hl'⟩ := List.nodup_cons.mp hl
    obtain ⟨hstep, hY⟩ := s.lineStep_spec b n d c
    obtain ⟨h1, h2, h3, r, ln, h4⟩ := ih hl' (s.lineStep b n d c)
    rw [List.foldl_cons]
    refine ⟨fun i hi => ?_, ?_, fun i hi => ?_, ?_⟩
    · by_cases hib : i = b
      · rw [hib, h3 b hb, hY]
      · rw [h1 i ((List.mem_cons.mp hi).resolve_left hib), hstep.steppedY hib]
    · rw [List.flatMap_cons]
      exact State.regsBut_trans (State.regsBut_mono hstep.regs (List.subset_append_left _ _)) (State.regsBut_mono h2 (List.subset_append_right _ _))
    · rw [List.mem_cons, not_or] at hi
      rw [h3 i hi.2, hstep.lineY hi.1]
    · obtain ⟨r', l', h5⟩ := hstep.shape
      rw [h4, h5]
      exact ⟨r, ln, rfl⟩

/-! ### A count update as a whole -/

/-- An update up to the line generators. -/
def State.posCore (s : State) (n : Nat) (d : Int) (t ns : Nat) : State :=
  let c := uns 32 (s.get (pPOS n) R.POS_CNT + d)
  let rev := s.turns n d c
  ((s.turnStep n d c ns rev).speedRule n d t c rev).crossings n (s.get (pPOS n) R.POS_CNT) c ns
theorem State.posUpdate_core (s : State) (n : Nat) (d : Int) (t ns : Nat) : s.posUpdate n d t ns =
    if 10 ≤ n then s.posCore n d t ns else (s.posCore n d t ns).lineSteps n d (uns 32 (s.get (pPOS n) R.POS_CNT + d)) := rfl
/-- What the compares make due between two states of a channel, in the words of the statement. -/
theorem State.posCore_spec {s : State} (p : PosCh) (hf : s.frozen (pPOS p) = false) (d : Int) (t ns : Nat) {c : Nat}
    (hc : uns 32 (s.get (pPOS p) R.POS_CNT + d) = c) {u : State} (hu : s.posCore p d t ns = u) :
    s.posMoves u p ∧ u.get (pPOS p) R.POS_CNT = c ∧ u.get (pPOS p) R.POS_EDGE_T = ns % 2 ^ 32 ∧
    ((u.posAt p).a = (s.posAt p).a ∧ (u.posAt p).b = (s.posAt p).b ∧ (u.posAt p).xfer = (s.posAt p).xfer ∧
      (u.posAt p).fails = (s.posAt p).fails) ∧
    (0 < d * dirSign (s.posAt p) → (u.posAt p).dir = (s.posAt p).dir ∧ u.get (pPOS p) R.POS_TURN =
      if 0 < diff32 c (s.get (pPOS p) R.POS_TURN) * dirSign (s.posAt p) then c else s.get (pPOS p) R.POS_TURN) ∧
    (s.turns p d c = true → (u.posAt p).dir = !(s.posAt p).dir ∧ u.get (pPOS p) R.POS_TURN = c ∧ u.get (pPOS p) R.POS_SPEED = 0 ∧
      (u.posAt p).hist = [] ∧ (u.posAt p).valid = false ∧ (u.posAt p).newDir = true ∧ bit (u.get (pPOS p) R.PG_IRQ_RAW) 3 = true) ∧
    (¬ 0 < d * dirSign (s.posAt p) → s.turns p d c = false →
      (u.posAt p).dir = (s.posAt p).dir ∧ u.get (pPOS p) R.POS_TURN = s.get (pPOS p) R.POS_TURN) ∧
    (s.turns p d c = false → (s.posAt p).still = true → (u.posAt p).still = false ∧ (u.posAt p).hist = [(t, c)] ∧
      u.get (pPOS p) R.POS_SPEED = s.get (pPOS p) R.POS_SPEED ∧ bit (u.get (pPOS p) R.PG_IRQ_RAW) 5 = true) ∧
    (s.turns p d c = false → (s.posAt p).still = false → ((s.posAt p).newDir && stepsBack (s.posAt p) d) = true →
      (u.posAt p).hist = [] ∧ u.get (pPOS p) R.POS_SPEED = s.get (pPOS p) R.POS_SPEED) ∧
    (s.turns p d c = false → (s.posAt p).still = false → ((s.posAt p).newDir && stepsBack (s.posAt p) d) = false →
      (u.posAt p).hist = s.newHist p t c ∧
      (∀ t0 c0 e r, s.newHist p t c = (t0, c0) :: e :: r → t0 < t →
        u.get (pPOS p) R.POS_SPEED = rateOf t c t0 c0 ∧ (u.posAt p).valid = true ∧ (u.posAt p).newDir = false) ∧
      ((∀ t0 c0 e r, s.newHist p t c = (t0, c0) :: e :: r → t ≤ t0) → u.get (pPOS p) R.POS_SPEED = s.get (pPOS p) R.POS_SPEED ∧
        (u.posAt p).valid = (s.posAt p).valid ∧ (u.posAt p).newDir = (s.posAt p).newDir)) ∧
    compareDue s u p c ns := by
  have hc32 : c % 2 ^ 32 = c := Nat.mod_eq_of_lt (hc ▸ uns_lt 32 _)
  unfold State.posCore at hu
  rw [hc] at hu
  dsimp only at hu
  have hrevs : s.turns p d c = true → ¬ 0 < d * dirSign (s.posAt p) := fun h => by
    unfold State.turns at h
    simp only [Bool.and_eq_true, Bool.not_eq_true', decide_eq_false_iff_not] at h
    exact h.1
  generalize s.turns p d c = rev at hu hrevs ⊢
  obtain ⟨m1, c1, e1, s1, f1, b1, n1⟩ := State.turnStep_spec hf d c ns rev rfl
  rw [hc32] at c1 f1 b1
  have hfv := m1.frozen.trans hf
  have hspd : (s.turnStep p d c ns rev).get (pPOS p) R.POS_SPD_CFG = s.get (pPOS p) R.POS_SPD_CFG := m1.get (by decide) _
  have hcr1 : ∀ armed dir cmp, (∀ f ∈ [armed, dir, cmp], ∀ e ∈ countFields 0, f.id ≠ e.2.id) →
      (crosses (s.turnStep p d c ns rev) p (s.get (pPOS p) R.POS_CNT) c armed dir cmp ↔
        crosses s p (s.get (pPOS p) R.POS_CNT) c armed dir cmp) := fun _ _ _ h => crosses_congr fun f hf => m1.get (h f hf) _
  have hpos : rev = false → (s.turnStep p d c ns rev).posAt p = s.posAt p := fun h => by
    by_cases hd : 0 < d * dirSign (s.posAt p)
    · exact (f1 hd).1
    · exact (n1 hd h).1
  have hdue1 : ((s.turnStep p d c ns rev).posAt p).due0 = (s.posAt p).due0 ∧ ((s.turnStep p d c ns rev).posAt p).due1 = (s.posAt p).due1 ∧
      ((s.turnStep p d c ns rev).posAt p).a = (s.posAt p).a ∧ ((s.turnStep p d c ns rev).posAt p).b = (s.posAt p).b ∧
      ((s.turnStep p d c ns rev).posAt p).xfer = (s.posAt p).xfer ∧ ((s.turnStep p d c ns rev).posAt p).fails = (s.posAt p).fails := by
    cases rev with
    | false => rw [hpos rfl]; exact ⟨rfl, rfl, rfl, rfl, rfl, rfl⟩
    | true => rw [(b1 (hrevs rfl) rfl).1]; exact ⟨rfl, rfl, rfl, rfl, rfl, rfl⟩
  generalize s.turnStep p d c ns rev = v at hu m1 c1 e1 s1 f1 b1 n1 hfv hspd hcr1 hpos hdue1
  obtain ⟨m2, a2, g2, r2, st2, bk2, tk2⟩ := State.speedRule_spec hfv d t c rev rfl
  have hcr2 : ∀ armed dir cmp, (∀ f ∈ [armed, dir, cmp], ∀ e ∈ countFields 0, f.id ≠ e.2.id) →
      (crosses (v.speedRule p d t c rev) p (s.get (pPOS p) R.POS_CNT) c armed dir cmp ↔
        crosses v p (s.get (pPOS p) R.POS_CNT) c armed dir cmp) := fun _ _ _ h => crosses_congr fun f hf => m2.get (h f hf) _
  generalize v.speedRule p d t c rev = w at hu m2 a2 g2 r2 st2 bk2 tk2 hcr2
  obtain ⟨m3, g3, p3, d0, d0', d1, d1'⟩ := w.crossings_spec p (s.get (pPOS p) R.POS_CNT) c ns hu
  have hget : ∀ f, u.get (pPOS p) f = w.get (pPOS p) f := fun f => State.get_congr g3 _ _
  simp only [PosSt.speedPart, Prod.mk.injEq] at p3
  obtain ⟨pa, pb, pdir, pstill, pvalid, pnew, phist, pxfer, pfails⟩ := p3
  simp only [PosSt.apart, Prod.mk.injEq] at a2
  obtain ⟨aa, ab, adir, adue0, adue1, axfer, afails⟩ := a2
  obtain ⟨v0, v1, va, vb, vx, vf⟩ := hdue1
  have hz0 := (hcr2 R.POS_CMP_STAT_ARMED0 R.POS_CMP_STAT_DIR0 R.POS_CMP0 (by decide)).trans (hcr1 _ _ _ (by decide))
  have hz1 := (hcr2 R.POS_CMP_STAT_ARMED1 R.POS_CMP_STAT_DIR1 R.POS_CMP1 (by decide)).trans (hcr1 _ _ _ (by decide))
  rw [adue0, v0, hz0] at d0 d0'
  rw [adue1, v1, hz1] at d1 d1'
  rw [pdir, adir, hget, hget, hget, hget, hget, pstill, pvalid, pnew, phist, g2 (f := R.POS_CNT) (by decide) (by decide),
    g2 (f := R.POS_EDGE_T) (by decide) (by decide), g2 (f := R.POS_TURN) (by decide) (by decide)]
  refine ⟨(m1.trans m2).trans m3, c1, e1, ⟨pa.trans (aa.trans va), pb.trans (ab.trans vb), pxfer.trans (axfer.trans vx),
    pfails.trans (afails.trans vf)⟩, fun hd => ?_, fun hr => ?_, fun hd hr => ?_, fun hr hs => ?_, fun hr hs hb => ?_, fun hr hs hb => ?_,
    d0, d0', d1, d1'⟩
  · exact ⟨congrArg PosSt.dir (f1 hd).1, (f1 hd).2⟩
  · obtain ⟨k1, k2, k3⟩ := b1 (hrevs hr) hr
    obtain ⟨l1, l2, l3, l4⟩ := r2 hr
    exact ⟨congrArg PosSt.dir k1, k2, l1, l2, l3, l4, m2.bits 3 (by decide) k3⟩
  · exact ⟨congrArg PosSt.dir (n1 hd hr).1, (n1 hd hr).2⟩
  · rw [hpos hr, s1] at st2
    exact st2 hr hs
  · rw [hpos hr, s1] at bk2
    exact bk2 hr hs hb
  · have hnh : v.newHist p t c = s.newHist p t c := by rw [State.newHist, State.newHist, hpos hr, hspd]
    rw [hpos hr, s1, hnh] at tk2
    exact tk2 hr hs hb

/-! ### COUNT_UPDATE (R139) -/

/-- The levels of A and B as an update finds them. -/
def State.levels (s : State) (n : Nat) (a b : Bool) : State := s.updPos n fun x => { x with a := a, b := b }
theorem exec_countUpdate_other {s : State} {c : PosCh} (h : 10 ≤ c.val) (a b : Bool) : exec (.countUpdate c a b) s = .next s := by
  change Host.Outcome.next _ = _
  rw [if_pos h]
section
variable {s : State} {c : PosCh} (hc : c.val < 10) (a b : Bool)
include hc
theorem exec_countUpdate_levels (h : s.posCounts c = false ∨ quadStep (s.posAt c).a (s.posAt c).b a b = none) :
    exec (.countUpdate c a b) s = .next (s.levels c a b) := by
  change Host.Outcome.next _ = _
  rw [if_neg (by omega)]
  dsimp only
  cases hp : s.posCounts c with
  | false => rfl
  | true =>
    rw [h.resolve_left (by simp [hp])]
    rfl
variable (hp : s.posCounts c = true)
include hp
theorem exec_countUpdate_error (h : quadStep (s.posAt c).a (s.posAt c).b a b = some 0) : exec (.countUpdate c a b) s = .next
    ((((s.levels c a b).incSat (pPOS c) R.POS_QERR_CNT).err (pPOS c) 0x40 1 (s.get (pPOS c) R.POS_CNT)).cause (pPOS c) 11) := by
  change Host.Outcome.next _ = _
  rw [if_neg (by omega)]
  dsimp only
  rw [hp, h]
  rfl
theorem exec_countUpdate_step {d : Int} (h : quadStep (s.posAt c).a (s.posAt c).b a b = some d) (hd : d ≠ 0) :
    exec (.countUpdate c a b) s = .next ((s.levels c a b).posUpdate c (if s.flag (pPOS c) R.POS_CTRL_INV then -d else d) s.tick s.cNs) := by
  change Host.Outcome.next _ = _
  rw [if_neg (by omega)]
  dsimp only
  rw [hp, h, if_neg (by decide)]
  split
  · next h0 => exact absurd h0 (Option.some_ne_none d)
  · next h0 => exact absurd (Option.some.inj h0) hd
  · next h0 => rw [Option.some.inj h0]; rfl
end
theorem State.frozen_of_counts {s : State} {n : Nat} (h : s.posCounts n = true) : s.frozen (pPOS n) = false := by
  simp only [State.posCounts, Bool.and_eq_true, Bool.not_eq_true'] at h
  exact State.frozen_of_unfenced h.1.1.2
/-- What a legal transition leaves on a quadrature channel, from the state with its new levels (R139, R146, R147, R149, R150). -/
theorem State.posUpdate_spec {s : State} (p : PosCh) (hp : p.val < 10) (hf : s.frozen (pPOS p) = false) (d : Int) (t ns : Nat)
    {u v : State} (hu : s.posCore p d t ns = u) (hv : s.posUpdate p d t ns = v) :
    v.posAt p = { u.posAt p with joinSteps := (u.posAt p).joinSteps + d } ∧ (∀ m, m ≠ p.val → v.posAt m = s.posAt m) ∧
    (∀ f, v.get (pPOS p) f = u.get (pPOS p) f) ∧ (∀ i < 8, v.lineY i = s.steppedY i p d) ∧
    s.regsBut v (countFields (pPOS p) ++ (List.range 8).flatMap fun i => [(pLINE i, R.LINE_Y_LO), (pLINE i, R.LINE_Y_HI)]) ∧
    ∃ r ps ln w, v = { s with regs := r, pos := ps, line := ln, host := { s.host with waiting := w } } := by
  rw [State.posUpdate_core, if_neg (by omega), hu] at hv
  obtain ⟨hm, -⟩ := State.posCore_spec p hf d t ns rfl hu
  unfold State.lineSteps at hv
  have hj := u.posAt_updPos p fun x => { x with joinSteps := x.joinSteps + d }
  have hjm := u.posMoves_updPos p fun x => { x with joinSteps := x.joinSteps + d }
  have hjr : (u.updPos p fun x => { x with joinSteps := x.joinSteps + d }).regs = u.regs := rfl
  dsimp only at hv
  generalize u.updPos p (fun x => { x with joinSteps := x.joinSteps + d }) = w at hj hjm hjr hv
  have hw := hm.trans hjm
  obtain ⟨h1, h2, -, r, ln, h4⟩ := w.linesStep_spec (List.range 8) List.nodup_range p d (uns 32 (s.get (pPOS p) R.POS_CNT + d))
  rw [hv] at h1 h2 h4
  have hne : ∀ i, i < 8 → pPOS p ≠ pLINE i := fun i hi he => by
    simp only [pPOS, pLINE] at he
    omega
  have hstep : ∀ i < 8, w.steppedY i p d = s.steppedY i p d := fun i hi => by
    obtain ⟨r, ps, wt, hsh⟩ := hw.shape
    have hpage := hw.page (hne i hi).symm
    have htherm : w.get pTHERM R.THERM_STAT_SHUT = s.get pTHERM R.THERM_STAT_SHUT := hw.get (by decide) _
    have hwork : w.working (pLINE i) = s.working (pLINE i) := by
      simp only [State.working, State.enabled, State.fenced, State.resetting, State.held, State.shut, State.flag, hpage, htherm]
      rw [hsh]
    have hline : w.lineAt i = s.lineAt i := by rw [hsh]; rfl
    have hY : w.lineY i = s.lineY i := congrArg (sgn 64) (congrArg₂ (fun a b => a * _ + b * _) (hpage _) (hpage _))
    have hgain : w.gain i = s.gain i := congrArg (sgn 32) (hpage _)
    unfold State.steppedY State.lineRuns
    rw [hwork, hline, hY, hgain]
  refine ⟨?_, fun m hm' => ?_, fun f => ?_, fun i hi => ?_, ?_, ?_⟩
  · rw [← hj, h4]
    rfl
  · rw [← hw.other m hm', h4]
    rfl
  · refine (h2 (pPOS p) f fun e he => Or.inl fun he' => ?_).trans (State.get_congr hjr _ _)
    simp only [List.mem_flatMap, List.mem_range, List.mem_cons, List.not_mem_nil, or_false] at he
    obtain ⟨i, hi, rfl | rfl⟩ := he <;> exact hne i hi he'
  · rw [h1 i (List.mem_range.mpr hi), hstep i hi]
  · exact State.regsBut_trans (State.regsBut_mono hw.regs (List.subset_append_left _ _)) (State.regsBut_mono h2 (List.subset_append_right _ _))
  · obtain ⟨r', ps, wt, hsh⟩ := hw.shape
    rw [h4, hsh]
    exact ⟨r, ps, ln, wt, rfl⟩
/-- Settles O22: a legal transition by `posCore_spec` for the channel and `posUpdate_spec` for the line generators. -/
theorem countUpdates : Obligations.CountUpdates := by
  unfold Obligations.CountUpdates
  refine ⟨fun s c a b h => exec_countUpdate_other h a b, fun s c a b hc => ⟨?_, ?_, fun h => exec_countUpdate_levels hc a b h⟩⟩
  · rintro hp d0 d new ds hq hd0 hd hnew hds
    rw [exec_countUpdate_step hc a b hp hq hd0, ← hd]
    obtain ⟨w, hw⟩ : ∃ w, w = s.levels c a b := ⟨_, rfl⟩
    rw [← hw]
    have hwx : w.posAt c = { s.posAt c with a := a, b := b } := by rw [hw]; exact s.posAt_updPos _ _
    have hwr : w.regs = s.regs := by rw [hw]; rfl
    have hwo : ∀ m, m ≠ c.val → w.posAt m = s.posAt m := fun m hm => by rw [hw]; exact NMap.getD_put_other _ _ _ hm
    have hws : ∃ ps, w = { s with pos := ps } := ⟨_, hw⟩
    clear hw
    have hg : ∀ p f, w.get p f = s.get p f := fun p f => State.get_congr hwr p f
    have hf : w.frozen (pPOS c) = false := (State.frozen_congr (hg _ _)).trans (State.frozen_of_counts hp)
    have hsign : dirSign (w.posAt c) = ds := by rw [hds, dirSign, hwx]
    obtain ⟨cn, hcn⟩ : ∃ cn, uns 32 (s.get (pPOS c) R.POS_CNT + d) = cn := ⟨_, rfl⟩
    rw [hcn] at hnew
    obtain ⟨-, k1, k2, ⟨ka, kb, -, -⟩, k3, k4, k5, k6, k7, k8, -⟩ := State.posCore_spec c hf d s.tick s.cNs
      (c := cn) (by rw [hg]; exact hcn) rfl
    obtain ⟨l1, l2, l3, l4, l5, r, ps, ln, wt, l6⟩ := State.posUpdate_spec c hc hf d s.tick s.cNs rfl rfl
    clear hcn
    subst hnew
    simp only [Int.toNat_natCast]
    have hturns : w.turns c d cn = true ↔ d * ds ≤ 0 ∧
        (max 1 (s.get (pPOS c) R.POS_HYST) : Int) ≤ diff32 (s.get (pPOS c) R.POS_TURN) cn * ds := by
      unfold State.turns
      rw [hsign, hg, hg]
      simp only [Bool.and_eq_true, Bool.not_eq_true', decide_eq_false_iff_not, decide_eq_true_eq, not_lt]
      push_cast
      rfl
    have hstay : 0 < d * ds ∨ diff32 (s.get (pPOS c) R.POS_TURN) cn * ds < (max 1 (s.get (pPOS c) R.POS_HYST) : Int) →
        w.turns c d cn = false := fun h => by
      rw [Bool.eq_false_iff]
      intro ht
      obtain ⟨h1, h2⟩ := hturns.mp ht
      exact h.elim (not_lt.mpr h1) (not_lt.mpr h2)
    have hback : stepsBack (w.posAt c) d = decide (d * ds ≤ 0) := by
      have hdne : d ≠ 0 := by
        rw [hd]
        split <;> simpa using hd0
      unfold stepsBack
      rw [hds, hwx]
      cases (s.posAt c).dir
      · simp only [Bool.false_eq_true, if_false, mul_one]
        exact decide_eq_decide.mpr (by omega)
      · simp only [if_true, mul_neg, mul_one]
        exact decide_eq_decide.mpr (by omega)
    have hnh : w.newHist c s.tick cn = ((s.posAt c).hist ++ [(s.tick, cn)]).drop
        ((s.posAt c).hist.length + 1 - (2 ^ s.get (pPOS c) R.POS_SPD_CFG + 1)) := by
      rw [State.newHist, hwx, hg]
    rw [hsign, hg, hwx] at k3 k5
    rw [hwx] at k4
    rw [hg, hwx] at k6 k7
    rw [hg, hwx, hnh] at k8
    rw [hwx] at hback ka kb
    rw [hback] at k7 k8
    generalize w.posCore c d s.tick s.cNs = u at k1 k2 ka kb k3 k4 k5 k6 k7 k8 l1 l3
    generalize w.posUpdate c d s.tick s.cNs = v at l1 l2 l3 l4 l5 l6 ⊢
    refine ⟨_, rfl, by rw [l3, k1], (l3 _).trans k2, by rw [l1]; exact ka, by rw [l1]; exact kb, fun h => ?_, fun h1 h2 => ?_, fun h1 h2 => ?_,
      fun h => ⟨fun h1 => ?_, fun h1 h2 h3 => ?_, fun h1 h2 hl hh => ?_⟩, fun h1 h2 => ?_, fun i hi => ?_, fun m hm => ?_, ?_, ?_⟩
    · rw [l1]
      exact (k3 h).1
    · rw [l3, (k3 h1).2, if_pos h2]
    · obtain ⟨e1, e2, e3, e4, e5, e6, e7⟩ := k4 (hturns.mpr ⟨h1, h2⟩)
      rw [l1, l3, l3, l3, e2]
      exact ⟨e1, rfl, e3, e4, e5, e6, e7⟩
    · rw [l1, l3, l3]
      exact k6 (hstay h) h1
    · rw [l1, l3]
      exact k7 (hstay h) h1 (by rw [h2]; simpa using h3)
    · have hnb : ((s.posAt c).newDir && decide (d * ds ≤ 0)) = false := by
        rcases h2 with h2 | h2
        · rw [h2]
          rfl
        · rw [decide_eq_false (not_le.mpr h2), Bool.and_false]
      obtain ⟨e1, e2, e3⟩ := k8 (hstay h) h1 hnb
      rw [← hh] at e1 e2 e3
      rw [l1, l3]
      refine ⟨e1, fun t0 c0 e r' he hlt => ?_, e3⟩
      obtain ⟨e4, e5, e6⟩ := e2 t0 c0 e r' he hlt
      exact ⟨congrArg Nat.cast e4, e5, e6⟩
    · rw [l1, l3]
      exact k5 (not_lt.mpr h1) (hstay (Or.inr h2))
    · rw [l4 i hi]
      obtain ⟨ps', hws⟩ := hws
      rw [hws]
      rfl
    · exact (l2 m hm).trans (hwo m hm)
    · exact State.regsBut_trans (State.regsBut_of_regs (State.regsBut_refl _ _) hwr) l5
    · obtain ⟨ps', hws⟩ := hws
      rw [l6, hws]
  · rintro hp hq
    rw [exec_countUpdate_error hc a b hp hq]
    obtain ⟨w, hw⟩ : ∃ w, w = s.levels c a b := ⟨_, rfl⟩
    rw [← hw]
    have hwx : w.posAt c = { s.posAt c with a := a, b := b } := by rw [hw]; exact s.posAt_updPos _ _
    have hwr : w.regs = s.regs := by rw [hw]; rfl
    have hwo : ∀ m, m ≠ c.val → w.posAt m = s.posAt m := fun m hm => by rw [hw]; exact NMap.getD_put_other _ _ _ hm
    have hws : ∃ ps, w = { s with pos := ps } := ⟨_, hw⟩
    clear hw
    have hg : ∀ p f, w.get p f = s.get p f := fun p f => State.get_congr hwr p f
    have hf : w.frozen (pPOS c) = false := (State.frozen_congr (hg _ _)).trans (State.frozen_of_counts hp)
    have hf1 : (w.incSat (pPOS c) R.POS_QERR_CNT).frozen (pPOS c) = false :=
      (State.frozen_congr (State.get_incSat_field _ _ (by decide))).trans hf
    have hcnt : (w.incSat (pPOS c) R.POS_QERR_CNT).get (pPOS c) R.POS_QERR_CNT =
        min (s.get (pPOS c) R.POS_QERR_CNT + 1) (2 ^ R.POS_QERR_CNT.w - 1) := by rw [State.get_incSat_self, hg]
    have hbut : w.regsBut (w.incSat (pPOS c) R.POS_QERR_CNT) ((pPOS c, R.POS_QERR_CNT) :: errFields (pPOS c)) :=
      State.regsBut_incSat (State.regsBut_refl _ _) (by simp)
    have hrep := w.reports_incSat (pPOS c) R.POS_QERR_CNT
    generalize s.get (pPOS c) R.POS_CNT = cnt
    generalize w.incSat (pPOS c) R.POS_QERR_CNT = x at hf1 hcnt hbut hrep ⊢
    have hf2 : (x.err (pPOS c) 0x40 1 cnt).frozen (pPOS c) = false :=
      (State.frozen_congr (State.get_err_field _ _ _ _ _ _ _ (by decide))).trans hf1
    have hb1 := x.bit_err hf1 0x40 1 cnt 0 0
    have hbut2 := State.regsBut_err hbut (p := pPOS c) 0x40 1 cnt 0 0 (fun e he => List.mem_cons_of_mem _ he)
    have hcnt2 : (x.err (pPOS c) 0x40 1 cnt).get (pPOS c) R.POS_QERR_CNT = x.get (pPOS c) R.POS_QERR_CNT :=
      State.get_err_field _ _ _ _ _ _ _ (by decide)
    obtain ⟨r, wt, hsh⟩ := (hrep.trans (x.reports_err (pPOS c) 0x40 1 cnt 0 0)).trans (State.reports_cause _ (pPOS c) 11)
    refine ⟨_, rfl, ((State.get_cause_field _ _ _ (by decide)).trans hcnt2).trans hcnt, State.bit_cause _ (by decide) hf2,
      State.bit_cause_keeps _ (by decide) hb1, ?_, ?_, fun m hm => ?_, ?_⟩
    · exact State.regsBut_trans (State.regsBut_of_regs (State.regsBut_refl _ _) hwr) (State.regsBut_cause hbut2 _ (by simp [errFields]))
    · rw [hsh, ← hwx]
      rfl
    · rw [hsh, ← hwo m hm]
      rfl
    · obtain ⟨ps', hws⟩ := hws
      rw [hsh, hws]
end Sys2Proof.Machine
end

section
/-! ### Position compares (O25) -/
open Sys2Proof Sys2Proof.Machine
namespace Sys2Proof.Machine

/-! ### A write of a compare (R149) -/

/-- No position channel owns a shared resource (R51). -/
theorem State.owners_page (s : State) : ∀ o ∈ s.owners, o.page < 0x010 ∨ 0x01C ≤ o.page := by
  simp only [State.owners, List.mem_append, List.mem_map, List.mem_flatMap, List.mem_cons, List.not_mem_nil, or_false]
  rintro o ((((((⟨k, -, rfl⟩ | ⟨k, -, rfl⟩) | rfl) | ⟨k, -, rfl⟩) | ⟨k, -, rfl | rfl⟩) | ⟨k, -, rfl | rfl | rfl | rfl⟩) |
    rfl | rfl | rfl | rfl)
  all_goals simp only [pPINMUX, pTIME, pBREATH, pFEED, pENC, pCAM, pCHANT, pCAL]
  all_goals omega
theorem State.settleClaims_pos (s : State) (c : PosCh) (off : Nat) : s.settleClaims (pPOS c) off = s := by
  unfold State.settleClaims
  rw [List.filter_eq_nil_iff.2, List.foldl_nil]
  intro o ho
  have := s.owners_page o ho
  simp only [Bool.and_eq_true, beq_iff_eq, not_and, pPOS]
  omega
theorem fieldsAt_compare : ∀ c : PosCh, fieldsAt .pos c 0x80 = [R.POS_CMP0] ∧ fieldsAt .pos c 0x84 = [R.POS_CMP1] := by decide
theorem field_word (v : W32) : field v.toNat 0 32 = v.toNat := by
  unfold field
  rw [pow_zero, Nat.div_one]
  exact Nat.mod_eq_of_lt v.isLt
theorem State.storeReg_compare (s : State) (c : PosCh) (v : W32) :
    s.storeReg (pPOS c) 0x80 v.toNat = s.set (pPOS c) R.POS_CMP0 v.toNat ∧
    s.storeReg (pPOS c) 0x84 v.toNat = s.set (pPOS c) R.POS_CMP1 v.toNat := by
  obtain ⟨h0, h1⟩ := fieldsAt_compare c
  have hstore : ∀ f ∈ [R.POS_CMP0, R.POS_CMP1], s.storeField (pPOS c) .pos v.toNat f = s.set (pPOS c) f v.toNat := fun f hf => by
    simp only [List.mem_cons, List.not_mem_nil, or_false] at hf
    rcases hf with rfl | rfl
    · exact congrArg (s.set (pPOS c) R.POS_CMP0) (field_word v)
    · exact congrArg (s.set (pPOS c) R.POS_CMP1) (field_word v)
  unfold State.storeReg
  rw [blkOf_pos _ c.isLt]
  dsimp only
  rw [h0, h1, List.foldl_cons, List.foldl_nil, List.foldl_cons, List.foldl_nil, State.settleClaims_pos, State.settleClaims_pos]
  exact ⟨hstore _ (by simp), hstore _ (by simp)⟩
/-- A compare as a write arms it, by its fields. -/
def State.armed (s : State) (p : Nat) (cmp arm fired dir behind : Fld) (v : Nat) (d b : Bool) : State :=
  ((((s.set p cmp v).set p arm 1).set p fired 0).setFlag p dir d).setFlag p behind b
theorem State.armed_spec (s : State) (p : Nat) {cmp arm fired dir behind : Fld} (v : Nat) (d b : Bool)
    (hne : [cmp.id, arm.id, fired.id, dir.id, behind.id].Nodup)
    (hirq : ∀ f ∈ [cmp, arm, fired, dir, behind], R.PG_IRQ_RAW.id ≠ f.id ∧ R.PG_FENCE_FENCED.id ≠ f.id)
    (hw : cmp.w = 32 ∧ arm.w = 1 ∧ dir.w = 1 ∧ behind.w = 1) {t : State} (ht : s.armed p cmp arm fired dir behind v d b = t) :
    t.get p cmp = v % 2 ^ 32 ∧ t.get p arm = 1 ∧ t.get p fired = 0 ∧ t.get p dir = b2n d ∧ t.get p behind = b2n b ∧
    t.get p R.PG_IRQ_RAW = s.get p R.PG_IRQ_RAW ∧ t.frozen p = s.frozen p ∧
    s.regsBut t [(p, cmp), (p, arm), (p, fired), (p, dir), (p, behind), (p, R.PG_IRQ_RAW)] ∧ ∃ r, t = { s with regs := r } := by
  simp only [List.nodup_cons, List.mem_cons, List.not_mem_nil, or_false, not_or] at hne
  obtain ⟨⟨a1, a2, a3, a4⟩, ⟨b1, b2, b3⟩, ⟨c1, c2⟩, d1, -⟩ := hne
  simp only [List.forall_mem_cons] at hirq
  obtain ⟨i1, i2, i3, i4, i5, -⟩ := hirq
  obtain ⟨w1, w2, w3, w4⟩ := hw
  subst ht
  unfold State.armed State.setFlag
  refine ⟨?_, ?_, ?_, ?_, ?_, ?_, State.frozen_congr ?_, ?_,
    ((((s.wrote_set _ _ _).trans (State.wrote_set _ _ _ _)).trans (State.wrote_set _ _ _ _)).trans (State.wrote_set _ _ _ _)).trans
      (State.wrote_set _ _ _ _)⟩
  · rw [State.get_set_field _ _ _ a4, State.get_set_field _ _ _ a3, State.get_set_field _ _ _ a2, State.get_set_field _ _ _ a1,
      State.get_set_self, w1]
  · rw [State.get_set_field _ _ _ b3, State.get_set_field _ _ _ b2, State.get_set_field _ _ _ b1, State.get_set_self, w2]
    rfl
  · rw [State.get_set_field _ _ _ c2, State.get_set_field _ _ _ c1, State.get_set_self, Nat.zero_mod]
  · rw [State.get_set_field _ _ _ d1, State.get_set_self, w3]
    cases d <;> rfl
  · rw [State.get_set_self, w4]
    cases b <;> rfl
  · rw [State.get_set_field _ _ _ i5.1, State.get_set_field _ _ _ i4.1, State.get_set_field _ _ _ i3.1, State.get_set_field _ _ _ i2.1,
      State.get_set_field _ _ _ i1.1]
  · rw [State.get_set_field _ _ _ i5.2, State.get_set_field _ _ _ i4.2, State.get_set_field _ _ _ i3.2, State.get_set_field _ _ _ i2.2,
      State.get_set_field _ _ _ i1.2]
  · exact State.regsBut_set (State.regsBut_set (State.regsBut_set (State.regsBut_set (State.regsBut_set (State.regsBut_refl _ _) _ (by simp))
      _ (by simp)) _ (by simp)) _ (by simp)) _ (by simp)
/-- The end of a compare's write: what was due is not, and a target that does not lie ahead raises cause 10 (R149). -/
def State.compareSet (s : State) (n : Nat) (g : PosSt → PosSt) (behind : Bool) : State :=
  if behind then (s.updPos n g).cause (pPOS n) 10 else s.updPos n g
theorem State.compareSet_spec {s : State} (n : Nat) (g : PosSt → PosSt) (behind : Bool) (hf : s.frozen (pPOS n) = false) {t : State}
    (ht : s.compareSet n g behind = t) : (∀ {f : Fld}, f.id ≠ R.PG_IRQ_RAW.id → t.get (pPOS n) f = s.get (pPOS n) f) ∧
    (behind = true → bit (t.get (pPOS n) R.PG_IRQ_RAW) 10 = true) ∧
    (behind = false → t.get (pPOS n) R.PG_IRQ_RAW = s.get (pPOS n) R.PG_IRQ_RAW) ∧ t.posAt n = g (s.posAt n) ∧
    s.regsBut t [(pPOS n, R.PG_IRQ_RAW)] ∧ ∃ r ps w, t = { s with regs := r, pos := ps, host := { s.host with waiting := w } } := by
  unfold State.compareSet at ht
  have hp := s.posAt_updPos n g
  have hg : ∀ f, (s.updPos n g).get (pPOS n) f = s.get (pPOS n) f := fun f => rfl
  have hb : s.regsBut (s.updPos n g) [(pPOS n, R.PG_IRQ_RAW)] := State.regsBut_of_regs (State.regsBut_refl _ _) rfl
  have hsh : ∃ ps, s.updPos n g = { s with pos := ps } := ⟨_, rfl⟩
  generalize s.updPos n g = v at hp hg hb hsh ht
  obtain ⟨ps, hsh⟩ := hsh
  cases behind with
  | true =>
    rw [if_pos rfl] at ht
    obtain ⟨r, w, hrep⟩ := v.reports_cause (pPOS n) 10
    subst ht
    exact ⟨fun hf => (State.get_cause_field _ _ _ hf).trans (hg _), fun _ => State.bit_cause _ (by decide) ((State.frozen_congr (hg _)).trans hf),
      fun h => absurd h (by decide), by rw [State.posAt_cause]; exact hp, State.regsBut_cause hb _ (by simp), r, ps, w, by rw [hrep, hsh]⟩
  | false =>
    rw [if_neg (by decide)] at ht
    subst ht
    exact ⟨fun _ => hg _, fun h => absurd h (by decide), fun _ => hg _, hp, hb, s.regs, ps, s.host.waiting, hsh⟩
/-- A target that does not lie ahead of the count (R149). -/
def State.behind (s : State) (n v : Nat) : Bool := decide (diff32 v (s.get (pPOS n) R.POS_CNT) * dirSign (s.posAt n) ≤ 0)
theorem posCmpAct_zero (s : State) (c : PosCh) (v : W32) : posCmpAct c 0 v.toNat s =
    (s.armed (pPOS c) R.POS_CMP0 R.POS_CMP_STAT_ARMED0 R.POS_CMP_STAT_FIRED0 R.POS_CMP_STAT_DIR0 R.POS_CMP_STAT_BEHIND0 v.toNat
      (s.posAt c).dir (s.behind c v.toNat)).compareSet c (fun x => { x with due0 := none }) (s.behind c v.toNat) := by
  unfold posCmpAct
  dsimp only
  rw [show 0x80 + 4 * 0 = 0x80 from rfl, (s.storeReg_compare c v).1]
  rfl
theorem posCmpAct_one (s : State) (c : PosCh) (v : W32) : posCmpAct c 1 v.toNat s =
    (s.armed (pPOS c) R.POS_CMP1 R.POS_CMP_STAT_ARMED1 R.POS_CMP_STAT_FIRED1 R.POS_CMP_STAT_DIR1 R.POS_CMP_STAT_BEHIND1 v.toNat
      (s.posAt c).dir (s.behind c v.toNat)).compareSet c (fun x => { x with due1 := none }) (s.behind c v.toNat) := by
  unfold posCmpAct
  dsimp only
  rw [show 0x80 + 4 * 1 = 0x84 from rfl, (s.storeReg_compare c v).2]
  rfl
theorem not_lane (c : PosCh) : ∀ i, blkOf (pPOS c) ≠ some (.lane, i) := fun i h => by
  rw [blkOf_pos _ c.isLt] at h
  cases h
theorem exec_posCmpWrite {s : State} {c : PosCh} {k : Fin 2} {v : W32} {off : Nat} (hoff : 0x80 + 4 * k.val = off)
    (h : s.accepts (pPOS c) off v.toNat) : exec (.posCmpWrite c k v) s = .next (posCmpAct c k v.toNat s) :=
  congrArg Host.Outcome.next (State.writeWith_accepts _ (hoff ▸ h) (Or.inl (not_lane c)))
theorem exec_posCmpDisarm {s : State} {c : PosCh} {m : BitVec 2} (h : s.accepts (pPOS c) 0x88 m.toNat) :
    exec (.posCmpDisarm c m) s = .next (posDisarmAct c m.toNat s) :=
  congrArg Host.Outcome.next (State.writeWith_accepts _ h (Or.inl (not_lane c)))
theorem exec_posCompareFire_idle {s : State} {c : PosCh} {k : Fin 2}
    (h : s.posCounts c = false ∨ (if k = 0 then (s.posAt c).due0 else (s.posAt c).due1) = none) : exec (.posCompareFire c k) s = .next s := by
  change Host.Outcome.next _ = _
  cases hp : s.posCounts c with
  | false => rfl
  | true =>
    replace h := h.resolve_left (by simp [hp])
    rw [if_neg (by decide)]
    obtain rfl | rfl : k = 0 ∨ k = 1 := by omega
    · rw [if_pos rfl] at h
      rw [if_pos (show ((0 : Fin 2) : Nat) = 0 from rfl), h]
    · rw [if_neg (by decide)] at h
      rw [if_neg (show ((1 : Fin 2) : Nat) ≠ 0 by decide), h]
/-- A compare as it fires, by its fields. -/
def State.fired (s : State) (n : Nat) (arm fire at_ : Fld) (ns : Nat) (g : PosSt → PosSt) (i : Nat) : State :=
  ((((s.set (pPOS n) arm 0).set (pPOS n) fire 1).set (pPOS n) at_ ns).updPos n g).cause (pPOS n) i
theorem exec_posCompareFire_zero {s : State} {c : PosCh} {ns : Nat} (hp : s.posCounts c = true) (h : (s.posAt c).due0 = some ns) :
    exec (.posCompareFire c 0) s =
      .next (s.fired c R.POS_CMP_STAT_ARMED0 R.POS_CMP_STAT_FIRED0 R.POS_CMP_T0 ns (fun x => { x with due0 := none }) 8) := by
  change Host.Outcome.next _ = _
  rw [hp, if_neg (by decide), if_pos (show ((0 : Fin 2) : Nat) = 0 from rfl), h]
  rfl
theorem exec_posCompareFire_one {s : State} {c : PosCh} {ns : Nat} (hp : s.posCounts c = true) (h : (s.posAt c).due1 = some ns) :
    exec (.posCompareFire c 1) s =
      .next (s.fired c R.POS_CMP_STAT_ARMED1 R.POS_CMP_STAT_FIRED1 R.POS_CMP_T1 ns (fun x => { x with due1 := none }) 9) := by
  change Host.Outcome.next _ = _
  rw [hp, if_neg (by decide), if_neg (show ((1 : Fin 2) : Nat) ≠ 0 by decide), h]
  rfl
theorem State.fired_spec {s : State} {n : Nat} (hf : s.frozen (pPOS n) = false) {arm fire at_ : Fld} (ns : Nat) (g : PosSt → PosSt) {i : Nat}
    (hi : i < 32) (hne : [arm.id, fire.id, at_.id].Nodup)
    (hirq : ∀ f ∈ [arm, fire, at_], f.id ≠ R.PG_IRQ_RAW.id ∧ R.PG_FENCE_FENCED.id ≠ f.id) (hw : fire.w = 1) {t : State}
    (ht : s.fired n arm fire at_ ns g i = t) :
    t.get (pPOS n) arm = 0 ∧ t.get (pPOS n) fire = 1 ∧ t.get (pPOS n) at_ = ns % 2 ^ at_.w ∧ bit (t.get (pPOS n) R.PG_IRQ_RAW) i = true ∧
    t.posAt n = g (s.posAt n) ∧ s.regsBut t [(pPOS n, arm), (pPOS n, fire), (pPOS n, at_), (pPOS n, R.PG_IRQ_RAW)] ∧
    ({ t with regs := s.regs, pos := s.pos, host := s.host } : State) = s := by
  simp only [List.nodup_cons, List.mem_cons, List.not_mem_nil, or_false, not_or] at hne
  obtain ⟨⟨a1, a2⟩, b1, -⟩ := hne
  simp only [List.forall_mem_cons] at hirq
  obtain ⟨i1, i2, i3, -⟩ := hirq
  unfold State.fired at ht
  have h1 : ((((s.set (pPOS n) arm 0).set (pPOS n) fire 1).set (pPOS n) at_ ns)).get (pPOS n) arm = 0 := by
    rw [State.get_set_field _ _ _ a2, State.get_set_field _ _ _ a1, State.get_set_self, Nat.zero_mod]
  have h2 : ((((s.set (pPOS n) arm 0).set (pPOS n) fire 1).set (pPOS n) at_ ns)).get (pPOS n) fire = 1 := by
    rw [State.get_set_field _ _ _ b1, State.get_set_self, hw]
    rfl
  have h3 : ((((s.set (pPOS n) arm 0).set (pPOS n) fire 1).set (pPOS n) at_ ns)).get (pPOS n) at_ = ns % 2 ^ at_.w := State.get_set_self _ _ _ _
  have hfr : ((((s.set (pPOS n) arm 0).set (pPOS n) fire 1).set (pPOS n) at_ ns)).frozen (pPOS n) = false := by
    rw [← hf]
    refine State.frozen_congr ?_
    rw [State.get_set_field _ _ _ i3.2, State.get_set_field _ _ _ i2.2, State.get_set_field _ _ _ i1.2]
  have hb : s.regsBut ((((s.set (pPOS n) arm 0).set (pPOS n) fire 1).set (pPOS n) at_ ns))
      [(pPOS n, arm), (pPOS n, fire), (pPOS n, at_), (pPOS n, R.PG_IRQ_RAW)] :=
    State.regsBut_set (State.regsBut_set (State.regsBut_set (State.regsBut_refl _ _) _ (by simp)) _ (by simp)) _ (by simp)
  have hsh : s.wrote ((((s.set (pPOS n) arm 0).set (pPOS n) fire 1).set (pPOS n) at_ ns)) :=
    ((s.wrote_set _ _ _).trans (State.wrote_set _ _ _ _)).trans (State.wrote_set _ _ _ _)
  generalize (((s.set (pPOS n) arm 0).set (pPOS n) fire 1).set (pPOS n) at_ ns) = v at h1 h2 h3 hfr hb hsh ht
  obtain ⟨r, hsh⟩ := hsh
  have hp := v.posAt_updPos n g
  have hg : ∀ f, (v.updPos n g).get (pPOS n) f = v.get (pPOS n) f := fun f => rfl
  have hvb : v.regsBut (v.updPos n g) [(pPOS n, arm), (pPOS n, fire), (pPOS n, at_), (pPOS n, R.PG_IRQ_RAW)] :=
    State.regsBut_of_regs (State.regsBut_refl _ _) rfl
  have hvs : ∃ ps, v.updPos n g = { v with pos := ps } := ⟨_, rfl⟩
  generalize v.updPos n g = w at hp hg hvb hvs ht
  obtain ⟨ps, hvs⟩ := hvs
  obtain ⟨r', wt, hrep⟩ := w.reports_cause (pPOS n) i
  subst ht
  refine ⟨(State.get_cause_field _ _ _ i1.1).trans ((hg _).trans h1), (State.get_cause_field _ _ _ i2.1).trans ((hg _).trans h2),
    (State.get_cause_field _ _ _ i3.1).trans ((hg _).trans h3), State.bit_cause _ hi ((State.frozen_congr (hg _)).trans hfr), ?_,
    State.regsBut_cause (State.regsBut_trans hb hvb) _ (by simp), by rw [hrep, hvs, hsh]⟩
  rw [State.posAt_cause, hp, hsh]
  rfl
/-- A serial word that is intact and without its error bit (R143, R145). -/
theorem exec_serialWord_good {s : State} {c : PosCh} {w : BitVec 41} {x : Nat × Nat} (hc : 10 ≤ c.val) (hp : s.posCounts c = true)
    (hx : (s.posAt c).xfer = some x) (hcrc : crc8 (bitsMsb 33 (w.toNat / 256)) = w.toNat % 256) (he : bit w.toNat 8 = false) :
    exec (.serialWord c w) s = .next ((s.updPos c fun x => { x with xfer := none, fails := 0 }).posUpdate c
      (diff32 (w.toNat / 512) (s.get (pPOS c) R.POS_CNT)) x.1 x.2) := by
  change Host.Outcome.next _ = _
  rw [if_neg (by omega), hx]
  dsimp only
  rw [hp, if_neg (by decide), if_neg (by simp [hcrc]), if_neg (by simp [he])]
/-- A difference that is added again gives the number back. -/
theorem uns_add_diff32 (a : Nat) {b : Nat} (hb : b < 2 ^ 32) : uns 32 (a + diff32 b a) = b := by
  have he : ∀ n : Nat, (a + sgn 32 n) % ((2 ^ 32 : Nat) : Int) = ((a + n % 2 ^ 32 : Nat) : Int) % ((2 ^ 32 : Nat) : Int) := fun n => by
    unfold sgn
    split
    · push_cast
      rfl
    · rw [← add_sub_assoc, Int.sub_emod_right]
      push_cast
      rfl
  unfold uns diff32
  rw [he, ← Int.natCast_mod, Int.toNat_natCast, Nat.add_mod_mod]
  norm_num only at hb ⊢
  omega
/-- What the compares make due is told by the registers and by what was due before. -/
theorem compareDue_of {s w u v : State} {c : PosCh} {n ns : Nat} (h : compareDue w u c n ns) (hr : w.regs = s.regs)
    (h0 : (w.posAt c).due0 = (s.posAt c).due0 ∧ (w.posAt c).due1 = (s.posAt c).due1)
    (h1 : (v.posAt c).due0 = (u.posAt c).due0 ∧ (v.posAt c).due1 = (u.posAt c).due1) : compareDue s v c n ns := by
  unfold compareDue crosses at h ⊢
  simp only [State.get_congr hr, State.flag, h0.1, h0.2, ← h1.1, ← h1.2] at h ⊢
  exact h
/-- The frame of a compare's write. -/
theorem State.compareWrite_spec {s : State} {c : PosCh} (hf : s.frozen (pPOS c) = false) {cmp arm fired dir behind : Fld} (v : W32)
    (hne : [cmp.id, arm.id, fired.id, dir.id, behind.id].Nodup)
    (hirq : ∀ f ∈ [cmp, arm, fired, dir, behind], R.PG_IRQ_RAW.id ≠ f.id ∧ R.PG_FENCE_FENCED.id ≠ f.id)
    (hw : cmp.w = 32 ∧ arm.w = 1 ∧ dir.w = 1 ∧ behind.w = 1) (g : PosSt → PosSt) {t : State}
    (ht : (s.armed (pPOS c) cmp arm fired dir behind v.toNat (s.posAt c).dir (s.behind c v.toNat)).compareSet c g (s.behind c v.toNat) = t) :
    t.get (pPOS c) cmp = v.toNat ∧ t.get (pPOS c) arm = 1 ∧ t.get (pPOS c) fired = 0 ∧ t.get (pPOS c) dir = b2n (s.posAt c).dir ∧
    t.get (pPOS c) behind = b2n (s.behind c v.toNat) ∧ (t.get (pPOS c) behind = 1 → bit (t.get (pPOS c) R.PG_IRQ_RAW) 10 = true) ∧
    (t.get (pPOS c) behind = 0 → t.get (pPOS c) R.PG_IRQ_RAW = s.get (pPOS c) R.PG_IRQ_RAW) ∧ t.posAt c = g (s.posAt c) ∧
    s.regsBut t [(pPOS c, cmp), (pPOS c, arm), (pPOS c, fired), (pPOS c, dir), (pPOS c, behind), (pPOS c, R.PG_IRQ_RAW)] ∧
    ({ t with regs := s.regs, pos := s.pos, host := s.host } : State) = s := by
  obtain ⟨w, hwd⟩ : ∃ w, s.armed (pPOS c) cmp arm fired dir behind v.toNat (s.posAt c).dir (s.behind c v.toNat) = w := ⟨_, rfl⟩
  obtain ⟨a1, a2, a3, a4, a5, a6, a7, a8, r, hr⟩ := s.armed_spec (pPOS c) v.toNat (s.posAt c).dir (s.behind c v.toNat) hne hirq hw hwd
  rw [hwd] at ht
  clear hwd
  obtain ⟨b1, b2, b3, b4, b5, r', ps, wt, hr'⟩ := State.compareSet_spec c g _ (a7.trans hf) ht
  simp only [List.forall_mem_cons] at hirq
  obtain ⟨⟨i1, -⟩, ⟨i2, -⟩, ⟨i3, -⟩, ⟨i4, -⟩, ⟨i5, -⟩, -⟩ := hirq
  have hbe : t.get (pPOS c) behind = b2n (s.behind c v.toNat) := (b1 i5.symm).trans a5
  refine ⟨?_, (b1 i2.symm).trans a2, (b1 i3.symm).trans a3, (b1 i4.symm).trans a4, hbe, fun h => b2 ?_, fun h => (b3 ?_).trans a6, ?_,
    State.regsBut_trans a8 (State.regsBut_mono b5 (by simp)), by rw [hr', hr]⟩
  · rw [b1 i1.symm, a1]
    exact Nat.mod_eq_of_lt v.isLt
  · rw [hbe] at h
    exact (by decide : ∀ b, b2n b = 1 → b = true) _ h
  · rw [hbe] at h
    exact (by decide : ∀ b, b2n b = 0 → b = false) _ h
  · rw [b4, hr]
    rfl
/-- One compare, disarmed where its bit is 1. -/
def State.disarmed (s : State) (n : Nat) (arm : Fld) (g : PosSt → PosSt) (b : Bool) : State :=
  if b then (s.set (pPOS n) arm 0).updPos n g else s
theorem posDisarmAct_eq (n v : Nat) (s : State) : posDisarmAct n v s =
    (s.disarmed n R.POS_CMP_STAT_ARMED0 (fun x => { x with due0 := none }) (bit v 0)).disarmed n R.POS_CMP_STAT_ARMED1
      (fun x => { x with due1 := none }) (bit v 1) := rfl
theorem State.disarmed_spec (s : State) (n : Nat) (arm : Fld) (g : PosSt → PosSt) (b : Bool) {t : State} (ht : s.disarmed n arm g b = t) :
    (b = true → t.get (pPOS n) arm = 0 ∧ t.posAt n = g (s.posAt n)) ∧ (b = false → t = s) ∧
    (∀ {f : Fld}, f.id ≠ arm.id → t.get (pPOS n) f = s.get (pPOS n) f) ∧ s.regsBut t [(pPOS n, arm)] ∧
    ∃ r ps, t = { s with regs := r, pos := ps } := by
  subst ht
  cases b with
  | true =>
    refine ⟨fun _ => ⟨(State.get_set_self _ _ _ _).trans (Nat.zero_mod _), State.posAt_updPos _ _ _⟩, fun h => absurd h (by decide),
      fun h => State.get_set_field _ _ _ h, State.regsBut_of_regs (State.regsBut_set (State.regsBut_refl s _) _ (by simp)) rfl, _, _, rfl⟩
  | false => exact ⟨fun h => absurd h (by decide), fun _ => rfl, fun _ => rfl, State.regsBut_refl _ _, _, _, rfl⟩
/-- Settles O25: the write by `compareWrite_spec`, the firing by `fired_spec`, what becomes due by `posCore_spec`. -/
theorem positionCompares : Obligations.PositionCompares := by
  unfold Obligations.PositionCompares
  intro s c
  refine ⟨fun v h => ?_, fun v h => ?_, fun m h => ?_, fun ns hp h => ?_, fun ns hp h => ?_, fun k h => exec_posCompareFire_idle h,
    fun a b d hc hp hq hd => ?_, fun w x hc hp hx hcrc he => ?_⟩
  · have hf := State.frozen_of_unfenced (State.fenced_of_unblocked (State.accepts_unblocked h (by decide)))
    have hexec := exec_posCmpWrite (k := 0) rfl h
    obtain ⟨t, ht⟩ : ∃ t, posCmpAct c (0 : Fin 2) v.toNat s = t := ⟨_, rfl⟩
    rw [ht] at hexec
    refine ⟨t, hexec, ?_⟩
    replace ht : posCmpAct c 0 v.toNat s = t := ht
    rw [posCmpAct_zero] at ht
    obtain ⟨h1, h2, h3, h4, h5, h6, h7, h8, h9⟩ := State.compareWrite_spec hf v (by decide) (by decide) (by decide) _ ht
    exact ⟨h1, h2, h3, h4, h5, h6, h7, by rw [h8], h9⟩
  · have hf := State.frozen_of_unfenced (State.fenced_of_unblocked (State.accepts_unblocked h (by decide)))
    have hexec := exec_posCmpWrite (k := 1) rfl h
    obtain ⟨t, ht⟩ : ∃ t, posCmpAct c (1 : Fin 2) v.toNat s = t := ⟨_, rfl⟩
    rw [ht] at hexec
    refine ⟨t, hexec, ?_⟩
    replace ht : posCmpAct c 1 v.toNat s = t := ht
    rw [posCmpAct_one] at ht
    obtain ⟨h1, h2, h3, h4, h5, h6, h7, h8, h9⟩ := State.compareWrite_spec hf v (by decide) (by decide) (by decide) _ ht
    exact ⟨h1, h2, h3, h4, h5, h6, h7, by rw [h8], h9⟩
  · obtain ⟨t, ht⟩ : ∃ t, posDisarmAct c m.toNat s = t := ⟨_, rfl⟩
    refine ⟨t, (exec_posCmpDisarm h).trans (congrArg _ ht), ?_⟩
    rw [posDisarmAct_eq] at ht
    obtain ⟨u, hu⟩ : ∃ u, s.disarmed c R.POS_CMP_STAT_ARMED0 (fun x => { x with due0 := none }) (bit m.toNat 0) = u := ⟨_, rfl⟩
    rw [hu] at ht
    obtain ⟨a1, a2, a3, a4, r, ps, a5⟩ := State.disarmed_spec _ _ _ _ _ hu
    obtain ⟨b1, b2, b3, b4, r', ps', b5⟩ := State.disarmed_spec _ _ _ _ _ ht
    refine ⟨fun h0 => ⟨(b3 (by decide)).trans (a1 h0).1, ?_⟩, fun h1 => ⟨(b1 h1).1, by rw [(b1 h1).2]⟩, fun h0 => ?_, fun h1 => ?_,
      State.regsBut_trans (State.regsBut_mono a4 (by simp)) (State.regsBut_mono b4 (by simp)), by rw [b5, a5]⟩
    · cases h1 : bit m.toNat 1 with
      | true => rw [(b1 h1).2, (a1 h0).2]
      | false => rw [b2 h1, (a1 h0).2]
    · rw [b3 (by decide), a2 h0]
    · rw [b2 h1, a3 (by decide)]
  · obtain ⟨t, ht⟩ : ∃ t, s.fired c R.POS_CMP_STAT_ARMED0 R.POS_CMP_STAT_FIRED0 R.POS_CMP_T0 ns (fun x => { x with due0 := none }) 8 = t := ⟨_, rfl⟩
    refine ⟨t, (exec_posCompareFire_zero hp h).trans (congrArg _ ht), ?_⟩
    obtain ⟨h1, h2, h3, h4, h5, h6⟩ := State.fired_spec (State.frozen_of_counts hp) ns _ (by decide) (by decide) (by decide) rfl ht
    exact ⟨h1, h2, h3, h4, by rw [h5], h6⟩
  · obtain ⟨t, ht⟩ : ∃ t, s.fired c R.POS_CMP_STAT_ARMED1 R.POS_CMP_STAT_FIRED1 R.POS_CMP_T1 ns (fun x => { x with due1 := none }) 9 = t := ⟨_, rfl⟩
    refine ⟨t, (exec_posCompareFire_one hp h).trans (congrArg _ ht), ?_⟩
    obtain ⟨h1, h2, h3, h4, h5, h6⟩ := State.fired_spec (State.frozen_of_counts hp) ns _ (by decide) (by decide) (by decide) rfl ht
    exact ⟨h1, h2, h3, h4, by rw [h5], h6⟩
  · rw [exec_countUpdate_step hc a b hp hq hd]
    obtain ⟨w, hw⟩ : ∃ w, w = s.levels c a b := ⟨_, rfl⟩
    rw [← hw]
    have hwx : w.posAt c = { s.posAt c with a := a, b := b } := by rw [hw]; exact s.posAt_updPos _ _
    have hwr : w.regs = s.regs := by rw [hw]; rfl
    clear hw
    generalize (if s.flag (pPOS c) R.POS_CTRL_INV then -d else d) = e
    have hf : w.frozen (pPOS c) = false := (State.frozen_congr (State.get_congr hwr _ _)).trans (State.frozen_of_counts hp)
    rw [← State.get_congr hwr]
    obtain ⟨-, -, -, -, -, -, -, -, -, -, k⟩ := State.posCore_spec c hf e s.tick s.cNs rfl rfl
    obtain ⟨l, -⟩ := State.posUpdate_spec c hc hf e s.tick s.cNs rfl rfl
    exact ⟨_, rfl, compareDue_of k hwr (by rw [hwx]; exact ⟨rfl, rfl⟩) (by rw [l]; exact ⟨rfl, rfl⟩)⟩
  · rw [exec_serialWord_good hc hp hx hcrc he]
    obtain ⟨w', hw⟩ : ∃ w', w' = s.updPos c fun x => { x with xfer := none, fails := 0 } := ⟨_, rfl⟩
    rw [← hw]
    have hwx : w'.posAt c = { s.posAt c with xfer := none, fails := 0 } := by rw [hw]; exact s.posAt_updPos _ _
    have hwr : w'.regs = s.regs := by rw [hw]; rfl
    clear hw
    have hf : w'.frozen (pPOS c) = false := (State.frozen_congr (State.get_congr hwr _ _)).trans (State.frozen_of_counts hp)
    have hlt : w.toNat / 512 < 2 ^ 32 := by
      have := w.isLt
      norm_num only at this ⊢
      omega
    obtain ⟨-, -, -, -, -, -, -, -, -, -, k⟩ := State.posCore_spec c hf (diff32 (w.toNat / 512) (s.get (pPOS c) R.POS_CNT)) x.1 x.2
      (c := w.toNat / 512) (by rw [State.get_congr hwr]; exact uns_add_diff32 _ hlt) rfl
    rw [State.posUpdate_core, if_pos hc]
    exact ⟨_, rfl, compareDue_of k hwr (by rw [hwx]; exact ⟨rfl, rfl⟩) ⟨rfl, rfl⟩⟩
end Sys2Proof.Machine
end

section
/-! ### Serial sensor transfers (O24) -/
open Sys2Proof Sys2Proof.Machine
namespace Sys2Proof.Machine

/-- A position channel's fence is no cause of a give-up (R243): the causes look at other pages. -/
theorem State.persists_pos {s t : State} (n : PosCh) (hget : ∀ p, p ≠ pPOS n → ∀ f, t.get p f = s.get p f)
    (hline : t.line = s.line) (hlane : t.lane = s.lane) (hpair : t.pair = s.pair) (c : Nat) : t.persists c = s.persists c := by
  have hn := n.isLt
  have hfen : ∀ p, p ≠ pPOS n → t.fenced p = s.fenced p := fun p hp => by
    rw [State.fenced, State.flag, hget p hp]
    rfl
  have hDEC : ∀ b, t.fenced (pDEC b) = s.fenced (pDEC b) := fun b => hfen _ (by unfold pDEC pPOS; omega)
  have hPIPE : ∀ b, t.fenced (pPIPE b) = s.fenced (pPIPE b) := fun b => hfen _ (by unfold pPIPE pPOS; omega)
  have hLINE : ∀ b, t.fenced (pLINE b) = s.fenced (pLINE b) := fun b => hfen _ (by unfold pLINE pPOS; omega)
  have hLANE : ∀ l, pLANE l ≠ pPOS n := fun l => by unfold pLANE pPOS; omega
  have hHEAD : ∀ l, pHEAD l ≠ pPOS n := fun l => by unfold pHEAD pPOS; omega
  have htrip : t.get pTHERM R.THERM_STAT_TRIP = s.get pTHERM R.THERM_STAT_TRIP := hget _ (by unfold pTHERM pPOS; omega) _
  have hlost : t.lanesLost = s.lanesLost := by
    have hcount : t.laneCounts = s.laneCounts := by
      funext h
      unfold State.laneCounts
      rw [State.laneAt, hlane]
      simp only [List.any_cons, List.any_nil, hfen _ (hLANE h), hfen _ (hHEAD h), hget _ (hLANE h), hget _ (hHEAD h), State.laneAt]
    funext b
    rw [State.lanesLost, hcount, State.lanesLost]
  simp only [State.persists, hDEC, hPIPE, hLINE, State.lineAt, hline, hlost, hpair, State.flag, htrip]
/-- No line generator reads P10 or P11 (R152). -/
theorem srcChannel_serial {n : Nat} (hn : 10 ≤ n) : ∀ b ∈ List.range 8, ∀ src, (srcChannel b src == n) = false := by
  intro b hb src
  rw [List.mem_range] at hb
  rw [beq_eq_false_iff_ne]
  unfold srcChannel
  split
  · omega
  · split <;> omega
theorem foldl_same {α β : Type} (f : α → β → α) (a : α) (l : List β) (h : ∀ b ∈ l, f a b = a) : l.foldl f a = a := by
  induction l with
  | nil => rfl
  | cons b l ih => rw [List.foldl_cons, h b (by simp), ih fun x hx => h x (by simp [hx])]
theorem State.fenceMark_frame (s : State) (p reason : Nat) : (∀ q, q ≠ p → ∀ f, (s.fenceMark p reason).get q f = s.get q f) ∧
    ∃ r w m, s.fenceMark p reason = { s with regs := r, host := { s.host with waiting := w }, fenceAt := m } := by
  refine ⟨fun q hq f => s.get_fenceFlags_ne p reason (Or.inl hq), ?_⟩
  have h : s.reports (s.fenceFlags p reason) :=
    (((s.reports_cause p 0).trans (State.reports_set _ p _ 1)).trans (State.reports_set _ p _ reason)).trans (State.reports_incSat _ p _)
  obtain ⟨r, w, h⟩ := h
  refine ⟨r, w, (s.fenceFlags p reason).fenceAt.put p s.tick, ?_⟩
  unfold State.fenceMark
  dsimp only
  rw [h]
theorem State.fenceMark_shows (s : State) (p reason : Nat) (hr : reason < 256) :
    (s.fenceMark p reason).fenced p = true ∧ (s.fenceMark p reason).get p R.PG_FENCE_REASON = reason := by
  have hg : ∀ f, (s.fenceMark p reason).get p f = (s.fenceFlags p reason).get p f := fun _ => rfl
  have h1 : (s.fenceMark p reason).get p R.PG_FENCE_FENCED = 1 := by
    rw [hg]
    unfold State.fenceFlags
    rw [State.get_incSat_field _ _ (by decide), State.get_set_field _ _ _ (by decide), State.get_set_self]
    rfl
  refine ⟨by rw [State.fenced, State.flag, h1]; rfl, ?_⟩
  rw [hg]
  unfold State.fenceFlags
  rw [State.get_incSat_field _ _ (by decide), State.get_set_self]
  exact Nat.mod_eq_of_lt hr
theorem State.fenceMark_field (s : State) (p reason : Nat) {f : Fld} (h : f.id ≠ R.PG_FENCE_FENCED.id ∧ f.id ≠ R.PG_FENCE_REASON.id ∧
    f.id ≠ R.PG_FENCE_COUNT.id ∧ f.id ≠ R.PG_IRQ_RAW.id) : (s.fenceMark p reason).get p f = s.get p f :=
  s.get_fenceFlags_ne p reason (Or.inr h)
theorem State.fenceMark_bit (s : State) (p reason : Nat) {i : Nat} (hi : i < 32) (h : bit (s.get p R.PG_IRQ_RAW) i = true) :
    bit ((s.fenceMark p reason).get p R.PG_IRQ_RAW) i = true := by
  have hg : (s.fenceMark p reason).get p R.PG_IRQ_RAW = (s.cause p 0).get p R.PG_IRQ_RAW := by
    change (s.fenceFlags p reason).get p R.PG_IRQ_RAW = _
    unfold State.fenceFlags
    rw [State.get_incSat_field _ _ (by decide), State.get_set_field _ _ _ (by decide), State.get_set_field _ _ _ (by decide)]
  rw [hg]
  exact State.bit_cause_keeps s hi h
theorem State.fenceOne_pos {s : State} (c : PosCh) (reason src lo hi : Nat) (h : s.fenced (pPOS c) = false) :
    s.fenceOne (pPOS c) reason src lo hi false =
      if s.srsts.has (pPOS c) || s.held (pPOS c) then s.causeKept (pPOS c) reason else s.fenceMark (pPOS c) reason := by
  unfold State.fenceOne
  rw [blkOf_pos _ c.isLt]
  dsimp only
  rw [if_neg (show ¬ neverFences .pos c.val = true from Bool.false_ne_true), if_neg (by simp [h])]
  split
  · rfl
  · obtain ⟨hget, r, w, m, hsh⟩ := s.fenceMark_frame (pPOS c) reason
    exact State.pairRise_same (t := s.fenceMark (pPOS c) reason) _ _
      (State.persists_pos c hget (by rw [hsh]) (by rw [hsh]) (by rw [hsh]))
/-- A fence of a serial channel touches its own page only: no line generator reads the channel (R157). -/
theorem State.fence_serial {s : State} {c : PosCh} (hc : 10 ≤ c.val) (reason src lo hi : Nat) (h : s.fenced (pPOS c) = false) :
    s.fence (pPOS c) reason src lo hi false =
      if s.srsts.has (pPOS c) || s.held (pPOS c) then s.causeKept (pPOS c) reason else s.fenceMark (pPOS c) reason := by
  rw [← State.fenceOne_pos c reason src lo hi h]
  unfold State.fence
  rw [blkOf_pos _ c.isLt]
  dsimp only
  split
  · rw [if_neg (by simp [h])]
    exact foldl_same _ _ _ fun b hb => if_neg (by rw [srcChannel_serial hc b hb, Bool.and_false]; decide)
  · rfl
/-- A transfer that has failed, before the limit of failures is looked at. -/
def State.failCounted (s : State) (n code src : Nat) (cnt : Fld) : State :=
  (((s.incSat (pPOS n) cnt).err (pPOS n) code src (s.get (pPOS n) R.POS_CNT)).cause (pPOS n) 12).updPos n fun x =>
    { x with xfer := none, fails := x.fails + 1 }
theorem State.serialFail_eq (s : State) (n code src : Nat) (cnt : Fld) : s.serialFail n code src cnt =
    if (s.failCounted n code src cnt).get (pPOS n) R.POS_SER_LIM ≠ 0 ∧
      (s.failCounted n code src cnt).get (pPOS n) R.POS_SER_LIM ≤ ((s.failCounted n code src cnt).posAt n).fails then
      (s.failCounted n code src cnt).fence (pPOS n) code src (s.get (pPOS n) R.POS_CNT) 0 false else s.failCounted n code src cnt := rfl
/-- A field that neither an error nor a fence writes. -/
abbrev quiet (f : Fld) : Prop := f.id ∉ [R.PG_ERR_CNT.id, R.PG_ERR_ADDR_LO.id, R.PG_ERR_ADDR_HI.id, R.PG_ERR_INFO_SRC.id, R.PG_ERR_INFO_DIR.id,
  R.PG_ERR_INFO_CODE.id, R.PG_IRQ_RAW.id] ∧ f.id ≠ R.PG_FENCE_FENCED.id ∧ f.id ≠ R.PG_FENCE_REASON.id ∧ f.id ≠ R.PG_FENCE_COUNT.id
theorem quiet.raw {f : Fld} (h : quiet f) : f.id ≠ R.PG_IRQ_RAW.id := fun e => h.1 (by simp [e])
theorem State.failCounted_spec {s : State} {n : Nat} (hf : s.frozen (pPOS n) = false) (code src : Nat) {cnt : Fld} (hq : quiet cnt) {u : State}
    (hu : s.failCounted n code src cnt = u) :
    u.get (pPOS n) cnt = min (s.get (pPOS n) cnt + 1) (2 ^ cnt.w - 1) ∧ bit (u.get (pPOS n) R.PG_IRQ_RAW) 12 = true ∧
    u.posAt n = { s.posAt n with xfer := none, fails := (s.posAt n).fails + 1 } ∧ (∀ m, m ≠ n → u.posAt m = s.posAt m) ∧
    (∀ {f : Fld}, f.id ≠ cnt.id → f.id ∉ [R.PG_ERR_CNT.id, R.PG_ERR_ADDR_LO.id, R.PG_ERR_ADDR_HI.id, R.PG_ERR_INFO_SRC.id, R.PG_ERR_INFO_DIR.id,
      R.PG_ERR_INFO_CODE.id, R.PG_IRQ_RAW.id] → u.get (pPOS n) f = s.get (pPOS n) f) ∧
    s.regsBut u ((pPOS n, cnt) :: errFields (pPOS n)) ∧
    ∃ r ps w, u = { s with regs := r, pos := ps, host := { s.host with waiting := w } } := by
  unfold State.failCounted at hu
  obtain ⟨v, hv⟩ : ∃ v, ((s.incSat (pPOS n) cnt).err (pPOS n) code src (s.get (pPOS n) R.POS_CNT)).cause (pPOS n) 12 = v := ⟨_, rfl⟩
  rw [hv] at hu
  have hg : ∀ {f : Fld}, f.id ≠ cnt.id → f.id ∉ [R.PG_ERR_CNT.id, R.PG_ERR_ADDR_LO.id, R.PG_ERR_ADDR_HI.id, R.PG_ERR_INFO_SRC.id,
      R.PG_ERR_INFO_DIR.id, R.PG_ERR_INFO_CODE.id, R.PG_IRQ_RAW.id] → v.get (pPOS n) f = s.get (pPOS n) f := fun {f} h h' => by
    rw [← hv, State.get_cause_field _ _ _ (fun e => h' (by simp [e])), State.get_err_field _ _ _ _ _ _ _ h', State.get_incSat_field _ _ h]
  have h1 : v.get (pPOS n) cnt = min (s.get (pPOS n) cnt + 1) (2 ^ cnt.w - 1) := by
    rw [← hv, State.get_cause_field _ _ _ hq.raw, State.get_err_field _ _ _ _ _ _ _ hq.1, State.get_incSat_self]
  have h2 : bit (v.get (pPOS n) R.PG_IRQ_RAW) 12 = true := by
    rw [← hv]
    refine State.bit_cause _ (by decide) ((State.frozen_congr ?_).trans hf)
    rw [State.get_err_field _ _ _ _ _ _ _ (by decide), State.get_incSat_field _ _ hq.2.1.symm]
  have hb : s.regsBut v ((pPOS n, cnt) :: errFields (pPOS n)) := by
    rw [← hv]
    exact State.regsBut_cause (State.regsBut_err (State.regsBut_incSat (State.regsBut_refl _ _) (by simp)) _ _ _ _ _ _
      (List.subset_cons_self _ _)) _ (by simp [errFields])
  obtain ⟨r, w, hsh⟩ : s.reports v := by
    rw [← hv]
    exact ((s.reports_incSat _ _).trans (State.reports_err _ _ _ _ _ _ _)).trans (State.reports_cause _ _ _)
  clear hv
  have hp := v.posAt_updPos n fun x => { x with xfer := none, fails := x.fails + 1 }
  have hvp : v.posAt = s.posAt := by rw [hsh]; rfl
  rw [hvp] at hp
  subst hu
  refine ⟨h1, h2, hp, fun m hm => ?_, hg, State.regsBut_of_regs hb rfl, r, ?_⟩
  · exact (NMap.getD_put_other _ _ _ hm).trans (congrFun hvp m)
  · exact ⟨_, w, by rw [hsh]; rfl⟩
theorem State.serialFail_failed {s : State} {c : PosCh} (hc : 10 ≤ c.val) (hp : s.posCounts c = true) {code src : Nat} {cnt : Fld}
    (hcode : code < 256) (hq : quiet cnt) (hne : R.POS_CNT.id ≠ cnt.id ∧ R.POS_SER_LIM.id ≠ cnt.id) {t : State}
    (ht : s.serialFail c code src cnt = t) : serialFailed s t c code cnt := by
  have hf := State.frozen_of_counts hp
  have hfen : s.fenced (pPOS c) = false := by
    simp only [State.posCounts, Bool.and_eq_true, Bool.not_eq_true'] at hp
    exact hp.1.1.2
  rw [State.serialFail_eq] at ht
  obtain ⟨u, hu⟩ : ∃ u, s.failCounted c code src cnt = u := ⟨_, rfl⟩
  obtain ⟨h1, h2, h3, h4, hg, h5, r, ps, w, h6⟩ := State.failCounted_spec hf code src hq hu
  rw [hu] at ht
  clear hu
  have hlim : u.get (pPOS c) R.POS_SER_LIM = s.get (pPOS c) R.POS_SER_LIM := hg hne.2 (by decide)
  have hcnt : u.get (pPOS c) R.POS_CNT = s.get (pPOS c) R.POS_CNT := hg hne.1 (by decide)
  have hufen : u.fenced (pPOS c) = false := by
    rw [State.fenced, State.flag, hg hq.2.1.symm (by decide)]
    exact hfen
  rw [hlim, h3] at ht
  have hshape : ({ u with regs := s.regs, pos := s.pos, host := s.host } : State) = s := by rw [h6]
  by_cases hover : s.get (pPOS c) R.POS_SER_LIM ≠ 0 ∧ s.get (pPOS c) R.POS_SER_LIM ≤ (s.posAt c).fails + 1
  · rw [if_pos hover, State.fence_serial hc _ _ _ _ hufen] at ht
    have hhold : u.srsts.has (pPOS c) = s.srsts.has (pPOS c) ∧ u.held (pPOS c) = s.held (pPOS c) := by
      refine ⟨by rw [h6], ?_⟩
      have hshut : u.get pTHERM R.THERM_STAT_SHUT = s.get pTHERM R.THERM_STAT_SHUT :=
        h5 _ _ fun e he => Or.inl ?_
      · rw [State.held, State.shut, State.flag, hshut, h6]
        rfl
      · simp only [errFields, List.mem_cons, List.not_mem_nil, or_false] at he
        have : e.1 = pPOS c := by rcases he with rfl | rfl | rfl | rfl | rfl | rfl | rfl | rfl <;> rfl
        rw [this]
        unfold pTHERM pPOS
        omega
    rw [hhold.1, hhold.2] at ht
    split at ht
    · next hh =>
      subst ht
      refine ⟨h1, h2, h3, h4, hcnt, fun h => absurd hover ?_, fun _ _ h7 h8 => ?_⟩
      · omega
      · rw [h7, h8] at hh
        exact absurd hh (by decide)
    · obtain ⟨f1, f2⟩ := u.fenceMark_shows (pPOS c) code hcode
      obtain ⟨-, r', w', m, hm⟩ := u.fenceMark_frame (pPOS c) code
      have hpos : (u.fenceMark (pPOS c) code).posAt = u.posAt := by rw [hm]; rfl
      have hbit := u.fenceMark_bit (pPOS c) code (by decide) h2
      have hcn := u.fenceMark_field (pPOS c) code (f := cnt) ⟨hq.2.1, hq.2.2.1, hq.2.2.2, hq.raw⟩
      have hcn' := u.fenceMark_field (pPOS c) code (f := R.POS_CNT) (by decide)
      rw [ht] at f1 f2 hpos hbit hcn hcn'
      exact ⟨hcn.trans h1, hbit, by rw [hpos, h3], fun m hm => by rw [hpos, h4 m hm], hcn'.trans hcnt, fun h => absurd hover (by omega),
        fun _ _ _ _ => ⟨f1, f2⟩⟩
  · rw [if_neg hover] at ht
    subst ht
    exact ⟨h1, h2, h3, h4, hcnt, fun _ => ⟨h5, hshape⟩, fun h7 h8 => absurd ⟨h7, h8⟩ hover⟩

/-! ### The three events -/

section
variable {s : State} {c : PosCh}
theorem exec_serialTransferStart_idle
    (h : c.val < 10 ∨ s.posCounts c = false ∨ ∃ t, (s.posAt c).lastStart = some t ∧ s.osc < t + s.get (pPOS c) R.POS_SER_CFG_PER) :
    exec (.serialTransferStart c) s = .next s := by
  change Host.Outcome.next _ = _
  by_cases h0 : (decide (c.val < 10) || !s.posCounts c) = true
  · rw [if_pos h0]
  · rw [if_neg h0]
    simp only [Bool.or_eq_true, decide_eq_true_eq, Bool.not_eq_true', not_or, Bool.not_eq_false] at h0
    obtain ⟨t, ht, hlt⟩ := (h.resolve_left h0.1).resolve_left (by rw [h0.2]; decide)
    rw [ht]
    dsimp only
    rw [if_pos hlt]
theorem exec_serialTransferStart (hc : 10 ≤ c.val) (hp : s.posCounts c = true)
    (h : ∀ t, (s.posAt c).lastStart = some t → t + s.get (pPOS c) R.POS_SER_CFG_PER ≤ s.osc) :
    exec (.serialTransferStart c) s = .next (s.xferStart c) := by
  change Host.Outcome.next _ = _
  rw [hp, if_neg (by simp; omega)]
  cases hl : (s.posAt c).lastStart with
  | none => rfl
  | some t =>
    dsimp only
    rw [if_neg (not_lt.mpr (h t hl))]
theorem exec_serial_other (hc : c.val < 10) (w : BitVec 41) : exec (.serialWord c w) s = .next s ∧ exec (.serialTimeout c) s = .next s := by
  constructor <;> change Host.Outcome.next _ = _ <;> rw [if_pos hc]
variable (hc : 10 ≤ c.val)
include hc
theorem exec_serial_idle (h : (s.posAt c).xfer = none) (w : BitVec 41) :
    exec (.serialWord c w) s = .next s ∧ exec (.serialTimeout c) s = .next s := by
  constructor <;> change Host.Outcome.next _ = _ <;> rw [if_neg (by omega), h]
variable {x : Nat × Nat} (hx : (s.posAt c).xfer = some x)
include hx
theorem exec_serialWord_dropped (hp : s.posCounts c = false) (w : BitVec 41) :
    exec (.serialWord c w) s = .next (s.updPos c fun y => { y with xfer := none }) := by
  change Host.Outcome.next _ = _
  rw [if_neg (by omega), hx]
  dsimp only
  rw [hp, if_pos (by decide)]
theorem exec_serialWord_crc (hp : s.posCounts c = true) {w : BitVec 41} (h : crc8 (bitsMsb 33 (w.toNat / 256)) ≠ w.toNat % 256) :
    exec (.serialWord c w) s = .next (s.serialFail c 0x41 0 R.POS_SER_CRC_CNT) := by
  change Host.Outcome.next _ = _
  rw [if_neg (by omega), hx]
  dsimp only
  rw [hp, if_neg (by decide), if_pos (by simpa using h)]
theorem exec_serialWord_err (hp : s.posCounts c = true) {w : BitVec 41} (h : crc8 (bitsMsb 33 (w.toNat / 256)) = w.toNat % 256)
    (he : bit w.toNat 8 = true) : exec (.serialWord c w) s = .next (s.serialFail c 0x40 2 R.POS_SER_ERR_CNT) := by
  change Host.Outcome.next _ = _
  rw [if_neg (by omega), hx]
  dsimp only
  rw [hp, if_neg (by decide), if_neg (by simp [h]), if_pos he]
theorem exec_serialTimeout_early (h : s.osc < (s.posAt c).xferAt + 31 * (max 3 (s.get (pPOS c) R.POS_SER_CFG_DIV) + 1)) :
    exec (.serialTimeout c) s = .next s := by
  change Host.Outcome.next _ = _
  rw [if_neg (by omega), hx]
  dsimp only
  rw [if_pos h]
theorem exec_serialTimeout (h : (s.posAt c).xferAt + 31 * (max 3 (s.get (pPOS c) R.POS_SER_CFG_DIV) + 1) ≤ s.osc) :
    exec (.serialTimeout c) s = .next
      (if s.posCounts c = false then s.updPos c fun y => { y with xfer := none } else s.serialFail c 0x42 0 R.POS_SER_TO_CNT) := by
  change Host.Outcome.next _ = _
  rw [if_neg (by omega), hx]
  dsimp only
  rw [if_neg (not_lt.mpr h)]
  cases s.posCounts c <;> rfl
end
/-- Settles O24: the good word by `posCore_spec`, each failure by `serialFail_failed`. -/
theorem serialTransfers : Obligations.SerialTransfers := by
  unfold Obligations.SerialTransfers
  intro s c
  refine ⟨fun hc => ⟨exec_serialTransferStart_idle (Or.inl hc), fun w => (exec_serial_other hc w).1, (exec_serial_other hc 0).2⟩,
    fun hc hp h => ⟨s.xferStart c, exec_serialTransferStart hc hp h, ?_⟩, fun hc h => exec_serialTransferStart_idle (Or.inr h),
    fun hc h => ⟨fun w => (exec_serial_idle hc h w).1, (exec_serial_idle hc h 0).2⟩,
    fun x hc hx hp => ⟨exec_serialWord_dropped hc hx hp, fun h => by rw [exec_serialTimeout hc hx h, if_pos hp]⟩,
    fun w x hc hx hp hcrc he => ?_, fun w x hc hx hp => ⟨fun h => ⟨_, exec_serialWord_crc hc hx hp h, ?_⟩,
      fun h he => ⟨_, exec_serialWord_err hc hx hp h he, ?_⟩⟩,
    fun x hc hx => ⟨fun hp h => ⟨s.serialFail c 0x42 0 R.POS_SER_TO_CNT, by rw [exec_serialTimeout hc hx h, if_neg (by simp [hp])], ?_⟩,
      exec_serialTimeout_early hc hx⟩⟩
  · have he : (s.xferStart c).posAt c = _ := s.posAt_updPos _ _
    refine ⟨fun h => ?_, fun h => ?_, fun m hm => NMap.getD_put_other _ _ _ hm, rfl⟩
    · rw [he, h]
      rfl
    · rw [he]
      obtain ⟨x, hx⟩ := Option.ne_none_iff_exists'.mp h
      rw [hx, Option.some_or, if_pos Option.isSome_some, ← hx]
  · rw [exec_serialWord_good hc hp hx hcrc he]
    obtain ⟨v, hv⟩ : ∃ v, v = s.updPos c fun x => { x with xfer := none, fails := 0 } := ⟨_, rfl⟩
    rw [← hv]
    have hvx : v.posAt c = { s.posAt c with xfer := none, fails := 0 } := by rw [hv]; exact s.posAt_updPos _ _
    have hvo : ∀ m, m ≠ c.val → v.posAt m = s.posAt m := fun m hm => by rw [hv]; exact NMap.getD_put_other _ _ _ hm
    have hvr : v.regs = s.regs := by rw [hv]; rfl
    have hvs : ∃ ps, v = { s with pos := ps } := ⟨_, hv⟩
    clear hv
    obtain ⟨ps, hvs⟩ := hvs
    have hf : v.frozen (pPOS c) = false := (State.frozen_congr (State.get_congr hvr _ _)).trans (State.frozen_of_counts hp)
    have hlt : w.toNat / 512 < 2 ^ 32 := by
      have := w.isLt
      norm_num only at this ⊢
      omega
    obtain ⟨hm, k1, k2, ⟨-, -, k3, k4⟩, -⟩ := State.posCore_spec c hf (diff32 (w.toNat / 512) (s.get (pPOS c) R.POS_CNT)) x.1 x.2
      (c := w.toNat / 512) (by rw [State.get_congr hvr]; exact uns_add_diff32 _ hlt) rfl
    rw [State.posUpdate_core, if_pos hc]
    generalize v.posCore c (diff32 (w.toNat / 512) (s.get (pPOS c) R.POS_CNT)) x.1 x.2 = u at hm k1 k2 k3 k4
    rw [hvx] at k3 k4
    obtain ⟨r, ps', wt, hsh⟩ := hm.shape
    exact ⟨u, rfl, k1, k2, k3, k4, fun m hne => (hm.other m hne).trans (hvo m hne),
      State.regsBut_trans (State.regsBut_of_regs (State.regsBut_refl _ _) hvr) hm.regs, by rw [hsh, hvs]⟩
  · exact State.serialFail_failed hc hp (by decide) (by decide) (by decide) rfl
  · exact State.serialFail_failed hc hp (by decide) (by decide) (by decide) rfl
  · exact State.serialFail_failed hc hp (by decide) (by decide) (by decide) rfl
end Sys2Proof.Machine
end

section
/-! ### Calibration records and their installation (O53) -/
open Sys2Proof Sys2Proof.Machine
namespace Sys2Proof.Machine

/-! ### What an installation moves (R294, R295) -/

/-- What an installation moves besides CAL's own registers; of the line store only `reg`. -/
structure State.installs (s t : State) (reg : List (Nat × Nat)) : Prop where
  cal : ∀ f, t.get pCAL f = s.get pCAL f
  therm : ∀ f, t.get pTHERM f = s.get pTHERM f
  within : s.lsWithin t reg
  shape : ∃ r pv ap cm w ls le lr ch, t = { s with
      regs := r, pendv := pv, appl := ap, commits := cm, host := { s.host with waiting := w }, lstore := ls, lsErr := le, lsRep := lr, chant := ch }
theorem State.installs_refl (s : State) (reg : List (Nat × Nat)) : s.installs s reg :=
  ⟨fun _ => rfl, fun _ => rfl, fun _ _ => rfl, _, _, _, _, _, _, _, _, _, rfl⟩
theorem State.installs.trans {s t u : State} {reg : List (Nat × Nat)} (h : s.installs t reg) (k : t.installs u reg) : s.installs u reg := by
  obtain ⟨r, pv, ap, cm, w, ls, le, lr, ch, hs⟩ := h.shape
  obtain ⟨r', pv', ap', cm', w', ls', le', lr', ch', ks⟩ := k.shape
  exact ⟨fun f => (k.cal f).trans (h.cal f), fun f => (k.therm f).trans (h.therm f), fun a ha => (k.within a ha).trans (h.within a ha),
    r', pv', ap', cm', w', ls', le', lr', ch', by rw [ks, hs]⟩
theorem State.installs_set (s : State) {p : Nat} (hp : p ≠ pCAL ∧ p ≠ pTHERM) (f : Fld) (v : Nat) (reg : List (Nat × Nat)) :
    s.installs (s.set p f v) reg :=
  ⟨fun _ => State.get_set_ne _ _ (Or.inl hp.1.symm), fun _ => State.get_set_ne _ _ (Or.inl hp.2.symm), fun _ _ => rfl,
    _, _, _, _, _, _, _, _, _, rfl⟩
theorem State.installs_cause (s : State) {p : Nat} (hp : p ≠ pCAL ∧ p ≠ pTHERM) (i : Nat) (reg : List (Nat × Nat)) :
    s.installs (s.cause p i) reg := by
  obtain ⟨r, w, h⟩ := s.reports_cause p i
  exact ⟨fun _ => State.get_cause_ne _ _ (Or.inl hp.1.symm), fun _ => State.get_cause_ne _ _ (Or.inl hp.2.symm), fun _ _ => by rw [h],
    r, s.pendv, s.appl, s.commits, w, s.lstore, s.lsErr, s.lsRep, s.chant, h⟩
theorem State.installs_foldl {α : Type} {s : State} (g : State → α → State) (reg : List (Nat × Nat)) (l : List α)
    (h : ∀ t, ∀ x ∈ l, State.installs t (g t x) reg) (u : State) (hu : s.installs u reg) : s.installs (l.foldl g u) reg := by
  induction l generalizing u with
  | nil => exact hu
  | cons x l ih => exact ih (fun t y hy => h t y (List.mem_cons_of_mem _ hy)) _ (hu.trans (h u x (by simp)))
/-- A fenced page keeps its registers through what is done to it (R48). -/
theorem State.get_keepPage (s t : State) (p q : Nat) (f : Fld) : (s.keepPage t p).get q f = if q = p then s.get q f else t.get q f := by
  split
  · next h =>
    subst h
    exact congrArg (Option.getD · (rst q f)) (RegMap.find_copyPage s.regs t.regs q q (fun _ => true) f.id rfl)
  · next h => exact congrArg (Option.getD · (rst q f)) (RegMap.find_copyPage_ne s.regs t.regs p p (fun _ => true) f.id h)
theorem State.installs_pageWork {s : State} {p : Nat} (hp : p ≠ pCAL ∧ p ≠ pTHERM) (g : State → State) (reg : List (Nat × Nat))
    (h : s.installs (g s) reg) : s.installs (s.pageWork p g) reg := by
  unfold State.pageWork
  split
  · obtain ⟨r, pv, ap, cm, w, ls, le, lr, ch, hs⟩ := h.shape
    refine ⟨fun f => ?_, fun f => ?_, h.within, (s.keepPage (g s) p).regs, pv, ap, cm, w, ls, le, lr, ch, ?_⟩
    · rw [State.get_keepPage, if_neg hp.1.symm, h.cal]
    · rw [State.get_keepPage, if_neg hp.2.symm, h.therm]
    · unfold State.keepPage
      rw [hs]
  · exact h
theorem State.installs_lsWrite (s : State) (a : Nat) (l : List Byte) {reg : List (Nat × Nat)} {e : Nat × Nat} (he : e ∈ reg)
    (hlo : e.1 ≤ a) (hhi : a + l.length ≤ e.1 + e.2) : s.installs (s.lsWrite a l) reg := by
  refine ⟨fun _ => rfl, fun _ => rfl, fun k hk => ?_, _, _, _, _, _, _, _, _, _, rfl⟩
  have := hk e he
  exact (Memory.get_puts _ _ _ _).trans (if_neg (by omega))
theorem State.installs_tiersClear (s : State) (reg : List (Nat × Nat)) : s.installs s.tiersClear reg :=
  ⟨fun _ => rfl, fun _ => rfl, fun _ _ => rfl, _, _, _, _, _, _, _, _, _, rfl⟩
theorem State.installs_applyFields (s : State) (p q : Nat) (a b : Bool) (reg : List (Nat × Nat)) : s.installs (s.applyFields p q a b) reg :=
  ⟨fun _ => rfl, fun _ => rfl, fun _ _ => rfl, _, _, _, _, _, _, _, _, _, rfl⟩
theorem State.installs_genDone (s : State) {p : Nat} (hp : p ≠ pCAL ∧ p ≠ pTHERM) (reg : List (Nat × Nat)) : s.installs (s.genDone p) reg := by
  have h0 : s.installs { s with commits := s.commits.del p } reg :=
    ⟨fun _ => rfl, fun _ => rfl, fun _ _ => rfl, _, _, _, _, _, _, _, _, _, rfl⟩
  exact ((h0.trans (State.installs_set _ hp _ _ _)).trans (State.installs_set _ hp _ _ _)).trans (State.installs_cause _ hp _ _)
/-- The registers that a commit moves (R43). -/
def genFields : List Fld := [R.PG_GEN_PEND_GEN, R.PG_GEN_PENDING, R.PG_GEN_APPL_GEN, R.PG_IRQ_RAW]
theorem State.installs_commit (s : State) {p : Nat} (hp : p ≠ pCAL ∧ p ≠ pTHERM) (gen : Nat) (im : Bool) (reg : List (Nat × Nat)) :
    s.installs (s.commit p gen im) reg := by
  unfold State.commit
  split
  · exact s.installs_refl _
  · split
    · exact s.installs_refl _
    · next b i hb =>
      dsimp only
      have h0 : s.installs ((({ s with pendv := RegMap.copyPage s.regs s.pendv p p fun j => (b.rwsIds true true).contains j }).set p
          R.PG_GEN_PEND_GEN gen).set p R.PG_GEN_PENDING 1) reg := by
        have h1 : s.installs { s with pendv := RegMap.copyPage s.regs s.pendv p p fun j => (b.rwsIds true true).contains j } reg :=
          ⟨fun _ => rfl, fun _ => rfl, fun _ _ => rfl, _, _, _, _, _, _, _, _, _, rfl⟩
        exact (h1.trans (State.installs_set _ hp _ _ _)).trans (State.installs_set _ hp _ _ _)
      generalize (({ s with pendv := RegMap.copyPage s.regs s.pendv p p fun j => (b.rwsIds true true).contains j }).set p
          R.PG_GEN_PEND_GEN gen).set p R.PG_GEN_PENDING 1 = u at h0 ⊢
      have hcm : ∀ (v : State) c, v.installs { v with commits := c } reg := fun v c =>
        ⟨fun _ => rfl, fun _ => rfl, fun _ _ => rfl, _, _, _, _, _, _, _, _, _, rfl⟩
      by_cases hhead : b = .headc
      · rw [if_pos hhead]
        generalize (if ((b.rwsIds true true).isEmpty || !u.enabled p || !waitsCommit b i || im && !lineCommit b i) = true then 0
          else u.runningBars) = m
        have hl : ∀ l : List Nat, s.installs (u.each l fun t k => t.applyFields p (0x400 + k) true true) reg := fun l =>
          State.installs_foldl _ reg l (fun t x _ => t.installs_applyFields _ _ _ _ _) u h0
        split
        · exact (hl _).trans (State.installs_genDone _ hp _)
        · exact (hl _).trans (hcm _ _)
      · rw [if_neg hhead]
        split
        · exact (h0.trans (State.installs_applyFields _ _ _ _ _ _)).trans (State.installs_genDone _ hp _)
        · exact h0.trans (hcm _ _)
theorem State.get_commit (s : State) (p gen : Nat) (im : Bool) {q : Nat} {f : Fld} (h : q ≠ p ∨ ∀ g ∈ genFields, f.id ≠ g.id) :
    (s.commit p gen im).get q f = s.get q f := by
  have hne : ∀ g ∈ genFields, q ≠ p ∨ f.id ≠ g.id := fun g hg => h.imp_right fun k => k g hg
  have hdone : ∀ v : State, (v.genDone p).get q f = v.get q f := fun v => by
    unfold State.genDone
    rw [State.get_cause_ne _ _ (hne _ (by simp [genFields])), State.get_set_ne _ _ (hne _ (by simp [genFields])),
      State.get_set_ne _ _ (hne _ (by simp [genFields]))]
    rfl
  unfold State.commit
  split
  · rfl
  · split
    · rfl
    · next b i hb =>
      dsimp only
      have h0 : ((({ s with pendv := RegMap.copyPage s.regs s.pendv p p fun j => (b.rwsIds true true).contains j }).set p
          R.PG_GEN_PEND_GEN gen).set p R.PG_GEN_PENDING 1).get q f = s.get q f := by
        rw [State.get_set_ne _ _ (hne _ (by simp [genFields])), State.get_set_ne _ _ (hne _ (by simp [genFields]))]
        rfl
      generalize (({ s with pendv := RegMap.copyPage s.regs s.pendv p p fun j => (b.rwsIds true true).contains j }).set p
          R.PG_GEN_PEND_GEN gen).set p R.PG_GEN_PENDING 1 = u at h0 ⊢
      by_cases hhead : b = .headc
      · rw [if_pos hhead]
        generalize (if ((b.rwsIds true true).isEmpty || !u.enabled p || !waitsCommit b i || im && !lineCommit b i) = true then 0
          else u.runningBars) = m
        have hl : ∀ l : List Nat, (u.each l fun t k => t.applyFields p (0x400 + k) true true).get q f = s.get q f := fun l => by
          refine Eq.trans ?_ h0
          exact List.foldlRecOn (motive := fun v : State => v.get q f = u.get q f) l _ rfl fun v hv k _ => hv
        split
        · exact (hdone _).trans (hl _)
        · exact hl _
      · rw [if_neg hhead]
        split
        · exact (hdone _).trans h0
        · exact h0

/-! ### The installation by its kind -/

/-- A profile-free field put into a page and committed, unless the page is fenced or resets. -/
def State.fieldPut (t : State) (p : Nat) (f : Fld) (v : Nat) : State :=
  if t.fenced p || t.resetting p then t else (t.set p f v).commit p ((t.set p f v).get p R.PG_SHADOW_GEN) false
def State.flatPut (s : State) (a : Nat) (d : List Byte) : State :=
  (s.lsWrite a (d.drop 4)).chantWork fun s => s.set pCHANT R.CHANT_A0 (leAt d 0 2)
def State.mapPut (s : State) (d : List Byte) : State :=
  (List.range 6).foldl (fun t j =>
    [R.CHANT_BMAP_V0, R.CHANT_BMAP_BAR0, R.CHANT_BMAP_V1, R.CHANT_BMAP_BAR1, R.CHANT_BMAP_V2, R.CHANT_BMAP_BAR2].foldl
      (fun t f => t.set pCHANT (f.nth 4 j) (field (leAt d (4 * j) 4) f.lo f.w)) t) s
def State.slopesPut (s : State) (d : List Byte) : State :=
  (((((s.lsWrite (slopeAddr 0 0 0) (d.drop 32)).mapPut d).set pCHANT R.CHANT_CAMGEN_GEN0 (byteAt d 24)).set pCHANT R.CHANT_CAMGEN_GEN1
    (byteAt d 25))).tiersClear
def State.samplerPut (t : State) (d : List Byte) (h : Nat) : State :=
  if t.fenced (pLANE h) then t
  else (((t.set (pLANE h) R.LANE_SAMP_PHASE (byteAt d (4 * h))).setAp (pLANE h) R.LANE_SAMP_PHASE (byteAt d (4 * h))).set (pLANE h)
    R.LANE_SAMP_THR (byteAt d (4 * h + 1))).setAp (pLANE h) R.LANE_SAMP_THR (byteAt d (4 * h + 1))
def State.firePut (s : State) (d : List Byte) : State :=
  (s.fieldPut pHEADC R.HEADC_FIRE (leAt d 0 2)).each (List.range 128) fun t h => t.fieldPut (pHEAD h) R.HEAD_DLY (leAt d (4 + 2 * h) 2)
/-- The values of a record, put in place by its kind. -/
def State.calPut (s : State) (kind : Nat) (d : List Byte) : State :=
  match kind with
  | 1 => s.flatPut 0x3000000 d
  | 2 => s.flatPut 0x3400000 d
  | 3 => s.chantWork fun s => s.slopesPut d
  | 4 => s.each (List.range 128) fun t h => t.samplerPut d h
  | _ => s.firePut d
theorem State.calInstall_eq (s : State) (r : List Byte) :
    s.calInstall r = (s.pageWork pCAL fun s => s.set pCAL (calCnt (byteAt r 1)) (calNum r)).calPut (byteAt r 1) (calBytes r) := rfl
theorem State.installs_fieldPut (s : State) {p : Nat} (hp : p ≠ pCAL ∧ p ≠ pTHERM) (f : Fld) (v : Nat) (reg : List (Nat × Nat)) :
    s.installs (s.fieldPut p f v) reg := by
  unfold State.fieldPut
  split
  · exact s.installs_refl _
  · exact (s.installs_set hp f v reg).trans (State.installs_commit _ hp _ _ _)
theorem pHEAD_other (h : Nat) : pHEAD h ≠ pCAL ∧ pHEAD h ≠ pTHERM ∧ pHEAD h ≠ pHEADC := by
  unfold pHEAD pCAL pTHERM pHEADC
  omega
theorem pLANE_other (l : Nat) : pLANE l ≠ pCAL ∧ pLANE l ≠ pTHERM := by
  unfold pLANE pCAL pTHERM
  omega
theorem State.installs_firePut (s : State) (d : List Byte) (reg : List (Nat × Nat)) : s.installs (s.firePut d) reg :=
  State.installs_foldl _ reg _ (fun t h _ => t.installs_fieldPut ⟨(pHEAD_other h).1, (pHEAD_other h).2.1⟩ _ _ _) _
    (s.installs_fieldPut (by decide) _ _ _)
theorem State.installs_samplerPut (s : State) (d : List Byte) (h : Nat) (reg : List (Nat × Nat)) : s.installs (s.samplerPut d h) reg := by
  unfold State.samplerPut
  split
  · exact s.installs_refl _
  · have hap : ∀ (v : State) (f : Fld) (x : Nat), v.installs (v.setAp (pLANE h) f x) reg := fun v f x =>
      ⟨fun _ => rfl, fun _ => rfl, fun _ _ => rfl, _, _, _, _, _, _, _, _, _, rfl⟩
    exact (((s.installs_set (pLANE_other h) _ _ reg).trans (hap _ _ _)).trans (State.installs_set _ (pLANE_other h) _ _ _)).trans (hap _ _ _)
theorem State.installs_mapPut (s : State) (d : List Byte) (reg : List (Nat × Nat)) : s.installs (s.mapPut d) reg :=
  State.installs_foldl _ reg _ (fun t _ _ => State.installs_foldl _ reg _ (fun u _ _ => u.installs_set (by decide) _ _ _) t (t.installs_refl _)) s
    (s.installs_refl _)
theorem calBytes_length (r : List Byte) : (calBytes r).length = r.length - 36 := by
  unfold calBytes
  rw [List.length_take, List.length_drop]
  omega
theorem State.installs_flatPut (s : State) (a : Nat) {d : List Byte} {n : Nat} (h : (d.drop 4).length ≤ n) :
    s.installs (s.flatPut a d) [(a, n)] :=
  (s.installs_lsWrite a (d.drop 4) (List.mem_singleton_self _) (le_refl _) (Nat.add_le_add_left h _)).trans
    (State.installs_pageWork (by decide) (fun s => s.set pCHANT R.CHANT_A0 (leAt d 0 2)) _ (State.installs_set _ (by decide) _ _ _))
/-- An installation stores to the region of its kind alone (R294). -/
theorem State.installs_calPut (s : State) {kind : Nat} (r : List Byte) : s.installs (s.calPut kind (calBytes r)) [calRegion kind r.length] := by
  have hlen : ((calBytes r).drop 4).length ≤ r.length ∧ ((calBytes r).drop 32).length ≤ r.length := by
    rw [List.length_drop, List.length_drop, calBytes_length]
    omega
  unfold State.calPut
  split
  · exact s.installs_flatPut _ hlen.1
  · exact s.installs_flatPut _ hlen.1
  · refine State.installs_pageWork (by decide) _ _ ?_
    refine ((((s.installs_lsWrite _ _ (List.mem_singleton_self _) (by exact le_refl _) ?_).trans
      (State.installs_mapPut _ _ _)).trans (State.installs_set _ (p := pCHANT) (by decide) _ _ _)).trans
      (State.installs_set _ (p := pCHANT) (by decide) _ _ _)).trans (State.installs_tiersClear _ _)
    exact Nat.add_le_add_left hlen.2 _
  · exact State.installs_foldl _ _ _ (fun t h _ => t.installs_samplerPut _ h _) s (s.installs_refl _)
  · exact s.installs_firePut _ _
/-- A page's reset state is told by registers of THERM and the resets that run. -/
theorem State.resetting_congr {s t : State} (hs : t.srsts = s.srsts) (hh : t.heldReset = s.heldReset)
    (h : t.get pTHERM R.THERM_STAT_SHUT = s.get pTHERM R.THERM_STAT_SHUT) : t.resetting = s.resetting := by
  funext p
  unfold State.resetting State.held State.shut State.flag
  rw [hs, hh, h]
section
variable {s t : State} {reg : List (Nat × Nat)} (h : s.installs t reg)
include h
theorem State.installs.resetting : t.resetting = s.resetting := by
  obtain ⟨r, pv, ap, cm, w, ls, le, lr, ch, hs⟩ := h.shape
  exact State.resetting_congr (by rw [hs]) (by rw [hs]) (h.therm _)
theorem State.installs.lsOnly : s.lsOnly t reg := by
  obtain ⟨r, pv, ap, cm, w, ls, le, lr, ch, hs⟩ := h.shape
  exact ⟨by rw [hs], by rw [hs], by rw [hs], by rw [hs], h.within⟩
end
/-- FIRE takes the record's base where HEADC can take it (R295). -/
theorem State.firePut_fire {s : State} (hf : s.fenced pHEADC = false) (hr : s.resetting pHEADC = false) (d : List Byte) :
    (s.firePut d).get pHEADC R.HEADC_FIRE = leAt d 0 2 % 2 ^ R.HEADC_FIRE.w := by
  have hlanes : ∀ (l : List Nat) (u : State), (u.each l fun t h => t.fieldPut (pHEAD h) R.HEAD_DLY (leAt d (4 + 2 * h) 2)).get pHEADC
      R.HEADC_FIRE = u.get pHEADC R.HEADC_FIRE := fun l u => by
    refine List.foldlRecOn (motive := fun v : State => v.get pHEADC R.HEADC_FIRE = u.get pHEADC R.HEADC_FIRE) l _ rfl fun v hv h _ => ?_
    refine Eq.trans ?_ hv
    unfold State.fieldPut
    split
    · rfl
    · rw [State.get_commit _ _ _ _ (Or.inl (pHEAD_other h).2.2.symm), State.get_set_ne _ _ (Or.inl (pHEAD_other h).2.2.symm)]
  unfold State.firePut
  rw [hlanes]
  unfold State.fieldPut
  rw [if_neg (by simp [hf, hr]), State.get_commit _ _ _ _ (Or.inr (by decide)), State.get_set_self]
theorem State.firePut_hold (s : State) (d : List Byte) : (s.firePut d).hold = s.hold := by
  have hput : ∀ (u : State) p f v, (u.fieldPut p f v).hold = u.hold := fun u p f v => by
    unfold State.fieldPut
    split
    · rfl
    · rw [State.commit_hold, State.set_hold]
  unfold State.firePut
  rw [State.each_hold _ _ _ (fun u h => hput u _ _ _), hput]
theorem State.mem_calPut {s : State} (k : Nat) (d : List Byte) (hk : k = 1 ∨ k = 2) (n i : Nat) (h : i + 4 < d.length) :
    Memory.get (s.calPut k d).lstore ((calRegion k n).1 + i) = some (d.getD (i + 4) 0) := by
  have hflat : ∀ a, Memory.get (s.flatPut a d).lstore (a + i) = some (d.getD (i + 4) 0) := fun a => by
    have hch : ∀ (u : State) v, (u.chantWork fun s => s.set pCHANT R.CHANT_A0 v).lstore = u.lstore := fun u v => by
      unfold State.chantWork State.pageWork
      split <;> rfl
    unfold State.flatPut
    rw [hch]
    refine (Memory.get_puts _ _ _ _).trans ?_
    rw [if_pos (by rw [List.length_drop]; omega), Nat.add_sub_cancel_left, List.getElem?_drop, Nat.add_comm, List.getElem?_eq_getElem h,
      List.getD_eq_getElem _ _ h]
  obtain rfl | rfl := hk
  · exact hflat _
  · exact hflat _
theorem State.get_calPut_chant {s : State} (k : Nat) (d : List Byte) (hk : k = 1 ∨ k = 2) :
    (s.fenced pCHANT = false → (s.calPut k d).get pCHANT R.CHANT_A0 = leAt d 0 2 % 2 ^ 16) ∧
    (s.fenced pCHANT = true → ∀ g, (s.calPut k d).get pCHANT g = s.get pCHANT g) := by
  have hflat : ∀ a, (s.fenced pCHANT = false → (s.flatPut a d).get pCHANT R.CHANT_A0 = leAt d 0 2 % 2 ^ 16) ∧
      (s.fenced pCHANT = true → ∀ g, (s.flatPut a d).get pCHANT g = s.get pCHANT g) := fun a => by
    have hfen : (s.lsWrite a (d.drop 4)).fenced pCHANT = s.fenced pCHANT := rfl
    unfold State.flatPut State.chantWork State.pageWork
    rw [hfen]
    refine ⟨fun h => ?_, fun h g => ?_⟩
    · rw [h, if_neg (by decide), State.get_set_self]
      rfl
    · rw [h, if_pos rfl, State.get_keepPage, if_pos rfl]
      rfl
  obtain rfl | rfl := hk
  · exact hflat _
  · exact hflat _

/-! ### The end of a calibration, its output and its refusals -/

theorem State.unfenced_of_working {s : State} {p : Nat} (h : s.working p = true) : s.fenced p = false := by
  simp only [State.working, Bool.and_eq_true, Bool.not_eq_true'] at h
  exact h.1.2
theorem State.each_updLane_frame (s : State) (g : LaneSt → LaneSt) (l : List Nat) :
    ∃ ln, s.each l (fun t x => t.updLane x g) = { s with lane := ln } :=
  List.foldlRecOn (motive := fun t : State => ∃ ln, t = { s with lane := ln }) l _ ⟨s.lane, rfl⟩ fun t ⟨ln, h⟩ x _ => by
    subst h
    exact ⟨_, rfl⟩
/-- A calibration that ends leaves its capture and its scans (R291). -/
def State.calLeft (s : State) : State :=
  let s := if s.chant.capturing then ({ s with chant := { s.chant with capturing := false } }).tiersClear else s
  let s := s.each ((List.range 128).filter fun l => (s.laneAt l).calScan || (s.laneAt l).calRuns) fun t l =>
    t.updLane l fun x => { x with calScan := false, calRuns := false, scan := if x.calRuns then none else x.scan }
  { s with calst := { kind := s.calst.kind } }
theorem State.calLeft_spec (s : State) :
    ∃ ch ln, s.calLeft = { s with chant := ch, lane := ln, calst := { kind := s.calst.kind } } ∧ ch.capturing = false := by
  unfold State.calLeft
  dsimp only
  obtain ⟨u, hu⟩ : ∃ u, (if s.chant.capturing then ({ s with chant := { s.chant with capturing := false } } : State).tiersClear else s) = u :=
    ⟨_, rfl⟩
  have hc : ∃ ch, u = { s with chant := ch } ∧ ch.capturing = false := by
    subst hu
    split
    · exact ⟨_, rfl, rfl⟩
    · next h => exact ⟨s.chant, rfl, by simpa using h⟩
  rw [hu]
  obtain ⟨ch, hch, hcap⟩ := hc
  obtain ⟨ln, hln⟩ := u.each_updLane_frame (fun x => { x with calScan := false, calRuns := false, scan := if x.calRuns then none else x.scan })
    ((List.range 128).filter fun l => (u.laneAt l).calScan || (u.laneAt l).calRuns)
  exact ⟨ch, ln, by rw [hln, hch], hcap⟩
theorem State.calEnd_eq (s : State) (result : Nat) :
    s.calEnd result = ((s.calLeft.set pCAL R.CAL_STAT_STEP 0).set pCAL R.CAL_STAT_RESULT result).cause pCAL 4 := rfl
theorem State.calEnd_spec {s : State} (hf : s.fenced pCAL = false) {result : Nat} (hr : result < 16) {t : State} (ht : s.calEnd result = t) :
    t.get pCAL R.CAL_STAT_STEP = 0 ∧ t.get pCAL R.CAL_STAT_RESULT = result ∧ bit (t.get pCAL R.PG_IRQ_RAW) 4 = true ∧
    (∀ i < 32, bit (s.get pCAL R.PG_IRQ_RAW) i = true → bit (t.get pCAL R.PG_IRQ_RAW) i = true) ∧
    s.regsBut t [(pCAL, R.CAL_STAT_STEP), (pCAL, R.CAL_STAT_RESULT), (pCAL, R.PG_IRQ_RAW)] ∧
    ∃ r ch ln w, t = { s with
      regs := r, chant := ch, lane := ln, calst := { kind := s.calst.kind }, host := { s.host with waiting := w } } ∧ ch.capturing = false := by
  rw [State.calEnd_eq] at ht
  obtain ⟨ch, ln, hl, hcap⟩ := s.calLeft_spec
  have hreg : s.calLeft.regs = s.regs := by rw [hl]
  have hg := State.get_congr hreg
  have hb : s.regsBut s.calLeft [(pCAL, R.CAL_STAT_STEP), (pCAL, R.CAL_STAT_RESULT), (pCAL, R.PG_IRQ_RAW)] :=
    State.regsBut_of_regs (State.regsBut_refl _ _) hreg
  generalize s.calLeft = u at hl hg hb ht
  clear hreg
  have h1 : ((u.set pCAL R.CAL_STAT_STEP 0).set pCAL R.CAL_STAT_RESULT result).get pCAL R.CAL_STAT_STEP = 0 := by
    rw [State.get_set_field _ _ _ (by decide), State.get_set_self]
    rfl
  have h2 : ((u.set pCAL R.CAL_STAT_STEP 0).set pCAL R.CAL_STAT_RESULT result).get pCAL R.CAL_STAT_RESULT = result := by
    rw [State.get_set_self]
    exact Nat.mod_eq_of_lt hr
  have h3 : ∀ f ∈ [R.PG_IRQ_RAW, R.PG_FENCE_FENCED], ((u.set pCAL R.CAL_STAT_STEP 0).set pCAL R.CAL_STAT_RESULT result).get pCAL f = s.get pCAL f :=
    fun f hf => by
      have : f.id ≠ R.CAL_STAT_STEP.id ∧ f.id ≠ R.CAL_STAT_RESULT.id := by
        revert f
        decide
      rw [State.get_set_field _ _ _ this.2, State.get_set_field _ _ _ this.1, hg]
  have hb' := State.regsBut_set (State.regsBut_set hb (p := pCAL) (f := R.CAL_STAT_STEP) 0 (by simp)) (p := pCAL) (f := R.CAL_STAT_RESULT) result
    (by simp)
  obtain ⟨r, hsh⟩ := (u.wrote_set pCAL R.CAL_STAT_STEP 0).trans (State.wrote_set _ pCAL R.CAL_STAT_RESULT result)
  generalize (u.set pCAL R.CAL_STAT_STEP 0).set pCAL R.CAL_STAT_RESULT result = v at h1 h2 h3 hb' hsh ht
  have hfr : v.frozen pCAL = false := (State.frozen_congr (h3 _ (by simp))).trans (State.frozen_of_unfenced hf)
  obtain ⟨r', w, hrep⟩ := v.reports_cause pCAL 4
  subst ht
  exact ⟨(State.get_cause_field _ _ _ (by decide)).trans h1, (State.get_cause_field _ _ _ (by decide)).trans h2, State.bit_cause _ (by decide) hfr,
    fun i hi hb => State.bit_cause_keeps _ hi (by rw [h3 _ (by simp)]; exact hb), State.regsBut_cause hb' _ (by simp),
    r', ch, ln, w, by rw [hrep, hsh, hl], hcap⟩
theorem State.calReject_spec {s : State} (hf : s.fenced pCAL = false) {result : Nat} (hr : result < 16) {t : State} (ht : s.calReject result = t) :
    t.get pCAL R.CAL_REJ_CNT = min (s.get pCAL R.CAL_REJ_CNT + 1) (2 ^ R.CAL_REJ_CNT.w - 1) ∧ t.get pCAL R.CAL_STAT_RESULT = result ∧
    s.regsBut t [(pCAL, R.CAL_REJ_CNT), (pCAL, R.CAL_STAT_RESULT)] ∧ s.wrote t := by
  unfold State.calReject State.pageWork at ht
  rw [hf, if_neg (by decide)] at ht
  subst ht
  refine ⟨?_, ?_, State.regsBut_set (State.regsBut_incSat (State.regsBut_refl _ _) (by simp)) _ (by simp),
    (s.wrote_addSat _ _ _).trans (State.wrote_set _ _ _ _)⟩
  · rw [State.get_set_field _ _ _ (by decide), State.get_incSat_self]
  · rw [State.get_set_self]
    exact Nat.mod_eq_of_lt hr
theorem State.calReject_fenced {s : State} (hf : s.fenced pCAL = true) (result : Nat) :
    (∀ q g, (s.calReject result).get q g = s.get q g) ∧ s.wrote (s.calReject result) := by
  unfold State.calReject State.pageWork
  rw [hf, if_pos rfl]
  refine ⟨fun q g => ?_, (s.keepPage _ pCAL).regs, rfl⟩
  rw [State.get_keepPage]
  split
  · rfl
  · next h => rw [State.get_set_ne _ _ (Or.inl h), State.get_incSat_ne _ (Or.inl h)]
theorem State.calOutput_spec {s : State} (hf : s.fenced pCAL = false) (kind : Nat) (r : List Byte) {t : State} (ht : s.calOutput kind r = t) :
    bit (t.get pCAL R.PG_IRQ_RAW) 5 = true ∧ t.queues.getD 0x33 [] = s.queues.getD 0x33 [] ++ [{ bytes := r, last := true }] ∧
    s.regsBut t [(pCAL, R.CAL_STAT_BANK), (pCAL, R.PG_IRQ_RAW)] ∧
    ∃ rg q w, t = { s with regs := rg, queues := q, host := { s.host with waiting := w } } := by
  obtain ⟨bank, hbank⟩ : ∃ b, s.calOutput kind r = s.pageWork pCAL fun s =>
    ((s.enqueue 0x33 { bytes := r, last := true }).set pCAL R.CAL_STAT_BANK b).cause pCAL 5 := ⟨_, rfl⟩
  rw [hbank] at ht
  unfold State.pageWork at ht
  rw [hf, if_neg (by decide)] at ht
  dsimp only at ht
  have hb : s.regsBut ((s.enqueue 0x33 { bytes := r, last := true }).set pCAL R.CAL_STAT_BANK bank) [(pCAL, R.CAL_STAT_BANK), (pCAL, R.PG_IRQ_RAW)] :=
    State.regsBut_set (State.regsBut_of_regs (State.regsBut_refl s _) rfl) _ (by simp)
  have hfr : ((s.enqueue 0x33 { bytes := r, last := true }).set pCAL R.CAL_STAT_BANK bank).frozen pCAL = false :=
    (State.frozen_congr (hb.field (by decide) _)).trans (State.frozen_of_unfenced hf)
  have hq : ((s.enqueue 0x33 { bytes := r, last := true }).set pCAL R.CAL_STAT_BANK bank).queues.getD 0x33 [] =
      s.queues.getD 0x33 [] ++ [{ bytes := r, last := true }] := NMap.getD_put_self _ _ _ _
  have hsh : ∃ rg q, (s.enqueue 0x33 { bytes := r, last := true }).set pCAL R.CAL_STAT_BANK bank = { s with regs := rg, queues := q } := ⟨_, _, rfl⟩
  generalize (s.enqueue 0x33 { bytes := r, last := true }).set pCAL R.CAL_STAT_BANK bank = v at hb hfr hq hsh ht
  obtain ⟨rg, q, hsh⟩ := hsh
  obtain ⟨r', w, hrep⟩ := v.reports_cause pCAL 5
  subst ht
  exact ⟨State.bit_cause _ (by decide) hfr, by rw [hrep]; exact hq, State.regsBut_cause hb _ (by simp), r', q, w, by rw [hrep, hsh]⟩
theorem calCnt_ids : ∀ k < 6, 1 ≤ k → ∀ f ∈ [R.CAL_STAT_STEP, R.CAL_STAT_RESULT, R.CAL_STAT_BANK, R.CAL_REJ_CNT, R.CAL_DISAG, R.CAL_COMPARED,
    R.CAL_LAST, R.PG_IRQ_RAW, R.PG_FENCE_FENCED], f.id ≠ (calCnt k).id := by decide
theorem calCnt_width (k : Nat) : (calCnt k).w = 32 := rfl
theorem leAt_lt (l : List Byte) (i k : Nat) : leAt l i k < 256 ^ k := by
  have hle : ∀ m : List Byte, leNat m < 256 ^ m.length := fun m => by
    induction m with
    | nil => exact Nat.one_pos
    | cons b m ih =>
      have := b.isLt
      rw [leNat, List.length_cons, pow_succ']
      omega
  refine (hle _).trans_le (Nat.pow_le_pow_right (by decide) ?_)
  rw [List.length_take]
  exact Nat.min_le_left _ _
/-- An installed record's number shows in CAL_CNT of its kind (R294); what the kind's own values touch is told by `installs`. -/
theorem State.calInstall_spec {s : State} (hf : s.fenced pCAL = false) (r : List Byte) {u t : State}
    (hu : s.pageWork pCAL (fun s => s.set pCAL (calCnt (byteAt r 1)) (calNum r)) = u) (ht : s.calInstall r = t) :
    u = s.set pCAL (calCnt (byteAt r 1)) (calNum r) ∧ t = u.calPut (byteAt r 1) (calBytes r) ∧
    u.installs t [calRegion (byteAt r 1) r.length] ∧ t.get pCAL (calCnt (byteAt r 1)) = calNum r ∧
    (∀ {f : Fld}, f.id ≠ (calCnt (byteAt r 1)).id → t.get pCAL f = s.get pCAL f) ∧ s.lsOnly t [calRegion (byteAt r 1) r.length] := by
  have hu' : u = s.set pCAL (calCnt (byteAt r 1)) (calNum r) := by
    rw [← hu]
    unfold State.pageWork
    rw [hf, if_neg (by decide)]
  rw [State.calInstall_eq, hu] at ht
  have hi : u.installs t [calRegion (byteAt r 1) r.length] := ht ▸ u.installs_calPut r
  refine ⟨hu', ht.symm, hi, ?_, fun hne => ?_, ?_⟩
  · rw [hi.cal, hu', State.get_set_self, calCnt_width]
    exact Nat.mod_eq_of_lt (leAt_lt _ _ _)
  · rw [hi.cal, hu', State.get_set_field _ _ _ hne]
  · obtain ⟨h1, h2, h3, h4, h5⟩ := hi.lsOnly
    subst hu'
    exact ⟨h1, h2, h3, h4, h5⟩
theorem State.calSend_shape (s : State) (r : List Byte) : ∃ p o, s.calSend r = { s with pair := p, outs := o } := by
  unfold State.calSend
  split
  · exact s.crookCommand_shape _ _
  · exact ⟨s.pair, s.outs, rfl⟩

/-! ### The commands -/

theorem exec_flatInstall_idle {s : State} (h : s.calst.waitInstall = none ∨ s.working pCAL = false ∨ s.enabled (pCAM (s.calst.kind - 1)) = true) :
    exec .flatInstall s = .next s := by
  change Host.Outcome.next _ = _
  cases hw : s.calst.waitInstall with
  | none => rfl
  | some r =>
    dsimp only
    rw [if_pos (by rcases h with h | h | h <;> simp_all)]
theorem exec_flatInstall {s : State} {r : List Byte} (hw : s.calst.waitInstall = some r) (hon : s.working pCAL = true)
    (hcam : s.enabled (pCAM (s.calst.kind - 1)) = false) : exec .flatInstall s = .next ((s.calInstall r).calEnd 1) := by
  change Host.Outcome.next _ = _
  rw [hw]
  dsimp only
  rw [if_neg (by simp [hon, hcam])]
section
variable {s : State}
theorem exec_calRecordIn_idle (h : s.working pCAL = false ∨ s.calst.runDone = true ∨ (s.sinks.getD 0x33 []).length < 8 ∨
    (leAt (s.sinks.getD 0x33 []) 4 4 ∈ [calLen 1, calLen 3, calLen 4, calLen 5] ∧
      (s.sinks.getD 0x33 []).length < leAt (s.sinks.getD 0x33 []) 4 4)) : exec .calRecordIn s = .next s := by
  change Host.Outcome.next _ = _
  by_cases h0 : (!s.working pCAL || s.calst.runDone || decide ((s.sinks.getD 0x33 []).length < 8)) = true
  · rw [if_pos h0]
  · rw [if_neg h0]
    simp only [Bool.or_eq_true, Bool.not_eq_true', decide_eq_true_eq, not_or, Bool.not_eq_false, Bool.not_eq_true] at h0
    obtain ⟨⟨h1, h2⟩, h3⟩ := h0
    obtain ⟨hin, hlt⟩ := ((h.resolve_left (by simp [h1])).resolve_left (by simp [h2])).resolve_left h3
    rw [if_neg (by rw [List.contains_iff_mem.mpr hin]; decide), if_pos hlt]
variable {l : List Byte} {n : Nat} (hl : l = s.sinks.getD 0x33 []) (hn : n = leAt l 4 4) (hon : s.working pCAL = true)
  (hrun : s.calst.runDone = false) (h8 : 8 ≤ l.length)
include hl hn hon hrun h8
theorem exec_calRecordIn_misfit (h : n ∉ [calLen 1, calLen 3, calLen 4, calLen 5]) :
    exec .calRecordIn s = .next (({ s with sinks := s.sinks.del 0x33 } : State).calReject 4) := by
  change Host.Outcome.next _ = _
  rw [← hl, ← hn, if_neg (by simp [hon, hrun]; omega), if_pos (by simpa using h)]
theorem exec_calRecordIn (h : n ∈ [calLen 1, calLen 3, calLen 4, calLen 5]) (hlen : n ≤ l.length) :
    exec .calRecordIn s = .next (({ s with sinks := s.sinks.put 0x33 (l.drop n) } : State).calTake (l.take n)) := by
  change Host.Outcome.next _ = _
  rw [← hl, ← hn, if_neg (by simp [hon, hrun]; omega), if_neg (by rw [List.contains_iff_mem.mpr h]; decide), if_neg (not_lt.mpr hlen)]
end
theorem leAt_take (l : List Byte) {n i k : Nat} (h : i + k ≤ n) : leAt (l.take n) i k = leAt l i k := by
  unfold leAt
  rw [List.drop_take, List.take_take, Nat.min_eq_left (by omega)]
theorem byteAt_take (l : List Byte) {n i : Nat} (h : i < n) : byteAt (l.take n) i = byteAt l i := by
  unfold byteAt
  rw [List.getD_eq_getElem?_getD, List.getElem?_take_of_lt h, ← List.getD_eq_getElem?_getD]
theorem leAt_calBytes (r : List Byte) (h : 38 ≤ r.length) : leAt (calBytes r) 0 2 = leAt r 32 2 := by
  unfold leAt calBytes
  rw [List.drop_zero, List.take_take, Nat.min_eq_left (by omega)]
theorem calLen_ge : ∀ n ∈ [calLen 1, calLen 3, calLen 4, calLen 5], 296 ≤ n := by decide
/-- The delays and the base that a FIRE record carries. -/
def fireValues (l : List Byte) : List Nat := leAt l 32 2 :: (List.range 128).map fun h => leAt l (36 + 2 * h) 2
theorem fireValues_take (l : List Byte) {n : Nat} (h : 296 ≤ n) : fireValues (l.take n) = fireValues l := by
  unfold fireValues
  rw [leAt_take l (by omega)]
  refine congrArg _ (List.map_congr_left fun x hx => leAt_take l ?_)
  rw [List.mem_range] at hx
  omega
section
variable {s : State} {r : List Byte}
theorem State.calTake_valid (h : calValid r (byteAt r 1) 0 = true) : s.calTake r = (s.calInstall r).calSend r := by
  unfold State.calTake
  dsimp only
  rw [if_pos h]
theorem State.calTake_reject (h : calValid r (byteAt r 1) 0 = false)
    (hrun : (s.calst.running && s.calst.kind == 5 && (s.get pCAL R.CAL_STAT_STEP == 1 || s.get pCAL R.CAL_STAT_STEP == 2) &&
      calValid r 5 (s.get pCAL R.CAL_STAT_STEP)) = false) : s.calTake r = s.calReject 4 := by
  unfold State.calTake
  dsimp only
  rw [if_neg (by simp [h]), if_neg (by simp [hrun])]
theorem State.calTake_run (h : calValid r (byteAt r 1) 0 = false)
    (hrun : (s.calst.running && s.calst.kind == 5 && (s.get pCAL R.CAL_STAT_STEP == 1 || s.get pCAL R.CAL_STAT_STEP == 2) &&
      calValid r 5 (s.get pCAL R.CAL_STAT_STEP)) = true) : s.calTake r = { s with
        calst := if s.get pCAL R.CAL_STAT_STEP = 1 then { s.calst with r1 := fireValues r, runDone := true }
          else { s.calst with r2 := fireValues r, runDone := true } } := by
  unfold State.calTake
  dsimp only
  rw [if_neg (by simp [h]), if_pos hrun]
  rfl
theorem calValid_kind {k run : Nat} (h : calValid r k run = true) : byteAt r 1 = k ∧ 1 ≤ k ∧ k < 6 := by
  simp only [calValid, Bool.and_eq_true, decide_eq_true_eq, beq_iff_eq] at h
  omega
theorem calValid_length {k run : Nat} (h : calValid r k run = true) : r.length = calLen k := by
  simp only [calValid, Bool.and_eq_true, decide_eq_true_eq, beq_iff_eq] at h
  omega
end
/-- An installed FIRE record's base shows in HEADC_FIRE (R295). -/
theorem State.calInstall_fire {s : State} (hf : s.fenced pCAL = false) {r : List Byte} (hk : byteAt r 1 = 5) (hfen : s.fenced pHEADC = false)
    (hres : s.resetting pHEADC = false) : (s.calInstall r).get pHEADC R.HEADC_FIRE = leAt (calBytes r) 0 2 % 2 ^ R.HEADC_FIRE.w := by
  obtain ⟨h1, h2, -⟩ := State.calInstall_spec hf r rfl rfl
  generalize s.pageWork pCAL (fun s => s.set pCAL (calCnt (byteAt r 1)) (calNum r)) = u at h1 h2
  rw [h2, hk]
  refine State.firePut_fire (s := u) ?_ ?_ _
  · rw [h1, State.fenced, State.flag, State.get_set_ne _ _ (Or.inl (by decide))]
    exact hfen
  · have hset : (s.set pCAL (calCnt (byteAt r 1)) (calNum r)).resetting = s.resetting :=
      State.resetting_congr rfl rfl (State.get_set_ne _ _ (Or.inl (by decide)))
    rw [h1, hset]
    exact hres
theorem State.calInstall_fire_hold {s : State} (hf : s.fenced pCAL = false) {r : List Byte} (hk : byteAt r 1 = 5) :
    (s.calInstall r).hold = s.hold := by
  obtain ⟨h1, h2, -⟩ := State.calInstall_spec hf r rfl rfl
  generalize s.pageWork pCAL (fun s => s.set pCAL (calCnt (byteAt r 1)) (calNum r)) = u at h1 h2
  rw [h2, hk, h1]
  exact (State.firePut_hold _ _).trans (State.set_hold _ _ _ _)
section
variable {s u : State} {hd : CrookHdr}
/-- CAL as PAIR has taken it: the partner of a camera unit notes the message (R296). -/
theorem exec_calMessage (h : s.hearsCmd hd) (hu : u = s.noted hd) (r : List Byte) : exec (.calMessage hd r) s = .next (
    if byteAt r 1 ≠ 5 then u.peerCamSeen.incSat pPAIR R.PAIR_BAD_CNT
    else if !u.peerCamSeen.working pCAL || !calValid r 5 0 then u.peerCamSeen.calReject 4
    else (u.peerCamSeen.calInstall r).calOutput 5 r) := by
  obtain ⟨hh, h1, h2⟩ := h
  have H : s.heardBy u := hu ▸ hh.heardBy
  change Host.Outcome.next _ = _
  refine congrArg _ ((State.crookMsg_heard hh fun t => if t.pairState = 3 ∨ t.peerState = 3 then t else _).trans ?_)
  rw [← hu, H.pairState, H.peerState, if_neg (by simp [h1, h2])]
end
theorem State.flatInstalled {s : State} {r : List Byte} (hf : s.fenced pCAL = false) (hk : byteAt r 1 = 1 ∨ byteAt r 1 = 2) {t : State}
    (ht : (s.calInstall r).calEnd 1 = t) : t.calst.waitInstall = none ∧ t.calst.running = false ∧ t.get pCAL R.CAL_STAT_STEP = 0 ∧
    t.get pCAL R.CAL_STAT_RESULT = 1 ∧ t.get pCAL (calCnt (byteAt r 1)) = calNum r ∧
    (s.fenced pCHANT = false → t.get pCHANT R.CHANT_A0 = leAt (calBytes r) 0 2) ∧
    (s.fenced pCHANT = true → ∀ g, t.get pCHANT g = s.get pCHANT g) ∧
    (∀ i, i + 4 < (calBytes r).length →
      Memory.get t.lstore ((calRegion (byteAt r 1) 0).1 + i) = some ((calBytes r).getD (i + 4) 0)) ∧
    s.lsOnly t [calRegion (byteAt r 1) r.length] := by
  obtain ⟨h1, h2, h3, h4, h5, h6, h7, h8, h9, h10⟩ := State.calInstall_spec hf r rfl rfl
  generalize s.pageWork pCAL (fun s => s.set pCAL (calCnt (byteAt r 1)) (calNum r)) = u at h1 h2 h3
  have hids := calCnt_ids (byteAt r 1) (by omega) (by omega)
  have hmem := fun i hi => u.mem_calPut (byteAt r 1) (calBytes r) hk 0 i hi
  obtain ⟨hc1, hc2⟩ := u.get_calPut_chant (byteAt r 1) (calBytes r) hk
  rw [← h2] at hmem hc1 hc2
  have hch : ∀ f, u.get pCHANT f = s.get pCHANT f := fun f => by rw [h1, State.get_set_ne _ _ (Or.inl (by decide))]
  have hfen : u.fenced pCHANT = s.fenced pCHANT := congrArg (· == 1) (hch _)
  clear h2 h3 h1
  generalize s.calInstall r = v at h4 h5 h6 h7 h8 h9 h10 hmem hc1 hc2 ht
  have hvf : v.fenced pCAL = false := by
    rw [State.fenced, State.flag, h5 (hids _ (by simp))]
    exact hf
  obtain ⟨e1, e2, -, -, e5, rg, ch, ln, w, e6, -⟩ := State.calEnd_spec hvf (by decide) ht
  have hone : ∀ f, t.get pCHANT f = v.get pCHANT f := fun f => e5 _ _ (by simp [show pCHANT ≠ pCAL by decide])
  refine ⟨by rw [e6], by rw [e6], e1, e2, ?_, fun h => ?_, fun h g => ?_, fun i hi => ?_, ?_⟩
  · refine (e5 _ _ fun e he => Or.inr ?_).trans h4
    have hin : e.2 ∈ [R.CAL_STAT_STEP, R.CAL_STAT_RESULT, R.CAL_STAT_BANK, R.CAL_REJ_CNT, R.CAL_DISAG, R.CAL_COMPARED,
        R.CAL_LAST, R.PG_IRQ_RAW, R.PG_FENCE_FENCED] := by
      simp only [List.mem_cons, List.not_mem_nil, or_false] at he
      rcases he with rfl | rfl | rfl <;> simp
    exact (hids _ hin).symm
  · rw [hone, hc1 (hfen.trans h)]
    exact Nat.mod_eq_of_lt (leAt_lt _ _ _)
  · rw [hone, hc2 (hfen.trans h), hch]
  · rw [e6]
    exact hmem i hi
  · rw [e6]
    exact ⟨h6, h7, h8, h9, h10⟩
/-- Settles O53: an installation by `calInstall_spec` and its kind's place, a refusal by `calReject_spec`. -/
theorem calibrationRecords : Obligations.CalibrationRecords := by
  unfold Obligations.CalibrationRecords
  refine ⟨fun s => ⟨exec_flatInstall_idle, fun r hw hon hcam hk =>
    ⟨_, exec_flatInstall hw hon hcam, State.flatInstalled (State.unfenced_of_working hon) hk rfl⟩⟩, fun s n l hl hn => ⟨fun h => ?_,
    fun hon hrun h8 => ⟨fun h => ?_, fun h hlen valid run v hvalid hrunr hv => ?_⟩⟩, fun s hd r u h hu => ?_⟩
  · subst hn hl
    exact exec_calRecordIn_idle h
  · refine ⟨_, exec_calRecordIn_misfit hl hn hon hrun h8 h, ?_⟩
    have hf : ({ s with sinks := s.sinks.del 0x33 } : State).fenced pCAL = false := State.unfenced_of_working (p := pCAL) hon
    have hd : ({ s with sinks := s.sinks.del 0x33 } : State).sinks.getD 0x33 [] = [] := NMap.getD_del_self _ _ _
    have hr : ({ s with sinks := s.sinks.del 0x33 } : State).regs = s.regs := rfl
    have hm : s.sameMemory { s with sinks := s.sinks.del 0x33 } := ⟨rfl, rfl, rfl, rfl, rfl⟩
    generalize ({ s with sinks := s.sinks.del 0x33 } : State) = w at hf hd hr hm
    obtain ⟨h1, h2, h3, rg, h4⟩ := State.calReject_spec hf (result := 4) (by decide) rfl
    rw [State.get_congr hr] at h1
    exact ⟨by rw [h4]; exact hd, h1, h2, State.regsBut_trans (State.regsBut_of_regs (State.regsBut_refl _ _) hr) h3, by rw [h4]; exact hm⟩
  · refine ⟨_, exec_calRecordIn hl hn hon hrun h8 h hlen, ?_⟩
    have hge := calLen_ge n h
    have hf : ({ s with sinks := s.sinks.put 0x33 (l.drop n) } : State).fenced pCAL = false := State.unfenced_of_working (p := pCAL) hon
    have hd : ({ s with sinks := s.sinks.put 0x33 (l.drop n) } : State).sinks.getD 0x33 [] = l.drop n := NMap.getD_put_self _ _ _ _
    obtain ⟨w, hw⟩ : ∃ w, w = ({ s with sinks := s.sinks.put 0x33 (l.drop n) } : State) := ⟨_, rfl⟩
    rw [← hw] at hf hd ⊢
    have hr : w.regs = s.regs := by rw [hw]
    have hg := State.get_congr hr
    have hws : ∃ k, w = { s with sinks := k } := ⟨_, hw⟩
    clear hw
    obtain ⟨sk, hws⟩ := hws
    have hcal : w.calst = s.calst := by rw [hws]
    have hbt : byteAt (l.take n) 1 = byteAt l 1 := byteAt_take l (by omega)
    rw [← hbt] at hvalid
    rw [← hcal, ← hg] at hrunr
    rw [← hbt]
    have hlen' : (l.take n).length = n := by rw [List.length_take, Nat.min_eq_left hlen]
    refine ⟨?_, fun hv0 => ?_, fun hv0 hr0 => ?_, fun hv0 hr0 => ?_⟩
    · cases hv0 : valid with
      | true =>
        rw [State.calTake_valid (hvalid.symm.trans hv0)]
        obtain ⟨h1, -, h3, -⟩ := State.calInstall_spec hf (l.take n) rfl rfl
        obtain ⟨p, o, hs⟩ := (w.calInstall (l.take n)).calSend_shape (l.take n)
        obtain ⟨r, pv, ap, cm, wt, ls, le, lr, ch, hi⟩ := h3.shape
        rw [hs, hi, h1]
        exact hd
      | false =>
        cases hr0 : run with
        | true =>
          rw [State.calTake_run (hvalid.symm.trans hv0) (hrunr.symm.trans hr0)]
          exact hd
        | false =>
          rw [State.calTake_reject (hvalid.symm.trans hv0) (hrunr.symm.trans hr0)]
          obtain ⟨-, -, -, rg, h4⟩ := State.calReject_spec hf (result := 4) (by decide) rfl
          rw [h4]
          exact hd
    · have hval := hvalid.symm.trans hv0
      rw [State.calTake_valid hval]
      obtain ⟨-, -, -, h4, -, h6⟩ := State.calInstall_spec hf (l.take n) rfl rfl
      have hfire := State.calInstall_fire (r := l.take n) hf
      obtain ⟨p, o, hs⟩ := (w.calInstall (l.take n)).calSend_shape (l.take n)
      rw [hs]
      rw [hlen'] at h6
      refine ⟨h4.trans (leAt_take l (by omega)), ?_, fun hk hfen hres => ?_⟩
      · rw [hws] at h6 ⊢
        exact h6
      · refine (hfire hk ?_ ?_).trans ?_
        · rw [hws]
          exact hfen
        · rw [hws]
          exact hres
        · rw [leAt_calBytes _ (by omega), leAt_take l (by omega)]
    · rw [State.calTake_run (hvalid.symm.trans hv0) (hrunr.symm.trans hr0), fireValues_take l hge, hg, hcal, hv]
      refine ⟨?_, fun h => ?_, fun h => ?_, by rw [hws]⟩
      · split <;> rfl
      · rw [if_pos h]
        exact ⟨rfl, rfl⟩
      · rw [if_neg (by rw [h]; decide)]
        exact ⟨rfl, rfl⟩
    · rw [State.calTake_reject (hvalid.symm.trans hv0) (hrunr.symm.trans hr0)]
      obtain ⟨h1, h2, h3, rg, h4⟩ := State.calReject_spec hf (result := 4) (by decide) rfl
      rw [hg] at h1
      exact ⟨h1, h2, State.regsBut_trans (State.regsBut_of_regs (State.regsBut_refl _ _) hr) h3, by rw [h4, hws]⟩
  · have H : s.heardBy u := hu ▸ h.1.heardBy
    rw [exec_calMessage h hu r]
    obtain ⟨x, hx⟩ : ∃ x, x = u.peerCamSeen := ⟨_, rfl⟩
    rw [← hx]
    have hxr : x.regs = u.regs := by rw [hx]; rfl
    have hg := State.get_congr hxr
    have hxh : x.hold = s.hold := by
      obtain ⟨rg, c, w, o, a, y, g, m, hsh⟩ := H.shape
      rw [hx, State.peerCamSeen_hold, hsh]
      rfl
    have hxs : ∃ p, x = { u with pair := p } ∧ p.peerCam = (if s.straps.home then none else some s.tick) := by
      refine ⟨_, hx, ?_⟩
      rw [H.straps, H.kept.1]
    have hxq : x.queues = s.queues := by
      obtain ⟨rg, c, w, o, a, y, g, m, hsh⟩ := H.shape
      rw [hx, hsh]
      rfl
    clear hx
    obtain ⟨xp, hxs, hxp⟩ := hxs
    have hcam : x.pair.peerCam = (if s.straps.home then none else some s.tick) := by rw [hxs]; exact hxp
    have hwork : x.working pCAL = s.working pCAL := by
      rw [← H.working]
      exact congrFun (State.working_congr (by rw [hxs]) (by rw [hxs]) fun f _ p => hg p f) pCAL
    have hfen : ∀ p, x.fenced p = s.fenced p := fun p => by
      rw [← H.fenced, State.fenced, State.flag, hg]
      rfl
    have hres : ∀ p, x.resetting p = s.resetting p := fun p => by
      rw [← H.resetting]
      exact congrFun (State.resetting_congr (by rw [hxs]) (by rw [hxs]) (hg _ _)) p
    have hub : ∀ L, u.regsBut x L := fun L => State.regsBut_of_regs (State.regsBut_refl _ _) hxr
    rw [hwork]
    by_cases hk : byteAt r 1 = 5
    · rw [if_neg (not_not.mpr hk)]
      by_cases hbad : s.working pCAL = false ∨ calValid r 5 0 = false
      · rw [if_pos (by rcases hbad with h | h <;> simp [h])]
        obtain ⟨rg, hrg⟩ : x.wrote (x.calReject 4) := by
          cases hfc : x.fenced pCAL with
          | true => exact (State.calReject_fenced hfc 4).2
          | false => exact (State.calReject_spec hfc (by decide) rfl).2.2.2
        refine ⟨_, rfl, by rw [hrg]; exact hcam, sameMemory_of_hold (by rw [hrg]; exact hxh), fun h => absurd hk h,
          fun _ h1 h2 => ?_, fun _ _ => ⟨fun hfc q g => ?_, fun hfc => ?_⟩⟩
        · rw [h1, h2] at hbad
          exact absurd hbad (by decide)
        · rw [(State.calReject_fenced ((hfen _).trans hfc) 4).1, hg]
        · obtain ⟨h1, h2, h3, -⟩ := State.calReject_spec ((hfen _).trans hfc) (result := 4) (by decide) rfl
          rw [hg, H.page (by decide)] at h1
          exact ⟨h1, h2, State.regsBut_trans (hub _) h3⟩
      · simp only [not_or, Bool.not_eq_false] at hbad
        obtain ⟨hon, hval⟩ := hbad
        rw [if_neg (by simp [hon, hval])]
        have hfc : x.fenced pCAL = false := (hfen _).trans (State.unfenced_of_working hon)
        obtain ⟨h1, -, h3, h4, h5, h6⟩ := State.calInstall_spec hfc r rfl rfl
        have hids := calCnt_ids (byteAt r 1) (by omega) (by omega)
        have hfire := State.calInstall_fire hfc hk
        have hhold := (State.calInstall_fire_hold hfc hk).trans hxh
        obtain ⟨ri, pv, ap, cm, wt, ls, le, lr, ch, hi⟩ := h3.shape
        rw [h1] at hi
        have hpq : (x.calInstall r).queues = x.queues ∧ (x.calInstall r).pair = x.pair := by rw [hi]; exact ⟨rfl, rfl⟩
        clear h1 h3 hi
        have hvf : (x.calInstall r).fenced pCAL = false := by
          rw [State.fenced, State.flag, h5 (hids _ (by simp))]
          exact hfc
        generalize x.calInstall r = y at h4 h5 h6 hfire hhold hpq hvf
        obtain ⟨o1, o2, o3, rg, q, w, o4⟩ := State.calOutput_spec hvf 5 r rfl
        refine ⟨_, rfl, ?_, sameMemory_of_hold (by rw [o4]; exact hhold), fun h => absurd hk h, fun _ _ _ => ⟨?_, fun hfh hrh => ?_, o1, ?_⟩,
          fun _ h => ?_⟩
        · rw [o4]
          exact (congrArg PairSt.peerCam hpq.2).trans hcam
        · rw [show calCnt 5 = calCnt (byteAt r 1) by rw [hk]]
          refine (o3 _ _ fun e he => Or.inr ?_).trans h4
          simp only [List.mem_cons, List.not_mem_nil, or_false] at he
          rcases he with rfl | rfl <;> exact (hids _ (by simp)).symm
        · refine (o3 _ _ (by simp [show pHEADC ≠ pCAL by decide])).trans (hfire ((hfen _).trans hfh) ((hres _).trans hrh))
        · rw [o2, hpq.1, hxq]
        · rw [hon, hval] at h
          exact absurd h (by decide)
    · rw [if_pos hk]
      refine ⟨_, rfl, hcam, sameMemory_of_hold hxh, fun _ => ⟨?_, State.regsBut_incSat (hub _) (by simp)⟩, fun h => absurd h hk,
        fun h => absurd h hk⟩
      rw [State.get_incSat_self, hg, H.get (by decide) (by decide)]
end Sys2Proof.Machine
end

section
/-! ### Calibration runs and their commands (O52) -/
open Sys2Proof Sys2Proof.Machine
namespace Sys2Proof.Machine

/-! ### The begin of a run (R291, R294) -/

/-- What COLREF's lane does when LANE asks it for a scan. -/
def State.askLane (t : State) (l : Nat) : State :=
  if (t.laneAt l).st = 3 then t.updLane l fun x =>
    if x.scan.isSome then { x with calScan := true } else { x with scan := some (t.scanNew l 0), calRuns := true }
  else { t with calst := { t.calst with abandoned := t.calst.abandoned ++ [l] } }
/-- A lane that is UP has been asked for a scan; another is abandoned. -/
def State.asked (s t : State) (l : Nat) : Prop :=
  if (s.laneAt l).st = 3 then (t.laneAt l).calScan = true ∨ (t.laneAt l).calRuns = true else l ∈ t.calst.abandoned
theorem State.askLane_spec (s : State) (l : Nat) : s.asked (s.askLane l) l ∧ (∀ m, m ≠ l → (s.askLane l).laneAt m = s.laneAt m) ∧
    (∀ a ∈ s.calst.abandoned, a ∈ (s.askLane l).calst.abandoned) ∧
    ∃ ln ab, s.askLane l = { s with lane := ln, calst := { s.calst with abandoned := ab } } := by
  unfold State.askLane State.asked
  by_cases h : (s.laneAt l).st = 3
  · rw [if_pos h, if_pos h]
    refine ⟨?_, fun m hm => State.laneAt_upd_other _ _ hm, fun a ha => ha, _, s.calst.abandoned, rfl⟩
    rw [State.laneAt_upd_self]
    split
    · exact Or.inl rfl
    · exact Or.inr rfl
  · rw [if_neg h, if_neg h]
    exact ⟨List.mem_append_right _ (List.mem_singleton_self _), fun _ _ => rfl, fun a ha => List.mem_append_left _ ha, s.lane, _, rfl⟩
theorem State.askLanes_spec (ask : List Nat) (hn : ask.Nodup) (s : State) :
    (∀ m, m ∉ ask → (ask.foldl State.askLane s).laneAt m = s.laneAt m) ∧
    (∀ a ∈ s.calst.abandoned, a ∈ (ask.foldl State.askLane s).calst.abandoned) ∧
    (∀ m ∈ ask, s.asked (ask.foldl State.askLane s) m) ∧
    ∃ ln ab, ask.foldl State.askLane s = { s with lane := ln, calst := { s.calst with abandoned := ab } } := by
  induction ask generalizing s with
  | nil => exact ⟨fun _ _ => rfl, fun a ha => ha, by simp, s.lane, s.calst.abandoned, rfl⟩
  | cons l ask ih =>
    obtain ⟨hl, hn⟩ := List.nodup_cons.mp hn
    obtain ⟨h1, h2, h3, ln, ab, h4⟩ := s.askLane_spec l
    obtain ⟨k1, k2, k3, ln', ab', k4⟩ := ih hn (s.askLane l)
    rw [List.foldl_cons]
    generalize ask.foldl State.askLane (s.askLane l) = t at k1 k2 k3 k4
    refine ⟨fun m hm => ?_, fun a ha => k2 a (h3 a ha), fun m hm => ?_, ln', ab', by rw [k4, h4]⟩
    · rw [List.mem_cons, not_or] at hm
      exact (k1 m hm.2).trans (h2 m hm.1)
    · by_cases hml : m = l
      · subst hml
        unfold State.asked at h1 ⊢
        rw [k1 m hl]
        split
        · next h =>
          rw [if_pos h] at h1
          exact h1
        · next h =>
          rw [if_neg h] at h1
          exact k2 m h1
      · have := k3 m ((List.mem_cons.mp hm).resolve_left hml)
        unfold State.asked at this ⊢
        rw [h2 m hml] at this
        exact this
theorem State.lanesAsk_eq (s : State) : s.lanesAsk = ((List.range 128).filter fun l => s.enabled (pLANE l)).foldl State.askLane s := rfl
theorem State.runBegin_spec (s : State) {step : Nat} (hs : step < 16) {t : State} (ht : s.runBegin step = t) :
    t.get pCAL R.CAL_STAT_STEP = step ∧ s.regsBut t [(pCAL, R.CAL_STAT_STEP)] ∧
    (s.calst.kind = 4 → ∀ l < 128, s.enabled (pLANE l) = true → s.asked t l) ∧
    (s.calst.kind ≠ 4 → t.calst = { s.calst with runDone := false } ∧ t.lane = s.lane) ∧
    ∃ r ln ab, t = { s with regs := r, lane := ln, calst := { s.calst with runDone := false, abandoned := ab } } := by
  unfold State.runBegin at ht
  dsimp only at ht
  have h1 : (({ s with calst := { s.calst with runDone := false } } : State).set pCAL R.CAL_STAT_STEP step).get pCAL R.CAL_STAT_STEP = step := by
    rw [State.get_set_self]
    exact Nat.mod_eq_of_lt hs
  have h2 : s.regsBut (({ s with calst := { s.calst with runDone := false } } : State).set pCAL R.CAL_STAT_STEP step) [(pCAL, R.CAL_STAT_STEP)] :=
    State.regsBut_set (State.regsBut_of_regs (State.regsBut_refl s _) rfl) _ (by simp)
  have h3 : ∃ r, (({ s with calst := { s.calst with runDone := false } } : State).set pCAL R.CAL_STAT_STEP step) =
      { s with regs := r, calst := { s.calst with runDone := false } } := ⟨_, rfl⟩
  have h4 : ∀ l, (({ s with calst := { s.calst with runDone := false } } : State).set pCAL R.CAL_STAT_STEP step).enabled (pLANE l) =
      s.enabled (pLANE l) := fun l => by
    rw [State.enabled, State.flag, h2 _ _ (by simp [(pLANE_other l).1])]
    rfl
  generalize (({ s with calst := { s.calst with runDone := false } } : State).set pCAL R.CAL_STAT_STEP step) = u at h1 h2 h3 h4 ht
  obtain ⟨r, h3⟩ := h3
  have hk : u.calst = { s.calst with runDone := false } := by rw [h3]
  rw [hk] at ht
  by_cases h : s.calst.kind = 4
  · rw [if_pos h, State.lanesAsk_eq] at ht
    obtain ⟨-, -, k3, ln, ab, k4⟩ := State.askLanes_spec _ (List.nodup_range.filter fun l => u.enabled (pLANE l)) u
    rw [ht] at k3 k4
    have hreg : t.regs = u.regs := by rw [k4]
    refine ⟨(State.get_congr hreg _ _).trans h1, State.regsBut_of_regs h2 hreg, fun _ l hl hen => ?_, fun h' => absurd h h', r, ln, ab, by rw [k4, h3]⟩
    have := k3 l (List.mem_filter.mpr ⟨List.mem_range.mpr hl, (h4 l).trans hen⟩)
    unfold State.asked at this ⊢
    rw [show u.laneAt l = s.laneAt l by rw [h3]; rfl] at this
    exact this
  · rw [if_neg h] at ht
    subst ht
    exact ⟨h1, h2, fun h' => absurd h' h, fun _ => ⟨hk, by rw [h3]⟩, r, s.lane, s.calst.abandoned, h3⟩

/-! ### The commands of CAL_CMD -/

theorem not_lane_cal : ∀ i, blkOf pCAL ≠ some (.lane, i) := fun i => by
  rw [blkOf_cal]
  exact fun h => by cases h
section
variable {s : State}
theorem exec_calCmdGo {kind : BitVec 3} (h : s.accepts pCAL 0x40 (2 ^ 31 + kind.toNat)) :
    exec (.calCmdGo kind) s = .next (s.calGo kind.toNat) := by
  obtain ⟨h8, h9, h31, hk⟩ := (by decide : ∀ k : BitVec 3, bit (2 ^ 31 + k.toNat) 8 = false ∧ bit (2 ^ 31 + k.toNat) 9 = false ∧
    bit (2 ^ 31 + k.toNat) 31 = true ∧ field (2 ^ 31 + k.toNat) 0 3 = k.toNat) kind
  refine congrArg Host.Outcome.next ((State.writeWith_accepts _ h (Or.inl not_lane_cal)).trans ?_)
  unfold calCmdAct
  rw [h8, h9, h31, hk]
  rfl
theorem exec_calCmdAbort (h : s.accepts pCAL 0x40 0x200) :
    exec .calCmdAbort s = .next (if s.calst.running then s.calEnd 3 else s) :=
  congrArg Host.Outcome.next (State.writeWith_accepts _ h (Or.inl not_lane_cal))
theorem exec_calCmdCont (h : s.accepts pCAL 0x40 0x100) :
    exec .calCmdCont s = .next (if (s.calst.running && s.get pCAL R.CAL_STAT_STEP == 3) = true then
      ({ s with calst := { s.calst with flat := true } } : State).runBegin 1 else s) :=
  congrArg Host.Outcome.next (State.writeWith_accepts _ h (Or.inl not_lane_cal))
/-- A run that starts, by its kind. -/
def State.goCal (s : State) (kind : Nat) : State :=
  let z := if kind = 4 then List.replicate 128 0 else []
  (({ s with calst := { kind := kind, running := true, r1 := z, r2 := z } }).set pCAL R.CAL_STAT_KIND kind).set pCAL R.CAL_STAT_RESULT 0
/-- COLREF's capture begins with both loop tiers stopped (R293). -/
def State.captureBegun (s : State) : State :=
  let t := ({ s with chant := { s.chant with capturing := true, cycleDue := false, bars := 0 } }).tiersClear
  { t with chant := { t.chant with cap := {} } }
theorem State.calGo_eq (s : State) (kind : Nat) : s.calGo kind =
    if s.calst.running || !s.enabled pCAL || !s.calNeeds kind then s.calReject 5
    else (if kind = 3 then (s.goCal kind).captureBegun else s.goCal kind).runBegin 1 := rfl
theorem State.goCal_spec (s : State) {kind : Nat} (hk : kind < 8) {u : State} (hu : s.goCal kind = u) :
    u.get pCAL R.CAL_STAT_RESULT = 0 ∧ u.get pCAL R.CAL_STAT_KIND = kind ∧
    s.regsBut u [(pCAL, R.CAL_STAT_STEP), (pCAL, R.CAL_STAT_RESULT), (pCAL, R.CAL_STAT_KIND)] ∧ u.calst.running = true ∧ u.calst.kind = kind ∧
    ∃ r c, u = { s with regs := r, calst := c } := by
  subst hu
  unfold State.goCal
  refine ⟨?_, ?_, State.regsBut_set (State.regsBut_set (State.regsBut_of_regs (State.regsBut_refl s _) rfl) _ (by simp)) _ (by simp), rfl, rfl,
    _, _, rfl⟩
  · rw [State.get_set_self]
    rfl
  · rw [State.get_set_field _ _ _ (by decide), State.get_set_self]
    exact Nat.mod_eq_of_lt hk
end

/-! ### The record of an accepted run (R290) -/

/-- The 32 bytes before a record's values. -/
def calHead (s : State) (kind num time : Nat) : List Byte :=
  [0x10, BitVec.ofNat 8 kind, 0, 0] ++ leBytes 4 (calLen kind) ++ leBytes 4 num ++ zeros 4 ++ leBytes 8 time ++
    [BitVec.ofNat 8 s.straps.unitId.toNat] ++ zeros 7
theorem calHead_length (s : State) (kind num time : Nat) : (calHead s kind num time).length = 32 := by
  simp [calHead]
theorem calRecord_eq (s : State) (kind num time : Nat) (body : List Byte) : ∃ crc, calRecord s kind num time body =
    calHead s kind num time ++ (body ++ leBytes 4 crc) := ⟨_, List.append_assoc _ _ _⟩
section
variable (s : State) (kind num time : Nat) (body : List Byte)
theorem byteAt_calRecord : byteAt (calRecord s kind num time body) 1 = kind % 256 := by
  obtain ⟨crc, h⟩ := calRecord_eq s kind num time body
  rw [h]
  rfl
theorem calNum_calRecord (h : num < 2 ^ 32) : calNum (calRecord s kind num time body) = num := by
  obtain ⟨crc, hr⟩ := calRecord_eq s kind num time body
  have hsplit : calHead s kind num time ++ (body ++ leBytes 4 crc) = ([0x10, BitVec.ofNat 8 kind, 0, 0] ++ leBytes 4 (calLen kind)) ++
      (leBytes 4 num ++ (zeros 4 ++ leBytes 8 time ++ [BitVec.ofNat 8 s.straps.unitId.toNat] ++ zeros 7 ++ (body ++ leBytes 4 crc))) := by
    simp only [calHead, List.append_assoc]
  rw [calNum, hr, hsplit]
  exact leAt_leBytes (by rw [List.length_append, leBytes_length]; rfl) h
theorem calBytes_calRecord : calBytes (calRecord s kind num time body) = body := by
  obtain ⟨crc, hr⟩ := calRecord_eq s kind num time body
  rw [calBytes, hr, List.drop_left' (calHead_length s kind num time), List.take_left']
  simp only [List.length_append, calHead_length, leBytes_length]
  omega
end

/-! ### Acceptance and rejection (R292, R294) -/

/-- What a judgement of the runs leaves of CAL's counts. -/
def keepsCounts (s t : State) : Prop := t.get pCAL R.CAL_DISAG = s.get pCAL R.CAL_DISAG ∧ t.get pCAL R.CAL_COMPARED = s.get pCAL R.CAL_COMPARED
/-- A record accepted, before it is installed. -/
def State.calShown (s : State) (kind : Nat) (r : List Byte) : State :=
  (((s.set64 pCAL R.CAL_TIME_LO R.CAL_TIME_HI s.cNs).set pCAL R.CAL_LAST kind).calOutput kind r).set pCAL R.CAL_STAT_RESULT 1
/-- The record that acceptance makes. -/
def State.acceptedRecord (s : State) (kind : Nat) (body : List Byte) : List Byte :=
  calRecord s kind ((s.get pCAL (calCnt kind) + 1) % 2 ^ 32) s.cNs body
theorem State.calAccept_eq (s : State) (kind : Nat) (body : List Byte) : s.calAccept kind body =
    (let u := s.calShown kind (s.acceptedRecord kind body)
     if kind ≤ 2 ∧ u.enabled (pCAM (kind - 1)) = true then
       ({ u with calst := { u.calst with waitInstall := some (s.acceptedRecord kind body) } }).set pCAL R.CAL_STAT_STEP 4
     else ((u.calInstall (s.acceptedRecord kind body)).calSend (s.acceptedRecord kind body)).calEnd 1) := rfl
/-- The registers that `calShown` writes. -/
def shownFields : List (Nat × Fld) :=
  [(pCAL, R.CAL_TIME_LO), (pCAL, R.CAL_TIME_HI), (pCAL, R.CAL_LAST), (pCAL, R.CAL_STAT_BANK), (pCAL, R.PG_IRQ_RAW), (pCAL, R.CAL_STAT_RESULT)]
theorem State.calShown_spec {s : State} (hf : s.fenced pCAL = false) {kind : Nat} (hk : kind < 8) (r : List Byte) {u : State}
    (hu : s.calShown kind r = u) : u.get pCAL R.CAL_STAT_RESULT = 1 ∧ u.get pCAL R.CAL_LAST = kind ∧ bit (u.get pCAL R.PG_IRQ_RAW) 5 = true ∧
    s.regsBut u shownFields ∧ ∃ rg q w, u = { s with regs := rg, queues := q, host := { s.host with waiting := w } } := by
  unfold State.calShown at hu
  have h64 : s.regsBut (s.set64 pCAL R.CAL_TIME_LO R.CAL_TIME_HI s.cNs) shownFields :=
    State.regsBut_set (p := pCAL) (f := R.CAL_TIME_HI) (State.regsBut_set (p := pCAL) (f := R.CAL_TIME_LO) (State.regsBut_refl s _) _
      (by simp [shownFields])) _ (by simp [shownFields])
  have hb : s.regsBut ((s.set64 pCAL R.CAL_TIME_LO R.CAL_TIME_HI s.cNs).set pCAL R.CAL_LAST kind) shownFields :=
    State.regsBut_set h64 _ (by simp [shownFields])
  have hl : ((s.set64 pCAL R.CAL_TIME_LO R.CAL_TIME_HI s.cNs).set pCAL R.CAL_LAST kind).get pCAL R.CAL_LAST = kind := by
    rw [State.get_set_self]
    exact Nat.mod_eq_of_lt hk
  obtain ⟨r0, hw⟩ := (s.wrote_set64 pCAL R.CAL_TIME_LO R.CAL_TIME_HI s.cNs).trans (State.wrote_set _ pCAL R.CAL_LAST kind)
  generalize (s.set64 pCAL R.CAL_TIME_LO R.CAL_TIME_HI s.cNs).set pCAL R.CAL_LAST kind = v at hb hl hw hu
  have hvf : v.fenced pCAL = false := by
    rw [State.fenced, State.flag, hb.field (by decide)]
    exact hf
  obtain ⟨o1, o2, o3, rg, q, w, o4⟩ := State.calOutput_spec hvf kind r rfl
  generalize v.calOutput kind r = x at o1 o2 o3 o4 hu
  subst hu
  refine ⟨State.get_set_self _ _ _ _, ?_, ?_, State.regsBut_set (State.regsBut_trans hb (State.regsBut_mono o3 ?_)) _ (by simp [shownFields]), ?_⟩
  · rw [State.get_set_field _ _ _ (by decide), o3.field (by decide), hl]
  · rw [State.get_set_field _ _ _ (by decide)]
    exact o1
  · simp [shownFields]
  · rw [o4, hw]
    exact ⟨_, _, _, rfl⟩
theorem State.calAccept_spec {s : State} (hf : s.fenced pCAL = false) {kind : Nat} (hk1 : 1 ≤ kind) (hk : kind < 6) (body : List Byte) {t : State}
    (ht : s.calAccept kind body = t) : t.get pCAL R.CAL_STAT_RESULT = 1 ∧ bit (t.get pCAL R.PG_IRQ_RAW) 5 = true ∧ keepsCounts s t ∧
    ((t.calst.running = false ∧ bit (t.get pCAL R.PG_IRQ_RAW) 4 = true) ∨ (t.calst.waitInstall ≠ none ∧ t.get pCAL R.CAL_STAT_STEP = 4)) := by
  rw [State.calAccept_eq] at ht
  have hbt : byteAt (s.acceptedRecord kind body) 1 = kind := by
    rw [State.acceptedRecord, byteAt_calRecord]
    exact Nat.mod_eq_of_lt (by omega)
  generalize s.acceptedRecord kind body = r at hbt ht
  obtain ⟨u1, u2, u3, u4, -⟩ := State.calShown_spec hf (by omega : kind < 8) r rfl
  generalize s.calShown kind r = u at u1 u2 u3 u4 ht
  have huf : u.fenced pCAL = false := by
    rw [State.fenced, State.flag, u4.field (by decide)]
    exact hf
  have hkc : keepsCounts s u := ⟨u4.field (by decide) _, u4.field (by decide) _⟩
  dsimp only at ht
  split at ht
  · subst ht
    refine ⟨?_, ?_, ⟨?_, ?_⟩, Or.inr ⟨Option.some_ne_none _, State.get_set_self _ _ _ _⟩⟩
    · rw [State.get_set_field _ _ _ (by decide)]
      exact u1
    · rw [State.get_set_field _ _ _ (by decide)]
      exact u3
    · rw [State.get_set_field _ _ _ (by decide)]
      exact hkc.1
    · rw [State.get_set_field _ _ _ (by decide)]
      exact hkc.2
  · obtain ⟨-, -, -, -, v5, -⟩ := State.calInstall_spec huf r rfl rfl
    have hids := calCnt_ids kind hk hk1
    rw [hbt] at v5
    obtain ⟨p, o, hs⟩ := (u.calInstall r).calSend_shape r
    have hreg : ((u.calInstall r).calSend r).regs = (u.calInstall r).regs := by rw [hs]
    have hg : ∀ f ∈ [R.CAL_STAT_STEP, R.CAL_STAT_RESULT, R.CAL_STAT_BANK, R.CAL_REJ_CNT, R.CAL_DISAG, R.CAL_COMPARED, R.CAL_LAST, R.PG_IRQ_RAW,
        R.PG_FENCE_FENCED], ((u.calInstall r).calSend r).get pCAL f = u.get pCAL f := fun f hf =>
      (State.get_congr hreg _ _).trans (v5 (hids f hf))
    clear hs hreg v5
    generalize (u.calInstall r).calSend r = v at hg ht
    have hvf : v.fenced pCAL = false := by
      rw [State.fenced, State.flag, hg _ (by simp)]
      exact huf
    obtain ⟨-, e2, e3, e4, e5, rg, ch, ln, w, e6, -⟩ := State.calEnd_spec hvf (by decide) ht
    refine ⟨e2, e4 5 (by decide) ?_, ⟨?_, ?_⟩, Or.inl ⟨by rw [e6], e3⟩⟩
    · rw [hg _ (by simp)]
      exact u3
    · rw [e5.field (by decide), hg _ (by simp)]
      exact hkc.1
    · rw [e5.field (by decide), hg _ (by simp)]
      exact hkc.2

/-! ### The comparison of two runs (R292) -/

/-- The two runs judged: d of n entries compared lie apart. -/
def State.judged (s : State) (d n kind : Nat) (body : List Byte) (fresh : Nat) (far : Bool) : State :=
  if far then ((s.calCounts d n).incSat pCAL R.CAL_REJ_CNT).calEnd 2 else ({ s.calCounts d n with fresh := fresh } : State).calAccept kind body
/-- More entries lie apart than FRAC allows, or any for LANE and FIRE (R292). -/
def State.tooFar (s : State) (d n : Nat) : Bool :=
  if 1 ≤ s.calst.kind ∧ s.calst.kind ≤ 3 then decide (s.get pCAL R.CAL_FRAC * n < 65536 * d) else decide (d ≠ 0)
theorem State.calCounts_spec (s : State) {d n : Nat} (hd : d < 2 ^ 32) (hn : n < 2 ^ 32) :
    (s.calCounts d n).get pCAL R.CAL_DISAG = d ∧ (s.calCounts d n).get pCAL R.CAL_COMPARED = n ∧
    s.regsBut (s.calCounts d n) [(pCAL, R.CAL_DISAG), (pCAL, R.CAL_COMPARED)] ∧ s.wrote (s.calCounts d n) := by
  unfold State.calCounts
  refine ⟨?_, ?_, State.regsBut_set (State.regsBut_set (State.regsBut_refl s _) _ (by simp)) _ (by simp),
    (s.wrote_set _ _ _).trans (State.wrote_set _ _ _ _)⟩
  · rw [State.get_set_field _ _ _ (by decide), State.get_set_self]
    exact Nat.mod_eq_of_lt hd
  · rw [State.get_set_self]
    exact Nat.mod_eq_of_lt hn
theorem State.judged_far {s : State} (hf : s.fenced pCAL = false) {d n : Nat} (hd : d < 2 ^ 32) (hn : n < 2 ^ 32) (kind : Nat) (body : List Byte)
    (fresh : Nat) {t : State} (ht : s.judged d n kind body fresh true = t) : t.get pCAL R.CAL_DISAG = d ∧ t.get pCAL R.CAL_COMPARED = n ∧
    t.calst.running = false ∧ t.get pCAL R.CAL_STAT_RESULT = 2 ∧ t.get pCAL R.CAL_STAT_STEP = 0 ∧
    t.get pCAL R.CAL_REJ_CNT = min (s.get pCAL R.CAL_REJ_CNT + 1) (2 ^ R.CAL_REJ_CNT.w - 1) ∧ bit (t.get pCAL R.PG_IRQ_RAW) 4 = true ∧
    (∀ q f, q ≠ pCAL → t.get q f = s.get q f) ∧ s.sameMemory t := by
  unfold State.judged at ht
  rw [if_pos rfl] at ht
  obtain ⟨h1, h2, h3, r, h4⟩ := s.calCounts_spec hd hn
  generalize s.calCounts d n = u at h1 h2 h3 h4 ht
  have hb := State.regsBut_incSat (State.regsBut_refl u [(pCAL, R.CAL_REJ_CNT)]) (p := pCAL) (f := R.CAL_REJ_CNT) (by simp)
  have hr : (u.incSat pCAL R.CAL_REJ_CNT).get pCAL R.CAL_REJ_CNT = min (u.get pCAL R.CAL_REJ_CNT + 1) (2 ^ R.CAL_REJ_CNT.w - 1) :=
    State.get_incSat_self _ _ _
  obtain ⟨r', hw⟩ := u.wrote_addSat pCAL R.CAL_REJ_CNT 1
  change u.incSat pCAL R.CAL_REJ_CNT = _ at hw
  generalize u.incSat pCAL R.CAL_REJ_CNT = v at hb hr hw ht
  have hvf : v.fenced pCAL = false := by
    rw [State.fenced, State.flag, hb.field (by decide), h3.field (by decide)]
    exact hf
  obtain ⟨e1, e2, e3, -, e5, rg, ch, ln, w, e6, -⟩ := State.calEnd_spec hvf (by decide) ht
  refine ⟨?_, ?_, by rw [e6], e2, e1, ?_, e3, fun q f hq => ?_, by rw [e6, hw, h4]; exact ⟨rfl, rfl, rfl, rfl, rfl⟩⟩
  · rw [e5.field (by decide), hb.field (by decide), h1]
  · rw [e5.field (by decide), hb.field (by decide), h2]
  · rw [e5.field (by decide), hr, h3.field (by decide)]
  · rw [e5 _ _ (by simp [hq]), hb _ _ (by simp [hq]), h3 _ _ (by simp [hq])]
theorem State.judged_near {s : State} (hf : s.fenced pCAL = false) {d n : Nat} (hd : d < 2 ^ 32) (hn : n < 2 ^ 32) {kind : Nat}
    (hk1 : 1 ≤ kind) (hk : kind < 6) (body : List Byte) (fresh : Nat) {t : State} (ht : s.judged d n kind body fresh false = t) :
    t.get pCAL R.CAL_DISAG = d ∧ t.get pCAL R.CAL_COMPARED = n ∧ t.get pCAL R.CAL_STAT_RESULT = 1 ∧ bit (t.get pCAL R.PG_IRQ_RAW) 5 = true ∧
    ((t.calst.running = false ∧ bit (t.get pCAL R.PG_IRQ_RAW) 4 = true) ∨ (t.calst.waitInstall ≠ none ∧ t.get pCAL R.CAL_STAT_STEP = 4)) := by
  unfold State.judged at ht
  rw [if_neg (by decide)] at ht
  obtain ⟨h1, h2, h3, -⟩ := s.calCounts_spec hd hn
  have hreg : ({ s.calCounts d n with fresh := fresh } : State).regs = (s.calCounts d n).regs := rfl
  have hg := State.get_congr hreg
  generalize ({ s.calCounts d n with fresh := fresh } : State) = u at hg ht
  have huf : u.fenced pCAL = false := by
    rw [State.fenced, State.flag, hg, h3.field (by decide)]
    exact hf
  obtain ⟨a1, a2, ⟨a3, a4⟩, a5⟩ := State.calAccept_spec huf hk1 hk body ht
  exact ⟨by rw [a3, hg, h1], by rw [a4, hg, h2], a1, a2, a5⟩
theorem length_zip_le {α β : Type} (l : List α) (m : List β) : (List.zip l m).length ≤ l.length := by
  rw [List.length_zip]
  exact Nat.min_le_left _ _
theorem length_filter_zipIdx_le {α β : Type} (p : (α × β) × Nat → Bool) (l : List α) (m : List β) :
    ((List.zip l m).zipIdx.filter p).length ≤ l.length :=
  (List.length_filter_le _ _).trans (by rw [List.length_zipIdx]; exact length_zip_le l m)
section
variable (s : State)
theorem State.flatCompare_form (kind : Nat) : ∃ d n body fresh, d ≤ s.calst.r1.length ∧ n ≤ s.calst.r1.length ∧ s.flatCompare kind =
    if (s.calCounts d n).get pCAL R.CAL_FRAC * n < 65536 * d then ((s.calCounts d n).incSat pCAL R.CAL_REJ_CNT).calEnd 2
    else ({ s.calCounts d n with fresh := fresh } : State).calAccept kind body := by
  have he : (List.zip (List.zip s.calst.d1 s.calst.d2) (List.zip s.calst.r1 s.calst.r2)).length ≤ s.calst.r1.length := by
    rw [List.length_zip]
    exact (Nat.min_le_right _ _).trans (length_zip_le _ _)
  refine ⟨_, _, _, _, ?_, ?_, rfl⟩
  · exact (List.length_filter_le _ _).trans ((List.length_filter_le _ _).trans he)
  · exact (List.length_filter_le _ _).trans he
theorem State.colCompare_form : ∃ d n body fresh, d ≤ s.calst.r1.length ∧ n ≤ s.calst.r1.length ∧ s.colCompare =
    if (s.calCounts d n).get pCAL R.CAL_FRAC * n < 65536 * d then ((s.calCounts d n).incSat pCAL R.CAL_REJ_CNT).calEnd 2
    else ({ s.calCounts d n with fresh := fresh } : State).calAccept 3 body := by
  refine ⟨_, _, _, _, ?_, ?_, rfl⟩
  · exact (List.length_filter_le _ _).trans (length_filter_zipIdx_le _ _ _)
  · exact length_filter_zipIdx_le _ _ _
theorem State.laneCompare_form : ∃ d n body fresh, d ≤ s.calst.r1.length ∧ n ≤ s.calst.r1.length ∧ s.laneCompare =
    if d ≠ 0 then ((s.calCounts d n).incSat pCAL R.CAL_REJ_CNT).calEnd 2
    else ({ s.calCounts d n with fresh := fresh } : State).calAccept 4 body := by
  refine ⟨_, _, _, _, ?_, ?_, rfl⟩
  · exact (List.length_filter_le _ _).trans (length_filter_zipIdx_le _ _ _)
  · exact length_filter_zipIdx_le _ _ _
/-- The entries of two FIRE runs that do not agree (R294). -/
def State.fireDisag : Nat :=
  ((List.zip s.calst.r1 s.calst.r2).zipIdx.filter fun x =>
    !(if x.2 = 0 then x.1.1 == x.1.2 else absAgree (s.get pCAL R.CAL_TOL_ABS) x.1.1 x.1.2)).length
/-- The values of an accepted FIRE run (R290). -/
def State.fireBody : List Byte :=
  leBytes 2 (s.calst.r2.getD 0 0) ++ zeros 2 ++ (s.calst.r2.drop 1).flatMap (leBytes 2 ·)
theorem State.fireCompare_form : s.fireCompare =
    if s.fireDisag ≠ 0 then ((s.calCounts s.fireDisag (List.zip s.calst.r1 s.calst.r2).zipIdx.length).incSat pCAL R.CAL_REJ_CNT).calEnd 2
    else ({ s.calCounts s.fireDisag (List.zip s.calst.r1 s.calst.r2).zipIdx.length with fresh := s.fresh } : State).calAccept 5 s.fireBody := rfl
end
/-- A comparison judges no more entries than the first run holds. -/
theorem State.calCompare_judged (s : State) : ∃ d n kind body fresh, d ≤ s.calst.r1.length ∧ n ≤ s.calst.r1.length ∧ 1 ≤ kind ∧ kind < 6 ∧
    s.calCompare = s.judged d n kind body fresh (s.tooFar d n) := by
  have hfrac : ∀ d n, (s.calCounts d n).get pCAL R.CAL_FRAC = s.get pCAL R.CAL_FRAC := fun d n => by
    unfold State.calCounts
    rw [State.get_set_field _ _ _ (by decide), State.get_set_field _ _ _ (by decide)]
  have hrate : ∀ kind d n body fresh (far : Bool), far = decide ((s.calCounts d n).get pCAL R.CAL_FRAC * n < 65536 * d) →
      (if (s.calCounts d n).get pCAL R.CAL_FRAC * n < 65536 * d then ((s.calCounts d n).incSat pCAL R.CAL_REJ_CNT).calEnd 2
        else ({ s.calCounts d n with fresh := fresh } : State).calAccept kind body) = s.judged d n kind body fresh far := by
    rintro kind d n body fresh far rfl
    unfold State.judged
    split <;> simp_all
  have hany : ∀ kind d n body fresh (far : Bool), far = decide (d ≠ 0) →
      (if d ≠ 0 then ((s.calCounts d n).incSat pCAL R.CAL_REJ_CNT).calEnd 2
        else ({ s.calCounts d n with fresh := fresh } : State).calAccept kind body) = s.judged d n kind body fresh far := by
    rintro kind d n body fresh far rfl
    unfold State.judged
    split <;> simp_all
  have hfire : s.calst.kind ∉ [1, 2, 3, 4] → ∃ d n kind body fresh, d ≤ s.calst.r1.length ∧ n ≤ s.calst.r1.length ∧ 1 ≤ kind ∧ kind < 6 ∧
      s.fireCompare = s.judged d n kind body fresh (s.tooFar d n) := fun hk => by
    simp only [List.mem_cons, List.not_mem_nil, or_false, not_or] at hk
    refine ⟨s.fireDisag, (List.zip s.calst.r1 s.calst.r2).zipIdx.length, 5, s.fireBody, s.fresh, length_filter_zipIdx_le _ _ _, ?_, by decide,
      by decide, s.fireCompare_form.trans (hany _ _ _ _ _ _ ?_)⟩
    · rw [List.length_zipIdx]
      exact length_zip_le _ _
    · unfold State.tooFar
      rw [if_neg (by omega)]
  unfold State.calCompare
  split
  · next hk =>
    obtain ⟨d, n, body, fresh, h1, h2, h3⟩ := s.flatCompare_form 1
    refine ⟨d, n, 1, body, fresh, h1, h2, by decide, by decide, h3.trans (hrate _ _ _ _ _ _ ?_)⟩
    rw [State.tooFar, if_pos (by omega), hfrac]
  · next hk =>
    obtain ⟨d, n, body, fresh, h1, h2, h3⟩ := s.flatCompare_form 2
    refine ⟨d, n, 2, body, fresh, h1, h2, by decide, by decide, h3.trans (hrate _ _ _ _ _ _ ?_)⟩
    rw [State.tooFar, if_pos (by omega), hfrac]
  · next hk =>
    obtain ⟨d, n, body, fresh, h1, h2, h3⟩ := s.colCompare_form
    refine ⟨d, n, 3, body, fresh, h1, h2, by decide, by decide, h3.trans (hrate _ _ _ _ _ _ ?_)⟩
    rw [State.tooFar, if_pos (by omega), hfrac]
  · next hk =>
    obtain ⟨d, n, body, fresh, h1, h2, h3⟩ := s.laneCompare_form
    refine ⟨d, n, 4, body, fresh, h1, h2, by decide, by decide, h3.trans (hany _ _ _ _ _ _ ?_)⟩
    rw [State.tooFar, if_neg (by omega)]
  · next h1 h2 h3 h4 => exact hfire (by simpa using ⟨h1, h2, h3, h4⟩)
/-- Two FIRE runs agree where the base is equal and every delay lies within the tolerance (R294). -/
theorem State.fireDisag_eq_zero {s : State} (h1 : s.calst.r1.length = 129) (h2 : s.calst.r2.length = 129) : s.fireDisag = 0 ↔
    s.calst.r1.getD 0 0 = s.calst.r2.getD 0 0 ∧ ∀ i < 129, 1 ≤ i →
      absAgree (s.get pCAL R.CAL_TOL_ABS) (s.calst.r1.getD i 0) (s.calst.r2.getD i 0) = true := by
  have hlen : (List.zip s.calst.r1 s.calst.r2).length = 129 := by rw [List.length_zip, h1, h2]; rfl
  have hget : ∀ i (hi : i < 129), (List.zip s.calst.r1 s.calst.r2)[i]'(hlen ▸ hi) = (s.calst.r1.getD i 0, s.calst.r2.getD i 0) := fun i hi => by
    rw [List.getElem_zip, List.getD_eq_getElem _ _ (h1 ▸ hi), List.getD_eq_getElem _ _ (h2 ▸ hi)]
  unfold State.fireDisag
  rw [List.length_eq_zero_iff, List.filter_eq_nil_iff]
  constructor
  · intro h
    have hall : ∀ i (hi : i < 129), ((List.zip s.calst.r1 s.calst.r2)[i]'(hlen ▸ hi), i) ∈ (List.zip s.calst.r1 s.calst.r2).zipIdx := fun i hi =>
      List.mem_zipIdx_iff_getElem?.mpr (List.getElem?_eq_getElem _)
    refine ⟨?_, fun i hi hpos => ?_⟩
    · have := h _ (hall 0 (by decide))
      rw [hget 0 (by decide)] at this
      simpa using this
    · have := h _ (hall i hi)
      rw [hget i hi] at this
      simpa [show i ≠ 0 by omega] using this
  · rintro ⟨h0, hrest⟩ ⟨x, i⟩ hx
    rw [List.mem_zipIdx_iff_getElem?] at hx
    obtain ⟨hi, he⟩ := List.getElem?_eq_some_iff.mp hx
    dsimp only at hi he ⊢
    rw [hlen] at hi
    rw [hget i hi] at he
    subst he
    by_cases hz : i = 0
    · subst hz
      simp only [if_true, beq_iff_eq, Bool.not_eq_true', Bool.not_eq_false, h0]
    · rw [if_neg hz, hrest i hi (by omega)]
      decide
/-- An accepted FIRE record and what it shows (R294, R295). -/
theorem State.calAccept_fire {s : State} (hf : s.fenced pCAL = false) {v : Nat} {rest : List Byte} {t : State}
    (ht : s.calAccept 5 (leBytes 2 v ++ rest) = t) : t.calst.running = false ∧ s.sameMemory t ∧ t.get pCAL R.CAL_STAT_RESULT = 1 ∧
    keepsCounts s t ∧ t.get pCAL R.CAL_LAST = 5 ∧ t.get pCAL (calCnt 5) = (s.get pCAL (calCnt 5) + 1) % 2 ^ 32 ∧
    (s.fenced pHEADC = false → s.resetting pHEADC = false → t.get pHEADC R.HEADC_FIRE = v % 2 ^ R.HEADC_FIRE.w) := by
  have hspec := State.calAccept_spec hf (by decide) (by decide) _ ht
  rw [State.calAccept_eq] at ht
  have hbt : byteAt (s.acceptedRecord 5 (leBytes 2 v ++ rest)) 1 = 5 := byteAt_calRecord _ _ _ _ _
  have hnum : calNum (s.acceptedRecord 5 (leBytes 2 v ++ rest)) = (s.get pCAL (calCnt 5) + 1) % 2 ^ 32 :=
    calNum_calRecord _ _ _ _ _ (Nat.mod_lt _ (by decide))
  have hval : leAt (calBytes (s.acceptedRecord 5 (leBytes 2 v ++ rest))) 0 2 = v % 65536 := by
    rw [State.acceptedRecord, calBytes_calRecord, leAt, List.drop_zero, List.take_left' (leBytes_length 2 v), leNat_leBytes]
    norm_num only
  generalize s.acceptedRecord 5 (leBytes 2 v ++ rest) = r at hbt hnum hval ht
  obtain ⟨u1, u2, u3, u4, rg, q, w, u5⟩ := State.calShown_spec hf (by decide : 5 < 8) r rfl
  generalize s.calShown 5 r = u at u1 u2 u3 u4 u5 ht
  have huf : u.fenced pCAL = false := by
    rw [State.fenced, State.flag, u4.field (by decide)]
    exact hf
  dsimp only at ht
  rw [if_neg (by omega)] at ht
  obtain ⟨-, -, -, v4, v5, -⟩ := State.calInstall_spec huf r rfl rfl
  have hfire := State.calInstall_fire huf hbt
  have hhold := State.calInstall_fire_hold huf hbt
  have hids := calCnt_ids 5 (by decide) (by decide)
  rw [hbt] at v4 v5
  obtain ⟨p, o, hs⟩ := (u.calInstall r).calSend_shape r
  have hreg : ((u.calInstall r).calSend r).regs = (u.calInstall r).regs := by rw [hs]
  have hg := State.get_congr hreg
  have hh : ((u.calInstall r).calSend r).hold = u.hold := by
    rw [hs]
    exact hhold
  clear hs hreg hhold
  rw [← hg] at v4 hfire
  simp only [← hg] at v5
  generalize (u.calInstall r).calSend r = x at v4 v5 hh hfire ht
  have hxf : x.fenced pCAL = false := by
    rw [State.fenced, State.flag, v5 (hids _ (by simp))]
    exact huf
  obtain ⟨-, -, -, -, e5, -⟩ := State.calEnd_spec hxf (by decide : 1 < 16) ht
  have hth : t.hold = u.hold := by
    rw [← ht, State.calEnd_hold, hh]
  have hsm : s.sameMemory t := sameMemory_of_hold (by rw [hth, u5]; rfl)
  refine ⟨?_, hsm, hspec.1, hspec.2.2.1, ?_, ?_, fun h1 h2 => ?_⟩
  · obtain ⟨-, -, -, -, -, rg', ch, ln, w', e6, -⟩ := State.calEnd_spec hxf (by decide : 1 < 16) ht
    rw [e6]
  · rw [e5.field (by decide), v5 (hids _ (by simp)), u2]
  · rw [e5.field (by decide), v4, hnum]
  · rw [e5 _ _ (by simp [show pHEADC ≠ pCAL by decide]), hfire ?_ ?_, hval]
    · exact Nat.mod_mod_of_dvd _ (by decide)
    · rw [State.fenced, State.flag, u4 _ _ (by simp [shownFields, show pHEADC ≠ pCAL by decide])]
      exact h1
    · have : u.resetting = s.resetting := State.resetting_congr (by rw [u5]) (by rw [u5])
        (u4 _ _ (by simp [shownFields, show pTHERM ≠ pCAL by decide]))
      rw [this]
      exact h2

/-! ### The end of a run -/

theorem exec_calRunEnd_idle {s : State} (h : s.working pCAL = false ∨ s.calst.running = false ∨ s.calst.waitInstall ≠ none ∨ s.runReady = false ∨
    (s.get pCAL R.CAL_STAT_STEP ≠ 1 ∧ s.get pCAL R.CAL_STAT_STEP ≠ 2)) : exec .calRunEnd s = .next s := by
  change Host.Outcome.next _ = _
  by_cases h0 : (!s.working pCAL || !s.calst.running || s.calst.waitInstall.isSome || !s.runReady) = true
  · rw [if_pos h0]
  · rw [if_neg h0]
    simp only [Bool.or_eq_true, Bool.not_eq_true', not_or, Bool.not_eq_false, Bool.not_eq_true, Option.isSome_eq_false_iff,
      Option.isNone_iff_eq_none] at h0
    obtain ⟨⟨⟨h1, h2⟩, h3⟩, h4⟩ := h0
    obtain ⟨h5, h6⟩ := (((h.resolve_left (by simp [h1])).resolve_left (by simp [h2])).resolve_left (by simp [h3])).resolve_left (by simp [h4])
    rw [if_neg h5, if_neg h6]
section
variable {s : State} (h1 : s.working pCAL = true) (h2 : s.calst.running = true) (h3 : s.calst.waitInstall = none) (h4 : s.runReady = true)
include h1 h2 h3 h4
theorem exec_calRunEnd_one (hs : s.get pCAL R.CAL_STAT_STEP = 1) : exec .calRunEnd s = .next (s.runBegin 2) := by
  change Host.Outcome.next _ = _
  rw [if_neg (by simp [h1, h2, h3, h4]), if_pos hs]
theorem exec_calRunEnd_two (hs : s.get pCAL R.CAL_STAT_STEP = 2) : exec .calRunEnd s = .next
    (if s.calst.kind ≤ 2 ∧ s.calst.flat = false then (s.runBegin 3).cause pCAL 3 else s.calCompare) := by
  change Host.Outcome.next _ = _
  rw [if_neg (by simp [h1, h2, h3, h4]), if_neg (by omega), if_pos hs]
end
theorem State.captureBegun_spec (s : State) : ∃ ch, s.captureBegun = { s with chant := ch } ∧ ch.capturing = true ∧ ch.zone.open_ = false ∧
    ch.col.open_ = false ∧ ch.bars = 0 := ⟨_, rfl, rfl, rfl, rfl, rfl⟩
/-- A calibration that GO starts (R291). -/
theorem State.calGo_started (s : State) (kind : BitVec 3) {t : State}
    (ht : (if kind.toNat = 3 then (s.goCal kind.toNat).captureBegun else s.goCal kind.toNat).runBegin 1 = t) :
    t.calst.running = true ∧ t.calst.kind = kind.toNat ∧ t.calst.runDone = false ∧ t.get pCAL R.CAL_STAT_STEP = 1 ∧
    t.get pCAL R.CAL_STAT_RESULT = 0 ∧ t.get pCAL R.CAL_STAT_KIND = kind.toNat ∧
    (kind = 3 → t.chant.capturing = true ∧ t.chant.zone.open_ = false ∧ t.chant.col.open_ = false ∧ t.chant.bars = 0) ∧
    (kind = 4 → ∀ l < 128, s.enabled (pLANE l) = true → s.asked t l) ∧
    s.regsBut t [(pCAL, R.CAL_STAT_STEP), (pCAL, R.CAL_STAT_RESULT), (pCAL, R.CAL_STAT_KIND)] ∧
    ({ t with regs := s.regs, calst := s.calst, chant := s.chant, lane := s.lane } : State) = s := by
  obtain ⟨g1, g2, g3, g4, g5, r, c, g6⟩ := s.goCal_spec kind.isLt rfl
  generalize s.goCal kind.toNat = v at g1 g2 g3 g4 g5 g6 ht
  obtain ⟨u, hu⟩ : ∃ u, (if kind.toNat = 3 then v.captureBegun else v) = u := ⟨_, rfl⟩
  rw [hu] at ht
  have hch : ∃ ch, u = { v with chant := ch } ∧ (kind = 3 → ch.capturing = true ∧ ch.zone.open_ = false ∧ ch.col.open_ = false ∧ ch.bars = 0) := by
    by_cases h3 : kind.toNat = 3
    · rw [if_pos h3] at hu
      obtain ⟨ch, h1, h2⟩ := v.captureBegun_spec
      exact ⟨ch, hu.symm.trans h1, fun _ => h2⟩
    · rw [if_neg h3] at hu
      exact ⟨v.chant, hu.symm, fun hk => absurd (by rw [hk]; rfl) h3⟩
  clear hu
  obtain ⟨ch, hu, hch⟩ := hch
  have hreg : u.regs = v.regs := by rw [hu]
  have hg := State.get_congr hreg
  have hcal : u.calst = v.calst := by rw [hu]
  have hlane : u.lane = s.lane := by rw [hu, g6]
  have g3' := State.regsBut_of_regs g3 hreg
  obtain ⟨b1, b2, b3, -, r2, ln, ab, b5⟩ := u.runBegin_spec (by decide : 1 < 16) ht
  have hkind : u.calst.kind = kind.toNat := by rw [hcal, g5]
  refine ⟨?_, ?_, ?_, b1, ?_, ?_, fun hk => ?_, fun hk l hl hen' => ?_, State.regsBut_trans g3' (State.regsBut_mono b2 (by simp)), ?_⟩
  · rw [b5, hcal]
    exact g4
  · rw [b5]
    exact hkind
  · rw [b5]
  · rw [b2.field (by decide), hg, g1]
  · rw [b2.field (by decide), hg, g2]
  · rw [b5, hu]
    exact hch hk
  · have h4 := b3 (by rw [hkind, hk]; rfl) l hl ?_
    · unfold State.asked at h4 ⊢
      rw [show u.laneAt l = s.laneAt l by rw [State.laneAt, hlane]; rfl] at h4
      exact h4
    · rw [State.enabled, State.flag, g3' _ _ (by simp [(pLANE_other l).1])]
      exact hen'
  · rw [b5, hu, g6]
theorem State.sameMemory_of_same {s u t : State} (h : s.sameMemory u) (k : u.sameMemory t) : s.sameMemory t := by
  obtain ⟨h1, h2, h3, h4, h5⟩ := h
  obtain ⟨k1, k2, k3, k4, k5⟩ := k
  exact ⟨k1.trans h1, k2.trans h2, k3.trans h3, k4.trans h4, k5.trans h5⟩
/-- The comparison of two whole FIRE runs (R294). -/
theorem State.fireCompare_spec {s : State} (hf : s.fenced pCAL = false) (hl1 : s.calst.r1.length = 129) (hl2 : s.calst.r2.length = 129)
    {same : Prop} (hsame : same ↔ s.calst.r1.getD 0 0 = s.calst.r2.getD 0 0 ∧ ∀ i < 129, 1 ≤ i →
      absAgree (s.get pCAL R.CAL_TOL_ABS) (s.calst.r1.getD i 0) (s.calst.r2.getD i 0) = true) {t : State} (ht : s.fireCompare = t) :
    t.calst.running = false ∧ t.get pCAL R.CAL_COMPARED = 129 ∧ s.sameMemory t ∧
    (same → t.get pCAL R.CAL_STAT_RESULT = 1 ∧ t.get pCAL R.CAL_DISAG = 0 ∧ t.get pCAL R.CAL_LAST = 5 ∧
      t.get pCAL (calCnt 5) = (s.get pCAL (calCnt 5) + 1) % 2 ^ 32 ∧
      (s.fenced pHEADC = false → s.resetting pHEADC = false → t.get pHEADC R.HEADC_FIRE = s.calst.r2.getD 0 0 % 2 ^ R.HEADC_FIRE.w)) ∧
    (¬ same → t.get pCAL R.CAL_STAT_RESULT = 2) := by
  have hzip : (List.zip s.calst.r1 s.calst.r2).zipIdx.length = 129 := by
    rw [List.length_zipIdx, List.length_zip, hl1, hl2]
    rfl
  have hdis := State.fireDisag_eq_zero hl1 hl2
  rw [← hsame] at hdis
  have hdle : s.fireDisag < 2 ^ 32 := lt_of_le_of_lt ((length_filter_zipIdx_le _ _ _).trans hl1.le) (by decide)
  rw [State.fireCompare_form, hzip] at ht
  by_cases hd0 : s.fireDisag = 0
  · rw [if_neg (not_not.mpr hd0)] at ht
    obtain ⟨c1, c2, c3, rg, c4⟩ := s.calCounts_spec hdle (by decide : 129 < 2 ^ 32)
    have hreg : ({ s.calCounts s.fireDisag 129 with fresh := s.fresh } : State).regs = (s.calCounts s.fireDisag 129).regs := rfl
    have hsh : ({ s.calCounts s.fireDisag 129 with fresh := s.fresh } : State) = { s with regs := rg } := by rw [c4]
    have hg := State.get_congr hreg
    generalize ({ s.calCounts s.fireDisag 129 with fresh := s.fresh } : State) = u at hreg hsh hg ht
    have huf : u.fenced pCAL = false := by
      rw [State.fenced, State.flag, hg, c3.field (by decide)]
      exact hf
    have hbody : s.fireBody = leBytes 2 (s.calst.r2.getD 0 0) ++ (zeros 2 ++ (s.calst.r2.drop 1).flatMap (leBytes 2 ·)) := List.append_assoc _ _ _
    rw [hbody] at ht
    obtain ⟨a1, a2, a3, ⟨a4, a5⟩, a6, a7, a8⟩ := State.calAccept_fire huf ht
    have hmem : s.sameMemory u := by rw [hsh]; exact ⟨rfl, rfl, rfl, rfl, rfl⟩
    have hres : u.resetting = s.resetting := State.resetting_congr (by rw [hsh]) (by rw [hsh])
      ((hg _ _).trans (c3 _ _ (by simp [show pTHERM ≠ pCAL by decide])))
    clear hsh ht hbody
    refine ⟨a1, ?_, State.sameMemory_of_same hmem a2, fun _ => ⟨a3, ?_, a6, ?_, fun hh hr => a8 ?_ ?_⟩, fun hns => absurd (hdis.mp hd0) hns⟩
    · rw [a5, hg, c2]
    · rw [a4, hg, c1, hd0]
    · rw [a7, hg, c3.field (by decide)]
    · rw [State.fenced, State.flag, hg, c3 _ _ (by simp [show pHEADC ≠ pCAL by decide])]
      exact hh
    · rw [hres]
      exact hr
  · rw [if_pos hd0] at ht
    have hj : s.judged s.fireDisag 129 5 [] 0 true = t := by
      rw [State.judged, if_pos rfl]
      exact ht
    obtain ⟨-, j2, j3, j4, -, -, -, -, j9⟩ := State.judged_far hf hdle (by decide : 129 < 2 ^ 32) 5 [] 0 hj
    exact ⟨j3, j2, j9, fun hs => absurd (hdis.mpr hs) hd0, fun _ => j4⟩
/-- Settles O52: a run that starts by `runBegin_spec`, its comparison by `calCompare_judged`, FIRE's by `calAccept_fire`. -/
theorem calibrationRuns : Obligations.CalibrationRuns := by
  unfold Obligations.CalibrationRuns
  intro s
  have hfen : ∀ {v}, s.accepts pCAL 0x40 v → s.fenced pCAL = false := fun h => State.fenced_of_unblocked (State.accepts_unblocked h (by decide))
  refine ⟨fun kind h => ⟨fun hrun hen hneeds => ?_, fun hno => ?_⟩, fun h => ⟨fun hrun => ?_, fun hrun => ?_⟩, fun h => ⟨fun hno => ?_, fun hrun hstep => ?_⟩,
    exec_calRunEnd_idle, fun h1 h2 h3 h4 => ⟨fun hs => ?_, fun hs hk hfl => ?_, fun hs hk hlen => ?_, fun hs hk hl1 hl2 same hsame => ?_⟩⟩
  · rw [exec_calCmdGo h, State.calGo_eq, if_neg (by simp [hrun, hen, hneeds])]
    exact ⟨_, rfl, State.calGo_started s kind rfl⟩
  · rw [exec_calCmdGo h, State.calGo_eq, if_pos (by rcases hno with h | h | h <;> simp [h])]
    obtain ⟨r1, r2, r3, rg, r4⟩ := State.calReject_spec (hfen h) (result := 5) (by decide) rfl
    exact ⟨_, rfl, r1, r2, r3, by rw [r4]⟩
  · rw [exec_calCmdAbort h, hrun]
    rfl
  · rw [exec_calCmdAbort h, hrun, if_pos rfl]
    obtain ⟨e1, e2, e3, -, e5, rg, ch, ln, w, e6, e7⟩ := State.calEnd_spec (hfen h) (by decide : 3 < 16) rfl
    exact ⟨_, rfl, by rw [e6], e1, e2, e3, by rw [e6]; exact e7, e5, by rw [e6]⟩
  · rw [exec_calCmdCont h, if_neg]
    rcases hno with hno | hno <;> simp [hno]
  · rw [exec_calCmdCont h, if_pos (by simp [hrun, hstep])]
    have hreg : ({ s with calst := { s.calst with flat := true } } : State).regs = s.regs := rfl
    have hsh : ∃ c, ({ s with calst := { s.calst with flat := true } } : State) = { s with calst := c } ∧ c.flat = true := ⟨_, rfl, rfl⟩
    generalize ({ s with calst := { s.calst with flat := true } } : State) = u at hreg hsh
    obtain ⟨c, hsh, hfl⟩ := hsh
    obtain ⟨b1, b2, -, -, r2, ln, ab, b5⟩ := u.runBegin_spec (by decide : 1 < 16) rfl
    refine ⟨_, rfl, ?_, by rw [b5], b1, State.regsBut_trans (State.regsBut_of_regs (State.regsBut_refl _ _) hreg) b2, by rw [b5, hsh]⟩
    rw [b5, hsh]
    exact hfl
  · rw [exec_calRunEnd_one h1 h2 h3 h4 hs]
    obtain ⟨b1, b2, -, -, r2, ln, ab, b5⟩ := s.runBegin_spec (by decide : 2 < 16) rfl
    exact ⟨_, rfl, b1, by rw [b5], b2, by rw [b5]⟩
  · rw [exec_calRunEnd_two h1 h2 h3 h4 hs, if_pos ⟨hk, hfl⟩]
    obtain ⟨b1, b2, -, b4, r2, ln, ab, b5⟩ := s.runBegin_spec (by decide : 3 < 16) rfl
    obtain ⟨b4, b6⟩ := b4 (by omega)
    generalize s.runBegin 3 = u at b1 b2 b4 b5 b6
    obtain ⟨r', w, hrep⟩ := u.reports_cause pCAL 3
    have huf : u.frozen pCAL = false :=
      (State.frozen_congr (b2.field (by decide) _)).trans (State.frozen_of_unfenced (State.unfenced_of_working h1))
    refine ⟨_, rfl, ?_, State.bit_cause _ (by decide) huf, by rw [hrep]; exact b4, State.regsBut_cause (State.regsBut_mono b2 (by simp)) _ (by simp), ?_⟩
    · rw [State.get_cause_field _ _ _ (by decide), b1]
    · rw [hrep, b5]
      exact ⟨rfl, rfl, rfl, rfl, rfl⟩
  · rw [exec_calRunEnd_two h1 h2 h3 h4 hs, if_neg (fun h => by rw [hk h.1] at h; exact absurd h.2 (by decide))]
    have hf := State.unfenced_of_working h1
    obtain ⟨d, n, k, body, fresh, hd, hn, hk1, hk6, hcmp⟩ := s.calCompare_judged
    have hlt : ∀ x, x ≤ s.calst.r1.length → x < 2 ^ 32 := fun x hx =>
      (hx.trans hlen).trans_lt (Nat.pow_lt_pow_right (by decide) (by decide))
    rw [hcmp]
    have hfar : ∀ {t : State} {far : Prop}, t.get pCAL R.CAL_DISAG = d → t.get pCAL R.CAL_COMPARED = n →
        (far ↔ if 1 ≤ s.calst.kind ∧ s.calst.kind ≤ 3 then s.get pCAL R.CAL_FRAC * t.get pCAL R.CAL_COMPARED < 65536 * t.get pCAL R.CAL_DISAG
          else t.get pCAL R.CAL_DISAG ≠ 0) → (far ↔ s.tooFar d n = true) := fun h1 h2 h => by
      rw [h, h1, h2, State.tooFar]
      split <;> simp
    cases hjudge : s.tooFar d n with
    | true =>
      obtain ⟨j1, j2, j3⟩ := State.judged_far hf (hlt d hd) (hlt n hn) k body fresh rfl
      refine ⟨_, rfl, fun far hiff => ⟨fun _ => j3, fun hnf => absurd ((hfar j1 j2 hiff).mpr hjudge) hnf⟩⟩
    | false =>
      obtain ⟨j1, j2, j3⟩ := State.judged_near hf (hlt d hd) (hlt n hn) hk1 hk6 body fresh rfl
      refine ⟨_, rfl, fun far hiff => ⟨fun hf => ?_, fun _ => j3⟩⟩
      have := (hfar j1 j2 hiff).mp hf
      rw [hjudge] at this
      exact absurd this (by decide)
  · rw [exec_calRunEnd_two h1 h2 h3 h4 hs, if_neg (by omega)]
    have hcmp : s.calCompare = s.fireCompare := by
      unfold State.calCompare
      rw [hk]
      rfl
    rw [hcmp]
    exact ⟨_, rfl, State.fireCompare_spec (State.unfenced_of_working h1) hl1 hl2 hsame rfl⟩
end Sys2Proof.Machine
end

section
/-! ### What accesses to DRAM move (R301 to R317) -/
open Sys2Proof Sys2Proof.Machine
namespace Sys2Proof.Machine

/-- A page of DRAM: DRAMC or one of its channels. -/
def dramPage (p : Nat) : Prop := p = pDRAMC ∨ ∃ c < 4, p = pDRAM c
theorem dramPage_ctrl : dramPage pDRAMC := Or.inl rfl
theorem dramPage_chan {c : Nat} (hc : c < 4) : dramPage (pDRAM c) := Or.inr ⟨c, hc, rfl⟩
theorem State.dramPlace_chan (s : State) (a : Nat) : (s.dramPlace a).1 < 4 := Nat.mod_lt _ (by decide)
/-- An access to DRAM: it moves DRAM's own state, the causes that wait, and DRAM's memories in the bursts at `l` alone; every logical rank
stays where it was. -/
structure State.dramStep (s t : State) (l : List Nat) : Prop where
  rank : ∀ c r o, t.physRank c r o = s.physRank c r o
  page : ∀ p, ¬ dramPage p → ∀ f, t.get p f = s.get p f
  only : s.dramOnly t l
  shape : ∃ r d w m k, t = { s with regs := r, dram := d, host := { s.host with waiting := w }, dramMem := m, dramChk := k }
theorem State.dramOnly_refl (s : State) (l : List Nat) : s.dramOnly s l := ⟨fun _ _ => rfl, fun _ _ => rfl⟩
theorem State.dramStep_refl (s : State) (l : List Nat) : s.dramStep s l :=
  ⟨fun _ _ _ => rfl, fun _ _ _ => rfl, s.dramOnly_refl l, _, _, _, _, _, rfl⟩
section
variable {s t : State} {l : List Nat} (h : s.dramStep t l)
include h
theorem State.dramStep.geo : t.geo = s.geo := by
  obtain ⟨r, d, w, m, k, ht⟩ := h.shape
  rw [ht]
  rfl
theorem State.dramStep.place (a : Nat) : t.dramPlace a = s.dramPlace a := by
  unfold State.dramPlace
  rw [h.geo]
theorem State.dramStep.burstKey (a : Nat) : t.burstKey a = s.burstKey a := by
  unfold State.burstKey
  rw [h.place, h.rank]
theorem State.dramStep.burstChk (a : Nat) : t.burstChk a = s.burstChk a := by
  unfold State.burstChk
  rw [h.place, h.rank]
theorem State.dramStep.stores : s.dramStores t l := by
  obtain ⟨r, d, w, m, k, ht⟩ := h.shape
  refine ⟨?_, ?_, ?_, h.only⟩ <;> rw [ht]
end
theorem State.dramStep.mono {s t : State} {l m : List Nat} (h : s.dramStep t l) (hlm : l ⊆ m) : s.dramStep t m :=
  ⟨h.rank, h.page, ⟨fun k hk => h.only.1 k fun x hx => hk x (hlm hx), fun k hk => h.only.2 k fun x hx => hk x (hlm hx)⟩, h.shape⟩
theorem State.dramStep.trans {s t u : State} {l : List Nat} (h : s.dramStep t l) (k : t.dramStep u l) : s.dramStep u l := by
  refine ⟨fun c r o => (k.rank c r o).trans (h.rank c r o), fun p hp f => (k.page p hp f).trans (h.page p hp f), ⟨fun a ha => ?_, fun a ha => ?_⟩, ?_⟩
  · exact (k.only.1 a fun x hx => by rw [h.burstKey]; exact ha x hx).trans (h.only.1 a ha)
  · exact (k.only.2 a fun x hx => by rw [h.burstChk]; exact ha x hx).trans (h.only.2 a ha)
  · obtain ⟨r, d, w, m, k', ht⟩ := h.shape
    obtain ⟨r', d', w', m', k'', hu⟩ := k.shape
    exact ⟨r', d', w', m', k'', by rw [hu, ht]⟩
theorem State.dramStep_foldl {α : Type} {l : List Nat} (g : State → α → State) (xs : List α) (s : State)
    (h : ∀ t, ∀ x ∈ xs, State.dramStep t (g t x) l) : s.dramStep (xs.foldl g s) l := by
  induction xs generalizing s with
  | nil => exact s.dramStep_refl l
  | cons x xs ih => exact (h s x (by simp)).trans (ih _ fun t y hy => h t y (List.mem_cons_of_mem _ hy))

/-! ### Registers and the state of a channel -/

/-- Where a logical rank lies is told by the map, the migration and its pointer. -/
theorem State.physRank_congr {s t : State} (hmig : ∀ c, (t.dramAt c).mig = (s.dramAt c).mig)
    (hget : ∀ f ∈ [R.DRAM_RMAP_LR, R.DRAM_MIG_PTR_LO, R.DRAM_MIG_PTR_HI], ∀ p, t.get p f = s.get p f) (c r o : Nat) :
    t.physRank c r o = s.physRank c r o := by
  unfold State.physRank State.rmap State.migPtr State.get64
  rw [hmig, hget _ (by simp), hget _ (by simp), hget _ (by simp)]
theorem State.dramStep_of_regs {s t : State} (l : List Nat)
    (hget : ∀ f ∈ [R.DRAM_RMAP_LR, R.DRAM_MIG_PTR_LO, R.DRAM_MIG_PTR_HI], ∀ p, t.get p f = s.get p f)
    (hpage : ∀ p, ¬ dramPage p → ∀ f, t.get p f = s.get p f) (hsh : ∃ r w, t = { s with regs := r, host := { s.host with waiting := w } }) :
    s.dramStep t l := by
  obtain ⟨r, w, hsh⟩ := hsh
  refine ⟨State.physRank_congr (fun c => by rw [hsh]; rfl) hget, hpage, ?_, r, s.dram, w, s.dramMem, s.dramChk, hsh⟩
  rw [hsh]
  exact ⟨fun _ _ => rfl, fun _ _ => rfl⟩
section
variable (s : State) {p : Nat} (hp : dramPage p) (l : List Nat)
include hp
theorem State.dramStep_set {f : Fld} (v : Nat) (hf : f.id ∉ [R.DRAM_RMAP_LR.id, R.DRAM_MIG_PTR_LO.id, R.DRAM_MIG_PTR_HI.id]) :
    s.dramStep (s.set p f v) l := by
  refine State.dramStep_of_regs l (fun g hg q => State.get_set_ne _ _ (Or.inr ?_)) (fun q hq g => State.get_set_ne _ _ (Or.inl ?_))
    ⟨_, s.host.waiting, rfl⟩
  · simp only [List.mem_cons, List.not_mem_nil, or_false, not_or] at hf hg
    rcases hg with rfl | rfl | rfl
    · exact hf.1 ∘ Eq.symm
    · exact hf.2.1 ∘ Eq.symm
    · exact hf.2.2 ∘ Eq.symm
  · rintro rfl
    exact hq hp
theorem State.dramStep_cause (i : Nat) : s.dramStep (s.cause p i) l := by
  refine State.dramStep_of_regs l (fun g hg q => State.get_cause_ne _ _ (Or.inr ?_)) (fun q hq g => State.get_cause_ne _ _ (Or.inl ?_))
    (s.reports_cause p i)
  · revert g
    decide
  · rintro rfl
    exact hq hp
theorem State.dramStep_err (code src lo hi dir : Nat) : s.dramStep (s.err p code src lo hi dir) l := by
  refine State.dramStep_of_regs l (fun g hg q => s.get_err_ne p code src lo hi dir (Or.inr ?_))
    (fun q hq g => s.get_err_ne p code src lo hi dir (Or.inl ?_)) (s.reports_err p code src lo hi dir)
  · revert g
    decide
  · rintro rfl
    exact hq hp
end
theorem State.dramStep_updDram (s : State) (c : Nat) (g : DramSt → DramSt) (hg : (g (s.dramAt c)).mig = (s.dramAt c).mig) (l : List Nat) :
    s.dramStep (s.updDram c g) l := by
  refine ⟨State.physRank_congr (fun n => ?_) (fun _ _ _ => rfl), fun _ _ _ => rfl, ⟨fun _ _ => rfl, fun _ _ => rfl⟩, _, _, _, _, _, rfl⟩
  by_cases hn : n = c
  · subst hn
    exact (congrArg DramSt.mig (NMap.getD_put_self _ _ _ _)).trans hg
  · exact congrArg DramSt.mig (NMap.getD_put_other _ _ _ hn)
section
variable (s : State) (l : List Nat)
theorem State.dramStep_dramErr {c : Nat} (hc : c < 4) (code src a : Nat) : s.dramStep (s.dramErr c code src a) l :=
  (s.dramStep_err dramPage_ctrl l _ _ _ _ _).trans (State.dramStep_err _ (dramPage_chan hc) l _ _ _ _ _)
theorem State.dramStep_activate (c p bank row req : Nat) : s.dramStep (s.activate c p bank row req) l := by
  unfold State.activate
  dsimp only
  split
  · exact s.dramStep_refl l
  · have h0 : s.dramStep ((s.updDram c fun d => { d with
          openRow := d.openRow.put (16 * p + bank) row
          trackers := d.trackers.put (16 * p + bank) (trackRow ((s.dramAt c).trackers.getD (16 * p + bank) []) row).1 }).updDram c fun d =>
        { d with throttled := d.throttled.map fun x =>
          if x.1 = 16 * p + bank ∧ x.2.1 = row ∧ x.2.2.1 = req then (16 * p + bank, row, req, s.tick) else x }) l :=
      (s.dramStep_updDram c _ rfl l).trans (State.dramStep_updDram _ c _ rfl l)
    split
    · exact h0
    · have hlast : ∀ (u : State) dec, u.dramStep ((((((u.setFlag pDRAMC R.DRAMC_RH_LAST_TRR dec).set pDRAMC R.DRAMC_RH_LAST_BANK bank).set pDRAMC
          R.DRAMC_RH_LAST_RANK p).set pDRAMC R.DRAMC_RH_LAST_CH c).set pDRAMC R.DRAMC_RH_LAST_REQ req).set pDRAMC
          R.DRAMC_RH_ROW row |>.cause pDRAMC 4) l := fun u dec =>
        ((((((u.dramStep_set dramPage_ctrl l _ (by decide)).trans (State.dramStep_set _ dramPage_ctrl l _ (by decide))).trans
          (State.dramStep_set _ dramPage_ctrl l _ (by decide))).trans (State.dramStep_set _ dramPage_ctrl l _ (by decide))).trans
          (State.dramStep_set _ dramPage_ctrl l _ (by decide))).trans (State.dramStep_set _ dramPage_ctrl l _ (by decide))).trans
          (State.dramStep_cause _ dramPage_ctrl l _)
      split
      · exact ((h0.trans (hlast _ _)).trans (State.dramStep_updDram _ c _ rfl l)).trans (State.dramStep_set _ dramPage_ctrl l _ (by decide))
      · exact ((h0.trans (hlast _ _)).trans (State.dramStep_updDram _ c _ rfl l)).trans (State.dramStep_set _ dramPage_ctrl l _ (by decide))
theorem State.dramStep_issue (c : Nat) (x : RetryCmd) : s.dramStep (s.issue c x) l :=
  (s.dramStep_activate l _ _ _ _ _).trans (State.dramStep_updDram _ c _ rfl l)
end

/-! ### The retirement of a rank (R317) -/

theorem State.dramStep_degrade (s : State) {c : Nat} (hc : c < 4) (p : Nat) (l : List Nat) : s.dramStep (s.degrade c p) l :=
  s.dramStep_set (dramPage_chan hc) l _ (by decide)
theorem State.dramErr_dram (s : State) (c code src a : Nat) : (s.dramErr c code src a).dram = s.dram := by
  obtain ⟨r, w, h⟩ : s.reports (s.dramErr c code src a) := (s.reports_err _ _ _ _ _ _).trans (State.reports_err _ _ _ _ _ _ _)
  rw [h]
theorem State.get_dramErr (s : State) (c code src a : Nat) {f : Fld} (h : f.id ∉ [R.PG_ERR_CNT.id, R.PG_ERR_ADDR_LO.id, R.PG_ERR_ADDR_HI.id,
    R.PG_ERR_INFO_SRC.id, R.PG_ERR_INFO_DIR.id, R.PG_ERR_INFO_CODE.id, R.PG_IRQ_RAW.id]) (p : Nat) :
    (s.dramErr c code src a).get p f = s.get p f := by
  simp only [List.mem_cons, List.not_mem_nil, or_false, not_or] at h
  exact (State.get_err_ne _ _ _ _ _ _ _ (Or.inr h)).trans (State.get_err_ne _ _ _ _ _ _ _ (Or.inr h))
theorem State.dramAt_dramErr (s : State) (c code src a n : Nat) : (s.dramErr c code src a).dramAt n = s.dramAt n := by
  rw [State.dramAt, s.dramErr_dram]
  rfl
theorem State.rmap_dramErr (s : State) (c code src a n r : Nat) : (s.dramErr c code src a).rmap n r = s.rmap n r := by
  rw [State.rmap, s.get_dramErr c code src a (by decide)]
  rfl
/-- A rank as it is retired, its error counted. -/
def State.retireMark (s : State) (c lr f p : Nat) : State :=
  (((s.updDram c fun d => { d with mig := some (lr, f, p) }).setRankState c f 2).set64 (pDRAM c) R.DRAM_MIG_PTR_LO R.DRAM_MIG_PTR_HI 0).cause
    (pDRAM c) 4
theorem State.retire_eq (s : State) (c lr f a src : Nat) :
    s.retire c lr f a src = (s.dramErr c 0x92 src a).retireMark c lr f (s.get (pDRAM c) R.DRAM_RMAP_SPR) := rfl
theorem State.retireMark_spec (s : State) (c lr f p : Nat) {t : State} (ht : s.retireMark c lr f p = t) :
    t.dramAt c = { s.dramAt c with mig := some (lr, f, p) } ∧ (∀ n, n ≠ c → t.dramAt n = s.dramAt n) ∧ t.migPtr c = 0 ∧
    t.get (pDRAM c) R.DRAM_RSTAT = (andNot (s.get (pDRAM c) R.DRAM_RSTAT) (3 * 16 ^ f) + 2 * 16 ^ f) % 2 ^ 16 ∧
    (s.frozen (pDRAM c) = false → bit (t.get (pDRAM c) R.PG_IRQ_RAW) 4 = true) ∧
    s.regsBut t [(pDRAM c, R.DRAM_RSTAT), (pDRAM c, R.DRAM_MIG_PTR_LO), (pDRAM c, R.DRAM_MIG_PTR_HI), (pDRAM c, R.PG_IRQ_RAW)] ∧
    ∃ r d w, t = { s with regs := r, dram := d, host := { s.host with waiting := w } } := by
  unfold State.retireMark at ht
  have hm : (s.updDram c fun d => { d with mig := some (lr, f, p) }).dramAt c = { s.dramAt c with mig := some (lr, f, p) } :=
    NMap.getD_put_self _ _ _ _
  have ho : ∀ n, n ≠ c → (s.updDram c fun d => { d with mig := some (lr, f, p) }).dramAt n = s.dramAt n := fun n hn =>
    NMap.getD_put_other _ _ _ hn
  have hreg : (s.updDram c fun d => { d with mig := some (lr, f, p) }).regs = s.regs := rfl
  have hd : ∃ d, (s.updDram c fun d => { d with mig := some (lr, f, p) }) = { s with dram := d } := ⟨_, rfl⟩
  generalize (s.updDram c fun d => { d with mig := some (lr, f, p) }) = v at hm ho hreg hd ht
  have hb : v.regsBut ((v.setRankState c f 2).set64 (pDRAM c) R.DRAM_MIG_PTR_LO R.DRAM_MIG_PTR_HI 0)
      [(pDRAM c, R.DRAM_RSTAT), (pDRAM c, R.DRAM_MIG_PTR_LO), (pDRAM c, R.DRAM_MIG_PTR_HI), (pDRAM c, R.PG_IRQ_RAW)] :=
    State.regsBut_set (p := pDRAM c) (f := R.DRAM_MIG_PTR_HI) (State.regsBut_set (p := pDRAM c) (f := R.DRAM_MIG_PTR_LO)
      (State.regsBut_set (p := pDRAM c) (f := R.DRAM_RSTAT) (State.regsBut_refl v _) _ (by simp)) _ (by simp)) _ (by simp)
  have hz : ((v.setRankState c f 2).set64 (pDRAM c) R.DRAM_MIG_PTR_LO R.DRAM_MIG_PTR_HI 0).get (pDRAM c) R.DRAM_MIG_PTR_LO = 0 ∧
      ((v.setRankState c f 2).set64 (pDRAM c) R.DRAM_MIG_PTR_LO R.DRAM_MIG_PTR_HI 0).get (pDRAM c) R.DRAM_MIG_PTR_HI = 0 ∧
      ((v.setRankState c f 2).set64 (pDRAM c) R.DRAM_MIG_PTR_LO R.DRAM_MIG_PTR_HI 0).get (pDRAM c) R.DRAM_RSTAT =
        (andNot (v.get (pDRAM c) R.DRAM_RSTAT) (3 * 16 ^ f) + 2 * 16 ^ f) % 2 ^ 16 := by
    unfold State.set64 State.setRankState State.upd
    refine ⟨?_, State.get_set_self _ _ _ _, ?_⟩
    · rw [State.get_set_field _ _ _ (by decide), State.get_set_self]
      rfl
    · rw [State.get_set_field _ _ _ (by decide), State.get_set_field _ _ _ (by decide), State.get_set_self]
      rfl
  obtain ⟨r, hw⟩ : v.wrote ((v.setRankState c f 2).set64 (pDRAM c) R.DRAM_MIG_PTR_LO R.DRAM_MIG_PTR_HI 0) :=
    (v.wrote_set _ _ _).trans (State.wrote_set64 _ _ _ _ _)
  generalize (v.setRankState c f 2).set64 (pDRAM c) R.DRAM_MIG_PTR_LO R.DRAM_MIG_PTR_HI 0 = x at hb hz hw ht
  obtain ⟨z1, z2, z3⟩ := hz
  obtain ⟨d, hd⟩ := hd
  obtain ⟨r', w, hrep⟩ := x.reports_cause (pDRAM c) 4
  rw [State.get_congr hreg] at z3
  have hat : ∀ n, t.dramAt n = v.dramAt n := fun n => by
    rw [← ht, hrep, hw]
    rfl
  refine ⟨(hat c).trans hm, fun n hn => (hat n).trans (ho n hn), ?_, ?_, fun hf => ?_,
    ht ▸ State.regsBut_cause (State.regsBut_trans (State.regsBut_of_regs (State.regsBut_refl s _) hreg) hb) _ (by simp), r', d, w,
    by rw [← ht, hrep, hw, hd]⟩
  · unfold State.migPtr State.get64
    rw [← ht, State.get_cause_field _ _ _ (by decide), State.get_cause_field _ _ _ (by decide), z1, z2]
    rfl
  · rw [← ht, State.get_cause_field _ _ _ (by decide), z3]
  · rw [← ht]
    refine State.bit_cause _ (by decide) ((State.frozen_congr ?_).trans hf)
    rw [hb.field (by simp only [List.forall_mem_cons]; decide), State.get_congr hreg]
theorem pDRAM_inj {m n : Nat} (h : pDRAM m = pDRAM n) : m = n := by
  unfold pDRAM at h
  omega
/-- A retirement begins with nothing copied: every address still lies in the failing rank. -/
theorem State.dramStep_retireMark {s : State} {c lr f : Nat} (hc : c < 4) (hmig : (s.dramAt c).mig = none) (hf : f = s.rmap c lr) (p : Nat) (l : List Nat) :
    s.dramStep (s.retireMark c lr f p) l := by
  obtain ⟨h1, h2, h3, -, -, h6, r, d, w, h7⟩ := s.retireMark_spec c lr f p rfl
  generalize s.retireMark c lr f p = t at h1 h2 h3 h6 h7
  have hrmap : ∀ n r, t.rmap n r = s.rmap n r := fun n r => congrArg (field · (2 * r) 2)
    (h6.field (by simp only [List.forall_mem_cons]; decide) _)
  refine ⟨fun n r o => ?_, fun q hq g => h6 _ _ fun e he => Or.inl ?_, ?_, r, d, w, s.dramMem, s.dramChk, h7⟩
  · unfold State.physRank
    by_cases hn : n = c
    · subst hn
      rw [h1, hmig]
      dsimp only
      rw [h3, if_neg (Nat.not_lt_zero o), hrmap]
      split
      · next h => rw [hf, h]
      · rfl
    · have hptr : t.migPtr n = s.migPtr n := by
        have hne : ∀ f, t.get (pDRAM n) f = s.get (pDRAM n) f := fun f => h6 _ _ fun e he => Or.inl fun h => hn (pDRAM_inj ?_)
        · unfold State.migPtr State.get64
          rw [hne, hne]
        · simp only [List.mem_cons, List.not_mem_nil, or_false] at he
          rcases he with rfl | rfl | rfl | rfl <;> exact h
      rw [h2 n hn, hptr, hrmap]
  · rintro rfl
    simp only [List.mem_cons, List.not_mem_nil, or_false] at he
    rcases he with rfl | rfl | rfl | rfl <;> exact hq (dramPage_chan hc)
  · rw [h7]
    exact ⟨fun _ _ => rfl, fun _ _ => rfl⟩
theorem State.dramStep_retire {s : State} {c lr f : Nat} (hc : c < 4) (hmig : (s.dramAt c).mig = none) (hf : f = s.rmap c lr) (a src : Nat) (l : List Nat) :
    s.dramStep (s.retire c lr f a src) l := by
  rw [State.retire_eq]
  refine (s.dramStep_dramErr l hc _ _ _).trans (State.dramStep_retireMark hc ?_ ?_ _ l)
  · rw [s.dramAt_dramErr, hmig]
  · rw [s.rmap_dramErr, hf]
/-- A rank that fails while none migrates in its channel. -/
theorem State.dramStep_rankFailed {s : State} {c lr f : Nat} (hc : c < 4) (hf : (s.dramAt c).mig = none → f = s.rmap c lr) (a src : Nat) (l : List Nat) :
    s.dramStep (s.rankFailed c lr f a src) l := by
  unfold State.rankFailed
  split
  · split
    · next h =>
      simp only [State.canRetire, Bool.and_eq_true, Option.isNone_iff_eq_none] at h
      exact State.dramStep_retire hc h.2 (hf h.2) _ _ _
    · exact s.dramStep_degrade hc _ _
  · exact s.dramStep_refl l

/-! ### The read and the write of a burst -/

theorem State.dramStep_burstFound {s : State} {c lr p : Nat} (hc : c < 4) (hp : (s.dramAt c).mig = none → p = s.rmap c lr) (a src : Nat) (b : Burst)
    (l : List Nat) : s.dramStep (s.burstFound c lr p a src b).1 l := by
  have hinc : ∀ (u : State) (f : Fld), f.id ∉ [R.DRAM_RMAP_LR.id, R.DRAM_MIG_PTR_LO.id, R.DRAM_MIG_PTR_HI.id] →
      u.dramStep (u.incSat (pDRAM c) f) l := fun u f hf => u.dramStep_set (dramPage_chan hc) l _ hf
  unfold State.burstFound
  cases b with
  | clean d => exact s.dramStep_refl l
  | corrected d =>
    dsimp only
    have h0 := ((s.dramStep_dramErr l hc 0x10 src a).trans (hinc _ R.DRAM_CORR_CNT (by decide)))
    have h1 := h0.trans (State.dramStep_updDram _ c
      (fun d => { d with rep := ((((s.dramErr c 0x10 src a).incSat (pDRAM c) R.DRAM_CORR_CNT).dramAt c).rep.correct (a / 64)).1 }) rfl l)
    split
    · exact (((h1.trans (State.dramStep_dramErr _ l hc _ _ _)).trans (hinc _ _ (by decide))).trans
        (State.dramStep_set _ (dramPage_chan hc) l _ (by decide))).trans (State.dramStep_cause _ (dramPage_chan hc) l _)
    · exact h1
  | bad =>
    dsimp only
    have h0 := (s.dramStep_dramErr l hc 0x11 src a).trans (hinc _ R.DRAM_UNC_CNT (by decide))
    split
    · exact h0
    · refine h0.trans (State.dramStep_rankFailed hc (fun hm => ?_) _ _ _)
      have hat : ((s.dramErr c 0x11 src a).incSat (pDRAM c) R.DRAM_UNC_CNT).dramAt c = s.dramAt c := s.dramAt_dramErr c 0x11 src a c
      rw [hat] at hm
      rw [hp hm]
      refine congrArg (field · (2 * lr) 2) (Eq.symm ?_)
      rw [State.get_incSat_field _ _ (by decide), s.get_dramErr c 0x11 src a (by decide)]
  | poison => exact (s.dramStep_dramErr l hc 0x11 8 a).trans (hinc _ _ (by decide))
/-- Without a migration an address lies in the rank of its map. -/
theorem State.physRank_free {s : State} {c : Nat} (h : (s.dramAt c).mig = none) (r o : Nat) : s.physRank c r o = s.rmap c r := by
  unfold State.physRank
  rw [h]
theorem State.dramStep_burstRead (s : State) (a src req : Nat) (l : List Nat) : s.dramStep (s.burstRead a src req).1 l := by
  unfold State.burstRead
  dsimp only
  refine (s.dramStep_issue l _ _).trans (State.dramStep_burstFound (s.dramPlace_chan a) (fun hm => ?_) _ _ _ l)
  rw [← State.physRank_free hm (s.dramPlace a).2.1 (s.dramPlace a).2.2]
  exact ((s.dramStep_issue l _ _).rank _ _ _).symm
theorem foldl_length {α : Type} (g : List α → α → List α) (n : Nat) (h : ∀ r x, r.length = n → (g r x).length = n) (l : List α) (r : List α)
    (hr : r.length = n) : (l.foldl g r).length = n :=
  List.foldlRecOn (motive := fun r => r.length = n) l g hr fun r hr x _ => h r x hr
theorem rsCheck_length (d : List Nat) : (rsCheck d).length = 8 := by
  refine foldl_length _ 8 (fun r x hr => ?_) d _ (by decide)
  dsimp only
  rw [List.length_zipWith, List.length_append, List.length_drop, hr, show rsGen.length = 8 by decide]
  rfl
theorem State.dramStep_store {s t : State} {a : Nat} (h : s.dramStep t [a]) {d : List Byte} (hd : d.length = 64) {k : List Nat}
    (hk : k.length = 8) : s.dramStep (t.storeBurst (s.dramPlace a).1
      (s.physRank (s.dramPlace a).1 (s.dramPlace a).2.1 (s.dramPlace a).2.2) (s.dramPlace a).2.2 d k) [a] := by
  refine h.trans ⟨fun _ _ _ => rfl, fun _ _ _ => rfl, ⟨fun j hj => ?_, fun j hj => ?_⟩, _, _, _, _, _, rfl⟩
  · have hj := hj a (by simp)
    rw [h.burstKey] at hj
    refine (Memory.get_puts _ _ _ _).trans (if_neg ?_)
    rw [hd]
    unfold State.burstKey at hj
    omega
  · have hj := hj a (by simp)
    rw [h.burstChk] at hj
    refine (Memory.get_puts _ _ _ _).trans (if_neg ?_)
    rw [List.length_map, hk]
    unfold State.burstChk at hj
    omega
theorem State.dramStep_burstWrite (s : State) (a : Nat) {d : List Byte} (hd : d.length = 64) (req : Nat) : s.dramStep (s.burstWrite a d req) [a] := by
  unfold State.burstWrite State.freeRep
  dsimp only
  refine State.dramStep.trans (State.dramStep_store (s.dramStep_issue [a] _ _) hd (rsCheck_length _)) (State.dramStep_updDram _ _ _ ?_ _)
  rfl
theorem State.dramStep_burstMerge (s : State) (a : Nat) {d : List (Option Byte)} (hd : d.length = 64) (req : Nat) :
    s.dramStep (s.burstMerge a d req) [a] := by
  unfold State.burstMerge
  split
  · exact s.dramStep_burstWrite a (by rw [List.length_map, hd]) req
  · split
    · exact s.dramStep_refl _
    · exact (s.dramStep_burstRead a 7 req [a]).trans (State.dramStep_burstWrite _ a (by rw [List.length_map, List.length_range]) req)
theorem State.dramStep_dramWriteOpt (s : State) (a : Nat) (d : List (Option Byte)) (req : Nat) :
    s.dramStep (s.dramWriteOpt a d req) (burstsOf a d.length) := by
  unfold State.dramWriteOpt
  refine State.dramStep_foldl _ _ s fun t x hx => ?_
  refine (State.dramStep_burstMerge t x.1 ?_ req).mono ?_
  · rw [List.length_append, List.length_replicate, List.length_take]
    omega
  · intro y hy
    rw [List.mem_singleton.mp hy]
    exact List.fst_mem_of_mem_zipIdx hx
theorem State.dramStep_dramRead (s : State) (a n src req : Nat) (l : List Nat) : s.dramStep (s.dramRead a n src req).1 l := by
  unfold State.dramRead
  refine List.foldlRecOn (motive := fun r : State × List Byte × Bool => s.dramStep r.1 l) _ _ (s.dramStep_refl l) fun r hr x _ => ?_
  exact hr.trans (State.dramStep_burstRead _ _ _ _ l)
end Sys2Proof.Machine
end

section
/-! ### Reads, programs and erases of the boot flash (O60) -/
open Sys2Proof Sys2Proof.Machine
namespace Sys2Proof.Machine

/-! ### The bytes that DRAM gives and takes -/

theorem State.rawData_length (s : State) (c p o : Nat) : (s.rawData c p o).length = 64 := by
  unfold State.rawData Memory.slice
  rw [List.length_map, List.length_zipIdx, Memory.take_length]
/-- A burst as it is found is 64 bytes long. -/
theorem State.lookBurst_length (s : State) (c p o : Nat) {d : List Byte} (h : s.lookBurst c p o = .clean d ∨ s.lookBurst c p o = .corrected d) :
    d.length = 64 := by
  have hraw := s.rawData_length c p o
  unfold State.lookBurst at h
  generalize s.rawData c p o = x at h hraw
  unfold classify at h
  dsimp only at h
  have hfix : ∀ y, (rsBytes y).length = 64 := fun y => by unfold rsBytes; rw [List.length_map, List.length_range]
  split at h
  · rcases h with h | h <;> cases h
  · split at h
    · rcases h with h | h <;> cases h
      exact hraw
    · split at h
      · rcases h with h | h <;> cases h
      · split at h
        · rcases h with h | h <;> cases h
        · split at h
          · rcases h with h | h <;> cases h
            exact hraw
          · rcases h with h | h <;> cases h
            exact hfix _
theorem State.burstRead_length (s : State) (a src req : Nat) : ((s.burstRead a src req).2.getD (zeros 64)).length = 64 := by
  have hlook : ∀ (u v : State) c lr p q o, ((u.burstFound c lr p a src (v.lookBurst c q o)).2.getD (zeros 64)).length = 64 :=
    fun u v c lr p q o => by
      have hl := @State.lookBurst_length v c q o
      generalize v.lookBurst c q o = b at hl
      unfold State.burstFound
      cases b with
      | clean d => exact hl (Or.inl rfl)
      | corrected d => exact hl (Or.inr rfl)
      | bad => exact zeros_length 64
      | poison => exact zeros_length 64
  exact hlook _ _ _ _ _ _ _
theorem dramRead_fold_length (src req : Nat) (l : List Nat) (r : State × List Byte × Bool) :
    (l.foldl (fun (r : State × List Byte × Bool) x =>
      let q := r.1.burstRead x src req
      (q.1, r.2.1 ++ q.2.getD (zeros 64), r.2.2 && q.2.isSome)) r).2.1.length = r.2.1.length + 64 * l.length := by
  induction l generalizing r with
  | nil => rfl
  | cons x l ih =>
    rw [List.foldl_cons, ih]
    dsimp only
    rw [List.length_append, State.burstRead_length, List.length_cons]
    omega
theorem burstsOf_length (a n : Nat) (hn : 0 < n) : (burstsOf a n).length = (a + n - 1) / 64 - a / 64 + 1 := by
  unfold burstsOf
  rw [if_neg (by omega), List.length_map, List.length_range]
theorem State.dramRead_length (s : State) (a n src req : Nat) : (s.dramRead a n src req).2.1.length = n := by
  unfold State.dramRead
  dsimp only
  rw [List.length_take, List.length_drop, dramRead_fold_length, List.length_nil, Nat.zero_add]
  by_cases hn : n = 0
  · subst hn
    exact Nat.zero_min _
  · rw [burstsOf_length a n (by omega), Nat.min_eq_left]
    omega
/-- A burst's key is a multiple of 64, wherever its rank lies. -/
theorem State.burstKey_aligned (s : State) {x : Nat} (hx : x % 64 = 0) : s.burstKey x % 64 = 0 := by
  have hca : (x / 1024 * 256 + x % 256) % 64 = 0 := by omega
  have hoff : (s.dramPlace x).2.2 % 64 = 0 := by
    change (x / 1024 * 256 + x % 256) % 2 ^ s.geo.rankLog2 % 64 = 0
    by_cases hk : 6 ≤ s.geo.rankLog2
    · rw [Nat.mod_mod_of_dvd _ (Nat.pow_dvd_pow 2 hk : 2 ^ 6 ∣ 2 ^ s.geo.rankLog2)]
      exact hca
    · have hdvd : 2 ^ s.geo.rankLog2 ∣ 64 := Nat.pow_dvd_pow (n := 6) 2 (by omega)
      rw [Nat.mod_eq_zero_of_dvd (hdvd.trans (Nat.dvd_of_mod_eq_zero hca))]
  exact Nat.mod_eq_zero_of_dvd (dvd_add (dvd_mul_of_dvd_right (Nat.pow_dvd_pow 2 (by decide : 6 ≤ 34)) _) (Nat.dvd_of_mod_eq_zero hoff))
theorem State.mem_burstWrite (s : State) (a : Nat) {d : List Byte} (hd : d.length = 64) (req : Nat) {j : Nat} (hj : j < 64) :
    Memory.get (s.burstWrite a d req).dramMem (s.burstKey a + j) = d[j]? := by
  obtain ⟨m, hm⟩ : ∃ m, (s.burstWrite a d req).dramMem = Memory.puts m (s.burstKey a) d := ⟨_, rfl⟩
  rw [hm, Memory.get_puts, hd, if_pos (by omega), Nat.add_sub_cancel_left]
/-- Whole bursts written one after another stand where their addresses lie, each in its own place. -/
theorem State.mem_writeBursts (req : Nat) (q : Nat → List Byte) (l : List (Nat × Nat)) (s : State)
    (hq : ∀ e ∈ l, (q e.2).length = 64) (hal : ∀ e ∈ l, e.1 % 64 = 0) (hnd : (l.map fun e => s.burstKey e.1).Nodup) :
    ∀ e ∈ l, ∀ j < 64, Memory.get (l.foldl (fun t x => t.burstWrite x.1 (q x.2) req) s).dramMem (s.burstKey e.1 + j) = (q e.2)[j]? := by
  induction l generalizing s with
  | nil => simp
  | cons x l ih =>
    intro e he j hj
    have hstep := s.dramStep_burstWrite x.1 (hq x (by simp)) req
    rw [List.map_cons, List.nodup_cons] at hnd
    obtain ⟨hx, hnd⟩ := hnd
    have hrest : (s.burstWrite x.1 (q x.2) req).dramStep (l.foldl (fun t x => t.burstWrite x.1 (q x.2) req) (s.burstWrite x.1 (q x.2) req))
        (l.map Prod.fst) :=
      State.dramStep_foldl _ _ _ fun t y hy => (t.dramStep_burstWrite y.1 (hq y (List.mem_cons_of_mem _ hy)) req).mono fun z hz => by
        rw [List.mem_singleton.mp hz]
        exact List.mem_map_of_mem hy
    rw [List.foldl_cons]
    rcases List.mem_cons.mp he with rfl | he
    · rw [hrest.only.1, s.mem_burstWrite _ (hq _ (by simp)) req hj]
      intro y hy
      obtain ⟨z, hz, rfl⟩ := List.mem_map.mp hy
      rw [hstep.burstKey]
      have h1 := s.burstKey_aligned (hal _ (List.mem_cons_of_mem _ hz))
      have h2 := s.burstKey_aligned (hal e (by simp))
      have h3 : s.burstKey z.1 ≠ s.burstKey e.1 := fun h => hx (List.mem_map.mpr ⟨z, hz, h⟩)
      omega
    · rw [← hstep.burstKey e.1]
      refine ih _ (fun y hy => hq y (List.mem_cons_of_mem _ hy)) (fun y hy => hal y (List.mem_cons_of_mem _ hy)) ?_ e he j hj
      simp only [hstep.burstKey]
      exact hnd
theorem burstsOf_aligned {a n : Nat} (ha : a % 64 = 0) (hn : n % 64 = 0) : burstsOf a n = (List.range (n / 64)).map fun i => a + 64 * i := by
  unfold burstsOf
  split
  · next h => rw [h]; rfl
  · rw [show (a + n - 1) / 64 - a / 64 + 1 = n / 64 by omega]
    exact List.map_congr_left fun i _ => by omega
/-- The bursts of an aligned write, and their places. -/
theorem mem_aligned {a n : Nat} (ha : a % 64 = 0) (hn : n % 64 = 0) (x i : Nat) :
    (x, i) ∈ (burstsOf a n).zipIdx ↔ i < n / 64 ∧ x = a + 64 * i := by
  rw [burstsOf_aligned ha hn, List.mem_zipIdx_iff_getElem?, List.getElem?_map]
  dsimp only
  by_cases hi : i < n / 64
  · rw [List.getElem?_range hi]
    simp only [Option.map_some, Option.some.injEq, hi, true_and]
    exact eq_comm
  · rw [List.getElem?_eq_none (by rw [List.length_range]; omega)]
    simp [hi]
/-- An aligned write of whole bursts. -/
theorem State.dramWrite_aligned (s : State) {a : Nat} {l : List Byte} (ha : a % 64 = 0) (hl : l.length % 64 = 0) (req : Nat) :
    s.dramWrite a l req = (burstsOf a l.length).zipIdx.foldl (fun t x => t.burstWrite x.1 ((l.drop (64 * x.2)).take 64) req) s := by
  unfold State.dramWrite State.dramWriteOpt
  dsimp only
  rw [ha, List.replicate_zero, List.nil_append, List.length_map]
  refine List.foldl_ext _ _ _ fun t x hx => ?_
  have hi := ((mem_aligned ha hl x.1 x.2).mp hx).1
  have hlen : ((l.drop (64 * x.2)).take 64).length = 64 := by
    rw [List.length_take, List.length_drop]
    omega
  rw [← List.map_drop, ← List.map_take, List.length_map, hlen, Nat.sub_self, List.replicate_zero, List.append_nil]
  unfold State.burstMerge
  rw [if_pos (by rw [List.all_map]; simp), List.map_map]
  congr 1
  exact List.map_id' _
/-- The bytes of an aligned write whose bursts lie apart. -/
theorem State.mem_dramWrite (s : State) {a n : Nat} {l : List Byte} (hl : l.length = n) (ha : a % 64 = 0) (hn : n % 64 = 0)
    (hap : burstsApart s a n) (req : Nat) {i : Nat} (hi : i < n) :
    Memory.get (s.dramWrite a l req).dramMem (s.burstKey (a + 64 * (i / 64)) + i % 64) = l[i]? := by
  subst hl
  rw [s.dramWrite_aligned ha hn req]
  have hin : (a + 64 * (i / 64), i / 64) ∈ (burstsOf a l.length).zipIdx := (mem_aligned ha hn _ _).mpr ⟨by omega, rfl⟩
  rw [State.mem_writeBursts req (fun k => (l.drop (64 * k)).take 64) _ s (fun e he => ?_) (fun e he => ?_) ?_ _ hin (i % 64)
    (Nat.mod_lt _ (by decide))]
  · dsimp only
    rw [List.getElem?_take_of_lt (Nat.mod_lt _ (by decide)), List.getElem?_drop, Nat.div_add_mod]
  · refine List.Nodup.map_on (fun e he f hf h => ?_) ?_
    · have h1 := hap _ (List.fst_mem_of_mem_zipIdx he) _ (List.fst_mem_of_mem_zipIdx hf) h
      have h2 := ((mem_aligned ha hn e.1 e.2).mp he).2
      have h3 := ((mem_aligned ha hn f.1 f.2).mp hf).2
      exact Prod.ext h1 (by omega)
    · exact List.Nodup.of_map Prod.snd (by rw [List.zipIdx_map_snd]; exact List.nodup_range')
  · have := ((mem_aligned ha hn e.1 e.2).mp he).1
    rw [List.length_take, List.length_drop]
    omega
  · rw [((mem_aligned ha hn e.1 e.2).mp he).2]
    omega

/-! ### The bytes of the flash -/

theorem Memory.get_del_self (m : List Host.Cell) (a : Nat) : Memory.get (Memory.del m a) a = none :=
  Memory.get_filter_drop m _ a fun v => by simp
theorem Memory.get_del_other (m : List Host.Cell) {a k : Nat} (h : k ≠ a) : Memory.get (Memory.del m a) k = Memory.get m k :=
  Memory.get_filter_keep m _ k fun v => by simpa using h
theorem State.flashSet_spec {s : State} (hw : Memory.wf s.flash = true) (a : Nat) (b : Byte) : Memory.wf (s.flashSet a b).flash = true ∧
    ∀ k, (s.flashSet a b).flashByte k = if k = a then b else s.flashByte k := by
  unfold State.flashSet State.flashByte
  dsimp only
  by_cases hb : b = 0xFF
  · rw [if_pos hb]
    refine ⟨Memory.wf_del _ _ hw, fun k => ?_⟩
    by_cases hk : k = a
    · rw [if_pos hk, hk, Memory.get_del_self, hb]
      rfl
    · rw [if_neg hk, Memory.get_del_other _ hk]
  · rw [if_neg hb]
    refine ⟨Memory.wf_put _ _ _ hw, fun k => ?_⟩
    by_cases hk : k = a
    · rw [if_pos hk, hk, Memory.get_put_self _ _ _ hw]
      rfl
    · rw [if_neg hk, Memory.get_put_other _ _ hk]
theorem State.flashSets_frame (l : List Byte) (s : State) (a : Nat) : ∃ f, s.flashSets a l = { s with flash := f } := by
  induction l generalizing s a with
  | nil => exact ⟨s.flash, rfl⟩
  | cons b l ih =>
    obtain ⟨f, hf⟩ := ih (s.flashSet a b) (a + 1)
    exact ⟨f, hf⟩
theorem State.flashSets_spec (l : List Byte) {s : State} (hw : Memory.wf s.flash = true) (a k : Nat) :
    (s.flashSets a l).flashByte k = if a ≤ k ∧ k < a + l.length then l.getD (k - a) 0xFF else s.flashByte k := by
  induction l generalizing s a with
  | nil =>
    rw [if_neg (by simp only [List.length_nil]; omega)]
    rfl
  | cons b l ih =>
    obtain ⟨h1, h2⟩ := State.flashSet_spec hw a b
    rw [State.flashSets, ih h1 (a + 1), List.length_cons, h2]
    by_cases hk : k = a
    · subst hk
      rw [if_neg (by omega), if_pos rfl, if_pos (by omega), Nat.sub_self]
      rfl
    · rw [if_neg hk]
      by_cases hin : a + 1 ≤ k ∧ k < a + 1 + l.length
      · rw [if_pos hin, if_pos (by omega), show k - a = (k - (a + 1)) + 1 by omega]
        rfl
      · rw [if_neg hin, if_neg (by omega)]
theorem State.flashSets_bytes {l : List Byte} {s : State} (hw : Memory.wf s.flash = true) {a n : Nat} (hl : l.length = n) :
    (s.flashSets a l).flashBytes a n = l := by
  subst hl
  refine List.ext_getElem (by rw [State.flashBytes, List.length_map, List.length_range]) fun i h1 h2 => ?_
  simp only [State.flashBytes, List.getElem_map, List.getElem_range]
  rw [State.flashSets_spec l hw, if_pos (by omega), Nat.add_sub_cancel_left, List.getD_eq_getElem _ _ h2]
theorem State.flashBytes_length (s : State) (a n : Nat) : (s.flashBytes a n).length = n := by
  rw [State.flashBytes, List.length_map, List.length_range]

/-! ### The start of an operation -/

theorem State.settleClaims_boot (s : State) (off : Nat) : s.settleClaims pBOOT off = s := by
  unfold State.settleClaims
  rw [List.filter_eq_nil_iff.2, List.foldl_nil]
  intro o ho
  have hpage : o.page ≠ pBOOT := by
    simp only [State.owners, List.mem_append, List.mem_map, List.mem_flatMap, List.mem_cons, List.not_mem_nil, or_false] at ho
    obtain ((((((⟨k, -, rfl⟩ | ⟨k, -, rfl⟩) | rfl) | ⟨k, -, rfl⟩) | ⟨k, -, rfl | rfl⟩) | ⟨k, -, rfl | rfl | rfl | rfl⟩) |
      rfl | rfl | rfl | rfl) := ho
    all_goals simp only [pPINMUX, pTIME, pBREATH, pFEED, pENC, pCAM, pCHANT, pCAL, pBOOT]
    all_goals omega
  simp [hpage]
theorem flCmd_fields : fieldsAt .boot 0 0xD0 = [R.BOOT_FL_CMD_GO, R.BOOT_FL_CMD_OP] ∨
    fieldsAt .boot 0 0xD0 = [R.BOOT_FL_CMD_OP, R.BOOT_FL_CMD_GO] := by decide
theorem State.storeReg_flCmd (s : State) {op : Nat} (h : field (2 ^ 31 + op) 0 2 = op) :
    s.storeReg pBOOT 0xD0 (2 ^ 31 + op) = s.set pBOOT R.BOOT_FL_CMD_OP op := by
  have hop : ∀ u : State, u.storeField pBOOT .boot (2 ^ 31 + op) R.BOOT_FL_CMD_OP = u.set pBOOT R.BOOT_FL_CMD_OP op := fun u =>
    congrArg (u.set pBOOT R.BOOT_FL_CMD_OP) h
  have hgo : ∀ u : State, u.storeField pBOOT .boot (2 ^ 31 + op) R.BOOT_FL_CMD_GO = u := fun _ => rfl
  unfold State.storeReg
  rw [blkOf_boot]
  dsimp only
  rcases flCmd_fields with hf | hf <;> rw [hf, List.foldl_cons, List.foldl_cons, List.foldl_nil, State.settleClaims_boot, hop, hgo]
theorem State.flashRefused_set (s : State) (op v : Nat) : (s.set pBOOT R.BOOT_FL_CMD_OP v).flashRefused op = s.flashRefused op := by
  have hg : ∀ f ∈ [R.BOOT_FL_ADDR, R.BOOT_FL_LEN, R.BOOT_FLASH_LOG2, R.BOOT_FLASH_E4K, R.BOOT_FLASH_E64K, bootFld 1],
      (s.set pBOOT R.BOOT_FL_CMD_OP v).get pBOOT f = s.get pBOOT f := fun f hf => State.get_set_field _ _ _ (by
    revert f
    decide)
  unfold State.flashRefused State.flashLen State.bootStep State.flag
  rw [hg _ (by simp), hg _ (by simp), hg _ (by simp), hg _ (by simp), hg _ (by simp), hg _ (by simp)]
  rfl
theorem not_lane_boot : ∀ i, blkOf pBOOT ≠ some (.lane, i) := fun i => by
  rw [blkOf_boot]
  exact fun h => by cases h
/-- What GO of the flash does with the operation that it stores (R377). -/
def State.flashAsked (u : State) (op : Nat) : State :=
  if u.flag pBOOT R.BOOT_FL_STAT_BUSY then u
  else if u.flashRefused op then u.set pBOOT R.BOOT_FL_STAT_RESULT 2
  else if op ≠ 0 && u.flag pBOOT R.PG_LOCK_LOCKED then u.set pBOOT R.BOOT_FL_STAT_RESULT 3
  else ((u.set pBOOT R.BOOT_FL_STAT_RESULT 0).set pBOOT R.BOOT_FL_STAT_BUSY 1).updBoot fun b => { b with
    op := some (op, u.get pBOOT R.BOOT_FL_ADDR, u.flashLen op, u.get64 pBOOT R.BOOT_FL_DRAM_LO R.BOOT_FL_DRAM_HI)
    opAfter := u.prof.reloads.length }
theorem State.flashGo_eq {s : State} {op : Nat} (hop : op < 4) (h : s.accepts pBOOT 0xD0 (2 ^ 31 + op)) :
    s.flashGo op = (s.set pBOOT R.BOOT_FL_CMD_OP op).flashAsked op := by
  obtain ⟨hf, hb⟩ := (by decide : ∀ op < 4, field (2 ^ 31 + op) 0 2 = op ∧ bit (2 ^ 31 + op) 31 = true) op hop
  refine (State.writeWith_accepts _ h (Or.inl not_lane_boot)).trans ?_
  unfold bootFlAct State.flashAsked
  rw [s.storeReg_flCmd hf, hf, hb]
  have hg : ∀ f ∈ [R.BOOT_FL_ADDR, R.BOOT_FL_LEN, R.BOOT_FL_DRAM_LO, R.BOOT_FL_DRAM_HI],
      (((s.set pBOOT R.BOOT_FL_CMD_OP op).set pBOOT R.BOOT_FL_STAT_RESULT 0).set pBOOT R.BOOT_FL_STAT_BUSY 1).get pBOOT f =
        (s.set pBOOT R.BOOT_FL_CMD_OP op).get pBOOT f := fun f hf => by
    have : f.id ≠ R.BOOT_FL_STAT_BUSY.id ∧ f.id ≠ R.BOOT_FL_STAT_RESULT.id := by
      revert f
      decide
    rw [State.get_set_field _ _ _ this.1, State.get_set_field _ _ _ this.2]
  dsimp only
  unfold State.flashLen State.get64
  rw [hg _ (by simp), hg _ (by simp), hg _ (by simp), hg _ (by simp)]
  rfl
theorem State.flashAsked_spec (s : State) {op : Nat} (hop : op < 4) {t : State} (ht : (s.set pBOOT R.BOOT_FL_CMD_OP op).flashAsked op = t) :
    s.sameMemory t ∧ t.get pBOOT R.BOOT_FL_CMD_OP = op ∧
    s.regsBut t [(pBOOT, R.BOOT_FL_CMD_OP), (pBOOT, R.BOOT_FL_STAT_RESULT), (pBOOT, R.BOOT_FL_STAT_BUSY)] ∧
    ({ t with regs := s.regs, boot := s.boot } : State) = s ∧
    (s.flag pBOOT R.BOOT_FL_STAT_BUSY = true → t.boot = s.boot ∧ s.regsBut t [(pBOOT, R.BOOT_FL_CMD_OP)]) ∧
    (s.flag pBOOT R.BOOT_FL_STAT_BUSY = false → s.flashRefused op = true →
      t.get pBOOT R.BOOT_FL_STAT_RESULT = 2 ∧ t.boot = s.boot ∧ t.flag pBOOT R.BOOT_FL_STAT_BUSY = false) ∧
    (s.flag pBOOT R.BOOT_FL_STAT_BUSY = false → s.flashRefused op = false → op ≠ 0 → s.flag pBOOT R.PG_LOCK_LOCKED = true →
      t.get pBOOT R.BOOT_FL_STAT_RESULT = 3 ∧ t.boot = s.boot ∧ t.flag pBOOT R.BOOT_FL_STAT_BUSY = false) ∧
    (s.flag pBOOT R.BOOT_FL_STAT_BUSY = false → s.flashRefused op = false → (op = 0 ∨ s.flag pBOOT R.PG_LOCK_LOCKED = false) →
      t.get pBOOT R.BOOT_FL_STAT_RESULT = 0 ∧ t.get pBOOT R.BOOT_FL_STAT_BUSY = 1 ∧
      t.boot = { s.boot with
        op := some (op, s.get pBOOT R.BOOT_FL_ADDR, s.flashLen op, s.get64 pBOOT R.BOOT_FL_DRAM_LO R.BOOT_FL_DRAM_HI)
        opAfter := s.prof.reloads.length }) := by
  have href := s.flashRefused_set op op
  have hself : (s.set pBOOT R.BOOT_FL_CMD_OP op).get pBOOT R.BOOT_FL_CMD_OP = op := by
    rw [State.get_set_self]
    exact Nat.mod_eq_of_lt hop
  have hb := State.regsBut_set (State.regsBut_refl s [(pBOOT, R.BOOT_FL_CMD_OP)]) (p := pBOOT) (f := R.BOOT_FL_CMD_OP) op (by simp)
  have hsh : ∃ r, s.set pBOOT R.BOOT_FL_CMD_OP op = { s with regs := r } := ⟨_, rfl⟩
  generalize s.set pBOOT R.BOOT_FL_CMD_OP op = u at href hself hb hsh ht
  have hg : ∀ {f : Fld}, f.id ≠ R.BOOT_FL_CMD_OP.id → u.get pBOOT f = s.get pBOOT f := fun h => hb.field (by simpa using h) _
  have hbusy : u.flag pBOOT R.BOOT_FL_STAT_BUSY = s.flag pBOOT R.BOOT_FL_STAT_BUSY := congrArg (· == 1) (hg (by decide))
  have hlock : u.flag pBOOT R.PG_LOCK_LOCKED = s.flag pBOOT R.PG_LOCK_LOCKED := congrArg (· == 1) (hg (by decide))
  obtain ⟨r, hsh⟩ := hsh
  have hwide : [(pBOOT, R.BOOT_FL_CMD_OP)] ⊆ [(pBOOT, R.BOOT_FL_CMD_OP), (pBOOT, R.BOOT_FL_STAT_RESULT), (pBOOT, R.BOOT_FL_STAT_BUSY)] := by simp
  have hresult : ∀ v, v < 8 → s.sameMemory (u.set pBOOT R.BOOT_FL_STAT_RESULT v) ∧
      (u.set pBOOT R.BOOT_FL_STAT_RESULT v).get pBOOT R.BOOT_FL_CMD_OP = op ∧
      s.regsBut (u.set pBOOT R.BOOT_FL_STAT_RESULT v)
        [(pBOOT, R.BOOT_FL_CMD_OP), (pBOOT, R.BOOT_FL_STAT_RESULT), (pBOOT, R.BOOT_FL_STAT_BUSY)] ∧
      (u.set pBOOT R.BOOT_FL_STAT_RESULT v).get pBOOT R.BOOT_FL_STAT_RESULT = v ∧
      (u.set pBOOT R.BOOT_FL_STAT_RESULT v).flag pBOOT R.BOOT_FL_STAT_BUSY = s.flag pBOOT R.BOOT_FL_STAT_BUSY ∧
      ∃ r, u.set pBOOT R.BOOT_FL_STAT_RESULT v = { s with regs := r } := fun v hv => by
    refine ⟨?_, ?_, State.regsBut_set (State.regsBut_mono hb hwide) _ (by simp), ?_, ?_, (u.set pBOOT R.BOOT_FL_STAT_RESULT v).regs, ?_⟩
    · rw [hsh]
      exact ⟨rfl, rfl, rfl, rfl, rfl⟩
    · rw [State.get_set_field _ _ _ (by decide), hself]
    · rw [State.get_set_self]
      exact Nat.mod_eq_of_lt hv
    · rw [← hbusy]
      exact congrArg (· == 1) (State.get_set_field _ _ _ (by decide))
    · rw [hsh]
      rfl
  unfold State.flashAsked at ht
  rw [hbusy, href, hlock] at ht
  cases h1 : s.flag pBOOT R.BOOT_FL_STAT_BUSY with
  | true =>
    rw [h1, if_pos rfl] at ht
    subst ht
    refine ⟨by rw [hsh]; exact ⟨rfl, rfl, rfl, rfl, rfl⟩, hself, State.regsBut_mono hb hwide, by rw [hsh], fun _ => ⟨by rw [hsh], hb⟩,
      fun h => absurd h (by decide), fun h => absurd h (by decide), fun h => absurd h (by decide)⟩
  | false =>
    rw [h1, if_neg (by decide)] at ht
    rw [h1] at hresult
    cases h2 : s.flashRefused op with
    | true =>
      rw [h2, if_pos rfl] at ht
      obtain ⟨r1, r2, r3, r4, r5, rg, r6⟩ := hresult 2 (by decide)
      rw [ht] at r1 r2 r3 r4 r5 r6
      exact ⟨r1, r2, r3, by rw [r6], fun h => absurd h (by decide), fun _ _ => ⟨r4, by rw [r6], r5⟩, fun _ h => absurd h (by decide),
        fun _ h => absurd h (by decide)⟩
    | false =>
      rw [h2, if_neg (by decide)] at ht
      by_cases h3 : op ≠ 0 ∧ s.flag pBOOT R.PG_LOCK_LOCKED = true
      · rw [if_pos (by simpa using h3)] at ht
        obtain ⟨r1, r2, r3, r4, r5, rg, r6⟩ := hresult 3 (by decide)
        rw [ht] at r1 r2 r3 r4 r5 r6
        exact ⟨r1, r2, r3, by rw [r6], fun h => absurd h (by decide), fun _ h => absurd h (by decide), fun _ _ _ _ => ⟨r4, by rw [r6], r5⟩,
          fun _ _ h => absurd h3 (by rintro ⟨h4, h5⟩; rcases h with h | h; exacts [h4 h, by rw [h5] at h; cases h])⟩
      · rw [if_neg (by simpa using h3)] at ht
        obtain ⟨-, r2, r3, r4, -, rg, r6⟩ := hresult 0 (by decide)
        generalize u.set pBOOT R.BOOT_FL_STAT_RESULT 0 = v at r2 r3 r4 r6 ht
        have hcmd : u.get pBOOT R.BOOT_FL_ADDR = s.get pBOOT R.BOOT_FL_ADDR ∧ u.flashLen op = s.flashLen op ∧
            u.get64 pBOOT R.BOOT_FL_DRAM_LO R.BOOT_FL_DRAM_HI = s.get64 pBOOT R.BOOT_FL_DRAM_LO R.BOOT_FL_DRAM_HI ∧ u.prof = s.prof := by
          unfold State.flashLen State.get64
          rw [hg (by decide), hg (by decide), hg (by decide), hg (by decide), hsh]
          exact ⟨rfl, rfl, rfl, rfl⟩
        obtain ⟨c1, c2, c3, c4⟩ := hcmd
        rw [c1, c2, c3, c4] at ht
        have hreg : t.regs = (v.set pBOOT R.BOOT_FL_STAT_BUSY 1).regs := by
          rw [← ht]
          rfl
        have hget : ∀ f, t.get pBOOT f = (v.set pBOOT R.BOOT_FL_STAT_BUSY 1).get pBOOT f := fun f => State.get_congr hreg _ f
        refine ⟨?_, ?_, State.regsBut_of_regs (State.regsBut_set r3 (p := pBOOT) (f := R.BOOT_FL_STAT_BUSY) 1 (by simp)) hreg, ?_,
          fun h => absurd h (by decide), fun _ h => absurd h (by decide), fun _ _ h4 h5 => absurd ⟨h4, h5⟩ h3,
          fun _ _ _ => ⟨?_, ?_, ?_⟩⟩
        · rw [← ht, r6]
          exact ⟨rfl, rfl, rfl, rfl, rfl⟩
        · rw [hget, State.get_set_field _ _ _ (by decide), r2]
        · rw [← ht, r6]
          rfl
        · rw [hget, State.get_set_field _ _ _ (by decide), r4]
        · rw [hget, State.get_set_self]
          rfl
        · rw [← ht, r6]
          rfl

/-! ### The end of an operation -/

/-- An operation that has ended, with its result. -/
def State.flashDone (s : State) (res : Nat) : State :=
  ((((s.tickFresh.updBoot fun b => { b with op := none }).set pBOOT R.BOOT_FL_STAT_BUSY 0).set pBOOT R.BOOT_FL_STAT_RESULT res).cause
    pBOOT 5).reloadStart
theorem State.flashDone_spec (s : State) {res : Nat} (hres : res < 8) {t : State} (ht : s.flashDone res = t) :
    t.boot = { s.boot with op := none } ∧ t.get pBOOT R.BOOT_FL_STAT_BUSY = 0 ∧ t.get pBOOT R.BOOT_FL_STAT_RESULT = res ∧
    (s.fenced pBOOT = false → bit (t.get pBOOT R.PG_IRQ_RAW) 5 = true) ∧
    s.regsBut t [(pBOOT, R.BOOT_FL_STAT_BUSY), (pBOOT, R.BOOT_FL_STAT_RESULT), (pBOOT, R.PG_IRQ_RAW), (pPROF, R.PROF_VALID_BUSY),
      (pPROF, R.PROF_VALID_VALID)] ∧
    ∃ r w, t = { s with regs := r, fresh := s.fresh + 1, boot := { s.boot with op := none }, host := { s.host with waiting := w } } := by
  unfold State.flashDone at ht
  have hr0 : (s.tickFresh.updBoot fun b => { b with op := none }).regs = s.regs := rfl
  have hs0 : (s.tickFresh.updBoot fun b => { b with op := none }) = { s with fresh := s.fresh + 1, boot := { s.boot with op := none } } := rfl
  generalize (s.tickFresh.updBoot fun b => { b with op := none }) = u at hr0 hs0 ht
  have hb : u.regsBut ((u.set pBOOT R.BOOT_FL_STAT_BUSY 0).set pBOOT R.BOOT_FL_STAT_RESULT res)
      [(pBOOT, R.BOOT_FL_STAT_BUSY), (pBOOT, R.BOOT_FL_STAT_RESULT), (pBOOT, R.PG_IRQ_RAW), (pPROF, R.PROF_VALID_BUSY), (pPROF, R.PROF_VALID_VALID)] :=
    State.regsBut_set (p := pBOOT) (f := R.BOOT_FL_STAT_RESULT) (State.regsBut_set (p := pBOOT) (f := R.BOOT_FL_STAT_BUSY)
      (State.regsBut_refl u _) _ (by simp)) _ (by simp)
  have h0 : ((u.set pBOOT R.BOOT_FL_STAT_BUSY 0).set pBOOT R.BOOT_FL_STAT_RESULT res).get pBOOT R.BOOT_FL_STAT_BUSY = 0 ∧
      ((u.set pBOOT R.BOOT_FL_STAT_BUSY 0).set pBOOT R.BOOT_FL_STAT_RESULT res).get pBOOT R.BOOT_FL_STAT_RESULT = res := by
    rw [State.get_set_field _ _ _ (by decide), State.get_set_self, State.get_set_self]
    exact ⟨rfl, Nat.mod_eq_of_lt hres⟩
  obtain ⟨r1, h1⟩ := (u.wrote_set pBOOT R.BOOT_FL_STAT_BUSY 0).trans (State.wrote_set _ pBOOT R.BOOT_FL_STAT_RESULT res)
  generalize (u.set pBOOT R.BOOT_FL_STAT_BUSY 0).set pBOOT R.BOOT_FL_STAT_RESULT res = v at hb h0 h1 ht
  obtain ⟨h0, h0'⟩ := h0
  obtain ⟨r2, w, h2⟩ := v.reports_cause pBOOT 5
  have hbit : s.fenced pBOOT = false → bit ((v.cause pBOOT 5).get pBOOT R.PG_IRQ_RAW) 5 = true := fun hf =>
    State.bit_cause _ (by decide) ((State.frozen_congr ((hb.field (by decide) _).trans (State.get_congr hr0 _ _))).trans (State.frozen_of_unfenced hf))
  have hcb := State.regsBut_cause hb (p := pBOOT) 5 (by simp)
  have hc0 : (v.cause pBOOT 5).get pBOOT R.BOOT_FL_STAT_BUSY = 0 ∧ (v.cause pBOOT 5).get pBOOT R.BOOT_FL_STAT_RESULT = res :=
    ⟨(State.get_cause_field _ _ _ (by decide)).trans h0, (State.get_cause_field _ _ _ (by decide)).trans h0'⟩
  generalize v.cause pBOOT 5 = x at h2 hbit hcb hc0 ht
  obtain ⟨-, -, -, h3, ⟨r3, h4⟩, -⟩ := x.reloadStart_spec
  rw [ht] at h3 h4
  have hne : ∀ f, t.get pBOOT f = x.get pBOOT f := fun f => h3 _ _ fun e he => Or.inl (by
    simp only [reloadFields, List.mem_cons, List.not_mem_nil, or_false] at he
    rcases he with rfl | rfl <;> decide)
  refine ⟨by rw [h4, h2, h1, hs0], (hne _).trans hc0.1, (hne _).trans hc0.2, fun hf => by rw [hne]; exact hbit hf, ?_, r3, w,
    by rw [h4, h2, h1, hs0]⟩
  refine State.regsBut_trans (State.regsBut_trans (State.regsBut_of_regs (State.regsBut_refl s _) hr0) hcb) (State.regsBut_mono h3 ?_)
  simp [reloadFields]
theorem exec_flashOperationEnd_idle {s : State} (timeout : Bool) (h : s.boot.op = none ∨ s.boot.opAfter ≠ 0 ∨ s.shut = true ∨
    (∃ op a n d, s.boot.op = some (op, a, n, d) ∧ flashWaits s op d n)) : exec (.flashOperationEnd timeout) s = .next s := by
  change Host.Outcome.next _ = _
  cases hop : s.boot.op with
  | none => rfl
  | some e =>
    obtain ⟨op, a, n, d⟩ := e
    dsimp only
    rw [if_pos]
    rw [hop] at h
    simp only [flashWaits] at h
    rcases h with h | h | h | ⟨op', a', n', d', h, h', h''⟩
    · cases h
    · simp [h]
    · simp [h]
    · cases h
      simp [h', h'']
theorem exec_flashOperationEnd {s : State} (timeout : Bool) {op a n d : Nat} (hop : s.boot.op = some (op, a, n, d)) (ha : s.boot.opAfter = 0)
    (hs : s.shut = false) (hw : ¬ flashWaits s op d n) : exec (.flashOperationEnd timeout) s =
      .next ((s.flashEnd op a n d timeout).1.flashDone (s.flashEnd op a n d timeout).2) := by
  change Host.Outcome.next _ = _
  rw [hop]
  dsimp only
  rw [if_neg]
  · rfl
  · simp only [flashWaits, not_and, Bool.not_eq_false] at hw
    simp only [ha, hs, Bool.or_eq_true, Bool.and_eq_true, decide_eq_true_eq, Bool.not_eq_true', not_or, not_and, Bool.not_eq_false]
    exact ⟨⟨by decide, by decide⟩, hw⟩

/-! ### What an operation leaves at its end -/

theorem pBOOT_notDram : ¬ dramPage pBOOT := by
  rintro (h | ⟨c, -, h⟩) <;> simp only [pBOOT, pDRAMC, pDRAM] at h <;> omega
/-- What the end of an operation leaves before it is noted: a read has stored to DRAM, any other operation has set `n` bytes of the flash
from `a` on. -/
theorem State.flashEnd_spec (s : State) (op a n d : Nat) (timeout : Bool) {t : State} {res : Nat} (ht : s.flashEnd op a n d timeout = (t, res)) :
    res < 8 ∧ t.boot = s.boot ∧ (∀ f, t.get pBOOT f = s.get pBOOT f) ∧ (timeout = true → res = 5) ∧
    (op = 0 → s.dramStep t (burstsOf d n) ∧ (timeout = false → t = s.dramWrite d (s.flashBytes a n) s.bootReq ∧ res = 1)) ∧
    (op ≠ 0 → ∃ u l, u.hold = s.hold ∧ l.length = n ∧ t = u.flashSets a l ∧
      (op = 1 → timeout = false → l = ((s.dramRead d n s.bootReq s.bootReq).2.1.zip (s.flashBytes a n)).map (fun e => e.1 &&& e.2) ∧
        res = if l = (s.dramRead d n s.bootReq s.bootReq).2.1 then 1 else 4) ∧
      (op ≠ 1 → u = s ∧ (timeout = false → l = List.replicate n 0xFF ∧ res = 1))) := by
  have hjunk : ((List.range n).map fun i => BitVec.ofNat 8 (Config.free (60 * 2 ^ 32 + i) s.fresh)).length = n := by
    rw [List.length_map, List.length_range]
  unfold State.flashEnd at ht
  dsimp only at ht
  generalize ((List.range n).map fun i => BitVec.ofNat 8 (Config.free (60 * 2 ^ 32 + i) s.fresh)) = junk at ht hjunk
  split at ht
  · next h0 =>
    obtain ⟨rfl, rfl⟩ := Prod.mk.inj ht
    have hl : (if timeout then junk else s.flashBytes a n).length = n := by
      cases timeout
      · exact s.flashBytes_length a n
      · exact hjunk
    have hst := s.dramStep_dramWriteOpt d ((if timeout then junk else s.flashBytes a n).map some) s.bootReq
    rw [List.length_map, hl] at hst
    refine ⟨by cases timeout <;> decide, ?_, hst.page _ pBOOT_notDram, fun h => by rw [h]; rfl,
      fun _ => ⟨hst, fun h => by subst h; exact ⟨rfl, rfl⟩⟩, fun h => absurd h0 h⟩
    obtain ⟨r, e, w, m, k, h⟩ := hst.shape
    exact (congrArg State.boot h : (s.dramWriteOpt d _ _).boot = _)
  · next h0 =>
    split at ht
    · next h1 =>
      subst h1
      have hst := s.dramStep_dramRead d n s.bootReq s.bootReq []
      have hlen := s.dramRead_length d n s.bootReq s.bootReq
      have hh := s.dramRead_hold d n s.bootReq s.bootReq
      generalize s.dramRead d n s.bootReq s.bootReq = q at ht hst hlen hh
      obtain ⟨rfl, rfl⟩ := Prod.mk.inj ht
      have hz : ((q.2.1.zip (s.flashBytes a n)).map fun e => e.1 &&& e.2).length = n := by
        rw [List.length_map, List.length_zip, hlen, s.flashBytes_length, Nat.min_self]
      generalize ((q.2.1.zip (s.flashBytes a n)).map fun e => e.1 &&& e.2) = new at hz
      have hl : (if timeout then junk else new).length = n := by
        cases timeout
        · exact hz
        · exact hjunk
      obtain ⟨f, hf⟩ := State.flashSets_frame (if timeout then junk else new) q.1 a
      refine ⟨?_, ?_, fun g => ?_, fun h => by rw [h]; rfl, fun h => absurd h h0,
        fun _ => ⟨q.1, _, hh, hl, rfl, fun _ h => by subst h; exact ⟨rfl, rfl⟩, fun h => absurd rfl h⟩⟩
      · cases timeout
        · rw [if_neg (by decide)]
          split <;> decide
        · rw [if_pos rfl]
          decide
      · obtain ⟨r, e, w, m, k, h⟩ := hst.shape
        rw [hf, h]
      · rw [hf]
        exact hst.page _ pBOOT_notDram g
    · next h1 =>
      obtain ⟨rfl, rfl⟩ := Prod.mk.inj ht
      have hl : (if timeout then junk else List.replicate n 0xFF).length = n := by
        cases timeout
        · exact List.length_replicate
        · exact hjunk
      obtain ⟨f, hf⟩ := State.flashSets_frame (if timeout then junk else List.replicate n 0xFF) s a
      refine ⟨by cases timeout <;> decide, by rw [hf], fun g => by rw [hf]; rfl, fun h => by rw [h]; rfl, fun h => absurd h h0,
        fun _ => ⟨s, _, rfl, hl, rfl, fun h => absurd h h1, fun _ => ⟨rfl, fun h => by subst h; exact ⟨rfl, rfl⟩⟩⟩⟩
theorem State.flashByte_outside {l : List Byte} {s u : State} (hu : u.flash = s.flash) (hw : Memory.wf s.flash = true) {a n k : Nat}
    (hl : l.length = n) (hk : k < a ∨ a + n ≤ k) : (u.flashSets a l).flashByte k = s.flashByte k := by
  rw [State.flashSets_spec l (by rw [hu]; exact hw), if_neg (by omega), State.flashByte, hu, State.flashByte]

/-- What stands after the end of an operation that was under way. -/
theorem State.flashOperation_done (s : State) {op a n d : Nat} {timeout : Bool} {t : State}
    (ht : (s.flashEnd op a n d timeout).1.flashDone (s.flashEnd op a n d timeout).2 = t) :
    t.boot = { s.boot with op := none } ∧ t.get pBOOT R.BOOT_FL_STAT_BUSY = 0 ∧
      (s.fenced pBOOT = false → bit (t.get pBOOT R.PG_IRQ_RAW) 5 = true) ∧
      (timeout = true → t.get pBOOT R.BOOT_FL_STAT_RESULT = 5) ∧
      (op = 0 → timeout = false → t.get pBOOT R.BOOT_FL_STAT_RESULT = 1) ∧ (op = 0 → s.memSound → s.dramStores t (burstsOf d n)) ∧
      (op = 0 → timeout = false → d % 64 = 0 → n % 64 = 0 → burstsApart s d n →
        ∀ i < n, Memory.get t.dramMem (s.burstKey (d + 64 * (i / 64)) + i % 64) = (s.flashBytes a n)[i]?) ∧
      (op ≠ 0 → t.pending = s.pending ∧ t.lstore = s.lstore ∧ t.dramMem = s.dramMem ∧ t.dramChk = s.dramChk ∧
        (s.memSound → ∀ k, (k < a ∨ a + n ≤ k) → t.flashByte k = s.flashByte k)) ∧
      (op = 1 → timeout = false → s.memSound → ∀ l, l = (s.dramRead d n s.bootReq s.bootReq).2.1 →
        t.flashBytes a n = (l.zip (s.flashBytes a n)).map (fun e => e.1 &&& e.2) ∧
        t.get pBOOT R.BOOT_FL_STAT_RESULT = (if t.flashBytes a n = l then 1 else 4)) ∧
      (2 ≤ op → timeout = false → t.get pBOOT R.BOOT_FL_STAT_RESULT = 1 ∧ (s.memSound → t.flashBytes a n = List.replicate n 0xFF)) ∧
      (2 ≤ op → s.regsBut t [(pBOOT, R.BOOT_FL_STAT_BUSY), (pBOOT, R.BOOT_FL_STAT_RESULT), (pBOOT, R.PG_IRQ_RAW),
        (pPROF, R.PROF_VALID_BUSY), (pPROF, R.PROF_VALID_VALID)]) := by
  have hend := fun {u res} => s.flashEnd_spec op a n d timeout (t := u) (res := res)
  generalize s.flashEnd op a n d timeout = e at ht hend
  obtain ⟨u, res⟩ := e
  obtain ⟨h1, h2, h3, h4, h5, h6⟩ := hend rfl
  obtain ⟨k1, k2, k3, k4, k5, r, w, k6⟩ := u.flashDone_spec h1 ht
  have hflash : t.flash = u.flash := by rw [k6]
  have hbyte : ∀ k, t.flashByte k = u.flashByte k := fun k => by rw [State.flashByte, hflash, State.flashByte]
  have hbytes : t.flashBytes a n = u.flashBytes a n := by
    unfold State.flashBytes
    simp only [hbyte]
  refine ⟨by rw [k1, h2], k2, fun hf => k4 ((congrArg (· == 1) (h3 _)).trans hf), fun h => k3.trans (h4 h),
    fun h0 h => k3.trans ((h5 h0).2 h).2, fun h0 _ => ?_, fun h0 h hd hn hap i hi => ?_, fun h0 => ?_, fun h0 h hw l hl => ?_,
    fun h0 h => ?_, fun h0 => ?_⟩
  · obtain ⟨j1, j2, j3, j4⟩ := (h5 h0).1.stores
    refine ⟨?_, ?_, ?_, ?_⟩
    · rw [k6, ← j1]
    · rw [k6, ← j2]
    · rw [k6, ← j3]
    · rw [k6]
      exact j4
  · obtain ⟨hu, -⟩ := (h5 h0).2 h
    rw [← s.mem_dramWrite (s.flashBytes_length a n) hd hn hap s.bootReq hi, ← hu, k6]
  · obtain ⟨v, l, hv, hl, hu, -, -⟩ := h6 h0
    obtain ⟨f, hf⟩ := State.flashSets_frame l v a
    obtain ⟨m1, m2, m3, m4, m5⟩ : v.pending = s.pending ∧ v.lstore = s.lstore ∧ v.dramMem = s.dramMem ∧ v.dramChk = s.dramChk ∧
        v.flash = s.flash := ⟨congrArg (·.1) hv, congrArg (·.2.1) hv, congrArg (·.2.2.1) hv, congrArg (·.2.2.2.1) hv, congrArg (·.2.2.2.2) hv⟩
    refine ⟨?_, ?_, ?_, ?_, fun hw k hk => ?_⟩
    · rw [k6, hu, hf, ← m1]
    · rw [k6, hu, hf, ← m2]
    · rw [k6, hu, hf, ← m3]
    · rw [k6, hu, hf, ← m4]
    · rw [hbyte, hu, State.flashByte_outside m5 hw.2.2.2.1 hl hk]
  · subst h0
    obtain ⟨v, l', hv, hl', hu, h7, -⟩ := h6 (by decide)
    obtain ⟨h8, h9⟩ := h7 rfl h
    have m5 : v.flash = s.flash := congrArg (fun e => e.2.2.2.2) hv
    have hb : t.flashBytes a n = l' := by
      rw [hbytes, hu, State.flashSets_bytes (by rw [m5]; exact hw.2.2.2.1) hl']
    rw [hb, k3, h9, hl]
    exact ⟨h8, rfl⟩
  · obtain ⟨v, l, -, hl, hu, -, h7⟩ := h6 (by omega)
    obtain ⟨rfl, h8⟩ := h7 (by omega)
    obtain ⟨h9, h10⟩ := h8 h
    refine ⟨k3.trans h10, fun hw => ?_⟩
    rw [hbytes, hu, State.flashSets_bytes hw.2.2.2.1 hl, h9]
  · obtain ⟨v, l, -, hl, hu, -, h7⟩ := h6 (by omega)
    obtain ⟨rfl, -⟩ := h7 (by omega)
    obtain ⟨f, hf⟩ := State.flashSets_frame l v a
    exact State.regsBut_trans (State.regsBut_of_regs (State.regsBut_refl v _) (by rw [hu, hf])) k5
theorem exec_flashGo {s : State} {c : Instr} {op : Nat} (h : (c, op) ∈ [(.read, 0), (.prog, 1), (.erase4k, 2), (.erase64k, 3)]) :
    exec c s = .next (s.flashGo op) ∧ op < 4 := by
  simp only [List.mem_cons, Prod.mk.injEq, List.not_mem_nil, or_false] at h
  rcases h with ⟨rfl, rfl⟩ | ⟨rfl, rfl⟩ | ⟨rfl, rfl⟩ | ⟨rfl, rfl⟩ <;> exact ⟨rfl, by decide⟩
/-- Settles O60: a GO starts its operation or refuses it, and the end of one has stored what the operation stores. -/
theorem flashOperations : Obligations.FlashOperations := by
  refine ⟨fun s c op hc h => ?_, fun s timeout h => exec_flashOperationEnd_idle timeout h, fun s timeout op a n d hop ha hs hw => ?_⟩
  · obtain ⟨he, hop⟩ := exec_flashGo (s := s) hc
    exact ⟨_, he.trans (congrArg Host.Outcome.next (s.flashGo_eq hop h)), s.flashAsked_spec hop rfl⟩
  · exact ⟨_, exec_flashOperationEnd timeout hop ha hs hw, s.flashOperation_done rfl⟩
end Sys2Proof.Machine
end

section
/-! ### Camera frames and lines (O49, O50): the case that fails -/
open Sys2Proof Sys2Proof.Machine
namespace Sys2Proof.Machine

/-- A device at work with a frame open at camera port 0, and with a pair of port 1 waiting whose column lies beyond the 48,192 of a
bar; 220 clean bytes stand where that column's sums would. -/
def strayPair : State :=
  (({ State.reset with
      inReset := false, heldReset := false, heldClock := false, pll := true
      lstore := (List.range 220).map fun i => (partAddr 60000 + i, 0)
      chant := { State.reset.chant with parts := true }
      cam := [(0, { frame := some { fseq := 1, gen := 0, untrig := false, lines := 100000 } }),
        (1, { shared := [{ lc := 0, fseq := 0, col := 60000, absb := [], cov := [], fate := 0 }] })] } : State).set (pCAM 0)
    R.PG_CTRL_EN 1).set pCHANT R.PG_CTRL_EN 1
/-- The count of pairs beside the partial sums of the 48,192 columns, after a command. -/
def strayCountAfter (c : Instr) (s : State) : Option Byte :=
  match exec c s with
  | .next t => Memory.get t.lstore (partAddr 60000)
  | _ => none
theorem strayPair_shape : strayPair.enabled (pCAM 0) = true ∧ strayPair.resetting (pCAM 0) = false ∧ strayPair.working (pCAM 0) = true ∧
    Memory.get strayPair.lstore (partAddr 60000) = some 0 ∧ max 1 (strayPair.ap (pCAM 0) R.CAM_FRAME) ≤ 100000 := by decide +kernel
theorem strayPair_frame : (strayPair.camAt 0).frame = some { fseq := 1, gen := 0, untrig := false, lines := 100000 } := rfl
theorem strayCount_frameClose : strayCountAfter (.frameClose 0) strayPair = some 1 := by decide +kernel
theorem strayCount_cameraLine : strayCountAfter (.cameraLine 0 [] none false) strayPair = some 1 := by decide +kernel
/-- A command that stores in the partial sums of the columns only leaves the count beside them. -/
theorem strayCount_kept {c : Instr} {t : State} (ht : exec c strayPair = .next t) (hstored : strayCountAfter c strayPair = some 1) :
    ¬ strayPair.lsOnly t [(partAddr 0, 220 * 48192)] := by
  rintro ⟨-, -, -, -, hwithin⟩
  have hkept : Memory.get t.lstore (partAddr 60000) = some 0 := (hwithin _ (by decide)).trans strayPair_shape.2.2.2.1
  simp only [strayCountAfter, ht, hkept] at hstored
  exact absurd hstored (by decide)

/-- Refutes O49: the close of a frame gives Chanter the pairs that wait no longer, and one of a column beyond 48,191 is summed beside the
partial sums. -/
theorem not_cameraFramesAndTriggers : ¬ Obligations.CameraFramesAndTriggers := by
  unfold Obligations.CameraFramesAndTriggers
  intro h
  obtain ⟨-, -, -, -, -, -, -, hclose, -⟩ := h strayPair 0
  obtain ⟨henabled, hreset, -⟩ := strayPair_shape
  obtain ⟨t, ht, -, -, -, -, -, hstores⟩ := hclose _ henabled hreset strayPair_frame
  exact strayCount_kept ht strayCount_frameClose hstores
/-- Refutes O50: a line beyond the frame's gives Chanter the pairs that wait no longer, and one of a column beyond 48,191 is summed beside
the partial sums. -/
theorem not_cameraLinesAndCoverage : ¬ Obligations.CameraLinesAndCoverage := by
  unfold Obligations.CameraLinesAndCoverage
  rintro ⟨hline, -⟩
  obtain ⟨-, -, hwork, -, hbeyond⟩ := strayPair_shape
  obtain ⟨-, hframe⟩ := hline strayPair 0 [] none false
  obtain ⟨t, ht, -, -, hstores, -⟩ := (hframe _ hwork strayPair_frame).1 hbeyond
  exact strayCount_kept ht strayCount_cameraLine hstores

end Sys2Proof.Machine
end

section
/-! ### Frames and FIREs on a head lane (O33) -/
open Sys2Proof Sys2Proof.Machine
namespace Sys2Proof.Machine

theorem packRow_length (n : Nat) (l : List Nat) (h : l.length = 8 * n) : (packRow l).length = 3 * n := by
  induction n generalizing l with
  | zero =>
    rw [List.length_eq_zero_iff.mp h]
    rfl
  | succ n ih =>
    match l, h with
    | a :: b :: c :: d :: e :: f :: g :: k :: r, h =>
      simp only [List.length_cons] at h
      rw [packRow, List.length_append, leBytes_length, ih r (by omega)]
      omega
theorem evens_length (l : List Nat) : (evens l).length = (l.length + 1) / 2 := by
  induction l using evens.induct with
  | case1 a b r ih =>
    rw [evens, List.length_cons, ih, List.length_cons, List.length_cons]
    omega
  | case2 a => simp [evens]
  | case3 => simp [evens]
/-- A frame of 6,144 codes has the 2,328 bytes of R112. -/
theorem TileLine.frame_length {x : TileLine} (h : x.codes.length = 6144) (b t claim : Nat) : (x.frame b t claim).length = 2328 := by
  have hrow : ∀ l : List Nat, l.length = 6144 ∨ l.length = 6143 → (packRow (evens l)).length = 1152 := fun l hl =>
    packRow_length 384 _ (by rw [evens_length]; omega)
  have h1 := hrow x.codes (Or.inl h)
  have h2 := hrow (x.codes.drop 1) (Or.inr (by rw [List.length_drop, h]))
  unfold TileLine.frame TileLine.body
  simp only [List.length_append, List.length_cons, List.length_nil, leBytes_length, h1, h2, zeros, List.length_replicate]

/-! ### What follows a channel's last line in flight (R17) -/

theorem State.updHead_self (s : State) (h : Nat) (g : HeadSt → HeadSt) : (s.updHead h g).headAt h = g (s.headAt h) :=
  NMap.getD_put_self _ _ _ _
theorem State.updHead_other (s : State) {h m : Nat} (g : HeadSt → HeadSt) (hm : m ≠ h) : (s.updHead h g).headAt m = s.headAt m :=
  NMap.getD_put_other _ _ _ hm
theorem State.headAt_emit (s : State) (o : Out) (h : Nat) : (s.emit o).headAt h = s.headAt h := rfl
theorem State.flightOver_head (s : State) (h : Head) :
    s.flightOver (pHEAD h) = if s.lineRuns (h / 16) || s.headFlight h then s else s.headDue h := by
  unfold State.flightOver
  rw [blkOf_head h h.isLt]
/-- Nothing more happens while a line is in flight, or where no fence waits for it. -/
theorem State.flightOver_same {s : State} {h : Head} (hl : landed s h ∨ (s.headAt h).ready ≠ []) : s.flightOver (pHEAD h) = s := by
  rw [s.flightOver_head]
  split
  · rfl
  · next hno =>
    rw [Bool.or_eq_true, not_or, Bool.not_eq_true, Bool.not_eq_true, State.headFlight, Bool.or_eq_false_iff] at hno
    obtain ⟨hline, -, hready⟩ := hno
    have hdue : (s.headAt h).fenceDue = none := by
      rcases hl with (hl | hl) | hl
      · exact hl
      · rw [hl] at hline
        cases hline
      · cases hr : (s.headAt h).ready with
        | nil => exact absurd hr hl
        | cons a l =>
          rw [hr] at hready
          cases hready
    unfold State.headDue
    rw [hdue]
theorem State.fenceMark_reason (s : State) (p reason : Nat) : (s.fenceMark p reason).fenced p = true ∧
    (s.fenceMark p reason).get p R.PG_FENCE_REASON = reason % 2 ^ R.PG_FENCE_REASON.w := by
  have hg : ∀ f, (s.fenceMark p reason).get p f = (s.fenceFlags p reason).get p f := fun _ => rfl
  have h1 : (s.fenceMark p reason).get p R.PG_FENCE_FENCED = 1 := by
    rw [hg]
    unfold State.fenceFlags
    rw [State.get_incSat_field _ _ (by decide), State.get_set_field _ _ _ (by decide), State.get_set_self]
    rfl
  refine ⟨by rw [State.fenced, State.flag, h1]; rfl, ?_⟩
  rw [hg]
  unfold State.fenceFlags
  rw [State.get_incSat_field _ _ (by decide), State.get_set_self]
/-- What a fence that waited for the line in flight leaves. -/
theorem State.headDue_spec (s : State) (h : Nat) {t : State} (ht : s.headDue h = t) :
    (t.headAt h).cur = (s.headAt h).cur ∧ (t.headAt h).ready = (s.headAt h).ready ∧ (t.headAt h).afterFire = (s.headAt h).afterFire ∧
    (∀ m, m ≠ h → t.headAt m = s.headAt m) ∧ t.outs = s.outs ∧
    t.get (pHEAD h) R.HEAD_LATE_CNT = s.get (pHEAD h) R.HEAD_LATE_CNT ∧
    (bit (s.get (pHEAD h) R.PG_IRQ_RAW) 6 = true → bit (t.get (pHEAD h) R.PG_IRQ_RAW) 6 = true) ∧
    ∀ r, (s.headAt h).fenceDue = some r → s.fenced (pHEAD h) = false → t.fenced (pHEAD h) = true ∧
      t.get (pHEAD h) R.PG_FENCE_REASON = r % 2 ^ R.PG_FENCE_REASON.w ∧ (t.headAt h).fenceDue = none := by
  unfold State.headDue at ht
  split at ht
  · next r hr =>
    split at ht
    · next hf =>
      subst ht
      exact ⟨rfl, rfl, rfl, fun _ _ => rfl, rfl, rfl, id, fun _ _ h => by rw [hf] at h; cases h⟩
    · obtain ⟨f1, f2⟩ := s.fenceMark_reason (pHEAD h) r
      have f3 : (s.fenceMark (pHEAD h) r).get (pHEAD h) R.HEAD_LATE_CNT = s.get (pHEAD h) R.HEAD_LATE_CNT := s.fenceMark_field _ _ (by decide)
      have f4 := s.fenceMark_bit (pHEAD h) r (i := 6) (by decide)
      obtain ⟨-, rg, w, m, f5⟩ := s.fenceMark_frame (pHEAD h) r
      generalize s.fenceMark (pHEAD h) r = u at f1 f2 f3 f4 f5 ht
      have hat : u.headAt = s.headAt := by
        rw [f5]
        rfl
      have hget : ∀ f : Fld, f.id ≠ R.HEAD_FENCE_LINE.id → t.get (pHEAD h) f = u.get (pHEAD h) f := fun f hf => by
        rw [← ht]
        exact State.get_set_field _ _ _ hf
      have hself : t.headAt h = { u.headAt h with lostCode := some r, judge := false, hotNow := false, fenceDue := none } := by
        rw [← ht]
        exact State.updHead_self _ _ _
      refine ⟨by rw [hself, hat], by rw [hself, hat], by rw [hself, hat], fun n hn => ?_, ?_, (hget _ (by decide)).trans f3,
        fun hb => by rw [hget _ (by decide)]; exact f4 hb, fun r' hr' _ => ?_⟩
      · rw [← ht, ← hat]
        exact State.updHead_other _ _ hn
      · rw [← ht]
        change u.outs = s.outs
        rw [f5]
      · cases hr.symm.trans hr'
        refine ⟨(congrArg (· == 1) (hget _ (by decide))).trans f1, (hget _ (by decide)).trans f2, by rw [hself]⟩
  · next hr =>
    subst ht
    exact ⟨rfl, rfl, rfl, fun _ _ => rfl, rfl, rfl, id, fun _ h => by rw [hr] at h; cases h⟩
theorem State.flightOver_spec (s : State) (h : Head) {t : State} (ht : s.flightOver (pHEAD h) = t) :
    (t.headAt h).cur = (s.headAt h).cur ∧ (t.headAt h).ready = (s.headAt h).ready ∧ (t.headAt h).afterFire = (s.headAt h).afterFire ∧
    (∀ m, m ≠ h.val → t.headAt m = s.headAt m) ∧ t.outs = s.outs ∧
    t.get (pHEAD h) R.HEAD_LATE_CNT = s.get (pHEAD h) R.HEAD_LATE_CNT ∧
    (bit (s.get (pHEAD h) R.PG_IRQ_RAW) 6 = true → bit (t.get (pHEAD h) R.PG_IRQ_RAW) 6 = true) ∧ landsFenced s t h := by
  rw [s.flightOver_head] at ht
  split at ht
  · next hno =>
    subst ht
    refine ⟨rfl, rfl, rfl, fun _ _ => rfl, rfl, rfl, id, fun r _ hline _ hready hcur => ?_⟩
    rw [State.headFlight, hready, hcur, hline] at hno
    cases hno
  · obtain ⟨h1, h2, h3, h4, h5, h6, h7, h8⟩ := s.headDue_spec h ht
    exact ⟨h1, h2, h3, h4, h5, h6, h7, fun r hr _ hf _ _ => h8 r hr hf⟩
/-- What was kept until the line landed decides on the fence. -/
theorem landsFenced_of {s u t : State} {h : Nat} (hdue : (u.headAt h).fenceDue = (s.headAt h).fenceDue) (hw : u.working = s.working)
    (hf : u.fenced (pHEAD h) = s.fenced (pHEAD h)) (hl : landsFenced u t h) : landsFenced s t h :=
  fun r h1 h2 h3 => hl r (hdue.trans h1) ((congrFun (State.lineRuns_congr hw) _).trans h2) (hf.trans h3)
theorem landed_of {s u : State} {h : Nat} (hdue : (u.headAt h).fenceDue = (s.headAt h).fenceDue) (hw : u.working = s.working)
    (hl : landed s h) : landed u h :=
  hl.imp hdue.trans fun k => (congrFun (State.lineRuns_congr hw) _).trans k

/-! ### The commands -/

/-- A frame or a FIRE that is lost, or was cut, is done with. -/
theorem State.flightOver_lost (s : State) (h : Head) {g : HeadSt → HeadSt} (hg : (g (s.headAt h)).fenceDue = (s.headAt h).fenceDue)
    (hcur : (g (s.headAt h)).cur = none) {t : State} (ht : (s.updHead h g).flightOver (pHEAD h) = t) :
    (landed s h ∨ (g (s.headAt h)).ready ≠ [] → t = s.updHead h g) ∧ (t.headAt h).cur = none ∧
    (t.headAt h).ready = (g (s.headAt h)).ready ∧ t.outs = s.outs ∧ landsFenced s t h := by
  have hself := s.updHead_self h g
  have hdue : ((s.updHead h g).headAt h).fenceDue = (s.headAt h).fenceDue := by rw [hself, hg]
  refine ⟨fun hl => ?_, ?_⟩
  · rw [← ht]
    exact State.flightOver_same (hl.imp (landed_of hdue rfl) fun hr => by rw [hself]; exact hr)
  · obtain ⟨h1, h2, -, -, h5, -, -, h8⟩ := (s.updHead h g).flightOver_spec h ht
    exact ⟨by rw [h1, hself, hcur], by rw [h2, hself], h5, landsFenced_of hdue rfl rfl h8⟩
theorem exec_frameStart {s : State} {h : Head} {r : Sending} {rest : List Sending} (hc : (s.headAt h).cur = none)
    (hr : (s.headAt h).ready = r :: rest) : exec (.frameStart h) s = .next (if s.tick < s.startTick h r then s
      else if !s.laneSends h then (s.updHead h fun x => { x with ready := rest }).flightOver (pHEAD h)
      else (s.updHead h fun x => { x with ready := rest, cur := some { r with start := s.startTick h r, claim := s.claimSent r.claim } }).emit
        (.block h (ctlBlock 0x33 (0x01 :: leBytes 2 291)))) := by
  change Host.Outcome.next _ = _
  dsimp only
  rw [hc, hr]
theorem exec_frameStart_idle {s : State} {h : Head} (hi : (s.headAt h).cur ≠ none ∨ (s.headAt h).ready = []) :
    exec (.frameStart h) s = .next s := by
  change Host.Outcome.next _ = _
  dsimp only
  cases hc : (s.headAt h).cur with
  | some c => rfl
  | none =>
    rw [hc] at hi
    rw [hi.resolve_left fun h => h rfl]
/-- HEAD_SENT and HEAD_DIGEST take a line and its digest. -/
def State.frameNoted (s : State) (p line digest : Nat) : State := (s.set p R.HEAD_SENT line).set p R.HEAD_DIGEST digest
theorem State.frameNoted_spec (s : State) (p line digest : Nat) {u : State} (hu : s.frameNoted p line digest = u) :
    u.get p R.HEAD_SENT = line % 2 ^ 32 ∧ u.get p R.HEAD_DIGEST = digest % 2 ^ 32 ∧
    s.regsBut u [(p, R.HEAD_SENT), (p, R.HEAD_DIGEST)] ∧ s.wrote u := by
  subst hu
  unfold State.frameNoted
  refine ⟨?_, State.get_set_self _ _ _ _, ?_, (s.wrote_set p R.HEAD_SENT line).trans (State.wrote_set _ p R.HEAD_DIGEST digest)⟩
  · rw [State.get_set_field _ _ _ (by decide), State.get_set_self]
    rfl
  · exact State.regsBut_set (p := p) (f := R.HEAD_DIGEST) (State.regsBut_set (p := p) (f := R.HEAD_SENT) (State.regsBut_refl s _) _
      (by simp)) _ (by simp)
/-- END and the frame go out. -/
def State.frameOut (s : State) (h : Nat) (c : Sending) : State :=
  (((s.frameNoted (pHEAD h) c.tl.line (c.tl.digest (h / 16) (h % 16))).updHead h fun x => { x with cur := some { c with ended := true } }).emit
    (.frame h (c.tl.frame (h / 16) (h % 16) c.claim))).emit (.block h (ctlBlock 0x87 []))
theorem State.frameOut_spec (s : State) (h : Nat) (c : Sending) {t : State} (ht : s.frameOut h c = t) :
    t.get (pHEAD h) R.HEAD_SENT = c.tl.line % 2 ^ 32 ∧
    t.get (pHEAD h) R.HEAD_DIGEST = c.tl.digest (h / 16) (h % 16) % 2 ^ 32 ∧
    t.headAt h = { s.headAt h with cur := some { c with ended := true } } ∧ (∀ m, m ≠ h → t.headAt m = s.headAt m) ∧
    t.outs = .block h [0x87, 0, 0, 0, 0, 0, 0, 0] :: .frame h (c.tl.frame (h / 16) (h % 16) c.claim) :: s.outs ∧
    (c.tl.codes.length = 6144 → (c.tl.frame (h / 16) (h % 16) c.claim).length = 2328) ∧
    s.regsBut t [(pHEAD h, R.HEAD_SENT), (pHEAD h, R.HEAD_DIGEST)] ∧
    ({ t with regs := s.regs, head := s.head, outs := s.outs } : State) = s := by
  unfold State.frameOut at ht
  have hnoted := fun {u} => s.frameNoted_spec (pHEAD h) c.tl.line (c.tl.digest (h / 16) (h % 16)) (u := u)
  have hlength : c.tl.codes.length = 6144 → (c.tl.frame (h / 16) (h % 16) c.claim).length = 2328 := fun hk => TileLine.frame_length hk _ _ _
  have hblock : ctlBlock 0x87 [] = [0x87, 0, 0, 0, 0, 0, 0, 0] := by decide
  generalize ctlBlock 0x87 [] = block at hblock ht
  generalize c.tl.frame (h / 16) (h % 16) c.claim = frame at hlength ht ⊢
  generalize c.tl.digest (h / 16) (h % 16) = digest at hnoted ht ⊢
  generalize s.frameNoted (pHEAD h) c.tl.line digest = u at hnoted ht
  obtain ⟨h1, h2, h3, r, h4⟩ := hnoted rfl
  have hat : u.headAt = s.headAt := by
    rw [h4]
    rfl
  have houts : u.outs = s.outs := by rw [h4]
  have hrest : ({ u with regs := s.regs } : State) = s := by rw [h4]
  clear h4
  subst hblock ht
  refine ⟨h1, h2, ?_, fun m hm => ?_, ?_, hlength, h3, ?_⟩
  · rw [State.headAt_emit, State.headAt_emit, State.updHead_self, hat]
  · rw [State.headAt_emit, State.headAt_emit, State.updHead_other _ _ hm, hat]
  · rw [← houts]
    rfl
  · exact congrArg (fun x : State => ({ x with head := s.head, outs := s.outs } : State)) hrest
theorem exec_frameEnd {s : State} {h : Head} {c : Sending} (hc : (s.headAt h).cur = some c) :
    exec (.frameEnd h) s = .next (if c.ended || s.tick < c.start + 876 then s
      else if !s.laneSends h then (s.updHead h fun x => { x with cur := none }).flightOver (pHEAD h)
      else s.frameOut h c) := by
  change Host.Outcome.next _ = _
  dsimp only
  rw [hc]
  rfl
/-- The state in which a FIRE goes out: a late one is counted first. -/
def State.fireNoted (s : State) (h : Nat) (c : Sending) : State :=
  if c.fireTick < c.endTick then (s.incSat (pHEAD h) R.HEAD_LATE_CNT).cause (pHEAD h) 6 else s
/-- The FIRE of a frame goes out. -/
def State.fireOut (s : State) (h : Nat) (c : Sending) : State :=
  ((s.updHead h fun x => { x with cur := none, afterFire := max c.fireTick c.endTick + 3 }).emit
    (.fire h (fireBlock h (s.claimSent c.claim) c.tl.line))).flightOver (pHEAD h)
theorem exec_fireSend {s : State} {h : Head} {c : Sending} (hc : (s.headAt h).cur = some c) :
    exec (.fireSend h) s = .next (if !c.ended then s
      else if c.noFire || !s.laneSends h then (s.updHead h fun x => { x with cur := none }).flightOver (pHEAD h)
      else if s.tick < max c.fireTick c.endTick then s
      else (s.fireNoted h c).fireOut h c) := by
  change Host.Outcome.next _ = _
  dsimp only
  rw [hc]
  dsimp only
  unfold State.fireNoted
  by_cases hl : c.fireTick < c.endTick <;> simp only [hl, decide_true, decide_false, if_true, Bool.false_eq_true, if_false] <;> rfl
/-- A FIRE after END at its tap is counted and raises cause 6. -/
theorem State.fireNoted_spec (s : State) (h : Head) (c : Sending) {t : State} (ht : s.fireNoted h c = t) :
    (c.fireTick < c.endTick → bit (t.get (pHEAD h) R.PG_IRQ_RAW) 6 = true ∧
      t.get (pHEAD h) R.HEAD_LATE_CNT = min (s.get (pHEAD h) R.HEAD_LATE_CNT + 1) (2 ^ R.HEAD_LATE_CNT.w - 1)) ∧
    (¬ c.fireTick < c.endTick → t = s) ∧ s.regsBut t [(pHEAD h, R.HEAD_LATE_CNT), (pHEAD h, R.PG_IRQ_RAW)] ∧ s.reports t := by
  unfold State.fireNoted at ht
  split at ht
  · next hl =>
    subst ht
    have hfz : (s.incSat (pHEAD h) R.HEAD_LATE_CNT).frozen (pHEAD h) = false := by
      unfold State.frozen
      rw [blkOf_head h h.isLt, Bool.and_false]
    refine ⟨fun _ => ⟨State.bit_cause _ (by decide) hfz, ?_⟩, fun h => absurd hl h, ?_, ?_⟩
    · rw [State.get_cause_field _ _ _ (by decide), State.get_incSat_self]
    · exact State.regsBut_cause (State.regsBut_incSat (State.regsBut_refl s _) (by simp)) _ (by simp)
    · exact (s.reports_incSat _ _).trans (State.reports_cause _ _ _)
  · next hl =>
    subst ht
    exact ⟨fun h => absurd h hl, fun _ => rfl, State.regsBut_refl s _, ⟨_, _, rfl⟩⟩
/-- What a FIRE that goes out leaves. -/
theorem State.fire_spec (s : State) {h : Head} {c : Sending} {t : State}
    (ht : (s.fireNoted h c).fireOut h c = t) :
    landsFenced s t h ∧ t.outs = .fire h (fireBlock h (if s.tapHolds then s.straps.unitId.toNat else c.claim) c.tl.line) :: s.outs ∧
    (t.headAt h).cur = none ∧ (t.headAt h).ready = (s.headAt h).ready ∧ (t.headAt h).afterFire = max c.fireTick c.endTick + 3 ∧
    (∀ m, m ≠ h.val → t.headAt m = s.headAt m) ∧
    (c.fireTick < c.endTick → bit (t.get (pHEAD h) R.PG_IRQ_RAW) 6 = true ∧
      t.get (pHEAD h) R.HEAD_LATE_CNT = min (s.get (pHEAD h) R.HEAD_LATE_CNT + 1) (2 ^ R.HEAD_LATE_CNT.w - 1)) ∧
    (landed s h ∨ (s.headAt h).ready ≠ [] →
      t.headAt h = { s.headAt h with cur := none, afterFire := max c.fireTick c.endTick + 3 } ∧
      (c.endTick ≤ c.fireTick → s.regsBut t []) ∧ s.regsBut t [(pHEAD h, R.HEAD_LATE_CNT), (pHEAD h, R.PG_IRQ_RAW)] ∧
      ({ t with regs := s.regs, head := s.head, outs := s.outs, host := s.host } : State) = s) := by
  have hlate := fun {u} => s.fireNoted_spec h c (t := u)
  generalize s.fireNoted h c = u at ht hlate
  obtain ⟨l1, l2, l3, rg, w, l4⟩ := hlate rfl
  have hat : u.headAt = s.headAt := by
    rw [l4]
    rfl
  have houts : u.outs = s.outs := by rw [l4]
  have hwork : u.working = s.working := by
    refine State.working_congr (by rw [l4]) (by rw [l4]) fun f hf p => l3 _ _ fun e he => ?_
    simp only [List.mem_cons, List.not_mem_nil, or_false] at hf he
    rcases hf with rfl | rfl | rfl <;> rcases he with rfl | rfl <;> refine Or.inr ?_ <;> dsimp only <;> decide
  have hfen : u.fenced (pHEAD h) = s.fenced (pHEAD h) := congrArg (· == 1) (l3.field (by simp only [List.forall_mem_cons]; decide) _)
  -- the head's own state before the wait for the line in flight is judged
  have hself := u.updHead_self h fun x => { x with cur := none, afterFire := max c.fireTick c.endTick + 3 }
  have hoth := fun m (hm : m ≠ h.val) => u.updHead_other (fun x => { x with cur := none, afterFire := max c.fireTick c.endTick + 3 }) hm
  have hv : ∃ v, ((u.updHead h fun x => { x with cur := none, afterFire := max c.fireTick c.endTick + 3 }).emit
      (.fire h (fireBlock h (u.claimSent c.claim) c.tl.line))) = v ∧ v.regs = u.regs ∧
      v.headAt h = { s.headAt h with cur := none, afterFire := max c.fireTick c.endTick + 3 } ∧
      (∀ m, m ≠ h.val → v.headAt m = s.headAt m) ∧
      v.outs = .fire h (fireBlock h (if s.tapHolds then s.straps.unitId.toNat else c.claim) c.tl.line) :: s.outs ∧
      v.working = s.working ∧ ({ v with head := s.head, outs := s.outs } : State) = { u with head := s.head, outs := s.outs } := by
    refine ⟨_, rfl, rfl, ?_, fun m hm => ?_, ?_, ?_, rfl⟩
    · exact hself.trans (by rw [hat])
    · exact (hoth m hm).trans (by rw [hat])
    · change _ :: u.outs = _
      rw [houts]
      unfold State.claimSent State.tapHolds
      rw [l4]
    · rw [← hwork]
      rfl
  obtain ⟨v, hveq, v1, v2, v3, v4, v5, v6⟩ := hv
  unfold State.fireOut at ht
  rw [hveq] at ht
  have hdue : (v.headAt h).fenceDue = (s.headAt h).fenceDue := by rw [v2]
  obtain ⟨f1, f2, f3, f4, f5, f6, f7, f8⟩ := v.flightOver_spec h ht
  refine ⟨landsFenced_of hdue v5 ((congrArg (· == 1) (State.get_congr v1 _ _)).trans hfen) f8, f5.trans v4, by rw [f1, v2], by rw [f2, v2],
    by rw [f3, v2], fun m hm => (f4 m hm).trans (v3 m hm), fun hl => ?_, fun hl => ?_⟩
  · obtain ⟨b1, b2⟩ := l1 hl
    exact ⟨f7 (by rw [State.get_congr v1]; exact b1), f6.trans ((State.get_congr v1 _ _).trans b2)⟩
  · have hsame : t = v := by
      rw [← ht]
      exact State.flightOver_same (hl.imp (landed_of hdue v5) fun hr => by rw [v2]; exact hr)
    rw [hsame]
    refine ⟨v2, fun hl => ?_, State.regsBut_of_regs l3 v1, ?_⟩
    · rw [l2 (by omega)] at v1
      exact State.regsBut_of_regs (State.regsBut_refl s _) v1
    · have h6 := congrArg (fun x : State => ({ x with regs := s.regs, host := s.host } : State)) v6
      refine Eq.trans h6 ?_
      rw [l4]
/-- Settles O33: START, END and FIRE at their taps, and what follows the line in flight. -/
theorem framesAndFire : Obligations.FramesAndFire := by
  refine ⟨fun s h => ⟨fun hi => exec_frameStart_idle hi, fun r rest hc hr => ?_⟩, fun s h => ⟨fun hc => ?_, fun c hc => ?_⟩,
    fun s h => ⟨fun hc => ?_, fun c hc => ?_⟩⟩
  · rw [exec_frameStart hc hr]
    refine ⟨fun hb => by rw [if_pos hb], fun hb hl => ?_, fun hb hl => ?_⟩
    · rw [if_neg (by omega), hl, if_pos (by decide)]
      obtain ⟨h1, h2, h3, -, h5⟩ := s.flightOver_lost h (g := fun x => { x with ready := rest }) rfl hc rfl
      exact ⟨fun k => congrArg Host.Outcome.next (h1 k), _, rfl, h3, h2, h5⟩
    · rw [if_neg (by omega), hl, if_neg (by decide)]
      refine ⟨_, rfl, ?_, fun m hm => ?_, rfl, rfl⟩
      · rw [State.headAt_emit, State.updHead_self]
        rfl
      · rw [State.headAt_emit, State.updHead_other _ _ hm]
  · change Host.Outcome.next _ = _
    dsimp only
    rw [hc]
  · rw [exec_frameEnd hc]
    refine ⟨fun hb => by rw [if_pos (by simpa using hb)], fun he hb hl => ?_, fun he hb hl => ?_⟩
    · rw [he, if_neg (by simpa using hb), hl, if_pos (by decide)]
      obtain ⟨h1, h2, h3, -, h5⟩ := s.flightOver_lost h (g := fun x => { x with cur := none }) rfl rfl rfl
      exact ⟨fun k => congrArg Host.Outcome.next (h1 k), _, rfl, h2, h3, h5⟩
    · rw [he, if_neg (by simpa using hb), hl, if_neg (by decide)]
      exact ⟨_, rfl, s.frameOut_spec h c rfl⟩
  · change Host.Outcome.next _ = _
    dsimp only
    rw [hc]
  · rw [exec_fireSend hc]
    refine ⟨fun he => by rw [he, if_pos (by decide)], fun he hl => ?_, fun he hn hl hb => ?_, fun he hn hl hb => ?_⟩
    · rw [he, if_neg (by decide), if_pos (by simpa using hl)]
      obtain ⟨h1, h2, h3, h4, h5⟩ := s.flightOver_lost h (g := fun x => { x with cur := none }) rfl rfl rfl
      exact ⟨fun k => congrArg Host.Outcome.next (h1 k), _, rfl, h2, h3, h4, h5⟩
    · rw [he, hn, hl, if_neg (by decide), if_neg (by decide), if_pos hb]
    · rw [he, hn, hl, if_neg (by decide), if_neg (by decide), if_neg (by omega)]
      exact ⟨_, rfl, s.fire_spec rfl⟩
end Sys2Proof.Machine
end

section
/-! ### Fields of the same place with another reset value (O30, O55): the cases that fail

A state may list a register at the value that its field reads at reset, which no write leaves there: a write of that value drops the entry.
`State.regsBut` speaks of every `Fld`, and a field of the same place with another reset value reads the entry before and its own reset
value after. -/
open Sys2Proof Sys2Proof.Machine
namespace Sys2Proof.Machine

/-- A device that serves the host and whose register map lists one field at its reset value. -/
def listedAtReset (p : Nat) (f : Fld) : State :=
  { State.reset with
    inReset := false, heldReset := false, heldClock := false, pll := true, host := { ready := true }, regs := [((p, f.id), rst p f)] }
/-- A field of the same place that reads another value at reset. -/
def otherReset (f : Fld) : Fld := { f with rst := f.rst + 1 }
/-- What a command leaves at such a field. -/
def readAfter (c : Instr) (s : State) (p : Nat) (f : Fld) : Option Nat :=
  match exec c s with
  | .next t => some (t.get p f)
  | _ => none
/-- A command that changes what a field reads does not keep every register. -/
theorem not_regsBut_nil {c : Instr} {s t : State} (p : Nat) (f : Fld) (hexec : exec c s = .next t)
    (hchanged : readAfter c s p f ≠ some (s.get p f)) : ¬ s.regsBut t [] := by
  intro hsame
  refine hchanged ?_
  simp only [readAfter, hexec, hsame p f (by simp)]

theorem forceKey_drops : readAfter (.forceKey 0) (listedAtReset (pENC 0) R.ENC_CTRL_KEY_INT) (pENC 0) (otherReset R.ENC_CTRL_KEY_INT) =
    some 0x41 ∧ (listedAtReset (pENC 0) R.ENC_CTRL_KEY_INT).get (pENC 0) (otherReset R.ENC_CTRL_KEY_INT) = 0x40 := by decide +kernel
theorem forceKey_accepted : (listedAtReset (pENC 0) R.ENC_CTRL_KEY_INT).accepts (pENC (0 : Bar)) 0x40
    (256 * (listedAtReset (pENC 0) R.ENC_CTRL_KEY_INT).get (pENC (0 : Bar)) R.ENC_CTRL_KEY_INT + 1) ∧
    (listedAtReset (pENC 0) R.ENC_CTRL_KEY_INT).get (pENC (0 : Bar)) R.ENC_CTRL_KEY_INT < 256 := by
  unfold State.accepts
  decide +kernel
/-- Refutes O30: FORCE_KEY writes KEY_INT again, which drops an entry that lists it at its reset value, and the first clause asks that
every field, one of the same place with another reset value too, reads as before. -/
theorem not_pipeCommandsTakeEffect : ¬ Obligations.PipeCommandsTakeEffect := by
  unfold Obligations.PipeCommandsTakeEffect
  rintro ⟨hforce, -⟩
  obtain ⟨t, ht, -, -, hregs, -⟩ := hforce _ 0 forceKey_accepted.1 forceKey_accepted.2
  obtain ⟨hafter, hbefore⟩ := forceKey_drops
  refine not_regsBut_nil (pENC 0) (otherReset R.ENC_CTRL_KEY_INT) ht ?_ hregs
  rw [hafter, hbefore]
  decide

theorem scrubStop_drops : readAfter .scrubStop (listedAtReset pSCRUB R.SCRUB_CTRL_MEM) pSCRUB (otherReset R.SCRUB_CTRL_MEM) = some 1 ∧
    (listedAtReset pSCRUB R.SCRUB_CTRL_MEM).get pSCRUB (otherReset R.SCRUB_CTRL_MEM) = 0 := by decide +kernel
theorem scrubStop_accepted : (listedAtReset pSCRUB R.SCRUB_CTRL_MEM).accepts pSCRUB 0x40
    (2 ^ 30 + (listedAtReset pSCRUB R.SCRUB_CTRL_MEM).get pSCRUB R.SCRUB_CTRL_MEM) ∧
    (listedAtReset pSCRUB R.SCRUB_CTRL_MEM).get pSCRUB R.SCRUB_CTRL_MEM < 2 := by
  unfold State.accepts
  decide +kernel
/-- Refutes O55: STOP with no pass in progress writes MEM again, which drops an entry that lists it at its reset value, and the clause asks
that every field, one of the same place with another reset value too, reads as before. -/
theorem not_migrationAndScrubbing : ¬ Obligations.MigrationAndScrubbing := by
  unfold Obligations.MigrationAndScrubbing
  intro h
  obtain ⟨-, -, -, -, -, hstop, -⟩ := h (listedAtReset pSCRUB R.SCRUB_CTRL_MEM) 0
  obtain ⟨t, ht, hregs, -⟩ := (hstop scrubStop_accepted.1 scrubStop_accepted.2).2 rfl
  obtain ⟨hafter, hbefore⟩ := scrubStop_drops
  refine not_regsBut_nil pSCRUB (otherReset R.SCRUB_CTRL_MEM) ht ?_ hregs
  rw [hafter, hbefore]
  decide

end Sys2Proof.Machine
end

section
/-! ### The stretch window's gain and the line adjustment (O26) -/
open Sys2Proof Sys2Proof.Machine
namespace Sys2Proof.Machine

/-! ### The close of a stretch window (R156) -/

/-- The measure of a window shows, and a clipped gain is counted. -/
def State.gainMeasured (s : State) (b meas : Nat) (clipped : Bool) : State :=
  let t := (s.set (pLINE b) R.LINE_STR_MEAS meas).tickFresh
  if clipped then (t.incSat (pLINE b) R.LINE_STR_CLIP_CNT).cause (pLINE b) 6 else t
theorem State.gainMeasured_spec (s : State) (b meas : Nat) (clipped : Bool) (hf : s.fenced (pLINE b) = false) {t : State}
    (ht : s.gainMeasured b meas clipped = t) :
    t.get (pLINE b) R.LINE_STR_MEAS = meas % 2 ^ 32 ∧
    (clipped = true → bit (t.get (pLINE b) R.PG_IRQ_RAW) 6 = true ∧
      t.get (pLINE b) R.LINE_STR_CLIP_CNT = min (s.get (pLINE b) R.LINE_STR_CLIP_CNT + 1) (2 ^ R.LINE_STR_CLIP_CNT.w - 1)) ∧
    (clipped = false → t.get (pLINE b) R.LINE_STR_CLIP_CNT = s.get (pLINE b) R.LINE_STR_CLIP_CNT) ∧
    s.regsBut t [(pLINE b, R.LINE_STR_MEAS), (pLINE b, R.LINE_STR_CLIP_CNT), (pLINE b, R.PG_IRQ_RAW)] ∧
    ∃ r w, t = { s with regs := r, fresh := s.fresh + 1, host := { s.host with waiting := w } } := by
  have hset : s.regsBut (s.set (pLINE b) R.LINE_STR_MEAS meas).tickFresh
      [(pLINE b, R.LINE_STR_MEAS), (pLINE b, R.LINE_STR_CLIP_CNT), (pLINE b, R.PG_IRQ_RAW)] :=
    State.regsBut_of_regs (State.regsBut_set (s.regsBut_refl _) (p := pLINE b) (f := R.LINE_STR_MEAS) meas (by simp)) rfl
  have hmeas : (s.set (pLINE b) R.LINE_STR_MEAS meas).tickFresh.get (pLINE b) R.LINE_STR_MEAS = meas % 2 ^ 32 := s.get_set_self _ _ _
  have hclip : (s.set (pLINE b) R.LINE_STR_MEAS meas).tickFresh.get (pLINE b) R.LINE_STR_CLIP_CNT = s.get (pLINE b) R.LINE_STR_CLIP_CNT :=
    s.get_set_field _ _ (by decide)
  have hfen : (s.set (pLINE b) R.LINE_STR_MEAS meas).tickFresh.get (pLINE b) R.PG_FENCE_FENCED = s.get (pLINE b) R.PG_FENCE_FENCED :=
    s.get_set_field _ _ (by decide)
  have hshape : ∃ r, (s.set (pLINE b) R.LINE_STR_MEAS meas).tickFresh = { s with regs := r, fresh := s.fresh + 1 } := ⟨_, rfl⟩
  subst ht
  unfold State.gainMeasured
  dsimp only
  generalize (s.set (pLINE b) R.LINE_STR_MEAS meas).tickFresh = u at *
  obtain ⟨r, rfl⟩ := hshape
  cases clipped with
  | false =>
    rw [if_neg (by simp)]
    exact ⟨hmeas, by simp, fun _ => hclip, hset, r, s.host.waiting, rfl⟩
  | true =>
    rw [if_pos rfl]
    generalize hu : ({ s with regs := r, fresh := s.fresh + 1 } : State) = u at *
    obtain ⟨r', w, hrep⟩ := (u.reports_incSat (pLINE b) R.LINE_STR_CLIP_CNT).trans (State.reports_cause _ (pLINE b) 6)
    refine ⟨?_, fun _ => ⟨?_, ?_⟩, by simp, ?_, r', w, ?_⟩
    · rw [State.get_cause_field _ _ _ (by decide), State.get_incSat_field _ _ (by decide), hmeas]
    · refine State.bit_cause _ (by decide) ?_
      rw [State.frozen_congr ((State.get_incSat_field _ _ (by decide)).trans hfen)]
      exact State.frozen_of_unfenced hf
    · rw [State.get_cause_field _ _ _ (by decide), State.get_incSat_self, hclip]
    · exact State.regsBut_cause (State.regsBut_incSat hset (by simp)) _ (by simp)
    · rw [hrep, ← hu]
theorem State.exec_stretchWindowClose_closed (s : State) (b : Bar) {e : Int} {r : List Int} (hdue : (s.lineAt b).strDue = e :: r)
    (h : s.lineRuns b = false ∨ s.strRuns b = false ∨ ((s.lineAt b).strSkip = false ∧
      (s.get (pLINE b) R.LINE_STR_NOM = 0 ∨ s.fenced (pPOS (2 + b)) = true))) :
    exec (.stretchWindowClose b) s = .next (s.updLine b fun l => { l with strDue := r }) := by
  change execStretchWindowClose b s = _
  unfold execStretchWindowClose
  simp only [hdue]
  congr 1
  by_cases hrun : s.lineRuns b = true ∧ s.strRuns b = true
  · obtain ⟨hskip, hstop⟩ : (s.lineAt b).strSkip = false ∧ (s.get (pLINE b) R.LINE_STR_NOM = 0 ∨ s.fenced (pPOS (2 + b)) = true) := by
      simpa [hrun.1, hrun.2] using h
    rw [if_neg (by simp [hrun]), if_neg (by simp [hskip]), if_pos (by simpa using hstop)]
  · rw [if_pos (by simpa [Classical.or_iff_not_imp_left] using hrun)]
theorem State.exec_stretchWindowClose_skipped (s : State) (b : Bar) {e : Int} {r : List Int} (hdue : (s.lineAt b).strDue = e :: r)
    (hrun : s.lineRuns b = true) (hstr : s.strRuns b = true) (hskip : (s.lineAt b).strSkip = true) :
    exec (.stretchWindowClose b) s =
      .next ((s.updLine b fun l => { l with strDue := r }).updLine b fun l => { l with strSkip := false }) := by
  change execStretchWindowClose b s = _
  unfold execStretchWindowClose
  simp only [hdue]
  rw [if_neg (by simp [hrun, hstr]), if_pos hskip]
/-- Leading and the safe line rest on PAIR's state and on the line that each unit has issued. -/
theorem State.leads_congr {s t : State} (hpair : t.pair = s.pair) (hstraps : t.straps = s.straps) (hs : t.srsts = s.srsts)
    (hh : t.heldReset = s.heldReset) (h : ∀ f ∈ [R.PG_CTRL_EN, R.PG_FENCE_FENCED, R.THERM_STAT_SHUT, R.PAIR_STAT_STATE, R.PAIR_MARGIN,
      R.LINE_SEQ], ∀ p, t.get p f = s.get p f) : t.leads = s.leads ∧ t.safeLine = s.safeLine := by
  simp only [List.forall_mem_cons, List.not_mem_nil, false_imp_iff, implies_true, and_true] at h
  obtain ⟨hen, hfen, hshut, hstate, hmargin, hseq⟩ := h
  have hwork : t.working = s.working := State.working_congr hs hh (by simpa using ⟨hen, hfen, hshut⟩)
  constructor
  · have hps : t.pairState = s.pairState := by rw [State.pairState, hstraps, hstate]; rfl
    simp only [State.leads, State.crookUp, State.pairOn, hps, hpair, hstraps, hwork]
  · funext b
    simp only [State.safeLine, State.peerLine, State.pairMargin, hpair, hseq, hmargin]
/-- What the close of a window does with its gain: it is sent and kept for the safe line, left to the home unit, or taken. -/
def State.gainTaken (s t : State) (b : Nat) (g : Int) : State :=
  if s.leads then
    (t.updLine b fun l => { l with gainAt := l.gainAt ++ [(s.safeLine b, g)] }).crookCommand 0x15
      ([BitVec.ofNat 8 b] ++ zeros 3 ++ leBytes 4 (s.safeLine b) ++ leBytes 4 (uns 32 g))
  else if s.follows then t
  else t.set (pLINE b) R.LINE_GAIN (uns 32 g)
theorem State.exec_stretchWindowClose_measured (s : State) (b : Bar) {e : Int} {r : List Int} (hdue : (s.lineAt b).strDue = e :: r)
    (hrun : s.lineRuns b = true) (hstr : s.strRuns b = true) (hskip : (s.lineAt b).strSkip = false)
    (hnom : s.get (pLINE b) R.LINE_STR_NOM ≠ 0) (hpos : s.fenced (pPOS (2 + b)) = false) {g : Int × Int × Bool}
    (hg : g = gainAfter (s.gain b) e (max 10 (min 24 (s.get (pLINE b) R.LINE_STR_CFG_WEXP)))
      (s.get (pLINE b) R.LINE_STR_NOM) (s.get (pLINE b) R.LINE_STR_CFG_K) (s.get (pLINE b) R.LINE_STR_LIM)) :
    ∃ meas, (-(2 ^ 31) ≤ g.1 → g.1 < 2 ^ 31 → meas = uns 32 g.1) ∧ exec (.stretchWindowClose b) s =
      .next (s.gainTaken ((s.updLine b fun l => { l with strDue := r }).gainMeasured b meas g.2.2) b g.2.1) := by
  refine ⟨if -(2 ^ 31) ≤ g.1 ∧ g.1 < 2 ^ 31 then uns 32 g.1 else Config.strMeas s.fresh, fun h1 h2 => if_pos ⟨h1, h2⟩, ?_⟩
  change execStretchWindowClose b s = _
  unfold execStretchWindowClose
  simp only [hdue]
  rw [if_neg (by simp [hrun, hstr]), if_neg (by simp [hskip]), if_neg (by simp [hnom, hpos]), ← hg]
  rfl
theorem State.lineAt_updLine_self (s : State) (b : Nat) (g : LineSt → LineSt) : (s.updLine b g).lineAt b = g (s.lineAt b) :=
  NMap.getD_put_self _ _ _ _
theorem State.lineAt_updLine_other (s : State) {b m : Nat} (g : LineSt → LineSt) (h : m ≠ b) : (s.updLine b g).lineAt m = s.lineAt m :=
  NMap.getD_put_other _ _ _ h
theorem State.not_leads_of_follows {s : State} (h : s.follows = true) : s.leads = false := by
  simp only [State.follows, Bool.and_eq_true, Bool.not_eq_true'] at h
  simp [State.leads, h.1.1.2]
/-- The effect of a gain on a state that holds the measure. -/
theorem State.gainTaken_spec (s t : State) (b : Nat) (g : Int) {u : State} (hu : s.gainTaken t b g = u) :
    u.get (pLINE b) R.LINE_GAIN = (if s.leads = false ∧ s.follows = false then uns 32 g else t.get (pLINE b) R.LINE_GAIN) ∧
    t.regsBut u [(pLINE b, R.LINE_GAIN)] ∧ (u.lineAt b).strDue = (t.lineAt b).strDue ∧
    (u.lineAt b).gainAt = (if s.leads then (t.lineAt b).gainAt ++ [(s.safeLine b, g)] else (t.lineAt b).gainAt) ∧
    (∀ m, m ≠ b → u.lineAt m = t.lineAt m) ∧ (s.leads = false → u.pair = t.pair ∧ u.outs = t.outs) ∧
    ({ u with regs := t.regs, line := t.line, pair := t.pair, outs := t.outs } : State) = t := by
  subst hu
  unfold State.gainTaken
  by_cases hl : s.leads = true
  · rw [if_pos hl, if_neg (by simp [hl])]
    generalize hv : (t.updLine b fun l => { l with gainAt := l.gainAt ++ [(s.safeLine b, g)] }) = v
    have hself : v.lineAt b = { t.lineAt b with gainAt := (t.lineAt b).gainAt ++ [(s.safeLine b, g)] } := by
      rw [← hv]; exact State.lineAt_updLine_self _ _ _
    have hother : ∀ m, m ≠ b → v.lineAt m = t.lineAt m := fun m hm => by
      rw [← hv]; exact State.lineAt_updLine_other _ _ hm
    have hdue : (v.lineAt b).strDue = (t.lineAt b).strDue := by rw [hself]
    have hgain : (v.lineAt b).gainAt = (t.lineAt b).gainAt ++ [(s.safeLine b, g)] := by rw [hself]
    have hshape : ∃ l, v = { t with line := l } := ⟨_, hv.symm⟩
    obtain ⟨p, o, hcmd⟩ := v.crookCommand_shape 0x15 ([BitVec.ofNat 8 b] ++ zeros 3 ++ leBytes 4 (s.safeLine b) ++ leBytes 4 (uns 32 g))
    rw [hcmd]
    obtain ⟨l, rfl⟩ := hshape
    exact ⟨rfl, fun _ _ _ => rfl, hdue, by rw [if_pos hl]; exact hgain, hother,
      fun h => absurd hl (by simp [h]), rfl⟩
  · rw [if_neg hl]
    simp only [Bool.not_eq_true] at hl
    by_cases hf : s.follows = true
    · rw [if_pos hf, if_neg (by simp [hf]), if_neg (by simp [hl])]
      exact ⟨rfl, t.regsBut_refl _, rfl, rfl, fun _ _ => rfl, fun _ => ⟨rfl, rfl⟩, rfl⟩
    · rw [if_neg hf, if_pos ⟨hl, by simpa using hf⟩, if_neg (by simp [hl])]
      refine ⟨?_, State.regsBut_set (t.regsBut_refl _) _ (by simp), rfl, rfl, fun _ _ => rfl, fun _ => ⟨rfl, rfl⟩, rfl⟩
      rw [State.get_set_self]
      exact Nat.mod_eq_of_lt (uns_lt 32 g)

/-! ### A write of LINE_ADJ_CTRL (R154) -/

/-- No LINE page owns a shared resource (R51). -/
theorem State.settleClaims_line (s : State) {b : Nat} (hb : b < 8) (off : Nat) : s.settleClaims (pLINE b) off = s := by
  unfold State.settleClaims
  rw [List.filter_eq_nil_iff.2, List.foldl_nil]
  have hpage : ∀ o ∈ s.owners, o.page ≠ pLINE b := by
    simp only [State.owners, List.mem_append, List.mem_map, List.mem_flatMap, List.mem_cons, List.not_mem_nil, or_false]
    rintro o ((((((⟨k, -, rfl⟩ | ⟨k, -, rfl⟩) | rfl) | ⟨k, -, rfl⟩) | ⟨k, -, rfl | rfl⟩) | ⟨k, -, rfl | rfl | rfl | rfl⟩) |
      rfl | rfl | rfl | rfl)
    all_goals simp only [pPINMUX, pTIME, pBREATH, pFEED, pENC, pCAM, pCHANT, pCAL, pLINE]
    all_goals omega
  intro o ho
  simp [hpage o ho]
theorem fieldsAt_lineAdj : ∀ b < 8, fieldsAt .line b 0x7C =
    [R.LINE_ADJ_CTRL_GO, R.LINE_ADJ_CTRL_WHEN, R.LINE_ADJ_CTRL_LATE, R.LINE_ADJ_CTRL_ARMED] := by decide
theorem field_lineAdj (whn : BitVec 2) : field (2 ^ 31 + 16 * whn.toNat) 4 2 = whn.toNat := by
  have := whn.isLt
  unfold field
  omega
theorem State.storeReg_lineAdj (s : State) (b : Bar) (whn : BitVec 2) :
    s.storeReg (pLINE b) 0x7C (2 ^ 31 + 16 * whn.toNat) = s.set (pLINE b) R.LINE_ADJ_CTRL_WHEN whn.toNat := by
  have hwhn : ∀ u : State, u.storeField (pLINE b) .line (2 ^ 31 + 16 * whn.toNat) R.LINE_ADJ_CTRL_WHEN =
      u.set (pLINE b) R.LINE_ADJ_CTRL_WHEN whn.toNat := fun u => congrArg (u.set (pLINE b) R.LINE_ADJ_CTRL_WHEN) (field_lineAdj whn)
  unfold State.storeReg
  rw [blkOf_line _ b.isLt]
  dsimp only
  rw [fieldsAt_lineAdj _ b.isLt, State.settleClaims_line _ b.isLt]
  exact hwhn s
theorem State.exec_lineAdjGo {s : State} {b : Bar} {whn : BitVec 2} (h : s.accepts (pLINE b) 0x7C (2 ^ 31 + 16 * whn.toNat)) :
    exec (.lineAdjGo b whn) s = .next (if s.follows then s.incSat pPAIR R.PAIR_IGN_CNT
      else (s.set (pLINE b) R.LINE_ADJ_CTRL_WHEN whn.toNat).adjGo b whn.toNat) := by
  have hact : exec (.lineAdjGo b whn) s = .next (s.writeWith (pLINE b) 0x7C (2 ^ 31 + 16 * whn.toNat)
    (lineAdjAct b (2 ^ 31 + 16 * whn.toNat))) := rfl
  have hbit : bit (2 ^ 31 + 16 * whn.toNat) 31 = true := by
    have := whn.isLt
    simp only [bit, Nat.testBit_eq_decide_div_mod_eq, decide_eq_true_eq]
    omega
  rw [hact, State.writeWith_accepts _ h (Or.inl (by simp [blkOf_line _ b.isLt])), lineAdjAct, State.storeReg_lineAdj, hbit, field_lineAdj]
  rfl
/-- Whether an adjustment comes too late (R154, R236). -/
def State.adjLate (s : State) (b whn line : Nat) : Prop :=
  2 ≤ whn ∨ (whn = 1 ∧ (diff32 line (s.get (pLINE b) R.LINE_SEQ) ≤ 0 ∨ (s.leads = true ∧ diff32 line (s.safeLine b) < 0)))
theorem State.adjGo_late {s : State} {b whn : Nat} (h : s.adjLate b whn (s.get (pLINE b) R.LINE_ADJ_LINE)) :
    s.adjGo b whn = (s.set (pLINE b) R.LINE_ADJ_CTRL_LATE 1).cause (pLINE b) 5 := by
  unfold State.adjGo
  dsimp only
  rw [if_pos]
  simpa [State.adjLate] using h
/-- An adjustment that waits for its line. -/
def State.adjArmed (s : State) (b whn : Nat) : State :=
  ((s.set (pLINE b) R.LINE_ADJ_CTRL_LATE 0).set (pLINE b) R.LINE_ADJ_CTRL_ARMED 1).updLine b fun l =>
    { l with adj := some (sgn 32 (s.get (pLINE b) R.LINE_ADJ), whn, s.get (pLINE b) R.LINE_ADJ_LINE) }
theorem State.adjArmed_spec (s : State) (b whn : Nat) {t : State} (ht : s.adjArmed b whn = t) :
    t.get (pLINE b) R.LINE_ADJ_CTRL_ARMED = 1 ∧ t.get (pLINE b) R.LINE_ADJ_CTRL_LATE = 0 ∧
    t.lineAt b = { s.lineAt b with adj := some (sgn 32 (s.get (pLINE b) R.LINE_ADJ), whn, s.get (pLINE b) R.LINE_ADJ_LINE) } ∧
    (∀ m, m ≠ b → t.lineAt m = s.lineAt m) ∧ s.regsBut t [(pLINE b, R.LINE_ADJ_CTRL_ARMED), (pLINE b, R.LINE_ADJ_CTRL_LATE)] ∧
    ({ t with regs := s.regs, line := s.line } : State) = s := by
  obtain ⟨u, hu⟩ : ∃ u, (s.set (pLINE b) R.LINE_ADJ_CTRL_LATE 0).set (pLINE b) R.LINE_ADJ_CTRL_ARMED 1 = u := ⟨_, rfl⟩
  have harmed : u.get (pLINE b) R.LINE_ADJ_CTRL_ARMED = 1 := by
    rw [← hu]
    exact State.get_set_self _ _ _ _
  have hlate : u.get (pLINE b) R.LINE_ADJ_CTRL_LATE = 0 := by
    rw [← hu, State.get_set_field _ _ _ (by decide)]
    exact State.get_set_self _ _ _ _
  have hbut : s.regsBut u [(pLINE b, R.LINE_ADJ_CTRL_ARMED), (pLINE b, R.LINE_ADJ_CTRL_LATE)] := by
    rw [← hu]
    exact State.regsBut_set (State.regsBut_set (s.regsBut_refl _) _ (by simp)) _ (by simp)
  obtain ⟨r, hr⟩ : ∃ r, u = { s with regs := r } := ⟨_, hu.symm⟩
  have hlines : ∀ m, u.lineAt m = s.lineAt m := fun m => by rw [hr]; rfl
  subst ht
  unfold State.adjArmed
  rw [hu]
  refine ⟨harmed, hlate, ?_, fun m hm => ?_, hbut, ?_⟩
  · rw [State.lineAt_updLine_self, hlines]
  · rw [State.lineAt_updLine_other _ _ hm, hlines]
  · rw [hr]
    rfl
theorem State.adjGo_armed {s : State} {b whn : Nat} (h : ¬ s.adjLate b whn (s.get (pLINE b) R.LINE_ADJ_LINE)) :
    ∃ p o, s.adjGo b whn = { s.adjArmed b whn with pair := p, outs := o } ∧
      (s.leads = false ∨ whn = 0 → p = s.pair ∧ o = s.outs) := by
  have hkeep : ∀ f : Fld, (f.id ≠ R.LINE_ADJ_CTRL_LATE.id ∧ f.id ≠ R.LINE_ADJ_CTRL_ARMED.id) → ∀ p,
      (s.adjArmed b whn).get p f = s.get p f := fun f hf p =>
    (State.get_set_ne _ _ (Or.inr hf.2)).trans (State.get_set_ne _ _ (Or.inr hf.1))
  unfold State.adjGo
  dsimp only
  rw [if_neg (by simpa [State.adjLate] using h)]
  split
  · next hsend =>
    obtain ⟨p, o, hcmd⟩ := (s.adjArmed b whn).crookCommand_shape 0x14 ([BitVec.ofNat 8 b] ++ zeros 3 ++
      leBytes 4 (s.get (pLINE b) R.LINE_ADJ_LINE) ++ leBytes 4 (uns 32 (sgn 32 (s.get (pLINE b) R.LINE_ADJ))))
    refine ⟨p, o, hcmd, fun hno => ?_⟩
    simp only [Bool.and_eq_true, decide_eq_true_eq] at hsend
    have hleads : s.leads = true := by
      refine Eq.trans (State.leads_congr (s := s) (t := s.adjArmed b whn) rfl rfl rfl rfl ?_).1.symm hsend.1
      simp only [List.forall_mem_cons, List.not_mem_nil, false_imp_iff, implies_true, and_true]
      exact ⟨hkeep _ ⟨by decide, by decide⟩, hkeep _ ⟨by decide, by decide⟩, hkeep _ ⟨by decide, by decide⟩,
        hkeep _ ⟨by decide, by decide⟩, hkeep _ ⟨by decide, by decide⟩, hkeep _ ⟨by decide, by decide⟩⟩
    rcases hno with hno | hno
    · rw [hno] at hleads
      exact absurd hleads (by decide)
    · omega
  · exact ⟨_, _, rfl, fun _ => ⟨rfl, rfl⟩⟩
/-- The write stores WHEN, of which neither the line of an adjustment nor what makes it late depends. -/
theorem State.adjLate_set (s : State) (b whn line v : Nat) : (s.set (pLINE b) R.LINE_ADJ_CTRL_WHEN v).adjLate b whn line ↔ s.adjLate b whn line := by
  have hget : ∀ f : Fld, f.id ≠ R.LINE_ADJ_CTRL_WHEN.id → ∀ p, (s.set (pLINE b) R.LINE_ADJ_CTRL_WHEN v).get p f = s.get p f :=
    fun f hf p => s.get_set_ne _ (Or.inr hf)
  obtain ⟨hleads, hsafe⟩ := State.leads_congr (s := s) (t := s.set (pLINE b) R.LINE_ADJ_CTRL_WHEN v) rfl rfl rfl rfl (by
    simp only [List.forall_mem_cons, List.not_mem_nil, false_imp_iff, implies_true, and_true]
    exact ⟨hget _ (by decide), hget _ (by decide), hget _ (by decide), hget _ (by decide), hget _ (by decide), hget _ (by decide)⟩)
  simp only [State.adjLate, hleads, hsafe, hget R.LINE_SEQ (by decide)]

/-- Settles O26, by the branches of the window's close and of the write. -/
theorem gainAndAdjustment : Obligations.GainAndAdjustment := by
  unfold Obligations.GainAndAdjustment
  refine ⟨fun s b => ⟨fun hdue => ?_, fun e r hdue => ⟨s.exec_stretchWindowClose_closed b hdue, fun hrun hstr hskip => ?_,
    fun g hrun hstr hskip hnom hpos hg => ?_⟩⟩, fun s b whn line hacc hline => ⟨fun hfol => ?_, fun hfol hin => ?_, fun hfol hlate => ?_⟩⟩
  · change execStretchWindowClose b s = _
    simp only [execStretchWindowClose, hdue]
  · refine ⟨_, s.exec_stretchWindowClose_skipped b hdue hrun hstr hskip, ?_, fun m hm => ?_, rfl⟩
    · rw [State.lineAt_updLine_self, State.lineAt_updLine_self]
    · rw [State.lineAt_updLine_other _ _ hm, State.lineAt_updLine_other _ _ hm]
  · obtain ⟨meas, hmeas, hexec⟩ := s.exec_stretchWindowClose_measured b hdue hrun hstr hskip hnom hpos hg
    obtain ⟨v, hv⟩ : ∃ v, (s.updLine b fun l => { l with strDue := r }) = v := ⟨_, rfl⟩
    have hself : v.lineAt b = { s.lineAt b with strDue := r } := by rw [← hv]; exact State.lineAt_updLine_self _ _ _
    have hother : ∀ m, m ≠ b.val → v.lineAt m = s.lineAt m := fun m hm => by rw [← hv]; exact State.lineAt_updLine_other _ _ hm
    obtain ⟨l, hvl⟩ : ∃ l, v = { s with line := l } := ⟨_, hv.symm⟩
    have hregs : v.regs = s.regs := by rw [hvl]
    have hfen : v.fenced (pLINE b) = false := by rw [hvl]; exact State.unfenced_of_working hrun
    obtain ⟨u, hu⟩ : ∃ u, v.gainMeasured b meas g.2.2 = u := ⟨_, rfl⟩
    obtain ⟨hm, hclip, hnoclip, hbut, r', w, hrep⟩ := v.gainMeasured_spec b meas g.2.2 hfen hu
    have hline : u.line = v.line := by rw [hrep]
    have hlineAt : ∀ m, u.lineAt m = v.lineAt m := fun m => by rw [State.lineAt, hline]; rfl
    have hpair : u.pair = s.pair ∧ u.outs = s.outs := by rw [hrep, hvl]; exact ⟨rfl, rfl⟩
    obtain ⟨t, ht⟩ : ∃ t, s.gainTaken u b g.2.1 = t := ⟨_, rfl⟩
    obtain ⟨hgain, hbut', hdue', hat, hlines, hsame, hrest⟩ := s.gainTaken_spec u b g.2.1 ht
    have hget : ∀ f : Fld, f.id ≠ R.LINE_GAIN.id → t.get (pLINE b) f = u.get (pLINE b) f :=
      fun f hf => hbut'.field (by simpa using hf) _
    have hgainAt : (u.lineAt b).gainAt = (s.lineAt b).gainAt := by rw [hlineAt, hself]
    have hold : u.get (pLINE b) R.LINE_GAIN = s.get (pLINE b) R.LINE_GAIN :=
      (hbut.field (by simp only [List.forall_mem_cons]; decide) _).trans (State.get_congr hregs _ _)
    rw [hexec, hv, hu, ht]
    refine ⟨t, rfl, ?_, fun h1 h2 => ?_, fun hc => ⟨?_, ?_⟩, fun hc => ?_, fun hl hf => ⟨?_, ?_, ?_⟩, fun hl => ⟨?_, ?_⟩,
      fun hf => ⟨?_, ?_, ?_⟩, fun m hm => ?_, ?_, ?_⟩
    · rw [hdue', hlineAt, hself]
    · rw [hget _ (by decide), hm, hmeas h1 h2]
      exact Nat.mod_eq_of_lt (uns_lt 32 _)
    · rw [hget _ (by decide)]
      exact (hclip hc).1
    · rw [hget _ (by decide), (hclip hc).2, State.get_congr hregs]
    · rw [hget _ (by decide), hnoclip hc, State.get_congr hregs]
    · rw [hgain, if_pos ⟨hl, hf⟩]
    · rw [hat, if_neg (by simp [hl]), hgainAt]
    · exact ⟨(hsame hl).1.trans hpair.1, (hsame hl).2.trans hpair.2⟩
    · rw [hgain, if_neg (by simp [hl]), hold]
    · rw [hat, if_pos hl, hgainAt]
    · rw [hgain, if_neg (by simp [hf]), hold]
    · rw [hat, if_neg (by simp [State.not_leads_of_follows hf]), hgainAt]
    · have hl := State.not_leads_of_follows hf
      exact ⟨(hsame hl).1.trans hpair.1, (hsame hl).2.trans hpair.2⟩
    · rw [hlines m hm, hlineAt, hother m hm]
    · refine State.regsBut_trans (State.regsBut_of_regs (s.regsBut_refl _) hregs) (State.regsBut_trans
        (State.regsBut_mono hbut ?_) (State.regsBut_mono hbut' ?_))
      · simp
      · simp
    · have h1 : ({ t with regs := s.regs, line := s.line, host := s.host, fresh := s.fresh, pair := s.pair, outs := s.outs } : State) =
          { u with regs := s.regs, line := s.line, host := s.host, fresh := s.fresh, pair := s.pair, outs := s.outs } := by
        rw [← hrest]
      rw [h1, hrep, hvl]
  · rw [State.exec_lineAdjGo hacc, if_pos hfol]
    exact ⟨_, rfl, s.get_incSat_self _ _, State.regsBut_incSat (s.regsBut_refl _) (by simp), rfl⟩
  · rw [State.exec_lineAdjGo hacc, if_neg (by simp [hfol])]
    obtain ⟨u, hu⟩ : ∃ u, s.set (pLINE b) R.LINE_ADJ_CTRL_WHEN whn.toNat = u := ⟨_, rfl⟩
    have hget : ∀ f : Fld, f.id ≠ R.LINE_ADJ_CTRL_WHEN.id → ∀ p, u.get p f = s.get p f := fun f hf p => by
      rw [← hu]; exact s.get_set_ne _ (Or.inr hf)
    have hin' : ¬ u.adjLate b whn.toNat (u.get (pLINE b) R.LINE_ADJ_LINE) := by
      rw [← hu, State.adjLate_set, hu, hget _ (by decide), ← hline]
      rintro (h2 | ⟨h1, h3⟩) <;> rcases hin with h0 | ⟨h0, hpos, hsafe⟩
      · omega
      · omega
      · omega
      · rcases h3 with h3 | ⟨hl, h3⟩
        · omega
        · have := hsafe hl
          omega
    obtain ⟨p, o, hact, hsame⟩ := State.adjGo_armed hin'
    have hleads : u.leads = s.leads := (State.leads_congr (by rw [← hu]; rfl) (by rw [← hu]; rfl) (by rw [← hu]; rfl) (by rw [← hu]; rfl) (by
      simp only [List.forall_mem_cons, List.not_mem_nil, false_imp_iff, implies_true, and_true]
      exact ⟨hget _ (by decide), hget _ (by decide), hget _ (by decide), hget _ (by decide), hget _ (by decide), hget _ (by decide)⟩)).1
    have hlineAt : ∀ m, u.lineAt m = s.lineAt m := fun m => by rw [← hu]; rfl
    have hbut : s.regsBut u [(pLINE b, R.LINE_ADJ_CTRL_WHEN)] := by
      rw [← hu]
      exact State.regsBut_set (s.regsBut_refl _) _ (by simp)
    have hshape : ({ u with regs := s.regs } : State) = s ∧ u.pair = s.pair ∧ u.outs = s.outs := by
      rw [← hu]
      exact ⟨rfl, rfl, rfl⟩
    obtain ⟨v, hv⟩ : ∃ v, u.adjArmed b whn.toNat = v := ⟨_, rfl⟩
    obtain ⟨harmed, hlate, hself, hother, hregs, hrest⟩ := u.adjArmed_spec b whn.toNat hv
    rw [hget _ (by decide), hget _ (by decide), ← hline, hlineAt] at hself
    rw [hu, hact, hv]
    refine ⟨_, rfl, harmed, hlate, hself, fun m hm => (hother m hm).trans (hlineAt m), fun h => ?_, ?_, ?_⟩
    · rw [← hleads] at h
      exact ⟨(hsame h).1.trans hshape.2.1, (hsame h).2.trans hshape.2.2⟩
    · refine State.regsBut_trans (State.regsBut_mono hbut ?_) (State.regsBut_of_regs (State.regsBut_mono hregs ?_) rfl)
      · simp
      · simp
    · have h1 : ({ v with regs := s.regs, line := s.line, pair := s.pair, outs := s.outs } : State) =
          { u with regs := s.regs, line := s.line, pair := s.pair, outs := s.outs } := by rw [← hrest]
      refine h1.trans ?_
      rw [← hshape.1]
  · rw [State.exec_lineAdjGo hacc, if_neg (by simp [hfol]), State.adjGo_late (by
      rw [State.adjLate_set, State.get_set_field _ _ _ (by decide), ← hline]
      exact hlate)]
    obtain ⟨r', w, hrep⟩ := ((s.reports_set (pLINE b) R.LINE_ADJ_CTRL_WHEN whn.toNat).trans
      (State.reports_set _ (pLINE b) R.LINE_ADJ_CTRL_LATE 1)).trans (State.reports_cause _ (pLINE b) 5)
    have hunf : s.fenced (pLINE b) = false := State.fenced_of_unblocked (State.accepts_unblocked hacc (by decide))
    refine ⟨_, rfl, ?_, ?_, ?_, ?_⟩
    · rw [State.get_cause_field _ _ _ (by decide)]
      exact State.get_set_self _ _ _ _
    · refine State.bit_cause _ (by decide) ?_
      rw [State.frozen_congr ((State.get_set_field _ _ _ (by decide)).trans (State.get_set_field _ _ _ (by decide)))]
      exact State.frozen_of_unfenced hunf
    · exact State.regsBut_cause (State.regsBut_set (State.regsBut_set (s.regsBut_refl _) _ (by simp)) _ (by simp)) _ (by simp)
    · rw [hrep]

end Sys2Proof.Machine
end

section
/-! ### What a page header keeps while other pages move (O9, O10) -/
open Sys2Proof Sys2Proof.Machine
namespace Sys2Proof.Machine

theorem NMap.has_del_other {α : Type} (m : NMap α) {k j : Nat} (h : j ≠ k) : NMap.has (NMap.del m k) j = NMap.has m j := by
  simp only [NMap.has, NMap.del, List.any_filter]
  congr 1
  funext e
  by_cases hj : e.1 = j <;> simp_all
theorem NMap.has_ins_other {α : Type} (m : NMap α) {k j : Nat} (v : α) (h : j ≠ k) : NMap.has (NMap.ins m k v) j = NMap.has m j := by
  have hk : (k == j) = false := beq_eq_false_iff_ne.mpr (Ne.symm h)
  induction m with
  | nil => simp [NMap.ins, NMap.has, hk]
  | cons e r ih =>
    simp only [NMap.has] at ih
    by_cases h2 : k < e.1
    · simp [NMap.ins, h2, NMap.has, hk]
    · simp [NMap.ins, h2, NMap.has, ih]
theorem NMap.has_put_other {α : Type} (m : NMap α) {k j : Nat} (v : α) (h : j ≠ k) : NMap.has (m.put k v) j = NMap.has m j :=
  (NMap.has_ins_other _ v h).trans (NMap.has_del_other m h)

/-- The fields of a page header that a fence or an error writes, but PG_IRQ_RAW. -/
def fenceHeader : List Fld := [R.PG_FENCE_FENCED, R.PG_FENCE_REASON, R.PG_FENCE_COUNT, R.PG_ERR_CNT, R.PG_ERR_ADDR_LO, R.PG_ERR_ADDR_HI,
  R.PG_ERR_INFO_SRC, R.PG_ERR_INFO_CODE]
/-- A step that leaves the fence, the errors and the soft reset of page p, clears none of its causes, and leaves the time. -/
structure State.headerKeeps (s t : State) (p : Nat) : Prop where
  flds : ∀ f ∈ fenceHeader, t.get p f = s.get p f
  raw : ∀ i < 32, bit (s.get p R.PG_IRQ_RAW) i = true → bit (t.get p R.PG_IRQ_RAW) i = true
  shut : t.get pTHERM R.THERM_STAT_SHUT = s.get pTHERM R.THERM_STAT_SHUT
  reset : t.srsts.has p = s.srsts.has p
  held : t.heldReset = s.heldReset
  tick : t.tick = s.tick
  since : t.fenceAt.has p = s.fenceAt.has p ∧ t.fenceAt.getD p 0 = s.fenceAt.getD p 0

theorem State.headerKeeps_refl (s : State) (p : Nat) : s.headerKeeps s p :=
  ⟨fun _ _ => rfl, fun _ _ h => h, rfl, rfl, rfl, rfl, rfl, rfl⟩
theorem State.headerKeeps.trans {s t u : State} {p : Nat} (h : s.headerKeeps t p) (k : t.headerKeeps u p) : s.headerKeeps u p :=
  ⟨fun f hf => (k.flds f hf).trans (h.flds f hf), fun i hi hb => k.raw i hi (h.raw i hi hb), k.shut.trans h.shut, k.reset.trans h.reset,
    k.held.trans h.held, k.tick.trans h.tick, k.since.1.trans h.since.1, k.since.2.trans h.since.2⟩
section
variable {s t : State} {p : Nat} (h : s.headerKeeps t p)
include h
theorem State.headerKeeps.fenced : t.fenced p = s.fenced p := by
  unfold State.fenced State.flag
  rw [h.flds R.PG_FENCE_FENCED (by simp [fenceHeader])]
theorem State.headerKeeps.pageHeld : t.held p = s.held p := by
  unfold State.held State.shut State.flag
  rw [h.held, h.shut]
theorem State.headerKeeps.srstBusy : t.srstBusy p = s.srstBusy p := by
  unfold State.srstBusy
  rw [h.pageHeld, h.reset]
theorem State.headerKeeps.fencedNow : t.fencedNow p = s.fencedNow p := by
  unfold State.fencedNow
  rw [h.fenced, h.since.1, h.since.2, h.tick]
end

/-! ### Registers and the blocks' own state -/

theorem State.headerKeeps_of_regs {s t : State} (p : Nat) (hr : t.regs = s.regs) (hs : t.srsts = s.srsts) (hh : t.heldReset = s.heldReset)
    (ht : t.tick = s.tick) (hf : t.fenceAt = s.fenceAt) : s.headerKeeps t p :=
  ⟨fun _ _ => State.get_congr hr _ _, fun i _ hb => by rwa [State.get_congr hr], State.get_congr hr _ _, by rw [hs], hh, ht,
    by rw [hf], by rw [hf]⟩
/-- A write of registers that are not the header's. -/
theorem State.headerKeeps_regs {s t : State} {p : Nat} {l : List (Nat × Fld)} (h : s.reports t) (hb : s.regsBut t l)
    (hl : ∀ e ∈ l, (e.1 ≠ p ∨ e.2.id ∉ (R.PG_IRQ_RAW :: fenceHeader).map Fld.id) ∧ (e.1 ≠ pTHERM ∨ e.2.id ≠ R.THERM_STAT_SHUT.id)) :
    s.headerKeeps t p := by
  have hget : ∀ f ∈ R.PG_IRQ_RAW :: fenceHeader, t.get p f = s.get p f := fun f hf => hb p f fun e he => by
    rcases (hl e he).1 with h | h
    · exact Or.inl h.symm
    · exact Or.inr fun hid => h (hid ▸ List.mem_map_of_mem hf)
  have hshut : t.get pTHERM R.THERM_STAT_SHUT = s.get pTHERM R.THERM_STAT_SHUT := hb _ _ fun e he => by
    rcases (hl e he).2 with h | h
    · exact Or.inl h.symm
    · exact Or.inr h.symm
  obtain ⟨r, w, rfl⟩ := h
  exact ⟨fun f hf => hget f (List.mem_cons_of_mem _ hf), fun i _ hb => by rwa [hget _ (by simp)], hshut, rfl, rfl, rfl, rfl, rfl⟩
theorem State.headerKeeps_set (s : State) {p q : Nat} {f : Fld} (v : Nat)
    (h : q ≠ p ∨ f.id ∉ (R.PG_IRQ_RAW :: fenceHeader).map Fld.id) (hs : q ≠ pTHERM ∨ f.id ≠ R.THERM_STAT_SHUT.id) :
    s.headerKeeps (s.set q f v) p :=
  State.headerKeeps_regs (l := [(q, f)]) (s.reports_set q f v) (State.regsBut_set (s.regsBut_refl _) v (by simp)) (List.forall_mem_singleton.mpr ⟨h, hs⟩)
theorem State.headerKeeps_cause (s : State) (p q i : Nat) : s.headerKeeps (s.cause q i) p := by
  have hbut : s.regsBut (s.cause q i) [(q, R.PG_IRQ_RAW)] := State.regsBut_cause (s.regsBut_refl _) i (by simp)
  by_cases hq : q = p
  · subst hq
    have hshape := s.reports_cause q i
    obtain ⟨r, w, hu⟩ := hshape
    refine ⟨fun f hf => State.get_cause_field _ _ _ ?_, fun j hj hb => s.bit_cause_keeps hj hb, hbut _ _ ?_, by rw [hu], by rw [hu], by rw [hu],
      by rw [hu], by rw [hu]⟩
    · revert f
      decide
    · simp only [List.forall_mem_cons]
      exact ⟨Or.inr (by decide), by simp⟩
  · exact State.headerKeeps_regs (s.reports_cause q i) hbut (List.forall_mem_singleton.mpr ⟨Or.inl hq, Or.inr (show R.PG_IRQ_RAW.id ≠ R.THERM_STAT_SHUT.id by decide)⟩)
theorem State.headerKeeps_err (s : State) {p q : Nat} (code src lo hi dir : Nat) (h : q ≠ p) : s.headerKeeps (s.err q code src lo hi dir) p := by
  refine State.headerKeeps_regs (l := errFields q) (s.reports_err q code src lo hi dir)
    (State.regsBut_err (s.regsBut_refl _) _ _ _ _ _ _ fun _ he => he) ?_
  unfold errFields
  simp only [List.forall_mem_cons]
  exact ⟨⟨Or.inl h, Or.inr (by decide)⟩, ⟨Or.inl h, Or.inr (by decide)⟩, ⟨Or.inl h, Or.inr (by decide)⟩, ⟨Or.inl h, Or.inr (by decide)⟩,
    ⟨Or.inl h, Or.inr (by decide)⟩, ⟨Or.inl h, Or.inr (by decide)⟩, ⟨Or.inl h, Or.inr (by decide)⟩, by simp⟩
theorem State.headerKeeps_fenceMark (s : State) {p q : Nat} (reason : Nat) (h : q ≠ p) : s.headerKeeps (s.fenceMark q reason) p := by
  have hflags : s.headerKeeps (s.fenceFlags q reason) p :=
    (((s.headerKeeps_cause p q 0).trans (State.headerKeeps_set _ _ (Or.inl h) (Or.inr (by decide)))).trans
      (State.headerKeeps_set _ _ (Or.inl h) (Or.inr (by decide)))).trans (State.headerKeeps_set _ _ (Or.inl h) (Or.inr (by decide)))
  exact hflags.trans ⟨fun _ _ => rfl, fun _ _ hb => hb, rfl, rfl, rfl, rfl, NMap.has_put_other _ _ (Ne.symm h),
    NMap.getD_put_other _ _ _ (Ne.symm h)⟩
theorem State.headerKeeps_each {p : Nat} (l : List Nat) (g : State → Nat → State) (h : ∀ (t : State), ∀ n ∈ l, t.headerKeeps (g t n) p) (s : State) :
    s.headerKeeps (s.each l g) p := by
  unfold State.each
  induction l generalizing s with
  | nil => exact s.headerKeeps_refl p
  | cons n l ih => exact (h s n (by simp)).trans (ih (fun t m hm => h t m (List.mem_cons_of_mem _ hm)) _)


/-! ### The blocks' own state -/

theorem State.headerKeeps_updPair (s : State) (p : Nat) (g : PairSt → PairSt) : s.headerKeeps (s.updPair g) p :=
  State.headerKeeps_of_regs p rfl rfl rfl rfl rfl
theorem State.headerKeeps_updHead (s : State) (p h : Nat) (g : HeadSt → HeadSt) : s.headerKeeps (s.updHead h g) p :=
  State.headerKeeps_of_regs p rfl rfl rfl rfl rfl
theorem State.headerKeeps_updPipe (s : State) (p b : Nat) (g : PipeSt → PipeSt) : s.headerKeeps (s.updPipe b g) p :=
  State.headerKeeps_of_regs p rfl rfl rfl rfl rfl
theorem State.headerKeeps_updLine (s : State) (p b : Nat) (g : LineSt → LineSt) : s.headerKeeps (s.updLine b g) p :=
  State.headerKeeps_of_regs p rfl rfl rfl rfl rfl
theorem State.headerKeeps_updCam (s : State) (p c : Nat) (g : CamSt → CamSt) : s.headerKeeps (s.updCam c g) p :=
  State.headerKeeps_of_regs p rfl rfl rfl rfl rfl
theorem State.headerKeeps_updJob (s : State) (p b : Nat) (g : JobSt → JobSt) : s.headerKeeps (s.updJob b g) p :=
  State.headerKeeps_of_regs p rfl rfl rfl rfl rfl
theorem State.headerKeeps_updDec (s : State) (p b : Nat) (g : DecSt → DecSt) : s.headerKeeps (s.updDec b g) p :=
  State.headerKeeps_of_regs p rfl rfl rfl rfl rfl

/-! ### PAIR -/

theorem State.headerKeeps_setPairState (s : State) (p v : Nat) : s.headerKeeps (s.setPairState v) p := by
  unfold State.setPairState
  split
  · exact s.headerKeeps_refl p
  · exact ((s.headerKeeps_set _ (Or.inr (by decide)) (Or.inr (by decide))).trans (State.headerKeeps_updPair _ p _)).trans
      (State.headerKeeps_cause _ p _ _)
theorem State.headerKeeps_crookSend (s : State) (p typ : Nat) (l : List Byte) : s.headerKeeps (s.crookSend typ l) p := by
  cases h : s.pairOn with
  | false =>
    rw [State.crookSend_off h]
    exact s.headerKeeps_refl p
  | true =>
    rw [State.crookSend_eq h]
    exact State.headerKeeps_of_regs p rfl rfl rfl rfl rfl
theorem State.headerKeeps_giveRecord (s : State) {p : Nat} (c code b : Nat) (uncov : Bool) (hp : pPAIR ≠ p) :
    s.headerKeeps (s.giveRecord c code b uncov) p := by
  unfold State.giveRecord
  exact (((s.headerKeeps_err _ _ _ _ _ hp).trans (State.headerKeeps_set _ _ (Or.inl hp) (Or.inl (by decide)))).trans
    (State.headerKeeps_set _ _ (Or.inl hp) (Or.inl (by decide)))).trans (State.headerKeeps_set _ _ (Or.inl hp) (Or.inl (by decide)))
theorem State.headerKeeps_pairCause (s : State) {p : Nat} (c code b : Nat) (hp : pPAIR ≠ p) : s.headerKeeps (s.pairCause c code b) p := by
  unfold State.pairCause
  have hnote : ∀ unc l, s.headerKeeps ((((s.giveRecord c code b unc).incSat pPAIR R.PAIR_GIVE_CNT).cause pPAIR 4).crookSend 0x06 l) p :=
    fun unc l => (((s.headerKeeps_giveRecord _ _ _ _ hp).trans (State.headerKeeps_set _ _ (Or.inl hp) (Or.inl (by decide)))).trans
      (State.headerKeeps_cause _ _ _ _)).trans (State.headerKeeps_crookSend _ _ _ _)
  dsimp only
  split_ifs
  · exact s.headerKeeps_refl p
  · exact s.headerKeeps_refl p
  · exact (hnote _ _).trans (State.headerKeeps_setPairState _ _ _)
  · exact (hnote _ _).trans (State.headerKeeps_updPair _ _ _)
  · exact s.headerKeeps_giveRecord _ _ _ _ hp
  · exact (s.headerKeeps_updPair _ _).trans (State.headerKeeps_setPairState _ _ _)
  · exact (s.headerKeeps_updPair _ _).trans (State.headerKeeps_setPairState _ _ _)
  · exact s.headerKeeps_refl p
/-- What a cause of the pair does leaves the header of every page but PAIR's, and of PAIR's once it is fenced. -/
theorem State.headerKeeps_pairRise {s t : State} {p : Nat} (code b : Nat) (hp : pPAIR ≠ p ∨ t.fenced pPAIR = true) :
    t.headerKeeps (s.pairRise t code b) p := by
  unfold State.pairRise
  split
  · exact t.headerKeeps_refl p
  · split
    · rcases hp with hp | hp
      · exact t.headerKeeps_pairCause _ _ _ hp
      · have hoff : t.pairOn = false := by simp [State.pairOn, State.working, hp]
        rw [State.pairCause, if_pos (by simp [hoff])]
        exact t.headerKeeps_refl p
    · exact t.headerKeeps_refl p
theorem State.headerKeeps_giveDone (s : State) (p b : Nat) : s.headerKeeps (s.giveDone b) p := by
  unfold State.giveDone
  dsimp only
  split
  · exact (s.headerKeeps_updPair p _).trans (State.headerKeeps_setPairState _ _ _)
  · exact s.headerKeeps_updPair p _

/-! ### A bar whose LINE page stops -/

theorem State.headerKeeps_headStops (s : State) (p h reason : Nat) : s.headerKeeps (s.headStops h reason) p := by
  unfold State.headStops
  exact (s.headerKeeps_set _ (Or.inr (by decide)) (Or.inr (by decide))).trans (State.headerKeeps_updHead _ _ _ _)
theorem State.headerKeeps_flightOver (s : State) {p : Nat} (q : Nat) (hp : ∀ i, blkOf p ≠ some (.head, i) ∧ blkOf p ≠ some (.pipe, i))
    (hpair : pPAIR ≠ p) : s.headerKeeps (s.flightOver q) p := by
  unfold State.flightOver
  split
  · next h hb =>
    have hq : pHEAD h ≠ p := by
      rintro rfl
      obtain ⟨hpage, hlt⟩ := blkOf_some hb
      exact (hp h).1 (blkOf_head h hlt)
    split
    · exact s.headerKeeps_refl p
    · unfold State.headDue
      split
      · split
        · exact s.headerKeeps_refl p
        · exact (s.headerKeeps_fenceMark _ hq).trans (State.headerKeeps_headStops _ _ _ _)
      · exact s.headerKeeps_refl p
  · next b hb =>
    have hq : pPIPE b ≠ p := by
      rintro rfl
      obtain ⟨hpage, hlt⟩ := blkOf_some hb
      exact (hp b).2 (blkOf_pipe b hlt)
    split
    · exact s.headerKeeps_refl p
    · unfold State.pipeDue
      split
      · dsimp only
        split
        · exact s.headerKeeps_updPipe p _ _
        · exact ((s.headerKeeps_updPipe p _ _).trans (State.headerKeeps_fenceMark _ _ hq)).trans
            (State.headerKeeps_pairRise _ _ (Or.inl hpair))
      · exact s.headerKeeps_refl p
  · exact s.headerKeeps_refl p
theorem State.headerKeeps_markDue (s : State) (p q : Nat) : s.headerKeeps (s.markDue q) p := by
  unfold State.markDue
  split
  · next hhas =>
    dsimp only
    split
    · exact s.headerKeeps_refl p
    · refine ⟨fun _ _ => rfl, fun _ _ hb => hb, rfl, ?_, rfl, rfl, rfl, rfl⟩
      by_cases hq : p = q
      · rw [hq, hhas]
        exact NMap.has_put_self _ _ _
      · exact NMap.has_put_other _ _ hq
  · exact s.headerKeeps_refl p
theorem State.headerKeeps_lineStopped (s : State) {p : Nat} (b : Nat) (hp : ∀ i, blkOf p ≠ some (.head, i) ∧ blkOf p ≠ some (.pipe, i))
    (hpair : pPAIR ≠ p) : s.headerKeeps (s.lineStopped b) p := by
  have hwhen : ∀ (t : State) c, t.headerKeeps (t.when c fun (t : State) =>
      t.each (List.range 2) fun u c => u.updCam c fun x => { x with trig0Until := none }) p := fun t c => by
    unfold State.when
    split
    · exact State.headerKeeps_each _ _ (fun u n _ => u.headerKeeps_updCam p n _) t
    · exact t.headerKeeps_refl p
  exact (((State.headerKeeps_each _ _ (fun t q _ => t.headerKeeps_markDue p q) s).trans (State.headerKeeps_giveDone _ p _)).trans (hwhen _ _)).trans
    (State.headerKeeps_each _ _ (fun t q _ => t.headerKeeps_flightOver q hp hpair) _)

/-! ### Job records -/

theorem State.dramStep.headerKeeps {s t : State} {l : List Nat} (h : s.dramStep t l) {p : Nat} (hp : ¬ dramPage p) : s.headerKeeps t p := by
  have hpage := h.page
  have htherm : ¬ dramPage pTHERM := by
    rintro (h | ⟨c, hc, h⟩)
    · exact absurd h (by decide)
    · simp only [pTHERM, pDRAM] at h
      omega
  obtain ⟨r, d, w, m, k, hshape⟩ := h.shape
  exact ⟨fun f _ => hpage p hp f, fun i _ hb => by rwa [hpage p hp], hpage _ htherm _, by rw [hshape], by rw [hshape], by rw [hshape], by rw [hshape],
    by rw [hshape]⟩
theorem State.headerKeeps_dramPut (s : State) {p : Nat} (a : Nat) (d : List Byte) (req : Nat) (hp : ¬ dramPage p) :
    s.headerKeeps (s.dramPut a d req) p := by
  unfold State.dramPut State.dramAsk
  split
  · exact (s.dramStep_dramWriteOpt a (d.map some) req).headerKeeps hp
  · exact State.headerKeeps_of_regs p rfl rfl rfl rfl rfl
theorem State.headerKeeps_putRecord (s : State) {p : Nat} (r : List Byte) (hp : ¬ dramPage p) : s.headerKeeps (s.putRecord r) p := by
  unfold State.putRecord
  dsimp only
  split
  · exact ((s.headerKeeps_dramPut _ _ _ hp).trans (State.headerKeeps_set _ _ (Or.inr (by decide)) (Or.inl (by decide)))).trans
      (State.headerKeeps_cause _ _ _ _)
  · exact (s.headerKeeps_set _ (Or.inr (by decide)) (Or.inl (by decide))).trans (State.headerKeeps_cause _ _ _ _)
theorem State.headerKeeps_closeRun (s : State) {p : Nat} (b code tile : Nat) (next : Bool) (hp : ¬ dramPage p) :
    s.headerKeeps (s.closeRun b code tile next) p := by
  unfold State.closeRun
  split
  · exact s.headerKeeps_refl p
  · exact (s.headerKeeps_updJob p _ _).trans (State.headerKeeps_putRecord _ _ hp)
theorem State.headerKeeps_runLine (s : State) {p : Nat} (b code tile : Nat) (aff : Bool) (segs : Nat) (x : JobLine) (hp : ¬ dramPage p) :
    s.headerKeeps (s.runLine b code tile aff segs x) p := by
  have hend : ∀ t : State, s.headerKeeps t p → s.headerKeeps (if x.last then t.closeRun b code tile true else t) p := fun t ht => by
    split
    · exact ht.trans (t.headerKeeps_closeRun _ _ _ _ hp)
    · exact ht
  have hopen : ∀ t : State, t.headerKeeps (if !aff then t.updJob b fun j => { j with carry := j.carry.filter fun c => c != (code, tile) }
      else match (t.jobAt b).runs.find? fun r => r.code == code && r.tile == tile with
        | some _ => t.updJob b fun j => { j with runs := j.runs.map fun r =>
            if r.code = code ∧ r.tile = tile then { r with lines := r.lines + 1, segMask := r.segMask ||| segs } else r }
        | none => t.updJob b fun j => { j with
            runs := j.runs ++ [⟨x.jobId, code, tile, j.carry.contains (code, tile), x.q, 1, x.line, segs⟩]
            carry := j.carry.filter fun c => c != (code, tile) }) p := fun t => by
    split
    · exact t.headerKeeps_updJob p _ _
    · split
      · exact t.headerKeeps_updJob p _ _
      · exact t.headerKeeps_updJob p _ _
  unfold State.runLine
  refine hend _ (State.headerKeeps.trans (t := match (s.jobAt b).runs.find? fun r => r.code == code && r.tile == tile with
      | some r =>
        if !aff then s.closeRun b code tile false
        else if (r.firstQ == idleId) != (x.q == idleId) || r.jobId != x.jobId then s.closeRun b code tile true
        else s
      | none => s) ?_ (hopen _))
  · split
    · split_ifs
      · exact s.headerKeeps_closeRun _ _ _ _ hp
      · exact s.headerKeeps_closeRun _ _ _ _ hp
      · exact s.headerKeeps_refl p
    · exact s.headerKeeps_refl p
theorem State.headerKeeps_foldl {α : Type} {p : Nat} (l : List α) (g : State → α → State) (h : ∀ (t : State) x, t.headerKeeps (g t x) p)
    (s : State) : s.headerKeeps (l.foldl g s) p := by
  induction l generalizing s with
  | nil => exact s.headerKeeps_refl p
  | cons x l ih => exact (h s x).trans (ih _)
theorem State.headerKeeps_passRuns (s : State) {p : Nat} (b : Nat) (j : Job) (m : Nat) (hp : ¬ dramPage p) :
    s.headerKeeps (s.passRuns b j m) p := by
  unfold State.passRuns
  split
  · exact s.headerKeeps_refl p
  · refine (s.headerKeeps_updDec p b _).trans (State.headerKeeps_foldl _ _ (fun t k => ?_) _)
    exact State.headerKeeps_foldl _ _ (fun t c => t.headerKeeps_runLine _ _ _ _ _ _ hp) t
theorem State.headerKeeps_passFlush (s : State) {p : Nat} (b : Nat) (hp : ¬ dramPage p) : s.headerKeeps (s.passFlush b) p := by
  unfold State.passFlush
  split
  · exact s.headerKeeps_passRuns b _ _ hp
  · exact s.headerKeeps_refl p
theorem State.headerKeeps_jobStop (s : State) {p : Nat} (b : Nat) (hp : ¬ dramPage p) : s.headerKeeps (s.jobStop b) p :=
  (s.headerKeeps_passFlush b hp).trans (State.headerKeeps_of_regs p rfl rfl rfl rfl rfl)
/-- With DMAC fenced the engines that run stop, and none starts. -/
theorem State.headerKeeps_jobSettle (s : State) (h : s.fenced pDMAC = true) : s.headerKeeps s.jobSettle pDMAC := by
  have hp : ¬ dramPage pDMAC := by
    rintro (h | ⟨c, hc, h⟩)
    · exact absurd h (by decide)
    · simp only [pDMAC, pDRAM] at h
      omega
  have hstep : ∀ (t : State) b, t.fenced pDMAC = true → t.headerKeeps (if t.jobWanted b && !(t.jobAt b).running then t.jobStart b
      else if !t.jobWanted b && (t.jobAt b).running then t.jobStop b else t) pDMAC := fun t b ht => by
    have hoff : t.jobWanted b = false := by simp [State.jobWanted, State.working, ht]
    rw [if_neg (by simp [hoff])]
    split
    · exact t.headerKeeps_jobStop b hp
    · exact t.headerKeeps_refl _
  have hfold : ∀ (l : List Nat) (t : State), t.fenced pDMAC = true → t.headerKeeps (l.foldl (fun t b =>
      if t.jobWanted b && !(t.jobAt b).running then t.jobStart b
      else if !t.jobWanted b && (t.jobAt b).running then t.jobStop b else t) t) pDMAC := fun l => by
    induction l with
    | nil => exact fun t _ => t.headerKeeps_refl _
    | cons b l ih => exact fun t ht => (hstep t b ht).trans (ih _ ((hstep t b ht).fenced.trans ht))
  exact hfold _ s h

/-! ### What a fence stops -/

theorem State.headerKeeps_laneCut (s : State) {p : Nat} (h reason : Nat) (hp : ¬ dramPage p) : s.headerKeeps (s.laneCut h reason) p := by
  unfold State.laneCut
  exact (State.headerKeeps_foldl _ _ (fun t x => t.headerKeeps_runLine _ _ _ _ _ _ hp) s).trans (State.headerKeeps_updHead _ p _ _)
/-- The fence of a page stops its block and leaves the page's header as the fence has set it. -/
theorem State.headerKeeps_fenceStops (s : State) {p i : Nat} {b : Blk} (reason : Nat) (hb : blkOf p = some (b, i)) (h : s.fenced p = true) :
    s.headerKeeps (s.fenceStops b i reason) p := by
  obtain ⟨hpage, hi⟩ := blkOf_some hb
  unfold State.fenceStops
  split
  · refine s.headerKeeps_lineStopped i (fun j => ⟨?_, ?_⟩) ?_
    · rw [hb]; simp
    · rw [hb]; simp
    · rintro rfl
      simp at hb
  · exact s.headerKeeps_headStops p i reason
  · exact (s.headerKeeps_set _ (Or.inr (by decide)) (Or.inr (by decide))).trans (State.headerKeeps_of_regs p rfl rfl rfl rfl rfl)
  · have hp : p = pDMAC := by
      rw [hpage]
      simp only [Blk.count] at hi
      simp only [Blk.first, pDMAC]
      omega
    rw [hp] at h ⊢
    exact s.headerKeeps_jobSettle h
  · exact s.headerKeeps_updDec p i _
  · exact (s.headerKeeps_setPairState p 0).trans (State.headerKeeps_of_regs p rfl rfl rfl rfl rfl)
  · exact s.headerKeeps_updCam p i _
  · exact State.headerKeeps_of_regs p rfl rfl rfl rfl rfl
  · exact s.headerKeeps_refl p
theorem State.headerKeeps_errCount (s : State) {p q : Nat} (code src lo hi dir : Nat) (h : q ≠ p) :
    s.headerKeeps (s.errCount q code src lo hi dir) p := by
  have hset : ∀ (t : State) (f : Fld) v, f.id ≠ R.THERM_STAT_SHUT.id → t.headerKeeps (t.set q f v) p := fun t f v hf =>
    t.headerKeeps_set v (Or.inl h) (Or.inr hf)
  unfold State.errCount
  refine State.headerKeeps.trans ?_ (hset _ _ _ (by decide))
  split
  · exact ((((hset _ _ _ (by decide)).trans (hset _ _ _ (by decide))).trans (hset _ _ _ (by decide))).trans (hset _ _ _ (by decide))).trans
      (hset _ _ _ (by decide))
  · exact s.headerKeeps_refl p
theorem State.headerKeeps_causeKept (s : State) {p q : Nat} (reason : Nat) (h : q ≠ p) : s.headerKeeps (s.causeKept q reason) p :=
  ⟨fun _ _ => rfl, fun _ _ hb => hb, rfl, NMap.has_put_other _ _ (Ne.symm h), rfl, rfl, rfl, rfl⟩
/-- The fence of another page. -/
theorem State.headerKeeps_fenceOne (s : State) {p q i : Nat} {b : Blk} (reason src lo hi : Nat) (count : Bool) (hb : blkOf q = some (b, i))
    (hq : q ≠ p) (hpair : pPAIR ≠ p) (hstops : ∀ t : State, t.headerKeeps (t.fenceStops b i reason) p) :
    s.headerKeeps (s.fenceOne q reason src lo hi count) p := by
  unfold State.fenceOne
  simp only [hb]
  split
  · exact s.headerKeeps_refl p
  · split
    · split
      · have hcount : s.headerKeeps (if count then s.errCount q reason src lo hi 0 else s) p := by
          split
          · exact s.headerKeeps_errCount _ _ _ _ _ hq
          · exact s.headerKeeps_refl p
        refine hcount.trans ?_
        unfold State.fenceJoin
        dsimp only
        generalize (if count then s.errCount q reason src lo hi 0 else s) = u
        split
        · exact u.headerKeeps_set (f := R.PG_FENCE_REASON) _ (Or.inl hq) (Or.inr (by decide))
        · exact u.headerKeeps_refl p
      · exact s.headerKeeps_refl p
    · split
      · exact s.headerKeeps_causeKept _ hq
      · have hcount : s.headerKeeps (if count then s.err q reason src lo hi else s) p := by
          split
          · exact s.headerKeeps_err _ _ _ _ _ hq
          · exact s.headerKeeps_refl p
        exact ((hcount.trans (State.headerKeeps_fenceMark _ _ hq)).trans (hstops _)).trans (State.headerKeeps_pairRise _ _ (Or.inl hpair))
theorem State.headerKeeps_sourceLost (s : State) {p n b : Nat} (reason : Nat) (hp : blkOf p = some (.pos, n)) (hb : b < 8) :
    s.headerKeeps (s.sourceLost b reason) p := by
  have hpair : pPAIR ≠ p := by
    rintro rfl
    simp at hp
  have hline : pLINE b ≠ p := by
    rintro rfl
    rw [blkOf_line b hb] at hp
    simp at hp
  have hover : s.headerKeeps (s.failOver b) p := (State.headerKeeps_updLine s p b _).trans (State.headerKeeps_cause _ p _ _)
  unfold State.sourceLost
  dsimp only
  generalize (if (s.lineAt b).src = 0 then 1 else 0) = other
  split
  · exact hover
  · refine (s.headerKeeps_updLine p b _).trans (State.headerKeeps_fenceOne _ _ _ _ _ _ (blkOf_line b hb) hline hpair fun t => ?_)
    exact t.headerKeeps_lineStopped b (fun j => by rw [hp]; simp) hpair
theorem State.headerKeeps_laneFences (s : State) {p l : Nat} (reason : Nat) (hp : blkOf p = some (.lane, l)) (hl : l < 128) :
    s.headerKeeps (s.laneFences l reason) p := by
  obtain ⟨hpage, -⟩ := blkOf_some hp
  have hpair : pPAIR ≠ p := by
    rintro rfl
    simp at hp
  have hhead : pHEAD l ≠ p := by
    rintro rfl
    rw [blkOf_head l hl] at hp
    simp at hp
  have hdram : ¬ dramPage p := by
    rintro (h | ⟨c, hc, h⟩)
    · simp [h] at hp
    · rw [h, blkOf_dram c hc] at hp
      simp at hp
  have hfence : s.headerKeeps ((s.laneCut l reason).fenceOne (pHEAD l) reason 0 (s.firstCut l)) p :=
    (s.headerKeeps_laneCut l reason hdram).trans (State.headerKeeps_fenceOne _ _ _ _ _ _ (blkOf_head l hl) hhead hpair fun t =>
      t.headerKeeps_headStops p l reason)
  unfold State.laneFences
  dsimp only
  split
  · exact hfence.trans (State.headerKeeps_set _ _ (Or.inl hhead) (Or.inr (by decide)))
  · exact hfence
/-- A fence that comes at once: the page's header reads as the mark has set it, whatever else the fence stops. -/
theorem State.fence_marks (s : State) {p i : Nat} {b : Blk} (reason src lo hi : Nat) (hb : blkOf p = some (b, i))
    (hnever : neverFences b i = false) (hfen : s.fenced p = false) (hres : s.srsts.has p = false) (hheld : s.held p = false) :
    (s.fenceMark p reason).headerKeeps (s.fence p reason src lo hi false) p := by
  have hmarked : (s.fenceMark p reason).fenced p = true := (s.fenceMark_reason p reason).1
  obtain ⟨u, hu⟩ : ∃ u, s.fenceOne p reason src lo hi false = u := ⟨_, rfl⟩
  have hone : (s.fenceMark p reason).headerKeeps u p := by
    have hstops := (s.fenceMark p reason).headerKeeps_fenceStops reason hb hmarked
    rw [← hu]
    unfold State.fenceOne
    simp only [hb]
    rw [if_neg (by simp [hnever]), if_neg (by simp [hfen]), if_neg (by simp [hres, hheld])]
    refine hstops.trans (State.headerKeeps_pairRise _ _ ?_)
    by_cases hp : pPAIR = p
    · right
      rw [hp, hstops.fenced]
      exact hmarked
    · exact Or.inl hp
  unfold State.fence
  dsimp only
  rw [hu]
  split
  · split
    · next l hl =>
      split
      · next hlt => exact hone.trans (u.headerKeeps_laneFences reason hl hlt)
      · exact hone
    · next n hn =>
      rw [if_neg (by simp [hfen])]
      refine hone.trans (State.headerKeeps_each _ _ (fun t c hc => ?_) u)
      split
      · exact t.headerKeeps_sourceLost reason hn (List.mem_range.mp hc)
      · exact t.headerKeeps_refl p
    · exact hone
  · exact hone

/-! ### Soft resets that start and complete (O9) -/

theorem State.fenceMark_count (s : State) (p reason : Nat) :
    (s.fenceMark p reason).get p R.PG_FENCE_COUNT = min (s.get p R.PG_FENCE_COUNT + 1) 0xFFFF := by
  change (s.fenceFlags p reason).get p R.PG_FENCE_COUNT = _
  unfold State.fenceFlags
  rw [State.get_incSat_self, State.get_set_field _ _ _ (by decide), State.get_set_field _ _ _ (by decide),
    State.get_cause_field _ _ _ (by decide)]
  rfl
theorem State.fenceMark_raised (s : State) {p : Nat} (reason : Nat) (h : s.fenced p = false) :
    bit ((s.fenceMark p reason).get p R.PG_IRQ_RAW) 0 = true := by
  have hraised := s.bit_cause (p := p) (i := 0) (by decide) (State.frozen_of_unfenced h)
  change bit ((s.fenceFlags p reason).get p R.PG_IRQ_RAW) 0 = true
  unfold State.fenceFlags
  rw [State.get_incSat_field _ _ (by decide), State.get_set_field _ _ _ (by decide), State.get_set_field _ _ _ (by decide)]
  exact hraised
theorem State.fenceMark_field_any (s : State) (p reason : Nat) {q : Nat} {f : Fld} (h : f.id ≠ R.PG_FENCE_FENCED.id ∧ f.id ≠ R.PG_FENCE_REASON.id ∧
    f.id ≠ R.PG_FENCE_COUNT.id ∧ f.id ≠ R.PG_IRQ_RAW.id) : (s.fenceMark p reason).get q f = s.get q f :=
  s.get_fenceFlags_ne p reason (Or.inr h)
/-- What a page shows once it is fenced. -/
theorem State.fence_shows (s : State) {p i : Nat} {b : Blk} (reason src lo hi : Nat) (hb : blkOf p = some (b, i))
    (hnever : neverFences b i = false) (hfen : s.fenced p = false) (hres : s.srsts.has p = false) (hheld : s.held p = false) {t : State}
    (ht : s.fence p reason src lo hi false = t) :
    t.srstBusy p = false ∧ t.fenced p = true ∧ t.get p R.PG_FENCE_REASON = reason % 2 ^ R.PG_FENCE_REASON.w ∧
    t.get p R.PG_FENCE_COUNT = min (s.get p R.PG_FENCE_COUNT + 1) 0xFFFF ∧ bit (t.get p R.PG_IRQ_RAW) 0 = true ∧
    t.get p R.PG_ERR_CNT = s.get p R.PG_ERR_CNT := by
  have hmarks := s.fence_marks reason src lo hi hb hnever hfen hres hheld
  rw [ht] at hmarks
  obtain ⟨hmarked, hreason⟩ := s.fenceMark_reason p reason
  obtain ⟨-, r, w, m, hshape⟩ := s.fenceMark_frame p reason
  refine ⟨?_, hmarks.fenced.trans hmarked, (hmarks.flds _ (by simp [fenceHeader])).trans hreason,
    (hmarks.flds _ (by simp [fenceHeader])).trans (s.fenceMark_count p reason), hmarks.raw 0 (by decide) (s.fenceMark_raised reason hfen),
    (hmarks.flds _ (by simp [fenceHeader])).trans (s.fenceMark_field p reason ⟨by decide, by decide, by decide, by decide⟩)⟩
  have hshut : (s.fenceMark p reason).shut = s.shut := by
    unfold State.shut State.flag
    rw [s.fenceMark_field_any p reason ⟨by decide, by decide, by decide, by decide⟩]
  have hbusy : (s.fenceMark p reason).srstBusy p = s.srstBusy p := by
    unfold State.srstBusy State.held
    rw [hshut, hshape]
  rw [hmarks.srstBusy, hbusy, State.srstBusy, hres, hheld]
  rfl
theorem softWaits_of_not_running {s : State} {p : Nat} (h : (s.srsts.getD p {}).running = true) : s.softWaits p = false := by
  simp [State.softWaits, h]
theorem State.exec_softResetComplete (s : State) (p : Page) (hhas : s.srsts.has p = true) (hrun : (s.srsts.getD p {}).running = true)
    (hheld : s.held p = false) : exec (.softResetComplete p) s = .next (s.softDone p) := by
  change execSoftResetComplete p s = _
  unfold execSoftResetComplete
  rw [if_pos (by simp [hhas, hrun, hheld])]
/-- A soft reset that meets no cause ends. -/
theorem State.softEnded_spec (s : State) (p : Nat) (hheld : s.held p = false) {t : State} (ht : t = { s with srsts := s.srsts.del p }) :
    t.srsts.has p = false ∧ t.srstBusy p = false ∧ s.regsBut t [] ∧ (∀ q, q ≠ p → t.srsts.getD q {} = s.srsts.getD q {}) := by
  subst ht
  refine ⟨NMap.has_del_self _ _, ?_, fun _ _ _ => rfl, fun q hq => NMap.getD_del_other _ _ hq⟩
  have hend : NMap.has (s.srsts.del p) p = false := NMap.has_del_self _ _
  simp only [State.srstBusy, hend, Bool.or_false]
  exact hheld

/-- Settles O9, by the branches of the three events. -/
theorem softResetStartsAndCompletes : Obligations.SoftResetStartsAndCompletes := by
  unfold Obligations.SoftResetStartsAndCompletes
  refine ⟨fun s p b hwaits hbar => ⟨fun hdue => ?_, fun hstop => ?_, fun hdue hrun => ?_, fun hlate => ?_, fun hearly => ?_⟩,
    fun s p hwaits => ⟨?_, ?_⟩, fun s p hhas hrun hheld hcauses => ?_, fun s p b i l hb hhas hrun hheld hcauses hl => ⟨fun hnil => ?_,
      fun d m hcons hnever hfen => ?_⟩, fun s p hno => ?_⟩
  · change execSoftResetStart p s = _
    simp [execSoftResetStart, hwaits, hbar, hdue]
  · change execSoftResetStart p s = _
    simp [execSoftResetStart, hwaits, hbar, hstop]
  · change execSoftResetStart p s = _
    simp [execSoftResetStart, hbar, hdue, hrun]
  · change execSoftResetTimeout p s = _
    simp [execSoftResetTimeout, hwaits, hlate]
  · change execSoftResetTimeout p s = _
    unfold execSoftResetTimeout
    rw [if_neg (by simp only [hwaits, Bool.true_and, decide_eq_true_eq]; omega)]
  · change execSoftResetStart p s = _
    simp [execSoftResetStart, hwaits]
  · change execSoftResetTimeout p s = _
    simp [execSoftResetTimeout, hwaits]
  · rw [s.exec_softResetComplete p hhas hrun hheld]
    have hdone : s.softDone p = { s with srsts := s.srsts.del p } := by
      unfold State.softDone
      rw [hcauses]
      cases blkOf p <;> rfl
    rw [hdone]
    obtain ⟨h1, h2, h3, h4⟩ := s.softEnded_spec p hheld rfl
    exact ⟨_, rfl, h1, h2, h3, h4, rfl⟩
  · rw [s.exec_softResetComplete p hhas hrun hheld]
    have hdone : s.softDone p = ({ s with srsts := s.srsts.del p } : State).tickFresh := by
      unfold State.softDone
      rw [hb]
      split
      · next heq hc =>
        injection heq with heq
        injection heq with h1 h2
        subst h1 h2
        rw [← hc, ← hl, hnil]
      · next hother =>
        obtain ⟨c, r, hcr⟩ := List.exists_cons_of_ne_nil hcauses
        exact absurd hcr (hother b i c r rfl)
    obtain ⟨-, h2, -, -⟩ := s.softEnded_spec p hheld rfl
    rw [hdone]
    exact ⟨_, rfl, h2, fun _ _ _ => rfl, rfl⟩
  · rw [s.exec_softResetComplete p hhas hrun hheld]
    have hdone : s.softDone p = ({ s with srsts := s.srsts.del p } : State).tickFresh.fence p (m.foldl min d) 0 0 0 false := by
      unfold State.softDone
      rw [hb]
      split
      · next heq hc =>
        injection heq with heq
        injection heq with h1 h2
        subst h1 h2
        rw [← hc, ← hl, hcons]
      · next hother =>
        obtain ⟨c, r, hcr⟩ := List.exists_cons_of_ne_nil hcauses
        exact absurd hcr (hother b i c r rfl)
    obtain ⟨h1, h2, h3, h4, h5, h6⟩ := State.fence_shows (({ s with srsts := s.srsts.del p } : State).tickFresh) (m.foldl min d) 0 0 0 hb
      hnever hfen (NMap.has_del_self _ _) hheld rfl
    rw [hdone]
    exact ⟨_, rfl, h1, h2, h3, h4, h5, h6⟩
  · change execSoftResetComplete p s = _
    unfold execSoftResetComplete
    rw [if_neg]
    rcases hno with h | h | h <;> simp [h]

end Sys2Proof.Machine
end

section
/-! ### What a fence shows in the page header (O10) -/
open Sys2Proof Sys2Proof.Machine
namespace Sys2Proof.Machine

/-! ### Errors that are counted one after the other (R40) -/

theorem errorsCounted_of_regs {s t u : State} {p n code src addr : Nat} (h : errorsCounted s t p n code src addr) (hr : u.regs = t.regs) :
    errorsCounted s u p n code src addr := by
  unfold errorsCounted at *
  simpa only [State.get_congr hr] using h
/-- A later error is counted and recorded no more. -/
theorem errorsCounted_more {s t : State} {p n code src addr : Nat} (h : errorsCounted s t p n code src addr) (hn : 0 < n)
    (hf : t.frozen p = false) (c x a : Nat) : errorsCounted s (t.err64 p c x a) p (n + 1) code src addr := by
  obtain ⟨hcnt, -, hinfo⟩ := h
  have h0 : t.get p R.PG_ERR_CNT ≠ 0 := by omega
  have herr : t.err64 p c x a = (t.incSat p R.PG_ERR_CNT).cause p 1 := by
    rw [State.err64, State.err, if_neg (by simp [hf]), State.errCount, if_neg h0]
  have hkeep : ∀ f : Fld, f.id ≠ R.PG_ERR_CNT.id → f.id ≠ R.PG_IRQ_RAW.id → (t.err64 p c x a).get p f = t.get p f := fun f h1 h2 => by
    rw [herr, State.get_cause_field _ _ _ h2, State.get_incSat_field _ _ h1]
  refine ⟨?_, ?_, fun hs => ?_⟩
  · rw [herr, State.get_cause_field _ _ _ (by decide), State.get_incSat_self, hcnt]
    have hw : 2 ^ R.PG_ERR_CNT.w - 1 = 2 ^ 32 - 1 := rfl
    rw [hw]
    generalize 2 ^ 32 - 1 = m
    omega
  · rw [herr]
    refine State.bit_cause _ (by decide) ?_
    rw [State.frozen_congr (State.get_incSat_field _ _ (by decide))]
    exact hf
  · rw [hkeep _ (by decide) (by decide), hkeep _ (by decide) (by decide), hkeep _ (by decide) (by decide), hkeep _ (by decide) (by decide)]
    exact hinfo hs
theorem State.err64_counted (s : State) {p : Nat} (hf : s.frozen p = false) {c x : Nat} (hc : c < 256) (hx : x < 16) (a : Nat) :
    errorsCounted s (s.err64 p c x a) p 1 c x a := by
  obtain ⟨hcnt, hinfo⟩ := s.err_recorded hf c x a (a / 2 ^ 32) 0
  refine ⟨hcnt, ?_, fun h0 => ?_⟩
  · rw [State.err64, State.err, if_neg (by simp [hf])]
    refine State.bit_cause _ (by decide) ?_
    rw [State.frozen_congr (t := s.errCount p c x a (a / 2 ^ 32) 0) (s := s), hf]
    unfold State.errCount
    rw [State.get_incSat_field _ _ (by decide)]
    split
    · rw [State.get_set_field _ _ _ (by decide), State.get_set_field _ _ _ (by decide), State.get_set_field _ _ _ (by decide),
        State.get_set_field _ _ _ (by decide), State.get_set_field _ _ _ (by decide)]
    · rfl
  · obtain ⟨hcode, hsrc⟩ := hinfo h0
    refine ⟨hcode.trans (Nat.mod_eq_of_lt hc), hsrc.trans (Nat.mod_eq_of_lt hx), ?_, ?_⟩
    · rw [State.err64, State.err, if_neg (by simp [hf]), State.errCount, if_pos h0, State.get_cause_field _ _ _ (by decide),
        State.get_incSat_field _ _ (by decide), State.get_set_field _ _ _ (by decide), State.get_set_field _ _ _ (by decide),
        State.get_set_field _ _ _ (by decide), State.get_set_field _ _ _ (by decide), State.get_set_self]
      rfl
    · rw [State.err64, State.err, if_neg (by simp [hf]), State.errCount, if_pos h0, State.get_cause_field _ _ _ (by decide),
        State.get_incSat_field _ _ (by decide), State.get_set_field _ _ _ (by decide), State.get_set_field _ _ _ (by decide),
        State.get_set_field _ _ _ (by decide), State.get_set_self]
      rfl
/-- Errors of one page, each followed by what leaves the registers. -/
def State.errsThen (g : State → Nat → State) (p src : Nat) (adr : Nat → Nat) (s : State) (l : List Nat) : State :=
  l.foldl (fun t c => g (t.err64 p c src (adr c)) c) s
section
variable {g : State → Nat → State} (hg : ∀ t c, (g t c).regs = t.regs) {p src : Nat} (adr : Nat → Nat)
include hg
theorem State.regsBut_errsThen (l : List Nat) (s : State) : s.regsBut (s.errsThen g p src adr l) (errFields p) := by
  unfold State.errsThen
  induction l generalizing s with
  | nil => exact s.regsBut_refl _
  | cons c l ih =>
    refine State.regsBut_trans (State.regsBut_of_regs ?_ (hg _ c)) (ih _)
    exact State.regsBut_err (s.regsBut_refl _) _ _ _ _ _ _ fun _ he => he
theorem State.frozen_errsThen (l : List Nat) (s : State) : (s.errsThen g p src adr l).frozen p = s.frozen p := by
  refine State.frozen_congr ((State.regsBut_errsThen hg adr l s).field ?_ p)
  unfold errFields
  simp only [List.forall_mem_cons]
  decide
theorem errorsCounted_errsThen (l : List Nat) {s t : State} {n code x addr : Nat} (h : errorsCounted s t p n code x addr) (hn : 0 < n)
    (hf : t.frozen p = false) : errorsCounted s (t.errsThen g p src adr l) p (n + l.length) code x addr := by
  induction l generalizing t n with
  | nil => exact h
  | cons c l ih =>
    have hnext := errorsCounted_of_regs (errorsCounted_more h hn hf c src (adr c)) (hg (t.err64 p c src (adr c)) c)
    have hlen : n + (c :: l).length = n + 1 + l.length := by
      rw [List.length_cons]
      omega
    rw [hlen]
    refine ih hnext (by omega) ?_
    exact (State.frozen_errsThen hg adr [c] t).trans hf
theorem State.errsThen_counted (s : State) {r : Nat} (rs : List Nat) (hf : s.frozen p = false) (hr : r < 256) (hs : src < 16) :
    errorsCounted s (s.errsThen g p src adr (r :: rs)) p (rs.length + 1) r src (adr r) := by
  have hfirst := errorsCounted_of_regs (s.err64_counted hf hr hs (adr r)) (hg (s.err64 p r src (adr r)) r)
  have hrest := errorsCounted_errsThen hg (src := src) adr rs hfirst (by decide) ((State.frozen_errsThen hg adr [r] s).trans hf)
  rwa [Nat.add_comm 1] at hrest
end
theorem State.reports_errs (p src : Nat) (adr : Nat → Nat) (l : List Nat) (s : State) :
    s.reports (s.errsThen (fun t _ => t) p src adr l) := by
  unfold State.errsThen
  induction l generalizing s with
  | nil => exact s.reports_refl
  | cons c l ih => exact (State.reports_err _ _ _ _ _ _ _).trans (ih _)
theorem State.reports.sameBehind {s t : State} (h : s.reports t) : s.sameBehind t := by
  obtain ⟨r, w, rfl⟩ := h
  rfl

/-! ### Causes kept for the end of a soft reset (R384) -/

theorem State.held_congr {s t : State} (p : Nat) (hh : t.heldReset = s.heldReset) (hs : t.shut = s.shut) : t.held p = s.held p := by
  unfold State.held
  rw [hh, hs]
/-- Causes that are kept one after the other, each after a step that only reports. -/
theorem State.causesKept {k : State → Nat → State} (hk : ∀ t c, t.reports (k t c) ∧ (k t c).shut = t.shut) (p : Nat) (l : List Nat) (s : State)
    {t : State} (ht : l.foldl (fun t c => (k t c).causeKept p c) s = t) :
    t.srsts.getD p {} = { s.srsts.getD p {} with
      causes := (s.srsts.getD p {}).causes ++ l
      running := (s.srsts.getD p {}).running || (!l.isEmpty && s.held p)
      due := if l.isEmpty then (s.srsts.getD p {}).due else !((s.srsts.getD p {}).running || s.held p) } ∧
    ∃ r w m, t = { s with regs := r, host := { s.host with waiting := w }, srsts := m } := by
  induction l generalizing s t with
  | nil =>
    subst ht
    simp only [List.foldl_nil, List.append_nil, List.isEmpty_nil, Bool.not_true, Bool.false_and, Bool.or_false, if_true, true_and]
    exact ⟨_, _, _, rfl⟩
  | cons c l ih =>
    obtain ⟨hrep, hshut⟩ := hk s c
    obtain ⟨u, hu⟩ : ∃ u, k s c = u := ⟨_, rfl⟩
    rw [hu] at hrep hshut
    rw [List.foldl_cons, hu] at ht
    have hheld : u.held p = s.held p := by
      obtain ⟨r, w, hr⟩ := hrep
      exact State.held_congr p (by rw [hr]) hshut
    have hsrsts : u.srsts = s.srsts := by
      obtain ⟨r, w, hr⟩ := hrep
      rw [hr]
    have hentry : (u.causeKept p c).srsts.getD p {} = { s.srsts.getD p {} with
        causes := (s.srsts.getD p {}).causes ++ [c]
        running := (s.srsts.getD p {}).running || s.held p
        due := !((s.srsts.getD p {}).running || s.held p) } := by
      rw [State.causeKept, hsrsts, hheld]
      exact NMap.getD_put_self _ _ _ _
    obtain ⟨hrest, r', w', m', hshape⟩ := ih (u.causeKept p c) ht
    have hheld' : (u.causeKept p c).held p = s.held p := hheld
    rw [hentry, hheld'] at hrest
    refine ⟨hrest.trans ?_, ?_⟩
    · simp only [List.append_assoc, List.singleton_append, List.isEmpty_cons, Bool.not_false, Bool.true_and]
      congr 1
      · cases l.isEmpty <;> simp
      · cases l.isEmpty <;> simp
    · obtain ⟨r, w, hr⟩ := hrep
      exact ⟨r', w', m', by rw [hshape, hr]; rfl⟩

theorem State.causesKept_shape (p : Nat) (l : List Nat) (s : State) :
    ({ l.foldl (fun t c => t.causeKept p c) s with srsts := s.srsts } : State) = s := by
  have h : ∃ m, l.foldl (fun t c => t.causeKept p c) s = { s with srsts := m } := by
    induction l generalizing s with
    | nil => exact ⟨_, rfl⟩
    | cons c l ih =>
      obtain ⟨m, hm⟩ := ih (s.causeKept p c)
      exact ⟨m, hm⟩
  obtain ⟨m, hm⟩ := h
  rw [hm]
theorem State.shut_err (s : State) (p c x lo hi dir : Nat) : (s.err p c x lo hi dir).shut = s.shut := by
  have hbut := State.regsBut_err (s.regsBut_refl (errFields p)) p c x lo hi dir fun _ he => he
  rw [State.shut, State.flag, hbut.field (by unfold errFields; simp only [List.forall_mem_cons]; decide)]
  rfl

/-! ### A fence of the same core cycle (R47) -/

theorem State.errCount_keeps (s : State) (p c x lo hi : Nat) {f : Fld}
    (h : ∀ g ∈ [R.PG_ERR_CNT, R.PG_ERR_ADDR_LO, R.PG_ERR_ADDR_HI, R.PG_ERR_INFO_SRC, R.PG_ERR_INFO_DIR, R.PG_ERR_INFO_CODE], f.id ≠ g.id) :
    (s.errCount p c x lo hi 0).get p f = s.get p f := by
  simp only [List.forall_mem_cons, List.not_mem_nil, false_imp_iff, implies_true, and_true] at h
  obtain ⟨h1, h2, h3, h4, h5, h6⟩ := h
  unfold State.errCount
  rw [State.get_incSat_field _ _ h1]
  split
  · rw [State.get_set_field _ _ _ h6, State.get_set_field _ _ _ h5, State.get_set_field _ _ _ h4, State.get_set_field _ _ _ h3,
      State.get_set_field _ _ _ h2]
  · rfl
theorem State.errCount_count (s : State) (p c x lo hi : Nat) :
    (s.errCount p c x lo hi 0).get p R.PG_ERR_CNT = min (s.get p R.PG_ERR_CNT + 1) (2 ^ R.PG_ERR_CNT.w - 1) := by
  unfold State.errCount
  rw [State.get_incSat_self]
  split
  · rw [State.get_set_field _ _ _ (by decide), State.get_set_field _ _ _ (by decide), State.get_set_field _ _ _ (by decide),
      State.get_set_field _ _ _ (by decide), State.get_set_field _ _ _ (by decide)]
  · rfl
theorem State.errCount_regs (s : State) (p c x lo hi : Nat) :
    s.regsBut (s.errCount p c x lo hi 0) (errFields p) ∧ ∃ r, s.errCount p c x lo hi 0 = { s with regs := r } := by
  unfold State.errCount
  refine ⟨State.regsBut_incSat ?_ (by simp [errFields]), ?_⟩
  · split
    · exact State.regsBut_set (State.regsBut_set (State.regsBut_set (State.regsBut_set (State.regsBut_set (s.regsBut_refl _) _
        (by simp [errFields])) _ (by simp [errFields])) _ (by simp [errFields])) _ (by simp [errFields])) _ (by simp [errFields])
    · exact s.regsBut_refl _
  · refine State.wrote.trans (t := if s.get p R.PG_ERR_CNT = 0 then
      ((((s.set p R.PG_ERR_ADDR_LO lo).set p R.PG_ERR_ADDR_HI hi).set p R.PG_ERR_INFO_SRC x).set p R.PG_ERR_INFO_DIR 0).set p
        R.PG_ERR_INFO_CODE c
      else s) ?_ (State.wrote_addSat _ _ _ _)
    split
    · exact ((((s.wrote_set _ _ _).trans (State.wrote_set _ _ _ _)).trans (State.wrote_set _ _ _ _)).trans (State.wrote_set _ _ _ _)).trans
        (State.wrote_set _ _ _ _)
    · exact s.wrote_refl
theorem State.fenceJoin_spec (s : State) (p c x lo hi : Nat) {t : State} (hc : c < 256) (ht : s.fenceJoin p c x lo hi true = t) :
    t.get p R.PG_ERR_CNT = min (s.get p R.PG_ERR_CNT + 1) (2 ^ R.PG_ERR_CNT.w - 1) ∧
    t.get p R.PG_FENCE_REASON = min (s.get p R.PG_FENCE_REASON) c ∧
    t.get p R.PG_FENCE_FENCED = s.get p R.PG_FENCE_FENCED ∧
    s.regsBut t (errFields p ++ [(p, R.PG_FENCE_REASON)]) ∧ ∃ r, t = { s with regs := r } := by
  have hcnt := s.errCount_count p c x lo hi
  have hreason := s.errCount_keeps p c x lo hi (f := R.PG_FENCE_REASON) (by decide)
  have hfen := s.errCount_keeps p c x lo hi (f := R.PG_FENCE_FENCED) (by decide)
  obtain ⟨hbut, r, hr⟩ := s.errCount_regs p c x lo hi
  have hbut' : s.regsBut (s.errCount p c x lo hi 0) (errFields p ++ [(p, R.PG_FENCE_REASON)]) := State.regsBut_mono hbut (by simp)
  subst ht
  unfold State.fenceJoin
  rw [if_pos rfl]
  dsimp only
  generalize s.errCount p c x lo hi 0 = u at *
  obtain rfl := hr
  generalize hv : ({ s with regs := r } : State) = v at *
  split
  · next hlt =>
    refine ⟨?_, ?_, ?_, State.regsBut_set hbut' _ (by simp), (State.wrote.trans ⟨r, hv.symm⟩ (v.wrote_set p R.PG_FENCE_REASON c) : s.wrote _)⟩
    · rw [State.get_set_field _ _ _ (by decide), hcnt]
    · rw [State.get_set_self, ← hreason, Nat.min_eq_right (Nat.le_of_lt hlt)]
      exact Nat.mod_eq_of_lt hc
    · rw [State.get_set_field _ _ _ (by decide), hfen]
  · next hle =>
    refine ⟨hcnt, ?_, hfen, hbut', r, hv.symm⟩
    rw [← hreason]
    omega
/-- Further causes of a page that fences in this core cycle. -/
theorem State.fencesJoin (p x : Nat) (adr : Nat → Nat) (hl : ∀ l, blkOf p ≠ some (.lane, l)) {b : Blk} {i : Nat} (hb : blkOf p = some (b, i))
    (hnever : neverFences b i = false) (l : List Nat) (hcodes : ∀ c ∈ l, c < 256) (s : State) (hnow : s.fencedNow p = true) {t : State}
    (ht : l.foldl (fun t c => t.fence p c x (adr c) (adr c / 2 ^ 32)) s = t) :
    (l ≠ [] → t.get p R.PG_ERR_CNT = min (s.get p R.PG_ERR_CNT + l.length) (2 ^ 32 - 1)) ∧
    t.get p R.PG_FENCE_REASON = l.foldl min (s.get p R.PG_FENCE_REASON) ∧ t.fenced p = true ∧
    s.regsBut t (errFields p ++ [(p, R.PG_FENCE_REASON)]) ∧ ∃ r, t = { s with regs := r } := by
  have hfen : s.fenced p = true := by
    simp only [State.fencedNow, Bool.and_eq_true] at hnow
    exact hnow.1.1
  induction l generalizing s with
  | nil =>
    subst ht
    exact ⟨fun h => absurd rfl h, rfl, hfen, s.regsBut_refl _, _, rfl⟩
  | cons c l ih =>
    have hstep : s.fence p c x (adr c) (adr c / 2 ^ 32) = s.fenceJoin p c x (adr c) (adr c / 2 ^ 32) true := by
      have hone : s.fenceOne p c x (adr c) (adr c / 2 ^ 32) = s.fenceJoin p c x (adr c) (adr c / 2 ^ 32) true := by
        unfold State.fenceOne
        simp only [hb]
        rw [if_neg (by simp [hnever]), if_pos hfen, if_pos hnow]
      unfold State.fence
      dsimp only
      rw [hone]
      split
      · split
        · next j hj => exact absurd hj (hl j)
        · rfl
        · rfl
      · rfl
    rw [List.foldl_cons, hstep] at ht
    obtain ⟨u, hu⟩ : ∃ u, s.fenceJoin p c x (adr c) (adr c / 2 ^ 32) true = u := ⟨_, rfl⟩
    obtain ⟨hcnt, hreason, hfenced, hbut, r, hr⟩ := s.fenceJoin_spec p c x _ _ (hcodes c (by simp)) hu
    rw [hu] at ht
    have hfen' : u.fenced p = true := by
      rw [State.fenced, State.flag, hfenced]
      exact hfen
    have hnow' : u.fencedNow p = true := by
      have h1 : u.fenceAt = s.fenceAt ∧ u.tick = s.tick := by rw [hr]; exact ⟨rfl, rfl⟩
      rw [State.fencedNow, hfen', h1.1, h1.2]
      simp only [State.fencedNow, Bool.and_eq_true] at hnow ⊢
      exact ⟨⟨trivial, hnow.1.2⟩, hnow.2⟩
    obtain ⟨k1, k2, k3, k4, r', k5⟩ := ih (fun d hd => hcodes d (List.mem_cons_of_mem _ hd)) u hnow' ht hfen'
    refine ⟨fun _ => ?_, ?_, k3, State.regsBut_trans hbut k4, r', by rw [k5, hr]⟩
    · have hw : 2 ^ R.PG_ERR_CNT.w - 1 = 2 ^ 32 - 1 := rfl
      rw [hw] at hcnt
      by_cases hnil : l = []
      · subst hnil
        subst ht
        exact hcnt
      · rw [k1 hnil, hcnt, List.length_cons]
        generalize 2 ^ 32 - 1 = m
        omega
    · rw [k2, hreason, List.foldl_cons]

/-! ### What the fence of a lane moves beside it (R340, R341) -/

theorem State.headerKeeps_updLane (s : State) (p l : Nat) (g : LaneSt → LaneSt) : s.headerKeeps (s.updLane l g) p :=
  State.headerKeeps_of_regs p rfl rfl rfl rfl rfl
theorem State.headerKeeps_tlmLane (s : State) (p h st : Nat) : s.headerKeeps (s.tlmLane h st) p := by
  unfold State.tlmLane
  split_ifs
  · exact s.headerKeeps_refl p
  · exact s.headerKeeps_updHead p _ _
  · exact s.headerKeeps_updHead p _ _
  · exact s.headerKeeps_refl p
theorem State.headerKeeps_scanLost (s : State) (p l : Nat) : s.headerKeeps (s.scanLost l) p := by
  unfold State.scanLost
  refine State.headerKeeps.trans ?_ (State.headerKeeps_updLane _ p _ _)
  split
  · exact State.headerKeeps_of_regs p rfl rfl rfl rfl rfl
  · exact s.headerKeeps_refl p
theorem State.headerKeeps_setLane (s : State) (p l st : Nat) : s.headerKeeps (s.setLane l st) p := by
  unfold State.setLane
  dsimp only
  have hmoved := (s.headerKeeps_updLane p l fun x => { x with st := st }).trans (State.headerKeeps_tlmLane _ p l st)
  split_ifs
  · exact hmoved
  · exact hmoved.trans (State.headerKeeps_cause _ p _ _)
  · exact (hmoved.trans (State.headerKeeps_cause _ p _ _)).trans (State.headerKeeps_scanLost _ p _)
  · exact hmoved
theorem State.headerKeeps_laneFault (s : State) (p n : Nat) (l : List Nat) : s.headerKeeps (s.laneFault n l) p := by
  have hcdr : ∀ t : State, ∀ g, t.headerKeeps (t.updLane n g).tickFresh p := fun t g => State.headerKeeps_of_regs p rfl rfl rfl rfl rfl
  have hlock : s.headerKeeps (if (s.laneAt n).block && (l.contains 0x20 || l.contains 0x21) then s.incSat (pLANE n) R.LANE_LOCK_CNT else s) p := by
    split
    · exact s.headerKeeps_set _ (Or.inr (by decide)) (Or.inr (by decide))
    · exact s.headerKeeps_refl p
  unfold State.laneFault
  dsimp only
  generalize (if (s.laneAt n).block && (l.contains 0x20 || l.contains 0x21) then s.incSat (pLANE n) R.LANE_LOCK_CNT else s) = u at *
  have hnoise : s.headerKeeps (if l.contains 0x20 then
      (u.updLane n fun y => { y with cdr := false, rxEidle := Config.free (55 * 2 ^ 32) s.fresh % 2 == 1 }).tickFresh else u) p := by
    split
    · exact hlock.trans (hcdr _ _)
    · exact hlock
  generalize (if l.contains 0x20 then
      (u.updLane n fun y => { y with cdr := false, rxEidle := Config.free (55 * 2 ^ 32) s.fresh % 2 == 1 }).tickFresh else u) = v at *
  split
  · exact (hnoise.trans (State.headerKeeps_updLane v p n _)).trans (State.headerKeeps_setLane _ p n 1)
  · exact hnoise

/-! ### The feed ports follow a lane -/

theorem State.headerKeeps_updPort (s : State) (p n : Nat) (g : PortSt → PortSt) : s.headerKeeps (s.updPort n g) p :=
  State.headerKeeps_of_regs p rfl rfl rfl rfl rfl
theorem State.headerKeeps_updStream (s : State) (p n : Nat) (live : Bool) (g : StreamSt → StreamSt) : s.headerKeeps (s.updStream n live g) p :=
  State.headerKeeps_of_regs p rfl rfl rfl rfl rfl
theorem State.headerKeeps_feedEvict (p n : Nat) (live : Bool) (f : Nat) (s : State) : s.headerKeeps (s.feedEvict n live f) p := by
  induction f generalizing s with
  | zero => exact s.headerKeeps_refl p
  | succ f ih =>
    unfold State.feedEvict
    dsimp only
    split
    · exact ((s.headerKeeps_updStream p n live _).trans (State.headerKeeps_set _ _ (Or.inr (by decide)) (Or.inr (by decide)))).trans (ih _)
    · exact s.headerKeeps_refl p
theorem State.headerKeeps_feedMakeRoom (s : State) (p n : Nat) : s.headerKeeps (s.feedMakeRoom n) p := by
  unfold State.feedMakeRoom
  exact (((State.headerKeeps_feedEvict p n false 512 s).trans (State.headerKeeps_feedEvict p n true 512 _)).trans
    (State.headerKeeps_updStream _ p n false _)).trans (State.headerKeeps_updStream _ p n true _)
theorem State.headerKeeps_pauseSend (s : State) (p n quanta : Nat) : s.headerKeeps (s.pauseSend n quanta) p := by
  unfold State.pauseSend
  exact (s.headerKeeps_set _ (Or.inr (by decide)) (Or.inr (by decide))).trans (State.headerKeeps_of_regs p rfl rfl rfl rfl rfl)
theorem State.headerKeeps_portSettle (s : State) (p n : Nat) : s.headerKeeps (s.portSettle n) p := by
  have hlink : s.headerKeeps (if (s.portAt n).link = (s.laneAt (feedLane n)).block then s
      else (s.updPort n fun x => { x with link := (s.laneAt (feedLane n)).block }).cause (pFEED n) 6) p := by
    split
    · exact s.headerKeeps_refl p
    · exact (s.headerKeeps_updPort p n _).trans (State.headerKeeps_cause _ p _ _)
  unfold State.portSettle
  dsimp only
  generalize (if (s.portAt n).link = (s.laneAt (feedLane n)).block then s
      else (s.updPort n fun x => { x with link := (s.laneAt (feedLane n)).block }).cause (pFEED n) 6) = u at *
  refine hlink.trans ?_
  split
  · split
    · exact (u.headerKeeps_updPort p n _).trans (State.headerKeeps_pauseSend _ p n _)
    · exact u.headerKeeps_refl p
  · split
    · exact u.headerKeeps_refl p
    · split
      · exact (u.headerKeeps_updPort p n _).trans (State.headerKeeps_pauseSend _ p n _)
      · exact u.headerKeeps_updPort p n _
theorem State.headerKeeps_xoffSettle (s : State) (p n : Nat) : s.headerKeeps (s.xoffSettle n) p := by
  unfold State.xoffSettle
  exact s.headerKeeps_updPort p n _
theorem State.headerKeeps_feedSettle (s : State) (p : Nat) : s.headerKeeps s.feedSettle p := by
  have hroom : s.headerKeeps (s.each ((List.range 24).filter fun n => s.gapOpen n false || s.gapOpen n true) State.feedMakeRoom) p :=
    State.headerKeeps_each _ State.feedMakeRoom (fun t n _ => t.headerKeeps_feedMakeRoom p n) s
  unfold State.feedSettle
  dsimp only
  generalize s.each ((List.range 24).filter fun n => s.gapOpen n false || s.gapOpen n true) State.feedMakeRoom = u at *
  exact (hroom.trans (State.headerKeeps_each _ State.xoffSettle (fun t n _ => t.headerKeeps_xoffSettle p n) u)).trans
    (State.headerKeeps_each _ State.portSettle (fun t n _ => t.headerKeeps_portSettle p n) _)

/-! ### A page that fences at once, or once its line is done (R17, R47) -/

/-- Errors that were counted before a page's header is left as it is. -/
theorem errorsCounted_keeps {s t u : State} {p n code src addr : Nat} (h : errorsCounted s t p n code src addr) (hk : t.headerKeeps u p) :
    errorsCounted s u p n code src addr := by
  obtain ⟨hcnt, hirq, hinfo⟩ := h
  refine ⟨(hk.flds _ (by simp [fenceHeader])).trans hcnt, hk.raw 1 (by decide) hirq, fun h0 => ?_⟩
  obtain ⟨h1, h2, h3, h4⟩ := hinfo h0
  exact ⟨(hk.flds _ (by simp [fenceHeader])).trans h1, (hk.flds _ (by simp [fenceHeader])).trans h2, (hk.flds _ (by simp [fenceHeader])).trans h3,
    (hk.flds _ (by simp [fenceHeader])).trans h4⟩
theorem errorsCounted_fenceMark {s t : State} {p n code src addr : Nat} (h : errorsCounted s t p n code src addr) (reason : Nat) :
    errorsCounted s (t.fenceMark p reason) p n code src addr := by
  obtain ⟨hcnt, hirq, hinfo⟩ := h
  have hf : ∀ f : Fld, (f.id ≠ R.PG_FENCE_FENCED.id ∧ f.id ≠ R.PG_FENCE_REASON.id ∧ f.id ≠ R.PG_FENCE_COUNT.id ∧ f.id ≠ R.PG_IRQ_RAW.id) →
      (t.fenceMark p reason).get p f = t.get p f := fun f h => t.fenceMark_field p reason h
  refine ⟨(hf _ ⟨by decide, by decide, by decide, by decide⟩).trans hcnt, t.fenceMark_bit p reason (by decide) hirq, fun h0 => ?_⟩
  obtain ⟨h1, h2, h3, h4⟩ := hinfo h0
  exact ⟨(hf _ ⟨by decide, by decide, by decide, by decide⟩).trans h1, (hf _ ⟨by decide, by decide, by decide, by decide⟩).trans h2,
    (hf _ ⟨by decide, by decide, by decide, by decide⟩).trans h3, (hf _ ⟨by decide, by decide, by decide, by decide⟩).trans h4⟩
/-- A fence with its errors counted before. -/
theorem State.fence_counted {s t : State} {p i n code x addr : Nat} {b : Blk} (hcount : errorsCounted s t p n code x addr) (reason src lo hi : Nat)
    (hr : reason < 256) (hb : blkOf p = some (b, i)) (hnever : neverFences b i = false) (hfen : t.fenced p = false)
    (hres : t.srsts.has p = false) (hheld : t.held p = false) (hc : t.get p R.PG_FENCE_COUNT = s.get p R.PG_FENCE_COUNT) {u v : State}
    (hu : t.fence p reason src lo hi false = u) (huv : u.headerKeeps v p) :
    errorsCounted s v p n code x addr ∧ v.fenced p = true ∧ v.get p R.PG_FENCE_REASON = reason ∧
    v.get p R.PG_FENCE_COUNT = min (s.get p R.PG_FENCE_COUNT + 1) 0xFFFF ∧ bit (v.get p R.PG_IRQ_RAW) 0 = true := by
  have hmarks := t.fence_marks reason src lo hi hb hnever hfen hres hheld
  obtain ⟨-, h2, h3, h4, h5, -⟩ := t.fence_shows reason src lo hi hb hnever hfen hres hheld hu
  rw [hu] at hmarks
  have hw : reason % 2 ^ R.PG_FENCE_REASON.w = reason := Nat.mod_eq_of_lt hr
  exact ⟨errorsCounted_keeps (errorsCounted_keeps (errorsCounted_fenceMark hcount reason) hmarks) huv, huv.fenced.trans h2,
    (huv.flds _ (by simp [fenceHeader])).trans (h3.trans hw), (huv.flds _ (by simp [fenceHeader])).trans (h4.trans (by rw [hc])),
    huv.raw 0 (by decide) h5⟩
theorem foldl_min_le (l : List Nat) (r : Nat) : l.foldl min r ≤ r := by
  induction l generalizing r with
  | nil => exact Nat.le_refl r
  | cons c l ih => exact (ih _).trans (Nat.min_le_left r c)
/-- A state that has counted errors of a page beside s. -/
structure State.errsOnly (s t : State) (p : Nat) : Prop where
  shape : s.reports t
  but : s.regsBut t (errFields p)
section
variable {s t : State} {p : Nat} (h : s.errsOnly t p)
include h
theorem State.errsOnly.get {f : Fld} (hf : ∀ g ∈ [R.PG_ERR_CNT, R.PG_ERR_ADDR_LO, R.PG_ERR_ADDR_HI, R.PG_ERR_INFO_SRC, R.PG_ERR_INFO_DIR,
    R.PG_ERR_INFO_CODE, R.PG_IRQ_RAW], f.id ≠ g.id) (q : Nat) : t.get q f = s.get q f := by
  refine h.but.field (fun e he => ?_) q
  simp only [errFields, List.mem_cons, List.not_mem_nil, or_false] at he
  simp only [List.forall_mem_cons, List.not_mem_nil, false_imp_iff, implies_true, and_true] at hf
  obtain ⟨h1, h2, h3, h4, h5, h6, h7⟩ := hf
  rcases he with rfl | rfl | rfl | rfl | rfl | rfl | rfl
  · exact h1
  · exact h2
  · exact h3
  · exact h4
  · exact h5
  · exact h6
  · exact h7
theorem State.errsOnly.fenced (q : Nat) : t.fenced q = s.fenced q := by
  rw [State.fenced, State.flag, h.get (by decide)]
  rfl
theorem State.errsOnly.enabled (q : Nat) : t.enabled q = s.enabled q := by
  rw [State.enabled, State.flag, h.get (by decide)]
  rfl
theorem State.errsOnly.held (q : Nat) : t.held q = s.held q := by
  obtain ⟨r, w, hr⟩ := h.shape
  refine State.held_congr q (by rw [hr]) ?_
  rw [State.shut, State.flag, h.get (by decide)]
  rfl
theorem State.errsOnly.srsts : t.srsts = s.srsts := by
  obtain ⟨r, w, hr⟩ := h.shape
  rw [hr]
theorem State.errsOnly.lineRuns (b : Nat) : t.lineRuns b = s.lineRuns b := by
  obtain ⟨r, w, hr⟩ := h.shape
  have hwork : t.working = s.working := State.working_congr h.srsts (by rw [hr]) (by
    simp only [List.forall_mem_cons, List.not_mem_nil, false_imp_iff, implies_true, and_true]
    exact ⟨h.get (by decide), h.get (by decide), h.get (by decide)⟩)
  rw [State.lineRuns, hwork]
  rfl
end
theorem State.errsOnly_errs (s : State) (p x : Nat) (adr : Nat → Nat) (l : List Nat) : s.errsOnly (s.errsThen (fun t _ => t) p x adr l) p :=
  ⟨State.reports_errs p x adr l s, State.regsBut_errsThen (fun _ _ => rfl) adr l s⟩
theorem State.faultsNow_lane (s : State) {p l r x addr : Nat} {rs : List Nat} (hb : blkOf p = some (.lane, l)) (hnever : neverFences .lane l = false)
    (hcodes : ∀ c ∈ r :: rs, c < 256) (hx : x < 16) (hfen : s.fenced p = false) (hres : s.srsts.has p = false) (hheld : s.held p = false)
    {v : State} (hv : s.faultsNow p r rs x addr = v) :
    errorsCounted s v p (rs.length + 1) r x (s.fenceAddr p r addr) ∧ v.fenced p = true ∧ v.get p R.PG_FENCE_REASON = rs.foldl min r ∧
    v.get p R.PG_FENCE_COUNT = min (s.get p R.PG_FENCE_COUNT + 1) 0xFFFF ∧ bit (v.get p R.PG_IRQ_RAW) 0 = true := by
  have hcount := State.errsThen_counted (g := fun t _ => t) (fun _ _ => rfl) (p := p) (src := x) (fun c => s.fenceAddr p c addr) s rs
    (State.frozen_of_unfenced hfen) (hcodes r (by simp)) hx
  obtain ⟨t, ht⟩ : ∃ t, s.errsThen (fun t _ => t) p x (fun c => s.fenceAddr p c addr) (r :: rs) = t := ⟨_, rfl⟩
  have honly := s.errsOnly_errs p x (fun c => s.fenceAddr p c addr) (r :: rs)
  rw [ht] at hcount honly
  obtain ⟨w, hw⟩ : ∃ w, t.laneFault l (r :: rs) = w := ⟨_, rfl⟩
  have hfault := t.headerKeeps_laneFault p l (r :: rs)
  rw [hw] at hfault
  obtain ⟨u, hu⟩ : ∃ u, w.fence p (rs.foldl min r) x l 0 false = u := ⟨_, rfl⟩
  have hpair : pPAIR ≠ p := by
    rintro rfl
    simp at hb
  have hhead : ∀ y : State, y.headerKeeps (if y.fencedNow (pHEAD l) && l < 128 then
      ((r :: rs).erase (rs.foldl min r)).foldl (fun u c => u.err (pHEAD l) c 0 (s.firstCut l)) y else y) p := fun y => by
    split
    · next hlt =>
      simp only [Bool.and_eq_true, decide_eq_true_eq] at hlt
      have hne : pHEAD l ≠ p := by
        rintro rfl
        rw [blkOf_head l hlt.2] at hb
        simp at hb
      exact State.headerKeeps_foldl _ _ (fun z c => z.headerKeeps_err _ _ _ _ _ hne) y
    · exact y.headerKeeps_refl p
  have hsettle : ∀ y : State, y.headerKeeps (if 136 ≤ l then y.feedSettle else y) p := fun y => by
    split
    · exact y.headerKeeps_feedSettle p
    · exact y.headerKeeps_refl p
  have huv : u.headerKeeps v p := by
    have hact : s.faultsNow p r rs x addr = s.pairRise (if 136 ≤ l then (if u.fencedNow (pHEAD l) && l < 128 then
        ((r :: rs).erase (rs.foldl min r)).foldl (fun u c => u.err (pHEAD l) c 0 (s.firstCut l)) u else u).feedSettle else
        (if u.fencedNow (pHEAD l) && l < 128 then
        ((r :: rs).erase (rs.foldl min r)).foldl (fun u c => u.err (pHEAD l) c 0 (s.firstCut l)) u else u)) (rs.foldl min r)
        (if l < 128 then l / 16 else 0) := by
      rw [← hu, ← hw, ← ht]
      unfold State.faultsNow State.errsThen
      rw [hb]
    rw [← hv, hact]
    exact ((hhead u).trans (hsettle _)).trans (State.headerKeeps_pairRise _ _ (Or.inl hpair))
  refine State.fence_counted (errorsCounted_keeps hcount hfault) _ _ _ _ ((foldl_min_le rs r).trans_lt (hcodes r (by simp))) hb hnever ?_ ?_ ?_ ?_
    hu huv
  · rw [hfault.fenced, honly.fenced, hfen]
  · rw [hfault.reset, honly.srsts, hres]
  · rw [hfault.pageHeld, honly.held, hheld]
  · rw [hfault.flds _ (by simp [fenceHeader]), honly.get (by decide)]
theorem State.faultsNow_block (s : State) {p i r x addr : Nat} {b : Blk} {rs : List Nat} (hb : blkOf p = some (b, i)) (hlane : b ≠ .lane) :
    s.faultsNow p r rs x addr = (s.errsThen (fun t _ => t) p x (fun c => s.fenceAddr p c addr) (r :: rs)).fenceFlight p (rs.foldl min r) := by
  unfold State.faultsNow State.errsThen
  rw [hb]
  dsimp only
  split
  · next l hl =>
    injection hl with hl
    injection hl with h1 h2
    exact absurd h1 hlane
  · rfl
/-- A fence that does not wait for a line in flight comes at once. -/
theorem State.fenceFlight_now {s t : State} {p i low : Nat} {b : Blk} (hb : blkOf p = some (b, i)) (honly : s.errsOnly t p)
    (h : ¬ fenceWaits s p b i low) : t.fenceFlight p low = t.fence p low 0 0 0 false := by
  obtain ⟨r, w, hshape⟩ := honly.shape
  have hhead : ∀ n, t.headAt n = s.headAt n := fun n => by rw [hshape]; rfl
  have hpipe : ∀ n, t.pipeAt n = s.pipeAt n := fun n => by rw [hshape]; rfl
  unfold State.fenceFlight
  rw [hb]
  dsimp only
  split
  · next j hj =>
    injection hj with hj
    injection hj with h1 h2
    subst h1 h2
    rw [if_neg]
    simp only [Bool.and_eq_true, Bool.or_eq_true, decide_eq_true_eq, honly.lineRuns, State.headFlight, hhead]
    rintro ⟨⟨⟨-, hrun⟩, hflight⟩, hcode⟩
    exact h (Or.inl ⟨rfl, hrun, by simpa [State.headFlight] using hflight, by simpa [or_assoc] using hcode⟩)
  · next j hj =>
    injection hj with hj
    injection hj with h1 h2
    subst h1 h2
    rw [if_neg]
    simp only [Bool.and_eq_true, honly.lineRuns, honly.enabled, hpipe]
    rintro ⟨⟨⟨-, hrun⟩, hen⟩, hwork⟩
    exact h (Or.inr ⟨rfl, hrun, hen, hwork⟩)
  · rfl
/-- Where a line is in flight the cause waits with the page, the lowest of those that wait. -/
def dueWith (low : Nat) (o : Option Nat) : Option Nat := some (o.elim low (min · low))
theorem State.fenceFlight_head {s t : State} {p i low : Nat} (hb : blkOf p = some (.head, i)) (honly : s.errsOnly t p)
    (hfen : s.fenced p = false) (hbusy : s.srstBusy p = false) (h : fenceWaits s p .head i low) :
    t.fenceFlight p low = t.updHead i fun x => { x with fenceDue := dueWith low x.fenceDue } := by
  obtain ⟨r, w, hshape⟩ := honly.shape
  have hhead : ∀ n, t.headAt n = s.headAt n := fun n => by rw [hshape]; rfl
  have hbusy' : t.srstBusy p = false := by
    rw [State.srstBusy, honly.held, honly.srsts]
    exact hbusy
  obtain ⟨hrun, hflight, hcode⟩ : s.lineRuns (i / 16) = true ∧ s.headFlight i = true ∧ (low = 0x11 ∨ low = 0x22 ∨ 0xF0 ≤ low) := by
    simpa [fenceWaits] using h
  unfold State.fenceFlight
  rw [hb]
  dsimp only
  rw [if_pos]
  · refine congrArg (t.updHead i) (funext fun x => ?_)
    unfold dueWith
    cases x.fenceDue <;> rfl
  simp only [Bool.and_eq_true, Bool.or_eq_true, decide_eq_true_eq, honly.lineRuns, State.headFlight, hhead, honly.fenced, hfen, hbusy',
    Bool.not_false]
  exact ⟨⟨⟨⟨trivial, trivial⟩, hrun⟩, by simpa [State.headFlight] using hflight⟩, by simpa [or_assoc] using hcode⟩
theorem State.fenceFlight_pipe {s t : State} {p i low : Nat} (hb : blkOf p = some (.pipe, i)) (honly : s.errsOnly t p)
    (hfen : s.fenced p = false) (hbusy : s.srstBusy p = false) (h : fenceWaits s p .pipe i low) :
    t.fenceFlight p low = t.updPipe i fun x => { x with fenceDue := dueWith low x.fenceDue } := by
  obtain ⟨r, w, hshape⟩ := honly.shape
  have hpipe : ∀ n, t.pipeAt n = s.pipeAt n := fun n => by rw [hshape]; rfl
  have hbusy' : t.srstBusy p = false := by
    rw [State.srstBusy, honly.held, honly.srsts]
    exact hbusy
  obtain ⟨hrun, hen, hwork⟩ : s.lineRuns i = true ∧ s.enabled p = true ∧ (s.pipeAt i).work.isSome = true := by
    simpa [fenceWaits] using h
  unfold State.fenceFlight
  rw [hb]
  dsimp only
  rw [if_pos]
  · refine congrArg (t.updPipe i) (funext fun x => ?_)
    unfold dueWith
    cases x.fenceDue <;> rfl
  simp only [Bool.and_eq_true, honly.lineRuns, hpipe, honly.fenced, hfen, hbusy', honly.enabled, Bool.not_false]
  exact ⟨⟨⟨⟨trivial, trivial⟩, hrun⟩, hen⟩, hwork⟩
/-- What a fence that waits for the line in flight leaves. -/
theorem State.fenceFlight_waits {s t : State} {p i low : Nat} {b : Blk} (hb : blkOf p = some (b, i)) (honly : s.errsOnly t p)
    (hfen : s.fenced p = false) (hbusy : s.srstBusy p = false) (h : fenceWaits s p b i low) {u : State} (hu : t.fenceFlight p low = u) :
    u.regs = t.regs ∧
    (b = .head → u.headAt i = { s.headAt i with fenceDue := some ((s.headAt i).fenceDue.elim low (min · low)) } ∧
      (∀ m, m ≠ i → u.headAt m = s.headAt m) ∧ u.pipe = s.pipe) ∧
    (b = .pipe → u.pipeAt i = { s.pipeAt i with fenceDue := some ((s.pipeAt i).fenceDue.elim low (min · low)) } ∧
      (∀ m, m ≠ i → u.pipeAt m = s.pipeAt m) ∧ u.head = s.head) ∧
    ({ u with regs := s.regs, host := s.host, head := s.head, pipe := s.pipe } : State) = s := by
  have hblk : b = .head ∨ b = .pipe := by
    rcases h with h | h
    · exact Or.inl h.1
    · exact Or.inr h.1
  obtain ⟨r, w, hshape⟩ := honly.shape
  have hheads : t.head = s.head := by rw [hshape]
  have hpipes : t.pipe = s.pipe := by rw [hshape]
  have hrest : ({ t with regs := s.regs, host := s.host, head := s.head, pipe := s.pipe } : State) = s := by rw [hshape]
  subst hu
  rcases hblk with rfl | rfl
  · rw [State.fenceFlight_head hb honly hfen hbusy h]
    refine ⟨rfl, fun _ => ⟨?_, fun m hm => ?_, hpipes⟩, fun hne => absurd hne (by decide), hrest⟩
    · refine (NMap.getD_put_self _ _ _ _).trans ?_
      rw [State.headAt, hheads]
      rfl
    · refine (NMap.getD_put_other _ _ _ hm).trans ?_
      rw [hheads]
      rfl
  · rw [State.fenceFlight_pipe hb honly hfen hbusy h]
    refine ⟨rfl, fun hne => absurd hne (by decide), fun _ => ⟨?_, fun m hm => ?_, hheads⟩, hrest⟩
    · refine (NMap.getD_put_self _ _ _ _).trans ?_
      rw [State.pipeAt, hpipes]
      rfl
    · refine (NMap.getD_put_other _ _ _ hm).trans ?_
      rw [hpipes]
      rfl
/-- The fence of a page of which it stops nothing outside the block, in a single unit. -/
theorem State.fence_alone (t : State) {p i reason : Nat} {b : Blk} (hb : blkOf p = some (b, i)) (hblk : b ∈ [.enc, .feedc, .camc, .cal, .breath, .pipe])
    (hpair : t.straps.pairEn = false) (hfen : t.fenced p = false) (hres : t.srsts.has p = false) (hheld : t.held p = false) :
    t.fence p reason 0 0 0 false = t.fenceMark p reason := by
  have hblk' : neverFences b i = false ∧ (∀ u : State, u.fenceStops b i reason = u) ∧ b ≠ .lane ∧ b ≠ .pos := by
    simp only [List.mem_cons, List.not_mem_nil, or_false] at hblk
    rcases hblk with rfl | rfl | rfl | rfl | rfl | rfl <;> exact ⟨rfl, fun _ => rfl, by decide, by decide⟩
  obtain ⟨hnever, hstops, hlane, hpos⟩ := hblk'
  have hone : t.fenceOne p reason 0 0 0 false = t.fenceMark p reason := by
    obtain ⟨-, r, w, m, hshape⟩ := t.fenceMark_frame p reason
    unfold State.fenceOne
    simp only [hb]
    rw [if_neg (by simp [hnever]), if_neg (by simp [hfen]), if_neg (by simp [hres, hheld]), if_neg (by decide), hstops]
    unfold State.pairRise
    rw [if_pos]
    rw [hshape]
    simpa using hpair
  unfold State.fence
  dsimp only
  rw [hone, hb]
  split
  · split
    · next l hl =>
      injection hl with hl
      injection hl with h1 h2
      exact absurd h1 hlane
    · next n hn =>
      injection hn with hn
      injection hn with h1 h2
      exact absurd h1 hpos
    · rfl
  · rfl

/-- Settles O10, by the state of the page that meets the causes. -/
theorem fenceShowsInTheHeader : Obligations.FenceShowsInTheHeader := by
  unfold Obligations.FenceShowsInTheHeader
  intro s p l src addr b i met hb hmet
  have hcodes : ∀ c ∈ met, c < 256 := fun c hc => by
    rw [hmet] at hc
    obtain ⟨x, -, rfl⟩ := List.mem_map.mp (List.mem_filter.mp hc).1
    exact x.isLt
  have hsrc : src.toNat < 16 := src.isLt
  have hexec : s.inReset = false → exec (.fence p l src addr) s = .next (s.faults p met src.toNat addr.toNat) := fun hr => by
    change execFence p l src addr s = _
    rw [execFence, if_neg (by simp [hr]), hmet]
  refine ⟨fun hno => ?_, fun r rs hreset hcons hnever hfen => ⟨fun hheld => ?_, fun hheld => ?_⟩,
    fun r rs hreset hcons hnever hfen => ⟨fun hnow => ?_, fun hnow hlane => ?_⟩, fun r rs hreset hcons hnever hfen hheld => ?_,
    fun r rs hreset hcons hnever hfen hheld hhas => ?_, fun r rs hreset hcons hnever hfen hheld hhas => ?_⟩
  · rcases hno with hr | hnil
    · change execFence p l src addr s = _
      rw [execFence, if_pos hr]
    · cases hr : s.inReset with
      | true =>
        change execFence p l src addr s = _
        rw [execFence, if_pos hr]
      | false =>
        rw [hexec hr, hnil]
        unfold State.faults
        rw [hb]
  · rw [hexec hreset, hcons]
    unfold State.faults
    rw [hb]
    dsimp only
    rw [if_pos hnever, if_pos hheld]
  · have hact : s.faults p met src.toNat addr.toNat = s.errsThen (fun t _ => t) p src.toNat (fun _ => addr.toNat) (r :: rs) := by
      rw [hcons]
      unfold State.faults
      rw [hb]
      dsimp only
      rw [if_pos hnever, if_neg (by simp [hheld])]
      rfl
    obtain ⟨t, ht⟩ : ∃ t, s.errsThen (fun t _ => t) p src.toNat (fun _ => addr.toNat) (r :: rs) = t := ⟨_, rfl⟩
    have hcount := State.errsThen_counted (g := fun t _ => t) (fun _ _ => rfl) (p := p.val) (src := src.toNat) (fun _ => addr.toNat) s rs
      (State.frozen_of_unfenced hfen) (hcodes r (by simp [hcons])) hsrc
    have honly := s.errsOnly_errs p.val src.toNat (fun _ => addr.toNat) (r :: rs)
    rw [ht] at hcount honly
    rw [hexec hreset, hact, ht]
    exact ⟨t, rfl, (honly.fenced _).trans hfen, hcount, honly.but, honly.shape.sameBehind⟩
  · rw [hexec hreset, hcons]
    unfold State.faults
    rw [hb]
    dsimp only
    rw [if_neg (by simp [hnever]), if_pos hfen, if_neg (by simp [hnow])]
  · have hact : s.faults p met src.toNat addr.toNat = (r :: rs).foldl (fun t c =>
        t.fence p c src.toNat (s.fenceAddr p c addr.toNat) (s.fenceAddr p c addr.toNat / 2 ^ 32)) s := by
      rw [hcons]
      unfold State.faults
      rw [hb]
      dsimp only
      rw [if_neg (by simp [hnever]), if_pos hfen, if_pos hnow]
    obtain ⟨t, ht⟩ : ∃ t, (r :: rs).foldl (fun t c =>
      t.fence p c src.toNat (s.fenceAddr p c addr.toNat) (s.fenceAddr p c addr.toNat / 2 ^ 32)) s = t := ⟨_, rfl⟩
    obtain ⟨hcnt, hreason, hfenced, hbut, g, hshape⟩ := State.fencesJoin p.val src.toNat (fun c => s.fenceAddr p c addr.toNat)
      (fun j hj => hlane (by rw [hb] at hj; injection hj with hj; exact (Prod.mk.inj hj).1)) hb hnever (r :: rs)
      (fun c hc => hcodes c (by rwa [hcons])) s hnow ht
    rw [hexec hreset, hact, ht, hcons]
    refine ⟨t, rfl, hfenced, hcnt (by simp), hreason, hbut, ?_⟩
    rw [hshape]
    rfl
  · have hact : s.faults p met src.toNat addr.toNat = met.foldl (fun t c => t.causeKept p c) s := by
      rw [hcons]
      unfold State.faults
      rw [hb]
      dsimp only
      rw [if_neg (by simp [hnever]), if_neg (by simp [hfen]), if_pos hheld]
    obtain ⟨t, ht⟩ : ∃ t, met.foldl (fun t c => t.causeKept p c) s = t := ⟨_, rfl⟩
    obtain ⟨hentry, -⟩ := State.causesKept (k := fun t _ => t) (fun t _ => ⟨t.reports_refl, rfl⟩) p.val met s ht
    have hnil : met.isEmpty = false := by rw [hcons]; rfl
    rw [hnil, hheld] at hentry
    rw [hexec hreset, hact, ht]
    refine ⟨t, rfl, by rw [hentry], by rw [hentry]; simp, ?_⟩
    rw [← ht]
    exact State.causesKept_shape p.val met s
  · have hact : s.faults p met src.toNat addr.toNat = s.errsThen (fun t c => t.causeKept p c) p src.toNat
        (fun c => s.fenceAddr p c addr.toNat) met := by
      rw [hcons]
      unfold State.faults State.errsThen
      rw [hb]
      dsimp only
      rw [if_neg (by simp [hnever]), if_neg (by simp [hfen]), if_neg (by simp [hheld]), if_pos hhas]
    obtain ⟨t, ht⟩ : ∃ t, s.errsThen (fun t c => t.causeKept p c) p src.toNat (fun c => s.fenceAddr p c addr.toNat) met = t := ⟨_, rfl⟩
    obtain ⟨hentry, g, w, m, hshape⟩ := State.causesKept (k := fun t c => t.err64 p c src.toNat (s.fenceAddr p c addr.toNat))
      (fun t c => ⟨t.reports_err _ _ _ _ _ _, t.shut_err _ _ _ _ _ _⟩) p.val met s ht
    have hnil : met.isEmpty = false := by rw [hcons]; rfl
    rw [hnil, hheld] at hentry
    have hcount := State.errsThen_counted (g := fun t c => t.causeKept p c) (fun _ _ => rfl) (p := p.val) (src := src.toNat)
      (fun c => s.fenceAddr p c addr.toNat) s rs (State.frozen_of_unfenced hfen) (hcodes r (by simp [hcons])) hsrc
    have hbut := State.regsBut_errsThen (g := fun t c => t.causeKept p c) (fun _ _ => rfl) (p := p.val) (src := src.toNat)
      (fun c => s.fenceAddr p c addr.toNat) met s
    rw [← hcons, ht] at hcount
    rw [ht] at hbut
    have hfen' : t.fenced p = false := by
      rw [State.fenced, State.flag, hbut.field (by unfold errFields; simp only [List.forall_mem_cons]; decide)]
      exact hfen
    rw [hexec hreset, hact, ht]
    refine ⟨t, rfl, hfen', hcount, ?_, hbut, ?_⟩
    · rw [hentry]
      simp
    · rw [hshape]
  · obtain ⟨t, ht⟩ : ∃ t, s.errsThen (fun t _ => t) p src.toNat (fun c => s.fenceAddr p c addr.toNat) (r :: rs) = t := ⟨_, rfl⟩
    have hact : s.faults p met src.toNat addr.toNat = s.faultsNow p r rs src.toNat addr.toNat := by
      rw [hcons]
      unfold State.faults
      rw [hb]
      dsimp only
      rw [if_neg (by simp [hnever]), if_neg (by simp [hfen]), if_neg (by simp [hheld]), if_neg (by simp [hhas])]
    rw [hexec hreset, hact]
    have hcodes' : ∀ c ∈ r :: rs, c < 256 := fun c hc => hcodes c (by rwa [hcons])
    by_cases hlane : b = .lane
    · subst hlane
      obtain ⟨v, hv⟩ : ∃ v, s.faultsNow p r rs src.toNat addr.toNat = v := ⟨_, rfl⟩
      obtain ⟨h1, h2, h3, h4, h5⟩ := s.faultsNow_lane hb hnever hcodes' hsrc hfen hhas hheld hv
      rw [hv]
      refine ⟨v, rfl, h1, fun _ => ⟨h2, h3, h4, h5⟩, fun hw => ?_, fun hmem => ?_⟩
      · simp [fenceWaits] at hw
      · simp at hmem
    · have hcount := State.errsThen_counted (g := fun t _ => t) (fun _ _ => rfl) (p := p.val) (src := src.toNat)
        (fun c => s.fenceAddr p c addr.toNat) s rs (State.frozen_of_unfenced hfen) (hcodes' r (by simp)) hsrc
      have honly := s.errsOnly_errs p.val src.toNat (fun c => s.fenceAddr p c addr.toNat) (r :: rs)
      rw [s.faultsNow_block hb hlane, ht]
      rw [ht] at hcount honly
      have hfen' : t.fenced p = false := (honly.fenced _).trans hfen
      have hres' : t.srsts.has p = false := by rw [honly.srsts, hhas]
      have hheld' : t.held p = false := (honly.held _).trans hheld
      by_cases hw : fenceWaits s p b i (rs.foldl min r)
      · obtain ⟨u, hu⟩ : ∃ u, t.fenceFlight p (rs.foldl min r) = u := ⟨_, rfl⟩
        obtain ⟨hregs, hhead, hpipe, hrest⟩ := State.fenceFlight_waits hb honly hfen (by simp [State.srstBusy, hheld, hhas]) hw hu
        rw [hu]
        refine ⟨u, rfl, errorsCounted_of_regs hcount hregs, fun hn => absurd hw hn, fun _ => ⟨?_, State.regsBut_of_regs honly.but hregs, hhead, hpipe, hrest⟩,
          fun _ _ hn => absurd hw hn⟩
        rw [State.fenced, State.flag, State.get_congr hregs]
        exact hfen'
      · obtain ⟨u, hu⟩ : ∃ u, t.fence p (rs.foldl min r) 0 0 0 false = u := ⟨_, rfl⟩
        obtain ⟨h1, h2, h3, h4, h5⟩ := State.fence_counted hcount _ 0 0 0 ((foldl_min_le rs r).trans_lt (hcodes' r (by simp))) hb hnever hfen' hres' hheld'
          (honly.get (by decide) _) hu (u.headerKeeps_refl _)
        rw [State.fenceFlight_now hb honly hw, hu]
        refine ⟨u, rfl, h1, fun _ => ⟨h2, h3, h4, h5⟩, fun hw' => absurd hw' hw, fun hmem hpair _ => ?_⟩
        obtain ⟨g, w, hshape⟩ := honly.shape
        rw [State.fence_alone t hb hmem (by rw [hshape]; exact hpair) hfen' hres' hheld'] at hu
        rw [← hu]
        refine ⟨State.regsBut_trans (State.regsBut_mono honly.but (by simp)) ?_, ?_⟩
        · refine State.regsBut_of_regs (State.regsBut_incSat (State.regsBut_set (State.regsBut_set (State.regsBut_cause (t.regsBut_refl _) 0
            (by simp [errFields])) _ (by simp)) _ (by simp)) (by simp)) rfl
        · obtain ⟨-, g', w', m, hmark⟩ := t.fenceMark_frame p (rs.foldl min r)
          rw [hmark, hshape]

end Sys2Proof.Machine
end

section
/-! ### What a DRAM read returns, and what it leaves of DRAMC (O35) -/
open Sys2Proof Sys2Proof.Machine
namespace Sys2Proof.Machine

/-- The 64 bytes of a burst as a read gives them. -/
def Burst.bytes : Burst → Option (List Byte)
  | .clean d => some d
  | .corrected d => some d
  | .bad => none
  | .poison => none
/-- What stands in the burst at an address. -/
def State.burstBytes (s : State) (a : Nat) : Option (List Byte) :=
  (s.lookBurst (s.dramPlace a).1 (s.physRank (s.dramPlace a).1 (s.dramPlace a).2.1 (s.dramPlace a).2.2) (s.dramPlace a).2.2).bytes
/-- What stands in n bytes of DRAM from an address. -/
def State.dramBytes (s : State) (a n : Nat) : List Byte × Bool :=
  let r := (burstsOf a n).foldl (fun (r : List Byte × Bool) x => (r.1 ++ (s.burstBytes x).getD (zeros 64), r.2 && (s.burstBytes x).isSome)) ([], true)
  ((r.1.drop (a % 64)).take n, r.2)
theorem State.burstFound_bytes (s : State) (c lr p a src : Nat) (b : Burst) : (s.burstFound c lr p a src b).2 = b.bytes := by
  unfold State.burstFound
  cases b with
  | clean d => rfl
  | corrected d => rfl
  | bad => rfl
  | poison => rfl
/-- DRAM as a read sees it: the memories and where each rank lies. -/
structure State.dramLike (s t : State) : Prop where
  mem : t.dramMem = s.dramMem
  chk : t.dramChk = s.dramChk
  epoch : t.epoch = s.epoch
  geo : t.geo = s.geo
  rank : ∀ c r o, t.physRank c r o = s.physRank c r o
theorem State.dramLike.symm {s t : State} (h : s.dramLike t) : t.dramLike s :=
  ⟨h.mem.symm, h.chk.symm, h.epoch.symm, h.geo.symm, fun c r o => (h.rank c r o).symm⟩
theorem State.dramLike.burstBytes {s t : State} (h : s.dramLike t) (a : Nat) : t.burstBytes a = s.burstBytes a := by
  have hplace : t.dramPlace a = s.dramPlace a := by
    unfold State.dramPlace
    rw [h.geo]
  unfold State.burstBytes State.lookBurst State.rawData State.rawCheck
  rw [hplace, h.rank, h.mem, h.chk, h.epoch]
theorem State.dramLike.dramBytes {s t : State} (h : s.dramLike t) (a n : Nat) : t.dramBytes a n = s.dramBytes a n := by
  unfold State.dramBytes
  simp only [h.burstBytes]
theorem State.dramLike_burstRead (s : State) (a src req : Nat) : s.dramLike (s.burstRead a src req).1 := by
  have hstep := s.dramStep_burstRead a src req []
  have hhold := s.burstRead_hold a src req
  obtain ⟨r, d, w, m, k, hshape⟩ := hstep.shape
  refine ⟨congrArg (fun x => x.2.2.1) hhold, congrArg (fun x => x.2.2.2.1) hhold, ?_, hstep.geo, hstep.rank⟩
  rw [hshape]
/-- The command of a read, as the retry buffer takes it. -/
def State.readCmd (s : State) (a req : Nat) : RetryCmd :=
  let pl := s.dramPlace a
  { at_ := s.tick, addr := a, req := req, rank := s.physRank pl.1 pl.2.1 pl.2.2, off := pl.2.2 }
theorem State.burstRead_eq (s : State) (a src req : Nat) {u : State} (hu : s.issue (s.dramPlace a).1 (s.readCmd a req) = u) :
    s.burstRead a src req = u.burstFound (s.dramPlace a).1 (s.dramPlace a).2.1
      (s.physRank (s.dramPlace a).1 (s.dramPlace a).2.1 (s.dramPlace a).2.2) a src
      (u.lookBurst (s.dramPlace a).1 (s.physRank (s.dramPlace a).1 (s.dramPlace a).2.1 (s.dramPlace a).2.2) (s.dramPlace a).2.2) := by
  rw [← hu]
  rfl
theorem State.burstRead_bytes (s : State) (a src req : Nat) : (s.burstRead a src req).2 = s.burstBytes a := by
  obtain ⟨u, hu⟩ : ∃ u, s.issue (s.dramPlace a).1 (s.readCmd a req) = u := ⟨_, rfl⟩
  have hhold := s.issue_hold (s.dramPlace a).1 (s.readCmd a req)
  have hstep := s.dramStep_issue [] (s.dramPlace a).1 (s.readCmd a req)
  rw [hu] at hhold hstep
  obtain ⟨r, d, w, m, k, hshape⟩ := hstep.shape
  have hmem : u.dramMem = s.dramMem := congrArg (fun x => x.2.2.1) hhold
  have hchk : u.dramChk = s.dramChk := congrArg (fun x => x.2.2.2.1) hhold
  have hepoch : u.epoch = s.epoch := by rw [hshape]
  rw [s.burstRead_eq a src req hu, State.burstFound_bytes]
  unfold State.burstBytes State.lookBurst State.rawData State.rawCheck
  rw [hmem, hchk, hepoch]
theorem State.dramLike_refl (s : State) : s.dramLike s := ⟨rfl, rfl, rfl, rfl, fun _ _ _ => rfl⟩
theorem State.dramLike.trans {s t u : State} (h : s.dramLike t) (k : t.dramLike u) : s.dramLike u :=
  ⟨k.mem.trans h.mem, k.chk.trans h.chk, k.epoch.trans h.epoch, k.geo.trans h.geo, fun c r o => (k.rank c r o).trans (h.rank c r o)⟩
/-- A read of DRAM returns what stands there, whoever reads. -/
theorem State.dramRead_bytes (s : State) (a n src req : Nat) :
    (s.dramRead a n src req).2 = s.dramBytes a n ∧ s.dramLike (s.dramRead a n src req).1 := by
  have hfold : ∀ (l : List Nat) (x : List Byte × Bool) (t : State), s.dramLike t →
      (l.foldl (fun (r : State × List Byte × Bool) x =>
        let q := r.1.burstRead x src req
        (q.1, r.2.1 ++ q.2.getD (zeros 64), r.2.2 && q.2.isSome)) (t, x)).2 =
      l.foldl (fun (r : List Byte × Bool) x => (r.1 ++ (s.burstBytes x).getD (zeros 64), r.2 && (s.burstBytes x).isSome)) x ∧
      s.dramLike (l.foldl (fun (r : State × List Byte × Bool) x =>
        let q := r.1.burstRead x src req
        (q.1, r.2.1 ++ q.2.getD (zeros 64), r.2.2 && q.2.isSome)) (t, x)).1 := fun l => by
    induction l with
    | nil => exact fun x t ht => ⟨rfl, ht⟩
    | cons b l ih =>
      intro x t ht
      simp only [List.foldl_cons]
      have hb : (t.burstRead b src req).2 = s.burstBytes b := (t.burstRead_bytes b src req).trans (ht.burstBytes b)
      rw [hb]
      exact ih _ _ (ht.trans (t.dramLike_burstRead b src req))
  obtain ⟨hval, hlike⟩ := hfold (burstsOf a n) ([], true) s s.dramLike_refl
  unfold State.dramRead State.dramBytes
  dsimp only
  rw [hval]
  exact ⟨rfl, hlike⟩

/-! ### DRAMC's configuration through a read -/

/-- A field of DRAMC that no access to DRAM writes. -/
def dramcKept (f : Fld) : Prop := ∀ g ∈ [R.PG_ERR_CNT, R.PG_ERR_ADDR_LO, R.PG_ERR_ADDR_HI, R.PG_ERR_INFO_SRC, R.PG_ERR_INFO_DIR, R.PG_ERR_INFO_CODE,
  R.PG_IRQ_RAW, R.DRAMC_RH_LAST_TRR, R.DRAMC_RH_LAST_BANK, R.DRAMC_RH_LAST_RANK, R.DRAMC_RH_LAST_CH, R.DRAMC_RH_LAST_REQ, R.DRAMC_RH_ROW,
  R.DRAMC_TRR_CNT, R.DRAMC_THR_CNT], f.id ≠ g.id
section
variable {f : Fld} (hf : dramcKept f)
include hf
theorem State.dramcKept_set (s : State) {p : Nat} {g : Fld} (v : Nat) (h : p ≠ pDRAMC ∨ f.id ≠ g.id) : (s.set p g v).get pDRAMC f = s.get pDRAMC f :=
  s.get_set_ne v (h.imp Ne.symm id)
theorem State.dramcKept_cause (s : State) (p i : Nat) : (s.cause p i).get pDRAMC f = s.get pDRAMC f :=
  s.get_cause_ne i (Or.inr (hf _ (by simp)))
theorem State.dramcKept_dramErr (s : State) (c code src a : Nat) : (s.dramErr c code src a).get pDRAMC f = s.get pDRAMC f := by
  refine s.get_dramErr c code src a ?_ pDRAMC
  simp only [List.mem_cons, List.not_mem_nil, or_false, not_or]
  exact ⟨hf _ (by simp), hf _ (by simp), hf _ (by simp), hf _ (by simp), hf _ (by simp), hf _ (by simp), hf _ (by simp)⟩
theorem State.dramcKept_issue (s : State) (c : Nat) (x : RetryCmd) : (s.issue c x).get pDRAMC f = s.get pDRAMC f := by
  have hact : ∀ p bank row req, (s.activate c p bank row req).get pDRAMC f = s.get pDRAMC f := fun p bank row req => by
    have hset : ∀ (t : State) {g : Fld} (v : Nat), f.id ≠ g.id → (t.set pDRAMC g v).get pDRAMC f = t.get pDRAMC f := fun t g v h =>
      t.get_set_ne v (Or.inr h)
    have hlast : ∀ (u : State) dec, ((((((u.setFlag pDRAMC R.DRAMC_RH_LAST_TRR dec).set pDRAMC R.DRAMC_RH_LAST_BANK bank).set pDRAMC
          R.DRAMC_RH_LAST_RANK p).set pDRAMC R.DRAMC_RH_LAST_CH c).set pDRAMC R.DRAMC_RH_LAST_REQ req).set pDRAMC
          R.DRAMC_RH_ROW row |>.cause pDRAMC 4).get pDRAMC f = u.get pDRAMC f := fun u dec => by
      rw [State.dramcKept_cause hf, hset _ _ (hf _ (by simp)), hset _ _ (hf _ (by simp)), hset _ _ (hf _ (by simp)), hset _ _ (hf _ (by simp)),
        hset _ _ (hf _ (by simp))]
      exact hset _ _ (hf _ (by simp))
    unfold State.activate
    dsimp only
    split
    · rfl
    · split
      · rfl
      · split
        · exact (hset _ _ (hf R.DRAMC_TRR_CNT (by simp))).trans (hlast _ _)
        · exact (hset _ _ (hf R.DRAMC_THR_CNT (by simp))).trans (hlast _ _)
  exact hact _ _ _ _
theorem State.dramcKept_rankFailed (s : State) (c lr p a src : Nat) : (s.rankFailed c lr p a src).get pDRAMC f = s.get pDRAMC f := by
  have hne : pDRAM c ≠ pDRAMC := by
    unfold pDRAM pDRAMC
    omega
  unfold State.rankFailed
  split
  · split
    · unfold State.retire State.setRankState State.upd State.set64
      rw [State.dramcKept_cause hf, State.dramcKept_set hf _ _ (Or.inl hne), State.dramcKept_set hf _ _ (Or.inl hne),
        State.dramcKept_set hf _ _ (Or.inl hne)]
      exact s.dramcKept_dramErr hf _ _ _ _
    · exact s.dramcKept_set hf _ (Or.inl hne)
  · rfl
theorem State.dramcKept_burstFound (s : State) (c lr p a src : Nat) (b : Burst) :
    (s.burstFound c lr p a src b).1.get pDRAMC f = s.get pDRAMC f := by
  have hne : pDRAM c ≠ pDRAMC := by
    unfold pDRAM pDRAMC
    omega
  have hinc : ∀ (u : State) (g : Fld), (u.incSat (pDRAM c) g).get pDRAMC f = u.get pDRAMC f := fun u g => u.dramcKept_set hf _ (Or.inl hne)
  unfold State.burstFound
  cases b with
  | clean d => rfl
  | corrected d =>
    dsimp only
    have h0 : ((s.dramErr c 0x10 src a).incSat (pDRAM c) R.DRAM_CORR_CNT).get pDRAMC f = s.get pDRAMC f :=
      (hinc _ _).trans (s.dramcKept_dramErr hf _ _ _ _)
    split
    · rw [State.dramcKept_cause hf, State.dramcKept_set hf _ _ (Or.inl hne), hinc, State.dramcKept_dramErr hf]
      exact h0
    · exact h0
  | bad =>
    dsimp only
    have h0 : ((s.dramErr c 0x11 src a).incSat (pDRAM c) R.DRAM_UNC_CNT).get pDRAMC f = s.get pDRAMC f :=
      (hinc _ _).trans (s.dramcKept_dramErr hf _ _ _ _)
    split
    · exact h0
    · exact (State.dramcKept_rankFailed hf _ _ _ _ _ _).trans h0
  | poison => exact (hinc _ _).trans (s.dramcKept_dramErr hf _ _ _ _)
theorem State.dramcKept_dramRead (s : State) (a n src req : Nat) : (s.dramRead a n src req).1.get pDRAMC f = s.get pDRAMC f := by
  have hburst : ∀ (t : State) x, (t.burstRead x src req).1.get pDRAMC f = t.get pDRAMC f := fun t x => by
    rw [t.burstRead_eq x src req rfl, State.dramcKept_burstFound hf, State.dramcKept_issue hf]
  unfold State.dramRead
  refine List.foldlRecOn (motive := fun r : State × List Byte × Bool => r.1.get pDRAMC f = s.get pDRAMC f) _ _ rfl fun r hr x _ => ?_
  exact (hburst _ _).trans hr
end

/-! ### One DMA channel apart -/

/-- Two states that differ in the registers of SYS, the registers and the state of DMA channel c, and what waits for the host. -/
structure State.dmaApart (s u : State) (c : Nat) : Prop where
  get : ∀ q, q ≠ pDMA c ∧ q ≠ 0 → ∀ f, u.get q f = s.get q f
  dma : ∀ m, m ≠ c → u.dmaAt m = s.dmaAt m
  shape : ∃ r d w, u = { s with regs := r, dma := d, host := { s.host with waiting := w } }
/-- No DMA page owns a shared resource, and not SYS (R51). -/
theorem State.owners_notDma (s : State) : ∀ o ∈ s.owners, (0 < o.page ∧ o.page < 0x40) ∨ 0x80 ≤ o.page := by
  simp only [State.owners, List.mem_append, List.mem_map, List.mem_flatMap, List.mem_cons, List.not_mem_nil, or_false]
  rintro o ((((((⟨k, -, rfl⟩ | ⟨k, -, rfl⟩) | rfl) | ⟨k, -, rfl⟩) | ⟨k, -, rfl | rfl⟩) | ⟨k, -, rfl | rfl | rfl | rfl⟩) |
    rfl | rfl | rfl | rfl)
  all_goals simp only [pPINMUX, pTIME, pBREATH, pFEED, pENC, pCAM, pCHANT, pCAL]
  all_goals omega
/-- The first position beyond the room of decoder b's live ring. -/
def State.ringEnd (s : State) (b : Nat) : Nat :=
  let l := s.get pDMAC (jf R.DMAC_RCFG b)
  let size := 2 ^ (if 12 ≤ l ∧ l ≤ 36 then l else 12)
  s.get64 pDMAC (jf R.DMAC_RPOS_LO b) (jf R.DMAC_RPOS_HI b) / 64 * 64 + size
theorem State.ringFree_eq (s : State) (c b : Nat) : s.ringFree c b = s.ringEnd b -
    (s.get64 pDMAC (jf R.DMAC_WPOS_LO b) (jf R.DMAC_WPOS_HI b) + (s.dmaAt c).ahead + (s.dmaAt c).staging.length) := rfl
theorem State.dstAddr_congr {s u : State} {c : Nat} (hlive : ∀ b p, u.liveAddr b p = s.liveAddr b p)
    (hget : ∀ lo hi, u.get64 pDMAC lo hi = s.get64 pDMAC lo hi) (hdma : u.dmaAt c = s.dmaAt c) (d : Desc) (i : Nat) :
    u.dstAddr c d i = s.dstAddr c d i := by
  unfold State.dstAddr
  rw [hlive, hget, hdma]
section
variable {s u : State} {c : Nat} (h : s.dmaApart u c) (hc : c < 64)
include h hc
theorem State.dmaApart.get_of {q : Nat} (hq : (0 < q ∧ q < 0x40) ∨ 0x80 ≤ q) (f : Fld) : u.get q f = s.get q f :=
  h.get q (by unfold pDMA; omega) f
theorem State.dmaApart.like : s.dramLike u := by
  have hdram : ∀ n f, u.get (pDRAM n) f = s.get (pDRAM n) f := fun n => h.get_of hc (Or.inr (by unfold pDRAM; omega))
  obtain ⟨r, d, w, hu⟩ := h.shape
  refine ⟨by rw [hu], by rw [hu], by rw [hu], by rw [hu]; rfl, fun n lr o => ?_⟩
  have hat : u.dramAt n = s.dramAt n := by rw [hu]; rfl
  unfold State.physRank State.rmap State.migPtr State.get64
  rw [hat]
  simp only [hdram]
theorem State.dmaApart.dramFree (a n req : Nat) : u.dramFree a n req = s.dramFree a n req := by
  obtain ⟨hmem, hchk, hepoch, hgeo, hrank⟩ := h.like hc
  have hgap : ∀ f, u.get pDRAMC f = s.get pDRAMC f := h.get_of hc (by decide)
  obtain ⟨r, d, w, hu⟩ := h.shape
  have hat : ∀ k, u.dramAt k = s.dramAt k := fun k => by rw [hu]; rfl
  have htick : u.tick = s.tick := by rw [hu]
  have hready : u.dramReady = s.dramReady := by simp only [State.dramReady, hat]
  unfold State.dramFree State.rangeServes State.chServes State.throttledRange State.throttledAt State.rowHeld State.dramPlace
  simp only [hat, hready, hgeo, hrank, htick, hgap]
theorem State.dmaApart.working_of {q : Nat} (hq : q ≠ pDMA c ∧ q ≠ 0) : u.working q = s.working q := by
  have htherm : u.get pTHERM R.THERM_STAT_SHUT = s.get pTHERM R.THERM_STAT_SHUT := h.get_of hc (by decide) _
  have hget := h.get q hq
  obtain ⟨r, d, w, hu⟩ := h.shape
  have hheld : u.heldReset = s.heldReset := by rw [hu]
  have hsrst : u.srsts = s.srsts := by rw [hu]
  simp only [State.working, State.enabled, State.fenced, State.resetting, State.held, State.shut, State.flag, hget, htherm, hheld, hsrst]
theorem State.dmaApart.ringPieces (b p n : Nat) : u.ringPieces b p n = s.ringPieces b p n := by
  have hget : ∀ f, u.get pDMAC f = s.get pDMAC f := h.get_of hc (by decide)
  simp only [State.ringPieces, State.get64, hget]
theorem State.dmaApart.streamRead (b : Nat) (j : Job) (live : Bool) (p n : Nat) : (u.streamRead b j live p n).2 = (s.streamRead b j live p n).2 := by
  have hpieces : u.streamPieces b j live p n = s.streamPieces b j live p n := by
    simp only [State.streamPieces, h.ringPieces hc]
  have hfold : ∀ (l : List (Nat × Nat)) (x : List Byte × Bool) (v t : State), v.dramLike t →
      (l.foldl (fun (r : State × List Byte × Bool) q =>
        let x := r.1.dramRead q.1 q.2 0 (0x40 + b)
        (x.1, r.2.1 ++ x.2.1, r.2.2 && x.2.2)) (t, x)).2 =
      (l.foldl (fun (r : State × List Byte × Bool) q =>
        let x := r.1.dramRead q.1 q.2 0 (0x40 + b)
        (x.1, r.2.1 ++ x.2.1, r.2.2 && x.2.2)) (v, x)).2 := fun l => by
    induction l with
    | nil => exact fun _ _ _ _ => rfl
    | cons q l ih =>
      intro x v t ht
      simp only [List.foldl_cons]
      obtain ⟨hv, hvl⟩ := v.dramRead_bytes q.1 q.2 0 (0x40 + b)
      obtain ⟨htv, htl⟩ := t.dramRead_bytes q.1 q.2 0 (0x40 + b)
      rw [hv, htv, ht.dramBytes]
      exact ih _ _ _ (hvl.symm.trans (ht.trans htl))
  unfold State.streamRead
  rw [hpieces]
  exact hfold _ _ _ _ (h.like hc)
theorem State.dmaApart.get64_dmac (lo hi : Fld) : u.get64 pDMAC lo hi = s.get64 pDMAC lo hi := by
  unfold State.get64
  rw [h.get_of hc (by decide), h.get_of hc (by decide)]
theorem State.dmaApart.recordPieces (b : Nat) (j : Job) (live : Bool) : u.recordPieces b j live = s.recordPieces b j live := by
  have hw := h.get64_dmac hc
  have hstream := h.streamRead hc
  have hring := h.ringPieces hc
  obtain ⟨r, d, w, hu⟩ := h.shape
  have hdec : u.decAt b = s.decAt b := by rw [hu]; rfl
  have hready : u.liveReady b j = s.liveReady b j := by
    unfold State.liveReady
    dsimp only
    rw [hdec, hw, hstream]
  have hpieces : ∀ live p n, u.streamPieces b j live p n = s.streamPieces b j live p n := fun live p n => by
    unfold State.streamPieces
    rw [hring]
  unfold State.recordPieces
  dsimp only
  rw [hdec, hready, hpieces, hstream]
theorem State.dmaApart.maskPieces (b : Nat) (j : Job) : u.maskPieces b j = s.maskPieces b j := by
  obtain ⟨r, d, w, hu⟩ := h.shape
  have hdec : u.decAt b = s.decAt b := by rw [hu]; rfl
  have hpipe : ∀ p f, u.ap p f = s.ap p f := fun p f => by rw [hu]; rfl
  have hissued : ∀ x, u.issued b x = s.issued b x := fun x => by rw [hu]; rfl
  have hfull : u.ringFull b j = s.ringFull b j := by
    unfold State.ringFull State.lastUse State.bilinear
    dsimp only
    rw [hdec, hissued, hpipe]
  unfold State.maskPieces
  dsimp only
  rw [hdec, hfull]
theorem State.dmaApart.decChans (b : Nat) : u.decChans b = s.decChans b := by
  have hwork : u.working (pDEC b) = s.working (pDEC b) := h.working_of hc (by unfold pDEC pDMA; omega)
  have hjob : u.jobAt b = s.jobAt b ∧ u.decAt b = s.decAt b := by
    obtain ⟨r, d, w, hu⟩ := h.shape
    rw [hu]
    exact ⟨rfl, rfl⟩
  unfold State.decChans State.decJob
  simp only [hwork, hjob.1, hjob.2, h.recordPieces hc, h.maskPieces hc]
theorem State.dmaApart.portFree (a n req : Nat) : u.portFree a n req = s.portFree a n req := by
  simp only [State.portFree, State.decFirst, h.dramFree hc, h.decChans hc]
theorem State.dmaApart.waitAhead (lvl : Nat) (ch : List Nat) : u.waitAhead lvl ch = s.waitAhead lvl ch := by
  obtain ⟨r, d, w, hu⟩ := h.shape
  have hwait : u.dramWait = s.dramWait := by rw [hu]
  simp only [State.waitAhead, hwait, h.portFree hc]
theorem State.dmaApart.owners : u.owners = s.owners := by
  have hget : ∀ q, (0 < q ∧ q < 0x40) ∨ 0x80 ≤ q → ∀ f, u.get q f = s.get q f := fun q => h.get_of hc
  have hfeed : ∀ n f, u.get (pFEED n) f = s.get (pFEED n) f := fun n => hget _ (Or.inr (by unfold pFEED; omega))
  have henc : ∀ n f, u.get (pENC n) f = s.get (pENC n) f := fun n => hget _ (Or.inr (by unfold pENC; omega))
  have hcam : ∀ n f, u.get (pCAM n) f = s.get (pCAM n) f := fun n => hget _ (Or.inr (by unfold pCAM; omega))
  have hmux := hget pPINMUX (by decide)
  have hbreath := hget pBREATH (by decide)
  have hchant := hget pCHANT (by decide)
  have hcal := hget pCAL (by decide)
  simp only [State.owners, hfeed, henc, hcam, hmux, hbreath, hchant, hcal]
theorem State.dmaApart.findOwner (x : Res) : (u.owners.find? fun o => o.res == x && u.flag o.page o.en) =
    s.owners.find? fun o => o.res == x && s.flag o.page o.en := by
  rw [h.owners hc]
  refine List.find?_congr fun o ho => ?_
  simp only [State.flag, h.get_of hc (s.owners_notDma o ho)]
theorem State.dmaApart.srcEp (m : Nat) : u.srcEp m = s.srcEp m := by
  unfold State.srcEp
  rw [h.findOwner hc]
theorem State.dmaApart.dstEp (m : Nat) : u.dstEp m = s.dstEp m := by
  unfold State.dstEp
  rw [h.findOwner hc]
section
variable {m : Nat} (hm : m ≠ c)
include hm
theorem State.dmaApart.ringFree (b : Nat) : u.ringFree m b = s.ringFree m b := by
  have hend : u.ringEnd b = s.ringEnd b := by
    unfold State.ringEnd
    rw [h.get_of hc (by decide), h.get64_dmac hc]
  rw [State.ringFree_eq, hend, h.get64_dmac hc, h.dma m hm, ← State.ringFree_eq]
theorem State.dmaApart.dstAddr (d : Desc) (i : Nat) : u.dstAddr m d i = s.dstAddr m d i := by
  have hlive : ∀ b p, u.liveAddr b p = s.liveAddr b p := fun b p => by
    unfold State.liveAddr
    rw [h.ringPieces hc]
  exact State.dstAddr_congr hlive (h.get64_dmac hc) (h.dma m hm) d i
theorem State.dmaApart.burstSize : u.burstSize m = s.burstSize m := by
  unfold State.burstSize
  rw [h.get _ (by unfold pDMA; omega)]
theorem State.dmaApart.burstLen (d : Desc) : u.burstLen m d = s.burstLen m d := by
  have hq : u.queues = s.queues := by
    obtain ⟨r, x, w, hu⟩ := h.shape
    rw [hu]
  have htag : u.tagged m d = s.tagged m d := by
    unfold State.tagged
    rw [h.dstEp hc]
  unfold State.burstLen
  dsimp only
  rw [h.burstSize hc hm, h.srcEp hc, h.dstAddr hc hm, h.ringFree hc hm, h.dma m hm, hq, htag]
theorem State.dmaApart.srcReq (was : Bool) : u.srcReq m was = s.srcReq m was := by
  have hpage : ∀ f, u.get (pDMA m) f = s.get (pDMA m) f := h.get _ (by unfold pDMA; omega)
  have hq : ∀ e, u.queueBytes e = s.queueBytes e := fun e => by
    obtain ⟨r, x, w, hu⟩ := h.shape
    rw [hu]
    rfl
  unfold State.srcReq State.paceLo
  dsimp only
  rw [h.srcEp hc, hq, hpage, hpage]
theorem State.dmaApart.dstReq (was : Bool) : u.dstReq m was = s.dstReq m was := by
  have hpage : ∀ f, u.get (pDMA m) f = s.get (pDMA m) f := h.get _ (by unfold pDMA; omega)
  have hq : ∀ e, u.sinkFree e = s.sinkFree e := fun e => by
    obtain ⟨r, x, w, hu⟩ := h.shape
    rw [hu]
    rfl
  unfold State.dstReq State.paceLo
  dsimp only
  rw [h.dstEp hc, hq, hpage, hpage]
theorem State.dmaApart.dmaReq : u.dmaReq m = s.dmaReq m := by
  have hon : u.dmaOn m = s.dmaOn m := h.working_of hc (by unfold pDMA; omega)
  have hjob : ∀ b, u.jobAt b = s.jobAt b := fun b => by
    obtain ⟨r, x, w, hu⟩ := h.shape
    rw [hu]
    rfl
  unfold State.dmaReq State.reqSrc State.reqDst
  simp only [h.srcReq hc hm, h.dstReq hc hm, h.ringFree hc hm, h.dma m hm, hon, hjob]
theorem State.dmaApart.dmaTouches (d : Desc) : u.dmaTouches m d = s.dmaTouches m d := by
  simp only [State.dmaTouches, h.burstLen hc hm, h.dstAddr hc hm, h.dma m hm]
theorem State.dmaApart.dmaLevel (d : Desc) : u.dmaLevel m d = s.dmaLevel m d := by
  unfold State.dmaLevel
  rw [h.srcEp hc]
theorem State.dmaApart.dmaWants : u.dmaWants m = s.dmaWants m := by
  simp only [State.dmaWants, State.dmaServed, h.dmaReq hc hm, h.burstLen hc hm, h.dmaTouches hc hm, h.dmaLevel hc hm, h.portFree hc, h.waitAhead hc,
    h.dma m hm]
end
theorem State.dmaApart.dramServed (hidle : s.dmaWants c = false ∧ u.dmaWants c = false) (lvl a n req : Nat) :
    u.dramServed lvl a n req = s.dramServed lvl a n req := by
  have hahead : ∀ ch, u.dmaAhead lvl ch = s.dmaAhead lvl ch := fun ch => by
    unfold State.dmaAhead
    congr 1
    funext m
    by_cases hm : m = c
    · rw [hm, hidle.1, hidle.2]
      rfl
    · rw [h.dmaWants hc hm, h.dma m hm]
      simp only [h.dmaLevel hc hm, h.dmaTouches hc hm]
  unfold State.dramServed
  rw [h.portFree hc, h.waitAhead hc, hahead]
theorem State.dmaApart.dramRead_val (a n src req : Nat) : (u.dramRead a n src req).2 = (s.dramRead a n src req).2 := by
  rw [(u.dramRead_bytes a n src req).1, (s.dramRead_bytes a n src req).1, (h.like hc).dramBytes]
end

/-! ### A channel at work leaves the others and the memory (R174) -/

/-- The fields of a DMA page that a channel's fetch or halt writes. -/
def chanIds : List Nat := [R.DMA_CUR_LO.id, R.DMA_CUR_HI.id, R.PG_ERR_CNT.id, R.PG_ERR_ADDR_LO.id, R.PG_ERR_ADDR_HI.id, R.PG_ERR_INFO_SRC.id,
  R.PG_ERR_INFO_DIR.id, R.PG_ERR_INFO_CODE.id, R.PG_IRQ_RAW.id]
/-- What a channel at work leaves: the other channels, the memory, its configuration, and the causes that stand. -/
structure State.dmaGoes (s t : State) (c : Nat) : Prop where
  others : ∀ m, m ≠ c → t.dmaAt m = s.dmaAt m
  memory : s.sameMemory t
  field : ∀ f : Fld, f.id ∉ chanIds → t.get (pDMA c) f = s.get (pDMA c) f
  raised : ∀ i, i < 32 → bit (s.get (pDMA c) R.PG_IRQ_RAW) i = true → bit (t.get (pDMA c) R.PG_IRQ_RAW) i = true
/-- The channel's place: the descriptor and the bytes taken. -/
def State.dmaPlace (s : State) (c : Nat) : Nat × Nat := (s.dmaCur c, (s.dmaAt c).taken)
theorem State.dmaGoes.trans {s t u : State} {c : Nat} (h : s.dmaGoes t c) (k : t.dmaGoes u c) : s.dmaGoes u c :=
  ⟨fun m hm => (k.others m hm).trans (h.others m hm), State.sameMemory_of_same h.memory k.memory, fun f hf => (k.field f hf).trans (h.field f hf),
    fun i hi hb => k.raised i hi (h.raised i hi hb)⟩
theorem State.dmaGoes_refl (s : State) (c : Nat) : s.dmaGoes s c := ⟨fun _ _ => rfl, ⟨rfl, rfl, rfl, rfl, rfl⟩, fun _ _ => rfl, fun _ _ h => h⟩
theorem State.dmaGoes_updDma (s : State) (c : Nat) (g : DmaSt → DmaSt) : s.dmaGoes (s.updDma c g) c :=
  ⟨fun _ hm => s.dmaAt_upd_other g hm, ⟨rfl, rfl, rfl, rfl, rfl⟩, fun _ _ => rfl, fun _ _ h => h⟩
theorem State.dmaGoes_set64Cur (s : State) (c v : Nat) : s.dmaGoes (s.set64 (pDMA c) R.DMA_CUR_LO R.DMA_CUR_HI v) c := by
  refine ⟨fun _ _ => rfl, ⟨rfl, rfl, rfl, rfl, rfl⟩, fun f hf => ?_, fun i _ hb => ?_⟩
  · simp only [chanIds, List.mem_cons, not_or] at hf
    exact s.get_set64_ne _ v ⟨hf.1, hf.2.1⟩
  · rw [s.get_set64_ne _ v (by decide)]
    exact hb
theorem State.dmaGoes_cause (s : State) (c i : Nat) : s.dmaGoes (s.cause (pDMA c) i) c := by
  obtain ⟨r, w, hs⟩ := s.reports_cause (pDMA c) i
  refine ⟨fun m _ => by rw [hs]; rfl, by rw [hs]; exact ⟨rfl, rfl, rfl, rfl, rfl⟩, fun f hf => ?_, fun j hj hb => s.bit_cause_keeps hj hb⟩
  simp only [chanIds, List.mem_cons, not_or] at hf
  exact s.get_cause_ne i (Or.inr hf.2.2.2.2.2.2.2.2.1)
theorem State.dmaGoes_errCount (s : State) (c code src lo hi : Nat) : s.dmaGoes (s.errCount (pDMA c) code src lo hi 0) c := by
  have hget : ∀ f : Fld, f.id ∉ chanIds ∨ f.id = R.PG_IRQ_RAW.id → (s.errCount (pDMA c) code src lo hi 0).get (pDMA c) f = s.get (pDMA c) f := by
    intro f hf
    refine s.errCount_keeps (pDMA c) code src lo hi ?_
    simp only [List.forall_mem_cons, List.not_mem_nil, false_imp_iff, implies_true, and_true]
    rcases hf with hf | hf
    · simp only [chanIds, List.mem_cons, not_or] at hf
      obtain ⟨-, -, h1, h2, h3, h4, h5, h6, -⟩ := hf
      exact ⟨h1, h2, h3, h4, h5, h6⟩
    · rw [hf]
      decide
  have hirq := hget _ (Or.inr rfl)
  obtain ⟨r, hs⟩ := (s.errCount_regs (pDMA c) code src lo hi).2
  obtain ⟨t, ht⟩ : ∃ t, s.errCount (pDMA c) code src lo hi 0 = t := ⟨_, rfl⟩
  rw [ht] at hget hirq hs ⊢
  exact ⟨fun m _ => by rw [hs]; rfl, by rw [hs]; exact ⟨rfl, rfl, rfl, rfl, rfl⟩, fun f hf => hget f (Or.inl hf), fun i _ hb => hirq ▸ hb⟩
theorem State.dmaGoes_err (s : State) (c code src lo hi : Nat) : s.dmaGoes (s.err (pDMA c) code src lo hi 0) c := by
  unfold State.err
  split
  · exact s.dmaGoes_refl c
  · exact (s.dmaGoes_errCount c code src lo hi).trans (State.dmaGoes_cause _ _ _)
theorem State.notDramPage_dma {c : Nat} (hc : c < 64) : ¬ dramPage (pDMA c) := by
  unfold dramPage pDMA pDRAMC pDRAM
  omega
theorem State.dmaGoes_dramRead (s : State) {c : Nat} (hc : c < 64) (a n src req : Nat) : s.dmaGoes (s.dramRead a n src req).1 c := by
  have hstep := s.dramStep_dramRead a n src req []
  have hlike := (s.dramRead_bytes a n src req).2
  obtain ⟨r, d, w, m, k, hs⟩ := hstep.shape
  have hpage := hstep.page _ (State.notDramPage_dma hc)
  refine ⟨fun m _ => by rw [hs]; rfl, ⟨by rw [hs], by rw [hs], hlike.mem, hlike.chk, by rw [hs]⟩, fun f _ => hpage f, fun i _ hb => ?_⟩
  rw [hpage]
  exact hb
/-- A halt keeps the channel's place. -/
theorem State.dmaHalt_spec (s : State) (c code src addr redo : Nat) {t : State} (ht : s.dmaHalt c code src addr 0 redo = t) :
    s.dmaGoes t c ∧ t.dmaPlace c = s.dmaPlace c ∧ t.dmaAt c = { s.dmaAt c with st := 3, redo := redo } ∧
      (s.fenced (pDMA c) = false → bit (t.get (pDMA c) R.PG_IRQ_RAW) 5 = true) := by
  subst ht
  obtain ⟨u, hu⟩ : ∃ u, s.err64 (pDMA c) code src addr 0 = u := ⟨_, rfl⟩
  have hgo : s.dmaGoes u c := hu ▸ s.dmaGoes_err c code src addr (addr / 2 ^ 32)
  have hcur : u.dmaCur c = s.dmaCur c := by
    rw [← hu]
    unfold State.dmaCur State.get64 State.err64
    rw [s.get_err_field _ _ _ _ _ _ (by decide), s.get_err_field _ _ _ _ _ _ (by decide)]
  have hat : u.dmaAt c = s.dmaAt c := by
    obtain ⟨r, w, hs⟩ := s.reports_err (pDMA c) code src addr (addr / 2 ^ 32) 0
    rw [← hu, State.err64, hs]
    rfl
  have hhalt : s.dmaHalt c code src addr 0 redo = (u.updDma c fun d => { d with st := 3, redo := redo }).cause (pDMA c) 5 := by
    rw [← hu]
    rfl
  obtain ⟨v, hv⟩ : ∃ v, (u.updDma c fun d => { d with st := 3, redo := redo }) = v := ⟨_, rfl⟩
  rw [hhalt, hv]
  have hvat : v.dmaAt c = { s.dmaAt c with st := 3, redo := redo } := by
    rw [← hv, State.dmaAt_upd_self, hat]
  have hvat' : (v.cause (pDMA c) 5).dmaAt c = v.dmaAt c := by
    obtain ⟨r, w, hs⟩ := v.reports_cause (pDMA c) 5
    rw [hs]
    rfl
  have hvcur : (v.cause (pDMA c) 5).dmaCur c = v.dmaCur c := by
    unfold State.dmaCur State.get64
    rw [State.get_cause_field _ _ _ (by decide), State.get_cause_field _ _ _ (by decide)]
  refine ⟨hgo.trans ((hv ▸ u.dmaGoes_updDma c _ : u.dmaGoes v c).trans (v.dmaGoes_cause c 5)), ?_, hvat'.trans hvat, fun hf => ?_⟩
  · unfold State.dmaPlace
    rw [hvcur, hvat', hvat, ← hcur, ← hv]
    rfl
  · have hvf : v.get (pDMA c) R.PG_FENCE_FENCED = s.get (pDMA c) R.PG_FENCE_FENCED := by
      rw [← hv]
      exact hgo.field _ (by decide)
    exact v.bit_cause (by decide) ((State.frozen_congr hvf).trans (State.frozen_of_unfenced hf))
theorem State.dmaPlace_dramRead (s : State) {c : Nat} (hc : c < 64) (a n src req : Nat) : (s.dramRead a n src req).1.dmaPlace c = s.dmaPlace c ∧
    (s.dramRead a n src req).1.dmaAt c = s.dmaAt c := by
  have hstep := s.dramStep_dramRead a n src req []
  obtain ⟨r, d, w, m, k, hs⟩ := hstep.shape
  have hpage := hstep.page _ (State.notDramPage_dma hc)
  have hat : (s.dramRead a n src req).1.dmaAt c = s.dmaAt c := by
    rw [hs]
    rfl
  refine ⟨?_, hat⟩
  unfold State.dmaPlace State.dmaCur State.get64
  rw [hat, hpage, hpage]

/-! ### The fetch of a descriptor (R164) -/

theorem State.dramSize_congr {s t : State} (hgeo : t.geo = s.geo) (hspare : t.get pDRAMC R.DRAMC_CFG_SPARE = s.get pDRAMC R.DRAMC_CFG_SPARE) :
    t.dramSize = s.dramSize := by
  unfold State.dramSize State.logRanks State.spareOn State.ranks State.flag
  rw [hgeo, hspare]
theorem State.descGood_congr {s t : State} (hsize : t.dramSize = s.dramSize) (l : List Byte) : t.descGood l = s.descGood l := by
  unfold State.descGood State.sideGood
  rw [hsize]
theorem State.dramReady_congr {s t : State} (h : t.dram = s.dram) : t.dramReady = s.dramReady := by
  unfold State.dramReady State.dramAt
  rw [h]
/-- A channel that turns to the descriptor at an address. -/
def State.turnTo (s : State) (c a : Nat) : State :=
  (s.set64 (pDMA c) R.DMA_CUR_LO R.DMA_CUR_HI a).updDma c fun d => { d with
    st := 1, redo := 1, desc := none, taken := 0, lastSeen := false, reqS := false, reqD := false }
/-- A channel that turns back to the control word of its descriptor. -/
def State.turnBack (s : State) (c redo : Nat) : State := s.updDma c fun d => { d with redo := redo, dbPend := false, desc := none }
/-- The fetch of a descriptor on the channel that has turned to it. -/
def State.fetchOn (u : State) (c a : Nat) : State :=
  if !u.dramReady then u
  else if u.dramSize ≤ a then u.dmaHalt c 0x60 4 a 0 1
  else if !u.chainFree a 32 c then u
  else
    let r := u.dramRead a 32 1 c
    if !r.2.2 then r.1.dmaHalt c 0x60 2 a 0 1
    else if !r.1.descGood r.2.1 then r.1.dmaHalt c 0x60 3 a 0 1
    else r.1.updDma c fun d => { d with redo := 0, desc := some (descOf r.2.1) }
theorem State.dmaFetch_eq (s : State) (c a : Nat) : s.dmaFetch c a = (s.turnTo c a).fetchOn c a := rfl
/-- A channel without a descriptor asks for nothing. -/
theorem State.dmaWants_none {s : State} {c : Nat} (h : (s.dmaAt c).desc = none) : s.dmaWants c = false := by
  unfold State.dmaWants
  rw [h]
theorem State.dmaWants_stopped {s : State} {c : Nat} (h : (s.dmaAt c).st ≠ 1 ∨ (s.dmaAt c).finished = true) : s.dmaWants c = false := by
  have hreq : s.dmaReq c = false ∨ (s.dmaAt c).finished = true := by
    rcases h with h | h
    · left
      simp [State.dmaReq, h]
    · exact Or.inr h
  unfold State.dmaWants
  rcases hreq with hreq | hreq <;> cases (s.dmaAt c).desc <;> simp [hreq]
/-- States that agree but for the registers and the state of one DMA channel. -/
structure State.dmaBut (s u : State) (c : Nat) : Prop where
  get : ∀ q, q ≠ pDMA c → ∀ f, u.get q f = s.get q f
  dma : ∀ m, m ≠ c → u.dmaAt m = s.dmaAt m
  shape : ∃ r d w, u = { s with regs := r, dma := d, host := { s.host with waiting := w } }
theorem State.dmaBut_refl (s : State) (c : Nat) : s.dmaBut s c := ⟨fun _ _ _ => rfl, fun _ _ => rfl, _, _, _, rfl⟩
theorem State.dmaBut_updDma {s u : State} {c : Nat} (h : s.dmaBut u c) (g : DmaSt → DmaSt) : s.dmaBut (u.updDma c g) c := by
  obtain ⟨hget, hdma, r, d, w, hu⟩ := h
  refine ⟨hget, fun m hm => (u.dmaAt_upd_other g hm).trans (hdma m hm), r, u.dma.put c (g (u.dmaAt c)), w, ?_⟩
  unfold State.updDma
  generalize u.dma.put c (g (u.dmaAt c)) = x
  rw [hu]
theorem State.dmaBut_set {s u : State} {c : Nat} (h : s.dmaBut u c) (f : Fld) (v : Nat) : s.dmaBut (u.set (pDMA c) f v) c := by
  obtain ⟨hget, hdma, r, d, w, hu⟩ := h
  refine ⟨fun q hq g => (u.get_set_ne v (Or.inl hq)).trans (hget q hq g), hdma, (u.set (pDMA c) f v).regs, d, w, ?_⟩
  rw [hu]
  rfl
theorem State.dmaBut_cause {s u : State} {c : Nat} (h : s.dmaBut u c) (i : Nat) : s.dmaBut (u.cause (pDMA c) i) c := by
  obtain ⟨hget, hdma, r, d, w, hu⟩ := h
  have hq : ∀ q, q ≠ pDMA c → ∀ g, (u.cause (pDMA c) i).get q g = s.get q g := fun q hq g => (u.get_cause_ne i (Or.inl hq)).trans (hget q hq g)
  obtain ⟨r', w', hc⟩ := u.reports_cause (pDMA c) i
  rw [hc] at hq ⊢
  refine ⟨hq, hdma, r', d, w', ?_⟩
  rw [hu]
theorem State.dmaBut.apart {s u : State} {c : Nat} (h : s.dmaBut u c) : s.dmaApart u c :=
  ⟨fun q hq => h.get q hq.1, h.dma, h.shape⟩
theorem State.dmaBut.dramReady {s u : State} {c : Nat} (h : s.dmaBut u c) : u.dramReady = s.dramReady := by
  obtain ⟨r, d, w, hu⟩ := h.shape
  exact State.dramReady_congr (by rw [hu])
theorem State.dmaBut.dramSize {s u : State} {c : Nat} (hc : c < 64) (h : s.dmaBut u c) : u.dramSize = s.dramSize := by
  have hget := h.get pDRAMC (by unfold pDRAMC pDMA; omega) R.DRAMC_CFG_SPARE
  obtain ⟨r, d, w, hu⟩ := h.shape
  exact State.dramSize_congr (by rw [hu]; rfl) hget
section
variable {s u : State} {c a : Nat} {t : State} (hc : c < 64) (ht : u.fetchOn c a = t)
include hc ht
/-- The fetch keeps the channel's place. -/
theorem State.fetchOn_goes : u.dmaGoes t c ∧ t.dmaPlace c = u.dmaPlace c := by
  subst ht
  obtain ⟨r, hr⟩ : ∃ r, u.dramRead a 32 1 c = r := ⟨_, rfl⟩
  have hgo : u.dmaGoes r.1 c := hr ▸ u.dmaGoes_dramRead hc a 32 1 c
  have hplace : r.1.dmaPlace c = u.dmaPlace c := hr ▸ (u.dmaPlace_dramRead hc a 32 1 c).1
  have hhalt : ∀ x, u.dmaGoes (r.1.dmaHalt c 0x60 x a 0 1) c ∧ (r.1.dmaHalt c 0x60 x a 0 1).dmaPlace c = u.dmaPlace c := fun x => by
    obtain ⟨hg, hp, -⟩ := r.1.dmaHalt_spec c 0x60 x a 1 rfl
    exact ⟨hgo.trans hg, hp.trans hplace⟩
  unfold State.fetchOn
  rw [hr]
  dsimp only
  split
  · exact ⟨u.dmaGoes_refl c, rfl⟩
  · split
    · obtain ⟨hg, hp, -⟩ := u.dmaHalt_spec c 0x60 4 a 1 rfl
      exact ⟨hg, hp⟩
    · split
      · exact ⟨u.dmaGoes_refl c, rfl⟩
      · split
        · exact hhalt 2
        · split
          · exact hhalt 3
          · refine ⟨hgo.trans (r.1.dmaGoes_updDma c _), ?_⟩
            rw [← hplace]
            unfold State.dmaPlace
            rw [State.dmaAt_upd_self]
            rfl
theorem State.fetchOn_outside (hready : u.dramReady = true) (hsize : u.dramSize ≤ a) :
    t.dmaAt c = { u.dmaAt c with st := 3, redo := 1 } ∧ (u.fenced (pDMA c) = false → bit (t.get (pDMA c) R.PG_IRQ_RAW) 5 = true) := by
  rw [State.fetchOn, if_neg (by simp [hready]), if_pos hsize] at ht
  obtain ⟨-, -, h1, h2⟩ := u.dmaHalt_spec c 0x60 4 a 1 ht
  exact ⟨h1, h2⟩
omit hc in
theorem State.fetchOn_waits (h : u.dramReady = false ∨ (a < u.dramSize ∧ u.chainFree a 32 c = false)) : t = u := by
  rw [← ht, State.fetchOn]
  rcases h with h | ⟨hsize, hfree⟩
  · rw [if_pos (by simp [h])]
  · split
    · rfl
    · rw [if_neg (by omega), if_pos (by simp [hfree])]
theorem State.fetchOn_read (hready : u.dramReady = true) (hsize : a < u.dramSize) (hfree : u.chainFree a 32 c = true) {l : List Byte} {ok : Bool}
    (hl : (u.dramRead a 32 1 c).2 = (l, ok)) :
    (ok = true → u.descGood l = true → t.dmaAt c = { u.dmaAt c with redo := 0, desc := some (descOf l) }) ∧
      (ok = false ∨ u.descGood l = false → t.dmaAt c = { u.dmaAt c with st := 3, redo := 1 } ∧
        (u.fenced (pDMA c) = false → bit (t.get (pDMA c) R.PG_IRQ_RAW) 5 = true)) := by
  obtain ⟨r, hr⟩ : ∃ r, (u.dramRead a 32 1 c).1 = r := ⟨_, rfl⟩
  have hgo : u.dmaGoes r c := hr ▸ u.dmaGoes_dramRead hc a 32 1 c
  have hat : r.dmaAt c = u.dmaAt c := hr ▸ (u.dmaPlace_dramRead hc a 32 1 c).2
  have hgood : r.descGood l = u.descGood l := by
    refine State.descGood_congr ?_ l
    rw [← hr]
    exact State.dramSize_congr (u.dramRead_bytes a 32 1 c).2.geo (State.dramcKept_dramRead (by unfold dramcKept; decide) u a 32 1 c)
  have hfen : r.fenced (pDMA c) = u.fenced (pDMA c) := by
    unfold State.fenced State.flag
    rw [hgo.field _ (by decide)]
  rw [State.fetchOn, if_neg (by simp [hready]), if_neg (by omega), if_neg (by simp [hfree])] at ht
  dsimp only at ht
  rw [hr, hl] at ht
  dsimp only at ht
  have hhalt : ∀ x, r.dmaHalt c 0x60 x a 0 1 = t → t.dmaAt c = { u.dmaAt c with st := 3, redo := 1 } ∧
      (u.fenced (pDMA c) = false → bit (t.get (pDMA c) R.PG_IRQ_RAW) 5 = true) := fun x hx => by
    obtain ⟨-, -, h1, h2⟩ := r.dmaHalt_spec c 0x60 x a 1 hx
    rw [hat] at h1
    rw [hfen] at h2
    exact ⟨h1, h2⟩
  refine ⟨fun hok hg => ?_, fun hbad => ?_⟩
  · rw [if_neg (by simp [hok]), if_neg (by simp [hgood, hg])] at ht
    rw [← ht, State.dmaAt_upd_self, hat]
  · cases hok : ok
    · rw [hok, if_pos (by simp)] at ht
      exact hhalt _ ht
    · have hg : u.descGood l = false := by simpa [hok] using hbad
      rw [hok, if_neg (by simp), if_pos (by simp [hgood, hg])] at ht
      exact hhalt _ ht
end
theorem State.turnTo_spec (s : State) (c a : Nat) {u : State} (hu : s.turnTo c a = u) :
    s.dmaGoes u c ∧ u.dmaPlace c = (a % 2 ^ 64, 0) ∧ (u.dmaAt c).st = 1 ∧ (u.dmaAt c).redo = 1 ∧ (u.dmaAt c).desc = none := by
  obtain ⟨x, hx⟩ : ∃ x, s.set64 (pDMA c) R.DMA_CUR_LO R.DMA_CUR_HI a = x := ⟨_, rfl⟩
  have hcur : x.dmaCur c = a % 2 ^ 64 := by
    rw [← hx]
    exact s.get64_set64 (pDMA c) a (by decide) rfl rfl rfl
  have hgo : s.dmaGoes x c := hx ▸ s.dmaGoes_set64Cur c a
  have hturn : s.turnTo c a = x.updDma c fun d => { d with
      st := 1, redo := 1, desc := none, taken := 0, lastSeen := false, reqS := false, reqD := false } := by
    rw [← hx]
    rfl
  rw [← hu, hturn]
  refine ⟨hgo.trans (x.dmaGoes_updDma c _), ?_, ?_, ?_, ?_⟩
  · unfold State.dmaPlace
    rw [State.dmaAt_upd_self, ← hcur]
    rfl
  all_goals rw [State.dmaAt_upd_self]
theorem State.dmaBut_turnTo {s v : State} {c : Nat} (h : s.dmaBut v c) (a : Nat) : s.dmaBut (v.turnTo c a) c :=
  State.dmaBut_updDma (State.dmaBut_set (State.dmaBut_set h _ _) _ _) _
section
variable {s v t : State} {c : DmaCh} {a : Nat} (h : s.dmaBut v c) (hs : s.dmaWants c = false) (hon : v.dmaOn c = true) (ht : v.dmaFetch c a = t)
include h hs hon ht
/-- A fetch asked for on an idle channel (R164). -/
theorem State.dmaFetch_fetches : fetches s t c a := by
  have hc := c.isLt
  obtain ⟨u, hu⟩ : ∃ u, v.turnTo c a = u := ⟨_, rfl⟩
  rw [State.dmaFetch_eq, hu] at ht
  obtain ⟨hgo, hplace, hst, hredo, hdesc⟩ := v.turnTo_spec c a hu
  have hbut : s.dmaBut u c := hu ▸ State.dmaBut_turnTo h a
  have hapart := hbut.apart
  have hfree : u.chainFree a 32 c = s.chainFree a 32 c := hapart.dramServed hc ⟨hs, State.dmaWants_none hdesc⟩ _ _ _ _
  have hread := hapart.dramRead_val hc a 32 1 c
  have hsize := hbut.dramSize hc
  have hfen : u.fenced (pDMA c) = false := by
    rw [State.fenced, State.flag, hgo.field _ (by decide)]
    exact State.unfenced_of_working hon
  have hplace' := (State.fetchOn_goes hc ht).2.trans hplace
  unfold fetches
  rw [← hbut.dramReady, ← hsize, ← hfree, ← hread]
  refine ⟨congrArg Prod.fst hplace', congrArg Prod.snd hplace', fun h1 h2 => ?_, fun hw => ?_, fun h1 h2 h3 l ok hl => ⟨fun h4 h5 => ?_, fun h4 => ?_⟩⟩
  · obtain ⟨hat, hbit⟩ := State.fetchOn_outside hc ht h1 h2
    exact ⟨by rw [hat], hbit hfen⟩
  · rw [State.fetchOn_waits ht hw]
    exact ⟨hst, hredo, hdesc⟩
  · have hat := (State.fetchOn_read hc ht h1 h2 h3 hl).1 h4 ((State.descGood_congr hsize l).trans h5)
    exact ⟨by rw [hat]; exact hst, by rw [hat]⟩
  · obtain ⟨hat, hbit⟩ := (State.fetchOn_read hc ht h1 h2 h3 hl).2 (h4.imp id ((State.descGood_congr hsize l).trans ·))
    exact ⟨by rw [hat], by rw [hat]; exact hdesc, hbit hfen⟩
end
theorem State.dmaFetch_goes (v : State) (c : DmaCh) (a : Nat) {t : State} (ht : v.dmaFetch c a = t) :
    v.dmaGoes t c ∧ t.dmaPlace c = (a % 2 ^ 64, 0) := by
  obtain ⟨u, hu⟩ : ∃ u, v.turnTo c a = u := ⟨_, rfl⟩
  rw [State.dmaFetch_eq, hu] at ht
  obtain ⟨hgo, hplace, -⟩ := v.turnTo_spec c a hu
  obtain ⟨hgo', hplace'⟩ := State.fetchOn_goes c.isLt ht
  exact ⟨hgo.trans hgo', hplace'.trans hplace⟩

/-! ### The control word read again (R174) -/

/-- The control word read again on the channel that has turned back to it. -/
def State.rereadOn (u : State) (c a : Nat) (parked : Bool) : State :=
  let r := u.dramRead a 8 1 c
  let w := leNat r.2.1
  if !u.chainFree a 8 c then u
  else if !r.2.2 then r.1.dmaHalt c 0x60 2 a 0 2
  else if bit w 0 then
    let t := r.1.updDma c fun d => { d with st := 2, redo := 0 }
    if parked then t else t.cause (pDMA c) 4
  else r.1.dmaFetch c (field w 31 33 * 32)
theorem State.dmaReread_eq (s : State) (c : Nat) (parked : Bool) :
    s.dmaReread c parked = (s.turnBack c (if parked then 3 else 2)).rereadOn c (s.dmaCur c) parked := rfl
section
variable {u t : State} {c : DmaCh} {a : Nat} {parked : Bool} (ht : u.rereadOn c a parked = t)
include ht
theorem State.rereadOn_goes : u.dmaGoes t c := by
  subst ht
  obtain ⟨r, hr⟩ : ∃ r, u.dramRead a 8 1 c = r := ⟨_, rfl⟩
  have hgo : u.dmaGoes r.1 c := hr ▸ u.dmaGoes_dramRead c.isLt a 8 1 c
  unfold State.rereadOn
  rw [hr]
  dsimp only
  split
  · exact u.dmaGoes_refl c
  · split
    · exact hgo.trans (r.1.dmaHalt_spec c 0x60 2 a 2 rfl).1
    · split
      · have hupd := hgo.trans (r.1.dmaGoes_updDma c fun d => { d with st := 2, redo := 0 })
        split
        · exact hupd
        · exact hupd.trans (State.dmaGoes_cause _ _ _)
      · exact hgo.trans (r.1.dmaFetch_goes c _ rfl).1
theorem State.rereadOn_waits (hfree : u.chainFree a 8 c = false) : t = u := by
  rw [← ht, State.rereadOn]
  dsimp only
  rw [if_pos (by simp [hfree])]
section
variable {l : List Byte} (hfree : u.chainFree a 8 c = true) (hl : (u.dramRead a 8 1 c).2 = (l, true))
include hfree hl
theorem State.rereadOn_stands (hlast : bit (leNat l) 0 = true) :
    (t.dmaAt c).st = 2 ∧ (t.dmaAt c).redo = 0 ∧ t.dmaCur c = u.dmaCur c ∧
      (parked = true → ∀ f, t.get (pDMA c) f = u.get (pDMA c) f) ∧
      (parked = false → u.fenced (pDMA c) = false → bit (t.get (pDMA c) R.PG_IRQ_RAW) 4 = true) := by
  obtain ⟨r, hr⟩ : ∃ r, (u.dramRead a 8 1 c).1 = r := ⟨_, rfl⟩
  have hpage : ∀ f, r.get (pDMA c) f = u.get (pDMA c) f :=
    hr ▸ (u.dramStep_dramRead a 8 1 c []).page _ (State.notDramPage_dma c.isLt)
  have hcur : r.dmaCur c = u.dmaCur c := by
    unfold State.dmaCur State.get64
    rw [hpage, hpage]
  obtain ⟨v, hv⟩ : ∃ v, (r.updDma c fun d => { d with st := 2, redo := 0 }) = v := ⟨_, rfl⟩
  have hvat : v.dmaAt c = { r.dmaAt c with st := 2, redo := 0 } := by rw [← hv, State.dmaAt_upd_self]
  have hvget : ∀ f, v.get (pDMA c) f = u.get (pDMA c) f := fun f => by
    rw [← hv]
    exact hpage f
  rw [State.rereadOn] at ht
  dsimp only at ht
  rw [if_neg (by simp [hfree]), hl, if_neg (by simp), if_pos hlast, hr, hv] at ht
  have hvcur : v.dmaCur c = u.dmaCur c := by
    unfold State.dmaCur State.get64
    rw [hvget, hvget]
  cases parked
  · have hcause : (v.cause (pDMA c) 4).dmaAt c = v.dmaAt c := by
      obtain ⟨x, w, hs⟩ := v.reports_cause (pDMA c) 4
      rw [hs]
      rfl
    rw [if_neg (by simp)] at ht
    rw [← ht]
    refine ⟨by rw [hcause, hvat], by rw [hcause, hvat], ?_, fun h => absurd h (by simp), fun _ hf => ?_⟩
    · rw [← hvcur]
      unfold State.dmaCur State.get64
      rw [State.get_cause_field _ _ _ (by decide), State.get_cause_field _ _ _ (by decide)]
    · exact v.bit_cause (by decide) ((State.frozen_congr (hvget _)).trans (State.frozen_of_unfenced hf))
  · rw [if_pos rfl] at ht
    rw [← ht]
    exact ⟨by rw [hvat], by rw [hvat], hvcur, fun _ => hvget, fun h => absurd h (by simp)⟩
theorem State.rereadOn_next (hlast : bit (leNat l) 0 = false) : t.dmaPlace c = (field (leNat l) 31 33 * 32, 0) := by
  rw [State.rereadOn] at ht
  dsimp only at ht
  rw [if_neg (by simp [hfree]), hl, if_neg (by simp), if_neg (by simp [hlast])] at ht
  have hplace := (State.dmaFetch_goes _ c _ ht).2
  have hlt : field (leNat l) 31 33 < 2 ^ 33 := Nat.mod_lt _ (by positivity)
  rw [hplace]
  exact congrArg (·, 0) (Nat.mod_eq_of_lt (show field (leNat l) 31 33 * 32 < 2 ^ 64 by omega))
end
end
section
variable {s v t : State} {c : DmaCh} {parked : Bool} (h : s.dmaBut v c) (hs : s.dmaWants c = false) (hcur : v.dmaCur c = s.dmaCur c)
  (hon : v.dmaOn c = true) (ht : v.dmaReread c parked = t)
include ht
theorem State.dmaReread_goes : v.dmaGoes t c := by
  rw [State.dmaReread_eq] at ht
  exact (v.dmaGoes_updDma c _).trans (State.rereadOn_goes ht)
include h hs hcur
theorem State.dmaReread_waits (hfree : s.chainFree (s.dmaCur c) 8 c = false) :
    (t.dmaAt c).st = (v.dmaAt c).st ∧ (t.dmaAt c).redo = (if parked then 3 else 2) ∧ (t.dmaAt c).desc = none := by
  obtain ⟨u, hu⟩ : ∃ u, v.turnBack c (if parked then 3 else 2) = u := ⟨_, rfl⟩
  have hat : u.dmaAt c = { v.dmaAt c with redo := (if parked then 3 else 2), dbPend := false, desc := none } := by
    rw [← hu, State.turnBack, State.dmaAt_upd_self]
  have hbut : s.dmaBut u c := hu ▸ State.dmaBut_updDma h _
  have hapart := hbut.apart
  rw [State.dmaReread_eq, hu, hcur] at ht
  rw [State.rereadOn_waits ht ((hapart.dramServed c.isLt ⟨hs, State.dmaWants_none (by rw [hat])⟩ _ _ _ _).trans hfree), hat]
  exact ⟨rfl, rfl, rfl⟩
include hon
theorem State.dmaReread_read {l : List Byte} (hfree : s.chainFree (s.dmaCur c) 8 c = true) (hl : (s.dramRead (s.dmaCur c) 8 1 c).2 = (l, true)) :
    (bit (leNat l) 0 = true → (t.dmaAt c).st = 2 ∧ (t.dmaAt c).redo = 0 ∧ t.dmaCur c = s.dmaCur c ∧
      (parked = true → ∀ f, t.get (pDMA c) f = v.get (pDMA c) f) ∧ (parked = false → bit (t.get (pDMA c) R.PG_IRQ_RAW) 4 = true)) ∧
    (bit (leNat l) 0 = false → t.dmaCur c = field (leNat l) 31 33 * 32 ∧ (t.dmaAt c).taken = 0) := by
  obtain ⟨u, hu⟩ : ∃ u, v.turnBack c (if parked then 3 else 2) = u := ⟨_, rfl⟩
  have hdesc : (u.dmaAt c).desc = none := by rw [← hu, State.turnBack, State.dmaAt_upd_self]
  have hget : ∀ f, u.get (pDMA c) f = v.get (pDMA c) f := fun f => by rw [← hu]; rfl
  have hbut : s.dmaBut u c := hu ▸ State.dmaBut_updDma h _
  have hapart := hbut.apart
  have hufree := (hapart.dramServed c.isLt ⟨hs, State.dmaWants_none hdesc⟩ _ _ _ _).trans hfree
  have hul := (hapart.dramRead_val c.isLt _ _ _ _).trans hl
  rw [State.dmaReread_eq, hu, hcur] at ht
  refine ⟨fun hlast => ?_, fun hlast => ?_⟩
  · obtain ⟨h1, h2, h3, h4, h5⟩ := State.rereadOn_stands ht hufree hul hlast
    have hucur : u.dmaCur c = s.dmaCur c := by
      rw [← hcur, ← hu]
      rfl
    have hfen : u.fenced (pDMA c) = false := by
      rw [State.fenced, State.flag, hget]
      exact State.unfenced_of_working hon
    exact ⟨h1, h2, h3.trans hucur, fun hp f => (h4 hp f).trans (hget f), fun hp => h5 hp hfen⟩
  · have hplace := State.rereadOn_next ht hufree hul hlast
    exact ⟨congrArg Prod.fst hplace, congrArg Prod.snd hplace⟩
end

/-! ### The doorbell (R160, R173, R174) -/

theorem exec_dmaDb {s : State} {c : DmaCh} (h : s.accepts (pDMA c) 0x58 1) :
    exec (.dmaDb c) s = .next (if s.bar2Writes then { s with bells := s.bells ++ [c.val] } else s.dmaBell c) :=
  congrArg _ (State.writeWith_accepts (dmaDbAct c.val 1) h (Or.inl (by rw [blkOf_dma c c.isLt]; simp)))
theorem exec_dmaCmdResume {s : State} {c : DmaCh} (h : s.accepts (pDMA c) 0x5C 1) :
    exec (.dmaCmdResume c) s = .next (if (s.dmaAt c).st = 3 then (s.updDma c fun d => { d with st := 1 }).dmaRedo c else s) := by
  refine congrArg _ ((State.writeWith_accepts (dmaCmdAct c.val 1) h (Or.inl (by rw [blkOf_dma c c.isLt]; simp))).trans ?_)
  have hbits : bit 1 0 = true ∧ bit 1 1 = false := by decide
  by_cases hst : (s.dmaAt c).st = 3
  · simp [dmaCmdAct, hbits, hst]
  · simp [dmaCmdAct, hbits, hst]
theorem exec_dmaCmdAbort {s : State} {c : DmaCh} (h : s.accepts (pDMA c) 0x5C 2) :
    exec (.dmaCmdAbort c) s = .next (if (s.dmaAt c).st = 3 then s.dmaStop c else s) := by
  refine congrArg _ ((State.writeWith_accepts (dmaCmdAct c.val 2) h (Or.inl (by rw [blkOf_dma c c.isLt]; simp))).trans ?_)
  have hbits : bit 2 0 = false ∧ bit 2 1 = true := by decide
  simp [dmaCmdAct, hbits]
section
variable {s : State} {c : DmaCh}
theorem State.dmaBell_silent (h : s.dmaOn c = false ∨ (s.dmaAt c).st = 3) : s.dmaBell c = s := by
  unfold State.dmaBell
  rcases h with h | h
  · simp [h]
  · simp [h]
theorem State.dmaBell_idle (hon : s.dmaOn c = true) (hst : (s.dmaAt c).st = 0) :
    s.dmaBell c = s.dmaFetch c (s.get64 (pDMA c) R.DMA_HEAD_LO R.DMA_HEAD_HI) := by
  simp [State.dmaBell, State.dmaEnable, hon, hst]
theorem State.dmaBell_running (hon : s.dmaOn c = true) (hst : (s.dmaAt c).st = 1) :
    s.dmaBell c = (s.updDma c fun d => { d with dbPend := true }).incWrap (pDMA c) R.DMA_DB_CNT := by
  simp [State.dmaBell, hon, hst]
theorem State.dmaBell_parked (hon : s.dmaOn c = true) (hst : (s.dmaAt c).st = 2) : s.dmaBell c = s.dmaReread c true := by
  simp [State.dmaBell, hon, hst]
theorem dmaDb_clause (s : State) (c : DmaCh) (h : s.accepts (pDMA c) 0x58 1) (hw : s.bar2Writes = false) :
     (s.dmaOn c = false ∨ (s.dmaAt c).st = 3 → exec (.dmaDb c) s = .next s) ∧
     (s.dmaOn c = true → (s.dmaAt c).st = 0 → ∃ t, exec (.dmaDb c) s = .next t ∧
       fetches s t c (s.get64 (pDMA c) R.DMA_HEAD_LO R.DMA_HEAD_HI) ∧ (∀ m, m ≠ c.val → t.dmaAt m = s.dmaAt m) ∧ s.sameMemory t) ∧
     (s.dmaOn c = true → (s.dmaAt c).st = 1 → ∃ t, exec (.dmaDb c) s = .next t ∧ t.dmaAt c = { s.dmaAt c with dbPend := true } ∧
       t.get (pDMA c) R.DMA_DB_CNT = (s.get (pDMA c) R.DMA_DB_CNT + 1) % 2 ^ 32 ∧ s.regsBut t [(pDMA c, R.DMA_DB_CNT)] ∧
       (∀ m, m ≠ c.val → t.dmaAt m = s.dmaAt m) ∧ ({ t with regs := s.regs, dma := s.dma } : State) = s) ∧
     (s.dmaOn c = true → (s.dmaAt c).st = 2 → ∃ t, exec (.dmaDb c) s = .next t ∧ (∀ m, m ≠ c.val → t.dmaAt m = s.dmaAt m) ∧
       s.sameMemory t ∧
       (s.chainFree (s.dmaCur c) 8 c = false → (t.dmaAt c).st = 2 ∧ (t.dmaAt c).redo = 3) ∧
       ∀ l, s.chainFree (s.dmaCur c) 8 c = true → (s.dramRead (s.dmaCur c) 8 1 c).2 = (l, true) →
         (bit (leNat l) 0 = true → (t.dmaAt c).st = 2 ∧ (t.dmaAt c).redo = 0 ∧ ∀ f, t.get (pDMA c) f = s.get (pDMA c) f) ∧
         (bit (leNat l) 0 = false → t.dmaCur c = field (leNat l) 31 33 * 32 ∧ (t.dmaAt c).taken = 0)) := by
  have hexec : exec (.dmaDb c) s = .next (s.dmaBell c) := by rw [exec_dmaDb h, if_neg (by simp [hw])]
  have hbut := s.dmaBut_refl c
  rw [hexec]
  refine ⟨fun h => ?_, fun hon hst => ⟨_, rfl, ?_⟩, fun hon hst => ⟨_, rfl, ?_⟩, fun hon hst => ⟨_, rfl, ?_⟩⟩
  · rw [State.dmaBell_silent h]
  · rw [State.dmaBell_idle hon hst]
    have hgo := (s.dmaFetch_goes c (s.get64 (pDMA c) R.DMA_HEAD_LO R.DMA_HEAD_HI) rfl).1
    exact ⟨State.dmaFetch_fetches hbut (State.dmaWants_stopped (Or.inl (by omega))) hon rfl, hgo.others, hgo.memory⟩
  · rw [State.dmaBell_running hon hst]
    have hat : ∀ (u : State) m, (u.incWrap (pDMA c) R.DMA_DB_CNT).dmaAt m = u.dmaAt m := fun _ _ => rfl
    simp only [hat]
    exact ⟨s.dmaAt_upd_self _ _, State.get_incWrap_self _ _ _, State.regsBut_incWrap (fun _ _ _ => rfl) (by simp), fun m hm => s.dmaAt_upd_other _ hm, rfl⟩
  · have hidle : s.dmaWants c = false := State.dmaWants_stopped (Or.inl (by omega))
    have hgo := s.dmaReread_goes (c := c) (parked := true) rfl
    rw [State.dmaBell_parked hon hst]
    refine ⟨hgo.others, hgo.memory, fun hfree => ?_, fun l hfree hl => ?_⟩
    · obtain ⟨h1, h2, -⟩ := State.dmaReread_waits (parked := true) hbut hidle rfl rfl hfree
      exact ⟨h1.trans hst, h2⟩
    · obtain ⟨hlast, hnext⟩ := State.dmaReread_read (parked := true) hbut hidle rfl hon rfl hfree hl
      exact ⟨fun hb => ⟨(hlast hb).1, (hlast hb).2.1, (hlast hb).2.2.2.1 rfl⟩, hnext⟩

/-! ### The end of a descriptor (R166, R174) -/

/-- The channel's descriptor counted as done, with its cause where it asks for one. -/
def State.doneCounted (s : State) (c : Nat) (irq : Bool) : State :=
  let u := s.incWrap (pDMA c) R.DMA_DONE_CNT
  if irq then u.cause (pDMA c) 3 else u
theorem State.doneCounted_spec (irq : Bool) {v : State} (hv : s.doneCounted c irq = v) (hon : s.dmaOn c = true) :
    s.dmaBut v c ∧ v.dmaAt c = s.dmaAt c ∧ v.dmaCur c = s.dmaCur c ∧ v.get (pDMA c) R.DMA_DONE_CNT = (s.get (pDMA c) R.DMA_DONE_CNT + 1) % 2 ^ 32 ∧
      (irq = true → bit (v.get (pDMA c) R.PG_IRQ_RAW) 3 = true) ∧ s.sameMemory v ∧ v.dmaOn c = true := by
  obtain ⟨u, hu⟩ : ∃ u, s.incWrap (pDMA c) R.DMA_DONE_CNT = u := ⟨_, rfl⟩
  have hbut : s.dmaBut u c := hu ▸ State.dmaBut_set (s.dmaBut_refl c) _ _
  have hcnt : u.get (pDMA c) R.DMA_DONE_CNT = (s.get (pDMA c) R.DMA_DONE_CNT + 1) % 2 ^ 32 := hu ▸ State.get_incWrap_self _ _ _
  have hget : ∀ f : Fld, f.id ≠ R.DMA_DONE_CNT.id → u.get (pDMA c) f = s.get (pDMA c) f := fun f hf => hu ▸ s.get_incWrap_field _ hf
  have hu' : ∃ r, u = { s with regs := r } := ⟨_, hu.symm⟩
  obtain ⟨r, hu'⟩ := hu'
  have hv' : v = if irq then u.cause (pDMA c) 3 else u := by
    rw [← hv, ← hu]
    rfl
  have hcause : ∃ r w, v = { s with regs := r, host := { s.host with waiting := w } } := by
    rw [hv']
    split
    · obtain ⟨r, w, h⟩ := u.reports_cause (pDMA c) 3
      exact ⟨r, w, by rw [h, hu']⟩
    · exact ⟨r, s.host.waiting, hu'⟩
  have hvget : ∀ f : Fld, f.id ≠ R.PG_IRQ_RAW.id → v.get (pDMA c) f = u.get (pDMA c) f := fun f hf => by
    rw [hv']
    split
    · exact u.get_cause_field _ _ hf
    · rfl
  have hvbut : s.dmaBut v c := by
    rw [hv']
    split
    · exact State.dmaBut_cause hbut 3
    · exact hbut
  obtain ⟨r', w', hshape⟩ := hcause
  have hfen : s.fenced (pDMA c) = false := State.unfenced_of_working hon
  have hctrl : ∀ f ∈ [R.PG_CTRL_EN, R.PG_FENCE_FENCED, R.THERM_STAT_SHUT], ∀ p, v.get p f = s.get p f := by
    intro f hf p
    by_cases hp : p = pDMA c
    · have hne : f.id ≠ R.PG_IRQ_RAW.id ∧ f.id ≠ R.DMA_DONE_CNT.id := by
        simp only [List.mem_cons, List.not_mem_nil, or_false] at hf
        rcases hf with rfl | rfl | rfl <;> decide
      rw [hp]
      exact (hvget f hne.1).trans (hget f hne.2)
    · exact hvbut.get p hp f
  refine ⟨hvbut, by rw [hshape]; rfl, ?_, (hvget _ (by decide)).trans hcnt, fun hirq => ?_, by rw [hshape]; exact ⟨rfl, rfl, rfl, rfl, rfl⟩, ?_⟩
  · unfold State.dmaCur State.get64
    rw [hvget _ (by decide), hvget _ (by decide), hget _ (by decide), hget _ (by decide)]
  · rw [hv', if_pos hirq]
    exact u.bit_cause (by decide) ((State.frozen_congr (hget _ (by decide))).trans (State.frozen_of_unfenced hfen))
  · exact (congrFun (State.working_congr (by rw [hshape]) (by rw [hshape]) hctrl) _).trans hon
theorem exec_descriptorComplete_silent (h : s.dmaOn c = false ∨ (s.dmaAt c).st ≠ 1 ∨ (s.dmaAt c).finished = false) :
    exec (.descriptorComplete c) s = .next s := by
  have hcond : (!s.dmaOn c || (s.dmaAt c).st != 1 || !(s.dmaAt c).finished) = true := by
    rcases h with h | h | h <;> simp [h]
  change execDescriptorComplete c s = _
  unfold execDescriptorComplete
  dsimp only
  rw [if_pos hcond]
theorem exec_descriptorComplete {d : Desc} (hon : s.dmaOn c = true) (hst : (s.dmaAt c).st = 1) (hfin : (s.dmaAt c).finished = true)
    (hd : (s.dmaAt c).desc = some d) : exec (.descriptorComplete c) s = .next ((s.doneCounted c d.irq).dmaReread c) := by
  change execDescriptorComplete c s = _
  unfold execDescriptorComplete
  dsimp only
  rw [if_neg (by simp [hon, hst, hfin]), hd]
  rfl
theorem descriptorComplete_clause (s : State) (c : DmaCh) (d : Desc) (hon : s.dmaOn c = true) (hst : (s.dmaAt c).st = 1)
    (hfin : (s.dmaAt c).finished = true) (hd : (s.dmaAt c).desc = some d) :
       ∃ t, exec (.descriptorComplete c) s = .next t ∧
         t.get (pDMA c) R.DMA_DONE_CNT = (s.get (pDMA c) R.DMA_DONE_CNT + 1) % 2 ^ 32 ∧
         (d.irq = true → bit (t.get (pDMA c) R.PG_IRQ_RAW) 3 = true) ∧ (∀ m, m ≠ c.val → t.dmaAt m = s.dmaAt m) ∧ s.sameMemory t ∧
         (s.chainFree (s.dmaCur c) 8 c = false → (t.dmaAt c).st = 1 ∧ (t.dmaAt c).redo = 2 ∧ (t.dmaAt c).desc = none) ∧
         ∀ l, s.chainFree (s.dmaCur c) 8 c = true → (s.dramRead (s.dmaCur c) 8 1 c).2 = (l, true) →
           (bit (leNat l) 0 = true → (t.dmaAt c).st = 2 ∧ t.dmaCur c = s.dmaCur c ∧ bit (t.get (pDMA c) R.PG_IRQ_RAW) 4 = true) ∧
           (bit (leNat l) 0 = false → t.dmaCur c = field (leNat l) 31 33 * 32 ∧ (t.dmaAt c).taken = 0) := by
  obtain ⟨v, hv⟩ : ∃ v, s.doneCounted c d.irq = v := ⟨_, rfl⟩
  obtain ⟨hbut, hat, hcur, hcnt, hirq, hmem, hvon⟩ := State.doneCounted_spec d.irq hv hon
  have hidle : s.dmaWants c = false := State.dmaWants_stopped (Or.inr hfin)
  have hgo := v.dmaReread_goes (c := c) (parked := false) rfl
  rw [exec_descriptorComplete hon hst hfin hd, hv]
  refine ⟨_, rfl, (hgo.field _ (by decide)).trans hcnt, fun h => hgo.raised _ (by decide) (hirq h), fun m hm => (hgo.others m hm).trans (hbut.dma m hm),
    State.sameMemory_of_same hmem hgo.memory, fun hfree => ?_, fun l hfree hl => ?_⟩
  · obtain ⟨h1, h2, h3⟩ := State.dmaReread_waits (parked := false) hbut hidle hcur rfl hfree
    exact ⟨by rw [h1, hat, hst], h2, h3⟩
  · obtain ⟨hlast, hnext⟩ := State.dmaReread_read (parked := false) hbut hidle hcur hvon rfl hfree hl
    exact ⟨fun hb => ⟨(hlast hb).1, (hlast hb).2.2.1, (hlast hb).2.2.2.2 rfl⟩, hnext⟩

/-! ### RESUME and ABORT (R176) -/

theorem dmaCmdResume_clause (s : State) (c : DmaCh) (h : s.accepts (pDMA c) 0x5C 1) :
     ((s.dmaAt c).st ≠ 3 → exec (.dmaCmdResume c) s = .next s) ∧
     ((s.dmaAt c).st = 3 → ((s.dmaAt c).redo ≠ 1 ∧ (s.dmaAt c).redo ≠ 2) ∨ s.dmaOn c = false ∨ s.dramReady = false →
       exec (.dmaCmdResume c) s = .next (s.updDma c fun d => { d with st := 1 })) ∧
     ((s.dmaAt c).st = 3 → (s.dmaAt c).redo = 1 → s.dmaOn c = true → s.dramReady = true →
       ∃ t, exec (.dmaCmdResume c) s = .next t ∧ fetches s t c (s.dmaCur c) ∧ (∀ m, m ≠ c.val → t.dmaAt m = s.dmaAt m) ∧
         s.sameMemory t) := by
  obtain ⟨v, hv⟩ : ∃ v, (s.updDma c fun d => { d with st := 1 }) = v := ⟨_, rfl⟩
  have hat : v.dmaAt c = { s.dmaAt c with st := 1 } := by rw [← hv, State.dmaAt_upd_self]
  have hon : v.dmaOn c = s.dmaOn c := by
    rw [← hv]
    rfl
  have hready : v.dramReady = s.dramReady := by
    rw [← hv]
    rfl
  have hcur : v.dmaCur c = s.dmaCur c := by
    rw [← hv]
    rfl
  rw [exec_dmaCmdResume h]
  refine ⟨fun hst => by rw [if_neg hst], fun hst hno => ?_, fun hst hredo hs hr => ?_⟩
  · rw [if_pos hst, hv]
    congr 1
    unfold State.dmaRedo
    dsimp only
    rw [hon, hready, hat]
    rcases hno with ⟨h1, h2⟩ | hno | hno
    · simp [h1, h2]
    · simp [hno]
    · simp [hno]
  · have hgo : s.dmaGoes v c := hv ▸ s.dmaGoes_updDma c _
    have hbut : s.dmaBut v c := hv ▸ State.dmaBut_updDma (s.dmaBut_refl c) _
    have hfetch : v.dmaRedo c = v.dmaFetch c (s.dmaCur c) := by
      unfold State.dmaRedo
      dsimp only
      rw [hon, hready, hat, hcur]
      simp [hs, hr, hredo]
    have hgo' := (v.dmaFetch_goes c (s.dmaCur c) rfl).1
    rw [if_pos hst, hv, hfetch]
    exact ⟨_, rfl, State.dmaFetch_fetches hbut (State.dmaWants_stopped (Or.inl (by omega))) (hon.trans hs) rfl, (hgo.trans hgo').others,
      (hgo.trans hgo').memory⟩
theorem dmaCmdAbort_clause (s : State) (c : DmaCh) (h : s.accepts (pDMA c) 0x5C 2) :
     ((s.dmaAt c).st ≠ 3 → exec (.dmaCmdAbort c) s = .next s) ∧
     ((s.dmaAt c).st = 3 → ∃ t, exec (.dmaCmdAbort c) s = .next t ∧ t.dmaAt c = {} ∧
       t.get (pDMA c) R.DMA_DISC_CNT = min (s.get (pDMA c) R.DMA_DISC_CNT +
         ((s.dmaAt c).kept.length + (s.dmaAt c).staging.length + (s.dmaAt c).tag.length)) (2 ^ 32 - 1) ∧
       s.regsBut t [(pDMA c, R.DMA_DISC_CNT)] ∧ (∀ m, m ≠ c.val → t.dmaAt m = s.dmaAt m) ∧
       ({ t with regs := s.regs, dma := s.dma } : State) = s) := by
  rw [exec_dmaCmdAbort h]
  refine ⟨fun hst => by rw [if_neg hst], fun hst => ⟨_, by rw [if_pos hst], ?_⟩⟩
  obtain ⟨n, hn⟩ : ∃ n, (s.dmaAt c).kept.length + (s.dmaAt c).staging.length + (s.dmaAt c).tag.length = n := ⟨_, rfl⟩
  have hstop : s.dmaStop c = (s.addSat (pDMA c) R.DMA_DISC_CNT n).updDma c fun _ => {} := by
    rw [← hn]
    rfl
  obtain ⟨x, hx⟩ : ∃ x, s.addSat (pDMA c) R.DMA_DISC_CNT n = x := ⟨_, rfl⟩
  have hcnt : x.get (pDMA c) R.DMA_DISC_CNT = min (s.get (pDMA c) R.DMA_DISC_CNT + n) (2 ^ 32 - 1) := hx ▸ s.get_addSat_self _ _ _
  have hbut : s.regsBut x [(pDMA c, R.DMA_DISC_CNT)] := hx ▸ State.regsBut_addSat (s.regsBut_refl _) _ (by simp)
  obtain ⟨r, hr⟩ : ∃ r, x = { s with regs := r } := ⟨_, hx.symm⟩
  rw [hstop, hn, hx]
  refine ⟨x.dmaAt_upd_self _ _, hcnt, hbut, fun m hm => (x.dmaAt_upd_other _ hm).trans (by rw [hr]; rfl), ?_⟩
  rw [hr]
  rfl
end

/-! ### A host read that is not answered (R175, R344) -/

theorem ctoRange_least (v : Nat) : 50 ≤ (ctoRange v).1 := by
  unfold ctoRange
  split <;> decide
theorem State.ctoTicks_least (s : State) : usTicks 50 ≤ s.ctoTicks := by
  have hmono : ∀ a b, a ≤ b → usTicks a ≤ usTicks b := fun a b hab => by
    unfold usTicks nsTicks
    omega
  have hleast := ctoRange_least s.host.cto
  unfold State.ctoTicks
  dsimp only
  apply hmono
  split
  · exact hleast
  · omega
section
variable {s : State} {c : DmaCh}
theorem exec_completionTimeout_silent (h : (s.dmaAt c).readAt = none ∨ s.hostOk = false ∨ s.dmaReq c = false ∨
         (∀ d, (s.dmaAt c).desc = some d → d.srcT ≠ 1 ∨ s.burstLen c d = 0) ∨
         (∀ x, (s.dmaAt c).readAt = some x → s.tick < x + s.ctoTicks)) : exec (.completionTimeout c) s = .next s := by
  change execCompletionTimeout c s = _
  unfold execCompletionTimeout
  dsimp only
  cases hd : (s.dmaAt c).desc with
  | none => rfl
  | some d =>
    cases hx : (s.dmaAt c).readAt with
    | none => rfl
    | some x =>
      have hcond : (!s.readsHost c || decide (s.tick < x + s.ctoTicks)) = true := by
        unfold State.readsHost
        rw [hd]
        rcases h with h | h | h | h | h
        · rw [hx] at h
          cases h
        · simp [h]
        · simp [h]
        · rcases h d hd with h | h <;> simp [h]
        · simp [h x hx]
      dsimp only
      rw [if_pos (by simpa using hcond)]
/-- The read counted at HOSTIF as not answered. -/
def State.ctoCounted (s : State) : State := (s.incSat pHOSTIF R.HOSTIF_CTO_CNT).cause pHOSTIF 5
theorem exec_completionTimeout {d : Desc} {x : Nat} (hd : (s.dmaAt c).desc = some d) (hsrc : d.srcT = 1) (hhost : s.hostOk = true)
    (hreq : s.dmaReq c = true) (hfin : (s.dmaAt c).finished = false) (hlen : s.burstLen c d ≠ 0) (hx : (s.dmaAt c).readAt = some x)
    (hdue : x + s.ctoTicks ≤ s.tick) : exec (.completionTimeout c) s =
      .next ((s.ctoCounted.dmaHalt c 0x60 0 (ringAddr d.src d.srcRing (s.dmaAt c).taken) 0 0).updDma c fun x => { x with readAt := none }) := by
  have hreads : s.readsHost c = true := by
    unfold State.readsHost
    rw [hd]
    simp [hhost, hreq, hfin, hsrc, hlen]
  change execCompletionTimeout c s = _
  unfold execCompletionTimeout
  dsimp only
  rw [hd, hx]
  dsimp only
  rw [if_neg (by simp [hreads, hdue])]
  rfl
theorem State.ctoCounted_spec {v : State} (hv : s.ctoCounted = v) :
    v.get pHOSTIF R.HOSTIF_CTO_CNT = min (s.get pHOSTIF R.HOSTIF_CTO_CNT + 1) (2 ^ 32 - 1) ∧
      (s.fenceSound → bit (v.get pHOSTIF R.PG_IRQ_RAW) 5 = true) ∧ s.regsBut v [(pHOSTIF, R.HOSTIF_CTO_CNT), (pHOSTIF, R.PG_IRQ_RAW)] ∧
      s.reports v := by
  obtain ⟨u, hu⟩ : ∃ u, s.incSat pHOSTIF R.HOSTIF_CTO_CNT = u := ⟨_, rfl⟩
  have hcnt : u.get pHOSTIF R.HOSTIF_CTO_CNT = min (s.get pHOSTIF R.HOSTIF_CTO_CNT + 1) (2 ^ 32 - 1) := hu ▸ State.get_incSat_self _ _ _
  have hfen : u.get pHOSTIF R.PG_FENCE_FENCED = s.get pHOSTIF R.PG_FENCE_FENCED := hu ▸ s.get_incSat_field _ (by decide)
  have hbut : s.regsBut u [(pHOSTIF, R.HOSTIF_CTO_CNT), (pHOSTIF, R.PG_IRQ_RAW)] := hu ▸ State.regsBut_incSat (s.regsBut_refl _) (by simp)
  have hrep : s.reports u := hu ▸ s.reports_incSat _ _
  have hv' : v = u.cause pHOSTIF 5 := by
    rw [← hv, ← hu]
    rfl
  rw [hv']
  refine ⟨(u.get_cause_field _ _ (by decide)).trans hcnt, fun hsound => ?_, State.regsBut_cause hbut 5 (by simp), hrep.trans (u.reports_cause _ _)⟩
  have hunf : s.fenced pHOSTIF = false := hsound pHOSTIF .hostif 0 (by decide) (by decide)
  exact u.bit_cause (by decide) ((State.frozen_congr hfen).trans (State.frozen_of_unfenced hunf))
theorem completionTimeout_clause (s : State) (c : DmaCh) (d : Desc) (x : Nat) (hd : (s.dmaAt c).desc = some d) (hsrc : d.srcT = 1)
    (hhost : s.hostOk = true) (hreq : s.dmaReq c = true) (hfin : (s.dmaAt c).finished = false) (hlen : s.burstLen c d ≠ 0)
    (hx : (s.dmaAt c).readAt = some x) (hdue : x + s.ctoTicks ≤ s.tick) :
       ∃ t, exec (.completionTimeout c) s = .next t ∧ t.dmaAt c = { s.dmaAt c with st := 3, redo := 0, readAt := none } ∧
         (∀ m, m ≠ c.val → t.dmaAt m = s.dmaAt m) ∧
         t.get pHOSTIF R.HOSTIF_CTO_CNT = min (s.get pHOSTIF R.HOSTIF_CTO_CNT + 1) (2 ^ 32 - 1) ∧
         (s.fenceSound → bit (t.get pHOSTIF R.PG_IRQ_RAW) 5 = true) ∧ bit (t.get (pDMA c) R.PG_IRQ_RAW) 5 = true ∧
         (s.get (pDMA c) R.PG_ERR_CNT = 0 → t.get (pDMA c) R.PG_ERR_INFO_CODE = 0x60 ∧ t.get (pDMA c) R.PG_ERR_INFO_SRC = 0) ∧
         s.regsBut t ((pHOSTIF, R.HOSTIF_CTO_CNT) :: (pHOSTIF, R.PG_IRQ_RAW) :: errFields (pDMA c)) ∧
         ({ t with regs := s.regs, dma := s.dma, host := s.host } : State) = s := by
  obtain ⟨v, hv⟩ : ∃ v, s.ctoCounted = v := ⟨_, rfl⟩
  obtain ⟨hcnt, hirq, hbut, r, w, hshape⟩ := State.ctoCounted_spec hv
  have hne : pHOSTIF ≠ pDMA c := by
    unfold pHOSTIF pDMA
    omega
  have hpage : ∀ f, v.get (pDMA c) f = s.get (pDMA c) f := fun f => hbut _ _ (by simp [hne.symm])
  have hat : ∀ m, v.dmaAt m = s.dmaAt m := fun m => by rw [hshape]; rfl
  obtain ⟨a, ha⟩ : ∃ a, ringAddr d.src d.srcRing (s.dmaAt c).taken = a := ⟨_, rfl⟩
  obtain ⟨t, ht⟩ : ∃ t, v.dmaHalt c 0x60 0 a 0 0 = t := ⟨_, rfl⟩
  obtain ⟨hgo, -, htat, hbit⟩ := v.dmaHalt_spec c 0x60 0 a 0 ht
  have hfen : v.fenced (pDMA c) = false := by
    rw [State.fenced, State.flag, hpage]
    refine State.unfenced_of_working (s := s) ?_
    simp only [State.dmaReq, Bool.and_eq_true] at hreq
    exact hreq.1.1.1
  obtain ⟨e, he⟩ : ∃ e, v.err (pDMA c) 0x60 0 a (a / 2 ^ 32) 0 = e := ⟨_, rfl⟩
  have hrec := (v.err_recorded (State.frozen_of_unfenced hfen) 0x60 0 a (a / 2 ^ 32) 0).2
  have hebut : v.regsBut e (errFields (pDMA c)) := he ▸ State.regsBut_err (v.regsBut_refl _) _ _ _ _ _ _ (List.Subset.refl _)
  have hrep : v.reports e := he ▸ v.reports_err _ _ _ _ _ _
  rw [he] at hrec
  have hte : t = (e.updDma c fun d => { d with st := 3, redo := 0 }).cause (pDMA c) 5 := by
    rw [← ht, ← he]
    rfl
  obtain ⟨y, hy⟩ : ∃ y, (e.updDma c fun d => { d with st := 3, redo := 0 }) = y := ⟨_, rfl⟩
  have hyget : ∀ p f, y.get p f = e.get p f := fun p f => by
    rw [← hy]
    rfl
  rw [hy] at hte
  have htbut : v.regsBut t (errFields (pDMA c)) := by
    rw [hte]
    exact State.regsBut_cause (fun p f hf => (hyget p f).trans (hebut p f hf)) 5 (by simp [errFields])
  have hhost' : ∀ f, t.get pHOSTIF f = v.get pHOSTIF f := fun f => htbut _ _ (by simp [errFields, hne])
  have hfield : ∀ f : Fld, f.id ≠ R.PG_IRQ_RAW.id → t.get (pDMA c) f = e.get (pDMA c) f := fun f hf => by
    rw [hte, State.get_cause_field _ _ _ hf]
    exact hyget _ _
  have hkeep : ({ t with regs := s.regs, dma := s.dma, host := s.host } : State) = s := by
    obtain ⟨r1, w1, h1⟩ := y.reports_cause (pDMA c) 5
    obtain ⟨r2, w2, h2⟩ := hrep
    rw [hte, h1, ← hy, h2, hshape]
    rfl
  rw [exec_completionTimeout hd hsrc hhost hreq hfin hlen hx hdue, hv, ha, ht]
  have hget : ∀ p f, (t.updDma c fun x => { x with readAt := none }).get p f = t.get p f := fun _ _ => rfl
  refine ⟨_, rfl, ?_, fun m hm => ?_, ?_, fun hs => ?_, ?_, fun h0 => ?_, fun p f hf => ?_, ?_⟩
  · rw [State.dmaAt_upd_self, htat, hat]
  · rw [State.dmaAt_upd_other _ _ hm, hgo.others m hm, hat]
  · rw [hget, hhost', hcnt]
  · rw [hget, hhost']
    exact hirq hs
  · rw [hget]
    exact hbit hfen
  · obtain ⟨h1, h2⟩ := hrec ((hpage _).trans h0)
    rw [hget, hget, hfield _ (by decide), hfield _ (by decide), h1, h2]
    decide
  · rw [hget]
    exact (htbut p f fun x hx => hf x (by simp [hx])).trans (hbut p f fun x hx => hf x (by simp only [List.mem_cons, List.not_mem_nil, or_false] at hx ⊢; tauto))
  · rw [← hkeep]
    rfl
end

/-- Settles O35: a fetch reads on a state that differs from the one before only in what one idle channel holds, so DRAM serves it and gives
the same bytes. -/
theorem channelCommands : Obligations.ChannelCommands := by
  unfold Obligations.ChannelCommands
  refine ⟨fun s c h hw => ?_, dmaDb_clause, fun s c => ⟨exec_descriptorComplete_silent, descriptorComplete_clause s c⟩, dmaCmdResume_clause, dmaCmdAbort_clause,
    fun s c => ⟨exec_completionTimeout_silent, s.ctoTicks_least, completionTimeout_clause s c⟩⟩
  rw [exec_dmaDb h, if_pos hw]

end Sys2Proof.Machine
end

section
/-! ### The feed groups' settling and sending (R190, R196 to R200) -/
open Sys2Proof Sys2Proof.Machine
namespace Sys2Proof.Machine

/-- The registers that delivery, reports and PAUSE write. -/
def feedMoved : List Nat := [R.FEED_EVICT_CNT.id, R.PG_IRQ_RAW.id, R.FEED_PAUSE_TX.id, R.FEED_REC_CNT.id, R.FEED_EXP_BASE.id, R.FEED_EXP_LIVE.id,
  R.FEED_NAK_CNT.id]
/-- States whose feed groups have the same members and the same settings. -/
structure State.feedLike (s t : State) : Prop where
  port : ∀ q, (t.portAt q).lead = (s.portAt q).lead ∧ (t.portAt q).bar = (s.portAt q).bar ∧ (t.portAt q).mac = (s.portAt q).mac ∧
    (t.portAt q).lastSrc = (s.portAt q).lastSrc ∧ (t.portAt q).pausedUntil = (s.portAt q).pausedUntil
  get : ∀ f : Fld, f.id ∉ feedMoved → ∀ p, t.get p f = s.get p f
  shape : ({ t with regs := s.regs, port := s.port, queues := s.queues, outs := s.outs, host := s.host } : State) = s
theorem State.feedLike_refl (s : State) : s.feedLike s := ⟨fun _ => ⟨rfl, rfl, rfl, rfl, rfl⟩, fun _ _ _ => rfl, rfl⟩
theorem State.feedLike.trans {s t u : State} (h : s.feedLike t) (k : t.feedLike u) : s.feedLike u := by
  refine ⟨fun q => ?_, fun f hf p => (k.get f hf p).trans (h.get f hf p), ?_⟩
  · obtain ⟨h1, h2, h3, h4, h5⟩ := h.port q
    obtain ⟨k1, k2, k3, k4, k5⟩ := k.port q
    exact ⟨k1.trans h1, k2.trans h2, k3.trans h3, k4.trans h4, k5.trans h5⟩
  · have hu := congrArg (fun x : State => ({ x with regs := s.regs, port := s.port, queues := s.queues, outs := s.outs, host := s.host } : State)) k.shape
    exact hu.trans h.shape
theorem State.feedLike_of_regs {s t : State} (h : ∃ r w, t = { s with regs := r, host := { s.host with waiting := w } })
    (hget : ∀ f : Fld, f.id ∉ feedMoved → ∀ p, t.get p f = s.get p f) : s.feedLike t := by
  obtain ⟨r, w, ht⟩ := h
  refine ⟨fun q => ?_, hget, ?_⟩
  · rw [ht]
    exact ⟨rfl, rfl, rfl, rfl, rfl⟩
  · rw [ht]
theorem State.feedLike_set (s : State) (p : Nat) {f : Fld} (v : Nat) (hf : f.id ∈ feedMoved) : s.feedLike (s.set p f v) :=
  State.feedLike_of_regs ⟨_, _, rfl⟩ fun g hg q => s.get_set_ne v (Or.inr fun h => hg (h ▸ hf))
theorem State.feedLike_cause (s : State) (p i : Nat) : s.feedLike (s.cause p i) :=
  State.feedLike_of_regs (s.reports_cause p i) fun g hg q => s.get_cause_ne i (Or.inr fun h => hg (by rw [h]; decide))
/-- A change of a port that keeps what the group's members are known by. -/
def PortSt.like (x y : PortSt) : Prop :=
  y.lead = x.lead ∧ y.bar = x.bar ∧ y.mac = x.mac ∧ y.lastSrc = x.lastSrc ∧ y.pausedUntil = x.pausedUntil
theorem State.feedLike_updPort (s : State) (n : Nat) (g : PortSt → PortSt) (hg : (s.portAt n).like (g (s.portAt n))) : s.feedLike (s.updPort n g) := by
  refine ⟨fun q => ?_, fun _ _ _ => rfl, rfl⟩
  by_cases hq : q = n
  · rw [hq, State.portAt_upd_self]
    exact hg
  · rw [State.portAt_upd_other _ _ hq]
    exact ⟨rfl, rfl, rfl, rfl, rfl⟩
theorem State.feedLike_updStream (s : State) (n : Nat) (live : Bool) (g : StreamSt → StreamSt) : s.feedLike (s.updStream n live g) := by
  refine s.feedLike_updPort n _ ?_
  cases live <;> exact ⟨rfl, rfl, rfl, rfl, rfl⟩
section
variable {s t : State} (h : s.feedLike t)
include h
theorem State.feedLike.feedLead (q : Nat) : t.feedLead q = s.feedLead q := (h.port q).1
theorem State.feedLike.feedPageOn (q : Nat) : t.feedPageOn q = s.feedPageOn q := by
  have hsrst := congrArg State.srsts h.shape
  have hheld := congrArg State.heldReset h.shape
  dsimp only at hsrst hheld
  have hen := h.get R.PG_CTRL_EN (by decide)
  have hshut := h.get R.THERM_STAT_SHUT (by decide)
  simp only [State.feedPageOn, State.enabled, State.resetting, State.held, State.shut, State.flag, hen, hshut, hsrst, hheld]
theorem State.feedLike.laneUp (l : Nat) : t.laneUp l = s.laneUp l := by
  have hlane := congrArg State.lane h.shape
  dsimp only at hlane
  have hfen := h.get R.PG_FENCE_FENCED (by decide)
  simp only [State.laneUp, State.laneAt, State.fenced, State.flag, hfen, hlane]
theorem State.feedLike.feedGroup (n : Nat) : t.feedGroup n = s.feedGroup n := by
  simp only [State.feedGroup, h.feedPageOn, h.feedLead]
theorem State.feedLike.feedSize (n : Nat) : t.feedSize n = s.feedSize n := by
  simp only [State.feedSize, h.feedGroup]
theorem State.feedLike.feedReady (n : Nat) : t.feedReady n = s.feedReady n := by
  have hen := h.get R.PG_CTRL_EN (by decide)
  simp only [State.feedReady, State.enabled, State.flag, hen, h.laneUp, h.feedPageOn, h.feedLead]
theorem State.feedLike.feedFrame (n : Nat) (m : List Byte) : t.feedFrame n m = s.feedFrame n m := by
  obtain ⟨-, -, hmac, hsrc, -⟩ := h.port n
  have hlo := h.get R.FEED_PEER_LO (by decide)
  have hhi := h.get R.FEED_PEER_HI (by decide)
  simp only [State.feedFrame, hlo, hhi, hmac, hsrc]
end
/-- A port that is ready can send. -/
theorem State.feedTx_of_ready {s : State} {n : Nat} (h : s.feedReady n = true) : s.feedTx n = true := by
  simp only [State.feedReady, State.laneUp, Bool.and_eq_true, beq_iff_eq, Bool.not_eq_true'] at h
  obtain ⟨⟨⟨⟨hst, hfen⟩, -⟩, -⟩, -⟩ := h
  simp [State.feedTx, hst, hfen]
theorem PortSt.stream_upd (x : PortSt) (live k : Bool) (g : StreamSt → StreamSt) :
    (if live then { x with live := g x.live } else { x with base := g x.base } : PortSt).stream k = if k = live then g (x.stream k) else x.stream k := by
  cases live <;> cases k <;> rfl
theorem State.stream_updStream (s : State) (n : Nat) (live : Bool) (g : StreamSt → StreamSt) (q : Nat) (k : Bool) :
    ((s.updStream n live g).portAt q).stream k = if q = n ∧ k = live then g ((s.portAt q).stream k) else (s.portAt q).stream k := by
  unfold State.updStream
  by_cases hq : q = n
  · rw [hq, State.portAt_upd_self, PortSt.stream_upd]
    simp
  · rw [State.portAt_upd_other _ _ hq, if_neg (by simp [hq])]
theorem State.waiting_updStream (s : State) (n : Nat) (live : Bool) (g : StreamSt → StreamSt) (q : Nat) :
    ((s.updStream n live g).portAt q).waiting = (s.portAt q).waiting := by
  unfold State.updStream
  by_cases hq : q = n
  · rw [hq, State.portAt_upd_self]
    split <;> rfl
  · rw [State.portAt_upd_other _ _ hq]

/-! ### What settling may do -/

/-- What making room, XOFF and PAUSE do to a group: records may be dropped for want of room, and messages go out. -/
structure State.feedStep (s t : State) : Prop where
  like : s.feedLike t
  queues : t.queues = s.queues
  subset : ∀ q k, ∀ e ∈ ((t.portAt q).stream k).held, e ∈ ((s.portAt q).stream k).held
  room : ∀ q, s.feedFill q + 9216 ≤ s.feedSize q → ∀ k, ((t.portAt q).stream k).held = ((s.portAt q).stream k).held
  counts : ∀ q k, ((t.portAt q).stream k).unack = ((s.portAt q).stream k).unack ∧
    ((t.portAt q).stream k).unackSince = ((s.portAt q).stream k).unackSince ∧ ((t.portAt q).stream k).lastSline = ((s.portAt q).stream k).lastSline
  waiting : ∀ q, (t.portAt q).waiting = (s.portAt q).waiting
  get : ∀ f : Fld, f.id ∉ [R.FEED_EVICT_CNT.id, R.PG_IRQ_RAW.id, R.FEED_PAUSE_TX.id] → ∀ p, t.get p f = s.get p f
  outs : ∃ o, t.outs = o ++ s.outs
theorem State.feedStep_refl (s : State) : s.feedStep s :=
  ⟨s.feedLike_refl, rfl, fun _ _ _ h => h, fun _ _ _ => rfl, fun _ _ => ⟨rfl, rfl, rfl⟩, fun _ => rfl, fun _ _ _ => rfl, [], rfl⟩
theorem State.feedFill_congr {s t : State} {q : Nat} (hq : t.queues = s.queues)
    (hheld : ∀ k, ((t.portAt q).stream k).held = ((s.portAt q).stream k).held) : t.feedFill q = s.feedFill q := by
  have hbase : (t.portAt q).base.held = (s.portAt q).base.held := hheld false
  have hlive : (t.portAt q).live.held = (s.portAt q).live.held := hheld true
  unfold State.feedFill State.queueBytes
  dsimp only
  rw [hbase, hlive, hq]
theorem State.feedStep.trans {s t u : State} (h : s.feedStep t) (k : t.feedStep u) : s.feedStep u := by
  refine ⟨h.like.trans k.like, k.queues.trans h.queues, fun q b e he => h.subset q b e (k.subset q b e he), fun q hroom b => ?_, fun q b => ?_,
    fun q => (k.waiting q).trans (h.waiting q), fun f hf p => (k.get f hf p).trans (h.get f hf p), ?_⟩
  · have hheld := h.room q hroom
    refine (k.room q ?_ b).trans (hheld b)
    rw [State.feedFill_congr h.queues hheld, h.like.feedSize]
    exact hroom
  · obtain ⟨h1, h2, h3⟩ := h.counts q b
    obtain ⟨k1, k2, k3⟩ := k.counts q b
    exact ⟨k1.trans h1, k2.trans h2, k3.trans h3⟩
  · obtain ⟨o, ho⟩ := h.outs
    obtain ⟨o', ho'⟩ := k.outs
    exact ⟨o' ++ o, by rw [ho', ho, List.append_assoc]⟩
theorem State.feedStep_each (g : State → Nat → State) (hg : ∀ (t : State) n, t.feedStep (g t n)) (l : List Nat) (s : State) : s.feedStep (s.each l g) := by
  unfold State.each
  induction l generalizing s with
  | nil => exact s.feedStep_refl
  | cons n l ih => exact (hg s n).trans (ih (g s n))
theorem State.feedStep_of_regs {s t : State} (h : ∃ r w, t = { s with regs := r, host := { s.host with waiting := w } })
    (hget : ∀ f : Fld, f.id ∉ [R.FEED_EVICT_CNT.id, R.PG_IRQ_RAW.id, R.FEED_PAUSE_TX.id] → ∀ p, t.get p f = s.get p f) : s.feedStep t := by
  have hlike := State.feedLike_of_regs h fun f hf => hget f fun hm => hf (by
    simp only [feedMoved, List.mem_cons, List.not_mem_nil, or_false] at hm ⊢
    tauto)
  obtain ⟨r, w, ht⟩ := h
  have hport : ∀ q, t.portAt q = s.portAt q := fun q => by rw [ht]; rfl
  refine ⟨hlike, by rw [ht], fun q k e he => ?_, fun q _ k => by rw [hport], fun q k => by rw [hport]; exact ⟨rfl, rfl, rfl⟩, fun q => by rw [hport], hget,
    [], by rw [ht]; rfl⟩
  rwa [hport] at he
theorem State.feedStep_set (s : State) (p : Nat) {f : Fld} (v : Nat) (hf : f.id ∈ [R.FEED_EVICT_CNT.id, R.PG_IRQ_RAW.id, R.FEED_PAUSE_TX.id]) :
    s.feedStep (s.set p f v) :=
  State.feedStep_of_regs ⟨_, _, rfl⟩ fun g hg q => s.get_set_ne v (Or.inr fun h => hg (h ▸ hf))
theorem State.feedStep_cause (s : State) (p i : Nat) : s.feedStep (s.cause p i) :=
  State.feedStep_of_regs (s.reports_cause p i) fun g hg q => s.get_cause_ne i (Or.inr fun h => hg (by rw [h]; decide))
/-- A change of a port that keeps its streams and what waits on it. -/
theorem State.feedStep_updPort (s : State) (n : Nat) (g : PortSt → PortSt) (hg : (s.portAt n).like (g (s.portAt n)))
    (hs : ∀ k, (g (s.portAt n)).stream k = (s.portAt n).stream k) (hw : (g (s.portAt n)).waiting = (s.portAt n).waiting) :
    s.feedStep (s.updPort n g) := by
  have hstream : ∀ q k, ((s.updPort n g).portAt q).stream k = (s.portAt q).stream k := fun q k => by
    by_cases hq : q = n
    · rw [hq, State.portAt_upd_self]
      exact hs k
    · rw [State.portAt_upd_other _ _ hq]
  refine ⟨s.feedLike_updPort n g hg, rfl, fun q k e he => ?_, fun q _ k => by rw [hstream], fun q k => by rw [hstream]; exact ⟨rfl, rfl, rfl⟩, fun q => ?_,
    fun _ _ _ => rfl, [], rfl⟩
  · rwa [hstream] at he
  · by_cases hq : q = n
    · rw [hq, State.portAt_upd_self]
      exact hw
    · rw [State.portAt_upd_other _ _ hq]
/-- A change of a stream that keeps its counts and drops records only where the buffer is full. -/
theorem State.feedStep_updStream (s : State) (n : Nat) (live : Bool) (g : StreamSt → StreamSt)
    (hcounts : ∀ x, (g x).unack = x.unack ∧ (g x).unackSince = x.unackSince ∧ (g x).lastSline = x.lastSline)
    (hsub : ∀ x, ∀ e ∈ (g x).held, e ∈ x.held) (hroom : s.feedFill n + 9216 ≤ s.feedSize n → ∀ x, (g x).held = x.held) :
    s.feedStep (s.updStream n live g) := by
  refine ⟨s.feedLike_updStream n live g, rfl, fun q k e he => ?_, fun q hq k => ?_, fun q k => ?_, s.waiting_updStream n live g, fun _ _ _ => rfl, [], rfl⟩
  · rw [State.stream_updStream] at he
    split at he
    · exact hsub _ _ he
    · exact he
  · rw [State.stream_updStream]
    split
    next hc =>
      rw [hc.1] at hq
      exact hroom hq _
    next => rfl
  · rw [State.stream_updStream]
    split
    · exact hcounts _
    · exact ⟨rfl, rfl, rfl⟩
theorem State.feedStep_feedEvict (n : Nat) (live : Bool) (f : Nat) (s : State) : s.feedStep (s.feedEvict n live f) := by
  induction f generalizing s with
  | zero => exact s.feedStep_refl
  | succ f ih =>
    unfold State.feedEvict
    dsimp only
    split
    next hcond =>
      have hfull : s.feedSize n < s.feedFill n + 9216 := by
        simp only [Bool.and_eq_true, decide_eq_true_eq] at hcond
        exact hcond.2
      refine State.feedStep.trans ?_ (ih _)
      refine State.feedStep.trans ?_ (State.feedStep_set _ (pFEED n) (f := R.FEED_EVICT_CNT) _ (by decide))
      exact s.feedStep_updStream n live _ (fun x => ⟨rfl, rfl, rfl⟩) (fun x e he => (List.mem_filter.1 he).1) fun h => by omega
    next => exact s.feedStep_refl
theorem State.feedStep_feedMakeRoom (s : State) (n : Nat) : s.feedStep (s.feedMakeRoom n) := by
  have hgap : ∀ (t : State) live, t.feedStep (t.gapSettle n live) := fun t live =>
    t.feedStep_updStream n live _ (fun x => ⟨rfl, rfl, rfl⟩) (fun x e he => he) fun _ x => rfl
  unfold State.feedMakeRoom
  exact (((State.feedStep_feedEvict n false 512 s).trans (State.feedStep_feedEvict n true 512 _)).trans (hgap _ false)).trans (hgap _ true)
theorem State.feedStep_emit (s : State) (o : Out) : s.feedStep (s.emit o) :=
  ⟨⟨fun _ => ⟨rfl, rfl, rfl, rfl, rfl⟩, fun _ _ _ => rfl, rfl⟩, rfl, fun _ _ _ h => h, fun _ _ _ => rfl, fun _ _ => ⟨rfl, rfl, rfl⟩, fun _ => rfl,
    fun _ _ _ => rfl, [o], rfl⟩
theorem State.feedStep_pauseSend (s : State) (n quanta : Nat) : s.feedStep (s.pauseSend n quanta) := by
  unfold State.pauseSend
  exact (s.feedStep_set _ (f := R.FEED_PAUSE_TX) _ (by decide)).trans (State.feedStep_emit _ _)
theorem State.feedStep_portSettle (s : State) (n : Nat) : s.feedStep (s.portSettle n) := by
  have hsending : ∀ (t : State) (x : Option Nat), t.feedStep (t.updPort n fun y => { y with sending := x }) := fun t x =>
    t.feedStep_updPort n _ ⟨rfl, rfl, rfl, rfl, rfl⟩ (fun _ => rfl) rfl
  have hlink : s.feedStep (if (s.portAt n).link = (s.laneAt (feedLane n)).block then s
      else (s.updPort n fun x => { x with link := (s.laneAt (feedLane n)).block }).cause (pFEED n) 6) := by
    split
    · exact s.feedStep_refl
    · exact (s.feedStep_updPort n _ ⟨rfl, rfl, rfl, rfl, rfl⟩ (fun _ => rfl) rfl).trans (State.feedStep_cause _ _ _)
  unfold State.portSettle
  dsimp only
  generalize (if (s.portAt n).link = (s.laneAt (feedLane n)).block then s
      else (s.updPort n fun x => { x with link := (s.laneAt (feedLane n)).block }).cause (pFEED n) 6) = u at *
  refine hlink.trans ?_
  split
  · split
    · exact (hsending u _).trans (State.feedStep_pauseSend _ n _)
    · exact u.feedStep_refl
  · split
    · exact u.feedStep_refl
    · split
      · exact (hsending u none).trans (State.feedStep_pauseSend _ n _)
      · exact hsending u none
theorem State.feedStep_feedSettle (s : State) : s.feedStep s.feedSettle := by
  have hxoff : ∀ (t : State) n, t.feedStep (t.xoffSettle n) := fun t n => by
    unfold State.xoffSettle
    exact t.feedStep_updPort n _ ⟨rfl, rfl, rfl, rfl, rfl⟩ (fun _ => rfl) rfl
  unfold State.feedSettle
  exact ((State.feedStep_each State.feedMakeRoom State.feedStep_feedMakeRoom _ s).trans (State.feedStep_each State.xoffSettle hxoff _ _)).trans
    (State.feedStep_each State.portSettle State.feedStep_portSettle _ _)

/-! ### A message to every port of a group -/

/-- The port on which a message waits. -/
def PortSt.waits (x : PortSt) (key : Nat) (m : List Byte) : PortSt :=
  { x with waiting := x.waiting.filter (fun e => key == 0 || e.1 != key) ++ [(key, m)] }
/-- A message sent on some ports: out at once, or waiting where a pause is in force. -/
structure State.sent (s t : State) (l : List Nat) (key : Nat) (m : List Byte) : Prop where
  like : s.feedLike t
  ports : ∀ q, t.portAt q = if q ∈ l ∧ (s.portAt q).pausedUntil ≠ none then (s.portAt q).waits key m else s.portAt q
  queues : t.queues = s.queues
  get : ∀ f : Fld, f.id ≠ R.FEED_NAK_CNT.id → ∀ p, t.get p f = s.get p f
  outs : ∃ o, t.outs = o ++ s.outs ∧ (∀ q ∈ l, (s.portAt q).pausedUntil = none → Out.feed q (s.feedFrame q m) ∈ o) ∧
    ∀ e ∈ o, ∃ q ∈ l, (s.portAt q).pausedUntil = none ∧ e = .feed q (s.feedFrame q m)
theorem State.feedSend_sent {s v : State} {q key : Nat} {m : List Byte} (hv : ∃ r, v = { s with regs := r })
    (hget : ∀ f : Fld, f.id ≠ R.FEED_NAK_CNT.id → ∀ p, v.get p f = s.get p f) (hready : s.feedReady q = true) : s.sent (v.feedSend q key m) [q] key m := by
  have hlike : s.feedLike v := by
    obtain ⟨r, hr⟩ := hv
    exact State.feedLike_of_regs ⟨r, s.host.waiting, hr⟩ fun f hf => hget f fun h => hf (by rw [h]; decide)
  have htx : v.feedTx q = true := State.feedTx_of_ready ((hlike.feedReady q).trans hready)
  have hframe := hlike.feedFrame q m
  have hport : ∀ n, v.portAt n = s.portAt n := fun n => by
    obtain ⟨r, hr⟩ := hv
    rw [hr]
    rfl
  have hqueues : v.queues = s.queues := by
    obtain ⟨r, hr⟩ := hv
    rw [hr]
  have houts : v.outs = s.outs := by
    obtain ⟨r, hr⟩ := hv
    rw [hr]
  unfold State.feedSend
  cases hp : (s.portAt q).pausedUntil with
  | none =>
    rw [hport, hp]
    dsimp only
    rw [if_pos htx]
    have hemit := v.feedStep_emit (.feed q (v.feedFrame q m))
    refine ⟨hlike.trans hemit.like, fun n => ?_, hqueues, hget, [.feed q (s.feedFrame q m)], ?_, fun n hn _ => ?_, fun e he => ?_⟩
    · rw [if_neg]
      · exact hport n
      · rintro ⟨hn, hne⟩
        rw [List.mem_singleton.1 hn, hp] at hne
        exact hne rfl
    · rw [State.emit, houts, hframe]
      rfl
    · rw [List.mem_singleton.1 hn]
      simp
    · exact ⟨q, by simp, hp, List.mem_singleton.1 he⟩
  | some x =>
    rw [hport, hp]
    dsimp only
    refine ⟨hlike.trans (v.feedLike_updPort q _ ⟨rfl, rfl, rfl, rfl, rfl⟩), fun n => ?_, hqueues, hget, [], houts, fun n hn hnone => ?_, fun e he => ?_⟩
    · by_cases hn : n = q
      · rw [hn, State.portAt_upd_self, hport, if_pos (by simp [hp])]
        rfl
      · rw [State.portAt_upd_other _ _ hn, hport, if_neg (by simp [hn])]
    · rw [List.mem_singleton.1 hn, hp] at hnone
      cases hnone
    · cases he
theorem State.sent_nil (s : State) (key : Nat) (m : List Byte) : s.sent s [] key m :=
  ⟨s.feedLike_refl, fun q => (if_neg (by simp)).symm, rfl, fun _ _ _ => rfl, [], rfl, fun q hq => absurd hq (by simp), fun e he => absurd he (by simp)⟩
theorem State.sent.cons {s t u : State} {q key : Nat} {l : List Nat} {m : List Byte} (h : s.sent t [q] key m) (k : t.sent u l key m) (hq : q ∉ l) :
    s.sent u (q :: l) key m := by
  have hpaused : ∀ n, (t.portAt n).pausedUntil = (s.portAt n).pausedUntil := fun n => (h.like.port n).2.2.2.2
  refine ⟨h.like.trans k.like, fun n => ?_, k.queues.trans h.queues, fun f hf p => (k.get f hf p).trans (h.get f hf p), ?_⟩
  · rw [k.ports n, hpaused, h.ports n]
    by_cases hn : n = q
    · subst hn
      simp [hq]
    · simp [hn]
  · obtain ⟨o, ho, hin, hfrom⟩ := h.outs
    obtain ⟨o', ho', hin', hfrom'⟩ := k.outs
    refine ⟨o' ++ o, by rw [ho', ho, List.append_assoc], fun n hn hnone => ?_, fun e he => ?_⟩
    · rcases List.mem_cons.1 hn with hn | hn
      · exact List.mem_append_right _ (hin n (by simp [hn]) hnone)
      · have hmem := hin' n hn ((hpaused n).trans hnone)
        rw [h.like.feedFrame] at hmem
        exact List.mem_append_left _ hmem
    · rcases List.mem_append.1 he with he | he
      · obtain ⟨n, hn, hnone, he⟩ := hfrom' e he
        rw [h.like.feedFrame] at he
        exact ⟨n, List.mem_cons_of_mem _ hn, (hpaused n).symm.trans hnone, he⟩
      · obtain ⟨n, hn, hnone, he⟩ := hfrom e he
        exact ⟨n, by simp [List.mem_singleton.1 hn], hnone, he⟩
/-- A step that sends a message on one port, counting it at most. -/
def sendsOne (g : State → Nat → State) (key : Nat) (m : List Byte) : Prop :=
  ∀ (t : State) q, t.feedReady q = true → t.sent (g t q) [q] key m
theorem State.sent_each {g : State → Nat → State} {key : Nat} {m : List Byte} (hg : sendsOne g key m) (l : List Nat) (hl : l.Nodup) (s : State)
    (hready : ∀ q ∈ l, s.feedReady q = true) : s.sent (s.each l g) l key m := by
  unfold State.each
  induction l generalizing s with
  | nil => exact s.sent_nil key m
  | cons q l ih =>
    rw [List.nodup_cons] at hl
    have hone := hg s q (hready q (by simp))
    exact hone.cons (ih hl.2 (g s q) fun n hn => (hone.like.feedReady n).trans (hready n (List.mem_cons_of_mem _ hn))) hl.1
theorem State.feedGroup_nodup (s : State) (n : Nat) : (s.feedGroup n).Nodup := List.Nodup.filter _ List.nodup_range
/-- The ports that a message of a group goes to. -/
def State.feedPeers (s : State) (p : Nat) : List Nat := (s.feedGroup p).filter s.feedReady
theorem State.mem_feedPeers {s : State} {p : Port} {q : Nat} : q ∈ s.feedPeers p ↔ answers s p q := List.mem_filter
theorem State.feedPeers_nodup (s : State) (n : Nat) : (s.feedPeers n).Nodup := List.Nodup.filter _ (s.feedGroup_nodup n)
theorem State.feedLike.feedPeers {s t : State} (h : s.feedLike t) (n : Nat) : t.feedPeers n = s.feedPeers n := by
  unfold State.feedPeers
  rw [h.feedGroup, funext h.feedReady]
/-- A message to a group whose leader's stream alone is set before and after it. -/
theorem groupSends_of_sent {s s' u t : State} {p : Port} {key : Nat} {m : List Byte} (hlike : s.feedLike s') (hs : s'.outs = s.outs)
    (hport : ∀ q, q ≠ p.val → s'.portAt q = s.portAt q) (hwait : (s'.portAt p).waiting = (s.portAt p).waiting)
    (h : s'.sent u (s.feedPeers p) key m) (ht : t.outs = u.outs) (htport : ∀ q, q ≠ p.val → t.portAt q = u.portAt q)
    (htwait : (t.portAt p).waiting = (u.portAt p).waiting) : groupSends s t p key m := by
  have hpaused : ∀ q, (s'.portAt q).pausedUntil = (s.portAt q).pausedUntil := fun q => (hlike.port q).2.2.2.2
  have hmem : ∀ q, q ∈ s.feedPeers p ↔ answers s p q := fun q => State.mem_feedPeers
  have hports : ∀ q, (answers s p q ∧ (s.portAt q).pausedUntil ≠ none → u.portAt q = (s'.portAt q).waits key m) ∧
      (¬ (answers s p q ∧ (s.portAt q).pausedUntil ≠ none) → u.portAt q = s'.portAt q) := fun q => by
    rw [← hmem, ← hpaused, h.ports q]
    exact ⟨fun hq => if_pos hq, fun hq => if_neg hq⟩
  have hwaits : ∀ q, (s'.portAt q).waiting = (s.portAt q).waiting := fun q => by
    by_cases hq : q = p.val
    · rw [hq]
      exact hwait
    · rw [hport q hq]
  have htw : ∀ q, (t.portAt q).waiting = (u.portAt q).waiting := fun q => by
    by_cases hq : q = p.val
    · rw [hq]
      exact htwait
    · rw [htport q hq]
  obtain ⟨o, ho, hin, hfrom⟩ := h.outs
  refine ⟨⟨o, by rw [ht, ho, hs], fun q hq hnone => ?_, fun e he => ?_⟩, fun q hq hne => ?_, fun q hp hq hne => ?_, fun q hp hno => ?_⟩
  · rw [← hlike.feedFrame]
    exact hin q ((hmem q).2 hq) ((hpaused q).trans hnone)
  · obtain ⟨q, hq, hnone, heq⟩ := hfrom e he
    exact ⟨q, (hmem q).1 hq, (hpaused q).symm.trans hnone, by rw [heq, hlike.feedFrame]⟩
  · rw [htw, (hports q).1 ⟨hq, hne⟩, PortSt.waits, hwaits]
  · rw [htport q hp, (hports q).1 ⟨hq, hne⟩, hport q hp]
    rfl
  · rw [htport q hp, (hports q).2 hno, hport q hp]
theorem State.ackMsg_bytes (s : State) (p : Port) (nak live : Bool) (bar reason seq sline : Nat) :
    s.ackMsg p nak false live bar reason seq sline = ackBytes nak false live bar reason seq sline (freeShown s p) := by
  unfold State.ackMsg ackBytes freeShown b2n
  cases live <;> rfl

/-! ### Acknowledgements (R200) -/

/-- What an acknowledgement says of a stream. -/
def State.ackOf (s : State) (p : Port) (live : Bool) : List Byte :=
  ackBytes false false live (s.portAt p).bar 0 (s.expOf p live) ((s.portAt p).stream live).lastSline (freeShown s p)
theorem sendsOne_feedSend (key : Nat) (m : List Byte) : sendsOne (fun t q => t.feedSend q key m) key m :=
  fun t _ h => State.feedSend_sent ⟨t.regs, rfl⟩ (fun _ _ _ => rfl) h
theorem State.each_feedSend_shape (key : Nat) (m : List Byte) (l : List Nat) (s : State) :
    ∃ po o, (s.each l fun t q => t.feedSend q key m) = { s with port := po, outs := o } := by
  unfold State.each
  refine List.foldlRecOn (motive := fun t : State => ∃ po o, t = { s with port := po, outs := o }) l _ ⟨_, _, rfl⟩ fun t ht q _ => ?_
  obtain ⟨po, o, ht⟩ := ht
  unfold State.feedSend
  split
  · split
    · exact ⟨po, _, by rw [ht]; rfl⟩
    · exact ⟨po, o, ht⟩
  · unfold State.updPort
    generalize t.port.put q _ = x
    exact ⟨x, o, by rw [ht]⟩
/-- The state once the acknowledgement is out, before its count starts again. -/
def State.ackSent (s : State) (p : Port) (live : Bool) : State :=
  s.each (s.feedPeers p) fun t q => t.feedSend q (1 + b2n live) (s.ackOf p live)
theorem State.feedAck_eq (s : State) (p : Port) (live : Bool) :
    s.feedAck p live = (s.ackSent p live).updStream p live fun x => { x with unack := 0, unackSince := none } := by
  unfold State.feedAck State.ackSent State.ackOf
  dsimp only
  rw [s.ackMsg_bytes]
  rfl
theorem State.ackSent_sent (s : State) (p : Port) (live : Bool) : s.sent (s.ackSent p live) (s.feedPeers p) (1 + b2n live) (s.ackOf p live) :=
  State.sent_each (sendsOne_feedSend _ _) _ (s.feedPeers_nodup p) s fun _ hq => (List.mem_filter.1 hq).2
theorem State.sent.stream {s t : State} {l : List Nat} {key : Nat} {m : List Byte} (h : s.sent t l key m) (q : Nat) (k : Bool) :
    (t.portAt q).stream k = (s.portAt q).stream k := by
  rw [h.ports q]
  split
  · cases k <;> rfl
  · rfl
theorem execAckTimeout_silent (s : State) (p : Port) (live : Bool) (h : s.isLeader p = false ∨ ((s.portAt p).stream live).unackSince = none ∨
    (∃ u, ((s.portAt p).stream live).unackSince = some u ∧ s.tick < u + usTicks (max 1 (s.get (pFEED p) R.FEED_ACK_ACK_TO)))) :
    exec (.ackTimeout p live) s = .next s := by
  change execAckTimeout p live s = _
  unfold execAckTimeout
  dsimp only
  cases hu : ((s.portAt p).stream live).unackSince with
  | none => rfl
  | some u =>
    rcases h with h | h | ⟨v, hv, h⟩
    · simp [h]
    · rw [hu] at h
      cases h
    · rw [hu] at hv
      cases hv
      simp [h]
theorem State.updStream_other (s : State) {n q : Nat} (live : Bool) (g : StreamSt → StreamSt) (h : q ≠ n) : (s.updStream n live g).portAt q = s.portAt q :=
  State.portAt_upd_other _ _ h
theorem ackTimeout_clause (s : State) (p : Port) (live : Bool) (u : Nat) (hlead : s.isLeader p = true)
    (hu : ((s.portAt p).stream live).unackSince = some u) (hdue : u + usTicks (max 1 (s.get (pFEED p) R.FEED_ACK_ACK_TO)) ≤ s.tick) :
    ∃ t, exec (.ackTimeout p live) s = .next t ∧
        groupSends s t p (1 + b2n live) (ackBytes false false live (s.portAt p).bar 0 (s.expOf p live)
          ((s.portAt p).stream live).lastSline (freeShown s p)) ∧
        (t.portAt p).stream live = { (s.portAt p).stream live with unack := 0, unackSince := none } ∧
        (t.portAt p).stream (!live) = (s.portAt p).stream (!live) ∧ s.regsBut t [] ∧
        ({ t with port := s.port, outs := s.outs } : State) = s := by
  have hexec : exec (.ackTimeout p live) s = .next (s.feedAck p live) := by
    change execAckTimeout p live s = _
    unfold execAckTimeout
    dsimp only
    rw [hu]
    dsimp only
    rw [if_neg (by simp [hlead, hdue])]
  obtain ⟨v, hv⟩ : ∃ v, s.ackSent p live = v := ⟨_, rfl⟩
  have hsent := s.ackSent_sent p live
  obtain ⟨po, o, hshape⟩ := State.each_feedSend_shape (1 + b2n live) (s.ackOf p live) (s.feedPeers p) s
  change s.ackSent p live = _ at hshape
  rw [hv] at hsent hshape
  rw [hexec, s.feedAck_eq, hv]
  refine ⟨_, rfl, ?_, ?_, ?_, fun q f _ => ?_, ?_⟩
  · exact groupSends_of_sent s.feedLike_refl rfl (fun _ _ => rfl) rfl hsent rfl (fun q hq => v.updStream_other live _ hq)
      (v.waiting_updStream p live _ p)
  · rw [State.stream_updStream, if_pos ⟨rfl, rfl⟩, hsent.stream]
  · rw [State.stream_updStream, if_neg (by simp), hsent.stream]
  · rw [hshape]
    rfl
  · rw [hshape]
    rfl

/-! ### Gap reports (R199) -/

theorem execGapTimeout_silent (s : State) (p : Port) (live : Bool) (h : s.isLeader p = false ∨ s.gapOpen p live = false ∨
    ((s.portAt p).stream live).gapSince = none ∨
    (∃ u, ((s.portAt p).stream live).gapSince = some u ∧ s.tick ≤ u + usTicks (max 1 (s.get (pFEED p) R.FEED_GAP)))) :
    exec (.gapTimeout p live) s = .next s := by
  change execGapTimeout p live s = _
  unfold execGapTimeout
  dsimp only
  cases hu : ((s.portAt p).stream live).gapSince with
  | none => rfl
  | some u =>
    rcases h with h | h | h | ⟨v, hv, h⟩
    · simp [h]
    · simp [h]
    · rw [hu] at h
      cases h
    · rw [hu] at hv
      cases hv
      simp [h]
/-- A NAK counted and sent on one port. -/
def nakOn (m : List Byte) (t : State) (q : Nat) : State := (t.incSat (pFEED q) R.FEED_NAK_CNT).feedSend q 0 m
theorem sendsOne_nakOn (m : List Byte) : sendsOne (nakOn m) 0 m := fun t q h =>
  State.feedSend_sent (s := t) ⟨_, rfl⟩ (fun _ hf _ => t.get_incSat_ne (Or.inr hf)) h
theorem State.get_feedSend (s : State) (n key : Nat) (m : List Byte) (p : Nat) (f : Fld) : (s.feedSend n key m).get p f = s.get p f := by
  unfold State.feedSend
  split
  · split <;> rfl
  · rfl
theorem State.get_nakOn_other (m : List Byte) (t : State) (q : Nat) {p : Nat} {f : Fld} (h : p ≠ pFEED q ∨ f.id ≠ R.FEED_NAK_CNT.id) :
    (nakOn m t q).get p f = t.get p f := by
  unfold nakOn
  rw [State.get_feedSend]
  exact t.get_incSat_ne h
theorem State.get_nakOn_self (m : List Byte) (t : State) (q : Nat) :
    (nakOn m t q).get (pFEED q) R.FEED_NAK_CNT = min (t.get (pFEED q) R.FEED_NAK_CNT + 1) (2 ^ R.FEED_NAK_CNT.w - 1) := by
  unfold nakOn
  rw [State.get_feedSend]
  exact t.get_incSat_self _ _
theorem State.each_nakOn_regs (m : List Byte) (l : List Nat) (hl : l.Nodup) (s : State) :
    s.regsBut (s.each l (nakOn m)) (l.map fun q => (pFEED q, R.FEED_NAK_CNT)) ∧
      ∀ q ∈ l, (s.each l (nakOn m)).get (pFEED q) R.FEED_NAK_CNT = min (s.get (pFEED q) R.FEED_NAK_CNT + 1) (2 ^ R.FEED_NAK_CNT.w - 1) := by
  unfold State.each
  induction l generalizing s with
  | nil => exact ⟨s.regsBut_refl _, fun q hq => absurd hq (by simp)⟩
  | cons n l ih =>
    rw [List.nodup_cons] at hl
    obtain ⟨hbut, hcnt⟩ := ih hl.2 (nakOn m s n)
    simp only [List.foldl_cons, List.map_cons]
    refine ⟨fun p f hp => (hbut p f fun x hx => hp x (List.mem_cons_of_mem _ hx)).trans (State.get_nakOn_other m s n (hp (pFEED n, R.FEED_NAK_CNT) (by simp))), fun q hq => ?_⟩
    have hpage : ∀ a b, a ≠ b → pFEED a ≠ pFEED b := fun a b h => by
      unfold pFEED
      omega
    rcases List.mem_cons.1 hq with rfl | hq
    · rw [hbut _ _ fun x hx => ?_, State.get_nakOn_self]
      obtain ⟨k, hk, rfl⟩ := List.mem_map.1 hx
      exact Or.inl (hpage _ _ fun h => hl.1 (h ▸ hk))
    · rw [hcnt q hq, State.get_nakOn_other m s n (Or.inl (hpage _ _ fun h => hl.1 (h ▸ hq)))]
theorem State.each_nakOn_shape (m : List Byte) (l : List Nat) (s : State) :
    ∃ r po o, s.each l (nakOn m) = { s with regs := r, port := po, outs := o } := by
  unfold State.each
  refine List.foldlRecOn (motive := fun t : State => ∃ r po o, t = { s with regs := r, port := po, outs := o }) l _ ⟨_, _, _, rfl⟩ fun t ht q _ => ?_
  obtain ⟨r, po, o, ht⟩ := ht
  unfold nakOn
  obtain ⟨r', hr⟩ : ∃ r', t.incSat (pFEED q) R.FEED_NAK_CNT = { t with regs := r' } := ⟨_, rfl⟩
  rw [hr]
  unfold State.feedSend
  split
  · split
    · exact ⟨r', po, _, by rw [ht]; rfl⟩
    · exact ⟨r', po, o, by rw [ht]⟩
  · unfold State.updPort
    dsimp only
    generalize t.port.put q _ = x
    exact ⟨r', _, o, by rw [ht]⟩
theorem gapTimeout_clause (s : State) (p : Port) (live : Bool) (u : Nat) (hlead : s.isLeader p = true)
    (hu : ((s.portAt p).stream live).gapSince = some u) (hgap : s.gapOpen p live = true)
    (hdue : u + usTicks (max 1 (s.get (pFEED p) R.FEED_GAP)) < s.tick) : ∃ t, exec (.gapTimeout p live) s = .next t ∧
        groupSends s t p 0 (ackBytes true false live (s.portAt p).bar 2 (s.expOf p live) 0 (freeShown s p)) ∧
        (t.portAt p).stream live = { (s.portAt p).stream live with gapSince := some (s.tick - 1) } ∧
        (t.portAt p).stream (!live) = (s.portAt p).stream (!live) ∧
        (s.fenceSound → bit (t.get (pFEED p) R.PG_IRQ_RAW) 5 = true) ∧
        (∀ q < 24, q ∈ s.feedGroup p → s.feedReady q = true →
          t.get (pFEED q) R.FEED_NAK_CNT = min (s.get (pFEED q) R.FEED_NAK_CNT + 1) (2 ^ R.FEED_NAK_CNT.w - 1)) ∧
        s.regsBut t ((pFEED p, R.PG_IRQ_RAW) :: ((s.feedGroup p).filter s.feedReady).map fun q => (pFEED q, R.FEED_NAK_CNT)) ∧
        ({ t with regs := s.regs, port := s.port, outs := s.outs, host := s.host } : State) = s := by
  obtain ⟨s', hs'⟩ : ∃ s', (s.updStream p live fun x => { x with gapSince := some (s.tick - 1) }) = s' := ⟨_, rfl⟩
  obtain ⟨m, hm⟩ : ∃ m, ackBytes true false live (s.portAt p).bar 2 (s.expOf p live) 0 (freeShown s p) = m := ⟨_, rfl⟩
  have hlike : s.feedLike s' := hs' ▸ s.feedLike_updStream p live _
  have hstream : ∀ k, (s'.portAt p).stream k = if k = live then { (s.portAt p).stream k with gapSince := some (s.tick - 1) } else (s.portAt p).stream k :=
    fun k => by
      rw [← hs', State.stream_updStream]
      simp
  have hother : ∀ q, q ≠ p.val → s'.portAt q = s.portAt q := fun q hq => hs' ▸ s.updStream_other live _ hq
  have hwait : (s'.portAt p).waiting = (s.portAt p).waiting := hs' ▸ s.waiting_updStream p live _ p
  have hget : ∀ p f, s'.get p f = s.get p f := fun _ _ => by
    rw [← hs']
    rfl
  have hfree : freeShown s' p = freeShown s p := by
    have hfill : s'.feedFill p = s.feedFill p := State.feedFill_congr (by rw [← hs']; rfl) fun k => by
      rw [hstream]
      split <;> rfl
    unfold freeShown
    rw [hfill, hlike.feedSize]
  obtain ⟨v, hv⟩ : ∃ v, s'.each (s.feedPeers p) (nakOn m) = v := ⟨_, rfl⟩
  have hexec : exec (.gapTimeout p live) s = .next (v.cause (pFEED p) 5) := by
    have hnak : s'.feedNak p live 2 (s.expOf p live) 0 = v := by
      unfold State.feedNak
      rw [s'.ackMsg_bytes, (hlike.port p).2.1, hfree, hm, ← hv, ← hlike.feedPeers]
      rfl
    change execGapTimeout p live s = _
    unfold execGapTimeout
    dsimp only
    rw [hu]
    dsimp only
    rw [if_neg (by simp [hlead, hgap, hdue]), hs', hnak]
  have hsent : s'.sent v (s.feedPeers p) 0 m := hv ▸ State.sent_each (sendsOne_nakOn m) _ (s.feedPeers_nodup p) s' fun q hq =>
    (hlike.feedReady q).trans (List.mem_filter.1 hq).2
  obtain ⟨hbut, hcnt⟩ := State.each_nakOn_regs m (s.feedPeers p) (s.feedPeers_nodup p) s'
  obtain ⟨r, po, o, hshape⟩ := State.each_nakOn_shape m (s.feedPeers p) s'
  rw [hv] at hbut hcnt hshape
  have hcause : ∀ q, (v.cause (pFEED p) 5).portAt q = v.portAt q := fun q => by
    obtain ⟨r, w, h⟩ := v.reports_cause (pFEED p) 5
    rw [h]
    rfl
  have hcouts : (v.cause (pFEED p) 5).outs = v.outs := by
    obtain ⟨r, w, h⟩ := v.reports_cause (pFEED p) 5
    rw [h]
  rw [hexec, hm]
  refine ⟨_, rfl, groupSends_of_sent hlike (by rw [← hs']; rfl) hother hwait hsent hcouts (fun q _ => hcause q) (by rw [hcause]), ?_, ?_, fun hsound => ?_,
    fun q _ hq hr => ?_, fun q f hf => ?_, ?_⟩
  · rw [hcause, hsent.stream, hstream, if_pos rfl]
  · rw [hcause, hsent.stream, hstream, if_neg (by simp)]
  · have hunf : s.fenced (pFEED p) = false := hsound _ _ _ (blkOf_feed p p.isLt) rfl
    refine v.bit_cause (by decide) ((State.frozen_congr ?_).trans (State.frozen_of_unfenced hunf))
    exact (hsent.get _ (by decide) _).trans (hget _ _)
  · rw [v.get_cause_ne _ (Or.inr (by decide)), hcnt q (List.mem_filter.2 ⟨hq, hr⟩), hget]
  · rw [v.get_cause_ne _ (hf (pFEED p, R.PG_IRQ_RAW) (by simp)), hbut q f fun x hx => hf x (List.mem_cons_of_mem _ hx), hget]
  · obtain ⟨r', w, h⟩ := v.reports_cause (pFEED p) 5
    rw [h, hshape, ← hs']
    rfl

/-! ### The delivery of a record (R198, R200) -/

theorem FeedRec.item_length (r : FeedRec) : r.item.length ≤ r.len + 16 := by
  unfold FeedRec.item FeedRec.len
  simp only [List.length_append, leBytes_length, List.length_cons, List.length_nil, zeros, List.length_replicate]
  omega
/-- The record put into the queue and counted, and its stream moved on. -/
def State.recordTaken (s : State) (p : Port) (live : Bool) (r : FeedRec) : State :=
  ((((s.enqueue (p + 1) { bytes := r.item, last := r.last }).incWrap (pFEED p) R.FEED_REC_CNT).updStream p live fun x => { x with
    held := x.held.filter fun e => e.rseq != r.rseq
    unack := x.unack + 1
    unackSince := some (x.unackSince.getD s.tick)
    lastSline := r.sline }).incWrap (pFEED p) (feedExp live))
/-- The acknowledgement that a delivery makes due. -/
def State.ackIfDue (s : State) (p : Port) (live : Bool) : State :=
  if max 1 (s.get (pFEED p) R.FEED_ACK_ACK_INT) ≤ ((s.portAt p).stream live).unack then s.feedAck p live else s
theorem execRecordDelivery_silent (s : State) (p : Port) (live : Bool) (h : s.isLeader p = false ∨ s.nextHeld p live = none) :
    exec (.recordDelivery p live) s = .next s := by
  change execRecordDelivery p live s = _
  unfold execRecordDelivery
  dsimp only
  rcases h with h | h
  · rw [if_pos (by simp [h])]
  · rw [h]
    dsimp only
    rw [ite_self]
theorem execRecordDelivery_taken {s : State} {p : Port} {live : Bool} {r : FeedRec} (hlead : s.isLeader p = true) (hr : s.nextHeld p live = some r) :
    exec (.recordDelivery p live) s = .next (((s.recordTaken p live r).feedMakeRoom p).ackIfDue p live).feedSettle := by
  change execRecordDelivery p live s = _
  unfold execRecordDelivery
  dsimp only
  rw [if_neg (by simp [hlead]), hr]
  rfl
section
variable {s u : State} {p : Port} {live : Bool} {r : FeedRec} (hu : s.recordTaken p live r = u)
include hu
theorem State.recordTaken_stream (q : Nat) (k : Bool) : (u.portAt q).stream k = if q = p ∧ k = live then
    { (s.portAt q).stream k with
      held := ((s.portAt q).stream k).held.filter fun e => e.rseq != r.rseq
      unack := ((s.portAt q).stream k).unack + 1
      unackSince := some (((s.portAt q).stream k).unackSince.getD s.tick)
      lastSline := r.sline } else (s.portAt q).stream k := by
  obtain ⟨v, hv⟩ : ∃ v, (s.enqueue (p + 1) { bytes := r.item, last := r.last }).incWrap (pFEED p) R.FEED_REC_CNT = v := ⟨_, rfl⟩
  have hport : v.portAt q = s.portAt q := by
    rw [← hv]
    rfl
  have hset : ∀ (t : State) f, (t.incWrap (pFEED p) f).portAt q = t.portAt q := fun _ _ => rfl
  rw [← hu, State.recordTaken, hv, hset, State.stream_updStream, hport]
theorem State.recordTaken_get : (∀ f : Fld, f.id ∉ [R.FEED_REC_CNT.id, (feedExp live).id] → ∀ q, u.get q f = s.get q f) ∧
    u.get (pFEED p) R.FEED_REC_CNT = (s.get (pFEED p) R.FEED_REC_CNT + 1) % 2 ^ 32 ∧ u.expOf p live = (s.expOf p live + 1) % 2 ^ 32 ∧
    u.expOf p (!live) = s.expOf p (!live) := by
  obtain ⟨v, hv⟩ : ∃ v, (s.enqueue (p + 1) { bytes := r.item, last := r.last }).incWrap (pFEED p) R.FEED_REC_CNT = v := ⟨_, rfl⟩
  have hcnt : v.get (pFEED p) R.FEED_REC_CNT = (s.get (pFEED p) R.FEED_REC_CNT + 1) % 2 ^ 32 := hv ▸ State.get_incWrap_self _ _ _
  have hvget : ∀ f : Fld, f.id ≠ R.FEED_REC_CNT.id → ∀ q, v.get q f = s.get q f := fun f hf q => hv ▸ State.get_incWrap_ne _ (Or.inr hf)
  obtain ⟨w, hw⟩ : ∃ w, (v.updStream p live fun x => { x with
    held := x.held.filter fun e => e.rseq != r.rseq
    unack := x.unack + 1
    unackSince := some (x.unackSince.getD s.tick)
    lastSline := r.sline }) = w := ⟨_, rfl⟩
  have hwget : ∀ q f, w.get q f = v.get q f := fun q f => by
    rw [← hw]
    rfl
  have huw : u = w.incWrap (pFEED p) (feedExp live) := by
    rw [← hw, ← hv, ← hu]
    rfl
  have hw32 : (feedExp live).w = 32 := by cases live <;> rfl
  have hids : (feedExp live).id ≠ R.FEED_REC_CNT.id ∧ (feedExp !live).id ≠ R.FEED_REC_CNT.id ∧ (feedExp !live).id ≠ (feedExp live).id := by
    cases live <;> decide
  rw [huw]
  refine ⟨fun f hf q => ?_, ?_, ?_, ?_⟩
  · simp only [List.mem_cons, List.not_mem_nil, or_false, not_or] at hf
    rw [w.get_incWrap_ne (Or.inr hf.2), hwget, hvget f hf.1]
  · rw [w.get_incWrap_field _ hids.1.symm, hwget, hcnt]
  · unfold State.expOf
    rw [State.get_incWrap_self, hwget, hvget _ hids.1, hw32]
  · unfold State.expOf
    rw [w.get_incWrap_field _ hids.2.2, hwget, hvget _ hids.2.1]
theorem State.recordTaken_like : s.feedLike u := by
  obtain ⟨v, hv⟩ : ∃ v, (s.enqueue (p + 1) { bytes := r.item, last := r.last }).incWrap (pFEED p) R.FEED_REC_CNT = v := ⟨_, rfl⟩
  have hq : s.feedLike (s.enqueue (p + 1) { bytes := r.item, last := r.last }) := ⟨fun _ => ⟨rfl, rfl, rfl, rfl, rfl⟩, fun _ _ _ => rfl, rfl⟩
  have hlike : s.feedLike v := hv ▸ hq.trans (State.feedLike_set _ _ _ (by decide))
  rw [← hu, State.recordTaken, hv]
  refine (hlike.trans (v.feedLike_updStream p live _)).trans (State.feedLike_set _ _ _ ?_)
  cases live <;> decide
theorem State.recordTaken_rest : u.queues = s.queues.put (p + 1) (s.queues.getD (p + 1) [] ++ [{ bytes := r.item, last := r.last }]) ∧ u.outs = s.outs ∧
    u.host = s.host ∧ ∀ q, (u.portAt q).waiting = (s.portAt q).waiting := by
  obtain ⟨v, hv⟩ : ∃ v, (s.enqueue (p + 1) { bytes := r.item, last := r.last }).incWrap (pFEED p) R.FEED_REC_CNT = v := ⟨_, rfl⟩
  have hport : ∀ q, v.portAt q = s.portAt q := fun q => by
    rw [← hv]
    rfl
  have hrest : v.queues = s.queues.put (p + 1) (s.queues.getD (p + 1) [] ++ [{ bytes := r.item, last := r.last }]) ∧ v.outs = s.outs ∧ v.host = s.host := by
    rw [← hv]
    exact ⟨rfl, rfl, rfl⟩
  have hset : ∀ (t : State) f q, (t.incWrap (pFEED p) f).portAt q = t.portAt q := fun _ _ _ => rfl
  refine ⟨?_, ?_, ?_, fun q => ?_⟩
  · rw [← hrest.1, ← hu, State.recordTaken, hv]
    rfl
  · rw [← hrest.2.1, ← hu, State.recordTaken, hv]
    rfl
  · rw [← hrest.2.2, ← hu, State.recordTaken, hv]
    rfl
  · rw [← hu, State.recordTaken, hv, hset, State.waiting_updStream, hport]
/-- What the delivery adds to the buffer is the padding of the item. -/
theorem State.recordTaken_fill (hr : s.nextHeld p live = some r) : u.feedFill p ≤ s.feedFill p + 16 := by
  have hmem : r ∈ ((s.portAt p).stream live).held := List.mem_of_find?_eq_some hr
  have hsum : ∀ (l : List FeedRec) (a : Nat), l.foldl (fun a r => a + r.len) a = a + (l.map FeedRec.len).sum := fun l => by
    induction l with
    | nil => simp
    | cons x l ih =>
      intro a
      rw [List.foldl_cons, ih, List.map_cons, List.sum_cons, Nat.add_assoc]
  have hdrop : ∀ l : List FeedRec, r ∈ l → ((l.filter fun e => e.rseq != r.rseq).map FeedRec.len).sum + r.len ≤ (l.map FeedRec.len).sum := fun l hl => by
    have hsub : ∀ l : List FeedRec, ((l.filter fun e => e.rseq != r.rseq).map FeedRec.len).sum ≤ (l.map FeedRec.len).sum := fun l =>
      (List.Sublist.map FeedRec.len List.filter_sublist).sum_le_sum fun _ _ => Nat.zero_le _
    induction l with
    | nil => cases hl
    | cons x l ih =>
      rcases List.mem_cons.1 hl with rfl | hl
      · have := hsub l
        simp
        omega
      · have := ih hl
        rw [List.filter_cons]
        split
        · simp only [List.map_cons, List.sum_cons]
          omega
        · simp only [List.map_cons, List.sum_cons]
          omega
  have hqb : u.queueBytes (p + 1) = s.queueBytes (p + 1) + r.item.length := by
    unfold State.queueBytes
    rw [(State.recordTaken_rest hu).1, NMap.getD_put_self, List.foldl_append]
    rfl
  have hlen := r.item_length
  have hfill : ∀ t : State, t.feedFill p = (((t.portAt p).stream false).held.map FeedRec.len).sum + (((t.portAt p).stream true).held.map FeedRec.len).sum +
      t.queueBytes (p + 1) := fun t => by
    unfold State.feedFill
    dsimp only
    rw [hsum, List.map_append, List.sum_append, Nat.zero_add]
    rfl
  have hstream := State.recordTaken_stream hu p
  have hd := hdrop _ hmem
  rw [hfill, hfill, hqb, hstream, hstream]
  cases live
  · rw [if_pos ⟨rfl, rfl⟩, if_neg (by simp)]
    dsimp only
    omega
  · rw [if_neg (by simp), if_pos ⟨rfl, rfl⟩]
    dsimp only
    omega
end
/-- What stands on the ports after a delivery's acknowledgement, if one is due. -/
theorem State.ackIfDue_sent (s : State) (p : Port) (live : Bool) {t : State} (ht : s.ackIfDue p live = t) : s.feedLike t ∧ t.queues = s.queues ∧
    (∀ f q, t.get q f = s.get q f) ∧ (∀ q k, ((t.portAt q).stream k).held = ((s.portAt q).stream k).held) ∧
    (∀ q k, ((t.portAt q).stream k).lastSline = ((s.portAt q).stream k).lastSline) ∧
    (∀ q, ¬ answers s p q → (t.portAt q).waiting = (s.portAt q).waiting) ∧ t.host = s.host ∧ (∃ o, t.outs = o ++ s.outs) ∧
    ((t.portAt p).stream live).unack = (if max 1 (s.get (pFEED p) R.FEED_ACK_ACK_INT) ≤ ((s.portAt p).stream live).unack then 0
      else ((s.portAt p).stream live).unack) ∧
    (max 1 (s.get (pFEED p) R.FEED_ACK_ACK_INT) ≤ ((s.portAt p).stream live).unack → ((t.portAt p).stream live).unackSince = none ∧
      ∃ o, t.outs = o ++ s.outs ∧ ∀ q, answers s p q → ((s.portAt q).pausedUntil = none → .feed q (s.feedFrame q (s.ackOf p live)) ∈ o) ∧
        ((s.portAt q).pausedUntil ≠ none → (1 + b2n live, s.ackOf p live) ∈ (t.portAt q).waiting)) := by
  unfold State.ackIfDue at ht
  by_cases hdue : max 1 (s.get (pFEED p) R.FEED_ACK_ACK_INT) ≤ ((s.portAt p).stream live).unack
  · obtain ⟨v, hv⟩ : ∃ v, s.ackSent p live = v := ⟨_, rfl⟩
    obtain ⟨po, o, hshape⟩ := State.each_feedSend_shape (1 + b2n live) (s.ackOf p live) (s.feedPeers p) s
    change s.ackSent p live = _ at hshape
    have hsent := s.ackSent_sent p live
    rw [if_pos hdue, s.feedAck_eq, hv] at ht
    rw [hv] at hsent hshape
    have hstream : ∀ q k, (t.portAt q).stream k = if q = p ∧ k = live then { (s.portAt q).stream k with unack := 0, unackSince := none }
        else (s.portAt q).stream k := fun q k => by
      rw [← ht, State.stream_updStream, hsent.stream]
    have hwait : ∀ q, (t.portAt q).waiting = (v.portAt q).waiting := fun q => ht ▸ v.waiting_updStream p live _ q
    have hget : ∀ f q, t.get q f = s.get q f := fun f q => by
      rw [← ht, hshape]
      rfl
    have houts : t.outs = v.outs := by
      rw [← ht]
      rfl
    obtain ⟨o', ho', hin, -⟩ := hsent.outs
    refine ⟨hsent.like.trans (ht ▸ v.feedLike_updStream p live _), ?_, hget, fun q k => ?_, fun q k => ?_, fun q hq => ?_, ?_, ⟨o', houts.trans ho'⟩, ?_,
      fun _ => ⟨?_, o', houts.trans ho', fun q hq => ⟨hin q (State.mem_feedPeers.2 hq), fun hne => ?_⟩⟩⟩
    · rw [← ht, hshape]
      rfl
    · rw [hstream]
      split <;> rfl
    · rw [hstream]
      split <;> rfl
    · rw [hwait, hsent.ports q, if_neg fun h => hq (State.mem_feedPeers.1 h.1)]
    · rw [← ht, hshape]
      rfl
    · rw [hstream, if_pos ⟨rfl, rfl⟩, if_pos hdue]
    · rw [hstream, if_pos ⟨rfl, rfl⟩]
    · rw [hwait, hsent.ports q, if_pos ⟨State.mem_feedPeers.2 hq, hne⟩]
      simp [PortSt.waits]
  · rw [if_neg hdue] at ht
    subst ht
    exact ⟨s.feedLike_refl, rfl, fun _ _ => rfl, fun _ _ => rfl, fun _ _ => rfl, fun _ _ => rfl, rfl, ⟨[], rfl⟩, by rw [if_neg hdue],
      fun h => absurd h hdue⟩
theorem recordDelivery_clause (s : State) (p : Port) (live : Bool) (r : FeedRec) (hlead : s.isLeader p = true) (hr : s.nextHeld p live = some r) :
    ∃ t, exec (.recordDelivery p live) s = .next t ∧
      t.queues.getD (p + 1) [] = s.queues.getD (p + 1) [] ++ [{ bytes := r.item, last := r.last }] ∧
      t.expOf p live = (s.expOf p live + 1) % 2 ^ 32 ∧ t.expOf p (!live) = s.expOf p (!live) ∧
      t.get (pFEED p) R.FEED_REC_CNT = (s.get (pFEED p) R.FEED_REC_CNT + 1) % 2 ^ 32 ∧
      (∀ k, ∀ e ∈ ((t.portAt p).stream k).held, e ∈ ((s.portAt p).stream k).held) ∧
      (∀ e ∈ ((t.portAt p).stream live).held, e.rseq ≠ r.rseq) ∧ ((t.portAt p).stream live).lastSline = r.sline ∧
      (s.feedFill p + 9216 + 16 ≤ s.feedSize p →
        ((t.portAt p).stream !live).held = ((s.portAt p).stream !live).held ∧
        ((t.portAt p).stream live).held = ((s.portAt p).stream live).held.filter fun e => e.rseq != r.rseq) ∧
      ((t.portAt p).stream live).unack = (if max 1 (s.get (pFEED p) R.FEED_ACK_ACK_INT) ≤ ((s.portAt p).stream live).unack + 1 then 0
        else ((s.portAt p).stream live).unack + 1) ∧
      (max 1 (s.get (pFEED p) R.FEED_ACK_ACK_INT) ≤ ((s.portAt p).stream live).unack + 1 →
        ((t.portAt p).stream live).unackSince = none ∧
        ∃ free o, t.outs = o ++ s.outs ∧ ∀ q, answers s p q → ∀ m,
          m = ackBytes false false live (s.portAt p).bar 0 ((s.expOf p live + 1) % 2 ^ 32) r.sline free →
          ((s.portAt q).pausedUntil = none → .feed q (s.feedFrame q m) ∈ o) ∧
          ((s.portAt q).pausedUntil ≠ none → (1 + b2n live, m) ∈ (t.portAt q).waiting)) ∧
      (∀ q, q ≠ p.val → (t.portAt q).lead = (s.portAt q).lead ∧ (t.portAt q).bar = (s.portAt q).bar ∧
        (t.portAt q).mac = (s.portAt q).mac ∧ (t.portAt q).pausedUntil = (s.portAt q).pausedUntil ∧
        (s.feedFill q + 9216 ≤ s.feedSize q → ∀ k, ((t.portAt q).stream k).held = ((s.portAt q).stream k).held) ∧
        (¬ answers s p q → (t.portAt q).waiting = (s.portAt q).waiting)) ∧
      ({ t with regs := s.regs, port := s.port, queues := s.queues, outs := s.outs, host := s.host } : State) = s := by
  obtain ⟨u, hu⟩ : ∃ u, s.recordTaken p live r = u := ⟨_, rfl⟩
  obtain ⟨v, hv⟩ : ∃ v, u.feedMakeRoom p = v := ⟨_, rfl⟩
  obtain ⟨w, hw⟩ : ∃ w, v.ackIfDue p live = w := ⟨_, rfl⟩
  obtain ⟨t, ht⟩ : ∃ t, w.feedSettle = t := ⟨_, rfl⟩
  have hsu := State.recordTaken_like hu
  obtain ⟨hugets, hucnt, huexp, huexp'⟩ := State.recordTaken_get hu
  obtain ⟨huq, huouts, huhost, huwait⟩ := State.recordTaken_rest hu
  have hustream := State.recordTaken_stream hu
  have hufill := State.recordTaken_fill hu hr
  have huv : u.feedStep v := hv ▸ u.feedStep_feedMakeRoom p
  have hwt : w.feedStep t := ht ▸ w.feedStep_feedSettle
  obtain ⟨hvw, hwq, hwget, hwheld, hwline, hwwait, -, ⟨o1, ho1⟩, hwunack, hwack⟩ := v.ackIfDue_sent p live hw
  have hsv := hsu.trans huv.like
  have hst := (hsv.trans hvw).trans hwt.like
  have hget : ∀ f : Fld, f.id ∉ [R.FEED_EVICT_CNT.id, R.PG_IRQ_RAW.id, R.FEED_PAUSE_TX.id] → ∀ q, t.get q f = u.get q f := fun f hf q =>
    (hwt.get f hf q).trans ((hwget f q).trans (huv.get f hf q))
  have hexp : ∀ k, t.expOf p k = u.expOf p k := fun k => hget _ (by cases k <;> decide) _
  have hsub : ∀ q k, ∀ e ∈ ((t.portAt q).stream k).held, e ∈ ((u.portAt q).stream k).held := fun q k e he => by
    have hw' := hwt.subset q k e he
    rw [hwheld] at hw'
    exact huv.subset q k e hw'
  have hroom : ∀ q, u.feedFill q + 9216 ≤ u.feedSize q → ∀ k, ((t.portAt q).stream k).held = ((u.portAt q).stream k).held := fun q hq k => by
    have huv' := huv.room q hq
    refine (hwt.room q ?_ k).trans ((hwheld q k).trans (huv' k))
    rw [State.feedFill_congr (hwq.trans huv.queues) fun k => (hwheld q k).trans (huv' k), (huv.like.trans hvw).feedSize]
    exact hq
  have hlive := hustream p live
  rw [if_pos ⟨rfl, rfl⟩] at hlive
  have hvlive : ((v.portAt p).stream live).unack = ((s.portAt p).stream live).unack + 1 := by
    rw [(huv.counts p live).1, hlive]
  have hint : v.get (pFEED p) R.FEED_ACK_ACK_INT = s.get (pFEED p) R.FEED_ACK_ACK_INT :=
    hsv.get _ (by decide) _
  rw [hint, hvlive] at hwunack hwack
  have hanswers : ∀ q, answers v p q ↔ answers s p q := fun q => by
    unfold answers
    rw [hsv.feedGroup, hsv.feedReady]
  obtain ⟨o2, ho2⟩ := hwt.outs
  obtain ⟨o0, ho0⟩ := huv.outs
  have hackof : v.ackOf p live = ackBytes false false live (s.portAt p).bar 0 ((s.expOf p live + 1) % 2 ^ 32) r.sline (freeShown v p) := by
    have hvexp : v.expOf p live = (s.expOf p live + 1) % 2 ^ 32 := (huv.get _ (by cases live <;> decide) _).trans huexp
    unfold State.ackOf
    rw [hvexp, (hsv.port p).2.1, (huv.counts p live).2.2, hlive]
  rw [execRecordDelivery_taken hlead hr, hu, hv, hw, ht]
  refine ⟨t, rfl, ?_, (hexp _).trans huexp, (hexp _).trans huexp', (hget _ (by decide) _).trans hucnt, fun k e he => ?_, fun e he => ?_, ?_, fun hfull => ?_,
    ?_, fun hdue => ?_, fun q hq => ?_, hst.shape⟩
  · rw [hwt.queues, hwq, huv.queues, huq, NMap.getD_put_self]
  · have hmem := hsub p k e he
    rw [hustream] at hmem
    split at hmem
    · exact (List.mem_filter.1 hmem).1
    · exact hmem
  · have hmem := hsub p live e he
    rw [hlive] at hmem
    simpa using (List.mem_filter.1 hmem).2
  · rw [(hwt.counts p live).2.2, hwline, (huv.counts p live).2.2, hlive]
  · have hkeep := hroom p (by rw [hsu.feedSize]; omega)
    rw [hkeep, hkeep, hustream, if_neg (by simp), hlive]
    exact ⟨rfl, rfl⟩
  · rw [(hwt.counts p live).1, hwunack]
  · obtain ⟨hsince, o, ho, hack⟩ := hwack hdue
    refine ⟨by rw [(hwt.counts p live).2.1, hsince], freeShown v p, o2 ++ (o ++ o0), ?_, fun q hq m hm => ?_⟩
    · rw [ho2, ho, ho0, huouts, List.append_assoc, List.append_assoc]
    · obtain ⟨hout, hwait⟩ := hack q ((hanswers q).2 hq)
      rw [hackof, ← hm, hsv.feedFrame, (hsv.port q).2.2.2.2] at hout
      rw [hackof, ← hm, (hsv.port q).2.2.2.2] at hwait
      exact ⟨fun h => List.mem_append_right _ (List.mem_append_left _ (hout h)), fun h => by
        rw [hwt.waiting]
        exact hwait h⟩
  · obtain ⟨h1, h2, h3, -, h5⟩ := hst.port q
    have huq' : ∀ k, (u.portAt q).stream k = (s.portAt q).stream k := fun k => by rw [hustream, if_neg (by simp [hq])]
    have hqueue : u.queueBytes (q + 1) = s.queueBytes (q + 1) := by
      unfold State.queueBytes
      rw [huq, NMap.getD_put_other _ _ _ (by omega)]
    have hfill : u.feedFill q = s.feedFill q := by
      have hbase : (u.portAt q).base = (s.portAt q).base := huq' false
      have hlv : (u.portAt q).live = (s.portAt q).live := huq' true
      unfold State.feedFill
      dsimp only
      rw [hbase, hlv, hqueue]
    refine ⟨h1, h2, h3, h5, fun hfree k => ?_, fun hno => ?_⟩
    · rw [hroom q (by rw [hfill, hsu.feedSize]; exact hfree), huq']
    · rw [hwt.waiting, hwwait q fun h => hno ((hanswers q).1 h), huv.waiting, huwait]

/-- Settles O39: a delivery, an acknowledgement and a gap report send one message to each ready port of the group, and settling drops records only
for want of room. -/
theorem recordsAreDelivered : Obligations.RecordsAreDelivered := by
  unfold Obligations.RecordsAreDelivered
  exact fun s p live => ⟨execRecordDelivery_silent s p live, recordDelivery_clause s p live, execGapTimeout_silent s p live, gapTimeout_clause s p live,
    execAckTimeout_silent s p live, ackTimeout_clause s p live⟩

end Sys2Proof.Machine
end

section
/-! ### Frames on the feed ports (O38): the case that fails -/
open Sys2Proof Sys2Proof.Machine
namespace Sys2Proof.Machine

/-! ### A frame of one message (R188 to R193) -/

/-- An accepted frame counted, with the sender it came from. -/
def State.frameCounted (s : State) (p : Port) (l : List Byte) : State :=
  (s.feedCount p l.length).updPort p fun x => { x with lastSrc := beAt l 6 6 }
theorem exec_feedFrameReceive_one {s : State} {p : Port} {l m : List Byte} (hup : s.laneUp (feedLane p) = true) (hgood : frameGood s p l)
    (hmac : beAt l 0 6 = (s.portAt p).mac) (htype : beAt l 12 2 = 0x88B5) (hready : s.feedReady p = true) (hhead : feedHeader (feedBody l) = true)
    (hm : feedMessages (byteAt (feedBody l) 1) ((feedBody l).drop 4) = some [m]) :
    exec (.feedFrameReceive p l) s = .next ((s.frameCounted p l).feedMessage p m).feedSettle := by
  obtain ⟨hmin, hmax, hcrc⟩ := hgood
  have hlen : (l.length < 64 || decide (max 1518 (min 9216 (s.get (pFEED p) R.FEED_MAXLEN)) < l.length) ||
      crc32 (l.take (l.length - 4)) != leAt l (l.length - 4) 4) = false := by
    simp only [Bool.or_eq_false_iff, decide_eq_false_iff_not, bne_eq_false_iff_eq]
    exact ⟨⟨by omega, by omega⟩, hcrc⟩
  have hin : s.feedFrameIn p l = (s.frameCounted p l).feedMessage p m := by
    unfold State.feedFrameIn
    dsimp only
    unfold feedBody at hm hhead
    rw [if_neg (by rw [hlen]; simp), if_neg (by simp [hmac]), if_neg (by simp [htype]), if_neg (by simp [htype]), if_neg (by simp [hready]),
      if_neg (by simp [hhead]), hm]
    rfl
  change Host.Outcome.next (if s.laneUp (feedLane p) then (s.feedFrameIn p l).feedSettle else s) = _
  rw [if_pos hup, hin]
theorem State.feedMessage_raster (s : State) (p : Port) {m : List Byte} (h : byteAt m 0 = 1) : s.feedMessage p m = s.feedRaster p m := by
  unfold State.feedMessage
  rw [if_pos h]

/-! ### A record that a wide EXP does not name -/

/-- The first 16 bytes of the message of a raster record with 1,504 bytes and RSEQ 0. -/
def rasterHead : List Byte := [1, 0] ++ leBytes 2 1524 ++ [1, 0] ++ leBytes 2 1504 ++ leBytes 4 0 ++ leBytes 4 0
/-- The message of the record whose bytes are all 0. -/
def zeroRaster : List Byte := rasterHead ++ (leBytes 4 (crc32 (zeros 1504)) ++ zeros 1504)
/-- The header of a feed frame between addresses 0. -/
def frameHead : List Byte := zeros 12 ++ [0x88, 0xB5]
/-- The frame of that message, up to its FCS. -/
def zeroRasterText : List Byte := frameHead ++ ([0x10, 1, 0, 0] ++ zeroRaster)
def zeroRasterFrame : List Byte := zeroRasterText ++ leBytes 4 (crc32 zeroRasterText)
/-- A device whose port 0 leads a group with a full buffer; its EXP has a bit beyond its 32. -/
def wideExp : State :=
  let s := (({ State.reset with
      inReset := false, heldReset := false, heldClock := false, pll := true
      lane := [(136, { st := 3 })]
      queues := [(1, [{ bytes := zeros 300000 }])] } : State).set (pFEED 0) R.PG_CTRL_EN 1).set pFEEDC R.PG_CTRL_EN 1
  { s with regs := s.regs.put (pFEED 0, R.FEED_EXP_BASE.id) (2 ^ 32) 0 }

theorem rasterHead_bytes (x : List Byte) : byteAt (rasterHead ++ x) 0 = 1 ∧ byteAt (rasterHead ++ x) 1 = 0 ∧ byteAt (rasterHead ++ x) 4 = 1 ∧
    byteAt (rasterHead ++ x) 5 = 0 ∧ leAt (rasterHead ++ x) 2 2 = 1524 ∧ leAt (rasterHead ++ x) 6 2 = 1504 ∧ leAt (rasterHead ++ x) 8 4 = 0 :=
  ⟨rfl, rfl, rfl, rfl, rfl, rfl, rfl⟩
theorem zeroRaster_length : zeroRaster.length = 1524 := by
  simp [zeroRaster, rasterHead]
theorem zeroRasterText_length : zeroRasterText.length = 1542 := by
  simp [zeroRasterText, frameHead, zeroRaster_length]
theorem zeroRasterFrame_length : zeroRasterFrame.length = 1546 := by
  simp [zeroRasterFrame, zeroRasterText_length]
theorem zeroRaster_raw : (zeroRaster.drop 20).take 1504 = zeros 1504 := by
  have hdrop : zeroRaster.drop 20 = zeros 1504 := by
    unfold zeroRaster
    rw [← List.append_assoc]
    exact List.drop_left' (by simp [rasterHead])
  rw [hdrop]
  exact List.take_of_length_le (by simp)
theorem zeroRaster_check : leAt zeroRaster 16 4 = crc32 (zeros 1504) :=
  leAt_leBytes (by simp [rasterHead]) (crc32_lt _)
theorem zeroRasterFrame_body : feedBody zeroRasterFrame = [0x10, 1, 0, 0] ++ zeroRaster := by
  have hdrop : zeroRasterFrame.drop 14 = ([0x10, 1, 0, 0] ++ zeroRaster) ++ leBytes 4 (crc32 zeroRasterText) := by
    unfold zeroRasterFrame
    rw [zeroRasterText, List.append_assoc]
    exact List.drop_left' (by simp [frameHead])
  unfold feedBody
  rw [hdrop, zeroRasterFrame_length]
  exact List.take_left' (by simp [zeroRaster_length])
theorem zeroRasterFrame_messages : feedHeader (feedBody zeroRasterFrame) = true ∧
    feedMessages (byteAt (feedBody zeroRasterFrame) 1) ((feedBody zeroRasterFrame).drop 4) = some [zeroRaster] := by
  obtain ⟨-, -, -, -, hlen, -⟩ := rasterHead_bytes (leBytes 4 (crc32 (zeros 1504)) ++ zeros 1504)
  have hlen' : leAt zeroRaster 2 2 = 1524 := hlen
  have hone : byteAt ([0x10, 1, 0, 0] ++ zeroRaster) 1 = 1 := rfl
  have htake : zeroRaster.take 1524 = zeroRaster := List.take_of_length_le (by rw [zeroRaster_length])
  rw [zeroRasterFrame_body]
  refine ⟨?_, ?_⟩
  · have hb : byteAt ([0x10, 1, 0, 0] ++ zeroRaster) 0 = 0x10 ∧ byteAt ([0x10, 1, 0, 0] ++ zeroRaster) 2 = 0 ∧
        byteAt ([0x10, 1, 0, 0] ++ zeroRaster) 3 = 0 := ⟨rfl, rfl, rfl⟩
    obtain ⟨h0, h2, h3⟩ := hb
    unfold feedHeader
    rw [h0, hone, h2, h3, List.length_append, zeroRaster_length]
    rfl
  · rw [hone, List.drop_left' (show ([0x10, 1, 0, 0] : List Byte).length = 4 from rfl), feedMessages]
    rw [hlen', zeroRaster_length, if_neg (by decide), htake]
    rfl
theorem zeroRasterFrame_good : frameGood wideExp 0 zeroRasterFrame := by
  have hcrc : crc32 (zeroRasterFrame.take (zeroRasterFrame.length - 4)) = leAt zeroRasterFrame (zeroRasterFrame.length - 4) 4 := by
    rw [zeroRasterFrame_length]
    unfold zeroRasterFrame
    rw [List.take_left' zeroRasterText_length, ← List.append_nil (leBytes 4 (crc32 zeroRasterText))]
    exact (leAt_leBytes zeroRasterText_length (crc32_lt _)).symm
  unfold frameGood
  rw [zeroRasterFrame_length] at hcrc ⊢
  have hmax : max 1518 (min 9216 (wideExp.get (pFEED 0) R.FEED_MAXLEN)) = 9216 := by decide +kernel
  exact ⟨by decide, by rw [show (pFEED (0 : Port)) = pFEED 0 from rfl, hmax]; decide, hcrc⟩
theorem zeroRasterFrame_addressed : beAt zeroRasterFrame 0 6 = (wideExp.portAt (0 : Port)).mac ∧ beAt zeroRasterFrame 12 2 = 0x88B5 ∧
    wideExp.feedReady (0 : Port) = true ∧ wideExp.laneUp (feedLane (0 : Port)) = true ∧ wideExp.isLeader (wideExp.feedLead (0 : Port)) = true := by
  have hdst : beAt zeroRasterFrame 0 6 = 0 := rfl
  have hmac : (wideExp.portAt (0 : Port)).mac = 0 := by decide +kernel
  refine ⟨hdst.trans hmac.symm, rfl, ?_⟩
  decide +kernel

/-! ### The record taken and dropped again (R198, R199) -/

/-- The record as the group takes it. -/
def zeroFeedRec : FeedRec :=
  { rseq := 0, seg := 1, last := false, live := false, sline := leAt zeroRaster 12 4, check := crc32 (zeros 1504), raw := zeros 1504 }
/-- The device once the frame is counted. -/
def wideCounted : State := (wideExp.feedCount 0 1546).updPort 0 fun x => { x with lastSrc := 0 }
theorem wideExp_counted : wideExp.frameCounted (0 : Port) zeroRasterFrame = wideCounted := by
  have hsrc : beAt zeroRasterFrame 6 6 = 0 := rfl
  unfold State.frameCounted wideCounted
  rw [hsrc, zeroRasterFrame_length]
  rfl
theorem wideCounted_facts : wideCounted.isLeader 0 = true ∧ wideCounted.feedLead 0 = 0 ∧ (wideCounted.portAt 0).bar = 0 ∧
    ((wideCounted.portAt 0).stream false).held = [] ∧ wideCounted.expOf 0 false = 2 ^ 32 ∧ wideCounted.feedSize 0 = 262144 := by decide +kernel
/-- A queue with one item holds the bytes of that item. -/
theorem State.queueBytes_of_one {s : State} {ep : Nat} {q : QItem} (h : s.queues.getD ep [] = [q]) : s.queueBytes ep = q.bytes.length := by
  unfold State.queueBytes
  rw [h]
  simp
theorem wideCounted_queue : wideCounted.queueBytes 1 = 300000 := by
  have hq : wideCounted.queues.getD 1 [] = [{ bytes := zeros 300000 }] := rfl
  exact (State.queueBytes_of_one hq).trans (zeros_length 300000)
/-- A record that comes at EXP's distance 0 is put among those held. -/
theorem wideCounted_raster : wideCounted.feedRaster 0 zeroRaster =
    ((wideCounted.feedMakeRoom 0).updStream 0 false fun x => { x with held := x.held ++ [zeroFeedRec] }).feedMakeRoom 0 := by
  obtain ⟨-, h1, h4, h5, -, h6, h8⟩ := rasterHead_bytes (leBytes 4 (crc32 (zeros 1504)) ++ zeros 1504)
  have hb1 : byteAt zeroRaster 1 = 0 := h1
  have hb4 : byteAt zeroRaster 4 = 1 := h4
  have hb5 : byteAt zeroRaster 5 = 0 := h5
  have hl6 : leAt zeroRaster 6 2 = 1504 := h6
  have hl8 : leAt zeroRaster 8 4 = 0 := h8
  obtain ⟨hlead, hof, hbar, hheld, hexp, -⟩ := wideCounted_facts
  have hdiff : diff32 0 (2 ^ 32) = 0 := by decide
  have hbit : ∀ i, bit 0 i = false := fun i => Nat.zero_testBit i
  have hdot : bit 1 0 = true := by decide
  unfold State.feedRaster
  rw [hb1, hb4, hb5, hl6, hl8, hof]
  dsimp only
  simp only [zeroRaster_raw, zeroRaster_check, zeroRaster_length]
  simp only [hbit]
  rw [if_neg (by simp [hlead]), if_neg (by simp [hbar, hdot, rawBytes]), if_neg (by simp)]
  simp only [Bool.false_eq_true, if_false]
  rw [hexp, hdiff, hheld, if_neg (by simp), if_neg (by simp), if_neg (by simp)]
  rfl
/-- The full buffer drops it again, since the gap that EXP shows is open. -/
theorem wideCounted_evicts {v : State} (hv : wideCounted.feedStep v) :
    ((((v.updStream 0 false fun x => { x with held := x.held ++ [zeroFeedRec] }).feedMakeRoom 0).portAt 0).stream false).held = [] := by
  obtain ⟨-, -, -, hheld, hexp, hsize⟩ := wideCounted_facts
  have hvheld : ((v.portAt 0).stream false).held = [] := List.eq_nil_iff_forall_not_mem.2 fun e he => by
    have hmem := hv.subset 0 false e he
    rw [hheld] at hmem
    cases hmem
  obtain ⟨y, hy⟩ : ∃ y, (v.updStream 0 false fun x => { x with held := x.held ++ [zeroFeedRec] }) = y := ⟨_, rfl⟩
  have hyheld : ((y.portAt 0).stream false).held = [zeroFeedRec] := by
    rw [← hy, State.stream_updStream, if_pos ⟨rfl, rfl⟩, hvheld]
    rfl
  have hyexp : y.expOf 0 false = 2 ^ 32 := by
    rw [← hexp, ← hy]
    exact hv.get _ (by decide) _
  have hysize : y.feedSize 0 = 262144 := by
    rw [← hsize, ← hv.like.feedSize, ← hy]
    exact (v.feedLike_updStream 0 false _).feedSize 0
  have hyfill : 300000 ≤ y.feedFill 0 := by
    have hq : y.queueBytes 1 = 300000 := by
      rw [← wideCounted_queue, ← hy]
      unfold State.queueBytes
      change (v.queues.getD 1 []).foldl _ 0 = _
      rw [hv.queues]
    unfold State.feedFill
    dsimp only
    rw [Nat.zero_add, hq]
    omega
  have hgap : y.gapOpen 0 false = true := by
    unfold State.gapOpen State.nextHeld
    rw [hyheld, hyexp]
    decide
  obtain ⟨z, hz⟩ : ∃ z, y.feedEvict 0 false 512 = z := ⟨_, rfl⟩
  have hzheld : ((z.portAt 0).stream false).held = [] := by
    have hdiff : diff32 zeroFeedRec.rseq (2 ^ 32) = 0 := by decide
    rw [← hz, State.feedEvict]
    rw [if_pos (by rw [hgap, hysize]; simp; omega), hyheld, hyexp]
    simp only [List.foldl_cons, List.foldl_nil, hdiff]
    refine List.eq_nil_iff_forall_not_mem.2 fun e he => ?_
    have hmem := (State.feedStep_feedEvict 0 false 511 _).subset 0 false e he
    have hset : ∀ (x : State) q, (x.incSat (pFEED 0) R.FEED_EVICT_CNT).portAt q = x.portAt q := fun _ _ => rfl
    rw [hset, State.stream_updStream, if_pos ⟨rfl, rfl⟩] at hmem
    dsimp only at hmem
    rw [hyheld] at hmem
    obtain ⟨hin, hne⟩ := List.mem_filter.1 hmem
    rw [List.mem_singleton.1 hin, hdiff] at hne
    exact absurd hne (by decide)
  rw [hy]
  have hgapstep : ∀ (t : State) k, t.feedStep (t.gapSettle 0 k) := fun t k =>
    t.feedStep_updStream 0 k _ (fun x => ⟨rfl, rfl, rfl⟩) (fun x e he => he) fun _ x => rfl
  have hroom : z.feedStep (y.feedMakeRoom 0) := by
    unfold State.feedMakeRoom
    rw [hz]
    exact ((State.feedStep_feedEvict 0 true 512 z).trans (hgapstep _ false)).trans (hgapstep _ true)
  refine List.eq_nil_iff_forall_not_mem.2 fun e he => ?_
  have hmem := hroom.subset 0 false e he
  rw [hzheld] at hmem
  cases hmem

/-- Refutes O38: a record whose RSEQ differs from EXP only beyond bit 31 is taken as the one that EXP names, but a gap stays open, and a full
buffer drops it again. -/
theorem not_feedFramesAndPauses : ¬ Obligations.FeedFramesAndPauses := by
  unfold Obligations.FeedFramesAndPauses
  rintro ⟨hframe, -⟩
  obtain ⟨hmac, htype, hready, hup, hleads⟩ := zeroRasterFrame_addressed
  obtain ⟨hheader, hmessages⟩ := zeroRasterFrame_messages
  obtain ⟨hb0, h1, h4, h5, -, h6, h8⟩ := rasterHead_bytes (leBytes 4 (crc32 (zeros 1504)) ++ zeros 1504)
  have hkind : byteAt zeroRaster 0 = 1 := hb0
  have hb1 : byteAt zeroRaster 1 = 0 := h1
  have hb4 : byteAt zeroRaster 4 = 1 := h4
  have hb5 : byteAt zeroRaster 5 = 0 := h5
  have hl6 : leAt zeroRaster 6 2 = 1504 := h6
  have hl8 : leAt zeroRaster 8 4 = 0 := h8
  have hlead : wideExp.feedLead (0 : Port) = 0 ∧ (wideExp.portAt 0).bar = 0 ∧ ((wideExp.portAt 0).stream false).held = [] ∧
      wideExp.expOf 0 false = 2 ^ 32 := by decide +kernel
  obtain ⟨hof, hbar, hheld, hexp⟩ := hlead
  obtain ⟨-, hgood⟩ := hframe wideExp 0 zeroRasterFrame
  obtain ⟨-, hgood⟩ := hgood hup
  obtain ⟨-, -, hdata⟩ := hgood zeroRasterFrame_good
  obtain ⟨-, -, hone⟩ := hdata (Or.inl hmac) htype
  obtain ⟨t, ht, -, -, -, -, hraster, -⟩ := hone zeroRaster hready hheader hmessages
  obtain ⟨-, -, htaken⟩ := hraster hkind hleads
  have hrgood : rasterGood wideExp 0 zeroRaster := by
    unfold rasterGood
    rw [hb1, hb4, hb5, hl6, hl8, zeroRaster_length, hof, hbar]
    decide
  have hcheck : crc32 ((zeroRaster.drop 20).take (leAt zeroRaster 6 2)) = leAt zeroRaster 16 4 := by
    rw [hl6, zeroRaster_raw, zeroRaster_check]
  have hbit : ∀ i, bit (byteAt zeroRaster 5) i = false := fun i => by
    rw [hb5]
    exact Nat.zero_testBit i
  obtain ⟨hholds, -⟩ := htaken 0 (2 ^ 32) false false hrgood hcheck hof.symm (hbit 0).symm (by simp [hbit, hexp]) (by simp [hheld])
  obtain ⟨r, hr, -⟩ := hholds rfl (Or.inl (by rw [hl8]; decide))
  rw [exec_feedFrameReceive_one hup zeroRasterFrame_good hmac htype hready hheader hmessages, wideExp_counted] at ht
  have hmessage : wideCounted.feedMessage 0 zeroRaster = wideCounted.feedRaster 0 zeroRaster := wideCounted.feedMessage_raster 0 hkind
  have htt : (((wideCounted.feedMakeRoom 0).updStream 0 false fun x => { x with held := x.held ++ [zeroFeedRec] }).feedMakeRoom 0).feedSettle = t := by
    rw [← wideCounted_raster, ← hmessage]
    exact Host.Outcome.next.inj ht
  have hmem := (State.feedStep_feedSettle _).subset 0 false r (htt ▸ hr)
  rw [wideCounted_evicts (wideCounted.feedStep_feedMakeRoom 0)] at hmem
  cases hmem

end Sys2Proof.Machine
end

section
/-! ### The soft resets as they stand (O8) -/
open Sys2Proof Sys2Proof.Machine
namespace Sys2Proof.Machine

/-! ### What no operation of a block writes: which soft resets wait and run -/

theorem State.reports.srsts {s t : State} (h : s.reports t) : t.srsts = s.srsts := by
  obtain ⟨r, w, rfl⟩ := h
  rfl
theorem State.lsReports.srsts {s t : State} (h : s.lsReports t) : t.srsts = s.srsts := by
  obtain ⟨r, w, e, rfl⟩ := h
  rfl
@[simp] theorem State.cause_srsts (s : State) (p i : Nat) : (s.cause p i).srsts = s.srsts := (s.reports_cause p i).srsts
@[simp] theorem State.err_srsts (s : State) (p code src lo hi dir : Nat) : (s.err p code src lo hi dir).srsts = s.srsts :=
  (s.reports_err p code src lo hi dir).srsts
@[simp] theorem State.incSat_srsts (s : State) (p : Nat) (f : Fld) : (s.incSat p f).srsts = s.srsts := rfl
@[simp] theorem State.incWrap_srsts (s : State) (p : Nat) (f : Fld) : (s.incWrap p f).srsts = s.srsts := rfl
@[simp] theorem State.addSat_srsts (s : State) (p : Nat) (f : Fld) (k : Nat) : (s.addSat p f k).srsts = s.srsts := rfl
@[simp] theorem State.addWrap_srsts (s : State) (p : Nat) (f : Fld) (k : Nat) : (s.addWrap p f k).srsts = s.srsts := rfl
@[simp] theorem State.enqueue_srsts (s : State) (ep : Nat) (q : QItem) : (s.enqueue ep q).srsts = s.srsts := rfl
@[simp] theorem State.lsWrite_srsts (s : State) (a : Nat) (l : List Byte) : (s.lsWrite a l).srsts = s.srsts := rfl
@[simp] theorem State.upd_srsts (s : State) (p : Nat) (f : Fld) (g : Nat → Nat) : (s.upd p f g).srsts = s.srsts := rfl
theorem State.foldl_srsts {α : Type} (g : State → α → State) (hg : ∀ (t : State) x, (g t x).srsts = t.srsts) (l : List α) (s : State) :
    (l.foldl g s).srsts = s.srsts :=
  List.foldlRecOn (motive := fun t : State => t.srsts = s.srsts) l g rfl fun t ht x _ => (hg t x).trans ht
theorem State.each_srsts (g : State → Nat → State) (hg : ∀ (t : State) x, (g t x).srsts = t.srsts) (l : List Nat) (s : State) :
    (s.each l g).srsts = s.srsts := State.foldl_srsts g hg l s
theorem State.dramStep.srsts {s t : State} {l : List Nat} (h : s.dramStep t l) : t.srsts = s.srsts := by
  obtain ⟨r, d, w, m, k, h⟩ := h.shape
  rw [h]
@[simp] theorem State.dramPut_srsts (s : State) (a : Nat) (d : List Byte) (req : Nat) : (s.dramPut a d req).srsts = s.srsts := by
  unfold State.dramPut State.dramAsk
  split
  · exact (s.dramStep_dramWriteOpt a (d.map some) req).srsts
  · rfl

/-! ### PAIR, LINE and the head channels -/

@[simp] theorem State.setPairState_srsts (s : State) (v : Nat) : (s.setPairState v).srsts = s.srsts := by
  unfold State.setPairState
  dsimp only
  split <;> simp
@[simp] theorem State.crookSend_srsts (s : State) (typ : Nat) (l : List Byte) : (s.crookSend typ l).srsts = s.srsts := by
  unfold State.crookSend
  dsimp only
  split
  · rfl
  · split <;> rfl
@[simp] theorem State.giveRecord_srsts (s : State) (c code b : Nat) (u : Bool) : (s.giveRecord c code b u).srsts = s.srsts := by
  unfold State.giveRecord
  simp
@[simp] theorem State.pairCause_srsts (s : State) (c code b : Nat) : (s.pairCause c code b).srsts = s.srsts := by
  unfold State.pairCause
  dsimp only
  split
  · rfl
  · split
    · split
      · rfl
      · split
        · split <;> simp
        · simp
    · split <;> simp
@[simp] theorem State.pairRise_srsts (s t : State) (code b : Nat) : (s.pairRise t code b).srsts = t.srsts := by
  unfold State.pairRise
  split
  · rfl
  · split
    · exact t.pairCause_srsts _ _ _
    · rfl
@[simp] theorem State.fenceMark_srsts (s : State) (p reason : Nat) : (s.fenceMark p reason).srsts = s.srsts := by
  obtain ⟨r, w, m, h⟩ := (s.fenceMark_frame p reason).2
  rw [h]
theorem State.flightOver_srsts (s : State) (p : Nat) : (s.flightOver p).srsts = s.srsts := by
  have hhead : ∀ h, (s.headDue h).srsts = s.srsts := fun h => by
    unfold State.headDue State.headStops
    split
    · split <;> simp
    · rfl
  have hpipe : ∀ b, (s.pipeDue b).srsts = s.srsts := fun b => by
    unfold State.pipeDue
    dsimp only
    split
    · split <;> simp
    · rfl
  unfold State.flightOver
  split
  · split
    · rfl
    · exact hhead _
  · split
    · rfl
    · exact hpipe _
  · rfl
@[simp] theorem State.giveDone_srsts (s : State) (b : Nat) : (s.giveDone b).srsts = s.srsts := by
  unfold State.giveDone
  dsimp only
  split <;> simp
/-- A running soft reset stays as it stands. -/
def State.runningKept (s t : State) (p : Nat) : Prop :=
  (s.srsts.getD p {}).running = true → t.srsts.getD p {} = s.srsts.getD p {}
theorem State.runningKept_of_srsts {s t : State} (p : Nat) (h : t.srsts = s.srsts) : s.runningKept t p := fun _ => by rw [h]
theorem State.runningKept.trans {s t u : State} {p : Nat} (h : s.runningKept t p) (k : t.runningKept u p) : s.runningKept u p := fun hr =>
  (k (by rw [h hr]; exact hr)).trans (h hr)
theorem State.runningKept_markDue (s : State) (p q : Nat) : s.runningKept (s.markDue q) p := by
  intro hr
  unfold State.markDue
  split
  · dsimp only
    split
    · rfl
    next hrun =>
      by_cases hq : p = q
      · rw [hq] at hr
        exact absurd hr hrun
      · exact NMap.getD_put_other _ _ _ hq
  · rfl
theorem State.runningKept_lineStopped (s : State) (b p : Nat) : s.runningKept (s.lineStopped b) p := by
  have hdue : s.runningKept (s.each (barPages b) fun t q => t.markDue q) p := by
    unfold State.each
    generalize barPages b = l
    induction l generalizing s with
    | nil => exact fun _ => rfl
    | cons q l ih => exact (s.runningKept_markDue p q).trans (ih (s.markDue q))
  have hwhen : ∀ (t : State) c, (t.when c fun (t : State) =>
      t.each (List.range 2) fun u c => u.updCam c fun x => { x with trig0Until := none }).srsts = t.srsts := fun t c => by
    unfold State.when
    split
    · exact State.each_srsts (fun u c => u.updCam c fun x => { x with trig0Until := none }) (fun _ _ => rfl) _ t
    · rfl
  unfold State.lineStopped
  refine hdue.trans (State.runningKept_of_srsts p ?_)
  dsimp only
  rw [State.each_srsts _ State.flightOver_srsts, hwhen, State.giveDone_srsts]

/-! ### DMAC and the decoders -/

@[simp] theorem State.putRecord_srsts (s : State) (r : List Byte) : (s.putRecord r).srsts = s.srsts := by
  unfold State.putRecord
  dsimp only
  split <;> simp
@[simp] theorem State.closeRun_srsts (s : State) (b code tile : Nat) (next : Bool) : (s.closeRun b code tile next).srsts = s.srsts := by
  unfold State.closeRun
  split
  · rfl
  · simp
@[simp] theorem State.runLine_srsts (s : State) (b code tile : Nat) (aff : Bool) (segs : Nat) (x : JobLine) :
    (s.runLine b code tile aff segs x).srsts = s.srsts := by
  have hend : ∀ t : State, (if x.last then t.closeRun b code tile true else t).srsts = t.srsts := fun t => by
    split <;> simp
  have hopen : ∀ t : State, (if !aff then t.updJob b fun j => { j with carry := j.carry.filter fun c => c != (code, tile) }
      else match (t.jobAt b).runs.find? fun r => r.code == code && r.tile == tile with
        | some _ => t.updJob b fun j => { j with runs := j.runs.map fun r =>
            if r.code = code ∧ r.tile = tile then { r with lines := r.lines + 1, segMask := r.segMask ||| segs } else r }
        | none => t.updJob b fun j => { j with
            runs := j.runs ++ [⟨x.jobId, code, tile, j.carry.contains (code, tile), x.q, 1, x.line, segs⟩]
            carry := j.carry.filter fun c => c != (code, tile) }).srsts = t.srsts := fun t => by
    split
    · rfl
    · split <;> rfl
  unfold State.runLine
  refine (hend _).trans ((hopen _).trans ?_)
  split
  · split_ifs <;> simp
  · rfl
@[simp] theorem State.jobStop_srsts (s : State) (b : Nat) : (s.jobStop b).srsts = s.srsts := by
  have hpass : ∀ j m, (s.passRuns b j m).srsts = s.srsts := fun j m => by
    unfold State.passRuns
    split
    · rfl
    · exact State.foldl_srsts _ (fun t k => State.foldl_srsts _ (fun u c => u.runLine_srsts _ _ _ _ _ _) _ _) _ _
  have hflush : (s.passFlush b).srsts = s.srsts := by
    unfold State.passFlush
    split
    · exact hpass _ _
    · rfl
  exact hflush
@[simp] theorem State.panicUpdate_srsts (s : State) (b : Nat) : (s.panicUpdate b).srsts = s.srsts := by
  unfold State.panicUpdate
  dsimp only
  split_ifs <;> simp
/-- A decoder whose job engine does not run goes no further. -/
theorem State.decGo_srsts {s : State} {b : Nat} (h : (s.jobAt b).running = false) : (s.decGo b).srsts = s.srsts := by
  have hsettle : s.decSettle b 300 = s := by
    unfold State.decSettle
    simp [h]
  unfold State.decGo
  rw [hsettle]
  exact s.panicUpdate_srsts b

/-! ### The cameras and Chanter -/

@[simp] theorem State.statPut_srsts (s : State) (c : Nat) (r : List Byte) : (s.statPut c r).srsts = s.srsts := by
  unfold State.statPut
  dsimp only
  split
  · rfl
  · split <;> rfl
@[simp] theorem State.flatFrame_srsts (s : State) (c : Nat) (l : List Nat) (n : Nat) : (s.flatFrame c l n).srsts = s.srsts := by
  unfold State.flatFrame
  split <;> rfl
@[simp] theorem State.flushStart_srsts (s : State) (c : Nat) (f : FlushSt) : (s.flushStart c f).srsts = s.srsts := by
  unfold State.flushStart
  split
  · rfl
  · split <;> rfl
@[simp] theorem State.lsRead_srsts (s : State) (a n src : Nat) : (s.lsRead a n src).1.srsts = s.srsts :=
  (State.lsReads_spec _ s src a).1.srsts
@[simp] theorem State.chantRead_srsts (s : State) (a n : Nat) : (s.chantRead a n).1.srsts = s.srsts := by
  unfold State.chantRead
  dsimp only
  split <;> simp
@[simp] theorem State.slotU_srsts (s : State) (k j i c : Nat) : (s.slotU k j i c).1.srsts = s.srsts := by
  unfold State.slotU
  split
  · rfl
  · exact s.chantRead_srsts _ _
@[simp] theorem State.pairAdd_srsts (s : State) (k : Nat) (absb : List Nat) (cov : Nat → Nat) : (s.pairAdd k absb cov).srsts = s.srsts := by
  have hslots : ∀ (l : List (Nat × Nat)) (t : State) (z : List (Nat × Nat)) j, (l.foldl (fun (z : State × List (Nat × Nat)) e =>
      let q := z.1.slotU k j e.1 (cov e.2)
      (q.1, z.2 ++ [(e.1, q.2)])) (t, z)).1.srsts = t.srsts := fun l t z j =>
    List.foldlRecOn (motive := fun x : State × List (Nat × Nat) => x.1.srsts = t.srsts) l _ rfl fun x hx e _ => (x.1.slotU_srsts _ _ _ _).trans hx
  unfold State.pairAdd
  dsimp only
  rw [State.lsWrite_srsts]
  refine List.foldlRecOn (motive := fun x : State × Array Nat => x.1.srsts = s.srsts) _ _ (s.chantRead_srsts _ _) fun x hx j _ => ?_
  exact (hslots _ _ _ _).trans hx
@[simp] theorem State.overSettle_srsts (s : State) : s.overSettle.srsts = s.srsts := by
  have hready : ∀ t : State, t.partsReady.srsts = t.srsts := fun t => by
    unfold State.partsReady
    split <;> rfl
  have hfate : ∀ (t : State) x, (t.pairFate x).srsts = t.srsts := fun t x => by
    unfold State.pairFate
    dsimp only
    by_cases hgood : x.fate = 0
    · rw [if_pos hgood, State.pairAdd_srsts, State.addWrap_srsts, hready]
    · rw [if_neg hgood]
      split_ifs <;> rfl
  have hwork : ∀ (t : State) (l : List OverPair), (t.chantWork fun t => l.foldl State.pairFate t).srsts = t.srsts := fun t l => by
    unfold State.chantWork State.pageWork State.keepPage
    split <;> exact State.foldl_srsts _ hfate _ _
  unfold State.overSettle
  dsimp only
  split
  · rfl
  · split
    · rfl
    · exact hwork _ _
@[simp] theorem State.camClose_srsts (s : State) (c : Nat) (cut : Bool) : (s.camClose c cut).srsts = s.srsts := by
  unfold State.camClose
  dsimp only
  split
  · rfl
  · rw [State.flushStart_srsts, State.overSettle_srsts]
    simp [apply_ite State.srsts]
@[simp] theorem State.camDisable_srsts (s : State) (c : Nat) : (s.camDisable c).srsts = s.srsts := by
  unfold State.camDisable
  simp

/-! ### PROF, CAL, PIPE and the lanes -/

@[simp] theorem State.setStep_srsts (s : State) (i v : Nat) : (s.setStep i v).srsts = s.srsts := by
  have hstat : ∀ t : State, t.bootStat.srsts = t.srsts := fun t => by
    unfold State.bootStat
    dsimp only
    split <;> simp
  unfold State.setStep
  dsimp only
  split
  · rfl
  · rw [hstat]
    split <;> simp
@[simp] theorem State.lanesJudge_srsts (s : State) (i : Nat) : (s.lanesJudge i).srsts = s.srsts := by
  have herr : ∀ (t : State) (l : List Nat), (l.foldl (fun t l => t.bootErr 0x23 5 l) t).srsts = t.srsts := fun t l =>
    State.foldl_srsts _ (fun u x => u.err_srsts _ _ _ _ _ _) l t
  unfold State.lanesJudge
  dsimp only
  split_ifs <;> simp [herr]
@[simp] theorem State.bootSearchEnd_srsts (s : State) (l : Nat) (ok : Bool) : (s.bootSearchEnd l ok).srsts = s.srsts := by
  unfold State.bootSearchEnd State.bootErr
  dsimp only
  rw [State.lanesJudge_srsts]
  split_ifs <;> simp [State.backOk, State.backOff]
@[simp] theorem State.scanLost_srsts (s : State) (l : Nat) : (s.scanLost l).srsts = s.srsts := by
  unfold State.scanLost
  dsimp only
  split <;> rfl
@[simp] theorem State.tlmLane_srsts (s : State) (h st : Nat) : (s.tlmLane h st).srsts = s.srsts := by
  unfold State.tlmLane
  split_ifs <;> rfl
@[simp] theorem State.setLane_srsts (s : State) (l st : Nat) : (s.setLane l st).srsts = s.srsts := by
  unfold State.setLane
  dsimp only
  split_ifs <;> simp
@[simp] theorem State.laneReset_srsts (s : State) (l : Nat) (release : Bool) : (s.laneReset l release).srsts = s.srsts := by
  unfold State.laneReset State.dropLock
  dsimp only
  split_ifs <;> simp
@[simp] theorem State.laneIdle_srsts (s : State) (l : Nat) : (s.laneIdle l).srsts = s.srsts := by
  unfold State.laneIdle State.dropLock
  dsimp only
  split_ifs <;> simp
@[simp] theorem State.profReset_srsts (s : State) : s.profReset.srsts = s.srsts := by
  have hask : ∀ (t : State) p, (t.reloadAsk p false).srsts = t.srsts := fun t p => by
    unfold State.reloadAsk State.reloadStart
    split
    · split <;> rfl
    · rfl
  unfold State.profReset
  dsimp only
  rw [State.set_srsts, State.each_srsts _ hask]
  rfl
@[simp] theorem State.calReset_srsts (s : State) : s.calReset.srsts = s.srsts := by
  have hend : ∀ t : State, (t.calEnd 0).srsts = t.srsts := fun t => by
    unfold State.calEnd
    dsimp only
    simp only [State.cause_srsts, State.set_srsts]
    refine (State.each_srsts _ (by intros; rfl) _ _).trans ?_
    split <;> rfl
  unfold State.calReset
  split
  · exact hend s
  · rfl
theorem State.feedLike.srsts {s t : State} (h : s.feedLike t) : t.srsts = s.srsts := by
  have hs := congrArg State.srsts h.shape
  dsimp only at hs
  exact hs
@[simp] theorem State.feedSettle_srsts (s : State) : s.feedSettle.srsts = s.srsts := s.feedStep_feedSettle.like.srsts

/-! ### The start of a soft reset (R37) -/

theorem State.runningKept_lineDisable (s : State) (b p : Nat) : s.runningKept (s.lineDisable b) p := by
  unfold State.lineDisable
  generalize hu : ((s.set (pLINE b) R.PG_CTRL_EN 0).updLine b fun l => { l with due := false }).updPair _ = u
  have hsame : u.srsts = s.srsts := by
    rw [← hu]
    rfl
  exact (State.runningKept_of_srsts p hsame).trans (u.runningKept_lineStopped b p)
theorem State.runningKept_softBlock (s : State) (b : Blk) (i : Nat) (release : Bool) (p : Nat) : s.runningKept (s.softBlock b i release) p := by
  cases b with
  | line =>
    unfold State.softBlock
    exact (s.runningKept_lineDisable i p).trans (State.runningKept_of_srsts p (State.updLine_srsts _ _ _))
  | dmac =>
    refine State.runningKept_of_srsts p ?_
    unfold State.softBlock
    dsimp only
    refine (State.each_srsts _ (by intros; rfl) _ _).trans (State.each_srsts _ (fun t k => ?_) _ _)
    split
    · exact t.jobStop_srsts k
    · rfl
  | pipe =>
    refine State.runningKept_of_srsts p ?_
    unfold State.softBlock State.heldWrites
    exact State.foldl_srsts _ (by intros; rfl) _ _
  | camc => exact State.runningKept_of_srsts p (State.each_srsts _ (by intros; rfl) _ _)
  | pair => exact State.runningKept_of_srsts p (s.setPairState_srsts 0)
  | cam => exact State.runningKept_of_srsts p (s.camDisable_srsts i)
  | cal => exact State.runningKept_of_srsts p s.calReset_srsts
  | lane => exact State.runningKept_of_srsts p (s.laneReset_srsts i release)
  | _ => exact State.runningKept_of_srsts p rfl
/-- Whether job engine k runs. -/
def State.runs (s : State) (k : Nat) : Bool := (s.jobAt k).running
theorem State.runs_of_job {s t : State} (h : t.job = s.job) : t.runs = s.runs := by
  funext k
  unfold State.runs State.jobAt
  rw [h]
theorem State.runs_updJob (s : State) (b : Nat) (g : JobSt → JobSt) (hg : ∀ x, (g x).running = x.running) : (s.updJob b g).runs = s.runs := by
  funext k
  unfold State.runs
  by_cases hk : k = b
  · rw [hk, State.jobAt_upd_self, hg]
  · rw [State.jobAt_upd_other _ _ hk]
theorem State.cause_job (s : State) (p i : Nat) : (s.cause p i).job = s.job := by
  obtain ⟨r, w, h⟩ := s.reports_cause p i
  rw [h]
theorem State.runs_putRecord (s : State) (r : List Byte) : (s.putRecord r).runs = s.runs := by
  have hput : ∀ a, (s.dramPut a r 0x4E).job = s.job := fun a => by
    unfold State.dramPut State.dramAsk
    split
    · obtain ⟨x, d, w, m, k, h⟩ := (s.dramStep_dramWriteOpt a (r.map some) 0x4E).shape
      change (s.dramWriteOpt a (r.map some) 0x4E).job = _
      rw [h]
    · rfl
  refine State.runs_of_job ?_
  unfold State.putRecord
  dsimp only
  split
  · exact (State.cause_job _ _ _).trans (hput _)
  · exact State.cause_job _ _ _
theorem State.runs_closeRun (s : State) (b code tile : Nat) (next : Bool) : (s.closeRun b code tile next).runs = s.runs := by
  unfold State.closeRun
  split
  · rfl
  · exact (State.runs_putRecord _ _).trans (s.runs_updJob b _ fun _ => rfl)
theorem State.runs_runLine (s : State) (b code tile : Nat) (aff : Bool) (segs : Nat) (x : JobLine) :
    (s.runLine b code tile aff segs x).runs = s.runs := by
  have hend : ∀ t : State, (if x.last then t.closeRun b code tile true else t).runs = t.runs := fun t => by
    split
    · exact t.runs_closeRun _ _ _ _
    · rfl
  have hopen : ∀ t : State, (if !aff then t.updJob b fun j => { j with carry := j.carry.filter fun c => c != (code, tile) }
      else match (t.jobAt b).runs.find? fun r => r.code == code && r.tile == tile with
        | some _ => t.updJob b fun j => { j with runs := j.runs.map fun r =>
            if r.code = code ∧ r.tile = tile then { r with lines := r.lines + 1, segMask := r.segMask ||| segs } else r }
        | none => t.updJob b fun j => { j with
            runs := j.runs ++ [⟨x.jobId, code, tile, j.carry.contains (code, tile), x.q, 1, x.line, segs⟩]
            carry := j.carry.filter fun c => c != (code, tile) }).runs = t.runs := fun t => by
    split
    · exact t.runs_updJob b _ fun _ => rfl
    · split
      · exact t.runs_updJob b _ fun _ => rfl
      · exact t.runs_updJob b _ fun _ => rfl
  unfold State.runLine
  refine (hend _).trans ((hopen _).trans ?_)
  split
  · split_ifs
    · exact s.runs_closeRun _ _ _ _
    · exact s.runs_closeRun _ _ _ _
    · rfl
  · rfl
theorem State.runs_foldl {α : Type} (g : State → α → State) (hg : ∀ (t : State) x, (g t x).runs = t.runs) (l : List α) (s : State) :
    (l.foldl g s).runs = s.runs :=
  List.foldlRecOn (motive := fun t : State => t.runs = s.runs) l g rfl fun t ht x _ => (hg t x).trans ht
theorem State.runs_passFlush (s : State) (b : Nat) : (s.passFlush b).runs = s.runs := by
  have hpass : ∀ j m, (s.passRuns b j m).runs = s.runs := fun j m => by
    unfold State.passRuns
    split
    · rfl
    · exact State.runs_foldl _ (fun t k => State.runs_foldl _ (fun u c => u.runs_runLine _ _ _ _ _ _) _ _) _ _
  unfold State.passFlush
  split
  · exact hpass _ _
  · rfl
/-- An engine that stops runs no more, and the others as before. -/
theorem State.runs_jobStop (s : State) (b k : Nat) : (s.jobStop b).runs k = if k = b then false else s.runs k := by
  have hdiscard : ∀ t : State, (t.decDiscard b).runs = t.runs := fun _ => rfl
  unfold State.jobStop
  rw [hdiscard]
  by_cases hk : k = b
  · rw [if_pos hk, hk]
    unfold State.runs
    rw [State.jobAt_upd_self]
  · rw [if_neg hk, ← s.runs_passFlush b]
    unfold State.runs
    rw [State.jobAt_upd_other _ _ hk]
theorem State.runs_stopped (s : State) (l : List Nat) : ∀ k ∈ l, (s.each l fun t k => if (t.jobAt k).running then t.jobStop k else t).runs k = false := by
  have hstep : ∀ (t : State) b k, (if (t.jobAt b).running then t.jobStop b else t).runs k = if k = b then false else t.runs k := fun t b k => by
    split
    · exact t.runs_jobStop b k
    next hb =>
      split
      next hk => rw [hk]; simpa [State.runs] using hb
      next => rfl
  have hkeep : ∀ (l : List Nat) (t : State) k, t.runs k = false → (t.each l fun t k => if (t.jobAt k).running then t.jobStop k else t).runs k = false := by
    intro l
    induction l with
    | nil => exact fun _ _ h => h
    | cons b l ih =>
      intro t k hk
      refine ih _ k ?_
      rw [hstep]
      split
      · rfl
      · exact hk
  induction l generalizing s with
  | nil => exact fun k hk => absurd hk (by simp)
  | cons b l ih =>
    intro k hk
    rcases List.mem_cons.1 hk with rfl | hk
    · refine hkeep l _ k ?_
      rw [hstep, if_pos rfl]
    · exact ih _ k hk
theorem State.softRegs_behind (s : State) (p : Nat) (b : Blk) (i : Nat) : (s.softRegs p b i).srsts = s.srsts ∧ (s.softRegs p b i).job = s.job := by
  unfold State.softRegs
  dsimp only
  split
  · exact ⟨rfl, rfl⟩
  · split
    · exact ⟨rfl, rfl⟩
    · split <;> exact ⟨rfl, rfl⟩
theorem State.decGoes_srsts (l : List Nat) (s : State) (h : ∀ k ∈ l, s.runs k = false) : (s.each l State.decGo).srsts = s.srsts := by
  have hpanic : ∀ (t : State) b, (t.panicUpdate b).runs = t.runs := fun t b => by
    unfold State.panicUpdate
    dsimp only
    split_ifs
    · rfl
    · rfl
    · exact State.runs_of_job (State.cause_job _ _ _)
    · rfl
  unfold State.each
  induction l generalizing s with
  | nil => rfl
  | cons b l ih =>
    have hb := h b (by simp)
    have hgo : s.decGo b = s.panicUpdate b := by
      have hsettle : s.decSettle b 300 = s := by
        unfold State.decSettle
        simp only [State.runs] at hb
        simp [hb]
      unfold State.decGo
      rw [hsettle]
    rw [List.foldl_cons, hgo]
    refine (ih _ fun k hk => ?_).trans (s.panicUpdate_srsts b)
    rw [hpanic]
    exact h k (List.mem_cons_of_mem _ hk)
theorem State.runningKept_softClear (s : State) (p : Nat) (release : Bool) (q : Nat) : s.runningKept (s.softClear p release) q := by
  unfold State.softClear
  split
  · exact fun _ => rfl
  next b i _ =>
    obtain ⟨u, hu⟩ : ∃ u, s.softBlock b i release = u := ⟨_, rfl⟩
    obtain ⟨v, hv⟩ : ∃ v, u.softRegs p b i = v := ⟨_, rfl⟩
    have hblock : s.runningKept u q := hu ▸ s.runningKept_softBlock b i release q
    obtain ⟨hregs, hjob⟩ := u.softRegs_behind p b i
    rw [hv] at hregs hjob
    rw [hu, hv]
    refine hblock.trans (State.runningKept_of_srsts q (Eq.trans ?_ hregs))
    cases b with
    | prof => exact v.profReset_srsts
    | feedc => exact v.feedSettle_srsts
    | feed => exact v.feedSettle_srsts
    | lane =>
      unfold State.softAfter
      dsimp only
      split
      · exact v.feedSettle_srsts
      · rfl
    | head => exact v.laneIdle_srsts i
    | dmac =>
      refine State.decGoes_srsts _ v fun k hk => ?_
      rw [State.runs_of_job hjob, ← hu]
      unfold State.softBlock
      dsimp only
      have hrun : ∀ (l : List Nat) (t : State), (t.each l fun t k => t.updJob k fun e => { e with
          runs := [], carry := [], curLate := false, idleLast := false }).runs = t.runs := fun l t =>
        State.runs_foldl _ (by intro u k; exact u.runs_updJob k _ fun _ => rfl) l t
      rw [hrun]
      exact s.runs_stopped _ k hk
    | dramc => exact State.each_srsts _ State.panicUpdate_srsts _ v
    | _ => rfl
/-- A soft reset that starts runs on its page, with what it was asked for and no cause yet. -/
theorem State.softStart_running (s : State) (p : Nat) (boundary : Bool) :
    (s.softStart p boundary).srsts.getD p {} = { s.srsts.getD p {} with running := true, since := s.tick, due := false } := by
  obtain ⟨t, ht⟩ : ∃ t : State, ({ s with srsts := s.srsts.put p { s.srsts.getD p {} with running := true, since := s.tick, due := false } } : State) = t := ⟨_, rfl⟩
  have hrun : t.srsts.getD p {} = { s.srsts.getD p {} with running := true, since := s.tick, due := false } := by
    rw [← ht]
    exact NMap.getD_put_self _ _ _ _
  obtain ⟨u, hu⟩ : ∃ u, (match blkOf p with
    | some (b, i) => if boundary then t else t.discardLines b i
    | none => t) = u := ⟨_, rfl⟩
  have hsame : u.srsts = t.srsts := by
    rw [← hu]
    split
    · split
      · rfl
      · unfold State.discardLines
        exact State.each_srsts _ (by intros; rfl) _ _
    · rfl
  have hstart : s.softStart p boundary = s.pairRise (u.softClear p (s.srsts.getD p {}).release) 0 (match blkOf p with
    | some (.lane, l) => laneBar l
    | _ => 0) := by
    rw [← hu, ← ht]
    rfl
  have hclear := (State.runningKept_of_srsts p hsame).trans (u.runningKept_softClear p (s.srsts.getD p {}).release p)
  rw [hstart, State.pairRise_srsts, hclear (by rw [hrun]), hrun]

/-! ### The write of PG_CTRL (R37, R48) -/

theorem bits_srst (en : Bool) : bit (2 + b2n en) 0 = en ∧ bit (2 + b2n en) 1 = true := by
  cases en <;> decide
theorem bit_fenceRel (en srst : Bool) : bit (16 + 2 * b2n srst + b2n en) 4 = true := by
  cases en <;> cases srst <;> decide
section
variable {s : State} {p : Page} {en : Bool}
theorem exec_srst (h : s.accepts p 4 (2 + b2n en)) (hf : s.fenced p = false) : exec (.srst p en) s = .next ((s.enWrite p en).softRequest p) := by
  obtain ⟨hen, hsrst⟩ := bits_srst en
  have hact : exec (.srst p en) s = .next (pgCtrlAct p (2 + b2n en) s) :=
    congrArg Host.Outcome.next (State.writeWith_accepts (pgCtrlAct p (2 + b2n en)) h (Or.inr (by simp)))
  rw [hact, pgCtrlAct, if_neg (by simp [hf]), hen]
  dsimp only
  rw [if_pos hsrst]
theorem exec_fenceRel {srst : Bool} (h : s.accepts p 4 (16 + 2 * b2n srst + b2n en)) (hf : s.fenced p = true) :
    exec (.fenceRel p en srst) s = .next (s.fenceRelease p) := by
  have hact : exec (.fenceRel p en srst) s = .next (pgCtrlAct p (16 + 2 * b2n srst + b2n en) s) :=
    congrArg Host.Outcome.next (State.writeWith_accepts (pgCtrlAct p (16 + 2 * b2n srst + b2n en)) h (Or.inr (by simp)))
  rw [hact, pgCtrlAct, if_pos hf, if_pos (bit_fenceRel en srst)]
/-- A write of EN as it stands changes nothing. -/
theorem State.enWrite_stands (h : s.enabled p = en) : s.enWrite p en = s := by
  unfold State.enWrite
  split
  · rfl
  · rw [if_pos (by simp [h])]
end
/-- The request noted on the page. -/
def State.srstAsked (s : State) (p : Nat) (release : Bool) : State := { s with srsts := s.srsts.put p { since := s.tick, release := release } }
theorem State.softRequest_waits {s : State} {p b : Nat} (hb : waitBar p = some b) (hen : s.enabled p = true) (hf : s.fenced p = false)
    (hrun : s.lineRuns b = true) : s.softRequest p = s.srstAsked p false := by
  unfold State.softRequest
  dsimp only
  rw [hb]
  dsimp only
  rw [if_pos (by simp [hen, hf, hrun])]
  rfl
theorem State.softRequest_starts {s : State} {p : Nat} {release : Bool}
    (h : waitBar p = none ∨ release = true ∨ s.enabled p = false ∨ ∃ b, waitBar p = some b ∧ s.lineRuns b = false) :
    s.softRequest p release = (s.srstAsked p release).softStart p false := by
  unfold State.softRequest
  dsimp only
  split
  next b hb =>
    rw [if_neg]
    · rfl
    · rcases h with h | h | h | ⟨k, hk, h⟩
      · rw [hb] at h
        cases h
      · simp [h]
      · simp [h]
      · rw [hb] at hk
        cases hk
        simp [h]
  next => rfl
theorem State.srstAsked_shows (s : State) {p : Nat} {t : State} (ht : s.srstAsked p false = t) : t.softWaits p = true ∧ t.srstBusy p = true ∧ s.regsBut t [] ∧
    ({ t with srsts := s.srsts } : State) = s := by
  have hhas : t.srsts.has p = true := by
    rw [← ht]
    exact NMap.has_put_self _ _ _
  have hget : t.srsts.getD p {} = { since := s.tick, release := false } := by
    rw [← ht]
    exact NMap.getD_put_self _ _ _ _
  refine ⟨?_, ?_, fun q f _ => ?_, ?_⟩
  · unfold State.softWaits
    rw [hhas, hget]
    rfl
  · unfold State.srstBusy
    rw [hhas, Bool.or_true]
  · rw [← ht]
    rfl
  · rw [← ht]
    rfl
/-- Causes of the release's core cycle are kept for the soft reset that it starts. -/
theorem State.causesLate_kept (p src addr : Nat) (l : List Nat) (t : State) (hrun : (t.srsts.getD p {}).running = true) :
    ((l.foldl (fun u c => (u.err64 p c src addr).causeKept p c) t).srsts.getD p {}).causes = (t.srsts.getD p {}).causes ++ l ∧
      ((l.foldl (fun u c => (u.err64 p c src addr).causeKept p c) t).srsts.getD p {}).running = true := by
  induction l generalizing t with
  | nil => exact ⟨(List.append_nil _).symm, hrun⟩
  | cons c l ih =>
    obtain ⟨u, hu⟩ : ∃ u, t.err64 p c src addr = u := ⟨_, rfl⟩
    have hsame : u.srsts = t.srsts := by
      rw [← hu]
      exact t.err_srsts _ _ _ _ _ _
    have hkept : (u.causeKept p c).srsts.getD p {} = { t.srsts.getD p {} with
        causes := (t.srsts.getD p {}).causes ++ [c], running := true, due := false } := by
      unfold State.causeKept
      dsimp only
      rw [NMap.getD_put_self, hsame, hrun]
      rfl
    obtain ⟨hcauses, hruns⟩ := ih (u.causeKept p c) (by rw [hkept])
    rw [List.foldl_cons, hu]
    refine ⟨hcauses.trans ?_, hruns⟩
    rw [hkept, List.append_assoc]
    rfl
theorem fenceRel_late {s : State} {p : Page} {e : Nat × List Nat × Nat × Nat} (hhas : s.lateCause.has p = true)
    (he : s.lateCause.getD p (0, [], 0, 0) = e) (hnow : e.1 = s.tick) :
    ((s.fenceRelease p).srsts.getD p {}).causes = e.2.1 ∧ ((s.fenceRelease p).srsts.getD p {}).running = true := by
  obtain ⟨v, hv⟩ : ∃ v, s.set p R.PG_FENCE_FENCED 0 = v := ⟨_, rfl⟩
  obtain ⟨t, ht⟩ : ∃ t, v.softRequest p true = t := ⟨_, rfl⟩
  have hrun : t.srsts.getD p {} = { since := v.tick, release := true, running := true } := by
    rw [← ht, State.softRequest_starts (Or.inr (Or.inl rfl)), State.softStart_running]
    unfold State.srstAsked
    dsimp only
    rw [NMap.getD_put_self]
  obtain ⟨hcauses, hruns⟩ := State.causesLate_kept p e.2.2.1 e.2.2.2 e.2.1 { t with lateCause := t.lateCause.del p } (by dsimp only; rw [hrun])
  have hrel : s.fenceRelease p = e.2.1.foldl (fun u c => (u.err64 p c e.2.2.1 e.2.2.2).causeKept p c) { t with lateCause := t.lateCause.del p } := by
    unfold State.fenceRelease
    dsimp only
    rw [he, hhas, hv, ht, if_pos (by simp [hnow])]
  rw [hrel]
  refine ⟨hcauses.trans ?_, hruns⟩
  dsimp only
  rw [hrun]
  rfl
theorem fenceRel_noLate {s : State} {p : Page} (h : noLate s p) : s.fenceRelease p = (s.set p R.PG_FENCE_FENCED 0).softRequest p true := by
  unfold State.fenceRelease
  dsimp only
  rw [if_neg]
  rcases h with h | h
  · simp [h]
  · simp [h]

/-! ### An encoder page at its soft-reset state (R37) -/

/-- An encoder page once its soft reset has started. -/
def encAtReset (s t : State) (b : Bar) : Prop :=
  t.encAt b = { taken := (s.encAt b).taken } ∧ (∀ f : Fld, f.id ≠ R.PG_FENCE_COUNT.id → t.get (pENC b) f = rst (pENC b) f) ∧
    t.get (pENC b) R.PG_FENCE_COUNT = s.get (pENC b) R.PG_FENCE_COUNT ∧ (∀ q f, q ≠ pENC b → t.get q f = s.get q f) ∧ s.sameMemory t
theorem State.softStart_enc (s : State) (b : Bar) (hpair : s.straps.pairEn = false) : encAtReset s (s.softStart (pENC b) false) b := by
  have hblk := blkOf_enc b b.isLt
  obtain ⟨u, hu⟩ : ∃ u, ({ s with srsts := s.srsts.put (pENC b) { s.srsts.getD (pENC b) {} with running := true, since := s.tick, due := false } } :
      State).updEnc b (fun e => { taken := e.taken }) = u := ⟨_, rfl⟩
  have henc : u.encAt b = { taken := (s.encAt b).taken } := by
    rw [← hu, State.encAt_upd_self]
    rfl
  have huget : ∀ q f, u.get q f = s.get q f := fun q f => by
    rw [← hu]
    rfl
  have humem : s.sameMemory u := by
    rw [← hu]
    exact ⟨rfl, rfl, rfl, rfl, rfl⟩
  have hustrap : u.straps = s.straps := by
    rw [← hu]
    rfl
  obtain ⟨v, hv⟩ : ∃ v, u.softRegs (pENC b) .enc b = v := ⟨_, rfl⟩
  have hshape : ∃ x y z w, v = { u with regs := u.regs.dropPage (pENC b) (u.softKeeps .enc), latch := x, pendv := y, appl := z, commits := w } :=
    ⟨_, _, _, _, hv.symm⟩
  obtain ⟨x, y, z, w, hshape⟩ := hshape
  have hstart : s.softStart (pENC b) false = v := by
    have hclear : s.softStart (pENC b) false = s.pairRise v 0 0 := by
      unfold State.softStart State.softClear
      dsimp only
      rw [hblk]
      dsimp only
      rw [← hv, ← hu]
      rfl
    have hstrap : v.straps = s.straps := by
      rw [hshape]
      exact hustrap
    rw [hclear, State.pairRise, if_pos (by simp [hstrap, hpair])]
  have hvget : ∀ q f, v.get q f = ({ u with regs := u.regs.dropPage (pENC b) (u.softKeeps .enc) } : State).get q f := fun q f => by
    rw [hshape]
    rfl
  have hkeeps : ∀ id, u.softKeeps .enc id = (id == R.PG_FENCE_COUNT.id) := fun id => Bool.or_false _
  rw [hstart]
  refine ⟨?_, fun f hf => ?_, ?_, fun q f hq => ?_, ?_⟩
  · rw [hshape]
    exact henc
  · rw [hvget, u.get_dropPage_gone _ _ (by rw [hkeeps]; simpa using hf)]
  · rw [hvget, u.get_dropPage_kept _ _ (Or.inr (by rw [hkeeps]; simp)), huget]
  · rw [hvget, u.get_dropPage_kept _ _ (Or.inl hq), huget]
  · rw [hshape]
    exact humem
theorem encAtReset_of_keeps {s u t : State} {b : Bar} (henc : u.encAt b = s.encAt b)
    (hcount : u.get (pENC b) R.PG_FENCE_COUNT = s.get (pENC b) R.PG_FENCE_COUNT) (hget : ∀ q f, q ≠ pENC b → u.get q f = s.get q f) (hmem : s.sameMemory u)
    (h : encAtReset u t b) : encAtReset s t b := by
  obtain ⟨h1, h2, h3, h4, h5⟩ := h
  exact ⟨henc ▸ h1, h2, h3.trans hcount, fun q f hq => (h4 q f hq).trans (hget q f hq), State.sameMemory_of_same hmem h5⟩
theorem State.enWrite_enc (s : State) (b : Bar) (en : Bool) : s.enWrite (pENC b) en = s ∨ s.enWrite (pENC b) en = s.setFlag (pENC b) R.PG_CTRL_EN en := by
  unfold State.enWrite
  rw [blkOf_enc b b.isLt]
  dsimp only
  split
  · exact Or.inl rfl
  · exact Or.inr rfl
theorem waitBar_enc (b : Bar) : waitBar (pENC b) = none := by
  unfold waitBar
  rw [blkOf_enc b b.isLt]
/-- An encoder page whose soft reset is asked for is at its soft-reset state at once. -/
theorem State.softRequest_enc (u : State) (b : Bar) (release : Bool) (hpair : u.straps.pairEn = false) :
    encAtReset u (u.softRequest (pENC b) release) b ∧ ((u.softRequest (pENC b) release).srsts.getD (pENC b) {}).running = true := by
  rw [State.softRequest_starts (Or.inl (waitBar_enc b)), State.softStart_running]
  refine ⟨?_, rfl⟩
  exact encAtReset_of_keeps (s := u) rfl rfl (fun _ _ _ => rfl) ⟨rfl, rfl, rfl, rfl, rfl⟩ ((u.srstAsked (pENC b) release).softStart_enc b hpair)

/-- Settles O8: a soft reset starts on its page whatever the block, and no block's own reset takes the page's running reset back. -/
theorem softResetAtTheWrite : Obligations.SoftResetAtTheWrite := by
  unfold Obligations.SoftResetAtTheWrite
  refine ⟨fun s p en b h hf hen hon hb hrun => ?_, fun s p en h hf hstart => ?_, fun s p en srst h hf => ⟨fun hno => ?_, fun e hhas he hnow => ?_⟩,
    fun s b en srst hpair => ⟨fun h hf => ?_, fun h hf hno => ?_⟩⟩
  · rw [exec_srst h hf, State.enWrite_stands (hen.trans hon.symm), State.softRequest_waits hb hen hf hrun]
    exact ⟨_, rfl, s.srstAsked_shows rfl⟩
  · rw [exec_srst h hf, State.softRequest_starts (hstart.imp id Or.inr)]
    rfl
  · rw [exec_fenceRel h hf, fenceRel_noLate hno]
  · exact ⟨_, exec_fenceRel h hf, fenceRel_late hhas he hnow⟩
  · have hexec := exec_srst (s := s) (p := ⟨pENC b, by unfold pENC; omega⟩) (en := en) h hf
    obtain ⟨u, hu⟩ : ∃ u, s.enWrite (pENC b) en = u := ⟨_, rfl⟩
    have hkeeps : u.encAt b = s.encAt b ∧ u.get (pENC b) R.PG_FENCE_COUNT = s.get (pENC b) R.PG_FENCE_COUNT ∧
        (∀ q f, q ≠ pENC b → u.get q f = s.get q f) ∧ s.sameMemory u ∧ u.straps = s.straps := by
      rcases s.enWrite_enc b en with h | h
      · rw [← hu, h]
        exact ⟨rfl, rfl, fun _ _ _ => rfl, ⟨rfl, rfl, rfl, rfl, rfl⟩, rfl⟩
      · rw [← hu, h]
        exact ⟨rfl, s.get_setFlag_ne _ (Or.inr (by decide)), fun q f hq => s.get_setFlag_ne _ (Or.inl hq), ⟨rfl, rfl, rfl, rfl, rfl⟩, rfl⟩
    obtain ⟨henc, hcount, hget, hmem, hstrap⟩ := hkeeps
    obtain ⟨hreset, hrun⟩ := u.softRequest_enc b false (by rw [hstrap]; exact hpair)
    obtain ⟨h1, h2, h3, h4, h5⟩ := encAtReset_of_keeps henc hcount hget hmem hreset
    exact ⟨_, hexec, hu ▸ h1, hu ▸ hrun, hu ▸ h2, hu ▸ h3, hu ▸ h4, hu ▸ h5⟩
  · have hexec := exec_fenceRel (s := s) (p := ⟨pENC b, by unfold pENC; omega⟩) (en := en) (srst := srst) h hf
    rw [fenceRel_noLate hno] at hexec
    obtain ⟨u, hu⟩ : ∃ u, s.set (pENC b) R.PG_FENCE_FENCED 0 = u := ⟨_, rfl⟩
    have hcount : u.get (pENC b) R.PG_FENCE_COUNT = s.get (pENC b) R.PG_FENCE_COUNT := hu ▸ s.get_set_field _ _ (by decide)
    have hget : ∀ q f, q ≠ pENC b → u.get q f = s.get q f := fun q f hq => hu ▸ s.get_set_ne _ (Or.inl hq)
    have hrest : u.encAt b = s.encAt b ∧ s.sameMemory u ∧ u.straps = s.straps := by
      rw [← hu]
      exact ⟨rfl, ⟨rfl, rfl, rfl, rfl, rfl⟩, rfl⟩
    obtain ⟨hreset, hrun⟩ := u.softRequest_enc b true (by rw [hrest.2.2]; exact hpair)
    obtain ⟨h1, h2, h3, h4, h5⟩ := encAtReset_of_keeps hrest.1 hcount hget hrest.2.1 hreset
    have hfen : (u.softRequest (pENC b) true).fenced (pENC b) = false := by
      have hrst : ∀ b : Bar, rst (pENC b) R.PG_FENCE_FENCED = 0 := by decide
      unfold State.fenced State.flag
      rw [h2 _ (by decide), hrst]
      rfl
    exact ⟨_, hexec, hu ▸ h1, hu ▸ hfen, hu ▸ hrun, hu ▸ h2, hu ▸ h3, hu ▸ h4, hu ▸ h5⟩

end Sys2Proof.Machine
end

section
/-! ### Disarming a compare unit (O19): the case that fails

DISARM stores SW_EN as it stands with the command bit, as FORCE_KEY stores KEY_INT (O30). -/
open Sys2Proof Sys2Proof.Machine
namespace Sys2Proof.Machine

/-- Compare unit 0 with SW_EN listed at 0, the value that it reads at reset. -/
def listedUnit : State := listedAtReset pTIME (R.TIME_CMP_CTRL_SW_EN.nth 16 0)

theorem timeCmpDisarm_drops :
    readAfter (.timeCmpDisarm 0) listedUnit pTIME (otherReset (R.TIME_CMP_CTRL_SW_EN.nth 16 0)) = some 1 ∧
      listedUnit.get pTIME (otherReset (R.TIME_CMP_CTRL_SW_EN.nth 16 0)) = 0 := by decide +kernel
theorem timeCmpDisarm_accepted :
    listedUnit.accepts pTIME (0x108 + 16 * (0 : CmpUnit)) (1 + 256 * listedUnit.get pTIME (R.TIME_CMP_CTRL_SW_EN.nth 16 (0 : CmpUnit))) ∧
      listedUnit.get pTIME (R.TIME_CMP_CTRL_SW_EN.nth 16 (0 : CmpUnit)) = 0 := by
  unfold State.accepts
  decide +kernel
/-- Refutes O19: DISARM stores SW_EN again, which drops an entry that lists it at its reset value 0, and the clause for SW_EN 0 asks that
every field but ARMED, one of the same place with another reset value too, reads as before. -/
theorem not_compareUnits : ¬ Obligations.CompareUnits := by
  unfold Obligations.CompareUnits
  rintro ⟨-, hdisarm, -⟩
  obtain ⟨hacc, hen⟩ := timeCmpDisarm_accepted
  obtain ⟨t, ht, -, -, -, -, hregs⟩ := hdisarm listedUnit 0 hacc
  obtain ⟨hafter, hbefore⟩ := timeCmpDisarm_drops
  have hsame := hregs hen pTIME (otherReset (R.TIME_CMP_CTRL_SW_EN.nth 16 0)) (by decide)
  simp [readAfter, ht, hsame, hbefore] at hafter

end Sys2Proof.Machine
end

section
/-! ### A line boundary at a PIPE page whose soft reset waits (O32): the case that fails

The page works, a soft reset of it waits for its boundary, and an uncorrectable byte fences it at the boundary: the cause is kept, the
page is from then on in reset, and the swap that is due stays armed while the page is not fenced. -/
open Sys2Proof Sys2Proof.Machine
namespace Sys2Proof.Machine

/-- A swap of table 0 that is due at the next boundary. -/
def dueSwap : ArmedSwap := { whn := 0, tables := 1, line := 0 }
/-- A line of bar 0 is due; a soft reset of its PIPE page waits, with a swap armed and a table error to fence for. -/
def waitingReset : State :=
  { State.reset with
    inReset := false, heldReset := false, heldClock := false, pll := true, tick := 100
    regs := [((pLINE 0, R.PG_CTRL_EN.id), 1), ((pPIPE 0, R.PG_CTRL_EN.id), 1)]
    line := [(0, { due := true })]
    srsts := [(pPIPE 0, {})]
    pipe := [(0, { armed := some dueSwap, fenceNext := some (1, 0) })] }
/-- What the boundary leaves of bar 0: the armed swap, and whether its PIPE page is fenced. -/
def swapAfter (s : State) : Option (Option ArmedSwap × Bool) :=
  match exec (.lineBoundary 0 true) s with
  | .next t => some ((t.pipeAt 0).armed, t.fenced (pPIPE 0))
  | _ => none

theorem waitingReset_issues : waitingReset.lineReadyToIssue 0 = true ∧ (waitingReset.pipeAt 0).armed = some dueSwap ∧
    waitingReset.resetting (pPIPE 0) = false ∧ (waitingReset.pipeAt 0).copy = none := by decide +kernel
theorem waitingReset_keepsSwap : swapAfter waitingReset = some (some dueSwap, false) := by decide +kernel

/-- Refutes O32: at the boundary of `waitingReset` the fence's cause is kept for the soft reset that waits, which puts the page in reset
before the swap that is due: it stays armed on a page that is not fenced. -/
theorem not_lineBoundariesIssueLines : ¬ Obligations.LineBoundariesIssueLines := by
  unfold Obligations.LineBoundariesIssueLines
  intro h
  obtain ⟨hissues, harmed, hrst, hcopy⟩ := waitingReset_issues
  obtain ⟨t, ht, -, -, -, -, -, -, -, -, -, hswap, -⟩ := (h waitingReset 0 true).2 hissues
  have hafter := waitingReset_keepsSwap
  simp only [swapAfter, ht, Option.some.injEq, Prod.mk.injEq] at hafter
  obtain ⟨hkept, hunfenced⟩ := hafter
  obtain ⟨-, -, hgone, -⟩ := (hswap dueSwap harmed hrst hunfenced hcopy).1 (Or.inl rfl)
  have hboth : some dueSwap = none := hkept.symm.trans hgone
  cases hboth

end Sys2Proof.Machine
end

section
/-! ### A burst into a rank of 64 bytes (O36): the case that fails

The size of a rank is what the SPD of the board says, any number in a state: with 64 bytes to a rank and both logical ranks in one
physical rank, two bursts one after the other are kept in one place, and the second takes the place of the first. -/
open Sys2Proof Sys2Proof.Machine
namespace Sys2Proof.Machine

/-- A descriptor that takes 128 bytes from the host to DRAM address 0. -/
def smallRankDesc : Desc :=
  { next := 0, dstT := 0, srcT := 1, irq := false, last := true, src := 0, dst := 0, len := 128, srcRing := 0, dstRing := 0 }
/-- Two bursts of different bytes. -/
def twoBursts : List Byte := List.replicate 64 1 ++ List.replicate 64 2
/-- Channel 0 runs the descriptor in bursts of 128 bytes, on trained DRAM whose two ranks hold 64 bytes each. -/
def smallRanks : State :=
  { State.reset with
    inReset := false, heldReset := false, heldClock := false, pll := true, tick := 100, host := { ready := true }
    boot := { State.reset.boot with spd := [{ dimms := 1, ranksPerDimm := 2, rankLog2 := 6 }] }
    dram := (List.range 4).map fun c => (c, { trained := true })
    regs := [((pDMA 0, R.PG_CTRL_EN.id), 1), ((pDMA 0, R.DMA_CTRL.id), 1), ((pHOSTIF, R.HOSTIF_LINK_BME.id), 1)]
    dma := [(0, { st := 1, desc := some smallRankDesc })] }
/-- What channel 0 starts its burst from. -/
def smallRanksGo : State := smallRanks.dmaGo 0
/-- The state that takes the burst. -/
def smallRanksTurn : State :=
  ({ smallRanksGo with lastDma := smallRanksGo.lastDma.put (smallRanksGo.dmaLevel 0 smallRankDesc) 0 } : State).dmaEval 0

theorem smallRanksGo_next : (smallRanksGo.dmaAt (0 : DmaCh)).desc = some smallRankDesc ∧
    smallRanksGo.dmaGrant = some (0 : DmaCh).val := by decide +kernel
theorem smallRanksTurn_moves : smallRanksTurn.burstLen 0 smallRankDesc = 128 ∧ smallRanksTurn.hostOk = true ∧
    smallRanksTurn.dstAddr 0 smallRankDesc (smallRanksTurn.dmaAt 0).taken = 0 ∧ 0 < smallRanksTurn.dramSize ∧
    (smallRanksTurn.dmaAt 0).staging = [] := by decide +kernel
/-- Both bursts have one place. -/
theorem smallRanksTurn_place : smallRanksTurn.burstKey 64 = smallRanksTurn.burstKey 0 := by decide +kernel
theorem smallRanksTurn_source : smallRanksTurn.burstSource 0 smallRankDesc 128 (.ok twoBursts) = (smallRanksTurn, .ok twoBursts) := by
  have hbytes : (twoBursts ++ zeros 128).take 128 = twoBursts := by decide
  unfold State.burstSource
  simp [smallRankDesc, smallRanksTurn_moves.2.1, hbytes]
theorem smallRanksTurn_staged : ∃ y, smallRanksTurn.tagCheck 0 smallRankDesc twoBursts = some y := by
  simp [State.tagCheck, State.tagged, smallRankDesc]

/-- Refutes O36: the bytes of both bursts cannot be read at the one place that both have. -/
theorem not_burstsMoveBytes : ¬ Obligations.BurstsMoveBytes := by
  unfold Obligations.BurstsMoveBytes
  intro h
  obtain ⟨hdesc, hgrant⟩ := smallRanksGo_next
  obtain ⟨hlen, hhost, hdst, hsize, hstaged⟩ := smallRanksTurn_moves
  obtain ⟨y, hstaging⟩ := smallRanksTurn_staged
  obtain ⟨-, hmoves, -⟩ := (h smallRanks smallRanksGo 0 (.ok twoBursts) rfl).2 smallRanksTurn smallRanksTurn smallRanksTurn smallRankDesc
    128 hdesc hgrant rfl rfl hlen.symm
  obtain ⟨w, -, -, -, -, -, -, -, -, hbytes⟩ := hmoves (by decide) twoBursts y smallRanksTurn_source (by decide)
    (fun _ => hdst.symm ▸ hsize) hstaging
  have hread := hbytes rfl hstaged 0 hdst.symm rfl rfl
  have hfirst := hread 0 (by decide)
  have hsecond := hread 64 (by decide)
  have hplace : smallRanksTurn.burstKey (0 + 64 * (64 / 64)) + 64 % 64 = smallRanksTurn.burstKey (0 + 64 * (0 / 64)) + 0 % 64 :=
    smallRanksTurn_place
  rw [hplace, hfirst] at hsecond
  exact absurd hsecond (by decide)

end Sys2Proof.Machine
end

section
/-! ### The BAR2 window (O17) -/
open Sys2Proof Sys2Proof.Machine
namespace Sys2Proof.Machine

/-- States that differ in the registers of SYS alone serve the same requests: no channel of DRAM and none of DMA reads them. -/
structure State.sysApart (s u : State) : Prop where
  get : ∀ q, q ≠ pSYS → ∀ f, u.get q f = s.get q f
  shape : ∃ r, u = { s with regs := r }
theorem State.sysApart_refl (s : State) : s.sysApart s := ⟨fun _ _ _ => rfl, _, rfl⟩
theorem State.sysApart_violate (s : State) (k a : Nat) (w b : Bool) : s.sysApart (s.violate k a w b) := by
  have hregs := s.regsBut_violate k a w b
  have honly := s.violate_regsOnly k a w b
  generalize s.violate k a w b = v at hregs honly
  refine ⟨fun q hq f => hregs q f ?_, v.regs, by rw [← honly]⟩
  simp only [violFields, List.mem_cons, List.not_mem_nil, or_false]
  rintro e (rfl | rfl | rfl | rfl | rfl) <;> exact Or.inl hq
section
variable {s u : State} (h : s.sysApart u)
include h
theorem State.sysApart.apart (c : Nat) : s.dmaApart u c := by
  obtain ⟨r, hu⟩ := h.shape
  exact ⟨fun q hq => h.get q hq.2, fun m _ => by rw [hu]; rfl, r, s.dma, s.host.waiting, hu⟩
theorem State.sysApart.dramServed (lvl a n req : Nat) : u.dramServed lvl a n req = s.dramServed lvl a n req := by
  have hzero := h.apart 0
  have hahead : ∀ ch, u.dmaAhead lvl ch = s.dmaAhead lvl ch := fun ch => by
    unfold State.dmaAhead
    congr 1
    funext m
    -- Each channel is apart from another one.
    obtain ⟨c, hc, hm⟩ : ∃ c < 64, m ≠ c := if hm : m = 0 then ⟨1, by decide, by omega⟩ else ⟨0, by decide, hm⟩
    have hother := h.apart c
    rw [hother.dmaWants hc hm, hother.dma m hm]
    simp only [hother.dmaLevel hc hm, hother.dmaTouches hc hm]
  unfold State.dramServed
  rw [hzero.portFree (by decide), hzero.waitAhead (by decide), hahead]
theorem State.sysApart.waits : u.dramWait = s.dramWait := by
  obtain ⟨r, hu⟩ := h.shape
  rw [hu]
theorem State.sysApart.stores {t : State} {l : List Nat} (k : u.dramStores t l) : s.dramStores t l := by
  have hlike := (h.apart 0).like (by decide)
  have hplace : ∀ a, u.dramPlace a = s.dramPlace a := fun a => by
    unfold State.dramPlace
    rw [hlike.geo]
  have hkey : ∀ a, u.burstKey a = s.burstKey a := fun a => by
    unfold State.burstKey
    rw [hplace, hlike.rank]
  have hchk : ∀ a, u.burstChk a = s.burstChk a := fun a => by
    unfold State.burstChk
    rw [hplace, hlike.rank]
  obtain ⟨r, hu⟩ := h.shape
  obtain ⟨hpending, hstore, hflash, hmem, hsum⟩ := k
  refine ⟨by rw [hpending, hu], by rw [hstore, hu], by rw [hflash, hu], fun x hx => ?_, fun x hx => ?_⟩
  · rw [hmem x fun y hy => by rw [hkey]; exact hx y hy, hlike.mem]
  · rw [hsum x fun y hy => by rw [hchk]; exact hx y hy, hlike.chk]
end

/-- The count and the record of an access that reaches beyond DRAM in service. -/
theorem State.kindEight_clause {s u : State} {n g w : Nat} (wr : Bool) (hu : u = if g < n then s.violate 8 w wr true else s) :
    s.sysApart u ∧ (g < n → violated s u 8 w wr true ∧ s.regsBut u violFields ∧ ({ u with regs := s.regs } : State) = s) := by
  split at hu
  · subst hu
    exact ⟨s.sysApart_violate _ _ _ _, fun _ => ⟨s.violated_violate _ _ _ (by decide), s.regsBut_violate _ _ _ _, s.violate_regsOnly _ _ _ _⟩⟩
  · next hg => exact ⟨hu ▸ s.sysApart_refl, fun h => absurd h hg⟩
/-- A request of the BAR2 window waits behind those of the window. -/
theorem State.dramWait_behind (s : State) {r : DramReq} (hr : r.who = 0x48) : s.dramWait.any r.behind = s.bar2Waits := by
  unfold State.bar2Waits
  congr 1
  funext x
  unfold DramReq.behind
  rw [hr]
  simp [eq_comm]
/-- A request of the BAR2 window is served at once, or waits. -/
theorem State.dramAsk_window {s u : State} (h : s.sysApart u) {r : DramReq} {a g : Nat} (hwho : r.who = 0x48) (hat : r.at_ = a) (hlen : r.len = g) :
    (s.dramServed 6 a g 0x48 = true → s.bar2Waits = false → u.dramAsk r = u.reqServe r) ∧
    (s.dramServed 6 a g 0x48 = false ∨ s.bar2Waits = true → u.dramAsk r = { u with dramWait := s.dramWait ++ [r] }) := by
  have hfree : u.reqFree r = s.dramServed 6 a g 0x48 := by
    have hlevel : r.level = 6 := by
      unfold DramReq.level
      rw [hwho]
      rfl
    unfold State.reqFree
    rw [hlevel, hat, hlen, hwho, h.dramServed]
  have hbehind : u.dramWait.any r.behind = s.bar2Waits := by rw [h.waits, s.dramWait_behind hwho]
  unfold State.dramAsk
  rw [hfree, hbehind, h.waits]
  refine ⟨fun hserved hwaits => ?_, fun hwaits => ?_⟩
  · rw [hserved, hwaits]
    rfl
  · rw [if_neg]
    rcases hwaits with hw | hw <;> simp [hw]

theorem State.dramGood_le (s : State) (a n : Nat) : s.dramGood a n ≤ n := by
  unfold State.dramGood
  split
  · exact Nat.min_le_left _ _
  · exact Nat.zero_le _
/-- The access of the window at a served endpoint. -/
theorem exec_bar2Access {s : State} {w : W32} {acc : Access} (hs : s.hostServed = true) (hn : w.toNat + accessLen acc ≤ 2 ^ 32) :
    exec (.bar2Access w acc) s = .next (match acc with
      | .read n =>
        if s.dramGood (s.hostWin + w.toNat) n = 0 then
          { (if s.dramGood (s.hostWin + w.toNat) n < n then s.violate 8 w.toNat false true else s) with rdata := zeros n }
        else (if s.dramGood (s.hostWin + w.toNat) n < n then s.violate 8 w.toNat false true else s).dramAsk
          (.read (s.hostWin + w.toNat) (s.dramGood (s.hostWin + w.toNat) n) (n - s.dramGood (s.hostWin + w.toNat) n))
      | .write l =>
        if s.dramGood (s.hostWin + w.toNat) l.length = 0 then
          if s.dramGood (s.hostWin + w.toNat) l.length < l.length then s.violate 8 w.toNat true true else s
        else (if s.dramGood (s.hostWin + w.toNat) l.length < l.length then s.violate 8 w.toNat true true else s).dramAsk
          (.write (s.hostWin + w.toNat) 0x48 (l.take (s.dramGood (s.hostWin + w.toNat) l.length)))) := by
  have hmin : min (accessLen acc) (2 ^ 32 - w.toNat) = accessLen acc := by omega
  change execBar2Access w acc s = _
  unfold execBar2Access
  dsimp only
  rw [hmin, hs]
  cases acc with
  | read n => rfl
  | write l => rfl

theorem bar2Read_clause (s u : State) (w : W32) (n a g : Nat) (hs : s.hostServed = true) (hn : w.toNat + n ≤ 2 ^ 32)
    (ha : a = s.hostWin + w.toNat) (hg : g = s.dramGood a n) (hu : u = (if g < n then s.violate 8 w.toNat false true else s)) :
    (g = 0 → exec (.bar2Access w (.read n)) s = .next { u with rdata := zeros n }) ∧
    (0 < g → s.dramServed 6 a g 0x48 = true → s.bar2Waits = false →
      ∃ t, exec (.bar2Access w (.read n)) s = .next t ∧ t.rdata = (u.dramRead a g 2 0x48).2.1 ++ zeros (n - g) ∧
        t.dramWait = s.dramWait ∧ s.sameMemory t) ∧
    (0 < g → s.dramServed 6 a g 0x48 = false ∨ s.bar2Waits = true →
      exec (.bar2Access w (.read n)) s = .next { u with dramWait := s.dramWait ++ [.read a g (n - g)] }) ∧
    (g < n → violated s u 8 w.toNat false true ∧ s.regsBut u violFields ∧ ({ u with regs := s.regs } : State) = s) := by
  obtain ⟨happart, hviol⟩ := State.kindEight_clause false hu
  have hexec := exec_bar2Access (acc := .read n) hs hn
  dsimp only at hexec
  rw [← ha, ← hg, ← hu] at hexec
  obtain ⟨hnow, hlater⟩ := State.dramAsk_window (r := .read a g (n - g)) happart rfl rfl rfl
  refine ⟨fun h0 => ?_, fun hpos hserved hwaits => ?_, fun hpos hwaits => ?_, hviol⟩
  · rw [hexec, if_pos h0]
  · rw [hexec, if_neg (by omega), hnow hserved hwaits]
    have hstep := u.dramStep_dramRead a g 2 0x48 []
    have hhold := u.dramRead_hold a g 2 0x48
    obtain ⟨r, hur⟩ := happart.shape
    obtain ⟨r', d, x, m, k, hread⟩ := hstep.shape
    refine ⟨_, rfl, rfl, ?_, ?_⟩
    · change (u.dramRead a g 2 0x48).1.dramWait = _
      rw [hread, hur]
    · have hus : u.hold = s.hold := by rw [hur]; rfl
      rw [hus] at hhold
      simp only [State.hold, Prod.mk.injEq] at hhold
      exact hhold
  · rw [hexec, if_neg (by omega), hlater hwaits]

theorem bar2Write_clause (s u : State) (w : W32) (l : List (Option Byte)) (a g : Nat) (hs : s.hostServed = true) (hn : w.toNat + l.length ≤ 2 ^ 32)
    (ha : a = s.hostWin + w.toNat) (hg : g = s.dramGood a l.length) (hu : u = (if g < l.length then s.violate 8 w.toNat true true else s)) :
    (g = 0 → exec (.bar2Access w (.write l)) s = .next u) ∧
    (0 < g → s.dramServed 6 a g 0x48 = true → s.bar2Waits = false →
      ∃ t, exec (.bar2Access w (.write l)) s = .next t ∧ t = u.dramWriteOpt a (l.take g) 0x48 ∧ t.dramWait = s.dramWait ∧
        t.rdata = s.rdata ∧ s.dramStores t (burstsOf a g)) ∧
    (0 < g → s.dramServed 6 a g 0x48 = false ∨ s.bar2Waits = true →
      exec (.bar2Access w (.write l)) s = .next { u with dramWait := s.dramWait ++ [.write a 0x48 (l.take g)] }) ∧
    (g < l.length → violated s u 8 w.toNat true true ∧ s.regsBut u violFields ∧ ({ u with regs := s.regs } : State) = s) := by
  obtain ⟨happart, hviol⟩ := State.kindEight_clause true hu
  have hexec := exec_bar2Access (acc := .write l) hs hn
  dsimp only at hexec
  rw [← ha, ← hg, ← hu] at hexec
  have hlen : (l.take g).length = g := by
    have := s.dramGood_le a l.length
    rw [List.length_take]
    omega
  obtain ⟨hnow, hlater⟩ := State.dramAsk_window (r := .write a 0x48 (l.take g)) happart rfl rfl hlen
  refine ⟨fun h0 => ?_, fun hpos hserved hwaits => ?_, fun hpos hwaits => ?_, hviol⟩
  · rw [hexec, if_pos h0]
  · rw [hexec, if_neg (by omega), hnow hserved hwaits]
    have hstep := u.dramStep_dramWriteOpt a (l.take g) 0x48
    rw [hlen] at hstep
    have hstores := happart.stores hstep.stores
    obtain ⟨r, hur⟩ := happart.shape
    obtain ⟨r', d, x, m, k, hwrite⟩ := hstep.shape
    exact ⟨_, rfl, rfl, by rw [State.reqServe, hwrite, hur], by rw [State.reqServe, hwrite, hur], hstores⟩
  · rw [hexec, if_neg (by omega), hlater hwaits]

/-- Settles O17: the access is a request of the window, served at once or put behind the others. -/
theorem bar2Window : Obligations.Bar2Window := by
  unfold Obligations.Bar2Window
  refine ⟨fun s w acc h => ?_, bar2Read_clause, bar2Write_clause⟩
  change execBar2Access w acc s = _
  unfold execBar2Access
  dsimp only
  rw [h]
  rfl

end Sys2Proof.Machine
end

section
/-! ### Reads and writes of the line store, byte by byte (R308, R309) -/
open Sys2Proof Sys2Proof.Machine
namespace Sys2Proof.Machine

/-- A read of the line store reports on LSTORE alone. -/
theorem State.lsFound_page (s : State) (a src : Nat) (v : Byte × Nat) {q : Nat} (hq : q ≠ pLSTORE) (f : Fld) :
    (s.lsFound a src v).1.get q f = s.get q f := by
  have hcount : ∀ (t : State) code cause g, (((t.err pLSTORE code src a).incSat pLSTORE g).cause pLSTORE cause).get q f = t.get q f :=
    fun t code cause g => by
      rw [State.get_cause_ne _ _ (Or.inl hq), State.get_incSat_ne _ (Or.inl hq), State.get_err_ne _ _ _ _ _ _ _ (Or.inl hq)]
  have hrepeat : ∀ u : State,
      ((((u.err pLSTORE 0x12 src a).incSat pLSTORE R.LSTORE_REP_CNT).set pLSTORE R.LSTORE_REP_LAST a).cause pLSTORE 5).get q f = u.get q f :=
    fun u => by
      rw [State.get_cause_ne _ _ (Or.inl hq), State.get_set_ne _ _ (Or.inl hq), State.get_incSat_ne _ (Or.inl hq),
        State.get_err_ne _ _ _ _ _ _ _ (Or.inl hq)]
  have hcorrected := hcount s 0x10 3 R.LSTORE_CORR_CNT
  have hlost := hcount s 0x11 4 R.LSTORE_UNC_CNT
  unfold State.lsFound
  dsimp only
  generalize ((s.err pLSTORE 0x10 src a).incSat pLSTORE R.LSTORE_CORR_CNT).cause pLSTORE 3 = t at hcorrected ⊢
  generalize ((s.err pLSTORE 0x11 src a).incSat pLSTORE R.LSTORE_UNC_CNT).cause pLSTORE 4 = l at hlost ⊢
  generalize t.lsRep.correct a = r
  have hrep : ({ t with lsRep := r.1 } : State).get q f = s.get q f := hcorrected
  generalize ({ t with lsRep := r.1 } : State) = u at hrep ⊢
  have hagain := (hrepeat u).trans hrep
  generalize (((u.err pLSTORE 0x12 src a).incSat pLSTORE R.LSTORE_REP_CNT).set pLSTORE R.LSTORE_REP_LAST a).cause pLSTORE 5 = w at hagain ⊢
  split_ifs
  · rfl
  · exact hagain
  · exact hrep
  · exact hlost
theorem State.lsReads_page (l : List (Option Byte)) (s : State) (src a : Nat) {q : Nat} (hq : q ≠ pLSTORE) (f : Fld) :
    (s.lsReads src a l).1.get q f = s.get q f := by
  induction l generalizing s a with
  | nil => rfl
  | cons o r ih => exact (ih _ (a + 1)).trans (s.lsFound_page a src _ hq f)
theorem State.lsBytes_page (s : State) (a n src : Nat) {q : Nat} (hq : q ≠ pLSTORE) (f : Fld) : (s.lsBytes a n src).1.get q f = s.get q f :=
  s.lsReads_page _ src a hq f
theorem State.lsBytes_reports (s : State) (a n src : Nat) (hwf : Memory.wf s.lstore = true) : s.lsReports (s.lsBytes a n src).1 :=
  (s.lsRead_spec a n src hwf).1
theorem State.lsLook_held {s : State} {k : Nat} {b : Byte} (h : Memory.get s.lstore k = some b) (he : s.lsErr.getD k 0 = 0) :
    s.lsLook k = (b, 0) := by
  simp [State.lsLook, State.lsSeen, h, he]
/-- Bytes that are held clean are read as they are, and nothing changes. -/
theorem State.lsBytes_held {s : State} (hwf : Memory.wf s.lstore = true) {a : Nat} {l : List Byte} (h : lsHolds s a l) (src : Nat) :
    s.lsBytes a l.length src = (s, l, true) := by
  have hlook : ∀ i (hi : i < l.length), s.lsLook (a + i) = (l[i], 0) := fun i hi =>
    State.lsLook_held ((h i hi).1.trans (List.getElem?_eq_getElem hi)) (h i hi).2
  have hread : (s.lsRead a l.length src).2 = l.map some := by
    rw [(s.lsRead_spec a l.length src hwf).2]
    refine List.ext_getElem (by simp) fun i hi _ => ?_
    rw [List.length_map, List.length_range] at hi
    simp [hlook i hi, lsAnswer]
  unfold State.lsBytes
  dsimp only
  rw [hread, s.lsRead_clean a l.length src hwf fun i hi => by rw [hlook i hi]]
  simp
/-- A read of a byte that is uncorrectable is not good. -/
theorem State.lsBytes_lost {s : State} (hwf : Memory.wf s.lstore = true) {a n i : Nat} (hi : i < n)
    (hb : (Memory.get s.lstore (a + i)).isSome = true) (he : s.lsErr.getD (a + i) 0 = 2) (src : Nat) : (s.lsBytes a n src).2.2 = false := by
  have hlook : (s.lsLook (a + i)).2 = 2 := by
    obtain ⟨b, hb⟩ := Option.isSome_iff_exists.1 hb
    simp [State.lsLook, State.lsSeen, hb, he]
  change (s.lsRead a n src).2.all (·.isSome) = false
  rw [(s.lsRead_spec a n src hwf).2, List.all_eq_false]
  exact ⟨_, List.mem_map.2 ⟨i, List.mem_range.2 hi, rfl⟩, by simp [lsAnswer, hlook]⟩

/-! ### A staging buffer (R81) -/

/-- Place i of a ring of `size` bytes from a. -/
def ringPlace (a size i : Nat) : Nat := a + i % size
theorem ringPlace_near {a size i : Nat} (h : i % size + j < size) : ringPlace a size (i + j) = a + i % size + j := by
  unfold ringPlace
  rw [Nat.add_mod, Nat.mod_eq_of_lt (show j < size by omega), Nat.mod_eq_of_lt h]
  omega
theorem ringPlace_far {a size i j : Nat} (hj : j < size) (h : size ≤ i % size + j) : ringPlace a size (i + j) = a + (i % size + j - size) := by
  unfold ringPlace
  rw [Nat.add_mod, Nat.mod_eq_of_lt hj, Nat.mod_eq_sub_mod h, Nat.mod_eq_of_lt (a := i % size + j - size)
    (by have := Nat.mod_lt i (show 0 < size by omega); omega)]
theorem State.lsRingRead_page (s : State) (a size i n src : Nat) {q : Nat} (hq : q ≠ pLSTORE) (f : Fld) :
    (s.lsRingRead a size i n src).1.get q f = s.get q f :=
  (State.lsBytes_page _ _ _ _ hq f).trans (s.lsBytes_page _ _ _ hq f)
theorem State.lsReports.wf {s t : State} (h : s.lsReports t) (hwf : Memory.wf s.lstore = true) : Memory.wf t.lstore = true := by
  rw [h.memory.2.1]
  exact hwf
theorem State.lsRingRead_reports (s : State) (a size i n src : Nat) (hwf : Memory.wf s.lstore = true) :
    s.lsReports (s.lsRingRead a size i n src).1 := by
  have h := s.lsBytes_reports (a + i % size) (min n (size - i % size)) src hwf
  exact h.trans (State.lsBytes_reports _ _ _ _ (h.wf hwf))
/-- Bytes that stand clean in a ring are read as they are. -/
theorem State.lsRingRead_held {s : State} (hwf : Memory.wf s.lstore = true) {a size i : Nat} {l : List Byte} (hsize : l.length ≤ size)
    (h : ∀ j < l.length, Memory.get s.lstore (ringPlace a size (i + j)) = l[j]? ∧ s.lsErr.getD (ringPlace a size (i + j)) 0 = 0) (src : Nat) :
    s.lsRingRead a size i l.length src = (s, l, true) := by
  obtain ⟨m, hm⟩ : ∃ m, min l.length (size - i % size) = m := ⟨_, rfl⟩
  have hfirst : lsHolds s (a + i % size) (l.take m) := fun j hj => by
    rw [List.length_take] at hj
    rw [← ringPlace_near (by omega), List.getElem?_take_of_lt (by omega)]
    exact h j (by omega)
  have hsecond : lsHolds s a (l.drop m) := fun j hj => by
    rw [List.length_drop] at hj
    have hlt := Nat.mod_lt i (show 0 < size by omega)
    have hp : ringPlace a size (i + (m + j)) = a + j := by
      rw [ringPlace_far (by omega) (by omega)]
      omega
    rw [← hp, List.getElem?_drop]
    exact h (m + j) (by omega)
  have hf := State.lsBytes_held hwf hfirst src
  have hs := State.lsBytes_held hwf hsecond src
  rw [List.length_take, Nat.min_eq_left (by omega)] at hf
  rw [List.length_drop, show l.length - m = l.length - (size - i % size) by omega] at hs
  unfold State.lsRingRead
  dsimp only
  rw [hm, hf]
  dsimp only
  rw [hs]
  dsimp only
  rw [List.take_append_drop, Bool.and_self]
theorem State.lsRingRead_lost {s : State} (hwf : Memory.wf s.lstore = true) {a size i n j : Nat} (hn : n ≤ size) (hj : j < n)
    (hb : (Memory.get s.lstore (ringPlace a size (i + j))).isSome = true) (he : s.lsErr.getD (ringPlace a size (i + j)) 0 = 2) (src : Nat) :
    (s.lsRingRead a size i n src).2.2 = false := by
  have hlt := Nat.mod_lt i (show 0 < size by omega)
  unfold State.lsRingRead
  dsimp only
  by_cases hnear : i % size + j < size
  · rw [ringPlace_near hnear] at hb he
    rw [State.lsBytes_lost hwf (show j < min n (size - i % size) by omega) hb he]
    rfl
  · rw [ringPlace_far (by omega) (by omega)] at hb he
    have hrep := s.lsBytes_reports (a + i % size) (min n (size - i % size)) src hwf
    have herr : (s.lsBytes (a + i % size) (min n (size - i % size)) src).1.lsErr = s.lsErr := by
      obtain ⟨r, w, e, hrep⟩ := hrep
      rw [hrep]
    rw [State.lsBytes_lost (hrep.wf hwf) (show i % size + j - size < n - (size - i % size) by omega) (by rw [hrep.memory.2.1]; exact hb)
      (by rw [herr]; exact he), Bool.and_false]

/-! ### Bytes written -/

theorem NMap.getD_filter {α : Type} (m : NMap α) (g : Nat → Bool) (k : Nat) (d : α) :
    NMap.getD (List.filter (fun e => g e.1) m) k d = if g k then NMap.getD m k d else d := by
  induction m with
  | nil => simp [NMap.getD]
  | cons e r ih =>
    obtain ⟨j, v⟩ := e
    by_cases hg : g j = true
    · rw [List.filter_cons_of_pos (by simpa using hg), NMap.getD, NMap.getD, ih]
      by_cases hk : j = k
      · rw [if_pos hk, if_pos hk, if_pos (hk ▸ hg)]
      · rw [if_neg hk, if_neg hk]
    · rw [List.filter_cons_of_neg (by simpa using hg), ih, NMap.getD]
      by_cases hk : j = k
      · subst hk
        rw [if_neg hg, if_neg hg]
      · rw [if_neg hk]
/-- Bytes that are written are held clean. -/
theorem State.lsWrite_holds (s : State) (a : Nat) (l : List Byte) : lsHolds (s.lsWrite a l) a l := fun i hi => by
  refine ⟨(Memory.get_puts _ _ _ _).trans ?_, (NMap.getD_filter _ (fun k => decide (k < a) || decide (a + l.length ≤ k)) _ _).trans ?_⟩
  · rw [if_pos (by omega), Nat.add_sub_cancel_left]
  · rw [if_neg]
    simp only [Bool.or_eq_true, decide_eq_true_eq]
    omega
/-- Bytes apart from those written are held as before. -/
theorem State.lsWrite_holds_apart {s : State} {k : Nat} {m : List Byte} (h : lsHolds s k m) {a : Nat} {l : List Byte}
    (hk : k + m.length ≤ a ∨ a + l.length ≤ k) : lsHolds (s.lsWrite a l) k m := fun i hi => by
  obtain ⟨hg, he⟩ := h i hi
  refine ⟨(Memory.get_puts _ _ _ _).trans ?_, (NMap.getD_filter _ (fun k => decide (k < a) || decide (a + l.length ≤ k)) _ _).trans ?_⟩
  · rw [if_neg (by omega), hg]
  · rw [if_pos, he]
    simp only [Bool.or_eq_true, decide_eq_true_eq]
    omega
theorem lsHolds_take {s : State} {a : Nat} {l : List Byte} (h : lsHolds s a l) (n : Nat) : lsHolds s a (l.take n) := fun i hi => by
  rw [List.length_take] at hi
  rw [List.getElem?_take_of_lt (by omega)]
  exact h i (by omega)

/-! ### A set that applies at a boundary (R43) -/

/-- Where the applied copies stand once the page's boundary event has come. -/
theorem State.applyPlain_appl (s : State) (p : Nat) : (s.applyPlain p).appl =
    if !s.commitDue p || !(s.commits.getD p {}).plain then s.appl else (s.applyFields p p true false).appl := by
  unfold State.applyPlain
  split
  · rfl
  · obtain ⟨r, w, hdone⟩ := (s.applyFields p p true false).genDone_frame p
    dsimp only
    rw [hdone]
    split_ifs <;> rfl
/-- A boundary event of a page changes its applied copies and what it shows of the set. -/
theorem State.applyPlain_frame (s : State) (p : Nat) :
    s.regsBut (s.applyPlain p) [(p, R.PG_GEN_APPL_GEN), (p, R.PG_GEN_PENDING), (p, R.PG_IRQ_RAW)] ∧
    (∀ q f, q ≠ p → (s.applyPlain p).ap q f = s.ap q f) ∧
    ∃ r m c w, s.applyPlain p = { s with regs := r, appl := m, commits := c, host := { s.host with waiting := w } } := by
  have hother : ∀ q f, q ≠ p → (s.applyFields p p true false).ap q f = s.ap q f := fun q f hq =>
    congrArg (Option.getD · (rst q f)) (RegMap.find_copyPage_ne s.pendv s.appl p p _ f.id hq)
  have hfields : s.regsBut (s.applyFields p p true false) [(p, R.PG_GEN_APPL_GEN), (p, R.PG_GEN_PENDING), (p, R.PG_IRQ_RAW)] := s.regsBut_refl _
  refine ⟨?_, fun q f hq => ?_, ?_⟩
  · have hdone := State.regsBut_genDone hfields (fun _ h => h)
    unfold State.applyPlain
    split
    · exact s.regsBut_refl _
    · dsimp only
      split_ifs
      · exact hfields
      · exact hdone
      · exact hfields
      · exact hdone
  · have happl := s.applyPlain_appl p
    unfold State.ap
    rw [happl]
    split
    · rfl
    · exact hother q f hq
  · obtain ⟨r, w, hdone⟩ := (s.applyFields p p true false).genDone_frame p
    unfold State.applyPlain
    split
    · exact ⟨_, _, _, _, rfl⟩
    · dsimp only
      rw [hdone]
      split_ifs <;> exact ⟨_, _, _, _, rfl⟩
/-- The copies that apply are told by the set, the page's fields and the tick. -/
theorem State.applyPlain_ap_congr {s u : State} (p : Nat) (hcommits : u.commits = s.commits) (htick : u.tick = s.tick) (hpend : u.pendv = s.pendv)
    (happl : u.appl = s.appl) (q : Nat) (f : Fld) : (u.applyPlain p).ap q f = (s.applyPlain p).ap q f := by
  unfold State.ap
  rw [u.applyPlain_appl, s.applyPlain_appl]
  unfold State.commitDue State.applyFields
  rw [hcommits, htick, hpend, happl]

end Sys2Proof.Machine
end

section
/-! ### The encoder takes an item (O27) -/
open Sys2Proof Sys2Proof.Machine
namespace Sys2Proof.Machine

/-- The error of a segment line: 0x11 before 0x30 (R79). -/
def State.encFault (s : State) (b sline hi : Nat) (lost bad : Bool) : State :=
  if lost then s.err (pENC b) 0x11 0 sline hi
  else if bad then ((s.err (pENC b) 0x30 0 sline hi).incSat (pENC b) R.ENC_CHK_CNT).cause (pENC b) 3
  else s
/-- The bytes taken and given. -/
def State.encFlow (s : State) (b n k : Nat) : State :=
  (s.add64 (pENC b) R.ENC_IN_LO R.ENC_IN_HI n).add64 (pENC b) R.ENC_OUT_LO R.ENC_OUT_HI k
/-- What the counters take of a record. -/
def State.encTally (s : State) (b esc : Nat) (key : Bool) : State :=
  let s := (if esc = 0 then s.incWrap (pENC b) R.ENC_REC_CNT else (s.incWrap (pENC b) R.ENC_REC_CNT).addSat (pENC b) R.ENC_ESC_CNT esc)
  if key then s.incWrap (pENC b) R.ENC_KEY_CNT else s
/-- What the encoder notes of a segment line. -/
def EncSt.noted (e : EncSt) (c sline seg : Nat) (key bad live last : Bool) : EncSt :=
  { e with
      ctxValid := e.ctxValid ||| 2 ^ c
      chkPrev := setBit e.chkPrev c bad
      forceKey := setBit e.forceKey c false
      lastKey := if key then e.lastKey.put c sline else e.lastKey
      ordBase := if live then e.ordBase else if last then none else some (sline, seg)
      ordLive := if live then (if last then none else some (sline, seg)) else e.ordLive }
/-- The context takes the line. -/
def State.encPlaced (s : State) (a sline : Nat) (raw : List Byte) : State := (s.lsWrite a raw).lsWrite (a + 0xC00) (leBytes 4 sline)
/-- The record goes out and is noted. -/
def State.encSent (s : State) (b c sline seg : Nat) (raw : List Byte) (out : List Byte × Nat) (key bad lost live last : Bool) : State :=
  (((((s.encFault b sline (seg + 16 * b2n live) lost bad).encPlaced (encCtx b seg live) sline raw).encFlow b raw.length out.1.length).encTally b out.2 key).updEnc b
    fun e => e.noted c sline seg key bad live last).enqueue (0x28 + b) { bytes := out.1, last := last }
/-- The encoder makes the line a KEY record. -/
def State.encKey (s : State) (b c sline : Nat) (prev : Option (List Byte)) (e : EncSt) : Bool :=
  prev.isNone || bit e.chkPrev c || bit e.forceKey c
      || (s.ap (pENC b) R.ENC_CTRL_KEY_INT != 0 && match e.lastKey.find? fun k => k.1 == c with
            | some k => decide ((s.ap (pENC b) R.ENC_CTRL_KEY_INT : Int) ≤ diff32 sline k.2)
            | none => false)

section
variable {s v : State} {b : Nat} {tag : List Byte} {i seg sline : Nat} {live dot : Bool} (hv : s.applyPlain (pENC b) = v)
  (hseg : seg = byteAt tag 2 / 16) (hdot : dot = bit (byteAt tag 2) 0) (hlive : live = bit (byteAt tag 3) 1) (hsline : sline = leAt tag 4 4)
include hv hseg hlive hsline
theorem State.encodeItem_disorder (h : inOrder (if live then (v.encAt b).ordLive else (v.encAt b).ordBase) live sline seg = false) :
    s.encodeItem b tag i = ((v.err (pENC b) 0x31 0 sline (seg + 16 * b2n live)).incSat (pENC b) R.ENC_ORD_CNT).cause (pENC b) 4 := by
  subst hv hseg hlive hsline
  unfold State.encodeItem
  dsimp only
  rw [if_pos (by simp [h])]
include hdot
theorem State.encodeItem_ordered (h : inOrder (if live then (v.encAt b).ordLive else (v.encAt b).ordBase) live sline seg = true)
    {u w : State} {raw : List Byte} {ok good : Bool} {prev : Option (List Byte)} (hstage : v.stageOut b i (leAt tag 0 2) = (u, raw, ok))
    (hprev : u.encPrev b seg live dot sline = (w, prev, good)) {key bad : Bool} {out : List Byte × Nat}
    (hkey : key = w.encKey b (2 * seg + b2n live) sline prev (v.encAt b)) (hbad : bad = (!ok || crc32 raw != leAt tag 8 4))
    (hout : out = encodeRaw ⟨byteAt tag 2 / 2 % 8, seg, live, sline, dot⟩ raw (if key then zeros raw.length else prev.getD []) key bad (leAt tag 8 4)) :
    s.encodeItem b tag i = w.encSent b (2 * seg + b2n live) sline seg raw out key bad (!ok || !good) live (bit (byteAt tag 3) 2) := by
  subst hv hseg hdot hlive hsline
  unfold State.encodeItem
  dsimp only
  rw [if_neg (by simp [h]), hstage]
  dsimp only
  rw [hprev]
  dsimp only
  subst hkey hbad hout
  rfl
end

/-! ### What a record shows -/

section
variable (s : State) (b : Nat)
theorem State.encFault_good (sline hi : Nat) : s.encFault b sline hi false false = s := rfl
/-- The fields that an error of the encoder moves. -/
theorem State.encFault_spec (sline hi : Nat) (lost bad : Bool) {t : State} (ht : s.encFault b sline hi lost bad = t) :
    s.regsBut t ((pENC b, R.ENC_CHK_CNT) :: errFields (pENC b)) ∧ s.reports t ∧
    (s.fenced (pENC b) = false → lost = true → (s.get (pENC b) R.PG_ERR_CNT = 0 → t.get (pENC b) R.PG_ERR_INFO_CODE = 0x11) ∧
      t.get (pENC b) R.ENC_CHK_CNT = s.get (pENC b) R.ENC_CHK_CNT) ∧
    (s.fenced (pENC b) = false → lost = false → bad = true → bit (t.get (pENC b) R.PG_IRQ_RAW) 3 = true ∧
      (s.get (pENC b) R.PG_ERR_CNT = 0 → t.get (pENC b) R.PG_ERR_INFO_CODE = 0x30) ∧
      t.get (pENC b) R.ENC_CHK_CNT = min (s.get (pENC b) R.ENC_CHK_CNT + 1) (2 ^ R.ENC_CHK_CNT.w - 1)) := by
  have herr : ∀ code, s.regsBut (s.err (pENC b) code 0 sline hi 0) ((pENC b, R.ENC_CHK_CNT) :: errFields (pENC b)) := fun code =>
    State.regsBut_err (s.regsBut_refl _) _ _ _ _ _ _ (List.subset_cons_self _ _)
  have hchk : ∀ code, (s.err (pENC b) code 0 sline hi 0).get (pENC b) R.ENC_CHK_CNT = s.get (pENC b) R.ENC_CHK_CNT := fun code =>
    s.get_err_ne _ _ _ _ _ _ (Or.inr (by decide))
  subst ht
  unfold State.encFault
  cases lost with
  | true =>
    refine ⟨herr 0x11, s.reports_err _ _ _ _ _ _, fun hf _ => ⟨fun h0 => ?_, hchk 0x11⟩, fun _ h => absurd h (by decide)⟩
    exact ((s.err_recorded (State.frozen_of_unfenced hf) 0x11 0 sline hi 0).2 h0).1
  | false =>
    cases bad with
    | false => exact ⟨s.regsBut_refl _, s.reports_refl, fun _ h => absurd h (by decide), fun _ _ h => absurd h (by decide)⟩
    | true =>
      refine ⟨State.regsBut_cause (State.regsBut_incSat (herr 0x30) (by simp)) 3 (by simp [errFields]),
        ((s.reports_err _ _ _ _ _ _).trans (State.reports_incSat _ _ _)).trans (State.reports_cause _ _ _), fun _ h => absurd h (by decide),
        fun hf _ _ => ⟨State.bit_cause _ (by decide) ?_, fun h0 => ?_, ?_⟩⟩
      · refine (State.frozen_congr ?_).trans (State.frozen_of_unfenced hf)
        rw [State.get_incSat_ne _ (Or.inr (by decide)), State.get_err_ne _ _ _ _ _ _ _ (Or.inr (by decide))]
      · rw [if_neg (by decide), if_pos rfl, State.get_cause_field _ _ _ (by decide), State.get_incSat_field _ _ (by decide)]
        exact ((s.err_recorded (State.frozen_of_unfenced hf) 0x30 0 sline hi 0).2 h0).1
      · rw [if_neg (by decide), if_pos rfl, State.get_cause_field _ _ _ (by decide), State.get_incSat_self, hchk]
/-- The fields that count the bytes that the encoder takes and gives, and its records. -/
def encFlows (b : Nat) : List (Nat × Fld) := [(pENC b, R.ENC_IN_LO), (pENC b, R.ENC_IN_HI), (pENC b, R.ENC_OUT_LO), (pENC b, R.ENC_OUT_HI)]
def encTallies (b : Nat) : List (Nat × Fld) := [(pENC b, R.ENC_REC_CNT), (pENC b, R.ENC_ESC_CNT), (pENC b, R.ENC_KEY_CNT)]
theorem State.regsBut_add64 {s t : State} {l : List (Nat × Fld)} (h : s.regsBut t l) {p : Nat} {lo hi : Fld} (k : Nat) (hlo : (p, lo) ∈ l)
    (hhi : (p, hi) ∈ l) : s.regsBut (t.add64 p lo hi k) l := State.regsBut_set (State.regsBut_set h _ hlo) _ hhi
theorem State.encFlow_spec (n k : Nat) {t : State} (ht : s.encFlow b n k = t) :
    s.regsBut t (encFlows b) ∧ s.wrote t ∧
    t.get64 (pENC b) R.ENC_IN_LO R.ENC_IN_HI = (s.get64 (pENC b) R.ENC_IN_LO R.ENC_IN_HI + n) % 2 ^ 64 ∧
    t.get64 (pENC b) R.ENC_OUT_LO R.ENC_OUT_HI = (s.get64 (pENC b) R.ENC_OUT_LO R.ENC_OUT_HI + k) % 2 ^ 64 := by
  obtain ⟨x, hx⟩ : ∃ x, s.add64 (pENC b) R.ENC_IN_LO R.ENC_IN_HI n = x := ⟨_, rfl⟩
  have hxbut : s.regsBut x (encFlows b) := hx ▸ State.regsBut_add64 (s.regsBut_refl _) n (by simp [encFlows]) (by simp [encFlows])
  have hxw : s.wrote x := hx ▸ s.wrote_set64 _ _ _ _
  have hin : x.get64 (pENC b) R.ENC_IN_LO R.ENC_IN_HI = (s.get64 (pENC b) R.ENC_IN_LO R.ENC_IN_HI + n) % 2 ^ 64 := by
    rw [← hx]
    exact s.get64_set64 _ _ (by decide) rfl rfl rfl
  have hkept : x.get64 (pENC b) R.ENC_OUT_LO R.ENC_OUT_HI = s.get64 (pENC b) R.ENC_OUT_LO R.ENC_OUT_HI := by
    rw [← hx]
    exact congrArg₂ (fun c d => c * _ + d * _) (s.get_set64_ne _ _ (by decide)) (s.get_set64_ne _ _ (by decide))
  have hxt : x.add64 (pENC b) R.ENC_OUT_LO R.ENC_OUT_HI k = t := by rw [← hx]; exact ht
  have hout := x.get64_set64 (pENC b) (lo := R.ENC_OUT_LO) (hi := R.ENC_OUT_HI) (x.get64 (pENC b) R.ENC_OUT_LO R.ENC_OUT_HI + k) (by decide) rfl rfl rfl
  refine ⟨hxt ▸ State.regsBut_add64 hxbut k (by simp [encFlows]) (by simp [encFlows]), hxt ▸ hxw.trans (x.wrote_set64 _ _ _ _), ?_, ?_⟩
  · rw [← hin, ← hxt]
    exact congrArg₂ (fun c d => c * _ + d * _) (x.get_set64_ne _ _ (by decide)) (x.get_set64_ne _ _ (by decide))
  · rw [← hxt, ← hkept]
    exact hout
theorem State.encTally_spec (esc : Nat) (key : Bool) {t : State} (ht : s.encTally b esc key = t) :
    s.regsBut t (encTallies b) ∧ s.wrote t ∧
    t.get (pENC b) R.ENC_REC_CNT = (s.get (pENC b) R.ENC_REC_CNT + 1) % 2 ^ 32 ∧
    t.get (pENC b) R.ENC_KEY_CNT = (if key then (s.get (pENC b) R.ENC_KEY_CNT + 1) % 2 ^ 32 else s.get (pENC b) R.ENC_KEY_CNT) ∧
    t.get (pENC b) R.ENC_ESC_CNT = (if esc = 0 then s.get (pENC b) R.ENC_ESC_CNT
      else min (s.get (pENC b) R.ENC_ESC_CNT + esc) (2 ^ R.ENC_ESC_CNT.w - 1)) := by
  obtain ⟨x, hx⟩ : ∃ x, s.incWrap (pENC b) R.ENC_REC_CNT = x := ⟨_, rfl⟩
  obtain ⟨y, hy⟩ : ∃ y, (if esc = 0 then x else x.addSat (pENC b) R.ENC_ESC_CNT esc) = y := ⟨_, rfl⟩
  have hxbut : s.regsBut x (encTallies b) := hx ▸ State.regsBut_incWrap (s.regsBut_refl _) (by simp [encTallies])
  have hxw : s.wrote x := hx ▸ s.wrote_set _ _ _
  have hrec : x.get (pENC b) R.ENC_REC_CNT = (s.get (pENC b) R.ENC_REC_CNT + 1) % 2 ^ 32 := by
    rw [← hx]
    exact s.get_incWrap_self _ _
  have hxget : ∀ f : Fld, f.id ≠ R.ENC_REC_CNT.id → x.get (pENC b) f = s.get (pENC b) f := fun f hf => by
    rw [← hx]
    exact s.get_incWrap_field _ hf
  have hybut : s.regsBut y (encTallies b) ∧ s.wrote y := by
    rw [← hy]
    split
    · exact ⟨hxbut, hxw⟩
    · exact ⟨State.regsBut_addSat hxbut _ (by simp [encTallies]), hxw.trans (x.wrote_addSat _ _ _)⟩
  have hyget : ∀ f : Fld, f.id ≠ R.ENC_ESC_CNT.id → y.get (pENC b) f = x.get (pENC b) f := fun f hf => by
    rw [← hy]
    split
    · rfl
    · exact x.get_addSat_field _ _ hf
  have hesc : y.get (pENC b) R.ENC_ESC_CNT = (if esc = 0 then x.get (pENC b) R.ENC_ESC_CNT
      else min (x.get (pENC b) R.ENC_ESC_CNT + esc) (2 ^ R.ENC_ESC_CNT.w - 1)) := by
    rw [← hy]
    split
    · rfl
    · exact x.get_addSat_self _ _ _
  have hyt : (if key then y.incWrap (pENC b) R.ENC_KEY_CNT else y) = t := by rw [← hy, ← hx]; exact ht
  cases key with
  | false =>
    obtain rfl : y = t := hyt
    exact ⟨hybut.1, hybut.2, by rw [hyget _ (by decide), hrec], by rw [hyget _ (by decide), hxget _ (by decide)]; rfl, by rw [hesc, hxget _ (by decide)]⟩
  | true =>
    have hyt : y.incWrap (pENC b) R.ENC_KEY_CNT = t := hyt
    subst hyt
    refine ⟨State.regsBut_incWrap hybut.1 (by simp [encTallies]), hybut.2.trans (y.wrote_set _ _ _), ?_, ?_, ?_⟩
    · rw [y.get_incWrap_field _ (by decide), hyget _ (by decide), hrec]
    · rw [y.get_incWrap_self, hyget _ (by decide), hxget _ (by decide)]
      rfl
    · rw [y.get_incWrap_field _ (by decide), hesc, hxget _ (by decide)]
end

/-! ### The record of an item -/

def encFaultIds : List Nat := [R.ENC_CHK_CNT.id, R.PG_ERR_CNT.id, R.PG_ERR_ADDR_LO.id, R.PG_ERR_ADDR_HI.id, R.PG_ERR_INFO_SRC.id, R.PG_ERR_INFO_DIR.id,
  R.PG_ERR_INFO_CODE.id, R.PG_IRQ_RAW.id]
def encFlowIds : List Nat := [R.ENC_IN_LO.id, R.ENC_IN_HI.id, R.ENC_OUT_LO.id, R.ENC_OUT_HI.id]
def encTallyIds : List Nat := [R.ENC_REC_CNT.id, R.ENC_ESC_CNT.id, R.ENC_KEY_CNT.id]
theorem encFaultIds_of {b : Nat} {e : Nat × Fld} (he : e ∈ (pENC b, R.ENC_CHK_CNT) :: errFields (pENC b)) : e.2.id ∈ encFaultIds :=
  List.mem_map_of_mem (f := fun e : Nat × Fld => e.2.id) he

theorem State.encPlaced_spec (s : State) (a sline : Nat) (raw : List Byte) :
    lsHolds (s.encPlaced a sline raw) a (raw.take 0xC00) ∧ lsHolds (s.encPlaced a sline raw) (a + 0xC00) (leBytes 4 sline) ∧
    s.lsOnly (s.encPlaced a sline raw) [(a, raw.length), (a + 0xC00, 4)] := by
  refine ⟨?_, State.lsWrite_holds _ _ _, rfl, rfl, rfl, rfl, fun k hk => ?_⟩
  · refine State.lsWrite_holds_apart (lsHolds_take (s.lsWrite_holds a raw) _) (Or.inl ?_)
    rw [List.length_take]
    omega
  · have hraw := hk (a, raw.length) (by simp)
    have hline := hk (a + 0xC00, 4) (by simp)
    dsimp only at hraw hline
    exact ((Memory.get_puts _ _ _ _).trans (if_neg (by rw [leBytes_length]; omega))).trans
      ((Memory.get_puts _ _ _ _).trans (if_neg (by omega)))

section
variable {v t : State} {b c sline seg : Nat} {raw : List Byte} {out : List Byte × Nat} {key bad lost live last : Bool}
  (ht : v.encSent b c sline seg raw out key bad lost live last = t)
include ht
/-- What a record leaves behind the registers. -/
theorem State.encSent_state : t.queues = v.queues.put (0x28 + b) (v.queues.getD (0x28 + b) [] ++ [{ bytes := out.1, last := last }]) ∧
    t.sinks = v.sinks ∧ t.encAt b = (v.encAt b).noted c sline seg key bad live last ∧ (∀ m, m ≠ b → t.encAt m = v.encAt m) ∧
    lsHolds t (encCtx b seg live) (raw.take 0xC00) ∧ lsHolds t (encCtx b seg live + 0xC00) (leBytes 4 sline) ∧
    v.lsOnly t [(encCtx b seg live, raw.length), (encCtx b seg live + 0xC00, 4)] := by
  obtain ⟨f, hf⟩ : ∃ f, v.encFault b sline (seg + 16 * b2n live) lost bad = f := ⟨_, rfl⟩
  obtain ⟨-, ⟨r, w, hfs⟩, -, -⟩ := v.encFault_spec b sline (seg + 16 * b2n live) lost bad hf
  obtain ⟨hline, hword, honly⟩ := f.encPlaced_spec (encCtx b seg live) sline raw
  obtain ⟨p, hp⟩ : ∃ p, f.encPlaced (encCtx b seg live) sline raw = p := ⟨_, rfl⟩
  obtain ⟨q, hq⟩ : ∃ q, p.encFlow b raw.length out.1.length = q := ⟨_, rfl⟩
  obtain ⟨x, hx⟩ : ∃ x, q.encTally b out.2 key = x := ⟨_, rfl⟩
  have hpx : p.wrote x := (p.encFlow_spec b _ _ hq).2.1.trans (q.encTally_spec b out.2 key hx).2.1
  unfold State.encSent at ht
  rw [hf, hp, hq, hx] at ht
  rw [hp] at hline hword honly
  have hxs : x.queues = v.queues ∧ x.sinks = v.sinks ∧ ∀ m, x.encAt m = v.encAt m := by
    obtain ⟨r', hr'⟩ := hpx
    rw [hr', ← hp, hfs]
    exact ⟨rfl, rfl, fun _ => rfl⟩
  have hxm : lsHolds x (encCtx b seg live) (raw.take 0xC00) ∧ lsHolds x (encCtx b seg live + 0xC00) (leBytes 4 sline) ∧
      v.lsOnly x [(encCtx b seg live, raw.length), (encCtx b seg live + 0xC00, 4)] := by
    obtain ⟨r', hr'⟩ := hpx
    rw [hr']
    rw [hfs] at honly
    exact ⟨hline, hword, honly⟩
  obtain ⟨hqueues, hsinks, henc⟩ := hxs
  have henq : ∀ (y : State) ep q m, (y.enqueue ep q).encAt m = y.encAt m := fun _ _ _ _ => rfl
  rw [← hqueues, ← hsinks, ← henc b, ← ht]
  exact ⟨rfl, rfl, (henq _ _ _ _).trans (x.encAt_upd_self _ _),
    fun m hm => (henq _ _ _ _).trans ((x.encAt_upd_other _ hm).trans (henc m)), hxm⟩
/-- What a record shows. -/
theorem State.encSent_regs (hf : v.fenced (pENC b) = false) :
    v.regsBut t (encFlows b ++ encTallies b ++ (pENC b, R.ENC_CHK_CNT) :: errFields (pENC b)) ∧
    t.get (pENC b) R.ENC_REC_CNT = (v.get (pENC b) R.ENC_REC_CNT + 1) % 2 ^ 32 ∧
    t.get (pENC b) R.ENC_KEY_CNT = (if key then (v.get (pENC b) R.ENC_KEY_CNT + 1) % 2 ^ 32 else v.get (pENC b) R.ENC_KEY_CNT) ∧
    t.get (pENC b) R.ENC_ESC_CNT = (if out.2 = 0 then v.get (pENC b) R.ENC_ESC_CNT
      else min (v.get (pENC b) R.ENC_ESC_CNT + out.2) (2 ^ R.ENC_ESC_CNT.w - 1)) ∧
    t.get64 (pENC b) R.ENC_IN_LO R.ENC_IN_HI = (v.get64 (pENC b) R.ENC_IN_LO R.ENC_IN_HI + raw.length) % 2 ^ 64 ∧
    t.get64 (pENC b) R.ENC_OUT_LO R.ENC_OUT_HI = (v.get64 (pENC b) R.ENC_OUT_LO R.ENC_OUT_HI + out.1.length) % 2 ^ 64 ∧
    (lost = true → (v.get (pENC b) R.PG_ERR_CNT = 0 → t.get (pENC b) R.PG_ERR_INFO_CODE = 0x11) ∧
      t.get (pENC b) R.ENC_CHK_CNT = v.get (pENC b) R.ENC_CHK_CNT) ∧
    (lost = false → bad = true → bit (t.get (pENC b) R.PG_IRQ_RAW) 3 = true ∧
      (v.get (pENC b) R.PG_ERR_CNT = 0 → t.get (pENC b) R.PG_ERR_INFO_CODE = 0x30) ∧
      t.get (pENC b) R.ENC_CHK_CNT = min (v.get (pENC b) R.ENC_CHK_CNT + 1) (2 ^ R.ENC_CHK_CNT.w - 1)) ∧
    (lost = false → bad = false → t.get (pENC b) R.ENC_CHK_CNT = v.get (pENC b) R.ENC_CHK_CNT ∧
      t.get (pENC b) R.PG_ERR_CNT = v.get (pENC b) R.PG_ERR_CNT) := by
  obtain ⟨f, hfault⟩ : ∃ f, v.encFault b sline (seg + 16 * b2n live) lost bad = f := ⟨_, rfl⟩
  obtain ⟨hfbut, -, hlost, hbad⟩ := v.encFault_spec b sline (seg + 16 * b2n live) lost bad hfault
  obtain ⟨q, hq⟩ : ∃ q, (f.encPlaced (encCtx b seg live) sline raw).encFlow b raw.length out.1.length = q := ⟨_, rfl⟩
  obtain ⟨hqbut, -, hin, hout⟩ := (f.encPlaced (encCtx b seg live) sline raw).encFlow_spec b raw.length out.1.length hq
  obtain ⟨r, hr⟩ : ∃ r, q.encTally b out.2 key = r := ⟨_, rfl⟩
  obtain ⟨hrbut, -, hrec, hkey, hesc⟩ := q.encTally_spec b out.2 key hr
  unfold State.encSent at ht
  rw [hfault, hq, hr] at ht
  have htr : ∀ p g, t.get p g = r.get p g := fun p g => by rw [← ht]; rfl
  have hfv : ∀ g : Fld, g.id ∉ encFaultIds → f.get (pENC b) g = v.get (pENC b) g := fun g hg =>
    hfbut _ _ fun e he => Or.inr fun h => hg (h ▸ encFaultIds_of he)
  have hqf : ∀ g : Fld, g.id ∉ encFlowIds → q.get (pENC b) g = f.get (pENC b) g := fun g hg =>
    hqbut _ _ fun e he => Or.inr fun h => hg (h ▸ List.mem_map_of_mem (f := fun e : Nat × Fld => e.2.id) he)
  have hrq : ∀ g : Fld, g.id ∉ encTallyIds → r.get (pENC b) g = q.get (pENC b) g := fun g hg =>
    hrbut _ _ fun e he => Or.inr fun h => hg (h ▸ List.mem_map_of_mem (f := fun e : Nat × Fld => e.2.id) he)
  have hqv : ∀ g : Fld, g.id ∉ encFlowIds → g.id ∉ encFaultIds → q.get (pENC b) g = v.get (pENC b) g := fun g h k => (hqf g h).trans (hfv g k)
  have htf : ∀ g : Fld, g.id ∉ encTallyIds → g.id ∉ encFlowIds → t.get (pENC b) g = f.get (pENC b) g :=
    fun g h k => ((htr _ g).trans (hrq g h)).trans (hqf g k)
  have hget64 : ∀ {lo hi : Fld}, lo.id ∉ encTallyIds → hi.id ∉ encTallyIds → t.get64 (pENC b) lo hi = q.get64 (pENC b) lo hi := fun {lo hi} h k => by
    unfold State.get64
    rw [htr, htr, hrq lo h, hrq hi k]
  have hv64 : ∀ {lo hi : Fld}, lo.id ∉ encFaultIds → hi.id ∉ encFaultIds →
      (f.encPlaced (encCtx b seg live) sline raw).get64 (pENC b) lo hi = v.get64 (pENC b) lo hi := fun {lo hi} h k =>
    congrArg₂ (fun c d => c * _ + d * _) (hfv lo h) (hfv hi k)
  refine ⟨fun p g hg => ?_, ?_, ?_, ?_, ?_, ?_, fun h => ?_, fun h k => ?_, fun h k => ?_⟩
  · have hmem := fun e he => hg e he
    rw [htr]
    exact ((hrbut p g fun e he => hmem e (by simp [he])).trans (hqbut p g fun e he => hmem e (by simp [he]))).trans
      (hfbut p g fun e he => hmem e (List.mem_append_right _ he))
  · rw [htr, hrec, hqv _ (by decide) (by decide)]
  · rw [htr, hkey, hqv _ (by decide) (by decide)]
  · rw [htr, hesc, hqv _ (by decide) (by decide)]
  · rw [hget64 (by decide) (by decide), hin, hv64 (by decide) (by decide)]
  · rw [hget64 (by decide) (by decide), hout, hv64 (by decide) (by decide)]
  · rw [htf _ (by decide) (by decide), htf _ (by decide) (by decide)]
    exact hlost hf h
  · rw [htf _ (by decide) (by decide), htf _ (by decide) (by decide), htf _ (by decide) (by decide)]
    exact hbad hf h k
  · rw [htf _ (by decide) (by decide), htf _ (by decide) (by decide), ← hfault, h, k]
    exact ⟨rfl, rfl⟩
end

/-! ### The context (R62, R72, R81) -/

theorem isNone_ite {α : Type} (a c : Nat) (x : α) : (if a = c then some x else none).isNone = (a != c) := by
  by_cases h : a = c <;> simp [h]
/-- The line that the context predicts from, where it holds one or is not needed. -/
theorem State.encPrev_held {s v : State} {b seg sline : Nat} {live dot key : Bool} {prev : List Byte} (hctx : encContext s b seg live dot sline key prev)
    (hwf : Memory.wf v.lstore = true) (hstore : v.lstore = s.lstore) (herr : v.lsErr = s.lsErr) {n : Nat}
    (henc : v.encAt b = { s.encAt b with taken := n }) (hap : v.ap (pENC b) R.ENC_CTRL_KEY_INT = (s.applyPlain (pENC b)).ap (pENC b) R.ENC_CTRL_KEY_INT) :
    ∃ o, v.encPrev b seg live dot sline = (v, o, true) ∧ key = v.encKey b (2 * seg + b2n live) sline o (v.encAt b) ∧ (key = false → o.getD [] = prev) := by
  have hvalid : bit (v.encAt b).ctxValid (2 * seg + b2n live) = bit (s.encAt b).ctxValid (2 * seg + b2n live) := by rw [henc]
  rcases hctx with ⟨hnone, rfl⟩ | ⟨l, hl, hsline, hctx, hlen, hword, hline, hkey⟩
  · refine ⟨none, ?_, rfl, fun h => absurd h (by decide)⟩
    unfold State.encPrev
    dsimp only
    rw [if_pos (by rw [hvalid]; simpa using hnone)]
  · have hword' : lsHolds v (encCtx b seg live + 0xC00) (leBytes 4 l) := fun i hi => by
      rw [hstore, herr]
      exact hword i hi
    have hline' : lsHolds v (encCtx b seg live) prev := fun i hi => by
      rw [hstore, herr]
      exact hline i hi
    have hw : v.lsWord (encCtx b seg live + 0xC00) 1 = (v, some l) := by
      unfold State.lsWord
      have h := State.lsBytes_held hwf hword' 1
      rw [leBytes_length] at h
      rw [h]
      dsimp only
      rw [if_pos rfl, leNat_leBytes, Nat.mod_eq_of_lt (hl.trans_eq (by norm_num))]
    have hr := State.lsBytes_held hwf hline' 1
    rw [hlen] at hr
    refine ⟨if (l + 1) % 2 ^ 32 = sline then some prev else none, ?_, ?_, fun h => ?_⟩
    · unfold State.encPrev
      dsimp only
      rw [if_neg (by rw [hvalid, hctx]; simpa using hsline), hw]
      dsimp only
      rw [hr]
    · rw [hkey]
      unfold keyForced State.encKey
      rw [hap, henc]
      rw [isNone_ite]
      (simp only [Bool.or_assoc]) <;> rfl
    · rw [hkey, Bool.or_eq_false_iff] at h
      rw [if_pos (by simpa using h.1)]
      rfl
/-- What reading the context leaves. -/
theorem State.encPrev_reads (s : State) (b seg sline : Nat) (live dot : Bool) (hwf : Memory.wf s.lstore = true) :
    s.lsReports (s.encPrev b seg live dot sline).1 ∧ ∀ q, q ≠ pLSTORE → ∀ f, (s.encPrev b seg live dot sline).1.get q f = s.get q f := by
  have hw := s.lsBytes_reports (encCtx b seg live + 0xC00) 4 1 hwf
  have hr := hw.trans (State.lsBytes_reports _ (encCtx b seg live) (rawBytes dot seg) 1 (hw.wf hwf))
  have hpage : ∀ q, q ≠ pLSTORE → ∀ f, ((s.lsWord (encCtx b seg live + 0xC00) 1).1.lsBytes (encCtx b seg live) (rawBytes dot seg) 1).1.get q f = s.get q f :=
    fun q hq f => (State.lsBytes_page _ _ _ _ hq f).trans (s.lsBytes_page _ _ _ hq f)
  unfold State.encPrev
  dsimp only
  split
  · exact ⟨s.lsReports_refl, fun _ _ _ => rfl⟩
  · split
    · exact ⟨hr, hpage⟩
    · exact ⟨hr, hpage⟩

/-! ### The item -/

/-- The item at the front is taken. -/
def State.itemTaken (s : State) (b n : Nat) : State :=
  { s with sinks := s.sinks.put (0x20 + b) ((s.sinks.getD (0x20 + b) []).drop n) }.updEnc b fun e => { e with taken := e.taken + n }
/-- The encoder at the item's line, once what waits for it has applied. -/
structure State.encAtItem (s v : State) (b n : Nat) : Prop where
  but : s.regsBut v [(pENC b, R.PG_GEN_APPL_GEN), (pENC b, R.PG_GEN_PENDING), (pENC b, R.PG_IRQ_RAW)]
  ap : ∀ q f, q ≠ pENC b → v.ap q f = s.ap q f
  key : v.ap (pENC b) R.ENC_CTRL_KEY_INT = (s.applyPlain (pENC b)).ap (pENC b) R.ENC_CTRL_KEY_INT
  enc : v.encAt b = { s.encAt b with taken := (s.encAt b).taken + n }
  others : ∀ m, m ≠ b → v.encAt m = s.encAt m
  sinks : v.sinks.getD (0x20 + b) [] = (s.sinks.getD (0x20 + b) []).drop n
  shape : ∃ r k e m c w, v = { s with regs := r, sinks := k, enc := e, appl := m, commits := c, host := { s.host with waiting := w } }
theorem State.itemTaken_applied (s : State) (b n : Nat) : s.encAtItem ((s.itemTaken b n).applyPlain (pENC b)) b n := by
  obtain ⟨u, hu⟩ : ∃ u, s.itemTaken b n = u := ⟨_, rfl⟩
  have hself : u.encAt b = { s.encAt b with taken := (s.encAt b).taken + n } := by
    rw [← hu]
    exact State.encAt_upd_self _ _ _
  have hother : ∀ m, m ≠ b → u.encAt m = s.encAt m := fun m hm => by
    rw [← hu]
    exact State.encAt_upd_other _ _ hm
  have hsink : u.sinks.getD (0x20 + b) [] = (s.sinks.getD (0x20 + b) []).drop n := by
    rw [← hu]
    exact NMap.getD_put_self _ _ _ _
  obtain ⟨k, e, hus⟩ : ∃ k e, u = { s with sinks := k, enc := e } := ⟨_, _, by rw [← hu]; rfl⟩
  obtain ⟨hbut, hap, r, m, c, w, hshape⟩ := u.applyPlain_frame (pENC b)
  have hkept : ∀ j, (u.applyPlain (pENC b)).encAt j = u.encAt j := fun j => by
    rw [hshape]
    rfl
  have hks : (u.applyPlain (pENC b)).sinks = u.sinks := by rw [hshape]
  rw [hu]
  refine ⟨?_, fun q f hq => (hap q f hq).trans ?_, ?_, (hkept b).trans hself, fun j hj => (hkept j).trans (hother j hj), ?_, r, k, e, m, c, w, ?_⟩
  · have hregs : ∀ q f, u.get q f = s.get q f := fun q f => by
      rw [hus]
      rfl
    exact fun q f hq => (hbut q f hq).trans (hregs q f)
  · rw [hus]
    rfl
  · exact State.applyPlain_ap_congr _ (by rw [hus]) (by rw [hus]) (by rw [hus]) (by rw [hus]) _ _
  · rw [hks, hsink]
  · rw [hshape, hus]
section
variable {s : State} {b : Bar} {tag item : List Byte} {n : Nat}
theorem exec_encodeSegmentLine (hw : s.working (pENC b) = true) (hroom : s.encRoom b = true)
    (hitem : itemAt (s.sinks.getD (0x20 + b.val) []) = some (tag, item, n)) :
    exec (.encodeSegmentLine b) s = .next ((s.itemTaken b n).encodeItem b tag ((s.encAt b).taken + 16)) := by
  change execEncodeSegmentLine b s = _
  unfold execEncodeSegmentLine
  rw [if_neg (by simp [hw, hroom]), hitem]
  rfl
theorem exec_encodeSegmentLine_silent (h : s.working (pENC b) = false ∨ s.encRoom b = false ∨ itemAt (s.sinks.getD (0x20 + b.val) []) = none) :
    exec (.encodeSegmentLine b) s = .next s := by
  change execEncodeSegmentLine b s = _
  unfold execEncodeSegmentLine
  rcases h with h | h | h
  · rw [if_pos (by simp [h])]
  · rw [if_pos (by simp [h])]
  · rw [h]
    split_ifs <;> rfl
theorem State.encAtItem.get {v : State} (h : s.encAtItem v b n) {f : Fld} (hf : f.id ∉ [R.PG_GEN_APPL_GEN.id, R.PG_GEN_PENDING.id, R.PG_IRQ_RAW.id]) :
    v.get (pENC b) f = s.get (pENC b) f :=
  h.but _ _ fun _ he => Or.inr fun h => hf (h ▸ List.mem_map_of_mem (f := fun e : Nat × Fld => e.2.id) he)
/-- The page stays unfenced. -/
theorem State.encAtItem.unfenced {v : State} (h : s.encAtItem v b n) (hw : s.working (pENC b) = true) : v.fenced (pENC b) = false := by
  rw [← State.unfenced_of_working hw]
  unfold State.fenced State.flag
  rw [h.get (by decide)]
end
/-- The flag of a record with a CHECK failure (R61). -/
theorem encodeRaw_chkerr (e : RecKey) (raw prev : List Byte) (key : Bool) (check : Nat) : bit (byteAt (encodeRaw e raw prev key true check).1 3) 2 = true := by
  have hbyte : ∀ l k : Bool, bit (BitVec.ofNat 8 (0x10 + 4 * b2n true + 2 * b2n l + b2n k)).toNat 2 = true := by decide
  exact hbyte e.live key
theorem bit_self (n i : Nat) : bit (n ||| 2 ^ i) i = true := by
  simp [bit, Nat.testBit_or]
theorem stageOut_place (b i j : Nat) : stageAddr b (i + j) = ringPlace (0x3E00000 + 0x20000 * b) 0x20000 (Config.stageStart b + i + j) := by
  unfold stageAddr ringPlace
  rw [Nat.add_assoc (Config.stageStart b)]

section
variable {s : State} {b : Bar} {tag item : List Byte} {n seg sline : Nat} {live dot : Bool} (hw : s.working (pENC b) = true) (hroom : s.encRoom b = true)
  (hitem : itemAt (s.sinks.getD (0x20 + b.val) []) = some (tag, item, n)) (hseg : seg = byteAt tag 2 / 16) (hdot : dot = bit (byteAt tag 2) 0)
  (hlive : live = bit (byteAt tag 3) 1) (hsline : sline = leAt tag 4 4)
include hw hroom hitem hseg hlive hsline
/-- An item out of order is counted and gives nothing (R73). -/
theorem encode_disorder (h : inOrder (if live then (s.encAt b).ordLive else (s.encAt b).ordBase) live sline seg = false) :
    ∃ t, exec (.encodeSegmentLine b) s = .next t ∧ t.sinks.getD (0x20 + b.val) [] = (s.sinks.getD (0x20 + b.val) []).drop n ∧
      t.get (pENC b) R.ENC_ORD_CNT = min (s.get (pENC b) R.ENC_ORD_CNT + 1) (2 ^ R.ENC_ORD_CNT.w - 1) ∧
      (s.get (pENC b) R.PG_ERR_CNT = 0 → t.get (pENC b) R.PG_ERR_INFO_CODE = 0x31) ∧
      bit (t.get (pENC b) R.PG_IRQ_RAW) 4 = true ∧ t.encAt b = { s.encAt b with taken := (s.encAt b).taken + n } ∧
      (∀ m, m ≠ b.val → t.encAt m = s.encAt m) ∧
      s.regsBut t ([(pENC b, R.ENC_ORD_CNT), (pENC b, R.PG_GEN_APPL_GEN), (pENC b, R.PG_GEN_PENDING)] ++ errFields (pENC b)) ∧
      (∀ q f, q ≠ pENC b → t.ap q f = s.ap q f) ∧
      ({ t with regs := s.regs, sinks := s.sinks, enc := s.enc, appl := s.appl, commits := s.commits, host := s.host } : State) = s := by
  obtain ⟨v, hv⟩ : ∃ v, (s.itemTaken b n).applyPlain (pENC b) = v := ⟨_, rfl⟩
  have hat : s.encAtItem v b n := hv ▸ s.itemTaken_applied b n
  have hf := hat.unfenced hw
  obtain ⟨e, he⟩ : ∃ e, v.err (pENC b) 0x31 0 sline (seg + 16 * b2n live) = e := ⟨_, rfl⟩
  obtain ⟨-, hcode⟩ := v.err_recorded (State.frozen_of_unfenced hf) 0x31 0 sline (seg + 16 * b2n live) 0
  have hord : e.get (pENC b) R.ENC_ORD_CNT = s.get (pENC b) R.ENC_ORD_CNT := by
    rw [← he, v.get_err_ne _ _ _ _ _ _ (Or.inr (by decide)), hat.get (by decide)]
  have hef : (e.incSat (pENC b) R.ENC_ORD_CNT).frozen (pENC b) = false := by
    refine (State.frozen_congr ?_).trans (State.frozen_of_unfenced hf)
    rw [State.get_incSat_field _ _ (by decide), ← he, v.get_err_ne _ _ _ _ _ _ (Or.inr (by decide))]
  obtain ⟨t, ht⟩ : ∃ t, (e.incSat (pENC b) R.ENC_ORD_CNT).cause (pENC b) 4 = t := ⟨_, rfl⟩
  have hbut : v.regsBut t ((pENC b, R.ENC_ORD_CNT) :: errFields (pENC b)) := by
    rw [← ht, ← he]
    exact State.regsBut_cause (State.regsBut_incSat (State.regsBut_err (v.regsBut_refl _) _ _ _ _ _ _ (List.subset_cons_self _ _)) (by simp)) 4
      (by simp [errFields])
  have hrep : v.reports t := by
    rw [← ht, ← he]
    exact ((v.reports_err _ _ _ _ _ _).trans (State.reports_incSat _ _ _)).trans (State.reports_cause _ _ _)
  have hitemv := State.encodeItem_disorder (i := (s.encAt b).taken + 16) hv hseg hlive hsline (by rw [hat.enc]; exact h)
  rw [he, ht] at hitemv
  rw [he] at hcode
  have hcounts : t.get (pENC b) R.ENC_ORD_CNT = min (s.get (pENC b) R.ENC_ORD_CNT + 1) (2 ^ R.ENC_ORD_CNT.w - 1) ∧
      (s.get (pENC b) R.PG_ERR_CNT = 0 → t.get (pENC b) R.PG_ERR_INFO_CODE = 0x31) ∧ bit (t.get (pENC b) R.PG_IRQ_RAW) 4 = true := by
    rw [← ht]
    refine ⟨?_, fun h0 => ?_, State.bit_cause _ (by decide) hef⟩
    · rw [State.get_cause_field _ _ _ (by decide), State.get_incSat_self, hord]
    · rw [State.get_cause_field _ _ _ (by decide), State.get_incSat_field _ _ (by decide)]
      exact (hcode (by rw [hat.get (by decide), h0])).1
  obtain ⟨hcnt, hinfo, hirq⟩ := hcounts
  obtain ⟨r, w, hrep⟩ := hrep
  refine ⟨t, by rw [exec_encodeSegmentLine hw hroom hitem, hitemv], ?_, hcnt, hinfo, hirq, ?_, fun m hm => ?_, fun q f hq => ?_, fun q f hq => ?_, ?_⟩
  · rw [← hat.sinks, hrep]
  · rw [← hat.enc, hrep]
    rfl
  · rw [← hat.others m hm, hrep]
    rfl
  · refine (hbut q f fun x hx => hq x ?_).trans (hat.but q f fun x hx => hq x ?_)
    · rcases List.mem_cons.1 hx with rfl | hx
      · simp
      · exact List.mem_append_right _ hx
    · simp only [List.mem_cons, List.not_mem_nil, or_false] at hx
      rcases hx with rfl | rfl | rfl <;> simp [errFields]
  · rw [← hat.ap q f hq, hrep]
    rfl
  · obtain ⟨r', k, e', m, c, w', hshape⟩ := hat.shape
    rw [hrep, hshape]
include hdot
variable (horder : inOrder (if live then (s.encAt b).ordLive else (s.encAt b).ordBase) live sline seg = true) (hwf : Memory.wf s.lstore = true)
include horder hwf
/-- An item in order gives the record of its staged bytes and leaves its line in the context (R61, R70 to R74). -/
theorem encode_record {raw prev : List Byte} {key bad : Bool} {out : List Byte × Nat} (hlen : raw.length = leAt tag 0 2)
    (hraw : ∀ i < raw.length, Memory.get s.lstore (stageAddr b ((s.encAt b).taken + 16 + i)) = raw[i]? ∧
      s.lsErr.getD (stageAddr b ((s.encAt b).taken + 16 + i)) 0 = 0)
    (hctx : encContext s b seg live dot sline key prev) (hbad : bad = (crc32 raw != leAt tag 8 4))
    (hout : out = encodeRaw ⟨byteAt tag 2 / 2 % 8, seg, live, sline, dot⟩ raw (if key then zeros raw.length else prev) key bad (leAt tag 8 4)) :
    ∃ v t, s.encAtItem v b n ∧ exec (.encodeSegmentLine b) s = .next t ∧
      v.encSent b (2 * seg + b2n live) sline seg raw out key bad false live (bit (byteAt tag 3) 2) = t := by
  obtain ⟨v, hv⟩ : ∃ v, (s.itemTaken b n).applyPlain (pENC b) = v := ⟨_, rfl⟩
  have hat : s.encAtItem v b n := hv ▸ s.itemTaken_applied b n
  obtain ⟨r, k, e, m, c, w, hshape⟩ := hat.shape
  have hstore : v.lstore = s.lstore := by rw [hshape]
  have herr : v.lsErr = s.lsErr := by rw [hshape]
  have hvwf : Memory.wf v.lstore = true := by rw [hstore]; exact hwf
  have hsmall : leAt tag 0 2 < 0x10000 := leAt_lt tag 0 2
  have hstage : v.stageOut b ((s.encAt b).taken + 16) (leAt tag 0 2) = (v, raw, true) := by
    rw [← hlen] at hsmall ⊢
    refine State.lsRingRead_held hvwf (by omega) (fun j hj => ?_) 1
    rw [← stageOut_place, hstore, herr]
    exact hraw j hj
  obtain ⟨o, hprev, hkey, ho⟩ := State.encPrev_held hctx hvwf hstore herr hat.enc hat.key
  have hpick : (if key then zeros raw.length else prev) = if key then zeros raw.length else o.getD [] := by
    cases key with
    | false => exact (ho rfl).symm
    | true => rfl
  rw [hpick] at hout
  have h := State.encodeItem_ordered hv hseg hdot hlive hsline (by rw [hat.enc]; exact horder) hstage hprev hkey (hbad.trans (Bool.false_or _).symm) hout
  exact ⟨v, _, hat, (exec_encodeSegmentLine hw hroom hitem).trans (congrArg _ h), rfl⟩
/-- A staged byte that is uncorrectable makes a record marked by CHKERR (R79). -/
theorem encode_lost {i : Nat} (hi : i < leAt tag 0 2) (hb : (Memory.get s.lstore (stageAddr b ((s.encAt b).taken + 16 + i))).isSome = true)
    (he : s.lsErr.getD (stageAddr b ((s.encAt b).taken + 16 + i)) 0 = 2) :
    ∃ v u t raw out key, s.encAtItem v b n ∧ v.lsReports u ∧ (∀ q, q ≠ pLSTORE → ∀ f, u.get q f = v.get q f) ∧
      exec (.encodeSegmentLine b) s = .next t ∧ bit (byteAt out.1 3) 2 = true ∧
      u.encSent b (2 * seg + b2n live) sline seg raw out key true true live (bit (byteAt tag 3) 2) = t := by
  obtain ⟨v, hv⟩ : ∃ v, (s.itemTaken b n).applyPlain (pENC b) = v := ⟨_, rfl⟩
  have hat : s.encAtItem v b n := hv ▸ s.itemTaken_applied b n
  obtain ⟨r, k, e, m, c, w, hshape⟩ := hat.shape
  have hstore : v.lstore = s.lstore := by rw [hshape]
  have herr : v.lsErr = s.lsErr := by rw [hshape]
  have hvwf : Memory.wf v.lstore = true := by rw [hstore]; exact hwf
  have hsmall : leAt tag 0 2 < 0x10000 := leAt_lt tag 0 2
  obtain ⟨x, raw, ok, hstage⟩ : ∃ x raw ok, v.stageOut b ((s.encAt b).taken + 16) (leAt tag 0 2) = (x, raw, ok) := ⟨_, _, _, rfl⟩
  have hok : ok = false := by
    have h := State.lsRingRead_lost hvwf (show leAt tag 0 2 ≤ 0x20000 by omega) hi (a := 0x3E00000 + 0x20000 * b)
      (i := Config.stageStart b + ((s.encAt b).taken + 16)) (by rw [← stageOut_place, hstore]; exact hb)
      (by rw [← stageOut_place, herr]; exact he) 1
    exact (congrArg (fun y => y.2.2) hstage).symm.trans h
  subst hok
  have hx : (v.stageOut b ((s.encAt b).taken + 16) (leAt tag 0 2)).1 = x := by rw [hstage]
  have hxrep : v.lsReports x := hx ▸ v.lsRingRead_reports _ _ _ _ _ hvwf
  have hxpage : ∀ q, q ≠ pLSTORE → ∀ f, x.get q f = v.get q f := fun q hq f => hx ▸ v.lsRingRead_page _ _ _ _ _ hq f
  obtain ⟨u, prev, good, hprev⟩ : ∃ u prev good, x.encPrev b seg live dot sline = (u, prev, good) := ⟨_, _, _, rfl⟩
  obtain ⟨hurep, hupage⟩ := x.encPrev_reads b seg sline live dot (hxrep.wf hvwf)
  rw [hprev] at hurep hupage
  obtain ⟨key, hkey⟩ : ∃ key, key = u.encKey b (2 * seg + b2n live) sline prev (v.encAt b) := ⟨_, rfl⟩
  obtain ⟨out, hout⟩ : ∃ out, out = encodeRaw ⟨byteAt tag 2 / 2 % 8, seg, live, sline, dot⟩ raw
    (if key then zeros raw.length else prev.getD []) key true (leAt tag 8 4) := ⟨_, rfl⟩
  have h := State.encodeItem_ordered hv hseg hdot hlive hsline (by rw [hat.enc]; exact horder) hstage hprev hkey (bad := true) rfl hout
  refine ⟨v, u, _, raw, out, key, hat, hxrep.trans hurep, fun q hq f => (hupage q hq f).trans (hxpage q hq f),
    (exec_encodeSegmentLine hw hroom hitem).trans (congrArg _ h), ?_, rfl⟩
  rw [hout]
  exact encodeRaw_chkerr _ _ _ _ _
end

/-- What the encoder notes of the layer's order. -/
theorem EncSt.noted_order (e : EncSt) (c sline seg : Nat) (key bad live last : Bool) :
    (if live then (e.noted c sline seg key bad live last).ordLive else (e.noted c sline seg key bad live last).ordBase) =
      if last then none else some (sline, seg) := by
  cases live with
  | true => rfl
  | false => rfl
theorem EncSt.noted_bits (e : EncSt) (c sline seg : Nat) (key bad live last : Bool) :
    bit (e.noted c sline seg key bad live last).ctxValid c = true ∧ bit (e.noted c sline seg key bad live last).chkPrev c = bad ∧
    bit (e.noted c sline seg key bad live last).forceKey c = false :=
  ⟨bit_self _ _, (bit_setBit _ _ _ _).trans (if_pos rfl), (bit_setBit _ _ _ _).trans (if_pos rfl)⟩
/-- The fields that an item in order may move. -/
def encRecordFields (p : Nat) : List (Nat × Fld) :=
  [(p, R.ENC_IN_LO), (p, R.ENC_IN_HI), (p, R.ENC_OUT_LO), (p, R.ENC_OUT_HI), (p, R.ENC_REC_CNT), (p, R.ENC_ESC_CNT), (p, R.ENC_KEY_CNT),
    (p, R.ENC_CHK_CNT), (p, R.PG_GEN_APPL_GEN), (p, R.PG_GEN_PENDING)] ++ errFields p
theorem encRecord_fields (b : Nat) :
    encFlows b ++ encTallies b ++ (pENC b, R.ENC_CHK_CNT) :: errFields (pENC b) ⊆ encRecordFields (pENC b) ∧
    [(pENC b, R.PG_GEN_APPL_GEN), (pENC b, R.PG_GEN_PENDING), (pENC b, R.PG_IRQ_RAW)] ⊆ encRecordFields (pENC b) := by
  have hmap : ∀ l m : List Fld, l ⊆ m → (l.map fun f => (pENC b, f)) ⊆ m.map fun f => (pENC b, f) := fun l m h => List.map_subset _ h
  have hall : encRecordFields (pENC b) = List.map (fun f => (pENC b, f)) ((encRecordFields 0).map Prod.snd) := rfl
  rw [hall]
  exact ⟨hmap (List.map Prod.snd (encFlows 0 ++ encTallies 0 ++ (0, R.ENC_CHK_CNT) :: errFields 0)) ((encRecordFields 0).map Prod.snd) (by decide),
    hmap [R.PG_GEN_APPL_GEN, R.PG_GEN_PENDING, R.PG_IRQ_RAW] ((encRecordFields 0).map Prod.snd) (by decide)⟩
/-- Settles O27: the item is taken, what waits for the page applies, and the line goes through the encoder. -/
theorem encoderTakesAnItem : Obligations.EncoderTakesAnItem := by
  unfold Obligations.EncoderTakesAnItem
  refine fun s b => ⟨exec_encodeSegmentLine_silent, fun tag item n seg sline live dot hw hroom hitem hseg hdot hlive hsline =>
    ⟨encode_disorder hw hroom hitem hseg hlive hsline, fun horder hwf => ⟨fun raw prev key bad out hlen hraw hctx hbad hout => ?_, fun i hi hb he => ?_⟩⟩⟩
  · obtain ⟨v, t, hat, hexec, hsent⟩ := encode_record hw hroom hitem hseg hdot hlive hsline horder hwf hlen hraw hctx hbad hout
    obtain ⟨hqueues, hsinks, henc, hothers, hline, hword, honly⟩ := State.encSent_state hsent
    obtain ⟨hbut, hrec, hkey, hesc, hin, hout64, -, hfault, hgood⟩ := State.encSent_regs hsent (hat.unfenced hw)
    obtain ⟨r, k, e, m, c, w, hshape⟩ := hat.shape
    have hvq : v.queues = s.queues := by rw [hshape]
    have hv64 : ∀ lo hi : Fld, lo.id ∉ [R.PG_GEN_APPL_GEN.id, R.PG_GEN_PENDING.id, R.PG_IRQ_RAW.id] →
        hi.id ∉ [R.PG_GEN_APPL_GEN.id, R.PG_GEN_PENDING.id, R.PG_IRQ_RAW.id] → v.get64 (pENC b) lo hi = s.get64 (pENC b) lo hi := fun lo hi hl hh => by
      unfold State.get64
      rw [hat.get hl, hat.get hh]
    have hvonly : s.lsOnly t [(encCtx b seg live, raw.length), (encCtx b seg live + 0xC00, 4)] := by
      rw [hshape] at honly
      exact honly
    obtain ⟨hvalid, hchk, hforce⟩ := (v.encAt b).noted_bits (2 * seg + b2n live) sline seg key bad live (bit (byteAt tag 3) 2)
    refine ⟨t, hexec, by rw [hsinks, hat.sinks], ?_, ?_, ?_, ?_, ?_, ?_, fun h => ?_, fun h => ?_, hline, hword, ?_, ?_, ?_, ?_, fun j hj => ?_, ?_, hvonly⟩
    · rw [hqueues, NMap.getD_put_self, hvq]
    · rw [hrec, hat.get (by decide)]
    · rw [hkey, hat.get (by decide)]
    · rw [hesc, hat.get (by decide)]
    · rw [hin, hv64 _ _ (by decide) (by decide)]
    · rw [hout64, hv64 _ _ (by decide) (by decide)]
    · obtain ⟨h1, h2, h3⟩ := hfault rfl h
      rw [hat.get (by decide)] at h2 h3
      exact ⟨h1, h2, h3⟩
    · obtain ⟨h1, h2⟩ := hgood rfl h
      rw [h1, h2, hat.get (by decide), hat.get (by decide)]
      exact ⟨rfl, rfl⟩
    · rw [henc, hvalid]
    · rw [henc, hchk]
    · rw [henc, hforce]
    · rw [henc]
      exact EncSt.noted_order _ _ _ _ _ _ _ _
    · rw [hothers j hj, hat.others j hj]
    · obtain ⟨hsent, happlied⟩ := encRecord_fields b
      exact fun q f hq => (hbut q f fun x hx => hq x (hsent hx)).trans (hat.but q f fun x hx => hq x (happlied hx))
  · obtain ⟨v, u, t, raw, out, key, hat, hrep, hpage, hexec, hflag, hsent⟩ := encode_lost hw hroom hitem hseg hdot hlive hsline horder hwf hi hb he
    have hpg : ∀ f, u.get (pENC b) f = v.get (pENC b) f := hpage _ (by unfold pENC pLSTORE; omega)
    have huf : u.fenced (pENC b) = false := by
      rw [← hat.unfenced hw]
      unfold State.fenced State.flag
      rw [hpg]
    obtain ⟨hqueues, hsinks, henc, -, -, -, -⟩ := State.encSent_state hsent
    obtain ⟨-, hrec, -, -, -, -, hlost, -, -⟩ := State.encSent_regs hsent huf
    obtain ⟨hcode, hchk⟩ := hlost rfl
    obtain ⟨r, k, e, m, c, w, hshape⟩ := hat.shape
    obtain ⟨r', w', e', hus⟩ := hrep
    have huq : u.queues = s.queues ∧ u.sinks = v.sinks := by
      rw [hus]
      exact ⟨by rw [hshape], rfl⟩
    refine ⟨t, { bytes := out.1, last := bit (byteAt tag 3) 2 }, hexec, by rw [hsinks, huq.2, hat.sinks], ?_, hflag, fun h0 => ?_, ?_, ?_, ?_⟩
    · rw [hqueues, NMap.getD_put_self, huq.1]
    · exact hcode (by rw [hpg, hat.get (by decide), h0])
    · rw [hchk, hpg, hat.get (by decide)]
    · rw [hrec, hpg, hat.get (by decide)]
    · rw [henc]
      exact ((u.encAt b).noted_bits (2 * seg + b2n live) sline seg key true live (bit (byteAt tag 3) 2)).2.1

end Sys2Proof.Machine
end

section
/-! ### Job records: what writing one moves (R185) -/
open Sys2Proof Sys2Proof.Machine
namespace Sys2Proof.Machine

/-- The record ring's write position is a place of the ring. -/
def State.ringPlaced (s : State) : Prop := s.get pDMAC R.DMAC_JREC_WR % 32 = 0 ∧ s.get pDMAC R.DMAC_JREC_WR < s.jrecSize
/-- The bursts of the job-record ring. -/
def State.recordBursts (s : State) : List Nat := burstsOf (s.get64 pDMAC R.DMAC_JREC_BASE_LO R.DMAC_JREC_BASE_HI) s.jrecSize
/-- The fields of DMAC that a job record moves. -/
def recordIds : List Nat := [R.DMAC_JREC_WR.id, R.DMAC_JREC_LOST.id, R.PG_IRQ_RAW.id]
/-- A step that writes job records at most. -/
structure State.recStep (s t : State) : Prop where
  page : ∀ p, ¬ dramPage p → p ≠ pDMAC → ∀ f, t.get p f = s.get p f
  ctrl : ∀ f : Fld, f.id ∉ recordIds → t.get pDMAC f = s.get pDMAC f
  placed : s.ringPlaced → t.ringPlaced
  rank : ∀ c r o, t.physRank c r o = s.physRank c r o
  only : s.ringPlaced → s.dramOnly t s.recordBursts
  shape : ∃ r d w m k q j, t = { s with regs := r, dram := d, host := { s.host with waiting := w }, dramMem := m, dramChk := k, dramWait := q, job := j }
section
variable {s t : State} (h : s.recStep t)
include h
theorem State.recStep.size : t.jrecSize = s.jrecSize := by
  unfold State.jrecSize
  rw [h.ctrl _ (by decide)]
theorem State.recStep.bursts : t.recordBursts = s.recordBursts := by
  unfold State.recordBursts State.get64
  rw [h.size, h.ctrl _ (by decide), h.ctrl _ (by decide)]
theorem State.recStep.keys (a : Nat) : t.burstKey a = s.burstKey a ∧ t.burstChk a = s.burstChk a := by
  have hplace : t.dramPlace a = s.dramPlace a := by
    obtain ⟨r, d, w, m, k, q, j, ht⟩ := h.shape
    rw [ht]
    rfl
  unfold State.burstKey State.burstChk
  rw [hplace, h.rank]
  exact ⟨rfl, rfl⟩
/-- Such a step stores in the ring of the job records alone. -/
theorem State.recStep.records : s.recordsOnly t [] := by
  obtain ⟨r, d, w, m, k, q, j, ht⟩ := h.shape
  refine ⟨by rw [ht], by rw [ht], fun hmod hlt => ?_⟩
  rw [List.append_nil]
  exact h.only ⟨hmod, hlt⟩
end
theorem State.recStep_refl (s : State) : s.recStep s :=
  ⟨fun _ _ _ _ => rfl, fun _ _ => rfl, id, fun _ _ _ => rfl, fun _ => s.dramOnly_refl _, _, _, _, _, _, _, _, rfl⟩
theorem State.recStep.trans {s t u : State} (h : s.recStep t) (k : t.recStep u) : s.recStep u := by
  refine ⟨fun p hp hd f => (k.page p hp hd f).trans (h.page p hp hd f), fun f hf => (k.ctrl f hf).trans (h.ctrl f hf), fun hs => k.placed (h.placed hs),
    fun c r o => (k.rank c r o).trans (h.rank c r o), fun hs => ⟨fun a ha => ?_, fun a ha => ?_⟩, ?_⟩
  · have hk := k.only (h.placed hs)
    rw [h.bursts] at hk
    exact (hk.1 a fun x hx => by rw [(h.keys x).1]; exact ha x hx).trans ((h.only hs).1 a ha)
  · have hk := k.only (h.placed hs)
    rw [h.bursts] at hk
    exact (hk.2 a fun x hx => by rw [(h.keys x).2]; exact ha x hx).trans ((h.only hs).2 a ha)
  · obtain ⟨r, d, w, m, k', q, j, ht⟩ := h.shape
    obtain ⟨r', d', w', m', k'', q', j', hu⟩ := k.shape
    exact ⟨r', d', w', m', k'', q', j', by rw [hu, ht]⟩
theorem State.recStep_foldl {α : Type} (g : State → α → State) (hg : ∀ (t : State) x, t.recStep (g t x)) (l : List α) (s : State) :
    s.recStep (l.foldl g s) := by
  induction l generalizing s with
  | nil => exact s.recStep_refl
  | cons x l ih => exact (hg s x).trans (ih _)
theorem State.recStep_updJob (s : State) (b : Nat) (g : JobSt → JobSt) : s.recStep (s.updJob b g) :=
  ⟨fun _ _ _ _ => rfl, fun _ _ => rfl, id, fun _ _ _ => rfl, fun _ => s.dramOnly_refl _, _, _, _, _, _, _, _, rfl⟩
/-- A step that moves only what a record counts in DMAC. -/
theorem State.recStep_of_reports {s t : State} (h : s.reports t) (hget : ∀ p f, p ≠ pDMAC ∨ f.id ∉ recordIds → t.get p f = s.get p f)
    (hplaced : s.ringPlaced → t.ringPlaced) : s.recStep t := by
  have hrank : ∀ c r o, t.physRank c r o = s.physRank c r o := by
    have hdram : ∀ n f, t.get (pDRAM n) f = s.get (pDRAM n) f := fun n f => hget _ f (Or.inl (by unfold pDRAM pDMAC; omega))
    intro c r o
    have hat : t.dramAt c = s.dramAt c := by
      obtain ⟨r, w, ht⟩ := h
      rw [ht]
      rfl
    unfold State.physRank State.rmap State.migPtr State.get64
    rw [hat]
    simp only [hdram]
  obtain ⟨r, w, ht⟩ := h
  refine ⟨fun p _ hp f => hget p f (Or.inl hp), fun f hf => hget _ f (Or.inr hf), hplaced, hrank, fun _ => ?_, r, s.dram, w, s.dramMem, s.dramChk,
    s.dramWait, s.job, ht⟩
  rw [ht]
  exact s.dramOnly_refl _
theorem mem_burstsOf {a n x : Nat} (hn : 0 < n) : x ∈ burstsOf a n ↔ x % 64 = 0 ∧ a / 64 ≤ x / 64 ∧ x / 64 ≤ (a + n - 1) / 64 := by
  unfold burstsOf
  rw [if_neg (by omega), List.mem_map]
  constructor
  · rintro ⟨i, hi, rfl⟩
    rw [List.mem_range] at hi
    omega
  · rintro ⟨h0, h1, h2⟩
    exact ⟨x / 64 - a / 64, by rw [List.mem_range]; omega, by omega⟩
/-- The bursts of bytes within others. -/
theorem burstsOf_within {a n c m : Nat} (hm : 0 < m) (hlo : a ≤ c) (hhi : c + m ≤ a + n) : burstsOf c m ⊆ burstsOf a n := fun x hx => by
  rw [mem_burstsOf hm] at hx
  rw [mem_burstsOf (by omega)]
  omega
theorem pDMAC_notDram : ¬ dramPage pDMAC := by
  rintro (h | ⟨c, hc, h⟩)
  · exact absurd h (by decide)
  · unfold pDMAC pDRAM at h
    omega
theorem State.recStep_dramPut (s : State) {a : Nat} {d : List Byte} (hd : 0 < d.length) (req : Nat)
    (h : s.ringPlaced → s.get64 pDMAC R.DMAC_JREC_BASE_LO R.DMAC_JREC_BASE_HI ≤ a ∧
      a + d.length ≤ s.get64 pDMAC R.DMAC_JREC_BASE_LO R.DMAC_JREC_BASE_HI + s.jrecSize) : s.recStep (s.dramPut a d req) := by
  unfold State.dramPut State.dramAsk
  split
  · have hstep := s.dramStep_dramWriteOpt a (d.map some) req
    rw [List.length_map] at hstep
    change s.recStep (s.dramWriteOpt a (d.map some) req)
    have hctrl : ∀ f, (s.dramWriteOpt a (d.map some) req).get pDMAC f = s.get pDMAC f := hstep.page _ pDMAC_notDram
    refine ⟨fun p hp _ => hstep.page p hp, fun f _ => hctrl f, fun hs => ?_, hstep.rank, fun hs => ?_, ?_⟩
    · unfold State.ringPlaced State.jrecSize at hs ⊢
      simpa only [hctrl] using hs
    · obtain ⟨hlo, hhi⟩ := h hs
      exact (hstep.mono (burstsOf_within hd hlo hhi)).only
    · obtain ⟨r, x, w, m, k, ht⟩ := hstep.shape
      exact ⟨r, x, w, m, k, s.dramWait, s.job, ht⟩
  · exact ⟨fun _ _ _ _ => rfl, fun _ _ => rfl, id, fun _ _ _ => rfl, fun _ => s.dramOnly_refl _, _, _, _, _, _, _, _, rfl⟩
theorem State.dramPut_dmac (s : State) (a : Nat) (d : List Byte) (req : Nat) (f : Fld) : (s.dramPut a d req).get pDMAC f = s.get pDMAC f := by
  unfold State.dramPut State.dramAsk
  split
  · exact (s.dramStep_dramWriteOpt a (d.map some) req).page _ pDMAC_notDram f
  · rfl
theorem State.jrecSize_mul (s : State) : 32 ∣ s.jrecSize ∧ 0 < s.jrecSize := by
  unfold State.jrecSize
  have hle : 10 ≤ max 10 (min 24 (s.get pDMAC R.DMAC_JREC_CFG_LOG2)) := le_max_left _ _
  exact ⟨(show (32 : Nat) = 2 ^ 5 by norm_num) ▸ Nat.pow_dvd_pow 2 (by omega), Nat.two_pow_pos _⟩
theorem State.recStep_putRecord (s : State) {r : List Byte} (hr : r.length = 32) : s.recStep (s.putRecord r) := by
  have hcause : ∀ (t : State) i, t.recStep (t.cause pDMAC i) := fun t i => by
    have hget : ∀ p f, p ≠ pDMAC ∨ f.id ∉ recordIds → (t.cause pDMAC i).get p f = t.get p f := fun p f h =>
      t.get_cause_ne i (h.imp id fun h e => h (e ▸ by decide))
    refine State.recStep_of_reports (t.reports_cause _ _) hget fun hs => ?_
    have hctrl : ∀ {f : Fld}, f.id ≠ R.PG_IRQ_RAW.id → (t.cause pDMAC i).get pDMAC f = t.get pDMAC f := fun h => t.get_cause_ne i (Or.inr h)
    unfold State.ringPlaced State.jrecSize at hs ⊢
    rw [hctrl (by decide), hctrl (by decide)]
    exact hs
  unfold State.putRecord
  dsimp only
  split
  · obtain ⟨hdvd, hpos⟩ := s.jrecSize_mul
    have hput := s.recStep_dramPut (a := s.get64 pDMAC R.DMAC_JREC_BASE_LO R.DMAC_JREC_BASE_HI + s.get pDMAC R.DMAC_JREC_WR) (d := r)
      (by omega) 0x4E fun ⟨hmod, hlt⟩ => by omega
    refine (hput.trans ?_).trans (hcause _ 5)
    have hwr := s.dramPut_dmac (s.get64 pDMAC R.DMAC_JREC_BASE_LO R.DMAC_JREC_BASE_HI + s.get pDMAC R.DMAC_JREC_WR) r 0x4E R.DMAC_JREC_WR
    generalize s.dramPut _ r 0x4E = u at hput hwr ⊢
    have hsize : u.jrecSize = s.jrecSize := hput.size
    refine State.recStep_of_reports (u.reports_set _ _ _) (fun p f h => u.get_set_ne _ (h.imp id fun h e => h (e ▸ by decide))) fun ⟨hmod, _⟩ => ?_
    have hlog : (u.set pDMAC R.DMAC_JREC_WR ((s.get pDMAC R.DMAC_JREC_WR + 32) % s.jrecSize)).jrecSize = s.jrecSize := by
      rw [← hsize]
      unfold State.jrecSize
      rw [State.get_set_field _ _ _ (by decide)]
    have hlt : (s.get pDMAC R.DMAC_JREC_WR + 32) % s.jrecSize < 2 ^ 32 := by
      refine (Nat.mod_lt _ hpos).trans_le ?_
      unfold State.jrecSize
      exact Nat.pow_le_pow_right (by decide) (by omega)
    unfold State.ringPlaced
    rw [hlog, State.get_set_self, show R.DMAC_JREC_WR.w = 32 from rfl, Nat.mod_eq_of_lt hlt]
    rw [hwr] at hmod
    refine ⟨?_, Nat.mod_lt _ hpos⟩
    rw [Nat.mod_mod_of_dvd _ hdvd]
    omega
  · refine State.recStep.trans ?_ (hcause _ 6)
    refine State.recStep_of_reports (s.reports_incSat _ _) (fun p f h => s.get_incSat_ne (h.imp id fun h e => h (e ▸ by decide))) fun hs => ?_
    unfold State.ringPlaced State.jrecSize at hs ⊢
    rw [State.get_incSat_field _ _ (by decide), State.get_incSat_field _ _ (by decide)]
    exact hs

theorem Run.record_length (r : Run) (b ns : Nat) (next : Bool) : (r.record b ns next).length = 32 := by
  simp [Run.record]
theorem State.recStep_closeRun (s : State) (b code tile : Nat) (next : Bool) : s.recStep (s.closeRun b code tile next) := by
  unfold State.closeRun
  split
  · exact s.recStep_refl
  · exact (s.recStep_updJob _ _).trans (State.recStep_putRecord _ (Run.record_length _ _ _ _))
theorem State.recStep_runLine (s : State) (b code tile : Nat) (aff : Bool) (segs : Nat) (x : JobLine) : s.recStep (s.runLine b code tile aff segs x) := by
  have hend : ∀ t : State, s.recStep t → s.recStep (if x.last then t.closeRun b code tile true else t) := fun t ht => by
    split
    · exact ht.trans (t.recStep_closeRun _ _ _ _)
    · exact ht
  have hopen : ∀ t : State, t.recStep (if !aff then t.updJob b fun j => { j with carry := j.carry.filter fun c => c != (code, tile) }
      else match (t.jobAt b).runs.find? fun r => r.code == code && r.tile == tile with
        | some _ => t.updJob b fun j => { j with runs := j.runs.map fun r =>
            if r.code = code ∧ r.tile = tile then { r with lines := r.lines + 1, segMask := r.segMask ||| segs } else r }
        | none => t.updJob b fun j => { j with
            runs := j.runs ++ [⟨x.jobId, code, tile, j.carry.contains (code, tile), x.q, 1, x.line, segs⟩]
            carry := j.carry.filter fun c => c != (code, tile) }) := fun t => by
    split
    · exact t.recStep_updJob _ _
    · split
      · exact t.recStep_updJob _ _
      · exact t.recStep_updJob _ _
  unfold State.runLine
  dsimp only
  refine hend _ (State.recStep.trans ?_ (hopen _))
  split
  · split_ifs
    · exact s.recStep_closeRun _ _ _ _
    · exact s.recStep_closeRun _ _ _ _
    · exact s.recStep_refl
  · exact s.recStep_refl

end Sys2Proof.Machine
end

section
/-! ### A serial lane and what goes on beside it (O56) -/
open Sys2Proof Sys2Proof.Machine
namespace Sys2Proof.Machine

/-! ### The state of a lane (R330) -/

/-- Heads that are as they were but for their telemetry timers. -/
def State.headsTimed (s t : State) : Prop := ∀ n, (t.headAt n).ready = (s.headAt n).ready ∧ (t.headAt n).cur = (s.headAt n).cur
theorem State.headsTimed_updHead (s : State) (h : Nat) (g : HeadSt → HeadSt) (hg : ∀ x, (g x).ready = x.ready ∧ (g x).cur = x.cur) :
    s.headsTimed (s.updHead h g) := fun n => by
  by_cases hn : n = h
  · rw [hn, State.headAt_upd_self]
    exact hg _
  · rw [State.headAt_upd_other _ _ hn]
    exact ⟨rfl, rfl⟩
/-- A step that moves lane l, its causes, the telemetry of heads and what calibration waits for. -/
structure State.laneMoves (s t : State) (l : Nat) : Prop where
  others : ∀ n, n ≠ l → t.laneAt n = s.laneAt n
  but : s.regsBut t [(pLANE l, R.PG_IRQ_RAW)]
  raw : ∀ i < 32, bit (s.get (pLANE l) R.PG_IRQ_RAW) i = true → bit (t.get (pLANE l) R.PG_IRQ_RAW) i = true
  heads : s.headsTimed t
  shape : ∃ r a h c w, t = { s with regs := r, lane := a, head := h, calst := c, host := { s.host with waiting := w } }
theorem State.laneMoves_refl (s : State) (l : Nat) : s.laneMoves s l :=
  ⟨fun _ _ => rfl, s.regsBut_refl _, fun _ _ h => h, fun _ => ⟨rfl, rfl⟩, _, _, _, _, _, rfl⟩
theorem State.laneMoves.trans {s t u : State} {l : Nat} (h : s.laneMoves t l) (k : t.laneMoves u l) : s.laneMoves u l := by
  refine ⟨fun n hn => (k.others n hn).trans (h.others n hn), State.regsBut_trans h.but k.but, fun i hi hb => k.raw i hi (h.raw i hi hb),
    fun n => ⟨(k.heads n).1.trans (h.heads n).1, (k.heads n).2.trans (h.heads n).2⟩, ?_⟩
  obtain ⟨r, a, x, c, w, ht⟩ := h.shape
  obtain ⟨r', a', x', c', w', hu⟩ := k.shape
  exact ⟨r', a', x', c', w', by rw [hu, ht]⟩
theorem State.laneMoves_updLane (s : State) (l : Nat) (g : LaneSt → LaneSt) : s.laneMoves (s.updLane l g) l :=
  ⟨fun _ hn => s.laneAt_upd_other _ hn, s.regsBut_refl _, fun _ _ h => h, fun _ => ⟨rfl, rfl⟩, _, _, _, _, _, rfl⟩
theorem State.laneMoves_cause (s : State) (l i : Nat) : s.laneMoves (s.cause (pLANE l) i) l := by
  obtain ⟨r, w, h⟩ := s.reports_cause (pLANE l) i
  refine ⟨fun n _ => ?_, State.regsBut_cause (s.regsBut_refl _) i (by simp), fun j hj hb => s.bit_cause_keeps hj hb, fun n => ?_, r, s.lane, s.head, s.calst,
    w, h⟩
  · rw [h]
    rfl
  · rw [h]
    exact ⟨rfl, rfl⟩
theorem State.laneMoves_tlmLane (s : State) (l st : Nat) : s.laneMoves (s.tlmLane l st) l := by
  have hupd : ∀ g : HeadSt → HeadSt, (∀ x, (g x).ready = x.ready ∧ (g x).cur = x.cur) → s.laneMoves (s.updHead l g) l := fun g hg =>
    ⟨fun _ _ => rfl, s.regsBut_refl _, fun _ _ h => h, s.headsTimed_updHead l g hg, _, _, _, _, _, rfl⟩
  unfold State.tlmLane
  split_ifs
  · exact s.laneMoves_refl l
  · exact hupd _ fun _ => ⟨rfl, rfl⟩
  · exact hupd _ fun _ => ⟨rfl, rfl⟩
  · exact s.laneMoves_refl l
theorem State.laneAt_tlmLane (s : State) (h st n : Nat) : (s.tlmLane h st).laneAt n = s.laneAt n := by
  unfold State.tlmLane
  split_ifs <;> rfl
theorem State.laneAt_cause (s : State) (p i n : Nat) : (s.cause p i).laneAt n = s.laneAt n := by
  obtain ⟨r, w, h⟩ := s.reports_cause p i
  rw [h]
  rfl
theorem State.laneMoves_scanLost (s : State) (l : Nat) : s.laneMoves (s.scanLost l) l := by
  unfold State.scanLost
  refine State.laneMoves.trans ?_ (State.laneMoves_updLane _ l _)
  split
  · exact ⟨fun _ _ => rfl, s.regsBut_refl _, fun _ _ h => h, fun _ => ⟨rfl, rfl⟩, _, _, _, _, _, rfl⟩
  · exact s.laneMoves_refl l
/-- A lane but for its state and its scan. -/
def LaneSt.beside (x y : LaneSt) : Prop := ∃ st sc cs cr, y = { x with st := st, scan := sc, calScan := cs, calRuns := cr }
theorem State.laneAt_scanLost (s : State) (l : Nat) : (s.scanLost l).laneAt l = { s.laneAt l with scan := none, calScan := false, calRuns := false } := by
  unfold State.scanLost
  rw [State.laneAt_upd_self]
  split <;> rfl
theorem State.setLane_spec (s : State) (l st : Nat) {t : State} (ht : s.setLane l st = t) :
    s.laneMoves t l ∧ (t.laneAt l).st = st ∧ (s.laneAt l).beside (t.laneAt l) ∧
    (l < 160 → (s.laneAt l).st ≠ st → st = 3 → bit (t.get (pLANE l) R.PG_IRQ_RAW) 3 = true) ∧
    (l < 160 → (s.laneAt l).st = 3 → st ≠ 3 → bit (t.get (pLANE l) R.PG_IRQ_RAW) 4 = true) := by
  obtain ⟨u, hu⟩ : ∃ u, (s.updLane l fun x => { x with st := st }).tlmLane l st = u := ⟨_, rfl⟩
  have hsu : s.laneMoves u l := hu ▸ (s.laneMoves_updLane l _).trans (State.laneMoves_tlmLane _ l st)
  have hat : u.laneAt l = { s.laneAt l with st := st } := by
    rw [← hu, State.laneAt_tlmLane, State.laneAt_upd_self]
  have hcause : ∀ i < 32, l < 160 → bit ((u.cause (pLANE l) i).get (pLANE l) R.PG_IRQ_RAW) i = true := fun i hi hl =>
    u.bit_cause hi (u.frozen_lane ⟨l, hl⟩)
  have hbeside : ∀ y : LaneSt, y = { s.laneAt l with st := st } → (s.laneAt l).beside y := fun y hy => ⟨st, _, _, _, hy⟩
  unfold State.setLane at ht
  dsimp only at ht
  rw [hu] at ht
  by_cases hsame : (s.laneAt l).st = st
  · rw [if_pos hsame] at ht
    subst ht
    exact ⟨hsu, by rw [hat], hbeside _ hat, fun _ h => absurd hsame h, fun _ h3 hn => absurd (hsame.symm.trans h3) hn⟩
  · rw [if_neg hsame] at ht
    by_cases hup : st = 3
    · rw [if_pos hup] at ht
      subst ht
      refine ⟨hsu.trans (u.laneMoves_cause l 3), ?_, hbeside _ ?_, fun hl _ _ => hcause 3 (by decide) hl, fun _ _ hn => absurd hup hn⟩ <;>
        rw [State.laneAt_cause, hat]
    · rw [if_neg hup] at ht
      by_cases hwas : (s.laneAt l).st = 3
      · rw [if_pos hwas] at ht
        subst ht
        have hlost := (u.cause (pLANE l) 4).laneAt_scanLost l
        rw [State.laneAt_cause, hat] at hlost
        have hmoves := (u.cause (pLANE l) 4).laneMoves_scanLost l
        refine ⟨(hsu.trans (u.laneMoves_cause l 4)).trans hmoves, by rw [hlost], ⟨st, none, false, false, hlost⟩, fun _ _ h => absurd h hup, fun hl _ _ => ?_⟩
        exact hmoves.raw 4 (by decide) (hcause 4 (by decide) hl)
      · rw [if_neg hwas] at ht
        subst ht
        exact ⟨hsu, by rw [hat], hbeside _ hat, fun _ _ h => absurd h hup, fun _ h => absurd h hwas⟩

/-! ### What moves beside a lane -/

/-- The counters of a lane. -/
def laneTallies : List Fld := [R.LANE_EXIT_CNT, R.LANE_LOCK_CNT, R.LANE_BLK_ERR]
/-- A step beside lane l. -/
structure State.besideLane (s t : State) (l : Nat) : Prop where
  header : s.headerKeeps t (pLANE l)
  counts : ∀ f ∈ laneTallies, t.get (pLANE l) f = s.get (pLANE l) f
  lane : t.laneAt l = s.laneAt l
theorem State.besideLane_refl (s : State) (l : Nat) : s.besideLane s l := ⟨s.headerKeeps_refl _, fun _ _ => rfl, rfl⟩
theorem State.besideLane.trans {s t u : State} {l : Nat} (h : s.besideLane t l) (k : t.besideLane u l) : s.besideLane u l :=
  ⟨h.header.trans k.header, fun f hf => (k.counts f hf).trans (h.counts f hf), k.lane.trans h.lane⟩
/-- What a cause of the pair moves: PAIR's registers, its state and what it sends. -/
theorem State.pairRise_frame (s t : State) (code b : Nat) : (∀ q f, q ≠ pPAIR → (s.pairRise t code b).get q f = t.get q f) ∧
    ∃ r p w o, s.pairRise t code b = { t with regs := r, pair := p, host := { t.host with waiting := w }, outs := o } := by
  unfold State.pairRise
  split
  · exact ⟨fun _ _ _ => rfl, _, _, _, _, rfl⟩
  · split
    · next c _ =>
      have hkeeps := t.causeKeeps_pairCause c code b
      refine ⟨fun q f hq => hkeeps.regs q f fun e he => Or.inl ?_, hkeeps.frame⟩
      simp only [giveFields, errFields, List.mem_append, List.mem_cons, List.not_mem_nil, or_false] at he
      rcases he with ((rfl | rfl | rfl | rfl) | (rfl | rfl | rfl | rfl | rfl | rfl | rfl)) | rfl <;> exact hq
    · exact ⟨fun _ _ _ => rfl, _, _, _, _, rfl⟩
theorem pPAIR_notLane (l : Nat) : pPAIR ≠ pLANE l := by
  unfold pPAIR pLANE
  omega
theorem State.besideLane_pairRise (s t : State) (l code b : Nat) : t.besideLane (s.pairRise t code b) l := by
  obtain ⟨hget, r, p, w, o, hshape⟩ := s.pairRise_frame t code b
  refine ⟨State.headerKeeps_pairRise _ _ (Or.inl (pPAIR_notLane l)), fun f _ => hget _ f (pPAIR_notLane l).symm, ?_⟩
  rw [hshape]
  rfl
theorem State.feedLike.laneAt {s t : State} (h : s.feedLike t) (l : Nat) : t.laneAt l = s.laneAt l := by
  have hs := congrArg State.lane h.shape
  dsimp only at hs
  unfold State.laneAt
  rw [hs]
theorem State.besideLane_feedSettle (s : State) (l : Nat) : s.besideLane s.feedSettle l := by
  have hstep := s.feedStep_feedSettle
  refine ⟨s.headerKeeps_feedSettle _, fun f hf => hstep.get f (by revert f; decide) _, ?_⟩
  exact hstep.like.laneAt l
/-- What follows a change of a lane: the feed ports behind it, and the pair's causes. -/
theorem State.besideLane_laneAfter (s t : State) (l code : Nat) : t.besideLane (s.laneAfter t l code) l := by
  unfold State.laneAfter
  dsimp only
  split
  · exact (t.besideLane_feedSettle l).trans (s.besideLane_pairRise _ _ _ _)
  · exact s.besideLane_pairRise t _ _ _
/-- A write of BOOT's registers leaves a lane. -/
theorem State.besideLane_boot {s t : State} (l : Nat) (h : s.reports t) (hget : ∀ q f, q ≠ pBOOT → t.get q f = s.get q f) : s.besideLane t l := by
  have hne : pBOOT ≠ pLANE l := by
    unfold pBOOT pLANE
    omega
  have hlane : ∀ f, t.get (pLANE l) f = s.get (pLANE l) f := fun f => hget _ f hne.symm
  have htherm := hget pTHERM R.THERM_STAT_SHUT (by decide)
  obtain ⟨r, w, ht⟩ := h
  refine ⟨⟨fun f _ => hlane f, fun i _ hb => by rwa [hlane], htherm, ?_, ?_, ?_, ?_⟩, fun f _ => hlane f, ?_⟩ <;> rw [ht]
  · exact ⟨rfl, rfl⟩
  · rfl

theorem State.besideLane_err_boot (s : State) (l code step addr : Nat) : s.besideLane (s.bootErr code step addr) l :=
  State.besideLane_boot l (s.reports_err _ _ _ _ _ _) fun _ _ hq => s.get_err_ne _ _ _ _ _ _ (Or.inl hq)
theorem State.besideLane_updBoot (s : State) (l : Nat) (g : BootSt → BootSt) : s.besideLane (s.updBoot g) l :=
  ⟨State.headerKeeps_of_regs _ rfl rfl rfl rfl rfl, fun _ _ => rfl, rfl⟩
theorem State.besideLane_backOff (s : State) (l key : Nat) : s.besideLane (s.backOff key) l := by
  unfold State.backOff
  exact s.besideLane_updBoot l _
theorem State.besideLane_bootStat (s : State) (l : Nat) : s.besideLane s.bootStat l := by
  have hset : ∀ (t : State) f v, t.besideLane (t.set pBOOT f v) l := fun t f v =>
    State.besideLane_boot l (t.reports_set _ _ _) fun _ _ hq => t.get_set_ne _ (Or.inl hq)
  have hflags : ∀ x y z, s.besideLane (((s.setFlag pBOOT R.BOOT_STAT_READY x).setFlag pBOOT R.BOOT_STAT_DONE y).setFlag pBOOT
      R.BOOT_STAT_RETRYING z) l := fun x y z => ((hset _ _ _).trans (hset _ _ _)).trans (hset _ _ _)
  unfold State.bootStat
  dsimp only
  split
  · exact ((hflags _ _ _).trans (State.besideLane_updBoot _ l _)).trans
      (State.besideLane_boot l (State.reports_cause _ _ _) fun _ _ hq => State.get_cause_ne _ _ (Or.inl hq))
  · exact hflags _ _ _
theorem State.besideLane_setStep (s : State) (l i v : Nat) : s.besideLane (s.setStep i v) l := by
  have hset : ∀ (t : State) f v, t.besideLane (t.set pBOOT f v) l := fun t f v =>
    State.besideLane_boot l (t.reports_set _ _ _) fun _ _ hq => t.get_set_ne _ (Or.inl hq)
  unfold State.setStep
  split
  · exact s.besideLane_refl l
  · have hstep : s.besideLane ((s.set pBOOT (bootFld i) v).cause pBOOT 3) l := (hset s _ _).trans
      (State.besideLane_boot l (State.reports_cause _ _ _) fun _ _ hq => State.get_cause_ne _ _ (Or.inl hq))
    dsimp only
    split
    · exact (hstep.trans (hset _ _ _)).trans (State.besideLane_bootStat _ l)
    · exact hstep.trans (State.besideLane_bootStat _ l)
/-- The boot sequencer's judgement of its lanes leaves a lane. -/
theorem State.besideLane_lanesJudge (s : State) (l i : Nat) : s.besideLane (s.lanesJudge i) l := by
  have herrs : ∀ (m : List Nat) (t : State), t.besideLane (m.foldl (fun t n => t.bootErr 0x23 5 n) t) l := fun m => by
    induction m with
    | nil => exact fun t => t.besideLane_refl l
    | cons n m ih => exact fun t => (t.besideLane_err_boot l _ _ _).trans (ih _)
  unfold State.lanesJudge
  dsimp only
  split_ifs
  · exact s.besideLane_refl l
  · exact s.besideLane_setStep l _ _
  · exact s.besideLane_refl l
  · exact s.besideLane_setStep l _ _
  · exact s.besideLane_refl l
  · exact s.besideLane_refl l
  · exact (herrs _ _).trans (State.besideLane_setStep _ l _ _)
  · exact s.besideLane_setStep l _ _
theorem State.besideLane_bootSearchEnd (s : State) (l n : Nat) (ok : Bool) : s.besideLane (s.bootSearchEnd n ok) l := by
  have hback : ∀ (u : State) (c : Bool), s.besideLane u l →
      s.besideLane (if ok then u.backOk (0x100 + n) else if c then (u.backOff (0x100 + n)).bootErr 0x23 (laneStep n) n else u.backOff (0x100 + n)) l :=
    fun u c hu => by
      split_ifs
      · exact hu.trans (u.besideLane_updBoot l _)
      · exact (hu.trans (u.besideLane_backOff l _)).trans (State.besideLane_err_boot _ l _ _ _)
      · exact hu.trans (u.besideLane_backOff l _)
  exact (hback _ _ (s.besideLane_updBoot l _)).trans (State.besideLane_lanesJudge _ l _)

/-! ### The fence of a lane (R341) -/

theorem State.besideLane_runLine (s : State) (l b code tile : Nat) (aff : Bool) (segs : Nat) (x : JobLine) : s.besideLane (s.runLine b code tile aff segs x) l := by
  have hdram : ¬ dramPage (pLANE l) := by
    rintro (h | ⟨c, hc, h⟩)
    · unfold pLANE pDRAMC at h
      omega
    · unfold pLANE pDRAM at h
      omega
  have hstep := s.recStep_runLine b code tile aff segs x
  refine ⟨s.headerKeeps_runLine _ _ _ _ _ _ hdram, fun f _ => hstep.page _ hdram (by unfold pLANE pDMAC; omega) f, ?_⟩
  obtain ⟨r, d, w, m, k, q, j, ht⟩ := hstep.shape
  rw [ht]
  rfl
theorem State.besideLane_foldl {α : Type} {l : Nat} (g : State → α → State) (hg : ∀ (t : State) x, t.besideLane (g t x) l) (m : List α) (s : State) :
    s.besideLane (m.foldl g s) l := by
  induction m generalizing s with
  | nil => exact s.besideLane_refl l
  | cons x m ih => exact (hg s x).trans (ih _)
theorem State.besideLane_laneCut (s : State) (l h reason : Nat) : s.besideLane (s.laneCut h reason) l := by
  unfold State.laneCut
  exact (State.besideLane_foldl _ (fun t x => t.besideLane_runLine l _ _ _ _ _ _) _ s).trans
    ⟨State.headerKeeps_of_regs _ rfl rfl rfl rfl rfl, fun _ _ => rfl, rfl⟩

/-- What the fence of one page moves, where its block has nothing but heads to stop. -/
structure State.fenceMoves (s t : State) (p : Nat) : Prop where
  page : ∀ q f, q ≠ p → q ≠ pPAIR → t.get q f = s.get q f
  heads : s.headsTimed t
  shape : ∃ r h w m o x e, t = { s with regs := r, head := h, host := { s.host with waiting := w }, fenceAt := m, outs := o, pair := x, srsts := e }
theorem State.fenceMoves_refl (s : State) (p : Nat) : s.fenceMoves s p := ⟨fun _ _ _ _ => rfl, fun _ => ⟨rfl, rfl⟩, _, _, _, _, _, _, _, rfl⟩
theorem State.fenceMoves.trans {s t u : State} {p : Nat} (h : s.fenceMoves t p) (k : t.fenceMoves u p) : s.fenceMoves u p := by
  refine ⟨fun q f hq hp => (k.page q f hq hp).trans (h.page q f hq hp), fun n => ⟨(k.heads n).1.trans (h.heads n).1, (k.heads n).2.trans (h.heads n).2⟩, ?_⟩
  obtain ⟨r, a, w, m, o, x, e, ht⟩ := h.shape
  obtain ⟨r', a', w', m', o', x', e', hu⟩ := k.shape
  exact ⟨r', a', w', m', o', x', e', by rw [hu, ht]⟩
theorem State.fenceMoves_of_reports {s t : State} {p : Nat} (h : s.reports t) (hget : ∀ q f, q ≠ p → t.get q f = s.get q f) : s.fenceMoves t p := by
  obtain ⟨r, w, ht⟩ := h
  refine ⟨fun q f hq _ => hget q f hq, fun n => ?_, r, s.head, w, s.fenceAt, s.outs, s.pair, s.srsts, ht⟩
  rw [ht]
  exact ⟨rfl, rfl⟩
theorem State.fenceMoves_fenceMark (s : State) (p reason : Nat) : s.fenceMoves (s.fenceMark p reason) p := by
  obtain ⟨hget, r, w, m, h⟩ := s.fenceMark_frame p reason
  refine ⟨fun q f hq _ => hget q hq f, fun n => ?_, r, s.head, w, m, s.outs, s.pair, s.srsts, h⟩
  rw [h]
  exact ⟨rfl, rfl⟩
theorem State.fenceMoves_pairRise (s t : State) (p code b : Nat) : t.fenceMoves (s.pairRise t code b) p := by
  obtain ⟨hget, r, x, w, o, h⟩ := s.pairRise_frame t code b
  refine ⟨fun q f _ hq => hget q f hq, fun n => ?_, r, t.head, w, t.fenceAt, o, x, t.srsts, h⟩
  rw [h]
  exact ⟨rfl, rfl⟩
theorem State.errCount_page (s : State) (p code src lo hi dir : Nat) {q : Nat} (hq : q ≠ p) (f : Fld) :
    (s.errCount p code src lo hi dir).get q f = s.get q f := by
  have hset : ∀ (t : State) g v, (t.set p g v).get q f = t.get q f := fun t g v => t.get_set_ne v (Or.inl hq)
  unfold State.errCount
  dsimp only
  rw [State.get_incSat_ne _ (Or.inl hq)]
  split
  · rw [hset, hset, hset, hset, hset]
  · rfl
theorem State.fenceMoves_fenceOne (s : State) {p i : Nat} {b : Blk} (hb : blkOf p = some (b, i)) (reason src lo hi : Nat) (count : Bool)
    (hstops : ∀ t : State, t.fenceMoves (t.fenceStops b i reason) p) : s.fenceMoves (s.fenceOne p reason src lo hi count) p := by
  unfold State.fenceOne
  simp only [hb]
  split
  · exact s.fenceMoves_refl p
  · split
    · split
      · have hcount : s.fenceMoves (if count then s.errCount p reason src lo hi 0 else s) p := by
          split
          · exact State.fenceMoves_of_reports (s.reports_errCount _ _ _ _ _ _) fun q f hq => s.errCount_page p reason src lo hi 0 hq f
          · exact s.fenceMoves_refl p
        refine hcount.trans ?_
        unfold State.fenceJoin
        dsimp only
        generalize (if count then s.errCount p reason src lo hi 0 else s) = u
        split
        · exact State.fenceMoves_of_reports (u.reports_set _ _ _) fun q f hq => u.get_set_ne _ (Or.inl hq)
        · exact u.fenceMoves_refl p
      · exact s.fenceMoves_refl p
    · split
      · exact ⟨fun _ _ _ _ => rfl, fun _ => ⟨rfl, rfl⟩, _, _, _, _, _, _, _, rfl⟩
      · have hcount : s.fenceMoves (if count then s.err p reason src lo hi else s) p := by
          split
          · exact State.fenceMoves_of_reports (s.reports_err _ _ _ _ _ _) fun q f hq => s.get_err_ne _ _ _ _ _ _ (Or.inl hq)
          · exact s.fenceMoves_refl p
        exact ((hcount.trans (State.fenceMoves_fenceMark _ p reason)).trans (hstops _)).trans (State.fenceMoves_pairRise _ _ p _ _)
theorem State.fenceMoves_headStops (s : State) (h reason : Nat) : s.fenceMoves (s.headStops h reason) (pHEAD h) := by
  unfold State.headStops
  refine ⟨fun q f hq _ => s.get_set_ne _ (Or.inl hq), ?_, _, _, _, _, _, _, _, rfl⟩
  exact State.headsTimed_updHead _ h _ fun _ => ⟨rfl, rfl⟩
theorem State.fenceMoves.hold {s t : State} {p : Nat} (h : s.fenceMoves t p) : t.hold = s.hold := by
  obtain ⟨r, a, w, m, o, x, e, ht⟩ := h.shape
  rw [ht]
  rfl
theorem State.fenceMoves.laneAt {s t : State} {p : Nat} (h : s.fenceMoves t p) (n : Nat) : t.laneAt n = s.laneAt n := by
  obtain ⟨r, a, w, m, o, x, e, ht⟩ := h.shape
  rw [ht]
  rfl

end Sys2Proof.Machine
end

section
/-! ### The fence of a lane (O56) -/
open Sys2Proof Sys2Proof.Machine
namespace Sys2Proof.Machine

/-- Job records written from a state that has the same memories and the same ring. -/
theorem State.recordsOnly_congr {s u t : State} {l : List Nat} (hget : ∀ f, u.get pDMAC f = s.get pDMAC f)
    (hkeys : ∀ a, u.burstKey a = s.burstKey a ∧ u.burstChk a = s.burstChk a) (hhold : u.hold = s.hold) (h : u.recordsOnly t l) : s.recordsOnly t l := by
  simp only [State.hold, Prod.mk.injEq] at hhold
  obtain ⟨hpend, hstore, hmem, hchk, hflash⟩ := hhold
  obtain ⟨h1, h2, h3⟩ := h
  refine ⟨h1.trans hpend, h2.trans hflash, fun hmod hlt => ?_⟩
  have hsize : u.jrecSize = s.jrecSize := by
    unfold State.jrecSize
    rw [hget]
  have hbase : u.get64 pDMAC R.DMAC_JREC_BASE_LO R.DMAC_JREC_BASE_HI = s.get64 pDMAC R.DMAC_JREC_BASE_LO R.DMAC_JREC_BASE_HI := by
    unfold State.get64
    rw [hget, hget]
  rw [hsize, hbase, hget] at h3
  obtain ⟨hm, hc⟩ := h3 hmod hlt
  refine ⟨fun k hk => (hm k fun x hx => ?_).trans (by rw [hmem]), fun k hk => (hc k fun x hx => ?_).trans (by rw [hchk])⟩
  · rw [(hkeys x).1]
    exact hk x hx
  · rw [(hkeys x).2]
    exact hk x hx
theorem State.recordsOnly_hold {s t u : State} {l : List Nat} (h : s.recordsOnly t l) (hu : u.hold = t.hold) : s.recordsOnly u l := by
  simp only [State.hold, Prod.mk.injEq] at hu
  obtain ⟨hpend, hstore, hmem, hchk, hflash⟩ := hu
  obtain ⟨h1, h2, h3⟩ := h
  refine ⟨hpend.trans h1, hflash.trans h2, fun hmod hlt => ?_⟩
  obtain ⟨hm, hc⟩ := h3 hmod hlt
  exact ⟨fun k hk => by rw [hmem]; exact hm k hk, fun k hk => by rw [hchk]; exact hc k hk⟩
theorem State.recordsOnly_self {s t : State} (h : t.hold = s.hold) : s.recordsOnly t [] := State.recordsOnly_hold s.recStep_refl.records h
/-- DRAM's pages and DMAC's. -/
def ringPage (p : Nat) : Prop := p = pDMAC ∨ dramPage p
theorem State.keys_congr {s u : State} (hget : ∀ p, dramPage p → ∀ f, u.get p f = s.get p f) (hgeo : u.geo = s.geo) (hdram : u.dram = s.dram) (a : Nat) :
    u.burstKey a = s.burstKey a ∧ u.burstChk a = s.burstChk a := by
  have hat : ∀ c, u.dramAt c = s.dramAt c := fun c => by unfold State.dramAt; rw [hdram]
  have hplace : u.dramPlace a = s.dramPlace a := by unfold State.dramPlace; rw [hgeo]
  have hrank : u.physRank (s.dramPlace a).1 (s.dramPlace a).2.1 (s.dramPlace a).2.2 = s.physRank (s.dramPlace a).1 (s.dramPlace a).2.1 (s.dramPlace a).2.2 := by
    have hpage := hget _ (dramPage_chan (s.dramPlace_chan a))
    unfold State.physRank State.rmap State.migPtr State.get64
    rw [hat]
    simp only [hpage]
  unfold State.burstKey State.burstChk
  rw [hplace, hrank]
  exact ⟨rfl, rfl⟩
/-- The fence of a lane or a channel leaves the job records where they stand. -/
theorem State.fenceMoves.records {s u t : State} {p : Nat} (h : s.fenceMoves u p) (hp : ¬ ringPage p) (k : u.recordsOnly t []) : s.recordsOnly t [] := by
  have hget : ∀ q, ringPage q → ∀ f, u.get q f = s.get q f := fun q hq f => h.page q f (fun e => hp (e ▸ hq)) (by
    rintro rfl
    rcases hq with hq | hq | ⟨c, hc, hq⟩
    · exact absurd hq (by decide)
    · exact absurd hq (by decide)
    · unfold pPAIR pDRAM at hq
      omega)
  refine State.recordsOnly_congr (hget _ (Or.inl rfl)) (fun a => State.keys_congr (fun q hq => hget q (Or.inr hq)) ?_ ?_ a) h.hold k
  all_goals
    obtain ⟨r, x, w, m, o, y, e, hu⟩ := h.shape
    rw [hu]
  rfl
theorem pLANE_notRing (l : Nat) : ¬ ringPage (pLANE l) := by
  rintro (h | h | ⟨c, hc, h⟩)
  · unfold pLANE pDMAC at h
    omega
  · unfold pLANE pDRAMC at h
    omega
  · unfold pLANE pDRAM at h
    omega
theorem pHEAD_notRing (l : Nat) : ¬ ringPage (pHEAD l) := by
  rintro (h | h | ⟨c, hc, h⟩)
  · unfold pHEAD pDMAC at h
    omega
  · unfold pHEAD pDRAMC at h
    omega
  · unfold pHEAD pDRAM at h
    omega

/-! ### A page that fences -/

theorem State.fencedNow_fenceMark (s : State) (p reason : Nat) : (s.fenceMark p reason).fencedNow p = true := by
  unfold State.fencedNow
  rw [(s.fenceMark_reason p reason).1]
  have hmap : (s.fenceMark p reason).fenceAt = (s.fenceFlags p reason).fenceAt.put p s.tick := rfl
  have htick : (s.fenceMark p reason).tick = s.tick := by
    obtain ⟨-, r, w, m, h⟩ := s.fenceMark_frame p reason
    rw [h]
  rw [hmap, htick, NMap.has_put_self, NMap.getD_put_self]
  simp
/-- A page that may fence shows it at once, with its reason. -/
theorem State.fenceOne_shows {s : State} {p i : Nat} {b : Blk} (hb : blkOf p = some (b, i)) (hnever : neverFences b i = false) (hmay : mayFence s p)
    (hpair : pPAIR ≠ p) {reason : Nat} (hr : reason < 256) (src lo hi : Nat) (count : Bool)
    (hstops : ∀ t : State, t.headerKeeps (t.fenceStops b i reason) p) {t : State} (ht : s.fenceOne p reason src lo hi count = t) :
    t.fenced p = true ∧ t.get p R.PG_FENCE_REASON = reason ∧ t.fencedNow p = true := by
  obtain ⟨hfen, hheld, hres⟩ := hmay
  obtain ⟨u, hu⟩ : ∃ u, (if count then s.err p reason src lo hi else s).fenceMark p reason = u := ⟨_, rfl⟩
  have hkeep : u.headerKeeps t p := by
    rw [← ht]
    unfold State.fenceOne
    simp only [hb]
    rw [if_neg (by simp [hnever]), if_neg (by simp [hfen]), if_neg (by simp [hres, hheld]), hu]
    exact (hstops _).trans (State.headerKeeps_pairRise _ _ (Or.inl hpair))
  obtain ⟨h1, h2⟩ := (if count then s.err p reason src lo hi else s).fenceMark_shows p reason hr
  have h3 := (if count then s.err p reason src lo hi else s).fencedNow_fenceMark p reason
  rw [hu] at h1 h2 h3
  exact ⟨hkeep.fenced.trans h1, (hkeep.flds _ (by simp [fenceHeader])).trans h2, hkeep.fencedNow.trans h3⟩
theorem laneTallies_apart : ∀ f ∈ laneTallies,
    (f.id ≠ R.PG_ERR_CNT.id ∧ f.id ≠ R.PG_ERR_ADDR_LO.id ∧ f.id ≠ R.PG_ERR_ADDR_HI.id ∧ f.id ≠ R.PG_ERR_INFO_SRC.id ∧
      f.id ≠ R.PG_ERR_INFO_DIR.id ∧ f.id ≠ R.PG_ERR_INFO_CODE.id ∧ f.id ≠ R.PG_IRQ_RAW.id) ∧
    f.id ≠ R.PG_FENCE_FENCED.id ∧ f.id ≠ R.PG_FENCE_REASON.id ∧ f.id ≠ R.PG_FENCE_COUNT.id := by decide
/-- A lane's counters stand through its fence. -/
theorem State.fenceOne_laneTallies (s : State) {l : Nat} (hl : l < 160) (reason src lo hi : Nat) {f : Fld} (hf : f ∈ laneTallies) :
    (s.fenceOne (pLANE l) reason src lo hi).get (pLANE l) f = s.get (pLANE l) f := by
  obtain ⟨⟨h1, h2, h3, h4, h5, h6, h7⟩, h8, h9, h10⟩ := laneTallies_apart f hf
  have herr := s.get_err_ne (pLANE l) reason src lo hi 0 (q := pLANE l) (Or.inr ⟨h1, h2, h3, h4, h5, h6, h7⟩)
  have hcount : (s.errCount (pLANE l) reason src lo hi 0).get (pLANE l) f = s.get (pLANE l) f := s.errCount_keeps _ _ _ _ _ (by
    simp only [List.forall_mem_cons, List.not_mem_nil, false_imp_iff, implies_true, and_true]
    exact ⟨h1, h2, h3, h4, h5, h6⟩)
  unfold State.fenceOne
  simp only [blkOf_lane l hl]
  split
  · rfl
  · split
    · split
      · unfold State.fenceJoin
        dsimp only
        rw [if_pos rfl]
        split
        · rw [State.get_set_field _ _ _ h9, hcount]
        · rw [hcount]
      · rfl
    · split
      · rfl
      · rw [(State.pairRise_frame _ _ _ _).1 _ _ (pPAIR_notLane l).symm]
        exact (State.fenceMark_field _ _ _ ⟨h8, h9, h10, h7⟩).trans herr

/-! ### A head lane and its channel (R341) -/

theorem State.laneCut_spec (s : State) (h reason : Nat) {t : State} (ht : s.laneCut h reason = t) :
    s.recordsOnly t [] ∧ t.lstore = s.lstore ∧ ((s.headAt h).ready = [] → t.hold = s.hold) ∧
    (t.headAt h).ready = [] ∧ (t.headAt h).cur = (s.headAt h).cur.map fun f => { f with noFire := true } := by
  obtain ⟨u, hu⟩ : ∃ u, (s.headAt h).ready.foldl (fun t x =>
    t.runLine (h / 16) reason (h % 16) true 0xFFFF ⟨x.tl.line, x.tl.jobId, x.tl.recQ, x.tl.last⟩) s = u := ⟨_, rfl⟩
  have hrec : s.recStep u := hu ▸ State.recStep_foldl _ (fun t x => t.recStep_runLine _ _ _ _ _ _) _ s
  have hhead : u.headAt h = s.headAt h := by
    obtain ⟨r, d, w, m, k, q, j, hshape⟩ := hrec.shape
    rw [hshape]
    rfl
  have hstore : u.lstore = s.lstore := by
    obtain ⟨r, d, w, m, k, q, j, hshape⟩ := hrec.shape
    rw [hshape]
  unfold State.laneCut at ht
  dsimp only at ht
  rw [hu] at ht
  subst ht
  refine ⟨hrec.records, hstore, fun h0 => ?_, by rw [State.headAt_upd_self], by rw [State.headAt_upd_self, hhead]⟩
  rw [← hu, h0]
  rfl
theorem pHEAD_notPair (l : Nat) : pPAIR ≠ pHEAD l := by
  unfold pPAIR pHEAD
  omega
/-- What the fence of a head lane stops of its channel. -/
theorem State.laneFences_spec (s : State) {l reason : Nat} (hl : l < 128) (hr : reason < 256) {t : State} (ht : s.laneFences l reason = t) :
    s.besideLane t l ∧ s.recordsOnly t [] ∧ t.lstore = s.lstore ∧ ((s.headAt l).ready = [] → t.hold = s.hold) ∧
    (t.headAt l).ready = [] ∧ (t.headAt l).cur = ((s.headAt l).cur.map fun f => { f with noFire := true }) ∧
    (mayFence s (pHEAD l) → t.fenced (pHEAD l) = true ∧ t.get (pHEAD l) R.PG_FENCE_REASON = reason) := by
  obtain ⟨first, hfirst⟩ : ∃ first, s.firstCut l = first := ⟨_, rfl⟩
  obtain ⟨u, hu⟩ : ∃ u, s.laneCut l reason = u := ⟨_, rfl⟩
  obtain ⟨v, hv⟩ : ∃ v, u.fenceOne (pHEAD l) reason 0 first = v := ⟨_, rfl⟩
  obtain ⟨hrec, hstore, hnone, hready, hcur⟩ := s.laneCut_spec l reason hu
  have hcut : s.besideLane u l := hu ▸ s.besideLane_laneCut l l reason
  have hmoves : u.fenceMoves v (pHEAD l) := hv ▸ u.fenceMoves_fenceOne (blkOf_head l hl) reason 0 first 0 true fun t => t.fenceMoves_headStops l reason
  have htv : ∃ x : Bool, t = if x then v.set (pHEAD l) R.HEAD_FENCE_LINE first else v := by
    refine ⟨v.fenced (pHEAD l) && !s.fenced (pHEAD l), ?_⟩
    rw [← ht, State.laneFences, hfirst, hu, hv]
  obtain ⟨x, htv⟩ := htv
  have hget : ∀ q f, q ≠ pHEAD l → t.get q f = v.get q f := fun q f hq => by
    rw [htv]
    split
    · exact v.get_set_ne _ (Or.inl hq)
    · rfl
  have hfield : ∀ {f : Fld}, f.id ≠ R.HEAD_FENCE_LINE.id → t.get (pHEAD l) f = v.get (pHEAD l) f := fun {f} hf => by
    rw [htv]
    split
    · exact v.get_set_ne _ (Or.inr hf)
    · rfl
  have hat : (∀ n, t.laneAt n = v.laneAt n) ∧ (∀ n, t.headAt n = v.headAt n) ∧ t.hold = v.hold := by
    rw [htv]
    split <;> exact ⟨fun _ => rfl, fun _ => rfl, rfl⟩
  obtain ⟨hlane, hhead, hhold⟩ := hat
  have hvhold : t.hold = u.hold := hhold.trans hmoves.hold
  have hne : pLANE l ≠ pHEAD l := by
    unfold pLANE pHEAD
    omega
  have hsame := hvhold
  simp only [State.hold, Prod.mk.injEq] at hsame
  refine ⟨⟨ht ▸ s.headerKeeps_laneFences reason (blkOf_lane l (by omega)) hl, fun f hf => ?_, ?_⟩, State.recordsOnly_hold hrec hvhold,
    hsame.2.1.trans hstore, fun h0 => hvhold.trans (hnone h0), ?_, ?_, fun hmay => ?_⟩
  · rw [hget _ _ hne, hmoves.page _ _ hne (pPAIR_notLane l).symm, hcut.counts f hf]
  · rw [hlane, hmoves.laneAt, hcut.lane]
  · rw [hhead, (hmoves.heads l).1, hready]
  · rw [hhead, (hmoves.heads l).2, hcur]
  · have hkeep := State.headerKeeps_laneCut s (p := pHEAD l) l reason (fun h => pHEAD_notRing l (Or.inr h))
    rw [hu] at hkeep
    have hmayu : mayFence u (pHEAD l) := ⟨hkeep.fenced.trans hmay.1, hkeep.pageHeld.trans hmay.2.1, hkeep.reset.trans hmay.2.2⟩
    obtain ⟨h1, h2, -⟩ := State.fenceOne_shows (blkOf_head l hl) rfl hmayu (pHEAD_notPair l) hr 0 first 0 true
      (fun t => t.headerKeeps_headStops (pHEAD l) l reason) hv
    refine ⟨?_, (hfield (by decide)).trans h2⟩
    rw [← h1]
    unfold State.fenced State.flag
    rw [hfield (by decide)]
/-- What the fence of a lane moves, and what it shows. -/
theorem State.fence_lane (s : State) {l reason : Nat} (hl : l < 160) (hr : reason < 256) {t : State} (ht : s.fence (pLANE l) reason 0 l = t) :
    t.laneAt l = s.laneAt l ∧ (∀ f ∈ laneTallies, t.get (pLANE l) f = s.get (pLANE l) f) ∧ laneMemory s t l ∧
    (s.fenceOne (pLANE l) reason 0 l).headerKeeps t (pLANE l) ∧
    (l < 128 ∨ 132 ≤ l → mayFence s (pLANE l) → t.fenced (pLANE l) = true ∧ t.get (pLANE l) R.PG_FENCE_REASON = reason ∧
      (l < 128 → (t.headAt l).ready = [] ∧ (t.headAt l).cur = (s.headAt l).cur.map fun f => { f with noFire := true }) ∧
      (l < 128 → mayFence s (pHEAD l) → t.fenced (pHEAD l) = true ∧ t.get (pHEAD l) R.PG_FENCE_REASON = reason)) := by
  have hstops : ∀ v : State, v.fenceStops .lane l reason = v := fun _ => rfl
  obtain ⟨u, hu⟩ : ∃ u, s.fenceOne (pLANE l) reason 0 l = u := ⟨_, rfl⟩
  have hmoves : s.fenceMoves u (pLANE l) := hu ▸ s.fenceMoves_fenceOne (blkOf_lane l hl) reason 0 l 0 true fun v => v.fenceMoves_refl _
  have hcounts : ∀ f ∈ laneTallies, u.get (pLANE l) f = s.get (pLANE l) f := fun f hf => hu ▸ s.fenceOne_laneTallies hl reason 0 l 0 hf
  have hhold := hmoves.hold
  have hsame := hhold
  simp only [State.hold, Prod.mk.injEq] at hsame
  obtain ⟨hp, hstore, hm, hc, hf⟩ := hsame
  -- The lane's page alone: what stands in memory stands.
  have halone : laneMemory s u l := ⟨hstore, State.recordsOnly_self hhold, fun _ => ⟨hm, hc⟩⟩
  have hshows : l < 128 ∨ 132 ≤ l → mayFence s (pLANE l) → u.fenced (pLANE l) = true ∧ u.get (pLANE l) R.PG_FENCE_REASON = reason ∧
      u.fencedNow (pLANE l) = true := fun hlane hmay => State.fenceOne_shows (blkOf_lane l hl) (by unfold neverFences; simp; omega) hmay
    (pPAIR_notLane l) hr 0 l 0 true (fun v => v.headerKeeps_refl _) hu
  have htu : t = if u.fencedNow (pLANE l) && (!s.fenced (pLANE l) || s.fencedNow (pLANE l)) then (if l < 128 then u.laneFences l reason else u) else u := by
    rw [← ht]
    unfold State.fence
    dsimp only
    rw [hu, blkOf_lane l hl]
  rw [hu]
  by_cases hcut : (u.fencedNow (pLANE l) && (!s.fenced (pLANE l) || s.fencedNow (pLANE l))) = true ∧ l < 128
  · rw [if_pos hcut.1, if_pos hcut.2] at htu
    obtain ⟨hbeside, hrec, hst, hnone, hready, hcur, hhead⟩ := u.laneFences_spec hcut.2 hr htu.symm
    refine ⟨hbeside.lane.trans (hmoves.laneAt l), fun f hf => (hbeside.counts f hf).trans (hcounts f hf), ⟨hst.trans hstore, ?_, fun h => ?_⟩,
      hbeside.header, fun hlane hmay => ?_⟩
    · exact hmoves.records (pLANE_notRing l) hrec
    · rcases h with h | h
      · exact absurd hcut.2 (by omega)
      · have hk := (hnone ((hmoves.heads l).1.trans h)).trans hhold
        simp only [State.hold, Prod.mk.injEq] at hk
        exact ⟨hk.2.2.1, hk.2.2.2.1⟩
    · obtain ⟨h1, h2, -⟩ := hshows hlane hmay
      refine ⟨hbeside.header.fenced.trans h1, (hbeside.header.flds _ (by simp [fenceHeader])).trans h2, fun _ => ⟨hready, ?_⟩, fun _ hmayh => hhead ?_⟩
      · rw [hcur, (hmoves.heads l).2]
      · have hne : pHEAD l ≠ pLANE l := by
          unfold pLANE pHEAD
          omega
        have hk : s.headerKeeps u (pHEAD l) := hu ▸ s.headerKeeps_fenceOne reason 0 l 0 true (blkOf_lane l hl) hne.symm (pHEAD_notPair l)
          fun v => v.headerKeeps_refl _
        exact ⟨hk.fenced.trans hmayh.1, hk.pageHeld.trans hmayh.2.1, hk.reset.trans hmayh.2.2⟩
  · have htu' : t = u := by
      rw [htu]
      split_ifs with h1 h2
      · exact absurd ⟨h1, h2⟩ hcut
      · rfl
      · rfl
    subst htu'
    refine ⟨hmoves.laneAt l, hcounts, halone, t.headerKeeps_refl _, fun hlane hmay => ?_⟩
    obtain ⟨h1, h2, h3⟩ := hshows hlane hmay
    have hnot : ¬ l < 128 := fun h => hcut ⟨by rw [h3, hmay.1]; rfl, h⟩
    exact ⟨h1, h2, fun h => absurd h hnot, fun h => absurd h hnot⟩

/-! ### A lane that leaves UP and fences -/

/-- A lane's own change: its registers but the header's fence, its state, heads' timers, and what calibration waits for. -/
structure State.laneNear (s t : State) (l : Nat) : Prop where
  page : ∀ q f, q ≠ pLANE l → t.get q f = s.get q f
  fenced : t.fenced (pLANE l) = s.fenced (pLANE l)
  heads : s.headsTimed t
  shape : ∃ r a h c w n, t = { s with regs := r, lane := a, head := h, calst := c, host := { s.host with waiting := w }, fresh := n }
theorem State.laneMoves.near {s t : State} {l : Nat} (h : s.laneMoves t l) : s.laneNear t l := by
  obtain ⟨r, a, x, c, w, ht⟩ := h.shape
  refine ⟨fun q f hq => h.but q f fun e he => Or.inl ?_, ?_, h.heads, r, a, x, c, w, s.fresh, ht⟩
  · rw [List.mem_singleton.1 he]
    exact hq
  · unfold State.fenced State.flag
    rw [h.but _ _ fun e he => Or.inr (by rw [List.mem_singleton.1 he]; exact (by decide : R.PG_FENCE_FENCED.id ≠ R.PG_IRQ_RAW.id))]
theorem State.laneNear_incSat (s : State) (l : Nat) {f : Fld} (hf : R.PG_FENCE_FENCED.id ≠ f.id) : s.laneNear (s.incSat (pLANE l) f) l := by
  refine ⟨fun q g hq => s.get_incSat_ne (Or.inl hq), ?_, fun _ => ⟨rfl, rfl⟩, _, _, _, _, _, _, rfl⟩
  unfold State.fenced State.flag
  rw [s.get_incSat_field _ hf]
theorem State.laneNear_addSat (s : State) (l k : Nat) {f : Fld} (hf : R.PG_FENCE_FENCED.id ≠ f.id) : s.laneNear (s.addSat (pLANE l) f k) l := by
  refine ⟨fun q g hq => s.get_addSat_ne _ (Or.inl hq), ?_, fun _ => ⟨rfl, rfl⟩, _, _, _, _, _, _, rfl⟩
  unfold State.fenced State.flag
  rw [s.get_addSat_field _ _ hf]
theorem State.laneNear_tickFresh (s : State) (l : Nat) : s.laneNear s.tickFresh l :=
  ⟨fun _ _ _ => rfl, rfl, fun _ => ⟨rfl, rfl⟩, _, _, _, _, _, _, rfl⟩
theorem State.laneNear_refl (s : State) (l : Nat) : s.laneNear s l := ⟨fun _ _ _ => rfl, rfl, fun _ => ⟨rfl, rfl⟩, _, _, _, _, _, _, rfl⟩
theorem State.laneNear.trans {s t u : State} {l : Nat} (h : s.laneNear t l) (k : t.laneNear u l) : s.laneNear u l := by
  refine ⟨fun q f hq => (k.page q f hq).trans (h.page q f hq), k.fenced.trans h.fenced,
    fun n => ⟨(k.heads n).1.trans (h.heads n).1, (k.heads n).2.trans (h.heads n).2⟩, ?_⟩
  obtain ⟨r, a, x, c, w, n, ht⟩ := h.shape
  obtain ⟨r', a', x', c', w', n', hu⟩ := k.shape
  exact ⟨r', a', x', c', w', n', by rw [hu, ht]⟩
section
variable {s u : State} {l : Nat} (h : s.laneNear u l)
include h
theorem State.laneNear.hold : u.hold = s.hold := by
  obtain ⟨r, a, x, c, w, n, hu⟩ := h.shape
  rw [hu]
  rfl
theorem State.laneNear.mayFence {p : Nat} (hp : u.fenced p = s.fenced p) (k : mayFence s p) : mayFence u p := by
  obtain ⟨h1, h2, h3⟩ := k
  have htherm := h.page pTHERM R.THERM_STAT_SHUT (by unfold pTHERM pLANE; omega)
  obtain ⟨r, a, x, c, w, n, hu⟩ := h.shape
  refine ⟨hp.trans h1, ?_, by rw [hu]; exact h3⟩
  have hheld : u.heldReset = s.heldReset := by rw [hu]
  rw [← h2]
  unfold State.held State.shut State.flag
  rw [hheld, htherm]
theorem State.laneNear.memory {t : State} (k : laneMemory u t l) : laneMemory s t l := by
  obtain ⟨h1, h2, h3⟩ := k
  have hhold := h.hold
  have hsame := hhold
  simp only [State.hold, Prod.mk.injEq] at hsame
  have hrec : s.recordsOnly t [] := by
    refine State.recordsOnly_congr (fun f => h.page _ f (by unfold pDMAC pLANE; omega)) (fun a => State.keys_congr (fun p hp f => h.page p f ?_) ?_ ?_ a)
      hhold h2
    · rintro rfl
      exact pLANE_notRing l (Or.inr hp)
    all_goals
      obtain ⟨r, x, y, c, w, n, hu⟩ := h.shape
      rw [hu]
    rfl
  refine ⟨h1.trans hsame.2.1, hrec, fun k => ?_⟩
  obtain ⟨hm, hc⟩ := h3 (k.imp id fun k => (h.heads l).1.trans k)
  exact ⟨hm.trans hsame.2.2.1, hc.trans hsame.2.2.2.1⟩
/-- A lane that has left UP fences. -/
theorem laneFences_of_near (hl : l < 160) (hst : (u.laneAt l).st = 1) {reason : Nat} (hr : reason < 256) {v t o : State} {code : Nat}
    (hv : u.fence (pLANE l) reason 0 l = v) (ht : o.laneAfter v l code = t) : laneFences s t l reason := by
  obtain ⟨hlane, -, hmem, -, hshows⟩ := u.fence_lane hl hr hv
  have hafter : v.besideLane t l := ht ▸ o.besideLane_laneAfter v l code
  have hthold : t.hold = v.hold := by rw [← ht, State.laneAfter_hold]
  have hsame := hthold
  simp only [State.hold, Prod.mk.injEq] at hsame
  obtain ⟨m1, m2, m3⟩ := h.memory hmem
  refine ⟨by rw [hafter.lane, hlane, hst], ⟨hsame.2.1.trans m1, State.recordsOnly_hold m2 hthold, fun k => ?_⟩, fun hl' hmay => ?_⟩
  · obtain ⟨k1, k2⟩ := m3 k
    exact ⟨hsame.2.2.1.trans k1, hsame.2.2.2.1.trans k2⟩
  · obtain ⟨h1, h2, h3, h4⟩ := hshows hl' (h.mayFence h.fenced hmay)
    have hhead : l < 128 → (∀ f, t.get (pHEAD l) f = v.get (pHEAD l) f) ∧ t.headAt l = v.headAt l := fun hlt => by
      obtain ⟨hget, r, p, w, o', hshape⟩ := o.pairRise_frame v code (laneBar l)
      have hpr : t = o.pairRise v code (laneBar l) := by
        rw [← ht]
        unfold State.laneAfter
        rw [if_neg (by omega)]
      rw [hpr]
      refine ⟨fun f => hget _ f (pHEAD_notPair l).symm, ?_⟩
      rw [hshape]
      rfl
    refine ⟨hafter.header.fenced.trans h1, (hafter.header.flds _ (by simp [fenceHeader])).trans h2, fun hlt => ?_, fun hlt hmayh => ?_⟩
    · rw [(hhead hlt).2, (h3 hlt).1, (h3 hlt).2, (h.heads l).2]
      exact ⟨rfl, rfl⟩
    · have hne : pHEAD l ≠ pLANE l := by
        unfold pLANE pHEAD
        omega
      have hp : u.fenced (pHEAD l) = s.fenced (pHEAD l) := by
        unfold State.fenced State.flag
        rw [h.page _ _ hne]
      obtain ⟨h5, h6⟩ := h4 hlt (h.mayFence hp hmayh)
      rw [← h5, ← h6]
      unfold State.fenced State.flag
      rw [(hhead hlt).1, (hhead hlt).1]
      exact ⟨rfl, rfl⟩
end

end Sys2Proof.Machine
end

section
/-! ### How a serial lane gains and loses lock (O56) -/
open Sys2Proof Sys2Proof.Machine
namespace Sys2Proof.Machine

/-! ### LANE_CMD (R330, R331) -/

theorem laneCmd_fields : ∀ l < 160, laneSlips l = true → fieldsAt .lane l 0x50 ≠ [] := by decide +kernel
theorem laneSlips_lt {l : Nat} (h : laneSlips l = true) : l < 136 := by
  unfold laneSlips at h
  simp at h
  omega
/-- An accepted write of LANE_CMD does what its bits say. -/
theorem State.writeWith_laneCmd {s : State} {l : Lane} {v : Nat} (h : s.accepts (pLANE l) 0x50 v) :
    s.writeWith (pLANE l) 0x50 v (laneCmdAct l v) = laneCmdAct l v s := by
  by_cases hs : laneSlips l = true
  · refine s.writeWith_accepted _ _ _ _ h.1 (fun b i hb => ?_) h.2
    obtain ⟨rfl, rfl⟩ : Blk.lane = b ∧ l.val = i := by simpa [blkOf_lane l l.isLt] using hb
    exact laneCmd_fields l l.isLt hs
  · have hact : laneCmdAct l v s = s := if_pos (by simpa using hs)
    unfold State.writeWith
    rw [if_neg (by simp [h.1])]
    simp [h.2, hact]
theorem State.laneAfter_still (s : State) {l : Nat} (hl : l < 136) (code : Nat) : s.laneAfter s l code = s := by
  unfold State.laneAfter
  rw [if_neg (by omega)]
  exact State.pairRise_same _ _ fun _ => rfl
/-- A lane of a head or of Crook, where the pair is not enabled: nothing follows its change. -/
theorem State.laneAfter_single (s t : State) {l : Nat} (hl : l < 136) (code : Nat) (h : t.straps.pairEn = false) : s.laneAfter t l code = t := by
  unfold State.laneAfter
  rw [if_neg (by omega)]
  exact if_pos (by simp [h])
theorem State.laneMoves_dropLock (s : State) (l : Nat) : s.laneMoves (s.dropLock l) l := s.laneMoves_updLane l _
theorem State.laneMoves.tick {s t : State} {l : Nat} (h : s.laneMoves t l) : t.tick = s.tick := by
  obtain ⟨r, a, x, c, w, ht⟩ := h.shape
  rw [ht]
theorem State.laneMoves.single {s t : State} {l : Nat} (h : s.laneMoves t l) : t.straps.pairEn = s.straps.pairEn := by
  obtain ⟨r, a, x, c, w, ht⟩ := h.shape
  rw [ht]
/-- A slip moves the position of a lane and drops its lock. -/
theorem State.laneSlip_spec (s : State) {l n : Nat} (hl : l < 160) (hslips : laneSlips l = true) (h1 : 1 ≤ n) (h65 : n ≤ 65)
    (hst : (s.laneAt l).st ∈ [1, 3, 4]) {t : State} (ht : s.laneSlip l n = t) :
    s.laneMoves t l ∧ (t.laneAt l).slip = ((s.laneAt l).slip + n) % 66 ∧ (t.laneAt l).block = false ∧ (t.laneAt l).good = 0 ∧
    (t.laneAt l).st = (if (s.laneAt l).st = 3 then 1 else (s.laneAt l).st) ∧
    ((s.laneAt l).st = 3 → bit (t.get (pLANE l) R.PG_IRQ_RAW) 4 = true) := by
  obtain ⟨u, hu⟩ : ∃ u, (s.updLane l fun x => { x with slip := (x.slip + n) % 66 }).dropLock l = u := ⟨_, rfl⟩
  have hsu : s.laneMoves u l := hu ▸ (s.laneMoves_updLane l _).trans (State.laneMoves_dropLock _ l)
  have hat : u.laneAt l = { s.laneAt l with slip := ((s.laneAt l).slip + n) % 66, block := false, good := 0, bad := [] } := by
    rw [← hu, State.dropLock, State.laneAt_upd_self, State.laneAt_upd_self]
  have hgo : ¬ ((!laneSlips l || n = 0 || 65 < n || !((s.laneAt l).st == 1 || (s.laneAt l).st == 3 || (s.laneAt l).st == 4)) = true) := by
    simp only [List.mem_cons, List.not_mem_nil, or_false] at hst
    simp only [hslips, Bool.not_true, Bool.false_or, Bool.or_eq_true, decide_eq_true_eq, Bool.not_eq_true', not_or]
    refine ⟨⟨by omega, by omega⟩, ?_⟩
    rcases hst with h | h | h <;> simp [h]
  unfold State.laneSlip at ht
  dsimp only at ht
  rw [if_neg hgo, hu] at ht
  by_cases h3 : (s.laneAt l).st = 3
  · rw [if_pos h3] at ht
    obtain ⟨hmoves, hone, ⟨st, sc, cs, cr, hbeside⟩, -, hdown⟩ := u.setLane_spec l 1 ht
    have hu3 : (u.laneAt l).st = 3 := by rw [hat]; exact h3
    rw [if_pos h3]
    refine ⟨hsu.trans hmoves, ?_, ?_, ?_, hone, fun _ => hdown hl hu3 (by decide)⟩ <;> rw [hbeside, hat]
  · rw [if_neg h3] at ht
    subst ht
    rw [if_neg h3, hat]
    exact ⟨hsu, rfl, rfl, rfl, rfl, fun h => absurd h h3⟩
theorem State.laneSlip_none (s : State) (l : Nat) : s.laneSlip l 0 = s := by
  unfold State.laneSlip
  exact if_pos (by simp)
theorem exec_laneCmdSlip {s : State} {l : Lane} {n : BitVec 7} (h : s.accepts (pLANE l) 0x50 n.toNat) :
    exec (.laneCmdSlip l n) s = .next (if laneSlips l then s.laneAfter (s.laneSlip l n.toNat) l 0 else s) := by
  have hfield : field n.toNat 0 7 = n.toNat := by
    have := n.isLt
    unfold field
    omega
  have hbit : ∀ i, 7 ≤ i → bit n.toNat i = false := fun i hi => Nat.testBit_lt_two_pow (n.isLt.trans_le (Nat.pow_le_pow_right (by decide) hi))
  refine congrArg Host.Outcome.next ((State.writeWith_laneCmd h).trans ?_)
  unfold laneCmdAct
  cases hs : laneSlips l
  · rfl
  · simp only [Bool.not_true, Bool.false_eq_true, if_false, hfield, hbit 30 (by decide), hbit 31 (by decide), Bool.false_and, if_true]
theorem exec_laneCmdSearch {s : State} {l : Lane} (h : s.accepts (pLANE l) 0x50 (2 ^ 31)) :
    exec (.laneCmdSearch l) s = .next (if laneSlips l = true ∧ ((s.laneAt l).st = 1 ∨ (s.laneAt l).st = 3) then
      s.laneAfter (s.searchStart l false) l 0 else s) := by
  have hfield : field (2 ^ 31) 0 7 = 0 := by decide
  have hb30 : bit (2 ^ 31) 30 = false := by decide
  have hb31 : bit (2 ^ 31) 31 = true := by decide
  refine congrArg Host.Outcome.next ((State.writeWith_laneCmd h).trans ?_)
  unfold laneCmdAct
  cases hs : laneSlips l
  · simp
  · simp only [Bool.not_true, Bool.false_eq_true, if_false, hfield, hb30, hb31, Bool.false_and, Bool.true_and, State.laneSlip_none, true_and,
      Bool.or_eq_true, beq_iff_eq]
    split
    · rfl
    · exact s.laneAfter_still (laneSlips_lt hs) 0
/-- A search that a command starts. -/
theorem State.searchStart_spec (s : State) (l : Nat) {t : State} (ht : s.searchStart l false = t) :
    (t.laneAt l).st = 2 ∧ (t.laneAt l).block = false ∧ (t.laneAt l).bootSearch = false ∧ (t.laneAt l).slip = (s.laneAt l).slip ∧
    (t.laneAt l).stepAt = s.tick ∧ (t.laneAt l).stepsLeft = 66 * max 1 (s.get (pLANE l) R.LANE_SYNC_TRIES) ∧ t.hold = s.hold := by
  obtain ⟨u, hu⟩ : ∃ u, s.setLane l 2 = u := ⟨_, rfl⟩
  obtain ⟨-, htwo, ⟨st, sc, cs, cr, hbeside⟩, -⟩ := s.setLane_spec l 2 hu
  have hhold : u.hold = s.hold := by rw [← hu, State.setLane_hold]
  unfold State.searchStart at ht
  dsimp only at ht
  rw [hu, if_neg (by decide)] at ht
  have hat : t.laneAt l = { u.laneAt l with
      block := false, good := 0, bad := [], bootSearch := false
      stepsLeft := 66 * max 1 (s.get (pLANE l) R.LANE_SYNC_TRIES), stepAt := s.tick } := by
    rw [← ht, State.laneAt_upd_self, State.dropLock, State.laneAt_upd_self]
  refine ⟨by rw [hat]; exact htwo, by rw [hat], by rw [hat], ?_, by rw [hat], by rw [hat], ?_⟩
  · rw [hat]
    dsimp only
    rw [hbeside]
  · rw [← ht]
    exact hhold

/-! ### The search (R331, R332) -/

theorem State.reports.laneAt {s t : State} (h : s.reports t) (l : Nat) : t.laneAt l = s.laneAt l := by
  obtain ⟨r, w, ht⟩ := h
  rw [ht]
  rfl
theorem State.besideLane_judged (s : State) (l n : Nat) (boot ok : Bool) :
    s.besideLane (if boot then s.bootSearchEnd n ok else s.lanesJudge (laneStep n)) l := by
  split
  · exact s.besideLane_bootSearchEnd l n ok
  · exact s.besideLane_lanesJudge l _
theorem State.besideLane_searchOver (s : State) (n : Nat) {ok : Bool} {v : State}
    (hv : (if ok then (s.updLane n fun x => { x with bootSearch := false, stepsLeft := 0 }).laneLock n
      else (((s.updLane n fun x => { x with bootSearch := false, stepsLeft := 0 }).setLane n 1).err (pLANE n) 0x23 0 n).cause (pLANE n) 6) = v) :
    v.besideLane (s.searchOver n ok) n := by
  unfold State.searchOver
  dsimp only
  rw [hv]
  exact (v.besideLane_judged n n _ _).trans (s.besideLane_laneAfter _ n _)
/-- A search that ends without a position leaves the lane DOWN and reports it. -/
theorem State.searchOver_failed (s : State) (l : Lane) {t : State} (ht : s.searchOver l false = t) :
    (t.laneAt l).st = 1 ∧ (t.laneAt l).slip = (s.laneAt l).slip ∧
    bit (t.get (pLANE l) R.PG_IRQ_RAW) 6 = true ∧ bit (t.get (pLANE l) R.PG_IRQ_RAW) 1 = true ∧
    t.get (pLANE l) R.PG_ERR_CNT = min (s.get (pLANE l) R.PG_ERR_CNT + 1) (2 ^ R.PG_ERR_CNT.w - 1) ∧
    (s.get (pLANE l) R.PG_ERR_CNT = 0 → t.get (pLANE l) R.PG_ERR_INFO_CODE = 0x23) ∧ t.hold = s.hold := by
  obtain ⟨u, hu⟩ : ∃ u, (s.updLane l fun x => { x with bootSearch := false, stepsLeft := 0 }).setLane l 1 = u := ⟨_, rfl⟩
  obtain ⟨v, hv⟩ : ∃ v, (u.err (pLANE l) 0x23 0 l).cause (pLANE l) 6 = v := ⟨_, rfl⟩
  obtain ⟨hmoves, hone, ⟨st, sc, cs, cr, hbeside⟩, -⟩ := State.setLane_spec _ l 1 hu
  have hreport : u.reports v := hv ▸ (u.reports_err _ _ _ _ _ _).trans (State.reports_cause _ _ _)
  have hat : v.laneAt l = u.laneAt l := hreport.laneAt l
  have hcnt : u.get (pLANE l) R.PG_ERR_CNT = s.get (pLANE l) R.PG_ERR_CNT :=
    hmoves.but _ _ fun e he => Or.inr (by rw [List.mem_singleton.1 he]; exact (by decide : R.PG_ERR_CNT.id ≠ R.PG_IRQ_RAW.id))
  obtain ⟨hone', hinfo⟩ := u.err_recorded (u.frozen_lane l) 0x23 0 l 0 0
  have hkeep : ∀ f : Fld, f.id ≠ R.PG_IRQ_RAW.id → v.get (pLANE l) f = (u.err (pLANE l) 0x23 0 l).get (pLANE l) f := fun f hf => by
    rw [← hv]
    exact State.get_cause_ne _ _ (Or.inr hf)
  have hside : v.besideLane t l := ht ▸ s.besideLane_searchOver l (ok := false) (by rw [if_neg Bool.false_ne_true, hu, hv])
  refine ⟨by rw [hside.lane, hat, hone], ?_, hside.header.raw 6 (by decide) ?_, hside.header.raw 1 (by decide) ?_, ?_, fun h0 => ?_, ?_⟩
  · rw [hside.lane, hat, hbeside, State.laneAt_upd_self]
  · rw [← hv]
    exact State.bit_cause _ (by decide) (State.frozen_lane _ l)
  · rw [← hv]
    exact State.bit_cause_keeps _ (by decide) (State.bit_err _ (State.frozen_lane _ l) _ _ _ _ _)
  · rw [hside.header.flds _ (by simp [fenceHeader]), hkeep _ (by decide), hone', hcnt]
  · rw [hside.header.flds _ (by simp [fenceHeader]), hkeep _ (by decide), (hinfo (hcnt.trans h0)).1]
    decide
  · rw [← ht, State.searchOver_hold]
/-- A lane that locks. -/
theorem State.laneLock_spec (s : State) (l : Lane) (hst : (s.laneAt l).st ≠ 3) {t : State} (ht : s.laneLock l = t) :
    s.laneMoves t l ∧ (t.laneAt l).st = 3 ∧ (t.laneAt l).slip = (s.laneAt l).slip ∧ (t.laneAt l).block = true ∧ (t.laneAt l).cdr = true ∧
    (t.laneAt l).lockAt = s.tick ∧ (t.laneAt l).good = 64 ∧ bit (t.get (pLANE l) R.PG_IRQ_RAW) 3 = true := by
  obtain ⟨u, hu⟩ : ∃ u, (s.updLane l fun x => { x with cdr := true, block := true, rxEidle := false, lockAt := s.tick, good := 64, bad := [] }) = u :=
    ⟨_, rfl⟩
  have hsu : s.laneMoves u l := hu ▸ s.laneMoves_updLane l _
  have hat : u.laneAt l = { s.laneAt l with cdr := true, block := true, rxEidle := false, lockAt := s.tick, good := 64, bad := [] } := by
    rw [← hu, State.laneAt_upd_self]
  obtain ⟨hmoves, hthree, ⟨st, sc, cs, cr, hbeside⟩, hup, -⟩ := u.setLane_spec l 3 (t := t) (by rw [← ht, ← hu]; rfl)
  refine ⟨hsu.trans hmoves, hthree, ?_, ?_, ?_, ?_, ?_, hup l.isLt (by rw [hat]; exact hst) rfl⟩ <;> rw [hbeside, hat]
theorem State.searchOver_found (s : State) (l : Lane) (hst : (s.laneAt l).st ≠ 3) {t : State} (ht : s.searchOver l true = t) :
    (t.laneAt l).st = 3 ∧ (t.laneAt l).slip = (s.laneAt l).slip ∧ (t.laneAt l).block = true ∧ (t.laneAt l).cdr = true ∧
    (t.laneAt l).lockAt = s.tick ∧ bit (t.get (pLANE l) R.PG_IRQ_RAW) 3 = true ∧ t.hold = s.hold := by
  obtain ⟨u, hu⟩ : ∃ u, (s.updLane l fun x => { x with bootSearch := false, stepsLeft := 0 }) = u := ⟨_, rfl⟩
  have hat : u.laneAt l = { s.laneAt l with bootSearch := false, stepsLeft := 0 } := by rw [← hu, State.laneAt_upd_self]
  have htick : u.tick = s.tick := by rw [← hu]; rfl
  obtain ⟨v, hv⟩ : ∃ v, u.laneLock l = v := ⟨_, rfl⟩
  obtain ⟨-, h3, hslip, hblock, hcdr, hlock, -, hbit⟩ := u.laneLock_spec l (by rw [hat]; exact hst) hv
  have hside : v.besideLane t l := ht ▸ s.besideLane_searchOver l (ok := true) (by rw [if_pos rfl, hu, hv])
  rw [hside.lane]
  refine ⟨h3, ?_, hblock, hcdr, hlock.trans htick, hside.header.raw 3 (by decide) hbit, by rw [← ht, State.searchOver_hold]⟩
  rw [hslip, hat]
theorem State.laneAt_searchSlip (s : State) (n k : Nat) : (s.searchSlip n k).laneAt n =
    { s.laneAt n with slip := ((s.laneAt n).slip + k) % 66, stepsLeft := (s.laneAt n).stepsLeft - k, stepAt := s.tick, good := 0 } :=
  State.laneAt_upd_self _ _ _
/-- A search whose positions are all tried fails. -/
theorem State.searchFails_over (s : State) (l : Lane) : searchFails s ((s.searchSlip l (s.laneAt l).stepsLeft).searchOver l false) l := by
  obtain ⟨h1, h2, h3, h4, h5, h6, h7⟩ := (s.searchSlip l (s.laneAt l).stepsLeft).searchOver_failed l rfl
  rw [State.searchSlip_hold] at h7
  refine ⟨h1, ?_, h3, h4, h5, h6, sameMemory_of_hold h7⟩
  rw [h2, State.laneAt_searchSlip]
theorem slip_found {slip p d : Nat} (hp : p < 66) (hd : d = (p + 66 - slip) % 66) (h : slip < 66) : (slip + d) % 66 = p := by omega
theorem exec_searchEnd_still {s : State} {l : Lane} (h : s.laneLive l = false ∨ (s.laneAt l).st ≠ 2) (found : Option (Fin 66)) :
    exec (.searchEnd l found) s = .next s := by
  have hif : ((s.laneAt l).st ≠ 2 || !s.laneLive l) = true := by
    rcases h with h | h <;> simp [h]
  exact congrArg Host.Outcome.next (if_pos hif)
section
variable {s : State} {l : Lane} (hlive : s.laneLive l = true) (hst : (s.laneAt l).st = 2)
include hlive hst
theorem exec_searchEnd_none : exec (.searchEnd l none) s = .next (if 3 * (s.laneAt l).stepsLeft ≤ blocksIn l (s.tick - (s.laneAt l).stepAt) then
    (s.searchSlip l (s.laneAt l).stepsLeft).searchOver l false else s) := by
  change execSearchEnd l none s = _
  unfold execSearchEnd
  dsimp only
  rw [if_neg (by simp [hlive, hst])]
theorem exec_searchEnd_some (p : Fin 66) {d k : Nat} (hd : d = (p.val + 66 - (s.laneAt l).slip) % 66) (hk : k = blocksIn l (s.tick - (s.laneAt l).stepAt)) :
    exec (.searchEnd l (some p)) s = .next (if 66 * (s.laneAt l).stepsLeft < k then (s.searchSlip l (s.laneAt l).stepsLeft).searchOver l false
      else if d < (s.laneAt l).stepsLeft ∧ 3 * d + 66 ≤ k then (s.searchSlip l d).searchOver l true else s) := by
  change execSearchEnd l (some p) s = _
  unfold execSearchEnd
  dsimp only
  rw [if_neg (by simp [hlive, hst]), ← hd, ← hk]
  simp only [Bool.and_eq_true, decide_eq_true_eq]
end

/-! ### Lock and its loss (R333, R334, R340) -/

/-- EXIT that has not locked in time fences the lane. -/
theorem exitFail_fences (s : State) (l : Lane) : laneFences s (s.exitFail l) l 0x23 := by
  obtain ⟨hmoves, hone, -⟩ := s.setLane_spec l 1 rfl
  exact laneFences_of_near hmoves.near l.isLt hone (by decide) rfl rfl
/-- The lane that has locked, its exit counted. -/
def State.locked (s : State) (n : Nat) : State :=
  if (s.laneAt n).st = 5 then ((s.laneLock n).incWrap (pLANE n) R.LANE_EXIT_CNT).cause (pLANE n) 7 else s.laneLock n
theorem exec_blockLock (s : State) (l : Lane) : exec (.blockLock l) s = .next
    (if s.laneLive l = false ∨ ((s.laneAt l).st ≠ 1 ∧ (s.laneAt l).st ≠ 5) then s
    else if (s.laneAt l).st = 5 ∧ s.exitLimit l < s.tick then s.exitFail l
    else s.laneAfter (if l.val < 136 then (s.locked l).lanesJudge (laneStep l) else s.locked l) l 0) := by
  change execBlockLock l s = _
  unfold execBlockLock
  dsimp only
  simp only [Bool.or_eq_true, Bool.not_eq_true', Bool.or_eq_false_iff, beq_eq_false_iff_ne, Bool.and_eq_true, decide_eq_true_eq]
  rfl
theorem State.locked_spec (s : State) (l : Lane) (hst : (s.laneAt l).st = 1 ∨ (s.laneAt l).st = 5) {t : State} (ht : s.locked l = t) :
    (t.laneAt l).st = 3 ∧ (t.laneAt l).block = true ∧ (t.laneAt l).cdr = true ∧ (t.laneAt l).lockAt = s.tick ∧
    (t.laneAt l).good = 64 ∧ bit (t.get (pLANE l) R.PG_IRQ_RAW) 3 = true ∧
    ((s.laneAt l).st = 5 → bit (t.get (pLANE l) R.PG_IRQ_RAW) 7 = true ∧
      t.get (pLANE l) R.LANE_EXIT_CNT = (s.get (pLANE l) R.LANE_EXIT_CNT + 1) % 2 ^ R.LANE_EXIT_CNT.w) ∧ t.hold = s.hold := by
  obtain ⟨u, hu⟩ : ∃ u, s.laneLock l = u := ⟨_, rfl⟩
  obtain ⟨hmoves, h3, -, hblock, hcdr, hlock, hgood, hbit⟩ := s.laneLock_spec l (by omega) hu
  have hhold : u.hold = s.hold := by rw [← hu, State.laneLock_hold]
  unfold State.locked at ht
  rw [hu] at ht
  by_cases h5 : (s.laneAt l).st = 5
  · rw [if_pos h5] at ht
    have hat : t.laneAt l = u.laneAt l := by
      rw [← ht, State.laneAt_cause]
      rfl
    have hcnt : u.get (pLANE l) R.LANE_EXIT_CNT = s.get (pLANE l) R.LANE_EXIT_CNT :=
      hmoves.but _ _ fun e he => Or.inr (by rw [List.mem_singleton.1 he]; exact (by decide : R.LANE_EXIT_CNT.id ≠ R.PG_IRQ_RAW.id))
    rw [hat]
    refine ⟨h3, hblock, hcdr, hlock, hgood, ?_, fun _ => ⟨?_, ?_⟩, ?_⟩
    · rw [← ht]
      refine State.bit_cause_keeps _ (by decide) ?_
      rw [State.get_incWrap_field _ _ (by decide)]
      exact hbit
    · rw [← ht]
      exact State.bit_cause _ (by decide) (State.frozen_lane _ l)
    · rw [← ht, State.get_cause_ne _ _ (Or.inr (by decide)), State.get_incWrap_self, hcnt]
    · rw [← ht, State.cause_hold, State.incWrap_hold, hhold]
  · rw [if_neg h5] at ht
    subst ht
    exact ⟨h3, hblock, hcdr, hlock, hgood, hbit, fun h => absurd h h5, hhold⟩
theorem State.besideLane_afterLock (s v : State) (l : Nat) :
    v.besideLane (s.laneAfter (if l < 136 then v.lanesJudge (laneStep l) else v) l 0) l := by
  refine State.besideLane.trans ?_ (s.besideLane_laneAfter _ l 0)
  split
  · exact v.besideLane_lanesJudge l _
  · exact v.besideLane_refl l

/-- What leaving a state with a fence shows of the lane. -/
theorem State.leaves_spec (o u : State) {l : Nat} (hl : l < 160) {reason code : Nat} (hr : reason < 256) {t : State}
    (ht : o.laneAfter ((u.setLane l 1).fence (pLANE l) reason 0 l) l code = t) :
    (t.laneAt l).st = 1 ∧ (u.laneAt l).beside (t.laneAt l) ∧ (∀ f ∈ laneTallies, t.get (pLANE l) f = u.get (pLANE l) f) ∧
    ((u.setLane l 1).fenceOne (pLANE l) reason 0 l).headerKeeps t (pLANE l) := by
  obtain ⟨hmoves, hone, hbeside, -⟩ := u.setLane_spec l 1 rfl
  obtain ⟨hlane, hcounts, -, hheader, -⟩ := (u.setLane l 1).fence_lane hl hr rfl
  have hside := o.besideLane_laneAfter ((u.setLane l 1).fence (pLANE l) reason 0 l) l code
  rw [ht] at hside
  refine ⟨by rw [hside.lane, hlane, hone], by rw [hside.lane, hlane]; exact hbeside, fun f hf => ?_, hheader.trans hside.header⟩
  rw [hside.counts f hf, hcounts f hf]
  refine hmoves.but _ _ fun e he => Or.inr ?_
  rw [List.mem_singleton.1 he]
  exact (laneTallies_apart f hf).1.2.2.2.2.2.2

/-! ### Invalid headers (R332, R333) -/

/-- The invalid headers of a lane that is UP are counted. -/
def State.badCounted (s : State) (n bad : Nat) : State := if (s.laneAt n).st = 3 then s.addSat (pLANE n) R.LANE_BLK_ERR bad else s
/-- The headers taken while the lane has no lock. -/
def State.headersRun (s : State) (n bad run : Nat) : State :=
  s.updLane n fun y => { y with good := min 63 (if bad = 0 then y.good + run else run) }
/-- The headers taken while it holds. -/
def State.headersHeld (s t : State) (n bad run : Nat) : State :=
  t.updLane n fun y => { y with good := run, lockAt := s.tick, bad := (s.tick, bad) :: s.badRecent n }
theorem exec_blockLockLoss (s : State) (l : Lane) (bad run : Nat) : exec (.blockLockLoss ⟨l, bad, run⟩) s = .next
    (if s.laneLive l = false then s
    else if (s.laneAt l).st = 2 ∧ bad ≠ 0 then s.searchLeave l
    else if (s.laneAt l).st ∉ [1, 2, 3, 5] then s
    else if (s.laneAt l).block = false then s.headersRun l bad run
    else if bad = 0 then s
    else if 16 ≤ ((s.badRecent l).map (·.2)).sum + bad then (s.badCounted l bad).lockLost l
    else s.headersHeld (s.badCounted l bad) l bad run) := by
  have hst : ((!((s.laneAt l).st == 1 || (s.laneAt l).st == 2 || (s.laneAt l).st == 3 || (s.laneAt l).st == 5)) = true) =
      ((s.laneAt l).st ∉ [1, 2, 3, 5]) := by
    simp [and_assoc]
  change execBlockLockLoss ⟨l, bad, run⟩ s = _
  unfold execBlockLockLoss
  dsimp only
  simp only [hst, Bool.not_eq_true', Bool.and_eq_true, decide_eq_true_eq]
  rfl
theorem State.searchLeave_spec (s : State) (l : Lane) :
    (blocksIn l (s.tick - (s.laneAt l).stepAt) < 3 → s.searchLeave l = s) ∧
    (3 ≤ blocksIn l (s.tick - (s.laneAt l).stepAt) → ((s.searchLeave l).laneAt l).slip = ((s.laneAt l).slip + 1) % 66 ∧
      s.sameMemory (s.searchLeave l) ∧
      (1 < (s.laneAt l).stepsLeft → s.searchLeave l = s.searchSlip l 1) ∧
      ((s.laneAt l).stepsLeft ≤ 1 → ((s.searchLeave l).laneAt l).st = 1 ∧ bit ((s.searchLeave l).get (pLANE l) R.PG_IRQ_RAW) 6 = true)) := by
  have hslip : ((s.searchSlip l 1).laneAt l).slip = ((s.laneAt l).slip + 1) % 66 := by rw [State.laneAt_searchSlip]
  have hsame : s.sameMemory (s.searchSlip l 1) := sameMemory_of_hold (by simp)
  unfold State.searchLeave
  dsimp only
  refine ⟨fun h => if_pos h, fun h => ?_⟩
  rw [if_neg (by omega)]
  split
  · next hlast =>
    obtain ⟨h1, h2, h3, -, -, -, h7⟩ := (s.searchSlip l 1).searchOver_failed l rfl
    exact ⟨h2.trans hslip, sameMemory_of_hold (h7.trans (by simp)), fun h => absurd hlast (by omega), fun _ => ⟨h1, h3⟩⟩
  · next hmore => exact ⟨hslip, hsame, fun _ => rfl, fun h => absurd h hmore⟩
theorem State.badCounted_spec (s : State) (n bad : Nat) {t : State} (ht : s.badCounted n bad = t) :
    s.laneNear t n ∧ t.laneAt n = s.laneAt n ∧ s.regsBut t [(pLANE n, R.LANE_BLK_ERR)] ∧ ({ t with regs := s.regs } : State) = s ∧
    t.get (pLANE n) R.LANE_BLK_ERR = (if (s.laneAt n).st = 3 then min (s.get (pLANE n) R.LANE_BLK_ERR + bad) (2 ^ R.LANE_BLK_ERR.w - 1)
      else s.get (pLANE n) R.LANE_BLK_ERR) := by
  unfold State.badCounted at ht
  by_cases h3 : (s.laneAt n).st = 3
  · rw [if_pos h3] at ht ⊢
    subst ht
    exact ⟨s.laneNear_addSat n bad (by decide), rfl, State.regsBut_addSat (s.regsBut_refl _) _ (by simp), rfl, by rw [State.get_addSat_self]⟩
  · rw [if_neg h3] at ht ⊢
    subst ht
    exact ⟨s.laneNear_refl n, rfl, s.regsBut_refl _, rfl, rfl⟩
/-- A lane that loses its lock: it is counted, and a lane that was UP fences. -/
theorem lockLost_spec (s : State) (l : Lane) (bad : Nat) {t : State} (ht : (s.badCounted l bad).lockLost l = t) :
    t.get (pLANE l) R.LANE_BLK_ERR = (if (s.laneAt l).st = 3 then min (s.get (pLANE l) R.LANE_BLK_ERR + bad) (2 ^ R.LANE_BLK_ERR.w - 1)
      else s.get (pLANE l) R.LANE_BLK_ERR) ∧ (t.laneAt l).block = false ∧
    t.get (pLANE l) R.LANE_LOCK_CNT = min (s.get (pLANE l) R.LANE_LOCK_CNT + 1) (2 ^ R.LANE_LOCK_CNT.w - 1) ∧
    ((s.laneAt l).st = 3 → laneFences s t l 0x21) ∧
    ((s.laneAt l).st ≠ 3 → (t.laneAt l).st = (s.laneAt l).st ∧ t.fenced (pLANE l) = s.fenced (pLANE l) ∧ s.sameMemory t) := by
  obtain ⟨c, hc⟩ : ∃ c, s.badCounted l bad = c := ⟨_, rfl⟩
  obtain ⟨hnear, hat, hbut, -, herr⟩ := s.badCounted_spec l bad hc
  obtain ⟨u, hu⟩ : ∃ u, (c.incSat (pLANE l) R.LANE_LOCK_CNT).dropLock l = u := ⟨_, rfl⟩
  have hnearu : s.laneNear u l := hu ▸ (hnear.trans (c.laneNear_incSat l (by decide))).trans (State.laneMoves_dropLock _ l).near
  have hatu : u.laneAt l = { s.laneAt l with block := false, good := 0, bad := [] } := by
    rw [← hu, State.dropLock, State.laneAt_upd_self, ← hat]
    rfl
  have hlock : u.get (pLANE l) R.LANE_LOCK_CNT = min (s.get (pLANE l) R.LANE_LOCK_CNT + 1) (2 ^ R.LANE_LOCK_CNT.w - 1) := by
    have hcnt : c.get (pLANE l) R.LANE_LOCK_CNT = s.get (pLANE l) R.LANE_LOCK_CNT :=
      hbut _ _ fun e he => Or.inr (by rw [List.mem_singleton.1 he]; exact (by decide : R.LANE_LOCK_CNT.id ≠ R.LANE_BLK_ERR.id))
    rw [← hcnt, ← hu]
    exact State.get_incSat_self _ _ _
  have herru : u.get (pLANE l) R.LANE_BLK_ERR = c.get (pLANE l) R.LANE_BLK_ERR := by
    rw [← hu]
    exact State.get_incSat_field _ _ (by decide)
  rw [hc] at ht
  unfold State.lockLost at ht
  dsimp only at ht
  rw [hu, hat] at ht
  by_cases h3 : (s.laneAt l).st = 3
  · rw [if_pos h3] at ht
    obtain ⟨-, ⟨st, sc, cs, cr, hbeside⟩, hcounts, -⟩ := c.leaves_spec u l.isLt (by decide) ht
    obtain ⟨hmoves, hone, -⟩ := u.setLane_spec l 1 rfl
    refine ⟨?_, by rw [hbeside, hatu], ?_, fun _ => laneFences_of_near (hnearu.trans hmoves.near) l.isLt hone (by decide) rfl ht, fun h => absurd h3 h⟩
    · rw [hcounts _ (by simp [laneTallies]), herru, herr]
    · rw [hcounts _ (by simp [laneTallies]), hlock]
  · rw [if_neg h3] at ht
    have hside : u.besideLane t l := ht ▸ c.besideLane_laneAfter u l 0x21
    refine ⟨?_, by rw [hside.lane, hatu], ?_, fun h => absurd h h3, fun _ => ⟨by rw [hside.lane, hatu], hside.header.fenced.trans hnearu.fenced, ?_⟩⟩
    · rw [hside.counts _ (by simp [laneTallies]), herru, herr]
    · rw [hside.counts _ (by simp [laneTallies]), hlock]
    · refine sameMemory_of_hold ?_
      rw [← ht, State.laneAfter_hold]
      exact hnearu.hold

/-! ### The loss of the recovered clock (R334, R341) -/

/-- A lane without its clock. -/
def State.clockLost (s : State) (n : Nat) : State :=
  (((if (s.laneAt n).block then s.incSat (pLANE n) R.LANE_LOCK_CNT else s).dropLock n).updLane n fun y =>
    { y with cdr := false, rxEidle := Config.free (55 * 2 ^ 32) s.fresh % 2 == 1 }).tickFresh
theorem State.clockLost_spec (s : State) (n : Nat) {t : State} (ht : s.clockLost n = t) :
    s.laneNear t n ∧ s.regsBut t [(pLANE n, R.LANE_LOCK_CNT)] ∧ (t.laneAt n).st = (s.laneAt n).st ∧ (t.laneAt n).cdr = false ∧ (t.laneAt n).block = false ∧
    t.get (pLANE n) R.LANE_LOCK_CNT = (if (s.laneAt n).block then min (s.get (pLANE n) R.LANE_LOCK_CNT + 1) (2 ^ R.LANE_LOCK_CNT.w - 1)
      else s.get (pLANE n) R.LANE_LOCK_CNT) := by
  obtain ⟨c, hc⟩ : ∃ c, (if (s.laneAt n).block then s.incSat (pLANE n) R.LANE_LOCK_CNT else s) = c := ⟨_, rfl⟩
  have hcounted : s.laneNear c n ∧ c.laneAt n = s.laneAt n ∧ s.regsBut c [(pLANE n, R.LANE_LOCK_CNT)] ∧
      c.get (pLANE n) R.LANE_LOCK_CNT = (if (s.laneAt n).block then min (s.get (pLANE n) R.LANE_LOCK_CNT + 1) (2 ^ R.LANE_LOCK_CNT.w - 1)
        else s.get (pLANE n) R.LANE_LOCK_CNT) := by
    rw [← hc]
    split
    · exact ⟨s.laneNear_incSat n (by decide), rfl, State.regsBut_incSat (s.regsBut_refl _) (by simp), s.get_incSat_self _ _⟩
    · exact ⟨s.laneNear_refl n, rfl, s.regsBut_refl _, rfl⟩
  obtain ⟨hnear, hat, hbut, hcnt⟩ := hcounted
  unfold State.clockLost at ht
  rw [hc] at ht
  have hatt : t.laneAt n = { s.laneAt n with
      block := false, good := 0, bad := [], cdr := false, rxEidle := Config.free (55 * 2 ^ 32) s.fresh % 2 == 1 } := by
    have hfresh : ∀ u : State, u.tickFresh.laneAt n = u.laneAt n := fun _ => rfl
    rw [← ht, ← hat, hfresh, State.laneAt_upd_self, State.dropLock, State.laneAt_upd_self]
  have hregs : t.regs = c.regs := by
    rw [← ht]
    rfl
  refine ⟨ht ▸ ((hnear.trans (State.laneMoves_dropLock _ n).near).trans (State.laneMoves_updLane _ n _).near).trans (State.laneNear_tickFresh _ n),
    State.regsBut_of_regs hbut hregs, by rw [hatt], by rw [hatt], by rw [hatt], ?_⟩
  rw [← hcnt]
  unfold State.get
  rw [hregs]
theorem exec_cdrLoss (s : State) (l : Lane) : exec (.cdrLoss l) s = .next (if s.laneLive l = false then s
    else s.laneAfter (if ((s.laneAt l).st = 3 ∨ (s.laneAt l).st = 5) ∨ s.fencedNow (pLANE l) = true then
      ((s.clockLost l).setLane l 1).fence (pLANE l) 0x20 0 l else s.clockLost l) l 0x20) := by
  change execCdrLoss l s = _
  unfold execCdrLoss
  dsimp only
  simp only [Bool.not_eq_true', Bool.or_eq_true, decide_eq_true_eq]
  rfl
/-- A loss of clock in the core cycle of the lane's fence joins it (R384). -/
theorem State.fenceOne_joins {s : State} {l : Nat} (hl : l < 160) (hnot : ¬ (128 ≤ l ∧ l < 132)) (hnow : s.fencedNow (pLANE l) = true) {reason : Nat}
    (hr : reason < 256) {t : State} (ht : s.fenceOne (pLANE l) reason 0 l = t) :
    t.fenced (pLANE l) = true ∧ t.get (pLANE l) R.PG_FENCE_REASON = min reason (s.get (pLANE l) R.PG_FENCE_REASON) := by
  have hfen : s.fenced (pLANE l) = true := by
    unfold State.fencedNow at hnow
    simp only [Bool.and_eq_true] at hnow
    exact hnow.1.1
  have hcount : ∀ f ∈ [R.PG_FENCE_FENCED, R.PG_FENCE_REASON], (s.errCount (pLANE l) reason 0 l 0 0).get (pLANE l) f = s.get (pLANE l) f := fun f hf =>
    s.errCount_keeps _ _ _ _ _ (by revert f; decide)
  have hjoin : t = s.fenceJoin (pLANE l) reason 0 l 0 true := by
    rw [← ht]
    unfold State.fenceOne
    simp only [blkOf_lane l hl]
    rw [if_neg (by simp [neverFences]; omega), if_pos hfen, if_pos hnow]
  unfold State.fenceJoin at hjoin
  dsimp only at hjoin
  rw [if_pos rfl, hcount _ (by simp)] at hjoin
  unfold State.fenced State.flag at hfen ⊢
  by_cases hlow : reason < s.get (pLANE l) R.PG_FENCE_REASON
  · rw [if_pos hlow] at hjoin
    rw [hjoin, State.get_set_field _ _ _ (by decide), hcount _ (by simp), State.get_set_self, min_eq_left (by omega)]
    exact ⟨hfen, Nat.mod_eq_of_lt hr⟩
  · rw [if_neg hlow] at hjoin
    rw [hjoin, hcount _ (by simp), hcount _ (by simp), min_eq_right (by omega)]
    exact ⟨hfen, rfl⟩
theorem cdrLoss_spec {s : State} {l : Lane} (hlive : s.laneLive l = true) : ∃ t, exec (.cdrLoss l) s = .next t ∧
    (t.laneAt l).cdr = false ∧ (t.laneAt l).block = false ∧
    t.get (pLANE l) R.LANE_LOCK_CNT = (if (s.laneAt l).block then min (s.get (pLANE l) R.LANE_LOCK_CNT + 1) (2 ^ R.LANE_LOCK_CNT.w - 1)
      else s.get (pLANE l) R.LANE_LOCK_CNT) ∧
    ((s.laneAt l).st = 3 ∨ (s.laneAt l).st = 5 → laneFences s t l 0x20) ∧
    ((s.laneAt l).st ≠ 3 → (s.laneAt l).st ≠ 5 → s.fencedNow (pLANE l) = true → (t.laneAt l).st = 1 ∧ t.fenced (pLANE l) = true ∧
      t.get (pLANE l) R.PG_FENCE_REASON = min 0x20 (s.get (pLANE l) R.PG_FENCE_REASON)) ∧
    ((s.laneAt l).st ≠ 3 → (s.laneAt l).st ≠ 5 → s.fencedNow (pLANE l) = false →
      (t.laneAt l).st = (s.laneAt l).st ∧ t.fenced (pLANE l) = s.fenced (pLANE l) ∧ s.sameMemory t) := by
  obtain ⟨u, hu⟩ : ∃ u, s.clockLost l = u := ⟨_, rfl⟩
  obtain ⟨hnear, hbut, hst, hcdr, hblock, hcnt⟩ := s.clockLost_spec l hu
  rw [exec_cdrLoss, if_neg (by simp [hlive]), hu]
  refine ⟨_, rfl, ?_⟩
  by_cases hfence : ((s.laneAt l).st = 3 ∨ (s.laneAt l).st = 5) ∨ s.fencedNow (pLANE l) = true
  · rw [if_pos hfence]
    obtain ⟨hone, ⟨st, sc, cs, cr, hbeside⟩, hcounts, hheader⟩ := s.leaves_spec u l.isLt (reason := 0x20) (code := 0x20) (by decide) rfl
    obtain ⟨hmoves, hone', -⟩ := u.setLane_spec l 1 rfl
    have hnear' := hnear.trans hmoves.near
    refine ⟨by rw [hbeside, hcdr], by rw [hbeside, hblock], (hcounts _ (by simp [laneTallies])).trans hcnt,
      fun _ => laneFences_of_near hnear' l.isLt hone' (by decide) rfl rfl, fun _ _ hnow => ?_, fun h3 h5 hnow => ?_⟩
    · have hnow' : (u.setLane l 1).fencedNow (pLANE l) = true := by
        rw [← hnow]
        obtain ⟨r, a, x, c, w, n, hshape⟩ := hnear'.shape
        have hf := hnear'.fenced
        rw [hshape] at hf ⊢
        unfold State.fencedNow
        rw [hf]
      have hlane : ¬ (128 ≤ l.val ∧ l.val < 132) := by
        simp only [State.laneLive, Bool.and_eq_true, Bool.not_eq_true', Bool.and_eq_false_iff, decide_eq_false_iff_not] at hlive
        omega
      obtain ⟨h1, h2⟩ := State.fenceOne_joins l.isLt hlane hnow' (reason := 0x20) (by decide) rfl
      have hreason : (u.setLane l 1).get (pLANE l) R.PG_FENCE_REASON = s.get (pLANE l) R.PG_FENCE_REASON := by
        refine (hmoves.but _ _ fun e he => Or.inr ?_).trans (hbut _ _ fun e he => Or.inr ?_)
        · rw [List.mem_singleton.1 he]
          exact (by decide : R.PG_FENCE_REASON.id ≠ R.PG_IRQ_RAW.id)
        · rw [List.mem_singleton.1 he]
          exact (by decide : R.PG_FENCE_REASON.id ≠ R.LANE_LOCK_CNT.id)
      exact ⟨hone, hheader.fenced.trans h1, by rw [hheader.flds _ (by simp [fenceHeader]), h2, hreason]⟩
    · rcases hfence with (h | h) | h
      · exact absurd h h3
      · exact absurd h h5
      · rw [hnow] at h
        exact absurd h (by decide)
  · rw [if_neg hfence]
    simp only [not_or] at hfence
    have hside : u.besideLane (s.laneAfter u l 0x20) l := s.besideLane_laneAfter u l 0x20
    rw [hside.lane]
    refine ⟨hcdr, hblock, (hside.counts _ (by simp [laneTallies])).trans hcnt, fun h => absurd h (by tauto), fun _ _ h => absurd h hfence.2,
      fun _ _ _ => ⟨hst, hside.header.fenced.trans hnear.fenced, sameMemory_of_hold ?_⟩⟩
    rw [State.laneAfter_hold]
    exact hnear.hold
theorem exec_exitTimeout (s : State) (l : Lane) : exec (.exitTimeout l) s =
    .next (if (s.laneAt l).st ≠ 5 ∨ s.tick < s.exitLimit l then s else s.exitFail l) := by
  change execExitTimeout l s = _
  unfold execExitTimeout
  simp only [Bool.or_eq_true, decide_eq_true_eq]

/-! ### What O56 states -/

theorem laneSlip_clause {s : State} {l : Lane} {n : BitVec 7} (h : s.accepts (pLANE l) 0x50 n.toNat) :
    (laneSlips l = true → 1 ≤ n.toNat → n.toNat ≤ 65 → (s.laneAt l).st ∈ [1, 3, 4] → ∃ t, exec (.laneCmdSlip l n) s = .next t ∧
      (t.laneAt l).slip = ((s.laneAt l).slip + n.toNat) % 66 ∧ (t.laneAt l).block = false ∧ (t.laneAt l).good = 0 ∧
      (t.laneAt l).st = (if (s.laneAt l).st = 3 then 1 else (s.laneAt l).st) ∧
      ((s.laneAt l).st = 3 → bit (t.get (pLANE l) R.PG_IRQ_RAW) 4 = true) ∧
      (s.straps.pairEn = false → s.regsBut t [(pLANE l, R.PG_IRQ_RAW)] ∧
        ({ t with regs := s.regs, lane := s.lane, head := s.head, calst := s.calst, host := s.host } : State) = s) ∧ s.sameMemory t) ∧
    ((n = 0 ∨ 65 < n.toNat ∨ (s.laneAt l).st ∉ [1, 3, 4] ∨ laneSlips l = false) → exec (.laneCmdSlip l n) s = .next s) := by
  rw [exec_laneCmdSlip h]
  refine ⟨fun hs h1 h65 hst => ?_, fun hno => ?_⟩
  · obtain ⟨u, hu⟩ : ∃ u, s.laneSlip l n.toNat = u := ⟨_, rfl⟩
    obtain ⟨hmoves, hslip, hblock, hgood, hst', hbit⟩ := s.laneSlip_spec l.isLt hs h1 h65 hst hu
    have hside := s.besideLane_laneAfter u l 0
    rw [if_pos hs, hu]
    refine ⟨_, rfl, ?_⟩
    rw [hside.lane]
    refine ⟨hslip, hblock, hgood, hst', fun h3 => hside.header.raw 4 (by decide) (hbit h3), fun hsingle => ?_, sameMemory_of_hold ?_⟩
    · rw [s.laneAfter_single u (laneSlips_lt hs) 0 (hmoves.single.trans hsingle)]
      refine ⟨hmoves.but, ?_⟩
      obtain ⟨r, a, x, c, w, hshape⟩ := hmoves.shape
      rw [hshape]
    · rw [State.laneAfter_hold]
      exact hmoves.near.hold
  · split
    · next hs =>
      have hstill : s.laneSlip l n.toNat = s := by
        unfold State.laneSlip
        refine if_pos ?_
        simp only [List.mem_cons, List.not_mem_nil, or_false, not_or] at hno
        rcases hno with h | h | h | h
        · simp [h]
        · simp [h]
        · simp [h]
        · rw [hs] at h
          exact absurd h (by decide)
      rw [hstill, s.laneAfter_still (laneSlips_lt hs)]
    · rfl
theorem laneSearch_clause {s : State} {l : Lane} (h : s.accepts (pLANE l) 0x50 (2 ^ 31)) :
    (laneSlips l = true → ((s.laneAt l).st = 1 ∨ (s.laneAt l).st = 3) → ∃ t, exec (.laneCmdSearch l) s = .next t ∧ (t.laneAt l).st = 2 ∧
      (t.laneAt l).block = false ∧ (t.laneAt l).bootSearch = false ∧ (t.laneAt l).slip = (s.laneAt l).slip ∧ (t.laneAt l).stepAt = s.tick ∧
      (t.laneAt l).stepsLeft = 66 * max 1 (s.get (pLANE l) R.LANE_SYNC_TRIES) ∧ s.sameMemory t) ∧
    (laneSlips l = false ∨ ((s.laneAt l).st ≠ 1 ∧ (s.laneAt l).st ≠ 3) → exec (.laneCmdSearch l) s = .next s) := by
  rw [exec_laneCmdSearch h]
  refine ⟨fun hs hst => ?_, fun hno => ?_⟩
  · obtain ⟨u, hu⟩ : ∃ u, s.searchStart l false = u := ⟨_, rfl⟩
    obtain ⟨h1, h2, h3, h4, h5, h6, h7⟩ := s.searchStart_spec l hu
    rw [if_pos ⟨hs, hst⟩, hu]
    refine ⟨_, rfl, ?_⟩
    rw [(s.besideLane_laneAfter u l 0).lane]
    exact ⟨h1, h2, h3, h4, h5, h6, sameMemory_of_hold (by rw [State.laneAfter_hold, h7])⟩
  · rw [if_neg]
    rintro ⟨hs, hst⟩
    rcases hno with h | h
    · rw [hs] at h
      exact absurd h (by decide)
    · omega
theorem searchEnd_clause (s : State) (l : Lane) {k : Nat} (hk : k = blocksIn l (s.tick - (s.laneAt l).stepAt)) (hlive : s.laneLive l = true)
    (hst : (s.laneAt l).st = 2) :
    (∀ (p : Fin 66) (d : Nat), d = (p.val + 66 - (s.laneAt l).slip) % 66 →
      (66 * (s.laneAt l).stepsLeft < k → ∃ t, exec (.searchEnd l (some p)) s = .next t ∧ searchFails s t l) ∧
      (k ≤ 66 * (s.laneAt l).stepsLeft → d < (s.laneAt l).stepsLeft → 3 * d + 66 ≤ k → ∃ t, exec (.searchEnd l (some p)) s = .next t ∧
        (t.laneAt l).st = 3 ∧ ((s.laneAt l).slip < 66 → (t.laneAt l).slip = p.val) ∧ (t.laneAt l).block = true ∧ (t.laneAt l).cdr = true ∧
        (t.laneAt l).lockAt = s.tick ∧ bit (t.get (pLANE l) R.PG_IRQ_RAW) 3 = true ∧ s.sameMemory t) ∧
      (k ≤ 66 * (s.laneAt l).stepsLeft → (s.laneAt l).stepsLeft ≤ d ∨ k < 3 * d + 66 → exec (.searchEnd l (some p)) s = .next s)) ∧
    (3 * (s.laneAt l).stepsLeft ≤ k → ∃ t, exec (.searchEnd l none) s = .next t ∧ searchFails s t l) ∧
    (k < 3 * (s.laneAt l).stepsLeft → exec (.searchEnd l none) s = .next s) := by
  refine ⟨fun p d hd => ?_, fun h => ?_, fun h => ?_⟩
  · rw [exec_searchEnd_some hlive hst p hd hk]
    refine ⟨fun h => ?_, fun h h1 h2 => ?_, fun h h1 => ?_⟩
    · rw [if_pos h]
      exact ⟨_, rfl, s.searchFails_over l⟩
    · rw [if_neg (by omega), if_pos ⟨h1, h2⟩]
      have hslip : (s.searchSlip l d).laneAt l = _ := s.laneAt_searchSlip l d
      obtain ⟨k1, k2, k3, k4, k5, k6, k7⟩ := (s.searchSlip l d).searchOver_found l (by rw [hslip]; dsimp only; omega) rfl
      refine ⟨_, rfl, k1, fun h66 => ?_, k3, k4, k5, k6, sameMemory_of_hold (k7.trans (State.searchSlip_hold _ _ _))⟩
      rw [k2, hslip]
      exact slip_found p.isLt hd h66
    · rw [if_neg (by omega), if_neg (by omega)]
  · rw [exec_searchEnd_none hlive hst, ← hk, if_pos h]
    exact ⟨_, rfl, s.searchFails_over l⟩
  · rw [exec_searchEnd_none hlive hst, ← hk, if_neg (by omega)]
theorem blockLock_clause {s : State} {l : Lane} (hlive : s.laneLive l = true)
    (hst : (s.laneAt l).st = 1 ∨ ((s.laneAt l).st = 5 ∧ s.tick ≤ s.exitLimit l)) : ∃ t, exec (.blockLock l) s = .next t ∧
    (t.laneAt l).st = 3 ∧ (t.laneAt l).block = true ∧ (t.laneAt l).cdr = true ∧ (t.laneAt l).lockAt = s.tick ∧
    (t.laneAt l).good = 64 ∧ bit (t.get (pLANE l) R.PG_IRQ_RAW) 3 = true ∧
    ((s.laneAt l).st = 5 → bit (t.get (pLANE l) R.PG_IRQ_RAW) 7 = true ∧
      t.get (pLANE l) R.LANE_EXIT_CNT = (s.get (pLANE l) R.LANE_EXIT_CNT + 1) % 2 ^ R.LANE_EXIT_CNT.w) ∧ s.sameMemory t := by
  obtain ⟨u, hu⟩ : ∃ u, s.locked l = u := ⟨_, rfl⟩
  obtain ⟨h1, h2, h3, h4, h5, h6, h7, h8⟩ := s.locked_spec l (by omega) hu
  have hside := s.besideLane_afterLock u l
  rw [exec_blockLock, if_neg (by simp only [hlive]; simp; omega), if_neg (by omega), hu]
  refine ⟨_, rfl, ?_⟩
  rw [hside.lane]
  refine ⟨h1, h2, h3, h4, h5, hside.header.raw 3 (by decide) h6, fun hx => ⟨hside.header.raw 7 (by decide) (h7 hx).1, ?_⟩, sameMemory_of_hold ?_⟩
  · rw [hside.counts _ (by simp [laneTallies]), (h7 hx).2]
  · rw [State.laneAfter_hold, ← h8]
    split
    · exact u.lanesJudge_hold _
    · rfl
theorem headersTaken_clause {s : State} {l : Lane} {bad : Nat} (run : Nat) (hbad : 0 < bad) (hlive : s.laneLive l = true) :
    ((s.laneAt l).st = 2 → (blocksIn l (s.tick - (s.laneAt l).stepAt) < 3 → exec (.blockLockLoss ⟨l, bad, run⟩) s = .next s) ∧
      (3 ≤ blocksIn l (s.tick - (s.laneAt l).stepAt) → ∃ t, exec (.blockLockLoss ⟨l, bad, run⟩) s = .next t ∧
        (t.laneAt l).slip = ((s.laneAt l).slip + 1) % 66 ∧
        s.sameMemory t ∧ (1 < (s.laneAt l).stepsLeft → (t.laneAt l).st = 2 ∧ (t.laneAt l).stepsLeft = (s.laneAt l).stepsLeft - 1 ∧
          (t.laneAt l).stepAt = s.tick ∧ ({ t with lane := s.lane } : State) = s) ∧
        ((s.laneAt l).stepsLeft ≤ 1 → (t.laneAt l).st = 1 ∧ bit (t.get (pLANE l) R.PG_IRQ_RAW) 6 = true))) ∧
    ((s.laneAt l).st ∈ [1, 3, 5] → (s.laneAt l).block = false → ∃ t, exec (.blockLockLoss ⟨l, bad, run⟩) s = .next t ∧
      t.laneAt l = { s.laneAt l with good := min 63 run } ∧ ({ t with lane := s.lane } : State) = s) ∧
    ((s.laneAt l).st ∈ [1, 3, 5] → (s.laneAt l).block = true → ∃ t, exec (.blockLockLoss ⟨l, bad, run⟩) s = .next t ∧
      t.get (pLANE l) R.LANE_BLK_ERR = (if (s.laneAt l).st = 3 then min (s.get (pLANE l) R.LANE_BLK_ERR + bad) (2 ^ R.LANE_BLK_ERR.w - 1)
        else s.get (pLANE l) R.LANE_BLK_ERR) ∧
      (16 ≤ ((s.badRecent l).map (·.2)).sum + bad → (t.laneAt l).block = false ∧
        t.get (pLANE l) R.LANE_LOCK_CNT = min (s.get (pLANE l) R.LANE_LOCK_CNT + 1) (2 ^ R.LANE_LOCK_CNT.w - 1) ∧
        ((s.laneAt l).st = 3 → laneFences s t l 0x21) ∧
        ((s.laneAt l).st ≠ 3 → (t.laneAt l).st = (s.laneAt l).st ∧ t.fenced (pLANE l) = s.fenced (pLANE l) ∧ s.sameMemory t)) ∧
      (((s.badRecent l).map (·.2)).sum + bad < 16 →
        t.laneAt l = { s.laneAt l with good := run, lockAt := s.tick, bad := (s.tick, bad) :: s.badRecent l } ∧
        s.regsBut t [(pLANE l, R.LANE_BLK_ERR)] ∧ ({ t with regs := s.regs, lane := s.lane } : State) = s)) := by
  have hmem : ∀ {x : Nat}, x ∈ [1, 3, 5] → ¬ (x = 2 ∧ bad ≠ 0) ∧ ¬ x ∉ [1, 2, 3, 5] := fun {x} hx => by
    simp only [List.mem_cons, List.not_mem_nil, or_false] at hx ⊢
    omega
  rw [exec_blockLockLoss, if_neg (by simp [hlive])]
  refine ⟨fun h2 => ?_, fun hst hblock => ?_, fun hst hblock => ?_⟩
  · obtain ⟨hsoon, hleave⟩ := s.searchLeave_spec l
    rw [if_pos ⟨h2, by omega⟩]
    refine ⟨fun h => by rw [hsoon h], fun h => ?_⟩
    obtain ⟨k1, k2, k3, k4⟩ := hleave h
    refine ⟨_, rfl, k1, k2, fun hmore => ?_, k4⟩
    rw [k3 hmore, State.laneAt_searchSlip]
    exact ⟨h2, rfl, rfl, rfl⟩
  · rw [if_neg (hmem hst).1, if_neg (hmem hst).2, if_pos hblock]
    refine ⟨_, rfl, ?_, rfl⟩
    rw [State.headersRun, State.laneAt_upd_self, if_neg (by omega)]
  · rw [if_neg (hmem hst).1, if_neg (hmem hst).2, if_neg (by simp [hblock]), if_neg (by omega)]
    by_cases hlost : 16 ≤ ((s.badRecent l).map (·.2)).sum + bad
    · rw [if_pos hlost]
      obtain ⟨h1, h2, h3, h4, h5⟩ := lockLost_spec s l bad rfl
      exact ⟨_, rfl, h1, fun _ => ⟨h2, h3, h4, h5⟩, fun h => absurd hlost (by omega)⟩
    · rw [if_neg hlost]
      obtain ⟨u, hu⟩ : ∃ u, s.badCounted l bad = u := ⟨_, rfl⟩
      obtain ⟨-, hat, hbut, hshape, herr⟩ := s.badCounted_spec l bad hu
      rw [hu]
      refine ⟨_, rfl, herr, fun h => absurd h hlost, fun _ => ⟨?_, hbut, ?_⟩⟩
      · rw [State.headersHeld, State.laneAt_upd_self, hat]
      · rw [← hshape]
        rfl

/-- Settles O56. A change of a lane moves its own registers and state (`laneMoves`); what follows it, on the feed ports, the boot sequencer and
the pair, moves beside the lane (`besideLane`); and every way out of UP ends in the one fence of a lane (`laneFences_of_near`). -/
theorem laneLock : Obligations.LaneLock := by
  unfold Obligations.LaneLock
  rintro s l x rfl
  refine ⟨fun n h => laneSlip_clause h, fun h => laneSearch_clause h, fun k hk => ⟨fun h => exec_searchEnd_still h, searchEnd_clause s l hk⟩,
    fun h => ?_, fun hlive hst hlate => ?_, fun hlive hst => blockLock_clause hlive hst, fun bad run => ⟨fun h => ?_, fun hlive hst hblock hbad => ?_,
      fun hbad hlive => headersTaken_clause run hbad hlive⟩, fun h => ?_, fun h => cdrLoss_spec h, fun h => ?_, fun hst hlate => ?_⟩
  · rw [exec_blockLock, if_pos h]
  · rw [exec_blockLock, if_neg (by simp [hlive, hst]), if_pos ⟨hst, hlate⟩]
    exact ⟨_, rfl, exitFail_fences s l⟩
  · rw [exec_blockLockLoss]
    rcases h with h | h | ⟨h0, hb⟩
    · rw [if_pos h]
    · rw [if_neg (fun (h' : (s.laneAt l).st = 2 ∧ bad ≠ 0) => h (by simp [h'.1])), if_pos h, ite_self]
    · rw [if_neg (fun (h' : (s.laneAt l).st = 2 ∧ bad ≠ 0) => h'.2 h0), if_neg (show ¬ (s.laneAt l).block = false by simp [hb]), if_pos h0, ite_self, ite_self]
  · rw [exec_blockLockLoss, if_neg (by simp [hlive]), if_neg (by simp), if_neg (fun h => h hst), if_pos hblock]
    refine ⟨_, rfl, ?_, fun n hn => State.laneAt_upd_other _ _ hn, rfl⟩
    rw [State.headersRun, State.laneAt_upd_self, if_pos rfl]
  · rw [exec_cdrLoss, if_pos h]
  · rw [exec_exitTimeout, if_pos h]
  · rw [exec_exitTimeout, if_neg (by omega)]
    exact ⟨_, rfl, exitFail_fences s l⟩

end Sys2Proof.Machine
end

section
/-! ### What DRAM at work leaves as it is (R301, R313) -/
open Sys2Proof Sys2Proof.Machine
namespace Sys2Proof.Machine

/-- The pages that the users of DRAM report on: the DMA pages, and those of DRAM and what stands above. -/
def servePage (p : Nat) : Prop := p = pDMAC ∨ 0x40 ≤ p
/-- Fields that no user of DRAM writes. -/
def servedKept : List Fld := [R.PG_CTRL_EN, R.PG_FENCE_FENCED, R.DRAM_PAR_CNT, R.DRAM_TRAIN_FAIL, R.DRAM_TRAIN_CNT, R.DRAM_RMAP_SPR]
/-- Those, and the registers that reports move. -/
def servedIds : List Nat := servedKept.map (·.id) ++ [R.PG_IRQ_RAW.id, R.PG_ERR_CNT.id, R.PG_ERR_INFO_CODE.id]
/-- A channel's service: trained, stopped by ALERT_n, tried again, paused. -/
def DramSt.service (d : DramSt) : Bool × Option Nat × Nat × Option (Nat × Nat) := (d.trained, d.alert, d.tries, d.pause)
/-- DRAM at work: its users move their own pages and state, lose no cause and no error that stands, and leave the boot sequencer, the flash, the
queue and whether a channel serves. -/
structure State.serves (s t : State) : Prop where
  page : ∀ p, ¬ servePage p → ∀ f, t.get p f = s.get p f
  kept : ∀ p, p ≠ pDMAC → ∀ f ∈ servedKept, t.get p f = s.get p f
  raised : ∀ p, p ≠ pDMAC → ∀ i < 32, bit (s.get p R.PG_IRQ_RAW) i = true → bit (t.get p R.PG_IRQ_RAW) i = true
  errs : ∀ p, p ≠ pDMAC → s.get p R.PG_ERR_CNT ≠ 0 → t.get p R.PG_ERR_CNT ≠ 0 ∧ t.get p R.PG_ERR_INFO_CODE = s.get p R.PG_ERR_INFO_CODE
  chans : ∀ c, (t.dramAt c).service = (s.dramAt c).service
  rest : t.boot = s.boot ∧ t.pending = s.pending ∧ t.flash = s.flash ∧ t.straps = s.straps ∧ t.lane = s.lane
theorem State.serves_refl (s : State) : s.serves s :=
  ⟨fun _ _ _ => rfl, fun _ _ _ _ => rfl, fun _ _ _ _ h => h, fun _ _ h => ⟨h, rfl⟩, fun _ => rfl, rfl, rfl, rfl, rfl, rfl⟩
theorem State.serves.trans {s t u : State} (h : s.serves t) (k : t.serves u) : s.serves u := by
  refine ⟨fun p hp f => (k.page p hp f).trans (h.page p hp f), fun p hp f hf => (k.kept p hp f hf).trans (h.kept p hp f hf),
    fun p hp i hi hb => k.raised p hp i hi (h.raised p hp i hi hb), fun p hp hn => ?_, fun c => (k.chans c).trans (h.chans c), ?_⟩
  · obtain ⟨h1, h2⟩ := h.errs p hp hn
    obtain ⟨k1, k2⟩ := k.errs p hp h1
    exact ⟨k1, k2.trans h2⟩
  · obtain ⟨h1, h2, h3, h4, h5⟩ := h.rest
    obtain ⟨k1, k2, k3, k4, k5⟩ := k.rest
    exact ⟨k1.trans h1, k2.trans h2, k3.trans h3, k4.trans h4, k5.trans h5⟩
theorem State.serves_foldl {α : Type} (g : State → α → State) (hg : ∀ (t : State) x, t.serves (g t x)) (l : List α) (s : State) : s.serves (l.foldl g s) := by
  induction l generalizing s with
  | nil => exact s.serves_refl
  | cons x l ih => exact (hg s x).trans (ih _)
theorem State.serves_ite {s t u : State} (c : Prop) [Decidable c] (h : s.serves t) (k : s.serves u) : s.serves (if c then t else u) := by
  split <;> assumption
/-- What moves neither a register nor a channel's service. -/
theorem State.serves_same {s t : State} (hr : t.regs = s.regs) (hd : t.dram = s.dram)
    (h : t.boot = s.boot ∧ t.pending = s.pending ∧ t.flash = s.flash ∧ t.straps = s.straps ∧ t.lane = s.lane) : s.serves t := by
  have hget : ∀ p f, t.get p f = s.get p f := fun p f => by
    unfold State.get
    rw [hr]
  refine ⟨fun p _ f => hget p f, fun p _ f _ => hget p f, fun p _ i _ hb => by rwa [hget], fun p _ hn => by rw [hget, hget]; exact ⟨hn, rfl⟩, fun c => ?_, h⟩
  unfold State.dramAt
  rw [hd]
theorem State.serves_updDram (s : State) (c : Nat) (g : DramSt → DramSt) (hg : ∀ d, (g d).service = d.service) : s.serves (s.updDram c g) := by
  refine ⟨fun _ _ _ => rfl, fun _ _ _ _ => rfl, fun _ _ _ _ h => h, fun _ _ h => ⟨h, rfl⟩, fun n => ?_, rfl, rfl, rfl, rfl, rfl⟩
  by_cases hn : n = c
  · subst hn
    exact (congrArg DramSt.service (NMap.getD_put_self _ _ _ _)).trans (hg _)
  · exact congrArg DramSt.service (NMap.getD_put_other _ _ _ hn)
theorem servedIds_kept {f g : Fld} (hf : f ∈ servedKept) (hg : g.id ∉ servedIds) : f.id ≠ g.id := fun h => by
  refine hg (h ▸ ?_)
  unfold servedIds
  exact List.mem_append_left _ (List.mem_map_of_mem hf)
section
variable (s : State) {p : Nat} (hp : servePage p)
include hp
theorem State.serves_set {g : Fld} (v : Nat) (hg : p = pDMAC ∨ g.id ∉ servedIds) : s.serves (s.set p g v) := by
  have hother : ∀ q, q ≠ pDMAC → ∀ f : Fld, g.id ∉ servedIds → f.id ≠ g.id → (s.set p g v).get q f = s.get q f := fun q _ f _ hf => s.get_set_ne v (Or.inr hf)
  have hget : ∀ q, q ≠ pDMAC → ∀ f : Fld, (g.id ∉ servedIds → f.id ≠ g.id) → (s.set p g v).get q f = s.get q f := fun q hq f hf => by
    rcases hg with hg | hg
    · exact s.get_set_ne v (Or.inl (by rw [hg]; exact hq))
    · exact s.get_set_ne v (Or.inr (hf hg))
  have hne : ∀ i ∈ [R.PG_IRQ_RAW.id, R.PG_ERR_CNT.id, R.PG_ERR_INFO_CODE.id], g.id ∉ servedIds → i ≠ g.id := fun i hi hg h =>
    hg (h ▸ List.mem_append_right _ hi)
  refine ⟨fun q hq f => s.get_set_ne v (Or.inl fun h => hq (by rw [h]; exact hp)), fun q hq f hf => hget q hq f fun hg => servedIds_kept hf hg, fun q hq i _ hb => ?_,
    fun q hq hn => ?_, fun _ => rfl, rfl, rfl, rfl, rfl, rfl⟩
  · rw [hget q hq _ (hne _ (by simp))]
    exact hb
  · rw [hget q hq _ (hne _ (by simp)), hget q hq _ (hne _ (by simp))]
    exact ⟨hn, rfl⟩
theorem State.serves_set64 {lo hi : Fld} (v : Nat) (hg : p = pDMAC ∨ (lo.id ∉ servedIds ∧ hi.id ∉ servedIds)) : s.serves (s.set64 p lo hi v) :=
  (s.serves_set hp _ (hg.imp_right And.left)).trans (State.serves_set _ hp _ (hg.imp_right And.right))
theorem State.serves_cause (i : Nat) : s.serves (s.cause p i) := by
  obtain ⟨r, w, h⟩ := s.reports_cause p i
  have hget : ∀ q (f : Fld), f.id ≠ R.PG_IRQ_RAW.id → (s.cause p i).get q f = s.get q f := fun q f hf => s.get_cause_ne i (Or.inr hf)
  refine ⟨fun q hq f => s.get_cause_ne i (Or.inl fun h => hq (by rw [h]; exact hp)), fun q _ f hf => hget q f ?_, fun q _ j hj hb => ?_, fun q _ hn => ?_, fun c => ?_, ?_⟩
  · revert f
    decide
  · by_cases hq : q = p
    · subst hq
      exact s.bit_cause_keeps hj hb
    · rwa [s.get_cause_ne i (Or.inl hq)]
  · rw [hget q _ (by decide), hget q _ (by decide)]
    exact ⟨hn, rfl⟩
  all_goals rw [h]
  · rfl
  · exact ⟨rfl, rfl, rfl, rfl, rfl⟩
theorem State.serves_errCount (code src lo hi : Nat) : s.serves (s.errCount p code src lo hi 0) := by
  obtain ⟨r, h⟩ := (s.errCount_regs p code src lo hi).2
  have hget : ∀ q, ∀ f ∈ R.PG_IRQ_RAW :: servedKept, (s.errCount p code src lo hi 0).get q f = s.get q f := fun q f hf => by
    by_cases hq : q = p
    · subst hq
      refine s.errCount_keeps _ _ _ _ _ ?_
      revert f
      decide
    · exact s.errCount_page _ _ _ _ _ _ hq f
  refine ⟨fun q hq f => s.errCount_page _ _ _ _ _ _ (fun h => hq (by rw [h]; exact hp)) f, fun q _ f hf => hget q f (List.mem_cons_of_mem _ hf), fun q _ j _ hb => ?_,
    fun q _ hn => ?_, fun c => ?_, ?_⟩
  · rwa [hget q _ (by simp)]
  · by_cases hq : q = p
    · subst hq
      unfold State.errCount
      dsimp only
      rw [if_neg hn, State.get_incSat_self, State.get_incSat_field _ _ (by decide)]
      refine ⟨?_, rfl⟩
      rw [show R.PG_ERR_CNT.w = 32 from rfl]
      omega
    · rw [s.errCount_page _ _ _ _ _ _ hq, s.errCount_page _ _ _ _ _ _ hq]
      exact ⟨hn, rfl⟩
  all_goals rw [h]
  · rfl
  · exact ⟨rfl, rfl, rfl, rfl, rfl⟩
theorem State.serves_err (code src lo hi : Nat) : s.serves (s.err p code src lo hi 0) := by
  unfold State.err
  split
  · exact s.serves_refl
  · exact (s.serves_errCount hp _ _ _ _).trans (State.serves_cause _ hp _)
theorem State.serves_incSat {g : Fld} (hg : p = pDMAC ∨ g.id ∉ servedIds) : s.serves (s.incSat p g) := s.serves_set hp _ hg
theorem State.serves_incWrap {g : Fld} (hg : p = pDMAC ∨ g.id ∉ servedIds) : s.serves (s.incWrap p g) := s.serves_set hp _ hg
end
theorem servePage_dramc : servePage pDRAMC := Or.inr (by decide)
theorem servePage_dmac : servePage pDMAC := Or.inl rfl
theorem servePage_dram (c : Nat) : servePage (pDRAM c) := Or.inr (by unfold pDRAM; omega)
theorem servePage_dma (c : Nat) : servePage (pDMA c) := Or.inr (by unfold pDMA; omega)

/-! ### Bursts (R302 to R317, R321) -/

theorem State.serves_dramErr (s : State) (c code src a : Nat) : s.serves (s.dramErr c code src a) :=
  (s.serves_err servePage_dramc _ _ _ _).trans (State.serves_err _ (servePage_dram c) _ _ _ _)
theorem State.serves_activate (s : State) (c p bank row req : Nat) : s.serves (s.activate c p bank row req) := by
  have hset : ∀ (v : State) {f : Fld} x, f.id ∉ servedIds → v.serves (v.set pDRAMC f x) := fun v f x hf => v.serves_set servePage_dramc x (Or.inr hf)
  have hcount : ∀ (v : State) {f : Fld}, f.id ∉ servedIds → v.serves (v.incSat pDRAMC f) := fun v f hf => v.serves_incSat servePage_dramc (Or.inr hf)
  have hlast : ∀ (u : State) dec, u.serves ((((((u.setFlag pDRAMC R.DRAMC_RH_LAST_TRR dec).set pDRAMC R.DRAMC_RH_LAST_BANK bank).set pDRAMC
      R.DRAMC_RH_LAST_RANK p).set pDRAMC R.DRAMC_RH_LAST_CH c).set pDRAMC R.DRAMC_RH_LAST_REQ req).set pDRAMC
      R.DRAMC_RH_ROW row |>.cause pDRAMC 4) := fun u dec =>
    ((((((hset _ _ (by decide)).trans (hset _ _ (by decide))).trans (hset _ _ (by decide))).trans (hset _ _ (by decide))).trans
      (hset _ _ (by decide))).trans (hset _ _ (by decide))).trans (State.serves_cause _ servePage_dramc 4)
  unfold State.activate
  dsimp only
  split
  · exact s.serves_refl
  · have hopen : s.serves ((s.updDram c fun d => { d with
          openRow := d.openRow.put (16 * p + bank) row
          trackers := d.trackers.put (16 * p + bank) (trackRow ((s.dramAt c).trackers.getD (16 * p + bank) []) row).1 }).updDram c fun d =>
        { d with throttled := d.throttled.map fun x =>
          if x.1 = 16 * p + bank ∧ x.2.1 = row ∧ x.2.2.1 = req then (16 * p + bank, row, req, s.tick) else x }) :=
      (s.serves_updDram c _ fun _ => by rfl).trans (State.serves_updDram _ c _ fun _ => by rfl)
    split
    · exact hopen
    · split
      · exact ((hopen.trans (hlast _ _)).trans (State.serves_updDram _ c _ fun _ => by rfl)).trans (hcount _ (by decide))
      · exact ((hopen.trans (hlast _ _)).trans (State.serves_updDram _ c _ fun _ => by rfl)).trans (hcount _ (by decide))
theorem State.serves_issue (s : State) (c : Nat) (x : RetryCmd) : s.serves (s.issue c x) :=
  (s.serves_activate _ _ _ _ _).trans (State.serves_updDram _ c _ fun _ => by rfl)
theorem State.serves_rankFailed (s : State) (c lr f a src : Nat) : s.serves (s.rankFailed c lr f a src) := by
  have hset : ∀ (v : State) {f : Fld} x, f.id ∉ servedIds → v.serves (v.set (pDRAM c) f x) := fun v f x hf => v.serves_set (servePage_dram c) x (Or.inr hf)
  unfold State.rankFailed
  split
  · split
    · exact ((((s.serves_dramErr c 0x92 src a).trans (State.serves_updDram _ c _ fun _ => by rfl)).trans (hset _ _ (by decide))).trans
        (State.serves_set64 _ (servePage_dram c) _ (Or.inr (by decide)))).trans (State.serves_cause _ (servePage_dram c) 4)
    · exact hset _ _ (by decide)
  · exact s.serves_refl
theorem State.serves_burstFound (s : State) (c lr p a src : Nat) (b : Burst) : s.serves (s.burstFound c lr p a src b).1 := by
  have hcount : ∀ (v : State) {f : Fld}, f.id ∉ servedIds → v.serves (v.incSat (pDRAM c) f) := fun v f hf =>
    v.serves_incSat (servePage_dram c) (Or.inr hf)
  unfold State.burstFound
  cases b with
  | clean d => exact s.serves_refl
  | corrected d =>
    have hrep : ∀ rep, s.serves (((s.dramErr c 0x10 src a).incSat (pDRAM c) R.DRAM_CORR_CNT).updDram c fun d => { d with rep := rep }) := fun rep =>
      ((s.serves_dramErr c 0x10 src a).trans (hcount _ (by decide))).trans (State.serves_updDram _ c _ fun _ => by rfl)
    dsimp only
    split
    · exact ((((hrep _).trans (State.serves_dramErr _ c 0x12 src a)).trans (hcount _ (by decide))).trans
        (State.serves_set _ (servePage_dram c) _ (Or.inr (by decide)))).trans (State.serves_cause _ (servePage_dram c) 3)
    · exact hrep _
  | bad =>
    have hunc : s.serves ((s.dramErr c 0x11 src a).incSat (pDRAM c) R.DRAM_UNC_CNT) := (s.serves_dramErr c 0x11 src a).trans (hcount _ (by decide))
    dsimp only
    split
    · exact hunc
    · exact hunc.trans (State.serves_rankFailed _ _ _ _ _ _)
  | poison => exact (s.serves_dramErr c 0x11 8 a).trans (hcount _ (by decide))
theorem State.serves_burstRead (s : State) (a src req : Nat) : s.serves (s.burstRead a src req).1 :=
  (s.serves_issue _ _).trans (State.serves_burstFound _ _ _ _ _ _ _)
theorem State.serves_dramRead (s : State) (a n src req : Nat) : s.serves (s.dramRead a n src req).1 := by
  unfold State.dramRead
  exact List.foldlRecOn (motive := fun r : State × List Byte × Bool => s.serves r.1) _ _ s.serves_refl fun r hr x _ => hr.trans (r.1.serves_burstRead _ _ _)
theorem State.serves_burstWrite (s : State) (a : Nat) (d : List Byte) (req : Nat) : s.serves (s.burstWrite a d req) := by
  have hstore : ∀ (v : State) c p o x k, v.serves (v.storeBurst c p o x k) := fun v c p o x k => State.serves_same rfl rfl ⟨rfl, rfl, rfl, rfl, rfl⟩
  unfold State.burstWrite
  exact ((s.serves_issue _ _).trans (hstore _ _ _ _ _ _)).trans (State.serves_updDram _ _ _ fun _ => by rfl)
theorem State.serves_burstMerge (s : State) (a : Nat) (d : List (Option Byte)) (req : Nat) : s.serves (s.burstMerge a d req) := by
  unfold State.burstMerge
  split
  · exact s.serves_burstWrite _ _ _
  · split
    · exact s.serves_refl
    · exact (s.serves_burstRead _ _ _).trans (State.serves_burstWrite _ _ _ _)
theorem State.serves_dramWriteOpt (s : State) (a : Nat) (d : List (Option Byte)) (req : Nat) : s.serves (s.dramWriteOpt a d req) := by
  unfold State.dramWriteOpt
  exact State.serves_foldl _ (fun t x => t.serves_burstMerge _ _ _) _ s
theorem State.serves_dramAsk (s : State) (r : DramReq) : s.serves (s.dramAsk r) := by
  unfold State.dramAsk
  split
  · unfold State.reqServe
    cases r with
    | write a q l => exact s.serves_dramWriteOpt a l q
    | read a n z => exact (s.serves_dramRead a n 2 0x48).trans (State.serves_same rfl rfl ⟨rfl, rfl, rfl, rfl, rfl⟩)
  · exact State.serves_same rfl rfl ⟨rfl, rfl, rfl, rfl, rfl⟩
theorem State.serves_dramDrain (s : State) : s.serves s.dramDrain := by
  unfold State.dramDrain
  exact (State.serves_same (s := s) (t := { s with dramWait := [] }) rfl rfl ⟨rfl, rfl, rfl, rfl, rfl⟩).trans
    (State.serves_foldl _ (fun t r => t.serves_dramAsk r) _ _)

/-! ### DMA channels and job engines (R164 to R185) -/

theorem State.serves_updDma (s : State) (c : Nat) (g : DmaSt → DmaSt) : s.serves (s.updDma c g) := State.serves_same rfl rfl ⟨rfl, rfl, rfl, rfl, rfl⟩
theorem State.serves_updJob (s : State) (b : Nat) (g : JobSt → JobSt) : s.serves (s.updJob b g) := State.serves_same rfl rfl ⟨rfl, rfl, rfl, rfl, rfl⟩
theorem State.serves_updDec (s : State) (b : Nat) (g : DecSt → DecSt) : s.serves (s.updDec b g) := State.serves_same rfl rfl ⟨rfl, rfl, rfl, rfl, rfl⟩
theorem State.serves_lsWrite (s : State) (a : Nat) (l : List Byte) : s.serves (s.lsWrite a l) := State.serves_same rfl rfl ⟨rfl, rfl, rfl, rfl, rfl⟩
theorem State.serves_dmaHalt (s : State) (c code src addr redo : Nat) : s.serves (s.dmaHalt c code src addr 0 redo) :=
  ((s.serves_err (servePage_dma c) _ _ _ _).trans (State.serves_updDma _ c _)).trans (State.serves_cause _ (servePage_dma c) 5)
theorem State.serves_dmaFetch (s : State) (c a : Nat) : s.serves (s.dmaFetch c a) := by
  obtain ⟨u, hu⟩ : ∃ u, s.turnTo c a = u := ⟨_, rfl⟩
  have hsu : s.serves u := hu ▸ (s.serves_set64 (servePage_dma c) _ (Or.inr (by decide))).trans (State.serves_updDma _ c _)
  rw [State.dmaFetch_eq, hu]
  unfold State.fetchOn
  dsimp only
  split_ifs
  · exact hsu
  · exact hsu.trans (u.serves_dmaHalt _ _ _ _ _)
  · exact hsu
  · exact (hsu.trans (u.serves_dramRead _ _ _ _)).trans (State.serves_dmaHalt _ _ _ _ _ _)
  · exact (hsu.trans (u.serves_dramRead _ _ _ _)).trans (State.serves_dmaHalt _ _ _ _ _ _)
  · exact (hsu.trans (u.serves_dramRead _ _ _ _)).trans (State.serves_updDma _ c _)
theorem State.serves_dmaReread (s : State) (c : Nat) (parked : Bool) : s.serves (s.dmaReread c parked) := by
  obtain ⟨u, hu⟩ : ∃ u, (s.updDma c fun d => { d with redo := if parked then 3 else 2, dbPend := false, desc := none }) = u := ⟨_, rfl⟩
  have hsu : s.serves u := hu ▸ s.serves_updDma c _
  have hread := hsu.trans (u.serves_dramRead (s.dmaCur c) 8 1 c)
  unfold State.dmaReread
  dsimp only
  rw [hu]
  split_ifs
  · exact hsu
  · exact hread.trans (State.serves_dmaHalt _ _ _ _ _ _)
  · exact hread.trans (State.serves_updDma _ c _)
  · exact (hread.trans (State.serves_updDma _ c _)).trans (State.serves_cause _ (servePage_dma c) 4)
  · exact hread.trans (State.serves_dmaFetch _ c _)
theorem State.serves_dmaGo (s : State) (c : Nat) : s.serves (s.dmaGo c) := by
  have hredo : s.serves (s.dmaRedo c) := by
    unfold State.dmaRedo
    dsimp only
    split_ifs
    · exact s.serves_refl
    · exact s.serves_dmaFetch _ _
    · exact s.serves_dmaReread _ _
    · exact s.serves_dmaReread _ _
    · exact s.serves_refl
  refine hredo.trans ?_
  change State.serves _ ((s.dmaRedo c).readNote c)
  unfold State.readNote
  split_ifs
  · exact State.serves_refl _
  · exact State.serves_updDma _ c _
  · exact State.serves_updDma _ c _
  · exact State.serves_refl _
theorem State.serves_dmaBell (s : State) (c : Nat) : s.serves (s.dmaBell c) := by
  unfold State.dmaBell State.dmaEnable
  dsimp only
  split_ifs
  · exact s.serves_refl
  · exact s.serves_dmaFetch _ _
  · exact s.serves_refl
  · exact (s.serves_updDma c _).trans (State.serves_incWrap _ (servePage_dma c) (Or.inr (by decide)))
  · exact s.serves_dmaReread _ _
  · exact s.serves_refl
theorem State.serves_putRecord (s : State) (r : List Byte) : s.serves (s.putRecord r) := by
  unfold State.putRecord
  dsimp only
  split
  · exact ((s.serves_dramAsk _).trans (State.serves_set _ servePage_dmac _ (Or.inl rfl))).trans (State.serves_cause _ servePage_dmac 5)
  · exact (s.serves_incSat servePage_dmac (Or.inl rfl)).trans (State.serves_cause _ servePage_dmac 6)
theorem State.serves_closeRun (s : State) (b code tile : Nat) (more : Bool) : s.serves (s.closeRun b code tile more) := by
  unfold State.closeRun
  split
  · exact s.serves_refl
  · exact (s.serves_updJob b _).trans (State.serves_putRecord _ _)
theorem State.serves_runLine (s : State) (b code tile : Nat) (aff : Bool) (segs : Nat) (x : JobLine) : s.serves (s.runLine b code tile aff segs x) := by
  have hend : ∀ t : State, s.serves t → s.serves (if x.last then t.closeRun b code tile true else t) := fun t ht =>
    State.serves_ite _ (ht.trans (t.serves_closeRun _ _ _ _)) ht
  have hopen : ∀ t : State, t.serves (if !aff then t.updJob b fun j => { j with carry := j.carry.filter fun c => c != (code, tile) }
      else match (t.jobAt b).runs.find? fun r => r.code == code && r.tile == tile with
        | some _ => t.updJob b fun j => { j with runs := j.runs.map fun r =>
            if r.code = code ∧ r.tile = tile then { r with lines := r.lines + 1, segMask := r.segMask ||| segs } else r }
        | none => t.updJob b fun j => { j with
            runs := j.runs ++ [⟨x.jobId, code, tile, j.carry.contains (code, tile), x.q, 1, x.line, segs⟩]
            carry := j.carry.filter fun c => c != (code, tile) }) := fun t => by
    split
    · exact t.serves_updJob _ _
    · split
      · exact t.serves_updJob _ _
      · exact t.serves_updJob _ _
  unfold State.runLine
  dsimp only
  refine hend _ (State.serves.trans ?_ (hopen _))
  split
  · split_ifs
    · exact s.serves_closeRun _ _ _ _
    · exact s.serves_closeRun _ _ _ _
    · exact s.serves_refl
  · exact s.serves_refl
theorem State.serves_jobFail (s : State) (b addr code : Nat) (taken : Bool) : s.serves (s.jobFail b addr code taken) :=
  ((s.serves_err servePage_dmac _ _ _ _).trans (State.serves_updJob _ b _)).trans (State.serves_cause _ servePage_dmac 8)
theorem State.serves_jobSkip (s : State) (b addr ctrl : Nat) : s.serves (s.jobSkip b addr ctrl) :=
  (s.serves_err servePage_dmac _ _ _ _).trans (State.serves_updJob _ b _)
theorem State.serves_jobLate (s : State) (b : Nat) (j : Job) : s.serves (s.jobLate b j) := by
  unfold State.jobLate
  split
  · exact s.serves_refl
  · split
    · exact s.serves_refl
    · have hjob : ∀ g, s.serves ((s.closeRun b 0x32 0xFF false).updJob b g) := fun g => (s.serves_closeRun _ _ _ _).trans (State.serves_updJob _ b g)
      dsimp only
      split
      · exact ((hjob _).trans (State.serves_closeRun _ _ _ _ _)).trans (State.serves_cause _ servePage_dmac 7)
      · exact (hjob _).trans (State.serves_cause _ servePage_dmac 7)
/-- A descriptor that a job engine takes. -/
def State.jobTaken (t : State) (b addr first : Nat) (d : List Byte) : State :=
  (t.updJob b fun e => { e with
    jobs := e.jobs ++ [jobOf d addr first], chainEnd := some (jobOf d addr first).after, tail := some addr, lastGroup := false, parked := false,
    jerr := false, failed := false, next := none }).jobLate b (jobOf d addr first)
theorem State.serves_jobTake (s : State) (b addr : Nat) : s.serves (s.jobTake b addr) := by
  have hread := s.serves_dramRead addr 64 3 0x4C
  have htaken : ∀ first d, s.serves ((s.dramRead addr 64 3 0x4C).1.jobTaken b addr first d) := fun first d =>
    (hread.trans (State.serves_updJob _ b _)).trans (State.serves_jobLate _ _ _)
  have hskip : ∀ c, s.serves ((s.dramRead addr 64 3 0x4C).1.jobSkip b addr c) := fun c => hread.trans (State.serves_jobSkip _ _ _ _)
  unfold State.jobTake
  dsimp only
  split
  · exact s.serves_jobFail _ _ _ _
  · split
    · exact s.serves_updJob b _
    · split
      · exact hread.trans (State.serves_jobFail _ _ _ _ _)
      · split
        · exact hread.trans (State.serves_jobFail _ _ _ _ _)
        · split
          · exact hskip _
          · exact State.serves_ite _ (hskip _) (htaken _ _)
theorem State.serves_jobReread (s : State) (b addr : Nat) : s.serves (s.jobReread b addr) := by
  have hread : ∀ g, s.serves ((s.dramRead addr 8 3 0x4C).1.updJob b g) := fun g => (s.serves_dramRead addr 8 3 0x4C).trans (State.serves_updJob _ b g)
  unfold State.jobReread
  dsimp only
  split_ifs
  · exact (hread _).trans (State.serves_jobFail _ _ _ _ _)
  · exact (hread _).trans (State.serves_updJob _ b _)
  · exact ((hread _).trans (State.serves_updJob _ b _)).trans (State.serves_jobTake _ _ _)
theorem State.serves_jobFetch (s : State) (b : Nat) : s.serves (s.jobFetch b) := by
  unfold State.jobFetch
  dsimp only
  split
  · exact s.serves_refl
  · split
    · exact (s.serves_updJob b _).trans (State.serves_jobTake _ _ _)
    · split_ifs
      · exact s.serves_refl
      · exact s.serves_refl
      · exact (s.serves_updJob b _).trans (State.serves_jobTake _ _ _)
      · exact s.serves_jobReread _ _
      · exact s.serves_jobReread _ _
      · exact s.serves_refl
    · exact s.serves_refl
theorem State.serves_jobDoorbell (s : State) (b : Nat) : s.serves (s.jobDoorbell b) := by
  unfold State.jobDoorbell
  dsimp only
  split_ifs
  · exact s.serves_refl
  · exact (s.serves_updJob b _).trans (State.serves_jobFetch _ _)
  · exact s.serves_updJob b _

/-! ### Decoders (R78 to R86) -/

theorem State.serves_passRuns (s : State) (b : Nat) (j : Job) (m : Nat) : s.serves (s.passRuns b j m) := by
  unfold State.passRuns
  dsimp only
  split
  · exact s.serves_refl
  · exact (s.serves_updDec b _).trans (State.serves_foldl _ (fun t k => State.serves_foldl _ (fun u c => u.serves_runLine _ _ _ _ _ _) _ t) _ _)
theorem State.serves_passEnd (s : State) (b : Nat) : s.serves (s.passEnd b) := by
  unfold State.passEnd
  refine State.serves_foldl _ (fun t c => ?_) _ s
  exact State.serves_ite _ (t.serves_closeRun _ _ _ _) (t.serves_updJob b _)
theorem State.serves_closeLine (s : State) (b : Nat) (j : Job) : s.serves (s.closeLine b j) := by
  have hpass := s.serves_passRuns b j (s.decAt b).m
  unfold State.closeLine
  dsimp only
  refine State.serves.trans ?_ (State.serves_updDec _ b _)
  split
  · exact hpass.trans (State.serves_set64 _ servePage_dmac _ (Or.inl rfl))
  · exact hpass
theorem State.serves_segErr (s : State) (b : Nat) (j : Job) (m seg code : Nat) : s.serves (s.segErr b j m seg code) := by
  unfold State.segErr State.updSlot
  exact State.serves_ite _ (s.serves_updDec b _) (s.serves_updDec b _)
theorem State.serves_segDone (s : State) (b : Nat) (j : Job) (m seg : Nat) (raw : Option (List Byte)) (check : Option Nat) :
    s.serves (s.segDone b j m seg raw check) := by
  have hslot : ∀ (v : State) y (c : Prop) [Decidable c] g, s.serves v →
      s.serves (if c then ((v.updSlot b j.first m fun _ => y).writeTrailer b y).updDec b g else (v.updSlot b j.first m fun _ => y).writeTrailer b y) :=
    fun v y c _ g hv => by
      have htrailer : s.serves ((v.updSlot b j.first m fun _ => y).writeTrailer b y) := (hv.trans (v.serves_updDec b _)).trans (State.serves_lsWrite _ _ _)
      exact State.serves_ite _ (htrailer.trans (State.serves_updDec _ b g)) htrailer
  unfold State.segDone
  split
  · exact s.serves_refl
  · cases raw with
    | some l => exact hslot _ _ _ _ (s.serves_lsWrite _ _)
    | none => exact hslot _ _ _ _ s.serves_refl
theorem State.serves_liveMask (s : State) (b : Nat) (j : Job) (m : Nat) : s.serves (s.liveMask b j m).1 := by
  unfold State.liveMask
  split
  · exact s.serves_refl
  · split
    · exact s.serves_refl
    · exact (s.serves_dramRead _ _ _ _).trans (State.serves_same rfl rfl ⟨rfl, rfl, rfl, rfl, rfl⟩)
/-- A new slot of the ring, where the line has not passed. -/
def State.slotOpened (u : State) (b : Nat) (x : Slot) : State :=
  ((u.passEnd b).updDec b fun d => { d with slots := d.slots ++ [x], nextSlot := (d.nextSlot + 1) % nSlots d.dot }).writeTrailer b x
theorem State.serves_slotOpened (s : State) (b : Nat) (x : Slot) : s.serves (s.slotOpened b x) :=
  ((s.serves_passEnd b).trans (State.serves_updDec _ b _)).trans (State.serves_lsWrite _ _ _)
theorem State.serves_openLine (s : State) (b : Nat) (j : Job) : s.serves (s.openLine b j) := by
  have hsegs : ∀ (v : State) (none' : Bool) (mask : Nat), v.serves ((List.range 16).foldl (fun t g =>
      if none' && !j.baseEn then t.segDone b j (s.decAt b).m g none none
      else if !j.baseEn && !bit mask g then t.segDone b j (s.decAt b).m g (some (zeros (rawBytes j.dot g))) none
      else t) v) := fun v none' mask => State.serves_foldl _ (fun t g =>
    State.serves_ite _ (t.serves_segDone _ _ _ _ _ _) (State.serves_ite _ (t.serves_segDone _ _ _ _ _ _) t.serves_refl)) _ v
  have herrs : ∀ (v : State), v.serves ((List.range 16).foldl (fun t g => t.segErr b j (s.decAt b).m g 0x11)
      (v.updDec b fun d => { d with ctxValid := d.ctxValid &&& 0x55555555 })) := fun v =>
    (v.serves_updDec b _).trans (State.serves_foldl _ (fun t g => t.serves_segErr _ _ _ _ _) _ _)
  unfold State.openLine
  dsimp only
  split
  · exact s.serves_refl
  · refine State.serves.trans ?_ (hsegs _ _ _)
    obtain ⟨r, hr⟩ : ∃ r, s.liveMask b j (s.decAt b).m = r := ⟨_, rfl⟩
    have hmask : s.serves r.1 := hr ▸ s.serves_liveMask b j _
    rw [hr]
    have hlast : ∀ g, s.serves (if (s.decAt b).m + 1 = j.samples then r.1.updJob b g else r.1) := fun g =>
      State.serves_ite _ (hmask.trans (r.1.serves_updJob b g)) hmask
    have hopen : ∀ (u : State) (c : Bool) x, s.serves u → s.serves (if c then u else u.slotOpened b x) := fun u c x hu =>
      State.serves_ite _ hu (hu.trans (u.serves_slotOpened b x))
    have hlost : ∀ (u : State), s.serves u → s.serves (if r.2.isSome then u else (List.range 16).foldl (fun t g => t.segErr b j (s.decAt b).m g 0x11)
        (u.updDec b fun d => { d with ctxValid := d.ctxValid &&& 0x55555555 })) := fun u hu => State.serves_ite _ hu (hu.trans (herrs u))
    exact hlost _ ((hopen _ _ _ (hlast _)).trans (State.serves_updDec _ b _))
theorem State.serves_decSettle (s : State) (b n : Nat) : s.serves (s.decSettle b n) := by
  induction n generalizing s with
  | zero => exact s.serves_refl
  | succ n ih =>
    unfold State.decSettle
    dsimp only
    split
    · exact s.serves_refl
    · split
      · exact s.serves_refl
      · next j _ =>
        split_ifs
        · exact s.serves_refl
        · exact (s.serves_updDec b _).trans (ih _)
        · exact (s.serves_updDec b _).trans (ih _)
        · exact s.serves_refl
        · exact (s.serves_openLine b j).trans (ih _)
        · exact s.serves_openLine b j
        · exact (s.serves_closeLine b j).trans (ih _)
        · exact s.serves_refl
theorem State.serves_decGo (s : State) (b : Nat) : s.serves (s.decGo b) := by
  refine (s.serves_decSettle b 300).trans ?_
  change State.serves _ ((s.decSettle b 300).panicUpdate b)
  unfold State.panicUpdate
  dsimp only
  split_ifs
  · exact State.serves_updDec _ b _
  · exact State.serves_refl _
  · exact ((State.serves_updDec _ b _).trans (State.serves_incSat _ servePage_dramc (Or.inr (by decide)))).trans
      (State.serves_cause _ servePage_dramc 3)
  · exact State.serves_refl _

/-! ### All that waits for DRAM -/

theorem State.serves_feedSend (s : State) (n key : Nat) (m : List Byte) : s.serves (s.feedSend n key m) := by
  unfold State.feedSend
  split
  · exact State.serves_ite _ (State.serves_same rfl rfl ⟨rfl, rfl, rfl, rfl, rfl⟩) s.serves_refl
  · exact State.serves_same rfl rfl ⟨rfl, rfl, rfl, rfl, rfl⟩
theorem State.serves_dramWake (s : State) : s.serves s.dramWake := by
  have hbells : ∀ v : State, v.serves v.bellsRing := fun v => by
    unfold State.bellsRing
    split
    · exact v.serves_refl
    · refine (State.serves_same (s := v) (t := { v with bells := [] }) rfl rfl ⟨rfl, rfl, rfl, rfl, rfl⟩).trans (State.serves_foldl _ (fun t b => ?_) _ _)
      exact State.serves_ite _ (t.serves_dmaBell b) ((t.serves_jobDoorbell _).trans (State.serves_decGo _ _))
  have hacks : ∀ v : State, v.serves v.ctlAcks := fun v => by
    unfold State.ctlAcks
    dsimp only
    refine State.serves.trans ?_ (State.serves_foldl _ (fun t e => t.serves_feedSend _ _ _) _ _)
    exact State.serves_same rfl rfl ⟨rfl, rfl, rfl, rfl, rfl⟩
  have heach : ∀ (g : State → Nat → State), (∀ (t : State) n, t.serves (g t n)) → ∀ (l : List Nat) (v : State), v.serves (v.each l g) :=
    fun g hg l v => State.serves_foldl g hg l v
  unfold State.dramWake
  exact ((((s.serves_dramDrain.trans (hbells _)).trans (hacks _)).trans (heach _ State.serves_dmaGo _ _)).trans (heach _ State.serves_jobFetch _ _)).trans
    (heach _ State.serves_decGo _ _)

end Sys2Proof.Machine
end

section
/-! ### Replay, pauses, refresh and trackers of a DRAM channel (O54) -/
open Sys2Proof Sys2Proof.Machine
namespace Sys2Proof.Machine

/-! ### Reports of a channel -/

theorem dram_neverFences {c : Nat} (hc : c < 4) : blkOf (pDRAM c) = some (.dram, c) := by
  interval_cases c <;> decide
theorem State.fenceSound.dram {s : State} (h : s.fenceSound) {c : Nat} (hc : c < 4) : s.frozen (pDRAM c) = false :=
  h.unfenced (dram_neverFences hc) rfl
theorem pDRAMC_ne_pDRAM (c : Nat) : pDRAMC ≠ pDRAM c := by
  unfold pDRAMC pDRAM
  omega
/-- What an error of a channel moves, and what it records. -/
theorem State.dramErr_spec (s : State) {c : Nat} (hc : c < 4) (code src a : Nat) {t : State} (ht : s.dramErr c code src a = t) :
    s.regsBut t (errFields pDRAMC ++ errFields (pDRAM c)) ∧ s.reports t ∧
    (s.fenceSound → bit (t.get (pDRAM c) R.PG_IRQ_RAW) 1 = true ∧ t.get (pDRAM c) R.PG_ERR_CNT ≠ 0 ∧
      (s.get (pDRAM c) R.PG_ERR_CNT = 0 → t.get (pDRAM c) R.PG_ERR_INFO_CODE = code % 2 ^ R.PG_ERR_INFO_CODE.w)) := by
  subst ht
  obtain ⟨u, hu⟩ : ∃ u, s.err64 pDRAMC code src a = u := ⟨_, rfl⟩
  have hsu : s.reports u := hu ▸ s.reports_err _ _ _ _ _ _
  have hget : ∀ f, u.get (pDRAM c) f = s.get (pDRAM c) f := fun f => hu ▸ s.get_err_ne _ _ _ _ _ _ (Or.inl (pDRAMC_ne_pDRAM c).symm)
  have hbut : s.regsBut u (errFields pDRAMC ++ errFields (pDRAM c)) := hu ▸ State.regsBut_err (s.regsBut_refl _) _ _ _ _ _ _ (List.subset_append_left _ _)
  unfold State.dramErr
  rw [hu]
  refine ⟨State.regsBut_err hbut _ _ _ _ _ _ (List.subset_append_right _ _), hsu.trans (u.reports_err _ _ _ _ _ _), fun hsound => ?_⟩
  have hfrozen : u.frozen (pDRAM c) = false := (State.frozen_congr (hget _)).trans (hsound.dram hc)
  obtain ⟨hcnt, hinfo⟩ := u.err_recorded hfrozen code src a (a / 2 ^ 32) 0
  refine ⟨State.bit_err _ hfrozen _ _ _ _ _, ?_, fun h0 => (hinfo ((hget _).trans h0)).1⟩
  change State.get (State.err _ _ _ _ _ _ _) _ _ ≠ 0
  rw [hcnt, show R.PG_ERR_CNT.w = 32 from rfl]
  omega

/-! ### A command issued (R302, R314, R322) -/

/-- A channel but for its open rows and its row trackers. -/
def DramSt.rowsOf (x y : DramSt) : Prop := ∃ o tr th, y = { x with openRow := o, trackers := tr, throttled := th }
/-- A row that opens: the registers of row disturbance, the channel's rows, and the causes that wait. -/
structure State.rowStep (s t : State) (c : Nat) : Prop where
  others : ∀ n, n ≠ c → t.dramAt n = s.dramAt n
  own : (s.dramAt c).rowsOf (t.dramAt c)
  but : s.regsBut t rowFields
  shape : ∃ r d w, t = { s with regs := r, dram := d, host := { s.host with waiting := w } }
theorem State.rowStep_refl (s : State) (c : Nat) : s.rowStep s c := ⟨fun _ _ => rfl, ⟨_, _, _, rfl⟩, s.regsBut_refl _, _, _, _, rfl⟩
theorem State.rowStep.trans {s t u : State} {c : Nat} (h : s.rowStep t c) (k : t.rowStep u c) : s.rowStep u c := by
  obtain ⟨o, tr, th, ht⟩ := h.own
  obtain ⟨o', tr', th', hu⟩ := k.own
  obtain ⟨r, d, w, hs⟩ := h.shape
  obtain ⟨r', d', w', hs'⟩ := k.shape
  exact ⟨fun n hn => (k.others n hn).trans (h.others n hn), ⟨o', tr', th', by rw [hu, ht]⟩, State.regsBut_trans h.but k.but, r', d', w', by rw [hs', hs]⟩
theorem State.rowStep_updDram (s : State) (c : Nat) (g : DramSt → DramSt) (hg : (s.dramAt c).rowsOf (g (s.dramAt c))) : s.rowStep (s.updDram c g) c :=
  ⟨fun _ hn => s.dramAt_upd_other g hn, by rw [s.dramAt_upd_self]; exact hg, s.regsBut_refl _, _, _, _, rfl⟩
theorem State.rowStep_set (s : State) (c : Nat) {f : Fld} (v : Nat) (hf : (pDRAMC, f) ∈ rowFields) : s.rowStep (s.set pDRAMC f v) c :=
  ⟨fun _ _ => rfl, ⟨_, _, _, rfl⟩, State.regsBut_set (s.regsBut_refl _) _ hf, _, s.dram, s.host.waiting, rfl⟩
theorem State.rowStep_cause (s : State) (c i : Nat) : s.rowStep (s.cause pDRAMC i) c := by
  obtain ⟨r, w, h⟩ := s.reports_cause pDRAMC i
  have hat : ∀ n, (s.cause pDRAMC i).dramAt n = s.dramAt n := fun n => by
    rw [h]
    rfl
  exact ⟨fun n _ => hat n, ⟨_, _, _, hat c⟩, State.regsBut_cause (s.regsBut_refl _) _ (by simp [rowFields]), r, s.dram, w, h⟩
theorem State.rowStep_activate (s : State) (c p bank row req : Nat) : s.rowStep (s.activate c p bank row req) c := by
  have hset : ∀ (v : State) {f : Fld} x, (pDRAMC, f) ∈ rowFields → v.rowStep (v.set pDRAMC f x) c := fun v f x hf => v.rowStep_set c x hf
  have hupd : ∀ (v : State) g, (v.dramAt c).rowsOf (g (v.dramAt c)) → v.rowStep (v.updDram c g) c := fun v g hg => v.rowStep_updDram c g hg
  have hlast : ∀ (u : State) dec, u.rowStep ((((((u.setFlag pDRAMC R.DRAMC_RH_LAST_TRR dec).set pDRAMC R.DRAMC_RH_LAST_BANK bank).set pDRAMC
      R.DRAMC_RH_LAST_RANK p).set pDRAMC R.DRAMC_RH_LAST_CH c).set pDRAMC R.DRAMC_RH_LAST_REQ req).set pDRAMC
      R.DRAMC_RH_ROW row |>.cause pDRAMC 4) c := fun u dec =>
    ((((((hset _ _ (by simp [rowFields])).trans (hset _ _ (by simp [rowFields]))).trans (hset _ _ (by simp [rowFields]))).trans
      (hset _ _ (by simp [rowFields]))).trans (hset _ _ (by simp [rowFields]))).trans (hset _ _ (by simp [rowFields]))).trans (State.rowStep_cause _ c 4)
  unfold State.activate
  dsimp only
  split
  · exact s.rowStep_refl c
  · have hopen : s.rowStep ((s.updDram c fun d => { d with
          openRow := d.openRow.put (16 * p + bank) row
          trackers := d.trackers.put (16 * p + bank) (trackRow ((s.dramAt c).trackers.getD (16 * p + bank) []) row).1 }).updDram c fun d =>
        { d with throttled := d.throttled.map fun x =>
          if x.1 = 16 * p + bank ∧ x.2.1 = row ∧ x.2.2.1 = req then (16 * p + bank, row, req, s.tick) else x }) c :=
      (hupd s _ ⟨_, _, _, rfl⟩).trans (hupd _ _ ⟨_, _, _, rfl⟩)
    split
    · exact hopen
    · split
      · exact ((hopen.trans (hlast _ _)).trans (hupd _ _ ⟨_, _, _, rfl⟩)).trans (hset _ _ (by simp [rowFields]))
      · exact ((hopen.trans (hlast _ _)).trans (hupd _ _ ⟨_, _, _, rfl⟩)).trans (hset _ _ (by simp [rowFields]))

/-! ### The commands of the retry buffer issued again (R313, R314) -/

/-- A command as the retry buffer keeps it from now on. -/
def State.stamped (s : State) (x : RetryCmd) : RetryCmd := { x with at_ := s.tick }
/-- The commands `done`, newest first, issued again from an empty retry buffer. -/
structure State.reissued (s t : State) (c : Nat) (done : List RetryCmd) : Prop where
  others : ∀ n, n ≠ c → t.dramAt n = s.dramAt n
  own : ∃ o tr th, t.dramAt c = { s.dramAt c with openRow := o, trackers := tr, throttled := th, retry := done.map s.stamped }
  but : s.regsBut t rowFields
  shape : ∃ r d w m k, t = { s with regs := r, dram := d, host := { s.host with waiting := w }, dramMem := m, dramChk := k }
  mem : ∀ k, (∀ x ∈ done, ∀ e, x.data = some e → k < dramKey c x.rank x.off ∨ dramKey c x.rank x.off + e.1.length ≤ k) →
    Memory.get t.dramMem k = Memory.get s.dramMem k
  chk : ∀ k, (∀ x ∈ done, ∀ e, x.data = some e → k < chkKey c x.rank x.off 0 ∨ chkKey c x.rank x.off 0 + e.2.length ≤ k) →
    Memory.get t.dramChk k = Memory.get s.dramChk k
  last : ∀ x rest d e, done = x :: rest → x.refresh = false → x.data = some (d, e) →
    (∀ i < d.length, Memory.get t.dramMem (dramKey c x.rank x.off + i) = d[i]?) ∧
    ∀ i < e.length, Memory.get t.dramChk (chkKey c x.rank x.off 0 + i) = (e.map (BitVec.ofNat 8))[i]?
/-- One command issued again. -/
def State.reissueOne (t : State) (c : Nat) (x : RetryCmd) : State :=
  if x.refresh then t.keepCmd c x
  else
    match x.data with
    | some (d, k) => (t.issue c x).storeBurst c x.rank x.off d k
    | none => t.issue c x
theorem State.reissue_eq (s : State) (c : Nat) : s.reissue c =
    (s.dramAt c).retry.reverse.foldl (fun t x => t.reissueOne c x) (s.updDram c fun d => { d with openRow := [], retry := [] }) := rfl
/-- The command that the retry buffer takes: it drops none that has just been kept. -/
theorem stamped_kept (s : State) (l : List RetryCmd) (h : Nat) : ((l.map s.stamped).filter fun y => decide (s.tick ≤ y.at_ + h)) = l.map s.stamped := by
  refine List.filter_eq_self.2 fun y hy => ?_
  obtain ⟨x, -, rfl⟩ := List.mem_map.1 hy
  simp [State.stamped]
theorem Memory.get_puts_apart (m : List Host.Cell) {a k : Nat} (l : List Byte) (h : k < a ∨ a + l.length ≤ k) : Memory.get (Memory.puts m a l) k = Memory.get m k := by
  rw [Memory.get_puts, if_neg (by omega)]
theorem Memory.get_puts_at (m : List Host.Cell) (a : Nat) (l : List Byte) {i : Nat} (h : i < l.length) : Memory.get (Memory.puts m a l) (a + i) = l[i]? := by
  rw [Memory.get_puts, if_pos (by omega), Nat.add_sub_cancel_left]
theorem State.reissued.keep {s t : State} {c : Nat} {done : List RetryCmd} (h : s.reissued t c done) (x : RetryCmd) {u : State} (hu : t.rowStep u c) {v : State}
    (hv : v = u.updDram c fun d => { d with retry := { x with at_ := t.tick } :: d.retry.filter fun y => t.tick ≤ y.at_ + t.retryTicks }) :
    (∀ n, n ≠ c → v.dramAt n = s.dramAt n) ∧
    (∃ o tr th, v.dramAt c = { s.dramAt c with openRow := o, trackers := tr, throttled := th, retry := (x :: done).map s.stamped }) ∧
    s.regsBut v rowFields ∧ (∃ r d w m k, v = { s with regs := r, dram := d, host := { s.host with waiting := w }, dramMem := m, dramChk := k }) ∧
    v.dramMem = t.dramMem ∧ v.dramChk = t.dramChk := by
  obtain ⟨o, tr, th, hown⟩ := h.own
  obtain ⟨o', tr', th', hrow⟩ := hu.own
  obtain ⟨r, d, w, m, k, hshape⟩ := h.shape
  obtain ⟨r', d', w', hshape'⟩ := hu.shape
  have htick : t.tick = s.tick := by rw [hshape]
  refine ⟨fun n hn => ?_, ⟨o', tr', th', ?_⟩, ?_, ⟨r', v.dram, w', m, k, ?_⟩, ?_, ?_⟩
  · rw [hv, u.dramAt_upd_other _ hn, hu.others n hn, h.others n hn]
  · have hkept := stamped_kept s done t.retryTicks
    rw [hv, u.dramAt_upd_self, hrow, hown, htick]
    dsimp only
    rw [hkept]
    rfl
  · rw [hv]
    exact State.regsBut_of_regs (State.regsBut_trans h.but hu.but) rfl
  · rw [hv, hshape', hshape]
    rfl
  all_goals
    rw [hv, hshape']
    rfl
theorem State.reissued.step {s t : State} {c : Nat} {done : List RetryCmd} (h : s.reissued t c done) (x : RetryCmd) :
    s.reissued (t.reissueOne c x) c (x :: done) := by
  have hstill : ∀ v : State, v.dramMem = t.dramMem → v.dramChk = t.dramChk →
      (∀ k, (∀ y ∈ x :: done, ∀ e, y.data = some e → k < dramKey c y.rank y.off ∨ dramKey c y.rank y.off + e.1.length ≤ k) →
        Memory.get v.dramMem k = Memory.get s.dramMem k) ∧
      ∀ k, (∀ y ∈ x :: done, ∀ e, y.data = some e → k < chkKey c y.rank y.off 0 ∨ chkKey c y.rank y.off 0 + e.2.length ≤ k) →
        Memory.get v.dramChk k = Memory.get s.dramChk k := fun v hm hc => by
    rw [hm, hc]
    exact ⟨fun k hk => h.mem k fun y hy => hk y (List.mem_cons_of_mem _ hy), fun k hk => h.chk k fun y hy => hk y (List.mem_cons_of_mem _ hy)⟩
  have hlast : ∀ v : State, x.refresh = true ∨ x.data = none → ∀ y rest d e, x :: done = y :: rest → y.refresh = false → y.data = some (d, e) →
      (∀ i < d.length, Memory.get v.dramMem (dramKey c y.rank y.off + i) = d[i]?) ∧
      ∀ i < e.length, Memory.get v.dramChk (chkKey c y.rank y.off 0 + i) = (e.map (BitVec.ofNat 8))[i]? := fun v hx y rest d e hy hr hd => by
    obtain ⟨rfl, -⟩ := List.cons.inj hy
    rcases hx with hx | hx
    · rw [hr] at hx
      exact absurd hx (by decide)
    · rw [hd] at hx
      exact absurd hx (by simp)
  unfold State.reissueOne
  by_cases hr : x.refresh = true
  · rw [if_pos hr]
    obtain ⟨k1, k2, k3, k4, k5, k6⟩ := h.keep x (t.rowStep_refl c) rfl
    obtain ⟨m1, m2⟩ := hstill _ k5 k6
    exact ⟨k1, k2, k3, k4, m1, m2, hlast _ (Or.inl hr)⟩
  · rw [if_neg hr]
    obtain ⟨v, hv⟩ : ∃ v, t.issue c x = v := ⟨_, rfl⟩
    obtain ⟨k1, k2, k3, k4, k5, k6⟩ := h.keep x (t.rowStep_activate c x.rank (bankOf x.off) (x.off / 2 ^ 17) x.req) (v := v) hv.symm
    obtain ⟨m1, m2⟩ := hstill _ k5 k6
    rw [hv]
    cases hd : x.data with
    | none => exact ⟨k1, k2, k3, k4, m1, m2, hlast _ (Or.inr hd)⟩
    | some e =>
      obtain ⟨d, e⟩ := e
      dsimp only
      have hlen : (e.map (BitVec.ofNat 8)).length = e.length := List.length_map _
      refine ⟨k1, k2, State.regsBut_of_regs k3 rfl, ?_, fun k hk => ?_, fun k hk => ?_, fun y rest d' e' hy _ hy' => ?_⟩
      · obtain ⟨r, a, w, m, k, hshape⟩ := k4
        exact ⟨r, a, w, _, _, by rw [hshape]; rfl⟩
      · exact (Memory.get_puts_apart _ d (hk x (by simp) _ hd)).trans (m1 k hk)
      · exact (Memory.get_puts_apart _ (e.map (BitVec.ofNat 8)) (by rw [hlen]; exact hk x (by simp) _ hd)).trans (m2 k hk)
      · obtain ⟨rfl, -⟩ := List.cons.inj hy
        obtain ⟨rfl, rfl⟩ : d = d' ∧ e = e' := by simpa [hd] using hy'
        exact ⟨fun i hi => Memory.get_puts_at _ _ _ hi, fun i hi => Memory.get_puts_at _ _ _ (by rw [hlen]; exact hi)⟩
theorem State.reissued_foldl {s : State} {c : Nat} (l : List RetryCmd) {t : State} {done : List RetryCmd} (h : s.reissued t c done) :
    s.reissued (l.foldl (fun t x => t.reissueOne c x) t) c (l.reverse ++ done) := by
  induction l generalizing t done with
  | nil => exact h
  | cons x l ih =>
    rw [List.reverse_cons, List.append_assoc]
    exact ih (h.step x)
/-- The whole buffer issued again. -/
theorem State.reissue_spec (s : State) (c : Nat) {t : State} (ht : s.reissue c = t) : s.reissued t c (s.dramAt c).retry := by
  have h0 : s.reissued (s.updDram c fun d => { d with openRow := [], retry := [] }) c [] :=
    ⟨fun n hn => s.dramAt_upd_other _ hn, ⟨_, _, _, s.dramAt_upd_self c _⟩, s.regsBut_refl _, ⟨_, _, _, _, _, rfl⟩, fun _ _ => rfl, fun _ _ => rfl,
      fun _ _ _ _ h => absurd h (by simp)⟩
  have h := State.reissued_foldl (s.dramAt c).retry.reverse h0
  rw [List.reverse_reverse, List.append_nil, ← State.reissue_eq, ht] at h
  exact h
theorem State.reissued.stores {s t : State} {c : Nat} (h : s.reissued t c (s.dramAt c).retry) : retryStores s t c := by
  obtain ⟨r, d, w, m, k, hshape⟩ := h.shape
  have hkeep : t.pending = s.pending ∧ t.lstore = s.lstore ∧ t.flash = s.flash := by
    rw [hshape]
    exact ⟨rfl, rfl, rfl⟩
  refine ⟨hkeep.1, hkeep.2.1, hkeep.2.2, h.mem, h.chk, fun x d e hx => h.last x [] d e hx⟩
theorem State.reissued.chan {s t : State} {c : Nat} {l : List RetryCmd} (h : s.reissued t c l) : (t.dramAt c).service = (s.dramAt c).service ∧
    (t.dramAt c).mig = (s.dramAt c).mig := by
  obtain ⟨o, tr, th, hown⟩ := h.own
  rw [hown]
  exact ⟨rfl, rfl⟩
theorem State.reissued.page {s t : State} {c : Nat} {l : List RetryCmd} (h : s.reissued t c l) (n : Nat) (f : Fld) : t.get (pDRAM n) f = s.get (pDRAM n) f := by
  refine h.but _ _ fun e he => Or.inl ?_
  have hp : e.1 = pDRAMC := by
    simp only [rowFields, List.mem_cons, List.not_mem_nil, or_false] at he
    rcases he with rfl | rfl | rfl | rfl | rfl | rfl | rfl | rfl | rfl <;> rfl
  rw [hp]
  exact (pDRAMC_ne_pDRAM n).symm

/-! ### A replay that has failed (R313, R315 to R317) -/

theorem State.rankFailed_spec (s : State) (c lr f a src : Nat) {t : State} (ht : s.rankFailed c lr f a src = t) :
    t.get (pDRAM c) R.DRAM_PAR_FAIL = s.get (pDRAM c) R.DRAM_PAR_FAIL ∧
    (s.get pDRAMC R.DRAMC_CFG_MODE = 1 → s.canRetire c f = true →
      (t.dramAt c).mig = some (lr, f, s.get (pDRAM c) R.DRAM_RMAP_SPR) ∧ t.migPtr c = 0) ∧
    (s.get pDRAMC R.DRAMC_CFG_MODE ≠ 1 → (t.dramAt c).mig = (s.dramAt c).mig) := by
  unfold State.rankFailed at ht
  by_cases hmode : s.get pDRAMC R.DRAMC_CFG_MODE = 1
  · rw [if_pos hmode] at ht
    by_cases hcan : s.canRetire c f = true
    · rw [if_pos hcan, State.retire_eq] at ht
      obtain ⟨hat, -, hptr, -, -, hbut, -⟩ := State.retireMark_spec _ _ _ _ _ ht
      refine ⟨?_, fun _ _ => ⟨by rw [hat], hptr⟩, fun h => absurd hmode h⟩
      rw [hbut.field (by simp only [List.forall_mem_cons]; decide), s.get_dramErr c 0x92 src a (by decide)]
    · rw [if_neg hcan] at ht
      subst ht
      exact ⟨State.get_set_field _ _ _ (by decide), fun _ h => absurd h hcan, fun h => absurd hmode h⟩
  · rw [if_neg hmode] at ht
    subst ht
    exact ⟨rfl, fun h => absurd h hmode, fun _ => rfl⟩
theorem State.degrade_spec (s : State) (c p : Nat) : (s.degrade c p).get (pDRAM c) R.DRAM_PAR_FAIL = s.get (pDRAM c) R.DRAM_PAR_FAIL ∧
    (s.degrade c p).get (pDRAM c) R.DRAM_MIG_POISON = s.get (pDRAM c) R.DRAM_MIG_POISON ∧ s.serves (s.degrade c p) ∧
    (∀ n, (s.degrade c p).dramAt n = s.dramAt n) ∧ (s.degrade c p).dramMem = s.dramMem :=
  ⟨State.get_set_field _ _ _ (by decide), State.get_set_field _ _ _ (by decide), s.serves_set (servePage_dram c) _ (Or.inr (by decide)), fun _ => rfl, rfl⟩
/-- A unit of physical rank p poisoned, and counted. -/
def State.unitPoisoned (s : State) (c p o : Nat) : State :=
  ((s.storeBurst c p o (zeros 64) poisonCheck).incSat (pDRAM c) R.DRAM_MIG_POISON).updDram c fun d => { d with migFirst := d.migFirst.or (some o) }
theorem State.migPoison_eq (s : State) (c lr o : Nat) : ∃ p, s.migPoison c lr o = s.unitPoisoned c p o ∧
    ∀ l f q, (s.dramAt c).mig = some (l, f, q) → p = q := ⟨_, rfl, fun l f q h => by rw [h]⟩
/-- The unit that migration was writing becomes poison. -/
theorem State.migPoison_spec (s : State) (c lr o : Nat) {t : State} (ht : s.migPoison c lr o = t) : s.serves t ∧
    t.get (pDRAM c) R.DRAM_PAR_FAIL = s.get (pDRAM c) R.DRAM_PAR_FAIL ∧ (t.dramAt c).mig = (s.dramAt c).mig ∧
    t.get (pDRAM c) R.DRAM_MIG_POISON = min (s.get (pDRAM c) R.DRAM_MIG_POISON + 1) (2 ^ R.DRAM_MIG_POISON.w - 1) ∧
    ∀ l f p, (s.dramAt c).mig = some (l, f, p) → ∀ i < 64, Memory.get t.dramMem (dramKey c p o + i) = some 0 := by
  obtain ⟨p, hform, hp⟩ := s.migPoison_eq c lr o
  obtain ⟨u, hu⟩ : ∃ u, s.storeBurst c p o (zeros 64) poisonCheck = u := ⟨_, rfl⟩
  have hsu : s.serves u := hu ▸ State.serves_same rfl rfl ⟨rfl, rfl, rfl, rfl, rfl⟩
  have hstored : (∀ q f, u.get q f = s.get q f) ∧ (u.dramAt c).mig = (s.dramAt c).mig ∧ u.dramMem = Memory.puts s.dramMem (dramKey c p o) (zeros 64) := by
    rw [← hu]
    exact ⟨fun _ _ => rfl, rfl, rfl⟩
  obtain ⟨hget, hat, hmem⟩ := hstored
  rw [hform, State.unitPoisoned, hu] at ht
  subst ht
  refine ⟨(hsu.trans (u.serves_incSat (servePage_dram c) (Or.inr (by decide)))).trans (State.serves_updDram _ c _ fun _ => by rfl), ?_, ?_, ?_,
    fun l f q hmig i hi => ?_⟩
  · exact (u.get_incSat_field (pDRAM c) (by decide)).trans (hget _ _)
  · rw [State.dramAt_upd_self]
    exact hat
  · exact (u.get_incSat_self _ _).trans (by rw [hget])
  · obtain rfl := hp l f q hmig
    change Memory.get u.dramMem _ = _
    rw [hmem, Memory.get_puts_at _ _ _ (by rw [zeros_length]; exact hi)]
    unfold zeros
    rw [List.getElem?_replicate, if_pos hi]
/-- What a failed replay of a command means for its rank. -/
theorem State.replayRank_spec (s : State) (c a rank : Nat) (x : Option RetryCmd) {t : State} (ht : s.replayRank c a rank x = t) :
    s.serves t ∧ t.get (pDRAM c) R.DRAM_PAR_FAIL = s.get (pDRAM c) R.DRAM_PAR_FAIL ∧
    (∀ y, x = some y → y.refresh = true ∨ y.req ≠ 0x50 → t.hold = s.hold ∧
      (y.refresh = false → s.get pDRAMC R.DRAMC_CFG_MODE = 1 → s.canRetire c rank = true →
        (t.dramAt c).mig = some ((s.dramPlace a).2.1, rank, s.get (pDRAM c) R.DRAM_RMAP_SPR) ∧ t.migPtr c = 0) ∧
      (∀ lr, y.refresh = true → s.rankServes c y.rank = some lr → s.get pDRAMC R.DRAMC_CFG_MODE = 1 → s.canRetire c y.rank = true →
        (t.dramAt c).mig = some (lr, y.rank, s.get (pDRAM c) R.DRAM_RMAP_SPR) ∧ t.migPtr c = 0) ∧
      (s.get pDRAMC R.DRAMC_CFG_MODE ≠ 1 → (t.dramAt c).mig = (s.dramAt c).mig)) ∧
    (∀ y lr f p, x = some y → y.refresh = false → y.req = 0x50 → (s.dramAt c).mig = some (lr, f, p) → (t.dramAt c).mig = some (lr, f, p) ∧
      t.get (pDRAM c) R.DRAM_MIG_POISON = min (s.get (pDRAM c) R.DRAM_MIG_POISON + 1) (2 ^ R.DRAM_MIG_POISON.w - 1) ∧
      ∀ i < 64, Memory.get t.dramMem (dramKey c p y.off + i) = some 0) := by
  unfold State.replayRank at ht
  dsimp only at ht
  cases x with
  | none =>
    obtain ⟨h1, -⟩ := s.rankFailed_spec _ _ _ _ _ ht
    exact ⟨ht ▸ s.serves_rankFailed _ _ _ _ _, h1, fun _ h => absurd h (by simp), fun _ _ _ _ h => absurd h (by simp)⟩
  | some y =>
    dsimp only at ht
    by_cases href : y.refresh = true
    · rw [if_pos href] at ht
      cases hserves : s.rankServes c y.rank with
      | some lr =>
        rw [hserves] at ht
        dsimp only at ht
        obtain ⟨h1, h2, h3⟩ := s.rankFailed_spec _ _ _ _ _ ht
        refine ⟨ht ▸ s.serves_rankFailed _ _ _ _ _, h1, fun z hz _ => ?_, fun z _ _ _ hz hr => ?_⟩
        · obtain rfl := Option.some.inj hz
          refine ⟨by rw [← ht, State.rankFailed_hold], fun h => absurd (h.symm.trans href) (by decide), fun lr' _ hlr => ?_, h3⟩
          obtain rfl := Option.some.inj (hserves.symm.trans hlr)
          exact h2
        · obtain rfl := Option.some.inj hz
          exact absurd (hr.symm.trans href) (by decide)
      | none =>
        rw [hserves] at ht
        dsimp only at ht
        have hstill : s.serves t ∧ t.get (pDRAM c) R.DRAM_PAR_FAIL = s.get (pDRAM c) R.DRAM_PAR_FAIL ∧ t.hold = s.hold ∧
            (t.dramAt c).mig = (s.dramAt c).mig := by
          rw [← ht]
          split
          · obtain ⟨d1, -, d3, d4, -⟩ := s.degrade_spec c y.rank
            exact ⟨d3, d1, s.degrade_hold c y.rank, by rw [d4]⟩
          · exact ⟨s.serves_refl, rfl, rfl, rfl⟩
        refine ⟨hstill.1, hstill.2.1, fun z hz _ => ?_, fun z _ _ _ hz hr => ?_⟩
        · obtain rfl := Option.some.inj hz
          exact ⟨hstill.2.2.1, fun h => absurd (h.symm.trans href) (by decide), fun _ _ hlr => absurd (hserves.symm.trans hlr) (by simp),
            fun _ => hstill.2.2.2⟩
        · obtain rfl := Option.some.inj hz
          exact absurd (hr.symm.trans href) (by decide)
    · rw [if_neg href] at ht
      by_cases hreq : y.req = 0x50
      · rw [if_pos hreq] at ht
        obtain ⟨u, hu⟩ : ∃ u, s.migPoison c (s.dramPlace a).2.1 y.off = u := ⟨_, rfl⟩
        obtain ⟨m1, m2, m3, m4, m5⟩ := s.migPoison_spec _ _ _ hu
        have hafter : u.serves t ∧ t.get (pDRAM c) R.DRAM_PAR_FAIL = u.get (pDRAM c) R.DRAM_PAR_FAIL ∧
            t.get (pDRAM c) R.DRAM_MIG_POISON = u.get (pDRAM c) R.DRAM_MIG_POISON ∧ (t.dramAt c).mig = (u.dramAt c).mig ∧ t.dramMem = u.dramMem := by
          rw [← ht, hu]
          split
          · exact ⟨u.serves_refl, rfl, rfl, rfl, rfl⟩
          · obtain ⟨d1, d2, d3, d4, d5⟩ := u.degrade_spec c y.rank
            exact ⟨d3, d1, d2, by rw [d4], d5⟩
        obtain ⟨a1, a2, a3, a4, a5⟩ := hafter
        refine ⟨m1.trans a1, a2.trans m2, fun z hz hno => ?_, fun z lr f p hz _ _ hmig => ?_⟩
        · obtain rfl := Option.some.inj hz
          exact absurd hreq (hno.resolve_left href)
        · obtain rfl := Option.some.inj hz
          refine ⟨a4.trans (m3.trans hmig), a3.trans m4, fun i hi => ?_⟩
          rw [a5]
          exact m5 lr f p hmig i hi
      · rw [if_neg hreq] at ht
        obtain ⟨h1, h2, h3⟩ := s.rankFailed_spec _ _ _ _ _ ht
        refine ⟨ht ▸ s.serves_rankFailed _ _ _ _ _, h1, fun z hz _ => ?_, fun z _ _ _ hz _ hr => ?_⟩
        · obtain rfl := Option.some.inj hz
          exact ⟨by rw [← ht, State.rankFailed_hold], fun _ => h2, fun _ h => absurd h href, h3⟩
        · obtain rfl := Option.some.inj hz
          exact absurd hr hreq
/-- The channel as its replay fails: counted, recorded, and paused. -/
def State.replaySpent (s : State) (c rank : Nat) : State :=
  (((s.dramErr c 0x91 0 (s.oldestCmd c)).incSat (pDRAM c) R.DRAM_PAR_FAIL).updDram c fun d =>
    { d with alert := none, tries := 0, pause := some (2, rank) }).tickFresh
/-- The rank of the oldest command. -/
def State.oldestRank (s : State) (c : Nat) : Nat :=
  match (s.dramAt c).retry.getLast? with
  | some x => x.rank
  | none => s.physRank c (s.dramPlace (s.oldestCmd c)).2.1 (s.dramPlace (s.oldestCmd c)).2.2
theorem State.replayFailed_eq (s : State) (c : Nat) : s.replayFailed c =
    (s.replaySpent c (s.oldestRank c)).replayRank c (s.oldestCmd c) (s.oldestRank c) (s.dramAt c).retry.getLast? := rfl
/-- What spending the attempts moves. -/
theorem State.replaySpent_spec (s : State) {c : Nat} (hc : c < 4) (rank : Nat) {t : State} (ht : s.replaySpent c rank = t) :
    t.dramAt c = { s.dramAt c with alert := none, tries := 0, pause := some (2, rank) } ∧
    t.get (pDRAM c) R.DRAM_PAR_FAIL = min (s.get (pDRAM c) R.DRAM_PAR_FAIL + 1) (2 ^ R.DRAM_PAR_FAIL.w - 1) ∧
    (∀ p f, f.id ≠ R.DRAM_PAR_FAIL.id → t.get p f = (s.dramErr c 0x91 0 (s.oldestCmd c)).get p f) ∧ t.hold = s.hold ∧ t.boot = s.boot := by
  obtain ⟨u, hu⟩ : ∃ u, s.dramErr c 0x91 0 (s.oldestCmd c) = u := ⟨_, rfl⟩
  obtain ⟨-, hreport, -⟩ := s.dramErr_spec hc 0x91 0 _ hu
  have hat : u.dramAt c = s.dramAt c := hu ▸ s.dramAt_dramErr c 0x91 0 _ c
  have hfail : u.get (pDRAM c) R.DRAM_PAR_FAIL = s.get (pDRAM c) R.DRAM_PAR_FAIL := by
    rw [← hu]
    exact s.get_dramErr c 0x91 0 _ (by decide) _
  unfold State.replaySpent at ht
  rw [hu] at ht ⊢
  subst ht
  have hfresh : ∀ w : State, w.tickFresh.dramAt c = w.dramAt c := fun _ => rfl
  have hcount : ∀ w : State, (w.incSat (pDRAM c) R.DRAM_PAR_FAIL).dramAt c = w.dramAt c := fun _ => rfl
  have hboot : u.boot = s.boot := by
    obtain ⟨r, w, hshape⟩ := hreport
    rw [hshape]
  refine ⟨by rw [hfresh, State.dramAt_upd_self, hcount, hat], ?_, fun p f hf => ?_, ?_, hboot⟩
  · rw [← hfail]
    exact State.get_incSat_self _ _ _
  · exact State.get_incSat_ne _ (Or.inr hf)
  · rw [State.tickFresh_hold, ← s.dramErr_hold c 0x91 0 (s.oldestCmd c), hu]
    rfl
theorem State.replayFailed_spec (s : State) {c : Nat} (hc : c < 4) {t : State} (ht : s.replayFailed c = t) :
    (∃ tr r, (t.dramAt c).service = (tr, none, 0, some (2, r))) ∧
    t.get (pDRAM c) R.DRAM_PAR_FAIL = min (s.get (pDRAM c) R.DRAM_PAR_FAIL + 1) (2 ^ R.DRAM_PAR_FAIL.w - 1) ∧
    t.get (pDRAM c) R.DRAM_PAR_CNT = s.get (pDRAM c) R.DRAM_PAR_CNT ∧
    (∀ i < 32, bit (s.get (pDRAM c) R.PG_IRQ_RAW) i = true → bit (t.get (pDRAM c) R.PG_IRQ_RAW) i = true) ∧
    (s.get (pDRAM c) R.PG_ERR_CNT ≠ 0 → t.get (pDRAM c) R.PG_ERR_INFO_CODE = s.get (pDRAM c) R.PG_ERR_INFO_CODE) ∧
    (s.fenceSound → bit (t.get (pDRAM c) R.PG_IRQ_RAW) 1 = true ∧ (s.get (pDRAM c) R.PG_ERR_CNT = 0 → t.get (pDRAM c) R.PG_ERR_INFO_CODE = 0x91)) := by
  obtain ⟨u, hu⟩ : ∃ u, s.dramErr c 0x91 0 (s.oldestCmd c) = u := ⟨_, rfl⟩
  obtain ⟨v, hv⟩ : ∃ v, s.replaySpent c (s.oldestRank c) = v := ⟨_, rfl⟩
  obtain ⟨hat, hfail, hget, -, -⟩ := s.replaySpent_spec hc _ hv
  obtain ⟨-, -, herr⟩ := s.dramErr_spec hc 0x91 0 _ hu
  have hsu : s.serves u := hu ▸ s.serves_dramErr _ _ _ _
  rw [hu] at hget
  rw [State.replayFailed_eq, hv] at ht
  obtain ⟨hserves, hpar, -, -⟩ := v.replayRank_spec _ _ _ _ ht
  have hp : pDRAM c ≠ pDMAC := by
    unfold pDRAM pDMAC
    omega
  have hinfo : u.get (pDRAM c) R.PG_ERR_CNT ≠ 0 → t.get (pDRAM c) R.PG_ERR_INFO_CODE = u.get (pDRAM c) R.PG_ERR_INFO_CODE := fun hn => by
    rw [(hserves.errs _ hp (by rw [hget _ _ (by decide)]; exact hn)).2, hget _ _ (by decide)]
  have hraw : ∀ i < 32, bit (u.get (pDRAM c) R.PG_IRQ_RAW) i = true → bit (t.get (pDRAM c) R.PG_IRQ_RAW) i = true := fun i hi hb =>
    hserves.raised _ hp i hi (by rw [hget _ _ (by decide)]; exact hb)
  refine ⟨⟨_, _, (hserves.chans c).trans (congrArg DramSt.service hat)⟩, hpar.trans hfail, ?_, fun i hi hb => hraw i hi (hsu.raised _ hp i hi hb), fun hn => ?_,
    fun hsound => ?_⟩
  · rw [hserves.kept _ hp _ (by simp [servedKept]), hget _ _ (by decide), hsu.kept _ hp _ (by simp [servedKept])]
  · obtain ⟨h1, h2⟩ := hsu.errs _ hp hn
    exact (hinfo h1).trans h2
  · obtain ⟨h1, h2, h3⟩ := herr hsound
    exact ⟨hraw 1 (by decide) h1, fun h0 => (hinfo h2).trans ((h3 h0).trans (by decide))⟩

end Sys2Proof.Machine
end

section
/-! ### What O54 states -/
open Sys2Proof Sys2Proof.Machine
namespace Sys2Proof.Machine

/-! ### ALERT_n, REPLAY, ALERT_TIMEOUT (R313 to R315) -/

theorem pDRAM_ne_pDMAC (c : Nat) : pDRAM c ≠ pDMAC := by
  unfold pDRAM pDMAC
  omega
theorem DramSt.service_eq {x y : DramSt} (h : x.service = y.service) : x.trained = y.trained ∧ x.alert = y.alert ∧ x.tries = y.tries ∧ x.pause = y.pause := by
  simp only [DramSt.service, Prod.mk.injEq] at h
  exact h
/-- The replay counted and recorded. -/
def State.replayCounted (s : State) (c : Nat) : State :=
  (((s.dramErr c 0x90 0 (s.oldestCmd c)).incSat (pDRAM c) R.DRAM_PAR_CNT).cause (pDRAM c) 6).tickFresh
theorem State.replayCounted_spec (s : State) {c : Nat} (hc : c < 4) {t : State} (ht : s.replayCounted c = t) :
    t.get (pDRAM c) R.DRAM_PAR_CNT = min (s.get (pDRAM c) R.DRAM_PAR_CNT + 1) (2 ^ R.DRAM_PAR_CNT.w - 1) ∧
    (∀ f ∈ [R.DRAM_PAR_FAIL, R.DRAM_PAR_CFG], t.get (pDRAM c) f = s.get (pDRAM c) f) ∧
    s.regsBut t ((pDRAM c, R.DRAM_PAR_CNT) :: (rowFields ++ errFields pDRAMC ++ errFields (pDRAM c))) ∧
    (s.fenceSound → bit (t.get (pDRAM c) R.PG_IRQ_RAW) 6 = true ∧ bit (t.get (pDRAM c) R.PG_IRQ_RAW) 1 = true ∧ t.get (pDRAM c) R.PG_ERR_CNT ≠ 0 ∧
      (s.get (pDRAM c) R.PG_ERR_CNT = 0 → t.get (pDRAM c) R.PG_ERR_INFO_CODE = 0x90)) ∧
    ∃ r w n, t = { s with regs := r, host := { s.host with waiting := w }, fresh := n } := by
  obtain ⟨u, hu⟩ : ∃ u, s.dramErr c 0x90 0 (s.oldestCmd c) = u := ⟨_, rfl⟩
  obtain ⟨hbut, hreport, herr⟩ := s.dramErr_spec hc 0x90 0 _ hu
  have hfld : ∀ f : Fld, f.id ∉ [R.PG_ERR_CNT.id, R.PG_ERR_ADDR_LO.id, R.PG_ERR_ADDR_HI.id, R.PG_ERR_INFO_SRC.id, R.PG_ERR_INFO_DIR.id,
      R.PG_ERR_INFO_CODE.id, R.PG_IRQ_RAW.id] → u.get (pDRAM c) f = s.get (pDRAM c) f := fun f hf => hu ▸ s.get_dramErr c 0x90 0 _ hf _
  obtain ⟨v, hv⟩ : ∃ v, u.incSat (pDRAM c) R.DRAM_PAR_CNT = v := ⟨_, rfl⟩
  have hvget : ∀ f : Fld, f.id ≠ R.DRAM_PAR_CNT.id → v.get (pDRAM c) f = u.get (pDRAM c) f := fun f hf => hv ▸ u.get_incSat_field _ hf
  have htget : ∀ f : Fld, f.id ≠ R.PG_IRQ_RAW.id → t.get (pDRAM c) f = v.get (pDRAM c) f := fun f hf => by
    rw [← ht, State.replayCounted, hu, hv]
    exact v.get_cause_field _ _ hf
  have hraw : t.get (pDRAM c) R.PG_IRQ_RAW = (v.cause (pDRAM c) 6).get (pDRAM c) R.PG_IRQ_RAW := by
    rw [← ht, State.replayCounted, hu, hv]
    rfl
  refine ⟨?_, fun f hf => ?_, ?_, fun hsound => ?_, ?_⟩
  · rw [htget _ (by decide), ← hv, State.get_incSat_self, hfld _ (by decide)]
  · have hids : f.id ≠ R.PG_IRQ_RAW.id ∧ f.id ≠ R.DRAM_PAR_CNT.id ∧ f.id ∉ [R.PG_ERR_CNT.id, R.PG_ERR_ADDR_LO.id, R.PG_ERR_ADDR_HI.id,
        R.PG_ERR_INFO_SRC.id, R.PG_ERR_INFO_DIR.id, R.PG_ERR_INFO_CODE.id, R.PG_IRQ_RAW.id] := by
      revert f
      decide
    rw [htget f hids.1, hvget f hids.2.1, hfld f hids.2.2]
  · rw [← ht, State.replayCounted, hu, hv]
    refine State.regsBut_of_regs (State.regsBut_cause (hv ▸ State.regsBut_incSat (State.regsBut_mono hbut ?_) (by simp)) 6 (by simp [errFields])) rfl
    intro e he
    simp only [List.mem_append, List.mem_cons] at he ⊢
    tauto
  · obtain ⟨h1, h2, h3⟩ := herr hsound
    have hfrozen : v.frozen (pDRAM c) = false := by
      refine (State.frozen_congr ?_).trans (hsound.dram hc)
      rw [hvget _ (by decide), hfld _ (by decide)]
    rw [hraw, htget _ (by decide), htget _ (by decide), hvget _ (by decide), hvget _ (by decide)]
    exact ⟨v.bit_cause (by decide) hfrozen, v.bit_cause_keeps (by decide) (by rw [hvget _ (by decide)]; exact h1), h2,
      fun h0 => (h3 h0).trans (by decide)⟩
  · obtain ⟨r, w, hshape⟩ := hreport
    obtain ⟨r', w', hshape'⟩ := v.reports_cause (pDRAM c) 6
    refine ⟨r', w', s.fresh + 1, ?_⟩
    rw [← ht, State.replayCounted, hu, hv, hshape', ← hv, hshape]
    rfl
theorem exec_replay (s : State) (c : DramCh) (again : Bool) : exec (.replay c again) s = .next (if (s.dramAt c).alert.isNone then s
    else if again then ((s.replayCounted c).reissue c).replayAgain c
    else (((s.replayCounted c).reissue c).updDram c fun d => { d with alert := none, tries := 0 }).dramWake) := rfl
theorem exec_alertTimeout {s : State} {c : DramCh} {u : Nat} (h : (s.dramAt c).alert = some u) : exec (.alertTimeout c) s =
    .next (if s.tick < u + usTicks 2 then s else s.replayAgain c) := by
  change execAlertTimeout c s = _
  unfold execAlertTimeout
  dsimp only
  rw [h]
theorem State.replayAgain_tries {s : State} {c : Nat} (h : (s.dramAt c).tries + 1 < max 1 (s.get (pDRAM c) R.DRAM_PAR_CFG)) :
    s.replayAgain c = s.updDram c fun d => { d with alert := some s.tick, tries := (s.dramAt c).tries + 1 } := if_neg (by omega)
theorem State.replayAgain_spent {s : State} {c : Nat} (h : max 1 (s.get (pDRAM c) R.DRAM_PAR_CFG) ≤ (s.dramAt c).tries + 1) :
    s.replayAgain c = s.replayFailed c := if_pos h
theorem nothingWaits_wake {s : State} (h : nothingWaits s) : s.dramWake = s :=
  State.dramWake_idle h.1 h.2.1 h.2.2.1 h.2.2.2.1 h.2.2.2.2.1 h.2.2.2.2.2
theorem State.retryStores_trans {s u t : State} {c : Nat} (hu : u.hold = s.hold) (hr : (u.dramAt c).retry = (s.dramAt c).retry) (h : retryStores u t c) :
    retryStores s t c := by
  simp only [State.hold, Prod.mk.injEq] at hu
  obtain ⟨h1, h2, h3, h4, h5⟩ := hu
  obtain ⟨k1, k2, k3, k4, k5, k6⟩ := h
  rw [hr, h3] at k4
  rw [hr, h4] at k5
  rw [hr] at k6
  exact ⟨k1.trans h1, k2.trans h2, k3.trans h5, k4, k5, k6⟩
theorem State.retryStores_of_hold {s u t : State} {c : Nat} (h : retryStores s u c) (ht : t.hold = u.hold) : retryStores s t c := by
  simp only [State.hold, Prod.mk.injEq] at ht
  obtain ⟨h1, h2, h3, h4, h5⟩ := ht
  unfold retryStores
  rw [h1, h2, h3, h4, h5]
  exact h
theorem replay_clause {s : State} {c : DramCh} {u : Nat} (again : Bool) (hu : (s.dramAt c).alert = some u) : ∃ t, exec (.replay c again) s = .next t ∧
    t.get (pDRAM c) R.DRAM_PAR_CNT = min (s.get (pDRAM c) R.DRAM_PAR_CNT + 1) (2 ^ R.DRAM_PAR_CNT.w - 1) ∧
    (s.fenceSound → bit (t.get (pDRAM c) R.PG_IRQ_RAW) 6 = true ∧ bit (t.get (pDRAM c) R.PG_IRQ_RAW) 1 = true ∧
      (s.get (pDRAM c) R.PG_ERR_CNT = 0 → t.get (pDRAM c) R.PG_ERR_INFO_CODE = 0x90)) ∧
    (again = false → (t.dramAt c).alert = none ∧ (t.dramAt c).tries = 0) ∧
    (again = true → (s.dramAt c).tries + 1 < max 1 (s.get (pDRAM c) R.DRAM_PAR_CFG) →
      (t.dramAt c).alert = some s.tick ∧ (t.dramAt c).tries = (s.dramAt c).tries + 1) ∧
    (again = true → max 1 (s.get (pDRAM c) R.DRAM_PAR_CFG) ≤ (s.dramAt c).tries + 1 → channelFails s t c) ∧
    ((again = true → (s.dramAt c).tries + 1 < max 1 (s.get (pDRAM c) R.DRAM_PAR_CFG)) → (again = false → nothingWaits s) →
      s.regsBut t ((pDRAM c, R.DRAM_PAR_CNT) :: (rowFields ++ errFields pDRAMC ++ errFields (pDRAM c))) ∧
      retryStores s t c) := by
  obtain ⟨v, hv⟩ : ∃ v, s.replayCounted c = v := ⟨_, rfl⟩
  obtain ⟨w, hw⟩ : ∃ w, v.reissue c = w := ⟨_, rfl⟩
  obtain ⟨hcnt, hkeep, hbut, herr, r, wt, n, hshape⟩ := s.replayCounted_spec c.isLt hv
  have hre := v.reissue_spec c hw
  have hpage := hre.page c
  have hatv : v.dramAt c = s.dramAt c := by
    rw [hshape]
    rfl
  have hholdv : v.hold = s.hold := by
    rw [hshape]
    rfl
  have htick : w.tick = s.tick := by
    obtain ⟨r', d', w', m', k', hs'⟩ := hre.shape
    rw [hs', hshape]
  obtain ⟨-, -, htries, -⟩ := DramSt.service_eq hre.chan.1
  rw [hatv] at htries
  have hcfg : w.get (pDRAM c) R.DRAM_PAR_CFG = s.get (pDRAM c) R.DRAM_PAR_CFG := (hpage _).trans (hkeep _ (by simp))
  have hfail : w.get (pDRAM c) R.DRAM_PAR_FAIL = s.get (pDRAM c) R.DRAM_PAR_FAIL := (hpage _).trans (hkeep _ (by simp))
  have hstores : retryStores s w c := State.retryStores_trans hholdv (by rw [hatv]) hre.stores
  have hbutw : s.regsBut w ((pDRAM c, R.DRAM_PAR_CNT) :: (rowFields ++ errFields pDRAMC ++ errFields (pDRAM c))) :=
    State.regsBut_trans hbut (State.regsBut_mono hre.but fun e he => by simp [he])
  rw [exec_replay, if_neg (by simp [hu]), hv, hw]
  refine ⟨_, rfl, ?_⟩
  cases again with
  | false =>
    rw [if_neg (by decide)]
    obtain ⟨x, hx⟩ : ∃ x, (w.updDram c fun d => { d with alert := none, tries := 0 }) = x := ⟨_, rfl⟩
    have hget : ∀ f, x.get (pDRAM c) f = v.get (pDRAM c) f := fun f => by
      rw [← hx]
      exact hpage f
    have hat : (x.dramAt c).alert = none ∧ (x.dramAt c).tries = 0 := by
      rw [← hx, State.dramAt_upd_self]
      exact ⟨rfl, rfl⟩
    have hserves := x.serves_dramWake
    have hp := pDRAM_ne_pDMAC c
    rw [hx]
    obtain ⟨-, h1, h2, -⟩ := DramSt.service_eq (hserves.chans c)
    refine ⟨?_, fun hsound => ?_, fun _ => ⟨h1.trans hat.1, h2.trans hat.2⟩, fun h => absurd h (by decide), fun h => absurd h (by decide), fun _ hwaits => ?_⟩
    · rw [hserves.kept _ hp _ (by simp [servedKept]), hget, hcnt]
    · obtain ⟨e1, e2, e3, e4⟩ := herr hsound
      refine ⟨hserves.raised _ hp 6 (by decide) (by rw [hget]; exact e1), hserves.raised _ hp 1 (by decide) (by rw [hget]; exact e2), fun h0 => ?_⟩
      rw [(hserves.errs _ hp (by rw [hget]; exact e3)).2, hget, e4 h0]
    · have hidle : nothingWaits x := by
        obtain ⟨r', d', w', m', k', hs'⟩ := hre.shape
        have hs := hwaits rfl
        rw [← hx, hs', hshape]
        exact hs
      rw [nothingWaits_wake hidle]
      exact ⟨State.regsBut_of_regs hbutw (by rw [← hx]; rfl), State.retryStores_of_hold hstores (by rw [← hx, State.updDram_hold])⟩
  | true =>
    rw [if_pos rfl]
    by_cases hspent : max 1 (s.get (pDRAM c) R.DRAM_PAR_CFG) ≤ (s.dramAt c).tries + 1
    · rw [State.replayAgain_spent (by rw [hcfg, htries]; exact hspent)]
      obtain ⟨⟨tr, rk, f1⟩, f2, f3, f4, f5, f6⟩ := w.replayFailed_spec c.isLt rfl
      simp only [DramSt.service, Prod.mk.injEq] at f1
      obtain ⟨-, g2, g3, g4⟩ := f1
      refine ⟨by rw [f3, hpage, hcnt], fun hsound => ?_, fun h => absurd h (by decide), fun _ h => absurd hspent (by omega), fun _ _ => ⟨g2, g3, by rw [g4]; rfl,
        by rw [f2, hfail], fun hsound => ?_⟩, fun h => absurd (h rfl) (by omega)⟩
      · obtain ⟨e1, e2, e3, e4⟩ := herr hsound
        refine ⟨f4 6 (by decide) (by rw [hpage]; exact e1), f4 1 (by decide) (by rw [hpage]; exact e2), fun h0 => ?_⟩
        rw [f5 (by rw [hpage]; exact e3), hpage, e4 h0]
      · exact f4 1 (by decide) (by rw [hpage]; exact (herr hsound).2.1)
    · rw [State.replayAgain_tries (by rw [hcfg, htries]; omega)]
      refine ⟨(hpage _).trans hcnt, fun hsound => ?_, fun h => absurd h (by decide), fun _ _ => ?_, fun _ h => absurd h hspent, fun _ _ => ⟨?_, ?_⟩⟩
      · obtain ⟨e1, e2, e3, e4⟩ := herr hsound
        have hget : ∀ f, (w.updDram c fun d => { d with alert := some w.tick, tries := (w.dramAt c).tries + 1 }).get (pDRAM c) f = v.get (pDRAM c) f := hpage
        rw [hget, hget]
        exact ⟨e1, e2, e4⟩
      · rw [State.dramAt_upd_self, htries, htick]
        exact ⟨rfl, rfl⟩
      · exact State.regsBut_of_regs hbutw rfl
      · exact State.retryStores_of_hold hstores (State.updDram_hold _ _ _)

/-- The rank that a failed replay retires is judged as before the failure. -/
theorem State.replaySpent_judge (s : State) {c : Nat} (hc : c < 4) (rank : Nat) {t : State} (ht : s.replaySpent c rank = t) :
    t.get pDRAMC R.DRAMC_CFG_MODE = s.get pDRAMC R.DRAMC_CFG_MODE ∧ t.get (pDRAM c) R.DRAM_RMAP_SPR = s.get (pDRAM c) R.DRAM_RMAP_SPR ∧
    t.get (pDRAM c) R.DRAM_MIG_POISON = s.get (pDRAM c) R.DRAM_MIG_POISON ∧ (t.dramAt c).mig = (s.dramAt c).mig ∧
    (∀ f, t.canRetire c f = s.canRetire c f) ∧ (∀ p, t.rankServes c p = s.rankServes c p) ∧ ∀ a, t.dramPlace a = s.dramPlace a := by
  obtain ⟨hat, -, hget, -, hboot⟩ := s.replaySpent_spec hc rank ht
  have hfld : ∀ f : Fld, f.id ∉ [R.PG_ERR_CNT.id, R.PG_ERR_ADDR_LO.id, R.PG_ERR_ADDR_HI.id, R.PG_ERR_INFO_SRC.id, R.PG_ERR_INFO_DIR.id,
      R.PG_ERR_INFO_CODE.id, R.PG_IRQ_RAW.id] → f.id ≠ R.DRAM_PAR_FAIL.id → ∀ p, t.get p f = s.get p f := fun f hf hp p =>
    (hget p f hp).trans (s.get_dramErr c 0x91 0 _ hf p)
  have hgeo : t.geo = s.geo := by
    unfold State.geo
    rw [hboot]
  have hmig : (t.dramAt c).mig = (s.dramAt c).mig := by rw [hat]
  refine ⟨hfld _ (by decide) (by decide) _, hfld _ (by decide) (by decide) _, hfld _ (by decide) (by decide) _, hmig, fun f => ?_, fun p => ?_, fun a => ?_⟩
  · unfold State.canRetire State.rankState State.flag
    rw [hfld _ (by decide) (by decide), hfld _ (by decide) (by decide), hmig]
  · have hranks : t.ranks = s.ranks := by
      unfold State.ranks
      rw [hgeo]
    unfold State.rankServes State.logRanks State.spareOn State.flag State.rmap
    rw [hranks, hfld _ (by decide) (by decide), hfld _ (by decide) (by decide)]
  · unfold State.dramPlace
    rw [hgeo]
theorem State.oldestRank_some {s : State} {c : Nat} {x : RetryCmd} (h : (s.dramAt c).retry.getLast? = some x) : s.oldestRank c = x.rank := by
  unfold State.oldestRank
  rw [h]
theorem State.oldestCmd_some {s : State} {c : Nat} {x : RetryCmd} (h : (s.dramAt c).retry.getLast? = some x) (hr : x.refresh = false) :
    s.oldestCmd c = x.addr := by
  unfold State.oldestCmd
  rw [h]
  dsimp only
  rw [if_neg (by simp [hr])]
/-- What a replay that has failed leaves of its rank. -/
theorem State.replayFailed_rank (s : State) {c : Nat} (hc : c < 4) {t : State} (ht : s.replayFailed c = t) :
    (∀ x, (s.dramAt c).retry.getLast? = some x → x.refresh = true ∨ x.req ≠ 0x50 → s.sameMemory t ∧
      (x.refresh = false → s.get pDRAMC R.DRAMC_CFG_MODE = 1 → s.canRetire c x.rank = true →
        (t.dramAt c).mig = some ((s.dramPlace x.addr).2.1, x.rank, s.get (pDRAM c) R.DRAM_RMAP_SPR) ∧ t.migPtr c = 0) ∧
      (∀ lr, x.refresh = true → s.rankServes c x.rank = some lr → s.get pDRAMC R.DRAMC_CFG_MODE = 1 → s.canRetire c x.rank = true →
        (t.dramAt c).mig = some (lr, x.rank, s.get (pDRAM c) R.DRAM_RMAP_SPR) ∧ t.migPtr c = 0) ∧
      (s.get pDRAMC R.DRAMC_CFG_MODE ≠ 1 → (t.dramAt c).mig = (s.dramAt c).mig)) ∧
    (∀ x lr f p, (s.dramAt c).retry.getLast? = some x → x.refresh = false → x.req = 0x50 → (s.dramAt c).mig = some (lr, f, p) →
      (t.dramAt c).mig = some (lr, f, p) ∧
      t.get (pDRAM c) R.DRAM_MIG_POISON = min (s.get (pDRAM c) R.DRAM_MIG_POISON + 1) (2 ^ R.DRAM_MIG_POISON.w - 1) ∧
      ∀ i < 64, Memory.get t.dramMem (dramKey c p x.off + i) = some 0) := by
  obtain ⟨v, hv⟩ : ∃ v, s.replaySpent c (s.oldestRank c) = v := ⟨_, rfl⟩
  obtain ⟨-, -, -, hhold, -⟩ := s.replaySpent_spec hc _ hv
  obtain ⟨j1, j2, j3, j4, j5, j6, j7⟩ := s.replaySpent_judge hc _ hv
  rw [State.replayFailed_eq, hv] at ht
  obtain ⟨-, -, hretire, hpoison⟩ := v.replayRank_spec _ _ _ _ ht
  rw [j1, j2] at hretire
  rw [j3, j4] at hpoison
  refine ⟨fun x hx hno => ?_, fun x lr f p hx hr hq hm => hpoison x lr f p hx hr hq hm⟩
  obtain ⟨h1, h2, h3, h4⟩ := hretire x hx hno
  have hrank := State.oldestRank_some hx
  simp only [j5, j6, j7] at h2 h3
  refine ⟨sameMemory_of_hold (h1.trans hhold), fun hr hmode hcan => ?_, h3, fun hmode => (h4 hmode).trans j4⟩
  obtain ⟨k1, k2⟩ := h2 hr hmode (by rw [hrank]; exact hcan)
  refine ⟨?_, k2⟩
  rw [k1, hrank, State.oldestCmd_some hx hr]
theorem alertTimeout_clause {s : State} {c : DramCh} {u : Nat} (hu : (s.dramAt c).alert = some u) :
    (s.tick < u + usTicks 2 → exec (.alertTimeout c) s = .next s) ∧
    (u + usTicks 2 ≤ s.tick →
      ((s.dramAt c).tries + 1 < max 1 (s.get (pDRAM c) R.DRAM_PAR_CFG) → ∃ t, exec (.alertTimeout c) s = .next t ∧
        t.dramAt c = { s.dramAt c with alert := some s.tick, tries := (s.dramAt c).tries + 1 } ∧
        (∀ n, n ≠ c.val → t.dramAt n = s.dramAt n) ∧ ({ t with dram := s.dram } : State) = s) ∧
      (max 1 (s.get (pDRAM c) R.DRAM_PAR_CFG) ≤ (s.dramAt c).tries + 1 → ∃ t, exec (.alertTimeout c) s = .next t ∧
        channelFails s t c ∧ (s.fenceSound → s.get (pDRAM c) R.PG_ERR_CNT = 0 → t.get (pDRAM c) R.PG_ERR_INFO_CODE = 0x91) ∧
        (∀ x, (s.dramAt c).retry.getLast? = some x → x.refresh = true ∨ x.req ≠ 0x50 → s.sameMemory t ∧
          (x.refresh = false → s.get pDRAMC R.DRAMC_CFG_MODE = 1 → s.canRetire c x.rank = true →
            (t.dramAt c).mig = some ((s.dramPlace x.addr).2.1, x.rank, s.get (pDRAM c) R.DRAM_RMAP_SPR) ∧ t.migPtr c = 0) ∧
          (∀ lr, x.refresh = true → s.rankServes c x.rank = some lr → s.get pDRAMC R.DRAMC_CFG_MODE = 1 → s.canRetire c x.rank = true →
            (t.dramAt c).mig = some (lr, x.rank, s.get (pDRAM c) R.DRAM_RMAP_SPR) ∧ t.migPtr c = 0) ∧
          (s.get pDRAMC R.DRAMC_CFG_MODE ≠ 1 → (t.dramAt c).mig = (s.dramAt c).mig)) ∧
        (∀ x lr f p, (s.dramAt c).retry.getLast? = some x → x.refresh = false → x.req = 0x50 → (s.dramAt c).mig = some (lr, f, p) →
          (t.dramAt c).mig = some (lr, f, p) ∧
          t.get (pDRAM c) R.DRAM_MIG_POISON = min (s.get (pDRAM c) R.DRAM_MIG_POISON + 1) (2 ^ R.DRAM_MIG_POISON.w - 1) ∧
          ∀ i < 64, Memory.get t.dramMem (dramKey c p x.off + i) = some 0))) := by
  rw [exec_alertTimeout hu]
  refine ⟨fun h => by rw [if_pos h], fun h => ?_⟩
  rw [if_neg (by omega)]
  refine ⟨fun hmore => ?_, fun hspent => ?_⟩
  · rw [State.replayAgain_tries hmore]
    exact ⟨_, rfl, State.dramAt_upd_self _ _ _, fun n hn => State.dramAt_upd_other _ _ hn, rfl⟩
  · rw [State.replayAgain_spent hspent]
    obtain ⟨⟨tr, rk, f1⟩, f2, -, -, -, f6⟩ := s.replayFailed_spec c.isLt rfl
    simp only [DramSt.service, Prod.mk.injEq] at f1
    obtain ⟨-, g2, g3, g4⟩ := f1
    obtain ⟨r1, r2⟩ := s.replayFailed_rank c.isLt rfl
    exact ⟨_, rfl, ⟨g2, g3, by rw [g4]; rfl, f2, fun hsound => (f6 hsound).1⟩, fun hsound h0 => (f6 hsound).2 h0, r1, r2⟩

/-! ### RECENTRING_END (R319) -/

/-- The channel goes on: a failure of its training is recorded. -/
def State.pauseOver (s : State) (c k : Nat) (ok : Bool) : State :=
  if ok then s.updDram c fun d => { d with pause := none }
  else if k = 1 then ((s.updDram c fun d => { d with pause := none }).dramErr c 0x93 0 0).incSat (pDRAM c) R.DRAM_TRAIN_FAIL
  else (s.updDram c fun d => { d with pause := none }).dramErr c 0x93 0 0
theorem exec_recentringEnd {s : State} {c : DramCh} {k r : Nat} (h : (s.dramAt c).pause = some (k, r)) (ok : Bool) : exec (.recentringEnd c ok) s =
    .next (if k = 2 then (s.pauseOver c k ok).reissue c else s.pauseOver c k ok).dramWake := by
  change execRecentringEnd c ok s = _
  unfold execRecentringEnd
  dsimp only
  rw [h]
  rfl
theorem State.pauseOver_spec (s : State) {c : Nat} (hc : c < 4) (k : Nat) (ok : Bool) {t : State} (ht : s.pauseOver c k ok = t) :
    t.dramAt c = { s.dramAt c with pause := none } ∧ (∀ n, n ≠ c → t.dramAt n = s.dramAt n) ∧
    (ok = true → s.regsBut t []) ∧ s.regsBut t ((pDRAM c, R.DRAM_TRAIN_FAIL) :: (errFields pDRAMC ++ errFields (pDRAM c))) ∧
    (k = 2 → s.regsBut t (errFields pDRAMC ++ errFields (pDRAM c))) ∧
    (∃ r d w, t = { s with regs := r, dram := d, host := { s.host with waiting := w } }) ∧
    (ok = false → (s.fenceSound → bit (t.get (pDRAM c) R.PG_IRQ_RAW) 1 = true ∧ t.get (pDRAM c) R.PG_ERR_CNT ≠ 0 ∧
        (s.get (pDRAM c) R.PG_ERR_CNT = 0 → t.get (pDRAM c) R.PG_ERR_INFO_CODE = 0x93)) ∧
      (k = 1 → t.get (pDRAM c) R.DRAM_TRAIN_FAIL = min (s.get (pDRAM c) R.DRAM_TRAIN_FAIL + 1) (2 ^ R.DRAM_TRAIN_FAIL.w - 1))) := by
  obtain ⟨u, hu⟩ : ∃ u, (s.updDram c fun d => { d with pause := none }) = u := ⟨_, rfl⟩
  have hstart : u.dramAt c = { s.dramAt c with pause := none } ∧ (∀ n, n ≠ c → u.dramAt n = s.dramAt n) ∧ u.regs = s.regs ∧ ∃ d, u = { s with dram := d } := by
    rw [← hu]
    exact ⟨State.dramAt_upd_self _ _ _, fun n hn => State.dramAt_upd_other _ _ hn, rfl, _, rfl⟩
  obtain ⟨hat, hother, hregs, d, hshape⟩ := hstart
  have hget : ∀ p f, u.get p f = s.get p f := fun p f => State.get_congr hregs p f
  cases ok with
  | true =>
    have htu : t = u := by rw [← ht, ← hu, State.pauseOver, if_pos rfl]
    subst htu
    have hsame : ∀ l, s.regsBut t l := fun l => State.regsBut_of_regs (s.regsBut_refl l) hregs
    exact ⟨hat, hother, fun _ => hsame _, hsame _, fun _ => hsame _, ⟨s.regs, d, s.host.waiting, hshape⟩, fun h => absurd h (by decide)⟩
  | false =>
    obtain ⟨v, hv⟩ : ∃ v, u.dramErr c 0x93 0 0 = v := ⟨_, rfl⟩
    obtain ⟨hbut, hreport, herr⟩ := u.dramErr_spec hc 0x93 0 0 hv
    have htv : t = if k = 1 then v.incSat (pDRAM c) R.DRAM_TRAIN_FAIL else v := by
      rw [← ht, State.pauseOver, if_neg (by decide), hu, hv]
    have hbutv : s.regsBut v (errFields pDRAMC ++ errFields (pDRAM c)) := State.regsBut_trans (State.regsBut_of_regs (s.regsBut_refl _) hregs) hbut
    have hatv : ∀ n, t.dramAt n = u.dramAt n := fun n => by
      rw [← u.dramAt_dramErr c 0x93 0 0 n, hv, htv]
      split <;> rfl
    have hfld : ∀ f : Fld, f.id ≠ R.DRAM_TRAIN_FAIL.id → t.get (pDRAM c) f = v.get (pDRAM c) f := fun f hf => by
      rw [htv]
      split
      · exact v.get_incSat_field _ hf
      · rfl
    refine ⟨(hatv c).trans hat, fun n hn => (hatv n).trans (hother n hn), fun h => absurd h (by decide), ?_, fun h2 => ?_, ?_, fun _ => ⟨fun hsound => ?_, fun h1 => ?_⟩⟩
    · have hmore := State.regsBut_mono (m := (pDRAM c, R.DRAM_TRAIN_FAIL) :: (errFields pDRAMC ++ errFields (pDRAM c))) hbutv (List.subset_cons_self _ _)
      rw [htv]
      split
      · exact State.regsBut_incSat hmore (by simp)
      · exact hmore
    · rw [htv, if_neg (by omega)]
      exact hbutv
    · obtain ⟨r, w, hrep⟩ := hreport
      rw [htv]
      split
      · exact ⟨_, d, w, by rw [hrep, hshape]; rfl⟩
      · exact ⟨r, d, w, by rw [hrep, hshape]⟩
    · have hsoundu : u.fenceSound := fun p b i hb hn => by
        have h0 := hsound p b i hb hn
        unfold State.fenced State.flag at h0 ⊢
        rw [hget]
        exact h0
      obtain ⟨e1, e2, e3⟩ := herr hsoundu
      rw [hfld _ (by decide), hfld _ (by decide), hfld _ (by decide)]
      exact ⟨e1, e2, fun h0 => (e3 ((hget _ _).trans h0)).trans (by decide)⟩
    · have hfail : v.get (pDRAM c) R.DRAM_TRAIN_FAIL = s.get (pDRAM c) R.DRAM_TRAIN_FAIL := by
        rw [← hv, u.get_dramErr c 0x93 0 0 (by decide), hget]
      rw [htv, if_pos h1, State.get_incSat_self, hfail]

theorem recentringEnd_clause {s : State} {c : DramCh} {k r : Nat} (ok : Bool) (h : (s.dramAt c).pause = some (k, r)) :
    ∃ t, exec (.recentringEnd c ok) s = .next t ∧ (t.dramAt c).pause = none ∧
      (ok = false → (s.fenceSound → bit (t.get (pDRAM c) R.PG_IRQ_RAW) 1 = true ∧
          (s.get (pDRAM c) R.PG_ERR_CNT = 0 → t.get (pDRAM c) R.PG_ERR_INFO_CODE = 0x93)) ∧
        (k = 1 → t.get (pDRAM c) R.DRAM_TRAIN_FAIL = min (s.get (pDRAM c) R.DRAM_TRAIN_FAIL + 1) (2 ^ R.DRAM_TRAIN_FAIL.w - 1))) ∧
      (nothingWaits s → (∀ n, n ≠ c.val → t.dramAt n = s.dramAt n) ∧
        (k ≠ 2 → t.dramAt c = { s.dramAt c with pause := none } ∧ (ok = true → s.regsBut t []) ∧
          s.regsBut t ((pDRAM c, R.DRAM_TRAIN_FAIL) :: (errFields pDRAMC ++ errFields (pDRAM c))) ∧
          ({ t with regs := s.regs, dram := s.dram, host := s.host } : State) = s) ∧
        (k = 2 → retryStores s t c ∧ s.regsBut t (rowFields ++ errFields pDRAMC ++ errFields (pDRAM c)) ∧
          (t.dramAt c).retry = (s.dramAt c).retry.map fun x => { x with at_ := s.tick })) := by
  obtain ⟨u, hu⟩ : ∃ u, s.pauseOver c k ok = u := ⟨_, rfl⟩
  obtain ⟨hat, hother, hsame, hbut, hbut2, ⟨rg, d, w, hshape⟩, herr⟩ := s.pauseOver_spec c.isLt k ok hu
  obtain ⟨y, hy⟩ : ∃ y, (if k = 2 then u.reissue c else u) = y := ⟨_, rfl⟩
  have hre : k = 2 → u.reissued y c (u.dramAt c).retry := fun h2 => u.reissue_spec c (by rw [← hy, if_pos h2])
  have hyu : k ≠ 2 → y = u := fun h2 => by rw [← hy, if_neg h2]
  have hpage : ∀ f, y.get (pDRAM c) f = u.get (pDRAM c) f := fun f => by
    by_cases h2 : k = 2
    · exact (hre h2).page c f
    · rw [hyu h2]
  have hservice : (y.dramAt c).service = (u.dramAt c).service := by
    by_cases h2 : k = 2
    · exact (hre h2).chan.1
    · rw [hyu h2]
  have hserves := y.serves_dramWake
  have hp := pDRAM_ne_pDMAC c
  obtain ⟨-, -, -, hpause⟩ := DramSt.service_eq ((hserves.chans c).trans hservice)
  have hholdu : u.hold = s.hold := by
    rw [hshape]
    rfl
  rw [exec_recentringEnd h ok, hu, hy]
  refine ⟨_, rfl, hpause.trans (by rw [hat]), fun hok => ⟨fun hsound => ?_, fun h1 => ?_⟩, fun hwaits => ?_⟩
  · obtain ⟨e1, e2, e3⟩ := (herr hok).1 hsound
    refine ⟨hserves.raised _ hp 1 (by decide) (by rw [hpage]; exact e1), fun h0 => ?_⟩
    rw [(hserves.errs _ hp (by rw [hpage]; exact e2)).2, hpage, e3 h0]
  · rw [hserves.kept _ hp _ (by simp [servedKept]), hpage, (herr hok).2 h1]
  · have hidleu : nothingWaits u := by
      rw [hshape]
      exact hwaits
    by_cases h2 : k = 2
    · obtain ⟨r', d', w', m', k', hs'⟩ := (hre h2).shape
      have hidle : nothingWaits y := by
        rw [hs']
        exact hidleu
      have hretry : (u.dramAt c).retry = (s.dramAt c).retry := by rw [hat]
      rw [nothingWaits_wake hidle]
      refine ⟨fun n hn => ((hre h2).others n hn).trans (hother n hn), fun h => absurd h2 h, fun _ => ⟨?_, ?_, ?_⟩⟩
      · exact State.retryStores_trans hholdu hretry (hre h2).stores
      · refine State.regsBut_trans (State.regsBut_mono (hbut2 h2) fun e he => ?_)
          (State.regsBut_mono (hre h2).but fun e he => List.mem_append_left _ (List.mem_append_left _ he))
        rcases List.mem_append.1 he with he | he
        · exact List.mem_append_left _ (List.mem_append_right _ he)
        · exact List.mem_append_right _ he
      · obtain ⟨o, tr, th, hown⟩ := (hre h2).own
        have htick : u.tick = s.tick := by rw [hshape]
        rw [hown]
        dsimp only
        rw [hretry]
        unfold State.stamped
        rw [htick]
    · rw [hyu h2, nothingWaits_wake hidleu]
      refine ⟨hother, fun _ => ⟨hat, hsame, hbut, ?_⟩, fun h => absurd h h2⟩
      rw [hshape]
/-- A write that is all that waits is served once its channel goes on. -/
theorem State.dramWake_write {s : State} {a q : Nat} {l : List (Option Byte)} (hwait : s.dramWait = [.write a q l]) (hbells : s.bells = [])
    (hack : s.ackDue = []) (hdma : s.dma = []) (hjob : s.job = []) (hdec : s.dec = []) (hfree : s.dramFree a l.length q = true) :
    s.dramWake = ({ s with dramWait := [] } : State).dramWriteOpt a l q := by
  obtain ⟨v, hv⟩ : ∃ v : State, { s with dramWait := [] } = v := ⟨_, rfl⟩
  obtain ⟨z, hz⟩ : ∃ z, v.dramWriteOpt a l q = z := ⟨_, rfl⟩
  have hserved : v.reqFree (.write a q l) = true := by
    have hchans : ∀ b, v.decChans b = [] := fun b => by
      have hidle : (v.jobAt b).running = false := by
        rw [← hv]
        unfold State.jobAt
        rw [hjob]
        rfl
      unfold State.decChans
      rw [if_pos (by simp [hidle])]
    have hdesc : ∀ c, (v.dmaAt c).desc = none := fun c => by
      rw [← hv]
      unfold State.dmaAt
      rw [hdma]
      rfl
    have hfree' : v.dramFree a l.length q = true := by
      rw [← hv]
      exact hfree
    have hnone : v.dramWait = [] := by rw [← hv]
    have hfirst : v.decFirst (List.range 8) (chansOf a l.length) = false := by
      simp [State.decFirst, hchans]
    have hahead : v.waitAhead (DramReq.level (.write a q l)) (chansOf a l.length) = false := by
      rw [State.waitAhead, hnone]
      rfl
    have hdma' : v.dmaAhead (DramReq.level (.write a q l)) (chansOf a l.length) = false := by
      simp [State.dmaAhead, hdesc]
    change v.dramServed (DramReq.level (.write a q l)) a l.length q = true
    rw [State.dramServed, State.portFree, hfree', hfirst, hahead, hdma']
    rfl
  have hask : v.dramAsk (.write a q l) = z := by
    have hnone : v.dramWait = [] := by rw [← hv]
    unfold State.dramAsk
    rw [hserved, hnone]
    exact hz
  have hdrain : s.dramDrain = z := by
    have hturn : ([4, 5, 6].flatMap fun k => takeTurns (s.dramWait.filter fun r => r.level == k)) = [.write a q l] := by
      rw [hwait]
      have hlevel : DramReq.level (.write a q l) = 6 ∨ DramReq.level (.write a q l) = 5 ∨ DramReq.level (.write a q l) = 4 := by
        unfold DramReq.level
        split_ifs <;> simp
      rcases hlevel with h | h | h <;> simp [h, takeTurns]
    unfold State.dramDrain
    rw [hturn, hv]
    exact hask
  have hidle : nothingWaits z := by
    obtain ⟨r, d, w, m, k, hshape⟩ := (v.dramStep_dramWriteOpt a l q).shape
    rw [← hz, hshape, ← hv]
    exact ⟨rfl, hbells, hack, hdma, hjob, hdec⟩
  have hstill : z.dramDrain = z := by
    unfold State.dramDrain
    rw [hidle.1]
    obtain ⟨hw, -⟩ := hidle
    cases z
    cases hw
    rfl
  have hsame : s.dramWake = z.dramWake := by
    unfold State.dramWake
    rw [hdrain, hstill]
  rw [hv, hz, hsame, nothingWaits_wake hidle]
theorem recentringWrite_clause {s : State} {c : DramCh} {k r : Nat} (ok : Bool) (h : (s.dramAt c).pause = some (k, r)) {t : State}
    (ht : exec (.recentringEnd c ok) s = .next t) {a q : Nat} {l : List (Option Byte)} (hwait : s.dramWait = [.write a q l]) (hbells : s.bells = [])
    (hack : s.ackDue = []) (hdma : s.dma = []) (hjob : s.job = []) (hdec : s.dec = []) (hok : ok = true) (h2 : k ≠ 2)
    (hfree : (s.updDram c fun d => { d with pause := none }).dramFree a l.length q = true) :
    t.dramWait = [] ∧ s.dramStores t (burstsOf a l.length) := by
  obtain ⟨u, hu⟩ : ∃ u, (s.updDram c fun d => { d with pause := none }) = u := ⟨_, rfl⟩
  obtain ⟨v, hv⟩ : ∃ v : State, { u with dramWait := [] } = v := ⟨_, rfl⟩
  have hkey : (∀ x, v.burstKey x = s.burstKey x) ∧ ∀ x, v.burstChk x = s.burstChk x := by
    have hstep := hu ▸ s.dramStep_updDram c (fun d => { d with pause := none }) rfl []
    refine ⟨fun x => ?_, fun x => ?_⟩
    · rw [← hstep.burstKey, ← hv]
      rfl
    · rw [← hstep.burstChk, ← hv]
      rfl
  have htu : t = v.dramWriteOpt a l q := by
    rw [exec_recentringEnd h, if_neg h2, State.pauseOver, if_pos hok, hu] at ht
    have hw : u.dramWait = s.dramWait ∧ u.bells = s.bells ∧ u.ackDue = s.ackDue ∧ u.dma = s.dma ∧ u.job = s.job ∧ u.dec = s.dec := by
      rw [← hu]
      exact ⟨rfl, rfl, rfl, rfl, rfl, rfl⟩
    obtain ⟨w1, w2, w3, w4, w5, w6⟩ := hw
    rw [hu] at hfree
    rw [State.dramWake_write (w1.trans hwait) (w2.trans hbells) (w3.trans hack) (w4.trans hdma) (w5.trans hjob) (w6.trans hdec) hfree, hv] at ht
    exact (Host.Outcome.next.inj ht).symm
  have hstep := v.dramStep_dramWriteOpt a l q
  rw [← htu] at hstep
  have hhold : v.hold = s.hold := by
    rw [← hv, ← hu]
    rfl
  simp only [State.hold, Prod.mk.injEq] at hhold
  obtain ⟨e1, e2, e3, e4, e5⟩ := hhold
  obtain ⟨k1, k2, k3, k4, k5⟩ := hstep.stores
  refine ⟨?_, k1.trans e1, k2.trans e2, k3.trans e5, fun x hx => ?_, fun x hx => ?_⟩
  · obtain ⟨rg, d, w, m, k, hshape⟩ := hstep.shape
    rw [hshape, ← hv]
  · rw [← e3]
    exact k4 x fun y hy => by rw [hkey.1]; exact hx y hy
  · rw [← e4]
    exact k5 x fun y hy => by rw [hkey.2]; exact hx y hy

/-! ### REFRESH, RETRAIN_PAUSE, DIMM_TEMPERATURE_READ and TRACKER_CLEAR (R318 to R321) -/

/-- A refresh as the retry buffer keeps it. -/
def refreshCmd (rank : Nat) (now : Nat) : RetryCmd := { at_ := now, addr := 0, req := 0, rank := rank, off := 0, refresh := true }
/-- Refreshes issued one after the other. -/
def State.refreshN (s : State) (c rank : Nat) : Nat → State
  | 0 => s
  | n + 1 => State.keepCmd (s.refreshN c rank n) c (refreshCmd rank s.tick)
theorem State.refreshIssue_eq (s : State) (c rank n : Nat) : s.refreshIssue c rank n = s.refreshN c rank (n + 1) := by
  have hfold : ∀ (m : Nat) (x : RetryCmd) (t : State), (List.replicate (m + 1) ()).foldl (fun t _ => t.keepCmd c x) t =
      ((List.replicate m ()).foldl (fun t _ => t.keepCmd c x) t).keepCmd c x := fun m => by
    induction m with
    | zero => exact fun _ _ => rfl
    | succ m ih => exact fun x t => ih x (t.keepCmd c x)
  have hall : ∀ m, (List.replicate m ()).foldl (fun t _ => t.keepCmd c (refreshCmd rank s.tick)) s = s.refreshN c rank m := fun m => by
    induction m with
    | zero => rfl
    | succ m ih => rw [hfold, ih]; rfl
  exact hall (n + 1)
theorem State.refreshN_spec (s : State) (c rank n : Nat) {t : State} (ht : s.refreshN c rank n = t) :
    (∀ m, m ≠ c → t.dramAt m = s.dramAt m) ∧ ({ t with dram := s.dram } : State) = s ∧
    t.dramAt c = { s.dramAt c with retry := (if n = 0 then (s.dramAt c).retry else
      List.replicate n (refreshCmd rank s.tick) ++ (s.dramAt c).retry.filter fun x => decide (s.tick ≤ x.at_ + s.retryTicks)) } := by
  induction n generalizing t with
  | zero =>
    obtain rfl : s = t := ht
    exact ⟨fun _ _ => rfl, rfl, rfl⟩
  | succ n ih =>
    obtain ⟨u, hu⟩ : ∃ u, s.refreshN c rank n = u := ⟨_, rfl⟩
    obtain ⟨h1, h2, h3⟩ := ih hu
    have htick : u.tick = s.tick ∧ u.retryTicks = s.retryTicks := by
      have := congrArg (fun x : State => (x.tick, x.retryTicks)) h2
      exact ⟨congrArg Prod.fst this, congrArg Prod.snd this⟩
    rw [State.refreshN, hu] at ht
    subst ht
    refine ⟨fun m hm => (State.dramAt_upd_other _ _ hm).trans (h1 m hm), h2, ?_⟩
    have hkept : ∀ l : List RetryCmd, (if n = 0 then l else List.replicate n (refreshCmd rank s.tick) ++ l.filter fun x => decide (s.tick ≤ x.at_ + s.retryTicks)).filter
        (fun y => decide (s.tick ≤ y.at_ + s.retryTicks)) =
        List.replicate n (refreshCmd rank s.tick) ++ l.filter fun x => decide (s.tick ≤ x.at_ + s.retryTicks) := fun l => by
      split
      · next h0 => rw [h0]; rfl
      · rw [List.filter_append, List.filter_filter, List.filter_replicate, if_pos (by simp [refreshCmd])]
        simp only [Bool.and_self]
    unfold State.keepCmd
    rw [State.dramAt_upd_self, h3, htick.1, htick.2]
    dsimp only
    rw [hkept]
    rfl

/-- A refresh is due on a rank that a serving channel has. -/
theorem refresh_clause (s : State) (c : DramCh) (r : Fin 4) {due : Nat}
    (hdue : due = (s.dramAt c).lastRef.getD r 0 + (if (s.dramAt c).hot then nsTicks 3900 else nsTicks 7800)) :
    (s.chServes c = false ∨ s.ranks ≤ r.val ∨ s.rankState c r = 3 ∨ s.tick < due → exec (.refresh c r) s = .next s) ∧
    (s.chServes c = true → r.val < s.ranks → s.rankState c r ≠ 3 → due ≤ s.tick →
      ∃ t, exec (.refresh c r) s = .next t ∧ (t.dramAt c).lastRef.getD r 0 = s.tick ∧
      (∀ i, i ≠ r.val → (t.dramAt c).lastRef.getD i 0 = (s.dramAt c).lastRef.getD i 0 ∧
        (t.dramAt c).postponed.getD i 0 = (s.dramAt c).postponed.getD i 0) ∧ (∀ n, n ≠ c.val → t.dramAt n = s.dramAt n) ∧
      ({ t.dramAt c with lastRef := (s.dramAt c).lastRef, postponed := (s.dramAt c).postponed, retry := (s.dramAt c).retry } : DramSt) =
        s.dramAt c ∧
      (s.anyPanic = false → (t.dramAt c).postponed.getD r 0 = 0 ∧ refreshes s t c r ((s.dramAt c).postponed.getD r 0 + 1) ∧
        ({ t with dram := s.dram } : State) = s) ∧
      (s.anyPanic = true → (s.dramAt c).postponed.getD r 0 < 8 → refreshes s t c r 0 ∧
        (t.dramAt c).postponed.getD r 0 = (s.dramAt c).postponed.getD r 0 + 1 ∧ ({ t with dram := s.dram } : State) = s) ∧
      (s.anyPanic = true → 8 ≤ (s.dramAt c).postponed.getD r 0 → refreshes s t c r 1 ∧
        (t.dramAt c).postponed.getD r 0 = (s.dramAt c).postponed.getD r 0 ∧
        t.get pDRAMC R.DRAMC_FREF_CNT = min (s.get pDRAMC R.DRAMC_FREF_CNT + 1) (2 ^ R.DRAMC_FREF_CNT.w - 1) ∧
        s.regsBut t [(pDRAMC, R.DRAMC_FREF_CNT)] ∧ ({ t with regs := s.regs, dram := s.dram } : State) = s)) := by
  obtain ⟨u, hu⟩ : ∃ u, (s.updDram c fun d => { d with lastRef := d.lastRef.put r s.tick }) = u := ⟨_, rfl⟩
  obtain ⟨k, hk⟩ : ∃ k, (s.dramAt c).postponed.getD r 0 = k := ⟨_, rfl⟩
  have hexec : exec (.refresh c r) s = .next (if s.chServes c = false ∨ s.ranks ≤ r.val ∨ s.rankState c r = 3 ∨ s.tick < due then s
      else if s.anyPanic = false then (u.updDram c fun d => { d with postponed := d.postponed.put r 0 }).refreshIssue c r k
      else if k < 8 then u.updDram c fun d => { d with postponed := d.postponed.put r (k + 1) }
      else (u.incSat pDRAMC R.DRAMC_FREF_CNT).refreshIssue c r 0) := by
    have hpanic : u.anyPanic = s.anyPanic := by
      rw [← hu]
      rfl
    change execRefresh c r s = _
    unfold execRefresh
    dsimp only
    rw [hu, hk, ← hdue, hpanic]
    simp only [Bool.or_eq_true, Bool.not_eq_true', decide_eq_true_eq, beq_iff_eq, or_assoc]
  have hut : u.tick = s.tick ∧ u.retryTicks = s.retryTicks ∧ u.dramAt c = { s.dramAt c with lastRef := (s.dramAt c).lastRef.put r s.tick } ∧
      (∀ n, n ≠ c.val → u.dramAt n = s.dramAt n) ∧ ({ u with dram := s.dram } : State) = s ∧ u.regs = s.regs := by
    rw [← hu]
    exact ⟨rfl, rfl, State.dramAt_upd_self _ _ _, fun n hn => State.dramAt_upd_other _ _ hn, rfl, rfl⟩
  obtain ⟨htick, hkeep, hat, hother, hshape, hregs⟩ := hut
  have hlast : ∀ i, i ≠ r.val → ((s.dramAt c).lastRef.put r s.tick).getD i 0 = (s.dramAt c).lastRef.getD i 0 := fun i hi => NMap.getD_put_other _ _ _ hi
  have hpost : ∀ v i, i ≠ r.val → ((s.dramAt c).postponed.put r v).getD i 0 = (s.dramAt c).postponed.getD i 0 := fun v i hi => NMap.getD_put_other _ _ _ hi
  -- `n + 1` refreshes from a state that differs from u in nothing that the retry buffer sees
  have hissue : ∀ (v : State) n, v.tick = s.tick → v.retryTicks = s.retryTicks → (v.dramAt c).retry = (s.dramAt c).retry →
      refreshes s (v.refreshIssue c r n) c r (n + 1) := fun v n h1 h2 h3 => by
    obtain ⟨-, -, h⟩ := v.refreshN_spec c r (n + 1) rfl
    rw [← State.refreshIssue_eq] at h
    refine ⟨fun h => absurd h (by omega), fun _ => ?_⟩
    rw [h, h1, h2, h3]
    rfl
  rw [hexec]
  refine ⟨fun h => by rw [if_pos h], fun h1 h2 h3 h4 => ?_⟩
  rw [if_neg (by rw [h1]; simp; omega)]
  cases hp : s.anyPanic with
  | false =>
    rw [if_pos rfl]
    obtain ⟨v, hv⟩ : ∃ v, (u.updDram c fun d => { d with postponed := d.postponed.put r 0 }) = v := ⟨_, rfl⟩
    have hvt : v.tick = s.tick ∧ v.retryTicks = s.retryTicks ∧ (∀ n, n ≠ c.val → v.dramAt n = s.dramAt n) ∧ ({ v with dram := s.dram } : State) = s ∧
        v.dramAt c = { s.dramAt c with lastRef := (s.dramAt c).lastRef.put r s.tick, postponed := (s.dramAt c).postponed.put r 0 } := by
      rw [← hv]
      exact ⟨htick, hkeep, fun n hn => (State.dramAt_upd_other _ _ hn).trans (hother n hn), hshape, by rw [State.dramAt_upd_self, hat]⟩
    obtain ⟨v1, v2, v3, v4, v5⟩ := hvt
    obtain ⟨t1, t2, t3⟩ := v.refreshN_spec c r (k + 1) rfl
    rw [hv]
    rw [← State.refreshIssue_eq] at t1 t2 t3
    refine ⟨_, rfl, ?_, fun i hi => ?_, fun n hn => (t1 n hn).trans (v3 n hn), ?_, fun _ => ⟨?_, ?_, ?_⟩, fun h => absurd h (by decide), fun h => absurd h (by decide)⟩
    · rw [t3, v5]
      exact NMap.getD_put_self _ _ _ _
    · rw [t3, v5]
      exact ⟨hlast i hi, hpost 0 i hi⟩
    · rw [t3, v5]
    · rw [t3, v5]
      exact NMap.getD_put_self _ _ _ _
    · rw [hk]
      exact hissue v k v1 v2 (by rw [v5])
    · have h := congrArg (fun x : State => ({ x with dram := s.dram } : State)) t2
      exact h.trans v4
  | true =>
    rw [if_neg (by decide), hk]
    by_cases h8 : k < 8
    · rw [if_pos h8]
      refine ⟨_, rfl, ?_, fun i hi => ?_, fun n hn => (State.dramAt_upd_other _ _ hn).trans (hother n hn), ?_, fun h => absurd h (by decide),
        fun _ _ => ⟨⟨fun _ => ?_, fun h => absurd rfl h⟩, ?_, hshape⟩, fun _ h => absurd h8 (by omega)⟩
      all_goals rw [State.dramAt_upd_self, hat]
      · exact NMap.getD_put_self _ _ _ _
      · exact ⟨hlast i hi, hpost _ i hi⟩
      · exact NMap.getD_put_self _ _ _ _
    · rw [if_neg h8]
      obtain ⟨v, hv⟩ : ∃ v, u.incSat pDRAMC R.DRAMC_FREF_CNT = v := ⟨_, rfl⟩
      have hvt : v.tick = s.tick ∧ v.retryTicks = s.retryTicks ∧ (∀ n, v.dramAt n = u.dramAt n) ∧ ({ v with regs := s.regs, dram := s.dram } : State) = s ∧
          s.regsBut v [(pDRAMC, R.DRAMC_FREF_CNT)] ∧
          v.get pDRAMC R.DRAMC_FREF_CNT = min (s.get pDRAMC R.DRAMC_FREF_CNT + 1) (2 ^ R.DRAMC_FREF_CNT.w - 1) := by
        rw [← hv]
        refine ⟨htick, hkeep, fun _ => rfl, ?_, State.regsBut_incSat (State.regsBut_of_regs (s.regsBut_refl _) hregs) (by simp), ?_⟩
        · have h := congrArg (fun x : State => ({ x with regs := s.regs } : State)) hshape
          exact h
        · rw [State.get_incSat_self, State.get_congr hregs]
      obtain ⟨v1, v2, v3, v4, v5, v6⟩ := hvt
      obtain ⟨t1, t2, t3⟩ := v.refreshN_spec c r (0 + 1) rfl
      rw [hv]
      rw [← State.refreshIssue_eq] at t1 t2 t3
      have hreg : (v.refreshIssue c r 0).regs = v.regs := by
        have h := congrArg State.regs t2
        exact h
      refine ⟨_, rfl, ?_, fun i hi => ?_, fun n hn => (t1 n hn).trans ((v3 n).trans (hother n hn)), ?_, fun h => absurd h (by decide),
        fun _ h => absurd h h8, fun _ _ => ⟨?_, ?_, ?_, ?_, ?_⟩⟩
      · rw [t3, v3, hat]
        exact NMap.getD_put_self _ _ _ _
      · rw [t3, v3, hat]
        exact ⟨hlast i hi, rfl⟩
      · rw [t3, v3, hat]
      · exact hissue v 0 v1 v2 (by rw [v3, hat])
      · rw [t3, v3, hat]
        exact hk
      · rw [State.get_congr hreg]
        exact v6
      · exact State.regsBut_of_regs v5 hreg
      · have h := congrArg (fun x : State => ({ x with regs := s.regs, dram := s.dram } : State)) t2
        exact h.trans v4
/-- A channel paused for its retraining. -/
def State.retrainPaused (s : State) (c r : Nat) : State :=
  (s.updDram c fun d => { d with pause := some (1, r), lastRetrain := d.lastRetrain.put r s.tick }).incWrap (pDRAM c) R.DRAM_TRAIN_CNT
/-- No retraining begins. -/
def State.retrainNot (s : State) (c r : Nat) : Bool :=
  !(s.dramAt c).trained || !s.flag pDRAMC R.DRAMC_RETRAIN_EN || decide (s.ranks ≤ r) || s.rankState c r == 3 || (s.dramAt c).alert.isSome
    || (s.dramAt c).pause.isSome || decide (s.tick < (s.dramAt c).lastRetrain.getD r 0 + msTicks (max 1 (s.get pDRAMC R.DRAMC_RETRAIN_PER))) ||
    s.anyPanic || !(List.range 8).all fun b => !s.breathIncl b || s.get pDRAMC R.DRAMC_RT_PAUSE_LINES ≤ s.decAhead b
theorem exec_retrainPause (s : State) (c : DramCh) (r : Fin 4) : exec (.retrainPause c r) s =
    .next (if s.retrainNot c r then s else s.retrainPaused c r) := rfl
theorem State.retrainNot_eq_false (s : State) (c r : Nat) : s.retrainNot c r = false ↔
    (s.dramAt c).trained = true ∧ s.flag pDRAMC R.DRAMC_RETRAIN_EN = true ∧ r < s.ranks ∧ s.rankState c r ≠ 3 ∧ (s.dramAt c).alert = none ∧
      (s.dramAt c).pause = none ∧ (s.dramAt c).lastRetrain.getD r 0 + msTicks (max 1 (s.get pDRAMC R.DRAMC_RETRAIN_PER)) ≤ s.tick ∧ s.anyPanic = false ∧
      ∀ b < 8, s.breathIncl b = true → s.get pDRAMC R.DRAMC_RT_PAUSE_LINES ≤ s.decAhead b := by
  have hlines : ((List.range 8).all fun b => !s.breathIncl b || decide (s.get pDRAMC R.DRAMC_RT_PAUSE_LINES ≤ s.decAhead b)) = true ↔
      ∀ b < 8, s.breathIncl b = true → s.get pDRAMC R.DRAMC_RT_PAUSE_LINES ≤ s.decAhead b := by
    simp only [List.all_eq_true, List.mem_range, Bool.or_eq_true, Bool.not_eq_true', decide_eq_true_eq]
    exact forall₂_congr fun b _ => by cases s.breathIncl b <;> simp
  unfold State.retrainNot
  simp only [Bool.or_eq_false_iff, Bool.not_eq_false', decide_eq_false_iff_not, beq_eq_false_iff_ne, Option.isSome_eq_false_iff, Option.isNone_iff_eq_none,
    hlines, Nat.not_le, Nat.not_lt, and_assoc]
theorem retrainPause_clause (s : State) (c : DramCh) (r : Fin 4) (can : Prop)
    (hcan : can ↔ (s.dramAt c).trained = true ∧ s.flag pDRAMC R.DRAMC_RETRAIN_EN = true ∧ r.val < s.ranks ∧
      s.rankState c r ≠ 3 ∧ (s.dramAt c).alert = none ∧ (s.dramAt c).pause = none ∧
      (s.dramAt c).lastRetrain.getD r 0 + msTicks (max 1 (s.get pDRAMC R.DRAMC_RETRAIN_PER)) ≤ s.tick ∧ s.anyPanic = false ∧
      ∀ b < 8, s.breathIncl b = true → s.get pDRAMC R.DRAMC_RT_PAUSE_LINES ≤ s.decAhead b) :
    (¬ can → exec (.retrainPause c r) s = .next s) ∧
    (can → ∃ t, exec (.retrainPause c r) s = .next t ∧ (t.dramAt c).pause = some (1, r.val) ∧
      (t.dramAt c).lastRetrain.getD r 0 = s.tick ∧ (∀ n, n ≠ c.val → t.dramAt n = s.dramAt n) ∧
      t.get (pDRAM c) R.DRAM_TRAIN_CNT = (s.get (pDRAM c) R.DRAM_TRAIN_CNT + 1) % 2 ^ R.DRAM_TRAIN_CNT.w ∧
      s.regsBut t [(pDRAM c, R.DRAM_TRAIN_CNT)] ∧ ({ t with regs := s.regs, dram := s.dram } : State) = s) := by
  rw [← State.retrainNot_eq_false] at hcan
  rw [exec_retrainPause]
  refine ⟨fun h => ?_, fun h => ?_⟩
  · rw [if_pos (by simpa using fun h' => h (hcan.2 h'))]
  · obtain ⟨u, hu⟩ : ∃ u, (s.updDram c fun d => { d with pause := some (1, r.val), lastRetrain := d.lastRetrain.put r s.tick }) = u := ⟨_, rfl⟩
    have hut : u.dramAt c = { s.dramAt c with pause := some (1, r.val), lastRetrain := (s.dramAt c).lastRetrain.put r s.tick } ∧
        (∀ n, n ≠ c.val → u.dramAt n = s.dramAt n) ∧ ({ u with dram := s.dram } : State) = s ∧ u.regs = s.regs := by
      rw [← hu]
      exact ⟨State.dramAt_upd_self _ _ _, fun n hn => State.dramAt_upd_other _ _ hn, rfl, rfl⟩
    obtain ⟨hat, hother, hshape, hregs⟩ := hut
    have hcount : ∀ n, (u.incWrap (pDRAM c) R.DRAM_TRAIN_CNT).dramAt n = u.dramAt n := fun _ => rfl
    rw [if_neg (by simp [hcan.1 h]), State.retrainPaused, hu]
    refine ⟨_, rfl, by rw [hcount, hat], ?_, fun n hn => (hcount n).trans (hother n hn), ?_,
      State.regsBut_incWrap (State.regsBut_of_regs (s.regsBut_refl _) hregs) (by simp), ?_⟩
    · rw [hcount, hat]
      exact NMap.getD_put_self _ _ _ _
    · rw [State.get_incWrap_self, State.get_congr hregs]
    · have h := congrArg (fun x : State => ({ x with regs := s.regs } : State)) hshape
      exact h
/-- All trackers of the channels of a list cleared. -/
theorem State.trackersCleared (l : List Nat) (s : State) (c : Nat) {t : State}
    (ht : (l.foldl (fun t n => t.updDram n fun d => { d with trackers := [], throttled := [] }) s) = t) : ({ t with dram := s.dram } : State) = s ∧
    (c ∈ l ∨ s.dramAt c = { s.dramAt c with trackers := [], throttled := [] } → t.dramAt c = { s.dramAt c with trackers := [], throttled := [] }) := by
  induction l generalizing s with
  | nil =>
    obtain rfl : s = t := ht
    exact ⟨rfl, fun h => h.resolve_left (by simp)⟩
  | cons n l ih =>
    obtain ⟨u, hu⟩ : ∃ u, (s.updDram n fun d => { d with trackers := [], throttled := [] }) = u := ⟨_, rfl⟩
    rw [List.foldl_cons, hu] at ht
    obtain ⟨h1, h2⟩ := ih u ht
    have hshape : ({ u with dram := s.dram } : State) = s := by
      rw [← hu]
      rfl
    refine ⟨(congrArg (fun x : State => ({ x with dram := s.dram } : State)) h1).trans hshape, fun h => ?_⟩
    by_cases hn : c = n
    · have hat : u.dramAt c = { s.dramAt c with trackers := [], throttled := [] } := by
        rw [← hu, hn]
        exact State.dramAt_upd_self _ _ _
      rw [h2 (Or.inr (by rw [hat])), hat]
    · have hat : u.dramAt c = s.dramAt c := by
        rw [← hu]
        exact State.dramAt_upd_other _ _ hn
      rw [h2 (by rw [hat]; exact h.imp_left fun hc => (List.mem_cons.1 hc).resolve_left hn), hat]
theorem trackerClear_clause {s : State} (c : DramCh) (h : s.trackClear + msTicks 64 ≤ s.tick) : ∃ t, exec .trackerClear s = .next t ∧
    t.trackClear = s.trackClear + msTicks 64 ∧ t.dramAt c = { s.dramAt c with trackers := [], throttled := [] } ∧
    ({ t with trackClear := s.trackClear, dram := s.dram } : State) = s := by
  obtain ⟨v, hv⟩ : ∃ v : State, { s with trackClear := s.trackClear + msTicks 64 } = v := ⟨_, rfl⟩
  have hexec : exec .trackerClear s = .next ((List.range 4).foldl (fun t n => t.updDram n fun d => { d with trackers := [], throttled := [] }) v) := by
    rw [← hv]
    exact congrArg Host.Outcome.next (if_neg (by omega))
  have hvt : v.trackClear = s.trackClear + msTicks 64 ∧ v.dramAt c = s.dramAt c ∧ ({ v with trackClear := s.trackClear, dram := s.dram } : State) = s := by
    rw [← hv]
    exact ⟨rfl, rfl, rfl⟩
  obtain ⟨v1, v2, v3⟩ := hvt
  obtain ⟨h1, h2⟩ := State.trackersCleared (List.range 4) v c rfl
  rw [hexec]
  refine ⟨_, rfl, ?_, ?_, ?_⟩
  · have hclear := congrArg State.trackClear h1
    exact Eq.trans hclear v1
  · rw [h2 (Or.inl (List.mem_range.2 c.isLt)), v2]
  · exact (congrArg (fun x : State => ({ x with trackClear := s.trackClear, dram := s.dram } : State)) h1).trans v3

/-- Settles O54. Every event of a channel is followed through what it moves of the channel (`rowStep`, `reissued`, `replayRank_spec`); what DRAM
serves then keeps the channel's service, its counts and its reports (`serves_dramWake`). -/
theorem dramChannelEvents : Obligations.DramChannelEvents := by
  unfold Obligations.DramChannelEvents
  intro s c
  refine ⟨fun h => ?_, fun htrained halert => ?_, fun h again => ⟨?_, ?_⟩, fun u again hu => replay_clause again hu, fun u hu => alertTimeout_clause hu,
    fun ok => ⟨fun h => ?_, fun k r h => ?_⟩, fun r due hdue => refresh_clause s c r hdue, fun r can hcan => retrainPause_clause s c r can hcan,
    fun x => ⟨fun h => ?_, fun h => ?_⟩, fun h => ?_, fun h => trackerClear_clause c h⟩
  · refine congrArg Host.Outcome.next (if_pos ?_)
    rcases h with h | h
    · simp [h]
    · simp [Option.isSome_iff_ne_none.2 h]
  · refine ⟨_, congrArg Host.Outcome.next (if_neg (by simp [htrained, halert])), State.dramAt_upd_self _ _ _, fun n hn => State.dramAt_upd_other _ _ hn, rfl⟩
  · rw [exec_replay, if_pos (by simp [h])]
  · change execAlertTimeout c s = _
    unfold execAlertTimeout
    dsimp only
    rw [h]
  · change execRecentringEnd c ok s = _
    unfold execRecentringEnd
    dsimp only
    rw [h]
  · obtain ⟨t, ht, h1, h2, h3⟩ := recentringEnd_clause ok h
    exact ⟨t, ht, h1, h2, h3, fun a q l hw hb ha hd hj hc hok h2 hf => recentringWrite_clause ok h ht hw hb ha hd hj hc hok h2 hf⟩
  · exact ⟨_, congrArg Host.Outcome.next (if_pos h), State.dramAt_upd_self _ _ _, fun n hn => State.dramAt_upd_other _ _ hn, rfl⟩
  · exact congrArg Host.Outcome.next (if_neg (by simp [h]))
  · exact congrArg Host.Outcome.next (if_pos h)

end Sys2Proof.Machine
end

section
/-! ### The steps of the boot sequencer (O59) -/
open Sys2Proof Sys2Proof.Machine
namespace Sys2Proof.Machine

/-! ### BOOT_STEP and what follows it (R368, R371, R379) -/

/-- What step i shows of itself apart from its attempts. -/
def stepJudged (i : Nat) : List (Nat × Fld) :=
  [(pBOOT, bootFld i), (pBOOT, R.BOOT_DONE_T.nth 4 i), (pBOOT, R.BOOT_STAT_READY), (pBOOT, R.BOOT_STAT_DONE), (pBOOT, R.BOOT_STAT_RETRYING)] ++
    errFields pBOOT
theorem stepJudged_fields (i : Nat) : stepJudged i ⊆ stepFields i := by
  simp [stepJudged, stepFields]
theorem stepTry_fields (i : Nat) : [(pBOOT, R.BOOT_TRY.nth 4 i)] ⊆ stepFields i := by
  simp [stepFields]
theorem bootErr_judged (i : Nat) : errFields pBOOT ⊆ stepJudged i := List.subset_append_right _ _
theorem bootTry_apart : ∀ i < 8, ∀ j < 8, ∀ e ∈ stepJudged i, (R.BOOT_TRY.nth 4 j).id ≠ e.2.id := by decide
theorem bootFld_apart : ∀ i < 8, ∀ j < 8, j ≠ i → ∀ e ∈ stepJudged i, (bootFld j).id ≠ e.2.id := by decide
theorem bootFld_notTry : ∀ i < 8, ∀ j < 8, (bootFld j).id ≠ (R.BOOT_TRY.nth 4 i).id := by decide
theorem bootFld_notShown : ∀ j < 8, (bootFld j).id ≠ R.PG_IRQ_RAW.id ∧ (bootFld j).id ≠ R.BOOT_STAT_READY.id ∧
    (bootFld j).id ≠ R.BOOT_STAT_DONE.id ∧ (bootFld j).id ≠ R.BOOT_STAT_RETRYING.id ∧ (∀ i < 8, (bootFld j).id ≠ (R.BOOT_DONE_T.nth 4 i).id) := by decide
/-- A step that touches what step i shows, clears no cause of BOOT, and leaves of the sequencer's own state all but READY's memory. -/
structure State.stepShows (s t : State) (i : Nat) : Prop where
  but : s.regsBut t (stepJudged i)
  raw : ∀ j < 32, bit (s.get pBOOT R.PG_IRQ_RAW) j = true → bit (t.get pBOOT R.PG_IRQ_RAW) j = true
  shape : ∃ r q w, t = { s with regs := r, boot := { s.boot with readyOnce := q }, host := { s.host with waiting := w } }
theorem State.stepShows_refl (s : State) (i : Nat) : s.stepShows s i := ⟨s.regsBut_refl _, fun _ _ h => h, s.regs, s.boot.readyOnce, s.host.waiting, rfl⟩
theorem State.stepShows.trans {s t u : State} {i : Nat} (h : s.stepShows t i) (k : t.stepShows u i) : s.stepShows u i := by
  refine ⟨State.regsBut_trans h.but k.but, fun j hj hb => k.raw j hj (h.raw j hj hb), ?_⟩
  obtain ⟨r, q, w, ht⟩ := h.shape
  obtain ⟨r', q', w', hu⟩ := k.shape
  exact ⟨r', q', w', by rw [hu, ht]⟩
theorem State.stepShows_set (s : State) {i : Nat} {f : Fld} (v : Nat) (hf : (pBOOT, f) ∈ stepJudged i) (hraw : R.PG_IRQ_RAW.id ≠ f.id) :
    s.stepShows (s.set pBOOT f v) i :=
  ⟨State.regsBut_set (s.regsBut_refl _) _ hf, fun j _ hb => by rwa [State.get_set_field _ _ _ hraw], _, _, _, rfl⟩
theorem State.stepShows_cause (s : State) (i k : Nat) : s.stepShows (s.cause pBOOT k) i := by
  refine ⟨State.regsBut_cause (s.regsBut_refl _) k (by simp [stepJudged, errFields]), fun j hj hb => s.bit_cause_keeps hj hb, ?_⟩
  obtain ⟨r, w, h⟩ := s.reports_cause pBOOT k
  exact ⟨r, s.boot.readyOnce, w, h⟩
theorem State.stepShows_err (s : State) (i code step addr : Nat) : s.stepShows (s.bootErr code step addr) i := by
  refine ⟨State.regsBut_err (s.regsBut_refl _) _ _ _ _ _ _ (bootErr_judged i), fun j hj hb => ?_, ?_⟩
  · unfold State.bootErr State.err
    split
    · exact hb
    · refine State.bit_cause_keeps _ hj ?_
      rwa [State.errCount_keeps _ _ _ _ _ _ (by decide)]
  · obtain ⟨r, w, h⟩ := s.reports_err pBOOT code step addr 0 0
    exact ⟨r, s.boot.readyOnce, w, h⟩
theorem State.stepShows_ready (s : State) (i : Nat) : s.stepShows (s.updBoot fun b => { b with readyOnce := true }) i :=
  ⟨s.regsBut_refl _, fun _ _ h => h, s.regs, true, s.host.waiting, rfl⟩
theorem State.stepShows_bootStat (s : State) (i : Nat) : s.stepShows s.bootStat i := by
  have hset : ∀ x y z, s.stepShows (((s.setFlag pBOOT R.BOOT_STAT_READY x).setFlag pBOOT R.BOOT_STAT_DONE y).setFlag pBOOT R.BOOT_STAT_RETRYING z) i :=
    fun x y z => ((s.stepShows_set _ (by simp [stepJudged]) (by decide)).trans (State.stepShows_set _ _ (by simp [stepJudged]) (by decide))).trans
      (State.stepShows_set _ _ (by simp [stepJudged]) (by decide))
  unfold State.bootStat
  dsimp only
  split
  · exact ((hset _ _ _).trans (State.stepShows_ready _ i)).trans (State.stepShows_cause _ i 4)
  · exact hset _ _ _
theorem State.bootStep_bootStat (s : State) {j : Nat} (hj : j < 8) : s.bootStat.bootStep j = s.bootStep j := by
  obtain ⟨h1, h2, h3, h4, -⟩ := bootFld_notShown j hj
  have hset : ∀ x y z, (((s.setFlag pBOOT R.BOOT_STAT_READY x).setFlag pBOOT R.BOOT_STAT_DONE y).setFlag pBOOT R.BOOT_STAT_RETRYING z).get pBOOT (bootFld j) =
      s.get pBOOT (bootFld j) := fun x y z => by
    rw [State.get_setFlag_field _ _ _ h4, State.get_setFlag_field _ _ _ h3, State.get_setFlag_field _ _ _ h2]
  unfold State.bootStat State.bootStep
  dsimp only
  split
  · rw [State.get_cause_field _ _ _ h1, State.get_updBoot, hset]
  · rw [hset]
theorem State.setStep_spec (s : State) {i v : Nat} (hi : i < 8) (hv : v < 8) {t : State} (ht : s.setStep i v = t) : s.stepShows t i ∧ t.bootStep i = v := by
  unfold State.setStep at ht
  split at ht
  next h => exact ⟨ht ▸ s.stepShows_refl i, by rw [← ht, h]⟩
  · obtain ⟨u, hu⟩ : ∃ u, (s.set pBOOT (bootFld i) v).cause pBOOT 3 = u := ⟨_, rfl⟩
    obtain ⟨h1, -, -, -, h5⟩ := bootFld_notShown i hi
    have hraw : R.PG_IRQ_RAW.id ≠ (bootFld i).id := fun h => h1 h.symm
    have hsu : s.stepShows u i := hu ▸ (s.stepShows_set v (by simp [stepJudged]) hraw).trans (State.stepShows_cause _ i 3)
    have hstep : u.bootStep i = v := by
      rw [← hu]
      unfold State.bootStep
      rw [State.get_cause_field _ _ _ h1, State.get_set_self]
      exact Nat.mod_eq_of_lt hv
    have hdone : ∀ w, u.stepShows (u.set pBOOT (R.BOOT_DONE_T.nth 4 i) w) i ∧ (u.set pBOOT (R.BOOT_DONE_T.nth 4 i) w).bootStep i = v := fun w => by
      refine ⟨u.stepShows_set w (by simp [stepJudged]) ?_, ?_⟩
      · have hall : ∀ k < 8, R.PG_IRQ_RAW.id ≠ (R.BOOT_DONE_T.nth 4 k).id := by decide
        exact hall i hi
      · unfold State.bootStep
        rw [State.get_set_field _ _ _ (h5 i hi)]
        exact hstep
    dsimp only at ht
    rw [hu] at ht
    split at ht
    · obtain ⟨hd, hdv⟩ := hdone (s.osc * 64 / 10000)
      subst ht
      exact ⟨(hsu.trans hd).trans (State.stepShows_bootStat _ i), (State.bootStep_bootStat _ hi).trans hdv⟩
    · subst ht
      exact ⟨hsu.trans (u.stepShows_bootStat i), (u.bootStep_bootStat hi).trans hstep⟩
section
variable {s t : State} {i : Nat} (h : s.stepShows t i)
include h
theorem State.stepShows.try (hi : i < 8) {j : Nat} (hj : j < 8) : t.get pBOOT (R.BOOT_TRY.nth 4 j) = s.get pBOOT (R.BOOT_TRY.nth 4 j) :=
  h.but.field (bootTry_apart i hi j hj) _
theorem State.stepShows.other (hi : i < 8) {j : Nat} (hj : j < 8) (hne : j ≠ i) : t.bootStep j = s.bootStep j := h.but.field (bootFld_apart i hi j hj hne) _
theorem State.stepShows.rest : ({ t with regs := s.regs, boot := s.boot, host := s.host } : State) = s := by
  obtain ⟨r, q, w, ht⟩ := h.shape
  rw [ht]
theorem State.stepShows.boot : ∃ q, t.boot = { s.boot with readyOnce := q } := by
  obtain ⟨r, q, w, ht⟩ := h.shape
  exact ⟨q, by rw [ht]⟩
theorem State.stepShows.hold : t.hold = s.hold := by
  obtain ⟨r, q, w, ht⟩ := h.shape
  rw [ht]
  rfl
theorem State.stepShows.page {p : Nat} (hp : p ≠ pBOOT) (f : Fld) : t.get p f = s.get p f :=
  h.but p f fun e he => Or.inl (by
    have hpage : e.1 = pBOOT := by
      simp only [stepJudged, errFields, List.cons_append, List.nil_append, List.mem_cons, List.not_mem_nil, or_false] at he
      rcases he with rfl | rfl | rfl | rfl | rfl | rfl | rfl | rfl | rfl | rfl | rfl | rfl <;> rfl
    rwa [hpage])
end

/-! ### Attempts (R369) -/

/-- The attempt of a step that has begun. -/
theorem State.stepBegin_spec (s : State) {i : Nat} (hi : i < 8) {t : State} (ht : s.stepBegin i = t) :
    s.regsBut t [(pBOOT, R.BOOT_TRY.nth 4 i)] ∧ t.get pBOOT (R.BOOT_TRY.nth 4 i) = min (s.get pBOOT (R.BOOT_TRY.nth 4 i) + 1) (2 ^ 32 - 1) ∧
    (∃ r, t = { s with regs := r, boot := { s.boot with attempt := setBit s.boot.attempt i false } }) ∧ bit t.boot.attempt i = false ∧
    ∀ j < 8, t.bootStep j = s.bootStep j := by
  have hbut : s.regsBut t [(pBOOT, R.BOOT_TRY.nth 4 i)] := ht ▸ State.regsBut_of_regs (State.regsBut_incSat (s.regsBut_refl _) (by simp)) rfl
  refine ⟨hbut, ?_, ⟨(s.tryStep i).regs, ht ▸ rfl⟩, ?_, fun j hj => hbut.field (by simpa using bootFld_notTry i hi j hj) _⟩
  · rw [← ht]
    exact s.get_incSat_self _ _
  · rw [← ht]
    exact (bit_setBit _ _ _ _).trans (if_pos rfl)
theorem State.frozen_boot {s t : State} (h : t.get pBOOT R.PG_FENCE_FENCED = s.get pBOOT R.PG_FENCE_FENCED) (hf : s.fenced pBOOT = false) :
    t.frozen pBOOT = false := State.frozen_of_unfenced (by
  unfold State.fenced State.flag at hf ⊢
  rwa [h])
/-- A step that fails goes to RETRY, its next attempt due after the interval. -/
theorem State.stepFail_spec (s : State) {i : Nat} (hi : i < 8) (code addr : Nat) {t : State} (ht : s.stepFail i code addr = t) :
    s.regsBut t (stepJudged i) ∧ t.bootStep i = 3 ∧ t.boot.dueAt.getD i 0 = s.osc + msTicks (s.boot.interval.getD i s.backMin) ∧
    t.boot.interval.getD i 0 = min s.backMax (2 * s.boot.interval.getD i s.backMin) ∧
    (s.fenced pBOOT = false → bit (t.get pBOOT R.PG_IRQ_RAW) 1 = true) ∧
    ∃ r q d v w, t = { s with
      regs := r, boot := { s.boot with readyOnce := q, dueAt := d, interval := v }, host := { s.host with waiting := w } } := by
  obtain ⟨e, he⟩ : ∃ e, s.bootErr code i addr = e := ⟨_, rfl⟩
  have hse : s.stepShows e i := he ▸ s.stepShows_err i code i addr
  obtain ⟨u, hu⟩ : ∃ u, e.setStep i 3 = u := ⟨_, rfl⟩
  obtain ⟨heu, hthree⟩ := e.setStep_spec hi (by decide) hu
  have hsu := hse.trans heu
  have hmin : u.backMin = s.backMin := by
    unfold State.backMin
    rw [hsu.but.field (f := R.BOOT_BACKOFF_MIN) ((by decide : ∀ i < 8, ∀ e ∈ stepJudged i, R.BOOT_BACKOFF_MIN.id ≠ e.2.id) i hi)]
  have hmax : u.backMax = s.backMax := by
    unfold State.backMax
    rw [hmin, hsu.but.field (f := R.BOOT_BACKOFF_MAX) ((by decide : ∀ i < 8, ∀ e ∈ stepJudged i, R.BOOT_BACKOFF_MAX.id ≠ e.2.id) i hi)]
  have hint : u.boot.interval = s.boot.interval := by
    obtain ⟨q, hq⟩ := hsu.boot
    rw [hq]
  have hosc : u.osc = s.osc := by
    obtain ⟨r, q, w, h⟩ := hsu.shape
    rw [h]
  unfold State.stepFail at ht
  rw [he, hu] at ht
  subst ht
  refine ⟨hsu.but, hthree, ?_, ?_, fun hf => ?_, ?_⟩
  · unfold State.backOff
    dsimp only [State.updBoot]
    rw [NMap.getD_put_self, hmin, hint, hosc]
  · unfold State.backOff
    dsimp only [State.updBoot]
    rw [NMap.getD_put_self, hmin, hmax, hint]
  · exact heu.raw 1 (by decide) (he ▸ s.bit_err (State.frozen_boot rfl hf) _ _ _ _ _)
  · obtain ⟨r, q, w, h⟩ := hsu.shape
    refine ⟨r, q, (u.backOff i).boot.dueAt, (u.backOff i).boot.interval, w, ?_⟩
    unfold State.backOff State.updBoot
    dsimp only
    rw [h]
/-- A step that is done. -/
theorem State.stepDone_spec (s : State) {i : Nat} (hi : i < 8) {t : State} (ht : s.stepDone i = t) :
    s.regsBut t (stepJudged i) ∧ t.bootStep i = 2 ∧ t.boot.dueAt.has i = false ∧ t.boot.interval.has i = false ∧
    (∀ j < 32, bit (s.get pBOOT R.PG_IRQ_RAW) j = true → bit (t.get pBOOT R.PG_IRQ_RAW) j = true) ∧
    ∃ r q d v w, t = { s with
      regs := r, boot := { s.boot with readyOnce := q, dueAt := d, interval := v }, host := { s.host with waiting := w } } := by
  obtain ⟨h, htwo⟩ := (s.backOk i).setStep_spec hi (v := 2) (by decide) ht
  obtain ⟨r, q, w, hshape⟩ := h.shape
  refine ⟨h.but, htwo, ?_, ?_, h.raw, r, q, NMap.del s.boot.dueAt i, NMap.del s.boot.interval i, w, hshape⟩
  · rw [hshape]
    exact NMap.has_del_self _ _
  · rw [hshape]
    exact NMap.has_del_self _ _

/-! ### What every step of the sequencer answers -/

/-- What every attempt leaves: its count, and the memories of the first six. -/
def attempted (s t : State) (i : Nat) : Prop :=
  t.flash = s.flash ∧ t.pending = s.pending ∧
    (i ≠ 6 ∨ s.bootStep 6 = 0 → t.get pBOOT (R.BOOT_TRY.nth 4 i) = min (s.get pBOOT (R.BOOT_TRY.nth 4 i) + 1) (2 ^ 32 - 1)) ∧
    (i = 6 → s.bootStep 6 ≠ 0 → ∀ n, n = ((List.range 4).filter fun j => bit s.boot.chTry j).length →
      t.get pBOOT (R.BOOT_TRY.nth 4 6) = min (s.get pBOOT (R.BOOT_TRY.nth 4 6) + max 1 n) (2 ^ 32 - 1)) ∧
    bit t.boot.attempt i = false ∧ (i < 6 → s.sameMemory t)
/-- An attempt whose further steps leave its count and the memories. -/
theorem attempted_of {s t : State} {i : Nat} (hi : i < 8) (hsix : i ≠ 6) (htry : t.get pBOOT (R.BOOT_TRY.nth 4 i) = (s.stepBegin i).get pBOOT (R.BOOT_TRY.nth 4 i))
    (hattempt : t.boot.attempt = (s.stepBegin i).boot.attempt) (hflash : t.flash = s.flash) (hpend : t.pending = s.pending)
    (hhold : i < 6 → t.hold = s.hold) : attempted s t i := by
  obtain ⟨-, hcount, -, hbit, -⟩ := s.stepBegin_spec hi rfl
  exact ⟨hflash, hpend, fun _ => htry.trans hcount, fun h => absurd h hsix, by rw [hattempt]; exact hbit, fun h => sameMemory_of_hold (hhold h)⟩
theorem attempted_hold {s t : State} {i : Nat} (hi : i < 6) (htry : t.get pBOOT (R.BOOT_TRY.nth 4 i) = (s.stepBegin i).get pBOOT (R.BOOT_TRY.nth 4 i))
    (hattempt : t.boot.attempt = (s.stepBegin i).boot.attempt) (hhold : t.hold = s.hold) : attempted s t i := by
  have h := hhold
  simp only [State.hold, Prod.mk.injEq] at h
  obtain ⟨hpend, -, -, -, hflash⟩ := h
  exact attempted_of (by omega) (by omega) htry hattempt hflash hpend fun _ => hhold
theorem State.hold_stepBegin (s : State) (i : Nat) : (s.stepBegin i).hold = s.hold := rfl
/-- A failing attempt of step i. -/
theorem stepFails_begun (s : State) {i : Nat} (hi : i < 6) (code addr : Nat) {t : State} (ht : (s.stepBegin i).stepFail i code addr = t) :
    attempted s t i ∧ stepFails s t i ∧ t.pll = s.pll ∧ t.boot.flash = s.boot.flash := by
  have h8 : i < 8 := by omega
  obtain ⟨b, hb⟩ : ∃ b, s.stepBegin i = b := ⟨_, rfl⟩
  obtain ⟨hbut, -, ⟨r, hshape⟩, -⟩ := s.stepBegin_spec h8 hb
  rw [hb] at ht
  obtain ⟨hfbut, hthree, hdue, hint, hraw, r', q, d, v, w, hf⟩ := b.stepFail_spec h8 code addr ht
  have hmin : b.backMin = s.backMin := by
    unfold State.backMin
    rw [hbut.field (f := R.BOOT_BACKOFF_MIN) ((by decide : ∀ i < 8, ∀ e ∈ [(pBOOT, R.BOOT_TRY.nth 4 i)], R.BOOT_BACKOFF_MIN.id ≠ e.2.id) i h8)]
  have hmax : b.backMax = s.backMax := by
    unfold State.backMax
    rw [hmin, hbut.field (f := R.BOOT_BACKOFF_MAX) ((by decide : ∀ i < 8, ∀ e ∈ [(pBOOT, R.BOOT_TRY.nth 4 i)], R.BOOT_BACKOFF_MAX.id ≠ e.2.id) i h8)]
  have hfence : b.fenced pBOOT = s.fenced pBOOT := by
    unfold State.fenced State.flag
    rw [hbut.field (f := R.PG_FENCE_FENCED) ((by decide : ∀ i < 8, ∀ e ∈ [(pBOOT, R.BOOT_TRY.nth 4 i)], R.PG_FENCE_FENCED.id ≠ e.2.id) i h8)]
  have hbi : b.boot.interval = s.boot.interval ∧ b.osc = s.osc := by
    rw [hshape]
    exact ⟨rfl, rfl⟩
  refine ⟨attempted_hold hi ?_ (by rw [hf, hb]) (by rw [hf, hshape]; rfl), ⟨hthree, ?_, ?_, fun h => hraw (hfence.trans h), ?_, ?_⟩, by rw [hf, hshape],
    by rw [hf, hshape]⟩
  · rw [hb]
    exact hfbut.field (bootTry_apart i h8 i h8) _
  · rw [hdue, hbi.1, hbi.2, hmin]
  · rw [hint, hbi.1, hmin, hmax]
  · exact State.regsBut_trans (State.regsBut_mono hbut (stepTry_fields i)) (State.regsBut_mono hfbut (stepJudged_fields i))
  · rw [hf, hshape]
end Sys2Proof.Machine
end

section
/-! ### Searches of the boot sequencer and step CLK (O59) -/
open Sys2Proof Sys2Proof.Machine
namespace Sys2Proof.Machine

/-! ### Searches for the sequencer (R332, R368) -/

theorem State.working_of {s t : State} {p : Nat} (hs : t.srsts = s.srsts) (hh : t.heldReset = s.heldReset)
    (hen : t.get p R.PG_CTRL_EN = s.get p R.PG_CTRL_EN) (hfen : t.get p R.PG_FENCE_FENCED = s.get p R.PG_FENCE_FENCED)
    (hshut : t.get pTHERM R.THERM_STAT_SHUT = s.get pTHERM R.THERM_STAT_SHUT) : t.working p = s.working p := by
  simp only [State.working, State.enabled, State.fenced, State.resetting, State.held, State.shut, State.flag, hen, hfen, hshut, hs, hh]
/-- A search of the sequencer on lane l. -/
theorem State.searchStart_boot (s : State) (l : Nat) {t : State} (ht : s.searchStart l true = t) : ∃ u, s.laneMoves u l ∧
    t = { u with boot := { u.boot with searching := u.boot.searching.filter (· != l) ++ [l] } } ∧
    (u.laneAt l).st = 2 ∧ (u.laneAt l).bootSearch = true ∧ (u.laneAt l).txIdle = (s.laneAt l).txIdle := by
  obtain ⟨v, hv⟩ : ∃ v, s.setLane l 2 = v := ⟨_, rfl⟩
  obtain ⟨hmoves, htwo, ⟨st, sc, cs, cr, hbeside⟩, -⟩ := s.setLane_spec l 2 hv
  obtain ⟨u, hu⟩ : ∃ u, (v.dropLock l).updLane l (fun x => { x with
    bootSearch := true, stepsLeft := 66 * max 1 (s.get (pLANE l) R.LANE_SYNC_TRIES), stepAt := s.tick }) = u := ⟨_, rfl⟩
  have hat : u.laneAt l = { v.laneAt l with
      block := false, good := 0, bad := [], bootSearch := true
      stepsLeft := 66 * max 1 (s.get (pLANE l) R.LANE_SYNC_TRIES), stepAt := s.tick } := by
    rw [← hu, State.laneAt_upd_self, State.dropLock, State.laneAt_upd_self]
  refine ⟨u, ?_, ?_, by rw [hat]; exact htwo, by rw [hat], by rw [hat]; dsimp only; rw [hbeside]⟩
  · rw [← hu]
    exact (hmoves.trans (v.laneMoves_dropLock l)).trans (State.laneMoves_updLane _ l _)
  · unfold State.searchStart at ht
    dsimp only at ht
    rw [hv, hu, if_pos rfl] at ht
    exact ht.symm
/-- Lanes that are searched for the sequencer: only their state and their causes move. -/
structure State.searched (s t : State) : Prop where
  regs : ∀ q (f : Fld), f.id ≠ R.PG_IRQ_RAW.id → t.get q f = s.get q f
  idle : ∀ n, (t.laneAt n).txIdle = (s.laneAt n).txIdle
  shape : ∃ r a h c w b, t = { s with
    regs := r, lane := a, head := h, calst := c, host := { s.host with waiting := w }, boot := { s.boot with searching := b } }
theorem State.searched_refl (s : State) : s.searched s :=
  ⟨fun _ _ _ => rfl, fun _ => rfl, s.regs, s.lane, s.head, s.calst, s.host.waiting, s.boot.searching, rfl⟩
theorem State.searched.trans {s t u : State} (h : s.searched t) (k : t.searched u) : s.searched u := by
  refine ⟨fun q f hf => (k.regs q f hf).trans (h.regs q f hf), fun n => (k.idle n).trans (h.idle n), ?_⟩
  obtain ⟨r, a, x, c, w, b, ht⟩ := h.shape
  obtain ⟨r', a', x', c', w', b', hu⟩ := k.shape
  exact ⟨r', a', x', c', w', b', by rw [hu, ht]⟩
theorem State.laneMoves.regs {s t : State} {l : Nat} (h : s.laneMoves t l) (q : Nat) {f : Fld} (hf : f.id ≠ R.PG_IRQ_RAW.id) : t.get q f = s.get q f :=
  h.but.field (by simpa using hf) q
theorem State.laneMoves.working {s t : State} {l : Nat} (h : s.laneMoves t l) (p : Nat) : t.working p = s.working p := by
  obtain ⟨r, a, x, c, w, ht⟩ := h.shape
  exact State.working_of (by rw [ht]) (by rw [ht]) (h.regs _ (by decide)) (h.regs _ (by decide)) (h.regs _ (by decide))
theorem State.searched.working {s t : State} (h : s.searched t) (p : Nat) : t.working p = s.working p := by
  obtain ⟨r, a, x, c, w, b, ht⟩ := h.shape
  exact State.working_of (by rw [ht]) (by rw [ht]) (h.regs _ _ (by decide)) (h.regs _ _ (by decide)) (h.regs _ _ (by decide))
/-- A lane comes up again after a loss of the PLL. -/
def State.laneAgain (t : State) (l : Nat) : State := if (t.laneAt l).st = 1 && t.working (pLANE l) then t.searchStart l true else t
theorem State.laneAgain_spec (s : State) (l : Nat) {t : State} (ht : s.laneAgain l = t) : s.searched t ∧ (∀ n, n ≠ l → t.laneAt n = s.laneAt n) ∧
    ((s.laneAt l).st = 1 → s.working (pLANE l) = true → (t.laneAt l).st = 2) := by
  unfold State.laneAgain at ht
  by_cases hc : (s.laneAt l).st = 1 ∧ s.working (pLANE l) = true
  · rw [if_pos (by simpa using hc)] at ht
    obtain ⟨u, hmoves, hu, htwo, -, hidle⟩ := s.searchStart_boot l ht
    have hat : ∀ n, t.laneAt n = u.laneAt n := fun n => by rw [hu]; rfl
    refine ⟨⟨fun q f hf => ?_, fun n => ?_, ?_⟩, fun n hn => (hat n).trans (hmoves.others n hn), fun _ _ => by rw [hat, htwo]⟩
    · rw [hu]
      exact hmoves.regs q hf
    · rw [hat]
      by_cases hn : n = l
      · rw [hn, hidle]
      · rw [hmoves.others n hn]
    · obtain ⟨r, a, x, c, w, hshape⟩ := hmoves.shape
      exact ⟨r, a, x, c, w, _, by rw [hu, hshape]⟩
  · rw [if_neg (by simpa using hc)] at ht
    subst ht
    exact ⟨s.searched_refl, fun _ _ => rfl, fun h k => absurd ⟨h, k⟩ hc⟩
theorem State.lanesAgain_spec (m : List Nat) (hm : m.Nodup) (s : State) {t : State} (ht : m.foldl State.laneAgain s = t) :
    s.searched t ∧ (∀ n, n ∉ m → t.laneAt n = s.laneAt n) ∧ ∀ n ∈ m, (s.laneAt n).st = 1 → s.working (pLANE n) = true → (t.laneAt n).st = 2 := by
  induction m generalizing s with
  | nil =>
    subst ht
    exact ⟨s.searched_refl, fun _ _ => rfl, fun _ h => absurd h List.not_mem_nil⟩
  | cons l m ih =>
    obtain ⟨hl, hm⟩ := List.nodup_cons.mp hm
    obtain ⟨h1, h2, h3⟩ := s.laneAgain_spec l rfl
    obtain ⟨k1, k2, k3⟩ := ih hm _ ht
    refine ⟨h1.trans k1, fun n hn => ?_, fun n hn hst hw => ?_⟩
    · obtain ⟨hnl, hnm⟩ := not_or.mp (mt List.mem_cons.mpr hn)
      exact (k2 n hnm).trans (h2 n hnl)
    · rcases List.mem_cons.mp hn with rfl | hn
      · rw [k2 n hl]
        exact h3 hst hw
      · have hnl : n ≠ l := fun h => hl (h ▸ hn)
        exact k3 n hn (by rwa [h2 n hnl]) (by rwa [h1.working])
/-- Lanes that leave the electrical idle of a lost PLL. -/
def State.laneWoken (t : State) (l : Nat) : State := t.updLane l fun x => { x with txIdle := false }
theorem State.lanesWoken_spec (m : List Nat) (s : State) {t : State} (ht : m.foldl State.laneWoken s = t) :
    (∃ a, t = { s with lane := a }) ∧ (∀ n, (t.laneAt n).st = (s.laneAt n).st) ∧
    ∀ n, (n ∈ m ∨ (s.laneAt n).txIdle = false) → (t.laneAt n).txIdle = false := by
  induction m generalizing s with
  | nil =>
    subst ht
    exact ⟨⟨s.lane, rfl⟩, fun _ => rfl, fun n h => h.resolve_left List.not_mem_nil⟩
  | cons l m ih =>
    obtain ⟨⟨a, ha⟩, hst, hidle⟩ := ih _ ht
    refine ⟨⟨a, ha⟩, fun n => (hst n).trans ?_, fun n hn => hidle n ?_⟩
    · by_cases hl : n = l
      · rw [hl, State.laneWoken, State.laneAt_upd_self]
      · rw [State.laneWoken, State.laneAt_upd_other _ _ hl]
    · by_cases hl : n = l
      · right
        rw [hl, State.laneWoken, State.laneAt_upd_self]
      · rw [State.laneWoken, State.laneAt_upd_other _ _ hl]
        exact hn.imp_left fun h => (List.mem_cons.mp h).resolve_left hl

/-! ### Step CLK (R367, R368, R383) -/

/-- A change of the pair's state. -/
theorem State.setPairState_enters (s : State) {v : Nat} (hv : v < 8) {t : State} (ht : s.setPairState v = t) : t.get pPAIR R.PAIR_STAT_STATE = v ∧
    s.regsBut t [(pPAIR, R.PAIR_STAT_STATE), (pPAIR, R.PG_IRQ_RAW)] ∧
    ∃ r g w, t = { s with regs := r, pair := { s.pair with gaveUp := g }, host := { s.host with waiting := w } } := by
  unfold State.setPairState at ht
  split at ht
  next h =>
    subst ht
    exact ⟨h, s.regsBut_refl _, s.regs, s.pair.gaveUp, s.host.waiting, rfl⟩
  · obtain ⟨g, u, hu⟩ : ∃ g u, u = ((s.set pPAIR R.PAIR_STAT_STATE v).updPair fun p => { p with gaveUp := g }) ∧ u.cause pPAIR 3 = t := ⟨_, _, rfl, ht⟩
    obtain ⟨hu, ht⟩ := hu
    have hbut : s.regsBut u [(pPAIR, R.PAIR_STAT_STATE), (pPAIR, R.PG_IRQ_RAW)] :=
      hu ▸ State.regsBut_of_regs (State.regsBut_set (s.regsBut_refl _) v (by simp)) rfl
    refine ⟨?_, ht ▸ State.regsBut_cause hbut 3 (by simp), ?_⟩
    · rw [← ht, State.get_cause_field _ _ _ (by decide), hu]
      exact (State.get_set_self _ _ _ _).trans (Nat.mod_eq_of_lt (lt_of_lt_of_le hv (by decide)))
    · obtain ⟨r, w, h⟩ := u.reports_cause pPAIR 3
      refine ⟨r, g, w, ?_⟩
      rw [← ht, h, hu]
      rfl
theorem relockLanes_nodup : (List.range 128 ++ (List.range 4).map (132 + ·)).Nodup := by
  decide +kernel
theorem mem_relockLanes {l : Nat} : l ∈ List.range 128 ++ (List.range 4).map (132 + ·) ↔ l < 128 ∨ (132 ≤ l ∧ l < 136) := by
  simp only [List.mem_append, List.mem_range, List.mem_map]
  refine or_congr Iff.rfl ⟨?_, fun h => ⟨l - 132, by omega, by omega⟩⟩
  rintro ⟨a, ha, rfl⟩
  omega
/-- The lanes and the pair after the PLL has locked again. -/
theorem State.relock_spec (s : State) {t : State} (ht : s.relock = t) :
    (∀ q (f : Fld), f.id ≠ R.PG_IRQ_RAW.id → (q ≠ pPAIR ∨ f.id ≠ R.PAIR_STAT_STATE.id) → t.get q f = s.get q f) ∧
    (∃ r a h c w b p, t = { s with
      regs := r, lane := a, head := h, calst := c, host := { s.host with waiting := w }, boot := { s.boot with searching := b }, pair := p }) ∧
    t.pair.pllLost = false ∧ (∀ l < 160, (t.laneAt l).txIdle = false) ∧
    (∀ l, l < 128 ∨ (132 ≤ l ∧ l < 136) → (s.laneAt l).st = 1 → s.working (pLANE l) = true → (t.laneAt l).st = 2) ∧
    (s.pairOn = true → t.get pPAIR R.PAIR_STAT_STATE = 2) := by
  obtain ⟨u, hu⟩ : ∃ u, (List.range 160).foldl State.laneWoken s = u := ⟨_, rfl⟩
  obtain ⟨⟨a, ha⟩, hst, hidle⟩ := State.lanesWoken_spec _ s hu
  obtain ⟨v, hv⟩ : ∃ v, (List.range 128 ++ (List.range 4).map (132 + ·)).foldl State.laneAgain u = v := ⟨_, rfl⟩
  obtain ⟨hsearched, -, hlanes⟩ := State.lanesAgain_spec _ relockLanes_nodup u hv
  have hget : ∀ q (f : Fld), f.id ≠ R.PG_IRQ_RAW.id → v.get q f = s.get q f := fun q f hf => by
    rw [hsearched.regs q f hf, ha]
    rfl
  obtain ⟨r, a', x, c, w, b, hshape⟩ := hsearched.shape
  have hwork : ∀ p, u.working p = s.working p := fun p => by
    rw [ha]
    rfl
  have hlane : ∀ l, l < 128 ∨ (132 ≤ l ∧ l < 136) → (s.laneAt l).st = 1 → s.working (pLANE l) = true → (v.laneAt l).st = 2 := fun l hl h1 hw =>
    hlanes l (mem_relockLanes.mpr hl) ((hst l).trans h1) ((hwork _).trans hw)
  have hwoken : ∀ l < 160, (v.laneAt l).txIdle = false := fun l hl => (hsearched.idle l).trans (hidle l (Or.inl (List.mem_range.mpr hl)))
  obtain ⟨y, hy⟩ : ∃ y, (v.updPair fun p => { p with pllLost := false }) = y := ⟨_, rfl⟩
  have hpair : y.pairOn = s.pairOn := by
    have hworking : y.working pPAIR = s.working pPAIR := by
      rw [← hy]
      exact (hsearched.working pPAIR).trans (hwork pPAIR)
    unfold State.pairOn
    rw [hworking, ← hy]
    dsimp only [State.updPair]
    rw [hshape, ha]
  have htt : (if y.pairOn then (y.updPair fun p => { p with waitSince := y.tick }).setPairState 2 else y) = t := by
    rw [← ht, ← hy, ← hv, ← hu]
    rfl
  have hyget : ∀ q f, y.get q f = v.get q f := fun q f => by
    rw [← hy]
    rfl
  have hylane : ∀ n, y.laneAt n = v.laneAt n := fun n => by
    rw [← hy]
    rfl
  split at htt
  next hon =>
    obtain ⟨htwo, hbut, r2, g2, w2, h2⟩ := State.setPairState_enters _ (by decide) htt
    have htlane : ∀ n, t.laneAt n = v.laneAt n := fun n => by
      rw [h2]
      exact hylane n
    refine ⟨fun q f hf hq => ?_, ?_, by rw [h2, ← hy]; rfl, fun l hl => by rw [htlane]; exact hwoken l hl, fun l hl h1 hw => by
      rw [htlane]; exact hlane l hl h1 hw, fun _ => htwo⟩
    · exact (hbut q f (by simpa [hf] using hq)).trans ((hyget q f).trans (hget q f hf))
    · exact ⟨r2, a', x, c, w2, b, t.pair, by
        rw [h2, ← hy]
        unfold State.updPair
        dsimp only
        rw [hshape, ha]⟩
  next hoff =>
    subst htt
    refine ⟨fun q f hf _ => (hyget q f).trans (hget q f hf), ?_, by rw [← hy]; rfl, fun l hl => by rw [hylane]; exact hwoken l hl, fun l hl h1 hw => by
      rw [hylane]; exact hlane l hl h1 hw, fun h => absurd (hpair.trans h) hoff⟩
    exact ⟨r, a', x, c, w, b, y.pair, by
      rw [← hy]
      unfold State.updPair
      dsimp only
      rw [hshape, ha]⟩
end Sys2Proof.Machine
end

section
/-! ### The foreground steps: CLK, FLASH, BOARD and PROF (O59) -/
open Sys2Proof Sys2Proof.Machine
namespace Sys2Proof.Machine

/-! ### Step CLK -/

/-- The PLL locked after step CLK. -/
def State.clkLocked (s : State) : State := ({ s with pll := true, heldReset := false, heldClock := false }).set pLSTORE R.PG_CTRL_EN 1
theorem exec_stepClk {s : State} (h : s.stepTaken 0 = true) (hs : s.shut = false) (k : Bool) : exec (.stepClk k) s = .next
    (if k then (if s.heldClock then (s.stepBegin 0).clkLocked.relock else (s.stepBegin 0).clkLocked).stepDone 0 else (s.stepBegin 0).stepFail 0 0x20 0) := by
  change execStepClk k s = _
  unfold execStepClk State.clkLocked
  simp only [h, hs, Bool.not_true, Bool.or_self, Bool.false_eq_true, if_false]
  cases k <;> rfl
theorem State.clkLocked_spec (s : State) {t : State} (ht : s.clkLocked = t) : s.regsBut t [(pLSTORE, R.PG_CTRL_EN)] ∧ t.enabled pLSTORE = true ∧
    ∃ r, t = { s with regs := r, pll := true, heldReset := false, heldClock := false } := by
  have hbut : s.regsBut ({ s with pll := true, heldReset := false, heldClock := false } : State) [(pLSTORE, R.PG_CTRL_EN)] := fun _ _ _ => rfl
  refine ⟨ht ▸ State.regsBut_set hbut 1 (by simp), ?_, _, ht.symm⟩
  rw [← ht]
  unfold State.enabled State.flag State.clkLocked
  rw [State.get_set_self]
  rfl
theorem State.clock_eta (s : State) {b : Bool} (h : s.heldClock = b) : ({ s with heldClock := b } : State) = s := by
  rw [← h]
/-- Step CLK finds the PLL locked. -/
theorem stepClk_locked {s : State} (h : s.stepTaken 0 = true) (hs : s.shut = false) : ∃ t, exec (.stepClk true) s = .next t ∧ attempted s t 0 ∧
    t.bootStep 0 = 2 ∧ t.pll = true ∧ t.heldReset = false ∧ t.heldClock = false ∧ t.enabled pLSTORE = true ∧
    t.boot.dueAt.has 0 = false ∧ t.boot.interval.has 0 = false ∧
    (s.heldClock = false → s.regsBut t ((pLSTORE, R.PG_CTRL_EN) :: stepFields 0) ∧
      ({ t with regs := s.regs, boot := s.boot, host := s.host, pll := s.pll, heldReset := s.heldReset } : State) = s) ∧
    (s.heldClock = true → t.pair.pllLost = false ∧ (∀ l < 160, (t.laneAt l).txIdle = false) ∧
      (∀ l, (l < 128 ∨ (132 ≤ l ∧ l < 136)) → (s.laneAt l).st = 1 → t.working (pLANE l) = true → (t.laneAt l).st = 2) ∧
      (t.pairOn = true → t.pairState = 2)) := by
  obtain ⟨b, hb⟩ : ∃ b, s.stepBegin 0 = b := ⟨_, rfl⟩
  obtain ⟨hbbut, -, ⟨rb, hbshape⟩, -⟩ := s.stepBegin_spec (by decide) hb
  obtain ⟨u, hu⟩ : ∃ u, b.clkLocked = u := ⟨_, rfl⟩
  obtain ⟨hubut, huen, ru, hushape⟩ := b.clkLocked_spec hu
  have hex := exec_stepClk h hs true
  rw [if_pos rfl, hb, hu] at hex
  have hen : ∀ v w : State, w.get pLSTORE R.PG_CTRL_EN = v.get pLSTORE R.PG_CTRL_EN → v.enabled pLSTORE = true → w.enabled pLSTORE = true := fun v w hg hv => by
    unfold State.enabled State.flag at hv ⊢
    rwa [hg]
  have hlstore : ∀ {v t : State}, v.regsBut t (stepJudged 0) → v.enabled pLSTORE = true → t.enabled pLSTORE = true := fun hbut hv =>
    hen _ _ (hbut.field (by decide) _) hv
  cases hheld : s.heldClock with
  | false =>
    rw [hheld, if_neg (by decide)] at hex
    obtain ⟨t, ht⟩ : ∃ t, u.stepDone 0 = t := ⟨_, rfl⟩
    rw [ht] at hex
    obtain ⟨hbut, htwo, hdue, hint, -, r, q, d, v, w, hshape⟩ := u.stepDone_spec (by decide) ht
    refine ⟨t, hex, attempted_hold (by decide) ?_ (by rw [hshape, hb, hushape]) (by rw [hshape, hushape, hbshape]; rfl), htwo, by rw [hshape, hushape],
      by rw [hshape, hushape], by rw [hshape, hushape], hlstore hbut huen, hdue, hint, fun _ => ⟨?_, ?_⟩, fun h => absurd h (by decide)⟩
    · rw [hb, hbut.field (bootTry_apart 0 (by decide) 0 (by decide)), hubut.field (by decide)]
    · refine State.regsBut_trans (State.regsBut_mono hbbut (fun e he => List.mem_cons_of_mem _ (stepTry_fields 0 he))) (State.regsBut_trans
        (State.regsBut_mono hubut (by simp)) (State.regsBut_mono hbut fun e he => List.mem_cons_of_mem _ (stepJudged_fields 0 he)))
    · rw [hshape, hushape, hbshape]
      exact s.clock_eta hheld
  | true =>
    rw [hheld, if_pos rfl] at hex
    obtain ⟨v, hv⟩ : ∃ v, u.relock = v := ⟨_, rfl⟩
    obtain ⟨hget, ⟨r, a, x, c, w, bs, p, hvshape⟩, hlost, hidle, hlanes, hpair⟩ := u.relock_spec hv
    obtain ⟨t, ht⟩ : ∃ t, v.stepDone 0 = t := ⟨_, rfl⟩
    rw [hv, ht] at hex
    obtain ⟨hbut, htwo, hdue, hint, -, r', q, d, i, w', hshape⟩ := v.stepDone_spec (by decide) ht
    have htry : t.get pBOOT (R.BOOT_TRY.nth 4 0) = b.get pBOOT (R.BOOT_TRY.nth 4 0) := by
      rw [hbut.field (bootTry_apart 0 (by decide) 0 (by decide)), hget _ _ (by decide) (Or.inl (by decide)), hubut.field (by decide)]
    have hpage : ∀ {q f}, q ≠ pBOOT → t.get q f = v.get q f := fun {q f} hq => hbut q f fun e he => Or.inl (by
      have hpage : e.1 = pBOOT := (by decide : ∀ e ∈ stepJudged 0, e.1 = pBOOT) e he
      rwa [hpage])
    have hlaneAt : ∀ n, t.laneAt n = v.laneAt n := fun n => by
      rw [hshape]
      rfl
    have huwork : ∀ {p}, p ≠ pBOOT → t.working p = u.working p := fun {p} hp => by
      have hflag : ∀ q (f : Fld), q ≠ pBOOT → f.id ≠ R.PG_IRQ_RAW.id → f.id ≠ R.PAIR_STAT_STATE.id → t.get q f = u.get q f := fun q f hq hf hs =>
        (hpage hq).trans (hget q f hf (Or.inr hs))
      exact State.working_of (by rw [hshape, hvshape]) (by rw [hshape, hvshape]) (hflag _ _ hp (by decide) (by decide)) (hflag _ _ hp (by decide) (by decide))
        ((hpage (by decide)).trans (hget _ _ (by decide) (Or.inl (by decide))))
    have hustate : ∀ n, u.laneAt n = s.laneAt n := fun n => by
      rw [hushape, hbshape]
      rfl
    refine ⟨t, hex, attempted_hold (by decide) (by rw [hb]; exact htry) (by rw [hshape, hvshape, hb, hushape]) (by
        rw [hshape, hvshape, hushape, hbshape]; rfl), htwo, by rw [hshape, hvshape, hushape],
      by rw [hshape, hvshape, hushape], by rw [hshape, hvshape, hushape],
      hlstore hbut (hen u v (hget _ _ (by decide) (Or.inl (by decide))) huen), hdue, hint, fun h => absurd h (by decide), fun _ => ⟨?_, ?_, ?_, ?_⟩⟩
    · rw [hshape]
      exact hlost
    · exact fun l hl => by
        rw [hlaneAt]
        exact hidle l hl
    · intro l hl h1 hw
      rw [hlaneAt]
      refine hlanes l hl (by rwa [hustate]) ?_
      rwa [← huwork (by unfold pLANE pBOOT; omega)]
    · intro hon
      have hup : t.straps = u.straps := by
        rw [hshape, hvshape]
      have honu : u.pairOn = true := by
        unfold State.pairOn at hon ⊢
        rwa [← huwork (by decide), ← hup]
      unfold State.pairState
      rw [if_pos (by
        rw [hup]
        exact State.pairEn_of_pairOn honu), hpage (by decide)]
      exact hpair honu
/-- Step CLK finds it without lock. -/
theorem stepClk_failed {s : State} (h : s.stepTaken 0 = true) (hs : s.shut = false) :
    ∃ t, exec (.stepClk false) s = .next t ∧ attempted s t 0 ∧ t.pll = s.pll ∧ stepFails s t 0 := by
  obtain ⟨h1, h2, h3, -⟩ := stepFails_begun s (i := 0) (by decide) 0x20 0 rfl
  exact ⟨_, exec_stepClk h hs false, h1, h3, h2⟩

/-! ### A step that is done at once -/

/-- Step i begins, its work touches only registers, what the sequencer keeps and `host`, and it is done. -/
theorem stepDone_begun (s : State) {i : Nat} (hi : i < 6) {u t : State} (l : List (Nat × Fld)) (hbut : (s.stepBegin i).regsBut u l)
    (hl : ∀ e ∈ l, (R.BOOT_TRY.nth 4 i).id ≠ e.2.id) (hattempt : u.boot.attempt = (s.stepBegin i).boot.attempt) (hhold : u.hold = s.hold)
    (ht : u.stepDone i = t) : attempted s t i ∧ t.bootStep i = 2 ∧ s.regsBut t (l ++ stepFields i) ∧
    (∀ j < 32, bit (u.get pBOOT R.PG_IRQ_RAW) j = true → bit (t.get pBOOT R.PG_IRQ_RAW) j = true) ∧
    (∀ {f : Fld}, (∀ e ∈ stepJudged i, f.id ≠ e.2.id) → t.get pBOOT f = u.get pBOOT f) ∧ (∀ {q} (f : Fld), q ≠ pBOOT → t.get q f = u.get q f) ∧
    ∃ r q d v w, t = { u with
      regs := r, boot := { u.boot with readyOnce := q, dueAt := d, interval := v }, host := { u.host with waiting := w } } := by
  have h8 : i < 8 := by omega
  obtain ⟨hbbut, -⟩ := s.stepBegin_spec h8 rfl
  obtain ⟨hdbut, htwo, -, -, hraw, r, q, d, v, w, hshape⟩ := u.stepDone_spec h8 ht
  refine ⟨attempted_hold hi ?_ (by rw [hshape]; exact hattempt) (by rw [hshape]; exact hhold), htwo, ?_, hraw, fun hf => hdbut.field hf _, fun {q} f hq => ?_,
    r, q, d, v, w, hshape⟩
  · exact (hdbut.field (bootTry_apart i h8 i h8) _).trans (hbut.field hl _)
  · exact State.regsBut_trans (State.regsBut_mono hbbut fun e he => List.mem_append_right _ (stepTry_fields i he)) (State.regsBut_trans
      (State.regsBut_mono hbut (List.subset_append_left _ _)) (State.regsBut_mono hdbut fun e he => List.mem_append_right _ (stepJudged_fields i he)))
  · exact hdbut q f fun e he => Or.inl (by
      have hpage : e.1 = pBOOT := by
        simp only [stepJudged, errFields, List.cons_append, List.nil_append, List.mem_cons, List.not_mem_nil, or_false] at he
        rcases he with rfl | rfl | rfl | rfl | rfl | rfl | rfl | rfl | rfl | rfl | rfl | rfl <;> rfl
      rwa [hpage])

/-! ### Step FLASH (R368) -/

/-- What step FLASH shows of the flash. -/
def State.flashShown (s : State) (x : FlashInfo) : State :=
  let a4 := decide (24 < x.log2) && (x.addr4Instr || x.addr4Mode)
  (((s.setFlag pBOOT R.BOOT_FLASH_ADDR4 a4).set pBOOT R.BOOT_FLASH_LOG2 (if a4 then x.log2 else min 24 x.log2)).setFlag pBOOT R.BOOT_FLASH_E4K
    x.erase4k).setFlag pBOOT R.BOOT_FLASH_E64K x.erase64k
def flashFields : List (Nat × Fld) :=
  [(pBOOT, R.BOOT_FLASH_ADDR4), (pBOOT, R.BOOT_FLASH_LOG2), (pBOOT, R.BOOT_FLASH_E4K), (pBOOT, R.BOOT_FLASH_E64K)]
theorem State.flashShown_spec (s : State) (x : FlashInfo) {t : State} (ht : s.flashShown x = t) : s.regsBut t flashFields ∧ (∃ r, t = { s with regs := r }) ∧
    t.get pBOOT R.BOOT_FLASH_E4K = b2n x.erase4k ∧ t.get pBOOT R.BOOT_FLASH_E64K = b2n x.erase64k ∧
    (24 < x.log2 → x.addr4Instr = true ∨ x.addr4Mode = true → t.get pBOOT R.BOOT_FLASH_ADDR4 = 1) ∧
    (x.log2 ≤ 24 ∨ (x.addr4Instr = false ∧ x.addr4Mode = false) → t.get pBOOT R.BOOT_FLASH_ADDR4 = 0 ∧ t.get pBOOT R.BOOT_FLASH_LOG2 = min 24 x.log2) := by
  obtain ⟨a4, ha4⟩ : ∃ a4, (decide (24 < x.log2) && (x.addr4Instr || x.addr4Mode)) = a4 := ⟨_, rfl⟩
  unfold State.flashShown at ht
  dsimp only at ht
  rw [ha4] at ht
  have hbit : ∀ b : Bool, b2n b % 2 ^ 1 = b2n b := by decide
  have hregs : ∀ u : State, (∃ r, u = { s with regs := r }) → ∀ f v, ∃ r, u.set pBOOT f v = { s with regs := r } := by
    rintro _ ⟨r, rfl⟩ f v
    exact ⟨_, rfl⟩
  have haddr : t.get pBOOT R.BOOT_FLASH_ADDR4 = b2n a4 := by
    rw [← ht, State.get_setFlag_field _ _ _ (by decide), State.get_setFlag_field _ _ _ (by decide), State.get_set_field _ _ _ (by decide)]
    exact (State.get_set_self _ _ _ _).trans (hbit a4)
  refine ⟨?_, ht ▸ hregs _ (hregs _ (hregs _ (hregs _ ⟨s.regs, rfl⟩ _ _) _ _) _ _) _ _, ?_, ?_, fun h24 hinstr => ?_, fun hno => ?_⟩
  · rw [← ht]
    exact State.regsBut_setFlag (State.regsBut_setFlag (State.regsBut_set (State.regsBut_setFlag (s.regsBut_refl _) _ (by simp [flashFields])) _
      (by simp [flashFields])) _ (by simp [flashFields])) _ (by simp [flashFields])
  · rw [← ht, State.get_setFlag_field _ _ _ (by decide)]
    exact (State.get_set_self _ _ _ _).trans (hbit _)
  · rw [← ht]
    exact (State.get_set_self _ _ _ _).trans (hbit _)
  · rw [haddr, ← ha4, decide_eq_true h24]
    rcases hinstr with h | h <;> simp [h, b2n]
  · have hfalse : a4 = false := by
      rw [← ha4]
      rcases hno with h | ⟨h1, h2⟩
      · rw [decide_eq_false (by omega)]
        rfl
      · rw [h1, h2, Bool.or_self, Bool.and_false]
    refine ⟨by rw [haddr, hfalse]; rfl, ?_⟩
    rw [← ht, State.get_setFlag_field _ _ _ (by decide), State.get_setFlag_field _ _ _ (by decide), State.get_set_self, hfalse, if_neg (by decide)]
    exact Nat.mod_eq_of_lt (lt_of_le_of_lt (Nat.min_le_left _ _) (by decide))
theorem exec_stepFlash {s : State} (h : s.stepTaken 1 = true) (hs : s.shut = false) (fi : Option FlashInfo) : exec (.stepFlash fi) s = .next
    (match fi with
      | none => (s.stepBegin 1).stepFail 1 0x23 0
      | some x => if !x.fast144 then (s.stepBegin 1).stepFail 1 0x23 0
        else (((s.stepBegin 1).flashShown x).updBoot fun b => { b with flash := some x }).stepDone 1) := by
  change execStepFlash fi s = _
  unfold execStepFlash
  simp only [h, hs, Bool.not_true, Bool.or_self, Bool.false_eq_true, if_false]
  cases fi <;> rfl
/-- Step FLASH reads a flash that it can use. -/
theorem stepFlash_read {s : State} (h : s.stepTaken 1 = true) (hs : s.shut = false) {x : FlashInfo} (hx : x.fast144 = true) :
    ∃ t, exec (.stepFlash (some x)) s = .next t ∧ attempted s t 1 ∧ t.bootStep 1 = 2 ∧ t.boot.flash = some x ∧
      t.get pBOOT R.BOOT_FLASH_E4K = b2n x.erase4k ∧ t.get pBOOT R.BOOT_FLASH_E64K = b2n x.erase64k ∧
      (24 < x.log2 → x.addr4Instr = true ∨ x.addr4Mode = true → t.get pBOOT R.BOOT_FLASH_ADDR4 = 1) ∧
      (x.log2 ≤ 24 ∨ (x.addr4Instr = false ∧ x.addr4Mode = false) → t.get pBOOT R.BOOT_FLASH_ADDR4 = 0 ∧
        t.get pBOOT R.BOOT_FLASH_LOG2 = min 24 x.log2) ∧
      ({ t with regs := s.regs, boot := s.boot, host := s.host } : State) = s := by
  obtain ⟨b, hb⟩ : ∃ b, s.stepBegin 1 = b := ⟨_, rfl⟩
  obtain ⟨-, -, ⟨rb, hbshape⟩, -⟩ := s.stepBegin_spec (by decide) hb
  obtain ⟨v, hv⟩ : ∃ v, b.flashShown x = v := ⟨_, rfl⟩
  obtain ⟨hbut, ⟨r, hvshape⟩, h1, h2, h3, h4⟩ := b.flashShown_spec x hv
  obtain ⟨t, ht⟩ : ∃ t, (v.updBoot fun b => { b with flash := some x }).stepDone 1 = t := ⟨_, rfl⟩
  have hex := exec_stepFlash h hs (some x)
  simp only [hx, Bool.not_true, Bool.false_eq_true, if_false] at hex
  rw [hb, hv, ht] at hex
  obtain ⟨hatt, htwo, -, -, hkeep, -, r', q, d, i, w, hshape⟩ := stepDone_begun s (i := 1) (by decide) flashFields (u := v.updBoot fun b => { b with flash := some x })
    (hb ▸ State.regsBut_of_regs hbut rfl) (by decide) (by rw [hb, hvshape]; rfl) (by rw [hvshape, hbshape]; rfl) ht
  refine ⟨t, hex, hatt, htwo, by rw [hshape]; rfl, (hkeep (by decide)).trans h1, (hkeep (by decide)).trans h2, fun k1 k2 => (hkeep (by decide)).trans (h3 k1 k2),
    fun k => ⟨(hkeep (by decide)).trans (h4 k).1, (hkeep (by decide)).trans (h4 k).2⟩, ?_⟩
  rw [hshape]
  unfold State.updBoot
  dsimp only
  rw [hvshape, hbshape]
/-- Step FLASH fails. -/
theorem stepFlash_failed {s : State} (h : s.stepTaken 1 = true) (hs : s.shut = false) {fi : Option FlashInfo}
    (hfi : fi = none ∨ ∃ x, fi = some x ∧ x.fast144 = false) :
    ∃ t, exec (.stepFlash fi) s = .next t ∧ attempted s t 1 ∧ t.boot.flash = s.boot.flash ∧ stepFails s t 1 := by
  obtain ⟨h1, h2, -, h4⟩ := stepFails_begun s (i := 1) (by decide) 0x23 0 rfl
  refine ⟨_, ?_, h1, h4, h2⟩
  rw [exec_stepFlash h hs]
  rcases hfi with rfl | ⟨x, rfl, hx⟩
  · rfl
  · dsimp only
    rw [hx]
    rfl

/-! ### Step BOARD (R370, R371) -/

/-- The board record as it is found. -/
def State.boardRead (s : State) : State :=
  if boardValid (s.flashBytes 0 68) then s.updBoot fun b => { b with board := s.flashBytes 0 68, boardOk := true }
  else (s.bootErr 0xA1 2 0).updBoot fun b => { b with board := [], boardOk := false }
theorem exec_stepBoard {s : State} (h : s.stepTaken 2 = true) (hs : s.shut = false) : exec .stepBoard s = .next ((s.stepBegin 2).boardRead.stepDone 2) := by
  change execStepBoard s = _
  unfold execStepBoard
  simp only [h, hs, Bool.not_true, Bool.or_self, Bool.false_eq_true, if_false]
  rfl
theorem State.boardRead_spec (s : State) {t : State} (ht : s.boardRead = t) : s.regsBut t (errFields pBOOT) ∧ t.hold = s.hold ∧
    t.boot.attempt = s.boot.attempt ∧ t.boot.boardOk = boardValid (s.flashBytes 0 68) ∧
    (boardValid (s.flashBytes 0 68) = true → t.boot.board = s.flashBytes 0 68) ∧
    (boardValid (s.flashBytes 0 68) = false → t.boot.board = [] ∧ (s.fenced pBOOT = false → bit (t.get pBOOT R.PG_IRQ_RAW) 1 = true)) ∧
    ({ t with regs := s.regs, boot := s.boot, host := s.host } : State) = s := by
  unfold State.boardRead at ht
  generalize s.flashBytes 0 68 = l at ht ⊢
  cases hv : boardValid l with
  | true =>
    rw [hv, if_pos rfl] at ht
    subst ht
    exact ⟨s.regsBut_refl _, rfl, rfl, rfl, fun _ => rfl, fun h => absurd h (by decide), rfl⟩
  | false =>
    rw [hv, if_neg (by decide)] at ht
    have hshow := s.stepShows_err 2 0xA1 2 0
    obtain ⟨r, w, herr⟩ := s.reports_err pBOOT 0xA1 2 0 0 0
    have hbut : s.regsBut (s.bootErr 0xA1 2 0) (errFields pBOOT) := State.regsBut_err (s.regsBut_refl _) _ _ _ _ _ _ (List.Subset.refl _)
    have hbit : s.fenced pBOOT = false → bit ((s.bootErr 0xA1 2 0).get pBOOT R.PG_IRQ_RAW) 1 = true := fun hf =>
      s.bit_err (State.frozen_boot rfl hf) _ _ _ _ _
    obtain ⟨u, hu⟩ : ∃ u, s.bootErr 0xA1 2 0 = u := ⟨_, rfl⟩
    have hushape : u = { s with regs := r, host := { s.host with waiting := w } } := hu ▸ herr
    rw [hu] at hbut hbit ht
    subst ht
    refine ⟨State.regsBut_of_regs hbut rfl, by rw [hushape]; rfl, by rw [hushape]; rfl, rfl, fun h => absurd h (by decide), fun _ => ⟨rfl, hbit⟩, ?_⟩
    unfold State.updBoot
    dsimp only
    rw [hushape]
/-- Step BOARD. -/
theorem stepBoard_read {s : State} (h : s.stepTaken 2 = true) (hs : s.shut = false) : ∃ t, exec .stepBoard s = .next t ∧ attempted s t 2 ∧
    t.bootStep 2 = 2 ∧ t.boot.boardOk = boardValid (s.flashBytes 0 68) ∧ s.regsBut t (stepFields 2) ∧
    (boardValid (s.flashBytes 0 68) = true → t.boot.board = s.flashBytes 0 68) ∧
    (boardValid (s.flashBytes 0 68) = false → t.boot.board = [] ∧ (s.fenced pBOOT = false → bit (t.get pBOOT R.PG_IRQ_RAW) 1 = true)) ∧
    ({ t with regs := s.regs, boot := s.boot, host := s.host } : State) = s := by
  obtain ⟨b, hb⟩ : ∃ b, s.stepBegin 2 = b := ⟨_, rfl⟩
  obtain ⟨hbbut, -, ⟨rb, hbshape⟩, -⟩ := s.stepBegin_spec (by decide) hb
  have hbytes : b.flashBytes 0 68 = s.flashBytes 0 68 := by
    rw [hbshape]
    rfl
  have hfence : b.fenced pBOOT = s.fenced pBOOT := by
    unfold State.fenced State.flag
    rw [hbbut.field (f := R.PG_FENCE_FENCED) (by decide)]
  obtain ⟨v, hv⟩ : ∃ v, b.boardRead = v := ⟨_, rfl⟩
  obtain ⟨hbut, hhold, hattempt, hok, hgood, hbad, hrest⟩ := b.boardRead_spec hv
  rw [hbytes] at hok hgood hbad
  obtain ⟨t, ht⟩ : ∃ t, v.stepDone 2 = t := ⟨_, rfl⟩
  have hex := exec_stepBoard h hs
  rw [hb, hv, ht] at hex
  obtain ⟨hatt, htwo, hfields, hraw, -, -, r', q, d, i, w, hshape⟩ := stepDone_begun s (i := 2) (by decide) (errFields pBOOT) (hb.symm ▸ hbut) (by decide)
    (by rw [hb, hattempt]) (hhold.trans (hb ▸ s.hold_stepBegin 2)) ht
  refine ⟨t, hex, hatt, htwo, by rw [hshape]; exact hok, State.regsBut_mono hfields ?_, fun hg => by rw [hshape]; exact hgood hg, fun hb' => ⟨?_, fun hf => ?_⟩, ?_⟩
  · exact List.append_subset.mpr ⟨fun e he => stepJudged_fields 2 (bootErr_judged 2 he), List.Subset.refl _⟩
  · rw [hshape]
    exact (hbad hb').1
  · exact hraw 1 (by decide) ((hbad hb').2 (hfence.trans hf))
  · have hvb : v = { b with regs := v.regs, boot := v.boot, host := v.host } := by
      conv_rhs => rw [← hrest]
    rw [hshape, hvb, hbshape]

/-! ### Step PROF (R207) -/

theorem State.slotCopy_fields (s : State) (p : Nat) : s.regsBut (s.slotCopy p) ((pPROF, R.PROF_VALID_VALID) :: errFields pPROF) := by
  unfold State.slotCopy
  dsimp only
  have hput : ∀ (m : NMap (List Byte)) (b : Bool), s.regsBut (({ s with prof := { s.prof with images := m } }).upd pPROF
      R.PROF_VALID_VALID fun v => setBit v p b) ((pPROF, R.PROF_VALID_VALID) :: errFields pPROF) := fun m b =>
    State.regsBut_set (State.regsBut_of_regs (s.regsBut_refl _) rfl) _ (by simp)
  split
  · exact hput _ _
  · exact State.regsBut_err (hput _ _) _ _ _ _ _ _ (List.subset_cons_self _ _)
theorem State.slotCopy_others (s : State) (p : Nat) : (∀ q < 8, q ≠ p → (s.slotCopy p).slotUsable q = s.slotUsable q ∧
      (s.slotCopy p).prof.images.getD q [] = s.prof.images.getD q []) ∧
    ∀ j < 32, bit (s.get pPROF R.PG_IRQ_RAW) j = true → bit ((s.slotCopy p).get pPROF R.PG_IRQ_RAW) j = true := by
  unfold State.slotCopy
  dsimp only
  have huse : ∀ (m : NMap (List Byte)) (b : Bool) (q : Nat), q < 8 → q ≠ p → (({ s with prof := { s.prof with images := m } }).upd pPROF
      R.PROF_VALID_VALID fun v => setBit v p b).slotUsable q = s.slotUsable q := fun m b q hq hne =>
    (State.slotUsable_setBit _ _ _ hq).trans (if_neg hne)
  have hraw : ∀ (m : NMap (List Byte)) (b : Bool), (({ s with prof := { s.prof with images := m } }).upd pPROF
      R.PROF_VALID_VALID fun v => setBit v p b).get pPROF R.PG_IRQ_RAW = s.get pPROF R.PG_IRQ_RAW := fun m b => State.get_set_field _ _ _ (by decide)
  split
  · exact ⟨fun q hq hne => ⟨huse _ _ q hq hne, NMap.getD_put_other _ _ _ hne⟩, fun j _ hb => by rwa [hraw]⟩
  · have h1 := huse (s.prof.images.del p) false
    have h2 := hraw (s.prof.images.del p) false
    have h3 : ∀ q, q ≠ p → (NMap.del s.prof.images p).getD q [] = s.prof.images.getD q [] := fun q hq => NMap.getD_del_other _ _ hq
    obtain ⟨v, hv⟩ : ∃ v, (({ s with prof := { s.prof with images := s.prof.images.del p } }).upd pPROF
      R.PROF_VALID_VALID fun v => setBit v p false) = v := ⟨_, rfl⟩
    have hvimg : v.prof.images = s.prof.images.del p := by
      rw [← hv]
      rfl
    rw [hv] at h1 h2 ⊢
    obtain ⟨r, w, hrep⟩ := v.reports_err pPROF 0xA1 0 (slotFlash p) 0 0
    refine ⟨fun q hq hne => ⟨?_, ?_⟩, fun j hj hb => ?_⟩
    · exact (congrArg (bit · q) (State.get_err_field _ _ _ _ _ _ _ (by decide))).trans (h1 q hq hne)
    · rw [hrep]
      exact (congrArg (fun m : NMap (List Byte) => m.getD q []) hvimg).trans (h3 q hne)
    · unfold State.err
      split
      · rwa [h2]
      · refine State.bit_cause_keeps _ hj ?_
        rwa [State.errCount_keeps _ _ _ _ _ _ (by decide), h2]
/-- Slots copied one after the other. -/
theorem State.slotCopies_spec (m : List Nat) (hm : m.Nodup) (hlt : ∀ p ∈ m, p < 8) (s : State) {t : State} (ht : m.foldl State.slotCopy s = t) :
    (∀ p ∈ m, t.slotUsable p = imageValid (s.flashBytes (slotFlash p) 660) p ∧
      (imageValid (s.flashBytes (slotFlash p) 660) p = true → t.prof.images.getD p [] = s.flashBytes (slotFlash p) 660) ∧
      (imageValid (s.flashBytes (slotFlash p) 660) p = false → s.frozen pPROF = false → bit (t.get pPROF R.PG_IRQ_RAW) 1 = true)) ∧
    (∀ p < 8, p ∉ m → t.slotUsable p = s.slotUsable p ∧ t.prof.images.getD p [] = s.prof.images.getD p []) ∧
    (∀ j < 32, bit (s.get pPROF R.PG_IRQ_RAW) j = true → bit (t.get pPROF R.PG_IRQ_RAW) j = true) ∧
    s.regsBut t ((pPROF, R.PROF_VALID_VALID) :: errFields pPROF) ∧
    ∃ r i w, t = { s with regs := r, prof := { s.prof with images := i }, host := { s.host with waiting := w } } := by
  induction m generalizing s with
  | nil =>
    subst ht
    exact ⟨fun _ h => absurd h List.not_mem_nil, fun _ _ _ => ⟨rfl, rfl⟩, fun _ _ h => h, s.regsBut_refl _, s.regs, s.prof.images, s.host.waiting, rfl⟩
  | cons l m ih =>
    obtain ⟨hl, hm⟩ := List.nodup_cons.mp hm
    obtain ⟨h1, h2, h3, -, r, i, w, hshape⟩ := s.slotCopy_spec l (hlt l (by simp))
    obtain ⟨o1, o2⟩ := s.slotCopy_others l
    have hfields := s.slotCopy_fields l
    rw [List.foldl_cons] at ht
    obtain ⟨k1, k2, k3, k4, r', i', w', kshape⟩ := ih hm (fun p hp => hlt p (List.mem_cons_of_mem _ hp)) (s.slotCopy l) ht
    have hbytes : ∀ a n, (s.slotCopy l).flashBytes a n = s.flashBytes a n := fun a n => by
      rw [hshape]
      rfl
    have hapart : ∀ e ∈ (pPROF, R.PROF_VALID_VALID) :: errFields pPROF, R.PG_FENCE_FENCED.id ≠ e.2.id := by decide
    have hfen := hfields.field hapart pPROF
    have hfrozen : (s.slotCopy l).frozen pPROF = s.frozen pPROF := State.frozen_congr hfen
    simp only [hbytes, hfrozen] at k1
    refine ⟨fun p hp => ?_, fun p hp hn => ?_, fun j hj hb => k3 j hj (o2 j hj hb), State.regsBut_trans hfields k4, r', i', w', by rw [kshape, hshape]⟩
    · rcases List.mem_cons.mp hp with rfl | hp
      · obtain ⟨e1, e2⟩ := k2 p (hlt p (by simp)) hl
        exact ⟨e1.trans h1, fun hv => e2.trans (h2 hv), fun hv hf => k3 1 (by decide) (h3 hv hf).1⟩
      · exact k1 p hp
    · obtain ⟨hnl, hnm⟩ := not_or.mp (mt List.mem_cons.mpr hn)
      obtain ⟨e1, e2⟩ := k2 p hp hnm
      obtain ⟨f1, f2⟩ := o1 p hp hnl
      exact ⟨e1.trans f1, e2.trans f2⟩
theorem exec_stepProf {s : State} (h : s.stepTaken 3 = true) (hs : s.shut = false) : exec .stepProf s = .next
    (({ (List.range 8).foldl State.slotCopy (s.stepBegin 3) with
      prof := { ((List.range 8).foldl State.slotCopy (s.stepBegin 3)).prof with loaded := true } } : State).stepDone 3) := by
  change execStepProf s = _
  unfold execStepProf
  rw [if_neg (by simp [h, hs])]
  dsimp only [State.each]
/-- Step PROF. -/
theorem stepProf_read {s : State} (h : s.stepTaken 3 = true) (hs : s.shut = false) : ∃ t, exec .stepProf s = .next t ∧ attempted s t 3 ∧
    t.bootStep 3 = 2 ∧ t.prof.loaded = true ∧
    (∀ p < 8, t.slotUsable p = imageValid (s.flashBytes (slotFlash p) 660) p ∧
      (imageValid (s.flashBytes (slotFlash p) 660) p = true → t.prof.images.getD p [] = s.flashBytes (slotFlash p) 660) ∧
      (imageValid (s.flashBytes (slotFlash p) 660) p = false → s.fenced pPROF = false → bit (t.get pPROF R.PG_IRQ_RAW) 1 = true)) ∧
    s.regsBut t ((pPROF, R.PROF_VALID_VALID) :: errFields pPROF ++ stepFields 3) ∧
    ({ t with regs := s.regs, boot := s.boot, host := s.host, prof := s.prof } : State) = s := by
  obtain ⟨b, hb⟩ : ∃ b, s.stepBegin 3 = b := ⟨_, rfl⟩
  obtain ⟨hbbut, -, ⟨rb, hbshape⟩, -⟩ := s.stepBegin_spec (by decide) hb
  have hbytes : ∀ a n, b.flashBytes a n = s.flashBytes a n := fun a n => by
    rw [hbshape]
    rfl
  have hfrozen : s.fenced pPROF = false → b.frozen pPROF = false := fun hf => State.frozen_of_unfenced (by
    unfold State.fenced State.flag at hf ⊢
    rwa [hbbut.field (f := R.PG_FENCE_FENCED) (by decide)])
  obtain ⟨v, hv⟩ : ∃ v, (List.range 8).foldl State.slotCopy b = v := ⟨_, rfl⟩
  obtain ⟨hslots, -, -, hbut, r, i, w, hvshape⟩ := State.slotCopies_spec (List.range 8) List.nodup_range (fun p hp => List.mem_range.mp hp) b hv
  simp only [hbytes] at hslots
  obtain ⟨u, hu⟩ : ∃ u : State, { v with prof := { v.prof with loaded := true } } = u := ⟨_, rfl⟩
  obtain ⟨t, ht⟩ : ∃ t, u.stepDone 3 = t := ⟨_, rfl⟩
  have hex := exec_stepProf h hs
  rw [hb, hv, hu, ht] at hex
  obtain ⟨hatt, htwo, hfields, -, -, hpage, r', q, d, i', w', hshape⟩ := stepDone_begun s (i := 3) (by decide) ((pPROF, R.PROF_VALID_VALID) :: errFields pPROF)
    (hb.symm ▸ hu ▸ State.regsBut_of_regs hbut rfl) (by decide) (by rw [hb, ← hu, hvshape]) (by rw [← hu, hvshape, hbshape]; rfl) ht
  have hget : ∀ f, t.get pPROF f = v.get pPROF f := fun f => (hpage f (by decide)).trans (by rw [← hu]; rfl)
  have himg : t.prof = { v.prof with loaded := true } := by
    rw [hshape, ← hu]
  refine ⟨t, hex, hatt, htwo, by rw [himg], fun p hp => ?_, hfields, ?_⟩
  · obtain ⟨e1, e2, e3⟩ := hslots p (List.mem_range.mpr hp)
    refine ⟨?_, fun hg => ?_, fun hg hf => ?_⟩
    · rw [← e1]
      unfold State.slotUsable
      rw [hget]
    · rw [himg]
      exact e2 hg
    · rw [hget]
      exact e3 hg (hfrozen hf)
  · rw [hshape, ← hu, hvshape, hbshape]
end Sys2Proof.Machine
end

section
/-! ### Step CAL (O59) -/
open Sys2Proof Sys2Proof.Machine
namespace Sys2Proof.Machine

/-- What step CAL leaves besides the counters of CAL. -/
structure State.calWorks (s t : State) : Prop where
  boot : ∀ f : Fld, (∀ e ∈ errFields pBOOT, f.id ≠ e.2.id) → t.get pBOOT f = s.get pBOOT f
  raw : ∀ j < 32, bit (s.get pBOOT R.PG_IRQ_RAW) j = true → bit (t.get pBOOT R.PG_IRQ_RAW) j = true
  fence : t.get pCAL R.PG_FENCE_FENCED = s.get pCAL R.PG_FENCE_FENCED
  shut : t.get pTHERM R.THERM_STAT_SHUT = s.get pTHERM R.THERM_STAT_SHUT
  rest : t.boot = s.boot ∧ t.flash = s.flash ∧ t.pending = s.pending ∧ t.srsts = s.srsts ∧ t.heldReset = s.heldReset
theorem State.calWorks_refl (s : State) : s.calWorks s := ⟨fun _ _ => rfl, fun _ _ h => h, rfl, rfl, rfl, rfl, rfl, rfl, rfl⟩
theorem State.calWorks.trans {s t u : State} (h : s.calWorks t) (k : t.calWorks u) : s.calWorks u := by
  obtain ⟨h1, h2, h3, h4, h5⟩ := h.rest
  obtain ⟨k1, k2, k3, k4, k5⟩ := k.rest
  exact ⟨fun f hf => (k.boot f hf).trans (h.boot f hf), fun j hj hb => k.raw j hj (h.raw j hj hb), k.fence.trans h.fence, k.shut.trans h.shut,
    k1.trans h1, k2.trans h2, k3.trans h3, k4.trans h4, k5.trans h5⟩
theorem State.calWorks_bootErr (s : State) (code step addr : Nat) : s.calWorks (s.bootErr code step addr) := by
  have hbut : s.regsBut (s.bootErr code step addr) (errFields pBOOT) := State.regsBut_err (s.regsBut_refl _) _ _ _ _ _ _ (List.Subset.refl _)
  obtain ⟨r, w, h⟩ := s.reports_err pBOOT code step addr 0 0
  have hshape : s.bootErr code step addr = { s with regs := r, host := { s.host with waiting := w } } := h
  refine ⟨fun f hf => hbut.field hf _, (s.stepShows_err 0 code step addr).raw, s.get_err_ne _ _ _ _ _ _ (Or.inl (by decide)),
    s.get_err_ne _ _ _ _ _ _ (Or.inl (by decide)), ?_⟩
  rw [hshape]
  exact ⟨rfl, rfl, rfl, rfl, rfl⟩

/-! ### What an installation leaves on BOOT -/

theorem State.get_fieldPut (s : State) {p : Nat} (f : Fld) (v : Nat) {q : Nat} (hq : q ≠ p) (g : Fld) : (s.fieldPut p f v).get q g = s.get q g := by
  unfold State.fieldPut
  split
  · rfl
  · rw [State.get_commit _ _ _ _ (Or.inl hq), State.get_set_ne _ _ (Or.inl hq)]
theorem State.get_each {p : Nat} (f : Fld) (g : State → Nat → State) (hg : ∀ (t : State) n, (g t n).get p f = t.get p f) (l : List Nat) (s : State) :
    (s.each l g).get p f = s.get p f :=
  List.foldlRecOn (motive := fun v : State => v.get p f = s.get p f) l g rfl fun v hv n _ => (hg v n).trans hv
theorem State.get_chantWork (s : State) (g : State → State) {q : Nat} (hq : q ≠ pCHANT) (f : Fld) (h : (g s).get q f = s.get q f) :
    (s.chantWork g).get q f = s.get q f := by
  unfold State.chantWork State.pageWork
  split
  · rw [State.get_keepPage, if_neg hq, h]
  · exact h
theorem State.get_calPut_boot (s : State) (k : Nat) (d : List Byte) (f : Fld) : (s.calPut k d).get pBOOT f = s.get pBOOT f := by
  have hset : ∀ (t : State) p g v, pBOOT ≠ p → (t.set p g v).get pBOOT f = t.get pBOOT f := fun t p g v hp => t.get_set_ne _ (Or.inl hp)
  have hflat : ∀ a, (s.flatPut a d).get pBOOT f = s.get pBOOT f := fun a =>
    (State.get_chantWork (s.lsWrite a (d.drop 4)) _ (by decide) f (hset _ _ _ _ (by decide))).trans rfl
  unfold State.calPut
  split
  · exact hflat _
  · exact hflat _
  · refine s.get_chantWork _ (by decide) f ?_
    unfold State.slopesPut State.tiersClear
    refine Eq.trans (hset _ pCHANT R.CHANT_CAMGEN_GEN1 (byteAt d 25) (by decide)) ((hset _ _ _ _ (by decide)).trans ?_)
    unfold State.mapPut
    refine (State.get_each f _ (fun t j => ?_) _ (s.lsWrite (slopeAddr 0 0 0) (d.drop 32))).trans rfl
    exact List.foldlRecOn (motive := fun v : State => v.get pBOOT f = t.get pBOOT f) _ _ rfl fun v hv g _ => (hset v _ _ _ (by decide)).trans hv
  · refine State.get_each f _ (fun t h => ?_) _ s
    have hlane : pBOOT ≠ pLANE h := by
      unfold pBOOT pLANE
      omega
    unfold State.samplerPut
    split
    · rfl
    · exact (hset _ _ R.LANE_SAMP_THR _ hlane).trans (hset t _ R.LANE_SAMP_PHASE _ hlane)
  · refine (State.get_each f _ (fun t h => t.get_fieldPut _ _ ?_ f) _ _).trans (s.get_fieldPut _ _ (by decide) f)
    unfold pBOOT pHEAD
    omega
/-- The installation of a record of kind k. -/
theorem State.calInstall_leaves (s : State) (r : List Byte) {t : State} (ht : s.calInstall r = t) : s.calWorks t ∧
    (s.fenced pCAL = false → t.get pCAL (calCnt (byteAt r 1)) = calNum r ∧
      ∀ f : Fld, f.id ≠ (calCnt (byteAt r 1)).id → t.get pCAL f = s.get pCAL f) ∧
    (s.fenced pCAL = true → ∀ f, t.get pCAL f = s.get pCAL f) := by
  obtain ⟨u, hu⟩ : ∃ u, s.pageWork pCAL (fun s => s.set pCAL (calCnt (byteAt r 1)) (calNum r)) = u := ⟨_, rfl⟩
  have hput : t = u.calPut (byteAt r 1) (calBytes r) := by rw [← ht, State.calInstall_eq, hu]
  have hinst : u.installs t [calRegion (byteAt r 1) r.length] := hput ▸ u.installs_calPut r
  have hu' : (∀ q f, q ≠ pCAL → u.get q f = s.get q f) ∧ (s.fenced pCAL = true → ∀ f, u.get pCAL f = s.get pCAL f) ∧
      u.get pCAL R.PG_FENCE_FENCED = s.get pCAL R.PG_FENCE_FENCED ∧ ∃ x, u = { s with regs := x } := by
    rw [← hu]
    unfold State.pageWork
    cases hf : s.fenced pCAL with
    | true =>
      rw [if_pos rfl]
      exact ⟨fun q f hq => by rw [State.get_keepPage, if_neg hq, State.get_set_ne _ _ (Or.inl hq)], fun _ f => by rw [State.get_keepPage, if_pos rfl],
        by rw [State.get_keepPage, if_pos rfl], _, rfl⟩
    | false =>
      rw [if_neg (by decide)]
      refine ⟨fun q f hq => State.get_set_ne _ _ (Or.inl hq), fun h => absurd h (by decide), State.get_set_field _ _ _ ?_, _, rfl⟩
      unfold calCnt Fld.nth Fld.id
      simp only [R.PG_FENCE_FENCED, R.CAL_CNT]
      omega
  obtain ⟨hpage, hfenced, hfence, x, hux⟩ := hu'
  have hboot : ∀ f, t.get pBOOT f = s.get pBOOT f := fun f => by
    rw [hput, State.get_calPut_boot]
    exact hpage _ _ (by decide)
  refine ⟨⟨fun f _ => hboot f, fun j _ hb => by rwa [hboot], (hinst.cal _).trans hfence, (hinst.therm _).trans (hpage _ _ (by decide)), ?_⟩,
    fun hf => ?_, fun hf f => (hinst.cal f).trans (hfenced hf f)⟩
  · obtain ⟨r', pv, ap, cm, w, ls, le, lr, ch, hshape⟩ := hinst.shape
    rw [hshape, hux]
    exact ⟨rfl, rfl, rfl, rfl, rfl⟩
  · obtain ⟨-, -, -, hnum, hother, -⟩ := State.calInstall_spec hf r hu ht
    exact ⟨hnum, fun f hne => hother hne⟩
/-- Step CAL takes the record in force of kind k. -/
def State.calTaken (t : State) (k : Nat) : State :=
  match t.calInForce k with
  | some x => t.calInstall x.2
  | none => t.bootErr 0xA1 7 (calBank k 0)
theorem State.calInForce_kind {s : State} {k : Nat} {x : Nat × List Byte} (h : s.calInForce k = some x) : byteAt x.2 1 = k := by
  have hvalid : ∀ r, calValid r k 0 = true → byteAt r 1 = k := fun r hr => by
    unfold calValid at hr
    simp only [Bool.and_eq_true, beq_iff_eq] at hr
    exact hr.1.1.1.1.1.2
  unfold State.calInForce at h
  dsimp only at h
  split_ifs at h with ha hb hb
  · obtain rfl := Option.some.inj h
    exact hvalid _ (Bool.and_eq_true _ _ ▸ hb).1
  · obtain rfl := Option.some.inj h
    exact hvalid _ ha
  · obtain rfl := Option.some.inj h
    exact hvalid _ hb
theorem calCnt_apart {j k : Nat} (hk : 1 ≤ k) (hj : 1 ≤ j) (hne : j ≠ k) : (calCnt j).id ≠ (calCnt k).id := by
  unfold calCnt Fld.nth Fld.id
  dsimp only
  omega
theorem State.calTaken_spec (s : State) {k : Nat} (hk : 1 ≤ k ∧ k < 6) {t : State} (ht : s.calTaken k = t) : s.calWorks t ∧
    (∀ x, s.calInForce k = some x → (s.fenced pCAL = false → t.get pCAL (calCnt k) = calNum x.2) ∧
      (s.fenced pCAL = true → t.get pCAL (calCnt k) = s.get pCAL (calCnt k))) ∧
    (s.calInForce k = none → t.get pCAL (calCnt k) = s.get pCAL (calCnt k) ∧
      (s.fenced pBOOT = false → bit (t.get pBOOT R.PG_IRQ_RAW) 1 = true)) ∧
    ∀ j < 6, 1 ≤ j → j ≠ k → t.get pCAL (calCnt j) = s.get pCAL (calCnt j) := by
  unfold State.calTaken at ht
  cases hf : s.calInForce k with
  | none =>
    rw [hf] at ht
    dsimp only at ht
    have hcal : ∀ f, t.get pCAL f = s.get pCAL f := fun f => ht ▸ s.get_err_ne _ _ _ _ _ _ (Or.inl (by decide))
    refine ⟨ht ▸ s.calWorks_bootErr _ _ _, fun x hx => absurd hx (by simp), fun _ => ⟨hcal _, fun hfen => ?_⟩, fun j _ _ _ => hcal _⟩
    rw [← ht]
    exact s.bit_err (State.frozen_boot rfl hfen) _ _ _ _ _
  | some x =>
    rw [hf] at ht
    dsimp only at ht
    have hkind := State.calInForce_kind hf
    obtain ⟨hworks, hopen, hshut⟩ := s.calInstall_leaves x.2 ht
    rw [hkind] at hopen
    refine ⟨hworks, fun y hy => ?_, fun h => absurd h (by simp), fun j hj h1 hne => ?_⟩
    · obtain rfl := Option.some.inj hy
      exact ⟨fun hfen => (hopen hfen).1, fun hfen => hshut hfen _⟩
    · cases hfen : s.fenced pCAL with
      | false => exact (hopen hfen).2 _ (calCnt_apart hk.1 h1 hne)
      | true => exact hshut hfen _
theorem State.calWorks.inForce {s t : State} (h : s.calWorks t) (k : Nat) : t.calInForce k = s.calInForce k := by
  have hbytes : ∀ a n, t.flashBytes a n = s.flashBytes a n := fun a n => by
    unfold State.flashBytes State.flashByte
    rw [h.rest.2.1]
  unfold State.calInForce
  rw [hbytes, hbytes]
theorem State.calsTaken_spec (m : List Nat) (hm : m.Nodup) (hlt : ∀ k ∈ m, 1 ≤ k ∧ k < 6) (s : State) {t : State} (ht : m.foldl State.calTaken s = t) :
    s.calWorks t ∧ (∀ k ∈ m,
      (∀ x, s.calInForce k = some x → (s.fenced pCAL = false → t.get pCAL (calCnt k) = calNum x.2) ∧
        (s.fenced pCAL = true → t.get pCAL (calCnt k) = s.get pCAL (calCnt k))) ∧
      (s.calInForce k = none → t.get pCAL (calCnt k) = s.get pCAL (calCnt k) ∧
        (s.fenced pBOOT = false → bit (t.get pBOOT R.PG_IRQ_RAW) 1 = true))) ∧
    ∀ j < 6, 1 ≤ j → j ∉ m → t.get pCAL (calCnt j) = s.get pCAL (calCnt j) := by
  induction m generalizing s with
  | nil =>
    subst ht
    exact ⟨s.calWorks_refl, fun _ h => absurd h List.not_mem_nil, fun _ _ _ _ => rfl⟩
  | cons l m ih =>
    obtain ⟨hl, hm⟩ := List.nodup_cons.mp hm
    have hl6 := hlt l (by simp)
    rw [List.foldl_cons] at ht
    obtain ⟨u, hu⟩ : ∃ u, s.calTaken l = u := ⟨_, rfl⟩
    rw [hu] at ht
    obtain ⟨h1, h2, h3, h4⟩ := s.calTaken_spec hl6 hu
    obtain ⟨k1, k2, k3⟩ := ih hm (fun k hk => hlt k (List.mem_cons_of_mem _ hk)) u ht
    have hfen : ∀ {p}, u.get p R.PG_FENCE_FENCED = s.get p R.PG_FENCE_FENCED → u.fenced p = s.fenced p := fun h => by
      unfold State.fenced State.flag
      rw [h]
    have hcal := hfen h1.fence
    have hboot := hfen (h1.boot R.PG_FENCE_FENCED (by decide))
    refine ⟨h1.trans k1, fun k hk => ?_, fun j hj hj1 hn => ?_⟩
    · rcases List.mem_cons.mp hk with rfl | hk
      · have hsame := k3 k hl6.2 hl6.1 hl
        refine ⟨fun x hx => ?_, fun hx => ?_⟩
        · rw [hsame]
          exact h2 x hx
        · rw [hsame]
          exact ⟨(h3 hx).1, fun hf => k1.raw 1 (by decide) ((h3 hx).2 hf)⟩
      · have hne : k ≠ l := fun h => hl (h ▸ hk)
        have hk6 := hlt k (List.mem_cons_of_mem _ hk)
        have hkeep := h4 k hk6.2 hk6.1 hne
        obtain ⟨e1, e2⟩ := k2 k hk
        rw [h1.inForce, hcal, hkeep] at e1
        rw [h1.inForce, hboot, hkeep] at e2
        exact ⟨e1, e2⟩
    · obtain ⟨hnl, hnm⟩ := not_or.mp (mt List.mem_cons.mpr hn)
      exact (k3 j hj hj1 hnm).trans (h4 j hj hj1 hnl)
theorem exec_stepCal {s : State} (h : s.stepTaken 7 = true) (hs : s.shut = false) :
    exec .stepCal s = .next (([1, 2, 3, 4, 5].foldl State.calTaken (s.stepBegin 7)).stepDone 7) := by
  change execStepCal s = _
  unfold execStepCal
  rw [if_neg (by simp [h, hs])]
  rfl
/-- Step CAL. -/
theorem stepCal_read {s : State} (h : s.stepTaken 7 = true) (hs : s.shut = false) : ∃ t, exec .stepCal s = .next t ∧ attempted s t 7 ∧
    t.bootStep 7 = 2 ∧ ∀ k ∈ [1, 2, 3, 4, 5],
      (∀ x, s.calInForce k = some x → (s.fenced pCAL = false → s.resetting pCAL = false → t.get pCAL (calCnt k) = calNum x.2) ∧
        (s.fenced pCAL = true → t.get pCAL (calCnt k) = s.get pCAL (calCnt k))) ∧
      (s.calInForce k = none → t.get pCAL (calCnt k) = s.get pCAL (calCnt k) ∧
        (s.fenced pBOOT = false → bit (t.get pBOOT R.PG_IRQ_RAW) 1 = true)) := by
  obtain ⟨b, hb⟩ : ∃ b, s.stepBegin 7 = b := ⟨_, rfl⟩
  obtain ⟨hbbut, -, ⟨rb, hbshape⟩, -⟩ := s.stepBegin_spec (by decide) hb
  have hpage : ∀ f, b.get pCAL f = s.get pCAL f := fun f => hbbut _ _ (by simp [pCAL, pBOOT])
  have hfen : b.fenced pCAL = s.fenced pCAL ∧ b.fenced pBOOT = s.fenced pBOOT := by
    unfold State.fenced State.flag
    rw [hpage, hbbut.field (f := R.PG_FENCE_FENCED) (by decide)]
    exact ⟨rfl, rfl⟩
  have hforce : ∀ k, b.calInForce k = s.calInForce k := fun k => by
    rw [hbshape]
    rfl
  obtain ⟨v, hv⟩ : ∃ v, [1, 2, 3, 4, 5].foldl State.calTaken b = v := ⟨_, rfl⟩
  obtain ⟨hworks, hkinds, -⟩ := State.calsTaken_spec [1, 2, 3, 4, 5] (by decide) (by decide) b hv
  simp only [hforce, hfen, hpage] at hkinds
  obtain ⟨t, ht⟩ : ∃ t, v.stepDone 7 = t := ⟨_, rfl⟩
  obtain ⟨hbut, htwo, -, -, hraw, r', q, d, i, w, hshape⟩ := v.stepDone_spec (by decide) ht
  have hex := exec_stepCal h hs
  rw [hb, hv, ht] at hex
  have hcal : ∀ f, t.get pCAL f = v.get pCAL f := fun f => hbut _ _ fun e he => Or.inl (by
    have hp : e.1 = pBOOT := (by decide : ∀ e ∈ stepJudged 7, e.1 = pBOOT) e he
    rw [hp]
    decide)
  obtain ⟨hvboot, hvflash, hvpend, -⟩ := hworks.rest
  refine ⟨t, hex, attempted_of (by decide) (by decide) ?_ ?_ ?_ ?_ (fun h => absurd h (by decide)), htwo, fun k hk => ?_⟩
  · rw [hb, hbut.field (bootTry_apart 7 (by decide) 7 (by decide))]
    exact hworks.boot _ (by decide)
  · rw [hshape, hb]
    dsimp only
    rw [hvboot]
  · rw [hshape]
    exact hvflash.trans (by rw [hbshape])
  · rw [hshape]
    exact hvpend.trans (by rw [hbshape])
  · obtain ⟨e1, e2⟩ := hkinds k hk
    rw [hcal]
    exact ⟨fun x hx => ⟨fun hf _ => (e1 x hx).1 hf, fun hf => (e1 x hx).2 hf⟩, fun hx => ⟨(e2 hx).1, fun hf => hraw 1 (by decide) ((e2 hx).2 hf)⟩⟩
end Sys2Proof.Machine
end

section
/-! ### Steps LANES and CROOK (O59) -/
open Sys2Proof Sys2Proof.Machine
namespace Sys2Proof.Machine

/-! ### A lane that the sequencer moves -/

/-- A step that moves lane l, its causes, and of the sequencer which lanes it searches. -/
structure State.laneSteps (s t : State) (l : Nat) : Prop where
  others : ∀ n, n ≠ l → t.laneAt n = s.laneAt n
  but : s.regsBut t [(pLANE l, R.PG_IRQ_RAW)]
  shape : ∃ r a h c w o b, t = { s with
    regs := r, lane := a, head := h, calst := c, host := { s.host with waiting := w }, outs := o, boot := { s.boot with searching := b } }
theorem State.laneSteps_refl (s : State) (l : Nat) : s.laneSteps s l :=
  ⟨fun _ _ => rfl, s.regsBut_refl _, s.regs, s.lane, s.head, s.calst, s.host.waiting, s.outs, s.boot.searching, rfl⟩
theorem State.laneSteps.trans {s t u : State} {l : Nat} (h : s.laneSteps t l) (k : t.laneSteps u l) : s.laneSteps u l := by
  refine ⟨fun n hn => (k.others n hn).trans (h.others n hn), State.regsBut_trans h.but k.but, ?_⟩
  obtain ⟨r, a, x, c, w, o, b, ht⟩ := h.shape
  obtain ⟨r', a', x', c', w', o', b', hu⟩ := k.shape
  exact ⟨r', a', x', c', w', o', b', by rw [hu, ht]⟩
theorem State.laneMoves.steps {s t : State} {l : Nat} (h : s.laneMoves t l) : s.laneSteps t l := by
  obtain ⟨r, a, x, c, w, ht⟩ := h.shape
  exact ⟨h.others, h.but, r, a, x, c, w, s.outs, s.boot.searching, ht⟩
theorem State.laneSteps_setLane (s : State) (l st : Nat) : s.laneSteps (s.setLane l st) l := (s.setLane_spec l st rfl).1.steps
theorem State.laneSteps_updLane (s : State) (l : Nat) (g : LaneSt → LaneSt) : s.laneSteps (s.updLane l g) l := (s.laneMoves_updLane l g).steps
theorem State.laneSteps_emit (s : State) (l : Nat) (o : Out) : s.laneSteps (s.emit o) l :=
  ⟨fun _ _ => rfl, s.regsBut_refl _, s.regs, s.lane, s.head, s.calst, s.host.waiting, o :: s.outs, s.boot.searching, rfl⟩
theorem State.laneSteps_searchStart (s : State) (l : Nat) {t : State} (ht : s.searchStart l true = t) :
    s.laneSteps t l ∧ (t.laneAt l).st = 2 ∧ (t.laneAt l).bootSearch = true := by
  obtain ⟨u, hmoves, hu, htwo, hboot, -⟩ := s.searchStart_boot l ht
  have hat : ∀ n, t.laneAt n = u.laneAt n := fun n => by
    rw [hu]
    rfl
  refine ⟨hmoves.steps.trans ⟨fun n _ => hat n, ?_, u.regs, u.lane, u.head, u.calst, u.host.waiting, u.outs, _, hu⟩, by rw [hat, htwo], by rw [hat, hboot]⟩
  exact State.regsBut_of_regs (u.regsBut_refl _) (by rw [hu])
theorem State.laneSteps_laneIdle (s : State) (l : Nat) : s.laneSteps (s.laneIdle l) l := by
  unfold State.laneIdle
  dsimp only
  split_ifs
  · exact s.laneSteps_refl l
  · exact (s.laneSteps_setLane l 4).trans (State.laneSteps_updLane _ l _)
  · exact ((s.laneSteps_setLane l 5).trans (State.laneSteps_updLane _ l _)).trans (State.laneSteps_emit _ l _)
  · exact s.laneSteps_refl l
theorem State.laneSteps_laneMaint (s : State) (l : Nat) : s.laneSteps (s.laneMaint l) l := by
  unfold State.laneMaint
  dsimp only
  split_ifs
  · exact s.laneSteps_refl l
  · exact (s.laneSteps_setLane l 6).trans (State.laneSteps_updLane _ l _)
  · exact s.laneSteps_setLane l 1
  · exact s.laneSteps_refl l
theorem State.laneMaint_stays (s : State) (l : Nat) (h : l < 132 ∨ (s.flag (pLANE l) R.LANE_CTRL_MAINT = false ∧ (s.laneAt l).st ≠ 6)) : s.laneMaint l = s := by
  unfold State.laneMaint
  dsimp only
  split
  · rfl
  · next hc =>
    obtain ⟨hm, hs⟩ := h.resolve_left (by
      simp only [Bool.or_eq_true, decide_eq_true_eq, not_or] at hc
      omega)
    rw [hm]
    simp [hs]
theorem State.laneIdle_serial (s : State) {l : Nat} (h : 128 ≤ l) : s.laneIdle l = s := by
  unfold State.laneIdle
  dsimp only
  rw [if_pos (by simp [h])]
/-- Nothing asks lane l for electrical idle or for maintenance. -/
def State.laneAsked (s : State) (l : Nat) : Prop :=
  (l < 128 → s.flag (pLANE l) R.LANE_CTRL_EIDLE = false) ∧ (132 ≤ l → s.flag (pLANE l) R.LANE_CTRL_MAINT = false)
theorem State.laneEnable_spec (s : State) (l : Nat) {t : State} (ht : s.laneEnable l true = t) :
    s.laneSteps t l ∧ (s.laneAsked l → (t.laneAt l).st = 1) := by
  unfold State.laneEnable at ht
  rw [if_pos rfl] at ht
  obtain ⟨u, hu⟩ : ∃ u, s.setLane l 1 = u := ⟨_, rfl⟩
  obtain ⟨hmoves, hone, -⟩ := s.setLane_spec l 1 hu
  rw [hu] at ht
  refine ⟨ht ▸ (hmoves.steps.trans (u.laneSteps_laneIdle l)).trans (State.laneSteps_laneMaint _ l), fun ⟨hidle, hmaint⟩ => ?_⟩
  have hflag : ∀ f : Fld, f.id ≠ R.PG_IRQ_RAW.id → u.flag (pLANE l) f = s.flag (pLANE l) f := fun f hf => by
    unfold State.flag
    rw [hmoves.regs _ hf]
  have hstay : u.laneIdle l = u := by
    by_cases hl : l < 128
    · exact u.laneIdle_stays l ((hflag _ (by decide)).trans (hidle hl)) (by rw [hone]; decide)
    · exact u.laneIdle_serial (by omega)
  rw [hstay, u.laneMaint_stays l] at ht
  · rw [← ht, hone]
  · by_cases hl : l < 132
    · exact Or.inl hl
    · exact Or.inr ⟨(hflag _ (by decide)).trans (hmaint (by omega)), by rw [hone]; decide⟩

/-! ### A lane that is brought up (R332, R368) -/

/-- The registers of a lane that bringing it up touches. -/
def upFields (l : Nat) : List (Nat × Fld) :=
  [(pLANE l, R.LANE_CTRL_RX_INV), (pLANE l, R.LANE_CTRL_TX_INV), (pLANE l, R.PG_CTRL_EN), (pLANE l, R.PG_IRQ_RAW)]
/-- What the board record asks of a lane. -/
def State.laneUpAs (s t : State) (l : Nat) : Prop :=
  t.enabled (pLANE l) = true ∧ t.flag (pLANE l) R.LANE_CTRL_RX_INV = s.laneInv false l ∧ t.flag (pLANE l) R.LANE_CTRL_TX_INV = s.laneInv true l ∧
    (s.laneAsked l → (l < 136 → (t.laneAt l).st = 2 ∧ (t.laneAt l).bootSearch = true) ∧ (136 ≤ l → (t.laneAt l).st = 1))
theorem State.laneBringUp_spec (s : State) (l : Nat) {t : State} (ht : s.laneBringUp l = t) : s.laneUpAs t l ∧
    (∀ n, n ≠ l → t.laneAt n = s.laneAt n) ∧ s.regsBut t (upFields l) ∧
    ∃ r a h c w o b, t = { s with
      regs := r, lane := a, head := h, calst := c, host := { s.host with waiting := w }, outs := o, boot := { s.boot with searching := b } } := by
  obtain ⟨u, hu⟩ : ∃ u, ((s.setFlag (pLANE l) R.LANE_CTRL_RX_INV (s.laneInv false l)).setFlag (pLANE l) R.LANE_CTRL_TX_INV (s.laneInv true l)).set (pLANE l)
    R.PG_CTRL_EN 1 = u := ⟨_, rfl⟩
  have hbit : ∀ b : Bool, (b2n b % 2 ^ 1 == 1) = b := by decide
  have hubut : s.regsBut u (upFields l) := hu ▸ State.regsBut_set (State.regsBut_setFlag (State.regsBut_setFlag (s.regsBut_refl _) _ (by simp [upFields])) _
    (by simp [upFields])) _ (by simp [upFields])
  have huen : u.get (pLANE l) R.PG_CTRL_EN = 1 := by
    rw [← hu, State.get_set_self]
    rfl
  have hurx : u.flag (pLANE l) R.LANE_CTRL_RX_INV = s.laneInv false l := by
    unfold State.flag
    rw [← hu, State.get_set_field _ _ _ (by decide), State.get_setFlag_field _ _ _ (by decide)]
    exact (congrArg (· == 1) (s.get_set_self (pLANE l) R.LANE_CTRL_RX_INV _)).trans (hbit _)
  have hutx : u.flag (pLANE l) R.LANE_CTRL_TX_INV = s.laneInv true l := by
    unfold State.flag
    rw [← hu, State.get_set_field _ _ _ (by decide)]
    exact (congrArg (· == 1) (State.get_set_self _ (pLANE l) R.LANE_CTRL_TX_INV _)).trans (hbit _)
  have hushape : ∃ r, u = { s with regs := r } := by
    have hregs : ∀ v : State, (∃ r, v = { s with regs := r }) → ∀ p f x, ∃ r, v.set p f x = { s with regs := r } := by
      rintro _ ⟨r, rfl⟩ p f x
      exact ⟨_, rfl⟩
    exact hu ▸ hregs _ (hregs _ (hregs _ ⟨s.regs, rfl⟩ _ _ _) _ _ _) _ _ _
  obtain ⟨ru, hushape⟩ := hushape
  obtain ⟨v, hv⟩ : ∃ v, u.laneEnable l true = v := ⟨_, rfl⟩
  obtain ⟨hsteps, hone⟩ := u.laneEnable_spec l hv
  have htt : (if l < 136 && (v.laneAt l).st = 1 then v.searchStart l true else v) = t := by
    rw [← ht, ← hv, ← hu]
    rfl
  have hasked : s.laneAsked l → u.laneAsked l := fun ⟨h1, h2⟩ => by
    have hflag : ∀ f : Fld, (∀ e ∈ upFields l, f.id ≠ e.2.id) → u.flag (pLANE l) f = s.flag (pLANE l) f := fun f hf => by
      unfold State.flag
      rw [hubut.field hf]
    refine ⟨fun hl => (hflag _ ?_).trans (h1 hl), fun hl => (hflag _ ?_).trans (h2 hl)⟩ <;>
      · simp only [upFields, List.forall_mem_cons, List.not_mem_nil, false_imp_iff, implies_true, and_true]
        decide
  have hlast : v.laneSteps t l ∧ (s.laneAsked l → (l < 136 → (t.laneAt l).st = 2 ∧ (t.laneAt l).bootSearch = true) ∧ (136 ≤ l → (t.laneAt l).st = 1)) := by
    by_cases hc : l < 136 ∧ (v.laneAt l).st = 1
    · rw [if_pos (by simpa using hc)] at htt
      obtain ⟨h1, h2, h3⟩ := v.laneSteps_searchStart l htt
      exact ⟨h1, fun _ => ⟨fun _ => ⟨h2, h3⟩, fun h => by omega⟩⟩
    · rw [if_neg (by simpa using hc)] at htt
      subst htt
      exact ⟨v.laneSteps_refl l, fun h => ⟨fun hl => absurd ⟨hl, hone (hasked h)⟩ hc, fun _ => hone (hasked h)⟩⟩
  have hall := hsteps.trans hlast.1
  have hregs : ∀ f : Fld, f.id ≠ R.PG_IRQ_RAW.id → t.get (pLANE l) f = u.get (pLANE l) f := fun f hf => hall.but.field (by simpa using hf) _
  refine ⟨⟨?_, ?_, ?_, hlast.2⟩, fun n hn => ?_, State.regsBut_trans hubut (State.regsBut_mono hall.but (by simp [upFields])), ?_⟩
  · unfold State.enabled State.flag
    rw [hregs _ (by decide), huen]
    rfl
  · unfold State.flag at hurx ⊢
    rw [hregs _ (by decide), hurx]
  · unfold State.flag at hutx ⊢
    rw [hregs _ (by decide), hutx]
  · rw [hall.others n hn, hushape]
    rfl
  · obtain ⟨r, a, x, c, w, o, b, hshape⟩ := hall.shape
    exact ⟨r, a, x, c, w, o, b, by rw [hshape, hushape]⟩
/-- Lanes brought up one after the other. -/
theorem State.lanesUp_spec (m : List Nat) (hm : m.Nodup) (s : State) {t : State} (ht : m.foldl State.laneBringUp s = t) :
    (∀ l ∈ m, s.laneUpAs t l) ∧ (∀ n, n ∉ m → t.laneAt n = s.laneAt n) ∧ (∀ q, (∀ l ∈ m, q ≠ pLANE l) → ∀ f, t.get q f = s.get q f) ∧
    ∃ r a h c w o b, t = { s with
      regs := r, lane := a, head := h, calst := c, host := { s.host with waiting := w }, outs := o, boot := { s.boot with searching := b } } := by
  induction m generalizing s with
  | nil =>
    subst ht
    exact ⟨fun _ h => absurd h List.not_mem_nil, fun _ _ => rfl, fun _ _ _ => rfl, s.regs, s.lane, s.head, s.calst, s.host.waiting, s.outs,
      s.boot.searching, rfl⟩
  | cons l m ih =>
    obtain ⟨hl, hm⟩ := List.nodup_cons.mp hm
    rw [List.foldl_cons] at ht
    obtain ⟨u, hu⟩ : ∃ u, s.laneBringUp l = u := ⟨_, rfl⟩
    rw [hu] at ht
    obtain ⟨h1, h2, h3, r, a, x, c, w, o, b, h4⟩ := s.laneBringUp_spec l hu
    obtain ⟨k1, k2, k3, r', a', x', c', w', o', b', k4⟩ := ih hm u ht
    have hinj : ∀ {i j : Nat}, i ≠ j → pLANE i ≠ pLANE j := fun {i j} hij => by
      unfold pLANE
      omega
    have hpage : ∀ q, q ≠ pLANE l → ∀ f, u.get q f = s.get q f := fun q hq f => h3 q f (by
      simp only [upFields, List.forall_mem_cons, List.not_mem_nil, false_imp_iff, implies_true, and_true]
      exact ⟨Or.inl hq, Or.inl hq, Or.inl hq, Or.inl hq⟩)
    refine ⟨fun n hn => ?_, fun n hn => ?_, fun q hq f => ?_, r', a', x', c', w', o', b', by rw [k4, h4]⟩
    · have hinv : ∀ tx n, u.laneInv tx n = s.laneInv tx n := fun tx n => by
        rw [h4]
        rfl
      rcases List.mem_cons.mp hn with rfl | hn
      · have hsame : ∀ f, t.get (pLANE n) f = u.get (pLANE n) f := k3 _ fun i hi => hinj fun h => hl (h ▸ hi)
        unfold State.laneUpAs State.enabled State.flag at h1 ⊢
        rw [hsame, hsame, hsame, k2 n hl]
        exact h1
      · have hne : n ≠ l := fun h => hl (h ▸ hn)
        obtain ⟨e1, e2, e3, e4⟩ := k1 n hn
        rw [hinv] at e2 e3
        have hask : u.laneAsked n ↔ s.laneAsked n := by
          unfold State.laneAsked State.flag
          rw [hpage _ (hinj hne), hpage _ (hinj hne)]
        exact ⟨e1, e2, e3, fun h => e4 (hask.mpr h)⟩
    · obtain ⟨hnl, hnm⟩ := not_or.mp (mt List.mem_cons.mpr hn)
      exact (k2 n hnm).trans (h2 n hnl)
    · exact (k3 q (fun i hi => hq i (List.mem_cons_of_mem _ hi)) f).trans (hpage q (hq l (by simp)) f)

/-! ### The judgement of a step's lanes (R368, R369) -/

theorem State.stepShows_errs (i code step : Nat) (m : List Nat) (s : State) : s.stepShows (m.foldl (fun t l => t.bootErr code step l) s) i := by
  induction m generalizing s with
  | nil => exact s.stepShows_refl i
  | cons l m ih => exact (s.stepShows_err i _ _ _).trans (ih _)
/-- What a step's lanes make of it. -/
theorem State.lanesJudge_spec (s : State) {i : Nat} (hi : i = 4 ∨ i = 5) (hrun : s.bootStep i = 1) {t : State} (ht : s.lanesJudge i = t) :
    s.stepShows t i ∧ t.bootStep i ∈ [1, 2, 3, 4] ∧ (i = 4 → t.bootStep i ∈ [1, 2, 3]) ∧
    (t.bootStep i = 2 → ∀ l ∈ s.stepLanes i, (s.laneAt l).st = 3) := by
  have h8 : i < 8 := by omega
  have hset : ∀ {v}, v < 8 → s.stepShows (s.setStep i v) i ∧ (s.setStep i v).bootStep i = v := fun hv => s.setStep_spec h8 hv rfl
  unfold State.lanesJudge at ht
  dsimp only at ht
  rw [if_neg (by rw [hrun]; decide)] at ht
  split_ifs at ht with h1 h2 h3 h4 h5 h6
  · obtain ⟨hi4, -⟩ : i = 4 ∧ _ := by simpa using h1
    subst hi4
    obtain ⟨e1, e2⟩ := hset (v := 3) (by decide)
    subst ht
    exact ⟨e1, by rw [e2]; decide, fun _ => by rw [e2]; decide, fun h => absurd (e2.symm.trans h) (by decide)⟩
  · subst ht
    exact ⟨s.stepShows_refl i, by rw [hrun]; decide, fun _ => by rw [hrun]; decide, fun h => absurd (hrun.symm.trans h) (by decide)⟩
  · obtain ⟨e1, e2⟩ := hset (v := 2) (by decide)
    subst ht
    refine ⟨e1, by rw [e2]; decide, fun _ => by rw [e2]; decide, fun _ l hl => ?_⟩
    simpa using List.all_eq_true.mp h4 l hl
  · subst ht
    exact ⟨s.stepShows_refl i, by rw [hrun]; decide, fun _ => by rw [hrun]; decide, fun h => absurd (hrun.symm.trans h) (by decide)⟩
  · subst ht
    exact ⟨s.stepShows_refl i, by rw [hrun]; decide, fun _ => by rw [hrun]; decide, fun h => absurd (hrun.symm.trans h) (by decide)⟩
  · have hi5 : i = 5 := hi.resolve_left fun h => h1 (by simpa [h] using h3)
    subst hi5
    obtain ⟨e, he⟩ : ∃ e, ((s.boot.failLanes.filter fun l => laneStep l == 5).foldl (fun t l => t.bootErr 0x23 5 l) s) = e := ⟨_, rfl⟩
    rw [he] at ht
    obtain ⟨e1, e2⟩ := e.setStep_spec (i := 5) (v := 3) (by decide) (by decide) ht
    exact ⟨(he ▸ State.stepShows_errs 5 _ _ _ s).trans e1, by rw [e2]; decide, fun h => absurd h (by decide), fun h => absurd (e2.symm.trans h) (by decide)⟩
  · have hi5 : i = 5 := hi.resolve_left fun h => h1 (by simpa [h] using h3)
    subst hi5
    obtain ⟨e1, e2⟩ := s.setStep_spec (i := 5) (v := 4) (by decide) (by decide) ht
    exact ⟨e1, by rw [e2]; decide, fun h => absurd h (by decide), fun h => absurd (e2.symm.trans h) (by decide)⟩
end Sys2Proof.Machine
end

section
/-! ### What steps LANES and CROOK answer (O59) -/
open Sys2Proof Sys2Proof.Machine
namespace Sys2Proof.Machine

/-- What a step of the lanes has left: the lanes of list m that the board record names are up as it says, and other pages are as they were. -/
structure lanesRisen (s t : State) (i : Nat) (m : List Nat) : Prop where
  taken : attempted s t i
  up : ∀ l ∈ m, s.laneNamed l = true → s.laneUpAs t l
  down : ∀ l, (l ∉ m ∨ s.laneNamed l = false) → t.laneAt l = s.laneAt l ∧ t.enabled (pLANE l) = s.enabled (pLANE l)
  judged : t.bootStep i ∈ [1, 2, 3, 4] ∧ (i = 4 → t.bootStep i ∈ [1, 2, 3]) ∧
    (t.bootStep i = 2 → ∀ l < 136, laneStep l = i → s.laneNamed l = true → (t.laneAt l).st = 3)
theorem feedStep_apart : (∀ j < 8, (R.BOOT_TRY.nth 4 j).id ∉ [R.FEED_EVICT_CNT.id, R.PG_IRQ_RAW.id, R.FEED_PAUSE_TX.id]) ∧
    (∀ j < 8, (bootFld j).id ∉ [R.FEED_EVICT_CNT.id, R.PG_IRQ_RAW.id, R.FEED_PAUSE_TX.id]) ∧
    ∀ f ∈ [R.PG_CTRL_EN, R.LANE_CTRL_RX_INV, R.LANE_CTRL_TX_INV], f.id ∉ [R.FEED_EVICT_CNT.id, R.PG_IRQ_RAW.id, R.FEED_PAUSE_TX.id] := by decide
theorem State.laneUpAs_congr {s t u : State} {l : Nat} (hget : ∀ f ∈ [R.PG_CTRL_EN, R.LANE_CTRL_RX_INV, R.LANE_CTRL_TX_INV], u.get (pLANE l) f = t.get (pLANE l) f)
    (hlane : u.laneAt l = t.laneAt l) (h : s.laneUpAs t l) : s.laneUpAs u l := by
  simp only [List.forall_mem_cons, List.not_mem_nil, false_imp_iff, implies_true, and_true] at hget
  obtain ⟨hen, hrx, htx⟩ := hget
  unfold State.laneUpAs State.enabled State.flag at h ⊢
  rw [hen, hrx, htx, hlane]
  exact h
/-- The lanes of a step are brought up, the feed ports settle where `feed` is set, and the step is judged. -/
theorem lanesRisen_of (s : State) {i : Nat} (hi : i = 4 ∨ i = 5) {m : List Nat} (hm : m.Nodup) (feed : Bool) {t : State}
    (ht : (if feed then (((s.stepBegin i).setStep i 1).bringUp m).feedSettle else ((s.stepBegin i).setStep i 1).bringUp m).lanesJudge i = t) :
    lanesRisen s t i m := by
  have h8 : i < 8 := by omega
  obtain ⟨b, hb⟩ : ∃ b, s.stepBegin i = b := ⟨_, rfl⟩
  obtain ⟨hbbut, -, ⟨rb, hbshape⟩, -⟩ := s.stepBegin_spec h8 hb
  obtain ⟨u, hu⟩ : ∃ u, b.setStep i 1 = u := ⟨_, rfl⟩
  obtain ⟨hshow, hone⟩ := b.setStep_spec h8 (by decide) hu
  rw [hb, hu] at ht
  have hnamed : ∀ l, u.laneNamed l = s.laneNamed l := fun l => by
    obtain ⟨r, q, w, h⟩ := hshow.shape
    rw [h, hbshape]
    rfl
  have hpage : ∀ q, q ≠ pBOOT → ∀ f, u.get q f = s.get q f := fun q hq f =>
    (hshow.page hq f).trans (hbbut q f (by
      simp only [List.mem_singleton, forall_eq]
      exact Or.inl hq))
  have hlane : ∀ l, pLANE l ≠ pBOOT := fun l => by
    unfold pLANE pBOOT
    omega
  have husame : ∀ l, u.laneAt l = s.laneAt l := fun l => by
    obtain ⟨r, q, w, h⟩ := hshow.shape
    rw [h, hbshape]
    rfl
  have hupas : ∀ {v l}, u.laneUpAs v l → s.laneUpAs v l := fun {v l} h => by
    have hinv : ∀ tx n, u.laneInv tx n = s.laneInv tx n := fun tx n => by
      obtain ⟨r, q, w, h⟩ := hshow.shape
      rw [h, hbshape]
      rfl
    obtain ⟨e1, e2, e3, e4⟩ := h
    rw [hinv] at e2 e3
    refine ⟨e1, e2, e3, fun h => e4 ?_⟩
    unfold State.laneAsked State.flag at h ⊢
    rw [hpage _ (hlane l), hpage _ (hlane l)]
    exact h
  obtain ⟨v, hv⟩ : ∃ v, u.bringUp m = v := ⟨_, rfl⟩
  obtain ⟨hup, hdown, hvpage, r, a, x, c, w, o, sr, hvshape⟩ := State.lanesUp_spec _ (hm.filter _) u hv
  rw [hv] at ht
  obtain ⟨f, hf⟩ : ∃ f, (if feed then v.feedSettle else v) = f := ⟨_, rfl⟩
  rw [hf] at ht
  have hfeed : v.feedStep f := by
    cases feed with
    | true => exact hf ▸ v.feedStep_feedSettle
    | false => exact hf ▸ v.feedStep_refl
  have hfshape := hfeed.like.shape
  have hfboot : f.boot = v.boot := by
    have h := congrArg State.boot hfshape
    exact h
  have hfhold : f.hold = v.hold := by
    rw [← hf]
    split
    · rw [State.feedSettle_hold]
    · rfl
  obtain ⟨hftry, hfstep, hflanes⟩ := feedStep_apart
  have hfget : ∀ {g : Fld}, g.id ∉ [R.FEED_EVICT_CNT.id, R.PG_IRQ_RAW.id, R.FEED_PAUSE_TX.id] → ∀ p, f.get p g = v.get p g := fun hg p => hfeed.get _ hg p
  have hvboot : ∀ g, v.get pBOOT g = u.get pBOOT g := fun g => hvpage _ (fun l _ => (hlane l).symm) g
  have hfrun : f.bootStep i = 1 := by
    unfold State.bootStep
    rw [hfget (hfstep i h8), hvboot]
    exact hone
  obtain ⟨hjudge, hj1, hj2, hj3⟩ := f.lanesJudge_spec hi hfrun ht
  have htlane : ∀ l, t.laneAt l = v.laneAt l := fun l => by
    obtain ⟨r', q', w', h⟩ := hjudge.shape
    rw [h]
    exact hfeed.like.laneAt l
  have htget : ∀ {g : Fld}, g.id ∉ [R.FEED_EVICT_CNT.id, R.PG_IRQ_RAW.id, R.FEED_PAUSE_TX.id] → ∀ q, q ≠ pBOOT → t.get q g = v.get q g := fun hg q hq =>
    (hjudge.page hq _).trans (hfget hg q)
  have hinj : ∀ {i j : Nat}, i ≠ j → pLANE i ≠ pLANE j := fun {i j} hij => by
    unfold pLANE
    omega
  refine ⟨?_, fun l hl hn => hupas ?_, fun l hl => ?_, hj1, hj2, fun htwo l hl hs hn => ?_⟩
  · have hattempt : t.boot.attempt = b.boot.attempt := by
      obtain ⟨q, hq⟩ := hjudge.boot
      obtain ⟨q', hq'⟩ := hshow.boot
      rw [hq, hfboot, hvshape]
      dsimp only
      rw [hq']
    refine attempted_hold (by omega) ?_ (hattempt.trans (by rw [hb])) ?_
    · rw [hb, hjudge.try h8 h8, hfget (hftry i h8), hvboot, hshow.try h8 h8]
    · rw [hjudge.hold, hfhold, ← hv, State.bringUp_hold, hshow.hold, ← hb]
      exact s.hold_stepBegin i
  · exact State.laneUpAs_congr (fun g hg => htget (hflanes g hg) _ (hlane l)) (htlane l) (hup l (List.mem_filter.mpr ⟨hl, (hnamed l).trans hn⟩))
  · have hnot : l ∉ m.filter u.laneNamed := fun h => by
      obtain ⟨h1, h2⟩ := List.mem_filter.mp h
      rcases hl with hl | hl
      · exact hl h1
      · rw [hnamed, hl] at h2
        exact absurd h2 (by decide)
    refine ⟨(htlane l).trans ((hdown l hnot).trans (husame l)), ?_⟩
    unfold State.enabled State.flag
    rw [htget (hflanes _ (by simp)) _ (hlane l), hvpage _ (fun n hn => hinj (i := l) (j := n) fun h => hnot (by rw [h]; exact hn)), hpage _ (hlane l)]
  · rw [htlane, ← hfeed.like.laneAt]
    refine hj3 htwo l (List.mem_filter.mpr ⟨List.mem_range.mpr hl, ?_⟩)
    have hfn : f.laneNamed l = s.laneNamed l := by
      rw [← hnamed]
      unfold State.laneNamed
      rw [hfboot, hvshape]
    rw [hfn, hn, hs]
    simp
theorem stepLanes_nodup : (List.range 128 ++ (List.range 24).map (136 + ·)).Nodup := by decide +kernel
theorem stepCrook_nodup : ((List.range 4).map (132 + ·)).Nodup := by decide
theorem mem_stepLanes {l : Nat} : l ∈ List.range 128 ++ (List.range 24).map (136 + ·) ↔ l < 128 ∨ (136 ≤ l ∧ l < 160) := by
  simp only [List.mem_append, List.mem_range, List.mem_map]
  refine or_congr Iff.rfl ⟨?_, fun h => ⟨l - 136, by omega, by omega⟩⟩
  rintro ⟨a, ha, rfl⟩
  omega
theorem mem_stepCrook {l : Nat} : l ∈ (List.range 4).map (132 + ·) ↔ 132 ≤ l ∧ l < 136 := by
  simp only [List.mem_range, List.mem_map]
  refine ⟨?_, fun h => ⟨l - 132, by omega, by omega⟩⟩
  rintro ⟨a, ha, rfl⟩
  omega
theorem exec_stepLanes {s : State} (h : s.stepTaken 4 = true) (hs : s.shut = false) : exec .stepLanes s = .next
    ((((s.stepBegin 4).setStep 4 1).bringUp (List.range 128 ++ (List.range 24).map (136 + ·))).feedSettle.lanesJudge 4) := by
  change execStepLanes s = _
  unfold execStepLanes
  rw [if_neg (by simp [h, hs])]
theorem exec_stepCrook {s : State} (h : s.stepTaken 5 = true) (hs : s.shut = false) : exec .stepCrook s = .next
    (if !s.straps.pairEn then (s.stepBegin 5).setStep 5 5
      else (((s.stepBegin 5).setStep 5 1).bringUp ((List.range 4).map (132 + ·))).lanesJudge 5) := by
  change execStepCrook s = _
  unfold execStepCrook
  rw [if_neg (by simp [h, hs])]
/-- Step LANES. -/
theorem stepLanes_risen {s : State} (h : s.stepTaken 4 = true) (hs : s.shut = false) : ∃ t, exec .stepLanes s = .next t ∧ attempted s t 4 ∧
    t.bootStep 4 ∈ [1, 2, 3] ∧ (t.bootStep 4 = 2 → ∀ l < 128, s.laneNamed l = true → (t.laneAt l).st = 3) ∧ ∀ l < 160, (l < 128 ∨ 136 ≤ l) →
      (s.laneNamed l = false → t.laneAt l = s.laneAt l ∧ t.enabled (pLANE l) = s.enabled (pLANE l)) ∧
      (s.laneNamed l = true → t.enabled (pLANE l) = true ∧
        t.flag (pLANE l) R.LANE_CTRL_RX_INV = s.laneInv false l ∧ t.flag (pLANE l) R.LANE_CTRL_TX_INV = s.laneInv true l ∧
        (l < 128 → s.flag (pLANE l) R.LANE_CTRL_EIDLE = false → (t.laneAt l).st = 2 ∧ (t.laneAt l).bootSearch = true) ∧
        (136 ≤ l → s.flag (pLANE l) R.LANE_CTRL_MAINT = false → (t.laneAt l).st = 1)) := by
  have hex := exec_stepLanes h hs
  have hnodup := stepLanes_nodup
  have hmem := @mem_stepLanes
  generalize List.range 128 ++ (List.range 24).map (136 + ·) = m at hex hnodup hmem
  obtain ⟨t, ht⟩ : ∃ t, (((s.stepBegin 4).setStep 4 1).bringUp m).feedSettle.lanesJudge 4 = t := ⟨_, rfl⟩
  obtain ⟨htaken, hup, hdown, -, hthree, hall⟩ := lanesRisen_of s (Or.inl rfl) hnodup true (t := t) (by rw [if_pos rfl]; exact ht)
  refine ⟨t, hex.trans (by rw [ht]), htaken, hthree rfl, fun htwo l hl hn => ?_, fun l hl hpart => ⟨fun hn => hdown l (Or.inr hn), fun hn => ?_⟩⟩
  · exact hall htwo l (by omega) (by unfold laneStep; rw [if_pos hl]) hn
  · obtain ⟨e1, e2, e3, e4⟩ := hup l (hmem.mpr (by omega)) hn
    exact ⟨e1, e2, e3, fun hl he => (e4 ⟨fun _ => he, fun h => by omega⟩).1 (by omega), fun hl he => (e4 ⟨fun h => by omega, fun _ => he⟩).2 hl⟩
/-- Step CROOK of a single unit. -/
theorem stepCrook_single {s : State} (h : s.stepTaken 5 = true) (hs : s.shut = false) (hp : s.straps.pairEn = false) : ∃ t, exec .stepCrook s = .next t ∧
    attempted s t 5 ∧ t.bootStep 5 = 5 ∧ s.regsBut t (stepFields 5) ∧ ({ t with regs := s.regs, boot := s.boot, host := s.host } : State) = s := by
  obtain ⟨b, hb⟩ : ∃ b, s.stepBegin 5 = b := ⟨_, rfl⟩
  obtain ⟨hbbut, -, ⟨rb, hbshape⟩, -⟩ := s.stepBegin_spec (by decide) hb
  obtain ⟨t, ht⟩ : ∃ t, b.setStep 5 5 = t := ⟨_, rfl⟩
  obtain ⟨hshow, hfive⟩ := b.setStep_spec (by decide) (by decide) ht
  have hex := exec_stepCrook h hs
  rw [hp, hb, ht] at hex
  refine ⟨t, hex, attempted_hold (by decide) ?_ ?_ ?_, hfive, ?_, ?_⟩
  · rw [hb]
    exact hshow.try (by decide) (by decide)
  · obtain ⟨q, hq⟩ := hshow.boot
    rw [hq, hb]
  · rw [hshow.hold, ← hb]
    exact s.hold_stepBegin 5
  · exact State.regsBut_trans (State.regsBut_mono hbbut (stepTry_fields 5)) (State.regsBut_mono hshow.but (stepJudged_fields 5))
  · obtain ⟨r, q, w, hshape⟩ := hshow.shape
    rw [hshape, hbshape]
/-- Step CROOK of a unit of a pair. -/
theorem stepCrook_risen {s : State} (h : s.stepTaken 5 = true) (hs : s.shut = false) (hp : s.straps.pairEn = true) : ∃ t, exec .stepCrook s = .next t ∧
    attempted s t 5 ∧ t.bootStep 5 ∈ [1, 2, 3, 4] ∧
    (t.bootStep 5 = 2 → ∀ l, 132 ≤ l → l < 136 → s.laneNamed l = true → (t.laneAt l).st = 3) ∧ ∀ l, 132 ≤ l → l < 136 → s.laneNamed l = true →
    t.enabled (pLANE l) = true ∧ t.flag (pLANE l) R.LANE_CTRL_RX_INV = s.laneInv false l ∧
    t.flag (pLANE l) R.LANE_CTRL_TX_INV = s.laneInv true l ∧
    (s.flag (pLANE l) R.LANE_CTRL_MAINT = false → (t.laneAt l).st = 2 ∧ (t.laneAt l).bootSearch = true) := by
  obtain ⟨t, ht⟩ : ∃ t, (((s.stepBegin 5).setStep 5 1).bringUp ((List.range 4).map (132 + ·))).lanesJudge 5 = t := ⟨_, rfl⟩
  obtain ⟨htaken, hup, -, hfour, -, hall⟩ := lanesRisen_of s (Or.inr rfl) stepCrook_nodup false (t := t) (by rw [if_neg (by decide)]; exact ht)
  have hex := exec_stepCrook h hs
  rw [hp] at hex
  refine ⟨t, hex.trans (by rw [← ht]; rfl), htaken, hfour, fun htwo l hlo hhi hn => ?_, fun l hlo hhi hn => ?_⟩
  · exact hall htwo l hhi (by unfold laneStep; rw [if_neg (by omega)]) hn
  · obtain ⟨e1, e2, e3, e4⟩ := hup l (mem_stepCrook.mpr ⟨hlo, hhi⟩) hn
    exact ⟨e1, e2, e3, fun he => (e4 ⟨fun h => by omega, fun _ => he⟩).1 hhi⟩
end Sys2Proof.Machine
end

section
/-! ### Step DRAM and the training of its channels (O59) -/
open Sys2Proof Sys2Proof.Machine
namespace Sys2Proof.Machine

/-! ### A channel that fails (R301, R369) -/

/-- What the sequencer's work on the channels leaves. -/
structure State.chanSteps (s t : State) : Prop where
  page : ∀ f : Fld, (∀ e ∈ errFields pBOOT, f.id ≠ e.2.id) → t.get pBOOT f = s.get pBOOT f
  raised : ∀ j, ∀ i < 32, bit (s.get (pDRAM j) R.PG_IRQ_RAW) i = true → bit (t.get (pDRAM j) R.PG_IRQ_RAW) i = true
  fence : ∀ j, t.get (pDRAM j) R.PG_FENCE_FENCED = s.get (pDRAM j) R.PG_FENCE_FENCED
  due : ∀ k, s.boot.dueAt.has k = true → t.boot.dueAt.has k = true
  shape : ∃ r d v x y w, t = { s with
    regs := r, boot := { s.boot with dueAt := d, interval := v, chRun := x, chFail := y }, host := { s.host with waiting := w } }
theorem State.chanSteps_refl (s : State) : s.chanSteps s :=
  ⟨fun _ _ => rfl, fun _ _ _ h => h, fun _ => rfl, fun _ h => h, s.regs, s.boot.dueAt, s.boot.interval, s.boot.chRun, s.boot.chFail, s.host.waiting, rfl⟩
theorem State.chanSteps.trans {s t u : State} (h : s.chanSteps t) (k : t.chanSteps u) : s.chanSteps u := by
  refine ⟨fun f hf => (k.page f hf).trans (h.page f hf), fun j i hi hb => k.raised j i hi (h.raised j i hi hb), fun j => (k.fence j).trans (h.fence j),
    fun n hn => k.due n (h.due n hn), ?_⟩
  obtain ⟨r, d, v, x, y, w, ht⟩ := h.shape
  obtain ⟨r', d', v', x', y', w', hu⟩ := k.shape
  exact ⟨r', d', v', x', y', w', by rw [hu, ht]⟩
theorem pDRAM_other (j : Nat) : pDRAM j ≠ pBOOT ∧ pDRAM j ≠ pDMAC ∧ pDRAM j ≠ pDRAMC := by
  unfold pDRAM pBOOT pDMAC pDRAMC
  omega
theorem State.channelFail_spec (s : State) (c : Nat) {t : State} (ht : s.channelFail c = t) : s.chanSteps t ∧
    t.boot.chFail = setBit s.boot.chFail c true ∧ t.boot.chRun = setBit s.boot.chRun c false ∧
    t.boot.dueAt.has (0x200 + c) = true ∧
    t.boot.dueAt.getD (0x200 + c) 0 = s.osc + msTicks (s.boot.interval.getD (0x200 + c) s.backMin) ∧
    (s.fenced (pDRAM c) = false → bit (t.get (pDRAM c) R.PG_IRQ_RAW) 1 = true) := by
  obtain ⟨e, he⟩ : ∃ e, s.dramErr c 0x93 0 0 = e := ⟨_, rfl⟩
  have hserves : s.serves e := he ▸ s.serves_dramErr c _ _ _
  have heshape : ∃ r w, e = { s with regs := r, host := { s.host with waiting := w } } :=
    he ▸ (s.reports_err _ _ _ _ _ _).trans (State.reports_err _ _ _ _ _ _ _)
  have hebit : s.fenced (pDRAM c) = false → bit (e.get (pDRAM c) R.PG_IRQ_RAW) 1 = true := fun hf => by
    rw [← he]
    refine State.bit_err _ (State.frozen_of_unfenced ?_) _ _ _ _ _
    unfold State.fenced State.flag at hf ⊢
    rw [State.err64, State.get_err_ne _ _ _ _ _ _ _ (Or.inl (pDRAM_other c).2.2)]
    exact hf
  obtain ⟨b, hb⟩ : ∃ b, e.bootErr 0x93 6 c = b := ⟨_, rfl⟩
  have hshow : e.stepShows b 0 := hb ▸ e.stepShows_err 0 _ _ _
  have hbbut : e.regsBut b (errFields pBOOT) := hb ▸ State.regsBut_err (e.regsBut_refl _) _ _ _ _ _ _ (List.Subset.refl _)
  have hbshape : ∃ r w, b = { e with regs := r, host := { e.host with waiting := w } } := hb ▸ e.reports_err pBOOT 0x93 6 c 0 0
  have hebpage : ∀ f : Fld, (∀ x ∈ errFields pBOOT, f.id ≠ x.2.id) → b.get pBOOT f = s.get pBOOT f := fun f hf =>
    (hbbut.field hf _).trans (hserves.page _ (by unfold servePage; decide) f)
  have hdram : ∀ j f, b.get (pDRAM j) f = e.get (pDRAM j) f := fun j f => hshow.page (pDRAM_other j).1 f
  obtain ⟨r, w, heq⟩ := heshape
  obtain ⟨r', w', hbq⟩ := hbshape
  have hbs : b = { s with regs := r', host := { s.host with waiting := w' } } := by rw [hbq, heq]
  have hmin : b.backMin = s.backMin := by
    unfold State.backMin
    rw [hebpage R.BOOT_BACKOFF_MIN (by decide)]
  have htt : t = { b with boot := { (b.backOff (0x200 + c)).boot with
      chFail := setBit (b.backOff (0x200 + c)).boot.chFail c true, chRun := setBit (b.backOff (0x200 + c)).boot.chRun c false } } := by
    rw [← ht, ← hb, ← he]
    rfl
  have hdue : t.boot.dueAt = b.boot.dueAt.put (0x200 + c) (b.osc + msTicks (b.boot.interval.getD (0x200 + c) b.backMin)) := by
    rw [htt]
    rfl
  have hget : ∀ p f, t.get p f = b.get p f := fun p f => by
    rw [htt]
    rfl
  have hbo : b.boot = s.boot ∧ b.osc = s.osc := by
    rw [hbs]
    exact ⟨rfl, rfl⟩
  refine ⟨⟨fun f hf => (hget _ f).trans (hebpage f hf), fun j i hi hbt => ?_, fun j => ?_, fun k hk => ?_, ?_⟩, ?_, ?_, ?_, ?_, fun hf => ?_⟩
  · rw [hget, hdram]
    exact hserves.raised _ (pDRAM_other j).2.1 i hi hbt
  · rw [hget, hdram]
    exact hserves.kept _ (pDRAM_other j).2.1 _ (by simp [servedKept])
  · rw [hdue, hbo.1]
    by_cases hkc : k = 0x200 + c
    · rw [hkc, NMap.has_put_self]
    · rw [NMap.has_put_other _ _ hkc, hk]
  · refine ⟨r', t.boot.dueAt, t.boot.interval, t.boot.chRun, t.boot.chFail, w', ?_⟩
    rw [htt, hbs]
    rfl
  · rw [htt, hbs]
    rfl
  · rw [htt, hbs]
    rfl
  · rw [hdue, NMap.has_put_self]
  · rw [hdue, NMap.getD_put_self, hmin, hbo.1, hbo.2]
  · rw [hget, hdram]
    exact hebit hf

/-! ### The channels of an attempt (R300, R301) -/

/-- Step DRAM takes up channel c. -/
def State.chanTaken (spd : List SpdInfo) (t : State) (c : Nat) : State :=
  if spdSupported (spd.getD c SpdInfo.absent) && spdAlike (spd.getD c SpdInfo.absent) (spd.getD 0 SpdInfo.absent) then
    t.updBoot fun b => { b with chRun := setBit b.chRun c true, chFail := setBit b.chFail c false }
  else t.channelFail c
/-- A channel that matches trains; another fails. -/
def chanJudged (spd : List SpdInfo) (s t : State) (c : Nat) : Prop :=
  ∀ x y, x = spd.getD c SpdInfo.absent → y = spd.getD 0 SpdInfo.absent →
    (spdSupported x = true → spdAlike x y = true → bit t.boot.chRun c = true ∧ bit t.boot.chFail c = false) ∧
    (spdSupported x = false ∨ spdAlike x y = false → bit t.boot.chRun c = false ∧ bit t.boot.chFail c = true ∧
      t.boot.dueAt.has (0x200 + c) = true ∧ (s.fenced (pDRAM c) = false → bit (t.get (pDRAM c) R.PG_IRQ_RAW) 1 = true))
theorem bit_setBit_self (n i : Nat) (b : Bool) : bit (setBit n i b) i = b := (bit_setBit n i b i).trans (if_pos rfl)
theorem bit_setBit_other (n : Nat) {i j : Nat} (b : Bool) (h : j ≠ i) : bit (setBit n i b) j = bit n j := (bit_setBit n i b j).trans (if_neg h)
theorem State.chanTaken_spec (s : State) (spd : List SpdInfo) (c : Nat) {t : State} (ht : s.chanTaken spd c = t) : s.chanSteps t ∧ chanJudged spd s t c ∧
    ∀ j, j ≠ c → bit t.boot.chRun j = bit s.boot.chRun j ∧ bit t.boot.chFail j = bit s.boot.chFail j := by
  unfold State.chanTaken at ht
  by_cases hc : spdSupported (spd.getD c SpdInfo.absent) = true ∧ spdAlike (spd.getD c SpdInfo.absent) (spd.getD 0 SpdInfo.absent) = true
  · rw [if_pos (by rw [hc.1, hc.2]; rfl)] at ht
    subst ht
    refine ⟨⟨fun _ _ => rfl, fun _ _ _ h => h, fun _ => rfl, fun _ h => h, s.regs, s.boot.dueAt, s.boot.interval, _, _, s.host.waiting, rfl⟩, ?_, fun j hj => ?_⟩
    · rintro x y rfl rfl
      refine ⟨fun _ _ => ⟨bit_setBit_self _ _ _, bit_setBit_self _ _ _⟩, fun h => ?_⟩
      rw [hc.1, hc.2] at h
      exact absurd h (by decide)
    · exact ⟨bit_setBit_other _ _ hj, bit_setBit_other _ _ hj⟩
  · rw [if_neg (by rwa [Bool.and_eq_true])] at ht
    obtain ⟨h1, h2, h3, h4, -, h6⟩ := s.channelFail_spec c ht
    refine ⟨h1, ?_, fun j hj => ?_⟩
    · rintro x y rfl rfl
      refine ⟨fun hx hy => absurd ⟨hx, hy⟩ hc, fun _ => ⟨?_, ?_, h4, h6⟩⟩
      · rw [h3, bit_setBit_self]
      · rw [h2, bit_setBit_self]
    · rw [h2, h3]
      exact ⟨bit_setBit_other _ _ hj, bit_setBit_other _ _ hj⟩
theorem State.chansTaken_spec (spd : List SpdInfo) (m : List Nat) (hm : m.Nodup) (s : State) {t : State} (ht : m.foldl (State.chanTaken spd) s = t) :
    s.chanSteps t ∧ (∀ c ∈ m, chanJudged spd s t c) ∧
    ∀ j, j ∉ m → bit t.boot.chRun j = bit s.boot.chRun j ∧ bit t.boot.chFail j = bit s.boot.chFail j := by
  induction m generalizing s with
  | nil =>
    subst ht
    exact ⟨s.chanSteps_refl, fun _ h => absurd h List.not_mem_nil, fun _ _ => ⟨rfl, rfl⟩⟩
  | cons c m ih =>
    obtain ⟨hc, hm⟩ := List.nodup_cons.mp hm
    rw [List.foldl_cons] at ht
    obtain ⟨u, hu⟩ : ∃ u, s.chanTaken spd c = u := ⟨_, rfl⟩
    rw [hu] at ht
    obtain ⟨h1, h2, h3⟩ := s.chanTaken_spec spd c hu
    obtain ⟨k1, k2, k3⟩ := ih hm u ht
    refine ⟨h1.trans k1, fun j hj => ?_, fun j hj => ?_⟩
    · rcases List.mem_cons.mp hj with rfl | hj
      · obtain ⟨e1, e2⟩ := k3 j hc
        intro x y hx hy
        obtain ⟨f1, f2⟩ := h2 x y hx hy
        rw [e1, e2]
        refine ⟨f1, fun h => ?_⟩
        obtain ⟨g1, g2, g3, g4⟩ := f2 h
        exact ⟨g1, g2, k1.due _ g3, fun hf => k1.raised _ 1 (by decide) (g4 hf)⟩
      · have hfen : u.fenced (pDRAM j) = s.fenced (pDRAM j) := by
          unfold State.fenced State.flag
          rw [h1.fence]
        have h := k2 j hj
        unfold chanJudged at h ⊢
        rwa [hfen] at h
    · obtain ⟨hnc, hnm⟩ := not_or.mp (mt List.mem_cons.mpr hj)
      obtain ⟨e1, e2⟩ := k3 j hnm
      obtain ⟨f1, f2⟩ := h3 j hnc
      exact ⟨e1.trans f1, e2.trans f2⟩

/-! ### The judgement of step DRAM (R301, R368) -/

/-- Every channel serves: the maps are built where they are not kept, and the pages of DRAM are enabled. -/
def State.dramDone (s : State) : State :=
  ((((if s.boot.warm && (List.range 4).any fun c => s.get (pDRAM c) R.DRAM_RSTAT != 0 then s else s.buildMaps).showGeometry).set pDRAMC R.PG_CTRL_EN 1).each
    (List.range 4) fun t c => t.set (pDRAM c) R.PG_CTRL_EN 1).setStep 6 2
/-- A change of DRAM's registers alone. -/
structure State.dramRegs (s t : State) : Prop where
  page : ∀ p, ¬ servePage p → ∀ f, t.get p f = s.get p f
  shape : ∃ r, t = { s with regs := r }
theorem State.dramRegs_refl (s : State) : s.dramRegs s := ⟨fun _ _ _ => rfl, s.regs, rfl⟩
theorem State.dramRegs.trans {s t u : State} (h : s.dramRegs t) (k : t.dramRegs u) : s.dramRegs u := by
  refine ⟨fun p hp f => (k.page p hp f).trans (h.page p hp f), ?_⟩
  obtain ⟨r, ht⟩ := h.shape
  obtain ⟨r', hu⟩ := k.shape
  exact ⟨r', by rw [hu, ht]⟩
theorem State.dramRegs_set (s : State) {p : Nat} (hp : servePage p) (f : Fld) (v : Nat) : s.dramRegs (s.set p f v) :=
  ⟨fun q hq g => s.get_set_ne v (Or.inl fun h => hq (h ▸ hp)), _, rfl⟩
theorem State.dramRegs_each {g : State → Nat → State} (hg : ∀ (t : State) c, t.dramRegs (g t c)) (l : List Nat) (s : State) : s.dramRegs (s.each l g) :=
  List.foldlRecOn (motive := fun v : State => s.dramRegs v) l g s.dramRegs_refl fun v hv n _ => hv.trans (hg v n)
theorem State.dramRegs_buildMaps (s : State) : s.dramRegs s.buildMaps := by
  unfold State.buildMaps
  refine State.dramRegs_each (fun t c => ?_) _ s
  have hp := servePage_dram c
  exact (((t.dramRegs_set hp _ _).trans (State.dramRegs_set _ hp _ _)).trans (State.dramRegs_set _ hp _ _)).trans (State.dramRegs_set _ hp _ _)
theorem State.dramRegs_showGeometry (s : State) : s.dramRegs s.showGeometry := by
  have hp := servePage_dramc
  unfold State.showGeometry
  exact ((((s.dramRegs_set hp _ _).trans (State.dramRegs_set _ hp _ _)).trans (State.dramRegs_set _ hp _ _)).trans (State.dramRegs_set _ hp _ _)).trans
    (State.dramRegs_set _ hp _ _)
theorem State.dramDone_spec (s : State) {t : State} (ht : s.dramDone = t) : (∀ j < 8, t.get pBOOT (R.BOOT_TRY.nth 4 j) = s.get pBOOT (R.BOOT_TRY.nth 4 j)) ∧
    t.bootStep 6 = 2 ∧ t.enabled pDRAMC = true ∧ (∀ j < 4, t.enabled (pDRAM j) = true) ∧
    ∃ r q w, t = { s with regs := r, boot := { s.boot with readyOnce := q }, host := { s.host with waiting := w } } := by
  unfold State.dramDone at ht
  generalize (s.boot.warm && (List.range 4).any fun c => s.get (pDRAM c) R.DRAM_RSTAT != 0) = warm at ht
  obtain ⟨m, hm⟩ : ∃ m, (if warm then s else s.buildMaps) = m := ⟨_, rfl⟩
  have hsm : s.dramRegs m := by
    rw [← hm]
    split
    · exact s.dramRegs_refl
    · exact s.dramRegs_buildMaps
  rw [hm] at ht
  obtain ⟨n, hn⟩ : ∃ n, (m.showGeometry.set pDRAMC R.PG_CTRL_EN 1) = n := ⟨_, rfl⟩
  have hmn : m.dramRegs n := hn ▸ m.dramRegs_showGeometry.trans (State.dramRegs_set _ servePage_dramc _ _)
  have hnen : n.get pDRAMC R.PG_CTRL_EN = 1 := by
    rw [← hn, State.get_set_self]
    rfl
  rw [hn] at ht
  obtain ⟨v, hv⟩ : ∃ v, (n.each (List.range 4) fun t c => t.set (pDRAM c) R.PG_CTRL_EN 1) = v := ⟨_, rfl⟩
  have hnv : n.dramRegs v := hv ▸ State.dramRegs_each (fun t c => t.dramRegs_set (servePage_dram c) _ _) _ n
  have hinj : ∀ {i j : Nat}, i ≠ j → pDRAM i ≠ pDRAM j := fun hij h => hij (pDRAM_inj h)
  have hven : v.get pDRAMC R.PG_CTRL_EN = 1 ∧ ∀ j < 4, v.get (pDRAM j) R.PG_CTRL_EN = 1 := by
    have hfold : ∀ (l : List Nat) (u : State), (l.foldl (fun t c => t.set (pDRAM c) R.PG_CTRL_EN 1) u).get pDRAMC R.PG_CTRL_EN = u.get pDRAMC R.PG_CTRL_EN ∧
        ∀ j, (j ∈ l ∨ u.get (pDRAM j) R.PG_CTRL_EN = 1) → (l.foldl (fun t c => t.set (pDRAM c) R.PG_CTRL_EN 1) u).get (pDRAM j) R.PG_CTRL_EN = 1 := fun l => by
      induction l with
      | nil => exact fun u => ⟨rfl, fun j h => h.resolve_left List.not_mem_nil⟩
      | cons c l ih =>
        intro u
        obtain ⟨h1, h2⟩ := ih (u.set (pDRAM c) R.PG_CTRL_EN 1)
        refine ⟨h1.trans (u.get_set_ne _ (Or.inl (pDRAM_other c).2.2.symm)), fun j hj => h2 j ?_⟩
        by_cases hjc : j = c
        · right
          rw [hjc, State.get_set_self]
          rfl
        · rw [u.get_set_ne _ (Or.inl (hinj hjc))]
          exact hj.imp_left fun h => (List.mem_cons.mp h).resolve_left hjc
    rw [← hv]
    exact ⟨(hfold _ n).1.trans hnen, fun j hj => (hfold _ n).2 j (Or.inl (List.mem_range.mpr hj))⟩
  rw [hv] at ht
  obtain ⟨hshow, htwo⟩ := v.setStep_spec (i := 6) (v := 2) (by decide) (by decide) ht
  have hall := (hsm.trans hmn).trans hnv
  refine ⟨fun j hj => ?_, htwo, ?_, fun j hj => ?_, ?_⟩
  · rw [hshow.try (by decide) hj]
    exact hall.page _ (by unfold servePage; decide) _
  · unfold State.enabled State.flag
    rw [hshow.page (by decide), hven.1]
    rfl
  · unfold State.enabled State.flag
    rw [hshow.page (pDRAM_other j).1, hven.2 j hj]
    rfl
  · obtain ⟨r, hr⟩ := hall.shape
    obtain ⟨r', q, w, h⟩ := hshow.shape
    exact ⟨r', q, w, by rw [h, hr]⟩
theorem State.dramJudge_eq (s : State) : s.dramJudge =
    if s.boot.chFail ≠ 0 then s.setStep 6 3
    else if s.boot.chRun ≠ 0 || !s.dramReady then s
    else s.dramDone.dramWake.each (List.range 8) State.decGo := rfl
/-- What the judgement of the channels leaves, and what it makes of step DRAM. -/
theorem State.dramJudge_spec (s : State) {t : State} (ht : s.dramJudge = t) :
    (t.flash = s.flash ∧ t.pending = s.pending ∧ ∃ q, t.boot = { s.boot with readyOnce := q }) ∧
    t.get pBOOT (R.BOOT_TRY.nth 4 6) = s.get pBOOT (R.BOOT_TRY.nth 4 6) ∧ (∀ c, (t.dramAt c).trained = (s.dramAt c).trained) ∧
    (s.boot.chFail ≠ 0 → s.stepShows t 6 ∧ t.bootStep 6 = 3) ∧
    (s.boot.chFail = 0 → s.boot.chRun ≠ 0 ∨ s.dramReady = false → t = s) ∧
    (s.boot.chFail = 0 → s.boot.chRun = 0 → s.dramReady = true → t.bootStep 6 = 2 ∧ t.enabled pDRAMC = true ∧ ∀ j < 4, t.enabled (pDRAM j) = true) := by
  rw [State.dramJudge_eq] at ht
  split_ifs at ht with hfail hrun
  · obtain ⟨hshow, hthree⟩ := s.setStep_spec (i := 6) (v := 3) (by decide) (by decide) ht
    refine ⟨⟨?_, ?_, hshow.boot⟩, hshow.try (by decide) (by decide), fun c => ?_, fun _ => ⟨hshow, hthree⟩, fun h => absurd h hfail, fun h => absurd h hfail⟩
    all_goals
      obtain ⟨r, q, w, h⟩ := hshow.shape
      rw [h]
    rfl
  · subst ht
    refine ⟨⟨rfl, rfl, s.boot.readyOnce, rfl⟩, rfl, fun _ => rfl, fun h => absurd h hfail, fun _ _ => rfl, fun _ h1 h2 => ?_⟩
    rw [h1, h2] at hrun
    exact absurd hrun (by decide)
  · obtain ⟨d, hd⟩ : ∃ d, s.dramDone = d := ⟨_, rfl⟩
    obtain ⟨htry, htwo, hen, hens, r, q, w, hshape⟩ := s.dramDone_spec hd
    rw [hd] at ht
    have hserves : d.serves t := ht ▸ d.serves_dramWake.trans (State.serves_foldl _ State.serves_decGo _ _)
    have hboot : ∀ f, t.get pBOOT f = d.get pBOOT f := hserves.page _ (by unfold servePage; decide)
    obtain ⟨h1, h2, h3, -⟩ := hserves.rest
    have hkept : ∀ p, p ≠ pDMAC → d.enabled p = true → t.enabled p = true := fun p hp h => by
      unfold State.enabled State.flag at h ⊢
      rwa [hserves.kept p hp _ (by simp [servedKept])]
    refine ⟨⟨by rw [h3, hshape], by rw [h2, hshape], q, by rw [h1, hshape]⟩, (hboot _).trans (htry 6 (by decide)), fun c => ?_, fun h => absurd hfail (not_not.mpr h),
      fun _ h => ?_, fun _ _ _ => ⟨(hboot _).trans htwo, hkept _ (by decide) hen, fun j hj => hkept _ (pDRAM_other j).2.1 (hens j hj)⟩⟩
    · have hsame : d.dramAt c = s.dramAt c := by
        rw [hshape]
        rfl
      exact (congrArg Prod.fst (hserves.chans c)).trans (by rw [hsame]; rfl)
    · refine absurd ?_ hrun
      rcases h with h | h
      · simp [h]
      · simp [h]
end Sys2Proof.Machine
end

section
/-! ### Step DRAM, retries and BOOT_CMD (O59) -/
open Sys2Proof Sys2Proof.Machine
namespace Sys2Proof.Machine

/-! ### Step DRAM -/

/-- Attempts counted one after the other count as many at once. -/
theorem State.tries_spec {α : Type} (i : Nat) (m : List α) (s : State) {t : State} (ht : m.foldl (fun t _ => t.tryStep i) s = t) :
    s.regsBut t [(pBOOT, R.BOOT_TRY.nth 4 i)] ∧ (∃ r, t = { s with regs := r }) ∧
    ∀ n, 1 ≤ n → min (t.get pBOOT (R.BOOT_TRY.nth 4 i) + n) (2 ^ 32 - 1) = min (s.get pBOOT (R.BOOT_TRY.nth 4 i) + (m.length + n)) (2 ^ 32 - 1) := by
  induction m generalizing s with
  | nil =>
    subst ht
    exact ⟨s.regsBut_refl _, ⟨s.regs, rfl⟩, fun n _ => by simp⟩
  | cons x m ih =>
    rw [List.foldl_cons] at ht
    obtain ⟨u, hu⟩ : ∃ u, s.tryStep i = u := ⟨_, rfl⟩
    rw [hu] at ht
    obtain ⟨h1, ⟨r, h2⟩, h3⟩ := ih u ht
    have hget : u.get pBOOT (R.BOOT_TRY.nth 4 i) = min (s.get pBOOT (R.BOOT_TRY.nth 4 i) + 1) (2 ^ 32 - 1) := hu ▸ s.get_incSat_self _ _
    have hushape : ∃ r, u = { s with regs := r } := hu ▸ ⟨_, rfl⟩
    obtain ⟨r', hur⟩ := hushape
    refine ⟨State.regsBut_trans (hu ▸ State.regsBut_incSat (s.regsBut_refl _) (by simp)) h1, ⟨r, by rw [h2, hur]⟩, fun n hn => ?_⟩
    rw [h3 n hn, hget, List.length_cons]
    omega
theorem State.dramBegin_spec (s : State) (take : Nat) {t : State} (ht : s.dramBegin take = t) :
    (s.bootStep 6 = 0 → t.get pBOOT (R.BOOT_TRY.nth 4 6) = min (s.get pBOOT (R.BOOT_TRY.nth 4 6) + 1) (2 ^ 32 - 1) ∧ t.bootStep 6 = 1) ∧
    (s.bootStep 6 ≠ 0 → t.get pBOOT (R.BOOT_TRY.nth 4 6) =
      min (s.get pBOOT (R.BOOT_TRY.nth 4 6) + max 1 ((List.range 4).filter fun j => bit take j).length) (2 ^ 32 - 1)) ∧
    (∀ p, p ≠ pBOOT → ∀ f, t.get p f = s.get p f) ∧
    ∃ r a q w, t = { s with regs := r, boot := { s.boot with attempt := a, readyOnce := q }, host := { s.host with waiting := w } } ∧ bit a 6 = false := by
  have hpage : ∀ {u v : State} {p f}, u.regsBut v [(pBOOT, R.BOOT_TRY.nth 4 6)] → p ≠ pBOOT → v.get p f = u.get p f := fun h hp => h _ _ (by
    simp only [List.mem_singleton, forall_eq]
    exact Or.inl hp)
  unfold State.dramBegin at ht
  split at ht
  next h0 =>
    obtain ⟨b, hb⟩ : ∃ b, s.stepBegin 6 = b := ⟨_, rfl⟩
    obtain ⟨hbut, htry, ⟨r, hshape⟩, hbit, -⟩ := s.stepBegin_spec (by decide) hb
    rw [hb] at ht
    obtain ⟨hshow, hone⟩ := b.setStep_spec (i := 6) (v := 1) (by decide) (by decide) ht
    refine ⟨fun _ => ⟨(hshow.try (by decide) (by decide)).trans htry, hone⟩, fun h => absurd h0 h, fun p hp f => (hshow.page hp f).trans (hpage hbut hp), ?_⟩
    obtain ⟨r', q, w, h⟩ := hshow.shape
    refine ⟨r', b.boot.attempt, q, w, ?_, hbit⟩
    rw [h, hshape]
  next h0 =>
    obtain ⟨m, hm⟩ : ∃ m, ((List.range 4).filter (bit take ·)) = m := ⟨_, rfl⟩
    have hm' : ((List.range 4).filter fun j => bit take j) = m := hm
    rw [hm] at ht
    obtain ⟨u, hu⟩ : ∃ u, (m.drop 1).foldl (fun t _ => t.tryStep 6) s = u := ⟨_, rfl⟩
    obtain ⟨hubut, ⟨ru, hur⟩, hcount⟩ := State.tries_spec 6 _ s hu
    have hbegin : u.stepBegin 6 = t := by
      rw [← ht, ← hu]
      rfl
    obtain ⟨hbut, htry, ⟨r, hshape⟩, hbit, -⟩ := u.stepBegin_spec (by decide) hbegin
    refine ⟨fun h => absurd h h0, fun _ => ?_, fun p hp f => (hpage hbut hp).trans (hpage hubut hp), r, t.boot.attempt, s.boot.readyOnce, s.host.waiting, ?_, hbit⟩
    · rw [htry, hcount 1 (le_refl _), hm', List.length_drop]
      omega
    · rw [hshape, hur]
theorem exec_stepDram {s : State} (h : s.stepTaken 6 = true) (hs : s.shut = false) (spd : List SpdInfo) {take : Nat}
    (htake : take = if s.bootStep 6 = 0 then 15 else s.boot.chTry) : exec (.stepDram spd) s = .next
    (((List.range 4).filter fun c => bit take c).foldl (State.chanTaken spd)
      ((s.dramBegin take).updBoot fun b => { b with spd := spd, chTry := 0 })).dramJudge := by
  change execStepDram spd s = _
  unfold execStepDram
  rw [if_neg (by simp [h, hs]), htake]
  rfl
theorem allFour_bits : ∀ j < 4, bit 15 j = true := by decide
/-- Step DRAM. -/
theorem stepDram_taken {s : State} (h : s.stepTaken 6 = true) (hs : s.shut = false) (sp : List SpdInfo) : ∃ t, exec (.stepDram sp) s = .next t ∧
    attempted s t 6 ∧ t.boot.spd = sp ∧ (s.bootStep 6 = 0 → t.bootStep 6 ∈ [1, 3]) ∧
    ∀ j < 4, (s.bootStep 6 ≠ 0 → bit s.boot.chTry j = false → bit t.boot.chRun j = bit s.boot.chRun j ∧
      bit t.boot.chFail j = bit s.boot.chFail j) ∧
    ((s.bootStep 6 = 0 ∨ bit s.boot.chTry j = true) → ∀ x y, x = sp.getD j SpdInfo.absent → y = sp.getD 0 SpdInfo.absent →
      (spdSupported x = true → spdAlike x y = true → bit t.boot.chRun j = true ∧ bit t.boot.chFail j = false) ∧
      (spdSupported x = false ∨ spdAlike x y = false → bit t.boot.chRun j = false ∧ bit t.boot.chFail j = true ∧ t.bootStep 6 = 3 ∧
        t.boot.dueAt.has (0x200 + j) = true ∧
        (s.fenced (pDRAM j) = false → bit (t.get (pDRAM j) R.PG_IRQ_RAW) 1 = true))) := by
  obtain ⟨take, htake⟩ : ∃ take, take = if s.bootStep 6 = 0 then 15 else s.boot.chTry := ⟨_, rfl⟩
  obtain ⟨b, hb⟩ : ∃ b, s.dramBegin take = b := ⟨_, rfl⟩
  obtain ⟨hfirst, hagain, hbpage, rb, a, q, w, hbshape, hbit⟩ := s.dramBegin_spec take hb
  obtain ⟨u, hu⟩ : ∃ u, (b.updBoot fun b => { b with spd := sp, chTry := 0 }) = u := ⟨_, rfl⟩
  have huget : ∀ p f, u.get p f = b.get p f := fun p f => by
    rw [← hu]
    rfl
  have huboot : u.boot = { s.boot with attempt := a, readyOnce := q, spd := sp, chTry := 0 } ∧ u.flash = s.flash ∧ u.pending = s.pending := by
    rw [← hu, hbshape]
    exact ⟨rfl, rfl, rfl⟩
  obtain ⟨huboot, huflash, hupend⟩ := huboot
  obtain ⟨v, hv⟩ : ∃ v, ((List.range 4).filter fun c => bit take c).foldl (State.chanTaken sp) u = v := ⟨_, rfl⟩
  obtain ⟨hsteps, hjudged, hothers⟩ := State.chansTaken_spec sp _ (List.nodup_range.filter _) u hv
  obtain ⟨t, ht⟩ : ∃ t, v.dramJudge = t := ⟨_, rfl⟩
  obtain ⟨⟨hflash, hpend, q', hboot⟩, htry, -, hfail, hwait, hdone⟩ := v.dramJudge_spec ht
  have hex := exec_stepDram h hs sp htake
  rw [hb, hu, hv, ht] at hex
  have hvtry : v.get pBOOT (R.BOOT_TRY.nth 4 6) = b.get pBOOT (R.BOOT_TRY.nth 4 6) := (hsteps.page _ (by decide)).trans (huget _ _)
  have hvstep : v.bootStep 6 = b.bootStep 6 := (hsteps.page _ (by decide)).trans (huget _ _)
  obtain ⟨r', d, i, x, y, w', hvshape⟩ := hsteps.shape
  have htaken : ∀ j < 4, (s.bootStep 6 = 0 ∨ bit s.boot.chTry j = true) → s.bootStep 6 = 0 ∨ s.bootStep 6 ≠ 0 → j ∈ (List.range 4).filter fun c => bit take c := fun j hj hor _ => by
    refine List.mem_filter.mpr ⟨List.mem_range.mpr hj, ?_⟩
    rw [htake]
    split
    · exact allFour_bits j hj
    · next h0 => exact hor.resolve_left h0
  have hbits : t.boot.chRun = v.boot.chRun ∧ t.boot.chFail = v.boot.chFail ∧ t.boot.dueAt = v.boot.dueAt := by
    rw [hboot]
    exact ⟨rfl, rfl, rfl⟩
  obtain ⟨hrun, hfl, hdue⟩ := hbits
  refine ⟨t, hex, ⟨?_, ?_, fun hz => ?_, fun _ hn n hnn => ?_, ?_, fun h => absurd h (by decide)⟩, ?_, fun h0 => ?_, fun j hj => ⟨fun hne htr => ?_, fun hor => ?_⟩⟩
  · rw [hflash, hvshape]
    exact huflash
  · rw [hpend, hvshape]
    exact hupend
  · rw [htry, hvtry]
    exact (hfirst (hz.resolve_left (by decide))).1
  · rw [htry, hvtry, hagain hn, hnn, htake, if_neg hn]
  · rw [hboot, hvshape]
    dsimp only
    rw [huboot]
    exact hbit
  · rw [hboot, hvshape]
    dsimp only
    rw [huboot]
  · by_cases hf : v.boot.chFail = 0
    · have hone : v.boot.chRun ≠ 0 := fun hz => by
        have h3 := hjudged 0 (htaken 0 (by decide) (Or.inl h0) (Or.inl h0)) _ _ rfl rfl
        rw [hz, hf] at h3
        obtain ⟨e1, e2⟩ := h3
        by_cases hsup : spdSupported (sp.getD 0 SpdInfo.absent) = true
        · by_cases halike : spdAlike (sp.getD 0 SpdInfo.absent) (sp.getD 0 SpdInfo.absent) = true
          · exact absurd (e1 hsup halike).1 (by decide)
          · exact absurd (e2 (Or.inr (by simpa using halike))).2.1 (by decide)
        · exact absurd (e2 (Or.inl (by simpa using hsup))).2.1 (by decide)
      rw [hwait hf (Or.inl hone), hvstep, (hfirst h0).2]
      decide
    · rw [(hfail hf).2]
      decide
  · have hnot : j ∉ (List.range 4).filter fun c => bit take c := fun hmem => by
      have hb := (List.mem_filter.mp hmem).2
      rw [htake, if_neg hne, htr] at hb
      exact absurd hb (by decide)
    obtain ⟨e1, e2⟩ := hothers j hnot
    rw [hrun, hfl, e1, e2, huboot]
    exact ⟨rfl, rfl⟩
  · intro x y hx hy
    obtain ⟨e1, e2⟩ := hjudged j (htaken j hj hor (em _)) x y hx hy
    rw [hrun, hfl, hdue]
    refine ⟨e1, fun hbad => ?_⟩
    obtain ⟨f1, f2, f3, f4⟩ := e2 hbad
    have hnz : v.boot.chFail ≠ 0 := fun hz => by
      rw [hz] at f2
      simp [bit] at f2
    refine ⟨f1, f2, (hfail hnz).2, f3, fun hfen => ?_⟩
    rw [(hfail hnz).1.page (pDRAM_other j).1]
    refine f4 ?_
    unfold State.fenced State.flag at hfen ⊢
    rwa [huget, hbpage _ (pDRAM_other j).1]

/-! ### The training of a channel ends (R301) -/

theorem exec_channelTrained_idle {s : State} {c : DramCh} (h : bit s.boot.chRun c = false) (ok : Bool) : exec (.channelTrained c ok) s = .next s := by
  change execChannelTrained c ok s = _
  unfold execChannelTrained
  dsimp only
  rw [if_pos (by simp [h])]
/-- Channel n has trained. -/
def State.chanServes (s : State) (n : Nat) : State :=
  ((s.updDram n fun d => { d with
      trained := true, lastRef := (List.range s.ranks).map fun r => (r, s.tick), lastRetrain := (List.range s.ranks).map fun r => (r, s.tick) }).updBoot fun b =>
    { b with chRun := setBit b.chRun n false, chFail := setBit b.chFail n false }).backOk (0x200 + n)
theorem exec_channelTrained {s : State} {c : DramCh} (h : bit s.boot.chRun c = true) (ok : Bool) : exec (.channelTrained c ok) s = .next
    (if ok then (s.chanServes c).dramJudge else (s.channelFail c).dramJudge) := by
  change execChannelTrained c ok s = _
  unfold execChannelTrained
  dsimp only
  rw [if_neg (by simp [h])]
  cases ok with
  | false => rw [if_pos (by decide), if_neg (by decide)]
  | true =>
    rw [if_neg (by decide), if_pos rfl]
    unfold State.chanServes
    rfl
theorem channelTrained_good {s : State} {c : DramCh} (h : bit s.boot.chRun c = true) : ∃ t, exec (.channelTrained c true) s = .next t ∧
    (t.dramAt c).trained = true ∧ bit t.boot.chRun c = false ∧
    bit t.boot.chFail c = false ∧ t.boot.dueAt.has (0x200 + c.val) = false ∧ t.flash = s.flash ∧ t.pending = s.pending ∧
    (setBit s.boot.chFail c false ≠ 0 → t.bootStep 6 = 3 ∧ s.sameMemory t) ∧
    (setBit s.boot.chFail c false = 0 → (setBit s.boot.chRun c false ≠ 0 ∨ ∃ j < 4, j ≠ c.val ∧ (s.dramAt j).trained = false) →
      t.bootStep 6 = s.bootStep 6 ∧ s.sameMemory t) ∧
    (setBit s.boot.chFail c false = 0 → setBit s.boot.chRun c false = 0 → (∀ j < 4, j ≠ c.val → (s.dramAt j).trained = true) →
      t.bootStep 6 = 2 ∧ t.enabled pDRAMC = true ∧ ∀ j < 4, t.enabled (pDRAM j) = true) := by
  obtain ⟨u, hu⟩ : ∃ u, s.chanServes c = u := ⟨_, rfl⟩
  have hchan : ∀ j, (u.dramAt j).trained = if j = c.val then true else (s.dramAt j).trained := fun j => by
    have hdram : u.dramAt j = (s.updDram c fun d => { d with
      trained := true, lastRef := (List.range s.ranks).map fun r => (r, s.tick), lastRetrain := (List.range s.ranks).map fun r => (r, s.tick) }).dramAt j := by
      rw [← hu]
      rfl
    rw [hdram]
    split
    next hj =>
      rw [hj, State.dramAt_upd_self]
    next hj =>
      rw [State.dramAt_upd_other _ _ hj]
  have hboot : u.boot.chRun = setBit s.boot.chRun c false ∧ u.boot.chFail = setBit s.boot.chFail c false ∧ u.boot.dueAt.has (0x200 + c.val) = false := by
    rw [← hu]
    exact ⟨rfl, rfl, NMap.has_del_self _ _⟩
  obtain ⟨hrun, hfail, hdue⟩ := hboot
  have husame : u.hold = s.hold ∧ u.flash = s.flash ∧ u.pending = s.pending ∧ u.bootStep 6 = s.bootStep 6 := by
    rw [← hu]
    exact ⟨rfl, rfl, rfl, rfl⟩
  obtain ⟨hhold, huflash, hupend, hustep⟩ := husame
  obtain ⟨t, ht⟩ : ∃ t, u.dramJudge = t := ⟨_, rfl⟩
  obtain ⟨⟨hflash, hpend, q, htboot⟩, -, htrained, h1, h2, h3⟩ := u.dramJudge_spec ht
  have hex := exec_channelTrained h true
  rw [if_pos rfl, hu, ht] at hex
  refine ⟨t, hex, ?_, ?_, ?_, ?_, hflash.trans huflash, hpend.trans hupend, fun hf => ?_, fun hf hor => ?_, fun hf hr hall => ?_⟩
  · rw [htrained, hchan, if_pos rfl]
  · rw [htboot]
    dsimp only
    rw [hrun]
    exact bit_setBit_self _ _ _
  · rw [htboot]
    dsimp only
    rw [hfail]
    exact bit_setBit_self _ _ _
  · rw [htboot]
    exact hdue
  · obtain ⟨hshow, hthree⟩ := h1 (hfail ▸ hf)
    exact ⟨hthree, sameMemory_of_hold (hshow.hold.trans hhold)⟩
  · have hstay := h2 (hfail.trans hf) (by
      rw [hrun]
      refine hor.imp_right fun ⟨j, hj, hne, hnot⟩ => ?_
      unfold State.dramReady
      refine List.all_eq_false.mpr ⟨j, List.mem_range.mpr hj, ?_⟩
      rw [hchan, if_neg hne, hnot]
      decide)
    rw [hstay]
    exact ⟨hustep, sameMemory_of_hold hhold⟩
  · refine h3 (hfail.trans hf) (hrun.trans hr) ?_
    unfold State.dramReady
    refine List.all_eq_true.mpr fun j hj => ?_
    rw [hchan]
    split
    · rfl
    · next hne => exact hall j (List.mem_range.mp hj) hne
theorem setBit_true_ne_zero (n i : Nat) : setBit n i true ≠ 0 := fun h => by
  have hb := bit_setBit_self n i true
  rw [h] at hb
  simp [bit] at hb
theorem channelTrained_bad {s : State} {c : DramCh} (h : bit s.boot.chRun c = true) : ∃ t, exec (.channelTrained c false) s = .next t ∧
    bit t.boot.chRun c = false ∧ bit t.boot.chFail c = true ∧ t.bootStep 6 = 3 ∧
    t.boot.dueAt.getD (0x200 + c.val) 0 = s.osc + msTicks (s.boot.interval.getD (0x200 + c.val) s.backMin) ∧
    (s.fenced (pDRAM c) = false → bit (t.get (pDRAM c) R.PG_IRQ_RAW) 1 = true) ∧
    ({ t with regs := s.regs, boot := s.boot, host := s.host } : State) = s := by
  obtain ⟨u, hu⟩ : ∃ u, s.channelFail c = u := ⟨_, rfl⟩
  obtain ⟨hsteps, hfail, hrun, -, hdue, hbit⟩ := s.channelFail_spec c hu
  obtain ⟨t, ht⟩ : ∃ t, u.dramJudge = t := ⟨_, rfl⟩
  obtain ⟨⟨-, -, q, htboot⟩, -, -, h1, -⟩ := u.dramJudge_spec ht
  obtain ⟨hshow, hthree⟩ := h1 (by rw [hfail]; exact setBit_true_ne_zero _ _)
  have hex := exec_channelTrained h false
  rw [if_neg (by decide), hu, ht] at hex
  refine ⟨t, hex, ?_, ?_, hthree, ?_, fun hf => ?_, ?_⟩
  · rw [htboot]
    dsimp only
    rw [hrun]
    exact bit_setBit_self _ _ _
  · rw [htboot]
    dsimp only
    rw [hfail]
    exact bit_setBit_self _ _ _
  · rw [htboot]
    exact hdue
  · rw [hshow.page (pDRAM_other c).1]
    exact hbit hf
  · obtain ⟨r, q', w, h⟩ := hshow.shape
    obtain ⟨r', d, v, x, y, w', k⟩ := hsteps.shape
    rw [h, k]
end Sys2Proof.Machine
end

section
/-! ### Retries of the boot sequencer and BOOT_CMD (O59) -/
open Sys2Proof Sys2Proof.Machine
namespace Sys2Proof.Machine

/-! ### The retry of a lane (R369) -/

/-- The judgement of a step's lanes shows on the step alone. -/
theorem State.stepShows_lanesJudge (s : State) {i : Nat} (hi : i = 4 ∨ i = 5) : s.stepShows (s.lanesJudge i) i := by
  have h8 : i < 8 := by omega
  have hset : ∀ {v}, v < 8 → s.stepShows (s.setStep i v) i := fun hv => (s.setStep_spec h8 hv rfl).1
  unfold State.lanesJudge
  dsimp only
  split_ifs with h0 h1 h2 h3 h4 h5 h6
  · exact s.stepShows_refl i
  · obtain ⟨hi4, -⟩ : i = 4 ∧ _ := by simpa using h1
    exact hi4 ▸ (s.setStep_spec (i := 4) (v := 3) (by decide) (by decide) rfl).1
  · exact s.stepShows_refl i
  · exact hset (by decide)
  · exact s.stepShows_refl i
  · exact s.stepShows_refl i
  · obtain rfl : i = 5 := hi.resolve_left fun h => h1 (by simpa [h] using h3)
    exact (State.stepShows_errs 5 _ _ _ s).trans (State.setStep_spec _ (i := 5) (v := 3) (by decide) (by decide) rfl).1
  · obtain rfl : i = 5 := hi.resolve_left fun h => h1 (by simpa [h] using h3)
    exact (s.setStep_spec (i := 5) (v := 4) (by decide) (by decide) rfl).1
/-- What a retry of a lane leaves beside lanes, registers of BOOT and causes of lanes. -/
structure State.retries (s t : State) (i : Nat) : Prop where
  count : t.get pBOOT (R.BOOT_TRY.nth 4 i) = s.get pBOOT (R.BOOT_TRY.nth 4 i)
  work : ∀ l, t.working (pLANE l) = s.working (pLANE l)
theorem State.retries.trans {s t u : State} {i : Nat} (h : s.retries t i) (k : t.retries u i) : s.retries u i :=
  ⟨k.count.trans h.count, fun l => (k.work l).trans (h.work l)⟩
theorem State.stepShows.retries {s t : State} {i : Nat} (hi : i < 8) (h : s.stepShows t i) : s.retries t i := by
  have hget : ∀ {p}, p ≠ pBOOT → ∀ f, t.get p f = s.get p f := fun hp f => h.page hp f
  refine ⟨h.try hi hi, fun l => ?_⟩
  have hl : pLANE l ≠ pBOOT := by
    unfold pLANE pBOOT
    omega
  obtain ⟨r, q, w, hshape⟩ := h.shape
  exact State.working_of (by rw [hshape]) (by rw [hshape]) (hget hl _) (hget hl _) (hget (by decide) _)
theorem State.retries_boot {s t : State} {i : Nat} (h : ∃ b, t = { s with boot := b }) : s.retries t i := by
  obtain ⟨b, rfl⟩ := h
  exact ⟨rfl, fun _ => rfl⟩
/-- The end of a search for the sequencer. -/
theorem State.bootSearchEnd_spec (s : State) {l i : Nat} (hl : laneStep l = i) (ok : Bool) {t : State} (ht : s.bootSearchEnd l ok = t) :
    s.retries t i ∧ (∀ n, t.laneAt n = s.laneAt n) ∧ (ok = true → l ∉ t.boot.failLanes) ∧
    ∀ n, n ≠ l → n ∉ s.boot.failLanes → n ∉ t.boot.failLanes := by
  have hi : i = 4 ∨ i = 5 := by
    rw [← hl]
    unfold laneStep
    split <;> simp
  have h8 : i < 8 := by omega
  unfold State.bootSearchEnd at ht
  dsimp only at ht
  rw [hl] at ht
  obtain ⟨u, hu⟩ : ∃ u, (s.updBoot fun b => { b with
    searching := b.searching.filter (· != l), failLanes := b.failLanes.filter (· != l) ++ if ok then [] else [l] }) = u := ⟨_, rfl⟩
  have hushape : ∃ b, u = { s with boot := b } := ⟨_, hu.symm⟩
  have hufail : u.boot.failLanes = s.boot.failLanes.filter (· != l) ++ if ok then [] else [l] := hu ▸ rfl
  rw [hu] at ht
  obtain ⟨v, hv⟩ : ∃ v, (if ok then u.backOk (0x100 + l) else if i = 4 || u.bootStep 5 = 3 then (u.backOff (0x100 + l)).bootErr 0x23 i l
    else u.backOff (0x100 + l)) = v := ⟨_, rfl⟩
  have hoff : (∃ b, u.backOff (0x100 + l) = { u with boot := b }) ∧ (u.backOff (0x100 + l)).boot.failLanes = u.boot.failLanes := ⟨⟨_, rfl⟩, rfl⟩
  have huv : u.retries v i ∧ (∀ n, v.laneAt n = u.laneAt n) ∧ v.boot.failLanes = u.boot.failLanes := by
    obtain ⟨⟨bo, hbo⟩, hbofail⟩ := hoff
    rw [← hv]
    split_ifs
    · exact ⟨State.retries_boot ⟨_, rfl⟩, fun _ => rfl, rfl⟩
    · have hshow := (u.backOff (0x100 + l)).stepShows_err i 0x23 i l
      refine ⟨(State.retries_boot ⟨bo, hbo⟩).trans (hshow.retries h8), fun n => ?_, ?_⟩
      · obtain ⟨r, q, w, h⟩ := hshow.shape
        rw [h, hbo]
        rfl
      · obtain ⟨q, hq⟩ := hshow.boot
        rw [hq]
        exact hbofail
    · exact ⟨State.retries_boot ⟨bo, hbo⟩, fun n => by rw [hbo]; rfl, hbofail⟩
  have hvt : v.lanesJudge i = t := by
    rw [← hv]
    split_ifs at ht ⊢ <;> exact ht
  have hshow := hvt ▸ v.stepShows_lanesJudge hi
  obtain ⟨h1, h2, h3⟩ := huv
  have hfail : t.boot.failLanes = s.boot.failLanes.filter (· != l) ++ if ok then [] else [l] := by
    obtain ⟨q, hq⟩ := hshow.boot
    rw [hq]
    exact h3.trans hufail
  refine ⟨((State.retries_boot hushape).trans h1).trans (hshow.retries h8), fun n => ?_, fun hok => ?_, fun n hn hno => ?_⟩
  · obtain ⟨r, q, w, h⟩ := hshow.shape
    obtain ⟨b, hb⟩ := hushape
    have hun : u.laneAt n = s.laneAt n := by
      rw [hb]
      rfl
    rw [h]
    exact (h2 n).trans hun
  · rw [hfail, hok, if_pos rfl, List.append_nil]
    simp
  · rw [hfail]
    cases ok <;> simp [hn, hno]
/-- The retry of lane l begins. -/
def State.laneAgainBegun (t : State) (l : Nat) : State := (t.retryBegin (0x100 + l)).laneRetry l
theorem State.laneAgainBegun_spec (s : State) {l i : Nat} (hl : laneStep l = i) {t : State} (ht : s.laneAgainBegun l = t) :
    t.get pBOOT (R.BOOT_TRY.nth 4 i) = min (s.get pBOOT (R.BOOT_TRY.nth 4 i) + 1) (2 ^ 32 - 1) ∧
    (∀ n, t.working (pLANE n) = s.working (pLANE n)) ∧ (∀ n, n ≠ l ∨ (s.laneAt n).st ≠ 1 → t.laneAt n = s.laneAt n) ∧
    ((s.laneAt l).st = 1 → s.working (pLANE l) = true → (t.laneAt l).st = 2 ∧ (t.laneAt l).bootSearch = true) ∧
    ((s.laneAt l).st = 3 → l ∉ t.boot.failLanes) ∧ ∀ n, n ≠ l → n ∉ s.boot.failLanes → n ∉ t.boot.failLanes := by
  have h8 : i < 8 := by
    rw [← hl]
    unfold laneStep
    split <;> decide
  obtain ⟨u, hu⟩ : ∃ u, (s.retryBegin (0x100 + l)).tryStep i = u := ⟨_, rfl⟩
  have hubut : s.regsBut u [(pBOOT, R.BOOT_TRY.nth 4 i)] :=
    hu ▸ State.regsBut_incSat (State.regsBut_of_regs (s.regsBut_refl _) rfl) (by simp)
  have hutry : u.get pBOOT (R.BOOT_TRY.nth 4 i) = min (s.get pBOOT (R.BOOT_TRY.nth 4 i) + 1) (2 ^ 32 - 1) := hu ▸ State.get_incSat_self _ _ _
  have husame : ∃ r b, u = { s with regs := r, boot := b } ∧ b.failLanes = s.boot.failLanes := hu ▸ ⟨_, _, rfl, rfl⟩
  obtain ⟨r, b, hushape, hbfail⟩ := husame
  have hulane : ∀ n, u.laneAt n = s.laneAt n := fun n => by
    rw [hushape]
    rfl
  have hufail : u.boot.failLanes = s.boot.failLanes := by
    rw [hushape]
    exact hbfail
  have hpage : ∀ {p}, p ≠ pBOOT → ∀ f, u.get p f = s.get p f := fun hp f => hubut _ _ (by
    simp only [List.mem_singleton, forall_eq]
    exact Or.inl hp)
  have huwork : ∀ n, u.working (pLANE n) = s.working (pLANE n) := fun n => by
    have hn : pLANE n ≠ pBOOT := by
      unfold pLANE pBOOT
      omega
    exact State.working_of (by rw [hushape]) (by rw [hushape]) (hpage hn _) (hpage hn _) (hpage (by decide) _)
  have htt : (if (u.laneAt l).st = 3 then u.bootSearchEnd l true
      else if (u.laneAt l).st = 1 && u.working (pLANE l) then u.searchStart l true else u.bootSearchEnd l false) = t := by
    rw [← ht, ← hu]
    unfold State.laneAgainBegun State.laneRetry
    rw [hl]
  have hend : ∀ ok, u.bootSearchEnd l ok = t → t.get pBOOT (R.BOOT_TRY.nth 4 i) = min (s.get pBOOT (R.BOOT_TRY.nth 4 i) + 1) (2 ^ 32 - 1) ∧
      (∀ n, t.working (pLANE n) = s.working (pLANE n)) ∧ (∀ n, t.laneAt n = s.laneAt n) ∧ (ok = true → l ∉ t.boot.failLanes) ∧
      ∀ n, n ≠ l → n ∉ s.boot.failLanes → n ∉ t.boot.failLanes := fun ok hok => by
    obtain ⟨h1, h2, h3, h4⟩ := u.bootSearchEnd_spec hl ok hok
    rw [hufail] at h4
    exact ⟨h1.count.trans hutry, fun n => (h1.work n).trans (huwork n), fun n => (h2 n).trans (hulane n), h3, h4⟩
  rw [hulane, huwork] at htt
  split_ifs at htt with h3 h1
  · obtain ⟨e1, e2, e3, e4, e5⟩ := hend true htt
    exact ⟨e1, e2, fun n _ => e3 n, fun h => absurd (h3.symm.trans h) (by decide), fun _ => e4 rfl, e5⟩
  · obtain ⟨h1, hw⟩ : (s.laneAt l).st = 1 ∧ s.working (pLANE l) = true := by simpa using h1
    obtain ⟨v, hmoves, hv, -⟩ := u.searchStart_boot l htt
    obtain ⟨-, htwo, hboot⟩ := u.laneSteps_searchStart l htt
    have htget : ∀ p f, t.get p f = v.get p f := fun p f => by
      rw [hv]
      rfl
    refine ⟨?_, fun n => ?_, fun n hn => ?_, fun _ _ => ⟨htwo, hboot⟩, fun h => absurd h h3, fun n _ hno => ?_⟩
    · rw [htget, hmoves.but _ _ (by
        simp only [List.mem_singleton, forall_eq]
        left
        unfold pBOOT pLANE
        omega)]
      exact hutry
    · rw [hv]
      exact (hmoves.working _).trans (huwork n)
    · have hnl : n ≠ l := fun h => by
        subst h
        exact hn.elim (fun h => h rfl) fun h => h h1
      rw [hv]
      exact (hmoves.others n hnl).trans (hulane n)
    · have hfail : t.boot.failLanes = s.boot.failLanes := by
        obtain ⟨r', a, x, c, w, h⟩ := hmoves.shape
        rw [hv, h]
        exact hufail
      rwa [hfail]
  · obtain ⟨e1, e2, e3, -, e5⟩ := hend false htt
    exact ⟨e1, e2, fun n _ => e3 n, fun h hw => absurd (by simp [h, hw]) h1, fun h => absurd h h3, e5⟩
/-- Lanes retried one after the other. -/
theorem State.lanesRetried_spec {i : Nat} (m : List Nat) (hm : ∀ l ∈ m, laneStep l = i) (s : State) {t : State} (ht : m.foldl State.laneAgainBegun s = t) :
    (m ≠ [] → t.get pBOOT (R.BOOT_TRY.nth 4 i) = min (s.get pBOOT (R.BOOT_TRY.nth 4 i) + m.length) (2 ^ 32 - 1)) ∧
    (∀ n, n ∉ m ∨ (s.laneAt n).st ≠ 1 → t.laneAt n = s.laneAt n) ∧
    (∀ l ∈ m, (s.laneAt l).st = 1 → s.working (pLANE l) = true → (t.laneAt l).st = 2 ∧ (t.laneAt l).bootSearch = true) ∧
    ∀ l, (s.laneAt l).st = 3 → (l ∈ m ∨ l ∉ s.boot.failLanes) → l ∉ t.boot.failLanes := by
  induction m generalizing s with
  | nil =>
    subst ht
    exact ⟨fun h => absurd rfl h, fun _ _ => rfl, fun _ h => absurd h List.not_mem_nil, fun l _ h => h.resolve_left List.not_mem_nil⟩
  | cons l m ih =>
    rw [List.foldl_cons] at ht
    obtain ⟨u, hu⟩ : ∃ u, s.laneAgainBegun l = u := ⟨_, rfl⟩
    rw [hu] at ht
    obtain ⟨h1, h2, h3, h4, h5, h6⟩ := s.laneAgainBegun_spec (hm l (by simp)) hu
    obtain ⟨k1, k2, k3, k4⟩ := ih (fun n hn => hm n (List.mem_cons_of_mem _ hn)) u ht
    refine ⟨fun _ => ?_, fun n hn => ?_, fun n hn hone hw => ?_, fun n hthree hn => ?_⟩
    · by_cases hnil : m = []
      · subst hnil
        rw [← ht]
        exact h1
      · rw [k1 hnil, h1, List.length_cons]
        have hpos : 0 < m.length := List.length_pos_iff.mpr hnil
        omega
    · have hun : u.laneAt n = s.laneAt n := h3 n (hn.imp_left fun h => (not_or.mp (mt List.mem_cons.mpr h)).1)
      rw [k2 n (by
        rw [hun]
        exact hn.imp_left fun h => (not_or.mp (mt List.mem_cons.mpr h)).2), hun]
    · by_cases hnl : n = l
      · subst hnl
        obtain ⟨e1, e2⟩ := h4 hone hw
        rw [k2 n (Or.inr (by rw [e1]; decide))]
        exact ⟨e1, e2⟩
      · have hun : u.laneAt n = s.laneAt n := h3 n (Or.inl hnl)
        exact k3 n ((List.mem_cons.mp hn).resolve_left hnl) (by rwa [hun]) ((h2 n).trans hw)
    · have hun : u.laneAt n = s.laneAt n := h3 n (Or.inr (by rw [hthree]; decide))
      refine k4 n (by rwa [hun]) ?_
      by_cases hnl : n = l
      · subst hnl
        exact Or.inr (h5 hthree)
      · rcases hn with hn | hn
        · exact Or.inl ((List.mem_cons.mp hn).resolve_left hnl)
        · exact Or.inr (h6 n hnl hn)

/-! ### BOOT_RETRY (R369) -/

/-- The channels that an attempt of step DRAM takes up again. -/
def State.chansDue (s : State) : List Nat := (List.range 4).filter fun c => bit s.boot.chFail c && s.retryDue (0x200 + c)
theorem exec_bootRetry (s : State) (i : Fin 8) : exec (.bootRetry i) s = .next (
    if s.inReset || s.shut then s
    else if i.val ≤ 1 then
      if s.bootStep i = 3 && s.retryDue i then (s.retryBegin i).updBoot fun b => { b with attempt := setBit b.attempt i true } else s
    else if i.val = 4 ∨ i.val = 5 then
      (s.boot.failLanes.filter fun l => laneStep l == i.val && s.retryDue (0x100 + l)).foldl State.laneAgainBegun s
    else if i.val = 6 then
      if s.chansDue.isEmpty then s
      else (s.chansDue.foldl (fun t c => t.retryBegin (0x200 + c)) s).updBoot fun b =>
        { b with attempt := setBit b.attempt 6 true, chTry := s.chansDue.foldl (fun a c => setBit a c true) b.chTry }
    else s) := rfl
theorem State.retriesBegun_spec (m : List Nat) (s : State) {t : State} (ht : m.foldl (fun t c => t.retryBegin (0x200 + c)) s = t) :
    (∃ d, t = { s with boot := { s.boot with dueAt := d } }) ∧ ∀ k, ((∃ c ∈ m, k = 0x200 + c) ∨ s.boot.dueAt.has k = false) → t.boot.dueAt.has k = false := by
  induction m generalizing s with
  | nil =>
    subst ht
    exact ⟨⟨s.boot.dueAt, rfl⟩, fun k h => h.resolve_left fun ⟨_, hc, _⟩ => absurd hc List.not_mem_nil⟩
  | cons c m ih =>
    rw [List.foldl_cons] at ht
    obtain ⟨⟨d, hd⟩, hk⟩ := ih _ ht
    refine ⟨⟨d, hd⟩, fun k hor => hk k ?_⟩
    by_cases hkc : k = 0x200 + c
    · right
      rw [hkc]
      exact NMap.has_del_self _ _
    · rcases hor with ⟨x, hx, hkx⟩ | hno
      · refine Or.inl ⟨x, (List.mem_cons.mp hx).resolve_left fun h => hkc (h ▸ hkx), hkx⟩
      · right
        exact (NMap.has_del_other _ hkc).trans hno
theorem bit_foldl_setBit (m : List Nat) (a : Nat) {c : Nat} (h : c ∈ m ∨ bit a c = true) : bit (m.foldl (fun a c => setBit a c true) a) c = true := by
  induction m generalizing a with
  | nil => exact h.resolve_left List.not_mem_nil
  | cons x m ih =>
    refine ih _ ?_
    by_cases hx : c = x
    · right
      rw [hx]
      exact bit_setBit_self _ _ _
    · rw [bit_setBit_other _ _ hx]
      exact h.imp_left fun h => (List.mem_cons.mp h).resolve_left hx
theorem State.laneAgainBegun_hold (s : State) (l : Nat) : (s.laneAgainBegun l).hold = s.hold := by
  unfold State.laneAgainBegun
  rw [State.laneRetry_hold, State.retryBegin_hold]
theorem bootRetry_lanes (s : State) (i : Fin 8) (hrun : s.inReset = false) (hs : s.shut = false) (hi : i.val = 4 ∨ i.val = 5) {ls : List Nat}
    (hls : ls = s.boot.failLanes.filter fun l => laneStep l == i.val && s.retryDue (0x100 + l)) :
    (ls = [] → exec (.bootRetry i) s = .next s) ∧
    (ls ≠ [] → ∃ t, exec (.bootRetry i) s = .next t ∧ s.sameMemory t ∧
      t.get pBOOT (R.BOOT_TRY.nth 4 i) = min (s.get pBOOT (R.BOOT_TRY.nth 4 i) + ls.length) (2 ^ 32 - 1) ∧
      (∀ l ∈ ls, ((s.laneAt l).st = 1 → s.working (pLANE l) = true → (t.laneAt l).st = 2 ∧ (t.laneAt l).bootSearch = true) ∧
        ((s.laneAt l).st = 3 → l ∉ t.boot.failLanes)) ∧
      ∀ l, l ∉ ls → t.laneAt l = s.laneAt l) := by
  have hex := exec_bootRetry s i
  rw [if_neg (by simp [hrun, hs]), if_neg (by omega), if_pos hi, ← hls] at hex
  refine ⟨fun h => by rw [hex, h]; rfl, fun hne => ?_⟩
  have hstep : ∀ l ∈ ls, laneStep l = i.val := fun l hl => by
    rw [hls] at hl
    obtain ⟨-, h⟩ := List.mem_filter.mp hl
    exact beq_iff_eq.mp (Bool.and_eq_true _ _ ▸ h).1
  obtain ⟨t, ht⟩ : ∃ t, ls.foldl State.laneAgainBegun s = t := ⟨_, rfl⟩
  obtain ⟨h1, h2, h3, h4⟩ := State.lanesRetried_spec ls hstep s ht
  refine ⟨t, hex.trans (by rw [ht]), sameMemory_of_hold ?_, h1 hne, fun l hl => ⟨h3 l hl, fun h => h4 l h (Or.inl hl)⟩, fun l hl => h2 l (Or.inl hl)⟩
  rw [← ht]
  exact s.each_hold ls _ State.laneAgainBegun_hold
theorem bootRetry_channels (s : State) (i : Fin 8) (hrun : s.inReset = false) (hs : s.shut = false) (hi : i.val = 6) :
    (∀ c < 4, bit s.boot.chFail c = true → s.retryDue (0x200 + c) = true → ∃ t, exec (.bootRetry i) s = .next t ∧
      bit t.boot.attempt 6 = true ∧ bit t.boot.chTry c = true ∧ t.boot.dueAt.has (0x200 + c) = false ∧
      ({ t with boot := s.boot } : State) = s) ∧
    ((∀ c < 4, bit s.boot.chFail c = false ∨ s.retryDue (0x200 + c) = false) → exec (.bootRetry i) s = .next s) := by
  have hex := exec_bootRetry s i
  rw [if_neg (by simp [hrun, hs]), if_neg (by omega), if_neg (by omega), if_pos hi] at hex
  refine ⟨fun c hc hf hdue => ?_, fun hnone => ?_⟩
  · have hmem : c ∈ s.chansDue := List.mem_filter.mpr ⟨List.mem_range.mpr hc, by rw [hf, hdue]; rfl⟩
    have hne : s.chansDue.isEmpty = false := by
      rw [List.isEmpty_eq_false_iff]
      exact List.ne_nil_of_mem hmem
    rw [hne, if_neg (by decide)] at hex
    obtain ⟨u, hu⟩ : ∃ u, s.chansDue.foldl (fun t c => t.retryBegin (0x200 + c)) s = u := ⟨_, rfl⟩
    obtain ⟨⟨d, hd⟩, hgone⟩ := State.retriesBegun_spec _ s hu
    rw [hu] at hex
    refine ⟨_, hex, bit_setBit_self _ _ _, bit_foldl_setBit _ _ (Or.inl hmem), hgone _ (Or.inl ⟨c, hmem, rfl⟩), ?_⟩
    unfold State.updBoot
    dsimp only
    rw [hd]
  · have hempty : s.chansDue = [] := List.filter_eq_nil_iff.mpr fun c hc => by
      rcases hnone c (List.mem_range.mp hc) with h | h <;> simp [h]
    rw [hex, hempty]
    rfl
theorem bootRetry_step (s : State) (i : Fin 8) (hrun : s.inReset = false) (hs : s.shut = false) (hi : i.val ≤ 1) :
    (s.bootStep i = 3 → s.retryDue i = true → ∃ t, exec (.bootRetry i) s = .next t ∧ bit t.boot.attempt i = true ∧
      t.boot.dueAt.has i = false ∧ ({ t with boot := { s.boot with dueAt := t.boot.dueAt, attempt := t.boot.attempt } } : State) = t ∧
      ({ t with boot := s.boot } : State) = s) ∧
    (s.bootStep i ≠ 3 ∨ s.retryDue i = false → exec (.bootRetry i) s = .next s) := by
  have hex := exec_bootRetry s i
  rw [if_neg (by simp [hrun, hs]), if_pos hi] at hex
  refine ⟨fun h3 hd => ?_, fun h => ?_⟩
  · rw [if_pos (by simp [h3, hd])] at hex
    exact ⟨_, hex, bit_setBit_self _ _ _, NMap.has_del_self _ _, rfl, rfl⟩
  · rw [hex, if_neg (by rcases h with h | h <;> simp [h])]

/-! ### BOOT_CMD (R369) -/

theorem NMap.has_filter {α : Type} (m : NMap α) (g : Nat → Bool) (k : Nat) : NMap.has (List.filter (fun e => g e.1) m) k = (g k && NMap.has m k) := by
  unfold NMap.has
  rw [Bool.eq_iff_iff, Bool.and_eq_true, List.any_eq_true, List.any_eq_true]
  constructor
  · rintro ⟨e, he, hk⟩
    obtain ⟨hmem, hg⟩ := List.mem_filter.mp he
    exact ⟨beq_iff_eq.mp hk ▸ hg, e, hmem, hk⟩
  · rintro ⟨hg, e, he, hk⟩
    exact ⟨e, List.mem_filter.mpr ⟨he, (beq_iff_eq.mp hk).symm ▸ hg⟩, hk⟩
/-- Due times moved to now where a key is one of some. -/
theorem NMap.getD_moved (m : NMap Nat) (g : Nat → Bool) (v k : Nat) :
    NMap.has (m.map fun e => if g e.1 then (e.1, v) else e) k = NMap.has m k ∧
    NMap.getD (m.map fun e => if g e.1 then (e.1, v) else e) k 0 = if g k && NMap.has m k then v else NMap.getD m k 0 := by
  induction m with
  | nil => simp [NMap.has, NMap.getD]
  | cons e m ih =>
    obtain ⟨j, x⟩ := e
    obtain ⟨ih1, ih2⟩ := ih
    rw [List.map_cons]
    unfold NMap.has at ih1 ih2 ⊢
    rw [List.any_cons, List.any_cons, ih1]
    by_cases hj : j = k
    · subst hj
      by_cases hg : g j = true <;> simp [NMap.getD, hg]
    · have hjk : (j == k) = false := beq_eq_false_iff_ne.mpr hj
      have hhead : NMap.getD ((if g j then (j, v) else (j, x)) :: m.map fun e => if g e.1 then (e.1, v) else e) k 0 =
          NMap.getD (m.map fun e => if g e.1 then (e.1, v) else e) k 0 := by
        by_cases hg : g j = true <;> simp only [NMap.getD, hg, if_true, Bool.false_eq_true, if_false, hj]
      have htail : NMap.getD ((j, x) :: m) k 0 = NMap.getD m k 0 := if_neg hj
      dsimp only
      rw [hjk, hhead, htail, ih2, Bool.false_or]
      refine ⟨?_, rfl⟩
      by_cases hg : g j = true <;> simp [hg, hjk]
/-- BOOT_CMD.RETRY. -/
theorem bootCmdRetry_clause (s : State) (h : s.accepts pBOOT 0x4C 1) : ∃ t, exec .bootCmdRetry s = .next t ∧ ({ t with boot := s.boot } : State) = s ∧
    ({ t.boot with dueAt := s.boot.dueAt, interval := s.boot.interval } : BootSt) = s.boot ∧
    ∀ k, (s.bootStep (keyStep k) = 3 → t.boot.interval.has k = false ∧ (s.boot.dueAt.has k = true → t.boot.dueAt.getD k 0 = s.osc)) ∧
      (s.bootStep (keyStep k) ≠ 3 → t.boot.interval.has k = s.boot.interval.has k ∧ t.boot.interval.getD k 0 = s.boot.interval.getD k 0 ∧
        t.boot.dueAt.has k = s.boot.dueAt.has k ∧ t.boot.dueAt.getD k 0 = s.boot.dueAt.getD k 0) := by
  have hact : bootCmdAct 1 s = s.updBoot fun b => { b with
      dueAt := b.dueAt.map fun e => if s.bootStep (keyStep e.1) == 3 then (e.1, s.osc) else e
      interval := b.interval.filter fun e => !(s.bootStep (keyStep e.1) == 3) } := rfl
  have hex : exec .bootCmdRetry s = .next (bootCmdAct 1 s) := exec_accepts rfl h (Or.inl (by simp))
  rw [hact] at hex
  have hdue := NMap.getD_moved s.boot.dueAt (fun k => s.bootStep (keyStep k) == 3) s.osc
  have hhas := NMap.has_filter s.boot.interval (fun k => !(s.bootStep (keyStep k) == 3))
  have hget := fun k => NMap.getD_filter s.boot.interval (fun k => !(s.bootStep (keyStep k) == 3)) k 0
  refine ⟨_, hex, rfl, rfl, fun k => ⟨fun h3 => ⟨?_, fun hk => ?_⟩, fun h3 => ⟨?_, ?_, (hdue k).1, ?_⟩⟩⟩
  · exact (hhas k).trans (by simp [h3])
  · exact (hdue k).2.trans (by simp [h3, hk])
  · exact (hhas k).trans (by simp [h3])
  · exact (hget k).trans (by simp [h3])
  · exact (hdue k).2.trans (by simp [h3])

/-! ### The obligation -/

/-- A step that is not taken up, or of a unit that is shut down, changes nothing. -/
theorem exec_step_idle {s : State} {c : Instr} {i : Nat} {k : Bool} {fi : Option FlashInfo} {sp : List SpdInfo}
    (hc : (c, i) ∈ [(.stepClk k, 0), (.stepFlash fi, 1), (.stepBoard, 2), (.stepProf, 3), (.stepLanes, 4), (.stepCrook, 5), (.stepDram sp, 6),
      (.stepCal, 7)]) (h : s.stepTaken i = false ∨ s.shut = true) : exec c s = .next s := by
  have hidle : (!s.stepTaken i || s.shut) = true := by rcases h with h | h <;> simp [h]
  simp only [List.mem_cons, List.not_mem_nil, or_false, Prod.mk.injEq] at hc
  rcases hc with ⟨rfl, rfl⟩ | ⟨rfl, rfl⟩ | ⟨rfl, rfl⟩ | ⟨rfl, rfl⟩ | ⟨rfl, rfl⟩ | ⟨rfl, rfl⟩ | ⟨rfl, rfl⟩ | ⟨rfl, rfl⟩
  · exact congrArg Host.Outcome.next (if_pos hidle)
  · exact congrArg Host.Outcome.next (if_pos hidle)
  · exact congrArg Host.Outcome.next (if_pos hidle)
  · exact congrArg Host.Outcome.next (if_pos hidle)
  · exact congrArg Host.Outcome.next (if_pos hidle)
  · exact congrArg Host.Outcome.next (if_pos hidle)
  · exact congrArg Host.Outcome.next (if_pos hidle)
  · exact congrArg Host.Outcome.next (if_pos hidle)
theorem not_flashFails {fi : Option FlashInfo} {x : FlashInfo} (hx : fi = some x) (hf : x.fast144 = true) :
    ¬ (fi = none ∨ ∃ y, fi = some y ∧ y.fast144 = false) := by
  rintro (h | ⟨y, hy, hy0⟩)
  · exact absurd (hx.symm.trans h) (by simp)
  · obtain rfl := Option.some.inj (hx.symm.trans hy)
    exact absurd (hf.symm.trans hy0) (by decide)
theorem flashReads {fi : Option FlashInfo} (h : ¬ (fi = none ∨ ∃ y, fi = some y ∧ y.fast144 = false)) : ∃ x, fi = some x ∧ x.fast144 = true := by
  cases fi with
  | none => exact absurd (Or.inl rfl) h
  | some x =>
    refine ⟨x, rfl, ?_⟩
    cases hx : x.fast144 with
    | true => rfl
    | false => exact absurd (Or.inr ⟨x, rfl, hx⟩) h
/-- Settles O59: each step by what it takes up, the lanes and channels by folds over them, a retry by the key that is due. -/
theorem bootSteps : Obligations.BootSteps := by
  unfold Obligations.BootSteps
  refine ⟨fun s c i k fi sp hc => ⟨exec_step_idle hc, fun h hs => ?_⟩, fun s c => ⟨fun h ok => exec_channelTrained_idle h ok, fun h => ?_⟩, fun s i => ?_,
    bootCmdRetry_clause⟩
  · simp only [List.mem_cons, List.not_mem_nil, or_false, Prod.mk.injEq] at hc
    rcases hc with ⟨rfl, rfl⟩ | ⟨rfl, rfl⟩ | ⟨rfl, rfl⟩ | ⟨rfl, rfl⟩ | ⟨rfl, rfl⟩ | ⟨rfl, rfl⟩ | ⟨rfl, rfl⟩ | ⟨rfl, rfl⟩
    · cases k with
      | true =>
        obtain ⟨t, hex, ⟨h1, h2, h3, h4, h5, h6⟩, hstep⟩ := stepClk_locked h hs
        exact ⟨t, hex, h1, h2, h3, h4, h5, h6, fun _ => ⟨fun _ => hstep, fun hk => absurd hk (by decide)⟩, (absurd · (by decide)), (absurd · (by decide)), (absurd · (by decide)), (absurd · (by decide)), (absurd · (by decide)), (absurd · (by decide)), (absurd · (by decide))⟩
      | false =>
        obtain ⟨t, hex, ⟨h1, h2, h3, h4, h5, h6⟩, hstep⟩ := stepClk_failed h hs
        exact ⟨t, hex, h1, h2, h3, h4, h5, h6, fun _ => ⟨fun hk => absurd hk (by decide), fun _ => hstep⟩, (absurd · (by decide)), (absurd · (by decide)), (absurd · (by decide)), (absurd · (by decide)), (absurd · (by decide)), (absurd · (by decide)), (absurd · (by decide))⟩
    · by_cases hfi : fi = none ∨ ∃ x, fi = some x ∧ x.fast144 = false
      · obtain ⟨t, hex, ⟨h1, h2, h3, h4, h5, h6⟩, hstep⟩ := stepFlash_failed h hs hfi
        exact ⟨t, hex, h1, h2, h3, h4, h5, h6, (absurd · (by decide)), fun _ => ⟨fun x hx hf => (not_flashFails hx hf hfi).elim, fun _ => hstep⟩, (absurd · (by decide)), (absurd · (by decide)), (absurd · (by decide)), (absurd · (by decide)), (absurd · (by decide)), (absurd · (by decide))⟩
      · obtain ⟨x, rfl, hx⟩ := flashReads hfi
        obtain ⟨t, hex, ⟨h1, h2, h3, h4, h5, h6⟩, hstep⟩ := stepFlash_read h hs hx
        exact ⟨t, hex, h1, h2, h3, h4, h5, h6, (absurd · (by decide)), fun _ => ⟨fun y hy _ => Option.some.inj hy ▸ hstep, fun hf => absurd hf hfi⟩, (absurd · (by decide)), (absurd · (by decide)), (absurd · (by decide)), (absurd · (by decide)), (absurd · (by decide)), (absurd · (by decide))⟩
    · obtain ⟨t, hex, ⟨h1, h2, h3, h4, h5, h6⟩, hstep⟩ := stepBoard_read h hs
      exact ⟨t, hex, h1, h2, h3, h4, h5, h6, (absurd · (by decide)), (absurd · (by decide)), fun _ => hstep, (absurd · (by decide)), (absurd · (by decide)), (absurd · (by decide)), (absurd · (by decide)), (absurd · (by decide))⟩
    · obtain ⟨t, hex, ⟨h1, h2, h3, h4, h5, h6⟩, hstep⟩ := stepProf_read h hs
      exact ⟨t, hex, h1, h2, h3, h4, h5, h6, (absurd · (by decide)), (absurd · (by decide)), (absurd · (by decide)), fun _ => hstep, (absurd · (by decide)), (absurd · (by decide)), (absurd · (by decide)), (absurd · (by decide))⟩
    · obtain ⟨t, hex, ⟨h1, h2, h3, h4, h5, h6⟩, hstep⟩ := stepLanes_risen h hs
      exact ⟨t, hex, h1, h2, h3, h4, h5, h6, (absurd · (by decide)), (absurd · (by decide)), (absurd · (by decide)), (absurd · (by decide)), fun _ => hstep, (absurd · (by decide)), (absurd · (by decide)), (absurd · (by decide))⟩
    · cases hp : s.straps.pairEn with
      | false =>
        obtain ⟨t, hex, ⟨h1, h2, h3, h4, h5, h6⟩, hstep⟩ := stepCrook_single h hs hp
        exact ⟨t, hex, h1, h2, h3, h4, h5, h6, (absurd · (by decide)), (absurd · (by decide)), (absurd · (by decide)), (absurd · (by decide)), (absurd · (by decide)), fun _ => ⟨fun _ => hstep, fun hk => absurd hk (by decide)⟩, (absurd · (by decide)), (absurd · (by decide))⟩
      | true =>
        obtain ⟨t, hex, ⟨h1, h2, h3, h4, h5, h6⟩, hstep⟩ := stepCrook_risen h hs hp
        exact ⟨t, hex, h1, h2, h3, h4, h5, h6, (absurd · (by decide)), (absurd · (by decide)), (absurd · (by decide)), (absurd · (by decide)), (absurd · (by decide)), fun _ => ⟨fun hk => absurd hk (by decide), fun _ => hstep⟩, (absurd · (by decide)), (absurd · (by decide))⟩
    · obtain ⟨t, hex, ⟨h1, h2, h3, h4, h5, h6⟩, hstep⟩ := stepDram_taken h hs sp
      exact ⟨t, hex, h1, h2, h3, h4, h5, h6, (absurd · (by decide)), (absurd · (by decide)), (absurd · (by decide)), (absurd · (by decide)), (absurd · (by decide)), (absurd · (by decide)), fun _ => hstep, (absurd · (by decide))⟩
    · obtain ⟨t, hex, ⟨h1, h2, h3, h4, h5, h6⟩, hstep⟩ := stepCal_read h hs
      exact ⟨t, hex, h1, h2, h3, h4, h5, h6, (absurd · (by decide)), (absurd · (by decide)), (absurd · (by decide)), (absurd · (by decide)), (absurd · (by decide)), (absurd · (by decide)), (absurd · (by decide)), fun _ => hstep⟩
  · obtain ⟨t, ht⟩ := channelTrained_good h
    exact ⟨⟨t, ht⟩, channelTrained_bad h⟩
  · have hex := exec_bootRetry s i
    refine ⟨fun h => ?_, fun hi => ?_, fun hrun hs => ⟨fun hi => (bootRetry_step s i hrun hs hi).1, fun hi => (bootRetry_step s i hrun hs hi).2,
      fun hi ls hls => bootRetry_lanes s i hrun hs hi hls, bootRetry_channels s i hrun hs⟩⟩
    · rw [hex, if_pos (by rcases h with h | h <;> simp [h])]
    · simp only [List.mem_cons, List.not_mem_nil, or_false] at hi
      rw [hex, if_neg (c := i.val ≤ 1) (by omega), if_neg (c := i.val = 4 ∨ i.val = 5) (by omega), if_neg (c := i.val = 6) (by omega), ite_self]
end Sys2Proof.Machine
end

section
/-! ### What a soft reset leaves of THERM, of the frames and of the other resets (O58) -/
open Sys2Proof Sys2Proof.Machine
namespace Sys2Proof.Machine

/-- A head channel has no frame to send. -/
def HeadSt.bare (x : HeadSt) : Prop := x.queue = [] ∧ x.ready = [] ∧ x.cur = none
/-- A step beside the die's temperature, the resets and the PLL, that gives no head channel a frame. -/
structure State.outside (s t : State) : Prop where
  therm : ∀ f, t.get pTHERM f = s.get pTHERM f
  srsts : s.srsts = [] → t.srsts = []
  heads : ∀ h, (s.headAt h).bare → (t.headAt h).bare
  pll : t.pll = s.pll
  flash : t.flash = s.flash
theorem State.outside_refl (s : State) : s.outside s := ⟨fun _ => rfl, id, fun _ h => h, rfl, rfl⟩
theorem State.outside.trans {s t u : State} (h : s.outside t) (k : t.outside u) : s.outside u :=
  ⟨fun f => (k.therm f).trans (h.therm f), fun hs => k.srsts (h.srsts hs), fun n hn => k.heads n (h.heads n hn), k.pll.trans h.pll,
    k.flash.trans h.flash⟩
theorem State.outside_foldl {α : Type} (g : State → α → State) (hg : ∀ (t : State) x, t.outside (g t x)) (l : List α) (s : State) : s.outside (l.foldl g s) :=
  List.foldlRecOn (motive := fun t : State => s.outside t) l g s.outside_refl fun t ht x _ => ht.trans (hg t x)
theorem State.outside_each (g : State → Nat → State) (hg : ∀ (t : State) x, t.outside (g t x)) (l : List Nat) (s : State) : s.outside (s.each l g) :=
  State.outside_foldl g hg l s
theorem State.outside_ite {s t u : State} (c : Prop) [Decidable c] (h : s.outside t) (k : s.outside u) : s.outside (if c then t else u) := by
  split <;> assumption
/-- What moves none of these. -/
theorem State.outside_of {s t : State} (hget : ∀ f, t.get pTHERM f = s.get pTHERM f) (h : t.srsts = s.srsts ∧ t.head = s.head ∧ t.pll = s.pll ∧ t.flash = s.flash) : s.outside t := by
  obtain ⟨hs, hh, hp, hf⟩ := h
  refine ⟨hget, fun he => hs.trans he, fun n hn => ?_, hp, hf⟩
  unfold State.headAt at hn ⊢
  rwa [hh]
theorem State.outside_same {s t : State} (h : t.regs = s.regs ∧ t.srsts = s.srsts ∧ t.head = s.head ∧ t.pll = s.pll ∧ t.flash = s.flash) : s.outside t :=
  State.outside_of (fun f => State.get_congr h.1 pTHERM f) h.2
theorem State.outside_reports {s t : State} (hget : ∀ f, t.get pTHERM f = s.get pTHERM f) (h : s.reports t) : s.outside t := by
  obtain ⟨r, w, ht⟩ := h
  exact State.outside_of hget (by rw [ht]; exact ⟨rfl, rfl, rfl, rfl⟩)
section
variable (s : State) {p : Nat} (hp : pTHERM ≠ p)
include hp
theorem State.outside_set (f : Fld) (v : Nat) : s.outside (s.set p f v) := State.outside_of (fun _ => s.get_set_ne v (Or.inl hp)) ⟨rfl, rfl, rfl, rfl⟩
theorem State.outside_cause (i : Nat) : s.outside (s.cause p i) := State.outside_reports (fun _ => s.get_cause_ne i (Or.inl hp)) (s.reports_cause p i)
theorem State.outside_err (code src lo hi dir : Nat) : s.outside (s.err p code src lo hi dir) :=
  State.outside_reports (fun _ => s.get_err_ne _ _ _ _ _ _ (Or.inl hp)) (s.reports_err _ _ _ _ _ _)
end
theorem State.outside_updHead (s : State) (h : Nat) (g : HeadSt → HeadSt) (hg : ∀ x, x.bare → (g x).bare) : s.outside (s.updHead h g) := by
  refine ⟨fun _ => rfl, id, fun n hn => ?_, rfl, rfl⟩
  by_cases hnh : n = h
  · subst hnh
    rw [State.headAt_upd_self]
    exact hg _ hn
  · rwa [State.headAt_upd_other _ _ hnh]

/-! ### PAIR, LINE and its channels -/

theorem State.outside_setPairState (s : State) (v : Nat) : s.outside (s.setPairState v) := by
  unfold State.setPairState
  dsimp only
  refine State.outside_ite _ s.outside_refl ?_
  have hpair : ∀ (t : State) g, t.outside (t.updPair g) := fun t g => State.outside_same ⟨rfl, rfl, rfl, rfl, rfl⟩
  exact ((s.outside_set (p := pPAIR) (by decide) R.PAIR_STAT_STATE v).trans (hpair _ _)).trans (State.outside_cause _ (p := pPAIR) (by decide) 3)
theorem State.outside_crookSend (s : State) (typ : Nat) (l : List Byte) : s.outside (s.crookSend typ l) := by
  unfold State.crookSend
  refine State.outside_ite _ s.outside_refl (State.outside_ite _ ?_ ?_)
  · exact State.outside_same ⟨rfl, rfl, rfl, rfl, rfl⟩
  · exact State.outside_same ⟨rfl, rfl, rfl, rfl, rfl⟩
theorem State.outside_giveRecord (s : State) (c code b : Nat) (u : Bool) : s.outside (s.giveRecord c code b u) := by
  unfold State.giveRecord
  exact (((s.outside_err (by decide) _ _ _ _ _).trans (State.outside_set _ (by decide) _ _)).trans (State.outside_set _ (by decide) _ _)).trans
    (State.outside_set _ (by decide) _ _)
theorem State.outside_pairCause (s : State) (c code b : Nat) : s.outside (s.pairCause c code b) := by
  have hpair : ∀ (t : State) g, t.outside (t.updPair g) := fun t g => State.outside_same ⟨rfl, rfl, rfl, rfl, rfl⟩
  unfold State.pairCause
  refine State.outside_ite _ s.outside_refl (State.outside_ite _ (State.outside_ite _ s.outside_refl (State.outside_ite _ ?_ (s.outside_giveRecord _ _ _ _)))
    (State.outside_ite _ ((hpair _ _).trans (State.outside_setPairState _ _)) s.outside_refl))
  have hgive : ∀ l, s.outside ((((s.giveRecord c code b !s.covered).incSat pPAIR R.PAIR_GIVE_CNT).cause pPAIR 4).crookSend 0x06 l) := fun l =>
    (((s.outside_giveRecord _ _ _ _).trans (State.outside_set _ (by decide) _ _)).trans (State.outside_cause _ (by decide) _)).trans (State.outside_crookSend _ _ _)
  exact State.outside_ite _ ((hgive _).trans (State.outside_setPairState _ _)) ((hgive _).trans (hpair _ _))
theorem State.outside_pairRise {s t u : State} (code b : Nat) (h : s.outside t) : s.outside (u.pairRise t code b) := by
  unfold State.pairRise
  split
  · exact h
  · split
    · exact h.trans (t.outside_pairCause _ _ _)
    · exact h
theorem State.outside_fenceMark (s : State) {p : Nat} (hp : pTHERM ≠ p) (reason : Nat) : s.outside (s.fenceMark p reason) := by
  unfold State.fenceMark State.fenceFlags
  exact ((((s.outside_cause hp _).trans (State.outside_set _ hp _ _)).trans (State.outside_set _ hp _ _)).trans (State.outside_set _ hp _ _)).trans
    (State.outside_same ⟨rfl, rfl, rfl, rfl, rfl⟩)
theorem pTHERM_low {p : Nat} (h : 0x10 ≤ p) : pTHERM ≠ p := by
  unfold pTHERM
  omega
theorem pHEAD_notTHERM (h : Nat) : pTHERM ≠ pHEAD h := pTHERM_low (by unfold pHEAD; omega)
theorem pLANE_notTHERM (l : Nat) : pTHERM ≠ pLANE l := pTHERM_low (by unfold pLANE; omega)
theorem State.outside_flightOver (s : State) (p : Nat) : s.outside (s.flightOver p) := by
  have hhead : ∀ h, s.outside (s.headDue h) := fun h => by
    unfold State.headDue State.headStops
    split
    · refine State.outside_ite _ s.outside_refl ?_
      exact ((s.outside_fenceMark (pHEAD_notTHERM h) _).trans (State.outside_set _ (pHEAD_notTHERM h) _ _)).trans (State.outside_updHead _ _ _ fun _ hx => hx)
    · exact s.outside_refl
  have hpipe : ∀ b, s.outside (s.pipeDue b) := fun b => by
    have hp : pTHERM ≠ pPIPE b := by
      unfold pTHERM pPIPE
      omega
    have hupd : ∀ g, s.outside (s.updPipe b g) := fun g => State.outside_same ⟨rfl, rfl, rfl, rfl, rfl⟩
    unfold State.pipeDue
    split
    · exact State.outside_ite _ (hupd _) (State.outside_pairRise _ _ ((hupd _).trans (State.outside_fenceMark _ hp _)))
    · exact s.outside_refl
  unfold State.flightOver
  split
  · exact State.outside_ite _ s.outside_refl (hhead _)
  · exact State.outside_ite _ s.outside_refl (hpipe _)
  · exact s.outside_refl
theorem State.outside_markDue (s : State) (p : Nat) : s.outside (s.markDue p) := by
  unfold State.markDue
  split
  next h =>
    dsimp only
    refine State.outside_ite _ s.outside_refl ⟨fun _ => rfl, fun he => ?_, fun _ hn => hn, rfl, rfl⟩
    rw [he] at h
    exact absurd h (by simp [NMap.has])
  · exact s.outside_refl
theorem State.outside_lineStopped (s : State) (b : Nat) : s.outside (s.lineStopped b) := by
  have hgive : ∀ t : State, t.outside (t.giveDone b) := fun t => by
    have hpair : ∀ g, t.outside (t.updPair g) := fun g => State.outside_same ⟨rfl, rfl, rfl, rfl, rfl⟩
    unfold State.giveDone
    exact State.outside_ite _ ((hpair _).trans (State.outside_setPairState _ _)) (hpair _)
  have hwhen : ∀ (t : State) c, t.outside (t.when c fun t => t.each (List.range 2) fun u c => u.updCam c fun x => { x with trig0Until := none }) := fun t c => by
    unfold State.when
    exact State.outside_ite _ (State.outside_each (fun u c => u.updCam c fun x => { x with trig0Until := none })
      (fun u c => State.outside_same ⟨rfl, rfl, rfl, rfl, rfl⟩) _ t) t.outside_refl
  obtain ⟨u, hu⟩ : ∃ u, (s.each (barPages b) fun t p => t.markDue p) = u := ⟨_, rfl⟩
  have hsu : s.outside u := hu ▸ State.outside_each (fun t p => t.markDue p) (fun t p => t.outside_markDue p) (barPages b) s
  unfold State.lineStopped
  dsimp only
  rw [hu]
  generalize barPages b = l
  exact ((hsu.trans (hgive u)).trans (hwhen (u.giveDone b) _)).trans (State.outside_each State.flightOver State.outside_flightOver l _)
theorem State.outside_lineDisable (s : State) (b : Nat) : s.outside (s.lineDisable b) := by
  unfold State.lineDisable
  have hline : ∀ (t : State) g, t.outside (t.updLine b g) := fun t g => State.outside_same ⟨rfl, rfl, rfl, rfl, rfl⟩
  have hpair : ∀ (t : State) g, t.outside (t.updPair g) := fun t g => State.outside_same ⟨rfl, rfl, rfl, rfl, rfl⟩
  generalize hu : ((s.set (pLINE b) R.PG_CTRL_EN 0).updLine b fun l => { l with due := false }).updPair _ = u
  have hsu : s.outside u := hu ▸ ((s.outside_set (pTHERM_low (by unfold pLINE; omega)) R.PG_CTRL_EN 0).trans (hline _ _)).trans (hpair _ _)
  exact hsu.trans (u.outside_lineStopped b)

/-! ### DMAC, the decoders and the feed ports -/

theorem State.recStep.outside {s t : State} (h : s.recStep t) : s.outside t := by
  refine State.outside_of (fun f => h.page _ ?_ (by decide) f) ?_
  · rintro (h | ⟨c, hc, h⟩)
    · exact absurd h (by decide)
    · unfold pTHERM pDRAM at h
      omega
  · obtain ⟨r, d, w, m, k, q, j, ht⟩ := h.shape
    rw [ht]
    exact ⟨rfl, rfl, rfl, rfl⟩
theorem State.outside_jobStop (s : State) (b : Nat) : s.outside (s.jobStop b) := by
  have hpass : ∀ j m, s.outside (s.passRuns b j m) := fun j m => by
    unfold State.passRuns
    refine State.outside_ite _ s.outside_refl ?_
    refine State.outside.trans (t := s.updDec b fun d => { d with passErrs := [] }) (State.outside_same ⟨rfl, rfl, rfl, rfl, rfl⟩) ?_
    exact State.outside_foldl _ (fun t k => State.outside_foldl _ (fun u c => (u.recStep_runLine _ _ _ _ _ _).outside) _ t) _ _
  have hflush : s.outside (s.passFlush b) := by
    unfold State.passFlush
    split
    · exact hpass _ _
    · exact s.outside_refl
  exact hflush.trans (State.outside_same ⟨rfl, rfl, rfl, rfl, rfl⟩)
theorem State.outside_panicUpdate (s : State) (b : Nat) : s.outside (s.panicUpdate b) := by
  have hupd : ∀ g, s.outside (s.updDec b g) := fun g => State.outside_same ⟨rfl, rfl, rfl, rfl, rfl⟩
  unfold State.panicUpdate
  refine State.outside_ite _ (State.outside_ite _ (hupd _) s.outside_refl) (State.outside_ite _ ?_ s.outside_refl)
  exact ((hupd _).trans (State.outside_set _ (by decide) _ _)).trans (State.outside_cause _ (by decide) _)
/-- A decoder of a device that is shut down goes no further. -/
theorem State.decSettle_shut (s : State) (b n : Nat) (h : s.shut = true) : s.decSettle b n = s := by
  have hheld : s.working (pDEC b) = false := by
    have hpage : (pDEC b == pSYS || pDEC b == pTHERM || pDEC b == pHOSTIF || pDEC b == pTIME) = false := by
      simp only [Bool.or_eq_false_iff, beq_eq_false_iff_ne]
      unfold pDEC pSYS pTHERM pHOSTIF pTIME
      omega
    unfold State.working State.resetting State.held
    rw [h, hpage]
    simp
  cases n with
  | zero => rfl
  | succ n =>
    unfold State.decSettle
    simp [hheld]
theorem State.outside_decGo {s : State} (h : s.shut = true) (b : Nat) : s.outside (s.decGo b) := by
  unfold State.decGo
  rw [s.decSettle_shut b 300 h]
  exact s.outside_panicUpdate b
theorem State.outside.shut {s t : State} (h : s.outside t) : t.shut = s.shut := by
  unfold State.shut State.flag
  rw [h.therm]
theorem State.outside_decsGo {s : State} (h : s.shut = true) (l : List Nat) : s.outside (s.each l State.decGo) :=
  List.foldlRecOn (motive := fun t : State => s.outside t) l State.decGo s.outside_refl fun _ ht b _ =>
    ht.trans (State.outside_decGo (ht.shut.trans h) b)
theorem State.outside_feedSettle (s : State) : s.outside s.feedSettle := by
  have hfeed : ∀ n, pTHERM ≠ pFEED n := fun n => pTHERM_low (by unfold pFEED; omega)
  have hport : ∀ (t : State) n g, t.outside (t.updPort n g) := fun t n g => State.outside_same ⟨rfl, rfl, rfl, rfl, rfl⟩
  have hstream : ∀ (t : State) n live g, t.outside (t.updStream n live g) := fun t n live g => hport t _ _
  have hsend : ∀ (t : State) n q, t.outside (t.pauseSend n q) := fun t n q => by
    unfold State.pauseSend
    exact (t.outside_set (hfeed n) _ _).trans (State.outside_same ⟨rfl, rfl, rfl, rfl, rfl⟩)
  have hevict : ∀ (f : Nat) (t : State) n live, t.outside (t.feedEvict n live f) := fun f => by
    induction f with
    | zero => exact fun t _ _ => t.outside_refl
    | succ f ih =>
      intro t n live
      unfold State.feedEvict
      exact State.outside_ite _ (((hstream t n live _).trans (State.outside_set _ (hfeed n) _ _)).trans (ih _ n live)) t.outside_refl
  have hroom : ∀ (t : State) n, t.outside (t.feedMakeRoom n) := fun t n => by
    unfold State.feedMakeRoom State.gapSettle
    dsimp only
    exact (((hevict 512 t n false).trans (hevict 512 _ n true)).trans (hstream _ n false _)).trans (hstream _ n true _)
  have hsettle : ∀ (t : State) n, t.outside (t.portSettle n) := fun t n => by
    unfold State.portSettle
    dsimp only
    obtain ⟨u, hu⟩ : ∃ u, (if (t.portAt n).link = (t.laneAt (feedLane n)).block then t
      else (t.updPort n fun x => { x with link := (t.laneAt (feedLane n)).block }).cause (pFEED n) 6) = u := ⟨_, rfl⟩
    have htu : t.outside u := hu ▸ State.outside_ite _ t.outside_refl ((hport t n _).trans (State.outside_cause _ (hfeed n) 6))
    rw [hu]
    split
    · exact State.outside_ite _ (htu.trans ((hport u n _).trans (hsend _ n _))) htu
    · exact State.outside_ite _ htu (State.outside_ite _ (htu.trans ((hport u n _).trans (hsend _ n _))) (htu.trans (hport u n _)))
  exact ((State.outside_each State.feedMakeRoom hroom _ s).trans (State.outside_each State.xoffSettle (fun t n => by unfold State.xoffSettle; exact hport t n _) _ _)).trans
    (State.outside_each State.portSettle hsettle _ _)
end Sys2Proof.Machine
end

section
/-! ### The soft reset of a page as it stands to THERM and the frames (O58) -/
open Sys2Proof Sys2Proof.Machine
namespace Sys2Proof.Machine

/-! ### The line store, Chanter and the cameras -/

theorem State.outside_lsRead (s : State) (a n src : Nat) : s.outside (s.lsRead a n src).1 := by
  obtain ⟨r, w, e, hshape⟩ := (State.lsReads_spec (Memory.slice s.lstore a n) s src a).1
  refine State.outside_of (fun f => s.lsReads_page _ src a (by decide) f) ?_
  rw [State.lsRead, hshape]
  exact ⟨rfl, rfl, rfl, rfl⟩
theorem State.outside_chantRead (s : State) (a n : Nat) : s.outside (s.chantRead a n).1 := by
  unfold State.chantRead
  dsimp only
  split
  · exact (s.outside_lsRead a n 3).trans (State.outside_same ⟨rfl, rfl, rfl, rfl, rfl⟩)
  · exact s.outside_lsRead a n 3
theorem State.outside_slotU (s : State) (k j i c : Nat) : s.outside (s.slotU k j i c).1 := by
  unfold State.slotU
  split
  · exact s.outside_refl
  · exact s.outside_chantRead _ _
theorem State.outside_lsWrite (s : State) (a : Nat) (l : List Byte) : s.outside (s.lsWrite a l) := State.outside_same ⟨rfl, rfl, rfl, rfl, rfl⟩
theorem State.outside_pairAdd (s : State) (k : Nat) (absb : List Nat) (cov : Nat → Nat) : s.outside (s.pairAdd k absb cov) := by
  have hslots : ∀ (l : List (Nat × Nat)) (t : State) (z : List (Nat × Nat)) j, t.outside (l.foldl (fun (z : State × List (Nat × Nat)) e =>
      let q := z.1.slotU k j e.1 (cov e.2)
      (q.1, z.2 ++ [(e.1, q.2)])) (t, z)).1 := fun l t z j =>
    List.foldlRecOn (motive := fun x : State × List (Nat × Nat) => t.outside x.1) l _ t.outside_refl fun x hx e _ => hx.trans (x.1.outside_slotU _ _ _ _)
  unfold State.pairAdd
  dsimp only
  refine State.outside.trans ?_ (State.outside_lsWrite _ _ _)
  refine List.foldlRecOn (motive := fun x : State × Array Nat => s.outside x.1) _ _ (s.outside_chantRead _ _) fun x hx j _ => ?_
  exact hx.trans (hslots _ _ _ _)
theorem State.outside_chantWork (s : State) (g : State → State) (h : s.outside (g s)) : s.outside (s.chantWork g) := by
  unfold State.chantWork State.pageWork
  split
  · refine h.trans (State.outside_of (fun f => ?_) ⟨rfl, rfl, rfl, rfl⟩)
    rw [State.get_keepPage, if_neg (by decide)]
  · exact h
theorem State.outside_pairFate (s : State) (x : OverPair) : s.outside (s.pairFate x) := by
  have hready : ∀ t : State, t.outside t.partsReady := fun t => by
    unfold State.partsReady
    exact State.outside_ite _ t.outside_refl (State.outside_same ⟨rfl, rfl, rfl, rfl, rfl⟩)
  have hparts : ∀ c : ChantSt, s.outside { s with chant := c } := fun c => State.outside_same ⟨rfl, rfl, rfl, rfl, rfl⟩
  unfold State.pairFate
  dsimp only
  refine State.outside_ite _ ?_ (State.outside_ite _ (s.outside_set (by decide) _ _) (State.outside_ite _ (s.outside_set (by decide) _ _)
    (s.outside_set (by decide) _ _)))
  exact (((hparts _).trans (hready _)).trans (State.outside_set _ (p := pCHANT) (by decide) _ _)).trans (State.outside_pairAdd _ _ _ _)
theorem State.outside_overSettle (s : State) : s.outside s.overSettle := by
  have hupd : ∀ g, s.outside (s.updCam 1 g) := fun g => State.outside_same ⟨rfl, rfl, rfl, rfl, rfl⟩
  unfold State.overSettle
  dsimp only
  refine State.outside_ite _ s.outside_refl (State.outside_ite _ (hupd _) ((hupd _).trans (State.outside_chantWork _ _ ?_)))
  exact State.outside_foldl State.pairFate State.outside_pairFate _ _
theorem State.outside_statPut (s : State) (c : Nat) (r : List Byte) : s.outside (s.statPut c r) := by
  have hp : pTHERM ≠ pCAM c := pTHERM_low (by unfold pCAM; omega)
  unfold State.statPut
  refine State.outside_ite _ (State.outside_same ⟨rfl, rfl, rfl, rfl, rfl⟩) (State.outside_ite _ ?_ (s.outside_set hp _ _))
  exact (s.outside_set hp R.CAM_SLATE_CNT _).trans (State.outside_same ⟨rfl, rfl, rfl, rfl, rfl⟩)
theorem State.outside_flatFrame (s : State) (c : Nat) (l : List Nat) (n : Nat) : s.outside (s.flatFrame c l n) := by
  unfold State.flatFrame
  exact State.outside_ite _ s.outside_refl (State.outside_same ⟨rfl, rfl, rfl, rfl, rfl⟩)
theorem State.outside_flushStart (s : State) (c : Nat) (f : FlushSt) : s.outside (s.flushStart c f) := by
  unfold State.flushStart
  exact State.outside_ite _ s.outside_refl (State.outside_ite _ (State.outside_same ⟨rfl, rfl, rfl, rfl, rfl⟩) (State.outside_same ⟨rfl, rfl, rfl, rfl, rfl⟩))
theorem State.outside_camClose (s : State) (c : Nat) (cut : Bool) : s.outside (s.camClose c cut) := by
  have hp : pTHERM ≠ pCAM c := pTHERM_low (by unfold pCAM; omega)
  unfold State.camClose
  dsimp only
  split
  · exact s.outside_refl
  next f hf =>
    generalize (cut || decide (f.lines < max 1 (s.ap (pCAM c) R.CAM_FRAME))) = short
    generalize hu : (((s.updCam c _).set (pCAM c) R.CAM_FSTAT_LINES 0).set (pCAM c) R.CAM_FSTAT_LAST _).incWrap (pCAM c) R.CAM_FRM_CNT = u
    have hcam : ∀ g, s.outside (s.updCam c g) := fun g => State.outside_same ⟨rfl, rfl, rfl, rfl, rfl⟩
    have hsu : s.outside u := hu ▸ (((hcam _).trans (State.outside_set _ hp _ _)).trans (State.outside_set _ hp _ _)).trans (State.outside_set _ hp _ _)
    have hfate : ∀ (t : State) (x y : Bool), t.outside (if x then ((t.incSat (pCAM c) R.CAM_SHORT_CNT).err (pCAM c) 0x80 0 f.fseq).cause (pCAM c) 5
        else if y then ((t.incSat (pCAM c) R.CAM_LONG_CNT).err (pCAM c) 0x81 0 f.fseq).cause (pCAM c) 6 else t) := fun t x y =>
      State.outside_ite _ (((t.outside_set hp _ _).trans (State.outside_err _ hp _ _ _ _ _)).trans (State.outside_cause _ hp _))
        (State.outside_ite _ (((t.outside_set hp _ _).trans (State.outside_err _ hp _ _ _ _ _)).trans (State.outside_cause _ hp _)) t.outside_refl)
    have hstat : ∀ (t : State) (x : Bool) r, t.outside (if x then (t.statPut c r).tickFresh else t) := fun t x r =>
      State.outside_ite _ ((t.outside_statPut c r).trans (State.outside_same ⟨rfl, rfl, rfl, rfl, rfl⟩)) t.outside_refl
    have hflat : ∀ (t : State) (x : Bool), t.outside (if x then t.flatFrame c f.vsum f.vlines else t) := fun t x =>
      State.outside_ite _ (t.outside_flatFrame _ _ _) t.outside_refl
    exact ((hsu.trans ((State.outside_cause u hp 4).trans (hfate _ _ _))).trans (hstat _ _ _)).trans
      ((hflat _ _).trans ((State.outside_overSettle _).trans (State.outside_flushStart _ _ _)))
theorem State.outside_camDisable (s : State) (c : Nat) : s.outside (s.camDisable c) := by
  have hcam : ∀ (t : State) g, t.outside (t.updCam c g) := fun t g => State.outside_same ⟨rfl, rfl, rfl, rfl, rfl⟩
  unfold State.camDisable
  exact ((s.outside_camClose c true).trans (hcam _ _)).trans (State.outside_overSettle _)

/-! ### CAL, PROF and the lanes -/

theorem State.outside_calReset (s : State) : s.outside s.calReset := by
  have hlanes : ∀ (t : State) (l : List Nat), t.outside (t.each l fun t l =>
      t.updLane l fun x => { x with calScan := false, calRuns := false, scan := if x.calRuns then none else x.scan }) := fun t l =>
    State.outside_each (fun t l => t.updLane l fun x => { x with calScan := false, calRuns := false, scan := if x.calRuns then none else x.scan })
      (fun u n => State.outside_same ⟨rfl, rfl, rfl, rfl, rfl⟩) l t
  have hcalst : ∀ (t : State) c, t.outside { t with calst := c } := fun t c => State.outside_same ⟨rfl, rfl, rfl, rfl, rfl⟩
  unfold State.calReset
  refine State.outside_ite _ ?_ s.outside_refl
  unfold State.calEnd
  dsimp only
  obtain ⟨u, hu⟩ : ∃ u, (if s.chant.capturing then ({ s with chant := { s.chant with capturing := false } } : State).tiersClear else s) = u := ⟨_, rfl⟩
  have hsu : s.outside u := hu ▸ State.outside_ite _ (State.outside_same ⟨rfl, rfl, rfl, rfl, rfl⟩) s.outside_refl
  rw [hu]
  exact ((((hsu.trans (hlanes u _)).trans (hcalst _ _)).trans (State.outside_set _ (p := pCAL) (by decide) _ _)).trans
    (State.outside_set _ (p := pCAL) (by decide) _ _)).trans (State.outside_cause _ (by decide) _)
theorem State.outside_profReset (s : State) : s.outside s.profReset := by
  have hask : ∀ (t : State) p, t.outside (t.reloadAsk p false) := fun t p => by
    have hprof : ∀ q, t.outside { t with prof := q } := fun q => State.outside_same ⟨rfl, rfl, rfl, rfl, rfl⟩
    unfold State.reloadAsk State.reloadStart
    split
    · exact State.outside_ite _ (((hprof _).trans (State.outside_set _ (p := pPROF) (by decide) _ _)).trans (State.outside_set _ (p := pPROF) (by decide) _ _))
        ((hprof _).trans (State.outside_set _ (p := pPROF) (by decide) _ _))
    · exact (hprof _).trans (State.outside_set _ (p := pPROF) (by decide) _ _)
  have hstart : ∀ q, s.outside ((({ s with prof := q } : State).set pPROF R.PROF_VALID_VALID 0).updBoot fun b => { b with opAfter := 0 }) := fun q => by
    have hprof : s.outside { s with prof := q } := State.outside_same ⟨rfl, rfl, rfl, rfl, rfl⟩
    have hboot : ∀ (t : State) g, t.outside (t.updBoot g) := fun t g => State.outside_same ⟨rfl, rfl, rfl, rfl, rfl⟩
    exact (hprof.trans (State.outside_set _ (p := pPROF) (by decide) _ _)).trans (hboot _ _)
  unfold State.profReset
  dsimp only
  exact ((hstart _).trans (State.outside_each (fun t p => t.reloadAsk p false) hask _ _)).trans (State.outside_set _ (p := pPROF) (by decide) _ _)
theorem State.outside_updLane (s : State) (l : Nat) (g : LaneSt → LaneSt) : s.outside (s.updLane l g) := State.outside_same ⟨rfl, rfl, rfl, rfl, rfl⟩
theorem State.outside_scanLost (s : State) (l : Nat) : s.outside (s.scanLost l) := by
  unfold State.scanLost
  refine State.outside.trans ?_ (State.outside_updLane _ l _)
  split
  · exact State.outside_same ⟨rfl, rfl, rfl, rfl, rfl⟩
  · exact s.outside_refl
theorem State.outside_tlmLane (s : State) (h st : Nat) : s.outside (s.tlmLane h st) := by
  unfold State.tlmLane
  exact State.outside_ite _ s.outside_refl (State.outside_ite _ (s.outside_updHead h _ fun _ hx => hx)
    (State.outside_ite _ (s.outside_updHead h _ fun _ hx => hx) s.outside_refl))
theorem State.outside_setLane (s : State) (l st : Nat) : s.outside (s.setLane l st) := by
  have hp := pLANE_notTHERM l
  obtain ⟨u, hu⟩ : ∃ u, (s.updLane l fun x => { x with st := st }).tlmLane l st = u := ⟨_, rfl⟩
  have hsu : s.outside u := hu ▸ (s.outside_updLane l _).trans (State.outside_tlmLane _ l st)
  unfold State.setLane
  dsimp only
  rw [hu]
  exact State.outside_ite _ hsu (State.outside_ite _ (hsu.trans (u.outside_cause hp 3))
    (State.outside_ite _ ((hsu.trans (u.outside_cause hp 4)).trans (State.outside_scanLost _ l)) hsu))
theorem State.outside_laneIdle (s : State) (l : Nat) : s.outside (s.laneIdle l) := by
  have hemit : ∀ (t : State) o, t.outside (t.emit o) := fun t o => State.outside_same ⟨rfl, rfl, rfl, rfl, rfl⟩
  unfold State.laneIdle
  dsimp only
  exact State.outside_ite _ s.outside_refl (State.outside_ite _ ((s.outside_setLane l 4).trans (State.outside_updLane _ l _))
    (State.outside_ite _ (((s.outside_setLane l 5).trans (State.outside_updLane _ l _)).trans (hemit _ _)) s.outside_refl))
theorem State.stepShows.outside {s t : State} {i : Nat} (h : s.stepShows t i) : s.outside t := by
  refine State.outside_of (h.page (by decide)) ?_
  obtain ⟨r, q, w, ht⟩ := h.shape
  rw [ht]
  exact ⟨rfl, rfl, rfl, rfl⟩
theorem State.outside_bootSearchEnd (s : State) (l : Nat) (ok : Bool) : s.outside (s.bootSearchEnd l ok) := by
  have hboot : ∀ (t : State) g, t.outside (t.updBoot g) := fun t g => State.outside_same ⟨rfl, rfl, rfl, rfl, rfl⟩
  have hi : laneStep l = 4 ∨ laneStep l = 5 := by
    unfold laneStep
    split <;> simp
  unfold State.bootSearchEnd State.backOk State.backOff
  dsimp only
  refine State.outside.trans (State.outside_ite _ ((hboot _ _).trans (hboot _ _)) (State.outside_ite _ ?_ ((hboot _ _).trans (hboot _ _))))
    (State.stepShows_lanesJudge _ hi).outside
  exact ((hboot _ _).trans (hboot _ _)).trans (State.outside_err _ (by decide) _ _ _ _ _)
/-- The lane's lock and its transmitter as a soft reset of the lane leaves them. -/
def State.laneCleared (s : State) (l : Nat) (release : Bool) (st : Nat) : State :=
  (((s.scanLost l).updLane l fun x => { x with st := st, slip := (if release then x.slip else 0), bootSearch := false, exitAt := 0, phase := 0, thr := 0 }).tlmLane l st).dropLock l
theorem State.outside_laneCleared (s : State) (l : Nat) (release : Bool) (st : Nat) : s.outside (s.laneCleared l release st) := by
  have hupd := fun (t : State) g => t.outside_updLane l g
  unfold State.laneCleared State.dropLock
  exact (((s.outside_scanLost l).trans (hupd _ _)).trans (State.outside_tlmLane _ l st)).trans (hupd _ _)
theorem State.laneReset_eq (s : State) (l : Nat) (release : Bool) : s.laneReset l release =
    if 128 ≤ l && l < 132 then s
    else if (s.laneAt l).bootSearch then (s.laneCleared l release (if s.bootEn .lane l = 1 then 1 else 0)).bootSearchEnd l false
      else s.laneCleared l release (if s.bootEn .lane l = 1 then 1 else 0) := rfl
theorem State.outside_laneReset (s : State) (l : Nat) (release : Bool) : s.outside (s.laneReset l release) := by
  rw [s.laneReset_eq]
  have hsu := s.outside_laneCleared l release (if s.bootEn .lane l = 1 then 1 else 0)
  exact State.outside_ite _ s.outside_refl (State.outside_ite _ (hsu.trans (State.outside_bootSearchEnd _ l false)) hsu)

/-! ### The soft reset of a page (R37) -/

theorem State.outside_jobsCleared (s : State) : s.outside ((s.each (List.range 8) fun t k => if (t.jobAt k).running then t.jobStop k else t).each
    (List.range 8) fun t k => t.updJob k fun e => { e with runs := [], carry := [], curLate := false, idleLast := false }) :=
  (State.outside_each (fun t k => if (t.jobAt k).running then t.jobStop k else t)
    (fun t k => State.outside_ite _ (t.outside_jobStop k) t.outside_refl) (List.range 8) s).trans
  (State.outside_each (fun t k => t.updJob k fun e => { e with runs := [], carry := [], curLate := false, idleLast := false })
    (fun _ _ => State.outside_same ⟨rfl, rfl, rfl, rfl, rfl⟩) (List.range 8) _)
theorem State.outside_dmaStop (s : State) (i : Nat) : s.outside (s.dmaStop i) := by
  have hd : ∀ (t : State) g, t.outside (t.updDma i g) := fun t g => State.outside_same ⟨rfl, rfl, rfl, rfl, rfl⟩
  unfold State.dmaStop
  exact (s.outside_set (pTHERM_low (by unfold pDMA; omega)) _ _).trans (hd _ _)
theorem State.outside_heldWrites (s : State) (i : Nat) : s.outside (s.heldWrites i) := by
  have hd : ∀ g, s.outside (s.updPipe i g) := fun g => State.outside_same ⟨rfl, rfl, rfl, rfl, rfl⟩
  unfold State.heldWrites
  exact (hd _).trans (State.outside_foldl _ (fun t w => t.outside_lsWrite _ _) _ _)
theorem State.outside_camcCleared (s : State) :
    s.outside (s.each (List.range 2) fun t c => t.updCam c fun x => { x with caps := [], trig0Pend := [] }) :=
  State.outside_each (fun t c => t.updCam c fun x => { x with caps := [], trig0Pend := [] })
    (fun _ _ => State.outside_same ⟨rfl, rfl, rfl, rfl, rfl⟩) (List.range 2) s
theorem State.outside_pairOff (s : State) : s.outside s.pairOff := by
  have hpair : ∀ (t : State) g, t.outside (t.updPair g) := fun t g => State.outside_same ⟨rfl, rfl, rfl, rfl, rfl⟩
  unfold State.pairOff
  exact (s.outside_setPairState 0).trans (hpair _ _)
theorem State.outside_lineCleared (s : State) (i : Nat) : s.outside ((s.lineDisable i).updLine i fun l => { early := l.early }) := by
  have hline : ∀ (t : State) g, t.outside (t.updLine i g) := fun t g => State.outside_same ⟨rfl, rfl, rfl, rfl, rfl⟩
  exact (s.outside_lineDisable i).trans (hline _ _)
theorem State.outside_pipeCleared (s : State) (i : Nat) : s.outside ((s.heldWrites i).updPipe i fun _ => {}) := by
  have hpipe : ∀ (t : State) g, t.outside (t.updPipe i g) := fun t g => State.outside_same ⟨rfl, rfl, rfl, rfl, rfl⟩
  exact (s.outside_heldWrites i).trans (hpipe _ _)
theorem State.outside_headCleared (s : State) (i : Nat) : s.outside (s.updHead i fun x =>
    { applied := x.applied, lostCode := x.lostCode, ready := x.ready, cur := x.cur, afterFire := x.afterFire, tlmSince := s.tick, tlmStop := x.tlmStop }) :=
  s.outside_updHead i _ fun x hx => by
    obtain ⟨_, hr, hc⟩ := hx
    exact ⟨rfl, hr, hc⟩
/-- The soft resets of a block that touch nothing but records of their own. -/
def State.softPlain (s : State) (b : Blk) (i : Nat) : State :=
  match b with
  | .pinmux => { s with pulses := [] }
  | .time => s.timeReset
  | .pos => s.updPos i fun x => { a := x.a, b := x.b, z := x.z, lastStart := x.lastStart }
  | .breath => { s with breath := { warnUntil := s.breath.warnUntil } }
  | .feed => s.feedReset i
  | .enc => s.updEnc i fun e => { taken := e.taken }
  | .dec => s.updDec i fun d => { d with ctxValid := 0, panic := false }
  | .chant => { s with chant := {} }
  | _ => s
theorem State.outside_softPlain (s : State) (b : Blk) (i : Nat) : s.outside (s.softPlain b i) := by
  refine State.outside_same ?_
  cases b <;> exact ⟨rfl, rfl, rfl, rfl, rfl⟩
theorem State.outside_softBlock (s : State) (b : Blk) (i : Nat) (release : Bool) : s.outside (s.softBlock b i release) := by
  have hcal : ∀ (t : State) c, t.outside { t with calst := c } := fun t c => State.outside_same ⟨rfl, rfl, rfl, rfl, rfl⟩
  have hplain := s.outside_softPlain b i
  cases b with
  | pair => exact s.outside_pairOff
  | line => exact s.outside_lineCleared i
  | dmac => exact s.outside_jobsCleared
  | dma => exact s.outside_dmaStop i
  | pipe => exact s.outside_pipeCleared i
  | cam => exact s.outside_camDisable i
  | camc => exact s.outside_camcCleared
  | cal => exact State.outside.trans s.outside_calReset (hcal _ {})
  | head => exact s.outside_headCleared i
  | lane => exact s.outside_laneReset i release
  | _ => exact hplain
theorem State.outside_softRegs (s : State) {p : Nat} (hp : pTHERM ≠ p) (b : Blk) (i : Nat) : s.outside (s.softRegs p b i) := by
  have hdrop : ∀ (x : RegMap) (y : RegMap) (z : RegMap) (c : NMap CommitSt) keep, s.outside { s with
      regs := s.regs.dropPage p keep, latch := x, pendv := y, appl := z, commits := c } := fun x y z c keep =>
    State.outside_of (fun f => s.get_dropPage_kept p keep (Or.inl hp)) ⟨rfl, rfl, rfl, rfl⟩
  unfold State.softRegs
  dsimp only
  refine State.outside_ite _ ((hdrop _ s.pendv s.appl s.commits _).trans (State.outside_set _ hp _ _)) (State.outside_ite _
    ((hdrop _ _ _ _ _).trans (State.outside_set _ hp _ _)) (State.outside_ite _ ((hdrop _ _ _ _ _).trans (State.outside_set _ (by decide) _ _)) (hdrop _ _ _ _ _)))
theorem State.outside_softAfter {s : State} (h : s.shut = true) (b : Blk) (i : Nat) : s.outside (s.softAfter b i) := by
  cases b with
  | prof => exact s.outside_profReset
  | feedc => exact s.outside_feedSettle
  | feed => exact s.outside_feedSettle
  | lane => exact State.outside_ite _ s.outside_feedSettle s.outside_refl
  | head => exact s.outside_laneIdle i
  | dmac => exact State.outside_decsGo h _
  | dramc => exact State.outside_each State.panicUpdate State.outside_panicUpdate (List.range 8) s
  | _ => exact s.outside_refl
theorem State.outside_softClear {s : State} (h : s.shut = true) {p : Nat} (hp : pTHERM ≠ p) (release : Bool) : s.outside (s.softClear p release) := by
  unfold State.softClear
  split
  · exact s.outside_refl
  next b i hb =>
    obtain ⟨u, hu⟩ : ∃ u, (s.softBlock b i release).softRegs p b i = u := ⟨_, rfl⟩
    have hsu : s.outside u := hu ▸ (s.outside_softBlock b i release).trans (State.outside_softRegs _ hp b i)
    rw [hu]
    exact hsu.trans (State.outside_softAfter (hsu.shut.trans h) b i)
end Sys2Proof.Machine
end

section
/-! ### The device's thermal shutdown (O58) -/
open Sys2Proof Sys2Proof.Machine
namespace Sys2Proof.Machine

theorem State.outside_laneDark (s : State) (l : Nat) : s.outside (s.laneDark l) := by
  have hlane := fun (t : State) g => t.outside_updLane l g
  have hwhen : ∀ (t : State) c, t.outside (t.when c fun t => t.updHead l fun x => { x with tlmStop := true }) := fun t c =>
    State.outside_ite _ (t.outside_updHead l _ fun _ hx => hx) t.outside_refl
  obtain ⟨u, hu⟩ : ∃ u, ((s.updLane l fun x => { x with txIdle := true }).when (decide (l < 128)) fun t => t.updHead l fun x => { x with tlmStop := true }) = u := ⟨_, rfl⟩
  have hsu : s.outside u := hu ▸ (hlane s _).trans (hwhen _ _)
  unfold State.laneDark State.dropLock
  dsimp only
  rw [hu]
  exact State.outside_ite _ (((hsu.trans (u.outside_setLane l 1)).trans (hlane _ _)).trans (hlane _ _)) hsu
/-- A head channel without its frames. -/
def HeadSt.cut (x : HeadSt) : HeadSt := { x with queue := [], ready := [], cur := none }
theorem State.framesCut_eq (s : State) : s.framesCut = s.each (List.range 128) fun t h => t.updHead h HeadSt.cut := rfl
theorem State.headAt_cut (l : List Nat) (s : State) (h : Nat) :
    (s.each l fun t n => t.updHead n HeadSt.cut).headAt h = if h ∈ l then (s.headAt h).cut else s.headAt h := by
  induction l generalizing s with
  | nil => simp [State.each]
  | cons n r ih =>
    have hstep : (s.each (n :: r) fun t n => t.updHead n HeadSt.cut) = (s.updHead n HeadSt.cut).each r fun t n => t.updHead n HeadSt.cut := rfl
    have htwice : ∀ x : HeadSt, x.cut.cut = x.cut := fun _ => rfl
    rw [hstep, ih]
    by_cases hn : h = n
    · subst hn
      simp [State.headAt_upd_self, htwice]
    · simp [State.headAt_upd_other s _ hn, hn]
theorem State.headAt_framesCut (s : State) {h : Nat} (hh : h < 128) : s.framesCut.headAt h = (s.headAt h).cut := by
  rw [s.framesCut_eq, State.headAt_cut, if_pos (List.mem_range.mpr hh)]
theorem State.outside_framesCut (s : State) : s.outside s.framesCut :=
  State.outside_each (fun t h => t.updHead h HeadSt.cut) (fun t h => t.outside_updHead h _ fun _ _ => ⟨rfl, rfl, rfl⟩) (List.range 128) s
theorem State.shutLinks_outside (s : State) : s.outside s.shutLinks ∧ ∀ h < 128, (s.shutLinks.headAt h).bare := by
  unfold State.shutLinks
  generalize ownLanes = l
  refine ⟨(State.outside_each State.laneDark State.outside_laneDark l s).trans (State.outside_framesCut _), fun h hh => ?_⟩
  rw [State.headAt_framesCut _ hh]
  exact ⟨rfl, rfl, rfl⟩
theorem shutPages_notTHERM : pTHERM ∉ shutPages := by decide +kernel
theorem State.shutHold_outside {s : State} (h : s.shut = true) (l : List Nat) (hl : pTHERM ∉ l) : s.outside (s.shutHold l) :=
  List.foldlRecOn (motive := fun t : State => s.outside t) l _ s.outside_refl fun _ ht _ hp =>
    ht.trans (State.outside_softClear (ht.shut.trans h) (fun he => hl (he ▸ hp)) false)
/-- What the shutdown forgets: training, the profiles' images and the registers of PROF. -/
theorem State.shutForget_spec (s : State) {t : State} (ht : s.shutForget = t) : s.outside t ∧ t.dramReady = false ∧ t.prof = {} := by
  have hdram : ∀ (t : State) c g, t.outside (t.updDram c g) := fun t c g => State.outside_same ⟨rfl, rfl, rfl, rfl, rfl⟩
  obtain ⟨v, hv⟩ : ∃ v, (s.each (List.range 3) fun t c => t.updDram c fun _ => {}) = v := ⟨_, rfl⟩
  obtain ⟨u, hu⟩ : ∃ u, (s.each (List.range 4) fun t c => t.updDram c fun _ => {}) = u := ⟨_, rfl⟩
  have hsu : s.outside u := hu ▸ State.outside_each (fun t c => t.updDram c fun _ => {}) (fun t c => hdram t c _) (List.range 4) s
  have hlast : u = v.updDram 3 fun _ => {} := by
    rw [← hu, ← hv]
    rfl
  unfold State.shutForget at ht
  dsimp only at ht
  rw [hu] at ht
  subst ht
  refine ⟨hsu.trans (State.outside_of (fun f => u.get_dropPage_kept pPROF _ (Or.inl (by decide))) ⟨rfl, rfl, rfl, rfl⟩), ?_, rfl⟩
  have hoff : (u.dramAt 3).trained = false := by
    rw [hlast]
    unfold State.dramAt State.updDram
    dsimp only
    rw [NMap.getD_put_self]
  exact List.all_eq_false.mpr ⟨3, by decide, by simpa [State.dramAt] using hoff⟩
/-- A device that shuts down keeps THERM but for SHUT, and has no link, no frame and no soft reset. -/
theorem State.shutDown_spec (s : State) {t : State} (ht : s.shutDown = t) :
    (∀ f, f.id ≠ R.THERM_STAT_SHUT.id → t.get pTHERM f = s.get pTHERM f) ∧ t.flash = s.flash ∧ t.shut = true ∧ t.pll = false ∧
    t.dramReady = false ∧ t.prof = {} ∧ t.srsts = [] ∧ ∀ h < 128, (t.headAt h).bare := by
  obtain ⟨u, hu⟩ : ∃ u, ({ s with pll := false, srsts := [] } : State).set pTHERM R.THERM_STAT_SHUT 1 = u := ⟨_, rfl⟩
  have hshut : u.shut = true := by
    unfold State.shut State.flag
    rw [← hu, State.get_set_self]
    rfl
  have hget : ∀ f, f.id ≠ R.THERM_STAT_SHUT.id → u.get pTHERM f = s.get pTHERM f := fun f hf => by
    rw [← hu]
    exact State.get_set_field _ _ _ hf
  obtain ⟨hflash, hpll, hsrst⟩ : u.flash = s.flash ∧ u.pll = false ∧ u.srsts = [] := by
    rw [← hu]
    exact ⟨rfl, rfl, rfl⟩
  obtain ⟨hlinks, hbare⟩ := u.shutLinks_outside
  have hhold := State.shutHold_outside (hlinks.shut.trans hshut) shutPages shutPages_notTHERM
  have hdef : (u.shutLinks.shutHold shutPages).shutForget = t := by
    rw [← ht, ← hu]
    rfl
  obtain ⟨hforget, hready, hprof⟩ := State.shutForget_spec _ hdef
  have hall := hhold.trans hforget
  have hfrom := hlinks.trans hall
  exact ⟨fun f hf => (hfrom.therm f).trans (hget f hf), hfrom.flash.trans hflash, hfrom.shut.trans hshut, hfrom.pll.trans hpll, hready, hprof,
    hfrom.srsts hsrst, fun h hh => hall.heads h (hbare h hh)⟩
end Sys2Proof.Machine
end

section
/-! ### A sample of the die's temperature (O58) -/
open Sys2Proof Sys2Proof.Machine
namespace Sys2Proof.Machine

theorem State.get_err_addr (s : State) {p : Nat} (h : s.frozen p = false) (code src lo : Nat) (h0 : s.get p R.PG_ERR_CNT = 0) :
    (s.err p code src lo).get p R.PG_ERR_ADDR_LO = lo % 2 ^ R.PG_ERR_ADDR_LO.w := by
  rw [State.err, if_neg (by simp [h]), State.get_cause_field _ _ _ (by decide)]
  unfold State.errCount
  rw [if_pos h0, State.get_incSat_field _ _ (by decide), State.get_set_field _ _ _ (by decide), State.get_set_field _ _ _ (by decide),
    State.get_set_field _ _ _ (by decide), State.get_set_field _ _ _ (by decide), State.get_set_self]
theorem State.bit_err_keeps (s : State) {p i : Nat} (hi : i < 32) (code src lo : Nat) (h : bit (s.get p R.PG_IRQ_RAW) i = true) :
    bit ((s.err p code src lo).get p R.PG_IRQ_RAW) i = true := by
  unfold State.err
  split
  · exact h
  · refine State.bit_cause_keeps _ hi ?_
    rwa [s.errCount_keeps p code src lo 0 (by decide)]
/-- Only the first error since the last clear is recorded. -/
theorem State.get_err_counted (s : State) {p : Nat} (code src lo : Nat) (h0 : s.get p R.PG_ERR_CNT ≠ 0) {f : Fld}
    (hf : f.id ≠ R.PG_ERR_CNT.id ∧ f.id ≠ R.PG_IRQ_RAW.id) : (s.err p code src lo).get p f = s.get p f := by
  unfold State.err
  split
  · rfl
  · rw [State.get_cause_field _ _ _ hf.2]
    unfold State.errCount
    rw [if_neg h0]
    exact State.get_incSat_field _ _ hf.1

/-- A threshold of the die: its state, the cause of a change and the error of a crossing. -/
def State.thermCross (s : State) (f : Fld) (i code addr : Nat) (was now : Bool) : State :=
  let t := if now = was then s else (s.setFlag pTHERM f now).cause pTHERM i
  if now && !was then t.err pTHERM code 0 addr else t
/-- What a crossing of one threshold leaves. -/
structure State.crossed (s t : State) (f : Fld) (i code addr : Nat) (was now : Bool) : Prop where
  flag : t.flag pTHERM f = now
  but : s.regsBut t ((pTHERM, f) :: errFields pTHERM)
  reports : s.reports t
  raw : ∀ j < 32, bit (s.get pTHERM R.PG_IRQ_RAW) j = true → bit (t.get pTHERM R.PG_IRQ_RAW) j = true
  changed : s.frozen pTHERM = false → now ≠ was → bit (t.get pTHERM R.PG_IRQ_RAW) i = true
  risen : s.frozen pTHERM = false → was = false → now = true → bit (t.get pTHERM R.PG_IRQ_RAW) 1 = true ∧
    (s.get pTHERM R.PG_ERR_CNT = 0 → t.get pTHERM R.PG_ERR_INFO_CODE = code % 2 ^ R.PG_ERR_INFO_CODE.w ∧
      t.get pTHERM R.PG_ERR_ADDR_LO = addr % 2 ^ R.PG_ERR_ADDR_LO.w ∧ t.get pTHERM R.PG_ERR_CNT = 1)
  stands : (was = true ∨ now = false) → ∀ g ∈ [R.PG_ERR_CNT, R.PG_ERR_INFO_CODE, R.PG_ERR_ADDR_LO], t.get pTHERM g = s.get pTHERM g
  later : s.get pTHERM R.PG_ERR_CNT ≠ 0 → ∀ g ∈ [R.PG_ERR_INFO_CODE, R.PG_ERR_ADDR_LO], t.get pTHERM g = s.get pTHERM g
theorem State.thermCross_spec (s : State) {f : Fld} (hf : f ∈ [R.THERM_STAT_WARN, R.THERM_STAT_TRIP]) {i : Nat} (hi : i < 32) (code addr : Nat)
    {was now : Bool} (hwas : s.flag pTHERM f = was) {t : State} (ht : s.thermCross f i code addr was now = t) :
    s.crossed t f i code addr was now := by
  have hapart : f.id ≠ R.PG_IRQ_RAW.id ∧ f.id ∉ [R.PG_ERR_CNT.id, R.PG_ERR_ADDR_LO.id, R.PG_ERR_ADDR_HI.id, R.PG_ERR_INFO_SRC.id, R.PG_ERR_INFO_DIR.id,
      R.PG_ERR_INFO_CODE.id, R.PG_IRQ_RAW.id] ∧ f.w = 1 ∧ f.id ≠ R.PG_FENCE_FENCED.id ∧
      ∀ g ∈ [R.PG_ERR_CNT, R.PG_ERR_INFO_CODE, R.PG_ERR_ADDR_LO], g.id ≠ f.id := by
    clear ht hwas
    revert f
    decide
  obtain ⟨hraw, herr, hw, hfenced, hfields⟩ := hapart
  have hclear : ∀ g ∈ [R.PG_ERR_CNT, R.PG_ERR_INFO_CODE, R.PG_ERR_ADDR_LO], g.id ≠ R.PG_IRQ_RAW.id := by decide
  obtain ⟨u, hu⟩ : ∃ u, (if now = was then s else (s.setFlag pTHERM f now).cause pTHERM i) = u := ⟨_, rfl⟩
  have huflag : u.flag pTHERM f = now := by
    rw [← hu]
    split
    · next h => rw [h, hwas]
    · unfold State.flag
      rw [State.get_cause_field _ _ _ hraw, State.setFlag, State.get_set_self, hw]
      cases now <;> rfl
  have hubut : s.regsBut u ((pTHERM, f) :: errFields pTHERM) := by
    rw [← hu]
    split
    · exact s.regsBut_refl _
    · exact State.regsBut_cause (State.regsBut_setFlag (s.regsBut_refl _) _ (by simp)) _ (by simp [errFields])
  have hurep : s.reports u := by
    rw [← hu]
    split
    · exact s.reports_refl
    · exact (s.reports_setFlag _ _ _).trans (State.reports_cause _ _ _)
  have hufrozen : u.frozen pTHERM = s.frozen pTHERM := State.frozen_congr (hubut.field (fun e he => by
    rcases List.mem_cons.mp he with rfl | he
    · exact hfenced.symm
    · exact (show ∀ e ∈ errFields pTHERM, R.PG_FENCE_FENCED.id ≠ e.2.id by decide) e he) _)
  have hufld : ∀ g ∈ [R.PG_ERR_CNT, R.PG_ERR_INFO_CODE, R.PG_ERR_ADDR_LO], u.get pTHERM g = s.get pTHERM g := fun g hg => by
    rw [← hu]
    split
    · rfl
    · rw [State.get_cause_field _ _ _ (hclear g hg), State.get_setFlag_field _ _ _ (hfields g hg)]
  have huraw : ∀ j < 32, bit (s.get pTHERM R.PG_IRQ_RAW) j = true → bit (u.get pTHERM R.PG_IRQ_RAW) j = true := fun j hj h => by
    rw [← hu]
    split
    · exact h
    · refine State.bit_cause_keeps _ hj ?_
      rwa [State.get_setFlag_field _ _ _ hraw.symm]
  have hucause : s.frozen pTHERM = false → now ≠ was → bit (u.get pTHERM R.PG_IRQ_RAW) i = true := fun h hn => by
    rw [← hu, if_neg hn]
    exact State.bit_cause _ hi ((State.frozen_congr (State.get_setFlag_field _ _ _ hfenced.symm)).trans h)
  unfold State.thermCross at ht
  dsimp only at ht
  rw [hu] at ht
  by_cases hrise : (now && !was) = true
  · rw [if_pos hrise] at ht
    subst ht
    obtain ⟨rfl, rfl⟩ : now = true ∧ was = false := by simpa using hrise
    refine ⟨?_, State.regsBut_err hubut _ _ _ _ _ _ (List.subset_cons_self _ _), hurep.trans (u.reports_err _ _ _ _ _ _),
      fun j hj h => u.bit_err_keeps hj _ _ _ (huraw j hj h), fun h hn => u.bit_err_keeps hi _ _ _ (hucause h hn), fun h _ _ => ?_, fun h => by simp at h, fun h0 g hg => ?_⟩
    · unfold State.flag
      rw [u.get_err_field _ _ _ _ _ _ herr]
      exact huflag
    · have hopen := hufrozen.trans h
      obtain ⟨hcnt, hrec⟩ := u.err_recorded hopen code 0 addr 0 0
      refine ⟨u.bit_err hopen _ _ _ _ _, fun h0 => ?_⟩
      have hu0 := (hufld R.PG_ERR_CNT (by simp)).trans h0
      refine ⟨(hrec hu0).1, u.get_err_addr hopen _ _ _ hu0, ?_⟩
      rw [hcnt, hu0]
      rfl
    · have hcnt := hufld R.PG_ERR_CNT (by simp)
      exact (u.get_err_counted _ _ _ (hcnt ▸ h0) (by revert g; decide)).trans (hufld g (List.mem_cons_of_mem _ hg))
  · rw [if_neg hrise] at ht
    subst ht
    refine ⟨huflag, hubut, hurep, huraw, hucause, fun _ h1 h2 => absurd (by simp [h1, h2]) hrise, fun _ => hufld, fun _ g hg => hufld g (List.mem_cons_of_mem _ hg)⟩

/-! ### The sample -/

/-- What a sample reads into TEMP and MAX. -/
def State.thermRead (s : State) (x : BitVec 16) : State :=
  if sgn 16 (s.get pTHERM R.THERM_MAX) < x.toInt then (s.set pTHERM R.THERM_TEMP x.toNat).set pTHERM R.THERM_MAX x.toNat
  else s.set pTHERM R.THERM_TEMP x.toNat
/-- The two thresholds as a sample finds them. -/
def State.warnNow (s : State) (x : BitVec 16) : Bool := thermState (s.flag pTHERM R.THERM_STAT_WARN) x.toInt
  (min (sgn 16 (s.get pTHERM R.THERM_LIM_WARN)) (sgn 16 (s.get pTHERM R.THERM_LIM_TRIP) - 1)) (s.get pTHERM R.THERM_CFG_HYST)
def State.tripNow (s : State) (x : BitVec 16) : Bool := (s.flag pTHERM R.THERM_STAT_TRIP && s.shut) || thermState (s.flag pTHERM R.THERM_STAT_TRIP)
  x.toInt (sgn 16 (s.get pTHERM R.THERM_LIM_TRIP)) (s.get pTHERM R.THERM_CFG_HYST)
/-- The sample as THERM shows it. -/
def State.thermShown (s : State) (x : BitVec 16) : State :=
  ((s.thermRead x).thermCross R.THERM_STAT_WARN 3 0x52 x.toNat (s.flag pTHERM R.THERM_STAT_WARN) (s.warnNow x)).thermCross R.THERM_STAT_TRIP 4 0x53
    x.toNat (s.flag pTHERM R.THERM_STAT_TRIP) (s.tripNow x)
theorem State.exec_thermSample (s : State) (x : BitVec 16) (h : (s.inReset || s.resetting pTHERM) = false) : exec (.thermSample x) s =
    .next (if 1000 ≤ x.toInt && !s.shut then (s.pairRise (s.thermShown x) 0x53 0).shutDown else s.pairRise (s.thermShown x) 0x53 0) := by
  change execThermSample x s = _
  unfold execThermSample
  dsimp only
  rw [if_neg (by simp [h])]
  rfl
/-- What a sample shows. -/
structure State.sampled (s t : State) (x : BitVec 16) : Prop where
  temp : t.get pTHERM R.THERM_TEMP = x.toNat
  max : t.get pTHERM R.THERM_MAX = if sgn 16 (s.get pTHERM R.THERM_MAX) < x.toInt then x.toNat else s.get pTHERM R.THERM_MAX
  warn : t.flag pTHERM R.THERM_STAT_WARN = s.warnNow x
  trip : t.flag pTHERM R.THERM_STAT_TRIP = s.tripNow x
  causes : s.fenced pTHERM = false →
    (t.flag pTHERM R.THERM_STAT_WARN ≠ s.flag pTHERM R.THERM_STAT_WARN → bit (t.get pTHERM R.PG_IRQ_RAW) 3 = true) ∧
    (t.flag pTHERM R.THERM_STAT_TRIP ≠ s.flag pTHERM R.THERM_STAT_TRIP → bit (t.get pTHERM R.PG_IRQ_RAW) 4 = true) ∧
    (s.flag pTHERM R.THERM_STAT_WARN = false → t.flag pTHERM R.THERM_STAT_WARN = true → bit (t.get pTHERM R.PG_IRQ_RAW) 1 = true ∧
      (s.get pTHERM R.PG_ERR_CNT = 0 → t.get pTHERM R.PG_ERR_INFO_CODE = 0x52 ∧ t.get pTHERM R.PG_ERR_ADDR_LO = x.toNat)) ∧
    (s.flag pTHERM R.THERM_STAT_TRIP = false → t.flag pTHERM R.THERM_STAT_TRIP = true → bit (t.get pTHERM R.PG_IRQ_RAW) 1 = true ∧
      (s.get pTHERM R.PG_ERR_CNT = 0 → s.flag pTHERM R.THERM_STAT_WARN = true →
        t.get pTHERM R.PG_ERR_INFO_CODE = 0x53 ∧ t.get pTHERM R.PG_ERR_ADDR_LO = x.toNat))
theorem State.thermRead_spec (s : State) (x : BitVec 16) {t : State} (ht : s.thermRead x = t) : t.get pTHERM R.THERM_TEMP = x.toNat ∧
    t.get pTHERM R.THERM_MAX = (if sgn 16 (s.get pTHERM R.THERM_MAX) < x.toInt then x.toNat else s.get pTHERM R.THERM_MAX) ∧
    s.reports t ∧ s.regsBut t [(pTHERM, R.THERM_TEMP), (pTHERM, R.THERM_MAX)] := by
  have hmod : x.toNat % 2 ^ R.THERM_TEMP.w = x.toNat := Nat.mod_eq_of_lt x.isLt
  have hmax : x.toNat % 2 ^ R.THERM_MAX.w = x.toNat := Nat.mod_eq_of_lt x.isLt
  have hset := State.regsBut_set (s.regsBut_refl [(pTHERM, R.THERM_TEMP), (pTHERM, R.THERM_MAX)]) x.toNat (p := pTHERM) (f := R.THERM_TEMP) (by simp)
  unfold State.thermRead at ht
  split at ht
  · next h =>
    subst ht
    rw [if_pos h]
    refine ⟨?_, (State.get_set_self _ _ _ _).trans hmax, (s.reports_set _ _ _).trans (State.reports_set _ _ _ _), State.regsBut_set hset _ (by simp)⟩
    rw [State.get_set_field _ _ _ (by decide), State.get_set_self, hmod]
  · next h =>
    subst ht
    rw [if_neg h]
    exact ⟨(State.get_set_self _ _ _ _).trans hmod, State.get_set_field _ _ _ (by decide), s.reports_set _ _ _, hset⟩
/-- The registers that a sample writes. -/
def thermWritten : List (Nat × Fld) := [(pTHERM, R.THERM_TEMP), (pTHERM, R.THERM_MAX), (pTHERM, R.THERM_STAT_WARN),
  (pTHERM, R.THERM_STAT_TRIP)] ++ errFields pTHERM
theorem State.thermShown_spec (s : State) (x : BitVec 16) {t : State} (ht : s.thermShown x = t) : s.sampled t x ∧ s.reports t ∧ s.regsBut t thermWritten := by
  obtain ⟨u, hu⟩ : ∃ u, s.thermRead x = u := ⟨_, rfl⟩
  obtain ⟨htemp, hmax, hrep, hbut⟩ := s.thermRead_spec x hu
  have hread : ∀ f ∈ [R.THERM_STAT_WARN, R.THERM_STAT_TRIP, R.PG_FENCE_FENCED, R.PG_ERR_CNT], u.get pTHERM f = s.get pTHERM f := fun f hf =>
    hbut.field (by revert f; decide) _
  have hflag : ∀ f ∈ [R.THERM_STAT_WARN, R.THERM_STAT_TRIP], u.flag pTHERM f = s.flag pTHERM f := fun f hf => by
    unfold State.flag
    rw [hread f (List.mem_append_left [R.PG_FENCE_FENCED, R.PG_ERR_CNT] hf)]
  obtain ⟨v, hv⟩ : ∃ v, u.thermCross R.THERM_STAT_WARN 3 0x52 x.toNat (s.flag pTHERM R.THERM_STAT_WARN) (s.warnNow x) = v := ⟨_, rfl⟩
  have hwarn := u.thermCross_spec (by simp) (by decide) 0x52 x.toNat (hflag _ (by simp)) hv
  have hvtrip : v.flag pTHERM R.THERM_STAT_TRIP = s.flag pTHERM R.THERM_STAT_TRIP := by
    rw [← hflag _ (by simp)]
    unfold State.flag
    rw [hwarn.but.field (by decide)]
  have hdef : v.thermCross R.THERM_STAT_TRIP 4 0x53 x.toNat (s.flag pTHERM R.THERM_STAT_TRIP) (s.tripNow x) = t := by
    rw [← ht, ← hv, ← hu]
    rfl
  have htrip := v.thermCross_spec (by simp) (by decide) 0x53 x.toNat hvtrip hdef
  have hlate : ∀ {f : Fld}, (∀ e ∈ (pTHERM, R.THERM_STAT_WARN) :: errFields pTHERM, f.id ≠ e.2.id) →
      (∀ e ∈ (pTHERM, R.THERM_STAT_TRIP) :: errFields pTHERM, f.id ≠ e.2.id) → t.get pTHERM f = u.get pTHERM f := fun h1 h2 =>
    (htrip.but.field h2 _).trans (hwarn.but.field h1 _)
  have htwarn : t.flag pTHERM R.THERM_STAT_WARN = s.warnNow x := by
    rw [← hwarn.flag]
    unfold State.flag
    rw [htrip.but.field (by decide)]
  refine ⟨⟨(hlate (by decide) (by decide)).trans htemp, (hlate (by decide) (by decide)).trans hmax, htwarn, htrip.flag, fun hfen => ?_⟩,
    (hrep.trans hwarn.reports).trans htrip.reports, State.regsBut_trans (State.regsBut_trans (State.regsBut_mono hbut ?_)
      (State.regsBut_mono hwarn.but ?_)) (State.regsBut_mono htrip.but ?_)⟩
  · have hufrozen : u.frozen pTHERM = false := (State.frozen_congr (hread _ (by simp))).trans (State.frozen_of_unfenced hfen)
    have hvfrozen : v.frozen pTHERM = false := (State.frozen_congr (hwarn.but.field (by decide) _)).trans hufrozen
    have hcode : x.toNat % 2 ^ R.PG_ERR_ADDR_LO.w = x.toNat := Nat.mod_eq_of_lt (lt_of_lt_of_le x.isLt (by decide))
    rw [htwarn, htrip.flag]
    refine ⟨fun h => htrip.raw 3 (by decide) (hwarn.changed hufrozen h), fun h => htrip.changed hvfrozen h, fun hw hn => ?_, fun hw hn => ?_⟩
    · obtain ⟨h1, h2⟩ := hwarn.risen hufrozen hw hn
      refine ⟨htrip.raw 1 (by decide) h1, fun h0 => ?_⟩
      obtain ⟨hinfo, haddr, hone⟩ := h2 ((hread _ (by simp)).trans h0)
      have hv0 : v.get pTHERM R.PG_ERR_CNT ≠ 0 := by
        rw [hone]
        decide
      exact ⟨(htrip.later hv0 _ (by simp)).trans hinfo, ((htrip.later hv0 _ (by simp)).trans haddr).trans hcode⟩
    · obtain ⟨h1, h2⟩ := htrip.risen hvfrozen hw hn
      refine ⟨h1, fun h0 hwas => ?_⟩
      have hv0 : v.get pTHERM R.PG_ERR_CNT = 0 := by
        rw [hwarn.stands (Or.inl hwas) _ (by simp), hread _ (by simp), h0]
      obtain ⟨hinfo, haddr, -⟩ := h2 hv0
      exact ⟨hinfo, haddr.trans hcode⟩
  · simp [thermWritten]
  · intro e he
    revert e
    decide
  · intro e he
    revert e
    decide
/-- A step that keeps THERM but for SHUT keeps what a sample shows. -/
theorem State.sampled.keeps {s t u : State} {x : BitVec 16} (h : s.sampled t x) (hk : ∀ f, f.id ≠ R.THERM_STAT_SHUT.id → u.get pTHERM f = t.get pTHERM f) :
    s.sampled u x := by
  have hflag : ∀ f, f.id ≠ R.THERM_STAT_SHUT.id → u.flag pTHERM f = t.flag pTHERM f := fun f hf => by
    unfold State.flag
    rw [hk f hf]
  refine ⟨(hk _ (by decide)).trans h.temp, (hk _ (by decide)).trans h.max, (hflag _ (by decide)).trans h.warn, (hflag _ (by decide)).trans h.trip,
    fun hf => ?_⟩
  rw [hflag R.THERM_STAT_WARN (by decide), hflag R.THERM_STAT_TRIP (by decide), hk R.PG_IRQ_RAW (by decide), hk R.PG_ERR_INFO_CODE (by decide),
    hk R.PG_ERR_ADDR_LO (by decide)]
  exact h.causes hf
/-- A sample without a shutdown writes THERM, and PAIR where it is a cause of the pair. -/
theorem State.thermSample_stays (s : State) (x : BitVec 16) {t : State} (ht : s.pairRise (s.thermShown x) 0x53 0 = t) : s.sampled t x ∧
    ({ t with regs := s.regs, host := s.host, pair := s.pair, outs := s.outs } : State) = s ∧ 
    (∀ q g, q ≠ pPAIR → (∀ e ∈ thermWritten, q ≠ e.1 ∨ g.id ≠ e.2.id) → t.get q g = s.get q g) ∧
    (s.straps.pairEn = false → (∀ g, t.get pPAIR g = s.get pPAIR g) ∧ t.pair = s.pair ∧ t.outs = s.outs) := by
  obtain ⟨u, hu⟩ : ∃ u, s.thermShown x = u := ⟨_, rfl⟩
  obtain ⟨hsam, hrep, hbut⟩ := s.thermShown_spec x hu
  rw [hu] at ht
  obtain ⟨hget, r, p, w, o, hshape⟩ := s.pairRise_frame u 0x53 0
  rw [ht] at hget hshape
  obtain ⟨r', w', hreps⟩ := hrep
  refine ⟨hsam.keeps fun f _ => hget _ f (by decide), ?_, fun q g hq hn => (hget q g hq).trans (hbut q g hn), fun hp => ?_⟩
  · rw [hshape, hreps]
  · have hsame : t = u := by
      rw [← ht]
      unfold State.pairRise
      rw [if_pos]
      rw [hreps, hp]
      rfl
    subst hsame
    refine ⟨fun g => hbut pPAIR g fun e he => Or.inl ?_, ?_, ?_⟩
    · revert e
      decide
    · rw [hreps]
    · rw [hreps]
/-- The clause of O58 on a sample of the die's temperature. -/
theorem State.thermSample_spec (s : State) (x : BitVec 16) (hr : s.inReset = false) (hb : s.resetting pTHERM = false) :
    ∃ t, exec (.thermSample x) s = .next t ∧ s.sampled t x ∧ t.flash = s.flash ∧
      (s.shut = false → 1000 ≤ x.toInt → t.shut = true ∧ t.pll = false ∧ t.dramReady = false ∧ t.prof = {} ∧ t.srsts = [] ∧
        ∀ h < 128, (t.headAt h).queue = [] ∧ (t.headAt h).ready = [] ∧ (t.headAt h).cur = none) ∧
      (x.toInt < 1000 ∨ s.shut = true → ({ t with regs := s.regs, host := s.host, pair := s.pair, outs := s.outs } : State) = s ∧
        (∀ q g, q ≠ pPAIR → (∀ e ∈ thermWritten, q ≠ e.1 ∨ g.id ≠ e.2.id) → t.get q g = s.get q g) ∧
        (s.straps.pairEn = false → (∀ g, t.get pPAIR g = s.get pPAIR g) ∧ t.pair = s.pair ∧ t.outs = s.outs)) := by
  rw [s.exec_thermSample x (by rw [hr, hb]; rfl)]
  obtain ⟨u, hu⟩ : ∃ u, s.pairRise (s.thermShown x) 0x53 0 = u := ⟨_, rfl⟩
  obtain ⟨hsam, hsame, hrest⟩ := s.thermSample_stays x hu
  have hflash := congrArg State.flash hsame
  change u.flash = s.flash at hflash
  rw [hu]
  by_cases hc : 1000 ≤ x.toInt ∧ s.shut = false
  · rw [if_pos (by simp [hc])]
    obtain ⟨hkeep, hf, hshut, hpll, hready, hprof, hsrst, hbare⟩ := u.shutDown_spec rfl
    exact ⟨_, rfl, hsam.keeps hkeep, hf.trans hflash, fun _ _ => ⟨hshut, hpll, hready, hprof, hsrst, hbare⟩,
      fun h => by rcases h with h | h <;> simp_all; omega⟩
  · rw [if_neg (by simpa using hc)]
    exact ⟨u, rfl, hsam, hflash, fun h1 h2 => absurd ⟨h2, h1⟩ hc, fun _ => ⟨hsame, hrest⟩⟩
end Sys2Proof.Machine
end

section
/-! ### The loss of the main PLL (O58) -/
open Sys2Proof Sys2Proof.Machine
namespace Sys2Proof.Machine

/-- A head channel of a lane that went dark with its frames cut. -/
def HeadSt.dark (x : HeadSt) : Prop := x.bare ∧ x.tlmStop = true
/-- A step beside BOOT, the lanes and the PLL, that gives no dark head anything to send. -/
structure State.lineHalts (s t : State) : Prop where
  boot : ∀ f, t.get pBOOT f = s.get pBOOT f
  pair : t.pair.pllLost = s.pair.pllLost
  heads : ∀ h, (s.headAt h).dark → (t.headAt h).dark
  apart : t.boot = s.boot ∧ t.lane = s.lane ∧ t.pll = s.pll ∧ t.heldClock = s.heldClock ∧ t.hold = s.hold
theorem State.lineHalts_refl (s : State) : s.lineHalts s := ⟨fun _ => rfl, rfl, fun _ h => h, rfl, rfl, rfl, rfl, rfl⟩
theorem State.lineHalts.trans {s t u : State} (h : s.lineHalts t) (k : t.lineHalts u) : s.lineHalts u := by
  obtain ⟨h1, h2, h3, h4, h5⟩ := h.apart
  obtain ⟨k1, k2, k3, k4, k5⟩ := k.apart
  exact ⟨fun f => (k.boot f).trans (h.boot f), k.pair.trans h.pair, fun n hn => k.heads n (h.heads n hn), k1.trans h1, k2.trans h2, k3.trans h3,
    k4.trans h4, k5.trans h5⟩
theorem State.lineHalts_each (g : State → Nat → State) (hg : ∀ (t : State) x, t.lineHalts (g t x)) (l : List Nat) (s : State) : s.lineHalts (s.each l g) :=
  List.foldlRecOn (motive := fun t : State => s.lineHalts t) l g s.lineHalts_refl fun t ht x _ => ht.trans (hg t x)
theorem State.lineHalts_ite {s t u : State} (c : Prop) [Decidable c] (h : s.lineHalts t) (k : s.lineHalts u) : s.lineHalts (if c then t else u) := by
  split <;> assumption
/-- What leaves the heads as they are. -/
theorem State.lineHalts_of {s t : State} (hget : ∀ f, t.get pBOOT f = s.get pBOOT f) (h : t.pair.pllLost = s.pair.pllLost ∧ t.head = s.head ∧ t.boot = s.boot ∧
    t.lane = s.lane ∧ t.pll = s.pll ∧ t.heldClock = s.heldClock ∧ t.hold = s.hold) : s.lineHalts t := by
  obtain ⟨hp, hh, hrest⟩ := h
  refine ⟨hget, hp, fun n hn => ?_, hrest⟩
  unfold State.headAt at hn ⊢
  rwa [hh]
theorem State.lineHalts_reports {s t : State} (hget : ∀ f, t.get pBOOT f = s.get pBOOT f) (h : s.reports t) : s.lineHalts t := by
  obtain ⟨r, w, ht⟩ := h
  exact State.lineHalts_of hget (by rw [ht]; exact ⟨rfl, rfl, rfl, rfl, rfl, rfl, rfl⟩)
section
variable (s : State) {p : Nat} (hp : pBOOT ≠ p)
include hp
theorem State.lineHalts_set (f : Fld) (v : Nat) : s.lineHalts (s.set p f v) :=
  State.lineHalts_reports (fun _ => s.get_set_ne v (Or.inl hp)) (s.reports_set p f v)
theorem State.lineHalts_cause (i : Nat) : s.lineHalts (s.cause p i) := State.lineHalts_reports (fun _ => s.get_cause_ne i (Or.inl hp)) (s.reports_cause p i)
theorem State.lineHalts_err (code src lo hi dir : Nat) : s.lineHalts (s.err p code src lo hi dir) :=
  State.lineHalts_reports (fun _ => s.get_err_ne _ _ _ _ _ _ (Or.inl hp)) (s.reports_err _ _ _ _ _ _)
theorem State.lineHalts_fenceMark (reason : Nat) : s.lineHalts (s.fenceMark p reason) := by
  have hflags : s.lineHalts (s.fenceFlags p reason) :=
    (((s.lineHalts_cause hp 0).trans (State.lineHalts_set _ hp _ _)).trans (State.lineHalts_set _ hp _ _)).trans (State.lineHalts_set _ hp _ _)
  exact hflags.trans (State.lineHalts_of (fun _ => rfl) ⟨rfl, rfl, rfl, rfl, rfl, rfl, rfl⟩)
end
theorem State.lineHalts_updPair (s : State) (g : PairSt → PairSt) (hg : ∀ p, (g p).pllLost = p.pllLost) : s.lineHalts (s.updPair g) :=
  State.lineHalts_of (fun _ => rfl) ⟨hg _, rfl, rfl, rfl, rfl, rfl, rfl⟩
theorem State.lineHalts_updHead (s : State) (h : Nat) (g : HeadSt → HeadSt) (hg : ∀ x, x.dark → (g x).dark) : s.lineHalts (s.updHead h g) := by
  refine ⟨fun _ => rfl, rfl, fun n hn => ?_, rfl, rfl, rfl, rfl, rfl⟩
  by_cases hnh : n = h
  · subst hnh
    rw [State.headAt_upd_self]
    exact hg _ hn
  · rwa [State.headAt_upd_other _ _ hnh]
theorem State.lineHalts_setPairState (s : State) (v : Nat) : s.lineHalts (s.setPairState v) := by
  unfold State.setPairState
  dsimp only
  refine State.lineHalts_ite _ s.lineHalts_refl (State.lineHalts.trans (State.lineHalts.trans
    (s.lineHalts_set (p := pPAIR) (by decide) R.PAIR_STAT_STATE v) (State.lineHalts_updPair _ _ ?_)) (State.lineHalts_cause _ (p := pPAIR) (by decide) 3))
  exact fun _ => rfl
theorem State.lineHalts_crookSend (s : State) (typ : Nat) (l : List Byte) : s.lineHalts (s.crookSend typ l) := by
  have hemit : ∀ (t : State) o, t.lineHalts (t.emit o) := fun t o => State.lineHalts_of (fun _ => rfl) ⟨rfl, rfl, rfl, rfl, rfl, rfl, rfl⟩
  have hpair := s.lineHalts_updPair (fun p => { p with mseq := s.nextMseq }) fun _ => rfl
  unfold State.crookSend
  exact State.lineHalts_ite _ s.lineHalts_refl (State.lineHalts_ite _ hpair (hpair.trans (hemit _ _)))
theorem State.lineHalts_giveRecord (s : State) (c code b : Nat) (u : Bool) : s.lineHalts (s.giveRecord c code b u) := by
  unfold State.giveRecord
  exact (((s.lineHalts_err (by decide) _ _ _ _ _).trans (State.lineHalts_set _ (by decide) _ _)).trans (State.lineHalts_set _ (by decide) _ _)).trans
    (State.lineHalts_set _ (by decide) _ _)
theorem State.lineHalts_pairCause (s : State) (c code b : Nat) : s.lineHalts (s.pairCause c code b) := by
  have hruns : s.lineHalts (s.updPair fun p => { p with runs := [] }) := s.lineHalts_updPair _ fun _ => rfl
  unfold State.pairCause
  refine State.lineHalts_ite _ s.lineHalts_refl (State.lineHalts_ite _ (State.lineHalts_ite _ s.lineHalts_refl (State.lineHalts_ite _ ?_ (s.lineHalts_giveRecord _ _ _ _)))
    (State.lineHalts_ite _ (hruns.trans (State.lineHalts_setPairState _ _)) s.lineHalts_refl))
  have hgiving : ∀ (t : State) m, t.lineHalts (t.updPair fun p => { p with giving := m }) := fun t m => t.lineHalts_updPair _ fun _ => rfl
  have hgive : ∀ l, s.lineHalts ((((s.giveRecord c code b !s.covered).incSat pPAIR R.PAIR_GIVE_CNT).cause pPAIR 4).crookSend 0x06 l) := fun l =>
    (((s.lineHalts_giveRecord _ _ _ _).trans (State.lineHalts_set _ (by decide) _ _)).trans (State.lineHalts_cause _ (by decide) _)).trans (State.lineHalts_crookSend _ _ _)
  exact State.lineHalts_ite _ ((hgive _).trans (State.lineHalts_setPairState _ _)) ((hgive _).trans (hgiving _ _))
theorem State.lineHalts_pairRise (s t : State) (code b : Nat) : t.lineHalts (s.pairRise t code b) := by
  unfold State.pairRise
  refine State.lineHalts_ite _ t.lineHalts_refl ?_
  split
  · exact t.lineHalts_pairCause _ _ _
  · exact t.lineHalts_refl
theorem pBOOT_low {p : Nat} (h : 0x10 ≤ p) : pBOOT ≠ p := by
  unfold pBOOT
  omega
theorem State.lineHalts_flightOver (s : State) (p : Nat) : s.lineHalts (s.flightOver p) := by
  have hhead : ∀ h, s.lineHalts (s.headDue h) := fun h => by
    have hp : pBOOT ≠ pHEAD h := pBOOT_low (by unfold pHEAD; omega)
    unfold State.headDue State.headStops
    split
    · exact State.lineHalts_ite _ s.lineHalts_refl (((s.lineHalts_fenceMark hp _).trans (State.lineHalts_set _ hp _ _)).trans
        (State.lineHalts_updHead _ _ _ fun _ hx => hx))
    · exact s.lineHalts_refl
  have hpipe : ∀ b, s.lineHalts (s.pipeDue b) := fun b => by
    have hupd : ∀ g, s.lineHalts (s.updPipe b g) := fun g => State.lineHalts_of (fun _ => rfl) ⟨rfl, rfl, rfl, rfl, rfl, rfl, rfl⟩
    unfold State.pipeDue
    split
    · exact State.lineHalts_ite _ (hupd _) (((hupd _).trans (State.lineHalts_fenceMark _ (pBOOT_low (by unfold pPIPE; omega)) _)).trans
        (s.lineHalts_pairRise _ _ _))
    · exact s.lineHalts_refl
  unfold State.flightOver
  split
  · exact State.lineHalts_ite _ s.lineHalts_refl (hhead _)
  · exact State.lineHalts_ite _ s.lineHalts_refl (hpipe _)
  · exact s.lineHalts_refl
theorem State.lineHalts_markDue (s : State) (p : Nat) : s.lineHalts (s.markDue p) := by
  unfold State.markDue
  exact State.lineHalts_ite _ (State.lineHalts_ite _ s.lineHalts_refl (State.lineHalts_of (fun _ => rfl) ⟨rfl, rfl, rfl, rfl, rfl, rfl, rfl⟩)) s.lineHalts_refl
theorem State.lineHalts_lineStopped (s : State) (b : Nat) : s.lineHalts (s.lineStopped b) := by
  have hgive : ∀ t : State, t.lineHalts (t.giveDone b) := fun t => by
    have hpair : ∀ m, t.lineHalts (t.updPair fun p => { p with giving := m }) := fun m => t.lineHalts_updPair _ fun _ => rfl
    unfold State.giveDone
    exact State.lineHalts_ite _ ((hpair _).trans (State.lineHalts_setPairState _ _)) (hpair _)
  have hwhen : ∀ (t : State) c, t.lineHalts (t.when c fun t => t.each (List.range 2) fun u c => u.updCam c fun x => { x with trig0Until := none }) :=
    fun t c => State.lineHalts_ite _ (State.lineHalts_each (fun u c => u.updCam c fun x => { x with trig0Until := none })
      (fun u c => State.lineHalts_of (fun _ => rfl) ⟨rfl, rfl, rfl, rfl, rfl, rfl, rfl⟩) _ t) t.lineHalts_refl
  obtain ⟨u, hu⟩ : ∃ u, (s.each (barPages b) fun t p => t.markDue p) = u := ⟨_, rfl⟩
  have hsu : s.lineHalts u := hu ▸ State.lineHalts_each (fun t p => t.markDue p) (fun t p => t.lineHalts_markDue p) (barPages b) s
  unfold State.lineStopped
  dsimp only
  rw [hu]
  generalize barPages b = l
  exact ((hsu.trans (hgive u)).trans (hwhen (u.giveDone b) _)).trans (State.lineHalts_each State.flightOver State.lineHalts_flightOver l _)

/-! ### The fence of the LINE pages -/

/-- LINE_FENCE of the loss: the page's own latest line is its address. -/
def State.lineCut (s : State) (b : Nat) : State := s.fence (pLINE b) 0x20 0 (s.get (pLINE b) R.LINE_SEQ)
theorem State.lineCut_eq (s : State) {b : Nat} (hb : b < 8) : s.lineCut b = s.fenceOne (pLINE b) 0x20 0 (s.get (pLINE b) R.LINE_SEQ) := by
  unfold State.lineCut State.fence
  dsimp only
  rw [blkOf_line b hb]
  split <;> rfl
theorem State.lineHalts_lineCut (s : State) {b : Nat} (hb : b < 8) : s.lineHalts (s.lineCut b) := by
  have hp : pBOOT ≠ pLINE b := pBOOT_low (by unfold pLINE; omega)
  have hcount : ∀ code src lo, s.lineHalts (s.errCount (pLINE b) code src lo 0 0) := fun code src lo =>
    State.lineHalts_reports (fun f => s.errCount_page _ _ _ _ _ _ hp f) (s.reports_errCount _ _ _ _ _ _)
  rw [s.lineCut_eq hb]
  unfold State.fenceOne
  rw [blkOf_line b hb]
  dsimp only
  refine State.lineHalts_ite _ s.lineHalts_refl (State.lineHalts_ite _ (State.lineHalts_ite _ ?_ s.lineHalts_refl) (State.lineHalts_ite _ ?_ ?_))
  · unfold State.fenceJoin
    exact State.lineHalts_ite _ ((hcount _ _ _).trans (State.lineHalts_set _ hp _ _)) (hcount _ _ _)
  · exact State.lineHalts_of (fun _ => rfl) ⟨rfl, rfl, rfl, rfl, rfl, rfl, rfl⟩
  · exact (((s.lineHalts_err hp _ _ _ _ _).trans (State.lineHalts_fenceMark _ hp _)).trans (State.lineHalts_lineStopped _ b)).trans
      (s.lineHalts_pairRise _ _ _)
/-- The pages whose header another LINE page's fence leaves: those of no head, no pipeline and not PAIR. -/
theorem State.headerKeeps_lineCut (s : State) {b p : Nat} (hb : b < 8) (hne : pLINE b ≠ p) (hp : ∀ i, blkOf p ≠ some (.head, i) ∧ blkOf p ≠ some (.pipe, i))
    (hpair : pPAIR ≠ p) : s.headerKeeps (s.lineCut b) p := by
  rw [s.lineCut_eq hb]
  exact s.headerKeeps_fenceOne _ _ _ _ _ (blkOf_line b hb) hne hpair fun t => t.headerKeeps_lineStopped b hp hpair
theorem State.lineCut_shows (s : State) {b : Nat} (hb : b < 8) (h : mayFence s (pLINE b)) :
    (s.lineCut b).fenced (pLINE b) = true ∧ (s.lineCut b).get (pLINE b) R.PG_FENCE_REASON = 0x20 := by
  have hpair : pPAIR ≠ pLINE b := by
    unfold pPAIR pLINE
    omega
  rw [s.lineCut_eq hb]
  have hstops : ∀ t : State, t.headerKeeps (t.fenceStops .line b 0x20) (pLINE b) := fun t =>
    t.headerKeeps_lineStopped b (fun i => by rw [blkOf_line b hb]; simp) hpair
  obtain ⟨h1, h2, -⟩ := State.fenceOne_shows (blkOf_line b hb) rfl h hpair (by decide) 0 (s.get (pLINE b) R.LINE_SEQ) 0 true hstops rfl
  exact ⟨h1, h2⟩
theorem State.linesCut_spec (l : List Nat) (hl : ∀ b ∈ l, b < 8) (hd : l.Nodup) (s : State) {t : State} (ht : s.each l State.lineCut = t) :
    s.lineHalts t ∧ s.headerKeeps t pSYS ∧ (∀ b < 8, b ∉ l → s.headerKeeps t (pLINE b)) ∧
    ∀ b ∈ l, mayFence s (pLINE b) → t.fenced (pLINE b) = true ∧ t.get (pLINE b) R.PG_FENCE_REASON = 0x20 := by
  induction l generalizing s with
  | nil =>
    subst ht
    exact ⟨s.lineHalts_refl, s.headerKeeps_refl _, fun _ _ _ => s.headerKeeps_refl _, fun b hb => absurd hb List.not_mem_nil⟩
  | cons c r ih =>
    obtain ⟨hc, hr⟩ := List.forall_mem_cons.mp hl
    obtain ⟨hcr, hnd⟩ := List.nodup_cons.mp hd
    obtain ⟨i1, i2, i3, i4⟩ := ih hr hnd (s.lineCut c) ht
    have hkeep : ∀ b < 8, b ≠ c → s.headerKeeps (s.lineCut c) (pLINE b) := fun b hb hne =>
      s.headerKeeps_lineCut hc (fun h => hne (pLINE_inj h).symm) (fun i => by rw [blkOf_line b hb]; simp) (by unfold pPAIR pLINE; omega)
    have hsys : ∀ x : Blk × Nat, x.1 = .head ∨ x.1 = .pipe → blkOf pSYS ≠ some x := fun x hx h => by
      rw [show blkOf pSYS = some (.sys, 0) from rfl, Option.some.injEq] at h
      subst h
      simp at hx
    refine ⟨(s.lineHalts_lineCut hc).trans i1, (s.headerKeeps_lineCut hc (by unfold pLINE pSYS; omega) (fun i => ⟨hsys _ (by simp), hsys _ (by simp)⟩) (by decide)).trans i2,
      fun b hb hn => ?_, fun b hb hm => ?_⟩
    · obtain ⟨hbc, hbr⟩ := not_or.mp (fun h => hn (List.mem_cons.mpr h))
      exact (hkeep b hb hbc).trans (i3 b hb hbr)
    · by_cases hbc : b = c
      · subst hbc
        obtain ⟨h1, h2⟩ := s.lineCut_shows hc hm
        have hk := i3 b hc hcr
        exact ⟨hk.fenced.trans h1, (hk.flds _ (by simp [fenceHeader])).trans h2⟩
      · have hbr : b ∈ r := (List.mem_cons.mp hb).resolve_left hbc
        have hk := hkeep b (hr b hbr) hbc
        obtain ⟨m1, m2, m3⟩ := hm
        exact i4 b hbr ⟨hk.fenced.trans m1, hk.pageHeld.trans m2, hk.reset.trans m3⟩
end Sys2Proof.Machine
end

section
/-! ### What the loss of the main PLL cuts (O58) -/
open Sys2Proof Sys2Proof.Machine
namespace Sys2Proof.Machine

/-- A step of links that go dark: it moves lanes, their causes, the heads and what calibration waits for. -/
structure State.linksMove (s t : State) : Prop where
  get : ∀ q f, (∀ l, q ≠ pLANE l) → t.get q f = s.get q f
  stop : ∀ n, (s.headAt n).tlmStop = true → (t.headAt n).tlmStop = true
  shape : ∃ r a h c w, t = { s with regs := r, lane := a, head := h, calst := c, host := { s.host with waiting := w } }
theorem State.linksMove_refl (s : State) : s.linksMove s := ⟨fun _ _ _ => rfl, fun _ h => h, _, _, _, _, _, rfl⟩
theorem State.linksMove.trans {s t u : State} (h : s.linksMove t) (k : t.linksMove u) : s.linksMove u := by
  refine ⟨fun q f hq => (k.get q f hq).trans (h.get q f hq), fun n hn => k.stop n (h.stop n hn), ?_⟩
  obtain ⟨r, a, x, c, w, ht⟩ := h.shape
  obtain ⟨r', a', x', c', w', hu⟩ := k.shape
  exact ⟨r', a', x', c', w', by rw [hu, ht]⟩
theorem State.linksMove_each (g : State → Nat → State) (hg : ∀ (t : State) n, t.linksMove (g t n)) (l : List Nat) (s : State) : s.linksMove (s.each l g) :=
  List.foldlRecOn (motive := fun t : State => s.linksMove t) l g s.linksMove_refl fun t ht n _ => ht.trans (hg t n)
theorem State.linksMove_updHead (s : State) (h : Nat) (g : HeadSt → HeadSt) (hg : ∀ x, x.tlmStop = true → (g x).tlmStop = true) :
    s.linksMove (s.updHead h g) := by
  refine ⟨fun _ _ _ => rfl, fun n hn => ?_, _, _, _, _, _, rfl⟩
  by_cases hnh : n = h
  · subst hnh
    rw [State.headAt_upd_self]
    exact hg _ hn
  · rwa [State.headAt_upd_other _ _ hnh]
theorem State.linksMove_updLane (s : State) (l : Nat) (g : LaneSt → LaneSt) : s.linksMove (s.updLane l g) :=
  ⟨fun _ _ _ => rfl, fun _ h => h, _, _, _, _, _, rfl⟩
theorem State.linksMove_framesCut (s : State) : s.linksMove s.framesCut :=
  State.linksMove_each (fun t h => t.updHead h HeadSt.cut) (fun t h => t.linksMove_updHead h _ fun _ hx => hx) (List.range 128) s
/-- A lane that stops hearing and sending. -/
theorem State.linksMove_setLane (s : State) (l : Nat) : s.linksMove (s.setLane l 1) := by
  have hmoves := (s.setLane_spec l 1 rfl).1
  refine ⟨fun q f hq => hmoves.but q f fun e he => Or.inl ?_, fun n hn => ?_, hmoves.shape⟩
  · rw [List.mem_singleton.mp he]
    exact hq l
  · have hhead : (s.setLane l 1).head = s.head := by
      have htlm : ∀ t : State, t.tlmLane l 1 = t := fun t => by
        unfold State.tlmLane
        simp
      have hlost : ∀ t : State, (t.scanLost l).head = t.head := fun t => by
        change State.head (if (t.laneAt l).calScan || (t.laneAt l).calRuns then _ else t) = t.head
        split <;> rfl
      have hcause : ∀ (t : State) i, (t.cause (pLANE l) i).head = t.head := fun t i => by
        obtain ⟨r, w, h⟩ := t.reports_cause (pLANE l) i
        rw [h]
      unfold State.setLane
      dsimp only
      rw [htlm]
      split
      · rfl
      · rw [if_neg (by decide)]
        split
        · rw [hlost, hcause]
          rfl
        · rfl
    unfold State.headAt at hn ⊢
    rwa [hhead]
/-- A lane without the main PLL. -/
def LaneSt.darkFrom (x y : LaneSt) : Prop := y.txIdle = true ∧ y.st = if x.st ∈ [2, 3, 5] then 1 else x.st
theorem LaneSt.darkFrom.again {x y z : LaneSt} (h : x.darkFrom y) (k : y.darkFrom z) : x.darkFrom z := by
  obtain ⟨-, hst⟩ := h
  obtain ⟨htx, hst'⟩ := k
  refine ⟨htx, ?_⟩
  rw [hst', hst]
  split <;> simp_all
theorem State.laneDark_spec (s : State) (l : Nat) {t : State} (ht : s.laneDark l = t) : s.linksMove t ∧ (s.laneAt l).darkFrom (t.laneAt l) ∧
    (∀ n, n ≠ l → t.laneAt n = s.laneAt n) ∧ (l < 128 → (t.headAt l).tlmStop = true) := by
  obtain ⟨u, hu⟩ : ∃ u, ((s.updLane l fun x => { x with txIdle := true }).when (decide (l < 128)) fun t => t.updHead l fun x => { x with tlmStop := true }) = u := ⟨_, rfl⟩
  have hat : ∀ n, u.laneAt n = (s.updLane l fun x => { x with txIdle := true }).laneAt n := fun n => by
    rw [← hu]
    unfold State.when
    split <;> rfl
  have hsu : s.linksMove u := by
    rw [← hu]
    unfold State.when
    split
    · exact (s.linksMove_updLane l _).trans (State.linksMove_updHead _ _ _ fun _ _ => rfl)
    · exact s.linksMove_updLane l _
  have hstop : l < 128 → (u.headAt l).tlmStop = true := fun h => by
    rw [← hu, State.when, if_pos (by simpa using h), State.headAt_upd_self]
  have hself := hat l
  rw [State.laneAt_upd_self] at hself
  have hother : ∀ n, n ≠ l → u.laneAt n = s.laneAt n := fun n hn => (hat n).trans (s.laneAt_upd_other _ hn)
  unfold State.laneDark at ht
  dsimp only at ht
  rw [hu] at ht
  by_cases hst : (s.laneAt l).st = 2 ∨ (s.laneAt l).st = 3 ∨ (s.laneAt l).st = 5
  · rw [if_pos hst] at ht
    obtain ⟨v, hv⟩ : ∃ v, u.setLane l 1 = v := ⟨_, rfl⟩
    obtain ⟨hmoves, hvst, ⟨a, b, c, d, hbeside⟩, -⟩ := u.setLane_spec l 1 hv
    have huv : u.linksMove v := hv ▸ u.linksMove_setLane l
    rw [hv] at ht
    have hfrom : v.linksMove t := by
      rw [← ht]
      exact (v.linksMove_updLane l _).trans (State.linksMove_updLane _ l _)
    refine ⟨(hsu.trans huv).trans hfrom, ?_, fun n hn => ?_, fun h => hfrom.stop l (huv.stop l (hstop h))⟩
    · have hlast : t.laneAt l = { v.laneAt l with block := false, good := 0, bad := [], cdr := false } := by
        rw [← ht, State.laneAt_upd_self, State.dropLock, State.laneAt_upd_self]
      have htx := congrArg LaneSt.txIdle hbeside
      rw [hself] at htx
      refine ⟨by rw [hlast]; exact htx, ?_⟩
      rw [hlast, if_pos (by simpa using hst)]
      exact hvst
    · rw [← ht, State.laneAt_upd_other _ _ hn, State.dropLock, State.laneAt_upd_other _ _ hn, hmoves.others n hn, hother n hn]
  · rw [if_neg hst] at ht
    subst ht
    refine ⟨hsu, ⟨by rw [hself], ?_⟩, hother, hstop⟩
    rw [hself, if_neg (by simpa using hst)]
theorem State.lanesDark_spec (l : List Nat) (s : State) {t : State} (ht : s.each l State.laneDark = t) : s.linksMove t ∧
    (∀ n ∈ l, (s.laneAt n).darkFrom (t.laneAt n)) ∧ (∀ n, n ∉ l → t.laneAt n = s.laneAt n) ∧ ∀ n ∈ l, n < 128 → (t.headAt n).tlmStop = true := by
  induction l generalizing s with
  | nil =>
    subst ht
    exact ⟨s.linksMove_refl, fun n hn => absurd hn List.not_mem_nil, fun _ _ => rfl, fun n hn => absurd hn List.not_mem_nil⟩
  | cons c r ih =>
    obtain ⟨h1, h2, h3, h4⟩ := s.laneDark_spec c rfl
    obtain ⟨i1, i2, i3, i4⟩ := ih (s.laneDark c) ht
    refine ⟨h1.trans i1, fun n hn => ?_, fun n hn => ?_, fun n hn hlt => ?_⟩
    · by_cases hr : n ∈ r
      · by_cases hc : n = c
        · subst hc
          exact h2.again (i2 n hr)
        · rw [← h3 n hc]
          exact i2 n hr
      · have hc : n = c := (List.mem_cons.mp hn).resolve_right hr
        subst hc
        rw [i3 n hr]
        exact h2
    · obtain ⟨hc, hr⟩ := not_or.mp fun h => hn (List.mem_cons.mpr h)
      rw [i3 n hr, h3 n hc]
    · by_cases hr : n ∈ r
      · exact i4 n hr hlt
      · have hc : n = c := (List.mem_cons.mp hn).resolve_right hr
        subst hc
        exact i1.stop n (h4 hlt)

/-! ### The loss -/

theorem ownLanes_mem {l : Nat} (h : l < 160) (hn : l < 128 ∨ 132 ≤ l) : l ∈ ownLanes := by
  unfold ownLanes
  rcases hn with hn | hn
  · exact List.mem_append_left _ (List.mem_range.mpr hn)
  · exact List.mem_append_right _ (List.mem_map.mpr ⟨l - 132, List.mem_range.mpr (by omega), by omega⟩)
theorem State.linksMove.header {s t : State} (h : s.linksMove t) {p : Nat} (hp : ∀ l, p ≠ pLANE l) : s.headerKeeps t p := by
  have hget := h.get
  obtain ⟨r, a, x, c, w, ht⟩ := h.shape
  have hshut := hget pTHERM R.THERM_STAT_SHUT fun l => by
    unfold pTHERM pLANE
    omega
  refine ⟨fun f _ => hget p f hp, fun i _ hb => by rwa [hget p _ hp], hshut, ?_, ?_, ?_, ?_⟩ <;> rw [ht]
  exact ⟨rfl, rfl⟩
theorem State.stepShows.header {s t : State} {i p : Nat} (h : s.stepShows t i) (hp : pBOOT ≠ p) : s.headerKeeps t p := by
  have hget : ∀ q f, pBOOT ≠ q → t.get q f = s.get q f := fun q f hq => h.page hq.symm f
  obtain ⟨r, q, w, ht⟩ := h.shape
  refine ⟨fun f _ => hget p f hp, fun i _ hb => by rwa [hget p _ hp], hget _ _ (by decide), ?_, ?_, ?_, ?_⟩ <;> rw [ht]
  exact ⟨rfl, rfl⟩
/-- The links, the frames and the feeds of a device whose main PLL is lost. -/
def State.pllCut (s : State) : State :=
  ((((({ s with pll := false, heldClock := true } : State).updPair fun p => { p with pllLost := true }).each ownLanes State.laneDark).framesCut).feedSettle)
structure State.pllGone (s t : State) : Prop where
  header : ∀ p, (∀ l, p ≠ pLANE l) → s.headerKeeps t p
  backMin : t.backMin = s.backMin
  apart : t.osc = s.osc ∧ t.boot = s.boot ∧ t.pll = false ∧ t.heldClock = true ∧ t.pair.pllLost = true ∧ t.hold = s.hold
  lanes : ∀ l ∈ ownLanes, (s.laneAt l).darkFrom (t.laneAt l)
  heads : ∀ h < 128, (t.headAt h).dark
theorem State.pllCut_spec (s : State) {t : State} (ht : s.pllCut = t) : s.pllGone t := by
  obtain ⟨a, ha⟩ : ∃ a, ({ s with pll := false, heldClock := true } : State).updPair (fun p => { p with pllLost := true }) = a := ⟨_, rfl⟩
  obtain ⟨u, hu⟩ : ∃ u, a.each ownLanes State.laneDark = u := ⟨_, rfl⟩
  obtain ⟨v, hv⟩ : ∃ v, u.framesCut = v := ⟨_, rfl⟩
  obtain ⟨hau, hlanes, -, hstop⟩ := State.lanesDark_spec ownLanes a hu
  have huv : u.linksMove v := hv ▸ u.linksMove_framesCut
  have hav := hau.trans huv
  have hsa : ∀ p, s.headerKeeps a p := fun p => ha ▸ State.headerKeeps_of_regs p rfl rfl rfl rfl rfl
  have hstep := v.feedStep_feedSettle
  have hvt := hstep.like
  have hdef : v.feedSettle = t := by
    rw [← ht, ← hv, ← hu, ← ha]
    rfl
  rw [hdef] at hstep hvt
  have hlane : ∀ l, t.laneAt l = u.laneAt l := fun l => by
    rw [hvt.laneAt, ← hv]
    rw [u.framesCut_eq]
    exact List.foldlRecOn (motive := fun x : State => x.laneAt l = u.laneAt l) (List.range 128) _ rfl fun x hx n _ => hx
  have hhead := congrArg State.head hvt.shape
  change t.head = v.head at hhead
  refine ⟨fun p hp => ((hsa p).trans (hav.header hp)).trans (hdef ▸ v.headerKeeps_feedSettle p), ?_, ?_, fun l hl => ?_, fun h hh => ?_⟩
  · have hmin := hav.get pBOOT R.BOOT_BACKOFF_MIN fun l => by
      unfold pBOOT pLANE
      omega
    unfold State.backMin
    rw [hvt.get _ (by decide), hmin, ← ha]
    rfl
  · have hshape := hvt.shape
    have hhold : t.hold = v.hold := hdef ▸ v.feedSettle_hold
    obtain ⟨r, x, y, c, w, hv'⟩ := hav.shape
    have h1 := congrArg State.osc hshape
    have h2 := congrArg State.boot hshape
    have h3 := congrArg State.pll hshape
    have h4 := congrArg State.heldClock hshape
    have h5 := congrArg State.pair hshape
    dsimp only at h1 h2 h3 h4 h5
    rw [h1, h2, h3, h4, h5, hhold, hv', ← ha]
    exact ⟨rfl, rfl, rfl, rfl, rfl, rfl⟩
  · have hl' := hlanes l hl
    rw [hlane]
    rw [← ha] at hl'
    exact hl'
  · have hcut : v.headAt h = (u.headAt h).cut := hv ▸ u.headAt_framesCut hh
    have hdark : (v.headAt h).dark := by
      rw [hcut]
      exact ⟨⟨rfl, rfl, rfl⟩, hstop h (ownLanes_mem (by omega) (Or.inl hh)) hh⟩
    unfold State.headAt at hdark ⊢
    rwa [hhead]
/-- Step CLK goes back to RETRY. -/
def State.clkLost (s : State) : State := ((s.err pSYS 0x20 1 0).setStep 0 3).backOff 0
theorem State.clkLost_spec (s : State) {t : State} (ht : s.clkLost = t) :
    (∀ b, s.headerKeeps t (pLINE b)) ∧ (s.err pSYS 0x20 1 0).headerKeeps t pSYS ∧ t.bootStep 0 = 3 ∧
    t.boot.dueAt.getD 0 0 = s.osc + msTicks (s.boot.interval.getD 0 s.backMin) ∧
    t.lane = s.lane ∧ t.head = s.head ∧ t.pll = s.pll ∧ t.heldClock = s.heldClock ∧ t.pair = s.pair ∧ t.hold = s.hold := by
  obtain ⟨u, hu⟩ : ∃ u, s.err pSYS 0x20 1 0 = u := ⟨_, rfl⟩
  obtain ⟨v, hv⟩ : ∃ v, u.setStep 0 3 = v := ⟨_, rfl⟩
  obtain ⟨huv, hstep⟩ := u.setStep_spec (by decide) (by decide) hv
  have hmin : v.backMin = s.backMin := by
    have h := huv.but.field (f := R.BOOT_BACKOFF_MIN) (by decide) pBOOT
    unfold State.backMin
    rw [h, ← hu, State.get_err_ne _ _ _ _ _ _ _ (Or.inl (by decide))]
  have hdef : v.backOff 0 = t := by
    rw [← ht, ← hv, ← hu]
    rfl
  have hvt : ∀ p, v.headerKeeps t p := fun p => hdef ▸ State.headerKeeps_of_regs p rfl rfl rfl rfl rfl
  obtain ⟨r, w, hsu⟩ := s.reports_err pSYS 0x20 1 0 0 0
  rw [hu] at hsu
  have huv' := huv.shape
  obtain ⟨r', q, w', hshape⟩ := huv'
  have hsv : v = { s with regs := r', boot := { s.boot with readyOnce := q }, host := { s.host with waiting := w' } } := by
    rw [hshape, hsu]
  refine ⟨fun b => ?_, hu ▸ (huv.header (by decide)).trans (hvt _), ?_, ?_, ?_⟩
  · have hp : pSYS ≠ pLINE b ∧ pBOOT ≠ pLINE b := by
      unfold pLINE pSYS pBOOT
      omega
    exact ((hu ▸ s.headerKeeps_err _ _ _ _ _ hp.1).trans (huv.header hp.2)).trans (hvt _)
  · rw [← hdef]
    exact hstep
  · have hdue : t.boot.dueAt = v.boot.dueAt.put 0 (v.osc + msTicks (v.boot.interval.getD 0 v.backMin)) := by
      rw [← hdef]
      rfl
    rw [hdue, NMap.getD_put_self, hmin, hsv]
  · rw [← hdef, hsv]
    exact ⟨rfl, rfl, rfl, rfl, rfl, rfl⟩
theorem State.exec_mainPllLoss (s : State) (hp : s.pll = true) (hr : s.inReset = false) : exec .mainPllLoss s =
    .next (if (s.pllCut.clkLost.each (List.range 8) State.lineCut).persists 3 && !s.persists 3 then s.pllCut.clkLost.each (List.range 8) State.lineCut
      else s.pairRise (s.pllCut.clkLost.each (List.range 8) State.lineCut) 0x20 0) := by
  change execMainPllLoss s = _
  unfold execMainPllLoss
  rw [if_neg (by simp [hp, hr])]
  rfl
/-- The clause of O58 on the loss of the main PLL. -/
theorem State.mainPllLoss_spec (s : State) (hp : s.pll = true) (hr : s.inReset = false) : ∃ t, exec .mainPllLoss s = .next t ∧ t.pll = false ∧
    t.heldClock = true ∧ t.bootStep 0 = 3 ∧ t.boot.dueAt.getD 0 0 = s.osc + msTicks (s.boot.interval.getD 0 s.backMin) ∧
    (s.fenced pSYS = false → bit (t.get pSYS R.PG_IRQ_RAW) 1 = true ∧
      t.get pSYS R.PG_ERR_CNT = min (s.get pSYS R.PG_ERR_CNT + 1) (2 ^ 32 - 1)) ∧ t.pair.pllLost = true ∧
    (∀ l < 160, (l < 128 ∨ 132 ≤ l) → (s.laneAt l).darkFrom (t.laneAt l)) ∧ (∀ h < 128, (t.headAt h).dark) ∧
    (∀ b < 8, mayFence s (pLINE b) → t.fenced (pLINE b) = true ∧ t.get (pLINE b) R.PG_FENCE_REASON = 0x20) ∧ s.sameMemory t := by
  rw [s.exec_mainPllLoss hp hr]
  obtain ⟨u, hu⟩ : ∃ u, s.pllCut = u := ⟨_, rfl⟩
  obtain ⟨v, hv⟩ : ∃ v, u.clkLost = v := ⟨_, rfl⟩
  obtain ⟨w, hw⟩ : ∃ w, v.each (List.range 8) State.lineCut = w := ⟨_, rfl⟩
  obtain ⟨hheader, hmin, ⟨hosc, hboot, hpll, hclock, hlost, hhold⟩, hlanes, hheads⟩ := s.pllCut_spec hu
  obtain ⟨c1, c2, c3, c4, c5, c6, c7, c8, c9, c10⟩ := u.clkLost_spec hv
  obtain ⟨l1, l2, -, l4⟩ := State.linesCut_spec (List.range 8) (fun b hb => List.mem_range.mp hb) (List.nodup_range) v hw
  rw [hu, hv, hw]
  obtain ⟨t, ht⟩ : ∃ t, (if w.persists 3 && !s.persists 3 then w else s.pairRise w 0x20 0) = t := ⟨_, rfl⟩
  have hwt : w.lineHalts t ∧ ∀ p, pPAIR ≠ p → w.headerKeeps t p := by
    rw [← ht]
    split
    · exact ⟨w.lineHalts_refl, fun p _ => w.headerKeeps_refl p⟩
    · exact ⟨s.lineHalts_pairRise w _ _, fun p h => State.headerKeeps_pairRise _ _ (Or.inl h)⟩
  obtain ⟨hhalts, hkeeps⟩ := hwt
  have hvt := l1.trans hhalts
  obtain ⟨a1, a2, a3, a4, a5⟩ := hvt.apart
  have hlane : ∀ l, t.laneAt l = u.laneAt l := fun l => by
    unfold State.laneAt
    rw [a2, c5]
  have hline : ∀ b, ∀ l, pLINE b ≠ pLANE l ∨ 8 ≤ b := fun b l => by
    unfold pLINE pLANE
    omega
  rw [ht]
  refine ⟨t, rfl, a3.trans (c7.trans hpll), a4.trans (c8.trans hclock), ?_, ?_, fun hf => ?_, hvt.pair.trans (by rw [c9, hlost]), fun l hl hn => ?_,
    fun h hh => hvt.heads h ?_, fun b hb hm => ?_, sameMemory_of_hold (a5.trans (c10.trans hhold))⟩
  · unfold State.bootStep
    rw [hvt.boot]
    exact c3
  · rw [a1, c4, hosc, hboot, hmin]
  · have hsys := hheader pSYS fun l => by
      unfold pSYS pLANE
      omega
    have hopen : u.frozen pSYS = false := State.frozen_of_unfenced (hsys.fenced.trans hf)
    have hkeep := (c2.trans l2).trans (hkeeps pSYS (by decide))
    refine ⟨hkeep.raw 1 (by decide) (u.bit_err hopen _ _ _ _ _), (hkeep.flds _ (by simp [fenceHeader])).trans ?_⟩
    rw [(u.err_recorded hopen _ _ _ _ _).1, hsys.flds _ (by simp [fenceHeader])]
    rfl
  · rw [hlane]
    exact hlanes l (ownLanes_mem hl hn)
  · have hdark := hheads h hh
    unfold State.headAt at hdark ⊢
    rwa [c6]
  · have hk := (hheader (pLINE b) fun l => (hline b l).resolve_right (by omega)).trans (c1 b)
    obtain ⟨m1, m2, m3⟩ := hm
    obtain ⟨h1, h2⟩ := l4 b (List.mem_range.mpr hb) ⟨hk.fenced.trans m1, hk.pageHeld.trans m2, hk.reset.trans m3⟩
    have hk' := hkeeps (pLINE b) (by unfold pPAIR pLINE; omega)
    exact ⟨hk'.fenced.trans h1, (hk'.flds _ (by simp [fenceHeader])).trans h2⟩
end Sys2Proof.Machine
end

section
/-! ### Resets, straps and the TAP (O58) -/
open Sys2Proof Sys2Proof.Machine
namespace Sys2Proof.Machine

theorem RegMap.find_filterBy (m : RegMap) (keep : Nat → Nat → Bool) (p i : Nat) :
    RegMap.find (m.filter fun e => keep e.1.1 e.1.2) (p, i) = if keep p i then m.find (p, i) else none := by
  induction m with
  | nil => simp [RegMap.find]
  | cons e r ih =>
    obtain ⟨⟨q, j⟩, v⟩ := e
    by_cases hk : (q, j) = (p, i)
    · obtain ⟨rfl, rfl⟩ := Prod.mk.injEq .. ▸ hk
      by_cases hkeep : keep q j = true
      · simp [List.filter_cons, hkeep, RegMap.find]
      · rw [List.filter_cons, if_neg (by simpa using hkeep), ih, if_neg hkeep, if_neg hkeep]
    · by_cases hkeep : keep q j = true
      · rw [List.filter_cons, if_pos (by simpa using hkeep)]
        simp only [RegMap.find, if_neg hk]
        exact ih
      · rw [List.filter_cons, if_neg (by simpa using hkeep), ih]
        simp only [RegMap.find, if_neg hk]
/-- What a warm reset makes of a device before it counts itself. -/
def State.warmed (s : State) : State := { State.reset with
    pending := s.pending, straps := s.straps, liveStraps := s.liveStraps, mfioIn := s.mfioIn, tap := s.tap, tapReg := s.tapReg, cells := s.cells,
    rdata := s.rdata, outs := s.outs, fresh := s.fresh + 1, epoch := s.epoch, lstore := s.lstore, lsErr := s.lsErr, dramMem := s.dramMem,
    dramChk := s.dramChk, flash := s.flash, regs := s.regs.filter fun e => warmKeeps e.1.1 e.1.2, boot := { warm := true },
    host := { s.host with sentAt := [] } }
theorem State.warm_eq (s : State) :
    s.warm = (((s.warmed.set pSYS R.SYS_RCAUSE_WARM 1).incSat pSYS R.SYS_WRST_CNT).set pBOOT R.BOOT_STAT_WARM 1).soloReset := rfl
theorem State.get_warmed (s : State) (p : Nat) (f : Fld) : s.warmed.get p f = if warmKeeps p f.id then s.get p f else rst p f := by
  unfold State.get
  change ((RegMap.find (s.regs.filter fun e => warmKeeps e.1.1 e.1.2) (p, f.id)).getD (rst p f)) = _
  rw [RegMap.find_filterBy]
  split <;> rfl
/-- What a warm reset leaves. -/
structure State.warmLeft (s t : State) : Prop where
  memory : s.sameMemory t
  cause : t.get pSYS R.SYS_RCAUSE_WARM = 1
  stat : t.get pBOOT R.BOOT_STAT_WARM = 1
  count : t.get pSYS R.SYS_WRST_CNT = min (s.get pSYS R.SYS_WRST_CNT + 1) (2 ^ 32 - 1)
  straps : t.straps = s.straps ∧ t.liveStraps = s.liveStraps ∧ t.boot = { warm := true } ∧ t.host = { s.host with sentAt := [] }
  kept : ∀ p f, warmKeeps p f.id = true → (p ≠ pSYS ∨ (f.id ≠ R.SYS_RCAUSE_WARM.id ∧ f.id ≠ R.SYS_WRST_CNT.id)) → t.get p f = s.get p f
  gone : ∀ p f, warmKeeps p f.id = false → (p ≠ pBOOT ∨ f.id ≠ R.BOOT_STAT_WARM.id) → (p ≠ pPAIR ∨ f.id ≠ R.PAIR_CTRL_SOLO.id) → t.get p f = rst p f
  solo : t.get pPAIR R.PAIR_CTRL_SOLO = b2n s.straps.home
  rest : ({ t with pending := State.reset.pending, straps := State.reset.straps, liveStraps := State.reset.liveStraps,
                   mfioIn := State.reset.mfioIn, tap := State.reset.tap, tapReg := State.reset.tapReg, cells := State.reset.cells,
                   rdata := State.reset.rdata, outs := State.reset.outs,
                   fresh := State.reset.fresh, epoch := State.reset.epoch, lstore := State.reset.lstore, lsErr := State.reset.lsErr,
                   dramMem := State.reset.dramMem, dramChk := State.reset.dramChk, flash := State.reset.flash, regs := State.reset.regs,
                   boot := State.reset.boot, host := State.reset.host } : State) = State.reset
theorem b2n_mod (b : Bool) : b2n b % 2 ^ 1 = b2n b := by cases b <;> rfl
theorem State.warm_left (s : State) : s.warmLeft s.warm := by
  have hkeeps : warmKeeps pSYS R.SYS_RCAUSE_WARM.id = true ∧ warmKeeps pSYS R.SYS_WRST_CNT.id = true ∧ warmKeeps pBOOT R.BOOT_STAT_WARM.id = false ∧
      warmKeeps pPAIR R.PAIR_CTRL_SOLO.id = false := by decide
  obtain ⟨k1, k2, k3, k4⟩ := hkeeps
  have hne : ∀ {q p : Nat} {f g : Fld}, warmKeeps q g.id ≠ warmKeeps p f.id → q ≠ p ∨ g.id ≠ f.id := fun {q p f g} h => by
    by_contra hc
    rw [not_or, not_not, not_not] at hc
    exact h (by rw [hc.1, hc.2])
  have hget : ∀ q g, (q ≠ pPAIR ∨ g.id ≠ R.PAIR_CTRL_SOLO.id) → (q ≠ pBOOT ∨ g.id ≠ R.BOOT_STAT_WARM.id) →
      s.warm.get q g = ((s.warmed.set pSYS R.SYS_RCAUSE_WARM 1).incSat pSYS R.SYS_WRST_CNT).get q g := fun q g h1 h2 => by
    rw [s.warm_eq, State.soloReset, State.get_setFlag_ne _ _ h1, State.get_set_ne _ _ h2]
  refine ⟨⟨rfl, rfl, rfl, rfl, rfl⟩, ?_, ?_, ?_, ⟨rfl, rfl, rfl, rfl⟩, fun p f hk hn => ?_, fun p f hk h1 h2 => ?_, ?_, rfl⟩
  · rw [hget _ _ (Or.inl (by decide)) (Or.inl (by decide)), State.get_incSat_field _ _ (by decide), State.get_set_self]
    rfl
  · rw [s.warm_eq, State.soloReset, State.get_setFlag_ne _ _ (Or.inl (by decide)), State.get_set_self]
    rfl
  · rw [hget _ _ (Or.inl (by decide)) (Or.inl (by decide)), State.get_incSat_self, State.get_set_field _ _ _ (by decide), s.get_warmed, if_pos k2]
    rfl
  · rw [hget p f (hne (by rw [hk, k4]; decide)) (hne (by rw [hk, k3]; decide)), State.get_incSat_ne _ (hn.imp_right And.right),
      State.get_set_ne _ _ (hn.imp_right And.left), s.get_warmed, if_pos hk]
  · rw [hget p f h2 h1, State.get_incSat_ne _ (hne (by rw [hk, k2]; decide)), State.get_set_ne _ _ (hne (by rw [hk, k1]; decide)), s.get_warmed, hk]
    rfl
  · rw [s.warm_eq, State.soloReset, State.setFlag, State.get_set_self]
    exact b2n_mod _
theorem State.warmReset_spec (s : State) (c : Instr) (hc : (c = .sysWrst ∧ s.accepts pSYS 0x48 0x5A5A) ∨
    (c = .warmResetStart ∧ s.wrstPend = true ∧ s.inReset = false)) (hok : s.warmOk = true) : ∃ t, exec c s = .next t ∧ s.warmLeft t := by
  refine ⟨s.warm, ?_, s.warm_left⟩
  rcases hc with ⟨rfl, ha⟩ | ⟨rfl, hw, hr⟩
  · rw [exec_accepts rfl ha (Or.inl (by simp))]
    simp [regAct, blockAct, wrstAct, hok]
  · change execWarmResetStart s = _
    unfold execWarmResetStart
    rw [if_pos (by simp [hw, hok, hr])]
theorem State.sysWrst_waits (s : State) (h : s.accepts pSYS 0x48 0x5A5A) (hok : s.warmOk = false) : exec .sysWrst s = .next { s with wrstPend := true } := by
  rw [exec_accepts rfl h (Or.inl (by simp))]
  simp [regAct, blockAct, wrstAct, hok]
theorem State.warmResetStart_idle (s : State) (h : s.wrstPend = false ∨ s.warmOk = false ∨ s.inReset = true) : exec .warmResetStart s = .next s := by
  change execWarmResetStart s = _
  unfold execWarmResetStart
  rw [if_neg]
  rcases h with h | h | h <;> simp [h]
theorem State.resetRelease_spec (s : State) (x : Straps) (h : s.inReset = true) : ∃ t, exec (.resetRelease x) s = .next t ∧ t.inReset = false ∧ t.straps = x ∧
    t.liveStraps = x ∧ t.get pPAIR R.PAIR_CTRL_SOLO = b2n x.home ∧ s.regsBut t [(pPAIR, R.PAIR_CTRL_SOLO)] ∧
    ({ t with regs := s.regs, inReset := true, straps := s.straps, liveStraps := s.liveStraps } : State) = s := by
  obtain ⟨u, hu⟩ : ∃ u, ({ s with inReset := false, straps := x, liveStraps := x } : State) = u := ⟨_, rfl⟩
  have hsu : s.regsBut u [(pPAIR, R.PAIR_CTRL_SOLO)] := hu ▸ fun _ _ _ => rfl
  refine ⟨u.soloReset, ?_, ?_⟩
  · change execResetRelease x s = _
    unfold execResetRelease
    rw [if_pos h, hu]
  · have hstraps : u.straps = x := by rw [← hu]
    refine ⟨by rw [← hu]; rfl, by rw [← hu]; rfl, by rw [← hu]; rfl, ?_, State.regsBut_setFlag hsu _ (by simp), ?_⟩
    · rw [State.soloReset, State.setFlag, State.get_set_self, hstraps]
      exact b2n_mod _
    · rw [← hu, ← h]
      rfl
theorem State.strapchg_same (s : State) (x : Straps) (h : s.inReset = true ∨ x = s.straps) : exec (.strapchg x) s = .next { s with liveStraps := x } := by
  change execStrapchg x s = _
  unfold execStrapchg
  dsimp only
  rw [if_pos]
  rcases h with h | h <;> simp [h]
theorem State.strapchg_changed (s : State) (x : Straps) (hr : s.inReset = false) (hx : x ≠ s.straps) (hf : s.fenced pSYS = false) :
    ∃ t, exec (.strapchg x) s = .next t ∧ t.liveStraps = x ∧ bit (t.get pSYS R.PG_IRQ_RAW) 3 = true ∧ s.regsBut t [(pSYS, R.PG_IRQ_RAW)] ∧
      ({ t with regs := s.regs, host := s.host, liveStraps := s.liveStraps } : State) = s := by
  obtain ⟨u, hu⟩ : ∃ u, ({ s with liveStraps := x } : State) = u := ⟨_, rfl⟩
  have hsu : s.regsBut u [(pSYS, R.PG_IRQ_RAW)] := hu ▸ fun _ _ _ => rfl
  refine ⟨u.cause pSYS 3, ?_, ?_, u.bit_cause (by decide) ?_, State.regsBut_cause hsu 3 (by simp), ?_⟩
  · change execStrapchg x s = _
    unfold execStrapchg
    dsimp only
    rw [if_neg (by simp [hr, hx]), hu]
  · obtain ⟨r, w, h⟩ := u.reports_cause pSYS 3
    rw [h, ← hu]
  · rw [← hu]
    exact State.frozen_of_unfenced hf
  · obtain ⟨r, w, h⟩ := u.reports_cause pSYS 3
    rw [h, ← hu]
theorem State.tapControl_shift (s : State) (tdi l : List Bool) (h : (∃ r, s.tapReg = some r ∧ l = r ++ tdi) ∨
    (s.tapReg = none ∧ s.tap ∈ [TapOp.bypass, .clamp, .highz] ∧ l = false :: tdi) ∨
    (s.tapReg = none ∧ s.tap = .idcode ∧ l = (List.range 32).map (fun i => (0x108809D3 : BitVec 32).getLsbD i) ++ tdi) ∨
    (s.tapReg = none ∧ (s.tap = .samplePreload ∨ s.tap = .extest) ∧ l = scanCells.zipIdx.map s.cellCapture ++ tdi)) :
    exec (.tapControl (.shift tdi)) s = .next { s with
      tapReg := some (l.drop tdi.length), outs := .tdo (l.take tdi.length) :: s.outs, fresh := s.fresh + 1 } := by
  have hl : s.tapReg.getD s.tapCapture ++ tdi = l := by
    rcases h with ⟨r, hr, hl⟩ | ⟨hr, ht, hl⟩ | ⟨hr, ht, hl⟩ | ⟨hr, ht, hl⟩ <;> rw [hl, hr]
    · rfl
    · simp only [List.mem_cons, List.not_mem_nil, or_false] at ht
      rcases ht with ht | ht | ht <;> simp [State.tapCapture, ht]
    · simp only [State.tapCapture, ht, Option.getD_none, tapIdcode]
    · rcases ht with ht | ht <;> simp [State.tapCapture, ht]
  change execTapControl (.shift tdi) s = _
  unfold execTapControl
  dsimp only
  rw [hl]
  rfl

/-- Settles O58, one lemma for each event. -/
theorem deviceEvents : Obligations.DeviceEvents := by
  unfold Obligations.DeviceEvents
  intro s
  refine ⟨⟨s.cold, rfl, rfl, fun _ _ => rfl, rfl, rfl, rfl, rfl, rfl, rfl, rfl, rfl, rfl⟩, fun h => ?_, fun h => ?_, fun x h => s.resetRelease_spec x h, fun x h => ?_,
    fun x => ⟨fun h => s.strapchg_same x h, fun hr hx hf => s.strapchg_changed x hr hx hf⟩, fun h hok => s.sysWrst_waits h hok, fun c hc hok => ?_,
    fun h => s.warmResetStart_idle h, fun hp hr => ?_, fun h => ?_, fun x h => ?_, fun x hr hb => ?_, rfl, fun x hx => ?_, fun tdi l h => s.tapControl_shift tdi l h,
    rfl⟩
  · change execSupplyDetect s = execColdReset s
    simp [execSupplyDetect, execColdReset, h]
  · change execSupplyDetect s = _
    simp [execSupplyDetect, h]
  · change execResetRelease x s = _
    simp [execResetRelease, h]
  · obtain ⟨t, ht, h⟩ := s.warmReset_spec c hc hok
    obtain ⟨h1, h2, h3, h4⟩ := h.straps
    exact ⟨t, ht, h.memory, h.cause, h.stat, h.count, h1, h2, h3, h4, h.kept, h.gone, h.solo, h.rest⟩
  · obtain ⟨t, ht, h1, h2, h3, h4, h5, h6, h7, h8, h9, h10⟩ := s.mainPllLoss_spec hp hr
    refine ⟨t, ht, h1, h2, h3, h4, h5, h6, h7, fun n hn => ?_, fun b hb k1 k2 k3 => h9 b hb ⟨k1, k2, k3⟩, h10⟩
    obtain ⟨⟨k1, k2, k3⟩, k4⟩ := h8 n hn
    exact ⟨k1, k2, k3, k4⟩
  · change execMainPllLoss s = _
    unfold execMainPllLoss
    rw [if_pos]
    rcases h with h | h <;> simp [h]
  · change execThermSample x s = _
    unfold execThermSample
    dsimp only
    rw [if_pos]
    rcases h with h | h <;> simp [h]
  · obtain ⟨t, ht, h, hflash, hshut, hstays⟩ := s.thermSample_spec x hr hb
    exact ⟨t, ht, h.temp, h.max, h.warn, h.trip, h.causes, hflash, hshut, hstays⟩
  · simp only [List.mem_cons, List.not_mem_nil, or_false] at hx
    rcases hx with rfl | rfl | rfl | rfl | rfl | rfl <;> rfl
end Sys2Proof.Machine
end

section
/-! ### What a job engine and its decoder move (O37) -/
open Sys2Proof Sys2Proof.Machine
namespace Sys2Proof.Machine

/-- The fields of DMAC that an engine leaves. -/
def engineKept : List Fld := [R.DMAC_CTRL, R.PG_CTRL_EN, R.PG_FENCE_FENCED, R.DMAC_JREC_BASE_LO, R.DMAC_JREC_BASE_HI, R.DMAC_JREC_CFG_LOG2]
/-- The line-store ring of a decoder (R83). -/
def decRing (b : Nat) : List (Nat × Nat) := [(0x300000 * b, 0x300000)]
/-- A step of engine b and its decoder. -/
structure State.engineStep (s t : State) (b : Nat) : Prop where
  page : ∀ p, ¬ dramPage p → p ≠ pDMAC → ∀ f, t.get p f = s.get p f
  ctrl : ∀ f ∈ engineKept, t.get pDMAC f = s.get pDMAC f
  raw : ∀ i < 32, bit (s.get pDMAC R.PG_IRQ_RAW) i = true → bit (t.get pDMAC R.PG_IRQ_RAW) i = true
  placed : s.ringPlaced → t.ringPlaced
  rank : ∀ c r o, t.physRank c r o = s.physRank c r o
  only : s.ringPlaced → s.dramOnly t s.recordBursts
  ring : s.lsWithin t (decRing b)
  others : ∀ k, k ≠ b → t.jobAt k = s.jobAt k ∧ t.decAt k = s.decAt k
  shape : ∃ r d w m k q j e l x y z, t = { s with regs := r, dram := d, host := { s.host with waiting := w }, dramMem := m, dramChk := k, dramWait := q, job := j, dec := e, lstore := l, lsErr := x, lsRep := y, lastDec := z }
theorem State.engineStep_refl (s : State) (b : Nat) : s.engineStep s b :=
  ⟨fun _ _ _ _ => rfl, fun _ _ => rfl, fun _ _ h => h, id, fun _ _ _ => rfl, fun _ => s.dramOnly_refl _, fun _ _ => rfl, fun _ _ => ⟨rfl, rfl⟩,
    _, _, _, _, _, _, _, _, _, _, _, _, rfl⟩
section
variable {s t : State} {b : Nat} (h : s.engineStep t b)
include h
theorem State.engineStep.size : t.jrecSize = s.jrecSize := by
  unfold State.jrecSize
  rw [h.ctrl _ (by simp [engineKept])]
theorem State.engineStep.bursts : t.recordBursts = s.recordBursts := by
  unfold State.recordBursts State.get64
  rw [h.size, h.ctrl _ (by simp [engineKept]), h.ctrl _ (by simp [engineKept])]
theorem State.engineStep.keys (a : Nat) : t.burstKey a = s.burstKey a ∧ t.burstChk a = s.burstChk a := by
  have hplace : t.dramPlace a = s.dramPlace a := by
    obtain ⟨r, d, w, m, k, q, j, e, l, x, y, z, ht⟩ := h.shape
    rw [ht]
    rfl
  unfold State.burstKey State.burstChk
  rw [hplace, h.rank]
  exact ⟨rfl, rfl⟩
theorem State.engineStep.records : s.recordsOnly t [] := by
  obtain ⟨r, d, w, m, k, q, j, e, l, x, y, z, ht⟩ := h.shape
  refine ⟨by rw [ht], by rw [ht], fun hmod hlt => ?_⟩
  rw [List.append_nil]
  exact h.only ⟨hmod, hlt⟩
theorem State.engineStep.wanted : t.jobWanted = s.jobWanted := by
  have hshut := h.page pTHERM (fun hd => by
    rcases hd with hd | ⟨c, hc, hd⟩
    · exact absurd hd (by decide)
    · unfold pTHERM pDRAM at hd
      omega) (by decide) R.THERM_STAT_SHUT
  have hfence := h.ctrl R.PG_FENCE_FENCED (by simp [engineKept])
  have hen := h.ctrl R.PG_CTRL_EN (by simp [engineKept])
  have hctrl := h.ctrl R.DMAC_CTRL (by simp [engineKept])
  obtain ⟨r, d, w, m, k, q, j, e, l, x, y, z, ht⟩ := h.shape
  have hreset : t.srsts = s.srsts ∧ t.heldReset = s.heldReset := by
    rw [ht]
    exact ⟨rfl, rfl⟩
  obtain ⟨hs, hh⟩ := hreset
  have hworks : t.working pDMAC = s.working pDMAC := by
    unfold State.working State.enabled State.fenced State.resetting State.held State.shut State.flag
    rw [hshut, hfence, hen, hs, hh]
  funext i
  unfold State.jobWanted
  rw [hworks, hctrl]
end
/-- Steps of engines follow one another: where both store within their rings, within these. -/
theorem State.dramOnly_step {s t u : State} {b : Nat} (h : s.engineStep t b) (hs : s.ringPlaced) (hk : t.dramOnly u t.recordBursts) : s.dramOnly u s.recordBursts := by
  rw [h.bursts] at hk
  refine ⟨fun a ha => ?_, fun a ha => ?_⟩
  · exact (hk.1 a fun x hx => by rw [(h.keys x).1]; exact ha x hx).trans ((h.only hs).1 a ha)
  · exact (hk.2 a fun x hx => by rw [(h.keys x).2]; exact ha x hx).trans ((h.only hs).2 a ha)
theorem State.engineStep.trans {s t u : State} {b : Nat} (h : s.engineStep t b) (k : t.engineStep u b) : s.engineStep u b := by
  refine ⟨fun p hp hd f => (k.page p hp hd f).trans (h.page p hp hd f), fun f hf => (k.ctrl f hf).trans (h.ctrl f hf),
    fun i hi hb => k.raw i hi (h.raw i hi hb), fun hs => k.placed (h.placed hs), fun c r o => (k.rank c r o).trans (h.rank c r o),
    fun hs => State.dramOnly_step h hs (k.only (h.placed hs)), fun a ha => (k.ring a ha).trans (h.ring a ha),
    fun n hn => ⟨(k.others n hn).1.trans (h.others n hn).1, (k.others n hn).2.trans (h.others n hn).2⟩, ?_⟩
  obtain ⟨r, d, w, m, c, q, j, e, l, x, y, z, ht⟩ := h.shape
  obtain ⟨r', d', w', m', c', q', j', e', l', x', y', z', hu⟩ := k.shape
  exact ⟨r', d', w', m', c', q', j', e', l', x', y', z', by rw [hu, ht]⟩
theorem State.engineStep_foldl {α : Type} {b : Nat} (g : State → α → State) (hg : ∀ (t : State) x, t.engineStep (g t x) b) (l : List α) (s : State) :
    s.engineStep (l.foldl g s) b :=
  List.foldlRecOn (motive := fun t : State => s.engineStep t b) l g (s.engineStep_refl b) fun t ht x _ => ht.trans (hg t x)

/-- What a decoder leaves of its engine: all but the records of its runs and the mark of its last line group. -/
def JobSt.runsOn (x y : JobSt) : Prop := ∃ rs cs g, y = { x with runs := rs, carry := cs, lastGroup := g }
theorem JobSt.runsOn_refl (x : JobSt) : x.runsOn x := ⟨_, _, _, rfl⟩
theorem JobSt.runsOn.trans {x y z : JobSt} (h : x.runsOn y) (k : y.runsOn z) : x.runsOn z := by
  obtain ⟨r, c, g, rfl⟩ := h
  obtain ⟨r', c', g', rfl⟩ := k
  exact ⟨r', c', g', rfl⟩
/-- A step of decoder b. -/
structure State.decStep (s t : State) (b : Nat) : Prop extends State.engineStep s t b where
  own : (s.jobAt b).runsOn (t.jobAt b)
theorem State.decStep_refl (s : State) (b : Nat) : s.decStep s b := ⟨s.engineStep_refl b, JobSt.runsOn_refl _⟩
theorem State.decStep.trans {s t u : State} {b : Nat} (h : s.decStep t b) (k : t.decStep u b) : s.decStep u b :=
  ⟨h.toengineStep.trans k.toengineStep, h.own.trans k.own⟩
theorem State.decStep_foldl {α : Type} {b : Nat} (g : State → α → State) (hg : ∀ (t : State) x, t.decStep (g t x) b) (l : List α) (s : State) :
    s.decStep (l.foldl g s) b :=
  List.foldlRecOn (motive := fun t : State => s.decStep t b) l g (s.decStep_refl b) fun t ht x _ => ht.trans (hg t x)
theorem State.decStep_ite {s t u : State} {b : Nat} (c : Prop) [Decidable c] (h : s.decStep t b) (k : s.decStep u b) : s.decStep (if c then t else u) b := by
  split <;> assumption

/-! ### The engine's own records -/

theorem State.engineStep_updJob (s : State) (b : Nat) (g : JobSt → JobSt) : s.engineStep (s.updJob b g) b :=
  ⟨fun _ _ _ _ => rfl, fun _ _ => rfl, fun _ _ h => h, id, fun _ _ _ => rfl, fun _ => s.dramOnly_refl _, fun _ _ => rfl,
    fun _ hn => ⟨s.jobAt_upd_other g hn, rfl⟩, _, _, _, _, _, _, _, _, _, _, _, _, rfl⟩
theorem State.decStep_updJob (s : State) (b : Nat) (g : JobSt → JobSt) (hg : (s.jobAt b).runsOn (g (s.jobAt b))) : s.decStep (s.updJob b g) b :=
  ⟨s.engineStep_updJob b g, by rwa [State.jobAt_upd_self]⟩
theorem State.decStep_updDec (s : State) (b : Nat) (g : DecSt → DecSt) : s.decStep (s.updDec b g) b :=
  ⟨⟨fun _ _ _ _ => rfl, fun _ _ => rfl, fun _ _ h => h, id, fun _ _ _ => rfl, fun _ => s.dramOnly_refl _, fun _ _ => rfl,
    fun _ hn => ⟨rfl, s.decAt_upd_other g hn⟩, _, _, _, _, _, _, _, _, _, _, _, _, rfl⟩, JobSt.runsOn_refl _⟩
theorem State.decStep_lsWrite (s : State) (b : Nat) {a : Nat} {l : List Byte} (hlo : 0x300000 * b ≤ a) (hhi : a + l.length ≤ 0x300000 * b + 0x300000) :
    s.decStep (s.lsWrite a l) b := by
  refine ⟨⟨fun _ _ _ _ => rfl, fun _ _ => rfl, fun _ _ h => h, id, fun _ _ _ => rfl, fun _ => s.dramOnly_refl _, fun x hx => ?_,
    fun _ _ => ⟨rfl, rfl⟩, _, _, _, _, _, _, _, _, _, _, _, _, rfl⟩, JobSt.runsOn_refl _⟩
  have hout := hx _ (List.mem_singleton_self _)
  dsimp only at hout
  exact Memory.get_puts_apart _ _ (by omega)
theorem State.decStep_dramRead (s : State) (b a n src req : Nat) : s.decStep (s.dramRead a n src req).1 b := by
  have hstep := s.dramStep_dramRead a n src req s.recordBursts
  have hctrl := hstep.page _ pDMAC_notDram
  obtain ⟨r, d, w, m, k, ht⟩ := hstep.shape
  have hsame : (s.dramRead a n src req).1.job = s.job ∧ (s.dramRead a n src req).1.dec = s.dec ∧ (s.dramRead a n src req).1.lstore = s.lstore := by
    rw [ht]
    exact ⟨rfl, rfl, rfl⟩
  obtain ⟨hj, hd, hl⟩ := hsame
  refine ⟨⟨fun p hp _ => hstep.page p hp, fun f _ => hctrl f, fun i _ h => by rwa [hctrl], fun hs => ?_, hstep.rank, fun _ => hstep.only, fun x _ => by rw [hl],
    fun k _ => ?_, r, d, w, m, k, s.dramWait, s.job, s.dec, s.lstore, s.lsErr, s.lsRep, s.lastDec, ht⟩, ?_⟩
  · unfold State.ringPlaced State.jrecSize at hs ⊢
    simpa only [hctrl] using hs
  · unfold State.jobAt State.decAt
    rw [hj, hd]
    exact ⟨rfl, rfl⟩
  · unfold State.jobAt
    rw [hj]
    exact JobSt.runsOn_refl _
theorem State.decStep_lastDec (s : State) (b n : Nat) : s.decStep { s with lastDec := n } b :=
  ⟨⟨fun _ _ _ _ => rfl, fun _ _ => rfl, fun _ _ h => h, id, fun _ _ _ => rfl, fun _ => s.dramOnly_refl _, fun _ _ => rfl,
    fun _ _ => ⟨rfl, rfl⟩, _, _, _, _, _, _, _, _, _, _, _, _, rfl⟩, JobSt.runsOn_refl _⟩
/-- A step that only reports, on DMAC or DRAMC. -/
theorem State.decStep_reports {s t : State} (b : Nat) (h : s.reports t) (hget : ∀ p f, (p ≠ pDMAC ∧ p ≠ pDRAMC) ∨ (p = pDMAC ∧ f ∈ R.DMAC_JREC_WR :: engineKept) →
    t.get p f = s.get p f) (hraw : ∀ i < 32, bit (s.get pDMAC R.PG_IRQ_RAW) i = true → bit (t.get pDMAC R.PG_IRQ_RAW) i = true) : s.decStep t b := by
  have hctrl : ∀ f ∈ R.DMAC_JREC_WR :: engineKept, t.get pDMAC f = s.get pDMAC f := fun f hf => hget _ f (Or.inr ⟨rfl, hf⟩)
  have hrank : ∀ c r o, t.physRank c r o = s.physRank c r o := fun c r o => by
    have hdram : ∀ n f, t.get (pDRAM n) f = s.get (pDRAM n) f := fun n f => hget _ f (Or.inl (by unfold pDRAM pDMAC pDRAMC; omega))
    have hat : t.dramAt c = s.dramAt c := by
      obtain ⟨r, w, ht⟩ := h
      rw [ht]
      rfl
    unfold State.physRank State.rmap State.migPtr State.get64
    rw [hat]
    simp only [hdram]
  obtain ⟨r, w, ht⟩ := h
  refine ⟨⟨fun p hd hp f => hget p f (Or.inl ⟨hp, fun he => hd (Or.inl he)⟩), fun f hf => hctrl f (List.mem_cons_of_mem _ hf), hraw, fun hs => ?_, hrank,
    fun _ => ?_, fun _ _ => ?_, fun k _ => ?_, r, s.dram, w, s.dramMem, s.dramChk, s.dramWait, s.job, s.dec, s.lstore, s.lsErr, s.lsRep, s.lastDec, ht⟩, ?_⟩
  · unfold State.ringPlaced State.jrecSize at hs ⊢
    rwa [hctrl R.DMAC_JREC_WR (by simp), hctrl R.DMAC_JREC_CFG_LOG2 (by simp [engineKept])]
  · rw [ht]
    exact s.dramOnly_refl _
  · rw [ht]
  · rw [ht]
    exact ⟨rfl, rfl⟩
  · rw [ht]
    exact JobSt.runsOn_refl _

/-! ### Records of runs -/

theorem State.putRecord_apart (s : State) (r : List Byte) : (s.putRecord r).job = s.job ∧ (s.putRecord r).dec = s.dec ∧ (s.putRecord r).lstore = s.lstore := by
  have hrep : ∀ {t u : State}, t.reports u → u.job = t.job ∧ u.dec = t.dec ∧ u.lstore = t.lstore := fun h => by
    obtain ⟨x, w, hu⟩ := h
    rw [hu]
    exact ⟨rfl, rfl, rfl⟩
  have hput : ∀ a, (s.dramPut a r 0x4E).job = s.job ∧ (s.dramPut a r 0x4E).dec = s.dec ∧ (s.dramPut a r 0x4E).lstore = s.lstore := fun a => by
    unfold State.dramPut State.dramAsk
    split
    · obtain ⟨x, d, w, m, k, ht⟩ := (s.dramStep_dramWriteOpt a (r.map some) 0x4E).shape
      change (s.dramWriteOpt a (r.map some) 0x4E).job = _ ∧ (s.dramWriteOpt a (r.map some) 0x4E).dec = _ ∧ (s.dramWriteOpt a (r.map some) 0x4E).lstore = _
      rw [ht]
      exact ⟨rfl, rfl, rfl⟩
    · exact ⟨rfl, rfl, rfl⟩
  unfold State.putRecord
  dsimp only
  split
  · obtain ⟨h1, h2, h3⟩ := hput (s.get64 pDMAC R.DMAC_JREC_BASE_LO R.DMAC_JREC_BASE_HI + s.get pDMAC R.DMAC_JREC_WR)
    obtain ⟨k1, k2, k3⟩ := hrep (((s.dramPut (s.get64 pDMAC R.DMAC_JREC_BASE_LO R.DMAC_JREC_BASE_HI + s.get pDMAC R.DMAC_JREC_WR) r 0x4E).reports_set pDMAC
      R.DMAC_JREC_WR ((s.get pDMAC R.DMAC_JREC_WR + 32) % s.jrecSize)).trans (State.reports_cause _ pDMAC 5))
    exact ⟨k1.trans h1, k2.trans h2, k3.trans h3⟩
  · exact hrep ((s.reports_incSat _ _).trans (State.reports_cause _ _ _))
theorem State.decStep_putRecord (s : State) (b : Nat) {r : List Byte} (hr : r.length = 32) : s.decStep (s.putRecord r) b := by
  have hrec := s.recStep_putRecord hr
  have hraw := (s.headerKeeps_putRecord (p := pDMAC) r pDMAC_notDram).raw
  obtain ⟨hj, hd, hl⟩ := s.putRecord_apart r
  obtain ⟨x, d, w, m, k, q, j, ht⟩ := hrec.shape
  refine ⟨⟨hrec.page, fun f hf => hrec.ctrl f (by revert f; decide), hraw, hrec.placed, hrec.rank, hrec.only, fun a _ => by rw [hl], fun n _ => ?_,
    x, d, w, m, k, q, j, s.dec, s.lstore, s.lsErr, s.lsRep, s.lastDec, ht⟩, ?_⟩
  · unfold State.jobAt State.decAt
    rw [hj, hd]
    exact ⟨rfl, rfl⟩
  · unfold State.jobAt
    rw [hj]
    exact JobSt.runsOn_refl _
theorem State.decStep_closeRun (s : State) (b code tile : Nat) (next : Bool) : s.decStep (s.closeRun b code tile next) b := by
  unfold State.closeRun
  split
  · exact s.decStep_refl b
  · exact (s.decStep_updJob b _ ⟨_, _, _, rfl⟩).trans (State.decStep_putRecord _ b (Run.record_length _ _ _ _))
theorem State.decStep_runLine (s : State) (b code tile : Nat) (aff : Bool) (segs : Nat) (x : JobLine) : s.decStep (s.runLine b code tile aff segs x) b := by
  have hopen : ∀ t : State, t.decStep (if !aff then t.updJob b fun j => { j with carry := j.carry.filter fun c => c != (code, tile) }
      else match (t.jobAt b).runs.find? fun r => r.code == code && r.tile == tile with
        | some _ => t.updJob b fun j => { j with runs := j.runs.map fun r =>
            if r.code = code ∧ r.tile = tile then { r with lines := r.lines + 1, segMask := r.segMask ||| segs } else r }
        | none => t.updJob b fun j => { j with
            runs := j.runs ++ [⟨x.jobId, code, tile, j.carry.contains (code, tile), x.q, 1, x.line, segs⟩]
            carry := j.carry.filter fun c => c != (code, tile) }) b := fun t => by
    refine State.decStep_ite _ (t.decStep_updJob b _ ⟨_, _, _, rfl⟩) ?_
    split
    · exact t.decStep_updJob b _ ⟨_, _, _, rfl⟩
    · exact t.decStep_updJob b _ ⟨_, _, _, rfl⟩
  have hend : ∀ t : State, s.decStep t b → s.decStep (if x.last then t.closeRun b code tile true else t) b := fun t ht =>
    State.decStep_ite _ (ht.trans (t.decStep_closeRun _ _ _ _)) ht
  refine hend _ (State.decStep.trans (t := match (s.jobAt b).runs.find? fun r => r.code == code && r.tile == tile with
    | some r => if !aff then s.closeRun b code tile false
      else if (r.firstQ == idleId) != (x.q == idleId) || r.jobId != x.jobId then s.closeRun b code tile true else s
    | none => s) ?_ (hopen _))
  split
  · exact State.decStep_ite _ (s.decStep_closeRun _ _ _ _) (State.decStep_ite _ (s.decStep_closeRun _ _ _ _) (s.decStep_refl b))
  · exact s.decStep_refl b

/-! ### The decoder -/

theorem State.decStep_passRuns (s : State) (b : Nat) (j : Job) (m : Nat) : s.decStep (s.passRuns b j m) b := by
  unfold State.passRuns
  dsimp only
  split
  · exact s.decStep_refl b
  · exact (s.decStep_updDec b _).trans (State.decStep_foldl _ (fun t k => State.decStep_foldl _ (fun u c => u.decStep_runLine _ _ _ _ _ _) _ t) _ _)
theorem State.decStep_passEnd (s : State) (b : Nat) : s.decStep (s.passEnd b) b := by
  unfold State.passEnd
  refine State.decStep_foldl _ (fun t c => ?_) _ s
  exact State.decStep_ite _ (t.decStep_closeRun _ _ _ _) (t.decStep_updJob b _ ⟨_, _, _, rfl⟩)
/-- A write of a DMAC field that no engine keeps. -/
theorem State.decStep_set (s : State) (b : Nat) {f : Fld} (v : Nat) (hf : ∀ g ∈ R.DMAC_JREC_WR :: R.PG_IRQ_RAW :: engineKept, g.id ≠ f.id) :
    s.decStep (s.set pDMAC f v) b := by
  refine State.decStep_reports b (s.reports_set _ _ _) (fun p g h => s.get_set_ne _ ?_) fun i _ h => ?_
  · rcases h with ⟨hp, -⟩ | ⟨-, hg⟩
    · exact Or.inl hp
    · refine Or.inr (hf g ?_)
      rcases List.mem_cons.mp hg with rfl | hg
      · simp
      · exact List.mem_cons_of_mem _ (List.mem_cons_of_mem _ hg)
  · rwa [State.get_set_field _ _ _ (hf _ (by simp))]
/-- The positions of the raster streams. -/
def streamPos : List Fld := [R.DMAC_WPOS_LO, R.DMAC_WPOS_HI, R.DMAC_RPOS_LO, R.DMAC_RPOS_HI]
theorem streamPos_apart (b : Nat) : ∀ f ∈ streamPos, ∀ g ∈ R.DMAC_JREC_WR :: R.PG_IRQ_RAW :: engineKept, g.id ≠ (jf f b).id := by
  have hlow : ∀ g ∈ R.DMAC_JREC_WR :: R.PG_IRQ_RAW :: engineKept, g.id < 32 * 0x100 := by decide
  have hhigh : ∀ f ∈ streamPos, 32 * 0x100 ≤ f.id := by decide
  intro f hf g hg
  have h1 := hlow g hg
  have h2 := hhigh f hf
  unfold jf Fld.nth Fld.id at *
  dsimp only
  omega
theorem State.decStep_set64 (s : State) (b : Nat) {lo hi : Fld} (hlo : lo ∈ streamPos) (hhi : hi ∈ streamPos) (v : Nat) :
    s.decStep (s.set64 pDMAC (jf lo b) (jf hi b) v) b :=
  (s.decStep_set b _ (streamPos_apart b lo hlo)).trans (State.decStep_set _ b _ (streamPos_apart b hi hhi))
theorem State.decStep_closeLine (s : State) (b : Nat) (j : Job) : s.decStep (s.closeLine b j) b := by
  have hpass := s.decStep_passRuns b j (s.decAt b).m
  unfold State.closeLine
  exact (State.decStep_ite _ (hpass.trans (State.decStep_set64 _ b (by simp [streamPos]) (by simp [streamPos]) _)) hpass).trans (State.decStep_updDec _ b _)
/-- A place within a slot of the ring. -/
theorem slotAddr_within (b : Nat) (dot : Bool) (i : Nat) {o n : Nat} (h : o + n ≤ slotSize dot) :
    0x300000 * b ≤ slotAddr b dot i + o ∧ slotAddr b dot i + o + n ≤ 0x300000 * b + 0x300000 := by
  unfold slotAddr
  cases dot
  · have := Nat.mod_lt i (show 0 < nSlots false by decide)
    simp only [slotSize, nSlots, Bool.false_eq_true, if_false] at *
    omega
  · have := Nat.mod_lt i (show 0 < nSlots true by decide)
    simp only [slotSize, nSlots, if_true] at *
    omega
theorem segment_within (dot : Bool) {g : Nat} (hg : g < 16) : segOffset dot g + rawBytes dot g ≤ slotSize dot - 64 := by
  revert g
  cases dot <;> decide
theorem State.decStep_writeTrailer (s : State) (b : Nat) (x : Slot) : s.decStep (s.writeTrailer b x) b := by
  have hsize : slotSize (s.decAt b).dot - 64 + 64 ≤ slotSize (s.decAt b).dot := by
    unfold slotSize
    split <;> omega
  have hge : 64 ≤ slotSize (s.decAt b).dot := by
    unfold slotSize
    split <;> omega
  obtain ⟨hlo, hhi⟩ := slotAddr_within b (s.decAt b).dot x.idx hsize
  unfold State.writeTrailer
  refine s.decStep_lsWrite b (by omega) ?_
  simp only [List.length_append, leBytes_length, zeros_length]
  omega
theorem State.decStep_segErr (s : State) (b : Nat) (j : Job) (m seg code : Nat) : s.decStep (s.segErr b j m seg code) b := by
  unfold State.segErr State.updSlot
  exact State.decStep_ite _ (s.decStep_updDec b _) (s.decStep_updDec b _)
theorem State.decStep_segDone (s : State) (b : Nat) (j : Job) (m : Nat) {seg : Nat} (hseg : seg < 16) (raw : Option (List Byte)) (check : Option Nat) :
    s.decStep (s.segDone b j m seg raw check) b := by
  have hslot : ∀ (v : State) y (c : Prop) [Decidable c] g, s.decStep v b →
      s.decStep (if c then ((v.updSlot b j.first m fun _ => y).writeTrailer b y).updDec b g else (v.updSlot b j.first m fun _ => y).writeTrailer b y) b :=
    fun v y c _ g hv => by
      have htrailer : s.decStep ((v.updSlot b j.first m fun _ => y).writeTrailer b y) b := (hv.trans (v.decStep_updDec b _)).trans (State.decStep_writeTrailer _ b y)
      exact State.decStep_ite _ (htrailer.trans (State.decStep_updDec _ b g)) htrailer
  unfold State.segDone
  split
  · exact s.decStep_refl b
  next x _ =>
    cases raw with
    | some l =>
      have hin := segment_within (s.decAt b).dot hseg
      obtain ⟨hlo, hhi⟩ := slotAddr_within b (s.decAt b).dot x.idx (o := segOffset (s.decAt b).dot seg) (n := rawBytes (s.decAt b).dot seg) (by omega)
      refine hslot _ _ _ _ (s.decStep_lsWrite b hlo ?_)
      rw [List.length_take]
      omega
    | none => exact hslot _ _ _ _ (s.decStep_refl b)
theorem State.decStep_liveMask (s : State) (b : Nat) (j : Job) (m : Nat) : s.decStep (s.liveMask b j m).1 b := by
  unfold State.liveMask
  split
  · exact s.decStep_refl b
  · split
    · exact s.decStep_refl b
    · exact (s.decStep_dramRead b _ _ _ _).trans (State.decStep_lastDec _ b _)
theorem State.decStep_slotOpened (s : State) (b : Nat) (x : Slot) : s.decStep (s.slotOpened b x) b :=
  ((s.decStep_passEnd b).trans (State.decStep_updDec _ b _)).trans (State.decStep_writeTrailer _ b x)
theorem State.decStep_openLine (s : State) (b : Nat) (j : Job) : s.decStep (s.openLine b j) b := by
  have hsegs : ∀ (v : State) (c : Bool) (mask : Nat), v.decStep ((List.range 16).foldl (fun t g =>
      if c && !j.baseEn then t.segDone b j (s.decAt b).m g none none
      else if !j.baseEn && !bit mask g then t.segDone b j (s.decAt b).m g (some (zeros (rawBytes j.dot g))) none
      else t) v) b := fun v c mask => List.foldlRecOn (motive := fun t : State => v.decStep t b) _ _ (v.decStep_refl b) fun t ht g hg => by
    have hlt := List.mem_range.mp hg
    exact ht.trans (State.decStep_ite _ (t.decStep_segDone b j _ hlt _ _) (State.decStep_ite _ (t.decStep_segDone b j _ hlt _ _) (t.decStep_refl b)))
  have herrs : ∀ v : State, v.decStep ((List.range 16).foldl (fun t g => t.segErr b j (s.decAt b).m g 0x11)
      (v.updDec b fun d => { d with ctxValid := d.ctxValid &&& 0x55555555 })) b := fun v =>
    (v.decStep_updDec b _).trans (State.decStep_foldl _ (fun t g => t.decStep_segErr _ _ _ _ _) _ _)
  unfold State.openLine
  dsimp only
  split
  · exact s.decStep_refl b
  · refine State.decStep.trans ?_ (hsegs _ _ _)
    obtain ⟨r, hr⟩ : ∃ r, s.liveMask b j (s.decAt b).m = r := ⟨_, rfl⟩
    have hmask : s.decStep r.1 b := hr ▸ s.decStep_liveMask b j _
    rw [hr]
    have hlast : s.decStep (if (s.decAt b).m + 1 = j.samples then
        r.1.updJob b fun e => { e with lastGroup := e.lastGroup || e.jobs.length == (r.1.decAt b).jobIdx + 1 } else r.1) b :=
      State.decStep_ite _ (hmask.trans (r.1.decStep_updJob b _ ⟨_, _, _, rfl⟩)) hmask
    have hopen : ∀ (u : State) (c : Bool) x, s.decStep u b → s.decStep (if c then u else u.slotOpened b x) b := fun u c x hu =>
      State.decStep_ite _ hu (hu.trans (u.decStep_slotOpened b x))
    have hlost : ∀ u : State, s.decStep u b → s.decStep (if r.2.isSome then u else (List.range 16).foldl (fun t g => t.segErr b j (s.decAt b).m g 0x11)
        (u.updDec b fun d => { d with ctxValid := d.ctxValid &&& 0x55555555 })) b := fun u hu => State.decStep_ite _ hu (hu.trans (herrs u))
    exact hlost _ ((hopen _ _ _ hlast).trans (State.decStep_updDec _ b _))
theorem State.decStep_decSettle (s : State) (b n : Nat) : s.decStep (s.decSettle b n) b := by
  induction n generalizing s with
  | zero => exact s.decStep_refl b
  | succ n ih =>
    unfold State.decSettle
    dsimp only
    split
    · exact s.decStep_refl b
    · split
      · exact s.decStep_refl b
      · next j _ =>
        split_ifs
        · exact s.decStep_refl b
        · exact (s.decStep_updDec b _).trans (ih _)
        · exact (s.decStep_updDec b _).trans (ih _)
        · exact s.decStep_refl b
        · exact (s.decStep_openLine b j).trans (ih _)
        · exact s.decStep_openLine b j
        · exact (s.decStep_closeLine b j).trans (ih _)
        · exact s.decStep_refl b
/-- What the panic of a decoder counts lies on DRAMC. -/
theorem State.decStep_panicUpdate (s : State) (b : Nat) : s.decStep (s.panicUpdate b) b := by
  have hdramc : ∀ {t u : State}, t.reports u → (∀ p f, p ≠ pDRAMC → u.get p f = t.get p f) → t.decStep u b := fun h hget =>
    State.decStep_reports b h (fun p f hp => hget p f (by
      rcases hp with ⟨-, hp⟩ | ⟨rfl, -⟩
      · exact hp
      · decide)) fun i _ hb => by rwa [hget pDMAC _ (by decide)]
  unfold State.panicUpdate
  dsimp only
  split_ifs
  · exact s.decStep_updDec b _
  · exact s.decStep_refl b
  · exact ((s.decStep_updDec b _).trans (hdramc (State.reports_incSat _ _ _) fun p f hp => State.get_incSat_ne _ (Or.inl hp))).trans
      (hdramc (State.reports_cause _ _ _) fun p f hp => State.get_cause_ne _ _ (Or.inl hp))
  · exact s.decStep_refl b
theorem State.decStep_decGo (s : State) (b : Nat) : s.decStep (s.decGo b) b :=
  (s.decStep_decSettle b 300).trans (State.decStep_panicUpdate _ b)
end Sys2Proof.Machine
end

section
/-! ### The job engines' own steps (O37) -/
open Sys2Proof Sys2Proof.Machine
namespace Sys2Proof.Machine

/-! ### What waits for DRAM before an engine's descriptor -/

/-- A decoder's stream reads alike where DRAM does and the stream lies alike. -/
theorem State.streamRead_congr {s u : State} (hl : s.dramLike u) {b : Nat} {j : Job} {live : Bool} {p n : Nat}
    (hp : u.streamPieces b j live p n = s.streamPieces b j live p n) : (u.streamRead b j live p n).2 = (s.streamRead b j live p n).2 := by
  have hfold : ∀ (l : List (Nat × Nat)) (x : List Byte × Bool) (v t : State), v.dramLike t →
      (l.foldl (fun (r : State × List Byte × Bool) q =>
        let x := r.1.dramRead q.1 q.2 0 (0x40 + b)
        (x.1, r.2.1 ++ x.2.1, r.2.2 && x.2.2)) (t, x)).2 =
      (l.foldl (fun (r : State × List Byte × Bool) q =>
        let x := r.1.dramRead q.1 q.2 0 (0x40 + b)
        (x.1, r.2.1 ++ x.2.1, r.2.2 && x.2.2)) (v, x)).2 := fun l => by
    induction l with
    | nil => exact fun _ _ _ _ => rfl
    | cons q l ih =>
      intro x v t ht
      simp only [List.foldl_cons]
      obtain ⟨hv, hvl⟩ := v.dramRead_bytes q.1 q.2 0 (0x40 + b)
      obtain ⟨htv, htl⟩ := t.dramRead_bytes q.1 q.2 0 (0x40 + b)
      rw [hv, htv, ht.dramBytes]
      exact ih _ _ _ (hvl.symm.trans (ht.trans htl))
  unfold State.streamRead
  rw [hp]
  exact hfold _ _ _ _ hl
section
variable (s : State) (b : Nat) {g : JobSt → JobSt} (hg : ∀ x, (g x).running = x.running ∧ (g x).jobs = x.jobs ∧ (g x).prev = x.prev)
include hg
theorem State.jobAt_alike (k : Nat) : ((s.updJob b g).jobAt k).running = (s.jobAt k).running ∧ ((s.updJob b g).jobAt k).jobs = (s.jobAt k).jobs ∧
    ((s.updJob b g).jobAt k).prev = (s.jobAt k).prev := by
  by_cases hk : k = b
  · subst hk
    rw [State.jobAt_upd_self]
    exact hg _
  · rw [State.jobAt_upd_other _ _ hk]
    exact ⟨rfl, rfl, rfl⟩
theorem State.decChans_updJob (k : Nat) : (s.updJob b g).decChans k = s.decChans k := by
  obtain ⟨hrun, hjobs, hprev⟩ := s.jobAt_alike b hg k
  have hread : ∀ j live p n, ((s.updJob b g).streamRead k j live p n).2 = (s.streamRead k j live p n).2 := fun j live p n =>
    State.streamRead_congr (s := s) (u := s.updJob b g) ⟨rfl, rfl, rfl, rfl, fun _ _ _ => rfl⟩ rfl
  have hdec : (s.updJob b g).decAt k = s.decAt k := rfl
  have hpieces : ∀ j live p n, (s.updJob b g).streamPieces k j live p n = s.streamPieces k j live p n := fun _ _ _ _ => rfl
  have h64 : ∀ lo hi, (s.updJob b g).get64 pDMAC lo hi = s.get64 pDMAC lo hi := fun _ _ => rfl
  have hrecord : ∀ j live, (s.updJob b g).recordPieces k j live = s.recordPieces k j live := fun j live => by
    unfold State.recordPieces State.liveReady
    simp only [hread, hdec, hpieces, h64]
  have hissued : ∀ x, (s.updJob b g).issued k x = s.issued k x := fun x => by
    unfold State.issued
    rw [hprev]
  have hmask : ∀ j, (s.updJob b g).maskPieces k j = s.maskPieces k j := fun j => by
    have hlast : ∀ m, (s.updJob b g).lastUse k j m = s.lastUse k j m := fun _ => rfl
    unfold State.maskPieces State.ringFull
    simp only [hdec, hissued, hlast]
  have hjob : (s.updJob b g).decJob k = s.decJob k := by
    unfold State.decJob
    rw [hjobs, hdec]
  have hwork : (s.updJob b g).working (pDEC k) = s.working (pDEC k) := rfl
  unfold State.decChans
  simp only [hwork, hrun, hjob, hdec, hrecord, hmask]
/-- What waits for DRAM does not ask for an engine's next descriptor. -/
theorem State.chainFree_updJob (a n req : Nat) : (s.updJob b g).chainFree a n req = s.chainFree a n req := by
  have hport : ∀ a n req, (s.updJob b g).portFree a n req = s.portFree a n req := fun a n req => by
    have hfree : (s.updJob b g).dramFree a n req = s.dramFree a n req := rfl
    simp only [State.portFree, State.decFirst, s.decChans_updJob b hg, hfree]
  have hwait : ∀ lvl ch, (s.updJob b g).waitAhead lvl ch = s.waitAhead lvl ch := fun lvl ch => by
    have hw : (s.updJob b g).dramWait = s.dramWait := rfl
    simp only [State.waitAhead, hw, hport]
  have hreq : ∀ c, (s.updJob b g).dmaReq c = s.dmaReq c := fun c => by
    have hrun : ∀ k, ((s.updJob b g).jobAt k).running = (s.jobAt k).running := fun k => (s.jobAt_alike b hg k).1
    have h1 : (s.updJob b g).dmaOn c = s.dmaOn c := rfl
    have h2 : (s.updJob b g).dmaAt c = s.dmaAt c := rfl
    have h3 : ∀ was, (s.updJob b g).srcReq c was = s.srcReq c was := fun _ => rfl
    have h4 : ∀ was, (s.updJob b g).dstReq c was = s.dstReq c was := fun _ => rfl
    have h5 : ∀ k, (s.updJob b g).ringFree c k = s.ringFree c k := fun _ => rfl
    unfold State.dmaReq State.reqSrc State.reqDst
    simp only [h1, h2, h3, h4, h5, hrun]
  have hwants : ∀ c, (s.updJob b g).dmaWants c = s.dmaWants c := fun c => by
    have h2 : (s.updJob b g).dmaAt c = s.dmaAt c := rfl
    have h3 : ∀ d, (s.updJob b g).burstLen c d = s.burstLen c d := fun _ => rfl
    have h4 : ∀ d, (s.updJob b g).dmaTouches c d = s.dmaTouches c d := fun _ => rfl
    have h5 : ∀ d, (s.updJob b g).dmaLevel c d = s.dmaLevel c d := fun _ => rfl
    simp only [State.dmaWants, State.dmaServed, hreq, h2, h3, h4, h5, hport, hwait]
  have hahead : ∀ lvl ch, (s.updJob b g).dmaAhead lvl ch = s.dmaAhead lvl ch := fun lvl ch => by
    unfold State.dmaAhead
    congr 1
    funext c
    rw [hwants]
    rfl
  unfold State.chainFree State.dramServed
  rw [hport, hwait, hahead]
end

/-! ### Failing, skipping and taking a descriptor -/

theorem State.bit_err64_keeps (s : State) {p i : Nat} (hi : i < 32) (code src a : Nat) (h : bit (s.get p R.PG_IRQ_RAW) i = true) :
    bit ((s.err64 p code src a).get p R.PG_IRQ_RAW) i = true := by
  unfold State.err64 State.err
  split
  · exact h
  · refine State.bit_cause_keeps _ hi ?_
    rwa [s.errCount_keeps p code src a (a / 2 ^ 32) (by decide)]
theorem State.decStep_err64 (s : State) (b code src a : Nat) : s.decStep (s.err64 pDMAC code src a) b := by
  have hbut : s.regsBut (s.err64 pDMAC code src a) (errFields pDMAC) := State.regsBut_err (s.regsBut_refl _) _ _ _ _ _ _ (List.Subset.refl _)
  have herr : ∀ e ∈ errFields pDMAC, e.1 = pDMAC ∧ ∀ f ∈ R.DMAC_JREC_WR :: engineKept, f.id ≠ e.2.id := by decide
  refine State.decStep_reports b (s.reports_err _ _ _ _ _ _) (fun p f hp => hbut p f fun e he => ?_) fun i hi h => s.bit_err64_keeps hi code src a h
  obtain ⟨hpage, hids⟩ := herr e he
  rcases hp with ⟨hp, -⟩ | ⟨-, hf⟩
  · exact Or.inl fun h => hp (h.trans hpage)
  · exact Or.inr (hids f hf)
theorem State.decStep_cause (s : State) (b i : Nat) : s.decStep (s.cause pDMAC i) b :=
  State.decStep_reports b (s.reports_cause _ _) (fun p f hp => by
    rcases hp with ⟨hp, -⟩ | ⟨-, hf⟩
    · exact s.get_cause_ne i (Or.inl hp)
    · exact s.get_cause_ne i (Or.inr (by revert f; decide))) fun _ hj h => s.bit_cause_keeps hj h
theorem State.decStep.frozen {s t : State} {b : Nat} (h : s.decStep t b) : t.frozen pDMAC = s.frozen pDMAC :=
  State.frozen_congr (h.ctrl _ (by simp [engineKept]))
/-- An engine that parks with a failed descriptor. -/
theorem State.jobFail_spec (s : State) (b addr code : Nat) (taken : Bool) {t : State} (ht : s.jobFail b addr code taken = t) : s.engineStep t b ∧
    (t.jobAt b = { s.jobAt b with parked := true, jerr := true, tail := some addr, failed := !taken, next := none }) ∧
    (s.fenced pDMAC = false → bit (t.get pDMAC R.PG_IRQ_RAW) 8 = true) := by
  obtain ⟨u, hu⟩ : ∃ u, s.err64 pDMAC code b addr = u := ⟨_, rfl⟩
  have hsu : s.decStep u b := hu ▸ s.decStep_err64 b code b addr
  have hat : u.jobAt b = s.jobAt b := by
    obtain ⟨r, w, h⟩ := s.reports_err pDMAC code b addr (addr / 2 ^ 32) 0
    rw [← hu]
    unfold State.err64
    rw [h]
    rfl
  obtain ⟨v, hv⟩ : ∃ v, (u.updJob b fun j => { j with parked := true, jerr := true, tail := some addr, failed := !taken, next := none }) = v := ⟨_, rfl⟩
  have huv : u.engineStep v b := hv ▸ u.engineStep_updJob b _
  have hvt : v.cause pDMAC 8 = t := by
    rw [← ht, ← hv, ← hu]
    rfl
  refine ⟨(hsu.toengineStep.trans huv).trans (hvt ▸ (v.decStep_cause b 8).toengineStep), ?_, fun hf => ?_⟩
  · obtain ⟨r, w, h⟩ := v.reports_cause pDMAC 8
    have hjob : t.jobAt b = v.jobAt b := by
      rw [← hvt, h]
      rfl
    rw [hjob, ← hv, State.jobAt_upd_self, hat]
  · rw [← hvt]
    refine v.bit_cause (by decide) ?_
    have hfen : v.frozen pDMAC = u.frozen pDMAC := State.frozen_congr (huv.ctrl _ (by simp [engineKept]))
    rw [hfen, hsu.frozen]
    exact State.frozen_of_unfenced hf
/-- A job that an engine passes over. -/
def JobSt.skipped (x : JobSt) (addr ctrl : Nat) : JobSt :=
  if bit ctrl 0 then { x with parked := true, jerr := false, tail := some addr, failed := false, next := none }
  else { x with parked := false, jerr := false, tail := none, next := some (field ctrl 32 32 * 64) }
theorem State.jobSkip_spec (s : State) (b addr ctrl : Nat) {t : State} (ht : s.jobSkip b addr ctrl = t) : s.engineStep t b ∧
    t.jobAt b = (s.jobAt b).skipped addr ctrl := by
  obtain ⟨u, hu⟩ : ∃ u, s.err64 pDMAC 0x31 b addr = u := ⟨_, rfl⟩
  have hsu : s.decStep u b := hu ▸ s.decStep_err64 b 0x31 b addr
  have hat : u.jobAt b = s.jobAt b := by
    obtain ⟨r, w, h⟩ := s.reports_err pDMAC 0x31 b addr (addr / 2 ^ 32) 0
    rw [← hu]
    unfold State.err64
    rw [h]
    rfl
  have hvt : (u.updJob b fun x => x.skipped addr ctrl) = t := by
    rw [← ht, ← hu]
    rfl
  refine ⟨hsu.toengineStep.trans (hvt ▸ u.engineStep_updJob b _), ?_⟩
  rw [← hvt, State.jobAt_upd_self, hat]
/-- What a late job changes: its mark and the runs. -/
def JobSt.lateOn (x y : JobSt) : Prop := ∃ rs cs g l, y = { x with runs := rs, carry := cs, lastGroup := g, jobs := x.jobs.map l } ∧
  ∀ k : Job, (l k).addr = k.addr ∧ (l k).first = k.first ∧ (l k).jobId = k.jobId
theorem JobSt.runsOn.late {x y : JobSt} (h : x.runsOn y) : x.lateOn y := by
  obtain ⟨r, c, g, rfl⟩ := h
  exact ⟨r, c, g, id, by simp, fun _ => ⟨rfl, rfl, rfl⟩⟩
theorem JobSt.lateOn.trans {x y z : JobSt} (h : x.lateOn y) (k : y.lateOn z) : x.lateOn z := by
  obtain ⟨r, c, g, l, rfl, hl⟩ := h
  obtain ⟨r', c', g', l', rfl, hl'⟩ := k
  refine ⟨r', c', g', l' ∘ l, by simp, fun j => ?_⟩
  obtain ⟨h1, h2, h3⟩ := hl j
  obtain ⟨k1, k2, k3⟩ := hl' (l j)
  exact ⟨k1.trans h1, k2.trans h2, k3.trans h3⟩
theorem State.jobLate_spec (s : State) (b : Nat) (j : Job) {t : State} (ht : s.jobLate b j = t) : s.engineStep t b ∧ (s.jobAt b).lateOn (t.jobAt b) := by
  subst ht
  unfold State.jobLate
  split
  · exact ⟨s.engineStep_refl b, (JobSt.runsOn_refl _).late⟩
  next p _ =>
    split
    · exact ⟨s.engineStep_refl b, (JobSt.runsOn_refl _).late⟩
    · dsimp only
      generalize min ((diff32 p.1 j.first).toNat + 1) j.total = n
      have hclose := s.decStep_closeRun b 0x32 0xFF false
      obtain ⟨u, hu⟩ : ∃ u, s.closeRun b 0x32 0xFF false = u := ⟨_, rfl⟩
      rw [hu] at hclose ⊢
      obtain ⟨v, hv⟩ : ∃ v, (u.updJob b fun e => { e with
        runs := e.runs ++ [⟨j.jobId, 0x32, 0xFF, e.carry.contains (0x32, 0xFF), 0, n, j.first, 0xFFFF⟩]
        jobs := e.jobs.map fun x => if x.addr = j.addr ∧ x.first = j.first then { x with late := true } else x }) = v := ⟨_, rfl⟩
      have huv : u.engineStep v b := hv ▸ u.engineStep_updJob b _
      have hlate : (u.jobAt b).lateOn (v.jobAt b) := by
        rw [← hv, State.jobAt_upd_self]
        exact ⟨_, _, _, _, rfl, fun k => by split <;> exact ⟨rfl, rfl, rfl⟩⟩
      rw [hv]
      have hend : v.decStep ((if n = j.total then v.closeRun b 0x32 0xFF true else v).cause pDMAC 7) b :=
        (State.decStep_ite _ (v.decStep_closeRun b 0x32 0xFF true) (v.decStep_refl b)).trans (State.decStep_cause _ b 7)
      exact ⟨(hclose.toengineStep.trans huv).trans hend.toengineStep, (hclose.own.late.trans hlate).trans hend.own.late⟩
theorem State.jobAt_dramRead (s : State) (a n src req b : Nat) : (s.dramRead a n src req).1.jobAt b = s.jobAt b := by
  obtain ⟨r, d, w, m, k, ht⟩ := (s.dramStep_dramRead a n src req []).shape
  rw [ht]
  rfl
theorem State.jobTaken_spec (s : State) (b addr first : Nat) (d : List Byte) {t : State} (ht : s.jobTaken b addr first d = t) : s.engineStep t b ∧
    JobSt.lateOn { s.jobAt b with
      jobs := (s.jobAt b).jobs ++ [jobOf d addr first], chainEnd := some (jobOf d addr first).after, tail := some addr, lastGroup := false, parked := false,
      jerr := false, failed := false, next := none } (t.jobAt b) := by
  obtain ⟨u, hu⟩ : ∃ u, (s.updJob b fun e => { e with
    jobs := e.jobs ++ [jobOf d addr first], chainEnd := some (jobOf d addr first).after, tail := some addr, lastGroup := false, parked := false,
    jerr := false, failed := false, next := none }) = u := ⟨_, rfl⟩
  have hsu : s.engineStep u b := hu ▸ s.engineStep_updJob b _
  have hat : u.jobAt b = { s.jobAt b with
      jobs := (s.jobAt b).jobs ++ [jobOf d addr first], chainEnd := some (jobOf d addr first).after, tail := some addr, lastGroup := false, parked := false,
      jerr := false, failed := false, next := none } := by
    rw [← hu, State.jobAt_upd_self]
  have hdef : u.jobLate b (jobOf d addr first) = t := by
    rw [← ht, ← hu]
    rfl
  obtain ⟨h1, h2⟩ := u.jobLate_spec b _ hdef
  rw [hat] at h2
  exact ⟨hsu.trans h1, h2⟩
/-- What an engine does with a good descriptor: it takes the job, or passes it over. -/
def State.jobChosen (r : State) (b addr : Nat) (d : List Byte) : State :=
  match bit (leAt d 0 8) 19, (r.jobAt b).chainEnd with
  | false, none => r.jobSkip b addr (leAt d 0 8)
  | start, prev =>
    if diff32 (if start then leAt d 24 4 else prev.getD (leAt d 24 4)) (prev.getD (if start then leAt d 24 4 else prev.getD (leAt d 24 4))) < 0 then
      r.jobSkip b addr (leAt d 0 8)
    else r.jobTaken b addr (if start then leAt d 24 4 else prev.getD (leAt d 24 4)) d
/-- What a read of the descriptor makes of the engine. -/
def State.jobRead (s r : State) (b addr : Nat) (d : List Byte) (ok : Bool) : State :=
  if !ok then r.jobFail b addr 0x11 false
  else if !s.jobGood d then r.jobFail b addr 0x31 false
  else r.jobChosen b addr d
theorem State.jobTake_eq (s : State) (b addr : Nat) : s.jobTake b addr =
    if s.dramReady && s.dramSize ≤ addr then s.jobFail b addr 0x31 false
    else if !s.chainFree addr 64 0x4C then s.updJob b fun e => { e with next := some addr, parked := false, jerr := false }
    else s.jobRead (s.dramRead addr 64 3 0x4C).1 b addr (s.dramRead addr 64 3 0x4C).2.1 (s.dramRead addr 64 3 0x4C).2.2 := rfl
theorem State.engineStep_jobRead (s r : State) (b addr : Nat) (d : List Byte) (ok : Bool) : r.engineStep (s.jobRead r b addr d ok) b ∧
    ((s.jobRead r b addr d ok).jobAt b).running = (r.jobAt b).running := by
  have hfail : ∀ code, r.engineStep (r.jobFail b addr code false) b ∧ ((r.jobFail b addr code false).jobAt b).running = (r.jobAt b).running := fun code => by
    obtain ⟨h1, h2, -⟩ := r.jobFail_spec b addr code false rfl
    exact ⟨h1, by rw [h2]⟩
  have hskip : ∀ c, r.engineStep (r.jobSkip b addr c) b ∧ ((r.jobSkip b addr c).jobAt b).running = (r.jobAt b).running := fun c => by
    obtain ⟨h1, h2⟩ := r.jobSkip_spec b addr c rfl
    refine ⟨h1, ?_⟩
    rw [h2]
    unfold JobSt.skipped
    split <;> rfl
  have htaken : ∀ first, r.engineStep (r.jobTaken b addr first d) b ∧ ((r.jobTaken b addr first d).jobAt b).running = (r.jobAt b).running := fun first => by
    obtain ⟨h1, x, c, g, l, h2, -⟩ := r.jobTaken_spec b addr first d rfl
    exact ⟨h1, by rw [h2]⟩
  have hnext : ∀ c first (p : Prop) [Decidable p], r.engineStep (if p then r.jobSkip b addr c else r.jobTaken b addr first d) b ∧
      ((if p then r.jobSkip b addr c else r.jobTaken b addr first d).jobAt b).running = (r.jobAt b).running := fun c first p _ => by
    split
    · exact hskip _
    · exact htaken _
  unfold State.jobRead
  split
  · exact hfail _
  · split
    · exact hfail _
    · unfold State.jobChosen
      split
      · exact hskip _
      · exact hnext _ _ _
theorem State.engineStep_jobTake (s : State) (b addr : Nat) : s.engineStep (s.jobTake b addr) b ∧ ((s.jobTake b addr).jobAt b).running = (s.jobAt b).running := by
  rw [s.jobTake_eq]
  split
  · obtain ⟨h1, h2, -⟩ := s.jobFail_spec b addr 0x31 false rfl
    exact ⟨h1, by rw [h2]⟩
  · split
    · exact ⟨s.engineStep_updJob b _, by rw [State.jobAt_upd_self]⟩
    · obtain ⟨h1, h2⟩ := s.engineStep_jobRead (s.dramRead addr 64 3 0x4C).1 b addr (s.dramRead addr 64 3 0x4C).2.1 (s.dramRead addr 64 3 0x4C).2.2
      exact ⟨(s.decStep_dramRead b _ _ _ _).toengineStep.trans h1, h2.trans (by rw [s.jobAt_dramRead])⟩
theorem State.engineStep_jobReread (s : State) (b addr : Nat) : s.engineStep (s.jobReread b addr) b ∧ ((s.jobReread b addr).jobAt b).running = (s.jobAt b).running := by
  obtain ⟨u, hu⟩ : ∃ u, ((s.dramRead addr 8 3 0x4C).1.updJob b fun e => { e with dbPend := false, redo := false }) = u := ⟨_, rfl⟩
  have hsu : s.engineStep u b := hu ▸ (s.decStep_dramRead b _ _ _ _).toengineStep.trans (State.engineStep_updJob _ b _)
  have hrun : (u.jobAt b).running = (s.jobAt b).running := by
    rw [← hu, State.jobAt_upd_self, s.jobAt_dramRead]
  have hupd : ∀ g : JobSt → JobSt, (∀ x, (g x).running = x.running) → s.engineStep (u.updJob b g) b ∧ ((u.updJob b g).jobAt b).running = (s.jobAt b).running :=
    fun g hg => ⟨hsu.trans (u.engineStep_updJob b g), by rw [State.jobAt_upd_self, hg, hrun]⟩
  unfold State.jobReread
  dsimp only
  rw [hu]
  split
  · obtain ⟨h1, h2, -⟩ := u.jobFail_spec b addr 0x11 true rfl
    exact ⟨hsu.trans h1, by rw [h2]; exact hrun⟩
  · split
    · exact hupd _ fun _ => rfl
    · obtain ⟨h1, h2⟩ := hupd (fun e => { e with parked := false, jerr := false }) fun _ => rfl
      obtain ⟨k1, k2⟩ := (u.updJob b fun e => { e with parked := false, jerr := false }).engineStep_jobTake b (field (leNat (s.dramRead addr 8 3 0x4C).2.1) 32 32 * 64)
      exact ⟨h1.trans k1, k2.trans h2⟩
theorem State.engineStep_jobFetch (s : State) (b : Nat) : s.engineStep (s.jobFetch b) b ∧ ((s.jobFetch b).jobAt b).running = (s.jobAt b).running := by
  have htake : ∀ (g : JobSt → JobSt) a, (∀ x, (g x).running = x.running) → s.engineStep ((s.updJob b g).jobTake b a) b ∧
      (((s.updJob b g).jobTake b a).jobAt b).running = (s.jobAt b).running := fun g a hg => by
    obtain ⟨h1, h2⟩ := (s.updJob b g).engineStep_jobTake b a
    exact ⟨(s.engineStep_updJob b g).trans h1, by rw [h2, State.jobAt_upd_self, hg]⟩
  have hself : s.engineStep s b ∧ (s.jobAt b).running = (s.jobAt b).running := ⟨s.engineStep_refl b, rfl⟩
  unfold State.jobFetch
  dsimp only
  split
  · exact hself
  · split
    · exact htake _ _ fun _ => rfl
    · split_ifs
      · exact hself
      · exact hself
      · exact htake _ _ fun _ => rfl
      · exact s.engineStep_jobReread b _
      · exact s.engineStep_jobReread b _
      · exact hself
    · exact hself
end Sys2Proof.Machine
end

section
/-! ### The job engines' commands (O37) -/
open Sys2Proof Sys2Proof.Machine
namespace Sys2Proof.Machine

/-- Steps of several engines. -/
structure State.enginesStep (s t : State) (r : List (Nat × Nat)) : Prop where
  placed : s.ringPlaced → t.ringPlaced
  bursts : t.recordBursts = s.recordBursts
  keys : ∀ a, t.burstKey a = s.burstKey a ∧ t.burstChk a = s.burstChk a
  only : s.ringPlaced → s.dramOnly t s.recordBursts
  ring : s.lsWithin t r
  wanted : t.jobWanted = s.jobWanted
  ctrl : t.get pDMAC R.DMAC_CTRL = s.get pDMAC R.DMAC_CTRL
  same : t.pending = s.pending ∧ t.flash = s.flash
theorem State.enginesStep_refl (s : State) (r : List (Nat × Nat)) : s.enginesStep s r :=
  ⟨id, rfl, fun _ => ⟨rfl, rfl⟩, fun _ => s.dramOnly_refl _, fun _ _ => rfl, rfl, rfl, rfl, rfl⟩
theorem State.enginesStep.trans {s t u : State} {r : List (Nat × Nat)} (h : s.enginesStep t r) (k : t.enginesStep u r) : s.enginesStep u r := by
  refine ⟨fun hs => k.placed (h.placed hs), k.bursts.trans h.bursts, fun a => ⟨(k.keys a).1.trans (h.keys a).1, (k.keys a).2.trans (h.keys a).2⟩, fun hs => ?_,
    fun a ha => (k.ring a ha).trans (h.ring a ha), k.wanted.trans h.wanted, k.ctrl.trans h.ctrl, k.same.1.trans h.same.1, k.same.2.trans h.same.2⟩
  have hk := k.only (h.placed hs)
  rw [h.bursts] at hk
  refine ⟨fun a ha => ?_, fun a ha => ?_⟩
  · exact (hk.1 a fun x hx => by rw [(h.keys x).1]; exact ha x hx).trans ((h.only hs).1 a ha)
  · exact (hk.2 a fun x hx => by rw [(h.keys x).2]; exact ha x hx).trans ((h.only hs).2 a ha)
/-- A range of the line store lies among others. -/
def ringIn (b : Nat) (r : List (Nat × Nat)) : Prop := ∀ a, (∀ e ∈ r, a < e.1 ∨ e.1 + e.2 ≤ a) → a < 0x300000 * b ∨ 0x300000 * b + 0x300000 ≤ a
theorem State.engineStep.several {s t : State} {b : Nat} (h : s.engineStep t b) {r : List (Nat × Nat)} (hr : ringIn b r) : s.enginesStep t r := by
  refine ⟨h.placed, h.bursts, h.keys, h.only, fun a ha => h.ring a fun e he => ?_, h.wanted, h.ctrl _ (by simp [engineKept]), h.records.1, h.records.2.1⟩
  rw [List.mem_singleton.mp he]
  exact hr a ha
theorem State.enginesStep.records {s t : State} {r : List (Nat × Nat)} (h : s.enginesStep t r) : s.recordsOnly t [] := by
  refine ⟨h.same.1, h.same.2, fun hmod hlt => ?_⟩
  rw [List.append_nil]
  exact h.only ⟨hmod, hlt⟩
/-- Steps of engines, one after another, each on its own. -/
theorem State.enginesStep_each (g : State → Nat → State) (hg : ∀ (t : State) b, t.engineStep (g t b) b) {r : List (Nat × Nat)} (l : List Nat)
    (hl : ∀ b ∈ l, ringIn b r) (hd : l.Nodup) (s : State) {t : State} (ht : s.each l g = t) : s.enginesStep t r ∧
    (∀ k, k ∉ l → t.jobAt k = s.jobAt k ∧ t.decAt k = s.decAt k) ∧ ∀ k ∈ l, ∃ v, v.jobAt k = s.jobAt k ∧ s.enginesStep v r ∧ t.jobAt k = (g v k).jobAt k := by
  induction l generalizing s with
  | nil =>
    subst ht
    exact ⟨s.enginesStep_refl r, fun _ _ => ⟨rfl, rfl⟩, fun k hk => absurd hk List.not_mem_nil⟩
  | cons c l ih =>
    obtain ⟨hc, hl'⟩ := List.forall_mem_cons.mp hl
    obtain ⟨hcl, hnd⟩ := List.nodup_cons.mp hd
    have hstep := hg s c
    obtain ⟨i1, i2, i3⟩ := ih hl' hnd (g s c) ht
    refine ⟨(hstep.several hc).trans i1, fun k hk => ?_, fun k hk => ?_⟩
    · obtain ⟨hkc, hkl⟩ := not_or.mp fun h => hk (List.mem_cons.mpr h)
      obtain ⟨h1, h2⟩ := i2 k hkl
      obtain ⟨k1, k2⟩ := hstep.others k hkc
      exact ⟨h1.trans k1, h2.trans k2⟩
    · by_cases hkc : k = c
      · subst hkc
        exact ⟨s, rfl, s.enginesStep_refl r, (i2 k hcl).1⟩
      · obtain ⟨v, hv, hsv, hvt⟩ := i3 k ((List.mem_cons.mp hk).resolve_left hkc)
        exact ⟨v, hv.trans (hstep.others k hkc).1, (hstep.several hc).trans hsv, hvt⟩

/-! ### JE_EN: engines start and stop (R177) -/

theorem State.engineStep_jobStart (s : State) (b : Nat) : s.engineStep (s.jobStart b) b ∧ ((s.jobStart b).jobAt b).running = true := by
  obtain ⟨u, hu⟩ : ∃ u, (s.set64 pDMAC (jf R.DMAC_WPOS_LO b) (jf R.DMAC_WPOS_HI b) 0).set64 pDMAC (jf R.DMAC_RPOS_LO b) (jf R.DMAC_RPOS_HI b) 0 = u := ⟨_, rfl⟩
  have hsu : s.decStep u b := hu ▸ (s.decStep_set64 b (by simp [streamPos]) (by simp [streamPos]) 0).trans
    (State.decStep_set64 _ b (by simp [streamPos]) (by simp [streamPos]) 0)
  unfold State.jobStart
  dsimp only
  rw [hu]
  generalize hv : u.updJob b _ = v
  have huv : u.engineStep v b := hv ▸ u.engineStep_updJob b _
  obtain ⟨h1, h2⟩ := v.engineStep_jobFetch b
  refine ⟨(hsu.toengineStep.trans huv).trans h1, ?_⟩
  rw [h2, ← hv, State.jobAt_upd_self]
theorem State.engineStep_jobStop (s : State) (b : Nat) : s.engineStep (s.jobStop b) b ∧ ((s.jobStop b).jobAt b).running = false := by
  have hflush : s.decStep (s.passFlush b) b := by
    unfold State.passFlush
    split
    · exact s.decStep_passRuns b _ _
    · exact s.decStep_refl b
  have hstop : ∀ (t : State) g, t.engineStep ((t.updJob b g).decDiscard b) b := fun t g => (t.engineStep_updJob b g).trans (State.decStep_updDec _ b _).toengineStep
  refine ⟨hflush.toengineStep.trans (hstop _ _), ?_⟩
  have h := s.runs_jobStop b b
  rw [if_pos rfl] at h
  exact h
/-- One engine follows its bit of DMAC_CTRL. -/
def State.jobFollow (t : State) (b : Nat) : State :=
  if t.jobWanted b && !(t.jobAt b).running then t.jobStart b else if !t.jobWanted b && (t.jobAt b).running then t.jobStop b else t
theorem State.jobFollow_spec (s : State) (b : Nat) : s.engineStep (s.jobFollow b) b ∧ ((s.jobFollow b).jobAt b).running = s.jobWanted b := by
  unfold State.jobFollow
  split
  · next h =>
    obtain ⟨h1, h2⟩ := s.engineStep_jobStart b
    exact ⟨h1, by rw [h2]; simp_all⟩
  · split
    · next h =>
      obtain ⟨h1, h2⟩ := s.engineStep_jobStop b
      exact ⟨h1, by rw [h2]; simp_all⟩
    · next h1 h2 =>
      refine ⟨s.engineStep_refl b, ?_⟩
      revert h1 h2
      cases s.jobWanted b <;> cases (s.jobAt b).running <;> simp
theorem ringIn_all : ∀ b ∈ List.range 8, ringIn b [(0, 0x1800000)] := fun b hb a ha => by
  have h := ha _ (List.mem_singleton_self _)
  have := List.mem_range.mp hb
  dsimp only at h
  omega
/-- The engines follow DMAC_CTRL, and the decoders go on. -/
theorem State.enginesFollow_spec (s : State) {t : State} (ht : s.jobSettle.each (List.range 8) State.decGo = t) : s.enginesStep t [(0, 0x1800000)] ∧
    ∀ b < 8, (t.jobAt b).running = s.jobWanted b := by
  obtain ⟨u, hu⟩ : ∃ u, s.each (List.range 8) State.jobFollow = u := ⟨_, rfl⟩
  have hdef : u.each (List.range 8) State.decGo = t := by
    rw [← ht, ← hu]
    rfl
  obtain ⟨h1, -, h3⟩ := State.enginesStep_each State.jobFollow (fun t b => (t.jobFollow_spec b).1) (List.range 8) ringIn_all List.nodup_range s hu
  obtain ⟨k1, -, k3⟩ := State.enginesStep_each State.decGo (fun t b => (t.decStep_decGo b).toengineStep) (List.range 8) ringIn_all List.nodup_range u hdef
  refine ⟨h1.trans k1, fun b hb => ?_⟩
  obtain ⟨v, -, hsv, hvu⟩ := h3 b (List.mem_range.mpr hb)
  obtain ⟨w, hwu, -, hwt⟩ := k3 b (List.mem_range.mpr hb)
  obtain ⟨x, y, z, hown⟩ := (w.decStep_decGo b).own
  rw [hwt, hown]
  change (w.jobAt b).running = _
  rw [hwu, hvu, (v.jobFollow_spec b).2, hsv.wanted]
theorem State.settleClaims_dmac (s : State) (off : Nat) : s.settleClaims pDMAC off = s := by
  unfold State.settleClaims
  rw [List.filter_eq_nil_iff.2, List.foldl_nil]
  have hpage : ∀ o ∈ s.owners, o.page ≠ pDMAC := by
    simp only [State.owners, List.mem_append, List.mem_map, List.mem_flatMap, List.mem_cons, List.not_mem_nil, or_false]
    rintro o ((((((⟨k, -, rfl⟩ | ⟨k, -, rfl⟩) | rfl) | ⟨k, -, rfl⟩) | ⟨k, -, rfl | rfl⟩) | ⟨k, -, rfl | rfl | rfl | rfl⟩) |
      rfl | rfl | rfl | rfl)
    all_goals simp only [pPINMUX, pTIME, pBREATH, pFEED, pENC, pCAM, pCHANT, pCAL, pDMAC]
    all_goals omega
  intro o ho
  simp [hpage o ho]
theorem State.storeReg_jobEn (s : State) (mask : Byte) : s.storeReg pDMAC 0x40 mask.toNat = s.set pDMAC R.DMAC_CTRL mask.toNat := by
  have hwrong : s.wrongState .dmac R.DMAC_CTRL = false := by
    have hne : ∀ i < 8, (R.DMAC_CTRL == R.DMAC_RBASE_LO.nth 0x40 i || R.DMAC_CTRL == R.DMAC_RBASE_HI.nth 0x40 i || R.DMAC_CTRL == R.DMAC_RCFG.nth 0x40 i) = false := by
      decide
    unfold State.wrongState
    refine List.any_eq_false.mpr fun i hi => ?_
    rw [hne i (List.mem_range.mp hi)]
    simp
  have hfield : field mask.toNat 0 8 = mask.toNat := by
    have := mask.isLt
    unfold field
    omega
  unfold State.storeReg
  rw [show blkOf pDMAC = some (.dmac, 0) from rfl]
  dsimp only
  rw [show fieldsAt .dmac 0 0x40 = [R.DMAC_CTRL] by decide, List.foldl_cons, List.foldl_nil, State.settleClaims_dmac]
  unfold State.storeField
  rw [hwrong]
  exact congrArg (s.set pDMAC R.DMAC_CTRL) hfield
/-- The clause of O37 on DMAC_CTRL. -/
theorem State.jeEn_spec (s : State) (mask : Byte) (h : s.accepts pDMAC 0x40 mask.toNat) : ∃ t, exec (.jeEn mask) s = .next t ∧
    t.get pDMAC R.DMAC_CTRL = mask.toNat ∧ (∀ b < 8, (t.jobAt b).running = (s.working pDMAC && bit mask.toNat b)) ∧
    s.recordsOnly t [] ∧ s.lsWithin t [(0, 0x1800000)] := by
  obtain ⟨u, hu⟩ : ∃ u, s.set pDMAC R.DMAC_CTRL mask.toNat = u := ⟨_, rfl⟩
  have hget : ∀ q f, (q ≠ pDMAC ∨ f.id ≠ R.DMAC_CTRL.id) → u.get q f = s.get q f := fun q f hq => hu ▸ s.get_set_ne _ hq
  have hctrl : u.get pDMAC R.DMAC_CTRL = mask.toNat := by
    rw [← hu, State.get_set_self]
    exact Nat.mod_eq_of_lt mask.isLt
  have hwork : u.working pDMAC = s.working pDMAC := by
    have hsame : u.srsts = s.srsts ∧ u.heldReset = s.heldReset := by
      rw [← hu]
      exact ⟨rfl, rfl⟩
    unfold State.working State.enabled State.fenced State.resetting State.held State.shut State.flag
    rw [hsame.1, hsame.2, hget _ _ (Or.inr (by decide)), hget _ _ (Or.inr (by decide)), hget pTHERM _ (Or.inl (by decide))]
  obtain ⟨t, ht⟩ : ∃ t, u.jobSettle.each (List.range 8) State.decGo = t := ⟨_, rfl⟩
  obtain ⟨h1, h2⟩ := u.enginesFollow_spec ht
  have hexec : exec (.jeEn mask) s = .next t := by
    have hact : exec (.jeEn mask) s = .next (s.writeWith pDMAC 0x40 mask.toNat (jeAct mask.toNat)) := rfl
    rw [hact, State.writeWith_accepts _ h (Or.inl (by simp)), jeAct, State.storeReg_jobEn, hu, ht]
  refine ⟨t, hexec, h1.ctrl.trans hctrl, fun b hb => ?_, ?_, fun a ha => (h1.ring a ha).trans (by rw [← hu]; rfl)⟩
  · rw [h2 b hb]
    unfold State.jobWanted
    rw [hwork, hctrl]
  · refine ⟨h1.same.1.trans (by rw [← hu]; rfl), h1.same.2.trans (by rw [← hu]; rfl), fun hmod hlt => ?_⟩
    have hjrec : ∀ f ∈ [R.DMAC_JREC_WR, R.DMAC_JREC_BASE_LO, R.DMAC_JREC_BASE_HI, R.DMAC_JREC_CFG_LOG2], u.get pDMAC f = s.get pDMAC f := fun f hf =>
      hget _ _ (Or.inr (by revert f; decide))
    have hsize : u.jrecSize = s.jrecSize := by
      unfold State.jrecSize
      rw [hjrec _ (by simp)]
    have hbursts : u.recordBursts = s.recordBursts := by
      unfold State.recordBursts State.get64
      rw [hsize, hjrec _ (by simp), hjrec _ (by simp)]
    have hrank : ∀ c r o, u.physRank c r o = s.physRank c r o := fun c r o => by
      have hdram : ∀ n f, u.get (pDRAM n) f = s.get (pDRAM n) f := fun n f => hget _ f (Or.inl (by unfold pDRAM pDMAC; omega))
      have hat : u.dramAt c = s.dramAt c := by
        rw [← hu]
        rfl
      unfold State.physRank State.rmap State.migPtr State.get64
      rw [hat]
      simp only [hdram]
    have hkeys : ∀ a, u.burstKey a = s.burstKey a ∧ u.burstChk a = s.burstChk a := fun a => by
      have hplace : u.dramPlace a = s.dramPlace a := by
        rw [← hu]
        rfl
      unfold State.burstKey State.burstChk
      rw [hplace, hrank]
      exact ⟨rfl, rfl⟩
    have hmem : u.dramMem = s.dramMem ∧ u.dramChk = s.dramChk := by
      rw [← hu]
      exact ⟨rfl, rfl⟩
    obtain ⟨k1, k2⟩ := h1.only (show u.ringPlaced from ⟨by rwa [hjrec _ (by simp)], by rwa [hjrec _ (by simp), hsize]⟩)
    rw [hbursts, hmem.1] at k1
    rw [hbursts, hmem.2] at k2
    rw [List.append_nil]
    exact ⟨fun a ha => k1 a fun x hx => by rw [(hkeys x).1]; exact ha x hx, fun a ha => k2 a fun x hx => by rw [(hkeys x).2]; exact ha x hx⟩

/-! ### Doorbells (R173) -/

theorem State.exec_dmacJdb (s : State) (mask : Byte) (h : s.accepts pDMAC 0x44 mask.toNat) : exec (.dmacJdb mask) s = .next (jdbAct mask.toNat s) := by
  have hact : exec (.dmacJdb mask) s = .next (s.writeWith pDMAC 0x44 mask.toNat (jdbAct mask.toNat)) := rfl
  rw [hact, State.writeWith_accepts _ h (Or.inl (by simp))]
/-- A doorbell that waits for the BAR2 writes before it. -/
theorem State.dmacJdb_waits (s : State) (mask : Byte) (h : s.accepts pDMAC 0x44 mask.toNat) (hw : s.bar2Writes = true) :
    exec (.dmacJdb mask) s = .next { s with bells := s.bells ++ ((List.range 8).filter (bit mask.toNat ·)).map (64 + ·) } := by
  have hfold : ∀ (l : List Nat) (t : State), t.each l (fun t b => if s.bar2Writes then { t with bells := t.bells ++ [64 + b] } else (t.jobDoorbell b).decGo b) =
      { t with bells := t.bells ++ l.map (64 + ·) } := fun l => by
    induction l with
    | nil => exact fun t => by simp [State.each]
    | cons c r ih =>
      intro t
      have hstep := ih { t with bells := t.bells ++ [64 + c] }
      simp only [State.each, List.foldl_cons, hw, if_true] at hstep ⊢
      rw [hstep]
      simp
  rw [s.exec_dmacJdb mask h]
  exact congrArg _ (hfold _ s)
/-- An engine that hears a doorbell, and its decoder. -/
def State.jobRung (t : State) (b : Nat) : State := (t.jobDoorbell b).decGo b
theorem State.jobRung_spec (s : State) (b : Nat) : s.engineStep (s.jobRung b) b ∧ ((s.jobAt b).running = false → (s.jobRung b).jobAt b = s.jobAt b) ∧
    ((s.jobAt b).running = true → (s.jobAt b).parked = false → ((s.jobRung b).jobAt b).dbPend = true) := by
  have hgo := fun t : State => t.decStep_decGo b
  have hbell : s.engineStep (s.jobDoorbell b) b := by
    unfold State.jobDoorbell
    dsimp only
    split_ifs
    · exact s.engineStep_refl b
    · exact (s.engineStep_updJob b _).trans (State.engineStep_jobFetch _ b).1
    · exact s.engineStep_updJob b _
  refine ⟨hbell.trans (hgo _).toengineStep, fun h => ?_, fun hr hp => ?_⟩
  · have hsame : s.jobDoorbell b = s := by
      unfold State.jobDoorbell
      simp [h]
    have hsettle : s.decSettle b 300 = s := by
      unfold State.decSettle
      simp [h]
    have hpanic : (s.panicUpdate b).jobAt b = s.jobAt b := by
      have hrep : ∀ {t u : State}, t.reports u → u.jobAt b = t.jobAt b := fun h => by
        obtain ⟨r, w, hu⟩ := h
        rw [hu]
        rfl
      unfold State.panicUpdate
      dsimp only
      split_ifs
      · rfl
      · rfl
      · have hup : (s.updDec b fun d => { d with panic := true }).jobAt b = s.jobAt b := rfl
        exact ((hrep (State.reports_cause _ _ _)).trans (hrep (State.reports_incSat _ _ _))).trans hup
      · rfl
    unfold State.jobRung
    rw [hsame]
    change ((s.decSettle b 300).panicUpdate b).jobAt b = _
    rw [hsettle, hpanic]
  · have hnote : s.jobDoorbell b = s.updJob b fun e => { e with dbPend := true } := by
      unfold State.jobDoorbell
      simp [hr, hp]
    obtain ⟨x, y, z, hown⟩ := (hgo (s.jobDoorbell b)).own
    unfold State.jobRung
    rw [hown, hnote, State.jobAt_upd_self]
theorem State.dramRead_updJob (s : State) (b : Nat) (g : JobSt → JobSt) (a n src req : Nat) : ((s.updJob b g).dramRead a n src req).2 = (s.dramRead a n src req).2 := by
  have hlike : s.dramLike (s.updJob b g) := ⟨rfl, rfl, rfl, rfl, fun _ _ _ => rfl⟩
  rw [((s.updJob b g).dramRead_bytes a n src req).1, (s.dramRead_bytes a n src req).1, hlike.dramBytes]
/-- A control word with LAST parks its engine. -/
theorem State.jobReread_last (s : State) (b a : Nat) {l : List Byte} (hl : (s.dramRead a 8 3 0x4C).2 = (l, true)) (hb : bit (leNat l) 0 = true) :
    (s.jobReread b a).jobAt b = { s.jobAt b with dbPend := false, redo := false, parked := true, jerr := false, failed := false } := by
  unfold State.jobReread
  dsimp only
  rw [hl]
  dsimp only
  rw [if_neg (by simp), if_pos hb, State.jobAt_upd_self, State.jobAt_upd_self, s.jobAt_dramRead]
theorem filter_bit_pow : ∀ b : Fin 8, (List.range 8).filter (bit (2 ^ b.val) ·) = [b.val] := by decide
/-- The doorbell of one parked engine. -/
theorem State.jobRung_parked (s : State) (b : Nat) {a : Nat} {l : List Byte} (hr : (s.jobAt b).running = true) (hp : (s.jobAt b).parked = true)
    (hn : (s.jobAt b).next = none) (ht : (s.jobAt b).tail = some a) (hf : (s.jobAt b).failed = false) (hfree : s.chainFree a 8 0x4C = true)
    (hl : (s.dramRead a 8 3 0x4C).2 = (l, true)) (hb : bit (leNat l) 0 = true) :
    ((s.jobRung b).jobAt b).parked = true ∧ ((s.jobRung b).jobAt b).jerr = false ∧ ((s.jobRung b).jobAt b).jobs = (s.jobAt b).jobs := by
  obtain ⟨u, hu⟩ : ∃ u, (s.updJob b fun e => { e with redo := true }) = u := ⟨_, rfl⟩
  have hat : u.jobAt b = { s.jobAt b with redo := true } := by rw [← hu, State.jobAt_upd_self]
  have hufree : u.chainFree a 8 0x4C = true := by
    rw [← hu, State.chainFree_updJob (g := fun e => { e with redo := true }) _ _ (fun _ => ⟨rfl, rfl, rfl⟩), hfree]
  have huread : (u.dramRead a 8 3 0x4C).2 = (l, true) := by rw [← hu, State.dramRead_updJob, hl]
  have hfetch : u.jobFetch b = u.jobReread b a := by
    unfold State.jobFetch
    simp [hat, hr, hn, ht, hp, hf, hufree]
  have hring : s.jobRung b = (u.jobReread b a).decGo b := by
    unfold State.jobRung State.jobDoorbell
    simp only [hr, hp, Bool.not_true, Bool.false_eq_true, if_false, if_true]
    rw [hu, hfetch]
  obtain ⟨x, y, z, hown⟩ := ((u.jobReread b a).decStep_decGo b).own
  rw [hring, hown, u.jobReread_last b a huread hb, hat]
  exact ⟨rfl, rfl, rfl⟩
/-- The clause of O37 on doorbells that are rung at once. -/
theorem State.dmacJdb_rings (s : State) (mask : Byte) (h : s.accepts pDMAC 0x44 mask.toNat) (hw : s.bar2Writes = false) {t : State}
    (ht : s.each ((List.range 8).filter (bit mask.toNat ·)) State.jobRung = t) : exec (.dmacJdb mask) s = .next t ∧
    (∀ b < 8, bit mask.toNat b = true → (s.jobAt b).running = true → (s.jobAt b).parked = false → (t.jobAt b).dbPend = true) ∧
    (∀ b < 8, (s.jobAt b).running = false → t.jobAt b = s.jobAt b) ∧
    (∀ b < 8, bit mask.toNat b = false → t.jobAt b = s.jobAt b ∧ t.decAt b = s.decAt b) ∧
    s.recordsOnly t [] ∧ s.lsWithin t (((List.range 8).filter (bit mask.toNat ·)).map fun b => (0x300000 * b, 0x300000)) := by
  have hexec : exec (.dmacJdb mask) s = .next t := by
    rw [s.exec_dmacJdb mask h, ← ht]
    unfold jdbAct
    rw [hw]
    rfl
  have hin : ∀ b ∈ (List.range 8).filter (bit mask.toNat ·), ringIn b (((List.range 8).filter (bit mask.toNat ·)).map fun b => (0x300000 * b, 0x300000)) :=
    fun b hb a ha => ha _ (List.mem_map_of_mem (f := fun b => (0x300000 * b, 0x300000)) hb)
  obtain ⟨h1, h2, h3⟩ := State.enginesStep_each State.jobRung (fun t b => (t.jobRung_spec b).1) _ hin (List.nodup_range.filter _) s ht
  have hmem : ∀ b < 8, bit mask.toNat b = true → b ∈ (List.range 8).filter (bit mask.toNat ·) := fun b hb hm => by
    rw [List.mem_filter, List.mem_range]
    exact ⟨hb, hm⟩
  have hout : ∀ b, bit mask.toNat b = false → b ∉ (List.range 8).filter (bit mask.toNat ·) := fun b hm hb => by
    rw [List.mem_filter] at hb
    rw [hm] at hb
    exact Bool.false_ne_true hb.2
  refine ⟨hexec, fun b hb hm hr hp => ?_, fun b hb hr => ?_, fun b _ hm => h2 b (hout b hm), h1.records, h1.ring⟩
  · obtain ⟨v, hv, -, hvt⟩ := h3 b (hmem b hb hm)
    rw [hvt]
    exact (v.jobRung_spec b).2.2 (by rw [hv, hr]) (by rw [hv, hp])
  · by_cases hm : bit mask.toNat b = true
    · obtain ⟨v, hv, -, hvt⟩ := h3 b (hmem b hb hm)
      rw [hvt, (v.jobRung_spec b).2.1 (by rw [hv, hr]), hv]
    · exact (h2 b (hout b (by simpa using hm))).1

/-! ### The fetch of a descriptor (R178, R181, R182) -/

section
variable {s : State} {b : Nat} (hr : (s.jobAt b).running = true)
include hr
/-- The engine with a descriptor to fetch takes it. -/
theorem State.jobFetch_next {a : Nat} (hn : (s.jobAt b).next = some a) : s.jobFetch b = (s.updJob b fun e => { e with next := none }).jobTake b a := by
  unfold State.jobFetch
  simp only [hr, hn, Bool.not_true, Bool.false_eq_true, if_false]
theorem State.jobFetch_tail {a : Nat} (hn : (s.jobAt b).next = none) (ht : (s.jobAt b).tail = some a) (hp : (s.jobAt b).parked = false)
    (hg : (s.jobAt b).lastGroup = true) (hfree : s.chainFree a 8 0x4C = true) : s.jobFetch b = s.jobReread b a := by
  unfold State.jobFetch
  simp [hr, hn, ht, hp, hg, hfree]
end
/-- Where nothing is due the engine fetches nothing. -/
theorem State.jobFetch_idle (s : State) (b : Nat) (h : (s.jobAt b).running = false ∨ ((s.jobAt b).next = none ∧ ((s.jobAt b).tail = none ∨
    ((s.jobAt b).parked = true ∧ (s.jobAt b).redo = false) ∨ ((s.jobAt b).parked = false ∧ (s.jobAt b).lastGroup = false)))) : s.jobFetch b = s := by
  unfold State.jobFetch
  dsimp only
  rcases h with h | ⟨hn, h⟩
  · simp [h]
  · rw [hn]
    rcases h with h | ⟨hp, h⟩ | ⟨hp, h⟩
    · simp [h]
    · split
      · rfl
      · split <;> simp_all
    · split
      · rfl
      · split <;> simp_all
section
variable {s : State} {b : Nat} {a : Nat} {u : State} (hu : (s.updJob b fun e => { e with next := none }) = u)
include hu
theorem State.nextGone_at : u.jobAt b = { s.jobAt b with next := none } := by rw [← hu, State.jobAt_upd_self]
theorem State.nextGone_free (n : Nat) : u.chainFree a n 0x4C = s.chainFree a n 0x4C := by
  rw [← hu]
  exact State.chainFree_updJob (g := fun e => { e with next := none }) _ _ (fun _ => ⟨rfl, rfl, rfl⟩) _ _ _
theorem State.nextGone_read (n : Nat) : (u.dramRead a n 3 0x4C).2 = (s.dramRead a n 3 0x4C).2 := by
  rw [← hu]
  exact s.dramRead_updJob b _ _ _ _ _
theorem State.nextGone_dram : u.dramReady = s.dramReady ∧ u.dramSize = s.dramSize ∧ u.jobGood = s.jobGood ∧ u.fenced pDMAC = s.fenced pDMAC := by
  rw [← hu]
  exact ⟨rfl, rfl, rfl, rfl⟩
end
theorem State.chainFree_notReady {s : State} (h : s.dramReady = false) {n : Nat} (hn : 0 < n) (a req : Nat) : s.chainFree a n req = false := by
  have hserve : s.rangeServes a n = false := by
    unfold State.rangeServes
    simp [h]
  unfold State.chainFree State.dramServed State.portFree State.dramFree
  simp [hserve]
/-- What is told of an engine once its decoder has gone on. -/
theorem State.decGo_own (s : State) (b : Nat) : (s.jobAt b).runsOn ((s.decGo b).jobAt b) := (s.decStep_decGo b).own
/-- The engine whose descriptor is due: what its step makes of it. -/
theorem State.jobDue_spec {s : State} {b a : Nat} (hr : (s.jobAt b).running = true) (hn : (s.jobAt b).next = some a) {t : State} (ht : (s.jobFetch b).decGo b = t) :
    (s.dramReady = true → s.dramSize ≤ a → (t.jobAt b).parked = true ∧ (t.jobAt b).jerr = true ∧
      (s.fenced pDMAC = false → bit (t.get pDMAC R.PG_IRQ_RAW) 8 = true)) ∧
    (s.dramReady = false ∨ (a < s.dramSize ∧ s.chainFree a 64 0x4C = false) → (t.jobAt b).next = some a ∧ (t.jobAt b).jobs = (s.jobAt b).jobs) := by
  obtain ⟨u, hu⟩ : ∃ u, (s.updJob b fun e => { e with next := none }) = u := ⟨_, rfl⟩
  have hat := State.nextGone_at hu
  obtain ⟨hready, hsize, -, hfen⟩ := State.nextGone_dram hu
  rw [State.jobFetch_next hr hn, hu] at ht
  have hgo := (u.jobTake b a).decStep_decGo b
  obtain ⟨x, y, z, hown⟩ := hgo.own
  rw [ht] at hown hgo
  refine ⟨fun h1 h2 => ?_, fun h => ?_⟩
  · have htake : u.jobTake b a = u.jobFail b a 0x31 false := by
      rw [u.jobTake_eq, if_pos (by simp [hready, hsize, h1, h2])]
    obtain ⟨-, h3, h4⟩ := u.jobFail_spec b a 0x31 false htake.symm
    rw [hown, h3]
    exact ⟨rfl, rfl, fun hf => hgo.raw 8 (by decide) (h4 (hfen.trans hf))⟩
  · have hfree : u.chainFree a 64 0x4C = false ∧ (s.dramReady && decide (s.dramSize ≤ a)) = false := by
      rcases h with h | ⟨h1, h2⟩
      · exact ⟨State.chainFree_notReady (hready.trans h) (by decide) _ _, by simp [h]⟩
      · exact ⟨(State.nextGone_free hu 64).trans h2, by simp; omega⟩
    have htake : u.jobTake b a = u.updJob b fun e => { e with next := some a, parked := false, jerr := false } := by
      rw [u.jobTake_eq, hready, hsize, hfree.1, if_neg (by rw [hfree.2]; simp), if_pos (by simp)]
    rw [hown, htake, State.jobAt_upd_self, hat]
    exact ⟨rfl, rfl⟩
/-- The engine that reads its descriptor. -/
theorem State.jobRead_spec {s : State} {b a : Nat} (hr : (s.jobAt b).running = true) (hn : (s.jobAt b).next = some a) (ha : a < s.dramSize)
    (hfree : s.chainFree a 64 0x4C = true) {d : List Byte} (hd : (s.dramRead a 64 3 0x4C).2 = (d, true)) {t : State} (ht : (s.jobFetch b).decGo b = t) :
    (s.jobGood d = false → (t.jobAt b).parked = true ∧ (t.jobAt b).jerr = true ∧ (t.jobAt b).tail = some a ∧
      (t.jobAt b).jobs = (s.jobAt b).jobs ∧ (s.fenced pDMAC = false → bit (t.get pDMAC R.PG_IRQ_RAW) 8 = true)) ∧
    (s.jobGood d = true → bit (leAt d 0 8) 19 = false → (s.jobAt b).chainEnd = none →
      (t.jobAt b).jobs = (s.jobAt b).jobs ∧ (t.jobAt b).parked = bit (leAt d 0 8) 0) ∧
    (∀ first, s.jobGood d = true →
      (bit (leAt d 0 8) 19 = true ∧ first = leAt d 24 4 ∧ 0 ≤ diff32 first ((s.jobAt b).chainEnd.getD first)) ∨
        (bit (leAt d 0 8) 19 = false ∧ (s.jobAt b).chainEnd = some first) →
      (t.jobAt b).jobs.length = (s.jobAt b).jobs.length + 1 ∧
      (t.jobAt b).chainEnd = some (jobOf d a first).after ∧ (t.jobAt b).tail = some a ∧ (t.jobAt b).parked = false ∧
      ∃ x, (t.jobAt b).jobs.getLast? = some x ∧ x.addr = a ∧ x.first = first ∧ x.jobId = leAt d 28 4) := by
  obtain ⟨u, hu⟩ : ∃ u, (s.updJob b fun e => { e with next := none }) = u := ⟨_, rfl⟩
  have hat := State.nextGone_at hu
  obtain ⟨hready, hsize, hgood, hfen⟩ := State.nextGone_dram hu
  obtain ⟨r, hrd⟩ : ∃ r, (u.dramRead a 64 3 0x4C).1 = r := ⟨_, rfl⟩
  have hstep : u.decStep r b := hrd ▸ u.decStep_dramRead b a 64 3 0x4C
  have hrat : r.jobAt b = { s.jobAt b with next := none } := by rw [← hrd, u.jobAt_dramRead, hat]
  have hrfen : s.fenced pDMAC = false → r.fenced pDMAC = false := fun h => by
    have hf := hstep.ctrl R.PG_FENCE_FENCED (by simp [engineKept])
    rw [← hfen] at h
    unfold State.fenced State.flag at h ⊢
    rw [hf, h]
  have htake : u.jobTake b a = u.jobRead r b a d true := by
    rw [u.jobTake_eq, if_neg (by simp [hsize]; intro; omega), if_neg (by simp [State.nextGone_free hu, hfree]), hrd, State.nextGone_read hu, hd]
  rw [State.jobFetch_next hr hn, hu, htake] at ht
  have hgo := (u.jobRead r b a d true).decStep_decGo b
  obtain ⟨x, y, z, hown⟩ := hgo.own
  rw [ht] at hown hgo
  unfold State.jobRead at hown hgo
  rw [if_neg (by simp), hgood] at hown hgo
  refine ⟨fun hg => ?_, fun hg h19 hend => ?_, fun first hg hfirst => ?_⟩
  · rw [if_pos (by simp [hg])] at hown hgo
    obtain ⟨-, h3, h4⟩ := r.jobFail_spec b a 0x31 false rfl
    rw [hown, h3, hrat]
    exact ⟨rfl, rfl, rfl, rfl, fun hf => hgo.raw 8 (by decide) (h4 (hrfen hf))⟩
  · have hskip : r.jobChosen b a d = r.jobSkip b a (leAt d 0 8) := by
      unfold State.jobChosen
      rw [hrat, h19, hend]
    rw [if_neg (by simp [hg]), hskip] at hown
    obtain ⟨-, h3⟩ := r.jobSkip_spec b a (leAt d 0 8) rfl
    rw [hown, h3, hrat]
    unfold JobSt.skipped
    split <;> simp_all
  · rw [if_neg (by simp [hg])] at hown
    have htaken : r.jobChosen b a d = r.jobTaken b a first d := by
      unfold State.jobChosen
      rw [hrat]
      rcases hfirst with ⟨h19, rfl, hdiff⟩ | ⟨h19, hend⟩
      · rw [h19]
        exact if_neg (by simpa using hdiff)
      · rw [h19]
        simp [hend, diff32_self]
    rw [htaken] at hown
    obtain ⟨-, x', y', z', l, h3, hl⟩ := r.jobTaken_spec b a first d rfl
    obtain ⟨l1, l2, l3⟩ := hl (jobOf d a first)
    rw [hown, h3, hrat]
    refine ⟨by simp, rfl, rfl, rfl, l (jobOf d a first), by simp, l1, l2, l3⟩

/-- Settles O37, one lemma for each command. -/
theorem jobEngines : Obligations.JobEngines := by
  unfold Obligations.JobEngines
  refine ⟨fun s mask h => s.jeEn_spec mask h, fun s mask h hw => s.dmacJdb_waits mask h hw, fun s mask h hw => ?_, fun s b => ⟨fun h => ?_, fun hr => ?_⟩⟩
  · obtain ⟨h1, h2, h3, h4, h5, h6⟩ := s.dmacJdb_rings mask h hw rfl
    refine ⟨_, h1, h2, h3, h4, fun b a l hm hr hp hn ht hf hfree hl hb => ?_, h5, h6⟩
    rw [hm, filter_bit_pow]
    exact s.jobRung_parked b hr hp hn ht hf hfree hl hb
  · change execJobDescriptorFetch b s = _
    unfold execJobDescriptorFetch
    rw [s.jobFetch_idle b h]
    rfl
  · obtain ⟨t, ht⟩ : ∃ t, (s.jobFetch b).decGo b = t := ⟨_, rfl⟩
    have hstep : s.engineStep t b := ht ▸ (s.engineStep_jobFetch b).1.trans (State.decStep_decGo _ b).toengineStep
    refine ⟨t, ht ▸ rfl, hstep.records, hstep.ring, fun a l hn htail hp hg hfree hl hb => ?_, fun a hn h1 h2 => (State.jobDue_spec hr hn ht).1 h1 h2,
      fun a hn h => (State.jobDue_spec hr hn ht).2 h, fun a d hn ha hfree hd => State.jobRead_spec hr hn ha hfree hd ht⟩
    obtain ⟨x, y, z, hown⟩ := (s.jobFetch b).decGo_own b
    rw [ht, State.jobFetch_tail hr hn htail hp hg hfree, s.jobReread_last b a hl hb] at hown
    rw [hown]
    exact ⟨rfl, rfl, rfl⟩
end Sys2Proof.Machine
end

section
/-! ### What Chanter's sums move in the memories (O51) -/
open Sys2Proof Sys2Proof.Machine
namespace Sys2Proof.Machine

/-- An access of Chanter to its memories: it stores in the bursts `l` of DRAM and in the places `z` of the line store alone, counts what it
reads in the registers of DRAM and of the line store, and notes for its fence the first byte that it could not read. -/
structure State.memStep (s t : State) (l : List Nat) (z : List (Nat × Nat)) : Prop where
  page : ∀ p, ¬ dramPage p → p ≠ pLSTORE → ∀ f, t.get p f = s.get p f
  rank : ∀ c r o, t.physRank c r o = s.physRank c r o
  only : s.dramOnly t l
  within : s.lsWithin t z
  noted : ∃ a, t.chant = { s.chant with fenceNext := s.chant.fenceNext.or a }
  lsKept : z = [] → t.lstore = s.lstore
  dramKept : l = [] → t.dramMem = s.dramMem ∧ t.dramChk = s.dramChk
  shape : ∃ r d w m k x e y c, t = { s with regs := r, dram := d, host := { s.host with waiting := w }, dramMem := m, dramChk := k, lstore := x, lsErr := e, lsRep := y, chant := c }
theorem State.lsWithin_refl (s : State) (z : List (Nat × Nat)) : s.lsWithin s z := fun _ _ => rfl
theorem State.noted_refl (s : State) : ∃ a, s.chant = { s.chant with fenceNext := s.chant.fenceNext.or a } :=
  ⟨none, by rw [Option.or_none]⟩
theorem State.memStep_refl (s : State) (l : List Nat) (z : List (Nat × Nat)) : s.memStep s l z :=
  ⟨fun _ _ _ _ => rfl, fun _ _ _ => rfl, s.dramOnly_refl l, s.lsWithin_refl z, s.noted_refl, fun _ => rfl, fun _ => ⟨rfl, rfl⟩, _, _, _, _, _, _, _, _, _, rfl⟩
theorem pCHANT_notDram : ¬ dramPage pCHANT := by
  rintro (h | ⟨c, hc, h⟩)
  · exact absurd h (by decide)
  · unfold pCHANT pDRAM at h
    omega
/-- The bursts of DRAM lie where they lay while every logical rank stands. -/
theorem State.keys_of {s t : State} (hrank : ∀ c r o, t.physRank c r o = s.physRank c r o) (hgeo : t.geo = s.geo) (a : Nat) :
    t.burstKey a = s.burstKey a ∧ t.burstChk a = s.burstChk a := by
  have hplace : t.dramPlace a = s.dramPlace a := by
    unfold State.dramPlace
    rw [hgeo]
  unfold State.burstKey State.burstChk
  rw [hplace, hrank]
  exact ⟨rfl, rfl⟩
theorem State.dramOnly_trans {s t u : State} {l : List Nat} (hkeys : ∀ a, t.burstKey a = s.burstKey a ∧ t.burstChk a = s.burstChk a)
    (h : s.dramOnly t l) (k : t.dramOnly u l) : s.dramOnly u l :=
  ⟨fun a ha => (k.1 a fun x hx => by rw [(hkeys x).1]; exact ha x hx).trans (h.1 a ha),
    fun a ha => (k.2 a fun x hx => by rw [(hkeys x).2]; exact ha x hx).trans (h.2 a ha)⟩
section
variable {s t : State} {l : List Nat} {z : List (Nat × Nat)} (h : s.memStep t l z)
include h
theorem State.memStep.geo : t.geo = s.geo := by
  obtain ⟨r, d, w, m, k, x, e, y, c, ht⟩ := h.shape
  rw [ht]
  rfl
theorem State.memStep.chant (f : Fld) : t.get pCHANT f = s.get pCHANT f := h.page _ pCHANT_notDram (by decide) f
theorem State.memStep.tier (k : Tier) : t.tier k = s.tier k := by
  obtain ⟨a, ha⟩ := h.noted
  unfold State.tier
  rw [ha]
theorem State.memStep.fence {a : Nat} (ha : s.chant.fenceNext = some a) : t.chant.fenceNext = some a := by
  obtain ⟨b, hb⟩ := h.noted
  rw [hb, ha]
  rfl
theorem State.memStep.colAddr (bank k : Nat) : t.colAddr bank k = s.colAddr bank k := by
  unfold State.colAddr State.get64
  rw [h.chant, h.chant]
end
theorem State.memStep.trans {s t u : State} {l : List Nat} {z : List (Nat × Nat)} (h : s.memStep t l z) (k : t.memStep u l z) : s.memStep u l z := by
  refine ⟨fun p hp hl f => (k.page p hp hl f).trans (h.page p hp hl f), fun c r o => (k.rank c r o).trans (h.rank c r o),
    State.dramOnly_trans (State.keys_of h.rank h.geo) h.only k.only, fun a ha => (k.within a ha).trans (h.within a ha), ?_, fun hz => (k.lsKept hz).trans (h.lsKept hz),
    fun hl => ⟨(k.dramKept hl).1.trans (h.dramKept hl).1, (k.dramKept hl).2.trans (h.dramKept hl).2⟩, ?_⟩
  · obtain ⟨a, ha⟩ := h.noted
    obtain ⟨b, hb⟩ := k.noted
    exact ⟨a.or b, by rw [hb, ha, Option.or_assoc]⟩
  · obtain ⟨r, d, w, m, q, x, e, y, c, ht⟩ := h.shape
    obtain ⟨r', d', w', m', q', x', e', y', c', hu⟩ := k.shape
    exact ⟨r', d', w', m', q', x', e', y', c', by rw [hu, ht]⟩
theorem State.memStep.mono {s t : State} {l l' : List Nat} {z z' : List (Nat × Nat)} (h : s.memStep t l z) (hl : l ⊆ l') (hz : z ⊆ z') : s.memStep t l' z' :=
  ⟨h.page, h.rank, ⟨fun a ha => h.only.1 a fun x hx => ha x (hl hx), fun a ha => h.only.2 a fun x hx => ha x (hl hx)⟩,
    fun a ha => h.within a fun e he => ha e (hz he), h.noted, fun he => h.lsKept (List.subset_nil.mp (he ▸ hz)),
    fun he => h.dramKept (List.subset_nil.mp (he ▸ hl)), h.shape⟩
theorem State.memStep_foldl {α β : Type} {l : List Nat} {z : List (Nat × Nat)} (proj : β → State) (g : β → α → β)
    (xs : List α) (b : β) (hg : ∀ c, ∀ x ∈ xs, (proj b).memStep (proj c) l z → (proj c).memStep (proj (g c x)) l z) :
    (proj b).memStep (proj (xs.foldl g b)) l z :=
  List.foldlRecOn (motive := fun c => (proj b).memStep (proj c) l z) xs g ((proj b).memStep_refl l z) fun c hc x hx => hc.trans (hg c x hx hc)
/-- What reads the line store moves no byte. -/
theorem State.memStep_of_lsReports {s t : State} (h : s.lsReports t) (hget : ∀ p f, p ≠ pLSTORE → t.get p f = s.get p f) (l : List Nat) (z : List (Nat × Nat)) :
    s.memStep t l z := by
  have hdram : ∀ n f, t.get (pDRAM n) f = s.get (pDRAM n) f := fun n f => hget _ f (by unfold pDRAM pLSTORE; omega)
  have hrank : ∀ c r o, t.physRank c r o = s.physRank c r o := by
    intro c r o
    have hat : t.dramAt c = s.dramAt c := by
      obtain ⟨r, w, e, ht⟩ := h
      rw [ht]
      rfl
    unfold State.physRank State.rmap State.migPtr State.get64
    rw [hat]
    simp only [hdram]
  obtain ⟨r, w, e, ht⟩ := h
  refine ⟨fun p _ hl f => hget p f hl, hrank, ?_, ?_, ?_, fun _ => ?_, fun _ => ?_, r, s.dram, w, s.dramMem, s.dramChk, s.lstore, s.lsErr, e, s.chant, ht⟩
  · rw [ht]
    exact s.dramOnly_refl l
  · rw [ht]
    exact s.lsWithin_refl z
  · rw [ht]
    exact s.noted_refl
  · rw [ht]
  · rw [ht]
    exact ⟨rfl, rfl⟩
theorem State.memStep_lsRead (s : State) (a n src : Nat) (l : List Nat) (z : List (Nat × Nat)) : s.memStep (s.lsRead a n src).1 l z :=
  State.memStep_of_lsReports (State.lsReads_spec _ s src a).1 (fun _ f hp => State.lsReads_page _ s src a hp f) l z
/-- Noting the first byte that could not be read. -/
theorem State.memStep_fenceNext (s : State) (a : Option Nat) (l : List Nat) (z : List (Nat × Nat)) :
    s.memStep { s with chant := { s.chant with fenceNext := s.chant.fenceNext.or a } } l z :=
  ⟨fun _ _ _ _ => rfl, fun _ _ _ => rfl, s.dramOnly_refl l, s.lsWithin_refl z, ⟨a, rfl⟩, fun _ => rfl, fun _ => ⟨rfl, rfl⟩, _, _, _, _, _, _, _, _, _, rfl⟩
theorem State.memStep_chantRead (s : State) (a n : Nat) (l : List Nat) (z : List (Nat × Nat)) : s.memStep (s.chantRead a n).1 l z := by
  unfold State.chantRead
  dsimp only
  split
  · exact (s.memStep_lsRead a n 3 l z).trans (State.memStep_fenceNext _ _ l z)
  · exact s.memStep_lsRead a n 3 l z
theorem State.memStep_lsWrite (s : State) {a c n : Nat} {d : List Byte} (l : List Nat) {z : List (Nat × Nat)} (hz : (c, n) ∈ z)
    (hlo : c ≤ a) (hhi : a + d.length ≤ c + n) : s.memStep (s.lsWrite a d) l z := by
  refine ⟨fun _ _ _ _ => rfl, fun _ _ _ => rfl, s.dramOnly_refl l, fun k hk => ?_, s.noted_refl, fun he => ?_, fun _ => ⟨rfl, rfl⟩, _, _, _, _, _, _, _, _, _, rfl⟩
  · have hout := hk _ hz
    exact Memory.get_puts_apart _ _ (by omega)
  · rw [he] at hz
    exact absurd hz List.not_mem_nil
theorem pLSTORE_notDram : ¬ dramPage pLSTORE := by
  rintro (h | ⟨c, hc, h⟩)
  · exact absurd h (by decide)
  · unfold pLSTORE pDRAM at h
    omega
theorem State.dramStep.mem {s t : State} {l : List Nat} (h : s.dramStep t l) (z : List (Nat × Nat))
    (hl : l = [] → t.hold = s.hold) : s.memStep t l z := by
  have hkept : l = [] → t.dramMem = s.dramMem ∧ t.dramChk = s.dramChk := fun he => ⟨congrArg (·.2.2.1) (hl he), congrArg (·.2.2.2.1) (hl he)⟩
  obtain ⟨r, d, w, m, k, ht⟩ := h.shape
  refine ⟨fun p hp _ => h.page p hp, h.rank, h.only, ?_, ?_, fun _ => ?_, hkept, r, d, w, m, k, s.lstore, s.lsErr, s.lsRep, s.chant, ht⟩
  · rw [ht]
    exact s.lsWithin_refl z
  · rw [ht]
    exact s.noted_refl
  · rw [ht]
theorem State.memStep_dramRead (s : State) (a n src req : Nat) (l : List Nat) (z : List (Nat × Nat)) : s.memStep (s.dramRead a n src req).1 l z :=
  (s.dramStep_dramRead a n src req l).mem z fun _ => s.dramRead_hold a n src req
theorem State.memStep_dramWrite (s : State) {a c n : Nat} {d : List Byte} (req : Nat) (z : List (Nat × Nat)) (hpos : 0 < d.length)
    (hlo : c ≤ a) (hhi : a + d.length ≤ c + n) : s.memStep (s.dramWrite a d req) (burstsOf c n) z := by
  have h := s.dramStep_dramWriteOpt a (d.map some) req
  rw [List.length_map] at h
  refine (h.mono (burstsOf_within hpos hlo hhi)).mem z fun he => ?_
  have hmem : c / 64 * 64 ∈ burstsOf c n := (mem_burstsOf (by omega)).mpr ⟨by omega, by omega, by omega⟩
  rw [he] at hmem
  exact absurd hmem List.not_mem_nil

/-! ### Partial sums and the sums of a tier (R278, R279) -/

/-- The partial sums, and the sums of a bank of zones (R297). -/
def partPlace : Nat × Nat := (partAddr 0, 220 * 48192)
def zonePlace (bank : Nat) : Nat × Nat := (zoneAddr bank 0, 440 * 3012)
/-- The bursts of a bank of column sums (R280). -/
def State.colBursts (s : State) (bank : Nat) : List Nat := burstsOf (s.colAddr bank 0) (440 * 48192)
theorem State.takePart_spec (s : State) {k : Nat} (hk : k < 48192) (l : List Nat) {z : List (Nat × Nat)} (hz : partPlace ∈ z) :
    s.memStep (s.takePart k).1 l z ∧ (s.takePart k).2.length = 55 := by
  unfold State.takePart
  dsimp only
  have hread := s.memStep_chantRead (partAddr k) 220 l z
  split
  · exact ⟨hread, List.length_replicate⟩
  · refine ⟨hread.trans (State.memStep_lsWrite _ l hz ?_ ?_), ?_⟩
    · unfold partAddr
      omega
    · rw [zeros_length]
      unfold partAddr
      omega
    · unfold wordsK
      rw [List.length_map, List.length_range]
theorem addSums_length (old : List Byte) (w : List Nat) : (addSums old w).length = 8 * w.length := by
  unfold addSums
  rw [List.length_flatMap]
  simp [leBytes_length, Function.comp_def, Nat.mul_comm]
/-- The first address that a read of the sums of a column could not deliver. -/
theorem State.memStep_colRead (s : State) (a : Nat) (l : List Nat) (z : List (Nat × Nat)) :
    s.memStep (if (s.dramRead a 440 4 0x4B).2.2 then (s.dramRead a 440 4 0x4B).1 else { (s.dramRead a 440 4 0x4B).1 with
      chant := { (s.dramRead a 440 4 0x4B).1.chant with fenceNext := (s.dramRead a 440 4 0x4B).1.chant.fenceNext.or (some a) } }) l z := by
  split
  · exact s.memStep_dramRead _ _ _ _ l z
  · exact (s.memStep_dramRead _ _ _ _ l z).trans (State.memStep_fenceNext _ _ l z)
theorem State.memStep_colAdd (s : State) {k : Nat} (hk : k < 48192) (bank : Nat) {w : List Nat} (hw : w.length = 55) {l : List Nat} (hl : s.colBursts bank ⊆ l)
    (z : List (Nat × Nat)) : s.memStep ((if (s.dramRead (s.colAddr bank k) 440 4 0x4B).2.2 then (s.dramRead (s.colAddr bank k) 440 4 0x4B).1 else
      { (s.dramRead (s.colAddr bank k) 440 4 0x4B).1 with
        chant := { (s.dramRead (s.colAddr bank k) 440 4 0x4B).1.chant with
          fenceNext := (s.dramRead (s.colAddr bank k) 440 4 0x4B).1.chant.fenceNext.or (some (s.colAddr bank k)) } }).dramWrite (s.colAddr bank k)
      (addSums (s.dramRead (s.colAddr bank k) 440 4 0x4B).2.1 w) 0x4B) l z := by
  refine (s.memStep_colRead _ l z).trans (State.memStep.mono (State.memStep_dramWrite (c := s.colAddr bank 0) (n := 440 * 48192) _ _ z ?_ ?_ ?_) hl fun _ h => h)
  · rw [addSums_length, hw]
    decide
  · unfold State.colAddr
    omega
  · rw [addSums_length, hw]
    unfold State.colAddr
    omega
theorem State.memStep_tierAdd (s : State) (t : Tier) {k : Nat} (hk : k < 48192) {w : List Nat} (hw : w.length = 55) {l : List Nat} {z : List (Nat × Nat)}
    (hl : t ≠ .zone → s.colBursts (s.tier t).bank ⊆ l) (hz : t = .zone → zonePlace (s.tier .zone).bank ∈ z) : s.memStep (s.tierAdd t k w) l z := by
  cases t with
  | zone =>
    refine (s.memStep_chantRead _ 440 l z).trans (State.memStep_lsWrite _ l (hz rfl) ?_ ?_)
    · unfold zoneAddr
      omega
    · rw [addSums_length, hw]
      unfold zoneAddr
      omega
  | column => exact s.memStep_colAdd hk _ hw (hl (by decide)) z
  | capture => exact s.memStep_colAdd hk _ hw (hl (by decide)) z
/-- The stores with which a bank is cleared. -/
def State.bankZero (s : State) (t : Tier) (bank : Nat) : State :=
  match t with
  | .zone => s.lsWrite (zoneAddr bank 0) (zeros (440 * 3012))
  | _ => s.dramWrite (s.colAddr bank 0) (zeros (440 * 48192)) 0x4B
theorem State.bankClear_eq (s : State) (t : Tier) (bank : Nat) :
    s.bankClear t bank = (s.bankZero t bank).updTier t fun x => { x with clean := x.clean ||| 2 ^ bank } := by
  cases t <;> rfl
theorem State.memStep_bankZero (s : State) (t : Tier) (bank : Nat) {l : List Nat} {z : List (Nat × Nat)}
    (hl : t ≠ .zone → s.colBursts bank ⊆ l) (hz : t = .zone → zonePlace bank ∈ z) : s.memStep (s.bankZero t bank) l z := by
  have hcol : s.memStep (s.dramWrite (s.colAddr bank 0) (zeros (440 * 48192)) 0x4B) (s.colBursts bank) z := by
    refine State.memStep_dramWrite _ _ _ ?_ le_rfl ?_
    all_goals rw [zeros_length]
    exact Nat.mul_pos (by decide) (by decide)
  cases t with
  | zone =>
    refine State.memStep_lsWrite _ l (hz rfl) le_rfl ?_
    rw [zeros_length]
  | column => exact hcol.mono (hl (by decide)) fun _ h => h
  | capture => exact hcol.mono (hl (by decide)) fun _ h => h
theorem State.memStep_sumsOf (s : State) (t : Tier) (bank n : Nat) (l : List Nat) (z : List (Nat × Nat)) : s.memStep (s.sumsOf t bank n).1 l z := by
  cases t with
  | zone => exact s.memStep_chantRead _ _ l z
  | column => exact s.memStep_colRead _ l z
  | capture => exact s.memStep_colRead _ l z

end Sys2Proof.Machine
end

section
/-! ### A flush up to the judgement of its windows (R279, R280; O51) -/
open Sys2Proof Sys2Proof.Machine
namespace Sys2Proof.Machine

theorem State.tier_updTier_self (s : State) (k : Tier) (g : TierSt → TierSt) : (s.updTier k g).tier k = g (s.tier k) := by
  cases k <;> rfl
theorem State.tier_updTier_other (s : State) {k j : Tier} (h : j ≠ k) (g : TierSt → TierSt) : (s.updTier k g).tier j = s.tier j := by
  cases k <;> cases j <;> simp_all [State.updTier, State.tier]
/-- The bursts and places that the sums of the banks in use occupy. -/
def State.sumBursts (s : State) : List Nat := s.colBursts s.chant.col.bank ++ s.colBursts s.chant.cap.bank
def State.sumPlaces (s : State) : List (Nat × Nat) := [partPlace, zonePlace s.chant.zone.bank]
/-- The registers of CHANT that a flush moves before its windows are judged. -/
def flushIds : List Nat := [R.PG_GEN_APPL_GEN.id, R.PG_GEN_PENDING.id, R.PG_IRQ_RAW.id, R.CHANT_ZOPEN.id, R.CHANT_COPEN.id]
/-- A step of a flush: it stores among the sums of the banks in use alone, and leaves what says which they are. -/
structure State.flushStep (s t : State) : Prop where
  page : ∀ p, ¬ dramPage p → p ≠ pLSTORE → p ≠ pCHANT → ∀ f, t.get p f = s.get p f
  chant : ∀ f : Fld, f.id ∉ flushIds → t.get pCHANT f = s.get pCHANT f
  rank : ∀ c r o, t.physRank c r o = s.physRank c r o
  only : s.dramOnly t s.sumBursts
  within : s.lsWithin t s.sumPlaces
  bank : ∀ k, (t.tier k).bank = (s.tier k).bank
  kept : t.chant.flush = s.chant.flush ∧ t.chant.flushQ = s.chant.flushQ ∧ t.chant.capturing = s.chant.capturing
  fence : ∀ a, s.chant.fenceNext = some a → t.chant.fenceNext = some a
  shape : ∃ r d w m k x e y c fr a co ca, t = { s with regs := r, dram := d, host := { s.host with waiting := w }, dramMem := m, dramChk := k, lstore := x, lsErr := e, lsRep := y, chant := c, fresh := fr, appl := a, commits := co, calst := ca }
theorem State.flushStep_refl (s : State) : s.flushStep s :=
  ⟨fun _ _ _ _ _ => rfl, fun _ _ => rfl, fun _ _ _ => rfl, s.dramOnly_refl _, s.lsWithin_refl _, fun _ => rfl, ⟨rfl, rfl, rfl⟩, fun _ h => h,
    _, _, _, _, _, _, _, _, _, _, _, _, _, rfl⟩
section
variable {s t : State} (h : s.flushStep t)
include h
theorem State.flushStep.geo : t.geo = s.geo := by
  obtain ⟨r, d, w, m, k, x, e, y, c, fr, a, co, ca, ht⟩ := h.shape
  rw [ht]
  rfl
theorem State.flushStep.colAddr (bank k : Nat) : t.colAddr bank k = s.colAddr bank k := by
  unfold State.colAddr State.get64
  rw [h.chant _ (by decide), h.chant _ (by decide)]
theorem State.flushStep.bursts : t.sumBursts = s.sumBursts := by
  have hcol := h.bank .column
  have hcap := h.bank .capture
  change t.chant.col.bank = s.chant.col.bank at hcol
  change t.chant.cap.bank = s.chant.cap.bank at hcap
  unfold State.sumBursts State.colBursts
  rw [hcol, hcap, h.colAddr, h.colAddr]
theorem State.flushStep.places : t.sumPlaces = s.sumPlaces := by
  have hzone := h.bank .zone
  change t.chant.zone.bank = s.chant.zone.bank at hzone
  unfold State.sumPlaces
  rw [hzone]
end
theorem State.flushStep.trans {s t u : State} (h : s.flushStep t) (k : t.flushStep u) : s.flushStep u := by
  have honly := k.only
  have hwithin := k.within
  rw [h.bursts] at honly
  rw [h.places] at hwithin
  refine ⟨fun p hp hl hc f => (k.page p hp hl hc f).trans (h.page p hp hl hc f), fun f hf => (k.chant f hf).trans (h.chant f hf),
    fun c r o => (k.rank c r o).trans (h.rank c r o), State.dramOnly_trans (State.keys_of h.rank h.geo) h.only honly,
    fun a ha => (hwithin a ha).trans (h.within a ha), fun x => (k.bank x).trans (h.bank x), ?_, fun a ha => k.fence a (h.fence a ha), ?_⟩
  · obtain ⟨h1, h2, h3⟩ := h.kept
    obtain ⟨k1, k2, k3⟩ := k.kept
    exact ⟨k1.trans h1, k2.trans h2, k3.trans h3⟩
  · obtain ⟨r, d, w, m, q, x, e, y, c, fr, a, co, ca, ht⟩ := h.shape
    obtain ⟨r', d', w', m', q', x', e', y', c', fr', a', co', ca', hu⟩ := k.shape
    exact ⟨r', d', w', m', q', x', e', y', c', fr', a', co', ca', by rw [hu, ht]⟩
theorem State.flushStep_foldl {α : Type} (g : State → α → State) (hg : ∀ (t : State) x, t.flushStep (g t x)) (l : List α) (s : State) : s.flushStep (l.foldl g s) :=
  List.foldlRecOn (motive := fun t : State => s.flushStep t) l g s.flushStep_refl fun t ht x _ => ht.trans (hg t x)
theorem State.memStep.flush {s t : State} (h : s.memStep t s.sumBursts s.sumPlaces) : s.flushStep t := by
  obtain ⟨a, ha⟩ := h.noted
  refine ⟨fun p hp hl _ => h.page p hp hl, fun f _ => h.chant f, h.rank, h.only, h.within, fun k => by rw [h.tier], ?_, fun b hb => h.fence hb, ?_⟩
  · rw [ha]
    exact ⟨rfl, rfl, rfl⟩
  · obtain ⟨r, d, w, m, k, x, e, y, c, ht⟩ := h.shape
    exact ⟨r, d, w, m, k, x, e, y, c, s.fresh, s.appl, s.commits, s.calst, ht⟩
/-- A step within Chanter's own state that leaves the banks in use. -/
theorem State.flushStep_chant (s : State) (c : ChantSt) (hbank : ∀ k, ({ s with chant := c }.tier k).bank = (s.tier k).bank)
    (hkept : c.flush = s.chant.flush ∧ c.flushQ = s.chant.flushQ ∧ c.capturing = s.chant.capturing) (hfence : c.fenceNext = s.chant.fenceNext) :
    s.flushStep { s with chant := c } :=
  ⟨fun _ _ _ _ _ => rfl, fun _ _ => rfl, fun _ _ _ => rfl, s.dramOnly_refl _, s.lsWithin_refl _, hbank, hkept, fun _ h => hfence.trans h,
    _, _, _, _, _, _, _, _, _, _, _, _, _, rfl⟩
theorem State.flushStep_updTier (s : State) (k : Tier) (g : TierSt → TierSt) (hg : ∀ x, (g x).bank = x.bank) : s.flushStep (s.updTier k g) := by
  have hbank : ∀ j, ((s.updTier k g).tier j).bank = (s.tier j).bank := fun j => by
    by_cases hjk : j = k
    · rw [hjk, State.tier_updTier_self, hg]
    · rw [State.tier_updTier_other _ hjk]
  cases k <;> exact State.flushStep_chant s _ hbank ⟨rfl, rfl, rfl⟩ rfl
/-- A step that moves only registers, applied copies and commits of CHANT. -/
theorem State.flushStep_of_regs {s t : State} (hget : ∀ p f, p ≠ pCHANT ∨ f.id ∉ flushIds → t.get p f = s.get p f)
    (hsh : ∃ r a co w, t = { s with regs := r, appl := a, commits := co, host := { s.host with waiting := w } }) : s.flushStep t := by
  have hids : ∀ f ∈ [R.DRAM_RMAP_LR, R.DRAM_MIG_PTR_LO, R.DRAM_MIG_PTR_HI], f.id ∉ flushIds := by decide
  obtain ⟨r, a, co, w, ht⟩ := hsh
  have hrank : ∀ c r o, t.physRank c r o = s.physRank c r o := State.physRank_congr (fun c => by rw [ht]; rfl) fun f hf p => hget p f (Or.inr (hids f hf))
  refine ⟨fun p _ _ hc f => hget p f (Or.inl hc), fun f hf => hget _ f (Or.inr hf), hrank, ?_, ?_, fun k => ?_, ?_, fun b hb => ?_,
    r, s.dram, w, s.dramMem, s.dramChk, s.lstore, s.lsErr, s.lsRep, s.chant, s.fresh, a, co, s.calst, ht⟩ <;> rw [ht]
  · exact s.dramOnly_refl _
  · exact s.lsWithin_refl _
  · cases k <;> rfl
  · exact ⟨rfl, rfl, rfl⟩
  · exact hb
theorem State.flushStep_set (s : State) {f : Fld} (v : Nat) (hf : f.id ∈ flushIds) : s.flushStep (s.set pCHANT f v) :=
  State.flushStep_of_regs (fun _ _ h => s.get_set_ne v (h.imp id fun h e => h (e ▸ hf))) ⟨_, s.appl, s.commits, s.host.waiting, rfl⟩
theorem State.flushStep_applyPlain (s : State) : s.flushStep (s.applyPlain pCHANT) := by
  obtain ⟨hbut, -, r, m, c, w, ht⟩ := s.applyPlain_frame pCHANT
  refine State.flushStep_of_regs (fun p f h => hbut p f fun e he => ?_) ⟨r, m, c, w, ht⟩
  simp only [List.mem_cons, List.not_mem_nil, or_false] at he
  rcases h with h | h
  · rcases he with rfl | rfl | rfl <;> exact Or.inl h
  · rcases he with rfl | rfl | rfl <;> exact Or.inr fun hid => h (hid ▸ by decide)
theorem State.flushStep_partsReady (s : State) : s.flushStep s.partsReady := by
  unfold State.partsReady
  split
  · exact s.flushStep_refl
  · have hzero : s.memStep (s.lsWrite (partAddr 0) (zeros (220 * 48192))) s.sumBursts s.sumPlaces := by
      refine State.memStep_lsWrite s _ (c := partAddr 0) (n := 220 * 48192) (List.mem_cons_self ..) le_rfl ?_
      rw [zeros_length]
    exact hzero.flush.trans (State.flushStep_chant _ _ (fun k => by cases k <;> rfl) ⟨rfl, rfl, rfl⟩ rfl)

/-! ### The state of one tier -/

/-- A tier as it was but for which of its banks hold zeros. -/
def TierSt.same (x y : TierSt) : Prop := ∃ c, y = { x with clean := c }
theorem TierSt.same_refl (x : TierSt) : x.same x := ⟨_, rfl⟩
theorem TierSt.same.trans {x y z : TierSt} (h : x.same y) (k : y.same z) : x.same z := by
  obtain ⟨c, rfl⟩ := h
  obtain ⟨c', rfl⟩ := k
  exact ⟨c', rfl⟩
theorem State.tier_same_updTier (s : State) (k j : Tier) (g : TierSt → TierSt) (hg : ∀ x : TierSt, x.same (g x)) : (s.tier j).same ((s.updTier k g).tier j) := by
  by_cases hjk : j = k
  · rw [hjk, State.tier_updTier_self]
    exact hg _
  · rw [State.tier_updTier_other _ hjk]
    exact TierSt.same_refl _
/-- What a fold over tiers leaves of one of them, where each step moves its own. -/
theorem State.foldl_tier {P : State → Prop} (g : State → Tier → State) (k : Tier) (hP : ∀ u x, P u → P (g u x)) (hk : ∀ u x, x ≠ k → (g u x).tier k = u.tier k)
    {l : List Tier} (hl : l.Nodup) (hmem : k ∈ l) (s : State) (hs : P s) : ∃ u, P u ∧ u.tier k = s.tier k ∧ (l.foldl g s).tier k = (g u k).tier k := by
  have hrest : ∀ (m : List Tier) (u : State), k ∉ m → (m.foldl g u).tier k = u.tier k := fun m => by
    induction m with
    | nil => exact fun _ _ => rfl
    | cons x m ih =>
      intro u hu
      obtain ⟨hx, hm⟩ := List.ne_and_not_mem_of_not_mem_cons hu
      exact (ih _ hm).trans (hk u x hx.symm)
  induction l generalizing s with
  | nil => exact absurd hmem List.not_mem_nil
  | cons x m ih =>
    obtain ⟨hx, hm⟩ := List.nodup_cons.mp hl
    by_cases hkx : k = x
    · subst hkx
      exact ⟨s, hs, rfl, hrest m _ hx⟩
    · obtain ⟨u, hu, htier, hfold⟩ := ih hm ((List.mem_cons.mp hmem).resolve_left hkx) (g s x) (hP s x hs)
      exact ⟨u, hu, htier.trans (hk s x (Ne.symm hkx)), hfold⟩

/-! ### A window opens (R280) -/

/-- A window opens: what its page shows. -/
def State.openShown (s : State) (t : Tier) (lc : Nat) : State :=
  match t with
  | .zone => (s.applyAt pCHANT State.applyPlain).set pCHANT R.CHANT_ZOPEN lc
  | .column => s.set pCHANT R.CHANT_COPEN lc
  | .capture => s
theorem State.tierOpen_eq (s : State) (t : Tier) (lc : Nat) : s.tierOpen t lc =
    (if bit ((s.openShown t lc).tier t).clean ((s.openShown t lc).tier t).bank then s.openShown t lc
      else (s.openShown t lc).bankClear t ((s.openShown t lc).tier t).bank).updTier t
    fun x => { x with open_ := true, wOpen := lc, closeDue := false, gen := (if bit ((s.openShown t lc).tier t).clean ((s.openShown t lc).tier t).bank then s.openShown t lc else (s.openShown t lc).bankClear t ((s.openShown t lc).tier t).bank).get pCHANT R.PG_GEN_APPL_GEN } := by
  cases t <;> rfl
theorem State.flushStep_openShown (s : State) (t : Tier) (lc : Nat) : s.flushStep (s.openShown t lc) := by
  cases t with
  | zone =>
    refine State.flushStep.trans ?_ (State.flushStep_set _ lc (by decide))
    unfold State.applyAt
    split
    · exact s.flushStep_applyPlain
    · exact s.flushStep_refl
  | column => exact s.flushStep_set lc (by decide)
  | capture => exact s.flushStep_refl
theorem State.tier_openShown (s : State) (t : Tier) (lc : Nat) (k : Tier) : (s.openShown t lc).tier k = s.tier k := by
  have happly : (s.applyAt pCHANT State.applyPlain).tier k = s.tier k := by
    unfold State.applyAt
    split
    · obtain ⟨-, -, r, m, c, w, ht⟩ := s.applyPlain_frame pCHANT
      rw [ht]
      cases k <;> rfl
    · rfl
  cases t with
  | zone => exact happly
  | column => rfl
  | capture => rfl
theorem State.bursts_of_bank (s : State) {k : Tier} (hk : k ≠ .zone) : s.colBursts (s.tier k).bank ⊆ s.sumBursts := by
  cases k with
  | zone => exact absurd rfl hk
  | column => exact List.subset_append_left _ _
  | capture => exact List.subset_append_right _ _
theorem State.place_of_bank (s : State) : zonePlace (s.tier .zone).bank ∈ s.sumPlaces := List.mem_cons_of_mem _ (List.mem_cons_self ..)
theorem State.tier_bankClear (s : State) (t : Tier) (bank : Nat) (k : Tier) : (s.tier k).same ((s.bankClear t bank).tier k) := by
  rw [State.bankClear_eq]
  have hzero := s.memStep_bankZero t bank (l := s.colBursts bank) (z := [zonePlace bank]) (fun _ _ h => h) fun _ => List.mem_singleton_self _
  rw [← hzero.tier k]
  exact State.tier_same_updTier _ _ _ _ fun x => ⟨_, rfl⟩
theorem State.flushStep_bankClear (s : State) (t : Tier) : s.flushStep (s.bankClear t (s.tier t).bank) := by
  rw [State.bankClear_eq]
  refine (s.memStep_bankZero t _ (fun h => s.bursts_of_bank h) fun h => ?_).flush.trans (State.flushStep_updTier _ _ _ fun _ => rfl)
  subst h
  exact s.place_of_bank
/-- A window opens at its line, on the bank in use. -/
theorem State.tierOpen_spec (s : State) (t : Tier) (lc : Nat) : s.flushStep (s.tierOpen t lc) ∧
    (∃ g c, (s.tierOpen t lc).tier t = { s.tier t with open_ := true, wOpen := lc, gen := g, closeDue := false, clean := c }) ∧
    ∀ k, k ≠ t → (s.tierOpen t lc).tier k = s.tier k := by
  have hshown := s.flushStep_openShown t lc
  have htier := s.tier_openShown t lc
  rw [State.tierOpen_eq]
  generalize s.openShown t lc = u at hshown htier ⊢
  obtain ⟨v, hv⟩ : ∃ v, (if bit (u.tier t).clean (u.tier t).bank then u else u.bankClear t (u.tier t).bank) = v := ⟨_, rfl⟩
  rw [hv]
  have hclear : u.flushStep v ∧ (u.tier t).same (v.tier t) ∧ ∀ k, k ≠ t → v.tier k = u.tier k := by
    rw [← hv]
    split
    · exact ⟨u.flushStep_refl, TierSt.same_refl _, fun _ _ => rfl⟩
    · refine ⟨u.flushStep_bankClear t, u.tier_bankClear _ _ t, fun k hk => ?_⟩
      have hzero := u.memStep_bankZero t (u.tier t).bank (l := u.colBursts (u.tier t).bank) (z := [zonePlace (u.tier t).bank]) (fun _ _ h => h)
        fun _ => List.mem_singleton_self _
      rw [State.bankClear_eq, State.tier_updTier_other _ hk, hzero.tier]
  obtain ⟨hstep, ⟨c, hsame⟩, hother⟩ := hclear
  refine ⟨(hshown.trans hstep).trans (State.flushStep_updTier _ _ _ fun _ => rfl), ⟨v.get pCHANT R.PG_GEN_APPL_GEN, c, ?_⟩, fun k hk => ?_⟩
  · rw [State.tier_updTier_self, hsame, htier]
  · rw [State.tier_updTier_other _ hk, hother k hk, htier]

/-! ### The columns of a port are flushed (R279) -/

theorem State.memStep_tierAdds (s : State) {k : Nat} (hk : k < 48192) {w : List Nat} (hw : w.length = 55) (tiers : List Tier) :
    s.memStep (tiers.foldl (fun u x => u.tierAdd x k w) s) s.sumBursts s.sumPlaces := by
  refine State.memStep_foldl (l := s.sumBursts) (z := s.sumPlaces) (fun u : State => u) _ tiers s fun u x _ hu => ?_
  have hbursts : u.sumBursts = s.sumBursts := hu.flush.bursts
  have hplaces : u.sumPlaces = s.sumPlaces := hu.flush.places
  refine u.memStep_tierAdd x hk hw (fun hx => hbursts ▸ u.bursts_of_bank hx) fun _ => hplaces ▸ u.place_of_bank
theorem State.memStep_columns (s : State) (c : Nat) (tiers : List Tier) :
    s.memStep (s.each ((List.range 48192).filter (s.colOf c)) fun t k =>
      let r := t.takePart k
      if r.2.all (· == 0) then r.1 else tiers.foldl (fun u x => u.tierAdd x k r.2) r.1) s.sumBursts s.sumPlaces := by
  refine State.memStep_foldl (l := s.sumBursts) (z := s.sumPlaces) (fun u : State => u) _ _ s fun u k hk hu => ?_
  have hk : k < 48192 := List.mem_range.mp (List.mem_filter.mp hk).1
  have hbursts : u.sumBursts = s.sumBursts := hu.flush.bursts
  have hplaces : u.sumPlaces = s.sumPlaces := hu.flush.places
  rw [← hbursts, ← hplaces]
  obtain ⟨htake, hlen⟩ := u.takePart_spec hk u.sumBursts (z := u.sumPlaces) (List.mem_cons_self ..)
  dsimp only
  split
  · exact htake
  · have hadds := State.memStep_tierAdds (u.takePart k).1 hk hlen tiers
    rw [htake.flush.bursts, htake.flush.places] at hadds
    exact htake.trans hadds
theorem State.flushColumns_spec (s : State) (c : Nat) (tiers : List Tier) :
    s.flushStep (s.flushColumns c tiers) ∧ ∀ k, (s.tier k).same ((s.flushColumns c tiers).tier k) := by
  have hcols := s.memStep_columns c tiers
  unfold State.flushColumns
  dsimp only at hcols ⊢
  generalize s.each ((List.range 48192).filter (s.colOf c)) _ = u at hcols ⊢
  obtain ⟨v, hv⟩ : ∃ v, { u with chant := { u.chant with partsIn := setBit u.chant.partsIn c false } } = v := ⟨_, rfl⟩
  have hparts : u.flushStep v := hv ▸ State.flushStep_chant _ _ (fun k => by cases k <;> rfl) ⟨rfl, rfl, rfl⟩ rfl
  have htier : ∀ k, v.tier k = u.tier k := fun k => by
    rw [← hv]
    cases k <;> rfl
  have hclean : ∀ (t : State) (x : Tier), t.flushStep (t.updTier x fun y => { y with clean := setBit y.clean y.bank false }) := fun t x =>
    t.flushStep_updTier x _ fun _ => rfl
  rw [hv]
  refine ⟨(hcols.flush.trans hparts).trans (State.flushStep_foldl _ (fun t x => hclean t x) tiers v), fun k => ?_⟩
  rw [← hcols.tier k, ← htier k]
  exact List.foldlRecOn (motive := fun t : State => (v.tier k).same (t.tier k)) tiers _ (TierSt.same_refl _) fun t ht x _ =>
    ht.trans (t.tier_same_updTier x k _ fun y => ⟨_, rfl⟩)

end Sys2Proof.Machine
end

section
/-! ### The end of a flush (R279, R280; O51) -/
open Sys2Proof Sys2Proof.Machine
namespace Sys2Proof.Machine

/-! ### A window is judged -/

/-- A step of the judgement of windows: the window counters of CHANT and its tiers. -/
structure State.judgeStep (s t : State) : Prop where
  page : ∀ (p : Nat) (f : Fld), p ≠ pCHANT ∨ f.id ∉ [R.CHANT_ZWIN.id, R.CHANT_CWIN.id] → t.get p f = s.get p f
  kept : t.chant.flush = s.chant.flush ∧ t.chant.flushQ = s.chant.flushQ ∧ t.chant.fenceNext = s.chant.fenceNext
  shape : ∃ r c, t = { s with regs := r, chant := c }
theorem State.judgeStep_refl (s : State) : s.judgeStep s := ⟨fun _ _ _ => rfl, ⟨rfl, rfl, rfl⟩, _, _, rfl⟩
theorem State.judgeStep.trans {s t u : State} (h : s.judgeStep t) (k : t.judgeStep u) : s.judgeStep u := by
  obtain ⟨h1, h2, h3⟩ := h.kept
  obtain ⟨k1, k2, k3⟩ := k.kept
  obtain ⟨r, c, ht⟩ := h.shape
  obtain ⟨r', c', hu⟩ := k.shape
  exact ⟨fun p f hp => (k.page p f hp).trans (h.page p f hp), ⟨k1.trans h1, k2.trans h2, k3.trans h3⟩, r', c', by rw [hu, ht]⟩
theorem State.judgeStep_foldl {α : Type} (g : State → α → State) (hg : ∀ (t : State) x, t.judgeStep (g t x)) (l : List α) (s : State) : s.judgeStep (l.foldl g s) :=
  List.foldlRecOn (motive := fun t : State => s.judgeStep t) l g s.judgeStep_refl fun t ht x _ => ht.trans (hg t x)
theorem State.judgeStep_updTier (s : State) (k : Tier) (g : TierSt → TierSt) : s.judgeStep (s.updTier k g) := by
  cases k <;> exact ⟨fun _ _ _ => rfl, ⟨rfl, rfl, rfl⟩, _, _, rfl⟩
/-- The window of a tier is long enough at line l (R280). -/
def State.windowLong (s : State) (t : Tier) (last : Option Nat) : Bool :=
  match last with
  | some l => decide ((s.tierLen t : Int) ≤ diff32 (l + 16) (s.tier t).wOpen)
  | none => false
/-- A tier over to its other bank, the one in use in solve. -/
def TierSt.closed (x : TierSt) : TierSt :=
  { x with open_ := false, closeDue := false, bank := 1 - x.bank, win := x.win + 1, solving := some (x.bank, x.wOpen, x.wLast, x.win + 1, x.gen) }
/-- What the judgement of its window leaves of a tier. -/
def TierSt.judged (x : TierSt) (long : Bool) : TierSt :=
  if !x.open_ || !(long || x.closeDue) then x else if x.solving.isSome then { x with closeDue := true } else x.closed
theorem State.tierClose_spec (s : State) (t : Tier) : s.judgeStep (s.tierClose t) ∧ (s.tierClose t).tier t = (s.tier t).closed ∧
    ∀ k, k ≠ t → (s.tierClose t).tier k = s.tier k := by
  have hclosed : ∀ u : State, u = s.updTier t TierSt.closed → s.judgeStep u ∧ u.tier t = (s.tier t).closed ∧ ∀ k, k ≠ t → u.tier k = s.tier k := by
    rintro u rfl
    exact ⟨s.judgeStep_updTier t _, s.tier_updTier_self t _, fun k hk => s.tier_updTier_other hk _⟩
  have hcount : ∀ (u : State) (f : Fld), f.id ∈ [R.CHANT_ZWIN.id, R.CHANT_CWIN.id] → u.judgeStep (u.incWrap pCHANT f) := fun u f hf =>
    ⟨fun p g h => u.get_set_ne _ (h.imp id fun h e => h (e ▸ hf)), ⟨rfl, rfl, rfl⟩, _, _, rfl⟩
  cases t with
  | zone =>
    obtain ⟨h1, h2, h3⟩ := hclosed _ rfl
    exact ⟨h1.trans (hcount _ R.CHANT_ZWIN (by decide)), h2, fun k hk => h3 k hk⟩
  | column =>
    obtain ⟨h1, h2, h3⟩ := hclosed _ rfl
    exact ⟨h1.trans (hcount _ R.CHANT_CWIN (by decide)), h2, fun k hk => h3 k hk⟩
  | capture => exact hclosed _ rfl
theorem State.tierJudge_spec (s : State) (t : Tier) (last : Option Nat) : s.judgeStep (s.tierJudge t last) ∧
    (s.tierJudge t last).tier t = (s.tier t).judged (s.windowLong t last) ∧ ∀ k, k ≠ t → (s.tierJudge t last).tier k = s.tier k := by
  have heq : s.tierJudge t last = if !(s.tier t).open_ || !(s.windowLong t last || (s.tier t).closeDue) then s
      else if (s.tier t).solving.isSome then s.updTier t fun x => { x with closeDue := true } else s.tierClose t := by
    cases last <;> rfl
  rw [heq]
  unfold TierSt.judged
  split
  · exact ⟨s.judgeStep_refl, rfl, fun _ _ => rfl⟩
  · split
    · exact ⟨s.judgeStep_updTier t _, s.tier_updTier_self t _, fun k hk => s.tier_updTier_other hk _⟩
    · exact s.tierClose_spec t

theorem pCAL_notDram : ¬ dramPage pCAL := by
  rintro (h | ⟨c, hc, h⟩)
  · exact absurd h (by decide)
  · unfold pCAL pDRAM at h
    omega

/-! ### The flush of a good frame -/

/-- A window that a good frame finds open or opens at line w. -/
structure TierSt.running (x y : TierSt) (w : Nat) : Prop where
  isOpen : y.open_ = true
  wOpen : y.wOpen = w
  rest : y.bank = x.bank ∧ y.solving = x.solving ∧ y.win = x.win
  due : y.closeDue = (x.open_ && x.closeDue)
theorem TierSt.running.same {x y z : TierSt} {w : Nat} (h : x.running y w) (k : y.same z) : x.running z w := by
  obtain ⟨c, rfl⟩ := k
  exact ⟨h.isOpen, h.wOpen, h.rest, h.due⟩
theorem TierSt.running_judged {x y : TierSt} {w l : Nat} {long : Bool} (h : x.running y w) (hl : y.wLast = l) :
    (y.judged long).wOpen = w ∧ (y.judged long).wLast = l ∧
    ((long || (x.open_ && x.closeDue)) = true → x.solving = none → (y.judged long).open_ = false ∧ (y.judged long).bank = 1 - x.bank ∧
      ∃ g, (y.judged long).solving = some (x.bank, w, l, x.win + 1, g)) ∧
    ((long || (x.open_ && x.closeDue)) = true → x.solving ≠ none → (y.judged long).open_ = true ∧ (y.judged long).closeDue = true) ∧
    ((long || (x.open_ && x.closeDue)) = false → (y.judged long).open_ = true ∧ (y.judged long).bank = x.bank ∧ (y.judged long).solving = x.solving) := by
  obtain ⟨hbank, hsolving, hwin⟩ := h.rest
  have hcond : (!y.open_ || !(long || y.closeDue)) = !(long || (x.open_ && x.closeDue)) := by rw [h.isOpen, h.due]; rfl
  unfold TierSt.judged
  rw [hcond, hsolving]
  cases hfull : (long || (x.open_ && x.closeDue)) with
  | false => exact ⟨h.wOpen, hl, fun h => absurd h (by decide), fun h => absurd h (by decide), fun _ => ⟨h.isOpen, hbank, hsolving⟩⟩
  | true =>
    cases hs : x.solving with
    | none =>
      refine ⟨h.wOpen, hl, fun _ _ => ⟨rfl, congrArg (1 - ·) hbank, y.gen, ?_⟩, fun _ h => absurd rfl h, fun h => absurd h (by decide)⟩
      change some (y.bank, y.wOpen, y.wLast, y.win + 1, y.gen) = _
      rw [hbank, h.wOpen, hl, hwin]
    | some v =>
      exact ⟨h.wOpen, hl, fun _ h => absurd h (by simp), fun _ _ => ⟨h.isOpen, rfl⟩, fun h => absurd h (by decide)⟩
/-- The tiers that take the sums of a frame (R280). -/
def State.tiersOn (s : State) : List Tier := [Tier.zone, .column, .capture].filter s.tierOn
theorem State.tiersOn_nodup (s : State) : s.tiersOn.Nodup := List.Nodup.filter _ (by decide)
theorem State.mem_tiersOn {s : State} {k : Tier} (h : s.tierOn k = true) : k ∈ s.tiersOn :=
  List.mem_filter.mpr ⟨by cases k <;> decide, h⟩
/-- The windows that are not open open. -/
def State.windowsOpen (s : State) (tiers : List Tier) (lc : Nat) : State :=
  tiers.foldl (fun t x => if (t.tier x).open_ then t else t.tierOpen x lc) s
/-- The windows reach line l. -/
def State.windowsReach (s : State) (tiers : List Tier) (l : Nat) : State :=
  tiers.foldl (fun t x => t.updTier x fun y => { y with wLast := l }) s
/-- The windows are judged. -/
def State.windowsJudge (s : State) (tiers : List Tier) (last : Option Nat) : State := tiers.foldl (fun t x => t.tierJudge x last) s
theorem State.windowsOpen_step (s : State) (tiers : List Tier) (lc : Nat) : s.flushStep (s.windowsOpen tiers lc) :=
  State.flushStep_foldl _ (fun t x => by
    split
    · exact t.flushStep_refl
    · exact (t.tierOpen_spec x lc).1) _ s
theorem State.windowsReach_step (s : State) (tiers : List Tier) (l : Nat) : s.flushStep (s.windowsReach tiers l) := by
  have hstep : ∀ (t : State) (x : Tier), t.flushStep (t.updTier x fun y => { y with wLast := l }) := fun t x => t.flushStep_updTier x _ fun _ => rfl
  exact State.flushStep_foldl _ hstep _ s
theorem State.windowsJudge_step (s : State) (tiers : List Tier) (last : Option Nat) : s.judgeStep (s.windowsJudge tiers last) :=
  State.judgeStep_foldl _ (fun t x => (t.tierJudge_spec x last).1) _ s
theorem State.windowsOpen_tier (s : State) {tiers : List Tier} {k : Tier} (hn : tiers.Nodup) (hk : k ∈ tiers) (lc : Nat) :
    (s.tier k).running ((s.windowsOpen tiers lc).tier k) (if (s.tier k).open_ then (s.tier k).wOpen else lc) := by
  obtain ⟨u, -, hu, hfold⟩ := State.foldl_tier (P := fun _ => True) (fun t x => if (t.tier x).open_ then t else t.tierOpen x lc) k (fun _ _ _ => trivial)
    (fun u x hx => by
      split
      · rfl
      · exact (u.tierOpen_spec x lc).2.2 k hx.symm) hn hk s trivial
  unfold State.windowsOpen
  rw [hfold, ← hu]
  cases hopen : (u.tier k).open_ with
  | true =>
    rw [if_pos rfl, if_pos rfl]
    exact ⟨hopen, rfl, ⟨rfl, rfl, rfl⟩, by rw [hopen, Bool.true_and]⟩
  | false =>
    obtain ⟨-, ⟨g, c, ht⟩, -⟩ := u.tierOpen_spec k lc
    rw [if_neg (by decide), if_neg (by decide), ht]
    exact ⟨rfl, rfl, ⟨rfl, rfl, rfl⟩, by rw [hopen, Bool.false_and]⟩
theorem State.windowsReach_tier (s : State) {tiers : List Tier} {k : Tier} (hn : tiers.Nodup) (hk : k ∈ tiers) (l : Nat) :
    (s.windowsReach tiers l).tier k = { s.tier k with wLast := l } := by
  obtain ⟨u, -, hu, hfold⟩ := State.foldl_tier (P := fun _ => True) (fun t x => t.updTier x fun y => { y with wLast := l }) k (fun _ _ _ => trivial)
    (fun u x hx => u.tier_updTier_other hx.symm _) hn hk s trivial
  exact hfold.trans ((u.tier_updTier_self k _).trans (by rw [hu]))
theorem State.tierLen_congr {s t : State} (h : t.get pCAL R.CAL_WIN = s.get pCAL R.CAL_WIN) (k : Tier) : t.tierLen k = s.tierLen k := by
  cases k with
  | zone => rfl
  | column => rfl
  | capture =>
    unfold State.tierLen
    rw [h]
theorem State.windowsJudge_tier (s : State) {tiers : List Tier} {k : Tier} (hn : tiers.Nodup) (hk : k ∈ tiers) (l : Nat) :
    (s.windowsJudge tiers (some l)).tier k = (s.tier k).judged (decide ((s.tierLen k : Int) ≤ diff32 (l + 16) (s.tier k).wOpen)) := by
  obtain ⟨u, hP, hu, hfold⟩ := State.foldl_tier (P := fun u => u.get pCAL R.CAL_WIN = s.get pCAL R.CAL_WIN) (fun t x => t.tierJudge x (some l)) k
    (fun u x h => ((u.tierJudge_spec x (some l)).1.page pCAL R.CAL_WIN (Or.inl (by decide))).trans h)
    (fun u x hx => (u.tierJudge_spec x (some l)).2.2 k hx.symm) hn hk s rfl
  refine hfold.trans ((u.tierJudge_spec k (some l)).2.1.trans ?_)
  unfold State.windowLong
  rw [hu, State.tierLen_congr hP]
theorem State.flushStep_fresh (s : State) : s.flushStep s.tickFresh :=
  ⟨fun _ _ _ _ _ => rfl, fun _ _ => rfl, fun _ _ _ => rfl, s.dramOnly_refl _, s.lsWithin_refl _, fun _ => rfl, ⟨rfl, rfl, rfl⟩, fun _ h => h,
    _, _, _, _, _, _, _, _, _, _, _, _, _, rfl⟩
/-- The flush of a good frame, step by step. -/
theorem State.flushGood_eq (s : State) (c : Nat) (f : FlushSt) : s.flushGood c f =
    ((if f.lcFirst.isNone then (if f.lcFirst.isNone && !s.flushHas c then s else (s.windowsOpen s.tiersOn (s.openLc f)).tickFresh).flushColumns c s.tiersOn
      else ((if f.lcFirst.isNone && !s.flushHas c then s else (s.windowsOpen s.tiersOn (s.openLc f)).tickFresh).flushColumns c s.tiersOn).windowsReach s.tiersOn f.lcLast).windowsJudge
        s.tiersOn (f.lcFirst.map fun _ => f.lcLast)) := rfl
theorem State.flushGood_step (s : State) (c : Nat) (f : FlushSt) : ∃ u, s.flushStep u ∧ u.judgeStep (s.flushGood c f) := by
  rw [State.flushGood_eq]
  obtain ⟨v, hv⟩ : ∃ v, (if f.lcFirst.isNone && !s.flushHas c then s else (s.windowsOpen s.tiersOn (s.openLc f)).tickFresh) = v := ⟨_, rfl⟩
  have hopen : s.flushStep v := by
    rw [← hv]
    split
    · exact s.flushStep_refl
    · exact (s.windowsOpen_step _ _).trans (State.flushStep_fresh _)
  rw [hv]
  have hcols := hopen.trans (v.flushColumns_spec c s.tiersOn).1
  refine ⟨_, ?_, State.windowsJudge_step _ _ _⟩
  split
  · exact hcols
  · exact hcols.trans (State.windowsReach_step _ _ _)
/-- A tier that is on takes the sums of a good frame with a registered line into its window. -/
theorem State.flushGood_tier (s : State) (c : Nat) {f : FlushSt} {l w : Nat} {k : Tier} (hl : f.lcFirst = some l) (hk : s.tierOn k = true)
    (hw : w = if (s.tier k).open_ then (s.tier k).wOpen else l) : ∃ y, (s.tier k).running y w ∧ y.wLast = f.lcLast ∧
      (s.flushGood c f).tier k = y.judged (decide ((s.tierLen k : Int) ≤ diff32 (f.lcLast + 16) w)) := by
  have hn := s.tiersOn_nodup
  have hmem := State.mem_tiersOn hk
  have hopened := s.windowsOpen_tier hn hmem (s.openLc f)
  have hfirst : s.openLc f = l := by
    unfold State.openLc
    rw [hl]
    rfl
  rw [State.flushGood_eq, hl]
  simp only [Option.isNone_some, Bool.false_and, Bool.false_eq_true, if_false, Option.map_some]
  rw [hfirst, ← hw] at hopened
  rw [hfirst]
  have hstep := ((s.windowsOpen_step s.tiersOn l).trans (State.flushStep_fresh _)).trans
    (((s.windowsOpen s.tiersOn l).tickFresh.flushColumns_spec c s.tiersOn).1.trans (State.windowsReach_step _ s.tiersOn f.lcLast))
  have hsame := ((s.windowsOpen s.tiersOn l).tickFresh.flushColumns_spec c s.tiersOn).2 k
  have hreach := ((s.windowsOpen s.tiersOn l).tickFresh.flushColumns c s.tiersOn).windowsReach_tier hn hmem f.lcLast
  have hran := TierSt.running.same (y := (s.windowsOpen s.tiersOn l).tickFresh.tier k) hopened hsame
  have hjudge := (((s.windowsOpen s.tiersOn l).tickFresh.flushColumns c s.tiersOn).windowsReach s.tiersOn f.lcLast).windowsJudge_tier hn hmem f.lcLast
  have hlen := State.tierLen_congr (hstep.page pCAL pCAL_notDram (by decide) (by decide) R.CAL_WIN) k
  generalize (s.windowsOpen s.tiersOn l).tickFresh.flushColumns c s.tiersOn = u at hran hreach hjudge hlen ⊢
  obtain ⟨ho, hwo, hrest, hdue⟩ := hran
  refine ⟨{ u.tier k with wLast := f.lcLast }, ⟨ho, hwo, hrest, hdue⟩, rfl, ?_⟩
  rw [hjudge, hlen, hreach]
  dsimp only
  rw [hwo]

end Sys2Proof.Machine
end

section
/-! ### FLUSH_END (R279, R280; O51) -/
open Sys2Proof Sys2Proof.Machine
namespace Sys2Proof.Machine

/-- What a fence of CHANT leaves: its tiers, its flushes, the memories and the frames it has skipped. -/
structure State.chantStands (s t : State) : Prop where
  tier : ∀ k, t.tier k = s.tier k
  flush : t.chant.flush = s.chant.flush ∧ t.chant.flushQ = s.chant.flushQ ∧ t.chant.fenceNext = s.chant.fenceNext
  hold : t.hold = s.hold
  skipped : t.get pCHANT R.CHANT_FRSKIP_CNT = s.get pCHANT R.CHANT_FRSKIP_CNT
theorem State.chantStands.trans {s t u : State} (h : s.chantStands t) (k : t.chantStands u) : s.chantStands u := by
  obtain ⟨h1, h2, h3⟩ := h.flush
  obtain ⟨k1, k2, k3⟩ := k.flush
  exact ⟨fun x => (k.tier x).trans (h.tier x), ⟨k1.trans h1, k2.trans h2, k3.trans h3⟩, k.hold.trans h.hold, k.skipped.trans h.skipped⟩
theorem State.chantStands_of {s t : State} (hc : t.chant = s.chant) (hh : t.hold = s.hold)
    (hf : t.get pCHANT R.CHANT_FRSKIP_CNT = s.get pCHANT R.CHANT_FRSKIP_CNT) : s.chantStands t := by
  refine ⟨fun k => ?_, by rw [hc]; exact ⟨rfl, rfl, rfl⟩, hh, hf⟩
  unfold State.tier
  rw [hc]
theorem State.fence_chant_eq (s : State) (reason src lo hi : Nat) (count : Bool) :
    s.fence pCHANT reason src lo hi count = s.fenceOne pCHANT reason src lo hi count := by
  unfold State.fence
  simp only [blkOf_chant]
  exact ite_self _
theorem State.fenceOne_chantStands {s : State} (hfen : s.fenced pCHANT = false) (reason src lo hi : Nat) :
    s.chantStands (s.fenceOne pCHANT reason src lo hi) := by
  unfold State.fenceOne
  simp only [blkOf_chant]
  rw [if_neg (by decide), if_neg (by simp [hfen])]
  split
  · exact State.chantStands_of rfl rfl rfl
  · have herr : s.chantStands (s.err pCHANT reason src lo hi) := by
      obtain ⟨r, w, h⟩ := s.reports_err pCHANT reason src lo hi 0
      refine State.chantStands_of ?_ ?_ (s.get_err_ne pCHANT reason src lo hi 0 (Or.inr (by decide)))
      all_goals rw [h]
      rfl
    rw [if_pos trivial]
    generalize s.err pCHANT reason src lo hi = u at herr ⊢
    have hmark : u.chantStands (u.fenceMark pCHANT reason) := by
      obtain ⟨-, r, w, m, h⟩ := u.fenceMark_frame pCHANT reason
      refine State.chantStands_of ?_ ?_ (u.fenceMark_field pCHANT reason (by decide))
      all_goals rw [h]
      rfl
    generalize u.fenceMark pCHANT reason = v at hmark ⊢
    have hstops : v.chantStands (v.fenceStops .chant 0 reason) := ⟨fun k => by cases k <;> rfl, ⟨rfl, rfl, rfl⟩, rfl, rfl⟩
    refine ((herr.trans hmark).trans hstops).trans ?_
    generalize v.fenceStops .chant 0 reason = x
    obtain ⟨hget, r, p, w, o, h⟩ := s.pairRise_frame x reason 0
    refine State.chantStands_of ?_ ?_ (hget pCHANT _ (by decide))
    all_goals rw [h]
    rfl
theorem State.fenceOne_chant_shows {s : State} (hmay : mayFence s pCHANT) {reason : Nat} (hr : reason < 256) (src lo hi : Nat) :
    (s.fenceOne pCHANT reason src lo hi).fenced pCHANT = true ∧ (s.fenceOne pCHANT reason src lo hi).get pCHANT R.PG_FENCE_REASON = reason := by
  obtain ⟨h1, h2, -⟩ := State.fenceOne_shows blkOf_chant rfl hmay (by decide) hr src lo hi true
    (fun t => State.headerKeeps_of_regs _ rfl rfl rfl rfl rfl) rfl
  exact ⟨h1, h2⟩

/-! ### The sums of a frame -/

/-- A frame whose sums Chanter uses (R279). -/
def State.goodFrame (s : State) (c : Nat) (f : FlushSt) : Bool :=
  !f.short && (!s.flag pCHANT R.CHANT_CAMGEN_CHK || f.gen == s.get pCHANT (chantGen c))
/-- The frame's generation stands for the run of a capture. -/
def State.genNoted (s : State) (c : Nat) (f : FlushSt) : State :=
  if s.chant.capturing && !s.calst.gens.has c then { s with calst := { s.calst with gens := s.calst.gens.put c f.gen } } else s
theorem State.flushStep_genNoted (s : State) (c : Nat) (f : FlushSt) : s.flushStep (s.genNoted c f) := by
  unfold State.genNoted
  split
  · exact ⟨fun _ _ _ _ _ => rfl, fun _ _ => rfl, fun _ _ _ => rfl, s.dramOnly_refl _, s.lsWithin_refl _, fun _ => rfl, ⟨rfl, rfl, rfl⟩, fun _ h => h,
      _, _, _, _, _, _, _, _, _, _, _, _, _, rfl⟩
  · exact s.flushStep_refl
theorem State.goodFrame_parts (s : State) (c : Nat) (f : FlushSt) : s.partsReady.goodFrame c f = s.goodFrame c f := by
  unfold State.partsReady
  split <;> rfl
theorem State.flushSums_good {s : State} {c : Nat} {f : FlushSt} (h : s.goodFrame c f = true) : s.flushSums c f = (s.partsReady.genNoted c f).flushGood c f := by
  rw [← State.goodFrame_parts] at h
  unfold State.flushSums State.genNoted
  dsimp only
  unfold State.goodFrame at h
  rw [if_neg]
  · simp only [Bool.and_eq_true, Bool.or_eq_true, Bool.not_eq_true', beq_iff_eq] at h
    simp only [Bool.or_eq_true, Bool.and_eq_true, bne_iff_ne, ne_eq, not_or, not_and_or, not_not, Bool.not_eq_true]
    exact h
theorem State.flushSums_bad {s : State} {c : Nat} {f : FlushSt} (h : s.goodFrame c f = false) : s.flushSums c f =
    ((s.partsReady.flushColumns c []).incSat pCHANT R.CHANT_FRSKIP_CNT).windowsJudge [Tier.zone, .column, .capture] none := by
  rw [← State.goodFrame_parts] at h
  unfold State.flushSums
  dsimp only
  unfold State.goodFrame at h
  rw [if_pos]
  · rfl
  · revert h
    cases f.short <;> cases s.partsReady.flag pCHANT R.CHANT_CAMGEN_CHK <;> simp
/-- The sums move step by step: up to the judgement, with a frame that cannot be used counted. -/
theorem State.flushSums_steps (s : State) (c : Nat) (f : FlushSt) : ∃ u v, s.flushStep u ∧
    (v = if s.goodFrame c f then u else u.incSat pCHANT R.CHANT_FRSKIP_CNT) ∧ v.judgeStep (s.flushSums c f) := by
  cases hgood : s.goodFrame c f with
  | true =>
    obtain ⟨u, hu, ht⟩ := (s.partsReady.genNoted c f).flushGood_step c f
    rw [State.flushSums_good hgood]
    exact ⟨u, u, (s.flushStep_partsReady.trans (State.flushStep_genNoted _ c f)).trans hu, rfl, ht⟩
  | false =>
    rw [State.flushSums_bad hgood]
    exact ⟨_, _, s.flushStep_partsReady.trans (s.partsReady.flushColumns_spec c []).1, rfl, State.windowsJudge_step _ _ _⟩
/-- What the sums of a frame move, whatever becomes of them. -/
theorem State.flushSums_frame (s : State) (c : Nat) (f : FlushSt) {t : State} (ht : s.flushSums c f = t) : sumsOnly s t ∧
    (t.chant.flush = s.chant.flush ∧ t.chant.flushQ = s.chant.flushQ) ∧ (∀ a, s.chant.fenceNext = some a → t.chant.fenceNext = some a) ∧
    t.fenced pCHANT = s.fenced pCHANT ∧ t.held pCHANT = s.held pCHANT ∧ t.srsts = s.srsts ∧
    (s.goodFrame c f = false → t.get pCHANT R.CHANT_FRSKIP_CNT = min (s.get pCHANT R.CHANT_FRSKIP_CNT + 1) (2 ^ R.CHANT_FRSKIP_CNT.w - 1)) := by
  obtain ⟨u, v, hu, hv, hjudge⟩ := s.flushSums_steps c f
  rw [ht] at hjudge
  have hvu : ∃ r, v = { u with regs := r } := by
    rw [hv]
    split <;> exact ⟨_, rfl⟩
  have hvget : ∀ (p : Nat) (g : Fld), p ≠ pCHANT ∨ g.id ≠ R.CHANT_FRSKIP_CNT.id → v.get p g = u.get p g := fun p g h => by
    rw [hv]
    split
    · rfl
    · exact u.get_incSat_ne h
  obtain ⟨r0, hvu⟩ := hvu
  obtain ⟨h1, h2, -⟩ := hu.kept
  obtain ⟨k1, k2, k3⟩ := hjudge.kept
  have hchant : v.chant = u.chant := by rw [hvu]
  rw [hchant] at k1 k2 k3
  have hfence : t.get pCHANT R.PG_FENCE_FENCED = s.get pCHANT R.PG_FENCE_FENCED :=
    (hjudge.page _ _ (Or.inr (by decide))).trans ((hvget _ _ (Or.inr (by decide))).trans (hu.chant _ (by decide)))
  have hshut : t.get pTHERM R.THERM_STAT_SHUT = s.get pTHERM R.THERM_STAT_SHUT :=
    (hjudge.page _ _ (Or.inl (by decide))).trans ((hvget _ _ (Or.inl (by decide))).trans (hu.page _ (fun hd => by
      rcases hd with hd | ⟨c, hc, hd⟩
      · exact absurd hd (by decide)
      · unfold pTHERM pDRAM at hd
        omega) (by decide) (by decide) _))
  have hskip : s.goodFrame c f = false → t.get pCHANT R.CHANT_FRSKIP_CNT = min (s.get pCHANT R.CHANT_FRSKIP_CNT + 1) (2 ^ R.CHANT_FRSKIP_CNT.w - 1) := fun hg => by
    rw [hg, if_neg (by decide)] at hv
    rw [hjudge.page _ _ (Or.inr (by decide)), hv, State.get_incSat_self, hu.chant _ (by decide)]
  obtain ⟨r, c', hshape⟩ := hjudge.shape
  obtain ⟨r', d, w, m, k, x, e, y, c'', fr, a, co, ca, hushape⟩ := hu.shape
  have hsame : t.pending = s.pending ∧ t.flash = s.flash ∧ t.srsts = s.srsts ∧ t.heldReset = s.heldReset := by
    rw [hshape, hvu, hushape]
    exact ⟨rfl, rfl, rfl, rfl⟩
  have hmem : t.dramMem = u.dramMem ∧ t.dramChk = u.dramChk ∧ t.lstore = u.lstore := by
    rw [hshape, hvu]
    exact ⟨rfl, rfl, rfl⟩
  obtain ⟨hp, hfl, hsr, hheld⟩ := hsame
  obtain ⟨hm, hk, hl⟩ := hmem
  refine ⟨⟨hp, hfl, ?_, fun b hb => ?_⟩, ⟨k1.trans h1, k2.trans h2⟩, fun b hb => k3.trans (hu.fence b hb), ?_, ?_, hsr, hskip⟩
  · unfold State.dramOnly
    rw [hm, hk]
    exact hu.only
  · rw [hl]
    exact hu.within b hb
  · unfold State.fenced State.flag
    rw [hfence]
  · unfold State.held State.shut State.flag
    rw [hheld, hshut]
/-- A tier that is on takes a good frame into its window, which is judged. -/
theorem State.flushSums_tier {s : State} {c : Nat} {f : FlushSt} {l w : Nat} {k : Tier} (hgood : s.goodFrame c f = true) (hl : f.lcFirst = some l)
    (hk : s.tierOn k = true) (hw : w = if (s.tier k).open_ then (s.tier k).wOpen else l) : ∃ y, (s.tier k).running y w ∧ y.wLast = f.lcLast ∧
      (s.flushSums c f).tier k = y.judged (decide ((s.tierLen k : Int) ≤ diff32 (f.lcLast + 16) w)) := by
  have hparts : ∀ j, s.partsReady.tierOn j = s.tierOn j ∧ s.partsReady.tier j = s.tier j ∧ s.partsReady.tierLen j = s.tierLen j := fun j => by
    unfold State.partsReady
    split
    · exact ⟨rfl, rfl, rfl⟩
    · cases j <;> exact ⟨rfl, rfl, rfl⟩
  have hgen : ∀ (u : State) j, (u.genNoted c f).tierOn j = u.tierOn j ∧ (u.genNoted c f).tier j = u.tier j ∧ (u.genNoted c f).tierLen j = u.tierLen j := fun u j => by
    unfold State.genNoted
    split
    · cases j <;> exact ⟨rfl, rfl, rfl⟩
    · exact ⟨rfl, rfl, rfl⟩
  obtain ⟨p1, p2, p3⟩ := hparts k
  obtain ⟨g1, g2, g3⟩ := hgen s.partsReady k
  have h := (s.partsReady.genNoted c f).flushGood_tier c (w := w) hl (g1.trans (p1.trans hk)) (by rw [g2, p2]; exact hw)
  rw [g2, p2, g3, p3] at h
  rw [State.flushSums_good hgood]
  exact h

/-! ### The flush ends -/

theorem State.flushNext_spec (s : State) (c : Nat) : (s.flushNext c).chant.flush.has c = s.chant.flushQ.any (·.1 == c) ∧
    ∀ e, s.chant.flushQ.find? (·.1 == c) = some e → (s.flushNext c).chant.flush.getD c ⟨0, true, none, 0, 0⟩ = e.2 ∧
      (s.flushNext c).chant.flushQ.length + 1 = s.chant.flushQ.length := by
  have hany : (s.chant.flushQ.find? (·.1 == c)).isSome = s.chant.flushQ.any (·.1 == c) := List.isSome_find?
  unfold State.flushNext
  dsimp only
  rw [← hany]
  refine ⟨?_, fun e he => ?_⟩
  · cases hf : s.chant.flushQ.find? (·.1 == c) with
    | none => exact NMap.has_del_self _ _
    | some e => exact NMap.has_put_self _ _ _
  · have hmem := List.mem_of_find?_eq_some he
    have hlen := List.length_eraseP_of_mem hmem (List.find?_some he)
    have hpos := List.length_pos_of_mem hmem
    rw [he, hlen]
    exact ⟨NMap.getD_put_self _ _ _ _, by omega⟩
theorem State.flushDo_eq (s : State) (c : Nat) (f : FlushSt) : s.flushDo c f =
    match (if s.fenced pCHANT then none else ((s.flushNext c).flushSums c f).chant.fenceNext) with
    | some a => { (s.flushNext c).flushSums c f with chant := { ((s.flushNext c).flushSums c f).chant with fenceNext := none } }.fence pCHANT 0x11 0 a (a / 2 ^ 32)
    | none => (s.flushNext c).flushSums c f := rfl
/-- The flush ends as its sums leave the device, but for the fence that follows it. -/
theorem State.flushDo_spec (s : State) (c : Nat) (f : FlushSt) {t u : State} (hu : (s.flushNext c).flushSums c f = u) (ht : s.flushDo c f = t) :
    (∀ k, t.tier k = u.tier k) ∧ (t.chant.flush = u.chant.flush ∧ t.chant.flushQ = u.chant.flushQ) ∧ t.hold = u.hold ∧
    t.get pCHANT R.CHANT_FRSKIP_CNT = u.get pCHANT R.CHANT_FRSKIP_CNT ∧
    (∀ a, mayFence s pCHANT → s.chant.fenceNext = some a → t.fenced pCHANT = true ∧ t.get pCHANT R.PG_FENCE_REASON = 0x11 ∧ t.chant.fenceNext = none) := by
  obtain ⟨-, -, hnext, hfen, hheld, hsr, -⟩ := (s.flushNext c).flushSums_frame c f hu
  rw [State.flushDo_eq, hu] at ht
  cases hn : (if s.fenced pCHANT then none else u.chant.fenceNext) with
  | none =>
    rw [hn] at ht
    subst ht
    refine ⟨fun _ => rfl, ⟨rfl, rfl⟩, rfl, rfl, fun a hmay ha => ?_⟩
    obtain ⟨hs, -, -⟩ := hmay
    rw [if_neg (by simp [hs]), hnext a ha] at hn
    exact absurd hn (by simp)
  | some a =>
    rw [hn] at ht
    dsimp only at ht
    have hs : s.fenced pCHANT = false := by
      by_contra hc
      rw [if_pos (by simpa using hc)] at hn
      exact absurd hn (by simp)
    obtain ⟨v, hv⟩ : ∃ v, { u with chant := { u.chant with fenceNext := none } } = v := ⟨_, rfl⟩
    rw [hv, State.fence_chant_eq] at ht
    have hvt : ∀ k, v.tier k = u.tier k := fun k => by
      rw [← hv]
      cases k <;> rfl
    have hvs : v.fenced pCHANT = s.fenced pCHANT ∧ v.held pCHANT = s.held pCHANT ∧ v.srsts = s.srsts := by
      rw [← hv]
      exact ⟨hfen, hheld, hsr⟩
    have hvrest : v.chant.flush = u.chant.flush ∧ v.chant.flushQ = u.chant.flushQ ∧ v.chant.fenceNext = none ∧ v.hold = u.hold ∧
        v.get pCHANT R.CHANT_FRSKIP_CNT = u.get pCHANT R.CHANT_FRSKIP_CNT := by
      rw [← hv]
      exact ⟨rfl, rfl, rfl, rfl, rfl⟩
    obtain ⟨hv1, hv2, hv3⟩ := hvs
    obtain ⟨w1, w2, w3, w4, w5⟩ := hvrest
    have hstands := State.fenceOne_chantStands (hv1.trans hs) 0x11 0 a (a / 2 ^ 32)
    rw [ht] at hstands
    obtain ⟨f1, f2, f3⟩ := hstands.flush
    refine ⟨fun k => (hstands.tier k).trans (hvt k), ⟨f1.trans w1, f2.trans w2⟩, hstands.hold.trans w4, hstands.skipped.trans w5, fun b hmay hb => ?_⟩
    obtain ⟨-, hmay2, hmay3⟩ := hmay
    obtain ⟨g1, g2⟩ := State.fenceOne_chant_shows (s := v) ⟨hv1.trans hs, hv2.trans hmay2, by rw [hv3]; exact hmay3⟩ (reason := 0x11) (by decide) 0 a (a / 2 ^ 32)
    rw [ht] at g1 g2
    exact ⟨g1, g2, f3.trans w3⟩
/-- What becomes of one tier as the frame says. -/
def tierTakes (s t : State) (f : FlushSt) (k : Tier) (w : Nat) (full : Prop) : Prop :=
  (t.tier k).wOpen = w ∧ (t.tier k).wLast = f.lcLast ∧
  (full → (s.tier k).solving = none → (t.tier k).open_ = false ∧ (t.tier k).bank = 1 - (s.tier k).bank ∧
    ∃ g, (t.tier k).solving = some ((s.tier k).bank, w, f.lcLast, (s.tier k).win + 1, g)) ∧
  (full → (s.tier k).solving ≠ none → (t.tier k).open_ = true ∧ (t.tier k).closeDue = true) ∧
  (¬ full → (t.tier k).open_ = true ∧ (t.tier k).bank = (s.tier k).bank ∧ (t.tier k).solving = (s.tier k).solving)
theorem State.flushDo_tier {s : State} {c : Nat} {f : FlushSt} {l w : Nat} {k : Tier} {full : Prop} {t : State} (ht : s.flushDo c f = t)
    (hgood : s.goodFrame c f = true) (hl : f.lcFirst = some l) (hk : s.tierOn k = true) (hw : w = if (s.tier k).open_ then (s.tier k).wOpen else l)
    (hfull : full ↔ (s.tierLen k : Int) ≤ diff32 (f.lcLast + 16) w ∨ ((s.tier k).open_ = true ∧ (s.tier k).closeDue = true)) : tierTakes s t f k w full := by
  obtain ⟨htier, -⟩ := s.flushDo_spec c f rfl ht
  have hsame : (s.flushNext c).tierOn k = s.tierOn k ∧ (s.flushNext c).tier k = s.tier k ∧ (s.flushNext c).tierLen k = s.tierLen k := by
    cases k <;> exact ⟨rfl, rfl, rfl⟩
  obtain ⟨hon, htk, hlen⟩ := hsame
  obtain ⟨y, hrun, hlast, hu⟩ := State.flushSums_tier (s := s.flushNext c) (c := c) (w := w) hgood hl (hon.trans hk) (by rw [htk]; exact hw)
  rw [htk] at hrun
  rw [hlen] at hu
  have hj := TierSt.running_judged hrun hlast (long := decide ((s.tierLen k : Int) ≤ diff32 (f.lcLast + 16) w))
  have hfull' : full ↔ (decide ((s.tierLen k : Int) ≤ diff32 (f.lcLast + 16) w) || ((s.tier k).open_ && (s.tier k).closeDue)) = true := by
    rw [hfull, Bool.or_eq_true, Bool.and_eq_true, decide_eq_true_iff]
  unfold tierTakes
  rw [htier, hu, hfull', Bool.not_eq_true]
  exact hj

theorem exec_flushEnd_idle {s : State} {c : CamPort} (h : s.chantRuns = false ∨ s.chant.flush.has c = false ∨ s.flushFree = false) :
    exec (.flushEnd c) s = .next s := by
  change execFlushEnd c s = _
  unfold execFlushEnd
  rw [if_pos (by rcases h with h | h | h <;> simp [h])]
theorem exec_flushEnd {s : State} {c : CamPort} (hr : s.chantRuns = true) (hh : s.chant.flush.has c = true) (hf : s.flushFree = true) :
    exec (.flushEnd c) s = .next (s.chantWork fun t => t.flushDo c (t.chant.flush.getD c ⟨0, true, none, 0, 0⟩)) := by
  change execFlushEnd c s = _
  unfold execFlushEnd
  rw [if_neg (by simp [hr, hh, hf])]
/-- What holds of work of Chanter that does not look at its registers holds where the page is fenced. -/
theorem State.chantWork_stands (s : State) (g : State → State) : (s.chantWork g).hold = (g s).hold ∧ (s.chantWork g).chant = (g s).chant := by
  unfold State.chantWork State.pageWork
  split <;> exact ⟨rfl, rfl⟩
theorem State.chantWork_fenced {s : State} (h : s.fenced pCHANT = true) (g : State → State) (f : Fld) : (s.chantWork g).get pCHANT f = s.get pCHANT f := by
  unfold State.chantWork State.pageWork
  rw [if_pos h, State.get_keepPage, if_pos rfl]
theorem State.chantWork_free {s : State} (h : s.fenced pCHANT = false) (g : State → State) : s.chantWork g = g s := by
  unfold State.chantWork State.pageWork
  rw [if_neg (by simp [h])]
theorem sumsOnly_congr {s u t : State} (h : sumsOnly s u) (k : t.hold = u.hold) : sumsOnly s t := by
  have hp : t.pending = u.pending := congrArg (·.1) k
  have hl : t.lstore = u.lstore := congrArg (·.2.1) k
  have hm : t.dramMem = u.dramMem := congrArg (·.2.2.1) k
  have hc : t.dramChk = u.dramChk := congrArg (·.2.2.2.1) k
  have hf : t.flash = u.flash := congrArg (·.2.2.2.2) k
  unfold sumsOnly State.dramOnly State.lsWithin at h ⊢
  rwa [hp, hl, hm, hc, hf]

end Sys2Proof.Machine
end

section
/-! ### SOLVE_END (R281, R282, R285, R293; O51) -/
open Sys2Proof Sys2Proof.Machine
namespace Sys2Proof.Machine

/-- Whether a page works is told by the page's header, the die's shut-down and the resets. -/
theorem State.working_at {s t : State} {p : Nat} (hs : t.srsts = s.srsts) (hh : t.heldReset = s.heldReset) (hen : t.get p R.PG_CTRL_EN = s.get p R.PG_CTRL_EN)
    (hf : t.get p R.PG_FENCE_FENCED = s.get p R.PG_FENCE_FENCED) (hshut : t.get pTHERM R.THERM_STAT_SHUT = s.get pTHERM R.THERM_STAT_SHUT) :
    t.working p = s.working p := by
  unfold State.working State.enabled State.fenced State.resetting State.held State.shut State.flag
  rw [hs, hh, hen, hf, hshut]
theorem pTHERM_notDram : ¬ dramPage pTHERM := by
  rintro (h | ⟨c, hc, h⟩)
  · exact absurd h (by decide)
  · unfold pTHERM pDRAM at h
    omega

/-! ### A trim cycle starts (R285) -/

theorem State.cycleStart_spec (s : State) {t : State} (ht : s.cycleStart = t) (hfen : s.frozen pCHANT = false) :
    t.chant.cycleDue = false ∧ t.chant.bars = s.get pCHANT R.CHANT_CTRL_TRIM_EN ∧ t.get pCHANT R.CHANT_CYCLE = (s.get pCHANT R.CHANT_CYCLE + 1) % 2 ^ 32 ∧
    bit (t.get pCHANT R.PG_IRQ_RAW) 4 = true ∧ (∀ i < 32, bit (s.get pCHANT R.PG_IRQ_RAW) i = true → bit (t.get pCHANT R.PG_IRQ_RAW) i = true) ∧
    (∀ k, (t.tier k).solving = (s.tier k).solving) ∧ (∀ p f, p ≠ pCHANT ∨ f.id ∉ [R.CHANT_CYCLE.id, R.PG_IRQ_RAW.id] → t.get p f = s.get p f) ∧
    t.hold = s.hold ∧ t.pipe = s.pipe ∧ ∃ r w c, t = { s with regs := r, host := { s.host with waiting := w }, chant := c } := by
  obtain ⟨u, hu⟩ : ∃ u, s.incWrap pCHANT R.CHANT_CYCLE = u := ⟨_, rfl⟩
  have hut : ∀ f : Fld, (u.cause pCHANT 4).get pCHANT f = t.get pCHANT f := fun f => by
    rw [← ht, ← hu]
    rfl
  have hug : ∀ (p : Nat) (f : Fld), p ≠ pCHANT ∨ f.id ≠ R.CHANT_CYCLE.id → u.get p f = s.get p f := fun p f h => hu ▸ s.get_set_ne _ h
  have hfrozen : u.frozen pCHANT = false := (State.frozen_congr (hug pCHANT R.PG_FENCE_FENCED (Or.inr (by decide)))).trans hfen
  obtain ⟨r, w, hr⟩ := u.reports_cause pCHANT 4
  have hraw : ∀ i < 32, bit (s.get pCHANT R.PG_IRQ_RAW) i = true → bit (t.get pCHANT R.PG_IRQ_RAW) i = true := fun i hi hb => by
    rw [← hut]
    exact u.bit_cause_keeps hi (by rwa [hug _ _ (Or.inr (by decide))])
  refine ⟨by rw [← ht]; rfl, ?_, ?_, ?_, hraw, fun k => ?_, fun p f h => ?_, ?_, ?_, ?_⟩
  · have hen : t.chant.bars = (u.cause pCHANT 4).get pCHANT R.CHANT_CTRL_TRIM_EN := by
      rw [← ht, ← hu]
      rfl
    rw [hen, u.get_cause_ne 4 (Or.inr (by decide)), hug _ _ (Or.inr (by decide))]
  · rw [← hut, u.get_cause_ne 4 (Or.inr (by decide)), ← hu]
    exact s.get_addWrap_self _ _ _
  · rw [← hut]
    exact u.bit_cause (by decide) hfrozen
  · have hchant : (u.cause pCHANT 4).chant = s.chant := by
      rw [hr, ← hu]
      rfl
    rw [← ht]
    unfold State.cycleStart
    rw [hu]
    cases k
    · exact congrArg (·.zone.solving) hchant
    · exact congrArg (·.col.solving) hchant
    · exact congrArg (·.cap.solving) hchant
  · have htg : t.get p f = (u.cause pCHANT 4).get p f := by
      rw [← ht, ← hu]
      rfl
    simp only [List.mem_cons, List.not_mem_nil, or_false, not_or] at h
    rw [htg, u.get_cause_ne 4 (h.imp id And.right), hug _ _ (h.imp id And.left)]
  · rw [← ht]
    exact s.cycleStart_hold
  · rw [← ht]
    unfold State.cycleStart
    rw [hu, hr, ← hu]
    rfl
  · rw [← ht]
    unfold State.cycleStart
    rw [hu, hr, ← hu]
    exact ⟨_, _, _, rfl⟩

/-! ### The solve of a tier -/

/-- The reads of the solve of a bank, with its gain errors in reverse. -/
def State.solveReads (s : State) (t : Tier) (n : Nat) (x : Nat × Nat × Nat × Nat × Nat) : State × List (List (Option Int)) :=
  (List.range n).foldl (fun (r : State × List (List (Option Int))) i =>
    let q := r.1.sumsOf t x.1 i
    (q.1, r.1.gainErrors q.2 i :: r.2)) (s, [])
theorem State.memStep_solveReads (s : State) (t : Tier) (n : Nat) (x : Nat × Nat × Nat × Nat × Nat) : s.memStep (s.solveReads t n x).1 [] [] :=
  State.memStep_foldl (l := []) (z := []) (fun r : State × List (List (Option Int)) => r.1) _ _ (s, []) fun r i _ _ => r.1.memStep_sumsOf t x.1 i [] []
/-- The errors held, and the bank cleared. -/
def State.solveHeld (s : State) (k : Tier) (bank holds : Nat) : State := (s.tickFresh.addSat pCHANT R.CHANT_HOLD_CNT holds).bankClear k bank
/-- The record of a solve goes out where it is asked for. -/
def State.solveOut (s : State) (r : List Byte) : State :=
  if s.flag pCHANT R.CHANT_BIND_EN then s.enqueue 0x32 { bytes := r, last := true } else s
/-- A tier with its bank solved and a cycle due. -/
def State.solvedTier (s : State) (k : Tier) (bank holds : Nat) (e : List (Option Int)) (r : List Byte) : State :=
  let u := ((s.solveHeld k bank holds).updTier k fun y => { y with solving := none, e := e, fresh := true }).solveOut r
  { u.cause pCHANT 3 with chant := { u.chant with cycleDue := true } }
theorem State.solveTier_eq (s : State) (k : Tier) (tier n : Nat) (x : Nat × Nat × Nat × Nat × Nat) : ∃ holds e r,
    s.solveTier k tier n x = ((s.solveReads k n x).1.solvedTier k x.1 holds e r).cycleSettle := by
  refine ⟨(s.solveReads k n x).2.reverse.foldl (fun a l => a + (s.modelSet.filter fun b => (l.getD b none).isNone).length) 0, (s.solveReads k n x).2.reverse.flatten,
    solveRecord tier x (s.solveReads k n x).2.reverse ((s.solveReads k n x).2.reverse.foldl (fun a l => a + (s.modelSet.filter fun b => (l.getD b none).isNone).length) 0), ?_⟩
  rfl
/-- What the memories keep where a bank is read and then cleared. -/
def bankOnly (s t : State) (k : Tier) (bank : Nat) : Prop :=
  (k = .zone → s.lsOnly t [zonePlace bank]) ∧ (k ≠ .zone → s.dramStores t (s.colBursts bank))
theorem bankOnly_congr {s t u : State} {k : Tier} {bank : Nat} (h : bankOnly s t k bank) (hh : u.hold = t.hold) : bankOnly s u k bank := by
  have hp : u.pending = t.pending := congrArg (·.1) hh
  have hl : u.lstore = t.lstore := congrArg (·.2.1) hh
  have hm : u.dramMem = t.dramMem := congrArg (·.2.2.1) hh
  have hc : u.dramChk = t.dramChk := congrArg (·.2.2.2.1) hh
  have hf : u.flash = t.flash := congrArg (·.2.2.2.2) hh
  unfold bankOnly State.lsOnly State.dramStores State.dramOnly State.lsWithin at h ⊢
  rwa [hp, hl, hm, hc, hf]
/-- The registers of CHANT that a solve moves. -/
def solveIds : List Nat := [R.CHANT_HOLD_CNT.id, R.PG_IRQ_RAW.id]
/-- What a solve moves up to its end: registers of CHANT and the memories, its tier and its output. -/
structure State.solveStep (s t : State) (k : Tier) (bank : Nat) : Prop where
  page : ∀ (p : Nat) (f : Fld), ¬ dramPage p → p ≠ pLSTORE → p ≠ pCHANT ∨ f.id ∉ solveIds → t.get p f = s.get p f
  mem : bankOnly s t k bank
  kept : t.chant.bars = s.chant.bars
  shape : ∃ r d w m q x e y c fr qu ca, t = { s with regs := r, dram := d, host := { s.host with waiting := w }, dramMem := m, dramChk := q, lstore := x, lsErr := e, lsRep := y, chant := c, fresh := fr, queues := qu, calst := ca }
theorem State.solveStep_cleared (s : State) (k : Tier) (bank : Nat) {u v t : State} (hu : s.memStep u [] [])
    (hvg : ∀ (p : Nat) (f : Fld), p ≠ pCHANT ∨ f.id ≠ R.CHANT_HOLD_CNT.id → v.get p f = u.get p f) (hvs : ∃ r, v = { u with regs := r, fresh := u.fresh + 1 })
    (ht : v.bankClear k bank = t) : s.solveStep t k bank ∧ ∀ j, (s.tier j).same (t.tier j) := by
  have hbank := v.memStep_bankZero k bank (l := if k = .zone then [] else v.colBursts bank) (z := if k = .zone then [zonePlace bank] else [])
    (fun h => by rw [if_neg h]; exact fun _ h => h) fun h => by rw [if_pos h]; exact List.mem_singleton_self _
  rw [State.bankClear_eq] at ht
  obtain ⟨w, hw⟩ : ∃ w, v.bankZero k bank = w := ⟨_, rfl⟩
  rw [hw] at ht hbank
  have hcol : v.colBursts bank = s.colBursts bank := by
    have haddr : v.colAddr bank 0 = s.colAddr bank 0 := by
      unfold State.colAddr State.get64
      rw [hvg _ _ (Or.inr (by decide)), hvg _ _ (Or.inr (by decide)), hu.chant, hu.chant]
    unfold State.colBursts
    rw [haddr]
  have hkeys : ∀ a, v.burstKey a = s.burstKey a ∧ v.burstChk a = s.burstChk a := by
    have hrank : ∀ c r o, v.physRank c r o = u.physRank c r o := State.physRank_congr (fun c => by
      obtain ⟨r, hvs⟩ := hvs
      rw [hvs]
      rfl) fun f hf p => hvg p f (Or.inr (by revert f; decide))
    refine State.keys_of (fun c r o => (hrank c r o).trans (hu.rank c r o)) ?_
    obtain ⟨r, hvs⟩ := hvs
    rw [hvs]
    exact hu.geo
  obtain ⟨r, hvs⟩ := hvs
  have htm : t.dramMem = w.dramMem ∧ t.dramChk = w.dramChk ∧ t.lstore = w.lstore ∧ ∀ (p : Nat) (f : Fld), t.get p f = w.get p f := by
    rw [← ht]
    cases k <;> exact ⟨rfl, rfl, rfl, fun _ _ => rfl⟩
  have hvm : v.dramMem = s.dramMem ∧ v.dramChk = s.dramChk ∧ v.lstore = s.lstore := by
    rw [hvs]
    exact ⟨(hu.dramKept rfl).1, (hu.dramKept rfl).2, hu.lsKept rfl⟩
  obtain ⟨ht1, ht2, ht3, htg⟩ := htm
  obtain ⟨hv1, hv2, hv3⟩ := hvm
  obtain ⟨a, ha⟩ := hu.noted
  obtain ⟨b, hb⟩ := hbank.noted
  have hchant : ∃ fn, w.chant = { s.chant with fenceNext := fn } := ⟨_, by rw [hb, hvs]; dsimp only; rw [ha]⟩
  obtain ⟨fn, hchant⟩ := hchant
  obtain ⟨r1, d1, w1, m1, q1, x1, e1, y1, c1, hush⟩ := hu.shape
  obtain ⟨r2, d2, w2, m2, q2, x2, e2, y2, c2, hwsh⟩ := hbank.shape
  have hshape : ∃ c, t = { w with chant := c } := by
    rw [← ht]
    cases k <;> exact ⟨_, rfl⟩
  obtain ⟨c3, hshape⟩ := hshape
  have hsame : t.pending = s.pending ∧ t.flash = s.flash := by
    rw [hshape, hwsh, hvs, hush]
    exact ⟨rfl, rfl⟩
  obtain ⟨hp, hf⟩ := hsame
  refine ⟨⟨fun p f hd hl h => ?_, ⟨fun hk => ?_, fun hk => ?_⟩, ?_, ?_⟩, fun j => ?_⟩
  · rw [htg, hbank.page p hd hl, hvg p f (h.imp id fun h e => h (e ▸ by decide)), hu.page p hd hl]
  · obtain ⟨hd1, hd2⟩ := hbank.dramKept (by rw [if_pos hk])
    refine ⟨hp, ht1.trans (hd1.trans hv1), ht2.trans (hd2.trans hv2), hf, fun i hi => ?_⟩
    have hwith := hbank.within i (by rw [if_pos hk]; exact hi)
    rw [ht3, hwith, hv3]
  · refine ⟨hp, ht3.trans ((hbank.lsKept (by rw [if_neg hk])).trans hv3), hf, fun i hi => ?_, fun i hi => ?_⟩
    · rw [ht1, hbank.only.1 i (by rw [if_neg hk, hcol]; intro y hy; rw [(hkeys y).1]; exact hi y hy), hv1]
    · rw [ht2, hbank.only.2 i (by rw [if_neg hk, hcol]; intro y hy; rw [(hkeys y).2]; exact hi y hy), hv2]
  · rw [← ht]
    cases k <;> exact congrArg (·.bars) hchant
  · exact ⟨_, _, _, _, _, _, _, _, _, _, _, _, by rw [hshape, hwsh, hvs, hush]⟩
  · have hwt : w.tier j = s.tier j := by
      unfold State.tier
      rw [hchant]
    rw [← hwt, ← ht]
    exact State.tier_same_updTier _ _ _ _ fun y => ⟨_, rfl⟩
theorem State.solveStep.trans_hold {s t u : State} {k : Tier} {bank : Nat} (h : s.solveStep t k bank) (hh : u.hold = t.hold)
    (hg : ∀ (p : Nat) (f : Fld), p ≠ pCHANT ∨ f.id ∉ solveIds → u.get p f = t.get p f) (hb : u.chant.bars = t.chant.bars)
    (hs : ∃ r w c qu ca, u = { t with regs := r, host := { t.host with waiting := w }, chant := c, queues := qu, calst := ca }) : s.solveStep u k bank := by
  refine ⟨fun p f hd hn h' => (hg p f h').trans (h.page p f hd hn h'), bankOnly_congr h.mem hh, hb.trans h.kept, ?_⟩
  obtain ⟨r, d, w, m, q, x, e, y, c, fr, qu, ca, ht⟩ := h.shape
  obtain ⟨r', w', c', qu', ca', hu⟩ := hs
  exact ⟨_, _, _, _, _, _, _, _, _, _, _, _, by rw [hu, ht]⟩
/-- A tier of a loop is solved: its bank is clear, its errors stand and a cycle is due. -/
theorem State.solvedTier_spec (s : State) (k : Tier) (bank holds : Nat) (e : List (Option Int)) (r : List Byte) {u t : State} (hu : s.memStep u [] [])
    (ht : u.solvedTier k bank holds e r = t) : s.solveStep t k bank ∧ (t.tier k).solving = none ∧ (t.tier k).fresh = true ∧ t.chant.cycleDue = true ∧
    (s.fenced pCHANT = false → bit (t.get pCHANT R.PG_IRQ_RAW) 3 = true) := by
  obtain ⟨hstep, -⟩ := s.solveStep_cleared k bank hu (v := u.tickFresh.addSat pCHANT R.CHANT_HOLD_CNT holds)
    (fun p f h => (State.get_set_ne _ _ h).trans rfl) ⟨_, rfl⟩ (t := u.solveHeld k bank holds) rfl
  obtain ⟨v, hv⟩ : ∃ v, u.solveHeld k bank holds = v := ⟨_, rfl⟩
  rw [hv] at hstep
  obtain ⟨a, ha⟩ : ∃ a, (v.updTier k fun y => { y with solving := none, e := e, fresh := true }) = a := ⟨_, rfl⟩
  have hva : a.hold = v.hold ∧ a.chant.bars = v.chant.bars ∧ (∀ p f, a.get p f = v.get p f) ∧ ∃ c, a = { v with chant := c } := by
    rw [← ha]
    cases k <;> exact ⟨rfl, rfl, fun _ _ => rfl, _, rfl⟩
  have htier : (a.tier k).solving = none ∧ (a.tier k).fresh = true := by
    rw [← ha, State.tier_updTier_self]
    exact ⟨rfl, rfl⟩
  obtain ⟨ha1, ha2, ha3, c, ha4⟩ := hva
  obtain ⟨b, hb⟩ : ∃ b, a.solveOut r = b := ⟨_, rfl⟩
  have hab : b.hold = a.hold ∧ b.chant = a.chant ∧ (∀ p f, b.get p f = a.get p f) ∧ ∃ qu, b = { a with queues := qu } := by
    rw [← hb]
    unfold State.solveOut
    split
    · exact ⟨a.enqueue_hold _ _, rfl, fun _ _ => rfl, _, rfl⟩
    · exact ⟨rfl, rfl, fun _ _ => rfl, _, rfl⟩
  obtain ⟨hb1, hb2, hb3, qu, hb4⟩ := hab
  have htb : t = { b.cause pCHANT 3 with chant := { b.chant with cycleDue := true } } := by
    rw [← ht, ← hb, ← ha, ← hv]
    rfl
  obtain ⟨r', w', hr⟩ := b.reports_cause pCHANT 3
  have htg : ∀ p f, t.get p f = (b.cause pCHANT 3).get p f := fun p f => by
    rw [htb]
    rfl
  have htk : t.tier k = a.tier k := by
    have : t.tier k = b.tier k := by
      rw [htb]
      cases k <;> rfl
    rw [this]
    unfold State.tier
    rw [hb2]
  refine ⟨hstep.trans_hold ?_ (fun p f h => ?_) ?_ ?_, by rw [htk]; exact htier.1, by rw [htk]; exact htier.2, by rw [htb], fun hs => ?_⟩
  · have : t.hold = b.hold := by
      rw [htb, hr]
      rfl
    rw [this, hb1, ha1]
  · rw [htg, b.get_cause_ne 3 (h.imp id fun h e => h (e ▸ by decide)), hb3, ha3]
  · have : t.chant.bars = b.chant.bars := by rw [htb]
    rw [this, hb2, ha2]
  · exact ⟨r', w', _, qu, _, by rw [htb, hr, hb4, ha4]⟩
  · rw [htg]
    refine b.bit_cause (by decide) ((State.frozen_congr ?_).trans (State.frozen_of_unfenced hs))
    rw [hb3, ha3]
    exact hstep.page _ _ pCHANT_notDram (by decide) (Or.inr (by decide))
/-- What the end of a loop tier's solve leaves. -/
structure State.solveDone (s t : State) (k : Tier) (bank : Nat) : Prop where
  solved : (t.tier k).solving = none
  raised : s.fenced pCHANT = false → bit (t.get pCHANT R.PG_IRQ_RAW) 3 = true
  waits : s.cyclePaced = true ∨ s.chant.bars ≠ 0 ∨ s.working pCHANT = false ∨ s.loopHolds = true →
    t.chant.cycleDue = true ∧ (t.tier k).fresh = true ∧ t.chant.bars = s.chant.bars
  starts : s.cyclePaced = false → s.chant.bars = 0 → s.working pCHANT = true → s.loopHolds = false → t.chant.cycleDue = false ∧
    t.chant.bars = s.get pCHANT R.CHANT_CTRL_TRIM_EN ∧ t.get pCHANT R.CHANT_CYCLE = (s.get pCHANT R.CHANT_CYCLE + 1) % 2 ^ 32 ∧
    bit (t.get pCHANT R.PG_IRQ_RAW) 4 = true
  mem : bankOnly s t k bank
/-- A cycle that is due starts with the end of the solve where nothing holds it. -/
theorem State.solveDone_of {s u t : State} {k : Tier} {bank : Nat} (h : s.solveStep u k bank) (hsolving : (u.tier k).solving = none) (hfresh : (u.tier k).fresh = true)
    (hdue : u.chant.cycleDue = true) (hraw : s.fenced pCHANT = false → bit (u.get pCHANT R.PG_IRQ_RAW) 3 = true) (ht : u.cycleSettle = t) : s.solveDone t k bank := by
  have hpage : ∀ f : Fld, f.id ∉ solveIds → u.get pCHANT f = s.get pCHANT f := fun f hf => h.page _ f pCHANT_notDram (by decide) (Or.inr hf)
  have hpaced : u.cyclePaced = s.cyclePaced := by
    unfold State.cyclePaced State.flag
    rw [hpage _ (by decide)]
  have hbars := h.kept
  obtain ⟨r, d, w, m, q, x, e, y, c, fr, qu, ca, hu⟩ := h.shape
  have hholds : u.loopHolds = s.loopHolds := by
    rw [hu]
    rfl
  have hworks : u.working pCHANT = s.working pCHANT := by
    refine State.working_at (by rw [hu]) (by rw [hu]) (hpage _ (by decide)) (hpage _ (by decide)) ?_
    exact h.page _ _ pTHERM_notDram (by decide) (Or.inl (by decide))
  unfold State.cycleSettle at ht
  rw [hdue, hpaced, hbars, hworks, hholds] at ht
  by_cases hgo : s.cyclePaced = false ∧ s.chant.bars = 0 ∧ s.working pCHANT = true ∧ s.loopHolds = false
  · obtain ⟨g1, g2, g3, g4⟩ := hgo
    rw [if_pos (by simp [g1, g2, g3, g4])] at ht
    have hfen : s.fenced pCHANT = false := by
      unfold State.working at g3
      simp only [Bool.and_eq_true, Bool.not_eq_true'] at g3
      exact g3.1.2
    have hfrozen : u.frozen pCHANT = false := (State.frozen_congr (hpage R.PG_FENCE_FENCED (by decide))).trans (State.frozen_of_unfenced hfen)
    obtain ⟨t1, t2, t3, t4, t5, t6, -, t7, -⟩ := u.cycleStart_spec ht hfrozen
    refine ⟨(t6 k).trans hsolving, fun hs => t5 3 (by decide) (hraw hs), ?_, fun _ _ _ _ => ⟨t1, t2.trans (hpage _ (by decide)), t3.trans (by rw [hpage _ (by decide)]), t4⟩, ?_⟩
    · rintro (h' | h' | h' | h')
      · exact absurd h' (by rw [g1]; decide)
      · exact absurd g2 h'
      · exact absurd h' (by rw [g3]; decide)
      · exact absurd h' (by rw [g4]; decide)
    · exact bankOnly_congr h.mem t7
  · have hstay : u = t := by
      rw [if_neg] at ht
      · exact ht
      · simp only [Bool.true_and, Bool.and_eq_true, Bool.not_eq_true', beq_iff_eq]
        exact fun ⟨⟨⟨g1, g2⟩, g3⟩, g4⟩ => hgo ⟨g1, g2, g3, g4⟩
    subst hstay
    exact ⟨hsolving, hraw, fun _ => ⟨hdue, hfresh, hbars⟩, fun g1 g2 g3 g4 => absurd ⟨g1, g2, g3, g4⟩ hgo, h.mem⟩

/-! ### The command -/

theorem State.solveTier_done (s : State) (k : Tier) (tier n : Nat) (x : Nat × Nat × Nat × Nat × Nat) : s.solveDone (s.solveTier k tier n x) k x.1 := by
  obtain ⟨holds, e, r, heq⟩ := s.solveTier_eq k tier n x
  obtain ⟨h1, h2, h3, h4, h5⟩ := s.solvedTier_spec k x.1 holds e r (s.memStep_solveReads k n x) rfl
  rw [heq]
  exact State.solveDone_of h1 h2 h3 h4 h5 rfl
/-- The solve of a capture window ends. -/
theorem State.solveCapture_spec (s : State) (x : Nat × Nat × Nat × Nat × Nat) {t : State} (ht : s.solveCapture x = t) :
    (t.tier .capture).solving = none ∧ (s.fenced pCHANT = false → bit (t.get pCHANT R.PG_IRQ_RAW) 3 = true) ∧ t.calst.runDone = true ∧
    bankOnly s t .capture x.1 := by
  obtain ⟨rho, u, hu, heq⟩ : ∃ rho u, s.memStep u [] [] ∧
      s.solveCapture x = ((u.tickFresh.bankClear .capture x.1).updTier .capture fun y => { y with solving := none }).captureDone rho := by
    refine ⟨_, (s.captureSums x.1 (List.range 48192)).1, ?_, rfl⟩
    exact State.memStep_foldl (l := []) (z := []) (fun r : State × List (List Nat) => r.1) _ _ (s, []) fun r i _ _ => r.1.memStep_sumsOf .capture x.1 i [] []
  rw [heq] at ht
  obtain ⟨hstep, -⟩ := s.solveStep_cleared .capture x.1 hu (v := u.tickFresh) (fun _ _ _ => rfl) ⟨_, rfl⟩ (t := u.tickFresh.bankClear .capture x.1) rfl
  obtain ⟨v, hv⟩ : ∃ v, u.tickFresh.bankClear .capture x.1 = v := ⟨_, rfl⟩
  rw [hv] at hstep ht
  obtain ⟨a, ha⟩ : ∃ a, (v.updTier .capture fun y => { y with solving := none }) = a := ⟨_, rfl⟩
  obtain ⟨c, hcal, hrun⟩ : ∃ c, a.captureDone rho = { a with calst := c }.cause pCHANT 3 ∧ c.runDone = true := by
    unfold State.captureDone
    dsimp only
    split
    · exact ⟨_, rfl, rfl⟩
    · exact ⟨_, rfl, rfl⟩
  rw [ha, hcal] at ht
  obtain ⟨r, w, hr⟩ := State.reports_cause { a with calst := c } pCHANT 3
  have hta : t.chant = a.chant ∧ t.calst = c ∧ t.hold = v.hold := by
    rw [← ht, hr, ← ha]
    exact ⟨rfl, rfl, rfl⟩
  obtain ⟨h1, h2, h3⟩ := hta
  refine ⟨?_, fun hs => ?_, by rw [h2]; exact hrun, bankOnly_congr hstep.mem h3⟩
  · change t.chant.cap.solving = none
    rw [h1, ← ha]
    rfl
  · rw [← ht]
    refine State.bit_cause _ (by decide) ((State.frozen_congr ?_).trans (State.frozen_of_unfenced hs))
    have hav : ({ a with calst := c } : State).get pCHANT R.PG_FENCE_FENCED = v.get pCHANT R.PG_FENCE_FENCED := by
      rw [← ha]
      rfl
    exact hav.trans (hstep.page _ _ pCHANT_notDram (by decide) (Or.inr (by decide)))
theorem exec_solveEnd_idle {s : State} {k : Tier} (h : (s.tier k).solving = none ∨ s.chantRuns = false ∨ (k = .capture ∧ s.calst.runDone = true)) :
    exec (.solveEnd k) s = .next s := by
  change execSolveEnd k s = _
  unfold execSolveEnd
  cases hx : (s.tier k).solving with
  | none => rfl
  | some x =>
    rcases h with h | h | ⟨rfl, h⟩
    · exact absurd (hx.symm.trans h) (by simp)
    · dsimp only
      rw [if_pos (by simp [h])]
    · dsimp only
      split
      · rfl
      · rw [if_pos (by simp [h])]
theorem exec_solveEnd_busy {s : State} {k : Tier} {x : Nat × Nat × Nat × Nat × Nat} (hx : (s.tier k).solving = some x) (hk : k ≠ .zone)
    (hfree : s.colsFree x.1 = false) : exec (.solveEnd k) s = .next s := by
  change execSolveEnd k s = _
  unfold execSolveEnd
  rw [hx]
  cases k with
  | zone => exact absurd rfl hk
  | column =>
    dsimp only
    rw [if_neg (by simp [hfree] : ¬ s.colsFree x.1 = true), ite_self]
  | capture =>
    dsimp only
    rw [if_pos (by simp [hfree] : (s.calst.runDone || !s.colsFree x.1) = true), ite_self]
theorem exec_solveEnd_loop {s : State} {k : Tier} {x : Nat × Nat × Nat × Nat × Nat} (hx : (s.tier k).solving = some x) (hr : s.chantRuns = true)
    (hk : k ≠ .capture) (hfree : k ≠ .zone → s.colsFree x.1 = true) : ∃ tier n, exec (.solveEnd k) s = .next (s.chantWork fun u => u.solveTier k tier n x) := by
  change ∃ tier n, execSolveEnd k s = _
  unfold execSolveEnd
  rw [hx]
  dsimp only
  rw [if_neg (by simp [hr])]
  cases k with
  | zone => exact ⟨0, 3012, rfl⟩
  | column =>
    refine ⟨1, 48192, ?_⟩
    dsimp only
    rw [if_pos (hfree (by decide))]
  | capture => exact absurd rfl hk
theorem exec_solveEnd_capture {s : State} {x : Nat × Nat × Nat × Nat × Nat} (hx : (s.tier .capture).solving = some x) (hr : s.chantRuns = true)
    (hrun : s.calst.runDone = false) (hfree : s.colsFree x.1 = true) : exec (.solveEnd .capture) s = .next (s.chantWork fun u => u.solveCapture x) := by
  change execSolveEnd .capture s = _
  unfold execSolveEnd
  rw [hx]
  dsimp only
  rw [if_neg (by simp [hr]), if_neg (by simp [hrun, hfree])]

end Sys2Proof.Machine
end

section
/-! ### Trims (R237, R283 to R287; O51) -/
open Sys2Proof Sys2Proof.Machine
namespace Sys2Proof.Machine

/-! ### The shadow table -/

theorem State.lsOnly_of_hold {s t : State} (h : t.hold = s.hold) (r : List (Nat × Nat)) : s.lsOnly t r := by
  have hp : t.pending = s.pending := congrArg (·.1) h
  have hl : t.lstore = s.lstore := congrArg (·.2.1) h
  have hm : t.dramMem = s.dramMem := congrArg (·.2.2.1) h
  have hc : t.dramChk = s.dramChk := congrArg (·.2.2.2.1) h
  have hf : t.flash = s.flash := congrArg (·.2.2.2.2) h
  exact ⟨hp, hm, hc, hf, fun _ _ => by rw [hl]⟩
theorem State.lsOnly_trans {s t u : State} {r : List (Nat × Nat)} (h : s.lsOnly t r) (k : t.lsOnly u r) : s.lsOnly u r := by
  obtain ⟨h1, h2, h3, h4, h5⟩ := h
  obtain ⟨k1, k2, k3, k4, k5⟩ := k
  exact ⟨k1.trans h1, k2.trans h2, k3.trans h3, k4.trans h4, fun a ha => (k5 a ha).trans (h5 a ha)⟩
/-- A step that writes trims: the table at `r` and the count of clamped trims. -/
structure State.trimStep (s t : State) (r : Nat × Nat) : Prop where
  page : ∀ (p : Nat) (f : Fld), p ≠ pLSTORE → p ≠ pCHANT ∨ f.id ≠ R.CHANT_CLIP_CNT.id → t.get p f = s.get p f
  only : s.lsOnly t [r]
  shape : ∃ g w x e y, t = { s with regs := g, host := { s.host with waiting := w }, lstore := x, lsErr := e, lsRep := y }
theorem State.trimStep_refl (s : State) (r : Nat × Nat) : s.trimStep s r :=
  ⟨fun _ _ _ _ => rfl, State.lsOnly_of_hold rfl _, _, _, _, _, _, rfl⟩
theorem State.trimStep.trans {s t u : State} {r : Nat × Nat} (h : s.trimStep t r) (k : t.trimStep u r) : s.trimStep u r := by
  obtain ⟨g, w, x, e, y, ht⟩ := h.shape
  obtain ⟨g', w', x', e', y', hu⟩ := k.shape
  exact ⟨fun p f hp hf => (k.page p f hp hf).trans (h.page p f hp hf), State.lsOnly_trans h.only k.only, g', w', x', e', y', by rw [hu, ht]⟩
/-- One nozzle word gets its trim (R284). -/
def State.trimNozzle (s : State) (base k0 i : Nat) (dot : Bool) (d : Array Int) : State :=
  match (s.lsWord (base + 4 * i) 3).2 with
  | none => (s.lsWord (base + 4 * i) 3).1
  | some w =>
    let x := trimWord dot w (d.getD ((6016 * (i / 6144) + i % 6144) / 2 - k0) 0)
    let u := (s.lsWord (base + 4 * i) 3).1.lsWrite (base + 4 * i) (leBytes 4 x.1)
    if x.2 then u.incSat pCHANT R.CHANT_CLIP_CNT else u
/-- The nozzles of a bar that reach camera columns k0 and on (R284). -/
def trimNozzles (k0 n : Nat) : List Nat :=
  (List.range 16).flatMap fun t => (List.range 6144).filterMap fun m =>
    if k0 ≤ (6016 * t + m) / 2 ∧ (6016 * t + m) / 2 < k0 + n then some (6144 * t + m) else none
theorem State.trimWrite_eq (s : State) (b k0 : Nat) (dot : Bool) (deltas : List Int) : s.trimWrite b k0 dot deltas =
    s.chantWork fun u => u.each (trimNozzles k0 deltas.toArray.size) fun u i => u.trimNozzle (tabAddr 0 (1 - s.activeCopy b 0) b) k0 i dot deltas.toArray := by
  rfl
theorem mem_trimNozzles {k0 n i : Nat} (h : i ∈ trimNozzles k0 n) : i < 98304 := by
  unfold trimNozzles at h
  rw [List.mem_flatMap] at h
  obtain ⟨t, ht, h⟩ := h
  rw [List.mem_filterMap] at h
  obtain ⟨m, hm, h⟩ := h
  rw [List.mem_range] at ht hm
  split at h
  · have hi : 6144 * t + m = i := by simpa using h
    omega
  · exact absurd h (by simp)
theorem State.trimStep_nozzle (s : State) (base k0 : Nat) {i : Nat} (hi : i < 98304) (dot : Bool) (d : Array Int) :
    s.trimStep (s.trimNozzle base k0 i dot d) (base, tabSize 0) := by
  have hread : s.trimStep (s.lsWord (base + 4 * i) 3).1 (base, tabSize 0) := by
    obtain ⟨r, w, e, h⟩ := (State.lsReads_spec (Memory.slice s.lstore (base + 4 * i) 4) s 3 (base + 4 * i)).1
    have hw : (s.lsWord (base + 4 * i) 3).1 = { s with regs := r, host := { s.host with waiting := w }, lsRep := e } := h
    exact ⟨fun p f hp _ => s.lsReads_page _ 3 _ hp f, State.lsOnly_of_hold (by rw [hw]; rfl) _, r, w, s.lstore, s.lsErr, e, hw⟩
  have hwrite : ∀ (u : State) v, u.trimStep (u.lsWrite (base + 4 * i) (leBytes 4 v)) (base, tabSize 0) := fun u v => by
    refine ⟨fun _ _ _ _ => rfl, ⟨rfl, rfl, rfl, rfl, fun k hk => ?_⟩, _, _, _, _, _, rfl⟩
    have hout := hk _ (List.mem_singleton_self _)
    dsimp only at hout
    change k < base ∨ base + 0x60000 ≤ k at hout
    refine Memory.get_puts_apart _ _ ?_
    rw [leBytes_length]
    omega
  have hcount : ∀ u : State, u.trimStep (u.incSat pCHANT R.CHANT_CLIP_CNT) (base, tabSize 0) := fun u =>
    ⟨fun p f _ h => u.get_incSat_ne h, State.lsOnly_of_hold rfl _, _, _, _, _, _, rfl⟩
  unfold State.trimNozzle
  split
  · exact hread
  · dsimp only
    split
    · exact (hread.trans (hwrite _ _)).trans (hcount _)
    · exact hread.trans (hwrite _ _)
/-- A fenced page keeps its registers. -/
theorem State.trimStep.kept {s u : State} {r : Nat × Nat} (h : s.trimStep u r) : s.trimStep (s.keepPage u pCHANT) r := by
  obtain ⟨g, w, x, e, y, hu⟩ := h.shape
  have hhold : (s.keepPage u pCHANT).hold = u.hold := rfl
  refine ⟨fun p f hp hf => ?_, State.lsOnly_trans h.only (State.lsOnly_of_hold hhold _), _, w, x, e, y, by rw [hu]; rfl⟩
  rw [State.get_keepPage]
  split
  · rfl
  · exact h.page p f hp hf
theorem State.trimWrite_spec (s : State) (b k0 : Nat) (dot : Bool) (deltas : List Int) :
    s.trimStep (s.trimWrite b k0 dot deltas) (tabAddr 0 (1 - s.activeCopy b 0) b, tabSize 0) := by
  rw [State.trimWrite_eq]
  generalize tabAddr 0 (1 - s.activeCopy b 0) b = base
  have hall : s.trimStep (s.each (trimNozzles k0 deltas.toArray.size) fun u i => u.trimNozzle base k0 i dot deltas.toArray) (base, tabSize 0) :=
    List.foldlRecOn (motive := fun u : State => s.trimStep u (base, tabSize 0)) _ _ (s.trimStep_refl _) fun u hu i hi =>
      hu.trans (u.trimStep_nozzle base k0 (mem_trimNozzles hi) dot _)
  unfold State.chantWork State.pageWork
  split
  · exact hall.kept
  · exact hall

/-! ### A swap of the nozzle table is armed (R285, R287) -/

/-- The swap that a trim set arms. -/
def trimSwap (line : Nat) : ArmedSwap := { whn := 1, tables := 1, line := line, fromTrim := true }
theorem State.trimArm_shut {s : State} {b : Nat} (h : s.pipeShut b = true) (line : Nat) : s.trimArm b line = (s, false) := by
  unfold State.trimArm
  rw [if_pos h]
theorem State.trimArm_late {s : State} {b line : Nat} (h : s.pipeShut b = false) (hl : diff32 line (s.get (pLINE b) R.LINE_SEQ) ≤ 0) :
    s.trimArm b line = ((s.set (pPIPE b) R.PIPE_TSTAT_LATE 1).cause (pPIPE b) 5, false) := by
  unfold State.trimArm
  dsimp only
  rw [if_neg (by simp [h]), if_pos hl]
theorem State.trimArm_ahead {s : State} {b line : Nat} (h : s.pipeShut b = false) (hl : ¬ diff32 line (s.get (pLINE b) R.LINE_SEQ) ≤ 0) :
    s.trimArm b line = ((s.set (pPIPE b) R.PIPE_TSTAT_LATE 0).armSwap b (trimSwap line), true) := by
  unfold State.trimArm
  dsimp only
  rw [if_neg (by simp [h]), if_neg hl]
  rfl
theorem State.trimArmed_spec (s : State) (b line : Nat) {t : State} (ht : (s.set (pPIPE b) R.PIPE_TSTAT_LATE 0).armSwap b (trimSwap line) = t) :
    t.pipeAt b = { s.pipeAt b with armed := some (trimSwap line) } ∧ t.get (pPIPE b) R.PIPE_TSTAT_ARMED = 1 ∧ t.get (pPIPE b) R.PIPE_TSTAT_LATE = 0 ∧
    (∀ i, i ≠ b → t.pipeAt i = s.pipeAt i) ∧ (∀ p f, p ≠ pPIPE b → t.get p f = s.get p f) ∧ t.hold = s.hold ∧
    t.chant = s.chant ∧ t.pair = s.pair := by
  obtain ⟨u, hu⟩ : ∃ u, s.set (pPIPE b) R.PIPE_TSTAT_LATE 0 = u := ⟨_, rfl⟩
  rw [hu] at ht
  have hget : ∀ p f, t.get p f = (u.set (pPIPE b) R.PIPE_TSTAT_ARMED 1).get p f := fun p f => by
    rw [← ht]
    rfl
  refine ⟨?_, ?_, ?_, fun i hi => ?_, fun p f hp => ?_, ?_, ?_, ?_⟩
  · rw [← ht, ← hu]
    exact State.pipeAt_upd_self _ _ _
  · rw [hget]
    exact u.get_set_self _ _ _
  · rw [hget, u.get_set_ne 1 (Or.inr (by decide)), ← hu]
    exact s.get_set_self _ _ _
  · rw [← ht, ← hu]
    exact State.pipeAt_upd_other _ _ hi
  · rw [hget, u.get_set_ne 1 (Or.inl hp), ← hu, s.get_set_ne 0 (Or.inl hp)]
  · rw [← ht, ← hu]
    rfl
  · rw [← ht, ← hu]
    rfl
  · rw [← ht, ← hu]
    rfl
/-- Whether a PIPE page is shut is told by its header, the resets and the die's shut-down. -/
theorem State.pipeShut_at {s t : State} {b : Nat} (hs : t.srsts = s.srsts) (hh : t.heldReset = s.heldReset)
    (hf : t.get (pPIPE b) R.PG_FENCE_FENCED = s.get (pPIPE b) R.PG_FENCE_FENCED) (hshut : t.get pTHERM R.THERM_STAT_SHUT = s.get pTHERM R.THERM_STAT_SHUT) :
    t.pipeShut b = s.pipeShut b := by
  unfold State.pipeShut State.fenced State.resetting State.held State.shut State.flag
  rw [hs, hh, hf, hshut]

end Sys2Proof.Machine
end

section
/-! ### TRIM_CYCLE_BAR and TRIM; Chanter's work as a whole (O51) -/
open Sys2Proof Sys2Proof.Machine
namespace Sys2Proof.Machine

theorem pPIPE_apart {b : Nat} (hb : b < 8) : pPIPE b ≠ pCHANT ∧ pPIPE b ≠ pLSTORE ∧ pPIPE b ≠ pPAIR ∧ pLINE b ≠ pCHANT ∧ pLINE b ≠ pLSTORE ∧
    pLINE b ≠ pPAIR := by
  unfold pPIPE pLINE pCHANT pLSTORE pPAIR
  omega

/-! ### A cycle serves a bar (R285) -/

theorem State.trimSend_shape (s : State) (b line : Nat) (arm dot : Bool) (d : List Int) : ∃ p o, s.trimSend b line arm dot d = { s with pair := p, outs := o } := by
  unfold State.trimSend
  split
  · exact ⟨_, _, rfl⟩
  · refine List.foldlRecOn (motive := fun t : State => ∃ p o, t = { s with pair := p, outs := o }) _ _ ⟨_, _, rfl⟩ fun t ht part _ => ?_
    obtain ⟨p, o, rfl⟩ := ht
    obtain ⟨p', o', h⟩ := State.crookCommand_shape { s with pair := p, outs := o } 0x17 ([BitVec.ofNat 8 b, 0, 0, 0] ++ leBytes 4 line ++ leBytes 2 (8032 * part) ++
      leBytes 2 8032 ++ [BitVec.ofNat 8 (2 * b2n arm + b2n dot), BitVec.ofNat 8 part, 6, 0] ++ leBytes 4 (s.get pCHANT R.CHANT_CYCLE) ++
      ((d.drop (8032 * part)).take 8032).map fun d => BitVec.ofInt 8 d)
    exact ⟨p', o', h⟩
/-- The trims of a bar are written: the line shows, and only the shadow table is stored to. -/
theorem State.cycleWrite_spec (s : State) {b : Nat} (hb : b < 8) (line : Nat) (arm dot : Bool) (x : List Int × Nat) {t : State} (ht : s.cycleWrite b line arm dot x = t) :
    (∀ (p : Nat) (f : Fld), p ≠ pLSTORE → p ≠ pCHANT ∨ f.id ∉ [R.CHANT_CYC_LINE.id, R.CHANT_CLIP_CNT.id] → t.get p f = s.get p f) ∧
    t.get pCHANT R.CHANT_CYC_LINE = line % 2 ^ 32 ∧ s.lsOnly t [(tabAddr 0 (1 - s.activeCopy b 0) b, tabSize 0)] ∧ t.chant = s.chant ∧ t.pipe = s.pipe ∧
    t.srsts = s.srsts ∧ t.heldReset = s.heldReset := by
  obtain ⟨v, hv⟩ : ∃ v, (s.set pCHANT R.CHANT_CYC_LINE line).addSat pCHANT R.CHANT_CLIP_CNT x.2 = v := ⟨_, rfl⟩
  have hvg : ∀ (p : Nat) (f : Fld), p ≠ pCHANT ∨ f.id ∉ [R.CHANT_CYC_LINE.id, R.CHANT_CLIP_CNT.id] → v.get p f = s.get p f := fun p f h => by
    simp only [List.mem_cons, List.not_mem_nil, or_false, not_or] at h
    rw [← hv]
    exact (State.get_set_ne _ _ (h.imp id And.right)).trans (s.get_set_ne _ (h.imp id And.left))
  have hline : v.get pCHANT R.CHANT_CYC_LINE = line % 2 ^ 32 := by
    rw [← hv]
    exact (State.get_set_ne _ _ (Or.inr (by decide))).trans (s.get_set_self _ _ _)
  have hcopy : v.activeCopy b 0 = s.activeCopy b 0 := by
    unfold State.activeCopy
    rw [hvg _ _ (Or.inl (pPIPE_apart hb).1)]
  have hstep := v.trimWrite_spec b 0 dot x.1
  rw [hcopy] at hstep
  obtain ⟨p, o, hsend⟩ := (v.trimWrite b 0 dot x.1).trimSend_shape b line arm dot x.1
  have htg : ∀ (p : Nat) (f : Fld), t.get p f = (v.trimWrite b 0 dot x.1).get p f := fun q f => by
    rw [← ht, ← State.get_congr (s := v.trimWrite b 0 dot x.1) (t := (v.trimWrite b 0 dot x.1).trimSend b line arm dot x.1) (by rw [hsend]), ← hv]
    rfl
  have hts : t = { v.trimWrite b 0 dot x.1 with pair := p, outs := o } := by
    rw [← hsend, ← hv, ← ht]
    rfl
  obtain ⟨g, w, y, e, z, hw⟩ := hstep.shape
  have hvs : ∃ r, v = { s with regs := r } := ⟨_, hv.symm⟩
  obtain ⟨r, hvs⟩ := hvs
  refine ⟨fun q f hq h => ?_, ?_, ?_, ?_, ?_, ?_, ?_⟩
  · simp only [List.mem_cons, List.not_mem_nil, or_false, not_or] at h
    rw [htg, hstep.page q f hq (h.imp id And.right)]
    refine hvg q f (h.imp id fun h => ?_)
    simp only [List.mem_cons, List.not_mem_nil, or_false, not_or]
    exact h
  · rw [htg, hstep.page _ _ (by decide) (Or.inr (by decide)), hline]
  · refine State.lsOnly_trans (State.lsOnly_of_hold ?_ _) (State.lsOnly_trans hstep.only (State.lsOnly_of_hold ?_ _))
    · rw [hvs]
      rfl
    · rw [hts]
      rfl
  all_goals rw [hts, hw, hvs]
/-- A deferred cycle counts. -/
theorem State.deferCount_spec {s : State} (hs : s.frozen pCHANT = false) :
    bit (s.deferCount.get pCHANT R.PG_IRQ_RAW) 5 = true ∧
    s.deferCount.get pCHANT R.CHANT_DEFER_CNT = min (s.get pCHANT R.CHANT_DEFER_CNT + 1) (2 ^ R.CHANT_DEFER_CNT.w - 1) ∧
    (∀ (p : Nat) (f : Fld), p ≠ pCHANT ∨ f.id ∉ [R.CHANT_DEFER_CNT.id, R.PG_IRQ_RAW.id] → s.deferCount.get p f = s.get p f) ∧ s.reports s.deferCount := by
  have hfrozen : (s.incSat pCHANT R.CHANT_DEFER_CNT).frozen pCHANT = false :=
    (State.frozen_congr (s.get_incSat_ne (Or.inr (by decide)))).trans hs
  refine ⟨State.bit_cause _ (by decide) hfrozen, ?_, fun p f h => ?_, (s.reports_incSat _ _).trans (State.reports_cause _ _ _)⟩
  · exact (State.get_cause_ne _ _ (Or.inr (by decide))).trans (s.get_incSat_self _ _)
  · simp only [List.mem_cons, List.not_mem_nil, or_false, not_or] at h
    exact (State.get_cause_ne _ _ (h.imp id And.right)).trans (s.get_incSat_ne (h.imp id And.left))
/-- What the arming of a bar's cycle leaves, where `free` says that its PIPE page can take a swap and `late` that the line is not ahead. -/
structure cycleArms (s t : State) (b line : Nat) (free late : Prop) : Prop where
  armed : free → ¬ late → t.pipeAt b = { s.pipeAt b with armed := some (trimSwap line) } ∧ t.get (pPIPE b) R.PIPE_TSTAT_ARMED = 1 ∧
    t.get (pPIPE b) R.PIPE_TSTAT_LATE = 0 ∧ t.get pCHANT R.CHANT_DEFER_CNT = s.get pCHANT R.CHANT_DEFER_CNT
  deferred : ¬ free ∨ late → t.pipeAt b = s.pipeAt b ∧ bit (t.get pCHANT R.PG_IRQ_RAW) 5 = true ∧
    t.get pCHANT R.CHANT_DEFER_CNT = min (s.get pCHANT R.CHANT_DEFER_CNT + 1) (2 ^ R.CHANT_DEFER_CNT.w - 1) ∧
    (free → t.get (pPIPE b) R.PIPE_TSTAT_LATE = 1)
  others : ∀ i, i ≠ b → t.pipeAt i = s.pipeAt i
/-- What a cycle leaves beside that. -/
structure cycleFrame (s t : State) : Prop where
  chant : t.chant = s.chant
  line : t.get pCHANT R.CHANT_CYC_LINE = s.get pCHANT R.CHANT_CYC_LINE
  fence : t.get pCHANT R.PG_FENCE_FENCED = s.get pCHANT R.PG_FENCE_FENCED
  hold : t.hold = s.hold
theorem State.pipeAt_of_reports {s t : State} (h : s.reports t) (i : Nat) : t.pipeAt i = s.pipeAt i := by
  obtain ⟨r, w, rfl⟩ := h
  rfl
theorem State.cycleArm_spec (s : State) {b : Nat} (hb : b < 8) (line : Nat) (armed : Bool) {t : State} (ht : s.cycleArm b line armed = t)
    (hs : s.frozen pCHANT = false) (hshut : s.pipeShut b = true → armed = true) {late : Prop} (hlate : late ↔ diff32 line (s.get (pLINE b) R.LINE_SEQ) ≤ 0) :
    cycleArms s t b line (armed = false) late ∧ cycleFrame s t := by
  obtain ⟨hpc, -, -, -⟩ := pPIPE_apart hb
  have hdefer : ∀ u : State, u.frozen pCHANT = false → u.deferCount = t → (∀ f, u.get pCHANT f = s.get pCHANT f) → (∀ i, u.pipeAt i = s.pipeAt i) →
      u.chant = s.chant → u.hold = s.hold → (armed = true ∨ u.get (pPIPE b) R.PIPE_TSTAT_LATE = 1 ∧ late) → cycleArms s t b line (armed = false) late ∧ cycleFrame s t := by
    intro u hu hut hg hp hc hh hwhy
    obtain ⟨h1, h2, h3, h4⟩ := State.deferCount_spec hu
    rw [hut] at h1 h2 h3 h4
    obtain ⟨r, w, h5⟩ := h4
    refine ⟨⟨fun hf hl => ?_, fun _ => ⟨?_, h1, by rw [h2, hg], fun hf => ?_⟩, fun i _ => ?_⟩, ?_, ?_, ?_, ?_⟩
    · rcases hwhy with hw | ⟨-, hw⟩
      · exact absurd (hf.symm.trans hw) (by decide)
      · exact absurd hw hl
    · rw [State.pipeAt_of_reports ⟨r, w, h5⟩, hp]
    · rcases hwhy with hw | ⟨hw, -⟩
      · exact absurd (hf.symm.trans hw) (by decide)
      · rw [h3 _ _ (Or.inl hpc), hw]
    · rw [State.pipeAt_of_reports ⟨r, w, h5⟩, hp]
    · rw [← hc, h5]
    · rw [h3 _ _ (Or.inr (by decide)), hg]
    · rw [h3 _ _ (Or.inr (by decide)), hg]
    · rw [← hh, h5]
      rfl
  unfold State.cycleArm at ht
  rcases Bool.eq_false_or_eq_true armed with harmed | harmed
  · rw [harmed, if_pos rfl] at ht
    exact hdefer s hs ht (fun _ => rfl) (fun _ => rfl) rfl rfl (Or.inl harmed)
  · rw [harmed] at hshut
    have hopen : s.pipeShut b = false := by
      cases h : s.pipeShut b with
      | false => rfl
      | true => exact absurd (hshut h) (by decide)
    rw [harmed, if_neg (by decide)] at ht
    dsimp only at ht
    by_cases hl : diff32 line (s.get (pLINE b) R.LINE_SEQ) ≤ 0
    · rw [State.trimArm_late hopen hl, if_neg Bool.false_ne_true] at ht
      dsimp only at ht
      have hget : ∀ (p : Nat) (f : Fld), p ≠ pPIPE b → ((s.set (pPIPE b) R.PIPE_TSTAT_LATE 1).cause (pPIPE b) 5).get p f = s.get p f := fun p f hp =>
        (State.get_cause_ne _ _ (Or.inl hp)).trans (s.get_set_ne 1 (Or.inl hp))
      have hrep : s.reports ((s.set (pPIPE b) R.PIPE_TSTAT_LATE 1).cause (pPIPE b) 5) := (s.reports_set _ _ _).trans (State.reports_cause _ _ _)
      have hlate1 : ((s.set (pPIPE b) R.PIPE_TSTAT_LATE 1).cause (pPIPE b) 5).get (pPIPE b) R.PIPE_TSTAT_LATE = 1 :=
        (State.get_cause_ne _ _ (Or.inr (by decide))).trans (s.get_set_self _ _ _)
      refine hdefer _ ((State.frozen_congr (hget _ _ hpc.symm)).trans hs) ht (fun f => hget _ f hpc.symm) (State.pipeAt_of_reports hrep) ?_ ?_
        (Or.inr ⟨hlate1, hlate.mpr hl⟩)
      · obtain ⟨r, w, h⟩ := hrep
        rw [h]
      · obtain ⟨r, w, h⟩ := hrep
        rw [h]
        rfl
    · rw [State.trimArm_ahead hopen hl, if_pos rfl] at ht
      dsimp only at ht
      obtain ⟨h1, h2, h3, h4, h5, h6, h7, -⟩ := s.trimArmed_spec b line ht
      refine ⟨⟨fun _ _ => ⟨h1, h2, h3, h5 _ _ hpc.symm⟩, fun h => ?_, h4⟩, h7, h5 _ _ hpc.symm, h5 _ _ hpc.symm, h6⟩
      rcases h with h | h
      · exact absurd harmed h
      · exact absurd (hlate.mp h) hl
/-- The cycle has served its bar: what it leaves, with another cycle started or not. -/
theorem State.cycleServed_spec (s : State) (b : Nat) {t : State} (ht : s.cycleServed b = t) :
    (setBit s.chant.bars b false ≠ 0 → t.chant.bars = setBit s.chant.bars b false) ∧ t.hold = s.hold ∧ t.pipe = s.pipe ∧
    (∀ i < 32, bit (s.get pCHANT R.PG_IRQ_RAW) i = true → bit (t.get pCHANT R.PG_IRQ_RAW) i = true) ∧
    ∀ p f, p ≠ pCHANT ∨ f.id ∉ [R.CHANT_CYCLE.id, R.PG_IRQ_RAW.id] → t.get p f = s.get p f := by
  obtain ⟨u, hu⟩ : ∃ u : State, { s.tickFresh with chant := { s.chant with bars := setBit s.chant.bars b false } } = u := ⟨_, rfl⟩
  have hus : u.chant.bars = setBit s.chant.bars b false ∧ u.hold = s.hold ∧ u.pipe = s.pipe ∧ ∀ p f, u.get p f = s.get p f := by
    rw [← hu]
    exact ⟨rfl, rfl, rfl, fun _ _ => rfl⟩
  obtain ⟨h1, h2, h3, h4⟩ := hus
  have htu : u.cycleSettle = t := by
    rw [← ht, ← hu]
    rfl
  unfold State.cycleSettle at htu
  rw [h1] at htu
  by_cases hgo : (u.chant.cycleDue && !u.cyclePaced && setBit s.chant.bars b false == 0 && u.working pCHANT && !u.loopHolds) = true
  · rw [if_pos hgo] at htu
    simp only [Bool.and_eq_true, beq_iff_eq] at hgo
    have hfen : u.fenced pCHANT = false := by
      have hw := hgo.1.2
      unfold State.working at hw
      simp only [Bool.and_eq_true, Bool.not_eq_true'] at hw
      exact hw.1.2
    obtain ⟨-, -, -, -, t5, -, t7, t8, t9, -⟩ := u.cycleStart_spec htu (State.frozen_of_unfenced hfen)
    exact ⟨fun h => absurd hgo.1.1.2 h, t8.trans h2, t9.trans h3, fun i hi hb => t5 i hi (by rwa [h4]), fun p f hp => (t7 p f hp).trans (h4 p f)⟩
  · rw [if_neg hgo] at htu
    subst htu
    exact ⟨fun _ => h1, h2, h3, fun i _ hb => by rwa [h4], fun p f _ => h4 p f⟩
theorem State.cycleLine_lt (s : State) (b : Nat) : s.cycleLine b < 2 ^ 32 := Nat.mod_lt _ (by decide)
/-- What a trim cycle that serves its lowest bar leaves. -/
theorem State.cycleBar_spec {s : State} {b : Nat} (hb : b < 8) (hw : s.working pCHANT = true) {late free : Prop}
    (hlate : late ↔ diff32 (s.cycleLine b) (s.get (pLINE b) R.LINE_SEQ) ≤ 0) (hfree : free ↔ (s.pipeAt b).armed = none ∧ s.pipeShut b = false) {t : State}
    (ht : s.cycleBar b = t) : t.get pCHANT R.CHANT_CYC_LINE = s.cycleLine b ∧ (setBit s.chant.bars b false ≠ 0 → t.chant.bars = setBit s.chant.bars b false) ∧
    cycleArms s t b (s.cycleLine b) free late ∧ s.lsOnly t [(tabAddr 0 (1 - s.activeCopy b 0) b, tabSize 0)] := by
  obtain ⟨hpc, hpl, -, hlc, hll, -⟩ := pPIPE_apart hb
  have hfen : s.fenced pCHANT = false := by
    unfold State.working at hw
    simp only [Bool.and_eq_true, Bool.not_eq_true'] at hw
    exact hw.1.2
  obtain ⟨armed, harmed⟩ : ∃ a, ((s.pipeAt b).armed.isSome || s.pipeShut b) = a := ⟨_, rfl⟩
  have hfa : free ↔ armed = false := by
    rw [hfree, ← harmed, Bool.or_eq_false_iff, Option.isSome_eq_false_iff, Option.isNone_iff_eq_none]
  obtain ⟨u, hu⟩ : ∃ u, s.cycleWrite b (s.cycleLine b) (!armed) (s.cycleMode b) (s.trims b (s.cycleMode b)) = u := ⟨_, rfl⟩
  obtain ⟨v, hv⟩ : ∃ v, u.cycleArm b (s.cycleLine b) armed = v := ⟨_, rfl⟩
  have hvt : v.cycleServed b = t := by
    rw [← ht, ← hv, ← hu, ← harmed]
    rfl
  obtain ⟨u1, u2, u3, u4, u5, u6, u7⟩ := s.cycleWrite_spec hb _ _ _ _ hu
  have hup : ∀ i, u.pipeAt i = s.pipeAt i := fun i => by
    unfold State.pipeAt
    rw [u5]
  have hushut : u.pipeShut b = s.pipeShut b := State.pipeShut_at u6 u7 (u1 _ _ hpl (Or.inl hpc)) (u1 _ _ (by decide) (Or.inl (by decide)))
  have hufrozen : u.frozen pCHANT = false :=
    (State.frozen_congr (u1 _ R.PG_FENCE_FENCED (by decide) (Or.inr (by decide)))).trans (State.frozen_of_unfenced hfen)
  obtain ⟨⟨a1, a2, a3⟩, f1, f2, -, f4⟩ := u.cycleArm_spec hb (s.cycleLine b) armed hv hufrozen
    (fun h => by rw [← harmed, ← hushut, h, Bool.or_true]) (late := late) (by rw [hlate, u1 _ _ hll (Or.inl hlc)])
  obtain ⟨s1, s2, s3, s4, s5⟩ := v.cycleServed_spec b hvt
  have htp : ∀ i, t.pipeAt i = v.pipeAt i := fun i => by
    unfold State.pipeAt
    rw [s3]
  have hdc := u1 pCHANT R.CHANT_DEFER_CNT (by decide) (Or.inr (by decide))
  rw [f1, u4] at s1
  refine ⟨?_, s1, ⟨fun hf hl => ?_, fun h => ?_, fun i hi => ?_⟩, State.lsOnly_trans u3 (State.lsOnly_of_hold (s2.trans f4) _)⟩
  · rw [s5 _ _ (Or.inr (by decide)), f2, u2, Nat.mod_eq_of_lt (s.cycleLine_lt b)]
  · obtain ⟨b1, b2, b3, b4⟩ := a1 (hfa.mp hf) hl
    rw [htp, b1, hup, s5 _ _ (Or.inl hpc), s5 _ _ (Or.inl hpc), s5 _ _ (Or.inr (by decide)), b2, b3, b4]
    exact ⟨rfl, rfl, rfl, hdc⟩
  · obtain ⟨b1, b2, b3, b4⟩ := a2 (h.imp (fun hn hf => hn (hfa.mpr hf)) id)
    refine ⟨by rw [htp, b1, hup], s4 5 (by decide) b2, ?_, fun hf => ?_⟩
    · rw [s5 _ _ (Or.inr (by decide)), b3, hdc]
    · rw [s5 _ _ (Or.inl hpc), b4 (hfa.mp hf)]
  · rw [htp, a3 i hi, hup]
theorem exec_trimCycleBar_idle {s : State} {b : Bar} (h : s.working pCHANT = false ∨ lowBit 8 s.chant.bars ≠ some b.val ∨ (s.pipeAt b).copy ≠ none ∨
    s.loopHolds = true) : exec (.trimCycleBar b) s = .next s := by
  change execTrimCycleBar b s = _
  unfold execTrimCycleBar
  rw [if_neg]
  simp only [Bool.and_eq_true, beq_iff_eq, Option.isNone_iff_eq_none, Bool.not_eq_true', not_and_or, Bool.not_eq_true, Bool.not_eq_false]
  rcases h with h | h | h | h
  · exact Or.inl (Or.inl (Or.inl h))
  · exact Or.inl (Or.inl (Or.inr h))
  · exact Or.inl (Or.inr h)
  · exact Or.inr h
theorem exec_trimCycleBar {s : State} {b : Bar} (hw : s.working pCHANT = true) (hb : lowBit 8 s.chant.bars = some b.val) (hc : (s.pipeAt b).copy = none)
    (hl : s.loopHolds = false) : exec (.trimCycleBar b) s = .next (s.cycleBar b) := by
  change execTrimCycleBar b s = _
  unfold execTrimCycleBar
  rw [if_pos (by simp [hw, hb, hc, hl])]

end Sys2Proof.Machine
end

section
/-! ### TRIM, and Chanter's work as a whole (O51) -/
open Sys2Proof Sys2Proof.Machine
namespace Sys2Proof.Machine

theorem State.lateCommand_peerCam (s : State) (b line : Nat) : (s.lateCommand b line).pair.peerCam = s.pair.peerCam := by
  obtain ⟨g, m, v, r, -, h⟩ := (s.lateNoted b line).pairCause_pair 8 0x71 b
  obtain ⟨r', w, hrep⟩ : s.reports (s.lateNoted b line) :=
    ((s.reports_incSat _ _).trans (State.reports_err _ _ _ _ _ _ _)).trans (State.reports_cause _ _ _)
  rw [State.lateCommand_eq, h, hrep]
/-- A part of a trim set as it is taken: the camera unit is seen, and a late part is counted. -/
def State.trimSeen (s : State) (b line : Nat) : State := if s.peerCamSeen.lineLate b line then s.peerCamSeen.lateCommand b line else s.peerCamSeen
theorem State.trimSeen_spec {s : State} (hon : s.pairOn = true) (b line : Nat) {t : State} (ht : s.trimSeen b line = t) :
    t.pair.peerCam = (if s.straps.home then none else some s.tick) ∧ (∀ q f, q ≠ pPAIR → t.get q f = s.get q f) ∧ t.hold = s.hold ∧ t.pipe = s.pipe ∧
    t.srsts = s.srsts ∧ t.heldReset = s.heldReset ∧ (s.lineLate b line = false → t.pair.trims = s.pair.trims) ∧
    (s.lineLate b line = true → t.get pPAIR R.PAIR_LATE_CNT = min (s.get pPAIR R.PAIR_LATE_CNT + 1) (2 ^ R.PAIR_LATE_CNT.w - 1) ∧
      bit (t.get pPAIR R.PG_IRQ_RAW) 7 = true) := by
  have hsame : s.peerCamSeen.lineLate b line = s.lineLate b line := rfl
  unfold State.trimSeen at ht
  rw [hsame] at ht
  cases hl : s.lineLate b line with
  | false =>
    rw [hl, if_neg (by decide)] at ht
    subst ht
    exact ⟨rfl, fun _ _ _ => rfl, rfl, rfl, rfl, rfl, fun _ => rfl, fun h => absurd h (by decide)⟩
  | true =>
    rw [hl, if_pos rfl] at ht
    have hcam := s.peerCamSeen.lateCommand_peerCam b line
    have hlate := lateTaken_lateCommand (s := s.peerCamSeen) hon b line
    have hhold := s.peerCamSeen.lateCommand_hold b line
    rw [ht] at hcam hlate hhold
    obtain ⟨h1, h2, -, -, -, h3, h4⟩ := hlate
    refine ⟨hcam, h3, hhold, ?_, ?_, ?_, fun h => absurd h (by decide), fun _ => ⟨h1, h2⟩⟩
    · have := congrArg State.pipe h4
      exact this
    · have := congrArg State.srsts h4
      exact this
    · have := congrArg State.heldReset h4
      exact this
/-- The parts of a bar's trim set that have come before, with the mark of a late one. -/
def State.trimOld (s : State) (b cycle : Nat) : Nat := ((s.pair.trims.find? fun e => e.1 == b && e.2.1 == cycle).map (·.2.2)).getD 0
/-- The parts that have come with this one. -/
def trimBits (old part : Nat) (late : Bool) : Nat := old ||| 2 ^ (part % 16) ||| (if late then 2 ^ 16 else 0)
theorem or_pow_mod (a m n : Nat) : (a ||| 2 ^ m ||| 2 ^ n) % 2 ^ n = (a ||| 2 ^ m) % 2 ^ n := by
  rw [Nat.or_mod_two_pow, Nat.mod_self, Nat.or_zero]
theorem testBit_or_pow_below (a : Nat) {m n : Nat} (h : m < n) : (a ||| 2 ^ m).testBit n = a.testBit n := by
  rw [Nat.testBit_or, Nat.testBit_two_pow_of_ne (by omega), Bool.or_false]
theorem testBit_or_pow_self (a n : Nat) : (a ||| 2 ^ n).testBit n = true := by
  rw [Nat.testBit_or, Nat.testBit_two_pow_self, Bool.or_true]
theorem trimBits_spec (old part : Nat) (late : Bool) : trimBits old part late % 2 ^ 16 = (old ||| 2 ^ (part % 16)) % 2 ^ 16 ∧
    bit (trimBits old part late) 16 = (bit old 16 || late) := by
  unfold trimBits bit
  cases late with
  | false =>
    rw [if_neg Bool.false_ne_true, Nat.or_zero, testBit_or_pow_below old (Nat.mod_lt part (by decide)), Bool.or_false]
    exact ⟨rfl, rfl⟩
  | true =>
    rw [if_pos rfl, Bool.or_true]
    exact ⟨or_pow_mod _ _ _, testBit_or_pow_self _ _⟩
/-- The set is kept until it is whole, and arms a swap once it is. -/
def State.trimKept (s : State) (b line : Nat) (arm : Bool) (npart cycle bits : Nat) : State :=
  let full := bits % 2 ^ 16 == 2 ^ (npart % 16) - 1
  let u := s.updPair fun p => { p with trims := (p.trims.filter fun e => e.1 != b) ++ (if full then [] else [(b, cycle, bits)]) }
  if full && arm && !bit bits 16 then (u.trimArm b line).1 else u
/-- What a part of a trim set that is taken does. -/
def State.trimTaken (s : State) (b line k0 : Nat) (dot arm : Bool) (deltas : List Int) (part npart cycle : Nat) : State :=
  let u := (s.trimSeen b line).trimWrite b k0 dot deltas
  u.trimKept b line arm npart cycle (trimBits (u.trimOld b cycle) part (s.peerCamSeen.lineLate b line))
theorem State.trimTaken_eq {s v w : State} {b line k0 : Nat} {dot : Bool} {deltas : List Int} (hv : s.trimSeen b line = v) (hw : v.trimWrite b k0 dot deltas = w)
    (arm : Bool) (part npart cycle : Nat) : s.trimTaken b line k0 dot arm deltas part npart cycle =
      w.trimKept b line arm npart cycle (trimBits (w.trimOld b cycle) part (s.lineLate b line)) := by
  subst hv hw
  rfl
theorem State.crookCmd_taken {s u : State} {hd : CrookHdr} (h : s.hearsCmd hd) (hu : u = s.noted hd) (g : State → State) : s.crookCmd hd g = g u := by
  obtain ⟨hh, h3, h3'⟩ := h
  have H : s.heardBy u := hu ▸ hh.heardBy
  refine (State.crookMsg_heard hh fun t => if t.pairState = 3 ∨ t.peerState = 3 then t else g t).trans ?_
  rw [← hu, H.pairState, H.peerState, if_neg (not_or.mpr ⟨h3, h3'⟩)]
theorem exec_trim {s u : State} {hd : CrookHdr} (h : s.hearsCmd hd) (hu : u = s.noted hd) (b : Bar) (line cycle : W32) (k0 nk : BitVec 16) (arm dot : Bool)
    (part npart : Byte) (deltas : List Byte) : exec (.trim hd b line k0 nk arm dot part npart cycle deltas) s =
    .next (u.trimTaken b line.toNat k0.toNat dot arm ((deltas.take nk.toNat).map (·.toInt)) part.toNat npart.toNat cycle.toNat) := by
  change execTrim hd b line k0 nk arm dot part npart cycle deltas s = _
  unfold execTrim
  dsimp only
  rw [State.crookCmd_taken h hu]
  unfold State.trimTaken State.trimKept trimBits State.trimOld State.trimSeen
  dsimp only
  obtain ⟨w, hw⟩ : ∃ w, (if u.peerCamSeen.lineLate b line.toNat then u.peerCamSeen.lateCommand b line.toNat else u.peerCamSeen).trimWrite b k0.toNat dot
    ((deltas.take nk.toNat).map (·.toInt)) = w := ⟨_, rfl⟩
  rw [hw]
  cases w.pair.trims.find? fun e => e.1 == b.val && e.2.1 == cycle.toNat <;> rfl
/-- What the last step of TRIM leaves: a swap armed where it is the last part of a set in time, and nothing else beside the pair's state. -/
theorem State.trimKept_spec (s : State) (b : Nat) (line : Nat) (arm : Bool) (npart cycle bits : Nat) {t : State} (ht : s.trimKept b line arm npart cycle bits = t) {go : Prop}
    (hgo : go ↔ bits % 2 ^ 16 = 2 ^ (npart % 16) - 1 ∧ arm = true ∧ bit bits 16 = false) :
    (go → s.pipeShut b = false → s.lineLate b line = false → t.pipeAt b = { s.pipeAt b with armed := some (trimSwap line) } ∧ t.get (pPIPE b) R.PIPE_TSTAT_ARMED = 1) ∧
    (¬ go ∨ s.pipeShut b = true → t.pipe = s.pipe ∧ ∀ p f, t.get p f = s.get p f) ∧ t.hold = s.hold ∧ t.pair.peerCam = s.pair.peerCam := by
  obtain ⟨u, hu⟩ : ∃ u, (s.updPair fun p => { p with trims := (p.trims.filter fun e => e.1 != b) ++
      (if bits % 2 ^ 16 == 2 ^ (npart % 16) - 1 then [] else [(b, cycle, bits)]) }) = u := ⟨_, rfl⟩
  have hus : u.pipe = s.pipe ∧ (∀ p f, u.get p f = s.get p f) ∧ u.hold = s.hold ∧ u.pair.peerCam = s.pair.peerCam ∧ u.pipeShut b = s.pipeShut b ∧
      u.pipeAt b = s.pipeAt b := by
    rw [← hu]
    exact ⟨rfl, fun _ _ => rfl, rfl, rfl, rfl, rfl⟩
  obtain ⟨h1, h2, h3, h4, h5, h6⟩ := hus
  unfold State.trimKept at ht
  dsimp only at ht
  rw [hu] at ht
  by_cases hg : go
  · obtain ⟨g1, g2, g3⟩ := hgo.mp hg
    have hcond : (bits % 2 ^ 16 == 2 ^ (npart % 16) - 1 && arm && !bit bits 16) = true := by
      rw [g2, g3, beq_iff_eq.mpr g1]
      rfl
    rw [if_pos hcond] at ht
    cases hshut : s.pipeShut b with
    | true =>
      rw [State.trimArm_shut (h5.trans hshut)] at ht
      subst ht
      exact ⟨fun _ h => absurd h (by decide), fun _ => ⟨h1, h2⟩, h3, h4⟩
    | false =>
      by_cases hl : diff32 line (u.get (pLINE b) R.LINE_SEQ) ≤ 0
      · rw [State.trimArm_late (h5.trans hshut) hl] at ht
        have hlate : s.lineLate b line = true := by
          rw [h2] at hl
          exact decide_eq_true hl
        have hrep : u.reports t := by
          rw [← ht]
          exact (u.reports_set _ _ _).trans (State.reports_cause _ _ _)
        obtain ⟨r, w, hrep⟩ := hrep
        refine ⟨fun _ _ h => absurd (hlate.symm.trans h) (by decide), fun h => ?_, ?_, ?_⟩
        · rcases h with h | h
          · exact absurd hg h
          · exact absurd h (by decide)
        · rw [← h3, hrep]
          rfl
        · rw [← h4, hrep]
      · rw [State.trimArm_ahead (h5.trans hshut) hl] at ht
        obtain ⟨a1, a2, -, -, -, a6, -, a8⟩ := u.trimArmed_spec b line ht
        refine ⟨fun _ _ _ => ⟨by rw [a1, h6], a2⟩, fun h => ?_, a6.trans h3, by rw [a8, h4]⟩
        rcases h with h | h
        · exact absurd hg h
        · exact absurd h (by decide)
  · rw [if_neg] at ht
    · subst ht
      exact ⟨fun h => absurd h hg, fun _ => ⟨h1, h2⟩, h3, h4⟩
    · simp only [Bool.and_eq_true, beq_iff_eq, Bool.not_eq_true']
      exact fun h => hg (hgo.mpr ⟨h.1.1, h.1.2, h.2⟩)
/-- A part of a trim set that is heard. -/
theorem trim_heard {s u : State} {hd : CrookHdr} (h : s.hearsCmd hd) (hu : u = s.noted hd) (b : Bar) (line cycle : W32) (k0 nk : BitVec 16) (arm dot : Bool)
    (part npart : Byte) (deltas : List Byte) {old : Nat} {last : Prop}
    (hold : old = ((s.pair.trims.find? fun e => e.1 == b.val && e.2.1 == cycle.toNat).map (·.2.2)).getD 0)
    (hlast : last ↔ (old ||| 2 ^ (part.toNat % 16)) % 2 ^ 16 = 2 ^ (npart.toNat % 16) - 1 ∧ arm = true ∧ bit old 16 = false) :
    ∃ t, exec (.trim hd b line k0 nk arm dot part npart cycle deltas) s = .next t ∧ t.pair.peerCam = (if s.straps.home then none else some s.tick) ∧
      (s.lineLate b line.toNat = true → t.get pPAIR R.PAIR_LATE_CNT = min (s.get pPAIR R.PAIR_LATE_CNT + 1) (2 ^ R.PAIR_LATE_CNT.w - 1) ∧
        bit (t.get pPAIR R.PG_IRQ_RAW) 7 = true ∧ t.pipe = s.pipe) ∧
      (s.lineLate b line.toNat = false → last → s.pipeShut b = false → t.pipeAt b = { s.pipeAt b with armed := some (trimSwap line.toNat) } ∧
        t.get (pPIPE b) R.PIPE_TSTAT_ARMED = 1) ∧ (¬ last ∨ s.pipeShut b = true → t.pipe = s.pipe) ∧
      u.lsOnly t [(tabAddr 0 (1 - s.activeCopy b 0) b, tabSize 0)] := by
  have H : s.heardBy u := hu ▸ h.1.heardBy
  obtain ⟨hpc, hpl, hpp, hlc, hll, hlp⟩ := pPIPE_apart b.isLt
  obtain ⟨htick, -⟩ := H.kept
  obtain ⟨-, hupipe, -⟩ := H.rest
  have hu' : u.pair.trims = s.pair.trims ∧ u.srsts = s.srsts ∧ u.heldReset = s.heldReset := by
    obtain ⟨r, c, w, o, a, x, g, n, hs⟩ := H.shape
    rw [hs]
    exact ⟨rfl, rfl, rfl⟩
  obtain ⟨hutrims, husr, huheld⟩ := hu'
  obtain ⟨v, hv⟩ : ∃ v, u.trimSeen b line.toNat = v := ⟨_, rfl⟩
  obtain ⟨v1, v2, v3, v4, v5, v6, v7, v8⟩ := State.trimSeen_spec H.on b line.toNat hv
  have hstep := v.trimWrite_spec b k0.toNat dot ((deltas.take nk.toNat).map (·.toInt))
  have hcopy : v.activeCopy b 0 = s.activeCopy b 0 := by
    unfold State.activeCopy
    rw [v2 _ _ hpp, H.page hpp]
  rw [hcopy] at hstep
  obtain ⟨w, hw⟩ : ∃ w, v.trimWrite b k0.toNat dot ((deltas.take nk.toNat).map (·.toInt)) = w := ⟨_, rfl⟩
  rw [hw] at hstep
  obtain ⟨g, ww, x, e, y, hshape⟩ := hstep.shape
  have hws : w.pipe = s.pipe ∧ w.pair = v.pair ∧ w.srsts = s.srsts ∧ w.heldReset = s.heldReset := by
    rw [hshape]
    exact ⟨v4.trans hupipe, rfl, v5.trans husr, v6.trans huheld⟩
  obtain ⟨w1, w2, w3, w4⟩ := hws
  have hwg : ∀ (p : Nat) (f : Fld), p ≠ pPAIR → p ≠ pLSTORE → p ≠ pCHANT → w.get p f = s.get p f := fun p f h1 h2 h3 => by
    rw [hstep.page p f h2 (Or.inl h3), v2 p f h1, H.page h1]
  have hwshut : w.pipeShut b = s.pipeShut b := State.pipeShut_at w3 w4 (hwg _ _ hpp hpl hpc) (hwg _ _ (by decide) (by decide) (by decide))
  have hwlate : w.lineLate b line.toNat = s.lineLate b line.toNat := by
    unfold State.lineLate
    rw [hwg _ _ hlp hll hlc]
  have hwat : w.pipeAt b = s.pipeAt b := by
    unfold State.pipeAt
    rw [w1]
  rw [H.lineLate] at v7 v8
  obtain ⟨bits, hbits⟩ : ∃ bits, trimBits (w.trimOld b cycle.toNat) part.toNat (s.lineLate b line.toNat) = bits := ⟨_, rfl⟩
  obtain ⟨hb1, hb2⟩ := trimBits_spec (w.trimOld b cycle.toNat) part.toNat (s.lineLate b line.toNat)
  rw [hbits] at hb1 hb2
  obtain ⟨t, ht⟩ : ∃ t, w.trimKept b line.toNat arm npart.toNat cycle.toNat bits = t := ⟨_, rfl⟩
  have hexec := exec_trim h hu b line cycle k0 nk arm dot part npart deltas
  rw [State.trimTaken_eq hv hw, H.lineLate, hbits, ht] at hexec
  obtain ⟨k1, k2, k3, k4⟩ := w.trimKept_spec b line.toNat arm npart.toNat cycle.toNat bits ht Iff.rfl
  rw [hwshut, hwlate, hwat] at k1
  rw [hwshut] at k2
  have hgo : s.lineLate b line.toNat = false → (last ↔ bits % 2 ^ 16 = 2 ^ (npart.toNat % 16) - 1 ∧ arm = true ∧ bit bits 16 = false) := fun hl => by
    have hwold : w.trimOld b cycle.toNat = old := by
      unfold State.trimOld
      rw [w2, v7 hl, hutrims, hold]
    rw [hlast, hb1, hb2, hwold, hl, Bool.or_false]
  have hlate : s.lineLate b line.toNat = true → bit bits 16 = true := fun hl => by rw [hb2, hl, Bool.or_true]
  refine ⟨t, hexec, ?_, fun hl => ?_, fun hl hg hs => k1 ((hgo hl).mp hg) hs hl, fun hn => ?_, ?_⟩
  · rw [k4, w2, v1, H.straps, htick]
  · obtain ⟨l1, l2⟩ := v8 hl
    obtain ⟨m1, m2⟩ := k2 (Or.inl fun hg => absurd hg.2.2 (by rw [hlate hl]; decide))
    have hpair : ∀ f : Fld, t.get pPAIR f = v.get pPAIR f := fun f => (m2 _ f).trans (hstep.page _ f (by decide) (Or.inl (by decide)))
    refine ⟨?_, by rw [hpair]; exact l2, m1.trans w1⟩
    rw [hpair, l1, H.get (by decide) (by decide)]
  · refine (k2 ?_).1.trans w1
    rcases hn with hn | hn
    · refine Or.inl fun hg => ?_
      cases hl : s.lineLate b line.toNat with
      | false => exact hn ((hgo hl).mpr hg)
      | true => exact absurd hg.2.2 (by rw [hlate hl]; decide)
    · exact Or.inr hn
  · exact State.lsOnly_trans (State.lsOnly_of_hold v3 _) (State.lsOnly_trans hstep.only (State.lsOnly_of_hold k3 _))

/-! ### The four clauses together -/

theorem sumsOnly_flushNext {s u : State} {c : Nat} (h : sumsOnly (s.flushNext c) u) : sumsOnly s u := by
  have hkey : ∀ x, (s.flushNext c).burstKey x = s.burstKey x := fun _ => rfl
  have hchk : ∀ x, (s.flushNext c).burstChk x = s.burstChk x := fun _ => rfl
  have haddr : ∀ bank k, (s.flushNext c).colAddr bank k = s.colAddr bank k := fun _ _ => rfl
  have hkept : (s.flushNext c).pending = s.pending ∧ (s.flushNext c).flash = s.flash ∧ (s.flushNext c).dramMem = s.dramMem ∧
      (s.flushNext c).dramChk = s.dramChk ∧ (s.flushNext c).lstore = s.lstore ∧ (s.flushNext c).chant.col = s.chant.col ∧
      (s.flushNext c).chant.cap = s.chant.cap ∧ (s.flushNext c).chant.zone = s.chant.zone := ⟨rfl, rfl, rfl, rfl, rfl, rfl, rfl, rfl⟩
  obtain ⟨h1, h2, h3, h4, h5, h6, h7, h8⟩ := hkept
  unfold sumsOnly State.dramOnly State.lsWithin at h ⊢
  simp only [hkey, hchk, haddr, h1, h2, h3, h4, h5, h6, h7, h8] at h
  exact h
/-- A flush that can end. -/
theorem flushEnd_works {s : State} {c : CamPort} {f : FlushSt} (hr : s.chantRuns = true) (hh : s.chant.flush.has c = true) (hf : s.flushFree = true)
    (hff : f = s.chant.flush.getD c ⟨0, true, none, 0, 0⟩) :
    ∃ t, exec (.flushEnd c) s = .next t ∧ t.chant.flush.has c = s.chant.flushQ.any (·.1 == c.val) ∧
      (∀ e, s.chant.flushQ.find? (·.1 == c.val) = some e → t.chant.flush.getD c ⟨0, true, none, 0, 0⟩ = e.2 ∧
        t.chant.flushQ.length + 1 = s.chant.flushQ.length) ∧ sumsOnly s t ∧ (s.fenced pCHANT = true → ∀ g, t.get pCHANT g = s.get pCHANT g) ∧
      (∀ a, s.fenced pCHANT = false → s.held pCHANT = false → s.srsts.has pCHANT = false → s.chant.fenceNext = some a →
        t.fenced pCHANT = true ∧ t.get pCHANT R.PG_FENCE_REASON = 0x11 ∧ t.chant.fenceNext = none) ∧
      (s.fenced pCHANT = false → (s.goodFrame c f = false →
          t.get pCHANT R.CHANT_FRSKIP_CNT = min (s.get pCHANT R.CHANT_FRSKIP_CNT + 1) (2 ^ R.CHANT_FRSKIP_CNT.w - 1)) ∧
        ∀ (l : Nat) (k : Tier) (w : Nat) (full : Prop), s.goodFrame c f = true → f.lcFirst = some l → s.tierOn k = true →
          w = (if (s.tier k).open_ then (s.tier k).wOpen else l) →
          (full ↔ (s.tierLen k : Int) ≤ diff32 (f.lcLast + 16) w ∨ ((s.tier k).open_ = true ∧ (s.tier k).closeDue = true)) → tierTakes s t f k w full) := by
  obtain ⟨u, hu⟩ : ∃ u, (s.flushNext c).flushSums c f = u := ⟨_, rfl⟩
  obtain ⟨v, hv⟩ : ∃ v, s.flushDo c f = v := ⟨_, rfl⟩
  obtain ⟨hsums, ⟨hflush, hflushQ⟩, -, -, -, -, hskip⟩ := (s.flushNext c).flushSums_frame c f hu
  obtain ⟨-, ⟨dflush, dflushQ⟩, dhold, dskip, dfence⟩ := s.flushDo_spec c f hu hv
  obtain ⟨hnext, hqueue⟩ := s.flushNext_spec c
  have hexec := exec_flushEnd (c := c) hr hh hf
  obtain ⟨t, ht⟩ : ∃ t, (s.chantWork fun t => t.flushDo c (t.chant.flush.getD c ⟨0, true, none, 0, 0⟩)) = t := ⟨_, rfl⟩
  have hstands := s.chantWork_stands fun t => t.flushDo c (t.chant.flush.getD c ⟨0, true, none, 0, 0⟩)
  rw [ht] at hexec hstands
  rw [← hff, hv] at hstands
  obtain ⟨thold, tchant⟩ := hstands
  have hfree : s.fenced pCHANT = false → t = v := fun hs => by rw [← ht, State.chantWork_free hs, ← hff, hv]
  refine ⟨t, hexec, ?_, fun e he => ?_, ?_, fun hs g => ?_, fun a h1 h2 h3 h4 => ?_, fun hs => ⟨fun hg => ?_, fun l k w full hg hl hk hw hfull => ?_⟩⟩
  · rw [tchant, dflush, hflush, hnext]
  · rw [tchant, dflush, hflush, dflushQ, hflushQ]
    exact hqueue e he
  · exact sumsOnly_congr (sumsOnly_flushNext hsums) (thold.trans dhold)
  · rw [← ht]
    exact State.chantWork_fenced hs _ g
  · rw [hfree h1]
    exact dfence a ⟨h1, h2, h3⟩ h4
  · rw [hfree hs, dskip]
    exact hskip hg
  · rw [hfree hs]
    exact State.flushDo_tier hv hg hl hk hw hfull
theorem State.chantWork_calst (s : State) (g : State → State) : (s.chantWork g).calst = (g s).calst := by
  unfold State.chantWork State.pageWork
  split <;> rfl
/-- A solve that can end. -/
theorem solveEnd_works {s : State} {k : Tier} {x : Nat × Nat × Nat × Nat × Nat} (hx : (s.tier k).solving = some x) (hr : s.chantRuns = true)
    (hrun : k = .capture → s.calst.runDone = false) (hfree : k ≠ .zone → s.colsFree x.1 = true) :
    ∃ t, exec (.solveEnd k) s = .next t ∧ (t.tier k).solving = none ∧ (s.fenced pCHANT = false → bit (t.get pCHANT R.PG_IRQ_RAW) 3 = true) ∧
      (s.fenced pCHANT = true → ∀ g, t.get pCHANT g = s.get pCHANT g) ∧ (k = .capture → t.calst.runDone = true) ∧
      (k ≠ .capture → (s.cyclePaced = true ∨ s.chant.bars ≠ 0 ∨ s.working pCHANT = false ∨ s.loopHolds = true →
          t.chant.cycleDue = true ∧ (t.tier k).fresh = true ∧ t.chant.bars = s.chant.bars) ∧
        (s.cyclePaced = false → s.chant.bars = 0 → s.working pCHANT = true → s.loopHolds = false → t.chant.cycleDue = false ∧
          t.chant.bars = s.get pCHANT R.CHANT_CTRL_TRIM_EN ∧ t.get pCHANT R.CHANT_CYCLE = (s.get pCHANT R.CHANT_CYCLE + 1) % 2 ^ 32 ∧
          bit (t.get pCHANT R.PG_IRQ_RAW) 4 = true)) ∧
      (k = .zone → s.lsOnly t [(zoneAddr x.1 0, 440 * 3012)]) ∧ (k ≠ .zone → s.dramStores t (burstsOf (s.colAddr x.1 0) (440 * 48192))) := by
  have htier : ∀ {u t : State}, t.chant = u.chant → t.tier k = u.tier k := fun h => by
    unfold State.tier
    rw [h]
  by_cases hk : k = .capture
  · subst hk
    obtain ⟨h1, h2, h3, h4⟩ := s.solveCapture_spec x rfl
    obtain ⟨thold, tchant⟩ := s.chantWork_stands fun u => u.solveCapture x
    have hcal := s.chantWork_calst fun u => u.solveCapture x
    obtain ⟨m1, m2⟩ := bankOnly_congr h4 thold
    refine ⟨_, exec_solveEnd_capture hx hr (hrun rfl) (hfree (by decide)), by rw [htier tchant]; exact h1, fun hs => ?_,
      fun hs g => State.chantWork_fenced hs _ g, fun _ => by rw [hcal]; exact h3, fun h => absurd rfl h, m1, m2⟩
    rw [State.chantWork_free hs]
    exact h2 hs
  · obtain ⟨tier, n, hexec⟩ := exec_solveEnd_loop hx hr hk hfree
    obtain ⟨h1, h2, h3, h4, h5⟩ := s.solveTier_done k tier n x
    obtain ⟨thold, tchant⟩ := s.chantWork_stands fun u => u.solveTier k tier n x
    obtain ⟨m1, m2⟩ := bankOnly_congr h5 thold
    refine ⟨_, hexec, by rw [htier tchant]; exact h1, fun hs => ?_, fun hs g => State.chantWork_fenced hs _ g, fun h => absurd h hk,
      fun _ => ⟨fun h => ?_, fun g1 g2 g3 g4 => ?_⟩, m1, m2⟩
    · rw [State.chantWork_free hs]
      exact h2 hs
    · rw [htier tchant, tchant]
      exact h3 h
    · have hs : s.fenced pCHANT = false := by
        unfold State.working at g3
        simp only [Bool.and_eq_true, Bool.not_eq_true'] at g3
        exact g3.1.2
      rw [State.chantWork_free hs]
      exact h4 g1 g2 g3 g4
/-- Settles O51: the flush by `flushEnd_works`, the solve by `solveEnd_works`, the cycle by `cycleBar_spec`, a part of a trim set by `trim_heard`. -/
theorem chanterWorks : Obligations.ChanterWorks := by
  unfold Obligations.ChanterWorks
  refine ⟨fun s c => ⟨fun h => exec_flushEnd_idle h, fun f hr hh hf hff => ?_⟩, fun s k => ⟨fun h => exec_solveEnd_idle h, fun x hx =>
    ⟨fun hk hfree => exec_solveEnd_busy hx hk hfree, fun hr hrun hfree => solveEnd_works hx hr hrun hfree⟩⟩, fun s b => ⟨fun h => exec_trimCycleBar_idle h,
    fun hw hb hc hl late free hlate hfree => ?_⟩, fun s hd b line cycle k0 nk arm dot part npart deltas u old last h hu hold hlast => ?_⟩
  · obtain ⟨t, h1, h2, h3, h4, h5, h6, h7⟩ := flushEnd_works hr hh hf hff
    refine ⟨t, h1, h2, h3, h4, h5, h6, fun hs good hgood => ?_⟩
    rw [hgood]
    exact h7 hs
  · obtain ⟨h1, h2, ⟨h3, h4, h5⟩, h6⟩ := State.cycleBar_spec b.isLt hw hlate hfree rfl
    exact ⟨_, exec_trimCycleBar hw hb hc hl, h1, h2, h3, h4, h5, h6⟩
  · exact trim_heard h hu b line cycle k0 nk arm dot part npart deltas hold hlast

end Sys2Proof.Machine
end

end
